-- ==== Sys2Proof/Word.lean ====
section
/-! DEFINITION. The word types of the block: what the spec numbers as bits (R6: bit 0 is the least significant bit, every
register, packet, record and queue element is little-endian). -/

namespace Sys2Proof

/-- A byte. -/
abbrev Byte := BitVec 8
/-- A register of the address map, at most 64 bits wide (R438). -/
abbrev Word := BitVec 64
/-- A 32-bit field. -/
abbrev Word32 := BitVec 32

/-- A pilot, PLT0 to PLT15. -/
abbrev PilotNo := Fin 16
/-- A pin, P00 to P47. -/
abbrev PinNo := Fin 48
/-- A meridian, MER0 to MER7 (R31). -/
abbrev MerNo := Fin 8
/-- A cluster, CL0 to CL3. -/
abbrev ClusterNo := Fin 4
/-- A Depot queue. -/
abbrev QueueNo := Fin 16384
/-- A Helm ring (R361). -/
abbrev RingNo := Fin 256
/-- An HBM channel, numbered over the four stacks (R304). -/
abbrev ChannelNo := Fin 64

end Sys2Proof
end

