-- ==== Sys2Proof/Syntax.lean ====
section
/-! DEFINITION. The commands of the block, one for each row of the command table, and the data that they carry. An operand
whose range the spec bounds by a field's width is a bit vector of that width, a unit's number is a Fin, and WellFormed.lean checks
the rest. Instants are in units of 1/3 fs where named so, and in units of 20 fs, a stamp's resolution, in at20fs, arrive and leave. -/

namespace Sys2Proof

/-- A Helm command packet as a command row carries it (R365): the ring it was committed to, and the packet's fields but its
opcode, which the row names. -/
structure Packet where
  onRing : RingNo
  flags : BitVec 16
  tag : BitVec 32
  job : BitVec 16
  ring : BitVec 16
  length : BitVec 8
  deadline : BitVec 24
  params : BitVec 384
  deriving DecidableEq, Repr

/-- What a MUSTER flit carries (R433, R434); the spec gives the messages' contents and no layout (assumption 38). -/
inductive MusterMsg where
  | hello (member convoy root hops : Nat)
  /-- one of the three pieces of a manifest -/
  | manifest (bytes : List Byte)
  | verdict (field member : Nat)
  | notice (convoy member : Nat)
  deriving DecidableEq, Repr

/-- A Wayline flit (R416) with a good CRC. -/
structure Flit where
  typ : Nat
  vc : Nat
  last : Bool
  launched : Bool
  seq : Nat
  dst : Nat
  src : Nat
  ttl : Nat
  xid : Nat
  word : Nat
  payload : List Byte
  muster : Option MusterMsg := none
  deriving DecidableEq, Repr

/-- A meridian's control registers (R38). -/
inductive MerReg where
  | ctl | fword | track | flim
  deriving DecidableEq, Repr

/-- What a converter's input averages to over its window, or stands at when it is sampled: a voltage in nV, differential at a
rail-sense input, and the PMU's current in fA, positive out of the device (R272, R276). -/
structure Analogue where
  volt : Int
  current : Int
  deriving DecidableEq, Repr

/-- A DMA granule at its end: its index, and the error status that the host's answer to its read carried, if the host gave no data
(R344, R352). -/
structure GranuleEnd where
  granule : Nat
  err : Option (BitVec 3)
  deriving DecidableEq, Repr

/-- What a maintenance read finds on a lane (R313, R327). -/
structure LaneErr where
  ch : ChannelNo
  lane : Fin 72
  /-- errors found in the maintenance pattern -/
  errs : BitVec 16
  /-- what the lane gave in the 64 beats of check mode -/
  seen : BitVec 64
  /-- where the centre of the eye lies: before the lane's read delay, at it, or after it -/
  toward : Fin 3
  deriving DecidableEq, Repr

/-- The voltage that a pin's comparator meets at a strobe, and whether it crosses a threshold while the strobe is open. -/
structure PinSeen where
  nv : Int
  crossing : Bool
  deriving DecidableEq, Repr

/-- A tracked meridian and the frequency, as a frequency word (R38), of the edges at its input. -/
structure MerInput where
  mer : MerNo
  fin : BitVec 48
  deriving DecidableEq, Repr

/-- The commands of the block: one constructor for each row of the command table, with the row's operands. -/
inductive Instr where
  /-- REGISTER_WRITE (R9). A BAR0 or class 0xE write to a register with no row of its own stores the value, or is ignored or
  discarded under the access rules. -/
  | registerWrite (addr : BitVec 26) (bytes : List Byte) (poisoned : Bool)
  /-- IMMEDIATE_MILESTONE (R12). The milestone scheduler delivers a register write to a data-plane block, which takes effect at
  that meridian reading. -/
  | immediateMilestone
  /-- ARBITER_GRANT (R21). A channel's class arbiter grants the first non-empty group in fixed order. -/
  | arbiterGrant (ch : ChannelNo)
  /-- FENCE_COMPLETE (R25). A source port's fence completes once every earlier write from that port is acknowledged. -/
  | fenceComplete (port : Fin 19)
  /-- WRITE_QUEUE_DRAIN (R315). A channel's write queue drains entries to the stack, ahead of other requests when a read
  matches. -/
  | writeQueueDrain (ch : ChannelNo)
  /-- DOORBELL_RELEASE (R27). A held PCIe doorbell write is released once every earlier BAR2 write is acknowledged. -/
  | doorbellRelease
  /-- BAR2_READ (R357). A host read through the BAR2 window is translated and completes, aborts on a fault or is poisoned. -/
  | bar2Read (off : BitVec 36) (len : BitVec 13)
  /-- BAR2_WRITE (R357). A host write through the BAR2 window is translated and performed, or is discarded on a fault. -/
  | bar2Write (off : BitVec 36) (bytes : List Byte) (poisoned : Bool)
  /-- STRIDE (R127). A Pilot forms and issues one stride of up to 32 vectors in a Pilot cycle. -/
  | stride (p : PilotNo)
  /-- VECTOR_PERIOD (R29). A vector period begins and the pin pipeline removes one vector from its issue queue and places its
  edges. -/
  | vectorPeriod (n : PinNo)
  /-- COMPARE_RESULT_ARRIVAL (R30). A compare result reaches the Pilot's fail logic 32 Pilot cycles after its strobe closes. -/
  | compareResultArrival (n : PinNo) (seen : PinSeen) (held : Bool)
  /-- NOP (R136). Route instruction that does nothing. -/
  | nop (p : PilotNo)
  /-- VEC (R136). Route instruction that issues the next n rows. -/
  | vec (p : PilotNo) (n : BitVec 32)
  /-- RPT (R136). Route instruction that issues the next row n times. -/
  | rpt (p : PilotNo) (n : BitVec 32)
  /-- PAD (R136). Route instruction that issues the leg's pad vector n times. -/
  | pad (p : PilotNo) (n : BitVec 32)
  /-- LOOP (R138). Route instruction that opens a loop on a counter and pins its body. -/
  | loop (p : PilotNo) (c : Fin 8) (b : BitVec 16) (n : BitVec 32)
  /-- ENDL (R136). Route instruction that decrements the innermost loop counter and branches or leaves the loop. -/
  | endl (p : PilotNo) (c : Fin 8)
  /-- JMP (R136). Route instruction that branches to a branch-table entry. -/
  | jmp (p : PilotNo) (b : BitVec 16)
  /-- CALL (R138). Route instruction that pushes the return point and branches. -/
  | call (p : PilotNo) (b : BitVec 16)
  /-- RET (R138). Route instruction that pops the return point and branches to it. -/
  | ret (p : PilotNo)
  /-- FAIL_MARK (R144). Route instruction that sets the fail marker before the next vector. -/
  | failMark (p : PilotNo)
  /-- JMP_FAIL (R144). Route instruction that issues hpad pads and branches if a covered vector failed on a group. -/
  | jmpFail (p : PilotNo) (g : Fin 8) (b : BitVec 16)
  /-- JMP_PASS (R144). Route instruction that issues hpad pads and branches if no covered vector failed on a group. -/
  | jmpPass (p : PilotNo) (g : Fin 8) (b : BitVec 16)
  /-- JMP_IND (R136). Route instruction that branches to the entry held in an ALU register. -/
  | jmpInd (p : PilotNo) (a : Fin 8)
  /-- JMP_ABS (R136). Route instruction that branches to an absolute position, holding at a waypoint. -/
  | jmpAbs (p : PilotNo) (a : Fin 8)
  /-- MATCH (R147). Route instruction that repeats a body until an iteration passes or the limit times out. -/
  | matchLoop (p : PilotNo) (g : Fin 8) (b : BitVec 16) (k1 : BitVec 12) (t1 : BitVec 20)
  /-- ALU_SET (R136). Route instruction that loads an ALU register with an immediate. -/
  | aluSet (p : PilotNo) (a : Fin 8) (imm : BitVec 32)
  /-- ALU_ADD (R136). Route instruction that adds an immediate to an ALU register. -/
  | aluAdd (p : PilotNo) (a : Fin 8) (imm : BitVec 32)
  /-- JMP_ANZ (R136). Route instruction that decrements a non-zero ALU register and branches. -/
  | jmpAnz (p : PilotNo) (a : Fin 8) (b : BitVec 16)
  /-- WAIT_ODO (R140). Route instruction that pads until the next period begins at or after S + t. -/
  | waitOdo (p : PilotNo) (lateFault : Bool) (t : BitVec 48)
  /-- MS_POST (R142). Route instruction that commits a milestone report to a job queue. -/
  | msPost (p : PilotNo) (q : Fin 16) (tag : BitVec 16)
  /-- LEGEND_SEL (R124). Route instruction that selects the Legend bank for later vectors. -/
  | legendSel (p : PilotNo) (bank : Fin 2)
  /-- TSET (R107). Route instruction that selects the timing-set index for later vectors. -/
  | tset (p : PilotNo) (k : BitVec 11)
  /-- WAYPT (R193). Route instruction that declares a waypoint and checks the guard bytes beyond it. -/
  | waypt (p : PilotNo) (h : BitVec 8)
  /-- LEG_START (R132). Route instruction that starts the next leg named by its leg-table entry. -/
  | legStart (p : PilotNo) (l : BitVec 12)
  /-- END_LEG (R135). Route instruction that ends the leg, and with last = 1 the route and job. -/
  | endLeg (p : PilotNo) (last : Bool)
  /-- CAP_CTL (R204). Route instruction that sets CT and total capture on a group for later vectors. -/
  | capCtl (p : PilotNo) (g : Fin 8) (ct : Bool) (total : Bool)
  /-- FFAIL_ARM (R198). Route instruction that re-arms the first-fail register from the next vector. -/
  | ffailArm (p : PilotNo)
  /-- SXT_WIN (R241). Route instruction that sets a Sextant channel window relative to P. -/
  | sxtWin (p : PilotNo) (ch : Fin 64) (opens : BitVec 24) (len : BitVec 24)
  /-- SXT_ARM (R241). Route instruction that arms or disarms masked Sextant channels at P. -/
  | sxtArm (p : PilotNo) (arm : Bool) (mask : BitVec 52)
  /-- DDS_HOP (R264). Route instruction that moves a DDS engine to a profile entry at P. -/
  | ddsHop (p : PilotNo) (e : Fin 8) (entry : BitVec 12)
  /-- PV_LOAD (R136). Route instruction that loads a pin variable. -/
  | pvLoad (p : PilotNo) (v : Fin 8) (m : BitVec 48)
  /-- PV_XOR (R136). Route instruction that XORs a mask into a pin variable. -/
  | pvXor (p : PilotNo) (v : Fin 8) (m : BitVec 48)
  /-- PV_CAPT (R136). Route instruction that loads a pin variable from comparator bits after the horizon. -/
  | pvCapt (p : PilotNo) (bit : Bool) (v : Fin 8) (m : BitVec 48)
  /-- SCAN (R141). Route instruction that issues n vectors taking scan-group codes from the scan stream. -/
  | scan (p : PilotNo) (group : Fin 4) (n : BitVec 32)
  /-- USER_OPCODE (R137). Route opcode 0xC0-0xFF dispatches to a user micro-routine. -/
  | userOpcode (p : PilotNo) (op : Fin 64) (operand : BitVec 56)
  /-- SEQ_CONT (R156). Microword that continues at micro-PC + 1. -/
  | seqCont (p : PilotNo) (w : BitVec 192)
  /-- SEQ_JUMP (R156). Microword that jumps to TGT. -/
  | seqJump (p : PilotNo) (w : BitVec 192)
  /-- SEQ_BRANCH (R156). Microword that branches to TGT if its condition holds. -/
  | seqBranch (p : PilotNo) (w : BitVec 192)
  /-- SEQ_MCALL (R156). Microword that pushes the micro-stack and goes to TGT. -/
  | seqMcall (p : PilotNo) (w : BitVec 192)
  /-- SEQ_MRET (R156). Microword that pops the micro-stack and returns. -/
  | seqMret (p : PilotNo) (w : BitVec 192)
  /-- SEQ_WAIT (R158). Microword that holds, issuing vectors or letting cycles pass, until its condition holds. -/
  | seqWait (p : PilotNo) (w : BitVec 192)
  /-- SEQ_WAIT_TIMEOUT (R158). A waiting microword's count reaches its PLT_WTO limit and goes to TGT. -/
  | seqWaitTimeout (p : PilotNo)
  /-- SEQ_NEXT (R156). Microword that ends the routine and dispatches the next route instruction. -/
  | seqNext (p : PilotNo) (w : BitVec 192)
  /-- SEQ_RBR (R156). Microword that makes a route branch to a selected target and dispatches there. -/
  | seqRbr (p : PilotNo) (w : BitVec 192)
  /-- SEQ_MTAB (R156). Microword that goes to TGT plus U0[3:0]. -/
  | seqMtab (p : PilotNo) (w : BitVec 192)
  /-- SEQ_TRAP (R156). Microword that raises a fatal user micro-trap. -/
  | seqTrap (p : PilotNo) (w : BitVec 192)
  /-- CONTROL_STORE_RELOAD (R169). Binnacle rewrites a control-store block after an uncorrectable word or entry. -/
  | controlStoreReload (c : ClusterNo) (copyOk : Bool) (stillBad : Bool)
  /-- CONTROL_STORE_SCRUB (R171). Binnacle reads every word and entry of a cluster once per 100 ms. -/
  | controlStoreScrub (c : ClusterNo)
  /-- HALT_ENTRY (R17). A Pilot sees an entry in its halt queue and ends the leg at that stride, parking the pins. -/
  | haltEntry (p : PilotNo)
  /-- SITE_QUEUE_ENTRY (R218). A Pilot takes a SITE_DROP entry from its site queue and drops the site. -/
  | siteQueueEntry (p : PilotNo)
  /-- LEG_END (R135). A leg ends once its last period has ended and every compare result has reached the fail logic. -/
  | legEnd (p : PilotNo)
  /-- JOB_RESTORE (R225). When the running job ends, the Pilot restores the highest-priority suspended job. -/
  | jobRestore (p : PilotNo)
  /-- RELATIVE_LEG_START (R132). A start_mode 1 leg starts at the end reading of the previous leg plus start_rel. -/
  | relativeLegStart (p : PilotNo)
  /-- SLIP_SYNC_EDGE (R60). A sync-source edge is stamped and, if it lies in an open slip window, starts the leg. -/
  | slipSyncEdge (p : PilotNo) (instant : Nat)
  /-- SLIP_EXPIRY (R61). A slip window closes with no edge, so the leg starts at its end or ends as a fault. -/
  | slipExpiry (p : PilotNo)
  /-- HOLD_END (R195). A waypoint hold ends at a stride boundary once the guard bytes are resident and a slot is filled. -/
  | holdEnd (p : PilotNo)
  /-- HOLD_LIMIT (R196). A hold reaches PLT_HOLD_LIMIT hold vectors and the leg ends with underrun. -/
  | holdLimit (p : PilotNo)
  /-- FILL_ELEMENT (R189). A Pilot takes or discards a fill element from fill_q, extending or re-basing its window. -/
  | fillElement (p : PilotNo)
  /-- SLOT_FILL (R130). A target-buffer slot finishes filling from the streams. -/
  | slotFill (p : PilotNo)
  /-- PLAYOUT_FETCH (R182). A cluster read port fetches 256 bytes of vector stream once it fits every playout FIFO of the
  Pilot. -/
  | playoutFetch (p : PilotNo)
  /-- CAPTURE_BLOCK_WRITE (R182). A capture FIFO writes a completed 256-byte block to HBM. -/
  | captureBlockWrite (n : PinNo)
  /-- CAPTURE_MARKER (R208). After a leg's capture writes are acknowledged, the Pilot commits a capture marker. -/
  | captureMarker (p : PilotNo)
  /-- TRUNCATION_MARKER (R209). A dropping queue falls to three quarters occupancy and the Depot commits a truncation marker. -/
  | truncationMarker (q : QueueNo)
  /-- MS_LEG_START (R216). A leg-start milestone fires, the leg is checked and starts or is refused. -/
  | msLegStart (id : Nat)
  /-- MS_DDS_HOP (R264). A DDS hop milestone fires and the named entry takes force. -/
  | msDdsHop (id : Nat)
  /-- MS_DDS_ADVANCE (R263). A DDS list advance milestone fires and the engine advances. -/
  | msDdsAdvance (id : Nat)
  /-- MS_DDS_START (R265). A DDS start milestone fires and the armed engine starts at r0. -/
  | msDdsStart (id : Nat)
  /-- MS_DDS_STOP (R266). A DDS stop milestone fires, the output goes low and the engine becomes idle. -/
  | msDdsStop (id : Nat)
  /-- MS_SXT_ARM (R241). A Sextant arm milestone fires and arms or disarms a channel. -/
  | msSxtArm (id : Nat)
  /-- MS_SXT_WINDOW (R241). A Sextant window milestone fires and sets a channel window. -/
  | msSxtWindow (id : Nat)
  /-- MS_ACQ_TRIGGER (R298). An acquisition trigger milestone fires for a unit. -/
  | msAcqTrigger (id : Nat)
  /-- MS_CONVERTER_TRIGGER (R280). A converter trigger milestone fires the common trigger. -/
  | msConverterTrigger (id : Nat)
  /-- MS_WAYLINE_LAUNCH (R429). A frame launch milestone fires and the port sends LAUNCH and the slot's frame. -/
  | msWaylineLaunch (id : Nat)
  /-- MS_MSYNC_OUT (R53). An MSYNC_OUT milestone fires and drives an edge. -/
  | msMsyncOut (id : Nat)
  /-- MS_GPIO (R53). A GPIO milestone fires and sets or clears a GPIO. -/
  | msGpio (id : Nat)
  /-- MS_DEPOT_POST (R500). A Depot post milestone fires and commits a tagged element. -/
  | msDepotPost (id : Nat)
  /-- MERIDIAN_LOCK (R41). A tracked meridian's phase error stays small for 256 input cycles and it reaches running. -/
  | meridianLock (m : MerNo) (fin : BitVec 48)
  /-- BEARING_LOST (R42). A tracked meridian sees no edge for 64 expected cycles, holds and ends any leg on it. -/
  | bearingLost (m : MerNo)
  /-- FREQ_RANGE_EXIT (R44). A tracked meridian's frequency stays outside [fmin, fmax] for 64 input cycles, setting range and
  ending any leg. -/
  | freqRangeExit (m : MerNo) (fin : BitVec 48)
  /-- MER_CTL_WRITE (R38). A write to a meridian's control registers is stored and takes effect if the configuration is valid. -/
  | merCtlWrite (m : MerNo) (reg : MerReg) (v : BitVec 64)
  /-- MER_SNAP (R36). A write latches the odometers of the selected meridians at one instant. -/
  | merSnap (mask : BitVec 8)
  /-- OVERVOLTAGE (R82). A pin stays outside −0.6 V to +2.1 V for 100 ns and ov sets, protecting the pin if asked. -/
  | overvoltage (n : PinNo) (mv : Int)
  /-- LEVEL_SETTLED (R69). A level, threshold or PMU change finishes settling and settling clears. -/
  | levelSettled (n : PinNo)
  /-- ALMANAC_APERTURE_WRITE (R110). A write to an Almanac entry stages bytes or commits the whole entry. -/
  | almanacApertureWrite (set : BitVec 11) (n : PinNo) (byte : Fin 32) (size : Fin 9) (v : BitVec 64)
  /-- SEXTANT_EDGE (R232). A channel takes an input edge and stamps it on its meridian. -/
  | sextantEdge (c : Fin 52) (at20fs : Nat) (falling : Bool) (voh : Bool)
  /-- STAMP_DECISION (R239). The Sextant decides acceptance of a stamp 200 ns after its reading and feeds units. -/
  | stampDecision (c : Fin 52)
  /-- STAMP_POST (R244). An accepted stamp is committed to the channel's queue within 1 µs. -/
  | stampPost (c : Fin 52)
  /-- FREQUENCY_RUN_END (R250). The start channel's window closes and a frequency run completes. -/
  | frequencyRunEnd (u : Fin 16)
  /-- SXT_WIN_COMMIT (R241). A write of commit replaces a channel's window with the register window. -/
  | sxtWinCommit (c : Fin 52)
  /-- SXT_CH_CTL_WRITE (R241). A write to a channel's control arms or disarms it at the current reading. -/
  | sxtChCtlWrite (c : Fin 52) (v : BitVec 32)
  /-- SXT_MU_CTL_WRITE (R250). A write to a unit's control starts, stops or configures a run. -/
  | sxtMuCtlWrite (u : Fin 16) (v : BitVec 32)
  /-- SELF_CHECK_START (R254). A write of go starts a Sextant self-check of the masked channels. -/
  | selfCheckStart
  /-- SELF_CHECK_DONE (R254). A self-check finishes and lists failing and skipped channels. -/
  | selfCheckDone (failing : BitVec 52)
  /-- DWELL_END (R263). A DDS entry's dwell expires and the engine advances to the next entry. -/
  | dwellEnd (e : Fin 8)
  /-- DDS_LIST_WRITE (R268). A write to the DDS list aperture stages or commits an entry. -/
  | ddsListWrite (entry : BitVec 12) (high : Bool) (v : BitVec 64)
  /-- SD_OUTPUT (R271). A sigma-delta decimator ends an output window and produces a result. -/
  | sdOutput (n : PinNo) (at' : Analogue) (overload : Option Nat)
  /-- SAR_CONVERSION_DONE (R277). A SAR conversion completes at its last tick. -/
  | sarConversionDone (a : Fin 4) (at' : Analogue)
  /-- CONVERTER_RESULT_POST (R284). Once every enabled sequence completes, result elements are committed. -/
  | converterResultPost
  /-- ADC_TRIG_GO (R280). A write of go fires the common converter trigger. -/
  | adcTrigGo
  /-- MSYNC_IN_EDGE (R280). An MSYNC_IN edge reaches the converters, acquisition units or GO origination. -/
  | msyncInEdge (rising : Bool) (instant : Nat)
  /-- HELD_TRIGGER (R285). A held trigger takes effect at the first tick after the last sequence completes. -/
  | heldTrigger
  /-- SAR_INJECT_REQUEST (R286). A write requests one injected conversion on a SAR. -/
  | sarInjectRequest (a : Fin 4) (input : Fin 8)
  /-- ADC_SD_CFG_WRITE (R275). A write of osr takes effect at once or when the running sequence completes. -/
  | adcSdCfgWrite (n : PinNo) (osr : BitVec 18)
  /-- ACQ_CTL_WRITE (R293). A write to an acquisition unit's control arms it or stops it. -/
  | acqCtlWrite (u : Fin 4) (v : BitVec 32)
  /-- ACQ_TRIG_GO (R298). A write of go triggers an acquisition unit. -/
  | acqTrigGo (u : Fin 4)
  /-- ACQ_RECORD (R301). After the last post-trigger unit is acknowledged, the unit commits its record. -/
  | acqRecord (u : Fin 4)
  /-- ACQ_REARM (R302). With auto_rearm, the unit arms again after its record. -/
  | acqRearm (u : Fin 4)
  /-- REFRESH_STOP (R311). At a grid point all channels stop for refresh, with maintenance every 64th stop. -/
  | refreshStop
  /-- REFRESH_STOP_END (R313). A refresh stop ends and the arbiters resume grants. -/
  | refreshStopEnd (errs : List LaneErr)
  /-- STACK_TEMP_READ (R312). The controller reads each stack sensor every 32 µs and may change the refresh interval. -/
  | stackTempRead (temps : BitVec 32)
  /-- PARITY_ALERT (R316). A stack signals a parity alert and the controller replays its retry buffer. -/
  | parityAlert (ch : ChannelNo) (replays : Fin 3)
  /-- HBM_SCRUB (R322). The controller reads every beat once per period and writes back corrected beats. -/
  | hbmScrub
  /-- MEMORY_WAKE (R329). A request reaches a gateway during self-refresh entry or self-refresh and begins exit. -/
  | memoryWake (port : Fin 19)
  /-- SELF_REFRESH_EXIT (R330). Exit from self-refresh completes, held requests proceed and unkept eighths are lost. -/
  | selfRefreshExit
  /-- MEM_MAP_CTL_WRITE (R309). A write to a map's control sets valid after checking bands, or is discarded. -/
  | memMapCtlWrite (m : Fin 16) (v : BitVec 32)
  /-- WALK_COMPLETE (R334). A Chart table walk completes with a translation or a fault. -/
  | walkComplete (source : Fin 35) (space : BitVec 8) (dva : BitVec 64) (write : Bool)
  /-- CHT_INV_GO (R338). A write of go invalidates a DVA range and retries faults in it. -/
  | chtInvGo
  /-- DMA_DESCRIPTOR (R351). A DMA channel takes its next descriptor from its ring. -/
  | dmaDescriptor (c : Fin 16)
  /-- GRANULE_COMPLETE (R352). A DMA granule finishes being written, or faults and suspends the channel. -/
  | granuleComplete (c : Fin 16) (x : GranuleEnd)
  /-- DMA_COMPLETION (R353). After all writes are acknowledged, the channel commits its completion and fill element. -/
  | dmaCompletion (c : Fin 16)
  /-- DMA_CH_CTL_WRITE (R355). A write of run starts the channel or stops it after in-flight granules. -/
  | dmaChCtlWrite (c : Fin 16) (v : BitVec 32)
  /-- DOORBELL_PAGE_WRITE (R362). A write to a ring doorbell page stages bytes or commits the packet. -/
  | doorbellPageWrite (r : RingNo) (off : BitVec 12) (bytes : List Byte)
  /-- CPL_CONSUMED_WRITE (R363). The host writes its consumed count, releasing mirror slots. -/
  | cplConsumedWrite (r : RingNo) (v : BitVec 32)
  /-- COMPLETION_COMMIT (R363). Helm commits a completion into a released mirror slot. -/
  | completionCommit (r : RingNo)
  /-- MODERATION_TIMEOUT (R364). The moderation time passes and unsignalled completions are signalled. -/
  | moderationTimeout (r : RingNo)
  /-- DEADLINE_EXPIRY (R371). A packet's deadline is sampled at a tick and it completes with DEADLINE. -/
  | deadlineExpiry (member : Bool) (sender : BitVec 16) (tag : BitVec 32)
  /-- NOP_COMMAND (R376). Command that completes OK. -/
  | nopCommand (k : Packet)
  /-- RING_CREATE (R361). Command that creates a ring. -/
  | ringCreate (k : Packet)
  /-- RING_DELETE (R361). Command that refuses new packets, waits and deletes a ring. -/
  | ringDelete (k : Packet)
  /-- ABORT_ALL (R374). Prompt command that halts every Pilot and ends every accepted job. -/
  | abortAll (k : Packet)
  /-- TAKE_FIX (R379). Prompt command that latches and writes a fix record. -/
  | takeFix (k : Packet)
  /-- SCRIPT_LOAD (R359). Command that loads a site script on hart 2 or 3. -/
  | scriptLoad (k : Packet)
  /-- SCRIPT_CTL (R376). Command that stops, starts or resets a site script hart. -/
  | scriptCtl (k : Packet)
  /-- MEM_MAP_SET (R309). Command that changes an interleave map. -/
  | memMapSet (k : Packet)
  /-- MEM_TRAIN (R327). Command that retrains one channel. -/
  | memTrain (k : Packet)
  /-- MEM_CH_RECOVER (R325). Command that retrains and zeroes a faulted channel. -/
  | memChRecover (k : Packet)
  /-- MEM_SELF_REFRESH (R328). Command that places the stacks in partial-array self-refresh. -/
  | memSelfRefresh (k : Packet)
  /-- MEM_SEG_CLEAR (R330). Command that zeroes lost eighths and clears their bits. -/
  | memSegClear (k : Packet)
  /-- ASPACE_SET (R333). Command that sets an address space. -/
  | aspaceSet (k : Packet)
  /-- CHART_MAP (R337). Command that maps a DVA range. -/
  | chartMap (k : Packet)
  /-- CHART_UNMAP (R338). Command that unmaps a DVA range. -/
  | chartUnmap (k : Packet)
  /-- CHART_INVALIDATE (R338). Command that invalidates cached translations of a range. -/
  | chartInvalidate (k : Packet)
  /-- CHART_RETRY (R345). Command that retries the walk of an outstanding fault. -/
  | chartRetry (k : Packet)
  /-- CHART_ABANDON (R349). Command that clears a DMA or Wayline fault without a walk. -/
  | chartAbandon (k : Packet)
  /-- DMA_CHANNEL_SET (R350). Command that sets a DMA channel's queues and run bit. -/
  | dmaChannelSet (k : Packet)
  /-- ROUTE_LOAD (R116). Command that copies and checks a route image. -/
  | routeLoad (k : Packet)
  /-- JOB_DEFINE (R213). Command that copies a job descriptor into the job table. -/
  | jobDefine (k : Packet)
  /-- JOB_START (R214). Command that checks and accepts a job and commits its leg-0 milestone. -/
  | jobStart (k : Packet)
  /-- HALT_JOB (R375). Prompt command that halts a job according to its state. -/
  | haltJob (k : Packet)
  /-- SITE_MASK (R217). Command that sets the site mask for the job's next leg. -/
  | siteMask (k : Packet)
  /-- SITE_DROP (R218). Command that posts a site drop to the Pilot's site queue. -/
  | siteDrop (k : Packet)
  /-- TRAP_RESUME (R174). Command that posts to a Pilot's resume queue. -/
  | trapResume (k : Packet)
  /-- JOB_UNDEFINE (R376). Command that removes a job definition. -/
  | jobUndefine (k : Packet)
  /-- PIN_LEVELS (R504). Command that sets levels, VTT, thresholds and hysteresis in millivolts. -/
  | pinLevels (k : Packet)
  /-- PIN_CONFIG (R63). Command that sets idle state, termination, ov action and analogue bus. -/
  | pinConfig (k : Packet)
  /-- PIN_PMU (R76). Command that sets PMU mode, range, force value and clamps. -/
  | pinPmu (k : Packet)
  /-- PIN_SITE (R211). Command that assigns a pin to a site. -/
  | pinSite (k : Packet)
  /-- PIN_CLEAR (R64). Command that clears fault_park, ov or clamp on pins. -/
  | pinClear (k : Packet)
  /-- ALMANAC_TEMPLATE (R108). Command that writes entries from UI edge positions. -/
  | almanacTemplate (k : Packet)
  /-- ALMANAC_LOAD (R112). Command that copies entries from HBM. -/
  | almanacLoad (k : Packet)
  /-- ALMANAC_CHECK (R99). Command that checks entries and reports failures. -/
  | almanacCheck (k : Packet)
  /-- ALMANAC_DESKEW (R106). Command that sets a pin's drive and strobe deskew. -/
  | almanacDeskew (k : Packet)
  /-- SEXTANT_MEASURE (R245). Command that programs a unit, schedules a window and returns statistics. -/
  | sextantMeasure (k : Packet)
  /-- SEXTANT_SELFCHECK (R254). Command that runs a Sextant self-check. -/
  | sextantSelfcheck (k : Packet)
  /-- ADC_SEQUENCE (R291). Command that loads a converter preset. -/
  | adcSequence (k : Packet)
  /-- ADC_TRIGGER (R280). Command that fires the common converter trigger. -/
  | adcTrigger (k : Packet)
  /-- ADC_INJECT (R286). Command that requests an injected SAR conversion. -/
  | adcInject (k : Packet)
  /-- ACQ_ARM (R293). Command that configures and arms an acquisition unit. -/
  | acqArm (k : Packet)
  /-- ACQ_STOP (R301). Command that stops an acquisition unit. -/
  | acqStop (k : Packet)
  /-- ACQ_STATS (R303). Command that computes statistics over a stored segment. -/
  | acqStats (k : Packet)
  /-- DDS_LOAD (R267). Command that loads a DDS profile list. -/
  | ddsLoad (k : Packet)
  /-- DDS_START (R265). Command that checks a list and commits a DDS start milestone. -/
  | ddsStart (k : Packet)
  /-- DDS_STOP (R266). Command that commits a DDS stop milestone. -/
  | ddsStop (k : Packet)
  /-- DDS_PIN (R255). Command that assigns pins to a DDS engine. -/
  | ddsPin (k : Packet)
  /-- MERIDIAN_CONFIG (R38). Command that configures a meridian's kind, frequency and tracking. -/
  | meridianConfig (k : Packet)
  /-- MERIDIAN_ENABLE (R50). Command that enables or disables a meridian. -/
  | meridianEnable (k : Packet)
  /-- MERIDIAN_SET (R50). Command that steps an idle odometer or sets its start value. -/
  | meridianSet (k : Packet)
  /-- MERIDIAN_ADJUST (R49). Command that sets a meridian's slew terms. -/
  | meridianAdjust (k : Packet)
  /-- MILESTONE_POST (R52). Command that posts a milestone. -/
  | milestonePost (k : Packet)
  /-- MILESTONE_CANCEL (R56). Command that cancels a pending milestone. -/
  | milestoneCancel (k : Packet)
  /-- WAYLINE_PORT (R409). Command that takes a Wayline port down, trains it or permits idle. -/
  | waylinePort (k : Packet)
  /-- WAYLINE_SEND (R420). Command that sends a message flit or loads a launch slot. -/
  | waylineSend (k : Packet)
  /-- WAYLINE_FORWARD (R421). Command that forwards a command packet to a member. -/
  | waylineForward (k : Packet)
  /-- MUSTER (R433). Command that runs a convoy muster. -/
  | muster (k : Packet)
  /-- CONVOY_LEAVE (R434). Command that ends convoy-scoped operation at this member. -/
  | convoyLeave (k : Packet)
  /-- MICROCODE_LOAD (R179). Command that checks and loads a user microcode image. -/
  | microcodeLoad (k : Packet)
  /-- MICROCODE_UNLOAD (R153). Command that removes a cluster's user image. -/
  | microcodeUnload (k : Packet)
  /-- POWER_DOMAIN (R450). Command that powers a switchable domain up or down. -/
  | powerDomain (k : Packet)
  /-- THERMAL_SET (R467). Command that sets warn, act and throttle parameters. -/
  | thermalSet (k : Packet)
  /-- REG_BATCH (R377). Command that executes a list of register reads and writes. -/
  | regBatch (k : Packet)
  /-- FIX_DOORBELL (R379). A write to FIX_DB requests a fix into the host buffer. -/
  | fixDoorbell (v : BitVec 32)
  /-- FIX_WRITTEN (R379). Binnacle finishes writing the fix record and signals or completes. -/
  | fixWritten (ok : Bool)
  /-- CREATE (R385). Switchyard operation that makes a free task ready. -/
  | create (h : Fin 4) (t : BitVec 12) (prio : BitVec 6)
  /-- DELETE (R385). Switchyard operation that frees a task slot. -/
  | delete (h : Fin 4) (t : BitVec 12)
  /-- SET_PRIO (R385). Switchyard operation that changes a task's priority. -/
  | setPrio (h : Fin 4) (t : BitVec 12) (prio : BitVec 6)
  /-- SET_FLAGS (R387). Switchyard operation that sets event flags and may wake a waiting task. -/
  | setFlags (h : Fin 4) (t : BitVec 12) (mask : BitVec 32)
  /-- CLEAR_FLAGS (R385). Switchyard operation that clears the task's own flags. -/
  | clearFlags (h : Fin 4) (mask : BitVec 32)
  /-- WAIT (R387). Switchyard operation that waits on event flags. -/
  | wait (h : Fin 4) (mask : BitVec 32) (all : Bool) (consume : Bool) (ticks : BitVec 32)
  /-- DELAY (R389). Switchyard operation that delays a task for ticks. -/
  | delay (h : Fin 4) (ticks : BitVec 32)
  /-- YIELD (R385). Switchyard operation that rejoins the tail of the ready queue. -/
  | yield (h : Fin 4)
  /-- POST (R386). Switchyard operation that commits a message to a queue or holds the task. -/
  | post (h : Fin 4) (q : QueueNo) (msg : BitVec 2048)
  /-- TAKE (R385). Switchyard operation that takes the oldest element of a queue. -/
  | take (h : Fin 4) (q : QueueNo)
  /-- EXIT (R385). Switchyard operation that frees the task's own slot. -/
  | exit (h : Fin 4)
  /-- SWY_H_SWITCH (R384). A hart's write switches tasks and clears its dispatch interrupt. -/
  | swyHSwitch (h : Fin 4)
  /-- SWITCHYARD_TICK (R388). A Switchyard tick on MER0 drives the delay list and deadline samples. -/
  | switchyardTick
  /-- DELAY_EXPIRY (R389). A delay or wait timeout expiry is reached and the task leaves the delay list. -/
  | delayExpiry (t : BitVec 12)
  /-- SWY_TICK_WRITE (R388). A write to the tick period is checked and takes effect from the tick after next. -/
  | swyTickWrite (v : BitVec 32)
  /-- QUEUE_DOORBELL_WRITE (R398). A host write to a queue doorbell page stages bytes or commits an element. -/
  | queueDoorbellWrite (q : QueueNo) (off : BitVec 10) (bytes : List Byte)
  /-- MIRROR_CONSUMED_WRITE (R397). The host writes its consumed count, releasing mirror slots. -/
  | mirrorConsumedWrite (q : QueueNo) (v : BitVec 32)
  /-- MIRROR_WRITE (R397). The Depot writes a queue element into a released host mirror slot. -/
  | mirrorWrite (q : QueueNo)
  /-- SPILL_REFILL (R393). The Depot moves spilled elements back into SRAM as room frees. -/
  | spillRefill (q : QueueNo) (poisoned : Bool)
  /-- DPT_Q_CTL_WRITE (R400). A write of en enables or disables a queue after checks. -/
  | dptQCtlWrite (q : QueueNo) (v : BitVec 32)
  /-- BLOCK_LOCK (R406). A lane finds commas in three consecutive frames and locks alignment. -/
  | blockLock (p : Fin 4) (lane : Fin 2)
  /-- LOCK_LOSS (R406). Four expected commas are missing and the port retrains. -/
  | lockLoss (p : Fin 4) (lane : Fin 2)
  /-- TRAIN_REQ (R410). A TRAIN_REQ control block is received and applied for a new seq. -/
  | trainReq (p : Fin 4) (lane : Fin 2) (v : BitVec 56)
  /-- TRAIN_STAT (R410). A TRAIN_STAT control block is received. -/
  | trainStat (p : Fin 4) (lane : Fin 2) (v : BitVec 56)
  /-- PORT_UP (R412). Both ends show ready for 8 frames and the port comes up. -/
  | portUp (p : Fin 4)
  /-- TRAIN_TIMEOUT (R412). A port is not up within 100 ms and fails. -/
  | trainTimeout (p : Fin 4)
  /-- IDLE_QUIET_EXPIRY (R413). A port has nothing to send for idle_us and enters electrical idle. -/
  | idleQuietExpiry (p : Fin 4)
  /-- IDLE_ENTER (R413). An IDLE_ENTER control block is received from the partner. -/
  | idleEnter (p : Fin 4)
  /-- IDLE_EXIT (R413). A port leaves idle with a burst and a comma. -/
  | idleExit (p : Fin 4)
  /-- ACK (R417). An ACK control block releases replayed flits and returns credits. -/
  | ack (p : Fin 4) (seq : BitVec 16) (c0 : BitVec 8) (c1 : BitVec 8) (c2 : BitVec 8)
  /-- NAK (R417). A NAK control block makes the transmitter resend from the expected seq. -/
  | nak (p : Fin 4) (seq : BitVec 16)
  /-- ACK_TIMER (R417). The receiver sends an ACK after 16 flits or 200 ns. -/
  | ackTimer (p : Fin 4)
  /-- REPLAY_TIMEOUT (R417). No ACK progress for 2 µs resends flits, retraining after 8. -/
  | replayTimeout (p : Fin 4)
  /-- HALT (R425). A HALT control block is received, forwarded and halts the selected Pilots. -/
  | halt (p : Fin 4) (seq : BitVec 8) (origin : BitVec 8)
  /-- GO (R427). A GO control block is received and offered as a sync edge. -/
  | go (p : Fin 4) (origin : BitVec 8) (e : BitVec 40)
  /-- AGG (R428). An AGG control block updates the convoy aggregate. -/
  | agg (p : Fin 4) (v : BitVec 16) (fromRoot : Bool)
  /-- TIME_REQ (R423). A TIME_REQ is received and answered with TIME_T2 and TIME_T3. -/
  | timeReq (p : Fin 4) (seq : BitVec 8) (arrive : Nat) (leave : Nat)
  /-- TIME_T2 (R423). A TIME_T2 block is received and stamped. -/
  | timeT2 (p : Fin 4) (seq : BitVec 8) (t2 : BitVec 40) (arrive : Nat)
  /-- TIME_T3 (R423). A TIME_T3 block completes delay and offset. -/
  | timeT3 (p : Fin 4) (seq : BitVec 8) (t3 : BitVec 40)
  /-- TIME_EXCHANGE_TIMER (R423). Every 10 µs a port begins a time exchange. -/
  | timeExchangeTimer (p : Fin 4) (at20fs : Nat)
  /-- LAUNCH (R429). A LAUNCH control block marks a launched frame's first symbol. -/
  | launch (p : Fin 4) (slot : Fin 16) (k : BitVec 8)
  /-- MSG (R420). A MSG flit is committed to its destination queue and acknowledged. -/
  | msg (p : Fin 4) (f : Flit)
  /-- MSG_ACK (R420). A MSG_ACK flit completes the sending command. -/
  | msgAck (p : Fin 4) (f : Flit)
  /-- FWD_CMD (R421). A FWD_CMD flit is executed as a command packet. -/
  | fwdCmd (p : Fin 4) (f : Flit)
  /-- FWD_CPL (R421). A FWD_CPL flit completes the forwarding command. -/
  | fwdCpl (p : Fin 4) (f : Flit)
  /-- BULK_WR (R422). BULK_WR flits of a granule are written at the target. -/
  | bulkWr (p : Fin 4) (f : Flit)
  /-- BULK_RD_REQ (R422). A BULK_RD_REQ is answered with BULK_RD_DATA flits. -/
  | bulkRdReq (p : Fin 4) (f : Flit)
  /-- BULK_RD_DATA (R422). BULK_RD_DATA flits are written by the requester as a granule. -/
  | bulkRdData (p : Fin 4) (f : Flit)
  /-- BULK_ACK (R422). A BULK_ACK completes or faults a granule at the source. -/
  | bulkAck (p : Fin 4) (f : Flit)
  /-- BULK_FAULT_TIMEOUT (R422). A target's Chart fault is not cleared within 1 ms and the granule fails. -/
  | bulkFaultTimeout (id : Nat)
  /-- MUSTER_FLIT (R433). A MUSTER flit carries a hello, manifest, verdict or break notice. -/
  | musterFlit (p : Fin 4) (f : Flit)
  /-- MUSTER_OFFSET_TIMEOUT (R433). A member's MER7 offset is not within 15 ps after 100 ms. -/
  | musterOffsetTimeout
  /-- MUSTER_ROOT_TIMEOUT (R433). The root stops waiting for manifests 200 ms after its MUSTER. -/
  | musterRootTimeout
  /-- MUSTER_VERDICT_TIMEOUT (R433). A member receives no verdict within 300 ms. -/
  | musterVerdictTimeout
  /-- WLN_HALT (R425). A write of go originates a global halt. -/
  | wlnHalt
  /-- WLN_GO (R427). A write of go originates a convoy GO. -/
  | wlnGo
  /-- WLN_AGG_WRITE (R428). A write clears local aggregate bits. -/
  | wlnAggWrite (v : BitVec 16)
  /-- PTP_MESSAGE (R445). A PTP event message is stamped and drives the MER7 servo. -/
  | ptpMessage (at20fs : Nat) (sync : Bool) (measured : Bool) (offset : Int)
  /-- SYNC_TIMEOUT (R445). No Sync for 3 s puts the servo in holdover. -/
  | syncTimeout
  /-- ETH_TX_ELEMENT (R446). A transmit element reaches the queue head and its frame is sent or refused. -/
  | ethTxElement
  /-- ETH_LAUNCH (R446). A launched frame's reading is reached and it is sent. -/
  | ethLaunch
  /-- TELEMETRY_TIMER (R447). Each period Binnacle sends a telemetry datagram. -/
  | telemetryTimer
  /-- FIX_REQUEST_DATAGRAM (R447). A peer datagram requests a fix answered in four datagrams. -/
  | fixRequestDatagram (src : BitVec 32) (port : BitVec 16) (magic : BitVec 32)
  /-- ETH_LINK_CHANGE (R445). The Ethernet link goes up or down. -/
  | ethLinkChange (up : Bool)
  /-- MSIX_UNMASK (R441). Unmasking a vector sends its pending message. -/
  | msixUnmask (v : Fin 2048) (enable : Bool)
  /-- PENDING_POWER_DOWN (R451). A pending power-down is served at the leg boundary. -/
  | pendingPowerDown (d : Fin 36)
  /-- POWER_UP_DONE (R452). A domain finishes powering up and restores its state. -/
  | powerUpDone (d : Fin 36)
  /-- POWER_GOOD (R457). PWRGD rises and cold boot begins. -/
  | powerGood (straps : BitVec 4)
  /-- BOOT_COMPLETE (R457). Boot finishes and DEV_STATUS.ready sets, or fails. -/
  | bootComplete (status : BitVec 8) (dir : Bool) (fallback : Bool) (failed : BitVec 64) (rejected : List (BitVec 8 × BitVec 8 × BitVec 8))
  /-- COLD_RESET (R471). PWRGD or RESET_N falls, pins trip, a shutdown record is written and the device resets. -/
  | coldReset (byResetN : Bool)
  /-- WARM_RESET (R454). PERST# asserts, legs end and control and data planes reset. -/
  | warmReset
  /-- PERST_DEASSERT (R454). PERST# deasserts and the device becomes ready again. -/
  | perstDeassert
  /-- BNC_BLK_RESET (R455). A write resets one switchable domain. -/
  | bncBlkReset (v : BitVec 32)
  /-- THERMAL_SAMPLE (R463). The die sensor is sampled every 250 µs and the rise is compared. -/
  | thermalSample (temp : Int)
  /-- THERMAL_TRIP (R466). The sensor reads 111 °C, pins trip and domains are cut. -/
  | thermalTrip
  /-- SMB_THM_TEMP (R494). SMBus command 0x01 returns the temperature. -/
  | smbThmTemp
  /-- SMB_THM_STATE (R494). SMBus command 0x02 returns the thermal state. -/
  | smbThmState
  /-- SMB_BNC_STATUS (R494). SMBus command 0x03 returns boot status. -/
  | smbBncStatus
  /-- SMB_PWR_ON (R494). SMBus command 0x04 returns powered domains. -/
  | smbPwrOn
  /-- SMB_ALERT_RESPONSE (R494). The port answers the Alert Response Address and deasserts ALERT_N. -/
  | smbAlertResponse
  /-- REGISTER_READ (R7). A BAR0 or class 0xE read returns a value and, for RC fields, clears them. -/
  | registerRead (addr : BitVec 26) (size : BitVec 7)
  /-- PMU_CLAMP (R77). In FIMV the pin voltage reaches clamp_lo or clamp_hi, the PMU output is limited and PIN_STATUS.clamp
  sets. -/
  | pmuClamp (n : PinNo)
  /-- EDGES_RETURN (R45). Edges of the chosen polarity return to a held tracked meridian, which leaves held and re-acquires. -/
  | edgesReturn (m : MerInput)
  /-- PHASE_OFFSET_REMOVED (R49). A slewed phase offset has been fully removed, MER_ADJ_PHASE reaches 0 and the phase term
  ends. -/
  | phaseOffsetRemoved (m : MerNo)
  /-- FLIT_CRC_ERROR (R417). A flit arrives with a bad CRC or a sequence ahead of the expected one and is discarded, with a NAK of
  the expected seq. -/
  | flitCrcError (p : Fin 4) (badCrc : Bool)
  /-- BAD_CONTROL_BLOCK (R414). A control block arrives with a bad CRC-8 or a reserved type and is discarded, counting in
  bad_ctl. -/
  | badControlBlock (p : Fin 4)
  /-- FEC_CODEWORD (R408). An RS(544,514) codeword is received, corrected or found uncorrectable, counted in WLN_P_FEC, and its
  blocks marked errored when uncorrectable. -/
  | fecCodeword (p : Fin 4) (uncorrectable : Bool)
  deriving DecidableEq, Repr

end Sys2Proof
end

