-- ==== Sys2Proof/Decode.lean ====
section
/-! DEFINITION. The command that a word spells by the command table's bits. Every row of the table has an empty list of bit fields:
commands come as operations on registers, doorbells, pins and links and not as words, so no word spells one. A packet's words are
decoded by decodePacket in Machine/Commands.lean, an instruction's by runInstr and a microword's by runWord. -/

namespace Sys2Proof

/-- No row of the command table gives bits, so no word spells a command. -/
def decodeTableWord (_nbits _w : Nat) : Option Instr := none

end Sys2Proof
end

