-- ==== Sys2Proof/Machine/Digest.lean ====
section
/-! DEFINITION. The digests and check sums of images: SHA-256 of route images, microcode images, scripts and manifests (R115, R178,
R432), SHA-384 of the QSPI key and of the boot directory (R459), and CRC-32C (the algorithms are those that the names call for:
assumption 25). The two digests differ in their numbers only, so one definition serves both. -/

namespace Sys2Proof.Machine

/-- The first 80 primes. -/
def firstPrimes : List Nat := [
  2, 3, 5, 7, 11, 13, 17, 19, 23, 29, 31, 37, 41, 43, 47, 53, 59, 61, 67, 71,
  73, 79, 83, 89, 97, 101, 103, 107, 109, 113, 127, 131, 137, 139, 149, 151, 157, 163, 167, 173] ++ [
  179, 181, 191, 193, 197, 199, 211, 223, 227, 229, 233, 239, 241, 251, 257, 263, 269, 271, 277, 281,
  283, 293, 307, 311, 313, 317, 331, 337, 347, 349, 353, 359, 367, 373, 379, 383, 389, 397, 401, 409]

/-- The whole k-th root of x, found bit by bit from bit n - 1 down: r holds the bits found. -/
def rootBits (k x : Nat) : Nat → Nat → Nat
  | 0, r => r
  | n + 1, r => rootBits k x n (if (r + 2 ^ n) ^ k ≤ x then r + 2 ^ n else r)

/-- The numbers in which one digest differs from another. -/
structure DigestKind where
  /-- the bits of a word; a block holds 16 words -/
  width : Nat
  /-- the steps over one block -/
  steps : Nat
  /-- how many primes come before the eight that give the initial words -/
  skip : Nat
  /-- how many of the eight words the digest holds -/
  keep : Nat
  /-- the rotations of the two sums over the working words -/
  head : List Nat
  tail : List Nat
  /-- the rotations, and the shift, of the two sums over the schedule -/
  late : List Nat × Nat
  soon : List Nat × Nat
  deriving DecidableEq, Repr

/-- SHA-256. -/
def kind256 : DigestKind := ⟨32, 64, 0, 8, [2, 13, 22], [6, 11, 25], ([7, 18], 3), ([17, 19], 10)⟩

/-- SHA-384. -/
def kind384 : DigestKind := ⟨64, 80, 8, 6, [28, 34, 39], [14, 18, 41], ([1, 8], 7), ([19, 61], 6)⟩

/-- The fractional part of a prime's k-th root, one word of it. -/
def DigestKind.rootWord (d : DigestKind) (k p : Nat) : Nat := rootBits k (p * 2 ^ (k * d.width)) (d.width + 5) 0 % 2 ^ d.width

/-- The words that begin a digest: of square roots. -/
def DigestKind.begins (d : DigestKind) : List Nat := ((firstPrimes.drop d.skip).take 8).map (d.rootWord 2)

/-- The constants of the steps: of cube roots. -/
def DigestKind.constants (d : DigestKind) : List Nat := (firstPrimes.take d.steps).map (d.rootWord 3)

/-- A word rotated towards its low bit. -/
def DigestKind.turn (d : DigestKind) (x n : Nat) : Nat := x / 2 ^ n + x % 2 ^ n * 2 ^ (d.width - n)

/-- The exclusive or of a word's rotations. -/
def DigestKind.turns (d : DigestKind) (x : Nat) (ns : List Nat) : Nat := ns.foldl (fun v n => v ^^^ d.turn x n) 0

/-- The schedule of a block, newest word first: n words more. -/
def DigestKind.schedule (d : DigestKind) : Nat → List Nat → List Nat
  | 0, ws => ws
  | n + 1, ws =>
    let sum (x : Nat) (r : List Nat × Nat) : Nat := d.turns x r.1 ^^^ (x / 2 ^ r.2)
    let next := ws.getD 15 0 + sum (ws.getD 14 0) d.late + ws.getD 6 0 + sum (ws.getD 1 0) d.soon
    d.schedule n (next % 2 ^ d.width :: ws)

/-- One step with the sum of its constant and its schedule word: the eight working words move up by one. -/
def DigestKind.step (d : DigestKind) (x : List Nat) (kw : Nat) : List Nat :=
  let at' (i : Nat) : Nat := x.getD i 0
  let pick := at' 6 ^^^ (at' 4 &&& (at' 5 ^^^ at' 6))
  let most := (at' 0 &&& at' 1) ||| (at' 2 &&& (at' 0 ||| at' 1))
  let inner := at' 7 + d.turns (at' 4) d.tail + pick + kw
  let moved := (x.take 7).set 3 ((at' 3 + inner) % 2 ^ d.width)
  (inner + d.turns (at' 0) d.head + most) % 2 ^ d.width :: moved

/-- The words after one block of bytes. -/
def DigestKind.block (d : DigestKind) (ks : List Nat) (x : List Nat) (bs : List Byte) : List Nat :=
  let size := d.width / 8
  let first := (List.range 16).map (fun i => ofBytes ((bs.drop (size * i)).take size).reverse)
  let ws := (d.schedule (d.steps - 16) first.reverse).reverse
  let y := (List.zipWith (fun k w => k + w) ks ws).foldl d.step x
  List.zipWith (fun u v => (u + v) % 2 ^ d.width) x y

/-- The words after n blocks. -/
def DigestKind.blocks (d : DigestKind) (ks : List Nat) : Nat → List Nat → List Byte → List Nat
  | 0, x, _ => x
  | n + 1, x, bs => d.blocks ks n (d.block ks x bs) (bs.drop (2 * d.width))

/-- A message with its closing bit and its length in bits, in whole blocks. -/
def DigestKind.padded (d : DigestKind) (bs : List Byte) : List Byte :=
  let whole := 2 * d.width
  let n := bs.length + 1 + d.width / 4
  bs ++ 0x80 :: List.replicate (ceilDiv n whole * whole - n) 0 ++ (bytesOf (d.width / 4) (8 * bs.length)).reverse

/-- The digest of bytes. -/
def DigestKind.digest (d : DigestKind) (bs : List Byte) : List Byte :=
  let all := d.padded bs
  ((d.blocks d.constants (all.length / (2 * d.width)) d.begins all).take d.keep).flatMap (fun w => (bytesOf (d.width / 8) w).reverse)

/-- The SHA-256 digest of bytes: 32 bytes. -/
def sha256 (bs : List Byte) : List Byte := kind256.digest bs

/-- The SHA-384 digest of bytes: 48 bytes. -/
def sha384 (bs : List Byte) : List Byte := kind384.digest bs

/-- Eight steps of the Castagnoli polynomial, reflected. -/
def crc32cByte : Nat → Nat → Nat
  | 0, c => c
  | n + 1, c => crc32cByte n (if bitAt c 0 then (c / 2) ^^^ 0x82F63B78 else c / 2)

/-- CRC-32C of bytes (assumption 25). -/
def crc32c (bs : List Byte) : Nat := (bs.foldl (fun c b => crc32cByte 8 (c ^^^ b.toNat)) 0xFFFFFFFF) ^^^ 0xFFFFFFFF

end Sys2Proof.Machine
end

