-- ==== Sys2Proof/Config.lean ====
section
/-! DEFINITION. What one implementation fixes and the spec leaves open: free values, which nothing in Lean can evaluate. -/

namespace Sys2Proof.Config

/-- A free value: what the hardware produces where the spec gives no value. State.free numbers its uses, so two uses are
independent (assumption 2). -/
opaque freeValue : Nat → BitVec 64

/-- Whether a local meridian whose frequency is no whole number of kHz shows the next higher number in MER_FLIM.fmax_khz
(assumption 3). -/
opaque fmaxRoundsUp : Nat → Bool

/-- The system queue descriptors that Binnacle and Helm firmware create at boot, by queue number: the DPT_Q_CTL word
(R390; assumption 4). -/
opaque bootQueueCtl : Nat → BitVec 64

/-- The vendor microcode image, which Vogedon supplies (R151, R153): the word at an address below 8192, or the dispatch entry of a
vendor opcode at 16384 + opcode (assumption 22). -/
opaque vendorStore : Nat → BitVec 192

/-- The check bits stored with a control-store word or dispatch entry: R168 gives their number and not the code
(assumption 22). -/
opaque checkBits : Nat → BitVec 192 → BitVec 9

/-- What an upset did to the stored bits of a control-store word or dispatch entry of a cluster whose check bits do not fit: the bits
that differ, or, for an error of one bit, which bit (R168; assumption 22). -/
opaque damage : Nat → Nat → BitVec 201

/-- The SHA-256 digest of the vendor image, as four words (PLT_VL_DIGEST; assumption 22). -/
opaque vendorDigest : Nat → BitVec 64

/-- The trims that manufacture wrote to eFuse for a pin, in the layout of PIN_TRIM [56:0] (R85; assumption 1). -/
opaque pinTrim : Nat → BitVec 57

/-- The voltage, in mV x 4095, that a DAC of a pin gives for a code that no trim corrects (R86): pin, DAC (0 driver, 1 VTT, 2
thresholds) and code. For the PMU, DAC 3 is its forced voltage in mV x 65535 and DAC 4 + range its forced current in nA x 32768
(assumption 63). -/
opaque rawVolt : Nat → Nat → Nat → Int

/-- The SHA-256 digests of the firmware that Vogedon supplies, as words: 0 to 3 Binnacle, 4 to 7 Helm (R380, R432;
assumption 22). -/
opaque firmwareDigest : Nat → BitVec 64

/-- The bytes of a MUSTER flit's payload, whose layout the spec does not give (assumption 77). -/
opaque musterByte : Nat → Nat → BitVec 8

end Sys2Proof.Config
end

