-- ==== Sys2Proof/Machine/Bank.lean ====
section
/-! DEFINITION. A bank: a sparse list of (key, value) pairs in one canonical form. It holds the registers, the memories
and every numbered group of units. Keys rise strictly by rank, and no entry holds what an unlisted key reads as. -/

namespace Sys2Proof.Machine

/-- A bank of values by key. -/
abbrev Bank (κ ν : Type) := List (κ × ν)

variable {κ ν : Type}

/-- The value of a key: the listed one, or what the key reads as when it is not listed. -/
def bankGet [DecidableEq κ] (dflt : κ → ν) (k : κ) : Bank κ ν → ν
  | [] => dflt k
  | (a, v) :: r => if a = k then v else bankGet dflt k r

/-- The bank without a key's entry. -/
def bankDrop [DecidableEq κ] (k : κ) : Bank κ ν → Bank κ ν
  | [] => []
  | (a, v) :: r => if a = k then bankDrop k r else (a, v) :: bankDrop k r

/-- An entry put in its place by rank. -/
def bankPut (rank : κ → Nat) (k : κ) (v : ν) : Bank κ ν → Bank κ ν
  | [] => [(k, v)]
  | (a, x) :: r => if rank k < rank a then (k, v) :: (a, x) :: r else (a, x) :: bankPut rank k v r

/-- A key's value replaced; writing what an unlisted key reads as removes the entry. -/
def bankSet [DecidableEq κ] [DecidableEq ν] (rank : κ → Nat) (dflt : κ → ν) (k : κ) (v : ν) (b : Bank κ ν) : Bank κ ν :=
  if v = dflt k then bankDrop k b else bankPut rank k v (bankDrop k b)

/-- The canonical form: ranks strictly rising, no entry equal to what an unlisted key reads as. -/
abbrev bankWf (rank : κ → Nat) (dflt : κ → ν) (b : Bank κ ν) : Prop :=
  b.Pairwise (fun x y => rank x.1 < rank y.1) ∧ ∀ e ∈ b, e.2 ≠ dflt e.1

/-- A bank keyed by number with one default: its value at a number. -/
def nget (dflt : ν) (k : Nat) (b : Bank Nat ν) : ν := bankGet (fun _ => dflt) k b

/-- A bank keyed by number with one default: a value replaced. -/
def nset [DecidableEq ν] (dflt : ν) (k : Nat) (v : ν) (b : Bank Nat ν) : Bank Nat ν := bankSet id (fun _ => dflt) k v b

end Sys2Proof.Machine
end

