-- ==== Sys2Proof/Machine/RegMap.lean ====
section
/-! DEFINITION. The register address map: every register of the spec's register tables (R442), with its place, its width,
the access code of each of its fields (R7) and its value after cold reset (R10). The Almanac entries and the DDS list are
apertures with banks of their own and do not stand here. A field the tables give "eFuse" or "NVM" and no number reads 0
at reset, but for DEV_ID.device, which reads 0x4824 beside grade 0 (assumption 1). -/

namespace Sys2Proof.Machine

/-- The registers, by the names of the spec's tables. -/
inductive RegId where
  | MER_CTL | MER_FWORD | MER_TRACK | MER_FLIM | MER_START | MER_ODO_CYC | MER_ODO_FRAC | MER_STATUS
  | MER_ADJ_PHASE | MER_ADJ_FREQ | MER_LOST_COUNT | MER_WALL_CTL | MER_WALL_SEC | MER_WALL_SUB | MER_SLIP_STAT | MER_SNAP
  | MER_MS_STAT | PIN_CTL | PIN_DRV_LVL | PIN_VTT | PIN_CMP_LVL | PIN_PMU_CTL | PIN_PMU_FORCE | PIN_PMU_CLAMP
  | PIN_STATUS | PIN_OV_COUNT | PIN_TRIM | ALM_CTL | ALM_STATUS | ALM_ECC_CNT | ALM_UE_LOC | ALM_DESKEW
  | ALM_CROWD | PLT_CTL | PLT_STATUS | PLT_LEG_STATUS | PLT_LEG_INDEX | PLT_LEG_S | PLT_LEG_E | PLT_LEG_FRAC
  | PLT_MATCH_STAT | PLT_RSV_COUNT | PLT_HEXT_COUNT | PLT_ALU | PLT_WTO | PLT_BRK | PLT_TRAP_STAT | PLT_TRAP_PEND
  | PLT_TRAP_FRAME | PLT_CS_STAT | PLT_CS_ECC | PLT_CS_UE_LOC | PLT_CS_ADDR | PLT_CS_DATA | PLT_UC_DIGEST | PLT_VL_DIGEST
  | PLT_FF_STAT | PLT_FF_INDEX | PLT_FF_MASK | PLT_FF_CYC | PLT_STRM_LO | PLT_STRM_HI | PLT_STRM_FLOOR | PLT_STRM_STAT
  | PLT_HOLD_STAT | PLT_HOLD_LIMIT | PLT_CAP_STAT | PIN_FAIL_COUNT | PIN_SITE | PLT_SITE_MASK | PLT_SITE_DROP | PLT_SUSP
  | PLT_SUSP_LIST | SXT_STATUS | SXT_SC_MASK | SXT_SC_START | SXT_SC_FAIL | SXT_SC_SKIP | SXT_CH_CTL | SXT_CH_QUEUE
  | SXT_WIN_OPEN | SXT_WIN_CLOSE | SXT_WIN_FRAC | SXT_WIN_CMT | SXT_CH_DESKEW | SXT_CH_STAT | SXT_CH_CNT | SXT_MU_CTL
  | SXT_MU_N | SXT_MU_REF | SXT_MU_QUEUE | SXT_MU_STAT | SXT_MU_CNT | SXT_MU_COUNT | SXT_MU_SUM | SXT_MU_SUMSQ_LO
  | SXT_MU_SUMSQ_HI | SXT_MU_MINMAX | DDS_CTL | DDS_STATUS | DDS_PIN_SEL | DDS_ENG_CTL | DDS_ENG_LEN | DDS_ENG_MID
  | DDS_ENG_STAT | DDS_ENG_CNT | DDS_ENG_EPOCH | DDS_ENG_EPOCH_FRAC | ADC_TRIG_CFG | ADC_TRIG | ADC_STATUS | ADC_OVERRUN
  | ADC_RUN_CYC | ADC_RUN_FRAC | ADC_QUEUE | ADC_SD_LEN | ADC_SD_OVR | ADC_SD_CFG | ADC_SD_SEQ | ADC_SD_RES
  | ADC_SD_LIVE | ADC_SAR_CTL | ADC_SAR_SEQ | ADC_SAR_INJ | ADC_SAR_STAT | ADC_SAR_OVR | ADC_SAR_INJ_RES | ADC_SAR_RES
  | ACQ_STATUS | ACQ_CTL | ACQ_SRC | ACQ_BASE | ACQ_PRE | ACQ_POST | ACQ_NSEG | ACQ_LEVEL
  | ACQ_QUEUE | ACQ_TRIG | ACQ_STAT | ACQ_CNT | MEM_STATUS | MEM_REF_ORG | MEM_REF_STAT | MEM_TEMP
  | MEM_EVQ | MEM_DEC_ADDR | MEM_PASR | MEM_SEG_LOST | MEM_SCRUB | MEM_TRN_PAT | MEM_MAP_CTL | MEM_MAP_BASE
  | MEM_MAP_LEN | MEM_CH_STAT | MEM_CH_ECC | MEM_CH_PAR | MEM_CH_ERR_ADDR | MEM_CH_TRN | MEM_CH_MAINT | MEM_TRN_ERR
  | CHT_STATUS | CHT_WALK_CNT | CHT_INV_SPACE | CHT_INV_START | CHT_INV_LEN | CHT_INV_GO | CHT_BAR2_CTL | CHT_BAR2_BASE
  | CHT_BAR2_CNT | CHT_AS_CTL | CHT_AS_ROOT | CHT_FLT_VALID | CHT_PLT_CNT | CHT_FLT | DMA_STATUS | DMA_SLOTS
  | DMA_CH_CTL | DMA_CH_STAT | DMA_CH_PROG | DMA_CH_CNT | HLM_STATUS | HLM_ADM_MIRROR | HLM_ADM_VEC | HLM_FIX_ADDR
  | HLM_FIX_CTL | HLM_FIX_STAT | HLM_PROMPT_CNT | FIX_DB | HLM_RING_CFG | HLM_RING_MIR | HLM_RING_STAT | HLM_RING_LAST
  | HLM_RING_CPL | HLM_RING_CNT | SWY_STATUS | SWY_TICK | SWY_TICK_LAST | SWY_T_STAT | SWY_T_WAIT | SWY_T_EXP
  | SWY_H_OP | SWY_H_ARG | SWY_H_RES | SWY_H_CUR | SWY_H_SWITCH | SWY_H_MSG | DPT_STATUS | DPT_COMMIT_SEQ
  | DPT_SPILL | DPT_DROP | DPT_MARK | DPT_Q_CTL | DPT_Q_OWNER | DPT_Q_BASE | DPT_Q_MIRROR | DPT_Q_THR
  | DPT_Q_NOTIFY | DPT_Q_TAIL | DPT_Q_HEAD | DPT_Q_STAT | DPT_Q_CNT | DPT_Q_MIR_PTR | WLN_STATUS | WLN_CONV
  | WLN_CONV_CTL | WLN_HALT | WLN_GO_CTL | WLN_GO | WLN_AGG | WLN_TIME | WLN_AGG_MAP | WLN_ROUTE
  | WLN_P_CTL | WLN_P_STAT | WLN_P_TAPS | WLN_P_LAT | WLN_P_ASYM | WLN_P_DELAY | WLN_P_ERR | WLN_P_FEC
  | WLN_P_LAUNCH | DEV_ID | DEV_STATUS | DEV_UID | DEV_IRQ | DEV_SCRATCH | PCI_LINK | PCI_ERR
  | ETH_CTL | ETH_MAC | ETH_TXQ | ETH_PTP_CTL | ETH_PTP_STAT | ETH_OOB | ETH_OOB_PEER | BNC_STATUS
  | BNC_VERSION | BNC_RESET | BNC_BLK_RESET | BNC_BLK_STAT | BNC_LOG_STAT | BNC_LOG_ENTRY | PWR_ON | PWR_SWITCHING
  | PWR_REQ | PWR_RESULT | THM_TEMP | THM_CFG | THM_STAT | THM_LIMIT | THM_EVQ
  deriving DecidableEq, Repr

/-- One register of a numbered group: i is the unit's number, j the word's number in a second index (0 where none). -/
structure RegKey where
  id : RegId
  i : Nat
  j : Nat
  deriving DecidableEq, Repr

/-- The access codes (R7). -/
inductive Access where
  | rw | ro | wo | w1c | w1s | rc
  deriving DecidableEq, Repr

/-- A field of a register: its bits and access code. -/
structure FieldSpec where
  hi : Nat
  lo : Nat
  acc : Access
  deriving DecidableEq, Repr

/-- A register's row of the address map: base offset, first stride and count, second stride and count, width in bits, fields. -/
structure RegInfo where
  base : Nat
  s1 : Nat
  c1 : Nat
  s2 : Nat
  c2 : Nat
  width : Nat
  fields : List FieldSpec
  deriving DecidableEq, Repr

/-- The address map (R442) and the access codes of each register's fields (R7); a bit in no field is reserved (R9). -/
def RegId.info : RegId → RegInfo
  | .MER_CTL => ⟨0xF00000, 256, 8, 0, 1, 32, [⟨0, 0, .rw⟩, ⟨2, 1, .rw⟩]⟩
  | .MER_FWORD => ⟨0xF00008, 256, 8, 0, 1, 64, [⟨47, 0, .rw⟩]⟩
  | .MER_TRACK => ⟨0xF00010, 256, 8, 0, 1, 32, [⟨2, 0, .rw⟩, ⟨8, 3, .rw⟩, ⟨9, 9, .rw⟩, ⟨14, 10, .rw⟩, ⟨19, 15, .rw⟩, ⟨21, 20, .rw⟩]⟩
  | .MER_FLIM => ⟨0xF00018, 256, 8, 0, 1, 64, [⟨31, 0, .rw⟩, ⟨63, 32, .rw⟩]⟩
  | .MER_START => ⟨0xF00020, 256, 8, 0, 1, 64, [⟨63, 0, .rw⟩]⟩
  | .MER_ODO_CYC => ⟨0xF00028, 256, 8, 0, 1, 64, [⟨63, 0, .ro⟩]⟩
  | .MER_ODO_FRAC => ⟨0xF00030, 256, 8, 0, 1, 32, [⟨23, 0, .ro⟩]⟩
  | .MER_STATUS => ⟨0xF00038, 256, 8, 0, 1, 32, [⟨1, 0, .ro⟩, ⟨2, 2, .ro⟩, ⟨3, 3, .ro⟩, ⟨4, 4, .w1c⟩, ⟨5, 5, .w1c⟩, ⟨6, 6, .ro⟩]⟩
  | .MER_ADJ_PHASE => ⟨0xF00040, 256, 8, 0, 1, 32, [⟨31, 0, .ro⟩]⟩
  | .MER_ADJ_FREQ => ⟨0xF00044, 256, 8, 0, 1, 32, [⟨31, 0, .ro⟩]⟩
  | .MER_LOST_COUNT => ⟨0xF00048, 256, 8, 0, 1, 32, [⟨31, 0, .rc⟩]⟩
  | .MER_WALL_CTL => ⟨0xF00760, 0, 1, 0, 1, 32, [⟨1, 0, .rw⟩]⟩
  | .MER_WALL_SEC => ⟨0xF00768, 0, 1, 0, 1, 64, [⟨63, 0, .ro⟩]⟩
  | .MER_WALL_SUB => ⟨0xF00770, 0, 1, 0, 1, 64, [⟨31, 0, .ro⟩, ⟨47, 32, .ro⟩]⟩
  | .MER_SLIP_STAT => ⟨0xF01000, 16, 16, 0, 1, 32, [⟨1, 0, .ro⟩, ⟨19, 8, .rc⟩, ⟨31, 20, .rc⟩]⟩
  | .MER_SNAP => ⟨0xF02000, 0, 1, 0, 1, 32, [⟨7, 0, .wo⟩]⟩
  | .MER_MS_STAT => ⟨0xF02010, 0, 1, 0, 1, 32, [⟨12, 0, .ro⟩, ⟨13, 13, .ro⟩, ⟨31, 16, .rc⟩]⟩
  | .PIN_CTL => ⟨0xC00000, 4096, 48, 0, 1, 32, [⟨1, 0, .rw⟩, ⟨2, 2, .rw⟩, ⟨3, 3, .rw⟩, ⟨4, 4, .rw⟩, ⟨7, 5, .rw⟩]⟩
  | .PIN_DRV_LVL => ⟨0xC00008, 4096, 48, 0, 1, 32, [⟨11, 0, .rw⟩, ⟨27, 16, .rw⟩]⟩
  | .PIN_VTT => ⟨0xC00010, 4096, 48, 0, 1, 32, [⟨11, 0, .rw⟩]⟩
  | .PIN_CMP_LVL => ⟨0xC00018, 4096, 48, 0, 1, 32, [⟨11, 0, .rw⟩, ⟨23, 12, .rw⟩, ⟨28, 24, .rw⟩]⟩
  | .PIN_PMU_CTL => ⟨0xC00020, 4096, 48, 0, 1, 32, [⟨1, 0, .rw⟩, ⟨4, 2, .rw⟩]⟩
  | .PIN_PMU_FORCE => ⟨0xC00028, 4096, 48, 0, 1, 32, [⟨15, 0, .rw⟩]⟩
  | .PIN_PMU_CLAMP => ⟨0xC00030, 4096, 48, 0, 1, 32, [⟨15, 0, .rw⟩, ⟨31, 16, .rw⟩]⟩
  | .PIN_STATUS => ⟨0xC00038, 4096, 48, 0, 1, 32, [⟨2, 0, .ro⟩, ⟨3, 3, .ro⟩, ⟨4, 4, .ro⟩, ⟨5, 5, .w1c⟩, ⟨6, 6, .w1c⟩, ⟨7, 7, .w1c⟩, ⟨9, 8, .ro⟩, ⟨10, 10, .ro⟩]⟩
  | .PIN_OV_COUNT => ⟨0xC00040, 4096, 48, 0, 1, 32, [⟨15, 0, .rc⟩]⟩
  | .PIN_TRIM => ⟨0xC00048, 4096, 48, 0, 1, 64, [⟨7, 0, .ro⟩, ⟨15, 8, .ro⟩, ⟨23, 16, .ro⟩, ⟨31, 24, .ro⟩, ⟨39, 32, .ro⟩, ⟨47, 40, .ro⟩, ⟨55, 48, .ro⟩, ⟨56, 56, .ro⟩]⟩
  | .ALM_CTL => ⟨0xA00000, 0, 1, 0, 1, 32, [⟨1, 0, .rw⟩]⟩
  | .ALM_STATUS => ⟨0xA00008, 0, 1, 0, 1, 32, [⟨0, 0, .ro⟩, ⟨1, 1, .w1c⟩, ⟨2, 2, .w1c⟩]⟩
  | .ALM_ECC_CNT => ⟨0xA00010, 0, 1, 0, 1, 32, [⟨15, 0, .rc⟩, ⟨31, 16, .rc⟩]⟩
  | .ALM_UE_LOC => ⟨0xA00018, 0, 1, 0, 1, 32, [⟨10, 0, .ro⟩, ⟨16, 11, .ro⟩]⟩
  | .ALM_DESKEW => ⟨0xA01000, 8, 48, 0, 1, 64, [⟨23, 0, .rw⟩, ⟨55, 32, .rw⟩]⟩
  | .ALM_CROWD => ⟨0xA02000, 4, 48, 0, 1, 32, [⟨15, 0, .rc⟩]⟩
  | .PLT_CTL => ⟨0x800000, 65536, 16, 0, 1, 32, [⟨0, 0, .rw⟩, ⟨1, 1, .rw⟩]⟩
  | .PLT_STATUS => ⟨0x800008, 65536, 16, 0, 1, 64, [⟨2, 0, .ro⟩, ⟨19, 4, .ro⟩, ⟨33, 20, .ro⟩, ⟨34, 34, .ro⟩]⟩
  | .PLT_LEG_STATUS => ⟨0x800010, 65536, 16, 0, 1, 64, [⟨3, 0, .ro⟩, ⟨11, 4, .ro⟩, ⟨12, 12, .ro⟩, ⟨13, 13, .ro⟩, ⟨14, 14, .ro⟩, ⟨15, 15, .ro⟩, ⟨16, 16, .ro⟩, ⟨17, 17, .ro⟩, ⟨18, 18, .ro⟩, ⟨19, 19, .ro⟩, ⟨31, 20, .ro⟩]⟩
  | .PLT_LEG_INDEX => ⟨0x800018, 65536, 16, 0, 1, 64, [⟨63, 0, .ro⟩]⟩
  | .PLT_LEG_S => ⟨0x800020, 65536, 16, 0, 1, 64, [⟨63, 0, .ro⟩]⟩
  | .PLT_LEG_E => ⟨0x800028, 65536, 16, 0, 1, 64, [⟨63, 0, .ro⟩]⟩
  | .PLT_LEG_FRAC => ⟨0x800030, 65536, 16, 0, 1, 32, [⟨23, 0, .ro⟩]⟩
  | .PLT_MATCH_STAT => ⟨0x800038, 65536, 16, 0, 1, 64, [⟨1, 0, .ro⟩, ⟨22, 2, .ro⟩, ⟨43, 23, .ro⟩]⟩
  | .PLT_RSV_COUNT => ⟨0x800040, 65536, 16, 0, 1, 32, [⟨31, 0, .rc⟩]⟩
  | .PLT_HEXT_COUNT => ⟨0x800048, 65536, 16, 0, 1, 32, [⟨31, 0, .rc⟩]⟩
  | .PLT_ALU => ⟨0x800100, 65536, 16, 8, 8, 64, [⟨31, 0, .ro⟩]⟩
  | .PLT_WTO => ⟨0x800140, 65536, 16, 8, 8, 32, [⟨31, 0, .rw⟩]⟩
  | .PLT_BRK => ⟨0x800200, 65536, 16, 0, 1, 32, [⟨13, 0, .rw⟩]⟩
  | .PLT_TRAP_STAT => ⟨0x800208, 65536, 16, 0, 1, 32, [⟨7, 0, .ro⟩, ⟨8, 8, .w1c⟩, ⟨9, 9, .w1c⟩, ⟨31, 16, .rc⟩]⟩
  | .PLT_TRAP_PEND => ⟨0x800210, 65536, 16, 0, 1, 32, [⟨7, 0, .ro⟩, ⟨15, 8, .rc⟩]⟩
  | .PLT_TRAP_FRAME => ⟨0x801000, 65536, 16, 8, 64, 64, [⟨63, 0, .ro⟩]⟩
  | .PLT_CS_STAT => ⟨0x808000, 65536, 16, 0, 1, 32, [⟨0, 0, .ro⟩, ⟨1, 1, .ro⟩, ⟨2, 2, .ro⟩, ⟨3, 3, .ro⟩, ⟨4, 4, .rw⟩]⟩
  | .PLT_CS_ECC => ⟨0x808008, 65536, 16, 0, 1, 32, [⟨15, 0, .rc⟩, ⟨31, 16, .rc⟩]⟩
  | .PLT_CS_UE_LOC => ⟨0x808010, 65536, 16, 0, 1, 32, [⟨13, 0, .ro⟩, ⟨14, 14, .ro⟩]⟩
  | .PLT_CS_ADDR => ⟨0x808020, 65536, 16, 0, 1, 32, [⟨13, 0, .rw⟩, ⟨14, 14, .rw⟩]⟩
  | .PLT_CS_DATA => ⟨0x808028, 65536, 16, 8, 4, 64, [⟨63, 0, .ro⟩]⟩
  | .PLT_UC_DIGEST => ⟨0x808080, 65536, 16, 8, 4, 64, [⟨63, 0, .ro⟩]⟩
  | .PLT_VL_DIGEST => ⟨0x8080A0, 65536, 16, 8, 4, 64, [⟨63, 0, .ro⟩]⟩
  | .PLT_FF_STAT => ⟨0x800300, 65536, 16, 0, 1, 32, [⟨0, 0, .ro⟩, ⟨1, 1, .ro⟩, ⟨13, 2, .ro⟩]⟩
  | .PLT_FF_INDEX => ⟨0x800308, 65536, 16, 0, 1, 64, [⟨63, 0, .ro⟩]⟩
  | .PLT_FF_MASK => ⟨0x800310, 65536, 16, 0, 1, 64, [⟨47, 0, .ro⟩]⟩
  | .PLT_FF_CYC => ⟨0x800318, 65536, 16, 0, 1, 64, [⟨63, 0, .ro⟩]⟩
  | .PLT_STRM_LO => ⟨0x800320, 65536, 16, 0, 1, 64, [⟨63, 0, .ro⟩]⟩
  | .PLT_STRM_HI => ⟨0x800328, 65536, 16, 0, 1, 64, [⟨63, 0, .ro⟩]⟩
  | .PLT_STRM_FLOOR => ⟨0x800330, 65536, 16, 0, 1, 64, [⟨63, 0, .ro⟩]⟩
  | .PLT_STRM_STAT => ⟨0x800338, 65536, 16, 0, 1, 64, [⟨26, 0, .ro⟩, ⟨47, 32, .rc⟩]⟩
  | .PLT_HOLD_STAT => ⟨0x800340, 65536, 16, 0, 1, 64, [⟨15, 0, .rc⟩, ⟨63, 16, .rc⟩]⟩
  | .PLT_HOLD_LIMIT => ⟨0x800348, 65536, 16, 0, 1, 64, [⟨47, 0, .rw⟩]⟩
  | .PLT_CAP_STAT => ⟨0x800350, 65536, 16, 0, 1, 32, [⟨0, 0, .w1c⟩, ⟨1, 1, .w1c⟩, ⟨2, 2, .w1c⟩, ⟨3, 3, .w1c⟩, ⟨31, 16, .rc⟩]⟩
  | .PIN_FAIL_COUNT => ⟨0xC00050, 4096, 48, 0, 1, 64, [⟨47, 0, .ro⟩]⟩
  | .PIN_SITE => ⟨0xC00058, 4096, 48, 0, 1, 32, [⟨5, 0, .rw⟩, ⟨8, 8, .ro⟩, ⟨23, 16, .ro⟩]⟩
  | .PLT_SITE_MASK => ⟨0x800400, 65536, 16, 0, 1, 64, [⟨47, 0, .ro⟩]⟩
  | .PLT_SITE_DROP => ⟨0x800408, 65536, 16, 0, 1, 64, [⟨47, 0, .ro⟩]⟩
  | .PLT_SUSP => ⟨0x800410, 65536, 16, 0, 1, 32, [⟨3, 0, .ro⟩, ⟨4, 4, .ro⟩, ⟨5, 5, .ro⟩, ⟨6, 6, .ro⟩, ⟨31, 16, .rc⟩]⟩
  | .PLT_SUSP_LIST => ⟨0x800418, 65536, 16, 0, 1, 64, [⟨63, 0, .ro⟩]⟩
  | .SXT_STATUS => ⟨0xD00000, 0, 1, 0, 1, 32, [⟨0, 0, .ro⟩, ⟨1, 1, .ro⟩, ⟨2, 2, .ro⟩, ⟨3, 3, .ro⟩]⟩
  | .SXT_SC_MASK => ⟨0xD00008, 0, 1, 0, 1, 64, [⟨51, 0, .rw⟩]⟩
  | .SXT_SC_START => ⟨0xD00010, 0, 1, 0, 1, 32, [⟨0, 0, .wo⟩]⟩
  | .SXT_SC_FAIL => ⟨0xD00018, 0, 1, 0, 1, 64, [⟨51, 0, .ro⟩]⟩
  | .SXT_SC_SKIP => ⟨0xD00020, 0, 1, 0, 1, 64, [⟨51, 0, .ro⟩]⟩
  | .SXT_CH_CTL => ⟨0xD01000, 256, 52, 0, 1, 32, [⟨0, 0, .rw⟩, ⟨2, 1, .rw⟩, ⟨3, 3, .rw⟩, ⟨6, 4, .rw⟩, ⟨7, 7, .rw⟩, ⟨8, 8, .rw⟩, ⟨17, 9, .rw⟩, ⟨27, 18, .rw⟩]⟩
  | .SXT_CH_QUEUE => ⟨0xD01008, 256, 52, 0, 1, 32, [⟨13, 0, .rw⟩]⟩
  | .SXT_WIN_OPEN => ⟨0xD01010, 256, 52, 0, 1, 64, [⟨63, 0, .rw⟩]⟩
  | .SXT_WIN_CLOSE => ⟨0xD01018, 256, 52, 0, 1, 64, [⟨63, 0, .rw⟩]⟩
  | .SXT_WIN_FRAC => ⟨0xD01020, 256, 52, 0, 1, 64, [⟨23, 0, .rw⟩, ⟨55, 32, .rw⟩]⟩
  | .SXT_WIN_CMT => ⟨0xD01028, 256, 52, 0, 1, 32, [⟨0, 0, .wo⟩]⟩
  | .SXT_CH_DESKEW => ⟨0xD01030, 256, 52, 0, 1, 32, [⟨23, 0, .rw⟩]⟩
  | .SXT_CH_STAT => ⟨0xD01038, 256, 52, 0, 1, 32, [⟨11, 0, .ro⟩, ⟨12, 12, .ro⟩, ⟨13, 13, .ro⟩]⟩
  | .SXT_CH_CNT => ⟨0xD01040, 256, 52, 0, 1, 64, [⟨15, 0, .rc⟩, ⟨31, 16, .rc⟩, ⟨47, 32, .rc⟩, ⟨63, 48, .rc⟩]⟩
  | .SXT_MU_CTL => ⟨0xD08000, 256, 16, 0, 1, 32, [⟨1, 0, .rw⟩, ⟨7, 2, .rw⟩, ⟨8, 8, .rw⟩, ⟨14, 9, .rw⟩, ⟨15, 15, .rw⟩, ⟨16, 16, .rw⟩, ⟨17, 17, .rw⟩, ⟨18, 18, .rw⟩]⟩
  | .SXT_MU_N => ⟨0xD08008, 256, 16, 0, 1, 32, [⟨31, 0, .rw⟩]⟩
  | .SXT_MU_REF => ⟨0xD08010, 256, 16, 0, 1, 32, [⟨31, 0, .rw⟩]⟩
  | .SXT_MU_QUEUE => ⟨0xD08018, 256, 16, 0, 1, 32, [⟨13, 0, .rw⟩]⟩
  | .SXT_MU_STAT => ⟨0xD08020, 256, 16, 0, 1, 64, [⟨0, 0, .ro⟩, ⟨1, 1, .w1c⟩, ⟨2, 2, .w1c⟩, ⟨63, 32, .ro⟩]⟩
  | .SXT_MU_CNT => ⟨0xD08028, 256, 16, 0, 1, 32, [⟨15, 0, .rc⟩, ⟨31, 16, .rc⟩]⟩
  | .SXT_MU_COUNT => ⟨0xD08030, 256, 16, 0, 1, 64, [⟨32, 0, .ro⟩]⟩
  | .SXT_MU_SUM => ⟨0xD08038, 256, 16, 0, 1, 64, [⟨63, 0, .ro⟩]⟩
  | .SXT_MU_SUMSQ_LO => ⟨0xD08040, 256, 16, 0, 1, 64, [⟨63, 0, .ro⟩]⟩
  | .SXT_MU_SUMSQ_HI => ⟨0xD08048, 256, 16, 0, 1, 64, [⟨31, 0, .ro⟩]⟩
  | .SXT_MU_MINMAX => ⟨0xD08050, 256, 16, 0, 1, 64, [⟨31, 0, .ro⟩, ⟨63, 32, .ro⟩]⟩
  | .DDS_CTL => ⟨0xD80000, 0, 1, 0, 1, 32, [⟨2, 0, .rw⟩]⟩
  | .DDS_STATUS => ⟨0xD80008, 0, 1, 0, 1, 32, [⟨0, 0, .ro⟩, ⟨15, 8, .ro⟩, ⟨23, 16, .ro⟩]⟩
  | .DDS_PIN_SEL => ⟨0xD80100, 4, 48, 0, 1, 32, [⟨2, 0, .rw⟩]⟩
  | .DDS_ENG_CTL => ⟨0xD81000, 256, 8, 0, 1, 32, [⟨2, 0, .rw⟩, ⟨14, 3, .rw⟩, ⟨15, 15, .rw⟩, ⟨27, 16, .rw⟩]⟩
  | .DDS_ENG_LEN => ⟨0xD81008, 256, 8, 0, 1, 32, [⟨12, 0, .rw⟩]⟩
  | .DDS_ENG_MID => ⟨0xD81010, 256, 8, 0, 1, 32, [⟨11, 0, .rw⟩]⟩
  | .DDS_ENG_STAT => ⟨0xD81018, 256, 8, 0, 1, 32, [⟨1, 0, .ro⟩, ⟨13, 2, .ro⟩, ⟨14, 14, .w1c⟩, ⟨15, 15, .w1c⟩]⟩
  | .DDS_ENG_CNT => ⟨0xD81020, 256, 8, 0, 1, 32, [⟨15, 0, .rc⟩, ⟨31, 16, .rc⟩]⟩
  | .DDS_ENG_EPOCH => ⟨0xD81028, 256, 8, 0, 1, 64, [⟨63, 0, .ro⟩]⟩
  | .DDS_ENG_EPOCH_FRAC => ⟨0xD81030, 256, 8, 0, 1, 32, [⟨23, 0, .ro⟩]⟩
  | .ADC_TRIG_CFG => ⟨0xE00000, 0, 1, 0, 1, 32, [⟨1, 0, .rw⟩, ⟨2, 2, .rw⟩, ⟨3, 3, .rw⟩, ⟨7, 4, .rw⟩, ⟨8, 8, .rw⟩]⟩
  | .ADC_TRIG => ⟨0xE00008, 0, 1, 0, 1, 32, [⟨0, 0, .wo⟩]⟩
  | .ADC_STATUS => ⟨0xE00010, 0, 1, 0, 1, 32, [⟨0, 0, .ro⟩, ⟨1, 1, .ro⟩, ⟨5, 2, .ro⟩, ⟨6, 6, .ro⟩, ⟨31, 20, .ro⟩]⟩
  | .ADC_OVERRUN => ⟨0xE00018, 0, 1, 0, 1, 32, [⟨15, 0, .rc⟩]⟩
  | .ADC_RUN_CYC => ⟨0xE00020, 0, 1, 0, 1, 64, [⟨63, 0, .ro⟩]⟩
  | .ADC_RUN_FRAC => ⟨0xE00028, 0, 1, 0, 1, 32, [⟨23, 0, .ro⟩]⟩
  | .ADC_QUEUE => ⟨0xE00030, 0, 1, 0, 1, 32, [⟨13, 0, .rw⟩, ⟨14, 14, .rw⟩]⟩
  | .ADC_SD_LEN => ⟨0xE00040, 0, 1, 0, 1, 32, [⟨5, 0, .rw⟩]⟩
  | .ADC_SD_OVR => ⟨0xE00048, 0, 1, 0, 1, 32, [⟨31, 0, .w1c⟩]⟩
  | .ADC_SD_CFG => ⟨0xE00100, 4, 48, 0, 1, 32, [⟨17, 0, .rw⟩]⟩
  | .ADC_SD_SEQ => ⟨0xE00200, 4, 32, 0, 1, 32, [⟨5, 0, .rw⟩]⟩
  | .ADC_SD_RES => ⟨0xE00300, 4, 32, 0, 1, 32, [⟨31, 0, .ro⟩]⟩
  | .ADC_SD_LIVE => ⟨0xE00400, 4, 48, 0, 1, 32, [⟨23, 0, .ro⟩, ⟨24, 24, .ro⟩, ⟨25, 25, .ro⟩, ⟨26, 26, .ro⟩]⟩
  | .ADC_SAR_CTL => ⟨0xE01000, 256, 4, 0, 1, 32, [⟨5, 0, .rw⟩, ⟨10, 6, .rw⟩]⟩
  | .ADC_SAR_SEQ => ⟨0xE01008, 256, 4, 0, 1, 64, [⟨2, 0, .rw⟩, ⟨6, 4, .rw⟩, ⟨10, 8, .rw⟩, ⟨14, 12, .rw⟩, ⟨18, 16, .rw⟩, ⟨22, 20, .rw⟩,
    ⟨26, 24, .rw⟩, ⟨30, 28, .rw⟩, ⟨34, 32, .rw⟩, ⟨38, 36, .rw⟩, ⟨42, 40, .rw⟩, ⟨46, 44, .rw⟩, ⟨50, 48, .rw⟩, ⟨54, 52, .rw⟩,
    ⟨58, 56, .rw⟩, ⟨62, 60, .rw⟩]⟩
  | .ADC_SAR_INJ => ⟨0xE01010, 256, 4, 0, 1, 32, [⟨2, 0, .wo⟩, ⟨3, 3, .wo⟩]⟩
  | .ADC_SAR_STAT => ⟨0xE01018, 256, 4, 0, 1, 32, [⟨0, 0, .ro⟩, ⟨1, 1, .ro⟩, ⟨2, 2, .w1c⟩, ⟨31, 16, .rc⟩]⟩
  | .ADC_SAR_OVR => ⟨0xE01020, 256, 4, 0, 1, 32, [⟨15, 0, .w1c⟩, ⟨16, 16, .w1c⟩]⟩
  | .ADC_SAR_INJ_RES => ⟨0xE01028, 256, 4, 0, 1, 32, [⟨31, 0, .ro⟩]⟩
  | .ADC_SAR_RES => ⟨0xE01040, 256, 4, 4, 16, 32, [⟨31, 0, .ro⟩]⟩
  | .ACQ_STATUS => ⟨0xE80000, 0, 1, 0, 1, 32, [⟨3, 0, .ro⟩, ⟨4, 4, .ro⟩]⟩
  | .ACQ_CTL => ⟨0xE81000, 256, 4, 0, 1, 32, [⟨0, 0, .rw⟩, ⟨1, 1, .rw⟩, ⟨2, 2, .rw⟩, ⟨3, 3, .rw⟩, ⟨6, 4, .rw⟩, ⟨8, 7, .rw⟩, ⟨9, 9, .rw⟩, ⟨17, 10, .rw⟩]⟩
  | .ACQ_SRC => ⟨0xE81008, 256, 4, 0, 1, 32, [⟨0, 0, .rw⟩, ⟨6, 1, .rw⟩, ⟨8, 7, .rw⟩, ⟨11, 9, .rw⟩, ⟨27, 12, .rw⟩, ⟨28, 28, .rw⟩]⟩
  | .ACQ_BASE => ⟨0xE81010, 256, 4, 0, 1, 64, [⟨47, 0, .rw⟩]⟩
  | .ACQ_PRE => ⟨0xE81018, 256, 4, 0, 1, 32, [⟨26, 0, .rw⟩]⟩
  | .ACQ_POST => ⟨0xE81020, 256, 4, 0, 1, 32, [⟨31, 0, .rw⟩]⟩
  | .ACQ_NSEG => ⟨0xE81028, 256, 4, 0, 1, 32, [⟨15, 0, .rw⟩]⟩
  | .ACQ_LEVEL => ⟨0xE81030, 256, 4, 0, 1, 32, [⟨23, 0, .rw⟩, ⟨31, 24, .rw⟩]⟩
  | .ACQ_QUEUE => ⟨0xE81038, 256, 4, 0, 1, 32, [⟨13, 0, .rw⟩]⟩
  | .ACQ_TRIG => ⟨0xE81040, 256, 4, 0, 1, 32, [⟨0, 0, .wo⟩]⟩
  | .ACQ_STAT => ⟨0xE81048, 256, 4, 0, 1, 64, [⟨1, 0, .ro⟩, ⟨2, 2, .w1c⟩, ⟨3, 3, .w1c⟩, ⟨4, 4, .w1c⟩, ⟨5, 5, .w1c⟩, ⟨58, 32, .ro⟩]⟩
  | .ACQ_CNT => ⟨0xE81050, 256, 4, 0, 1, 64, [⟨15, 0, .rc⟩, ⟨31, 16, .rc⟩, ⟨47, 32, .rc⟩, ⟨63, 48, .rc⟩]⟩
  | .MEM_STATUS => ⟨0x1000000, 0, 1, 0, 1, 32, [⟨2, 0, .ro⟩, ⟨3, 3, .ro⟩, ⟨4, 4, .w1c⟩, ⟨5, 5, .w1c⟩, ⟨6, 6, .w1c⟩]⟩
  | .MEM_REF_ORG => ⟨0x1000008, 0, 1, 0, 1, 64, [⟨63, 0, .ro⟩]⟩
  | .MEM_REF_STAT => ⟨0x1000010, 0, 1, 0, 1, 64, [⟨31, 0, .ro⟩, ⟨47, 32, .rc⟩]⟩
  | .MEM_TEMP => ⟨0x1000018, 0, 1, 0, 1, 32, [⟨31, 0, .ro⟩]⟩
  | .MEM_EVQ => ⟨0x1000020, 0, 1, 0, 1, 32, [⟨13, 0, .rw⟩, ⟨14, 14, .rw⟩, ⟨15, 15, .rw⟩]⟩
  | .MEM_DEC_ADDR => ⟨0x1000028, 0, 1, 0, 1, 64, [⟨43, 0, .ro⟩, ⟨48, 44, .ro⟩]⟩
  | .MEM_PASR => ⟨0x1000030, 0, 1, 0, 1, 32, [⟨31, 0, .ro⟩]⟩
  | .MEM_SEG_LOST => ⟨0x1000038, 0, 1, 0, 1, 32, [⟨31, 0, .ro⟩]⟩
  | .MEM_SCRUB => ⟨0x1000040, 0, 1, 0, 1, 64, [⟨0, 0, .rw⟩, ⟨15, 8, .rw⟩, ⟨63, 32, .ro⟩]⟩
  | .MEM_TRN_PAT => ⟨0x1002000, 8, 72, 0, 1, 64, [⟨63, 0, .rw⟩]⟩
  | .MEM_MAP_CTL => ⟨0x1001000, 32, 16, 0, 1, 32, [⟨0, 0, .rw⟩, ⟨2, 1, .rw⟩, ⟨4, 3, .rw⟩, ⟨8, 5, .rw⟩]⟩
  | .MEM_MAP_BASE => ⟨0x1001008, 32, 16, 0, 1, 32, [⟨31, 0, .rw⟩]⟩
  | .MEM_MAP_LEN => ⟨0x1001010, 32, 16, 0, 1, 32, [⟨31, 0, .rw⟩]⟩
  | .MEM_CH_STAT => ⟨0x1008000, 256, 64, 0, 1, 32, [⟨1, 0, .ro⟩, ⟨31, 16, .rc⟩]⟩
  | .MEM_CH_ECC => ⟨0x1008008, 256, 64, 0, 1, 64, [⟨15, 0, .rc⟩, ⟨31, 16, .rc⟩, ⟨47, 32, .rc⟩]⟩
  | .MEM_CH_PAR => ⟨0x1008010, 256, 64, 0, 1, 32, [⟨15, 0, .rc⟩, ⟨31, 16, .rc⟩]⟩
  | .MEM_CH_ERR_ADDR => ⟨0x1008018, 256, 64, 0, 1, 64, [⟨31, 0, .ro⟩, ⟨36, 32, .ro⟩]⟩
  | .MEM_CH_TRN => ⟨0x1008020, 256, 64, 0, 1, 32, [⟨0, 0, .rw⟩, ⟨2, 1, .rw⟩]⟩
  | .MEM_CH_MAINT => ⟨0x1008028, 256, 64, 0, 1, 32, [⟨31, 0, .rc⟩]⟩
  | .MEM_TRN_ERR => ⟨0x1008040, 256, 64, 8, 18, 64, [⟨63, 0, .rc⟩]⟩
  | .CHT_STATUS => ⟨0x1400000, 0, 1, 0, 1, 32, [⟨6, 0, .ro⟩, ⟨7, 7, .ro⟩, ⟨8, 8, .w1c⟩]⟩
  | .CHT_WALK_CNT => ⟨0x1400008, 0, 1, 0, 1, 64, [⟨31, 0, .rc⟩, ⟨63, 32, .rc⟩]⟩
  | .CHT_INV_SPACE => ⟨0x1400010, 0, 1, 0, 1, 32, [⟨7, 0, .rw⟩, ⟨8, 8, .rw⟩]⟩
  | .CHT_INV_START => ⟨0x1400018, 0, 1, 0, 1, 64, [⟨47, 0, .rw⟩]⟩
  | .CHT_INV_LEN => ⟨0x1400020, 0, 1, 0, 1, 64, [⟨48, 0, .rw⟩]⟩
  | .CHT_INV_GO => ⟨0x1400028, 0, 1, 0, 1, 32, [⟨0, 0, .wo⟩]⟩
  | .CHT_BAR2_CTL => ⟨0x1400030, 0, 1, 0, 1, 32, [⟨0, 0, .rw⟩, ⟨15, 8, .rw⟩]⟩
  | .CHT_BAR2_BASE => ⟨0x1400038, 0, 1, 0, 1, 64, [⟨47, 0, .rw⟩]⟩
  | .CHT_BAR2_CNT => ⟨0x1400040, 0, 1, 0, 1, 32, [⟨15, 0, .rc⟩, ⟨31, 16, .rc⟩]⟩
  | .CHT_AS_CTL => ⟨0x1401000, 16, 256, 0, 1, 32, [⟨0, 0, .rw⟩, ⟨5, 1, .rw⟩, ⟨21, 8, .rw⟩, ⟨22, 22, .ro⟩]⟩
  | .CHT_AS_ROOT => ⟨0x1401008, 16, 256, 0, 1, 64, [⟨43, 0, .rw⟩]⟩
  | .CHT_FLT_VALID => ⟨0x1402000, 0, 1, 0, 1, 64, [⟨63, 0, .ro⟩]⟩
  | .CHT_PLT_CNT => ⟨0x1402100, 8, 16, 0, 1, 64, [⟨31, 0, .rc⟩, ⟨47, 32, .rc⟩, ⟨63, 48, .rc⟩]⟩
  | .CHT_FLT => ⟨0x1403000, 32, 64, 8, 4, 64, [⟨63, 0, .ro⟩]⟩
  | .DMA_STATUS => ⟨0x1500000, 0, 1, 0, 1, 32, [⟨15, 0, .ro⟩, ⟨31, 16, .ro⟩]⟩
  | .DMA_SLOTS => ⟨0x1500008, 0, 1, 0, 1, 32, [⟨5, 0, .ro⟩, ⟨12, 8, .ro⟩]⟩
  | .DMA_CH_CTL => ⟨0x1501000, 256, 16, 0, 1, 32, [⟨0, 0, .rw⟩, ⟨15, 2, .rw⟩, ⟨29, 16, .rw⟩]⟩
  | .DMA_CH_STAT => ⟨0x1501008, 256, 16, 0, 1, 32, [⟨2, 0, .ro⟩, ⟨10, 8, .ro⟩, ⟨31, 16, .ro⟩]⟩
  | .DMA_CH_PROG => ⟨0x1501010, 256, 16, 0, 1, 64, [⟨24, 0, .ro⟩, ⟨27, 25, .ro⟩, ⟨63, 32, .ro⟩]⟩
  | .DMA_CH_CNT => ⟨0x1501018, 256, 16, 0, 1, 64, [⟨31, 0, .rc⟩, ⟨47, 32, .rc⟩, ⟨63, 48, .rc⟩]⟩
  | .HLM_STATUS => ⟨0x200000, 0, 1, 0, 1, 32, [⟨0, 0, .ro⟩, ⟨1, 1, .ro⟩, ⟨5, 2, .ro⟩]⟩
  | .HLM_ADM_MIRROR => ⟨0x200008, 0, 1, 0, 1, 64, [⟨0, 0, .rw⟩, ⟨63, 12, .rw⟩]⟩
  | .HLM_ADM_VEC => ⟨0x200010, 0, 1, 0, 1, 32, [⟨10, 0, .rw⟩]⟩
  | .HLM_FIX_ADDR => ⟨0x200018, 0, 1, 0, 1, 64, [⟨0, 0, .rw⟩, ⟨63, 12, .rw⟩]⟩
  | .HLM_FIX_CTL => ⟨0x200020, 0, 1, 0, 1, 32, [⟨10, 0, .rw⟩, ⟨11, 11, .rw⟩]⟩
  | .HLM_FIX_STAT => ⟨0x200028, 0, 1, 0, 1, 64, [⟨0, 0, .ro⟩, ⟨1, 1, .w1c⟩, ⟨2, 2, .w1c⟩, ⟨63, 32, .ro⟩]⟩
  | .HLM_PROMPT_CNT => ⟨0x200030, 0, 1, 0, 1, 64, [⟨15, 0, .rc⟩, ⟨31, 16, .rc⟩, ⟨47, 32, .rc⟩, ⟨63, 48, .rc⟩]⟩
  | .FIX_DB => ⟨0x3FFF000, 0, 1, 0, 1, 32, [⟨0, 0, .wo⟩]⟩
  | .HLM_RING_CFG => ⟨0x201000, 64, 256, 0, 1, 64, [⟨0, 0, .ro⟩, ⟨1, 1, .ro⟩, ⟨2, 2, .ro⟩, ⟨3, 3, .ro⟩, ⟨7, 4, .ro⟩, ⟨11, 8, .ro⟩, ⟨22, 12, .ro⟩, ⟨30, 23, .ro⟩, ⟨47, 32, .ro⟩]⟩
  | .HLM_RING_MIR => ⟨0x201008, 64, 256, 0, 1, 64, [⟨63, 0, .ro⟩]⟩
  | .HLM_RING_STAT => ⟨0x201010, 64, 256, 0, 1, 64, [⟨31, 0, .ro⟩, ⟨63, 32, .ro⟩]⟩
  | .HLM_RING_LAST => ⟨0x201018, 64, 256, 0, 1, 64, [⟨31, 0, .ro⟩, ⟨47, 32, .ro⟩, ⟨63, 48, .rc⟩]⟩
  | .HLM_RING_CPL => ⟨0x201020, 64, 256, 0, 1, 64, [⟨31, 0, .ro⟩, ⟨63, 32, .ro⟩]⟩
  | .HLM_RING_CNT => ⟨0x201028, 64, 256, 0, 1, 64, [⟨15, 0, .rc⟩, ⟨31, 16, .rc⟩]⟩
  | .SWY_STATUS => ⟨0x300000, 0, 1, 0, 1, 64, [⟨12, 0, .ro⟩, ⟨25, 13, .ro⟩, ⟨31, 26, .ro⟩, ⟨44, 32, .ro⟩, ⟨57, 45, .ro⟩, ⟨58, 58, .w1c⟩]⟩
  | .SWY_TICK => ⟨0x300008, 0, 1, 0, 1, 32, [⟨20, 0, .rw⟩]⟩
  | .SWY_TICK_LAST => ⟨0x300010, 0, 1, 0, 1, 64, [⟨63, 0, .ro⟩]⟩
  | .SWY_T_STAT => ⟨0x310000, 32, 4096, 0, 1, 64, [⟨2, 0, .ro⟩, ⟨8, 3, .ro⟩, ⟨10, 9, .ro⟩, ⟨24, 11, .ro⟩, ⟨63, 32, .ro⟩]⟩
  | .SWY_T_WAIT => ⟨0x310008, 32, 4096, 0, 1, 64, [⟨31, 0, .ro⟩, ⟨32, 32, .ro⟩, ⟨33, 33, .ro⟩]⟩
  | .SWY_T_EXP => ⟨0x310010, 32, 4096, 0, 1, 64, [⟨63, 0, .ro⟩]⟩
  | .SWY_H_OP => ⟨0x380000, 1024, 4, 0, 1, 64, [⟨7, 0, .wo⟩, ⟨19, 8, .wo⟩, ⟨25, 20, .wo⟩, ⟨26, 26, .wo⟩, ⟨27, 27, .wo⟩, ⟨41, 28, .wo⟩]⟩
  | .SWY_H_ARG => ⟨0x380008, 1024, 4, 0, 1, 64, [⟨31, 0, .rw⟩, ⟨63, 32, .rw⟩]⟩
  | .SWY_H_RES => ⟨0x380010, 1024, 4, 0, 1, 64, [⟨7, 0, .ro⟩, ⟨63, 32, .ro⟩]⟩
  | .SWY_H_CUR => ⟨0x380018, 1024, 4, 0, 1, 32, [⟨11, 0, .ro⟩, ⟨12, 12, .ro⟩, ⟨13, 13, .ro⟩]⟩
  | .SWY_H_SWITCH => ⟨0x380020, 1024, 4, 0, 1, 32, [⟨0, 0, .wo⟩]⟩
  | .SWY_H_MSG => ⟨0x380100, 1024, 4, 8, 32, 64, [⟨63, 0, .rw⟩]⟩
  | .DPT_STATUS => ⟨0x400000, 0, 1, 0, 1, 64, [⟨14, 0, .ro⟩, ⟨15, 15, .w1c⟩, ⟨16, 16, .w1c⟩, ⟨17, 17, .w1c⟩, ⟨49, 32, .ro⟩]⟩
  | .DPT_COMMIT_SEQ => ⟨0x400008, 0, 1, 0, 1, 64, [⟨63, 0, .ro⟩]⟩
  | .DPT_SPILL => ⟨0x400010, 0, 1, 0, 1, 64, [⟨39, 0, .ro⟩]⟩
  | .DPT_DROP => ⟨0x400018, 0, 1, 0, 1, 64, [⟨63, 0, .ro⟩]⟩
  | .DPT_MARK => ⟨0x400020, 0, 1, 0, 1, 64, [⟨31, 0, .ro⟩, ⟨63, 32, .rc⟩]⟩
  | .DPT_Q_CTL => ⟨0x410000, 128, 16384, 0, 1, 32, [⟨0, 0, .rw⟩, ⟨1, 1, .ro⟩, ⟨2, 2, .ro⟩, ⟨5, 3, .rw⟩, ⟨8, 6, .rw⟩, ⟨11, 9, .rw⟩, ⟨16, 12, .rw⟩, ⟨21, 17, .rw⟩]⟩
  | .DPT_Q_OWNER => ⟨0x410008, 128, 16384, 0, 1, 32, [⟨11, 0, .rw⟩]⟩
  | .DPT_Q_BASE => ⟨0x410010, 128, 16384, 0, 1, 64, [⟨43, 0, .rw⟩]⟩
  | .DPT_Q_MIRROR => ⟨0x410018, 128, 16384, 0, 1, 64, [⟨4, 0, .rw⟩, ⟨5, 5, .rw⟩, ⟨63, 12, .rw⟩]⟩
  | .DPT_Q_THR => ⟨0x410020, 128, 16384, 0, 1, 64, [⟨31, 0, .rw⟩, ⟨63, 32, .rw⟩]⟩
  | .DPT_Q_NOTIFY => ⟨0x410028, 128, 16384, 0, 1, 32, [⟨1, 0, .rw⟩, ⟨6, 2, .rw⟩, ⟨18, 7, .rw⟩, ⟨29, 19, .rw⟩]⟩
  | .DPT_Q_TAIL => ⟨0x410030, 128, 16384, 0, 1, 64, [⟨63, 0, .ro⟩]⟩
  | .DPT_Q_HEAD => ⟨0x410038, 128, 16384, 0, 1, 64, [⟨63, 0, .ro⟩]⟩
  | .DPT_Q_STAT => ⟨0x410040, 128, 16384, 0, 1, 64, [⟨0, 0, .ro⟩, ⟨1, 1, .ro⟩, ⟨2, 2, .ro⟩, ⟨63, 32, .ro⟩]⟩
  | .DPT_Q_CNT => ⟨0x410048, 128, 16384, 0, 1, 64, [⟨31, 0, .rc⟩, ⟨47, 32, .rc⟩, ⟨63, 48, .rc⟩]⟩
  | .DPT_Q_MIR_PTR => ⟨0x410050, 128, 16384, 0, 1, 64, [⟨31, 0, .ro⟩, ⟨63, 32, .ro⟩]⟩
  | .WLN_STATUS => ⟨0x1600000, 0, 1, 0, 1, 32, [⟨3, 0, .ro⟩, ⟨5, 4, .ro⟩, ⟨15, 8, .ro⟩, ⟨23, 16, .ro⟩]⟩
  | .WLN_CONV => ⟨0x1600008, 0, 1, 0, 1, 64, [⟨15, 0, .ro⟩, ⟨31, 16, .ro⟩, ⟨47, 32, .ro⟩, ⟨63, 48, .rc⟩]⟩
  | .WLN_CONV_CTL => ⟨0x1600010, 0, 1, 0, 1, 32, [⟨0, 0, .rw⟩, ⟨1, 1, .rw⟩, ⟨2, 2, .rw⟩, ⟨19, 4, .rw⟩]⟩
  | .WLN_HALT => ⟨0x1600018, 0, 1, 0, 1, 32, [⟨0, 0, .wo⟩]⟩
  | .WLN_GO_CTL => ⟨0x1600020, 0, 1, 0, 1, 32, [⟨1, 0, .rw⟩]⟩
  | .WLN_GO => ⟨0x1600028, 0, 1, 0, 1, 32, [⟨0, 0, .wo⟩]⟩
  | .WLN_AGG => ⟨0x1600030, 0, 1, 0, 1, 32, [⟨15, 0, .w1c⟩, ⟨31, 16, .ro⟩]⟩
  | .WLN_TIME => ⟨0x1600038, 0, 1, 0, 1, 64, [⟨63, 0, .ro⟩]⟩
  | .WLN_AGG_MAP => ⟨0x1600100, 4, 48, 0, 1, 32, [⟨3, 0, .rw⟩, ⟨4, 4, .rw⟩]⟩
  | .WLN_ROUTE => ⟨0x1602000, 4, 256, 0, 1, 32, [⟨2, 0, .ro⟩]⟩
  | .WLN_P_CTL => ⟨0x1601000, 256, 4, 0, 1, 32, [⟨0, 0, .rw⟩, ⟨1, 1, .rw⟩, ⟨2, 2, .rw⟩, ⟨15, 8, .rw⟩]⟩
  | .WLN_P_STAT => ⟨0x1601008, 256, 4, 0, 1, 32, [⟨2, 0, .ro⟩, ⟨4, 3, .ro⟩, ⟨6, 5, .ro⟩, ⟨8, 7, .ro⟩, ⟨9, 9, .ro⟩, ⟨31, 16, .ro⟩]⟩
  | .WLN_P_TAPS => ⟨0x1601010, 256, 4, 0, 1, 64, [⟨31, 0, .ro⟩, ⟨63, 32, .ro⟩]⟩
  | .WLN_P_LAT => ⟨0x1601018, 256, 4, 0, 1, 32, [⟨15, 0, .rw⟩]⟩
  | .WLN_P_ASYM => ⟨0x1601020, 256, 4, 0, 1, 32, [⟨15, 0, .rw⟩]⟩
  | .WLN_P_DELAY => ⟨0x1601028, 256, 4, 0, 1, 64, [⟨31, 0, .ro⟩, ⟨63, 32, .ro⟩]⟩
  | .WLN_P_ERR => ⟨0x1601030, 256, 4, 0, 1, 64, [⟨15, 0, .rc⟩, ⟨31, 16, .rc⟩, ⟨47, 32, .rc⟩, ⟨63, 48, .rc⟩]⟩
  | .WLN_P_FEC => ⟨0x1601038, 256, 4, 0, 1, 64, [⟨31, 0, .rc⟩, ⟨63, 32, .rc⟩]⟩
  | .WLN_P_LAUNCH => ⟨0x1601040, 256, 4, 0, 1, 32, [⟨15, 0, .ro⟩, ⟨31, 16, .rc⟩]⟩
  | .DEV_ID => ⟨0x0, 0, 1, 0, 1, 32, [⟨15, 0, .ro⟩, ⟨19, 16, .ro⟩, ⟨27, 20, .ro⟩]⟩
  | .DEV_STATUS => ⟨0x8, 0, 1, 0, 1, 32, [⟨0, 0, .ro⟩, ⟨1, 1, .w1c⟩, ⟨2, 2, .w1c⟩]⟩
  | .DEV_UID => ⟨0x10, 8, 2, 0, 1, 64, [⟨63, 0, .ro⟩]⟩
  | .DEV_IRQ => ⟨0x20, 0, 1, 0, 1, 32, [⟨10, 0, .rw⟩, ⟨11, 11, .rw⟩]⟩
  | .DEV_SCRATCH => ⟨0x28, 0, 1, 0, 1, 64, [⟨63, 0, .rw⟩]⟩
  | .PCI_LINK => ⟨0x1709000, 0, 1, 0, 1, 32, [⟨3, 0, .ro⟩, ⟨7, 4, .ro⟩]⟩
  | .PCI_ERR => ⟨0x1709008, 0, 1, 0, 1, 64, [⟨15, 0, .rc⟩, ⟨31, 16, .rc⟩, ⟨47, 32, .rc⟩]⟩
  | .ETH_CTL => ⟨0x1710000, 0, 1, 0, 1, 32, [⟨0, 0, .rw⟩, ⟨2, 1, .rw⟩]⟩
  | .ETH_MAC => ⟨0x1710008, 0, 1, 0, 1, 64, [⟨47, 0, .ro⟩, ⟨48, 48, .ro⟩]⟩
  | .ETH_TXQ => ⟨0x1710010, 0, 1, 0, 1, 32, [⟨13, 0, .rw⟩, ⟨29, 16, .rw⟩]⟩
  | .ETH_PTP_CTL => ⟨0x1710018, 0, 1, 0, 1, 32, [⟨7, 0, .rw⟩, ⟨9, 8, .rw⟩, ⟨10, 10, .rw⟩]⟩
  | .ETH_PTP_STAT => ⟨0x1710020, 0, 1, 0, 1, 64, [⟨0, 0, .ro⟩, ⟨1, 1, .ro⟩, ⟨2, 2, .w1c⟩, ⟨63, 32, .ro⟩]⟩
  | .ETH_OOB => ⟨0x1710028, 0, 1, 0, 1, 64, [⟨0, 0, .rw⟩, ⟨31, 16, .rw⟩, ⟨47, 32, .rw⟩]⟩
  | .ETH_OOB_PEER => ⟨0x1710030, 0, 1, 0, 1, 32, [⟨31, 0, .rw⟩]⟩
  | .BNC_STATUS => ⟨0x100000, 0, 1, 0, 1, 32, [⟨3, 0, .ro⟩, ⟨11, 4, .ro⟩, ⟨12, 12, .ro⟩, ⟨13, 13, .ro⟩, ⟨14, 14, .ro⟩]⟩
  | .BNC_VERSION => ⟨0x100008, 0, 1, 0, 1, 64, [⟨31, 0, .ro⟩, ⟨63, 32, .ro⟩]⟩
  | .BNC_RESET => ⟨0x100010, 0, 1, 0, 1, 64, [⟨1, 0, .ro⟩, ⟨2, 2, .ro⟩, ⟨31, 16, .ro⟩, ⟨47, 32, .ro⟩]⟩
  | .BNC_BLK_RESET => ⟨0x100018, 0, 1, 0, 1, 32, [⟨5, 0, .wo⟩, ⟨6, 6, .wo⟩]⟩
  | .BNC_BLK_STAT => ⟨0x100020, 0, 1, 0, 1, 32, [⟨0, 0, .ro⟩, ⟨1, 1, .w1c⟩]⟩
  | .BNC_LOG_STAT => ⟨0x100028, 0, 1, 0, 1, 64, [⟨7, 0, .ro⟩, ⟨16, 8, .ro⟩, ⟨47, 32, .ro⟩, ⟨63, 48, .rc⟩]⟩
  | .BNC_LOG_ENTRY => ⟨0x101000, 32, 256, 8, 4, 64, [⟨63, 0, .ro⟩]⟩
  | .PWR_ON => ⟨0x1800000, 0, 1, 0, 1, 64, [⟨35, 0, .ro⟩]⟩
  | .PWR_SWITCHING => ⟨0x1800008, 0, 1, 0, 1, 64, [⟨35, 0, .ro⟩]⟩
  | .PWR_REQ => ⟨0x1800010, 0, 1, 0, 1, 32, [⟨5, 0, .wo⟩, ⟨6, 6, .wo⟩, ⟨7, 7, .wo⟩]⟩
  | .PWR_RESULT => ⟨0x1800018, 0, 1, 0, 1, 32, [⟨15, 0, .ro⟩, ⟨16, 16, .w1c⟩]⟩
  | .THM_TEMP => ⟨0x1801000, 0, 1, 0, 1, 64, [⟨15, 0, .ro⟩, ⟨31, 16, .ro⟩, ⟨47, 32, .ro⟩]⟩
  | .THM_CFG => ⟨0x1801008, 0, 1, 0, 1, 64, [⟨15, 0, .rw⟩, ⟨31, 16, .rw⟩, ⟨36, 32, .rw⟩, ⟨38, 37, .rw⟩]⟩
  | .THM_STAT => ⟨0x1801010, 0, 1, 0, 1, 64, [⟨1, 0, .ro⟩, ⟨2, 2, .w1c⟩, ⟨3, 3, .w1c⟩, ⟨31, 16, .rc⟩, ⟨47, 32, .rc⟩]⟩
  | .THM_LIMIT => ⟨0x1801018, 0, 1, 0, 1, 32, [⟨15, 0, .rw⟩, ⟨26, 16, .rw⟩, ⟨27, 27, .rw⟩]⟩
  | .THM_EVQ => ⟨0x1801020, 0, 1, 0, 1, 32, [⟨13, 0, .rw⟩]⟩

/-- A part of the registers' list. -/
def RegId.part0 : List RegId :=
  [.MER_CTL, .MER_FWORD, .MER_TRACK, .MER_FLIM, .MER_START, .MER_ODO_CYC, .MER_ODO_FRAC, .MER_STATUS,
   .MER_ADJ_PHASE, .MER_ADJ_FREQ, .MER_LOST_COUNT, .MER_WALL_CTL, .MER_WALL_SEC, .MER_WALL_SUB, .MER_SLIP_STAT, .MER_SNAP,
   .MER_MS_STAT, .PIN_CTL, .PIN_DRV_LVL, .PIN_VTT, .PIN_CMP_LVL, .PIN_PMU_CTL, .PIN_PMU_FORCE, .PIN_PMU_CLAMP,
   .PIN_STATUS, .PIN_OV_COUNT, .PIN_TRIM, .ALM_CTL, .ALM_STATUS, .ALM_ECC_CNT, .ALM_UE_LOC, .ALM_DESKEW,
   .ALM_CROWD, .PLT_CTL, .PLT_STATUS, .PLT_LEG_STATUS, .PLT_LEG_INDEX, .PLT_LEG_S, .PLT_LEG_E, .PLT_LEG_FRAC,
   .PLT_MATCH_STAT, .PLT_RSV_COUNT, .PLT_HEXT_COUNT, .PLT_ALU, .PLT_WTO, .PLT_BRK, .PLT_TRAP_STAT, .PLT_TRAP_PEND]

/-- A part of the registers' list. -/
def RegId.part1 : List RegId :=
  [.PLT_TRAP_FRAME, .PLT_CS_STAT, .PLT_CS_ECC, .PLT_CS_UE_LOC, .PLT_CS_ADDR, .PLT_CS_DATA, .PLT_UC_DIGEST, .PLT_VL_DIGEST,
   .PLT_FF_STAT, .PLT_FF_INDEX, .PLT_FF_MASK, .PLT_FF_CYC, .PLT_STRM_LO, .PLT_STRM_HI, .PLT_STRM_FLOOR, .PLT_STRM_STAT,
   .PLT_HOLD_STAT, .PLT_HOLD_LIMIT, .PLT_CAP_STAT, .PIN_FAIL_COUNT, .PIN_SITE, .PLT_SITE_MASK, .PLT_SITE_DROP, .PLT_SUSP,
   .PLT_SUSP_LIST, .SXT_STATUS, .SXT_SC_MASK, .SXT_SC_START, .SXT_SC_FAIL, .SXT_SC_SKIP, .SXT_CH_CTL, .SXT_CH_QUEUE,
   .SXT_WIN_OPEN, .SXT_WIN_CLOSE, .SXT_WIN_FRAC, .SXT_WIN_CMT, .SXT_CH_DESKEW, .SXT_CH_STAT, .SXT_CH_CNT, .SXT_MU_CTL,
   .SXT_MU_N, .SXT_MU_REF, .SXT_MU_QUEUE, .SXT_MU_STAT, .SXT_MU_CNT, .SXT_MU_COUNT, .SXT_MU_SUM, .SXT_MU_SUMSQ_LO]

/-- A part of the registers' list. -/
def RegId.part2 : List RegId :=
  [.SXT_MU_SUMSQ_HI, .SXT_MU_MINMAX, .DDS_CTL, .DDS_STATUS, .DDS_PIN_SEL, .DDS_ENG_CTL, .DDS_ENG_LEN, .DDS_ENG_MID,
   .DDS_ENG_STAT, .DDS_ENG_CNT, .DDS_ENG_EPOCH, .DDS_ENG_EPOCH_FRAC, .ADC_TRIG_CFG, .ADC_TRIG, .ADC_STATUS, .ADC_OVERRUN,
   .ADC_RUN_CYC, .ADC_RUN_FRAC, .ADC_QUEUE, .ADC_SD_LEN, .ADC_SD_OVR, .ADC_SD_CFG, .ADC_SD_SEQ, .ADC_SD_RES,
   .ADC_SD_LIVE, .ADC_SAR_CTL, .ADC_SAR_SEQ, .ADC_SAR_INJ, .ADC_SAR_STAT, .ADC_SAR_OVR, .ADC_SAR_INJ_RES, .ADC_SAR_RES,
   .ACQ_STATUS, .ACQ_CTL, .ACQ_SRC, .ACQ_BASE, .ACQ_PRE, .ACQ_POST, .ACQ_NSEG, .ACQ_LEVEL,
   .ACQ_QUEUE, .ACQ_TRIG, .ACQ_STAT, .ACQ_CNT, .MEM_STATUS, .MEM_REF_ORG, .MEM_REF_STAT, .MEM_TEMP]

/-- A part of the registers' list. -/
def RegId.part3 : List RegId :=
  [.MEM_EVQ, .MEM_DEC_ADDR, .MEM_PASR, .MEM_SEG_LOST, .MEM_SCRUB, .MEM_TRN_PAT, .MEM_MAP_CTL, .MEM_MAP_BASE,
   .MEM_MAP_LEN, .MEM_CH_STAT, .MEM_CH_ECC, .MEM_CH_PAR, .MEM_CH_ERR_ADDR, .MEM_CH_TRN, .MEM_CH_MAINT, .MEM_TRN_ERR,
   .CHT_STATUS, .CHT_WALK_CNT, .CHT_INV_SPACE, .CHT_INV_START, .CHT_INV_LEN, .CHT_INV_GO, .CHT_BAR2_CTL, .CHT_BAR2_BASE,
   .CHT_BAR2_CNT, .CHT_AS_CTL, .CHT_AS_ROOT, .CHT_FLT_VALID, .CHT_PLT_CNT, .CHT_FLT, .DMA_STATUS, .DMA_SLOTS,
   .DMA_CH_CTL, .DMA_CH_STAT, .DMA_CH_PROG, .DMA_CH_CNT, .HLM_STATUS, .HLM_ADM_MIRROR, .HLM_ADM_VEC, .HLM_FIX_ADDR,
   .HLM_FIX_CTL, .HLM_FIX_STAT, .HLM_PROMPT_CNT, .FIX_DB, .HLM_RING_CFG, .HLM_RING_MIR, .HLM_RING_STAT, .HLM_RING_LAST]

/-- A part of the registers' list. -/
def RegId.part4 : List RegId :=
  [.HLM_RING_CPL, .HLM_RING_CNT, .SWY_STATUS, .SWY_TICK, .SWY_TICK_LAST, .SWY_T_STAT, .SWY_T_WAIT, .SWY_T_EXP,
   .SWY_H_OP, .SWY_H_ARG, .SWY_H_RES, .SWY_H_CUR, .SWY_H_SWITCH, .SWY_H_MSG, .DPT_STATUS, .DPT_COMMIT_SEQ,
   .DPT_SPILL, .DPT_DROP, .DPT_MARK, .DPT_Q_CTL, .DPT_Q_OWNER, .DPT_Q_BASE, .DPT_Q_MIRROR, .DPT_Q_THR,
   .DPT_Q_NOTIFY, .DPT_Q_TAIL, .DPT_Q_HEAD, .DPT_Q_STAT, .DPT_Q_CNT, .DPT_Q_MIR_PTR, .WLN_STATUS, .WLN_CONV,
   .WLN_CONV_CTL, .WLN_HALT, .WLN_GO_CTL, .WLN_GO, .WLN_AGG, .WLN_TIME, .WLN_AGG_MAP, .WLN_ROUTE,
   .WLN_P_CTL, .WLN_P_STAT, .WLN_P_TAPS, .WLN_P_LAT, .WLN_P_ASYM, .WLN_P_DELAY, .WLN_P_ERR, .WLN_P_FEC]

/-- A part of the registers' list. -/
def RegId.part5 : List RegId :=
  [.WLN_P_LAUNCH, .DEV_ID, .DEV_STATUS, .DEV_UID, .DEV_IRQ, .DEV_SCRATCH, .PCI_LINK, .PCI_ERR,
   .ETH_CTL, .ETH_MAC, .ETH_TXQ, .ETH_PTP_CTL, .ETH_PTP_STAT, .ETH_OOB, .ETH_OOB_PEER, .BNC_STATUS,
   .BNC_VERSION, .BNC_RESET, .BNC_BLK_RESET, .BNC_BLK_STAT, .BNC_LOG_STAT, .BNC_LOG_ENTRY, .PWR_ON, .PWR_SWITCHING,
   .PWR_REQ, .PWR_RESULT, .THM_TEMP, .THM_CFG, .THM_STAT, .THM_LIMIT, .THM_EVQ]

/-- The registers in the order of the spec's chapters. -/
def RegId.all : List RegId :=
  RegId.part0 ++ RegId.part1 ++ RegId.part2 ++ RegId.part3 ++ RegId.part4 ++ RegId.part5

/-- A register stands between two others in the order of the tables. -/
def RegId.within (id lo hi : RegId) : Bool := decide (lo.ctorIdx ≤ id.ctorIdx ∧ id.ctorIdx ≤ hi.ctorIdx)

/-- A register of one Pilot's window: all of PLT but the control store's, which belong to a cluster. -/
def RegId.ofPilot (id : RegId) : Bool :=
  id.within .PLT_CTL .PLT_TRAP_FRAME || id.within .PLT_FF_STAT .PLT_CAP_STAT || id.within .PLT_SITE_MASK .PLT_SUSP_LIST ||
  id == .MER_SLIP_STAT

/-- A register of one pin: its window, its deskew and crowd count, and its DDS selection. -/
def RegId.ofPin (id : RegId) : Bool :=
  id.within .PIN_CTL .PIN_TRIM || id.within .PIN_FAIL_COUNT .PIN_SITE || id.within .ALM_DESKEW .ALM_CROWD || id == .DDS_PIN_SEL

/-- The rank of a register key: by register, then unit, then word. -/
def RegKey.rank (k : RegKey) : Nat := (k.id.ctorIdx * 2 ^ 24 + k.i) * 2 ^ 8 + k.j

/-- A register's value after cold reset (R10, the Reset columns). -/
def RegKey.reset (k : RegKey) : BitVec 64 :=
  match k.id with
  | .MER_CTL => if k.i = 0 then 1 else if k.i = 7 then 4 else 0
  | .MER_FWORD => if k.i = 0 then 0x001000000000 else 0
  | .MER_STATUS => if k.i = 0 then 2 else 0
  | .PIN_CTL => 0x8
  | .PIN_DRV_LVL => 0x4360287
  | .PIN_VTT => 0x287
  | .PIN_CMP_LVL => 0x3CF30C
  | .PIN_PMU_FORCE => 0x3333
  | .PIN_PMU_CLAMP => 0xFFFF0000
  | .PIN_STATUS => 0x1
  | .PLT_WTO => if k.j = 0 then 0 else 0xFFFFFFFF
  | .PLT_CS_STAT => 0x10
  | .PIN_SITE => BitVec.ofNat 64 k.i
  | .DDS_ENG_MID => 0x287
  | .ADC_SD_CFG => 0x5DC0
  | .MEM_PASR => 0x80808080
  | .MEM_SCRUB => 0x1801
  | .MEM_MAP_CTL => if k.i = 0 ∨ k.i = 15 then 0x81 else 0x80
  | .MEM_MAP_BASE => if k.i = 15 then 0x8C000000 else 0
  | .MEM_MAP_LEN => if k.i = 0 then 0x8C000000 else if k.i = 15 then 0x04000000 else 0
  | .CHT_AS_CTL => if 252 ≤ k.i then 0x400000 else 0
  | .HLM_RING_CFG => if k.i = 0 then 0x661 else 0
  | .SWY_TICK => 0x640
  | .WLN_CONV_CTL => 0xFFFF0
  | .WLN_ROUTE => 0x7
  | .WLN_P_CTL => 0xA02
  | .WLN_P_STAT => 0xFFFF0000
  | .WLN_P_TAPS => 0x7F0000007F0000
  | .DEV_ID => 0x2004824
  | .ETH_CTL => 0x4
  | .ETH_OOB => 0x3E800000000
  | .THM_CFG => 0x2401400080
  | .THM_LIMIT => 0x600
  | _ => 0

/-- A named field: its register and bits. -/
structure Fld where
  id : RegId
  hi : Nat
  lo : Nat
  deriving DecidableEq, Repr

/-- MER_CTL.enable -/
def fMER_CTL_enable : Fld := ⟨.MER_CTL, 0, 0⟩
/-- MER_CTL.kind -/
def fMER_CTL_kind : Fld := ⟨.MER_CTL, 2, 1⟩
/-- MER_FWORD.fword -/
def fMER_FWORD_fword : Fld := ⟨.MER_FWORD, 47, 0⟩
/-- MER_TRACK.source -/
def fMER_TRACK_source : Fld := ⟨.MER_TRACK, 2, 0⟩
/-- MER_TRACK.pin -/
def fMER_TRACK_pin : Fld := ⟨.MER_TRACK, 8, 3⟩
/-- MER_TRACK.polarity -/
def fMER_TRACK_polarity : Fld := ⟨.MER_TRACK, 9, 9⟩
/-- MER_TRACK.mult_m -/
def fMER_TRACK_mult_m : Fld := ⟨.MER_TRACK, 14, 10⟩
/-- MER_TRACK.div_n -/
def fMER_TRACK_div_n : Fld := ⟨.MER_TRACK, 19, 15⟩
/-- MER_TRACK.bw -/
def fMER_TRACK_bw : Fld := ⟨.MER_TRACK, 21, 20⟩
/-- MER_FLIM.fmin_khz -/
def fMER_FLIM_fmin_khz : Fld := ⟨.MER_FLIM, 31, 0⟩
/-- MER_FLIM.fmax_khz -/
def fMER_FLIM_fmax_khz : Fld := ⟨.MER_FLIM, 63, 32⟩
/-- MER_START.cycles -/
def fMER_START_cycles : Fld := ⟨.MER_START, 63, 0⟩
/-- MER_ODO_CYC.cycles -/
def fMER_ODO_CYC_cycles : Fld := ⟨.MER_ODO_CYC, 63, 0⟩
/-- MER_ODO_FRAC.fraction -/
def fMER_ODO_FRAC_fraction : Fld := ⟨.MER_ODO_FRAC, 23, 0⟩
/-- MER_STATUS.state -/
def fMER_STATUS_state : Fld := ⟨.MER_STATUS, 1, 0⟩
/-- MER_STATUS.in_use -/
def fMER_STATUS_in_use : Fld := ⟨.MER_STATUS, 2, 2⟩
/-- MER_STATUS.slewing -/
def fMER_STATUS_slewing : Fld := ⟨.MER_STATUS, 3, 3⟩
/-- MER_STATUS.lost -/
def fMER_STATUS_lost : Fld := ⟨.MER_STATUS, 4, 4⟩
/-- MER_STATUS.range -/
def fMER_STATUS_range : Fld := ⟨.MER_STATUS, 5, 5⟩
/-- MER_STATUS.cfg_err -/
def fMER_STATUS_cfg_err : Fld := ⟨.MER_STATUS, 6, 6⟩
/-- MER_ADJ_PHASE.phase_rem_ps -/
def fMER_ADJ_PHASE_phase_rem_ps : Fld := ⟨.MER_ADJ_PHASE, 31, 0⟩
/-- MER_ADJ_FREQ.freq_ppb -/
def fMER_ADJ_FREQ_freq_ppb : Fld := ⟨.MER_ADJ_FREQ, 31, 0⟩
/-- MER_LOST_COUNT.count -/
def fMER_LOST_COUNT_count : Fld := ⟨.MER_LOST_COUNT, 31, 0⟩
/-- MER_WALL_CTL.discipline -/
def fMER_WALL_CTL_discipline : Fld := ⟨.MER_WALL_CTL, 1, 0⟩
/-- MER_WALL_SEC.seconds -/
def fMER_WALL_SEC_seconds : Fld := ⟨.MER_WALL_SEC, 63, 0⟩
/-- MER_WALL_SUB.ns -/
def fMER_WALL_SUB_ns : Fld := ⟨.MER_WALL_SUB, 31, 0⟩
/-- MER_WALL_SUB.frac -/
def fMER_WALL_SUB_frac : Fld := ⟨.MER_WALL_SUB, 47, 32⟩
/-- MER_SLIP_STAT.outcome -/
def fMER_SLIP_STAT_outcome : Fld := ⟨.MER_SLIP_STAT, 1, 0⟩
/-- MER_SLIP_STAT.early_count -/
def fMER_SLIP_STAT_early_count : Fld := ⟨.MER_SLIP_STAT, 19, 8⟩
/-- MER_SLIP_STAT.extra_count -/
def fMER_SLIP_STAT_extra_count : Fld := ⟨.MER_SLIP_STAT, 31, 20⟩
/-- MER_SNAP.mask -/
def fMER_SNAP_mask : Fld := ⟨.MER_SNAP, 7, 0⟩
/-- MER_MS_STAT.pending -/
def fMER_MS_STAT_pending : Fld := ⟨.MER_MS_STAT, 12, 0⟩
/-- MER_MS_STAT.full -/
def fMER_MS_STAT_full : Fld := ⟨.MER_MS_STAT, 13, 13⟩
/-- MER_MS_STAT.late_count -/
def fMER_MS_STAT_late_count : Fld := ⟨.MER_MS_STAT, 31, 16⟩
/-- PIN_CTL.idle_state -/
def fPIN_CTL_idle_state : Fld := ⟨.PIN_CTL, 1, 0⟩
/-- PIN_CTL.term_mode -/
def fPIN_CTL_term_mode : Fld := ⟨.PIN_CTL, 2, 2⟩
/-- PIN_CTL.ov_action -/
def fPIN_CTL_ov_action : Fld := ⟨.PIN_CTL, 3, 3⟩
/-- PIN_CTL.trim_bypass -/
def fPIN_CTL_trim_bypass : Fld := ⟨.PIN_CTL, 4, 4⟩
/-- PIN_CTL.abus_sel -/
def fPIN_CTL_abus_sel : Fld := ⟨.PIN_CTL, 7, 5⟩
/-- PIN_DRV_LVL.vil -/
def fPIN_DRV_LVL_vil : Fld := ⟨.PIN_DRV_LVL, 11, 0⟩
/-- PIN_DRV_LVL.vih -/
def fPIN_DRV_LVL_vih : Fld := ⟨.PIN_DRV_LVL, 27, 16⟩
/-- PIN_VTT.vtt -/
def fPIN_VTT_vtt : Fld := ⟨.PIN_VTT, 11, 0⟩
/-- PIN_CMP_LVL.vol -/
def fPIN_CMP_LVL_vol : Fld := ⟨.PIN_CMP_LVL, 11, 0⟩
/-- PIN_CMP_LVL.voh -/
def fPIN_CMP_LVL_voh : Fld := ⟨.PIN_CMP_LVL, 23, 12⟩
/-- PIN_CMP_LVL.hyst -/
def fPIN_CMP_LVL_hyst : Fld := ⟨.PIN_CMP_LVL, 28, 24⟩
/-- PIN_PMU_CTL.mode -/
def fPIN_PMU_CTL_mode : Fld := ⟨.PIN_PMU_CTL, 1, 0⟩
/-- PIN_PMU_CTL.range -/
def fPIN_PMU_CTL_range : Fld := ⟨.PIN_PMU_CTL, 4, 2⟩
/-- PIN_PMU_FORCE.value -/
def fPIN_PMU_FORCE_value : Fld := ⟨.PIN_PMU_FORCE, 15, 0⟩
/-- PIN_PMU_CLAMP.clamp_lo -/
def fPIN_PMU_CLAMP_clamp_lo : Fld := ⟨.PIN_PMU_CLAMP, 15, 0⟩
/-- PIN_PMU_CLAMP.clamp_hi -/
def fPIN_PMU_CLAMP_clamp_hi : Fld := ⟨.PIN_PMU_CLAMP, 31, 16⟩
/-- PIN_STATUS.state -/
def fPIN_STATUS_state : Fld := ⟨.PIN_STATUS, 2, 0⟩
/-- PIN_STATUS.settling -/
def fPIN_STATUS_settling : Fld := ⟨.PIN_STATUS, 3, 3⟩
/-- PIN_STATUS.lvl_err -/
def fPIN_STATUS_lvl_err : Fld := ⟨.PIN_STATUS, 4, 4⟩
/-- PIN_STATUS.ov -/
def fPIN_STATUS_ov : Fld := ⟨.PIN_STATUS, 5, 5⟩
/-- PIN_STATUS.fault_park -/
def fPIN_STATUS_fault_park : Fld := ⟨.PIN_STATUS, 6, 6⟩
/-- PIN_STATUS.clamp -/
def fPIN_STATUS_clamp : Fld := ⟨.PIN_STATUS, 7, 7⟩
/-- PIN_STATUS.cmp -/
def fPIN_STATUS_cmp : Fld := ⟨.PIN_STATUS, 9, 8⟩
/-- PIN_STATUS.cmp_err -/
def fPIN_STATUS_cmp_err : Fld := ⟨.PIN_STATUS, 10, 10⟩
/-- PIN_OV_COUNT.count -/
def fPIN_OV_COUNT_count : Fld := ⟨.PIN_OV_COUNT, 15, 0⟩
/-- PIN_TRIM.drv_ofs -/
def fPIN_TRIM_drv_ofs : Fld := ⟨.PIN_TRIM, 7, 0⟩
/-- PIN_TRIM.drv_gain -/
def fPIN_TRIM_drv_gain : Fld := ⟨.PIN_TRIM, 15, 8⟩
/-- PIN_TRIM.vtt_ofs -/
def fPIN_TRIM_vtt_ofs : Fld := ⟨.PIN_TRIM, 23, 16⟩
/-- PIN_TRIM.cmp_ofs -/
def fPIN_TRIM_cmp_ofs : Fld := ⟨.PIN_TRIM, 31, 24⟩
/-- PIN_TRIM.pmu_v_ofs -/
def fPIN_TRIM_pmu_v_ofs : Fld := ⟨.PIN_TRIM, 39, 32⟩
/-- PIN_TRIM.pmu_i_gain -/
def fPIN_TRIM_pmu_i_gain : Fld := ⟨.PIN_TRIM, 47, 40⟩
/-- PIN_TRIM.trim_ver -/
def fPIN_TRIM_trim_ver : Fld := ⟨.PIN_TRIM, 55, 48⟩
/-- PIN_TRIM.valid -/
def fPIN_TRIM_valid : Fld := ⟨.PIN_TRIM, 56, 56⟩
/-- ALM_CTL.page -/
def fALM_CTL_page : Fld := ⟨.ALM_CTL, 1, 0⟩
/-- ALM_STATUS.stage_valid -/
def fALM_STATUS_stage_valid : Fld := ⟨.ALM_STATUS, 0, 0⟩
/-- ALM_STATUS.stage_lost -/
def fALM_STATUS_stage_lost : Fld := ⟨.ALM_STATUS, 1, 1⟩
/-- ALM_STATUS.ue -/
def fALM_STATUS_ue : Fld := ⟨.ALM_STATUS, 2, 2⟩
/-- ALM_ECC_CNT.ce_count -/
def fALM_ECC_CNT_ce_count : Fld := ⟨.ALM_ECC_CNT, 15, 0⟩
/-- ALM_ECC_CNT.ue_count -/
def fALM_ECC_CNT_ue_count : Fld := ⟨.ALM_ECC_CNT, 31, 16⟩
/-- ALM_UE_LOC.set -/
def fALM_UE_LOC_set : Fld := ⟨.ALM_UE_LOC, 10, 0⟩
/-- ALM_UE_LOC.pin -/
def fALM_UE_LOC_pin : Fld := ⟨.ALM_UE_LOC, 16, 11⟩
/-- ALM_DESKEW.drv_deskew -/
def fALM_DESKEW_drv_deskew : Fld := ⟨.ALM_DESKEW, 23, 0⟩
/-- ALM_DESKEW.cmp_deskew -/
def fALM_DESKEW_cmp_deskew : Fld := ⟨.ALM_DESKEW, 55, 32⟩
/-- ALM_CROWD.count -/
def fALM_CROWD_count : Fld := ⟨.ALM_CROWD, 15, 0⟩
/-- PLT_CTL.brk_en -/
def fPLT_CTL_brk_en : Fld := ⟨.PLT_CTL, 0, 0⟩
/-- PLT_CTL.step -/
def fPLT_CTL_step : Fld := ⟨.PLT_CTL, 1, 1⟩
/-- PLT_STATUS.state -/
def fPLT_STATUS_state : Fld := ⟨.PLT_STATUS, 2, 0⟩
/-- PLT_STATUS.job -/
def fPLT_STATUS_job : Fld := ⟨.PLT_STATUS, 19, 4⟩
/-- PLT_STATUS.upc -/
def fPLT_STATUS_upc : Fld := ⟨.PLT_STATUS, 33, 20⟩
/-- PLT_STATUS.waiting -/
def fPLT_STATUS_waiting : Fld := ⟨.PLT_STATUS, 34, 34⟩
/-- PLT_LEG_STATUS.end -/
def fPLT_LEG_STATUS_end : Fld := ⟨.PLT_LEG_STATUS, 3, 0⟩
/-- PLT_LEG_STATUS.trap_cause -/
def fPLT_LEG_STATUS_trap_cause : Fld := ⟨.PLT_LEG_STATUS, 11, 4⟩
/-- PLT_LEG_STATUS.started -/
def fPLT_LEG_STATUS_started : Fld := ⟨.PLT_LEG_STATUS, 12, 12⟩
/-- PLT_LEG_STATUS.slip_expired -/
def fPLT_LEG_STATUS_slip_expired : Fld := ⟨.PLT_LEG_STATUS, 13, 13⟩
/-- PLT_LEG_STATUS.untrimmed -/
def fPLT_LEG_STATUS_untrimmed : Fld := ⟨.PLT_LEG_STATUS, 14, 14⟩
/-- PLT_LEG_STATUS.edge_crowded -/
def fPLT_LEG_STATUS_edge_crowded : Fld := ⟨.PLT_LEG_STATUS, 15, 15⟩
/-- PLT_LEG_STATUS.odo_late -/
def fPLT_LEG_STATUS_odo_late : Fld := ⟨.PLT_LEG_STATUS, 16, 16⟩
/-- PLT_LEG_STATUS.horizon_extended -/
def fPLT_LEG_STATUS_horizon_extended : Fld := ⟨.PLT_LEG_STATUS, 17, 17⟩
/-- PLT_LEG_STATUS.reserved_code -/
def fPLT_LEG_STATUS_reserved_code : Fld := ⟨.PLT_LEG_STATUS, 18, 18⟩
/-- PLT_LEG_STATUS.deferred -/
def fPLT_LEG_STATUS_deferred : Fld := ⟨.PLT_LEG_STATUS, 19, 19⟩
/-- PLT_LEG_STATUS.leg -/
def fPLT_LEG_STATUS_leg : Fld := ⟨.PLT_LEG_STATUS, 31, 20⟩
/-- PLT_LEG_INDEX.index -/
def fPLT_LEG_INDEX_index : Fld := ⟨.PLT_LEG_INDEX, 63, 0⟩
/-- PLT_LEG_S.cycles -/
def fPLT_LEG_S_cycles : Fld := ⟨.PLT_LEG_S, 63, 0⟩
/-- PLT_LEG_E.cycles -/
def fPLT_LEG_E_cycles : Fld := ⟨.PLT_LEG_E, 63, 0⟩
/-- PLT_LEG_FRAC.fraction -/
def fPLT_LEG_FRAC_fraction : Fld := ⟨.PLT_LEG_FRAC, 23, 0⟩
/-- PLT_MATCH_STAT.outcome -/
def fPLT_MATCH_STAT_outcome : Fld := ⟨.PLT_MATCH_STAT, 1, 0⟩
/-- PLT_MATCH_STAT.m -/
def fPLT_MATCH_STAT_m : Fld := ⟨.PLT_MATCH_STAT, 22, 2⟩
/-- PLT_MATCH_STAT.issued -/
def fPLT_MATCH_STAT_issued : Fld := ⟨.PLT_MATCH_STAT, 43, 23⟩
/-- PLT_RSV_COUNT.count -/
def fPLT_RSV_COUNT_count : Fld := ⟨.PLT_RSV_COUNT, 31, 0⟩
/-- PLT_HEXT_COUNT.count -/
def fPLT_HEXT_COUNT_count : Fld := ⟨.PLT_HEXT_COUNT, 31, 0⟩
/-- PLT_ALU.value -/
def fPLT_ALU_value : Fld := ⟨.PLT_ALU, 31, 0⟩
/-- PLT_WTO.limit -/
def fPLT_WTO_limit : Fld := ⟨.PLT_WTO, 31, 0⟩
/-- PLT_BRK.upc -/
def fPLT_BRK_upc : Fld := ⟨.PLT_BRK, 13, 0⟩
/-- PLT_TRAP_STAT.last_cause -/
def fPLT_TRAP_STAT_last_cause : Fld := ⟨.PLT_TRAP_STAT, 7, 0⟩
/-- PLT_TRAP_STAT.frame0_valid -/
def fPLT_TRAP_STAT_frame0_valid : Fld := ⟨.PLT_TRAP_STAT, 8, 8⟩
/-- PLT_TRAP_STAT.frame1_valid -/
def fPLT_TRAP_STAT_frame1_valid : Fld := ⟨.PLT_TRAP_STAT, 9, 9⟩
/-- PLT_TRAP_STAT.trap_count -/
def fPLT_TRAP_STAT_trap_count : Fld := ⟨.PLT_TRAP_STAT, 31, 16⟩
/-- PLT_TRAP_PEND.pending -/
def fPLT_TRAP_PEND_pending : Fld := ⟨.PLT_TRAP_PEND, 7, 0⟩
/-- PLT_TRAP_PEND.discarded -/
def fPLT_TRAP_PEND_discarded : Fld := ⟨.PLT_TRAP_PEND, 15, 8⟩
/-- PLT_TRAP_FRAME.word -/
def fPLT_TRAP_FRAME_word : Fld := ⟨.PLT_TRAP_FRAME, 63, 0⟩
/-- PLT_CS_STAT.user_loaded -/
def fPLT_CS_STAT_user_loaded : Fld := ⟨.PLT_CS_STAT, 0, 0⟩
/-- PLT_CS_STAT.reloading -/
def fPLT_CS_STAT_reloading : Fld := ⟨.PLT_CS_STAT, 1, 1⟩
/-- PLT_CS_STAT.user_lost -/
def fPLT_CS_STAT_user_lost : Fld := ⟨.PLT_CS_STAT, 2, 2⟩
/-- PLT_CS_STAT.hard_fault -/
def fPLT_CS_STAT_hard_fault : Fld := ⟨.PLT_CS_STAT, 3, 3⟩
/-- PLT_CS_STAT.scrub_en -/
def fPLT_CS_STAT_scrub_en : Fld := ⟨.PLT_CS_STAT, 4, 4⟩
/-- PLT_CS_ECC.ce_count -/
def fPLT_CS_ECC_ce_count : Fld := ⟨.PLT_CS_ECC, 15, 0⟩
/-- PLT_CS_ECC.ue_count -/
def fPLT_CS_ECC_ue_count : Fld := ⟨.PLT_CS_ECC, 31, 16⟩
/-- PLT_CS_UE_LOC.addr -/
def fPLT_CS_UE_LOC_addr : Fld := ⟨.PLT_CS_UE_LOC, 13, 0⟩
/-- PLT_CS_UE_LOC.in_dispatch -/
def fPLT_CS_UE_LOC_in_dispatch : Fld := ⟨.PLT_CS_UE_LOC, 14, 14⟩
/-- PLT_CS_ADDR.addr -/
def fPLT_CS_ADDR_addr : Fld := ⟨.PLT_CS_ADDR, 13, 0⟩
/-- PLT_CS_ADDR.dispatch -/
def fPLT_CS_ADDR_dispatch : Fld := ⟨.PLT_CS_ADDR, 14, 14⟩
/-- PLT_CS_DATA.data -/
def fPLT_CS_DATA_data : Fld := ⟨.PLT_CS_DATA, 63, 0⟩
/-- PLT_UC_DIGEST.digest -/
def fPLT_UC_DIGEST_digest : Fld := ⟨.PLT_UC_DIGEST, 63, 0⟩
/-- PLT_VL_DIGEST.digest -/
def fPLT_VL_DIGEST_digest : Fld := ⟨.PLT_VL_DIGEST, 63, 0⟩
/-- PLT_FF_STAT.armed -/
def fPLT_FF_STAT_armed : Fld := ⟨.PLT_FF_STAT, 0, 0⟩
/-- PLT_FF_STAT.found -/
def fPLT_FF_STAT_found : Fld := ⟨.PLT_FF_STAT, 1, 1⟩
/-- PLT_FF_STAT.leg -/
def fPLT_FF_STAT_leg : Fld := ⟨.PLT_FF_STAT, 13, 2⟩
/-- PLT_FF_INDEX.index -/
def fPLT_FF_INDEX_index : Fld := ⟨.PLT_FF_INDEX, 63, 0⟩
/-- PLT_FF_MASK.mask -/
def fPLT_FF_MASK_mask : Fld := ⟨.PLT_FF_MASK, 47, 0⟩
/-- PLT_FF_CYC.cycles -/
def fPLT_FF_CYC_cycles : Fld := ⟨.PLT_FF_CYC, 63, 0⟩
/-- PLT_STRM_LO.lo -/
def fPLT_STRM_LO_lo : Fld := ⟨.PLT_STRM_LO, 63, 0⟩
/-- PLT_STRM_HI.hi -/
def fPLT_STRM_HI_hi : Fld := ⟨.PLT_STRM_HI, 63, 0⟩
/-- PLT_STRM_FLOOR.floor -/
def fPLT_STRM_FLOOR_floor : Fld := ⟨.PLT_STRM_FLOOR, 63, 0⟩
/-- PLT_STRM_STAT.pinned -/
def fPLT_STRM_STAT_pinned : Fld := ⟨.PLT_STRM_STAT, 26, 0⟩
/-- PLT_STRM_STAT.fill_rejected -/
def fPLT_STRM_STAT_fill_rejected : Fld := ⟨.PLT_STRM_STAT, 47, 32⟩
/-- PLT_HOLD_STAT.holds -/
def fPLT_HOLD_STAT_holds : Fld := ⟨.PLT_HOLD_STAT, 15, 0⟩
/-- PLT_HOLD_STAT.hold_vectors -/
def fPLT_HOLD_STAT_hold_vectors : Fld := ⟨.PLT_HOLD_STAT, 63, 16⟩
/-- PLT_HOLD_LIMIT.limit -/
def fPLT_HOLD_LIMIT_limit : Fld := ⟨.PLT_HOLD_LIMIT, 47, 0⟩
/-- PLT_CAP_STAT.region_full -/
def fPLT_CAP_STAT_region_full : Fld := ⟨.PLT_CAP_STAT, 0, 0⟩
/-- PLT_CAP_STAT.wrapped -/
def fPLT_CAP_STAT_wrapped : Fld := ⟨.PLT_CAP_STAT, 1, 1⟩
/-- PLT_CAP_STAT.fifo_lost -/
def fPLT_CAP_STAT_fifo_lost : Fld := ⟨.PLT_CAP_STAT, 2, 2⟩
/-- PLT_CAP_STAT.ct_dropped -/
def fPLT_CAP_STAT_ct_dropped : Fld := ⟨.PLT_CAP_STAT, 3, 3⟩
/-- PLT_CAP_STAT.ct_drop_count -/
def fPLT_CAP_STAT_ct_drop_count : Fld := ⟨.PLT_CAP_STAT, 31, 16⟩
/-- PIN_FAIL_COUNT.count -/
def fPIN_FAIL_COUNT_count : Fld := ⟨.PIN_FAIL_COUNT, 47, 0⟩
/-- PIN_SITE.site -/
def fPIN_SITE_site : Fld := ⟨.PIN_SITE, 5, 0⟩
/-- PIN_SITE.held -/
def fPIN_SITE_held : Fld := ⟨.PIN_SITE, 8, 8⟩
/-- PIN_SITE.job -/
def fPIN_SITE_job : Fld := ⟨.PIN_SITE, 23, 16⟩
/-- PLT_SITE_MASK.masked -/
def fPLT_SITE_MASK_masked : Fld := ⟨.PLT_SITE_MASK, 47, 0⟩
/-- PLT_SITE_DROP.dropped -/
def fPLT_SITE_DROP_dropped : Fld := ⟨.PLT_SITE_DROP, 47, 0⟩
/-- PLT_SUSP.count -/
def fPLT_SUSP_count : Fld := ⟨.PLT_SUSP, 3, 0⟩
/-- PLT_SUSP.pending -/
def fPLT_SUSP_pending : Fld := ⟨.PLT_SUSP, 4, 4⟩
/-- PLT_SUSP.saving -/
def fPLT_SUSP_saving : Fld := ⟨.PLT_SUSP, 5, 5⟩
/-- PLT_SUSP.restoring -/
def fPLT_SUSP_restoring : Fld := ⟨.PLT_SUSP, 6, 6⟩
/-- PLT_SUSP.preempt_count -/
def fPLT_SUSP_preempt_count : Fld := ⟨.PLT_SUSP, 31, 16⟩
/-- PLT_SUSP_LIST.jobs -/
def fPLT_SUSP_LIST_jobs : Fld := ⟨.PLT_SUSP_LIST, 63, 0⟩
/-- SXT_STATUS.half0_on -/
def fSXT_STATUS_half0_on : Fld := ⟨.SXT_STATUS, 0, 0⟩
/-- SXT_STATUS.half1_on -/
def fSXT_STATUS_half1_on : Fld := ⟨.SXT_STATUS, 1, 1⟩
/-- SXT_STATUS.sc_busy -/
def fSXT_STATUS_sc_busy : Fld := ⟨.SXT_STATUS, 2, 2⟩
/-- SXT_STATUS.cal_valid -/
def fSXT_STATUS_cal_valid : Fld := ⟨.SXT_STATUS, 3, 3⟩
/-- SXT_SC_MASK.mask -/
def fSXT_SC_MASK_mask : Fld := ⟨.SXT_SC_MASK, 51, 0⟩
/-- SXT_SC_START.go -/
def fSXT_SC_START_go : Fld := ⟨.SXT_SC_START, 0, 0⟩
/-- SXT_SC_FAIL.fail -/
def fSXT_SC_FAIL_fail : Fld := ⟨.SXT_SC_FAIL, 51, 0⟩
/-- SXT_SC_SKIP.skip -/
def fSXT_SC_SKIP_skip : Fld := ⟨.SXT_SC_SKIP, 51, 0⟩
/-- SXT_CH_CTL.arm -/
def fSXT_CH_CTL_arm : Fld := ⟨.SXT_CH_CTL, 0, 0⟩
/-- SXT_CH_CTL.edge -/
def fSXT_CH_CTL_edge : Fld := ⟨.SXT_CH_CTL, 2, 1⟩
/-- SXT_CH_CTL.cmp_sel -/
def fSXT_CH_CTL_cmp_sel : Fld := ⟨.SXT_CH_CTL, 3, 3⟩
/-- SXT_CH_CTL.meridian -/
def fSXT_CH_CTL_meridian : Fld := ⟨.SXT_CH_CTL, 6, 4⟩
/-- SXT_CH_CTL.stream_en -/
def fSXT_CH_CTL_stream_en : Fld := ⟨.SXT_CH_CTL, 7, 7⟩
/-- SXT_CH_CTL.win_en -/
def fSXT_CH_CTL_win_en : Fld := ⟨.SXT_CH_CTL, 8, 8⟩
/-- SXT_CH_CTL.holdoff -/
def fSXT_CH_CTL_holdoff : Fld := ⟨.SXT_CH_CTL, 17, 9⟩
/-- SXT_CH_CTL.prescale -/
def fSXT_CH_CTL_prescale : Fld := ⟨.SXT_CH_CTL, 27, 18⟩
/-- SXT_CH_QUEUE.queue -/
def fSXT_CH_QUEUE_queue : Fld := ⟨.SXT_CH_QUEUE, 13, 0⟩
/-- SXT_WIN_OPEN.cycle -/
def fSXT_WIN_OPEN_cycle : Fld := ⟨.SXT_WIN_OPEN, 63, 0⟩
/-- SXT_WIN_CLOSE.cycle -/
def fSXT_WIN_CLOSE_cycle : Fld := ⟨.SXT_WIN_CLOSE, 63, 0⟩
/-- SXT_WIN_FRAC.open_frac -/
def fSXT_WIN_FRAC_open_frac : Fld := ⟨.SXT_WIN_FRAC, 23, 0⟩
/-- SXT_WIN_FRAC.close_frac -/
def fSXT_WIN_FRAC_close_frac : Fld := ⟨.SXT_WIN_FRAC, 55, 32⟩
/-- SXT_WIN_CMT.commit -/
def fSXT_WIN_CMT_commit : Fld := ⟨.SXT_WIN_CMT, 0, 0⟩
/-- SXT_CH_DESKEW.skew -/
def fSXT_CH_DESKEW_skew : Fld := ⟨.SXT_CH_DESKEW, 23, 0⟩
/-- SXT_CH_STAT.seq -/
def fSXT_CH_STAT_seq : Fld := ⟨.SXT_CH_STAT, 11, 0⟩
/-- SXT_CH_STAT.in_window -/
def fSXT_CH_STAT_in_window : Fld := ⟨.SXT_CH_STAT, 12, 12⟩
/-- SXT_CH_STAT.armed -/
def fSXT_CH_STAT_armed : Fld := ⟨.SXT_CH_STAT, 13, 13⟩
/-- SXT_CH_CNT.missed -/
def fSXT_CH_CNT_missed : Fld := ⟨.SXT_CH_CNT, 15, 0⟩
/-- SXT_CH_CNT.outside -/
def fSXT_CH_CNT_outside : Fld := ⟨.SXT_CH_CNT, 31, 16⟩
/-- SXT_CH_CNT.post_lost -/
def fSXT_CH_CNT_post_lost : Fld := ⟨.SXT_CH_CNT, 47, 32⟩
/-- SXT_CH_CNT.no_time -/
def fSXT_CH_CNT_no_time : Fld := ⟨.SXT_CH_CNT, 63, 48⟩
/-- SXT_MU_CTL.mode -/
def fSXT_MU_CTL_mode : Fld := ⟨.SXT_MU_CTL, 1, 0⟩
/-- SXT_MU_CTL.start_ch -/
def fSXT_MU_CTL_start_ch : Fld := ⟨.SXT_MU_CTL, 7, 2⟩
/-- SXT_MU_CTL.start_pol -/
def fSXT_MU_CTL_start_pol : Fld := ⟨.SXT_MU_CTL, 8, 8⟩
/-- SXT_MU_CTL.stop_ch -/
def fSXT_MU_CTL_stop_ch : Fld := ⟨.SXT_MU_CTL, 14, 9⟩
/-- SXT_MU_CTL.stop_pol -/
def fSXT_MU_CTL_stop_pol : Fld := ⟨.SXT_MU_CTL, 15, 15⟩
/-- SXT_MU_CTL.unit -/
def fSXT_MU_CTL_unit : Fld := ⟨.SXT_MU_CTL, 16, 16⟩
/-- SXT_MU_CTL.run -/
def fSXT_MU_CTL_run : Fld := ⟨.SXT_MU_CTL, 17, 17⟩
/-- SXT_MU_CTL.continuous -/
def fSXT_MU_CTL_continuous : Fld := ⟨.SXT_MU_CTL, 18, 18⟩
/-- SXT_MU_N.n_m1 -/
def fSXT_MU_N_n_m1 : Fld := ⟨.SXT_MU_N, 31, 0⟩
/-- SXT_MU_REF.ref -/
def fSXT_MU_REF_ref : Fld := ⟨.SXT_MU_REF, 31, 0⟩
/-- SXT_MU_QUEUE.queue -/
def fSXT_MU_QUEUE_queue : Fld := ⟨.SXT_MU_QUEUE, 13, 0⟩
/-- SXT_MU_STAT.running -/
def fSXT_MU_STAT_running : Fld := ⟨.SXT_MU_STAT, 0, 0⟩
/-- SXT_MU_STAT.cfg_err -/
def fSXT_MU_STAT_cfg_err : Fld := ⟨.SXT_MU_STAT, 1, 1⟩
/-- SXT_MU_STAT.broken -/
def fSXT_MU_STAT_broken : Fld := ⟨.SXT_MU_STAT, 2, 2⟩
/-- SXT_MU_STAT.progress -/
def fSXT_MU_STAT_progress : Fld := ⟨.SXT_MU_STAT, 63, 32⟩
/-- SXT_MU_CNT.range_count -/
def fSXT_MU_CNT_range_count : Fld := ⟨.SXT_MU_CNT, 15, 0⟩
/-- SXT_MU_CNT.extra_starts -/
def fSXT_MU_CNT_extra_starts : Fld := ⟨.SXT_MU_CNT, 31, 16⟩
/-- SXT_MU_COUNT.count -/
def fSXT_MU_COUNT_count : Fld := ⟨.SXT_MU_COUNT, 32, 0⟩
/-- SXT_MU_SUM.sum -/
def fSXT_MU_SUM_sum : Fld := ⟨.SXT_MU_SUM, 63, 0⟩
/-- SXT_MU_SUMSQ_LO.sumsq_lo -/
def fSXT_MU_SUMSQ_LO_sumsq_lo : Fld := ⟨.SXT_MU_SUMSQ_LO, 63, 0⟩
/-- SXT_MU_SUMSQ_HI.sumsq_hi -/
def fSXT_MU_SUMSQ_HI_sumsq_hi : Fld := ⟨.SXT_MU_SUMSQ_HI, 31, 0⟩
/-- SXT_MU_MINMAX.min -/
def fSXT_MU_MINMAX_min : Fld := ⟨.SXT_MU_MINMAX, 31, 0⟩
/-- SXT_MU_MINMAX.max -/
def fSXT_MU_MINMAX_max : Fld := ⟨.SXT_MU_MINMAX, 63, 32⟩
/-- DDS_CTL.aper_eng -/
def fDDS_CTL_aper_eng : Fld := ⟨.DDS_CTL, 2, 0⟩
/-- DDS_STATUS.bank_on -/
def fDDS_STATUS_bank_on : Fld := ⟨.DDS_STATUS, 0, 0⟩
/-- DDS_STATUS.running -/
def fDDS_STATUS_running : Fld := ⟨.DDS_STATUS, 15, 8⟩
/-- DDS_STATUS.armed -/
def fDDS_STATUS_armed : Fld := ⟨.DDS_STATUS, 23, 16⟩
/-- DDS_PIN_SEL.engine -/
def fDDS_PIN_SEL_engine : Fld := ⟨.DDS_PIN_SEL, 2, 0⟩
/-- DDS_ENG_CTL.meridian -/
def fDDS_ENG_CTL_meridian : Fld := ⟨.DDS_ENG_CTL, 2, 0⟩
/-- DDS_ENG_CTL.first -/
def fDDS_ENG_CTL_first : Fld := ⟨.DDS_ENG_CTL, 14, 3⟩
/-- DDS_ENG_CTL.end_mode -/
def fDDS_ENG_CTL_end_mode : Fld := ⟨.DDS_ENG_CTL, 15, 15⟩
/-- DDS_ENG_CTL.loop_start -/
def fDDS_ENG_CTL_loop_start : Fld := ⟨.DDS_ENG_CTL, 27, 16⟩
/-- DDS_ENG_LEN.count -/
def fDDS_ENG_LEN_count : Fld := ⟨.DDS_ENG_LEN, 12, 0⟩
/-- DDS_ENG_MID.mid -/
def fDDS_ENG_MID_mid : Fld := ⟨.DDS_ENG_MID, 11, 0⟩
/-- DDS_ENG_STAT.state -/
def fDDS_ENG_STAT_state : Fld := ⟨.DDS_ENG_STAT, 1, 0⟩
/-- DDS_ENG_STAT.entry -/
def fDDS_ENG_STAT_entry : Fld := ⟨.DDS_ENG_STAT, 13, 2⟩
/-- DDS_ENG_STAT.write_drop -/
def fDDS_ENG_STAT_write_drop : Fld := ⟨.DDS_ENG_STAT, 14, 14⟩
/-- DDS_ENG_STAT.mer_off -/
def fDDS_ENG_STAT_mer_off : Fld := ⟨.DDS_ENG_STAT, 15, 15⟩
/-- DDS_ENG_CNT.bad_hop -/
def fDDS_ENG_CNT_bad_hop : Fld := ⟨.DDS_ENG_CNT, 15, 0⟩
/-- DDS_ENG_CNT.dc_idle -/
def fDDS_ENG_CNT_dc_idle : Fld := ⟨.DDS_ENG_CNT, 31, 16⟩
/-- DDS_ENG_EPOCH.cycles -/
def fDDS_ENG_EPOCH_cycles : Fld := ⟨.DDS_ENG_EPOCH, 63, 0⟩
/-- DDS_ENG_EPOCH_FRAC.fraction -/
def fDDS_ENG_EPOCH_FRAC_fraction : Fld := ⟨.DDS_ENG_EPOCH_FRAC, 23, 0⟩
/-- ADC_TRIG_CFG.src -/
def fADC_TRIG_CFG_src : Fld := ⟨.ADC_TRIG_CFG, 1, 0⟩
/-- ADC_TRIG_CFG.msync_pol -/
def fADC_TRIG_CFG_msync_pol : Fld := ⟨.ADC_TRIG_CFG, 2, 2⟩
/-- ADC_TRIG_CFG.sd_en -/
def fADC_TRIG_CFG_sd_en : Fld := ⟨.ADC_TRIG_CFG, 3, 3⟩
/-- ADC_TRIG_CFG.sar_en -/
def fADC_TRIG_CFG_sar_en : Fld := ⟨.ADC_TRIG_CFG, 7, 4⟩
/-- ADC_TRIG_CFG.single_pending -/
def fADC_TRIG_CFG_single_pending : Fld := ⟨.ADC_TRIG_CFG, 8, 8⟩
/-- ADC_TRIG.go -/
def fADC_TRIG_go : Fld := ⟨.ADC_TRIG, 0, 0⟩
/-- ADC_STATUS.sar_on -/
def fADC_STATUS_sar_on : Fld := ⟨.ADC_STATUS, 0, 0⟩
/-- ADC_STATUS.sd_busy -/
def fADC_STATUS_sd_busy : Fld := ⟨.ADC_STATUS, 1, 1⟩
/-- ADC_STATUS.sar_busy -/
def fADC_STATUS_sar_busy : Fld := ⟨.ADC_STATUS, 5, 2⟩
/-- ADC_STATUS.pending -/
def fADC_STATUS_pending : Fld := ⟨.ADC_STATUS, 6, 6⟩
/-- ADC_STATUS.run -/
def fADC_STATUS_run : Fld := ⟨.ADC_STATUS, 31, 20⟩
/-- ADC_OVERRUN.overrun_count -/
def fADC_OVERRUN_overrun_count : Fld := ⟨.ADC_OVERRUN, 15, 0⟩
/-- ADC_RUN_CYC.cycles -/
def fADC_RUN_CYC_cycles : Fld := ⟨.ADC_RUN_CYC, 63, 0⟩
/-- ADC_RUN_FRAC.fraction -/
def fADC_RUN_FRAC_fraction : Fld := ⟨.ADC_RUN_FRAC, 23, 0⟩
/-- ADC_QUEUE.queue -/
def fADC_QUEUE_queue : Fld := ⟨.ADC_QUEUE, 13, 0⟩
/-- ADC_QUEUE.post_en -/
def fADC_QUEUE_post_en : Fld := ⟨.ADC_QUEUE, 14, 14⟩
/-- ADC_SD_LEN.len -/
def fADC_SD_LEN_len : Fld := ⟨.ADC_SD_LEN, 5, 0⟩
/-- ADC_SD_OVR.ovr -/
def fADC_SD_OVR_ovr : Fld := ⟨.ADC_SD_OVR, 31, 0⟩
/-- ADC_SD_CFG.osr -/
def fADC_SD_CFG_osr : Fld := ⟨.ADC_SD_CFG, 17, 0⟩
/-- ADC_SD_SEQ.pin -/
def fADC_SD_SEQ_pin : Fld := ⟨.ADC_SD_SEQ, 5, 0⟩
/-- ADC_SD_RES.result -/
def fADC_SD_RES_result : Fld := ⟨.ADC_SD_RES, 31, 0⟩
/-- ADC_SD_LIVE.code -/
def fADC_SD_LIVE_code : Fld := ⟨.ADC_SD_LIVE, 23, 0⟩
/-- ADC_SD_LIVE.valid -/
def fADC_SD_LIVE_valid : Fld := ⟨.ADC_SD_LIVE, 24, 24⟩
/-- ADC_SD_LIVE.ovr -/
def fADC_SD_LIVE_ovr : Fld := ⟨.ADC_SD_LIVE, 25, 25⟩
/-- ADC_SD_LIVE.settle_suspect -/
def fADC_SD_LIVE_settle_suspect : Fld := ⟨.ADC_SD_LIVE, 26, 26⟩
/-- ADC_SAR_CTL.fast_pin -/
def fADC_SAR_CTL_fast_pin : Fld := ⟨.ADC_SAR_CTL, 5, 0⟩
/-- ADC_SAR_CTL.len -/
def fADC_SAR_CTL_len : Fld := ⟨.ADC_SAR_CTL, 10, 6⟩
/-- ADC_SAR_SEQ.inputs -/
def fADC_SAR_SEQ_inputs : Fld := ⟨.ADC_SAR_SEQ, 63, 0⟩
/-- ADC_SAR_INJ.input -/
def fADC_SAR_INJ_input : Fld := ⟨.ADC_SAR_INJ, 2, 0⟩
/-- ADC_SAR_INJ.go -/
def fADC_SAR_INJ_go : Fld := ⟨.ADC_SAR_INJ, 3, 3⟩
/-- ADC_SAR_STAT.converting -/
def fADC_SAR_STAT_converting : Fld := ⟨.ADC_SAR_STAT, 0, 0⟩
/-- ADC_SAR_STAT.inj_pending -/
def fADC_SAR_STAT_inj_pending : Fld := ⟨.ADC_SAR_STAT, 1, 1⟩
/-- ADC_SAR_STAT.inj_done -/
def fADC_SAR_STAT_inj_done : Fld := ⟨.ADC_SAR_STAT, 2, 2⟩
/-- ADC_SAR_STAT.inj_reject -/
def fADC_SAR_STAT_inj_reject : Fld := ⟨.ADC_SAR_STAT, 31, 16⟩
/-- ADC_SAR_OVR.ovr -/
def fADC_SAR_OVR_ovr : Fld := ⟨.ADC_SAR_OVR, 15, 0⟩
/-- ADC_SAR_OVR.inj_ovr -/
def fADC_SAR_OVR_inj_ovr : Fld := ⟨.ADC_SAR_OVR, 16, 16⟩
/-- ADC_SAR_INJ_RES.result -/
def fADC_SAR_INJ_RES_result : Fld := ⟨.ADC_SAR_INJ_RES, 31, 0⟩
/-- ADC_SAR_RES.result -/
def fADC_SAR_RES_result : Fld := ⟨.ADC_SAR_RES, 31, 0⟩
/-- ACQ_STATUS.armed -/
def fACQ_STATUS_armed : Fld := ⟨.ACQ_STATUS, 3, 0⟩
/-- ACQ_STATUS.dom_on -/
def fACQ_STATUS_dom_on : Fld := ⟨.ACQ_STATUS, 4, 4⟩
/-- ACQ_CTL.arm -/
def fACQ_CTL_arm : Fld := ⟨.ACQ_CTL, 0, 0⟩
/-- ACQ_CTL.auto_rearm -/
def fACQ_CTL_auto_rearm : Fld := ⟨.ACQ_CTL, 1, 1⟩
/-- ACQ_CTL.require_full_pretrigger -/
def fACQ_CTL_require_full_pretrigger : Fld := ⟨.ACQ_CTL, 2, 2⟩
/-- ACQ_CTL.wrap -/
def fACQ_CTL_wrap : Fld := ⟨.ACQ_CTL, 3, 3⟩
/-- ACQ_CTL.trig_src -/
def fACQ_CTL_trig_src : Fld := ⟨.ACQ_CTL, 6, 4⟩
/-- ACQ_CTL.trig_sel -/
def fACQ_CTL_trig_sel : Fld := ⟨.ACQ_CTL, 8, 7⟩
/-- ACQ_CTL.slope -/
def fACQ_CTL_slope : Fld := ⟨.ACQ_CTL, 9, 9⟩
/-- ACQ_CTL.aspace -/
def fACQ_CTL_aspace : Fld := ⟨.ACQ_CTL, 17, 10⟩
/-- ACQ_SRC.kind -/
def fACQ_SRC_kind : Fld := ⟨.ACQ_SRC, 0, 0⟩
/-- ACQ_SRC.pin -/
def fACQ_SRC_pin : Fld := ⟨.ACQ_SRC, 6, 1⟩
/-- ACQ_SRC.sar -/
def fACQ_SRC_sar : Fld := ⟨.ACQ_SRC, 8, 7⟩
/-- ACQ_SRC.input -/
def fACQ_SRC_input : Fld := ⟨.ACQ_SRC, 11, 9⟩
/-- ACQ_SRC.reduce_m1 -/
def fACQ_SRC_reduce_m1 : Fld := ⟨.ACQ_SRC, 27, 12⟩
/-- ACQ_SRC.reduce_en -/
def fACQ_SRC_reduce_en : Fld := ⟨.ACQ_SRC, 28, 28⟩
/-- ACQ_BASE.va -/
def fACQ_BASE_va : Fld := ⟨.ACQ_BASE, 47, 0⟩
/-- ACQ_PRE.p -/
def fACQ_PRE_p : Fld := ⟨.ACQ_PRE, 26, 0⟩
/-- ACQ_POST.q -/
def fACQ_POST_q : Fld := ⟨.ACQ_POST, 31, 0⟩
/-- ACQ_NSEG.seg_m1 -/
def fACQ_NSEG_seg_m1 : Fld := ⟨.ACQ_NSEG, 15, 0⟩
/-- ACQ_LEVEL.level -/
def fACQ_LEVEL_level : Fld := ⟨.ACQ_LEVEL, 23, 0⟩
/-- ACQ_LEVEL.hyst -/
def fACQ_LEVEL_hyst : Fld := ⟨.ACQ_LEVEL, 31, 24⟩
/-- ACQ_QUEUE.queue -/
def fACQ_QUEUE_queue : Fld := ⟨.ACQ_QUEUE, 13, 0⟩
/-- ACQ_TRIG.go -/
def fACQ_TRIG_go : Fld := ⟨.ACQ_TRIG, 0, 0⟩
/-- ACQ_STAT.state -/
def fACQ_STAT_state : Fld := ⟨.ACQ_STAT, 1, 0⟩
/-- ACQ_STAT.write_drop -/
def fACQ_STAT_write_drop : Fld := ⟨.ACQ_STAT, 2, 2⟩
/-- ACQ_STAT.full -/
def fACQ_STAT_full : Fld := ⟨.ACQ_STAT, 3, 3⟩
/-- ACQ_STAT.src_lost -/
def fACQ_STAT_src_lost : Fld := ⟨.ACQ_STAT, 4, 4⟩
/-- ACQ_STAT.cfg_err -/
def fACQ_STAT_cfg_err : Fld := ⟨.ACQ_STAT, 5, 5⟩
/-- ACQ_STAT.pre_valid -/
def fACQ_STAT_pre_valid : Fld := ⟨.ACQ_STAT, 58, 32⟩
/-- ACQ_CNT.early_count -/
def fACQ_CNT_early_count : Fld := ⟨.ACQ_CNT, 15, 0⟩
/-- ACQ_CNT.rearm_count -/
def fACQ_CNT_rearm_count : Fld := ⟨.ACQ_CNT, 31, 16⟩
/-- ACQ_CNT.busy_count -/
def fACQ_CNT_busy_count : Fld := ⟨.ACQ_CNT, 47, 32⟩
/-- ACQ_CNT.late_count -/
def fACQ_CNT_late_count : Fld := ⟨.ACQ_CNT, 63, 48⟩
/-- MEM_STATUS.state -/
def fMEM_STATUS_state : Fld := ⟨.MEM_STATUS, 2, 0⟩
/-- MEM_STATUS.tref_fast -/
def fMEM_STATUS_tref_fast : Fld := ⟨.MEM_STATUS, 3, 3⟩
/-- MEM_STATUS.decode_err -/
def fMEM_STATUS_decode_err : Fld := ⟨.MEM_STATUS, 4, 4⟩
/-- MEM_STATUS.map_drop -/
def fMEM_STATUS_map_drop : Fld := ⟨.MEM_STATUS, 5, 5⟩
/-- MEM_STATUS.map_err -/
def fMEM_STATUS_map_err : Fld := ⟨.MEM_STATUS, 6, 6⟩
/-- MEM_REF_ORG.cycles -/
def fMEM_REF_ORG_cycles : Fld := ⟨.MEM_REF_ORG, 63, 0⟩
/-- MEM_REF_STAT.stops -/
def fMEM_REF_STAT_stops : Fld := ⟨.MEM_REF_STAT, 31, 0⟩
/-- MEM_REF_STAT.changes -/
def fMEM_REF_STAT_changes : Fld := ⟨.MEM_REF_STAT, 47, 32⟩
/-- MEM_TEMP.temp -/
def fMEM_TEMP_temp : Fld := ⟨.MEM_TEMP, 31, 0⟩
/-- MEM_EVQ.queue -/
def fMEM_EVQ_queue : Fld := ⟨.MEM_EVQ, 13, 0⟩
/-- MEM_EVQ.enable -/
def fMEM_EVQ_enable : Fld := ⟨.MEM_EVQ, 14, 14⟩
/-- MEM_EVQ.ce_report -/
def fMEM_EVQ_ce_report : Fld := ⟨.MEM_EVQ, 15, 15⟩
/-- MEM_DEC_ADDR.hpa -/
def fMEM_DEC_ADDR_hpa : Fld := ⟨.MEM_DEC_ADDR, 43, 0⟩
/-- MEM_DEC_ADDR.port -/
def fMEM_DEC_ADDR_port : Fld := ⟨.MEM_DEC_ADDR, 48, 44⟩
/-- MEM_PASR.keep -/
def fMEM_PASR_keep : Fld := ⟨.MEM_PASR, 31, 0⟩
/-- MEM_SEG_LOST.lost -/
def fMEM_SEG_LOST_lost : Fld := ⟨.MEM_SEG_LOST, 31, 0⟩
/-- MEM_SCRUB.en -/
def fMEM_SCRUB_en : Fld := ⟨.MEM_SCRUB, 0, 0⟩
/-- MEM_SCRUB.period_h -/
def fMEM_SCRUB_period_h : Fld := ⟨.MEM_SCRUB, 15, 8⟩
/-- MEM_SCRUB.passes -/
def fMEM_SCRUB_passes : Fld := ⟨.MEM_SCRUB, 63, 32⟩
/-- MEM_TRN_PAT.beats -/
def fMEM_TRN_PAT_beats : Fld := ⟨.MEM_TRN_PAT, 63, 0⟩
/-- MEM_MAP_CTL.valid -/
def fMEM_MAP_CTL_valid : Fld := ⟨.MEM_MAP_CTL, 0, 0⟩
/-- MEM_MAP_CTL.kind -/
def fMEM_MAP_CTL_kind : Fld := ⟨.MEM_MAP_CTL, 2, 1⟩
/-- MEM_MAP_CTL.index -/
def fMEM_MAP_CTL_index : Fld := ⟨.MEM_MAP_CTL, 4, 3⟩
/-- MEM_MAP_CTL.grain -/
def fMEM_MAP_CTL_grain : Fld := ⟨.MEM_MAP_CTL, 8, 5⟩
/-- MEM_MAP_BASE.base -/
def fMEM_MAP_BASE_base : Fld := ⟨.MEM_MAP_BASE, 31, 0⟩
/-- MEM_MAP_LEN.len -/
def fMEM_MAP_LEN_len : Fld := ⟨.MEM_MAP_LEN, 31, 0⟩
/-- MEM_CH_STAT.state -/
def fMEM_CH_STAT_state : Fld := ⟨.MEM_CH_STAT, 1, 0⟩
/-- MEM_CH_STAT.incidents -/
def fMEM_CH_STAT_incidents : Fld := ⟨.MEM_CH_STAT, 31, 16⟩
/-- MEM_CH_ECC.ce_count -/
def fMEM_CH_ECC_ce_count : Fld := ⟨.MEM_CH_ECC, 15, 0⟩
/-- MEM_CH_ECC.ue_count -/
def fMEM_CH_ECC_ue_count : Fld := ⟨.MEM_CH_ECC, 31, 16⟩
/-- MEM_CH_ECC.stored_count -/
def fMEM_CH_ECC_stored_count : Fld := ⟨.MEM_CH_ECC, 47, 32⟩
/-- MEM_CH_PAR.alerts -/
def fMEM_CH_PAR_alerts : Fld := ⟨.MEM_CH_PAR, 15, 0⟩
/-- MEM_CH_PAR.replays -/
def fMEM_CH_PAR_replays : Fld := ⟨.MEM_CH_PAR, 31, 16⟩
/-- MEM_CH_ERR_ADDR.addr -/
def fMEM_CH_ERR_ADDR_addr : Fld := ⟨.MEM_CH_ERR_ADDR, 31, 0⟩
/-- MEM_CH_ERR_ADDR.port -/
def fMEM_CH_ERR_ADDR_port : Fld := ⟨.MEM_CH_ERR_ADDR, 36, 32⟩
/-- MEM_CH_TRN.check_en -/
def fMEM_CH_TRN_check_en : Fld := ⟨.MEM_CH_TRN, 0, 0⟩
/-- MEM_CH_TRN.pattern -/
def fMEM_CH_TRN_pattern : Fld := ⟨.MEM_CH_TRN, 2, 1⟩
/-- MEM_CH_MAINT.lane_errs -/
def fMEM_CH_MAINT_lane_errs : Fld := ⟨.MEM_CH_MAINT, 31, 0⟩
/-- MEM_TRN_ERR.counts -/
def fMEM_TRN_ERR_counts : Fld := ⟨.MEM_TRN_ERR, 63, 0⟩
/-- CHT_STATUS.outstanding -/
def fCHT_STATUS_outstanding : Fld := ⟨.CHT_STATUS, 6, 0⟩
/-- CHT_STATUS.inv_busy -/
def fCHT_STATUS_inv_busy : Fld := ⟨.CHT_STATUS, 7, 7⟩
/-- CHT_STATUS.as_drop -/
def fCHT_STATUS_as_drop : Fld := ⟨.CHT_STATUS, 8, 8⟩
/-- CHT_WALK_CNT.rt_walks -/
def fCHT_WALK_CNT_rt_walks : Fld := ⟨.CHT_WALK_CNT, 31, 0⟩
/-- CHT_WALK_CNT.bulk_walks -/
def fCHT_WALK_CNT_bulk_walks : Fld := ⟨.CHT_WALK_CNT, 63, 32⟩
/-- CHT_INV_SPACE.space -/
def fCHT_INV_SPACE_space : Fld := ⟨.CHT_INV_SPACE, 7, 0⟩
/-- CHT_INV_SPACE.all -/
def fCHT_INV_SPACE_all : Fld := ⟨.CHT_INV_SPACE, 8, 8⟩
/-- CHT_INV_START.start -/
def fCHT_INV_START_start : Fld := ⟨.CHT_INV_START, 47, 0⟩
/-- CHT_INV_LEN.len -/
def fCHT_INV_LEN_len : Fld := ⟨.CHT_INV_LEN, 48, 0⟩
/-- CHT_INV_GO.go -/
def fCHT_INV_GO_go : Fld := ⟨.CHT_INV_GO, 0, 0⟩
/-- CHT_BAR2_CTL.en -/
def fCHT_BAR2_CTL_en : Fld := ⟨.CHT_BAR2_CTL, 0, 0⟩
/-- CHT_BAR2_CTL.space -/
def fCHT_BAR2_CTL_space : Fld := ⟨.CHT_BAR2_CTL, 15, 8⟩
/-- CHT_BAR2_BASE.dva -/
def fCHT_BAR2_BASE_dva : Fld := ⟨.CHT_BAR2_BASE, 47, 0⟩
/-- CHT_BAR2_CNT.faults -/
def fCHT_BAR2_CNT_faults : Fld := ⟨.CHT_BAR2_CNT, 15, 0⟩
/-- CHT_BAR2_CNT.disabled -/
def fCHT_BAR2_CNT_disabled : Fld := ⟨.CHT_BAR2_CNT, 31, 16⟩
/-- CHT_AS_CTL.valid -/
def fCHT_AS_CTL_valid : Fld := ⟨.CHT_AS_CTL, 0, 0⟩
/-- CHT_AS_CTL.span -/
def fCHT_AS_CTL_span : Fld := ⟨.CHT_AS_CTL, 5, 1⟩
/-- CHT_AS_CTL.fault_q -/
def fCHT_AS_CTL_fault_q : Fld := ⟨.CHT_AS_CTL, 21, 8⟩
/-- CHT_AS_CTL.system -/
def fCHT_AS_CTL_system : Fld := ⟨.CHT_AS_CTL, 22, 22⟩
/-- CHT_AS_ROOT.hpa -/
def fCHT_AS_ROOT_hpa : Fld := ⟨.CHT_AS_ROOT, 43, 0⟩
/-- CHT_FLT_VALID.slots -/
def fCHT_FLT_VALID_slots : Fld := ⟨.CHT_FLT_VALID, 63, 0⟩
/-- CHT_PLT_CNT.walks -/
def fCHT_PLT_CNT_walks : Fld := ⟨.CHT_PLT_CNT, 31, 0⟩
/-- CHT_PLT_CNT.early -/
def fCHT_PLT_CNT_early : Fld := ⟨.CHT_PLT_CNT, 47, 32⟩
/-- CHT_PLT_CNT.late -/
def fCHT_PLT_CNT_late : Fld := ⟨.CHT_PLT_CNT, 63, 48⟩
/-- CHT_FLT.record -/
def fCHT_FLT_record : Fld := ⟨.CHT_FLT, 63, 0⟩
/-- DMA_STATUS.active -/
def fDMA_STATUS_active : Fld := ⟨.DMA_STATUS, 15, 0⟩
/-- DMA_STATUS.suspended -/
def fDMA_STATUS_suspended : Fld := ⟨.DMA_STATUS, 31, 16⟩
/-- DMA_SLOTS.slots_a -/
def fDMA_SLOTS_slots_a : Fld := ⟨.DMA_SLOTS, 5, 0⟩
/-- DMA_SLOTS.slots_b -/
def fDMA_SLOTS_slots_b : Fld := ⟨.DMA_SLOTS, 12, 8⟩
/-- DMA_CH_CTL.run -/
def fDMA_CH_CTL_run : Fld := ⟨.DMA_CH_CTL, 0, 0⟩
/-- DMA_CH_CTL.ring_q -/
def fDMA_CH_CTL_ring_q : Fld := ⟨.DMA_CH_CTL, 15, 2⟩
/-- DMA_CH_CTL.cpl_q -/
def fDMA_CH_CTL_cpl_q : Fld := ⟨.DMA_CH_CTL, 29, 16⟩
/-- DMA_CH_STAT.state -/
def fDMA_CH_STAT_state : Fld := ⟨.DMA_CH_STAT, 2, 0⟩
/-- DMA_CH_STAT.in_flight -/
def fDMA_CH_STAT_in_flight : Fld := ⟨.DMA_CH_STAT, 10, 8⟩
/-- DMA_CH_STAT.fault_id -/
def fDMA_CH_STAT_fault_id : Fld := ⟨.DMA_CH_STAT, 31, 16⟩
/-- DMA_CH_PROG.granule -/
def fDMA_CH_PROG_granule : Fld := ⟨.DMA_CH_PROG, 24, 0⟩
/-- DMA_CH_PROG.done_mask -/
def fDMA_CH_PROG_done_mask : Fld := ⟨.DMA_CH_PROG, 27, 25⟩
/-- DMA_CH_PROG.tag -/
def fDMA_CH_PROG_tag : Fld := ⟨.DMA_CH_PROG, 63, 32⟩
/-- DMA_CH_CNT.completed -/
def fDMA_CH_CNT_completed : Fld := ⟨.DMA_CH_CNT, 31, 0⟩
/-- DMA_CH_CNT.invalid -/
def fDMA_CH_CNT_invalid : Fld := ⟨.DMA_CH_CNT, 47, 32⟩
/-- DMA_CH_CNT.faults -/
def fDMA_CH_CNT_faults : Fld := ⟨.DMA_CH_CNT, 63, 48⟩
/-- HLM_STATUS.front_on -/
def fHLM_STATUS_front_on : Fld := ⟨.HLM_STATUS, 0, 0⟩
/-- HLM_STATUS.ready -/
def fHLM_STATUS_ready : Fld := ⟨.HLM_STATUS, 1, 1⟩
/-- HLM_STATUS.hart_run -/
def fHLM_STATUS_hart_run : Fld := ⟨.HLM_STATUS, 5, 2⟩
/-- HLM_ADM_MIRROR.en -/
def fHLM_ADM_MIRROR_en : Fld := ⟨.HLM_ADM_MIRROR, 0, 0⟩
/-- HLM_ADM_MIRROR.addr -/
def fHLM_ADM_MIRROR_addr : Fld := ⟨.HLM_ADM_MIRROR, 63, 12⟩
/-- HLM_ADM_VEC.vector -/
def fHLM_ADM_VEC_vector : Fld := ⟨.HLM_ADM_VEC, 10, 0⟩
/-- HLM_FIX_ADDR.en -/
def fHLM_FIX_ADDR_en : Fld := ⟨.HLM_FIX_ADDR, 0, 0⟩
/-- HLM_FIX_ADDR.addr -/
def fHLM_FIX_ADDR_addr : Fld := ⟨.HLM_FIX_ADDR, 63, 12⟩
/-- HLM_FIX_CTL.vector -/
def fHLM_FIX_CTL_vector : Fld := ⟨.HLM_FIX_CTL, 10, 0⟩
/-- HLM_FIX_CTL.irq_en -/
def fHLM_FIX_CTL_irq_en : Fld := ⟨.HLM_FIX_CTL, 11, 11⟩
/-- HLM_FIX_STAT.busy -/
def fHLM_FIX_STAT_busy : Fld := ⟨.HLM_FIX_STAT, 0, 0⟩
/-- HLM_FIX_STAT.done -/
def fHLM_FIX_STAT_done : Fld := ⟨.HLM_FIX_STAT, 1, 1⟩
/-- HLM_FIX_STAT.err -/
def fHLM_FIX_STAT_err : Fld := ⟨.HLM_FIX_STAT, 2, 2⟩
/-- HLM_FIX_STAT.seq -/
def fHLM_FIX_STAT_seq : Fld := ⟨.HLM_FIX_STAT, 63, 32⟩
/-- HLM_PROMPT_CNT.halts -/
def fHLM_PROMPT_CNT_halts : Fld := ⟨.HLM_PROMPT_CNT, 15, 0⟩
/-- HLM_PROMPT_CNT.aborts -/
def fHLM_PROMPT_CNT_aborts : Fld := ⟨.HLM_PROMPT_CNT, 31, 16⟩
/-- HLM_PROMPT_CNT.fixes -/
def fHLM_PROMPT_CNT_fixes : Fld := ⟨.HLM_PROMPT_CNT, 47, 32⟩
/-- HLM_PROMPT_CNT.fix_ignored -/
def fHLM_PROMPT_CNT_fix_ignored : Fld := ⟨.HLM_PROMPT_CNT, 63, 48⟩
/-- FIX_DB.go -/
def fFIX_DB_go : Fld := ⟨.FIX_DB, 0, 0⟩
/-- HLM_RING_CFG.exists -/
def fHLM_RING_CFG_exists : Fld := ⟨.HLM_RING_CFG, 0, 0⟩
/-- HLM_RING_CFG.expert -/
def fHLM_RING_CFG_expert : Fld := ⟨.HLM_RING_CFG, 1, 1⟩
/-- HLM_RING_CFG.script -/
def fHLM_RING_CFG_script : Fld := ⟨.HLM_RING_CFG, 2, 2⟩
/-- HLM_RING_CFG.hart -/
def fHLM_RING_CFG_hart : Fld := ⟨.HLM_RING_CFG, 3, 3⟩
/-- HLM_RING_CFG.cmd_log2 -/
def fHLM_RING_CFG_cmd_log2 : Fld := ⟨.HLM_RING_CFG, 7, 4⟩
/-- HLM_RING_CFG.cpl_log2 -/
def fHLM_RING_CFG_cpl_log2 : Fld := ⟨.HLM_RING_CFG, 11, 8⟩
/-- HLM_RING_CFG.vector -/
def fHLM_RING_CFG_vector : Fld := ⟨.HLM_RING_CFG, 22, 12⟩
/-- HLM_RING_CFG.mod_count -/
def fHLM_RING_CFG_mod_count : Fld := ⟨.HLM_RING_CFG, 30, 23⟩
/-- HLM_RING_CFG.mod_time -/
def fHLM_RING_CFG_mod_time : Fld := ⟨.HLM_RING_CFG, 47, 32⟩
/-- HLM_RING_MIR.addr -/
def fHLM_RING_MIR_addr : Fld := ⟨.HLM_RING_MIR, 63, 0⟩
/-- HLM_RING_STAT.committed -/
def fHLM_RING_STAT_committed : Fld := ⟨.HLM_RING_STAT, 31, 0⟩
/-- HLM_RING_STAT.taken -/
def fHLM_RING_STAT_taken : Fld := ⟨.HLM_RING_STAT, 63, 32⟩
/-- HLM_RING_LAST.last_tag -/
def fHLM_RING_LAST_last_tag : Fld := ⟨.HLM_RING_LAST, 31, 0⟩
/-- HLM_RING_LAST.last_status -/
def fHLM_RING_LAST_last_status : Fld := ⟨.HLM_RING_LAST, 47, 32⟩
/-- HLM_RING_LAST.refused -/
def fHLM_RING_LAST_refused : Fld := ⟨.HLM_RING_LAST, 63, 48⟩
/-- HLM_RING_CPL.posted -/
def fHLM_RING_CPL_posted : Fld := ⟨.HLM_RING_CPL, 31, 0⟩
/-- HLM_RING_CPL.consumed -/
def fHLM_RING_CPL_consumed : Fld := ⟨.HLM_RING_CPL, 63, 32⟩
/-- HLM_RING_CNT.duplicates -/
def fHLM_RING_CNT_duplicates : Fld := ⟨.HLM_RING_CNT, 15, 0⟩
/-- HLM_RING_CNT.deadlines -/
def fHLM_RING_CNT_deadlines : Fld := ⟨.HLM_RING_CNT, 31, 16⟩
/-- SWY_STATUS.in_use -/
def fSWY_STATUS_in_use : Fld := ⟨.SWY_STATUS, 12, 0⟩
/-- SWY_STATUS.ready -/
def fSWY_STATUS_ready : Fld := ⟨.SWY_STATUS, 25, 13⟩
/-- SWY_STATUS.top_prio -/
def fSWY_STATUS_top_prio : Fld := ⟨.SWY_STATUS, 31, 26⟩
/-- SWY_STATUS.held -/
def fSWY_STATUS_held : Fld := ⟨.SWY_STATUS, 44, 32⟩
/-- SWY_STATUS.delayed -/
def fSWY_STATUS_delayed : Fld := ⟨.SWY_STATUS, 57, 45⟩
/-- SWY_STATUS.tick_err -/
def fSWY_STATUS_tick_err : Fld := ⟨.SWY_STATUS, 58, 58⟩
/-- SWY_TICK.period -/
def fSWY_TICK_period : Fld := ⟨.SWY_TICK, 20, 0⟩
/-- SWY_TICK_LAST.cycles -/
def fSWY_TICK_LAST_cycles : Fld := ⟨.SWY_TICK_LAST, 63, 0⟩
/-- SWY_T_STAT.state -/
def fSWY_T_STAT_state : Fld := ⟨.SWY_T_STAT, 2, 0⟩
/-- SWY_T_STAT.prio -/
def fSWY_T_STAT_prio : Fld := ⟨.SWY_T_STAT, 8, 3⟩
/-- SWY_T_STAT.hart -/
def fSWY_T_STAT_hart : Fld := ⟨.SWY_T_STAT, 10, 9⟩
/-- SWY_T_STAT.queue -/
def fSWY_T_STAT_queue : Fld := ⟨.SWY_T_STAT, 24, 11⟩
/-- SWY_T_STAT.flags -/
def fSWY_T_STAT_flags : Fld := ⟨.SWY_T_STAT, 63, 32⟩
/-- SWY_T_WAIT.mask -/
def fSWY_T_WAIT_mask : Fld := ⟨.SWY_T_WAIT, 31, 0⟩
/-- SWY_T_WAIT.all -/
def fSWY_T_WAIT_all : Fld := ⟨.SWY_T_WAIT, 32, 32⟩
/-- SWY_T_WAIT.consume -/
def fSWY_T_WAIT_consume : Fld := ⟨.SWY_T_WAIT, 33, 33⟩
/-- SWY_T_EXP.cycles -/
def fSWY_T_EXP_cycles : Fld := ⟨.SWY_T_EXP, 63, 0⟩
/-- SWY_H_OP.op -/
def fSWY_H_OP_op : Fld := ⟨.SWY_H_OP, 7, 0⟩
/-- SWY_H_OP.task -/
def fSWY_H_OP_task : Fld := ⟨.SWY_H_OP, 19, 8⟩
/-- SWY_H_OP.prio -/
def fSWY_H_OP_prio : Fld := ⟨.SWY_H_OP, 25, 20⟩
/-- SWY_H_OP.all -/
def fSWY_H_OP_all : Fld := ⟨.SWY_H_OP, 26, 26⟩
/-- SWY_H_OP.consume -/
def fSWY_H_OP_consume : Fld := ⟨.SWY_H_OP, 27, 27⟩
/-- SWY_H_OP.queue -/
def fSWY_H_OP_queue : Fld := ⟨.SWY_H_OP, 41, 28⟩
/-- SWY_H_ARG.mask -/
def fSWY_H_ARG_mask : Fld := ⟨.SWY_H_ARG, 31, 0⟩
/-- SWY_H_ARG.ticks -/
def fSWY_H_ARG_ticks : Fld := ⟨.SWY_H_ARG, 63, 32⟩
/-- SWY_H_RES.code -/
def fSWY_H_RES_code : Fld := ⟨.SWY_H_RES, 7, 0⟩
/-- SWY_H_RES.flags -/
def fSWY_H_RES_flags : Fld := ⟨.SWY_H_RES, 63, 32⟩
/-- SWY_H_CUR.task -/
def fSWY_H_CUR_task : Fld := ⟨.SWY_H_CUR, 11, 0⟩
/-- SWY_H_CUR.valid -/
def fSWY_H_CUR_valid : Fld := ⟨.SWY_H_CUR, 12, 12⟩
/-- SWY_H_CUR.dispatch -/
def fSWY_H_CUR_dispatch : Fld := ⟨.SWY_H_CUR, 13, 13⟩
/-- SWY_H_SWITCH.go -/
def fSWY_H_SWITCH_go : Fld := ⟨.SWY_H_SWITCH, 0, 0⟩
/-- SWY_H_MSG.data -/
def fSWY_H_MSG_data : Fld := ⟨.SWY_H_MSG, 63, 0⟩
/-- DPT_STATUS.enabled -/
def fDPT_STATUS_enabled : Fld := ⟨.DPT_STATUS, 14, 0⟩
/-- DPT_STATUS.cfg_drop -/
def fDPT_STATUS_cfg_drop : Fld := ⟨.DPT_STATUS, 15, 15⟩
/-- DPT_STATUS.q_err -/
def fDPT_STATUS_q_err : Fld := ⟨.DPT_STATUS, 16, 16⟩
/-- DPT_STATUS.stage_lost -/
def fDPT_STATUS_stage_lost : Fld := ⟨.DPT_STATUS, 17, 17⟩
/-- DPT_STATUS.sram_used -/
def fDPT_STATUS_sram_used : Fld := ⟨.DPT_STATUS, 49, 32⟩
/-- DPT_COMMIT_SEQ.seq -/
def fDPT_COMMIT_SEQ_seq : Fld := ⟨.DPT_COMMIT_SEQ, 63, 0⟩
/-- DPT_SPILL.bytes -/
def fDPT_SPILL_bytes : Fld := ⟨.DPT_SPILL, 39, 0⟩
/-- DPT_DROP.dropped -/
def fDPT_DROP_dropped : Fld := ⟨.DPT_DROP, 63, 0⟩
/-- DPT_MARK.markers -/
def fDPT_MARK_markers : Fld := ⟨.DPT_MARK, 31, 0⟩
/-- DPT_MARK.orphan -/
def fDPT_MARK_orphan : Fld := ⟨.DPT_MARK, 63, 32⟩
/-- DPT_Q_CTL.en -/
def fDPT_Q_CTL_en : Fld := ⟨.DPT_Q_CTL, 0, 0⟩
/-- DPT_Q_CTL.system -/
def fDPT_Q_CTL_system : Fld := ⟨.DPT_Q_CTL, 1, 1⟩
/-- DPT_Q_CTL.bound -/
def fDPT_Q_CTL_bound : Fld := ⟨.DPT_Q_CTL, 2, 2⟩
/-- DPT_Q_CTL.prod -/
def fDPT_Q_CTL_prod : Fld := ⟨.DPT_Q_CTL, 5, 3⟩
/-- DPT_Q_CTL.cons -/
def fDPT_Q_CTL_cons : Fld := ⟨.DPT_Q_CTL, 8, 6⟩
/-- DPT_Q_CTL.elem -/
def fDPT_Q_CTL_elem : Fld := ⟨.DPT_Q_CTL, 11, 9⟩
/-- DPT_Q_CTL.size_log2 -/
def fDPT_Q_CTL_size_log2 : Fld := ⟨.DPT_Q_CTL, 16, 12⟩
/-- DPT_Q_CTL.sram_log2 -/
def fDPT_Q_CTL_sram_log2 : Fld := ⟨.DPT_Q_CTL, 21, 17⟩
/-- DPT_Q_OWNER.owner -/
def fDPT_Q_OWNER_owner : Fld := ⟨.DPT_Q_OWNER, 11, 0⟩
/-- DPT_Q_BASE.hpa -/
def fDPT_Q_BASE_hpa : Fld := ⟨.DPT_Q_BASE, 43, 0⟩
/-- DPT_Q_MIRROR.slots_log2 -/
def fDPT_Q_MIRROR_slots_log2 : Fld := ⟨.DPT_Q_MIRROR, 4, 0⟩
/-- DPT_Q_MIRROR.wb_en -/
def fDPT_Q_MIRROR_wb_en : Fld := ⟨.DPT_Q_MIRROR, 5, 5⟩
/-- DPT_Q_MIRROR.addr -/
def fDPT_Q_MIRROR_addr : Fld := ⟨.DPT_Q_MIRROR, 63, 12⟩
/-- DPT_Q_THR.hi -/
def fDPT_Q_THR_hi : Fld := ⟨.DPT_Q_THR, 31, 0⟩
/-- DPT_Q_THR.lo -/
def fDPT_Q_THR_lo : Fld := ⟨.DPT_Q_THR, 63, 32⟩
/-- DPT_Q_NOTIFY.kind -/
def fDPT_Q_NOTIFY_kind : Fld := ⟨.DPT_Q_NOTIFY, 1, 0⟩
/-- DPT_Q_NOTIFY.flag -/
def fDPT_Q_NOTIFY_flag : Fld := ⟨.DPT_Q_NOTIFY, 6, 2⟩
/-- DPT_Q_NOTIFY.task -/
def fDPT_Q_NOTIFY_task : Fld := ⟨.DPT_Q_NOTIFY, 18, 7⟩
/-- DPT_Q_NOTIFY.vector -/
def fDPT_Q_NOTIFY_vector : Fld := ⟨.DPT_Q_NOTIFY, 29, 19⟩
/-- DPT_Q_TAIL.tail -/
def fDPT_Q_TAIL_tail : Fld := ⟨.DPT_Q_TAIL, 63, 0⟩
/-- DPT_Q_HEAD.head -/
def fDPT_Q_HEAD_head : Fld := ⟨.DPT_Q_HEAD, 63, 0⟩
/-- DPT_Q_STAT.spilling -/
def fDPT_Q_STAT_spilling : Fld := ⟨.DPT_Q_STAT, 0, 0⟩
/-- DPT_Q_STAT.dropping -/
def fDPT_Q_STAT_dropping : Fld := ⟨.DPT_Q_STAT, 1, 1⟩
/-- DPT_Q_STAT.held -/
def fDPT_Q_STAT_held : Fld := ⟨.DPT_Q_STAT, 2, 2⟩
/-- DPT_Q_STAT.occupancy -/
def fDPT_Q_STAT_occupancy : Fld := ⟨.DPT_Q_STAT, 63, 32⟩
/-- DPT_Q_CNT.dropped -/
def fDPT_Q_CNT_dropped : Fld := ⟨.DPT_Q_CNT, 31, 0⟩
/-- DPT_Q_CNT.markers -/
def fDPT_Q_CNT_markers : Fld := ⟨.DPT_Q_CNT, 47, 32⟩
/-- DPT_Q_CNT.refused -/
def fDPT_Q_CNT_refused : Fld := ⟨.DPT_Q_CNT, 63, 48⟩
/-- DPT_Q_MIR_PTR.mirrored -/
def fDPT_Q_MIR_PTR_mirrored : Fld := ⟨.DPT_Q_MIR_PTR, 31, 0⟩
/-- DPT_Q_MIR_PTR.released -/
def fDPT_Q_MIR_PTR_released : Fld := ⟨.DPT_Q_MIR_PTR, 63, 32⟩
/-- WLN_STATUS.up -/
def fWLN_STATUS_up : Fld := ⟨.WLN_STATUS, 3, 0⟩
/-- WLN_STATUS.state -/
def fWLN_STATUS_state : Fld := ⟨.WLN_STATUS, 5, 4⟩
/-- WLN_STATUS.self -/
def fWLN_STATUS_self : Fld := ⟨.WLN_STATUS, 15, 8⟩
/-- WLN_STATUS.root -/
def fWLN_STATUS_root : Fld := ⟨.WLN_STATUS, 23, 16⟩
/-- WLN_CONV.field -/
def fWLN_CONV_field : Fld := ⟨.WLN_CONV, 15, 0⟩
/-- WLN_CONV.member -/
def fWLN_CONV_member : Fld := ⟨.WLN_CONV, 31, 16⟩
/-- WLN_CONV.members -/
def fWLN_CONV_members : Fld := ⟨.WLN_CONV, 47, 32⟩
/-- WLN_CONV.refused -/
def fWLN_CONV_refused : Fld := ⟨.WLN_CONV, 63, 48⟩
/-- WLN_CONV_CTL.halt_on_break -/
def fWLN_CONV_CTL_halt_on_break : Fld := ⟨.WLN_CONV_CTL, 0, 0⟩
/-- WLN_CONV_CTL.agg_halt -/
def fWLN_CONV_CTL_agg_halt : Fld := ⟨.WLN_CONV_CTL, 1, 1⟩
/-- WLN_CONV_CTL.abort_halt -/
def fWLN_CONV_CTL_abort_halt : Fld := ⟨.WLN_CONV_CTL, 2, 2⟩
/-- WLN_CONV_CTL.halt_pilots -/
def fWLN_CONV_CTL_halt_pilots : Fld := ⟨.WLN_CONV_CTL, 19, 4⟩
/-- WLN_HALT.go -/
def fWLN_HALT_go : Fld := ⟨.WLN_HALT, 0, 0⟩
/-- WLN_GO_CTL.src -/
def fWLN_GO_CTL_src : Fld := ⟨.WLN_GO_CTL, 1, 0⟩
/-- WLN_GO.go -/
def fWLN_GO_go : Fld := ⟨.WLN_GO, 0, 0⟩
/-- WLN_AGG.local -/
def fWLN_AGG_local : Fld := ⟨.WLN_AGG, 15, 0⟩
/-- WLN_AGG.convoy -/
def fWLN_AGG_convoy : Fld := ⟨.WLN_AGG, 31, 16⟩
/-- WLN_TIME.offset_ps -/
def fWLN_TIME_offset_ps : Fld := ⟨.WLN_TIME, 63, 0⟩
/-- WLN_AGG_MAP.bit -/
def fWLN_AGG_MAP_bit : Fld := ⟨.WLN_AGG_MAP, 3, 0⟩
/-- WLN_AGG_MAP.en -/
def fWLN_AGG_MAP_en : Fld := ⟨.WLN_AGG_MAP, 4, 4⟩
/-- WLN_ROUTE.port -/
def fWLN_ROUTE_port : Fld := ⟨.WLN_ROUTE, 2, 0⟩
/-- WLN_P_CTL.convoy -/
def fWLN_P_CTL_convoy : Fld := ⟨.WLN_P_CTL, 0, 0⟩
/-- WLN_P_CTL.fec_req -/
def fWLN_P_CTL_fec_req : Fld := ⟨.WLN_P_CTL, 1, 1⟩
/-- WLN_P_CTL.idle_auto -/
def fWLN_P_CTL_idle_auto : Fld := ⟨.WLN_P_CTL, 2, 2⟩
/-- WLN_P_CTL.idle_us -/
def fWLN_P_CTL_idle_us : Fld := ⟨.WLN_P_CTL, 15, 8⟩
/-- WLN_P_STAT.state -/
def fWLN_P_STAT_state : Fld := ⟨.WLN_P_STAT, 2, 0⟩
/-- WLN_P_STAT.lock -/
def fWLN_P_STAT_lock : Fld := ⟨.WLN_P_STAT, 4, 3⟩
/-- WLN_P_STAT.pre_rx -/
def fWLN_P_STAT_pre_rx : Fld := ⟨.WLN_P_STAT, 6, 5⟩
/-- WLN_P_STAT.pre_tx -/
def fWLN_P_STAT_pre_tx : Fld := ⟨.WLN_P_STAT, 8, 7⟩
/-- WLN_P_STAT.fec -/
def fWLN_P_STAT_fec : Fld := ⟨.WLN_P_STAT, 9, 9⟩
/-- WLN_P_STAT.partner -/
def fWLN_P_STAT_partner : Fld := ⟨.WLN_P_STAT, 31, 16⟩
/-- WLN_P_TAPS.lane0 -/
def fWLN_P_TAPS_lane0 : Fld := ⟨.WLN_P_TAPS, 31, 0⟩
/-- WLN_P_TAPS.lane1 -/
def fWLN_P_TAPS_lane1 : Fld := ⟨.WLN_P_TAPS, 63, 32⟩
/-- WLN_P_LAT.lat_ns -/
def fWLN_P_LAT_lat_ns : Fld := ⟨.WLN_P_LAT, 15, 0⟩
/-- WLN_P_ASYM.asym_ps -/
def fWLN_P_ASYM_asym_ps : Fld := ⟨.WLN_P_ASYM, 15, 0⟩
/-- WLN_P_DELAY.delay_ps -/
def fWLN_P_DELAY_delay_ps : Fld := ⟨.WLN_P_DELAY, 31, 0⟩
/-- WLN_P_DELAY.theta_ps -/
def fWLN_P_DELAY_theta_ps : Fld := ⟨.WLN_P_DELAY, 63, 32⟩
/-- WLN_P_ERR.crc_err -/
def fWLN_P_ERR_crc_err : Fld := ⟨.WLN_P_ERR, 15, 0⟩
/-- WLN_P_ERR.replays -/
def fWLN_P_ERR_replays : Fld := ⟨.WLN_P_ERR, 31, 16⟩
/-- WLN_P_ERR.retrains -/
def fWLN_P_ERR_retrains : Fld := ⟨.WLN_P_ERR, 47, 32⟩
/-- WLN_P_ERR.bad_ctl -/
def fWLN_P_ERR_bad_ctl : Fld := ⟨.WLN_P_ERR, 63, 48⟩
/-- WLN_P_FEC.corrected -/
def fWLN_P_FEC_corrected : Fld := ⟨.WLN_P_FEC, 31, 0⟩
/-- WLN_P_FEC.uncorrectable -/
def fWLN_P_FEC_uncorrectable : Fld := ⟨.WLN_P_FEC, 63, 32⟩
/-- WLN_P_LAUNCH.loaded -/
def fWLN_P_LAUNCH_loaded : Fld := ⟨.WLN_P_LAUNCH, 15, 0⟩
/-- WLN_P_LAUNCH.launched -/
def fWLN_P_LAUNCH_launched : Fld := ⟨.WLN_P_LAUNCH, 31, 16⟩
/-- DEV_ID.device -/
def fDEV_ID_device : Fld := ⟨.DEV_ID, 15, 0⟩
/-- DEV_ID.grade -/
def fDEV_ID_grade : Fld := ⟨.DEV_ID, 19, 16⟩
/-- DEV_ID.stepping -/
def fDEV_ID_stepping : Fld := ⟨.DEV_ID, 27, 20⟩
/-- DEV_STATUS.ready -/
def fDEV_STATUS_ready : Fld := ⟨.DEV_STATUS, 0, 0⟩
/-- DEV_STATUS.rt_write_drop -/
def fDEV_STATUS_rt_write_drop : Fld := ⟨.DEV_STATUS, 1, 1⟩
/-- DEV_STATUS.access_err -/
def fDEV_STATUS_access_err : Fld := ⟨.DEV_STATUS, 2, 2⟩
/-- DEV_UID.uid -/
def fDEV_UID_uid : Fld := ⟨.DEV_UID, 63, 0⟩
/-- DEV_IRQ.vector -/
def fDEV_IRQ_vector : Fld := ⟨.DEV_IRQ, 10, 0⟩
/-- DEV_IRQ.en -/
def fDEV_IRQ_en : Fld := ⟨.DEV_IRQ, 11, 11⟩
/-- DEV_SCRATCH.value -/
def fDEV_SCRATCH_value : Fld := ⟨.DEV_SCRATCH, 63, 0⟩
/-- PCI_LINK.speed -/
def fPCI_LINK_speed : Fld := ⟨.PCI_LINK, 3, 0⟩
/-- PCI_LINK.width -/
def fPCI_LINK_width : Fld := ⟨.PCI_LINK, 7, 4⟩
/-- PCI_ERR.bad_size -/
def fPCI_ERR_bad_size : Fld := ⟨.PCI_ERR, 15, 0⟩
/-- PCI_ERR.poisoned_in -/
def fPCI_ERR_poisoned_in : Fld := ⟨.PCI_ERR, 31, 16⟩
/-- PCI_ERR.cpl_timeout -/
def fPCI_ERR_cpl_timeout : Fld := ⟨.PCI_ERR, 47, 32⟩
/-- ETH_CTL.en -/
def fETH_CTL_en : Fld := ⟨.ETH_CTL, 0, 0⟩
/-- ETH_CTL.fec -/
def fETH_CTL_fec : Fld := ⟨.ETH_CTL, 2, 1⟩
/-- ETH_MAC.mac -/
def fETH_MAC_mac : Fld := ⟨.ETH_MAC, 47, 0⟩
/-- ETH_MAC.link -/
def fETH_MAC_link : Fld := ⟨.ETH_MAC, 48, 48⟩
/-- ETH_TXQ.queue -/
def fETH_TXQ_queue : Fld := ⟨.ETH_TXQ, 13, 0⟩
/-- ETH_TXQ.cpl_q -/
def fETH_TXQ_cpl_q : Fld := ⟨.ETH_TXQ, 29, 16⟩
/-- ETH_PTP_CTL.domain -/
def fETH_PTP_CTL_domain : Fld := ⟨.ETH_PTP_CTL, 7, 0⟩
/-- ETH_PTP_CTL.transport -/
def fETH_PTP_CTL_transport : Fld := ⟨.ETH_PTP_CTL, 9, 8⟩
/-- ETH_PTP_CTL.two_step -/
def fETH_PTP_CTL_two_step : Fld := ⟨.ETH_PTP_CTL, 10, 10⟩
/-- ETH_PTP_STAT.locked -/
def fETH_PTP_STAT_locked : Fld := ⟨.ETH_PTP_STAT, 0, 0⟩
/-- ETH_PTP_STAT.holdover -/
def fETH_PTP_STAT_holdover : Fld := ⟨.ETH_PTP_STAT, 1, 1⟩
/-- ETH_PTP_STAT.step_wanted -/
def fETH_PTP_STAT_step_wanted : Fld := ⟨.ETH_PTP_STAT, 2, 2⟩
/-- ETH_PTP_STAT.offset_ns -/
def fETH_PTP_STAT_offset_ns : Fld := ⟨.ETH_PTP_STAT, 63, 32⟩
/-- ETH_OOB.en -/
def fETH_OOB_en : Fld := ⟨.ETH_OOB, 0, 0⟩
/-- ETH_OOB.port -/
def fETH_OOB_port : Fld := ⟨.ETH_OOB, 31, 16⟩
/-- ETH_OOB.period_ms -/
def fETH_OOB_period_ms : Fld := ⟨.ETH_OOB, 47, 32⟩
/-- ETH_OOB_PEER.ipv4 -/
def fETH_OOB_PEER_ipv4 : Fld := ⟨.ETH_OOB_PEER, 31, 0⟩
/-- BNC_STATUS.stage -/
def fBNC_STATUS_stage : Fld := ⟨.BNC_STATUS, 3, 0⟩
/-- BNC_STATUS.boot_status -/
def fBNC_STATUS_boot_status : Fld := ⟨.BNC_STATUS, 11, 4⟩
/-- BNC_STATUS.dir -/
def fBNC_STATUS_dir : Fld := ⟨.BNC_STATUS, 12, 12⟩
/-- BNC_STATUS.sig_required -/
def fBNC_STATUS_sig_required : Fld := ⟨.BNC_STATUS, 13, 13⟩
/-- BNC_STATUS.fallback -/
def fBNC_STATUS_fallback : Fld := ⟨.BNC_STATUS, 14, 14⟩
/-- BNC_VERSION.binnacle -/
def fBNC_VERSION_binnacle : Fld := ⟨.BNC_VERSION, 31, 0⟩
/-- BNC_VERSION.helm -/
def fBNC_VERSION_helm : Fld := ⟨.BNC_VERSION, 63, 32⟩
/-- BNC_RESET.last -/
def fBNC_RESET_last : Fld := ⟨.BNC_RESET, 1, 0⟩
/-- BNC_RESET.trip_before -/
def fBNC_RESET_trip_before : Fld := ⟨.BNC_RESET, 2, 2⟩
/-- BNC_RESET.warm_count -/
def fBNC_RESET_warm_count : Fld := ⟨.BNC_RESET, 31, 16⟩
/-- BNC_RESET.boot -/
def fBNC_RESET_boot : Fld := ⟨.BNC_RESET, 47, 32⟩
/-- BNC_BLK_RESET.domain -/
def fBNC_BLK_RESET_domain : Fld := ⟨.BNC_BLK_RESET, 5, 0⟩
/-- BNC_BLK_RESET.go -/
def fBNC_BLK_RESET_go : Fld := ⟨.BNC_BLK_RESET, 6, 6⟩
/-- BNC_BLK_STAT.busy -/
def fBNC_BLK_STAT_busy : Fld := ⟨.BNC_BLK_STAT, 0, 0⟩
/-- BNC_BLK_STAT.err -/
def fBNC_BLK_STAT_err : Fld := ⟨.BNC_BLK_STAT, 1, 1⟩
/-- BNC_LOG_STAT.head -/
def fBNC_LOG_STAT_head : Fld := ⟨.BNC_LOG_STAT, 7, 0⟩
/-- BNC_LOG_STAT.valid -/
def fBNC_LOG_STAT_valid : Fld := ⟨.BNC_LOG_STAT, 16, 8⟩
/-- BNC_LOG_STAT.writes -/
def fBNC_LOG_STAT_writes : Fld := ⟨.BNC_LOG_STAT, 47, 32⟩
/-- BNC_LOG_STAT.suppressed -/
def fBNC_LOG_STAT_suppressed : Fld := ⟨.BNC_LOG_STAT, 63, 48⟩
/-- BNC_LOG_ENTRY.data -/
def fBNC_LOG_ENTRY_data : Fld := ⟨.BNC_LOG_ENTRY, 63, 0⟩
/-- PWR_ON.on -/
def fPWR_ON_on : Fld := ⟨.PWR_ON, 35, 0⟩
/-- PWR_SWITCHING.pending -/
def fPWR_SWITCHING_pending : Fld := ⟨.PWR_SWITCHING, 35, 0⟩
/-- PWR_REQ.domain -/
def fPWR_REQ_domain : Fld := ⟨.PWR_REQ, 5, 0⟩
/-- PWR_REQ.on -/
def fPWR_REQ_on : Fld := ⟨.PWR_REQ, 6, 6⟩
/-- PWR_REQ.go -/
def fPWR_REQ_go : Fld := ⟨.PWR_REQ, 7, 7⟩
/-- PWR_RESULT.status -/
def fPWR_RESULT_status : Fld := ⟨.PWR_RESULT, 15, 0⟩
/-- PWR_RESULT.done -/
def fPWR_RESULT_done : Fld := ⟨.PWR_RESULT, 16, 16⟩
/-- THM_TEMP.temp -/
def fTHM_TEMP_temp : Fld := ⟨.THM_TEMP, 15, 0⟩
/-- THM_TEMP.rise -/
def fTHM_TEMP_rise : Fld := ⟨.THM_TEMP, 31, 16⟩
/-- THM_TEMP.peak -/
def fTHM_TEMP_peak : Fld := ⟨.THM_TEMP, 47, 32⟩
/-- THM_CFG.warn -/
def fTHM_CFG_warn : Fld := ⟨.THM_CFG, 15, 0⟩
/-- THM_CFG.act -/
def fTHM_CFG_act : Fld := ⟨.THM_CFG, 31, 16⟩
/-- THM_CFG.skip_n -/
def fTHM_CFG_skip_n : Fld := ⟨.THM_CFG, 36, 32⟩
/-- THM_CFG.div -/
def fTHM_CFG_div : Fld := ⟨.THM_CFG, 38, 37⟩
/-- THM_STAT.state -/
def fTHM_STAT_state : Fld := ⟨.THM_STAT, 1, 0⟩
/-- THM_STAT.limit_hit -/
def fTHM_STAT_limit_hit : Fld := ⟨.THM_STAT, 2, 2⟩
/-- THM_STAT.cfg_err -/
def fTHM_STAT_cfg_err : Fld := ⟨.THM_STAT, 3, 3⟩
/-- THM_STAT.warn_count -/
def fTHM_STAT_warn_count : Fld := ⟨.THM_STAT, 31, 16⟩
/-- THM_STAT.act_count -/
def fTHM_STAT_act_count : Fld := ⟨.THM_STAT, 47, 32⟩
/-- THM_LIMIT.level -/
def fTHM_LIMIT_level : Fld := ⟨.THM_LIMIT, 15, 0⟩
/-- THM_LIMIT.vector -/
def fTHM_LIMIT_vector : Fld := ⟨.THM_LIMIT, 26, 16⟩
/-- THM_LIMIT.irq_en -/
def fTHM_LIMIT_irq_en : Fld := ⟨.THM_LIMIT, 27, 27⟩
/-- THM_EVQ.queue -/
def fTHM_EVQ_queue : Fld := ⟨.THM_EVQ, 13, 0⟩

end Sys2Proof.Machine
end

