-- ==== Sys2Proof/Machine/State.lean ====
section
/-! DEFINITION. The state of the block as plain data: every register of the address map in one bank, and the machinery behind
the registers (odometers, queues, rings, jobs, pilots, memory and so on) in one structure for each block of the device. The
machine right after cold reset stands at the end. -/

namespace Sys2Proof.Machine

/-- The status codes that a completion or a report carries (R378). -/
inductive Status where
  | ok | busyNotReady | opcodeUnknown | paramInvalid | ringInvalid | expertOnly | deadline | aborted | fixBusy | hostError
  | memBusy | memRange | memPoison | memFault | segmentLost | chartBusy | chartRange | chartFault | chartNoFault
  | routeInvalid | jobBusy | jobInvalid | pinCount | pinClaimed | pilotBusy | rtBudget | gradeLimit | legLate
  | jobSuspended | contextLost | siteInvalid | jobNotRunning
  | levelRange | levelSettling | pinBusy | pinPoweredDown
  | almanacRange | timingRange | almanacBusy
  | adcRange | adcBusy | sextantBusy
  | acqConfig | acqIdle | acqOverwritten
  | ddsBusy | ddsRange
  | meridianKind | meridianRange | meridianUnlocked | meridianBusy | meridianOff | slewClamped | milestoneFull
  | milestonePast | alreadyFired | syncOffset | milestoneUnknown
  | linkDown | nodeUnknown | convoyRefused | musterMismatch
  | microcodeMismatch | microcodeBusy | microcodeLost | microcodeInvalid | clusterFault
  | domainBusy | thermalAct
  deriving DecidableEq, Repr

/-- The 16-bit code of a status (R378). -/
def Status.code : Status → Nat
  | .ok => 0x0000 | .busyNotReady => 0x0001 | .opcodeUnknown => 0x0002 | .paramInvalid => 0x0003
  | .ringInvalid => 0x0004 | .expertOnly => 0x0005 | .deadline => 0x0006 | .aborted => 0x0007
  | .fixBusy => 0x0008 | .hostError => 0x0009
  | .memBusy => 0x0101 | .memRange => 0x0102 | .memPoison => 0x0103 | .memFault => 0x0104 | .segmentLost => 0x0105
  | .chartBusy => 0x0106 | .chartRange => 0x0107 | .chartFault => 0x0108 | .chartNoFault => 0x0109
  | .routeInvalid => 0x0201 | .jobBusy => 0x0202 | .jobInvalid => 0x0203 | .pinCount => 0x0204 | .pinClaimed => 0x0205
  | .pilotBusy => 0x0206 | .rtBudget => 0x0207 | .gradeLimit => 0x0208 | .legLate => 0x0209 | .jobSuspended => 0x020A
  | .contextLost => 0x020B | .siteInvalid => 0x020C | .jobNotRunning => 0x020D
  | .levelRange => 0x0301 | .levelSettling => 0x0302 | .pinBusy => 0x0303 | .pinPoweredDown => 0x0304
  | .almanacRange => 0x0401 | .timingRange => 0x0402 | .almanacBusy => 0x0403
  | .adcRange => 0x0501 | .adcBusy => 0x0502 | .sextantBusy => 0x0503
  | .acqConfig => 0x0601 | .acqIdle => 0x0602 | .acqOverwritten => 0x0603
  | .ddsBusy => 0x0701 | .ddsRange => 0x0702
  | .meridianKind => 0x0801 | .meridianRange => 0x0802 | .meridianUnlocked => 0x0803 | .meridianBusy => 0x0804
  | .meridianOff => 0x0805 | .slewClamped => 0x0806 | .milestoneFull => 0x0807 | .milestonePast => 0x0808
  | .alreadyFired => 0x0809 | .syncOffset => 0x080A | .milestoneUnknown => 0x080B
  | .linkDown => 0x0901 | .nodeUnknown => 0x0902 | .convoyRefused => 0x0903 | .musterMismatch => 0x0904
  | .microcodeMismatch => 0x0A01 | .microcodeBusy => 0x0A02 | .microcodeLost => 0x0A03 | .microcodeInvalid => 0x0A04
  | .clusterFault => 0x0A05
  | .domainBusy => 0x0B01 | .thermalAct => 0x0B02

/-- Why the block stops with a fault. -/
inductive Fault where
  /-- A pin outside the survival range of R5, for which the spec defines no behaviour. Raised by OVERVOLTAGE. Safe: the
  hardware may go on. -/
  | pinSurvival
  deriving DecidableEq, Repr

/-- Why the block has no meaning for a command. -/
inductive Refusal where
  /-- The command's meaning is not written yet; raised by the arms of exec only. Safe: nothing is said of the command. -/
  | notModelled (mnemonic : String)
  deriving DecidableEq, Repr

/-! ### Meridians and milestones (chapter 02) -/

/-- MER_STATUS.state (R41, R42). -/
inductive MerState where
  | off | acquiring | running | held
  deriving DecidableEq, Repr

/-- The kinds of a meridian (R31). -/
inductive MerKind where
  | localM | tracked | wall
  deriving DecidableEq, Repr

/-- A meridian's configuration in force (R38 to R40). -/
structure MerCfg where
  kind : MerKind := .localM
  fword : Nat := 0
  source : Nat := 0
  pin : Nat := 0
  falling : Bool := false
  m : Nat := 1
  n : Nat := 1
  bw : Nat := 0
  fminKhz : Nat := 0
  fmaxKhz : Nat := 0
  deriving DecidableEq, Repr

/-- A meridian unit: the odometer is held as its reading at one instant and the rate since (R33, R34). -/
structure Meridian where
  st : MerState := .off
  cfg : MerCfg := {}
  /-- the instant of the anchor, in thirds of a femtosecond -/
  anchorT : Nat := 0
  /-- the reading at the anchor, in 2^-24 cycles -/
  anchorR : Nat := 0
  /-- how many times 2^64 cycles lie below that reading: MER7's seconds count on beyond its odometer (R46) -/
  wraps : Nat := 0
  /-- how far beyond that reading the anchor stands, so that a change of rate loses nothing (R34): see fineDen -/
  anchorRem : Nat := 0
  /-- the rate while running, in frequency-word units, times rateDiv (R37, R39) -/
  rate : Nat := 0
  /-- the divisor N of a tracked rate f_in × M / N; 1 otherwise -/
  rateDiv : Nat := 1
  /-- the slew's frequency term, parts per 10^9 (R49) -/
  freqPpb : Int := 0
  /-- the slew's phase offset still to be removed at the anchor, ps (R49) -/
  phasePs : Int := 0
  /-- how many slews it has been given -/
  slews : Nat := 0
  deriving DecidableEq, Repr

/-- A milestone pending at the scheduler (R52). The list of pending milestones stands in commit order (R55). -/
structure Milestone where
  id : Nat
  mer : Nat
  action : Nat
  target : Nat
  late : Bool
  /-- it was committed late under late policy 1 (R54) -/
  foundLate : Bool
  reportQ : Nat
  /-- target reading in 2^-24 cycles -/
  at88 : Nat
  arg : Nat
  arg2 : Nat
  job : Nat
  deriving DecidableEq, Repr

/-- The milestone scheduler (R52 to R57). -/
structure MsSched where
  pending : List Milestone := []
  nextId : Nat := 1
  /-- ids that have fired -/
  fired : List Nat := []
  deriving DecidableEq, Repr

/-! ### Depot and Switchyard (chapter 16) -/

/-- What waits in hardware or as a held task for room in a full queue (R386, R394). -/
inductive Sender where
  | task (t : Nat)
  | block
  /-- a DMA channel with its completion or fill element: it takes no further descriptor until both are committed (R353) -/
  | dma (ch : Nat)
  /-- the Wayline service with a message: the port that it came in on and the MSG_ACK to send (R420) -/
  | wayline (port : Nat) (ack : Flit)
  deriving DecidableEq, Repr

/-- A queue's contents (R393, R394): elements oldest first, how many of them lie in the SRAM share, held senders in
order with their elements, and the entries dropped in the present pause with the count committed before the first. -/
structure DQueue where
  elems : List Nat := []
  inSram : Nat := 0
  held : List (Sender × Nat) := []
  dropping : Bool := false
  dropped : Nat := 0
  dropSeq : Nat := 0
  deriving DecidableEq, Repr

/-- The Depot beyond its registers: the queues and the staging buffer that all queue pages share (R398). -/
structure Depot where
  queues : Bank Nat DQueue := []
  /-- writes of spilled elements that the spill port DS has still to offer, oldest first: HPA, real-time or not, bytes (R393) -/
  spills : List (Nat × Bool × List Byte) := []
  stageQ : Nat := 0
  stage : Nat := 0
  staged : Bool := false
  deriving DecidableEq, Repr

/-- The states of a task (R382). -/
inductive TaskState where
  | free | ready | running | waiting | delayed | held
  deriving DecidableEq, Repr

/-- A task slot of the Switchyard (R382). -/
structure Task where
  st : TaskState := .free
  prio : Nat := 0
  hart : Nat := 0
  queue : Nat := 0
  flags : Nat := 0
  mask : Nat := 0
  all : Bool := false
  consume : Bool := false
  exp : Nat := 0
  /-- the final code and flags that SWY_H_RES shows when the task, having left running by code 2, is next switched in (R385) -/
  resCode : Nat := 0
  resFlags : Nat := 0
  resDue : Bool := false
  /-- deleted while running: ends at its next operation with code 7 (R385) -/
  deleted : Bool := false
  deriving DecidableEq, Repr

/-- A hart as the Switchyard sees it (R383, R384). -/
structure Hart where
  cur : Option Nat := none
  dispatch : Bool := false
  /-- the current task has left running by code 2 -/
  left : Bool := false
  deriving DecidableEq, Repr

/-- The Switchyard: tasks, the ready order, the delay list sorted by expiry and insertion (R389), the harts, the tick period in
force and one that waits to take effect (R388). -/
structure Switchyard where
  tasks : Bank Nat Task := []
  ready : List Nat := []
  delays : List Nat := []
  harts : Bank Nat Hart := []
  newPeriod : Option Nat := none
  period : Nat := 1600
  deriving DecidableEq, Repr

/-! ### Helm (chapter 15) -/

/-- A completion before it is committed to its mirror slot (R367). -/
structure Cpl where
  tag : Nat
  status : Nat
  detail : Nat := 0
  /-- r0 in bits [31:0], r1 in bits [63:32] -/
  result : Nat := 0
  dup : Bool := false
  late : Bool := false
  isPartial : Bool := false
  prompt : Bool := false
  irq : Bool := false
  /-- the packet's expiry and the steps made, for a deadline that comes before the commit (R372) -/
  expiry : Nat := 0
  steps : Nat := 0
  deriving DecidableEq, Repr

/-- A packet that the front end has admitted and no hart has begun: its 64 bytes and the MER0 reading, in cycles, at which
its deadline expires (R371; 0 = none). -/
structure Pkt where
  bytes : Nat
  expiry : Nat
  deriving DecidableEq, Repr

/-- What a begun command waits for before it completes. -/
inductive WaitFor where
  | nothing
  | settled (pins : Nat)
  | milestone (id : Nat)
  | unitResult (u : Nat)
  | selfCheck
  | inject (sar : Nat)
  | powerUp (domain : Nat)
  | powerDown (domain : Nat)
  | fix
  | message (seq : Nat)
  | muster
  | ringEmpty (ring : Nat)
  | training (port : Nat)
  deriving DecidableEq, Repr

/-- Who sent a command: a ring, or a convoy member through FWD_CMD (R421). -/
inductive Origin where
  | ring (r : Nat)
  | member (node port xid : Nat)
  deriving DecidableEq, Repr

/-- A begun command that has not completed. -/
structure Running where
  origin : Origin
  /-- the objects that the command names (R368): kind and number -/
  objs : List (Nat × Nat)
  tag : Nat
  quiet : Bool
  irq : Bool
  prompt : Bool
  expiry : Nat
  steps : Nat
  job : Nat
  why : WaitFor
  /-- what the completion carries when the wait ends with OK -/
  result : Nat
  detail : Nat
  /-- where a result element goes: HPA-free address, space, length (0 = nowhere) -/
  dst : Nat
  space : Nat
  deriving DecidableEq, Repr

/-- A ring beyond its registers (R361 to R364, R370). -/
structure Ring where
  /-- the 64-byte staging buffer -/
  stage : Nat := 0
  untaken : List Pkt := []
  /-- tags of the last 64 packets with their completions, newest first -/
  window : List (Nat × Option Cpl) := []
  cplWait : List Cpl := []
  /-- completions committed and not signalled, and the instant of the first of them -/
  unsig : Nat := 0
  unsigAt : Nat := 0
  /-- duplicates whose original still executes: tag, irq flag and quiet flag (R370) -/
  dupWait : List (Nat × Bool × Bool) := []
  /-- moderation count and time in µs (R364) -/
  modCount : Nat := 0
  modTime : Nat := 0
  /-- refuses new packets: a RING_DELETE is waiting -/
  deleting : Bool := false
  deriving DecidableEq, Repr

/-- A fix being written (R379): its source, the record latched, its destination. -/
structure FixJob where
  source : Nat
  record : List Byte
  dst : Nat
  dva : Bool
  space : Nat
  deriving DecidableEq, Repr

/-- A forwarded command that no hart has begun (R421): its sender, the port that it came by, its transaction, its 64 bytes and its
expiry. -/
structure Forwarded where
  node : Nat
  port : Nat
  xid : Nat
  bytes : Nat
  expiry : Nat
  deriving DecidableEq, Repr

/-- Helm beyond its registers. -/
structure Helm where
  rings : Bank Nat Ring := []
  running : List Running := []
  fix : Option FixJob := none
  fixSeq : Nat := 0
  /-- the fix record's counters (R380), by position 0 to 21 -/
  counters : Bank Nat Nat := []
  /-- harts 0 to 3: running (SCRIPT_CTL for harts 2 and 3) -/
  hartRun : Nat := 0
  /-- scripts loaded on harts 2 and 3, by their digests -/
  scripts : Bank Nat (List Byte) := []
  forwarded : List Forwarded := []
  deriving DecidableEq, Repr

/-! ### Host port, Ethernet, Binnacle (chapters 18 to 20) -/

/-- A register write that the milestone scheduler has still to deliver (R12). -/
structure RegWrite where
  addr : Nat
  size : Nat
  value : Nat
  deriving DecidableEq, Repr

/-- A doorbell write held behind earlier BAR2 writes (R27). -/
structure HeldBell where
  addr : Nat
  bytes : List Byte
  deriving DecidableEq, Repr

/-- How a BAR2 access of the host ended (R357). -/
inductive HostReply where
  | data (v : List Byte)
  | abort
  | unsupported
  | poisoned
  deriving DecidableEq, Repr

/-- A host read through BAR2 that waits (R314, R329): its pieces, each within a beat, by HPA and length, with what came back and
whether it was poisoned. -/
structure HeldRead where
  parts : List (Nat × Nat × Option (List Byte × Bool))
  deriving DecidableEq, Repr

/-- The power states of the function (R435). -/
inductive PciPower where
  | d0 | d3hot
  deriving DecidableEq, Repr

/-- The PCIe port beyond its registers: host memory, MSI-X table, pending bits and messages sent, waiting register writes,
held doorbells and the answers to reads. -/
structure HostPort where
  mem : Bank Nat Byte := []
  msixTable : Bank Nat Nat := []
  msixPending : Bank Nat Bool := []
  msixEnable : Bool := false
  msiSent : List Nat := []
  deliver : List RegWrite := []
  bells : List HeldBell := []
  /-- BAR2 writes not yet acknowledged -/
  bar2Out : Nat := 0
  /-- BAR2 reads that wait, oldest first -/
  held : List HeldRead := []
  reply : Option HostReply := none
  /-- answer of the last REGISTER_READ: size in bytes and value; size 0 = Unsupported Request -/
  readSize : Nat := 0
  readValue : Nat := 0
  perst : Bool := false
  /-- the function's power state (R435) -/
  power : PciPower := .d0
  deriving DecidableEq, Repr

/-- A frame of the Ethernet transmit path: tag, bytes, and the departure reading. -/
structure EthFrame where
  tag : Nat
  bytes : List Byte
  stamp : Nat
  deriving DecidableEq, Repr

/-- The Ethernet port beyond its registers (R443 to R447). -/
structure Eth where
  /-- the frame waiting for its launch reading -/
  launch : Option EthFrame := none
  launchAt : Nat := 0
  sent : List EthFrame := []
  datagrams : List (List Byte) := []
  /-- telemetry datagrams sent, and the instant from which the next period counts -/
  oobSeq : Nat := 0
  oobAt : Nat := 0
  /-- stamps of PTP event messages, newest first: MER7 readings in 2^-24 cycles (R444) -/
  stamps : List Nat := []
  /-- the instant of the last Sync received (R445) -/
  lastSync : Nat := 0
  deriving DecidableEq, Repr

/-- The states of a TAP controller under IEEE 1149.1 (R495; the names are the standard's: PRESUMED, assumption 78). -/
inductive TapState where
  | testLogicReset | runTestIdle
  | selectDr | captureDr | shiftDr | exit1Dr | pauseDr | exit2Dr | updateDr
  | selectIr | captureIr | shiftIr | exit1Ir | pauseIr | exit2Ir | updateIr
  deriving DecidableEq, Repr

/-- Binnacle beyond its registers: heat history, thermal counters, Logbook bookkeeping, power switching, straps and balls. -/
structure Bnc where
  /-- the latest 272 sensor readings, newest first (R463) -/
  readings : List Int := []
  /-- consecutive samples toward leaving warn or act -/
  calm : Nat := 0
  logSeq : Nat := 0
  logTimes : List Nat := []
  /-- cold boots since manufacture -/
  bootCount : Nat := 0
  /-- the instant of PWRGD, or of the release of RESET_N, from which boot times count (R457, R471) -/
  bootAt : Nat := 0
  /-- version of the vendor microcode in the directory used (R458, R380) -/
  mcVersion : Nat := 0
  /-- the QSPI log region's records, oldest first, and the newest Logbook seq appended (R472) -/
  qspiLog : List Nat := []
  qspiSeq : Nat := 0
  /-- domains that are down after having been up: bit per domain -/
  down : Nat := 0
  /-- powering up: bit per domain -/
  rising : Nat := 0
  /-- the instants at which domains will be up -/
  riseEnd : Bank Nat Nat := []
  /-- to be powered down as soon as the power-up ends: bit per domain -/
  downNext : Nat := 0
  /-- to be powered up as soon as the pending power-down is served: bit per domain (R450) -/
  upNext : Nat := 0
  /-- per-block resets waiting or in progress: bit per domain (R455) -/
  blkReset : Nat := 0
  /-- domain and on of the PWR_REQ in progress -/
  pwrReq : Option (Nat × Bool) := none
  straps : Nat := 0
  /-- the state of the JTAG TAP controller (R495) -/
  tap : TapState := .testLogicReset
  /-- levels of GPIO0 to GPIO7, bit per ball (R492) -/
  gpio : Nat := 0
  /-- THERM_TRIP_N is asserted (R466) -/
  thermTrip : Bool := false
  /-- the present alert has been answered on SMBus (R494) -/
  alertAck : Bool := false
  /-- edges placed at MSYNC_OUT: polarity and instant (R53) -/
  msyncOut : List (Bool × Nat) := []
  /-- the SMBus port's last answer (R494) -/
  smb : Option Nat := none
  /-- the trip state holds every pin (R466, R471) -/
  tripped : Bool := false
  /-- eFuse: signatures are required, and the SHA-384 of the key as a number, its first byte lowest (R457, R459) -/
  fuseSig : Bool := false
  fuseKey : Nat := 0
  /-- the QSPI flash outside its log region, by byte; an erased byte is 0xFF (R458, R459) -/
  flash : Bank Nat Byte := []
  deriving DecidableEq, Repr

/-! ### Pins, the Almanac, Pilots and jobs (chapters 03 to 08) -/

/-- What a vector makes a pin do, after the Legend (R121, R125): drives carry their data level. -/
inductive PAct where
  | drive (level : Bool)
  | off
  | cmpLow | cmpHigh | cmpMid
  | none
  | capture
  | dds
  deriving DecidableEq, Repr

/-- What a pin's driver does at present. -/
inductive Drive where
  | off | low | high | dds
  deriving DecidableEq, Repr

/-- A vector in a pin's issue queue (R28): index, resolved action, Almanac entry, row position, and how its result counts. -/
structure PVec where
  index : Nat
  act : PAct
  entry : Nat
  pos : Nat
  /-- total capture is on for this position at this vector (R203) -/
  total : Bool
  deriving DecidableEq, Repr

/-- An edge placed at a pin: vector index, what it does, its meridian reading in 2^-24 cycles and its instant. -/
structure Edge where
  index : Nat
  act : Drive
  at88 : Nat
  time : Nat
  /-- R102 has moved it, and it has been counted -/
  moved : Bool := false
  deriving DecidableEq, Repr

/-- A sample taken at a pin whose result has not reached the fail logic (R30): opening and closing instants, the readings that they
stand for in 2^-24 cycles, and whether it is a strobe (R102): the offset-0 sample of total capture is none. -/
structure Sample where
  index : Nat
  pos : Nat
  act : PAct
  window : Bool
  total : Bool
  opens : Nat
  closes : Nat
  open88 : Nat := 0
  close88 : Nat := 0
  strobe : Bool := true
  /-- R102 has moved it, and it has been counted -/
  moved : Bool := false
  deriving DecidableEq, Repr

/-- A 256-byte total-capture block on its way to HBM: its address, its space, its Pilot, its bytes as a number, and the slots whose
codes were lost, a bit each (R204, R207). -/
structure CapBlock where
  dva : Nat
  space : Nat
  pilot : Nat
  data : Nat
  lost : Nat := 0
  deriving DecidableEq, Repr

/-- A pin beyond its registers. -/
structure Pin where
  /-- live comparator state (R74) -/
  cmp : Nat := 0
  issueQ : List PVec := []
  drive : Drive := .off
  edges : List Edge := []
  samples : List Sample := []
  lastTrans : Option Nat := none
  /-- transitions of the wave that it shows which R102 moves: natural instant, realised instant, level after it (R259) -/
  waveMoved : List (Nat × Nat × Bool) := []
  lastOpen : Option Nat := none
  lastClose : Nat := 0
  /-- the previous resolved action and the level last driven in the leg (R125) -/
  prevAct : PAct := .none
  prevNoFail : Bool := false
  lastLevel : Option Bool := none
  /-- the capture FIFO (R181, R204): finished blocks, the block under way, how many of its slots are past, and those whose codes did
  not fit (R207) -/
  capQ : List CapBlock := []
  capCur : Nat := 0
  capCodes : Nat := 0
  capLost : Nat := 0
  /-- its quad has powered up and its levels have not settled: the pin is in park (R66, R83) -/
  risen : Bool := false
  /-- the instant at which the PMU or the analogue bus was last asked for, or last let go (R65) -/
  anaAt : Option Nat := none
  deriving DecidableEq, Repr

/-- A check-bit defect of a stored Almanac entry, control-store word or dispatch entry (R114, R168). -/
inductive EccMark where
  | clean | single | double
  deriving DecidableEq, Repr

/-- The Almanac: entries by set x 64 + pin, their defects, and the staging buffer (R110). -/
structure Almanac where
  entries : Bank Nat Nat := []
  marks : Bank Nat EccMark := []
  stageKey : Option Nat := none
  stage : Nat := 0
  deriving DecidableEq, Repr

/-- A cluster's control store (R151): whether Binnacle has written the vendor region, the digest of the vendor image that it wrote from
QSPI (none: the flash holds none, and the region's words are free), the words and dispatch entries, the defects of all, the words whose
blocks wait for their reload, oldest first, and the lead copies of the entries' first words by opcode (R152). Dispatch entry op stands
at 16384 + op. -/
structure Cluster where
  vendor : Bool := false
  image : Option Nat := none
  words : Bank Nat Nat := []
  marks : Bank Nat EccMark := []
  reload : List Nat := []
  lead : Bank Nat (Option Nat) := []
  deriving DecidableEq, Repr

/-- The states of a Pilot (PLT_STATUS.state). -/
inductive PilotState where
  | noJob | between | awaiting | inLeg | holding | trap | context
  deriving DecidableEq, Repr

/-- Where a run's vectors come from (R127, R161). -/
inductive RunSource where
  | rows | repeatRow | pad | hold | scan (group : Nat) | matchBody
  deriving DecidableEq, Repr

/-- What follows a run, or what the Pilot waits for before the next instruction: the next instruction; the decision of JMP_FAIL
or JMP_PASS; of PV_CAPT; of MATCH; the completion of a microword; its waiting; a branch whose slot is filling; the end of a waypoint hold; the hold of JMP_ABS until its target is fetched. -/
inductive After where
  | next
  | failBranch (onFail : Bool) (group branch upTo : Nat)
  | pvCapt (bit : Bool) (v mask index : Nat)
  | matchLoop
  | word (w : Nat)
  | wait (w count : Nat)
  | branch (instr row scan : Nat)
  | holdEnd
  | absolute (instr row : Nat)
  deriving DecidableEq, Repr

/-- A run in progress: how many vectors are left, and how many it has issued. -/
structure Run where
  src : RunSource
  left : Nat
  after : After
  done : Nat := 0
  /-- its vectors are treated as no_fail (R163) -/
  noFail : Bool := false
  /-- for a word: its test, and the waypoint's hold row, as the last completed word left them (R155) -/
  test : Bool := false
  way : Option Nat := none
  deriving DecidableEq, Repr

/-- A vector whose results are not all known (R198): positions still awaited, positions that failed, states at the strobe two
bits a position, positions that sampled, positions that capture CT, the match iteration it belongs to (0 = none) with the
group's positions, and positions whose compare is under no_fail. -/
structure VRes where
  index : Nat
  waiting : Nat
  /-- the positions that take a sample at all (R203) -/
  all : Nat := waiting
  failed : Nat := 0
  states : Nat := 0
  /-- total-capture codes, two bits a position (R203) -/
  codes : Nat := 0
  sampled : Nat
  ct : Nat
  iter : Nat
  group : Nat
  noFail : Nat
  /-- every strobe of the vector was cut off by the end of its leg: nothing of it is recorded (R186) -/
  cut : Bool := false
  deriving DecidableEq, Repr

/-- What a route instruction leaves to be done when the next period begins, or for a report at the leg's end (R139, R142). -/
inductive Deferred where
  /-- a report: queue, and the element but for the fields that the next vector's index and reading fill -/
  | post (queue elem : Nat)
  | window (ch opens len : Nat)
  | arm (mask : Nat) (on : Bool)
  | hop (e entry : Nat)
  deriving DecidableEq, Repr

/-- A match loop (R147, R148). -/
structure MatchLoop where
  k : Nat
  limit : Nat
  group : Nat
  branch : Nat
  rows : List Nat
  /-- vectors issued of the present iteration -/
  inBody : Nat
  /-- the index of the last vector of each issued iteration, oldest first -/
  ends : List Nat
  /-- iterations known to have failed -/
  failed : List Nat
  /-- iterations known to have passed -/
  passed : List Nat := []
  /-- pads have begun after the limit -/
  padding : Bool
  deriving DecidableEq, Repr

/-- A loop level (R138): counter, top as branch index, and the pinned body in stream bytes (equal when not pinned). -/
structure LoopLevel where
  counter : Nat
  top : Nat
  pinLo : Nat
  pinHi : Nat
  deriving DecidableEq, Repr

/-- A slip window (R59): bounds and offset in 2^-24 cycles. -/
structure Slip where
  src : Nat
  sel : Nat
  falling : Bool
  lo : Nat
  hi : Nat
  offset : Nat
  fault : Bool
  deriving DecidableEq, Repr

/-- A fail-log run that is open on a site (R200). -/
structure LogRun where
  first : Nat
  mask : Nat
  run : Nat
  deriving DecidableEq, Repr

/-- A filled target-buffer slot (R130): the target, the first 4 KiB of vector stream and the first 1 KiB of instruction stream there,
least recently used first. -/
structure Slot where
  instr : Nat
  row : Nat
  scan : Nat
  bytes : List Byte
  code : List Byte
  deriving DecidableEq, Repr

/-- The sequencer of a Pilot (R154 to R163, R177). -/
structure Seq where
  pc : Nat := 0
  row : Nat := 0
  scan : Nat := 0
  next : Nat := 0
  opr : Nat := 0
  inRoutine : Bool := false
  upc : Nat := 0
  mstack : List Nat := []
  waitCount : Nat := 0
  run : Option Run := none
  lc : Bank Nat Nat := []
  loops : List LoopLevel := []
  calls : List (Nat × Nat × Nat) := []
  latch : Option (Nat × Nat × Nat) := none
  a : Bank Nat Nat := []
  u : Bank Nat Nat := []
  z : Bool := false
  n : Bool := false
  c : Bool := false
  v : Bank Nat Nat := []
  bank : Nat := 0
  tset : Nat := 0
  failGroup : Nat := 0
  scanGroup : Nat := 0
  waypoint : Option Nat := none
  /-- a vector has been issued since the waypoint was declared: its hold vectors (R160, R194) -/
  pastWay : Bool := false
  /-- the dispatch entry of the routine under way, and whether its first word has yet to complete (R166, R167) -/
  entry : Nat := 0
  first : Bool := false
  odoCmp : Nat := 0
  odoLate : Bool := false
  /-- the stride is closed: the next STRIDE opens another (R127, R166) -/
  closed : Bool := false
  /-- a branch has been taken since the last vector: the next one begins a new run (R149) -/
  jumped : Bool := false
  /-- the word that a breakpoint stopped runs next without stopping again (R174) -/
  passBrk : Bool := false
  deriving DecidableEq, Repr

/-- The leg that runs, or ran last (R131 to R135): table index, its 32-byte entry, S in 2^-24 cycles, the number of periods
begun, results in index order, and what ends it. -/
structure Leg where
  index : Nat := 0
  entry : Nat := 0
  s88 : Nat := 0
  begun : Nat := 0
  /-- END_LEG taken: 1, with last: 2; ended by a cause: 3 -/
  ending : Nat := 0
  results : List VRes := []
  failMark : Nat := 0
  fails : List (Nat × Nat) := []
  /-- comparator states by index of the last vectors, for PV_CAPT -/
  lastIndex : Nat := 0
  lastStates : Nat := 0
  lastSampled : Nat := 0
  /-- PV_CAPT waits for the states of this index -/
  keepIndex : Option Nat := none
  matchSt : Option MatchLoop := none
  /-- indices from which the first-fail register is armed anew, oldest first (R139, R198) -/
  ffArms : List Nat := []
  logRuns : Bank Nat (Option LogRun) := []
  logCount : Bank Nat Nat := []
  dropAt : Bank Nat (Option Nat) := []
  parkFrom : Bank Nat (Option Nat) := []
  slip : Option Slip := none
  slipLeg : Bool := false
  /-- what acts when the period of an index begins (R139, R142) -/
  acts : List (Nat × Deferred) := []
  recorded : Nat := 0
  /-- vectors whose codes were recorded (R186, R208) -/
  taken : Nat := 0
  deriving DecidableEq, Repr

/-- A Pilot's capture and stream bookkeeping (R187 to R208). -/
structure Streams where
  /-- vector-stream bytes fetched and not consumed: their first offset and the bytes -/
  fifoLo : Nat := 0
  fifo : List Byte := []
  slots : List Slot := []
  /-- instruction bytes that the slot last branched to gave, and the index of the first (R130) -/
  codeLo : Nat := 0
  code : List Byte := []
  /-- floor of the last release element; the next missing offset found -/
  lastRel : Nat := 0
  need : Option Nat := none
  /-- total-capture positions on, CT positions on -/
  total : Nat := 0
  ct : Nat := 0
  /-- next total-capture and CT-capture write offsets, the leg's plane offset -/
  tcNext : Nat := 0
  ctNext : Nat := 0
  plane : Nat := 0
  /-- CT records in the present block of 1,024 vectors, and that block -/
  ctBlock : Nat := 0
  ctInBlock : Nat := 0
  /-- CT records on their way: the pin whose capture FIFO holds it, address, space, record (R205) -/
  ctQ : List (Nat × Nat × Nat × Nat) := []
  /-- regions that have ended (R206): bit 0 total capture, bit 1 CT -/
  full : Nat := 0
  /-- region_full, wrapped, fifo_lost and ct_dropped of the marker to come (R208) -/
  flags : Nat := 0
  firstLost : Option Nat := none
  /-- markers that wait for capture writes: queue and element (R208) -/
  markers : List (Nat × Nat) := []
  deriving DecidableEq, Repr

/-- A Pilot beyond its registers. -/
structure Pilot where
  st : PilotState := .noJob
  job : Nat := 0
  /-- the route's header and row table, loaded at job start (R115, R120) -/
  hdr : Nat := 0
  rowtab : List Nat := []
  /-- the stream descriptor, loaded at job start (R187); 0 = none -/
  strDesc : Nat := 0
  legend0 : Nat := 0
  legend1 : Nat := 0
  q : Seq := {}
  leg : Leg := {}
  str : Streams := {}
  /-- end reading of the last completed leg (R132) -/
  e88 : Nat := 0
  legsDone : Nat := 0
  dropPersist : Nat := 0
  maskNext : Nat := 0
  /-- sites dropped between legs, for the next leg (R218) -/
  dropNext : Nat := 0
  /-- the leg-table index awaited between legs, and its entry -/
  awaitLeg : Nat := 0
  awaitEntry : Nat := 0
  /-- first leg after a resume waits for a milestone whatever its mode (R225) -/
  resumed : Bool := false
  trapFrame : Nat := 0
  trapWait : Nat := 0
  /-- the state in which the trap found the Pilot, .noJob while its route is being loaded (R173, R347), and whether the trapped word is the
  next to run: a deferred cause is an earlier word's (R174, R175) -/
  trapFrom : PilotState := .between
  trapNext : Bool := true
  /-- the word or entry of a trap that waits for its reload (R170, R174) -/
  trapKey : Nat := 0
  /-- END_LEG with last = 1 has been taken: the job ends when the trap at its leg's end is resolved (R175) -/
  lastLeg : Bool := false
  preempt : Option Nat := none
  handover : Nat := 0
  suspended : List Nat := []
  /-- sites that have a first-fail entry in the present arm (R199) -/
  ffSites : Nat := 0
  holdVecs : Nat := 0
  /-- the row beyond the waypoint at which the Pilot holds, and the targets whose slots it waits for (R195) -/
  holdAt : Option Nat := none
  holdTgts : List (Nat × Nat × Nat) := []
  deriving DecidableEq, Repr

/-- The states of a job (R380). -/
inductive JobState where
  | undefined | defined | awaiting | running | suspended | ended
  deriving DecidableEq, Repr

/-- A job-table entry: its state, the 512-byte descriptor as one number (R213), the end code of its last leg, and the leg-0
milestone. -/
structure Job where
  st : JobState := .undefined
  desc : Nat := 0
  endCode : Nat := 0
  leg0 : Nat := 0
  /-- index and end reading of the last leg before a suspension -/
  lastIndex : Nat := 0
  lastE : Nat := 0
  /-- a SITE_MASK and site drops that came while the job did not hold its Pilot, for when it does (R217, R218) -/
  mask : Option Nat := none
  drops : Nat := 0
  /-- the sites that have a first-fail entry in the arm in force at a suspension (R199) -/
  ffSites : Nat := 0
  /-- the status with which the job ended (R226, R228) -/
  endStatus : Nat := 0
  /-- the declared demand of an accepted job, for its vector stream, total capture and CT capture: the channels as a mask, and
  the rate as a fraction, in units of 10^8 / 2^32 bytes a second (R24, R215) -/
  demand : List (Nat × Nat × Nat) := []
  deriving DecidableEq, Repr


/-! ### The Sextant (chapter 09) -/

/-- A stamp taken and not decided: its reading on the channel's meridian in 2^-32 cycles, polarity (falling), comparator. -/
structure Stamp where
  at96 : Nat
  falling : Bool
  cmp : Bool
  mer : Nat
  slewing : Bool
  /-- the instant of the edge -/
  time : Nat
  /-- the instant of the stamp's reading: the edge's less the deskew (R235) -/
  due : Nat
  /-- how many slews its meridian had been given by then (R252) -/
  slews : Nat
  deriving DecidableEq, Repr

/-- A window setting: it applies to stamps at or after its effect reading (R241). -/
structure SxtWindow where
  eff : Nat
  opens : Nat
  closes : Nat
  deriving DecidableEq, Repr

/-- A Sextant channel beyond its registers: windows and arm states with their effect readings, newest first; stamps taken and
not decided, oldest first; accepted stamps on the post path with their seq and gap; the instant of the last taken edge; edges
counted by the prescaler since arming; a lost stamp still to be shown by the gap of the next accepted one; and what ends the open
samples of its units once the stamps before it are decided (R251): the instants of edges missed or without time, and, marked false,
of its bearing's loss. -/
structure SxtChan where
  wins : List SxtWindow := []
  arms : List (Nat × Bool) := []
  taken : List Stamp := []
  posts : List (Stamp × Nat × Bool) := []
  lastTaken : Option Nat := none
  count : Nat := 0
  gap : Bool := false
  losses : List (Nat × Bool) := []
  /-- under self-check: takes no external edges (R254) -/
  checking : Bool := false
  deriving DecidableEq, Repr

/-- A measurement unit's run (R245 to R252): the open start or previous stamp, the reading of the last stop that no start was open
for, the accumulators, the first and last stamps, and the slews that the meridian had been given by each of the two. -/
structure MuRun where
  running : Bool := false
  /-- the channel's reading when run was written -/
  start : Nat := 0
  /-- a continuous unit's last run has completed, and no stamp of the next has come (R250) -/
  between : Bool := false
  openAt : Option Nat := none
  idleStop : Option Nat := none
  n : Nat := 0
  sum : Int := 0
  sumsq : Nat := 0
  min : Int := 0
  max : Int := 0
  first : Option Nat := none
  last : Nat := 0
  range : Nat := 0
  broken : Bool := false
  slewing : Bool := false
  slewsFirst : Nat := 0
  slewsLast : Nat := 0
  deriving DecidableEq, Repr

/-- The Sextant: its channels, its units, and the instants of the newest stamps that each half posted (R244). -/
structure Sextant where
  chans : Bank Nat SxtChan := []
  units : Bank Nat MuRun := []
  posted0 : List Nat := []
  posted1 : List Nat := []
  deriving DecidableEq, Repr

/-! ### Synthesised clocks (chapter 10) -/

/-- The states of a DDS engine (DDS_ENG_STAT.state). -/
inductive DdsState where
  | idle | armed | running
  deriving DecidableEq, Repr

/-- A DDS engine beyond its registers: its list of 128-bit entries; the entry in force since a reading, the entry before that
reading, whether a route hop set it; the epoch r0; and the reading at which a milestone stopped it (R258 to R264). Readings count
2^-24 cycles. -/
structure Dds where
  st : DdsState := .idle
  list : Bank Nat Nat := []
  entry : Nat := 0
  since : Nat := 0
  before : Nat := 0
  byRoute : Bool := false
  r0 : Nat := 0
  stopAt : Option Nat := none
  deriving DecidableEq, Repr

/-- The DDS bank: the engines and the staged write of the list aperture (R268). -/
structure DdsBank where
  engines : Bank Nat Dds := []
  stage : Option (Nat × Nat × Nat) := none
  deriving DecidableEq, Repr

/-! ### Converters (chapter 11) -/

/-- A pin's sigma-delta decimator: the tick its grid starts from, outputs ended since, the next R waiting for the sequence to
complete, the latest tick at which its modulator overloaded, and the ticks of the changes of its PMU's mode or range, newest first,
each with the mode and range before it (R271 to R275, R281, R289). -/
structure SdChan where
  origin : Nat := 0
  k : Nat := 0
  newR : Option Nat := none
  overload : Option Nat := none
  pmuLog : List (Nat × Nat × Nat) := []
  deriving DecidableEq, Repr

/-- What a SAR converts. -/
inductive SarJob where
  | entry (k : Nat)
  | inject (input : Nat) (byCommand : Bool)
  | stream (unit : Nat)
  deriving DecidableEq, Repr

/-- A SAR: the conversion in progress with its first tick, the mux input and the fast-path pin that it samples, the sequence entries
still to start, an injection that waits, whether the next conversion is suspect, whether later entries are shifted, and the result
words of the run in progress. -/
structure Sar where
  conv : Option (SarJob × Nat) := none
  mux : Nat := 0
  fastPin : Nat := 0
  left : List Nat := []
  inj : Option (Nat × Bool) := none
  suspect : Bool := false
  shifted : Bool := false
  words : List Nat := []
  seqRunning : Bool := false
  deriving DecidableEq, Repr

/-- The converters: the sigma-delta sequence's run as the tick t0 with the entries still awaited, the SARs, whether a trigger is
held, the sequences of the run in progress, and the result elements of completed runs that are still to be posted (R284). -/
structure Adc where
  sd : Bank Nat SdChan := []
  sdT0 : Option Nat := none
  sdLeft : List Nat := []
  /-- the result words of the sigma-delta sequence's run -/
  sdWords : List Nat := []
  sars : Bank Nat Sar := []
  held : Bool := false
  due : List Nat := []
  toPost : List Nat := []
  /-- the tick at which the last sequence or conversion completed -/
  lastDone : Nat := 0
  deriving DecidableEq, Repr

/-! ### Acquisition (chapter 12) -/

/-- The states of an acquisition unit (ACQ_STAT.state). -/
inductive AcqState where
  | idle | armed | writing | rearming
  deriving DecidableEq, Repr

/-- A piece of a unit's sample grid: samples from index j lie at tick0 + (k - j) x period ticks (R292, R294). -/
structure AcqGrid where
  j : Nat
  tick0 : Nat
  period : Nat
  deriving DecidableEq, Repr

/-- An accepted trigger: its source, raw sample index, fraction, and reading on MER0 in 2^-24 cycles (R298, R299). -/
structure AcqTrig where
  src : Nat
  ti : Nat
  tf : Nat
  at88 : Nat
  deriving DecidableEq, Repr

/-- An acquisition unit beyond its registers (R292 to R302): captures made since ACQ_ARM; samples since arming; the interval
being reduced (minimum, maximum, flags, samples in it); the grid pieces, newest first; level-trigger memory (previous code
and whether it may complete a crossing; a sample beyond the hysteresis was seen); the accepted trigger; valid pre-trigger
units; flags of the record; the segments that have been written since they were last analysed; the record waiting. -/
structure AcqUnit where
  st : AcqState := .idle
  capture : Nat := 0
  j : Nat := 0
  written : Nat := 0
  accMin : Int := 0
  accMax : Int := 0
  accFlags : Nat := 0
  accN : Nat := 0
  grid : List AcqGrid := []
  prev : Option Int := none
  primed : Bool := false
  trig : Option AcqTrig := none
  validPre : Nat := 0
  preShort : Bool := false
  regrid : Bool := false
  regridIndex : Option Nat := none
  gap : Bool := false
  gapNext : Bool := false
  stopped : Bool := false
  srcLost : Bool := false
  post : Nat := 0
  recordDue : Bool := false
  /-- first_off of the capture held by each segment -/
  segs : Bank Nat Nat := []
  deriving DecidableEq, Repr
/-! ### HBM memory (chapter 13) -/

/-- A stored beat's defect (R318 to R320): one bad symbol, uncorrectable at its next reading alone (R319), uncorrectable, or written
with the stored-poison code. -/
inductive BeatMark where
  | clean | corrected | badOnce | uncorrectable | storedPoison
  deriving DecidableEq, Repr

/-- The traffic classes (R19). -/
inductive Class where
  | realTime | bulk | management
  deriving DecidableEq, Repr

/-- A write of one beat: channel-local beat address, byte mask, 32 bytes of data, source port (R315). -/
structure BeatWrite where
  addr : Nat
  mask : Nat
  data : Nat
  port : Nat
  deriving DecidableEq, Repr

/-- A request at a channel's arbiter (R21): a write of a beat with its channel-local address, or a piece of a host read with its
HPA (R314). -/
structure ArbReq where
  port : Nat
  cls : Class
  write : Option BeatWrite
  addr : Nat
  len : Nat
  deriving DecidableEq, Repr

/-- What a full bucket of 64 KiB holds, in bytes times the units of time in a second, so that what accrues is exact (R20). -/
def bucketFull : Nat := 65536 * 3000000000000000

/-- A channel beyond its registers: the write queue oldest first (R315), waiting requests, token buckets (R20) as tokens at
an instant, the port that each group of R21 served last, the instant from which the DMA engine's class A limit lets the next
write pass (R23), the start of the last parity incident (R317), the retry buffer: the beats of the last 32 commands, newest first, with
the write that each made or none for a read (R316), and the beats of the present run discarded on a faulted channel, with the HPA of
the first (R324). Both buckets are full at reset: the spec gives their rate
and their cap, not their first fill (DESIGN CHOICE, assumption 71). -/
structure Chan where
  queue : List BeatWrite := []
  waiting : List ArbReq := []
  rtTok : Nat := bucketFull
  mgTok : Nat := bucketFull
  tokT : Nat := 0
  last : Bank Nat Nat := []
  dmaNext : Nat := 0
  incident : Option Nat := none
  retry : List (Nat × Option BeatWrite) := []
  dropped : Nat := 0
  droppedAt : Nat := 0
  deriving DecidableEq, Repr

/-- The memory: bytes at channel x 2^32 + channel-local address, marks of beats at the same addresses, the channels, and
the controller's refresh and self-refresh condition. -/
structure Hbm where
  mem : Bank Nat Byte := []
  marks : Bank Nat BeatMark := []
  chans : Bank Nat Chan := []
  /-- a refresh stop is in progress (R311) -/
  stopped : Bool := false
  /-- the grid point of the last stop -/
  lastGrid : Option Nat := none
  /-- no stop begins at a grid point before this one (R312, R329) -/
  skipTo : Nat := 0
  /-- each lane's read delay, in steps of 1/64 UI from the one that training left, by channel x 128 + lane (R313) -/
  delays : Bank Nat Int := []
  /-- ports whose fences have completed, newest first (R25) -/
  fencesDone : List Nat := []
  /-- the port whose request wakes the memory (R329) -/
  waking : Option Nat := none
  deriving DecidableEq, Repr

/-! ### Chart and DMA (chapter 14) -/

/-- A cached leaf entry (R338, R340, R343): which TLB (0 to 15 = a pilot's, 16 = shared), space, page base, the entry, and whether
lookahead brought it. -/
structure TlbEntry where
  tlb : Nat
  space : Nat
  base : Nat
  pageBits : Nat
  entry : Nat
  ahead : Bool
  deriving DecidableEq, Repr

/-- An outstanding fault (R345, R346). -/
structure FaultSlot where
  source : Nat
  space : Nat
  dva : Nat
  kind : Nat
  level : Nat
  write : Bool
  early : Bool
  blocking : Bool
  gen : Nat
  detail : Nat
  cycles : Nat
  deriving DecidableEq, Repr

/-- A table walk that lookahead or a granule asked for (R340, R341, R343): its source, space, address and access. -/
structure WalkReq where
  source : Nat
  space : Nat
  dva : Nat
  write : Bool
  deriving DecidableEq, Repr

/-- A level-1 or level-2 entry in the walk cache: its space, its level, the DVA bits above what it maps, and the entry (R338). -/
structure WalkEntry where
  space : Nat
  level : Nat
  index : Nat
  entry : Nat
  deriving DecidableEq, Repr

/-- Chart beyond its registers. -/
structure Chart where
  tlb : List TlbEntry := []
  /-- the walk cache (R338) -/
  cached : List WalkEntry := []
  /-- lookahead's accesses whose faults found their Pilot's two slots taken and are not recorded (R345) -/
  missed : List WalkReq := []
  /-- walks asked for and not yet issued, oldest first -/
  asked : List WalkReq := []
  /-- walks in flight, at most 64 (R341) -/
  walks : List WalkReq := []
  slots : Bank Nat (Option FaultSlot) := []
  /-- the next generation of each slot's fault id -/
  gens : Bank Nat Nat := []
  /-- tables that Helm has allocated in the system map (R337) -/
  tables : Nat := 0
  deriving DecidableEq, Repr

/-- A DMA channel beyond its registers: the descriptor in progress as 64 bytes, the status it will complete with (R353), the
fault id of an abandoned one, and the granules in flight (R352). Its progress stands in DMA_CH_PROG (R354). -/
structure DmaChan where
  desc : Option Nat := none
  status : Nat := 0
  faultId : Nat := 0
  flying : List Nat := []
  deriving DecidableEq, Repr

/-- The DMA engine: its channels, and the class-A and class-B channel that took a granule slot last (R352). -/
structure DmaEngine where
  chans : Bank Nat DmaChan := []
  lastA : Nat := 15
  lastB : Nat := 15
  deriving DecidableEq, Repr


/-! ### Wayline (chapter 17) -/

/-- What a port has sent: a control block with its type and content, one of a lane's own in training (R409), a flit, or the exit
burst. -/
inductive Sent where
  | block (typ content : Nat)
  | train (lane typ content : Nat)
  | flit (f : Flit)
  | burst
  deriving DecidableEq, Repr

/-- What a lane puts on the wire: a block with its header value and its payload as scrambled (R404, R407), or the exit burst
(R413). -/
inductive LaneItem where
  | block (header payload : Nat)
  | burst
  deriving DecidableEq, Repr

/-- The transmitter of a lane: the blocks sent since the comma that begins its frames (R405), the last 58 scrambled payload bits, the
newest lowest (R407), the last symbol sent (R403), and what it has sent, oldest first. -/
structure Lane where
  index : Nat := 0
  scr : Nat := 0
  last : Nat := 0
  out : List LaneItem := []
  deriving DecidableEq, Repr

/-- A time exchange in progress at its requester: seq, t1, and t2 with the arrival t4 of TIME_T2, in 2^-16 ns (R423). -/
structure TimeEx where
  seq : Nat
  t1 : Nat
  t2 : Option (Nat × Nat) := none
  deriving DecidableEq, Repr

/-- A Wayline port beyond its registers (R409 to R418). -/
structure WPort where
  /-- op 2: the port keeps its taps and refuses tap requests -/
  manual : Bool := false
  /-- op 3 permits idle -/
  idleOk : Bool := false
  /-- seq of the last TRAIN_REQ applied on each lane -/
  req0 : Option Nat := none
  req1 : Option Nat := none
  /-- precoding and FEC that take effect at the next comma, bit per lane -/
  nextPre : Nat := 0
  nextFec : Bool := false
  /-- the partner's receivers that have sent ready, and our receivers whose ready was echoed -/
  ready : Nat := 0
  echoed : Nat := 0
  /-- end of the 100 ms of training -/
  trainBy : Nat := 0
  txSeq : Nat := 0
  rxSeq : Nat := 0
  nakFor : Option Nat := none
  waiting : List Flit := []
  replay : List Flit := []
  credit0 : Nat := 0
  credit1 : Nat := 0
  credit2 : Nat := 0
  owed0 : Nat := 0
  owed1 : Nat := 0
  owed2 : Nat := 0
  /-- in-order flits received since the last ACK -/
  unacked : Nat := 0
  resends : Nat := 0
  /-- launch slots: destination node and bytes (R420, R429) -/
  slots : Bank Nat (Option (Nat × List Byte)) := []
  /-- control blocks waiting to be sent, oldest first -/
  blocks : List (Nat × Nat) := []
  timeSeq : Nat := 0
  timeEx : Option TimeEx := none
  /-- everything that the port has sent, oldest first -/
  sent : List Sent := []
  /-- the transmitters of its two lanes -/
  lane0 : Lane := {}
  lane1 : Lane := {}
  /-- flits of bulk units not yet complete -/
  parts : List Flit := []
  /-- aggregate bits last received from this port's child -/
  agg : Nat := 0
  /-- the partner's hello: hops to the root, its member number, its convoy -/
  hello : Option (Nat × Nat × Nat) := none
  deriving DecidableEq, Repr

/-- A bulk write that waits on a Chart fault at this target: arrival port, first flit, data, fault slot id, and the end of
its 1 ms (R422). -/
structure BulkHold where
  port : Nat
  flit : Flit
  dva : Nat
  space : Nat
  data : List Byte
  read : Bool
  id : Nat
  until_ : Nat
  deriving DecidableEq, Repr

/-- A DMA granule in flight over Wayline: transaction id, port, channel, granule, its flits still to come (for a read). -/
structure BulkOut where
  xid : Nat
  port : Nat
  chan : Nat
  granule : Nat
  read : Bool
  deriving DecidableEq, Repr

/-- A message sent and not answered: transaction id, port, number of the waiting command (R420). -/
structure MsgOut where
  xid : Nat
  port : Nat
  seq : Nat
  deriving DecidableEq, Repr

/-- Wayline beyond its registers (R401 to R434). -/
structure Wln where
  ports : Bank Nat WPort := []
  /-- ids of the last 16 halts seen, newest first (R425) -/
  halts : List Nat := []
  haltSeq : Nat := 0
  xid : Nat := 0
  seq : Nat := 0
  msgs : List MsgOut := []
  bulk : List BulkOut := []
  holds : List BulkHold := []
  /-- tags forwarded by each source member, newest first, with their completions (R421) -/
  fwdTags : Bank Nat (List (Nat × Cpl)) := []
  convoy : Nat := 0
  parent : Option Nat := none
  hops : Nat := 0
  manifest : List Byte := []
  /-- manifests at the root -/
  manifests : List (List Byte) := []
  /-- manifest pieces by arrival port -/
  pieces : Bank Nat (List Byte) := []
  musterAt : Nat := 0
  steerAt : Nat := 0
  /-- the manifest has been sent -/
  sentManifest : Bool := false
  /-- MER7 has been stepped to the parent's time (R433) -/
  stepped : Bool := false
  /-- MER7 was in use under another discipline when the muster needed it (R432, state 3) -/
  merTaken : Bool := false
  /-- aggregate bits last sent toward the root, or the convoy value last sent by the root (R428) -/
  aggUp : Nat := 0
  /-- the root's aggregate rose with agg_halt set: a halt is to be originated (R428) -/
  haltDue : Bool := false
  deriving DecidableEq, Repr
/-- The whole block. -/
structure State where
  now : Nat := 0
  free : Nat := 0
  pending : List Instr := []
  regs : Bank RegKey Word := []
  host : HostPort := {}
  mers : Bank Nat Meridian := []
  ms : MsSched := {}
  depot : Depot := {}
  swy : Switchyard := {}
  helm : Helm := {}
  pins : Bank Nat Pin := []
  alm : Almanac := {}
  clusters : Bank Nat Cluster := []
  pilots : Bank Nat Pilot := []
  jobs : Bank Nat Job := []
  hbm : Hbm := {}
  chart : Chart := {}
  dma : DmaEngine := {}
  sxt : Sextant := {}
  dds : DdsBank := {}
  adc : Adc := {}
  acq : Bank Nat AcqUnit := []
  wln : Wln := {}
  eth : Eth := {}
  bnc : Bnc := {}
  deriving DecidableEq, Repr

/-- The block right after cold reset, before boot (R10, R32, R46, R453): every register at its Reset column value, MER0 running at
1.6 GHz from zero, MER7 a wall meridian that is off, no memory, and no command waiting. -/
def State.reset : State :=
  { mers := [(0, { st := .running, cfg := { fword := 0x1000000000 }, rate := 0x1000000000 }), (7, { cfg := { kind := .wall } })] }

end Sys2Proof.Machine
end

