-- ==== Sys2Proof/Machine/Ops.lean ====
section
/-! DEFINITION. The named operations that every family uses: registers and their fields, free values, MSI-X signals, the
instants and readings of the meridians, and pins of a mask. -/

namespace Sys2Proof.Machine

/-! ### Registers -/

/-- A register's stored value. -/
def State.rd (s : State) (id : RegId) (i : Nat := 0) (j : Nat := 0) : Word :=
  bankGet RegKey.reset ⟨id, i, j⟩ s.regs

/-- A register's stored value replaced. -/
def State.wr (s : State) (id : RegId) (i j : Nat) (v : Word) : State :=
  { s with regs := bankSet RegKey.rank RegKey.reset ⟨id, i, j⟩ v s.regs }

/-- A field of a register, as a number. -/
def State.fget (s : State) (f : Fld) (i : Nat := 0) (j : Nat := 0) : Nat :=
  bits (s.rd f.id i j).toNat f.hi f.lo

/-- A one-bit field of a register. -/
def State.fbit (s : State) (f : Fld) (i : Nat := 0) : Bool := s.fget f i == 1

/-- A field of a register replaced; the other bits stay. -/
def State.fput (s : State) (f : Fld) (i : Nat) (x : Nat) : State :=
  s.wr f.id i 0 (BitVec.ofNat 64 (setBits (s.rd f.id i 0).toNat f.hi f.lo x))

/-- A field of the second-index word j replaced. -/
def State.fputj (s : State) (f : Fld) (i j : Nat) (x : Nat) : State :=
  s.wr f.id i j (BitVec.ofNat 64 (setBits (s.rd f.id i j).toNat f.hi f.lo x))

/-- A counter field raised by n, saturating at the largest value it holds. -/
def State.bump (s : State) (f : Fld) (i : Nat := 0) (n : Nat := 1) : State :=
  s.fput f i (min (s.fget f i + n) (2 ^ (f.hi + 1 - f.lo) - 1))

/-- A counter field raised by one, modulo its width. -/
def State.tick (s : State) (f : Fld) (i : Nat := 0) (n : Nat := 1) : State :=
  s.fput f i (s.fget f i + n)

/-- A register back at its Reset column value (R10). -/
def State.rst (s : State) (id : RegId) (i : Nat := 0) : State := s.wr id i 0 (RegKey.reset ⟨id, i, 0⟩)

/-- Registers of one unit back at their Reset column values. -/
def State.rstAll (s : State) (ids : List RegId) (i : Nat) : State := ids.foldl (fun s id => s.rst id i) s

/-! ### Free values -/

/-- The next free value: the state goes on to the next number and the value is the unknown constant's at this one. -/
def State.fresh (s : State) : State × Word := ({ s with free := s.free + 1 }, Config.freeValue s.free)

/-- A free value of n words of 64 bits. -/
def State.freshWide (s : State) : Nat → State × Nat
  | 0 => (s, 0)
  | n + 1 =>
    let r := State.freshWide s.fresh.1 n
    (r.1, s.fresh.2.toNat + r.2 * 2 ^ 64)

/-! ### The instants of the model (assumption 5) -/

/-- Units of time in a second: one third of a femtosecond each. -/
def unitsPerSecond : Nat := 3000000000000000
/-- A picosecond. -/
def unitsPerPs : Nat := 3000
/-- A nanosecond. -/
def unitsPerNs : Nat := 3000000
/-- A Pilot cycle at 750 MHz. -/
def pilotCycle : Nat := 4000000
/-- The fraction's denominator: readings count 2^-24 cycles (R33). -/
def fracOne : Nat := 2 ^ 24

/-- Time moves to an instant, never back. -/
def State.advance (s : State) (t : Nat) : State := { s with now := max s.now t }

/-- One meridian. -/
def State.mer (s : State) (m : Nat) : Meridian := nget {} m s.mers

/-- One meridian replaced. -/
def State.setMer (s : State) (m : Nat) (x : Meridian) : State := { s with mers := nset {} m x s.mers }

/-- The divisor that turns (units x frequency word x parts per 10^9) into 2^-24 cycles (R37). -/
def rateDen : Nat := 256 * 30000000 * 1000000000

/-- A common multiple of every divisor N of a tracked rate (R39: 1 to 32). -/
def divBase : Nat := 144403552893600

/-- The odometer's finest unit: 2^-24 cycle over this number. -/
def fineDen : Nat := rateDen * divBase

/-- The rate in frequency-word units, times divBase. -/
def Meridian.fineRate (m : Meridian) : Nat := m.rate * (divBase / m.rateDiv)

/-- How long the phase term still acts after the anchor: 1 ps in 10^6 ps (R49). -/
def Meridian.phaseEnd (m : Meridian) : Nat := m.phasePs.natAbs * unitsPerPs * 1000000

/-- The phase term's rate while it acts, parts per 10^9 (R49). -/
def Meridian.phaseRate (m : Meridian) : Int := if m.phasePs < 0 then -1000 else if m.phasePs = 0 then 0 else 1000

/-- What the odometer has counted from the anchor's reading to an instant, in its finest unit: the anchor's own part while the
meridian stands still (R34, R499). -/
def Meridian.counted (m : Meridian) (t : Nat) : Nat :=
  if m.st = .running ∧ m.anchorT ≤ t then
    let dt := t - m.anchorT
    let num : Int := (dt * m.fineRate : Nat) * (1000000000 + m.freqPpb) + (min dt m.phaseEnd * m.fineRate : Nat) * m.phaseRate
    m.anchorRem + num.toNat
  else m.anchorRem

/-- A fraction whose low bits MER7 has not (R46): the low 8 of the 24 bits are 0. -/
def Meridian.coarse (m : Meridian) (unit r : Nat) : Nat := if m.cfg.kind = .wall then r / unit * unit else r

/-- The reading at an instant, in 2^-24 cycles (R33, R34): the anchor's reading while the meridian stands still (R499). -/
def Meridian.reading (m : Meridian) (t : Nat) : Nat := m.coarse 256 ((m.anchorR + m.counted t / fineDen) % 2 ^ 88)

/-- The phase offset not yet removed at an instant (R49). -/
def Meridian.phaseLeft (m : Meridian) (t : Nat) : Int :=
  if m.st = .running then
    let gone := (t - m.anchorT) / (unitsPerPs * 1000000)
    let left := m.phasePs.natAbs - gone
    if m.phasePs < 0 then -(left : Int) else left
  else m.phasePs

/-- The meridian with its anchor moved to an instant; what it has counted does not change. -/
def Meridian.reanchor (m : Meridian) (t : Nat) : Meridian :=
  { m with anchorT := t, anchorR := (m.anchorR + m.counted t / fineDen) % 2 ^ 88, anchorRem := m.counted t % fineDen,
           wraps := m.wraps + (m.anchorR + m.counted t / fineDen) / 2 ^ 88, phasePs := m.phaseLeft t }

/-- The exact instant at which the reading comes to a target: whole units, and a part of a unit as a fraction (R29, R53). None while
the meridian stands still, for nothing scheduled against it fires until its reading moves (R57, R499). -/
def Meridian.reaches (m : Meridian) (target : Nat) : Option (Nat × Nat × Nat) :=
  let target := if m.cfg.kind = .wall then ceilDiv target 256 * 256 else target
  if m.st = .running ∧ 0 < m.rate then
    if target ≤ m.anchorR then some (m.anchorT, 0, 1)
    else
      let need := (target - m.anchorR) * fineDen - m.anchorRem
      let v1 := m.fineRate * (1000000000 + m.freqPpb + m.phaseRate).toNat
      let v2 := m.fineRate * (1000000000 + m.freqPpb).toNat
      let n1 := v1 * m.phaseEnd
      if need ≤ n1 then some (m.anchorT, need, v1) else some (m.anchorT + m.phaseEnd, need - n1, v2)
  else none

/-- The first instant of the model at which the reading is at or beyond a target (R53). -/
def Meridian.instantOf (m : Meridian) (target : Nat) : Option Nat :=
  (m.reaches target).map (fun r => r.1 + ceilDiv r.2.1 r.2.2)

/-- The instant of a reading at 100 fs resolution, ties upward, or to the model's unit where one fraction bit is coarser (R103;
assumption 59): rounded once, from the exact instant. -/
def Meridian.edgeTime (m : Meridian) (target : Nat) : Option Nat :=
  (m.reaches target).map (fun r =>
    if m.rate < 25600000 * m.rateDiv then r.1 + ceilDiv r.2.1 r.2.2
    else (r.1 * r.2.2 + r.2.1 + 150 * r.2.2) / (300 * r.2.2) * 300)

/-- A time moved by a signed delay. -/
def shiftTime (t : Nat) (d : Int) : Nat := ((t : Int) + d).toNat

/-- A meridian's reading now. -/
def State.odo (s : State) (m : Nat) : Nat := (s.mer m).reading s.now

/-- MER0's cycles now. -/
def State.mer0 (s : State) : Nat := s.odo 0 / fracOne

/-- MER7's cycles now: wall nanoseconds modulo 2^64 (R46). -/
def State.wallNs (s : State) : Nat := s.odo 7 / fracOne

/-- Wall time now in 2^-24 ns, its seconds 64 bits wide (R46). -/
def State.wallTime (s : State) : Nat :=
  ((s.mer 7).wraps + ((s.mer 7).anchorR + (s.mer 7).counted s.now / fineDen) / 2 ^ 88) * 2 ^ 88 + s.odo 7

/-- The seconds and the nanoseconds of wall time now (R46). -/
def State.wallSec (s : State) : Nat := s.wallTime / fracOne / 1000000000 % 2 ^ 64
def State.wallSub (s : State) : Nat := s.wallTime / fracOne % 1000000000

/-- The cycle frequency that a meridian's checks use, as a frequency word: fmax for a tracked meridian, its own frequency
otherwise (R3, R40, R499). -/
def Meridian.maxWord (m : Meridian) : Nat :=
  match m.cfg.kind with
  | .tracked => ceilDiv (m.cfg.fmaxKhz * 1000 * 2 ^ 32) 100000000
  | .localM => m.cfg.fword
  | .wall => 0x0A00000000

/-- The number of 2^-24 cycles that a span of nanoseconds holds at the checks' frequency (R54, R61). -/
def Meridian.spanAtMax (m : Meridian) (ns : Nat) : Nat := ceilDiv (ns * m.maxWord * fracOne) (10 * 2 ^ 32)

/-! ### MSI-X (R441) -/

/-- A vector's entry of the MSI-X table; its mask bit is 1 at reset (assumption 6). -/
def State.msixEntry (s : State) (v : Nat) : Nat := nget (2 ^ 96) v s.host.msixTable

/-- Pending messages of a vector are sent when the function is enabled and the vector is not masked. -/
def State.msixSend (s : State) (v : Nat) : State :=
  if nget false v s.host.msixPending ∧ s.host.msixEnable ∧ bitAt (s.msixEntry v) 96 = false then
    { s with host := { s.host with msixPending := nset false v false s.host.msixPending, msiSent := s.host.msiSent ++ [v] } }
  else s

/-- A source signals a vector: its pending bit sets, and a message leaves if it may (R441). -/
def State.signal (s : State) (v : Nat) : State :=
  State.msixSend { s with host := { s.host with msixPending := nset false v true s.host.msixPending } } v

/-- A device event signals the vector of DEV_IRQ. -/
def State.devIrq (s : State) : State := if s.fbit fDEV_IRQ_en then s.signal (s.fget fDEV_IRQ_vector) else s

/-! ### Device status and the fix counters -/

/-- One of the fix record's counters raised (R380); they saturate at 32 bits. -/
def State.countFix (s : State) (k : Nat) (n : Nat := 1) : State :=
  { s with helm := { s.helm with counters := nset 0 k (min (nget 0 k s.helm.counters + n) (2 ^ 32 - 1)) s.helm.counters } }

/-- A write discarded under R14: DEV_STATUS.rt_write_drop sets. -/
def State.rtWriteDrop (s : State) : State := ((s.fput fDEV_STATUS_rt_write_drop 0 1).countFix 10).devIrq

/-- An access refused under R438. -/
def State.accessErr (s : State) : State := ((s.fput fDEV_STATUS_access_err 0 1).bump fPCI_ERR_bad_size).devIrq

/-- A domain is powered (R448). -/
def State.powered (s : State) (d : Nat) : Bool := bitAt (s.fget fPWR_ON_on) d

/-- A domain's bit in PWR_ON. -/
def State.setPowered (s : State) (d : Nat) (b : Bool) : State := s.fput fPWR_ON_on 0 (setBit (s.fget fPWR_ON_on) d b)

/-! ### The Logbook (R468 to R470) -/

/-- The low 8 bits of a CRC step for one byte: polynomial 0x07, most significant bit first (R468). -/
def crc8Byte : Nat → Nat → Nat
  | 0, c => c
  | n + 1, c => crc8Byte n (if bitAt c 7 then ((c * 2) % 256) ^^^ 7 else (c * 2) % 256)

/-- CRC-8 of bytes, initial value 0 (R468). -/
def crc8 (bs : List Byte) : Nat := bs.foldl (fun c b => crc8Byte 8 (c ^^^ b.toNat)) 0

/-- A Logbook record of 32 bytes as one number (R468). -/
def State.logRecord (s : State) (code block d0 d1 : Nat) : Nat :=
  let body := pack [(0, 32, s.bnc.logSeq), (32, 8, code), (40, 8, block), (48, 16, s.bnc.bootCount),
    (64, 64, s.mer0), (128, 32, s.wallSec), (160, 32, d0), (192, 32, d1), (224, 16, s.fget fTHM_TEMP_temp)]
  body + crc8 (bytesOf 31 body) * 2 ^ 248

/-- A Logbook slot as one number of 32 bytes. -/
def State.logSlot (s : State) (i : Nat) : Nat :=
  (s.rd .BNC_LOG_ENTRY i 0).toNat + (s.rd .BNC_LOG_ENTRY i 1).toNat * 2 ^ 64 +
  (s.rd .BNC_LOG_ENTRY i 2).toNat * 2 ^ 128 + (s.rd .BNC_LOG_ENTRY i 3).toNat * 2 ^ 192

/-- A record goes to the slot after the head (R469). -/
def State.logPut (s : State) (rec : Nat) : State :=
  let h := (s.fget fBNC_LOG_STAT_head + 1) % 256
  let s := (((s.wr .BNC_LOG_ENTRY h 0 (BitVec.ofNat 64 rec)).wr .BNC_LOG_ENTRY h 1 (BitVec.ofNat 64 (rec / 2 ^ 64))).wr
    .BNC_LOG_ENTRY h 2 (BitVec.ofNat 64 (rec / 2 ^ 128))).wr .BNC_LOG_ENTRY h 3 (BitVec.ofNat 64 (rec / 2 ^ 192))
  let s := ((s.fput fBNC_LOG_STAT_head 0 h).fput fBNC_LOG_STAT_valid 0 (min (s.fget fBNC_LOG_STAT_valid + 1) 256)).bump
    fBNC_LOG_STAT_writes
  { s with bnc := { s.bnc with logSeq := s.bnc.logSeq + 1 } }

/-- A Logbook record is written, or suppressed when 16 were written within the second and its code is above 3 (R470). -/
def State.logWrite (s : State) (code block d0 d1 : Nat) : State :=
  let recent := s.bnc.logTimes.filter (fun t => s.now < t + unitsPerSecond)
  if 3 < code then
    if 16 ≤ recent.length then s.bump fBNC_LOG_STAT_suppressed
    else
      let s := s.logPut (s.logRecord code block d0 d1)
      { s with bnc := { s.bnc with logTimes := s.now :: recent } }
  else s.logPut (s.logRecord code block d0 d1)

end Sys2Proof.Machine
end

