-- ==== Sys2Proof/Machine/Tasks.lean ====
section
/-! DEFINITION. The Switchyard's scheduling state and how a task becomes ready, waits and wakes (R381 to R389). The
operations that harts write stand in Machine/Switchyard.lean; these are the parts that Depot notifications use too. -/

namespace Sys2Proof.Machine

/-- A task slot. -/
def State.task (s : State) (t : Nat) : Task := nget {} t s.swy.tasks
/-- A task slot replaced. -/
def State.setTask (s : State) (t : Nat) (x : Task) : State := { s with swy := { s.swy with tasks := nset {} t x s.swy.tasks } }
/-- A hart as the Switchyard sees it. -/
def State.hart (s : State) (h : Nat) : Hart := nget {} h s.swy.harts
/-- A hart replaced. -/
def State.setHart (s : State) (h : Nat) (x : Hart) : State := { s with swy := { s.swy with harts := nset {} h x s.swy.harts } }

/-- The harts that a task may run on (R381). -/
def taskHarts (t : Nat) : List Nat := if t < 3072 then [0, 1] else if t < 3584 then [2] else [3]

/-- A hart may manage a task (R381). -/
def mayManage (h t : Nat) : Bool :=
  h == 0 || h == 1 || (h == 2 && decide (3072 ≤ t ∧ t < 3584)) || (h == 3 && decide (3584 ≤ t ∧ t < 4096))

/-- The priority of a hart's current task; an idle hart counts as -1 (R384). -/
def State.hartPrio (s : State) (h : Nat) : Int :=
  match (s.hart h).cur with
  | some t => if (s.hart h).left then -1 else ((s.task t).prio : Int)
  | none => -1

/-- Among harts, the one whose current task has the lowest priority, the first of them on a tie (R384). -/
def State.weakest (s : State) : List Nat → Option Nat
  | [] => none
  | h :: r => match s.weakest r with
    | none => some h
    | some k => if s.hartPrio k < s.hartPrio h then some k else some h

/-- The dispatch interrupt for a task that has become ready: the weakest hart below its priority (R384). -/
def State.dispatchFor (s : State) (t : Nat) : State :=
  match s.weakest ((taskHarts t).filter (fun h => s.hartPrio h < ((s.task t).prio : Int))) with
  | some h => s.setHart h { s.hart h with dispatch := true }
  | none => s

/-- A task joins the tail of its ready queue (R383). -/
def State.makeReady (s : State) (t : Nat) : State :=
  let s := s.setTask t { s.task t with st := .ready }
  let s := { s with swy := { s.swy with ready := s.swy.ready.filter (· ≠ t) ++ [t], delays := s.swy.delays.filter (· ≠ t) } }
  s.dispatchFor t

/-- The ready tasks that a hart may take, best first: highest priority, then queue order (R383). -/
def State.nextTask (s : State) (h : Nat) : Option Nat :=
  let mine := s.swy.ready.filter (fun t => (taskHarts t).contains h)
  mine.foldl (fun best t => match best with
    | none => some t
    | some b => if (s.task b).prio < (s.task t).prio then some t else best) none

/-- The wait test (R387). -/
def waitHolds (flags mask : Nat) (all : Bool) : Bool :=
  if all then Nat.land flags mask == mask else Nat.land flags mask != 0

/-- A waiting task whose test holds wakes with code 0; its satisfying flags are kept for SWY_H_RES and cleared if asked
(R387). -/
def State.wakeIfHolds (s : State) (t : Nat) : State :=
  let k := s.task t
  if k.st = .waiting ∧ waitHolds k.flags k.mask k.all then
    let hit := Nat.land k.flags k.mask
    let s := s.setTask t { k with resCode := 0, resFlags := hit, flags := if k.consume then k.flags - hit else k.flags }
    s.makeReady t
  else s

/-- Flags set on a task: flags or mask, then the wake test (R385, R387). -/
def State.setFlags (s : State) (t mask : Nat) : State :=
  let k := s.task t
  if k.st = .free then s
  else (s.setTask t { k with flags := Nat.lor k.flags (mask % 2 ^ 32) }).wakeIfHolds t

/-- A held task is released with a code (R386, R400). -/
def State.releaseTask (s : State) (t code : Nat) : State :=
  if (s.task t).st = .held then (s.setTask t { s.task t with resCode := code, resFlags := 0, queue := 0 }).makeReady t else s

end Sys2Proof.Machine
end

