-- ==== Sys2Proof/Machine/WaylineLane.lean ====
section
/-! DEFINITION. A Wayline lane: symbols (R403), blocks of 33 symbols (R404), commas and frames (R405), the scrambler (R407), FEC
codewords (R408), and how control blocks and flits are laid on a port's two lanes (R413 to R416). -/

namespace Sys2Proof.Machine

/-! ### Symbols (R403) -/

/-- The level index of a 2-bit value (R403). -/
def grayLevel (v : Nat) : Nat := if v % 4 = 3 then 2 else if v % 4 = 2 then 3 else v % 4

/-- Precoding of level indices, from the symbol sent last: y_n = (x_n - y_(n-1)) mod 4 (R403). -/
def precode : Nat → List Nat → List Nat
  | _, [] => []
  | y, x :: r => (x + 4 - y % 4) % 4 :: precode ((x + 4 - y % 4) % 4) r

/-- What the receiver recovers: x_n = (y_n + y_(n-1)) mod 4 (R403). -/
def unprecode : Nat → List Nat → List Nat
  | _, [] => []
  | y, z :: r => (z + y) % 4 :: unprecode z r

/-! ### Blocks (R404, R405) -/

/-- The header values (R404). -/
abbrev hdrComma : Nat := 0
abbrev hdrData : Nat := 1
abbrev hdrControl : Nat := 2

/-- The 33 values of a block: its header, then payload symbol k with bits [2k+1:2k] (R404). -/
def blockValues (header payload : Nat) : List Nat := header :: (List.range 32).map (fun k => bits payload (2 * k + 1) (2 * k))

/-- The payload of a comma block: P on lane 0, its complement on lane 1 (R405). -/
def commaPayload (lane : Nat) : Nat := if lane = 0 then 0xC3A55A3CC35AA53C else 2 ^ 64 - 1 - 0xC3A55A3CC35AA53C

/-- A received block is good where it stands: header 3, or header 0 away from the comma position, makes it errored (R406). -/
def blockGood (header index : Nat) : Bool := if index % 1024 = 0 then header == hdrComma else header == hdrData || header == hdrControl

/-! ### The scrambler (R407) -/

/-- One bit scrambled: s_n = d_n xor s_(n-39) xor s_(n-58); the state holds the last 58 scrambled bits, the newest lowest. -/
def scrambleBit (scr : Nat) (d : Bool) : Bool := d ^^ bitAt scr 38 ^^ bitAt scr 57
/-- The state after a scrambled bit. -/
def scrambleNext (scr : Nat) (b : Bool) : Nat := (2 * scr + b2n b) % 2 ^ 58

/-- n payload bits scrambled, bit 0 first: the state and the scrambled bits as a number. -/
def scramble (scr payload : Nat) : Nat → Nat × Nat
  | 0 => (scr, 0)
  | n + 1 =>
    let b := scrambleBit scr (bitAt payload 0)
    let r := scramble (scrambleNext scr b) (payload / 2) n
    (r.1, b2n b + 2 * r.2)

/-- n bits descrambled, bit 0 first: d_n = s_n xor s_(n-39) xor s_(n-58) (R407). -/
def descramble (scr payload : Nat) : Nat → Nat × Nat
  | 0 => (scr, 0)
  | n + 1 =>
    let r := descramble (scrambleNext scr (bitAt payload 0)) (payload / 2) n
    (r.1, b2n (scrambleBit scr (bitAt payload 0)) + 2 * r.2)

/-! ### FEC (R408) -/

/-- Multiplication in GF(2^10) with the field polynomial x^10 + x^3 + 1 of IEEE 802.3 Clause 91 (PRESUMED, assumption 75). -/
def gfMul (a b : Nat) : Nat :=
  (List.range 10).foldl (fun r i =>
    let r := 2 * r
    let r := if 1024 ≤ r then r ^^^ 0x409 else r
    if bitAt b (9 - i) then r ^^^ a else r) 0

/-- The generator's 30 lower coefficients, highest first: the product of x - a^j for j from 0 to 29 (R408; assumption 75). -/
def fecGenerator : List Nat :=
  ((List.range 30).foldl (fun (g : List Nat × Nat) _ =>
    ((List.range (g.1.length + 1)).map (fun k => g.1.getD k 0 ^^^ (if k = 0 then 0 else gfMul (g.1.getD (k - 1) 0) g.2)), gfMul g.2 2))
    ([1], 1)).1.drop 1

/-- The 30 parity symbols of a message of RS symbols. -/
def fecParity (msg : List Nat) : List Nat :=
  msg.foldl (fun r m =>
    let f := m ^^^ r.headD 0
    (r.drop 1 ++ [0]).zipWith (fun a g => a ^^^ gfMul f g) fecGenerator) (List.replicate 30 0)

/-- Five values as an RS symbol, the first in bits [9:8] (R408). -/
def rsSymbol (vs : List Nat) : Nat := vs.foldl (fun a v => a * 4 + v % 4) 0

/-- An RS symbol as five values. -/
def rsValues (x : Nat) : List Nat := [bits x 9 8, bits x 7 6, bits x 5 4, bits x 3 2, bits x 1 0]

/-- A codeword: a message of 2,570 values and its 150 parity values (R408). -/
def fecCodeword (vs : List Nat) : List Nat :=
  vs ++ (fecParity ((List.range 514).map (fun k => rsSymbol ((vs.drop (5 * k)).take 5)))).flatMap rsValues

/-- A lane's stream with FEC on: every whole message followed by its parity, codewords back to back (R408). -/
def fecStream (vs : List Nat) : Nat → List Nat
  | 0 => vs
  | n + 1 => if vs.length < 2570 then vs else fecCodeword (vs.take 2570) ++ fecStream (vs.drop 2570) n

/-! ### A lane sends (R404 to R407, R413) -/

/-- The values of what a lane sent, before Gray mapping: a block's 33, or the burst's 512 (R404, R413). -/
def LaneItem.values : LaneItem → List Nat
  | .block h p => blockValues h p
  | .burst => (List.range 512).map (fun k => k % 2 * 2)

/-- Something joins what the lane has sent; the last symbol follows it, precoded where the lane precodes and it is no burst (R403,
R413). -/
def Lane.put (l : Lane) (pre : Bool) (x : LaneItem) : Lane :=
  let xs := x.values.map grayLevel
  { l with out := l.out ++ [x], last := ((if pre ∧ x ≠ .burst then precode l.last xs else xs).getLast?).getD l.last }

/-- A comma block goes out where one is due: the first of every 1,024 blocks (R405). -/
def Lane.comma (l : Lane) (lane : Nat) (pre : Bool) : Lane :=
  if l.index % 1024 = 0 then { l with index := l.index + 1 }.put pre (.block hdrComma (commaPayload lane)) else l

/-- A data or control block goes out, its payload scrambled, after the comma that may be due (R404, R405, R407). -/
def Lane.send (l : Lane) (lane : Nat) (pre : Bool) (header payload : Nat) : Lane :=
  let l := l.comma lane pre
  let r := scramble l.scr payload 64
  { l with index := l.index + 1, scr := r.1 }.put pre (.block header r.2)

/-- The lane goes on at its next comma; the blocks that only fill the slots before it are left out (R412; assumption 76). -/
def Lane.align (l : Lane) : Lane := { l with index := (l.index + 1023) / 1024 * 1024 }

/-- The symbols that a lane has sent, as level indices: with FEC the parity stands between, without it the values as they are. -/
def Lane.levels (l : Lane) (fec : Bool) : List Nat :=
  let vs := l.out.flatMap LaneItem.values
  (if fec then fecStream vs (vs.length / 2570) else vs).map grayLevel

/-! ### Control blocks and flits as payloads (R414, R416) -/

/-- A control block's payload: type, content and CRC-8 (R414). -/
def controlPayload (typ content : Nat) : Nat :=
  let body := typ % 256 + content % 2 ^ 48 * 2 ^ 8
  body + crc8 (bytesOf 7 body) * 2 ^ 56

/-- The CRC-32 of IEEE 802.3, one byte further. -/
def crc32Byte : Nat → Nat → Nat
  | 0, c => c
  | n + 1, c => crc32Byte n (if bitAt c 0 then (c / 2) ^^^ 0xEDB88320 else c / 2)

/-- The CRC-32 of IEEE 802.3 over bytes (R416). -/
def crc32 (bs : List Byte) : Nat := (bs.foldl (fun c b => crc32Byte 8 (c ^^^ b.toNat)) 0xFFFFFFFF) ^^^ 0xFFFFFFFF

/-- The payload bytes of a flit. A MUSTER flit's are free: the spec does not lay its messages out as bytes (assumption 77). -/
def flitData (f : Flit) : List Byte :=
  if f.muster.isSome then (List.range 236).map (fun i => Config.musterByte f.seq i) else f.payload.take 236

/-- The 256 bytes of a flit (R416). -/
def flitBytes (f : Flit) : List Byte :=
  let head := pack [(0, 8, f.typ), (8, 2, f.vc), (10, 1, b2n f.last), (11, 1, b2n f.launched), (16, 16, f.seq), (32, 16, f.dst),
    (48, 16, f.src), (64, 8, f.ttl), (80, 16, (flitData f).length), (96, 16, f.xid), (112, 16, f.word)]
  let body := bytesOf 16 head ++ flitData f ++ List.replicate (236 - (flitData f).length) 0
  body ++ bytesOf 4 (crc32 body)

/-- Block j of a flit: bytes 8j to 8j + 7, little-endian (R416). -/
def flitBlock (f : Flit) (j : Nat) : Nat := ofBytes (((flitBytes f).drop (8 * j)).take 8)

/-! ### A port's lanes (R415, R416) -/

/-- Both lanes send a block each in the same slot, so that their commas keep step (R405). -/
def WPort.slot (w : WPort) (pre : Nat) (a b : Nat × Nat) : WPort :=
  { w with lane0 := w.lane0.send 0 (bitAt pre 0) a.1 a.2, lane1 := w.lane1.send 1 (bitAt pre 1) b.1 b.2 }

/-- Control blocks that both lanes carry: HALT, GO, AGG, LAUNCH (R415) and IDLE_ENTER (R413). -/
def onBothLanes (typ : Nat) : Bool := typ == 0x10 || typ == 0x11 || typ == 0x12 || typ == 0x30 || typ == 0x50

/-- What a port sends, laid on its lanes. A control block that one lane carries goes on lane 0 with NULL beside it (DESIGN CHOICE,
assumption 76); in training, the lane that sends none of its own sends zeros (R409); a flit is 32 data blocks, lane by lane in turn
(R416); a burst goes out on both lanes, and a comma follows it (R413). -/
def WPort.lay (w : WPort) (pre : Nat) : Sent → WPort
  | .block typ content =>
    let c := (hdrControl, controlPayload typ content)
    w.slot pre c (if onBothLanes typ then c else (hdrControl, controlPayload 0 0))
  | .train lane typ content =>
    let c := (hdrControl, controlPayload typ content)
    if lane = 0 then w.slot pre c (hdrData, 0) else w.slot pre (hdrData, 0) c
  | .flit f => (List.range 16).foldl (fun w i => w.slot pre (hdrData, flitBlock f (2 * i)) (hdrData, flitBlock f (2 * i + 1))) w
  | .burst =>
    let a := { w.lane0 with index := 0 }.put false .burst
    let b := { w.lane1 with index := 0 }.put false .burst
    { w with lane0 := a.comma 0 (bitAt pre 0), lane1 := b.comma 1 (bitAt pre 1) }

/-- A port sends: its record of what it sent grows, and its lanes carry it. -/
def WPort.emit (w : WPort) (pre : Nat) (xs : List Sent) : WPort :=
  xs.foldl (fun w x => { w.lay pre x with sent := w.sent ++ [x] }) w

end Sys2Proof.Machine
end

