-- ==== Sys2Proof/Machine/WaylineLink.lean ====
section
/-! DEFINITION. The Wayline link layer's sending side: control blocks by priority, flits with credits and the replay buffer,
and routes to nodes (R414 to R419). -/

namespace Sys2Proof.Machine

/-- A port. -/
def State.wport (s : State) (p : Nat) : WPort := nget {} p s.wln.ports
/-- A port replaced. -/
def State.setWport (s : State) (p : Nat) (x : WPort) : State := { s with wln := { s.wln with ports := nset {} p x s.wln.ports } }

/-- The states of WLN_P_STAT. -/
abbrev wDown : Nat := 0
abbrev wTraining : Nat := 1
abbrev wUp : Nat := 2
abbrev wIdle : Nat := 3
abbrev wExiting : Nat := 4
abbrev wRetraining : Nat := 5
abbrev wFailed : Nat := 6

/-- A port's state. -/
def State.wstate (s : State) (p : Nat) : Nat := s.fget fWLN_P_STAT_state p
/-- A port's state replaced; WLN_STATUS.up follows it. -/
def State.setWstate (s : State) (p st : Nat) : State :=
  (s.fput fWLN_P_STAT_state p st).fput fWLN_STATUS_up 0
    (setBit (s.fget fWLN_STATUS_up) p (decide (st = wUp ∨ st = wIdle ∨ st = wExiting)))

/-- A port whose link is up, idle included. -/
def State.linkUp (s : State) (p : Nat) : Bool := s.wstate p == wUp || s.wstate p == wIdle || s.wstate p == wExiting

/-- The order in which waiting control blocks are sent (R415): global signals, LAUNCH, time, ACK and NAK, training. -/
def blockClass (typ : Nat) : Nat :=
  if typ = 0x10 ∨ typ = 0x11 ∨ typ = 0x12 then 0
  else if typ = 0x30 then 1
  else if typ = 0x20 ∨ typ = 0x21 ∨ typ = 0x22 then 2
  else if typ = 0x01 ∨ typ = 0x02 then 3
  else 4

/-- A port's credits of a virtual channel (R418). -/
def WPort.credit (w : WPort) (vc : Nat) : Nat := if vc = 0 then w.credit0 else if vc = 1 then w.credit1 else w.credit2

/-- One credit spent. -/
def WPort.spend (w : WPort) (vc : Nat) : WPort :=
  if vc = 0 then { w with credit0 := w.credit0 - 1 }
  else if vc = 1 then { w with credit1 := w.credit1 - 1 }
  else { w with credit2 := w.credit2 - 1 }

/-- Waiting control blocks go out, class by class (R415). -/
def WPort.sendBlocks (w : WPort) (pre : Nat) : WPort :=
  let out := [0, 1, 2, 3, 4].flatMap (fun c => w.blocks.filter (fun b => blockClass b.1 == c))
  { w with blocks := [] }.emit pre (out.map (fun (b : Nat × Nat) => Sent.block b.1 b.2))

/-- Waiting flits go out while the replay buffer has room and their virtual channel has credit (R417, R418). -/
def WPort.sendFlits (w : WPort) (pre : Nat) : Nat → WPort
  | 0 => w
  | n + 1 =>
    if 64 ≤ w.replay.length then w
    else match w.waiting.find? (fun f => 0 < w.credit f.vc) with
      | none => w
      | some f =>
        let g := { f with seq := w.txSeq }
        let w' := { w.spend f.vc with waiting := w.waiting.erase f, replay := w.replay ++ [g] }
        WPort.sendFlits ({ w' with txSeq := (w.txSeq + 1) % 65536 }.emit pre [.flit g]) pre n

/-- A port that is up sends what waits. -/
def State.pump (s : State) (p : Nat) : State :=
  if s.wstate p = wUp then
    let pre := s.fget fWLN_P_STAT_pre_tx p
    let w := (s.wport p).sendBlocks pre
    s.setWport p (w.sendFlits pre w.waiting.length)
  else s

/-- A control block handed to a port. -/
def State.sendBlock (s : State) (p typ content : Nat) : State :=
  (s.setWport p { s.wport p with blocks := (s.wport p).blocks ++ [(typ, content)] }).pump p

/-- A flit handed to a port. -/
def State.sendFlit (s : State) (p : Nat) (f : Flit) : State :=
  (s.setWport p { s.wport p with waiting := (s.wport p).waiting ++ [f] }).pump p

/-- The device is a mustered member. -/
def State.mustered (s : State) : Bool := s.fget fWLN_STATUS_state == 2

/-- The port toward a node (R419): a member by WLN_ROUTE while mustered, a link partner while its port is up. -/
def State.wlnRoute (s : State) (node : Nat) : Option Nat :=
  if node < 256 then
    if s.mustered ∧ s.fget fWLN_ROUTE_port node < 4 then some (s.fget fWLN_ROUTE_port node) else none
  else if 0x100 ≤ node ∧ node < 0x104 ∧ s.linkUp (node - 0x100) then some (node - 0x100)
  else none

/-- The source node of a flit: the own member number, or a free value while the device is not mustered, where the spec gives it no
number (R419, assumption 11). -/
def State.ownNode (s : State) : State × Nat :=
  if s.mustered then (s, s.fget fWLN_STATUS_self) else (s.fresh.1, s.fresh.2.toNat % 65536)

/-- A flit of a service, not yet numbered. -/
def mkFlit (typ vc dst src xid word : Nat) (last : Bool) (payload : List Byte) : Flit :=
  ⟨typ, vc, last, false, 0, dst, src, 8, xid, word, payload, none⟩

/-- A flit sent back to a source: by the route while mustered, else out of the port that it came in on. -/
def State.replyFlit (s : State) (port node typ vc xid word : Nat) (last : Bool) (payload : List Byte) : State :=
  let own := s.ownNode
  let p := if node < 256 then (own.1.wlnRoute node).getD port else port
  own.1.sendFlit p (mkFlit typ vc node own.2 xid word last payload)

/-- A receiver owes a credit of a virtual channel; it goes back with the next ACK (R418). -/
def State.owe (s : State) (p vc : Nat) : State :=
  let w := s.wport p
  s.setWport p (if vc = 0 then { w with owed0 := w.owed0 + 1 } else if vc = 1 then { w with owed1 := w.owed1 + 1 }
    else { w with owed2 := w.owed2 + 1 })

/-- The ports that carry convoy signals: up, with convoy = 1 (R425). -/
def State.convoyPorts (s : State) : List Nat := (List.range 4).filter (fun p => s.linkUp p && s.fbit fWLN_P_CTL_convoy p)

/-! ### The site-fail aggregate (R428) -/

/-- The ports of the convoy tree: toward the parent and toward the members that the routes reach (R427, R433). -/
def State.treePorts (s : State) : List Nat :=
  (List.range 4).filter (fun p => s.wln.parent == some p || (List.range 256).any (fun n => s.fget fWLN_ROUTE_port n == p))

/-- The member is the root. -/
def State.isRoot (s : State) : Bool := s.fget fWLN_STATUS_self == s.fget fWLN_STATUS_root

/-- The OR of the local bits and the children's bits. -/
def State.aggOr (s : State) : Nat :=
  (s.treePorts.filter (fun p => s.wln.parent != some p)).foldl (fun v p => Nat.lor v (s.wport p).agg) (s.fget fWLN_AGG_local)

/-- An AGG block's content. -/
def aggContent (v : Nat) (fromRoot : Bool) : Nat := v * 2 ^ 8 + b2n fromRoot * 2 ^ 24

/-- The aggregate may have changed: a member sends it toward the root; the root sends the convoy OR down its tree, and a rise from 0
with agg_halt set calls for a halt (R428). -/
def State.aggChanged (s : State) : State :=
  if s.mustered = false then s
  else
    let v := s.aggOr
    if v = s.wln.aggUp then s
    else
      let old := s.wln.aggUp
      let s := { s with wln := { s.wln with aggUp := v } }
      if s.isRoot then
        let s := s.fput fWLN_AGG_convoy 0 v
        let s := s.treePorts.foldl (fun s p => s.sendBlock p 0x12 (aggContent v true)) s
        if old = 0 ∧ s.fbit fWLN_CONV_CTL_agg_halt then { s with wln := { s.wln with haltDue := true } } else s
      else match s.wln.parent with
        | some p => s.sendBlock p 0x12 (aggContent v false)
        | none => s

/-- A site has a counted fail, or is dropped under drop_on_fail: its bit sets while the member is mustered (R428, R431). -/
def State.aggSite (s : State) (site : Nat) : State :=
  if s.mustered ∧ s.fbit fWLN_AGG_MAP_en site then
    let b := s.fget fWLN_AGG_MAP_bit site
    (s.fput fWLN_AGG_local 0 (setBit (s.fget fWLN_AGG_local) b true)).aggChanged
  else s

end Sys2Proof.Machine
end

