-- ==== Sys2Proof/Machine/Depot.lean ====
section
/-! DEFINITION. The Depot: queue descriptors, commits and takes, spill, dropping with truncation markers, held senders,
thresholds and notification, host mirrors (R390 to R400, R498, R209, R210). Elements are numbers, little-endian (R6). -/

namespace Sys2Proof.Machine

/-- A queue's contents. -/
def State.dq (s : State) (q : Nat) : DQueue := nget {} q s.depot.queues
/-- A queue's contents replaced. -/
def State.setDq (s : State) (q : Nat) (x : DQueue) : State := { s with depot := { s.depot with queues := nset {} q x s.depot.queues } }

/-- The element size in bytes (R391). -/
def State.qElem (s : State) (q : Nat) : Nat := 16 * 2 ^ s.fget fDPT_Q_CTL_elem q
/-- The capacity in elements (R391). -/
def State.qCap (s : State) (q : Nat) : Nat := 2 ^ s.fget fDPT_Q_CTL_size_log2 q / s.qElem q
/-- The SRAM share in elements; 0 = none (R391, R393). -/
def State.qShare (s : State) (q : Nat) : Nat :=
  if s.fget fDPT_Q_CTL_sram_log2 q = 0 then 0 else 2 ^ s.fget fDPT_Q_CTL_sram_log2 q / s.qElem q
/-- A queue exists and is enabled (R390, R392). -/
def State.qOn (s : State) (q : Nat) : Bool := q != 0 && s.fbit fDPT_Q_CTL_en q

/-- The producer kinds (R392). Binnacle is of the control-plane kind and never waits (R394). -/
inductive Producer where
  | host | task (t : Nat) | block | dma (ch : Nat) | binnacle | dataPlane
  deriving DecidableEq, Repr

/-- The mask bit of a producer kind in DPT_Q_CTL.prod (R392). -/
def Producer.bit : Producer → Nat
  | .host => 0 | .task _ => 1 | .block => 1 | .dma _ => 1 | .binnacle => 1 | .dataPlane => 2

/-- How the Depot meets an offered element (R392, R394, R498). -/
inductive CommitResult where
  | accepted | refused | dropped | held
  deriving DecidableEq, Repr

/-- A threshold crossing notifies: a task flag, or an MSI-X vector (R399). -/
def State.notify (s : State) (q : Nat) : State :=
  match s.fget fDPT_Q_NOTIFY_kind q with
  | 1 => s.setFlags (s.fget fDPT_Q_NOTIFY_task q) (2 ^ s.fget fDPT_Q_NOTIFY_flag q)
  | 2 => s.signal (s.fget fDPT_Q_NOTIFY_vector q)
  | _ => s

/-- The crossings of a change of occupancy (R399). -/
def State.crossings (s : State) (q before after : Nat) : State :=
  let hi := s.fget fDPT_Q_THR_hi q
  let lo := s.fget fDPT_Q_THR_lo q
  if 1 ≤ hi ∧ before < hi ∧ hi ≤ after then s.notify q
  else if lo < before ∧ after ≤ lo then s.notify q
  else s

/-- The HPA of the i-th element ever committed to a queue, in its backing region: the region is a ring of elements (R391, R393;
DESIGN CHOICE, assumption 73). -/
def State.spillPlace (s : State) (q i : Nat) : Nat := s.fget fDPT_Q_BASE_hpa q + i % s.qCap q * s.qElem q

/-- A queue spills in the real-time class: its producer is a data-plane block (R19, R392). -/
def State.qSpillsFast (s : State) (q : Nat) : Bool := bitAt (s.fget fDPT_Q_CTL_prod q) 2

/-- A spilled element's write is handed to the spill port (R393). -/
def State.spillWrite (s : State) (q i elem : Nat) : State :=
  { s with depot := { s.depot with spills := s.depot.spills ++ [(s.spillPlace q i, s.qSpillsFast q, bytesOf (s.qElem q) elem)] } }

/-- An element joins the tail: into SRAM while nothing is spilled and the share has room, else spilled (R393). The commit
takes the next value of the commit sequence (R395). -/
def State.qPush (s : State) (q elem : Nat) : State :=
  let d := s.dq q
  let e := elem % 2 ^ (8 * s.qElem q)
  let near : Bool := decide (d.inSram = d.elems.length ∧ d.inSram < s.qShare q)
  let d' := { d with elems := d.elems ++ [e], inSram := if near then d.inSram + 1 else d.inSram }
  let s := if near then s else s.spillWrite q (s.fget fDPT_Q_TAIL_tail q) e
  let s := ((s.setDq q d').tick fDPT_Q_TAIL_tail q).tick fDPT_COMMIT_SEQ_seq
  s.crossings q d.elems.length d'.elems.length

/-- An element of len bytes offered to queue q by a producer (R392, R394, R498). A data-plane producer is never held: its
element is dropped and counted while the queue drops (R209), or lost and counted as an orphan. -/
def State.commit (s : State) (q : Nat) (who : Producer) (len elem : Nat) : State × CommitResult :=
  if q = 0 then (s, .refused)
  else if s.qOn q = false ∨ bitAt (s.fget fDPT_Q_CTL_prod q) who.bit = false ∨ s.qElem q < len then
    match who with
    | .host => (s.bump fDPT_Q_CNT_refused q, .refused)
    | .dataPlane => (s.bump fDPT_MARK_orphan, .refused)
    | _ => (s, .refused)
  else
    let d := s.dq q
    let full := s.qCap q ≤ d.elems.length
    match who with
    | .dataPlane =>
      if d.dropping then
        (((s.setDq q { d with dropped := d.dropped + 1 }).bump fDPT_Q_CNT_dropped q).tick fDPT_DROP_dropped, .dropped)
      else if full then
        (((s.setDq q { d with dropping := true, dropped := 1, dropSeq := s.fget fDPT_Q_TAIL_tail q }).bump
          fDPT_Q_CNT_dropped q).tick fDPT_DROP_dropped, .dropped)
      else (s.qPush q elem, .accepted)
    | .host | .binnacle => if full then (s.bump fDPT_Q_CNT_refused q, .refused) else (s.qPush q elem, .accepted)
    | .task t => if full ∨ d.held ≠ [] then (s.setDq q { d with held := d.held ++ [(.task t, elem)] }, .held) else (s.qPush q elem, .accepted)
    | .block => if full ∨ d.held ≠ [] then (s.setDq q { d with held := d.held ++ [(.block, elem)] }, .held) else (s.qPush q elem, .accepted)
    | .dma c => if full ∨ d.held ≠ [] then (s.setDq q { d with held := d.held ++ [(.dma c, elem)] }, .held) else (s.qPush q elem, .accepted)

/-- A report of a data-plane block (R13): committed or lost, never waited for. -/
def State.report (s : State) (q len elem : Nat) : State := if q = 0 then s else (s.commit q .dataPlane len elem).1

/-- A report of a control-plane block; it is held for the queue when full (R394). -/
def State.reportCtl (s : State) (q len elem : Nat) : State := if q = 0 then s else (s.commit q .block len elem).1

/-- A DMA channel's report; the channel waits while a full queue holds it (R353, R394). -/
def State.reportDma (s : State) (c q len elem : Nat) : State := if q = 0 then s else (s.commit q (.dma c) len elem).1

/-- Held senders are released in order while the queue has room (R386, R394). -/
def State.qAdmit (s : State) (q : Nat) : State :=
  let d := s.dq q
  match d.held with
  | [] => s
  | (who, elem) :: rest =>
    if d.elems.length < s.qCap q then
      let s := (s.setDq q { d with held := rest }).qPush q elem
      match who with
      | .task t => s.releaseTask t 0
      | .block => s
      | .dma _ => s
      | .wayline p ack => (s.owe p 0).sendFlit p ack
    else s

/-- The oldest element leaves the queue: head advances, a crossing notifies, and a held sender may enter (R386, R399). -/
def State.qTake (s : State) (q : Nat) : Option (Nat × State) :=
  let d := s.dq q
  match d.elems with
  | [] => none
  | e :: rest =>
    let s1 := (s.setDq q { d with elems := rest, inSram := d.inSram - 1 }).tick fDPT_Q_HEAD_head q
    some (e, (s1.crossings q d.elems.length rest.length).qAdmit q)

/-- A dropping queue at three quarters of its limit or below gets its truncation marker, and entries resume (R209, R210). -/
def State.qMark (s : State) (q : Nat) : State :=
  let d := s.dq q
  if d.dropping ∧ 4 * d.elems.length ≤ 3 * s.qCap q then
    let mark := pack [(16, 4, 0xF), (32, 32, min d.dropped (2 ^ 32 - 1)), (64, 64, d.dropSeq)]
    let s := (s.setDq q { d with dropping := false, dropped := 0, dropSeq := 0 }).qPush q mark
    (((s.bump fDPT_MARK_markers).bump fDPT_Q_CNT_markers q)).countFix 11
  else s

/-- Bytes written to host memory. -/
def State.hostWrite (s : State) (addr : Nat) : List Byte → State
  | [] => s
  | b :: r => State.hostWrite { s with host := { s.host with mem := nset 0 addr b s.host.mem } } (addr + 1) r

/-- Bytes read from host memory; a byte that nothing has written reads 0 (assumption 7). -/
def State.hostRead (s : State) (addr : Nat) : Nat → List Byte
  | 0 => []
  | n + 1 => nget 0 addr s.host.mem :: s.hostRead (addr + 1) n

/-- The mirror slots that the host has not released: written less consumed, both modulo 2^32; none when the count written as
consumed runs ahead (R363, R397; assumption 58). -/
def slotsHeld (written consumed : Nat) : Nat :=
  let d := (written + 2 ^ 32 - consumed) % 2 ^ 32
  if d < 2 ^ 31 then d else 0

/-- One element goes from a host-mirror queue into a slot that the host has released, and with wb_en the count of elements
mirrored so far follows it (R397). -/
def State.qMirror (s : State) (q : Nat) : State :=
  if s.qOn q ∧ s.fget fDPT_Q_CTL_cons q = 1 then
    let slots := 2 ^ s.fget fDPT_Q_MIRROR_slots_log2 q
    let done := s.fget fDPT_Q_MIR_PTR_mirrored q
    let released := s.fget fDPT_Q_MIR_PTR_released q
    if slotsHeld done released < slots then
      let i := s.fget fDPT_Q_HEAD_head q
      match s.qTake q with
      | none => s
      | some (e, s) =>
        let base := s.fget fDPT_Q_MIRROR_addr q * 4096
        let s := s.hostWrite (base + i % slots * s.qElem q) (bytesOf (s.qElem q) e)
        let s := s.tick fDPT_Q_MIR_PTR_mirrored q
        if s.fbit fDPT_Q_MIRROR_wb_en q then
          s.hostWrite (base + slots * s.qElem q) (bytesOf 8 (s.fget fDPT_Q_HEAD_head q))
        else s
    else s
  else s

/-- Numbers of queues that hold anything. -/
def State.qsUsed (s : State) : List Nat := s.depot.queues.map (·.1)

/-- Bytes spilled to HBM at present (DPT_SPILL). -/
def State.spillBytes (s : State) : Nat :=
  (s.depot.queues.map (fun e => (e.2.elems.length - e.2.inSram) * s.qElem e.1)).sum

/-- Senders held at present, tasks and blocks (SWY_STATUS.held). -/
def State.heldSenders (s : State) : Nat := (s.depot.queues.map (fun e => e.2.held.length)).sum

/-! ### The rows of the command table -/

/-- MIRROR_WRITE (R397). -/
def execMirrorWrite (q : QueueNo) (s : State) : Host.Outcome State Fault Refusal := .next (s.qMirror q.val)

end Sys2Proof.Machine
end

