-- ==== Sys2Proof/Machine/Hbm.lean ====
section
/-! DEFINITION. The HBM memory: interleave maps, the write queues, beats with their error codes, lost eighths and faulted
channels, memory events, and reads and writes by physical address (R304 to R331). Also the class arbiter's grant (R19 to
R25). -/

namespace Sys2Proof.Machine

/-! ### Interleave maps (R305 to R309) -/

/-- The channels of a set kind (R306). -/
def mapSetSize (kind : Nat) : Nat := if kind = 0 then 64 else 16

/-- The channel of set member c (R307). -/
def mapChannel (kind index c : Nat) : Nat :=
  if kind = 0 then c % 4 * 16 + c / 4 else if kind = 1 then 16 * index + c else c % 4 * 16 + 4 * index + c / 4

/-- A map as data: kind, index, grain exponent, base and length (R306). -/
structure MapSpec where
  kind : Nat
  index : Nat
  grain : Nat
  base : Nat
  len : Nat
  deriving DecidableEq, Repr

/-- The stored map m. -/
def State.mapSpec (s : State) (m : Nat) : MapSpec :=
  ⟨s.fget fMEM_MAP_CTL_kind m, s.fget fMEM_MAP_CTL_index m, s.fget fMEM_MAP_CTL_grain m,
   s.fget fMEM_MAP_BASE_base m, s.fget fMEM_MAP_LEN_len m⟩

/-- Map m is in use. -/
def State.mapValid (s : State) (m : Nat) : Bool := s.fbit fMEM_MAP_CTL_valid m

/-- The bytes a map holds (R306). -/
def MapSpec.size (p : MapSpec) : Nat := mapSetSize p.kind * p.len

/-- The channels that hold bytes [o, o + n) of a map (R307). -/
def MapSpec.channelsOf (p : MapSpec) (o n : Nat) : List Nat :=
  let g := 256 * 2 ^ p.grain
  let size := mapSetSize p.kind
  if n = 0 then []
  else (List.range (min size ((o + n - 1) / g + 1 - o / g))).map (fun i => mapChannel p.kind p.index ((o / g + i) % size))

/-- The channels that a map uses. -/
def MapSpec.channels (p : MapSpec) : List Nat := (List.range (mapSetSize p.kind)).map (mapChannel p.kind p.index)

/-- The map meets R306 by itself: kind and grain in range, base and length whole MiB, the band inside the channel. -/
def MapSpec.shapeOk (p : MapSpec) : Bool :=
  decide (p.kind < 3 ∧ p.grain < 9 ∧ p.base % 2 ^ 20 = 0 ∧ p.len % 2 ^ 20 = 0 ∧ p.base + p.len ≤ 0x90000000)

/-- The bands of two maps overlap in a channel that both use (R306); an empty band overlaps nothing. -/
def MapSpec.clashes (p r : MapSpec) : Bool :=
  decide (0 < p.len ∧ 0 < r.len ∧ p.base < r.base + r.len ∧ r.base < p.base + p.len) && p.channels.any (fun c => r.channels.contains c)

/-- A map may become valid as number m beside the other valid maps (R306, R309). -/
def State.mapFits (s : State) (m : Nat) (p : MapSpec) : Bool :=
  p.shapeOk && (List.range 16).all (fun k => k == m || !s.mapValid k || !p.clashes (s.mapSpec k))

/-- The channel and channel-local address of an HPA (R305, R307); none is a decode error (R310). -/
def State.hpaDecode (s : State) (hpa : Nat) : Option (Nat × Nat) :=
  let m := bits hpa 43 40
  let o := bits hpa 39 0
  let p := s.mapSpec m
  if s.mapValid m ∧ o < p.size then
    let g := 256 * 2 ^ p.grain
    let q := o / g
    let n := mapSetSize p.kind
    some (mapChannel p.kind p.index (q % n), p.base + q / n * g + o % g)
  else none

/-! ### Channels -/

/-- A channel. -/
def State.chan (s : State) (ch : Nat) : Chan := nget {} ch s.hbm.chans
/-- A channel replaced. -/
def State.setChan (s : State) (ch : Nat) (c : Chan) : State := { s with hbm := { s.hbm with chans := nset {} ch c s.hbm.chans } }

/-- The memory key of a channel-local address. -/
def memKey (ch addr : Nat) : Nat := ch * 2 ^ 32 + addr

/-- The mark of a beat. -/
def State.mark (s : State) (ch beat : Nat) : BeatMark := nget .clean (memKey ch beat) s.hbm.marks
/-- The mark of a beat replaced. -/
def State.setMark (s : State) (ch beat : Nat) (m : BeatMark) : State :=
  { s with hbm := { s.hbm with marks := nset .clean (memKey ch beat) m s.hbm.marks } }

/-- A byte of a channel; a byte that nothing has written reads 0 (assumption 8). -/
def State.memByte (s : State) (ch addr : Nat) : Byte := nget 0 (memKey ch addr) s.hbm.mem
/-- A byte of a channel stored. -/
def State.setMemByte (s : State) (ch addr : Nat) (b : Byte) : State :=
  { s with hbm := { s.hbm with mem := nset 0 (memKey ch addr) b s.hbm.mem } }

/-- The port numbers of R331. -/
abbrev portCR (c : Nat) : Nat := c
abbrev portCP (c : Nat) : Nat := 4 + c
abbrev portMS : Nat := 8
abbrev portTW : Nat := 9
abbrev portDM : Nat := 10
abbrev portDS : Nat := 11
abbrev portHP : Nat := 12
abbrev portRK (r : Nat) : Nat := 13 + r
abbrev portPB : Nat := 15
abbrev portWP : Nat := 16
abbrev portBP : Nat := 17
abbrev portCtrl : Nat := 18

/-- A memory event committed to the queue in MEM_EVQ (R331); corrected errors only with ce_report. -/
def State.memEvent (s : State) (event ch port hpa detail : Nat) : State :=
  if s.fbit fMEM_EVQ_enable ∧ (event ≠ 1 ∨ s.fbit fMEM_EVQ_ce_report) then
    s.report (s.fget fMEM_EVQ_queue) 32
      (pack [(0, 8, event), (8, 6, ch), (16, 4, 12), (20, 5, port), (64, 44, hpa), (128, 64, s.mer0), (192, 64, detail)])
  else s

/-- The eighth of a stack that a channel-local address lies in, as a bit number of MEM_SEG_LOST (R328). -/
def eighthBit (ch addr : Nat) : Nat := 8 * (ch / 16) + addr / 0x12000000

/-- A lost eighth (R330). -/
def State.isLost (s : State) (ch addr : Nat) : Bool := bitAt (s.fget fMEM_SEG_LOST_lost) (eighthBit ch addr)

/-- A faulted channel (R324). -/
def State.chFaulted (s : State) (ch : Nat) : Bool := s.fget fMEM_CH_STAT_state ch == 2

/-! ### Refresh stops and self-refresh as requests meet them (R311 to R314, R328 to R330) -/

/-- The MER0 reading of a grid point, in cycles (R311). -/
def State.gridPoint (s : State) (n : Nat) : Nat := s.fget fMEM_REF_ORG_cycles + n * 3120

/-- The instant at which MER0 reaches a reading in cycles. -/
def State.mer0Instant (s : State) (cycles : Nat) : Nat := ((s.mer 0).instantOf (cycles * fracOne)).getD s.now

/-- The number of the stop last begun, counted from 0 (R313). -/
def State.stopNumber (s : State) : Nat := s.fget fMEM_REF_STAT_stops + 2 ^ 32 - 1

/-- A maintenance stop: k mod 64 = 63 (R313). -/
def State.maintenance (s : State) : Bool := s.stopNumber % 64 == 63

/-- The instant at which the stop last begun ends: 720 cycles after its grid point, 1,440 for a maintenance stop (R313). -/
def State.stopEnd (s : State) : Nat :=
  s.mer0Instant (s.gridPoint (s.hbm.lastGrid.getD 0) + if s.maintenance then 1440 else 720)

/-- A refresh stop is in progress (R311): its end has not come. -/
def State.inStop (s : State) : Bool := s.hbm.stopped && decide (s.now < s.stopEnd)

/-- The memory serves requests: active and not in a refresh stop (R314). -/
def State.memServing (s : State) : Bool := s.fget fMEM_STATUS_state == 2 && !s.inStop

/-- A step that needs the memory lasts until the refresh stop in progress ends (R314; assumption 85). -/
def State.waitStop (s : State) : State := if s.inStop then s.advance s.stopEnd else s

/-! ### Beats -/

/-- Bytes of a write stored, lowest first, where the mask says so. -/
def State.storeBytes (s : State) (ch addr mask data : Nat) : Nat → State
  | 0 => s
  | n + 1 =>
    let s := if bitAt mask 0 then s.setMemByte ch addr (BitVec.ofNat 8 data) else s
    State.storeBytes s ch (addr + 1) (mask / 2) (data / 256) n

/-- A command issued to a channel joins its retry buffer, which holds the last 32 (R316). -/
def State.issue (s : State) (ch beat : Nat) (w : Option BeatWrite) : State :=
  s.setChan ch { s.chan ch with retry := ((beat, w) :: (s.chan ch).retry).take 32 }

/-- A queued write reaches the stack: a whole beat clears its mark, a part of an uncorrectable beat leaves stored poison
(R320). -/
def State.storeBeat (s : State) (ch : Nat) (w : BeatWrite) : State :=
  if w.mask = 2 ^ 32 - 1 then (s.storeBytes ch w.addr w.mask w.data 32).setMark ch w.addr .clean
  else match s.mark ch w.addr with
    | .uncorrectable => s.setMark ch w.addr .storedPoison
    | .storedPoison => s
    | _ => (s.storeBytes ch w.addr w.mask w.data 32).setMark ch w.addr .clean

/-- The first n entries of a write queue drain to the stack in order (R315). -/
def State.drain (s : State) (ch : Nat) : Nat → State
  | 0 => s
  | n + 1 => match (s.chan ch).queue with
    | [] => s
    | w :: r => State.drain (((s.setChan ch { s.chan ch with queue := r }).issue ch w.addr (some w)).storeBeat ch w) ch n

/-- How many entries stand up to and including the last that matches a beat (R315). -/
def matchDepth (beat : Nat) : List BeatWrite → Nat
  | [] => 0
  | w :: r => if matchDepth beat r = 0 then (if w.addr = beat then 1 else 0) else 1 + matchDepth beat r

/-- A read of a beat first drains the queue up to the matching entry (R315). -/
def State.drainMatching (s : State) (ch beat : Nat) : State := s.drain ch (matchDepth beat (s.chan ch).queue)

/-- A memory event of a bad beat; the layout of the symbol positions in its detail is open: a free value (R331; assumption 86). -/
def State.beatEvent (s : State) (event ch port hpa : Nat) : State := s.fresh.1.memEvent event ch port hpa s.fresh.2.toNat

/-- A beat read from the stack: whether it is poisoned, with the counts and reports of R318 to R320. A beat that fails at its first
reading alone is read once more and counts as corrected (R319). -/
def State.readBeat (s : State) (port hpa ch beat : Nat) : State × Bool :=
  let s := (s.drainMatching ch beat).issue ch beat none
  match s.mark ch beat with
  | .clean => (s, false)
  | .corrected => (((s.bump fMEM_CH_ECC_ce_count ch).countFix 4).beatEvent 1 ch port hpa, false)
  | .badOnce => ((((s.issue ch beat none).setMark ch beat .clean).bump fMEM_CH_ECC_ce_count ch).countFix 4 |>.beatEvent 1 ch port hpa,
      false)
  | .uncorrectable =>
    let s := (((s.issue ch beat none).bump fMEM_CH_ECC_ue_count ch).countFix 5).wr .MEM_CH_ERR_ADDR ch 0
      (BitVec.ofNat 64 (beat + port * 2 ^ 32))
    ((s.beatEvent 2 ch port hpa).logWrite 0x09 (12 + ch / 16) ch beat, true)
  | .storedPoison =>
    let s := ((s.bump fMEM_CH_ECC_stored_count ch).countFix 6).wr .MEM_CH_ERR_ADDR ch 0 (BitVec.ofNat 64 (beat + port * 2 ^ 32))
    (s.beatEvent 3 ch port hpa, true)

/-- A decode error (R310). -/
def State.decodeError (s : State) (port hpa : Nat) : State :=
  ((s.fput fMEM_STATUS_decode_err 0 1).wr .MEM_DEC_ADDR 0 0 (BitVec.ofNat 64 (hpa % 2 ^ 44 + port * 2 ^ 44))).memEvent 9 0 port hpa 0

/-- A request wakes the memory from self-refresh (R329). -/
def State.wakeMem (s : State) (port : Nat) : State :=
  if s.fget fMEM_STATUS_state = 3 ∨ s.fget fMEM_STATUS_state = 4 then
    { s.fput fMEM_STATUS_state 0 5 with hbm := { s.hbm with waking := some port } }
  else s

/-- An eighth that self-refresh does not keep: it is lost at exit (R328, R330). -/
def State.willLose (s : State) (ch addr : Nat) : Bool :=
  (s.fget fMEM_STATUS_state == 5 || s.fget fMEM_STATUS_state == 4 || s.fget fMEM_STATUS_state == 3) &&
    !bitAt (s.fget fMEM_PASR_keep) (eighthBit ch addr)

/-- A beat of a channel comes back poisoned without being read: an untrained memory, a faulted channel, a lost eighth (R324,
R330). -/
def State.beatGone (s : State) (ch a : Nat) : Bool :=
  decide (s.fget fMEM_STATUS_state < 2) || s.chFaulted ch || s.isLost ch a || s.willLose ch a

/-- A write at an HPA is discarded: no memory decodes there, its channel is faulted, or its eighth is lost (R310, R324, R330). -/
def State.hpaGone (s : State) (hpa : Nat) : Bool :=
  match s.hpaDecode hpa with
  | none => true
  | some (ch, a) => s.chFaulted ch || s.isLost ch a

/-- Bytes of one beat as the stack holds them, with its mark met, once the arbiter has served the request. -/
def State.pieceNow (s : State) (port hpa k : Nat) : State × List Byte × Bool :=
  match s.hpaDecode hpa with
  | none => (s.decodeError port hpa, List.replicate k 0, true)
  | some (ch, a) =>
    let r := if s.beatGone ch a then (s, true) else s.readBeat port hpa ch (a / 32 * 32)
    (r.1, (List.range k).map (fun i => r.1.memByte ch (a + i)), r.2)

/-! ### The class arbiter (R20, R21) -/

/-- The tokens of a bucket now: it accrues rate bytes a second and holds at most 64 KiB (R20). -/
def tokensNow (tok rate dt : Nat) : Nat := min bucketFull (tok + dt * rate)

/-- What a beat of 32 bytes costs. -/
def beatTokens : Nat := 32 * unitsPerSecond

/-- The group of a request in the order of R21. -/
def grantGroup (rt mg : Nat) (r : ArbReq) : Nat :=
  match r.cls with
  | .realTime => if 0 < rt then 1 else 3
  | .management => if 0 < mg then 2 else 5
  | .bulk => 4

/-- How far a port stands behind the one that its group served last, in round-robin order (R21). -/
def roundRobin (last port : Nat) : Nat := (port + 19 - (last + 1)) % 19

/-- The place of a request in the order of service: its group, then round robin within it (R21). -/
def grantKey (rt mg : Nat) (last : Bank Nat Nat) (r : ArbReq) : Nat :=
  let g := grantGroup rt mg r
  g * 32 + roundRobin (nget 18 g last) r.port

/-- The request that the arbiter serves: the first non-empty group, then round robin, then arrival (R21, R25). -/
def pickGrant (rt mg : Nat) (last : Bank Nat Nat) : List ArbReq → Option ArbReq
  | [] => none
  | r :: rest => match pickGrant rt mg last rest with
    | none => some r
    | some b => if grantKey rt mg last b < grantKey rt mg last r then some b else some r

/-- The tokens of a channel's real-time and management classes now (R20). -/
def State.rtTokens (s : State) (ch : Nat) : Nat := tokensNow (s.chan ch).rtTok 25000000000 (s.now - (s.chan ch).tokT)
def State.mgTokens (s : State) (ch : Nat) : Nat := tokensNow (s.chan ch).mgTok 500000000 (s.now - (s.chan ch).tokT)

/-- A channel after a grant: the request waits no more, its group served its port last, its class has paid (R20, R21). What a request
costs is not given: it pays for a whole beat of 32 bytes, and a grant that finds less empties the bucket (DESIGN CHOICE,
assumption 84). -/
def State.grantedChan (s : State) (ch : Nat) (r : ArbReq) : Chan :=
  let rt := s.rtTokens ch
  let mg := s.mgTokens ch
  let c := s.chan ch
  { c with waiting := c.waiting.erase r, last := nset 18 (grantGroup rt mg r) r.port c.last, tokT := s.now,
           rtTok := if r.cls = .realTime then rt - beatTokens else rt,
           mgTok := if r.cls = .management then mg - beatTokens else mg }

/-- A write enters the write queue, whose oldest entry drains first when it is full (R314, R315). -/
def State.enqueueWrite (s : State) (ch : Nat) (w : BeatWrite) : State :=
  let s := if (s.chan ch).queue.length < 64 then s else s.drain ch 1
  s.setChan ch { s.chan ch with queue := (s.chan ch).queue ++ [w] }

/-- A piece of a held read came back: it joins the oldest read that waits for it. -/
def fillPart (hpa : Nat) (v : List Byte × Bool) : List HeldRead → List HeldRead
  | [] => []
  | r :: rest =>
    if r.parts.any (fun e => e.1 == hpa && e.2.2.isNone) then
      ⟨r.parts.map (fun e => if e.1 = hpa then (e.1, e.2.1, some v) else e)⟩ :: rest
    else r :: fillPart hpa v rest

/-- The answer of a held read, all of whose pieces came back: data, or poisoned if a piece was (R321). -/
def HeldRead.answer (r : HeldRead) : Option HostReply :=
  if r.parts.all (fun e => e.2.2.isSome) then
    some (if r.parts.any (fun e => match e.2.2 with
        | some v => v.2
        | none => false) then .poisoned
      else .data (r.parts.flatMap (fun e => (e.2.2.getD ([], false)).1)))
  else none

/-- A piece of a host read is back; a read that is whole is answered. -/
def State.pieceBack (s : State) (hpa : Nat) (v : List Byte × Bool) : State :=
  let held := fillPart hpa v s.host.held
  let reply := match held.findSome? HeldRead.answer with
    | some r => some r
    | none => s.host.reply
  { s with host := { s.host with held := held.filter (fun r => r.answer.isNone), reply := reply } }

/-- A request that the arbiter has granted is performed: a write enters the write queue; a piece of a host read is read. -/
def State.serveReq (s : State) (ch : Nat) (r : ArbReq) : State :=
  match r.write with
  | some w => s.enqueueWrite ch w
  | none =>
    let v := s.pieceNow r.port r.addr r.len
    v.1.pieceBack r.addr v.2

/-- A granted request pays and is performed (R20, R21). -/
def State.grantReq (s : State) (ch : Nat) (r : ArbReq) : State := (s.setChan ch (s.grantedChan ch r)).serveReq ch r

/-- The arbiter of a channel grants one request. No grant during a refresh stop or self-refresh (R311, R329). -/
def State.grant (s : State) (ch : Nat) : State :=
  if s.memServing ∧ s.chFaulted ch = false then
    match pickGrant (s.rtTokens ch) (s.mgTokens ch) (s.chan ch).last (s.chan ch).waiting with
    | none => s
    | some r => s.grantReq ch r
  else s

/-- A channel's arbiter grants on until nothing waits, at most fuel requests: time passes (R21, R25). -/
def State.grantAll (s : State) (ch : Nat) : Nat → State
  | 0 => s
  | fuel + 1 => match pickGrant (s.rtTokens ch) (s.mgTokens ch) (s.chan ch).last (s.chan ch).waiting with
    | none => s
    | some r => State.grantAll (s.grantReq ch r) ch fuel

/-- Every request that waits at a channel is served. -/
def State.acceptWaiting (s : State) (ch : Nat) : State := s.grantAll ch (s.chan ch).waiting.length

/-- A read arrives at a channel's arbiter and is served in its turn: the waiting requests that R21 puts before it are granted
first, then it pays itself (R15, R19 to R21, R25). -/
def State.arbitrate (s : State) (ch : Nat) (q : ArbReq) : Nat → State
  | 0 => s.setChan ch (s.grantedChan ch q)
  | fuel + 1 => match pickGrant (s.rtTokens ch) (s.mgTokens ch) (s.chan ch).last ((s.chan ch).waiting ++ [q]) with
    | none => s
    | some r => if (s.chan ch).waiting.contains r then State.arbitrate (s.grantReq ch r) ch q fuel else s.setChan ch (s.grantedChan ch q)

/-- Every request that waits at any channel is served. -/
def State.acceptAll (s : State) : State := s.hbm.chans.foldl (fun s e => s.acceptWaiting e.1) s

/-- The first grid point after a MER0 reading in cycles (R312, R329). -/
def State.gridAfter (s : State) (cycles : Nat) : Nat :=
  if cycles < s.fget fMEM_REF_ORG_cycles then 0 else (cycles - s.fget fMEM_REF_ORG_cycles) / 3120 + 1

/-- The eighths that self-refresh did not keep are lost, and the memory is active (R330). -/
def State.loseEighths (s : State) : State :=
  (s.fput fMEM_SEG_LOST_lost 0 (Nat.lor (s.fget fMEM_SEG_LOST_lost) (2 ^ 32 - 1 - s.fget fMEM_PASR_keep))).fput fMEM_STATUS_state 0 2

/-- No wake is under way, and refresh stops resume at the next grid point (R329). -/
def State.leaveRefresh (s : State) : State :=
  { s with hbm := { s.hbm with waking := none, skipTo := s.gridAfter s.mer0 } }

/-- Waiting writes to lost eighths are discarded (R330). -/
def State.dropLostWrites (s : State) : State :=
  s.hbm.chans.foldl (fun s e => s.setChan e.1 { e.2 with waiting := e.2.waiting.filter (fun r => r.write.isNone || !s.isLost e.1 r.addr) }) s

/-- Exit from self-refresh completes (R329, R330): eighths not kept are lost, held writes to them are discarded, and refresh stops
resume at the next grid point. What waited is granted from now on, reads and writes in their turn (R21, R25). -/
def State.doSelfRefreshExit (s : State) : State :=
  if s.fget fMEM_STATUS_state = 5 then
    let t := s.loseEighths.memEvent 8 0 (s.hbm.waking.getD portCtrl) 0 (s.hbm.waking.getD portCtrl)
    t.leaveRefresh.dropLostWrites
  else s

/-- The memory ready to serve a port's request: a step that needs it lasts until the exit from self-refresh that the request begins or
joins, and until the refresh stop in progress ends; what waited before is served first (R311, R314, R329; assumption 85). -/
def State.memReady (s : State) (port : Nat) : State :=
  if s.fget fMEM_STATUS_state = 2 then s.waitStop
  else if s.fget fMEM_STATUS_state < 2 then s
  else (s.wakeMem port).doSelfRefreshExit.waitStop.acceptAll

/-- One beat read by HPA in a class, in its turn at the arbiter. -/
def State.readBeatAt (s : State) (port : Nat) (cls : Class) (hpa k : Nat) : State × List Byte × Bool :=
  match s.hpaDecode hpa with
  | none => s.pieceNow port hpa k
  | some (ch, a) =>
    let s := s.memReady port
    if s.beatGone ch a then s.pieceNow port hpa k
    else (s.arbitrate ch ⟨port, cls, none, hpa, k⟩ (s.chan ch).waiting.length).pieceNow port hpa k

/-- Beats read one after the other, at most fuel of them: the bytes, and whether any beat came back poisoned (R319). -/
def State.readBeats (s : State) (port : Nat) (cls : Class) (hpa n : Nat) : Nat → State × List Byte × Bool
  | 0 => (s, [], false)
  | fuel + 1 =>
    if n = 0 then (s, [], false)
    else
      let k := min n (32 - hpa % 32)
      let r := s.readBeatAt port cls hpa k
      let rest := State.readBeats r.1 port cls (hpa + k) (n - k) fuel
      (rest.1, r.2.1 ++ rest.2.1, r.2.2 || rest.2.2)

/-- A read of n bytes by HPA through a port, in a class. -/
def State.hbmRead (s : State) (port : Nat) (cls : Class) (hpa n : Nat) : State × List Byte × Bool :=
  s.readBeats port cls hpa n (n / 32 + 2)

/-- A 64-bit word read by HPA. -/
def State.hbmRead64 (s : State) (port : Nat) (cls : Class) (hpa : Nat) : State × Nat × Bool :=
  let r := s.hbmRead port cls hpa 8
  (r.1, ofBytes r.2.1, r.2.2)

/-- The DMA engine's class A limit: a write passes when 1.5 GB/s have let its channel's earlier class A writes pass, and takes
its own time after them (R23). The limit has no burst (DESIGN CHOICE, assumption 72). -/
def State.limitClassA (s : State) (port : Nat) (cls : Class) (ch bytes : Nat) : State :=
  if port = portDM ∧ cls = .realTime then
    s.setChan ch { s.chan ch with dmaNext := max s.now (s.chan ch).dmaNext + bytes * (unitsPerSecond / 1500000000) }
  else s

/-- The instant at which every class A write so far has passed the limit (R23). -/
def State.classAPast (s : State) : Nat := s.hbm.chans.foldl (fun t e => max t e.2.dmaNext) s.now

/-- A beat written to a faulted channel is discarded, and its run grows by it (R324). -/
def State.dropBeat (s : State) (ch hpa : Nat) : State :=
  let c := s.chan ch
  s.setChan ch { c with dropped := c.dropped + 1, droppedAt := if c.dropped = 0 then hpa else c.droppedAt }

/-- Each run of discarded beats is reported in one event (R324). -/
def State.reportDrops (s : State) (port : Nat) : State :=
  s.hbm.chans.foldl (fun s e =>
    if e.2.dropped = 0 then s
    else (s.setChan e.1 { s.chan e.1 with dropped := 0, droppedAt := 0 }).memEvent 10 e.1 port e.2.droppedAt e.2.dropped) s

/-- Writes of a beat to a faulted channel or a lost eighth are discarded (R324, R330); others enter the write queue, which
acknowledges them, or wait at the arbiter while the queue is full or the memory is asleep (R314, R315, R329). -/
def State.offerBeat (s : State) (port : Nat) (cls : Class) (hpa ch : Nat) (w : BeatWrite) : State :=
  let s := s.wakeMem port
  if s.fget fMEM_STATUS_state < 2 then s
  else if s.chFaulted ch then s.dropBeat ch hpa
  else if s.isLost ch w.addr then s
  else
    let c := s.chan ch
    let r : ArbReq := ⟨port, cls, some w, w.addr, 32⟩
    if s.fget fMEM_STATUS_state = 2 ∧ c.queue.length < 64 ∧ c.waiting = [] then s.grantReq ch r
    else s.setChan ch { c with waiting := c.waiting ++ [r] }

/-- Part of one beat written by HPA. -/
def State.writeBeatAt (s : State) (port : Nat) (cls : Class) (hpa : Nat) (bs : List Byte) : State :=
  match s.hpaDecode hpa with
  | none => s.decodeError port hpa
  | some (ch, a) =>
    (s.limitClassA port cls ch bs.length).offerBeat port cls hpa ch ⟨a / 32 * 32, (2 ^ bs.length - 1) * 2 ^ (a % 32), ofBytes bs * 2 ^ (8 * (a % 32)), port⟩

/-- Beats written one after the other, at most fuel of them. -/
def State.writeBeats (s : State) (port : Nat) (cls : Class) (hpa : Nat) (bs : List Byte) : Nat → State
  | 0 => s
  | fuel + 1 =>
    if bs = [] then s
    else
      let k := 32 - hpa % 32
      State.writeBeats (s.writeBeatAt port cls hpa (bs.take k)) port cls (hpa + k) (bs.drop k) fuel

/-- A write of bytes by HPA through a port. -/
def State.hbmWrite (s : State) (port : Nat) (cls : Class) (hpa : Nat) (bs : List Byte) : State :=
  (s.writeBeats port cls hpa bs (bs.length / 32 + 2)).reportDrops port

/-- Time passes until every write made so far is acknowledged: what a command that completes after its writes waits for (R25). A
write that waits for a stop or an exit is acknowledged after it (R314, R329). -/
def State.settleWrites (s : State) : State :=
  if s.hbm.chans.all (fun e => e.2.waiting.isEmpty) then s else (s.memReady portHP).acceptAll

/-- Every earlier write of a port is acknowledged: none of its writes waits at an arbiter, nor in the spill port (R25). -/
def State.portQuiet (s : State) (port : Nat) : Bool :=
  s.hbm.chans.all (fun e => e.2.waiting.all (fun r => r.write.isNone || r.port != port)) && (port != portDS || s.depot.spills == [])

/-! ### The spill port DS (R19, R393) -/

/-- The spilled elements that wait in the port are offered to their channels, oldest first, each in its class (R19, R393). -/
def State.offerSpills (s : State) : State :=
  s.depot.spills.foldl (fun s e => s.hbmWrite portDS (if e.2.1 then .realTime else .bulk) e.1 e.2.2)
    { s with depot := { s.depot with spills := [] } }

/-- A spilled element comes back through DS: what memory holds at its place (R393), and whether it is poisoned (R321). -/
def State.spillRead (s : State) (q i : Nat) : State × List Byte × Bool :=
  s.offerSpills.hbmRead portDS (if s.qSpillsFast q then .realTime else .bulk) (s.spillPlace q i) (s.qElem q)

/-- Spilled elements move back into SRAM, oldest first, while the share has room (R393). A poisoned spill read puts a
truncation marker with dropped = 1 in the element's place (R321, R210). -/
def State.qRefill (s : State) (q : Nat) (poisoned : Bool) : State :=
  let i := (s.dq q).inSram
  if i < (s.dq q).elems.length ∧ i < s.qShare q then
    let at' := s.fget fDPT_Q_HEAD_head q + i
    let r := s.spillRead q at'
    let s := r.1
    let d := s.dq q
    if poisoned ∨ r.2.2 then
      let mark := pack [(16, 4, 0xF), (32, 32, 1), (64, 64, at')]
      let s := (s.bump fDPT_MARK_markers).bump fDPT_Q_CNT_markers q
      (s.setDq q { d with elems := d.elems.set i mark, inSram := i + 1 }).countFix 11
    else s.setDq q { d with elems := d.elems.set i (ofBytes r.2.1), inSram := i + 1 }
  else s

/-- SPILL_REFILL (R393). -/
def execSpillRefill (q : QueueNo) (poisoned : Bool) (s : State) : Host.Outcome State Fault Refusal :=
  .next (s.qRefill q.val poisoned)

end Sys2Proof.Machine
end

