-- ==== Sys2Proof/Machine/Chart.lean ====
section
/-! DEFINITION. Chart: address spaces, table walks, cached translations, outstanding faults and their records, and reads and
writes by device virtual address (R332 to R349). -/

namespace Sys2Proof.Machine

/-- The fault kinds (R344). -/
abbrev kNotMapped : Nat := 1
abbrev kPermission : Nat := 2
abbrev kBadEntry : Nat := 3
abbrev kTablePoison : Nat := 4
abbrev kSpaceInvalid : Nat := 5
abbrev kDataPoison : Nat := 6
abbrev kHostError : Nat := 7
abbrev kLinkError : Nat := 8

/-- How a walk ends: a leaf with its page size, or a fault with its kind, level and the entry read (R334, R344). -/
inductive Walk where
  | leaf (pageBits entry level : Nat)
  | fault (kind level entry : Nat)
  deriving DecidableEq, Repr

/-- The page size of a leaf at a level, as a power of two (R334). -/
def leafBits (level : Nat) : Nat := if level = 1 then 30 else if level = 2 then 21 else 16

/-- The alignment a next-level table needs: its size, at least 256 B (R334). -/
def tableBits (level : Nat) : Nat := if level = 1 then 12 else 8

/-- A valid entry at a level is malformed (R336). -/
def State.badEntry (s : State) (level e : Nat) : Bool :=
  let leaf := bitAt e 1
  let addr := bits e 43 8 * 256
  decide (bits e 7 4 ≠ 0 ∨ bits e 63 44 ≠ 0) || (level == 3 && !leaf) || (!leaf && (bitAt e 2 || bitAt e 3)) ||
  (if leaf then
    decide (addr % 2 ^ leafBits level ≠ 0) ||
      !s.mapValid (bits addr 43 40) || decide ((s.mapSpec (bits addr 43 40)).size < bits addr 39 0 + 2 ^ leafBits level)
   else decide (addr % 2 ^ tableBits level ≠ 0) || !s.mapValid (bits addr 43 40))

/-- The DVA bits above what an entry of a level maps (R334). -/
def walkIndex (dva level : Nat) : Nat := dva / 2 ^ leafBits level

/-- A cached entry of a level on the way to a DVA (R338). -/
def State.walkCached (s : State) (space level dva : Nat) : Option Nat :=
  (s.chart.cached.find? (fun e => e.space == space && e.level == level && e.index == walkIndex dva level)).map (·.entry)

/-- A valid entry that names a table joins the walk cache; how many it holds is not given, and here none leaves but by R338
(DESIGN CHOICE, assumption 87). -/
def State.walkKeep (s : State) (space level dva e : Nat) : State :=
  if (s.walkCached space level dva).isSome then s
  else { s with chart := { s.chart with cached := ⟨space, level, walkIndex dva level, e⟩ :: s.chart.cached } }

/-- An entry of a level: from the walk cache, or read through TW (R334, R338). -/
def State.walkEntry (s : State) (cls : Class) (space dva level table : Nat) : State × Nat × Bool :=
  match s.walkCached space level dva with
  | some e => (s, e, false)
  | none => s.hbmRead64 portTW cls (table + 8 * if level = 1 then bits dva 47 30 else if level = 2 then bits dva 29 21 else bits dva 20 16)

/-- One level of a walk in a class, and the levels below it: at most three reads through TW (R334 to R336). -/
def State.walkFrom (s : State) (cls : Class) (space dva : Nat) (level table : Nat) : Nat → State × Walk
  | 0 => (s, .fault kBadEntry level 0)
  | fuel + 1 =>
    let r := s.walkEntry cls space dva level table
    let e := r.2.1
    if r.2.2 then (r.1, .fault kTablePoison level e)
    else if bitAt e 0 = false then (r.1, .fault kNotMapped level e)
    else if r.1.badEntry level e then (r.1, .fault kBadEntry level e)
    else if bitAt e 1 then (r.1, .leaf (leafBits level) e level)
    else (r.1.walkKeep space level dva e).walkFrom cls space dva (level + 1) (bits e 43 8 * 256) fuel

/-- The span of a space's level-1 table; 19 to 31 act as 18 (R334). -/
def State.spaceSpan (s : State) (space : Nat) : Nat := min (s.fget fCHT_AS_CTL_span space) 18

/-- A space is valid (R333). -/
def State.spaceValid (s : State) (space : Nat) : Bool := decide (space < 256) && s.fbit fCHT_AS_CTL_valid space

/-- A walk of the tables of a space, in a class (R333, R334); a root in a map that is not valid is malformed (R336). -/
def State.walk (s : State) (cls : Class) (space dva : Nat) : State × Walk :=
  if s.spaceValid space = false then (s, .fault kSpaceInvalid 0 0)
  else if 2 ^ s.spaceSpan space ≤ bits dva 47 30 ∨ 2 ^ 48 ≤ dva then (s, .fault kNotMapped 1 0)
  else if s.mapValid (bits (s.fget fCHT_AS_ROOT_hpa space) 43 40) = false then (s, .fault kBadEntry 1 0)
  else s.walkFrom cls space dva 1 (s.fget fCHT_AS_ROOT_hpa space) 3

/-- The TLB that a source uses: a pilot's own, or the shared one (R340, R343). -/
def tlbOf (source : Nat) : Nat := if source < 16 then source else 16

/-- The entries that a TLB holds (R340, R343). -/
def tlbSize (tlb : Nat) : Nat := if tlb < 16 then 1024 else 2048

/-- A cached leaf that covers a DVA. -/
def State.tlbFind (s : State) (tlb space dva : Nat) : Option TlbEntry :=
  s.chart.tlb.find? (fun e => e.tlb == tlb && e.space == space && e.base == dva / 2 ^ e.pageBits * 2 ^ e.pageBits)

/-- The class of a source's walks (R19, R340, R343). -/
def walkClass (source : Nat) : Class := if source < 16 ∨ source = 34 then .realTime else .bulk

/-- The class of a source's reads through a port (R19): Pilots and the measurement port are real-time, a DMA channel follows its
descriptor, Binnacle is management, all else is bulk. -/
def State.readClass (s : State) (source port : Nat) : Class :=
  if port = portBP then .management
  else if source < 16 ∨ source = 34 then .realTime
  else if 16 ≤ source ∧ source < 32 ∧ bitAt ((nget {} (source - 16) s.dma.chans).desc.getD 0) 8 then .realTime
  else .bulk

/-! ### Walks asked for and in flight (R341) -/

/-- A walk's answer is in the TLB. -/
def State.walkKnown (s : State) (w : WalkReq) : Bool := (s.tlbFind (tlbOf w.source) w.space w.dva).isSome

/-- The walk that Chart issues next: a real-time one before a bulk one, else the oldest asked for (R341). -/
def nextWalk (asked : List WalkReq) : Option WalkReq :=
  match asked.find? (fun w => walkClass w.source == .realTime) with
  | some w => some w
  | none => asked.head?

/-- Walks asked for are issued while fewer than 64 are in flight, at most fuel of them (R341). -/
def Chart.issue (c : Chart) : Nat → Chart
  | 0 => c
  | fuel + 1 =>
    if c.walks.length < 64 then match nextWalk c.asked with
      | none => c
      | some w => Chart.issue { c with asked := c.asked.erase w, walks := c.walks ++ [w] } fuel
    else c

/-- Walks are asked for; those whose answer is known or that are under way already are not asked for again (R340, R341). -/
def State.askWalks (s : State) (ws : List WalkReq) : State :=
  let new := ws.filter (fun w => !s.walkKnown w && !s.chart.asked.contains w && !s.chart.walks.contains w)
  let c := { s.chart with asked := s.chart.asked ++ new.eraseDups }
  { s with chart := c.issue c.asked.length }

/-- Walks are over, their answers known: others are issued in their place (R341). -/
def State.endWalks (s : State) (gone : WalkReq → Bool) : State :=
  let c := { s.chart with asked := s.chart.asked.filter (fun w => !gone w), walks := s.chart.walks.filter (fun w => !gone w) }
  { s with chart := c.issue c.asked.length }

/-- The page bases that lookahead wants from an address on: the page there and the next n, a page not yet translated counting as
64 KiB (R340; DESIGN CHOICE, assumption 74). -/
def State.pagesAhead (s : State) (source space dva : Nat) : Nat → List Nat
  | 0 => []
  | n + 1 =>
    let next := match s.tlbFind (tlbOf source) space dva with
      | some e => e.base + 2 ^ e.pageBits
      | none => (dva / 65536 + 1) * 65536
    dva / 65536 * 65536 :: State.pagesAhead s source space next n

/-- The walks that lookahead asks for over a region of a space: the page at a position and the next n - 1 within it. -/
def State.aheadWalks (s : State) (source space dva last n : Nat) (write : Bool) : List WalkReq :=
  ((s.pagesAhead source space dva n).filter (fun a => decide (a < last))).map (fun a => ⟨source, space, a, write⟩)

/-- A leaf cached, in place of any of the same page. Where a TLB is full, the oldest entry that lookahead did not bring makes room, so
that lookahead's entries never evict one another (R340); in a TLB without such an entry, the oldest one (assumption 9). -/
def State.tlbFill (s : State) (tlb space dva pageBits entry : Nat) (ahead : Bool) : State :=
  let base := dva / 2 ^ pageBits * 2 ^ pageBits
  let kept := s.chart.tlb.filter (fun e => !(e.tlb == tlb && e.space == space && e.base == base && e.pageBits == pageBits))
  let mine := kept.filter (fun e => e.tlb == tlb)
  let old := if mine.length < tlbSize tlb then kept
    else match (mine.find? (fun e => !e.ahead)).or mine.head? with
      | some e => kept.erase e
      | none => kept
  { s with chart := { s.chart with tlb := old ++ [⟨tlb, space, base, pageBits, entry, ahead⟩] } }

/-- The answer of a translation: an HPA with the bytes left in its page, or a fault. -/
inductive Trans where
  | hpa (a left : Nat)
  | fault (kind level entry : Nat)
  deriving DecidableEq, Repr

/-- The HPA that a leaf gives, or a permission fault (R335, R336). -/
def leafTrans (pageBits entry level dva : Nat) (write : Bool) : Trans :=
  if (if write then bitAt entry 3 else bitAt entry 2) then
    .hpa (bits entry 43 8 * 256 + dva % 2 ^ pageBits) (2 ^ pageBits - dva % 2 ^ pageBits)
  else .fault kPermission level entry

/-- The level of a leaf from its page size. -/
def levelOf (pageBits : Nat) : Nat := if pageBits = 30 then 1 else if pageBits = 21 then 2 else 3

/-! ### Faults (R345, R346) -/

/-- A fault slot. -/
def State.slot (s : State) (i : Nat) : Option FaultSlot := nget none i s.chart.slots
/-- A fault slot replaced. -/
def State.setSlot (s : State) (i : Nat) (f : Option FaultSlot) : State :=
  { s with chart := { s.chart with slots := nset none i f s.chart.slots } }

/-- A fault's record of 32 bytes (R346). -/
def faultRecord (f : FaultSlot) (id : Nat) : Nat :=
  pack [(0, 8, f.kind), (8, 1, b2n f.write), (9, 1, b2n f.early), (10, 1, b2n f.blocking), (12, 2, f.level), (16, 4, 13),
        (24, 8, f.space), (32, 48, f.dva), (80, 16, id), (96, 8, f.source), (128, 64, f.detail), (192, 64, f.cycles)]

/-- The fault id of a slot's fault (R346). -/
def faultId (slot gen : Nat) : Nat := slot % 64 + gen % 1024 * 64

/-- The outstanding faults with their slots. -/
def State.faults (s : State) : List (Nat × FaultSlot) := s.chart.slots.filterMap (fun e => e.2.map (fun f => (e.1, f)))

/-- How many slots a source may hold (R345). -/
def slotLimit (source : Nat) : Nat := if source < 16 then 2 else if source < 32 then 1 else if source = 33 then 8 else 0

/-- The lowest free slot. -/
def State.freeSlot (s : State) : Option Nat := (List.range 64).find? (fun i => (s.slot i).isNone)

/-- Helm's own reads and writes: the spec's list of sources gives them no code, so the record's source byte is a free value
(R346; assumption 14). -/
abbrev sourceHelm : Nat := 255

/-- A fault's record committed to the space's fault queue, which follows R209 (R346). -/
def State.postFault (s : State) (f : FaultSlot) (id : Nat) : State :=
  let s := s.countFix 8
  let q := s.fget fCHT_AS_CTL_fault_q f.space
  if f.source = sourceHelm then s.fresh.1.report q 32 (faultRecord { f with source := s.fresh.2.toNat % 256 } id)
  else s.report q 32 (faultRecord f id)

/-- The slot of a fault already outstanding for the same source and 64 KiB page (R345; assumption 10). -/
def State.sameFault (s : State) (f : FaultSlot) : Option (Nat × FaultSlot) :=
  s.faults.find? (fun e => e.2.source == f.source && e.2.space == f.space && e.2.dva / 65536 == f.dva / 65536)

/-- A Pilot's fault that found no slot: its page is walked again when one of the Pilot's faults clears (R345). -/
def State.missFault (s : State) (f : FaultSlot) : State :=
  let w : WalkReq := ⟨f.source, f.space, f.dva / 65536 * 65536, f.write⟩
  if f.source < 16 ∧ s.chart.missed.contains w = false then { s with chart := { s.chart with missed := s.chart.missed ++ [w] } } else s

/-- A fault met by a source: it joins an outstanding one, takes a slot with a record, goes unrecorded as a pilot's third, or
is recorded with id 0xFFFF for a source that holds no slot (R345, R346). The answer is the fault id. -/
def State.raiseFault (s : State) (f : FaultSlot) : State × Nat :=
  let f := { f with cycles := s.mer0 }
  if slotLimit f.source = 0 then (s.postFault { f with blocking := false, early := false } 0xFFFF, 0xFFFF)
  else match s.sameFault f with
  | some (i, g) =>
    let s := if f.source < 16 ∧ f.blocking ∧ g.blocking = false then s.bump fCHT_PLT_CNT_late f.source else s
    (s.setSlot i (some { g with blocking := g.blocking || f.blocking }), faultId i g.gen)
  | none =>
    if slotLimit f.source ≤ (s.faults.filter (fun e => e.2.source == f.source)).length then (s.missFault f, 0xFFFF)
    else match s.freeSlot with
      | none => (s, 0xFFFF)
      | some i =>
        let gen := nget 0 i s.chart.gens
        let f := { f with gen := gen }
        let s := { s with chart := { s.chart with gens := nset 0 i ((gen + 1) % 1024) s.chart.gens } }
        let s := if f.source < 16 then s.bump (if f.early then fCHT_PLT_CNT_early else fCHT_PLT_CNT_late) f.source else s
        ((s.setSlot i (some f)).postFault f (faultId i gen), faultId i gen)

/-- A fault of a context save or restore, which waits for no fault and holds no slot: a record only (R345). -/
def State.recordFault (s : State) (f : FaultSlot) : State :=
  s.postFault { f with blocking := false, early := false, cycles := s.mer0 } 0xFFFF

/-- The issue queue of a Pilot has emptied over pages that a lookahead fault keeps from it: accesses now wait (R346, R347). -/
def State.lateFaults (s : State) (p : Nat) : State :=
  (s.faults.filter (fun e => e.2.source == p && !e.2.blocking && !e.2.write)).foldl
    (fun s e => (s.setSlot e.1 (some { e.2 with blocking := true })).bump fCHT_PLT_CNT_late p) s

/-- A fault built from a translation's answer. -/
def mkFault (source space dva kind level entry : Nat) (write early blocking : Bool) : FaultSlot :=
  ⟨source, space, dva % 2 ^ 48, kind, level, write, early, blocking, 0, entry, 0⟩

/-- The slot whose fault has an id. -/
def State.slotOfId (s : State) (id : Nat) : Option (Nat × FaultSlot) :=
  s.faults.find? (fun e => faultId e.1 e.2.gen == id)

/-- The pages whose faults a Pilot's full slots kept out are walked again (R345). -/
def State.walkMissed (s : State) (source : Nat) : State :=
  let ws := s.chart.missed.filter (fun w => w.source == source)
  if ws = [] then s
  else ({ s with chart := { s.chart with missed := s.chart.missed.filter (fun w => w.source != source) } } : State).askWalks ws

/-- A fault clears: its slot is free, a page that its Pilot's full slots kept out is walked again, and a DMA channel suspended on it
goes on (R345, R354). -/
def State.clearFault (s : State) (i : Nat) (f : FaultSlot) : State :=
  let s := (s.setSlot i none).walkMissed f.source
  if 16 ≤ f.source ∧ f.source < 32 ∧ s.fget fDMA_CH_STAT_state (f.source - 16) = 2 then
    (s.fput fDMA_CH_STAT_state (f.source - 16) 1).fput fDMA_CH_STAT_fault_id (f.source - 16) 0
  else s

/-- A walk is of the same page for the same source. -/
def WalkReq.same (w v : WalkReq) : Bool := w.source == v.source && w.space == v.space && w.dva / 65536 == v.dva / 65536

/-- A walk counts in its class. -/
def State.countWalk (s : State) (source : Nat) : State :=
  if walkClass source = .realTime then s.bump fCHT_WALK_CNT_rt_walks else s.bump fCHT_WALK_CNT_bulk_walks

/-- A DMA channel whose walk faults is suspended at its granule (R347, R354). -/
def State.suspendDma (s : State) (c : Nat) (f : FaultSlot) : State :=
  let x := nget {} c s.dma.chans
  if s.fget fDMA_CH_STAT_state c = 1 ∧ x.desc.isSome ∧ x.status = 0 then
    let r := s.raiseFault f
    let s := (r.1.fput fDMA_CH_STAT_state c 2).fput fDMA_CH_STAT_fault_id c r.2
    let y := { nget {} c s.dma.chans with faultId := r.2 }
    (({ s with dma := { s.dma with chans := nset {} c y s.dma.chans } } : State).bump fDMA_CH_CNT_faults c).countFix 9
  else s

/-- The fault of a walk that nothing but its source asked for. -/
def State.walkFaults (s : State) (w : WalkReq) (kind level e : Nat) : State :=
  if w.source < 16 then (s.raiseFault (mkFault w.source w.space w.dva kind level e w.write true false)).1
  else if w.source < 32 then s.suspendDma (w.source - 16) (mkFault w.source w.space w.dva kind level e w.write false true)
  else s

/-- A walk in flight completes: its leaf is cached, or its fault is met: an early one of a Pilot's lookahead takes a slot, a DMA channel
is suspended on it, and the others meet it when their access is made (R340, R343, R345 to R347, R354). -/
def State.completeWalk (s : State) (w : WalkReq) : State :=
  let s := if w.source < 16 then s.bump fCHT_PLT_CNT_walks w.source else s
  match (s.countWalk w.source).walk (walkClass w.source) w.space w.dva with
  | (s, .leaf pb e level) =>
    let s := s.tlbFill (tlbOf w.source) w.space w.dva pb e (walkClass w.source == .realTime)
    let s := s.endWalks s.walkKnown
    match leafTrans pb e level w.dva w.write with
    | .hpa _ _ => s
    | .fault k l d => s.walkFaults w k l d
  | (s, .fault k l d) => (s.endWalks w.same).walkFaults w k l d

/-- Walks that stand before one complete until it is issued, at most fuel of them (R341). -/
def State.awaitIssue (s : State) (w : WalkReq) : Nat → State
  | 0 => s
  | fuel + 1 =>
    if s.chart.walks.any w.same then s
    else match s.chart.walks.head? with
      | none => s
      | some v => State.awaitIssue (s.completeWalk v) w fuel

/-- A walk that an access needs now is asked for and issued in its turn: real-time before bulk, at most 64 in flight; what stands
before it completes first (R341). -/
def State.issueWalk (s : State) (w : WalkReq) : State :=
  let s := if s.chart.asked.any w.same || s.chart.walks.any w.same then s else s.askWalks [w]
  s.awaitIssue w (s.chart.asked.length + s.chart.walks.length)

/-- A DVA translated for a source: from its TLB, or by a walk that fills it; a walk is issued in its turn and counts in its class (R19,
R340, R341, R343). -/
def State.translate (s : State) (source space dva : Nat) (write : Bool) : State × Trans :=
  match s.tlbFind (tlbOf source) space dva with
  | some e => (s, leafTrans e.pageBits e.entry (levelOf e.pageBits) dva write)
  | none =>
    let w : WalkReq := ⟨source, space, dva / 65536 * 65536, write⟩
    match ((s.issueWalk w).countWalk source).walk (walkClass source) space dva with
    | (s, .leaf pb e level) =>
      let s := s.tlbFill (tlbOf source) space dva pb e false
      (s.endWalks s.walkKnown, leafTrans pb e level dva write)
    | (s, .fault k l e) => (s.endWalks w.same, .fault k l e)

/-- What a TLB and the walk cache hold on the way to a DVA is forgotten: the next walk there is made afresh (R345). -/
def State.forget (s : State) (tlb space dva : Nat) : State :=
  { s with chart := { s.chart with
      tlb := s.chart.tlb.filter (fun e => !(e.tlb == tlb && e.space == space && e.base == dva / 2 ^ e.pageBits * 2 ^ e.pageBits))
      cached := s.chart.cached.filter (fun e => !(e.space == space && e.index == walkIndex dva e.level)) } }

/-- An outstanding fault is retried by a walk made afresh: it clears when the walk now gives the access its leaf. The answer is the new kind of a
walk that faults again, 0 when it cleared (R345). A fault that is no walk's clears, since the access is made again (R422). -/
def State.retryFault (s : State) (i : Nat) : State × Nat :=
  match s.slot i with
  | none => (s, 0)
  | some f =>
    if kDataPoison ≤ f.kind then (s.clearFault i f, 0)
    else match (s.forget (tlbOf f.source) f.space f.dva).translate f.source f.space f.dva f.write with
      | (s, .hpa _ _) => (s.clearFault i f, 0)
      | (s, .fault k l e) => (s.setSlot i (some { f with kind := k, level := l, detail := e }), k)

/-- Every outstanding fault in a DVA range of a space is retried (R338, R345). -/
def State.retryRange (s : State) (space lo len : Nat) : State :=
  (List.range 64).foldl (fun s i => match s.slot i with
    | some f => if f.space = space ∧ lo ≤ f.dva ∧ f.dva < lo + len then (s.retryFault i).1 else s
    | none => s) s

/-- A cached level-1 or level-2 entry lies on the way to a byte of a range (R338). -/
def WalkEntry.hits (e : WalkEntry) (space lo len : Nat) : Bool :=
  e.space == space && decide (e.index * 2 ^ leafBits e.level < lo + len ∧ lo < (e.index + 1) * 2 ^ leafBits e.level)

/-- Cached entries of a range dropped, in the TLBs and in the walk cache (R338). -/
def State.tlbDrop (s : State) (space lo len : Nat) : State :=
  { s with chart := { s.chart with
      tlb := s.chart.tlb.filter (fun e => !(e.space == space && decide (e.base < lo + len ∧ lo < e.base + 2 ^ e.pageBits)))
      cached := s.chart.cached.filter (fun e => !e.hits space lo len) } }

/-- Every fault of a pilot clears when its job ends (R349). -/
def State.clearPilotFaults (s : State) (p : Nat) : State :=
  s.faults.foldl (fun s e => if e.2.source = p then s.setSlot e.1 none else s) s

/-! ### Reads and writes by DVA -/

/-- How an access by DVA ends: done, a fault at a DVA, or poisoned data. -/
inductive Access' where
  | done (bytes : List Byte)
  | fault (f : FaultSlot)
  | poison
  deriving DecidableEq, Repr

/-- Bytes read by DVA, page by page, at most fuel pages. -/
def State.dvaReadPages (s : State) (source port space dva n : Nat) : Nat → State × Access'
  | 0 => (s, .done [])
  | fuel + 1 =>
    if n = 0 then (s, .done [])
    else match s.translate source space dva false with
      | (s, .fault k l e) => (s, .fault (mkFault source space dva k l e false false true))
      | (s, .hpa a left) =>
        let k := min n left
        let r := s.hbmRead port (s.readClass source port) a k
        if r.2.2 then (r.1, .poison)
        else match State.dvaReadPages r.1 source port space (dva + k) (n - k) fuel with
          | (s, .done rest) => (s, .done (r.2.1 ++ rest))
          | (s, other) => (s, other)

/-- A read of n bytes by DVA (R334, R346). -/
def State.dvaRead (s : State) (source port space dva n : Nat) : State × Access' :=
  s.dvaReadPages source port space dva n (n / 65536 + 2)

/-- Every page of a span translates for writing: the HPAs page by page. -/
def State.dvaSpan (s : State) (source space dva n : Nat) : Nat → State × Option FaultSlot × List (Nat × Nat)
  | 0 => (s, none, [])
  | fuel + 1 =>
    if n = 0 then (s, none, [])
    else match s.translate source space dva true with
      | (s, .fault k l e) => (s, some (mkFault source space dva k l e true false true), [])
      | (s, .hpa a left) =>
        let k := min n left
        let r := State.dvaSpan s source space (dva + k) (n - k) fuel
        (r.1, r.2.1, (a, k) :: r.2.2)

/-- Bytes stored over translated pieces. -/
def State.writePieces (s : State) (port : Nat) (cls : Class) (bs : List Byte) : List (Nat × Nat) → State
  | [] => s
  | (a, k) :: r => State.writePieces (s.hbmWrite port cls a (bs.take k)) port cls (bs.drop k) r

/-- A write of bytes by DVA: translated whole first, written only if no page faults (R346, R352). -/
def State.dvaWrite (s : State) (source port : Nat) (cls : Class) (space dva : Nat) (bs : List Byte) : State × Option FaultSlot :=
  let r := s.dvaSpan source space dva bs.length (bs.length / 65536 + 2)
  match r.2.1 with
  | some f => (r.1, some f)
  | none => (r.1.writePieces port cls bs r.2.2, none)

end Sys2Proof.Machine
end

