-- ==== Sys2Proof/Machine/Jobs.lean ====
section
/-! DEFINITION. Jobs and the pins, meridian, channels and engines that they hold: the descriptor's fields (R213), who holds
what (R211, R212), what R14 protects while a leg runs, and when a meridian is in use (R48). -/

namespace Sys2Proof.Machine

/-- A Pilot. -/
def State.pilot (s : State) (p : Nat) : Pilot := nget {} p s.pilots
/-- A Pilot replaced. -/
def State.setPilot (s : State) (p : Nat) (x : Pilot) : State := { s with pilots := nset {} p x s.pilots }
/-- A Pilot's sequencer replaced. -/
def State.setSeq (s : State) (p : Nat) (q : Seq) : State := s.setPilot p { s.pilot p with q := q }
/-- A Pilot's leg replaced. -/
def State.setLeg (s : State) (p : Nat) (l : Leg) : State := s.setPilot p { s.pilot p with leg := l }
/-- A Pilot's streams replaced. -/
def State.setStr (s : State) (p : Nat) (x : Streams) : State := s.setPilot p { s.pilot p with str := x }
/-- A pin. -/
def State.pin (s : State) (n : Nat) : Pin := nget {} n s.pins
/-- A pin replaced. -/
def State.setPin (s : State) (n : Nat) (x : Pin) : State := { s with pins := nset {} n x s.pins }
/-- A job-table entry. -/
def State.job (s : State) (j : Nat) : Job := nget {} j s.jobs
/-- A job-table entry replaced. -/
def State.setJob (s : State) (j : Nat) (x : Job) : State := { s with jobs := nset {} j x s.jobs }

/-- A field of a job descriptor: byte offset and size (R213). -/
def Job.field (j : Job) (off size : Nat) : Nat := bits j.desc (8 * (off + size) - 1) (8 * off)
def Job.pilot (j : Job) : Nat := j.field 0 1 % 16
def Job.priority (j : Job) : Nat := j.field 1 1
def Job.meridian (j : Job) : Nat := j.field 2 1
def Job.aspace (j : Job) : Nat := j.field 3 1
/-- A flag of a job descriptor (R213). -/
def Job.flag (j : Job) (k : Nat) : Bool := bitAt (j.field 4 2) k
def Job.almBase (j : Job) : Nat := j.field 6 2
def Job.almCount (j : Job) : Nat := j.field 8 2
def Job.ctDensity (j : Job) : Nat := j.field 0xA 2
def Job.sites (j : Job) : Nat := j.field 0x10 8
def Job.maskInit (j : Job) : Nat := j.field 0x18 8
def Job.route (j : Job) : Nat := j.field 0x20 8
def Job.stream (j : Job) : Nat := j.field 0x28 8
def Job.tcBase (j : Job) : Nat := j.field 0x30 8
def Job.tcBytes (j : Job) : Nat := j.field 0x38 8
def Job.ctBase (j : Job) : Nat := j.field 0x40 8
def Job.ctBytes (j : Job) : Nat := j.field 0x48 8
def Job.ffTable (j : Job) : Nat := j.field 0x50 8
def Job.ctx (j : Job) : Nat := j.field 0x58 8
def Job.queue (j : Job) (k : Nat) : Nat := j.field (0x60 + 2 * k) 2 % 16384
def Job.faultQ (j : Job) : Nat := j.field 0x80 2 % 16384
def Job.captureQ (j : Job) : Nat := j.field 0x82 2 % 16384
def Job.statusQ (j : Job) : Nat := j.field 0x84 2 % 16384
def Job.capPos (j : Job) : Nat := j.field 0x88 8
def Job.sxtChans (j : Job) : Nat := j.field 0x90 8
def Job.ddsEngines (j : Job) : Nat := j.field 0x98 1
def Job.logQueue (j : Job) (site : Nat) : Nat := j.field (0x100 + 4 * site) 2 % 16384
def Job.logLimit (j : Job) (site : Nat) : Nat := j.field (0x102 + 4 * site) 2

/-- A job accepted for start and not ended (R214, R215). -/
def Job.accepted (j : Job) : Bool := j.st == .awaiting || j.st == .running || j.st == .suspended

/-- The jobs accepted at present, by number. -/
def State.acceptedJobs (s : State) : List (Nat × Job) := s.jobs.filter (fun e => e.2.accepted)

/-- A pin's site (R211). -/
def State.pinSite (s : State) (n : Nat) : Nat := s.fget fPIN_SITE_site n

/-- The pins of a job in ascending number: its row positions (R212, R119). -/
def State.jobPins (s : State) (j : Job) : List Nat := (List.range 48).filter (fun n => bitAt j.sites (s.pinSite n))

/-- The accepted job that holds a pin (R212). -/
def State.pinJob (s : State) (n : Nat) : Option (Nat × Job) := s.acceptedJobs.find? (fun e => bitAt e.2.sites (s.pinSite n))

/-- A leg runs on a Pilot. -/
def State.legRuns (s : State) (p : Nat) : Bool :=
  ((s.pilot p).st == .inLeg || (s.pilot p).st == .holding) && (s.pilot p).leg.ending != 3

/-- The Pilot whose running leg a pin belongs to. -/
def State.pinLeg (s : State) (n : Nat) : Option Nat :=
  (List.range 16).find? (fun p => s.legRuns p && bitAt (s.job (s.pilot p).job).sites (s.pinSite n))

/-- A pin belongs to a running leg (R14). -/
def State.pinInLeg (s : State) (n : Nat) : Bool := (s.pinLeg n).isSome

/-- The job of a Pilot. -/
def State.pjob (s : State) (p : Nat) : Job := s.job (s.pilot p).job

/-- A Pilot's leg has come to its S (R60, R503). -/
def State.legBegan (s : State) (p : Nat) : Bool := decide ((s.pilot p).leg.s88 ≤ s.odo (s.pjob p).meridian)

/-- A pin is in the in-leg state: from the S of its leg onward (R63, R503). -/
def State.pinFromS (s : State) (n : Nat) : Bool :=
  match s.pinLeg n with
  | some p => s.legBegan p
  | none => false

/-- A pin's leg waits in its slip window, or for its S after the sync edge: the pin stays parked (R61, R503). -/
def State.pinWaitsSlip (s : State) (n : Nat) : Bool :=
  (List.range 16).any (fun p => bitAt (s.job (s.pilot p).job).sites (s.pinSite n) &&
    (((s.pilot p).leg.slip.isSome && (s.pilot p).st == .awaiting) || (s.legRuns p && (s.pilot p).leg.slipLeg && !s.legBegan p)))

/-- A running leg is timed by a meridian (R14). -/
def State.merInLeg (s : State) (m : Nat) : Bool := (List.range 16).any (fun p => s.legRuns p && (s.pjob p).meridian == m)

/-- A running leg controls a Sextant channel (R14). -/
def State.sxtInLeg (s : State) (c : Nat) : Bool := (List.range 16).any (fun p => s.legRuns p && bitAt (s.pjob p).sxtChans c)

/-- A running leg controls a DDS engine (R14). -/
def State.ddsInLeg (s : State) (e : Nat) : Bool := (List.range 16).any (fun p => s.legRuns p && bitAt (s.pjob p).ddsEngines e)

/-- An Almanac entry in the range and pins of a running job, in a leg or between legs (R111, R221). -/
def State.almProtected (s : State) (set pin : Nat) : Bool :=
  match s.pinJob pin with
  | some (_, j) => j.st == .running && decide (j.almBase ≤ set ∧ set < j.almBase + j.almCount)
  | none => false

/-- Time as a job's legs see it: the reading of its meridian now. -/
def State.jobOdo (s : State) (j : Job) : Nat := s.odo j.meridian

/-- The pins that a command's 48-bit mask names. -/
def pinsOf (mask : Nat) : List Nat := maskBits 48 mask

end Sys2Proof.Machine
end

