-- ==== Sys2Proof/Machine/Pins.lean ====
section
/-! DEFINITION. The pin front end (chapter 03): the state of a pin, level and threshold validity, settling, parking. The rows
of this family stand at the end of the file; the class 0x3 commands stand in Machine/PinCommands.lean. -/

namespace Sys2Proof.Machine

/-- The driver levels break R68, or the PMU clamps break R77 while the mode is FIMV. -/
def State.lvlErr (s : State) (n : Nat) : Bool :=
  decide (s.fget fPIN_DRV_LVL_vih n < s.fget fPIN_DRV_LVL_vil n + 216) ||
  (s.fget fPIN_PMU_CTL_mode n == 2 && decide (s.fget fPIN_PMU_CLAMP_clamp_hi n < s.fget fPIN_PMU_CLAMP_clamp_lo n))

/-- The thresholds break R72. -/
def State.cmpErr (s : State) (n : Nat) : Bool := decide (s.fget fPIN_CMP_LVL_voh n < s.fget fPIN_CMP_LVL_vol n)

/-- The analogue bus connected; 5 to 7 act as 0 (R81). -/
def State.abus (s : State) (n : Nat) : Nat := if s.fget fPIN_CTL_abus_sel n < 5 then s.fget fPIN_CTL_abus_sel n else 0

/-- The thermal act is in force (R465). -/
def State.thermalAct (s : State) : Bool := s.fget fTHM_STAT_state == 2

/-- A domain is powered down, or powering up. -/
def State.isDown (s : State) (d : Nat) : Bool := bitAt s.bnc.down d

/-- A domain's power-down is pending: it is served before any leg start (R450, R451). -/
def State.goesDown (s : State) (d : Nat) : Bool := bitAt (s.fget fPWR_SWITCHING_pending) d && !bitAt s.bnc.rising d

/-- The state of a pin by the priorities of R63: 0 = unpowered; 1 = park; 2 = idle drive low; 3 = idle drive high; 4 = idle
terminate; 5 = in leg; 6 = analogue connected; 7 = trip. -/
def State.pinState (s : State) (n : Nat) : Nat :=
  if s.bnc.tripped then 7
  else if s.isDown (n / 4) then 0
  else if s.pinFromS n then 5
  else if (s.pin n).risen then 1
  else if s.fbit fPIN_STATUS_fault_park n ∨ s.pinWaitsSlip n then 1
  else if s.fbit fPIN_STATUS_ov n ∧ s.fbit fPIN_CTL_ov_action n then 1
  else if s.thermalAct then 1
  else if s.fget fPIN_PMU_CTL_mode n ≠ 0 ∨ s.abus n ≠ 0 then 6
  else match s.fget fPIN_CTL_idle_state n with
    | 0 => 1
    | 1 => if s.lvlErr n then 1 else 2
    | 2 => if s.lvlErr n then 1 else 3
    | _ => 4

/-- A pin's comparator is on: it is off while unpowered and in trip (R75). -/
def State.cmpOn (s : State) (n : Nat) : Bool := s.pinState n != 0 && s.pinState n != 7

/-- The live comparator state; 0 while the comparator is off (R74, R75). -/
def State.pinCmp (s : State) (n : Nat) : Nat := if s.cmpOn n then (s.pin n).cmp else 0

/-- An overvoltage protects the pin: drive codes act as DZ and the termination is off (R82). -/
def State.protects (s : State) (n : Nat) : Bool := s.fbit fPIN_STATUS_ov n && s.fbit fPIN_CTL_ov_action n

/-- A pin of a dropped site whose parked vectors have begun to come to the pins (R219): its site is parked from an index whose
period has begun. -/
def State.parkedDrop (s : State) (n : Nat) : Bool :=
  match s.pinLeg n with
  | some p => match nget none (s.pinSite n) (s.pilot p).leg.parkFrom with
    | some i => decide (i < (s.pilot p).leg.begun)
    | none => false
  | none => false

/-- The PMU or the analogue bus is asked for. -/
def State.asksAnalogue (s : State) (n : Nat) : Bool := s.fget fPIN_PMU_CTL_mode n != 0 || s.abus n != 0

/-- 200 ns have passed since the PMU or the analogue bus was last asked for or let go: break-before-make is over (R65). -/
def State.breakOver (s : State) (n : Nat) : Bool :=
  match (s.pin n).anaAt with
  | some t => decide (t + 200 * unitsPerNs ≤ s.now)
  | none => true

/-- The PMU and analogue-bus switches are closed: 200 ns after the driver and the termination are off (R65); protect keeps the PMU
and the bus disconnected (R82), for the pin is then in park. -/
def State.switchesClosed (s : State) (n : Nat) : Bool := s.pinState n == 6 && s.breakOver n

/-- What a write that may ask for the PMU or the bus, or let it go, starts: break-before-make (R65). -/
def State.noteAnalogue (s : State) (n : Nat) (was : Bool) : State :=
  if s.asksAnalogue n = was then s else s.setPin n { s.pin n with anaAt := some s.now }

/-- The driver outside a leg follows the pin's state; in a leg it follows the vectors, but protect holds it off (R82, R63). It
switches on 200 ns after the switches of the PMU and the bus have opened, in a leg too (R65). -/
def State.pinDrive (s : State) (n : Nat) : Drive :=
  match s.pinState n with
  | 5 => if s.protects n ∨ s.breakOver n = false then .off else (s.pin n).drive
  | 2 => if s.breakOver n then .low else .off
  | 3 => if s.breakOver n then .high else .off
  | _ => .off

/-- The termination (R71): off at a pin that protects (R82) and at the pins of a dropped site that are parked (R219). -/
def State.pinTerm (s : State) (n : Nat) : Bool :=
  s.fbit fPIN_CTL_term_mode n && s.breakOver n && (s.pinState n == 4 ||
    (s.pinState n == 5 && s.pinDrive n == .off && !s.protects n && !s.parkedDrop n))

/-! ### Voltages and currents (R67, R72, R73, R76, R77, R79, R85, R86) -/

/-- The voltage of a driver or termination code, in mV x 4095 (R67). -/
def driveVolt (c : Nat) : Int := 1900 * (c : Int) - 300 * 4095

/-- The voltage of a threshold code, in mV x 4095 (R72). -/
def thresholdVolt (c : Nat) : Int := 2100 * (c : Int) - 400 * 4095

/-- The voltage of a PMU code, in mV x 65535 (R77). -/
def pmuVolt (c : Nat) : Int := 2500 * (c : Int) - 500 * 65535

/-- The PMU range in force: 5 to 7 act as 4 (R76). -/
def pmuRange (r : Nat) : Nat := min r 4

/-- The full scale of a PMU range in fA (R76). -/
def pmuFull (r : Nat) : Nat :=
  match pmuRange r with
  | 0 => 2000000000
  | 1 => 20000000000
  | 2 => 200000000000
  | 3 => 2000000000000
  | _ => 32000000000000

/-- A range's full scale, in nA (R76). -/
def pmuFullScale (r : Nat) : Nat :=
  match pmuRange r with
  | 0 => 2000 | 1 => 20000 | 2 => 200000 | 3 => 2000000 | _ => 32000000

/-- The current that a value forces in a range, in nA x 32768 (R77). -/
def pmuCurrent (value r : Nat) : Int := sext 16 value * (pmuFullScale r : Nat)

/-- PIN_TRIM: what the device has loaded from eFuse at the quad's power-up (R85); a quad that is down keeps it (R84). -/
def State.trimWord (s : State) (n : Nat) : Nat := if s.powered (n / 4) ∨ s.isDown (n / 4) then (Config.pinTrim n).toNat else 0

/-- Trims act on a pin's codes: they are loaded and not bypassed (R85, R86). -/
def State.trimmed (s : State) (n : Nat) : Bool := !s.fbit fPIN_CTL_trim_bypass n && bitAt (s.trimWord n) 56

/-- The voltage that a DAC of a pin gives for a code, in mV x 4095: with its trim, the equation's (R85); without, an unknown one
(R86). -/
def State.dacVolt (s : State) (n dac c : Nat) : Int :=
  if s.trimmed n then (if dac = 2 then thresholdVolt c else driveVolt c) else Config.rawVolt n dac c

/-- What the device connects to a pin. -/
inductive PinSource where
  /-- nothing but the comparator -/
  | nothing
  /-- the driver or the termination: a voltage in mV x 4095 behind 50 Ω -/
  | level (v : Int)
  /-- the PMU forcing a voltage in mV x 65535, its current clamped at a limit in nA x 10 (FVMI) -/
  | voltage (v : Int) (limit : Nat)
  /-- the PMU forcing a current in nA x 32768, its voltage clamped between two in mV x 65535 (FIMV) -/
  | current (i lo hi : Int)
  /-- the PMU measuring, with its force output open (MV), or the analogue bus alone -/
  | measure
  deriving DecidableEq, Repr

/-- The PMU's output by its registers (R76, R77): the FVMI clamp is 110 % of full scale; crossed FIMV clamps force 0 A. A change of
range keeps the voltage and reinterprets the current (R79). Without its trim, the force path gives an unknown value (R85, R86). -/
def State.pmuOutput (s : State) (n : Nat) : PinSource :=
  let v := s.fget fPIN_PMU_FORCE_value n
  let r := s.fget fPIN_PMU_CTL_range n
  let volt := if s.trimmed n then pmuVolt v else Config.rawVolt n 3 v
  let amp := if s.trimmed n then pmuCurrent v r else Config.rawVolt n (4 + pmuRange r) v
  let lo := s.fget fPIN_PMU_CLAMP_clamp_lo n
  let hi := s.fget fPIN_PMU_CLAMP_clamp_hi n
  match s.fget fPIN_PMU_CTL_mode n with
  | 1 => .voltage volt (11 * pmuFullScale r)
  | 2 => if hi < lo then .current 0 (pmuVolt lo) (pmuVolt hi) else .current amp (pmuVolt lo) (pmuVolt hi)
  | _ => .measure

/-- The hysteresis in mV: 26 to 31 act as 25 (R73). -/
def hystMv (h : Nat) : Nat := 2 * min h 25

/-- One comparator's output for a pin voltage in nV, from its output before: it rises above its threshold (in mV x 4095) by half the
hysteresis, and falls below it by as much (R73). -/
def comparator (was : Bool) (nv threshold : Int) (hyst : Nat) : Bool :=
  let half : Int := (hystMv hyst : Nat) * 500000 * 4095
  if threshold * 1000000 + half < nv * 4095 then true
  else if nv * 4095 < threshold * 1000000 - half then false
  else was

/-- The comparator state that a pin voltage in nV gives (R72 to R74). -/
def State.cmpAt (s : State) (n : Nat) (nv : Int) : Nat :=
  let h := s.fget fPIN_CMP_LVL_hyst n
  b2n (comparator (bitAt (s.pin n).cmp 0) nv (s.dacVolt n 2 (s.fget fPIN_CMP_LVL_vol n)) h) +
    2 * b2n (comparator (bitAt (s.pin n).cmp 1) nv (s.dacVolt n 2 (s.fget fPIN_CMP_LVL_voh n)) h)

/-- The comparators follow a pin voltage while they are on (R73, R75). -/
def State.feelVoltage (s : State) (n : Nat) (nv : Int) : State :=
  if s.cmpOn n then s.setPin n { s.pin n with cmp := s.cmpAt n nv } else s

/-- A level, threshold or PMU change begins to settle (R69, R78). -/
def State.beginSettle (s : State) (n : Nat) : State := s.fput fPIN_STATUS_settling n 1

/-- The clamp bit of a pin whose FIMV clamps are crossed (R77). -/
def State.clampCheck (s : State) (n : Nat) : State :=
  if s.fget fPIN_PMU_CTL_mode n = 2 ∧ s.fget fPIN_PMU_CLAMP_clamp_hi n < s.fget fPIN_PMU_CLAMP_clamp_lo n then
    s.fput fPIN_STATUS_clamp n 1
  else s

/-- The live PIN_STATUS word: state, settling, errors and sticky bits. -/
def State.pinStatus (s : State) (n : Nat) : Nat :=
  let v := (s.rd .PIN_STATUS n).toNat
  let v := setBits v 2 0 (s.pinState n)
  let v := setBits v 4 4 (b2n (s.lvlErr n))
  let v := setBits v 9 8 (s.pinCmp n)
  setBits v 10 10 (b2n (s.cmpErr n))

/-- A pin in park with fault_park set (R64). -/
def State.faultPark (s : State) (n : Nat) : State := s.fput fPIN_STATUS_fault_park n 1

/-- Every pin of a list in park with fault_park set. -/
def State.parkPins (s : State) (ns : List Nat) : State := ns.foldl (fun s n => s.faultPark n) s

/-- A DAC code from millivolts: round half away from zero (R68, R504). -/
def dacCode (mv : Int) (offset span : Nat) : Int := roundDiv ((mv + offset) * 4095) span

/-- The settled wait of every pin of a mask is over. -/
def State.allSettled (s : State) (mask : Nat) : Bool := (pinsOf mask).all (fun n => !s.fbit fPIN_STATUS_settling n)

/-- A pin's transition or strobe was moved: it counts, and its leg's flag sets (R102). -/
def State.crowded (s : State) (n : Nat) (times : Nat := 1) : State :=
  if times = 0 then s
  else
    let s := s.bump fALM_CROWD_count n times
    match s.pinLeg n with
    | some p => s.fput fPLT_LEG_STATUS_edge_crowded p 1
    | none => s

end Sys2Proof.Machine
end

