-- ==== Sys2Proof/Machine/Almanac.lean ====
section
/-! DEFINITION. The Almanac (chapter 04): entries and their check bits, edges and formats, the checks of R98, and the staged
writes of the aperture. The class 0x4 commands stand in Machine/AlmanacCommands.lean. -/

namespace Sys2Proof.Machine

/-- The key of entry A[set, pin] (R87). -/
def almKey (set pin : Nat) : Nat := set * 64 + pin

/-- The stored entry A[set, pin] (R87); all zero after cold reset (R113). -/
def State.almEntry (s : State) (set pin : Nat) : Nat := nget 0 (almKey set pin) s.alm.entries

/-- The fields an entry holds: reserved bits read 0 (R90, R9). -/
def almMask (v : Nat) : Nat := setBits (bits v 227 0) 7 4 0

/-- An entry rewritten whole: errors of its check bits are gone (R110, R114). -/
def State.setAlm (s : State) (set pin v : Nat) : State :=
  { s with alm := { s.alm with entries := nset 0 (almKey set pin) (almMask v) s.alm.entries,
                               marks := nset .clean (almKey set pin) .clean s.alm.marks } }

/-- A read of an entry with its check bits: the bits, and uncorrectable or not, with counts and reports (R114). -/
def State.readAlm (s : State) (set pin : Nat) : State × Nat × Bool :=
  match nget EccMark.clean (almKey set pin) s.alm.marks with
  | .clean => (s, s.almEntry set pin, false)
  | .single => ((s.bump fALM_ECC_CNT_ce_count).countFix 0, s.almEntry set pin, false)
  | .double =>
    let s := ((s.bump fALM_ECC_CNT_ue_count).countFix 1).fput fALM_STATUS_ue 0 1
    let s := (s.wr .ALM_UE_LOC 0 0 (BitVec.ofNat 64 (set + pin * 2 ^ 11))).logWrite 0x06 0xFF (set + pin * 2 ^ 16) 0
    -- the stored bits may differ from those written in any number of bits
    let r := s.freshWide 4
    (r.1, almMask r.2, true)

/-- The formats and edges of an entry (R90, R91). -/
def almDfmt (e : Nat) : Nat := bits e 2 0
def almWindow (e : Nat) : Bool := bitAt e 3
def almE1 (e : Nat) : Nat := bits e 51 8
def almE2 (e : Nat) : Nat := bits e 95 52
def almE3 (e : Nat) : Nat := bits e 139 96
def almE4 (e : Nat) : Nat := bits e 183 140
def almE5 (e : Nat) : Nat := bits e 227 184

/-- An edge meets the spill limit: below 64 x D cycles (R100). -/
def edgeOk (d e : Nat) : Bool := decide (e < 64 * d * fracOne)

/-- The rows of the table of R98. -/
inductive CheckRow where
  | drive | dds | release | capture | compare
  deriving DecidableEq, Repr

/-- The row that an action is checked by (R98). -/
def PAct.row : PAct → CheckRow
  | .drive _ => .drive
  | .dds => .dds
  | .off | .none => .release
  | .capture => .capture
  | .cmpLow | .cmpHigh | .cmpMid => .compare

/-- An entry passes a row of R98 for vector period d. -/
def rowOk (d e : Nat) : CheckRow → Bool
  | .drive =>
    decide (almDfmt e < 5) && edgeOk d (almE1 e) &&
      (almDfmt e == 0 || (edgeOk d (almE2 e) && decide (almE1 e < almE2 e)))
  | .dds => edgeOk d (almE1 e)
  | .release => edgeOk d (almE3 e)
  | .capture => edgeOk d (almE3 e) && edgeOk d (almE4 e)
  | .compare =>
    edgeOk d (almE3 e) && edgeOk d (almE4 e) &&
      (!almWindow e || (edgeOk d (almE5 e) && decide (almE4 e < almE5 e)))

/-- The rows that ALMANAC_CHECK applies to an entry (R99): the drive row of its dfmt, DC, DZ, CT, and its compare row. -/
def almCheckOk (d e : Nat) : Bool :=
  [CheckRow.drive, .dds, .release, .capture, .compare].all (rowOk d e)

/-- A deskew as it acts: the stored signed value held inside +-20,000 (R106). -/
def deskewOf (v : Nat) : Int := clampInt (-20000) 20000 (sext 24 v)

/-- A pin's deskew of drive transitions, in model units (100 fs = 300 units). -/
def State.drvDeskew (s : State) (n : Nat) : Int := deskewOf (s.fget fALM_DESKEW_drv_deskew n) * 300
/-- A pin's deskew of strobes, in model units. -/
def State.cmpDeskew (s : State) (n : Nat) : Int := deskewOf (s.fget fALM_DESKEW_cmp_deskew n) * 300

/-- The set that an aperture offset selects: page, then offset (R109). -/
def State.almApertureSet (s : State) (off : Nat) : Nat := 512 * s.fget fALM_CTL_page + off / 2048

/-- A write into the aperture: set and pin of the entry, first byte inside it, size in bytes and value (R109 to R111). It
stages, or with bytes 28 to 31 it commits the whole entry. The fill of the staging buffer is a read of the entry (R110, R114). -/
def State.almWrite (s : State) (set pin byte size value : Nat) : State :=
  if 48 ≤ pin ∨ 2048 ≤ set then s
  else if s.almProtected set pin then s.rtWriteDrop
  else
    let key := almKey set pin
    let fresh := s.alm.stageKey ≠ some key
    let lost := fresh ∧ s.alm.stageKey.isSome
    let s := if lost then s.fput fALM_STATUS_stage_lost 0 1 else s
    let r := if fresh then s.readAlm set pin else (s, s.alm.stage, false)
    let s := r.1
    let v := setBits r.2.1 (8 * (byte + size) - 1) (8 * byte) value
    if 28 < byte + size then
      let s := { s.setAlm set pin v with alm := { (s.setAlm set pin v).alm with stageKey := none, stage := 0 } }
      s.fput fALM_STATUS_stage_valid 0 0
    else
      let s := { s with alm := { s.alm with stageKey := some key, stage := v } }
      s.fput fALM_STATUS_stage_valid 0 1

end Sys2Proof.Machine
end

