-- ==== Sys2Proof/Machine/Commands.lean ====
section
/-! DEFINITION. The command packet (R365): its 64 bytes, its parameters, the table of commands with their listed parameter
bytes (R376), and the objects that a command names (R368). -/

namespace Sys2Proof.Machine

/-- A parameter of n bytes at a byte offset of the parameter area. -/
def param (k : Packet) (off n : Nat) : Nat := bits k.params.toNat (8 * (off + n) - 1) (8 * off)
def u8 (k : Packet) (off : Nat) : Nat := param k off 1
def u16 (k : Packet) (off : Nat) : Nat := param k off 2
def u32 (k : Packet) (off : Nat) : Nat := param k off 4
def u64 (k : Packet) (off : Nat) : Nat := param k off 8
def s8 (k : Packet) (off : Nat) : Int := sext 8 (u8 k off)
def s16 (k : Packet) (off : Nat) : Int := sext 16 (u16 k off)
def s32 (k : Packet) (off : Nat) : Int := sext 32 (u32 k off)
def s64 (k : Packet) (off : Nat) : Int := sext 64 (u64 k off)

/-- The packet's 64 bytes as one number (R365). -/
def encodePacket (opcode : Nat) (k : Packet) : Nat :=
  pack [(0, 16, opcode), (16, 16, k.flags.toNat), (32, 32, k.tag.toNat), (64, 16, k.job.toNat), (80, 16, k.ring.toNat),
        (96, 8, k.length.toNat), (104, 24, k.deadline.toNat), (128, 384, k.params.toNat)]

/-- The opcode and the fields of a packet's 64 bytes (R365). -/
def decodePacket (onRing : RingNo) (v : Nat) : Nat × Packet :=
  (bits v 15 0, ⟨onRing, BitVec.ofNat 16 (bits v 31 16), BitVec.ofNat 32 (bits v 63 32), BitVec.ofNat 16 (bits v 79 64),
    BitVec.ofNat 16 (bits v 95 80), BitVec.ofNat 8 (bits v 103 96), BitVec.ofNat 24 (bits v 127 104),
    BitVec.ofNat 384 (bits v 511 128)⟩)

def fenceOf (k : Packet) : Bool := bitAt k.flags.toNat 0
def quietOf (k : Packet) : Bool := bitAt k.flags.toNat 1
def irqOf (k : Packet) : Bool := bitAt k.flags.toNat 2
/-- The job that the header names; 0xFFFF names none. -/
def jobOf (k : Packet) : Nat := k.job.toNat

/-- A row of the command table: opcode, expert, ring 0 only, listed parameters as (offset, bytes) (R376). -/
structure CmdInfo where
  opcode : Nat
  expert : Bool
  ring0 : Bool
  listed : List (Nat × Nat)
  deriving DecidableEq, Repr

def commands0 : List CmdInfo := [
  ⟨0x0001, false, false, []⟩,
  ⟨0x0002, false, true, [(0, 2), (2, 1), (3, 1), (4, 2), (6, 2), (8, 8), (16, 2), (18, 2)]⟩,
  ⟨0x0003, false, true, [(0, 2)]⟩,
  ⟨0x0004, false, false, []⟩,
  ⟨0x0005, false, false, [(0, 8), (8, 1), (9, 1)]⟩,
  ⟨0x0006, true, false, [(0, 8), (8, 1), (9, 1), (16, 32)]⟩,
  ⟨0x0007, true, false, [(0, 1), (1, 1)]⟩]
def commands1 : List CmdInfo := [
  ⟨0x1001, true, false, [(0, 1), (1, 1), (2, 1), (3, 1), (4, 1), (8, 4), (12, 4)]⟩,
  ⟨0x1002, false, false, [(0, 1)]⟩,
  ⟨0x1003, false, false, [(0, 1)]⟩,
  ⟨0x1004, false, false, [(0, 4)]⟩,
  ⟨0x1005, false, false, [(0, 4)]⟩,
  ⟨0x1006, false, false, [(0, 1), (1, 1), (2, 1), (4, 2), (8, 8)]⟩,
  ⟨0x1007, false, false, [(0, 1), (1, 1), (2, 1), (8, 8), (16, 8), (24, 8)]⟩,
  ⟨0x1008, false, false, [(0, 1), (8, 8), (24, 8)]⟩,
  ⟨0x1009, false, false, [(0, 1), (1, 1), (8, 8), (24, 8)]⟩,
  ⟨0x100A, false, false, [(0, 2)]⟩,
  ⟨0x100B, false, false, [(0, 2)]⟩,
  ⟨0x100C, false, false, [(0, 1), (1, 1), (2, 2), (4, 2)]⟩]
def commands2 : List CmdInfo := [
  ⟨0x2001, false, false, [(0, 8), (8, 8), (16, 8), (24, 1), (25, 1)]⟩,
  ⟨0x2002, false, false, [(0, 8), (8, 1)]⟩,
  ⟨0x2003, false, false, [(0, 8), (8, 4)]⟩,
  ⟨0x2004, false, false, []⟩,
  ⟨0x2005, false, false, [(0, 8)]⟩,
  ⟨0x2006, false, false, [(0, 1)]⟩,
  ⟨0x2007, false, false, [(0, 1)]⟩,
  ⟨0x2008, false, false, []⟩]
def commands3 : List CmdInfo := [
  ⟨0x3001, false, false, [(0, 8), (8, 2), (10, 2), (12, 2), (14, 2), (16, 2), (18, 1), (19, 1)]⟩,
  ⟨0x3002, false, false, [(0, 8), (8, 1), (9, 1), (10, 1), (11, 1), (12, 1)]⟩,
  ⟨0x3003, false, false, [(0, 8), (8, 1), (9, 1), (10, 2), (12, 2), (14, 2)]⟩,
  ⟨0x3004, false, false, [(0, 1), (1, 1)]⟩,
  ⟨0x3005, false, false, [(0, 8), (8, 1)]⟩]
def commands4 : List CmdInfo := [
  ⟨0x4001, false, false, [(0, 2), (2, 2), (4, 1), (8, 8), (16, 4), (20, 4), (24, 4), (28, 4), (32, 4), (36, 4)]⟩,
  ⟨0x4002, false, false, [(0, 8), (8, 1), (10, 2), (12, 2), (16, 8)]⟩,
  ⟨0x4003, false, false, [(0, 2), (2, 2), (4, 4), (8, 8)]⟩,
  ⟨0x4004, false, false, [(0, 1), (4, 4), (8, 4)]⟩]
def commands5 : List CmdInfo := [
  ⟨0x5001, false, false, [(0, 1), (1, 1), (2, 1), (3, 1), (4, 1), (8, 8), (16, 8), (24, 4), (28, 4), (32, 8), (40, 1)]⟩,
  ⟨0x5002, false, false, [(0, 8)]⟩,
  ⟨0x5003, false, false, [(0, 1), (1, 1), (4, 4), (8, 8), (16, 4)]⟩,
  ⟨0x5004, false, false, []⟩,
  ⟨0x5005, false, false, [(0, 1), (1, 1)]⟩]
def commands6 : List CmdInfo := [
  ⟨0x6001, false, false, [(0, 1), (1, 1), (8, 8)]⟩,
  ⟨0x6002, false, false, [(0, 1)]⟩,
  ⟨0x6003, false, false, [(0, 1), (2, 2), (8, 4), (12, 4), (16, 8), (24, 1)]⟩]
def commands7 : List CmdInfo := [
  ⟨0x7001, false, false, [(0, 1), (1, 1), (2, 2), (4, 2), (8, 8), (16, 2), (18, 1), (20, 2)]⟩,
  ⟨0x7002, false, false, [(0, 1), (1, 1), (2, 2), (8, 8), (16, 4)]⟩,
  ⟨0x7003, false, false, [(0, 1), (8, 8), (16, 4)]⟩,
  ⟨0x7004, false, false, [(0, 8), (8, 1)]⟩]
def commands8 : List CmdInfo := [
  ⟨0x8001, false, false, [(0, 1), (1, 1), (2, 1), (3, 1), (4, 1), (5, 1), (6, 1), (7, 1), (8, 8), (16, 4), (20, 4)]⟩,
  ⟨0x8002, false, false, [(0, 1), (1, 1), (8, 8)]⟩,
  ⟨0x8003, false, false, [(0, 1), (8, 8), (16, 4), (20, 2)]⟩,
  ⟨0x8004, false, false, [(0, 1), (4, 4), (8, 8)]⟩,
  ⟨0x8005, false, false, [(0, 1), (1, 1), (2, 1), (4, 2), (6, 2), (8, 8), (16, 4), (20, 4), (24, 8)]⟩,
  ⟨0x8006, false, false, [(0, 4)]⟩]
def commands9 : List CmdInfo := [
  ⟨0x9001, false, false, [(0, 1), (1, 1), (2, 1), (4, 4)]⟩,
  ⟨0x9002, false, false, [(0, 2), (2, 2), (8, 8), (16, 4), (20, 1)]⟩,
  ⟨0x9003, false, false, [(0, 2), (8, 8), (16, 1)]⟩,
  ⟨0x9004, false, false, [(0, 4), (4, 2), (8, 8), (16, 1)]⟩,
  ⟨0x9005, false, false, []⟩]
def commandsA : List CmdInfo := [
  ⟨0xA001, true, false, [(0, 1), (1, 1), (8, 8), (16, 32)]⟩,
  ⟨0xA002, true, false, [(0, 1)]⟩]
def commandsB : List CmdInfo := [
  ⟨0xB001, false, false, [(0, 1), (1, 1)]⟩,
  ⟨0xB002, false, false, [(0, 2), (2, 2), (4, 1), (5, 1)]⟩]
def commandsE : List CmdInfo := [⟨0xE001, true, false, [(0, 8), (8, 1), (12, 4)]⟩]

/-- The commands of a class (R376). -/
def commandsOf : Nat → List CmdInfo
  | 0 => commands0 | 1 => commands1 | 2 => commands2 | 3 => commands3 | 4 => commands4 | 5 => commands5 | 6 => commands6
  | 7 => commands7 | 8 => commands8 | 9 => commands9 | 10 => commandsA | 11 => commandsB | 14 => commandsE | _ => []

/-- The command of an opcode; none is not defined (R366). -/
def cmdInfo (opcode : Nat) : Option CmdInfo := (commandsOf (opcode / 4096)).find? (fun c => c.opcode == opcode)

/-- Expert for this packet: its command's mark, or WAYLINE_PORT with manual taps (R376). -/
def needsExpert (c : CmdInfo) (k : Packet) : Bool := c.expert || (c.opcode == 0x9001 && u8 k 1 == 2)

/-- Every parameter byte that the command does not list is 0 (R366). -/
def unlistedZero (c : CmdInfo) (k : Packet) : Bool :=
  c.listed.foldl (fun v p => setBits v (8 * (p.1 + p.2) - 1) (8 * p.1) 0) k.params.toNat == 0

/-- The prompt commands (R374). -/
def isPrompt (opcode : Nat) : Bool := opcode == 0x2004 || opcode == 0x0004 || opcode == 0x0005

/-- The kinds of object that R368 orders, with the object's number: 0 = job; 1 = Pilot; 2 = pin; 3 = meridian; 4 = DDS engine;
5 = Sextant channel; 6 = Sextant unit; 7 = acquisition unit; 8 = converter; 9 = map; 10 = address space; 11 = HBM channel;
12 = DMA channel; 13 = cluster; 14 = Wayline port; 15 = power domain. -/
def objectsNamed (opcode : Nat) (k : Packet) : List (Nat × Nat) :=
  let pins := (maskBits 48 (u64 k 0)).map (fun n => (2, n))
  match opcode with
  | 0x1001 => [(9, u8 k 0)]
  | 0x1002 | 0x1003 => [(11, u8 k 0)]
  | 0x1006 | 0x1007 | 0x1008 | 0x1009 => [(10, u8 k 0)]
  | 0x100C => [(12, u8 k 0)]
  | 0x2007 => [(1, u8 k 0)]
  | 0x3001 | 0x3002 | 0x3003 | 0x3005 => pins
  | 0x3004 => [(2, u8 k 0)]
  | 0x4001 | 0x4003 => (maskBits 48 (u64 k 8)).map (fun n => (2, n))
  | 0x4002 => (maskBits 48 (u64 k 16)).map (fun n => (2, n))
  | 0x4004 => [(2, u8 k 0)]
  | 0x5001 => [(5, u8 k 1), (5, u8 k 2), (3, u8 k 4)]
  | 0x5002 => (maskBits 52 (u64 k 0)).map (fun c => (5, c))
  | 0x5003 | 0x5004 => [(8, 0), (8, 1), (8, 2), (8, 3)]
  | 0x5005 => [(8, u8 k 0)]
  | 0x6001 | 0x6002 | 0x6003 => [(7, u8 k 0)]
  | 0x7001 | 0x7003 => [(4, u8 k 0)]
  | 0x7002 => [(4, u8 k 0), (3, u8 k 1)]
  | 0x7004 => (4, u8 k 8) :: pins
  | 0x8001 | 0x8002 | 0x8003 | 0x8004 => [(3, u8 k 0)]
  | 0x8005 => [(3, u8 k 0)]
  | 0x9001 => [(14, u8 k 0)]
  | 0xA001 | 0xA002 => [(13, u8 k 0)]
  | 0xB001 => [(15, u8 k 0)]
  | _ => []

/-- The objects of a packet: those of its parameters, and the job of its header. -/
def objectsOf (opcode : Nat) (k : Packet) : List (Nat × Nat) :=
  (if jobOf k < 256 then [(0, jobOf k)] else []) ++ objectsNamed opcode k

end Sys2Proof.Machine
end

