-- ==== Sys2Proof/Machine/Helm.lean ====
section
/-! DEFINITION. Helm: admission of packets at the front end, the beginning of commands in order, completions, duplicates,
deadlines, and payloads (R358 to R373). The meaning of each command stands with its block; they all run through runCommand. -/

namespace Sys2Proof.Machine

/-- How a command's effect ends: a completion with status, detail, result, the late and partial flags and the steps made, or a
wait for a later event with what the completion will then carry. -/
inductive CmdEnd where
  | done (st : Status) (detail result : Nat) (late isPartial : Bool) (steps : Nat)
  | wait (why : WaitFor) (detail result dst space steps : Nat)
  deriving DecidableEq, Repr

/-- A command's effect: its packet and the state it begins in. -/
abbrev CmdBody := Packet → State → State × CmdEnd

/-- OK with one step made. -/
def ok (s : State) : State × CmdEnd := (s, .done .ok 0 0 false false 1)
/-- OK with a result. -/
def okResult (s : State) (r : Nat) : State × CmdEnd := (s, .done .ok 0 r false false 1)
/-- A status with nothing done. -/
def fail (s : State) (st : Status) (detail : Nat := 0) : State × CmdEnd := (s, .done st detail 0 false false 0)
/-- A command stopped after some of its steps. -/
def stopped (s : State) (st : Status) (steps : Nat) : State × CmdEnd :=
  (s, .done st steps 0 false (decide (0 < steps)) steps)

/-- A ring. -/
def State.ring (s : State) (r : Nat) : Ring := nget {} r s.helm.rings
/-- A ring replaced. -/
def State.setRing (s : State) (r : Nat) (x : Ring) : State := { s with helm := { s.helm with rings := nset {} r x s.helm.rings } }
/-- The device is ready (R16). -/
def State.ready (s : State) : Bool := s.fbit fDEV_STATUS_ready

/-! ### Completions (R363, R364, R367) -/

/-- The 32 bytes of a completion (R367); the odometer and wall time are one snapshot at its commit. -/
def State.cplWord (s : State) (c : Cpl) (phase : Nat) : Nat :=
  pack [(0, 32, c.tag), (32, 16, c.status), (48, 1, b2n c.dup), (49, 1, b2n c.late), (50, 1, b2n c.isPartial),
        (51, 1, b2n c.prompt), (55, 1, phase), (64, 32, c.detail), (96, 64, c.result), (160, 48, s.mer0), (208, 48, s.wallNs)]

/-- A completion waits for its commit, unless it is quiet and OK (R365). -/
def State.queueCpl (s : State) (r : Nat) (quiet : Bool) (c : Cpl) : State :=
  if quiet ∧ c.status = 0 then s else s.setRing r { s.ring r with cplWait := (s.ring r).cplWait ++ [c] }

/-- The duplicate's completion of an original (R370). -/
def dupOf (c : Cpl) (irq : Bool) : Cpl := { c with dup := true, irq := irq, expiry := 0 }

/-- Duplicates of a tag that waited for its original are answered (R370). -/
def State.answerDups (s : State) (r : Nat) (c : Cpl) : State :=
  let mine := (s.ring r).dupWait.filter (fun d => d.1 == c.tag)
  let s := s.setRing r { s.ring r with dupWait := (s.ring r).dupWait.filter (fun d => d.1 != c.tag) }
  mine.foldl (fun s d => s.queueCpl r d.2.2 (dupOf c d.2.1)) s

/-- A command's status code is known: its completion enters the tag window and waits for its commit (R363, R370). A forwarded
command's completion goes back to its sender (R421). -/
def State.concludeCode (s : State) (x : Running) (st detail result : Nat) (late isPartial : Bool) (steps : Nat) : State :=
  let c : Cpl := { tag := x.tag, status := st, detail := detail, result := result, late := late }
  let c := { c with isPartial := isPartial, prompt := x.prompt, irq := x.irq, expiry := x.expiry, steps := steps }
  match x.origin with
  | .ring r =>
    let s := s.setRing r { s.ring r with
      window := (s.ring r).window.map (fun w => if w.1 = x.tag then (w.1, some c) else w) }
    let s := if st = Status.deadline.code then (s.bump fHLM_RING_CNT_deadlines r).countFix 18 else s
    (s.queueCpl r x.quiet c).answerDups r c
  | .member node port xid =>
    let tags := nget [] node s.wln.fwdTags
    let s := { s with wln := { s.wln with fwdTags := nset [] node (((x.tag, c) :: tags).take 64) s.wln.fwdTags } }
    s.replyFlit port node 4 0 xid 0 true (bytesOf 32 (s.cplWord c 0))

/-- A command's status is known. -/
def State.conclude (s : State) (x : Running) (st : Status) (detail result : Nat) (late isPartial : Bool) (steps : Nat) : State :=
  s.concludeCode x st.code detail result late isPartial steps

/-- A ring's commands have all completed: nothing of it is untaken, begun, or uncommitted (R361). -/
def State.ringIdle (s : State) (r : Nat) : Bool :=
  decide ((s.ring r).untaken = [] ∧ (s.ring r).cplWait = []) && s.helm.running.all (fun x => x.origin != .ring r)

/-- A ring deleted: its registers and its queues are gone (R361; assumption 12). -/
def State.dropRing (s : State) (r : Nat) : State :=
  (s.rstAll [.HLM_RING_CFG, .HLM_RING_MIR, .HLM_RING_STAT, .HLM_RING_LAST, .HLM_RING_CPL, .HLM_RING_CNT] r).setRing r {}

/-- Every begun command that waits for an event ends with a status; those that end OK carry what they were to carry, or the
result given. -/
def State.endWaits (s : State) (why : WaitFor) (st : Status) (detail : Option Nat := none) (result : Option Nat := none)
    (late : Bool := false) : State :=
  let mine := s.helm.running.filter (fun x => x.why == why)
  let s := { s with helm := { s.helm with running := s.helm.running.filter (fun x => x.why != why) } }
  mine.foldl (fun s x => s.conclude x st (detail.getD x.detail) (result.getD (if st = .ok then x.result else 0)) late false 1) s

/-- A ring under deletion that has become idle goes, and its RING_DELETE completes (R361). -/
def State.sweepRing (s : State) (r : Nat) : State :=
  if (s.ring r).deleting ∧ s.ringIdle r then (s.dropRing r).endWaits (.ringEmpty r) .ok else s

/-! ### Admission (R360, R362, R366, R370) -/

/-- The status with which the front end rejects a packet, if it does (R366). -/
def rejects (expert : Bool) (r : Nat) (opcode : Nat) (k : Packet) : Option Status :=
  match cmdInfo opcode with
  | none =>
    if k.ring.toNat ≠ r then some .ringInvalid
    else if 8 ≤ k.flags.toNat ∨ 48 < k.length.toNat ∨ (256 ≤ jobOf k ∧ jobOf k ≠ 0xFFFF) then some .paramInvalid
    else some .opcodeUnknown
  | some c =>
    if k.ring.toNat ≠ r ∨ (c.ring0 ∧ r ≠ 0) then some .ringInvalid
    else if 8 ≤ k.flags.toNat ∨ 48 < k.length.toNat ∨ (256 ≤ jobOf k ∧ jobOf k ≠ 0xFFFF) then some .paramInvalid
    else if needsExpert c k ∧ !expert then some .expertOnly
    else if unlistedZero c k = false then some .paramInvalid
    else none

/-- The record of a begun command. -/
def runningOf (origin : Origin) (opcode : Nat) (k : Packet) (expiry : Nat) : Running :=
  { origin := origin, objs := objectsOf opcode k, tag := k.tag.toNat, quiet := quietOf k, irq := irqOf k,
    prompt := isPrompt opcode, expiry := if isPrompt opcode then 0 else expiry, steps := 0, job := jobOf k, why := .nothing,
    result := 0, detail := 0, dst := 0, space := 0 }

/-- A packet's completion by the front end alone. -/
def State.frontEnds (s : State) (r opcode : Nat) (k : Packet) (st : Status) : State :=
  (s.tick fHLM_RING_STAT_taken r).conclude { runningOf (.ring r) opcode k 0 with prompt := false } st 0 0 false false 0

/-- A packet committed to a ring: refused, completed by the front end, or admitted with the MER0 reading of its expiry (R360,
R362, R366, R370, R371). After a thermal trip Helm is without power, and nothing happens (R466). -/
def State.admitPkt (s : State) (r opcode : Nat) (k : Packet) : State × Option Nat :=
  let ring := s.ring r
  if bitAt s.bnc.down 32 then (s, none)
  else if s.fbit fHLM_RING_CFG_exists r = false ∨ ring.deleting ∨ (r = 0 ∧ s.fbit fHLM_ADM_MIRROR_en = false) ∨
      2 ^ s.fget fHLM_RING_CFG_cmd_log2 r ≤ ring.untaken.length then
    ((s.bump fHLM_RING_LAST_refused r).countFix 16, none)
  else
    let s := s.tick fHLM_RING_STAT_committed r
    let tag := k.tag.toNat
    let seen := ring.window.find? (fun w => w.1 == tag)
    let s := s.setRing r { s.ring r with window := ((tag, seen.bind (·.2)) :: ring.window).take 64 }
    match s.ready, seen with
    | false, _ => (s.frontEnds r opcode k .busyNotReady, none)
    | true, some (_, done) =>
      let s := ((s.tick fHLM_RING_STAT_taken r).bump fHLM_RING_CNT_duplicates r).countFix 17
      match done with
      | some c => (s.queueCpl r (quietOf k) (dupOf c (irqOf k)), none)
      | none => (s.setRing r { s.ring r with dupWait := (s.ring r).dupWait ++ [(tag, irqOf k, quietOf k)] }, none)
    | true, none =>
      match rejects (s.fbit fHLM_RING_CFG_expert r) r opcode k with
      | some st => (s.frontEnds r opcode k st, none)
      | none => (s, some (if k.deadline.toNat = 0 then 0 else s.mer0 + k.deadline.toNat * 1600))

/-- A packet that is not prompt waits for a hart (R358). -/
def State.enqueue (s : State) (r raw expiry : Nat) : State :=
  s.setRing r { s.ring r with untaken := (s.ring r).untaken ++ [⟨raw, expiry⟩] }

/-! ### Execution (R368, R374) -/

/-- A packet at the head of its ring may begin: no fence over commands that still run, no earlier command of the ring naming
the same object (R368). -/
def State.mayBegin (s : State) (r opcode : Nat) (k : Packet) : Bool :=
  let mine := s.helm.running.filter (fun x => x.origin == .ring r)
  !bitAt s.bnc.down 32 && (!fenceOf k || mine.isEmpty) && mine.all (fun x => x.objs.all (fun o => !(objectsOf opcode k).contains o))

/-- A command's effect is made, and its completion follows or waits. -/
def State.perform (s : State) (x : Running) (body : CmdBody) (k : Packet) : State :=
  match body k s with
  | (s, .done st detail result late part steps) => s.conclude x st detail result late part steps
  | (s, .wait why detail result dst space steps) =>
    let y := { x with why := why, detail := detail, result := result, dst := dst, space := space, steps := steps }
    { s with helm := { s.helm with running := s.helm.running ++ [y] } }

/-- A hart begins the packet at the head of a ring: it is taken, and its tag is the last begun. -/
def State.take (s : State) (r tag : Nat) : State :=
  ((s.setRing r { s.ring r with untaken := (s.ring r).untaken.drop 1 }).tick fHLM_RING_STAT_taken r).fput
    fHLM_RING_LAST_last_tag r tag

/-- A command row of a command that is not prompt. The packet is committed to its ring, unless it waits there already; if it is
then the oldest of its ring and may begin, a hart begins it and its effect is made (R362, R368; assumption 13). -/
def State.runCommand (s : State) (opcode : Nat) (body : CmdBody) (k : Packet) : State :=
  let r := k.onRing.val
  let raw := encodePacket opcode k
  let s := if (s.ring r).untaken.any (fun p => p.bytes == raw) then s
    else match s.admitPkt r opcode k with
      | (s, some expiry) => s.enqueue r raw expiry
      | (s, none) => s
  match (s.ring r).untaken with
  | p :: _ =>
    if p.bytes = raw ∧ s.mayBegin r opcode k then
      ((s.take r k.tag.toNat).perform (runningOf (.ring r) opcode k p.expiry) body k).sweepRing r
    else s.sweepRing r
  | [] => s.sweepRing r

/-- A command row of a prompt command: the front end executes it at its commit (R374). -/
def State.runPrompt (s : State) (opcode : Nat) (body : CmdBody) (k : Packet) : State :=
  let r := k.onRing.val
  match s.admitPkt r opcode k with
  | (s, none) => s.sweepRing r
  | (s, some _) =>
    (((s.tick fHLM_RING_STAT_taken r).fput fHLM_RING_LAST_last_tag r k.tag.toNat).perform
      (runningOf (.ring r) opcode k 0) body k).sweepRing r

/-! ### Payloads (R369) -/

/-- The bytes of a payload, or the status and detail of the command that could not read it. -/
inductive Payload where
  | bytes (bs : List Byte)
  | bad (st : Status) (detail : Nat)
  deriving DecidableEq, Repr

/-- A byte span by DVA touches a lost eighth: beat by beat, at most fuel of them (R330). -/
def State.dvaLost (s : State) (space dva n : Nat) : Nat → Bool
  | 0 => false
  | fuel + 1 =>
    if n = 0 then false
    else
      let k := min n (32 - dva % 32)
      (match (s.translate sourceHelm space dva false).2 with
        | .hpa a _ => (match s.hpaDecode a with
          | some (ch, x) => s.isLost ch x || s.willLose ch x
          | none => false)
        | .fault _ _ _ => false) || State.dvaLost s space (dva + k) (n - k) fuel

/-- Whether a span touches an eighth that is lost, or will be at the exit under way; no span does while every eighth is kept. -/
def State.touchesLost (s : State) (space dva n : Nat) : Bool :=
  (s.fget fMEM_SEG_LOST_lost != 0 || s.fget fMEM_STATUS_state != 2) && s.dvaLost space dva n (n / 32 + 2)

/-- A payload read by DVA through Chart in the bulk class at a port (R369): CHART_FAULT carries the DVA's low bits; a lost eighth
gives SEGMENT_LOST (R330). -/
def State.payloadBy (s : State) (port space dva n : Nat) : State × Payload :=
  match s.dvaRead sourceHelm port space dva n with
  | (s, .done bs) => (s, .bytes bs)
  | (s, .fault f) => ((s.raiseFault f).1, .bad .chartFault (f.dva % 2 ^ 32))
  | (s, .poison) => (s, .bad (if s.touchesLost space dva n then .segmentLost else .memPoison) 0)

/-- A payload that Helm reads by DVA (R369). -/
def State.payload (s : State) (space dva n : Nat) : State × Payload := s.payloadBy portHP space dva n

/-- A payload read over PCIe (R369). PCIe carries no read while PERST# holds the link. -/
def State.hostPayload (s : State) (addr n : Nat) : State × Payload :=
  if s.host.perst then (s, .bad .hostError 0) else (s, .bytes (s.hostRead addr n))

/-- Bytes stored by DVA as a command's result, and acknowledged; nothing is stored when the target touches a lost eighth (R330). -/
def State.storeResultBy (s : State) (port space dva : Nat) (bs : List Byte) : State × Option (Status × Nat) :=
  if s.touchesLost space dva bs.length then (s.wakeMem port, some (.segmentLost, 0))
  else match s.dvaWrite sourceHelm port .bulk space dva bs with
    | (s, none) => (s.settleWrites, none)
    | (s, some f) => ((s.raiseFault f).1, some (.chartFault, f.dva % 2 ^ 32))

/-- A result that Helm stores by DVA. -/
def State.storeResult (s : State) (space dva : Nat) (bs : List Byte) : State × Option (Status × Nat) := s.storeResultBy portHP space dva bs

/-- The port of the Reckoner that takes a command: RK1 where it alone is powered (R331; assumption 109). -/
def State.reckonerPort (s : State) : Nat := if s.powered 26 = false ∧ s.powered 27 then portRK 1 else portRK 0

end Sys2Proof.Machine
end

