-- ==== Sys2Proof/Machine/Milestones.lean ====
section
/-! DEFINITION. The milestone scheduler: commits with the late test, firing at the target reading, cancels, and reports (R52 to
R57, R500). The rows of each action stand with the block that it acts on. -/

namespace Sys2Proof.Machine

/-- A milestone's report of 32 bytes (R500). -/
def msElement (x : Milestone) (st : Status) (at88 : Nat) (late : Bool) : Nat :=
  pack [(0, 16, st.code), (16, 4, 1), (20, 3, x.mer), (23, 1, b2n late), (24, 8, x.action), (36, 1, 1), (64, 32, x.id),
        (96, 32, x.arg), (128, 64, at88 / fracOne), (192, 24, at88 % fracOne)]

/-- The report goes to the milestone's queue, if it names one (R500). -/
def State.msReport (s : State) (x : Milestone) (st : Status) (at88 : Nat) (late : Bool) : State :=
  s.reportCtl x.reportQ 32 (msElement x st at88 late)

/-- How far ahead of its earliest instant a milestone must be committed, in 2^-24 cycles (R54). -/
def State.msLead (s : State) (m action : Nat) : Nat := (s.mer m).spanAtMax (if action = 1 then 20000 else 2000)

/-- A commit found late counts (R54). -/
def State.countLate (s : State) (late : Bool) : State := if late then s.bump fMER_MS_STAT_late_count else s

/-- A milestone pends with the next id. -/
def State.msAdd (s : State) (x : Milestone) : State :=
  { s with ms := { s.ms with pending := s.ms.pending ++ [{ x with id := s.ms.nextId }], nextId := s.ms.nextId + 1 } }

/-- A commit found late or not: a late one is refused under late policy 0, and as a leg start (R54). -/
def State.msCommitAs (s : State) (x : Milestone) : State × Except Status (Nat × Bool) :=
  if x.foundLate ∧ (x.late = false ∨ x.action = 1) then (s.countLate true, .error .milestonePast)
  else ((s.countLate x.foundLate).msAdd x, .ok (s.ms.nextId, x.foundLate))

/-- A milestone committed: its id and whether it was late, or the status that refuses it (R52, R54). `before` is how far before
the target the earliest instant lies (a slip window). -/
def State.msCommit (s : State) (m action target : Nat) (policy : Nat) (reportQ at88 before arg arg2 job : Nat) :
    State × Except Status (Nat × Bool) :=
  if 4096 ≤ s.ms.pending.length then (s, .error .milestoneFull)
  else if (s.mer m).st = .off then (s, .error .meridianOff)
  else s.msCommitAs ⟨0, m, action, target, policy == 1, decide (at88 - before < s.odo m + s.msLead m action), reportQ, at88, arg,
    arg2, job⟩

/-- A pending milestone taken out of the scheduler. -/
def State.msRemove (s : State) (id : Nat) : State :=
  { s with ms := { s.ms with pending := s.ms.pending.filter (fun x => x.id != id) } }

/-- A DDS engine. -/
def State.ddsEng (s : State) (e : Nat) : Dds := nget {} e s.dds.engines
/-- A DDS engine replaced. -/
def State.setDds (s : State) (e : Nat) (x : Dds) : State := { s with dds := { s.dds with engines := nset {} e x s.dds.engines } }

/-- The engine of a start milestone that will not fire is idle again (R265). -/
def State.ddsUnarm (s : State) (x : Milestone) : State :=
  if x.action = 4 ∧ (s.ddsEng x.target).st = .armed then s.setDds x.target { s.ddsEng x.target with st := .idle } else s

/-- A milestone cancelled for a cause that reports it, with its target reading (R57, R224, R374, R434). -/
def State.msDrop (s : State) (x : Milestone) (st : Status) : State :=
  (((s.msRemove x.id).ddsUnarm x).msReport x st x.at88 false).endWaits (.milestone x.id) st

/-- Every pending milestone of a kind cancelled and reported. -/
def State.msDropAll (s : State) (p : Milestone → Bool) (st : Status) : State :=
  (s.ms.pending.filter p).foldl (fun s x => s.msDrop x st) s

/-- A milestone that fires: the instant and the reading at which it does. -/
structure Fired where
  ms : Milestone
  time : Nat
  at88 : Nat
  deriving DecidableEq, Repr

/-- A milestone of an action fires: time moves to an instant, or a late one whose target is past fires now. It does not while the instant
does not come, nor, where it fires at its target, before another with the same meridian and target that was committed earlier (R55). -/
def State.msFireAt (s : State) (id action : Nat) (ordered : Bool) (when : Milestone → Option Nat) : Option (State × Fired) :=
  match s.ms.pending.find? (fun x => x.id == id && x.action == action) with
  | none => none
  | some x =>
    if ordered ∧ (s.ms.pending.takeWhile (fun y => y.id != id)).any (fun y => y.mer == x.mer && y.at88 == x.at88) then none
    else match when x with
      | none => none
      | some t =>
        let past := x.foundLate && decide (t < s.now)
        let s := s.advance t
        let t := if past then s.now else t
        let r := if past then s.odo x.mer else x.at88
        let s := s.msRemove x.id
        some ({ s with ms := { s.ms with fired := x.id :: s.ms.fired } }, ⟨x, t, r⟩)

/-- A milestone fires at the instant at which its meridian reaches the target (R53), which does not come while the meridian stands
still (R57, R499). -/
def State.msFire (s : State) (id action : Nat) : Option (State × Fired) :=
  s.msFireAt id action true (fun x => (s.mer x.mer).instantOf x.at88)

/-- A fired milestone's report and the completion that waits for it. A late one's completion carries, beside the id in r0, the reading at
which it fired: the low 32 bits of its cycles in r1 and the next 32 in the detail, for the spec names no place (R54; DESIGN CHOICE,
assumption 91). -/
def State.msDone (s : State) (f : Fired) (st : Status) : State :=
  let s := s.msReport f.ms st f.at88 f.ms.foundLate
  let c := f.at88 / fracOne
  if f.ms.foundLate then
    s.endWaits (.milestone f.ms.id) st (some (bits c 63 32)) (some (f.ms.id + bits c 31 0 * 2 ^ 32)) true
  else s.endWaits (.milestone f.ms.id) st

/-- The reading, in 2^-32 cycles, of a meridian at an instant, also one just before its anchor (R232). -/
def Meridian.reading96 (m : Meridian) (t : Int) : Nat :=
  let at0 : Int := (m.anchorRem : Nat)
  let num : Int :=
    if m.st = .running then
      let dt : Int := t - (m.anchorT : Int)
      let slow : Int := min (max dt 0) (m.phaseEnd : Int)
      at0 + dt * (m.fineRate : Int) * (1000000000 + m.freqPpb) + slow * (m.fineRate : Int) * m.phaseRate
    else at0
  m.coarse 65536 (((m.anchorR * 256 : Nat) + num * 256 / (fineDen : Nat)).toNat % 2 ^ 96)

/-- The reading of meridian m, in 2^-24 cycles, at the instant that a fired milestone's own meridian reaches its target (R53). -/
def State.readingAt (s : State) (m : Nat) (f : Fired) : Nat := if m = f.ms.mer then f.at88 else (s.mer m).reading f.time

/-- A meridian is slewing: a frequency or phase term is in force (MER_STATUS.slewing). -/
def State.slewing (s : State) (m : Nat) : Bool := (s.mer m).freqPpb != 0 || (s.mer m).phaseLeft s.now != 0

end Sys2Proof.Machine
end

