-- ==== Sys2Proof/Machine/Sextant.lean ====
section
/-! DEFINITION. The Sextant (chapter 09): edges and stamps, arming and windows, the event stream, measurement units, the
self-check, and the class 0x5 commands that use it. -/

namespace Sys2Proof.Machine

/-- A Sextant channel. -/
def State.sxtChan (s : State) (c : Nat) : SxtChan := nget {} c s.sxt.chans
/-- A Sextant channel replaced. -/
def State.setSxtChan (s : State) (c : Nat) (x : SxtChan) : State := { s with sxt := { s.sxt with chans := nset {} c x s.sxt.chans } }
/-- A measurement unit's run. -/
def State.mu (s : State) (u : Nat) : MuRun := nget {} u s.sxt.units
/-- A measurement unit's run replaced. -/
def State.setMu (s : State) (u : Nat) (x : MuRun) : State := { s with sxt := { s.sxt with units := nset {} u x s.sxt.units } }

/-- The half of a channel (R230). -/
def sxtHalf (c : Nat) : Nat := if c < 24 ∨ c = 48 ∨ c = 49 then 0 else 1
/-- A channel of a bearing input (R230). -/
def isBearing (c : Nat) : Bool := decide (48 ≤ c)
/-- A channel's meridian. -/
def State.sxtMer (s : State) (c : Nat) : Nat := s.fget fSXT_CH_CTL_meridian c
/-- The reading of a channel's meridian now, in 2^-32 cycles. -/
def State.sxtNow (s : State) (c : Nat) : Nat := (s.mer (s.sxtMer c)).reading96 s.now

/-- The arm state in force at a reading: the newest setting whose effect reading lies at or before it, since a new setting replaces
the previous one from its effect reading on (R240, R241). -/
def armedAt (r : Nat) (l : List (Nat × Bool)) : Option (Nat × Bool) := l.find? (fun a => decide (a.1 ≤ r))

/-- The window in force at a reading (R240, R241). -/
def windowAt (r : Nat) (l : List SxtWindow) : Option SxtWindow := l.find? (fun w => decide (w.eff ≤ r))

/-- A channel is armed at a reading. -/
def SxtChan.armed (x : SxtChan) (r : Nat) : Bool := match armedAt r x.arms with
  | some a => a.2
  | none => false

/-- A reading lies in the window in force at it (R240). -/
def SxtChan.inWindow (x : SxtChan) (r : Nat) : Bool := match windowAt r x.wins with
  | some w => decide (w.opens ≤ r ∧ r < w.closes)
  | none => false

/-- A channel is scheduled against its meridian: armed now or later, or a window closes in the future (R242). -/
def State.sxtScheduled (s : State) (c : Nat) : Bool :=
  let r := s.sxtNow c
  let x := s.sxtChan c
  x.armed r || x.arms.any (fun a => decide (r < a.1) && a.2) || (match windowAt r x.wins with
    | some w => decide (r < w.closes)
    | none => false) || x.wins.any (fun w => decide (r < w.eff ∧ r < w.closes))

/-- An arm setting with an effect reading (R241). The prescaler restarts when a disarmed channel is armed (R237). -/
def State.sxtArm (s : State) (c : Nat) (on : Bool) (eff : Nat) : State :=
  let x := s.sxtChan c
  s.setSxtChan c { x with arms := (eff, on) :: x.arms, count := if on ∧ !x.armed eff then 0 else x.count }

/-- A window setting with an effect reading (R241). -/
def State.sxtWindow (s : State) (c opens closes eff : Nat) : State :=
  let x := s.sxtChan c
  s.setSxtChan c { x with wins := ⟨eff, opens, closes⟩ :: x.wins }

/-! ### Measurement units (R245 to R252) -/

/-- K of a channel: prescale + 1 on a bearing channel, 1 on a pin channel (R237, R246). -/
def State.sxtK (s : State) (c : Nat) : Nat := if isBearing c then s.fget fSXT_CH_CTL_prescale c + 1 else 1

/-- A difference of readings in 2^-32 cycles, divided by K, in the unit of samples, rounded to the nearest, halves away from zero
(R246, R247). -/
def State.sampleOf (s : State) (u m : Nat) (diff : Int) (k : Nat) : Int :=
  if s.fbit fSXT_MU_CTL_unit u then roundDiv diff (256 * k)
  else if m = 7 then roundDiv (diff * 50000) (2 ^ 32 * k)
  else roundDiv (diff * 500000) ((s.mer m).cfg.fword * k)

/-- A sample accumulated, or counted as out of range (R249). -/
def State.muSample (s : State) (u : Nat) (sample : Int) : State :=
  let x := s.mu u
  let v := sample - sext 32 (s.fget fSXT_MU_REF_ref u)
  if v < -2147483648 ∨ 2147483647 < v then (s.setMu u { x with range := x.range + 1 }).bump fSXT_MU_CNT_range_count u
  else
    let y := { x with n := x.n + 1, sum := x.sum + v, sumsq := x.sumsq + (v * v).toNat }
    s.setMu u { y with min := if x.n = 0 then v else min x.min v, max := if x.n = 0 then v else max x.max v }

/-- The 64-byte result element (R252). -/
def State.muElement (s : State) (u : Nat) (short : Bool) : Nat :=
  let x := s.mu u
  let freq := decide (s.fget fSXT_MU_CTL_mode u = 3)
  let z (v : Nat) := if freq then 0 else v
  pack [(0, 4, u), (4, 2, s.fget fSXT_MU_CTL_mode u), (6, 3, s.sxtMer (s.fget fSXT_MU_CTL_start_ch u)),
        (9, 1, s.fget fSXT_MU_CTL_unit u), (10, 1, b2n short), (11, 1, b2n (x.range != 0)), (12, 1, b2n x.broken),
        (13, 1, b2n x.slewing), (16, 4, 9), (32, 32, x.range), (64, 64, x.n), (128, 64, enc 64 x.sum),
        (192, 96, z x.sumsq), (288, 32, z (enc 32 x.min)), (320, 32, z (enc 32 x.max)),
        (352, 64, (x.first.getD 0) / 2 ^ 32), (416, 64, x.last / 2 ^ 32), (480, 32, s.fget fSXT_MU_REF_ref u)]

/-- A quotient whose rounding the spec leaves open: exact where the division is, else the free choice of the two neighbours
(R252; assumption 15). -/
def State.openDiv (s : State) (a : Int) (b : Nat) : State × Int :=
  if b = 0 then (s.fresh.1, sext 32 s.fresh.2.toNat)
  else if a % (b : Int) = 0 then (s, a / b)
  else (s.fresh.1, a / b + (s.fresh.2.toNat % 2 : Nat))

/-- The mean and the deviation in 2^-8 units as a completion's r0 and r1; in frequency mode, which has neither, both are free
values (R252; assumption 15). -/
def State.muStats (s : State) (u : Nat) : State × Nat :=
  let x := s.mu u
  if s.fget fSXT_MU_CTL_mode u = 3 ∨ x.n = 0 then (s.fresh.1, s.fresh.2.toNat)
  else
    let ref := sext 32 (s.fget fSXT_MU_REF_ref u)
    let mean := s.openDiv (256 * (ref * x.n + x.sum)) x.n
    -- sd in 2^-8 units: sqrt(65536 (n sumsq - sum^2) / n^2)
    let w := 65536 * (x.n * x.sumsq - (x.sum * x.sum).toNat)
    let root := Nat.sqrt (w / (x.n * x.n))
    let exact := decide (root * root * (x.n * x.n) = w)
    let f := mean.1.fresh
    let sd := if exact then root else root + f.2.toNat % 2
    (if exact then mean.1 else f.1, enc 32 mean.2 + sd % 2 ^ 32 * 2 ^ 32)

/-- SEXTANT_MEASURE commands that wait for this unit end with its result: the element goes where they asked, and the channels
they armed are disarmed (R376; assumption 16). -/
def State.muAnswer (s : State) (u elem : Nat) : State :=
  match s.helm.running.find? (fun x => x.why == .unitResult u) with
  | none => s
  | some x =>
    let stats := s.muStats u
    let s := stats.1
    let s := [s.fget fSXT_MU_CTL_start_ch u, s.fget fSXT_MU_CTL_stop_ch u].foldl
      (fun s c => (s.sxtArm c false (s.sxtNow c)).fput fSXT_CH_CTL_arm c 0) s
    if x.dst = 0 then s.endWaits (.unitResult u) .ok none (some stats.2)
    else match s.storeResult x.space x.dst (bytesOf 64 elem) with
      | (s, none) => s.endWaits (.unitResult u) .ok none (some stats.2)
      | (s, some (st, d)) => s.endWaits (.unitResult u) st (some d)

/-- A run that ends now, and not at a stamp, has slewed when its meridian does, or was given a slew since the run's first stamp
(R252). -/
def State.muSlewed (s : State) (u : Nat) : State :=
  let x := s.mu u
  let m := s.sxtMer (s.fget fSXT_MU_CTL_start_ch u)
  if x.first.isSome then s.setMu u { x with slewing := x.slewing || s.slewing m || (s.mer m).slews != x.slewsFirst } else s

/-- A run's result is posted: the result registers change, the element is committed, and a continuous unit waits for the first stamp
of a new run (R250, R252). -/
def State.muPost (s : State) (u : Nat) (short : Bool) : State :=
  let x := s.mu u
  let freq := decide (s.fget fSXT_MU_CTL_mode u = 3)
  let elem := s.muElement u short
  let s := (((s.wr .SXT_MU_COUNT u 0 (BitVec.ofNat 64 (x.n % 2 ^ 33))).wr .SXT_MU_SUM u 0 (BitVec.ofNat 64 (enc 64 x.sum))).wr
    .SXT_MU_SUMSQ_LO u 0 (BitVec.ofNat 64 (if freq then 0 else x.sumsq))).wr .SXT_MU_SUMSQ_HI u 0
    (BitVec.ofNat 64 (if freq then 0 else x.sumsq / 2 ^ 64 % 2 ^ 32))
  let s := s.wr .SXT_MU_MINMAX u 0 (BitVec.ofNat 64 (if freq then 0 else enc 32 x.min + enc 32 x.max * 2 ^ 32))
  let s := (s.report (s.fget fSXT_MU_QUEUE_queue u) 64 elem).muAnswer u elem
  if s.fbit fSXT_MU_CTL_continuous u ∧ !short then
    let y : MuRun := { running := true, start := x.start, between := true, last := x.last, slewsLast := x.slewsLast }
    -- in period mode the stamp that ended the last sample begins the first new one
    s.setMu u (if s.fget fSXT_MU_CTL_mode u = 2 then { y with openAt := x.openAt, first := x.openAt, slewsFirst := x.slewsLast } else y)
  else (s.setMu u {}).fput fSXT_MU_CTL_run u 0

/-- A run completes once N samples are in (R250). -/
def State.muCheck (s : State) (u : Nat) : State :=
  if (s.mu u).running ∧ s.fget fSXT_MU_CTL_mode u ≠ 3 ∧ s.fget fSXT_MU_N_n_m1 u < (s.mu u).n then s.muPost u false else s

/-- A stamp joins a unit's run: the first and the last one, and whether the meridian slews at it or was given a slew since the
first (R252). -/
def MuRun.join (x : MuRun) (t : Stamp) : MuRun :=
  let base := if x.first.isSome then x.slewsFirst else t.slews
  { x with first := some (x.first.getD t.at96), last := t.at96, between := false, slewsFirst := base, slewsLast := t.slews,
           slewing := x.slewing || t.slewing || t.slews != base }

/-- An accepted stamp of a channel meets one unit (R246). A stop and a start of one reading make a sample whichever of the two is
decided first. -/
def State.muFeed (s : State) (c : Nat) (t : Stamp) (u : Nat) : State :=
  let x := s.mu u
  let start := decide (s.fget fSXT_MU_CTL_start_ch u = c) && (s.fbit fSXT_MU_CTL_start_pol u == t.falling)
  let stop := decide (s.fget fSXT_MU_CTL_stop_ch u = c) && (s.fbit fSXT_MU_CTL_stop_pol u == t.falling)
  if !x.running then s
  else
    let y := x.join t
    match s.fget fSXT_MU_CTL_mode u with
    | 1 =>
      match x.openAt with
      | some a =>
        if stop ∧ a ≤ t.at96 then
          ((s.setMu u { y with openAt := none }).muSample u (s.sampleOf u t.mer ((t.at96 : Int) - a) 1)).muCheck u
        else if start then s.bump fSXT_MU_CNT_extra_starts u
        else s
      | none =>
        if start ∧ !stop ∧ x.idleStop = some t.at96 then
          ((s.setMu u { y with idleStop := none }).muSample u (s.sampleOf u t.mer 0 1)).muCheck u
        else if start then s.setMu u { y with openAt := some t.at96 }
        else if stop then s.setMu u { x with idleStop := some t.at96 }
        else s
    | 2 =>
      if start then
        match x.openAt with
        | some a =>
          ((s.setMu u { y with openAt := some t.at96 }).muSample u (s.sampleOf u t.mer ((t.at96 : Int) - a) (s.sxtK c))).muCheck u
        | none => s.setMu u { y with openAt := some t.at96 }
      else s
    | 3 =>
      if start then
        let first := x.first.getD t.at96
        s.setMu u { y with n := x.n + 1, openAt := some t.at96, sum := s.sampleOf u t.mer ((t.at96 : Int) - first) 1 }
      else s
    | _ => s

/-- A unit's samples begin or end at a channel. -/
def State.muUses (s : State) (u c : Nat) : Bool :=
  decide (s.fget fSXT_MU_CTL_start_ch u = c) ||
    (decide (s.fget fSXT_MU_CTL_mode u = 1) && decide (s.fget fSXT_MU_CTL_stop_ch u = c))

/-- A unit's open sample is discarded; its run is broken, or, at its bearing's loss, goes on unmarked: R251 names the loss among no
run's breaks, only says that no sample spans the hold (assumption 94). -/
def State.muDiscard (s : State) (u : Nat) (brk : Bool) : State :=
  let x := s.mu u
  if x.running ∧ x.openAt.isSome then
    let s := s.setMu u { x with broken := x.broken || brk,
                                openAt := if s.fget fSXT_MU_CTL_mode u = 3 then x.openAt else none }
    if brk then s.fput fSXT_MU_STAT_broken u 1 else s
  else s

/-- A stamp of a channel was missed, lost, or found no time, or its bearing was lost: the samples open on it end (R251). -/
def State.muBreak (s : State) (c : Nat) (brk : Bool) : State :=
  (List.range 16).foldl (fun s u => if s.muUses u c then s.muDiscard u brk else s) s

/-! ### Edges and stamps (R232 to R244) -/

/-- A stamp taken before an instant has still to be decided. -/
def State.sxtUndecided (s : State) (t : Nat) : Bool :=
  s.sxt.chans.any (fun e => e.2.taken.any (fun d => decide (d.due < t)))

/-- What ends the open samples of a channel's units does so once every stamp before it is decided, so that units see it in its place
among the stamps of both their channels (R246, R251). -/
def State.sxtSettle (s : State) : State :=
  (List.range 52).foldl (fun s c =>
    let x := s.sxtChan c
    let due := x.losses.filter (fun l => !s.sxtUndecided l.1)
    due.foldl (fun s l => s.muBreak c l.2)
      (if due.isEmpty then s else s.setSxtChan c { x with losses := x.losses.filter (fun l => s.sxtUndecided l.1) })) s

/-- An edge of a channel was missed or found no time at an instant, or its bearing was lost (R251). -/
def State.sxtLost (s : State) (c t : Nat) (brk : Bool := true) : State :=
  (s.setSxtChan c { s.sxtChan c with losses := (s.sxtChan c).losses ++ [(t, brk)] }).sxtSettle

/-- A pin's comparator has changed: it is high after a rising edge, low after a falling one. A bearing channel has no pin. -/
def State.sxtCompare (s : State) (c : Nat) (falling cmp : Bool) : State :=
  if isBearing c then s else s.setPin c { s.pin c with cmp := setBit (s.pin c).cmp (b2n cmp) (!falling) }

/-- A channel looks at an edge: its half is powered, its pin is on, no self-check runs, and the edge's polarity and comparator are
the selected ones (R231 to R235, R254). -/
def State.sxtSees (s : State) (c : Nat) (falling cmp : Bool) : Bool :=
  let sel := s.fget fSXT_CH_CTL_edge c
  let bearing := isBearing c
  let wanted := if falling then sel == 1 || (sel == 2 && !bearing) else sel == 0 || (sel == 2 && !bearing)
  let source := if bearing then !cmp else cmp == s.fbit fSXT_CH_CTL_cmp_sel c
  let dark := !s.powered (30 + sxtHalf c) || (!bearing && (s.pinState c == 0 || s.pinState c == 7)) || (s.sxtChan c).checking
  !dark && wanted && source && decide (c < 52)

/-- A bearing channel counts its edges for the prescaler (R237). -/
def State.sxtCount (s : State) (c : Nat) : State :=
  if isBearing c then s.setSxtChan c { s.sxtChan c with count := (s.sxtChan c).count + 1 } else s

/-- A channel's last stamp was taken less than a time before an instant. -/
def State.sxtSince (s : State) (c t d : Nat) : Bool :=
  match (s.sxtChan c).lastTaken with
  | some l => decide (t < l + d)
  | none => false

/-- A pin channel's hold-off (R236). -/
def State.sxtHold (s : State) (c : Nat) : Nat :=
  if isBearing c then 0 else min (s.fget fSXT_CH_CTL_holdoff c) 500 * 20 * unitsPerPs

/-- A channel's deskew in units of time (R235). -/
def State.sxtSkew (s : State) (c : Nat) : Int := clampInt (-100000) 100000 (sext 24 (s.fget fSXT_CH_DESKEW_skew c)) * 60

/-- The stamp of an edge at an instant: the meridian's reading there, less the channel's deskew (R232, R233, R243). -/
def State.sxtStamp (s : State) (c t : Nat) (falling cmp : Bool) : Stamp :=
  let m := s.sxtMer c
  ⟨(s.mer m).reading96 ((t : Int) - s.sxtSkew c), falling, cmp, m, s.slewing m, t, shiftTime t (-s.sxtSkew c), (s.mer m).slews⟩

/-- SEXTANT_EDGE: an edge at a channel's input, at an instant in units of 20 fs as the interpolator resolves it, from the VOL
comparator or bearing input (cmp = false) or the VOH comparator (R230 to R238). -/
def doSextantEdge (c : Nat) (at20fs : Nat) (falling cmp : Bool) (s : State) : State :=
  let t := at20fs * 60
  let s := (s.advance t).sxtCompare c falling cmp
  if s.sxtSees c falling cmp = false then s
  else
    let chosen := (s.sxtChan c).count % s.sxtK c == 0
    let s := s.sxtCount c
    if !chosen then s
    else if s.sxtSince c t (s.sxtHold c) then s
    else if s.sxtSince c t (160 * unitsPerPs) then (s.bump fSXT_CH_CNT_missed c).sxtLost c (shiftTime t (-s.sxtSkew c))
    else
      let s := s.setSxtChan c { s.sxtChan c with lastTaken := some t }
      if (s.mer (s.sxtMer c)).st ≠ .running then
        (s.bump fSXT_CH_CNT_no_time c).sxtLost c (shiftTime t (-s.sxtSkew c))
      else s.setSxtChan c { s.sxtChan c with taken := (s.sxtChan c).taken ++ [s.sxtStamp c t falling cmp] }

/-- The instants of the newest stamps that a half put on its post path. -/
def State.posted (s : State) (h : Nat) : List Nat := if h = 0 then s.sxt.posted0 else s.sxt.posted1

/-- A half's post path is full: 256 stamps went onto it within the last 256 ns (R244). -/
def State.postFull (s : State) (h t : Nat) : Bool :=
  decide (256 ≤ ((s.posted h).filter (fun p => decide (t < p + 256 * unitsPerNs))).length)

/-- A stamp put on its half's post path. -/
def State.notePost (s : State) (h t : Nat) : State :=
  let l := (t :: s.posted h).take 256
  { s with sxt := if h = 0 then { s.sxt with posted0 := l } else { s.sxt with posted1 := l } }

/-- An accepted stamp goes onto the post path when the channel streams, and to every measurement unit (R244 to R246). -/
def State.sxtAccept (s : State) (c : Nat) (t : Stamp) : State :=
  let s := if s.fbit fSXT_CH_CTL_stream_en c then
      (s.notePost (sxtHalf c) t.time).setSxtChan c
        { s.sxtChan c with posts := (s.sxtChan c).posts ++ [(t, s.fget fSXT_CH_STAT_seq c, (s.sxtChan c).gap)], gap := false }
    else s
  (List.range 16).foldl (fun s u => s.muFeed c t u) s

/-- A stamp is discarded, counted as outside the window, lost at a full post path, or accepted (R239 to R241, R244). -/
def State.sxtDecide (s : State) (c : Nat) (t : Stamp) : State :=
  let x := s.sxtChan c
  if !x.armed t.at96 then s
  else if s.fbit fSXT_CH_CTL_win_en c ∧ !x.inWindow t.at96 then s.bump fSXT_CH_CNT_outside c
  else
    let s := s.tick fSXT_CH_STAT_seq c
    if s.fbit fSXT_CH_CTL_stream_en c ∧ s.postFull (sxtHalf c) t.time then
      ((s.bump fSXT_CH_CNT_post_lost c).setSxtChan c { s.sxtChan c with gap := true }).muBreak c true
    else s.sxtAccept c t

/-- A route's setting for a channel. -/
def Deferred.sets (d : Deferred) (c : Nat) : Bool :=
  match d with
  | .window k _ _ => k == c
  | .arm mask _ => bitAt mask c
  | _ => false

/-- A setting of a channel by milestone or by route is due at an instant and has not reached the channel yet: it always does before a
stamp of that instant is decided (R241). -/
def State.sxtAwaits (s : State) (c t : Nat) : Bool :=
  let by' (m at88 : Nat) : Bool := match (s.mer m).instantOf at88 with
    | some u => decide (u ≤ t)
    | none => false
  s.ms.pending.any (fun x => (x.action == 6 || x.action == 7) && x.target == c && by' x.mer x.at88) ||
  (List.range 16).any (fun p =>
    let l := (s.pilot p).leg
    s.legRuns p && l.acts.any (fun a => a.2.sets c && by' (s.pjob p).meridian (l.s88 + a.1 * (bits l.entry 31 0 * fracOne))))

/-- STAMP_DECISION: the oldest undecided stamp of a channel is decided 200 ns after its meridian has passed its reading, once the
settings due by then have reached the channel and the stamps of earlier instants on other channels are decided, so that units pair
their stamps in the order of their readings (R239 to R241, R244 to R246). -/
def doStampDecision (c : Nat) (s : State) : State :=
  match (s.sxtChan c).taken with
  | [] => s
  | t :: rest =>
    if s.sxtAwaits c t.due || s.sxtUndecided t.due then s
    else
      let s := s.advance (t.due + 200 * unitsPerNs)
      ((s.setSxtChan c { s.sxtChan c with taken := rest }).sxtDecide c t).sxtSettle

/-- The 16-byte element of a stamp (R243). -/
def stampElement (c : Nat) (t : Stamp) (seq : Nat) (gap : Bool) : Nat :=
  pack [(0, 6, c), (6, 1, b2n t.falling), (7, 1, b2n t.cmp), (8, 3, t.mer), (11, 1, b2n gap), (12, 1, b2n t.slewing),
        (16, 4, 8), (20, 12, seq), (32, 32, t.at96 % 2 ^ 32), (64, 64, t.at96 / 2 ^ 32)]

/-- STAMP_POST: the oldest stamp on a channel's post path is committed to its queue (R243, R244). -/
def doStampPost (c : Nat) (s : State) : State :=
  match (s.sxtChan c).posts with
  | [] => s
  | (t, seq, gap) :: rest =>
    (s.setSxtChan c { s.sxtChan c with posts := rest }).report (s.fget fSXT_CH_QUEUE_queue c) 16
      (stampElement c t seq gap)

/-- The reading at which a channel's window first closes after a reading: at its close, or where a later setting replaces it (R241,
R246). -/
def SxtChan.closeAfter (x : SxtChan) (r : Nat) : Option Nat :=
  let spans := (x.wins.zip (none :: x.wins.map (fun w => some w.eff))).map (fun e =>
    (max e.1.opens e.1.eff, match e.2 with
      | some n => min e.1.closes n
      | none => e.1.closes))
  ((spans.filter (fun e => decide (e.1 < e.2 ∧ r < e.2))).map (·.2)).foldl (fun b e => some (match b with
    | some v => min v e
    | none => e)) none

/-- FREQUENCY_RUN_END: the start channel's window closes, and a frequency run completes, once the stamps before the close are
decided; a continuous unit's next run begins after that close (R246, R250). -/
def doFrequencyRunEnd (u : Nat) (s : State) : State :=
  let c := s.fget fSXT_MU_CTL_start_ch u
  let x := s.sxtChan c
  if (s.mu u).running ∧ s.fget fSXT_MU_CTL_mode u = 3 then
    match x.closeAfter (s.mu u).start with
    | none => s
    | some close =>
      match (s.mer (s.sxtMer c)).instantOf (ceilDiv close 256) with
      | none => s
      | some t =>
        if x.taken.any (fun p => decide (p.at96 < close)) then s
        else
          let s := (s.advance t).muSlewed u
          (s.setMu u { s.mu u with start := close }).muPost u false
  else s

/-! ### Register writes (R241, R242, R248, R250, R254) -/

/-- SXT_WIN_CMT: a write of commit replaces the channel's window with the register window (R241); discarded for a channel of a
running leg (R242). -/
def doSxtWinCommit (c : Nat) (s : State) : State :=
  if s.sxtInLeg c then s.rtWriteDrop
  else
    s.sxtWindow c (s.fget fSXT_WIN_OPEN_cycle c * 2 ^ 32 + s.fget fSXT_WIN_FRAC_open_frac c * 256)
      (s.fget fSXT_WIN_CLOSE_cycle c * 2 ^ 32 + s.fget fSXT_WIN_FRAC_close_frac c * 256) (s.sxtNow c)

/-- SXT_CH_CTL_WRITE: a write to a channel's control is stored and arms or disarms the channel at its meridian's reading
(R241); discarded for a channel of a running leg (R242). -/
def doSxtChCtlWrite (c v : Nat) (s : State) : State :=
  if s.sxtInLeg c then s.rtWriteDrop
  else
    let s := s.wr .SXT_CH_CTL c 0 (BitVec.ofNat 64 (bits v 27 0))
    s.sxtArm c (bitAt v 0) (s.sxtNow c)

/-- A polarity is one that a channel takes (R248). -/
def State.takesPol (s : State) (c : Nat) (falling : Bool) : Bool :=
  let e := s.fget fSXT_CH_CTL_edge c
  (if falling then e == 1 else e == 0) || (e == 2 && !isBearing c)

/-- The configuration errors of a unit (R248). A mode of 0 runs nothing and is no error of R248. -/
def State.muCfgErr (s : State) (u : Nat) : Bool :=
  let mode := s.fget fSXT_MU_CTL_mode u
  let a := s.fget fSXT_MU_CTL_start_ch u
  let b := if mode = 1 then s.fget fSXT_MU_CTL_stop_ch u else a
  decide (52 ≤ a ∨ 52 ≤ b) || s.sxtMer a != s.sxtMer b || !s.takesPol a (s.fbit fSXT_MU_CTL_start_pol u) ||
    (mode == 1 && !s.takesPol b (s.fbit fSXT_MU_CTL_stop_pol u)) || (mode == 3 && !s.fbit fSXT_CH_CTL_win_en a) ||
    (!s.fbit fSXT_MU_CTL_unit u && (s.mer (s.sxtMer a)).cfg.kind == .tracked)

/-- SXT_MU_CTL_WRITE: a write to a unit's control starts a run, ends one early with its short result, or only stores
(R245, R248, R250). -/
def doSxtMuCtlWrite (u v : Nat) (s : State) : State :=
  let was := (s.mu u).running
  -- a loss that waits for an undecided stamp has met the sample that is open
  let lost := (List.range 52).filter (fun c => s.muUses u c && (s.sxtChan c).losses.any (·.2))
  let s := if was ∧ !bitAt v 17 then
      if (s.mu u).between then s.setMu u {}
      else ((if lost.isEmpty then s else s.muDiscard u true).muSlewed u).muPost u true
    else s
  let s := s.wr .SXT_MU_CTL u 0 (BitVec.ofNat 64 (bits v 18 0))
  if bitAt v 17 ∧ !was then
    if s.muCfgErr u then (s.fput fSXT_MU_STAT_cfg_err u 1).fput fSXT_MU_CTL_run u 0
    else if s.fget fSXT_MU_CTL_mode u = 0 then s
    else s.setMu u { running := true, start := s.sxtNow (s.fget fSXT_MU_CTL_start_ch u) }
  else s

/-- SELF_CHECK_START: a write of go starts a self-check of the masked channels, but for those armed, held by an accepted job, or
in a powered-down half; ignored while one runs (R254). -/
def doSelfCheckStart (s : State) : State :=
  if s.fbit fSXT_STATUS_sc_busy then s
  else
    let masked := maskBits 52 (s.fget fSXT_SC_MASK_mask)
    let skips := fun c => (s.sxtChan c).armed (s.sxtNow c) || !s.powered (30 + sxtHalf c) ||
      s.acceptedJobs.any (fun e => bitAt e.2.sxtChans c)
    let skip := masked.filter skips
    let s := (s.fput fSXT_SC_SKIP_skip 0 ((skip.map (fun c => 2 ^ c)).sum)).fput fSXT_STATUS_sc_busy 0 1
    (masked.filter (fun c => !skip.contains c)).foldl (fun s c => s.setSxtChan c { s.sxtChan c with checking := true }) s

/-- SELF_CHECK_DONE: the self-check ends with the channels that it found out of tolerance (R254). -/
def doSelfCheckDone (failing : Nat) (s : State) : State :=
  if s.fbit fSXT_STATUS_sc_busy then
    let mine := (List.range 52).filter (fun c => (s.sxtChan c).checking)
    let bad := (mine.filter (fun c => bitAt failing c)).map (fun c => 2 ^ c)
    let s := mine.foldl (fun s c => s.setSxtChan c { s.sxtChan c with checking := false }) s
    ((s.fput fSXT_SC_FAIL_fail 0 bad.sum).fput fSXT_STATUS_sc_busy 0 0).endWaits .selfCheck .ok none (some bad.sum)
  else s

/-! ### Milestones (R241) -/

/-- MS_SXT_ARM: a Sextant arm milestone fires (R241, R376 action 6). -/
def doMsSxtArm (id : Nat) (s : State) : State :=
  match s.msFire id 6 with
  | none => s
  | some (s, f) =>
    let c := f.ms.target
    (s.sxtArm c (f.ms.arg == 1) (s.readingAt (s.sxtMer c) f * 256)).msDone f .ok

/-- MS_SXT_WINDOW: a Sextant window milestone fires (R241, R376 action 7). -/
def doMsSxtWindow (id : Nat) (s : State) : State :=
  match s.msFire id 7 with
  | none => s
  | some (s, f) =>
    let c := f.ms.target
    let r := s.readingAt (s.sxtMer c) f * 256
    (s.sxtWindow c r (f.ms.arg2 * 2 ^ 32 + f.ms.arg % 2 ^ 24 * 256) r).msDone f .ok

/-! ### Commands -/

/-- A channel programmed by Helm for a measurement: armed now, edge by polarity, window on, no stream (R376; assumption 16). -/
def State.sxtProgram (s : State) (c edge meridian : Nat) : State :=
  let s := ((((s.fput fSXT_CH_CTL_edge c edge).fput fSXT_CH_CTL_meridian c meridian).fput fSXT_CH_CTL_stream_en c 0).fput
    fSXT_CH_CTL_win_en c 1).fput fSXT_CH_CTL_arm c 1
  s.sxtArm c true (s.sxtNow c)

/-- The stop channel of a measurement: the start channel's own outside interval mode. -/
def measStop (k : Packet) : Nat := if u8 k 0 = 1 then u8 k 2 else u8 k 1

/-- The edges that a measurement's channel is to take (R234). -/
def measEdge (k : Packet) (c : Nat) : Nat :=
  if u8 k 1 = measStop k ∧ u8 k 0 = 1 ∧ bitAt (u8 k 3) 0 ≠ bitAt (u8 k 3) 1 then 2 else b2n (bitAt (u8 k 3) (if c = u8 k 1 then 0 else 1))

/-- The operands of SEXTANT_MEASURE are in range. -/
def measGood (k : Packet) : Bool :=
  decide (1 ≤ u8 k 0 ∧ u8 k 0 ≤ 3 ∧ u8 k 1 < 52 ∧ measStop k < 52 ∧ u8 k 3 < 8 ∧ u8 k 4 < 8) &&
  !(measEdge k (u8 k 1) == 2 && isBearing (u8 k 1))

/-- A channel is armed, or held by an accepted job. -/
def State.measHeld (s : State) (c : Nat) : Bool :=
  (s.sxtChan c).armed (s.sxtNow c) || s.acceptedJobs.any (fun e => bitAt e.2.sxtChans c)

/-- The milestone that sets a measurement's window on a channel. -/
def State.measWindow (s : State) (k : Packet) (c : Nat) : State × Except Status (Nat × Bool) :=
  s.msCommit (u8 k 4) 7 c 0 0 (u64 k 8 * fracOne) 0 0 ((u64 k 8 + u64 k 16) % 2 ^ 64) (jobOf k)

/-- The control word of a measurement's unit. -/
def measCtl (k : Packet) : Nat :=
  pack [(0, 2, u8 k 0), (2, 6, u8 k 1), (8, 1, b2n (bitAt (u8 k 3) 0)), (9, 6, measStop k), (15, 1, b2n (bitAt (u8 k 3) 1)),
        (16, 1, u8 k 3 / 4), (17, 1, 1)]

/-- A measurement's channels and unit programmed, the unit running (assumption 16). -/
def State.measRun (s : State) (k : Packet) (u : Nat) : State :=
  let s := s.sxtProgram (u8 k 1) (measEdge k (u8 k 1)) (u8 k 4)
  let s := if u8 k 1 = measStop k then s else s.sxtProgram (measStop k) (measEdge k (measStop k)) (u8 k 4)
  doSxtMuCtlWrite u (measCtl k) ((s.fput fSXT_MU_N_n_m1 u (u32 k 24)).fput fSXT_MU_REF_ref u (u32 k 28))

/-- SEXTANT_MEASURE (R376): a free unit is programmed, the window is scheduled by milestone, and the command waits for the unit's
result. -/
def bodySextantMeasure : CmdBody := fun k s =>
  let a := u8 k 1
  let b := measStop k
  if measGood k = false then fail s .paramInvalid
  else if !bitAt (u8 k 3) 2 ∧ (s.mer (u8 k 4)).cfg.kind = .tracked then fail s .paramInvalid
  else if s.measHeld a ∨ s.measHeld b then fail s .sextantBusy
  else match (List.range 16).find? (fun u => !(s.mu u).running) with
    | none => fail s .sextantBusy
    | some u => match s.measWindow k a with
      | (s, .error st) => fail s st
      | (s, .ok _) => match (if a = b then (s, .ok (0, false)) else s.measWindow k b) with
        | (s, .error st) => stopped s st 0
        | (s, .ok _) => (s.measRun k u, .wait (.unitResult u) 0 0 (u64 k 32) (u8 k 40) 1)

/-- SEXTANT_SELFCHECK (R254, R376): runs a self-check of the mask and waits for its end; a check already running answers
SEXTANT_BUSY (assumption 17). -/
def bodySextantSelfcheck : CmdBody := fun k s =>
  if s.fbit fSXT_STATUS_sc_busy then fail s .sextantBusy
  else (doSelfCheckStart (s.fput fSXT_SC_MASK_mask 0 (u64 k 0 % 2 ^ 52)), .wait .selfCheck 0 0 0 0 1)

/-! ### The rows of the command table -/

/-- MS_SXT_ARM (R241). -/
def execMsSxtArm (id : Nat) (s : State) : Host.Outcome State Fault Refusal := .next (doMsSxtArm id s)

/-- MS_SXT_WINDOW (R241). -/
def execMsSxtWindow (id : Nat) (s : State) : Host.Outcome State Fault Refusal := .next (doMsSxtWindow id s)

/-- SEXTANT_EDGE (R232). -/
def execSextantEdge (c : Fin 52) (at20fs : Nat) (falling : Bool) (voh : Bool) (s : State) : Host.Outcome State Fault Refusal :=
  .next (doSextantEdge c.val at20fs falling voh s)

/-- STAMP_DECISION (R239). -/
def execStampDecision (c : Fin 52) (s : State) : Host.Outcome State Fault Refusal := .next (doStampDecision c.val s)

/-- STAMP_POST (R244). -/
def execStampPost (c : Fin 52) (s : State) : Host.Outcome State Fault Refusal := .next (doStampPost c.val s)

/-- FREQUENCY_RUN_END (R250). -/
def execFrequencyRunEnd (u : Fin 16) (s : State) : Host.Outcome State Fault Refusal := .next (doFrequencyRunEnd u.val s)

/-- SELF_CHECK_DONE (R254). -/
def execSelfCheckDone (failing : BitVec 52) (s : State) : Host.Outcome State Fault Refusal :=
  .next (doSelfCheckDone failing.toNat s)

/-- SEXTANT_MEASURE (R245). -/
def execSextantMeasure (k : Packet) (s : State) : Host.Outcome State Fault Refusal :=
  .next (s.runCommand 0x5001 bodySextantMeasure k)

/-- SEXTANT_SELFCHECK (R254). -/
def execSextantSelfcheck (k : Packet) (s : State) : Host.Outcome State Fault Refusal :=
  .next (s.runCommand 0x5002 bodySextantSelfcheck k)

end Sys2Proof.Machine
end

