-- ==== Sys2Proof/Machine/Acquisition.lean ====
section
/-! DEFINITION. The sample grid (R270) and rail acquisition (chapter 12): units, entries and segments, triggers, records, and the
class 0x6 commands. Samples come from the converters (Machine/Converters.lean). -/

namespace Sys2Proof.Machine

/-! ### The modulator tick (R270) -/

/-- A tick's reading on MER0, rounded to the 24-bit fraction. -/
def tickReading (j : Nat) : Nat := (2 * (j * 200 * fracOne) + 3) / 6
/-- The first tick at or after a reading. -/
def tickFrom (r : Nat) : Nat := ceilDiv (3 * r) (200 * fracOne)
/-- The first tick at or after now. -/
def State.tickNow (s : State) : Nat := tickFrom (s.odo 0)
/-- Time moves to a tick. -/
def State.advanceTick (s : State) (j : Nat) : State :=
  match (s.mer 0).instantOf (tickReading j) with
  | some t => s.advance t
  | none => s

/-! ### Units -/

/-- An acquisition unit. -/
def State.aq (s : State) (u : Nat) : AcqUnit := nget {} u s.acq
/-- An acquisition unit replaced. -/
def State.setAq (s : State) (u : Nat) (x : AcqUnit) : State := { s with acq := nset {} u x s.acq }
/-- A SAR. -/
def State.sar (s : State) (r : Nat) : Sar := nget {} r s.adc.sars
/-- A SAR replaced. -/
def State.setSar (s : State) (r : Nat) (x : Sar) : State := { s with adc := { s.adc with sars := nset {} r x s.adc.sars } }
/-- A pin's decimator. -/
def State.sd (s : State) (n : Nat) : SdChan := nget {} n s.adc.sd
/-- A pin's decimator replaced. -/
def State.setSd (s : State) (n : Nat) (x : SdChan) : State := { s with adc := { s.adc with sd := nset {} n x s.adc.sd } }
/-- The decimation in force (R271, R275). -/
def State.sdR (s : State) (n : Nat) : Nat := min 240000 (max 96 (s.fget fADC_SD_CFG_osr n))

/-- N, P, Q and S of a unit (R295, R296). -/
def State.aqN (s : State) (u : Nat) : Nat := if s.fbit fACQ_SRC_reduce_en u then s.fget fACQ_SRC_reduce_m1 u + 1 else 1
def State.aqP (s : State) (u : Nat) : Nat := min 67108864 (s.fget fACQ_PRE_p u)
def State.aqQ (s : State) (u : Nat) : Nat := s.fget fACQ_POST_q u
def State.aqS (s : State) (u : Nat) : Nat := s.fget fACQ_NSEG_seg_m1 u + 1
/-- The bytes of an entry unit (R295). -/
def State.aqUnitBytes (s : State) (u : Nat) : Nat := if s.fbit fACQ_SRC_reduce_en u then 8 else 4
/-- The DVA of a position of a segment (R296). -/
def State.aqAddr (s : State) (u seg pos : Nat) : Nat :=
  s.fget fACQ_BASE_va u / 256 * 256 + (seg * (s.aqP u + s.aqQ u) + pos) * s.aqUnitBytes u

/-- The SAR that streams for a unit (R292). -/
def State.streamUnit (s : State) (r : Nat) : Option Nat :=
  match (s.sar r).conv with
  | some (.stream u, _) => some u
  | _ => none

/-- A pin's PMU mode and range as its registers hold them. -/
def State.pmuSet (s : State) (n : Nat) : Nat × Nat := (s.fget fPIN_PMU_CTL_mode n, s.fget fPIN_PMU_CTL_range n)

/-- The mux input of a conversion (R276, R278, R286, R292). -/
def State.sarInput (s : State) (r : Nat) (job : SarJob) : Nat :=
  match job with
  | .entry k => bits (s.rd .ADC_SAR_SEQ r).toNat (4 * k + 2) (4 * k)
  | .inject input _ => input
  | .stream u => s.fget fACQ_SRC_input u

/-- A SAR's next conversion, which samples its input at a tick (R277). -/
def State.sarConvert (s : State) (r : Nat) (x : Sar) (job : SarJob) (tick : Nat) : State :=
  s.setSar r { x with conv := some (job, tick), mux := s.sarInput r job, fastPin := s.fget fADC_SAR_CTL_fast_pin r }

/-- A SAR's sequence or injected conversion runs or waits. -/
def Sar.busy (x : Sar) : Bool :=
  x.seqRunning || x.inj.isSome || (match x.conv with
    | some (.inject _ _, _) => true
    | some (.entry _, _) => true
    | _ => false)

/-! ### Locating a reading (R298) -/

/-- The last tick whose reading lies at or before a reading. -/
def lastTick (r : Nat) : Nat := (6 * r + 3) / (400 * fracOne)

/-- The tick of a piece's sample. -/
def AcqGrid.tick (g : AcqGrid) (k : Nat) : Nat := g.tick0 + (k - g.j) * g.period

/-- The reading at which the slot of a piece's sample starts and the slot's length, given the piece that follows: slots run between
sample instants as R270 reports them, and the end of a piece's last slot is the next piece's first sample (R293, R294). -/
def AcqGrid.slot (g : AcqGrid) (next : Option AcqGrid) (k : Nat) : Nat × Nat :=
  let start := tickReading (g.tick k)
  let stop := match next with
    | some h => if h.j = k + 1 then h.tick0 else g.tick (k + 1)
    | none => g.tick (k + 1)
  (start, tickReading stop - start)

/-- The sample whose slot contains a reading, and the fraction of its slot, from the grid pieces newest first (R294, R298). -/
def locate (r : Nat) (next : Option AcqGrid) : List AcqGrid → Option (Nat × Nat)
  | [] => none
  | g :: rest =>
    if g.tick0 ≤ lastTick r then
      let i := g.j + (lastTick r - g.tick0) / g.period
      let k := match next with
        | some h => min i (h.j - 1)
        | none => i
      let w := g.slot next k
      some (k, 256 * (r - w.1) / w.2)
    else locate r (some g) rest

/-- The slot of a sample, from the grid pieces newest first: its start and its length (R293). -/
def slotOf (k : Nat) (next : Option AcqGrid) : List AcqGrid → Nat × Nat
  | [] => (0, 1)
  | g :: rest => if g.j ≤ k then g.slot next k else slotOf k (some g) rest

/-! ### Triggers (R298 to R300) -/

/-- An accepted trigger: post-trigger writing begins with the unit that contains the trigger sample (R296, R300). One that comes when
more than Q units from there on stand, as a chained one can, finds the oldest of the ring overwritten by the units beyond them, and
those are none of its capture (assumption 97). -/
def State.aqAccept (s : State) (u : Nat) (t : AcqTrig) : State :=
  let x := s.aq u
  let e := t.ti / s.aqN u
  let pre := min (min (s.aqP u) e) (s.aqP u + s.aqQ u - (x.written - e))
  let y := { x with st := .writing, trig := some t, validPre := pre, preShort := decide (pre < s.aqP u) }
  s.setAq u { y with post := min (s.aqQ u) (x.written - e), recordDue := decide (s.aqQ u ≤ x.written - e) }

/-- A trigger offered to a unit, already located (R300). Sources other than a Wayline message cannot be late. -/
def State.aqOffer (s : State) (u : Nat) (t : AcqTrig) : State × Bool :=
  let x := s.aq u
  let e := t.ti / s.aqN u
  match x.st with
  | .idle => (s, false)
  | .rearming => (s.bump fACQ_CNT_rearm_count u, false)
  | .writing =>
    match x.trig with
    | some a =>
      if a.ti / s.aqN u = e ∧ t.at88 < a.at88 ∧ !x.recordDue then ((s.aqAccept u t).bump fACQ_CNT_busy_count u, true)
      else (s.bump fACQ_CNT_busy_count u, false)
    | none => (s.bump fACQ_CNT_busy_count u, false)
  | .armed =>
    if t.src = 4 ∧ e + s.aqQ u < x.written then (s.bump fACQ_CNT_late_count u, false)
    else if s.fbit fACQ_CTL_require_full_pretrigger u ∧ e < s.aqP u then (s.bump fACQ_CNT_early_count u, false)
    else (s.aqAccept u t, true)

/-- A trigger of a source at a MER0 reading: located in the unit's own slots, or before its sample 0 (R298, R300). -/
def State.aqAt (s : State) (u src at88 : Nat) : State × Bool :=
  let x := s.aq u
  match x.st with
  | .idle => (s, false)
  | .rearming => (s.bump fACQ_CNT_rearm_count u, false)
  | _ =>
    match locate at88 none x.grid with
    | none => (s.bump fACQ_CNT_early_count u, false)
    | some (ti, tf) => s.aqOffer u ⟨src, ti, tf, at88⟩

/-- An accepted trigger passes to the units whose source it is, at the same reading (R298, source 5), at most four in a chain. -/
def State.aqChain (s : State) (u at88 : Nat) : Nat → State
  | 0 => s
  | n + 1 => (List.range 4).foldl (fun s v =>
      if v ≠ u ∧ s.fget fACQ_CTL_trig_src v = 5 ∧ s.fget fACQ_CTL_trig_sel v = u then
        match s.aqAt v 5 at88 with
        | (s, true) => State.aqChain s v at88 n
        | (s, false) => s
      else s) s

/-- A trigger of a source at a reading with its chain; false when no unit of its own accepted it. -/
def State.aqTrigger (s : State) (u src at88 : Nat) : State × Bool :=
  match s.aqAt u src at88 with
  | (s, true) => (s.aqChain u at88 4, true)
  | (s, false) => (s, false)

/-- A level crossing at sample k with code x (R299): the new memory, and the trigger position. -/
def levelCross (level : Int) (h : Nat) (falling : Bool) (k : Nat) (prev : Option Int) (primed : Bool) (x : Int) (ovr : Bool) :
    Bool × Option (Nat × Nat) :=
  let crossed := match prev with
    | none => false
    | some p => if falling then decide (level < p ∧ x ≤ level) else decide (p < level ∧ level ≤ x)
  let hit := crossed && primed && !ovr
  let primed' := (if hit then false else primed) || (if falling then decide (level + h ≤ x) else decide (x ≤ level - h))
  let pos := match prev with
    | some p =>
      let f := 256 * (level - p).natAbs / (x - p).natAbs
      if hit then some (if f = 256 then (k, 0) else (k - 1, f)) else none
    | none => none
  (primed', pos)

/-! ### Samples and units written (R295, R296, R300) -/

/-- One unit of entries written at its place in the segment's ring; what cannot be placed is lost, and the next entry shows it
(R296, R300). The port's lookahead asks for the page there and the next 8 (R343). -/
def State.aqWrite (s : State) (u : Nat) (entries : List Nat) : State :=
  let x := s.aq u
  let pq := s.aqP u + s.aqQ u
  let marked := match entries with
    | [] => []
    | v :: r => (v + b2n x.gapNext * 2 ^ 26) :: r
  let addr := s.aqAddr u (x.capture % s.aqS u) (x.written % pq)
  let sp := s.fget fACQ_CTL_aspace u
  let s := s.askWalks (s.aheadWalks 34 sp addr (s.aqAddr u (s.aqS u) 0) 9 true)
  let bs := marked.flatMap (bytesOf 4)
  let span := s.dvaSpan 34 sp addr bs.length 2
  let y := { (span.1.aq u) with written := x.written + 1 }
  match span.2.1 with
  | some f => ((span.1.raiseFault f).1).setAq u { y with gapNext := true, gap := true }
  | none =>
    -- a faulted channel discards the write, and a lost eighth drops it (R324, R330)
    let lost := span.2.2.any (fun e => span.1.hpaGone e.1)
    (span.1.writePieces portMS .realTime bs span.2.2).setAq u { y with gapNext := lost, gap := y.gap || lost }

/-- After a unit is written, post-trigger writing may be complete (R296, R301). -/
def State.aqAfter (s : State) (u : Nat) : State :=
  let x := s.aq u
  match x.st, x.trig with
  | .writing, some t =>
    let post := x.written - t.ti / s.aqN u
    s.setAq u { x with post := post, recordDue := decide (s.aqQ u ≤ post) }
  | .armed, _ => s.fput fACQ_STAT_pre_valid u (min (s.aqP u) x.written)
  | _, _ => s

/-- The code and flags of an entry (R295). -/
def aqEntry (code : Int) (flags : Nat) : Nat := enc 24 code + flags * 2 ^ 24

/-- A level crossing triggers its unit, when that is the unit's source, at the sample instant of t_i and t_f / 256 of its slot
(R299). -/
def State.aqLevel (s : State) (u : Nat) (cross : Option (Nat × Nat)) : State :=
  match cross with
  | none => s
  | some (ti, tf) =>
    if s.fget fACQ_CTL_trig_src u = 1 then
      let slot := slotOf ti none (s.aq u).grid
      let at88 := slot.1 + ceilDiv (tf * slot.2) 256
      match s.aqOffer u ⟨1, ti, tf, at88⟩ with
      | (s, true) => s.aqChain u at88 4
      | (s, false) => s
    else s

/-- A sample joins the unit's entry or pair, which is written once it is whole (R295). -/
def State.aqAdd (s : State) (u : Nat) (code : Int) (flags : Nat) : State :=
  let x := s.aq u
  let lo := if x.accN = 0 then code else min x.accMin code
  let hi := if x.accN = 0 then code else max x.accMax code
  let fl := if x.accN = 0 then flags else Nat.lor x.accFlags flags
  let full := decide (s.aqN u ≤ x.accN + 1)
  let s := s.setAq u { x with j := x.j + 1, accMin := lo, accMax := hi, accFlags := fl, accN := if full then 0 else x.accN + 1 }
  if full then
    (s.aqWrite u (if s.fbit fACQ_SRC_reduce_en u then [aqEntry lo fl, aqEntry hi fl] else [aqEntry code fl])).aqAfter u
  else s

/-- A unit takes samples: it is armed or writing, and its last unit is not written. -/
def State.aqTakes (s : State) (u : Nat) : Bool := ((s.aq u).st == .armed || (s.aq u).st == .writing) && !(s.aq u).recordDue

/-- A sample reaches a unit: the level trigger on the raw sample, then, if that does not end the capture, the entry or the pair
(R295, R296, R299). Flags: ovr in bit 0, settle_suspect in bit 1. -/
def State.aqSample (s : State) (u : Nat) (code : Int) (flags : Nat) : State :=
  if s.aqTakes u then
    let x := s.aq u
    let cross := levelCross (sext 24 (s.fget fACQ_LEVEL_level u)) (s.fget fACQ_LEVEL_hyst u) (s.fbit fACQ_CTL_slope u) x.j x.prev
      x.primed code (bitAt flags 0)
    let s := (s.setAq u { x with prev := some code, primed := cross.1 }).aqLevel u cross.2
    if s.aqTakes u then s.aqAdd u code flags else s
  else s

/-! ### Records, stop, arm (R293, R297, R301, R302) -/

/-- The position in its segment of the oldest valid unit of a capture (R301). -/
def State.aqFirst (s : State) (u : Nat) : Nat :=
  let x := s.aq u
  ((match x.trig with
    | some t => t.ti / s.aqN u
    | none => x.written) - x.validPre) % (s.aqP u + s.aqQ u)

/-- The 64-byte record (R301). Without an accepted trigger, the trigger's fields are a free value (assumption 19). -/
def State.aqRecord (s : State) (u : Nat) : State × Nat :=
  let x := s.aq u
  let s0 := tickReading ((x.grid.getLast?.map (·.tick0)).getD 0)
  let base := pack [(0, 2, u), (2, 1, b2n x.preShort), (3, 1, s.fget fACQ_SRC_reduce_en u), (4, 1, b2n x.regrid), (5, 1, b2n x.gap),
    (6, 1, b2n x.stopped), (7, 1, b2n x.srcLost), (16, 4, 11), (20, 12, x.capture), (32, 27, x.validPre), (64, 32, x.post),
    (96, 16, x.capture % s.aqS u), (320, 64, s0 / fracOne), (384, 24, s0 % fracOne),
    (448, 64, x.regridIndex.getD (2 ^ 64 - 1))]
  match x.trig with
  | some t =>
    (s, base + pack [(112, 3, t.src), (120, 8, t.tf), (128, 64, t.ti), (192, 64, t.at88 / fracOne),
      (256, 24, t.at88 % fracOne), (288, 32, s.aqFirst u)])
  | none =>
    let f := s.fresh
    let g := f.1.fresh
    let h := g.1.fresh
    (h.1, base + pack [(112, 3, h.2.toNat / 2 ^ 32), (120, 8, h.2.toNat / 2 ^ 36), (128, 64, f.2.toNat), (192, 64, g.2.toNat),
      (256, 24, h.2.toNat), (288, 32, s.aqFirst u)])

/-- A unit that no longer records lets its SAR go. -/
def State.aqRelease (s : State) (u : Nat) : State :=
  (List.range 4).foldl (fun s r => if s.streamUnit r = some u then s.setSar r { s.sar r with conv := none } else s) s

/-- A unit starts to record: its samples count from 0 at the next sample, and no pre-trigger unit is valid (R293, R302). A SAR that
streams for it already converts on, back to back. -/
def State.aqBegin (s : State) (u : Nat) : State :=
  let x := s.aq u
  let fresh : AcqUnit := { capture := x.capture, segs := x.segs, st := .armed }
  let s := s.fput fACQ_STAT_pre_valid u 0
  if s.fbit fACQ_SRC_kind u then
    let r := s.fget fACQ_SRC_sar u
    match (s.sar r).conv with
    | some (.stream _, start) =>
      let t := if s.tickNow ≤ start then start else start + 24
      s.setAq u { fresh with grid := [⟨0, t, 24⟩] }
    | _ => (s.setAq u { fresh with grid := [⟨0, s.tickNow, 24⟩] }).sarConvert r (s.sar r) (.stream u) s.tickNow
  else
    let n := s.fget fACQ_SRC_pin u
    s.setAq u { fresh with grid := [⟨0, (s.sd n).origin + ((s.sd n).k + 1) * s.sdR n, s.sdR n⟩] }

/-- The record is committed and the unit goes on: full, re-arming, or idle (R297, R301, R302). R302 excepts no capture but R297's last
from the re-arming, so that a stopped one, and one whose source was lost, is followed by another too (assumption 98). A unit that
re-arms keeps its SAR. -/
def State.aqCommit (s : State) (u : Nat) : State :=
  let r := s.aqRecord u
  let x := r.1.aq u
  let s := r.1.report (s.fget fACQ_QUEUE_queue u) 64 r.2
  let y := { (s.aq u) with capture := x.capture + 1, recordDue := false,
                           segs := nset 0 (x.capture % s.aqS u) (r.1.aqFirst u) x.segs }
  if !s.fbit fACQ_CTL_wrap u ∧ s.aqS u ≤ x.capture + 1 then
    ((s.aqRelease u).setAq u { y with st := .idle }).fput fACQ_STAT_full u 1
  else if s.fbit fACQ_CTL_auto_rearm u then s.setAq u { y with st := .rearming }
  else (s.aqRelease u).setAq u { y with st := .idle }

/-- ACQ_RECORD: every unit of the capture is written and acknowledged, and the record is committed (R26, R301). -/
def doAcqRecord (u : Nat) (s : State) : State :=
  if (s.aq u).recordDue ∧ s.portQuiet portMS then s.aqCommit u else s

/-- A unit's record is due: it is committed once every write that it describes is acknowledged, at once where all are (R26). -/
def State.aqFinish (s : State) (u : Nat) : State :=
  if s.portQuiet portMS then s.aqCommit u else s.setAq u { s.aq u with recordDue := true }

/-- A unit stopped: during post-trigger writing its record is committed at once with stopped; during pre-fill nothing is
committed (R26, R301). -/
def State.aqStop (s : State) (u : Nat) : State :=
  match (s.aq u).st with
  | .writing => (s.setAq u { s.aq u with stopped := decide ((s.aq u).post < s.aqQ u) }).aqFinish u
  | .armed | .rearming => (s.aqRelease u).setAq u { s.aq u with st := .idle }
  | .idle => s

/-- The region of a unit is wholly mapped and writable in its space (R293). -/
def State.aqMapped (s : State) (u : Nat) : State × Bool :=
  let bytes := s.aqS u * (s.aqP u + s.aqQ u) * s.aqUnitBytes u
  let r := s.dvaSpan 34 (s.fget fACQ_CTL_aspace u) (s.aqAddr u 0 0) bytes (bytes / 65536 + 2)
  (r.1, r.2.1.isNone)

/-- The configuration errors of arming (R293). A unit of a powered-down domain cannot arm (assumption 20). -/
def State.aqCfgErr (s : State) (u : Nat) : State × Bool :=
  let r := s.fget fACQ_SRC_sar u
  let sarBad := s.fbit fACQ_SRC_kind u && ((match s.streamUnit r with
      | some v => v != u
      | none => false) || bitAt (s.fget fADC_TRIG_CFG_sar_en) r || (s.sar r).busy)
  if sarBad ∨ s.aqQ u = 0 ∨ (s.fget fACQ_CTL_trig_src u = 5 ∧ s.fget fACQ_CTL_trig_sel u = u) ∨ s.isDown 28 ∨
      (!s.fbit fACQ_SRC_kind u ∧ 48 ≤ s.fget fACQ_SRC_pin u) then (s, true)
  else
    let m := s.aqMapped u
    (m.1, !m.2)

/-- A unit armed; false when its configuration is in error, with cfg_err set and the unit idle (R293). -/
def State.aqArm (s : State) (u : Nat) : State × Bool :=
  match s.aqCfgErr u with
  | (s, true) => (s.fput fACQ_STAT_cfg_err u 1, false)
  | (s, false) => (s.aqBegin u, true)

/-- ACQ_CTL_WRITE: a write to a unit's control is stored, and its arm bit arms an idle unit or stops one (R293, R301). -/
def doAcqCtlWrite (u v : Nat) (s : State) : State :=
  let s := s.wr .ACQ_CTL u 0 (BitVec.ofNat 64 (bits v 17 0))
  if bitAt v 0 then (if (s.aq u).st = .idle then (s.aqArm u).1 else s) else s.aqStop u

/-- ACQ_REARM: with auto_rearm, the unit is armed again after its record (R302), on the SAR that still streams for it; one that
ACQ_SRC no longer names is let go, and the unit takes its new source as arming does (R293). -/
def doAcqRearm (u : Nat) (s : State) : State :=
  if (s.aq u).st = .rearming then
    if !s.fbit fACQ_SRC_kind u then (s.aqRelease u).aqBegin u
    else if s.streamUnit (s.fget fACQ_SRC_sar u) = some u then s.aqBegin u
    else (((s.aqRelease u).setAq u { s.aq u with st := .idle }).aqArm u).1
  else s

/-- ACQ_TRIG_GO: a write of go triggers a unit whose source it is, at the MER0 reading of its arrival (R298). -/
def doAcqTrigGo (u : Nat) (s : State) : State :=
  if s.fget fACQ_CTL_trig_src u = 0 then (s.aqTrigger u 0 (s.odo 0)).1 else s

/-- MS_ACQ_TRIGGER: an acquisition trigger milestone fires; an idle unit's report carries ACQ_IDLE (R298, R300, action 8). -/
def doMsAcqTrigger (id : Nat) (s : State) : State :=
  match s.msFire id 8 with
  | none => s
  | some (s, f) =>
    let u := f.ms.target
    if (s.aq u).st = .idle then s.msDone f .acqIdle
    else if s.fget fACQ_CTL_trig_src u = 2 then ((s.aqTrigger u 2 f.ms.at88).1).msDone f .ok
    else s.msDone f .ok

/-- Units that a sync source triggers: MSYNC_IN edges of their slope (source 3), or Wayline messages of a port (source 4). -/
def State.aqSync (s : State) (src sel : Nat) (falling : Bool) (at88 : Nat) : State :=
  (List.range 4).foldl (fun s u =>
    if s.fget fACQ_CTL_trig_src u = src ∧ (src = 3 → s.fbit fACQ_CTL_slope u = falling) ∧
        (src = 4 → s.fget fACQ_CTL_trig_sel u = sel) then (s.aqTrigger u src at88).1 else s) s

/-- A phase reset moves the grid of the units that record a pin (R294); the first of a capture is indexed. A write of osr starts a new
grid in the same way (R275), and is flagged as one. A grid that gave no sample leaves no slot. -/
def State.aqRegrid (s : State) (n tick : Nat) : State :=
  (List.range 4).foldl (fun s u =>
    let x := s.aq u
    if (x.st = .armed ∨ x.st = .writing) ∧ !s.fbit fACQ_SRC_kind u ∧ s.fget fACQ_SRC_pin u = n then
      s.setAq u { x with grid := ⟨x.j, tick + s.sdR n, s.sdR n⟩ :: x.grid.filter (fun g => decide (g.j < x.j)),
                         regrid := true, regridIndex := some (x.regridIndex.getD x.j) }
    else s) s

/-- The quad of a recorded pin powers down: the capture ends with its record (R300). -/
def State.aqQuadDown (s : State) (quad : Nat) : State :=
  (List.range 4).foldl (fun s u =>
    let x := s.aq u
    if (x.st = .armed ∨ x.st = .writing) ∧ !s.fbit fACQ_SRC_kind u ∧ s.fget fACQ_SRC_pin u / 4 = quad then
      let pre := if x.trig.isSome then x.validPre else min (s.aqP u) x.written
      ((s.setAq u { x with stopped := true, srcLost := true, validPre := pre }).fput fACQ_STAT_src_lost u 1).aqFinish u
    else s) s

/-! ### Commands -/

/-- Bits hi..0 of the i-th word of a configuration. -/
def aqWord (bs : List Byte) (i hi : Nat) : Nat := bits (ofBytes ((bs.drop (8 * i)).take 8)) hi 0

/-- Eight words of configuration written to a unit's registers, its arm bit set and its capture count restarted (R376). -/
def State.aqConfigure (s : State) (u : Nat) (bs : List Byte) : State :=
  let s := s.wr .ACQ_CTL u 0 (BitVec.ofNat 64 (setBits (aqWord bs 0 17) 0 0 1))
  let s := s.wr .ACQ_SRC u 0 (BitVec.ofNat 64 (aqWord bs 1 28))
  let s := s.wr .ACQ_BASE u 0 (BitVec.ofNat 64 (aqWord bs 2 47))
  let s := s.wr .ACQ_PRE u 0 (BitVec.ofNat 64 (aqWord bs 3 26))
  let s := s.wr .ACQ_POST u 0 (BitVec.ofNat 64 (aqWord bs 4 31))
  let s := s.wr .ACQ_NSEG u 0 (BitVec.ofNat 64 (aqWord bs 5 15))
  let s := s.wr .ACQ_LEVEL u 0 (BitVec.ofNat 64 (aqWord bs 6 31))
  let s := s.wr .ACQ_QUEUE u 0 (BitVec.ofNat 64 (aqWord bs 7 13))
  s.setAq u { s.aq u with capture := 0, segs := [] }

/-- ACQ_ARM (R293, R297, R376): the configuration is read and written to the unit's registers, the unit is armed, and the capture
count restarts. -/
def bodyAcqArm : CmdBody := fun k s =>
  let u := u8 k 0
  if 4 ≤ u then fail s .paramInvalid
  else if (s.aq u).st ≠ .idle then fail s .acqConfig
  else match s.payload (u8 k 1) (u64 k 8) 64 with
    | (s, .bad st d) => fail s st d
    | (s, .bytes bs) =>
      match (s.aqConfigure u bs).aqArm u with
      | (s, true) => ok s
      | (s, false) => fail s .acqConfig

/-- ACQ_STOP (R301); an idle unit answers ACQ_IDLE (assumption 20). -/
def bodyAcqStop : CmdBody := fun k s =>
  let u := u8 k 0
  if 4 ≤ u then fail s .paramInvalid
  else if (s.aq u).st = .idle then fail s .acqIdle
  else ok ((s.aqStop u).fput fACQ_CTL_arm u 0)

/-- The codes of stored entries. -/
def codesOf : Nat → List Byte → List Int
  | 0, _ => []
  | n + 1, bs => sext 24 (ofBytes (bs.take 4)) :: codesOf n (bs.drop 4)

/-- Units of a segment's ring read from a position, in order. -/
def State.aqReadUnits (s : State) (u seg pos : Nat) : Nat → State × List Byte × Option (Status × Nat)
  | 0 => (s, [], none)
  | n + 1 =>
    match s.payloadBy s.reckonerPort (s.fget fACQ_CTL_aspace u) (s.aqAddr u seg (pos % (s.aqP u + s.aqQ u))) (s.aqUnitBytes u) with
    | (s, .bad st d) => (s, [], some (st, d))
    | (s, .bytes bs) =>
      let r := State.aqReadUnits s u seg (pos + 1) n
      (r.1, bs ++ r.2.1, r.2.2)

/-- The square root with 16 fraction bits of a variance given as a numerator over a square; its rounding is open (R303;
assumption 15). -/
def State.openRoot (s : State) (num den : Nat) : State × Nat :=
  let root := Nat.sqrt (num / (den * den))
  if root * root * (den * den) = num then (s, root) else (s.fresh.1, root + s.fresh.2.toNat % 2)

/-- The statistics of codes (R303): the mean with 16 fraction bits, and the 40 bytes of count, minimum, maximum, mean and deviation;
a reduced capture has no mean and no deviation. -/
def State.aqStats (s : State) (reduced : Bool) (n : Nat) (codes : List Int) : State × Int × List Byte :=
  let lo := codes.foldl min (codes.headD 0)
  let hi := codes.foldl max (codes.headD 0)
  let sum := codes.sum
  let sumsq := (codes.map (fun c => (c * c).toNat)).sum
  let mean := if reduced then (s, 0) else s.openDiv (65536 * sum) n
  let dev := if reduced then (mean.1, 0) else mean.1.openRoot (2 ^ 32 * (n * sumsq - (sum * sum).toNat)) n
  (dev.1, mean.2, bytesOf 8 n ++ bytesOf 8 (enc 64 lo) ++ bytesOf 8 (enc 64 hi) ++ bytesOf 8 (enc 64 mean.2) ++ bytesOf 8 dev.2)

/-- ACQ_STATS (R303), on a Reckoner: count, minimum, maximum, and for unreduced captures mean and deviation with 16 fraction bits. -/
def bodyAcqStats : CmdBody := fun k s =>
  let u := u8 k 0
  let seg := u16 k 2
  let first := u32 k 8
  let n := u32 k 12
  if 4 ≤ u then fail s .paramInvalid
  else if s.aqS u ≤ seg ∨ n = 0 ∨ s.aqP u + s.aqQ u < first + n then fail s .paramInvalid
  else if (s.aq u).st ≠ .idle ∧ (s.aq u).capture % s.aqS u = seg then fail s .acqOverwritten
  else match s.aqReadUnits u seg (nget 0 seg (s.aq u).segs + first) n with
    | (s, _, some (st, d)) => fail s st d
    | (s, bs, none) =>
      let x := s.aqStats (s.fbit fACQ_SRC_reduce_en u) n (codesOf (bs.length / 4) bs)
      match x.1.storeResultBy s.reckonerPort (u8 k 24) (u64 k 16) x.2.2 with
      | (s, none) => okResult s (enc 64 x.2.1)
      | (s, some (st, d)) => fail s st d

/-! ### The rows of the command table -/

/-- MS_ACQ_TRIGGER (R298). -/
def execMsAcqTrigger (id : Nat) (s : State) : Host.Outcome State Fault Refusal := .next (doMsAcqTrigger id s)

/-- ACQ_RECORD (R301). -/
def execAcqRecord (u : Fin 4) (s : State) : Host.Outcome State Fault Refusal := .next (doAcqRecord u.val s)

/-- ACQ_REARM (R302). -/
def execAcqRearm (u : Fin 4) (s : State) : Host.Outcome State Fault Refusal := .next (doAcqRearm u.val s)

/-- ACQ_ARM (R293). -/
def execAcqArm (k : Packet) (s : State) : Host.Outcome State Fault Refusal := .next (s.runCommand 0x6001 bodyAcqArm k)

/-- ACQ_STOP (R301). -/
def execAcqStop (k : Packet) (s : State) : Host.Outcome State Fault Refusal := .next (s.runCommand 0x6002 bodyAcqStop k)

/-- ACQ_STATS (R303). -/
def execAcqStats (k : Packet) (s : State) : Host.Outcome State Fault Refusal := .next (s.runCommand 0x6003 bodyAcqStats k)

end Sys2Proof.Machine
end

