-- ==== Sys2Proof/Machine/Converters.lean ====
section
/-! DEFINITION. Converters (chapter 11): sigma-delta outputs, SAR conversions, sequences and their result words, the common
trigger, injected conversions, presets. -/

namespace Sys2Proof.Machine

/-- A result word (R279). -/
def resultWord (code : Nat) (valid ovr suspect shifted : Bool) : Nat :=
  code % 2 ^ 24 + b2n valid * 2 ^ 24 + b2n ovr * 2 ^ 25 + b2n suspect * 2 ^ 26 + b2n shifted * 2 ^ 27

/-- Entries of the sigma-delta sequence and of a SAR's sequence (R278). -/
def State.sdLen (s : State) : Nat := min 32 (s.fget fADC_SD_LEN_len)
def State.sarLen (s : State) (r : Nat) : Nat := min 16 (s.fget fADC_SAR_CTL_len r)

/-- The sequences on the common trigger: 0 to 3 = SARs, 4 = sigma-delta; a length of 0 disables one (R278, R280). -/
def State.seqOn (s : State) (k : Nat) : Bool :=
  if k < 4 then bitAt (s.fget fADC_TRIG_CFG_sar_en) k && s.sarLen k != 0 else s.fbit fADC_TRIG_CFG_sd_en && s.sdLen != 0

/-- A sequence is running (R284). -/
def State.seqRuns (s : State) (k : Nat) : Bool := if k < 4 then (s.sar k).seqRunning else s.adc.sdT0.isSome

/-- Some enabled sequence is running (R285). -/
def State.anyRuns (s : State) : Bool := (List.range 5).any (fun k => s.seqOn k && s.seqRuns k)

/-- The 256-byte result element of a sequence whose run has completed (R284). -/
def State.adcElement (s : State) (seq : Nat) : Nat :=
  let ws := if seq < 4 then (s.sar seq).words else s.adc.sdWords
  pack [(0, 3, seq), (16, 4, 10), (20, 12, s.fget fADC_STATUS_run), (32, 32, ws.length), (64, 64, s.fget fADC_RUN_CYC_cycles),
        (128, 24, s.fget fADC_RUN_FRAC_fraction)] + pack (ws.zipIdx.map (fun e => (256 + 32 * e.2, 32, e.1)))

/-- Once every sequence of the run has completed, its result elements wait to be committed (R284). -/
def State.runDone (s : State) : State :=
  if s.adc.due = [] ∨ s.adc.due.any s.seqRuns then s
  else { s with adc := { s.adc with due := [], toPost := s.adc.toPost ++ s.adc.due.map s.adcElement } }

/-- A sequence has written its last word at a tick (R284, R285). -/
def State.seqDone (s : State) (tick : Nat) : State :=
  State.runDone { s with adc := { s.adc with lastDone := max s.adc.lastDone tick } }

/-- A decimator's grid starts at a tick (R271, R275, R281). -/
def State.sdRestart (s : State) (n tick : Nat) : State := (s.setSd n { s.sd n with origin := tick, k := 0 }).aqRegrid n tick

/-- The sigma-delta sequence has written its last word: it completes, and held writes of osr take effect (R275, R284). -/
def State.sdComplete (s : State) (tick : Nat) : State :=
  let s := State.seqDone { s with adc := { s.adc with sdT0 := none } } tick
  (List.range 48).foldl (fun s n => match (s.sd n).newR with
    | some r => ((s.fput fADC_SD_CFG_osr n r).setSd n { s.sd n with newR := none }).sdRestart n s.tickNow
    | none => s) s

/-- Entries of the running sigma-delta sequence that a condition selects get their word. -/
def State.sdWrite (s : State) (p : Nat → Bool) (word tick : Nat) : State :=
  let mine := s.adc.sdLeft.filter (fun e => p (s.fget fADC_SD_SEQ_pin e))
  if s.adc.sdT0.isNone ∨ mine = [] then s
  else
    let s := mine.foldl (fun s e =>
      let s := s.wr .ADC_SD_RES e 0 (BitVec.ofNat 64 word)
      if bitAt word 25 then s.fput fADC_SD_OVR_ovr 0 (setBit (s.fget fADC_SD_OVR_ovr) e true) else s) s
    let s : State := { s with adc := { s.adc with
      sdLeft := s.adc.sdLeft.filter (fun e => !mine.contains e), sdWords := mine.foldl (fun l e => l.set e word) s.adc.sdWords } }
    if s.adc.sdLeft = [] then s.sdComplete tick else s

/-- The tick at which a decimator's present output ends (R272). -/
def State.sdTick (s : State) (n : Nat) : Nat := (s.sd n).origin + ((s.sd n).k + 1) * s.sdR n

/-- The tick of a modulator's last overload, once an output reports how many ticks before its end one stood, be it within an output
that was discarded (R287). -/
def State.sdOverload (s : State) (n : Nat) (overload : Option Nat) : Option Nat :=
  match overload with
  | some d => some (max (s.sdTick n - max 1 d) ((s.sd n).overload.getD 0))
  | none => (s.sd n).overload

/-- A tick lies among the 4 × R ticks before an output's end, which it rests on (R271, R273, R287). -/
def State.sdInWindow (s : State) (n o : Nat) : Bool := decide (s.sdTick n ≤ o + 4 * s.sdR n ∧ o < s.sdTick n)

/-- The output is marked as overranged (R287). -/
def State.sdOvr (s : State) (n : Nat) (code : Int) (overload : Option Nat) : Bool :=
  decide (code < -0x800000 ∨ 0x7FFFFF < code) || (s.sdOverload n overload).any (s.sdInWindow n)

/-- The output is marked as suspect: an overload recovers, or the PMU changed in its window (R273, R289). -/
def State.sdSuspect (s : State) (n : Nat) (overload : Option Nat) : Bool :=
  (match s.sdOverload n overload with
    | some o => decide (s.sdTick n ≤ o + 12 * s.sdR n)
    | none => false) || (s.sd n).pmuLog.any (fun e => s.sdInWindow n e.1)

/-- A code clamped to the 24 bits of a sigma-delta output (R287). -/
def sdCode (code : Int) : Int := clampInt (-0x800000) 0x7FFFFF code

/-- The result word of an output (R279). -/
def State.sdWord (s : State) (n : Nat) (code : Int) (overload : Option Nat) : Nat :=
  resultWord (enc 24 (sdCode code)) true (s.sdOvr n code overload) (s.sdSuspect n overload) false

/-- An output is a sample of every acquisition unit whose source is the pin (R294). -/
def State.sdFeed (s : State) (n : Nat) (code : Int) (marks : Nat) : State :=
  (List.range 4).foldl (fun s u => if !s.fbit fACQ_SRC_kind u ∧ s.fget fACQ_SRC_pin u = n then s.aqSample u code marks else s) s

/-- A pin's PMU mode and range just before a tick (R272). -/
def State.pmuAt (s : State) (n tick : Nat) : Nat × Nat :=
  match ((s.sd n).pmuLog.filter (fun e => decide (tick ≤ e.1))).getLast? with
  | some e => e.2
  | none => s.pmuSet n

/-- A code before clamping: the current against 125 % of its range's full scale in FVMI, the voltage about 0.8 V in every other mode,
in 2^23 steps for the sigma-delta, 2^11 for a SAR (R272, R276). The rounding is open (assumption 95). -/
def State.pinCode (s : State) (a : Analogue) (m : Nat × Nat) (steps : Nat) : State × Int :=
  if m.1 = 1 then s.openDiv (a.current * (4 * steps : Nat)) (5 * pmuFull m.2)
  else s.openDiv ((a.volt - 800000000) * steps) 1800000000

/-- A pin's decimator ends an output window with a code before clamping (R271, R282, R287, R289). -/
def State.sdEnds (s : State) (n : Nat) (code : Int) (overload : Option Nat) : State :=
  let x := s.sd n
  let word := s.sdWord n code overload
  let t := (((s.advanceTick (s.sdTick n)).setSd n { x with k := x.k + 1, overload := s.sdOverload n overload }).wr
    .ADC_SD_LIVE n 0 (BitVec.ofNat 64 word)).sdFeed n (sdCode code)
      (b2n (s.sdOvr n code overload) + 2 * b2n (s.sdSuspect n overload))
  if s.adc.sdT0 = some x.origin ∧ x.k + 1 = 4 then t.sdWrite (fun p => p == n) word (s.sdTick n) else t

/-- SD_OUTPUT: a pin's decimator ends an output window (R271 to R275). The operands are what the pin's current and voltage average to
over it and, if its modulator overloaded since the last output, how many ticks before the end it last did. -/
def doSdOutput (n : Nat) (a : Analogue) (overload : Option Nat) (s : State) : State :=
  if s.isDown (n / 4) then s
  else
    let c := s.pinCode a (s.pmuAt n (s.sdTick n)) 8388608
    c.1.sdEnds n c.2 overload

/-- A change of a pin's PMU mode or range, from the two that stood before, is noted for its outputs in progress (R272, R273). -/
def State.sdPmuChange (s : State) (n : Nat) (was : Nat × Nat) : State :=
  s.setSd n { s.sd n with pmuLog := (s.tickNow, was) :: (s.sd n).pmuLog }

/-- A quad powers down: its outputs stop, and entries that name its pins return valid = 0 (R274). -/
def State.sdQuadDown (s : State) (quad : Nat) : State :=
  let s := (List.range 4).foldl (fun s i => s.wr .ADC_SD_LIVE (4 * quad + i) 0 0) s
  s.sdWrite (fun p => decide (p / 4 = quad)) 0 s.tickNow

/-- A quad has powered up: its decimators' grids start at the next tick, since the time without power has given no outputs (R274;
assumption 96). -/
def State.sdQuadUp (s : State) (quad : Nat) : State :=
  (List.range 4).foldl (fun s i => s.sdRestart (4 * quad + i) s.tickNow) s

/-! ### SARs (R276, R277, R283, R286 to R288) -/

/-- What a SAR does when its conversion has ended at a tick: the injection that waits, the next entry, or nothing (R286). -/
def State.sarNext (s : State) (r tick : Nat) : State :=
  let x := s.sar r
  match x.inj with
  | some (input, byCmd) =>
    s.sarConvert r { x with inj := none, shifted := x.shifted || !x.left.isEmpty } (.inject input byCmd) tick
  | none => match x.left with
    | k :: rest => s.sarConvert r { x with left := rest } (.entry k) tick
    | [] => (s.setSar r { x with conv := none }).seqDone tick

/-- A code lies outside the 12 bits of a SAR (R287). -/
def sarOvr (raw : Int) : Bool := decide (raw < -0x800 ∨ 0x7FF < raw)

/-- The result word of a conversion (R279, R288). -/
def sarWord (raw : Int) (suspect shifted : Bool) : Nat :=
  resultWord (enc 24 (clampInt (-0x800) 0x7FF raw)) true (sarOvr raw) suspect shifted

/-- The code before clamping of what a SAR sampled at a tick: 1 mV a step at a rail-sense input; its pin's current or voltage on the
fast path; 1,024 to within 4 at the check reference, 0 to within 2 at ground and at the spare input (R276). Where in those spans, and
what a fast_pin above 47 gives, is open (assumption 95). -/
def State.sarRaw (s : State) (r : Nat) (a : Analogue) (start : Nat) : State × Int :=
  let x := s.sar r
  let f := s.fresh
  if x.mux < 4 then s.openDiv a.volt 1000000
  else if x.mux = 4 then
    if x.fastPin < 48 then s.pinCode a (s.pmuAt x.fastPin (start + 1)) 2048 else (f.1, sext 12 f.2.toNat)
  else if x.mux = 5 then (f.1, 1020 + (f.2.toNat % 9 : Nat))
  else (f.1, (f.2.toNat % 5 : Nat) - 2)

/-- The conversion in progress completes 24 ticks after its first tick, with a code before clamping (R277, R279, R283, R286 to R288,
R292). A sample that a unit's stream took before the unit was armed again is none of its capture (R302). -/
def State.sarEnds (s : State) (r : Nat) (raw : Int) (job : SarJob) (start : Nat) : State :=
  let x := s.sar r
  let t := start + 24
  let s := (s.advanceTick t).setSar r { x with suspect := sarOvr raw }
  match job with
    | .entry k =>
      let word := sarWord raw x.suspect x.shifted
      let s := s.wr .ADC_SAR_RES r k (BitVec.ofNat 64 word)
      let s := if sarOvr raw then s.fput fADC_SAR_OVR_ovr r (setBit (s.fget fADC_SAR_OVR_ovr r) k true) else s
      let y := { s.sar r with words := (s.sar r).words.set k word }
      if x.left.isEmpty then ((s.setSar r { y with seqRunning := false, shifted := false }).seqDone t).sarNext r t
      else (s.setSar r y).sarNext r t
    | .inject _ byCmd =>
      let s := (s.wr .ADC_SAR_INJ_RES r 0 (BitVec.ofNat 64 (sarWord raw x.suspect false))).fput fADC_SAR_STAT_inj_done r 1
      let s := if sarOvr raw then s.fput fADC_SAR_OVR_inj_ovr r 1 else s
      (if byCmd then s.endWaits (.inject r) .ok none (some (sarWord raw x.suspect false)) else s).sarNext r t
    | .stream u =>
      let s := s.setSar r { s.sar r with conv := some (.stream u, t) }
      if (s.aq u).grid.any (fun g => decide (start < g.tick0) && g.j == 0) then s
      else s.aqSample u (clampInt (-0x800) 0x7FF raw) (b2n (sarOvr raw) + 2 * b2n x.suspect)

/-- SAR_CONVERSION_DONE: the conversion in progress completes, with what stood at its input when the SAR sampled (R276, R277). -/
def doSarConversionDone (r : Nat) (a : Analogue) (s : State) : State :=
  match (s.sar r).conv with
  | none => s
  | some (job, start) =>
    let c := s.sarRaw r a start
    c.1.sarEnds r c.2 job start

/-- An injected conversion requested on a SAR; false when it is ignored, which inj_reject counts (R286, R293). -/
def State.sarInject (s : State) (r input : Nat) (byCmd : Bool) : State × Bool :=
  let x := s.sar r
  if s.isDown 28 ∨ x.inj.isSome ∨ (s.streamUnit r).isSome then (s.bump fADC_SAR_STAT_inj_reject r, false)
  else match x.conv with
    | none => (s.sarConvert r { x with shifted := x.shifted || !x.left.isEmpty } (.inject input byCmd) s.tickNow, true)
    | some _ => (s.setSar r { x with inj := some (input, byCmd) }, true)

/-- SAR_INJECT_REQUEST: a write to a SAR's injection register with go = 1 (R286). -/
def doSarInjectRequest (r input : Nat) (s : State) : State := (s.sarInject r input false).1

/-! ### The common trigger (R280 to R285) -/

/-- A SAR's sequence starts at the trigger's tick, its result words of earlier runs no longer valid (R279). A SAR that streams, or
whose domain is down, completes it at once with every word invalid; the registers of one that streams are not written (R290, R293).
An injection that was to start at this very tick follows entry 0 (R286). -/
def State.sarStart (s : State) (r t0 : Nat) : State :=
  let entries := List.range (s.sarLen r)
  let x := { s.sar r with words := List.replicate (s.sarLen r) 0 }
  if (s.streamUnit r).isSome then s.setSar r x
  else
    let s := (List.range 16).foldl (fun s k => s.wr .ADC_SAR_RES r k 0) s
    let y := { x with seqRunning := true, shifted := false, left := entries }
    if s.isDown 28 then s.setSar r x
    else match x.conv with
    | none => s.sarConvert r { y with left := entries.drop 1 } (.entry 0) t0
    | some (.inject input byCmd, start) =>
      if start = t0 ∧ x.inj.isNone then
        s.sarConvert r { y with inj := some (input, byCmd), left := entries.drop 1 } (.entry 0) t0
      else s.setSar r { y with shifted := true }
    | some _ => s.setSar r y

/-- The common trigger takes effect at a tick: every decimator is phase-reset, the enabled sequences run (R280 to R284). -/
def State.trigEffect (s : State) (t0 : Nat) : State :=
  let s := s.advanceTick t0
  let on := (List.range 5).filter s.seqOn
  let s := (s.tick fADC_STATUS_run).wr .ADC_RUN_CYC 0 0 (BitVec.ofNat 64 (tickReading t0 / fracOne))
  let s := s.wr .ADC_RUN_FRAC 0 0 (BitVec.ofNat 64 (tickReading t0 % fracOne))
  let s := (List.range 48).foldl (fun s n => s.sdRestart n t0) s
  let s := (on.filter (fun k => decide (k < 4))).foldl (fun s r => s.sarStart r t0) s
  let s : State := { s with adc := { s.adc with due := on } }
  if on.contains 4 then
    let s := (List.range 32).foldl (fun s e => s.wr .ADC_SD_RES e 0 0) s
    let s : State := { s with adc := { s.adc with
      sdT0 := some t0, sdLeft := List.range s.sdLen, sdWords := List.replicate s.sdLen 0 } }
    s.sdWrite (fun p => decide (48 ≤ p) || s.isDown (p / 4)) 0 t0
  else s.runDone

/-- The common trigger offered at a tick: taken, held, or ignored and counted (R285). -/
def State.commonTrigger (s : State) (t0 : Nat) : State :=
  if s.anyRuns then
    if s.fbit fADC_TRIG_CFG_single_pending ∧ !s.adc.held then { s with adc := { s.adc with held := true } }
    else s.bump fADC_OVERRUN_overrun_count
  else if s.adc.held then s.bump fADC_OVERRUN_overrun_count
  else s.trigEffect t0

/-- ADC_TRIG_GO: a write of go fires the common trigger when src = 0 (R280). -/
def doAdcTrigGo (s : State) : State := if s.fget fADC_TRIG_CFG_src = 0 then s.commonTrigger s.tickNow else s

/-- MS_CONVERTER_TRIGGER: a converter trigger milestone fires the common trigger at the first tick at or after its target, when
src = 1 (R280, action 9). -/
def doMsConverterTrigger (id : Nat) (s : State) : State :=
  match s.msFire id 9 with
  | none => s
  | some (s, f) =>
    (if s.fget fADC_TRIG_CFG_src = 1 then s.commonTrigger (tickFrom f.at88) else s).msDone f .ok

/-- The MSYNC_IN edge at the converters (R280). -/
def State.adcMsync (s : State) (rising : Bool) : State :=
  if s.fget fADC_TRIG_CFG_src = 2 ∧ s.fbit fADC_TRIG_CFG_msync_pol = !rising then s.commonTrigger s.tickNow else s

/-- HELD_TRIGGER: the held trigger takes effect at the first tick after the last enabled sequence, and any injection, completes
(R285, R286). -/
def doHeldTrigger (s : State) : State :=
  if s.adc.held ∧ !s.anyRuns ∧ (List.range 4).all (fun r => (s.sar r).inj.isNone && ((s.sar r).conv.isNone || (s.streamUnit r).isSome)) then
    State.trigEffect { s with adc := { s.adc with held := false } } (max (s.adc.lastDone + 1) s.tickNow)
  else s

/-- CONVERTER_RESULT_POST: the result elements of completed runs are committed, oldest run first (R284). -/
def doConverterResultPost (s : State) : State :=
  let t : State := { s with adc := { s.adc with toPost := [] } }
  if s.fbit fADC_QUEUE_post_en then s.adc.toPost.foldl (fun s e => s.report (s.fget fADC_QUEUE_queue) 256 e) t else t

/-- ADC_SD_CFG_WRITE: a write of osr takes effect at once, or when the running sigma-delta sequence completes (R275). -/
def doAdcSdCfgWrite (n v : Nat) (s : State) : State :=
  if s.adc.sdT0.isSome then s.setSd n { s.sd n with newR := some (bits v 17 0) }
  else
    (s.fput fADC_SD_CFG_osr n (bits v 17 0)).sdRestart n s.tickNow

/-- MSYNC_IN_EDGE: an edge of MSYNC_IN at an instant (in units of 20 fs) reaches the converters and the acquisition units (R280,
R298). GO origination stands in Machine/Wayline.lean. -/
def State.msyncLocal (s : State) (rising : Bool) : State := (s.aqSync 3 0 (!rising) (s.odo 0)).adcMsync rising

/-! ### Commands -/

/-- The sequences that the common trigger starts, as a preset leaves them (R291). -/
def State.enableSeqs (s : State) (sd sars : Nat) : State := (s.fput fADC_TRIG_CFG_sd_en 0 sd).fput fADC_TRIG_CFG_sar_en 0 sars

/-- Preset 1: the pins in ascending order in the sigma-delta sequence, each with the oversampling ratio (R291). -/
def State.presetPins (s : State) (ps : List Nat) (osr : Nat) : State :=
  let s := (List.range ps.length).foldl (fun s i => s.fput fADC_SD_SEQ_pin i (ps.getD i 0)) s
  ps.foldl (fun s n => doAdcSdCfgWrite n osr s) (s.fput fADC_SD_LEN_len 0 ps.length)

/-- Preset 2: each SAR converts its three supply and reference inputs (R291). -/
def State.presetMonitors (s : State) : State :=
  (List.range 4).foldl (fun s r => (s.wr .ADC_SAR_SEQ r 0 (BitVec.ofNat 64 (r + 5 * 16 + 6 * 256))).fput fADC_SAR_CTL_len r 3) s

/-- Preset 3: each SAR converts its fast pin n times (R291). -/
def State.presetFast (s : State) (n : Nat) (fast : List Nat) : State :=
  (List.range 4).foldl (fun s r =>
    let s := s.wr .ADC_SAR_SEQ r 0 (BitVec.ofNat 64 (pack ((List.range n).map (fun i => (4 * i, 4, 4)))))
    (s.fput fADC_SAR_CTL_len r n).fput fADC_SAR_CTL_fast_pin r (fast.getD r 0)) s

/-- ADC_SEQUENCE (R291, R376). -/
def bodyAdcSequence : CmdBody := fun k s =>
  let preset := u8 k 0
  if (List.range 5).any s.seqRuns then fail s .adcBusy
  else if preset = 1 then
    let ps := pinsOf (u64 k 8)
    if 2 ^ 48 ≤ u64 k 8 ∨ 32 < ps.length then fail s .adcRange
    else ok ((s.presetPins ps (min (u32 k 4) 262143)).enableSeqs 1 0)
  else if preset = 2 then ok (s.presetMonitors.enableSeqs 0 15)
  else if preset = 3 then
    let n := u8 k 1
    let fast := [u8 k 16, u8 k 17, u8 k 18, u8 k 19]
    if n = 0 ∨ 16 < n ∨ fast.any (fun p => decide (48 ≤ p)) then fail s .adcRange
    else ok ((s.presetFast n fast).enableSeqs 0 15)
  else fail s .paramInvalid

/-- ADC_TRIGGER (R280, R376): as a write of go; ADC_BUSY when another source is selected. -/
def bodyAdcTrigger : CmdBody := fun _ s =>
  if s.fget fADC_TRIG_CFG_src ≠ 0 then fail s .adcBusy else ok (s.commonTrigger s.tickNow)

/-- ADC_INJECT (R286, R376): waits for the result word; an injection that would be ignored answers ADC_BUSY (assumption 21). -/
def bodyAdcInject : CmdBody := fun k s =>
  let r := u8 k 0
  if 4 ≤ r ∨ 8 ≤ u8 k 1 then fail s .paramInvalid
  else match s.sarInject r (u8 k 1) true with
    | (s, true) => (s, .wait (.inject r) 0 0 0 0 1)
    | (s, false) => fail s .adcBusy

/-! ### The rows of the command table -/

/-- MS_CONVERTER_TRIGGER (R280). -/
def execMsConverterTrigger (id : Nat) (s : State) : Host.Outcome State Fault Refusal := .next (doMsConverterTrigger id s)

/-- SD_OUTPUT (R271). -/
def execSdOutput (n : PinNo) (at' : Analogue) (overload : Option Nat) (s : State) : Host.Outcome State Fault Refusal :=
  .next (doSdOutput n.val at' overload s)

/-- SAR_CONVERSION_DONE (R277). -/
def execSarConversionDone (a : Fin 4) (at' : Analogue) (s : State) : Host.Outcome State Fault Refusal :=
  .next (doSarConversionDone a.val at' s)

/-- CONVERTER_RESULT_POST (R284). -/
def execConverterResultPost (s : State) : Host.Outcome State Fault Refusal := .next (doConverterResultPost s)

/-- HELD_TRIGGER (R285). -/
def execHeldTrigger (s : State) : Host.Outcome State Fault Refusal := .next (doHeldTrigger s)

/-- ADC_SEQUENCE (R291). -/
def execAdcSequence (k : Packet) (s : State) : Host.Outcome State Fault Refusal := .next (s.runCommand 0x5003 bodyAdcSequence k)

/-- ADC_TRIGGER (R280). -/
def execAdcTrigger (k : Packet) (s : State) : Host.Outcome State Fault Refusal := .next (s.runCommand 0x5004 bodyAdcTrigger k)

/-- ADC_INJECT (R286). -/
def execAdcInject (k : Packet) (s : State) : Host.Outcome State Fault Refusal := .next (s.runCommand 0x5005 bodyAdcInject k)

end Sys2Proof.Machine
end

