-- ==== Sys2Proof/Machine/DdsEngines.lean ====
section
/-! DEFINITION. Synthesised clock pins (chapter 10): the wave, profile lists, hops, advances and dwells, starts and stops, and
the class 0x7 commands. Readings count 2^-24 cycles of the engine's meridian. -/

namespace Sys2Proof.Machine

/-- The fields of a profile entry (R262). -/
def entTword (v : Nat) : Nat := bits v 47 0
def entAmp (v : Nat) : Nat := bits v 59 48
def entOnMs (v : Nat) : Bool := bitAt v 60
def entPoff (v : Nat) : Nat := bits v 95 64
def entDwell (v : Nat) : Nat := bits v 127 96
/-- The bits that an entry holds; the others read 0 (R262, R9). -/
def entMask (v : Nat) : Nat := setBits (bits v 127 0) 63 61 0

/-- An engine's meridian (R256). -/
def State.ddsMer (s : State) (e : Nat) : Nat := s.fget fDDS_ENG_CTL_meridian e
/-- An entry of an engine's list. -/
def State.ddsEntry (s : State) (e p : Nat) : Nat := nget 0 p (s.ddsEng e).list
/-- An entry of an engine's list replaced; an entry at or beyond count raises it (R268). -/
def State.ddsPutEntry (s : State) (e p v : Nat) : State :=
  let s := s.setDds e { s.ddsEng e with list := nset 0 p (entMask v) (s.ddsEng e).list }
  if s.fget fDDS_ENG_LEN_count e ≤ p then s.fput fDDS_ENG_LEN_count e (p + 1) else s

/-- The output phase in 2^-64 of a period at a reading (R258): exact, with no accumulated rounding (R259). -/
def ddsPhase (r0 r entry : Nat) : Nat := (entTword entry * (r - r0) + entPoff entry * 2 ^ 32) % 2 ^ 64

/-- The output is high while the phase lies in the first half (R258). -/
def ddsHighAt (r0 r entry : Nat) : Bool := decide (ddsPhase r0 r entry < 2 ^ 63)

/-- The output of an engine now: low unless it runs (R258, R266). -/
def State.ddsHigh (s : State) (e : Nat) : Bool :=
  let x := s.ddsEng e
  x.st == .running && ddsHighAt x.r0 (s.odo (s.ddsMer e)) (s.ddsEntry e x.entry)

/-- The low and high codes of the wave under an entry (R260). -/
def ddsLow (mid entry : Nat) : Int := (mid : Int) - (entAmp entry / 2 : Nat)
def ddsTop (mid entry : Nat) : Int := ddsLow mid entry + entAmp entry

/-- An entry meets R260. -/
def levelsOk (mid entry : Nat) : Bool := decide (0 ≤ ddsLow mid entry ∧ ddsTop mid entry ≤ 4095 ∧ 216 ≤ entAmp entry)

/-- An entry gives at most 12 GHz at a meridian's frequency, or at fmax on a tracked one (R265). -/
def Meridian.wordOk (m : Meridian) (entry : Nat) : Bool :=
  if m.cfg.kind = .tracked then decide (entTword entry * m.cfg.fmaxKhz ≤ 12000000 * 2 ^ 40)
  else decide (entTword entry * m.maxWord ≤ 120 * 2 ^ 72)

/-- An entry gives at most 12 GHz, and has a dwell if it needs one (R265). -/
def Meridian.entryOk (m : Meridian) (entry : Nat) : Bool := m.wordOk entry && (entOnMs entry || decide (1 ≤ entDwell entry))

/-- The pins that show an engine now. -/
def State.ddsPins (s : State) (e : Nat) : List Nat :=
  (List.range 48).filter (fun n => (s.pin n).drive == .dds && s.fget fDDS_PIN_SEL_engine n == e)

/-- The time, in model units, that a span of 2^-24 cycles takes at the meridian's present rate; 0 stands for no rate. -/
def Meridian.spanTime (m : Meridian) (span : Nat) : Nat := if m.rate = 0 then 0 else span * 256 * 30000000 * m.rateDiv / m.rate

/-- The level just before a reading under an entry (R261): a static entry has its level throughout. -/
def ddsLevelBefore (r0 r entry : Nat) : Bool :=
  if entTword entry = 0 then ddsHighAt r0 r entry else decide ((ddsPhase r0 r entry + 2 ^ 64 - 1) % 2 ^ 64 < 2 ^ 63)

/-- The first reading beyond one at which the wave of an entry changes level, in 2^-24 cycles rounded up; none for a static one (R258). -/
def ddsNextChange (r0 r entry : Nat) : Option Nat :=
  if entTword entry = 0 then none else some (r + ceilDiv (2 ^ 63 - ddsPhase r0 r entry % 2 ^ 63) (entTword entry))

/-- The instant of an engine's last transition at or before an instant; none while its wave had none since its entry took force
(R259). -/
def State.waveBefore (s : State) (e t : Nat) : Option Nat :=
  let x := s.ddsEng e
  let v := s.ddsEntry e x.entry
  let m := s.mer (s.ddsMer e)
  let h := m.reading t
  if x.st ≠ .running ∨ entTword v = 0 ∨ m.rate = 0 then none
  else some (t - m.spanTime (min (ddsPhase x.r0 h v % 2 ^ 63 / entTword v) (h - x.since)))

/-- The instant of an engine's first transition after an instant; none while its wave has none (R259). -/
def State.waveAfter (s : State) (e t : Nat) : Option Nat :=
  let x := s.ddsEng e
  let m := s.mer (s.ddsMer e)
  if x.st ≠ .running ∨ m.rate = 0 then none
  else (ddsNextChange x.r0 (m.reading t) (s.ddsEntry e x.entry)).map (fun r => t + m.spanTime (r - m.reading t))

/-- The level of an engine's output at an instant (R258). -/
def State.waveLevel (s : State) (e t : Nat) : Bool :=
  let x := s.ddsEng e
  ddsHighAt x.r0 ((s.mer (s.ddsMer e)).reading t) (s.ddsEntry e x.entry)

/-- Transitions of a wave in order, with the level after each, from the last one realised: one that comes less than 40 ps after it is
realised 40 ps after it, and the first that need not be moved ends the run (R102, R259). At most fuel of them. -/
def moveWave (prev : Nat) (next : Nat → Option Nat) (t : Nat) (level : Bool) : Nat → List (Nat × Nat × Bool)
  | 0 => []
  | fuel + 1 =>
    if prev + 40 * unitsPerPs ≤ t then []
    else
      let real := prev + 40 * unitsPerPs
      (t, real, level) :: match next t with
        | none => []
        | some u => moveWave real next u (!level) fuel

/-- The last transition that a pin has realised at or before an instant: a vector's, a moved one of its wave, or a natural one of its
wave, whose transitions the pin's deskew delays (R102, R106, R259). -/
def State.lastRealised (s : State) (n e t : Nat) : Nat :=
  let wave := (s.waveBefore e (shiftTime t (-(s.drvDeskew n)))).map (fun u => shiftTime u (s.drvDeskew n))
  let moved := ((s.pin n).waveMoved.map (fun m => m.2.1)).foldl max 0
  max (max ((s.pin n).lastTrans.getD 0) moved) (wave.getD 0)

/-- A wave whose level changes at reading h, to the level and the transitions of the entry given (none once it is stopped): at each pin
that shows it, the transition at h and those after it are moved where R102 moves them, and each counts (R259, R261, R266). -/
def State.ddsCrowd (s : State) (e h : Nat) (was now : Bool) (entry : Option Nat) : State :=
  let m := s.mer (s.ddsMer e)
  match m.edgeTime h with
  | none => s
  | some t0 =>
    let r0 := (s.ddsEng e).r0
    (s.ddsPins e).foldl (fun s n =>
      let d := s.drvDeskew n
      let next (t : Nat) : Option Nat := match entry with
        | none => none
        | some v => (ddsNextChange r0 (m.reading (shiftTime t (-d))) v).map (fun r => t + m.spanTime (r - m.reading (shiftTime t (-d))))
      let t := shiftTime t0 d
      let prev := s.lastRealised n e t
      let moved := if was ≠ now then moveWave prev next t now 64
        else match next t with
          | some u => moveWave prev next u (!now) 64
          | none => []
      (s.setPin n { s.pin n with waveMoved := moved }).crowded n moved.length) s

/-- An event on an engine that is ignored (R264). -/
def State.ddsIgnore (s : State) (e : Nat) : State := s.bump fDDS_ENG_CNT_bad_hop e

/-- An engine takes an entry named at a reading: it runs, or a milestone stopped it at that very reading (R55, R264). -/
def Dds.takes (x : Dds) (h : Nat) : Bool := x.st == .running || (x.st == .idle && x.stopAt == some h)

/-- The level of an engine's output before a reading: of the entry in force until then, or low where it starts there (R261). -/
def State.ddsWas (s : State) (e h : Nat) : Bool :=
  let x := s.ddsEng e
  if x.r0 = h then false else ddsLevelBefore x.r0 h (s.ddsEntry e (if x.since = h then x.before else x.entry))

/-- An entry takes force at a reading (R261, R264). -/
def State.ddsForce (s : State) (e entry h : Nat) (byRoute : Bool) : State :=
  let x := s.ddsEng e
  if x.takes h = false ∨ s.fget fDDS_ENG_LEN_count e ≤ entry then s.ddsIgnore e
  else if x.since = h ∧ x.byRoute ∧ !byRoute then s
  else
    let v := s.ddsEntry e entry
    let s := s.ddsCrowd e h (s.ddsWas e h) (ddsHighAt x.r0 h v) (some v)
    s.setDds e { s.ddsEng e with st := .running, entry := entry, since := h, before := if x.since = h then x.before else x.entry,
                                 byRoute := byRoute, stopAt := none }

/-- The entry after one in the list, or none when the last stays in force (R263). -/
def State.ddsNext (s : State) (e entry : Nat) : Option Nat :=
  if entry + 1 < s.fget fDDS_ENG_LEN_count e then some (entry + 1)
  else if s.fbit fDDS_ENG_CTL_end_mode e then some (s.fget fDDS_ENG_CTL_loop_start e)
  else none

/-- A list advance at a reading (R263, R264): a dwell or a milestone action that ended at the same reading is replaced. -/
def State.ddsAdvance (s : State) (e h : Nat) : State :=
  let x := s.ddsEng e
  if x.takes h = false then s.ddsIgnore e
  else match s.ddsNext e (if x.since = h then x.before else x.entry) with
    | some p => s.ddsForce e p h false
    | none => s

/-- DWELL_END: an entry's dwell expires and the engine advances to the next entry (R263). -/
def doDwellEnd (e : Nat) (s : State) : State :=
  let x := s.ddsEng e
  let v := s.ddsEntry e x.entry
  if x.st ≠ .running ∨ entOnMs v then s
  else
    let h := x.since + entDwell v * fracOne
    match s.ddsNext e x.entry, (s.mer (s.ddsMer e)).instantOf h with
    | some p, some t => (s.advance t).ddsForce e p h false
    | _, _ => s

/-- A route or microword hop at a reading of the engine's meridian (R264). -/
def State.ddsHop (s : State) (e entry h : Nat) : State := s.ddsForce e entry h true

/-- An engine goes idle at a reading: its output goes low, with a transition there if it was high (R264, R266). -/
def State.ddsIdle (s : State) (e h : Nat) (stopAt : Option Nat) : State :=
  let s := s.ddsCrowd e h (s.ddsWas e h) false none
  s.setDds e { s.ddsEng e with st := .idle, stopAt := stopAt }

/-- An engine stops at a reading (R266). A route hop at the same reading stands (R264). -/
def State.ddsStop (s : State) (e h : Nat) : State :=
  let x := s.ddsEng e
  if x.st ≠ .running then s.ddsIgnore e
  else if x.since = h ∧ x.byRoute then s
  else s.ddsIdle e h (some h)

/-- The engines of a meridian that is disabled stop (R264). -/
def State.ddsMerOff (s : State) (m : Nat) : State :=
  (List.range 8).foldl (fun s e =>
    if (s.ddsEng e).st = .running ∧ s.ddsMer e = m then
      (s.ddsIdle e ((s.mer m).reading s.now) none).fput fDDS_ENG_STAT_mer_off e 1
    else s) s

/-! ### The wave at a pin (R255, R259, R260) -/

/-- The wave at a pin now: the level of its engine's output, delayed by the pin's deskew, but for transitions that R102 moves; and the
entry in force there (R255, R258, R259). None while the engine does not run (R257). -/
def State.waveAt (s : State) (n : Nat) : Option (Bool × Nat) :=
  let e := s.fget fDDS_PIN_SEL_engine n
  let x := s.ddsEng e
  if x.st ≠ .running ∨ s.isDown 29 then none
  else
    let r := (s.mer (s.ddsMer e)).reading (shiftTime s.now (-(s.drvDeskew n)))
    let v := s.ddsEntry e (if r < x.since then x.before else x.entry)
    let level := match (s.pin n).waveMoved.find? (fun m => decide (m.1 ≤ s.now ∧ s.now < m.2.1)) with
      | some m => !m.2.2
      | none => decide (x.r0 ≤ r) && ddsHighAt x.r0 r v
    some (level, v)

/-- The driver code that a pin's wave gives: the high or the low level of the entry in force, or VIL while the engine does not run
(R257, R260). -/
def State.waveCode (s : State) (n : Nat) : Nat :=
  match s.waveAt n with
  | none => s.fget fPIN_DRV_LVL_vil n
  | some (level, v) =>
    let mid := s.fget fDDS_ENG_MID_mid (s.fget fDDS_PIN_SEL_engine n)
    (if level then ddsTop mid v else ddsLow mid v).toNat

/-- What the device connects to a pin now (R63, R65, R71). -/
def State.pinSource (s : State) (n : Nat) : PinSource :=
  if s.switchesClosed n then s.pmuOutput n
  else match s.pinDrive n with
    | .low => .level (s.dacVolt n 0 (s.fget fPIN_DRV_LVL_vil n))
    | .high => .level (s.dacVolt n 0 (s.fget fPIN_DRV_LVL_vih n))
    | .dds => .level (s.dacVolt n 0 (s.waveCode n))
    | .off => if s.pinTerm n then .level (s.dacVolt n 1 (s.fget fPIN_VTT_vtt n)) else .nothing

/-! ### Milestones -/

/-- MS_DDS_HOP (R264, action 2). -/
def doMsDdsHop (id : Nat) (s : State) : State :=
  match s.msFire id 2 with
  | none => s
  | some (s, f) => (s.ddsForce f.ms.target f.ms.arg (s.readingAt (s.ddsMer f.ms.target) f) false).msDone f .ok

/-- MS_DDS_ADVANCE (R263, action 3). -/
def doMsDdsAdvance (id : Nat) (s : State) : State :=
  match s.msFire id 3 with
  | none => s
  | some (s, f) => (s.ddsAdvance f.ms.target (s.readingAt (s.ddsMer f.ms.target) f)).msDone f .ok

/-- MS_DDS_START (R265, action 4): the armed engine runs from r0 with entry first in force, unless its meridian stands. -/
def doMsDdsStart (id : Nat) (s : State) : State :=
  match s.msFire id 4 with
  | none => s
  | some (s, f) =>
    let e := f.ms.target
    let x := s.ddsEng e
    if x.st ≠ .armed then s.msDone f .ok
    else if (s.mer (s.ddsMer e)).st ≠ .running then (s.setDds e { x with st := .idle }).msDone f .meridianUnlocked
    else
      let r0 := s.readingAt (s.ddsMer e) f
      let first := s.fget fDDS_ENG_CTL_first e
      let s := s.setDds e { x with st := .running, entry := first, since := r0, before := first, byRoute := false, r0 := r0,
                                   stopAt := none }
      let v := s.ddsEntry e first
      let s := s.ddsCrowd e r0 false (ddsHighAt r0 r0 v) (some v)
      ((s.fput fDDS_ENG_EPOCH_cycles e (r0 / fracOne)).fput fDDS_ENG_EPOCH_FRAC_fraction e (r0 % fracOne)).msDone f .ok

/-- MS_DDS_STOP (R266, action 5). -/
def doMsDdsStop (id : Nat) (s : State) : State :=
  match s.msFire id 5 with
  | none => s
  | some (s, f) => (s.ddsStop f.ms.target (s.readingAt (s.ddsMer f.ms.target) f)).msDone f .ok

/-! ### The list aperture (R267, R268) -/

/-- DDS_LIST_WRITE: a 64-bit write to the low half (staged) or the high half (commits) of entry p of the engine that the
aperture shows (R267, R268). -/
def doDdsListWrite (p : Nat) (high : Bool) (v : Nat) (s : State) : State :=
  let e := s.fget fDDS_CTL_aper_eng
  let busy := (s.ddsEng e).st != .idle
  let s := if busy then s.fput fDDS_ENG_STAT_write_drop e 1 else s
  if s.ddsInLeg e then s.rtWriteDrop
  else if busy then s
  else if !high then { s with dds := { s.dds with stage := some (e, p, v % 2 ^ 64) } }
  else
    let low := match s.dds.stage with
      | some (e', p', w) => if e' = e ∧ p' = p then w else s.ddsEntry e p % 2 ^ 64
      | none => s.ddsEntry e p % 2 ^ 64
    let s := { s with dds := { s.dds with stage := none } }
    s.ddsPutEntry e p (low + v % 2 ^ 64 * 2 ^ 64)

/-! ### Commands -/

/-- The checks of R265 in their order, for a start of an engine on a meridian from an entry. -/
def State.ddsStartCheck (s : State) (e m first : Nat) : Status :=
  let n := s.fget fDDS_ENG_LEN_count e
  let entries := (List.range n).map (s.ddsEntry e)
  if (s.ddsEng e).st ≠ .idle then .ddsBusy
  else if n = 0 ∨ n ≤ first ∨ n ≤ s.fget fDDS_ENG_CTL_loop_start e then .ddsRange
  else if entries.any (fun v => !(s.mer m).entryOk v) then .ddsRange
  else if entries.any (fun v => !levelsOk (s.fget fDDS_ENG_MID_mid e) v) then .levelRange
  else .ok

/-- A list of 16-byte entries in a payload. -/
def entriesOf : Nat → List Byte → List Nat
  | 0, _ => []
  | n + 1, bs => ofBytes (bs.take 16) :: entriesOf n (bs.drop 16)

/-- Entries stored from a position on. -/
def State.ddsStore (s : State) (e p : Nat) : List Nat → State
  | [] => s
  | v :: rest => State.ddsStore (s.setDds e { s.ddsEng e with list := nset 0 p (entMask v) (s.ddsEng e).list }) e (p + 1) rest

/-- DDS_LOAD (R267, R376): count becomes first + count, the list as loaded (assumption 18). -/
def bodyDdsLoad : CmdBody := fun k s =>
  let e := u8 k 0
  let first := u16 k 2
  let n := u16 k 4
  if 8 ≤ e ∨ 4096 < first + n ∨ 4096 ≤ u16 k 16 ∨ 2 ≤ u8 k 18 ∨ 4096 ≤ u16 k 20 then fail s .paramInvalid
  else if (s.ddsEng e).st ≠ .idle ∨ s.ddsInLeg e ∨ s.isDown 29 then fail s .ddsBusy
  else match s.payload (u8 k 1) (u64 k 8) (16 * n) with
    | (s, .bad st d) => fail s st d
    | (s, .bytes bs) =>
      let s := (s.ddsStore e first (entriesOf n bs)).fput fDDS_ENG_LEN_count e (first + n)
      let s := ((s.fput fDDS_ENG_MID_mid e (u16 k 16)).fput fDDS_ENG_CTL_end_mode e (u8 k 18)).fput fDDS_ENG_CTL_loop_start e (u16 k 20)
      (s, .done .ok 0 0 false false n)

/-- DDS_START (R265, R376): the meridian and the first entry go to DDS_ENG_CTL, and the start milestone is committed; a refused
start leaves them as they were. -/
def bodyDdsStart : CmdBody := fun k s =>
  let e := u8 k 0
  let m := u8 k 1
  let first := u16 k 2
  let cfg := fun (s : State) => (s.fput fDDS_ENG_CTL_meridian e m).fput fDDS_ENG_CTL_first e first
  if 8 ≤ e ∨ 8 ≤ m ∨ 4096 ≤ first ∨ 2 ^ 24 ≤ u32 k 16 then fail s .paramInvalid
  else match s.ddsStartCheck e m first with
    | .ok =>
      match s.msCommit m 4 e 0 0 (u64 k 8 * fracOne + u32 k 16) 0 0 0 (jobOf k) with
      | (s, .error st) => fail s st
      | (s, .ok (id, _)) => okResult (((cfg s).setDds e { s.ddsEng e with st := .armed })) id
    | st => fail s st

/-- DDS_STOP (R266, R376): completes when the stop has taken place. -/
def bodyDdsStop : CmdBody := fun k s =>
  let e := u8 k 0
  if 8 ≤ e ∨ 2 ^ 24 ≤ u32 k 16 then fail s .paramInvalid
  else match s.msCommit (s.ddsMer e) 5 e 0 0 (u64 k 8 * fracOne + u32 k 16) 0 0 0 (jobOf k) with
    | (s, .error st) => fail s st
    | (s, .ok (id, _)) => (s, .wait (.milestone id) 0 0 0 0 1)

/-- DDS_PIN (R255, R501). -/
def bodyDdsPin : CmdBody := fun k s =>
  if 2 ^ 48 ≤ u64 k 0 ∨ 8 ≤ u8 k 8 then fail s .paramInvalid
  else if (pinsOf (u64 k 0)).any s.pinInLeg then fail s .pinBusy
  else ok ((pinsOf (u64 k 0)).foldl (fun s n => s.fput fDDS_PIN_SEL_engine n (u8 k 8)) s)

/-! ### The rows of the command table -/

/-- MS_DDS_HOP (R264). -/
def execMsDdsHop (id : Nat) (s : State) : Host.Outcome State Fault Refusal := .next (doMsDdsHop id s)

/-- MS_DDS_ADVANCE (R263). -/
def execMsDdsAdvance (id : Nat) (s : State) : Host.Outcome State Fault Refusal := .next (doMsDdsAdvance id s)

/-- MS_DDS_START (R265). -/
def execMsDdsStart (id : Nat) (s : State) : Host.Outcome State Fault Refusal := .next (doMsDdsStart id s)

/-- MS_DDS_STOP (R266). -/
def execMsDdsStop (id : Nat) (s : State) : Host.Outcome State Fault Refusal := .next (doMsDdsStop id s)

/-- DWELL_END (R263). -/
def execDwellEnd (e : Fin 8) (s : State) : Host.Outcome State Fault Refusal := .next (doDwellEnd e.val s)

/-- DDS_LOAD (R267). -/
def execDdsLoad (k : Packet) (s : State) : Host.Outcome State Fault Refusal := .next (s.runCommand 0x7001 bodyDdsLoad k)

/-- DDS_START (R265). -/
def execDdsStart (k : Packet) (s : State) : Host.Outcome State Fault Refusal := .next (s.runCommand 0x7002 bodyDdsStart k)

/-- DDS_STOP (R266). -/
def execDdsStop (k : Packet) (s : State) : Host.Outcome State Fault Refusal := .next (s.runCommand 0x7003 bodyDdsStop k)

/-- DDS_PIN (R255). -/
def execDdsPin (k : Packet) (s : State) : Host.Outcome State Fault Refusal := .next (s.runCommand 0x7004 bodyDdsPin k)

end Sys2Proof.Machine
end

