-- ==== Sys2Proof/Machine/PilotBase.lean ====
section
/-! DEFINITION. What a Pilot's work rests on: the fields of a route's header and tables (R115, R128, R131), reads through Chart,
the control store (R151, R168), and the issue of one vector: resolution through the Legend, validation, and the pins' queues
(R28, R98, R118 to R125, R219). -/

namespace Sys2Proof.Machine

/-! ### The route header -/

/-- A field of a route header: byte offset and size (R115). -/
def hdrField (h off n : Nat) : Nat := bits h (8 * (off + n) - 1) (8 * off)
def hPins (h : Nat) : Nat := hdrField h 0x8 1
def hRowBytes (h : Nat) : Nat := hdrField h 0x9 1
def hFlags (h : Nat) : Nat := hdrField h 0xA 2
def hInstrOff (h : Nat) : Nat := hdrField h 0x18 8
def hInstrWords (h : Nat) : Nat := hdrField h 0x20 8
def hVecOff (h : Nat) : Nat := hdrField h 0x28 8
def hVecRows (h : Nat) : Nat := hdrField h 0x30 8
def hScanOff (h : Nat) : Nat := hdrField h 0x38 8
def hScanBytes (h : Nat) : Nat := hdrField h 0x40 8
def hBranchOff (h : Nat) : Nat := hdrField h 0x48 8
def hBranches (h : Nat) : Nat := hdrField h 0x50 4
def hLegs (h : Nat) : Nat := hdrField h 0x54 4
def hLegOff (h : Nat) : Nat := hdrField h 0x58 8
def hRowtabOff (h : Nat) : Nat := hdrField h 0x60 8
def hRowtabRows (h : Nat) : Nat := hdrField h 0x68 4
def hGroup (h g : Nat) : Nat := hdrField h (0xB0 + 8 * g) 8
def hScanGroup (h k : Nat) : Nat := hdrField h (0xF0 + 8 * k) 8

/-! ### The leg entry (R131) -/

def legD (e : Nat) : Nat := bits e 31 0
def legStallable (e : Nat) : Bool := bitAt e 32
def legExpiryFault (e : Nat) : Bool := bitAt e 33
def legMode (e : Nat) : Nat := bits e 34 34
def legSlip (e : Nat) : Bool := bitAt e 35
def legSrc (e : Nat) : Nat := bits e 38 36
def legSel (e : Nat) : Nat := bits e 44 39
def legFalling (e : Nat) : Bool := bitAt e 45
def legRel (e : Nat) : Nat := bits e 127 64
def legW (e : Nat) : Nat := bits e 140 128
def legO (e : Nat) : Nat := bits e 159 144
def legPadRow (e : Nat) : Nat := bits e 167 160
def legHpad (e : Nat) : Nat := bits e 191 176

/-- The leg's period in 2^-24 cycles. -/
def legD88 (e : Nat) : Nat := legD e * fracOne

/-! ### Reads through Chart -/

/-- A read by a Pilot of its job's address space through the cluster's read port (R182, R340). -/
def State.pilotRead (s : State) (p dva n : Nat) : State × Access' :=
  s.dvaRead p (portCR (p / 4)) (s.pjob p).aspace dva n

/-- A branch-table entry of a Pilot's route (R128). -/
def State.branchEntry (s : State) (p b : Nat) : State × Access' :=
  s.pilotRead p ((s.pjob p).route + hBranchOff (s.pilot p).hdr + 32 * b) 32

/-- A leg-table entry of a Pilot's route (R131). -/
def State.legEntry (s : State) (p l : Nat) : State × Access' :=
  s.pilotRead p ((s.pjob p).route + hLegOff (s.pilot p).hdr + 32 * l) 32

/-- The stream descriptor's fields (R187); the job's descriptor holds its address. -/
def strBase (d : Nat) : Nat := bits d 47 0
def strPages (d : Nat) : Nat := bits d 95 64
def strFillQ (d : Nat) : Nat := bits d 109 96
def strRelQ (d : Nat) : Nat := bits d 125 112
def strGuard (d : Nat) : Nat := bits d 159 128

/-- The job runs from a stream region (R187). -/
def Job.streams (j : Job) : Bool := j.stream != 0

/-- The DVA of the vector-stream byte at an offset: in the image, or in the ring (R118, R187). -/
def State.vecDva (s : State) (p x : Nat) : Nat :=
  if (s.pjob p).streams then
    let d := (s.pilot p).strDesc
    strBase d + x % (strPages d * 65536)
  else (s.pjob p).route + hVecOff (s.pilot p).hdr + x

/-- Bytes of the vector stream from an offset are resident: in the window of the last fill element taken (R189). -/
def State.resident (s : State) (p x n : Nat) : Bool :=
  !(s.pjob p).streams || (decide (s.fget fPLT_STRM_LO_lo p ≤ x ∧ x + n ≤ s.fget fPLT_STRM_HI_hi p))

/-! ### The vendor opcodes (R135, R136) -/

/-- What R136 and R135 lay down for a vendor opcode: the operand bits in use, and whether it runs inside a leg and between legs. -/
structure OpInfo where
  op : Nat
  mask : Nat
  inLeg : Bool
  between : Bool
  deriving DecidableEq, Repr

/-- The bits [hi:lo] as a mask. -/
def maskOf (hi lo : Nat) : Nat := (2 ^ (hi + 1 - lo) - 1) * 2 ^ lo

def opTable0 : List OpInfo := [
  ⟨0x00, 0, true, true⟩, ⟨0x01, maskOf 31 0, true, false⟩, ⟨0x02, maskOf 31 0, true, false⟩, ⟨0x03, maskOf 31 0, true, false⟩,
  ⟨0x10, maskOf 50 32 + maskOf 31 0, true, false⟩, ⟨0x11, maskOf 50 48, true, false⟩, ⟨0x20, maskOf 47 32, true, true⟩,
  ⟨0x21, maskOf 47 32, true, false⟩, ⟨0x22, 0, true, false⟩, ⟨0x23, 0, true, false⟩, ⟨0x24, maskOf 50 32, true, false⟩,
  ⟨0x25, maskOf 50 32, true, false⟩, ⟨0x26, maskOf 50 48, true, true⟩, ⟨0x27, maskOf 50 48, true, false⟩]
def opTable1 : List OpInfo := [
  ⟨0x28, maskOf 50 0, true, false⟩, ⟨0x29, maskOf 50 48 + maskOf 31 0, true, true⟩, ⟨0x2A, maskOf 50 48 + maskOf 31 0, true, true⟩,
  ⟨0x2B, maskOf 50 32, true, true⟩, ⟨0x30, maskOf 48 0, true, false⟩, ⟨0x34, maskOf 51 48 + maskOf 15 0, true, false⟩,
  ⟨0x38, 1, true, true⟩, ⟨0x3A, maskOf 10 0, true, true⟩, ⟨0x40, maskOf 7 0, true, false⟩, ⟨0x41, maskOf 11 0, false, true⟩,
  ⟨0x42, 1, true, false⟩, ⟨0x50, maskOf 50 48 + 3, true, false⟩, ⟨0x51, 0, true, false⟩, ⟨0x60, maskOf 53 0, true, false⟩]
def opTable2 : List OpInfo := [
  ⟨0x61, maskOf 52 0, true, false⟩, ⟨0x70, maskOf 50 48 + maskOf 11 0, true, false⟩, ⟨0x80, maskOf 50 0, true, true⟩,
  ⟨0x81, maskOf 50 0, true, true⟩, ⟨0x82, maskOf 52 52 + maskOf 50 0, true, false⟩, ⟨0x90, maskOf 49 48 + maskOf 31 0, true, false⟩]

/-- The row of an opcode; none is undefined (R136). -/
def opInfo (op : Nat) : Option OpInfo :=
  match opTable0.find? (fun o => o.op == op) with
  | some o => some o
  | none => match opTable1.find? (fun o => o.op == op) with
    | some o => some o
    | none => opTable2.find? (fun o => o.op == op)

/-! ### The control store (R151, R168) -/

/-- The cluster's store. -/
def State.cluster (s : State) (c : Nat) : Cluster := nget {} c s.clusters
/-- The cluster's store replaced. -/
def State.setCluster (s : State) (c : Nat) (x : Cluster) : State := { s with clusters := nset {} c x s.clusters }

/-- The key of a dispatch entry among a cluster's words. -/
def dispKey (op : Nat) : Nat := 16384 + op

/-- A word of the user region, or a user dispatch entry; the others are the vendor image's (R151). -/
def isUserKey (k : Nat) : Bool := decide ((0x2000 ≤ k ∧ k < 0x4000) ∨ dispKey 0xC0 ≤ k)

/-- A vendor opcode whose routine is one word: those that R136 calls folded must be (R166), and those that issue rows or pads do not
close their stride (R127; assumption 67). -/
def vendorFolds (op : Nat) : Bool := !([0x24, 0x25, 0x27, 0x28, 0x30, 0x41, 0x42, 0x82].contains op)

/-- A vendor dispatch entry (R151, R167): its address lies in the vendor region and is the vendor image's, as is `fold` where the spec
does not settle it; the other bits are what R135, R136 and R143 lay down for the opcode. -/
def vendorEntry (op : Nat) : Nat :=
  let v := (Config.vendorStore (dispKey op)).toNat
  match opInfo op with
  | none => 0
  | some o => pack [(0, 13, v), (14, 1, 1), (15, 1, if vendorFolds op then 1 else bits v 15 15), (16, 1, b2n o.inLeg), (17, 1, b2n o.between),
      (18, 1, b2n (op == 0x27 || op == 0x41 || op == 0x42)), (19, 1, b2n (op == 0x24 || op == 0x25 || op == 0x28 || op == 0x82)),
      (20, 1, b2n (op == 0x27))]

/-- A word of the vendor region, or a vendor dispatch entry. -/
def vendorWord (k : Nat) : Nat := if 16384 ≤ k then vendorEntry (k - 16384) else (Config.vendorStore k).toNat

/-- A stored word or dispatch entry; the vendor region is empty until Binnacle has written it (R153, R452). -/
def State.csWord (s : State) (c k : Nat) : Nat :=
  if isUserKey k ∨ (s.cluster c).image.isSome then nget 0 k (s.cluster c).words else if (s.cluster c).vendor then vendorWord k else 0

/-- A dispatch entry is valid: its bit, and for a vendor opcode of an image that the flash does not show, R136's table (R167). -/
def State.entryValid (s : State) (c op : Nat) : Bool :=
  if op < 0xC0 ∧ (s.cluster c).image.isNone then (s.cluster c).vendor && (opInfo op).isSome else bitAt (s.csWord c (dispKey op)) 14

/-- The routine of a vendor opcode is one word (R166): R136 settles it, or the entry does. -/
def State.folds (s : State) (c op : Nat) : Bool := vendorFolds op || bitAt (s.csWord c (dispKey op)) 15

/-- The block that a reload rewrites: 32 words, or a dispatch section (R169). -/
def csBlock (k : Nat) : Nat := if dispKey 0xC0 ≤ k then 1025 else if 16384 ≤ k then 1024 else k / 32

/-- An uncorrectable word or entry found: recorded, counted, and its block's reload begins (R169). -/
def State.csUe (s : State) (c k : Nat) : State :=
  let s := ((s.bump fPLT_CS_ECC_ue_count c).countFix 3).fput fPLT_CS_STAT_reloading c 1
  let s := s.wr .PLT_CS_UE_LOC c 0 (BitVec.ofNat 64 (if 16384 ≤ k then k - 16384 + 2 ^ 14 else k))
  let x := s.cluster c
  let s := s.setCluster c { x with reload := if x.reload.any (fun r => csBlock r == csBlock k) then x.reload else x.reload ++ [k] }
  s.logWrite 0x07 (22 + c) (k + c * 2 ^ 16) 0

/-- A read of a word or entry with its check bits: the bits, and uncorrectable or not (R168). -/
def State.readCs (s : State) (c k : Nat) : State × Nat × Bool :=
  match nget EccMark.clean k (s.cluster c).marks with
  | .clean => (s, s.csWord c k, false)
  | .single => ((s.bump fPLT_CS_ECC_ce_count c).countFix 2, s.csWord c k, false)
  | .double => (s.csUe c k, 0, true)

/-- The lead copy of an opcode's first word is taken anew, if its entry is valid: a read like any other (R152, R168). -/
def State.refreshLead (s : State) (c op : Nat) : State :=
  if s.entryValid c op = false then s.setCluster c { s.cluster c with lead := nset none op none (s.cluster c).lead }
  else match s.readCs c (bits (s.csWord c (dispKey op)) 13 0) with
    | (s, w, false) => s.setCluster c { s.cluster c with lead := nset none op (some w) (s.cluster c).lead }
    | (s, _, true) => s.setCluster c { s.cluster c with lead := nset none op none (s.cluster c).lead }

/-- The lead copies of those of n opcodes from one on whose entries meet a test are taken anew (R152). -/
def State.refreshLeads (s : State) (c first n : Nat) (t : Nat → Bool) : State :=
  (List.range n).foldl (fun s i => if t (s.csWord c (dispKey (first + i))) then s.refreshLead c (first + i) else s) s

/-- The first word of an opcode's routine, whose address its entry gives: from the Pilot's lead copy, or from the control store when
there is none. None: it cannot be corrected (R152, R166, R168). -/
def State.leadWord (s : State) (c op upc : Nat) : State × Option Nat :=
  match nget none op (s.cluster c).lead with
  | some w => (s, some w)
  | none => match s.readCs c upc with
    | (s, _, true) => (s, none)
    | (s, w, false) => (s, some w)

/-! ### Sites and positions -/

/-- The pins of a Pilot's job in row-position order (R119). -/
def State.pilotPins (s : State) (p : Nat) : List Nat := s.jobPins (s.pjob p)

/-- A site's row positions as a mask. -/
def State.sitePositions (s : State) (p site : Nat) : Nat :=
  ((s.pilotPins p).zipIdx).foldl (fun m e => if s.pinSite e.1 = site then m + 2 ^ e.2 else m) 0

/-- Positions whose results for a vector do not count: of masked sites, and of sites dropped before the index (R197, R217,
R218). -/
def State.deafPositions (s : State) (p index : Nat) : Nat :=
  let l := (s.pilot p).leg
  let masked := s.fget fPLT_SITE_MASK_masked p
  ((s.pilotPins p).zipIdx).foldl (fun m e =>
    let site := s.pinSite e.1
    let dropped := match nget none site l.dropAt with
      | some limit => decide (limit ≤ index)
      | none => false
    if bitAt masked site || dropped then m + 2 ^ e.2 else m) 0

/-- A site's pins behave as in park for vectors issued now (R219). -/
def State.siteParked (s : State) (p site : Nat) : Bool := (nget none site (s.pilot p).leg.parkFrom).isSome

/-! ### Issue (R28) -/

/-- A Legend entry of the bank in force: 16 bits (R121). -/
def Pilot.legendEntry (x : Pilot) (code : Nat) : Nat :=
  let v := if x.q.bank = 0 then x.legend0 else x.legend1
  bits v (16 * code + 15) (16 * code)

/-- The default Legend: code k has action k and every other field 0 (R122). -/
def defaultLegend : Nat := (List.range 16).foldl (fun v k => v + k * 2 ^ (16 * k)) 0

/-- A resolved code: the action, whether its compare is under no_fail, and whether it is reserved (R121 to R125). -/
structure Resolved where
  act : PAct
  noFail : Bool
  reserved : Bool
  deriving DecidableEq, Repr

/-- A code resolved at a row position of a pin (R121 to R125). A K vector repeats what an earlier code resolved to and is itself no
reserved code: it counts no more (DESIGN CHOICE, assumption 99). -/
def Pilot.resolve (x : Pilot) (pos : Nat) (pin : Pin) (code : Nat) : Resolved :=
  let e := x.legendEntry code
  let nf := bitAt e 8
  let var := bitAt (nget 0 (bits e 6 4) x.q.v) pos != bitAt e 7
  match bits e 3 0 with
  | 0 => ⟨.drive false, nf, false⟩
  | 1 => ⟨.drive true, nf, false⟩
  | 2 => ⟨.off, nf, false⟩
  | 3 => ⟨.cmpLow, nf, false⟩
  | 4 => ⟨.cmpHigh, nf, false⟩
  | 5 => ⟨.cmpMid, nf, false⟩
  | 6 => ⟨.none, nf, false⟩
  | 7 => ⟨.capture, nf, false⟩
  | 8 => ⟨pin.prevAct, pin.prevNoFail, false⟩
  | 9 => ⟨.drive (match pin.lastLevel with | some b => !b | none => true), nf, false⟩
  | 10 => ⟨.dds, nf, false⟩
  | 11 => ⟨.drive var, nf, false⟩
  | 12 => ⟨if var then .cmpHigh else .cmpLow, nf, false⟩
  | _ => ⟨.none, nf, true⟩

/-- A compare action (R74). -/
def PAct.isCompare : PAct → Bool
  | .cmpLow | .cmpHigh | .cmpMid => true
  | _ => false

/-- A vector of the leg gives a sample at the pin: a compare, a CT, or any code under total capture (R96, R97, R203). -/
def PAct.samples (a : PAct) (total : Bool) : Bool := a.isCompare || a == .capture || total

/-- Every pin of a Pilot's job has room for a vector (R28). -/
def State.queueRoom (s : State) (p : Nat) : Bool := (s.pilotPins p).all (fun n => decide ((s.pin n).issueQ.length < 256))

/-- The fullest issue queue of a Pilot's pins. -/
def State.queueLevel (s : State) (p : Nat) : Nat := (s.pilotPins p).foldl (fun m n => max m (s.pin n).issueQ.length) 0

/-- The causes of fatal micro-traps (R172). -/
abbrev cOpcode : Nat := 0x01
abbrev cOperand : Nat := 0x02
abbrev cLoopDepth : Nat := 0x03
abbrev cLoopNest : Nat := 0x04
abbrev cStackOver : Nat := 0x05
abbrev cStackUnder : Nat := 0x06
abbrev cTarget : Nat := 0x07
abbrev cStreamEnd : Nat := 0x08
abbrev cNotInLeg : Nat := 0x09
abbrev cNotOwned : Nat := 0x0A
abbrev cOdoLate : Nat := 0x0B
abbrev cTiming : Nat := 0x0C
abbrev cAlmUe : Nat := 0x0D
abbrev cUcodeUe : Nat := 0x0E
abbrev cMicroRange : Nat := 0x0F
abbrev cMicroStack : Nat := 0x10
abbrev cTrapNest : Nat := 0x11
abbrev cChart : Nat := 0x20
abbrev cBreak : Nat := 0x21
abbrev cStep : Nat := 0x22

/-- One position of a vector: its pin, resolved action and checked entry (R98, R219, R257), with reads of the Almanac counted. The
answer is the trap cause of a position that fails. -/
def State.checkPos (s : State) (p pos n code : Nat) : State × Except Nat (Resolved × Nat) :=
  let x := s.pilot p
  let r := x.resolve pos (s.pin n) code
  let r := if s.siteParked p (s.pinSite n) then { r with act := .off, reserved := false } else r
  if r.act = .dds ∧ bitAt (s.pjob p).ddsEngines (s.fget fDDS_PIN_SEL_engine n) = false then (s, .error cNotOwned)
  else if (s.pjob p).almCount ≤ x.q.tset then (s, .error cTiming)
  else match s.readAlm ((s.pjob p).almBase + x.q.tset) n with
    | (s, _, true) => (s, .error cAlmUe)
    | (s, e, false) => if rowOk (legD x.leg.entry) e r.act.row then (s, .ok (r, e)) else (s, .error cTiming)

/-- Every position of a vector resolved and checked, in row order. -/
def State.checkRow (s : State) (p row : Nat) : List (Nat × Nat) → State × Except Nat (List (Nat × Nat × Resolved × Nat))
  | [] => (s, .ok [])
  | (n, pos) :: rest => match s.checkPos p pos n (bits row (4 * pos + 3) (4 * pos)) with
    | (s, .error c) => (s, .error c)
    | (s, .ok (r, e)) => match State.checkRow s p row rest with
      | (s, .error c) => (s, .error c)
      | (s, .ok l) => (s, .ok ((n, pos, r, e) :: l))

/-- A checked position enters its pin's issue queue; the pin remembers what the actions with memory need (R125). The level last driven
is the drive code's data level, whatever the format does after it, and a DC code is no drive for it (DESIGN CHOICE, assumption 68). -/
def State.issuePos (s : State) (p index : Nat) (e : Nat × Nat × Resolved × Nat) : State :=
  let n := e.1
  let pos := e.2.1
  let r := e.2.2.1
  let pin := s.pin n
  let total := bitAt (s.pilot p).str.total pos
  let level := match r.act with | .drive b => some b | _ => pin.lastLevel
  let s := s.setPin n { pin with issueQ := pin.issueQ ++ [⟨index, r.act, e.2.2.2, pos, total⟩],
                                 prevAct := r.act, prevNoFail := r.noFail, lastLevel := level }
  if r.reserved then (s.bump fPLT_RSV_COUNT_count p).fput fPLT_LEG_STATUS_reserved_code p 1 else s

/-- The mask of the positions of a checked row that meet a test. -/
def rowMask (l : List (Nat × Nat × Resolved × Nat)) (t : Nat × Resolved → Bool) : Nat :=
  l.foldl (fun m e => if t (e.2.1, e.2.2.1) then m + 2 ^ e.2.1 else m) 0

/-- One vector issued (R28, R134): every position resolved and checked, then queued under the next index. The answer is the trap
cause when a check fails, and nothing is then issued. `iter` and `group` are the match iteration and its positions. -/
def State.issueVector (s : State) (p row iter group : Nat) (noFail : Bool) : State × Option Nat :=
  match s.checkRow p row (s.pilotPins p).zipIdx with
  | (s, .error c) => (s, some c)
  | (s, .ok l) =>
    let x := s.pilot p
    let i := x.q.next
    let s := l.foldl (fun s e => s.issuePos p i e) s
    let samples := rowMask l (fun e => e.2.act.samples (bitAt x.str.total e.1))
    let states := rowMask l (fun e => e.2.act.isCompare || e.2.act == .capture)
    let cts := rowMask l (fun e => e.2.act == .capture)
    let ct := if Nat.land x.str.ct cts = 0 then 0 else cts
    let nf := rowMask l (fun e => e.2.noFail || noFail)
    let v : VRes := { index := i, waiting := samples, sampled := states, ct := ct, iter := iter, group := group, noFail := nf }
    let s := s.setLeg p { (s.pilot p).leg with results := (s.pilot p).leg.results ++ [v] }
    (s.setSeq p { (s.pilot p).q with next := i + 1 }, none)

end Sys2Proof.Machine
end

