-- ==== Sys2Proof/Machine/Legs.lean ====
section
/-! DEFINITION. Legs and their results: job events (R229), which results count (R197), first fail, fail log, drops, captures and
their markers (R198 to R208, R218), how a leg ends and how a job ends (R132 to R135, R186, R228). -/

namespace Sys2Proof.Machine

/-! ### Job events -/

/-- The bits [35:16] that a Pilot's reports share: kind, Pilot and leg (R142). -/
def reportHead (kind p leg : Nat) : Nat := pack [(16, 4, kind), (20, 4, p), (24, 12, leg)]

/-- A job event committed to the job's status queue (R229). -/
def State.jobEvent (s : State) (p j ev index cycles frac site : Nat) : State :=
  let leg := if ev = 3 then (if (s.pilot p).job = j then (s.pilot p).awaitLeg else 0) else s.fget fPLT_LEG_STATUS_leg p
  let st := bits (s.rd .PLT_LEG_STATUS p).toNat 19 0
  s.report (s.job j).statusQ 32 (reportHead 7 p leg + pack [(0, 16, ev), (36, 8, j), (64, 64, index), (128, 64, cycles),
    (192, 24, frac), (216, 20, st), (236, 6, site)])

/-- An event that carries the last end reading (events 2, 4, 5 and 7): the job's own, as the Pilot holds it, or for a suspended job as it
stood at its suspension; a job that never had the Pilot has the Pilot's registers (R229). -/
def State.endEvent (s : State) (p j ev index : Nat) : State :=
  if (s.job j).st = .suspended ∧ ev = 7 then
    s.jobEvent p j ev (s.job j).lastIndex ((s.job j).lastE / fracOne) ((s.job j).lastE % fracOne) 0
  else if (s.pilot p).job = j ∧ 0 < (s.pilot p).legsDone then
    s.jobEvent p j ev index ((s.pilot p).e88 / fracOne) ((s.pilot p).e88 % fracOne) 0
  else s.jobEvent p j ev index (s.fget fPLT_LEG_E_cycles p) (s.fget fPLT_LEG_FRAC_fraction p) 0

/-- The reading at which the period of an index begins, in 2^-24 cycles (R29). -/
def Leg.periodAt (l : Leg) (i : Nat) : Nat := l.s88 + i * legD88 l.entry

/-! ### Fail log (R200, R201) -/

/-- A fail-log entry (R200). -/
def State.logEntry (s : State) (p site kind index mask run : Nat) : State :=
  s.report ((s.pjob p).logQueue site) 32 (reportHead kind p (s.pilot p).leg.index +
    pack [(0, 6, site), (64, 64, index), (128, 48, mask), (192, 32, run)])

/-- The open run of a site is committed (R200). -/
def State.closeRun (s : State) (p site : Nat) : State :=
  let l := (s.pilot p).leg
  match nget none site l.logRuns with
  | none => s
  | some r =>
    (s.setLeg p { l with logRuns := nset none site none l.logRuns }).logEntry p site 4 r.first r.mask r.run

/-- A run opens, unless the site has reached its limit: then one entry of kind 5, whose mask and run are free, and no more
(R201; assumption 57). -/
def State.openRun (s : State) (p site index mask : Nat) : State :=
  let l := (s.pilot p).leg
  let c := nget 0 site l.logCount
  let limit := (s.pjob p).logLimit site
  if limit = 0 ∨ c < limit then
    s.setLeg p { l with logRuns := nset none site (some ⟨index, mask, 1⟩) l.logRuns, logCount := nset 0 site (c + 1) l.logCount }
  else if c = limit then
    let r := (s.setLeg p { l with logCount := nset 0 site (c + 1) l.logCount }).freshWide 2
    r.1.logEntry p site 5 index (r.2 % 2 ^ 48) (r.2 / 2 ^ 64)
  else s

/-- A vector's counted fails of a site enter the fail log (R200). -/
def State.logVector (s : State) (p site index mask : Nat) : State :=
  match nget none site (s.pilot p).leg.logRuns with
  | some r =>
    if r.mask = mask ∧ r.first + r.run = index ∧ r.run < 2 ^ 32 - 1 then
      let l := (s.pilot p).leg
      s.setLeg p { l with logRuns := nset none site (some { r with run := r.run + 1 }) l.logRuns }
    else
      let s := s.closeRun p site
      if mask = 0 then s else s.openRun p site index mask
  | none => if mask = 0 then s else s.openRun p site index mask

/-! ### Site drops (R218 to R220) -/

/-- A site dropped from an index on: results below `limit` count (R218). The event carries i_d and the first parked vector. -/
def State.dropSite (s : State) (p site limit : Nat) : State :=
  let x := s.pilot p
  let job := s.pjob p
  let l := x.leg
  match nget none site l.dropAt with
  | some old => if limit < old then s.setLeg p { l with dropAt := nset none site (some limit) l.dropAt } else s
  | none =>
    let park := job.flag 3
    let l := { l with dropAt := nset none site (some limit) l.dropAt }
    let l := { l with parkFrom := if park then nset none site (some x.q.next) l.parkFrom else l.parkFrom }
    let y := { x with leg := l, dropPersist := if job.flag 4 then setBit x.dropPersist site true else x.dropPersist }
    let s := (s.setPilot p y).fput fPLT_SITE_DROP_dropped p (setBit (s.fget fPLT_SITE_DROP_dropped p) site true)
    let s := s.closeRun p site
    s.jobEvent p x.job 6 (limit + (2 ^ 64 - 1)) (if park then x.q.next else 2 ^ 64 - 1) 0 site

/-! ### First fail (R198, R199) -/

/-- A site's first-fail entry written to the job's table (R199). -/
def State.ffEntry (s : State) (p site v : Nat) : State :=
  match s.dvaWrite p (portCP (p / 4)) .realTime (s.pjob p).aspace ((s.pjob p).ffTable + 32 * site) (bytesOf 32 v) with
  | (s, none) => s
  | (s, some f) => (s.raiseFault { f with early := true, blocking := false }).1

/-- The first-fail register is armed, and every entry of the table reads found = 0 (R198, R199). -/
def State.ffArm (s : State) (p : Nat) : State :=
  let s := s.fput fPLT_FF_STAT_armed p 1
  let s := s.fput fPLT_FF_STAT_found p 0
  let s := s.setPilot p { s.pilot p with ffSites := 0 }
  (List.range 48).foldl (fun s k => s.ffEntry p k 0) s

/-- A re-arm acts at the boundary before the next vector: once the results of every earlier vector are known (R139, R198). -/
def State.ffRearm (s : State) (p : Nat) : State :=
  let x := s.pilot p
  if x.leg.recorded < x.q.next then s.setLeg p { x.leg with ffArms := x.leg.ffArms ++ [x.q.next] } else s.ffArm p

/-- Re-arms that were to act at or before an index (R139). -/
def State.ffDue (s : State) (p index : Nat) : State :=
  let l := (s.pilot p).leg
  if l.ffArms.any (· ≤ index) then (s.setLeg p { l with ffArms := l.ffArms.filter (index < ·) }).ffArm p else s

/-- A vector's counted fails reach the first-fail register and the site records (R198, R199). -/
def State.ffVector (s : State) (p index counted : Nat) : State :=
  let x := s.pilot p
  if counted = 0 ∨ s.fbit fPLT_FF_STAT_armed p = false then s
  else
    let cyc := x.leg.periodAt index / fracOne
    let s := if s.fbit fPLT_FF_STAT_found p then s
      else
        let s := (s.fput fPLT_FF_STAT_found p 1).fput fPLT_FF_STAT_leg p x.leg.index
        (((s.fput fPLT_FF_INDEX_index p index).fput fPLT_FF_MASK_mask p counted).fput fPLT_FF_CYC_cycles p cyc)
    (maskBits 48 (s.pjob p).sites).foldl (fun s site =>
      let mine := Nat.land counted (s.sitePositions p site)
      if mine = 0 ∨ bitAt (s.pilot p).ffSites site then s
      else
        let s := s.setPilot p { s.pilot p with ffSites := setBit (s.pilot p).ffSites site true }
        s.ffEntry p site (pack [(0, 1, 1), (1, 12, x.leg.index), (64, 64, index), (128, 48, mine), (192, 64, cyc)])) s

/-! ### Captures (R203 to R207) -/

/-- The bytes of a block group of total capture: 256 a position of cap_pos (R204). -/
def Job.groupBytes (j : Job) : Nat := 256 * popCount 48 j.capPos

/-- How much a capture FIFO holds, in bits: 16 KiB (R181). -/
abbrev capFifoBits : Nat := 131072

/-- How many slots of a block lost their codes. -/
def lostCodes (lost : Nat) : Nat := if lost = 0 then 0 else popCount 1024 lost

/-- What a finished block takes of a capture FIFO, in bits: its codes that fitted (R207). -/
def CapBlock.bits (b : CapBlock) : Nat := 2 * (1024 - lostCodes b.lost)

/-- What a pin's capture FIFO holds, in bits: finished blocks, the codes of the block under way, and CT records (R181, R205). -/
def State.capUsed (s : State) (p n : Nat) : Nat :=
  let x := s.pin n
  (x.capQ.map (·.bits)).sum + 2 * (x.capCodes - lostCodes x.capLost) +
    256 * ((s.pilot p).str.ctQ.filter (fun e => e.1 == n)).length

/-- A flag of the leg's captures sets, in PLT_CAP_STAT and for the marker (R205 to R208): 0 = region_full; 1 = wrapped;
2 = fifo_lost; 3 = ct_dropped. -/
def State.capFlag (s : State) (p k : Nat) : State :=
  let v := (s.rd .PLT_CAP_STAT p).toNat
  let s := s.wr .PLT_CAP_STAT p 0 (BitVec.ofNat 64 (setBits v k k 1))
  s.setStr p { (s.pilot p).str with flags := setBit (s.pilot p).str.flags k true }

/-- The offset in a region of `size` bytes at which n bytes go, under stop or wrap, and whether they are the first that go on at its start
(R206): none when the region has ended. A wrapping region goes on at its start when the next n bytes would pass its end. -/
def regionPlace (wrap : Bool) (size off n : Nat) : Option (Nat × Bool) :=
  if wrap then (if size < n then none else some (off % (size / n * n), decide (off ≠ 0 ∧ off % (size / n * n) = 0)))
  else if off + n ≤ size then some (off, false) else none

/-- The next write offset as a place in a wrapping region of whole units of n bytes (R206, R227); one that stands at the region's end has
yet to go on at its start. -/
def wrapOffset (wrap : Bool) (size off n : Nat) : Nat :=
  if wrap ∧ 0 < off ∧ n ≤ size then (off - 1) % (size / n * n) + 1 else off

/-- The codes of a capture FIFO that did not fit are lost, from the vector of an index on (R207). -/
def State.fifoLost (s : State) (p index : Nat) : State :=
  let s := s.capFlag p 2
  let str := (s.pilot p).str
  s.setStr p { str with firstLost := some (str.firstLost.getD index) }

/-- A finished block of the position of rank k waits in its pin's capture FIFO for its write (R204, R206). -/
def State.queueBlock (s : State) (p n rank group : Nat) : State :=
  let x := s.pilot p
  let job := s.pjob p
  let pin := s.pin n
  let s := s.setPin n { pin with capCur := 0, capCodes := 0, capLost := 0 }
  if bitAt x.str.full 0 then s
  else match regionPlace (job.flag 8) job.tcBytes (x.str.plane + group * job.groupBytes + rank * 256) 256 with
    | none => (s.capFlag p 0).setStr p { ((s.capFlag p 0).pilot p).str with full := setBit x.str.full 0 true }
    | some (o, wrapped) =>
      let s := if wrapped then s.capFlag p 1 else s
      if pin.capCodes ≤ lostCodes pin.capLost then s
      else s.setPin n { s.pin n with capQ := pin.capQ ++ [⟨job.tcBase + o, job.aspace, p, pin.capCur, pin.capLost⟩] }

/-- Every position's block of a group is finished (R204). -/
def State.queueGroup (s : State) (p group : Nat) : State :=
  let caps := (s.pilotPins p).zipIdx.filter (fun e => bitAt (s.pjob p).capPos e.2)
  caps.zipIdx.foldl (fun s e => s.queueBlock p e.1.1 e.2 group) s

/-- A code arrives at a pin's capture FIFO: it joins the block under way in its slot, or is lost when it does not fit (R204, R207). -/
def State.captureCode (s : State) (p n index code : Nat) : State :=
  let m := index % 1024
  let pin := s.pin n
  if s.capUsed p n + 2 ≤ capFifoBits then
    s.setPin n { pin with capCur := setBits pin.capCur (2 * m + 1) (2 * m) code, capCodes := m + 1 }
  else (s.setPin n { pin with capLost := setBit pin.capLost m true, capCodes := m + 1 }).fifoLost p index

/-- A vector's total-capture codes join the blocks under way; the 1,024th finishes them (R203, R204). -/
def State.captureVector (s : State) (p : Nat) (v : VRes) : State :=
  if (s.pjob p).flag 6 = false ∨ bitAt (s.pilot p).str.full 0 then s
  else
    let s := (s.pilotPins p).zipIdx.foldl (fun s e =>
      if bitAt (s.pjob p).capPos e.2 then s.captureCode p e.1 v.index (bits v.codes (2 * e.2 + 1) (2 * e.2)) else s) s
    if v.index % 1024 = 1023 then s.queueGroup p (v.index / 1024) else s

/-- The pin whose capture FIFO takes a CT record: the first of the Pilot's that has room for it (DESIGN CHOICE, assumption 69). -/
def State.ctPin (s : State) (p : Nat) : Option Nat := (s.pilotPins p).find? (fun n => decide (s.capUsed p n + 256 ≤ capFifoBits))

/-- A CT record is staged in a capture FIFO, or lost when none has room (R205, R207). -/
def State.stageCt (s : State) (p index dva rec' : Nat) : State :=
  match s.ctPin p with
  | none => s.fifoLost p index
  | some n =>
    let str := (s.pilot p).str
    s.setStr p { str with ctNext := str.ctNext + 32, ctQ := str.ctQ ++ [(n, dva, (s.pjob p).aspace, rec')] }

/-- A vector's CT record, within the declared density (R205, R206). -/
def State.ctVector (s : State) (p : Nat) (v : VRes) : State :=
  if v.ct = 0 then s
  else
    let str := (s.pilot p).str
    let job := s.pjob p
    let here := if str.ctBlock = v.index / 1024 then str.ctInBlock else 0
    if job.ctDensity ≤ here then (s.bump fPLT_CAP_STAT_ct_drop_count p).capFlag p 3
    else
      let s := s.setStr p { str with ctBlock := v.index / 1024, ctInBlock := here + 1 }
      if bitAt str.full 1 then s
      else match regionPlace (job.flag 9) job.ctBytes str.ctNext 32 with
        | none => (s.capFlag p 0).setStr p { ((s.capFlag p 0).pilot p).str with full := setBit str.full 1 true }
        | some (o, wrapped) =>
          let s := if wrapped then s.capFlag p 1 else s
          let st := (maskBits 48 v.ct).foldl (fun a k => a + bits v.states (2 * k + 1) (2 * k) * 2 ^ (2 * k)) 0
          s.stageCt p v.index (job.ctBase + o) (pack [(0, 64, v.index), (64, 96, st), (160, 48, v.ct)])

/-! ### Results in index order (R198) -/

/-- A match iteration's verdict as its last vector's results become known (R147). -/
def matchVerdict (m : MatchLoop) (v : VRes) (bad : Bool) : MatchLoop :=
  let m := if bad ∧ !m.failed.contains v.iter then { m with failed := v.iter :: m.failed } else m
  if m.ends[v.iter - 1]? = some v.index ∧ !m.failed.contains v.iter then { m with passed := m.passed ++ [v.iter] } else m

/-- The results of one vector, all lower indices being known, go to every consumer (R30, R197 to R205, R217, R218). -/
def State.countVector (s : State) (p : Nat) (v : VRes) : State :=
  let deaf := Nat.lor (s.deafPositions p v.index) v.noFail
  let heard := v.failed - Nat.land v.failed deaf
  let counted := if v.iter = 0 then heard else heard - Nat.land heard v.group
  let l := (s.pilot p).leg
  let l := match l.matchSt with
    | some m => if v.iter = 0 then l else { l with matchSt := some (matchVerdict m v (Nat.land heard v.group != 0)) }
    | none => l
  let l := if counted ≠ 0 ∧ l.failMark ≤ v.index then { l with fails := l.fails ++ [(v.index, counted)] } else l
  let keep := match l.keepIndex with | some i => i == v.index | none => true
  -- a fail-dependent instruction sees nothing of no_fail compares and of masked or dropped sites (R143, R218)
  let seen := v.sampled - Nat.land v.sampled deaf
  let l := if keep then { l with lastIndex := v.index, lastStates := v.states, lastSampled := seen } else l
  let s := s.setLeg p { l with recorded := v.index + 1, taken := v.index + 1 }
  let s := (s.pilotPins p).zipIdx.foldl (fun s e => if bitAt counted e.2 then s.bump fPIN_FAIL_COUNT_count e.1 else s) s
  let s := (s.ffDue p v.index).ffVector p v.index counted
  let sites := maskBits 48 (s.pjob p).sites
  let s := if (s.pjob p).flag 5 then
      sites.foldl (fun s k => if (nget none k (s.pilot p).leg.dropAt).isSome then s
        else s.logVector p k v.index (Nat.land counted (s.sitePositions p k))) s
    else s
  let s := if (s.pjob p).flag 2 then
      sites.foldl (fun s k => if Nat.land counted (s.sitePositions p k) = 0 then s else s.dropSite p k (v.index + 1)) s
    else s
  let s := sites.foldl (fun s k => if Nat.land counted (s.sitePositions p k) = 0 then s else s.aggSite k) s
  (s.captureVector p v).ctVector p v

/-- A vector whose strobes were all cut off gives no result: the next one is reached (R186). -/
def State.passCut (s : State) (p : Nat) (v : VRes) : State := s.setLeg p { (s.pilot p).leg with recorded := v.index + 1 }

/-- Every vector at the head of the results that awaits nothing is counted, at most fuel of them. -/
def State.settleResults (s : State) (p : Nat) : Nat → State
  | 0 => s
  | fuel + 1 => match (s.pilot p).leg.results with
    | [] => s
    | v :: rest =>
      if v.waiting = 0 ∧ v.index < (s.pilot p).leg.begun then
        let s := s.setLeg p { (s.pilot p).leg with results := rest }
        State.settleResults (if v.cut then s.passCut p v else s.countVector p v) p fuel
      else s

/-- The results that are known are counted. -/
def State.settle (s : State) (p : Nat) : State := s.settleResults p (s.pilot p).leg.results.length

/-! ### The end of a leg (R135, R186, R228) -/

/-- The floor of a streaming Pilot (R189): the lowest of its fetch offset, its pinned tops and its filled slots' rows. -/
def State.floorOf (s : State) (p : Nat) : Nat :=
  let x := s.pilot p
  let rb := hRowBytes x.hdr
  let pins := x.q.loops.filterMap (fun l => if l.pinLo < l.pinHi then some l.pinLo else none)
  let slots := x.str.slots.map (fun k => k.row * rb)
  (pins ++ slots).foldl min x.str.fifoLo

/-- PLT_STRM_FLOOR follows the floor; the floor never passes back. -/
def State.setFloor (s : State) (p : Nat) : State :=
  if (s.pjob p).streams then s.fput fPLT_STRM_FLOOR_floor p (s.floorOf p) else s

/-- A release element (R188). -/
def State.release (s : State) (p : Nat) : State :=
  if (s.pjob p).streams then
    let s := s.setFloor p
    let x := s.pilot p
    let fl := s.fget fPLT_STRM_FLOOR_floor p
    let s := s.setStr p { x.str with lastRel := fl }
    s.report (strRelQ x.strDesc) 32 (pack [(20, 4, p), (64, 64, fl), (128, 64, x.str.need.getD (2 ^ 64 - 1))])
  else s

/-- A release element when the floor has advanced by 64 KiB since the last (R188). -/
def State.releaseIfDue (s : State) (p : Nat) : State :=
  if (s.pjob p).streams ∧ (s.pilot p).str.lastRel + 65536 ≤ s.floorOf p then s.release p else s.setFloor p

/-- A job's capture marker waits for its writes (R208). -/
def State.dueMarker (s : State) (p : Nat) (aborted : Bool) : State :=
  let job := s.pjob p
  if job.flag 6 = false ∧ job.flag 7 = false then s
  else
    let x := s.pilot p
    let plane := if job.flag 8 ∧ job.tcBytes ≠ 0 then x.str.plane % job.tcBytes else x.str.plane
    let elem := reportHead 6 p x.leg.index + pack [(64, 64, x.leg.taken), (128, 64, plane), (192, 3, x.str.flags),
      (195, 1, b2n aborted), (196, 1, bits x.str.flags 3 3), (200, 56, x.str.firstLost.getD 0)]
    s.setStr p { x.str with markers := x.str.markers ++ [(job.captureQ, elem)] }

/-- The leg's last blocks are padded with 0b00 and written; the next plane begins at the next group (R204). -/
def State.flushCapture (s : State) (p : Nat) : State :=
  let job := s.pjob p
  if job.flag 6 = false then s
  else
    let n := (s.pilot p).leg.taken
    let s := if n % 1024 = 0 then s else s.queueGroup p (n / 1024)
    s.setStr p { (s.pilot p).str with tcNext := (s.pilot p).str.plane + ceilDiv n 1024 * job.groupBytes }

/-- A leg's end is recorded and reported: end code, index, end reading (PLT_LEG_INDEX, PLT_LEG_E, R229 event 2). -/
def State.closeLeg (s : State) (p code index : Nat) : State :=
  let x := s.pilot p
  let l := x.leg
  let n := if code = 1 then index else index + 1
  let e88 := (l.s88 + n * legD88 l.entry) % 2 ^ 88
  let s := s.fput fPLT_LEG_STATUS_end p code
  -- no period has begun: there is no last vector, and its index is free (assumption 56)
  let none := decide (code ≠ 1 ∧ code ≠ 4 ∧ (index + 1) % 2 ^ 64 = 0)
  let s := s.fput fPLT_LEG_INDEX_index p (if none then s.fresh.2.toNat else index % 2 ^ 64)
  let s := if none then s.fresh.1 else s
  let s := s.fput fPLT_LEG_E_cycles p (e88 / fracOne)
  s.setPilot p { x with e88 := e88, legsDone := x.legsDone + 1 }

/-- The report that a MS_POST or a user report leaves, completed with the index and reading (R142, R164). -/
def postElem (elem index at88 : Nat) (user : Bool) : Nat :=
  if user then elem + pack [(64, 64, index)]
  else elem + pack [(64, 64, index), (128, 64, at88 / fracOne), (192, 24, at88 % fracOne)]

/-- Reports that waited for the next period are committed with the leg's end (R142). A window, an arming or a hop acts at the period start
of the next vector (R139): where none comes before the leg's end, it never acts (DESIGN CHOICE, assumption 100). -/
def State.flushPosts (s : State) (p n e88 : Nat) : State :=
  let l := (s.pilot p).leg
  let s := s.setLeg p { l with acts := [] }
  l.acts.foldl (fun s a => match a.2 with
    | .post q elem => s.report q 32 (postElem elem n e88 (bits elem 19 16 == 2))
    | _ => s) s

/-- Everything that a leg's end closes, once all its results are in (R135, R186, R188, R200, R208). A fault_park that stood before a leg
which ends by END_LEG stands after it (R64 leaves open whether it clears: DESIGN CHOICE, assumption 70). -/
def State.finishLeg (s : State) (p : Nat) : State :=
  let aborted := decide ((s.pilot p).leg.ending = 3)
  let s := (maskBits 48 (s.pjob p).sites).foldl (fun s k => s.closeRun p k) s
  let s := ((s.ffDue p (2 ^ 64)).flushCapture p).dueMarker p aborted
  let j := (s.pilot p).job
  let s := (s.release p).endEvent p j 2 (s.fget fPLT_LEG_INDEX_index p)
  let x := s.pilot p
  let s := s.setPilot p { x with st := .between, leg := { x.leg with ending := 0, results := [], matchSt := none, slip := none } }
  -- a deferred cause of a leg that ended by a cause is discarded (R176)
  if aborted then
    let pend := s.fget fPLT_TRAP_PEND_pending p
    (s.bump fPLT_TRAP_PEND_discarded p (popCount 8 pend)).fput fPLT_TRAP_PEND_pending p 0
  else s

/-! ### Trap frames (R173, R177) -/

/-- Two 32-bit values in a word, the first in [31:0]. -/
def pair (a b : Nat) : Nat := a % 2 ^ 32 + b % 2 ^ 32 * 2 ^ 32

/-- The sequencer state of words 0 to 30 of a trap frame (R177): cause, whether fatal and inside a leg, cause detail, faulting
address and space. -/
def State.frameWords (s : State) (p cause : Nat) (fatal inLeg : Bool) (detail dva space : Nat) : List Nat :=
  let x := s.pilot p
  let q := x.q
  let waiting := match q.run with | some r => (match r.after with | .wait _ _ => true | _ => false) | none => false
  let lv (k : Nat) : Nat := match q.loops[k]? with | some l => l.counter | none => 0
  let top (k : Nat) : Nat := match q.loops[k]? with | some l => l.top | none => 0
  let m := x.leg.matchSt
  -- a vendor instruction whose vectors are under way has stepped the counter on
  let pc := match q.run with
    | some r => (match r.after with | .branch _ _ _ => q.pc | _ => if q.inRoutine then q.pc else q.pc - 1)
    | none => q.pc
  let stk := (q.mstack.zipIdx).foldl (fun v e => v + e.1 % 2 ^ 14 * 2 ^ (14 * e.2)) 0
  let w0 := pack [(0, 14, q.upc), (14, 3, q.mstack.length), (24, 8, cause), (32, 8, bits q.opr 63 56), (40, 1, b2n inLeg),
    (41, 1, b2n fatal), (42, 1, b2n waiting)]
  let left := match q.run with | some r => r.left | none => 0
  let flags := b2n q.z + 2 * b2n q.n + 4 * b2n q.c
  let w12 := pack [(0, 4, q.loops.length)] + ((List.range 8).map (fun k => lv k % 8 * 2 ^ (4 + 3 * k))).sum
  let w13 := ((List.range 4).map (fun k => top k % 65536 * 2 ^ (16 * k))).sum
  let w14 := ((List.range 4).map (fun k => top (k + 4) % 65536 * 2 ^ (16 * k))).sum
  let w15 := pack [(0, 5, q.calls.length), (5, 3, flags), (8, 1, q.bank), (9, 11, q.tset), (20, 3, q.failGroup)]
  let a (k : Nat) : Nat := nget 0 k q.a
  let u (k : Nat) : Nat := if k < 7 then nget 0 k q.u else 0
  let lc (k : Nat) : Nat := nget 0 k q.lc
  let w25 := s.fget fPLT_MATCH_STAT_issued p + s.fget fPLT_MATCH_STAT_m p * 2 ^ 21
  let w26 := match m with
    | some l => pack [(0, 12, l.k + 4095), (12, 20, l.limit + 2 ^ 20 - 1), (32, 3, l.group), (35, 16, l.branch)]
    | none => 0
  [w0, stk, q.opr, pc, q.row, q.scan, q.next, pair left q.waitCount, pair (lc 0) (lc 1), pair (lc 2) (lc 3),
    pair (lc 4) (lc 5), pair (lc 6) (lc 7), w12, w13, w14, w15, pair (a 0) (a 1), pair (a 2) (a 3), pair (a 4) (a 5),
    pair (a 6) (a 7), pair (u 0) (u 1), pair (u 2) (u 3), pair (u 4) (u 5), pair (u 6) 0, q.odoCmp / fracOne, w25, w26,
    dva % 2 ^ 48 + space % 256 * 2 ^ 48, detail, s.jobOdo (s.pjob p) / fracOne, 0]

/-- Bytes of 64-bit words. -/
def wordBytes (ws : List Nat) : List Byte := ws.flatMap (fun w => bytesOf 8 w)

/-- A frame saved in frame f: its words, the CRC-32C and the valid bit (R173, R177). -/
def State.saveFrame (s : State) (p f : Nat) (ws : List Nat) : State :=
  let all := ws ++ [crc32c (wordBytes ws) + 2 ^ 32]
  (all.zipIdx).foldl (fun s e => s.wr .PLT_TRAP_FRAME p (f * 32 + e.2) (BitVec.ofNat 64 e.1)) s

/-- A resumable trap enters the vendor service with a frame that is free: the frame and the trap report to the job's fault queue (R173). The
state that the Pilot had outside a leg is kept for its return. -/
def State.trapService (s : State) (p f cause detail dva space : Nat) (next : Bool := true) : State :=
  let x := s.pilot p
  let s := s.saveFrame p f (s.frameWords p cause false false detail dva space)
  let s := s.fput (if f = 1 then fPLT_TRAP_STAT_frame1_valid else fPLT_TRAP_STAT_frame0_valid) p 1
  let s := ((s.fput fPLT_TRAP_STAT_last_cause p cause).bump fPLT_TRAP_STAT_trap_count p).countFix 19
  let elem := pack [(0, 16, cause), (16, 4, 3), (20, 4, p), (24, 12, s.fget fPLT_LEG_STATUS_leg p), (36, 14, x.q.upc),
    (50, 1, f), (64, 64, x.q.opr), (128, 64, detail)]
  let s := s.report (s.pjob p).faultQ 32 elem
  s.setPilot p { s.pilot p with st := .trap, trapFrom := x.st, trapFrame := f, trapWait := cause, trapKey := detail, trapNext := next }

/-! ### Loading and ending a job -/

/-- How a Pilot's load of its route ended. -/
inductive Load where
  | done
  | fault (f : FaultSlot)
  | poison
  deriving DecidableEq, Repr

/-- A job's route header, row table, first leg entry, stream descriptor and Legend banks in the Pilot (R120, R124, R131). The reads go
through the cluster's read port; one that fails leaves the Pilot without any of them. -/
def State.loadRoute (s : State) (p j : Nat) : State × Load :=
  let job := s.job j
  let rd (s : State) (dva n : Nat) (go : State → Nat → State × Load) : State × Load :=
    match s.dvaRead p (portCR (p / 4)) job.aspace dva n with
    | (s, .done bs) => go s (ofBytes bs)
    | (s, .fault f) => (s, .fault f)
    | (s, .poison) => (s, .poison)
  rd s job.route 512 fun s h =>
  let rb := hRowBytes h
  rd s (job.route + hRowtabOff h) (hRowtabRows h * rb) fun s tab =>
  rd s job.stream (if job.streams then 32 else 0) fun s d =>
  rd s (job.route + hLegOff h) 32 fun s e =>
  let rows := (List.range (hRowtabRows h)).map (fun k => bits tab (8 * rb * (k + 1) - 1) (8 * rb * k))
  let l0 := if job.flag 0 ∧ bitAt (hFlags h) 0 then hdrField h 0x70 32 else defaultLegend
  let l1 := if job.flag 0 ∧ bitAt (hFlags h) 1 then hdrField h 0x90 32 else defaultLegend
  (s.setPilot p { s.pilot p with hdr := h, rowtab := rows, strDesc := d, legend0 := l0, legend1 := l1, awaitEntry := e }, .done)

/-- A frame is marked invalid: its own valid bit and PLT_TRAP_STAT's clear (R174, R177). -/
def State.dropFrame (s : State) (p f : Nat) : State :=
  (s.fput (if f = 0 then fPLT_TRAP_STAT_frame0_valid else fPLT_TRAP_STAT_frame1_valid) p 0).fputj ⟨.PLT_TRAP_FRAME, 32, 32⟩ p
    (f * 32 + 31) 0

/-- Both frames are marked invalid (R176). -/
def State.dropFrames (s : State) (p : Nat) : State := (s.dropFrame p 0).dropFrame p 1

/-- The pending leg-start milestones of a job that runs no more legs for now are reported with a status (assumption 23). -/
def State.dropLegStarts (s : State) (j : Nat) (st : Status) : State :=
  s.msDropAll (fun x => x.action == 1 && x.target == j) st

/-- The last event of a job, which releases what it held (R228). A status that no leg end carries stands in an event 3 before it
(assumption 24). -/
def State.closeJob (s : State) (j : Nat) (why : Status) : State :=
  let job := s.job j
  let p := job.pilot
  -- CONTEXT_LOST refuses no leg start: it has no event of its own (R226, R229)
  let s := if why = .ok ∨ why = .contextLost then s else s.jobEvent p j 3 0 why.code 0 0
  let s := s.dropLegStarts j (if why = .contextLost then .contextLost else .aborted)
  let s := s.endEvent p j 7 (s.fget fPLT_LEG_INDEX_index p)
  s.setJob j { job with st := .ended, endCode := s.fget fPLT_LEG_STATUS_end p, endStatus := why.code }

/-- The Pilot is free of its job. -/
def State.freePilot (s : State) (p : Nat) : State :=
  let x := s.pilot p
  (s.clearPilotFaults p).setPilot p { x with st := .noJob, preempt := none, leg := { x.leg with results := [] } }

/-- The Pilot loads its job's route and awaits leg 0 (R120, R124, R132). A fault of a read is a resumable trap of the fetch outside a leg,
after which the load begins again; poison ends the job (R321, R347). -/
def State.takeRoute (s : State) (p : Nat) : State :=
  let j := (s.pilot p).job
  match s.loadRoute p j with
  | (s, .done) => s.setPilot p { s.pilot p with st := .awaiting }
  | (s, .fault f) =>
    let s := (s.raiseFault { f with early := false, blocking := true }).1.setPilot p { s.pilot p with st := .noJob }
    s.trapService p 0 cChart f.kind f.dva f.space
  | (s, .poison) => (s.closeJob j .memPoison).freePilot p

/-- The Pilot takes a job that was accepted: what R456 lists is set, and its route is loaded (R120, R124, R132). What the last job's
captures still have to write stays. PLT_SITE_MASK shows mask_init until leg 0 puts its own mask in force (R217, R456). -/
def State.giveJob (s : State) (p j : Nat) : State :=
  let x := s.pilot p
  let b := s.job j
  let mask := b.mask.getD b.maskInit
  let y : Pilot := { st := .awaiting, job := j, suspended := x.suspended, handover := s.now, maskNext := mask,
                     dropNext := b.drops, dropPersist := if b.flag 4 then b.drops else 0 }
  let cap := if (s.job j).flag 6 then (s.job j).capPos else 0
  let y := { y with str := { ctQ := x.str.ctQ, markers := x.str.markers, total := cap }, q := { u := x.q.u } }
  let s := (s.setJob j { b with mask := none, drops := 0 }).setPilot p y
  let s := s.rstAll [.PLT_MATCH_STAT, .PLT_STRM_LO, .PLT_STRM_HI, .PLT_STRM_FLOOR, .PLT_SITE_DROP] p
  let s := (s.fput fPLT_STRM_STAT_pinned p 0).fput fPLT_SITE_MASK_masked p b.maskInit
  let s := s.dropFrames p
  let s := (s.wr .PLT_CAP_STAT p 0 (BitVec.ofNat 64 ((s.rd .PLT_CAP_STAT p).toNat / 16 * 16)))
  let s := s.ffArm p
  ((s.jobPins (s.job j)).foldl (fun s n => s.fput fPIN_FAIL_COUNT_count n 0) s).takeRoute p

/-- The end of a job (R228). The Pilot passes to a job whose request waits (R222). -/
def State.endJob (s : State) (j : Nat) (why : Status) : State :=
  let p := (s.job j).pilot
  let s := s.closeJob j why
  let x := s.pilot p
  if x.preempt = some j then s.setPilot p { x with preempt := none }
  else if x.job = j ∧ x.st ≠ .noJob then
    let s := s.freePilot p
    match x.preempt with
    | some k => s.giveJob p k
    | none => s
  else s.setPilot p { x with suspended := x.suspended.filter (· ≠ j) }

/-- A vector keeps of the strobes that it awaits only some positions: the others were cut off by the end of its leg, and give no
result, no code and no CT state (R186). -/
def VRes.cutTo (v : VRes) (kept : Nat) : VRes :=
  let gone := v.waiting - Nat.land v.waiting kept
  { v with waiting := Nat.land v.waiting kept, sampled := v.sampled - Nat.land v.sampled gone, ct := v.ct - Nat.land v.ct gone,
           cut := decide (gone ≠ 0 ∧ v.all - Nat.land v.all gone = 0) }

/-- A leg ended by a cause (R17, R64, R173, R186): the pins park, vectors whose periods have not begun are discarded, strobes
that would close later are not judged, and the job ends when the results in flight are in. -/
def State.killLeg (s : State) (p code cause : Nat) (index : Option Nat := none) : State :=
  let x := s.pilot p
  if x.leg.ending = 3 then s
  else
    let pins := s.pilotPins p
    let s := pins.foldl (fun s n =>
      let pin := s.pin n
      (s.setPin n { pin with issueQ := [], drive := .off, samples := pin.samples.filter (fun a => decide (a.closes ≤ s.now)) }).faultPark n) s
    let awaited (i : Nat) : Nat := (pins.zipIdx).foldl (fun m e =>
      if (s.pin e.1).samples.any (fun a => a.index == i) then m + 2 ^ e.2 else m) 0
    let cut := (x.leg.results.filter (fun v => decide (v.index < x.leg.begun))).map (fun v => v.cutTo (awaited v.index))
    let s := s.setPilot p { x with q := { x.q with run := none, inRoutine := false },
                                   leg := { x.leg with ending := 3, results := cut, acts := [] } }
    let s := s.fput fPLT_LEG_STATUS_trap_cause p (if code = 7 then cause else 0)
    let s := (s.closeLeg p code (index.getD (x.leg.begun + 2 ^ 64 - 1))).settle p
    if (s.pilot p).leg.results = [] then (s.finishLeg p).endJob x.job .ok else s

/-- A leg that waits in its slip window ends before it started (R61, R234's rows): the pins park. An expiry that is a fault ends
it at S = N + W × D + O × D; the end reading of a start that fails otherwise is free (assumption 56). -/
def State.killStart (s : State) (p code : Nat) : State :=
  let x := s.pilot p
  let s := s.parkPins (s.pilotPins p)
  let start := match x.leg.slip with
    | some w => if code = 9 then w.hi + w.offset else x.leg.s88
    | none => x.leg.s88
  let s := s.setLeg p { x.leg with slip := none, ending := 3, s88 := start % 2 ^ 88 }
  let s := s.closeLeg p code (2 ^ 64 - 1)
  let s := if code = 9 then s.fput fPLT_LEG_FRAC_fraction p (start % fracOne)
    else
      let r := s.fresh.2.toNat
      let s := (s.fresh.1.fput fPLT_LEG_E_cycles p r).fput fPLT_LEG_FRAC_fraction p (r % fracOne)
      s.setPilot p { s.pilot p with e88 := (r * fracOne + r % fracOne) % 2 ^ 88 }
  (s.finishLeg p).endJob x.job .ok

/-- Every running leg that is timed by a meridian ends (R43, R44). -/
def State.killOnMer (s : State) (m code : Nat) : State :=
  (List.range 16).foldl (fun s p => if (s.pjob p).meridian = m ∧ s.legRuns p then s.killLeg p code 0 else s) s

/-- Every leg start that waits in its slip window on a meridian fails (R61). -/
def State.killStartsOnMer (s : State) (m code : Nat) : State :=
  (List.range 16).foldl (fun s p =>
    if (s.pjob p).meridian = m ∧ (s.pilot p).st = .awaiting ∧ (s.pilot p).leg.slip.isSome then s.killStart p code else s) s

/-! ### Changes of a meridian's rate (R29, R105) -/

/-- Edges still to come at new instants: each at its own reading, no closer than 40 ps to the one before (R102). -/
def retimeEdges (m : Meridian) (desk : Int) (now : Nat) (prev : Option Nat) : List Edge → List Edge
  | [] => []
  | e :: r =>
    match (if e.time ≤ now then none else m.edgeTime e.at88) with
    | none => e :: retimeEdges m desk now (some e.time) r
    | some u =>
      let first := match prev with | some u => u + 40 * unitsPerPs | none => 0
      let t := max (max (shiftTime u desk) now) first
      { e with time := t, moved := e.moved || decide (max (shiftTime u desk) now < first) } :: retimeEdges m desk now (some t) r

/-- Strobes still to open or close at new instants, under R102's order; an offset-0 sample has no deskew (R106, R203). -/
def retimeSamples (m : Meridian) (desk : Int) (now : Nat) (prev : Option (Nat × Nat)) : List Sample → List Sample
  | [] => []
  | a :: r =>
    let place (at88 : Nat) : Nat := match m.edgeTime at88 with
      | some t => shiftTime t desk
      | none => a.opens
    if a.strobe = false then
      { a with opens := if a.opens ≤ now then a.opens else ((m.instantOf a.open88).getD a.opens),
               closes := if a.closes ≤ now then a.closes else ((m.instantOf a.close88).getD a.closes) } ::
        retimeSamples m desk now prev r
    else
      let first := match prev with | some (o, c) => max (o + 40 * unitsPerPs) c | none => 0
      let late := first - place a.open88
      let o := if a.opens ≤ now then a.opens else max now (place a.open88 + late)
      let c := if a.closes ≤ now then a.closes else max o (place a.close88 + late)
      { a with opens := o, closes := c, moved := a.moved || (decide (now < a.opens) && decide (0 < late)) } ::
        retimeSamples m desk now (some (o, c)) r

/-- How many of a list are moved. -/
def movedEdges (es : List Edge) : Nat := (es.filter (·.moved)).length
/-- How many strobes of a list are moved. -/
def movedSamples (ss : List Sample) : Nat := (ss.filter (·.moved)).length

/-- A pin's edges and strobes still to come keep their readings when the rate of their meridian changes, and so move in seconds (R29,
R42, R105); those that R102 then moves for the first time count. -/
def State.retimePin (s : State) (m n : Nat) : State :=
  let x := s.pin n
  let es := retimeEdges (s.mer m) (s.drvDeskew n) s.now none x.edges
  let ss := retimeSamples (s.mer m) (s.cmpDeskew n) s.now none x.samples
  let lastT := match es.getLast? with | some e => some e.time | none => x.lastTrans
  let last := (ss.filter (·.strobe)).getLast?
  (s.setPin n { x with edges := es, samples := ss, lastTrans := lastT,
                       lastOpen := match last with | some a => some a.opens | none => x.lastOpen,
                       lastClose := match last with | some a => a.closes | none => x.lastClose }).crowded n
    (movedEdges es + movedSamples ss - movedEdges x.edges - movedSamples x.samples)

/-- Every pin of a running leg on a meridian. -/
def State.retime (s : State) (m : Nat) : State :=
  (List.range 48).foldl (fun s n => match s.pinLeg n with
    | some p => if (s.pjob p).meridian = m then s.retimePin m n else s
    | none => s) s

/-- A meridian with a new rate of counting: what is placed on it moves with it. -/
def State.moveMer (s : State) (m : Nat) (x : Meridian) : State := (s.setMer m x).retime m

end Sys2Proof.Machine
end

