-- ==== Sys2Proof/Machine/Traps.lean ====
section
/-! DEFINITION. Micro-traps (R150, R172 to R177): the trap frame, fatal and resumable causes, deferral, the trap service and its
resumption; pre-emption at a leg boundary, the context save area and its restoration (R221 to R227). -/

namespace Sys2Proof.Machine

/-! ### Pinned loop bodies (R190) -/

/-- The pinned span after a body joins it (R190). -/
def pinSpan (ls : List LoopLevel) : Nat :=
  let held := ls.filter (fun l => decide (l.pinLo < l.pinHi))
  (held.map (·.pinHi)).foldl max 0 - (held.map (·.pinLo)).foldl min ((held.map (·.pinHi)).foldl max 0)

/-- PLT_STRM_STAT.pinned and the floor follow the loops (R189, R190). -/
def State.showPins (s : State) (p : Nat) : State := (s.fput fPLT_STRM_STAT_pinned p (pinSpan (s.pilot p).q.loops)).setFloor p

/-- A loop level on a counter with its top's branch-table entry: its body is pinned when the span of the levels stays within 64 MiB
(R138, R190). -/
def pinLevel (rb c b e : Nat) (ls : List LoopLevel) : LoopLevel :=
  let lo := bits e 127 64 * rb
  let lv : LoopLevel := ⟨c, b, lo, lo + bits e 223 192 * rb⟩
  if pinSpan (ls ++ [lv]) ≤ 67108864 then lv else ⟨c, b, 0, 0⟩

/-- The levels of a restored context are pinned again, outermost first; a branch-table entry that cannot be read pins nothing. -/
def State.repin (s : State) (p : Nat) : State :=
  let s := (s.pilot p).q.loops.zipIdx.foldl (fun s e =>
    let r := s.branchEntry p e.1.top
    let q := (r.1.pilot p).q
    match r.2 with
    | .done bs => r.1.setSeq p { q with
        loops := q.loops.take e.2 ++ pinLevel (hRowBytes (r.1.pilot p).hdr) e.1.counter e.1.top (ofBytes bs) (q.loops.take e.2) ::
          q.loops.drop (e.2 + 1) }
    | _ => r.1) s
  s.showPins p

/-! ### Suspension (R222 to R227) -/

/-- The 512 words of the context save area but the last (R227). -/
def State.contextWords (s : State) (p : Nat) : List Nat :=
  let x := s.pilot p
  let calls := (List.range 16).flatMap (fun k => match x.q.calls[k]? with | some (i, r, c) => [i, r, c] | none => [0, 0, 0])
  let vs := (List.range 8).map (fun k => nget 0 k x.q.v)
  let ff := [(s.rd .PLT_FF_STAT p).toNat, (s.rd .PLT_FF_INDEX p).toNat, (s.rd .PLT_FF_MASK p).toNat, (s.rd .PLT_FF_CYC p).toNat]
  let strm := [(s.rd .PLT_STRM_LO p).toNat, (s.rd .PLT_STRM_HI p).toNat, (s.rd .PLT_STRM_FLOOR p).toNat]
  let j := s.pjob p
  let tail := [wrapOffset (j.flag 8) j.tcBytes x.str.tcNext 256, wrapOffset (j.flag 9) j.ctBytes x.str.ctNext 32, bits (s.rd .PLT_CAP_STAT p).toNat 3 0, x.e88 / fracOne, x.e88 % fracOne,
    x.dropPersist, x.maskNext, x.legsDone, x.str.total, x.str.ct]
  s.frameWords p 0 false false 0 0 0 ++ [crc32c (wordBytes (s.frameWords p 0 false false 0 0 0)) + 2 ^ 32] ++
    calls ++ vs ++ ff ++ strm ++ tail ++ List.replicate 406 0

/-- The running job is suspended at its leg boundary and the Pilot passes to the job that asked (R222, R224, R226). A save that
fails ends the suspended job with CONTEXT_LOST. -/
def State.suspend (s : State) (p : Nat) : State :=
  let x := s.pilot p
  match x.preempt with
  | none => s
  | some k =>
    let j := x.job
    let job := s.job j
    let s := s.parkPins (s.pilotPins p)
    -- a job that waits for its next leg resumes at that LEG_START (assumption 26)
    let s := if x.st = .awaiting then s.setSeq p { x.q with pc := x.q.pc - 1 } else s
    let ws := s.contextWords p
    let last := crc32c (wordBytes ws) + 2 ^ 32 + j * 2 ^ 40
    let r := s.dvaWrite p (portCP (p / 4)) .realTime job.aspace job.ctx (wordBytes (ws ++ [last]))
    -- site drops for its next leg stay with the job, and so does what its arm has recorded (R199, R218, R220)
    let s := r.1.settleWrites.setJob j { job with st := .suspended, lastIndex := s.fget fPLT_LEG_INDEX_index p, lastE := x.e88,
                                                  drops := Nat.lor job.drops (Nat.lor x.dropNext x.dropPersist), ffSites := x.ffSites }
    let y := s.pilot p
    let s := (s.bump fPLT_SUSP_preempt_count p).setPilot p { y with st := .noJob, preempt := none }
    match r.2 with
    | some f => ((s.recordFault f).endJob j .contextLost).giveJob p k
    | none =>
      let s := (s.dropLegStarts j .jobSuspended).endEvent p j 4 0
      (s.setPilot p { s.pilot p with suspended := y.suspended ++ [j] }).giveJob p k

/-- The suspended job that a Pilot restores first: highest priority, then suspended first (R225). -/
def State.restoreFirst (s : State) (p : Nat) : Option Nat :=
  (s.pilot p).suspended.foldl (fun b j => match b with
    | none => some j
    | some k => if (s.job k).priority < (s.job j).priority then some j else some k) none

/-- The suspended jobs of a Pilot in restore order (PLT_SUSP_LIST). -/
def State.restoreOrder (s : State) (p : Nat) : List Nat :=
  (List.range 16).flatMap (fun k => (s.pilot p).suspended.filter (fun j => (s.job j).priority + k == 15))

/-- The sequencer state that words 0 to 104 of a context give back (R225, R227). -/
def State.restoreWords (s : State) (p : Nat) (ws : List Nat) : State :=
  let w (k : Nat) : Nat := ws.getD k 0
  let half (base k : Nat) : Nat := if k % 2 = 0 then bits (w (base + k / 2)) 31 0 else bits (w (base + k / 2)) 63 32
  let x := s.pilot p
  let put (n base : Nat) : Bank Nat Nat := (List.range n).foldl (fun b k => nset 0 k (half base k) b) []
  let depth := bits (w 15) 4 0
  let levels : List LoopLevel := (List.range (bits (w 12) 3 0)).map (fun k =>
    ⟨bits (w 12) (6 + 3 * k) (4 + 3 * k), bits (w (13 + k / 4)) (16 * (k % 4) + 15) (16 * (k % 4)), 0, 0⟩)
  let q : Seq := { x.q with
    upc := bits (w 0) 13 0, opr := w 2, pc := w 3, row := w 4, scan := w 5, next := 0, waitCount := bits (w 7) 63 32, lc := put 8 8 }
  let q := { q with a := put 8 16, u := put 7 20, odoCmp := w 24 * fracOne }
  let q := { q with
    z := bitAt (w 15) 5, n := bitAt (w 15) 6, c := bitAt (w 15) 7, bank := bits (w 15) 8 8, tset := bits (w 15) 19 9 }
  let q := { q with
    failGroup := bits (w 15) 22 20, calls := (List.range depth).map (fun k => (w (32 + 3 * k), w (33 + 3 * k), w (34 + 3 * k))) }
  let q := { q with v := (List.range 8).foldl (fun b k => nset 0 k (bits (w (80 + k)) 47 0) b) [], loops := levels, run := none }
  let str := { x.str with
    fifoLo := w 4 * hRowBytes x.hdr, tcNext := w 95, ctNext := w 96, total := w 103, ct := w 104, flags := bits (w 97) 1 0 }
  let y := { x with
    q := q, str := str, e88 := w 98 * fracOne + bits (w 99) 23 0, dropPersist := w 100, maskNext := w 101, legsDone := w 102 }
  let s := s.setPilot p { y with st := .between, resumed := true }
  let s := s.wr .PLT_MATCH_STAT p 0 0
  let s := (s.fput fPLT_MATCH_STAT_issued p (bits (w 25) 20 0)).fput fPLT_MATCH_STAT_m p (bits (w 25) 41 21)
  let s := (((s.wr .PLT_FF_STAT p 0 (BitVec.ofNat 64 (w 88))).wr .PLT_FF_INDEX p 0 (BitVec.ofNat 64 (w 89))).wr
    .PLT_FF_MASK p 0 (BitVec.ofNat 64 (w 90))).wr .PLT_FF_CYC p 0 (BitVec.ofNat 64 (w 91))
  let s := ((s.wr .PLT_STRM_LO p 0 (BitVec.ofNat 64 (w 92))).wr .PLT_STRM_HI p 0 (BitVec.ofNat 64 (w 93))).wr
    .PLT_STRM_FLOOR p 0 (BitVec.ofNat 64 (w 94))
  s.wr .PLT_CAP_STAT p 0 (BitVec.ofNat 64 (setBits (s.rd .PLT_CAP_STAT p).toNat 3 0 (w 97)))

/-- A Pilot takes a suspended job back, with its route (R225). -/
def State.takeBack (s : State) (p j : Nat) : State × Load :=
  let x := s.pilot p
  let job := s.job j
  let s := s.setPilot p { st := .context, job := j, suspended := x.suspended.filter (· ≠ j), maskNext := job.maskInit }
  let s := s.setStr p { (s.pilot p).str with ctQ := x.str.ctQ, markers := x.str.markers }
  s.loadRoute p j

/-- A context of 512 words is whole and the job's (R225, R226). -/
def contextGood (bs : List Byte) (j : Nat) : Bool :=
  let last := ((List.range 512).map (fun k => ofBytes ((bs.drop (8 * k)).take 8))).getD 511 0
  decide (bits last 31 0 = crc32c (bs.take 4088)) && bitAt last 32 && decide (bits last 47 40 = j)

/-- A context restored: the job is between legs again, with the masks and drops asked for meanwhile (R225, R229). -/
def State.restoreJob (s : State) (p j : Nat) (bs : List Byte) : State :=
  let s := (s.restoreWords p ((List.range 512).map (fun k => ofBytes ((bs.drop (8 * k)).take 8)))).repin p
  let b := s.job j
  let y := s.pilot p
  let s := s.setPilot p { y with maskNext := b.mask.getD y.maskNext, dropNext := b.drops, ffSites := b.ffSites,
                                 dropPersist := if b.flag 4 then Nat.lor y.dropPersist b.drops else y.dropPersist }
  let s := s.setJob j { b with st := .running, mask := none, drops := 0 }
  s.jobEvent p j 5 0 ((s.pilot p).e88 / fracOne) ((s.pilot p).e88 % fracOne) 0

/-- JOB_RESTORE: a Pilot whose job has ended restores its suspended job of highest priority; the job is then between legs, or
has ended with CONTEXT_LOST (R225, R226). -/
def State.doJobRestore (s : State) (p : Nat) : State :=
  if (s.pilot p).st ≠ .noJob ∨ s.acceptedJobs.any (fun e => e.2.pilot == p && e.2.st == .awaiting) then s
  else match s.restoreFirst p with
  | none => s
  | some j =>
    let job := s.job j
    match s.takeBack p j with
    | (s, .fault f) => (s.recordFault f).endJob j .contextLost
    | (s, .poison) => s.endJob j .contextLost
    | (s, .done) =>
      let r := s.dvaRead p (portCR (p / 4)) job.aspace job.ctx 4096
      match r.2 with
      | .done bs =>
        if contextGood bs j then r.1.restoreJob p j bs else r.1.endJob j .contextLost
      | .fault f => (r.1.recordFault f).endJob j .contextLost
      | .poison => r.1.endJob j .contextLost

/-! ### Taking a micro-trap (R173, R175) -/

/-- The trap service is left: its frame is invalid, and the Pilot goes on where the trap found it: the trapped word runs again, and one
that a breakpoint stopped does not stop again; a deferred cause was an earlier word's (R174, R175); a load of its route begins again.
A job whose last leg has ended then ends, and a pre-emption that waited follows (R175, R176, R222). -/
def State.resumeTrap (s : State) (p : Nat) : State :=
  let x := s.pilot p
  if x.st = .trap then
    let back := if x.trapFrom = .awaiting ∨ x.trapFrom = .noJob then .awaiting else .between
    let y := { x with st := back, lastLeg := false, q := { x.q with passBrk := decide (x.trapWait = cBreak) && x.trapNext } }
    let s := (s.dropFrame p x.trapFrame).setPilot p y
    if x.trapFrom = .noJob then
      let s := s.takeRoute p
      match (s.pilot p).st, x.preempt with
      | .noJob, some k => s.giveJob p k
      | _, _ => s
    else if x.lastLeg then s.endJob x.job .ok
    else if x.preempt.isSome then s.suspend p
    else s
  else s

/-- An entry of the Pilot's resume queue ends the service's wait (R173, R174). -/
def State.tryResume (s : State) (p : Nat) : State :=
  if (s.pilot p).st = .trap ∧ (s.pilot p).trapWait ≠ cUcodeUe then
    match s.qTake (48 + p) with
    | some (_, s) => s.resumeTrap p
    | none => s
  else s

/-- A fatal micro-trap (R173): the frame is kept; the leg ends with end code 7 and its pins park, or outside a leg the job ends
and its pins keep their idle state. -/
def State.fatalTrap (s : State) (p cause : Nat) (detail : Nat := 0) : State :=
  let inLeg := s.legRuns p
  let v0 := s.fbit fPLT_TRAP_STAT_frame0_valid p
  let v1 := s.fbit fPLT_TRAP_STAT_frame1_valid p
  let cause' := if v0 ∧ v1 then cTrapNest else cause
  let ws := s.frameWords p cause true inLeg detail 0 0
  let s := if v0 ∧ v1 then s
    else if v0 then (s.saveFrame p 1 ws).fput fPLT_TRAP_STAT_frame1_valid p 1
    else (s.saveFrame p 0 ws).fput fPLT_TRAP_STAT_frame0_valid p 1
  let s := ((s.fput fPLT_TRAP_STAT_last_cause p cause').bump fPLT_TRAP_STAT_trap_count p).countFix 19
  if inLeg then s.killLeg p 7 cause' else s.endJob (s.pilot p).job .ok

/-- A resumable micro-trap outside a leg: the frame, the trap report to the job's fault queue, and the service's wait (R173). A
trap that finds both frames valid is trap_nest, which is fatal. -/
def State.resumableTrap (s : State) (p cause : Nat) (detail dva space : Nat) (next : Bool := true) : State :=
  let v0 := s.fbit fPLT_TRAP_STAT_frame0_valid p
  let v1 := s.fbit fPLT_TRAP_STAT_frame1_valid p
  if v0 ∧ v1 then s.fatalTrap p cause detail
  else (s.trapService p (if v0 then 1 else 0) cause detail dva space next).tryResume p

/-- A breakpoint: taken outside a leg, deferred inside one (R175, R176). -/
def State.breakTrap (s : State) (p : Nat) : State :=
  if s.legRuns p then
    let s := s.fput fPLT_TRAP_PEND_pending p (setBit (s.fget fPLT_TRAP_PEND_pending p) 1 true)
    s.fput fPLT_LEG_STATUS_deferred p 1
  else s.resumableTrap p cBreak (s.pilot p).q.upc 0 0

/-- A fault of an instruction, table or stream fetch: inside a leg nothing happens but Chart's record, and issue stops; outside it is a
resumable trap (R172, R347). -/
def State.fetchFault (s : State) (p : Nat) (f : FaultSlot) : State :=
  let s := (s.raiseFault { f with early := false, blocking := true }).1
  if s.legRuns p then s else s.resumableTrap p cChart f.kind f.dva f.space

/-- A fetch comes back poisoned: inside a leg its row is never issued; outside, the job ends with MEM_POISON, and its pins take their
idle state (R321). -/
def State.fetchPoison (s : State) (p : Nat) : State := if s.legRuns p then s else s.endJob (s.pilot p).job .memPoison

/-- The boundary at which a leg has ended by END_LEG: a deferred trap is taken first; then the job ends when that was its last leg, or
a pre-emption follows (R175, R176, R222). -/
def State.boundary (s : State) (p : Nat) (last : Bool) : State :=
  let pend := s.fget fPLT_TRAP_PEND_pending p
  if pend ≠ 0 then
    let s := (s.fput fPLT_TRAP_PEND_pending p 0).setPilot p { s.pilot p with lastLeg := last }
    -- the cause arose at an earlier word: a breakpoint on the next one still stops it (R174)
    s.resumableTrap p cBreak (s.pilot p).q.upc 0 0 false
  else if last then s.endJob (s.pilot p).job .ok
  else if (s.pilot p).preempt.isSome then s.suspend p
  else s

/-! ### The rows of the command table -/

/-- JOB_RESTORE (R225). -/
def execJobRestore (p : PilotNo) (s : State) : Host.Outcome State Fault Refusal := .next (s.doJobRestore p.val)

end Sys2Proof.Machine
end

