-- ==== Sys2Proof/Machine/Playout.lean ====
section
/-! DEFINITION. Playout and refill: the vector stream and its windows (R182, R187 to R191), the target buffer (R130), fill
elements, and the waypoint check with its holds (R193 to R196, R348). -/

namespace Sys2Proof.Machine

/-- A fault of a fetch ahead of its need: in a leg it is lookahead's, and no access waits yet; outside it is a resumable trap (R172,
R347). -/
def State.prefetchFault (s : State) (p : Nat) (f : FaultSlot) : State :=
  if s.legRuns p then (s.raiseFault { f with early := true, blocking := false }).1 else s.fetchFault p f

/-- The bytes of the whole vector stream. -/
def vecBytes (h : Nat) : Nat := hVecRows h * hRowBytes h

/-- The end of the rows that lie wholly below the end of what is resident (R189, R191). -/
def State.rowsEnd (s : State) (p : Nat) : Nat :=
  let h := (s.pilot p).hdr
  if (s.pjob p).streams then min (vecBytes h) (s.fget fPLT_STRM_HI_hi p / hRowBytes h * hRowBytes h) else vecBytes h

/-- Bytes of the vector stream read through the cluster port; none when they are not resident or do not come (R189, R347). A
ring's bytes are read up to its end and from its start. -/
def State.readVec (s : State) (p x n : Nat) : State × Option (List Byte) :=
  if n = 0 then (s, some [])
  else if s.resident p x n = false then (s, none)
  else
    let ring := strPages (s.pilot p).strDesc * 65536
    let first := if (s.pjob p).streams then min n (ring - x % ring) else n
    let part (s : State) (x n : Nat) : State × Option (List Byte) := match s.pilotRead p (s.vecDva p x) n with
      | (s, .done bs) => (s, some bs)
      | (s, .fault f) => (s.prefetchFault p f, none)
      | (s, .poison) => (s.fetchPoison p, none)
    match part s x first with
    | (s, none) => (s, none)
    | (s, some a) =>
      if first = n then (s, some a)
      else match part s (x + first) (n - first) with
        | (s, some b) => (s, some (a ++ b))
        | (s, none) => (s, none)

/-! ### The target buffer (R130) -/

/-- A filled slot of a target. -/
def Pilot.slotOf (x : Pilot) (instr row scan : Nat) : Option Slot :=
  x.str.slots.find? (fun k => k.instr == instr && k.row == row && k.scan == scan)

/-- The targets that a pending branch or a hold waits for, without a slot as yet, the last on the way first (R130, R195). -/
def Pilot.missing (x : Pilot) : List (Nat × Nat × Nat) :=
  let want := match x.q.run with
    | some r => (match r.after with
      | .branch i row c => [(i, row, c)]
      | _ => x.holdTgts)
    | none => []
  (want.filter (fun k => (x.slotOf k.1 k.2.1 k.2.2).isNone)).reverse

/-! ### Lookahead (R340) -/

/-- The walks that a Pilot's lookahead wants: the pages at the fetch positions of the vector, instruction and scan streams and at the write
positions of its capture regions, with the next 8 of each; and for every target whose slot is filled, or is waited for, its vector page
with the next 7, and its instruction and scan pages (R340). A ring's pages go on from its start. -/
def State.pilotAhead (s : State) (p : Nat) : List WalkReq :=
  let x := s.pilot p
  let h := x.hdr
  let j := s.pjob p
  let image (off len pos n : Nat) : List WalkReq := s.aheadWalks p j.aspace (j.route + off + pos) (j.route + off + len) n false
  let ring (lo n : Nat) : List WalkReq := s.aheadWalks p j.aspace lo (strBase x.strDesc + strPages x.strDesc * 65536) n false
  let rows (pos n : Nat) : List WalkReq :=
    if j.streams then
      let first := ring (s.vecDva p pos) n
      first ++ ring (strBase x.strDesc) (n - first.length)
    else image (hVecOff h) (vecBytes h) pos n
  let region (on wrap : Bool) (base size off unit : Nat) : List WalkReq :=
    if on then s.aheadWalks p j.aspace (base + wrapOffset wrap size off unit) (base + size) 9 true else []
  let targets := (x.str.slots.map (fun k => (k.instr, k.row, k.scan)) ++ x.missing).flatMap (fun k =>
    rows (k.2.1 * hRowBytes h) 8 ++ image (hInstrOff h) (8 * hInstrWords h) (8 * k.1) 1 ++
      image (hScanOff h) (hScanBytes h) (k.2.2 / 2) 1)
  rows (x.str.fifoLo + x.str.fifo.length) 9 ++ image (hInstrOff h) (8 * hInstrWords h) (8 * x.q.pc) 9 ++
    image (hScanOff h) (hScanBytes h) (x.q.scan / 2) 9 ++ targets ++
    region (j.flag 6) (j.flag 8) j.tcBase j.tcBytes (x.str.plane + x.leg.begun / 1024 * j.groupBytes) 256 ++
    region (j.flag 7) (j.flag 9) j.ctBase j.ctBytes x.str.ctNext 32

/-- A Pilot's TLB marks the entries of its lookahead set, which never evict one another, and no others (R340). -/
def State.markAhead (s : State) (p : Nat) (set : List WalkReq) : State :=
  let inSet (e : TlbEntry) : Bool := set.any (fun w => w.space == e.space && w.dva / 2 ^ e.pageBits * 2 ^ e.pageBits == e.base)
  { s with chart := { s.chart with tlb := s.chart.tlb.map (fun e => if e.tlb = p then { e with ahead := inSet e } else e) } }

/-- A Pilot's lookahead marks its set and asks for the walks that it lacks (R340, R341). -/
def State.lookAhead (s : State) (p : Nat) : State :=
  if (s.pilot p).st = .noJob then s else (s.markAhead p (s.pilotAhead p)).askWalks (s.pilotAhead p)

/-! ### Branches and slots (R129, R130) -/

/-- The Pilot goes to a target whose slot is filled, or between legs: the three streams move together (R129), and vectors and
instructions come from the slot. It becomes the most recently used. -/
def State.goTo (s : State) (p instr row scan : Nat) : State :=
  let x := s.pilot p
  let rb := hRowBytes x.hdr
  let q := { x.q with pc := instr, row := row, scan := scan, run := none, jumped := true }
  match x.slotOf instr row scan with
  | some k =>
    let str := { x.str with fifoLo := row * rb, fifo := k.bytes, codeLo := instr, code := k.code, slots := x.str.slots.erase k ++ [k] }
    (s.setPilot p { x with q := q, str := str }).releaseIfDue p
  | none =>
    let keep := decide (x.str.fifoLo = row * rb)
    let str := { x.str with fifoLo := row * rb, fifo := if keep then x.str.fifo else [], code := [] }
    (s.setPilot p { x with q := q, str := str }).releaseIfDue p

/-- A branch is taken: at once when its slot is filled or outside a leg, else issue stops until it is (R130). -/
def State.takeBranch (s : State) (p instr row scan : Nat) : State :=
  let x := s.pilot p
  if s.legRuns p = false ∨ (x.slotOf instr row scan).isSome then s.goTo p instr row scan
  else s.setSeq p { x.q with run := some { src := .rows, left := 0, after := .branch instr row scan } }

/-- A branch-table entry as instruction, row and scan offset (R128). -/
def entryTarget (e : Nat) : Nat × Nat × Nat := (bits e 39 0, bits e 127 64, bits e 191 128)

/-- The targets named by instruction words (R130): their branch-table indices. -/
def namedTargets (ws : List Nat) : List Nat :=
  (ws.filter (fun w => let op := bits w 63 56; op == 0x10 || op == 0x20 || op == 0x21 || op == 0x24 || op == 0x25 ||
    op == 0x28 || op == 0x2B)).map (fun w => bits w 47 32)

/-- The branch-table indices that want a slot: active loops' tops and the targets of the instruction buffer, which holds 16 KiB
from the present instruction on. -/
def State.wantedEntries (s : State) (p : Nat) : State × List Nat :=
  let x := s.pilot p
  let n := min 2048 (hInstrWords x.hdr - x.q.pc)
  let r := s.pilotRead p ((s.pjob p).route + hInstrOff x.hdr + 8 * x.q.pc) (8 * n)
  let ws := match r.2 with
    | .done bs => (List.range n).map (fun k => ofBytes ((bs.drop (8 * k)).take 8))
    | _ => []
  (r.1, x.q.loops.map (·.top) ++ namedTargets ws)

/-- The first 1 KiB of instruction stream at a target (R130). -/
def State.readCode (s : State) (p instr : Nat) : State × Option (List Byte) :=
  let h := (s.pilot p).hdr
  let a := (s.pjob p).route + hInstrOff h + 8 * instr
  match s.pilotRead p a (min 1024 (8 * (hInstrWords h - instr))) with
  | (s, .done bs) => (s, some bs)
  | (s, .fault f) => (s.prefetchFault p f, none)
  | (s, .poison) => (s.fetchPoison p, none)

/-- A slot is filled for a target, if the first 4 KiB of its vector stream and the first 1 KiB of its instruction stream can be read;
the least recently used of 64 makes room (R130). The floor follows (R189). -/
def State.fillSlot (s : State) (p instr row scan : Nat) : State :=
  let x := s.pilot p
  let rb := hRowBytes x.hdr
  if (x.slotOf instr row scan).isSome then s
  else match s.readVec p (row * rb) (min 4096 (vecBytes x.hdr - row * rb)) with
    | (s, none) => s
    | (s, some bs) => match s.readCode p instr with
      | (s, none) => s
      | (s, some code) =>
        let str := (s.pilot p).str
        let old := if str.slots.length < 64 then str.slots else str.slots.drop 1
        ((s.setStr p { str with slots := old ++ [⟨instr, row, scan, bs, code⟩] }).setFloor p).lookAhead p

/-- The first wanted branch-table entry that has no slot is filled. -/
def State.fillEntry (s : State) (p : Nat) : List Nat → State
  | [] => s
  | b :: rest => match s.branchEntry p b with
    | (s, .done bs) =>
      let (i, r, c) := entryTarget (ofBytes bs)
      if ((s.pilot p).slotOf i r c).isSome then State.fillEntry s p rest else s.fillSlot p i r c
    | (s, _) => State.fillEntry s p rest

/-- SLOT_FILL: a target-buffer slot finishes filling (R130): the targets of a pending branch or a hold first, then return points,
then loop tops and the targets named in the instruction buffer. -/
def State.doSlotFill (s : State) (p : Nat) : State :=
  if (s.pilot p).st = .noJob then s
  else match (s.pilot p).missing with
    | (i, r, c) :: _ => s.fillSlot p i r c
    | [] =>
      match (s.pilot p).q.calls.find? (fun k => ((s.pilot p).slotOf k.1 k.2.1 k.2.2).isNone) with
      | some (i, r, c) => s.fillSlot p i r c
      | none =>
        let w := s.wantedEntries p
        w.1.fillEntry p (w.2.filter (fun b => decide (b < hBranches (s.pilot p).hdr)))

/-- PLAYOUT_FETCH: 256 bytes of vector stream, or what is left of it or of its resident rows, when they fit every playout FIFO: 65,536
codes, a row begun being one (R181, R182, R191); lookahead goes on from there (R340). The next row found missing is kept for the release elements (R188). -/
def State.doPlayoutFetch (s : State) (p : Nat) : State :=
  let x := s.pilot p
  let rb := hRowBytes x.hdr
  if x.st = .noJob ∨ rb = 0 then s
  else
    let at' := x.str.fifoLo + x.str.fifo.length
    if at' < vecBytes x.hdr ∧ s.resident p at' (rb - at' % rb) = false then s.setStr p { x.str with need := some (at' / rb * rb) }
    else
      let n := min 256 (s.rowsEnd p - at')
      if ceilDiv (x.str.fifo.length + n) rb ≤ 65536 then
        match s.readVec p at' n with
        | (s, some bs) => (s.setStr p { (s.pilot p).str with fifo := (s.pilot p).str.fifo ++ bs, need := none }).lookAhead p
        | (s, none) => s
      else s

/-! ### Fill elements (R189) -/

/-- FILL_ELEMENT: the Pilot takes the oldest element of its fill queue: it extends or slides the window, re-bases it while holding
or between legs, or is discarded and counted. -/
def State.doFillElement (s : State) (p : Nat) : State :=
  let x := s.pilot p
  if x.st = .noJob ∨ (s.pjob p).streams = false then s
  else match s.qTake (strFillQ x.strDesc) with
    | none => s
    | some (e, s) =>
      let lo := bits e 63 0
      let hi := bits e 127 64
      let fl := s.floorOf p
      if (fl ≤ lo ∧ lo ≤ s.fget fPLT_STRM_HI_hi p) ∨ x.st = .holding ∨ s.legRuns p = false then
        (s.fput fPLT_STRM_LO_lo p lo).fput fPLT_STRM_HI_hi p hi
      else s.bump fPLT_STRM_STAT_fill_rejected p

/-! ### Waypoints (R193 to R196) -/

/-- The sequencer's position as the waypoint check follows it. -/
structure Follow where
  pc : Nat
  row : Nat
  scan : Nat
  loops : List (Nat × Nat × Nat)
  calls : List (Nat × Nat × Nat)
  alu : Bank Nat Nat
  /-- the targets branched to on the way, oldest first -/
  tgts : List (Nat × Nat × Nat)
  deriving DecidableEq, Repr

/-- The way goes on at a target. -/
def Follow.to (f : Follow) (t : Nat × Nat × Nat) : Follow := { f with pc := t.1, row := t.2.1, scan := t.2.2, tgts := f.tgts ++ [t] }

/-- Where the way of the stream goes after an instruction. -/
inductive Way where
  | stop
  | on (f : Follow)
  | branch (b : Nat) (f : Follow)
  deriving DecidableEq, Repr

/-- One instruction on the way (R193): those that issue rows, end the leg or run a routine stop it; folded control instructions and ALU
operations are followed as R136 has them. Loop levels are given as (counter, count, top); the innermost comes first. -/
def Follow.step (f : Follow) (w : Nat) : Way :=
  let a := bits w 50 48
  let b := bits w 47 32
  let n := bits w 31 0
  let v := nget 0 a f.alu
  let next := { f with pc := f.pc + 1 }
  match bits w 63 56 with
  | 0x01 | 0x02 | 0x27 | 0x28 | 0x41 | 0x42 | 0x90 => .stop
  | 0x10 => .on { next with loops := (a, n, b) :: f.loops }
  | 0x11 => match f.loops with
    | (c, k, top) :: rest => if 1 < k then .branch top { f with loops := (c, k - 1, top) :: rest } else .on { next with loops := rest }
    | [] => .stop
  | 0x20 => .branch b f
  | 0x21 => .branch b { f with calls := (f.pc + 1, f.row, f.scan) :: f.calls }
  | 0x22 => match f.calls with
    | t :: rest => .on ({ f with calls := rest }.to t)
    | [] => .stop
  | 0x26 => .branch (v % 65536) f
  | 0x29 => .on { next with alu := nset 0 a n f.alu }
  | 0x2A => .on { next with alu := nset 0 a ((v + n) % 2 ^ 32) f.alu }
  | 0x2B => if v = 0 then .on next else .branch b { f with alu := nset 0 a (v - 1) f.alu }
  | op => if 0xC0 ≤ op then .stop else .on next

/-- How many instructions the waypoint check follows: a way through more folded instructions than this ends where it then stands
(DESIGN CHOICE, assumption 82). -/
abbrev followLimit : Nat := 2 ^ 20

/-- The way up to the next instruction that issues a row (R193); it stops where a read fails or a branch leaves the table. -/
def State.followRow (s : State) (p : Nat) (f : Follow) : Nat → State × Follow
  | 0 => (s, f)
  | fuel + 1 =>
    let h := (s.pilot p).hdr
    if hInstrWords h ≤ f.pc then (s, f)
    else match s.pilotRead p ((s.pjob p).route + hInstrOff h + 8 * f.pc) 8 with
    | (s, .done bs) => match f.step (ofBytes bs) with
      | .stop => (s, f)
      | .on g => State.followRow s p g fuel
      | .branch b g =>
        if hBranches h ≤ b then (s, f)
        else match s.branchEntry p b with
          | (s, .done bs) => State.followRow s p (g.to (entryTarget (ofBytes bs))) fuel
          | (s, _) => (s, f)
    | (s, _) => (s, f)

/-- The way beyond a waypoint, from the Pilot's present position. -/
def State.rowBeyond (s : State) (p : Nat) : State × Follow :=
  let q := (s.pilot p).q
  s.followRow p ⟨q.pc, q.row, q.scan, q.loops.reverse.map (fun l => (l.counter, nget 0 l.counter q.lc, l.top)), q.calls.reverse, q.a, []⟩
    followLimit

/-- How many guard bytes there are from an offset of the stream on. -/
def Pilot.guardBytes (x : Pilot) (lo : Nat) : Nat := min (strGuard x.strDesc) (vecBytes x.hdr - lo)

/-- The guard bytes from a row are resident (R193, R195). -/
def State.guardResident (s : State) (p row : Nat) : Bool :=
  s.resident p (row * hRowBytes (s.pilot p).hdr) ((s.pilot p).guardBytes (row * hRowBytes (s.pilot p).hdr))

/-- A page of the guard bytes from a row has an outstanding fault (R348). -/
def State.guardFaulted (s : State) (p row : Nat) : Bool :=
  let lo := row * hRowBytes (s.pilot p).hdr
  let n := (s.pilot p).guardBytes lo
  decide (0 < n) && s.faults.any (fun e => e.2.source == p && e.2.space == (s.pjob p).aspace &&
    (List.range (n / 65536 + 2)).any (fun k => (s.vecDva p (lo + min (k * 65536) (n - 1))) / 65536 == e.2.dva / 65536))

/-- The waypoint check finds the stream long enough: the guard bytes are resident, and none of their pages has an outstanding fault (R193,
R348). -/
def State.guardOk (s : State) (p row : Nat) : Bool := s.guardResident p row && !s.guardFaulted p row

/-- A hold begins: release element with the first missing offset, and counts (R194). `tgts` are the targets on the way to the row; with
none, the stream goes on where it stands. -/
def State.beginHold (s : State) (p row : Nat) (after : After) (tgts : List (Nat × Nat × Nat)) : State :=
  let x := s.pilot p
  let lo := row * hRowBytes x.hdr
  let miss := if s.fget fPLT_STRM_LO_lo p ≤ lo ∧ lo < s.fget fPLT_STRM_HI_hi p then s.fget fPLT_STRM_HI_hi p else lo
  let q := { x.q with run := some { src := .hold, left := 1, after := after } }
  let tgts := if tgts = [] then [(x.q.pc, x.q.row, x.q.scan)] else tgts
  let s := s.setPilot p { x with st := .holding, q := q, holdVecs := 0, holdAt := some row, holdTgts := tgts,
                                 str := { x.str with need := some miss } }
  (s.release p).bump fPLT_HOLD_STAT_holds p

/-- A hold is over: the Pilot is in leg at the target of an absolute jump, or goes on with the sequential stream from its slot when
the FIFO was empty (R195). -/
def State.leaveHold (s : State) (p : Nat) (r : Run) : State :=
  let x := s.pilot p
  let s := s.setPilot p { x with st := .inLeg, holdAt := none, holdTgts := [], q := { x.q with run := none },
                                 str := { x.str with need := none } }
  match r.after with
  | .absolute i t => s.goTo p i t 0
  | _ =>
    match x.slotOf x.q.pc x.q.row x.q.scan with
    | some k =>
      if x.str.fifo.length < k.bytes.length then s.setStr p { (s.pilot p).str with fifoLo := x.q.row * hRowBytes x.hdr, fifo := k.bytes }
      else s
    | none => s

/-- A slot holds the first guard bytes: that of the last target on the way (R195). -/
def Pilot.holdFilled (x : Pilot) : Bool := x.holdTgts.getLast?.any (fun k => (x.slotOf k.1 k.2.1 k.2.2).isSome)

/-- HOLD_END: at a stride boundary the hold ends once the guard bytes are resident and the first 4 KiB are in a slot (R195). -/
def State.doHoldEnd (s : State) (p : Nat) : State :=
  let x := s.pilot p
  match x.st, x.holdAt, x.q.run with
  | .holding, some row, some r =>
    if s.guardResident p row ∧ x.holdFilled then s.leaveHold p r else s
  | _, _, _ => s

/-- HOLD_LIMIT: a hold that has reached its limit of hold vectors ends the leg with underrun (R196). -/
def State.doHoldLimit (s : State) (p : Nat) : State :=
  let x := s.pilot p
  let limit := s.fget fPLT_HOLD_LIMIT_limit p
  if x.st = .holding ∧ limit ≠ 0 ∧ limit ≤ x.holdVecs then s.killLeg p 4 0 (some x.q.next) else s

/-! ### The rows of the command table -/

/-- HOLD_END (R195). -/
def execHoldEnd (p : PilotNo) (s : State) : Host.Outcome State Fault Refusal := .next (s.doHoldEnd p.val)

/-- HOLD_LIMIT (R196). -/
def execHoldLimit (p : PilotNo) (s : State) : Host.Outcome State Fault Refusal := .next (s.doHoldLimit p.val)

/-- FILL_ELEMENT (R189). -/
def execFillElement (p : PilotNo) (s : State) : Host.Outcome State Fault Refusal := .next (s.doFillElement p.val)

/-- SLOT_FILL (R130). -/
def execSlotFill (p : PilotNo) (s : State) : Host.Outcome State Fault Refusal := .next (s.doSlotFill p.val)

/-- PLAYOUT_FETCH (R182). -/
def execPlayoutFetch (p : PilotNo) (s : State) : Host.Outcome State Fault Refusal := .next (s.doPlayoutFetch p.val)

end Sys2Proof.Machine
end

