-- ==== Sys2Proof/Machine/Route.lean ====
section
/-! DEFINITION. The vendor route instructions (R135 to R142, R144, R147, R190, R193): each takes the Pilot from one instruction
to the next; those that issue vectors set a run, which the strides then issue (Machine/Stride.lean). -/

namespace Sys2Proof.Machine

/-! ### Helpers of the instructions -/

/-- The instruction traps: it has had no effect, and the frame names it (R173). -/
def State.insTrap (s : State) (p cause : Nat) : State :=
  s.fatalTrap p cause

/-- The instruction counter moves on. -/
def State.stepPc (s : State) (p : Nat) : State := s.setSeq p { (s.pilot p).q with pc := (s.pilot p).q.pc + 1 }

/-- A run of vectors, after which the Pilot goes on. -/
def State.startRun (s : State) (p : Nat) (src : RunSource) (n : Nat) (after : After) : State :=
  let q := (s.pilot p).q
  s.setSeq p { q with run := some { src := src, left := n, after := after } }

/-- A branch-table entry read before anything acts on it. A fault of the read is met as any fetch fault, and gives none: what needed the
entry has had no effect, and is taken again (R173, R347). -/
def State.needEntry (s : State) (p b : Nat) : State × Option Nat :=
  match s.branchEntry p b with
  | (s, .done bs) => (s, some (ofBytes bs))
  | (s, .fault f) => (s.fetchFault p f, none)
  | (s, .poison) => (s.fetchPoison p, none)

/-- What an instruction does, and then its branch to a branch-table entry, together; an index beyond the table traps with a cause
(R129, R150, R173). -/
def State.branchActs (s : State) (p b cause : Nat) (act : State → State) : State :=
  if hBranches (s.pilot p).hdr ≤ b then s.insTrap p cause
  else match s.needEntry p b with
    | (s, some e) => let t := entryTarget e; (act s).takeBranch p t.1 t.2.1 t.2.2
    | (s, none) => s

/-- A branch to a branch-table entry. -/
def State.branchTo (s : State) (p b cause : Nat) : State := s.branchActs p b cause id

/-- Register Aa. -/
def State.aluReg (s : State) (p a : Nat) : Nat := nget 0 (a % 8) (s.pilot p).q.a
/-- Register Aa replaced. -/
def State.setAlu (s : State) (p a v : Nat) : State :=
  let q := (s.pilot p).q
  s.setSeq p { q with a := nset 0 (a % 8) (v % 2 ^ 32) q.a }

/-- What acts when the next period begins (R139). -/
def State.defer (s : State) (p : Nat) (d : Deferred) : State :=
  let x := s.pilot p
  s.setLeg p { x.leg with acts := x.leg.acts ++ [(x.q.next, d)] }

/-! ### Vectors -/

/-- NOP (R136). -/
def State.insNop (s : State) (p : Nat) : State := s.stepPc p

/-- VEC n (R136). -/
def State.insVec (s : State) (p n : Nat) : State :=
  if n = 0 then s.insTrap p cOperand else (s.stepPc p).startRun p .rows n .next

/-- RPT n (R136). -/
def State.insRpt (s : State) (p n : Nat) : State :=
  if n = 0 then s.insTrap p cOperand else (s.stepPc p).startRun p .repeatRow n .next

/-- PAD n (R136). -/
def State.insPad (s : State) (p n : Nat) : State :=
  if n = 0 then s.insTrap p cOperand else (s.stepPc p).startRun p .pad n .next

/-- The scan offset at which a SCAN starts (R141). -/
def scanStart (q : Seq) : Nat := ceilDiv q.scan 4 * 4

/-- SCAN s, n (R141). -/
def State.insScan (s : State) (p group n : Nat) : State :=
  if n = 0 ∨ hScanGroup (s.pilot p).hdr group = 0 then s.insTrap p cOperand
  else
    let s := s.stepPc p
    let s := s.setSeq p { (s.pilot p).q with scan := scanStart (s.pilot p).q }
    s.startRun p (.scan group) n .next

/-! ### Loops, calls and branches -/

/-- What stops a loop from opening on a counter with a count and a top (R138, R150). -/
def Pilot.loopBad (x : Pilot) (c n b : Nat) : Option Nat :=
  if n = 0 ∨ hBranches x.hdr ≤ b then some cOperand
  else if 8 ≤ x.q.loops.length ∨ x.q.loops.any (fun l => l.counter == c) then some cLoopDepth
  else none

/-- A loop opened on a counter with a count and a top, whose branch-table entry is e; its body is pinned (R138, R190). -/
def State.openLoop (s : State) (p c n b e : Nat) : State :=
  let x := s.pilot p
  let lv := pinLevel (hRowBytes x.hdr) c b e x.q.loops
  (s.setSeq p { x.q with lc := nset 0 c (n % 2 ^ 32) x.q.lc, loops := x.q.loops ++ [lv] }).showPins p

/-- The innermost loop closed and unpinned. -/
def State.closeLoop (s : State) (p : Nat) : State :=
  let q := (s.pilot p).q
  (s.setSeq p { q with loops := q.loops.dropLast }).showPins p

/-- LOOP c, b, n (R138, R190). -/
def State.insLoop (s : State) (p c b n : Nat) : State :=
  match (s.pilot p).loopBad c n b with
  | some cause => s.insTrap p cause
  | none => match s.needEntry p b with
    | (s, some e) => (s.openLoop p c n b e).stepPc p
    | (s, none) => s

/-- ENDL c (R136, R138). -/
def State.insEndl (s : State) (p c : Nat) : State :=
  let q := (s.pilot p).q
  match q.loops.getLast? with
  | none => s.insTrap p cLoopNest
  | some l =>
    if l.counter ≠ c then s.insTrap p cLoopNest
    else
      let v := (nget 0 c q.lc + 2 ^ 32 - 1) % 2 ^ 32
      let down (s : State) : State := s.setSeq p { (s.pilot p).q with lc := nset 0 c v q.lc }
      if v ≠ 0 then s.branchActs p l.top cOperand down else ((down s).closeLoop p).stepPc p

/-- JMP b (R136). -/
def State.insJmp (s : State) (p b : Nat) : State := s.branchTo p b cOperand

/-- CALL b (R138): the return point is what follows. -/
def State.insCall (s : State) (p b : Nat) : State :=
  let x := s.pilot p
  if hBranches x.hdr ≤ b then s.insTrap p cOperand
  else if 16 ≤ x.q.calls.length then s.insTrap p cStackOver
  else s.branchActs p b cOperand (fun s =>
    s.setSeq p { (s.pilot p).q with calls := x.q.calls ++ [(x.q.pc + 1, x.q.row, x.q.scan)] })

/-- RET (R138). -/
def State.insRet (s : State) (p : Nat) : State :=
  let q := (s.pilot p).q
  match q.calls.getLast? with
  | none => s.insTrap p cStackUnder
  | some (i, r, c) => (s.setSeq p { q with calls := q.calls.dropLast }).takeBranch p i r c

/-- JMP_IND a (R136, R150). -/
def State.insJmpInd (s : State) (p a : Nat) : State := s.branchTo p (s.aluReg p a % 65536) cTarget

/-- JMP_ABS a (R129, R136): a hold at the waypoint while the target is fetched. A target outside the instruction or vector stream
has no cause of its own in R150: the model raises target_undeclared (DESIGN CHOICE, assumption 66). -/
def State.insJmpAbs (s : State) (p a : Nat) : State :=
  let x := s.pilot p
  let i := s.aluReg p a
  let r := s.aluReg p (a + 1)
  if x.q.waypoint.isNone ∨ legStallable x.leg.entry = false ∨ hInstrWords x.hdr ≤ i ∨ hVecRows x.hdr < r then s.insTrap p cTarget
  else (s.stepPc p).beginHold p r (.absolute i r) [(i, r, 0)]

/-- JMP_ANZ a, b (R136). -/
def State.insJmpAnz (s : State) (p a b : Nat) : State :=
  if hBranches (s.pilot p).hdr ≤ b then s.insTrap p cOperand
  else if s.aluReg p a = 0 then s.stepPc p
  else s.branchActs p b cOperand (fun s => s.setAlu p a (s.aluReg p a - 1))

/-! ### Fail-dependent instructions (R143 to R147) -/

/-- FAIL_MARK (R144). -/
def State.insFailMark (s : State) (p : Nat) : State :=
  let x := s.pilot p
  (s.setLeg p { x.leg with failMark := x.q.next, fails := [] }).stepPc p

/-- JMP_FAIL and JMP_PASS (R144): the horizon pads, then the decision; without a covered vector no pads. -/
def State.failJump (s : State) (p : Nat) (onFail : Bool) (g b : Nat) : State :=
  let x := s.pilot p
  if hBranches x.hdr ≤ b then s.insTrap p cOperand
  else if x.q.next ≤ x.leg.failMark then (if onFail then s.stepPc p else s.branchTo p b cOperand)
  else (s.stepPc p).startRun p .pad (legHpad x.leg.entry) (.failBranch onFail g b (x.q.next - 1))

/-- JMP_FAIL g, b (R144). -/
def State.insJmpFail (s : State) (p g b : Nat) : State := s.failJump p true g b
/-- JMP_PASS g, b (R144). -/
def State.insJmpPass (s : State) (p g b : Nat) : State := s.failJump p false g b

/-- The body of a match moves into the match buffer (R147). -/
def State.moveBody (s : State) (p g b k limit : Nat) : State :=
  let x := s.pilot p
  let rb := hRowBytes x.hdr
  let rows := (List.range k).map (fun j => ofBytes ((x.str.fifo.drop (rb * j)).take rb))
  let m : MatchLoop := { k := k, limit := limit, group := g, branch := b, rows := rows, inBody := 0, ends := [], failed := [],
                         padding := false }
  let q := { x.q with row := x.q.row + k }
  let str := { x.str with fifo := x.str.fifo.drop (k * rb), fifoLo := (x.q.row + k) * rb }
  let s := s.setPilot p { x with q := q, str := str, leg := { x.leg with matchSt := some m } }
  (s.wr .PLT_MATCH_STAT p 0 0).releaseIfDue p

/-- The first iteration of a match begins (R147). -/
def State.loadMatch (s : State) (p g b k limit : Nat) : State :=
  ((s.moveBody p g b k limit).stepPc p).startRun p .matchBody k .matchLoop

/-- MATCH g, b, k, T (R147): the body's rows move into the match buffer, and iterations begin. The instruction is taken once all
its rows have been fetched. -/
def State.insMatch (s : State) (p g b k limit : Nat) : State :=
  let x := s.pilot p
  let rb := hRowBytes x.hdr
  if hBranches x.hdr ≤ b then s.insTrap p cOperand
  else if hVecRows x.hdr < x.q.row + k then s.insTrap p cStreamEnd
  else if x.str.fifo.length < k * rb ∨ x.str.fifoLo ≠ x.q.row * rb then s
  else s.loadMatch p g b k limit

/-- Bits of V taken from a free value (R143; assumption 27). -/
def State.freeBits (s : State) (p v mask : Nat) : State :=
  let q := (s.pilot p).q
  let old := nget 0 v q.v
  s.fresh.1.setSeq p { q with v := nset 0 v (old - Nat.land old mask + Nat.land s.fresh.2.toNat mask) q.v }

/-- PV_CAPT bit, v, m (R136, R143): the horizon pads, then the comparator bits of the last vector before the instruction. Before
any vector of the leg there are none, and the masked bits are free (assumption 27). -/
def State.insPvCapt (s : State) (p : Nat) (bit : Bool) (v mask : Nat) : State :=
  let x := s.pilot p
  if x.q.next = 0 then (s.freeBits p v mask).stepPc p
  else
    let i := x.q.next - 1
    let s := s.setLeg p { x.leg with keepIndex := some i }
    (s.stepPc p).startRun p .pad (legHpad x.leg.entry) (.pvCapt bit v mask i)

/-! ### ALU, state setting and reports -/

/-- ALU_SET a, imm (R136). -/
def State.insAluSet (s : State) (p a imm : Nat) : State := (s.setAlu p a imm).stepPc p
/-- ALU_ADD a, imm (R136). -/
def State.insAluAdd (s : State) (p a imm : Nat) : State := (s.setAlu p a (s.aluReg p a + imm)).stepPc p

/-- WAIT_ODO (R140): pads until the next period begins at or after S + t; a late wait is recorded, and with late_fault it is
fatal. -/
def State.insWaitOdo (s : State) (p : Nat) (lateFault : Bool) (t : Nat) : State :=
  let x := s.pilot p
  let want := ceilDiv t (legD x.leg.entry)
  let late := decide (want < x.q.next)
  let s := if late then s.fput fPLT_LEG_STATUS_odo_late p 1 else s
  if late ∧ lateFault then s.insTrap p cOdoLate
  else
    let s := s.setSeq p { (s.pilot p).q with odoCmp := x.leg.s88 + t * fracOne, odoLate := late }
    if want ≤ x.q.next then s.stepPc p else (s.stepPc p).startRun p .pad (want - x.q.next) .next

/-- MS_POST q, tag (R142). -/
def State.insMsPost (s : State) (p q tag : Nat) : State :=
  let x := s.pilot p
  (s.defer p (.post ((s.pjob p).queue q) (reportHead 1 p x.leg.index + tag % 65536))).stepPc p

/-- LEGEND_SEL bank (R124). -/
def State.insLegendSel (s : State) (p bank : Nat) : State := (s.setSeq p { (s.pilot p).q with bank := bank % 2 }).stepPc p

/-- TSET k (R88, R107). -/
def State.insTset (s : State) (p k : Nat) : State := (s.setSeq p { (s.pilot p).q with tset := k % 2048 }).stepPc p

/-- WAYPT h (R193): in a stallable leg of a streaming job the guard is checked, and the Pilot holds when it is short. -/
def State.insWaypt (s : State) (p h : Nat) : State :=
  let x := s.pilot p
  if hRowtabRows x.hdr ≤ h then s.insTrap p cOperand
  else
    let s := (s.setSeq p { x.q with waypoint := some h, pastWay := false }).stepPc p
    if legStallable x.leg.entry ∧ (s.pjob p).streams then
      let r := s.rowBeyond p
      if r.1.guardOk p r.2.row then r.1 else r.1.beginHold p r.2.row .holdEnd r.2.tgts
    else s

/-- The job has not what CAP_CTL switches on (R213). -/
def State.capRefused (s : State) (p grp : Nat) (ct total : Bool) : Bool :=
  let job := s.pjob p
  (ct && !job.flag 7) || (total && !job.flag 6) || ((ct || total) && grp - Nat.land grp job.capPos != 0)

/-- A group's bits switched on or off in a mask. -/
def switchBits (grp : Nat) (on : Bool) (v : Nat) : Nat := if on then Nat.lor v grp else v - Nat.land v grp

/-- CAP_CTL g, ct, total (R204, R213). -/
def State.insCapCtl (s : State) (p g : Nat) (ct total : Bool) : State :=
  let x := s.pilot p
  let grp := hGroup x.hdr g
  if s.capRefused p grp ct total then s.insTrap p cNotOwned
  else (s.setStr p { x.str with total := switchBits grp total x.str.total, ct := switchBits grp ct x.str.ct }).stepPc p

/-- FFAIL_ARM (R139, R198). -/
def State.insFfailArm (s : State) (p : Nat) : State := (s.ffRearm p).stepPc p

/-- SXT_WIN ch, open, len (R136, R213, R241). -/
def State.insSxtWin (s : State) (p ch opens len : Nat) : State :=
  if 51 < ch then s.insTrap p cOperand
  else if bitAt (s.pjob p).sxtChans ch = false then s.insTrap p cNotOwned
  else (s.defer p (.window ch opens len)).stepPc p

/-- SXT_ARM arm, mask (R136, R213, R241). -/
def State.insSxtArm (s : State) (p : Nat) (on : Bool) (mask : Nat) : State :=
  if Nat.land mask (s.pjob p).sxtChans ≠ mask then s.insTrap p cNotOwned
  else (s.defer p (.arm mask on)).stepPc p

/-- DDS_HOP e, entry (R136, R213, R264). -/
def State.insDdsHop (s : State) (p e entry : Nat) : State :=
  if bitAt (s.pjob p).ddsEngines e = false then s.insTrap p cNotOwned
  else (s.defer p (.hop e entry)).stepPc p

/-- PV_LOAD v, m (R136). -/
def State.insPvLoad (s : State) (p v m : Nat) : State :=
  let q := (s.pilot p).q
  (s.setSeq p { q with v := nset 0 v (m % 2 ^ 48) q.v }).stepPc p

/-- PV_XOR v, m (R136). -/
def State.insPvXor (s : State) (p v m : Nat) : State :=
  let q := (s.pilot p).q
  (s.setSeq p { q with v := nset 0 v (Nat.xor (nget 0 v q.v) (m % 2 ^ 48)) q.v }).stepPc p

/-! ### Leg boundaries -/

/-- How far the window of a leg reaches from N, in 2^-24 cycles (R59). -/
def legReach (e : Nat) : Nat := if legSlip e then legW e * legD88 e else 0

/-- The N of a relative start (R132). -/
def State.relativeN (s : State) (p : Nat) (e : Nat) : Nat := ((s.pilot p).e88 + legRel e * fracOne) % 2 ^ 88

/-- A leg-table entry read before anything acts on it, as a branch-table entry is. -/
def State.needLeg (s : State) (p l : Nat) : State × Option Nat :=
  match s.legEntry p l with
  | (s, .done bs) => (s, some (ofBytes bs))
  | (s, .fault f) => (s.fetchFault p f, none)
  | (s, .poison) => (s.fetchPoison p, none)

/-- The Pilot waits for the start of a leg with an entry: for a leg-start milestone, or for the reading relative to the last leg's end;
one that comes too soon ends the job with LEG_LATE (R132). -/
def State.awaitStart (s : State) (p l e : Nat) : State :=
  let y := s.pilot p
  let early := (s.relativeN p e) < y.e88 + legReach e + (s.mer (s.pjob p).meridian).spanAtMax 20000
  if legMode e = 1 ∧ y.resumed = false ∧ early then
    (s.setPilot p { y with awaitLeg := l, awaitEntry := e }).endJob y.job .legLate
  else s.setPilot p { y with st := .awaiting, awaitLeg := l, awaitEntry := e }

/-- LEG_START l (R132, R133). -/
def State.insLegStart (s : State) (p l : Nat) : State :=
  if hLegs (s.pilot p).hdr ≤ l then s.insTrap p cOperand
  else match s.needLeg p l with
    | (s, some e) => (s.stepPc p).awaitStart p l e
    | (s, none) => s

/-- END_LEG last (R135): the leg ends once its last period and its results are over (LEG_END). -/
def State.insEndLeg (s : State) (p : Nat) (last : Bool) : State :=
  let x := s.pilot p
  (s.setLeg p { x.leg with ending := if last then 2 else 1 }).stepPc p

/-! ### Taking an instruction -/

/-- The Pilot is at an instruction boundary: in a leg that goes on, or between legs, with no run and no routine under way. -/
def Pilot.takes (x : Pilot) : Bool :=
  ((x.st == .inLeg && x.leg.ending == 0) || x.st == .between) && x.q.run.isNone && !x.q.inRoutine

/-- A breakpoint is set on a word and has not just been passed (PLT_CTL.brk_en). -/
def State.breaksAt (s : State) (p upc : Nat) : Bool :=
  s.fbit fPLT_CTL_brk_en p && s.fget fPLT_BRK_upc p == upc && !(s.pilot p).q.passBrk

/-- A dispatch entry or word that cannot be corrected (R170): fatal inside a leg, resumable outside. -/
def State.ucodeUe (s : State) (p k : Nat) : State :=
  if s.legRuns p then s.fatalTrap p cUcodeUe k else s.resumableTrap p cUcodeUe k 0 0

/-- A routine has ended outside a leg with stepping on (PLT_CTL.step). -/
def State.stepTrap (s : State) (p : Nat) : State :=
  if s.fbit fPLT_CTL_step p ∧ (s.pilot p).st = .between then s.resumableTrap p cStep 0 0 0 else s

/-- The word and the address of its routine are shown (R150, R167). -/
def State.dispatch (s : State) (p w e : Nat) : State := s.setSeq p { (s.pilot p).q with opr := w, upc := bits e 13 0 }

/-- A word whose dispatch entry cannot be read is shown; the address of its routine is not known: a free value (R168, R177; assumption
102). -/
def State.dispatchBad (s : State) (p w : Nat) : State := s.fresh.1.dispatch p w s.fresh.2.toNat

/-- A breakpoint just passed counts no more. -/
def State.passBreak (s : State) (p : Nat) : State := s.setSeq p { (s.pilot p).q with passBrk := false }

/-- A vendor instruction taken (R135, R150, R166, R167): its dispatch entry read and its place checked, a breakpoint met, the first word of its
routine read and its operand bits checked, then its effect. -/
def State.takeInstr (s : State) (p w : Nat) (body : State → State) : State :=
  if (s.pilot p).takes = false then s
  else
    let op := bits w 63 56
    match s.readCs (p / 4) (dispKey op) with
    | (s, _, true) => (s.dispatchBad p w).ucodeUe p (dispKey op)
    | (s, e, false) =>
      let s := s.dispatch p w e
      match opInfo op with
      | none => s.insTrap p cOpcode
      | some o =>
        if (if s.legRuns p then o.inLeg else o.between) = false then s.insTrap p cNotInLeg
        else
          let s := if s.breaksAt p (bits e 13 0) then s.breakTrap p else s
          if (s.pilot p).takes = false then s
          else match (s.passBreak p).leadWord (p / 4) op (bits e 13 0) with
            | (s, none) => s.ucodeUe p (bits e 13 0)
            | (s, some _) =>
              if bits w 55 0 - Nat.land (bits w 55 0) o.mask ≠ 0 then s.insTrap p cOperand else (body s).stepTrap p

/-- A user instruction dispatched to its routine (R137, R167): its entry must be loaded, and it runs inside a leg only as its bits
allow. -/
def State.takeUser (s : State) (p w : Nat) : State :=
  if (s.pilot p).takes = false then s
  else
    let op := bits w 63 56
    match s.readCs (p / 4) (dispKey op) with
    | (s, _, true) => (s.dispatchBad p w).ucodeUe p (dispKey op)
    | (s, e, false) =>
      let x := s.pilot p
      let s := s.dispatch p w e
      if op < 0xC0 ∨ bitAt e 14 = false then s.insTrap p cOpcode
      else if (if s.legRuns p then bitAt e 16 else bitAt e 17) = false then s.insTrap p cNotInLeg
      else if bitAt e 20 ∧ (x.q.waypoint.isNone ∨ legStallable x.leg.entry = false) then s.insTrap p cTarget
      else s.setSeq p { (s.pilot p).q with inRoutine := true, entry := e, first := true }

/-! ### The rows of the command table -/

/-- NOP (R136). -/
def execNop (p : PilotNo) (s : State) : Host.Outcome State Fault Refusal :=
  .next (s.takeInstr p.val (0x00 * 2 ^ 56) (fun s => s.insNop p.val))

/-- VEC (R136). -/
def execVec (p : PilotNo) (n : BitVec 32) (s : State) : Host.Outcome State Fault Refusal :=
  .next (s.takeInstr p.val (0x01 * 2 ^ 56 + n.toNat) (fun s => s.insVec p.val n.toNat))

/-- RPT (R136). -/
def execRpt (p : PilotNo) (n : BitVec 32) (s : State) : Host.Outcome State Fault Refusal :=
  .next (s.takeInstr p.val (0x02 * 2 ^ 56 + n.toNat) (fun s => s.insRpt p.val n.toNat))

/-- PAD (R136). -/
def execPad (p : PilotNo) (n : BitVec 32) (s : State) : Host.Outcome State Fault Refusal :=
  .next (s.takeInstr p.val (0x03 * 2 ^ 56 + n.toNat) (fun s => s.insPad p.val n.toNat))

/-- LOOP (R138). -/
def execLoop (p : PilotNo) (c : Fin 8) (b : BitVec 16) (n : BitVec 32) (s : State) : Host.Outcome State Fault Refusal :=
  .next (s.takeInstr p.val (0x10 * 2 ^ 56 + c.val * 2 ^ 48 + b.toNat * 2 ^ 32 + n.toNat) (fun s => s.insLoop p.val c.val b.toNat n.toNat))

/-- ENDL (R136). -/
def execEndl (p : PilotNo) (c : Fin 8) (s : State) : Host.Outcome State Fault Refusal :=
  .next (s.takeInstr p.val (0x11 * 2 ^ 56 + c.val * 2 ^ 48) (fun s => s.insEndl p.val c.val))

/-- JMP (R136). -/
def execJmp (p : PilotNo) (b : BitVec 16) (s : State) : Host.Outcome State Fault Refusal :=
  .next (s.takeInstr p.val (0x20 * 2 ^ 56 + b.toNat * 2 ^ 32) (fun s => s.insJmp p.val b.toNat))

/-- CALL (R138). -/
def execCall (p : PilotNo) (b : BitVec 16) (s : State) : Host.Outcome State Fault Refusal :=
  .next (s.takeInstr p.val (0x21 * 2 ^ 56 + b.toNat * 2 ^ 32) (fun s => s.insCall p.val b.toNat))

/-- RET (R138). -/
def execRet (p : PilotNo) (s : State) : Host.Outcome State Fault Refusal :=
  .next (s.takeInstr p.val (0x22 * 2 ^ 56) (fun s => s.insRet p.val))

/-- FAIL_MARK (R144). -/
def execFailMark (p : PilotNo) (s : State) : Host.Outcome State Fault Refusal :=
  .next (s.takeInstr p.val (0x23 * 2 ^ 56) (fun s => s.insFailMark p.val))

/-- JMP_FAIL (R144). -/
def execJmpFail (p : PilotNo) (g : Fin 8) (b : BitVec 16) (s : State) : Host.Outcome State Fault Refusal :=
  .next (s.takeInstr p.val (0x24 * 2 ^ 56 + g.val * 2 ^ 48 + b.toNat * 2 ^ 32) (fun s => s.insJmpFail p.val g.val b.toNat))

/-- JMP_PASS (R144). -/
def execJmpPass (p : PilotNo) (g : Fin 8) (b : BitVec 16) (s : State) : Host.Outcome State Fault Refusal :=
  .next (s.takeInstr p.val (0x25 * 2 ^ 56 + g.val * 2 ^ 48 + b.toNat * 2 ^ 32) (fun s => s.insJmpPass p.val g.val b.toNat))

/-- JMP_IND (R136). -/
def execJmpInd (p : PilotNo) (a : Fin 8) (s : State) : Host.Outcome State Fault Refusal :=
  .next (s.takeInstr p.val (0x26 * 2 ^ 56 + a.val * 2 ^ 48) (fun s => s.insJmpInd p.val a.val))

/-- JMP_ABS (R136). -/
def execJmpAbs (p : PilotNo) (a : Fin 8) (s : State) : Host.Outcome State Fault Refusal :=
  .next (s.takeInstr p.val (0x27 * 2 ^ 56 + a.val * 2 ^ 48) (fun s => s.insJmpAbs p.val a.val))

/-- MATCH (R147). -/
def execMatchLoop (p : PilotNo) (g : Fin 8) (b : BitVec 16) (k1 : BitVec 12) (t1 : BitVec 20) (s : State) : Host.Outcome State Fault Refusal :=
  .next (s.takeInstr p.val (0x28 * 2 ^ 56 + g.val * 2 ^ 48 + b.toNat * 2 ^ 32 + k1.toNat * 2 ^ 20 + t1.toNat) (fun s => s.insMatch p.val g.val b.toNat (k1.toNat + 1) (t1.toNat + 1)))

/-- ALU_SET (R136). -/
def execAluSet (p : PilotNo) (a : Fin 8) (imm : BitVec 32) (s : State) : Host.Outcome State Fault Refusal :=
  .next (s.takeInstr p.val (0x29 * 2 ^ 56 + a.val * 2 ^ 48 + imm.toNat) (fun s => s.insAluSet p.val a.val imm.toNat))

/-- ALU_ADD (R136). -/
def execAluAdd (p : PilotNo) (a : Fin 8) (imm : BitVec 32) (s : State) : Host.Outcome State Fault Refusal :=
  .next (s.takeInstr p.val (0x2A * 2 ^ 56 + a.val * 2 ^ 48 + imm.toNat) (fun s => s.insAluAdd p.val a.val imm.toNat))

/-- JMP_ANZ (R136). -/
def execJmpAnz (p : PilotNo) (a : Fin 8) (b : BitVec 16) (s : State) : Host.Outcome State Fault Refusal :=
  .next (s.takeInstr p.val (0x2B * 2 ^ 56 + a.val * 2 ^ 48 + b.toNat * 2 ^ 32) (fun s => s.insJmpAnz p.val a.val b.toNat))

/-- WAIT_ODO (R140). -/
def execWaitOdo (p : PilotNo) (lateFault : Bool) (t : BitVec 48) (s : State) : Host.Outcome State Fault Refusal :=
  .next (s.takeInstr p.val (0x30 * 2 ^ 56 + b2n lateFault * 2 ^ 48 + t.toNat) (fun s => s.insWaitOdo p.val lateFault t.toNat))

/-- MS_POST (R142). -/
def execMsPost (p : PilotNo) (q : Fin 16) (tag : BitVec 16) (s : State) : Host.Outcome State Fault Refusal :=
  .next (s.takeInstr p.val (0x34 * 2 ^ 56 + q.val * 2 ^ 48 + tag.toNat) (fun s => s.insMsPost p.val q.val tag.toNat))

/-- LEGEND_SEL (R124). -/
def execLegendSel (p : PilotNo) (bank : Fin 2) (s : State) : Host.Outcome State Fault Refusal :=
  .next (s.takeInstr p.val (0x38 * 2 ^ 56 + bank.val) (fun s => s.insLegendSel p.val bank.val))

/-- TSET (R107). -/
def execTset (p : PilotNo) (k : BitVec 11) (s : State) : Host.Outcome State Fault Refusal :=
  .next (s.takeInstr p.val (0x3A * 2 ^ 56 + k.toNat) (fun s => s.insTset p.val k.toNat))

/-- WAYPT (R193). -/
def execWaypt (p : PilotNo) (h : BitVec 8) (s : State) : Host.Outcome State Fault Refusal :=
  .next (s.takeInstr p.val (0x40 * 2 ^ 56 + h.toNat) (fun s => s.insWaypt p.val h.toNat))

/-- LEG_START (R132). -/
def execLegStart (p : PilotNo) (l : BitVec 12) (s : State) : Host.Outcome State Fault Refusal :=
  .next (s.takeInstr p.val (0x41 * 2 ^ 56 + l.toNat) (fun s => s.insLegStart p.val l.toNat))

/-- END_LEG (R135). -/
def execEndLeg (p : PilotNo) (last : Bool) (s : State) : Host.Outcome State Fault Refusal :=
  .next (s.takeInstr p.val (0x42 * 2 ^ 56 + b2n last) (fun s => s.insEndLeg p.val last))

/-- CAP_CTL (R204). -/
def execCapCtl (p : PilotNo) (g : Fin 8) (ct : Bool) (total : Bool) (s : State) : Host.Outcome State Fault Refusal :=
  .next (s.takeInstr p.val (0x50 * 2 ^ 56 + g.val * 2 ^ 48 + b2n ct * 2 ^ 1 + b2n total) (fun s => s.insCapCtl p.val g.val ct total))

/-- FFAIL_ARM (R198). -/
def execFfailArm (p : PilotNo) (s : State) : Host.Outcome State Fault Refusal :=
  .next (s.takeInstr p.val (0x51 * 2 ^ 56) (fun s => s.insFfailArm p.val))

/-- SXT_WIN (R241). -/
def execSxtWin (p : PilotNo) (ch : Fin 64) (opens : BitVec 24) (len : BitVec 24) (s : State) : Host.Outcome State Fault Refusal :=
  .next (s.takeInstr p.val (0x60 * 2 ^ 56 + ch.val * 2 ^ 48 + opens.toNat * 2 ^ 24 + len.toNat) (fun s => s.insSxtWin p.val ch.val opens.toNat len.toNat))

/-- SXT_ARM (R241). -/
def execSxtArm (p : PilotNo) (arm : Bool) (mask : BitVec 52) (s : State) : Host.Outcome State Fault Refusal :=
  .next (s.takeInstr p.val (0x61 * 2 ^ 56 + b2n arm * 2 ^ 52 + mask.toNat) (fun s => s.insSxtArm p.val arm mask.toNat))

/-- DDS_HOP (R264). -/
def execDdsHop (p : PilotNo) (e : Fin 8) (entry : BitVec 12) (s : State) : Host.Outcome State Fault Refusal :=
  .next (s.takeInstr p.val (0x70 * 2 ^ 56 + e.val * 2 ^ 48 + entry.toNat) (fun s => s.insDdsHop p.val e.val entry.toNat))

/-- PV_LOAD (R136). -/
def execPvLoad (p : PilotNo) (v : Fin 8) (m : BitVec 48) (s : State) : Host.Outcome State Fault Refusal :=
  .next (s.takeInstr p.val (0x80 * 2 ^ 56 + v.val * 2 ^ 48 + m.toNat) (fun s => s.insPvLoad p.val v.val m.toNat))

/-- PV_XOR (R136). -/
def execPvXor (p : PilotNo) (v : Fin 8) (m : BitVec 48) (s : State) : Host.Outcome State Fault Refusal :=
  .next (s.takeInstr p.val (0x81 * 2 ^ 56 + v.val * 2 ^ 48 + m.toNat) (fun s => s.insPvXor p.val v.val m.toNat))

/-- PV_CAPT (R136). -/
def execPvCapt (p : PilotNo) (bit : Bool) (v : Fin 8) (m : BitVec 48) (s : State) : Host.Outcome State Fault Refusal :=
  .next (s.takeInstr p.val (0x82 * 2 ^ 56 + b2n bit * 2 ^ 52 + v.val * 2 ^ 48 + m.toNat) (fun s => s.insPvCapt p.val bit v.val m.toNat))

/-- SCAN (R141). -/
def execScan (p : PilotNo) (group : Fin 4) (n : BitVec 32) (s : State) : Host.Outcome State Fault Refusal :=
  .next (s.takeInstr p.val (0x90 * 2 ^ 56 + group.val * 2 ^ 48 + n.toNat) (fun s => s.insScan p.val group.val n.toNat))

/-- USER_OPCODE (R137). -/
def execUserOpcode (p : PilotNo) (op : Fin 64) (operand : BitVec 56) (s : State) : Host.Outcome State Fault Refusal :=
  .next (s.takeUser p.val ((0xC0 + op.val) * 2 ^ 56 + operand.toNat))

end Sys2Proof.Machine
end

