-- ==== Sys2Proof/Machine/Micro.lean ====
section
/-! DEFINITION. Microwords of user routines (R154 to R165): conditions, the effects that act together when a word completes, and
the next address. The words' vectors are issued by the strides (Machine/Stride.lean). -/

namespace Sys2Proof.Machine

/-! ### Fields of a word (R154) -/

def mwSeq (w : Nat) : Nat := bits w 191 184
def mwOp (w : Nat) : Nat := bits w 191 188
def mwTgt (w : Nat) : Nat := bits w 183 170
def mwCond (w : Nat) : Nat := bits w 169 164
def mwWto (w : Nat) : Nat := bits w 163 160
def mwVec (w : Nat) : Nat := bits w 159 152
def mwTset (w : Nat) : Nat := bits w 151 140
def mwLoop (w : Nat) : Nat := bits w 139 128
def mwStk (w : Nat) : Nat := bits w 127 124
def mwMatch (w : Nat) : Nat := bits w 123 116
def mwFail (w : Nat) : Nat := bits w 115 108
def mwCap (w : Nat) : Nat := bits w 107 100
def mwDds (w : Nat) : Nat := bits w 99 96
def mwSxt (w : Nat) : Nat := bits w 95 92
def mwOdo (w : Nat) : Nat := bits w 91 84
def mwQue (w : Nat) : Nat := bits w 83 76
def mwAlu (w : Nat) : Nat := bits w 75 64
def mwImm (w : Nat) : Nat := bits w 63 32
def mwAux (w : Nat) : Nat := bits w 31 28

/-- The SEQ operations that test the condition: BRANCH, WAIT, and RBR with SEQ[3] (R157). -/
def mwTests (w : Nat) : Bool := mwOp w == 2 || mwOp w == 5 || (mwOp w == 7 && bitAt (mwSeq w) 3)

/-- The word makes a horizon test: a horizon condition, or PV_CAPT (R159, R163). -/
def mwHorizon (w : Nat) : Bool := (mwTests w && decide (0x10 ≤ mwCond w ∧ mwCond w ≤ 0x15)) || mwAux w == 3

/-- The word's count source is "until the wait ends" (R161). -/
def mwUntil (w : Nat) : Bool := bits (mwVec w) 4 3 == 3

/-- The word issues vectors until its wait ends (R158, R161). -/
def mwIssues (w : Nat) : Bool := mwUntil w && bits (mwVec w) 7 5 != 0

/-- A horizon test of PV_KNOWN looks at the last vector before the word, whether the fail marker covers it or not (R160, R163). -/
def mwPvKnown (w : Nat) : Bool := mwAux w == 3 || (mwTests w && mwCond w == 0x15)

/-! ### Registers of a routine -/

def uReg (q : Seq) (k : Nat) : Nat := nget 0 k q.u
def aReg (q : Seq) (k : Nat) : Nat := nget 0 (k % 8) q.a
/-- The register index a = OPR[50:48] (R155). -/
def oprA (q : Seq) : Nat := bits q.opr 50 48

/-- The reading of the compare value: S + t cycles. -/
def State.odoTarget (s : State) (p t : Nat) : Nat := (s.pilot p).leg.s88 + t * fracOne

/-! ### The match unit (R147, R148) -/

/-- Where a match stands: the first iteration whose verdict acts and passed; a verdict still unknown at its point; or none
(R147, R148). -/
inductive MatchView where
  | matched (m : Nat)
  | unknown
  | open' (allFailed : Bool)
  deriving DecidableEq, Repr

/-- The issued iterations looked at in order: those whose index q_j has been issued (R147). -/
def matchView (m : MatchLoop) (recorded last hpad : Nat) : List (Nat × Nat) → MatchView
  | [] => .open' true
  | (e, j) :: rest =>
    if last < e + hpad then .open' false
    else if recorded ≤ e then .unknown
    else if m.failed.contains (j + 1) then matchView m recorded last hpad rest
    else .matched (j + 1)

/-- Where the match of a Pilot stands. -/
def Pilot.matchNow (x : Pilot) (m : MatchLoop) : MatchView :=
  matchView m x.leg.recorded (x.q.next - 1) (legHpad x.leg.entry) m.ends.zipIdx

/-- The outcome of a match as PLT_MATCH_STAT has it, with m: 1 = matched; 2 = timeout; 0 = not decided. -/
def Pilot.matchOutcome (x : Pilot) (m : MatchLoop) : Nat × Nat :=
  match x.matchNow m with
  | .matched j => (1, j)
  | .open' true => if m.limit ≤ m.ends.length then (2, 0) else (0, 0)
  | _ => (0, 0)

/-! ### Conditions (R160) -/

/-- A bound site of the Pilot's job is neither masked nor dropped (R220). -/
def State.sitesLive (s : State) (p : Nat) : Bool :=
  (maskBits 48 (s.pjob p).sites).any (fun k => !bitAt (s.fget fPLT_SITE_MASK_masked p) k && !bitAt (s.fget fPLT_SITE_DROP_dropped p) k)

/-- A covered vector failed on a group, among those up to an index (R144). -/
def Leg.failedOn (l : Leg) (mask upTo : Nat) : Bool := l.fails.any (fun f => decide (f.1 ≤ upTo) && Nat.land f.2 mask != 0)

/-- An asynchronous condition (R160). -/
def State.asyncTrue (s : State) (p code : Nat) : Bool :=
  let x := s.pilot p
  match code with
  | 0x18 => s.legRuns p && (s.legBegan p || (x.leg.slipLeg && s.fget fMER_SLIP_STAT_outcome p != 0))
  | 0x19 => (s.dq (16 + p)).elems != []
  | 0x1A => match x.q.run with
    | some r => (match r.after with | .branch i row c => (x.slotOf i row c).isSome | _ => false)
    | none => false
  | 0x1B => s.guardOk p (match x.holdAt with | some row => row | none => (s.rowBeyond p).2.row)
  | 0x1C => (s.dq (48 + p)).elems != []
  | 0x1D => x.st == .trap && x.trapWait == cUcodeUe && !(s.cluster (p / 4)).reload.any (fun k => csBlock k == csBlock x.trapKey) &&
    !(isUserKey x.trapKey && s.fbit fPLT_CS_STAT_user_lost (p / 4))
  | _ => false

/-- A condition's truth, before the polarity (R160). Reserved codes are false. -/
def State.condTrue (s : State) (p code : Nat) : Bool :=
  let x := s.pilot p
  let q := x.q
  match code with
  | 0x00 => true
  | 0x01 => q.z
  | 0x02 => q.n
  | 0x03 => q.c
  | 0x04 => match q.loops.getLast? with | some l => nget 0 l.counter q.lc == 0 | none => false
  | 0x05 => !q.loops.isEmpty
  | 0x06 => q.calls.isEmpty
  | 0x07 => q.calls.length == 16
  | 0x08 => q.mstack.isEmpty
  | 0x09 => s.legRuns p
  | 0x0A => s.legRuns p && legStallable x.leg.entry
  | 0x0B => q.waypoint.isSome && !q.pastWay
  | 0x0C => decide (q.odoCmp ≤ x.leg.periodAt q.next)
  | 0x0D => q.odoLate
  | 0x0E => match x.leg.matchSt with | some m => decide (m.limit ≤ m.ends.length) | none => false
  | 0x0F => s.sitesLive p
  | 0x10 => match x.leg.keepIndex with | some i => decide (i < x.leg.recorded) | none => true
  | 0x11 => match x.leg.keepIndex with
    | some i => x.leg.failedOn (hGroup x.hdr q.failGroup) i
    | none => false
  | 0x12 => s.fbit fPLT_FF_STAT_found p
  | 0x13 => match x.leg.matchSt with | some m => m.passed != [] | none => false
  | 0x14 => match x.leg.matchSt with | some m => (x.matchOutcome m).1 != 0 | none => false
  | 0x15 => match x.leg.keepIndex with | some i => decide (i < x.leg.recorded) | none => true
  | 0x27 => aReg q (oprA q) != 0
  | _ =>
    if 0x20 ≤ code ∧ code ≤ 0x26 then uReg q (code - 0x20) != 0
    else if 0x28 ≤ code ∧ code ≤ 0x2F then bits (nget 0 (code - 0x28) q.v) (hPins x.hdr - 1) 0 != 0
    else s.asyncTrue p code

/-- The test with its polarity (R157). -/
def State.mwTest (s : State) (p w : Nat) : Bool := s.condTrue p (mwCond w) != bitAt (mwWto w) 3

/-! ### The ALU (R162) -/

/-- The result of an ALU word: the new value, if one is written, and the flags Z, N, C. DECNZ and a shift by 0 leave C as it was: no bit is
shifted out, and R162 gives DECNZ no C (DESIGN CHOICE, assumption 103). -/
def aluOp (op a b : Nat) (c : Bool) : Option Nat × Bool × Bool × Bool :=
  let m := 2 ^ 32
  let fin (r : Nat) (c : Bool) : Option Nat × Bool × Bool × Bool := (some r, r == 0, bitAt r 31, c)
  let sh := b % 32
  match op with
  | 1 => fin (b % m) false
  | 2 => fin ((a + b) % m) (decide (m ≤ a + b))
  | 3 => fin ((a + m - b % m) % m) (decide (a < b % m))
  | 4 => fin (Nat.land a b) false
  | 5 => fin (Nat.lor a b) false
  | 6 => fin (Nat.xor a b) false
  | 7 => fin (a * 2 ^ sh % m) (if sh = 0 then c else bitAt a (32 - sh))
  | 8 => fin (a / 2 ^ sh) (if sh = 0 then c else bitAt a (sh - 1))
  | 9 => (if a = 0 then some 0 else some (a - 1), a == 0, bitAt (a - 1) 31, c)
  | _ =>
    let r := (a + m - b % m) % m
    (none, r == 0, bitAt r 31, decide (a < b % m))

/-- The ALU field's effect on the registers (R162). -/
def aluWord (w : Nat) (q : Seq) : Seq :=
  let f := mwAlu w
  let op := bits f 11 8
  if op = 0 then q
  else
    let d := bits f 7 4
    let b := match bits f 3 0 with
      | 0 => mwImm w
      | 1 => bits q.opr 31 0
      | 2 => bits q.opr 55 32
      | 3 => aReg q (oprA q)
      | k => uReg q (k - 8)
    let old := if d < 8 then aReg q d else if d < 15 then uReg q (d - 8) else aReg q (oprA q)
    let (r, z, n, c) := aluOp op old b q.c
    let q := { q with z := z, n := n, c := c }
    match r with
    | none => q
    | some v =>
      if d < 8 then { q with a := nset 0 d v q.a }
      else if d < 15 then { q with u := nset 0 (d - 8) v q.u }
      else { q with a := nset 0 (oprA q) v q.a }

/-! ### What stops a word before it acts (R155, R156, R163) -/

/-- The branch target's index that RBR names from the table, if its source is one of those, with the trap cause beyond it. -/
def rbrIndex (w : Nat) (q : Seq) (m : Option MatchLoop) : Option (Nat × Nat) :=
  match bits (mwSeq w) 2 0 with
  | 0 => some (bits q.opr 47 32, cOperand)
  | 1 => some (bits (mwImm w) 15 0, cOperand)
  | 2 => some (aReg q (oprA q) % 65536, cTarget)
  | 3 => q.loops.getLast?.map (fun l => (l.top, cOperand))
  | 6 => m.map (fun l => (l.branch, cOperand))
  | _ => none

/-- The test of a word that completes: of a horizon word and a wait, as things now stand; of another, as the last completed word left
things, before the vectors that the word itself has issued (R155, R158, R159). -/
def State.wordTest (s : State) (p w : Nat) : Bool :=
  match (s.pilot p).q.run with
  | some r => if mwHorizon w ∨ mwOp w = 5 then s.mwTest p w else r.test
  | none => s.mwTest p w

/-- The hold row of the waypoint at which the running word began (R155). -/
def wordWay (q : Seq) : Option Nat :=
  match q.run with
  | some r => r.way
  | none => q.waypoint

/-- An RBR that will branch. -/
def State.rbrTaken (s : State) (p w : Nat) : Bool :=
  mwOp w == 7 && (!bitAt (mwSeq w) 3 || s.wordTest p w)

/-- A loop step that leaves the loop (R163). -/
def loopLeaves (w : Nat) (q : Seq) : Bool :=
  bits (mwLoop w) 11 9 == 2 && (match q.loops.getLast? with | some l => nget 0 l.counter q.lc == 1 | none => false)

/-- The counter that a LOOP field names. -/
def loopCounter (w : Nat) (q : Seq) : Nat := if bitAt (mwLoop w) 8 then bits q.opr 50 48 else bits (mwLoop w) 7 5

/-- The count that a LOOP field names. -/
def loopCount (w : Nat) (q : Seq) : Nat :=
  match bits (mwLoop w) 4 3 with
  | 0 => bits q.opr 31 0
  | 1 => mwImm w
  | 2 => aReg q (oprA q)
  | _ => uReg q 0

/-- An address lies in the region of the word at another (R156). -/
def inRegion (upc a : Nat) : Bool := decide (a < 0x4000) && (decide (a < 0x2000) == decide (upc < 0x2000))

/-- The trap cause of a word that can neither begin nor complete, if there is one. R163 names no cause for LOOP op 3 without an open
loop: it raises loop_nest, as op 2 does (DESIGN CHOICE, assumption 104). -/
def State.wordCause (s : State) (p w : Nat) : Option Nat :=
  let x := s.pilot p
  let q := x.q
  let job := s.pjob p
  let h := x.hdr
  let lop := bits (mwLoop w) 11 9
  let grp := if bits (mwCap w) 7 6 = 1 then bits q.opr 50 48 else bits (mwCap w) 4 2
  let modes := if bits (mwCap w) 7 6 = 1 then bits q.opr 1 0 else bits (mwCap w) 1 0
  let t := if bits (mwOdo w) 7 6 = 1 then bits q.opr 47 0 else uReg q 1 % 65536 * 2 ^ 32 + uReg q 0
  let eng := if bitAt (mwDds w) 2 then uReg q 1 % 8 else bits q.opr 50 48
  if mwOp w = 9 then some (bits (mwImm w) 7 0)
  else if mwOp w = 3 ∧ 4 ≤ q.mstack.length then some cMicroStack
  else if mwOp w = 4 ∧ q.mstack = [] then some cMicroStack
  else if mwOp w = 8 ∧ inRegion q.upc (mwTgt w + uReg q 0 % 16) = false then some cMicroRange
  else if lop = 1 ∧ (x.loopBad (loopCounter w q) (loopCount w q) (bits q.opr 47 32)).isSome then
    x.loopBad (loopCounter w q) (loopCount w q) (bits q.opr 47 32)
  else if (lop = 2 ∨ lop = 3) ∧ q.loops = [] then some cLoopNest
  else if lop = 2 ∧ (q.loops.getLast?.map (·.counter)) ≠ some (loopCounter w q) then some cLoopNest
  else if mwStk w = 1 ∧ 16 ≤ q.calls.length then some cStackOver
  else if mwStk w = 2 ∧ q.calls = [] then some cStackUnder
  else if bits (mwCap w) 7 6 ≠ 0 ∧ ((bitAt modes 1 ∧ !job.flag 7) ∨ (bitAt modes 0 ∧ !job.flag 6) ∨
      (modes ≠ 0 ∧ hGroup h grp - Nat.land (hGroup h grp) job.capPos ≠ 0)) then some cNotOwned
  else if bitAt (mwDds w) 3 ∧ !bitAt job.ddsEngines eng then some cNotOwned
  else if bits (mwSxt w) 3 2 = 1 ∧ 51 < bits q.opr 53 48 then some cOperand
  else if bits (mwSxt w) 3 2 = 1 ∧ !bitAt job.sxtChans (bits q.opr 53 48) then some cNotOwned
  else if bits (mwSxt w) 3 2 = 2 ∧ Nat.land (bits q.opr 51 0) job.sxtChans ≠ bits q.opr 51 0 then some cNotOwned
  else if bits (mwOdo w) 7 6 ≠ 0 ∧ ceilDiv t (legD x.leg.entry) < q.next ∧
      (if bits (mwOdo w) 7 6 = 1 then bitAt q.opr 48 else bitAt (mwOdo w) 0) then some cOdoLate
  else if bits (mwMatch w) 2 0 = 1 ∧ hBranches h ≤ bits q.opr 47 32 then some cOperand
  else if bits (mwMatch w) 2 0 = 1 ∧ hVecRows h < q.row + bits q.opr 31 20 + 1 then some cStreamEnd
  else if (mwAux w = 5 ∧ hRowtabRows h ≤ bits q.opr 7 0) ∨ (mwAux w = 6 ∧ hLegs h ≤ bits q.opr 11 0) then some cOperand
  else if (mwAux w = 6 ∧ s.legRuns p) ∨ (mwAux w = 7 ∧ s.legRuns p = false) then some cNotInLeg
  else none

/-- The trap cause of a route branch that cannot be taken (R156). -/
def State.rbrCause (s : State) (p w : Nat) : Option Nat :=
  let x := s.pilot p
  let q := x.q
  if s.rbrTaken p w ∧ !loopLeaves w q then
    match rbrIndex w q x.leg.matchSt with
    | some (b, cause) => if hBranches x.hdr ≤ b then some cause else none
    | none =>
      if bits (mwSeq w) 2 0 = 4 ∧ ((wordWay q).isNone ∨ legStallable x.leg.entry = false ∨ hInstrWords x.hdr ≤ aReg q (oprA q) ∨
          hVecRows x.hdr < aReg q (oprA q + 1)) then some cTarget
      else none
  else none

/-- The trap cause of a word that cannot complete, if there is one. -/
def State.wordTrap (s : State) (p w : Nat) : Option Nat := (s.wordCause p w).or (s.rbrCause p w)

/-- The trap cause that is known before a word runs: it has issued no vector (R173). A horizon word's branch is not known yet. -/
def State.startTrap (s : State) (p w : Nat) : Option Nat :=
  (s.wordCause p w).or (if mwHorizon w then none else s.rbrCause p w)

/-! ### The effects of a completed word (R155, R163 to R165) -/

/-- LOOP: a word opens a loop, counts one down, or closes one (R163); the branch-table entry of an opened loop's top is e. -/
def State.wordLoop (s : State) (p w e : Nat) : State :=
  let q := (s.pilot p).q
  match bits (mwLoop w) 11 9 with
  | 1 => s.openLoop p (loopCounter w q) (loopCount w q) (bits q.opr 47 32) e
  | 2 => match q.loops.getLast? with
    | some lv =>
      let s := s.setSeq p { q with lc := nset 0 lv.counter ((nget 0 lv.counter q.lc + 2 ^ 32 - 1) % 2 ^ 32) q.lc }
      if loopLeaves w q then s.closeLoop p else s
    | none => s
  | 3 => s.closeLoop p
  | _ => s

/-- The odometer compare of a word (R163): its value, and whether the current period ended before it. -/
def wordOdo (w : Nat) (q : Seq) : Nat := if bits (mwOdo w) 7 6 = 1 then bits q.opr 47 0 else uReg q 1 % 65536 * 2 ^ 32 + uReg q 0

/-- Late: the compare value lies before the next period (R177). -/
def wordLate (w : Nat) (q : Seq) (l : Leg) : Bool := decide (ceilDiv (wordOdo w q) (legD l.entry) < q.next)

/-- The sequencer's registers after a word, from those before it, q, and those that its loop operation left, r: the call stack,
the timing set and Legend, the odometer compare, the pin variables, the scan group, the waypoint fields, the group of a branch on
fail, and the ALU (R155, R163). -/
def wordSeq (w : Nat) (q : Seq) (l : Leg) (r : Seq) : Seq :=
  let r := match mwStk w with
    | 1 => { r with calls := q.calls ++ [(q.pc + 1, q.row, q.scan)] }
    | 2 => { r with calls := q.calls.dropLast, latch := q.calls.getLast? }
    | _ => r
  let tf := mwTset w
  let r := if tf = 1 then { r with tset := bits q.opr 10 0 } else if tf = 2 then { r with tset := aReg q (oprA q) % 2048 }
    else if tf = 3 then { r with tset := uReg q 0 % 2048 } else if tf = 4 then { r with bank := 0 } else if tf = 5 then { r with bank := 1 }
    else if tf = 6 then { r with bank := q.opr % 2 } else if 0x800 ≤ tf then { r with tset := tf % 2048 } else r
  let r := if bits (mwOdo w) 7 6 = 0 then r else { r with odoCmp := l.s88 + wordOdo w q * fracOne, odoLate := wordLate w q l }
  let pv := bits q.opr 50 48
  let r := match mwAux w with
    | 1 => { r with v := nset 0 pv (bits q.opr 47 0) q.v }
    | 2 => { r with v := nset 0 pv (Nat.xor (nget 0 pv q.v) (bits q.opr 47 0)) q.v }
    | 4 => { r with v := nset 0 (w % 8) (uReg q 0 + uReg q 1 % 65536 * 2 ^ 32) q.v }
    | 5 => { r with waypoint := some (bits q.opr 7 0), pastWay := false }
    | 8 => { r with scanGroup := bits q.opr 49 48 }
    | _ => r
  let r := if bits (mwFail w) 2 0 = 3 then { r with failGroup := bits q.opr 50 48 } else r
  let flags := aluWord w q
  { r with z := flags.z, n := flags.n, c := flags.c, a := flags.a, u := flags.u }

/-- FAIL: the fail marker, or first fail armed again (R163). -/
def State.wordFail (s : State) (p w next : Nat) : State :=
  match bits (mwFail w) 2 0 with
  | 1 => s.setLeg p { (s.pilot p).leg with failMark := next, fails := [] }
  | 2 => s.ffRearm p
  | _ => s

/-- CAP: captures of a group go on or off (R163). -/
def State.wordCapture (s : State) (p w : Nat) (x : Pilot) : State :=
  let cf := bits (mwCap w) 7 6
  let grp := hGroup x.hdr (if cf = 1 then bits x.q.opr 50 48 else bits (mwCap w) 4 2)
  let modes := if cf = 1 then bits x.q.opr 1 0 else bits (mwCap w) 1 0
  let on (b : Bool) (v : Nat) : Nat := if b then Nat.lor v grp else v - Nat.land v grp
  if cf = 0 then s
  else s.setStr p { (s.pilot p).str with total := on (bitAt modes 0) x.str.total, ct := on (bitAt modes 1) x.str.ct }

/-- DDS and SXT: hops, windows and arming act when the next period begins (R163). -/
def State.wordEdges (s : State) (p w : Nat) (q : Seq) : State :=
  let s := if bitAt (mwDds w) 3 then
      (if bitAt (mwDds w) 2 then s.defer p (.hop (uReg q 1 % 8) (uReg q 0 % 4096))
       else s.defer p (.hop (bits q.opr 50 48) (bits q.opr 11 0)))
    else s
  match bits (mwSxt w) 3 2 with
  | 1 => s.defer p (.window (bits q.opr 53 48) (bits q.opr 47 24) (bits q.opr 23 0))
  | 2 => s.defer p (.arm (bits q.opr 51 0) (bitAt q.opr 52))
  | _ => s

/-- QUE: a report of the word goes to a queue of the job when the next period begins (R163). -/
def State.wordReport (s : State) (p w : Nat) (q : Seq) (index : Nat) : State :=
  match bits (mwQue w) 7 6 with
  | 1 => s.defer p (.post ((s.pjob p).queue (bits q.opr 51 48)) (reportHead 1 p index + q.opr % 65536))
  | 2 => s.defer p (.post ((s.pjob p).queue (mwQue w % 16)) (reportHead 2 p index + mwImm w % 65536 +
      pack [(128, 32, uReg q 0), (160, 32, uReg q 1), (192, 32, uReg q 2), (224, 32, uReg q 3)]))
  | _ => s

/-- MATCH: a match starts with the rows of its body, or ends with its outcome recorded (R163). -/
def State.wordMatch (s : State) (p w : Nat) (x : Pilot) : State :=
  match bits (mwMatch w) 2 0 with
  | 1 => s.moveBody p (bits x.q.opr 50 48) (bits x.q.opr 47 32) (bits x.q.opr 31 20 + 1) (bits x.q.opr 19 0 + 1)
  | 2 => match x.leg.matchSt with
    | some m =>
      let o := x.matchOutcome m
      let s := ((s.fput fPLT_MATCH_STAT_issued p m.ends.length).fput fPLT_MATCH_STAT_outcome p o.1).fput fPLT_MATCH_STAT_m p o.2
      s.setLeg p { (s.pilot p).leg with matchSt := none }
    | none => s
  | _ => s

/-- A word's effects but its next address. Every field reads the state before the word; e is the entry of a loop's top that it opens. -/
def State.wordEffects (s : State) (p w e : Nat) : State :=
  let x := s.pilot p
  let s := (s.wordLoop p w e).wordMatch p w x
  let s := if mwAux w = 7 then s.setLeg p { (s.pilot p).leg with ending := 1 + x.q.opr % 2 } else s
  let s := s.setSeq p (wordSeq w x.q x.leg (s.pilot p).q)
  let s := if bits (mwOdo w) 7 6 ≠ 0 ∧ wordLate w x.q x.leg then s.fput fPLT_LEG_STATUS_odo_late p 1 else s
  (((s.wordFail p w x.q.next).wordCapture p w x).wordEdges p w x.q).wordReport p w x.q x.leg.index

/-- PV_CAPT from the kept states (R136, R163 AUX op 3); a position that took no sample in that vector, or whose result is excluded (no_fail, a
masked or dropped site: R143), gives a free bit (assumption 27). -/
def State.captVar (s : State) (p : Nat) (bit : Bool) (v mask : Nat) : State :=
  let x := s.pilot p
  let k := if bit then 1 else 0
  let f := s.fresh.2.toNat
  let val := (maskBits 48 mask).foldl (fun a pos =>
    let b := if bitAt x.leg.lastSampled pos then bitAt x.leg.lastStates (2 * pos + k) else bitAt f pos
    setBit a pos b) (nget 0 v x.q.v)
  let s := if Nat.land mask x.leg.lastSampled = mask then s else { s with free := s.free + 1 }
  let s := s.setSeq p { x.q with v := nset 0 v val x.q.v }
  s.setLeg p { (s.pilot p).leg with keepIndex := none }

/-- The head row consumed. -/
def State.eatRow (s : State) (p : Nat) : State :=
  let x := s.pilot p
  let rb := hRowBytes x.hdr
  let str := { x.str with fifo := x.str.fifo.drop rb, fifoLo := (x.q.row + 1) * rb }
  (s.setPilot p { x with str := str, q := { x.q with row := x.q.row + 1 } }).releaseIfDue p

/-- What a run of `done` vectors consumes when it is over: the row that it repeated, or its base row and its scan codes (R141, R161). -/
def State.runOver (s : State) (p : Nat) (src : RunSource) (done : Nat) : State :=
  match src with
  | .repeatRow => s.eatRow p
  | .scan g =>
    let s := s.eatRow p
    let q := (s.pilot p).q
    s.setSeq p { q with scan := q.scan + ceilDiv (done * popCount 48 (hScanGroup (s.pilot p).hdr g)) 2 }
  | _ => s

/-- The vectors that a wait issued are over with it (R161). -/
def State.waitOver (s : State) (p : Nat) : State :=
  match (s.pilot p).q.run with
  | some r => (match r.after with
    | .wait _ _ => if r.done = 0 then s else s.runOver p r.src r.done
    | _ => s)
  | none => s

/-- A completed word closes its stride: VEC[2] asks for it; or the routine goes on; or it was the first of a routine that is not folded,
or the last of one whose entry closes (R166, R167). -/
def wordCloses (w : Nat) (q : Seq) : Bool :=
  let last := mwOp w == 6 || mwOp w == 7
  bitAt (mwVec w) 2 || !last || (q.first && !bitAt q.entry 15) || (last && bitAt q.entry 18)

/-- The routine ends and the next instruction is dispatched (R156). -/
def State.endRoutine (s : State) (p : Nat) : State :=
  let q := (s.pilot p).q
  s.setSeq p { q with inRoutine := false, pc := q.pc + 1 }

/-- A completed word's effects together, all read from the state before it (R155). -/
def State.wordActs (s : State) (p w e : Nat) : State :=
  let s := s.waitOver p
  let q := (s.pilot p).q
  let s := s.setSeq p { q with run := none, waitCount := 0, passBrk := false, first := false, closed := q.closed || wordCloses w q }
  let s := s.wordEffects p w e
  if mwAux w = 3 then s.captVar p (bitAt q.opr 52) (bits q.opr 50 48) (bits q.opr 47 0) else s

/-- The next address of a routine; one beyond the control store traps (R156). -/
def State.wordGoes (s : State) (p a : Nat) : State :=
  if 0x4000 ≤ a then s.fatalTrap p cMicroRange else s.setSeq p { (s.pilot p).q with upc := a }

/-- The routine ends in a route branch, from the registers before the word (R156): to a branch-table entry, to an absolute target, or
to what STK took. -/
def State.routineBranches (s : State) (p w : Nat) (q : Seq) (entry : Option Nat) : State :=
  let s := s.setSeq p { (s.pilot p).q with inRoutine := false }
  match entry with
  | some e => let t := entryTarget e; s.takeBranch p t.1 t.2.1 t.2.2
  | none =>
    if bits (mwSeq w) 2 0 = 4 then
      let i := aReg q (oprA q)
      let r := aReg q (oprA q + 1)
      let s := s.setSeq p { (s.pilot p).q with waypoint := wordWay q }
      (s.stepPc p).beginHold p r (.absolute i r) [(i, r, 0)]
    else match (s.pilot p).q.latch with
      | some (i, r, c) => s.takeBranch p i r c
      | none => s.stepPc p

/-- The table entries that a word needs before it acts: that of the top of a loop it opens, that of its branch, and that of the leg it
starts. None are given when one cannot be read: the word has had no effect (R173, R347). -/
def State.wordNeeds (s : State) (p w : Nat) (branch : Option Nat) : State × Option (Nat × Option Nat × Nat) :=
  let q := (s.pilot p).q
  let a := if bits (mwLoop w) 11 9 = 1 then s.needEntry p (bits q.opr 47 32) else (s, some 0)
  match a with
  | (s, none) => (s, none)
  | (s, some top) =>
    let b := match branch with
      | some k => (let r := s.needEntry p k; (r.1, r.2.map some))
      | none => (s, some none)
    match b with
    | (s, none) => (s, none)
    | (s, some e) =>
      let l := if mwAux w = 6 then s.needLeg p (bits q.opr 11 0) else (s, some 0)
      (l.1, l.2.map (fun leg => (top, e, leg)))

/-- The rows of a match body that a word moves have not all been fetched. -/
def Pilot.bodyMissing (x : Pilot) (k : Nat) : Bool :=
  let rb := hRowBytes x.hdr
  decide (x.str.fifo.length < k * rb ∨ x.str.fifoLo ≠ x.q.row * rb)

/-- A word's next address, from the registers before it (R156). -/
def State.wordNext (s : State) (p w : Nat) (q : Seq) (timedOut taken test : Bool) (entry : Option Nat) : State :=
  match mwOp w with
  | 1 => s.wordGoes p (mwTgt w)
  | 2 => s.wordGoes p (if test then mwTgt w else q.upc + 1)
  | 3 => (s.setSeq p { (s.pilot p).q with mstack := q.mstack ++ [q.upc + 1] }).wordGoes p (mwTgt w)
  | 4 => match q.mstack.getLast? with
    | some a => (s.setSeq p { (s.pilot p).q with mstack := q.mstack.dropLast }).wordGoes p a
    | none => s
  | 5 => s.wordGoes p (if timedOut then mwTgt w else q.upc + 1)
  | 6 => s.endRoutine p
  | 7 => if taken then s.routineBranches p w q entry else s.endRoutine p
  | 8 => s.wordGoes p (mwTgt w + uReg q 0 % 16)
  | _ => s.wordGoes p (q.upc + 1)

/-- A word completes: its effects together, then the next address (R155, R156). `timedOut` is a WAIT that ran into its limit. -/
def State.completeWord (s : State) (p w : Nat) (timedOut : Bool) : State :=
  match s.wordTrap p w with
  | some cause => s.fatalTrap p cause
  | none =>
    let x := s.pilot p
    let taken := s.rbrTaken p w && !loopLeaves w x.q
    if bits (mwMatch w) 2 0 = 1 ∧ x.bodyMissing (bits x.q.opr 31 20 + 1) then s
    else match s.wordNeeds p w (if taken then (rbrIndex w x.q x.leg.matchSt).map (·.1) else none) with
      | (s, none) => s
      | (s, some (top, entry, leg)) =>
        let test := s.wordTest p w
        let s := (s.wordActs p w top).wordNext p w x.q timedOut taken test entry
        if mwAux w = 6 then s.awaitStart p (bits x.q.opr 11 0) leg else s

/-- The vector source of a word (R161), or the trap cause of one that has none to issue. -/
def State.wordSource (s : State) (p w : Nat) : Except Nat (Option RunSource) :=
  let x := s.pilot p
  match bits (mwVec w) 7 5 with
  | 1 => .ok (some .rows)
  | 2 => .ok (some .repeatRow)
  | 3 => .ok (some .pad)
  | 4 => if x.q.waypoint.isSome then .ok (some .hold) else .error cOperand
  | 5 => if hScanGroup x.hdr x.q.scanGroup = 0 then .error cOperand else .ok (some (.scan x.q.scanGroup))
  | 6 => if x.leg.matchSt.isSome then .ok (some .matchBody) else .error cOperand
  | _ => .ok none

/-- How many vectors a word issues before it completes or begins to wait (R161). A horizon word with nothing to cover issues no
pads (R144). -/
def State.wordCount (s : State) (p w : Nat) : Nat :=
  let x := s.pilot p
  match bits (mwVec w) 4 3 with
  | 0 => 1
  | 1 => bits x.q.opr 31 0
  | 2 => if mwHorizon w ∧ x.leg.keepIndex.isNone then 0 else legHpad x.leg.entry
  | _ => 0

/-- The last vector that a horizon word looks at, if there is one: it must be covered by the fail marker, but for PV_KNOWN (R144, R159). -/
def Pilot.wordKeeps (x : Pilot) (w : Nat) : Option Nat :=
  if mwHorizon w ∧ (if mwPvKnown w then 0 < x.q.next else x.leg.failMark < x.q.next) then some (x.q.next - 1) else none

/-- The vectors of one count unit: a match iteration is one (R161). -/
def Pilot.unitOf (x : Pilot) (src : RunSource) : Nat :=
  match src, x.leg.matchSt with
  | .matchBody, some m => m.k
  | _, _ => 1

/-- A word begins (R155, R158, R161): its run, its wait, or its completion at once. -/
def State.startWord (s : State) (p w : Nat) : State :=
  let x := s.pilot p
  let s := if mwHorizon w then s.setLeg p { x.leg with keepIndex := x.wordKeeps w } else s
  match s.startTrap p w, s.wordSource p w with
  | some cause, _ => s.fatalTrap p cause
  | none, .error cause => s.fatalTrap p cause
  | none, .ok src =>
    let n := s.wordCount p w
    if src.isSome ∧ bits (mwVec w) 4 3 = 1 ∧ n = 0 then s.fatalTrap p cOperand
    else
      let nf := bitAt (mwFail w) 3
      match src with
      | some k =>
        let s := match k with
          | .scan _ => (let q := (s.pilot p).q; s.setSeq p { q with scan := scanStart q })
          | _ => s
        let run : Run := if mwUntil w then { src := k, left := 0, after := .wait w 0, noFail := nf }
          else { src := k, left := n * (s.pilot p).unitOf k, after := .word w, noFail := nf, test := s.mwTest p w, way := x.q.waypoint }
        s.setSeq p { (s.pilot p).q with run := some run }
      | none =>
        if mwOp w = 5 ∨ mwHorizon w then
          let after := if mwOp w = 5 then After.wait w 0 else .word w
          s.setSeq p { (s.pilot p).q with run := some { src := .pad, left := 0, after := after, noFail := nf, way := x.q.waypoint } }
        else s.completeWord p w false

/-- The running word of a routine: its first from the Pilot's lead copy, the others from the control store; one that cannot be
corrected is met under R170. -/
def State.fetchWord (s : State) (p : Nat) : State × Option Nat :=
  let q := (s.pilot p).q
  let r := if q.first then s.leadWord (p / 4) (bits q.opr 63 56) q.upc
    else match s.readCs (p / 4) q.upc with
      | (s, _, true) => (s, none)
      | (s, w, false) => (s, some w)
  match r with
  | (s, none) => (s.ucodeUe p q.upc, none)
  | (s, some w) => (s, some w)

/-- A routine's word is about to run: a breakpoint on it is met first (R175). -/
def State.runWord (s : State) (p w : Nat) : State :=
  let s := if s.breaksAt p (s.pilot p).q.upc then s.breakTrap p else s
  if (s.pilot p).q.inRoutine = false ∨ (s.pilot p).st = .trap then s
  else s.startWord p w

/-- The limit of a word's timeout, if it has one (R157). -/
def State.waitLimit (s : State) (p w : Nat) : Option Nat :=
  let k := mwWto w % 8
  if k = 0 then none else some (bits (s.rd .PLT_WTO p k).toNat 31 0)

end Sys2Proof.Machine
end

