-- ==== Sys2Proof/Machine/Stride.lean ====
section
/-! DEFINITION. Strides (R126, R127, R166): the vectors of the run in progress, what a run's end decides (R144, R145, R148, R158),
and the instructions that a stride takes. -/

namespace Sys2Proof.Machine

/-! ### The row of the next vector -/

/-- What the next vector of a run is: a row, a trap, or not there yet. -/
inductive NextRow where
  | row (v : Nat)
  | trap (cause : Nat)
  | notYet
  deriving DecidableEq, Repr

/-- The row at the head of the playout FIFO (R118, R182). -/
def State.headRow (s : State) (p : Nat) : NextRow :=
  let x := s.pilot p
  let rb := hRowBytes x.hdr
  if hVecRows x.hdr ≤ x.q.row then .trap cStreamEnd
  else if x.str.fifoLo = x.q.row * rb ∧ rb ≤ x.str.fifo.length then .row (ofBytes (x.str.fifo.take rb))
  else .notYet

/-- The scan codes of one vector laid over the base row (R141): `done` vectors of the SCAN have been issued. -/
def State.scanRow (s : State) (p base group done : Nat) : State × NextRow :=
  let x := s.pilot p
  let mask := hScanGroup x.hdr group
  let m := popCount 48 mask
  let first := 2 * x.q.scan + done * m
  let last := first + m
  if 2 * hScanBytes x.hdr < last then (s, .trap cStreamEnd)
  else
    let byte := first / 2
    match s.pilotRead p ((s.pjob p).route + hScanOff x.hdr + byte) ((last + 1) / 2 - byte) with
    | (s, .done bs) =>
      let v := ofBytes bs / 2 ^ (4 * (first % 2))
      let row := ((maskBits 48 mask).zipIdx).foldl (fun r e =>
        setBits r (4 * e.1 + 3) (4 * e.1) (bits v (4 * e.2 + 3) (4 * e.2))) base
      (s, .row row)
    | (s, .fault f) => (s.fetchFault p f, .notYet)
    | (s, .poison) => (s.fetchPoison p, .notYet)

/-- The leg's pad vector (R120, R131). -/
def Pilot.padRow (x : Pilot) : Nat := x.rowtab.getD (legPadRow x.leg.entry) 0

/-- The waypoint's hold vector (R120, R194). -/
def Pilot.holdRow (x : Pilot) : Nat := x.rowtab.getD (x.q.waypoint.getD 0) 0

/-- The row of the next vector of a run. -/
def State.nextRow (s : State) (p : Nat) (r : Run) : State × NextRow :=
  let x := s.pilot p
  match r.src with
  | .rows | .repeatRow => (s, s.headRow p)
  | .pad => (s, .row x.padRow)
  | .hold => (s, .row x.holdRow)
  | .scan g => match s.headRow p with
    | .row base => s.scanRow p base g r.done
    | other => (s, other)
  | .matchBody => match x.leg.matchSt with
    | some m => (s, .row (m.rows.getD m.inBody 0))
    | none => (s, .notYet)

/-! ### One vector -/

/-- What follows a run is a wait, whose vectors are over only with it (R161). -/
def After.isWait : After → Bool
  | .wait _ _ => true
  | _ => false

/-- The bookkeeping of a vector just issued: rows consumed, match body advanced, holds counted (R127, R147, R194). -/
def State.afterVector (s : State) (p : Nat) (r : Run) : State :=
  let s := match r.src with
    | .rows => s.eatRow p
    | .repeatRow | .scan _ => if r.left = 1 ∧ r.after.isWait = false then s.runOver p r.src (r.done + 1) else s
    | .matchBody =>
      let x := s.pilot p
      match x.leg.matchSt with
      | some m =>
        let m := if m.inBody + 1 = m.k then { m with inBody := 0, ends := m.ends ++ [x.q.next - 1] } else { m with inBody := m.inBody + 1 }
        s.setLeg p { x.leg with matchSt := some m }
      | none => s
    | .hold =>
      let x := s.pilot p
      (s.setPilot p { x with holdVecs := x.holdVecs + 1 }).bump fPLT_HOLD_STAT_hold_vectors p
    | .pad => s
  let q := (s.pilot p).q
  s.setSeq p { q with run := some { r with left := r.left - 1, done := r.done + 1 },
                      waypoint := if r.src = .hold then q.waypoint else none, pastWay := true, jumped := false }

/-- One vector of the run in progress is issued, if the queues have room and its row is there; a check that fails is a fatal
micro-trap (R28, R98, R150). The answer says whether a vector was issued. -/
def State.issueOne (s : State) (p : Nat) (r : Run) : State × Bool :=
  if s.queueRoom p = false then (s, false)
  else match s.nextRow p r with
    | (s, .notYet) => (s, false)
    | (s, .trap cause) => (s.fatalTrap p cause, false)
    | (s, .row v) =>
      let (iter, group) := match r.src, (s.pilot p).leg.matchSt with
        | .matchBody, some m => (m.ends.length + 1, hGroup (s.pilot p).hdr m.group)
        | _, _ => (0, 0)
      match s.issueVector p v iter group r.noFail with
      | (s, some cause) => (s.fatalTrap p cause, false)
      | (s, none) =>
        let due := (s.pilot p).leg.results.length == 1
        let s := s.afterVector p r
        (if due then s.settle p else s, true)

/-! ### Decisions at the end of a run -/

/-- What a run's end makes of the Pilot: it went on, it waits, or it asks for one more pad (R145). -/
inductive Decision where
  | goesOn
  | waits
  | pads (extension : Bool)
  deriving DecidableEq, Repr

/-- A result that is not known at the point of decision: a pad when the issue queue is down to one stride, else the Pilot waits
(R145, R146). -/
def State.extendOr (s : State) (p : Nat) : Decision := if s.queueLevel p ≤ 32 then .pads true else .waits

/-- A run's end that acted: the Pilot goes on, or when the run still stands it could not act yet, and waits (R347). -/
def State.went (s : State) (p : Nat) (run : Option Run) : State × Decision :=
  (s, if (s.pilot p).q.run = run then .waits else .goesOn)

/-- The end of a match iteration, or of a pad after the last (R148). A verdict whose q_j falls inside an iteration acts at that iteration's
end, and R145's pads, where it is still unknown, come there too: pads inside an iteration would part its vectors (DESIGN CHOICE,
assumption 105). -/
def State.matchStep (s : State) (p : Nat) : State × Decision :=
  let x := s.pilot p
  match x.leg.matchSt with
  | none => (s.setSeq p { x.q with run := none }, .goesOn)
  | some m =>
    let issued := m.ends.length
    let done (s : State) (outcome v : Nat) : State :=
      let s := (s.fput fPLT_MATCH_STAT_outcome p outcome).fput fPLT_MATCH_STAT_m p v
      let y := s.pilot p
      s.setPilot p { y with q := { y.q with run := none }, leg := { y.leg with matchSt := none } }
    let s := s.fput fPLT_MATCH_STAT_issued p issued
    match x.matchNow m with
    | .matched j => (done s 1 j, .goesOn)
    | .unknown => (s, s.extendOr p)
    | .open' allFailed =>
      if issued < m.limit then
        (s.setSeq p { x.q with run := some { src := .matchBody, left := m.k, after := .matchLoop } }, .goesOn)
      else if allFailed then (s.branchActs p m.branch cOperand (fun s => done s 2 0)).went p x.q.run
      else (s, .pads false)

/-- A waiting word's next step (R158): it completes, or wants one vector or one cycle more. -/
def State.waitStep (s : State) (p w count : Nat) : State × Option Bool :=
  if mwHorizon w ∧ (s.pilot p).leg.keepIndex.any (fun i => decide ((s.pilot p).leg.recorded ≤ i)) then (s, none)
  else if s.mwTest p w then (s.completeWord p w false, some true)
  else match s.waitLimit p w with
    | some k => if count = k then (s.completeWord p w true, some true) else (s, some false)
    | none => (s, some false)

/-- The end of a run (R144, R145, R148, R155). -/
def State.finishRun (s : State) (p : Nat) (r : Run) : State × Decision :=
  let x := s.pilot p
  let clear (s : State) : State := s.setSeq p { (s.pilot p).q with run := none }
  match r.after with
  | .next => (clear s, .goesOn)
  | .failBranch onFail g b upTo =>
    if x.leg.recorded ≤ upTo then (s, s.extendOr p)
    else
      let failed := x.leg.failedOn (hGroup x.hdr g) upTo
      if failed = onFail then (s.branchActs p b cOperand clear).went p x.q.run else (clear s, .goesOn)
  | .pvCapt bit v mask index =>
    if x.leg.recorded ≤ index then (s, s.extendOr p) else ((clear s).captVar p bit v mask, .goesOn)
  | .matchLoop => s.matchStep p
  | .word w =>
    if mwHorizon w ∧ x.leg.keepIndex.any (fun i => decide (x.leg.recorded ≤ i)) then (s, s.extendOr p)
    else if mwOp w = 5 then (s.setSeq p { x.q with run := some { r with after := .wait w 0, done := 0 } }, .goesOn)
    else (s.completeWord p w false).went p x.q.run
  | .wait w count =>
    match s.waitStep p w count with
    | (s, some true) => s.went p x.q.run
    | (s, some false) =>
      let q := (s.pilot p).q
      let left := if mwIssues w then x.unitOf r.src else 0
      (s.setSeq p { q with run := some { r with left := left, after := .wait w (count + 1) }, waitCount := count + 1 },
        if mwIssues w then .goesOn else .waits)
    | (s, none) => (s, s.extendOr p)
  | .branch i row c => if (x.slotOf i row c).isSome then (s.goTo p i row c, .goesOn) else (s, .waits)
  | .holdEnd | .absolute _ _ => (s.setSeq p { x.q with run := some { r with left := 1 } }, .goesOn)

/-! ### Instructions by word -/

/-- An instruction word taken (R136, R137). -/
def State.runInstr (s : State) (p w : Nat) : State :=
  let b := bits w 47 32
  let a := bits w 50 48
  let n := bits w 31 0
  let go (f : State → State) : State := s.takeInstr p w f
  match bits w 63 56 with
  | 0x00 => go (fun s => s.insNop p)
  | 0x01 => go (fun s => s.insVec p n)
  | 0x02 => go (fun s => s.insRpt p n)
  | 0x03 => go (fun s => s.insPad p n)
  | 0x10 => go (fun s => s.insLoop p a b n)
  | 0x11 => go (fun s => s.insEndl p a)
  | 0x20 => go (fun s => s.insJmp p b)
  | 0x21 => go (fun s => s.insCall p b)
  | 0x22 => go (fun s => s.insRet p)
  | 0x23 => go (fun s => s.insFailMark p)
  | 0x24 => go (fun s => s.insJmpFail p a b)
  | 0x25 => go (fun s => s.insJmpPass p a b)
  | 0x26 => go (fun s => s.insJmpInd p a)
  | 0x27 => go (fun s => s.insJmpAbs p a)
  | 0x28 => go (fun s => s.insMatch p a b (bits w 31 20 + 1) (bits w 19 0 + 1))
  | 0x29 => go (fun s => s.insAluSet p a n)
  | 0x2A => go (fun s => s.insAluAdd p a n)
  | 0x2B => go (fun s => s.insJmpAnz p a b)
  | 0x30 => go (fun s => s.insWaitOdo p (bitAt w 48) (bits w 47 0))
  | 0x34 => go (fun s => s.insMsPost p (bits w 51 48) (bits w 15 0))
  | 0x38 => go (fun s => s.insLegendSel p (bits w 0 0))
  | 0x3A => go (fun s => s.insTset p (bits w 10 0))
  | 0x40 => go (fun s => s.insWaypt p (bits w 7 0))
  | 0x41 => go (fun s => s.insLegStart p (bits w 11 0))
  | 0x42 => go (fun s => s.insEndLeg p (bitAt w 0))
  | 0x50 => go (fun s => s.insCapCtl p a (bitAt w 1) (bitAt w 0))
  | 0x51 => go (fun s => s.insFfailArm p)
  | 0x60 => go (fun s => s.insSxtWin p (bits w 53 48) (bits w 47 24) (bits w 23 0))
  | 0x61 => go (fun s => s.insSxtArm p (bitAt w 52) (bits w 51 0))
  | 0x70 => go (fun s => s.insDdsHop p a (bits w 11 0))
  | 0x80 => go (fun s => s.insPvLoad p a (bits w 47 0))
  | 0x81 => go (fun s => s.insPvXor p a (bits w 47 0))
  | 0x82 => go (fun s => s.insPvCapt p (bitAt w 52) a (bits w 47 0))
  | 0x90 => go (fun s => s.insScan p (bits w 49 48) n)
  | op => if 0xC0 ≤ op then s.takeUser p w else go id

/-- The instruction at the counter, from the slot last branched to or through the cluster's read port (R130); beyond the stream it reads
as undefined. -/
def State.fetchInstr (s : State) (p : Nat) : State × Option Nat :=
  let x := s.pilot p
  let held := 8 * (x.q.pc - x.str.codeLo)
  if hInstrWords x.hdr ≤ x.q.pc then (s.fatalTrap p cOpcode, none)
  else if x.str.codeLo ≤ x.q.pc ∧ held + 8 ≤ x.str.code.length then (s, some (ofBytes ((x.str.code.drop held).take 8)))
  else
    let a := (s.pjob p).route + hInstrOff x.hdr + 8 * x.q.pc
    match s.pilotRead p a 8 with
    | (s, .done bs) => (s, some (ofBytes bs))
    | (s, .fault f) => (s.fetchFault p f, none)
    | (s, .poison) => (s.fetchPoison p, none)

/-! ### The stride (R127, R166) -/

/-- What a stride has taken so far, and the run that its last vector was of. -/
structure Budget where
  vecs : Nat := 0
  instrs : Nat := 0
  runs : Nat := 0
  last : Nat × Nat := (0, 0)
  deriving DecidableEq, Repr

/-- The run that a vector belongs to (R127): 1 = consecutive rows, with the row; 2 = repeats of one row, with it; 3 = pads and holds;
4 = the repeats of one match body, with the place of its instruction. A SCAN's vectors lay codes over one row: they count as its repeats
(DESIGN CHOICE, assumption 106). -/
def Pilot.runOf (x : Pilot) (src : RunSource) : Nat × Nat :=
  match src with
  | .rows => (1, x.q.row)
  | .repeatRow | .scan _ => (2, x.q.row)
  | .pad | .hold => (3, 0)
  | .matchBody => (4, x.q.pc)

/-- The run that the next vector continues. -/
def runNext (k : Nat × Nat) : Nat × Nat := if k.1 = 1 then (1, k.2 + 1) else k

/-- The stride has no room for a vector of a run: it holds 32, or the vector would begin a fifth run (R127). -/
def Budget.full (b : Budget) (k : Nat × Nat) : Bool := decide (32 ≤ b.vecs) || (k != b.last && decide (4 ≤ b.runs))

/-- A vector of a run joins the stride. -/
def Budget.take (b : Budget) (k : Nat × Nat) : Budget :=
  { b with vecs := b.vecs + 1, runs := if k = b.last then b.runs else b.runs + 1, last := runNext k }

/-- An instruction whose vectors did not fit in the last stride counts in this one again (R127). -/
def Pilot.carried (x : Pilot) : Nat :=
  match x.q.run with
  | some r => b2n (r.left != 0 && r.after == .next && !x.q.inRoutine && [0x01, 0x02, 0x03, 0x90].contains (bits x.q.opr 63 56))
  | none => 0

/-- An instruction that closes the stride by itself (R136). -/
def closesStride (w : Nat) : Bool :=
  let op := bits w 63 56
  op == 0x27 || op == 0x41 || op == 0x42

/-- The Pilot works: it runs a job that is in a leg, holding or between legs, and no end is under way. -/
def Pilot.works (x : Pilot) : Bool := ((x.st == .inLeg || x.st == .holding) && x.leg.ending == 0) || x.st == .between

/-- The vectors and instructions of one stride, at most fuel steps. The vectors of the eighth instruction still join it: R127 closes the
stride there to instructions (DESIGN CHOICE, assumption 101). -/
def State.strideLoop (s : State) (p : Nat) (b : Budget) : Nat → State
  | 0 => s
  | fuel + 1 =>
    let x := s.pilot p
    let b := if x.q.jumped then { b with last := (0, 0) } else b
    if x.works = false ∨ x.q.closed ∨ 32 ≤ b.vecs then s
    else match x.q.run with
    | some r =>
      if 0 < r.left then
        if b.full (x.runOf r.src) then s
        else
          let limit := s.fget fPLT_HOLD_LIMIT_limit p
          if x.st = .holding ∧ limit ≠ 0 ∧ limit ≤ x.holdVecs then s.doHoldLimit p
          else match s.issueOne p r with
            | (s, true) => State.strideLoop s p (b.take (x.runOf r.src)) fuel
            | (s, false) => s
      else match s.finishRun p r with
        | (s, .goesOn) => State.strideLoop s p b fuel
        | (s, .waits) => s
        | (s, .pads ext) =>
          if b.full (3, 0) then s
          else
            let s := if ext then (s.bump fPLT_HEXT_COUNT_count p).fput fPLT_LEG_STATUS_horizon_extended p 1 else s
            match s.issueOne p { r with src := .pad, left := 1 } with
            | (s, true) => State.strideLoop s p (b.take (3, 0)) fuel
            | (s, false) => s
    | none =>
      if x.q.inRoutine then
        match s.fetchWord p with
        | (s, none) => s
        | (s, some w) =>
          let s := s.runWord p w
          -- a word that could not act yet is taken again in the next stride (R347)
          if (s.pilot p).q = x.q then s else State.strideLoop s p b fuel
      else if 8 ≤ b.instrs then s
      else match s.fetchInstr p with
        | (s, none) => s
        | (s, some w) =>
          let s := s.runInstr p w
          let q := (s.pilot p).q
          -- and so is an instruction: nothing but what its dispatch shows has changed
          if q = { x.q with opr := q.opr, upc := q.upc, passBrk := q.passBrk } then s
          else
            let closes := closesStride w || (bits w 63 56 < 0xC0 && !s.folds (p / 4) (bits w 63 56))
            let s := s.setSeq p { q with closed := q.closed || closes }
            State.strideLoop s p { b with instrs := b.instrs + 1 } fuel

/-- STRIDE: a Pilot forms and issues one stride in a Pilot cycle (R127). A hold's end is judged at its beginning (R195). -/
def State.doStride (s : State) (p : Nat) : State :=
  let s := s.doHoldEnd p
  let s := s.setSeq p { (s.pilot p).q with closed := false }
  s.strideLoop p { instrs := (s.pilot p).carried } 128

/-- SEQ_WAIT_TIMEOUT: a waiting word whose count has reached its limit, and whose test fails, goes to TGT (R158). -/
def State.doWaitTimeout (s : State) (p : Nat) : State :=
  match (s.pilot p).q.run with
  | some r => match r.after with
    | .wait w count =>
      if s.mwTest p w = false ∧ s.waitLimit p w = some count ∧ r.left = 0 then s.completeWord p w true else s
    | _ => s
  | none => s

/-- A microword row: the routine's running word is w with the row's SEQ operation; it begins, and completes unless it issues
vectors or waits (R155, R156). -/
def State.seqWord (s : State) (p op w : Nat) : State :=
  let x := s.pilot p
  if x.q.inRoutine ∧ x.q.run.isNone ∧ x.st = .inLeg ∧ x.leg.ending = 0 then s.runWord p (setBits (w % 2 ^ 192) 191 188 op) else s

/-! ### The rows of the command table -/

/-- STRIDE (R127). -/
def execStride (p : PilotNo) (s : State) : Host.Outcome State Fault Refusal := .next (s.doStride p.val)

/-- SEQ_CONT (R156). -/
def execSeqCont (p : PilotNo) (w : BitVec 192) (s : State) : Host.Outcome State Fault Refusal := .next (s.seqWord p.val 0 w.toNat)

/-- SEQ_JUMP (R156). -/
def execSeqJump (p : PilotNo) (w : BitVec 192) (s : State) : Host.Outcome State Fault Refusal := .next (s.seqWord p.val 1 w.toNat)

/-- SEQ_BRANCH (R156). -/
def execSeqBranch (p : PilotNo) (w : BitVec 192) (s : State) : Host.Outcome State Fault Refusal := .next (s.seqWord p.val 2 w.toNat)

/-- SEQ_MCALL (R156). -/
def execSeqMcall (p : PilotNo) (w : BitVec 192) (s : State) : Host.Outcome State Fault Refusal := .next (s.seqWord p.val 3 w.toNat)

/-- SEQ_MRET (R156). -/
def execSeqMret (p : PilotNo) (w : BitVec 192) (s : State) : Host.Outcome State Fault Refusal := .next (s.seqWord p.val 4 w.toNat)

/-- SEQ_WAIT (R158). -/
def execSeqWait (p : PilotNo) (w : BitVec 192) (s : State) : Host.Outcome State Fault Refusal := .next (s.seqWord p.val 5 w.toNat)

/-- SEQ_WAIT_TIMEOUT (R158). -/
def execSeqWaitTimeout (p : PilotNo) (s : State) : Host.Outcome State Fault Refusal := .next (s.doWaitTimeout p.val)

/-- SEQ_NEXT (R156). -/
def execSeqNext (p : PilotNo) (w : BitVec 192) (s : State) : Host.Outcome State Fault Refusal := .next (s.seqWord p.val 6 w.toNat)

/-- SEQ_RBR (R156). -/
def execSeqRbr (p : PilotNo) (w : BitVec 192) (s : State) : Host.Outcome State Fault Refusal := .next (s.seqWord p.val 7 w.toNat)

/-- SEQ_MTAB (R156). -/
def execSeqMtab (p : PilotNo) (w : BitVec 192) (s : State) : Host.Outcome State Fault Refusal := .next (s.seqWord p.val 8 w.toNat)

/-- SEQ_TRAP (R156). -/
def execSeqTrap (p : PilotNo) (w : BitVec 192) (s : State) : Host.Outcome State Fault Refusal := .next (s.seqWord p.val 9 w.toNat)

end Sys2Proof.Machine
end

