-- ==== Sys2Proof/Machine/PilotEvents.lean ====
section
/-! DEFINITION. What happens to a Pilot and its pins from outside the instruction stream: leg starts and slip windows (R58 to R61,
R132, R216, R503), vector periods and edges (R29, R92 to R106), compare results (R30, R74, R96, R203), halts and drops (R17,
R218), leg ends (R135), capture writes and markers (R204 to R208), and the control store's reload and scrub (R169 to R171). -/

namespace Sys2Proof.Machine

/-! ### Leg start (R216) -/

/-- The pin checks of a leg start in the order of R216: the status that refuses it, and whether the pins then park. -/
def State.pinRefusal (s : State) (pins : List Nat) : Option (Status × Bool) :=
  if pins.any s.lvlErr then some (.levelRange, true)
  else if pins.any (fun n => s.fbit fPIN_STATUS_settling n) then some (.levelSettling, true)
  else if pins.any s.cmpErr then some (.levelRange, true)
  else if pins.any (fun n => s.fget fPIN_PMU_CTL_mode n != 0 || s.abus n != 0) then some (.pinBusy, false)
  else if pins.any (fun n => s.isDown (n / 4) || s.goesDown (n / 4)) then some (.pinPoweredDown, true)
  else none

/-- The vector rate of a leg exceeds the grade's 16 Gb/s (R3). -/
def State.gradeOver (s : State) (m d : Nat) : Bool :=
  s.fget fDEV_ID_grade == 1 && decide (160 * 2 ^ 32 * d < (s.mer m).maxWord)

/-- The latency that a sync offset must cover, in ns: 40, and the declared path latency for a Wayline port (R61). -/
def State.syncLatency (s : State) (e : Nat) : Nat :=
  if legSrc e = 3 then 40 + s.fget fWLN_P_LAT_lat_ns (legSel e % 4) else 40

/-- The sync offset is too short (R61). -/
def State.syncShort (s : State) (m e : Nat) : Bool :=
  legSlip e && decide (legO e * legD88 e < (s.mer m).spanAtMax (s.syncLatency e))

/-- What refuses a leg start of a Pilot's job with a leg entry (R3, R41, R61, R216, R223, R431, R465). -/
def State.legRefusal (s : State) (p e n88 : Nat) : Option (Status × Bool) :=
  let m := (s.pjob p).meridian
  let x := s.pilot p
  let early := (s.mer m).reading (x.handover + 20000 * unitsPerNs)
  if x.legsDone = 0 ∧ x.resumed = false ∧ n88 - legReach e < early then some (.pilotBusy, false)
  else if s.thermalAct then some (.thermalAct, true)
  else if s.gradeOver m (legD e) then some (.gradeLimit, true)
  else if (s.mer m).st ≠ .running then some (.meridianUnlocked, true)
  else if legSlip e ∧ legSrc e = 3 ∧ s.mustered = false then some (.convoyRefused, true)
  else if s.syncShort m e then some (.syncOffset, true)
  else s.pinRefusal (s.pilotPins p)

/-- A leg start refused: the job ends with the status, and the pins that the rule leaves parked have fault_park set (R216). -/
def State.refuseLeg (s : State) (p : Nat) (st : Status) (park : Bool) : State :=
  let s := if park then s.parkPins (s.pilotPins p) else s
  s.endJob (s.pilot p).job st

/-- A pin at the start of a leg (R125, R503): nothing driven by the leg, its driver as the idle state left it. -/
def State.legPin (s : State) (n : Nat) : State :=
  let d := s.pinDrive n
  let x := s.pin n
  s.setPin n { x with drive := d, edges := [], samples := [], issueQ := [], lastTrans := none, lastOpen := none, lastClose := 0,
                      prevAct := .none, prevNoFail := false, lastLevel := none, capCur := 0,
                      capCodes := 0, capLost := 0 }

/-- The period of vector 0 begins: the leg has started, which is reported (R134, R229). -/
def State.reportStart (s : State) (p : Nat) : State :=
  let r := (s.pilot p).leg.s88
  (s.fput fPLT_LEG_STATUS_started p 1).jobEvent p (s.pilot p).job 1 0 (r / fracOne) (r % fracOne) 0

/-- The leg will begin at S, now or after a slip window's offset: the Pilot is in leg (R60, R124, R134). -/
def State.beginLeg (s : State) (p s88 : Nat) : State :=
  let x := s.pilot p
  let s := (s.pilotPins p).foldl (fun s n => s.legPin n) s
  let s := s.setPilot p { x with st := .inLeg, resumed := false, leg := { x.leg with s88 := s88 % 2 ^ 88, slip := none } }
  let s := s.setJob x.job { s.job x.job with st := .running }
  let s := (s.fput fPLT_LEG_S_cycles p (s88 % 2 ^ 88 / fracOne)).fput fPLT_LEG_FRAC_fraction p (s88 % fracOne)
  if s88 % 2 ^ 88 ≤ s.odo (s.pjob p).meridian then s.reportStart p else s

/-- A leg is accepted for start at N: its status is clear, its masks and drops are in force; without a slip window it begins
(R58, R217, R220). With one, MER_SLIP_STAT.outcome goes back to 0: the spec gives the outcomes, not when an old one goes (DESIGN
CHOICE, assumption 81). -/
def State.acceptLeg (s : State) (p e n88 : Nat) : State :=
  let x := s.pilot p
  let drops := Nat.lor x.dropPersist x.dropNext
  let park := (s.pjob p).flag 3
  let at0 : Bank Nat (Option Nat) := (maskBits 48 drops).foldl (fun b k => nset none k (some 0) b) []
  let slip : Option Slip := if legSlip e then
      some ⟨legSrc e, legSel e, legFalling e, n88 - legReach e, n88 + legReach e, legO e * legD88 e, legExpiryFault e⟩
    else none
  let leg : Leg := { index := x.awaitLeg, entry := e, s88 := n88, slip := slip, slipLeg := legSlip e, dropAt := at0,
                     parkFrom := if park then at0 else [] }
  let str := { x.str with plane := x.str.tcNext, flags := bits x.str.flags 1 0, firstLost := none, ctBlock := 0, ctInBlock := 0 }
  let s := s.setPilot p { x with leg := leg, str := str, q := { x.q with next := 0, bank := 0, waypoint := none }, dropNext := 0 }
  let s := s.wr .PLT_LEG_STATUS p 0 (BitVec.ofNat 64 (x.awaitLeg % 4096 * 2 ^ 20))
  let s := (s.fput fPLT_SITE_MASK_masked p x.maskNext).fput fPLT_SITE_DROP_dropped p drops
  let s := if (s.pilotPins p).any (fun n => !s.trimmed n) then s.fput fPLT_LEG_STATUS_untrimmed p 1 else s
  if legSlip e then s.fput fMER_SLIP_STAT_outcome p 0 else s.beginLeg p n88

/-- A leg start at N with the entry awaited: refused, or accepted (R216); the status says which. -/
def State.startLeg (s : State) (p n88 : Nat) : State × Status :=
  let e := (s.pilot p).awaitEntry
  match s.legRefusal p e n88 with
  | some (st, park) => (s.refuseLeg p st park, st)
  | none => (s.acceptLeg p e n88, .ok)

/-- The entry of the leg that a Pilot awaits, when its job is the one named; else 0. -/
def State.awaitedEntry (s : State) (p j : Nat) : Nat :=
  if (s.pilot p).job = j ∧ (s.pilot p).st = .awaiting then (s.pilot p).awaitEntry else 0

/-- The awaited leg is one that a leg-start milestone starts: leg 0, one with start_mode 0, or the first after a resume (R132, R225). -/
def State.byMilestone (s : State) (p e : Nat) : Bool :=
  (s.pilot p).legsDone == 0 || legMode e == 0 || (s.pilot p).resumed

/-- A leg-start milestone's N, and the instant at which its leg is checked: N is the reading of the job's meridian when the named
meridian reaches the target, and the checks are made when the slip window opens, N - W × D (R53, R58, R59; assumption 28). A job's
meridian that stands never reads its window's start: the start is checked at its target, and refused (R41). -/
def State.startPoint (s : State) (x : Milestone) (m reach : Nat) : Option (Nat × Nat) :=
  match (s.mer x.mer).instantOf x.at88 with
  | none => none
  | some t =>
    let n88 := if m = x.mer then x.at88 else (s.mer m).reading t
    if reach = 0 then some (t, n88) else some ((((s.mer m).instantOf (n88 - reach)).getD t), n88)

/-- MS_LEG_START: a leg-start milestone fires (R58, R132, R176, R216, R223). Its report says whether the leg started (R500). One that
fires when its job awaits no start by a milestone starts nothing (assumption 60). -/
def State.doMsLegStart (s : State) (id : Nat) : State :=
  match s.ms.pending.find? (fun x => x.id == id && x.action == 1) with
  | none => s
  | some x =>
    let j := x.target
    let p := (s.job j).pilot
    let mine := (s.pilot p).job = j ∧ (s.pilot p).st = .awaiting
    let e := s.awaitedEntry p j
    match s.startPoint x (s.job j).meridian (legReach e) with
    | none => s
    | some (t, n88) =>
      -- a slip start opens its window before its target, whatever else has that target (R55, R59)
      match s.msFireAt id 1 (legReach e = 0) (fun _ => some t) with
      | none => s
      | some (s, f) =>
        if mine then
          if s.byMilestone p e then
            let r := s.startLeg p n88
            r.1.msDone f r.2
          else s.msDone f .legLate
        else if (s.job j).st = .awaiting then (s.endJob j .pilotBusy).msDone f .pilotBusy
        else if (s.pilot p).job = j ∧ (s.pilot p).st = .trap then (s.endJob j .legLate).msDone f .legLate
        else s.msDone f .legLate

/-- RELATIVE_LEG_START: a start_mode 1 leg starts at the end reading of the previous leg plus start_rel (R132). With a slip
window it is accepted when the window opens. -/
def State.doRelativeLegStart (s : State) (p : Nat) : State :=
  let x := s.pilot p
  if x.st ≠ .awaiting ∨ x.leg.slip.isSome ∨ x.legsDone = 0 ∨ x.resumed ∨ legMode x.awaitEntry = 0 then s
  else
    let n88 := s.relativeN p x.awaitEntry
    match (s.mer (s.pjob p).meridian).instantOf (n88 - legReach x.awaitEntry) with
    | some t => ((s.advance t).startLeg p n88).1
    | none => s

/-! ### Slip windows (R59 to R61) -/

/-- A leg-start is pending for the leg that a Pilot awaits. -/
def State.startPending (s : State) (p : Nat) : Bool :=
  s.ms.pending.any (fun x => x.action == 1 && x.target == (s.pilot p).job) || decide (0 < (s.pilot p).legsDone)

/-- A sync edge whose reading on the job's meridian is r, in 2^-24 cycles, meets a Pilot's slip leg (R59, R60, R62). -/
def State.slipEdge (s : State) (p r : Nat) : State :=
  let x := s.pilot p
  match x.leg.slip with
  | some w =>
    if x.st ≠ .awaiting then s
    else if r < w.lo then s.bump fMER_SLIP_STAT_early_count p
    else if r ≤ w.hi then (s.fput fMER_SLIP_STAT_outcome p 1).beginLeg p (r + w.offset)
    else s
  | none =>
    if x.st = .awaiting ∧ s.startPending p ∧ legSlip x.awaitEntry then s.bump fMER_SLIP_STAT_early_count p
    else if x.st = .inLeg ∧ x.leg.slipLeg ∧ s.fget fMER_SLIP_STAT_outcome p = 1 ∧ r ≤ x.leg.s88 then s.bump fMER_SLIP_STAT_extra_count p
    else s

/-- The entry of the slip leg that a Pilot awaits or runs, if it is one (R59). -/
def State.slipEntry (s : State) (p : Nat) : Option Nat :=
  let x := s.pilot p
  if x.leg.slip.isSome ∨ (x.st = .inLeg ∧ x.leg.slipLeg) then some x.leg.entry
  else if x.st = .awaiting ∧ legSlip x.awaitEntry then some x.awaitEntry
  else none

/-- The sync source and selector that a Pilot's slip leg listens to, in a window, before it or running (R59). -/
def State.slipSource (s : State) (p : Nat) : Option (Nat × Nat) := (s.slipEntry p).map (fun e => (legSrc e, legSel e))

/-- A sync source shows its edges: a pin's comparator must be on (R75, R84). -/
def State.syncSeen (s : State) (src : Option (Nat × Nat)) : Bool :=
  match src with
  | some (1, n) => s.cmpOn n
  | _ => true

/-- SLIP_SYNC_EDGE: an edge of the sync source at an instant, stamped on the leg's meridian (R60, R61). One that comes while the
meridian stands still is an edge outside any window (R499). -/
def State.doSlipSyncEdge (s : State) (p t : Nat) : State :=
  let s := s.advance t
  if s.syncSeen (s.slipSource p) then s.slipEdge p ((s.mer (s.pjob p).meridian).reading t) else s

/-- A Wayline sync message that arrives later than e + O × D - 40 ns (R61), whether the window has opened, stands or has closed. -/
def State.syncTooLate (s : State) (p r : Nat) : Bool :=
  match s.slipEntry p with
  | some e => match (s.mer (s.pjob p).meridian).instantOf (r + legO e * legD88 e) with
    | some t => decide (t < s.now + 40 * unitsPerNs)
    | none => true
  | none => false

/-- A Wayline sync message with its edge reading on the job's meridian: one that arrives too late is ignored and counts in
extra_count, and never in early_count; the others are sync edges (R61). -/
def State.slipMessage (s : State) (p r : Nat) : State :=
  if s.syncTooLate p r then s.bump fMER_SLIP_STAT_extra_count p else s.slipEdge p r

/-- SLIP_EXPIRY: a window closes with no edge inside; the leg starts at its end, or ends as a fault (R61). -/
def State.doSlipExpiry (s : State) (p : Nat) : State :=
  let x := s.pilot p
  match x.leg.slip with
  | none => s
  | some w =>
    if x.st ≠ .awaiting then s
    else match (s.mer (s.pjob p).meridian).instantOf w.hi with
      | none => s
      | some t =>
        let s := (s.advance t).fput fMER_SLIP_STAT_outcome p 2
        let s := s.fput fPLT_LEG_STATUS_slip_expired p 1
        if w.fault then s.killStart p 9 else s.beginLeg p (w.hi + w.offset)

/-! ### Vector periods (R29) -/

/-- A drive transition placed at a pin: none when it would change nothing; moved when it falls within 40 ps of the previous one
(R92, R102, R106). -/
def State.placeTrans (s : State) (p n index at88 : Nat) (d : Drive) : State :=
  let x := s.pin n
  if x.drive = d then s
  else match (s.mer (s.pjob p).meridian).edgeTime at88 with
    | none => s
    | some t0 =>
      let desk := s.drvDeskew n
      let t := shiftTime t0 desk
      let g := s.fget fDDS_PIN_SEL_engine n
      -- a pin that shows an engine has the wave's transitions before this one
      let prev := if x.drive = .dds then some (s.lastRealised n g t) else x.lastTrans
      let first := match prev with | some u => u + 40 * unitsPerPs | none => 0
      let t' := max t first
      -- and one that begins to show it has the wave's next transitions after this one
      let after (u : Nat) : Option Nat := (s.waveAfter g (shiftTime u (-desk))).map (fun v => shiftTime v desk)
      let moved := match d, after t' with
        | .dds, some u => moveWave t' after u (!s.waveLevel g (shiftTime t' (-desk))) 64
        | _, _ => []
      let s := s.setPin n { x with drive := d, lastTrans := some t', waveMoved := moved,
                                   edges := x.edges ++ [⟨index, d, at88, t', decide (t < first)⟩] }
      s.crowded n (b2n (decide (t < first)) + moved.length)

/-- A driver at a level. -/
def Drive.ofLevel (b : Bool) : Drive := if b then .high else .low

/-- The drive transitions of a vector in its order: offset-0 SBC edge, E1, E2, E3 (R92 to R95, R101). At a pin that protects, drive
codes act as DZ (R82). Whether a DC vector finds its engine running is asked when its period begins (assumption 62). -/
def State.placeDrive (s : State) (p n : Nat) (v : PVec) (start : Nat) : State :=
  let e := v.entry
  match (if s.protects n then PAct.off else v.act) with
  | .drive b =>
    match almDfmt e with
    | 0 => s.placeTrans p n v.index (start + almE1 e) (.ofLevel b)
    | 1 => (s.placeTrans p n v.index (start + almE1 e) (.ofLevel b)).placeTrans p n v.index (start + almE2 e) .low
    | 2 => (s.placeTrans p n v.index (start + almE1 e) (.ofLevel b)).placeTrans p n v.index (start + almE2 e) .high
    | 3 => ((s.placeTrans p n v.index start (.ofLevel (!b))).placeTrans p n v.index (start + almE1 e) (.ofLevel b)).placeTrans p n
        v.index (start + almE2 e) (.ofLevel (!b))
    | _ => (s.placeTrans p n v.index (start + almE1 e) .high).placeTrans p n v.index (start + almE2 e) .low
  | .dds =>
    let g := s.fget fDDS_PIN_SEL_engine n
    if (s.ddsEng g).st = .running ∧ s.isDown 29 = false then s.placeTrans p n v.index (start + almE1 e) .dds
    else (s.placeTrans p n v.index (start + almE1 e) .low).bump fDDS_ENG_CNT_dc_idle g
  | _ => s.placeTrans p n v.index (start + almE3 e) .off

/-- The sample of a vector, if it takes one (R96, R97, R102, R203). -/
def State.placeStrobe (s : State) (p n : Nat) (v : PVec) (start : Nat) : State :=
  let m := s.mer (s.pjob p).meridian
  let x := s.pin n
  if v.act.isCompare ∨ v.act = .capture then
    let win := v.act.isCompare && almWindow v.entry
    match m.edgeTime (start + almE4 v.entry), m.edgeTime (start + (if win then almE5 v.entry else almE4 v.entry)) with
    | some o, some c =>
      let o := shiftTime o (s.cmpDeskew n)
      let c := shiftTime c (s.cmpDeskew n)
      let first := match x.lastOpen with | some u => max (u + 40 * unitsPerPs) x.lastClose | none => 0
      let by' := first - o
      let e5 := if win then almE5 v.entry else almE4 v.entry
      let smp : Sample := ⟨v.index, v.pos, v.act, win, v.total, o + by', c + by', start + almE4 v.entry, start + e5, true,
        decide (0 < by')⟩
      let s := s.setPin n { x with samples := x.samples ++ [smp], lastOpen := some (o + by'), lastClose := c + by' }
      s.crowded n (b2n (decide (0 < by')))
    | _, _ => s
  else if v.total then
    match m.instantOf start with
    | some t => s.setPin n { x with samples := x.samples ++ [⟨v.index, v.pos, v.act, false, true, t, t, start, start, false, false⟩] }
    | none => s
  else s

/-- What waited for the period of an index acts (R139, R142, R241, R264). -/
def State.runDeferred (s : State) (p i t : Nat) : State :=
  let l := (s.pilot p).leg
  let m := (s.pjob p).meridian
  let start := l.periodAt i
  let due := l.acts.filter (fun a => decide (a.1 ≤ i))
  let s := s.setLeg p { l with acts := l.acts.filter (fun a => decide (i < a.1)) }
  let eff96 (s : State) (k : Nat) : Nat := if k = m then start * 256 else (s.mer k).reading96 t
  due.foldl (fun s a => match a.2 with
    | .post q elem => s.report q 32 (postElem elem i start (bits elem 19 16 == 2))
    | .window c opens len =>
      let e := eff96 s (s.sxtMer c)
      s.sxtWindow c (e + opens * 2 ^ 32) (e + (opens + len) * 2 ^ 32) e
    | .arm mask on => (maskBits 52 mask).foldl (fun s c => s.sxtArm c on (eff96 s (s.sxtMer c))) s
    | .hop e entry => s.ddsHop e entry (if s.ddsMer e = m then start else (s.mer (s.ddsMer e)).reading t)) s

/-- A vector period begins on the Pilot, once for all its pins: the leg has started, and what waited for the period acts. `begun` is
how many periods had begun. -/
def State.periodBegins (s : State) (p i t begun : Nat) : State :=
  let s := if s.fbit fPLT_LEG_STATUS_started p then s else s.reportStart p
  if begun ≤ i then (s.runDeferred p i t).setLeg p { ((s.runDeferred p i t).pilot p).leg with begun := i + 1 } else s

/-- VECTOR_PERIOD: a vector period begins at a pin: its vector leaves the issue queue and its edges are placed; an empty queue is
underrun (R29, R185). -/
def State.doVectorPeriod (s : State) (n : Nat) : State :=
  match s.pinLeg n with
  | none => s
  | some p =>
    let x := s.pilot p
    let mer := s.mer (s.pjob p).meridian
    match (s.pin n).issueQ with
    | [] =>
      if x.leg.ending ≠ 0 then s
      else match mer.instantOf (x.leg.periodAt x.q.next) with
        | none => s
        | some t =>
          let s := (s.advance t).lateFaults p
          let s := if s.fbit fPLT_LEG_STATUS_started p then s else s.reportStart p
          (s.setLeg p { x.leg with begun := max x.leg.begun (x.q.next + 1) }).killLeg p 4 0 (some x.q.next)
    | v :: rest =>
      let start := x.leg.periodAt v.index
      match mer.instantOf start with
      | none => s
      | some t =>
        let s := s.advance t
        let s := s.setPin n { s.pin n with issueQ := rest }
        let s := s.periodBegins p v.index t x.leg.begun
        ((s.placeDrive p n v start).placeStrobe p n v start).settle p

/-! ### Compare results (R30, R74, R96, R203) -/

/-- A comparator state meets a compare action (R74). -/
def meets (a : PAct) (st : Nat) : Bool :=
  match a with
  | .cmpLow => !bitAt st 0
  | .cmpHigh => bitAt st 1
  | .cmpMid => bitAt st 0 && !bitAt st 1
  | _ => true

/-- The state that a compare action requires (R203). -/
def requiredState : PAct → Nat
  | .cmpHigh => 3
  | .cmpMid => 1
  | _ => 0

/-- The total-capture code of a sample (R203). -/
def captureCode (a : PAct) (st : Nat) (pass : Bool) : Nat :=
  if a.isCompare then
    if pass then requiredState a
    else if meets a st ∨ st = 2 then 2 else st
  else st

/-- A vector's result with one sample more: its pin's fail bit, state and capture code (R30, R184, R190). -/
def VRes.judge (v : VRes) (a : Sample) (st : Nat) (held : Bool) : VRes :=
  let pass := meets a.act st && (!a.window || held)
  let code := if a.total then captureCode a.act st pass else 0
  if v.index = a.index then
    { v with waiting := setBit v.waiting a.pos false,
             failed := setBit v.failed a.pos (a.act.isCompare && !pass),
             states := setBits v.states (2 * a.pos + 1) (2 * a.pos) st,
             codes := setBits v.codes (2 * a.pos + 1) (2 * a.pos) code }
  else v

/-- COMPARE_RESULT_ARRIVAL: a pin's oldest sample reaches the fail logic 32 Pilot cycles after its strobe closed. The comparators give
the state for the pin's voltage at E4, in nV; `crossing` says that it crossed both thresholds within the sample, which gives 0b10
(R74); `held` says that the state met the action throughout the window. -/
def State.doCompareResult (s : State) (n : Nat) (nv : Int) (crossing held : Bool) : State :=
  match (s.pin n).samples, (List.range 16).find? (fun p => (s.pilotPins p).contains n && (s.pilot p).leg.results != []) with
  | a :: rest, some p =>
    let st := if s.cmpOn n = false then 0 else if crossing then 2 else s.cmpAt n nv
    let s := (s.feelVoltage n nv).advance (a.closes + 32 * pilotCycle)
    let s := s.setPin n { s.pin n with samples := rest }
    let l := (s.pilot p).leg
    (s.setLeg p { l with results := l.results.map (fun v => v.judge a st held) }).settle p
  | _, _ => s

/-! ### Ends, halts and drops -/

/-- The instant by which every drive edge placed at a Pilot's pins is realised (R100, R135). -/
def State.edgesDone (s : State) (p : Nat) : Nat :=
  (s.pilotPins p).foldl (fun t n => (s.pin n).edges.foldl (fun t e => max t e.time) t) 0

/-- LEG_END: a leg's last period has ended, every result is in and every edge that spills past the period is realised; or the last results
of a leg ended by a cause are in (R135, R186). -/
def State.doLegEnd (s : State) (p : Nat) : State :=
  let x := s.pilot p
  let l := x.leg
  if x.st = .noJob ∨ l.results ≠ [] then s
  else if l.ending = 3 then (s.finishLeg p).endJob x.job .ok
  else if l.ending = 0 ∨ l.begun ≠ x.q.next then s
  else match (s.mer (s.pjob p).meridian).instantOf (l.periodAt x.q.next) with
    | none => s
    | some t =>
      let n := x.q.next
      let s := (s.advance (max t (s.edgesDone p))).closeLeg p 1 n
      let s := (s.flushPosts p n (l.periodAt n)).finishLeg p
      s.boundary p (decide (l.ending = 2))

/-- HALT_ENTRY: the Pilot takes an entry of its halt queue: the leg ends at that stride with the entry's end code and the pins
park; outside a leg the job ends (R17, R176, R228). -/
def State.doHaltEntry (s : State) (p : Nat) : State :=
  match s.qTake (16 + p) with
  | none => s
  | some (e, s) =>
    let x := s.pilot p
    let code := e % 16
    if s.legRuns p then s.killLeg p code 0
    else if x.st = .awaiting ∧ x.leg.slip.isSome then s.killStart p code
    else if x.st = .trap ∨ x.st = .between ∨ x.st = .awaiting then
      let s := s.dropFrames p
      let s := if code = 3 then s.parkPins (s.pilotPins p) else s
      s.endJob x.job .ok
    else s

/-- SITE_QUEUE_ENTRY: the Pilot takes an entry of its site queue (site in bits [5:0], job in [15:8]) and drops the site: in a leg from the vectors issued so far on,
between legs for the whole of the next leg (R218, R220). -/
def State.doSiteQueueEntry (s : State) (p : Nat) : State :=
  match s.qTake (32 + p) with
  | none => s
  | some (e, s) =>
    let site := e % 64
    let j := bits e 15 8
    let x := s.pilot p
    if (s.job j).accepted = false ∨ bitAt (s.job j).sites site = false then s
    else if x.job ≠ j ∨ x.st = .noJob then
      if bitAt (s.job j).drops site then s
      else (s.setJob j { s.job j with drops := setBit (s.job j).drops site true }).jobEvent p j 6 (2 ^ 64 - 1)
        (if (s.job j).flag 3 then 0 else 2 ^ 64 - 1) 0 site
    -- a leg that a halt or another cause has ended takes no drop any more (R220)
    else if x.leg.ending = 3 ∧ (x.st = .inLeg ∨ x.st = .holding) then s
    else if s.legRuns p ∨ x.leg.slip.isSome then
      if (nget none site x.leg.dropAt).isSome then s else s.dropSite p site x.q.next
    else if bitAt (Nat.lor x.dropNext x.dropPersist) site then s
    else
      let keep := if (s.pjob p).flag 4 then setBit x.dropPersist site true else x.dropPersist
      let s := s.setPilot p { x with dropNext := setBit x.dropNext site true, dropPersist := keep }
      s.jobEvent p x.job 6 (2 ^ 64 - 1) (if (s.pjob p).flag 3 then 0 else 2 ^ 64 - 1) 0 site

/-! ### Captures -/

/-- What a block writes: its codes, and in the slots whose codes were lost what memory holds there (R207). -/
def State.blockBytes (s : State) (b : CapBlock) : State × Except (Option FaultSlot) Nat :=
  if b.lost = 0 then (s, .ok b.data)
  else match s.dvaRead b.pilot (portCP (b.pilot / 4)) b.space b.dva 256 with
    | (s, .done bs) =>
      let old := ofBytes bs
      (s, .ok ((maskBits 1024 b.lost).foldl (fun v m => setBits v (2 * m + 1) (2 * m) (bits old (2 * m + 1) (2 * m))) b.data))
    | (s, .fault f) => (s, .error (some f))
    | (s, .poison) => (s, .error none)

/-- The beats of a block that hold no lost code, with their offsets. -/
def wholeBeats (b : CapBlock) : List (Nat × Nat) :=
  ((List.range 8).filter (fun k => bits b.lost (128 * k + 127) (128 * k) == 0)).map (fun k => (32 * k, bits b.data (256 * k + 255) (256 * k)))

/-- A pin's oldest finished block goes to HBM; one that meets a fault waits (R182, R347). A block with lost codes whose place reads as
poison writes the beats that have none: what stood beside the lost codes cannot be written back, and is lost (R207, R320). -/
def State.writeBlock (s : State) (n : Nat) (b : CapBlock) (rest : List CapBlock) : State :=
  match s.blockBytes b with
  | (s, .error (some f)) => (s.raiseFault f).1
  | (s, .error none) =>
    let s := (wholeBeats b).foldl
      (fun s e => (s.dvaWrite b.pilot (portCP (b.pilot / 4)) .realTime b.space (b.dva + e.1) (bytesOf 32 e.2)).1) s
    s.setPin n { s.pin n with capQ := rest }
  | (s, .ok v) => match s.dvaWrite b.pilot (portCP (b.pilot / 4)) .realTime b.space b.dva (bytesOf 256 v) with
    | (s, none) => s.setPin n { s.pin n with capQ := rest }
    | (s, some f) => (s.raiseFault f).1

/-- CAPTURE_BLOCK_WRITE: a pin's oldest finished block goes to HBM, or when it has none the oldest CT record that its FIFO holds (R182,
R205). -/
def State.doCaptureBlockWrite (s : State) (n : Nat) : State :=
  match (s.pin n).capQ with
  | b :: rest => s.writeBlock n b rest
  | [] =>
    match (List.range 16).find? (fun p => (s.pilot p).str.ctQ.any (fun e => e.1 == n)) with
    | none => s
    | some p =>
      match (s.pilot p).str.ctQ.find? (fun e => e.1 == n) with
      | none => s
      | some e =>
        match s.dvaWrite p (portCP (p / 4)) .realTime e.2.2.1 e.2.1 (bytesOf 32 e.2.2.2) with
        | (s, none) => s.setStr p { (s.pilot p).str with ctQ := (s.pilot p).str.ctQ.erase e }
        | (s, some f) => (s.raiseFault f).1

/-- CAPTURE_MARKER: once every capture write of the leg is acknowledged, its marker is committed (R26, R208). -/
def State.doCaptureMarker (s : State) (p : Nat) : State :=
  let str := (s.pilot p).str
  match str.markers with
  | [] => s
  | (q, elem) :: rest =>
    if str.ctQ = [] ∧ s.pins.all (fun e => e.2.capQ.all (fun b => b.pilot != p)) ∧ s.portQuiet (portCP (p / 4)) then
      (s.setStr p { str with markers := rest }).report q 32 elem
    else s

/-! ### The control store (R169 to R171) -/

/-- The keys that a reload rewrites with a bad one: its block of 32 words, or the whole dispatch section (R169). -/
def reloadKeys (k : Nat) : List Nat :=
  if 16384 ≤ k then (if dispKey 0xC0 ≤ k then (List.range 64).map (fun i => dispKey 0xC0 + i) else (List.range 192).map dispKey)
  else (List.range 32).map (fun i => k / 32 * 32 + i)

/-- The place of a verified copy in the system map, at which space 255 maps it: the vendor image's, then those of the clusters' user images,
256 MiB apart (R169, R308, R332; DESIGN CHOICE, assumption 83). -/
def copyPlace (k : Nat) : Nat := 15 * 2 ^ 40 + k * 2 ^ 28

/-- A verified copy of an image of n bytes is written, in the management class (R169). -/
def State.writeCopy (s : State) (k n img : Nat) : State := s.hbmWrite portBP .management (copyPlace k) (bytesOf (min n (2 ^ 28)) img)

/-- A field of a verified copy as memory has it; none when a beat of it is poisoned (R169, R321). -/
def State.readCopy (s : State) (k off n : Nat) : State × Option Nat :=
  let r := s.hbmRead portBP .management (copyPlace k + off) n
  (r.1, if r.2.2 then none else some (ofBytes r.2.1))

/-- What the verified copy holds for the block or dispatch section of a key, as keys with their contents: none when the block's CRC-32C
or its poison fails it (R169, R321). A block beyond the image's words, or without an image, is zeros. -/
def State.copyBlock (s : State) (k key : Nat) (loaded : Bool) : State × Option (List (Nat × Nat)) :=
  let zeros := (reloadKeys key).map (fun i => (i, 0))
  if loaded = false then (s, some zeros)
  else match s.readCopy k 0 256 with
    | (s, none) => (s, none)
    | (s, some h) =>
      if 16384 ≤ key then
        match s.readCopy k (hdrField h 0x20 8) (8 * (reloadKeys key).length) with
        | (s, none) => (s, none)
        | (s, some d) => (s, some ((reloadKeys key).zipIdx.map (fun e => (e.1, bits d (64 * e.2 + 31) (64 * e.2)))))
      else
        let b := (key - hdrField h 0x8 2) / 32
        if hdrField h 0xA 2 ≤ 32 * b then (s, some zeros)
        else match s.readCopy k (hdrField h 0x18 8 + 1024 * b) 1024 with
          | (s, none) => (s, none)
          | (s, some v) => match s.readCopy k (hdrField h 0x28 8 + 4 * b) 4 with
            | (s, none) => (s, none)
            | (s, some crc) =>
              (s, if crc32c (bytesOf 1024 v) = crc then
                  some ((reloadKeys key).zipIdx.map (fun e => (e.1, bits v (256 * e.2 + 191) (256 * e.2)))) else none)

/-- A cluster with a block rewritten, the marks of its words gone (R169). -/
def Cluster.rewritten (x : Cluster) (k : Nat) (ws : List (Nat × Nat)) : Cluster :=
  { x with words := ws.foldl (fun b e => nset 0 e.1 e.2 b) x.words,
           marks := (reloadKeys k).foldl (fun b i => nset EccMark.clean i .clean b) x.marks }

/-- The lead copies of the entries that a rewritten block changes, or whose first word it holds, are taken anew (R152). -/
def State.refreshBlock (s : State) (c k : Nat) : State :=
  let here (e : Nat) : Bool := bits e 13 0 / 32 == k / 32
  if dispKey 0xC0 ≤ k then s.refreshLeads c 0xC0 64 (fun _ => true)
  else if 16384 ≤ k then s.refreshLeads c 0 192 (fun _ => true)
  else if isUserKey k then s.refreshLeads c 0xC0 64 here
  else s.refreshLeads c 0 192 here

/-- The Pilots of a cluster that wait for a word of a rewritten block go on: each reads its word again, and traps again when that word is
still bad (R170, R174). -/
def State.resumeReloaded (s : State) (c k : Nat) : State :=
  (List.range 4).foldl (fun s i =>
    let x := s.pilot (4 * c + i)
    if x.st = .trap ∧ x.trapWait = cUcodeUe ∧ csBlock x.trapKey = csBlock k then s.resumeTrap (4 * c + i) else s) s

/-- The block of a key as its verified copy has it, read in the management class, and from QSPI when a vendor copy's block fails: what
the store's vendor words were loaded from (R169, R170). None when a user copy fails. -/
def State.reloadWords (s : State) (c k : Nat) (copyOk : Bool) : State × Option (List (Nat × Nat)) :=
  if isUserKey k then
    let r := s.copyBlock (1 + c) k (s.fbit fPLT_CS_STAT_user_loaded c)
    (r.1, if copyOk then r.2 else none)
  else if (s.cluster c).image.isNone then (s, some [])
  else
    let r := s.copyBlock 0 k true
    (r.1, some ((if copyOk then r.2 else none).getD ((reloadKeys k).map (fun i => (i, nget 0 i (s.cluster c).words)))))

/-- CONTROL_STORE_RELOAD: Binnacle rewrites the block of the oldest bad word from its verified copy, and the Pilots that wait for it go
on; a vendor copy whose block fails its CRC is read again from QSPI first; a user copy whose block fails its CRC is lost; a word still
bad is a hard fault (R169, R170). -/
def State.doControlStoreReload (s : State) (c : Nat) (copyOk stillBad : Bool) : State :=
  match (s.cluster c).reload with
  | [] => s
  | k :: rest =>
    let s := (s.setCluster c { s.cluster c with reload := rest }).fput fPLT_CS_STAT_reloading c (b2n (rest != []))
    match s.reloadWords c k copyOk with
    | (s, none) => s.fput fPLT_CS_STAT_user_lost c 1
    | (s, some ws) =>
      let x := (s.cluster c).rewritten k ws
      let x := if stillBad then { x with marks := nset EccMark.clean k .double x.marks } else x
      let s := if stillBad then (s.fput fPLT_CS_STAT_hard_fault c 1).logWrite 0x08 (22 + c) c 0 else s
      ((s.setCluster c x).refreshBlock c k).resumeReloaded c k

/-- CONTROL_STORE_SCRUB: Binnacle reads every word and entry of a cluster (R171). -/
def State.doControlStoreScrub (s : State) (c : Nat) : State :=
  if s.fbit fPLT_CS_STAT_scrub_en c ∧ s.fget fTHM_STAT_state = 0 then (s.cluster c).marks.foldl (fun s e => (s.readCs c e.1).1) s else s

/-! ### The rows of the command table -/

/-- VECTOR_PERIOD (R29). -/
def execVectorPeriod (n : PinNo) (s : State) : Host.Outcome State Fault Refusal := .next (s.doVectorPeriod n.val)

/-- CONTROL_STORE_RELOAD (R169). -/
def execControlStoreReload (c : ClusterNo) (copyOk : Bool) (stillBad : Bool) (s : State) : Host.Outcome State Fault Refusal :=
  .next (s.doControlStoreReload c.val copyOk stillBad)

/-- CONTROL_STORE_SCRUB (R171). -/
def execControlStoreScrub (c : ClusterNo) (s : State) : Host.Outcome State Fault Refusal := .next (s.doControlStoreScrub c.val)

/-- SITE_QUEUE_ENTRY (R218). -/
def execSiteQueueEntry (p : PilotNo) (s : State) : Host.Outcome State Fault Refusal := .next (s.doSiteQueueEntry p.val)

/-- RELATIVE_LEG_START (R132). -/
def execRelativeLegStart (p : PilotNo) (s : State) : Host.Outcome State Fault Refusal := .next (s.doRelativeLegStart p.val)

/-- SLIP_SYNC_EDGE (R60). -/
def execSlipSyncEdge (p : PilotNo) (instant : Nat) (s : State) : Host.Outcome State Fault Refusal :=
  .next (s.doSlipSyncEdge p.val instant)

/-- SLIP_EXPIRY (R61). -/
def execSlipExpiry (p : PilotNo) (s : State) : Host.Outcome State Fault Refusal := .next (s.doSlipExpiry p.val)

/-- CAPTURE_BLOCK_WRITE (R182). -/
def execCaptureBlockWrite (n : PinNo) (s : State) : Host.Outcome State Fault Refusal := .next (s.doCaptureBlockWrite n.val)

/-- CAPTURE_MARKER (R208). -/
def execCaptureMarker (p : PilotNo) (s : State) : Host.Outcome State Fault Refusal := .next (s.doCaptureMarker p.val)

/-- MS_LEG_START (R216). -/
def execMsLegStart (id : Nat) (s : State) : Host.Outcome State Fault Refusal := .next (s.doMsLegStart id)

end Sys2Proof.Machine
end

