-- ==== Sys2Proof/Machine/RouteImage.lean ====
section
/-! DEFINITION. The load checks of a route image (R115, R116, R128, R131, R192), in the order of R116; the first failure gives the
byte offset of the failing field. -/

namespace Sys2Proof.Machine

/-- The offset of the first check that fails. -/
def firstBad (l : List (Bool × Nat)) : Option Nat := (l.find? (fun e => !e.1)).map (·.2)

/-- The first of two results that names an offset. -/
def orBad (a : Option Nat) (b : Unit → Option Nat) : Option Nat :=
  match a with
  | some x => some x
  | none => b ()

/-- A field of an image held as one number: byte offset and size. -/
def imgField (img off n : Nat) : Nat := bits img (8 * (off + n) - 1) (8 * off)

/-- The offset of the lowest set bit's byte among n bytes. -/
def lowByte (v : Nat) : Nat → Nat
  | 0 => 0
  | n + 1 => if v % 256 ≠ 0 then 0 else 1 + lowByte (v / 256) n

/-- The first header checks: magic, version, header length and CRC (R116). -/
def hdrChecks (h : Nat) : List (Bool × Nat) :=
  [(hdrField h 0 4 == 0x54524B50, 0), (hdrField h 4 2 == 1, 4), (hdrField h 6 2 == 512, 6),
   (crc32c (bytesOf 512 (setBits h 127 96 0)) == hdrField h 0xC 4, 0xC)]

/-- Row format, flags, reserved header bits, Legend and group fields (R115, R121). -/
def hdrShape (h : Nat) : List (Bool × Nat) :=
  [(decide (1 ≤ hPins h ∧ hPins h ≤ 48), 8), (hRowBytes h == 4 * ceilDiv (hPins h) 8, 9), (hFlags h < 8, 0xA),
   (hdrField h 0x6C 4 == 0, 0x6C)] ++
  (List.range 32).map (fun k => (decide (bitAt (hFlags h) (k / 16) = false ∨ hdrField h (0x70 + 2 * k) 2 < 512), 0x71 + 2 * k)) ++
  (List.range 8).map (fun g => (decide (hGroup h g < 2 ^ 48), 0xB6 + 8 * g)) ++
  (List.range 4).map (fun k => (decide (hScanGroup h k < 2 ^ 48 ∧ popCount 48 (hScanGroup h k) ≤ 8), 0xF0 + 8 * k)) ++
  [(hdrField h 0x150 176 == 0, 0x150)]

/-- The image holds its vector section; that of a job with a stream region lies beyond it (R187; assumption 29). -/
def hHoldsRows (h : Nat) : Bool := decide (hVecOff h < hdrField h 0x10 8 ∨ hVecRows h = 0)

/-- The sections: header offset of the field, place, length and alignment. -/
def hSections (h : Nat) : List (Nat × Nat × Nat × Nat) :=
  let rb := hRowBytes h
  [(0x18, hInstrOff h, 8 * hInstrWords h, 64), (0x28, hVecOff h, if hHoldsRows h then rb * hVecRows h else 0, 4096),
   (0x38, hScanOff h, hScanBytes h, 64), (0x48, hBranchOff h, 32 * hBranches h, 64), (0x58, hLegOff h, 32 * hLegs h, 64),
   (0x60, hRowtabOff h, rb * hRowtabRows h, 64)]

/-- A section overlaps the header or a section listed before it. -/
def overlaps (secs : List (Nat × Nat × Nat × Nat)) (k : Nat) : Bool :=
  match secs[k]? with
  | none => false
  | some (_, off, n, _) => n != 0 && (decide (off < 512) ||
      (secs.take k).any (fun b => b.2.2.1 != 0 && decide (off < b.2.1 + b.2.2.1 ∧ b.2.1 < off + n)))

/-- Counts, then section alignment, end and overlap (R115, R116). -/
def hdrSections (h : Nat) : List (Bool × Nat) :=
  let last := hdrField h 0x10 8
  let secs := hSections h
  [(hInstrWords h != 0, 0x20), (hBranches h ≤ 65536, 0x50), (decide (1 ≤ hLegs h ∧ hLegs h ≤ 4096), 0x54),
   (decide (1 ≤ hRowtabRows h ∧ hRowtabRows h ≤ 256), 0x68)] ++
  (secs.zipIdx).flatMap (fun e => [(e.1.2.1 % e.1.2.2.2 == 0, e.1.1),
    (decide (e.1.2.2.1 = 0 ∨ e.1.2.1 + e.1.2.2.1 ≤ last), e.1.1), (!overlaps secs e.2, e.1.1)])

/-- An instruction's operands meet the static rules of R150. -/
def insOk (h w : Nat) : Bool :=
  let op := bits w 63 56
  match opInfo op with
  | none => decide (0xC0 ≤ op)
  | some o =>
    let u := bits w 55 0
    let b := bits w 47 32
    (u - Nat.land u o.mask == 0) &&
    (!(op == 0x01 || op == 0x02 || op == 0x03 || op == 0x10 || op == 0x90) || bits w 31 0 != 0) &&
    (!(op == 0x10 || op == 0x20 || op == 0x21 || op == 0x24 || op == 0x25 || op == 0x28 || op == 0x2B) || decide (b < hBranches h)) &&
    (op != 0x40 || decide (bits w 7 0 < hRowtabRows h)) &&
    (op != 0x41 || decide (bits w 11 0 < hLegs h)) &&
    (op != 0x60 || decide (bits w 53 48 ≤ 51)) &&
    (op != 0x90 || hScanGroup h (bits w 49 48) != 0)

/-- The digest and opcode rule of flag 2, then every instruction's operands (R116). -/
def insChecks (h : Nat) (ins : List Nat) : List (Bool × Nat) :=
  let user := bitAt (hFlags h) 2
  (user || hdrField h 0x110 32 == 0, 0x110) ::
  (ins.zipIdx).map (fun e => (user || decide (bits e.1 63 56 < 0xC0), hInstrOff h + 8 * e.2 + 7)) ++
  (ins.zipIdx).map (fun e => (insOk h e.1, hInstrOff h + 8 * e.2 + 7))

/-- A branch-table entry (R128). -/
def branchChecks (h : Nat) (b at' : Nat) : List (Bool × Nat) :=
  [(bits b 63 40 == 0, at' + 5), (bits b 255 224 == 0, at' + 28), (decide (bits b 39 0 < hInstrWords h), at'),
   (decide (bits b 127 64 ≤ hVecRows h), at' + 8),
   (decide (bits b 191 128 % 4 = 0 ∧ bits b 191 128 ≤ hScanBytes h), at' + 16),
   (decide (bits b 127 64 + bits b 223 192 ≤ hVecRows h), at' + 24)]

/-- A leg-table entry (R131). -/
def legChecks (h : Nat) (e at' k : Nat) : List (Bool × Nat) :=
  let rsv := e - Nat.land e ((2 ^ 46 - 1) + (2 ^ 64 - 1) * 2 ^ 64 + (2 ^ 13 - 1) * 2 ^ 128 + (2 ^ 24 - 1) * 2 ^ 144 + (2 ^ 16 - 1) * 2 ^ 176)
  let selMax := match legSrc e with | 0 => 0 | 1 => 47 | _ => 3
  [(rsv == 0, at' + lowByte rsv 32), (decide (1 ≤ legD e ∧ legD e ≤ 1048576), at'), (decide (legPadRow e < hRowtabRows h), at' + 20),
   (decide (k ≠ 0 ∨ legMode e = 0), at' + 4), (!legSlip e || decide (legSrc e < 4), at' + 4),
   (!legSlip e || decide (legSel e ≤ selMax), at' + 4),
   (!legSlip e || decide (1 ≤ bits e 140 128 ∧ bits e 140 128 ≤ 4096), at' + 16)]

/-- The matching ENDL of a LOOP on counter c at instruction k: the first on c after it, given with its index (R192). -/
def loopEnd (ins : List Nat) (c k : Nat) : Option Nat :=
  (((ins.zipIdx).drop (k + 1)).find? (fun e => bits e.1 63 56 == 0x11 && bits e.1 50 48 == c)).map (·.2)

/-- The LOOP on counter c at instruction k, with its top at instruction t, has a matching ENDL after it and a WAYPT from its top up to
there (R192). -/
def loopHasWaypt (ins : List Nat) (c k t : Nat) : Bool :=
  match loopEnd ins c k with
  | none => false
  | some e => ((ins.take e).drop t).any (fun w => bits w 63 56 == 0x40)

/-- Every LOOP over a body above 64 MiB holds a WAYPT (R192). -/
def bigLoopChecks (h img : Nat) (ins : List Nat) : List (Bool × Nat) :=
  (ins.zipIdx).map (fun e =>
    if bits e.1 63 56 = 0x10 then
      let b := imgField img (hBranchOff h + 32 * bits e.1 47 32) 32
      (decide (bits b 223 192 * hRowBytes h ≤ 67108864) || loopHasWaypt ins (bits e.1 50 48) e.2 (bits b 39 0),
       hInstrOff h + 8 * e.2 + 7)
    else (true, 0))

/-- The checks on an image of n bytes, held as one number (R116): the offset of the first failing field. -/
def routeBad (img n : Nat) : Option Nat :=
  let h := img % 2 ^ 4096
  let last := hdrField h 0x10 8
  orBad (firstBad (hdrChecks h)) fun _ =>
  orBad (firstBad [(decide (512 ≤ last ∧ last ≤ n), 0x10)]) fun _ =>
  orBad (firstBad [(ofBytes (sha256 ((bytesOf last img).drop 512)) == hdrField h 0x130 32, 0x130)]) fun _ =>
  orBad (firstBad (hdrShape h)) fun _ =>
  orBad (firstBad (hdrSections h)) fun _ =>
  let rb := hRowBytes h
  let ins := (List.range (hInstrWords h)).map (fun k => imgField img (hInstrOff h + 8 * k) 8)
  let rowOk (off : Nat) : Bool × Nat := (imgField img off rb / 16 ^ hPins h == 0, off)
  orBad (firstBad (insChecks h ins)) fun _ =>
  orBad (firstBad ((List.range (hBranches h)).flatMap (fun k =>
    branchChecks h (imgField img (hBranchOff h + 32 * k) 32) (hBranchOff h + 32 * k)))) fun _ =>
  orBad (firstBad ((List.range (hLegs h)).flatMap (fun k =>
    legChecks h (imgField img (hLegOff h + 32 * k) 32) (hLegOff h + 32 * k) k))) fun _ =>
  orBad (firstBad ((List.range (hRowtabRows h)).map (fun k => rowOk (hRowtabOff h + rb * k)))) fun _ =>
  orBad (firstBad (if hHoldsRows h then (List.range (hVecRows h)).map (fun k => rowOk (hVecOff h + rb * k)) else [])) fun _ =>
  firstBad (bigLoopChecks h img ins)

/-- The header checks that a job start makes on a route's header (R214). -/
def routeHdrBad (h : Nat) : Option Nat :=
  orBad (firstBad (hdrChecks h)) fun _ => orBad (firstBad (hdrShape h)) fun _ =>
  orBad (firstBad (hdrSections h)) fun _ => firstBad [(bitAt (hFlags h) 2 || hdrField h 0x110 32 == 0, 0x110)]

end Sys2Proof.Machine
end

