-- ==== Sys2Proof/Machine/MicroImage.lean ====
section
/-! DEFINITION. User microcode images (R178 to R180) and the class 0xA commands that load and unload them (R153, R179). -/

namespace Sys2Proof.Machine

/-- The header checks of an image of n bytes, a vendor's or a user's (R178). -/
def ucHdrChecks (vendor : Bool) (h : Nat) (n : Nat) : List (Bool × Nat) :=
  let words := bits h 95 80
  let wordsOff := imgField h 0x18 8
  let dispOff := imgField h 0x20 8
  let crcOff := imgField h 0x28 8
  [(imgField h 0 4 == 0x43554B50, 0), (imgField h 4 2 == 1, 4), (imgField h 6 1 == b2n !vendor, 6), (imgField h 7 1 == 0, 7),
   (imgField h 8 2 == (if vendor then 0 else 0x2000), 8), (decide (32 ≤ words ∧ words ≤ 8192 ∧ words % 32 = 0), 0xA),
   (crc32c (bytesOf 256 (setBits h 127 96 0)) == imgField h 0xC 4, 0xC),
   (decide (256 ≤ n ∧ imgField h 0x10 8 = n), 0x10),
   (decide (wordsOff % 64 = 0 ∧ 256 ≤ wordsOff ∧ wordsOff + 32 * words ≤ n), 0x18),
   (decide (dispOff % 64 = 0 ∧ 256 ≤ dispOff ∧ dispOff + (if vendor then 1536 else 512) ≤ n), 0x20),
   (decide (crcOff % 4 = 0 ∧ 256 ≤ crcOff ∧ crcOff + words / 8 ≤ n), 0x28),
   (if vendor then decide (256 ≤ imgField h 0x30 8 ∧ imgField h 0x30 8 + 96 ≤ n) else imgField h 0x30 8 == 0, 0x30), (imgField h 0x38 8 == 0, 0x38), (imgField h 0x60 160 == 0, 0x60)]

/-- A condition that a user word may name (R160, R180). -/
def userCond (c : Nat) : Bool :=
  decide (c ≤ 0x12) || c == 0x15 || decide (0x20 ≤ c ∧ c ≤ 0x2F)

/-- The reserved bits and values of a word's fields, and the causes that TRAP may raise (R154, R156, R161 to R163, R172). -/
def mwShape (w : Nat) : Bool :=
  decide (mwOp w ≤ 9) && (mwOp w != 9 || decide (0xE0 ≤ bits (mwImm w) 7 0)) && (mwOp w == 7 || mwSeq w % 16 == 0) && (mwOp w != 7 || mwSeq w % 8 != 7) &&
  decide (bits (mwVec w) 7 5 < 7) && bits (mwVec w) 1 0 == 0 &&
  decide (mwTset w ≤ 6 ∨ 0x800 ≤ mwTset w) &&
  decide (bits (mwLoop w) 11 9 ≤ 3) && bits (mwLoop w) 2 0 == 0 &&
  decide (mwStk w ≤ 2) && decide (bits (mwFail w) 2 0 ≤ 3) && bits (mwFail w) 7 4 == 0 &&
  decide (bits (mwCap w) 7 6 ≤ 2) && bits (mwCap w) 5 5 == 0 && bits (mwDds w) 1 0 == 0 && decide (bits (mwSxt w) 3 2 ≤ 2) && bits (mwSxt w) 1 0 == 0 &&
  decide (bits (mwOdo w) 7 6 ≤ 2) && bits (mwOdo w) 5 1 == 0 && decide (bits (mwQue w) 7 6 ≤ 2) && bits (mwQue w) 5 4 == 0 &&
  decide (bits (mwAlu w) 11 8 ≤ 10) &&
  decide (bits (mwAlu w) 3 0 ≤ 3 ∨ (8 ≤ bits (mwAlu w) 3 0 ∧ bits (mwAlu w) 3 0 ≤ 14)) &&
  decide (mwAux w ≤ 8) && (if mwAux w = 4 then bits w 27 3 == 0 else bits w 27 0 == 0)

/-- A word obeys R180: targets in the user region, conditions, counts, horizon tests, LOOP, STK, MATCH and AUX. -/
def mwUserOk (w : Nat) : Bool :=
  let op := mwOp w
  let jumps := op == 1 || op == 2 || op == 3 || op == 8 || (op == 5 && bits (mwWto w) 2 0 != 0)
  mwShape w && (!jumps || decide (0x2000 ≤ mwTgt w)) && userCond (mwCond w) &&
  (!mwUntil w || op == 5) &&
  (!mwHorizon w || (bits (mwVec w) 7 5 == 3 && bits (mwVec w) 4 3 == 2)) &&
  (bits (mwLoop w) 11 9 != 2 || mwSeq w == 0x73) && (mwStk w != 2 || (op == 7 && mwSeq w % 8 == 5)) &&
  bits w 123 116 == 0 && !(decide (5 ≤ mwAux w ∧ mwAux w ≤ 7))

/-- A user dispatch entry obeys R167 and R180, given the words of the image. -/
def dispOk (words : List Nat) (e : Nat) : Bool :=
  bits e 63 32 == 0 && bits e 31 21 == 0 &&
  (!bitAt e 14 || (decide (0x2000 ≤ bits e 13 0) && !bitAt e 17 &&
    (!bitAt e 15 || (let w := words.getD (bits e 13 0 - 0x2000) 0; mwOp w == 6 || mwOp w == 7))))

/-- The words of an image. -/
def ucWords (h img : Nat) : List Nat :=
  (List.range (bits h 95 80)).map (fun k => imgField img (imgField h 0x18 8 + 32 * k) 32)

/-- The dispatch entries of an image. -/
def ucEntries (h img : Nat) : List Nat := (List.range 64).map (fun k => imgField img (imgField h 0x20 8 + 8 * k) 8)

/-- The checks of R179 on an image of n bytes with an expected digest: the offset of the first failing field. -/
def ucBad (img n digest : Nat) : Option Nat :=
  let h := img % 2 ^ 2048
  orBad (firstBad (ucHdrChecks false h n)) fun _ =>
  orBad (firstBad [(ofBytes (sha256 ((bytesOf n img).drop 256)) == imgField h 0x40 32 && imgField h 0x40 32 == digest, 0x40)]) fun _ =>
  let wo := imgField h 0x18 8
  let co := imgField h 0x28 8
  orBad (firstBad ((List.range (bits h 95 80 / 32)).map (fun b =>
    (crc32c (bytesOf 1024 (imgField img (wo + 1024 * b) 1024)) == imgField img (co + 4 * b) 4, co + 4 * b)))) fun _ =>
  let words := ucWords h img
  orBad (firstBad ((words.zipIdx).map (fun e => (bits e.1 255 192 == 0 && mwUserOk e.1, wo + 32 * e.2)))) fun _ =>
  firstBad (((ucEntries h img).zipIdx).map (fun e => (dispOk words e.1, imgField h 0x20 8 + 8 * e.2)))

/-- A Pilot of a cluster has a job that has been accepted and has not ended (R153). -/
def State.clusterBusy (s : State) (c : Nat) : Bool := s.acceptedJobs.any (fun e => e.2.pilot / 4 == c)

/-- The digest registers of a cluster. -/
def State.putUcDigest (s : State) (c d : Nat) : State :=
  (List.range 4).foldl (fun s k => s.wr .PLT_UC_DIGEST c k (BitVec.ofNat 64 (d / 2 ^ (64 * k)))) s

/-- Words and entries put into a store from a first word and a first entry on. -/
def putStore (b : Bank Nat Nat) (first op : Nat) (words entries : List Nat) : Bank Nat Nat :=
  (entries.zipIdx).foldl (fun b e => nset 0 (dispKey op + e.2) e.1 b)
    ((words.zipIdx).foldl (fun b e => nset 0 (first + e.2) e.1 b) b)

/-- The user words and entries of a cluster replaced, with the lead copies (R152, R153). Words that the image does not hold are 0. -/
def State.loadUser (s : State) (c : Nat) (words entries : List Nat) : State :=
  let x := s.cluster c
  let b := putStore (x.words.filter (fun e => !isUserKey e.1)) 0x2000 0xC0 words entries
  (s.setCluster c { x with words := b, marks := x.marks.filter (fun e => !isUserKey e.1) }).refreshLeads c 0xC0 64 (fun _ => true)

/-- An image of n bytes accepted: its words and entries in force with their digest, its verified copy in HBM, and the cluster shown as loaded
(R153, R169, R179). -/
def State.installUser (s : State) (c n img : Nat) : State :=
  let h := img % 2 ^ 2048
  let s := ((s.writeCopy (1 + c) n img).loadUser c (ucWords h img) (ucEntries h img)).putUcDigest c (imgField h 0x40 32)
  (s.fput fPLT_CS_STAT_user_loaded c 1).fput fPLT_CS_STAT_user_lost c 0

/-- MICROCODE_LOAD (R153, R179): the image is read, checked, and written whole. -/
def bodyMicrocodeLoad : CmdBody := fun k s =>
  let c := u8 k 0
  let space := u8 k 1
  let src := u64 k 8
  if 4 ≤ c then fail s .paramInvalid
  else if s.clusterBusy c then fail s .microcodeBusy
  else match s.payload space src 256 with
    | (s, .bad st d) => fail s st d
    | (s, .bytes hb) =>
      let n := max 256 (imgField (ofBytes hb) 0x10 8)
      match firstBad (ucHdrChecks false (ofBytes hb) n) with
      | some off => fail s .microcodeInvalid off
      | none => match s.payload space src n with
        | (s, .bad st d) => fail s st d
        | (s, .bytes bs) =>
          let img := ofBytes bs
          match ucBad img n (bits k.params.toNat 383 128) with
          | some off => fail s .microcodeInvalid off
          | none => ok (s.installUser c n img)

/-- MICROCODE_UNLOAD (R153): the user region and entries are empty, and the digest clears. -/
def bodyMicrocodeUnload : CmdBody := fun k s =>
  let c := u8 k 0
  if 4 ≤ c then fail s .paramInvalid
  else if s.clusterBusy c then fail s .microcodeBusy
  else ok (((s.loadUser c [] []).putUcDigest c 0).fput fPLT_CS_STAT_user_loaded c 0)

/-! ### The QSPI flash and the vendor image (R153, R178, R458) -/

/-- n bytes of the QSPI flash. -/
def State.flashBytes (s : State) (a n : Nat) : List Byte := (List.range n).map (fun i => nget 0xFF (a + i) s.bnc.flash)

/-- Where a directory begins: A, or B (R458). -/
def dirBase (dir : Bool) : Nat := if dir then 0x1000000 else 0

/-- An entry of a directory: type, offset, length, version and digest at its bytes 0, 4, 8, 12 and 16 (R458). -/
def State.dirEntry (s : State) (dir : Bool) (k : Nat) : Nat := ofBytes (s.flashBytes (dirBase dir + 0x10 + 48 * k) 48)

/-- The entry of a type in a directory. -/
def State.dirFind (s : State) (dir : Bool) (typ : Nat) : Option Nat :=
  ((List.range 8).find? (fun k => imgField (s.dirEntry dir k) 0 2 == typ)).map (s.dirEntry dir)

/-- The place and length of a directory's vendor microcode image (R458). -/
def State.vendorPlace (s : State) (dir : Bool) : Option (Nat × Nat) :=
  (s.dirFind dir 3).map (fun e => (imgField e 4 4, imgField e 8 4))

/-- The flash shows a directory at a place: its magic stands there (R458). -/
def State.dirThere (s : State) (dir : Bool) : Bool := ofBytes (s.flashBytes (dirBase dir) 4) == 0x44424B50

/-- A directory that the ROM accepts but for its signature: version, entries in use and dir_crc; and types 1 to 3 once each, each image with its
digest (R458). -/
def State.dirGood (s : State) (dir : Bool) : Bool :=
  let d := ofBytes (s.flashBytes (dirBase dir) 512)
  let n := imgField d 6 2
  let es := (List.range (min n 8)).map (s.dirEntry dir)
  imgField d 4 2 == 1 && decide (3 ≤ n ∧ n ≤ 8) && crc32c (bytesOf 512 (setBits d 127 96 0)) == imgField d 0xC 4 &&
    [1, 2, 3].all (fun t => (es.filter (fun e => imgField e 0 2 == t)).length == 1) &&
    es.all (fun e => imgField e 0 2 == 4 || ofBytes (sha256 (s.flashBytes (imgField e 4 4) (imgField e 8 4))) == imgField e 16 32)

/-- The checks of a vendor image: header, digest, block CRCs, words and entries of zeros where they are reserved (R167, R178). -/
def vendorGood (img n : Nat) : Bool :=
  let h := img % 2 ^ 2048
  (firstBad (ucHdrChecks true h n)).isNone && ofBytes (sha256 ((bytesOf n img).drop 256)) == imgField h 0x40 32 &&
    (List.range (bits h 95 80 / 32)).all (fun b =>
      crc32c (bytesOf 1024 (imgField img (imgField h 0x18 8 + 1024 * b) 1024)) == imgField img (imgField h 0x28 8 + 4 * b) 4) &&
    (ucWords h img).all (fun w => bits w 255 192 == 0) &&
    ((List.range 192).map (fun k => imgField img (imgField h 0x20 8 + 8 * k) 8)).all (fun e => bits e 63 21 == 0)

/-- The vendor image of a directory, with its length, where the flash shows one. -/
def State.vendorImage (s : State) (dir : Bool) : Option (Nat × Nat) :=
  (s.vendorPlace dir).map (fun p => (ofBytes (s.flashBytes p.1 p.2), p.2))

/-- A cluster's vendor region and vendor entries are written: at boot from the image of the directory in use, later from its verified copy,
which holds the same (R153, R452); the lead copies are taken anew (R152). Where the flash shows no image, the words are Vogedon's and
free (assumption 22). -/
def State.loadVendor (s : State) (c : Nat) : State :=
  let x := s.cluster c
  let user := x.words.filter (fun e => isUserKey e.1)
  let marks := x.marks.filter (fun e => isUserKey e.1)
  let y := match s.vendorImage (s.fbit fBNC_STATUS_dir) with
    | none => { x with vendor := true, image := none, words := user, marks := marks }
    | some (img, _) =>
      let h := img % 2 ^ 2048
      { x with vendor := true, image := some (imgField h 0x40 32), marks := marks,
               words := putStore user 0 0 (ucWords h img) ((List.range 192).map (fun k => imgField img (imgField h 0x20 8 + 8 * k) 8)) }
  (s.setCluster c y).refreshLeads c 0 192 (fun _ => true)

/-- A word of the digest of the vendor image in use: its header's, or where the flash shows none Vogedon's (R178; assumption 22). -/
def State.vendorDigest (s : State) (k : Nat) : Nat :=
  match s.vendorImage (s.fbit fBNC_STATUS_dir) with
  | some (img, _) => bits (imgField img 0x40 32) (64 * k + 63) (64 * k)
  | none => (Config.vendorDigest k).toNat

/-- A word of the digest of Binnacle's or Helm's firmware (types 1 and 2): the directory's in use, or where the flash shows none Vogedon's
(R458; assumption 22). -/
def State.firmwareDigest (s : State) (typ k : Nat) : Nat :=
  match s.dirFind (s.fbit fBNC_STATUS_dir) typ with
  | some e => bits (imgField e 16 32) (64 * k + 63) (64 * k)
  | none => (Config.firmwareDigest (4 * (typ - 1) + k)).toNat

/-- MICROCODE_LOAD (R179). -/
def execMicrocodeLoad (k : Packet) (s : State) : Host.Outcome State Fault Refusal := .next (s.runCommand 0xA001 bodyMicrocodeLoad k)

/-- MICROCODE_UNLOAD (R153). -/
def execMicrocodeUnload (k : Packet) (s : State) : Host.Outcome State Fault Refusal :=
  .next (s.runCommand 0xA002 bodyMicrocodeUnload k)

end Sys2Proof.Machine
end

