-- ==== Sys2Proof/Machine/JobControl.lean ====
section
/-! DEFINITION. The class 0x2 commands and ABORT_ALL: loading routes, defining, starting, halting and undefining jobs, masking and
dropping sites, resuming traps (R116, R213 to R223, R374, R375). -/

namespace Sys2Proof.Machine

/-! ### ROUTE_LOAD -/

/-- A source that a command names by type: 0 = host bus address, 1 = DVA (R369). -/
def State.source (s : State) (typ space addr n : Nat) : State × Payload :=
  if typ = 0 then s.hostPayload addr n else if typ = 1 then s.payload space addr n else (s, .bad .paramInvalid 0)

/-- ROUTE_LOAD (R116): the image is checked, and copied to dst when every check passes. -/
def bodyRouteLoad : CmdBody := fun k s =>
  let n := u64 k 16
  match s.source (u8 k 24) (u8 k 25) (u64 k 0) n with
  | (s, .bad st d) => fail s st d
  | (s, .bytes bs) =>
    match routeBad (ofBytes bs) n with
    | some off => fail s .routeInvalid off
    | none => match s.storeResult (u8 k 25) (u64 k 8) bs with
      | (s, none) => ok s
      | (s, some (st, d)) => fail s st d

/-! ### Job definitions -/

/-- JOB_DEFINE (R213). -/
def bodyJobDefine : CmdBody := fun k s =>
  let j := jobOf k
  if 256 ≤ j then fail s .paramInvalid
  else if (s.job j).accepted then fail s .jobBusy
  else match s.payload (u8 k 8) (u64 k 0) 512 with
    | (s, .bad st d) => fail s st d
    | (s, .bytes bs) => ok (s.setJob j { st := .defined, desc := ofBytes bs })

/-- JOB_UNDEFINE: refused while the job is accepted (R376). -/
def bodyJobUndefine : CmdBody := fun k s =>
  let j := jobOf k
  if 256 ≤ j then fail s .paramInvalid
  else if (s.job j).accepted then fail s .jobBusy
  else ok (s.setJob j {})

/-- The descriptor's fields are in range (R213, R332). MER7 is refused by a later check. -/
def State.descOk (s : State) (j : Job) : Bool :=
  decide (j.field 0 1 < 16 ∧ j.priority < 16 ∧ j.meridian < 8 ∧ j.aspace < 252 ∧ j.field 4 2 < 1024) && s.spaceValid j.aspace &&
  (!j.flag 7 || decide (1 ≤ j.ctDensity ∧ j.ctDensity ≤ 1024)) && j.field 0xC 4 == 0 &&
  decide (j.sites < 2 ^ 48) && Nat.land j.maskInit j.sites == j.maskInit && decide (j.ctx % 4096 = 0) &&
  (List.range 16).all (fun k => decide (j.field (0x60 + 2 * k) 2 < 16384)) &&
  (List.range 4).all (fun k => decide (j.field (0x80 + 2 * k) 2 < (if k = 3 then 1 else 16384))) &&
  decide (j.capPos < 2 ^ 48 ∧ j.sxtChans < 2 ^ 52) && j.field 0x99 103 == 0 && j.field 0x1C0 64 == 0 &&
  (List.range 48).all (fun k => bits (j.field (0x100 + 4 * k) 2) 15 14 == 0)

/-! ### Regions -/

/-- The pages that a span of DVAs maps to, as (HPA, page bits); none when one does not translate for the access (R335). -/
def State.spanPages (s : State) (space dva n : Nat) (write : Bool) : Nat → State × Option (List (Nat × Nat))
  | 0 => (s, some [])
  | fuel + 1 =>
    if n = 0 then (s, some [])
    else match (s.bump fCHT_WALK_CNT_bulk_walks).walk .bulk space dva with
      | (s, .fault _ _ _) => (s, none)
      | (s, .leaf pb e _) =>
        if (if write then bitAt e 3 else bitAt e 2) = false then (s, none)
        else
          let k := min n (2 ^ pb - dva % 2 ^ pb)
          match State.spanPages s space (dva + k) (n - k) write fuel with
          | (s, none) => (s, none)
          | (s, some r) => (s, some ((bits e 43 8 * 256, pb) :: r))

/-- A span's pages, with enough steps for its 64 KiB pages. -/
def State.span (s : State) (space dva n : Nat) (write : Bool) : State × Option (List (Nat × Nat)) :=
  s.spanPages space dva n write (n / 65536 + 2)

/-- A span is mapped and writable. -/
def State.spanWritable (s : State) (space dva n : Nat) : State × Bool :=
  let r := s.span space dva n true
  (r.1, r.2.isSome)

/-- The spans that check 2 of R214 covers. -/
def Job.writeSpans (j : Job) : List (Nat × Nat) :=
  [(j.ctx, 4096), (j.ffTable, 1536)] ++ (if j.flag 6 then [(j.tcBase, j.tcBytes)] else []) ++
    (if j.flag 7 then [(j.ctBase, j.ctBytes)] else [])

/-- Every span of a list is writable. -/
def State.spansWritable (s : State) (space : Nat) : List (Nat × Nat) → State × Bool
  | [] => (s, true)
  | (a, n) :: r => match s.spanWritable space a n with
    | (s, true) => State.spansWritable s space r
    | (s, false) => (s, false)

/-- A byte of memory with the writes that still stand in its channel's queue (R315). -/
def State.peekByte (s : State) (hpa : Nat) : Nat :=
  match s.hpaDecode hpa with
  | none => 0
  | some (ch, a) => (s.chan ch).queue.foldl (fun b w =>
      if w.addr = a / 32 * 32 ∧ bitAt w.mask (a % 32) then bits w.data (8 * (a % 32) + 7) (8 * (a % 32)) else b) (s.memByte ch a).toNat

/-- A table entry as memory holds it. -/
def State.peek64 (s : State) (hpa : Nat) : Nat := ((List.range 8).map (fun i => s.peekByte (hpa + i) * 256 ^ i)).sum

/-- The interleave map of an HPA uses a faulted channel. -/
def State.mapFaulted (s : State) (hpa : Nat) : Bool := (s.mapSpec (bits hpa 43 40)).channels.any s.chFaulted

/-- A leaf below a table at a level has a property of its page's HPA and size. -/
def State.tableHits (s : State) (f : Nat → Nat → Bool) (level table n : Nat) : Nat → Bool
  | 0 => false
  | fuel + 1 => (List.range n).any (fun i =>
      let e := s.peek64 (table + 8 * i)
      bitAt e 0 && (if bitAt e 1 then f (bits e 43 8 * 256) (2 ^ leafBits level)
        else State.tableHits s f (level + 1) (bits e 43 8 * 256) (if level = 1 then 512 else 32) fuel))

/-- A mapped page of a space has a property of its HPA and size. -/
def State.spaceHits (s : State) (f : Nat → Nat → Bool) (space : Nat) : Bool :=
  s.spaceValid space && s.tableHits f 1 (s.fget fCHT_AS_ROOT_hpa space) (2 ^ s.spaceSpan space) 3

/-- A mapped page of a space lies in a map that uses a faulted channel (R214, R324). -/
def State.spaceFaulted (s : State) (space : Nat) : Bool := (List.range 64).any s.chFaulted && s.spaceHits (fun a _ => s.mapFaulted a) space

/-! ### JOB_START (R214) -/

/-- The result of one check: it goes on with a value, or the start ends. -/
abbrev Checked (α : Type) := State × Except (Status × Nat) α

/-- Checks 1 to 3: the job's state, its descriptor and spans, faulted channels, its meridian's kind and its Almanac range. -/
def State.startBasics (s : State) (j : Nat) : Checked Unit :=
  let b := s.job j
  if b.st = .undefined ∨ b.accepted then (s, .error (.jobBusy, 0))
  else if s.descOk b = false then (s, .error (.jobInvalid, 0))
  else match s.spansWritable b.aspace b.writeSpans with
    | (s, false) => (s, .error (.jobInvalid, 0))
    | (s, true) =>
      if s.spaceFaulted b.aspace then (s, .error (.memFault, 0))
      else if b.meridian = 7 then (s, .error (.meridianKind, 0))
      else if b.almCount = 0 ∨ 2048 < b.almBase + b.almCount then (s, .error (.almanacRange, 0))
      else (s, .ok ())

/-- The stream descriptor keeps the ranges of R187. -/
def streamOk (d : Nat) : Bool :=
  decide (strBase d % 65536 = 0 ∧ 16 ≤ strPages d ∧ strPages d ≤ 65536 ∧ bits d 63 48 = 0 ∧ bits d 111 110 = 0 ∧
    bits d 127 126 = 0 ∧ 4096 ≤ strGuard d ∧ strGuard d ≤ 2 ^ 24 ∧ strGuard d % 4096 = 0 ∧ bits d 255 160 = 0)

/-- A wrapping total-capture region is a multiple of the group size (R206). -/
def Job.regionOk (j : Job) : Bool :=
  !(j.flag 6 && j.flag 8) || (let g := 256 * popCount 48 j.capPos; g == 0 || decide (j.tcBytes % g = 0))

/-- What a command reads in HBM, as a number; a read that fails ends the command as a command load does (R321, R330, R347). -/
def State.loadNum (s : State) (space dva n : Nat) : Checked Nat :=
  match s.payload space dva n with
  | (s, .bytes bs) => (s, .ok (ofBytes bs))
  | (s, .bad st d) => (s, .error (st, d))

/-- What the later checks need of a route: its header, leg 0's entry, the smallest D of its legs, the stream descriptor. -/
structure RouteFacts where
  hdr : Nat
  leg0 : Nat
  minD : Nat
  desc : Nat
  deriving DecidableEq, Repr

/-- Check 4: the route header, the stream descriptor and the region modes; a route that cannot be read ends the start as a command load
that fails (R321, R330, R347; assumption 30). -/
def State.startRoute (s : State) (j : Nat) : Checked RouteFacts :=
  let b := s.job j
  match s.loadNum b.aspace b.route 512 with
  | (s, .error e) => (s, .error e)
  | (s, .ok h) => match routeHdrBad h with
    | some off => (s, .error (.routeInvalid, off))
    | none => match s.loadNum b.aspace (b.route + hLegOff h) (32 * hLegs h) with
      | (s, .error e) => (s, .error e)
      | (s, .ok legs) =>
        let ds := (List.range (hLegs h)).map (fun i => max 1 (legD (imgField legs (32 * i) 32)))
        match (if b.streams then s.loadNum b.aspace b.stream 32 else (s, .ok 0)) with
        | (s, .error e) => (s, .error e)
        | (s, .ok d) =>
          if (b.streams ∧ streamOk d = false) ∨ b.regionOk = false then (s, .error (.routeInvalid, 0))
          -- without a stream region the vector section lies within the image (R116, R187)
          else if b.streams = false ∧ hHoldsRows h = false then (s, .error (.routeInvalid, 0x28))
          else (s, .ok ⟨h, imgField legs 0 32, ds.foldl min (2 ^ 32), d⟩)

/-- A Pilot's job that a start would pre-empt: the running one, in a leg or between legs. -/
def State.runningJob (s : State) (p : Nat) : Option Nat :=
  if (s.pilot p).st ≠ .noJob ∧ (s.job (s.pilot p).job).st = .running then some (s.pilot p).job else none

/-- A job accepted on a Pilot and awaiting leg 0. -/
def State.awaitsLeg0 (s : State) (p : Nat) : Bool := s.acceptedJobs.any (fun e => e.2.pilot == p && e.2.st == .awaiting)

/-- Check 8 (R221): the Pilot is free, or its job may be pre-empted. -/
def State.pilotTakes (s : State) (j : Nat) : Bool :=
  let p := (s.job j).pilot
  !s.awaitsLeg0 p && (match s.runningJob p with
    | none => true
    | some r => decide ((s.job r).priority < (s.job j).priority) && (s.job r).flag 1 && (s.pilot p).preempt.isNone &&
        decide ((s.pilot p).suspended.length < 8))

/-- Checks 5 to 8: pins, the cluster's store, the Pilot. -/
def State.startPlace (s : State) (j : Nat) (f : RouteFacts) : Option Status :=
  let b := s.job j
  let c := b.pilot / 4
  let pins := s.jobPins b
  let digest := (List.range 4).map (fun k => (s.rd .PLT_UC_DIGEST c k).toNat * 2 ^ (64 * k))
  if pins.length ≠ hPins f.hdr then some .pinCount
  else if pins.any (fun n => (s.pinJob n).isSome) then some .pinClaimed
  else if s.fbit fPLT_CS_STAT_hard_fault c then some .clusterFault
  else if bitAt (hFlags f.hdr) 2 ∧ s.fbit fPLT_CS_STAT_user_lost c then some .microcodeLost
  else if bitAt (hFlags f.hdr) 2 ∧ (s.fbit fPLT_CS_STAT_user_loaded c = false ∨ digest.sum ≠ hdrField f.hdr 0x110 32) then
    some .microcodeMismatch
  else if s.pilotTakes j = false then some .pilotBusy
  else none

/-! ### Real-time budgets (R24, R183, R342) -/

/-- The channels of the interleave sets that pages lie in, as a mask. -/
def State.pageChannels (s : State) (pages : List (Nat × Nat)) : Nat :=
  (pages.map (fun a => bits a.1 43 40)).eraseDups.foldl (fun m k =>
    (s.mapSpec k).channels.foldl (fun m c => setBit m c true) m) 0

/-- The smallest page of a region keeps lookahead ahead of a rate (R342). -/
def lookaheadOk (pages : List (Nat × Nat)) (num den : Nat) : Bool :=
  pages.all (fun a => decide (num * 100000000 * 45 ≤ 8 * 2 ^ a.2 * (2 ^ 32 * den) * 10000000))

/-- The pages that map any part of a span, as (HPA, page bits): what is not mapped is passed over (R342). -/
def State.mappedPages (s : State) (space dva n : Nat) : Nat → State × List (Nat × Nat)
  | 0 => (s, [])
  | fuel + 1 =>
    if n = 0 then (s, [])
    else match (s.bump fCHT_WALK_CNT_bulk_walks).walk .bulk space dva with
      | (s, .fault _ level _) =>
        let pb := leafBits (if level = 0 then 1 else level)
        let k := min n (2 ^ pb - dva % 2 ^ pb)
        State.mappedPages s space (dva + k) (n - k) fuel
      | (s, .leaf pb e _) =>
        let k := min n (2 ^ pb - dva % 2 ^ pb)
        let r := State.mappedPages s space (dva + k) (n - k) fuel
        (r.1, (bits e 43 8 * 256, pb) :: r.2)

/-- A region's demand: its channels and its rate; and whether the smallest page that maps any part of it keeps lookahead ahead (R342). A
region that maps nothing puts no demand on a channel. -/
def State.regionDemand (s : State) (space dva n num den : Nat) : State × (Nat × Nat × Nat) × Bool :=
  let r := s.mappedPages space dva n (n / 65536 + 2)
  (r.1, (r.1.pageChannels r.2, num, den), num == 0 || lookaheadOk r.2 num den)

/-- A job's declared demand at fmax (R24, R204, R205), and whether lookahead keeps pace with each region. -/
def State.demandOf (s : State) (j : Nat) (f : RouteFacts) : State × List (Nat × Nat × Nat) × Bool :=
  let b := s.job j
  let w := (s.mer b.meridian).maxWord
  let rb := hRowBytes f.hdr
  let vec := if b.streams then (strBase f.desc, strPages f.desc * 65536) else (b.route + hVecOff f.hdr, hVecRows f.hdr * rb)
  let v := s.regionDemand b.aspace vec.1 vec.2 (rb * w) f.minD
  let tc := if b.flag 6 then popCount 48 b.capPos * w else 0
  let t := v.1.regionDemand b.aspace b.tcBase (if b.flag 6 then b.tcBytes else 0) tc (4 * f.minD)
  let ct := if b.flag 7 then 32 * b.ctDensity * w else 0
  let c := t.1.regionDemand b.aspace b.ctBase (if b.flag 7 then b.ctBytes else 0) ct (1024 * f.minD)
  (c.1, [v.2.1, t.2.1, c.2.1], v.2.2 && t.2.2 && c.2.2)

/-- A rate in bytes a second. -/
def rateOf (d : Nat × Nat × Nat) : Rat := (d.2.1 * 100000000 : Nat) / (2 ^ 32 * d.2.2 : Nat)

/-- The demand of regions on a channel (R24). -/
def channelDemand (ds : List (Nat × Nat × Nat)) (ch : Nat) : Rat :=
  (ds.map (fun d => if bitAt d.1 ch then rateOf d / (popCount 64 d.1 : Nat) else 0)).sum

/-- The budgets hold with a new job's demand beside those of the accepted jobs (R24, R183, R215). -/
def State.budgetsHold (s : State) (p : Nat) (new : List (Nat × Nat × Nat)) : Bool :=
  let all := new ++ s.acceptedJobs.flatMap (fun e => e.2.demand)
  let near := new :: (s.acceptedJobs.filter (fun e => e.2.pilot / 4 == p / 4)).map (fun e => e.2.demand)
  (List.range 64).all (fun ch => decide (channelDemand all ch ≤ 22000000000)) &&
  decide ((near.map (fun d => ((d.take 1).map rateOf).sum)).sum ≤ 448000000000) &&
  decide ((near.map (fun d => ((d.drop 1).map rateOf).sum)).sum ≤ 224000000000)

/-! ### Acceptance -/

/-- A job accepted: it holds its pins, and the Pilot takes it, or is asked to pass to it (R214, R221, R222). -/
def State.acceptJob (s : State) (j id : Nat) (demand : List (Nat × Nat × Nat)) : State :=
  let b := s.job j
  let p := b.pilot
  let s := s.setJob j { b with st := .awaiting, leg0 := id, demand := demand, mask := none, drops := 0, lastIndex := 0, lastE := 0 }
  match s.runningJob p with
  | none => s.giveJob p j
  | some _ =>
    let s := s.setPilot p { s.pilot p with preempt := some j }
    if (s.pilot p).st = .between ∨ ((s.pilot p).st = .awaiting ∧ (s.pilot p).leg.slip.isNone) then s.suspend p else s

/-- JOB_START (R214): ten checks in order, then acceptance and the leg-0 milestone in one step. -/
def bodyJobStart : CmdBody := fun k s =>
  let j := jobOf k
  let n88 := u64 k 0 * fracOne + u32 k 8
  if 256 ≤ j ∨ 2 ^ 24 ≤ u32 k 8 then fail s .paramInvalid
  else match s.startBasics j with
    | (s, .error e) => fail s e.1 e.2
    | (s, .ok _) => match s.startRoute j with
      | (s, .error e) => fail s e.1 e.2
      | (s, .ok f) => match s.startPlace j f with
        | some st => fail s st
        | none => match s.demandOf j f with
          | (s, demand, pace) =>
            let m := (s.job j).meridian
            if pace = false ∨ s.budgetsHold (s.job j).pilot demand = false then fail s .rtBudget
            else if (s.mer m).st = .off then fail s .meridianOff
            else match s.msCommit m 1 j 0 0 n88 (legReach f.leg0) 0 0 j with
              | (s, .error st) => fail s st
              | (s, .ok (id, _)) => okResult (s.acceptJob j id demand) id

/-! ### Halts -/

/-- An element that a control-plane block posts to one of a Pilot's own queues, which exist from boot (R17; assumption 4). -/
def State.postSystem (s : State) (q elem : Nat) : State := s.qPush q elem

/-- A halted job's leg-start milestones: the one of leg 0 is cancelled without a report, the others are reported with ABORTED (R56, R375,
R500). -/
def State.cancelLegStarts (s : State) (j : Nat) : State :=
  (s.ms.pending.filter (fun x => x.action == 1 && x.target == j)).foldl
    (fun s x => if x.id = (s.job j).leg0 then s.msRemove x.id else s.msDrop x .aborted) s

/-- A job that runs no leg ends at once: its frames are invalid and its pins take their idle state, or stay as they are (R176,
R228). -/
def State.endOutside (s : State) (j : Nat) : State :=
  let p := (s.job j).pilot
  let s := if (s.pilot p).job = j ∧ (s.pilot p).st ≠ .noJob then
      s.dropFrames p
    else s
  s.endJob j .ok

/-- A job's leg runs, or waits in its slip window. -/
def State.jobInLeg (s : State) (j : Nat) : Bool :=
  let p := (s.job j).pilot
  let x := s.pilot p
  x.job == j && (x.st == .inLeg || x.st == .holding || (x.st == .awaiting && x.leg.slip.isSome))

/-- HALT_JOB (R17, R374, R375). -/
def bodyHaltJob : CmdBody := fun k s =>
  let s := s.bump fHLM_PROMPT_CNT_halts
  let j := jobOf k
  let b := s.job j
  if b.accepted = false ∨ 256 ≤ j then fail s .jobNotRunning
  else if s.jobInLeg j then ok (s.postSystem (16 + b.pilot) 2)
  else
    let s := s.cancelLegStarts j
    let detail := match b.st with | .awaiting => 1 | .suspended => 4 | _ => 3
    (s.endOutside j, .done .ok detail 0 false false 1)

/-- Every command that is not prompt and that no hart has begun completes with ABORTED (R374), forwarded ones included. -/
def State.abortUntaken (s : State) : State :=
  let late := s.helm.forwarded
  let s := { s with helm := { s.helm with forwarded := [] } }
  let s := s.helm.rings.foldl (fun s e =>
    let r := e.1
    let s := s.setRing r { s.ring r with untaken := [] }
    e.2.untaken.foldl (fun s p =>
      let d := decodePacket 0 p.bytes
      (s.tick fHLM_RING_STAT_taken r).conclude (runningOf (.ring r) d.1 d.2 p.expiry) .aborted 0 0 false false 0) s) s
  late.foldl (fun s x =>
    let d := decodePacket 0 x.bytes
    s.conclude (runningOf (.member x.node x.port x.xid) d.1 d.2 x.expiry) .aborted 0 0 false false 0) s

/-- ABORT_ALL's work inside the device (R374, R228): every halt queue gets an entry of code 3, jobs that run no leg end, milestones
posted with a job number are cancelled and reported, and untaken commands complete with ABORTED. -/
def State.abortAll (s : State) : State :=
  let s := s.bump fHLM_PROMPT_CNT_aborts
  let s := (List.range 16).foldl (fun s p => s.postSystem (16 + p) 3) s
  let s := s.acceptedJobs.foldl (fun s e =>
    if (s.job e.1).accepted = false ∨ s.jobInLeg e.1 then s
    else (s.parkPins (s.jobPins e.2)).endOutside e.1) s
  (s.msDropAll (fun x => x.job != 0xFFFF) .aborted).abortUntaken

/-! ### Sites and traps -/

/-- The job has no further leg: its last END_LEG is taken, or its leg ends by a cause (R217). -/
def State.lastLeg (s : State) (j : Nat) : Bool :=
  let x := s.pilot (s.job j).pilot
  x.job == j && decide (2 ≤ x.leg.ending) && (x.st == .inLeg || x.st == .holding)

/-- SITE_MASK (R217). -/
def bodySiteMask : CmdBody := fun k s =>
  let j := jobOf k
  let b := s.job j
  let mask := u64 k 0
  let x := s.pilot b.pilot
  if b.accepted = false ∨ 256 ≤ j ∨ s.lastLeg j then fail s .jobBusy
  else if Nat.land mask b.sites ≠ mask then fail s .siteInvalid
  else if x.job = j ∧ x.st ≠ .noJob then ok (s.setPilot b.pilot { x with maskNext := mask })
  else ok (s.setJob j { b with mask := some mask })

/-- A site of a job is dropped already, in its leg, for its next leg, or by an entry still to be taken (R220). -/
def State.siteDropped (s : State) (j site : Nat) : Bool :=
  let b := s.job j
  let x := s.pilot b.pilot
  bitAt b.drops site || (s.dq (32 + b.pilot)).elems.contains (site + j * 256) ||
  (x.job == j && (bitAt (Nat.lor x.dropNext x.dropPersist) site ||
    ((x.st == .inLeg || x.st == .holding || x.leg.slip.isSome) && (nget none site x.leg.dropAt).isSome)))

/-- SITE_DROP (R218, R220). -/
def bodySiteDrop : CmdBody := fun k s =>
  let j := jobOf k
  let b := s.job j
  let site := u8 k 0
  if b.accepted = false ∨ 256 ≤ j then fail s .jobNotRunning
  else if 48 ≤ site ∨ bitAt b.sites site = false then fail s .siteInvalid
  else if s.siteDropped j site then (s, .done .ok 1 0 false false 1)
  else ok (s.postSystem (32 + b.pilot) (site + j * 256))

/-- TRAP_RESUME (R174). -/
def bodyTrapResume : CmdBody := fun k s =>
  let p := u8 k 0
  if 16 ≤ p then fail s .paramInvalid else ok ((s.postSystem (48 + p) 1).tryResume p)

/-! ### The rows of the command table -/

/-- ROUTE_LOAD (R116). -/
def execRouteLoad (k : Packet) (s : State) : Host.Outcome State Fault Refusal := .next (s.runCommand 0x2001 bodyRouteLoad k)

/-- JOB_DEFINE (R213). -/
def execJobDefine (k : Packet) (s : State) : Host.Outcome State Fault Refusal := .next (s.runCommand 0x2002 bodyJobDefine k)

/-- JOB_START (R214). -/
def execJobStart (k : Packet) (s : State) : Host.Outcome State Fault Refusal := .next (s.runCommand 0x2003 bodyJobStart k)

/-- HALT_JOB (R375). -/
def execHaltJob (k : Packet) (s : State) : Host.Outcome State Fault Refusal := .next (s.runPrompt 0x2004 bodyHaltJob k)

/-- SITE_MASK (R217). -/
def execSiteMask (k : Packet) (s : State) : Host.Outcome State Fault Refusal := .next (s.runCommand 0x2005 bodySiteMask k)

/-- SITE_DROP (R218). -/
def execSiteDrop (k : Packet) (s : State) : Host.Outcome State Fault Refusal := .next (s.runCommand 0x2006 bodySiteDrop k)

/-- TRAP_RESUME (R174). -/
def execTrapResume (k : Packet) (s : State) : Host.Outcome State Fault Refusal := .next (s.runCommand 0x2007 bodyTrapResume k)

/-- JOB_UNDEFINE (R376). -/
def execJobUndefine (k : Packet) (s : State) : Host.Outcome State Fault Refusal := .next (s.runCommand 0x2008 bodyJobUndefine k)

end Sys2Proof.Machine
end

