-- ==== Sys2Proof/Machine/Memory.lean ====
section
/-! DEFINITION. The memory controller's events and commands: refresh, stack temperatures, parity incidents and channel faults,
scrub, self-refresh and wake, interleave maps, training and recovery (R309 to R331). -/

namespace Sys2Proof.Machine

/-! ### Refresh (R311 to R314) -/

/-- The interval in force is 1.95 µs (R312). -/
def State.trefFast (s : State) : Bool := s.fbit fMEM_STATUS_tref_fast

/-- The grid point of the next stop: every one at 1.95 µs, the even ones at 3.9 µs (R312), after the last stop and after the change or
exit from which stops count (R312, R329). -/
def State.nextGrid (s : State) : Nat :=
  let n := max s.hbm.skipTo (match s.hbm.lastGrid with
    | none => 0
    | some k => k + 1)
  if s.trefFast then n else n + n % 2

/-- A refresh stop begins at its grid point (R311): no grant is issued until it ends. -/
def State.doRefreshStop (s : State) : State :=
  if s.fget fMEM_STATUS_state = 2 ∧ s.hbm.stopped = false then
    let n := s.nextGrid
    let s := (s.advance (s.mer0Instant (s.gridPoint n))).tick fMEM_REF_STAT_stops
    { s with hbm := { s.hbm with stopped := true, lastGrid := some n } }
  else s

/-- Bits of a pseudo-random binary sequence of an order with a second tap, one per beat, from a register of ones: the sequences
x^7 + x^6 + 1, x^15 + x^14 + 1 and x^31 + x^28 + 1 (R326; PRESUMED, assumption 92: the spec gives their names alone). -/
def prbs (order tap : Nat) : Nat → Nat → Nat
  | 0, _ => 0
  | n + 1, reg =>
    let b := bits reg (order - 1) (order - 1) ^^^ bits reg (tap - 1) (tap - 1)
    b + 2 * prbs order tap n ((2 * reg + b) % 2 ^ order)

/-- What a channel's pattern generator gives a lane over 64 beats, bit b in beat b: PRBS7, PRBS15, PRBS31, or the user pattern's word
of the lane (R326). -/
def State.trnPattern (s : State) (ch lane : Nat) : Nat :=
  match s.fget fMEM_CH_TRN_pattern ch with
  | 0 => prbs 7 6 64 (2 ^ 7 - 1)
  | 1 => prbs 15 14 64 (2 ^ 15 - 1)
  | 2 => prbs 31 28 64 (2 ^ 31 - 1)
  | _ => (s.rd .MEM_TRN_PAT lane).toNat

/-- A lane's read delay moves by at most one step of 1/64 UI toward the centre of its eye (R313). -/
def State.moveLane (s : State) (e : LaneErr) : State :=
  let key := e.ch.val * 128 + e.lane.val
  { s with hbm := { s.hbm with delays := nset 0 key (nget 0 key s.hbm.delays + (e.toward.val : Int) - 1) s.hbm.delays } }

/-- What a maintenance read found on a lane: its errors count, its delay moves, and in check mode what it gave is compared with the
pattern, beat by beat (R313, R327). -/
def State.countLane (s : State) (e : LaneErr) : State :=
  let ch := e.ch.val
  let lane := e.lane.val
  let s := (s.moveLane e).bump fMEM_CH_MAINT_lane_errs ch e.errs.toNat
  if s.fbit fMEM_CH_TRN_check_en ch then
    let w := (s.rd .MEM_TRN_ERR ch (lane / 4)).toNat
    let lo := 16 * (lane % 4)
    s.wr .MEM_TRN_ERR ch (lane / 4)
      (BitVec.ofNat 64 (setBits w (lo + 15) lo (min 65535 (bits w (lo + 15) lo + popCount 64 (e.seen.toNat ^^^ s.trnPattern ch lane)))))
  else s

/-- A refresh stop ends after 720 cycles, a maintenance stop after 1,440 with its lane errors counted (R313). -/
def State.doRefreshStopEnd (s : State) (errs : List LaneErr) : State :=
  if s.hbm.stopped then
    let s := s.advance s.stopEnd
    let s := if s.maintenance then errs.foldl State.countLane s else s
    { s with hbm := { s.hbm with stopped := false } }
  else s

/-- The interval chosen by four temperatures: at 85 °C or more in any stack fast, at 82 °C or less in all slow, else kept (R312). -/
def trefChoice (temps : Nat) (now : Bool) : Bool :=
  let t (k : Nat) : Int := sext 8 (bits temps (8 * k + 7) (8 * k))
  if (List.range 4).any (fun k => decide (85 ≤ t k)) then true
  else if (List.range 4).all (fun k => decide (t k ≤ 82)) then false
  else now

/-- The stacks' sensors are read: byte k is stack k's temperature in °C (R312). The interval may change while the stacks are
trained. -/
def State.doStackTempRead (s : State) (temps : Nat) : State :=
  if s.fget fMEM_STATUS_state = 0 then s
  else
    let s := s.fput fMEM_TEMP_temp 0 temps
    let fast := trefChoice temps s.trefFast
    if s.fget fMEM_STATUS_state = 1 ∨ fast = s.trefFast then s
    else
      let s := { s with hbm := { s.hbm with skipTo := s.gridAfter s.mer0 } }
      ((s.fput fMEM_STATUS_tref_fast 0 (b2n fast)).bump fMEM_REF_STAT_changes).memEvent 6 0 portCtrl 0 (b2n fast)

/-- The first interval, when the controller is first enabled after training: 3.9 µs if every stack reports at most 82 °C, 1.95 µs
otherwise (R312). -/
def State.firstInterval (s : State) : State := s.fput fMEM_STATUS_tref_fast 0 (b2n (trefChoice (s.fget fMEM_TEMP_temp) true))

/-! ### Parity incidents and channel faults (R316, R317, R324) -/

/-- User image copies in the system map's share of a channel count as failed (R324): each cluster with a user image loses it. -/
def State.losesUserCopies (s : State) (ch : Nat) : State :=
  if s.mapValid 15 ∧ (s.mapSpec 15).channels.contains ch then
    (List.range 4).foldl (fun s c =>
      if s.fbit fPLT_CS_STAT_user_loaded c then s.fput fPLT_CS_STAT_user_lost c 1 else s) s
  else s

/-- A channel faults (R324): its queued and waiting writes are discarded as one run, and what waits to be read is poisoned. -/
def State.faultChannel (s : State) (ch hpa : Nat) : State :=
  let s := ((s.fput fMEM_CH_STAT_state ch 2).memEvent 5 ch portCtrl hpa 0).logWrite 0x0A (12 + ch / 16) ch 0
  let c := s.chan ch
  let n := c.queue.length + (c.waiting.filter (fun r => r.write.isSome)).length
  let s := if n = 0 then s else s.memEvent 10 ch portCtrl 0 n
  let reads := c.waiting.filter (fun r => r.write.isNone)
  let s := s.setChan ch { c with queue := [], waiting := [] }
  (reads.foldl (fun s r => s.pieceBack r.addr ([], true)) s).losesUserCopies ch

/-- A channel's last incident lies less than 3,120 MER0 cycles back (R317). -/
def State.incidentSoon (s : State) (ch : Nat) : Bool :=
  match (s.chan ch).incident with
  | some t => decide (s.mer0 < t + 3120)
  | none => false

/-- A parity incident counted and reported, with its replays (R316). -/
def State.countIncident (s : State) (ch again : Nat) : State :=
  let replays := if again = 0 then 1 else 2
  let now := s.mer0
  let s := ((s.bump fMEM_CH_PAR_alerts ch (1 + min again 2)).bump fMEM_CH_PAR_replays ch replays).bump fMEM_CH_STAT_incidents ch
  ((s.setChan ch { s.chan ch with incident := some now }).countFix 7).memEvent 4 ch portCtrl 0 replays

/-- The replay of a channel's retry buffer from the oldest command not known to have completed, which is the newest alone, since a
command completes before the next is issued (DESIGN CHOICE, assumption 93): a replayed write leaves its beat as a single write would
have left it, and a read has no further effect (R316). -/
def State.replay (s : State) (ch : Nat) : State :=
  match (s.chan ch).retry with
  | (_, some w) :: _ => s.storeBeat ch w
  | _ => s

/-- A stack signals a parity alert on a channel (R316): the first replay, and a second when the first alerts too; in a refresh stop they
run after it (R314). `again` is how many replays alert; an alert of the second, or a second incident within 3,120 MER0 cycles, faults
the channel (R317). -/
def State.doParityAlert (s : State) (ch again : Nat) : State :=
  if s.fget fMEM_STATUS_state < 2 ∨ s.chFaulted ch then s
  else
    let t := (s.countIncident ch again).waitStop.replay ch
    if 2 ≤ again ∨ s.incidentSoon ch then t.faultChannel ch 0 else t

/-! ### Scrub (R322) -/

/-- One beat read by scrub, in its turn at the arbiter in the management class: a corrected one is written back as a single write ordered
with the write queue, a bad one is reported and left (R315, R322). -/
def State.scrubBeat (s : State) (ch beat : Nat) : State :=
  if s.chFaulted ch ∨ s.isLost ch beat then s
  else
    let m := s.mark ch beat
    let s := s.waitStop
    let s := ((s.arbitrate ch ⟨portCtrl, .management, none, beat, 32⟩ (s.chan ch).waiting.length).readBeat portCtrl 0 ch beat).1
    let data := ((List.range 32).map (fun i => (s.memByte ch (beat + i)).toNat * 256 ^ i)).sum
    if m = .corrected then s.offerBeat portCtrl .management 0 ch ⟨beat, 2 ^ 32 - 1, data, portCtrl⟩ else s

/-- The controller has read every beat once (R322); Binnacle pauses the scrub in warn and act (R464). -/
def State.doHbmScrub (s : State) : State :=
  if s.fbit fMEM_SCRUB_en ∧ s.fget fTHM_STAT_state = 0 ∧ s.fget fMEM_STATUS_state = 2 then
    (s.hbm.marks.foldl (fun s e => s.scrubBeat (e.1 / 2 ^ 32) (e.1 % 2 ^ 32)) s).tick fMEM_SCRUB_passes
  else s

/-! ### Self-refresh (R328 to R330) -/

/-- A request reaches a gateway while the stacks are in self-refresh: exit begins (R329). -/
def State.doMemoryWake (s : State) (port : Nat) : State := s.wakeMem port

/-- The memory awake for a command that needs it: a wake and the exit have taken place (R329). -/
def State.awake (s : State) : State := (s.wakeMem portHP).doSelfRefreshExit

/-! ### What is in use -/

/-- A DMA channel beyond its registers. -/
def State.dmaCh (s : State) (c : Nat) : DmaChan := nget {} c s.dma.chans
/-- A DMA channel replaced. -/
def State.setDmaCh (s : State) (c : Nat) (x : DmaChan) : State :=
  { s with dma := { s.dma with chans := nset {} c x s.dma.chans } }

/-- The active DMA descriptors. -/
def State.dmaDescs (s : State) : List Nat := s.dma.chans.filterMap (fun e => e.2.desc)

/-- The acquisition units that are not idle. -/
def State.acqBusy (s : State) : List Nat := (List.range 4).filter (fun u => (s.aq u).st != .idle)

/-- A region of a space has a page with a property of its HPA and size. -/
def State.spanHits (s : State) (f : Nat → Nat → Bool) (space dva n : Nat) : Bool :=
  (s.mappedPages space dva n (n / 65536 + 2)).2.any (fun a => f a.1 (2 ^ a.2))

/-- A descriptor's DVA sides as (space, address) (R351). -/
def dmaSides (d : Nat) : List (Nat × Nat) :=
  (if bits d 3 0 = 0 ∧ bits d 5 4 = 0 then [(bits d 23 16, bits d 127 64)] else []) ++
  (if bits d 7 6 = 0 then [(bits d 31 24, bits d 191 128)] else [])

/-- A unit's region: space, address and length (R297). -/
def State.aqRegion (s : State) (u : Nat) : Nat × Nat × Nat :=
  (s.fget fACQ_CTL_aspace u, s.aqAddr u 0 0, s.aqS u * (s.aqP u + s.aqQ u) * s.aqUnitBytes u)

/-- An accepted job, an acquisition unit that is not idle or an active DMA descriptor maps into a channel (R325). -/
def State.channelUsed (s : State) (ch : Nat) : Bool :=
  let f (hpa n : Nat) : Bool := ((s.mapSpec (bits hpa 43 40)).channelsOf (bits hpa 39 0) n).contains ch
  s.acceptedJobs.any (fun e => s.spaceHits f e.2.aspace) ||
  s.acqBusy.any (fun u => let r := s.aqRegion u; s.spanHits f r.1 r.2.1 r.2.2) ||
  s.dmaDescs.any (fun d => (dmaSides d).any (fun a => s.spanHits f a.1 a.2 (bits d 231 192)))

/-! ### Interleave maps (R309) -/

/-- A map's registers replaced whole. -/
def State.putMap (s : State) (m : Nat) (p : MapSpec) (valid : Bool) : State :=
  let s := (s.fput fMEM_MAP_BASE_base m p.base).fput fMEM_MAP_LEN_len m p.len
  s.wr .MEM_MAP_CTL m 0 (BitVec.ofNat 64 (pack [(0, 1, b2n valid), (1, 2, p.kind), (3, 2, p.index), (5, 4, p.grain)]))

/-- A write of MEM_MAP_CTL (R309): map 15 is read-only; a valid map takes valid alone; setting valid checks R306. -/
def State.doMemMapCtlWrite (s : State) (m v : Nat) : State :=
  if m = 15 then s
  else if s.mapValid m then
    let s := if bits v 8 1 ≠ bits (s.rd .MEM_MAP_CTL m).toNat 8 1 then s.fput fMEM_STATUS_map_drop 0 1 else s
    s.fput fMEM_MAP_CTL_valid m (v % 2)
  else
    let p : MapSpec := { s.mapSpec m with kind := bits v 2 1, index := bits v 4 3, grain := bits v 8 5 }
    if v % 2 = 1 ∧ s.mapFits m p = false then (s.putMap m p false).fput fMEM_STATUS_map_err 0 1
    else s.putMap m p (v % 2 == 1)

/-- A write of MEM_MAP_BASE or MEM_MAP_LEN: discarded while the map is valid (R309). -/
def State.doMemMapSpanWrite (s : State) (f : Fld) (m v : Nat) : State :=
  if m = 15 then s
  else if s.mapValid m then (if s.fget f m = v % 2 ^ 32 then s else s.fput fMEM_STATUS_map_drop 0 1)
  else s.fput f m v

/-- MEM_MAP_SET (R309). -/
def bodyMemMapSet : CmdBody := fun k s =>
  let m := u8 k 0
  let p : MapSpec := ⟨u8 k 1, u8 k 2, u8 k 3, u32 k 8, u32 k 12⟩
  if 15 ≤ m ∨ 3 < p.kind ∨ 3 < p.index ∨ 15 < p.grain ∨ 1 < u8 k 4 then fail s .paramInvalid
  else if s.acceptedJobs.any (fun e => s.spaceHits (fun hpa _ => bits hpa 43 40 == m) e.2.aspace) then fail s .memBusy
  else if u8 k 4 = 1 ∧ s.mapFits m p = false then fail s .memRange
  else ok (s.putMap m p (u8 k 4 == 1))

/-! ### Training, recovery, self-refresh commands -/

/-- MEM_TRAIN (R327): contents are kept. -/
def bodyMemTrain : CmdBody := fun k s =>
  if 64 ≤ u8 k 0 then fail s .paramInvalid
  else if s.channelUsed (u8 k 0) then fail s .memBusy
  else ok s.awake

/-- Every byte of a channel zero with valid check bits. -/
def State.zeroChannel (s : State) (ch lo len : Nat) : State :=
  let keep (k : Nat) : Bool := !decide (memKey ch lo ≤ k ∧ k < memKey ch (lo + len))
  { s with hbm := { s.hbm with mem := s.hbm.mem.filter (fun e => keep e.1), marks := s.hbm.marks.filter (fun e => keep e.1) } }

/-- A recovered channel: every byte zero, its queue empty, no incident in mind (R325). -/
def State.recoverChannel (s : State) (ch : Nat) : State :=
  ((s.zeroChannel ch 0 0x90000000).fput fMEM_CH_STAT_state ch 0).setChan ch { s.chan ch with queue := [], incident := none }

/-- MEM_CH_RECOVER (R325): whether the retraining succeeds is a free value; a channel that is not faulted is refused
(assumption 33). -/
def bodyMemChRecover : CmdBody := fun k s =>
  let ch := u8 k 0
  if 64 ≤ ch ∨ s.chFaulted ch = false then fail s .paramInvalid
  else if s.channelUsed ch then fail s .memBusy
  else
    let s := s.awake
    if s.fresh.2.getLsbD 0 then ok (s.fresh.1.recoverChannel ch) else fail s.fresh.1 .memFault

/-- Every write queue drained to the stacks, as entry to self-refresh needs. -/
def State.drainAll (s : State) : State :=
  s.settleWrites.hbm.chans.foldl (fun s e => s.drain e.1 (s.chan e.1).queue.length) s.settleWrites

/-- The memory enters self-refresh with the eighths that it keeps, after the refresh stop in progress, if one is: a stop is never cut
short, and none begins (R314, R328). -/
def State.enterRefresh (s : State) (keep : Nat) : State :=
  ((s.waitStop.fput fMEM_PASR_keep 0 keep).fput fMEM_STATUS_state 0 4).memEvent 7 0 portCtrl 0 0

/-- MEM_SELF_REFRESH (R328): eighth 7 of each stack is always kept. Entry takes no model time (assumption 34). -/
def bodyMemSelfRefresh : CmdBody := fun k s =>
  if s.acceptedJobs ≠ [] ∨ s.acqBusy ≠ [] ∨ s.dmaDescs ≠ [] ∨ s.fget fMEM_STATUS_state ≠ 2 then fail s .memBusy
  else
    ok (s.drainAll.enterRefresh (Nat.lor (u32 k 0) 0x80808080))

/-- One lost eighth written with zeros, and its bit cleared. -/
def State.clearEighth (s : State) (b : Nat) : State :=
  let s := (List.range 16).foldl (fun s c => s.zeroChannel (16 * (b / 8) + c) (b % 8 * 0x12000000) 0x12000000) s
  s.fput fMEM_SEG_LOST_lost 0 (setBit (s.fget fMEM_SEG_LOST_lost) b false)

/-- MEM_SEG_CLEAR (R330): the lost eighths that the mask names, one step each. -/
def bodyMemSegClear : CmdBody := fun k s =>
  let s := s.awake
  let mask := Nat.land (u32 k 0) (s.fget fMEM_SEG_LOST_lost)
  let s := (maskBits 32 mask).foldl State.clearEighth s
  (if mask = 0 then s else s.memEvent 11 0 portCtrl 0 mask, .done .ok 0 0 false false (popCount 32 mask))

/-! ### Grants, drains and fences (R21, R25, R315) -/

/-- A channel's arbiter grants one request; what the spill port holds is offered first (R21, R393). -/
def State.doArbiterGrant (s : State) (ch : Nat) : State := s.offerSpills.grant ch

/-- A fence of a port completes once every earlier write from it is acknowledged (R25). -/
def State.doFenceComplete (s : State) (port : Nat) : State :=
  let s := if port = portDS then s.offerSpills else s
  if s.portQuiet port then { s with hbm := { s.hbm with fencesDone := port :: s.hbm.fencesDone } } else s

/-- A write queue drains its oldest entry: at 48 entries or more, or when no read waits on the channel (R315). -/
def State.doWriteQueueDrain (s : State) (ch : Nat) : State :=
  let c := s.chan ch
  if s.memServing ∧ s.chFaulted ch = false ∧ (48 ≤ c.queue.length ∨ c.waiting.all (fun r => r.write.isSome)) then s.drain ch 1
  else s

/-! ### The rows of the command table -/

/-- ARBITER_GRANT (R21). -/
def execArbiterGrant (ch : ChannelNo) (s : State) : Host.Outcome State Fault Refusal := .next (s.doArbiterGrant ch.val)

/-- FENCE_COMPLETE (R25). -/
def execFenceComplete (port : Fin 19) (s : State) : Host.Outcome State Fault Refusal := .next (s.doFenceComplete port.val)

/-- WRITE_QUEUE_DRAIN (R315). -/
def execWriteQueueDrain (ch : ChannelNo) (s : State) : Host.Outcome State Fault Refusal := .next (s.doWriteQueueDrain ch.val)

/-- REFRESH_STOP (R311). -/
def execRefreshStop (s : State) : Host.Outcome State Fault Refusal := .next s.doRefreshStop

/-- REFRESH_STOP_END (R313). -/
def execRefreshStopEnd (errs : List LaneErr) (s : State) : Host.Outcome State Fault Refusal := .next (s.doRefreshStopEnd errs)

/-- STACK_TEMP_READ (R312). -/
def execStackTempRead (temps : BitVec 32) (s : State) : Host.Outcome State Fault Refusal := .next (s.doStackTempRead temps.toNat)

/-- PARITY_ALERT (R316). -/
def execParityAlert (ch : ChannelNo) (replays : Fin 3) (s : State) : Host.Outcome State Fault Refusal :=
  .next (s.doParityAlert ch.val replays.val)

/-- HBM_SCRUB (R322). -/
def execHbmScrub (s : State) : Host.Outcome State Fault Refusal := .next s.doHbmScrub

/-- MEMORY_WAKE (R329). -/
def execMemoryWake (port : Fin 19) (s : State) : Host.Outcome State Fault Refusal := .next (s.doMemoryWake port.val)

/-- SELF_REFRESH_EXIT (R330). -/
def execSelfRefreshExit (s : State) : Host.Outcome State Fault Refusal := .next s.doSelfRefreshExit

/-- MEM_MAP_SET (R309). -/
def execMemMapSet (k : Packet) (s : State) : Host.Outcome State Fault Refusal := .next (s.runCommand 0x1001 bodyMemMapSet k)

/-- MEM_TRAIN (R327). -/
def execMemTrain (k : Packet) (s : State) : Host.Outcome State Fault Refusal := .next (s.runCommand 0x1002 bodyMemTrain k)

/-- MEM_CH_RECOVER (R325). -/
def execMemChRecover (k : Packet) (s : State) : Host.Outcome State Fault Refusal := .next (s.runCommand 0x1003 bodyMemChRecover k)

/-- MEM_SELF_REFRESH (R328). -/
def execMemSelfRefresh (k : Packet) (s : State) : Host.Outcome State Fault Refusal :=
  .next (s.runCommand 0x1004 bodyMemSelfRefresh k)

/-- MEM_SEG_CLEAR (R330). -/
def execMemSegClear (k : Packet) (s : State) : Host.Outcome State Fault Refusal := .next (s.runCommand 0x1005 bodyMemSegClear k)

/-! ### Upsets (R114, R168, R318) -/

/-- A beat's mark once a stored symbol has changed: a single symbol in error, or more, or one that fails its first reading alone; what
is already past correction stays so (R318 to R320). -/
def BeatMark.struck (m : BeatMark) (v : Nat) : BeatMark :=
  match m with
  | .uncorrectable => m
  | .storedPoison => m
  | .clean => if v % 4 = 0 then .badOnce else if v % 4 = 1 then .uncorrectable else .corrected
  | .corrected => if v % 4 = 1 then .uncorrectable else m
  | .badOnce => if v % 4 = 1 then .uncorrectable else m

/-- An entry's or word's mark once a stored bit has changed (R114, R168). -/
def EccMark.struck (m : EccMark) (v : Nat) : EccMark :=
  match m with
  | .double => m
  | .single => if v % 2 = 1 then .double else m
  | .clean => if v % 2 = 1 then .double else .single

/-- Stored bits may change by themselves, in a beat of a stack, an Almanac entry or a control-store word: the errors that the check bits
are for. Whether and where is a free value (assumption 108). -/
def State.upset (s : State) : State :=
  let v := (Config.freeValue s.free).toNat
  let beat := memKey (bits v 7 2) (bits v 34 8 % 0x4800000 * 32)
  let entry := almKey (bits v 18 8) (bits v 24 19 % 48)
  let cl := bits v 3 2
  let x : Cluster := nget {} cl s.clusters
  let word := bits v 22 8 % 16640
  { s with
    free := s.free + 1
    hbm := { s.hbm with marks :=
      if v % 4 = 1 then nset .clean beat ((nget BeatMark.clean beat s.hbm.marks).struck (bits v 41 40)) s.hbm.marks else s.hbm.marks }
    alm := { s.alm with marks :=
      if v % 4 = 2 then nset .clean entry ((nget EccMark.clean entry s.alm.marks).struck (bits v 40 40)) s.alm.marks else s.alm.marks }
    clusters := if v % 4 = 3 then
        nset {} cl { x with marks := nset .clean word ((nget EccMark.clean word x.marks).struck (bits v 40 40)) x.marks } s.clusters
      else s.clusters }

end Sys2Proof.Machine
end

