-- ==== Sys2Proof/Machine/Dma.lean ====
section
/-! DEFINITION. DMA channels: descriptors, granules and their slots, faults and completions (R350 to R355), the sending side of bulk
transfers over Wayline (R422), and the BAR2 window (R356, R357). -/

namespace Sys2Proof.Machine

/-! ### The descriptor (R351) -/

def dOp (d : Nat) : Nat := bits d 3 0
def dSrcType (d : Nat) : Nat := bits d 5 4
def dDstType (d : Nat) : Nat := bits d 7 6
def dClassA (d : Nat) : Bool := bitAt d 8
def dPost (d : Nat) : Bool := bitAt d 9
def dFillPost (d : Nat) : Bool := bitAt d 10
def dSrcSpace (d : Nat) : Nat := bits d 23 16
def dDstSpace (d : Nat) : Nat := bits d 31 24
def dTag (d : Nat) : Nat := bits d 63 32
def dSrc (d : Nat) : Nat := bits d 127 64
def dDst (d : Nat) : Nat := bits d 191 128
def dLength (d : Nat) : Nat := bits d 231 192
def dNode (d : Nat) : Nat := bits d 263 256
def dWlSpace (d : Nat) : Nat := bits d 271 264
def dFillQ (d : Nat) : Nat := bits d 285 272
def dPattern (d : Nat) : Nat := bits d 383 320
def dFillElem (d : Nat) : Nat := bits d 511 384

/-- A descriptor is valid (R351): every case of the rule's list, on a fill as on a copy (assumption 35). -/
def State.dmaValid (s : State) (d : Nat) : Bool :=
  decide (dOp d < 2 ∧ dSrcType d < 3 ∧ dDstType d < 3 ∧ bits d 15 11 = 0 ∧ bits d 255 232 = 0 ∧ bits d 319 286 = 0 ∧
    1 ≤ dLength d ∧ dLength d ≤ 2 ^ 36) &&
  !(dOp d == 1 && (dSrcType d == 2 || dDstType d == 2)) &&
  !(dSrcType d == 1 && dDstType d == 1) && !(dSrcType d == 2 && dDstType d == 2) &&
  (dSrcType d != 0 || s.spaceValid (dSrcSpace d)) && (dDstType d != 0 || s.spaceValid (dDstSpace d))

/-- A side of the transfer lies at a Wayline member. -/
def dWayline (d : Nat) : Bool := dDstType d == 2 || (dOp d == 0 && dSrcType d == 2)

/-- How far the first granule's first byte lies beyond a 4 KiB boundary of the destination (R352). -/
def dSkew (d : Nat) : Nat := if dDstType d = 2 then 0 else dDst d % 4096

/-- The number of granules (R352). -/
def dGranules (d : Nat) : Nat := (dSkew d + dLength d + 4095) / 4096

/-- A granule's first byte, counted from the transfer's first (R352). -/
def granuleLo (d k : Nat) : Nat := 4096 * k - dSkew d
/-- A granule's length in bytes. -/
def granuleLen (d k : Nat) : Nat := min (4096 * (k + 1) - dSkew d) (dLength d) - granuleLo d k

/-! ### Progress and slots (R352, R354) -/

/-- The state of a channel (DMA_CH_STAT.state). -/
def State.dmaState (s : State) (c : Nat) : Nat := s.fget fDMA_CH_STAT_state c

/-- The first granule not written. -/
def State.dmaFirst (s : State) (c : Nat) : Nat := s.fget fDMA_CH_PROG_granule c

/-- A granule is written, as the channel's progress says (R354). -/
def State.granuleDone (s : State) (c k : Nat) : Bool :=
  decide (k < s.dmaFirst c) || (decide (s.dmaFirst c < k) && bitAt (s.fget fDMA_CH_PROG_done_mask c) (k - s.dmaFirst c - 1))

/-- The next granule that a running channel may start: the lowest not written and not in flight, at most 4 in flight (R352). -/
def State.nextGranule (s : State) (c : Nat) : Option Nat :=
  let x := s.dmaCh c
  match x.desc with
  | none => none
  | some d =>
    if s.dmaState c = 1 ∧ x.status = 0 ∧ x.flying.length < 4 then
      ((List.range 4).map (fun t => s.dmaFirst c + t)).find?
        (fun k => decide (k < dGranules d) && !x.flying.contains k && !s.granuleDone c k)
    else none

/-- The slots that granules of a class hold. -/
def State.dmaSlots (s : State) (classA : Bool) : Nat :=
  (s.dma.chans.map (fun e => match e.2.desc with
    | some d => if dClassA d = classA then e.2.flying.length else 0
    | none => 0)).sum

/-- The next ready channel of a class after the one served last (R352). -/
def State.dmaReady (s : State) (classA : Bool) (last : Nat) : Option Nat :=
  ((List.range 16).map (fun t => (last + 1 + t) % 16)).find? (fun c =>
    (s.nextGranule c).isSome && (match (s.dmaCh c).desc with
      | some d => dClassA d == classA
      | none => false))

/-- The local DVA side of a transfer at a byte: the address that a fault record names when no walk gives one (R346;
assumption 36). -/
def dLocal (d lo : Nat) : Nat × Nat :=
  if dDstType d = 0 then (dDstSpace d, dDst d + lo)
  else if dOp d = 0 ∧ dSrcType d = 0 then (dSrcSpace d, dSrc d + lo)
  else (dWlSpace d, (if dDstType d = 2 then dDst d else dSrc d) + lo)

/-- A granule ends without being written: the channel's first fault suspends it with a record, a later one leaves none (R354). -/
def State.granuleFault (s : State) (c k : Nat) (f : FaultSlot) : State :=
  let s := s.setDmaCh c { s.dmaCh c with flying := (s.dmaCh c).flying.erase k }
  if s.dmaState c = 1 then
    let r := s.raiseFault { f with source := 16 + c, early := false, blocking := true }
    let s := (r.1.fput fDMA_CH_STAT_state c 2).fput fDMA_CH_STAT_fault_id c r.2
    ((s.setDmaCh c { s.dmaCh c with faultId := r.2 }).bump fDMA_CH_CNT_faults c).countFix 9
  else s

/-- A fault of a kind that is no walk's, at a granule's first byte. -/
def granuleFaultOf (d c k kind detail : Nat) (write : Bool) : FaultSlot :=
  let a := dLocal d (granuleLo d k)
  mkFault (16 + c) a.1 a.2 kind 0 detail write false true

/-- The leading run of a mask of three written granules: how many follow at once, and what is left of the mask. -/
def leadRun (mask : Nat) : Nat × Nat :=
  if mask % 2 = 0 then (0, mask / 2) else if mask / 2 % 2 = 0 then (1, mask / 4) else if mask / 4 = 0 then (2, 0) else (3, 0)

/-- A granule is written: progress moves on (R354). -/
def State.granuleWritten (s : State) (c k : Nat) : State :=
  let s := s.setDmaCh c { s.dmaCh c with flying := (s.dmaCh c).flying.erase k }
  let g := s.dmaFirst c
  let m := s.fget fDMA_CH_PROG_done_mask c
  if k = g then
    let r := leadRun m
    (s.fput fDMA_CH_PROG_granule c (g + 1 + r.1)).fput fDMA_CH_PROG_done_mask c r.2
  else s.fput fDMA_CH_PROG_done_mask c (setBit m (k - g - 1) true)

/-! ### Reading a granule's source -/

/-- The HPA of the first byte of a span that lies in a poisoned beat (R346). -/
def State.poisonHpa (s : State) (source space dva n : Nat) : Nat → Nat
  | 0 => 0
  | fuel + 1 =>
    match (s.translate source space dva false).2 with
    | .fault _ _ _ => 0
    | .hpa a _ =>
      let k := min n (32 - dva % 32)
      let bad : Bool := match s.hpaDecode a with
        | none => true
        | some (ch, x) => s.chFaulted ch || s.isLost ch x || s.willLose ch x ||
            s.mark ch (x / 32 * 32) == .uncorrectable || s.mark ch (x / 32 * 32) == .storedPoison
      if bad ∨ n ≤ k then a else State.poisonHpa s source space (dva + k) (n - k) fuel

/-- The bytes of a fill's granule: the pattern from the first destination byte on (R351). -/
def fillBytes (pattern lo : Nat) (n : Nat) : List Byte :=
  (List.range n).map (fun i => BitVec.ofNat 8 (pattern / 256 ^ ((lo + i) % 8)))

/-- A granule's bytes from a local source, or the fault that its read meets (R352, R344). A host read ends as the host answers it:
with the data, or with an error status. While PERST# holds the link no answer comes, and the status is a free value. -/
def State.granuleSource (s : State) (c d k : Nat) (err : Option (BitVec 3)) : State × Except FaultSlot (List Byte) :=
  let lo := granuleLo d k
  let n := granuleLen d k
  if dOp d = 1 then (s, .ok (fillBytes (dPattern d) lo n))
  else if dSrcType d = 1 then
    if s.host.perst then (s.fresh.1, .error (granuleFaultOf d c k kHostError s.fresh.2.toNat false))
    else match err with
      | some e => (s, .error (granuleFaultOf d c k kHostError e.toNat false))
      | none => (s, .ok (s.hostRead (dSrc d + lo) n))
  else match s.dvaRead (16 + c) portDM (dSrcSpace d) (dSrc d + lo) n with
    | (s, .done bs) => (s, .ok bs)
    | (s, .fault f) => (s, .error f)
    | (s, .poison) =>
      (s, .error (mkFault (16 + c) (dSrcSpace d) (dSrc d + lo) kDataPoison 0
        (s.poisonHpa (16 + c) (dSrcSpace d) (dSrc d + lo) n 200) false false true))

/-- A granule's bytes stored at a local destination: whole or not at all (R352). -/
def State.granuleStore (s : State) (c d k : Nat) (bs : List Byte) : State × Option FaultSlot :=
  let at' := dDst d + granuleLo d k
  if dDstType d = 1 then (s.hostWrite at' bs, none)
  else s.dvaWrite (16 + c) portDM (if dClassA d then .realTime else .bulk) (dDstSpace d) at' bs

/-! ### Sending over Wayline (R422) -/

/-- The flits of a bulk unit: DVA in payload bytes 0 to 5, space in byte 6, then up to 228 data bytes; the last carries last. -/
def bulkFlits (typ dst src xid space : Nat) (dva : Nat) : List Byte → Nat → List Flit
  | _, 0 => []
  | bs, fuel + 1 =>
    let f := mkFlit typ 1 dst src xid 0 (decide (bs.length ≤ 228)) (bytesOf 6 dva ++ bytesOf 2 (space % 256) ++ bs.take 228)
    if bs.length ≤ 228 then [f] else f :: bulkFlits typ dst src xid space (dva + 228) (bs.drop 228) fuel

/-- The next transaction id of this source. -/
def State.nextXid (s : State) : State × Nat :=
  ({ s with wln := { s.wln with xid := (s.wln.xid + 1) % 65536 } }, s.wln.xid)

/-- A granule's bytes leave as BULK_WR, or its source faults (R422). -/
def State.sendBulkWr (s : State) (c d k p xid own : Nat) (err : Option (BitVec 3)) : State :=
  match s.granuleSource c d k err with
  | (s, .error f) => s.granuleFault c k f
  | (s, .ok bs) =>
    (bulkFlits 5 (dNode d) own xid (dWlSpace d) (dDst d + granuleLo d k) bs 20).foldl (fun s f => s.sendFlit p f)
      { s with wln := { s.wln with bulk := s.wln.bulk ++ [⟨xid, p, c, k, false⟩] } }

/-- A granule with a Wayline side: its bytes leave as BULK_WR, or BULK_RD_REQ asks for them with the length in word (assumption 37).
Without a route or with its link down it faults as link_error. -/
def State.sendGranule (s : State) (c d k : Nat) (err : Option (BitVec 3)) : State :=
  match s.wlnRoute (dNode d) with
  | none => s.granuleFault c k (granuleFaultOf d c k kLinkError 0 (dDstType d == 2))
  | some p =>
    if s.linkUp p = false then s.granuleFault c k (granuleFaultOf d c k kLinkError 0 (dDstType d == 2))
    else
      let own := s.ownNode
      let x := own.1.nextXid
      let s := x.1
      if dDstType d = 2 then s.sendBulkWr c d k p x.2 own.2 err
      else
        ({ s with wln := { s.wln with bulk := s.wln.bulk ++ [⟨x.2, p, c, k, true⟩] } } : State).sendFlit p
          (mkFlit 6 1 (dNode d) own.2 x.2 (granuleLen d k) true (bytesOf 6 (dSrc d + granuleLo d k) ++ bytesOf 2 (dWlSpace d)))

/-! ### Slots given to channels (R352) -/

/-- The walks that a granule asks for: the pages of its DVA sides (R343). -/
def granuleWalks (c d k : Nat) : List WalkReq :=
  (if dOp d = 0 ∧ dSrcType d = 0 then [⟨16 + c, dSrcSpace d, (dSrc d + granuleLo d k) / 65536 * 65536, false⟩] else []) ++
  (if dDstType d = 0 then [⟨16 + c, dDstSpace d, (dDst d + granuleLo d k) / 65536 * 65536, true⟩] else [])

/-- A channel starts its next granule in a free slot. One that goes out to Wayline leaves at once, unless the host has its bytes to
give first. -/
def State.startGranule (s : State) (c : Nat) : State :=
  match s.nextGranule c, (s.dmaCh c).desc with
  | some k, some d =>
    let s := (s.setDmaCh c { s.dmaCh c with flying := (s.dmaCh c).flying ++ [k] }).askWalks (granuleWalks c d k)
    if dWayline d ∧ dSrcType d ≠ 1 then s.sendGranule c d k none else s
  | _, _ => s

/-- Free slots go to the next granules: class A first, round robin; class B while fewer than 24 slots hold it (R352). -/
def State.dmaFillFrom (s : State) : Nat → State
  | 0 => s
  | fuel + 1 =>
    let a := s.dmaSlots true
    let b := s.dmaSlots false
    if 32 ≤ a + b then s
    else match s.dmaReady true s.dma.lastA with
      | some c => State.dmaFillFrom ({ s with dma := { s.dma with lastA := c } }.startGranule c) fuel
      | none =>
        if 24 ≤ b then s
        else match s.dmaReady false s.dma.lastB with
          | some c => State.dmaFillFrom ({ s with dma := { s.dma with lastB := c } }.startGranule c) fuel
          | none => s

/-- Every slot that may be taken is taken. -/
def State.dmaFill (s : State) : State := s.dmaFillFrom 64

/-! ### The channel's events -/

/-- The completion queue lets the channel go on: it is not full and holds no completion back (R350). -/
def State.cplRoom (s : State) (q : Nat) : Bool := !s.qOn q || (decide ((s.dq q).elems.length < s.qCap q) && (s.dq q).held == [])

/-- A channel works on a descriptor; one that is not valid moves nothing and ends with status 3 (R350, R351, R353). -/
def State.dmaBegin (s : State) (c d : Nat) : State :=
  let s := s.setDmaCh c { desc := some d, status := if s.dmaValid d then 0 else 3 }
  let s := s.wr .DMA_CH_PROG c 0 (BitVec.ofNat 64 (dTag d * 2 ^ 32))
  s.fput fDMA_CH_STAT_state c 1

/-- A channel's completion or fill element still waits for room in a queue (R353, R394). -/
def State.dmaHeld (s : State) (c : Nat) : Bool := s.depot.queues.any (fun e => e.2.held.any (fun h => h.1 == .dma c))

/-- A channel takes its next descriptor, with the last one's elements committed (R350, R351, R353): an invalid one moves nothing. -/
def State.doDmaDescriptor (s : State) (c : Nat) : State :=
  let q := s.fget fDMA_CH_CTL_ring_q c
  if s.fbit fDMA_CH_CTL_run c ∧ s.dmaState c = 0 ∧ (s.dmaCh c).desc = none ∧ s.qOn q ∧ s.cplRoom (s.fget fDMA_CH_CTL_cpl_q c) ∧ !s.dmaHeld c then
    match s.qTake q with
    | none => s
    | some (d, s) =>
      (s.dmaBegin c (d % 2 ^ 512)).dmaFill
  else s

/-- A granule in flight between local sides finishes: it is read whole, then written whole, or it faults (R352, R354). A class A
granule finishes when its writes have passed the engine's limit (R23). A granule for Wayline whose bytes the host gives leaves now. -/
def State.doGranuleComplete (s : State) (c : Nat) (x : GranuleEnd) : State :=
  let k := x.granule
  let s := s.dmaFill
  match (s.dmaCh c).desc with
  | none => s
  | some d =>
    if (s.dmaCh c).flying.contains k = false then s
    else if dWayline d then
      if dSrcType d = 1 ∧ s.wln.bulk.any (fun b => b.chan == c && b.granule == k) = false then (s.sendGranule c d k x.err).dmaFill
      else s
    else match s.granuleSource c d k x.err with
      | (s, .error f) => (s.granuleFault c k f).dmaFill
      | (s, .ok bs) => match s.granuleStore c d k bs with
        | (s, some f) => (s.granuleFault c k f).dmaFill
        | (s, none) => ((if dClassA d then s.advance s.classAPast else s).granuleWritten c k).dmaFill

/-- The bytes of the leading run of written granules. -/
def State.dmaDone (s : State) (c d : Nat) : Nat := min (granuleLo d (s.dmaFirst c)) (dLength d)

/-- The completion of 32 bytes (R353). -/
def State.dmaCpl (s : State) (c d status : Nat) : Nat :=
  pack [(0, 8, status), (8, 4, c), (16, 4, 14), (20, 1, b2n (s.fget fDMA_CH_PROG_done_mask c != 0)), (32, 32, dTag d),
        (64, 64, s.dmaDone c d), (128, 64, s.mer0), (192, 16, if status = 1 then (s.dmaCh c).faultId else 0)]

/-- A descriptor has finished: nothing of it is in flight, and it is written whole or will not be. -/
def State.dmaFinished (s : State) (c d : Nat) : Bool :=
  (s.dmaCh c).flying == [] && s.dmaState c != 2 && ((s.dmaCh c).status != 0 || decide (dGranules d ≤ s.dmaFirst c))

/-- The completion of a descriptor, if it asks for one or failed, and its fill element, if it asks for one and did not (R353). -/
def State.dmaPost (s : State) (c d st : Nat) : State :=
  let e := s.dmaCpl c d st
  let s := if dPost d ∨ st ≠ 0 then s.reportDma c (s.fget fDMA_CH_CTL_cpl_q c) 32 e else s
  if dFillPost d ∧ st = 0 then s.reportDma c (dFillQ d) 16 (dFillElem d) else s

/-- The channel commits its completion and fill element, once every write is acknowledged (R26, R353). -/
def State.doDmaCompletion (s : State) (c : Nat) : State :=
  match (s.dmaCh c).desc with
  | none => s
  | some d =>
    if s.dmaFinished c d ∧ s.portQuiet portDM then
      let st := (s.dmaCh c).status
      let s := (s.dmaPost c d st).bump fDMA_CH_CNT_completed c
      let s := if st = 3 then s.bump fDMA_CH_CNT_invalid c else s
      (s.fput fDMA_CH_STAT_state c (if st = 1 then 3 else 0)).setDmaCh c {}
    else s

/-- A running channel's descriptor will end with a status and starts no further granule (R349, R355). -/
def State.dmaEnds (s : State) (c status state : Nat) : State :=
  (s.setDmaCh c { s.dmaCh c with status := status }).fput fDMA_CH_STAT_state c state

/-- The outstanding fault of a channel. -/
def State.dmaFaultSlot (s : State) (c : Nat) : Option Nat := (s.faults.find? (fun e => e.2.source == 16 + c)).map (·.1)

/-- A write of DMA_CH_CTL (R350, R355). -/
def State.doDmaChCtlWrite (s : State) (c v : Nat) : State :=
  let running := s.fbit fDMA_CH_CTL_run c
  let s := if running then s
    else (s.fput fDMA_CH_CTL_ring_q c (bits v 15 2)).fput fDMA_CH_CTL_cpl_q c (bits v 29 16)
  let s := s.fput fDMA_CH_CTL_run c (v % 2)
  if v % 2 = 1 then
    if s.dmaState c = 3 ∧ (s.dmaCh c).desc = none then (s.fput fDMA_CH_STAT_state c 0).fput fDMA_CH_STAT_fault_id c 0 else s
  else
    let st := s.dmaState c
    if st = 2 then
      let s := match s.dmaFaultSlot c with
        | some i => s.setSlot i none
        | none => s
      (s.dmaEnds c 2 4).fput fDMA_CH_STAT_fault_id c 0
    else if st = 1 ∧ (s.dmaCh c).status = 0 then s.dmaFill.dmaEnds c 2 4
    else s

/-- DMA_CHANNEL_SET (R350). -/
def bodyDmaChannelSet : CmdBody := fun k s =>
  let c := u8 k 0
  if 16 ≤ c ∨ 1 < u8 k 1 ∨ 16384 ≤ u16 k 2 ∨ 16384 ≤ u16 k 4 then fail s .paramInvalid
  else ok (s.doDmaChCtlWrite c (u8 k 1 + u16 k 2 * 4 + u16 k 4 * 2 ^ 16))

/-- Granules asked of a port whose link is lost fault as link_error (R422). -/
def State.bulkLost (s : State) (p : Nat) : State :=
  let mine := s.wln.bulk.filter (fun b => b.port == p)
  let s := { s with wln := { s.wln with bulk := s.wln.bulk.filter (fun b => b.port != p) } }
  mine.foldl (fun s b => match (s.dmaCh b.chan).desc with
    | some d => if (s.dmaCh b.chan).flying.contains b.granule then
        s.granuleFault b.chan b.granule (granuleFaultOf d b.chan b.granule kLinkError 0 (!b.read))
      else s
    | none => s) s

/-! ### The BAR2 window (R356, R357) -/

/-- The DVA of a window offset (R356). -/
def State.bar2Dva (s : State) (off : Nat) : Nat := s.fget fCHT_BAR2_BASE_dva + off

/-- An access while the window is disabled. -/
def State.bar2Off (s : State) : State := s.bump fCHT_BAR2_CNT_disabled

/-- A BAR2 fault: a record with no slot, and the counter (R346, R357). -/
def State.bar2Fault (s : State) (f : FaultSlot) : State := (s.raiseFault f).1.bump fCHT_BAR2_CNT_faults

/-- The host's answer. -/
def State.answer (s : State) (r : HostReply) : State := { s with host := { s.host with reply := some r } }

/-- The pieces of a span, each within a beat: HPA and length. -/
def beatPieces (hpa n : Nat) : Nat → List (Nat × Nat)
  | 0 => []
  | fuel + 1 => if n = 0 then [] else (hpa, min n (32 - hpa % 32)) :: beatPieces (hpa + min n (32 - hpa % 32)) (n - min n (32 - hpa % 32)) fuel

/-- A piece of a host read waits at its channel; one that no grant can serve comes back poisoned at once (R310, R324, R330). -/
def State.holdPiece (s : State) (hpa k : Nat) : State :=
  match s.hpaDecode hpa with
  | some (ch, a) =>
    if s.beatGone ch a then s.pieceBack hpa ([], true)
    else s.setChan ch { s.chan ch with waiting := (s.chan ch).waiting ++ [⟨portPB, .bulk, none, hpa, k⟩] }
  | none => (s.decodeError portPB hpa).pieceBack hpa ([], true)

/-- A read of a span by HPA that must wait: in a refresh stop at its channel (R314), in self-refresh for the exit (R329). -/
def State.holdHostRead (s : State) (hpa n : Nat) : Option State :=
  if s.fget fMEM_STATUS_state < 3 ∧ s.inStop = false then none
  else
    let parts := beatPieces hpa n (n / 32 + 2)
    let s := s.wakeMem portPB
    let s : State := { s with host := { s.host with reply := none, held := s.host.held ++ [⟨parts.map (fun e => (e.1, e.2, none))⟩] } }
    some (parts.foldl (fun s e => s.holdPiece e.1 e.2) s)

/-- A host read through BAR2 (R356, R357): all ones while disabled; Completer Abort on a fault; poisoned data marked. -/
def State.doBar2Read (s : State) (off n : Nat) : State :=
  if s.fbit fCHT_BAR2_CTL_en = false then s.bar2Off.answer (.data (List.replicate n 0xFF))
  else
    let space := s.fget fCHT_BAR2_CTL_space
    let dva := s.bar2Dva off
    match s.translate 32 space dva false with
    | (s, .fault k l e) => (s.bar2Fault (mkFault 32 space dva k l e false false false)).answer .abort
    | (s, .hpa a _) =>
      match s.holdHostRead a n with
      | some s => s
      | none =>
        let r := s.hbmRead portPB .bulk a n
        r.1.answer (if r.2.2 then .poisoned else .data r.2.1)

/-- A host write through BAR2 (R356, R357, R438): discarded while disabled, when the TLP is poisoned, or on a fault. -/
def State.doBar2Write (s : State) (off : Nat) (bs : List Byte) (poisoned : Bool) : State :=
  if poisoned then s.bump fPCI_ERR_poisoned_in
  else if s.fbit fCHT_BAR2_CTL_en = false then s.bar2Off
  else
    match s.dvaWrite 32 portPB .bulk (s.fget fCHT_BAR2_CTL_space) (s.bar2Dva off) bs with
    | (s, none) => s
    | (s, some f) => s.bar2Fault f

/-! ### The rows of the command table -/

/-- BAR2_READ (R357). -/
def execBar2Read (off : BitVec 36) (len : BitVec 13) (s : State) : Host.Outcome State Fault Refusal :=
  .next (if s.host.perst then s else s.doBar2Read off.toNat len.toNat)

/-- BAR2_WRITE (R357). -/
def execBar2Write (off : BitVec 36) (bytes : List Byte) (poisoned : Bool) (s : State) : Host.Outcome State Fault Refusal :=
  .next (if s.host.perst then s else s.doBar2Write off.toNat bytes poisoned)

/-- DMA_DESCRIPTOR (R351). -/
def execDmaDescriptor (c : Fin 16) (s : State) : Host.Outcome State Fault Refusal := .next (s.doDmaDescriptor c.val)

/-- GRANULE_COMPLETE (R352). -/
def execGranuleComplete (c : Fin 16) (x : GranuleEnd) (s : State) : Host.Outcome State Fault Refusal := .next (s.doGranuleComplete c.val x)

/-- DMA_COMPLETION (R353). -/
def execDmaCompletion (c : Fin 16) (s : State) : Host.Outcome State Fault Refusal := .next (s.doDmaCompletion c.val)

/-- DMA_CHANNEL_SET (R350). -/
def execDmaChannelSet (k : Packet) (s : State) : Host.Outcome State Fault Refusal := .next (s.runCommand 0x100C bodyDmaChannelSet k)

end Sys2Proof.Machine
end

