-- ==== Sys2Proof/Machine/PinCommands.lean ====
section
/-! DEFINITION. The class 0x3 and 0x4 commands, which set pins and Almanac entries, and the events of the pin front end (R68 to R86,
R99, R106 to R112, R501, R502, R504). -/

namespace Sys2Proof.Machine

/-! ### Pins named by a command (R501) -/

/-- A mask names pins that do not exist, or a pin of a running leg: the status that refuses the command. -/
def State.pinsRefused (s : State) (mask : Nat) : Option Status :=
  if 2 ^ 48 ≤ mask then some .paramInvalid
  else if (pinsOf mask).any s.pinInLeg then some .pinBusy
  else none

/-- A pin whose quad is powered settles after a change; the levels of an unpowered quad take effect at power-up (R69, R84). -/
def State.settleIf (s : State) (n : Nat) (changed : Bool) : State :=
  if changed ∧ s.powered (n / 4) then s.beginSettle n else s

/-- A command that has changed pins completes after settling (R69, R78). -/
def State.afterSettling (s : State) (mask : Nat) : State × CmdEnd :=
  let steps := popCount 48 mask
  if s.allSettled mask then (s, .done .ok 0 0 false false steps) else (s, .wait (.settled mask) 0 0 0 0 steps)

/-- A code in the range of a 12-bit DAC. -/
def codeOk (c : Int) : Bool := decide (0 ≤ c ∧ c ≤ 4095)

/-- A level or threshold field written when it was selected: the pin settles if the code changed. -/
def State.putLevel (s : State) (on : Bool) (f : Fld) (n : Nat) (c : Int) : State :=
  if on then (s.fput f n c.toNat).settleIf n (s.fget f n != c.toNat) else s

/-- The levels that PIN_LEVELS carries, as DAC codes: VIL, VIH, VTT, VOL and VOH, and the hysteresis (R68, R72, R73, R504). -/
structure LevelCodes where
  vil : Int
  vih : Int
  vtt : Int
  vol : Int
  voh : Int
  hyst : Nat
  deriving DecidableEq, Repr

/-- The codes of a PIN_LEVELS packet. -/
def levelCodes (k : Packet) : LevelCodes :=
  ⟨dacCode (s16 k 8) 300 1900, dacCode (s16 k 10) 300 1900, dacCode (s16 k 12) 300 1900, dacCode (s16 k 14) 400 2100,
    dacCode (s16 k 16) 400 2100, (u8 k 18 + 1) / 2⟩

/-- The selected groups of a PIN_LEVELS packet are in range (R68, R72, R73). -/
def levelsGood (k : Packet) : Bool :=
  let c := levelCodes k
  (!bitAt (u8 k 19) 0 || (codeOk c.vil && codeOk c.vih && decide (c.vil + 216 ≤ c.vih))) && (!bitAt (u8 k 19) 1 || codeOk c.vtt) &&
    (!bitAt (u8 k 19) 2 || (codeOk c.vol && codeOk c.voh && decide (c.vol ≤ c.voh) && decide (u8 k 18 ≤ 50)))

/-- One pin's selected levels written: drive levels, VTT, thresholds with hysteresis. -/
def State.putLevels (s : State) (k : Packet) (n : Nat) : State :=
  let c := levelCodes k
  let s := (s.putLevel (bitAt (u8 k 19) 0) fPIN_DRV_LVL_vil n c.vil).putLevel (bitAt (u8 k 19) 0) fPIN_DRV_LVL_vih n c.vih
  let s := s.putLevel (bitAt (u8 k 19) 1) fPIN_VTT_vtt n c.vtt
  let s := (s.putLevel (bitAt (u8 k 19) 2) fPIN_CMP_LVL_vol n c.vol).putLevel (bitAt (u8 k 19) 2) fPIN_CMP_LVL_voh n c.voh
  if bitAt (u8 k 19) 2 then s.fput fPIN_CMP_LVL_hyst n c.hyst else s

/-- PIN_LEVELS (R68, R69, R72, R73, R504). -/
def bodyPinLevels : CmdBody := fun k s =>
  let mask := u64 k 0
  match s.pinsRefused mask with
  | some st => fail s st
  | none =>
    if 8 ≤ u8 k 19 then fail s .paramInvalid
    else if levelsGood k = false then fail s .levelRange
    else ((pinsOf mask).foldl (fun s n => s.putLevels k n) s).afterSettling mask

/-- The selected values of a PIN_CONFIG packet exist (R63, R71, R81, R82). -/
def configGood (k : Packet) : Bool :=
  decide (u8 k 12 < 16) && (!bitAt (u8 k 12) 0 || decide (u8 k 8 < 4)) && (!bitAt (u8 k 12) 1 || decide (u8 k 9 < 2)) &&
    (!bitAt (u8 k 12) 2 || decide (u8 k 10 < 2)) && (!bitAt (u8 k 12) 3 || decide (u8 k 11 < 8))

/-- A field replaced if it was selected. -/
def State.fputIf (s : State) (on : Bool) (f : Fld) (n x : Nat) : State := if on then s.fput f n x else s

/-- One pin's selected configuration written. -/
def State.putConfig (s : State) (k : Packet) (n : Nat) : State :=
  ((((s.fputIf (bitAt (u8 k 12) 0) fPIN_CTL_idle_state n (u8 k 8)).fputIf (bitAt (u8 k 12) 1) fPIN_CTL_term_mode n (u8 k 9)).fputIf
    (bitAt (u8 k 12) 2) fPIN_CTL_ov_action n (u8 k 10)).fputIf (bitAt (u8 k 12) 3) fPIN_CTL_abus_sel n (u8 k 11)).noteAnalogue n
    (s.asksAnalogue n)

/-- PIN_CONFIG (R63, R71, R81, R82). -/
def bodyPinConfig : CmdBody := fun k s =>
  match s.pinsRefused (u64 k 0) with
  | some st => fail s st
  | none =>
    if configGood k = false then fail s .paramInvalid
    else ok ((pinsOf (u64 k 0)).foldl (fun s n => s.putConfig k n) s)

/-- A PMU's registers written in order: mode and range, force value, clamps (R76 to R79). -/
def State.putPmu (s : State) (n mode range value lo hi : Nat) : State :=
  let asked := s.asksAnalogue n
  let was := s.pmuSet n
  let path := s.fget fPIN_PMU_CTL_mode n != mode || pmuRange (s.fget fPIN_PMU_CTL_range n) != pmuRange range
  let moved := path || s.fget fPIN_PMU_FORCE_value n != value
  let s := (s.fput fPIN_PMU_CTL_mode n mode).fput fPIN_PMU_CTL_range n range
  let s := s.fput fPIN_PMU_FORCE_value n value
  let s := (s.fput fPIN_PMU_CLAMP_clamp_lo n lo).fput fPIN_PMU_CLAMP_clamp_hi n hi
  let s := if path then s.sdPmuChange n was else s
  ((s.clampCheck n).settleIf n moved).noteAnalogue n asked

/-- PIN_PMU (R76 to R80). -/
def bodyPinPmu : CmdBody := fun k s =>
  let mask := u64 k 0
  match s.pinsRefused mask with
  | some st => fail s st
  | none =>
    if 4 ≤ u8 k 8 ∨ 8 ≤ u8 k 9 then fail s .paramInvalid
    else
      let s := (pinsOf mask).foldl (fun s n => s.putPmu n (u8 k 8) (u8 k 9) (u16 k 10) (u16 k 12) (u16 k 14)) s
      s.afterSettling mask

/-- PIN_SITE (R211). -/
def bodyPinSite : CmdBody := fun k s =>
  let n := u8 k 0
  if 48 ≤ n ∨ 48 ≤ u8 k 1 then fail s .paramInvalid
  else if (s.pinJob n).isSome then fail s .pinClaimed
  else ok (s.fput fPIN_SITE_site n (u8 k 1))

/-- One pin's selected conditions cleared: fault_park, ov, clamp. -/
def State.clearPin (s : State) (which n : Nat) : State :=
  let s := (s.fputIf (bitAt which 0) fPIN_STATUS_fault_park n 0).fputIf (bitAt which 1) fPIN_STATUS_ov n 0
  if bitAt which 2 then (s.fput fPIN_STATUS_clamp n 0).clampCheck n else s

/-- PIN_CLEAR (R64, R77, R82). -/
def bodyPinClear : CmdBody := fun k s =>
  let mask := u64 k 0
  let which := u8 k 8
  match s.pinsRefused mask with
  | some st => fail s st
  | none =>
    if 8 ≤ which then fail s .paramInvalid
    else ok ((pinsOf mask).foldl (fun s n => s.clearPin which n) s)

/-! ### Events of the front end -/

/-- OVERVOLTAGE: a pin at a voltage in mV for 100 ns. Beyond -600 or +2,100 mV the detector fires, except in an unpowered or
tripped pin (R82). The comparators see the voltage (R73). -/
def State.doOvervoltage (s : State) (n : Nat) (mv : Int) : State :=
  let s := s.feelVoltage n (mv * 1000000)
  if (-600 ≤ mv ∧ mv ≤ 2100) ∨ s.pinState n = 0 ∨ s.pinState n = 7 then s
  else ((s.fput fPIN_STATUS_ov n 1).bump fPIN_OV_COUNT_count n).countFix 20

/-- The survival range of R5, in mV. -/
def survives (mv : Int) : Bool := decide (-1000 ≤ mv ∧ mv ≤ 2500)

/-- Commands that wait for pins to settle complete when every pin of theirs has. -/
def State.endSettled (s : State) : State :=
  (s.helm.running.map (·.why)).eraseDups.foldl (fun s w => match w with
    | .settled mask => if s.allSettled mask then s.endWaits w .ok else s
    | _ => s) s

/-- LEVEL_SETTLED: a pin has settled (R69, R78); after its quad's power-up it now leaves park (R66, R83). -/
def State.doLevelSettled (s : State) (n : Nat) : State :=
  ((s.setPin n { s.pin n with risen := false }).fput fPIN_STATUS_settling n 0).endSettled

/-- PMU_CLAMP: the output meets a clamp, of its current in FVMI and of its voltage in FIMV (R77). -/
def State.doPmuClamp (s : State) (n : Nat) : State :=
  let mode := s.fget fPIN_PMU_CTL_mode n
  if (mode = 1 ∨ mode = 2) ∧ s.pinState n = 6 then s.fput fPIN_STATUS_clamp n 1 else s

/-! ### Almanac commands -/

/-- Checks 1 and 2 of R502. -/
def almParams (first count : Nat) (d : Option Nat) (pins : Nat) (extra : Bool) : Option Status :=
  if count = 0 ∨ 2048 < first + count then some .almanacRange
  else if (match d with | some d => decide (d = 0 ∨ 1048576 < d) | none => false) || !extra || decide (2 ^ 48 ≤ pins) then
    some .paramInvalid
  else none

/-- The sets of a range with the masked pins of each, in ascending order. -/
def almTargets (first count pins : Nat) : List (Nat × Nat) :=
  (List.range count).flatMap (fun i => (pinsOf pins).map (fun n => (first + i, n)))

/-- A target entry of a running leg's job (R111). -/
def State.almBusy (s : State) (ts : List (Nat × Nat)) : Bool := ts.any (fun t => s.almProtected t.1 t.2)

/-- The edge that a template position gives: u in 2^-16 UI times D, in 2^-24 cycle (R108). -/
def templateEdge (u d : Nat) : Nat := u * d * 256

/-- An Almanac entry with a format byte and edges E0 to E4. -/
def templateEntry (fmt : Nat) (es : List Nat) : Nat := fmt + ((es.zipIdx).map (fun e => e.1 * 2 ^ (8 + 44 * e.2))).sum

/-- ALMANAC_TEMPLATE (R108, R502). -/
def bodyAlmanacTemplate : CmdBody := fun k s =>
  let first := u16 k 0
  let count := u16 k 2
  let pins := u64 k 8
  let d := u32 k 16
  let us := [u32 k 20, u32 k 24, u32 k 28, u32 k 32, u32 k 36]
  let es := us.map (fun u => templateEdge u d)
  match almParams first count (some d) pins (decide (u8 k 4 < 16) && us.all (fun u => decide (u < 2 ^ 22))) with
  | some st => fail s st
  | none =>
    let ts := almTargets first count pins
    if es.any (fun e => decide (2 ^ 44 ≤ e)) then fail s .timingRange
    else if s.almBusy ts then fail s .almanacBusy
    else
      (ts.foldl (fun s t => s.setAlm t.1 t.2 (templateEntry (u8 k 4) es)) s, .done .ok 0 0 false false count)

/-- ALMANAC_LOAD (R112, R502). -/
def bodyAlmanacLoad : CmdBody := fun k s =>
  let first := u16 k 10
  let count := u16 k 12
  let pins := u64 k 16
  match almParams first count none pins true with
  | some st => fail s st
  | none =>
    let ts := almTargets first count pins
    if s.almBusy ts then fail s .almanacBusy
    else match s.payload (u8 k 8) (u64 k 0) (1536 * count) with
      | (s, .bad st d) => fail s st d
      | (s, .bytes bs) =>
        let put (s : State) (t : Nat × Nat) : State :=
          s.setAlm t.1 t.2 (ofBytes ((bs.drop (1536 * (t.1 - first) + 32 * t.2)).take 32))
        (ts.foldl put s, .done .ok 0 0 false false count)

/-- ALMANAC_CHECK's walk over entries: how many fail, and the first of them (R99). -/
def State.almFailures (s : State) (d : Nat) : List (Nat × Nat) → State × List (Nat × Nat)
  | [] => (s, [])
  | t :: r =>
    let x := s.readAlm t.1 t.2
    let y := State.almFailures x.1 d r
    if x.2.2 || !almCheckOk d x.2.1 then (y.1, t :: y.2) else y

/-- ALMANAC_CHECK (R99, R502). -/
def bodyAlmanacCheck : CmdBody := fun k s =>
  match almParams (u16 k 0) (u16 k 2) (some (u32 k 4)) (u64 k 8) true with
  | some st => fail s st
  | none =>
    let r := s.almFailures (u32 k 4) (almTargets (u16 k 0) (u16 k 2) (u64 k 8))
    let r1 := match r.2 with
      | [] => 0xFFFFFFFF
      | t :: _ => t.1 + t.2 * 2 ^ 16
    okResult r.1 (r.2.length + r1 * 2 ^ 32)

/-- ALMANAC_DESKEW (R106, R502). A value that the 24-bit field cannot hold is stored as the field's nearest limit. -/
def bodyAlmanacDeskew : CmdBody := fun k s =>
  let n := u8 k 0
  let c (x : Int) : Nat := enc 24 (clampInt (-8388608) 8388607 x)
  if 48 ≤ n then fail s .paramInvalid
  else if s.pinInLeg n then fail s .almanacBusy
  else ok ((s.fput fALM_DESKEW_drv_deskew n (c (s32 k 4))).fput fALM_DESKEW_cmp_deskew n (c (s32 k 8)))

/-! ### The rows of the command table -/

/-- OVERVOLTAGE (R82). -/
def execOvervoltage (n : PinNo) (mv : Int) (s : State) : Host.Outcome State Fault Refusal :=
  if mv < -1000 ∨ 2500 < mv then .fault .pinSurvival else .next (s.doOvervoltage n.val mv)

/-- LEVEL_SETTLED (R69). -/
def execLevelSettled (n : PinNo) (s : State) : Host.Outcome State Fault Refusal := .next (s.doLevelSettled n.val)

/-- PIN_LEVELS (R504). -/
def execPinLevels (k : Packet) (s : State) : Host.Outcome State Fault Refusal := .next (s.runCommand 0x3001 bodyPinLevels k)

/-- PIN_CONFIG (R63). -/
def execPinConfig (k : Packet) (s : State) : Host.Outcome State Fault Refusal := .next (s.runCommand 0x3002 bodyPinConfig k)

/-- PIN_PMU (R76). -/
def execPinPmu (k : Packet) (s : State) : Host.Outcome State Fault Refusal := .next (s.runCommand 0x3003 bodyPinPmu k)

/-- PIN_SITE (R211). -/
def execPinSite (k : Packet) (s : State) : Host.Outcome State Fault Refusal := .next (s.runCommand 0x3004 bodyPinSite k)

/-- PIN_CLEAR (R64). -/
def execPinClear (k : Packet) (s : State) : Host.Outcome State Fault Refusal := .next (s.runCommand 0x3005 bodyPinClear k)

/-- ALMANAC_TEMPLATE (R108). -/
def execAlmanacTemplate (k : Packet) (s : State) : Host.Outcome State Fault Refusal :=
  .next (s.runCommand 0x4001 bodyAlmanacTemplate k)

/-- ALMANAC_LOAD (R112). -/
def execAlmanacLoad (k : Packet) (s : State) : Host.Outcome State Fault Refusal := .next (s.runCommand 0x4002 bodyAlmanacLoad k)

/-- ALMANAC_CHECK (R99). -/
def execAlmanacCheck (k : Packet) (s : State) : Host.Outcome State Fault Refusal := .next (s.runCommand 0x4003 bodyAlmanacCheck k)

/-- ALMANAC_DESKEW (R106). -/
def execAlmanacDeskew (k : Packet) (s : State) : Host.Outcome State Fault Refusal := .next (s.runCommand 0x4004 bodyAlmanacDeskew k)

/-- PMU_CLAMP (R77). -/
def execPmuClamp (n : PinNo) (s : State) : Host.Outcome State Fault Refusal := .next (s.doPmuClamp n.val)

end Sys2Proof.Machine
end

