-- ==== Sys2Proof/Machine/Meridians.lean ====
section
/-! DEFINITION. The meridians (chapter 02): configuration by registers and commands, states and their events, slews and steps, and
the class 0x8 commands (R31 to R51); milestones posted and cancelled, and the actions that drive pins of the package or post to
the Depot (R52 to R57, R376, R500). -/

namespace Sys2Proof.Machine

/-! ### Use (R48) -/

/-- A meridian is in use. -/
def State.merInUse (s : State) (m : Nat) : Bool :=
  s.acceptedJobs.any (fun e => e.2.meridian == m) || s.ms.pending.any (fun x => x.mer == m) ||
  (List.range 52).any (fun c => s.sxtMer c == m && s.sxtScheduled c) ||
  (List.range 8).any (fun e => (s.ddsEng e).st != .idle && s.ddsMer e == m) || (m == 7 && s.mustered)

/-! ### Configurations (R31, R38 to R40) -/

/-- The configuration that a meridian's registers hold; kind 3 is none (R38). -/
def State.storedCfg (s : State) (m : Nat) : MerCfg :=
  { kind := match s.fget fMER_CTL_kind m with | 0 => .localM | 1 => .tracked | _ => .wall,
    fword := s.fget fMER_FWORD_fword m, source := s.fget fMER_TRACK_source m, pin := s.fget fMER_TRACK_pin m,
    falling := s.fbit fMER_TRACK_polarity m, m := s.fget fMER_TRACK_mult_m m + 1, n := s.fget fMER_TRACK_div_n m + 1,
    bw := s.fget fMER_TRACK_bw m, fminKhz := s.fget fMER_FLIM_fmin_khz m, fmaxKhz := s.fget fMER_FLIM_fmax_khz m }

/-- A frequency word in the range of R38. -/
def fwordOk (w : Nat) : Bool := decide (0x418938 ≤ w ∧ w ≤ 0xF000000000)

/-- The tracking bandwidth in kHz (R40). -/
def bwKhz (bw : Nat) : Nat := 10 ^ (bw + 1)

/-- A tracked configuration within R39 and R40, by the input range that its limits imply. -/
def MerCfg.trackOk (c : MerCfg) : Bool :=
  decide (c.source ≤ 4 ∧ (c.source = 4 → c.pin < 48) ∧ 1 ≤ c.m ∧ c.m ≤ 32 ∧ 1 ≤ c.n ∧ c.n ≤ 32 ∧ c.bw < 4 ∧
    100 ≤ c.fminKhz ∧ c.fminKhz ≤ c.fmaxKhz ∧ c.fmaxKhz ≤ 24000000 ∧ 1000 * c.m ≤ c.fminKhz * c.n ∧
    c.fmaxKhz * c.n ≤ (if c.source = 4 then 12000000 else 16000000) * c.m ∧ bwKhz c.bw * 20 * c.m ≤ c.fminKhz * c.n)

/-- A kind that a meridian can take (R31). -/
def kindAllowed (m : Nat) (k : MerKind) : Bool :=
  if m = 0 then k == .localM else if m = 7 then k == .wall else k != .wall

/-- A configuration that meets R31 and R38 to R40. -/
def MerCfg.valid (c : MerCfg) (m : Nat) : Bool :=
  kindAllowed m c.kind && (match c.kind with | .localM => fwordOk c.fword | .tracked => c.trackOk | .wall => true)

/-- The rate of a local or wall meridian, in frequency-word units. -/
def MerCfg.ownRate (c : MerCfg) : Nat := if c.kind = .wall then 0x0A00000000 else c.fword

/-- The frequency that a local meridian shows in MER_FLIM, in kHz (assumption 3 for a frequency that is no whole number). -/
def shownKhz (w : Nat) : Nat :=
  let n := w * 100000
  n / 2 ^ 32 + (if n % 2 ^ 32 ≠ 0 ∧ Config.fmaxRoundsUp w then 1 else 0)

/-- A valid configuration takes effect (R38). A running meridian goes on at its reading: a local one at the new rate, one whose
tracked configuration changed acquires anew (assumption 31). -/
def State.takeCfg (s : State) (m : Nat) (c : MerCfg) : State :=
  let x := s.mer m
  let s := if c.kind = .localM then s.fput fMER_FLIM_fmax_khz m (shownKhz c.fword) else s
  let c := if c.kind = .localM then { c with fmaxKhz := shownKhz c.fword } else c
  if x.st = .off then s.setMer m { x with cfg := c }
  else if c.kind = .tracked then
    if x.cfg = c then s else s.setMer m { x.reanchor s.now with cfg := c, st := .acquiring, rate := 0, freqPpb := 0, phasePs := 0 }
  else s.setMer m { x.reanchor s.now with cfg := c, st := .running, rate := c.ownRate, rateDiv := 1 }

/-- A meridian starts: its odometer stands at the start value; a local or wall one runs, a tracked one acquires (R34, R41). -/
def State.merStart (s : State) (m : Nat) : State :=
  let c := (s.mer m).cfg
  let st : MerState := if c.kind = .tracked then .acquiring else .running
  let r := s.fget fMER_START_cycles m * fracOne
  (s.setMer m { st := st, cfg := c, anchorT := s.now, anchorR := r, wraps := (s.mer m).wraps, rate := if c.kind = .tracked then 0 else c.ownRate }).fput
    fMER_CTL_enable m 1

/-- A meridian is disabled: it stands, its slew terms clear, its milestones are cancelled and reported, DDS engines running on it
stop (R49, R50, R57). -/
def State.merStop (s : State) (m : Nat) : State :=
  let x := (s.mer m).reanchor s.now
  let s := (s.setMer m { x with st := .off, rate := 0, freqPpb := 0, phasePs := 0 }).fput fMER_CTL_enable m 0
  (s.msDropAll (fun y => y.mer == m) .meridianOff).ddsMerOff m

/-- The register that a write names. -/
def merRegId : MerReg → RegId
  | .ctl => .MER_CTL | .fword => .MER_FWORD | .track => .MER_TRACK | .flim => .MER_FLIM

/-- What a write stores: reserved bits are ignored, MER0's control and frequency word and MER7's kind stay (MER tables). -/
def State.merStored (s : State) (m : Nat) (r : MerReg) (v : Nat) : Nat :=
  let old := (s.rd (merRegId r) m).toNat
  match r with
  | .ctl => if m = 0 then setBits old 2 1 (bits v 2 1) else if m = 7 then setBits old 0 0 v else bits v 2 0
  | .fword => if m = 0 then old else bits v 47 0
  | .track => bits v 21 0
  | .flim => bits v 63 0

/-- MER_CTL_WRITE: a write to a meridian's control registers (R38, R50). On a meridian in use it is discarded; else it is stored,
and takes effect if the registers form a valid configuration. -/
def State.doMerCtlWrite (s : State) (m : Nat) (r : MerReg) (v : Nat) : State :=
  if s.merInUse m then s.rtWriteDrop
  else
    let was := (s.mer m).st != .off
    let s := s.wr (merRegId r) m 0 (BitVec.ofNat 64 (s.merStored m r v))
    let good := decide (s.fget fMER_CTL_kind m < 3) && (s.storedCfg m).valid m
    let s := s.fput fMER_STATUS_cfg_err m (b2n (!good))
    let s := if good then s.takeCfg m (s.storedCfg m) else s
    match s.fbit fMER_CTL_enable m, was with
    | true, false => if good then s.merStart m else s.fput fMER_CTL_enable m 0
    | false, true => s.merStop m
    | _, _ => s

/-- MER_SNAP: the selected odometers are latched at one instant (R36, R46). -/
def State.doMerSnap (s : State) (mask : Nat) : State :=
  let s := (maskBits 8 mask).foldl (fun s m =>
    (s.fput fMER_ODO_CYC_cycles m (s.odo m / fracOne)).fput fMER_ODO_FRAC_fraction m (s.odo m % fracOne)) s
  if bitAt mask 7 then
    ((s.fput fMER_WALL_SEC_seconds 0 s.wallSec).fput fMER_WALL_SUB_ns 0 s.wallSub).fput fMER_WALL_SUB_frac 0
      (s.odo 7 % fracOne / 256)
  else s

/-! ### Events -/

/-- A meridian at a tracked rate f_in × M / N, from an input frequency in frequency-word units (R39). -/
def Meridian.atInput (x : Meridian) (fin : Nat) : Meridian := { x with rate := fin * x.cfg.m, rateDiv := x.cfg.n }

/-- A tracked meridian's input shows its edges: a pin's comparator must be on (R75, R84). -/
def State.inputSeen (s : State) (c : MerCfg) : Bool := c.source != 4 || s.cmpOn c.pin

/-- MERIDIAN_LOCK: an acquiring tracked meridian reaches running and counts at f_in × M / N from its standing reading (R39, R41,
R45); the rate of a running one moves with its input, so that the edges already placed stretch or shrink with it (R105). -/
def State.doMeridianLock (s : State) (m fin : Nat) : State :=
  let x := s.mer m
  if x.cfg.kind = .tracked ∧ s.inputSeen x.cfg ∧ fin ≠ 0 then
    if x.st = .acquiring then s.moveMer m ({ x with st := .running, anchorT := s.now }.atInput fin)
    else if x.st = .running then s.moveMer m ((x.reanchor s.now).atInput fin)
    else s
  else s

/-- BEARING_LOST: a running tracked meridian holds its reading; legs on it end (R42, R43). -/
def State.doBearingLost (s : State) (m : Nat) : State :=
  let x := s.mer m
  if x.st = .running ∧ x.cfg.kind = .tracked then
    let s := s.setMer m { x.reanchor s.now with st := .held, rate := 0 }
    -- no sample of a measurement spans the hold (R251)
    let s := ((List.range 52).filter (fun c => s.sxtMer c == m)).foldl (fun s c => s.sxtLost c (shiftTime s.now (-s.sxtSkew c)) false) s
    let s := ((s.fput fMER_STATUS_lost m 1).bump fMER_LOST_COUNT_count m).countFix 21
    let waits := (List.range 16).filter (fun p => (s.pjob p).meridian == m && (s.pilot p).leg.slip.isSome && (s.pilot p).st == .awaiting)
    let s := waits.foldl (fun s p => s.fput fMER_SLIP_STAT_outcome p 3) s
    (s.killOnMer m 5).killStartsOnMer m 5
  else s

/-- EDGES_RETURN: a held meridian acquires again (R45). Edges that return to a running one, within the 64 expected cycles, make
it pull back to its input: it counts at another rate for a time, given as the input frequency that the rate stands for, until a
MERIDIAN_LOCK gives the input's own; no step is made (R42). -/
def State.doEdgesReturn (s : State) (m fin : Nat) : State :=
  let x := s.mer m
  if s.inputSeen x.cfg = false then s
  else if x.st = .held then s.setMer m { x with st := .acquiring }
  else if x.st = .running ∧ x.cfg.kind = .tracked ∧ fin ≠ 0 then s.moveMer m ((x.reanchor s.now).atInput fin)
  else s

/-- The rate lies outside the declared limits (R44). -/
def Meridian.outside (x : Meridian) : Bool :=
  decide (x.rate * 100000 < x.cfg.fminKhz * 2 ^ 32 * x.rateDiv ∨ x.cfg.fmaxKhz * 2 ^ 32 * x.rateDiv < x.rate * 100000)

/-- FREQ_RANGE_EXIT: a running tracked meridian has counted outside its limits for more than 64 input cycles and goes on; legs that
run on it end (R44). A MERIDIAN_LOCK may bring the rate back inside. An input whose comparator is off shows no cycles (R75, R84). -/
def State.doFreqRangeExit (s : State) (m fin : Nat) : State :=
  let x := (s.mer m).atInput fin
  if x.st = .running ∧ x.cfg.kind = .tracked ∧ s.inputSeen x.cfg ∧ x.outside then
    ((s.moveMer m (((s.mer m).reanchor s.now).atInput fin)).fput fMER_STATUS_range m 1).killOnMer m 6
  else s

/-- PHASE_OFFSET_REMOVED: time reaches the end of a phase term (R49). -/
def State.doPhaseOffsetRemoved (s : State) (m : Nat) : State :=
  let x := s.mer m
  if x.st = .running ∧ x.phasePs ≠ 0 then
    let s := s.advance (x.anchorT + x.phaseEnd)
    s.setMer m { x.reanchor s.now with phasePs := 0 }
  else s

/-! ### Commands -/

/-- The kind that a MERIDIAN_CONFIG packet names. -/
def cfgKind (k : Packet) : MerKind := match u8 k 1 with | 0 => .localM | 1 => .tracked | _ => .wall

/-- The configuration that a MERIDIAN_CONFIG packet names. -/
def packetCfg (k : Packet) : MerCfg :=
  { kind := cfgKind k, fword := u64 k 8, source := u8 k 2, pin := u8 k 3, falling := u8 k 4 == 1, m := u8 k 5, n := u8 k 6,
    bw := u8 k 7, fminKhz := u32 k 16, fmaxKhz := u32 k 20 }

/-- The packet's configuration in the meridian's registers. -/
def State.storeCfg (s : State) (k : Packet) : State :=
  let m := u8 k 0
  let c := packetCfg k
  let s := s.fput fMER_CTL_kind m (u8 k 1)
  match c.kind with
  | .localM => s.fput fMER_FWORD_fword m c.fword
  | .tracked =>
    let track := pack [(0, 3, c.source), (3, 6, c.pin), (9, 1, u8 k 4), (10, 5, c.m - 1), (15, 5, c.n - 1), (20, 2, c.bw)]
    ((s.wr .MER_TRACK m 0 (BitVec.ofNat 64 track)).fput fMER_FLIM_fmin_khz m c.fminKhz).fput fMER_FLIM_fmax_khz m c.fmaxKhz
  | .wall => s

/-- MERIDIAN_CONFIG (R31, R38 to R40, R50). Of several refusals that apply, kind comes before busy and busy before range; MER0 with
another frequency word than its fixed one is MERIDIAN_RANGE (DESIGN CHOICE both, assumptions 79 and 80: R38 and R50 name neither). -/
def bodyMeridianConfig : CmdBody := fun k s =>
  let m := u8 k 0
  if 8 ≤ m ∨ 3 ≤ u8 k 1 ∨ 2 ≤ u8 k 4 then fail s .paramInvalid
  else if kindAllowed m (cfgKind k) = false then fail s .meridianKind
  else if s.merInUse m then fail s .meridianBusy
  else if (packetCfg k).valid m = false ∨ (m = 0 ∧ u64 k 8 ≠ 0x1000000000) then fail s .meridianRange
  else
    let s := s.storeCfg k
    ok ((s.fput fMER_STATUS_cfg_err m 0).takeCfg m (s.storedCfg m))

/-- A start value of 64 bits takes the place of one that MERIDIAN_SET gave with more seconds (R46). -/
def State.forgetWraps (s : State) (m : Nat) : State := if (s.mer m).st = .off then s.setMer m { s.mer m with wraps := 0 } else s

/-- MERIDIAN_ENABLE (R38, R50). A start value of 0 leaves MER_START as it stands (assumption 32). A stored kind that the meridian
cannot take answers MERIDIAN_RANGE: the spec names MERIDIAN_KIND for MERIDIAN_CONFIG alone (DESIGN CHOICE, assumption 80). -/
def bodyMeridianEnable : CmdBody := fun k s =>
  let m := u8 k 0
  if 8 ≤ m ∨ 2 ≤ u8 k 1 then fail s .paramInvalid
  else if u8 k 1 = 1 then
    if (s.mer m).st ≠ .off then ok s
    else if s.fbit fMER_STATUS_cfg_err m ∨ (s.storedCfg m).valid m = false then fail s .meridianRange
    else
      let s := if u64 k 8 = 0 then s else (s.forgetWraps m).fput fMER_START_cycles m (u64 k 8)
      ok ((s.takeCfg m (s.storedCfg m)).merStart m)
  else if m = 0 then fail s .paramInvalid
  else if s.acceptedJobs.any (fun e => e.2.meridian == m) ∨ (m = 7 ∧ s.mustered) then fail s .meridianBusy
  else if (s.mer m).st = .off then ok s
  else ok (s.merStop m)

/-- An odometer stepped to a reading: what lies beyond its 64 bits of cycles goes on in MER7's seconds (R46). -/
def State.merStep (s : State) (m r : Nat) : State :=
  s.setMer m { s.mer m with anchorT := s.now, anchorR := r % 2 ^ 88, anchorRem := 0, wraps := r / 2 ^ 88, phasePs := (s.mer m).phaseLeft s.now }

/-- Wall time as it stands after a step by a signed distance in 2^-24 ns; its seconds are 64 bits (R46). -/
def State.wallAfter (s : State) (d : Int) : Nat :=
  (((s.wallTime : Int) + d) % ((2 ^ 64 * 1000000000 * fracOne : Nat) : Int)).toNat

/-- The cycles that a MERIDIAN_SET packet names: seconds and nanoseconds on MER7 (R46, R50). -/
def setCycles (k : Packet) : Nat := if u8 k 0 = 7 then u64 k 8 * 1000000000 + u32 k 16 else u64 k 8

/-- The fraction that a MERIDIAN_SET packet names, in 2^-24 cycles; only MER7 has one. -/
def setFrac (k : Packet) : Nat := if u8 k 0 = 7 then u16 k 20 * 256 else 0

/-- MERIDIAN_SET (R46, R50). On a meridian that is off it gives the start value. -/
def bodyMeridianSet : CmdBody := fun k s =>
  let m := u8 k 0
  if 8 ≤ m ∨ (m = 7 ∧ 1000000000 ≤ u32 k 16) then fail s .paramInvalid
  else if s.merInUse m then fail s .meridianBusy
  else if (s.mer m).st = .off then
    ok ((s.setMer m { s.mer m with wraps := setCycles k / 2 ^ 64 }).fput fMER_START_cycles m (setCycles k))
  else ok (s.merStep m (setCycles k * fracOne + setFrac k))

/-- The frequency term that a request gives (R49). -/
def clampPpb (f : Int) : Int := clampInt (-200000) 200000 f

/-- A slew replaces both terms in force (R49). -/
def State.merSlew (s : State) (m : Nat) (ppb ps : Int) : State :=
  let x := (s.mer m).reanchor s.now
  s.moveMer m { x with freqPpb := clampPpb ppb, phasePs := ps, slews := x.slews + b2n (ppb != 0 || ps != 0) }

/-- MERIDIAN_ADJUST (R49, R51). A tracked meridian that is off answers MERIDIAN_OFF: both rules name a status for it, and the state is
looked at first (DESIGN CHOICE, assumption 88). -/
def bodyMeridianAdjust : CmdBody := fun k s =>
  let m := u8 k 0
  let f := s32 k 4
  if 8 ≤ m then fail s .paramInvalid
  else if (s.mer m).st = .off then fail s .meridianOff
  else if (s.mer m).cfg.kind = .tracked then fail s .meridianKind
  else
    let s := s.merSlew m f (s64 k 8)
    (s, .done (if clampPpb f = f then .ok else .slewClamped) 0 0 false false 1)

/-! ### Milestones -/

/-- A milestone's target and arguments in range for its action (R376). -/
def msTargetOk (action target arg : Nat) : Bool :=
  match action with
  | 2 => decide (target < 8 ∧ arg < 4096)
  | 3 | 4 | 5 => decide (target < 8)
  | 6 => decide (target < 52 ∧ arg < 2)
  | 7 => decide (target < 52)
  | 8 => decide (target < 4)
  | 10 => decide (target < 4 ∧ arg < 16)
  | 11 => decide (arg < 2)
  | 12 => decide (target < 8 ∧ arg < 2)
  | 13 => decide (1 ≤ target ∧ target < 16384)
  | _ => true

/-- How far before its target, on the named meridian, a leg start's window opens: W × D cycles of the job's meridian as cycles of the
named one, both at the checks' frequency (R54, R58; assumption 61). -/
def State.reachOn (s : State) (named own reach : Nat) : Nat :=
  if named = own then reach else ceilDiv (reach * (s.mer named).maxWord) (s.mer own).maxWord

/-- The first leg entry of a job that has not yet been handed to its Pilot, as its route has it. -/
def State.firstEntry (s : State) (j : Nat) : State × Nat :=
  let job := s.job j
  match s.dvaRead job.pilot (portCR (job.pilot / 4)) job.aspace job.route 512 with
  | (s, .done h) => match s.dvaRead job.pilot (portCR (job.pilot / 4)) job.aspace (job.route + hLegOff (ofBytes h)) 32 with
    | (s, .done e) => (s, ofBytes e)
    | (s, _) => (s, 0)
  | (s, _) => (s, 0)

/-- A leg start posted for a job: the reach of the window of the leg it is for, and whether its offset is too short (R54, R61): the leg
that the Pilot awaits, or leg 0 of a job that waits for its Pilot. Which leg a Pilot that runs or is between legs will await is not known
before its LEG_START: its window counts from the target (DESIGN CHOICE, assumption 61). -/
def State.postReach (s : State) (j m : Nat) : State × Nat × Bool :=
  let p := (s.job j).pilot
  let r := if (s.pilot p).job = j ∧ (s.pilot p).st = .awaiting then (s, (s.pilot p).awaitEntry)
    else if (s.job j).st = .awaiting then s.firstEntry j
    else (s, 0)
  (r.1, r.1.reachOn m (s.job j).meridian (legReach r.2), r.1.syncShort (s.job j).meridian r.2)

/-- The milestone of a MILESTONE_POST packet committed for a target; a start arms its engine. A late one completes when it has fired,
since its completion carries the reading at which it did (R52, R54, R265). -/
def State.postMilestone (s : State) (k : Packet) (target before : Nat) : State × CmdEnd :=
  match s.msCommit (u8 k 0) (u8 k 1) target (u8 k 2) (u16 k 6) (u64 k 8 * fracOne + u32 k 16) before (u32 k 20) (u64 k 24) (jobOf k) with
  | (s, .error st) => fail s st
  | (s, .ok (id, late)) =>
    (if u8 k 1 = 4 then s.setDds target { s.ddsEng target with st := .armed } else s,
      if late then .wait (.milestone id) 0 id 0 0 1 else .done .ok 0 id false false 1)

/-- MILESTONE_POST (R52 to R55, R265, R280, R298, R376, R431). Of several refusals that apply, CONVOY_REFUSED, SYNC_OFFSET and
MERIDIAN_KIND come before MILESTONE_FULL, that before MERIDIAN_OFF, and that before MILESTONE_PAST (DESIGN CHOICE, assumption 89). -/
def bodyMilestonePost : CmdBody := fun k s =>
  let m := u8 k 0
  let a := u8 k 1
  let target := u16 k 4
  let j := jobOf k
  if 8 ≤ m ∨ a = 0 ∨ 13 < a ∨ 2 ≤ u8 k 2 ∨ 16384 ≤ u16 k 6 ∨ 2 ^ 24 ≤ u32 k 16 then fail s .paramInvalid
  else if a = 1 then
    if 256 ≤ j ∨ (s.job j).accepted = false then fail s .jobNotRunning
    else if target ≠ (s.job j).pilot then fail s .paramInvalid
    else if m = 7 ∧ s.fget fMER_WALL_CTL_discipline = 2 ∧ s.mustered = false then fail s .convoyRefused
    else match s.postReach j m with
      | (s, _, true) => fail s .syncOffset
      | (s, before, false) => s.postMilestone k j before
  else if msTargetOk a target (u32 k 20) = false then fail s .paramInvalid
  else if m = 7 ∧ s.fget fMER_WALL_CTL_discipline = 2 ∧ s.mustered = false then fail s .convoyRefused
  else if (a = 8 ∨ a = 9) ∧ m ≠ 0 then fail s .meridianKind
  else if a = 4 then
    match s.ddsStartCheck target (s.ddsMer target) (s.fget fDDS_ENG_CTL_first target) with
    | .ok => s.postMilestone k target 0
    | st => fail s st
  else s.postMilestone k target 0

/-- MILESTONE_CANCEL (R56): a cancelled DDS stop ends the command that waits for it. -/
def bodyMilestoneCancel : CmdBody := fun k s =>
  let id := u32 k 0
  match s.ms.pending.find? (fun x => x.id == id) with
  | some x => ok (((s.msRemove id).ddsUnarm x).endWaits (.milestone id) .aborted)
  | none => if s.ms.fired.contains id then fail s .alreadyFired else fail s .milestoneUnknown

/-- MS_MSYNC_OUT: an edge at MSYNC_OUT at the target (action 11). The argument's code is not given: 0 is a rising edge, 1 a falling one
(DESIGN CHOICE, assumption 90). -/
def State.doMsMsyncOut (s : State) (id : Nat) : State :=
  match s.msFire id 11 with
  | none => s
  | some (s, f) =>
    ({ s with bnc := { s.bnc with msyncOut := s.bnc.msyncOut ++ [(f.ms.arg == 0, f.time)] } }).msDone f .ok

/-- MS_GPIO: a GPIO takes the level of the argument (action 12). -/
def State.doMsGpio (s : State) (id : Nat) : State :=
  match s.msFire id 12 with
  | none => s
  | some (s, f) => ({ s with bnc := { s.bnc with gpio := setBit s.bnc.gpio f.ms.target (f.ms.arg == 1) } }).msDone f .ok

/-- MS_DEPOT_POST: an element of the report's layout goes to the target queue (action 13, R500). -/
def State.doMsDepotPost (s : State) (id : Nat) : State :=
  match s.msFire id 13 with
  | none => s
  | some (s, f) =>
    (s.reportCtl f.ms.target 32 (msElement f.ms .ok f.at88 f.ms.foundLate)).msDone f .ok

/-! ### The rows of the command table -/

/-- MS_MSYNC_OUT (R53). -/
def execMsMsyncOut (id : Nat) (s : State) : Host.Outcome State Fault Refusal := .next (s.doMsMsyncOut id)

/-- MS_GPIO (R53). -/
def execMsGpio (id : Nat) (s : State) : Host.Outcome State Fault Refusal := .next (s.doMsGpio id)

/-- MS_DEPOT_POST (R500). -/
def execMsDepotPost (id : Nat) (s : State) : Host.Outcome State Fault Refusal := .next (s.doMsDepotPost id)

/-- MERIDIAN_LOCK (R41). -/
def execMeridianLock (m : MerNo) (fin : BitVec 48) (s : State) : Host.Outcome State Fault Refusal :=
  .next (s.doMeridianLock m.val fin.toNat)

/-- BEARING_LOST (R42). -/
def execBearingLost (m : MerNo) (s : State) : Host.Outcome State Fault Refusal := .next (s.doBearingLost m.val)

/-- FREQ_RANGE_EXIT (R44). -/
def execFreqRangeExit (m : MerNo) (fin : BitVec 48) (s : State) : Host.Outcome State Fault Refusal :=
  .next (s.doFreqRangeExit m.val fin.toNat)

/-- MERIDIAN_CONFIG (R38). -/
def execMeridianConfig (k : Packet) (s : State) : Host.Outcome State Fault Refusal :=
  .next (s.runCommand 0x8001 bodyMeridianConfig k)

/-- MERIDIAN_ENABLE (R50). -/
def execMeridianEnable (k : Packet) (s : State) : Host.Outcome State Fault Refusal :=
  .next (s.runCommand 0x8002 bodyMeridianEnable k)

/-- MERIDIAN_SET (R50). -/
def execMeridianSet (k : Packet) (s : State) : Host.Outcome State Fault Refusal := .next (s.runCommand 0x8003 bodyMeridianSet k)

/-- MERIDIAN_ADJUST (R49). -/
def execMeridianAdjust (k : Packet) (s : State) : Host.Outcome State Fault Refusal :=
  .next (s.runCommand 0x8004 bodyMeridianAdjust k)

/-- MILESTONE_POST (R52). -/
def execMilestonePost (k : Packet) (s : State) : Host.Outcome State Fault Refusal := .next (s.runCommand 0x8005 bodyMilestonePost k)

/-- MILESTONE_CANCEL (R56). -/
def execMilestoneCancel (k : Packet) (s : State) : Host.Outcome State Fault Refusal :=
  .next (s.runCommand 0x8006 bodyMilestoneCancel k)

/-- EDGES_RETURN (R45). -/
def execEdgesReturn (m : MerInput) (s : State) : Host.Outcome State Fault Refusal :=
  .next (s.doEdgesReturn m.mer.val m.fin.toNat)

/-- PHASE_OFFSET_REMOVED (R49). -/
def execPhaseOffsetRemoved (m : MerNo) (s : State) : Host.Outcome State Fault Refusal := .next (s.doPhaseOffsetRemoved m.val)

end Sys2Proof.Machine
end

