-- ==== Sys2Proof/Machine/WaylinePort.lean ====
section
/-! DEFINITION. A Wayline port: locks, training and the back-channel, electrical idle, flits in and out with their sequence, credits and
replay (R401 to R419); global halts, which every convoy port carries (R425); and what a lost link and a convoy break do (R420,
R422, R434). -/

namespace Sys2Proof.Machine

/-! ### Global halts (R425) -/

/-- A Pilot that a halt selects: a running leg ends with end code 8; jobs that run none end as under HALT_JOB (R375, R425). -/
def State.haltPilot (s : State) (p : Nat) : State :=
  let others := (s.acceptedJobs.filter (fun e => e.2.pilot == p && !s.jobInLeg e.1)).map (·.1)
  let x := s.pilot p
  let s := if s.legRuns p then s.killLeg p 8 0 else if x.st = .awaiting ∧ x.leg.slip.isSome then s.killStart p 8 else s
  others.foldl (fun s j => if (s.job j).accepted then (s.cancelLegStarts j).endOutside j else s) s

/-- A halt reaches this member: every Pilot of halt_pilots (R425). -/
def State.haltHere (s : State) : State := (maskBits 16 (s.fget fWLN_CONV_CTL_halt_pilots)).foldl State.haltPilot s

/-- The origin byte of a halt: the member number, or the low byte of the die identifier (R414). -/
def State.haltOrigin (s : State) : Nat := if s.mustered then s.fget fWLN_STATUS_self else (s.rd .DEV_UID).toNat % 256

/-- A halt's id and its block content: sequence and origin (R414). -/
def haltContent (seq origin : Nat) : Nat := seq % 256 * 2 ^ 8 + origin % 256 * 2 ^ 16

/-- An id joins the last 16 seen (R425). -/
def State.seeHalt (s : State) (id : Nat) : State :=
  { s with wln := { s.wln with halts := (id :: s.wln.halts).take 16, haltDue := false } }

/-- A halt originated here (R425). -/
def State.originateHalt (s : State) : State :=
  let id := haltContent s.wln.haltSeq s.haltOrigin
  let s := { s with wln := { s.wln with haltSeq := (s.wln.haltSeq + 1) % 256 } }.seeHalt id
  (s.convoyPorts.foldl (fun s p => s.sendBlock p 0x10 id) s).haltHere

/-- The root's aggregate has risen with agg_halt set (R428). -/
def State.haltIfDue (s : State) : State := if s.wln.haltDue then s.originateHalt else s

/-- A HALT block is received: the first copy is forwarded and acts here (R425). -/
def State.doHalt (s : State) (p seq origin : Nat) : State :=
  let id := haltContent seq origin
  if s.linkUp p = false ∨ s.wln.halts.contains id then s
  else (((s.seeHalt id).convoyPorts.filter (· ≠ p)).foldl (fun s q => s.sendBlock q 0x10 id) (s.seeHalt id)).haltHere

/-- WLN_HALT.go (R425). -/
def State.doWlnHalt (s : State) : State := s.originateHalt

/-- ABORT_ALL (R374, R425). -/
def bodyAbortAll : CmdBody := fun _ s =>
  let s := s.abortAll
  ok (if s.fbit fWLN_CONV_CTL_abort_halt then s.originateHalt else s)

/-! ### MUSTER flits and convoy breaks (R433, R434) -/

/-- A MUSTER flit to a link partner. -/
def State.sendMuster (s : State) (p : Nat) (last : Bool) (m : MusterMsg) : State :=
  let own := s.ownNode
  own.1.sendFlit p { mkFlit 9 2 (0x100 + p) own.2 0 0 last [] with muster := some m }

/-- The lowest member other than this one that a port does not lead to; this member when there is none (R434). -/
def State.lostWithout (s : State) (p : Nat) : Nat :=
  let self := s.fget fWLN_STATUS_self
  ((List.range 256).find? (fun n => n == self || (s.fget fWLN_ROUTE_port n < 4 && s.fget fWLN_ROUTE_port n != p))).getD self

/-- The lowest member that a port leads to. -/
def State.lostBehind (s : State) (p : Nat) : Nat := ((List.range 256).find? (fun n => s.fget fWLN_ROUTE_port n == p)).getD 0

/-- The convoy breaks at this member (R434): notices on the tree, state refused with field 18 and a member, MER7's milestones under
discipline 2 cancelled. `notice` is what each tree port is told. -/
def State.convoyBreak (s : State) (lost : Nat) (notice : Nat → Option Nat) : State :=
  if s.mustered = false then s
  else
    let halt := s.fbit fWLN_CONV_CTL_halt_on_break
    let convoy := s.wln.convoy
    let s := s.treePorts.foldl (fun s p => match notice p with
      | some m => s.sendMuster p true (.notice convoy m)
      | none => s) s
    let s := ((s.fput fWLN_STATUS_state 0 3).fput fWLN_CONV_field 0 18).fput fWLN_CONV_member 0 lost
    let s := if s.fget fMER_WALL_CTL_discipline = 2 then s.msDropAll (fun x => x.mer == 7) .convoyRefused else s
    let s := s.logWrite 0x0C 0xFF lost convoy
    if halt then s.originateHalt else s

/-- A port's link is lost: its unacknowledged flits are gone and their services report it (R417, R420, R422); a tree link breaks the
convoy (R434). -/
def State.linkLost (s : State) (p : Nat) : State :=
  let tree := s.treePorts.contains p
  let mine := s.wln.msgs.filter (fun m => m.port == p)
  let s := { s with wln := { s.wln with msgs := s.wln.msgs.filter (fun m => m.port != p) } }
  let s := s.setWport p { s.wport p with waiting := [], replay := [], blocks := [], parts := [], timeEx := none, hello := none }
  let s : State := mine.foldl (fun s m => s.endWaits (.message m.seq) .linkDown) s
  let s := s.bulkLost p
  if tree ∧ s.mustered then s.convoyBreak (s.lostBehind p) (fun q => if q = p then none else some (s.lostBehind p)) else s

/-! ### Block lock (R406) -/

/-- A lane's block lock. -/
def State.setLock (s : State) (p lane : Nat) (b : Bool) : State :=
  s.fput fWLN_P_STAT_lock p (setBit (s.fget fWLN_P_STAT_lock p) lane b)

/-- A lane finds its comma in three consecutive frames (R406). A port that is down or failed receives nothing. -/
def State.doBlockLock (s : State) (p lane : Nat) : State :=
  if s.wstate p = wDown ∨ s.wstate p = wFailed then s else s.setLock p lane true

/-- The port retrains: the same sequence from the taps in force, with buffer and seq kept (R412, R417). -/
def State.retrain (s : State) (p : Nat) : State :=
  let s := (s.setWstate p wRetraining).bump fWLN_P_ERR_retrains p
  s.setWport p { s.wport p with ready := 0, echoed := 0, trainBy := s.now + unitsPerSecond / 10, resends := 0 }

/-- Four expected commas are missing: a port that is up retrains (R406). -/
def State.doLockLoss (s : State) (p lane : Nat) : State :=
  let s := s.setLock p lane false
  if s.linkUp p then s.retrain p else s

/-! ### Training (R409 to R412) -/

/-- The taps of a lane as four signed codes: c-2, c-1, c0, c+1. -/
def State.taps (s : State) (p lane : Nat) : List Int :=
  let v := s.fget (if lane = 0 then fWLN_P_TAPS_lane0 else fWLN_P_TAPS_lane1) p
  (List.range 4).map (fun k => sext 8 (bits v (8 * k + 7) (8 * k)))

/-- The taps of a lane replaced. -/
def State.setTaps (s : State) (p lane : Nat) (t : List Int) : State :=
  s.fput (if lane = 0 then fWLN_P_TAPS_lane0 else fWLN_P_TAPS_lane1) p
    (t.zipIdx.foldl (fun v e => v + enc 8 e.1 * 2 ^ (8 * e.2)) 0)

/-- The limits of a tap (R411). -/
def tapRange (k : Nat) : Int × Int := if k = 0 then (-16, 16) else if k = 1 then (-48, 0) else if k = 2 then (48, 127) else (-48, 0)

/-- The sum of magnitudes stays within the swing (R411). -/
def tapSum (t : List Int) : Nat := (t.map Int.natAbs).sum

/-- Every tap is in its range and their sum too (R411). -/
def tapsOk (t : List Int) : Bool :=
  t.zipIdx.all (fun e => decide ((tapRange e.2).1 ≤ e.1 ∧ e.1 ≤ (tapRange e.2).2)) && decide (tapSum t ≤ 127)

/-- The presets (R411). -/
def tapPreset (n : Nat) : List Int := if n = 2 then [0, -12, 103, -12] else if n = 3 then [4, -16, 91, -16] else [0, 0, 127, 0]

/-- One tap operation applied: the taps and its result (R410, R411). -/
def tapStep (t : List Int) (k op : Nat) : List Int × Nat :=
  if op = 1 ∨ op = 2 then
    let v := t.getD k 0 + (if op = 1 then 1 else -1)
    let t' := t.set k v
    if v < (tapRange k).1 ∨ (tapRange k).2 < v then (t, 1)
    else if 127 < tapSum t' then (t, 2)
    else (t', 0)
  else (t, 3)

/-- The four operations of a request, from c-2 to c+1, with their results as two bits each. -/
def tapSteps (t : List Int) (ops : Nat) : List Int × Nat :=
  (List.range 4).foldl (fun a k =>
    let r := tapStep a.1 k (bits ops (2 * k + 1) (2 * k))
    (r.1, a.2 + r.2 * 4 ^ k)) (t, 0)

/-- A lane's control block in training, whatever the port's state (R409). -/
def State.sendTraining (s : State) (p lane typ content : Nat) : State :=
  s.setWport p ((s.wport p).emit (s.fget fWLN_P_STAT_pre_tx p) [.train lane typ content])

/-- TRAIN_STAT in its two blocks: the echo of the last request with its results, and the tap c+1 (R410). -/
def State.sendTrainStat (s : State) (p lane seq results : Nat) : State :=
  let w := s.wport p
  let t := s.taps p lane
  let c (k : Nat) : Nat := enc 8 (t.getD k 0)
  let head := seq * 2 ^ 8 + results * 2 ^ 12 + b2n (bitAt w.nextPre lane) * 2 ^ 22 + b2n w.nextFec * 2 ^ 23 +
    b2n (bitAt w.ready lane) * 2 ^ 24
  (s.sendTraining p lane 0x41 (head + c 0 * 2 ^ 32 + c 1 * 2 ^ 40 + c 2 * 2 ^ 48)).sendTraining p lane 0x41
    (head + c 3 * 2 ^ 32 + 0x7F * 2 ^ 40)

/-- A port is in training or retraining. -/
def State.inTraining (s : State) (p : Nat) : Bool := s.wstate p == wTraining || s.wstate p == wRetraining

/-- What a request makes of the taps, and the result that it is answered with (R410, R411). -/
def tapAnswer (manual : Bool) (t : List Int) (v : Nat) : List Int × Nat :=
  let ops := bits v 19 12
  let preset := bits v 21 20
  if manual then (t, (List.range 4).foldl (fun a k =>
      a + (if preset = 0 ∧ (bits ops (2 * k + 1) (2 * k) = 0 ∨ bits ops (2 * k + 1) (2 * k) = 3) then 3 else 2) * 4 ^ k) 0)
  else if preset ≠ 0 then (tapPreset preset, 0)
  else tapSteps t ops

/-- What a new request leaves in the port: its ready and seq, and until ready was sent its precoding and FEC (R410, R412). -/
def WPort.heard (w : WPort) (lane v : Nat) : WPort :=
  let seq := bits v 11 8
  let x : WPort := { w with ready := setBit w.ready lane (bitAt v 24), req0 := if lane = 0 then some seq else w.req0,
                            req1 := if lane = 0 then w.req1 else some seq }
  if bitAt w.ready lane then x
  else { x with nextPre := setBit x.nextPre lane (bitAt v 22), nextFec := x.nextFec || bitAt v 23 }

/-- TRAIN_REQ from the receiver of a lane (R410 to R412): applied once for a new seq. Tap requests of a port with manual taps get
result 2; precoding and FEC no longer change once that receiver has sent ready. -/
def State.doTrainReq (s : State) (p lane v : Nat) : State :=
  if s.inTraining p = false then s
  else
    let w := s.wport p
    let seq := bits v 11 8
    if (if lane = 0 then w.req0 else w.req1) = some seq then s.setWport p { w with ready := setBit w.ready lane (bitAt v 24) }
    else
      let r := tapAnswer w.manual (s.taps p lane) v
      ((s.setWport p (w.heard lane v)).setTaps p lane r.1).sendTrainStat p lane seq r.2

/-- TRAIN_STAT from the transmitter of a lane: the precoding and ready that it shows (R410, R412). -/
def State.doTrainStat (s : State) (p lane v : Nat) : State :=
  if s.inTraining p = false ∨ bits v 47 40 = 0x7F then s
  else
    let s := s.fput fWLN_P_STAT_pre_rx p (setBit (s.fget fWLN_P_STAT_pre_rx p) lane (bitAt v 22))
    s.setWport p { s.wport p with echoed := setBit (s.wport p).echoed lane (bitAt v 24) }

/-- An ACK block with the next expected seq and the credits that are owed (R414, R417, R418). -/
def State.sendAck (s : State) (p : Nat) : State :=
  let w := s.wport p
  let content := w.rxSeq * 2 ^ 8 + min w.owed0 255 * 2 ^ 24 + min w.owed1 255 * 2 ^ 32 + min w.owed2 255 * 2 ^ 40
  (s.setWport p { w with owed0 := w.owed0 - min w.owed0 255, owed1 := w.owed1 - min w.owed1 255,
                         owed2 := w.owed2 - min w.owed2 255, unacked := 0 }).sendBlock p 0x01 content

/-- Unacknowledged flits sent again, from a seq on; the fix counts each (R417, R380). -/
def State.resend (s : State) (p seq : Nat) : State :=
  let w := s.wport p
  let again := w.replay.filter (fun f => decide ((f.seq + 65536 - seq) % 65536 < 32768))
  if again = [] then s
  else ((s.setWport p (w.emit (s.fget fWLN_P_STAT_pre_tx p) (again.map Sent.flit))).bump fWLN_P_ERR_replays p).countFix 13

/-- A session begins: no credit, 16 granted for each channel in its first ACK, and what was not acknowledged sent again (R412, R417,
R418). -/
def State.beginSession (s : State) (p : Nat) : State :=
  let w := s.wport p
  let s := s.setWstate p wUp
  let s := (s.fput fWLN_P_STAT_pre_tx p w.nextPre).fput fWLN_P_STAT_fec p (b2n (w.nextFec || s.fbit fWLN_P_CTL_fec_req p))
  let s := s.setWport p { w with credit0 := 0, credit1 := 0, credit2 := 0, owed0 := 16, owed1 := 16, owed2 := 16,
                                 unacked := 0, resends := 0, nakFor := none, lane0 := w.lane0.align, lane1 := w.lane1.align }
  ((s.sendAck p).resend p ((s.wport p).replay.head?.elim 0 (·.seq))).pump p

/-- The port comes up: both lanes locked, both ends ready (R412). A session begins with no credit, grants 16 for each channel in
its first ACK, and sends what was not acknowledged (R417, R418). -/
def State.doPortUp (s : State) (p : Nat) : State :=
  let w := s.wport p
  if s.inTraining p ∧ s.fget fWLN_P_STAT_lock p = 3 ∧ w.ready = 3 ∧ w.echoed = 3 then
    (s.beginSession p).endWaits (.training p) .ok
  else s

/-- A port is not up within 100 ms: it fails, and its command completes with LINK_DOWN (R412, R417). -/
def State.doTrainTimeout (s : State) (p : Nat) : State :=
  if s.inTraining p then
    let s := (s.advance (s.wport p).trainBy).setWstate p wFailed
    (s.linkLost p).endWaits (.training p) .linkDown
  else s

/-- Training begins anew: preset 1 or given taps, precoding and FEC off (R409). Sequence numbers start at 0 (assumption 39). -/
def State.beginTraining (s : State) (p : Nat) (manual fec : Bool) (t : List Int) : State :=
  let s := (((s.setWstate p wTraining).fput fWLN_P_STAT_lock p 0).fput fWLN_P_STAT_pre_rx p 0).fput fWLN_P_STAT_pre_tx p 0
  let s := (s.fput fWLN_P_STAT_fec p 0).fput fWLN_P_CTL_fec_req p (b2n fec)
  let s := s.setWport p { manual := manual, trainBy := s.now + unitsPerSecond / 10, slots := (s.wport p).slots, sent := (s.wport p).sent,
                            lane0 := { (s.wport p).lane0 with index := 0 }, lane1 := { (s.wport p).lane1 with index := 0 } }
  (s.setTaps p 0 t).setTaps p 1 t

/-- A port taken down (R409). -/
def State.portDown (s : State) (p : Nat) : State :=
  let s := (s.linkLost p).setWstate p wDown
  (s.fput fWLN_P_STAT_lock p 0).endWaits (.training p) .linkDown

/-- A convoy port of a mustered member (R413). -/
def State.convoyHeld (s : State) (p : Nat) : Bool := s.mustered && s.fbit fWLN_P_CTL_convoy p

/-- WAYLINE_PORT (R409 to R413). A port whose domain is off answers LINK_DOWN. -/
def bodyWaylinePort : CmdBody := fun k s =>
  let p := u8 k 0
  let op := u8 k 1
  let t := [s8 k 4, s8 k 5, s8 k 6, s8 k 7]
  if 4 ≤ p ∨ 3 < op ∨ 1 < u8 k 2 ∨ (op = 2 ∧ tapsOk t = false) then fail s .paramInvalid
  else if op = 0 then ok (s.portDown p)
  else if s.powered (16 + p) = false then fail s .linkDown
  else if op = 3 then
    if s.convoyHeld p then fail s .convoyRefused else ok (s.setWport p { s.wport p with idleOk := true })
  else
    let s := if s.wstate p = wDown then s else s.portDown p
    (s.beginTraining p (op == 2) (u8 k 2 == 1) (if op = 2 then t else tapPreset 1), .wait (.training p) 0 0 0 0 1)

/-! ### Electrical idle (R413) -/

/-- The port has nothing to send. -/
def WPort.quiet (w : WPort) : Bool := w.waiting == [] && w.replay == [] && w.blocks == []

/-- Nothing to send for idle_us: IDLE_ENTER on both lanes, then the drivers are off (R413). -/
def State.doIdleQuietExpiry (s : State) (p : Nat) : State :=
  let w := s.wport p
  if s.wstate p = wUp ∧ w.idleOk ∧ s.fbit fWLN_P_CTL_idle_auto p ∧ w.quiet ∧ s.convoyHeld p = false then
    (s.sendBlock p 0x50 0).setWstate p wIdle
  else s

/-- The partner has turned its drivers off (R413): the port is idle until a burst (assumption 40). -/
def State.doIdleEnter (s : State) (p : Nat) : State :=
  if s.wstate p = wUp ∧ s.convoyHeld p = false then s.setWstate p wIdle else s

/-- The port leaves idle: a burst on each lane, then a comma, then what waits (R413). -/
def State.doIdleExit (s : State) (p : Nat) : State :=
  if s.wstate p = wIdle ∨ s.wstate p = wExiting then
    ((s.setWport p ((s.wport p).emit (s.fget fWLN_P_STAT_pre_tx p) [.burst])).setWstate p wUp).pump p
  else s

/-! ### Flits in sequence (R417, R418) -/

/-- A port with flits before a seq acknowledged and credits back (R417, R418). -/
def WPort.acked (w : WPort) (seq c0 c1 c2 : Nat) : WPort :=
  let left := w.replay.filter (fun f => decide ((f.seq + 65536 - seq) % 65536 < 32768))
  { w with replay := left, credit0 := w.credit0 + c0, credit1 := w.credit1 + c1, credit2 := w.credit2 + c2,
           resends := if left.length < w.replay.length then 0 else w.resends }

/-- ACK: flits before a seq leave the replay buffer, and credits come back (R417, R418). -/
def State.doAck (s : State) (p seq c0 c1 c2 : Nat) : State :=
  if s.wstate p ≠ wUp then s
  else (s.setWport p ((s.wport p).acked seq c0 c1 c2)).pump p

/-- Flits resent without progress; after 8 resends in a row the port retrains (R417). -/
def State.resendOrRetrain (s : State) (p seq : Nat) : State :=
  let w := s.wport p
  if 8 ≤ w.resends then s.retrain p else (s.setWport p { w with resends := w.resends + 1 }).resend p seq

/-- NAK: all flits from a seq are resent in order (R417). -/
def State.doNak (s : State) (p seq : Nat) : State := if s.wstate p = wUp ∧ (s.wport p).replay ≠ [] then s.resendOrRetrain p seq else s

/-- No ACK progress for 2 µs: resent from the oldest (R417). -/
def State.doReplayTimeout (s : State) (p : Nat) : State :=
  match (s.wport p).replay with
  | [] => s
  | f :: _ => if s.wstate p = wUp then s.resendOrRetrain p f.seq else s

/-- The receiver acknowledges flits that it has not yet acknowledged, and returns credits (R417, R418). -/
def State.doAckTimer (s : State) (p : Nat) : State :=
  let w := s.wport p
  if s.wstate p = wUp ∧ (w.unacked ≠ 0 ∨ w.owed0 + w.owed1 + w.owed2 ≠ 0) then s.sendAck p else s

/-- NAK of the expected seq, once for each expected value (R417). -/
def State.sendNak (s : State) (p : Nat) : State :=
  let w := s.wport p
  if w.nakFor = some w.rxSeq then s else (s.setWport p { w with nakFor := some w.rxSeq }).sendBlock p 0x02 (w.rxSeq * 2 ^ 8)

/-- A flit with a bad CRC, or one ahead of the expected seq, is discarded (R417). -/
def State.doFlitCrcError (s : State) (p : Nat) (crcBad : Bool) : State :=
  if s.wstate p ≠ wUp then s
  else (if crcBad then (s.bump fWLN_P_ERR_crc_err p).countFix 12 else s).sendNak p

/-- A control block with a bad CRC-8 or a reserved type is discarded (R414). -/
def State.doBadControlBlock (s : State) (p : Nat) : State :=
  if s.wstate p = wDown ∨ s.wstate p = wFailed then s else s.bump fWLN_P_ERR_bad_ctl p

/-- A codeword with FEC on is corrected, or is uncorrectable (R408). -/
def State.doFecCodeword (s : State) (p : Nat) (uncorrectable : Bool) : State :=
  if s.fbit fWLN_P_STAT_fec p then s.bump (if uncorrectable then fWLN_P_FEC_uncorrectable else fWLN_P_FEC_corrected) p else s

/-- A flit with a good CRC arrives: delivered when its seq is the expected one; a duplicate repeats the ACK; one ahead brings a NAK
(R417). -/
def State.acceptFlit (s : State) (p : Nat) (f : Flit) : State × Bool :=
  let w := s.wport p
  if s.wstate p ≠ wUp then (s, false)
  else if f.seq = w.rxSeq then
    let s := s.setWport p { w with rxSeq := (w.rxSeq + 1) % 65536, nakFor := none, unacked := w.unacked + 1 }
    (if 15 ≤ w.unacked then s.sendAck p else s, true)
  else if (w.rxSeq + 65536 - f.seq) % 65536 ≤ 32768 then (s.sendAck p, false)
  else (s.sendNak p, false)

/-- A flit for another node: forwarded with ttl one less, or discarded with an answer when there is no route (R417, R419). -/
def State.forwardFlit (s : State) (p : Nat) (f : Flit) : State :=
  let s := s.owe p f.vc
  if f.ttl = 0 then s.bump fWLN_P_ERR_bad_ctl p
  else match s.wlnRoute f.dst with
    | some q => s.sendFlit q { f with ttl := f.ttl - 1 }
    | none =>
      if (f.typ = 1 ∨ f.typ = 3) ∧ f.last then s.replyFlit p f.src 2 0 f.xid 1 true []
      else if (f.typ = 5 ∨ f.typ = 6) ∧ f.last then s.replyFlit p f.src 8 1 f.xid 1 true []
      else s

/-- A flit is for this node: a link partner's number, or the own member number while mustered (R419). -/
def State.flitIsMine (s : State) (f : Flit) : Bool := decide (256 ≤ f.dst) || (s.mustered && f.dst == s.fget fWLN_STATUS_self)

/-- A flit of a type arrives on a port; the service takes it when it is delivered here (R416, R419). -/
def State.onFlit (s : State) (p typ vc : Nat) (f : Flit) (service : Flit → State → State) : State :=
  let f := { f with typ := typ, vc := vc }
  match s.acceptFlit p f with
  | (s, false) => s
  | (s, true) => if s.flitIsMine f then service f s else s.forwardFlit p f

/-- Flits of a bulk unit collected by source and xid until the last: the unit's flits when it is complete (R422). -/
def State.collect (s : State) (p : Nat) (f : Flit) : State × Option (List Flit) :=
  let w := s.wport p
  let same (g : Flit) : Bool := g.src == f.src && g.xid == f.xid && g.typ == f.typ
  if f.last then (s.setWport p { w with parts := w.parts.filter (fun g => !same g) }, some (w.parts.filter same ++ [f]))
  else (s.setWport p { w with parts := w.parts ++ [f] }, none)

/-! ### The rows of the command table -/

/-- COMPARE_RESULT_ARRIVAL (R30). -/
def execCompareResultArrival (n : PinNo) (seen : PinSeen) (held : Bool) (s : State) : Host.Outcome State Fault Refusal :=
  .next ((s.doCompareResult n.val seen.nv seen.crossing held).haltIfDue)

/-- HALT_ENTRY (R17). -/
def execHaltEntry (p : PilotNo) (s : State) : Host.Outcome State Fault Refusal := .next ((s.doHaltEntry p.val).haltIfDue)

/-- LEG_END (R135). -/
def execLegEnd (p : PilotNo) (s : State) : Host.Outcome State Fault Refusal := .next ((s.doLegEnd p.val).haltIfDue)

/-- ABORT_ALL (R374). -/
def execAbortAll (k : Packet) (s : State) : Host.Outcome State Fault Refusal := .next (s.runPrompt 0x0004 bodyAbortAll k)

/-- WAYLINE_PORT (R409). -/
def execWaylinePort (k : Packet) (s : State) : Host.Outcome State Fault Refusal := .next (s.runCommand 0x9001 bodyWaylinePort k)

/-- BLOCK_LOCK (R406). -/
def execBlockLock (p : Fin 4) (lane : Fin 2) (s : State) : Host.Outcome State Fault Refusal := .next (s.doBlockLock p.val lane.val)

/-- LOCK_LOSS (R406). -/
def execLockLoss (p : Fin 4) (lane : Fin 2) (s : State) : Host.Outcome State Fault Refusal := .next (s.doLockLoss p.val lane.val)

/-- TRAIN_REQ (R410). -/
def execTrainReq (p : Fin 4) (lane : Fin 2) (v : BitVec 56) (s : State) : Host.Outcome State Fault Refusal :=
  .next (s.doTrainReq p.val lane.val v.toNat)

/-- TRAIN_STAT (R410). -/
def execTrainStat (p : Fin 4) (lane : Fin 2) (v : BitVec 56) (s : State) : Host.Outcome State Fault Refusal :=
  .next (s.doTrainStat p.val lane.val v.toNat)

/-- PORT_UP (R412). -/
def execPortUp (p : Fin 4) (s : State) : Host.Outcome State Fault Refusal := .next (s.doPortUp p.val)

/-- TRAIN_TIMEOUT (R412). -/
def execTrainTimeout (p : Fin 4) (s : State) : Host.Outcome State Fault Refusal := .next (s.doTrainTimeout p.val)

/-- IDLE_QUIET_EXPIRY (R413). -/
def execIdleQuietExpiry (p : Fin 4) (s : State) : Host.Outcome State Fault Refusal := .next (s.doIdleQuietExpiry p.val)

/-- IDLE_ENTER (R413). -/
def execIdleEnter (p : Fin 4) (s : State) : Host.Outcome State Fault Refusal := .next (s.doIdleEnter p.val)

/-- IDLE_EXIT (R413). -/
def execIdleExit (p : Fin 4) (s : State) : Host.Outcome State Fault Refusal := .next (s.doIdleExit p.val)

/-- ACK (R417). -/
def execAck (p : Fin 4) (seq : BitVec 16) (c0 : BitVec 8) (c1 : BitVec 8) (c2 : BitVec 8) (s : State) : Host.Outcome State Fault Refusal :=
  .next (s.doAck p.val seq.toNat c0.toNat c1.toNat c2.toNat)

/-- NAK (R417). -/
def execNak (p : Fin 4) (seq : BitVec 16) (s : State) : Host.Outcome State Fault Refusal := .next (s.doNak p.val seq.toNat)

/-- ACK_TIMER (R417). -/
def execAckTimer (p : Fin 4) (s : State) : Host.Outcome State Fault Refusal := .next (s.doAckTimer p.val)

/-- REPLAY_TIMEOUT (R417). -/
def execReplayTimeout (p : Fin 4) (s : State) : Host.Outcome State Fault Refusal := .next (s.doReplayTimeout p.val)

/-- HALT (R425). -/
def execHalt (p : Fin 4) (seq : BitVec 8) (origin : BitVec 8) (s : State) : Host.Outcome State Fault Refusal :=
  .next (s.doHalt p.val seq.toNat origin.toNat)

/-- FLIT_CRC_ERROR (R417). -/
def execFlitCrcError (p : Fin 4) (badCrc : Bool) (s : State) : Host.Outcome State Fault Refusal :=
  .next (s.doFlitCrcError p.val badCrc)

/-- BAD_CONTROL_BLOCK (R414). -/
def execBadControlBlock (p : Fin 4) (s : State) : Host.Outcome State Fault Refusal := .next (s.doBadControlBlock p.val)

/-- FEC_CODEWORD (R408). -/
def execFecCodeword (p : Fin 4) (uncorrectable : Bool) (s : State) : Host.Outcome State Fault Refusal :=
  .next (s.doFecCodeword p.val uncorrectable)

end Sys2Proof.Machine
end

