-- ==== Sys2Proof/Machine/WaylineService.lean ====
section
/-! DEFINITION. The Wayline services: messages and launched frames, bulk transfers at both ends, time transfer, GO, the site-fail
aggregate, and convoys with their musters (R420 to R434). -/

namespace Sys2Proof.Machine

/-! ### Messages (R420) and launched frames (R429) -/

/-- A message's next sequence number for the command that waits. -/
def State.newMsg (s : State) (xid port : Nat) : State × Nat :=
  ({ s with wln := { s.wln with seq := s.wln.seq + 1, msgs := s.wln.msgs ++ [⟨xid, port, s.wln.seq⟩] } }, s.wln.seq)

/-- The port for a command's node, or why there is none (R419, R431): nodes 0 to 255 need a mustered member. -/
def State.nodePort (s : State) (node : Nat) : Except Status Nat :=
  if node < 256 ∧ s.mustered = false then .error .convoyRefused
  else match s.wlnRoute node with
    | some p => .ok p
    | none => .error .nodeUnknown

/-- A unit of one VC0 flit sent out of a port to a node, with the number of its message. -/
def State.unitOut (s : State) (typ node p word : Nat) (bs : List Byte) : State × Nat :=
  let own := s.ownNode
  let x := own.1.nextXid
  let m := x.1.newMsg x.2 p
  (m.1.sendFlit p (mkFlit typ 0 node own.2 x.2 word true bs), m.2)

/-- A unit of one VC0 flit sent to a node; the command waits for its answer. -/
def State.sendUnit (s : State) (typ node word : Nat) (bs : List Byte) : State × CmdEnd :=
  match s.nodePort node with
  | .error st => fail s st
  | .ok p =>
    if s.linkUp p = false then fail s .linkDown
    else
      let m := s.unitOut typ node p word bs
      (m.1, .wait (.message m.2) 0 0 0 0 1)

/-- A launch slot. -/
def State.launchSlot (s : State) (p k : Nat) : Option (Nat × List Byte) := nget none k (s.wport p).slots
/-- A launch slot replaced; WLN_P_LAUNCH.loaded shows it. -/
def State.setLaunchSlot (s : State) (p k : Nat) (x : Option (Nat × List Byte)) : State :=
  (s.setWport p { s.wport p with slots := nset none k x (s.wport p).slots }).fput fWLN_P_LAUNCH_loaded p
    (setBit (s.fget fWLN_P_LAUNCH_loaded p) k x.isSome)

/-- WAYLINE_SEND (R420): a message to a queue of a node, or a frame for a launch slot when bit 15 of the queue is set. -/
def bodyWaylineSend : CmdBody := fun k s =>
  let node := u16 k 0
  let q := u16 k 2
  let n := u32 k 16
  let slot := decide (2 ^ 15 ≤ q)
  if 236 + (if slot then 2 else 0) < n ∨ (slot ∧ (n < 2 ∨ bits q 14 6 ≠ 0)) ∨ (slot = false ∧ 2 ^ 14 ≤ q) then fail s .paramInvalid
  else match s.payload (u8 k 20) (u64 k 8) n with
    | (s, .bad st d) => fail s st d
    | (s, .bytes bs) =>
      if slot then
        match (if node < 256 ∧ s.mustered = false then some Status.convoyRefused else none) with
        | some st => fail s st
        | none => ok (s.setLaunchSlot (bits q 5 4) (bits q 3 0) (some (node, bs)))
      else s.sendUnit 1 node q bs

/-- A MSG flit is committed to its queue, or held while the queue is full, and answered (R394, R420, R498). -/
def State.takeMsg (p : Nat) (f : Flit) (s : State) : State :=
  let q := f.word
  let answer (s : State) (st : Nat) : State := (s.owe p 0).replyFlit p f.src 2 0 f.xid st true []
  if 16384 ≤ q ∨ s.qOn q = false ∨ bitAt (s.fget fDPT_Q_CTL_prod q) 1 = false then answer s 1
  else if s.qElem q < f.payload.length then answer s 2
  else
    let d := s.dq q
    let elem := ofBytes f.payload
    if s.qCap q ≤ d.elems.length ∨ d.held ≠ [] then
      let own := s.ownNode
      own.1.setDq q { d with held := d.held ++ [(.wayline p (mkFlit 2 0 f.src own.2 f.xid 0 true []), elem)] }
    else answer (s.qPush q elem) 0

/-- MSG (R420). -/
def State.doMsg (s : State) (p : Nat) (f : Flit) : State := s.onFlit p 1 0 f (State.takeMsg p)

/-- The waiting message of a transaction leaves the list. -/
def State.takeOut (s : State) (xid : Nat) : State × Option Nat :=
  match s.wln.msgs.find? (fun m => m.xid == xid) with
  | some m => ({ s with wln := { s.wln with msgs := s.wln.msgs.erase m } }, some m.seq)
  | none => (s, none)

/-- The sending command completes OK on status 0, PARAM_INVALID with the status otherwise (R420). -/
def State.takeMsgAck (p : Nat) (f : Flit) (s : State) : State :=
  match (s.owe p 0).takeOut f.xid with
  | (s, some seq) => if f.word = 0 then s.endWaits (.message seq) .ok else s.endWaits (.message seq) .paramInvalid (some f.word)
  | (s, none) => s

/-- MSG_ACK (R420). -/
def State.doMsgAck (s : State) (p : Nat) (f : Flit) : State := s.onFlit p 2 0 f (State.takeMsgAck p)

/-- WAYLINE_FORWARD: a 64-byte packet to a node (R421). -/
def bodyWaylineForward : CmdBody := fun k s =>
  match s.payload (u8 k 16) (u64 k 8) 64 with
  | (s, .bad st d) => fail s st d
  | (s, .bytes bs) => s.sendUnit 3 (u16 k 0) 0 bs

/-- The forwarding commands that wait for an answer complete with the member's status and completion words (R421). -/
def State.forwardEnds (s : State) (seq v : Nat) : State :=
  let mine := s.helm.running.filter (fun x => x.why == .message seq)
  let s := { s with helm := { s.helm with running := s.helm.running.filter (fun x => x.why != .message seq) } }
  mine.foldl (fun s x => s.concludeCode x (bits v 47 32) (bits v 95 64) (bits v 127 64) false false 1) s

/-- The completion of a forwarded command returns (R421). -/
def State.takeFwdCpl (p : Nat) (f : Flit) (s : State) : State :=
  match (s.owe p 0).takeOut f.xid with
  | (s, some seq) => s.forwardEnds seq (ofBytes f.payload)
  | (s, none) => s

/-- FWD_CPL (R421). -/
def State.doFwdCpl (s : State) (p : Nat) (f : Flit) : State := s.onFlit p 4 0 f (State.takeFwdCpl p)

/-- LAUNCH and the frame of a slot go out of a port (R429). -/
def State.sendLaunch (s : State) (p slot node : Nat) (bs : List Byte) : State :=
  let k := s.fresh
  let s := k.1.sendBlock p 0x30 (slot * 2 ^ 8 + k.2.toNat % 256 * 2 ^ 16)
  let own := s.ownNode
  let frame := { mkFlit 1 0 node own.2 0 (ofBytes (bs.take 2)) true (bs.drop 2) with launched := true }
  let s := own.1.setWport p { own.1.wport p with waiting := frame :: (own.1.wport p).waiting }
  ((s.setLaunchSlot p slot none).bump fWLN_P_LAUNCH_launched p).pump p

/-- MS_WAYLINE_LAUNCH (R429): LAUNCH goes out with the offset k, which depends on the block's phase and is a free value, then the
frame as the port's next VC0 flit. -/
def State.doMsWaylineLaunch (s : State) (id : Nat) : State :=
  match s.msFire id 10 with
  | none => s
  | some (s, f) =>
    let p := f.ms.target
    let slot := f.ms.arg
    match (if p < 4 ∧ slot < 16 ∧ s.wstate p = wUp then s.launchSlot p slot else none) with
    | none => s.msDone f .linkDown
    | some (node, bs) => (s.sendLaunch p slot node bs).msDone f .ok

/-- LAUNCH: it marks the first symbol of the frame that follows and changes nothing here (R429). -/
def State.doLaunch (s : State) (_p _slot _k : Nat) : State := s

/-! ### Bulk transfers at the target (R422) -/

/-- The DVA and space that a bulk flit names. -/
def bulkDva (f : Flit) : Nat := ofBytes (f.payload.take 6)
def bulkSpace (f : Flit) : Nat := ofBytes ((f.payload.drop 6).take 1)

/-- BULK_ACK for a unit (R422). -/
def State.bulkAck (s : State) (p : Nat) (f : Flit) (st : Nat) : State := s.replyFlit p f.src 8 1 f.xid st true []

/-- The flits that carry read data: up to 236 bytes each (assumption 37). -/
def readFlits (dst src xid : Nat) : List Byte → Nat → List Flit
  | _, 0 => []
  | bs, fuel + 1 =>
    let f := mkFlit 7 1 dst src xid 0 (decide (bs.length ≤ 236)) (bs.take 236)
    if bs.length ≤ 236 then [f] else f :: readFlits dst src xid (bs.drop 236) fuel

/-- A unit that meets a Chart fault holds one of the port's 8 slots for up to 1 ms; with none free it fails (R345, R422). -/
def State.holdBulk (s : State) (p : Nat) (f : Flit) (x : FaultSlot) (dva space : Nat) (data : List Byte) (read : Bool)
    (limit : Nat) : State :=
  let r := s.raiseFault { x with source := 33, blocking := true, early := false }
  if r.2 = 0xFFFF then r.1.bulkAck p f 1
  else { r.1 with wln := { r.1.wln with holds := r.1.wln.holds ++ [⟨p, f, dva, space, data, read, r.2, limit⟩] } }

/-- A granule written at the target, whole, then acknowledged. -/
def State.bulkWrite (s : State) (p : Nat) (f : Flit) (dva space : Nat) (data : List Byte) (limit : Nat) : State :=
  match s.dvaWrite 33 portWP .bulk space dva data with
  | (s, none) => s.settleWrites.bulkAck p f 0
  | (s, some x) => s.holdBulk p f x dva space data false limit

/-- A granule read at the target and sent back. -/
def State.bulkRead (s : State) (p : Nat) (f : Flit) (dva space n limit : Nat) : State :=
  match s.dvaRead 33 portWP space dva n with
  | (s, .done bs) =>
    let own := s.ownNode
    let q := if f.src < 256 then (own.1.wlnRoute f.src).getD p else p
    (readFlits f.src own.2 f.xid bs 20).foldl (fun s g => s.sendFlit q g) own.1
  | (s, .poison) => s.bulkAck p f 1
  | (s, .fault x) => s.holdBulk p f x dva space (List.replicate n 0) true limit

/-- The end of the 1 ms that a fault may hold a unit (R422). -/
def State.holdLimit (s : State) : Nat := s.now + unitsPerSecond / 1000

/-- A unit is written once all its flits have arrived (R422). -/
def State.takeBulkWr (p : Nat) (f : Flit) (s : State) : State :=
  match (s.owe p 1).collect p f with
  | (s, none) => s
  | (s, some unit) =>
    let first := unit.headD f
    s.bulkWrite p first (bulkDva first) (bulkSpace first) (unit.flatMap (fun g => g.payload.drop 8)) s.holdLimit

/-- BULK_WR (R422). -/
def State.doBulkWr (s : State) (p : Nat) (f : Flit) : State := s.onFlit p 5 1 f (State.takeBulkWr p)

/-- A read of up to 4 KiB, the length in word (R422; assumption 37). -/
def State.takeBulkRdReq (p : Nat) (f : Flit) (s : State) : State :=
  (s.owe p 1).bulkRead p f (bulkDva f) (bulkSpace f) (min f.word 4096) s.holdLimit

/-- BULK_RD_REQ (R422). -/
def State.doBulkRdReq (s : State) (p : Nat) (f : Flit) : State := s.onFlit p 6 1 f (State.takeBulkRdReq p)

/-- Held units whose fault has cleared are tried again; a new fault keeps the first one's limit (R422). -/
def State.serveHolds (s : State) : State :=
  let ready := s.wln.holds.filter (fun h => (s.slotOfId h.id).isNone)
  let s := { s with wln := { s.wln with holds := s.wln.holds.filter (fun h => (s.slotOfId h.id).isSome) } }
  ready.foldl (fun s h => if h.read then s.bulkRead h.port h.flit h.dva h.space h.data.length h.until_
    else s.bulkWrite h.port h.flit h.dva h.space h.data h.until_) s

/-- Units held on a fault fail: BULK_ACK status 1 (R349, R422). -/
def State.failHolds (s : State) (id : Nat) : State :=
  let mine := s.wln.holds.filter (fun h => h.id == id)
  let s := { s with wln := { s.wln with holds := s.wln.holds.filter (fun h => h.id != id) } }
  mine.foldl (fun s h => s.bulkAck h.port h.flit 1) s

/-- BULK_FAULT_TIMEOUT: a fault has held its unit for 1 ms; the unit fails and the slot is free (R422). -/
def State.doBulkFaultTimeout (s : State) (id : Nat) : State :=
  match s.wln.holds.find? (fun h => h.id == id) with
  | none => s
  | some h =>
    let s := s.advance h.until_
    let s := match s.slotOfId id with
      | some (i, _) => s.setSlot i none
      | none => s
    s.failHolds id

/-! ### Bulk transfers at the source (R422) -/

/-- The outstanding granule of a transaction leaves the list. -/
def State.takeBulk (s : State) (xid : Nat) : State × Option BulkOut :=
  match s.wln.bulk.find? (fun b => b.xid == xid) with
  | some b => ({ s with wln := { s.wln with bulk := s.wln.bulk.erase b } }, some b)
  | none => (s, none)

/-- A granule in flight ends as link_error. -/
def State.bulkFails (s : State) (b : BulkOut) : State :=
  match (s.dmaCh b.chan).desc with
  | some d => if (s.dmaCh b.chan).flying.contains b.granule then
      (s.granuleFault b.chan b.granule (granuleFaultOf d b.chan b.granule kLinkError 0 (!b.read))).dmaFill
    else s
  | none => s

/-- A granule is written at the target, or suspends its channel as link_error (R422). -/
def State.takeBulkAck (p : Nat) (f : Flit) (s : State) : State :=
  match (s.owe p 1).takeBulk f.xid with
  | (s, none) => s
  | (s, some b) =>
    if f.word = 0 ∧ b.read = false then
      (if (s.dmaCh b.chan).flying.contains b.granule then s.granuleWritten b.chan b.granule else s).dmaFill
    else s.bulkFails b

/-- BULK_ACK (R422). -/
def State.doBulkAck (s : State) (p : Nat) (f : Flit) : State := s.onFlit p 8 1 f (State.takeBulkAck p)

/-- The requester writes the granule once all of it has arrived (R352, R422). -/
def State.takeBulkRdData (p : Nat) (f : Flit) (s : State) : State :=
  match (s.owe p 1).collect p f with
  | (s, none) => s
  | (s, some unit) => match s.takeBulk f.xid with
    | (s, none) => s
    | (s, some b) => match (s.dmaCh b.chan).desc with
      | none => s
      | some d =>
        let bs := unit.flatMap (·.payload)
        if (s.dmaCh b.chan).flying.contains b.granule = false then s
        else if bs.length ≠ granuleLen d b.granule then s.bulkFails b
        else match s.granuleStore b.chan d b.granule bs with
          | (s, none) => (s.granuleWritten b.chan b.granule).dmaFill
          | (s, some x) => (s.granuleFault b.chan b.granule x).dmaFill

/-- BULK_RD_DATA (R422). -/
def State.doBulkRdData (s : State) (p : Nat) (f : Flit) : State := s.onFlit p 7 1 f (State.takeBulkRdData p)

/-! ### Time transfer (R423, R424) -/

/-- An own stamp on MER7: 40 bits in 2^-16 ns, at 20 fs resolution (R423). -/
def State.stamp7 (s : State) (at20fs : Nat) : Nat := ((s.mer 7).reading (at20fs * 60)) / 256 % 2 ^ 40

/-- Each 10 µs an up port begins an exchange: TIME_REQ leaves at an instant, t1 (R423). -/
def State.doTimeExchangeTimer (s : State) (p at20fs : Nat) : State :=
  let s := s.advance (at20fs * 60)
  if s.wstate p = wUp then
    let seq := ((s.wport p).timeSeq + 1) % 256
    let w := { s.wport p with timeSeq := seq, timeEx := some { seq := seq, t1 := s.stamp7 at20fs } }
    (s.setWport p w).sendBlock p 0x20 (seq * 2 ^ 8)
  else s

/-- TIME_REQ: stamped at arrival as t2, answered with TIME_T2, whose departure is t3, and with TIME_T3 (R423). -/
def State.doTimeReq (s : State) (p seq arrive leave : Nat) : State :=
  let s := s.advance (leave * 60)
  if s.wstate p = wUp then
    (s.sendBlock p 0x21 (seq * 2 ^ 8 + s.stamp7 arrive * 2 ^ 16)).sendBlock p 0x22 (seq * 2 ^ 8 + s.stamp7 leave * 2 ^ 16)
  else s

/-- TIME_T2: t2, and the arrival as t4 (R423). -/
def State.doTimeT2 (s : State) (p seq t2 arrive : Nat) : State :=
  let s := s.advance (arrive * 60)
  match (s.wport p).timeEx with
  | some x => if x.seq = seq ∧ s.wstate p = wUp then
      s.setWport p { s.wport p with timeEx := some { x with t2 := some (t2, s.stamp7 arrive) } }
    else s
  | none => s

/-- A quotient rounded to a neighbour that the spec does not name: a free choice unless it is whole (assumption 15). -/
def State.freeQuot (s : State) (a : Int) (b : Nat) : State × Int :=
  if a % (b : Nat) = 0 then (s, a / (b : Nat)) else (s.fresh.1, a / (b : Nat) + (s.fresh.2.toNat % 2 : Nat))

/-- The convoy's digest of an Almanac range: the 32-byte entries of a job's pins, set by set (R432). Each entry is read with its check
bits: an error is counted and reported (R114). -/
def State.almanacDigest (s : State) (j : Nat) : State × List Byte :=
  let b := s.job j
  let r := (List.range b.almCount).foldl (fun (r : State × List Byte) k => (s.jobPins b).foldl (fun (r : State × List Byte) n =>
    let e := r.1.readAlm (b.almBase + k) n
    (e.1, r.2 ++ bytesOf 32 e.2.1)) r) (s, [])
  (r.1, sha256 r.2)

/-- A job's Legend banks: as its Pilot holds them, or as its route would bind them (R124). -/
def State.legendOf (s : State) (j : Nat) : Nat × Nat :=
  let b := s.job j
  let x := s.pilot b.pilot
  if x.job = j ∧ x.st ≠ .noJob then (x.legend0, x.legend1)
  else
    let h := match (s.dvaRead sourceHelm portHP b.aspace b.route 512).2 with
      | .done bs => ofBytes bs
      | _ => 0
    (if b.flag 0 ∧ bitAt (hFlags h) 0 then hdrField h 0x70 32 else defaultLegend,
     if b.flag 0 ∧ bitAt (hFlags h) 1 then hdrField h 0x90 32 else defaultLegend)

/-- The digest of banks 0 and 1 (R432). -/
def State.legendDigest (s : State) (j : Nat) : List Byte :=
  let l := s.legendOf j
  sha256 (bytesOf 32 l.1 ++ bytesOf 32 l.2)

/-- Four digest words as a number. -/
def digestOf (w : Nat → Nat) : Nat := ((List.range 4).map (fun k => w k * 2 ^ (64 * k))).sum

/-! ### Manifests (R432) -/

/-- A manifest's field: byte offset and size. -/
def mfField (m off n : Nat) : Nat := bits m (8 * (off + n) - 1) (8 * off)
def mfMember (m : Nat) : Nat := mfField m 6 2
def mfConvoy (m : Nat) : Nat := mfField m 8 4
def mfMembers (m : Nat) : Nat := mfField m 0xC 2
def mfRoot (m : Nat) : Nat := mfField m 0xE 2
def mfJob (m : Nat) : Nat := mfField m 0x10 2

/-- A field of a manifest replaced. -/
def putField (m off n v : Nat) : Nat := setBits m (8 * (off + n) - 1) (8 * off) v

/-- The own state field: 3 = MER7 in use under another discipline, 2 = more than 8 hops (R432). -/
def State.mfState (s : State) : Nat := if s.wln.merTaken then 3 else if 8 < s.wln.hops then 2 else 0

/-- The host's manifest with the own fields filled (R432). -/
def State.fillManifest (s : State) (m : Nat) : State × Nat :=
  let id := (s.rd .DEV_ID).toNat
  let m := putField (putField (putField (putField m 0x12 1 (bits id 27 20)) 0x13 1 (bits id 19 16)) 0x14 1 0) 0x15 1 7
  let m := putField (putField m 0x16 2 s.mfState) 0x18 8 (s.rd .WLN_TIME).toNat
  let m := putField m 0x40 32 (digestOf (s.firmwareDigest 1))
  let m := putField m 0x60 32 (digestOf (s.firmwareDigest 2))
  let m := putField m 0x80 32 (digestOf s.vendorDigest)
  let m := (List.range 4).foldl (fun m c => putField m (0xA0 + 32 * c) 32 (digestOf (fun k => (s.rd .PLT_UC_DIGEST c k).toNat))) m
  let j := mfJob m
  if j < 256 then
    let a := s.almanacDigest j
    (a.1, putField (putField m 0x120 32 (ofBytes a.2)) 0x140 32 (ofBytes (s.legendDigest j)))
  else (s, putField (putField m 0x120 32 0) 0x140 32 0)

/-- A kind-1 member. -/
def mfEndpoint (m : Nat) : Bool := mfField m 0x14 1 == 1

/-- A manifest differs from the root's in a field, by its number; fields 3 and 4 also compare the members with each other and stand
in mfVerdict (R432). -/
def mfDiffers (root m no : Nat) : Bool :=
  let ne (off n : Nat) : Bool := mfField root off n != mfField m off n
  let own (off n : Nat) : Bool := !mfEndpoint m && ne off n
  match no with
  | 1 => mfField m 0 6 != 0x0001464D4B50
  | 2 => ne 8 4
  | 3 => ne 0xC 2
  | 4 => decide (mfMembers root ≤ mfMember m)
  | 5 => ne 0xE 2
  | 6 => own 0x12 1
  | 7 => own 0x13 1
  | 8 => own 0x40 32
  | 9 => own 0x60 32
  | 10 => own 0x80 32
  | 11 => own 0xA0 32
  | 12 => own 0xC0 32
  | 13 => own 0xE0 32
  | 14 => own 0x100 32
  | 15 => own 0x120 32
  | 16 => own 0x140 32
  | 17 => (!mfEndpoint m || bitAt (mfField m 0x15 1) 0) && decide (15 < (sext 64 (mfField m 0x18 8)).natAbs)
  | 18 => mfField m 0x16 2 != 0
  | _ => false

/-- The members that differ in a field: those that say so, the missing for field 3, the doubled for field 4 (R432, R434). -/
def mfBad (root : Nat) (ms : List Nat) (no : Nat) : List Nat :=
  let named := (ms.filter (fun m => mfDiffers root m no)).map mfMember
  if no = 3 then named ++ (List.range (mfMembers root)).filter (fun n => ms.all (fun m => mfMember m != n))
  else if no = 4 then named ++ (ms.map mfMember).filter (fun n => decide (1 < (ms.filter (fun m => mfMember m == n)).length))
  else named

/-- The verdict: 0, or the lowest field that differs and its lowest member (R433). -/
def mfVerdict (root : Nat) (ms : List Nat) : Nat × Nat :=
  match (List.range 19).find? (fun no => mfBad root ms no != []) with
  | none => (0, 0)
  | some no => (no, (mfBad root ms no).foldl min 65535)

/-! ### Musters (R433) -/

/-- The convoy ports that are up. -/
def State.helloPorts (s : State) : List Nat := s.convoyPorts

/-- A member is mustering. -/
def State.mustering (s : State) : Bool := s.fget fWLN_STATUS_state == 1

/-- The muster ends at this member: its state, its mismatch and its command (R433). -/
def State.musterEnds (s : State) (field member : Nat) : State :=
  let s := (s.fput fWLN_CONV_field 0 field).fput fWLN_CONV_member 0 member
  if field = 0 then
    let s := s.fput fWLN_STATUS_state 0 2
    let up := s.wln.parent
    let s : State := match up with
      | some p => (List.range (s.fget fWLN_CONV_members)).foldl (fun (s : State) n =>
          if s.fget fWLN_ROUTE_port n = 7 then s.fput fWLN_ROUTE_port n p else s) s
      | none => s
    let s := { s with wln := { s.wln with aggUp := 0 } }
    s.aggChanged.endWaits .muster .ok
  else
    let s := (s.fput fWLN_STATUS_state 0 3).logWrite 0x0B 0xFF (field + member * 2 ^ 16) s.wln.convoy
    s.endWaits .muster .musterMismatch (some (field + member * 2 ^ 16))

/-- A verdict goes down the tree, then acts here (R433). -/
def State.spreadVerdict (s : State) (field member : Nat) : State :=
  let down := s.treePorts.filter (fun p => s.wln.parent != some p)
  (down.foldl (fun s p => s.sendMuster p true (.verdict field member)) s).musterEnds field member

/-- The root compares what it has (R433). -/
def State.rootDecides (s : State) : State :=
  let v := mfVerdict (ofBytes s.wln.manifest) (s.wln.manifests.map ofBytes)
  s.spreadVerdict v.1 v.2

/-- A manifest reaches the root: at the last one the verdict falls (R433). -/
def State.addManifest (s : State) (bs : List Byte) : State :=
  let s := { s with wln := { s.wln with manifests := s.wln.manifests ++ [bs] } }
  if s.mustering ∧ s.fget fWLN_CONV_members ≤ s.wln.manifests.length then s.rootDecides else s

/-- A manifest's three flits out of a port (R433). -/
def State.sendManifestBytes (s : State) (p : Nat) (bs : List Byte) : State :=
  ((s.sendMuster p false (.manifest (bs.take 236))).sendMuster p false (.manifest ((bs.drop 236).take 236))).sendMuster p true
    (.manifest (bs.drop 472))

/-- A filled manifest of this member goes toward the root (R433). -/
def State.passManifest (s : State) (bs : List Byte) : State :=
  let s := { s with wln := { s.wln with sentManifest := true } }
  if s.isRoot then { s with wln := { s.wln with manifest := bs } }.addManifest bs
  else match s.wln.parent with
    | some p => s.sendManifestBytes p bs
    | none => s

/-- The member's own manifest, filled, goes toward the root, once (R433). -/
def State.sendOwnManifest (s : State) : State :=
  if s.wln.sentManifest then s
  else
    let r := s.fillManifest (ofBytes s.wln.manifest)
    r.1.passManifest (bytesOf 512 r.2)

/-- Hellos on the convoy ports with the hop count that this member has (R433). -/
def State.sendHellos (s : State) : State :=
  s.helloPorts.foldl (fun s p => s.sendMuster p true
    (.hello (s.fget fWLN_STATUS_self) s.wln.convoy (s.fget fWLN_STATUS_root) s.wln.hops)) s

/-- The parent by the hellos heard: fewest hops, then the lowest port (R433). -/
def State.bestParent (s : State) : Option (Nat × Nat) :=
  s.helloPorts.foldl (fun best p => match (s.wport p).hello with
    | some (h, _, c) =>
      if c ≠ s.wln.convoy ∨ 255 ≤ h then best
      else match best with
        | some (_, b) => if h < b then some (p, h) else best
        | none => some (p, h)
    | none => best) none

/-- A muster that finds MER7 in use: it steers it without a step where the convoy disciplines it already, and else leaves it to what it
serves and sends its manifest (R34, R49, R432, R433). -/
def State.merNotFree (s : State) : State :=
  if s.fget fMER_WALL_CTL_discipline = 2 then { s with wln := { s.wln with stepped := true, steerAt := s.now } }
  else ({ s with wln := { s.wln with merTaken := true } } : State).sendOwnManifest

/-- A member takes its parent. MER7 in use under another discipline sends the manifest at once with state 3; in use under
discipline 2 it needs no step (R432, R433). -/
def State.chooseParent (s : State) : State :=
  if s.mustering = false ∨ s.isRoot then s
  else match s.bestParent with
    | none => s
    | some (p, h) =>
      if s.wln.parent = some p ∧ s.wln.hops = h + 1 then s
      else
        let first := s.wln.parent.isNone
        let s := { s with wln := { s.wln with parent := some p, hops := h + 1 } }
        let s := s.sendHellos
        if first ∧ s.merInUse 7 then s.merNotFree else s

/-- A member begins to muster with a host's manifest: its numbers, no route but its own, nothing heard, and its hellos sent (R433). -/
def State.beginMuster (s : State) (convoy : Nat) (bs : List Byte) : State :=
  let m := ofBytes bs
  let s := (((s.fput fWLN_STATUS_state 0 1).fput fWLN_STATUS_self 0 (mfMember m)).fput fWLN_STATUS_root 0 (mfRoot m))
  let s := ((s.fput fWLN_CONV_field 0 0).fput fWLN_CONV_member 0 0).fput fWLN_CONV_members 0 (mfMembers m)
  let s := (List.range 256).foldl (fun s n => s.fput fWLN_ROUTE_port n (if n = mfMember m then 4 else 7)) s
  let w := { s.wln with convoy := convoy, parent := none, hops := if mfMember m = mfRoot m then 0 else 255, manifest := bs }
  let s := { s with wln := { w with manifests := [], pieces := [], musterAt := s.now, sentManifest := false, stepped := false,
                                    merTaken := false, aggUp := 0 } }
  let s := (List.range 4).foldl (fun s p => s.setWport p { s.wport p with agg := 0 }) s
  -- the command waits before the manifests of a convoy of one can end it
  let s := s.sendHellos
  if s.isRoot then s else s.chooseParent

/-- MUSTER (R431 to R433). -/
def bodyMuster : CmdBody := fun k s =>
  if s.mustered ∨ s.mustering then fail s .convoyRefused
  else if s.helloPorts = [] then fail s .linkDown
  else match s.payload (u8 k 16) (u64 k 8) 512 with
    | (s, .bad st d) => fail s st d
    | (s, .bytes bs) =>
      let m := ofBytes bs
      if mfConvoy m ≠ u32 k 0 ∨ mfMembers m ≠ u16 k 4 ∨ 255 < mfMember m ∨ 255 < mfRoot m then fail s .paramInvalid
      else (s.beginMuster (u32 k 0) bs, .wait .muster 0 0 0 0 1)

/-- The root's own manifest joins once its MUSTER waits, and a member that must not step sends its own; run after the command. -/
def State.musterStarted (s : State) : State := if s.mustering ∧ s.isRoot then s.sendOwnManifest else s

/-- A MUSTER flit (R433, R434). A different convoy breaks a mustered member's convoy. -/
def State.takeMuster (p : Nat) (f : Flit) (s : State) : State :=
  let s := s.owe p 2
  match f.muster with
  | none => s.bump fWLN_P_ERR_bad_ctl p
  | some (.hello member convoy _ hops) =>
    let s := (s.setWport p { s.wport p with hello := some (hops, member, convoy) }).fput fWLN_P_STAT_partner p member
    if s.mustered ∧ convoy ≠ s.wln.convoy then s.convoyBreak (s.lostBehind p) (fun q => some (s.lostWithout q))
    else s.chooseParent.musterStarted
  | some (.manifest bs) =>
    let got := nget [] p s.wln.pieces ++ bs
    if f.last = false then { s with wln := { s.wln with pieces := nset [] p got s.wln.pieces } }
    else
      let s := { s with wln := { s.wln with pieces := nset [] p [] s.wln.pieces } }
      if s.mustering = false then s
      else
        let n := mfMember (ofBytes got)
        let s := if n < 256 ∧ s.fget fWLN_ROUTE_port n = 7 then s.fput fWLN_ROUTE_port n p else s
        if s.isRoot then s.addManifest got
        else match s.wln.parent with
          | some q => s.sendManifestBytes q got
          | none => s
  | some (.verdict field member) => if s.mustering then s.spreadVerdict field member else s
  | some (.notice convoy member) =>
    if s.mustered ∧ convoy = s.wln.convoy then s.convoyBreak member (fun q => if q = p then none else some member)
    else if s.mustered then s.convoyBreak (s.lostBehind p) (fun q => some (s.lostWithout q))
    else s

/-- MUSTER_FLIT. -/
def State.doMusterFlit (s : State) (p : Nat) (f : Flit) : State := s.onFlit p 9 2 f (State.takeMuster p)

/-- MUSTER_OFFSET_TIMEOUT: 100 ms after the step the offset is still too large; the manifest goes with it (R433). -/
def State.doMusterOffsetTimeout (s : State) : State :=
  if s.mustering ∧ s.wln.stepped ∧ s.wln.sentManifest = false then
    (s.advance (s.wln.steerAt + unitsPerSecond / 10)).sendOwnManifest
  else s

/-- MUSTER_ROOT_TIMEOUT: the root decides 200 ms after its MUSTER (R433). -/
def State.doMusterRootTimeout (s : State) : State :=
  if s.mustering ∧ s.isRoot then (s.advance (s.wln.musterAt + unitsPerSecond / 5)).rootDecides else s

/-- MUSTER_VERDICT_TIMEOUT: no verdict within 300 ms: field 5 and the root (R433). -/
def State.doMusterVerdictTimeout (s : State) : State :=
  if s.mustering then
    (s.advance (s.wln.musterAt + 3 * unitsPerSecond / 10)).musterEnds 5 (s.fget fWLN_STATUS_root)
  else s

/-- CONVOY_LEAVE (R434): the convoy breaks at this member; a muster in progress here ends (assumption 41). -/
def bodyConvoyLeave : CmdBody := fun _ s =>
  if s.mustered then
    let others := (List.range 256).filter (fun n => s.fget fWLN_ROUTE_port n < 4)
    ok (s.convoyBreak (others.headD (s.fget fWLN_STATUS_self)) (fun q => some (s.lostWithout q)))
  else if s.mustering then ok ((s.fput fWLN_STATUS_state 0 0).endWaits .muster .convoyRefused)
  else ok s

/-! ### Steering MER7 (R424, R433) -/

/-- MER7 steered toward the parent: the servo's terms are free values inside the slew limits (R49, R424; assumption 42). -/
def State.steer7 (s : State) : State :=
  let a := s.fresh
  let b := a.1.fresh
  b.1.merSlew 7 (clampPpb (sext 32 a.2.toNat)) (clampInt (-1000000000) 1000000000 (sext 64 b.2.toNat))

/-- The member's offset from the root: minus theta of its parent's link, plus the parent's own, which no message carries and which is
0 at the root and free elsewhere (R424; assumption 42). -/
def State.putOffset (s : State) (theta : Int) : State :=
  let r := if s.wln.hops ≤ 1 then (s, 0) else (s.fresh.1, sext 64 s.fresh.2.toNat)
  r.1.wr .WLN_TIME 0 0 (BitVec.ofInt 64 (r.2 - theta))

/-- What a completed exchange with the parent does at a member that musters or is mustered: step once, steer, and send the manifest
when the offset is within 15 ps (R424, R433). -/
def State.followParent (s : State) (p : Nat) (theta : Int) : State :=
  if s.wln.parent ≠ some p ∨ s.isRoot ∨ (s.mustering = false ∧ s.mustered = false) then s
  else
    let s := s.putOffset theta
    if s.mustered then s.steer7
    else if s.wln.merTaken then s
    else if s.wln.stepped = false then
      if s.merInUse 7 then s.merNotFree
      else
        let s := s.fput fMER_WALL_CTL_discipline 0 2
        { s.merStep 7 (s.wallAfter (theta * (fracOne : Nat) / 1000)) with wln := { s.wln with stepped := true, steerAt := s.now } }
    else if (sext 64 (s.rd .WLN_TIME).toNat).natAbs ≤ 15 then s.sendOwnManifest
    else s.steer7

/-- What a complete exchange of stamps gives, as numerators over 131,072 ps: twice the delay d in 2^-16 ns, and twice the offset
theta less the asymmetry (R423). -/
def State.exchangeTerms (s : State) (p t1 t2 t3 t4 : Nat) : Int × Int :=
  let diff (a b : Nat) : Int := sext 40 (a + 2 ^ 40 - b)
  let dd := diff t4 t1 - diff t3 t2
  let a : Int := sext 16 (s.fget fWLN_P_ASYM_asym_ps p)
  (dd * 1000, 2000 * diff t2 t1 - dd * 1000 - a * 65536)

/-- The delay and offset of a complete exchange of stamps, in ps (R423; assumption 15). -/
def State.solveExchange (s : State) (p t1 t2 t3 t4 : Nat) : State × Int × Int :=
  let x := s.exchangeTerms p t1 t2 t3 t4
  let d := s.freeQuot x.1 131072
  let th := d.1.freeQuot x.2 131072
  (th.1, d.2, th.2)

/-- A completed exchange shows in WLN_P_DELAY (R423). -/
def State.noteExchange (s : State) (p : Nat) (d theta : Int) : State :=
  let s := s.setWport p { s.wport p with timeEx := none }
  let s := s.fput fWLN_P_DELAY_delay_ps p (enc 32 d)
  s.fput fWLN_P_DELAY_theta_ps p (enc 32 (clampInt (-2147483647) 2147483647 theta))

/-- TIME_T3 completes the exchange: d and theta (R423). -/
def State.doTimeT3 (s : State) (p seq t3 : Nat) : State :=
  match (s.wport p).timeEx with
  | some { seq := q, t1 := t1, t2 := some (t2, t4) } =>
    if q ≠ seq ∨ s.wstate p ≠ wUp then s
    else
      let r := s.solveExchange p t1 t2 t3 t4
      (r.1.noteExchange p r.2.1 r.2.2).followParent p r.2.2
  | _ => s

/-! ### GO (R427) -/

/-- The low 40 bits of MER7 in 2^-16 ns, as GO carries an edge reading (R414). -/
def State.goReading (s : State) : Nat := s.odo 7 / 256 % 2 ^ 40

/-- A GO originated here: along the tree (R427, R431). -/
def State.originateGo (s : State) : State :=
  if s.mustered then
    s.treePorts.foldl (fun s p => s.sendBlock p 0x11 (s.fget fWLN_STATUS_self * 2 ^ 8 + s.goReading * 2 ^ 16)) s
  else s

/-- WLN_GO.go (R427). -/
def State.doWlnGo (s : State) : State := s.originateGo

/-- A sync edge from a port to the slip windows and acquisition units that wait for it (R427). -/
def State.offerGo (s : State) (p e40 : Nat) : State :=
  let back : Int := sext 40 (s.goReading + 2 ^ 40 - e40)
  let t : Int := (s.now : Int) - back * (unitsPerNs : Nat) / 65536
  let r (m : Nat) : Nat := (s.mer m).reading96 t / 256
  let s := (List.range 16).foldl (fun s q =>
    if s.slipSource q = some (3, p) then s.slipMessage q (r (s.pjob q).meridian) else s) s
  s.aqSync 4 p false (r 0)

/-- GO is received: passed along the tree and offered as a sync edge to slip windows and acquisition units of this port (R427). -/
def State.doGo (s : State) (p origin e40 : Nat) : State :=
  if s.linkUp p = false then s
  else if s.mustered = false then s.bump fWLN_CONV_refused
  else
    ((s.treePorts.filter (· ≠ p)).foldl (fun s q => s.sendBlock q 0x11 (origin * 2 ^ 8 + e40 * 2 ^ 16)) s).offerGo p e40

/-- MSYNC_IN_EDGE: it reaches the converters and acquisition units, and originates a GO when WLN_GO_CTL selects it (R280, R298,
R427). -/
def State.doMsyncInEdge (s : State) (rising : Bool) (t : Nat) : State :=
  let s := (s.advance t).msyncLocal rising
  if s.fget fWLN_GO_CTL_src = (if rising then 1 else 2) then s.originateGo else s

/-! ### The site-fail aggregate (R428) -/

/-- AGG from a child sets its bits; from the root it brings the convoy's, which go on down the tree (R428). -/
def State.doAgg (s : State) (p v : Nat) (fromRoot : Bool) : State :=
  if s.mustered = false ∨ s.linkUp p = false then s
  else if fromRoot then
    let s := s.fput fWLN_AGG_convoy 0 v
    (s.treePorts.filter (· ≠ p)).foldl (fun s q => s.sendBlock q 0x12 (aggContent v true)) s
  else (s.setWport p { s.wport p with agg := v }).aggChanged.haltIfDue

/-- A write of 1 clears local bits (R428). -/
def State.doWlnAggWrite (s : State) (v : Nat) : State :=
  (s.fput fWLN_AGG_local 0 (s.fget fWLN_AGG_local - Nat.land (s.fget fWLN_AGG_local) v)).aggChanged.haltIfDue

/-! ### The rows of the command table -/

/-- MS_WAYLINE_LAUNCH (R429). -/
def execMsWaylineLaunch (id : Nat) (s : State) : Host.Outcome State Fault Refusal := .next (s.doMsWaylineLaunch id)

/-- MSYNC_IN_EDGE (R280). -/
def execMsyncInEdge (rising : Bool) (instant : Nat) (s : State) : Host.Outcome State Fault Refusal :=
  .next (s.doMsyncInEdge rising instant)

/-- WAYLINE_SEND (R420). -/
def execWaylineSend (k : Packet) (s : State) : Host.Outcome State Fault Refusal := .next (s.runCommand 0x9002 bodyWaylineSend k)

/-- WAYLINE_FORWARD (R421). -/
def execWaylineForward (k : Packet) (s : State) : Host.Outcome State Fault Refusal :=
  .next (s.runCommand 0x9003 bodyWaylineForward k)

/-- MUSTER (R433). -/
def execMuster (k : Packet) (s : State) : Host.Outcome State Fault Refusal :=
  .next ((s.runCommand 0x9004 bodyMuster k).musterStarted)

/-- CONVOY_LEAVE (R434). -/
def execConvoyLeave (k : Packet) (s : State) : Host.Outcome State Fault Refusal := .next (s.runCommand 0x9005 bodyConvoyLeave k)

/-- GO (R427). -/
def execGo (p : Fin 4) (origin : BitVec 8) (e : BitVec 40) (s : State) : Host.Outcome State Fault Refusal :=
  .next (s.doGo p.val origin.toNat e.toNat)

/-- AGG (R428). -/
def execAgg (p : Fin 4) (v : BitVec 16) (fromRoot : Bool) (s : State) : Host.Outcome State Fault Refusal :=
  .next (s.doAgg p.val v.toNat fromRoot)

/-- TIME_REQ (R423). -/
def execTimeReq (p : Fin 4) (seq : BitVec 8) (arrive : Nat) (leave : Nat) (s : State) : Host.Outcome State Fault Refusal :=
  .next (s.doTimeReq p.val seq.toNat arrive leave)

/-- TIME_T2 (R423). -/
def execTimeT2 (p : Fin 4) (seq : BitVec 8) (t2 : BitVec 40) (arrive : Nat) (s : State) : Host.Outcome State Fault Refusal :=
  .next (s.doTimeT2 p.val seq.toNat t2.toNat arrive)

/-- TIME_T3 (R423). -/
def execTimeT3 (p : Fin 4) (seq : BitVec 8) (t3 : BitVec 40) (s : State) : Host.Outcome State Fault Refusal :=
  .next (s.doTimeT3 p.val seq.toNat t3.toNat)

/-- TIME_EXCHANGE_TIMER (R423). -/
def execTimeExchangeTimer (p : Fin 4) (at20fs : Nat) (s : State) : Host.Outcome State Fault Refusal :=
  .next (s.doTimeExchangeTimer p.val at20fs)

/-- LAUNCH (R429). -/
def execLaunch (p : Fin 4) (slot : Fin 16) (k : BitVec 8) (s : State) : Host.Outcome State Fault Refusal :=
  .next (s.doLaunch p.val slot.val k.toNat)

/-- MSG (R420). -/
def execMsg (p : Fin 4) (f : Flit) (s : State) : Host.Outcome State Fault Refusal := .next (s.doMsg p.val f)

/-- MSG_ACK (R420). -/
def execMsgAck (p : Fin 4) (f : Flit) (s : State) : Host.Outcome State Fault Refusal := .next (s.doMsgAck p.val f)

/-- FWD_CPL (R421). -/
def execFwdCpl (p : Fin 4) (f : Flit) (s : State) : Host.Outcome State Fault Refusal := .next (s.doFwdCpl p.val f)

/-- BULK_WR (R422). -/
def execBulkWr (p : Fin 4) (f : Flit) (s : State) : Host.Outcome State Fault Refusal := .next (s.doBulkWr p.val f)

/-- BULK_RD_REQ (R422). -/
def execBulkRdReq (p : Fin 4) (f : Flit) (s : State) : Host.Outcome State Fault Refusal := .next (s.doBulkRdReq p.val f)

/-- BULK_RD_DATA (R422). -/
def execBulkRdData (p : Fin 4) (f : Flit) (s : State) : Host.Outcome State Fault Refusal := .next (s.doBulkRdData p.val f)

/-- BULK_ACK (R422). -/
def execBulkAck (p : Fin 4) (f : Flit) (s : State) : Host.Outcome State Fault Refusal := .next (s.doBulkAck p.val f)

/-- BULK_FAULT_TIMEOUT (R422). -/
def execBulkFaultTimeout (id : Nat) (s : State) : Host.Outcome State Fault Refusal := .next (s.doBulkFaultTimeout id)

/-- MUSTER_FLIT (R433). -/
def execMusterFlit (p : Fin 4) (f : Flit) (s : State) : Host.Outcome State Fault Refusal := .next (s.doMusterFlit p.val f)

/-- MUSTER_OFFSET_TIMEOUT (R433). -/
def execMusterOffsetTimeout (s : State) : Host.Outcome State Fault Refusal := .next s.doMusterOffsetTimeout

/-- MUSTER_ROOT_TIMEOUT (R433). -/
def execMusterRootTimeout (s : State) : Host.Outcome State Fault Refusal := .next s.doMusterRootTimeout

/-- MUSTER_VERDICT_TIMEOUT (R433). -/
def execMusterVerdictTimeout (s : State) : Host.Outcome State Fault Refusal := .next s.doMusterVerdictTimeout

end Sys2Proof.Machine
end

