-- ==== Sys2Proof/Machine/ChartCommands.lean ====
section
/-! DEFINITION. Chart's commands and events: address spaces, mappings made and removed by Helm, invalidation, faults retried and
abandoned, and walks that lookahead makes (R333, R337 to R345, R349). -/

namespace Sys2Proof.Machine

/-- What a cleared fault lets go on: Wayline units held on it, and granules of DMA channels (R345, R354, R422). -/
def State.afterClear (s : State) : State := s.serveHolds.dmaFill

/-! ### Leaves of a range -/

/-- A table entry on the way to an address lies in a lost eighth, from a table of a level down, at most fuel levels (R330). -/
def State.pathLost (s : State) (dva level table : Nat) : Nat → Bool
  | 0 => false
  | fuel + 1 =>
    let a := table + 8 * (if level = 1 then bits dva 47 30 else if level = 2 then bits dva 29 21 else bits dva 20 16)
    let e := s.peek64 a
    (match s.hpaDecode a with
      | some (ch, x) => s.isLost ch x
      | none => false) || (bitAt e 0 && !bitAt e 1 && State.pathLost s dva (level + 1) (bits e 43 8 * 256) fuel)

/-- The status of a command whose walk came back poisoned (R321, R330). -/
def State.walkStatus (s : State) (space dva : Nat) : Status :=
  if s.pathLost dva 1 (s.fget fCHT_AS_ROOT_hpa space) 3 then .segmentLost else .memPoison

/-- The leaves that cover any byte of a range: page base and page size as a power of two; the status of the first table read that came
back poisoned, and whether a byte of the range has no leaf. At most fuel pages or holes. -/
def State.leavesFrom (s : State) (space x last : Nat) : Nat → State × List (Nat × Nat) × Option Status × Bool
  | 0 => (s, [], none, false)
  | fuel + 1 =>
    if last ≤ x then (s, [], none, false)
    else match s.walk .bulk space x with
      | (s, .leaf pb _ _) =>
        let base := x / 2 ^ pb * 2 ^ pb
        let r := State.leavesFrom s space (base + 2 ^ pb) last fuel
        (r.1, (base, pb) :: r.2.1, r.2.2.1, r.2.2.2)
      | (s, .fault kind level _) =>
        let pb := leafBits (if level = 0 then 1 else level)
        let r := State.leavesFrom s space (x / 2 ^ pb * 2 ^ pb + 2 ^ pb) last fuel
        (r.1, r.2.1, if kind = kTablePoison then some (s.walkStatus space x) else r.2.2.1, true)

/-- The leaves of a range of a space. -/
def State.leaves (s : State) (space dva n : Nat) : State × List (Nat × Nat) × Option Status × Bool :=
  s.leavesFrom space dva (dva + n) (n / 65536 + 2)

/-! ### What a running leg protects (R339) -/

/-- The regions of a running leg's job: route image, stream ring, total and CT capture, first-fail table, context area (R339). -/
def State.legRegions (s : State) (p : Nat) : List (Nat × Nat) :=
  let j := s.pjob p
  let d := (s.pilot p).strDesc
  [(j.route, hdrField (s.pilot p).hdr 0x10 8)] ++ (if j.streams then [(strBase d, strPages d * 65536)] else []) ++
  (if j.tcBytes = 0 then [] else [(j.tcBase, j.tcBytes)]) ++ (if j.ctBytes = 0 then [] else [(j.ctBase, j.ctBytes)]) ++
  [(j.ffTable, 1536), (j.ctx, 4096)]

/-- The regions of a space that R339 protects now. -/
def State.protectedRegions (s : State) (space : Nat) : List (Nat × Nat) :=
  ((List.range 16).filter (fun p => s.legRuns p && (s.pjob p).aspace == space)).flatMap s.legRegions ++
  (s.acqBusy.filter (fun u => (s.aqRegion u).1 == space)).map (fun u => (s.aqRegion u).2)

/-- A leaf covers a protected byte (R339). -/
def State.leafProtected (s : State) (space : Nat) (leaf : Nat × Nat) : Bool :=
  (s.protectedRegions space).any (fun r => decide (leaf.1 < r.1 + r.2 ∧ r.1 < leaf.1 + 2 ^ leaf.2))

/-! ### Tables (R334, R335, R337) -/

/-- A table entry written by Helm and acknowledged. -/
def State.putEntry (s : State) (a e : Nat) : State := (s.hbmWrite portHP .bulk a (bytesOf 8 e)).settleWrites

/-- A new table in the system map, its entries all zero: 4 KiB blocks are taken from the top of the map downward (DESIGN CHOICE,
assumption 43). -/
def State.newTable (s : State) : State × Nat :=
  let a := 15 * 2 ^ 40 + ((s.mapSpec 15).size - 4096 * (s.chart.tables + 1))
  let s := { s with chart := { s.chart with tables := s.chart.tables + 1 } }
  ((s.hbmWrite portHP .bulk a (List.replicate 4096 0)).settleWrites, a)

/-- The index of a DVA at a level (R334). -/
def tableIndex (dva level : Nat) : Nat :=
  if level = 1 then bits dva 47 30 else if level = 2 then bits dva 29 21 else bits dva 20 16

/-- A leaf put at its level below a table; tables on the way are allocated where there is none (R335, R337). -/
def State.putLeaf (s : State) (dva level table target leaf : Nat) : Nat → State
  | 0 => s
  | fuel + 1 =>
    let a := table + 8 * tableIndex dva level
    if target ≤ level then s.putEntry a leaf
    else
      let r := s.hbmRead64 portHP .bulk a
      if bitAt r.2.1 0 ∧ bitAt r.2.1 1 = false then State.putLeaf r.1 dva (level + 1) (bits r.2.1 43 8 * 256) target leaf fuel
      else
        let t := r.1.newTable
        State.putLeaf (t.1.putEntry a (1 + t.2)) dva (level + 1) t.2 target leaf fuel

/-- The leaf entry of a page (R335). -/
def leafEntry (perm hpa : Nat) : Nat := 3 + perm * 4 + hpa

/-- An entry that memory holds points to a table (R335). -/
def pointsOn (e : Nat) : Bool := bitAt e 0 && !bitAt e 1

/-- The tables that a page at a level needs and that are not there, by level and the DVA bits that lead to them (R334). -/
def State.tablesFor (s : State) (root dva level : Nat) : List (Nat × Nat) :=
  let e1 := s.peek64 (root + 8 * tableIndex dva 1)
  let e2 := s.peek64 (bits e1 43 8 * 256 + 8 * tableIndex dva 2)
  if level = 1 then []
  else if pointsOn e1 = false then (2, walkIndex dva 1) :: (if level = 3 then [(3, walkIndex dva 2)] else [])
  else if level = 3 ∧ pointsOn e2 = false then [(3, walkIndex dva 2)]
  else []

/-- The system map has room for the tables that mapping n pages needs beyond those there; where it has none, no status is named, and
the model answers as for a range that cannot be mapped (DESIGN CHOICE, assumption 43). -/
def State.tableRoom (s : State) (root dva level pages : Nat) : Bool :=
  let need := ((List.range pages).flatMap (fun i => s.tablesFor root (dva + i * 2 ^ leafBits level) level)).eraseDups.length
  decide (4096 * (s.chart.tables + need) ≤ (s.mapSpec 15).size)

/-- CHART_MAP (R337 to R339): a range that breaks R334 to R336 writes nothing. -/
def bodyChartMap : CmdBody := fun k s =>
  let space := u8 k 0
  let level := 3 - u8 k 1
  let pb := leafBits level
  let dva := u64 k 8
  let hpa := u64 k 16
  let n := u64 k 24
  let pages := n / 2 ^ pb
  if 252 ≤ space ∨ 2 < u8 k 1 ∨ 3 < u8 k 2 then fail s .paramInvalid
  else if s.spaceValid space = false ∨ n = 0 ∨ dva % 2 ^ pb ≠ 0 ∨ hpa % 2 ^ pb ≠ 0 ∨ n % 2 ^ pb ≠ 0 ∨
      2 ^ (30 + s.spaceSpan space) < dva + n ∨ 2 ^ 44 < hpa + n then fail s .chartRange
  else if (List.range pages).any (fun i => s.badEntry level (leafEntry (u8 k 2) (hpa + i * 2 ^ pb))) ∨ s.tableRoom (s.fget fCHT_AS_ROOT_hpa space) dva level pages = false then
    fail s .chartRange
  else
    let r := s.leaves space dva n
    if let some st := r.2.2.1 then fail r.1 st
    else if r.2.1.any (r.1.leafProtected space) then fail r.1 .chartBusy
    else
      let root := r.1.fget fCHT_AS_ROOT_hpa space
      let s := (List.range pages).foldl (fun (s : State) i =>
        s.putLeaf (dva + i * 2 ^ pb) 1 root level (leafEntry (u8 k 2) (hpa + i * 2 ^ pb)) 3) r.1
      ok (s.retryRange space dva n).afterClear

/-- The leaf at a DVA removed from its table: its entry becomes 0 (R335). -/
def State.dropLeaf (s : State) (dva level table : Nat) : Nat → State
  | 0 => s
  | fuel + 1 =>
    let a := table + 8 * tableIndex dva level
    let r := s.hbmRead64 portHP .bulk a
    if bitAt r.2.1 0 = false then r.1
    else if bitAt r.2.1 1 then r.1.putEntry a 0
    else State.dropLeaf r.1 dva (level + 1) (bits r.2.1 43 8 * 256) fuel

/-- CHART_UNMAP (R337 to R339): the range consists of whole leaf pages, none of them protected. It completes once the accesses made so
far are acknowledged or have their data. -/
def bodyChartUnmap : CmdBody := fun k s =>
  let space := u8 k 0
  let dva := u64 k 8
  let n := u64 k 24
  if 252 ≤ space then fail s .paramInvalid
  else if s.spaceValid space = false ∨ 2 ^ 48 < dva + n then fail s .chartRange
  else
    let r := s.leaves space dva n
    if let some st := r.2.2.1 then fail r.1 st
    else if r.2.2.2 ∨ r.2.1.any (fun l => decide (l.1 < dva ∨ dva + n < l.1 + 2 ^ l.2)) then fail r.1 .chartRange
    else if r.2.1.any (r.1.leafProtected space) then fail r.1 .chartBusy
    else
      let root := r.1.fget fCHT_AS_ROOT_hpa space
      let s := r.2.1.foldl (fun (s : State) l => s.dropLeaf l.1 1 root 3) r.1
      ok ((s.tlbDrop space dva n).settleWrites.retryRange space dva n).afterClear

/-- Cached entries of a range dropped, the accesses made so far acknowledged or their data returned, and the range's faults retried; with
all, those of every space (R338). -/
def State.invalidate (s : State) (all : Bool) (space dva n : Nat) : State :=
  if all then
    let s := ({ s with chart := { s.chart with tlb := [], cached := [] } } : State).settleWrites
    ((List.range 64).foldl (fun (s : State) i => (s.retryFault i).1) s).afterClear
  else ((s.tlbDrop space dva n).settleWrites.retryRange space dva n).afterClear

/-- CHART_INVALIDATE (R338). -/
def bodyChartInvalidate : CmdBody := fun k s =>
  if 1 < u8 k 1 then fail s .paramInvalid
  else ok (s.invalidate (u8 k 1 == 1) (u8 k 0) (u64 k 8) (u64 k 24))

/-- CHT_INV_GO: a write of go invalidates the range that the CHT_INV registers give (R338). -/
def State.doChtInvGo (s : State) : State :=
  s.invalidate (s.fbit fCHT_INV_SPACE_all) (s.fget fCHT_INV_SPACE_space) (s.fget fCHT_INV_START_start) (s.fget fCHT_INV_LEN_len)

/-- CHART_RETRY (R345). -/
def bodyChartRetry : CmdBody := fun k s =>
  match s.slotOfId (u16 k 0) with
  | none => fail s .chartNoFault
  | some (i, _) => match s.retryFault i with
    | (s, 0) => ok s.afterClear
    | (s, kind) => fail s .chartFault kind

/-- CHART_ABANDON (R349): a DMA descriptor ends with status 1 and its channel stops; a Wayline unit fails. -/
def bodyChartAbandon : CmdBody := fun k s =>
  match s.slotOfId (u16 k 0) with
  | none => fail s .chartNoFault
  | some (i, f) =>
    if f.source < 16 then fail s .chartBusy
    else
      let s := s.setSlot i none
      if f.source < 32 then ok (s.dmaEnds (f.source - 16) 1 3)
      else ok (s.failHolds (u16 k 0))

/-- A space is named by an accepted job, an active DMA descriptor, the enabled BAR2 window or an acquisition unit that is not
idle (R333). -/
def State.spaceBusy (s : State) (space : Nat) : Bool :=
  s.acceptedJobs.any (fun e => e.2.aspace == space) ||
  s.dmaDescs.any (fun d => (dmaSides d).any (fun a => a.1 == space)) ||
  (s.fbit fCHT_BAR2_CTL_en && s.fget fCHT_BAR2_CTL_space == space) ||
  s.acqBusy.any (fun u => s.fget fACQ_CTL_aspace u == space)

/-- ASPACE_SET (R333). The cached entries of the space go with its old tables. -/
def bodyAspaceSet : CmdBody := fun k s =>
  let space := u8 k 0
  let span := u8 k 2
  let root := u64 k 8
  if 252 ≤ space ∨ 1 < u8 k 1 ∨ 31 < span ∨ 16384 ≤ u16 k 4 ∨ 2 ^ 44 ≤ root ∨ root % max 256 (2 ^ (3 + min span 18)) ≠ 0 then
    fail s .paramInvalid
  else if s.spaceBusy space then fail s .chartBusy
  else
    let s := ((s.fput fCHT_AS_CTL_valid space (u8 k 1)).fput fCHT_AS_CTL_span space span).fput fCHT_AS_CTL_fault_q space (u16 k 4)
    ok ((s.fput fCHT_AS_ROOT_hpa space root).tlbDrop space 0 (2 ^ 48))

/-- WALK_COMPLETE: a walk for a source completes, once Chart has issued it: it asks for the walk first where nothing has, and waits
while 64 others are in flight (R334, R340, R341, R343 to R347, R354). -/
def State.doWalkComplete (s : State) (source space dva : Nat) (write : Bool) : State :=
  let w : WalkReq := ⟨source, space, dva / 65536 * 65536, write⟩
  if s.walkKnown w then s
  else
    let s := if s.chart.asked.any w.same || s.chart.walks.any w.same then s else s.askWalks [w]
    if s.chart.walks.any w.same then s.completeWalk { w with dva := dva } else s

/-! ### The rows of the command table -/

/-- WALK_COMPLETE (R334). -/
def execWalkComplete (source : Fin 35) (space : BitVec 8) (dva : BitVec 64) (write : Bool) (s : State) : Host.Outcome State Fault Refusal :=
  .next (s.doWalkComplete source.val space.toNat dva.toNat write)

/-- ASPACE_SET (R333). -/
def execAspaceSet (k : Packet) (s : State) : Host.Outcome State Fault Refusal := .next (s.runCommand 0x1006 bodyAspaceSet k)

/-- CHART_MAP (R337). -/
def execChartMap (k : Packet) (s : State) : Host.Outcome State Fault Refusal := .next (s.runCommand 0x1007 bodyChartMap k)

/-- CHART_UNMAP (R338). -/
def execChartUnmap (k : Packet) (s : State) : Host.Outcome State Fault Refusal := .next (s.runCommand 0x1008 bodyChartUnmap k)

/-- CHART_INVALIDATE (R338). -/
def execChartInvalidate (k : Packet) (s : State) : Host.Outcome State Fault Refusal :=
  .next (s.runCommand 0x1009 bodyChartInvalidate k)

/-- CHART_RETRY (R345). -/
def execChartRetry (k : Packet) (s : State) : Host.Outcome State Fault Refusal := .next (s.runCommand 0x100A bodyChartRetry k)

/-- CHART_ABANDON (R349). -/
def execChartAbandon (k : Packet) (s : State) : Host.Outcome State Fault Refusal := .next (s.runCommand 0x100B bodyChartAbandon k)

end Sys2Proof.Machine
end

