-- ==== Sys2Proof/Machine/Switchyard.lean ====
section
/-! DEFINITION. The Switchyard: the operations that harts write, switching, ticks and the delay list (R381 to R389, R498); and the
Depot's host side: queue doorbell pages, mirrors, enabling and disabling (R397 to R400). -/

namespace Sys2Proof.Machine

/-! ### Operations of harts (R385) -/

/-- The result of an operation in SWY_H_RES. -/
def State.opResult (s : State) (h code flags : Nat) : State := (s.fput fSWY_H_RES_code h code).fput fSWY_H_RES_flags h flags

/-- The task that runs on a hart, if one still does. -/
def State.runningTask (s : State) (h : Nat) : Option Nat := if (s.hart h).left then none else (s.hart h).cur

/-- The current task leaves running; the operation answers with a code (R385). -/
def State.leaveHart (s : State) (h code : Nat) : State := (s.setHart h { s.hart h with left := true }).opResult h code 0

/-- A task slot freed: it is in no queue and no list (R385). -/
def State.freeTask (s : State) (t : Nat) : State :=
  let s := { s with swy := { s.swy with ready := s.swy.ready.filter (· ≠ t), delays := s.swy.delays.filter (· ≠ t) } }
  s.setTask t {}

/-- A task's held post discarded (R385). -/
def State.dropHeldPost (s : State) (t : Nat) : State :=
  if (s.task t).st = .held then
    let q := (s.task t).queue
    s.setDq q { s.dq q with held := (s.dq q).held.filter (fun x => x.1 != .task t) }
  else s

/-- Every operation first ends a task that was deleted while running, with code 7 (R385). -/
def State.hartOp (s : State) (h : Nat) (f : State → State) : State :=
  match s.runningTask h with
  | some t => if (s.task t).deleted then (s.freeTask t).leaveHart h 7 else f s
  | none => f s

/-- An operation of the hart's own task; without one it is invalid, code 5 (assumption 44). -/
def State.ownOp (s : State) (h : Nat) (f : Nat → State → State) : State :=
  s.hartOp h (fun s => match s.runningTask h with
    | some t => f t s
    | none => s.opResult h 5 0)

/-- An operation that names a task: code 4 outside the hart's range (R381). -/
def State.taskOp (s : State) (h t : Nat) (f : State → State) : State :=
  s.hartOp h (fun s => if mayManage h t then f s else s.opResult h 4 0)

/-- CREATE: a free slot becomes ready; code 5 if it is in use. -/
def State.doCreate (s : State) (h t prio : Nat) : State :=
  s.taskOp h t (fun s =>
    if (s.task t).st = .free then ((s.setTask t { prio := prio }).makeReady t).opResult h 0 0 else s.opResult h 5 0)

/-- DELETE: the slot is freed and a held post discarded; a running task ends at its next operation. A free slot is code 5
(assumption 44). -/
def State.doDelete (s : State) (h t : Nat) : State :=
  s.taskOp h t (fun s =>
    match (s.task t).st with
    | .free => s.opResult h 5 0
    | .running => (s.setTask t { s.task t with deleted := true }).opResult h 0 0
    | _ => ((s.dropHeldPost t).freeTask t).opResult h 0 0)

/-- SET_PRIO: a ready task moves to the tail of its new queue. -/
def State.doSetPrio (s : State) (h t prio : Nat) : State :=
  s.taskOp h t (fun s =>
    if (s.task t).st = .free then s.opResult h 5 0
    else
      let s := s.setTask t { s.task t with prio := prio }
      let s := if (s.task t).st = .ready then
          { s with swy := { s.swy with ready := s.swy.ready.filter (· ≠ t) ++ [t] } }
        else s
      s.opResult h 0 0)

/-- SET_FLAGS: flags or mask, and the wake that follows (R385, R387). -/
def State.doSetFlags (s : State) (h t mask : Nat) : State :=
  s.taskOp h t (fun s => if (s.task t).st = .free then s.opResult h 5 0 else (s.setFlags t mask).opResult h 0 0)

/-- CLEAR_FLAGS: own flags and not mask. -/
def State.doClearFlags (s : State) (h mask : Nat) : State :=
  (s.fput fSWY_H_ARG_mask h mask).ownOp h (fun t s =>
    (s.setTask t { s.task t with flags := (s.task t).flags - Nat.land (s.task t).flags mask }).opResult h 0 0)

/-- The MER0 reading of the d-th tick from now (R389). -/
def State.tickReading (s : State) (d : Nat) : Nat := s.fget fSWY_TICK_LAST_cycles + d * s.swy.period

/-- A task put into the delay list, which stays sorted by expiry and then insertion (R389). -/
def State.delayInsert (s : State) (t expiry : Nat) : State :=
  let s := s.setTask t { s.task t with exp := expiry }
  let before := s.swy.delays.takeWhile (fun k => decide ((s.task k).exp ≤ expiry))
  let after := s.swy.delays.dropWhile (fun k => decide ((s.task k).exp ≤ expiry))
  { s with swy := { s.swy with delays := before ++ [t] ++ after } }

/-- WAIT: at once when the test holds, else the task waits, with a timeout if ticks are given (R387). -/
def State.doWait (s : State) (h mask : Nat) (all consume : Bool) (ticks : Nat) : State :=
  ((s.fput fSWY_H_ARG_mask h mask).fput fSWY_H_ARG_ticks h ticks).ownOp h (fun t s =>
    if mask = 0 then s.opResult h 5 0
    else
      let k := s.task t
      if waitHolds k.flags mask all then
        let hit := Nat.land k.flags mask
        (s.setTask t { k with flags := if consume then k.flags - hit else k.flags }).opResult h 0 hit
      else
        let s := s.setTask t { k with st := .waiting, mask := mask, all := all, consume := consume, resDue := true }
        (if ticks = 0 then s else s.delayInsert t (s.tickReading ticks)).leaveHart h 2)

/-- DELAY: delayed until the expiry; code 2 (R389). -/
def State.doDelay (s : State) (h ticks : Nat) : State :=
  (s.fput fSWY_H_ARG_ticks h ticks).ownOp h (fun t s =>
    if ticks = 0 then s.opResult h 5 0
    else ((s.setTask t { s.task t with st := .delayed, resDue := true }).delayInsert t (s.tickReading ticks)).leaveHart h 2)

/-- YIELD: the task rejoins the tail of its ready queue; code 2. -/
def State.doYield (s : State) (h : Nat) : State :=
  s.ownOp h (fun t s =>
    ((s.leaveHart h 2).setTask t { s.task t with resCode := 0, resFlags := 0, resDue := true }).makeReady t)

/-- SWY_H_MSG of a hart as one number of 256 bytes. -/
def State.hartMsg (s : State) (h : Nat) : Nat := ((List.range 32).map (fun k => (s.rd .SWY_H_MSG h k).toNat * 2 ^ (64 * k))).sum

/-- The first n bytes of SWY_H_MSG replaced. -/
def State.putHartMsg (s : State) (h n v : Nat) : State :=
  (List.range (n / 8)).foldl (fun s k => s.wr .SWY_H_MSG h k (BitVec.ofNat 64 (v / 2 ^ (64 * k)))) s

/-- POST: the first element-size bytes of SWY_H_MSG to a queue (R386). -/
def State.doPost (s : State) (h q msg : Nat) : State :=
  (s.putHartMsg h 256 msg).ownOp h (fun t s =>
    if s.qOn q = false ∨ bitAt (s.fget fDPT_Q_CTL_prod q) 1 = false then s.opResult h 5 0
    else if 2 ≤ h ∧ q < 1024 then s.opResult h 4 0
    else
      let full := decide (s.qCap q ≤ (s.dq q).elems.length) || (s.dq q).held != []
      if full ∧ s.fget fDPT_Q_CTL_cons q = 0 ∧ s.fget fDPT_Q_OWNER_owner q = t then s.opResult h 6 0
      else match s.commit q (.task t) (s.qElem q) (msg % 2 ^ (8 * s.qElem q)) with
        | (s, .accepted) => s.opResult h 0 0
        | (s, .held) => (s.setTask t { s.task t with st := .held, queue := q, resDue := true }).leaveHart h 2
        | (s, _) => s.opResult h 5 0)

/-- TAKE: the oldest element of a queue that the task consumes moves into SWY_H_MSG (R385, R386). -/
def State.doTake (s : State) (h q : Nat) : State :=
  s.ownOp h (fun t s =>
    if s.qOn q = false then s.opResult h 5 0
    else if s.fget fDPT_Q_CTL_cons q ≠ 0 ∨ s.fget fDPT_Q_OWNER_owner q ≠ t then s.opResult h 4 0
    else match s.qTake q with
      | none => s.opResult h 3 0
      | some (e, s) => (s.putHartMsg h (s.qElem q) e).opResult h 0 0)

/-- EXIT: the own slot is freed; code 2. -/
def State.doExit (s : State) (h : Nat) : State := s.ownOp h (fun t s => (s.freeTask t).leaveHart h 2)

/-- A running task rejoins the head of the ready queue (R383, R384). -/
def State.rejoin (s : State) (t : Nat) : State :=
  let s := s.setTask t { s.task t with st := .ready }
  { s with swy := { s.swy with ready := t :: s.swy.ready } }

/-- A hart runs a task. A task that left running by code 2 finds its final code in SWY_H_RES (R385). -/
def State.runTask (s : State) (h t : Nat) : State :=
  let k := s.task t
  let s := { s with swy := { s.swy with ready := s.swy.ready.filter (· ≠ t) } }
  let s := s.setTask t { k with st := .running, hart := h, resDue := false }
  let s := s.setHart h { cur := some t }
  if k.resDue then s.opResult h k.resCode k.resFlags else s

/-- A hart that is at a switch takes the next task that may run on it, or none (R384). -/
def State.runNext (s : State) (h : Nat) : State :=
  match s.nextTask h with
  | none => s.setHart h {}
  | some t => s.runTask h t

/-- SWY_H_SWITCH: the interrupt ends, a task still running rejoins the head of its queue, and the next task is chosen
(R383, R384). -/
def State.doSwitch (s : State) (h : Nat) : State :=
  match s.runningTask h with
  | some t =>
    let s := (s.rejoin t).runNext h
    if (s.task t).st = .ready then s.dispatchFor t else s
  | none => s.runNext h

/-! ### Ticks (R388, R389) -/

/-- SWITCHYARD_TICK: the next tick, one period after the last; a period that waits is in force from it on (R388; assumption 45). -/
def State.doSwitchyardTick (s : State) : State :=
  let t := s.tickReading 1
  let s := (s.advance (s.mer0Instant t)).fput fSWY_TICK_LAST_cycles 0 t
  { s with swy := { s.swy with period := s.swy.newPeriod.getD s.swy.period, newPeriod := none } }

/-- An entry leaves the delay list at its expiry: a delayed task is ready with code 0, a waiting one with code 1 (R387, R389). -/
def State.expire (s : State) (t : Nat) : State :=
  let k := s.task t
  (s.setTask t { k with resCode := if k.st = .waiting then 1 else 0, resFlags := 0 }).makeReady t

/-- DELAY_EXPIRY: entries leave the delay list in order, up to the one named, if the last tick has reached its expiry (R389). -/
def State.doDelayExpiry (s : State) (t : Nat) : State :=
  if s.swy.delays.contains t ∧ (s.task t).exp ≤ s.fget fSWY_TICK_LAST_cycles then
    ((s.swy.delays.takeWhile (· ≠ t)) ++ [t]).foldl State.expire s
  else s

/-- A write of the tick period: checked, and in force from the tick after the next one (R388). -/
def State.doSwyTickWrite (s : State) (v : Nat) : State :=
  let p := bits v 20 0
  if 400 ≤ p ∧ p ≤ 1600000 ∧ p % 8 = 0 then
    { s.fput fSWY_TICK_period 0 p with swy := { s.swy with newPeriod := some p } }
  else s.fput fSWY_STATUS_tick_err 0 1

/-! ### Doorbell pages and mirrors of queues (R397, R398) -/

/-- Bytes put into a number at a byte offset, bytes at or beyond a limit ignored. -/
def putBytes (v off limit : Nat) : List Byte → Nat
  | [] => v
  | b :: r => putBytes (if off < limit then setBits v (8 * off + 7) (8 * off) b.toNat else v) (off + 1) limit r

/-- A write to the element window of a queue's page: staged, and committed with the element's last byte (R398). The queue pages
share one staging buffer, which is cleared at each commit as a ring's is (R362). -/
def State.queueWindow (s : State) (q off : Nat) (bs : List Byte) : State :=
  if 256 ≤ q ∧ q < 512 then s.bump fDPT_Q_CNT_refused q
  else
    let s := if s.depot.staged ∧ s.depot.stageQ ≠ q then
        { s.fput fDPT_STATUS_stage_lost 0 1 with depot := { s.depot with stage := 0, staged := false } }
      else s
    let size := s.qElem q
    let v := putBytes s.depot.stage off size bs
    if off < size ∧ size ≤ off + bs.length then
      (State.commit { s with depot := { s.depot with stage := 0, staged := false, stageQ := q } } q .host size v).1
    else if off < size then { s with depot := { s.depot with stage := v, staged := true, stageQ := q } }
    else s

/-- The host's consumed count releases mirror slots (R397). -/
def State.doMirrorConsumed (s : State) (q v : Nat) : State := s.fput fDPT_Q_MIR_PTR_released q v

/-- A host write to a queue's doorbell page (R398). -/
def State.queuePage (s : State) (q off : Nat) (bs : List Byte) : State :=
  if q = 0 ∨ 16384 ≤ q then s
  else if off < 0x100 then s.queueWindow q off bs
  else if off = 0x300 ∧ 4 ≤ bs.length then s.doMirrorConsumed q (ofBytes (bs.take 4))
  else s

/-- TRUNCATION_MARKER: a dropping queue that has drained gets its marker (R209, R210). -/
def State.doTruncationMarker (s : State) (q : Nat) : State := s.qMark q

/-! ### Enabling and disabling (R391, R392, R400) -/

/-- The queues that an accepted job names: its own, and its stream's (R213, R187). -/
def State.jobNames (s : State) (j : Nat) (q : Nat) : Bool :=
  let b := s.job j
  (List.range 16).any (fun k => b.queue k == q) || b.faultQ == q || b.captureQ == q || b.statusQ == q ||
  (List.range 48).any (fun k => b.logQueue k == q) ||
  (b.streams && (s.pilot b.pilot).job == j && (strFillQ (s.pilot b.pilot).strDesc == q || strRelQ (s.pilot b.pilot).strDesc == q))

/-- A configuration in force names the queue (R400). -/
def State.queueBound (s : State) (q : Nat) : Bool :=
  q != 0 &&
  ((List.range 256).any (fun r => s.fbit fHLM_RING_CFG_exists r && (q == 256 + r || q == 512 + r)) ||
   s.acceptedJobs.any (fun e => s.jobNames e.1 q) ||
   (List.range 16).any (fun c => s.fbit fDMA_CH_CTL_run c && (s.fget fDMA_CH_CTL_ring_q c == q || s.fget fDMA_CH_CTL_cpl_q c == q)) ||
   (List.range 52).any (fun c => s.fbit fSXT_CH_CTL_stream_en c && s.fget fSXT_CH_QUEUE_queue c == q) ||
   (List.range 26).any (fun u => s.fbit fSXT_MU_CTL_run u && s.fget fSXT_MU_QUEUE_queue u == q) ||
   (s.fbit fADC_QUEUE_post_en && s.fget fADC_QUEUE_queue == q) ||
   s.acqBusy.any (fun u => s.fget fACQ_QUEUE_queue u == q) ||
   (s.fbit fMEM_EVQ_enable && s.fget fMEM_EVQ_queue == q) || s.fget fTHM_EVQ_queue == q ||
   (List.range 256).any (fun a => s.fbit fCHT_AS_CTL_valid a && s.fget fCHT_AS_CTL_fault_q a == q) ||
   (s.fbit fETH_CTL_en && (s.fget fETH_TXQ_queue == q || s.fget fETH_TXQ_cpl_q == q)))

/-- SRAM allocated to enabled queues, in units of 64 bytes (R393). -/
def State.sramUsed (s : State) : Nat :=
  (s.regs.map (fun e => if e.1.id = .DPT_Q_CTL ∧ bits e.2.toNat 0 0 = 1 ∧ bits e.2.toNat 21 17 ≠ 0 then
    2 ^ bits e.2.toNat 21 17 / 64 else 0)).sum

/-- A descriptor as written passes R391 and R392, and names a consumer that the queue may have (R400). -/
def queueShapeOk (v : Nat) : Bool :=
  let elem := bits v 11 9
  let size := bits v 16 12
  let sram := bits v 21 17
  let prod := bits v 5 3
  decide (elem ≤ 4 ∧ 6 ≤ size ∧ size ≤ 30 ∧ 16 * 2 ^ elem ≤ 2 ^ size ∧ (sram = 0 ∨ (6 ≤ sram ∧ sram ≤ 16 ∧ sram ≤ size)) ∧
    (bitAt prod 2 = false ∨ prod = 4) ∧ bits v 8 6 ≠ 4 ∧ bits v 8 6 < 6)

/-- The backing region is aligned to the size and lies wholly in one valid map other than map 15 (R391, R400). -/
def State.backingOk (s : State) (hpa size : Nat) : Bool :=
  let m := bits hpa 43 40
  decide (hpa % size = 0 ∧ m ≠ 15) && s.mapValid m && decide (bits hpa 39 0 + size ≤ (s.mapSpec m).size)

/-- Every check of a write of en = 1 (R400). -/
def State.queueFits (s : State) (q v : Nat) : Bool :=
  queueShapeOk v && s.backingOk (s.fget fDPT_Q_BASE_hpa q) (2 ^ bits v 16 12) &&
  decide (s.sramUsed + (if bits v 21 17 = 0 then 0 else 2 ^ bits v 21 17 / 64) ≤ 131072)

/-- A held sender released by the disabling of its queue: a task gets code 5, a Wayline message MSG_ACK status 2 (R400, R420). -/
def State.releaseSender (s : State) (w : Sender) : State :=
  match w with
  | .task t => s.releaseTask t 5
  | .block => s
  | .dma _ => s
  | .wayline p ack => (s.owe p 0).sendFlit p { ack with word := 2 }

/-- An unbound queue disabled: its elements are discarded, its senders released, head and tail are 0 (R400). -/
def State.disableQueue (s : State) (q : Nat) : State :=
  let held := (s.dq q).held
  let s := ((s.fput fDPT_Q_CTL_en q 0).setDq q {}).rstAll [.DPT_Q_TAIL, .DPT_Q_HEAD] q
  held.foldl (fun s w => s.releaseSender w.1) s

/-- A write of DPT_Q_CTL (R390, R400). -/
def State.doDptQCtlWrite (s : State) (q v : Nat) : State :=
  let cur := (s.rd .DPT_Q_CTL q).toNat
  if q < 1024 then s
  else if bits cur 0 0 = 1 then
    let s := if bits v 21 3 = bits cur 21 3 then s else s.fput fDPT_STATUS_cfg_drop 0 1
    if v % 2 = 1 then s
    else if s.queueBound q then s.fput fDPT_STATUS_cfg_drop 0 1
    else s.disableQueue q
  else
    let s := s.wr .DPT_Q_CTL q 0 (BitVec.ofNat 64 (setBits (setBits cur 21 3 (bits v 21 3)) 0 0 0))
    if v % 2 = 0 then s
    else if s.queueFits q v then
      (s.rstAll [.DPT_Q_TAIL, .DPT_Q_HEAD, .DPT_Q_MIR_PTR] q).fput fDPT_Q_CTL_en q 1
    else s.fput fDPT_STATUS_q_err 0 1

/-! ### The rows of the command table -/

/-- TRUNCATION_MARKER (R209). -/
def execTruncationMarker (q : QueueNo) (s : State) : Host.Outcome State Fault Refusal := .next (s.doTruncationMarker q.val)

/-- CREATE (R385). -/
def execCreate (h : Fin 4) (t : BitVec 12) (prio : BitVec 6) (s : State) : Host.Outcome State Fault Refusal :=
  .next (s.doCreate h.val t.toNat prio.toNat)

/-- DELETE (R385). -/
def execDelete (h : Fin 4) (t : BitVec 12) (s : State) : Host.Outcome State Fault Refusal := .next (s.doDelete h.val t.toNat)

/-- SET_PRIO (R385). -/
def execSetPrio (h : Fin 4) (t : BitVec 12) (prio : BitVec 6) (s : State) : Host.Outcome State Fault Refusal :=
  .next (s.doSetPrio h.val t.toNat prio.toNat)

/-- SET_FLAGS (R387). -/
def execSetFlags (h : Fin 4) (t : BitVec 12) (mask : BitVec 32) (s : State) : Host.Outcome State Fault Refusal :=
  .next (s.doSetFlags h.val t.toNat mask.toNat)

/-- CLEAR_FLAGS (R385). -/
def execClearFlags (h : Fin 4) (mask : BitVec 32) (s : State) : Host.Outcome State Fault Refusal :=
  .next (s.doClearFlags h.val mask.toNat)

/-- WAIT (R387). -/
def execWait (h : Fin 4) (mask : BitVec 32) (all : Bool) (consume : Bool) (ticks : BitVec 32) (s : State) : Host.Outcome State Fault Refusal :=
  .next (s.doWait h.val mask.toNat all consume ticks.toNat)

/-- DELAY (R389). -/
def execDelay (h : Fin 4) (ticks : BitVec 32) (s : State) : Host.Outcome State Fault Refusal := .next (s.doDelay h.val ticks.toNat)

/-- YIELD (R385). -/
def execYield (h : Fin 4) (s : State) : Host.Outcome State Fault Refusal := .next (s.doYield h.val)

/-- POST (R386). -/
def execPost (h : Fin 4) (q : QueueNo) (msg : BitVec 2048) (s : State) : Host.Outcome State Fault Refusal :=
  .next (s.doPost h.val q.val msg.toNat)

/-- TAKE (R385). -/
def execTake (h : Fin 4) (q : QueueNo) (s : State) : Host.Outcome State Fault Refusal := .next (s.doTake h.val q.val)

/-- EXIT (R385). -/
def execExit (h : Fin 4) (s : State) : Host.Outcome State Fault Refusal := .next (s.doExit h.val)

/-- SWY_H_SWITCH (R384). -/
def execSwyHSwitch (h : Fin 4) (s : State) : Host.Outcome State Fault Refusal := .next (s.doSwitch h.val)

/-- DELAY_EXPIRY (R389). -/
def execDelayExpiry (t : BitVec 12) (s : State) : Host.Outcome State Fault Refusal := .next (s.doDelayExpiry t.toNat)

end Sys2Proof.Machine
end

