-- ==== Sys2Proof/Machine/Live.lean ====
section
/-! DEFINITION. Registers that show the machinery behind them: the fields that a read computes from the state, beside those that
are stored (R7, R10, R30 and the register tables of each chapter). -/

namespace Sys2Proof.Machine

/-- Fields laid over a stored value: (high bit, low bit, value). -/
def overlay (v : Nat) (fs : List (Nat × Nat × Nat)) : Nat := fs.foldl (fun v f => setBits v f.1 f.2.1 f.2.2) v

/-- A mask of the numbers below n that meet a test. -/
def maskWhere (n : Nat) (p : Nat → Bool) : Nat := (List.range n).foldl (fun m k => if p k then m + 2 ^ k else m) 0

/-- The code of MER_STATUS.state. -/
def MerState.code : MerState → Nat
  | .off => 0 | .acquiring => 1 | .running => 2 | .held => 3

/-- The code of PLT_STATUS.state. -/
def PilotState.code : PilotState → Nat
  | .noJob => 0 | .between => 1 | .awaiting => 2 | .inLeg => 3 | .holding => 4 | .trap => 5 | .context => 6

/-- The code of SWY_T_STAT.state. -/
def TaskState.code : TaskState → Nat
  | .free => 0 | .ready => 1 | .running => 2 | .waiting => 3 | .delayed => 4 | .held => 5

/-- The code of DDS_ENG_STAT.state. -/
def DdsState.code : DdsState → Nat
  | .idle => 0 | .armed => 1 | .running => 2

/-- The code of ACQ_STAT.state. -/
def AcqState.code : AcqState → Nat
  | .idle => 0 | .armed => 1 | .writing => 2 | .rearming => 3

/-- A running word of a Pilot waits (PLT_STATUS.waiting): its own, or the trap service's for RESUME or RELOADED (R173). -/
def State.pilotWaits (s : State) (p : Nat) : Bool :=
  (s.pilot p).st == .trap ||
  match (s.pilot p).q.run with
  | some r => (match r.after with | .wait _ _ => true | _ => false)
  | none => false

/-- The micro-PC that PLT_STATUS shows: the vendor trap service's at 0x0010 while it waits (R173). -/
def Pilot.shownUpc (x : Pilot) : Nat := if x.st = .trap then 0x0010 else x.q.upc

/-- A task's state word (SWY_T_STAT). -/
def State.taskStat (s : State) (t : Nat) : Nat :=
  let k := s.task t
  pack [(0, 3, k.st.code), (3, 6, k.prio), (9, 2, if k.st = .running then k.hart else 0),
        (11, 14, if k.st = .held then k.queue else 0), (32, 32, k.flags)]

/-- The highest non-empty ready queue; 0 when none is (SWY_STATUS.top_prio). -/
def State.topPrio (s : State) : Nat := s.swy.ready.foldl (fun m t => max m (s.task t).prio) 0

/-- Tasks that are not free. -/
def State.tasksInUse (s : State) : Nat := (s.swy.tasks.filter (fun e => e.2.st != .free)).length

/-- Depot queues enabled (DPT_STATUS.enabled). -/
def State.queuesOn (s : State) : Nat := (s.regs.filter (fun e => e.1.id == .DPT_Q_CTL && bits e.2.toNat 0 0 == 1)).length

/-- The slots that hold an outstanding fault. -/
def State.faultMask (s : State) : Nat := maskWhere 64 (fun i => (s.slot i).isSome)

/-- The fault record of a slot with its id; 0 for a free slot (R346). -/
def State.slotRecord (s : State) (i : Nat) : Nat :=
  match s.slot i with
  | some f => faultRecord f (faultId i f.gen)
  | none => 0

/-- The bits in which what is stored under a key of a control store differs from what was written, of n bits (R168). -/
def State.csDamage (s : State) (c key n : Nat) : Nat :=
  match nget EccMark.clean key (s.cluster c).marks with
  | .clean => 0
  | .single => 2 ^ ((Config.damage c key).toNat % n)
  | .double => (Config.damage c key).toNat % 2 ^ n

/-- The stored bits of a control-store word or entry of a cluster that PLT_CS_DATA shows, uncorrected, with its check bits (R168). -/
def State.csData (s : State) (c k : Nat) : Nat :=
  let a := s.fget fPLT_CS_ADDR_addr c
  let disp := s.fbit fPLT_CS_ADDR_dispatch c
  let key := if disp then dispKey (a % 256) else a
  let v := s.csWord c key
  let chk := (Config.checkBits key (BitVec.ofNat 192 v)).toNat
  let stored := if disp then Nat.xor (v % 2 ^ 32 + chk % 128 * 2 ^ 32) (s.csDamage c key 39)
    else Nat.xor (v % 2 ^ 192 + chk * 2 ^ 192) (s.csDamage c key 201)
  -- a store that Binnacle has not written shows nothing (R10)
  if (s.cluster c).vendor then bits stored (64 * k + 63) (64 * k) else 0

/-- The register's stored value with its computed fields laid over it. -/
def State.live (s : State) (id : RegId) (i j : Nat) : Nat :=
  let v := (s.rd id i j).toNat
  match id with
  | .MER_STATUS => overlay v [(1, 0, (s.mer i).st.code), (2, 2, b2n (s.merInUse i)), (3, 3, b2n (s.slewing i))]
  | .MER_ADJ_PHASE => enc 32 (clampInt (-2147483647) 2147483647 ((s.mer i).phaseLeft s.now))
  | .MER_ADJ_FREQ => enc 32 (s.mer i).freqPpb
  | .MER_MS_STAT => overlay v [(12, 0, s.ms.pending.length), (13, 13, b2n (decide (4096 ≤ s.ms.pending.length)))]
  | .PIN_STATUS => s.pinStatus i
  | .PIN_TRIM => s.trimWord i
  | .PIN_SITE => match s.pinJob i with
    | some (job, _) => overlay v [(8, 8, 1), (23, 16, job)]
    | none => overlay v [(8, 8, 0), (23, 16, 0)]
  | .PLT_STATUS =>
    let x := s.pilot i
    pack [(0, 3, x.st.code), (4, 16, x.job), (20, 14, x.shownUpc), (34, 1, b2n (s.pilotWaits i))]
  | .PLT_ALU => nget 0 j (s.pilot i).q.a
  | .PLT_VL_DIGEST => if (s.cluster (i / 4)).vendor then (match (s.cluster (i / 4)).image with
      | some d => bits d (64 * j + 63) (64 * j)
      | none => (Config.vendorDigest j).toNat) else 0
  | .PLT_CS_DATA => s.csData i j
  | .PLT_SUSP =>
    let x := s.pilot i
    overlay v [(3, 0, x.suspended.length), (4, 4, b2n x.preempt.isSome), (5, 5, 0), (6, 6, 0)]
  | .PLT_SUSP_LIST => (s.restoreOrder i).foldr (fun job a => job % 256 + 256 * a) 0
  | .SXT_STATUS => overlay v [(0, 0, b2n (s.powered 30)), (1, 1, b2n (s.powered 31))]
  | .SXT_CH_STAT =>
    let x := s.sxtChan i
    overlay v [(12, 12, b2n (x.inWindow (s.sxtNow i))), (13, 13, b2n (x.armed (s.sxtNow i)))]
  | .SXT_MU_STAT => overlay v [(0, 0, b2n (s.mu i).running), (63, 32, (s.mu i).n)]
  | .DDS_STATUS => pack [(0, 1, b2n (s.powered 29)), (8, 8, maskWhere 8 (fun e => (s.ddsEng e).st == .running)),
      (16, 8, maskWhere 8 (fun e => (s.ddsEng e).st == .armed))]
  | .DDS_ENG_STAT => overlay v [(1, 0, (s.ddsEng i).st.code), (13, 2, (s.ddsEng i).entry)]
  | .ADC_STATUS => overlay v [(0, 0, b2n (s.powered 28)), (1, 1, b2n s.adc.sdT0.isSome),
      (5, 2, maskWhere 4 (fun r => (s.sar r).seqRunning)), (6, 6, b2n s.adc.held)]
  | .ADC_SAR_STAT => overlay v [(0, 0, b2n (s.sar i).conv.isSome), (1, 1, b2n (s.sar i).inj.isSome)]
  | .ACQ_STATUS => pack [(0, 4, maskWhere 4 (fun u => (s.aq u).st != .idle)), (4, 1, b2n (s.powered 28))]
  | .ACQ_STAT => overlay v [(1, 0, (s.aq i).st.code)]
  | .CHT_STATUS => overlay v [(6, 0, s.faults.length), (7, 7, 0)]
  | .CHT_AS_CTL => overlay v [(22, 22, b2n (decide (252 ≤ i)))]
  | .CHT_FLT_VALID => s.faultMask
  | .CHT_FLT => bits (s.slotRecord i) (64 * j + 63) (64 * j)
  | .DMA_STATUS => pack [(0, 16, maskWhere 16 (fun c => s.dmaState c == 1 || s.dmaState c == 2)),
      (16, 16, maskWhere 16 (fun c => s.dmaState c == 2))]
  | .DMA_SLOTS => pack [(0, 6, s.dmaFill.dmaSlots true), (8, 5, s.dmaFill.dmaSlots false)]
  | .DMA_CH_STAT => overlay v [(10, 8, (s.dmaFill.dmaCh i).flying.length)]
  | .HLM_STATUS => pack [(0, 1, b2n (s.fbit fHLM_ADM_MIRROR_en)), (1, 1, b2n s.ready), (2, 4, s.helm.hartRun)]
  | .HLM_RING_CFG => if i = 0 then overlay v [(22, 12, s.fget fHLM_ADM_VEC_vector)] else v
  | .HLM_FIX_STAT => overlay v [(0, 0, b2n s.helm.fix.isSome)]
  | .SWY_STATUS => overlay v [(12, 0, s.tasksInUse), (25, 13, s.swy.ready.length), (31, 26, s.topPrio), (44, 32, s.heldSenders),
      (57, 45, s.swy.delays.length)]
  | .SWY_T_STAT => s.taskStat i
  | .SWY_T_WAIT => pack [(0, 32, (s.task i).mask), (32, 1, b2n (s.task i).all), (33, 1, b2n (s.task i).consume)]
  | .SWY_T_EXP => (s.task i).exp
  | .SWY_H_CUR => pack [(0, 12, ((s.hart i).cur.getD 0)), (12, 1, b2n (s.runningTask i).isSome), (13, 1, b2n (s.hart i).dispatch)]
  | .DPT_STATUS => overlay v [(14, 0, s.queuesOn), (49, 32, s.sramUsed)]
  | .DPT_SPILL => s.spillBytes
  | .DPT_Q_CTL => overlay v [(2, 2, b2n (s.queueBound i))]
  | .DPT_Q_STAT =>
    let d := s.dq i
    pack [(0, 1, b2n (decide (d.inSram < d.elems.length))), (1, 1, b2n d.dropping), (2, 1, b2n (d.held != [])),
      (32, 32, d.elems.length)]
  | .BNC_BLK_STAT => overlay v [(0, 0, b2n (s.bnc.blkReset != 0))]
  | _ => v

/-- The unit under whose number a register's value is stored: the control store's registers belong to a cluster and show in the
windows of its four Pilots. -/
def RegId.unit (id : RegId) (i : Nat) : Nat :=
  match id with
  | .PLT_CS_STAT | .PLT_CS_ECC | .PLT_CS_UE_LOC | .PLT_CS_ADDR | .PLT_CS_DATA | .PLT_UC_DIGEST => i / 4
  | _ => i

end Sys2Proof.Machine
end

