-- ==== Sys2Proof/Machine/Fix.lean ====
section
/-! DEFINITION. The fix: the record that Binnacle latches and writes, and the three ways to ask for it (R374, R375, R379, R380,
R447). -/

namespace Sys2Proof.Machine

/-! ### The record (R380) -/

/-- One meridian's 16 bytes of the record. -/
def State.fixMeridian (s : State) (m : Nat) : Nat :=
  let st := s.live .MER_STATUS m 0
  pack [(0, 6, bits st 5 0), (6, 2, s.fget fMER_CTL_kind m), (16, 24, s.odo m % fracOne), (64, 64, s.odo m / fracOne)]

/-- One Pilot's 24 bytes. -/
def State.fixPilot (s : State) (p : Nat) : Nat :=
  pack [(0, 64, s.live .PLT_STATUS p 0), (64, 32, s.live .PLT_LEG_STATUS p 0), (96, 32, s.live .PLT_TRAP_STAT p 0),
        (128, 64, s.live .PLT_LEG_INDEX p 0)]

/-- The job states of the record. -/
def JobState.code : JobState → Nat
  | .undefined => 0 | .defined => 1 | .awaiting => 2 | .running => 3 | .suspended => 4 | .ended => 5

/-- One job's 2 bytes. -/
def State.fixJob (s : State) (j : Nat) : Nat :=
  let x := s.job j
  pack [(0, 3, x.st.code), (3, 4, x.pilot), (8, 4, x.endCode)]

/-- The completions of a ring that its mirror holds unreleased, modulo 2^32. -/
def State.mirrorHeld (s : State) (r : Nat) : Nat :=
  slotsHeld (s.fget fHLM_RING_CPL_posted r) (s.fget fHLM_RING_CPL_consumed r)

/-- A ring's mirror has no released slot (R363). -/
def State.mirrorFull (s : State) (r : Nat) : Bool := decide (2 ^ s.fget fHLM_RING_CFG_cpl_log2 r ≤ s.mirrorHeld r)

/-- One ring's 8 bytes. -/
def State.fixRing (s : State) (r : Nat) : Nat :=
  pack [(0, 12, s.fget fHLM_RING_STAT_taken r), (12, 12, s.fget fHLM_RING_STAT_committed r),
        (24, 1, s.fget fHLM_RING_CFG_exists r), (25, 1, b2n (decide ((s.ring r).cplWait ≠ []) && s.mirrorFull r)),
        (32, 32, s.fget fHLM_RING_LAST_last_tag r)]

/-- The firmware digests show once Binnacle's firmware runs, the vendor image's once it is loaded, a user image's while it is. -/
def State.fixDigests (s : State) : List Byte :=
  let stage := s.fget fBNC_STATUS_stage
  let show' (on : Bool) (w : Nat → Nat) : List Byte := (List.range 4).flatMap (fun k => bytesOf 8 (if on then w k else 0))
  show' (decide (1 ≤ stage)) (s.firmwareDigest 1) ++
  show' (decide (5 ≤ stage)) (s.firmwareDigest 2) ++
  show' (decide (5 ≤ stage)) s.vendorDigest ++
  (List.range 4).flatMap (fun c => show' true (fun k => (s.rd .PLT_UC_DIGEST c k).toNat))

/-- The convoy section: 64 bytes. -/
def State.fixMuster (s : State) : List Byte :=
  let own : List Byte := if s.wln.manifest = [] then List.replicate 32 0 else sha256 s.wln.manifest
  bytesOf 16 (pack [(0, 8, s.fget fWLN_STATUS_state), (16, 16, s.fget fWLN_CONV_members), (32, 16, s.fget fWLN_STATUS_self),
    (48, 16, s.fget fWLN_CONV_field), (64, 16, s.fget fWLN_CONV_member)]) ++ own ++
  bytesOf 16 (s.fget fWLN_TIME_offset_ps)

/-- Bytes 0x000 to 0x15F: identity. -/
def State.fixHead (s : State) (source ring tag crc : Nat) : List Byte :=
  bytesOf 64 (pack [(0, 32, 0x58464B50), (32, 16, 1), (48, 16, 4096), (64, 32, crc), (96, 32, s.helm.fixSeq),
    (128, 64, s.mer0), (192, 64, s.wallSec), (256, 32, s.wallSub), (288, 8, source),
    (296, 8, b2n s.ready + 2 * b2n (s.helm.hartRun % 4 == 3)), (304, 16, ring), (320, 32, tag)]) ++
  bytesOf 64 (pack [(0, 64, (s.rd .DEV_ID).toNat), (64, 64, (s.rd .DEV_UID).toNat), (128, 64, (s.rd .DEV_UID 1).toNat),
    (192, 64, (s.rd .BNC_VERSION).toNat), (256, 32, s.bnc.mcVersion),
    (288, 16, if s.mustered then s.fget fWLN_STATUS_self else 0xFFFF)]) ++
  s.fixDigests

/-- Bytes 0x160 to 0xD9F: convoy, meridians, Pilots, jobs and rings. -/
def State.fixBody (s : State) : List Byte :=
  s.fixMuster ++ (List.range 8).flatMap (fun m => bytesOf 16 (s.fixMeridian m)) ++
  (List.range 16).flatMap (fun p => bytesOf 24 (s.fixPilot p)) ++ (List.range 256).flatMap (fun j => bytesOf 2 (s.fixJob j)) ++
  (List.range 256).flatMap (fun r => bytesOf 8 (s.fixRing r))

/-- The queue section. -/
def State.fixQueues (s : State) : Nat :=
  pack [(0, 32, s.queuesOn), (32, 32, s.sramUsed), (64, 64, s.spillBytes), (128, 32, s.fget fDPT_MARK_markers),
    (160, 64, (s.rd .DPT_DROP).toNat), (224, 32, s.tasksInUse), (256, 32, s.swy.ready.length), (288, 8, s.topPrio),
    (320, 32, s.swy.delays.length), (352, 32, s.heldSenders), (384, 32, s.fget fSWY_TICK_period * 5 / 8)]

/-- The Chart, HBM, heat and counter sections, and the Logbook's: bytes 0xE20 to 0xFFF. -/
def State.fixTail (s : State) : List Byte :=
  bytesOf 16 (pack [(0, 64, s.faultMask), (64, 8, s.faults.length)]) ++
  (List.range 64).map (fun i => BitVec.ofNat 8 (((s.slot i).map (·.source)).getD 0)) ++ bytesOf 16 0 ++
  bytesOf 64 (pack [(0, 32, s.live .MEM_STATUS 0 0), (32, 32, s.live .MEM_SEG_LOST 0 0), (64, 32, s.live .MEM_PASR 0 0),
    (96, 32, s.live .MEM_TEMP 0 0), (128, 64, maskWhere 64 s.chFaulted),
    (192, 64, maskWhere 64 (fun ch => s.fget fMEM_CH_STAT_state ch == 1)), (256, 32, nget 0 4 s.helm.counters),
    (288, 32, nget 0 5 s.helm.counters), (320, 32, nget 0 6 s.helm.counters), (352, 32, nget 0 7 s.helm.counters),
    (384, 32, s.fget fMEM_REF_STAT_stops)]) ++
  bytesOf 64 (pack [(0, 16, s.fget fTHM_TEMP_temp), (16, 16, s.fget fTHM_TEMP_rise), (32, 8, s.fget fTHM_STAT_state),
    (40, 8, s.fget fTHM_CFG_skip_n), (48, 8, s.fget fTHM_CFG_div), (64, 64, s.fget fPWR_ON_on),
    (128, 64, s.fget fPWR_SWITCHING_pending)]) ++
  (List.range 32).flatMap (fun k => bytesOf 4 (nget 0 k s.helm.counters)) ++
  bytesOf 32 (pack [(0, 16, s.fget fBNC_LOG_STAT_head), (16, 16, s.fget fBNC_LOG_STAT_valid),
    (32, 32, s.fget fBNC_LOG_STAT_writes)]) ++
  bytesOf 32 (s.logSlot (s.fget fBNC_LOG_STAT_head)) ++ bytesOf 64 0

/-- The record with a given checksum field. -/
def State.fixBytes (s : State) (source ring tag crc : Nat) : List Byte :=
  s.fixHead source ring tag crc ++ s.fixBody ++ bytesOf 64 s.fixQueues ++
  (List.range 16).flatMap (fun c => bytesOf 4 (pack [(0, 3, s.dmaState c), (16, 16, s.fget fDMA_CH_STAT_fault_id c)])) ++
  s.fixTail

/-- The 4,096 bytes of the record at this instant, with its CRC-32C (R380; assumption 25). -/
def State.fixRecord (s : State) (source ring tag : Nat) : List Byte :=
  s.fixBytes source ring tag (crc32c (s.fixBytes source ring tag 0))

/-! ### Taking a fix (R379) -/

/-- The fix instant: seq counts one more. -/
def State.fixInstant (s : State) : State :=
  let n := (s.helm.fixSeq + 1) % 2 ^ 32
  let s : State := { s with helm := { s.helm with fixSeq := n } }
  s.fput fHLM_FIX_STAT_seq 0 n

/-- At the fix instant the record is latched for its destination. -/
def State.latchFix (s : State) (source ring tag dst : Nat) (dva : Bool) (space : Nat) : State :=
  let s := s.fixInstant
  let job : FixJob := ⟨source, s.fixRecord source ring tag, dst, dva, space⟩
  { s with helm := { s.helm with fix := some job } }

/-- TAKE_FIX (R374, R375, R379). A destination type above 1 is no type of R376. -/
def bodyTakeFix : CmdBody := fun k s =>
  if s.helm.fix.isSome then fail s .fixBusy
  else if 1 < u8 k 8 then fail s .paramInvalid
  else
    let s := s.latchFix 0 k.onRing.val k.tag.toNat (u64 k 0) (u8 k 8 == 1) (u8 k 9)
    (s, .wait .fix 0 s.helm.fixSeq 0 0 1)

/-- FIX_DOORBELL: a write to FIX_DB (R379). Bit 0 asks; it is ignored while a fix is being written or the doorbell is not armed. -/
def State.doFixDoorbell (s : State) (v : Nat) : State :=
  if bitAt v 0 = false then s
  else if s.helm.fix.isSome ∨ s.fbit fHLM_FIX_ADDR_en = false then s.bump fHLM_PROMPT_CNT_fix_ignored
  else s.latchFix 1 0xFFFF 0 (s.fget fHLM_FIX_ADDR_addr * 4096) false 0

/-- The four datagrams that answer a fix request over Ethernet (R447). -/
def fixDatagrams (record : List Byte) : List (List Byte) :=
  (List.range 4).map (fun k =>
    bytesOf 4 0x58464B50 ++ (record.drop 12).take 4 ++ bytesOf 2 (1024 * k) ++ (record.drop (1024 * k)).take 1024)

/-- The write of the record: the status of a TAKE_FIX, and its detail. A write over PCIe succeeds as the port says; PERST# holds
the link (R369, R379). A target in a lost eighth gives SEGMENT_LOST (R330). -/
def State.writeFix (s : State) (x : FixJob) (ok : Bool) : State × Status × Nat :=
  if x.source = 2 then ({ s with eth := { s.eth with datagrams := s.eth.datagrams ++ fixDatagrams x.record } }, .ok, 0)
  else if x.dva ∧ s.touchesLost x.space x.dst x.record.length then (s.wakeMem portBP, .segmentLost, 0)
  else if x.dva then
    match s.dvaWrite sourceHelm portBP .management x.space x.dst x.record with
    | (s, none) => (s.settleWrites, .ok, 0)
    | (s, some f) => ((s.raiseFault f).1, .chartFault, f.dva % 2 ^ 32)
  else if ok ∧ s.host.perst = false then (s.hostWrite x.dst x.record, .ok, 0)
  else (s, .hostError, 0)

/-- No fix is being written any more; one written whole is counted, one that PCIe refused sets err (R379). -/
def State.noteFix (s : State) (st : Status) : State :=
  let s := { s with helm := { s.helm with fix := none } }
  let s := if st = .ok then s.bump fHLM_PROMPT_CNT_fixes else s
  if st = .hostError then s.fput fHLM_FIX_STAT_err 0 1 else s

/-- A doorbell's fix is done: the flag, and the interrupt if enabled (R379). -/
def State.doorbellDone (s : State) : State :=
  let s := s.fput fHLM_FIX_STAT_done 0 1
  if s.fbit fHLM_FIX_CTL_irq_en then s.signal (s.fget fHLM_FIX_CTL_vector) else s

/-- FIX_WRITTEN: Binnacle ends writing the record (R379). -/
def State.doFixWritten (s : State) (ok : Bool) : State :=
  match s.helm.fix with
  | none => s
  | some x =>
    let r := s.writeFix x ok
    let s := r.1.noteFix r.2.1
    if x.source = 0 then s.endWaits .fix r.2.1 (some r.2.2)
    else if x.source = 1 ∧ r.2.1 = .ok then s.doorbellDone
    else s

/-! ### The rows of the command table -/

/-- TAKE_FIX (R379). -/
def execTakeFix (k : Packet) (s : State) : Host.Outcome State Fault Refusal := .next (s.runPrompt 0x0005 bodyTakeFix k)

/-- FIX_WRITTEN (R379). -/
def execFixWritten (ok : Bool) (s : State) : Host.Outcome State Fault Refusal := .next (s.doFixWritten ok)

end Sys2Proof.Machine
end

