-- ==== Sys2Proof/Machine/HelmCommands.lean ====
section
/-! DEFINITION. Helm's own commands, the commit and the signalling of completions, and deadlines (R359, R361, R363, R364,
R371, R372, R376). -/

namespace Sys2Proof.Machine

/-- NOP. -/
def bodyNop : CmdBody := fun _ s => ok s

/-! ### Rings (R361) -/

/-- RING_CREATE (R361). Ring 0 always exists. -/
def bodyRingCreate : CmdBody := fun k s =>
  let r := u16 k 0
  let cmd := u8 k 2
  let cpl := u8 k 3
  if 255 < r ∨ cmd < 4 ∨ 12 < cmd ∨ cpl < cmd ∨ 12 < cpl ∨ 2047 < u16 k 4 ∨ 7 < u16 k 6 ∨ u64 k 8 % 4096 ≠ 0 then fail s .paramInvalid
  else if s.fbit fHLM_RING_CFG_exists r then fail s .ringInvalid
  else
    let s := s.dropRing r
    let s := s.wr .HLM_RING_CFG r 0 (BitVec.ofNat 64 (pack [(0, 1, 1), (1, 3, u16 k 6), (4, 4, cmd), (8, 4, cpl),
      (12, 11, u16 k 4), (23, 8, min 255 (u16 k 16)), (32, 16, u16 k 18)]))
    let s := s.wr .HLM_RING_MIR r 0 (BitVec.ofNat 64 (u64 k 8))
    ok (s.setRing r { modCount := u16 k 16, modTime := u16 k 18 })

/-- RING_DELETE (R361): the ring refuses packets at once, and goes when all its commands have completed. -/
def bodyRingDelete : CmdBody := fun k s =>
  let r := u16 k 0
  if r = 0 ∨ 255 < r ∨ s.fbit fHLM_RING_CFG_exists r = false then fail s .ringInvalid
  else if s.ringIdle r then ok (s.dropRing r)
  else (s.setRing r { s.ring r with deleting := true }, .wait (.ringEmpty r) 0 0 0 0 0)

/-! ### Site scripts (R358, R359; assumption 46) -/

/-- SCRIPT_LOAD (R359). The spec states no length and no format for the image, so whether its digest is the one expected is a free
value; a script once loaded is known by that digest. -/
def bodyScriptLoad : CmdBody := fun k s =>
  let h := u8 k 9
  if h ≠ 2 ∧ h ≠ 3 then fail s .paramInvalid
  else match s.payload (u8 k 8) (u64 k 0) 1 with
    | (s, .bad st d) => fail s st d
    | (s, .bytes _) =>
      let (s, w) := s.fresh
      if bitAt w.toNat 0 then
        ok { s with helm := { s.helm with scripts := nset [] h (bytesOf 32 (param k 16 32)) s.helm.scripts } }
      else fail s .paramInvalid

/-- A hart's bit in hart_run. -/
def State.setHartRun (s : State) (h : Nat) (b : Bool) : State :=
  { s with helm := { s.helm with hartRun := setBit s.helm.hartRun h b } }

/-- SCRIPT_CTL (R376): stop, start or reset. A hart with no script loaded stays idle (R358). -/
def bodyScriptCtl : CmdBody := fun k s =>
  let h := u8 k 0
  if h ≠ 2 ∧ h ≠ 3 then fail s .paramInvalid
  else match u8 k 1 with
    | 0 => ok (s.setHartRun h false)
    | 1 => ok (if nget [] h s.helm.scripts = [] then s else s.setHartRun h true)
    | 2 => ok ((s.setHartRun h false).setHart h {})
    | _ => fail s .paramInvalid

/-! ### Completions (R363, R364) -/

/-- Host bus address of a ring's mirror. -/
def State.mirrorAddr (s : State) (r : Nat) : Nat :=
  if r = 0 then s.fget fHLM_ADM_MIRROR_addr * 4096 else s.fget fHLM_RING_MIR_addr r

/-- MSI-X vector of a ring. -/
def State.ringVector (s : State) (r : Nat) : Nat := if r = 0 then s.fget fHLM_ADM_VEC_vector else s.fget fHLM_RING_CFG_vector r

/-- A committed completion is signalled at once, or counts toward the moderation (R364; assumption 47). -/
def State.signalCpl (s : State) (r : Nat) (irq : Bool) : State :=
  let x := s.ring r
  if irq ∨ (x.modCount = 0 ∧ x.modTime = 0) then s.signal (s.ringVector r)
  else if 0 < x.modCount ∧ x.modCount ≤ x.unsig + 1 then (s.setRing r { x with unsig := 0 }).signal (s.ringVector r)
  else s.setRing r { x with unsig := x.unsig + 1, unsigAt := if x.unsig = 0 then s.now else x.unsigAt }

/-- A completion written into the next slot of a ring's mirror, with the phase of its round (R363, R367). -/
def State.writeCpl (s : State) (r : Nat) (c : Cpl) : State :=
  let depth := 2 ^ s.fget fHLM_RING_CFG_cpl_log2 r
  let i := s.fget fHLM_RING_CPL_posted r
  let s := s.hostWrite (s.mirrorAddr r + i % depth * 32) (bytesOf 32 (s.cplWord c ((i / depth + 1) % 2)))
  (s.tick fHLM_RING_CPL_posted r).fput fHLM_RING_LAST_last_status r c.status

/-- COMPLETION_COMMIT: Helm commits a ring's oldest completion, if the host has released a slot for it (R363). -/
def State.doCompletionCommit (s : State) (r : Nat) : State :=
  match (s.ring r).cplWait with
  | [] => s
  | c :: rest =>
    if s.mirrorFull r ∨ bitAt s.bnc.down 32 then s
    else ((s.setRing r { s.ring r with cplWait := rest }).writeCpl r c |>.signalCpl r c.irq).sweepRing r

/-- MODERATION_TIMEOUT: the moderation time since the first unsignalled completion has passed (R364). -/
def State.doModerationTimeout (s : State) (r : Nat) : State :=
  let x := s.ring r
  if 0 < x.unsig ∧ 0 < x.modTime then
    let s := s.advance (x.unsigAt + x.modTime * 1000 * unitsPerNs)
    (s.setRing r { x with unsig := 0 }).signal (s.ringVector r)
  else s

/-! ### Deadlines (R371, R372) -/

/-- An expiry has been sampled: the last Switchyard tick lies at or after it. -/
def State.expired (s : State) (expiry : Nat) : Bool := decide (0 < expiry ∧ expiry ≤ s.fget fSWY_TICK_LAST_cycles)

/-- The completion of an expired command whose own was not committed (R372). -/
def Cpl.expire (c : Cpl) : Cpl :=
  { c with status := Status.deadline.code, detail := c.steps, result := 0, late := false, isPartial := decide (0 < c.steps) }

/-- A begun command of an origin expires: it makes no further step (R372). -/
def State.expireRunning (s : State) (o : Origin → Bool) (tag : Nat) : State :=
  match s.helm.running.find? (fun x => o x.origin && x.tag == tag && s.expired x.expiry) with
  | none => s
  | some x =>
    let s := { s with helm := { s.helm with running := s.helm.running.filter (fun y => y != x) } }
    s.conclude x .deadline x.steps 0 false (decide (0 < x.steps)) x.steps

/-- A packet that no hart has begun expires with no effect. -/
def State.expireUntaken (s : State) (r tag : Nat) : State :=
  match (s.ring r).untaken.find? (fun p => bits p.bytes 63 32 == tag && s.expired p.expiry) with
  | none => s
  | some p =>
    let d := decodePacket (BitVec.ofNat 8 r).toFin p.bytes
    let s := s.setRing r { s.ring r with untaken := (s.ring r).untaken.filter (fun q => q != p) }
    (s.tick fHLM_RING_STAT_taken r).conclude (runningOf (.ring r) d.1 d.2 p.expiry) .deadline 0 0 false false 0

/-- A completion not yet committed gives way to the deadline's, with those of its duplicates (R370, R371). -/
def State.expireCpl (s : State) (r tag : Nat) : State :=
  let x := s.ring r
  let hit (c : Cpl) : Bool := c.tag == tag && !c.dup && c.status != Status.deadline.code && s.expired c.expiry
  match x.cplWait.find? hit with
  | none => s
  | some c =>
    let d := c.expire
    let x := { x with cplWait := x.cplWait.map (fun e => if hit e then d else if e.dup ∧ e.tag = tag then dupOf d e.irq else e),
                      window := x.window.map (fun w => if w.1 = tag then (w.1, some d) else w) }
    ((s.setRing r x).bump fHLM_RING_CNT_deadlines r).countFix 18

/-- DEADLINE_EXPIRY of a ring's packet: sampled at the first tick at or after its expiry (R371). -/
def State.doRingDeadline (s : State) (r tag : Nat) : State :=
  ((((s.expireUntaken r tag).expireRunning (fun o => o == .ring r) tag).expireCpl r tag)).sweepRing r

/-- A command came forwarded from a member. -/
def Origin.fromMember (node : Nat) : Origin → Bool
  | .member n _ _ => n == node
  | .ring _ => false

/-- A forwarded packet waits under a tag of a member, and has expired. -/
def State.forwardedLate (s : State) (node tag : Nat) (x : Forwarded) : Bool :=
  x.node == node && bits x.bytes 63 32 == tag && s.expired x.expiry

/-- Forwarded packets that wait expire with no effect (R371, R421). -/
def State.expireForwarded (s : State) (node tag : Nat) : State :=
  let hit := s.forwardedLate node tag
  let late := s.helm.forwarded.filter hit
  let s := { s with helm := { s.helm with forwarded := s.helm.forwarded.filter (fun x => !hit x) } }
  late.foldl (fun s x =>
    let d := decodePacket 0 x.bytes
    s.conclude (runningOf (.member x.node x.port x.xid) d.1 d.2 x.expiry) .deadline 0 0 false false 0) s

/-- DEADLINE_EXPIRY of a packet forwarded by a member, which is executed as one committed on a ring (R421). -/
def State.doMemberDeadline (s : State) (node tag : Nat) : State :=
  (s.expireForwarded node tag).expireRunning (Origin.fromMember node) tag

/-! ### The rows of the command table -/

/-- COMPLETION_COMMIT (R363). -/
def execCompletionCommit (r : RingNo) (s : State) : Host.Outcome State Fault Refusal := .next (s.doCompletionCommit r.val)

/-- MODERATION_TIMEOUT (R364). -/
def execModerationTimeout (r : RingNo) (s : State) : Host.Outcome State Fault Refusal := .next (s.doModerationTimeout r.val)

/-- DEADLINE_EXPIRY (R371). -/
def execDeadlineExpiry (member : Bool) (sender : BitVec 16) (tag : BitVec 32) (s : State) : Host.Outcome State Fault Refusal :=
  .next (if member then s.doMemberDeadline sender.toNat tag.toNat else s.doRingDeadline sender.toNat tag.toNat)

/-- NOP_COMMAND (R376). -/
def execNopCommand (k : Packet) (s : State) : Host.Outcome State Fault Refusal := .next (s.runCommand 0x0001 bodyNop k)

/-- RING_CREATE (R361). -/
def execRingCreate (k : Packet) (s : State) : Host.Outcome State Fault Refusal := .next (s.runCommand 0x0002 bodyRingCreate k)

/-- RING_DELETE (R361). -/
def execRingDelete (k : Packet) (s : State) : Host.Outcome State Fault Refusal := .next (s.runCommand 0x0003 bodyRingDelete k)

/-- SCRIPT_LOAD (R359). -/
def execScriptLoad (k : Packet) (s : State) : Host.Outcome State Fault Refusal := .next (s.runCommand 0x0006 bodyScriptLoad k)

/-- SCRIPT_CTL (R376). -/
def execScriptCtl (k : Packet) (s : State) : Host.Outcome State Fault Refusal := .next (s.runCommand 0x0007 bodyScriptCtl k)

end Sys2Proof.Machine
end

