-- ==== Sys2Proof/Machine/Signature.lean ====
section
/-! DEFINITION. The signatures of the QSPI flash (R458, R459, R178): ECDSA over the curve P-384 with SHA-384. The spec names the
algorithm; its numbers and steps are the standard's (PRESUMED, assumption 65). -/

namespace Sys2Proof.Machine

/-- The field's prime of P-384. -/
def p384Prime : Nat := 2 ^ 384 - 2 ^ 128 - 2 ^ 96 + 2 ^ 32 - 1
/-- The order of P-384's base point. -/
def p384Order : Nat := 0xFFFFFFFFFFFFFFFFFFFFFFFFFFFFFFFFFFFFFFFFFFFFFFFFC7634D81F4372DDF581A0DB248B0A77AECEC196ACCC52973
/-- The constant term of P-384's equation y² = x³ - 3x + b. -/
def p384B : Nat := 0xB3312FA7E23EE7E4988E056BE3F82D19181D9C6EFE8141120314088F5013875AC656398D8A2ED19D2A85C8EDD3EC2AEF

/-- A point of the curve; none is the point at infinity. -/
abbrev CurvePoint := Option (Nat × Nat)

/-- P-384's base point. -/
def p384Base : CurvePoint :=
  some (0xAA87CA22BE8B05378EB1C71EF320AD746E1D3B628BA79B9859F741E082542A385502F25DBF55296C3A545E3872760AB7,
        0x3617DE4A96262C6F5D9E98BF9292DC29F8F41DBD289A147CE9DA3113B5F0B8C00A60B1CE1D7E819D7A431D7C90EA0E5F)

/-- x to the power that n low bits of e spell, modulo m. -/
def powMod (m : Nat) : Nat → Nat → Nat → Nat
  | 0, _, _ => 1 % m
  | n + 1, x, e => (if bitAt e 0 then x else 1) * powMod m n (x * x % m) (e / 2) % m

/-- The inverse modulo a prime of at most 384 bits. -/
def invMod (m x : Nat) : Nat := powMod m 384 (x % m) (m - 2)

/-- The third point of a line with slope l through points whose abscissas are x and u; y belongs to x. -/
def onLine (l x y u : Nat) : CurvePoint :=
  let p := p384Prime
  let v := (l * l + 2 * p - x - u) % p
  some (v, (l * (x + p - v) + p - y) % p)

/-- The sum of two points. -/
def addPoints : CurvePoint → CurvePoint → CurvePoint
  | none, q => q
  | p, none => p
  | some (x, y), some (u, v) =>
    if x = u then
      if y = v ∧ y ≠ 0 then onLine ((3 * x * x + p384Prime - 3) * invMod p384Prime (2 * y) % p384Prime) x y u else none
    else onLine ((v + p384Prime - y) * invMod p384Prime (u + p384Prime - x) % p384Prime) x y u

/-- A multiple of a point by the number that n low bits of k spell. -/
def mulPoint : Nat → Nat → CurvePoint → CurvePoint
  | 0, _, _ => none
  | n + 1, k, q => addPoints (if bitAt k 0 then q else none) (mulPoint n (k / 2) (addPoints q q))

/-- A big-endian number. -/
def beNat (bs : List Byte) : Nat := ofBytes bs.reverse

/-- The point that an uncompressed key of 97 bytes spells: 0x04, then the two coordinates; none when it lies off the curve. -/
def keyPoint (key : List Byte) : CurvePoint :=
  let x := beNat ((key.drop 1).take 48)
  let y := beNat ((key.drop 49).take 48)
  let right := (x * x * x + (p384Prime - 3) * x + p384B) % p384Prime
  if key.head? = some 4 ∧ x < p384Prime ∧ y < p384Prime ∧ y * y % p384Prime = right then some (x, y) else none

/-- A signature of 96 bytes, r then s, verifies for a message under a key (R458, R459). -/
def signatureOk (key msg sig : List Byte) : Bool :=
  let r := beNat (sig.take 48)
  let s := beNat ((sig.drop 48).take 48)
  let w := invMod p384Order s
  let at' := addPoints (mulPoint 384 (beNat (sha384 msg) * w % p384Order) p384Base) (mulPoint 384 (r * w % p384Order) (keyPoint key))
  decide (0 < r ∧ r < p384Order ∧ 0 < s ∧ s < p384Order) && (keyPoint key).isSome &&
    (match at' with
     | some (x, _) => x % p384Order == r
     | none => false)

end Sys2Proof.Machine
end

