-- ==== Sys2Proof/Machine/Binnacle.lean ====
section
/-! DEFINITION. Binnacle: power domains, resets, start-up, heat, the Logbook's log region and the SMBus port (R448 to R472, R494). -/

namespace Sys2Proof.Machine

/-! ### Power domains (R448 to R452) -/

/-- A domain that POWER_DOMAIN can switch (R448). -/
def switchable (d : Nat) : Bool := decide (d < 12 ∨ (16 ≤ d ∧ d < 20) ∨ (21 ≤ d ∧ d < 32))

/-- The power-up time of a switchable domain (R448). -/
def riseTime (d : Nat) : Nat :=
  let us := if d < 12 ∨ d = 28 ∨ 30 ≤ d then 100 else if d < 20 ∨ d = 26 ∨ d = 27 then 50 else if d = 29 then 20 else 1000
  us * 1000 * unitsPerNs

/-- A Sextant half is in use: a channel is armed, or a running unit uses one (R231). -/
def State.halfBusy (s : State) (h : Nat) : Bool :=
  (List.range 52).any (fun c => sxtHalf c == h && (s.sxtChan c).armed (s.sxtNow c)) ||
  s.sxt.units.any (fun e => e.2.running && (sxtHalf (s.fget fSXT_MU_CTL_start_ch e.1) == h ||
    (s.fget fSXT_MU_CTL_mode e.1 == 1 && sxtHalf (s.fget fSXT_MU_CTL_stop_ch e.1) == h)))

/-- A SAR converts, runs a sequence, has an injection waiting or a sequence pending in a held trigger, or an acquisition unit is not idle
(R285, R290, R448). -/
def State.sarBusy (s : State) : Bool :=
  (s.adc.held && s.fget fADC_TRIG_CFG_sar_en != 0) || (List.range 4).any (fun r => (s.sar r).conv.isSome || (s.sar r).seqRunning || (s.sar r).inj.isSome || (s.aq r).st != .idle)

/-- A power-down of the domain is refused with DOMAIN_BUSY (R448). No command occupies a Reckoner when it comes (assumption 48). -/
def State.domainBusy (s : State) (d : Nat) : Bool :=
  if d < 12 then false
  else if d < 20 then s.convoyHeld (d - 16)
  else if d = 21 then s.fget fMER_WALL_CTL_discipline == 1 && s.merInUse 7
  else if d < 26 then s.clusterBusy (d - 22)
  else if d < 28 then false
  else if d = 28 then s.sarBusy
  else if d = 29 then s.dds.engines.any (fun e => e.2.st != .idle)
  else s.halfBusy (d - 30)

/-- A running leg uses a pin or a Pilot of the domain (R16, R450). -/
def State.domainInLeg (s : State) (d : Nat) : Bool :=
  if d < 12 then (List.range 4).any (fun i => s.pinInLeg (4 * d + i))
  else if 22 ≤ d ∧ d < 26 then (List.range 4).any (fun i => s.legRuns (4 * (d - 22) + i))
  else false

/-- A domain's bit in PWR_SWITCHING. -/
def State.setSwitching (s : State) (d : Nat) (b : Bool) : State :=
  s.fput fPWR_SWITCHING_pending 0 (setBit (s.fget fPWR_SWITCHING_pending) d b)

/-- Registers back to their Reset column values. -/
def State.dropRegs (s : State) (p : RegKey → Bool) : State := { s with regs := s.regs.filter (fun e => !p e.1) }

/-- The DDS bank's lists are lost, and every count is 0; the engines are idle, and DDS_ENG_STAT.entry keeps its value (R269, R452). -/
def State.dropLists (s : State) : State :=
  let keep : Bank Nat Dds := (List.range 8).foldl (fun b e => nset {} e { entry := (s.ddsEng e).entry } b) []
  (List.range 8).foldl (fun s e => s.fput fDDS_ENG_LEN_count e 0) { s with dds := { engines := keep } }

/-- What a domain loses when its power is cut (R452). -/
def State.losePower (s : State) (d : Nat) : State :=
  if d < 12 then (s.sdQuadDown d).aqQuadDown d
  else if 16 ≤ d ∧ d < 20 then s.portDown (d - 16)
  else if d = 21 then
    let s := s.fput fETH_MAC_link 0 0
    if s.fget fMER_WALL_CTL_discipline = 1 then (s.fput fETH_PTP_STAT_holdover 0 1).fput fETH_PTP_STAT_locked 0 0 else s
  else if 22 ≤ d ∧ d < 26 then
    let c := d - 22
    let s := (s.setCluster c {}).putUcDigest c 0
    let s := s.fput fPLT_CS_STAT_user_loaded c 0
    let s := s.dropRegs (fun k => k.id == .PLT_TRAP_FRAME && k.i / 4 == c)
    (List.range 4).foldl (fun s i => s.dropFrames (4 * c + i)) s
  else if d = 29 then s.dropLists
  else s

/-- A domain's power is cut. -/
def State.cutPower (s : State) (d : Nat) : State :=
  let s := ((s.losePower d).setPowered d false).setSwitching d false
  { s with bnc := { s.bnc with down := setBit s.bnc.down d true } }

/-- A domain begins to power up. -/
def State.beginRise (s : State) (d : Nat) : State :=
  let s := s.setSwitching d true
  { s with bnc := { s.bnc with rising := setBit s.bnc.rising d true, riseEnd := nset 0 d (s.now + riseTime d) s.bnc.riseEnd } }

/-- A PWR_REQ for a domain and direction has completed. -/
def State.pwrDone (s : State) (d : Nat) (on : Bool) (st : Status) : State :=
  if s.bnc.pwrReq = some (d, on) then
    let s := { s with bnc := { s.bnc with pwrReq := none } }
    (s.fput fPWR_RESULT_status 0 st.code).fput fPWR_RESULT_done 0 1
  else s

/-- A request to switch a domain: the status it ends with at once, or none while it waits (R449, R450; assumption 49). -/
def State.switchDomain (s : State) (d : Nat) (on : Bool) : State × Option Status :=
  let rising := bitAt s.bnc.rising d
  if switchable d = false then (s, some .paramInvalid)
  else if on then
    if rising then (s, none)
    else if s.goesDown d then ({ s with bnc := { s.bnc with upNext := setBit s.bnc.upNext d true } }, none)
    else if s.powered d then (s, some .ok)
    else (s.beginRise d, none)
  else if rising then ({ s with bnc := { s.bnc with downNext := setBit s.bnc.downNext d true } }, none)
  else if s.goesDown d then (s, none)
  else if s.powered d = false then (s, some .ok)
  else if s.domainBusy d then (s, some .domainBusy)
  else if s.domainInLeg d then (s.setSwitching d true, none)
  else (s.cutPower d, some .ok)

/-- POWER_DOMAIN (R449, R450). -/
def bodyPowerDomain : CmdBody := fun k s =>
  let d := u8 k 0
  if 1 < u8 k 1 then fail s .paramInvalid
  else match s.switchDomain d (u8 k 1 == 1) with
    | (s, some .ok) => ok s
    | (s, some st) => fail s st
    | (s, none) => (s, .wait (if u8 k 1 = 1 then .powerUp d else .powerDown d) 0 0 0 0 0)

/-- A write of PWR_REQ: it acts as POWER_DOMAIN, and PWR_RESULT answers. Binnacle switches nothing more after a trip (R466). -/
def State.doPwrReq (s : State) (v : Nat) : State :=
  let d := bits v 5 0
  let on := bitAt v 6
  if bitAt v 7 = false ∨ s.bnc.tripped then s
  else match s.switchDomain d on with
    | (s, some st) => ({ s with bnc := { s.bnc with pwrReq := some (d, on) } } : State).pwrDone d on st
    | (s, none) => { s with bnc := { s.bnc with pwrReq := some (d, on) } }

/-- PENDING_POWER_DOWN: a pending power-down is served once no leg uses the domain (R450, R451). -/
def State.doPendingPowerDown (s : State) (d : Nat) : State :=
  if s.goesDown d = false ∨ s.domainInLeg d then s
  else
    let s := (s.cutPower d).endWaits (.powerDown d) .ok
    let s := s.pwrDone d false .ok
    if bitAt s.bnc.upNext d ∨ bitAt s.bnc.blkReset d then
      ({ s with bnc := { s.bnc with upNext := setBit s.bnc.upNext d false } } : State).beginRise d
    else s

/-- What a domain restores when it is up (R452). -/
def State.restorePower (s : State) (d : Nat) : State :=
  if d < 12 then
    (List.range 4).foldl (fun s i => (s.setPin (4 * d + i) { s.pin (4 * d + i) with risen := true }).beginSettle (4 * d + i))
      (s.sdQuadUp d)
  else if d = 29 then s.dropLists
  else if 22 ≤ d ∧ d < 26 then s.loadVendor (d - 22)
  else if d = 28 then
    (List.range 4).foldl (fun s r =>
      let s := s.wr .ADC_SAR_INJ_RES r 0 (BitVec.ofNat 64 (setBits (s.rd .ADC_SAR_INJ_RES r 0).toNat 24 24 0))
      (List.range 16).foldl (fun s k =>
        s.wr .ADC_SAR_RES r k (BitVec.ofNat 64 (setBits (s.rd .ADC_SAR_RES r k).toNat 24 24 0))) s) s
  else if 30 ≤ d then
    s.sxt.units.foldl (fun s e =>
      if sxtHalf (s.fget fSXT_MU_CTL_start_ch e.1) = d - 30 ∧ e.2.running = false then s.setMu e.1 {} else s) s
  else s

/-! ### Per-block reset (R455) -/

/-- A register belongs to the blocks of a switchable domain. Shared registers of the Sextant and of the converters belong to no one
domain (assumption 50). -/
def domainReg (d : Nat) (k : RegKey) : Bool :=
  let pin := k.id == .PIN_CTL || k.id == .PIN_DRV_LVL || k.id == .PIN_VTT || k.id == .PIN_CMP_LVL || k.id == .PIN_PMU_CTL ||
    k.id == .PIN_PMU_FORCE || k.id == .PIN_PMU_CLAMP || k.id == .PIN_STATUS || k.id == .PIN_OV_COUNT || k.id == .PIN_TRIM ||
    k.id == .PIN_FAIL_COUNT || k.id == .PIN_SITE
  let ctor := k.id.ctorIdx
  let within (a b : RegId) : Bool := decide (a.ctorIdx ≤ ctor ∧ ctor ≤ b.ctorIdx)
  if d < 12 then pin && k.i / 4 == d
  else if 16 ≤ d ∧ d < 20 then within .WLN_P_CTL .WLN_P_LAUNCH && k.i == d - 16
  else if d = 21 then within .ETH_CTL .ETH_OOB_PEER
  else if 22 ≤ d ∧ d < 26 then
    if within .PLT_CS_STAT .PLT_UC_DIGEST then k.i == d - 22
    else (within .PLT_CTL .PLT_CAP_STAT || within .PLT_SITE_MASK .PLT_SUSP_LIST) && k.i / 4 == d - 22
  else if d = 28 then within .ADC_SAR_CTL .ADC_SAR_RES || within .ACQ_STATUS .ACQ_CNT
  else if d = 29 then within .DDS_CTL .DDS_ENG_EPOCH_FRAC
  else if 30 ≤ d then within .SXT_CH_CTL .SXT_CH_CNT && sxtHalf k.i == d - 30
  else false

/-- What a domain's registers show besides what is stored in them goes back with them: for a cluster its Pilots' state, but for the CT
records and markers of jobs that have ended, which still go out; a Sextant half's channels, but for stamps that still go out; the SARs
and the acquisition units; the DDS engines (R455). -/
def State.dropUnits (s : State) (d : Nat) : State :=
  if 22 ≤ d ∧ d < 26 then
    (List.range 4).foldl (fun s i =>
      let p := 4 * (d - 22) + i
      let str := (s.pilot p).str
      s.setPilot p { str := { ctQ := str.ctQ, markers := str.markers } }) s
  else if d = 28 then
    let s : State := { s with adc := { s.adc with sars := [] } }
    { s with acq := [] }
  else if d = 29 then { s with dds := {} }
  else if 30 ≤ d then
    (List.range 52).foldl (fun s c => if sxtHalf c = d - 30 then s.setSxtChan c { posts := (s.sxtChan c).posts } else s) s
  else s

/-- A domain is up, with what it restores. -/
def State.endRise (s : State) (d : Nat) : State :=
  let s : State := { s with bnc := { s.bnc with
    rising := setBit s.bnc.rising d false, riseEnd := nset 0 d 0 s.bnc.riseEnd, down := setBit s.bnc.down d false,
    downNext := setBit s.bnc.downNext d false, blkReset := setBit s.bnc.blkReset d false } }
  ((s.setPowered d true).setSwitching d false).restorePower d

/-- POWER_UP_DONE: a domain finishes powering up and restores its state; a per-block reset ends with its registers at their Reset
column values (R452, R455). -/
def State.doPowerUpDone (s : State) (d : Nat) : State :=
  if bitAt s.bnc.rising d = false then s
  else
    let s := s.advance (nget 0 d s.bnc.riseEnd)
    let again := bitAt s.bnc.downNext d
    let reset := bitAt s.bnc.blkReset d
    let s := s.endRise d
    let s := if reset then (s.dropRegs (domainReg d)).dropUnits d else s
    let s := (s.endWaits (.powerUp d) .ok).pwrDone d true .ok
    if again then s.setSwitching d true else s

/-- BNC_BLK_RESET: a write of the register (R455). A domain that is switching is busy. -/
def State.doBlkReset (s : State) (v : Nat) : State :=
  let d := bits v 5 0
  if bitAt v 6 = false ∨ s.bnc.tripped then s
  else if switchable d = false ∨ bitAt (s.fget fPWR_SWITCHING_pending) d ∨ (s.powered d ∧ s.domainBusy d) then
    s.fput fBNC_BLK_STAT_err 0 1
  else
    let s := { s with bnc := { s.bnc with blkReset := setBit s.bnc.blkReset d true } }
    if s.powered d = false then s.beginRise d
    else if s.domainInLeg d then s.setSwitching d true
    else (s.cutPower d).beginRise d

/-! ### Start-up (R457 to R460, R472) -/

/-- Logbook records newer than the last one appended go to the log region, oldest first (R472). -/
def State.appendLog (s : State) : State :=
  let n := s.fget fBNC_LOG_STAT_valid
  let h := s.fget fBNC_LOG_STAT_head
  let recs := (List.range n).map (fun k => s.logSlot ((h + 513 + k - n) % 256))
  let new := recs.filter (fun r => decide (s.bnc.qspiSeq ≤ bits r 31 0))
  { s with bnc := { s.bnc with qspiLog := s.bnc.qspiLog ++ new, qspiSeq := s.bnc.logSeq } }

/-- The PCIe link trains: rate and width are free (R436). -/
def State.trainPci (s : State) : State :=
  let (s, w) := s.fresh
  (s.fput fPCI_LINK_speed 0 (w.toNat % 5 + 1)).fput fPCI_LINK_width 0 (2 ^ (w.toNat / 8 % 4))

/-- The system queues are created, each marked as one (R390; assumption 4). -/
def State.makeSystemQueues (s : State) : State :=
  (List.range 1023).foldl (fun s k => s.wr .DPT_Q_CTL (k + 1) 0 ((Config.bootQueueCtl (k + 1) &&& 0x3FFFFF) ||| 2)) s

/-- DEV_STATUS.ready sets, with harts 0 and 1 running. -/
def State.setReady (s : State) : State :=
  let s : State := { s with helm := { s.helm with hartRun := 3 } }
  (s.fput fDEV_STATUS_ready 0 1).devIrq

/-- The straps are read, boot is counted, and MER0 starts from 0 (R457, R476). -/
def State.bootStart (s : State) (straps : Nat) : State :=
  let s : State := { s with bnc := { s.bnc with straps := straps % 16, bootCount := s.bnc.bootCount + 1, bootAt := s.now } }
  s.setMer 0 { s.mer 0 with anchorT := s.now, anchorR := 0 }

/-- Every HBM channel's state field. -/
def State.channelStates (s : State) (v : Nat) : State := (List.range 64).foldl (fun s ch => s.fput fMEM_CH_STAT_state ch v) s

/-- POWER_GOOD: PWRGD rises with RESET_N high; cold boot begins and has come to HBM training (R457, R476). -/
def State.doPowerGood (s : State) (straps : Nat) : State :=
  if s.fget fBNC_STATUS_stage ≠ 0 ∨ s.fget fBNC_STATUS_boot_status ≠ 0 then s
  else
    let s := s.bootStart straps
    let s := (s.fput fBNC_STATUS_stage 0 3).fput fBNC_RESET_boot 0 s.bnc.bootCount
    let s := s.fput fBNC_STATUS_sig_required 0 (b2n s.bnc.fuseSig)
    let s := s.fput fPWR_ON_on 0 (2 ^ 20 + 15 * 2 ^ 12)
    let s := s.fput fMEM_STATUS_state 0 1
    (s.channelStates 1).trainPci

/-! ### Signatures (R458, R459) -/

/-- The verifying key beside a directory (R459). -/
def State.dirKey (s : State) (dir : Bool) : List Byte := s.flashBytes (dirBase dir + 0x200) 97

/-- A directory's signature verifies under its own copy of the key, which is the eFuse's (R458, R459). -/
def State.dirSigned (s : State) (dir : Bool) : Bool :=
  ofBytes (sha384 (s.dirKey dir)) == s.bnc.fuseKey &&
    signatureOk (s.dirKey dir) (s.flashBytes (dirBase dir) 0x190) (s.flashBytes (dirBase dir + 0x190) 96)

/-- The vendor image of a directory has a well-formed header, and its signature verifies under the directory's key, over the bytes before
it (R178, R459; assumption 65). -/
def State.vendorSigned (s : State) (dir : Bool) : Bool :=
  match s.vendorPlace dir with
  | none => false
  | some (at', n) =>
    let h := ofBytes (s.flashBytes at' 256)
    let sig := imgField h 0x30 8
    (firstBad (ucHdrChecks true h n)).isNone &&
      signatureOk (s.dirKey dir) (s.flashBytes at' sig) (s.flashBytes (at' + sig) 96)

/-- Training left the system map without a channel (R326, R460). -/
def State.mapLost (s : State) (failed : Nat) : Bool := (s.mapSpec 15).channels.all (fun ch => bitAt failed ch)

/-- The directory in use and its images are what boot needs: those that the flash shows are checked; a flash that shows none holds
Vogedon's, which are (R178, R458; assumption 22). -/
def State.imagesGood (s : State) (dir : Bool) : Bool :=
  (!s.dirThere dir || s.dirGood dir) && (match s.vendorImage dir with
    | some (img, n) => vendorGood img n
    | none => true)

/-- A boot can end in a status with a directory used: one without signatures required fails none; one with them is not ready unless they
verify; it is ready only with good images, and where the system map keeps a channel (R326, R458 to R460). -/
def State.bootCan (s : State) (status : Nat) (dir : Bool) (failed : Nat) : Bool :=
  (if s.fbit fBNC_STATUS_sig_required then status != 1 || (s.dirSigned dir && s.vendorSigned dir) else status != 3) &&
    (status != 1 || (s.imagesGood dir && !s.mapLost failed)) && (status != 7 || s.mapLost failed)

/-- A directory or image can be rejected by a check: by its signature only where one is required and fails (R458, R459). -/
def State.canReject (s : State) (dir typ check : Nat) : Bool :=
  check != 2 || (s.fbit fBNC_STATUS_sig_required &&
    (if typ = 0 then !s.dirSigned (dir == 1) else typ == 3 && !s.vendorSigned (dir == 1)))

/-- A boot attempt's record: status, and ms since boot began (R470). -/
def State.bootRecord (s : State) (status : Nat) : State :=
  s.logWrite 1 0xFF status ((s.now - s.bnc.bootAt) / (1000000 * unitsPerNs))

/-- The stage that a failing boot stops in (R457, R460; assumption 51). -/
def failStage (status : Nat) : Nat :=
  if status = 5 ∨ status = 6 then 4 else if status = 7 then 3 else 0

/-- The version of the image of a type in the directory in use; free where the flash shows none (R458). -/
def State.imageVersion (s : State) (typ : Nat) (w : Word) : Nat :=
  match s.dirFind (s.fbit fBNC_STATUS_dir) typ with
  | some e => imgField e 12 4
  | none => w.toNat % 2 ^ 32

/-- The images' versions. -/
def State.loadImages (s : State) : State :=
  let b := s.imageVersion 1 s.fresh.2
  let s := s.fresh.1
  let h := s.imageVersion 2 s.fresh.2
  let s := s.fresh.1
  let m := s.imageVersion 3 s.fresh.2
  let s := s.fresh.1.wr .BNC_VERSION 0 0 (BitVec.ofNat 64 (b + h * 2 ^ 32))
  { s with bnc := { s.bnc with mcVersion := m } }

/-- The verified copy of the vendor image is written into the system map (R169, R457). -/
def State.copyVendor (s : State) : State :=
  match s.vendorImage (s.fbit fBNC_STATUS_dir) with
  | some (img, n) => s.writeCopy 0 n img
  | none => s

/-- The system spaces, which firmware configures: valid, with roots and spans of its own (R332; assumption 107). -/
def State.makeSystemSpaces (s : State) : State :=
  [252, 253, 254, 255].foldl (fun s k =>
    let r := s.fresh.2.toNat
    let s := s.fresh.1.fput fCHT_AS_ROOT_hpa k (r * 4096)
    (s.fresh.1.fput fCHT_AS_CTL_span k (s.fresh.2.toNat % 19)).fput fCHT_AS_CTL_valid k 1) s

/-- Every Almanac entry is set to 0: an entry that has no word reads as 0 (R113). -/
def State.dropAlmanac (s : State) : State := { s with alm := { s.alm with entries := [], marks := [] } }

/-- How boot ended, and a Logbook record of each rejected directory or image (R458, R470). -/
def State.bootNote (s : State) (status : Nat) (dir fallback : Bool) (rejected : List (Nat × Nat × Nat)) : State :=
  let s := ((s.fput fBNC_STATUS_boot_status 0 status).fput fBNC_STATUS_dir 0 (b2n dir)).fput fBNC_STATUS_fallback 0 (b2n fallback)
  rejected.foldl (fun s r => s.logWrite 0x0D 0xFF (r.1 % 256 + r.2.1 % 256 * 256) r.2.2) s

/-- What a boot that succeeds brings up: the images, the memory but for the failed channels, with its first refresh interval, every
domain, the system queues and spaces, and the log region (R312, R326, R332, R457, R472). -/
def State.bootUp (s : State) (failed : Nat) : State :=
  let s := (List.range 4).foldl State.loadVendor s.loadImages
  let s := s.dropAlmanac.channelStates 0
  let s := ((s.fput fMEM_STATUS_state 0 2).fput fMEM_REF_ORG_cycles 0 s.mer0).firstInterval
  let s := s.fput fPWR_ON_on 0 (2 ^ 36 - 1)
  let s := (maskBits 64 failed).foldl (fun s ch => s.faultChannel ch 0) s
  s.copyVendor.makeSystemSpaces.makeSystemQueues.appendLog

/-- BOOT_COMPLETE: boot ends in a status, with the directory used, the channels that failed training, and each rejected directory or
image as (directory, type, failing check) (R326, R457 to R460, R470). -/
def State.doBootComplete (s : State) (status : Nat) (dir fallback : Bool) (failed : Nat) (rejected : List (Nat × Nat × Nat)) :
    State :=
  if s.fget fBNC_STATUS_stage ≠ 3 ∨ s.fget fBNC_STATUS_boot_status ≠ 0 ∨ s.bnc.tripped ∨ s.bootCan status dir failed = false then s
  else
    let s := s.bootNote status dir fallback (rejected.filter (fun r => s.canReject r.1 r.2.1 r.2.2))
    if status ≠ 1 then (s.fput fBNC_STATUS_stage 0 (failStage status)).bootRecord status
    else
      let s := (s.bootUp failed).fput fBNC_STATUS_stage 0 6
      (if s.host.perst then s else s.setReady).bootRecord 1

/-! ### Resets (R453, R454, R471) -/

/-- A Logbook register, which the NVM keeps. -/
def isLogReg (k : RegKey) : Bool := k.id == .BNC_LOG_STAT || k.id == .BNC_LOG_ENTRY

/-- Everything but time, the free values, the NVM, the eFuse, the QSPI flash and the host's memory at its reset value (R453). -/
def State.coldState (s : State) : State :=
  let b := s.bnc
  let r := State.reset
  { r with
    now := s.now, free := s.free, pending := s.pending, host := { r.host with mem := s.host.mem },
    regs := s.regs.filter (fun e => isLogReg e.1),
    bnc := { r.bnc with logSeq := b.logSeq, bootCount := b.bootCount, qspiLog := b.qspiLog, qspiSeq := b.qspiSeq,
                        fuseSig := b.fuseSig, fuseKey := b.fuseKey, flash := b.flash } }

/-- A cold reset after its record: its cause, what trip came before, and how often the device booted (R453, R457). -/
def State.coldEnd (s : State) (byResetN trip : Bool) : State :=
  let n := s.coldState
  let n := n.setMer 0 { n.mer 0 with anchorT := s.now }
  let n := (n.fput fBNC_LOG_STAT_writes 0 0).fput fBNC_LOG_STAT_suppressed 0 0
  ((n.fput fBNC_RESET_last 0 (b2n byResetN)).fput fBNC_RESET_trip_before 0 (b2n trip)).fput fBNC_RESET_boot 0 s.bnc.bootCount

/-- COLD_RESET: PWRGD or RESET_N falls. The shutdown record is written, then everything resets; the NVM, the QSPI flash and the
host's memory are not the device's to reset (R453, R471). -/
def State.doColdReset (s : State) (byResetN : Bool) : State :=
  (s.logWrite 2 0xFF 0 0).coldEnd byResetN s.bnc.tripped

/-- The registers that a warm reset keeps: Binnacle's, power and heat, the meridians', the memory's and the Ethernet port's (R454). -/
def warmKeeps (k : RegKey) : Bool :=
  let c := k.id.ctorIdx
  let within (a b : RegId) : Bool := decide (a.ctorIdx ≤ c ∧ c ≤ b.ctorIdx)
  within .BNC_STATUS .THM_EVQ || within .MER_CTL .MER_MS_STAT || within .MEM_STATUS .MEM_TRN_ERR || within .ETH_CTL .ETH_OOB_PEER

/-- The clusters after a warm reset: user images are discarded, and the vendor's stands as its verified copy does (R454). -/
def State.warmClusters (s : State) : Bank Nat Cluster :=
  (List.range 4).foldl (fun b c =>
    let x := s.cluster c
    nset {} c { vendor := x.vendor, image := x.image, words := x.words.filter (fun e => !isUserKey e.1),
                lead := x.lead.filter (fun e => decide (e.1 < 0xC0)) } b) []

/-- What R454 lists is kept, and the rest is at its reset value. -/
def State.warmState (s : State) : State :=
  let r := State.reset
  { s with
    regs := s.regs.filter (fun e => warmKeeps e.1),
    host := { r.host with mem := s.host.mem, msiSent := s.host.msiSent, perst := true },
    ms := { s.ms with pending := [] }, depot := r.depot, swy := r.swy,
    helm := { r.helm with fixSeq := s.helm.fixSeq, counters := s.helm.counters },
    pins := r.pins, alm := { s.alm with stageKey := none, stage := 0 }, clusters := s.warmClusters, pilots := r.pilots,
    jobs := r.jobs, chart := r.chart, dma := r.dma, sxt := r.sxt, dds := r.dds, adc := r.adc, acq := r.acq, wln := r.wln }

/-- A warm reset after its record: the fix count stays readable, and the reset is counted (R453, R454). -/
def State.warmEnd (s : State) (fixSeq : Nat) : State :=
  ((s.warmState.fput fHLM_FIX_STAT_seq 0 fixSeq).fput fBNC_RESET_last 0 2).bump fBNC_RESET_warm_count

/-- WARM_RESET: PERST# asserts. Legs end as under ABORT_ALL, the record is written, and the control and data planes are held in
reset; what R454 lists is kept (assumption 52). -/
def State.doWarmReset (s : State) : State :=
  if s.host.perst then s
  else
    let jobs := s.acceptedJobs.length
    let s := (List.range 4).foldl State.portDown s
    let s := (s.logWrite 5 0xFF jobs 0).settleWrites
    s.warmEnd s.helm.fixSeq

/-- PERST_DEASSERT: the control plane starts again and ready sets, without training of the memory (R454). After a trip Helm has no
power; a boot that failed never sets ready (R460, R466). -/
def State.doPerstDeassert (s : State) : State :=
  if s.host.perst = false then s
  else
    let s := ({ s with host := { s.host with perst := false } } : State).trainPci
    if s.fget fBNC_STATUS_boot_status = 1 ∧ s.bnc.tripped = false then s.makeSystemQueues.setReady else s

/-! ### Heat (R462 to R467) -/

/-- A condition of ALERT_N arises anew (R494). -/
def State.newAlert (s : State) : State := { s with bnc := { s.bnc with alertAck := false } }

/-- The interrupt of THM_LIMIT. -/
def State.thermalIrq (s : State) : State :=
  if s.fbit fTHM_LIMIT_irq_en then s.signal (s.fget fTHM_LIMIT_vector) else s

/-- A heat event of 32 bytes. -/
def State.heatEvent (s : State) (new old : Nat) : Nat :=
  pack [(0, 2, new), (2, 2, old), (16, 4, 15), (32, 16, s.fget fTHM_TEMP_rise), (48, 16, s.fget fTHM_TEMP_temp), (64, 64, s.mer0)]

/-- The thermal state changes (R463). -/
def State.thermalTo (s : State) (new : Nat) : State :=
  let old := s.fget fTHM_STAT_state
  let s := s.fput fTHM_STAT_state 0 new
  let s : State := { s with bnc := { s.bnc with calm := 0 } }
  let s := if new = 1 then s.bump fTHM_STAT_warn_count else if new = 2 then s.bump fTHM_STAT_act_count else s
  let q := s.fget fTHM_EVQ_queue
  let s := if q = 0 then s else (s.commit q .binnacle 32 (s.heatEvent new old)).1
  let s := if new = 2 then s.logWrite 4 0xFF (s.fget fTHM_TEMP_rise) 0 else s
  let s := if old = 0 then s.newAlert else s
  s.thermalIrq

/-- The rise from the readings, newest first (R463); no rise is shown until 272 readings exist (assumption 53). -/
def riseOf (rs : List Int) : Int :=
  if rs.length < 272 then 0 else (((rs.take 16).sum - ((rs.drop 256).take 16).sum) * 125).tdiv 128

/-- One step of the state table of R463. -/
def State.thermalStep (s : State) (rise : Int) : State :=
  let warn : Int := (s.fget fTHM_CFG_warn : Nat)
  let act : Int := (s.fget fTHM_CFG_act : Nat)
  let calmer (b : Bool) (n : Nat) : State :=
    if b then
      if n ≤ s.bnc.calm + 1 then s.thermalTo 0 else { s with bnc := { s.bnc with calm := s.bnc.calm + 1 } }
    else { s with bnc := { s.bnc with calm := 0 } }
  match s.fget fTHM_STAT_state with
  | 0 => if act ≤ rise then s.thermalTo 2 else if warn ≤ rise then s.thermalTo 1 else s
  | 1 => if act ≤ rise then s.thermalTo 2 else calmer (decide (2 * rise < warn)) 256
  | 2 => calmer (decide (rise < warn)) 4000
  | _ => s

/-- Registers that a trip leaves readable: the always-on blocks', and the fix doorbell's (R448, R466). -/
def tripKeeps (k : RegKey) : Bool :=
  let c := k.id.ctorIdx
  let within (a b : RegId) : Bool := decide (a.ctorIdx ≤ c ∧ c ≤ b.ctorIdx)
  within .BNC_STATUS .THM_EVQ || within .MER_CTL .MER_MS_STAT || within .DEV_ID .PCI_ERR || within .HLM_FIX_ADDR .HLM_PROMPT_CNT

/-- Every switched domain but PCIe without power: the always-on blocks and the fix doorbell keep their state (R448, R466). -/
def State.tripState (s : State) : State :=
  let r := State.reset
  { s with
    regs := s.regs.filter (fun e => tripKeeps e.1),
    host := { s.host with deliver := [], bells := [] },
    ms := { s.ms with pending := [] }, depot := r.depot, swy := r.swy,
    helm := { r.helm with fix := s.helm.fix, fixSeq := s.helm.fixSeq, counters := s.helm.counters },
    pins := r.pins, alm := r.alm, clusters := r.clusters, pilots := r.pilots, jobs := r.jobs, hbm := r.hbm, chart := r.chart,
    dma := r.dma, sxt := r.sxt, dds := r.dds, adc := r.adc, acq := r.acq, wln := r.wln, eth := r.eth,
    bnc := { s.bnc with tripped := true, thermTrip := true, down := 2 ^ 36 - 1 - 2 ^ 20, rising := 0, riseEnd := [],
                        downNext := 0, upNext := 0, blkReset := 0, pwrReq := none } }

/-- A trip after its record: the state shown, and no domain but PCIe on (R448, R466). -/
def State.tripEnd (s : State) : State :=
  let s := (s.fput fTHM_STAT_state 0 3).tripState
  (s.fput fPWR_ON_on 0 (s.fget fPWR_ON_on % 2 ^ 21 / 2 ^ 20 * 2 ^ 20)).fput fPWR_SWITCHING_pending 0 0

/-- The hardware trip (R18, R466): pins enter the trip state, every switched domain but PCIe is cut, and only a cold reset ends
it. -/
def State.trip (s : State) : State :=
  if s.bnc.tripped then s
  else
    let s := s.logWrite 3 0xFF 0 (s.fget fTHM_TEMP_rise)
    let s := if s.fget fTHM_STAT_state = 0 then s.newAlert else s
    s.tripEnd

/-- The rise with one reading more (R463). -/
def State.nextRise (s : State) (temp : Int) : Int := clampInt (-32768) 32767 (riseOf ((temp :: s.bnc.readings).take 272))

/-- THM_TEMP and the readings kept, with one reading more (R462, R463). -/
def State.noteReading (s : State) (temp : Int) : State :=
  let first := s.bnc.readings = []
  let rise := s.nextRise temp
  let s : State := { s with bnc := { s.bnc with readings := (temp :: s.bnc.readings).take 272 } }
  let s := (s.fput fTHM_TEMP_temp 0 (enc 16 temp)).fput fTHM_TEMP_rise 0 (enc 16 rise)
  if first ∨ sext 16 (s.fget fTHM_TEMP_peak) < temp then s.fput fTHM_TEMP_peak 0 (enc 16 temp) else s

/-- A reading at or above the limit is noted (R465). -/
def State.limitCheck (s : State) (temp : Int) : State :=
  let hit := decide (sext 16 (s.fget fTHM_LIMIT_level) ≤ temp)
  if hit ∧ s.fbit fTHM_STAT_limit_hit = false then ((s.fput fTHM_STAT_limit_hit 0 1).newAlert).thermalIrq else s

/-- THERMAL_SAMPLE: Binnacle reads the sensor, in 1/16 °C, at the next multiple of 400,000 MER0 cycles (R462, R463). The trip's own
comparator sees the same reading. -/
def State.doThermalSample (s : State) (temp : Int) : State :=
  let s := s.advance (s.mer0Instant ((s.mer0 / 400000 + 1) * 400000))
  let rise := s.nextRise temp
  let s := s.noteReading temp
  let s := s.limitCheck temp
  let s := if s.bnc.tripped then s else s.thermalStep rise
  if 1776 ≤ temp then s.trip else s

/-- THERMAL_TRIP: the trip's comparator sees 111.0 °C or more (R466). -/
def State.doThermalTrip (s : State) : State := s.trip

/-- The bounds of R467. -/
def thermalOk (warn act skip div : Nat) : Bool :=
  decide (16 ≤ warn ∧ warn < act ∧ act ≤ 1600 ∧ 2 ≤ skip ∧ skip ≤ 16 ∧ 1 ≤ div ∧ div ≤ 3)

/-- THERMAL_SET (R467). -/
def bodyThermalSet : CmdBody := fun k s =>
  if thermalOk (u16 k 0) (u16 k 2) (u8 k 4) (u8 k 5) = false then fail s .paramInvalid
  else ok ((((s.fput fTHM_CFG_warn 0 (u16 k 0)).fput fTHM_CFG_act 0 (u16 k 2)).fput fTHM_CFG_skip_n 0 (u8 k 4)).fput
    fTHM_CFG_div 0 (u8 k 5))

/-- A write of THM_CFG: one that breaks R467 is discarded. -/
def State.doThmCfgWrite (s : State) (v : Nat) : State :=
  if thermalOk (bits v 15 0) (bits v 31 16) (bits v 36 32) (bits v 38 37) then s.wr .THM_CFG 0 0 (BitVec.ofNat 64 (bits v 38 0))
  else s.fput fTHM_STAT_cfg_err 0 1

/-! ### SMBus (R494) -/

/-- The port answers. -/
def State.smbAnswer (s : State) (v : Nat) : State := { s with bnc := { s.bnc with smb := some v } }

/-- The SMBus address (R476). -/
def State.smbAddress (s : State) : Nat := 0x58 + s.bnc.straps % 4

/-- SMBus command 0x01. -/
def State.doSmbTemp (s : State) : State := s.smbAnswer (s.fget fTHM_TEMP_temp)
/-- SMBus command 0x02. -/
def State.doSmbState (s : State) : State := s.smbAnswer (s.fget fTHM_STAT_state)
/-- SMBus command 0x03. -/
def State.doSmbStatus (s : State) : State := s.smbAnswer ((s.rd .BNC_STATUS).toNat % 2 ^ 16)
/-- SMBus command 0x04. -/
def State.doSmbPower (s : State) : State := s.smbAnswer (s.fget fPWR_ON_on % 2 ^ 32)

/-- ALERT_N is asserted. -/
def State.alertN (s : State) : Bool := (s.fget fTHM_STAT_state != 0 || s.fbit fTHM_STAT_limit_hit) && !s.bnc.alertAck

/-- The Alert Response Address: the port answers with its own address, and ALERT_N deasserts until a condition arises anew. -/
def State.doSmbAlertResponse (s : State) : State :=
  let s := s.smbAnswer s.smbAddress
  { s with bnc := { s.bnc with alertAck := true } }

/-! ### The rows of the command table -/

/-- POWER_DOMAIN (R450). -/
def execPowerDomain (k : Packet) (s : State) : Host.Outcome State Fault Refusal := .next (s.runCommand 0xB001 bodyPowerDomain k)

/-- THERMAL_SET (R467). -/
def execThermalSet (k : Packet) (s : State) : Host.Outcome State Fault Refusal := .next (s.runCommand 0xB002 bodyThermalSet k)

/-- PENDING_POWER_DOWN (R451). -/
def execPendingPowerDown (d : Fin 36) (s : State) : Host.Outcome State Fault Refusal := .next (s.doPendingPowerDown d.val)

/-- POWER_UP_DONE (R452). -/
def execPowerUpDone (d : Fin 36) (s : State) : Host.Outcome State Fault Refusal := .next (s.doPowerUpDone d.val)

/-- POWER_GOOD (R457). -/
def execPowerGood (straps : BitVec 4) (s : State) : Host.Outcome State Fault Refusal := .next (s.doPowerGood straps.toNat)

/-- BOOT_COMPLETE (R457). -/
def execBootComplete (status : BitVec 8) (dir : Bool) (fallback : Bool) (failed : BitVec 64) (rejected : List (BitVec 8 × BitVec 8 × BitVec 8)) (s : State) : Host.Outcome State Fault Refusal :=
  .next (s.doBootComplete status.toNat dir fallback failed.toNat (rejected.map (fun e => (e.1.toNat, e.2.1.toNat, e.2.2.toNat))))

/-- COLD_RESET (R471). -/
def execColdReset (byResetN : Bool) (s : State) : Host.Outcome State Fault Refusal := .next (s.doColdReset byResetN)

/-- WARM_RESET (R454). -/
def execWarmReset (s : State) : Host.Outcome State Fault Refusal := .next s.doWarmReset

/-- PERST_DEASSERT (R454). -/
def execPerstDeassert (s : State) : Host.Outcome State Fault Refusal := .next s.doPerstDeassert

/-- THERMAL_SAMPLE (R463). -/
def execThermalSample (temp : Int) (s : State) : Host.Outcome State Fault Refusal := .next (s.doThermalSample temp)

/-- THERMAL_TRIP (R466). -/
def execThermalTrip (s : State) : Host.Outcome State Fault Refusal := .next s.doThermalTrip

/-- SMB_THM_TEMP (R494). -/
def execSmbThmTemp (s : State) : Host.Outcome State Fault Refusal := .next s.doSmbTemp

/-- SMB_THM_STATE (R494). -/
def execSmbThmState (s : State) : Host.Outcome State Fault Refusal := .next s.doSmbState

/-- SMB_BNC_STATUS (R494). -/
def execSmbBncStatus (s : State) : Host.Outcome State Fault Refusal := .next s.doSmbStatus

/-- SMB_PWR_ON (R494). -/
def execSmbPwrOn (s : State) : Host.Outcome State Fault Refusal := .next s.doSmbPower

/-- SMB_ALERT_RESPONSE (R494). -/
def execSmbAlertResponse (s : State) : Host.Outcome State Fault Refusal := .next s.doSmbAlertResponse

end Sys2Proof.Machine
end

