-- ==== Sys2Proof/Machine/Network.lean ====
section
/-! DEFINITION. The Ethernet port: PTP and the MER7 servo, frames and launches, telemetry and fix requests; and the unmasking of MSI-X
vectors (R441, R443 to R447). -/

namespace Sys2Proof.Machine

/-- The Ethernet port works: its domain is up and it is enabled. -/
def State.ethOn (s : State) : Bool := s.powered 21 && s.fbit fETH_CTL_en

/-- Its link is up too. -/
def State.ethUp (s : State) : Bool := s.ethOn && s.fbit fETH_MAC_link

/-- ETH_LINK_CHANGE: the link goes up or down (R436, R443). A port that is off has no link. -/
def State.doEthLinkChange (s : State) (up : Bool) : State := s.fput fETH_MAC_link 0 (b2n (up && s.ethOn))

/-! ### PTP (R444, R445) -/

/-- The servo has measured an offset of MER7 from the time transmitter, in 2^-16 ns: an idle MER7 is stepped once, then the servo
slews; its terms are free values inside R49 (R445; assumption 42). -/
def State.ptpServo (s : State) (offset : Int) : State :=
  let ns := clampInt (-2147483647) 2147483647 (offset.tdiv 65536)
  let s := s.fput fETH_PTP_STAT_offset_ns 0 (enc 32 ns)
  let used := s.merInUse 7
  let s := if used ∧ 655360000 < offset.natAbs then s.fput fETH_PTP_STAT_step_wanted 0 1 else s
  let s := if used = false ∧ s.fbit fETH_PTP_STAT_locked = false ∧ (s.mer 7).st = .running then
      s.merStep 7 (s.wallAfter (-(offset * 256)))
    else s
  let s := (s.fput fETH_PTP_STAT_locked 0 1).fput fETH_PTP_STAT_holdover 0 0
  if (s.mer 7).st = .running then s.steer7 else s

/-- An event message is stamped on a running MER7, and a Sync is noted (R444, R445). -/
def State.ptpStamp (s : State) (t : Nat) (sync : Bool) : State :=
  let s : State := if (s.mer 7).st = .running then { s with eth := { s.eth with stamps := (s.mer 7).reading t :: s.eth.stamps } } else s
  if sync then { s with eth := { s.eth with lastSync := t } } else s

/-- PTP_MESSAGE: an event message is sent or received at an instant in units of 20 fs and stamped on MER7; a received Sync feeds the
servo, which may then know its offset (R444, R445). -/
def State.doPtpMessage (s : State) (at20fs : Nat) (sync measured : Bool) (offset : Int) : State :=
  if s.ethUp = false then s
  else
    let s := (s.advance (at20fs * 60)).ptpStamp (at20fs * 60) sync
    if s.fget fMER_WALL_CTL_discipline = 1 ∧ measured then s.ptpServo offset else s

/-- SYNC_TIMEOUT: no Sync for 3 s; the last frequency term stays in force (R445). -/
def State.doSyncTimeout (s : State) : State :=
  if s.fget fMER_WALL_CTL_discipline ≠ 1 ∨ s.fbit fETH_PTP_STAT_holdover then s
  else
    let s := s.advance (s.eth.lastSync + 3 * unitsPerSecond)
    (s.fput fETH_PTP_STAT_holdover 0 1).fput fETH_PTP_STAT_locked 0 0

/-! ### Frames (R446) -/

/-- A frame's completion. -/
def State.ethCpl (s : State) (tag status stamp : Nat) : State :=
  s.reportCtl (s.fget fETH_TXQ_cpl_q) 16
    (pack [(0, 32, tag), (32, 4, status), (48, 16, stamp / 256 % 65536), (64, 64, stamp / fracOne)])

/-- A frame leaves. -/
def State.ethSend (s : State) (f : EthFrame) : State :=
  ({ s with eth := { s.eth with sent := s.eth.sent ++ [f] } } : State).ethCpl f.tag 0 f.stamp

/-- ETH_TX_ELEMENT: the element at the head of the transmit queue is taken; its frame is sent, waits for its launch reading, or is
refused (R446). A launch that waits holds the frames behind it. -/
def State.doEthTxElement (s : State) : State :=
  if s.ethOn = false ∨ s.eth.launch.isSome then s
  else match s.qTake (s.fget fETH_TXQ_queue) with
    | none => s
    | some (e, s) =>
      let tag := bits e 127 96
      let launch := bitAt e 56
      let at88 := bits e 191 128 * fracOne + bits e 207 192 * 256
      if launch ∧ at88 < s.odo 7 then s.ethCpl tag 1 0
      else if s.ethUp = false then s.ethCpl tag 2 0
      else match s.dvaRead sourceHelm portBP (bits e 55 48) (bits e 47 0) (bits e 74 64) with
        | (s, .fault f) => ((s.raiseFault f).1).ethCpl tag 3 0
        | (s, .poison) => s.ethCpl tag 3 0
        | (s, .done bs) =>
          if launch then { s with eth := { s.eth with launch := some ⟨tag, bs, 0⟩, launchAt := at88 } }
          else s.ethSend ⟨tag, bs, s.odo 7 / 256 * 256⟩

/-- The departure stamp of a launched frame: its launch reading, within 1.28 ns, of which the part is a free value (R446). -/
def launchStamp (due : Nat) (w : Word) : Nat :=
  enc 88 ((due : Int) + ((w.toNat % 167773 : Nat) - 83886) * 256)

/-- ETH_LAUNCH: the launched frame's reading is reached. It begins at a block boundary within 1.28 ns, and its departure stamp is free
within that (R446). -/
def State.doEthLaunch (s : State) : State :=
  match s.eth.launch, (s.mer 7).instantOf s.eth.launchAt with
  | some f, some t =>
    let s := s.advance t
    let due := s.eth.launchAt
    let s : State := { s with eth := { s.eth with launch := none, launchAt := 0 } }
    if s.ethUp = false then s.ethCpl f.tag 2 0
    else s.fresh.1.ethSend { f with stamp := launchStamp due s.fresh.2 }
  | _, _ => s

/-! ### Telemetry and fix requests (R447) -/

/-- The telemetry datagram, with parts of the fix record (R447). -/
def State.telemetry (s : State) : List Byte :=
  let r := s.fixRecord 2 0xFFFF 0
  bytesOf 4 0x4D544B50 ++ bytesOf 4 s.eth.oobSeq ++ r.take 128 ++ (r.drop 0xE80).take 384

/-- TELEMETRY_TIMER: the period has passed, and a datagram with parts of a fix record goes to the peer. -/
def State.doTelemetryTimer (s : State) : State :=
  if s.ethUp = false ∨ s.fbit fETH_OOB_en = false then s
  else
    let s := s.advance (s.eth.oobAt + max 10 (s.fget fETH_OOB_period_ms) * 1000000 * unitsPerNs)
    let s := s.fixInstant
    { s with eth := { s.eth with datagrams := s.eth.datagrams ++ [s.telemetry], oobSeq := (s.eth.oobSeq + 1) % 2 ^ 32, oobAt := s.now } }

/-- FIX_REQUEST_DATAGRAM: a datagram of a source address and port with its first 4 bytes; only the peer's request counts. One that
comes while a fix is being written is not served (assumption 54). -/
def State.doFixRequestDatagram (s : State) (src port magic : Nat) : State :=
  if s.ethUp = false ∨ s.fbit fETH_OOB_en = false ∨ src ≠ s.fget fETH_OOB_PEER_ipv4 ∨ port ≠ s.fget fETH_OOB_port ∨
      magic ≠ 0x51464B50 ∨ s.helm.fix.isSome then s
  else s.latchFix 2 0xFFFF 0 0 false 0

/-! ### MSI-X (R441) -/

/-- The function's enable and a vector's mask bit. -/
def State.unmask (s : State) (v : Nat) (enable : Bool) : State :=
  { s with host := { s.host with
    msixEnable := enable, msixTable := nset (2 ^ 96) v (setBit (s.msixEntry v) 96 false) s.host.msixTable } }

/-- MSIX_UNMASK: the function's enable is set as given and a vector's mask bit clears; pending messages that may leave do. -/
def State.doMsixUnmask (s : State) (v : Nat) (enable : Bool) : State :=
  let s := s.unmask v enable
  s.host.msixPending.foldl (fun s e => s.msixSend e.1) s

/-! ### The rows of the command table -/

/-- PTP_MESSAGE (R445). -/
def execPtpMessage (at20fs : Nat) (sync : Bool) (measured : Bool) (offset : Int) (s : State) : Host.Outcome State Fault Refusal :=
  .next (s.doPtpMessage at20fs sync measured offset)

/-- SYNC_TIMEOUT (R445). -/
def execSyncTimeout (s : State) : Host.Outcome State Fault Refusal := .next s.doSyncTimeout

/-- ETH_TX_ELEMENT (R446). -/
def execEthTxElement (s : State) : Host.Outcome State Fault Refusal := .next s.doEthTxElement

/-- ETH_LAUNCH (R446). -/
def execEthLaunch (s : State) : Host.Outcome State Fault Refusal := .next s.doEthLaunch

/-- TELEMETRY_TIMER (R447). -/
def execTelemetryTimer (s : State) : Host.Outcome State Fault Refusal := .next s.doTelemetryTimer

/-- FIX_REQUEST_DATAGRAM (R447). -/
def execFixRequestDatagram (src : BitVec 32) (port : BitVec 16) (magic : BitVec 32) (s : State) : Host.Outcome State Fault Refusal :=
  .next (s.doFixRequestDatagram src.toNat port.toNat magic.toNat)

/-- ETH_LINK_CHANGE (R445). -/
def execEthLinkChange (up : Bool) (s : State) : Host.Outcome State Fault Refusal := .next (s.doEthLinkChange up)

/-- MSIX_UNMASK (R441). -/
def execMsixUnmask (v : Fin 2048) (enable : Bool) (s : State) : Host.Outcome State Fault Refusal :=
  .next (s.doMsixUnmask v.val enable)

end Sys2Proof.Machine
end

