-- ==== Sys2Proof/Machine/Registers.lean ====
section
/-! DEFINITION. Register accesses: the address map, the access codes, what each register's write does beyond storing, reads with
their side effects, delivery through the milestone scheduler, and register batches (R7 to R14, R377, R435 to R442). -/

namespace Sys2Proof.Machine

/-! ### The address map (R442) -/

/-- Where an offset lies in a register: unit, word, and byte inside the register. -/
def RegInfo.place (r : RegInfo) (a : Nat) : Option (Nat × Nat × Nat) :=
  if a < r.base then none
  else
    let d := a - r.base
    let i := if 1 < r.c1 then d / r.s1 else 0
    let e := d - i * r.s1
    let j := if 1 < r.c2 then e / r.s2 else 0
    let b := e - j * r.s2
    if i < r.c1 ∧ j < r.c2 ∧ 8 * b < r.width then some (i, j, b) else none

/-- The register that holds a BAR0 offset, and the byte inside it; none in a reserved offset. -/
def regAt (a : Nat) : Option (RegKey × Nat) :=
  RegId.all.findSome? (fun id => (id.info.place a).map (fun p => (⟨id, p.1, p.2.1⟩, p.2.2)))

/-- An offset lies in a block of the map; the one gap is 0x090_0000 to 0x09F_FFFF (R442). -/
def inBlock (a : Nat) : Bool := decide (a < 0x900000 ∨ (0xA00000 ≤ a ∧ a < 0x2000000))

/-- A block of the data plane, which register writes reach through the milestone scheduler (R12): PLT to MER, and WLN. -/
def inDataPlane (a : Nat) : Bool := decide ((0x800000 ≤ a ∧ a < 0x1000000) ∨ (0x1600000 ≤ a ∧ a < 0x1700000))

/-- A block that keeps its power in a trip (R448, R466): DEV, BNC, MER, PCI, PWR/THM. -/
def inAlwaysOn (a : Nat) : Bool :=
  decide (a < 0x200000 ∨ (0xF00000 ≤ a ∧ a < 0x1000000) ∨ (0x1700000 ≤ a ∧ a < 0x1710000) ∨ (0x1800000 ≤ a ∧ a < 0x2000000))

/-- The Almanac aperture (R109). -/
def inAlmanac (a : Nat) : Bool := decide (0xB00000 ≤ a ∧ a < 0xC00000)
/-- The DDS list aperture (R268). -/
def inDdsList (a : Nat) : Bool := decide (0xD90000 ≤ a ∧ a < 0xDA0000)
/-- The MSI-X table (R437). -/
def inMsixTable (a : Nat) : Bool := decide (0x1700000 ≤ a ∧ a < 0x1708000)
/-- The MSI-X pending bits (R437). -/
def inMsixPba (a : Nat) : Bool := decide (0x1708000 ≤ a ∧ a < 0x1708100)

/-- Part of an access that falls in one register: its lowest bit there, the number of bits, the bits, and the lowest bit of the access
that it is. -/
structure Piece where
  key : RegKey
  lo : Nat
  n : Nat
  v : Nat
  src : Nat
  deriving DecidableEq, Repr

/-- The part of an access of n bytes at an offset that the register holding that offset takes. -/
def pieceAt (a n v src : Nat) : Option Piece :=
  (regAt a).map (fun p =>
    let w := min (8 * n) (p.1.id.info.width - 8 * p.2)
    ⟨p.1, 8 * p.2, w, v % 2 ^ w, src⟩)

/-- The registers that an aligned access of 4 or 8 bytes touches. -/
def pieces (a n v : Nat) : List Piece :=
  match pieceAt a n v 0 with
  | some p => if p.n = 8 * n then [p] else p :: (pieceAt (a + 4) 4 (v / 2 ^ 32) 32).toList
  | none => if n = 8 then (pieceAt (a + 4) 4 (v / 2 ^ 32) 32).toList else []

/-! ### Writes (R7, R9, R14) -/

/-- The part of a field that a piece covers, as bits of the register. -/
def FieldSpec.cover (f : FieldSpec) (p : Piece) : Option (Nat × Nat) :=
  let lo := max f.lo p.lo
  let hi := min f.hi (p.lo + p.n - 1)
  if lo ≤ hi ∧ 0 < p.n then some (hi, lo) else none

/-- One field after a write: RW stores, W1C clears the bits written 1, W1S sets them, and the others keep their value (R7). -/
def FieldSpec.write (f : FieldSpec) (p : Piece) (old : Nat) : Nat :=
  match f.cover p with
  | none => old
  | some (hi, lo) =>
    let x := bits p.v (hi - p.lo) (lo - p.lo)
    let cur := bits old hi lo
    match f.acc with
    | .rw => setBits old hi lo x
    | .w1c => setBits old hi lo (cur - Nat.land cur x)
    | .w1s => setBits old hi lo (Nat.lor cur x)
    | .ro | .wo | .rc => old

/-- A register's stored value after a write that has no effect beyond storing. -/
def storeFields (fs : List FieldSpec) (p : Piece) (old : Nat) : Nat := fs.foldl (fun v f => f.write p v) old

/-- The word that a register with an effect of its own sees: the bits written, and outside them the RW fields as they are. -/
def fullWord (r : RegInfo) (p : Piece) (old : Nat) : Nat :=
  if p.lo = 0 ∧ p.n = r.width then p.v
  else
    let kept := r.fields.foldl (fun v f => if f.acc = .rw then setBits v f.hi f.lo (bits old f.hi f.lo) else v) 0
    setBits kept (p.lo + p.n - 1) p.lo p.v

/-- The write is stored, field by field. -/
def State.storeWrite (s : State) (p : Piece) : State :=
  let k := p.key
  let i := k.id.unit k.i
  s.wr k.id i k.j (BitVec.ofNat 64 (storeFields k.id.info.fields p (s.rd k.id i k.j).toNat))

/-- A meridian's register acts on it while it runs: MER_START acts only at the next enable (R50). -/
def RegId.ofMeridian (id : RegId) : Bool := id.within .MER_CTL .MER_LOST_COUNT && id != .MER_START

/-- State that a running leg uses: the Pilot's registers, the pins of its job, its meridian, and the DDS engines and Sextant channels
that it controls. Writes to it are discarded, whatever the access code (R14). -/
def State.legUses (s : State) (k : RegKey) : Bool :=
  if k.id.ofPilot then s.legRuns k.i
  else if k.id.ofPin then s.pinInLeg k.i
  else if k.id.ofMeridian then s.merInLeg k.i
  else if k.id == .MER_WALL_CTL then s.merInLeg 7
  else if k.id.within .SXT_CH_CTL .SXT_CH_CNT then s.sxtInLeg k.i
  else if k.id.within .DDS_ENG_CTL .DDS_ENG_EPOCH_FRAC then s.ddsInLeg k.i
  else false

/-- The level, VTT or threshold codes of a register: PIN_CMP_LVL.hyst is none (R69, R73). -/
def State.codesOf (s : State) (k : RegKey) : Nat :=
  let v := (s.rd k.id k.i).toNat
  if k.id = .PIN_CMP_LVL then bits v 23 0 else v

/-- A level or threshold register is stored, and the pin settles if a code changed (R69, R73). -/
def State.levelWrite (s : State) (p : Piece) : State :=
  let old := s.codesOf p.key
  let t := s.storeWrite p
  t.settleIf p.key.i (t.codesOf p.key != old)

/-- PIN_CTL is stored; a change of the analogue bus breaks before it makes (R65, R81). -/
def State.pinCtlWrite (s : State) (p : Piece) : State := (s.storeWrite p).noteAnalogue p.key.i (s.asksAnalogue p.key.i)

/-- What follows a change of a PMU's path (mode or range) or of its force value (R77, R78, R289). -/
def State.afterPmu (s : State) (n : Nat) (was : Nat × Nat) (path moved : Bool) : State :=
  let s := if path then s.sdPmuChange n was else s
  (s.clampCheck n).settleIf n (path || moved)

/-- A PMU register is stored, with what a change of mode, range, force value or clamps does. -/
def State.pmuWrite (s : State) (p : Piece) : State :=
  let n := p.key.i
  let t := s.storeWrite p
  let path := t.fget fPIN_PMU_CTL_mode n != s.fget fPIN_PMU_CTL_mode n ||
    pmuRange (t.fget fPIN_PMU_CTL_range n) != pmuRange (s.fget fPIN_PMU_CTL_range n)
  (t.afterPmu n (s.pmuSet n) path (t.fget fPIN_PMU_FORCE_value n != s.fget fPIN_PMU_FORCE_value n)).noteAnalogue n (s.asksAnalogue n)

/-- A queue's descriptor register other than DPT_Q_CTL: read-only for a system queue, discarded with cfg_drop while the queue is
enabled (R390, R400). -/
def State.descWrite (s : State) (p : Piece) (always : Bool) : State :=
  if p.key.i < 1024 then s
  else if always = false ∧ s.fbit fDPT_Q_CTL_en p.key.i then s.fput fDPT_STATUS_cfg_drop 0 1
  else s.storeWrite p

/-- A register of an address space: RO for a system space, discarded with as_drop for a valid one but for what R333 leaves to
ASPACE_SET. -/
def State.spaceWrite (s : State) (p : Piece) : State :=
  if 252 ≤ p.key.i then s
  else if s.spaceValid p.key.i then s.fput fCHT_STATUS_as_drop 0 1
  else s.storeWrite p

/-- A BAR2 register: base and space stay while the window is enabled, and a base holds a multiple of 1 GiB (R356). -/
def State.bar2Reg (s : State) (p : Piece) : State :=
  let t := s.storeWrite p
  let moved := t.fget fCHT_BAR2_CTL_space != s.fget fCHT_BAR2_CTL_space || t.fget fCHT_BAR2_BASE_dva != s.fget fCHT_BAR2_BASE_dva
  if s.fbit fCHT_BAR2_CTL_en ∧ moved then
    let s := s.fput fCHT_STATUS_as_drop 0 1
    if p.key.id = .CHT_BAR2_CTL ∧ t.fbit fCHT_BAR2_CTL_en = false then s.fput fCHT_BAR2_CTL_en 0 0 else s
  else t

/-- A write of an acquisition unit's configuration, discarded while the unit is not idle (ACQ_SRC to ACQ_LEVEL). -/
def State.acqCfgWrite (s : State) (p : Piece) : State :=
  if (s.aq p.key.i).st = .idle then s.storeWrite p else s.fput fACQ_STAT_write_drop p.key.i 1

/-- A Wayline port's control: the convoy bit stays while mustered. -/
def State.portCtlWrite (s : State) (p : Piece) : State :=
  let old := s.fget fWLN_P_CTL_convoy p.key.i
  let t := s.storeWrite p
  if s.mustered then t.fput fWLN_P_CTL_convoy p.key.i old else t

/-- What a write to a register does, when no running leg uses it. -/
def State.regEffect (s : State) (p : Piece) : State :=
  let i := p.key.i
  let v := fullWord p.key.id.info p (s.rd p.key.id (p.key.id.unit i) p.key.j).toNat
  match p.key.id with
  | .MER_CTL => s.doMerCtlWrite i .ctl v
  | .MER_FWORD => s.doMerCtlWrite i .fword v
  | .MER_TRACK => s.doMerCtlWrite i .track v
  | .MER_FLIM => s.doMerCtlWrite i .flim v
  | .MER_START => (s.forgetWraps i).storeWrite p
  | .MER_SNAP => s.doMerSnap (v % 256)
  | .PIN_CTL => s.pinCtlWrite p
  | .PIN_DRV_LVL | .PIN_VTT | .PIN_CMP_LVL => s.levelWrite p
  | .PIN_PMU_CTL | .PIN_PMU_FORCE | .PIN_PMU_CLAMP => s.pmuWrite p
  | .PIN_STATUS => (s.storeWrite p).clampCheck i
  | .PIN_SITE => if (s.pinJob i).isSome then s else s.storeWrite p
  | .PLT_WTO => if p.key.j = 0 then s else s.storeWrite p
  | .SXT_CH_CTL => doSxtChCtlWrite i v s
  | .SXT_WIN_CMT => if bitAt v 0 then doSxtWinCommit i s else s
  | .SXT_MU_CTL => doSxtMuCtlWrite i v s
  | .SXT_SC_START => if bitAt v 0 then doSelfCheckStart s else s
  | .ADC_TRIG => if bitAt v 0 then doAdcTrigGo s else s
  | .ADC_SD_CFG => doAdcSdCfgWrite i v s
  | .ADC_SAR_INJ => if bitAt v 3 then doSarInjectRequest i (bits v 2 0) s else s
  | .ACQ_CTL => doAcqCtlWrite i v s
  | .ACQ_TRIG => if bitAt v 0 then doAcqTrigGo i s else s
  | .ACQ_SRC | .ACQ_BASE | .ACQ_PRE | .ACQ_POST | .ACQ_NSEG | .ACQ_LEVEL => s.acqCfgWrite p
  | .MEM_MAP_CTL => s.doMemMapCtlWrite i v
  | .MEM_MAP_BASE => s.doMemMapSpanWrite fMEM_MAP_BASE_base i v
  | .MEM_MAP_LEN => s.doMemMapSpanWrite fMEM_MAP_LEN_len i v
  | .CHT_INV_GO => if bitAt v 0 then s.doChtInvGo else s
  | .CHT_AS_CTL | .CHT_AS_ROOT => s.spaceWrite p
  | .CHT_BAR2_CTL | .CHT_BAR2_BASE => s.bar2Reg p
  | .DMA_CH_CTL => s.doDmaChCtlWrite i v
  | .SWY_TICK => s.doSwyTickWrite v
  | .SWY_H_OP | .SWY_H_ARG | .SWY_H_SWITCH | .SWY_H_MSG => s
  | .DPT_Q_CTL => s.doDptQCtlWrite i v
  | .DPT_Q_OWNER | .DPT_Q_BASE | .DPT_Q_MIRROR => s.descWrite p false
  | .DPT_Q_THR | .DPT_Q_NOTIFY => s.descWrite p true
  | .WLN_HALT => if bitAt v 0 then s.doWlnHalt else s
  | .WLN_GO => if bitAt v 0 then s.doWlnGo else s
  | .WLN_AGG => s.doWlnAggWrite (bits v 15 0)
  | .WLN_P_CTL => s.portCtlWrite p
  | .BNC_BLK_RESET => s.doBlkReset v
  | .PWR_REQ => s.doPwrReq v
  | .THM_CFG => s.doThmCfgWrite v
  | .ETH_OOB =>
    let t := s.storeWrite p
    if t.fbit fETH_OOB_en ∧ s.fbit fETH_OOB_en = false then { t with eth := { t.eth with oobAt := t.now } } else t
  | _ => s.storeWrite p

/-- A write to one register: discarded while a running leg uses it (R14). -/
def State.regWrite (s : State) (p : Piece) : State := if s.legUses p.key then s.rtWriteDrop else s.regEffect p

/-- A write to the MSI-X table: 16 bytes a vector; a message that was masked may leave (R441). -/
def State.msixWrite (s : State) (off n v : Nat) : State :=
  let k := off / 16
  let b := off % 16
  let e := setBits (s.msixEntry k) (8 * (b + n) - 1) (8 * b) v
  ({ s with host := { s.host with msixTable := nset (2 ^ 96) k e s.host.msixTable } } : State).msixSend k

/-- A write of 4 or 8 aligned bytes takes effect (R7, R9, R14). After a trip only blocks with power take one (R466). -/
def State.applyWrite (s : State) (a n v : Nat) : State :=
  if s.bnc.tripped ∧ inAlwaysOn a = false ∧ ¬(0x200018 ≤ a ∧ a < 0x200030) then s
  else if inAlmanac a then
    let off := a - 0xB00000
    s.almWrite (s.almApertureSet off) (off % 2048 / 32) (off % 32) n v
  else if inDdsList a then
    if n = 8 then doDdsListWrite ((a - 0xD90000) / 16) (bitAt a 3) v s else s
  else if inMsixTable a then s.msixWrite (a - 0x1700000) n v
  else (pieces a n v).foldl State.regWrite s

/-- A register write arrives: the milestone scheduler holds it for a data-plane block, and it acts at once elsewhere (R12). -/
def State.arriveWrite (s : State) (a n v : Nat) : State :=
  if inDataPlane a then { s with host := { s.host with deliver := s.host.deliver ++ [⟨a, n, v⟩] } }
  else s.applyWrite a n v

/-- IMMEDIATE_MILESTONE: the scheduler delivers the oldest write that waits (R12). -/
def State.doDeliver (s : State) : State :=
  match s.host.deliver with
  | [] => s
  | w :: rest => ({ s with host := { s.host with deliver := rest } } : State).applyWrite w.addr w.size w.value

/-- Every write that waits is delivered, in arrival order (R12, R439). -/
def State.deliverAll (s : State) : State := s.host.deliver.foldl (fun s _ => s.doDeliver) s

/-! ### Register writes with rows of their own -/

/-- A supported access of the register blocks: 4 or 8 bytes, naturally aligned (R438). -/
def accessOk (a n : Nat) : Bool := (n == 4 || n == 8) && a % n == 0

/-- A block takes a write: all blocks do, but those that a trip has cut take none (R466). -/
def State.takesWrite (s : State) (a : Nat) : Bool := !s.bnc.tripped || inAlwaysOn a

/-- Writes of a data-plane block act in the order of their arrival, so those that wait for delivery come first (R12). -/
def State.inOrder (s : State) (a : Nat) : State := if inDataPlane a then s.deliverAll else s

/-- A write of a whole register that has a row of its own takes effect (R9, R12, R14). -/
def State.rowWrite (s : State) (id : RegId) (i v : Nat) : State :=
  let a := id.info.base
  let s := s.inOrder a
  if s.takesWrite a then s.regWrite ⟨⟨id, i, 0⟩, 0, id.info.width, v % 2 ^ id.info.width, 0⟩ else s

/-- A write to the Almanac aperture takes effect (R110): an access of 4 or 8 bytes, naturally aligned; any other is discarded (R109,
R438). -/
def State.almanacRow (s : State) (set pin byte size v : Nat) : State :=
  if accessOk byte size = false then s.accessErr
  else
  let s := s.deliverAll
  if s.takesWrite 0xB00000 then s.almWrite set pin byte size (v % 2 ^ (8 * size)) else s

/-- A write to the DDS list aperture takes effect (R268). -/
def State.ddsListRow (s : State) (entry : Nat) (high : Bool) (v : Nat) : State :=
  let s := s.deliverAll
  if s.takesWrite 0xD90000 then doDdsListWrite entry high v s else s

/-! ### Reads (R7 to R9, R439) -/

/-- The RC fields that a read covers are 0 after it (R7, R8). A 4-byte read of part of an RC field clears the bits that it returns
and no others: the spec does not say whether the whole field clears (DESIGN CHOICE, assumption 64). -/
def State.clearRead (s : State) (p : Piece) : State :=
  let k := p.key
  let i := k.id.unit k.i
  let old := (s.rd k.id i k.j).toNat
  let new := k.id.info.fields.foldl (fun v f => if f.acc = .rc then (match f.cover p with
    | some (hi, lo) => setBits v hi lo 0
    | none => v) else v) old
  if new = old then s else s.wr k.id i k.j (BitVec.ofNat 64 new)

/-- The bits of one register that an access reads. -/
def State.regRead (s : State) (p : Piece) : State × Nat :=
  let k := p.key
  let i := k.id.unit k.i
  (s.clearRead p, bits (s.live k.id i k.j) (p.lo + p.n - 1) p.lo)

/-- n bytes of the Almanac aperture at a byte of a pin's entry; places beyond pin 47 read 0. -/
def State.almanacRead (s : State) (set pin byte n : Nat) : State × Nat :=
  if 48 ≤ pin then (s, 0) else ((s.readAlm set pin).1, bits (s.readAlm set pin).2.1 (8 * (byte + n) - 1) (8 * byte))

/-- The value of an aligned read of 4 or 8 bytes in the register blocks. -/
def State.readValue (s : State) (a n : Nat) : State × Nat :=
  if inBlock a = false then (s, 2 ^ (8 * n) - 1)
  else if inAlmanac a then s.almanacRead (s.almApertureSet (a - 0xB00000)) ((a - 0xB00000) % 2048 / 32) (a % 32) n
  else if inDdsList a then
    let e := s.ddsEntry (s.fget fDDS_CTL_aper_eng) ((a - 0xD90000) / 16)
    (s, if n = 8 then (if bitAt a 3 then e / 2 ^ 64 else e % 2 ^ 64) else 0)
  else if inMsixTable a then
    let b := (a - 0x1700000) % 16
    (s, bits (s.msixEntry ((a - 0x1700000) / 16)) (8 * (b + n) - 1) (8 * b))
  else if inMsixPba a then
    (s, maskWhere (8 * n) (fun k => nget false (8 * (a - 0x1708000) + k) s.host.msixPending))
  else (pieces a n 0).foldl (fun r p => let x := r.1.regRead p; (x.1, r.2 + x.2 * 2 ^ p.src)) (s, 0)

/-- The answer of a read: its size, 0 for Unsupported Request, and its value. -/
def State.readAnswer (s : State) (n v : Nat) : State := { s with host := { s.host with readSize := n, readValue := v } }

/-- REGISTER_READ: a read waits for the delivery of earlier writes and returns the value; the doorbell range reads 0, and any other
access than R438 supports is an Unsupported Request. PERST# holds the link. -/
def State.doRegisterRead (s : State) (a n : Nat) : State :=
  if s.host.perst then s
  else
    let s := s.deliverAll
    if 0x2000000 ≤ a then s.readAnswer n 0
    else if accessOk a n = false then s.accessErr.readAnswer 0 0
    else
      let r := s.readValue a n
      r.1.readAnswer n r.2

/-! ### Register batches (R377) -/

/-- A batch so far: entries done, and the index of the first write that R14 discarded. -/
structure Batch where
  done : Nat
  dropped : Option Nat
  deriving DecidableEq, Repr

/-- The result words of a batch. -/
def Batch.result (b : Batch) : Nat := b.done % 2 ^ 32 + (b.dropped.getD 0xFFFFFFFF) * 2 ^ 32

/-- How a batch ends. -/
def Batch.ends (b : Batch) (st : Status) (detail : Nat) : CmdEnd :=
  .done st detail b.result false (decide (st ≠ .ok ∧ 0 < b.done)) b.done

/-- The writes that R14 has discarded (R380). -/
def State.dropCount (s : State) : Nat := nget 0 10 s.helm.counters

/-- The entries of a batch from an index, n of them. -/
def State.runBatch (s : State) (space list : Nat) (b : Batch) : Nat → State × CmdEnd
  | 0 => (s, b.ends .ok 0)
  | n + 1 =>
    let at' := list + 16 * b.done
    match s.payload space at' 16 with
    | (s, .bad st d) => (s, b.ends st d)
    | (s, .bytes bs) =>
      let e := ofBytes bs
      let a := bits e 31 0
      let size := if bitAt e 33 then 8 else 4
      if 0x2000000 ≤ a ∨ a % size ≠ 0 then (s, b.ends .paramInvalid b.done)
      else if bitAt e 32 then
        let s := s.deliverAll
        let t := s.applyWrite a size (bits e 127 64 % 2 ^ (8 * size))
        let b := { b with done := b.done + 1, dropped := if b.dropped.isNone ∧ t.dropCount ≠ s.dropCount then some b.done else b.dropped }
        State.runBatch t space list b n
      else
        let r := s.deliverAll.readValue a size
        match r.1.storeResult space (at' + 8) (bytesOf 8 r.2) with
        | (s, some (st, d)) => (s, b.ends st d)
        | (s, none) => State.runBatch s space list { b with done := b.done + 1 } n

/-- REG_BATCH (R377). -/
def bodyRegBatch : CmdBody := fun k s =>
  let n := u32 k 12
  if n = 0 ∨ 4096 < n then fail s .paramInvalid
  else s.runBatch (u8 k 8) (u64 k 0) ⟨0, none⟩ n

/-! ### The rows of the command table -/

/-- IMMEDIATE_MILESTONE (R12). -/
def execImmediateMilestone (s : State) : Host.Outcome State Fault Refusal := .next s.doDeliver

/-- MER_CTL_WRITE (R38). -/
def execMerCtlWrite (m : MerNo) (reg : MerReg) (v : BitVec 64) (s : State) : Host.Outcome State Fault Refusal :=
  .next (s.rowWrite (merRegId reg) m.val v.toNat)

/-- MER_SNAP (R36). -/
def execMerSnap (mask : BitVec 8) (s : State) : Host.Outcome State Fault Refusal := .next (s.rowWrite .MER_SNAP 0 mask.toNat)

/-- ALMANAC_APERTURE_WRITE (R110). -/
def execAlmanacApertureWrite (set : BitVec 11) (n : PinNo) (byte : Fin 32) (size : Fin 9) (v : BitVec 64) (s : State) : Host.Outcome State Fault Refusal :=
  .next (s.almanacRow set.toNat n.val byte.val size.val v.toNat)

/-- SXT_WIN_COMMIT (R241). -/
def execSxtWinCommit (c : Fin 52) (s : State) : Host.Outcome State Fault Refusal := .next (s.rowWrite .SXT_WIN_CMT c.val 1)

/-- SXT_CH_CTL_WRITE (R241). -/
def execSxtChCtlWrite (c : Fin 52) (v : BitVec 32) (s : State) : Host.Outcome State Fault Refusal :=
  .next (s.rowWrite .SXT_CH_CTL c.val v.toNat)

/-- SXT_MU_CTL_WRITE (R250). -/
def execSxtMuCtlWrite (u : Fin 16) (v : BitVec 32) (s : State) : Host.Outcome State Fault Refusal :=
  .next (s.rowWrite .SXT_MU_CTL u.val v.toNat)

/-- SELF_CHECK_START (R254). -/
def execSelfCheckStart (s : State) : Host.Outcome State Fault Refusal := .next (s.rowWrite .SXT_SC_START 0 1)

/-- DDS_LIST_WRITE (R268). -/
def execDdsListWrite (entry : BitVec 12) (high : Bool) (v : BitVec 64) (s : State) : Host.Outcome State Fault Refusal :=
  .next (s.ddsListRow entry.toNat high v.toNat)

/-- ADC_TRIG_GO (R280). -/
def execAdcTrigGo (s : State) : Host.Outcome State Fault Refusal := .next (s.rowWrite .ADC_TRIG 0 1)

/-- SAR_INJECT_REQUEST (R286). -/
def execSarInjectRequest (a : Fin 4) (input : Fin 8) (s : State) : Host.Outcome State Fault Refusal :=
  .next (s.rowWrite .ADC_SAR_INJ a.val (input.val + 8))

/-- ADC_SD_CFG_WRITE (R275). -/
def execAdcSdCfgWrite (n : PinNo) (osr : BitVec 18) (s : State) : Host.Outcome State Fault Refusal :=
  .next (s.rowWrite .ADC_SD_CFG n.val osr.toNat)

/-- ACQ_CTL_WRITE (R293). -/
def execAcqCtlWrite (u : Fin 4) (v : BitVec 32) (s : State) : Host.Outcome State Fault Refusal :=
  .next (s.rowWrite .ACQ_CTL u.val v.toNat)

/-- ACQ_TRIG_GO (R298). -/
def execAcqTrigGo (u : Fin 4) (s : State) : Host.Outcome State Fault Refusal := .next (s.rowWrite .ACQ_TRIG u.val 1)

/-- MEM_MAP_CTL_WRITE (R309). -/
def execMemMapCtlWrite (m : Fin 16) (v : BitVec 32) (s : State) : Host.Outcome State Fault Refusal :=
  .next (s.rowWrite .MEM_MAP_CTL m.val v.toNat)

/-- CHT_INV_GO (R338). -/
def execChtInvGo (s : State) : Host.Outcome State Fault Refusal := .next (s.rowWrite .CHT_INV_GO 0 1)

/-- DMA_CH_CTL_WRITE (R355). -/
def execDmaChCtlWrite (c : Fin 16) (v : BitVec 32) (s : State) : Host.Outcome State Fault Refusal :=
  .next (s.rowWrite .DMA_CH_CTL c.val v.toNat)

/-- REG_BATCH (R377). -/
def execRegBatch (k : Packet) (s : State) : Host.Outcome State Fault Refusal := .next (s.runCommand 0xE001 bodyRegBatch k)

/-- SWY_TICK_WRITE (R388). -/
def execSwyTickWrite (v : BitVec 32) (s : State) : Host.Outcome State Fault Refusal := .next (s.rowWrite .SWY_TICK 0 v.toNat)

/-- DPT_Q_CTL_WRITE (R400). -/
def execDptQCtlWrite (q : QueueNo) (v : BitVec 32) (s : State) : Host.Outcome State Fault Refusal :=
  .next (s.rowWrite .DPT_Q_CTL q.val v.toNat)

/-- WLN_HALT (R425). -/
def execWlnHalt (s : State) : Host.Outcome State Fault Refusal := .next (s.rowWrite .WLN_HALT 0 1)

/-- WLN_GO (R427). -/
def execWlnGo (s : State) : Host.Outcome State Fault Refusal := .next (s.rowWrite .WLN_GO 0 1)

/-- WLN_AGG_WRITE (R428). -/
def execWlnAggWrite (v : BitVec 16) (s : State) : Host.Outcome State Fault Refusal := .next (s.rowWrite .WLN_AGG 0 v.toNat)

/-- BNC_BLK_RESET (R455). -/
def execBncBlkReset (v : BitVec 32) (s : State) : Host.Outcome State Fault Refusal := .next (s.rowWrite .BNC_BLK_RESET 0 v.toNat)

/-- REGISTER_READ (R7). -/
def execRegisterRead (addr : BitVec 26) (size : BitVec 7) (s : State) : Host.Outcome State Fault Refusal :=
  .next (s.doRegisterRead addr.toNat size.toNat)

end Sys2Proof.Machine
end

