-- ==== Sys2Proof/Machine/Forward.lean ====
section
/-! DEFINITION. Packets that arrive as bytes: the doorbell pages of rings, the doorbell range with its held writes, register writes
of the host, and commands forwarded by convoy members (R27, R358, R362, R370, R421, R438). -/

namespace Sys2Proof.Machine

/-! ### The commands by opcode (R376) -/

/-- The effect of a command, by its opcode. -/
def bodyOf (op : Nat) : CmdBody :=
  match op with
  | 0x0001 => bodyNop
  | 0x0002 => bodyRingCreate
  | 0x0003 => bodyRingDelete
  | 0x0004 => bodyAbortAll
  | 0x0005 => bodyTakeFix
  | 0x0006 => bodyScriptLoad
  | 0x0007 => bodyScriptCtl
  | 0x1001 => bodyMemMapSet
  | 0x1002 => bodyMemTrain
  | 0x1003 => bodyMemChRecover
  | 0x1004 => bodyMemSelfRefresh
  | 0x1005 => bodyMemSegClear
  | 0x1006 => bodyAspaceSet
  | 0x1007 => bodyChartMap
  | 0x1008 => bodyChartUnmap
  | 0x1009 => bodyChartInvalidate
  | 0x100A => bodyChartRetry
  | 0x100B => bodyChartAbandon
  | 0x100C => bodyDmaChannelSet
  | 0x2001 => bodyRouteLoad
  | 0x2002 => bodyJobDefine
  | 0x2003 => bodyJobStart
  | 0x2004 => bodyHaltJob
  | 0x2005 => bodySiteMask
  | 0x2006 => bodySiteDrop
  | 0x2007 => bodyTrapResume
  | 0x2008 => bodyJobUndefine
  | 0x3001 => bodyPinLevels
  | 0x3002 => bodyPinConfig
  | 0x3003 => bodyPinPmu
  | 0x3004 => bodyPinSite
  | 0x3005 => bodyPinClear
  | 0x4001 => bodyAlmanacTemplate
  | 0x4002 => bodyAlmanacLoad
  | 0x4003 => bodyAlmanacCheck
  | 0x4004 => bodyAlmanacDeskew
  | 0x5001 => bodySextantMeasure
  | 0x5002 => bodySextantSelfcheck
  | 0x5003 => bodyAdcSequence
  | 0x5004 => bodyAdcTrigger
  | 0x5005 => bodyAdcInject
  | 0x6001 => bodyAcqArm
  | 0x6002 => bodyAcqStop
  | 0x6003 => bodyAcqStats
  | 0x7001 => bodyDdsLoad
  | 0x7002 => bodyDdsStart
  | 0x7003 => bodyDdsStop
  | 0x7004 => bodyDdsPin
  | 0x8001 => bodyMeridianConfig
  | 0x8002 => bodyMeridianEnable
  | 0x8003 => bodyMeridianSet
  | 0x8004 => bodyMeridianAdjust
  | 0x8005 => bodyMilestonePost
  | 0x8006 => bodyMilestoneCancel
  | 0x9001 => bodyWaylinePort
  | 0x9002 => bodyWaylineSend
  | 0x9003 => bodyWaylineForward
  | 0x9004 => bodyMuster
  | 0x9005 => bodyConvoyLeave
  | 0xA001 => bodyMicrocodeLoad
  | 0xA002 => bodyMicrocodeUnload
  | 0xB001 => bodyPowerDomain
  | 0xB002 => bodyThermalSet
  | 0xE001 => bodyRegBatch
  | _ => fun _ s => fail s .opcodeUnknown

/-- A command that its sender is not a ring of this device performs; MUSTER's own manifest goes out once it has begun. -/
def State.performOp (s : State) (x : Running) (op : Nat) (k : Packet) : State :=
  let s := s.perform x (bodyOf op) k
  if op = 0x9004 then s.musterStarted else s

/-! ### Forwarded commands (R421) -/

/-- The packet as the front end sees it: its ring field is ignored. -/
def ignoreRing (k : Packet) : Packet := { k with ring := 1 }

/-- A packet of a member executes still, or waits. -/
def State.forwardPending (s : State) (node tag : Nat) : Bool :=
  s.helm.running.any (fun x => x.tag == tag && (match x.origin with
    | .member n _ _ => n == node
    | .ring _ => false))

/-- A member's packet begins, if it may: a duplicate of one that has completed is answered from the window (R370), and the others
obey R368 among the commands of that member. -/
def State.beginOne (s : State) (x : Forwarded) : Option State :=
  let d := decodePacket 0 x.bytes
  let k := ignoreRing d.2
  let tag := k.tag.toNat
  let drop : State := { s with helm := { s.helm with forwarded := s.helm.forwarded.filter (fun y => y != x) } }
  match (nget [] x.node s.wln.fwdTags).find? (fun e => e.1 == tag) with
  | some (_, c) => some (drop.replyFlit x.port x.node 4 0 x.xid 0 true (bytesOf 32 (s.cplWord (dupOf c false) 0)))
  | none =>
    let mine := s.helm.running.filter (fun y => match y.origin with
      | .member n _ _ => n == x.node
      | .ring _ => false)
    let free := (!fenceOf k || mine.isEmpty) && mine.all (fun y => y.objs.all (fun o => !(objectsOf d.1 k).contains o))
    if free = false ∨ s.forwardPending x.node tag then none
    else some (drop.performOp (runningOf (.member x.node x.port x.xid) d.1 k x.expiry) d.1 k)

/-- Forwarded packets begin in the order of each member's sending, as far as they may. -/
def State.beginForwardedFrom (s : State) (held : List Nat) : List Forwarded → State
  | [] => s
  | x :: r =>
    if held.contains x.node then s.beginForwardedFrom held r
    else match s.beginOne x with
      | some t => t.beginForwardedFrom held r
      | none => s.beginForwardedFrom (x.node :: held) r

/-- Harts take forwarded packets. -/
def State.beginForwarded (s : State) : State := s.beginForwardedFrom [] s.helm.forwarded

/-- A forwarded packet waits for a hart. -/
def State.queueForward (s : State) (x : Forwarded) : State :=
  { s with helm := { s.helm with forwarded := s.helm.forwarded ++ [x] } }

/-- A forwarded packet arrives: the front end checks it as on a ring without the expert flag, executes a prompt one, and hands the
others to a hart (R421). -/
def State.takeForward (p : Nat) (f : Flit) (s : State) : State :=
  let s := s.owe p 0
  let raw := ofBytes (f.payload.take 64)
  let d := decodePacket 0 raw
  let k := ignoreRing d.2
  let x := runningOf (.member f.src p f.xid) d.1 k 0
  if bitAt s.bnc.down 32 then s
  else if s.ready = false then s.conclude { x with prompt := false } .busyNotReady 0 0 false false 0
  else if (nget [] f.src s.wln.fwdTags).any (fun e => e.1 == k.tag.toNat) ∨ s.forwardPending f.src k.tag.toNat then
    let s := s.countFix 17
    (s.queueForward ⟨f.src, p, f.xid, raw, 0⟩).beginForwarded
  else match rejects false 1 d.1 k with
    | some st => s.conclude { x with prompt := false } st 0 0 false false 0
    | none =>
      if isPrompt d.1 then s.performOp x d.1 k
      else (s.queueForward ⟨f.src, p, f.xid, raw, if k.deadline.toNat = 0 then 0 else s.mer0 + k.deadline.toNat * 1600⟩).beginForwarded

/-- FWD_CMD: a flit with a command packet (R421). -/
def State.doFwdCmd (s : State) (p : Nat) (f : Flit) : State := s.onFlit p 3 0 f (State.takeForward p)

/-! ### Ring doorbell pages (R362) -/

/-- A packet of 64 bytes is committed to a ring: a prompt command executes, another waits for a hart (R358, R374). -/
def State.commitPacket (s : State) (r : RingNo) (raw : Nat) : State :=
  let d := decodePacket r raw
  if isPrompt d.1 then s.runPrompt d.1 (bodyOf d.1) d.2
  else match s.admitPkt r.val d.1 d.2 with
    | (s, some expiry) => s.enqueue r.val raw expiry
    | (s, none) => s

/-- CPL_CONSUMED_WRITE: the host's count of consumed completions (R363). -/
def State.doCplConsumed (s : State) (r v : Nat) : State := s.fput fHLM_RING_CPL_consumed r v

/-- DOORBELL_PAGE_WRITE: bytes at an offset of a ring's page are staged, commit the packet with its last byte, or give the consumed
count; the rest of the page is reserved (R362, R364). -/
def State.doDoorbellPage (s : State) (r : RingNo) (off : Nat) (bs : List Byte) : State :=
  if off < 0x40 then
    let v := putBytes (s.ring r.val).stage off 64 bs
    if 0x40 ≤ off + bs.length then (s.setRing r.val { s.ring r.val with stage := 0 }).commitPacket r v
    else s.setRing r.val { s.ring r.val with stage := v }
  else if off < 0x44 then
    s.doCplConsumed r.val (putBytes (s.fget fHLM_RING_CPL_consumed r.val) (off - 0x40) 4 bs)
  else s

/-! ### The doorbell range (R27, R438, R442) -/

/-- A doorbell write acts, by its offset. -/
def State.ringBell (s : State) (a : Nat) (bs : List Byte) : State :=
  if a < 0x2100000 then s.doDoorbellPage (BitVec.ofNat 8 ((a - 0x2000000) / 0x1000)).toFin (a % 0x1000) bs
  else if a < 0x3100000 then s.queuePage ((a - 0x2100000) / 0x400) (a % 0x400) bs
  else if a = 0x3FFF000 then s.doFixDoorbell (ofBytes bs)
  else s

/-- A doorbell write of the host: one of 4 to 64 bytes inside a 64-byte block is accepted, and is held while earlier BAR2 writes
are not acknowledged (R27, R438). -/
def State.arriveBell (s : State) (a : Nat) (bs : List Byte) : State :=
  if bs.length < 4 ∨ 64 < a % 64 + bs.length then s.accessErr
  else if s.host.bells ≠ [] ∨ s.portQuiet portPB = false then
    { s with host := { s.host with bells := s.host.bells ++ [⟨a, bs⟩] } }
  else s.ringBell a bs

/-- A host write to a doorbell with a row of its own; PERST# holds the link. -/
def State.bellRow (s : State) (a : Nat) (bs : List Byte) : State := if s.host.perst then s else s.arriveBell a bs

/-- DOORBELL_RELEASE: the oldest held doorbell write acts once every earlier BAR2 write is acknowledged (R27). -/
def State.doDoorbellRelease (s : State) : State :=
  match s.host.bells with
  | [] => s
  | b :: rest =>
    if s.portQuiet portPB then ({ s with host := { s.host with bells := rest } } : State).ringBell b.addr b.bytes else s

/-- REGISTER_WRITE: a write of the host to BAR0 (R9, R12, R438). A poisoned one is discarded; PERST# holds the link. -/
def State.doRegisterWrite (s : State) (a : Nat) (bs : List Byte) (poisoned : Bool) : State :=
  if s.host.perst then s
  else if poisoned then s.bump fPCI_ERR_poisoned_in
  else if 0x2000000 ≤ a then s.arriveBell a bs
  else if accessOk a bs.length = false then s.accessErr
  else s.arriveWrite a bs.length (ofBytes bs)

/-! ### The rows of the command table -/

/-- REGISTER_WRITE (R9). -/
def execRegisterWrite (addr : BitVec 26) (bytes : List Byte) (poisoned : Bool) (s : State) : Host.Outcome State Fault Refusal :=
  .next (s.doRegisterWrite addr.toNat bytes poisoned)

/-- DOORBELL_RELEASE (R27). -/
def execDoorbellRelease (s : State) : Host.Outcome State Fault Refusal := .next s.doDoorbellRelease

/-- DOORBELL_PAGE_WRITE (R362). -/
def execDoorbellPageWrite (r : RingNo) (off : BitVec 12) (bytes : List Byte) (s : State) : Host.Outcome State Fault Refusal :=
  .next (s.bellRow (0x2000000 + r.val * 0x1000 + off.toNat) bytes)

/-- CPL_CONSUMED_WRITE (R363). -/
def execCplConsumedWrite (r : RingNo) (v : BitVec 32) (s : State) : Host.Outcome State Fault Refusal :=
  .next (s.bellRow (0x2000000 + r.val * 0x1000 + 0x40) (bytesOf 4 v.toNat))

/-- FIX_DOORBELL (R379). -/
def execFixDoorbell (v : BitVec 32) (s : State) : Host.Outcome State Fault Refusal :=
  .next (s.bellRow 0x3FFF000 (bytesOf 4 v.toNat))

/-- SWITCHYARD_TICK (R388). -/
def execSwitchyardTick (s : State) : Host.Outcome State Fault Refusal := .next s.doSwitchyardTick.beginForwarded

/-- QUEUE_DOORBELL_WRITE (R398). -/
def execQueueDoorbellWrite (q : QueueNo) (off : BitVec 10) (bytes : List Byte) (s : State) : Host.Outcome State Fault Refusal :=
  .next (s.bellRow (0x2100000 + q.val * 0x400 + off.toNat) bytes)

/-- MIRROR_CONSUMED_WRITE (R397). -/
def execMirrorConsumedWrite (q : QueueNo) (v : BitVec 32) (s : State) : Host.Outcome State Fault Refusal :=
  .next (s.bellRow (0x2100000 + q.val * 0x400 + 0x300) (bytesOf 4 v.toNat))

/-- FWD_CMD (R421). -/
def execFwdCmd (p : Fin 4) (f : Flit) (s : State) : Host.Outcome State Fault Refusal := .next (s.doFwdCmd p.val f)

end Sys2Proof.Machine
end

