-- ==== Sys2Proof/Machine/Dispatch.lean ====
section
/-! DEFINITION. What each command does: one arm for each constructor, each a direct call of its meaning. -/

namespace Sys2Proof.Machine

/-- A command's effect on everything but the queue of waiting commands. -/
def exec (i : Instr) (s : State) : Host.Outcome State Fault Refusal :=
  match i with
  | .registerWrite addr bytes poisoned => Sys2Proof.Machine.execRegisterWrite addr bytes poisoned s
  | .immediateMilestone => Sys2Proof.Machine.execImmediateMilestone s
  | .arbiterGrant ch => Sys2Proof.Machine.execArbiterGrant ch s
  | .fenceComplete port => Sys2Proof.Machine.execFenceComplete port s
  | .writeQueueDrain ch => Sys2Proof.Machine.execWriteQueueDrain ch s
  | .doorbellRelease => Sys2Proof.Machine.execDoorbellRelease s
  | .bar2Read off len => Sys2Proof.Machine.execBar2Read off len s
  | .bar2Write off bytes poisoned => Sys2Proof.Machine.execBar2Write off bytes poisoned s
  | .stride p => Sys2Proof.Machine.execStride p s
  | .vectorPeriod n => Sys2Proof.Machine.execVectorPeriod n s
  | .compareResultArrival n seen held => Sys2Proof.Machine.execCompareResultArrival n seen held s
  | .nop p => Sys2Proof.Machine.execNop p s
  | .vec p n => Sys2Proof.Machine.execVec p n s
  | .rpt p n => Sys2Proof.Machine.execRpt p n s
  | .pad p n => Sys2Proof.Machine.execPad p n s
  | .loop p c b n => Sys2Proof.Machine.execLoop p c b n s
  | .endl p c => Sys2Proof.Machine.execEndl p c s
  | .jmp p b => Sys2Proof.Machine.execJmp p b s
  | .call p b => Sys2Proof.Machine.execCall p b s
  | .ret p => Sys2Proof.Machine.execRet p s
  | .failMark p => Sys2Proof.Machine.execFailMark p s
  | .jmpFail p g b => Sys2Proof.Machine.execJmpFail p g b s
  | .jmpPass p g b => Sys2Proof.Machine.execJmpPass p g b s
  | .jmpInd p a => Sys2Proof.Machine.execJmpInd p a s
  | .jmpAbs p a => Sys2Proof.Machine.execJmpAbs p a s
  | .matchLoop p g b k1 t1 => Sys2Proof.Machine.execMatchLoop p g b k1 t1 s
  | .aluSet p a imm => Sys2Proof.Machine.execAluSet p a imm s
  | .aluAdd p a imm => Sys2Proof.Machine.execAluAdd p a imm s
  | .jmpAnz p a b => Sys2Proof.Machine.execJmpAnz p a b s
  | .waitOdo p lateFault t => Sys2Proof.Machine.execWaitOdo p lateFault t s
  | .msPost p q tag => Sys2Proof.Machine.execMsPost p q tag s
  | .legendSel p bank => Sys2Proof.Machine.execLegendSel p bank s
  | .tset p k => Sys2Proof.Machine.execTset p k s
  | .waypt p h => Sys2Proof.Machine.execWaypt p h s
  | .legStart p l => Sys2Proof.Machine.execLegStart p l s
  | .endLeg p last => Sys2Proof.Machine.execEndLeg p last s
  | .capCtl p g ct total => Sys2Proof.Machine.execCapCtl p g ct total s
  | .ffailArm p => Sys2Proof.Machine.execFfailArm p s
  | .sxtWin p ch opens len => Sys2Proof.Machine.execSxtWin p ch opens len s
  | .sxtArm p arm mask => Sys2Proof.Machine.execSxtArm p arm mask s
  | .ddsHop p e entry => Sys2Proof.Machine.execDdsHop p e entry s
  | .pvLoad p v m => Sys2Proof.Machine.execPvLoad p v m s
  | .pvXor p v m => Sys2Proof.Machine.execPvXor p v m s
  | .pvCapt p bit v m => Sys2Proof.Machine.execPvCapt p bit v m s
  | .scan p group n => Sys2Proof.Machine.execScan p group n s
  | .userOpcode p op operand => Sys2Proof.Machine.execUserOpcode p op operand s
  | .seqCont p w => Sys2Proof.Machine.execSeqCont p w s
  | .seqJump p w => Sys2Proof.Machine.execSeqJump p w s
  | .seqBranch p w => Sys2Proof.Machine.execSeqBranch p w s
  | .seqMcall p w => Sys2Proof.Machine.execSeqMcall p w s
  | .seqMret p w => Sys2Proof.Machine.execSeqMret p w s
  | .seqWait p w => Sys2Proof.Machine.execSeqWait p w s
  | .seqWaitTimeout p => Sys2Proof.Machine.execSeqWaitTimeout p s
  | .seqNext p w => Sys2Proof.Machine.execSeqNext p w s
  | .seqRbr p w => Sys2Proof.Machine.execSeqRbr p w s
  | .seqMtab p w => Sys2Proof.Machine.execSeqMtab p w s
  | .seqTrap p w => Sys2Proof.Machine.execSeqTrap p w s
  | .controlStoreReload c copyOk stillBad => Sys2Proof.Machine.execControlStoreReload c copyOk stillBad s
  | .controlStoreScrub c => Sys2Proof.Machine.execControlStoreScrub c s
  | .haltEntry p => Sys2Proof.Machine.execHaltEntry p s
  | .siteQueueEntry p => Sys2Proof.Machine.execSiteQueueEntry p s
  | .legEnd p => Sys2Proof.Machine.execLegEnd p s
  | .jobRestore p => Sys2Proof.Machine.execJobRestore p s
  | .relativeLegStart p => Sys2Proof.Machine.execRelativeLegStart p s
  | .slipSyncEdge p instant => Sys2Proof.Machine.execSlipSyncEdge p instant s
  | .slipExpiry p => Sys2Proof.Machine.execSlipExpiry p s
  | .holdEnd p => Sys2Proof.Machine.execHoldEnd p s
  | .holdLimit p => Sys2Proof.Machine.execHoldLimit p s
  | .fillElement p => Sys2Proof.Machine.execFillElement p s
  | .slotFill p => Sys2Proof.Machine.execSlotFill p s
  | .playoutFetch p => Sys2Proof.Machine.execPlayoutFetch p s
  | .captureBlockWrite n => Sys2Proof.Machine.execCaptureBlockWrite n s
  | .captureMarker p => Sys2Proof.Machine.execCaptureMarker p s
  | .truncationMarker q => Sys2Proof.Machine.execTruncationMarker q s
  | .msLegStart id => Sys2Proof.Machine.execMsLegStart id s
  | .msDdsHop id => Sys2Proof.Machine.execMsDdsHop id s
  | .msDdsAdvance id => Sys2Proof.Machine.execMsDdsAdvance id s
  | .msDdsStart id => Sys2Proof.Machine.execMsDdsStart id s
  | .msDdsStop id => Sys2Proof.Machine.execMsDdsStop id s
  | .msSxtArm id => Sys2Proof.Machine.execMsSxtArm id s
  | .msSxtWindow id => Sys2Proof.Machine.execMsSxtWindow id s
  | .msAcqTrigger id => Sys2Proof.Machine.execMsAcqTrigger id s
  | .msConverterTrigger id => Sys2Proof.Machine.execMsConverterTrigger id s
  | .msWaylineLaunch id => Sys2Proof.Machine.execMsWaylineLaunch id s
  | .msMsyncOut id => Sys2Proof.Machine.execMsMsyncOut id s
  | .msGpio id => Sys2Proof.Machine.execMsGpio id s
  | .msDepotPost id => Sys2Proof.Machine.execMsDepotPost id s
  | .meridianLock m fin => Sys2Proof.Machine.execMeridianLock m fin s
  | .bearingLost m => Sys2Proof.Machine.execBearingLost m s
  | .freqRangeExit m fin => Sys2Proof.Machine.execFreqRangeExit m fin s
  | .merCtlWrite m reg v => Sys2Proof.Machine.execMerCtlWrite m reg v s
  | .merSnap mask => Sys2Proof.Machine.execMerSnap mask s
  | .overvoltage n mv => Sys2Proof.Machine.execOvervoltage n mv s
  | .levelSettled n => Sys2Proof.Machine.execLevelSettled n s
  | .almanacApertureWrite set n byte size v => Sys2Proof.Machine.execAlmanacApertureWrite set n byte size v s
  | .sextantEdge c at20fs falling voh => Sys2Proof.Machine.execSextantEdge c at20fs falling voh s
  | .stampDecision c => Sys2Proof.Machine.execStampDecision c s
  | .stampPost c => Sys2Proof.Machine.execStampPost c s
  | .frequencyRunEnd u => Sys2Proof.Machine.execFrequencyRunEnd u s
  | .sxtWinCommit c => Sys2Proof.Machine.execSxtWinCommit c s
  | .sxtChCtlWrite c v => Sys2Proof.Machine.execSxtChCtlWrite c v s
  | .sxtMuCtlWrite u v => Sys2Proof.Machine.execSxtMuCtlWrite u v s
  | .selfCheckStart => Sys2Proof.Machine.execSelfCheckStart s
  | .selfCheckDone failing => Sys2Proof.Machine.execSelfCheckDone failing s
  | .dwellEnd e => Sys2Proof.Machine.execDwellEnd e s
  | .ddsListWrite entry high v => Sys2Proof.Machine.execDdsListWrite entry high v s
  | .sdOutput n code overload => Sys2Proof.Machine.execSdOutput n code overload s
  | .sarConversionDone a raw => Sys2Proof.Machine.execSarConversionDone a raw s
  | .converterResultPost => Sys2Proof.Machine.execConverterResultPost s
  | .adcTrigGo => Sys2Proof.Machine.execAdcTrigGo s
  | .msyncInEdge rising instant => Sys2Proof.Machine.execMsyncInEdge rising instant s
  | .heldTrigger => Sys2Proof.Machine.execHeldTrigger s
  | .sarInjectRequest a input => Sys2Proof.Machine.execSarInjectRequest a input s
  | .adcSdCfgWrite n osr => Sys2Proof.Machine.execAdcSdCfgWrite n osr s
  | .acqCtlWrite u v => Sys2Proof.Machine.execAcqCtlWrite u v s
  | .acqTrigGo u => Sys2Proof.Machine.execAcqTrigGo u s
  | .acqRecord u => Sys2Proof.Machine.execAcqRecord u s
  | .acqRearm u => Sys2Proof.Machine.execAcqRearm u s
  | .refreshStop => Sys2Proof.Machine.execRefreshStop s
  | .refreshStopEnd errs => Sys2Proof.Machine.execRefreshStopEnd errs s
  | .stackTempRead temps => Sys2Proof.Machine.execStackTempRead temps s
  | .parityAlert ch replays => Sys2Proof.Machine.execParityAlert ch replays s
  | .hbmScrub => Sys2Proof.Machine.execHbmScrub s
  | .memoryWake port => Sys2Proof.Machine.execMemoryWake port s
  | .selfRefreshExit => Sys2Proof.Machine.execSelfRefreshExit s
  | .memMapCtlWrite m v => Sys2Proof.Machine.execMemMapCtlWrite m v s
  | .walkComplete source space dva write => Sys2Proof.Machine.execWalkComplete source space dva write s
  | .chtInvGo => Sys2Proof.Machine.execChtInvGo s
  | .dmaDescriptor c => Sys2Proof.Machine.execDmaDescriptor c s
  | .granuleComplete c x => Sys2Proof.Machine.execGranuleComplete c x s
  | .dmaCompletion c => Sys2Proof.Machine.execDmaCompletion c s
  | .dmaChCtlWrite c v => Sys2Proof.Machine.execDmaChCtlWrite c v s
  | .doorbellPageWrite r off bytes => Sys2Proof.Machine.execDoorbellPageWrite r off bytes s
  | .cplConsumedWrite r v => Sys2Proof.Machine.execCplConsumedWrite r v s
  | .completionCommit r => Sys2Proof.Machine.execCompletionCommit r s
  | .moderationTimeout r => Sys2Proof.Machine.execModerationTimeout r s
  | .deadlineExpiry member sender tag => Sys2Proof.Machine.execDeadlineExpiry member sender tag s
  | .nopCommand k => Sys2Proof.Machine.execNopCommand k s
  | .ringCreate k => Sys2Proof.Machine.execRingCreate k s
  | .ringDelete k => Sys2Proof.Machine.execRingDelete k s
  | .abortAll k => Sys2Proof.Machine.execAbortAll k s
  | .takeFix k => Sys2Proof.Machine.execTakeFix k s
  | .scriptLoad k => Sys2Proof.Machine.execScriptLoad k s
  | .scriptCtl k => Sys2Proof.Machine.execScriptCtl k s
  | .memMapSet k => Sys2Proof.Machine.execMemMapSet k s
  | .memTrain k => Sys2Proof.Machine.execMemTrain k s
  | .memChRecover k => Sys2Proof.Machine.execMemChRecover k s
  | .memSelfRefresh k => Sys2Proof.Machine.execMemSelfRefresh k s
  | .memSegClear k => Sys2Proof.Machine.execMemSegClear k s
  | .aspaceSet k => Sys2Proof.Machine.execAspaceSet k s
  | .chartMap k => Sys2Proof.Machine.execChartMap k s
  | .chartUnmap k => Sys2Proof.Machine.execChartUnmap k s
  | .chartInvalidate k => Sys2Proof.Machine.execChartInvalidate k s
  | .chartRetry k => Sys2Proof.Machine.execChartRetry k s
  | .chartAbandon k => Sys2Proof.Machine.execChartAbandon k s
  | .dmaChannelSet k => Sys2Proof.Machine.execDmaChannelSet k s
  | .routeLoad k => Sys2Proof.Machine.execRouteLoad k s
  | .jobDefine k => Sys2Proof.Machine.execJobDefine k s
  | .jobStart k => Sys2Proof.Machine.execJobStart k s
  | .haltJob k => Sys2Proof.Machine.execHaltJob k s
  | .siteMask k => Sys2Proof.Machine.execSiteMask k s
  | .siteDrop k => Sys2Proof.Machine.execSiteDrop k s
  | .trapResume k => Sys2Proof.Machine.execTrapResume k s
  | .jobUndefine k => Sys2Proof.Machine.execJobUndefine k s
  | .pinLevels k => Sys2Proof.Machine.execPinLevels k s
  | .pinConfig k => Sys2Proof.Machine.execPinConfig k s
  | .pinPmu k => Sys2Proof.Machine.execPinPmu k s
  | .pinSite k => Sys2Proof.Machine.execPinSite k s
  | .pinClear k => Sys2Proof.Machine.execPinClear k s
  | .almanacTemplate k => Sys2Proof.Machine.execAlmanacTemplate k s
  | .almanacLoad k => Sys2Proof.Machine.execAlmanacLoad k s
  | .almanacCheck k => Sys2Proof.Machine.execAlmanacCheck k s
  | .almanacDeskew k => Sys2Proof.Machine.execAlmanacDeskew k s
  | .sextantMeasure k => Sys2Proof.Machine.execSextantMeasure k s
  | .sextantSelfcheck k => Sys2Proof.Machine.execSextantSelfcheck k s
  | .adcSequence k => Sys2Proof.Machine.execAdcSequence k s
  | .adcTrigger k => Sys2Proof.Machine.execAdcTrigger k s
  | .adcInject k => Sys2Proof.Machine.execAdcInject k s
  | .acqArm k => Sys2Proof.Machine.execAcqArm k s
  | .acqStop k => Sys2Proof.Machine.execAcqStop k s
  | .acqStats k => Sys2Proof.Machine.execAcqStats k s
  | .ddsLoad k => Sys2Proof.Machine.execDdsLoad k s
  | .ddsStart k => Sys2Proof.Machine.execDdsStart k s
  | .ddsStop k => Sys2Proof.Machine.execDdsStop k s
  | .ddsPin k => Sys2Proof.Machine.execDdsPin k s
  | .meridianConfig k => Sys2Proof.Machine.execMeridianConfig k s
  | .meridianEnable k => Sys2Proof.Machine.execMeridianEnable k s
  | .meridianSet k => Sys2Proof.Machine.execMeridianSet k s
  | .meridianAdjust k => Sys2Proof.Machine.execMeridianAdjust k s
  | .milestonePost k => Sys2Proof.Machine.execMilestonePost k s
  | .milestoneCancel k => Sys2Proof.Machine.execMilestoneCancel k s
  | .waylinePort k => Sys2Proof.Machine.execWaylinePort k s
  | .waylineSend k => Sys2Proof.Machine.execWaylineSend k s
  | .waylineForward k => Sys2Proof.Machine.execWaylineForward k s
  | .muster k => Sys2Proof.Machine.execMuster k s
  | .convoyLeave k => Sys2Proof.Machine.execConvoyLeave k s
  | .microcodeLoad k => Sys2Proof.Machine.execMicrocodeLoad k s
  | .microcodeUnload k => Sys2Proof.Machine.execMicrocodeUnload k s
  | .powerDomain k => Sys2Proof.Machine.execPowerDomain k s
  | .thermalSet k => Sys2Proof.Machine.execThermalSet k s
  | .regBatch k => Sys2Proof.Machine.execRegBatch k s
  | .fixDoorbell v => Sys2Proof.Machine.execFixDoorbell v s
  | .fixWritten ok => Sys2Proof.Machine.execFixWritten ok s
  | .create h t prio => Sys2Proof.Machine.execCreate h t prio s
  | .delete h t => Sys2Proof.Machine.execDelete h t s
  | .setPrio h t prio => Sys2Proof.Machine.execSetPrio h t prio s
  | .setFlags h t mask => Sys2Proof.Machine.execSetFlags h t mask s
  | .clearFlags h mask => Sys2Proof.Machine.execClearFlags h mask s
  | .wait h mask all consume ticks => Sys2Proof.Machine.execWait h mask all consume ticks s
  | .delay h ticks => Sys2Proof.Machine.execDelay h ticks s
  | .yield h => Sys2Proof.Machine.execYield h s
  | .post h q msg => Sys2Proof.Machine.execPost h q msg s
  | .take h q => Sys2Proof.Machine.execTake h q s
  | .exit h => Sys2Proof.Machine.execExit h s
  | .swyHSwitch h => Sys2Proof.Machine.execSwyHSwitch h s
  | .switchyardTick => Sys2Proof.Machine.execSwitchyardTick s
  | .delayExpiry t => Sys2Proof.Machine.execDelayExpiry t s
  | .swyTickWrite v => Sys2Proof.Machine.execSwyTickWrite v s
  | .queueDoorbellWrite q off bytes => Sys2Proof.Machine.execQueueDoorbellWrite q off bytes s
  | .mirrorConsumedWrite q v => Sys2Proof.Machine.execMirrorConsumedWrite q v s
  | .mirrorWrite q => Sys2Proof.Machine.execMirrorWrite q s
  | .spillRefill q poisoned => Sys2Proof.Machine.execSpillRefill q poisoned s
  | .dptQCtlWrite q v => Sys2Proof.Machine.execDptQCtlWrite q v s
  | .blockLock p lane => Sys2Proof.Machine.execBlockLock p lane s
  | .lockLoss p lane => Sys2Proof.Machine.execLockLoss p lane s
  | .trainReq p lane v => Sys2Proof.Machine.execTrainReq p lane v s
  | .trainStat p lane v => Sys2Proof.Machine.execTrainStat p lane v s
  | .portUp p => Sys2Proof.Machine.execPortUp p s
  | .trainTimeout p => Sys2Proof.Machine.execTrainTimeout p s
  | .idleQuietExpiry p => Sys2Proof.Machine.execIdleQuietExpiry p s
  | .idleEnter p => Sys2Proof.Machine.execIdleEnter p s
  | .idleExit p => Sys2Proof.Machine.execIdleExit p s
  | .ack p seq c0 c1 c2 => Sys2Proof.Machine.execAck p seq c0 c1 c2 s
  | .nak p seq => Sys2Proof.Machine.execNak p seq s
  | .ackTimer p => Sys2Proof.Machine.execAckTimer p s
  | .replayTimeout p => Sys2Proof.Machine.execReplayTimeout p s
  | .halt p seq origin => Sys2Proof.Machine.execHalt p seq origin s
  | .go p origin e => Sys2Proof.Machine.execGo p origin e s
  | .agg p v fromRoot => Sys2Proof.Machine.execAgg p v fromRoot s
  | .timeReq p seq arrive leave => Sys2Proof.Machine.execTimeReq p seq arrive leave s
  | .timeT2 p seq t2 arrive => Sys2Proof.Machine.execTimeT2 p seq t2 arrive s
  | .timeT3 p seq t3 => Sys2Proof.Machine.execTimeT3 p seq t3 s
  | .timeExchangeTimer p at20fs => Sys2Proof.Machine.execTimeExchangeTimer p at20fs s
  | .launch p slot k => Sys2Proof.Machine.execLaunch p slot k s
  | .msg p f => Sys2Proof.Machine.execMsg p f s
  | .msgAck p f => Sys2Proof.Machine.execMsgAck p f s
  | .fwdCmd p f => Sys2Proof.Machine.execFwdCmd p f s
  | .fwdCpl p f => Sys2Proof.Machine.execFwdCpl p f s
  | .bulkWr p f => Sys2Proof.Machine.execBulkWr p f s
  | .bulkRdReq p f => Sys2Proof.Machine.execBulkRdReq p f s
  | .bulkRdData p f => Sys2Proof.Machine.execBulkRdData p f s
  | .bulkAck p f => Sys2Proof.Machine.execBulkAck p f s
  | .bulkFaultTimeout id => Sys2Proof.Machine.execBulkFaultTimeout id s
  | .musterFlit p f => Sys2Proof.Machine.execMusterFlit p f s
  | .musterOffsetTimeout => Sys2Proof.Machine.execMusterOffsetTimeout s
  | .musterRootTimeout => Sys2Proof.Machine.execMusterRootTimeout s
  | .musterVerdictTimeout => Sys2Proof.Machine.execMusterVerdictTimeout s
  | .wlnHalt => Sys2Proof.Machine.execWlnHalt s
  | .wlnGo => Sys2Proof.Machine.execWlnGo s
  | .wlnAggWrite v => Sys2Proof.Machine.execWlnAggWrite v s
  | .ptpMessage at20fs sync measured offset => Sys2Proof.Machine.execPtpMessage at20fs sync measured offset s
  | .syncTimeout => Sys2Proof.Machine.execSyncTimeout s
  | .ethTxElement => Sys2Proof.Machine.execEthTxElement s
  | .ethLaunch => Sys2Proof.Machine.execEthLaunch s
  | .telemetryTimer => Sys2Proof.Machine.execTelemetryTimer s
  | .fixRequestDatagram src port magic => Sys2Proof.Machine.execFixRequestDatagram src port magic s
  | .ethLinkChange up => Sys2Proof.Machine.execEthLinkChange up s
  | .msixUnmask v enable => Sys2Proof.Machine.execMsixUnmask v enable s
  | .pendingPowerDown d => Sys2Proof.Machine.execPendingPowerDown d s
  | .powerUpDone d => Sys2Proof.Machine.execPowerUpDone d s
  | .powerGood straps => Sys2Proof.Machine.execPowerGood straps s
  | .bootComplete status dir fallback failed rejected => Sys2Proof.Machine.execBootComplete status dir fallback failed rejected s
  | .coldReset byResetN => Sys2Proof.Machine.execColdReset byResetN s
  | .warmReset => Sys2Proof.Machine.execWarmReset s
  | .perstDeassert => Sys2Proof.Machine.execPerstDeassert s
  | .bncBlkReset v => Sys2Proof.Machine.execBncBlkReset v s
  | .thermalSample temp => Sys2Proof.Machine.execThermalSample temp s
  | .thermalTrip => Sys2Proof.Machine.execThermalTrip s
  | .smbThmTemp => Sys2Proof.Machine.execSmbThmTemp s
  | .smbThmState => Sys2Proof.Machine.execSmbThmState s
  | .smbBncStatus => Sys2Proof.Machine.execSmbBncStatus s
  | .smbPwrOn => Sys2Proof.Machine.execSmbPwrOn s
  | .smbAlertResponse => Sys2Proof.Machine.execSmbAlertResponse s
  | .registerRead addr size => Sys2Proof.Machine.execRegisterRead addr size s
  | .pmuClamp n => Sys2Proof.Machine.execPmuClamp n s
  | .edgesReturn m => Sys2Proof.Machine.execEdgesReturn m s
  | .phaseOffsetRemoved m => Sys2Proof.Machine.execPhaseOffsetRemoved m s
  | .flitCrcError p badCrc => Sys2Proof.Machine.execFlitCrcError p badCrc s
  | .badControlBlock p => Sys2Proof.Machine.execBadControlBlock p s
  | .fecCodeword p uncorrectable => Sys2Proof.Machine.execFecCodeword p uncorrectable s

end Sys2Proof.Machine
end

