-- ==== Sys2Proof/Machine/Step.lean ====
section
/-! DEFINITION. One step of the block: the command at the front of the queue is taken and its effect made; on an empty queue one
Pilot cycle passes, in which stored bits may be upset. -/

namespace Sys2Proof.Machine

/-- What happens while no command waits: one Pilot cycle passes, and stored bits may be upset (DESIGN CHOICE, assumptions 55 and 108). -/
def idleStep (s : State) : State := { s.upset with now := s.now + pilotCycle }

/-- One step: exec of the command at the front, with the queue's rest; an idle cycle when none waits. -/
def step (s : State) : Host.Outcome State Fault Refusal :=
  match s.pending with
  | [] => .next (idleStep s)
  | c :: rest => exec c { s with pending := rest }

/-- The state with the command that a word spells at the front of its queue; no word spells one (Decode.lean). -/
def State.withFetchWord (s : State) (nbits w : Nat) : State :=
  match decodeTableWord nbits w with
  | some c => { s with pending := c :: s.pending }
  | none => s

end Sys2Proof.Machine
end

