-- ==== Sys2Proof/Safety.lean ====
section
/-! DEFINITION. What holds of the block whatever it is commanded, and what a command may change: the invariant that every step
keeps, the parts of the state, and the relation "nothing but these parts changed", in whose terms frames are stated. -/

namespace Sys2Proof.Machine

/-- The canonical form of a memory: addresses strictly rising, and no entry equal to what an unlisted address reads as
(assumptions 7 and 8). -/
abbrev Memory.wf (m : List Host.Cell) : Prop := bankWf id (fun _ => 0) m

/-- The memories and the marks of stored beats are in canonical form. -/
abbrev State.memOk (s : State) : Prop :=
  Memory.wf s.hbm.mem ∧ bankWf id (fun _ => BeatMark.clean) s.hbm.marks ∧ Memory.wf s.host.mem

/-- The milestone scheduler: at most 4,096 milestones pend (R55), and an id names at most one of them (R52). -/
abbrev MsSched.ok (x : MsSched) : Prop :=
  x.pending.length ≤ 4096 ∧ (x.pending.map Milestone.id).Nodup ∧ ∀ y ∈ x.pending, y.id < x.nextId

/-- Every ring remembers the tags of its last 64 packets and no more (R370). -/
abbrev ringsOk (rs : Bank Nat Ring) : Prop := ∀ e ∈ rs, e.2.window.length ≤ 64

/-- What every step keeps. -/
abbrev State.sound (s : State) : Prop := s.memOk ∧ s.ms.ok ∧ ringsOk s.helm.rings

/-- The parts of the state, each register's bank one of them. The queue of waiting commands is no part: no command's effect
touches it. -/
inductive Part where
  | reg (id : RegId)
  | time | free | hostMem | msix | hostPort | mers | ms | depot | swy | rings | counters | helm | pins | alm | clusters | pilots
  | jobs | hbmMem | hbm | chart | dma | sxt | dds | adc | acq | wln | eth | bnc
  deriving DecidableEq, Repr

/-- A part is the same in two states. -/
def Part.same (s t : State) : Part → Prop
  | .reg id => ∀ i j, t.rd id i j = s.rd id i j
  | .time => t.now = s.now
  | .free => t.free = s.free
  | .hostMem => t.host.mem = s.host.mem
  | .msix => t.host.msixTable = s.host.msixTable ∧ t.host.msixPending = s.host.msixPending ∧
      t.host.msixEnable = s.host.msixEnable ∧ t.host.msiSent = s.host.msiSent
  | .hostPort => t.host.deliver = s.host.deliver ∧ t.host.bells = s.host.bells ∧ t.host.bar2Out = s.host.bar2Out ∧
      t.host.reply = s.host.reply ∧ t.host.readSize = s.host.readSize ∧ t.host.readValue = s.host.readValue ∧
      t.host.perst = s.host.perst ∧ t.host.held = s.host.held ∧ t.host.power = s.host.power
  | .mers => t.mers = s.mers
  | .ms => t.ms = s.ms
  | .depot => t.depot = s.depot
  | .swy => t.swy = s.swy
  | .rings => t.helm.rings = s.helm.rings
  | .counters => t.helm.counters = s.helm.counters
  | .helm => t.helm.running = s.helm.running ∧ t.helm.fix = s.helm.fix ∧ t.helm.fixSeq = s.helm.fixSeq ∧
      t.helm.hartRun = s.helm.hartRun ∧ t.helm.scripts = s.helm.scripts ∧ t.helm.forwarded = s.helm.forwarded
  | .pins => t.pins = s.pins
  | .alm => t.alm = s.alm
  | .clusters => t.clusters = s.clusters
  | .pilots => t.pilots = s.pilots
  | .jobs => t.jobs = s.jobs
  | .hbmMem => t.hbm.mem = s.hbm.mem ∧ t.hbm.marks = s.hbm.marks
  | .hbm => t.hbm.chans = s.hbm.chans ∧ t.hbm.stopped = s.hbm.stopped ∧ t.hbm.lastGrid = s.hbm.lastGrid ∧
      t.hbm.fencesDone = s.hbm.fencesDone ∧ t.hbm.waking = s.hbm.waking
  | .chart => t.chart = s.chart
  | .dma => t.dma = s.dma
  | .sxt => t.sxt = s.sxt
  | .dds => t.dds = s.dds
  | .adc => t.adc = s.adc
  | .acq => t.acq = s.acq
  | .wln => t.wln = s.wln
  | .eth => t.eth = s.eth
  | .bnc => t.bnc = s.bnc

/-- Nothing changed but these parts: every register of every other bank, every memory, queue and unit is as before, and the
commands that wait still wait in their order. -/
def Changes (ps : List Part) (s t : State) : Prop := t.pending = s.pending ∧ ∀ p : Part, p ∉ ps → p.same s t

/-! ### A command that begins as soon as it is committed -/

/-- The front end admits a packet committed to its ring, neither refusing nor completing it (R362, R366, R370). -/
abbrev State.admits (s : State) (opcode : Nat) (k : Packet) : Prop :=
  let r := k.onRing.val
  bitAt s.bnc.down 32 = false ∧ s.ready = true ∧ s.fbit fHLM_RING_CFG_exists r = true ∧ (s.ring r).deleting = false ∧
  ((r = 0 ∧ s.fbit fHLM_ADM_MIRROR_en = false) → False) ∧ (s.ring r).untaken.length < 2 ^ s.fget fHLM_RING_CFG_cmd_log2 r ∧
  (∀ w ∈ (s.ring r).window, w.1 ≠ k.tag.toNat) ∧ rejects (s.fbit fHLM_RING_CFG_expert r) r opcode k = none

/-- A packet is admitted to a ring on which nothing waits, and no fence and no common object holds it back (R368). -/
abbrev State.accepts (s : State) (opcode : Nat) (k : Packet) : Prop :=
  s.admits opcode k ∧ (s.ring k.onRing.val).untaken = [] ∧ s.mayBegin k.onRing.val opcode k = true

/-- The state in which an accepted command begins: the packet is committed and taken, and its tag is in the window (R362, R370). -/
def State.begun (s : State) (k : Packet) : State :=
  let r := k.onRing.val
  let s := s.tick fHLM_RING_STAT_committed r
  let s := s.setRing r { s.ring r with window := ((k.tag.toNat, none) :: (s.ring r).window).take 64 }
  (s.tick fHLM_RING_STAT_taken r).fput fHLM_RING_LAST_last_tag r k.tag.toNat

/-- The MER0 reading at which a packet's deadline expires, 0 for none (R371). A prompt command ignores it. -/
def State.expiryOf (s : State) (opcode : Nat) (k : Packet) : Nat :=
  if isPrompt opcode ∨ k.deadline.toNat = 0 then 0 else s.mer0 + k.deadline.toNat * 1600

/-- The record of an accepted command. -/
def State.recordOf (s : State) (opcode : Nat) (k : Packet) : Running :=
  runningOf (.ring k.onRing.val) opcode k (s.expiryOf opcode k)

/-- The state after an accepted command that makes an effect and ends with a status, a detail and a result. -/
def State.ends (s : State) (opcode : Nat) (k : Packet) (effect : State → State) (st : Status) (detail result steps : Nat)
    (late isPartial : Bool := false) : State :=
  ((effect (s.begun k)).conclude (s.recordOf opcode k) st detail result late isPartial steps).sweepRing k.onRing.val

/-- The state after an accepted command that makes an effect and ends OK. -/
def State.completes (s : State) (opcode : Nat) (k : Packet) (effect : State → State) (result : Nat := 0) (steps : Nat := 1) : State :=
  s.ends opcode k effect .ok 0 result steps

/-- The state after an accepted command that makes an effect and then waits for an event, with what its completion will carry. -/
def State.awaits (s : State) (opcode : Nat) (k : Packet) (effect : State → State) (why : WaitFor)
    (detail result dst space steps : Nat := 0) : State :=
  let t := effect (s.begun k)
  let x := { s.recordOf opcode k with why := why, detail := detail, result := result, dst := dst, space := space, steps := steps }
  ({ t with helm := { t.helm with running := t.helm.running ++ [x] } } : State).sweepRing k.onRing.val

/-! ### A register write with a row of its own -/

/-- The block of a register takes writes, and no running leg uses the register (R14, R466). -/
abbrev State.takesRow (s : State) (id : RegId) (i : Nat) : Prop := s.takesWrite id.info.base = true ∧ s.legUses ⟨id, i, 0⟩ = false

/-- The writes that wait for delivery have acted, which gives t, and t takes a write of a register with a row of its own (R12, R14). -/
abbrev State.takesInOrder (s : State) (id : RegId) (i : Nat) (t : State) : Prop := t = s.inOrder id.info.base ∧ t.takesRow id i

/-! ### A doorbell write of the host that acts at once -/

/-- The link is up, no doorbell write is held, and every earlier BAR2 write is acknowledged (R27, R454). -/
abbrev State.bellsFree (s : State) : Prop := s.host.perst = false ∧ s.host.bells = [] ∧ s.portQuiet portPB = true

/-! ### A flit that is delivered here -/

/-- A flit of a type and virtual channel is the expected one of its port and is for this node: its service takes it in t (R417, R419). -/
abbrev State.receives (s : State) (p typ vc : Nat) (f g : Flit) (t : State) : Prop :=
  g = { f with typ := typ, vc := vc } ∧ s.acceptFlit p g = (t, true) ∧ t.flitIsMine g = true

/-! ### A Pilot that takes an instruction -/

/-- The state with the dispatch entry of a word read and shown (R150, R167). -/
def State.dispatching (s : State) (p w : Nat) : State :=
  (s.readCs (p / 4) (dispKey (bits w 63 56))).1.dispatch p w (s.readCs (p / 4) (dispKey (bits w 63 56))).2.1

/-- A Pilot at an instruction boundary takes a vendor word: its dispatch entry and the first word of its routine read, no breakpoint stops
it, its place and its operand bits are right; t is the state in which its effect begins (R135, R136, R150, R152, R166, R175). -/
abbrev State.takesWord (s : State) (p w : Nat) (t : State) : Prop :=
  (s.pilot p).takes = true ∧ (s.readCs (p / 4) (dispKey (bits w 63 56))).2.2 = false ∧
  (s.dispatching p w).breaksAt p (bits (s.readCs (p / 4) (dispKey (bits w 63 56))).2.1 13 0) = false ∧
  ((s.dispatching p w).pilot p).takes = true ∧
  ((opInfo (bits w 63 56)).any (fun o => (if (s.dispatching p w).legRuns p then o.inLeg else o.between) &&
    decide (bits w 55 0 - Nat.land (bits w 55 0) o.mask = 0))) = true ∧
  ∃ v, ((s.dispatching p w).passBreak p).leadWord (p / 4) (bits w 63 56)
    (bits (s.readCs (p / 4) (dispKey (bits w 63 56))).2.1 13 0) = (t, some v)

/-- A Pilot's routine runs a word that issues no vector, tests no horizon and meets no breakpoint (R155, R159, R161, R175). -/
abbrev State.runsWord (s : State) (p w : Nat) : Prop :=
  (s.pilot p).q.inRoutine = true ∧ (s.pilot p).q.run = none ∧ (s.pilot p).st = .inLeg ∧ (s.pilot p).leg.ending = 0 ∧
  s.breaksAt p (s.pilot p).q.upc = false ∧ bits (mwVec w) 7 5 = 0 ∧ bits (mwVec w) 4 3 = 0 ∧ mwHorizon w = false

/-! ### Frames: what each command may change -/

/-- The parts of some groups, some banks of registers and some units. -/
def Part.of (groups : List (List Part)) (regs : List RegId) (units : List Part) : List Part := groups.flatten ++ regs.map .reg ++ units
/-- What beginning and ending a ring command may change: the ring and its completions, the counters, and what waits to be told. -/
def ringEnds : List Part := Part.of [] [.HLM_RING_CFG, .HLM_RING_MIR, .HLM_RING_STAT, .HLM_RING_LAST, .HLM_RING_CPL, .HLM_RING_CNT]
  [.free, .rings, .counters, .helm, .wln]
/-- What a posted element may change: its queue, the tasks that it wakes, and the interrupts. -/
def reportParts : List Part := Part.of [] [.DPT_COMMIT_SEQ, .DPT_DROP, .DPT_MARK, .DPT_Q_TAIL, .DPT_Q_CNT] [.msix, .depot, .swy]
/-- What an access by DVA may change: the walk's and the memory's counts and errors, and the memory itself. -/
def memoryParts : List Part := Part.of [] [.MEM_STATUS, .MEM_DEC_ADDR, .MEM_CH_ECC, .MEM_CH_ERR_ADDR, .CHT_WALK_CNT, .BNC_LOG_STAT,
  .BNC_LOG_ENTRY] [.hostPort, .counters, .hbmMem, .hbm, .chart, .bnc]
/-- What scriptLoad may change, and the 7 others of its shape. -/
def scriptLoadParts : List Part := Part.of [ringEnds, reportParts, memoryParts] [.MEM_SEG_LOST, .CHT_PLT_CNT, .DMA_CH_STAT, .DMA_CH_CNT]
  [.time, .dma]
/-- What nop may change, and the 32 others of its shape. -/
def nopParts : List Part := Part.of [reportParts, memoryParts] [.PIN_STATUS, .PLT_LEG_STATUS, .PLT_LEG_INDEX, .PLT_LEG_E,
  .PLT_MATCH_STAT, .PLT_TRAP_STAT, .PLT_TRAP_PEND, .PLT_TRAP_FRAME, .PLT_CS_STAT, .PLT_CS_ECC, .PLT_CS_UE_LOC, .PLT_FF_STAT,
  .PLT_FF_INDEX, .PLT_FF_MASK, .PLT_FF_CYC, .PLT_STRM_LO, .PLT_STRM_HI, .PLT_STRM_FLOOR, .PLT_STRM_STAT, .PLT_CAP_STAT, .PIN_FAIL_COUNT,
  .PLT_SITE_MASK, .PLT_SITE_DROP, .PLT_SUSP, .MEM_SEG_LOST, .CHT_PLT_CNT, .DMA_CH_STAT, .DMA_CH_CNT, .HLM_RING_CNT, .DPT_Q_HEAD,
  .WLN_AGG] [.time, .free, .ms, .rings, .helm, .pins, .clusters, .pilots, .jobs, .dma, .dds, .wln]
/-- What jmpAbs may change, and the other of its shape. -/
def jmpAbsParts : List Part := Part.of [reportParts, memoryParts] [.PIN_STATUS, .PLT_LEG_STATUS, .PLT_LEG_INDEX, .PLT_LEG_E,
  .PLT_MATCH_STAT, .PLT_TRAP_STAT, .PLT_TRAP_PEND, .PLT_TRAP_FRAME, .PLT_CS_STAT, .PLT_CS_ECC, .PLT_CS_UE_LOC, .PLT_FF_STAT,
  .PLT_FF_INDEX, .PLT_FF_MASK, .PLT_FF_CYC, .PLT_STRM_LO, .PLT_STRM_HI, .PLT_STRM_FLOOR, .PLT_STRM_STAT, .PLT_HOLD_STAT, .PLT_CAP_STAT,
  .PIN_FAIL_COUNT, .PLT_SITE_MASK, .PLT_SITE_DROP, .PLT_SUSP, .MEM_SEG_LOST, .CHT_PLT_CNT, .DMA_CH_STAT, .DMA_CH_CNT, .HLM_RING_CNT,
  .DPT_Q_HEAD, .WLN_AGG] [.time, .free, .ms, .rings, .helm, .pins, .clusters, .pilots, .jobs, .dma, .dds, .wln]
/-- What seqCont may change, and the 10 others of its shape. -/
def seqContParts : List Part := Part.of [reportParts, memoryParts] [.PIN_STATUS, .PLT_LEG_STATUS, .PLT_LEG_INDEX, .PLT_LEG_E,
  .PLT_MATCH_STAT, .PLT_TRAP_STAT, .PLT_TRAP_PEND, .PLT_TRAP_FRAME, .PLT_FF_STAT, .PLT_FF_INDEX, .PLT_FF_MASK, .PLT_FF_CYC,
  .PLT_STRM_LO, .PLT_STRM_HI, .PLT_STRM_FLOOR, .PLT_STRM_STAT, .PLT_HOLD_STAT, .PLT_CAP_STAT, .PIN_FAIL_COUNT, .PLT_SITE_MASK,
  .PLT_SITE_DROP, .PLT_SUSP, .MEM_SEG_LOST, .CHT_PLT_CNT, .DMA_CH_STAT, .DMA_CH_CNT, .HLM_RING_CNT, .DPT_Q_HEAD, .WLN_AGG] [.time,
  .free, .ms, .rings, .helm, .pins, .pilots, .jobs, .dma, .dds, .wln]
/-- What relativeLegStart may change, and the other of its shape. -/
def relativeLegStartParts : List Part := Part.of [reportParts, memoryParts] [.MER_SLIP_STAT, .PIN_STATUS, .PLT_LEG_STATUS, .PLT_LEG_S,
  .PLT_LEG_FRAC, .PLT_MATCH_STAT, .PLT_TRAP_STAT, .PLT_TRAP_FRAME, .PLT_FF_STAT, .PLT_STRM_LO, .PLT_STRM_HI, .PLT_STRM_FLOOR,
  .PLT_STRM_STAT, .PLT_CAP_STAT, .PIN_FAIL_COUNT, .PLT_SITE_MASK, .PLT_SITE_DROP, .MEM_SEG_LOST, .CHT_PLT_CNT, .DMA_CH_STAT,
  .DMA_CH_CNT, .HLM_RING_CNT] [.time, .free, .ms, .rings, .helm, .pins, .pilots, .jobs, .dma, .dds, .wln]
/-- What slotFill may change, and the other of its shape. -/
def slotFillParts : List Part := Part.of [reportParts, memoryParts] [.PIN_STATUS, .PLT_LEG_STATUS, .PLT_LEG_INDEX, .PLT_LEG_E,
  .PLT_MATCH_STAT, .PLT_TRAP_STAT, .PLT_TRAP_PEND, .PLT_TRAP_FRAME, .PLT_FF_STAT, .PLT_FF_INDEX, .PLT_FF_MASK, .PLT_FF_CYC,
  .PLT_STRM_LO, .PLT_STRM_HI, .PLT_STRM_FLOOR, .PLT_STRM_STAT, .PLT_CAP_STAT, .PIN_FAIL_COUNT, .PLT_SITE_MASK, .PLT_SITE_DROP,
  .PLT_SUSP, .MEM_SEG_LOST, .CHT_PLT_CNT, .DMA_CH_STAT, .DMA_CH_CNT, .HLM_RING_CNT, .DPT_Q_HEAD, .WLN_AGG] [.time, .free, .ms, .rings,
  .helm, .pins, .pilots, .jobs, .dma, .dds, .wln]
/-- What compareResultArrival may change, and the 2 others of its shape. -/
def compareResultArrivalParts : List Part := Part.of [reportParts, memoryParts] [.PIN_STATUS, .PLT_LEG_STATUS, .PLT_LEG_INDEX,
  .PLT_LEG_E, .PLT_LEG_FRAC, .PLT_MATCH_STAT, .PLT_TRAP_STAT, .PLT_TRAP_PEND, .PLT_TRAP_FRAME, .PLT_FF_STAT, .PLT_FF_INDEX,
  .PLT_FF_MASK, .PLT_FF_CYC, .PLT_STRM_LO, .PLT_STRM_HI, .PLT_STRM_FLOOR, .PLT_STRM_STAT, .PLT_CAP_STAT, .PIN_FAIL_COUNT,
  .PLT_SITE_MASK, .PLT_SITE_DROP, .MEM_SEG_LOST, .CHT_PLT_CNT, .DMA_CH_STAT, .DMA_CH_CNT, .HLM_RING_CNT, .WLN_AGG] [.time, .free, .ms,
  .rings, .helm, .pins, .pilots, .jobs, .dma, .dds, .wln]
/-- What bulkWr may change, and the other of its shape. -/
def bulkWrParts : List Part := Part.of [reportParts, memoryParts] [.MEM_SEG_LOST, .CHT_PLT_CNT, .DMA_CH_STAT, .DMA_CH_CNT, .WLN_P_ERR]
  [.time, .free, .dma, .wln]

/-- What each command may change: nothing else does, whatever its operands and the state. None for those whose effect is a register's,
a reset's or a trip's. -/
def frameOf : Instr → Option (List Part)
  | .registerWrite _ _ _ => none
  | .immediateMilestone => none
  | .arbiterGrant _ => some (Part.of [reportParts] [.MEM_STATUS, .MEM_DEC_ADDR, .MEM_CH_ECC, .MEM_CH_ERR_ADDR, .BNC_LOG_STAT,
    .BNC_LOG_ENTRY] [.free, .hostPort, .counters, .hbmMem, .hbm, .bnc])
  | .fenceComplete _ => some (Part.of [reportParts] [.MEM_STATUS, .MEM_DEC_ADDR, .MEM_CH_ECC, .MEM_CH_ERR_ADDR, .BNC_LOG_STAT,
    .BNC_LOG_ENTRY] [.free, .hostPort, .counters, .hbmMem, .hbm, .bnc])
  | .writeQueueDrain _ => some [.hbmMem, .hbm]
  | .doorbellRelease => none
  | .bar2Read _ _ => some (Part.of [reportParts, memoryParts] [.MEM_SEG_LOST, .CHT_BAR2_CNT, .CHT_PLT_CNT, .DMA_CH_STAT, .DMA_CH_CNT]
    [.time, .free, .dma])
  | .bar2Write _ _ _ => some (Part.of [reportParts, memoryParts] [.MEM_SEG_LOST, .CHT_BAR2_CNT, .CHT_PLT_CNT, .DMA_CH_STAT, .DMA_CH_CNT,
    .PCI_ERR] [.time, .free, .dma])
  | .stride _ => some (Part.of [reportParts, memoryParts] [.PIN_STATUS, .ALM_STATUS, .ALM_ECC_CNT, .ALM_UE_LOC, .PLT_LEG_STATUS,
    .PLT_LEG_INDEX, .PLT_LEG_E, .PLT_MATCH_STAT, .PLT_RSV_COUNT, .PLT_HEXT_COUNT, .PLT_TRAP_STAT, .PLT_TRAP_PEND, .PLT_TRAP_FRAME,
    .PLT_CS_STAT, .PLT_CS_ECC, .PLT_CS_UE_LOC, .PLT_FF_STAT, .PLT_FF_INDEX, .PLT_FF_MASK, .PLT_FF_CYC, .PLT_STRM_LO, .PLT_STRM_HI,
    .PLT_STRM_FLOOR, .PLT_STRM_STAT, .PLT_HOLD_STAT, .PLT_CAP_STAT, .PIN_FAIL_COUNT, .PLT_SITE_MASK, .PLT_SITE_DROP, .PLT_SUSP,
    .MEM_SEG_LOST, .CHT_PLT_CNT, .DMA_CH_STAT, .DMA_CH_CNT, .HLM_RING_CNT, .DPT_Q_HEAD, .WLN_AGG] [.time, .free, .ms, .rings, .helm,
    .pins, .clusters, .pilots, .jobs, .dma, .dds, .wln])
  | .vectorPeriod _ => some (Part.of [reportParts, memoryParts] [.PIN_STATUS, .ALM_CROWD, .PLT_LEG_STATUS, .PLT_LEG_INDEX, .PLT_LEG_E,
    .PLT_MATCH_STAT, .PLT_TRAP_STAT, .PLT_TRAP_PEND, .PLT_TRAP_FRAME, .PLT_FF_STAT, .PLT_FF_INDEX, .PLT_FF_MASK, .PLT_FF_CYC,
    .PLT_STRM_LO, .PLT_STRM_HI, .PLT_STRM_FLOOR, .PLT_STRM_STAT, .PLT_CAP_STAT, .PIN_FAIL_COUNT, .PLT_SITE_MASK, .PLT_SITE_DROP,
    .DDS_ENG_CNT, .MEM_SEG_LOST, .CHT_PLT_CNT, .DMA_CH_STAT, .DMA_CH_CNT, .HLM_RING_CNT, .WLN_AGG] [.time, .free, .ms, .rings, .helm,
    .pins, .pilots, .jobs, .dma, .sxt, .dds, .wln])
  | .compareResultArrival _ _ _ => some compareResultArrivalParts
  | .nop _ => some nopParts
  | .vec _ _ => some nopParts
  | .rpt _ _ => some nopParts
  | .pad _ _ => some nopParts
  | .loop _ _ _ _ => some nopParts
  | .endl _ _ => some nopParts
  | .jmp _ _ => some nopParts
  | .call _ _ => some nopParts
  | .ret _ => some nopParts
  | .failMark _ => some nopParts
  | .jmpFail _ _ _ => some nopParts
  | .jmpPass _ _ _ => some nopParts
  | .jmpInd _ _ => some nopParts
  | .jmpAbs _ _ => some jmpAbsParts
  | .matchLoop _ _ _ _ _ => some nopParts
  | .aluSet _ _ _ => some nopParts
  | .aluAdd _ _ _ => some nopParts
  | .jmpAnz _ _ _ => some nopParts
  | .waitOdo _ _ _ => some nopParts
  | .msPost _ _ _ => some nopParts
  | .legendSel _ _ => some nopParts
  | .tset _ _ => some nopParts
  | .waypt _ _ => some jmpAbsParts
  | .legStart _ _ => some nopParts
  | .endLeg _ _ => some nopParts
  | .capCtl _ _ _ _ => some nopParts
  | .ffailArm _ => some nopParts
  | .sxtWin _ _ _ _ => some nopParts
  | .sxtArm _ _ _ => some nopParts
  | .ddsHop _ _ _ => some nopParts
  | .pvLoad _ _ _ => some nopParts
  | .pvXor _ _ _ => some nopParts
  | .pvCapt _ _ _ _ => some nopParts
  | .scan _ _ _ => some nopParts
  | .userOpcode _ _ _ => some nopParts
  | .seqCont _ _ => some seqContParts
  | .seqJump _ _ => some seqContParts
  | .seqBranch _ _ => some seqContParts
  | .seqMcall _ _ => some seqContParts
  | .seqMret _ _ => some seqContParts
  | .seqWait _ _ => some seqContParts
  | .seqWaitTimeout _ => some seqContParts
  | .seqNext _ _ => some seqContParts
  | .seqRbr _ _ => some seqContParts
  | .seqMtab _ _ => some seqContParts
  | .seqTrap _ _ => some seqContParts
  | .controlStoreReload _ _ _ => some (Part.of [reportParts, memoryParts] [.PIN_STATUS, .PLT_MATCH_STAT, .PLT_TRAP_STAT,
    .PLT_TRAP_FRAME, .PLT_CS_STAT, .PLT_CS_ECC, .PLT_CS_UE_LOC, .PLT_FF_STAT, .PLT_STRM_LO, .PLT_STRM_HI, .PLT_STRM_FLOOR,
    .PLT_STRM_STAT, .PLT_CAP_STAT, .PIN_FAIL_COUNT, .PLT_SITE_MASK, .PLT_SITE_DROP, .PLT_SUSP, .MEM_SEG_LOST, .CHT_PLT_CNT,
    .DMA_CH_STAT, .DMA_CH_CNT, .HLM_RING_CNT] [.time, .free, .ms, .rings, .helm, .clusters, .pilots, .jobs, .dma, .dds, .wln])
  | .controlStoreScrub _ => some (Part.of [] [.PLT_CS_STAT, .PLT_CS_ECC, .PLT_CS_UE_LOC, .BNC_LOG_STAT, .BNC_LOG_ENTRY] [.counters,
    .clusters, .bnc])
  | .haltEntry _ => some (Part.of [reportParts, memoryParts] [.PIN_STATUS, .PLT_LEG_STATUS, .PLT_LEG_INDEX, .PLT_LEG_E, .PLT_LEG_FRAC,
    .PLT_MATCH_STAT, .PLT_TRAP_STAT, .PLT_TRAP_PEND, .PLT_TRAP_FRAME, .PLT_FF_STAT, .PLT_FF_INDEX, .PLT_FF_MASK, .PLT_FF_CYC,
    .PLT_STRM_LO, .PLT_STRM_HI, .PLT_STRM_FLOOR, .PLT_STRM_STAT, .PLT_CAP_STAT, .PIN_FAIL_COUNT, .PLT_SITE_MASK, .PLT_SITE_DROP,
    .MEM_SEG_LOST, .CHT_PLT_CNT, .DMA_CH_STAT, .DMA_CH_CNT, .HLM_RING_CNT, .DPT_Q_HEAD, .WLN_AGG] [.time, .free, .ms, .rings, .helm,
    .pins, .pilots, .jobs, .dma, .dds, .wln])
  | .siteQueueEntry _ => some (Part.of [reportParts] [.PLT_SITE_DROP, .DPT_Q_HEAD] [.pilots, .jobs, .wln])
  | .legEnd _ => some (Part.of [reportParts, memoryParts] [.PIN_STATUS, .PLT_LEG_STATUS, .PLT_LEG_INDEX, .PLT_LEG_E, .PLT_LEG_FRAC,
    .PLT_MATCH_STAT, .PLT_TRAP_STAT, .PLT_TRAP_PEND, .PLT_TRAP_FRAME, .PLT_FF_STAT, .PLT_FF_INDEX, .PLT_FF_MASK, .PLT_FF_CYC,
    .PLT_STRM_LO, .PLT_STRM_HI, .PLT_STRM_FLOOR, .PLT_STRM_STAT, .PLT_CAP_STAT, .PIN_FAIL_COUNT, .PLT_SITE_MASK, .PLT_SITE_DROP,
    .PLT_SUSP, .MEM_SEG_LOST, .CHT_PLT_CNT, .DMA_CH_STAT, .DMA_CH_CNT, .HLM_RING_CNT, .DPT_Q_HEAD, .WLN_AGG] [.time, .free, .ms, .rings,
    .helm, .pins, .pilots, .jobs, .dma, .dds, .wln])
  | .jobRestore _ => some (Part.of [reportParts, memoryParts] [.PLT_MATCH_STAT, .PLT_TRAP_STAT, .PLT_TRAP_FRAME, .PLT_FF_STAT,
    .PLT_FF_INDEX, .PLT_FF_MASK, .PLT_FF_CYC, .PLT_STRM_LO, .PLT_STRM_HI, .PLT_STRM_FLOOR, .PLT_STRM_STAT, .PLT_CAP_STAT,
    .PIN_FAIL_COUNT, .PLT_SITE_MASK, .PLT_SITE_DROP, .MEM_SEG_LOST, .CHT_PLT_CNT, .DMA_CH_STAT, .DMA_CH_CNT, .HLM_RING_CNT] [.time,
    .free, .ms, .rings, .helm, .pilots, .jobs, .dma, .dds, .wln])
  | .relativeLegStart _ => some relativeLegStartParts
  | .slipSyncEdge _ _ => some (Part.of [reportParts] [.MER_SLIP_STAT, .PLT_LEG_STATUS, .PLT_LEG_S, .PLT_LEG_FRAC] [.time, .pins,
    .pilots, .jobs])
  | .slipExpiry _ => some (Part.of [reportParts, memoryParts] [.MER_SLIP_STAT, .PIN_STATUS, .PLT_LEG_STATUS, .PLT_LEG_INDEX, .PLT_LEG_S,
    .PLT_LEG_E, .PLT_LEG_FRAC, .PLT_MATCH_STAT, .PLT_TRAP_STAT, .PLT_TRAP_PEND, .PLT_TRAP_FRAME, .PLT_FF_STAT, .PLT_STRM_LO,
    .PLT_STRM_HI, .PLT_STRM_FLOOR, .PLT_STRM_STAT, .PLT_CAP_STAT, .PIN_FAIL_COUNT, .PLT_SITE_MASK, .PLT_SITE_DROP, .MEM_SEG_LOST,
    .CHT_PLT_CNT, .DMA_CH_STAT, .DMA_CH_CNT, .HLM_RING_CNT] [.time, .free, .ms, .rings, .helm, .pins, .pilots, .jobs, .dma, .dds, .wln])
  | .holdEnd _ => some (Part.of [reportParts] [.PLT_STRM_FLOOR] [.pilots])
  | .holdLimit _ => some (Part.of [reportParts, memoryParts] [.PIN_STATUS, .PLT_LEG_STATUS, .PLT_LEG_INDEX, .PLT_LEG_E, .PLT_MATCH_STAT,
    .PLT_TRAP_STAT, .PLT_TRAP_PEND, .PLT_TRAP_FRAME, .PLT_FF_STAT, .PLT_FF_INDEX, .PLT_FF_MASK, .PLT_FF_CYC, .PLT_STRM_LO, .PLT_STRM_HI,
    .PLT_STRM_FLOOR, .PLT_STRM_STAT, .PLT_CAP_STAT, .PIN_FAIL_COUNT, .PLT_SITE_MASK, .PLT_SITE_DROP, .MEM_SEG_LOST, .CHT_PLT_CNT,
    .DMA_CH_STAT, .DMA_CH_CNT, .HLM_RING_CNT, .WLN_AGG] [.time, .free, .ms, .rings, .helm, .pins, .pilots, .jobs, .dma, .dds, .wln])
  | .fillElement _ => some (Part.of [] [.PLT_STRM_LO, .PLT_STRM_HI, .PLT_STRM_STAT, .DPT_COMMIT_SEQ, .DPT_Q_TAIL, .DPT_Q_HEAD] [.msix,
    .depot, .swy, .wln])
  | .slotFill _ => some slotFillParts
  | .playoutFetch _ => some slotFillParts
  | .captureBlockWrite _ => some (Part.of [reportParts, memoryParts] [.MEM_SEG_LOST, .CHT_PLT_CNT, .DMA_CH_STAT, .DMA_CH_CNT] [.time,
    .free, .pins, .pilots, .dma])
  | .captureMarker _ => some (Part.of [reportParts] [] [.pilots])
  | .truncationMarker _ => some (Part.of [] [.DPT_COMMIT_SEQ, .DPT_MARK, .DPT_Q_TAIL, .DPT_Q_CNT] [.msix, .depot, .swy, .counters])
  | .msLegStart _ => some relativeLegStartParts
  | .msDdsHop _ => some (Part.of [reportParts] [.ALM_CROWD, .PLT_LEG_STATUS, .DDS_ENG_CNT, .HLM_RING_CNT] [.time, .free, .ms, .rings,
    .counters, .helm, .pins, .dds, .wln])
  | .msDdsAdvance _ => some (Part.of [reportParts] [.ALM_CROWD, .PLT_LEG_STATUS, .DDS_ENG_CNT, .HLM_RING_CNT] [.time, .free, .ms,
    .rings, .counters, .helm, .pins, .dds, .wln])
  | .msDdsStart _ => some (Part.of [reportParts] [.ALM_CROWD, .PLT_LEG_STATUS, .DDS_ENG_EPOCH, .DDS_ENG_EPOCH_FRAC, .HLM_RING_CNT]
    [.time, .free, .ms, .rings, .counters, .helm, .pins, .dds, .wln])
  | .msDdsStop _ => some (Part.of [reportParts] [.ALM_CROWD, .PLT_LEG_STATUS, .DDS_ENG_CNT, .HLM_RING_CNT] [.time, .free, .ms, .rings,
    .counters, .helm, .pins, .dds, .wln])
  | .msSxtArm _ => some (Part.of [reportParts] [.HLM_RING_CNT] [.time, .free, .ms, .rings, .counters, .helm, .sxt, .wln])
  | .msSxtWindow _ => some (Part.of [reportParts] [.HLM_RING_CNT] [.time, .free, .ms, .rings, .counters, .helm, .sxt, .wln])
  | .msAcqTrigger _ => some (Part.of [reportParts] [.ACQ_CNT, .HLM_RING_CNT] [.time, .free, .ms, .rings, .counters, .helm, .acq, .wln])
  | .msConverterTrigger _ => some (Part.of [reportParts] [.ADC_STATUS, .ADC_OVERRUN, .ADC_RUN_CYC, .ADC_RUN_FRAC, .ADC_SD_OVR,
    .ADC_SD_CFG, .ADC_SD_RES, .ADC_SAR_RES, .HLM_RING_CNT] [.time, .free, .ms, .rings, .counters, .helm, .adc, .acq, .wln])
  | .msWaylineLaunch _ => some (Part.of [reportParts] [.HLM_RING_CNT, .WLN_P_LAUNCH] [.time, .free, .ms, .rings, .counters, .helm, .wln])
  | .msMsyncOut _ => some (Part.of [reportParts] [.HLM_RING_CNT] [.time, .free, .ms, .rings, .counters, .helm, .wln, .bnc])
  | .msGpio _ => some (Part.of [reportParts] [.HLM_RING_CNT] [.time, .free, .ms, .rings, .counters, .helm, .wln, .bnc])
  | .msDepotPost _ => some (Part.of [reportParts] [.HLM_RING_CNT] [.time, .free, .ms, .rings, .counters, .helm, .wln])
  | .meridianLock _ _ => some (Part.of [] [.ALM_CROWD, .PLT_LEG_STATUS] [.mers, .pins])
  | .bearingLost _ => some (Part.of [reportParts, memoryParts] [.MER_STATUS, .MER_LOST_COUNT, .MER_SLIP_STAT, .PIN_STATUS,
    .PLT_LEG_STATUS, .PLT_LEG_INDEX, .PLT_LEG_E, .PLT_LEG_FRAC, .PLT_MATCH_STAT, .PLT_TRAP_STAT, .PLT_TRAP_PEND, .PLT_TRAP_FRAME,
    .PLT_FF_STAT, .PLT_FF_INDEX, .PLT_FF_MASK, .PLT_FF_CYC, .PLT_STRM_LO, .PLT_STRM_HI, .PLT_STRM_FLOOR, .PLT_STRM_STAT, .PLT_CAP_STAT,
    .PIN_FAIL_COUNT, .PLT_SITE_MASK, .PLT_SITE_DROP, .SXT_MU_STAT, .MEM_SEG_LOST, .CHT_PLT_CNT, .DMA_CH_STAT, .DMA_CH_CNT,
    .HLM_RING_CNT, .WLN_AGG] [.time, .free, .mers, .ms, .rings, .helm, .pins, .pilots, .jobs, .dma, .sxt, .dds, .wln])
  | .freqRangeExit _ _ => some (Part.of [reportParts, memoryParts] [.MER_STATUS, .PIN_STATUS, .ALM_CROWD, .PLT_LEG_STATUS,
    .PLT_LEG_INDEX, .PLT_LEG_E, .PLT_MATCH_STAT, .PLT_TRAP_STAT, .PLT_TRAP_PEND, .PLT_TRAP_FRAME, .PLT_FF_STAT, .PLT_FF_INDEX,
    .PLT_FF_MASK, .PLT_FF_CYC, .PLT_STRM_LO, .PLT_STRM_HI, .PLT_STRM_FLOOR, .PLT_STRM_STAT, .PLT_CAP_STAT, .PIN_FAIL_COUNT,
    .PLT_SITE_MASK, .PLT_SITE_DROP, .MEM_SEG_LOST, .CHT_PLT_CNT, .DMA_CH_STAT, .DMA_CH_CNT, .HLM_RING_CNT, .WLN_AGG] [.time, .free,
    .mers, .ms, .rings, .helm, .pins, .pilots, .jobs, .dma, .dds, .wln])
  | .merCtlWrite _ _ _ => none
  | .merSnap _ => none
  | .overvoltage _ _ => some (Part.of [] [.PIN_STATUS, .PIN_OV_COUNT] [.counters, .pins])
  | .levelSettled _ => some (Part.of [] [.PIN_STATUS, .HLM_RING_CNT] [.free, .rings, .counters, .helm, .pins, .wln])
  | .almanacApertureWrite _ _ _ _ _ => none
  | .sextantEdge _ _ _ _ => some (Part.of [] [.SXT_CH_CNT, .SXT_MU_STAT] [.time, .pins, .sxt])
  | .stampDecision _ => some (Part.of [reportParts, memoryParts] [.SXT_CH_CTL, .SXT_CH_STAT, .SXT_CH_CNT, .SXT_MU_CTL, .SXT_MU_STAT,
    .SXT_MU_CNT, .SXT_MU_COUNT, .SXT_MU_SUM, .SXT_MU_SUMSQ_LO, .SXT_MU_SUMSQ_HI, .SXT_MU_MINMAX, .MEM_SEG_LOST, .CHT_PLT_CNT,
    .DMA_CH_STAT, .DMA_CH_CNT, .HLM_RING_CNT] [.time, .free, .rings, .helm, .dma, .sxt, .wln])
  | .stampPost _ => some (Part.of [reportParts] [] [.sxt])
  | .frequencyRunEnd _ => some (Part.of [reportParts, memoryParts] [.SXT_CH_CTL, .SXT_MU_CTL, .SXT_MU_COUNT, .SXT_MU_SUM,
    .SXT_MU_SUMSQ_LO, .SXT_MU_SUMSQ_HI, .SXT_MU_MINMAX, .MEM_SEG_LOST, .CHT_PLT_CNT, .DMA_CH_STAT, .DMA_CH_CNT, .HLM_RING_CNT] [.time,
    .free, .rings, .helm, .dma, .sxt, .wln])
  | .sxtWinCommit _ => none
  | .sxtChCtlWrite _ _ => none
  | .sxtMuCtlWrite _ _ => none
  | .selfCheckStart => none
  | .selfCheckDone _ => some (Part.of [] [.SXT_STATUS, .SXT_SC_FAIL, .HLM_RING_CNT] [.free, .rings, .counters, .helm, .sxt, .wln])
  | .dwellEnd _ => some (Part.of [] [.ALM_CROWD, .PLT_LEG_STATUS, .DDS_ENG_CNT] [.time, .pins, .dds])
  | .ddsListWrite _ _ _ => none
  | .sdOutput _ _ _ => some (Part.of [reportParts, memoryParts] [.ADC_SD_OVR, .ADC_SD_CFG, .ADC_SD_RES, .ADC_SD_LIVE, .ACQ_STAT,
    .ACQ_CNT, .MEM_SEG_LOST, .CHT_PLT_CNT, .DMA_CH_STAT, .DMA_CH_CNT] [.time, .free, .dma, .adc, .acq])
  | .sarConversionDone _ _ => some (Part.of [reportParts, memoryParts] [.ADC_SAR_STAT, .ADC_SAR_OVR, .ADC_SAR_INJ_RES, .ADC_SAR_RES,
    .ACQ_STAT, .ACQ_CNT, .MEM_SEG_LOST, .CHT_PLT_CNT, .DMA_CH_STAT, .DMA_CH_CNT, .HLM_RING_CNT] [.time, .free, .rings, .helm, .dma,
    .adc, .acq, .wln])
  | .converterResultPost => some (Part.of [reportParts] [] [.adc])
  | .adcTrigGo => none
  | .msyncInEdge _ _ => some (Part.of [] [.ADC_STATUS, .ADC_OVERRUN, .ADC_RUN_CYC, .ADC_RUN_FRAC, .ADC_SD_OVR, .ADC_SD_CFG, .ADC_SD_RES,
    .ADC_SAR_RES, .ACQ_CNT] [.time, .adc, .acq, .wln])
  | .heldTrigger => some (Part.of [] [.ADC_STATUS, .ADC_RUN_CYC, .ADC_RUN_FRAC, .ADC_SD_OVR, .ADC_SD_CFG, .ADC_SD_RES, .ADC_SAR_RES]
    [.time, .adc, .acq])
  | .sarInjectRequest _ _ => none
  | .adcSdCfgWrite _ _ => none
  | .acqCtlWrite _ _ => none
  | .acqTrigGo _ => none
  | .acqRecord _ => some (Part.of [reportParts] [.ACQ_STAT] [.free, .adc, .acq])
  | .acqRearm _ => some (Part.of [reportParts, memoryParts] [.ACQ_STAT, .MEM_SEG_LOST, .CHT_PLT_CNT, .DMA_CH_STAT, .DMA_CH_CNT] [.time,
    .free, .dma, .adc, .acq])
  | .refreshStop => some (Part.of [] [.MEM_REF_STAT] [.time, .hbm])
  | .refreshStopEnd _ => some (Part.of [] [.MEM_CH_MAINT, .MEM_TRN_ERR] [.time, .hbm])
  | .stackTempRead _ => some (Part.of [reportParts] [.MEM_STATUS, .MEM_REF_STAT, .MEM_TEMP] [.hbm])
  | .parityAlert _ _ => some (Part.of [reportParts] [.PLT_CS_STAT, .MEM_CH_STAT, .MEM_CH_PAR, .BNC_LOG_STAT, .BNC_LOG_ENTRY] [.time,
    .hostPort, .counters, .hbmMem, .hbm, .bnc])
  | .hbmScrub => some (Part.of [reportParts] [.MEM_STATUS, .MEM_DEC_ADDR, .MEM_SCRUB, .MEM_CH_ECC, .MEM_CH_ERR_ADDR, .BNC_LOG_STAT,
    .BNC_LOG_ENTRY] [.time, .free, .hostPort, .counters, .hbmMem, .hbm, .bnc])
  | .memoryWake _ => some (Part.of [] [.MEM_STATUS] [.hbm])
  | .selfRefreshExit => some (Part.of [reportParts] [.MEM_STATUS, .MEM_SEG_LOST] [.hbm])
  | .memMapCtlWrite _ _ => none
  | .walkComplete _ _ _ _ => some (Part.of [reportParts, memoryParts] [.MEM_SEG_LOST, .CHT_PLT_CNT, .DMA_CH_STAT, .DMA_CH_CNT] [.time,
    .free, .dma])
  | .chtInvGo => none
  | .dmaDescriptor _ => some (Part.of [reportParts, memoryParts] [.MEM_SEG_LOST, .CHT_PLT_CNT, .DMA_CH_STAT, .DMA_CH_PROG, .DMA_CH_CNT,
    .DPT_Q_HEAD] [.time, .free, .dma, .wln])
  | .granuleComplete _ _ => some (Part.of [reportParts, memoryParts] [.MEM_SEG_LOST, .CHT_PLT_CNT, .DMA_CH_STAT, .DMA_CH_PROG,
    .DMA_CH_CNT] [.time, .free, .hostMem, .dma, .wln])
  | .dmaCompletion _ => some (Part.of [reportParts] [.DMA_CH_STAT, .DMA_CH_CNT] [.dma])
  | .dmaChCtlWrite _ _ => none
  | .doorbellPageWrite _ _ _ => none
  | .cplConsumedWrite _ _ => none
  | .completionCommit _ => some (Part.of [ringEnds] [] [.hostMem, .msix])
  | .moderationTimeout _ => some [.time, .msix, .rings]
  | .deadlineExpiry _ _ _ => some ringEnds
  | .nopCommand _ => some ringEnds
  | .ringCreate _ => some ringEnds
  | .ringDelete _ => some ringEnds
  | .abortAll _ => some (Part.of [ringEnds, reportParts, memoryParts] [.PIN_STATUS, .PLT_LEG_STATUS, .PLT_LEG_INDEX, .PLT_LEG_E,
    .PLT_LEG_FRAC, .PLT_MATCH_STAT, .PLT_TRAP_STAT, .PLT_TRAP_PEND, .PLT_TRAP_FRAME, .PLT_FF_STAT, .PLT_FF_INDEX, .PLT_FF_MASK,
    .PLT_FF_CYC, .PLT_STRM_LO, .PLT_STRM_HI, .PLT_STRM_FLOOR, .PLT_STRM_STAT, .PLT_CAP_STAT, .PIN_FAIL_COUNT, .PLT_SITE_MASK,
    .PLT_SITE_DROP, .MEM_SEG_LOST, .CHT_PLT_CNT, .DMA_CH_STAT, .DMA_CH_CNT, .HLM_PROMPT_CNT, .WLN_AGG] [.time, .ms, .pins, .pilots,
    .jobs, .dma, .dds])
  | .takeFix _ => some (Part.of [ringEnds] [.HLM_FIX_STAT] [])
  | .scriptLoad _ => some scriptLoadParts
  | .scriptCtl _ => some (Part.of [ringEnds] [] [.swy])
  | .memMapSet _ => some (Part.of [ringEnds] [.MEM_MAP_CTL, .MEM_MAP_BASE, .MEM_MAP_LEN] [])
  | .memTrain _ => some (Part.of [ringEnds, reportParts] [.MEM_STATUS, .MEM_SEG_LOST] [.hbm])
  | .memChRecover _ => some (Part.of [ringEnds, reportParts] [.MEM_STATUS, .MEM_SEG_LOST, .MEM_CH_STAT] [.hbmMem, .hbm])
  | .memSelfRefresh _ => some (Part.of [ringEnds, reportParts] [.MEM_STATUS, .MEM_DEC_ADDR, .MEM_PASR, .MEM_SEG_LOST, .MEM_CH_ECC,
    .MEM_CH_ERR_ADDR, .BNC_LOG_STAT, .BNC_LOG_ENTRY] [.time, .hostPort, .hbmMem, .hbm, .bnc])
  | .memSegClear _ => some (Part.of [ringEnds, reportParts] [.MEM_STATUS, .MEM_SEG_LOST] [.hbmMem, .hbm])
  | .aspaceSet _ => some (Part.of [ringEnds] [.CHT_AS_CTL, .CHT_AS_ROOT] [.chart])
  | .chartMap _ => some scriptLoadParts
  | .chartUnmap _ => some scriptLoadParts
  | .chartInvalidate _ => some scriptLoadParts
  | .chartRetry _ => some scriptLoadParts
  | .chartAbandon _ => some (Part.of [ringEnds] [.DMA_CH_STAT] [.chart, .dma])
  | .dmaChannelSet _ => some (Part.of [ringEnds, reportParts, memoryParts] [.MEM_SEG_LOST, .CHT_PLT_CNT, .DMA_CH_CTL, .DMA_CH_STAT,
    .DMA_CH_CNT] [.time, .dma])
  | .routeLoad _ => some scriptLoadParts
  | .jobDefine _ => some (Part.of [ringEnds, reportParts, memoryParts] [.MEM_SEG_LOST, .CHT_PLT_CNT, .DMA_CH_STAT, .DMA_CH_CNT] [.time,
    .jobs, .dma])
  | .jobStart _ => some (Part.of [ringEnds, reportParts, memoryParts] [.MER_MS_STAT, .PIN_STATUS, .PLT_MATCH_STAT, .PLT_TRAP_STAT,
    .PLT_TRAP_FRAME, .PLT_FF_STAT, .PLT_STRM_LO, .PLT_STRM_HI, .PLT_STRM_FLOOR, .PLT_STRM_STAT, .PLT_CAP_STAT, .PIN_FAIL_COUNT,
    .PLT_SITE_MASK, .PLT_SITE_DROP, .PLT_SUSP, .MEM_SEG_LOST, .CHT_PLT_CNT, .DMA_CH_STAT, .DMA_CH_CNT] [.time, .ms, .pilots, .jobs,
    .dma, .dds])
  | .haltJob _ => some (Part.of [ringEnds, reportParts, memoryParts] [.PLT_MATCH_STAT, .PLT_TRAP_STAT, .PLT_TRAP_FRAME, .PLT_FF_STAT,
    .PLT_STRM_LO, .PLT_STRM_HI, .PLT_STRM_FLOOR, .PLT_STRM_STAT, .PLT_CAP_STAT, .PIN_FAIL_COUNT, .PLT_SITE_MASK, .PLT_SITE_DROP,
    .MEM_SEG_LOST, .CHT_PLT_CNT, .DMA_CH_STAT, .DMA_CH_CNT, .HLM_PROMPT_CNT] [.time, .ms, .pilots, .jobs, .dma, .dds])
  | .siteMask _ => some (Part.of [ringEnds] [] [.pilots, .jobs])
  | .siteDrop _ => some (Part.of [ringEnds] [.DPT_COMMIT_SEQ, .DPT_Q_TAIL] [.msix, .depot, .swy])
  | .trapResume _ => some (Part.of [ringEnds, reportParts, memoryParts] [.PIN_STATUS, .PLT_MATCH_STAT, .PLT_TRAP_STAT, .PLT_TRAP_FRAME,
    .PLT_FF_STAT, .PLT_STRM_LO, .PLT_STRM_HI, .PLT_STRM_FLOOR, .PLT_STRM_STAT, .PLT_CAP_STAT, .PIN_FAIL_COUNT, .PLT_SITE_MASK,
    .PLT_SITE_DROP, .PLT_SUSP, .MEM_SEG_LOST, .CHT_PLT_CNT, .DMA_CH_STAT, .DMA_CH_CNT, .DPT_Q_HEAD] [.time, .ms, .pilots, .jobs, .dma,
    .dds])
  | .jobUndefine _ => some (Part.of [ringEnds] [] [.jobs])
  | .pinLevels _ => some (Part.of [ringEnds] [.PIN_DRV_LVL, .PIN_VTT, .PIN_CMP_LVL, .PIN_STATUS] [])
  | .pinConfig _ => some (Part.of [ringEnds] [.PIN_CTL] [.pins])
  | .pinPmu _ => some (Part.of [ringEnds] [.PIN_PMU_CTL, .PIN_PMU_FORCE, .PIN_PMU_CLAMP, .PIN_STATUS] [.pins, .adc])
  | .pinSite _ => some (Part.of [ringEnds] [.PIN_SITE] [])
  | .pinClear _ => some (Part.of [ringEnds] [.PIN_STATUS] [])
  | .almanacTemplate _ => some (Part.of [ringEnds] [] [.alm])
  | .almanacLoad _ => some (Part.of [ringEnds, reportParts, memoryParts] [.MEM_SEG_LOST, .CHT_PLT_CNT, .DMA_CH_STAT, .DMA_CH_CNT]
    [.time, .alm, .dma])
  | .almanacCheck _ => some (Part.of [ringEnds] [.ALM_STATUS, .ALM_ECC_CNT, .ALM_UE_LOC, .BNC_LOG_STAT, .BNC_LOG_ENTRY] [.bnc])
  | .almanacDeskew _ => some (Part.of [ringEnds] [.ALM_DESKEW] [])
  | .sextantMeasure _ => some (Part.of [ringEnds, reportParts, memoryParts] [.MER_MS_STAT, .SXT_CH_CTL, .SXT_MU_CTL, .SXT_MU_N,
    .SXT_MU_REF, .SXT_MU_STAT, .SXT_MU_COUNT, .SXT_MU_SUM, .SXT_MU_SUMSQ_LO, .SXT_MU_SUMSQ_HI, .SXT_MU_MINMAX, .MEM_SEG_LOST,
    .CHT_PLT_CNT, .DMA_CH_STAT, .DMA_CH_CNT] [.time, .ms, .dma, .sxt])
  | .sextantSelfcheck _ => some (Part.of [ringEnds] [.SXT_STATUS, .SXT_SC_MASK, .SXT_SC_SKIP] [.sxt])
  | .adcSequence _ => some (Part.of [ringEnds] [.ADC_TRIG_CFG, .ADC_SD_LEN, .ADC_SD_CFG, .ADC_SD_SEQ, .ADC_SAR_CTL, .ADC_SAR_SEQ] [.adc,
    .acq])
  | .adcTrigger _ => some (Part.of [ringEnds] [.ADC_STATUS, .ADC_OVERRUN, .ADC_RUN_CYC, .ADC_RUN_FRAC, .ADC_SD_OVR, .ADC_SD_CFG,
    .ADC_SD_RES, .ADC_SAR_RES] [.time, .adc, .acq])
  | .adcInject _ => some (Part.of [ringEnds] [.ADC_SAR_STAT] [.adc])
  | .acqArm _ => some (Part.of [ringEnds, reportParts, memoryParts] [.ACQ_CTL, .ACQ_SRC, .ACQ_BASE, .ACQ_PRE, .ACQ_POST, .ACQ_NSEG,
    .ACQ_LEVEL, .ACQ_QUEUE, .ACQ_STAT, .MEM_SEG_LOST, .CHT_PLT_CNT, .DMA_CH_STAT, .DMA_CH_CNT] [.time, .dma, .adc, .acq])
  | .acqStop _ => some (Part.of [ringEnds, reportParts] [.ACQ_CTL, .ACQ_STAT] [.adc, .acq])
  | .acqStats _ => some scriptLoadParts
  | .ddsLoad _ => some (Part.of [ringEnds, reportParts, memoryParts] [.DDS_ENG_CTL, .DDS_ENG_LEN, .DDS_ENG_MID, .MEM_SEG_LOST,
    .CHT_PLT_CNT, .DMA_CH_STAT, .DMA_CH_CNT] [.time, .dma, .dds])
  | .ddsStart _ => some (Part.of [ringEnds] [.MER_MS_STAT, .DDS_ENG_CTL] [.ms, .dds])
  | .ddsStop _ => some (Part.of [ringEnds] [.MER_MS_STAT] [.ms])
  | .ddsPin _ => some (Part.of [ringEnds] [.DDS_PIN_SEL] [])
  | .meridianConfig _ => some (Part.of [ringEnds] [.MER_CTL, .MER_FWORD, .MER_TRACK, .MER_FLIM, .MER_STATUS] [.mers])
  | .meridianEnable _ => some (Part.of [ringEnds, reportParts] [.MER_CTL, .MER_FLIM, .MER_START, .ALM_CROWD, .PLT_LEG_STATUS,
    .DDS_ENG_STAT] [.mers, .ms, .pins, .dds])
  | .meridianSet _ => some (Part.of [ringEnds] [.MER_START] [.mers])
  | .meridianAdjust _ => some (Part.of [ringEnds] [.ALM_CROWD, .PLT_LEG_STATUS] [.mers, .pins])
  | .milestonePost _ => some (Part.of [ringEnds, reportParts, memoryParts] [.MER_MS_STAT, .MEM_SEG_LOST, .CHT_PLT_CNT, .DMA_CH_STAT,
    .DMA_CH_CNT] [.time, .ms, .dma, .dds])
  | .milestoneCancel _ => some (Part.of [ringEnds] [] [.ms, .dds])
  | .waylinePort _ => some (Part.of [ringEnds, reportParts, memoryParts] [.PIN_STATUS, .PLT_LEG_STATUS, .PLT_LEG_INDEX, .PLT_LEG_E,
    .PLT_LEG_FRAC, .PLT_MATCH_STAT, .PLT_TRAP_STAT, .PLT_TRAP_PEND, .PLT_TRAP_FRAME, .PLT_FF_STAT, .PLT_FF_INDEX, .PLT_FF_MASK,
    .PLT_FF_CYC, .PLT_STRM_LO, .PLT_STRM_HI, .PLT_STRM_FLOOR, .PLT_STRM_STAT, .PLT_CAP_STAT, .PIN_FAIL_COUNT, .PLT_SITE_MASK,
    .PLT_SITE_DROP, .MEM_SEG_LOST, .CHT_PLT_CNT, .DMA_CH_STAT, .DMA_CH_CNT, .WLN_STATUS, .WLN_CONV, .WLN_AGG, .WLN_P_CTL, .WLN_P_STAT,
    .WLN_P_TAPS] [.time, .ms, .pins, .pilots, .jobs, .dma, .dds])
  | .waylineSend _ => some (Part.of [ringEnds, reportParts, memoryParts] [.MEM_SEG_LOST, .CHT_PLT_CNT, .DMA_CH_STAT, .DMA_CH_CNT,
    .WLN_P_LAUNCH] [.time, .dma])
  | .waylineForward _ => some scriptLoadParts
  | .muster _ => some (Part.of [ringEnds, reportParts, memoryParts] [.ALM_STATUS, .ALM_ECC_CNT, .ALM_UE_LOC, .MEM_SEG_LOST,
    .CHT_PLT_CNT, .DMA_CH_STAT, .DMA_CH_CNT, .WLN_STATUS, .WLN_CONV, .WLN_AGG, .WLN_ROUTE] [.time, .dma])
  | .convoyLeave _ => some (Part.of [ringEnds, reportParts, memoryParts] [.PIN_STATUS, .PLT_LEG_STATUS, .PLT_LEG_INDEX, .PLT_LEG_E,
    .PLT_LEG_FRAC, .PLT_MATCH_STAT, .PLT_TRAP_STAT, .PLT_TRAP_PEND, .PLT_TRAP_FRAME, .PLT_FF_STAT, .PLT_FF_INDEX, .PLT_FF_MASK,
    .PLT_FF_CYC, .PLT_STRM_LO, .PLT_STRM_HI, .PLT_STRM_FLOOR, .PLT_STRM_STAT, .PLT_CAP_STAT, .PIN_FAIL_COUNT, .PLT_SITE_MASK,
    .PLT_SITE_DROP, .MEM_SEG_LOST, .CHT_PLT_CNT, .DMA_CH_STAT, .DMA_CH_CNT, .WLN_STATUS, .WLN_CONV, .WLN_AGG] [.time, .ms, .pins,
    .pilots, .jobs, .dma, .dds])
  | .microcodeLoad _ => some (Part.of [ringEnds, reportParts, memoryParts] [.PLT_CS_STAT, .PLT_CS_ECC, .PLT_CS_UE_LOC, .PLT_UC_DIGEST,
    .MEM_SEG_LOST, .CHT_PLT_CNT, .DMA_CH_STAT, .DMA_CH_CNT] [.time, .clusters, .dma])
  | .microcodeUnload _ => some (Part.of [ringEnds] [.PLT_CS_STAT, .PLT_CS_ECC, .PLT_CS_UE_LOC, .PLT_UC_DIGEST, .BNC_LOG_STAT,
    .BNC_LOG_ENTRY] [.clusters, .bnc])
  | .powerDomain _ => some (Part.of [ringEnds, reportParts, memoryParts] [.PIN_STATUS, .PLT_LEG_STATUS, .PLT_LEG_INDEX, .PLT_LEG_E,
    .PLT_LEG_FRAC, .PLT_MATCH_STAT, .PLT_TRAP_STAT, .PLT_TRAP_PEND, .PLT_TRAP_FRAME, .PLT_CS_STAT, .PLT_UC_DIGEST, .PLT_FF_STAT,
    .PLT_FF_INDEX, .PLT_FF_MASK, .PLT_FF_CYC, .PLT_STRM_LO, .PLT_STRM_HI, .PLT_STRM_FLOOR, .PLT_STRM_STAT, .PLT_CAP_STAT,
    .PIN_FAIL_COUNT, .PLT_SITE_MASK, .PLT_SITE_DROP, .DDS_ENG_LEN, .ADC_SD_OVR, .ADC_SD_CFG, .ADC_SD_RES, .ADC_SD_LIVE, .ACQ_STAT,
    .MEM_SEG_LOST, .CHT_PLT_CNT, .DMA_CH_STAT, .DMA_CH_CNT, .WLN_STATUS, .WLN_CONV, .WLN_AGG, .WLN_P_STAT, .ETH_MAC, .ETH_PTP_STAT,
    .PWR_ON, .PWR_SWITCHING] [.time, .ms, .pins, .clusters, .pilots, .jobs, .dma, .dds, .adc, .acq])
  | .thermalSet _ => some (Part.of [ringEnds] [.THM_CFG] [])
  | .regBatch _ => none
  | .fixDoorbell _ => none
  | .fixWritten _ => some (Part.of [reportParts, memoryParts] [.MEM_SEG_LOST, .CHT_PLT_CNT, .DMA_CH_STAT, .DMA_CH_CNT, .HLM_FIX_STAT,
    .HLM_PROMPT_CNT, .HLM_RING_CNT] [.time, .free, .hostMem, .rings, .helm, .dma, .wln, .eth])
  | .create _ _ _ => some (Part.of [] [.SWY_H_RES] [.swy])
  | .delete _ _ => some (Part.of [] [.SWY_H_RES] [.depot, .swy])
  | .setPrio _ _ _ => some (Part.of [] [.SWY_H_RES] [.swy])
  | .setFlags _ _ _ => some (Part.of [] [.SWY_H_RES] [.swy])
  | .clearFlags _ _ => some (Part.of [] [.SWY_H_ARG, .SWY_H_RES] [.swy])
  | .wait _ _ _ _ _ => some (Part.of [] [.SWY_H_ARG, .SWY_H_RES] [.swy])
  | .delay _ _ => some (Part.of [] [.SWY_H_ARG, .SWY_H_RES] [.swy])
  | .yield _ => some (Part.of [] [.SWY_H_RES] [.swy])
  | .post _ _ _ => some (Part.of [reportParts] [.SWY_H_RES, .SWY_H_MSG] [])
  | .take _ _ => some (Part.of [] [.SWY_H_RES, .SWY_H_MSG, .DPT_COMMIT_SEQ, .DPT_Q_TAIL, .DPT_Q_HEAD] [.msix, .depot, .swy, .wln])
  | .exit _ => some (Part.of [] [.SWY_H_RES] [.swy])
  | .swyHSwitch _ => some (Part.of [] [.SWY_H_RES] [.swy])
  | .switchyardTick => none
  | .delayExpiry _ => some [.swy]
  | .swyTickWrite _ => none
  | .queueDoorbellWrite _ _ _ => none
  | .mirrorConsumedWrite _ _ => none
  | .mirrorWrite _ => some (Part.of [] [.DPT_COMMIT_SEQ, .DPT_Q_TAIL, .DPT_Q_HEAD, .DPT_Q_MIR_PTR] [.hostMem, .msix, .depot, .swy, .wln])
  | .spillRefill _ _ => some (Part.of [reportParts] [.MEM_STATUS, .MEM_DEC_ADDR, .MEM_SEG_LOST, .MEM_CH_ECC, .MEM_CH_ERR_ADDR,
    .BNC_LOG_STAT, .BNC_LOG_ENTRY] [.time, .free, .hostPort, .counters, .hbmMem, .hbm, .bnc])
  | .dptQCtlWrite _ _ => none
  | .blockLock _ _ => some (Part.of [] [.WLN_P_STAT] [])
  | .lockLoss _ _ => some (Part.of [] [.WLN_STATUS, .WLN_P_STAT, .WLN_P_ERR] [.wln])
  | .trainReq _ _ _ => some (Part.of [] [.WLN_P_TAPS] [.wln])
  | .trainStat _ _ _ => some (Part.of [] [.WLN_P_STAT] [.wln])
  | .portUp _ => some (Part.of [] [.HLM_RING_CNT, .WLN_STATUS, .WLN_P_STAT, .WLN_P_ERR] [.free, .rings, .counters, .helm, .wln])
  | .trainTimeout _ => some (Part.of [reportParts, memoryParts] [.PIN_STATUS, .PLT_LEG_STATUS, .PLT_LEG_INDEX, .PLT_LEG_E,
    .PLT_LEG_FRAC, .PLT_MATCH_STAT, .PLT_TRAP_STAT, .PLT_TRAP_PEND, .PLT_TRAP_FRAME, .PLT_FF_STAT, .PLT_FF_INDEX, .PLT_FF_MASK,
    .PLT_FF_CYC, .PLT_STRM_LO, .PLT_STRM_HI, .PLT_STRM_FLOOR, .PLT_STRM_STAT, .PLT_CAP_STAT, .PIN_FAIL_COUNT, .PLT_SITE_MASK,
    .PLT_SITE_DROP, .MEM_SEG_LOST, .CHT_PLT_CNT, .DMA_CH_STAT, .DMA_CH_CNT, .HLM_RING_CNT, .WLN_STATUS, .WLN_CONV, .WLN_AGG,
    .WLN_P_STAT] [.time, .free, .ms, .rings, .helm, .pins, .pilots, .jobs, .dma, .dds, .wln])
  | .idleQuietExpiry _ => some (Part.of [] [.WLN_STATUS, .WLN_P_STAT] [.wln])
  | .idleEnter _ => some (Part.of [] [.WLN_STATUS, .WLN_P_STAT] [])
  | .idleExit _ => some (Part.of [] [.WLN_STATUS, .WLN_P_STAT] [.wln])
  | .ack _ _ _ _ _ => some [.wln]
  | .nak _ _ => some (Part.of [] [.WLN_STATUS, .WLN_P_STAT, .WLN_P_ERR] [.counters, .wln])
  | .ackTimer _ => some [.wln]
  | .replayTimeout _ => some (Part.of [] [.WLN_STATUS, .WLN_P_STAT, .WLN_P_ERR] [.counters, .wln])
  | .halt _ _ _ => some compareResultArrivalParts
  | .go _ _ _ => some (Part.of [reportParts] [.MER_SLIP_STAT, .PLT_LEG_STATUS, .PLT_LEG_S, .PLT_LEG_FRAC, .ACQ_CNT, .WLN_CONV] [.pins,
    .pilots, .jobs, .acq, .wln])
  | .agg _ _ _ => some compareResultArrivalParts
  | .timeReq _ _ _ _ => some [.time, .wln]
  | .timeT2 _ _ _ _ => some [.time, .wln]
  | .timeT3 _ _ _ => some (Part.of [] [.MER_WALL_CTL, .ALM_STATUS, .ALM_ECC_CNT, .ALM_UE_LOC, .ALM_CROWD, .PLT_LEG_STATUS,
    .HLM_RING_CNT, .WLN_STATUS, .WLN_CONV, .WLN_AGG, .WLN_TIME, .WLN_ROUTE, .WLN_P_DELAY, .BNC_LOG_STAT, .BNC_LOG_ENTRY] [.free, .mers,
    .rings, .counters, .helm, .pins, .wln, .bnc])
  | .timeExchangeTimer _ _ => some [.time, .wln]
  | .launch _ _ _ => some []
  | .msg _ _ => some (Part.of [] [.DPT_COMMIT_SEQ, .DPT_Q_TAIL, .WLN_P_ERR] [.free, .msix, .depot, .swy, .wln])
  | .msgAck _ _ => some (Part.of [] [.HLM_RING_CNT, .WLN_P_ERR] [.free, .rings, .counters, .helm, .wln])
  | .fwdCmd _ _ => none
  | .fwdCpl _ _ => some (Part.of [] [.HLM_RING_CNT, .WLN_P_ERR] [.free, .rings, .counters, .helm, .wln])
  | .bulkWr _ _ => some bulkWrParts
  | .bulkRdReq _ _ => some bulkWrParts
  | .bulkRdData _ _ => some (Part.of [reportParts, memoryParts] [.MEM_SEG_LOST, .CHT_PLT_CNT, .DMA_CH_STAT, .DMA_CH_PROG, .DMA_CH_CNT,
    .WLN_P_ERR] [.time, .free, .hostMem, .dma, .wln])
  | .bulkAck _ _ => some (Part.of [reportParts, memoryParts] [.MEM_SEG_LOST, .CHT_PLT_CNT, .DMA_CH_STAT, .DMA_CH_PROG, .DMA_CH_CNT,
    .WLN_P_ERR] [.time, .free, .dma, .wln])
  | .bulkFaultTimeout _ => some [.time, .free, .chart, .wln]
  | .musterFlit _ _ => some (Part.of [reportParts, memoryParts] [.PIN_STATUS, .ALM_STATUS, .ALM_ECC_CNT, .ALM_UE_LOC, .PLT_LEG_STATUS,
    .PLT_LEG_INDEX, .PLT_LEG_E, .PLT_LEG_FRAC, .PLT_MATCH_STAT, .PLT_TRAP_STAT, .PLT_TRAP_PEND, .PLT_TRAP_FRAME, .PLT_FF_STAT,
    .PLT_FF_INDEX, .PLT_FF_MASK, .PLT_FF_CYC, .PLT_STRM_LO, .PLT_STRM_HI, .PLT_STRM_FLOOR, .PLT_STRM_STAT, .PLT_CAP_STAT,
    .PIN_FAIL_COUNT, .PLT_SITE_MASK, .PLT_SITE_DROP, .MEM_SEG_LOST, .CHT_PLT_CNT, .DMA_CH_STAT, .DMA_CH_CNT, .HLM_RING_CNT, .WLN_STATUS,
    .WLN_CONV, .WLN_AGG, .WLN_ROUTE, .WLN_P_STAT, .WLN_P_ERR] [.time, .free, .ms, .rings, .helm, .pins, .pilots, .jobs, .dma, .dds,
    .wln])
  | .musterOffsetTimeout => some (Part.of [] [.ALM_STATUS, .ALM_ECC_CNT, .ALM_UE_LOC, .HLM_RING_CNT, .WLN_STATUS, .WLN_CONV, .WLN_AGG,
    .WLN_ROUTE, .BNC_LOG_STAT, .BNC_LOG_ENTRY] [.time, .free, .rings, .counters, .helm, .wln, .bnc])
  | .musterRootTimeout => some (Part.of [] [.HLM_RING_CNT, .WLN_STATUS, .WLN_CONV, .WLN_AGG, .WLN_ROUTE, .BNC_LOG_STAT, .BNC_LOG_ENTRY]
    [.time, .free, .rings, .counters, .helm, .wln, .bnc])
  | .musterVerdictTimeout => some (Part.of [] [.HLM_RING_CNT, .WLN_STATUS, .WLN_CONV, .WLN_AGG, .WLN_ROUTE, .BNC_LOG_STAT,
    .BNC_LOG_ENTRY] [.time, .free, .rings, .counters, .helm, .wln, .bnc])
  | .wlnHalt => none
  | .wlnGo => none
  | .wlnAggWrite _ => none
  | .ptpMessage _ _ _ _ => some (Part.of [] [.ALM_CROWD, .PLT_LEG_STATUS, .ETH_PTP_STAT] [.time, .free, .mers, .pins, .eth])
  | .syncTimeout => some (Part.of [] [.ETH_PTP_STAT] [.time])
  | .ethTxElement => some (Part.of [reportParts, memoryParts] [.MEM_SEG_LOST, .CHT_PLT_CNT, .DMA_CH_STAT, .DMA_CH_CNT, .DPT_Q_HEAD]
    [.time, .free, .dma, .wln, .eth])
  | .ethLaunch => some (Part.of [reportParts] [] [.time, .free, .eth])
  | .telemetryTimer => some (Part.of [] [.HLM_FIX_STAT] [.time, .helm, .eth])
  | .fixRequestDatagram _ _ _ => some (Part.of [] [.HLM_FIX_STAT] [.helm])
  | .ethLinkChange _ => some (Part.of [] [.ETH_MAC] [])
  | .msixUnmask _ _ => some [.msix]
  | .pendingPowerDown _ => some (Part.of [reportParts, memoryParts] [.PIN_STATUS, .PLT_LEG_STATUS, .PLT_LEG_INDEX, .PLT_LEG_E,
    .PLT_LEG_FRAC, .PLT_MATCH_STAT, .PLT_TRAP_STAT, .PLT_TRAP_PEND, .PLT_TRAP_FRAME, .PLT_CS_STAT, .PLT_UC_DIGEST, .PLT_FF_STAT,
    .PLT_FF_INDEX, .PLT_FF_MASK, .PLT_FF_CYC, .PLT_STRM_LO, .PLT_STRM_HI, .PLT_STRM_FLOOR, .PLT_STRM_STAT, .PLT_CAP_STAT,
    .PIN_FAIL_COUNT, .PLT_SITE_MASK, .PLT_SITE_DROP, .DDS_ENG_LEN, .ADC_SD_OVR, .ADC_SD_CFG, .ADC_SD_RES, .ADC_SD_LIVE, .ACQ_STAT,
    .MEM_SEG_LOST, .CHT_PLT_CNT, .DMA_CH_STAT, .DMA_CH_CNT, .HLM_RING_CNT, .WLN_STATUS, .WLN_CONV, .WLN_AGG, .WLN_P_STAT, .ETH_MAC,
    .ETH_PTP_STAT, .PWR_ON, .PWR_SWITCHING, .PWR_RESULT] [.time, .free, .ms, .rings, .helm, .pins, .clusters, .pilots, .jobs, .dma,
    .dds, .adc, .acq, .wln])
  | .powerUpDone _ => some (Part.of [] [.PIN_CTL, .PIN_DRV_LVL, .PIN_VTT, .PIN_CMP_LVL, .PIN_PMU_CTL, .PIN_PMU_FORCE, .PIN_PMU_CLAMP,
    .PIN_STATUS, .PIN_OV_COUNT, .PIN_TRIM, .PLT_CTL, .PLT_STATUS, .PLT_LEG_STATUS, .PLT_LEG_INDEX, .PLT_LEG_S, .PLT_LEG_E,
    .PLT_LEG_FRAC, .PLT_MATCH_STAT, .PLT_RSV_COUNT, .PLT_HEXT_COUNT, .PLT_ALU, .PLT_WTO, .PLT_BRK, .PLT_TRAP_STAT, .PLT_TRAP_PEND,
    .PLT_TRAP_FRAME, .PLT_CS_STAT, .PLT_CS_ECC, .PLT_CS_UE_LOC, .PLT_CS_ADDR, .PLT_CS_DATA, .PLT_UC_DIGEST, .PLT_VL_DIGEST,
    .PLT_FF_STAT, .PLT_FF_INDEX, .PLT_FF_MASK, .PLT_FF_CYC, .PLT_STRM_LO, .PLT_STRM_HI, .PLT_STRM_FLOOR, .PLT_STRM_STAT, .PLT_HOLD_STAT,
    .PLT_HOLD_LIMIT, .PLT_CAP_STAT, .PIN_FAIL_COUNT, .PIN_SITE, .PLT_SITE_MASK, .PLT_SITE_DROP, .PLT_SUSP, .PLT_SUSP_LIST, .SXT_CH_CTL,
    .SXT_CH_QUEUE, .SXT_WIN_OPEN, .SXT_WIN_CLOSE, .SXT_WIN_FRAC, .SXT_WIN_CMT, .SXT_CH_DESKEW, .SXT_CH_STAT, .SXT_CH_CNT, .DDS_CTL,
    .DDS_STATUS, .DDS_PIN_SEL, .DDS_ENG_CTL, .DDS_ENG_LEN, .DDS_ENG_MID, .DDS_ENG_STAT, .DDS_ENG_CNT, .DDS_ENG_EPOCH,
    .DDS_ENG_EPOCH_FRAC, .ADC_SAR_CTL, .ADC_SAR_SEQ, .ADC_SAR_INJ, .ADC_SAR_STAT, .ADC_SAR_OVR, .ADC_SAR_INJ_RES, .ADC_SAR_RES,
    .ACQ_STATUS, .ACQ_CTL, .ACQ_SRC, .ACQ_BASE, .ACQ_PRE, .ACQ_POST, .ACQ_NSEG, .ACQ_LEVEL, .ACQ_QUEUE, .ACQ_TRIG, .ACQ_STAT, .ACQ_CNT,
    .HLM_RING_CNT, .WLN_P_CTL, .WLN_P_STAT, .WLN_P_TAPS, .WLN_P_LAT, .WLN_P_ASYM, .WLN_P_DELAY, .WLN_P_ERR, .WLN_P_FEC, .WLN_P_LAUNCH,
    .ETH_CTL, .ETH_MAC, .ETH_TXQ, .ETH_PTP_CTL, .ETH_PTP_STAT, .ETH_OOB, .ETH_OOB_PEER, .BNC_LOG_STAT, .BNC_LOG_ENTRY, .PWR_ON,
    .PWR_SWITCHING, .PWR_RESULT] [.time, .free, .rings, .counters, .helm, .pins, .clusters, .pilots, .sxt, .dds, .adc, .acq, .wln,
    .bnc])
  | .powerGood _ => some (Part.of [] [.MEM_STATUS, .MEM_CH_STAT, .PCI_LINK, .BNC_STATUS, .BNC_RESET, .PWR_ON] [.free, .mers, .bnc])
  | .bootComplete _ _ _ _ _ => some (Part.of [reportParts] [.PLT_CS_STAT, .PLT_CS_ECC, .PLT_CS_UE_LOC, .MEM_STATUS, .MEM_REF_ORG,
    .MEM_DEC_ADDR, .MEM_CH_STAT, .MEM_CH_ECC, .MEM_CH_ERR_ADDR, .CHT_AS_CTL, .CHT_AS_ROOT, .DPT_Q_CTL, .DEV_STATUS, .BNC_STATUS,
    .BNC_VERSION, .BNC_LOG_STAT, .BNC_LOG_ENTRY, .PWR_ON] [.free, .hostPort, .counters, .helm, .alm, .clusters, .hbmMem, .hbm, .bnc])
  | .coldReset _ => none
  | .warmReset => none
  | .perstDeassert => some (Part.of [] [.DPT_Q_CTL, .DEV_STATUS, .PCI_LINK] [.free, .msix, .hostPort, .helm])
  | .bncBlkReset _ => none
  | .thermalSample _ => none
  | .thermalTrip => none
  | .smbThmTemp => some [.bnc]
  | .smbThmState => some [.bnc]
  | .smbBncStatus => some [.bnc]
  | .smbPwrOn => some [.bnc]
  | .smbAlertResponse => some [.bnc]
  | .registerRead _ _ => none
  | .pmuClamp _ => some (Part.of [] [.PIN_STATUS] [])
  | .edgesReturn _ => some (Part.of [] [.ALM_CROWD, .PLT_LEG_STATUS] [.mers, .pins])
  | .phaseOffsetRemoved _ => some [.time, .mers]
  | .flitCrcError _ _ => some (Part.of [] [.WLN_P_ERR] [.counters, .wln])
  | .badControlBlock _ => some (Part.of [] [.WLN_P_ERR] [])
  | .fecCodeword _ _ => some (Part.of [] [.WLN_P_FEC] [])

end Sys2Proof.Machine
end

