-- ==== Sys2Proof/Certificates/Slice0/Obligations.lean ====
section
/-! DEFINITION. The statements for the provers. A command's clause has as its conclusion that exec answers a next state, and names
that state by the shared operations of Machine/; a clause of a ring command speaks of the state `u` in which the command begins
(Safety.lean, `State.begun`). -/

open Sys2Proof Sys2Proof.Machine

/-! ### The block as a whole -/

/-- A step runs the command at the front of the queue on the state with the queue's rest (the row's cut). -/
def Obligations.StepRunsTheFrontCommand : Prop :=
  ∀ (c : Instr) (rest : List Instr) (s : State), s.pending = c :: rest → step s = exec c { s with pending := rest }

/-- On an empty queue a step is one Pilot cycle of idling: 1/750 of a microsecond passes, and of all else only check bits may come to show
an error, in at most one beat, Almanac entry or control-store word. The model's choices (log entries 55 and 108). No word spells a command, so the word put before a step changes nothing (every row of the table has no bits). -/
def Obligations.IdleStepsAndWords : Prop :=
  (∀ s : State, s.pending = [] → ∃ t, step s = .next t ∧ t.now * 750000000 = s.now * 750000000 + unitsPerSecond ∧
    t = { s with now := t.now, free := s.free + 1, hbm := { s.hbm with marks := t.hbm.marks }, alm := { s.alm with marks := t.alm.marks },
                 clusters := t.clusters } ∧
    (t.hbm.marks = s.hbm.marks ∨ (t.alm.marks = s.alm.marks ∧ t.clusters = s.clusters)) ∧
    (t.alm.marks = s.alm.marks ∨ t.clusters = s.clusters) ∧ (∀ c k, t.csWord c k = s.csWord c k)) ∧
  (∀ (s : State) (nbits w : Nat), decodeTableWord nbits w = none ∧ s.withFetchWord nbits w = s)

/-- What every step keeps: memories and beat marks in canonical form, at most 4,096 milestones (R55) with ids that are distinct and
below the next id (R52), and rings that remember 64 tags and no more (R370).
The model's choices on which this rests: log entries 7 and 8. -/
def Obligations.EveryStepKeepsTheBlockSound : Prop :=
  ∀ s t : State, s.sound → step s = .next t → t.sound

/-- The block is sound right after reset. -/
def Obligations.ResetIsSound : Prop := State.reset.sound

/-- The only stop of the block is the fault of a pin outside its survival range: a step refuses nothing, and faults only on an
OVERVOLTAGE (R5). -/
def Obligations.OnlyOvervoltageStops : Prop :=
  ∀ (c : Instr) (s : State), (∃ t, exec c s = .next t) ∨ (∃ n mv, c = .overvoltage n mv ∧ exec c s = .fault .pinSurvival)

/-- Time and the numbering of free values never go back, whatever the command.
The model's choices on which this rests: log entries 2 and 5. -/
def Obligations.TimeNeverGoesBack : Prop :=
  ∀ (c : Instr) (s t : State), exec c s = .next t → s.now ≤ t.now ∧ s.free ≤ t.free

/-! ### Pins (chapter 03) -/

/-- The events of the front end: a voltage inside the survival range moves the pin's comparator, and beyond the protection range it is an
overvoltage, which is shown and counted unless the pin is unpowered or tripped (R82); one outside the survival range is the one fault of
the block (R5); a pin has settled and after a power-up leaves park (R69, R83); a clamp limits the PMU's current in FVMI and its voltage
in FIMV (R77). -/
def Obligations.PinEventsActAsTheRulesSay : Prop :=
  (∀ (n : PinNo) (mv : Int) (s : State), -1000 ≤ mv → mv ≤ 2500 → (mv < -600 ∨ 2100 < mv) → (s.feelVoltage n.val (mv * 1000000)).pinState n.val ≠ 0 →
    (s.feelVoltage n.val (mv * 1000000)).pinState n.val ≠ 7 → exec (.overvoltage n mv) s =
      .next ((((s.feelVoltage n.val (mv * 1000000)).fput fPIN_STATUS_ov n.val 1).bump fPIN_OV_COUNT_count n.val).countFix 20)) ∧
  (∀ (n : PinNo) (mv : Int) (s : State), -1000 ≤ mv → mv ≤ 2500 →
    ((-600 ≤ mv ∧ mv ≤ 2100) ∨ (s.feelVoltage n.val (mv * 1000000)).pinState n.val = 0 ∨
      (s.feelVoltage n.val (mv * 1000000)).pinState n.val = 7) →
    exec (.overvoltage n mv) s = .next (s.feelVoltage n.val (mv * 1000000))) ∧
  (∀ (n : PinNo) (mv : Int) (s : State), (mv < -1000 ∨ 2500 < mv) → exec (.overvoltage n mv) s = .fault .pinSurvival) ∧
  (∀ (n : PinNo) (s : State), s.helm.running = [] → exec (.levelSettled n) s =
    .next ((s.setPin n.val { s.pin n.val with risen := false }).fput fPIN_STATUS_settling n.val 0)) ∧
  (∀ (n : PinNo) (s : State), (s.fget fPIN_PMU_CTL_mode n.val = 1 ∨ s.fget fPIN_PMU_CTL_mode n.val = 2) → s.pinState n.val = 6 →
    exec (.pmuClamp n) s = .next (s.fput fPIN_STATUS_clamp n.val 1)) ∧
  (∀ (n : PinNo) (s : State), ((s.fget fPIN_PMU_CTL_mode n.val ≠ 1 ∧ s.fget fPIN_PMU_CTL_mode n.val ≠ 2) ∨ s.pinState n.val ≠ 6) →
    exec (.pmuClamp n) s = .next s)

/-- PIN_LEVELS, PIN_CONFIG, PIN_PMU, PIN_SITE and PIN_CLEAR with parameters in range and pins that no leg holds: each pin of the mask
takes what was selected, and a command that makes a pin settle completes only when all have (R69, R78). A PIN_LEVELS command whose codes break R68, R72 or R504 completes with LEVEL_RANGE, one that names a pin of a running leg with
PIN_BUSY, and a PIN_SITE for a claimed pin with PIN_CLAIMED; each changes no pin. -/
def Obligations.PinCommandsAct : Prop :=
  (∀ (s u : State) (k : Packet), s.accepts 0x3001 k → u = s.begun k → u.pinsRefused (u64 k 0) = none → u8 k 19 < 8 → levelsGood k = true →
    let f (v : State) : State := (pinsOf (u64 k 0)).foldl (fun v n => v.putLevels k n) v
    ((f u).allSettled (u64 k 0) = true → exec (.pinLevels k) s = .next (s.completes 0x3001 k f 0 (popCount 48 (u64 k 0)))) ∧
    ((f u).allSettled (u64 k 0) = false →
      exec (.pinLevels k) s = .next (s.awaits 0x3001 k f (.settled (u64 k 0)) 0 0 0 0 (popCount 48 (u64 k 0))))) ∧
  (∀ (s u : State) (k : Packet), s.accepts 0x3002 k → u = s.begun k → u.pinsRefused (u64 k 0) = none → configGood k = true →
    exec (.pinConfig k) s = .next (s.completes 0x3002 k (fun v => (pinsOf (u64 k 0)).foldl (fun v n => v.putConfig k n) v))) ∧
  (∀ (s u : State) (k : Packet), s.accepts 0x3003 k → u = s.begun k → u.pinsRefused (u64 k 0) = none → u8 k 8 < 4 → u8 k 9 < 8 →
    let f (v : State) : State :=
      (pinsOf (u64 k 0)).foldl (fun v n => v.putPmu n (u8 k 8) (u8 k 9) (u16 k 10) (u16 k 12) (u16 k 14)) v
    ((f u).allSettled (u64 k 0) = true → exec (.pinPmu k) s = .next (s.completes 0x3003 k f 0 (popCount 48 (u64 k 0)))) ∧
    ((f u).allSettled (u64 k 0) = false →
      exec (.pinPmu k) s = .next (s.awaits 0x3003 k f (.settled (u64 k 0)) 0 0 0 0 (popCount 48 (u64 k 0))))) ∧
  (∀ (s u : State) (k : Packet), s.accepts 0x3004 k → u = s.begun k → u8 k 0 < 48 → u8 k 1 < 48 → u.pinJob (u8 k 0) = none →
    exec (.pinSite k) s = .next (s.completes 0x3004 k (fun v => v.fput fPIN_SITE_site (u8 k 0) (u8 k 1)))) ∧
  (∀ (s u : State) (k : Packet), s.accepts 0x3005 k → u = s.begun k → u.pinsRefused (u64 k 0) = none → u8 k 8 < 8 →
    exec (.pinClear k) s = .next (s.completes 0x3005 k (fun v => (pinsOf (u64 k 0)).foldl (fun v n => v.clearPin (u8 k 8) n) v))) ∧
  (∀ (s u : State) (k : Packet), s.accepts 0x3001 k → u = s.begun k → u.pinsRefused (u64 k 0) = none → u8 k 19 < 8 → levelsGood k = false →
    exec (.pinLevels k) s = .next (s.ends 0x3001 k id .levelRange 0 0 0)) ∧
  (∀ (s u : State) (k : Packet), s.accepts 0x3001 k → u = s.begun k → u64 k 0 < 2 ^ 48 → (pinsOf (u64 k 0)).any u.pinInLeg = true →
    exec (.pinLevels k) s = .next (s.ends 0x3001 k id .pinBusy 0 0 0)) ∧
  (∀ (s u : State) (k : Packet), s.accepts 0x3004 k → u = s.begun k → u8 k 0 < 48 → u8 k 1 < 48 → (u.pinJob (u8 k 0)).isSome = true →
    exec (.pinSite k) s = .next (s.ends 0x3004 k id .pinClaimed 0 0 0))

/-! ### The Almanac (chapter 04) -/

/-- ALMANAC_TEMPLATE, ALMANAC_LOAD, ALMANAC_CHECK and ALMANAC_DESKEW within their ranges on entries that no running job uses. A write of
4 or 8 aligned bytes into the Almanac aperture is staged, and the write of the entry's last bytes stores the whole entry; a write to a
protected entry is dropped, and one of another size or place is discarded (R109, R110, R111, R14, R438). -/
def Obligations.AlmanacIsWrittenAndChecked : Prop :=
  (∀ (s u : State) (k : Packet), s.accepts 0x4001 k → u = s.begun k →
    let es := [u32 k 20, u32 k 24, u32 k 28, u32 k 32, u32 k 36].map (fun x => templateEdge x (u32 k 16))
    let ts := almTargets (u16 k 0) (u16 k 2) (u64 k 8)
    0 < u16 k 2 → u16 k 0 + u16 k 2 ≤ 2048 → 0 < u32 k 16 → u32 k 16 ≤ 1048576 → u64 k 8 < 2 ^ 48 → u8 k 4 < 16 →
    (∀ x ∈ [u32 k 20, u32 k 24, u32 k 28, u32 k 32, u32 k 36], x < 2 ^ 22) → (∀ e ∈ es, e < 2 ^ 44) → u.almBusy ts = false →
    exec (.almanacTemplate k) s = .next (s.completes 0x4001 k
      (fun v => ts.foldl (fun v t => v.setAlm t.1 t.2 (templateEntry (u8 k 4) es)) v) 0 (u16 k 2))) ∧
  (∀ (s u v : State) (k : Packet) (bs : List Byte), s.accepts 0x4002 k → u = s.begun k → 0 < u16 k 12 → u16 k 10 + u16 k 12 ≤ 2048 →
    u64 k 16 < 2 ^ 48 → u.almBusy (almTargets (u16 k 10) (u16 k 12) (u64 k 16)) = false →
    u.payload (u8 k 8) (u64 k 0) (1536 * u16 k 12) = (v, .bytes bs) →
    exec (.almanacLoad k) s = .next (s.completes 0x4002 k (fun _ => (almTargets (u16 k 10) (u16 k 12) (u64 k 16)).foldl (fun v t =>
      v.setAlm t.1 t.2 (ofBytes ((bs.drop (1536 * (t.1 - u16 k 10) + 32 * t.2)).take 32))) v) 0 (u16 k 12))) ∧
  (∀ (s u : State) (k : Packet), s.accepts 0x4003 k → u = s.begun k → 0 < u16 k 2 → u16 k 0 + u16 k 2 ≤ 2048 → 0 < u32 k 4 →
    u32 k 4 ≤ 1048576 → u64 k 8 < 2 ^ 48 →
    let r := u.almFailures (u32 k 4) (almTargets (u16 k 0) (u16 k 2) (u64 k 8))
    let first := match r.2 with
      | [] => 0xFFFFFFFF
      | t :: _ => t.1 + t.2 * 2 ^ 16
    exec (.almanacCheck k) s = .next (s.completes 0x4003 k (fun _ => r.1) (r.2.length + first * 2 ^ 32))) ∧
  (∀ (s u : State) (k : Packet), s.accepts 0x4004 k → u = s.begun k → u8 k 0 < 48 → u.pinInLeg (u8 k 0) = false →
    exec (.almanacDeskew k) s = .next (s.completes 0x4004 k (fun v =>
      (v.fput fALM_DESKEW_drv_deskew (u8 k 0) (enc 24 (clampInt (-8388608) 8388607 (s32 k 4)))).fput fALM_DESKEW_cmp_deskew (u8 k 0)
        (enc 24 (clampInt (-8388608) 8388607 (s32 k 8)))))) ∧
  (∀ (set : BitVec 11) (n : PinNo) (byte : Fin 32) (size : Fin 9) (v : BitVec 64) (s t : State), t = s.deliverAll → t.takesWrite 0xB00000 = true →
    accessOk byte.val size.val = true → t.almProtected set.toNat n.val = false → byte.val + size.val ≤ 28 → t.alm.stageKey = some (almKey set.toNat n.val) →
    exec (.almanacApertureWrite set n byte size v) s = .next (({ t with alm := { t.alm with
      stage := setBits t.alm.stage (8 * (byte.val + size.val) - 1) (8 * byte.val) (v.toNat % 2 ^ (8 * size.val)) } } : State).fput
        fALM_STATUS_stage_valid 0 1)) ∧
  (∀ (set : BitVec 11) (n : PinNo) (byte : Fin 32) (size : Fin 9) (v : BitVec 64) (s t w u : State) (e : Nat) (bad : Bool), t = s.deliverAll →
    t.takesWrite 0xB00000 = true → accessOk byte.val size.val = true → t.almProtected set.toNat n.val = false → byte.val + size.val ≤ 28 →
    t.alm.stageKey ≠ some (almKey set.toNat n.val) → w = (if t.alm.stageKey.isSome then t.fput fALM_STATUS_stage_lost 0 1 else t) →
    w.readAlm set.toNat n.val = (u, e, bad) →
    exec (.almanacApertureWrite set n byte size v) s = .next (({ u with alm := { u.alm with
      stageKey := some (almKey set.toNat n.val)
      stage := setBits e (8 * (byte.val + size.val) - 1) (8 * byte.val) (v.toNat % 2 ^ (8 * size.val)) } } : State).fput
        fALM_STATUS_stage_valid 0 1)) ∧
  (∀ (set : BitVec 11) (n : PinNo) (byte : Fin 32) (size : Fin 9) (v : BitVec 64) (s t : State), t = s.deliverAll → t.takesWrite 0xB00000 = true →
    accessOk byte.val size.val = true → t.almProtected set.toNat n.val = false → 28 < byte.val + size.val → t.alm.stageKey = some (almKey set.toNat n.val) →
    ∃ u, exec (.almanacApertureWrite set n byte size v) s = .next u ∧ u.alm.stageKey = none ∧ u.fget fALM_STATUS_stage_valid = 0 ∧
      u.almEntry set.toNat n.val =
        almMask (setBits t.alm.stage (8 * (byte.val + size.val) - 1) (8 * byte.val) (v.toNat % 2 ^ (8 * size.val))) ∧
      (∀ set' n', almKey set' n' ≠ almKey set.toNat n.val → u.almEntry set' n' = t.almEntry set' n') ∧ Changes [.alm, .reg .ALM_STATUS] t u) ∧
  (∀ (set : BitVec 11) (n : PinNo) (byte : Fin 32) (size : Fin 9) (v : BitVec 64) (s t : State), t = s.deliverAll → t.takesWrite 0xB00000 = true →
    accessOk byte.val size.val = true → t.almProtected set.toNat n.val = true →
    exec (.almanacApertureWrite set n byte size v) s = .next t.rtWriteDrop) ∧
  (∀ (set : BitVec 11) (n : PinNo) (byte : Fin 32) (size : Fin 9) (v : BitVec 64) (s : State),
    accessOk byte.val size.val = false → exec (.almanacApertureWrite set n byte size v) s = .next s.accessErr)

/-! ### Meridians (chapter 02) -/

/-- The events of a tracked meridian. Lock: an acquiring one counts on at its input's rate from the reading it held (R41, R45, R499), a
running one takes the new rate, and the edges still to come move with it (R105). Return of edges: a held one acquires (R45), a running one
goes on at the rate that pulls it back (R42). A rate outside the declared limits is shown, and ends its legs (R44). An input whose
comparator is off shows it nothing (R75, R84). A slewed phase offset has been removed (R49). -/
def Obligations.MeridianEventsMoveItsState : Prop :=
  (∀ (m : MerNo) (fin : BitVec 48) (s : State), (s.mer m.val).st = .acquiring → (s.mer m.val).cfg.kind = .tracked →
    s.inputSeen (s.mer m.val).cfg = true → fin.toNat ≠ 0 →
    ∃ t, exec (.meridianLock m fin) s = .next t ∧
      t.mer m.val = { s.mer m.val with
        st := .running
        anchorT := s.now
        rate := fin.toNat * (s.mer m.val).cfg.m
        rateDiv := (s.mer m.val).cfg.n } ∧
      t.odo m.val = s.odo m.val ∧ (∀ n, n ≠ m.val → t.mer n = s.mer n) ∧
      Changes [.mers, .pins, .reg .ALM_CROWD, .reg .PLT_LEG_STATUS] s t) ∧
  (∀ (m : MerNo) (fin : BitVec 48) (s : State), (s.mer m.val).st = .running → (s.mer m.val).cfg.kind = .tracked →
    s.inputSeen (s.mer m.val).cfg = true → fin.toNat ≠ 0 →
    exec (.meridianLock m fin) s = .next (s.moveMer m.val (((s.mer m.val).reanchor s.now).atInput fin.toNat)) ∧
    exec (.edgesReturn ⟨m, fin⟩) s = .next (s.moveMer m.val (((s.mer m.val).reanchor s.now).atInput fin.toNat)) ∧
    (s.moveMer m.val (((s.mer m.val).reanchor s.now).atInput fin.toNat)).mer m.val = ((s.mer m.val).reanchor s.now).atInput fin.toNat ∧
    (∀ n, n ≠ m.val → (s.moveMer m.val (((s.mer m.val).reanchor s.now).atInput fin.toNat)).mer n = s.mer n) ∧
    Changes [.mers, .pins, .reg .ALM_CROWD, .reg .PLT_LEG_STATUS] s
      (s.moveMer m.val (((s.mer m.val).reanchor s.now).atInput fin.toNat))) ∧
  (∀ (m : MerNo) (fin : BitVec 48) (s : State), (s.mer m.val).st = .held → s.inputSeen (s.mer m.val).cfg = true →
    exec (.edgesReturn ⟨m, fin⟩) s = .next (s.setMer m.val { s.mer m.val with st := .acquiring })) ∧
  (∀ (m : MerNo) (fin : BitVec 48) (s : State), s.inputSeen (s.mer m.val).cfg = false →
    exec (.meridianLock m fin) s = .next s ∧ exec (.edgesReturn ⟨m, fin⟩) s = .next s ∧ exec (.freqRangeExit m fin) s = .next s) ∧
  (∀ (m : MerNo) (fin : BitVec 48) (s : State), (s.mer m.val).st = .running → (s.mer m.val).cfg.kind = .tracked →
    s.inputSeen (s.mer m.val).cfg = true → ((s.mer m.val).atInput fin.toNat).outside = true →
    exec (.freqRangeExit m fin) s = .next (((s.moveMer m.val (((s.mer m.val).reanchor s.now).atInput fin.toNat)).fput
      fMER_STATUS_range m.val 1).killOnMer m.val 6)) ∧
  (∀ (m : MerNo) (s : State), (s.mer m.val).st = .running → (s.mer m.val).phasePs ≠ 0 →
    ∃ t, exec (.phaseOffsetRemoved m) s = .next t ∧ t.now = max s.now ((s.mer m.val).anchorT + (s.mer m.val).phaseEnd) ∧
      (t.mer m.val).phasePs = 0 ∧ (t.mer m.val).freqPpb = (s.mer m.val).freqPpb ∧ (t.mer m.val).st = .running ∧ Changes [.time, .mers] s t)

/-- A tracked meridian that loses its bearing holds its reading, tells and counts the loss, discards the samples open on its channels
(R251), shows outcome 3 on the starts that wait in a window on it, and ends its legs and those starts (R42, R43). The model's choices on
which this rests: log entry 94. -/
def Obligations.BearingLossHoldsTheMeridian : Prop :=
  ∀ (m : MerNo) (s : State), (s.mer m.val).st = .running → (s.mer m.val).cfg.kind = .tracked →
    let held := s.setMer m.val { (s.mer m.val).reanchor s.now with st := .held, rate := 0 }
    let spans := ((List.range 52).filter (fun c => held.sxtMer c == m.val)).foldl
      (fun v c => v.sxtLost c (shiftTime v.now (-v.sxtSkew c)) false) held
    let told := ((spans.fput fMER_STATUS_lost m.val 1).bump fMER_LOST_COUNT_count m.val).countFix 21
    let waits := (List.range 16).filter (fun p =>
      (told.pjob p).meridian == m.val && (told.pilot p).leg.slip.isSome && (told.pilot p).st == .awaiting)
    exec (.bearingLost m) s =
      .next (((waits.foldl (fun v p => v.fput fMER_SLIP_STAT_outcome p 3) told).killOnMer m.val 5).killStartsOnMer m.val 5)

/-- A write to a meridian's control registers: discarded while the meridian is in use or a leg runs on it, and drop is shown; else stored,
with cfg_err shown when the registers then hold no configuration, and in force when they do; a 0-to-1 write of enable starts the odometer
of a good configuration and is taken back on another, a 1-to-0 write stops it (R14, R38, R50). MER_SNAP latches the odometers of the mask
at one instant, and with MER7 the wall time (R36, R46). -/
def Obligations.MeridianWritesAct : Prop :=
  (∀ (m : MerNo) (reg : MerReg) (v : BitVec 64) (s t : State), t = s.inOrder (merRegId reg).info.base →
    (t.merInUse m.val || t.merInLeg m.val) = true → exec (.merCtlWrite m reg v) s = .next t.rtWriteDrop) ∧
  (∀ (m : MerNo) (reg : MerReg) (v : BitVec 64) (s t : State), t = s.inOrder (merRegId reg).info.base →
    (t.merInUse m.val || t.merInLeg m.val) = false →
    let u := t.wr (merRegId reg) m.val 0 (BitVec.ofNat 64 (t.merStored m.val reg (v.toNat % 2 ^ (merRegId reg).info.width)))
    (decide (u.fget fMER_CTL_kind m.val < 3) && (u.storedCfg m.val).valid m.val) = false →
    let w := u.fput fMER_STATUS_cfg_err m.val 1
    ((t.mer m.val).st = .off → w.fbit fMER_CTL_enable m.val = true →
      exec (.merCtlWrite m reg v) s = .next (w.fput fMER_CTL_enable m.val 0)) ∧
    ((t.mer m.val).st = .off → w.fbit fMER_CTL_enable m.val = false → exec (.merCtlWrite m reg v) s = .next w) ∧
    ((t.mer m.val).st ≠ .off → w.fbit fMER_CTL_enable m.val = true → exec (.merCtlWrite m reg v) s = .next w) ∧
    ((t.mer m.val).st ≠ .off → w.fbit fMER_CTL_enable m.val = false → exec (.merCtlWrite m reg v) s = .next (w.merStop m.val))) ∧
  (∀ (m : MerNo) (reg : MerReg) (v : BitVec 64) (s t : State), t = s.inOrder (merRegId reg).info.base →
    (t.merInUse m.val || t.merInLeg m.val) = false →
    let u := t.wr (merRegId reg) m.val 0 (BitVec.ofNat 64 (t.merStored m.val reg (v.toNat % 2 ^ (merRegId reg).info.width)))
    u.fget fMER_CTL_kind m.val < 3 → (u.storedCfg m.val).valid m.val = true →
    let w := (u.fput fMER_STATUS_cfg_err m.val 0).takeCfg m.val ((u.fput fMER_STATUS_cfg_err m.val 0).storedCfg m.val)
    ((t.mer m.val).st = .off → w.fbit fMER_CTL_enable m.val = true → exec (.merCtlWrite m reg v) s = .next (w.merStart m.val)) ∧
    ((t.mer m.val).st = .off → w.fbit fMER_CTL_enable m.val = false → exec (.merCtlWrite m reg v) s = .next w) ∧
    ((t.mer m.val).st ≠ .off → w.fbit fMER_CTL_enable m.val = true → exec (.merCtlWrite m reg v) s = .next w) ∧
    ((t.mer m.val).st ≠ .off → w.fbit fMER_CTL_enable m.val = false → exec (.merCtlWrite m reg v) s = .next (w.merStop m.val))) ∧
  (∀ (mask : BitVec 8) (s t : State), t = s.deliverAll →
    ∃ u, exec (.merSnap mask) s = .next u ∧
      (∀ m < 8, mask.toNat.testBit m = true → u.fget fMER_ODO_CYC_cycles m = t.odo m / 2 ^ 24 % 2 ^ 64 ∧
        u.fget fMER_ODO_FRAC_fraction m = t.odo m % 2 ^ 24) ∧
      (∀ m < 8, mask.toNat.testBit m = false → u.rd .MER_ODO_CYC m = t.rd .MER_ODO_CYC m ∧ u.rd .MER_ODO_FRAC m = t.rd .MER_ODO_FRAC m) ∧
      (mask.toNat.testBit 7 = true → u.fget fMER_WALL_SEC_seconds = t.wallTime / 2 ^ 24 / 1000000000 % 2 ^ 64 ∧
        u.fget fMER_WALL_SUB_ns = t.wallTime / 2 ^ 24 % 1000000000 ∧ u.fget fMER_WALL_SUB_frac = t.odo 7 % 2 ^ 24 / 256) ∧
      (mask.toNat.testBit 7 = false → u.rd .MER_WALL_SEC = t.rd .MER_WALL_SEC ∧ u.rd .MER_WALL_SUB = t.rd .MER_WALL_SUB) ∧
      Changes [.reg .MER_ODO_CYC, .reg .MER_ODO_FRAC, .reg .MER_WALL_SEC, .reg .MER_WALL_SUB] t u)

/-- MERIDIAN_CONFIG, MERIDIAN_ENABLE, MERIDIAN_SET and MERIDIAN_ADJUST that the rules accept (R38 to R40, R46, R49, R50). A meridian in
use is neither configured nor stepped: MERIDIAN_CONFIG and MERIDIAN_SET complete with MERIDIAN_BUSY and have no effect (R50). A tracked
meridian that is not off takes no MERIDIAN_ADJUST (R51). MER0 is not disabled (R50). The model's choices on which this rests: log entry
79. -/
def Obligations.MeridianCommandsAct : Prop :=
  (∀ (s u : State) (k : Packet), s.accepts 0x8001 k → u = s.begun k → u8 k 0 < 8 → u8 k 1 < 3 → u8 k 4 < 2 →
    kindAllowed (u8 k 0) (cfgKind k) = true → u.merInUse (u8 k 0) = false → (packetCfg k).valid (u8 k 0) = true →
    (u8 k 0 = 0 → u64 k 8 = 0x1000000000) →
    exec (.meridianConfig k) s = .next (s.completes 0x8001 k (fun v =>
      ((v.storeCfg k).fput fMER_STATUS_cfg_err (u8 k 0) 0).takeCfg (u8 k 0) ((v.storeCfg k).storedCfg (u8 k 0))))) ∧
  (∀ (s u : State) (k : Packet), s.accepts 0x8002 k → u = s.begun k → u8 k 0 < 8 → u8 k 1 = 1 → (u.mer (u8 k 0)).st = .off →
    u.fbit fMER_STATUS_cfg_err (u8 k 0) = false → (u.storedCfg (u8 k 0)).valid (u8 k 0) = true → u64 k 8 ≠ 0 →
    exec (.meridianEnable k) s = .next (s.completes 0x8002 k (fun v =>
      let w := (v.forgetWraps (u8 k 0)).fput fMER_START_cycles (u8 k 0) (u64 k 8)
      (w.takeCfg (u8 k 0) (w.storedCfg (u8 k 0))).merStart (u8 k 0)))) ∧
  (∀ (s u : State) (k : Packet), s.accepts 0x8002 k → u = s.begun k → 0 < u8 k 0 → u8 k 0 < 8 → u8 k 1 = 0 → (u.mer (u8 k 0)).st ≠ .off →
    u.acceptedJobs.any (fun e => e.2.meridian == u8 k 0) = false → (u8 k 0 = 7 → u.mustered = false) →
    exec (.meridianEnable k) s = .next (s.completes 0x8002 k (fun v => v.merStop (u8 k 0)))) ∧
  (∀ (s u : State) (k : Packet), s.accepts 0x8003 k → u = s.begun k → u8 k 0 < 8 → (u8 k 0 = 7 → u32 k 16 < 1000000000) →
    u.merInUse (u8 k 0) = false →
    ((u.mer (u8 k 0)).st = .off →
      exec (.meridianSet k) s = .next (s.completes 0x8003 k (fun v =>
        (v.setMer (u8 k 0) { v.mer (u8 k 0) with wraps := setCycles k / 2 ^ 64 }).fput fMER_START_cycles (u8 k 0) (setCycles k)))) ∧
    ((u.mer (u8 k 0)).st ≠ .off →
      exec (.meridianSet k) s = .next (s.completes 0x8003 k (fun v => v.merStep (u8 k 0) (setCycles k * 2 ^ 24 + setFrac k))))) ∧
  (∀ (s u : State) (k : Packet), s.accepts 0x8004 k → u = s.begun k → u8 k 0 < 8 → (u.mer (u8 k 0)).st ≠ .off →
    (u.mer (u8 k 0)).cfg.kind ≠ .tracked →
    (-200000 ≤ s32 k 4 → s32 k 4 ≤ 200000 →
      exec (.meridianAdjust k) s = .next (s.completes 0x8004 k (fun v => v.merSlew (u8 k 0) (s32 k 4) (s64 k 8)))) ∧
    ((s32 k 4 < -200000 ∨ 200000 < s32 k 4) → exec (.meridianAdjust k) s =
      .next (s.ends 0x8004 k (fun v => v.merSlew (u8 k 0) (s32 k 4) (s64 k 8)) .slewClamped 0 0 1))) ∧
  (∀ (s u : State) (k : Packet), s.accepts 0x8001 k → u = s.begun k → u8 k 0 < 8 → u8 k 1 < 3 → u8 k 4 < 2 →
    kindAllowed (u8 k 0) (cfgKind k) = true → u.merInUse (u8 k 0) = true →
    exec (.meridianConfig k) s = .next (s.ends 0x8001 k id .meridianBusy 0 0 0)) ∧
  (∀ (s u : State) (k : Packet), s.accepts 0x8003 k → u = s.begun k → u8 k 0 < 8 → (u8 k 0 = 7 → u32 k 16 < 1000000000) →
    u.merInUse (u8 k 0) = true → exec (.meridianSet k) s = .next (s.ends 0x8003 k id .meridianBusy 0 0 0)) ∧
  (∀ (s u : State) (k : Packet), s.accepts 0x8004 k → u = s.begun k → u8 k 0 < 8 → (u.mer (u8 k 0)).st ≠ .off →
    (u.mer (u8 k 0)).cfg.kind = .tracked → exec (.meridianAdjust k) s = .next (s.ends 0x8004 k id .meridianKind 0 0 0)) ∧
  (∀ (s : State) (k : Packet), s.accepts 0x8002 k → u8 k 0 = 0 → u8 k 1 = 0 →
    exec (.meridianEnable k) s = .next (s.ends 0x8002 k id .paramInvalid 0 0 0))

/-! ### Milestones (chapter 02) -/

/-- A milestone that is the first of its meridian and reading and whose meridian reaches the target fires there, and is gone from the
scheduler: time moves to that instant, or a late one fires now (R53, R54, R55). One whose meridian stands short of the target does
not fire (R57). -/
def Obligations.MilestoneFiresAtItsTarget : Prop :=
  ∀ (s : State) (x : Milestone), s.ms.pending.find? (fun y => y.id == x.id && y.action == x.action) = some x →
    ((s.ms.pending.takeWhile (fun y => y.id != x.id)).any (fun y => y.mer == x.mer && y.at88 == x.at88) = false →
      (∀ t, (s.mer x.mer).instantOf x.at88 = some t → ∃ u f, s.msFire x.id x.action = some (u, f) ∧ f.ms = x ∧
        u.now = max s.now t ∧ (x.foundLate = false → f.time = t ∧ f.at88 = x.at88) ∧ (x.foundLate = true → f.time = u.now) ∧
        (∀ y ∈ u.ms.pending, y.id ≠ x.id) ∧ x.id ∈ u.ms.fired ∧ Changes [.time, .ms] s u) ∧
      ((s.mer x.mer).instantOf x.at88 = none → s.msFire x.id x.action = none)) ∧
    ((s.ms.pending.takeWhile (fun y => y.id != x.id)).any (fun y => y.mer == x.mer && y.at88 == x.at88) = true →
      s.msFire x.id x.action = none)

/-- MILESTONE_POST commits a milestone with the next id, which its completion returns (R52, R54). MSYNC_OUT, a GPIO and a queue follow the
milestones that target them (R53, R500). The model's choices on which this rests: log entries 90 and 91. -/
def Obligations.MilestonesArePostedAndAct : Prop :=
  (∀ (s u : State) (k : Packet), s.accepts 0x8005 k → u = s.begun k → u8 k 0 < 7 → u8 k 1 = 12 → u8 k 2 < 2 → u16 k 4 < 8 → u16 k 6 < 16384 →
    u32 k 16 < 2 ^ 24 → u32 k 20 < 2 → u.ms.pending.length < 4096 → (u.mer (u8 k 0)).st ≠ .off →
    u.odo (u8 k 0) + u.msLead (u8 k 0) 12 ≤ u64 k 8 * 2 ^ 24 + u32 k 16 →
    exec (.milestonePost k) s = .next (s.completes 0x8005 k (fun v => v.msAdd ⟨0, u8 k 0, 12, u16 k 4, u8 k 2 == 1, false, u16 k 6,
      u64 k 8 * 2 ^ 24 + u32 k 16, u32 k 20, u64 k 24, jobOf k⟩) u.ms.nextId)) ∧
  (∀ (id : Nat) (f : Fired) (s u : State),
    (s.msFire id 11 = some (u, f) → exec (.msMsyncOut id) s = .next (State.msDone { u with bnc := { u.bnc with
      msyncOut := u.bnc.msyncOut ++ [(f.ms.arg == 0, f.time)] } } f .ok)) ∧
    (s.msFire id 12 = some (u, f) → exec (.msGpio id) s = .next (State.msDone { u with bnc := { u.bnc with
      gpio := setBit u.bnc.gpio f.ms.target (f.ms.arg == 1) } } f .ok)) ∧
    (s.msFire id 13 = some (u, f) → exec (.msDepotPost id) s = .next ((u.reportCtl f.ms.target 32
      (msElement f.ms .ok f.at88 f.ms.foundLate)).msDone f .ok)))

/-- MILESTONE_CANCEL is ordered against the firing by the scheduler's list: it takes a milestone away that has not fired and completes
with OK, completes with ALREADY_FIRED for one that has, and with MILESTONE_UNKNOWN for an id that was never issued or whose milestone has
been cancelled (R52, R56). -/
def Obligations.CancelsRaceTheFiring : Prop :=
  (∀ (s u : State) (k : Packet) (x : Milestone), s.accepts 0x8006 k → u = s.begun k → u.ms.pending.find? (fun y => y.id == u32 k 0) = some x →
    exec (.milestoneCancel k) s = .next (s.completes 0x8006 k (fun v =>
      ((v.msRemove (u32 k 0)).ddsUnarm x).endWaits (.milestone (u32 k 0)) .aborted))) ∧
  (∀ (s u : State) (k : Packet), s.accepts 0x8006 k → u = s.begun k → u.ms.pending.find? (fun y => y.id == u32 k 0) = none →
    (u32 k 0 ∈ u.ms.fired → exec (.milestoneCancel k) s = .next (s.ends 0x8006 k id .alreadyFired 0 0 0)) ∧
    (u32 k 0 ∉ u.ms.fired → exec (.milestoneCancel k) s = .next (s.ends 0x8006 k id .milestoneUnknown 0 0 0)))

/-! ### The host port (chapters 01, 18) -/

/-- A supported write of the host into the data plane waits for the milestone scheduler (R12), one elsewhere acts at once; a register
without an effect of its own stores field by field (R7, R9); a poisoned write is discarded, and nothing passes while PERST# holds the
link. The scheduler delivers the oldest write that waits, which has its effect or, while a running leg uses the register, is discarded
(R12, R14). -/
def Obligations.RegisterWritesAct : Prop :=
  (∀ (addr : BitVec 26) (bs : List Byte) (s : State), s.host.perst = false → addr.toNat < 0x2000000 → accessOk addr.toNat bs.length = true →
    inDataPlane addr.toNat = true → exec (.registerWrite addr bs false) s =
      .next { s with host := { s.host with deliver := s.host.deliver ++ [⟨addr.toNat, bs.length, ofBytes bs⟩] } }) ∧
  (∀ (addr : BitVec 26) (bs : List Byte) (p : Piece) (s : State), s.host.perst = false → addr.toNat < 0x2000000 →
    accessOk addr.toNat bs.length = true → inDataPlane addr.toNat = false → s.bnc.tripped = false → inMsixTable addr.toNat = false →
    pieces addr.toNat bs.length (ofBytes bs) = [p] → s.legUses p.key = false →
    exec (.registerWrite addr bs false) s = .next (s.regEffect p) ∧
    (p.key.id ∈ [.DEV_IRQ, .HLM_FIX_ADDR, .HLM_FIX_CTL, .MEM_EVQ, .ETH_TXQ, .THM_EVQ] →
      exec (.registerWrite addr bs false) s = .next (s.storeWrite p))) ∧
  (∀ (addr : BitVec 26) (bs : List Byte) (s : State), s.host.perst = false → addr.toNat < 0x2000000 → accessOk addr.toNat bs.length = false →
    exec (.registerWrite addr bs false) s = .next s.accessErr) ∧
  (∀ (addr : BitVec 26) (bs : List Byte) (s : State), s.host.perst = false →
    exec (.registerWrite addr bs true) s = .next (s.bump fPCI_ERR_poisoned_in)) ∧
  (∀ (addr : BitVec 26) (bs : List Byte) (bad : Bool) (s : State), s.host.perst = true → exec (.registerWrite addr bs bad) s = .next s) ∧
  (∀ (s u : State) (w : RegWrite) (rest : List RegWrite) (p : Piece), s.host.deliver = w :: rest →
    u = { s with host := { s.host with deliver := rest } } → s.bnc.tripped = false → inAlmanac w.addr = false → inDdsList w.addr = false →
    inMsixTable w.addr = false → pieces w.addr w.size w.value = [p] →
    (u.legUses p.key = false → exec .immediateMilestone s = .next (u.regEffect p)) ∧
    (u.legUses p.key = true → exec .immediateMilestone s = .next u.rtWriteDrop))

/-- A read of one register waits for the delivery of every write before it, answers the register's fields as they stand and clears
those that a read clears (R7, R8, R439); other sizes are refused (R438), and the doorbell range reads 0.
The model's choices on which this rests: log entry 64. -/
def Obligations.RegisterReadsAnswer : Prop :=
  (∀ (addr : BitVec 26) (size : BitVec 7) (p : Piece) (s t : State), s.host.perst = false → t = s.deliverAll → addr.toNat < 0x2000000 →
    accessOk addr.toNat size.toNat = true → inBlock addr.toNat = true → inAlmanac addr.toNat = false → inDdsList addr.toNat = false →
    inMsixTable addr.toNat = false → inMsixPba addr.toNat = false → pieces addr.toNat size.toNat 0 = [p] → p.src = 0 →
    p.key.id ≠ .PLT_CS_DATA → exec (.registerRead addr size) s = .next ((t.clearRead p).readAnswer size.toNat
      (bits (t.live p.key.id (p.key.id.unit p.key.i) p.key.j) (p.lo + p.n - 1) p.lo))) ∧
  (∀ (addr : BitVec 26) (size : BitVec 7) (s : State), s.host.perst = false → addr.toNat < 0x2000000 →
    accessOk addr.toNat size.toNat = false → exec (.registerRead addr size) s = .next (s.deliverAll.accessErr.readAnswer 0 0)) ∧
  (∀ (addr : BitVec 26) (size : BitVec 7) (s : State), s.host.perst = false → 0x2000000 ≤ addr.toNat →
    exec (.registerRead addr size) s = .next (s.deliverAll.readAnswer size.toNat 0))

/-- A doorbell write on a free link: bytes of a ring's page are staged, and the last byte of the packet commits it to the ring's queue or,
of a prompt command, executes it; the consumed count and the mirror's released count are stored; a held doorbell write acts once every
earlier BAR2 write is acknowledged (R27, R358, R362 to R364, R374, R397). A host write to a queue's page is staged, and commits the element with its last byte as the host's (R398); system queues 256 to 511
take none. -/
def Obligations.DoorbellsAct : Prop :=
  (∀ (r : RingNo) (off : BitVec 12) (bs : List Byte) (s : State), s.bellsFree → 4 ≤ bs.length → off.toNat + bs.length < 64 →
    exec (.doorbellPageWrite r off bs) s =
      .next (s.setRing r.val { s.ring r.val with stage := putBytes (s.ring r.val).stage off.toNat 64 bs })) ∧
  (∀ (r : RingNo) (off : BitVec 12) (bs : List Byte) (s u v : State) (e : Nat), s.bellsFree → 4 ≤ bs.length → off.toNat + bs.length = 64 →
    u = s.setRing r.val { s.ring r.val with stage := 0 } →
    let raw := putBytes (s.ring r.val).stage off.toNat 64 bs
    (isPrompt (decodePacket r raw).1 = false → u.admitPkt r.val (decodePacket r raw).1 (decodePacket r raw).2 = (v, some e) →
      exec (.doorbellPageWrite r off bs) s = .next (v.enqueue r.val raw e)) ∧
    (isPrompt (decodePacket r raw).1 = true → exec (.doorbellPageWrite r off bs) s =
      .next (u.runPrompt (decodePacket r raw).1 (bodyOf (decodePacket r raw).1) (decodePacket r raw).2))) ∧
  (∀ (r : RingNo) (v : BitVec 32) (s : State), s.bellsFree →
    exec (.cplConsumedWrite r v) s = .next (s.fput fHLM_RING_CPL_consumed r.val v.toNat)) ∧
  (∀ (q : QueueNo) (v : BitVec 32) (s : State), s.bellsFree → q.val ≠ 0 →
    exec (.mirrorConsumedWrite q v) s = .next (s.fput fDPT_Q_MIR_PTR_released q.val v.toNat)) ∧
  (∀ (b : HeldBell) (rest : List HeldBell) (r : RingNo) (s : State), s.host.bells = b :: rest →
    b.addr = 0x2000000 + r.val * 0x1000 + 0x40 → b.bytes.length = 4 →
    (s.portQuiet portPB = true → exec .doorbellRelease s = .next
      (({ s with host := { s.host with bells := rest } } : State).fput fHLM_RING_CPL_consumed r.val (ofBytes b.bytes))) ∧
    (s.portQuiet portPB = false → exec .doorbellRelease s = .next s)) ∧
  (∀ (q : QueueNo) (off : BitVec 10) (bs : List Byte) (s : State), s.bellsFree → 4 ≤ bs.length → off.toNat % 64 + bs.length ≤ 64 →
    off.toNat < 256 → q.val ≠ 0 →
    (256 ≤ q.val → q.val < 512 → exec (.queueDoorbellWrite q off bs) s = .next (s.bump fDPT_Q_CNT_refused q.val)) ∧
    ((q.val < 256 ∨ 512 ≤ q.val) → (s.depot.staged = false ∨ s.depot.stageQ = q.val) → off.toNat < s.qElem q.val →
      let v := putBytes s.depot.stage off.toNat (s.qElem q.val) bs
      (off.toNat + bs.length < s.qElem q.val → exec (.queueDoorbellWrite q off bs) s =
        .next { s with depot := { s.depot with stage := v, staged := true, stageQ := q.val } }) ∧
      (s.qElem q.val ≤ off.toNat + bs.length → exec (.queueDoorbellWrite q off bs) s =
        .next (State.commit { s with depot := { s.depot with stage := 0, staged := false, stageQ := q.val } } q.val .host
          (s.qElem q.val) v).1)))

/-- The BAR2 window. A read: all ones and a count while the window is disabled, Completer Abort and a fault record on a fault, and the
bytes of memory otherwise, marked poisoned if a beat is; in a refresh stop or self-refresh it waits at its channels. A write: discarded
and counted while the window is disabled; discarded with a fault record when a page faults; written otherwise; a poisoned one is discarded
and counted (R321, R356, R357, R438). A page that the shared TLB holds with its permission needs no walk, and the access completes at
once. The model's choices on which this rests: log entries 84 and 85. -/
def Obligations.Bar2WindowReadsAndWrites : Prop :=
  (∀ (off : BitVec 36) (len : BitVec 13) (s : State), s.host.perst = false → s.fbit fCHT_BAR2_CTL_en = false →
    exec (.bar2Read off len) s = .next ((s.bump fCHT_BAR2_CNT_disabled).answer (.data (List.replicate len.toNat 0xFF)))) ∧
  (∀ (off : BitVec 36) (len : BitVec 13) (s u t : State) (a left : Nat) (bs : List Byte) (bad : Bool), s.host.perst = false →
    s.fbit fCHT_BAR2_CTL_en = true →
    s.translate 32 (s.fget fCHT_BAR2_CTL_space) (s.fget fCHT_BAR2_BASE_dva + off.toNat) false = (u, .hpa a left) →
    u.holdHostRead a len.toNat = none → u.hbmRead portPB .bulk a len.toNat = (t, bs, bad) →
    exec (.bar2Read off len) s = .next (t.answer (if bad then .poisoned else .data bs))) ∧
  (∀ (off : BitVec 36) (len : BitVec 13) (s u : State) (a left : Nat), s.host.perst = false → s.fbit fCHT_BAR2_CTL_en = true →
    s.translate 32 (s.fget fCHT_BAR2_CTL_space) (s.fget fCHT_BAR2_BASE_dva + off.toNat) false = (u, .hpa a left) →
    (3 ≤ u.fget fMEM_STATUS_state ∨ u.inStop = true) →
    let ps := beatPieces a len.toNat (len.toNat / 32 + 2)
    let w := u.wakeMem portPB
    exec (.bar2Read off len) s = .next (ps.foldl (fun (v : State) e => v.holdPiece e.1 e.2)
      { w with host := { w.host with reply := none, held := w.host.held ++ [⟨ps.map (fun e => (e.1, e.2, none))⟩] } })) ∧
  (∀ (off : BitVec 36) (len : BitVec 13) (s : State) (e : TlbEntry), s.host.perst = false → s.fbit fCHT_BAR2_CTL_en = true →
    let dva := s.fget fCHT_BAR2_BASE_dva + off.toNat
    s.tlbFind (tlbOf 32) (s.fget fCHT_BAR2_CTL_space) dva = some e → bitAt e.entry 2 = true → s.fget fMEM_STATUS_state < 3 →
    s.inStop = false →
    let r := s.hbmRead portPB .bulk (bits e.entry 43 8 * 256 + dva % 2 ^ e.pageBits) len.toNat
    exec (.bar2Read off len) s = .next (r.1.answer (if r.2.2 then .poisoned else .data r.2.1))) ∧
  (∀ (off : BitVec 36) (len : BitVec 13) (s u : State) (k l e : Nat), s.host.perst = false → s.fbit fCHT_BAR2_CTL_en = true →
    s.translate 32 (s.fget fCHT_BAR2_CTL_space) (s.fget fCHT_BAR2_BASE_dva + off.toNat) false = (u, .fault k l e) →
    exec (.bar2Read off len) s = .next ((u.bar2Fault (mkFault 32 (s.fget fCHT_BAR2_CTL_space) (s.fget fCHT_BAR2_BASE_dva + off.toNat)
      k l e false false false)).answer .abort)) ∧
  (∀ (off : BitVec 36) (bs : List Byte) (s : State), s.host.perst = false → s.fbit fCHT_BAR2_CTL_en = false →
    exec (.bar2Write off bs false) s = .next (s.bump fCHT_BAR2_CNT_disabled)) ∧
  (∀ (off : BitVec 36) (bs : List Byte) (s : State), s.host.perst = false →
    exec (.bar2Write off bs true) s = .next (s.bump fPCI_ERR_poisoned_in)) ∧
  (∀ (off : BitVec 36) (bs : List Byte) (s : State), s.host.perst = false → s.fbit fCHT_BAR2_CTL_en = true →
    let r := s.dvaSpan 32 (s.fget fCHT_BAR2_CTL_space) (s.fget fCHT_BAR2_BASE_dva + off.toNat) bs.length (bs.length / 65536 + 2)
    (r.2.1 = none → exec (.bar2Write off bs false) s = .next (r.1.writePieces portPB .bulk bs r.2.2)) ∧
    (∀ f, r.2.1 = some f →
      exec (.bar2Write off bs false) s = .next ((r.1.raiseFault f).1.bump fCHT_BAR2_CNT_faults))) ∧
  (∀ (off : BitVec 36) (bs : List Byte) (s : State) (e : TlbEntry), s.host.perst = false → s.fbit fCHT_BAR2_CTL_en = true →
    let dva := s.fget fCHT_BAR2_BASE_dva + off.toNat
    s.tlbFind (tlbOf 32) (s.fget fCHT_BAR2_CTL_space) dva = some e → bitAt e.entry 3 = true → bs ≠ [] →
    bs.length ≤ 2 ^ e.pageBits - dva % 2 ^ e.pageBits →
    exec (.bar2Write off bs false) s = .next (s.hbmWrite portPB .bulk (bits e.entry 43 8 * 256 + dva % 2 ^ e.pageBits) bs))

/-! ### Helm (chapter 15) -/

/-- NOP; RING_CREATE and RING_DELETE within their ranges, which make a ring and take an idle one away (R361); SCRIPT_LOAD, which stores
the digest of an image that has it or completes with PARAM_INVALID, and SCRIPT_CTL, which stops, starts or resets a hart (R376);
REG_BATCH, which completes when its entries are done, and on one entry writes or reads one register in the given width, writes a read
value back into the entry, or stops on an offset out of range or unaligned (R377).
The model's choices on which this rests: log entries 12, 13 and 46. -/
def Obligations.HelmCommandsAct : Prop :=
  (∀ (s : State) (k : Packet), s.accepts 0x0001 k → exec (.nopCommand k) s = .next (s.completes 0x0001 k id)) ∧
  (∀ (s u : State) (k : Packet), s.accepts 0x0002 k → u = s.begun k → u16 k 0 ≤ 255 → 4 ≤ u8 k 2 → u8 k 2 ≤ 12 → u8 k 2 ≤ u8 k 3 →
    u8 k 3 ≤ 12 → u16 k 4 ≤ 2047 → u16 k 6 ≤ 7 → u64 k 8 % 4096 = 0 → u.fbit fHLM_RING_CFG_exists (u16 k 0) = false →
    exec (.ringCreate k) s = .next (s.completes 0x0002 k (fun v =>
      ((((v.dropRing (u16 k 0)).wr .HLM_RING_CFG (u16 k 0) 0 (BitVec.ofNat 64 (pack [(0, 1, 1), (1, 3, u16 k 6), (4, 4, u8 k 2),
        (8, 4, u8 k 3), (12, 11, u16 k 4), (23, 8, min 255 (u16 k 16)), (32, 16, u16 k 18)]))).wr .HLM_RING_MIR (u16 k 0) 0
        (BitVec.ofNat 64 (u64 k 8))).setRing (u16 k 0) { modCount := u16 k 16, modTime := u16 k 18 })))) ∧
  (∀ (s u : State) (k : Packet), s.accepts 0x0003 k → u = s.begun k → 0 < u16 k 0 → u16 k 0 ≤ 255 →
    u.fbit fHLM_RING_CFG_exists (u16 k 0) = true →
    (u.ringIdle (u16 k 0) = true → exec (.ringDelete k) s = .next (s.completes 0x0003 k (fun v => v.dropRing (u16 k 0)))) ∧
    (u.ringIdle (u16 k 0) = false → exec (.ringDelete k) s = .next (s.awaits 0x0003 k
      (fun v => v.setRing (u16 k 0) { v.ring (u16 k 0) with deleting := true }) (.ringEmpty (u16 k 0))))) ∧
  (∀ (s u v : State) (k : Packet) (bs : List Byte), s.accepts 0x0006 k → u = s.begun k → (u8 k 9 = 2 ∨ u8 k 9 = 3) →
    u.payload (u8 k 8) (u64 k 0) 1 = (v, .bytes bs) →
    (bitAt v.fresh.2.toNat 0 = true → exec (.scriptLoad k) s = .next (s.completes 0x0006 k (fun _ => { v.fresh.1 with
      helm := { v.fresh.1.helm with scripts := nset [] (u8 k 9) (bytesOf 32 (param k 16 32)) v.helm.scripts } }))) ∧
    (bitAt v.fresh.2.toNat 0 = false →
      exec (.scriptLoad k) s = .next (s.ends 0x0006 k (fun _ => v.fresh.1) .paramInvalid 0 0 0))) ∧
  (∀ (s u : State) (k : Packet), s.accepts 0x0007 k → u = s.begun k → (u8 k 0 = 2 ∨ u8 k 0 = 3) →
    (u8 k 1 = 0 → exec (.scriptCtl k) s = .next (s.completes 0x0007 k (fun v => v.setHartRun (u8 k 0) false))) ∧
    (u8 k 1 = 1 → nget [] (u8 k 0) u.helm.scripts ≠ [] →
      exec (.scriptCtl k) s = .next (s.completes 0x0007 k (fun v => v.setHartRun (u8 k 0) true))) ∧
    (u8 k 1 = 1 → nget [] (u8 k 0) u.helm.scripts = [] → exec (.scriptCtl k) s = .next (s.completes 0x0007 k id)) ∧
    (u8 k 1 = 2 → exec (.scriptCtl k) s = .next (s.completes 0x0007 k (fun v => (v.setHartRun (u8 k 0) false).setHart (u8 k 0) {})))) ∧
  (∀ (s u v : State) (k : Packet) (r : Nat), s.accepts 0xE001 k → u = s.begun k → 0 < u32 k 12 → u32 k 12 ≤ 4096 →
    u.runBatch (u8 k 8) (u64 k 0) ⟨0, none⟩ (u32 k 12) = (v, .done .ok 0 r false false (u32 k 12)) →
    exec (.regBatch k) s = .next (s.completes 0xE001 k (fun _ => v) r (u32 k 12))) ∧
  (∀ (s u v : State) (k : Packet) (bs : List Byte), s.accepts 0xE001 k → u = s.begun k → u32 k 12 = 1 →
    u.payload (u8 k 8) (u64 k 0) 16 = (v, .bytes bs) →
    let e := ofBytes bs
    let size := if bitAt e 33 then 8 else 4
    ((0x2000000 ≤ bits e 31 0 ∨ bits e 31 0 % size ≠ 0) →
      exec (.regBatch k) s = .next (s.ends 0xE001 k (fun _ => v) .paramInvalid 0 (0xFFFFFFFF * 2 ^ 32) 0)) ∧
    (bits e 31 0 < 0x2000000 → bits e 31 0 % size = 0 → bitAt e 32 = true →
      let t := v.deliverAll.applyWrite (bits e 31 0) size (bits e 127 64 % 2 ^ (8 * size))
      exec (.regBatch k) s = .next (s.completes 0xE001 k (fun _ => t)
        (1 + (if t.dropCount = v.deliverAll.dropCount then 0xFFFFFFFF else 0) * 2 ^ 32))) ∧
    (bits e 31 0 < 0x2000000 → bits e 31 0 % size = 0 → bitAt e 32 = false →
      let r := v.deliverAll.readValue (bits e 31 0) size
      ∀ t, r.1.storeResult (u8 k 8) (u64 k 0 + 8) (bytesOf 8 r.2) = (t, none) →
        exec (.regBatch k) s = .next (s.completes 0xE001 k (fun _ => t) (1 + 0xFFFFFFFF * 2 ^ 32))))

/-- The oldest completion of a ring with a released slot is written there with the phase of its round and counts as posted; nothing
else in the host's memory changes (R363, R367). The moderation time signals the completions that wait for it (R364). A packet that no hart has begun, or a begun command, that
expires completes with DEADLINE and has no further effect (R371, R372).
The model's choices on which this rests: log entries 13, 47 and 58. -/
def Obligations.CompletionsAndTimeoutsOfARing : Prop :=
  (∀ (r : RingNo) (c : Cpl) (rest : List Cpl) (s : State), (s.ring r.val).cplWait = c :: rest → (s.ring r.val).deleting = false →
    s.mirrorFull r.val = false → bitAt s.bnc.down 32 = false →
    let depth := 2 ^ s.fget fHLM_RING_CFG_cpl_log2 r.val
    let n := s.fget fHLM_RING_CPL_posted r.val
    let at' := s.mirrorAddr r.val + n % depth * 32
    ∃ t, exec (.completionCommit r) s = .next t ∧ (t.ring r.val).cplWait = rest ∧ t.fget fHLM_RING_CPL_posted r.val = (n + 1) % 2 ^ 32 ∧
      t.fget fHLM_RING_LAST_last_status r.val = c.status % 2 ^ 16 ∧
      t.hostRead at' 32 = bytesOf 32 (s.cplWord c ((n / depth + 1) % 2)) ∧
      (∀ a, (a < at' ∨ at' + 32 ≤ a) → nget 0 a t.host.mem = nget 0 a s.host.mem) ∧
      Changes [.reg .HLM_RING_CPL, .reg .HLM_RING_LAST, .hostMem, .msix, .rings] s t) ∧
  (∀ (r : RingNo) (s : State), 0 < (s.ring r.val).unsig → 0 < (s.ring r.val).modTime →
    exec (.moderationTimeout r) s = .next (((s.advance ((s.ring r.val).unsigAt + (s.ring r.val).modTime * 1000 * unitsPerNs)).setRing r.val
      { s.ring r.val with unsig := 0 }).signal (s.ringVector r.val))) ∧
  (∀ (r : RingNo) (tag : BitVec 32) (p : Pkt) (s : State), s.fbit fHLM_RING_CFG_exists r.val = true →
    (s.ring r.val).untaken.find? (fun p => bits p.bytes 63 32 == tag.toNat && s.expired p.expiry) = some p →
    (∀ x ∈ s.helm.running, (x.origin == .ring r.val && x.tag == tag.toNat) = false) → (s.ring r.val).cplWait = [] →
    (s.ring r.val).deleting = false → (s.ring r.val).dupWait = [] →
    exec (.deadlineExpiry false (BitVec.ofNat 16 r.val) tag) s = .next (((s.setRing r.val { s.ring r.val with
      untaken := (s.ring r.val).untaken.filter (fun q => q != p) }).tick fHLM_RING_STAT_taken r.val).conclude
      (runningOf (.ring r.val) (decodePacket r p.bytes).1 (decodePacket r p.bytes).2 p.expiry) .deadline 0 0 false false 0)) ∧
  (∀ (r : RingNo) (tag : BitVec 32) (x : Running) (s : State),
    (s.ring r.val).untaken.find? (fun p => bits p.bytes 63 32 == tag.toNat && s.expired p.expiry) = none →
    s.helm.running.find? (fun x => x.origin == .ring r.val && x.tag == tag.toNat && s.expired x.expiry) = some x →
    (s.ring r.val).cplWait = [] → (s.ring r.val).dupWait = [] → (s.ring r.val).deleting = false →
    exec (.deadlineExpiry false (BitVec.ofNat 16 r.val) tag) s =
      .next (({ s with helm := { s.helm with running := s.helm.running.filter (fun y => y != x) } } : State).conclude x .deadline x.steps 0
        false (decide (0 < x.steps)) x.steps))

/-- TAKE_FIX and an armed fix doorbell latch the record at the fix instant for their destination; the end of its writing counts it, and
completes the command or shows done; a fix that would go to a lost eighth is not written, and its command completes with SEGMENT_LOST
(R330, R379). The model's choices on which this rests: log entry 84. -/
def Obligations.FixesAreLatchedAndWritten : Prop :=
  (∀ (s u : State) (k : Packet), s.admits 0x0005 k → u = s.begun k → u.helm.fix = none → u8 k 8 ≤ 1 →
    exec (.takeFix k) s = .next (s.awaits 0x0005 k (fun v => v.latchFix 0 k.onRing.val k.tag.toNat (u64 k 0) (u8 k 8 == 1) (u8 k 9)) .fix
      0 ((u.helm.fixSeq + 1) % 2 ^ 32) 0 0 1)) ∧
  (∀ (v : BitVec 32) (s : State), s.bellsFree → v.toNat.testBit 0 = true → s.helm.fix = none → s.fbit fHLM_FIX_ADDR_en = true →
    exec (.fixDoorbell v) s = .next (s.latchFix 1 0xFFFF 0 (s.fget fHLM_FIX_ADDR_addr * 4096) false 0)) ∧
  (∀ (v : BitVec 32) (s : State), s.bellsFree → v.toNat.testBit 0 = true → (s.helm.fix.isSome = true ∨ s.fbit fHLM_FIX_ADDR_en = false) →
    exec (.fixDoorbell v) s = .next (s.bump fHLM_PROMPT_CNT_fix_ignored)) ∧
  (∀ (x : FixJob) (s w : State) (b : Bool), s.helm.fix = some x → x.source = 0 → x.dva = true →
    s.touchesLost x.space x.dst x.record.length = true → w = s.wakeMem portBP →
    exec (.fixWritten b) s = .next (({ w with helm := { w.helm with fix := none } } : State).endWaits .fix .segmentLost (some 0))) ∧
  (∀ (x : FixJob) (s : State), s.helm.fix = some x → x.dva = false → s.host.perst = false →
    let w := s.hostWrite x.dst x.record
    let d : State := ({ w with helm := { w.helm with fix := none } } : State).bump fHLM_PROMPT_CNT_fixes
    (x.source = 0 → exec (.fixWritten true) s = .next (d.endWaits .fix .ok (some 0))) ∧
    (x.source = 1 → exec (.fixWritten true) s = .next (if (d.fput fHLM_FIX_STAT_done 0 1).fbit fHLM_FIX_CTL_irq_en then
      (d.fput fHLM_FIX_STAT_done 0 1).signal ((d.fput fHLM_FIX_STAT_done 0 1).fget fHLM_FIX_CTL_vector) else d.fput fHLM_FIX_STAT_done 0 1)))

/-! ### Switchyard (chapter 16) -/

/-- The operations of a hart on a task that it may manage, while its own task was not deleted (R381, R385, R387). A task outside a hart's range is answered with code 4 and stays as it is (R381). -/
def Obligations.TaskOperationsAct : Prop :=
  (∀ (h : Fin 4) (t : BitVec 12) (s : State), mayManage h.val t.toNat = true →
    (∀ c, s.runningTask h.val = some c → (s.task c).deleted = false) →
    (∀ prio : BitVec 6, (s.task t.toNat).st = .free → exec (.create h t prio) s =
      .next (((s.setTask t.toNat { prio := prio.toNat }).makeReady t.toNat).opResult h.val 0 0)) ∧
    (∀ prio : BitVec 6, (s.task t.toNat).st ≠ .free → exec (.create h t prio) s = .next (s.opResult h.val 5 0)) ∧
    ((s.task t.toNat).st = .running → exec (.delete h t) s =
      .next ((s.setTask t.toNat { s.task t.toNat with deleted := true }).opResult h.val 0 0)) ∧
    ((s.task t.toNat).st ≠ .running → (s.task t.toNat).st ≠ .free → exec (.delete h t) s =
      .next (((s.dropHeldPost t.toNat).freeTask t.toNat).opResult h.val 0 0)) ∧
    (∀ prio : BitVec 6, (s.task t.toNat).st = .ready → ∃ u, exec (.setPrio h t prio) s = .next u ∧
      u.swy.ready = s.swy.ready.filter (· ≠ t.toNat) ++ [t.toNat] ∧ u.task t.toNat = { s.task t.toNat with prio := prio.toNat } ∧
      (∀ c, c ≠ t.toNat → u.task c = s.task c) ∧ u.fget fSWY_H_RES_code h.val = 0 ∧ Changes [.reg .SWY_H_RES, .swy] s u) ∧
    (∀ mask : BitVec 32, (s.task t.toNat).st ≠ .free → exec (.setFlags h t mask) s =
      .next (((s.setTask t.toNat { s.task t.toNat with flags := Nat.lor (s.task t.toNat).flags (mask.toNat % 2 ^ 32) }).wakeIfHolds
        t.toNat).opResult h.val 0 0))) ∧
  (∀ (h : Fin 4) (t : BitVec 12) (prio : BitVec 6) (mask : BitVec 32) (s : State), mayManage h.val t.toNat = false →
    (∀ c, s.runningTask h.val = some c → (s.task c).deleted = false) →
    exec (.create h t prio) s = .next (s.opResult h.val 4 0) ∧ exec (.delete h t) s = .next (s.opResult h.val 4 0) ∧
    exec (.setPrio h t prio) s = .next (s.opResult h.val 4 0) ∧ exec (.setFlags h t mask) s = .next (s.opResult h.val 4 0))

/-- The operations of a hart's own running task: flags cleared, a wait that holds or begins, a delay, a yield and an exit, the last
four leaving running with code 2 (R385, R387, R389). POST and TAKE of a hart's own task on an enabled queue (R386, R394).
The model's choices on which this rests: log entry 44. -/
def Obligations.OwnTaskOperationsAct : Prop :=
  (∀ (h : Fin 4) (c : Nat) (s : State), s.runningTask h.val = some c → (s.task c).deleted = false →
    (∀ (mask : BitVec 32) (v : State), v = s.fput fSWY_H_ARG_mask h.val mask.toNat → exec (.clearFlags h mask) s =
      .next ((v.setTask c { s.task c with flags := (s.task c).flags - Nat.land (s.task c).flags mask.toNat }).opResult h.val 0 0)) ∧
    (∀ (mask ticks : BitVec 32) (all consume : Bool) (v : State), mask.toNat ≠ 0 →
      v = (s.fput fSWY_H_ARG_mask h.val mask.toNat).fput fSWY_H_ARG_ticks h.val ticks.toNat →
      (waitHolds (s.task c).flags mask.toNat all = true → exec (.wait h mask all consume ticks) s =
        .next ((v.setTask c { s.task c with flags := if consume then (s.task c).flags - Nat.land (s.task c).flags mask.toNat else
          (s.task c).flags }).opResult h.val 0 (Nat.land (s.task c).flags mask.toNat))) ∧
      (waitHolds (s.task c).flags mask.toNat all = false → ticks.toNat = 0 → exec (.wait h mask all consume ticks) s =
        .next ((v.setTask c { s.task c with st := .waiting, mask := mask.toNat, all := all, consume := consume, resDue := true }).leaveHart
          h.val 2))) ∧
    (∀ (ticks : BitVec 32) (v : State), ticks.toNat ≠ 0 → v = s.fput fSWY_H_ARG_ticks h.val ticks.toNat → exec (.delay h ticks) s =
      .next (((v.setTask c { s.task c with st := .delayed, resDue := true }).delayInsert c (v.tickReading ticks.toNat)).leaveHart h.val 2)) ∧
    exec (.yield h) s = .next (((s.leaveHart h.val 2).setTask c { s.task c with resCode := 0, resFlags := 0, resDue := true }).makeReady c) ∧
    exec (.exit h) s = .next ((s.freeTask c).leaveHart h.val 2)) ∧
  (∀ (h : Fin 4) (q : QueueNo) (c : Nat) (s : State), s.runningTask h.val = some c → (s.task c).deleted = false → s.qOn q.val = true →
    (∀ (msg : BitVec 2048) (v : State), v = s.putHartMsg h.val 256 msg.toNat → bitAt (s.fget fDPT_Q_CTL_prod q.val) 1 = true →
      (h.val < 2 ∨ 1024 ≤ q.val) → s.qElem q.val ≤ 256 →
      ((s.dq q.val).elems.length < s.qCap q.val → (s.dq q.val).held = [] → exec (.post h q msg) s =
        .next ((v.qPush q.val (msg.toNat % 2 ^ (8 * s.qElem q.val))).opResult h.val 0 0)) ∧
      (s.qCap q.val ≤ (s.dq q.val).elems.length → s.fget fDPT_Q_CTL_cons q.val ≠ 0 → exec (.post h q msg) s =
        .next (((v.setDq q.val { s.dq q.val with held := (s.dq q.val).held ++ [(.task c, msg.toNat % 2 ^ (8 * s.qElem q.val))] }).setTask c
          { s.task c with st := .held, queue := q.val, resDue := true }).leaveHart h.val 2))) ∧
    (s.fget fDPT_Q_CTL_cons q.val = 0 → s.fget fDPT_Q_OWNER_owner q.val = c →
      (∀ e u, s.qTake q.val = some (e, u) → exec (.take h q) s = .next ((u.putHartMsg h.val (s.qElem q.val) e).opResult h.val 0 0)) ∧
      ((s.dq q.val).elems = [] → exec (.take h q) s = .next (s.opResult h.val 3 0))))

/-- A switch, a tick, an expiry and a write of the tick period (R383, R384, R388, R389).
The model's choices on which this rests: log entry 45. -/
def Obligations.SwitchyardRuns : Prop :=
  (∀ (h : Fin 4) (s : State), s.runningTask h.val = none →
    (s.nextTask h.val = none → exec (.swyHSwitch h) s = .next (s.setHart h.val {})) ∧
    (∀ t, s.nextTask h.val = some t → exec (.swyHSwitch h) s = .next (s.runTask h.val t))) ∧
  (∀ s : State, s.helm.forwarded = [] → ∃ t, exec .switchyardTick s = .next t ∧
    t.fget fSWY_TICK_LAST_cycles = (s.fget fSWY_TICK_LAST_cycles + s.swy.period) % 2 ^ 64 ∧
    t.swy.period = s.swy.newPeriod.getD s.swy.period ∧ t.swy.newPeriod = none ∧ s.now ≤ t.now ∧
    Changes [.time, .reg .SWY_TICK_LAST, .swy] s t) ∧
  (∀ (t : BitVec 12) (rest : List Nat) (s : State), s.swy.delays = t.toNat :: rest → (s.task t.toNat).exp ≤ s.fget fSWY_TICK_LAST_cycles →
    exec (.delayExpiry t) s = .next ((s.setTask t.toNat { s.task t.toNat with
      resCode := if (s.task t.toNat).st = .waiting then 1 else 0, resFlags := 0 }).makeReady t.toNat)) ∧
  (∀ (v : BitVec 32) (s : State), s.takesRow .SWY_TICK 0 → v.toNat < 2 ^ 21 →
    (400 ≤ v.toNat → v.toNat ≤ 1600000 → v.toNat % 8 = 0 → exec (.swyTickWrite v) s =
      .next { s.fput fSWY_TICK_period 0 v.toNat with swy := { s.swy with newPeriod := some v.toNat } }) ∧
    ((v.toNat < 400 ∨ 1600000 < v.toNat ∨ v.toNat % 8 ≠ 0) → exec (.swyTickWrite v) s = .next (s.fput fSWY_STATUS_tick_err 0 1)))

/-! ### Depot (chapter 16) -/

/-- A host mirror's element goes to a released slot, and the head after it where write-back is on; a spilled element comes back from its place in memory, and a poisoned one gives a
truncation marker in its place; a dropping queue that has drained gets its marker; and a queue is enabled or disabled after its checks
(R209, R210, R321, R393, R397, R400).
The model's choices on which this rests: log entries 4, 58 and 73. -/
def Obligations.DepotQueuesRun : Prop :=
  (∀ (q : QueueNo) (e : Nat) (s u : State), s.qOn q.val = true → s.fget fDPT_Q_CTL_cons q.val = 1 →
    slotsHeld (s.fget fDPT_Q_MIR_PTR_mirrored q.val) (s.fget fDPT_Q_MIR_PTR_released q.val) < 2 ^ s.fget fDPT_Q_MIRROR_slots_log2 q.val →
    s.qTake q.val = some (e, u) →
    let slots := 2 ^ s.fget fDPT_Q_MIRROR_slots_log2 q.val
    let base := u.fget fDPT_Q_MIRROR_addr q.val * 4096
    let w := (u.hostWrite (base + s.fget fDPT_Q_HEAD_head q.val % slots * u.qElem q.val) (bytesOf (u.qElem q.val) e)).tick
      fDPT_Q_MIR_PTR_mirrored q.val
    (w.fbit fDPT_Q_MIRROR_wb_en q.val = false → exec (.mirrorWrite q) s = .next w) ∧
    (w.fbit fDPT_Q_MIRROR_wb_en q.val = true → exec (.mirrorWrite q) s =
      .next (w.hostWrite (base + slots * w.qElem q.val) (bytesOf 8 (w.fget fDPT_Q_HEAD_head q.val))))) ∧
  (∀ (q : QueueNo) (bad : Bool) (i at' : Nat) (s u : State) (bs : List Byte) (e : Bool), i = (s.dq q.val).inSram →
    i < (s.dq q.val).elems.length → i < s.qShare q.val → at' = s.fget fDPT_Q_HEAD_head q.val + i →
    s.spillRead q.val at' = (u, bs, e) →
    (bad = false → e = false → exec (.spillRefill q bad) s = .next (u.setDq q.val { u.dq q.val with
      elems := (u.dq q.val).elems.set i (ofBytes bs), inSram := i + 1 })) ∧
    ((bad = true ∨ e = true) →
      let v := (u.bump fDPT_MARK_markers).bump fDPT_Q_CNT_markers q.val
      exec (.spillRefill q bad) s = .next ((v.setDq q.val { u.dq q.val with
        elems := (u.dq q.val).elems.set i (pack [(16, 4, 0xF), (32, 32, 1), (64, 64, at')]), inSram := i + 1 }).countFix 11))) ∧
  (∀ (q : QueueNo) (bad : Bool) (s : State), ((s.dq q.val).elems.length ≤ (s.dq q.val).inSram ∨ s.qShare q.val ≤ (s.dq q.val).inSram) →
    exec (.spillRefill q bad) s = .next s) ∧
  (∀ (q : QueueNo) (s : State), (s.dq q.val).dropping = true → 4 * (s.dq q.val).elems.length ≤ 3 * s.qCap q.val →
    exec (.truncationMarker q) s = .next (((((s.setDq q.val { s.dq q.val with dropping := false, dropped := 0, dropSeq := 0 }).qPush q.val
      (pack [(16, 4, 0xF), (32, 32, min (s.dq q.val).dropped (2 ^ 32 - 1)), (64, 64, (s.dq q.val).dropSeq)])).bump fDPT_MARK_markers).bump
      fDPT_Q_CNT_markers q.val).countFix 11)) ∧
  (∀ (q : QueueNo) (v : BitVec 32) (s : State), s.takesRow .DPT_Q_CTL q.val → 1024 ≤ q.val →
    (s.fbit fDPT_Q_CTL_en q.val = false → v.toNat % 2 = 1 →
      let u := s.wr .DPT_Q_CTL q.val 0 (BitVec.ofNat 64 (setBits (setBits (s.rd .DPT_Q_CTL q.val).toNat 21 3 (bits v.toNat 21 3)) 0 0 0))
      (u.queueFits q.val v.toNat = true → exec (.dptQCtlWrite q v) s =
        .next ((u.rstAll [.DPT_Q_TAIL, .DPT_Q_HEAD, .DPT_Q_MIR_PTR] q.val).fput fDPT_Q_CTL_en q.val 1)) ∧
      (u.queueFits q.val v.toNat = false → exec (.dptQCtlWrite q v) s = .next (u.fput fDPT_STATUS_q_err 0 1))) ∧
    (s.fbit fDPT_Q_CTL_en q.val = true → v.toNat % 2 = 0 → bits v.toNat 21 3 = bits (s.rd .DPT_Q_CTL q.val).toNat 21 3 →
      (s.queueBound q.val = true → exec (.dptQCtlWrite q v) s = .next (s.fput fDPT_STATUS_cfg_drop 0 1)) ∧
      (s.queueBound q.val = false → exec (.dptQCtlWrite q v) s = .next (s.disableQueue q.val))))

/-! ### HBM (chapter 13) -/

/-- The arbiter serves the chosen request: a write enters the write queue, whose oldest beat makes room when it is full, and a piece of a
host read is read and joins its read. A fence completes once its port is quiet. A write queue of 48 entries, or one with no read waiting,
drains its oldest beat into the stack: the beat's bytes read as written and every other byte of memory as before (R21, R25, R315). The
model's choices on which this rests: log entries 71, 84 and 85. -/
def Obligations.WritesReachTheStack : Prop :=
  (∀ (ch : ChannelNo) (r : ArbReq) (s u v : State), u = s.offerSpills → u.memServing = true → u.chFaulted ch.val = false →
    pickGrant (u.rtTokens ch.val) (u.mgTokens ch.val) (u.chan ch.val).last (u.chan ch.val).waiting = some r →
    v = u.setChan ch.val (u.grantedChan ch.val r) →
    (∀ w, r.write = some w → (v.chan ch.val).queue.length < 64 →
      exec (.arbiterGrant ch) s = .next (v.setChan ch.val { v.chan ch.val with queue := (v.chan ch.val).queue ++ [w] })) ∧
    (∀ w, r.write = some w → 64 ≤ (v.chan ch.val).queue.length → exec (.arbiterGrant ch) s =
      .next ((v.drain ch.val 1).setChan ch.val { (v.drain ch.val 1).chan ch.val with queue := ((v.drain ch.val 1).chan ch.val).queue ++ [w] })) ∧
    (r.write = none → exec (.arbiterGrant ch) s =
      .next ((v.pieceNow r.port r.addr r.len).1.pieceBack r.addr (v.pieceNow r.port r.addr r.len).2))) ∧
  (∀ s : State, s.depot.spills = [] → s.offerSpills = s) ∧
  (∀ (port : Fin 19) (s u : State), u = (if port.val = portDS then s.offerSpills else s) →
    (u.portQuiet port.val = true → exec (.fenceComplete port) s =
      .next { u with hbm := { u.hbm with fencesDone := port.val :: u.hbm.fencesDone } }) ∧
    (u.portQuiet port.val = false → exec (.fenceComplete port) s = .next u)) ∧
  (∀ (ch : ChannelNo) (w : BeatWrite) (rest : List BeatWrite) (s : State), s.memServing = true → s.chFaulted ch.val = false →
    (s.chan ch.val).queue = w :: rest → (48 ≤ (s.chan ch.val).queue.length ∨ (s.chan ch.val).waiting.all (fun r => r.write.isSome) = true) →
    w.mask = 2 ^ 32 - 1 → ∃ t, exec (.writeQueueDrain ch) s = .next t ∧ (t.chan ch.val).queue = rest ∧
      (∀ i < 32, t.memByte ch.val (w.addr + i) = BitVec.ofNat 8 (w.data / 256 ^ i)) ∧
      (∀ c a, (memKey c a < memKey ch.val w.addr ∨ memKey ch.val w.addr + 32 ≤ memKey c a) → t.memByte c a = s.memByte c a) ∧
      Changes [.hbmMem, .hbm] s t)

/-- A parity incident is counted, reported and replayed after the stop in progress, and a second alert of its replay or a second incident
too soon faults the channel; scrub reads every marked beat and counts a pass; a request wakes a sleeping memory, whose exit loses the
eighths not kept and drops the writes that wait for them (R316, R317, R322, R329, R330). A valid map takes valid alone; an invalid one is
stored, and becomes valid only if it fits (R309). A refresh stop begins at its grid point and ends 720 MER0 cycles later, or 1,440 after a
maintenance stop with its lane errors counted; the stacks' temperatures choose the interval (R311 to R313). The model's choices on which
this rests: log entries 85, 86 and 93. -/
def Obligations.MemoryEventsAct : Prop :=
  (∀ (ch : ChannelNo) (again : Fin 3) (s : State), s.fget fMEM_STATUS_state = 2 → s.chFaulted ch.val = false →
    (again.val < 2 → s.incidentSoon ch.val = false → exec (.parityAlert ch again) s =
      .next ((s.countIncident ch.val again.val).waitStop.replay ch.val)) ∧
    ((again.val = 2 ∨ s.incidentSoon ch.val = true) → exec (.parityAlert ch again) s =
      .next (((s.countIncident ch.val again.val).waitStop.replay ch.val).faultChannel ch.val 0))) ∧
  (∀ s : State, s.fbit fMEM_SCRUB_en = true → s.fget fTHM_STAT_state = 0 → s.fget fMEM_STATUS_state = 2 → exec .hbmScrub s =
    .next ((s.hbm.marks.foldl (fun (v : State) e => v.scrubBeat (e.1 / 2 ^ 32) (e.1 % 2 ^ 32)) s).tick fMEM_SCRUB_passes)) ∧
  (∀ (port : Fin 19) (s : State), (s.fget fMEM_STATUS_state = 3 ∨ s.fget fMEM_STATUS_state = 4) → exec (.memoryWake port) s =
    .next { s.fput fMEM_STATUS_state 0 5 with hbm := { s.hbm with waking := some port.val } }) ∧
  (∀ (s u : State) (p : Nat), s.fget fMEM_STATUS_state = 5 → p = s.hbm.waking.getD portCtrl →
    u = (s.fput fMEM_SEG_LOST_lost 0 (Nat.lor (s.fget fMEM_SEG_LOST_lost) (2 ^ 32 - 1 - s.fget fMEM_PASR_keep))).fput fMEM_STATUS_state 0 2 →
    exec .selfRefreshExit s = .next (u.memEvent 8 0 p 0 p).leaveRefresh.dropLostWrites) ∧
  (∀ (m : Fin 16) (v : BitVec 32) (s : State), s.takesRow .MEM_MAP_CTL m.val → m.val ≠ 15 →
    (s.mapValid m.val = true → bits v.toNat 8 1 = bits (s.rd .MEM_MAP_CTL m.val).toNat 8 1 →
      exec (.memMapCtlWrite m v) s = .next (s.fput fMEM_MAP_CTL_valid m.val (bits v.toNat 0 0))) ∧
    (s.mapValid m.val = true → bits v.toNat 8 1 ≠ bits (s.rd .MEM_MAP_CTL m.val).toNat 8 1 →
      exec (.memMapCtlWrite m v) s = .next ((s.fput fMEM_STATUS_map_drop 0 1).fput fMEM_MAP_CTL_valid m.val (bits v.toNat 0 0))) ∧
    (s.mapValid m.val = false →
      let p : MapSpec := { s.mapSpec m.val with kind := bits v.toNat 2 1, index := bits v.toNat 4 3, grain := bits v.toNat 8 5 }
      (bits v.toNat 0 0 = 1 → s.mapFits m.val p = true → exec (.memMapCtlWrite m v) s = .next (s.putMap m.val p true)) ∧
      (bits v.toNat 0 0 = 1 → s.mapFits m.val p = false →
        exec (.memMapCtlWrite m v) s = .next ((s.putMap m.val p false).fput fMEM_STATUS_map_err 0 1)) ∧
      (bits v.toNat 0 0 = 0 → exec (.memMapCtlWrite m v) s = .next (s.putMap m.val p false)))) ∧
  (∀ s : State, s.fget fMEM_STATUS_state = 2 → s.hbm.stopped = false → ∃ t, exec .refreshStop s = .next t ∧ t.hbm.stopped = true ∧
    t.hbm.lastGrid = some s.nextGrid ∧ t.fget fMEM_REF_STAT_stops = (s.fget fMEM_REF_STAT_stops + 1) % 2 ^ 32 ∧
    t.now = max s.now (s.mer0Instant (s.gridPoint s.nextGrid)) ∧ Changes [.time, .reg .MEM_REF_STAT, .hbm] s t) ∧
  (∀ (errs : List LaneErr) (s : State), s.hbm.stopped = true → s.maintenance = false → ∃ t, exec (.refreshStopEnd errs) s = .next t ∧
    t.hbm.stopped = false ∧ t.now = max s.now (s.mer0Instant (s.gridPoint (s.hbm.lastGrid.getD 0) + 720)) ∧ Changes [.time, .hbm] s t) ∧
  (∀ (errs : List LaneErr) (s u : State), s.hbm.stopped = true → s.maintenance = true →
    u = errs.foldl State.countLane (s.advance (s.mer0Instant (s.gridPoint (s.hbm.lastGrid.getD 0) + 1440))) →
    exec (.refreshStopEnd errs) s = .next { u with hbm := { u.hbm with stopped := false } }) ∧
  (∀ (temps : BitVec 32) (s : State), s.fget fMEM_STATUS_state = 2 →
    let u := s.fput fMEM_TEMP_temp 0 temps.toNat
    (trefChoice temps.toNat s.trefFast = s.trefFast → exec (.stackTempRead temps) s = .next u) ∧
    (trefChoice temps.toNat s.trefFast ≠ s.trefFast → exec (.stackTempRead temps) s =
      .next ((({ u with hbm := { u.hbm with skipTo := u.gridAfter u.mer0 } }.fput fMEM_STATUS_tref_fast 0 (b2n (trefChoice temps.toNat s.trefFast))).bump fMEM_REF_STAT_changes).memEvent 6 0 portCtrl
        0 (b2n (trefChoice temps.toNat s.trefFast)))))

/-- MEM_MAP_SET, MEM_TRAIN, MEM_CH_RECOVER, MEM_SELF_REFRESH and MEM_SEG_CLEAR on maps, channels and a memory that nothing uses (R309,
R325, R327, R328, R330). Whether a recovered channel trains is a free value. The model's choices on which this rests: log entries 33, 34
and 85. -/
def Obligations.MemoryCommandsAct : Prop :=
  (∀ (s u : State) (k : Packet), s.accepts 0x1001 k → u = s.begun k → u8 k 0 < 15 → u8 k 1 ≤ 3 → u8 k 2 ≤ 3 → u8 k 3 ≤ 15 → u8 k 4 ≤ 1 →
    u.acceptedJobs = [] → (u8 k 4 = 1 → u.mapFits (u8 k 0) ⟨u8 k 1, u8 k 2, u8 k 3, u32 k 8, u32 k 12⟩ = true) →
    exec (.memMapSet k) s = .next (s.completes 0x1001 k
      (fun v => v.putMap (u8 k 0) ⟨u8 k 1, u8 k 2, u8 k 3, u32 k 8, u32 k 12⟩ (u8 k 4 == 1)))) ∧
  (∀ (s u : State) (k : Packet), s.accepts 0x1002 k → u = s.begun k → u8 k 0 < 64 → u.channelUsed (u8 k 0) = false →
    exec (.memTrain k) s = .next (s.completes 0x1002 k State.awake)) ∧
  (∀ (s u : State) (k : Packet), s.accepts 0x1003 k → u = s.begun k → u8 k 0 < 64 → u.chFaulted (u8 k 0) = true →
    u.channelUsed (u8 k 0) = false →
    (u.awake.fresh.2.getLsbD 0 = true → exec (.memChRecover k) s = .next (s.completes 0x1003 k
      (fun v => v.awake.fresh.1.recoverChannel (u8 k 0)))) ∧
    (u.awake.fresh.2.getLsbD 0 = false →
      exec (.memChRecover k) s = .next (s.ends 0x1003 k (fun v => v.awake.fresh.1) .memFault 0 0 0))) ∧
  (∀ (s u : State) (k : Packet), s.accepts 0x1004 k → u = s.begun k → u.acceptedJobs = [] → u.acqBusy = [] → u.dmaDescs = [] →
    u.fget fMEM_STATUS_state = 2 →
    exec (.memSelfRefresh k) s = .next (s.completes 0x1004 k (fun v => v.drainAll.enterRefresh (Nat.lor (u32 k 0) 0x80808080)))) ∧
  (∀ (s u : State) (k : Packet) (mask : Nat), s.accepts 0x1005 k → u = s.begun k →
    mask = Nat.land (u32 k 0) (u.awake.fget fMEM_SEG_LOST_lost) → mask ≠ 0 →
    exec (.memSegClear k) s = .next (s.completes 0x1005 k
      (fun v => ((maskBits 32 mask).foldl State.clearEighth v.awake).memEvent 11 0 portCtrl 0 mask) 0 (popCount 32 mask)))

/-! ### Chart and DMA (chapter 14) -/

/-- ASPACE_SET, CHART_MAP, CHART_UNMAP, CHART_INVALIDATE, CHART_RETRY and CHART_ABANDON where the rules let them act (R333 to R339, R345,
R349). A walk is asked for and waits while 64 are in flight, real-time ones issued before bulk ones (R341); one that finds a leaf caches
it for its source, and one of a Pilot's lookahead that does not takes a slot as an early fault; a DMA channel at work is suspended on it;
a go written to CHT_INV_GO invalidates the range of its registers (R338, R340, R343 to R347, R354). The model's choices on which this
rests: log entries 9, 10, 43, 74 and 87. -/
def Obligations.ChartActs : Prop :=
  (∀ (s u : State) (k : Packet), s.accepts 0x1006 k → u = s.begun k → u8 k 0 < 252 → u8 k 1 ≤ 1 → u8 k 2 ≤ 31 → u16 k 4 < 16384 →
    u64 k 8 < 2 ^ 44 → u64 k 8 % max 256 (2 ^ (3 + min (u8 k 2) 18)) = 0 → u.spaceBusy (u8 k 0) = false →
    exec (.aspaceSet k) s = .next (s.completes 0x1006 k (fun v => ((((v.fput fCHT_AS_CTL_valid (u8 k 0) (u8 k 1)).fput fCHT_AS_CTL_span
      (u8 k 0) (u8 k 2)).fput fCHT_AS_CTL_fault_q (u8 k 0) (u16 k 4)).fput fCHT_AS_ROOT_hpa (u8 k 0) (u64 k 8)).tlbDrop (u8 k 0) 0 (2 ^ 48)))) ∧
  (∀ (s u : State) (k : Packet), s.accepts 0x1007 k → u = s.begun k →
    let pb := leafBits (3 - u8 k 1)
    let leaf (i : Nat) : Nat := leafEntry (u8 k 2) (u64 k 16 + i * 2 ^ pb)
    let r := u.leaves (u8 k 0) (u64 k 8) (u64 k 24)
    u8 k 0 < 252 → u8 k 1 ≤ 2 → u8 k 2 ≤ 3 → u.spaceValid (u8 k 0) = true → 0 < u64 k 24 → u64 k 8 % 2 ^ pb = 0 → u64 k 16 % 2 ^ pb = 0 →
    u64 k 24 % 2 ^ pb = 0 → u64 k 8 + u64 k 24 ≤ 2 ^ (30 + u.spaceSpan (u8 k 0)) → u64 k 16 + u64 k 24 ≤ 2 ^ 44 →
    (∀ i < u64 k 24 / 2 ^ pb, u.badEntry (3 - u8 k 1) (leaf i) = false) →
    u.tableRoom (u.fget fCHT_AS_ROOT_hpa (u8 k 0)) (u64 k 8) (3 - u8 k 1) (u64 k 24 / 2 ^ pb) = true → r.2.2.1 = none →
    r.2.1.any (r.1.leafProtected (u8 k 0)) = false →
    exec (.chartMap k) s = .next (s.completes 0x1007 k (fun _ => (((List.range (u64 k 24 / 2 ^ pb)).foldl (fun (v : State) i =>
      v.putLeaf (u64 k 8 + i * 2 ^ pb) 1 (r.1.fget fCHT_AS_ROOT_hpa (u8 k 0)) (3 - u8 k 1) (leaf i) 3) r.1).retryRange (u8 k 0) (u64 k 8)
      (u64 k 24)).afterClear))) ∧
  (∀ (s u : State) (k : Packet), s.accepts 0x1008 k → u = s.begun k →
    let r := u.leaves (u8 k 0) (u64 k 8) (u64 k 24)
    u8 k 0 < 252 → u.spaceValid (u8 k 0) = true → u64 k 8 + u64 k 24 ≤ 2 ^ 48 → r.2.2.1 = none → r.2.2.2 = false →
    (∀ l ∈ r.2.1, u64 k 8 ≤ l.1 ∧ l.1 + 2 ^ l.2 ≤ u64 k 8 + u64 k 24) → r.2.1.any (r.1.leafProtected (u8 k 0)) = false →
    exec (.chartUnmap k) s = .next (s.completes 0x1008 k (fun _ => (((r.2.1.foldl (fun (v : State) l =>
      v.dropLeaf l.1 1 (r.1.fget fCHT_AS_ROOT_hpa (u8 k 0)) 3) r.1).tlbDrop (u8 k 0) (u64 k 8) (u64 k 24)).settleWrites.retryRange (u8 k 0)
      (u64 k 8) (u64 k 24)).afterClear))) ∧
  (∀ (s : State) (k : Packet), s.accepts 0x1009 k → u8 k 1 = 0 → exec (.chartInvalidate k) s = .next (s.completes 0x1009 k
    (fun v => ((v.tlbDrop (u8 k 0) (u64 k 8) (u64 k 24)).settleWrites.retryRange (u8 k 0) (u64 k 8) (u64 k 24)).afterClear))) ∧
  (∀ (s u v : State) (k : Packet) (i : Nat) (f : FaultSlot), s.accepts 0x100A k → u = s.begun k → u.slotOfId (u16 k 0) = some (i, f) →
    (u.retryFault i = (v, 0) → exec (.chartRetry k) s = .next (s.completes 0x100A k (fun _ => v.afterClear))) ∧
    (∀ kind, u.retryFault i = (v, kind + 1) →
      exec (.chartRetry k) s = .next (s.ends 0x100A k (fun _ => v) .chartFault (kind + 1) 0 0))) ∧
  (∀ (s u : State) (k : Packet) (i : Nat) (f : FaultSlot), s.accepts 0x100B k → u = s.begun k → u.slotOfId (u16 k 0) = some (i, f) →
    (16 ≤ f.source → f.source < 32 → exec (.chartAbandon k) s = .next (s.completes 0x100B k
      (fun v => (v.setSlot i none).dmaEnds (f.source - 16) 1 3))) ∧
    (32 ≤ f.source → exec (.chartAbandon k) s = .next (s.completes 0x100B k (fun v => (v.setSlot i none).failHolds (u16 k 0)))) ∧
    (f.source < 16 → exec (.chartAbandon k) s = .next (s.ends 0x100B k id .chartBusy 0 0 0))) ∧
  (∀ (source : Fin 35) (space : BitVec 8) (dva : BitVec 64) (write : Bool) (w x : WalkReq) (s t u v : State),
    w = ⟨source.val, space.toNat, dva.toNat / 65536 * 65536, write⟩ → x = { w with dva := dva.toNat } →
    t = (if s.chart.asked.any w.same || s.chart.walks.any w.same then s else s.askWalks [w]) →
    u = (if source.val < 16 then t.bump fCHT_PLT_CNT_walks source.val else t).countWalk source.val →
    (s.walkKnown w = true → exec (.walkComplete source space dva write) s = .next s) ∧
    (s.walkKnown w = false → t.chart.walks.any w.same = false → exec (.walkComplete source space dva write) s = .next t) ∧
    (s.walkKnown w = false → t.chart.walks.any w.same = true →
      (∀ (pb e level : Nat) (y z : State), u.walk (walkClass source.val) space.toNat dva.toNat = (v, .leaf pb e level) →
        y = v.tlbFill (tlbOf source.val) space.toNat dva.toNat pb e (walkClass source.val == .realTime) → z = y.endWalks y.walkKnown →
        (z.tlbFind (tlbOf source.val) space.toNat dva.toNat).isSome = true ∧
        (∀ a left, leafTrans pb e level dva.toNat write = .hpa a left → exec (.walkComplete source space dva write) s = .next z) ∧
        (∀ kind lv d, leafTrans pb e level dva.toNat write = .fault kind lv d →
          exec (.walkComplete source space dva write) s = .next (z.walkFaults x kind lv d))) ∧
      (∀ kind lv d, u.walk (walkClass source.val) space.toNat dva.toNat = (v, .fault kind lv d) →
        exec (.walkComplete source space dva write) s = .next ((v.endWalks x.same).walkFaults x kind lv d)))) ∧
  (∀ (w : WalkReq) (v y : State) (kind level e id c : Nat), c = w.source - 16 →
    (w.source < 16 → v.walkFaults w kind level e =
      (v.raiseFault (mkFault w.source w.space w.dva kind level e w.write true false)).1) ∧
    (16 ≤ w.source → w.source < 32 → v.dmaState c = 1 → (v.dmaCh c).desc.isSome = true → (v.dmaCh c).status = 0 →
      v.raiseFault (mkFault w.source w.space w.dva kind level e w.write false true) = (y, id) →
      let z := (y.fput fDMA_CH_STAT_state c 2).fput fDMA_CH_STAT_fault_id c id
      v.walkFaults w kind level e = ((z.setDmaCh c { z.dmaCh c with faultId := id }).bump fDMA_CH_CNT_faults c).countFix 9) ∧
    (32 ≤ w.source → v.walkFaults w kind level e = v)) ∧
  (∀ (asked : List WalkReq) (w : WalkReq), nextWalk asked = some w →
    w ∈ asked ∧ (walkClass w.source ≠ .realTime → ∀ x ∈ asked, walkClass x.source ≠ .realTime)) ∧
  (∀ (s : State) (ws : List WalkReq), s.chart.walks.length ≤ 64 → (s.askWalks ws).chart.walks.length ≤ 64) ∧
  (∀ s : State, s.takesRow .CHT_INV_GO 0 → s.fbit fCHT_INV_SPACE_all = false → exec .chtInvGo s =
    .next (((s.tlbDrop (s.fget fCHT_INV_SPACE_space) (s.fget fCHT_INV_START_start) (s.fget fCHT_INV_LEN_len)).settleWrites.retryRange
      (s.fget fCHT_INV_SPACE_space) (s.fget fCHT_INV_START_start) (s.fget fCHT_INV_LEN_len)).afterClear))

/-- A DMA channel takes a descriptor, writes a granule whole or faults on it (as on an error status that the host answers with), posts its completion with the status that its descriptor
ended with, and is started and stopped: a stopped one that works ends its descriptor with status 2, and one suspended on a fault gives its
slot back (R350 to R355).
The model's choices on which this rests: log entries 35 to 37. -/
def Obligations.DmaChannelsRun : Prop :=
  (∀ (c : Fin 16) (d : Nat) (s u : State), s.fbit fDMA_CH_CTL_run c.val = true → s.dmaState c.val = 0 → (s.dmaCh c.val).desc = none →
    s.qOn (s.fget fDMA_CH_CTL_ring_q c.val) = true → s.cplRoom (s.fget fDMA_CH_CTL_cpl_q c.val) = true → s.dmaHeld c.val = false →
    s.qTake (s.fget fDMA_CH_CTL_ring_q c.val) = some (d, u) →
    exec (.dmaDescriptor c) s = .next ((((u.setDmaCh c.val { desc := some (d % 2 ^ 512), status := if u.dmaValid (d % 2 ^ 512) then 0 else 3
      }).wr .DMA_CH_PROG c.val 0 (BitVec.ofNat 64 (dTag (d % 2 ^ 512) * 2 ^ 32))).fput fDMA_CH_STAT_state c.val 1).dmaFill)) ∧
  (∀ (c : Fin 16) (x : GranuleEnd) (k d : Nat) (s u v : State) (bs : List Byte), k = x.granule → u = s.dmaFill →
    (u.dmaCh c.val).desc = some d → (u.dmaCh c.val).flying.contains k = true → dWayline d = false →
    u.granuleSource c.val d k x.err = (v, .ok bs) →
    (∀ w, v.granuleStore c.val d k bs = (w, none) → exec (.granuleComplete c x) s =
      .next ((if dClassA d then w.advance w.classAPast else w).granuleWritten c.val k).dmaFill) ∧
    (∀ w f, v.granuleStore c.val d k bs = (w, some f) → exec (.granuleComplete c x) s = .next (w.granuleFault c.val k f).dmaFill)) ∧
  (∀ (c : Fin 16) (x : GranuleEnd) (k d : Nat) (s u v : State) (f : FaultSlot), k = x.granule → u = s.dmaFill →
    (u.dmaCh c.val).desc = some d → (u.dmaCh c.val).flying.contains k = true → dWayline d = false →
    u.granuleSource c.val d k x.err = (v, .error f) → exec (.granuleComplete c x) s = .next (v.granuleFault c.val k f).dmaFill) ∧
  (∀ (c : Fin 16) (d k : Nat) (e : BitVec 3) (s : State), dOp d = 0 → dSrcType d = 1 → s.host.perst = false →
    s.granuleSource c.val d k none = (s, .ok (s.hostRead (dSrc d + granuleLo d k) (granuleLen d k))) ∧
    s.granuleSource c.val d k (some e) = (s, .error (granuleFaultOf d c.val k kHostError e.toNat false))) ∧
  (∀ (c : Fin 16) (d st : Nat) (s u : State), (s.dmaCh c.val).desc = some d → s.dmaFinished c.val d = true → s.portQuiet portDM = true →
    st = (s.dmaCh c.val).status → u = (s.dmaPost c.val d st).bump fDMA_CH_CNT_completed c.val → exec (.dmaCompletion c) s =
      .next (((if st = 3 then u.bump fDMA_CH_CNT_invalid c.val else u).fput fDMA_CH_STAT_state c.val (if st = 1 then 3 else 0)).setDmaCh
        c.val {})) ∧
  (∀ (c : Fin 16) (v : BitVec 32) (s : State), s.takesRow .DMA_CH_CTL c.val → s.fbit fDMA_CH_CTL_run c.val = false → v.toNat % 2 = 1 →
    s.dmaState c.val ≠ 3 → exec (.dmaChCtlWrite c v) s = .next (((s.fput fDMA_CH_CTL_ring_q c.val (bits v.toNat 15 2)).fput
      fDMA_CH_CTL_cpl_q c.val (bits v.toNat 29 16)).fput fDMA_CH_CTL_run c.val 1)) ∧
  (∀ (c : Fin 16) (v : BitVec 32) (s u : State), s.takesRow .DMA_CH_CTL c.val → s.fbit fDMA_CH_CTL_run c.val = true → v.toNat % 2 = 0 →
    u = s.fput fDMA_CH_CTL_run c.val 0 →
    (s.dmaState c.val = 1 → (s.dmaCh c.val).status = 0 → exec (.dmaChCtlWrite c v) s = .next (u.dmaFill.dmaEnds c.val 2 4)) ∧
    (∀ i, s.dmaState c.val = 2 → s.dmaFaultSlot c.val = some i →
      exec (.dmaChCtlWrite c v) s = .next (((u.setSlot i none).dmaEnds c.val 2 4).fput fDMA_CH_STAT_fault_id c.val 0)) ∧
    (s.dmaState c.val ≠ 1 → s.dmaState c.val ≠ 2 → exec (.dmaChCtlWrite c v) s = .next u)) ∧
  (∀ (s : State) (k : Packet), s.accepts 0x100C k → u8 k 0 < 16 → u8 k 1 ≤ 1 → u16 k 2 < 16384 → u16 k 4 < 16384 →
    exec (.dmaChannelSet k) s = .next (s.completes 0x100C k (fun v => v.doDmaChCtlWrite (u8 k 0) (u8 k 1 + u16 k 2 * 4 + u16 k 4 * 2 ^ 16))))

/-! ### Ethernet and MSI-X (chapter 18) -/

/-- The port's link, its PTP servo's timeouts and stamps, its frames and its datagrams (R436, R443 to R447). Unmasking a vector lets its pending message leave once, and leaves the other vectors masked as they were (R441).
The model's choices on which this rests: log entries 6, 42 and 54. -/
def Obligations.EthernetPortRuns : Prop :=
  (∀ (up : Bool) (s : State), exec (.ethLinkChange up) s = .next (s.fput fETH_MAC_link 0 (b2n (up && s.ethOn)))) ∧
  (∀ (t : Nat) (sync measured : Bool) (offset : Int) (s : State), s.ethUp = true → (s.mer 7).st = .running →
    (s.fget fMER_WALL_CTL_discipline ≠ 1 ∨ measured = false) → exec (.ptpMessage t sync measured offset) s =
      .next { s.advance (t * 60) with eth := { s.eth with
        stamps := (s.mer 7).reading (t * 60) :: s.eth.stamps, lastSync := if sync then t * 60 else s.eth.lastSync } }) ∧
  (∀ s : State, s.fget fMER_WALL_CTL_discipline = 1 → s.fbit fETH_PTP_STAT_holdover = false → exec .syncTimeout s =
    .next (((s.advance (s.eth.lastSync + 3 * unitsPerSecond)).fput fETH_PTP_STAT_holdover 0 1).fput fETH_PTP_STAT_locked 0 0)) ∧
  (∀ (e : Nat) (bs : List Byte) (s u v : State), s.ethUp = true → s.eth.launch = none → s.qTake (s.fget fETH_TXQ_queue) = some (e, u) →
    u.ethUp = true → bitAt e 56 = false → u.dvaRead sourceHelm portBP (bits e 55 48) (bits e 47 0) (bits e 74 64) = (v, .done bs) →
    exec .ethTxElement s = .next (v.ethSend ⟨bits e 127 96, bs, v.odo 7 / 256 * 256⟩)) ∧
  (∀ (f : EthFrame) (t : Nat) (s : State), s.eth.launch = some f → (s.mer 7).instantOf s.eth.launchAt = some t → s.ethUp = true →
    ∃ u, exec .ethLaunch s = .next u ∧ u.now = max s.now t ∧ u.eth.launch = none ∧
      u.eth.sent = s.eth.sent ++ [{ f with stamp := launchStamp s.eth.launchAt s.fresh.2 }]) ∧
  (∀ s : State, s.ethUp = true → s.fbit fETH_OOB_en = true → ∃ t d, exec .telemetryTimer s = .next t ∧
    t.eth.datagrams = s.eth.datagrams ++ [d] ∧ t.eth.oobSeq = (s.eth.oobSeq + 1) % 2 ^ 32 ∧ t.eth.oobAt = t.now ∧
    t.now = max s.now (s.eth.oobAt + max 10 (s.fget fETH_OOB_period_ms) * 1000000 * unitsPerNs) ∧ d.take 4 = bytesOf 4 0x4D544B50 ∧
    Changes [.time, .reg .HLM_FIX_STAT, .helm, .eth] s t) ∧
  (∀ (src : BitVec 32) (port : BitVec 16) (s : State), s.ethUp = true → s.fbit fETH_OOB_en = true → src.toNat = s.fget fETH_OOB_PEER_ipv4 →
    port.toNat = s.fget fETH_OOB_port → s.helm.fix = none → exec (.fixRequestDatagram src port 0x51464B50) s =
      .next (s.latchFix 2 0xFFFF 0 0 false 0)) ∧
  (∀ (v : Fin 2048) (s : State), s.host.msixPending = [(v.val, true)] → ∃ t, exec (.msixUnmask v true) s = .next t ∧
    t.host.msiSent = s.host.msiSent ++ [v.val] ∧ t.host.msixPending = [] ∧ t.host.msixEnable = true ∧
    bitAt (t.msixEntry v.val) 96 = false ∧ (∀ w, w ≠ v.val → t.msixEntry w = s.msixEntry w) ∧ Changes [.msix] s t)

/-! ### Route instructions (chapters 05, 06, 07). In each clause t is the state in which the effect begins -/

/-- NOP, VEC, RPT, PAD and SCAN: the counter moves on and a run of n vectors begins, of rows, of one row, of pads, or of the base row under
scan codes from the next multiple of four bytes; a count of 0, and a SCAN of an empty group, is a fatal operand trap with no other effect
(R136, R141, R150). -/
def Obligations.VectorInstructionsStartRuns : Prop :=
  (∀ (p : PilotNo) (s t : State), s.takesWord p.val 0 t → exec (.nop p) s = .next ((t.stepPc p.val).stepTrap p.val)) ∧
  (∀ (p : PilotNo) (n : BitVec 32) (s t : State), s.takesWord p.val (0x01 * 2 ^ 56 + n.toNat) t →
    (0 < n.toNat → exec (.vec p n) s = .next (((t.stepPc p.val).startRun p.val .rows n.toNat .next).stepTrap p.val)) ∧
    (n.toNat = 0 → exec (.vec p n) s = .next ((t.fatalTrap p.val cOperand).stepTrap p.val))) ∧
  (∀ (p : PilotNo) (n : BitVec 32) (s t : State), s.takesWord p.val (0x02 * 2 ^ 56 + n.toNat) t →
    (0 < n.toNat → exec (.rpt p n) s = .next (((t.stepPc p.val).startRun p.val .repeatRow n.toNat .next).stepTrap p.val)) ∧
    (n.toNat = 0 → exec (.rpt p n) s = .next ((t.fatalTrap p.val cOperand).stepTrap p.val))) ∧
  (∀ (p : PilotNo) (n : BitVec 32) (s t : State), s.takesWord p.val (0x03 * 2 ^ 56 + n.toNat) t →
    (0 < n.toNat → exec (.pad p n) s = .next (((t.stepPc p.val).startRun p.val .pad n.toNat .next).stepTrap p.val)) ∧
    (n.toNat = 0 → exec (.pad p n) s = .next ((t.fatalTrap p.val cOperand).stepTrap p.val))) ∧
  (∀ (p : PilotNo) (g : Fin 4) (n : BitVec 32) (s t : State), s.takesWord p.val (0x90 * 2 ^ 56 + g.val * 2 ^ 48 + n.toNat) t →
    (0 < n.toNat → hScanGroup (t.pilot p.val).hdr g.val ≠ 0 → exec (.scan p g n) s = .next ((((t.stepPc p.val).setSeq p.val
      { ((t.stepPc p.val).pilot p.val).q with scan := ceilDiv ((t.stepPc p.val).pilot p.val).q.scan 4 * 4 }).startRun p.val
      (.scan g.val) n.toNat .next).stepTrap p.val)) ∧
    ((n.toNat = 0 ∨ hScanGroup (t.pilot p.val).hdr g.val = 0) →
      exec (.scan p g n) s = .next ((t.fatalTrap p.val cOperand).stepTrap p.val)))

/-- JMP, CALL, RET, JMP_IND and JMP_ANZ go to the target of their branch-table entry once it is read, with the return point pushed or
popped and the register counted down (R128, R129, R136, R138); an index beyond the table, a full or an empty stack traps with no other
effect (R150). LOOP opens a level with its count and top; ENDL counts it down, and closes it at 0 or goes to the top (R138). -/
def Obligations.BranchInstructionsGoToTheirTargets : Prop :=
  (∀ (p : PilotNo) (b : BitVec 16) (bs : List Byte) (s t u : State), s.takesWord p.val (0x20 * 2 ^ 56 + b.toNat * 2 ^ 32) t →
    (b.toNat < hBranches (t.pilot p.val).hdr → t.branchEntry p.val b.toNat = (u, .done bs) → exec (.jmp p b) s =
      .next ((u.takeBranch p.val (entryTarget (ofBytes bs)).1 (entryTarget (ofBytes bs)).2.1 (entryTarget (ofBytes bs)).2.2).stepTrap
        p.val)) ∧
    (hBranches (t.pilot p.val).hdr ≤ b.toNat → exec (.jmp p b) s = .next ((t.fatalTrap p.val cOperand).stepTrap p.val))) ∧
  (∀ (p : PilotNo) (b : BitVec 16) (bs : List Byte) (s t u : State), s.takesWord p.val (0x21 * 2 ^ 56 + b.toNat * 2 ^ 32) t →
    let q := (t.pilot p.val).q
    (b.toNat < hBranches (t.pilot p.val).hdr → q.calls.length < 16 → t.branchEntry p.val b.toNat = (u, .done bs) → exec (.call p b) s =
      .next (((u.setSeq p.val { (u.pilot p.val).q with calls := q.calls ++ [(q.pc + 1, q.row, q.scan)] }).takeBranch p.val
        (entryTarget (ofBytes bs)).1 (entryTarget (ofBytes bs)).2.1 (entryTarget (ofBytes bs)).2.2).stepTrap p.val)) ∧
    (hBranches (t.pilot p.val).hdr ≤ b.toNat → exec (.call p b) s = .next ((t.fatalTrap p.val cOperand).stepTrap p.val)) ∧
    (b.toNat < hBranches (t.pilot p.val).hdr → 16 ≤ q.calls.length →
      exec (.call p b) s = .next ((t.fatalTrap p.val cStackOver).stepTrap p.val))) ∧
  (∀ (p : PilotNo) (s t : State), s.takesWord p.val (0x22 * 2 ^ 56) t →
    (∀ i r c, (t.pilot p.val).q.calls.getLast? = some (i, r, c) → exec (.ret p) s = .next (((t.setSeq p.val { (t.pilot p.val).q with
      calls := (t.pilot p.val).q.calls.dropLast }).takeBranch p.val i r c).stepTrap p.val)) ∧
    ((t.pilot p.val).q.calls = [] → exec (.ret p) s = .next ((t.fatalTrap p.val cStackUnder).stepTrap p.val))) ∧
  (∀ (p : PilotNo) (a : Fin 8) (bs : List Byte) (s t u : State), s.takesWord p.val (0x26 * 2 ^ 56 + a.val * 2 ^ 48) t →
    (t.aluReg p.val a.val % 65536 < hBranches (t.pilot p.val).hdr → t.branchEntry p.val (t.aluReg p.val a.val % 65536) = (u, .done bs) →
      exec (.jmpInd p a) s = .next ((u.takeBranch p.val (entryTarget (ofBytes bs)).1 (entryTarget (ofBytes bs)).2.1
        (entryTarget (ofBytes bs)).2.2).stepTrap p.val)) ∧
    (hBranches (t.pilot p.val).hdr ≤ t.aluReg p.val a.val % 65536 →
      exec (.jmpInd p a) s = .next ((t.fatalTrap p.val cTarget).stepTrap p.val))) ∧
  (∀ (p : PilotNo) (a : Fin 8) (b : BitVec 16) (bs : List Byte) (s t u : State),
    s.takesWord p.val (0x2B * 2 ^ 56 + a.val * 2 ^ 48 + b.toNat * 2 ^ 32) t →
    (b.toNat < hBranches (t.pilot p.val).hdr → t.aluReg p.val a.val = 0 →
      exec (.jmpAnz p a b) s = .next ((t.stepPc p.val).stepTrap p.val)) ∧
    (b.toNat < hBranches (t.pilot p.val).hdr → t.aluReg p.val a.val ≠ 0 → t.branchEntry p.val b.toNat = (u, .done bs) →
      exec (.jmpAnz p a b) s = .next (((u.setAlu p.val a.val (u.aluReg p.val a.val - 1)).takeBranch p.val (entryTarget (ofBytes bs)).1
        (entryTarget (ofBytes bs)).2.1 (entryTarget (ofBytes bs)).2.2).stepTrap p.val)) ∧
    (hBranches (t.pilot p.val).hdr ≤ b.toNat → exec (.jmpAnz p a b) s = .next ((t.fatalTrap p.val cOperand).stepTrap p.val))) ∧
  (∀ (p : PilotNo) (c : Fin 8) (b : BitVec 16) (n : BitVec 32) (bs : List Byte) (s t u : State),
    s.takesWord p.val (0x10 * 2 ^ 56 + c.val * 2 ^ 48 + b.toNat * 2 ^ 32 + n.toNat) t →
    let x := t.pilot p.val
    (0 < n.toNat → b.toNat < hBranches x.hdr → x.q.loops.length < 8 → (∀ l ∈ x.q.loops, l.counter ≠ c.val) →
      t.branchEntry p.val b.toNat = (u, .done bs) →
      let v := u.openLoop p.val c.val n.toNat b.toNat (ofBytes bs)
      exec (.loop p c b n) s = .next ((v.stepPc p.val).stepTrap p.val) ∧
      (∃ l, (v.pilot p.val).q.loops = (u.pilot p.val).q.loops ++ [l] ∧ l.counter = c.val ∧ l.top = b.toNat) ∧
      nget 0 c.val (v.pilot p.val).q.lc = n.toNat) ∧
    ((n.toNat = 0 ∨ hBranches x.hdr ≤ b.toNat) → exec (.loop p c b n) s = .next ((t.fatalTrap p.val cOperand).stepTrap p.val)) ∧
    (0 < n.toNat → b.toNat < hBranches x.hdr → (8 ≤ x.q.loops.length ∨ ∃ l ∈ x.q.loops, l.counter = c.val) →
      exec (.loop p c b n) s = .next ((t.fatalTrap p.val cLoopDepth).stepTrap p.val))) ∧
  (∀ (p : PilotNo) (c : Fin 8) (l : LoopLevel) (bs : List Byte) (s t u : State), s.takesWord p.val (0x11 * 2 ^ 56 + c.val * 2 ^ 48) t →
    (t.pilot p.val).q.loops.getLast? = some l →
    let v := (nget 0 c.val (t.pilot p.val).q.lc + 2 ^ 32 - 1) % 2 ^ 32
    let lc := nset 0 c.val v (t.pilot p.val).q.lc
    (l.counter ≠ c.val → exec (.endl p c) s = .next ((t.fatalTrap p.val cLoopNest).stepTrap p.val)) ∧
    (l.counter = c.val → v = 0 → exec (.endl p c) s =
      .next ((((t.setSeq p.val { (t.pilot p.val).q with lc := lc }).closeLoop p.val).stepPc p.val).stepTrap p.val)) ∧
    (l.counter = c.val → v ≠ 0 → l.top < hBranches (t.pilot p.val).hdr → t.branchEntry p.val l.top = (u, .done bs) →
      exec (.endl p c) s = .next (((u.setSeq p.val { (u.pilot p.val).q with lc := lc }).takeBranch p.val (entryTarget (ofBytes bs)).1
        (entryTarget (ofBytes bs)).2.1 (entryTarget (ofBytes bs)).2.2).stepTrap p.val))) ∧
  (∀ (p : PilotNo) (c : Fin 8) (s t : State), s.takesWord p.val (0x11 * 2 ^ 56 + c.val * 2 ^ 48) t → (t.pilot p.val).q.loops = [] →
    exec (.endl p c) s = .next ((t.fatalTrap p.val cLoopNest).stepTrap p.val))

/-- FAIL_MARK covers what follows; JMP_FAIL and JMP_PASS issue the horizon's pads and then decide on the covered vectors, and decide at
once when none is covered; PV_CAPT issues the pads and takes the last vector's states, or before any vector of the leg free bits; MATCH
moves its body's rows into the match buffer, and is not taken while they are not all there (R143, R144, R147). The model's choices on
which this rests: log entries 27 and 105. -/
def Obligations.FailInstructionsAct : Prop :=
  (∀ (p : PilotNo) (s t : State), s.takesWord p.val (0x23 * 2 ^ 56) t → exec (.failMark p) s =
    .next (((t.setLeg p.val { (t.pilot p.val).leg with failMark := (t.pilot p.val).q.next, fails := [] }).stepPc p.val).stepTrap p.val)) ∧
  (∀ (p : PilotNo) (g : Fin 8) (b : BitVec 16) (s t : State),
    s.takesWord p.val (0x24 * 2 ^ 56 + g.val * 2 ^ 48 + b.toNat * 2 ^ 32) t → b.toNat < hBranches (t.pilot p.val).hdr →
    ((t.pilot p.val).q.next ≤ (t.pilot p.val).leg.failMark → exec (.jmpFail p g b) s = .next ((t.stepPc p.val).stepTrap p.val)) ∧
    ((t.pilot p.val).leg.failMark < (t.pilot p.val).q.next → exec (.jmpFail p g b) s =
      .next (((t.stepPc p.val).startRun p.val .pad (legHpad (t.pilot p.val).leg.entry)
        (.failBranch true g.val b.toNat ((t.pilot p.val).q.next - 1))).stepTrap p.val))) ∧
  (∀ (p : PilotNo) (g : Fin 8) (b : BitVec 16) (s t : State),
    s.takesWord p.val (0x25 * 2 ^ 56 + g.val * 2 ^ 48 + b.toNat * 2 ^ 32) t → b.toNat < hBranches (t.pilot p.val).hdr →
    ((t.pilot p.val).q.next ≤ (t.pilot p.val).leg.failMark → exec (.jmpPass p g b) s =
      .next ((t.branchTo p.val b.toNat cOperand).stepTrap p.val)) ∧
    ((t.pilot p.val).leg.failMark < (t.pilot p.val).q.next → exec (.jmpPass p g b) s =
      .next (((t.stepPc p.val).startRun p.val .pad (legHpad (t.pilot p.val).leg.entry)
        (.failBranch false g.val b.toNat ((t.pilot p.val).q.next - 1))).stepTrap p.val))) ∧
  (∀ (p : PilotNo) (bit : Bool) (v : Fin 8) (m : BitVec 48) (s t : State),
    s.takesWord p.val (0x82 * 2 ^ 56 + b2n bit * 2 ^ 52 + v.val * 2 ^ 48 + m.toNat) t → 0 < (t.pilot p.val).q.next →
    exec (.pvCapt p bit v m) s = .next ((((t.setLeg p.val { (t.pilot p.val).leg with keepIndex := some ((t.pilot p.val).q.next - 1)
      }).stepPc p.val).startRun p.val .pad (legHpad (t.pilot p.val).leg.entry) (.pvCapt bit v.val m.toNat ((t.pilot p.val).q.next - 1))).stepTrap
      p.val)) ∧
  (∀ (p : PilotNo) (bit : Bool) (v : Fin 8) (m : BitVec 48) (s t : State),
    s.takesWord p.val (0x82 * 2 ^ 56 + b2n bit * 2 ^ 52 + v.val * 2 ^ 48 + m.toNat) t → (t.pilot p.val).q.next = 0 →
    exec (.pvCapt p bit v m) s = .next (((t.freeBits p.val v.val m.toNat).stepPc p.val).stepTrap p.val)) ∧
  (∀ (p : PilotNo) (g : Fin 8) (b : BitVec 16) (k1 : BitVec 12) (t1 : BitVec 20) (s t : State),
    s.takesWord p.val (0x28 * 2 ^ 56 + g.val * 2 ^ 48 + b.toNat * 2 ^ 32 + k1.toNat * 2 ^ 20 + t1.toNat) t →
    let x := t.pilot p.val
    b.toNat < hBranches x.hdr → x.q.row + (k1.toNat + 1) ≤ hVecRows x.hdr →
    ((k1.toNat + 1) * hRowBytes x.hdr ≤ x.str.fifo.length → x.str.fifoLo = x.q.row * hRowBytes x.hdr →
      exec (.matchLoop p g b k1 t1) s = .next ((t.loadMatch p.val g.val b.toNat (k1.toNat + 1) (t1.toNat + 1)).stepTrap p.val)) ∧
    ((x.str.fifo.length < (k1.toNat + 1) * hRowBytes x.hdr ∨ x.str.fifoLo ≠ x.q.row * hRowBytes x.hdr) →
      exec (.matchLoop p g b k1 t1) s = .next (t.stepTrap p.val)))

/-- ALU_SET, ALU_ADD, LEGEND_SEL, TSET, PV_LOAD, PV_XOR, END_LEG and FFAIL_ARM set the sequencer's own state and move the counter on
(R124, R135, R136, R139). -/
def Obligations.SequencerInstructionsSetItsState : Prop :=
  (∀ (p : PilotNo) (a : Fin 8) (imm : BitVec 32) (s t : State), s.takesWord p.val (0x29 * 2 ^ 56 + a.val * 2 ^ 48 + imm.toNat) t →
    exec (.aluSet p a imm) s = .next (((t.setAlu p.val a.val imm.toNat).stepPc p.val).stepTrap p.val)) ∧
  (∀ (p : PilotNo) (a : Fin 8) (imm : BitVec 32) (s t : State), s.takesWord p.val (0x2A * 2 ^ 56 + a.val * 2 ^ 48 + imm.toNat) t →
    exec (.aluAdd p a imm) s = .next (((t.setAlu p.val a.val (t.aluReg p.val a.val + imm.toNat)).stepPc p.val).stepTrap p.val)) ∧
  (∀ (p : PilotNo) (bank : Fin 2) (s t : State), s.takesWord p.val (0x38 * 2 ^ 56 + bank.val) t → exec (.legendSel p bank) s =
    .next (((t.setSeq p.val { (t.pilot p.val).q with bank := bank.val }).stepPc p.val).stepTrap p.val)) ∧
  (∀ (p : PilotNo) (k : BitVec 11) (s t : State), s.takesWord p.val (0x3A * 2 ^ 56 + k.toNat) t → exec (.tset p k) s =
    .next (((t.setSeq p.val { (t.pilot p.val).q with tset := k.toNat }).stepPc p.val).stepTrap p.val)) ∧
  (∀ (p : PilotNo) (v : Fin 8) (m : BitVec 48) (s t : State), s.takesWord p.val (0x80 * 2 ^ 56 + v.val * 2 ^ 48 + m.toNat) t →
    exec (.pvLoad p v m) s = .next (((t.setSeq p.val { (t.pilot p.val).q with v := nset 0 v.val m.toNat (t.pilot p.val).q.v }).stepPc
      p.val).stepTrap p.val)) ∧
  (∀ (p : PilotNo) (v : Fin 8) (m : BitVec 48) (s t : State), s.takesWord p.val (0x81 * 2 ^ 56 + v.val * 2 ^ 48 + m.toNat) t →
    exec (.pvXor p v m) s = .next (((t.setSeq p.val { (t.pilot p.val).q with
      v := nset 0 v.val (Nat.xor (nget 0 v.val (t.pilot p.val).q.v) m.toNat) (t.pilot p.val).q.v }).stepPc p.val).stepTrap p.val)) ∧
  (∀ (p : PilotNo) (last : Bool) (s t : State), s.takesWord p.val (0x42 * 2 ^ 56 + b2n last) t → exec (.endLeg p last) s =
    .next (((t.setLeg p.val { (t.pilot p.val).leg with ending := if last then 2 else 1 }).stepPc p.val).stepTrap p.val)) ∧
  (∀ (p : PilotNo) (s t : State), s.takesWord p.val (0x51 * 2 ^ 56) t → exec (.ffailArm p) s =
    .next (((t.ffRearm p.val).stepPc p.val).stepTrap p.val))

/-- MS_POST, SXT_WIN, SXT_ARM and DDS_HOP act when the next period begins, and CAP_CTL switches capture, on what the job owns; what it
does not own traps (R139, R142, R204, R213, R241, R264). -/
def Obligations.InstructionsOnWhatTheJobOwns : Prop :=
  (∀ (p : PilotNo) (q : Fin 16) (tag : BitVec 16) (s t : State), s.takesWord p.val (0x34 * 2 ^ 56 + q.val * 2 ^ 48 + tag.toNat) t →
    exec (.msPost p q tag) s = .next (((t.defer p.val (.post ((t.pjob p.val).queue q.val)
      (reportHead 1 p.val (t.pilot p.val).leg.index + tag.toNat))).stepPc p.val).stepTrap p.val)) ∧
  (∀ (p : PilotNo) (ch : Fin 64) (opens len : BitVec 24) (s t : State),
    s.takesWord p.val (0x60 * 2 ^ 56 + ch.val * 2 ^ 48 + opens.toNat * 2 ^ 24 + len.toNat) t → ch.val ≤ 51 →
    (bitAt (t.pjob p.val).sxtChans ch.val = true → exec (.sxtWin p ch opens len) s =
      .next (((t.defer p.val (.window ch.val opens.toNat len.toNat)).stepPc p.val).stepTrap p.val)) ∧
    (bitAt (t.pjob p.val).sxtChans ch.val = false → exec (.sxtWin p ch opens len) s =
      .next ((t.fatalTrap p.val cNotOwned).stepTrap p.val))) ∧
  (∀ (p : PilotNo) (arm : Bool) (mask : BitVec 52) (s t : State), s.takesWord p.val (0x61 * 2 ^ 56 + b2n arm * 2 ^ 52 + mask.toNat) t →
    (Nat.land mask.toNat (t.pjob p.val).sxtChans = mask.toNat → exec (.sxtArm p arm mask) s =
      .next (((t.defer p.val (.arm mask.toNat arm)).stepPc p.val).stepTrap p.val)) ∧
    (Nat.land mask.toNat (t.pjob p.val).sxtChans ≠ mask.toNat → exec (.sxtArm p arm mask) s =
      .next ((t.fatalTrap p.val cNotOwned).stepTrap p.val))) ∧
  (∀ (p : PilotNo) (e : Fin 8) (entry : BitVec 12) (s t : State), s.takesWord p.val (0x70 * 2 ^ 56 + e.val * 2 ^ 48 + entry.toNat) t →
    (bitAt (t.pjob p.val).ddsEngines e.val = true → exec (.ddsHop p e entry) s =
      .next (((t.defer p.val (.hop e.val entry.toNat)).stepPc p.val).stepTrap p.val)) ∧
    (bitAt (t.pjob p.val).ddsEngines e.val = false → exec (.ddsHop p e entry) s =
      .next ((t.fatalTrap p.val cNotOwned).stepTrap p.val))) ∧
  (∀ (p : PilotNo) (g : Fin 8) (ct total : Bool) (s t : State),
    s.takesWord p.val (0x50 * 2 ^ 56 + g.val * 2 ^ 48 + b2n ct * 2 ^ 1 + b2n total) t →
    let grp := hGroup (t.pilot p.val).hdr g.val
    (t.capRefused p.val grp ct total = false → exec (.capCtl p g ct total) s = .next (((t.setStr p.val { (t.pilot p.val).str with
      total := switchBits grp total (t.pilot p.val).str.total,
      ct := switchBits grp ct (t.pilot p.val).str.ct }).stepPc p.val).stepTrap p.val)) ∧
    (t.capRefused p.val grp ct total = true → exec (.capCtl p g ct total) s = .next ((t.fatalTrap p.val cNotOwned).stepTrap p.val)))

/-- WAIT_ODO pads to its reading, and a late one goes on at once with odo_late shown, or traps when its late bit says so. WAYPT sets the
waypoint, and holds a streaming stallable leg whose guard is short. JMP_ABS holds at a waypoint of a stallable leg until its target is
fetched, and traps anywhere else. LEG_START waits for the leg's start, and ends the job with LEG_LATE when a start relative to the last
leg's end comes too soon. A user opcode that is loaded and allowed enters its routine; any other traps (R129, R132, R137, R140, R150,
R167, R193). The model's choices on which this rests: log entries 66, 82 and 102. -/
def Obligations.WaitingInstructionsAct : Prop :=
  (∀ (p : PilotNo) (lf : Bool) (d : BitVec 48) (s t : State), s.takesWord p.val (0x30 * 2 ^ 56 + b2n lf * 2 ^ 48 + d.toNat) t →
    let x := t.pilot p.val
    let want := ceilDiv d.toNat (legD x.leg.entry)
    let v := t.setSeq p.val { x.q with odoCmp := x.leg.s88 + d.toNat * fracOne, odoLate := false }
    let late := t.fput fPLT_LEG_STATUS_odo_late p.val 1
    (want = x.q.next → exec (.waitOdo p lf d) s = .next ((v.stepPc p.val).stepTrap p.val)) ∧
    (x.q.next < want → exec (.waitOdo p lf d) s =
      .next (((v.stepPc p.val).startRun p.val .pad (want - x.q.next) .next).stepTrap p.val)) ∧
    (want < x.q.next → lf = false → exec (.waitOdo p lf d) s = .next (((late.setSeq p.val { x.q with
      odoCmp := x.leg.s88 + d.toNat * fracOne, odoLate := true }).stepPc p.val).stepTrap p.val)) ∧
    (want < x.q.next → lf = true → exec (.waitOdo p lf d) s = .next ((late.fatalTrap p.val cOdoLate).stepTrap p.val))) ∧
  (∀ (p : PilotNo) (h : BitVec 8) (s t v : State), s.takesWord p.val (0x40 * 2 ^ 56 + h.toNat) t →
    (hRowtabRows (t.pilot p.val).hdr ≤ h.toNat → exec (.waypt p h) s = .next ((t.fatalTrap p.val cOperand).stepTrap p.val)) ∧
    (h.toNat < hRowtabRows (t.pilot p.val).hdr →
      v = (t.setSeq p.val { (t.pilot p.val).q with waypoint := some h.toNat, pastWay := false }).stepPc p.val →
      ((legStallable (t.pilot p.val).leg.entry = false ∨ (v.pjob p.val).streams = false) →
        exec (.waypt p h) s = .next (v.stepTrap p.val)) ∧
      (legStallable (t.pilot p.val).leg.entry = true → (v.pjob p.val).streams = true →
        let r := v.rowBeyond p.val
        (r.1.guardOk p.val r.2.row = true → exec (.waypt p h) s = .next (r.1.stepTrap p.val)) ∧
        (r.1.guardOk p.val r.2.row = false →
          exec (.waypt p h) s = .next ((r.1.beginHold p.val r.2.row .holdEnd r.2.tgts).stepTrap p.val))))) ∧
  (∀ (p : PilotNo) (a : Fin 8) (s t : State), s.takesWord p.val (0x27 * 2 ^ 56 + a.val * 2 ^ 48) t →
    let x := t.pilot p.val
    let i := t.aluReg p.val a.val
    let r := t.aluReg p.val (a.val + 1)
    (x.q.waypoint.isSome = true → legStallable x.leg.entry = true → i < hInstrWords x.hdr → r ≤ hVecRows x.hdr →
      exec (.jmpAbs p a) s = .next (((t.stepPc p.val).beginHold p.val r (.absolute i r) [(i, r, 0)]).stepTrap p.val)) ∧
    ((x.q.waypoint = none ∨ legStallable x.leg.entry = false ∨ hInstrWords x.hdr ≤ i ∨ hVecRows x.hdr < r) →
      exec (.jmpAbs p a) s = .next ((t.fatalTrap p.val cTarget).stepTrap p.val))) ∧
  (∀ (p : PilotNo) (l : BitVec 12) (bs : List Byte) (s t u v : State), s.takesWord p.val (0x41 * 2 ^ 56 + l.toNat) t →
    (hLegs (t.pilot p.val).hdr ≤ l.toNat → exec (.legStart p l) s = .next ((t.fatalTrap p.val cOperand).stepTrap p.val)) ∧
    (l.toNat < hLegs (t.pilot p.val).hdr → t.legEntry p.val l.toNat = (u, .done bs) → v = u.stepPc p.val →
      let y := v.pilot p.val
      let soon := decide (v.relativeN p.val (ofBytes bs) <
        y.e88 + legReach (ofBytes bs) + (v.mer (v.pjob p.val).meridian).spanAtMax 20000)
      ((legMode (ofBytes bs) ≠ 1 ∨ y.resumed = true ∨ soon = false) → exec (.legStart p l) s =
        .next ((v.setPilot p.val { y with st := .awaiting, awaitLeg := l.toNat, awaitEntry := ofBytes bs }).stepTrap p.val)) ∧
      (legMode (ofBytes bs) = 1 → y.resumed = false → soon = true → exec (.legStart p l) s =
        .next (((v.setPilot p.val { y with awaitLeg := l.toNat, awaitEntry := ofBytes bs }).endJob y.job .legLate).stepTrap p.val)))) ∧
  (∀ (p : PilotNo) (op : Fin 64) (operand : BitVec 56) (e : Nat) (s u t : State), (s.pilot p.val).takes = true →
    s.readCs (p.val / 4) (dispKey (0xC0 + op.val)) = (u, e, false) →
    t = u.setSeq p.val { (u.pilot p.val).q with opr := (0xC0 + op.val) * 2 ^ 56 + operand.toNat, upc := bits e 13 0 } →
    let x := u.pilot p.val
    let place := if t.legRuns p.val then bitAt e 16 else bitAt e 17
    let away := bitAt e 20 && (x.q.waypoint.isNone || !legStallable x.leg.entry)
    (bitAt e 14 = true → place = true → away = false → exec (.userOpcode p op operand) s = .next (t.setSeq p.val
      { (t.pilot p.val).q with inRoutine := true, entry := e, first := true })) ∧
    (bitAt e 14 = false → exec (.userOpcode p op operand) s = .next (t.fatalTrap p.val cOpcode)) ∧
    (bitAt e 14 = true → place = false → exec (.userOpcode p op operand) s = .next (t.fatalTrap p.val cNotInLeg)) ∧
    (bitAt e 14 = true → place = true → away = true → exec (.userOpcode p op operand) s = .next (t.fatalTrap p.val cTarget)))

/-! ### Microwords, strides, periods and results (chapters 05, 06, 07, 08) -/

/-- A microword of a routine that issues no vector acts at once: the table entries that it needs are read, all its effects happen
together, and it goes to the address that its SEQ operation gives, with tests and registers as they were before it (the test of one that
issues vectors was made before them); one that starts a leg then waits for it. A word that needs no entry reads nothing. A WAIT begins to
wait, and one that reaches its limit acts and goes to its target; a TRAP traps with its own cause, and a word that could not complete
traps before it acts (R155, R156, R158, R163, R173). The model's choices on which this rests: log entries 27, 103 and 104. -/
def Obligations.MicrowordsRun : Prop :=
  ∀ (p : PilotNo) (s : State),
    let q := (s.pilot p.val).q
    (∀ (w : BitVec 192) (x top leg : Nat) (br : Option Nat) (v u : State), s.runsWord p.val x → s.wordTrap p.val x = none →
      (bits (mwMatch x) 2 0 = 1 → (s.pilot p.val).bodyMissing (bits q.opr 31 20 + 1) = false) →
      s.wordNeeds p.val x (if s.rbrTaken p.val x && !loopLeaves x q then (rbrIndex x q (s.pilot p.val).leg.matchSt).map (·.1) else none) =
        (v, some (top, br, leg)) → u = v.wordActs p.val x top →
      let fin (z : State) : State := if mwAux x = 6 then z.awaitStart p.val (bits q.opr 11 0) leg else z
      (x = setBits (w.toNat % 2 ^ 192) 191 188 0 → exec (.seqCont p w) s = .next (fin (u.wordGoes p.val (q.upc + 1)))) ∧
      (x = setBits (w.toNat % 2 ^ 192) 191 188 1 → exec (.seqJump p w) s = .next (fin (u.wordGoes p.val (mwTgt x)))) ∧
      (x = setBits (w.toNat % 2 ^ 192) 191 188 2 → exec (.seqBranch p w) s =
        .next (fin (u.wordGoes p.val (if v.wordTest p.val x then mwTgt x else q.upc + 1)))) ∧
      (x = setBits (w.toNat % 2 ^ 192) 191 188 3 → exec (.seqMcall p w) s = .next (fin ((u.setSeq p.val { (u.pilot p.val).q with
        mstack := q.mstack ++ [q.upc + 1] }).wordGoes p.val (mwTgt x)))) ∧
      (∀ a, x = setBits (w.toNat % 2 ^ 192) 191 188 4 → q.mstack.getLast? = some a → exec (.seqMret p w) s =
        .next (fin ((u.setSeq p.val { (u.pilot p.val).q with mstack := q.mstack.dropLast }).wordGoes p.val a))) ∧
      (x = setBits (w.toNat % 2 ^ 192) 191 188 6 → exec (.seqNext p w) s = .next (fin (u.endRoutine p.val))) ∧
      (x = setBits (w.toNat % 2 ^ 192) 191 188 7 →
        ((s.rbrTaken p.val x && !loopLeaves x q) = true → exec (.seqRbr p w) s = .next (fin (u.routineBranches p.val x q br))) ∧
        ((s.rbrTaken p.val x && !loopLeaves x q) = false → exec (.seqRbr p w) s = .next (fin (u.endRoutine p.val)))) ∧
      (x = setBits (w.toNat % 2 ^ 192) 191 188 8 → exec (.seqMtab p w) s =
        .next (fin (u.wordGoes p.val (mwTgt x + uReg q 0 % 16))))) ∧
    (∀ x : Nat, bits (mwLoop x) 11 9 ≠ 1 → mwAux x ≠ 6 → s.wordNeeds p.val x none = (s, some (0, none, 0))) ∧
    (∀ (w : BitVec 192) (x : Nat), s.runsWord p.val x →
      (x = setBits (w.toNat % 2 ^ 192) 191 188 9 → exec (.seqTrap p w) s = .next (s.fatalTrap p.val (bits (mwImm x) 7 0))) ∧
      (x = setBits (w.toNat % 2 ^ 192) 191 188 5 → s.wordTrap p.val x = none → exec (.seqWait p w) s = .next (s.setSeq p.val { q with
        run := some { src := .pad, left := 0, after := .wait x 0, noFail := bitAt (mwFail x) 3, way := q.waypoint } }))) ∧
    (∀ (w : BitVec 192) (x cause : Nat), s.runsWord p.val x → s.wordTrap p.val x = some cause →
      (x = setBits (w.toNat % 2 ^ 192) 191 188 0 → exec (.seqCont p w) s = .next (s.fatalTrap p.val cause)) ∧
      (x = setBits (w.toNat % 2 ^ 192) 191 188 1 → exec (.seqJump p w) s = .next (s.fatalTrap p.val cause)) ∧
      (x = setBits (w.toNat % 2 ^ 192) 191 188 2 → exec (.seqBranch p w) s = .next (s.fatalTrap p.val cause)) ∧
      (x = setBits (w.toNat % 2 ^ 192) 191 188 3 → exec (.seqMcall p w) s = .next (s.fatalTrap p.val cause)) ∧
      (x = setBits (w.toNat % 2 ^ 192) 191 188 4 → exec (.seqMret p w) s = .next (s.fatalTrap p.val cause)) ∧
      (x = setBits (w.toNat % 2 ^ 192) 191 188 5 → exec (.seqWait p w) s = .next (s.fatalTrap p.val cause)) ∧
      (x = setBits (w.toNat % 2 ^ 192) 191 188 6 → exec (.seqNext p w) s = .next (s.fatalTrap p.val cause)) ∧
      (x = setBits (w.toNat % 2 ^ 192) 191 188 7 → exec (.seqRbr p w) s = .next (s.fatalTrap p.val cause)) ∧
      (x = setBits (w.toNat % 2 ^ 192) 191 188 8 → exec (.seqMtab p w) s = .next (s.fatalTrap p.val cause))) ∧
    (∀ x : Nat, q.run = none → s.wordTest p.val x = s.mwTest p.val x) ∧
    (∀ (x : Nat) (r : Run), q.run = some r → mwHorizon x = false → mwOp x ≠ 5 → s.wordTest p.val x = r.test) ∧
    (∀ (r : Run) (x count top leg : Nat) (br : Option Nat) (v : State), q.run = some r → r.after = .wait x count → r.left = 0 →
      s.mwTest p.val x = false → s.waitLimit p.val x = some count → mwOp x = 5 → s.wordTrap p.val x = none →
      (bits (mwMatch x) 2 0 = 1 → (s.pilot p.val).bodyMissing (bits q.opr 31 20 + 1) = false) →
      s.wordNeeds p.val x none = (v, some (top, br, leg)) →
      let z := (v.wordActs p.val x top).wordGoes p.val (mwTgt x)
      exec (.seqWaitTimeout p) s = .next (if mwAux x = 6 then z.awaitStart p.val (bits q.opr 11 0) leg else z))

/-- A stride issues the next vector of its run and goes on with what is left of it, or stops where no vector can be issued; a Pilot that
does not work issues nothing. A period takes its pin's oldest vector and places its edges, or is underrun; a sample's result reaches the
fail logic 32 Pilot cycles after its strobe closed, with the state that the comparators give (R28, R29, R30, R74, R127, R185). The model's
choices on which this rests: log entries 62, 67, 99, 101, 105 and 106. -/
def Obligations.StridesPeriodsAndResults : Prop :=
  (∀ (p : PilotNo) (s u : State), u = (s.doHoldEnd p.val).setSeq p.val { ((s.doHoldEnd p.val).pilot p.val).q with closed := false } →
    ((u.pilot p.val).works = false → exec (.stride p) s = .next u) ∧
    (∀ r v, (u.pilot p.val).works = true → (u.pilot p.val).q.run = some r → 0 < r.left → (u.pilot p.val).st ≠ .holding →
      (u.issueOne p.val r = (v, true) → exec (.stride p) s = .next (v.strideLoop p.val
        (({ instrs := (u.pilot p.val).carried } : Budget).take ((u.pilot p.val).runOf r.src)) 127)) ∧
      (u.issueOne p.val r = (v, false) → exec (.stride p) s = .next v))) ∧
  (∀ (n : PinNo) (p t : Nat) (s u : State), s.pinLeg n.val = some p →
    (∀ v rest, (s.pin n.val).issueQ = v :: rest →
      (s.mer (s.pjob p).meridian).instantOf ((s.pilot p).leg.periodAt v.index) = some t →
      u = ((s.advance t).setPin n.val { (s.advance t).pin n.val with issueQ := rest }).periodBegins p v.index t (s.pilot p).leg.begun →
      exec (.vectorPeriod n) s = .next (((u.placeDrive p n.val v ((s.pilot p).leg.periodAt v.index)).placeStrobe p n.val v
        ((s.pilot p).leg.periodAt v.index)).settle p)) ∧
    ((s.pin n.val).issueQ = [] → (s.pilot p).leg.ending = 0 →
      (s.mer (s.pjob p).meridian).instantOf ((s.pilot p).leg.periodAt (s.pilot p).q.next) = some t →
      u = (s.advance t).lateFaults p → exec (.vectorPeriod n) s =
        .next (((if u.fbit fPLT_LEG_STATUS_started p then u else u.reportStart p).setLeg p { (s.pilot p).leg with
          begun := max (s.pilot p).leg.begun ((s.pilot p).q.next + 1) }).killLeg p 4 0 (some (s.pilot p).q.next)))) ∧
  (∀ (n : PinNo) (nv : Int) (crossing held : Bool) (p st : Nat) (a : Sample) (rest : List Sample) (s w u : State),
    (s.pin n.val).samples = a :: rest → (s.pilotPins p).contains n.val = true → p < 16 → (s.pilot p).leg.results ≠ [] →
    (∀ q < 16, q ≠ p → (s.pilotPins q).contains n.val = false) →
    st = (if s.cmpOn n.val = false then 0 else if crossing then 2 else s.cmpAt n.val nv) →
    w = (s.feelVoltage n.val nv).advance (a.closes + 32 * pilotCycle) → u = w.setPin n.val { w.pin n.val with samples := rest } →
    exec (.compareResultArrival n ⟨nv, crossing⟩ held) s = .next (((u.setLeg p { (u.pilot p).leg with
      results := (u.pilot p).leg.results.map (fun v => v.judge a st held) }).settle p).haltIfDue))

/-- A streaming Pilot's window follows its fill elements, or rejects them; slots take the first bytes of a target's vectors and
instructions; playout takes the next rows and looks ahead, or notes the row that is missing; a hold ends when its guard is resident and
its targets are in slots, or its limit is reached; capture blocks and records are written or meet their fault, and a marker follows the
last of a leg; a bad control-store word is reloaded with its block, and scrub reads every marked word (R130, R168 to R171, R182, R188,
R189, R195, R196, R205, R208). The model's choices on which this rests: log entries 22, 82 and 83. -/
def Obligations.StreamsHoldsAndCapturesRun : Prop :=
  (∀ (p : PilotNo) (e : Nat) (s u : State), (s.pilot p.val).st ≠ .noJob → (s.pjob p.val).streams = true →
    s.qTake (strFillQ (s.pilot p.val).strDesc) = some (e, u) →
    (((u.floorOf p.val ≤ bits e 63 0 ∧ bits e 63 0 ≤ u.fget fPLT_STRM_HI_hi p.val) ∨
        (s.pilot p.val).st = .holding ∨ u.legRuns p.val = false) → exec (.fillElement p) s =
      .next ((u.fput fPLT_STRM_LO_lo p.val (bits e 63 0)).fput fPLT_STRM_HI_hi p.val (bits e 127 64))) ∧
    (¬ (u.floorOf p.val ≤ bits e 63 0 ∧ bits e 63 0 ≤ u.fget fPLT_STRM_HI_hi p.val) →
      (s.pilot p.val).st ≠ .holding → u.legRuns p.val = true →
      exec (.fillElement p) s = .next (u.bump fPLT_STRM_STAT_fill_rejected p.val))) ∧
  (∀ (p : PilotNo) (i r c : Nat) (rest : List (Nat × Nat × Nat)) (bs code : List Byte) (s u v : State), (s.pilot p.val).st ≠ .noJob →
    (s.pilot p.val).missing = (i, r, c) :: rest →
    s.readVec p.val (r * hRowBytes (s.pilot p.val).hdr) (min 4096 (vecBytes (s.pilot p.val).hdr - r * hRowBytes (s.pilot p.val).hdr)) =
      (u, some bs) → u.readCode p.val i = (v, some code) → exec (.slotFill p) s = .next ((v.setStr p.val { (v.pilot p.val).str with
      slots := (if (v.pilot p.val).str.slots.length < 64 then (v.pilot p.val).str.slots else (v.pilot p.val).str.slots.drop 1) ++
        [⟨i, r, c, bs, code⟩] }).setFloor p.val |>.lookAhead p.val)) ∧
  (∀ (p : PilotNo) (bs : List Byte) (s u : State), let x := s.pilot p.val
    let rb := hRowBytes x.hdr
    let at' := x.str.fifoLo + x.str.fifo.length
    let n := min 256 (s.rowsEnd p.val - at')
    x.st ≠ .noJob → rb ≠ 0 →
    (at' < vecBytes x.hdr → s.resident p.val at' (rb - at' % rb) = false →
      exec (.playoutFetch p) s = .next (s.setStr p.val { x.str with need := some (at' / rb * rb) })) ∧
    ((vecBytes x.hdr ≤ at' ∨ s.resident p.val at' (rb - at' % rb) = true) → ceilDiv (x.str.fifo.length + n) rb ≤ 65536 →
      s.readVec p.val at' n = (u, some bs) → exec (.playoutFetch p) s =
        .next ((u.setStr p.val { (u.pilot p.val).str with fifo := (u.pilot p.val).str.fifo ++ bs, need := none }).lookAhead p.val))) ∧
  (∀ (p : PilotNo) (s : State), (s.pilot p.val).st = .holding →
    (∀ row r, (s.pilot p.val).holdAt = some row → (s.pilot p.val).q.run = some r →
      (s.guardResident p.val row = true → (s.pilot p.val).holdFilled = true → exec (.holdEnd p) s = .next (s.leaveHold p.val r)) ∧
      ((s.guardResident p.val row = false ∨ (s.pilot p.val).holdFilled = false) → exec (.holdEnd p) s = .next s)) ∧
    (s.fget fPLT_HOLD_LIMIT_limit p.val ≠ 0 → s.fget fPLT_HOLD_LIMIT_limit p.val ≤ (s.pilot p.val).holdVecs →
      exec (.holdLimit p) s = .next (s.killLeg p.val 4 0 (some (s.pilot p.val).q.next)))) ∧
  (∀ (n : PinNo) (b : CapBlock) (rest : List CapBlock) (v : Nat) (s w u : State), (s.pin n.val).capQ = b :: rest →
    s.blockBytes b = (w, .ok v) →
    (w.dvaWrite b.pilot (portCP (b.pilot / 4)) .realTime b.space b.dva (bytesOf 256 v) = (u, none) →
      exec (.captureBlockWrite n) s = .next (u.setPin n.val { u.pin n.val with capQ := rest })) ∧
    (∀ f, w.dvaWrite b.pilot (portCP (b.pilot / 4)) .realTime b.space b.dva (bytesOf 256 v) = (u, some f) →
      exec (.captureBlockWrite n) s = .next (u.raiseFault f).1)) ∧
  (∀ (n : PinNo) (b : CapBlock) (rest : List CapBlock) (s w u : State), (s.pin n.val).capQ = b :: rest →
    (∀ f, s.blockBytes b = (w, .error (some f)) → exec (.captureBlockWrite n) s = .next (w.raiseFault f).1) ∧
    (s.blockBytes b = (w, .error none) → u = (wholeBeats b).foldl (fun (v : State) e =>
        (v.dvaWrite b.pilot (portCP (b.pilot / 4)) .realTime b.space (b.dva + e.1) (bytesOf 32 e.2)).1) w →
      exec (.captureBlockWrite n) s = .next (u.setPin n.val { u.pin n.val with capQ := rest }))) ∧
  (∀ (n : PinNo) (p : Nat) (e : Nat × Nat × Nat × Nat) (s u : State), (s.pin n.val).capQ = [] →
    (List.range 16).find? (fun p => (s.pilot p).str.ctQ.any (fun e => e.1 == n.val)) = some p →
    (s.pilot p).str.ctQ.find? (fun e => e.1 == n.val) = some e →
    (s.dvaWrite p (portCP (p / 4)) .realTime e.2.2.1 e.2.1 (bytesOf 32 e.2.2.2) = (u, none) →
      exec (.captureBlockWrite n) s = .next (u.setStr p { (u.pilot p).str with ctQ := (u.pilot p).str.ctQ.erase e })) ∧
    (∀ f, s.dvaWrite p (portCP (p / 4)) .realTime e.2.2.1 e.2.1 (bytesOf 32 e.2.2.2) = (u, some f) →
      exec (.captureBlockWrite n) s = .next (u.raiseFault f).1)) ∧
  (∀ (p : PilotNo) (q elem : Nat) (rest : List (Nat × Nat)) (s : State), (s.pilot p.val).str.markers = (q, elem) :: rest →
    ((s.pilot p.val).str.ctQ = [] → (∀ e ∈ s.pins, ∀ b ∈ e.2.capQ, b.pilot ≠ p.val) → s.portQuiet (portCP (p.val / 4)) = true →
      exec (.captureMarker p) s = .next ((s.setStr p.val { (s.pilot p.val).str with markers := rest }).report q 32 elem)) ∧
    (((s.pilot p.val).str.ctQ ≠ [] ∨ (∃ e ∈ s.pins, ∃ b ∈ e.2.capQ, b.pilot = p.val) ∨ s.portQuiet (portCP (p.val / 4)) = false) →
      exec (.captureMarker p) s = .next s)) ∧
  (∀ (c : ClusterNo) (k : Nat) (rest : List Nat) (ok bad : Bool) (ws : List (Nat × Nat)) (s u v w : State),
    (s.cluster c.val).reload = k :: rest →
    u = (s.setCluster c.val { s.cluster c.val with reload := rest }).fput fPLT_CS_STAT_reloading c.val (b2n (rest != [])) →
    (u.reloadWords c.val k ok = (v, none) → exec (.controlStoreReload c ok bad) s = .next (v.fput fPLT_CS_STAT_user_lost c.val 1)) ∧
    (u.reloadWords c.val k ok = (v, some ws) → w = (v.fput fPLT_CS_STAT_hard_fault c.val 1).logWrite 0x08 (22 + c) c.val 0 →
      let x := (v.cluster c.val).rewritten k ws
      (bad = true → exec (.controlStoreReload c ok bad) s = .next (((w.setCluster c.val { x with
        marks := nset EccMark.clean k .double x.marks }).refreshBlock c.val k).resumeReloaded c.val k)) ∧
      (bad = false → exec (.controlStoreReload c ok bad) s =
        .next (((v.setCluster c.val x).refreshBlock c.val k).resumeReloaded c.val k)))) ∧
  (∀ (c k : Nat) (s v : State) (ws : Option (List (Nat × Nat))),
    (isUserKey k = true → s.copyBlock (1 + c) k (s.fbit fPLT_CS_STAT_user_loaded c) = (v, ws) →
      s.reloadWords c k true = (v, ws) ∧ s.reloadWords c k false = (v, none)) ∧
    (isUserKey k = false → (s.cluster c).image.isSome = true → s.copyBlock 0 k true = (v, ws) →
      s.reloadWords c k false = (v, some ((reloadKeys k).map (fun i => (i, nget 0 i (s.cluster c).words)))))) ∧
  (∀ (c : ClusterNo) (s : State),
    (s.fbit fPLT_CS_STAT_scrub_en c.val = true → s.fget fTHM_STAT_state = 0 →
      exec (.controlStoreScrub c) s = .next ((s.cluster c.val).marks.foldl (fun v e => (v.readCs c.val e.1).1) s)) ∧
    ((s.fbit fPLT_CS_STAT_scrub_en c.val = false ∨ s.fget fTHM_STAT_state ≠ 0) → exec (.controlStoreScrub c) s = .next s))

/-! ### Legs and jobs (chapter 09) -/

/-- A leg-start milestone fires and starts the leg that its job awaits, or refuses it, and its report says which; one that finds its job
waiting for another reason ends it or starts nothing. A leg relative to the one before it starts when its reading comes. A sync edge of the
window starts the leg, one too early is counted, and a window that closes ends the job or starts the leg as its entry says (R53, R58 to
R61, R132, R216, R500).
The model's choices on which this rests: log entries 28, 60, 61 and 81. -/
def Obligations.LegsStart : Prop :=
  (∀ (id : Nat) (x : Milestone) (f : Fired) (t e n88 : Nat) (s v : State),
    s.ms.pending.find? (fun y => y.id == id && y.action == 1) = some x → let p := (s.job x.target).pilot
    e = s.awaitedEntry p x.target → s.startPoint x (s.job x.target).meridian (legReach e) = some (t, n88) →
    s.msFireAt id 1 (decide (legReach e = 0)) (fun _ => some t) = some (v, f) →
    ((s.pilot p).job = x.target → (s.pilot p).st = .awaiting →
      (v.byMilestone p e = true → exec (.msLegStart id) s = .next ((v.startLeg p n88).1.msDone f (v.startLeg p n88).2)) ∧
      (v.byMilestone p e = false → exec (.msLegStart id) s = .next (v.msDone f .legLate))) ∧
    (((s.pilot p).job ≠ x.target ∨ (s.pilot p).st ≠ .awaiting) → (v.job x.target).st = .awaiting →
      exec (.msLegStart id) s = .next ((v.endJob x.target .pilotBusy).msDone f .pilotBusy))) ∧
  (∀ (p n88 e : Nat) (s : State), e = (s.pilot p).awaitEntry →
    (∀ st park, s.legRefusal p e n88 = some (st, park) → s.startLeg p n88 = (s.refuseLeg p st park, st)) ∧
    (s.legRefusal p e n88 = none → s.startLeg p n88 = (s.acceptLeg p e n88, .ok))) ∧
  (∀ (p : PilotNo) (t e : Nat) (s : State), (s.pilot p.val).st = .awaiting → (s.pilot p.val).leg.slip = none →
    (s.pilot p.val).legsDone ≠ 0 → (s.pilot p.val).resumed = false → e = (s.pilot p.val).awaitEntry →
    (legMode e = 0 → exec (.relativeLegStart p) s = .next s) ∧
    (legMode e ≠ 0 → (s.mer (s.pjob p.val).meridian).instantOf (s.relativeN p.val e - legReach e) = some t →
      exec (.relativeLegStart p) s = .next ((s.advance t).startLeg p.val (s.relativeN p.val e)).1)) ∧
  (∀ (p : PilotNo) (t r : Nat) (w : Slip) (s u : State), u = s.advance t → (u.pilot p.val).leg.slip = some w →
    (u.pilot p.val).st = .awaiting → u.syncSeen (u.slipSource p.val) = true → r = (u.mer (u.pjob p.val).meridian).reading t →
    (r < w.lo → exec (.slipSyncEdge p t) s = .next (u.bump fMER_SLIP_STAT_early_count p.val)) ∧
    (w.lo ≤ r → r ≤ w.hi → exec (.slipSyncEdge p t) s =
      .next ((u.fput fMER_SLIP_STAT_outcome p.val 1).beginLeg p.val (r + w.offset)))) ∧
  (∀ (p : PilotNo) (t : Nat) (w : Slip) (s u : State), (s.pilot p.val).leg.slip = some w → (s.pilot p.val).st = .awaiting →
    (s.mer (s.pjob p.val).meridian).instantOf w.hi = some t →
    u = ((s.advance t).fput fMER_SLIP_STAT_outcome p.val 2).fput fPLT_LEG_STATUS_slip_expired p.val 1 →
    (w.fault = true → exec (.slipExpiry p) s = .next (u.killStart p.val 9)) ∧
    (w.fault = false → exec (.slipExpiry p) s = .next (u.beginLeg p.val (w.hi + w.offset))))

/-- A leg ends after its last period and its last drive edge, at whose boundary a deferred trap, the job's end or a pre-emption follows; a
halt entry ends a running leg by a cause, a start that waits in its window, or a job between legs; a dropped site counts no more; and a
Pilot that is free takes its suspended job back from a whole context, or ends it with CONTEXT_LOST (R17, R135, R175, R176, R186, R218,
R222, R225, R226, R228). The model's choices on which this rests: log entries 23, 24, 26, 56, 70 and 100. -/
def Obligations.LegsEnd : Prop :=
  (∀ (p : PilotNo) (t : Nat) (s u : State), let l := (s.pilot p.val).leg
    let n := (s.pilot p.val).q.next
    (s.pilot p.val).st ≠ .noJob → l.results = [] → l.begun = n → (l.ending = 1 ∨ l.ending = 2) →
    (s.mer (s.pjob p.val).meridian).instantOf (l.periodAt n) = some t →
    u = ((((s.advance (max t (s.edgesDone p.val))).closeLeg p.val 1 n).flushPosts p.val n (l.periodAt n)).finishLeg p.val) →
    (u.fget fPLT_TRAP_PEND_pending p.val ≠ 0 → exec (.legEnd p) s =
      .next (((u.fput fPLT_TRAP_PEND_pending p.val 0).setPilot p.val { u.pilot p.val with lastLeg := decide (l.ending = 2) }).resumableTrap
        p.val cBreak (u.pilot p.val).q.upc 0 0 false).haltIfDue) ∧
    (u.fget fPLT_TRAP_PEND_pending p.val = 0 →
      (l.ending = 2 → exec (.legEnd p) s = .next (u.endJob (u.pilot p.val).job .ok).haltIfDue) ∧
      (l.ending = 1 → (u.pilot p.val).preempt.isSome = true → exec (.legEnd p) s = .next (u.suspend p.val).haltIfDue) ∧
      (l.ending = 1 → (u.pilot p.val).preempt = none → exec (.legEnd p) s = .next u.haltIfDue))) ∧
  (∀ (p : PilotNo) (s : State), (s.pilot p.val).st ≠ .noJob → (s.pilot p.val).leg.results = [] → (s.pilot p.val).leg.ending = 3 →
    exec (.legEnd p) s = .next ((s.finishLeg p.val).endJob (s.pilot p.val).job .ok).haltIfDue) ∧
  (∀ (p : PilotNo) (e : Nat) (s u : State), s.qTake (16 + p.val) = some (e, u) →
    (u.legRuns p.val = true → exec (.haltEntry p) s = .next (u.killLeg p.val (e % 16) 0).haltIfDue) ∧
    (u.legRuns p.val = false → (u.pilot p.val).st = .awaiting → (u.pilot p.val).leg.slip.isSome = true →
      exec (.haltEntry p) s = .next (u.killStart p.val (e % 16)).haltIfDue) ∧
    (u.legRuns p.val = false → (u.pilot p.val).st = .between → exec (.haltEntry p) s =
      .next ((if e % 16 = 3 then (u.dropFrames p.val).parkPins ((u.dropFrames p.val).pilotPins p.val)
        else u.dropFrames p.val).endJob (u.pilot p.val).job .ok).haltIfDue)) ∧
  (∀ (p : PilotNo) (e : Nat) (s u : State), s.qTake (32 + p.val) = some (e, u) → (u.job (bits e 15 8)).accepted = true →
    bitAt (u.job (bits e 15 8)).sites (e % 64) = true → (u.pilot p.val).job = bits e 15 8 → u.legRuns p.val = true →
    (u.pilot p.val).leg.ending ≠ 3 →
    (nget none (e % 64) (u.pilot p.val).leg.dropAt = none →
      exec (.siteQueueEntry p) s = .next (u.dropSite p.val (e % 64) (u.pilot p.val).q.next)) ∧
    ((nget none (e % 64) (u.pilot p.val).leg.dropAt).isSome = true → exec (.siteQueueEntry p) s = .next u)) ∧
  (∀ (p : PilotNo) (j : Nat) (bs : List Byte) (s u v : State), (s.pilot p.val).st = .noJob →
    (∀ e ∈ s.acceptedJobs, e.2.pilot = p.val → e.2.st ≠ .awaiting) → s.restoreFirst p.val = some j → s.takeBack p.val j = (u, .done) →
    u.dvaRead p.val (portCR (p.val / 4)) (s.job j).aspace (s.job j).ctx 4096 = (v, .done bs) →
    (contextGood bs j = true → exec (.jobRestore p) s = .next (v.restoreJob p.val j bs)) ∧
    (contextGood bs j = false → exec (.jobRestore p) s = .next (v.endJob j .contextLost)))

/-- ROUTE_LOAD, JOB_DEFINE, JOB_UNDEFINE, SITE_MASK, SITE_DROP, TRAP_RESUME, MICROCODE_LOAD and MICROCODE_UNLOAD where the rules let them
act; a job in use is busy and an image that fails its checks names the field (R116, R153, R174, R179, R213, R217, R218, R220, R376). The
model's choices on which this rests: log entries 22, 29, 30 and 83. -/
def Obligations.RouteJobAndMicrocodeCommandsAct : Prop :=
  (∀ (s u v w : State) (k : Packet) (bs : List Byte), s.accepts 0x2001 k → u = s.begun k →
    u.source (u8 k 24) (u8 k 25) (u64 k 0) (u64 k 16) = (v, .bytes bs) →
    (∀ off, routeBad (ofBytes bs) (u64 k 16) = some off →
      exec (.routeLoad k) s = .next (s.ends 0x2001 k (fun _ => v) .routeInvalid off 0 0)) ∧
    (routeBad (ofBytes bs) (u64 k 16) = none → v.storeResult (u8 k 25) (u64 k 8) bs = (w, none) →
      exec (.routeLoad k) s = .next (s.completes 0x2001 k (fun _ => w)))) ∧
  (∀ (s u v : State) (k : Packet) (bs : List Byte), s.accepts 0x2002 k → u = s.begun k → jobOf k < 256 →
    ((u.job (jobOf k)).accepted = true → exec (.jobDefine k) s = .next (s.ends 0x2002 k id .jobBusy 0 0 0)) ∧
    ((u.job (jobOf k)).accepted = false → u.payload (u8 k 8) (u64 k 0) 512 = (v, .bytes bs) →
      exec (.jobDefine k) s = .next (s.completes 0x2002 k (fun _ => v.setJob (jobOf k) { st := .defined, desc := ofBytes bs })))) ∧
  (∀ (s u : State) (k : Packet), s.accepts 0x2008 k → u = s.begun k → jobOf k < 256 →
    ((u.job (jobOf k)).accepted = true → exec (.jobUndefine k) s = .next (s.ends 0x2008 k id .jobBusy 0 0 0)) ∧
    ((u.job (jobOf k)).accepted = false → exec (.jobUndefine k) s = .next (s.completes 0x2008 k (fun v => v.setJob (jobOf k) {})))) ∧
  (∀ (s u : State) (k : Packet), s.accepts 0x2005 k → u = s.begun k → jobOf k < 256 → (u.job (jobOf k)).accepted = true →
    u.lastLeg (jobOf k) = false → Nat.land (u64 k 0) (u.job (jobOf k)).sites = u64 k 0 →
    let p := (u.job (jobOf k)).pilot
    ((u.pilot p).job = jobOf k → (u.pilot p).st ≠ .noJob → exec (.siteMask k) s =
      .next (s.completes 0x2005 k (fun v => v.setPilot p { v.pilot p with maskNext := u64 k 0 }))) ∧
    ((u.pilot p).job ≠ jobOf k → exec (.siteMask k) s =
      .next (s.completes 0x2005 k (fun v => v.setJob (jobOf k) { v.job (jobOf k) with mask := some (u64 k 0) })))) ∧
  (∀ (s u : State) (k : Packet), s.accepts 0x2006 k → u = s.begun k → jobOf k < 256 → (u.job (jobOf k)).accepted = true → u8 k 0 < 48 →
    bitAt (u.job (jobOf k)).sites (u8 k 0) = true →
    (u.siteDropped (jobOf k) (u8 k 0) = true → exec (.siteDrop k) s = .next (s.ends 0x2006 k id .ok 1 0 1)) ∧
    (u.siteDropped (jobOf k) (u8 k 0) = false → exec (.siteDrop k) s =
      .next (s.completes 0x2006 k (fun v => v.qPush (32 + (u.job (jobOf k)).pilot) (u8 k 0 + jobOf k * 256))))) ∧
  (∀ (s : State) (k : Packet), s.accepts 0x2007 k → u8 k 0 < 16 →
    exec (.trapResume k) s = .next (s.completes 0x2007 k (fun v => (v.qPush (48 + u8 k 0) 1).tryResume (u8 k 0)))) ∧
  (∀ (s u v w : State) (k : Packet) (hb bs : List Byte), s.accepts 0xA001 k → u = s.begun k → u8 k 0 < 4 →
    (u.clusterBusy (u8 k 0) = true → exec (.microcodeLoad k) s = .next (s.ends 0xA001 k id .microcodeBusy 0 0 0)) ∧
    (u.clusterBusy (u8 k 0) = false → u.payload (u8 k 1) (u64 k 8) 256 = (v, .bytes hb) →
      let n := max 256 (imgField (ofBytes hb) 0x10 8)
      firstBad (ucHdrChecks false (ofBytes hb) n) = none → v.payload (u8 k 1) (u64 k 8) n = (w, .bytes bs) →
      (∀ off, ucBad (ofBytes bs) n (bits k.params.toNat 383 128) = some off →
        exec (.microcodeLoad k) s = .next (s.ends 0xA001 k (fun _ => w) .microcodeInvalid off 0 0)) ∧
      (ucBad (ofBytes bs) n (bits k.params.toNat 383 128) = none → exec (.microcodeLoad k) s =
        .next (s.completes 0xA001 k (fun _ => w.installUser (u8 k 0) n (ofBytes bs)))))) ∧
  (∀ (s u : State) (k : Packet), s.accepts 0xA002 k → u = s.begun k → u8 k 0 < 4 → u.clusterBusy (u8 k 0) = false →
    exec (.microcodeUnload k) s = .next (s.completes 0xA002 k
      (fun v => ((v.loadUser (u8 k 0) [] []).putUcDigest (u8 k 0) 0).fput fPLT_CS_STAT_user_loaded (u8 k 0) 0)))

/-- JOB_START makes its ten checks in order, the first that fails giving its status, and takes the job; HALT_JOB reaches a running leg
through its halt queue and ends a job that runs none; ABORT_ALL works on every job at once, and on the convoy when its halts go there
(R214, R215, R374, R375, R425).
The model's choices on which this rests: log entry 30. -/
def Obligations.JobsStartAndHalt : Prop :=
  (∀ (s u v w z : State) (k : Packet) (f : RouteFacts) (demand : List (Nat × Nat × Nat)) (id : Nat) (late : Bool), s.accepts 0x2003 k →
    u = s.begun k → jobOf k < 256 → u32 k 8 < 2 ^ 24 →
    (∀ st d, u.startBasics (jobOf k) = (v, .error (st, d)) → exec (.jobStart k) s = .next (s.ends 0x2003 k (fun _ => v) st d 0 0)) ∧
    (u.startBasics (jobOf k) = (v, .ok ()) →
      (∀ st d, v.startRoute (jobOf k) = (w, .error (st, d)) → exec (.jobStart k) s = .next (s.ends 0x2003 k (fun _ => w) st d 0 0)) ∧
      (v.startRoute (jobOf k) = (w, .ok f) →
        (∀ st, w.startPlace (jobOf k) f = some st → exec (.jobStart k) s = .next (s.ends 0x2003 k (fun _ => w) st 0 0 0)) ∧
        (∀ pace, w.startPlace (jobOf k) f = none → w.demandOf (jobOf k) f = (z, demand, pace) →
          let m := (z.job (jobOf k)).meridian
          let fits := z.budgetsHold (z.job (jobOf k)).pilot demand
          ((pace = false ∨ fits = false) → exec (.jobStart k) s = .next (s.ends 0x2003 k (fun _ => z) .rtBudget 0 0 0)) ∧
          (pace = true → fits = true → (z.mer m).st = .off → exec (.jobStart k) s = .next (s.ends 0x2003 k (fun _ => z) .meridianOff 0 0 0)) ∧
          (∀ y st, pace = true → fits = true → (z.mer m).st ≠ .off →
            z.msCommit m 1 (jobOf k) 0 0 (u64 k 0 * fracOne + u32 k 8) (legReach f.leg0) 0 0 (jobOf k) = (y, .error st) →
            exec (.jobStart k) s = .next (s.ends 0x2003 k (fun _ => y) st 0 0 0)) ∧
          (∀ y, pace = true → fits = true → (z.mer m).st ≠ .off →
            z.msCommit m 1 (jobOf k) 0 0 (u64 k 0 * fracOne + u32 k 8) (legReach f.leg0) 0 0 (jobOf k) = (y, .ok (id, late)) →
            exec (.jobStart k) s = .next (s.completes 0x2003 k (fun _ => y.acceptJob (jobOf k) id demand) id)))))) ∧
  (∀ (s u : State) (k : Packet), s.admits 0x2004 k → u = (s.begun k).bump fHLM_PROMPT_CNT_halts →
    ((u.job (jobOf k)).accepted = false → exec (.haltJob k) s =
      .next (s.ends 0x2004 k (fun v => v.bump fHLM_PROMPT_CNT_halts) .jobNotRunning 0 0 0)) ∧
    (jobOf k < 256 → (u.job (jobOf k)).accepted = true → u.jobInLeg (jobOf k) = true → exec (.haltJob k) s =
      .next (s.completes 0x2004 k (fun v => (v.bump fHLM_PROMPT_CNT_halts).qPush (16 + (u.job (jobOf k)).pilot) 2))) ∧
    (jobOf k < 256 → (u.job (jobOf k)).accepted = true → u.jobInLeg (jobOf k) = false → exec (.haltJob k) s =
      .next (s.ends 0x2004 k (fun v => ((v.bump fHLM_PROMPT_CNT_halts).cancelLegStarts (jobOf k)).endOutside (jobOf k)) .ok
        (match (u.job (jobOf k)).st with | .awaiting => 1 | .suspended => 4 | _ => 3) 0 1))) ∧
  (∀ (s : State) (k : Packet), s.admits 0x0004 k →
    ((s.begun k).abortAll.fbit fWLN_CONV_CTL_abort_halt = false → exec (.abortAll k) s = .next (s.completes 0x0004 k State.abortAll)) ∧
    ((s.begun k).abortAll.fbit fWLN_CONV_CTL_abort_halt = true →
      exec (.abortAll k) s = .next (s.completes 0x0004 k (fun v => v.abortAll.originateHalt))))

/-! ### Sextant, synthesised clocks, converters and acquisition (chapters 09 to 12) -/

/-- An edge that a channel sees is counted, passed over by prescaler or hold-off, missed, found without time or stamped. A stamp waits for
the settings due before it; then it is discarded, counted as outside the window, lost at a full post path, or accepted; and the stamps
accepted are posted in order. Channels, windows, units and self-checks follow their registers, milestones and commands (R232 to R254). A
measurement waits for its unit's result.
The model's choices on which this rests: log entries 15 to 17 and 94. -/
def Obligations.SextantRuns : Prop :=
  (∀ (c : Fin 52) (at' : Nat) (f voh : Bool) (s u v w : State), u = (s.advance (at' * 60)).sxtCompare c.val f voh → v = u.sxtCount c.val →
    w = v.setSxtChan c.val { v.sxtChan c.val with lastTaken := some (at' * 60) } →
    (u.sxtSees c.val f voh = false → exec (.sextantEdge c at' f voh) s = .next u) ∧
    (u.sxtSees c.val f voh = true → ((u.sxtChan c.val).count % u.sxtK c.val ≠ 0 ∨ v.sxtSince c.val (at' * 60) (v.sxtHold c.val) = true) →
      exec (.sextantEdge c at' f voh) s = .next v) ∧
    (u.sxtSees c.val f voh = true → (u.sxtChan c.val).count % u.sxtK c.val = 0 → v.sxtSince c.val (at' * 60) (v.sxtHold c.val) = false →
      (v.sxtSince c.val (at' * 60) (160 * unitsPerPs) = true →
        exec (.sextantEdge c at' f voh) s =
          .next ((v.bump fSXT_CH_CNT_missed c.val).sxtLost c.val (shiftTime (at' * 60) (-v.sxtSkew c.val)))) ∧
      (v.sxtSince c.val (at' * 60) (160 * unitsPerPs) = false →
        ((w.mer (w.sxtMer c.val)).st ≠ .running →
          exec (.sextantEdge c at' f voh) s =
            .next ((w.bump fSXT_CH_CNT_no_time c.val).sxtLost c.val (shiftTime (at' * 60) (-w.sxtSkew c.val)))) ∧
        ((w.mer (w.sxtMer c.val)).st = .running → exec (.sextantEdge c at' f voh) s = .next (w.setSxtChan c.val { w.sxtChan c.val with
          taken := (w.sxtChan c.val).taken ++ [w.sxtStamp c.val (at' * 60) f voh] }))))) ∧
  (∀ (c : Fin 52) (t : Stamp) (rest : List Stamp) (s u : State), (s.sxtChan c.val).taken = t :: rest →
    u = (s.advance (t.due + 200 * unitsPerNs)).setSxtChan c.val
      { (s.advance (t.due + 200 * unitsPerNs)).sxtChan c.val with taken := rest } →
    ((s.sxtAwaits c.val t.due = true ∨ s.sxtUndecided t.due = true) → exec (.stampDecision c) s = .next s) ∧
    (s.sxtAwaits c.val t.due = false → s.sxtUndecided t.due = false →
      exec (.stampDecision c) s = .next (u.sxtDecide c.val t).sxtSettle)) ∧
  (∀ (c : Nat) (t : Stamp) (u v : State), v = u.tick fSXT_CH_STAT_seq c →
    ((u.sxtChan c).armed t.at96 = false → u.sxtDecide c t = u) ∧
    ((u.sxtChan c).armed t.at96 = true → u.fbit fSXT_CH_CTL_win_en c = true → (u.sxtChan c).inWindow t.at96 = false →
      u.sxtDecide c t = u.bump fSXT_CH_CNT_outside c) ∧
    ((u.sxtChan c).armed t.at96 = true → (u.fbit fSXT_CH_CTL_win_en c = false ∨ (u.sxtChan c).inWindow t.at96 = true) →
      ((v.fbit fSXT_CH_CTL_stream_en c = false ∨ v.postFull (sxtHalf c) t.time = false) → u.sxtDecide c t = v.sxtAccept c t) ∧
      (v.fbit fSXT_CH_CTL_stream_en c = true → v.postFull (sxtHalf c) t.time = true →
        let w := v.bump fSXT_CH_CNT_post_lost c
        u.sxtDecide c t = (w.setSxtChan c { v.sxtChan c with gap := true }).muBreak c true))) ∧
  (∀ (c : Fin 52) (t : Stamp) (q : Nat) (gap : Bool) (rest : List (Stamp × Nat × Bool)) (s u : State),
    (s.sxtChan c.val).posts = (t, q, gap) :: rest → u = s.setSxtChan c.val { s.sxtChan c.val with posts := rest } →
    exec (.stampPost c) s = .next (u.report (u.fget fSXT_CH_QUEUE_queue c.val) 16 (stampElement c.val t q gap))) ∧
  (∀ (n : Fin 16) (close t : Nat) (s u : State), (s.mu n.val).running = true → s.fget fSXT_MU_CTL_mode n.val = 3 →
    (s.sxtChan (s.fget fSXT_MU_CTL_start_ch n.val)).closeAfter (s.mu n.val).start = some close →
    (s.mer (s.sxtMer (s.fget fSXT_MU_CTL_start_ch n.val))).instantOf (ceilDiv close 256) = some t →
    (∀ p ∈ (s.sxtChan (s.fget fSXT_MU_CTL_start_ch n.val)).taken, close ≤ p.at96) → u = (s.advance t).muSlewed n.val →
    exec (.frequencyRunEnd n) s = .next ((u.setMu n.val { u.mu n.val with start := close }).muPost n.val false)) ∧
  (∀ (c : Fin 52) (s t : State), s.takesInOrder .SXT_WIN_CMT c.val t → t.sxtInLeg c.val = false → exec (.sxtWinCommit c) s =
    .next (t.sxtWindow c.val (t.fget fSXT_WIN_OPEN_cycle c.val * 2 ^ 32 + t.fget fSXT_WIN_FRAC_open_frac c.val * 256)
      (t.fget fSXT_WIN_CLOSE_cycle c.val * 2 ^ 32 + t.fget fSXT_WIN_FRAC_close_frac c.val * 256) (t.sxtNow c.val))) ∧
  (∀ (c : Fin 52) (v : BitVec 32) (s t u : State), s.takesInOrder .SXT_CH_CTL c.val t → t.sxtInLeg c.val = false → v.toNat < 2 ^ 28 →
    u = t.wr .SXT_CH_CTL c.val 0 (BitVec.ofNat 64 v.toNat) → exec (.sxtChCtlWrite c v) s =
      .next (u.sxtArm c.val (bitAt v.toNat 0) (u.sxtNow c.val))) ∧
  (∀ (n : Fin 16) (v : BitVec 32) (s t u : State), s.takesInOrder .SXT_MU_CTL n.val t → v.toNat < 2 ^ 19 →
    ((t.mu n.val).running = false → bitAt v.toNat 17 = true → u = t.wr .SXT_MU_CTL n.val 0 (BitVec.ofNat 64 v.toNat) →
      (u.muCfgErr n.val = true → exec (.sxtMuCtlWrite n v) s = .next ((u.fput fSXT_MU_STAT_cfg_err n.val 1).fput fSXT_MU_CTL_run n.val 0)) ∧
      (u.muCfgErr n.val = false → u.fget fSXT_MU_CTL_mode n.val ≠ 0 → exec (.sxtMuCtlWrite n v) s =
        .next (u.setMu n.val { running := true, start := u.sxtNow (u.fget fSXT_MU_CTL_start_ch n.val) }))) ∧
    ((t.mu n.val).running = true → bitAt v.toNat 17 = false →
      ((t.mu n.val).between = true → exec (.sxtMuCtlWrite n v) s =
        .next ((t.setMu n.val {}).wr .SXT_MU_CTL n.val 0 (BitVec.ofNat 64 v.toNat))) ∧
      ((t.mu n.val).between = false →
        (((∀ c < 52, t.muUses n.val c = true → (t.sxtChan c).losses.any (·.2) = false) → u = t) ∧
          (∀ c < 52, t.muUses n.val c = true → (t.sxtChan c).losses.any (·.2) = true → u = t.muDiscard n.val true)) →
        exec (.sxtMuCtlWrite n v) s =
          .next (((u.muSlewed n.val).muPost n.val true).wr .SXT_MU_CTL n.val 0 (BitVec.ofNat 64 v.toNat))))) ∧
  (∀ (s t : State) (skip : List Nat), s.takesInOrder .SXT_SC_START 0 t → t.fbit fSXT_STATUS_sc_busy = false →
    skip = (maskBits 52 (t.fget fSXT_SC_MASK_mask)).filter (fun c => (t.sxtChan c).armed (t.sxtNow c) || !t.powered (30 + sxtHalf c) ||
      t.acceptedJobs.any (fun e => bitAt e.2.sxtChans c)) → exec .selfCheckStart s =
    .next (((maskBits 52 (t.fget fSXT_SC_MASK_mask)).filter (fun c => !skip.contains c)).foldl
      (fun (u : State) c => u.setSxtChan c { u.sxtChan c with checking := true })
      ((t.fput fSXT_SC_SKIP_skip 0 ((skip.map (fun c => 2 ^ c)).sum)).fput fSXT_STATUS_sc_busy 0 1))) ∧
  (∀ (failing : BitVec 52) (s : State) (mine : List Nat) (bad : Nat), s.fbit fSXT_STATUS_sc_busy = true →
    mine = (List.range 52).filter (fun c => (s.sxtChan c).checking) →
    bad = ((mine.filter (fun c => bitAt failing.toNat c)).map (fun c => 2 ^ c)).sum → exec (.selfCheckDone failing) s =
    .next ((((mine.foldl (fun (u : State) c => u.setSxtChan c { u.sxtChan c with checking := false }) s).fput fSXT_SC_FAIL_fail 0
      bad).fput fSXT_STATUS_sc_busy 0 0).endWaits .selfCheck .ok none (some bad))) ∧
  (∀ (s u v : State) (k : Packet) (n : Nat) (id : Nat × Bool), s.accepts 0x5001 k → u = s.begun k → measGood k = true →
    (u.mer (u8 k 4)).cfg.kind ≠ .tracked → measStop k = u8 k 1 → u.measHeld (u8 k 1) = false →
    (List.range 16).find? (fun n => !(u.mu n).running) = some n → u.measWindow k (u8 k 1) = (v, .ok id) →
    exec (.sextantMeasure k) s = .next (s.awaits 0x5001 k (fun _ => v.measRun k n) (.unitResult n) 0 0 (u64 k 32) (u8 k 40) 1)) ∧
  (∀ (s : State) (k : Packet), s.accepts 0x5002 k →
    ((s.begun k).fbit fSXT_STATUS_sc_busy = true → exec (.sextantSelfcheck k) s = .next (s.ends 0x5002 k id .sextantBusy 0 0 0)) ∧
    ((s.begun k).fbit fSXT_STATUS_sc_busy = false → exec (.sextantSelfcheck k) s = .next (s.awaits 0x5002 k
      (fun v => doSelfCheckStart (v.fput fSXT_SC_MASK_mask 0 (u64 k 0 % 2 ^ 52))) .selfCheck 0 0 0 0 1))) ∧
  (∀ (id c : Nat) (f : Fired) (s u : State), c = f.ms.target →
    (s.msFire id 6 = some (u, f) → exec (.msSxtArm id) s =
      .next ((u.sxtArm c (f.ms.arg == 1) (u.readingAt (u.sxtMer c) f * 256)).msDone f .ok)) ∧
    (s.msFire id 7 = some (u, f) → exec (.msSxtWindow id) s = .next ((u.sxtWindow c (u.readingAt (u.sxtMer c) f * 256)
      (f.ms.arg2 * 2 ^ 32 + f.ms.arg % 2 ^ 24 * 256) (u.readingAt (u.sxtMer c) f * 256)).msDone f .ok)))

/-- Engines hop, advance, start and stop at their milestones and dwells, and take lists, starts and pins by command; an engine that is
not idle refuses its list (R255 to R268).
The model's choices on which this rests: log entry 18. -/
def Obligations.DdsEnginesRun : Prop :=
  (∀ (id e : Nat) (f : Fired) (s u : State), e = f.ms.target →
    (s.msFire id 2 = some (u, f) → exec (.msDdsHop id) s = .next ((u.ddsForce e f.ms.arg (u.readingAt (u.ddsMer e) f) false).msDone f .ok)) ∧
    (s.msFire id 3 = some (u, f) → exec (.msDdsAdvance id) s = .next ((u.ddsAdvance e (u.readingAt (u.ddsMer e) f)).msDone f .ok)) ∧
    (s.msFire id 4 = some (u, f) →
      ((u.ddsEng e).st ≠ .armed → exec (.msDdsStart id) s = .next (u.msDone f .ok)) ∧
      ((u.ddsEng e).st = .armed → (u.mer (u.ddsMer e)).st ≠ .running →
        exec (.msDdsStart id) s = .next ((u.setDds e { u.ddsEng e with st := .idle }).msDone f .meridianUnlocked)) ∧
      (∀ r q v w, (u.ddsEng e).st = .armed → (u.mer (u.ddsMer e)).st = .running → r = u.readingAt (u.ddsMer e) f →
        q = u.fget fDDS_ENG_CTL_first e →
        v = u.setDds e { u.ddsEng e with
          st := .running, entry := q, since := r, before := q, byRoute := false, r0 := r, stopAt := none } → w = v.ddsCrowd e r false (ddsHighAt r r (v.ddsEntry e q)) (some (v.ddsEntry e q)) →
        exec (.msDdsStart id) s = .next (((w.fput fDDS_ENG_EPOCH_cycles e (r / fracOne)).fput
          fDDS_ENG_EPOCH_FRAC_fraction e (r % fracOne)).msDone f .ok))) ∧
    (s.msFire id 5 = some (u, f) → exec (.msDdsStop id) s = .next ((u.ddsStop e (u.readingAt (u.ddsMer e) f)).msDone f .ok))) ∧
  (∀ (e : Fin 8) (p t h : Nat) (s : State), (s.ddsEng e.val).st = .running → entOnMs (s.ddsEntry e.val (s.ddsEng e.val).entry) = false →
    s.ddsNext e.val (s.ddsEng e.val).entry = some p →
    h = (s.ddsEng e.val).since + entDwell (s.ddsEntry e.val (s.ddsEng e.val).entry) * fracOne → (s.mer (s.ddsMer e.val)).instantOf h = some t → exec (.dwellEnd e) s = .next ((s.advance t).ddsForce e.val p h false)) ∧
  (∀ (p : BitVec 12) (v : BitVec 64) (e : Nat) (s t : State), t = s.deliverAll → t.takesWrite 0xD90000 = true →
    e = t.fget fDDS_CTL_aper_eng → t.ddsInLeg e = false →
    ((t.ddsEng e).st ≠ .idle → ∀ high, exec (.ddsListWrite p high v) s = .next (t.fput fDDS_ENG_STAT_write_drop e 1)) ∧
    ((t.ddsEng e).st = .idle → exec (.ddsListWrite p false v) s =
      .next { t with dds := { t.dds with stage := some (e, p.toNat, v.toNat) } }) ∧
    (∀ w, (t.ddsEng e).st = .idle → t.dds.stage = some (e, p.toNat, w) → exec (.ddsListWrite p true v) s =
      .next (({ t with dds := { t.dds with stage := none } } : State).ddsPutEntry e p.toNat (w + v.toNat * 2 ^ 64)))) ∧
  (∀ (s u v w : State) (k : Packet) (bs : List Byte), s.accepts 0x7001 k → u = s.begun k → u8 k 0 < 8 → u16 k 2 + u16 k 4 ≤ 4096 →
    u16 k 16 < 4096 → u8 k 18 < 2 → u16 k 20 < 4096 →
    ((u.ddsEng (u8 k 0)).st ≠ .idle → exec (.ddsLoad k) s = .next (s.ends 0x7001 k id .ddsBusy 0 0 0)) ∧
    ((u.ddsEng (u8 k 0)).st = .idle → u.ddsInLeg (u8 k 0) = false → u.isDown 29 = false →
      u.payload (u8 k 1) (u64 k 8) (16 * u16 k 4) = (v, .bytes bs) → w = (v.ddsStore (u8 k 0) (u16 k 2) (entriesOf (u16 k 4) bs)) →
      exec (.ddsLoad k) s = .next (s.completes 0x7001 k (fun _ => (((w.fput fDDS_ENG_LEN_count (u8 k 0) (u16 k 2 + u16 k 4)).fput
        fDDS_ENG_MID_mid (u8 k 0) (u16 k 16)).fput fDDS_ENG_CTL_end_mode (u8 k 0) (u8 k 18)).fput fDDS_ENG_CTL_loop_start (u8 k 0)
        (u16 k 20)) 0 (u16 k 4)))) ∧
  (∀ (s u v : State) (k : Packet) (id : Nat) (late : Bool), s.accepts 0x7002 k → u = s.begun k → u8 k 0 < 8 → u8 k 1 < 8 →
    u16 k 2 < 4096 → u32 k 16 < 2 ^ 24 → u.ddsStartCheck (u8 k 0) (u8 k 1) (u16 k 2) = .ok →
    u.msCommit (u8 k 1) 4 (u8 k 0) 0 0 (u64 k 8 * fracOne + u32 k 16) 0 0 0 (jobOf k) = (v, .ok (id, late)) →
    exec (.ddsStart k) s = .next (s.completes 0x7002 k (fun _ => ((v.fput fDDS_ENG_CTL_meridian (u8 k 0) (u8 k 1)).fput
      fDDS_ENG_CTL_first (u8 k 0) (u16 k 2)).setDds (u8 k 0) { v.ddsEng (u8 k 0) with st := .armed }) id)) ∧
  (∀ (s u v : State) (k : Packet) (id : Nat) (late : Bool), s.accepts 0x7003 k → u = s.begun k → u8 k 0 < 8 → u32 k 16 < 2 ^ 24 →
    u.msCommit (u.ddsMer (u8 k 0)) 5 (u8 k 0) 0 0 (u64 k 8 * fracOne + u32 k 16) 0 0 0 (jobOf k) = (v, .ok (id, late)) →
    exec (.ddsStop k) s = .next (s.awaits 0x7003 k (fun _ => v) (.milestone id) 0 0 0 0 1)) ∧
  (∀ (s u : State) (k : Packet), s.accepts 0x7004 k → u = s.begun k → u64 k 0 < 2 ^ 48 → u8 k 8 < 8 →
    ((∀ n ∈ pinsOf (u64 k 0), u.pinInLeg n = false) → exec (.ddsPin k) s = .next (s.completes 0x7004 k
      (fun v => (pinsOf (u64 k 0)).foldl (fun (w : State) n => w.fput fDDS_PIN_SEL_engine n (u8 k 8)) v))) ∧
    (∀ n, n ∈ pinsOf (u64 k 0) → u.pinInLeg n = true → exec (.ddsPin k) s = .next (s.ends 0x7004 k id .pinBusy 0 0 0)))

/-- Outputs, conversions, the common trigger from its three sources, injections, presets and result elements of the converters (R270 to
R291). A trigger while a sequence runs is held or counted as overrun. The model's choices on which this rests: log entries 21, 95 and 96. -/
def Obligations.ConvertersRun : Prop :=
  (∀ (n : PinNo) (a : Analogue) (o : Option Nat) (s u t : State) (code : Int),
    (s.isDown (n.val / 4) = true → exec (.sdOutput n a o) s = .next s) ∧
    (s.isDown (n.val / 4) = false → s.pinCode a (s.pmuAt n.val (s.sdTick n.val)) 8388608 = (u, code) →
      t = (((u.advanceTick (u.sdTick n.val)).setSd n.val { u.sd n.val with
        k := (u.sd n.val).k + 1, overload := u.sdOverload n.val o }).wr .ADC_SD_LIVE n.val 0
          (BitVec.ofNat 64 (u.sdWord n.val code o))).sdFeed n.val (sdCode code)
            (b2n (u.sdOvr n.val code o) + 2 * b2n (u.sdSuspect n.val o)) →
      (u.adc.sdT0 ≠ some (u.sd n.val).origin → exec (.sdOutput n a o) s = .next t) ∧
      (u.adc.sdT0 = some (u.sd n.val).origin → (u.sd n.val).k + 1 = 4 → exec (.sdOutput n a o) s =
        .next (t.sdWrite (fun p => p == n.val) (u.sdWord n.val code o) (u.sdTick n.val))))) ∧
  (∀ (s u : State) (n r : Nat) (a : Analogue) (tick : Nat) (code : Int),
    (s.pmuAt n tick = (1, r) → s.pinCode a (s.pmuAt n tick) 8388608 = s.openDiv (a.current * 33554432) (5 * pmuFull r)) ∧
    ((s.pmuAt n tick).1 ≠ 1 →
      s.pinCode a (s.pmuAt n tick) 8388608 = s.openDiv ((a.volt - 800000000) * 8388608) 1800000000) ∧
    ((s.sar n).mux < 4 → s.sarRaw n a tick = s.openDiv a.volt 1000000) ∧
    ((s.sar n).mux = 5 → s.sarRaw n a tick = (u, code) → 1020 ≤ code ∧ code ≤ 1028) ∧
    (((s.sar n).mux = 6 ∨ (s.sar n).mux = 7) → s.sarRaw n a tick = (u, code) → -2 ≤ code ∧ code ≤ 2)) ∧
  (∀ (r : Fin 4) (a : Analogue) (job : SarJob) (raw : Int) (t0 : Nat) (s c u : State), (s.sar r.val).conv = some (job, t0) →
    s.sarRaw r.val a t0 = (c, raw) → u = (c.advanceTick (t0 + 24)).setSar r.val { c.sar r.val with suspect := sarOvr raw } →
    sarOvr raw = false →
    (∀ (k word : Nat) (v : State), job = .entry k → word = sarWord raw (c.sar r.val).suspect (c.sar r.val).shifted →
      v = u.wr .ADC_SAR_RES r.val k (BitVec.ofNat 64 word) →
      ((c.sar r.val).left ≠ [] → exec (.sarConversionDone r a) s =
        .next ((v.setSar r.val { v.sar r.val with words := (v.sar r.val).words.set k word }).sarNext r.val (t0 + 24))) ∧
      ((c.sar r.val).left = [] → exec (.sarConversionDone r a) s = .next (((v.setSar r.val { v.sar r.val with
        words := (v.sar r.val).words.set k word, seqRunning := false, shifted := false }).seqDone (t0 + 24)).sarNext r.val (t0 + 24)))) ∧
    (∀ i, job = .inject i false → exec (.sarConversionDone r a) s = .next (((u.wr .ADC_SAR_INJ_RES r.val 0
      (BitVec.ofNat 64 (sarWord raw (c.sar r.val).suspect false))).fput fADC_SAR_STAT_inj_done r.val 1).sarNext r.val (t0 + 24))) ∧
    (∀ (n : Nat) (v : State), job = .stream n →
      v = u.setSar r.val { u.sar r.val with conv := some (.stream n, t0 + 24) } →
      ((v.aq n).grid.any (fun g => decide (t0 < g.tick0) && g.j == 0) = true → exec (.sarConversionDone r a) s = .next v) ∧
      ((v.aq n).grid.any (fun g => decide (t0 < g.tick0) && g.j == 0) = false → exec (.sarConversionDone r a) s =
        .next (v.aqSample n (clampInt (-0x800) 0x7FF raw) (b2n (sarOvr raw) + 2 * b2n (c.sar r.val).suspect))))) ∧
  (∀ s u : State, u = { s with adc := { s.adc with toPost := [] } } →
    (s.fbit fADC_QUEUE_post_en = false → exec .converterResultPost s = .next u) ∧
    (s.fbit fADC_QUEUE_post_en = true → exec .converterResultPost s =
      .next (s.adc.toPost.foldl (fun v e => v.report (v.fget fADC_QUEUE_queue) 256 e) u))) ∧
  (∀ (s t : State) (tick : Nat), t = { s with adc := { s.adc with lastDone := max s.adc.lastDone tick } } →
    ((∃ k ∈ s.adc.due, t.seqRuns k = true) → s.seqDone tick = t) ∧
    (s.adc.due ≠ [] → (∀ k ∈ s.adc.due, t.seqRuns k = false) →
      s.seqDone tick = { t with adc := { t.adc with due := [], toPost := s.adc.toPost ++ s.adc.due.map t.adcElement } })) ∧
  (∀ s t : State, s.takesInOrder .ADC_TRIG 0 t → t.fget fADC_TRIG_CFG_src = 0 →
    (t.anyRuns = false → t.adc.held = false → exec .adcTrigGo s = .next (t.trigEffect t.tickNow)) ∧
    (t.anyRuns = false → t.adc.held = true → exec .adcTrigGo s = .next (t.bump fADC_OVERRUN_overrun_count)) ∧
    (t.anyRuns = true → t.fbit fADC_TRIG_CFG_single_pending = true → t.adc.held = false →
      exec .adcTrigGo s = .next { t with adc := { t.adc with held := true } }) ∧
    (t.anyRuns = true → t.fbit fADC_TRIG_CFG_single_pending = false → exec .adcTrigGo s = .next (t.bump fADC_OVERRUN_overrun_count))) ∧
  (∀ (id : Nat) (f : Fired) (s u : State), s.msFire id 9 = some (u, f) →
    (u.fget fADC_TRIG_CFG_src = 1 → exec (.msConverterTrigger id) s = .next ((u.commonTrigger (tickFrom f.at88)).msDone f .ok)) ∧
    (u.fget fADC_TRIG_CFG_src ≠ 1 → exec (.msConverterTrigger id) s = .next (u.msDone f .ok))) ∧
  (∀ (rising : Bool) (t : Nat) (s u v : State), u = s.advance t → v = u.aqSync 3 0 (!rising) (u.odo 0) →
    v.fget fADC_TRIG_CFG_src = 2 → v.fbit fADC_TRIG_CFG_msync_pol = !rising →
    (v.commonTrigger v.tickNow).fget fWLN_GO_CTL_src = 0 → exec (.msyncInEdge rising t) s = .next (v.commonTrigger v.tickNow)) ∧
  (∀ s : State, s.adc.held = true → s.anyRuns = false →
    (∀ r < 4, (s.sar r).inj = none ∧ ((s.sar r).conv = none ∨ (s.streamUnit r).isSome = true)) →
    exec .heldTrigger s = .next (State.trigEffect { s with adc := { s.adc with held := false } } (max (s.adc.lastDone + 1) s.tickNow))) ∧
  (∀ (r : Fin 4) (i : Fin 8) (s t : State), s.takesInOrder .ADC_SAR_INJ r.val t →
    (t.isDown 28 = true → exec (.sarInjectRequest r i) s = .next (t.bump fADC_SAR_STAT_inj_reject r.val)) ∧
    (t.isDown 28 = false → (t.sar r.val).inj = none → (t.sar r.val).conv = none → exec (.sarInjectRequest r i) s =
      .next (t.setSar r.val { t.sar r.val with
        conv := some (.inject i.val false, t.tickNow), mux := i.val, fastPin := t.fget fADC_SAR_CTL_fast_pin r.val,
        shifted := (t.sar r.val).shifted || !(t.sar r.val).left.isEmpty })) ∧
    (∀ n, (t.streamUnit r.val) = some n → exec (.sarInjectRequest r i) s = .next (t.bump fADC_SAR_STAT_inj_reject r.val))) ∧
  (∀ (n : PinNo) (osr : BitVec 18) (s t : State), s.takesInOrder .ADC_SD_CFG n.val t → t.adc.sdT0.isSome = true →
    exec (.adcSdCfgWrite n osr) s = .next (t.setSd n.val { t.sd n.val with newR := some osr.toNat })) ∧
  (∀ (s u : State) (k : Packet), s.accepts 0x5003 k → u = s.begun k → (∀ n < 5, u.seqRuns n = false) →
    (u8 k 0 = 1 → u64 k 8 < 2 ^ 48 → (pinsOf (u64 k 8)).length ≤ 32 → exec (.adcSequence k) s = .next (s.completes 0x5003 k
      (fun v => (v.presetPins (pinsOf (u64 k 8)) (min (u32 k 4) 262143)).enableSeqs 1 0))) ∧
    (u8 k 0 = 2 → exec (.adcSequence k) s = .next (s.completes 0x5003 k (fun v => v.presetMonitors.enableSeqs 0 15))) ∧
    (u8 k 0 = 3 → 0 < u8 k 1 → u8 k 1 ≤ 16 → u8 k 16 < 48 → u8 k 17 < 48 → u8 k 18 < 48 → u8 k 19 < 48 → exec (.adcSequence k) s =
      .next (s.completes 0x5003 k (fun v => (v.presetFast (u8 k 1) [u8 k 16, u8 k 17, u8 k 18, u8 k 19]).enableSeqs 0 15)))) ∧
  (∀ (s : State) (k : Packet), s.accepts 0x5004 k →
    ((s.begun k).fget fADC_TRIG_CFG_src = 0 → exec (.adcTrigger k) s =
      .next (s.completes 0x5004 k (fun v => v.commonTrigger v.tickNow))) ∧
    ((s.begun k).fget fADC_TRIG_CFG_src ≠ 0 → exec (.adcTrigger k) s = .next (s.ends 0x5004 k id .adcBusy 0 0 0))) ∧
  (∀ (s u v : State) (k : Packet), s.accepts 0x5005 k → u = s.begun k → u8 k 0 < 4 → u8 k 1 < 8 →
    (u.sarInject (u8 k 0) (u8 k 1) true = (v, true) → exec (.adcInject k) s =
      .next (s.awaits 0x5005 k (fun _ => v) (.inject (u8 k 0)) 0 0 0 0 1)) ∧
    (u.sarInject (u8 k 0) (u8 k 1) true = (v, false) → exec (.adcInject k) s = .next (s.ends 0x5005 k (fun _ => v) .adcBusy 0 0 0)))

/-- A unit is armed and stopped by its register and its commands, triggered by its source, re-armed, and its record is committed once its
units are written; ACQ_STATS reads a segment (R293, R297, R298, R300 to R303). The model's choices on which this rests: log entries 15,
19, 20, 96 to 98 and 109. -/
def Obligations.AcquisitionRuns : Prop :=
  (∀ (n : Fin 4) (v : BitVec 32) (s t u : State), s.takesInOrder .ACQ_CTL n.val t → v.toNat < 2 ^ 18 →
    u = t.wr .ACQ_CTL n.val 0 (BitVec.ofNat 64 v.toNat) →
    (bitAt v.toNat 0 = true → (u.aq n.val).st ≠ .idle → exec (.acqCtlWrite n v) s = .next u) ∧
    (∀ w, bitAt v.toNat 0 = true → (u.aq n.val).st = .idle → u.aqCfgErr n.val = (w, false) →
      exec (.acqCtlWrite n v) s = .next (w.aqBegin n.val)) ∧
    (∀ w, bitAt v.toNat 0 = true → (u.aq n.val).st = .idle → u.aqCfgErr n.val = (w, true) →
      exec (.acqCtlWrite n v) s = .next (w.fput fACQ_STAT_cfg_err n.val 1)) ∧
    (bitAt v.toNat 0 = false → (u.aq n.val).st = .armed →
      exec (.acqCtlWrite n v) s = .next ((u.aqRelease n.val).setAq n.val { u.aq n.val with st := .idle }))) ∧
  (∀ (n : Fin 4) (s t : State), s.takesInOrder .ACQ_TRIG n.val t → t.fget fACQ_CTL_trig_src n.val = 0 →
    ((t.aq n.val).st = .idle → exec (.acqTrigGo n) s = .next t) ∧
    ((t.aq n.val).st = .rearming → exec (.acqTrigGo n) s = .next (t.bump fACQ_CNT_rearm_count n.val)) ∧
    (∀ u, t.aqAt n.val 0 (t.odo 0) = (u, true) → exec (.acqTrigGo n) s = .next (u.aqChain n.val (t.odo 0) 4))) ∧
  (∀ (n : Fin 4) (s : State), (s.aq n.val).recordDue = true → s.portQuiet portMS = true →
    exec (.acqRecord n) s = .next (s.aqCommit n.val)) ∧
  (∀ (n : Fin 4) (s u : State), (s.aq n.val).st = .rearming →
    (s.fbit fACQ_SRC_kind n.val = false → exec (.acqRearm n) s = .next ((s.aqRelease n.val).aqBegin n.val)) ∧
    (s.fbit fACQ_SRC_kind n.val = true → s.streamUnit (s.fget fACQ_SRC_sar n.val) = some n.val →
      exec (.acqRearm n) s = .next (s.aqBegin n.val)) ∧
    (s.fbit fACQ_SRC_kind n.val = true → s.streamUnit (s.fget fACQ_SRC_sar n.val) ≠ some n.val →
      u = (s.aqRelease n.val).setAq n.val { s.aq n.val with st := .idle } →
      exec (.acqRearm n) s = .next (u.aqArm n.val).1)) ∧
  (∀ (id : Nat) (f : Fired) (s u : State), s.msFire id 8 = some (u, f) →
    ((u.aq f.ms.target).st = .idle → exec (.msAcqTrigger id) s = .next (u.msDone f .acqIdle)) ∧
    ((u.aq f.ms.target).st ≠ .idle → u.fget fACQ_CTL_trig_src f.ms.target = 2 → exec (.msAcqTrigger id) s =
      .next ((u.aqTrigger f.ms.target 2 f.ms.at88).1.msDone f .ok))) ∧
  (∀ (s u v w : State) (k : Packet) (bs : List Byte), s.accepts 0x6001 k → u = s.begun k → u8 k 0 < 4 →
    ((u.aq (u8 k 0)).st ≠ .idle → exec (.acqArm k) s = .next (s.ends 0x6001 k id .acqConfig 0 0 0)) ∧
    ((u.aq (u8 k 0)).st = .idle → u.payload (u8 k 1) (u64 k 8) 64 = (v, .bytes bs) →
      ((v.aqConfigure (u8 k 0) bs).aqArm (u8 k 0) = (w, true) → exec (.acqArm k) s = .next (s.completes 0x6001 k (fun _ => w))) ∧
      ((v.aqConfigure (u8 k 0) bs).aqArm (u8 k 0) = (w, false) →
        exec (.acqArm k) s = .next (s.ends 0x6001 k (fun _ => w) .acqConfig 0 0 0)))) ∧
  (∀ (s u : State) (k : Packet), s.accepts 0x6002 k → u = s.begun k → u8 k 0 < 4 →
    ((u.aq (u8 k 0)).st = .idle → exec (.acqStop k) s = .next (s.ends 0x6002 k id .acqIdle 0 0 0)) ∧
    ((u.aq (u8 k 0)).st ≠ .idle → exec (.acqStop k) s =
      .next (s.completes 0x6002 k (fun v => (v.aqStop (u8 k 0)).fput fACQ_CTL_arm (u8 k 0) 0)))) ∧
  (∀ (s u v w : State) (k : Packet) (bs out : List Byte) (mean : Int) (x : State), s.accepts 0x6003 k → u = s.begun k → u8 k 0 < 4 →
    u16 k 2 < u.aqS (u8 k 0) → 0 < u32 k 12 → u32 k 8 + u32 k 12 ≤ u.aqP (u8 k 0) + u.aqQ (u8 k 0) →
    ((u.aq (u8 k 0)).st ≠ .idle → (u.aq (u8 k 0)).capture % u.aqS (u8 k 0) = u16 k 2 →
      exec (.acqStats k) s = .next (s.ends 0x6003 k id .acqOverwritten 0 0 0)) ∧
    ((u.aq (u8 k 0)).st = .idle →
      u.aqReadUnits (u8 k 0) (u16 k 2) (nget 0 (u16 k 2) (u.aq (u8 k 0)).segs + u32 k 8) (u32 k 12) = (v, bs, none) →
      v.aqStats (v.fbit fACQ_SRC_reduce_en (u8 k 0)) (u32 k 12) (codesOf (bs.length / 4) bs) = (w, mean, out) →
      w.storeResultBy v.reckonerPort (u8 k 24) (u64 k 16) out = (x, none) →
      exec (.acqStats k) s = .next (s.completes 0x6003 k (fun _ => x) (enc 64 mean))))

/-! ### The Wayline (chapter 18) -/

/-- Ports are taken down, trained and idled by command; block lock, requests and statuses train them, a port comes up or fails in time,
and idle begins and ends (R406, R409 to R413).
The model's choices on which this rests: log entries 39, 40 and 76. -/
def Obligations.WaylinePortsTrainAndIdle : Prop :=
  (∀ (s u : State) (k : Packet) (p : Nat), s.accepts 0x9001 k → u = s.begun k → p = u8 k 0 → p < 4 → u8 k 2 ≤ 1 →
    (u8 k 1 = 0 → exec (.waylinePort k) s = .next (s.completes 0x9001 k (fun v => v.portDown p))) ∧
    ((u8 k 1 = 1 ∨ u8 k 1 = 3) → u.powered (16 + p) = false → exec (.waylinePort k) s = .next (s.ends 0x9001 k id .linkDown 0 0 0)) ∧
    (u8 k 1 = 3 → u.powered (16 + p) = true → u.convoyHeld p = true →
      exec (.waylinePort k) s = .next (s.ends 0x9001 k id .convoyRefused 0 0 0)) ∧
    (u8 k 1 = 3 → u.powered (16 + p) = true → u.convoyHeld p = false → exec (.waylinePort k) s =
      .next (s.completes 0x9001 k (fun v => v.setWport p { v.wport p with idleOk := true }))) ∧
    (u8 k 1 = 1 → u.powered (16 + p) = true → u.wstate p = wDown → exec (.waylinePort k) s = .next (s.awaits 0x9001 k
      (fun v => v.beginTraining p false (u8 k 2 == 1) (tapPreset 1)) (.training p) 0 0 0 0 1)) ∧
    (∀ t, t = [s8 k 4, s8 k 5, s8 k 6, s8 k 7] → u8 k 1 = 2 → tapsOk t = true → u.powered (16 + p) = true → u.wstate p ≠ wDown →
      exec (.waylinePort k) s = .next (s.awaits 0x9001 k
        (fun v => (v.portDown p).beginTraining p true (u8 k 2 == 1) t) (.training p) 0 0 0 0 1))) ∧
  (∀ (p : Fin 4) (lane : Fin 2) (s : State),
    (s.wstate p.val ≠ wDown → s.wstate p.val ≠ wFailed → exec (.blockLock p lane) s = .next (s.setLock p.val lane.val true)) ∧
    ((s.setLock p.val lane.val false).linkUp p.val = true →
      exec (.lockLoss p lane) s = .next ((s.setLock p.val lane.val false).retrain p.val)) ∧
    ((s.setLock p.val lane.val false).linkUp p.val = false → exec (.lockLoss p lane) s = .next (s.setLock p.val lane.val false))) ∧
  (∀ (p : Fin 4) (lane : Fin 2) (v : BitVec 56) (s : State) (w : WPort), s.inTraining p.val = true → w = s.wport p.val →
    ((if lane.val = 0 then w.req0 else w.req1) = some (bits v.toNat 11 8) → exec (.trainReq p lane v) s =
      .next (s.setWport p.val { w with ready := setBit w.ready lane.val (bitAt v.toNat 24) })) ∧
    (∀ r, (if lane.val = 0 then w.req0 else w.req1) ≠ some (bits v.toNat 11 8) →
      r = tapAnswer w.manual (s.taps p.val lane.val) v.toNat → exec (.trainReq p lane v) s =
        .next (((s.setWport p.val (w.heard lane.val v.toNat)).setTaps p.val lane.val r.1).sendTrainStat p.val lane.val
          (bits v.toNat 11 8) r.2)) ∧
    (∀ u, bits v.toNat 47 40 ≠ 0x7F →
      u = s.fput fWLN_P_STAT_pre_rx p.val (setBit (s.fget fWLN_P_STAT_pre_rx p.val) lane.val (bitAt v.toNat 22)) →
      exec (.trainStat p lane v) s = .next (u.setWport p.val { u.wport p.val with
        echoed := setBit (u.wport p.val).echoed lane.val (bitAt v.toNat 24) }))) ∧
  (∀ (p : Fin 4) (s : State), s.inTraining p.val = true →
    (s.fget fWLN_P_STAT_lock p.val = 3 → (s.wport p.val).ready = 3 → (s.wport p.val).echoed = 3 →
      exec (.portUp p) s = .next ((s.beginSession p.val).endWaits (.training p.val) .ok)) ∧
    exec (.trainTimeout p) s = .next ((((s.advance (s.wport p.val).trainBy).setWstate p.val wFailed).linkLost p.val).endWaits
      (.training p.val) .linkDown)) ∧
  (∀ (p : Fin 4) (s : State),
    (s.wstate p.val = wUp → s.convoyHeld p.val = false →
      exec (.idleEnter p) s = .next (s.setWstate p.val wIdle) ∧
      ((s.wport p.val).idleOk = true → s.fbit fWLN_P_CTL_idle_auto p.val = true → (s.wport p.val).quiet = true →
        exec (.idleQuietExpiry p) s = .next ((s.sendBlock p.val 0x50 0).setWstate p.val wIdle))) ∧
    (s.wstate p.val = wIdle → exec (.idleExit p) s =
      .next (((s.setWport p.val ((s.wport p.val).emit (s.fget fWLN_P_STAT_pre_tx p.val) [.burst])).setWstate p.val wUp).pump p.val)))

/-- Acknowledged flits leave the replay buffer with their credits, refused and timed-out ones are resent, the receiver acknowledges and
refuses, and bad blocks, flits and codewords are counted (R408, R414, R417, R418). -/
def Obligations.WaylineFlitsAreAcknowledgedAndReplayed : Prop :=
  (∀ (p : Fin 4) (seq : BitVec 16) (c0 c1 c2 : BitVec 8) (s : State), s.wstate p.val = wUp →
    exec (.ack p seq c0 c1 c2) s =
      .next ((s.setWport p.val ((s.wport p.val).acked seq.toNat c0.toNat c1.toNat c2.toNat)).pump p.val)) ∧
  (∀ (p : Fin 4) (seq : BitVec 16) (s : State) (f : Flit) (rest : List Flit) (u : Nat → State), s.wstate p.val = wUp →
    (s.wport p.val).replay = f :: rest → (∀ n, u n =
      (s.setWport p.val { s.wport p.val with resends := (s.wport p.val).resends + 1 }).resend p.val n) →
    ((s.wport p.val).resends < 8 →
      exec (.nak p seq) s = .next (u seq.toNat) ∧ exec (.replayTimeout p) s = .next (u f.seq)) ∧
    (8 ≤ (s.wport p.val).resends →
      exec (.nak p seq) s = .next (s.retrain p.val) ∧ exec (.replayTimeout p) s = .next (s.retrain p.val))) ∧
  (∀ (p : Fin 4) (s : State), s.wstate p.val = wUp →
    ((s.wport p.val).unacked ≠ 0 → exec (.ackTimer p) s = .next (s.sendAck p.val)) ∧
    ((s.wport p.val).owed0 ≠ 0 → exec (.ackTimer p) s = .next (s.sendAck p.val)) ∧
    ((s.wport p.val).unacked = 0 → (s.wport p.val).owed0 = 0 → (s.wport p.val).owed1 = 0 → (s.wport p.val).owed2 = 0 →
      exec (.ackTimer p) s = .next s) ∧
    exec (.flitCrcError p true) s = .next (((s.bump fWLN_P_ERR_crc_err p.val).countFix 12).sendNak p.val) ∧
    exec (.flitCrcError p false) s = .next (s.sendNak p.val)) ∧
  (∀ (p : Fin 4) (s : State), s.wstate p.val ≠ wDown → s.wstate p.val ≠ wFailed →
    exec (.badControlBlock p) s = .next (s.bump fWLN_P_ERR_bad_ctl p.val)) ∧
  (∀ (p : Fin 4) (s : State), s.fbit fWLN_P_STAT_fec p.val = true →
    exec (.fecCodeword p true) s = .next (s.bump fWLN_P_FEC_uncorrectable p.val) ∧
    exec (.fecCodeword p false) s = .next (s.bump fWLN_P_FEC_corrected p.val))

/-- Halts are forwarded once and act here, GO and the site-fail aggregate follow the tree, a frame is launched at its milestone, and the
four blocks of an exchange give a port's delay and offset (R423 to R429).
The model's choices on which this rests: log entries 15 and 42. -/
def Obligations.WaylineSignalsAndTimeAct : Prop :=
  (∀ (p : Fin 4) (seq origin : BitVec 8) (s u : State) (h : Nat), s.linkUp p.val = true → h = haltContent seq.toNat origin.toNat →
    u = s.seeHalt h →
    (s.wln.halts.contains h = false → exec (.halt p seq origin) s =
      .next (((u.convoyPorts.filter (· ≠ p.val)).foldl (fun (v : State) q => v.sendBlock q 0x10 h) u).haltHere)) ∧
    (s.wln.halts.contains h = true → exec (.halt p seq origin) s = .next s)) ∧
  (∀ s t : State, s.takesInOrder .WLN_HALT 0 t → exec .wlnHalt s = .next t.originateHalt) ∧
  (∀ s t : State, s.takesInOrder .WLN_GO 0 t → t.mustered = true → exec .wlnGo s = .next (t.treePorts.foldl
    (fun (v : State) p => v.sendBlock p 0x11 (v.fget fWLN_STATUS_self * 2 ^ 8 + v.goReading * 2 ^ 16)) t)) ∧
  (∀ (v : BitVec 16) (s t : State), s.takesInOrder .WLN_AGG 0 t → exec (.wlnAggWrite v) s = .next (((t.fput fWLN_AGG_local 0
    (t.fget fWLN_AGG_local - Nat.land (t.fget fWLN_AGG_local) v.toNat)).aggChanged).haltIfDue)) ∧
  (∀ (p : Fin 4) (origin : BitVec 8) (e : BitVec 40) (s : State), s.linkUp p.val = true →
    (s.mustered = false → exec (.go p origin e) s = .next (s.bump fWLN_CONV_refused)) ∧
    (s.mustered = true → exec (.go p origin e) s = .next (((s.treePorts.filter (· ≠ p.val)).foldl (fun (v : State) q =>
      v.sendBlock q 0x11 (origin.toNat * 2 ^ 8 + e.toNat * 2 ^ 16)) s).offerGo p.val e.toNat))) ∧
  (∀ (p : Fin 4) (v : BitVec 16) (s u : State), s.mustered = true → s.linkUp p.val = true →
    (u = s.fput fWLN_AGG_convoy 0 v.toNat → exec (.agg p v true) s = .next ((u.treePorts.filter (· ≠ p.val)).foldl
      (fun (w : State) q => w.sendBlock q 0x12 (aggContent v.toNat true)) u)) ∧
    exec (.agg p v false) s = .next (((s.setWport p.val { s.wport p.val with agg := v.toNat }).aggChanged).haltIfDue)) ∧
  (∀ (p : Fin 4) (slot : Fin 16) (k : BitVec 8) (s : State), exec (.launch p slot k) s = .next s) ∧
  (∀ (id : Nat) (f : Fired) (s u : State), s.msFire id 10 = some (u, f) →
    (∀ node bs, f.ms.target < 4 → f.ms.arg < 16 → u.wstate f.ms.target = wUp → u.launchSlot f.ms.target f.ms.arg = some (node, bs) →
      exec (.msWaylineLaunch id) s = .next ((u.sendLaunch f.ms.target f.ms.arg node bs).msDone f .ok)) ∧
    (u.wstate f.ms.target ≠ wUp → exec (.msWaylineLaunch id) s = .next (u.msDone f .linkDown))) ∧
  (∀ (p : Fin 4) (a seq : Nat) (s u : State), u = s.advance (a * 60) → u.wstate p.val = wUp →
    seq = ((u.wport p.val).timeSeq + 1) % 256 → exec (.timeExchangeTimer p a) s = .next ((u.setWport p.val { u.wport p.val with
      timeSeq := seq, timeEx := some { seq := seq, t1 := u.stamp7 a } }).sendBlock p.val 0x20 (seq * 2 ^ 8))) ∧
  (∀ (p : Fin 4) (seq : BitVec 8) (a l : Nat) (s u : State), u = s.advance (l * 60) → u.wstate p.val = wUp →
    exec (.timeReq p seq a l) s = .next ((u.sendBlock p.val 0x21 (seq.toNat * 2 ^ 8 + u.stamp7 a * 2 ^ 16)).sendBlock p.val 0x22
      (seq.toNat * 2 ^ 8 + u.stamp7 l * 2 ^ 16))) ∧
  (∀ (p : Fin 4) (seq : BitVec 8) (t2 : BitVec 40) (a : Nat) (x : TimeEx) (s u : State), u = s.advance (a * 60) →
    (u.wport p.val).timeEx = some x → x.seq = seq.toNat → u.wstate p.val = wUp → exec (.timeT2 p seq t2 a) s =
      .next (u.setWport p.val { u.wport p.val with timeEx := some { x with t2 := some (t2.toNat, u.stamp7 a) } })) ∧
  (∀ (p : Fin 4) (seq : BitVec 8) (t3 : BitVec 40) (x : TimeEx) (t2 t4 : Nat) (r : State × Int × Int) (s : State),
    (s.wport p.val).timeEx = some x → x.seq = seq.toNat → x.t2 = some (t2, t4) → s.wstate p.val = wUp →
    r = s.solveExchange p.val x.t1 t2 t3.toNat t4 → exec (.timeT3 p seq t3) s =
      .next ((r.1.noteExchange p.val r.2.1 r.2.2).followParent p.val r.2.2))

/-- Messages, forwarded commands and bulk units act when their flit is the expected one and for this node, and the commands that send them
wait for the answer or end with why not (R417, R419 to R422, R429).
The model's choices on which this rests: log entries 11, 37 and 38. -/
def Obligations.WaylineServicesAct : Prop :=
  (∀ (p : Fin 4) (f g : Flit) (s t : State),
    (s.receives p.val 1 0 f g t → exec (.msg p f) s = .next (State.takeMsg p.val g t)) ∧
    (s.receives p.val 2 0 f g t → exec (.msgAck p f) s = .next (State.takeMsgAck p.val g t)) ∧
    (s.receives p.val 3 0 f g t → exec (.fwdCmd p f) s = .next (State.takeForward p.val g t)) ∧
    (s.receives p.val 4 0 f g t → exec (.fwdCpl p f) s = .next (State.takeFwdCpl p.val g t)) ∧
    (s.receives p.val 5 1 f g t → exec (.bulkWr p f) s = .next (State.takeBulkWr p.val g t)) ∧
    (s.receives p.val 6 1 f g t → exec (.bulkRdReq p f) s = .next (State.takeBulkRdReq p.val g t)) ∧
    (s.receives p.val 7 1 f g t → exec (.bulkRdData p f) s = .next (State.takeBulkRdData p.val g t)) ∧
    (s.receives p.val 8 1 f g t → exec (.bulkAck p f) s = .next (State.takeBulkAck p.val g t)) ∧
    (s.wstate p.val ≠ wUp → exec (.msg p f) s = .next s)) ∧
  (∀ (p : Nat) (f : Flit) (t u : State) (q : Nat) (elem : Nat), q = f.word → q < 16384 → t.qOn q = true →
    bitAt (t.fget fDPT_Q_CTL_prod q) 1 = true → f.payload.length ≤ t.qElem q → elem = ofBytes f.payload →
    (t.dq q).elems.length < t.qCap q → (t.dq q).held = [] → u = t.qPush q elem →
    State.takeMsg p f t = (u.owe p 0).replyFlit p f.src 2 0 f.xid 0 true []) ∧
  (∀ (id i : Nat) (h : BulkHold) (x : FaultSlot) (s u : State), s.wln.holds.find? (fun h => h.id == id) = some h →
    u = s.advance h.until_ →
    (u.slotOfId id = some (i, x) → exec (.bulkFaultTimeout id) s = .next ((u.setSlot i none).failHolds id)) ∧
    (u.slotOfId id = none → exec (.bulkFaultTimeout id) s = .next (u.failHolds id))) ∧
  (∀ (s u v : State) (k : Packet) (bs : List Byte), s.accepts 0x9002 k → u = s.begun k →
    u.payload (u8 k 20) (u64 k 8) (u32 k 16) = (v, .bytes bs) →
    (u16 k 2 < 2 ^ 14 → u32 k 16 ≤ 236 →
      (∀ st, v.nodePort (u16 k 0) = .error st → exec (.waylineSend k) s = .next (s.ends 0x9002 k (fun _ => v) st 0 0 0)) ∧
      (∀ p, v.nodePort (u16 k 0) = .ok p → v.linkUp p = false →
        exec (.waylineSend k) s = .next (s.ends 0x9002 k (fun _ => v) .linkDown 0 0 0)) ∧
      (∀ p m, v.nodePort (u16 k 0) = .ok p → v.linkUp p = true → m = v.unitOut 1 (u16 k 0) p (u16 k 2) bs →
        exec (.waylineSend k) s = .next (s.awaits 0x9002 k (fun _ => m.1) (.message m.2) 0 0 0 0 1))) ∧
    (2 ^ 15 ≤ u16 k 2 → bits (u16 k 2) 14 6 = 0 → 2 ≤ u32 k 16 → u32 k 16 ≤ 238 → 256 ≤ u16 k 0 → exec (.waylineSend k) s =
      .next (s.completes 0x9002 k
        (fun _ => v.setLaunchSlot (bits (u16 k 2) 5 4) (bits (u16 k 2) 3 0) (some (u16 k 0, bs)))))) ∧
  (∀ (s u v : State) (k : Packet) (bs : List Byte) (p : Nat) (m : State × Nat), s.accepts 0x9003 k → u = s.begun k →
    u.payload (u8 k 16) (u64 k 8) 64 = (v, .bytes bs) → v.nodePort (u16 k 0) = .ok p → v.linkUp p = true →
    m = v.unitOut 3 (u16 k 0) p 0 bs →
    exec (.waylineForward k) s = .next (s.awaits 0x9003 k (fun _ => m.1) (.message m.2) 0 0 0 0 1))

/-- A muster begins with the host's manifest, its flits and timeouts lead to a verdict, and a convoy breaks when it is left (R431 to
R434).
The model's choices on which this rests: log entries 38 and 41. -/
def Obligations.ConvoysMuster : Prop :=
  (∀ (s u v : State) (k : Packet) (bs : List Byte), s.accepts 0x9004 k → u = s.begun k → u.mustered = false → u.mustering = false →
    (u.helloPorts = [] → exec (.muster k) s = .next ((s.ends 0x9004 k id .linkDown 0 0 0).musterStarted)) ∧
    (∀ m, u.helloPorts ≠ [] → u.payload (u8 k 16) (u64 k 8) 512 = (v, .bytes bs) → m = ofBytes bs → mfConvoy m = u32 k 0 →
      mfMembers m = u16 k 4 → mfMember m ≤ 255 → mfRoot m ≤ 255 → exec (.muster k) s =
        .next ((s.awaits 0x9004 k (fun _ => v.beginMuster (u32 k 0) bs) .muster 0 0 0 0 1).musterStarted))) ∧
  (∀ (s u : State) (k : Packet), s.accepts 0x9004 k → u = s.begun k → u.mustered = true →
    exec (.muster k) s = .next ((s.ends 0x9004 k id .convoyRefused 0 0 0).musterStarted)) ∧
  (∀ (s u : State) (k : Packet), s.accepts 0x9005 k → u = s.begun k →
    (∀ others, u.mustered = true → others = (List.range 256).filter (fun n => u.fget fWLN_ROUTE_port n < 4) →
      exec (.convoyLeave k) s = .next (s.completes 0x9005 k
        (fun _ => u.convoyBreak (others.headD (u.fget fWLN_STATUS_self)) (fun q => some (u.lostWithout q))))) ∧
    (u.mustered = false → u.mustering = true → exec (.convoyLeave k) s = .next (s.completes 0x9005 k
      (fun v => (v.fput fWLN_STATUS_state 0 0).endWaits .muster .convoyRefused))) ∧
    (u.mustered = false → u.mustering = false → exec (.convoyLeave k) s = .next (s.completes 0x9005 k id))) ∧
  (∀ (p : Fin 4) (f g : Flit) (s t : State), s.receives p.val 9 2 f g t →
    exec (.musterFlit p f) s = .next (State.takeMuster p.val g t)) ∧
  (∀ s : State, s.mustering = true →
    (s.wln.stepped = true → s.wln.sentManifest = false → exec .musterOffsetTimeout s =
      .next (s.advance (s.wln.steerAt + unitsPerSecond / 10)).sendOwnManifest) ∧
    (s.isRoot = true → exec .musterRootTimeout s = .next (s.advance (s.wln.musterAt + unitsPerSecond / 5)).rootDecides) ∧
    exec .musterVerdictTimeout s =
      .next ((s.advance (s.wln.musterAt + 3 * unitsPerSecond / 10)).musterEnds 5 (s.fget fWLN_STATUS_root)))

/-! ### Binnacle (chapter 20) -/

/-- A power switch completes, waits, is refused as busy or as no domain; a pending power-down and a rise end, and a per-block reset cuts
and raises its domain (R448 to R452, R455; the request's ends are the model's choice, log entry 49). -/
def Obligations.PowerDomainsSwitch : Prop :=
  (∀ (s u : State) (k : Packet) (d : Nat), s.accepts 0xB001 k → u = s.begun k → d = u8 k 0 → u8 k 1 ≤ 1 →
    (switchable d = false → exec (.powerDomain k) s = .next (s.ends 0xB001 k id .paramInvalid 0 0 0)) ∧
    (switchable d = true → bitAt u.bnc.rising d = false → u.goesDown d = false →
      (u8 k 1 = 1 → u.powered d = true → exec (.powerDomain k) s = .next (s.completes 0xB001 k id)) ∧
      (u8 k 1 = 1 → u.powered d = false →
        exec (.powerDomain k) s = .next (s.awaits 0xB001 k (fun v => v.beginRise d) (.powerUp d) 0 0 0 0 0)) ∧
      (u8 k 1 = 0 → u.powered d = false → exec (.powerDomain k) s = .next (s.completes 0xB001 k id)) ∧
      (u8 k 1 = 0 → u.powered d = true → u.domainBusy d = true →
        exec (.powerDomain k) s = .next (s.ends 0xB001 k id .domainBusy 0 0 0)) ∧
      (u8 k 1 = 0 → u.powered d = true → u.domainBusy d = false → u.domainInLeg d = true →
        exec (.powerDomain k) s = .next (s.awaits 0xB001 k (fun v => v.setSwitching d true) (.powerDown d) 0 0 0 0 0)) ∧
      (u8 k 1 = 0 → u.powered d = true → u.domainBusy d = false → u.domainInLeg d = false →
        exec (.powerDomain k) s = .next (s.completes 0xB001 k (fun v => v.cutPower d))))) ∧
  (∀ (d : Fin 36) (s u : State), s.goesDown d.val = true → s.domainInLeg d.val = false →
    u = (((s.cutPower d.val).endWaits (.powerDown d.val) .ok).pwrDone d.val false .ok) →
    (bitAt u.bnc.upNext d.val = false → bitAt u.bnc.blkReset d.val = false → exec (.pendingPowerDown d) s = .next u) ∧
    (bitAt u.bnc.upNext d.val = true → exec (.pendingPowerDown d) s =
      .next (State.beginRise { u with bnc := { u.bnc with upNext := setBit u.bnc.upNext d.val false } } d.val))) ∧
  (∀ (d : Fin 36) (s u : State), bitAt s.bnc.rising d.val = true → u = s.advance (nget 0 d.val s.bnc.riseEnd) →
    bitAt u.bnc.downNext d.val = false →
    (bitAt u.bnc.blkReset d.val = false →
      exec (.powerUpDone d) s = .next (((u.endRise d.val).endWaits (.powerUp d.val) .ok).pwrDone d.val true .ok)) ∧
    (bitAt u.bnc.blkReset d.val = true → exec (.powerUpDone d) s =
      .next (((((u.endRise d.val).dropRegs (domainReg d.val)).dropUnits d.val).endWaits (.powerUp d.val) .ok).pwrDone d.val true .ok))) ∧
  (∀ (v : BitVec 32) (d : Nat) (s t : State), s.takesInOrder .BNC_BLK_RESET 0 t → t.bnc.tripped = false → bitAt v.toNat 6 = true →
    d = bits v.toNat 5 0 →
    (switchable d = false → exec (.bncBlkReset v) s = .next (t.fput fBNC_BLK_STAT_err 0 1)) ∧
    (∀ w, switchable d = true → bitAt (t.fget fPWR_SWITCHING_pending) d = false → t.powered d = true → t.domainBusy d = false →
      w = { t with bnc := { t.bnc with blkReset := setBit t.bnc.blkReset d true } } → w.powered d = true → w.domainInLeg d = false →
      exec (.bncBlkReset v) s = .next ((w.cutPower d).beginRise d)))

/-- Power good begins the boot, its end brings the device up or records the failure, and a cold and a warm reset leave what the chapter
says; the release of PERST# sets ready (R453, R454, R457 to R460, R471; what a warm reset keeps of the control plane: log entry 52). With
signatures required a boot ends ready only when the directory and the vendor image verify; an end that the signatures rule out changes
nothing (R459). The model's choices on which this rests: log entries 22, 51, 52, 65, 83 and 107. -/
def Obligations.StartUpAndResetsAct : Prop :=
  (∀ (straps : BitVec 4) (s u : State), s.fget fBNC_STATUS_stage = 0 → s.fget fBNC_STATUS_boot_status = 0 →
    u = s.bootStart straps.toNat → exec (.powerGood straps) s =
      .next (((((((u.fput fBNC_STATUS_stage 0 3).fput fBNC_RESET_boot 0 u.bnc.bootCount).fput fBNC_STATUS_sig_required 0
        (b2n u.bnc.fuseSig)).fput fPWR_ON_on 0 (2 ^ 20 + 15 * 2 ^ 12)).fput fMEM_STATUS_state 0 1).channelStates 1).trainPci)) ∧
  (∀ (st : BitVec 8) (dir fb : Bool) (failed : BitVec 64) (rej : List (BitVec 8 × BitVec 8 × BitVec 8)) (s u v : State),
    s.fget fBNC_STATUS_stage = 3 → s.fget fBNC_STATUS_boot_status = 0 → s.bnc.tripped = false → s.bootCan st.toNat dir failed.toNat = true →
    u = s.bootNote st.toNat dir fb ((rej.map (fun e => (e.1.toNat, e.2.1.toNat, e.2.2.toNat))).filter
      (fun r => s.canReject r.1 r.2.1 r.2.2)) →
    (st.toNat ≠ 1 → exec (.bootComplete st dir fb failed rej) s =
      .next ((u.fput fBNC_STATUS_stage 0 (failStage st.toNat)).bootRecord st.toNat)) ∧
    (st.toNat = 1 → v = (u.bootUp failed.toNat).fput fBNC_STATUS_stage 0 6 →
      (v.host.perst = true → exec (.bootComplete st dir fb failed rej) s = .next (v.bootRecord 1)) ∧
      (v.host.perst = false → exec (.bootComplete st dir fb failed rej) s = .next (v.setReady.bootRecord 1)))) ∧
  (∀ (b : Bool) (s u v w : State), u = s.logWrite 2 0xFF 0 0 → v = u.coldState → w = v.setMer 0 { v.mer 0 with anchorT := u.now } →
    exec (.coldReset b) s = .next (((((w.fput fBNC_LOG_STAT_writes 0 0).fput fBNC_LOG_STAT_suppressed 0 0).fput fBNC_RESET_last 0
      (b2n b)).fput fBNC_RESET_trip_before 0 (b2n s.bnc.tripped)).fput fBNC_RESET_boot 0 u.bnc.bootCount)) ∧
  (∀ s t : State, t = s.coldState → t.now = s.now ∧ t.host.mem = s.host.mem ∧ t.pilots = [] ∧ t.jobs = [] ∧
    t.helm = State.reset.helm ∧ t.pins = State.reset.pins ∧ t.hbm = State.reset.hbm ∧ t.bnc.qspiLog = s.bnc.qspiLog ∧
    t.bnc.fuseSig = s.bnc.fuseSig ∧ t.bnc.fuseKey = s.bnc.fuseKey ∧ t.bnc.flash = s.bnc.flash) ∧
  (∀ (s : State) (dir : Bool) (failed : BitVec 64),
    (s.fbit fBNC_STATUS_sig_required = false → s.bootCan 3 dir failed.toNat = false ∧
      (s.bootCan 1 dir failed.toNat = true ↔ s.imagesGood dir = true ∧ s.mapLost failed.toNat = false)) ∧
    (s.fbit fBNC_STATUS_sig_required = true → (s.bootCan 1 dir failed.toNat = true ↔
      s.dirSigned dir = true ∧ s.vendorSigned dir = true ∧ s.imagesGood dir = true ∧ s.mapLost failed.toNat = false)) ∧
    (s.mapLost failed.toNat = false → s.bootCan 7 dir failed.toNat = false) ∧
    ∀ (fb : Bool) (rej : List (BitVec 8 × BitVec 8 × BitVec 8)) (st : BitVec 8), s.bootCan st.toNat dir failed.toNat = false →
      exec (.bootComplete st dir fb failed rej) s = .next s) ∧
  (∀ (s u : State), s.host.perst = false → u = ((List.range 4).foldl State.portDown s).logWrite 5 0xFF s.acceptedJobs.length 0 →
    ∀ v, v = u.settleWrites →
      exec .warmReset s = .next (((v.warmState.fput fHLM_FIX_STAT_seq 0 v.helm.fixSeq).fput fBNC_RESET_last 0 2).bump
        fBNC_RESET_warm_count)) ∧
  (∀ s t : State, t = s.warmState → t.host.perst = true ∧ t.host.mem = s.host.mem ∧ t.hbm = s.hbm ∧ t.mers = s.mers ∧
    t.eth = s.eth ∧ t.bnc = s.bnc ∧ t.jobs = [] ∧ t.pilots = [] ∧ t.ms.pending = [] ∧ t.depot = State.reset.depot) ∧
  (∀ s u : State, s.host.perst = true → u = State.trainPci { s with host := { s.host with perst := false } } →
    (u.fget fBNC_STATUS_boot_status = 1 → u.bnc.tripped = false → exec .perstDeassert s = .next u.makeSystemQueues.setReady) ∧
    (u.bnc.tripped = true → exec .perstDeassert s = .next u))

/-- A temperature reading shows, is checked against the limit, moves the thermal state, and trips at 111.0 °C; the trip happens once; and
the SMBus port answers its five commands (R462 to R467, R494).
The model's choices on which this rests: log entry 53. -/
def Obligations.HeatAndSmbusAct : Prop :=
  (∀ (temp : Int) (s u v : State), u = s.advance (s.mer0Instant ((s.mer0 / 400000 + 1) * 400000)) →
    v = (u.noteReading temp).limitCheck temp →
    (v.bnc.tripped = false → temp < 1776 → exec (.thermalSample temp) s = .next (v.thermalStep (u.nextRise temp))) ∧
    (v.bnc.tripped = false → 1776 ≤ temp → exec (.thermalSample temp) s = .next (v.thermalStep (u.nextRise temp)).trip) ∧
    (v.bnc.tripped = true → temp < 1776 → exec (.thermalSample temp) s = .next v)) ∧
  (∀ s : State,
    (s.bnc.tripped = true → exec .thermalTrip s = .next s) ∧
    (∀ u, s.bnc.tripped = false → u = s.logWrite 3 0xFF 0 (s.fget fTHM_TEMP_rise) →
      (u.fget fTHM_STAT_state ≠ 0 → exec .thermalTrip s = .next u.tripEnd) ∧
      (u.fget fTHM_STAT_state = 0 → exec .thermalTrip s = .next u.newAlert.tripEnd))) ∧
  (∀ s t : State, t = s.tripState → t.bnc.tripped = true ∧ t.bnc.thermTrip = true ∧ t.host.mem = s.host.mem ∧ t.mers = s.mers ∧
    t.jobs = [] ∧ t.pilots = [] ∧ t.hbm = State.reset.hbm ∧ t.pins = State.reset.pins) ∧
  (∀ (s : State) (k : Packet), s.accepts 0xB002 k →
    (thermalOk (u16 k 0) (u16 k 2) (u8 k 4) (u8 k 5) = true → exec (.thermalSet k) s = .next (s.completes 0xB002 k
      (fun v => (((v.fput fTHM_CFG_warn 0 (u16 k 0)).fput fTHM_CFG_act 0 (u16 k 2)).fput fTHM_CFG_skip_n 0 (u8 k 4)).fput
        fTHM_CFG_div 0 (u8 k 5)))) ∧
    (thermalOk (u16 k 0) (u16 k 2) (u8 k 4) (u8 k 5) = false →
      exec (.thermalSet k) s = .next (s.ends 0xB002 k id .paramInvalid 0 0 0))) ∧
  (∀ s : State,
    exec .smbThmTemp s = .next { s with bnc := { s.bnc with smb := some (s.fget fTHM_TEMP_temp) } } ∧
    exec .smbThmState s = .next { s with bnc := { s.bnc with smb := some (s.fget fTHM_STAT_state) } } ∧
    exec .smbBncStatus s = .next { s with bnc := { s.bnc with smb := some ((s.rd .BNC_STATUS).toNat % 2 ^ 16) } } ∧
    exec .smbPwrOn s = .next { s with bnc := { s.bnc with smb := some (s.fget fPWR_ON_on % 2 ^ 32) } } ∧
    exec .smbAlertResponse s =
      .next { s with bnc := { s.bnc with smb := some (0x58 + s.bnc.straps % 4), alertAck := true } })

/-! ### Frames and reset -/

/-- A command changes nothing but the parts that its frame lists, in the frame of each: the registers of a list of banks, and the memories,
units and queues named. A ring command's frame has what beginning and ending on a ring changes. -/
def Obligations.CommandsKeepTheirFrames : Prop :=
  ∀ (c : Instr) (ps : List Part) (s t : State), frameOf c = some ps → exec c s = .next t → Changes ps s t

/-- After cold reset the registers hold their Reset column values (R10), of which these are not 0; every other register is 0, MER0 runs at
1.6 GHz from zero (R32), no memory holds anything, and no command waits.
The model's choices on which this rests: log entry 1. -/
def Obligations.ResetLeavesTheResetColumn : Prop :=
  (∀ e ∈ [(RegId.PIN_CTL, 0x8), (.PIN_DRV_LVL, 0x4360287), (.PIN_VTT, 0x287), (.PIN_CMP_LVL, 0x3CF30C), (.PIN_PMU_FORCE, 0x3333),
      (.PIN_PMU_CLAMP, 0xFFFF0000), (.PIN_STATUS, 0x1), (.PLT_CS_STAT, 0x10), (.DDS_ENG_MID, 0x287),
      (.ADC_SD_CFG, 0x5DC0), (.MEM_PASR, 0x80808080), (.MEM_SCRUB, 0x1801), (.SWY_TICK, 0x640), (.WLN_CONV_CTL, 0xFFFF0),
      (.WLN_ROUTE, 0x7), (.WLN_P_CTL, 0xA02), (.WLN_P_STAT, 0xFFFF0000), (.WLN_P_TAPS, 0x7F0000007F0000), (.DEV_ID, 0x2004824),
      (.ETH_CTL, 0x4), (.ETH_OOB, 0x3E800000000), (.THM_CFG, 0x2401400080), (.THM_LIMIT, 0x600)],
    ∀ i j, State.reset.rd e.1 i j = e.2) ∧
  (∀ i j, State.reset.rd .PLT_WTO i j = if j = 0 then 0 else 0xFFFFFFFF) ∧
  (∀ n : Fin 48, State.reset.fget fPIN_SITE_site n.val = n.val) ∧
  (∀ m : Fin 16, State.reset.rd .MEM_MAP_CTL m.val = (if m.val = 0 ∨ m.val = 15 then 0x81 else 0x80)) ∧
  (∀ i j, State.reset.rd .MEM_MAP_BASE i j = if i = 15 then 0x8C000000 else 0) ∧
  (∀ i j, State.reset.rd .MEM_MAP_LEN i j = if i = 0 then 0x8C000000 else if i = 15 then 0x04000000 else 0) ∧
  (∀ i j, State.reset.rd .HLM_RING_CFG i j = if i = 0 then 0x661 else 0) ∧
  (∀ i j, State.reset.rd .CHT_AS_CTL i j = if 252 ≤ i then 0x400000 else 0) ∧
  (∀ i j, State.reset.rd .MER_CTL i j = if i = 0 then 1 else if i = 7 then 4 else 0) ∧
  (∀ i j, State.reset.rd .MER_FWORD i j = if i = 0 then 0x1000000000 else 0) ∧
  (∀ i j, State.reset.rd .MER_STATUS i j = if i = 0 then 2 else 0) ∧
  (∀ (r : RegId) (i j : Nat), r ∉ [.PIN_CTL, .PIN_DRV_LVL, .PIN_VTT, .PIN_CMP_LVL, .PIN_PMU_FORCE, .PIN_PMU_CLAMP, .PIN_STATUS,
      .PLT_CS_STAT, .DDS_ENG_MID, .ADC_SD_CFG, .MEM_PASR, .MEM_SCRUB, .SWY_TICK, .WLN_CONV_CTL, .WLN_ROUTE, .WLN_P_CTL, .WLN_P_STAT,
      .WLN_P_TAPS, .DEV_ID, .ETH_CTL, .ETH_OOB, .THM_CFG, .THM_LIMIT, .PLT_WTO, .PIN_SITE, .MEM_MAP_CTL, .MEM_MAP_BASE, .MEM_MAP_LEN,
      .HLM_RING_CFG, .CHT_AS_CTL, .MER_CTL, .MER_FWORD, .MER_STATUS] → State.reset.rd r i j = 0) ∧
  (State.reset.mer 0).st = .running ∧ (State.reset.mer 0).rate = 0x1000000000 ∧ State.reset.odo 0 = 0 ∧
  (∀ m : Fin 8, m.val ≠ 0 → (State.reset.mer m.val).st = .off) ∧
  State.reset.hbm.mem = [] ∧ State.reset.host.mem = [] ∧ State.reset.pending = []
end

