-- ==== Sys2Proof/Laws/Bank.lean ====
section
/-! SUPPORT. The laws of banks: a read after a write to the same key gives the value written, a write leaves every other key alone,
and a write keeps the canonical form. Registers, memories and every numbered group of units are banks. -/

set_option linter.unusedSectionVars false

namespace Sys2Proof.Machine

variable {κ ν : Type} [DecidableEq κ] [DecidableEq ν]

@[simp] theorem bankGet_nil (d : κ → ν) (k : κ) : bankGet d k [] = d k := rfl

@[simp] theorem bankGet_drop_same (d : κ → ν) (k : κ) (b : Bank κ ν) : bankGet d k (bankDrop k b) = d k := by
  induction b with
  | nil => rfl
  | cons e r ih =>
    by_cases h : e.1 = k
    · simp [bankDrop, h, ih]
    · simp [bankDrop, bankGet, h, ih]

theorem bankGet_drop_ne (d : κ → ν) {j k : κ} (h : j ≠ k) (b : Bank κ ν) : bankGet d j (bankDrop k b) = bankGet d j b := by
  induction b with
  | nil => rfl
  | cons e r ih =>
    by_cases h1 : e.1 = k
    · have h2 : ¬ e.1 = j := fun h3 => h (h3.symm.trans h1)
      have h3 : ¬ k = j := fun h4 => h h4.symm
      simp [bankDrop, bankGet, h1, h3, ih]
    · by_cases h2 : e.1 = j
      · have h4 : ¬ j = k := h
        simp [bankDrop, bankGet, h2, h4]
      · simp [bankDrop, bankGet, h1, h2, ih]

theorem bankDrop_keys (k : κ) (b : Bank κ ν) : ∀ e ∈ bankDrop k b, e.1 ≠ k := by
  induction b with
  | nil => simp [bankDrop]
  | cons e r ih =>
    by_cases h : e.1 = k
    · simpa [bankDrop, h] using ih
    · intro f hf
      simp only [bankDrop, h, if_false, List.mem_cons] at hf
      rcases hf with rfl | hf
      · exact h
      · exact ih f hf

theorem bankGet_put_same (rank : κ → Nat) (d : κ → ν) (k : κ) (v : ν) (b : Bank κ ν) (h : ∀ e ∈ b, e.1 ≠ k) :
    bankGet d k (bankPut rank k v b) = v := by
  induction b with
  | nil => simp [bankPut, bankGet]
  | cons e r ih =>
    have h1 : e.1 ≠ k := h e (by simp)
    have h2 : ∀ e ∈ r, e.1 ≠ k := fun f hf => h f (by simp [hf])
    by_cases h3 : rank k < rank e.1
    · simp [bankPut, h3, bankGet]
    · simp [bankPut, h3, bankGet, h1, ih h2]

theorem bankGet_put_ne (rank : κ → Nat) (d : κ → ν) {j k : κ} (hj : j ≠ k) (v : ν) (b : Bank κ ν) :
    bankGet d j (bankPut rank k v b) = bankGet d j b := by
  have hk : ¬ k = j := fun h => hj h.symm
  induction b with
  | nil => simp [bankPut, bankGet, hk]
  | cons e r ih =>
    by_cases h3 : rank k < rank e.1
    · simp [bankPut, h3, bankGet, hk]
    · simp [bankPut, h3, bankGet, ih]

/-- A read after a write to the same key gives the value written. -/
@[simp] theorem bankGet_set_same (rank : κ → Nat) (d : κ → ν) (k : κ) (v : ν) (b : Bank κ ν) :
    bankGet d k (bankSet rank d k v b) = v := by
  unfold bankSet
  split
  · rename_i h; simp [h]
  · exact bankGet_put_same rank d k v _ (bankDrop_keys k b)

/-- A write leaves every other key alone. -/
theorem bankGet_set_ne (rank : κ → Nat) (d : κ → ν) {j k : κ} (h : j ≠ k) (v : ν) (b : Bank κ ν) :
    bankGet d j (bankSet rank d k v b) = bankGet d j b := by
  unfold bankSet
  split
  · exact bankGet_drop_ne d h b
  · rw [bankGet_put_ne rank d h, bankGet_drop_ne d h]

/-- The key of a read decides whether a write is seen. -/
theorem bankGet_set (rank : κ → Nat) (d : κ → ν) (j k : κ) (v : ν) (b : Bank κ ν) :
    bankGet d j (bankSet rank d k v b) = if j = k then v else bankGet d j b := by
  split
  · rename_i h; rw [h, bankGet_set_same]
  · rename_i h; exact bankGet_set_ne rank d h v b

theorem bankDrop_sub (k : κ) (b : Bank κ ν) : (bankDrop k b).Sublist b := by
  induction b with
  | nil => simp [bankDrop]
  | cons e r ih =>
    by_cases h : e.1 = k
    · simpa [bankDrop, h] using ih.cons e
    · simpa [bankDrop, h] using ih.cons_cons e

theorem bankDrop_wf {rank : κ → Nat} {d : κ → ν} {b : Bank κ ν} (k : κ) (h : bankWf rank d b) : bankWf rank d (bankDrop k b) :=
  ⟨h.1.sublist (bankDrop_sub k b), fun e he => h.2 e ((bankDrop_sub k b).subset he)⟩

theorem bankPut_mem (rank : κ → Nat) (k : κ) (v : ν) (b : Bank κ ν) (e : κ × ν) (h : e ∈ bankPut rank k v b) :
    e = (k, v) ∨ e ∈ b := by
  induction b with
  | nil => simpa [bankPut] using h
  | cons f r ih =>
    by_cases h3 : rank k < rank f.1
    · simpa [bankPut, h3] using h
    · simp only [bankPut, h3, if_false, List.mem_cons] at h
      rcases h with h | h
      · simp [h]
      · rcases ih h with h | h <;> simp [h]

/-- A key put among keys of other ranks keeps ranks strictly rising. -/
theorem bankPut_sorted {rank : κ → Nat} (k : κ) (v : ν) {b : Bank κ ν} (h : b.Pairwise (fun x y => rank x.1 < rank y.1))
    (hk : ∀ e ∈ b, rank e.1 ≠ rank k) : (bankPut rank k v b).Pairwise (fun x y => rank x.1 < rank y.1) := by
  induction b with
  | nil => simp [bankPut]
  | cons f r ih =>
    rw [List.pairwise_cons] at h
    by_cases h3 : rank k < rank f.1
    · simp only [bankPut, h3, if_true, List.pairwise_cons]
      refine ⟨?_, h⟩
      intro a ha
      rcases List.mem_cons.mp ha with rfl | ha
      · exact h3
      · exact Nat.lt_trans h3 (h.1 a ha)
    · simp only [bankPut, h3, if_false, List.pairwise_cons]
      refine ⟨?_, ih h.2 (fun e he => hk e (by simp [he]))⟩
      intro a ha
      rcases bankPut_mem rank k v r a ha with rfl | ha
      · have := hk f (by simp)
        simp only
        omega
      · exact h.1 a ha

/-- A write keeps the canonical form, where ranks tell keys apart. -/
theorem bankSet_wf {rank : κ → Nat} (inj : ∀ a b, rank a = rank b → a = b) {d : κ → ν} {b : Bank κ ν} (k : κ) (v : ν)
    (h : bankWf rank d b) : bankWf rank d (bankSet rank d k v b) := by
  have hd := bankDrop_wf k h
  unfold bankSet
  split
  · exact hd
  · rename_i hv
    refine ⟨bankPut_sorted k v hd.1 (fun e he hr => bankDrop_keys k b e he (inj _ _ hr)), ?_⟩
    intro e he
    rcases bankPut_mem rank k v _ e he with rfl | he
    · exact hv
    · exact hd.2 e he

@[simp] theorem nget_nset_same (d : ν) (k : Nat) (v : ν) (b : Bank Nat ν) : nget d k (nset d k v b) = v := by
  simp [nget, nset]

theorem nget_nset_ne (d : ν) {j k : Nat} (h : j ≠ k) (v : ν) (b : Bank Nat ν) : nget d j (nset d k v b) = nget d j b :=
  bankGet_set_ne id _ h v b

theorem nget_nset (d : ν) (j k : Nat) (v : ν) (b : Bank Nat ν) : nget d j (nset d k v b) = if j = k then v else nget d j b :=
  bankGet_set id _ j k v b

@[simp] theorem nget_nil (d : ν) (k : Nat) : nget d k ([] : Bank Nat ν) = d := rfl

theorem nset_wf {d : ν} {b : Bank Nat ν} (k : Nat) (v : ν) (h : bankWf id (fun _ => d) b) :
    bankWf id (fun _ => d) (nset d k v b) := bankSet_wf (fun _ _ h => h) k v h

end Sys2Proof.Machine
end

