-- ==== Sys2Proof/Laws/Bits.lean ====
section
/-! SUPPORT. The bits of a field read, and of a number after a field of it is written. -/
namespace Sys2Proof.Machine

theorem bits_eq (v hi lo : Nat) : bits v hi lo = (v >>> lo) % 2 ^ (hi + 1 - lo) := by
  unfold bits
  rw [Nat.shiftRight_eq_div_pow]

theorem bits_testBit (v hi lo i : Nat) : (bits v hi lo).testBit i = (decide (i < hi + 1 - lo) && v.testBit (lo + i)) := by
  rw [bits_eq, Nat.testBit_mod_two_pow, Nat.testBit_shiftRight]

/-- A number by the bits above, inside and below a field. -/
theorem setBits_parts (v hi lo x : Nat) (h : lo ≤ hi + 1) :
    setBits v hi lo x = 2 ^ (hi + 1) * (v / 2 ^ (hi + 1)) + (2 ^ lo * (x % 2 ^ (hi + 1 - lo)) + v % 2 ^ lo) := by
  unfold setBits bits
  have h1 : 2 ^ (hi + 1) = 2 ^ lo * 2 ^ (hi + 1 - lo) := by rw [← Nat.pow_add]; congr 1; omega
  have h2 : v = 2 ^ lo * (2 ^ (hi + 1 - lo) * (v / 2 ^ (hi + 1)) + v / 2 ^ lo % 2 ^ (hi + 1 - lo)) + v % 2 ^ lo := by
    rw [h1, ← Nat.div_div_eq_div_mul, Nat.div_add_mod, Nat.div_add_mod]
  have h3 : v / 2 ^ lo % 2 ^ (hi + 1 - lo) * 2 ^ lo ≤ v := by
    calc v / 2 ^ lo % 2 ^ (hi + 1 - lo) * 2 ^ lo ≤ v / 2 ^ lo * 2 ^ lo := Nat.mul_le_mul_right _ (Nat.mod_le _ _)
      _ ≤ v := Nat.div_mul_le_self _ _
  generalize hb : v / 2 ^ lo % 2 ^ (hi + 1 - lo) = b at *
  generalize hq : v / 2 ^ (hi + 1) = q at *
  have h4 : v = 2 ^ (hi + 1) * q + (2 ^ lo * b + v % 2 ^ lo) := by
    rw [h1]
    calc v = _ := h2
      _ = _ := by ring
  have h5 : b * 2 ^ lo = 2 ^ lo * b := Nat.mul_comm _ _
  have h6 : x % 2 ^ (hi + 1 - lo) * 2 ^ lo = 2 ^ lo * (x % 2 ^ (hi + 1 - lo)) := Nat.mul_comm _ _
  rw [h5, h6]
  generalize 2 ^ lo * b = c at *
  generalize 2 ^ (hi + 1) * q = d at *
  generalize 2 ^ lo * (x % 2 ^ (hi + 1 - lo)) = e at *
  omega

theorem setBits_testBit (v hi lo x i : Nat) (h : lo ≤ hi + 1) :
    (setBits v hi lo x).testBit i = if lo ≤ i ∧ i ≤ hi then x.testBit (i - lo) else v.testBit i := by
  rw [setBits_parts v hi lo x h]
  have hx : 2 ^ lo * (x % 2 ^ (hi + 1 - lo)) + v % 2 ^ lo < 2 ^ (hi + 1) := by
    have h1 : 2 ^ (hi + 1) = 2 ^ lo * 2 ^ (hi + 1 - lo) := by rw [← Nat.pow_add]; congr 1; omega
    have h2 := Nat.mod_lt x (Nat.two_pow_pos (hi + 1 - lo))
    have h3 := Nat.mod_lt v (Nat.two_pow_pos lo)
    have h4 : 2 ^ lo * (x % 2 ^ (hi + 1 - lo) + 1) ≤ 2 ^ lo * 2 ^ (hi + 1 - lo) := Nat.mul_le_mul_left _ h2
    rw [h1]
    have h5 : 2 ^ lo * (x % 2 ^ (hi + 1 - lo) + 1) = 2 ^ lo * (x % 2 ^ (hi + 1 - lo)) + 2 ^ lo := by ring
    omega
  rw [Nat.testBit_two_pow_mul_add _ hx, Nat.testBit_two_pow_mul_add _ (Nat.mod_lt v (Nat.two_pow_pos lo))]
  by_cases h1 : i < hi + 1
  · rw [if_pos h1]
    by_cases h2 : i < lo
    · rw [if_pos h2, if_neg (by omega), Nat.testBit_mod_two_pow]
      simp [h2]
    · rw [if_neg h2, if_pos (by omega), Nat.testBit_mod_two_pow]
      have : i - lo < hi + 1 - lo := by omega
      simp [this]
  · rw [if_neg h1, if_neg (by omega), Nat.testBit_div_two_pow]
    congr 1
    omega

/-- A field written reads as its low bits. -/
theorem bits_setBits (v x : Nat) {hi lo : Nat} (h : lo ≤ hi + 1) : bits (setBits v hi lo x) hi lo = x % 2 ^ (hi + 1 - lo) := by
  apply Nat.eq_of_testBit_eq
  intro i
  rw [bits_testBit, setBits_testBit _ _ _ _ _ h, Nat.testBit_mod_two_pow]
  by_cases h1 : i < hi + 1 - lo
  · rw [if_pos (by omega)]
    simp [h1]
  · simp [h1]

/-- A field beside the one written is as it was. -/
theorem bits_setBits_ne (v x : Nat) {hi lo hi' lo' : Nat} (h : lo ≤ hi + 1) (h1 : hi < lo' ∨ hi' < lo) :
    bits (setBits v hi lo x) hi' lo' = bits v hi' lo' := by
  apply Nat.eq_of_testBit_eq
  intro i
  rw [bits_testBit, bits_testBit, setBits_testBit _ _ _ _ _ h]
  by_cases h2 : i < hi' + 1 - lo'
  · rw [if_neg (by omega)]
  · simp [h2]

/-- Bits of the low 64 bits. -/
theorem bits_mod64 (v : Nat) {hi : Nat} (lo : Nat) (h : hi < 64) : bits (v % 2 ^ 64) hi lo = bits v hi lo := by
  apply Nat.eq_of_testBit_eq
  intro i
  rw [bits_testBit, bits_testBit, Nat.testBit_mod_two_pow]
  by_cases h2 : i < hi + 1 - lo
  · have : lo + i < 64 := by omega
    simp [this]
  · simp [h2]

end Sys2Proof.Machine
end

