-- ==== Sys2Proof/Laws/State.lean ====
section
/-! SUPPORT. What each named update leaves of the state, one law for each field, and what reads see after writes. -/

namespace Sys2Proof.Machine

@[simp] theorem State.wr_now (s : State) (id : RegId) (i j : Nat) (v : Word) : (s.wr id i j v).now = s.now := rfl
@[simp] theorem State.wr_free (s : State) (id : RegId) (i j : Nat) (v : Word) : (s.wr id i j v).free = s.free := rfl
@[simp] theorem State.wr_pending (s : State) (id : RegId) (i j : Nat) (v : Word) : (s.wr id i j v).pending = s.pending := rfl
@[simp] theorem State.wr_host (s : State) (id : RegId) (i j : Nat) (v : Word) : (s.wr id i j v).host = s.host := rfl
@[simp] theorem State.wr_mers (s : State) (id : RegId) (i j : Nat) (v : Word) : (s.wr id i j v).mers = s.mers := rfl
@[simp] theorem State.wr_ms (s : State) (id : RegId) (i j : Nat) (v : Word) : (s.wr id i j v).ms = s.ms := rfl
@[simp] theorem State.wr_depot (s : State) (id : RegId) (i j : Nat) (v : Word) : (s.wr id i j v).depot = s.depot := rfl
@[simp] theorem State.wr_swy (s : State) (id : RegId) (i j : Nat) (v : Word) : (s.wr id i j v).swy = s.swy := rfl
@[simp] theorem State.wr_helm (s : State) (id : RegId) (i j : Nat) (v : Word) : (s.wr id i j v).helm = s.helm := rfl
@[simp] theorem State.wr_pins (s : State) (id : RegId) (i j : Nat) (v : Word) : (s.wr id i j v).pins = s.pins := rfl
@[simp] theorem State.wr_alm (s : State) (id : RegId) (i j : Nat) (v : Word) : (s.wr id i j v).alm = s.alm := rfl
@[simp] theorem State.wr_clusters (s : State) (id : RegId) (i j : Nat) (v : Word) : (s.wr id i j v).clusters = s.clusters := rfl
@[simp] theorem State.wr_pilots (s : State) (id : RegId) (i j : Nat) (v : Word) : (s.wr id i j v).pilots = s.pilots := rfl
@[simp] theorem State.wr_jobs (s : State) (id : RegId) (i j : Nat) (v : Word) : (s.wr id i j v).jobs = s.jobs := rfl
@[simp] theorem State.wr_hbm (s : State) (id : RegId) (i j : Nat) (v : Word) : (s.wr id i j v).hbm = s.hbm := rfl
@[simp] theorem State.wr_chart (s : State) (id : RegId) (i j : Nat) (v : Word) : (s.wr id i j v).chart = s.chart := rfl
@[simp] theorem State.wr_dma (s : State) (id : RegId) (i j : Nat) (v : Word) : (s.wr id i j v).dma = s.dma := rfl
@[simp] theorem State.wr_sxt (s : State) (id : RegId) (i j : Nat) (v : Word) : (s.wr id i j v).sxt = s.sxt := rfl
@[simp] theorem State.wr_dds (s : State) (id : RegId) (i j : Nat) (v : Word) : (s.wr id i j v).dds = s.dds := rfl
@[simp] theorem State.wr_adc (s : State) (id : RegId) (i j : Nat) (v : Word) : (s.wr id i j v).adc = s.adc := rfl
@[simp] theorem State.wr_acq (s : State) (id : RegId) (i j : Nat) (v : Word) : (s.wr id i j v).acq = s.acq := rfl
@[simp] theorem State.wr_wln (s : State) (id : RegId) (i j : Nat) (v : Word) : (s.wr id i j v).wln = s.wln := rfl
@[simp] theorem State.wr_eth (s : State) (id : RegId) (i j : Nat) (v : Word) : (s.wr id i j v).eth = s.eth := rfl
@[simp] theorem State.wr_bnc (s : State) (id : RegId) (i j : Nat) (v : Word) : (s.wr id i j v).bnc = s.bnc := rfl

@[simp] theorem State.fput_now (s : State) (f : Fld) (i x : Nat) : (s.fput f i x).now = s.now := rfl
@[simp] theorem State.fput_free (s : State) (f : Fld) (i x : Nat) : (s.fput f i x).free = s.free := rfl
@[simp] theorem State.fput_pending (s : State) (f : Fld) (i x : Nat) : (s.fput f i x).pending = s.pending := rfl
@[simp] theorem State.fput_host (s : State) (f : Fld) (i x : Nat) : (s.fput f i x).host = s.host := rfl
@[simp] theorem State.fput_mers (s : State) (f : Fld) (i x : Nat) : (s.fput f i x).mers = s.mers := rfl
@[simp] theorem State.fput_ms (s : State) (f : Fld) (i x : Nat) : (s.fput f i x).ms = s.ms := rfl
@[simp] theorem State.fput_depot (s : State) (f : Fld) (i x : Nat) : (s.fput f i x).depot = s.depot := rfl
@[simp] theorem State.fput_swy (s : State) (f : Fld) (i x : Nat) : (s.fput f i x).swy = s.swy := rfl
@[simp] theorem State.fput_helm (s : State) (f : Fld) (i x : Nat) : (s.fput f i x).helm = s.helm := rfl
@[simp] theorem State.fput_pins (s : State) (f : Fld) (i x : Nat) : (s.fput f i x).pins = s.pins := rfl
@[simp] theorem State.fput_alm (s : State) (f : Fld) (i x : Nat) : (s.fput f i x).alm = s.alm := rfl
@[simp] theorem State.fput_clusters (s : State) (f : Fld) (i x : Nat) : (s.fput f i x).clusters = s.clusters := rfl
@[simp] theorem State.fput_pilots (s : State) (f : Fld) (i x : Nat) : (s.fput f i x).pilots = s.pilots := rfl
@[simp] theorem State.fput_jobs (s : State) (f : Fld) (i x : Nat) : (s.fput f i x).jobs = s.jobs := rfl
@[simp] theorem State.fput_hbm (s : State) (f : Fld) (i x : Nat) : (s.fput f i x).hbm = s.hbm := rfl
@[simp] theorem State.fput_chart (s : State) (f : Fld) (i x : Nat) : (s.fput f i x).chart = s.chart := rfl
@[simp] theorem State.fput_dma (s : State) (f : Fld) (i x : Nat) : (s.fput f i x).dma = s.dma := rfl
@[simp] theorem State.fput_sxt (s : State) (f : Fld) (i x : Nat) : (s.fput f i x).sxt = s.sxt := rfl
@[simp] theorem State.fput_dds (s : State) (f : Fld) (i x : Nat) : (s.fput f i x).dds = s.dds := rfl
@[simp] theorem State.fput_adc (s : State) (f : Fld) (i x : Nat) : (s.fput f i x).adc = s.adc := rfl
@[simp] theorem State.fput_acq (s : State) (f : Fld) (i x : Nat) : (s.fput f i x).acq = s.acq := rfl
@[simp] theorem State.fput_wln (s : State) (f : Fld) (i x : Nat) : (s.fput f i x).wln = s.wln := rfl
@[simp] theorem State.fput_eth (s : State) (f : Fld) (i x : Nat) : (s.fput f i x).eth = s.eth := rfl
@[simp] theorem State.fput_bnc (s : State) (f : Fld) (i x : Nat) : (s.fput f i x).bnc = s.bnc := rfl

@[simp] theorem State.fputj_now (s : State) (f : Fld) (i j x : Nat) : (s.fputj f i j x).now = s.now := rfl
@[simp] theorem State.fputj_free (s : State) (f : Fld) (i j x : Nat) : (s.fputj f i j x).free = s.free := rfl
@[simp] theorem State.fputj_pending (s : State) (f : Fld) (i j x : Nat) : (s.fputj f i j x).pending = s.pending := rfl
@[simp] theorem State.fputj_host (s : State) (f : Fld) (i j x : Nat) : (s.fputj f i j x).host = s.host := rfl
@[simp] theorem State.fputj_mers (s : State) (f : Fld) (i j x : Nat) : (s.fputj f i j x).mers = s.mers := rfl
@[simp] theorem State.fputj_ms (s : State) (f : Fld) (i j x : Nat) : (s.fputj f i j x).ms = s.ms := rfl
@[simp] theorem State.fputj_depot (s : State) (f : Fld) (i j x : Nat) : (s.fputj f i j x).depot = s.depot := rfl
@[simp] theorem State.fputj_swy (s : State) (f : Fld) (i j x : Nat) : (s.fputj f i j x).swy = s.swy := rfl
@[simp] theorem State.fputj_helm (s : State) (f : Fld) (i j x : Nat) : (s.fputj f i j x).helm = s.helm := rfl
@[simp] theorem State.fputj_pins (s : State) (f : Fld) (i j x : Nat) : (s.fputj f i j x).pins = s.pins := rfl
@[simp] theorem State.fputj_alm (s : State) (f : Fld) (i j x : Nat) : (s.fputj f i j x).alm = s.alm := rfl
@[simp] theorem State.fputj_clusters (s : State) (f : Fld) (i j x : Nat) : (s.fputj f i j x).clusters = s.clusters := rfl
@[simp] theorem State.fputj_pilots (s : State) (f : Fld) (i j x : Nat) : (s.fputj f i j x).pilots = s.pilots := rfl
@[simp] theorem State.fputj_jobs (s : State) (f : Fld) (i j x : Nat) : (s.fputj f i j x).jobs = s.jobs := rfl
@[simp] theorem State.fputj_hbm (s : State) (f : Fld) (i j x : Nat) : (s.fputj f i j x).hbm = s.hbm := rfl
@[simp] theorem State.fputj_chart (s : State) (f : Fld) (i j x : Nat) : (s.fputj f i j x).chart = s.chart := rfl
@[simp] theorem State.fputj_dma (s : State) (f : Fld) (i j x : Nat) : (s.fputj f i j x).dma = s.dma := rfl
@[simp] theorem State.fputj_sxt (s : State) (f : Fld) (i j x : Nat) : (s.fputj f i j x).sxt = s.sxt := rfl
@[simp] theorem State.fputj_dds (s : State) (f : Fld) (i j x : Nat) : (s.fputj f i j x).dds = s.dds := rfl
@[simp] theorem State.fputj_adc (s : State) (f : Fld) (i j x : Nat) : (s.fputj f i j x).adc = s.adc := rfl
@[simp] theorem State.fputj_acq (s : State) (f : Fld) (i j x : Nat) : (s.fputj f i j x).acq = s.acq := rfl
@[simp] theorem State.fputj_wln (s : State) (f : Fld) (i j x : Nat) : (s.fputj f i j x).wln = s.wln := rfl
@[simp] theorem State.fputj_eth (s : State) (f : Fld) (i j x : Nat) : (s.fputj f i j x).eth = s.eth := rfl
@[simp] theorem State.fputj_bnc (s : State) (f : Fld) (i j x : Nat) : (s.fputj f i j x).bnc = s.bnc := rfl

@[simp] theorem State.bump_now (s : State) (f : Fld) (i n : Nat) : (s.bump f i n).now = s.now := rfl
@[simp] theorem State.bump_free (s : State) (f : Fld) (i n : Nat) : (s.bump f i n).free = s.free := rfl
@[simp] theorem State.bump_pending (s : State) (f : Fld) (i n : Nat) : (s.bump f i n).pending = s.pending := rfl
@[simp] theorem State.bump_host (s : State) (f : Fld) (i n : Nat) : (s.bump f i n).host = s.host := rfl
@[simp] theorem State.bump_mers (s : State) (f : Fld) (i n : Nat) : (s.bump f i n).mers = s.mers := rfl
@[simp] theorem State.bump_ms (s : State) (f : Fld) (i n : Nat) : (s.bump f i n).ms = s.ms := rfl
@[simp] theorem State.bump_depot (s : State) (f : Fld) (i n : Nat) : (s.bump f i n).depot = s.depot := rfl
@[simp] theorem State.bump_swy (s : State) (f : Fld) (i n : Nat) : (s.bump f i n).swy = s.swy := rfl
@[simp] theorem State.bump_helm (s : State) (f : Fld) (i n : Nat) : (s.bump f i n).helm = s.helm := rfl
@[simp] theorem State.bump_pins (s : State) (f : Fld) (i n : Nat) : (s.bump f i n).pins = s.pins := rfl
@[simp] theorem State.bump_alm (s : State) (f : Fld) (i n : Nat) : (s.bump f i n).alm = s.alm := rfl
@[simp] theorem State.bump_clusters (s : State) (f : Fld) (i n : Nat) : (s.bump f i n).clusters = s.clusters := rfl
@[simp] theorem State.bump_pilots (s : State) (f : Fld) (i n : Nat) : (s.bump f i n).pilots = s.pilots := rfl
@[simp] theorem State.bump_jobs (s : State) (f : Fld) (i n : Nat) : (s.bump f i n).jobs = s.jobs := rfl
@[simp] theorem State.bump_hbm (s : State) (f : Fld) (i n : Nat) : (s.bump f i n).hbm = s.hbm := rfl
@[simp] theorem State.bump_chart (s : State) (f : Fld) (i n : Nat) : (s.bump f i n).chart = s.chart := rfl
@[simp] theorem State.bump_dma (s : State) (f : Fld) (i n : Nat) : (s.bump f i n).dma = s.dma := rfl
@[simp] theorem State.bump_sxt (s : State) (f : Fld) (i n : Nat) : (s.bump f i n).sxt = s.sxt := rfl
@[simp] theorem State.bump_dds (s : State) (f : Fld) (i n : Nat) : (s.bump f i n).dds = s.dds := rfl
@[simp] theorem State.bump_adc (s : State) (f : Fld) (i n : Nat) : (s.bump f i n).adc = s.adc := rfl
@[simp] theorem State.bump_acq (s : State) (f : Fld) (i n : Nat) : (s.bump f i n).acq = s.acq := rfl
@[simp] theorem State.bump_wln (s : State) (f : Fld) (i n : Nat) : (s.bump f i n).wln = s.wln := rfl
@[simp] theorem State.bump_eth (s : State) (f : Fld) (i n : Nat) : (s.bump f i n).eth = s.eth := rfl
@[simp] theorem State.bump_bnc (s : State) (f : Fld) (i n : Nat) : (s.bump f i n).bnc = s.bnc := rfl

@[simp] theorem State.tick_now (s : State) (f : Fld) (i n : Nat) : (s.tick f i n).now = s.now := rfl
@[simp] theorem State.tick_free (s : State) (f : Fld) (i n : Nat) : (s.tick f i n).free = s.free := rfl
@[simp] theorem State.tick_pending (s : State) (f : Fld) (i n : Nat) : (s.tick f i n).pending = s.pending := rfl
@[simp] theorem State.tick_host (s : State) (f : Fld) (i n : Nat) : (s.tick f i n).host = s.host := rfl
@[simp] theorem State.tick_mers (s : State) (f : Fld) (i n : Nat) : (s.tick f i n).mers = s.mers := rfl
@[simp] theorem State.tick_ms (s : State) (f : Fld) (i n : Nat) : (s.tick f i n).ms = s.ms := rfl
@[simp] theorem State.tick_depot (s : State) (f : Fld) (i n : Nat) : (s.tick f i n).depot = s.depot := rfl
@[simp] theorem State.tick_swy (s : State) (f : Fld) (i n : Nat) : (s.tick f i n).swy = s.swy := rfl
@[simp] theorem State.tick_helm (s : State) (f : Fld) (i n : Nat) : (s.tick f i n).helm = s.helm := rfl
@[simp] theorem State.tick_pins (s : State) (f : Fld) (i n : Nat) : (s.tick f i n).pins = s.pins := rfl
@[simp] theorem State.tick_alm (s : State) (f : Fld) (i n : Nat) : (s.tick f i n).alm = s.alm := rfl
@[simp] theorem State.tick_clusters (s : State) (f : Fld) (i n : Nat) : (s.tick f i n).clusters = s.clusters := rfl
@[simp] theorem State.tick_pilots (s : State) (f : Fld) (i n : Nat) : (s.tick f i n).pilots = s.pilots := rfl
@[simp] theorem State.tick_jobs (s : State) (f : Fld) (i n : Nat) : (s.tick f i n).jobs = s.jobs := rfl
@[simp] theorem State.tick_hbm (s : State) (f : Fld) (i n : Nat) : (s.tick f i n).hbm = s.hbm := rfl
@[simp] theorem State.tick_chart (s : State) (f : Fld) (i n : Nat) : (s.tick f i n).chart = s.chart := rfl
@[simp] theorem State.tick_dma (s : State) (f : Fld) (i n : Nat) : (s.tick f i n).dma = s.dma := rfl
@[simp] theorem State.tick_sxt (s : State) (f : Fld) (i n : Nat) : (s.tick f i n).sxt = s.sxt := rfl
@[simp] theorem State.tick_dds (s : State) (f : Fld) (i n : Nat) : (s.tick f i n).dds = s.dds := rfl
@[simp] theorem State.tick_adc (s : State) (f : Fld) (i n : Nat) : (s.tick f i n).adc = s.adc := rfl
@[simp] theorem State.tick_acq (s : State) (f : Fld) (i n : Nat) : (s.tick f i n).acq = s.acq := rfl
@[simp] theorem State.tick_wln (s : State) (f : Fld) (i n : Nat) : (s.tick f i n).wln = s.wln := rfl
@[simp] theorem State.tick_eth (s : State) (f : Fld) (i n : Nat) : (s.tick f i n).eth = s.eth := rfl
@[simp] theorem State.tick_bnc (s : State) (f : Fld) (i n : Nat) : (s.tick f i n).bnc = s.bnc := rfl

@[simp] theorem State.advance_free (s : State) (t : Nat) : (s.advance t).free = s.free := rfl
@[simp] theorem State.advance_pending (s : State) (t : Nat) : (s.advance t).pending = s.pending := rfl
@[simp] theorem State.advance_regs (s : State) (t : Nat) : (s.advance t).regs = s.regs := rfl
@[simp] theorem State.advance_host (s : State) (t : Nat) : (s.advance t).host = s.host := rfl
@[simp] theorem State.advance_mers (s : State) (t : Nat) : (s.advance t).mers = s.mers := rfl
@[simp] theorem State.advance_ms (s : State) (t : Nat) : (s.advance t).ms = s.ms := rfl
@[simp] theorem State.advance_depot (s : State) (t : Nat) : (s.advance t).depot = s.depot := rfl
@[simp] theorem State.advance_swy (s : State) (t : Nat) : (s.advance t).swy = s.swy := rfl
@[simp] theorem State.advance_helm (s : State) (t : Nat) : (s.advance t).helm = s.helm := rfl
@[simp] theorem State.advance_pins (s : State) (t : Nat) : (s.advance t).pins = s.pins := rfl
@[simp] theorem State.advance_alm (s : State) (t : Nat) : (s.advance t).alm = s.alm := rfl
@[simp] theorem State.advance_clusters (s : State) (t : Nat) : (s.advance t).clusters = s.clusters := rfl
@[simp] theorem State.advance_pilots (s : State) (t : Nat) : (s.advance t).pilots = s.pilots := rfl
@[simp] theorem State.advance_jobs (s : State) (t : Nat) : (s.advance t).jobs = s.jobs := rfl
@[simp] theorem State.advance_hbm (s : State) (t : Nat) : (s.advance t).hbm = s.hbm := rfl
@[simp] theorem State.advance_chart (s : State) (t : Nat) : (s.advance t).chart = s.chart := rfl
@[simp] theorem State.advance_dma (s : State) (t : Nat) : (s.advance t).dma = s.dma := rfl
@[simp] theorem State.advance_sxt (s : State) (t : Nat) : (s.advance t).sxt = s.sxt := rfl
@[simp] theorem State.advance_dds (s : State) (t : Nat) : (s.advance t).dds = s.dds := rfl
@[simp] theorem State.advance_adc (s : State) (t : Nat) : (s.advance t).adc = s.adc := rfl
@[simp] theorem State.advance_acq (s : State) (t : Nat) : (s.advance t).acq = s.acq := rfl
@[simp] theorem State.advance_wln (s : State) (t : Nat) : (s.advance t).wln = s.wln := rfl
@[simp] theorem State.advance_eth (s : State) (t : Nat) : (s.advance t).eth = s.eth := rfl
@[simp] theorem State.advance_bnc (s : State) (t : Nat) : (s.advance t).bnc = s.bnc := rfl

@[simp] theorem State.fresh_now (s : State) : (s.fresh.1).now = s.now := rfl
@[simp] theorem State.fresh_pending (s : State) : (s.fresh.1).pending = s.pending := rfl
@[simp] theorem State.fresh_regs (s : State) : (s.fresh.1).regs = s.regs := rfl
@[simp] theorem State.fresh_host (s : State) : (s.fresh.1).host = s.host := rfl
@[simp] theorem State.fresh_mers (s : State) : (s.fresh.1).mers = s.mers := rfl
@[simp] theorem State.fresh_ms (s : State) : (s.fresh.1).ms = s.ms := rfl
@[simp] theorem State.fresh_depot (s : State) : (s.fresh.1).depot = s.depot := rfl
@[simp] theorem State.fresh_swy (s : State) : (s.fresh.1).swy = s.swy := rfl
@[simp] theorem State.fresh_helm (s : State) : (s.fresh.1).helm = s.helm := rfl
@[simp] theorem State.fresh_pins (s : State) : (s.fresh.1).pins = s.pins := rfl
@[simp] theorem State.fresh_alm (s : State) : (s.fresh.1).alm = s.alm := rfl
@[simp] theorem State.fresh_clusters (s : State) : (s.fresh.1).clusters = s.clusters := rfl
@[simp] theorem State.fresh_pilots (s : State) : (s.fresh.1).pilots = s.pilots := rfl
@[simp] theorem State.fresh_jobs (s : State) : (s.fresh.1).jobs = s.jobs := rfl
@[simp] theorem State.fresh_hbm (s : State) : (s.fresh.1).hbm = s.hbm := rfl
@[simp] theorem State.fresh_chart (s : State) : (s.fresh.1).chart = s.chart := rfl
@[simp] theorem State.fresh_dma (s : State) : (s.fresh.1).dma = s.dma := rfl
@[simp] theorem State.fresh_sxt (s : State) : (s.fresh.1).sxt = s.sxt := rfl
@[simp] theorem State.fresh_dds (s : State) : (s.fresh.1).dds = s.dds := rfl
@[simp] theorem State.fresh_adc (s : State) : (s.fresh.1).adc = s.adc := rfl
@[simp] theorem State.fresh_acq (s : State) : (s.fresh.1).acq = s.acq := rfl
@[simp] theorem State.fresh_wln (s : State) : (s.fresh.1).wln = s.wln := rfl
@[simp] theorem State.fresh_eth (s : State) : (s.fresh.1).eth = s.eth := rfl
@[simp] theorem State.fresh_bnc (s : State) : (s.fresh.1).bnc = s.bnc := rfl

@[simp] theorem State.setMer_now (s : State) (m : Nat) (x : Meridian) : (s.setMer m x).now = s.now := rfl
@[simp] theorem State.setMer_free (s : State) (m : Nat) (x : Meridian) : (s.setMer m x).free = s.free := rfl
@[simp] theorem State.setMer_pending (s : State) (m : Nat) (x : Meridian) : (s.setMer m x).pending = s.pending := rfl
@[simp] theorem State.setMer_regs (s : State) (m : Nat) (x : Meridian) : (s.setMer m x).regs = s.regs := rfl
@[simp] theorem State.setMer_host (s : State) (m : Nat) (x : Meridian) : (s.setMer m x).host = s.host := rfl
@[simp] theorem State.setMer_ms (s : State) (m : Nat) (x : Meridian) : (s.setMer m x).ms = s.ms := rfl
@[simp] theorem State.setMer_depot (s : State) (m : Nat) (x : Meridian) : (s.setMer m x).depot = s.depot := rfl
@[simp] theorem State.setMer_swy (s : State) (m : Nat) (x : Meridian) : (s.setMer m x).swy = s.swy := rfl
@[simp] theorem State.setMer_helm (s : State) (m : Nat) (x : Meridian) : (s.setMer m x).helm = s.helm := rfl
@[simp] theorem State.setMer_pins (s : State) (m : Nat) (x : Meridian) : (s.setMer m x).pins = s.pins := rfl
@[simp] theorem State.setMer_alm (s : State) (m : Nat) (x : Meridian) : (s.setMer m x).alm = s.alm := rfl
@[simp] theorem State.setMer_clusters (s : State) (m : Nat) (x : Meridian) : (s.setMer m x).clusters = s.clusters := rfl
@[simp] theorem State.setMer_pilots (s : State) (m : Nat) (x : Meridian) : (s.setMer m x).pilots = s.pilots := rfl
@[simp] theorem State.setMer_jobs (s : State) (m : Nat) (x : Meridian) : (s.setMer m x).jobs = s.jobs := rfl
@[simp] theorem State.setMer_hbm (s : State) (m : Nat) (x : Meridian) : (s.setMer m x).hbm = s.hbm := rfl
@[simp] theorem State.setMer_chart (s : State) (m : Nat) (x : Meridian) : (s.setMer m x).chart = s.chart := rfl
@[simp] theorem State.setMer_dma (s : State) (m : Nat) (x : Meridian) : (s.setMer m x).dma = s.dma := rfl
@[simp] theorem State.setMer_sxt (s : State) (m : Nat) (x : Meridian) : (s.setMer m x).sxt = s.sxt := rfl
@[simp] theorem State.setMer_dds (s : State) (m : Nat) (x : Meridian) : (s.setMer m x).dds = s.dds := rfl
@[simp] theorem State.setMer_adc (s : State) (m : Nat) (x : Meridian) : (s.setMer m x).adc = s.adc := rfl
@[simp] theorem State.setMer_acq (s : State) (m : Nat) (x : Meridian) : (s.setMer m x).acq = s.acq := rfl
@[simp] theorem State.setMer_wln (s : State) (m : Nat) (x : Meridian) : (s.setMer m x).wln = s.wln := rfl
@[simp] theorem State.setMer_eth (s : State) (m : Nat) (x : Meridian) : (s.setMer m x).eth = s.eth := rfl
@[simp] theorem State.setMer_bnc (s : State) (m : Nat) (x : Meridian) : (s.setMer m x).bnc = s.bnc := rfl

@[simp] theorem State.countFix_now (s : State) (k n : Nat) : (s.countFix k n).now = s.now := rfl
@[simp] theorem State.countFix_free (s : State) (k n : Nat) : (s.countFix k n).free = s.free := rfl
@[simp] theorem State.countFix_pending (s : State) (k n : Nat) : (s.countFix k n).pending = s.pending := rfl
@[simp] theorem State.countFix_regs (s : State) (k n : Nat) : (s.countFix k n).regs = s.regs := rfl
@[simp] theorem State.countFix_host (s : State) (k n : Nat) : (s.countFix k n).host = s.host := rfl
@[simp] theorem State.countFix_mers (s : State) (k n : Nat) : (s.countFix k n).mers = s.mers := rfl
@[simp] theorem State.countFix_ms (s : State) (k n : Nat) : (s.countFix k n).ms = s.ms := rfl
@[simp] theorem State.countFix_depot (s : State) (k n : Nat) : (s.countFix k n).depot = s.depot := rfl
@[simp] theorem State.countFix_swy (s : State) (k n : Nat) : (s.countFix k n).swy = s.swy := rfl
@[simp] theorem State.countFix_pins (s : State) (k n : Nat) : (s.countFix k n).pins = s.pins := rfl
@[simp] theorem State.countFix_alm (s : State) (k n : Nat) : (s.countFix k n).alm = s.alm := rfl
@[simp] theorem State.countFix_clusters (s : State) (k n : Nat) : (s.countFix k n).clusters = s.clusters := rfl
@[simp] theorem State.countFix_pilots (s : State) (k n : Nat) : (s.countFix k n).pilots = s.pilots := rfl
@[simp] theorem State.countFix_jobs (s : State) (k n : Nat) : (s.countFix k n).jobs = s.jobs := rfl
@[simp] theorem State.countFix_hbm (s : State) (k n : Nat) : (s.countFix k n).hbm = s.hbm := rfl
@[simp] theorem State.countFix_chart (s : State) (k n : Nat) : (s.countFix k n).chart = s.chart := rfl
@[simp] theorem State.countFix_dma (s : State) (k n : Nat) : (s.countFix k n).dma = s.dma := rfl
@[simp] theorem State.countFix_sxt (s : State) (k n : Nat) : (s.countFix k n).sxt = s.sxt := rfl
@[simp] theorem State.countFix_dds (s : State) (k n : Nat) : (s.countFix k n).dds = s.dds := rfl
@[simp] theorem State.countFix_adc (s : State) (k n : Nat) : (s.countFix k n).adc = s.adc := rfl
@[simp] theorem State.countFix_acq (s : State) (k n : Nat) : (s.countFix k n).acq = s.acq := rfl
@[simp] theorem State.countFix_wln (s : State) (k n : Nat) : (s.countFix k n).wln = s.wln := rfl
@[simp] theorem State.countFix_eth (s : State) (k n : Nat) : (s.countFix k n).eth = s.eth := rfl
@[simp] theorem State.countFix_bnc (s : State) (k n : Nat) : (s.countFix k n).bnc = s.bnc := rfl

@[simp] theorem State.setDq_now (s : State) (q : Nat) (x : DQueue) : (s.setDq q x).now = s.now := rfl
@[simp] theorem State.setDq_free (s : State) (q : Nat) (x : DQueue) : (s.setDq q x).free = s.free := rfl
@[simp] theorem State.setDq_pending (s : State) (q : Nat) (x : DQueue) : (s.setDq q x).pending = s.pending := rfl
@[simp] theorem State.setDq_regs (s : State) (q : Nat) (x : DQueue) : (s.setDq q x).regs = s.regs := rfl
@[simp] theorem State.setDq_host (s : State) (q : Nat) (x : DQueue) : (s.setDq q x).host = s.host := rfl
@[simp] theorem State.setDq_mers (s : State) (q : Nat) (x : DQueue) : (s.setDq q x).mers = s.mers := rfl
@[simp] theorem State.setDq_ms (s : State) (q : Nat) (x : DQueue) : (s.setDq q x).ms = s.ms := rfl
@[simp] theorem State.setDq_swy (s : State) (q : Nat) (x : DQueue) : (s.setDq q x).swy = s.swy := rfl
@[simp] theorem State.setDq_helm (s : State) (q : Nat) (x : DQueue) : (s.setDq q x).helm = s.helm := rfl
@[simp] theorem State.setDq_pins (s : State) (q : Nat) (x : DQueue) : (s.setDq q x).pins = s.pins := rfl
@[simp] theorem State.setDq_alm (s : State) (q : Nat) (x : DQueue) : (s.setDq q x).alm = s.alm := rfl
@[simp] theorem State.setDq_clusters (s : State) (q : Nat) (x : DQueue) : (s.setDq q x).clusters = s.clusters := rfl
@[simp] theorem State.setDq_pilots (s : State) (q : Nat) (x : DQueue) : (s.setDq q x).pilots = s.pilots := rfl
@[simp] theorem State.setDq_jobs (s : State) (q : Nat) (x : DQueue) : (s.setDq q x).jobs = s.jobs := rfl
@[simp] theorem State.setDq_hbm (s : State) (q : Nat) (x : DQueue) : (s.setDq q x).hbm = s.hbm := rfl
@[simp] theorem State.setDq_chart (s : State) (q : Nat) (x : DQueue) : (s.setDq q x).chart = s.chart := rfl
@[simp] theorem State.setDq_dma (s : State) (q : Nat) (x : DQueue) : (s.setDq q x).dma = s.dma := rfl
@[simp] theorem State.setDq_sxt (s : State) (q : Nat) (x : DQueue) : (s.setDq q x).sxt = s.sxt := rfl
@[simp] theorem State.setDq_dds (s : State) (q : Nat) (x : DQueue) : (s.setDq q x).dds = s.dds := rfl
@[simp] theorem State.setDq_adc (s : State) (q : Nat) (x : DQueue) : (s.setDq q x).adc = s.adc := rfl
@[simp] theorem State.setDq_acq (s : State) (q : Nat) (x : DQueue) : (s.setDq q x).acq = s.acq := rfl
@[simp] theorem State.setDq_wln (s : State) (q : Nat) (x : DQueue) : (s.setDq q x).wln = s.wln := rfl
@[simp] theorem State.setDq_eth (s : State) (q : Nat) (x : DQueue) : (s.setDq q x).eth = s.eth := rfl
@[simp] theorem State.setDq_bnc (s : State) (q : Nat) (x : DQueue) : (s.setDq q x).bnc = s.bnc := rfl

@[simp] theorem State.setTask_now (s : State) (t : Nat) (x : Task) : (s.setTask t x).now = s.now := rfl
@[simp] theorem State.setTask_free (s : State) (t : Nat) (x : Task) : (s.setTask t x).free = s.free := rfl
@[simp] theorem State.setTask_pending (s : State) (t : Nat) (x : Task) : (s.setTask t x).pending = s.pending := rfl
@[simp] theorem State.setTask_regs (s : State) (t : Nat) (x : Task) : (s.setTask t x).regs = s.regs := rfl
@[simp] theorem State.setTask_host (s : State) (t : Nat) (x : Task) : (s.setTask t x).host = s.host := rfl
@[simp] theorem State.setTask_mers (s : State) (t : Nat) (x : Task) : (s.setTask t x).mers = s.mers := rfl
@[simp] theorem State.setTask_ms (s : State) (t : Nat) (x : Task) : (s.setTask t x).ms = s.ms := rfl
@[simp] theorem State.setTask_depot (s : State) (t : Nat) (x : Task) : (s.setTask t x).depot = s.depot := rfl
@[simp] theorem State.setTask_helm (s : State) (t : Nat) (x : Task) : (s.setTask t x).helm = s.helm := rfl
@[simp] theorem State.setTask_pins (s : State) (t : Nat) (x : Task) : (s.setTask t x).pins = s.pins := rfl
@[simp] theorem State.setTask_alm (s : State) (t : Nat) (x : Task) : (s.setTask t x).alm = s.alm := rfl
@[simp] theorem State.setTask_clusters (s : State) (t : Nat) (x : Task) : (s.setTask t x).clusters = s.clusters := rfl
@[simp] theorem State.setTask_pilots (s : State) (t : Nat) (x : Task) : (s.setTask t x).pilots = s.pilots := rfl
@[simp] theorem State.setTask_jobs (s : State) (t : Nat) (x : Task) : (s.setTask t x).jobs = s.jobs := rfl
@[simp] theorem State.setTask_hbm (s : State) (t : Nat) (x : Task) : (s.setTask t x).hbm = s.hbm := rfl
@[simp] theorem State.setTask_chart (s : State) (t : Nat) (x : Task) : (s.setTask t x).chart = s.chart := rfl
@[simp] theorem State.setTask_dma (s : State) (t : Nat) (x : Task) : (s.setTask t x).dma = s.dma := rfl
@[simp] theorem State.setTask_sxt (s : State) (t : Nat) (x : Task) : (s.setTask t x).sxt = s.sxt := rfl
@[simp] theorem State.setTask_dds (s : State) (t : Nat) (x : Task) : (s.setTask t x).dds = s.dds := rfl
@[simp] theorem State.setTask_adc (s : State) (t : Nat) (x : Task) : (s.setTask t x).adc = s.adc := rfl
@[simp] theorem State.setTask_acq (s : State) (t : Nat) (x : Task) : (s.setTask t x).acq = s.acq := rfl
@[simp] theorem State.setTask_wln (s : State) (t : Nat) (x : Task) : (s.setTask t x).wln = s.wln := rfl
@[simp] theorem State.setTask_eth (s : State) (t : Nat) (x : Task) : (s.setTask t x).eth = s.eth := rfl
@[simp] theorem State.setTask_bnc (s : State) (t : Nat) (x : Task) : (s.setTask t x).bnc = s.bnc := rfl

@[simp] theorem State.setHart_now (s : State) (h : Nat) (x : Hart) : (s.setHart h x).now = s.now := rfl
@[simp] theorem State.setHart_free (s : State) (h : Nat) (x : Hart) : (s.setHart h x).free = s.free := rfl
@[simp] theorem State.setHart_pending (s : State) (h : Nat) (x : Hart) : (s.setHart h x).pending = s.pending := rfl
@[simp] theorem State.setHart_regs (s : State) (h : Nat) (x : Hart) : (s.setHart h x).regs = s.regs := rfl
@[simp] theorem State.setHart_host (s : State) (h : Nat) (x : Hart) : (s.setHart h x).host = s.host := rfl
@[simp] theorem State.setHart_mers (s : State) (h : Nat) (x : Hart) : (s.setHart h x).mers = s.mers := rfl
@[simp] theorem State.setHart_ms (s : State) (h : Nat) (x : Hart) : (s.setHart h x).ms = s.ms := rfl
@[simp] theorem State.setHart_depot (s : State) (h : Nat) (x : Hart) : (s.setHart h x).depot = s.depot := rfl
@[simp] theorem State.setHart_helm (s : State) (h : Nat) (x : Hart) : (s.setHart h x).helm = s.helm := rfl
@[simp] theorem State.setHart_pins (s : State) (h : Nat) (x : Hart) : (s.setHart h x).pins = s.pins := rfl
@[simp] theorem State.setHart_alm (s : State) (h : Nat) (x : Hart) : (s.setHart h x).alm = s.alm := rfl
@[simp] theorem State.setHart_clusters (s : State) (h : Nat) (x : Hart) : (s.setHart h x).clusters = s.clusters := rfl
@[simp] theorem State.setHart_pilots (s : State) (h : Nat) (x : Hart) : (s.setHart h x).pilots = s.pilots := rfl
@[simp] theorem State.setHart_jobs (s : State) (h : Nat) (x : Hart) : (s.setHart h x).jobs = s.jobs := rfl
@[simp] theorem State.setHart_hbm (s : State) (h : Nat) (x : Hart) : (s.setHart h x).hbm = s.hbm := rfl
@[simp] theorem State.setHart_chart (s : State) (h : Nat) (x : Hart) : (s.setHart h x).chart = s.chart := rfl
@[simp] theorem State.setHart_dma (s : State) (h : Nat) (x : Hart) : (s.setHart h x).dma = s.dma := rfl
@[simp] theorem State.setHart_sxt (s : State) (h : Nat) (x : Hart) : (s.setHart h x).sxt = s.sxt := rfl
@[simp] theorem State.setHart_dds (s : State) (h : Nat) (x : Hart) : (s.setHart h x).dds = s.dds := rfl
@[simp] theorem State.setHart_adc (s : State) (h : Nat) (x : Hart) : (s.setHart h x).adc = s.adc := rfl
@[simp] theorem State.setHart_acq (s : State) (h : Nat) (x : Hart) : (s.setHart h x).acq = s.acq := rfl
@[simp] theorem State.setHart_wln (s : State) (h : Nat) (x : Hart) : (s.setHart h x).wln = s.wln := rfl
@[simp] theorem State.setHart_eth (s : State) (h : Nat) (x : Hart) : (s.setHart h x).eth = s.eth := rfl
@[simp] theorem State.setHart_bnc (s : State) (h : Nat) (x : Hart) : (s.setHart h x).bnc = s.bnc := rfl

@[simp] theorem State.setChan_now (s : State) (ch : Nat) (c : Chan) : (s.setChan ch c).now = s.now := rfl
@[simp] theorem State.setChan_free (s : State) (ch : Nat) (c : Chan) : (s.setChan ch c).free = s.free := rfl
@[simp] theorem State.setChan_pending (s : State) (ch : Nat) (c : Chan) : (s.setChan ch c).pending = s.pending := rfl
@[simp] theorem State.setChan_regs (s : State) (ch : Nat) (c : Chan) : (s.setChan ch c).regs = s.regs := rfl
@[simp] theorem State.setChan_host (s : State) (ch : Nat) (c : Chan) : (s.setChan ch c).host = s.host := rfl
@[simp] theorem State.setChan_mers (s : State) (ch : Nat) (c : Chan) : (s.setChan ch c).mers = s.mers := rfl
@[simp] theorem State.setChan_ms (s : State) (ch : Nat) (c : Chan) : (s.setChan ch c).ms = s.ms := rfl
@[simp] theorem State.setChan_depot (s : State) (ch : Nat) (c : Chan) : (s.setChan ch c).depot = s.depot := rfl
@[simp] theorem State.setChan_swy (s : State) (ch : Nat) (c : Chan) : (s.setChan ch c).swy = s.swy := rfl
@[simp] theorem State.setChan_helm (s : State) (ch : Nat) (c : Chan) : (s.setChan ch c).helm = s.helm := rfl
@[simp] theorem State.setChan_pins (s : State) (ch : Nat) (c : Chan) : (s.setChan ch c).pins = s.pins := rfl
@[simp] theorem State.setChan_alm (s : State) (ch : Nat) (c : Chan) : (s.setChan ch c).alm = s.alm := rfl
@[simp] theorem State.setChan_clusters (s : State) (ch : Nat) (c : Chan) : (s.setChan ch c).clusters = s.clusters := rfl
@[simp] theorem State.setChan_pilots (s : State) (ch : Nat) (c : Chan) : (s.setChan ch c).pilots = s.pilots := rfl
@[simp] theorem State.setChan_jobs (s : State) (ch : Nat) (c : Chan) : (s.setChan ch c).jobs = s.jobs := rfl
@[simp] theorem State.setChan_chart (s : State) (ch : Nat) (c : Chan) : (s.setChan ch c).chart = s.chart := rfl
@[simp] theorem State.setChan_dma (s : State) (ch : Nat) (c : Chan) : (s.setChan ch c).dma = s.dma := rfl
@[simp] theorem State.setChan_sxt (s : State) (ch : Nat) (c : Chan) : (s.setChan ch c).sxt = s.sxt := rfl
@[simp] theorem State.setChan_dds (s : State) (ch : Nat) (c : Chan) : (s.setChan ch c).dds = s.dds := rfl
@[simp] theorem State.setChan_adc (s : State) (ch : Nat) (c : Chan) : (s.setChan ch c).adc = s.adc := rfl
@[simp] theorem State.setChan_acq (s : State) (ch : Nat) (c : Chan) : (s.setChan ch c).acq = s.acq := rfl
@[simp] theorem State.setChan_wln (s : State) (ch : Nat) (c : Chan) : (s.setChan ch c).wln = s.wln := rfl
@[simp] theorem State.setChan_eth (s : State) (ch : Nat) (c : Chan) : (s.setChan ch c).eth = s.eth := rfl
@[simp] theorem State.setChan_bnc (s : State) (ch : Nat) (c : Chan) : (s.setChan ch c).bnc = s.bnc := rfl

@[simp] theorem State.setRing_now (s : State) (r : Nat) (x : Ring) : (s.setRing r x).now = s.now := rfl
@[simp] theorem State.setRing_free (s : State) (r : Nat) (x : Ring) : (s.setRing r x).free = s.free := rfl
@[simp] theorem State.setRing_pending (s : State) (r : Nat) (x : Ring) : (s.setRing r x).pending = s.pending := rfl
@[simp] theorem State.setRing_regs (s : State) (r : Nat) (x : Ring) : (s.setRing r x).regs = s.regs := rfl
@[simp] theorem State.setRing_host (s : State) (r : Nat) (x : Ring) : (s.setRing r x).host = s.host := rfl
@[simp] theorem State.setRing_mers (s : State) (r : Nat) (x : Ring) : (s.setRing r x).mers = s.mers := rfl
@[simp] theorem State.setRing_ms (s : State) (r : Nat) (x : Ring) : (s.setRing r x).ms = s.ms := rfl
@[simp] theorem State.setRing_depot (s : State) (r : Nat) (x : Ring) : (s.setRing r x).depot = s.depot := rfl
@[simp] theorem State.setRing_swy (s : State) (r : Nat) (x : Ring) : (s.setRing r x).swy = s.swy := rfl
@[simp] theorem State.setRing_pins (s : State) (r : Nat) (x : Ring) : (s.setRing r x).pins = s.pins := rfl
@[simp] theorem State.setRing_alm (s : State) (r : Nat) (x : Ring) : (s.setRing r x).alm = s.alm := rfl
@[simp] theorem State.setRing_clusters (s : State) (r : Nat) (x : Ring) : (s.setRing r x).clusters = s.clusters := rfl
@[simp] theorem State.setRing_pilots (s : State) (r : Nat) (x : Ring) : (s.setRing r x).pilots = s.pilots := rfl
@[simp] theorem State.setRing_jobs (s : State) (r : Nat) (x : Ring) : (s.setRing r x).jobs = s.jobs := rfl
@[simp] theorem State.setRing_hbm (s : State) (r : Nat) (x : Ring) : (s.setRing r x).hbm = s.hbm := rfl
@[simp] theorem State.setRing_chart (s : State) (r : Nat) (x : Ring) : (s.setRing r x).chart = s.chart := rfl
@[simp] theorem State.setRing_dma (s : State) (r : Nat) (x : Ring) : (s.setRing r x).dma = s.dma := rfl
@[simp] theorem State.setRing_sxt (s : State) (r : Nat) (x : Ring) : (s.setRing r x).sxt = s.sxt := rfl
@[simp] theorem State.setRing_dds (s : State) (r : Nat) (x : Ring) : (s.setRing r x).dds = s.dds := rfl
@[simp] theorem State.setRing_adc (s : State) (r : Nat) (x : Ring) : (s.setRing r x).adc = s.adc := rfl
@[simp] theorem State.setRing_acq (s : State) (r : Nat) (x : Ring) : (s.setRing r x).acq = s.acq := rfl
@[simp] theorem State.setRing_wln (s : State) (r : Nat) (x : Ring) : (s.setRing r x).wln = s.wln := rfl
@[simp] theorem State.setRing_eth (s : State) (r : Nat) (x : Ring) : (s.setRing r x).eth = s.eth := rfl
@[simp] theorem State.setRing_bnc (s : State) (r : Nat) (x : Ring) : (s.setRing r x).bnc = s.bnc := rfl

@[simp] theorem State.setPilot_now (s : State) (p : Nat) (x : Pilot) : (s.setPilot p x).now = s.now := rfl
@[simp] theorem State.setPilot_free (s : State) (p : Nat) (x : Pilot) : (s.setPilot p x).free = s.free := rfl
@[simp] theorem State.setPilot_pending (s : State) (p : Nat) (x : Pilot) : (s.setPilot p x).pending = s.pending := rfl
@[simp] theorem State.setPilot_regs (s : State) (p : Nat) (x : Pilot) : (s.setPilot p x).regs = s.regs := rfl
@[simp] theorem State.setPilot_host (s : State) (p : Nat) (x : Pilot) : (s.setPilot p x).host = s.host := rfl
@[simp] theorem State.setPilot_mers (s : State) (p : Nat) (x : Pilot) : (s.setPilot p x).mers = s.mers := rfl
@[simp] theorem State.setPilot_ms (s : State) (p : Nat) (x : Pilot) : (s.setPilot p x).ms = s.ms := rfl
@[simp] theorem State.setPilot_depot (s : State) (p : Nat) (x : Pilot) : (s.setPilot p x).depot = s.depot := rfl
@[simp] theorem State.setPilot_swy (s : State) (p : Nat) (x : Pilot) : (s.setPilot p x).swy = s.swy := rfl
@[simp] theorem State.setPilot_helm (s : State) (p : Nat) (x : Pilot) : (s.setPilot p x).helm = s.helm := rfl
@[simp] theorem State.setPilot_pins (s : State) (p : Nat) (x : Pilot) : (s.setPilot p x).pins = s.pins := rfl
@[simp] theorem State.setPilot_alm (s : State) (p : Nat) (x : Pilot) : (s.setPilot p x).alm = s.alm := rfl
@[simp] theorem State.setPilot_clusters (s : State) (p : Nat) (x : Pilot) : (s.setPilot p x).clusters = s.clusters := rfl
@[simp] theorem State.setPilot_jobs (s : State) (p : Nat) (x : Pilot) : (s.setPilot p x).jobs = s.jobs := rfl
@[simp] theorem State.setPilot_hbm (s : State) (p : Nat) (x : Pilot) : (s.setPilot p x).hbm = s.hbm := rfl
@[simp] theorem State.setPilot_chart (s : State) (p : Nat) (x : Pilot) : (s.setPilot p x).chart = s.chart := rfl
@[simp] theorem State.setPilot_dma (s : State) (p : Nat) (x : Pilot) : (s.setPilot p x).dma = s.dma := rfl
@[simp] theorem State.setPilot_sxt (s : State) (p : Nat) (x : Pilot) : (s.setPilot p x).sxt = s.sxt := rfl
@[simp] theorem State.setPilot_dds (s : State) (p : Nat) (x : Pilot) : (s.setPilot p x).dds = s.dds := rfl
@[simp] theorem State.setPilot_adc (s : State) (p : Nat) (x : Pilot) : (s.setPilot p x).adc = s.adc := rfl
@[simp] theorem State.setPilot_acq (s : State) (p : Nat) (x : Pilot) : (s.setPilot p x).acq = s.acq := rfl
@[simp] theorem State.setPilot_wln (s : State) (p : Nat) (x : Pilot) : (s.setPilot p x).wln = s.wln := rfl
@[simp] theorem State.setPilot_eth (s : State) (p : Nat) (x : Pilot) : (s.setPilot p x).eth = s.eth := rfl
@[simp] theorem State.setPilot_bnc (s : State) (p : Nat) (x : Pilot) : (s.setPilot p x).bnc = s.bnc := rfl

@[simp] theorem State.setSeq_now (s : State) (p : Nat) (q : Seq) : (s.setSeq p q).now = s.now := rfl
@[simp] theorem State.setSeq_free (s : State) (p : Nat) (q : Seq) : (s.setSeq p q).free = s.free := rfl
@[simp] theorem State.setSeq_pending (s : State) (p : Nat) (q : Seq) : (s.setSeq p q).pending = s.pending := rfl
@[simp] theorem State.setSeq_regs (s : State) (p : Nat) (q : Seq) : (s.setSeq p q).regs = s.regs := rfl
@[simp] theorem State.setSeq_host (s : State) (p : Nat) (q : Seq) : (s.setSeq p q).host = s.host := rfl
@[simp] theorem State.setSeq_mers (s : State) (p : Nat) (q : Seq) : (s.setSeq p q).mers = s.mers := rfl
@[simp] theorem State.setSeq_ms (s : State) (p : Nat) (q : Seq) : (s.setSeq p q).ms = s.ms := rfl
@[simp] theorem State.setSeq_depot (s : State) (p : Nat) (q : Seq) : (s.setSeq p q).depot = s.depot := rfl
@[simp] theorem State.setSeq_swy (s : State) (p : Nat) (q : Seq) : (s.setSeq p q).swy = s.swy := rfl
@[simp] theorem State.setSeq_helm (s : State) (p : Nat) (q : Seq) : (s.setSeq p q).helm = s.helm := rfl
@[simp] theorem State.setSeq_pins (s : State) (p : Nat) (q : Seq) : (s.setSeq p q).pins = s.pins := rfl
@[simp] theorem State.setSeq_alm (s : State) (p : Nat) (q : Seq) : (s.setSeq p q).alm = s.alm := rfl
@[simp] theorem State.setSeq_clusters (s : State) (p : Nat) (q : Seq) : (s.setSeq p q).clusters = s.clusters := rfl
@[simp] theorem State.setSeq_jobs (s : State) (p : Nat) (q : Seq) : (s.setSeq p q).jobs = s.jobs := rfl
@[simp] theorem State.setSeq_hbm (s : State) (p : Nat) (q : Seq) : (s.setSeq p q).hbm = s.hbm := rfl
@[simp] theorem State.setSeq_chart (s : State) (p : Nat) (q : Seq) : (s.setSeq p q).chart = s.chart := rfl
@[simp] theorem State.setSeq_dma (s : State) (p : Nat) (q : Seq) : (s.setSeq p q).dma = s.dma := rfl
@[simp] theorem State.setSeq_sxt (s : State) (p : Nat) (q : Seq) : (s.setSeq p q).sxt = s.sxt := rfl
@[simp] theorem State.setSeq_dds (s : State) (p : Nat) (q : Seq) : (s.setSeq p q).dds = s.dds := rfl
@[simp] theorem State.setSeq_adc (s : State) (p : Nat) (q : Seq) : (s.setSeq p q).adc = s.adc := rfl
@[simp] theorem State.setSeq_acq (s : State) (p : Nat) (q : Seq) : (s.setSeq p q).acq = s.acq := rfl
@[simp] theorem State.setSeq_wln (s : State) (p : Nat) (q : Seq) : (s.setSeq p q).wln = s.wln := rfl
@[simp] theorem State.setSeq_eth (s : State) (p : Nat) (q : Seq) : (s.setSeq p q).eth = s.eth := rfl
@[simp] theorem State.setSeq_bnc (s : State) (p : Nat) (q : Seq) : (s.setSeq p q).bnc = s.bnc := rfl

@[simp] theorem State.setLeg_now (s : State) (p : Nat) (l : Leg) : (s.setLeg p l).now = s.now := rfl
@[simp] theorem State.setLeg_free (s : State) (p : Nat) (l : Leg) : (s.setLeg p l).free = s.free := rfl
@[simp] theorem State.setLeg_pending (s : State) (p : Nat) (l : Leg) : (s.setLeg p l).pending = s.pending := rfl
@[simp] theorem State.setLeg_regs (s : State) (p : Nat) (l : Leg) : (s.setLeg p l).regs = s.regs := rfl
@[simp] theorem State.setLeg_host (s : State) (p : Nat) (l : Leg) : (s.setLeg p l).host = s.host := rfl
@[simp] theorem State.setLeg_mers (s : State) (p : Nat) (l : Leg) : (s.setLeg p l).mers = s.mers := rfl
@[simp] theorem State.setLeg_ms (s : State) (p : Nat) (l : Leg) : (s.setLeg p l).ms = s.ms := rfl
@[simp] theorem State.setLeg_depot (s : State) (p : Nat) (l : Leg) : (s.setLeg p l).depot = s.depot := rfl
@[simp] theorem State.setLeg_swy (s : State) (p : Nat) (l : Leg) : (s.setLeg p l).swy = s.swy := rfl
@[simp] theorem State.setLeg_helm (s : State) (p : Nat) (l : Leg) : (s.setLeg p l).helm = s.helm := rfl
@[simp] theorem State.setLeg_pins (s : State) (p : Nat) (l : Leg) : (s.setLeg p l).pins = s.pins := rfl
@[simp] theorem State.setLeg_alm (s : State) (p : Nat) (l : Leg) : (s.setLeg p l).alm = s.alm := rfl
@[simp] theorem State.setLeg_clusters (s : State) (p : Nat) (l : Leg) : (s.setLeg p l).clusters = s.clusters := rfl
@[simp] theorem State.setLeg_jobs (s : State) (p : Nat) (l : Leg) : (s.setLeg p l).jobs = s.jobs := rfl
@[simp] theorem State.setLeg_hbm (s : State) (p : Nat) (l : Leg) : (s.setLeg p l).hbm = s.hbm := rfl
@[simp] theorem State.setLeg_chart (s : State) (p : Nat) (l : Leg) : (s.setLeg p l).chart = s.chart := rfl
@[simp] theorem State.setLeg_dma (s : State) (p : Nat) (l : Leg) : (s.setLeg p l).dma = s.dma := rfl
@[simp] theorem State.setLeg_sxt (s : State) (p : Nat) (l : Leg) : (s.setLeg p l).sxt = s.sxt := rfl
@[simp] theorem State.setLeg_dds (s : State) (p : Nat) (l : Leg) : (s.setLeg p l).dds = s.dds := rfl
@[simp] theorem State.setLeg_adc (s : State) (p : Nat) (l : Leg) : (s.setLeg p l).adc = s.adc := rfl
@[simp] theorem State.setLeg_acq (s : State) (p : Nat) (l : Leg) : (s.setLeg p l).acq = s.acq := rfl
@[simp] theorem State.setLeg_wln (s : State) (p : Nat) (l : Leg) : (s.setLeg p l).wln = s.wln := rfl
@[simp] theorem State.setLeg_eth (s : State) (p : Nat) (l : Leg) : (s.setLeg p l).eth = s.eth := rfl
@[simp] theorem State.setLeg_bnc (s : State) (p : Nat) (l : Leg) : (s.setLeg p l).bnc = s.bnc := rfl

@[simp] theorem State.setStr_now (s : State) (p : Nat) (x : Streams) : (s.setStr p x).now = s.now := rfl
@[simp] theorem State.setStr_free (s : State) (p : Nat) (x : Streams) : (s.setStr p x).free = s.free := rfl
@[simp] theorem State.setStr_pending (s : State) (p : Nat) (x : Streams) : (s.setStr p x).pending = s.pending := rfl
@[simp] theorem State.setStr_regs (s : State) (p : Nat) (x : Streams) : (s.setStr p x).regs = s.regs := rfl
@[simp] theorem State.setStr_host (s : State) (p : Nat) (x : Streams) : (s.setStr p x).host = s.host := rfl
@[simp] theorem State.setStr_mers (s : State) (p : Nat) (x : Streams) : (s.setStr p x).mers = s.mers := rfl
@[simp] theorem State.setStr_ms (s : State) (p : Nat) (x : Streams) : (s.setStr p x).ms = s.ms := rfl
@[simp] theorem State.setStr_depot (s : State) (p : Nat) (x : Streams) : (s.setStr p x).depot = s.depot := rfl
@[simp] theorem State.setStr_swy (s : State) (p : Nat) (x : Streams) : (s.setStr p x).swy = s.swy := rfl
@[simp] theorem State.setStr_helm (s : State) (p : Nat) (x : Streams) : (s.setStr p x).helm = s.helm := rfl
@[simp] theorem State.setStr_pins (s : State) (p : Nat) (x : Streams) : (s.setStr p x).pins = s.pins := rfl
@[simp] theorem State.setStr_alm (s : State) (p : Nat) (x : Streams) : (s.setStr p x).alm = s.alm := rfl
@[simp] theorem State.setStr_clusters (s : State) (p : Nat) (x : Streams) : (s.setStr p x).clusters = s.clusters := rfl
@[simp] theorem State.setStr_jobs (s : State) (p : Nat) (x : Streams) : (s.setStr p x).jobs = s.jobs := rfl
@[simp] theorem State.setStr_hbm (s : State) (p : Nat) (x : Streams) : (s.setStr p x).hbm = s.hbm := rfl
@[simp] theorem State.setStr_chart (s : State) (p : Nat) (x : Streams) : (s.setStr p x).chart = s.chart := rfl
@[simp] theorem State.setStr_dma (s : State) (p : Nat) (x : Streams) : (s.setStr p x).dma = s.dma := rfl
@[simp] theorem State.setStr_sxt (s : State) (p : Nat) (x : Streams) : (s.setStr p x).sxt = s.sxt := rfl
@[simp] theorem State.setStr_dds (s : State) (p : Nat) (x : Streams) : (s.setStr p x).dds = s.dds := rfl
@[simp] theorem State.setStr_adc (s : State) (p : Nat) (x : Streams) : (s.setStr p x).adc = s.adc := rfl
@[simp] theorem State.setStr_acq (s : State) (p : Nat) (x : Streams) : (s.setStr p x).acq = s.acq := rfl
@[simp] theorem State.setStr_wln (s : State) (p : Nat) (x : Streams) : (s.setStr p x).wln = s.wln := rfl
@[simp] theorem State.setStr_eth (s : State) (p : Nat) (x : Streams) : (s.setStr p x).eth = s.eth := rfl
@[simp] theorem State.setStr_bnc (s : State) (p : Nat) (x : Streams) : (s.setStr p x).bnc = s.bnc := rfl

@[simp] theorem State.setPin_now (s : State) (n : Nat) (x : Pin) : (s.setPin n x).now = s.now := rfl
@[simp] theorem State.setPin_free (s : State) (n : Nat) (x : Pin) : (s.setPin n x).free = s.free := rfl
@[simp] theorem State.setPin_pending (s : State) (n : Nat) (x : Pin) : (s.setPin n x).pending = s.pending := rfl
@[simp] theorem State.setPin_regs (s : State) (n : Nat) (x : Pin) : (s.setPin n x).regs = s.regs := rfl
@[simp] theorem State.setPin_host (s : State) (n : Nat) (x : Pin) : (s.setPin n x).host = s.host := rfl
@[simp] theorem State.setPin_mers (s : State) (n : Nat) (x : Pin) : (s.setPin n x).mers = s.mers := rfl
@[simp] theorem State.setPin_ms (s : State) (n : Nat) (x : Pin) : (s.setPin n x).ms = s.ms := rfl
@[simp] theorem State.setPin_depot (s : State) (n : Nat) (x : Pin) : (s.setPin n x).depot = s.depot := rfl
@[simp] theorem State.setPin_swy (s : State) (n : Nat) (x : Pin) : (s.setPin n x).swy = s.swy := rfl
@[simp] theorem State.setPin_helm (s : State) (n : Nat) (x : Pin) : (s.setPin n x).helm = s.helm := rfl
@[simp] theorem State.setPin_alm (s : State) (n : Nat) (x : Pin) : (s.setPin n x).alm = s.alm := rfl
@[simp] theorem State.setPin_clusters (s : State) (n : Nat) (x : Pin) : (s.setPin n x).clusters = s.clusters := rfl
@[simp] theorem State.setPin_pilots (s : State) (n : Nat) (x : Pin) : (s.setPin n x).pilots = s.pilots := rfl
@[simp] theorem State.setPin_jobs (s : State) (n : Nat) (x : Pin) : (s.setPin n x).jobs = s.jobs := rfl
@[simp] theorem State.setPin_hbm (s : State) (n : Nat) (x : Pin) : (s.setPin n x).hbm = s.hbm := rfl
@[simp] theorem State.setPin_chart (s : State) (n : Nat) (x : Pin) : (s.setPin n x).chart = s.chart := rfl
@[simp] theorem State.setPin_dma (s : State) (n : Nat) (x : Pin) : (s.setPin n x).dma = s.dma := rfl
@[simp] theorem State.setPin_sxt (s : State) (n : Nat) (x : Pin) : (s.setPin n x).sxt = s.sxt := rfl
@[simp] theorem State.setPin_dds (s : State) (n : Nat) (x : Pin) : (s.setPin n x).dds = s.dds := rfl
@[simp] theorem State.setPin_adc (s : State) (n : Nat) (x : Pin) : (s.setPin n x).adc = s.adc := rfl
@[simp] theorem State.setPin_acq (s : State) (n : Nat) (x : Pin) : (s.setPin n x).acq = s.acq := rfl
@[simp] theorem State.setPin_wln (s : State) (n : Nat) (x : Pin) : (s.setPin n x).wln = s.wln := rfl
@[simp] theorem State.setPin_eth (s : State) (n : Nat) (x : Pin) : (s.setPin n x).eth = s.eth := rfl
@[simp] theorem State.setPin_bnc (s : State) (n : Nat) (x : Pin) : (s.setPin n x).bnc = s.bnc := rfl

@[simp] theorem State.setJob_now (s : State) (j : Nat) (x : Job) : (s.setJob j x).now = s.now := rfl
@[simp] theorem State.setJob_free (s : State) (j : Nat) (x : Job) : (s.setJob j x).free = s.free := rfl
@[simp] theorem State.setJob_pending (s : State) (j : Nat) (x : Job) : (s.setJob j x).pending = s.pending := rfl
@[simp] theorem State.setJob_regs (s : State) (j : Nat) (x : Job) : (s.setJob j x).regs = s.regs := rfl
@[simp] theorem State.setJob_host (s : State) (j : Nat) (x : Job) : (s.setJob j x).host = s.host := rfl
@[simp] theorem State.setJob_mers (s : State) (j : Nat) (x : Job) : (s.setJob j x).mers = s.mers := rfl
@[simp] theorem State.setJob_ms (s : State) (j : Nat) (x : Job) : (s.setJob j x).ms = s.ms := rfl
@[simp] theorem State.setJob_depot (s : State) (j : Nat) (x : Job) : (s.setJob j x).depot = s.depot := rfl
@[simp] theorem State.setJob_swy (s : State) (j : Nat) (x : Job) : (s.setJob j x).swy = s.swy := rfl
@[simp] theorem State.setJob_helm (s : State) (j : Nat) (x : Job) : (s.setJob j x).helm = s.helm := rfl
@[simp] theorem State.setJob_pins (s : State) (j : Nat) (x : Job) : (s.setJob j x).pins = s.pins := rfl
@[simp] theorem State.setJob_alm (s : State) (j : Nat) (x : Job) : (s.setJob j x).alm = s.alm := rfl
@[simp] theorem State.setJob_clusters (s : State) (j : Nat) (x : Job) : (s.setJob j x).clusters = s.clusters := rfl
@[simp] theorem State.setJob_pilots (s : State) (j : Nat) (x : Job) : (s.setJob j x).pilots = s.pilots := rfl
@[simp] theorem State.setJob_hbm (s : State) (j : Nat) (x : Job) : (s.setJob j x).hbm = s.hbm := rfl
@[simp] theorem State.setJob_chart (s : State) (j : Nat) (x : Job) : (s.setJob j x).chart = s.chart := rfl
@[simp] theorem State.setJob_dma (s : State) (j : Nat) (x : Job) : (s.setJob j x).dma = s.dma := rfl
@[simp] theorem State.setJob_sxt (s : State) (j : Nat) (x : Job) : (s.setJob j x).sxt = s.sxt := rfl
@[simp] theorem State.setJob_dds (s : State) (j : Nat) (x : Job) : (s.setJob j x).dds = s.dds := rfl
@[simp] theorem State.setJob_adc (s : State) (j : Nat) (x : Job) : (s.setJob j x).adc = s.adc := rfl
@[simp] theorem State.setJob_acq (s : State) (j : Nat) (x : Job) : (s.setJob j x).acq = s.acq := rfl
@[simp] theorem State.setJob_wln (s : State) (j : Nat) (x : Job) : (s.setJob j x).wln = s.wln := rfl
@[simp] theorem State.setJob_eth (s : State) (j : Nat) (x : Job) : (s.setJob j x).eth = s.eth := rfl
@[simp] theorem State.setJob_bnc (s : State) (j : Nat) (x : Job) : (s.setJob j x).bnc = s.bnc := rfl

@[simp] theorem State.setAq_now (s : State) (u : Nat) (x : AcqUnit) : (s.setAq u x).now = s.now := rfl
@[simp] theorem State.setAq_free (s : State) (u : Nat) (x : AcqUnit) : (s.setAq u x).free = s.free := rfl
@[simp] theorem State.setAq_pending (s : State) (u : Nat) (x : AcqUnit) : (s.setAq u x).pending = s.pending := rfl
@[simp] theorem State.setAq_regs (s : State) (u : Nat) (x : AcqUnit) : (s.setAq u x).regs = s.regs := rfl
@[simp] theorem State.setAq_host (s : State) (u : Nat) (x : AcqUnit) : (s.setAq u x).host = s.host := rfl
@[simp] theorem State.setAq_mers (s : State) (u : Nat) (x : AcqUnit) : (s.setAq u x).mers = s.mers := rfl
@[simp] theorem State.setAq_ms (s : State) (u : Nat) (x : AcqUnit) : (s.setAq u x).ms = s.ms := rfl
@[simp] theorem State.setAq_depot (s : State) (u : Nat) (x : AcqUnit) : (s.setAq u x).depot = s.depot := rfl
@[simp] theorem State.setAq_swy (s : State) (u : Nat) (x : AcqUnit) : (s.setAq u x).swy = s.swy := rfl
@[simp] theorem State.setAq_helm (s : State) (u : Nat) (x : AcqUnit) : (s.setAq u x).helm = s.helm := rfl
@[simp] theorem State.setAq_pins (s : State) (u : Nat) (x : AcqUnit) : (s.setAq u x).pins = s.pins := rfl
@[simp] theorem State.setAq_alm (s : State) (u : Nat) (x : AcqUnit) : (s.setAq u x).alm = s.alm := rfl
@[simp] theorem State.setAq_clusters (s : State) (u : Nat) (x : AcqUnit) : (s.setAq u x).clusters = s.clusters := rfl
@[simp] theorem State.setAq_pilots (s : State) (u : Nat) (x : AcqUnit) : (s.setAq u x).pilots = s.pilots := rfl
@[simp] theorem State.setAq_jobs (s : State) (u : Nat) (x : AcqUnit) : (s.setAq u x).jobs = s.jobs := rfl
@[simp] theorem State.setAq_hbm (s : State) (u : Nat) (x : AcqUnit) : (s.setAq u x).hbm = s.hbm := rfl
@[simp] theorem State.setAq_chart (s : State) (u : Nat) (x : AcqUnit) : (s.setAq u x).chart = s.chart := rfl
@[simp] theorem State.setAq_dma (s : State) (u : Nat) (x : AcqUnit) : (s.setAq u x).dma = s.dma := rfl
@[simp] theorem State.setAq_sxt (s : State) (u : Nat) (x : AcqUnit) : (s.setAq u x).sxt = s.sxt := rfl
@[simp] theorem State.setAq_dds (s : State) (u : Nat) (x : AcqUnit) : (s.setAq u x).dds = s.dds := rfl
@[simp] theorem State.setAq_adc (s : State) (u : Nat) (x : AcqUnit) : (s.setAq u x).adc = s.adc := rfl
@[simp] theorem State.setAq_wln (s : State) (u : Nat) (x : AcqUnit) : (s.setAq u x).wln = s.wln := rfl
@[simp] theorem State.setAq_eth (s : State) (u : Nat) (x : AcqUnit) : (s.setAq u x).eth = s.eth := rfl
@[simp] theorem State.setAq_bnc (s : State) (u : Nat) (x : AcqUnit) : (s.setAq u x).bnc = s.bnc := rfl

@[simp] theorem State.setSar_now (s : State) (r : Nat) (x : Sar) : (s.setSar r x).now = s.now := rfl
@[simp] theorem State.setSar_free (s : State) (r : Nat) (x : Sar) : (s.setSar r x).free = s.free := rfl
@[simp] theorem State.setSar_pending (s : State) (r : Nat) (x : Sar) : (s.setSar r x).pending = s.pending := rfl
@[simp] theorem State.setSar_regs (s : State) (r : Nat) (x : Sar) : (s.setSar r x).regs = s.regs := rfl
@[simp] theorem State.setSar_host (s : State) (r : Nat) (x : Sar) : (s.setSar r x).host = s.host := rfl
@[simp] theorem State.setSar_mers (s : State) (r : Nat) (x : Sar) : (s.setSar r x).mers = s.mers := rfl
@[simp] theorem State.setSar_ms (s : State) (r : Nat) (x : Sar) : (s.setSar r x).ms = s.ms := rfl
@[simp] theorem State.setSar_depot (s : State) (r : Nat) (x : Sar) : (s.setSar r x).depot = s.depot := rfl
@[simp] theorem State.setSar_swy (s : State) (r : Nat) (x : Sar) : (s.setSar r x).swy = s.swy := rfl
@[simp] theorem State.setSar_helm (s : State) (r : Nat) (x : Sar) : (s.setSar r x).helm = s.helm := rfl
@[simp] theorem State.setSar_pins (s : State) (r : Nat) (x : Sar) : (s.setSar r x).pins = s.pins := rfl
@[simp] theorem State.setSar_alm (s : State) (r : Nat) (x : Sar) : (s.setSar r x).alm = s.alm := rfl
@[simp] theorem State.setSar_clusters (s : State) (r : Nat) (x : Sar) : (s.setSar r x).clusters = s.clusters := rfl
@[simp] theorem State.setSar_pilots (s : State) (r : Nat) (x : Sar) : (s.setSar r x).pilots = s.pilots := rfl
@[simp] theorem State.setSar_jobs (s : State) (r : Nat) (x : Sar) : (s.setSar r x).jobs = s.jobs := rfl
@[simp] theorem State.setSar_hbm (s : State) (r : Nat) (x : Sar) : (s.setSar r x).hbm = s.hbm := rfl
@[simp] theorem State.setSar_chart (s : State) (r : Nat) (x : Sar) : (s.setSar r x).chart = s.chart := rfl
@[simp] theorem State.setSar_dma (s : State) (r : Nat) (x : Sar) : (s.setSar r x).dma = s.dma := rfl
@[simp] theorem State.setSar_sxt (s : State) (r : Nat) (x : Sar) : (s.setSar r x).sxt = s.sxt := rfl
@[simp] theorem State.setSar_dds (s : State) (r : Nat) (x : Sar) : (s.setSar r x).dds = s.dds := rfl
@[simp] theorem State.setSar_acq (s : State) (r : Nat) (x : Sar) : (s.setSar r x).acq = s.acq := rfl
@[simp] theorem State.setSar_wln (s : State) (r : Nat) (x : Sar) : (s.setSar r x).wln = s.wln := rfl
@[simp] theorem State.setSar_eth (s : State) (r : Nat) (x : Sar) : (s.setSar r x).eth = s.eth := rfl
@[simp] theorem State.setSar_bnc (s : State) (r : Nat) (x : Sar) : (s.setSar r x).bnc = s.bnc := rfl

@[simp] theorem State.setSd_now (s : State) (n : Nat) (x : SdChan) : (s.setSd n x).now = s.now := rfl
@[simp] theorem State.setSd_free (s : State) (n : Nat) (x : SdChan) : (s.setSd n x).free = s.free := rfl
@[simp] theorem State.setSd_pending (s : State) (n : Nat) (x : SdChan) : (s.setSd n x).pending = s.pending := rfl
@[simp] theorem State.setSd_regs (s : State) (n : Nat) (x : SdChan) : (s.setSd n x).regs = s.regs := rfl
@[simp] theorem State.setSd_host (s : State) (n : Nat) (x : SdChan) : (s.setSd n x).host = s.host := rfl
@[simp] theorem State.setSd_mers (s : State) (n : Nat) (x : SdChan) : (s.setSd n x).mers = s.mers := rfl
@[simp] theorem State.setSd_ms (s : State) (n : Nat) (x : SdChan) : (s.setSd n x).ms = s.ms := rfl
@[simp] theorem State.setSd_depot (s : State) (n : Nat) (x : SdChan) : (s.setSd n x).depot = s.depot := rfl
@[simp] theorem State.setSd_swy (s : State) (n : Nat) (x : SdChan) : (s.setSd n x).swy = s.swy := rfl
@[simp] theorem State.setSd_helm (s : State) (n : Nat) (x : SdChan) : (s.setSd n x).helm = s.helm := rfl
@[simp] theorem State.setSd_pins (s : State) (n : Nat) (x : SdChan) : (s.setSd n x).pins = s.pins := rfl
@[simp] theorem State.setSd_alm (s : State) (n : Nat) (x : SdChan) : (s.setSd n x).alm = s.alm := rfl
@[simp] theorem State.setSd_clusters (s : State) (n : Nat) (x : SdChan) : (s.setSd n x).clusters = s.clusters := rfl
@[simp] theorem State.setSd_pilots (s : State) (n : Nat) (x : SdChan) : (s.setSd n x).pilots = s.pilots := rfl
@[simp] theorem State.setSd_jobs (s : State) (n : Nat) (x : SdChan) : (s.setSd n x).jobs = s.jobs := rfl
@[simp] theorem State.setSd_hbm (s : State) (n : Nat) (x : SdChan) : (s.setSd n x).hbm = s.hbm := rfl
@[simp] theorem State.setSd_chart (s : State) (n : Nat) (x : SdChan) : (s.setSd n x).chart = s.chart := rfl
@[simp] theorem State.setSd_dma (s : State) (n : Nat) (x : SdChan) : (s.setSd n x).dma = s.dma := rfl
@[simp] theorem State.setSd_sxt (s : State) (n : Nat) (x : SdChan) : (s.setSd n x).sxt = s.sxt := rfl
@[simp] theorem State.setSd_dds (s : State) (n : Nat) (x : SdChan) : (s.setSd n x).dds = s.dds := rfl
@[simp] theorem State.setSd_acq (s : State) (n : Nat) (x : SdChan) : (s.setSd n x).acq = s.acq := rfl
@[simp] theorem State.setSd_wln (s : State) (n : Nat) (x : SdChan) : (s.setSd n x).wln = s.wln := rfl
@[simp] theorem State.setSd_eth (s : State) (n : Nat) (x : SdChan) : (s.setSd n x).eth = s.eth := rfl
@[simp] theorem State.setSd_bnc (s : State) (n : Nat) (x : SdChan) : (s.setSd n x).bnc = s.bnc := rfl

@[simp] theorem State.setDmaCh_now (s : State) (c : Nat) (x : DmaChan) : (s.setDmaCh c x).now = s.now := rfl
@[simp] theorem State.setDmaCh_free (s : State) (c : Nat) (x : DmaChan) : (s.setDmaCh c x).free = s.free := rfl
@[simp] theorem State.setDmaCh_pending (s : State) (c : Nat) (x : DmaChan) : (s.setDmaCh c x).pending = s.pending := rfl
@[simp] theorem State.setDmaCh_regs (s : State) (c : Nat) (x : DmaChan) : (s.setDmaCh c x).regs = s.regs := rfl
@[simp] theorem State.setDmaCh_host (s : State) (c : Nat) (x : DmaChan) : (s.setDmaCh c x).host = s.host := rfl
@[simp] theorem State.setDmaCh_mers (s : State) (c : Nat) (x : DmaChan) : (s.setDmaCh c x).mers = s.mers := rfl
@[simp] theorem State.setDmaCh_ms (s : State) (c : Nat) (x : DmaChan) : (s.setDmaCh c x).ms = s.ms := rfl
@[simp] theorem State.setDmaCh_depot (s : State) (c : Nat) (x : DmaChan) : (s.setDmaCh c x).depot = s.depot := rfl
@[simp] theorem State.setDmaCh_swy (s : State) (c : Nat) (x : DmaChan) : (s.setDmaCh c x).swy = s.swy := rfl
@[simp] theorem State.setDmaCh_helm (s : State) (c : Nat) (x : DmaChan) : (s.setDmaCh c x).helm = s.helm := rfl
@[simp] theorem State.setDmaCh_pins (s : State) (c : Nat) (x : DmaChan) : (s.setDmaCh c x).pins = s.pins := rfl
@[simp] theorem State.setDmaCh_alm (s : State) (c : Nat) (x : DmaChan) : (s.setDmaCh c x).alm = s.alm := rfl
@[simp] theorem State.setDmaCh_clusters (s : State) (c : Nat) (x : DmaChan) : (s.setDmaCh c x).clusters = s.clusters := rfl
@[simp] theorem State.setDmaCh_pilots (s : State) (c : Nat) (x : DmaChan) : (s.setDmaCh c x).pilots = s.pilots := rfl
@[simp] theorem State.setDmaCh_jobs (s : State) (c : Nat) (x : DmaChan) : (s.setDmaCh c x).jobs = s.jobs := rfl
@[simp] theorem State.setDmaCh_hbm (s : State) (c : Nat) (x : DmaChan) : (s.setDmaCh c x).hbm = s.hbm := rfl
@[simp] theorem State.setDmaCh_chart (s : State) (c : Nat) (x : DmaChan) : (s.setDmaCh c x).chart = s.chart := rfl
@[simp] theorem State.setDmaCh_sxt (s : State) (c : Nat) (x : DmaChan) : (s.setDmaCh c x).sxt = s.sxt := rfl
@[simp] theorem State.setDmaCh_dds (s : State) (c : Nat) (x : DmaChan) : (s.setDmaCh c x).dds = s.dds := rfl
@[simp] theorem State.setDmaCh_adc (s : State) (c : Nat) (x : DmaChan) : (s.setDmaCh c x).adc = s.adc := rfl
@[simp] theorem State.setDmaCh_acq (s : State) (c : Nat) (x : DmaChan) : (s.setDmaCh c x).acq = s.acq := rfl
@[simp] theorem State.setDmaCh_wln (s : State) (c : Nat) (x : DmaChan) : (s.setDmaCh c x).wln = s.wln := rfl
@[simp] theorem State.setDmaCh_eth (s : State) (c : Nat) (x : DmaChan) : (s.setDmaCh c x).eth = s.eth := rfl
@[simp] theorem State.setDmaCh_bnc (s : State) (c : Nat) (x : DmaChan) : (s.setDmaCh c x).bnc = s.bnc := rfl

@[simp] theorem State.setDds_now (s : State) (e : Nat) (x : Dds) : (s.setDds e x).now = s.now := rfl
@[simp] theorem State.setDds_free (s : State) (e : Nat) (x : Dds) : (s.setDds e x).free = s.free := rfl
@[simp] theorem State.setDds_pending (s : State) (e : Nat) (x : Dds) : (s.setDds e x).pending = s.pending := rfl
@[simp] theorem State.setDds_regs (s : State) (e : Nat) (x : Dds) : (s.setDds e x).regs = s.regs := rfl
@[simp] theorem State.setDds_host (s : State) (e : Nat) (x : Dds) : (s.setDds e x).host = s.host := rfl
@[simp] theorem State.setDds_mers (s : State) (e : Nat) (x : Dds) : (s.setDds e x).mers = s.mers := rfl
@[simp] theorem State.setDds_ms (s : State) (e : Nat) (x : Dds) : (s.setDds e x).ms = s.ms := rfl
@[simp] theorem State.setDds_depot (s : State) (e : Nat) (x : Dds) : (s.setDds e x).depot = s.depot := rfl
@[simp] theorem State.setDds_swy (s : State) (e : Nat) (x : Dds) : (s.setDds e x).swy = s.swy := rfl
@[simp] theorem State.setDds_helm (s : State) (e : Nat) (x : Dds) : (s.setDds e x).helm = s.helm := rfl
@[simp] theorem State.setDds_pins (s : State) (e : Nat) (x : Dds) : (s.setDds e x).pins = s.pins := rfl
@[simp] theorem State.setDds_alm (s : State) (e : Nat) (x : Dds) : (s.setDds e x).alm = s.alm := rfl
@[simp] theorem State.setDds_clusters (s : State) (e : Nat) (x : Dds) : (s.setDds e x).clusters = s.clusters := rfl
@[simp] theorem State.setDds_pilots (s : State) (e : Nat) (x : Dds) : (s.setDds e x).pilots = s.pilots := rfl
@[simp] theorem State.setDds_jobs (s : State) (e : Nat) (x : Dds) : (s.setDds e x).jobs = s.jobs := rfl
@[simp] theorem State.setDds_hbm (s : State) (e : Nat) (x : Dds) : (s.setDds e x).hbm = s.hbm := rfl
@[simp] theorem State.setDds_chart (s : State) (e : Nat) (x : Dds) : (s.setDds e x).chart = s.chart := rfl
@[simp] theorem State.setDds_dma (s : State) (e : Nat) (x : Dds) : (s.setDds e x).dma = s.dma := rfl
@[simp] theorem State.setDds_sxt (s : State) (e : Nat) (x : Dds) : (s.setDds e x).sxt = s.sxt := rfl
@[simp] theorem State.setDds_adc (s : State) (e : Nat) (x : Dds) : (s.setDds e x).adc = s.adc := rfl
@[simp] theorem State.setDds_acq (s : State) (e : Nat) (x : Dds) : (s.setDds e x).acq = s.acq := rfl
@[simp] theorem State.setDds_wln (s : State) (e : Nat) (x : Dds) : (s.setDds e x).wln = s.wln := rfl
@[simp] theorem State.setDds_eth (s : State) (e : Nat) (x : Dds) : (s.setDds e x).eth = s.eth := rfl
@[simp] theorem State.setDds_bnc (s : State) (e : Nat) (x : Dds) : (s.setDds e x).bnc = s.bnc := rfl

@[simp] theorem State.setCluster_now (s : State) (c : Nat) (x : Cluster) : (s.setCluster c x).now = s.now := rfl
@[simp] theorem State.setCluster_free (s : State) (c : Nat) (x : Cluster) : (s.setCluster c x).free = s.free := rfl
@[simp] theorem State.setCluster_pending (s : State) (c : Nat) (x : Cluster) : (s.setCluster c x).pending = s.pending := rfl
@[simp] theorem State.setCluster_regs (s : State) (c : Nat) (x : Cluster) : (s.setCluster c x).regs = s.regs := rfl
@[simp] theorem State.setCluster_host (s : State) (c : Nat) (x : Cluster) : (s.setCluster c x).host = s.host := rfl
@[simp] theorem State.setCluster_mers (s : State) (c : Nat) (x : Cluster) : (s.setCluster c x).mers = s.mers := rfl
@[simp] theorem State.setCluster_ms (s : State) (c : Nat) (x : Cluster) : (s.setCluster c x).ms = s.ms := rfl
@[simp] theorem State.setCluster_depot (s : State) (c : Nat) (x : Cluster) : (s.setCluster c x).depot = s.depot := rfl
@[simp] theorem State.setCluster_swy (s : State) (c : Nat) (x : Cluster) : (s.setCluster c x).swy = s.swy := rfl
@[simp] theorem State.setCluster_helm (s : State) (c : Nat) (x : Cluster) : (s.setCluster c x).helm = s.helm := rfl
@[simp] theorem State.setCluster_pins (s : State) (c : Nat) (x : Cluster) : (s.setCluster c x).pins = s.pins := rfl
@[simp] theorem State.setCluster_alm (s : State) (c : Nat) (x : Cluster) : (s.setCluster c x).alm = s.alm := rfl
@[simp] theorem State.setCluster_pilots (s : State) (c : Nat) (x : Cluster) : (s.setCluster c x).pilots = s.pilots := rfl
@[simp] theorem State.setCluster_jobs (s : State) (c : Nat) (x : Cluster) : (s.setCluster c x).jobs = s.jobs := rfl
@[simp] theorem State.setCluster_hbm (s : State) (c : Nat) (x : Cluster) : (s.setCluster c x).hbm = s.hbm := rfl
@[simp] theorem State.setCluster_chart (s : State) (c : Nat) (x : Cluster) : (s.setCluster c x).chart = s.chart := rfl
@[simp] theorem State.setCluster_dma (s : State) (c : Nat) (x : Cluster) : (s.setCluster c x).dma = s.dma := rfl
@[simp] theorem State.setCluster_sxt (s : State) (c : Nat) (x : Cluster) : (s.setCluster c x).sxt = s.sxt := rfl
@[simp] theorem State.setCluster_dds (s : State) (c : Nat) (x : Cluster) : (s.setCluster c x).dds = s.dds := rfl
@[simp] theorem State.setCluster_adc (s : State) (c : Nat) (x : Cluster) : (s.setCluster c x).adc = s.adc := rfl
@[simp] theorem State.setCluster_acq (s : State) (c : Nat) (x : Cluster) : (s.setCluster c x).acq = s.acq := rfl
@[simp] theorem State.setCluster_wln (s : State) (c : Nat) (x : Cluster) : (s.setCluster c x).wln = s.wln := rfl
@[simp] theorem State.setCluster_eth (s : State) (c : Nat) (x : Cluster) : (s.setCluster c x).eth = s.eth := rfl
@[simp] theorem State.setCluster_bnc (s : State) (c : Nat) (x : Cluster) : (s.setCluster c x).bnc = s.bnc := rfl

@[simp] theorem State.setSxtChan_now (s : State) (c : Nat) (x : SxtChan) : (s.setSxtChan c x).now = s.now := rfl
@[simp] theorem State.setSxtChan_free (s : State) (c : Nat) (x : SxtChan) : (s.setSxtChan c x).free = s.free := rfl
@[simp] theorem State.setSxtChan_pending (s : State) (c : Nat) (x : SxtChan) : (s.setSxtChan c x).pending = s.pending := rfl
@[simp] theorem State.setSxtChan_regs (s : State) (c : Nat) (x : SxtChan) : (s.setSxtChan c x).regs = s.regs := rfl
@[simp] theorem State.setSxtChan_host (s : State) (c : Nat) (x : SxtChan) : (s.setSxtChan c x).host = s.host := rfl
@[simp] theorem State.setSxtChan_mers (s : State) (c : Nat) (x : SxtChan) : (s.setSxtChan c x).mers = s.mers := rfl
@[simp] theorem State.setSxtChan_ms (s : State) (c : Nat) (x : SxtChan) : (s.setSxtChan c x).ms = s.ms := rfl
@[simp] theorem State.setSxtChan_depot (s : State) (c : Nat) (x : SxtChan) : (s.setSxtChan c x).depot = s.depot := rfl
@[simp] theorem State.setSxtChan_swy (s : State) (c : Nat) (x : SxtChan) : (s.setSxtChan c x).swy = s.swy := rfl
@[simp] theorem State.setSxtChan_helm (s : State) (c : Nat) (x : SxtChan) : (s.setSxtChan c x).helm = s.helm := rfl
@[simp] theorem State.setSxtChan_pins (s : State) (c : Nat) (x : SxtChan) : (s.setSxtChan c x).pins = s.pins := rfl
@[simp] theorem State.setSxtChan_alm (s : State) (c : Nat) (x : SxtChan) : (s.setSxtChan c x).alm = s.alm := rfl
@[simp] theorem State.setSxtChan_clusters (s : State) (c : Nat) (x : SxtChan) : (s.setSxtChan c x).clusters = s.clusters := rfl
@[simp] theorem State.setSxtChan_pilots (s : State) (c : Nat) (x : SxtChan) : (s.setSxtChan c x).pilots = s.pilots := rfl
@[simp] theorem State.setSxtChan_jobs (s : State) (c : Nat) (x : SxtChan) : (s.setSxtChan c x).jobs = s.jobs := rfl
@[simp] theorem State.setSxtChan_hbm (s : State) (c : Nat) (x : SxtChan) : (s.setSxtChan c x).hbm = s.hbm := rfl
@[simp] theorem State.setSxtChan_chart (s : State) (c : Nat) (x : SxtChan) : (s.setSxtChan c x).chart = s.chart := rfl
@[simp] theorem State.setSxtChan_dma (s : State) (c : Nat) (x : SxtChan) : (s.setSxtChan c x).dma = s.dma := rfl
@[simp] theorem State.setSxtChan_dds (s : State) (c : Nat) (x : SxtChan) : (s.setSxtChan c x).dds = s.dds := rfl
@[simp] theorem State.setSxtChan_adc (s : State) (c : Nat) (x : SxtChan) : (s.setSxtChan c x).adc = s.adc := rfl
@[simp] theorem State.setSxtChan_acq (s : State) (c : Nat) (x : SxtChan) : (s.setSxtChan c x).acq = s.acq := rfl
@[simp] theorem State.setSxtChan_wln (s : State) (c : Nat) (x : SxtChan) : (s.setSxtChan c x).wln = s.wln := rfl
@[simp] theorem State.setSxtChan_eth (s : State) (c : Nat) (x : SxtChan) : (s.setSxtChan c x).eth = s.eth := rfl
@[simp] theorem State.setSxtChan_bnc (s : State) (c : Nat) (x : SxtChan) : (s.setSxtChan c x).bnc = s.bnc := rfl

@[simp] theorem State.setMu_now (s : State) (u : Nat) (x : MuRun) : (s.setMu u x).now = s.now := rfl
@[simp] theorem State.setMu_free (s : State) (u : Nat) (x : MuRun) : (s.setMu u x).free = s.free := rfl
@[simp] theorem State.setMu_pending (s : State) (u : Nat) (x : MuRun) : (s.setMu u x).pending = s.pending := rfl
@[simp] theorem State.setMu_regs (s : State) (u : Nat) (x : MuRun) : (s.setMu u x).regs = s.regs := rfl
@[simp] theorem State.setMu_host (s : State) (u : Nat) (x : MuRun) : (s.setMu u x).host = s.host := rfl
@[simp] theorem State.setMu_mers (s : State) (u : Nat) (x : MuRun) : (s.setMu u x).mers = s.mers := rfl
@[simp] theorem State.setMu_ms (s : State) (u : Nat) (x : MuRun) : (s.setMu u x).ms = s.ms := rfl
@[simp] theorem State.setMu_depot (s : State) (u : Nat) (x : MuRun) : (s.setMu u x).depot = s.depot := rfl
@[simp] theorem State.setMu_swy (s : State) (u : Nat) (x : MuRun) : (s.setMu u x).swy = s.swy := rfl
@[simp] theorem State.setMu_helm (s : State) (u : Nat) (x : MuRun) : (s.setMu u x).helm = s.helm := rfl
@[simp] theorem State.setMu_pins (s : State) (u : Nat) (x : MuRun) : (s.setMu u x).pins = s.pins := rfl
@[simp] theorem State.setMu_alm (s : State) (u : Nat) (x : MuRun) : (s.setMu u x).alm = s.alm := rfl
@[simp] theorem State.setMu_clusters (s : State) (u : Nat) (x : MuRun) : (s.setMu u x).clusters = s.clusters := rfl
@[simp] theorem State.setMu_pilots (s : State) (u : Nat) (x : MuRun) : (s.setMu u x).pilots = s.pilots := rfl
@[simp] theorem State.setMu_jobs (s : State) (u : Nat) (x : MuRun) : (s.setMu u x).jobs = s.jobs := rfl
@[simp] theorem State.setMu_hbm (s : State) (u : Nat) (x : MuRun) : (s.setMu u x).hbm = s.hbm := rfl
@[simp] theorem State.setMu_chart (s : State) (u : Nat) (x : MuRun) : (s.setMu u x).chart = s.chart := rfl
@[simp] theorem State.setMu_dma (s : State) (u : Nat) (x : MuRun) : (s.setMu u x).dma = s.dma := rfl
@[simp] theorem State.setMu_dds (s : State) (u : Nat) (x : MuRun) : (s.setMu u x).dds = s.dds := rfl
@[simp] theorem State.setMu_adc (s : State) (u : Nat) (x : MuRun) : (s.setMu u x).adc = s.adc := rfl
@[simp] theorem State.setMu_acq (s : State) (u : Nat) (x : MuRun) : (s.setMu u x).acq = s.acq := rfl
@[simp] theorem State.setMu_wln (s : State) (u : Nat) (x : MuRun) : (s.setMu u x).wln = s.wln := rfl
@[simp] theorem State.setMu_eth (s : State) (u : Nat) (x : MuRun) : (s.setMu u x).eth = s.eth := rfl
@[simp] theorem State.setMu_bnc (s : State) (u : Nat) (x : MuRun) : (s.setMu u x).bnc = s.bnc := rfl

@[simp] theorem State.setWport_now (s : State) (p : Nat) (x : WPort) : (s.setWport p x).now = s.now := rfl
@[simp] theorem State.setWport_free (s : State) (p : Nat) (x : WPort) : (s.setWport p x).free = s.free := rfl
@[simp] theorem State.setWport_pending (s : State) (p : Nat) (x : WPort) : (s.setWport p x).pending = s.pending := rfl
@[simp] theorem State.setWport_regs (s : State) (p : Nat) (x : WPort) : (s.setWport p x).regs = s.regs := rfl
@[simp] theorem State.setWport_host (s : State) (p : Nat) (x : WPort) : (s.setWport p x).host = s.host := rfl
@[simp] theorem State.setWport_mers (s : State) (p : Nat) (x : WPort) : (s.setWport p x).mers = s.mers := rfl
@[simp] theorem State.setWport_ms (s : State) (p : Nat) (x : WPort) : (s.setWport p x).ms = s.ms := rfl
@[simp] theorem State.setWport_depot (s : State) (p : Nat) (x : WPort) : (s.setWport p x).depot = s.depot := rfl
@[simp] theorem State.setWport_swy (s : State) (p : Nat) (x : WPort) : (s.setWport p x).swy = s.swy := rfl
@[simp] theorem State.setWport_helm (s : State) (p : Nat) (x : WPort) : (s.setWport p x).helm = s.helm := rfl
@[simp] theorem State.setWport_pins (s : State) (p : Nat) (x : WPort) : (s.setWport p x).pins = s.pins := rfl
@[simp] theorem State.setWport_alm (s : State) (p : Nat) (x : WPort) : (s.setWport p x).alm = s.alm := rfl
@[simp] theorem State.setWport_clusters (s : State) (p : Nat) (x : WPort) : (s.setWport p x).clusters = s.clusters := rfl
@[simp] theorem State.setWport_pilots (s : State) (p : Nat) (x : WPort) : (s.setWport p x).pilots = s.pilots := rfl
@[simp] theorem State.setWport_jobs (s : State) (p : Nat) (x : WPort) : (s.setWport p x).jobs = s.jobs := rfl
@[simp] theorem State.setWport_hbm (s : State) (p : Nat) (x : WPort) : (s.setWport p x).hbm = s.hbm := rfl
@[simp] theorem State.setWport_chart (s : State) (p : Nat) (x : WPort) : (s.setWport p x).chart = s.chart := rfl
@[simp] theorem State.setWport_dma (s : State) (p : Nat) (x : WPort) : (s.setWport p x).dma = s.dma := rfl
@[simp] theorem State.setWport_sxt (s : State) (p : Nat) (x : WPort) : (s.setWport p x).sxt = s.sxt := rfl
@[simp] theorem State.setWport_dds (s : State) (p : Nat) (x : WPort) : (s.setWport p x).dds = s.dds := rfl
@[simp] theorem State.setWport_adc (s : State) (p : Nat) (x : WPort) : (s.setWport p x).adc = s.adc := rfl
@[simp] theorem State.setWport_acq (s : State) (p : Nat) (x : WPort) : (s.setWport p x).acq = s.acq := rfl
@[simp] theorem State.setWport_eth (s : State) (p : Nat) (x : WPort) : (s.setWport p x).eth = s.eth := rfl
@[simp] theorem State.setWport_bnc (s : State) (p : Nat) (x : WPort) : (s.setWport p x).bnc = s.bnc := rfl

@[simp] theorem State.rd_advance (s : State) (t : Nat) (id : RegId) (a c : Nat) : (s.advance t).rd id a c = s.rd id a c := rfl
@[simp] theorem State.fget_advance (s : State) (t : Nat) (f : Fld) (a c : Nat) : (s.advance t).fget f a c = s.fget f a c := rfl
@[simp] theorem State.rd_fresh (s : State) (id : RegId) (a c : Nat) : (s.fresh.1).rd id a c = s.rd id a c := rfl
@[simp] theorem State.fget_fresh (s : State) (f : Fld) (a c : Nat) : (s.fresh.1).fget f a c = s.fget f a c := rfl
@[simp] theorem State.rd_setMer (s : State) (m : Nat) (x : Meridian) (id : RegId) (a c : Nat) : (s.setMer m x).rd id a c = s.rd id a c := rfl
@[simp] theorem State.fget_setMer (s : State) (m : Nat) (x : Meridian) (f : Fld) (a c : Nat) : (s.setMer m x).fget f a c = s.fget f a c := rfl
@[simp] theorem State.rd_countFix (s : State) (k n : Nat) (id : RegId) (a c : Nat) : (s.countFix k n).rd id a c = s.rd id a c := rfl
@[simp] theorem State.fget_countFix (s : State) (k n : Nat) (f : Fld) (a c : Nat) : (s.countFix k n).fget f a c = s.fget f a c := rfl
@[simp] theorem State.rd_setDq (s : State) (q : Nat) (x : DQueue) (id : RegId) (a c : Nat) : (s.setDq q x).rd id a c = s.rd id a c := rfl
@[simp] theorem State.fget_setDq (s : State) (q : Nat) (x : DQueue) (f : Fld) (a c : Nat) : (s.setDq q x).fget f a c = s.fget f a c := rfl
@[simp] theorem State.rd_setTask (s : State) (t : Nat) (x : Task) (id : RegId) (a c : Nat) : (s.setTask t x).rd id a c = s.rd id a c := rfl
@[simp] theorem State.fget_setTask (s : State) (t : Nat) (x : Task) (f : Fld) (a c : Nat) : (s.setTask t x).fget f a c = s.fget f a c := rfl
@[simp] theorem State.rd_setHart (s : State) (h : Nat) (x : Hart) (id : RegId) (a c : Nat) : (s.setHart h x).rd id a c = s.rd id a c := rfl
@[simp] theorem State.fget_setHart (s : State) (h : Nat) (x : Hart) (f : Fld) (a c : Nat) : (s.setHart h x).fget f a c = s.fget f a c := rfl
@[simp] theorem State.rd_setChan (s : State) (ch : Nat) (e : Chan) (id : RegId) (a c : Nat) : (s.setChan ch e).rd id a c = s.rd id a c := rfl
@[simp] theorem State.fget_setChan (s : State) (ch : Nat) (e : Chan) (f : Fld) (a c : Nat) : (s.setChan ch e).fget f a c = s.fget f a c := rfl
@[simp] theorem State.rd_setRing (s : State) (r : Nat) (x : Ring) (id : RegId) (a c : Nat) : (s.setRing r x).rd id a c = s.rd id a c := rfl
@[simp] theorem State.fget_setRing (s : State) (r : Nat) (x : Ring) (f : Fld) (a c : Nat) : (s.setRing r x).fget f a c = s.fget f a c := rfl
@[simp] theorem State.rd_setPilot (s : State) (p : Nat) (x : Pilot) (id : RegId) (a c : Nat) : (s.setPilot p x).rd id a c = s.rd id a c := rfl
@[simp] theorem State.fget_setPilot (s : State) (p : Nat) (x : Pilot) (f : Fld) (a c : Nat) : (s.setPilot p x).fget f a c = s.fget f a c := rfl
@[simp] theorem State.rd_setSeq (s : State) (p : Nat) (q : Seq) (id : RegId) (a c : Nat) : (s.setSeq p q).rd id a c = s.rd id a c := rfl
@[simp] theorem State.fget_setSeq (s : State) (p : Nat) (q : Seq) (f : Fld) (a c : Nat) : (s.setSeq p q).fget f a c = s.fget f a c := rfl
@[simp] theorem State.rd_setLeg (s : State) (p : Nat) (l : Leg) (id : RegId) (a c : Nat) : (s.setLeg p l).rd id a c = s.rd id a c := rfl
@[simp] theorem State.fget_setLeg (s : State) (p : Nat) (l : Leg) (f : Fld) (a c : Nat) : (s.setLeg p l).fget f a c = s.fget f a c := rfl
@[simp] theorem State.rd_setStr (s : State) (p : Nat) (x : Streams) (id : RegId) (a c : Nat) : (s.setStr p x).rd id a c = s.rd id a c := rfl
@[simp] theorem State.fget_setStr (s : State) (p : Nat) (x : Streams) (f : Fld) (a c : Nat) : (s.setStr p x).fget f a c = s.fget f a c := rfl
@[simp] theorem State.rd_setPin (s : State) (n : Nat) (x : Pin) (id : RegId) (a c : Nat) : (s.setPin n x).rd id a c = s.rd id a c := rfl
@[simp] theorem State.fget_setPin (s : State) (n : Nat) (x : Pin) (f : Fld) (a c : Nat) : (s.setPin n x).fget f a c = s.fget f a c := rfl
@[simp] theorem State.rd_setJob (s : State) (j : Nat) (x : Job) (id : RegId) (a c : Nat) : (s.setJob j x).rd id a c = s.rd id a c := rfl
@[simp] theorem State.fget_setJob (s : State) (j : Nat) (x : Job) (f : Fld) (a c : Nat) : (s.setJob j x).fget f a c = s.fget f a c := rfl
@[simp] theorem State.rd_setAq (s : State) (u : Nat) (x : AcqUnit) (id : RegId) (a c : Nat) : (s.setAq u x).rd id a c = s.rd id a c := rfl
@[simp] theorem State.fget_setAq (s : State) (u : Nat) (x : AcqUnit) (f : Fld) (a c : Nat) : (s.setAq u x).fget f a c = s.fget f a c := rfl
@[simp] theorem State.rd_setSar (s : State) (r : Nat) (x : Sar) (id : RegId) (a c : Nat) : (s.setSar r x).rd id a c = s.rd id a c := rfl
@[simp] theorem State.fget_setSar (s : State) (r : Nat) (x : Sar) (f : Fld) (a c : Nat) : (s.setSar r x).fget f a c = s.fget f a c := rfl
@[simp] theorem State.rd_setSd (s : State) (n : Nat) (x : SdChan) (id : RegId) (a c : Nat) : (s.setSd n x).rd id a c = s.rd id a c := rfl
@[simp] theorem State.fget_setSd (s : State) (n : Nat) (x : SdChan) (f : Fld) (a c : Nat) : (s.setSd n x).fget f a c = s.fget f a c := rfl
@[simp] theorem State.rd_setDmaCh (s : State) (e : Nat) (x : DmaChan) (id : RegId) (a c : Nat) : (s.setDmaCh e x).rd id a c = s.rd id a c := rfl
@[simp] theorem State.fget_setDmaCh (s : State) (e : Nat) (x : DmaChan) (f : Fld) (a c : Nat) : (s.setDmaCh e x).fget f a c = s.fget f a c := rfl
@[simp] theorem State.rd_setDds (s : State) (e : Nat) (x : Dds) (id : RegId) (a c : Nat) : (s.setDds e x).rd id a c = s.rd id a c := rfl
@[simp] theorem State.fget_setDds (s : State) (e : Nat) (x : Dds) (f : Fld) (a c : Nat) : (s.setDds e x).fget f a c = s.fget f a c := rfl
@[simp] theorem State.rd_setCluster (s : State) (e : Nat) (x : Cluster) (id : RegId) (a c : Nat) : (s.setCluster e x).rd id a c = s.rd id a c := rfl
@[simp] theorem State.fget_setCluster (s : State) (e : Nat) (x : Cluster) (f : Fld) (a c : Nat) : (s.setCluster e x).fget f a c = s.fget f a c := rfl
@[simp] theorem State.rd_setSxtChan (s : State) (e : Nat) (x : SxtChan) (id : RegId) (a c : Nat) : (s.setSxtChan e x).rd id a c = s.rd id a c := rfl
@[simp] theorem State.fget_setSxtChan (s : State) (e : Nat) (x : SxtChan) (f : Fld) (a c : Nat) : (s.setSxtChan e x).fget f a c = s.fget f a c := rfl
@[simp] theorem State.rd_setMu (s : State) (u : Nat) (x : MuRun) (id : RegId) (a c : Nat) : (s.setMu u x).rd id a c = s.rd id a c := rfl
@[simp] theorem State.fget_setMu (s : State) (u : Nat) (x : MuRun) (f : Fld) (a c : Nat) : (s.setMu u x).fget f a c = s.fget f a c := rfl
@[simp] theorem State.rd_setWport (s : State) (p : Nat) (x : WPort) (id : RegId) (a c : Nat) : (s.setWport p x).rd id a c = s.rd id a c := rfl
@[simp] theorem State.fget_setWport (s : State) (p : Nat) (x : WPort) (f : Fld) (a c : Nat) : (s.setWport p x).fget f a c = s.fget f a c := rfl

@[simp] theorem State.mer_setMer (s : State) (m : Nat) (x : Meridian) : (s.setMer m x).mer m = x := bankGet_set_same _ _ _ _ _
theorem State.mer_setMer_ne (s : State) (m : Nat) (x : Meridian) (a : Nat) (ha : a ≠ m) : (s.setMer m x).mer a = s.mer a :=
  bankGet_set_ne _ _ ha _ _
@[simp] theorem State.dq_setDq (s : State) (q : Nat) (x : DQueue) : (s.setDq q x).dq q = x := bankGet_set_same _ _ _ _ _
theorem State.dq_setDq_ne (s : State) (q : Nat) (x : DQueue) (a : Nat) (ha : a ≠ q) : (s.setDq q x).dq a = s.dq a :=
  bankGet_set_ne _ _ ha _ _
@[simp] theorem State.task_setTask (s : State) (t : Nat) (x : Task) : (s.setTask t x).task t = x := bankGet_set_same _ _ _ _ _
theorem State.task_setTask_ne (s : State) (t : Nat) (x : Task) (a : Nat) (ha : a ≠ t) : (s.setTask t x).task a = s.task a :=
  bankGet_set_ne _ _ ha _ _
@[simp] theorem State.hart_setHart (s : State) (h : Nat) (x : Hart) : (s.setHart h x).hart h = x := bankGet_set_same _ _ _ _ _
theorem State.hart_setHart_ne (s : State) (h : Nat) (x : Hart) (a : Nat) (ha : a ≠ h) : (s.setHart h x).hart a = s.hart a :=
  bankGet_set_ne _ _ ha _ _
@[simp] theorem State.chan_setChan (s : State) (ch : Nat) (c : Chan) : (s.setChan ch c).chan ch = c := bankGet_set_same _ _ _ _ _
theorem State.chan_setChan_ne (s : State) (ch : Nat) (c : Chan) (a : Nat) (ha : a ≠ ch) : (s.setChan ch c).chan a = s.chan a :=
  bankGet_set_ne _ _ ha _ _
@[simp] theorem State.ring_setRing (s : State) (r : Nat) (x : Ring) : (s.setRing r x).ring r = x := bankGet_set_same _ _ _ _ _
theorem State.ring_setRing_ne (s : State) (r : Nat) (x : Ring) (a : Nat) (ha : a ≠ r) : (s.setRing r x).ring a = s.ring a :=
  bankGet_set_ne _ _ ha _ _
@[simp] theorem State.pilot_setPilot (s : State) (p : Nat) (x : Pilot) : (s.setPilot p x).pilot p = x := bankGet_set_same _ _ _ _ _
theorem State.pilot_setPilot_ne (s : State) (p : Nat) (x : Pilot) (a : Nat) (ha : a ≠ p) : (s.setPilot p x).pilot a = s.pilot a :=
  bankGet_set_ne _ _ ha _ _
@[simp] theorem State.pin_setPin (s : State) (n : Nat) (x : Pin) : (s.setPin n x).pin n = x := bankGet_set_same _ _ _ _ _
theorem State.pin_setPin_ne (s : State) (n : Nat) (x : Pin) (a : Nat) (ha : a ≠ n) : (s.setPin n x).pin a = s.pin a :=
  bankGet_set_ne _ _ ha _ _
@[simp] theorem State.job_setJob (s : State) (j : Nat) (x : Job) : (s.setJob j x).job j = x := bankGet_set_same _ _ _ _ _
theorem State.job_setJob_ne (s : State) (j : Nat) (x : Job) (a : Nat) (ha : a ≠ j) : (s.setJob j x).job a = s.job a :=
  bankGet_set_ne _ _ ha _ _
@[simp] theorem State.aq_setAq (s : State) (u : Nat) (x : AcqUnit) : (s.setAq u x).aq u = x := bankGet_set_same _ _ _ _ _
theorem State.aq_setAq_ne (s : State) (u : Nat) (x : AcqUnit) (a : Nat) (ha : a ≠ u) : (s.setAq u x).aq a = s.aq a :=
  bankGet_set_ne _ _ ha _ _
@[simp] theorem State.sar_setSar (s : State) (r : Nat) (x : Sar) : (s.setSar r x).sar r = x := bankGet_set_same _ _ _ _ _
theorem State.sar_setSar_ne (s : State) (r : Nat) (x : Sar) (a : Nat) (ha : a ≠ r) : (s.setSar r x).sar a = s.sar a :=
  bankGet_set_ne _ _ ha _ _
@[simp] theorem State.sd_setSd (s : State) (n : Nat) (x : SdChan) : (s.setSd n x).sd n = x := bankGet_set_same _ _ _ _ _
theorem State.sd_setSd_ne (s : State) (n : Nat) (x : SdChan) (a : Nat) (ha : a ≠ n) : (s.setSd n x).sd a = s.sd a :=
  bankGet_set_ne _ _ ha _ _
@[simp] theorem State.dmaCh_setDmaCh (s : State) (c : Nat) (x : DmaChan) : (s.setDmaCh c x).dmaCh c = x := bankGet_set_same _ _ _ _ _
theorem State.dmaCh_setDmaCh_ne (s : State) (c : Nat) (x : DmaChan) (a : Nat) (ha : a ≠ c) : (s.setDmaCh c x).dmaCh a = s.dmaCh a :=
  bankGet_set_ne _ _ ha _ _
@[simp] theorem State.ddsEng_setDds (s : State) (e : Nat) (x : Dds) : (s.setDds e x).ddsEng e = x := bankGet_set_same _ _ _ _ _
theorem State.ddsEng_setDds_ne (s : State) (e : Nat) (x : Dds) (a : Nat) (ha : a ≠ e) : (s.setDds e x).ddsEng a = s.ddsEng a :=
  bankGet_set_ne _ _ ha _ _
@[simp] theorem State.cluster_setCluster (s : State) (c : Nat) (x : Cluster) : (s.setCluster c x).cluster c = x := bankGet_set_same _ _ _ _ _
theorem State.cluster_setCluster_ne (s : State) (c : Nat) (x : Cluster) (a : Nat) (ha : a ≠ c) : (s.setCluster c x).cluster a = s.cluster a :=
  bankGet_set_ne _ _ ha _ _
@[simp] theorem State.sxtChan_setSxtChan (s : State) (c : Nat) (x : SxtChan) : (s.setSxtChan c x).sxtChan c = x := bankGet_set_same _ _ _ _ _
theorem State.sxtChan_setSxtChan_ne (s : State) (c : Nat) (x : SxtChan) (a : Nat) (ha : a ≠ c) : (s.setSxtChan c x).sxtChan a = s.sxtChan a :=
  bankGet_set_ne _ _ ha _ _
@[simp] theorem State.mu_setMu (s : State) (u : Nat) (x : MuRun) : (s.setMu u x).mu u = x := bankGet_set_same _ _ _ _ _
theorem State.mu_setMu_ne (s : State) (u : Nat) (x : MuRun) (a : Nat) (ha : a ≠ u) : (s.setMu u x).mu a = s.mu a :=
  bankGet_set_ne _ _ ha _ _
@[simp] theorem State.wport_setWport (s : State) (p : Nat) (x : WPort) : (s.setWport p x).wport p = x := bankGet_set_same _ _ _ _ _
theorem State.wport_setWport_ne (s : State) (p : Nat) (x : WPort) (a : Nat) (ha : a ≠ p) : (s.setWport p x).wport a = s.wport a :=
  bankGet_set_ne _ _ ha _ _

/-! ### Registers -/

/-- A register just written reads as the word written. -/
@[simp] theorem State.rd_wr (s : State) (id : RegId) (i j : Nat) (v : Word) : (s.wr id i j v).rd id i j = v :=
  bankGet_set_same _ _ _ _ _

/-- A register other than the one written reads as before. -/
theorem State.rd_wr_ne (s : State) {id id' : RegId} {i j i' j' : Nat} (v : Word) (h : id' ≠ id ∨ i' ≠ i ∨ j' ≠ j) :
    (s.wr id i j v).rd id' i' j' = s.rd id' i' j' := by
  refine bankGet_set_ne _ _ ?_ _ _
  simp only [ne_eq, RegKey.mk.injEq, not_and]
  rintro rfl rfl
  simpa using h

/-- A field just written reads as the low bits written. -/
theorem State.fget_fput (s : State) {f : Fld} (i x : Nat) (h : f.lo ≤ f.hi + 1) (hw : f.hi < 64) :
    (s.fput f i x).fget f i = x % 2 ^ (f.hi + 1 - f.lo) := by
  simp only [State.fget, State.fput, State.rd_wr, BitVec.toNat_ofNat]
  rw [bits_mod64 _ _ hw, bits_setBits _ _ h]

/-- A field of a register or unit other than the one written reads as before. -/
theorem State.fget_fput_ne (s : State) {f g : Fld} {i k : Nat} (x j : Nat) (h : g.id ≠ f.id ∨ k ≠ i ∨ j ≠ 0) :
    (s.fput f i x).fget g k j = s.fget g k j := by
  simp only [State.fget, State.fput]
  rw [State.rd_wr_ne _ _ h]

/-- A field beside the one written reads as before. -/
theorem State.fget_fput_beside (s : State) {f g : Fld} (i x : Nat) (hid : g.id = f.id) (h : f.lo ≤ f.hi + 1)
    (hg : g.hi < 64) (hd : f.hi < g.lo ∨ g.hi < f.lo) : (s.fput f i x).fget g i = s.fget g i := by
  simp only [State.fget, State.fput]
  rw [hid, State.rd_wr, BitVec.toNat_ofNat, bits_mod64 _ _ hg, bits_setBits_ne _ _ h hd]

/-- A counter field just raised. -/
theorem State.fget_bump (s : State) {f : Fld} (i n : Nat) (h : f.lo ≤ f.hi) (hw : f.hi < 64) :
    (s.bump f i n).fget f i = min (s.fget f i + n) (2 ^ (f.hi + 1 - f.lo) - 1) := by
  unfold State.bump
  rw [State.fget_fput s i _ (by omega) hw]
  refine Nat.mod_eq_of_lt ?_
  have := Nat.two_pow_pos (f.hi + 1 - f.lo)
  omega

theorem State.fget_wr_ne (s : State) {id : RegId} {g : Fld} {i i' k j : Nat} (v : Word) (h : g.id ≠ id ∨ i' ≠ i ∨ k ≠ j) :
    (s.wr id i j v).fget g i' k = s.fget g i' k := by
  simp only [State.fget]
  rw [State.rd_wr_ne _ _ h]

theorem State.fget_bump_ne (s : State) {f g : Fld} {i k : Nat} (n j : Nat) (h : g.id ≠ f.id ∨ k ≠ i ∨ j ≠ 0) :
    (s.bump f i n).fget g k j = s.fget g k j := s.fget_fput_ne _ _ h

theorem State.fget_tick_ne (s : State) {f g : Fld} {i k : Nat} (n j : Nat) (h : g.id ≠ f.id ∨ k ≠ i ∨ j ≠ 0) :
    (s.tick f i n).fget g k j = s.fget g k j := s.fget_fput_ne _ _ h

end Sys2Proof.Machine
end

