-- ==== Sys2Proof/Laws/Commands.lean ====
section
/-! SUPPORT. A command that the front end admits and that may begin runs its body in the state begun, and what then follows from the
way the body ends. -/
namespace Sys2Proof.Machine

theorem bankDrop_of_ne {κ ν : Type} [DecidableEq κ] {k : κ} {b : Bank κ ν} (h : ∀ e ∈ b, e.1 ≠ k) : bankDrop k b = b := by
  induction b with
  | nil => rfl
  | cons e r ih =>
    simp only [bankDrop]
    rw [if_neg (h e (by simp)), ih (fun f hf => h f (by simp [hf]))]

theorem bankDrop_put {κ ν : Type} [DecidableEq κ] (rank : κ → Nat) (k : κ) (v : ν) {b : Bank κ ν} (h : ∀ e ∈ b, e.1 ≠ k) :
    bankDrop k (bankPut rank k v b) = b := by
  induction b with
  | nil => simp [bankPut, bankDrop]
  | cons e r ih =>
    have h1 := h e (by simp)
    have h2 : ∀ f ∈ r, f.1 ≠ k := fun f hf => h f (by simp [hf])
    by_cases h3 : rank k < rank e.1
    · simp only [bankPut, if_pos h3, bankDrop, if_true]
      rw [if_neg h1, bankDrop_of_ne h2]
    · simp only [bankPut, if_neg h3, bankDrop]
      rw [if_neg h1, ih h2]

/-- Of two writes to one key the later stands. -/
theorem bankSet_set {κ ν : Type} [DecidableEq κ] [DecidableEq ν] (rank : κ → Nat) (d : κ → ν) (k : κ) (x y : ν) (b : Bank κ ν) :
    bankSet rank d k x (bankSet rank d k y b) = bankSet rank d k x b := by
  have h : bankDrop k (bankSet rank d k y b) = bankDrop k b := by
    unfold bankSet
    split
    · exact bankDrop_of_ne (bankDrop_keys k b)
    · exact bankDrop_put rank k y (bankDrop_keys k b)
  show (if x = d k then bankDrop k (bankSet rank d k y b) else bankPut rank k x (bankDrop k (bankSet rank d k y b))) = _
  rw [h]
  rfl

/-- Of two updates of one ring the later stands. -/
theorem State.setRing_setRing (s : State) (r : Nat) (x y : Ring) : (s.setRing r y).setRing r x = s.setRing r x := by
  simp only [State.setRing, nset]
  rw [bankSet_set]

theorem State.setRing_wr (s : State) (r : Nat) (x : Ring) (id : RegId) (i j : Nat) (v : Word) :
    (s.wr id i j v).setRing r x = (s.setRing r x).wr id i j v := rfl

/-- An admitted packet is committed with its tag in the window (R362, R370). -/
theorem State.admit_admits {s : State} {opcode : Nat} {k : Packet} (h : s.admits opcode k) :
    s.admitPkt k.onRing.val opcode k =
      (let t := s.tick fHLM_RING_STAT_committed k.onRing.val
       t.setRing k.onRing.val { t.ring k.onRing.val with
         window := ((k.tag.toNat, none) :: (t.ring k.onRing.val).window).take 64 },
       some (if k.deadline.toNat = 0 then 0 else s.mer0 + k.deadline.toNat * 1600)) := by
  obtain ⟨hd, hr, he, hdel, hm, hl, hw, hj⟩ := h
  unfold State.admitPkt
  generalize k.onRing.val = r at *
  have hs : (s.ring r).window.find? (fun w => w.1 == k.tag.toNat) = none := by
    rw [List.find?_eq_none]
    intro w hm h1
    exact hw w hm (by simpa using h1)
  have h2 : ¬ (s.fbit fHLM_RING_CFG_exists r = false ∨ (s.ring r).deleting = true ∨ (r = 0 ∧ s.fbit fHLM_ADM_MIRROR_en = false) ∨
      2 ^ s.fget fHLM_RING_CFG_cmd_log2 r ≤ (s.ring r).untaken.length) := by
    rintro (h | h | h | h)
    · rw [he] at h; cases h
    · rw [hdel] at h; cases h
    · exact hm h
    · omega
  have hr2 : (s.tick fHLM_RING_STAT_committed r).ready = true := by
    rw [← hr]
    unfold State.ready State.fbit State.tick
    rw [State.fget_fput_ne]
    left
    decide
  have he2 : (s.tick fHLM_RING_STAT_committed r).fbit fHLM_RING_CFG_expert r = s.fbit fHLM_RING_CFG_expert r := by
    unfold State.fbit State.tick
    rw [State.fget_fput_ne]
    left
    decide
  dsimp only
  rw [if_neg (by simp [hd]), if_neg h2, hs]
  have hr3 : ∀ x, ((s.tick fHLM_RING_STAT_committed r).setRing r x).ready = true := fun _ => hr2
  have he3 : ∀ x, ((s.tick fHLM_RING_STAT_committed r).setRing r x).fbit fHLM_RING_CFG_expert r = s.fbit fHLM_RING_CFG_expert r :=
    fun _ => he2
  simp only [hr3, he3, hj]
  rfl

theorem State.takeSteps (s : State) (r tag : Nat) (x : Ring) (raw e : Nat) (h : x.untaken = []) :
    ((s.setRing r x).enqueue r raw e).take r tag = ((s.setRing r x).tick fHLM_RING_STAT_taken r).fput fHLM_RING_LAST_last_tag r tag := by
  unfold State.take State.enqueue
  have h1 : ((s.setRing r x).ring r) = x := State.ring_setRing s r x
  rw [h1, h, State.setRing_setRing, State.ring_setRing, State.setRing_setRing]
  simp only [List.nil_append, List.drop_succ_cons, List.drop_zero]
  rw [← h]

/-- A milestone committed in time pends with the next id (R52, R54). -/
theorem State.msCommit_ok {s : State} {m action target policy reportQ at88 before arg arg2 job : Nat}
    (h1 : s.ms.pending.length < 4096) (h2 : (s.mer m).st ≠ .off) (h3 : s.odo m + s.msLead m action ≤ at88 - before) :
    s.msCommit m action target policy reportQ at88 before arg arg2 job =
      (s.msAdd ⟨0, m, action, target, policy == 1, false, reportQ, at88, arg, arg2, job⟩, .ok (s.ms.nextId, false)) := by
  unfold State.msCommit
  rw [if_neg (Nat.not_le.mpr h1), if_neg h2]
  unfold State.msCommitAs
  have hl : decide (at88 - before < s.odo m + s.msLead m action) = false := decide_eq_false (Nat.not_lt.mpr h3)
  rw [hl]
  exact if_neg (by simp)

/-- A command accepted begins at once, in the state begun (R362, R368). -/
theorem State.runCommand_accepts {s : State} {opcode : Nat} {k : Packet} (h : s.accepts opcode k) (hp : isPrompt opcode = false)
    (body : CmdBody) :
    s.runCommand opcode body k = ((s.begun k).perform (s.recordOf opcode k) body k).sweepRing k.onRing.val := by
  obtain ⟨ha, hu, hb⟩ := h
  unfold State.runCommand
  dsimp only
  rw [hu, List.any_nil, if_neg (by simp), State.admit_admits ha]
  dsimp only
  generalize hr : k.onRing.val = r at *
  generalize hx : ({ (s.tick fHLM_RING_STAT_committed r).ring r with
         window := ((k.tag.toNat, none) :: ((s.tick fHLM_RING_STAT_committed r).ring r).window).take 64 } : Ring) = x
  have hxu : x.untaken = [] := by rw [← hx]; exact hu
  generalize he : (if k.deadline.toNat = 0 then 0 else s.mer0 + k.deadline.toNat * 1600) = e
  have h1 : ((((s.tick fHLM_RING_STAT_committed r).setRing r x).enqueue r (encodePacket opcode k) e).ring r).untaken =
      [⟨encodePacket opcode k, e⟩] := by
    unfold State.enqueue
    rw [State.ring_setRing, State.ring_setRing, hxu]
    rfl
  have hm : (((s.tick fHLM_RING_STAT_committed r).setRing r x).enqueue r (encodePacket opcode k) e).mayBegin r opcode k = true := hb
  rw [h1]
  dsimp only
  refine Eq.trans (if_pos ⟨rfl, hm⟩) ?_
  rw [State.takeSteps _ _ _ _ _ _ hxu]
  have h2 : s.begun k = (((s.tick fHLM_RING_STAT_committed r).setRing r x).tick fHLM_RING_STAT_taken r).fput fHLM_RING_LAST_last_tag r
      k.tag.toNat := by
    unfold State.begun
    dsimp only
    rw [hr, ← hx]
  have h3 : s.recordOf opcode k = runningOf (.ring r) opcode k e := by
    unfold State.recordOf State.expiryOf
    rw [hr, ← he, hp]
    simp
  rw [h2, h3]

/-- A prompt command admitted is executed at its commit (R374). -/
theorem State.runPrompt_admits {s : State} {opcode : Nat} {k : Packet} (h : s.admits opcode k) (hp : isPrompt opcode = true)
    (body : CmdBody) :
    s.runPrompt opcode body k = ((s.begun k).perform (s.recordOf opcode k) body k).sweepRing k.onRing.val := by
  unfold State.runPrompt
  dsimp only
  rw [State.admit_admits h]
  have h3 : s.recordOf opcode k = runningOf (.ring k.onRing.val) opcode k 0 := by
    unfold State.recordOf State.expiryOf
    rw [hp]
    simp
  rw [h3]
  rfl

/-- An accepted command whose effect ends with a status. -/
theorem State.runCommand_ends {s : State} {opcode : Nat} {k : Packet} (h : s.accepts opcode k) (hp : isPrompt opcode = false)
    {body : CmdBody} {effect : State → State} {st : Status} {detail result steps : Nat} {late isPartial : Bool}
    (hb : body k (s.begun k) = (effect (s.begun k), .done st detail result late isPartial steps)) :
    s.runCommand opcode body k = s.ends opcode k effect st detail result steps late isPartial := by
  rw [State.runCommand_accepts h hp]
  unfold State.perform
  rw [hb]
  rfl

theorem State.runPrompt_ends {s : State} {opcode : Nat} {k : Packet} (h : s.admits opcode k) (hp : isPrompt opcode = true)
    {body : CmdBody} {effect : State → State} {st : Status} {detail result steps : Nat} {late isPartial : Bool}
    (hb : body k (s.begun k) = (effect (s.begun k), .done st detail result late isPartial steps)) :
    s.runPrompt opcode body k = s.ends opcode k effect st detail result steps late isPartial := by
  rw [State.runPrompt_admits h hp]
  unfold State.perform
  rw [hb]
  rfl

/-- An accepted command whose effect waits. -/
theorem State.runCommand_awaits {s : State} {opcode : Nat} {k : Packet} (h : s.accepts opcode k) (hp : isPrompt opcode = false)
    {body : CmdBody} {effect : State → State} {why : WaitFor} {detail result dst space steps : Nat}
    (hb : body k (s.begun k) = (effect (s.begun k), .wait why detail result dst space steps)) :
    s.runCommand opcode body k = s.awaits opcode k effect why detail result dst space steps := by
  rw [State.runCommand_accepts h hp]
  unfold State.perform
  rw [hb]
  rfl

theorem State.runPrompt_awaits {s : State} {opcode : Nat} {k : Packet} (h : s.admits opcode k) (hp : isPrompt opcode = true)
    {body : CmdBody} {effect : State → State} {why : WaitFor} {detail result dst space steps : Nat}
    (hb : body k (s.begun k) = (effect (s.begun k), .wait why detail result dst space steps)) :
    s.runPrompt opcode body k = s.awaits opcode k effect why detail result dst space steps := by
  rw [State.runPrompt_admits h hp]
  unfold State.perform
  rw [hb]
  rfl

/-- A register write with a row of its own acts on the state that the writes before it leave. -/
theorem State.rowWrite_takes {s t : State} {id : RegId} {i : Nat} (ht : t = s.inOrder id.info.base) (h : t.takesRow id i) (v : Nat) :
    s.rowWrite id i v = t.regEffect ⟨⟨id, i, 0⟩, 0, id.info.width, v % 2 ^ id.info.width, 0⟩ := by
  unfold State.rowWrite
  dsimp only
  rw [← ht, if_pos h.1]
  unfold State.regWrite
  rw [if_neg (by rw [h.2]; simp)]

/-- A whole word written is what a register with an effect of its own sees. -/
theorem fullWord_whole (r : RegInfo) (k : RegKey) (v old : Nat) : fullWord r ⟨k, 0, r.width, v, 0⟩ old = v := by
  unfold fullWord
  rw [if_pos ⟨rfl, rfl⟩]

end Sys2Proof.Machine
end

