-- ==== Sys2Proof/Laws/Exec.lean ====
section
/-! SUPPORT. Each command's arm of exec, by name. -/

namespace Sys2Proof.Machine

theorem exec_registerWrite (addr bytes poisoned s) : exec (.registerWrite addr bytes poisoned) s = execRegisterWrite addr bytes poisoned s := rfl
theorem exec_immediateMilestone (s) : exec .immediateMilestone s = execImmediateMilestone s := rfl
theorem exec_arbiterGrant (ch s) : exec (.arbiterGrant ch) s = execArbiterGrant ch s := rfl
theorem exec_fenceComplete (port s) : exec (.fenceComplete port) s = execFenceComplete port s := rfl
theorem exec_writeQueueDrain (ch s) : exec (.writeQueueDrain ch) s = execWriteQueueDrain ch s := rfl
theorem exec_doorbellRelease (s) : exec .doorbellRelease s = execDoorbellRelease s := rfl
theorem exec_bar2Read (off len s) : exec (.bar2Read off len) s = execBar2Read off len s := rfl
theorem exec_bar2Write (off bytes poisoned s) : exec (.bar2Write off bytes poisoned) s = execBar2Write off bytes poisoned s := rfl
theorem exec_stride (p s) : exec (.stride p) s = execStride p s := rfl
theorem exec_vectorPeriod (n s) : exec (.vectorPeriod n) s = execVectorPeriod n s := rfl
theorem exec_compareResultArrival (n seen held s) :
    exec (.compareResultArrival n seen held) s = execCompareResultArrival n seen held s := rfl
theorem exec_nop (p s) : exec (.nop p) s = execNop p s := rfl
theorem exec_vec (p n s) : exec (.vec p n) s = execVec p n s := rfl
theorem exec_rpt (p n s) : exec (.rpt p n) s = execRpt p n s := rfl
theorem exec_pad (p n s) : exec (.pad p n) s = execPad p n s := rfl
theorem exec_loop (p c b n s) : exec (.loop p c b n) s = execLoop p c b n s := rfl
theorem exec_endl (p c s) : exec (.endl p c) s = execEndl p c s := rfl
theorem exec_jmp (p b s) : exec (.jmp p b) s = execJmp p b s := rfl
theorem exec_call (p b s) : exec (.call p b) s = execCall p b s := rfl
theorem exec_ret (p s) : exec (.ret p) s = execRet p s := rfl
theorem exec_failMark (p s) : exec (.failMark p) s = execFailMark p s := rfl
theorem exec_jmpFail (p g b s) : exec (.jmpFail p g b) s = execJmpFail p g b s := rfl
theorem exec_jmpPass (p g b s) : exec (.jmpPass p g b) s = execJmpPass p g b s := rfl
theorem exec_jmpInd (p a s) : exec (.jmpInd p a) s = execJmpInd p a s := rfl
theorem exec_jmpAbs (p a s) : exec (.jmpAbs p a) s = execJmpAbs p a s := rfl
theorem exec_matchLoop (p g b k1 t1 s) : exec (.matchLoop p g b k1 t1) s = execMatchLoop p g b k1 t1 s := rfl
theorem exec_aluSet (p a imm s) : exec (.aluSet p a imm) s = execAluSet p a imm s := rfl
theorem exec_aluAdd (p a imm s) : exec (.aluAdd p a imm) s = execAluAdd p a imm s := rfl
theorem exec_jmpAnz (p a b s) : exec (.jmpAnz p a b) s = execJmpAnz p a b s := rfl
theorem exec_waitOdo (p lateFault t s) : exec (.waitOdo p lateFault t) s = execWaitOdo p lateFault t s := rfl
theorem exec_msPost (p q tag s) : exec (.msPost p q tag) s = execMsPost p q tag s := rfl
theorem exec_legendSel (p bank s) : exec (.legendSel p bank) s = execLegendSel p bank s := rfl
theorem exec_tset (p k s) : exec (.tset p k) s = execTset p k s := rfl
theorem exec_waypt (p h s) : exec (.waypt p h) s = execWaypt p h s := rfl
theorem exec_legStart (p l s) : exec (.legStart p l) s = execLegStart p l s := rfl
theorem exec_endLeg (p last s) : exec (.endLeg p last) s = execEndLeg p last s := rfl
theorem exec_capCtl (p g ct total s) : exec (.capCtl p g ct total) s = execCapCtl p g ct total s := rfl
theorem exec_ffailArm (p s) : exec (.ffailArm p) s = execFfailArm p s := rfl
theorem exec_sxtWin (p ch opens len s) : exec (.sxtWin p ch opens len) s = execSxtWin p ch opens len s := rfl
theorem exec_sxtArm (p arm mask s) : exec (.sxtArm p arm mask) s = execSxtArm p arm mask s := rfl
theorem exec_ddsHop (p e entry s) : exec (.ddsHop p e entry) s = execDdsHop p e entry s := rfl
theorem exec_pvLoad (p v m s) : exec (.pvLoad p v m) s = execPvLoad p v m s := rfl
theorem exec_pvXor (p v m s) : exec (.pvXor p v m) s = execPvXor p v m s := rfl
theorem exec_pvCapt (p bit v m s) : exec (.pvCapt p bit v m) s = execPvCapt p bit v m s := rfl
theorem exec_scan (p group n s) : exec (.scan p group n) s = execScan p group n s := rfl
theorem exec_userOpcode (p op operand s) : exec (.userOpcode p op operand) s = execUserOpcode p op operand s := rfl
theorem exec_seqCont (p w s) : exec (.seqCont p w) s = execSeqCont p w s := rfl
theorem exec_seqJump (p w s) : exec (.seqJump p w) s = execSeqJump p w s := rfl
theorem exec_seqBranch (p w s) : exec (.seqBranch p w) s = execSeqBranch p w s := rfl
theorem exec_seqMcall (p w s) : exec (.seqMcall p w) s = execSeqMcall p w s := rfl
theorem exec_seqMret (p w s) : exec (.seqMret p w) s = execSeqMret p w s := rfl
theorem exec_seqWait (p w s) : exec (.seqWait p w) s = execSeqWait p w s := rfl
theorem exec_seqWaitTimeout (p s) : exec (.seqWaitTimeout p) s = execSeqWaitTimeout p s := rfl
theorem exec_seqNext (p w s) : exec (.seqNext p w) s = execSeqNext p w s := rfl
theorem exec_seqRbr (p w s) : exec (.seqRbr p w) s = execSeqRbr p w s := rfl
theorem exec_seqMtab (p w s) : exec (.seqMtab p w) s = execSeqMtab p w s := rfl
theorem exec_seqTrap (p w s) : exec (.seqTrap p w) s = execSeqTrap p w s := rfl
theorem exec_controlStoreReload (c copyOk stillBad s) : exec (.controlStoreReload c copyOk stillBad) s = execControlStoreReload c copyOk stillBad s := rfl
theorem exec_controlStoreScrub (c s) : exec (.controlStoreScrub c) s = execControlStoreScrub c s := rfl
theorem exec_haltEntry (p s) : exec (.haltEntry p) s = execHaltEntry p s := rfl
theorem exec_siteQueueEntry (p s) : exec (.siteQueueEntry p) s = execSiteQueueEntry p s := rfl
theorem exec_legEnd (p s) : exec (.legEnd p) s = execLegEnd p s := rfl
theorem exec_jobRestore (p s) : exec (.jobRestore p) s = execJobRestore p s := rfl
theorem exec_relativeLegStart (p s) : exec (.relativeLegStart p) s = execRelativeLegStart p s := rfl
theorem exec_slipSyncEdge (p instant s) : exec (.slipSyncEdge p instant) s = execSlipSyncEdge p instant s := rfl
theorem exec_slipExpiry (p s) : exec (.slipExpiry p) s = execSlipExpiry p s := rfl
theorem exec_holdEnd (p s) : exec (.holdEnd p) s = execHoldEnd p s := rfl
theorem exec_holdLimit (p s) : exec (.holdLimit p) s = execHoldLimit p s := rfl
theorem exec_fillElement (p s) : exec (.fillElement p) s = execFillElement p s := rfl
theorem exec_slotFill (p s) : exec (.slotFill p) s = execSlotFill p s := rfl
theorem exec_playoutFetch (p s) : exec (.playoutFetch p) s = execPlayoutFetch p s := rfl
theorem exec_captureBlockWrite (n s) : exec (.captureBlockWrite n) s = execCaptureBlockWrite n s := rfl
theorem exec_captureMarker (p s) : exec (.captureMarker p) s = execCaptureMarker p s := rfl
theorem exec_truncationMarker (q s) : exec (.truncationMarker q) s = execTruncationMarker q s := rfl
theorem exec_msLegStart (id s) : exec (.msLegStart id) s = execMsLegStart id s := rfl
theorem exec_msDdsHop (id s) : exec (.msDdsHop id) s = execMsDdsHop id s := rfl
theorem exec_msDdsAdvance (id s) : exec (.msDdsAdvance id) s = execMsDdsAdvance id s := rfl
theorem exec_msDdsStart (id s) : exec (.msDdsStart id) s = execMsDdsStart id s := rfl
theorem exec_msDdsStop (id s) : exec (.msDdsStop id) s = execMsDdsStop id s := rfl
theorem exec_msSxtArm (id s) : exec (.msSxtArm id) s = execMsSxtArm id s := rfl
theorem exec_msSxtWindow (id s) : exec (.msSxtWindow id) s = execMsSxtWindow id s := rfl
theorem exec_msAcqTrigger (id s) : exec (.msAcqTrigger id) s = execMsAcqTrigger id s := rfl
theorem exec_msConverterTrigger (id s) : exec (.msConverterTrigger id) s = execMsConverterTrigger id s := rfl
theorem exec_msWaylineLaunch (id s) : exec (.msWaylineLaunch id) s = execMsWaylineLaunch id s := rfl
theorem exec_msMsyncOut (id s) : exec (.msMsyncOut id) s = execMsMsyncOut id s := rfl
theorem exec_msGpio (id s) : exec (.msGpio id) s = execMsGpio id s := rfl
theorem exec_msDepotPost (id s) : exec (.msDepotPost id) s = execMsDepotPost id s := rfl
theorem exec_meridianLock (m fin s) : exec (.meridianLock m fin) s = execMeridianLock m fin s := rfl
theorem exec_bearingLost (m s) : exec (.bearingLost m) s = execBearingLost m s := rfl
theorem exec_freqRangeExit (m fin s) : exec (.freqRangeExit m fin) s = execFreqRangeExit m fin s := rfl
theorem exec_merCtlWrite (m reg v s) : exec (.merCtlWrite m reg v) s = execMerCtlWrite m reg v s := rfl
theorem exec_merSnap (mask s) : exec (.merSnap mask) s = execMerSnap mask s := rfl
theorem exec_overvoltage (n mv s) : exec (.overvoltage n mv) s = execOvervoltage n mv s := rfl
theorem exec_levelSettled (n s) : exec (.levelSettled n) s = execLevelSettled n s := rfl
theorem exec_almanacApertureWrite (set n byte size v s) : exec (.almanacApertureWrite set n byte size v) s = execAlmanacApertureWrite set n byte size v s := rfl
theorem exec_sextantEdge (c at20fs falling voh s) : exec (.sextantEdge c at20fs falling voh) s = execSextantEdge c at20fs falling voh s := rfl
theorem exec_stampDecision (c s) : exec (.stampDecision c) s = execStampDecision c s := rfl
theorem exec_stampPost (c s) : exec (.stampPost c) s = execStampPost c s := rfl
theorem exec_frequencyRunEnd (u s) : exec (.frequencyRunEnd u) s = execFrequencyRunEnd u s := rfl
theorem exec_sxtWinCommit (c s) : exec (.sxtWinCommit c) s = execSxtWinCommit c s := rfl
theorem exec_sxtChCtlWrite (c v s) : exec (.sxtChCtlWrite c v) s = execSxtChCtlWrite c v s := rfl
theorem exec_sxtMuCtlWrite (u v s) : exec (.sxtMuCtlWrite u v) s = execSxtMuCtlWrite u v s := rfl
theorem exec_selfCheckStart (s) : exec .selfCheckStart s = execSelfCheckStart s := rfl
theorem exec_selfCheckDone (failing s) : exec (.selfCheckDone failing) s = execSelfCheckDone failing s := rfl
theorem exec_dwellEnd (e s) : exec (.dwellEnd e) s = execDwellEnd e s := rfl
theorem exec_ddsListWrite (entry high v s) : exec (.ddsListWrite entry high v) s = execDdsListWrite entry high v s := rfl
theorem exec_sdOutput (n code overload s) : exec (.sdOutput n code overload) s = execSdOutput n code overload s := rfl
theorem exec_sarConversionDone (a raw s) : exec (.sarConversionDone a raw) s = execSarConversionDone a raw s := rfl
theorem exec_converterResultPost (s) : exec .converterResultPost s = execConverterResultPost s := rfl
theorem exec_adcTrigGo (s) : exec .adcTrigGo s = execAdcTrigGo s := rfl
theorem exec_msyncInEdge (rising instant s) : exec (.msyncInEdge rising instant) s = execMsyncInEdge rising instant s := rfl
theorem exec_heldTrigger (s) : exec .heldTrigger s = execHeldTrigger s := rfl
theorem exec_sarInjectRequest (a input s) : exec (.sarInjectRequest a input) s = execSarInjectRequest a input s := rfl
theorem exec_adcSdCfgWrite (n osr s) : exec (.adcSdCfgWrite n osr) s = execAdcSdCfgWrite n osr s := rfl
theorem exec_acqCtlWrite (u v s) : exec (.acqCtlWrite u v) s = execAcqCtlWrite u v s := rfl
theorem exec_acqTrigGo (u s) : exec (.acqTrigGo u) s = execAcqTrigGo u s := rfl
theorem exec_acqRecord (u s) : exec (.acqRecord u) s = execAcqRecord u s := rfl
theorem exec_acqRearm (u s) : exec (.acqRearm u) s = execAcqRearm u s := rfl
theorem exec_refreshStop (s) : exec .refreshStop s = execRefreshStop s := rfl
theorem exec_refreshStopEnd (errs s) : exec (.refreshStopEnd errs) s = execRefreshStopEnd errs s := rfl
theorem exec_stackTempRead (temps s) : exec (.stackTempRead temps) s = execStackTempRead temps s := rfl
theorem exec_parityAlert (ch replays s) : exec (.parityAlert ch replays) s = execParityAlert ch replays s := rfl
theorem exec_hbmScrub (s) : exec .hbmScrub s = execHbmScrub s := rfl
theorem exec_memoryWake (port s) : exec (.memoryWake port) s = execMemoryWake port s := rfl
theorem exec_selfRefreshExit (s) : exec .selfRefreshExit s = execSelfRefreshExit s := rfl
theorem exec_memMapCtlWrite (m v s) : exec (.memMapCtlWrite m v) s = execMemMapCtlWrite m v s := rfl
theorem exec_walkComplete (source space dva write s) : exec (.walkComplete source space dva write) s = execWalkComplete source space dva write s := rfl
theorem exec_chtInvGo (s) : exec .chtInvGo s = execChtInvGo s := rfl
theorem exec_dmaDescriptor (c s) : exec (.dmaDescriptor c) s = execDmaDescriptor c s := rfl
theorem exec_granuleComplete (c k s) : exec (.granuleComplete c k) s = execGranuleComplete c k s := rfl
theorem exec_dmaCompletion (c s) : exec (.dmaCompletion c) s = execDmaCompletion c s := rfl
theorem exec_dmaChCtlWrite (c v s) : exec (.dmaChCtlWrite c v) s = execDmaChCtlWrite c v s := rfl
theorem exec_doorbellPageWrite (r off bytes s) : exec (.doorbellPageWrite r off bytes) s = execDoorbellPageWrite r off bytes s := rfl
theorem exec_cplConsumedWrite (r v s) : exec (.cplConsumedWrite r v) s = execCplConsumedWrite r v s := rfl
theorem exec_completionCommit (r s) : exec (.completionCommit r) s = execCompletionCommit r s := rfl
theorem exec_moderationTimeout (r s) : exec (.moderationTimeout r) s = execModerationTimeout r s := rfl
theorem exec_deadlineExpiry (member sender tag s) : exec (.deadlineExpiry member sender tag) s = execDeadlineExpiry member sender tag s := rfl
theorem exec_nopCommand (k s) : exec (.nopCommand k) s = execNopCommand k s := rfl
theorem exec_ringCreate (k s) : exec (.ringCreate k) s = execRingCreate k s := rfl
theorem exec_ringDelete (k s) : exec (.ringDelete k) s = execRingDelete k s := rfl
theorem exec_abortAll (k s) : exec (.abortAll k) s = execAbortAll k s := rfl
theorem exec_takeFix (k s) : exec (.takeFix k) s = execTakeFix k s := rfl
theorem exec_scriptLoad (k s) : exec (.scriptLoad k) s = execScriptLoad k s := rfl
theorem exec_scriptCtl (k s) : exec (.scriptCtl k) s = execScriptCtl k s := rfl
theorem exec_memMapSet (k s) : exec (.memMapSet k) s = execMemMapSet k s := rfl
theorem exec_memTrain (k s) : exec (.memTrain k) s = execMemTrain k s := rfl
theorem exec_memChRecover (k s) : exec (.memChRecover k) s = execMemChRecover k s := rfl
theorem exec_memSelfRefresh (k s) : exec (.memSelfRefresh k) s = execMemSelfRefresh k s := rfl
theorem exec_memSegClear (k s) : exec (.memSegClear k) s = execMemSegClear k s := rfl
theorem exec_aspaceSet (k s) : exec (.aspaceSet k) s = execAspaceSet k s := rfl
theorem exec_chartMap (k s) : exec (.chartMap k) s = execChartMap k s := rfl
theorem exec_chartUnmap (k s) : exec (.chartUnmap k) s = execChartUnmap k s := rfl
theorem exec_chartInvalidate (k s) : exec (.chartInvalidate k) s = execChartInvalidate k s := rfl
theorem exec_chartRetry (k s) : exec (.chartRetry k) s = execChartRetry k s := rfl
theorem exec_chartAbandon (k s) : exec (.chartAbandon k) s = execChartAbandon k s := rfl
theorem exec_dmaChannelSet (k s) : exec (.dmaChannelSet k) s = execDmaChannelSet k s := rfl
theorem exec_routeLoad (k s) : exec (.routeLoad k) s = execRouteLoad k s := rfl
theorem exec_jobDefine (k s) : exec (.jobDefine k) s = execJobDefine k s := rfl
theorem exec_jobStart (k s) : exec (.jobStart k) s = execJobStart k s := rfl
theorem exec_haltJob (k s) : exec (.haltJob k) s = execHaltJob k s := rfl
theorem exec_siteMask (k s) : exec (.siteMask k) s = execSiteMask k s := rfl
theorem exec_siteDrop (k s) : exec (.siteDrop k) s = execSiteDrop k s := rfl
theorem exec_trapResume (k s) : exec (.trapResume k) s = execTrapResume k s := rfl
theorem exec_jobUndefine (k s) : exec (.jobUndefine k) s = execJobUndefine k s := rfl
theorem exec_pinLevels (k s) : exec (.pinLevels k) s = execPinLevels k s := rfl
theorem exec_pinConfig (k s) : exec (.pinConfig k) s = execPinConfig k s := rfl
theorem exec_pinPmu (k s) : exec (.pinPmu k) s = execPinPmu k s := rfl
theorem exec_pinSite (k s) : exec (.pinSite k) s = execPinSite k s := rfl
theorem exec_pinClear (k s) : exec (.pinClear k) s = execPinClear k s := rfl
theorem exec_almanacTemplate (k s) : exec (.almanacTemplate k) s = execAlmanacTemplate k s := rfl
theorem exec_almanacLoad (k s) : exec (.almanacLoad k) s = execAlmanacLoad k s := rfl
theorem exec_almanacCheck (k s) : exec (.almanacCheck k) s = execAlmanacCheck k s := rfl
theorem exec_almanacDeskew (k s) : exec (.almanacDeskew k) s = execAlmanacDeskew k s := rfl
theorem exec_sextantMeasure (k s) : exec (.sextantMeasure k) s = execSextantMeasure k s := rfl
theorem exec_sextantSelfcheck (k s) : exec (.sextantSelfcheck k) s = execSextantSelfcheck k s := rfl
theorem exec_adcSequence (k s) : exec (.adcSequence k) s = execAdcSequence k s := rfl
theorem exec_adcTrigger (k s) : exec (.adcTrigger k) s = execAdcTrigger k s := rfl
theorem exec_adcInject (k s) : exec (.adcInject k) s = execAdcInject k s := rfl
theorem exec_acqArm (k s) : exec (.acqArm k) s = execAcqArm k s := rfl
theorem exec_acqStop (k s) : exec (.acqStop k) s = execAcqStop k s := rfl
theorem exec_acqStats (k s) : exec (.acqStats k) s = execAcqStats k s := rfl
theorem exec_ddsLoad (k s) : exec (.ddsLoad k) s = execDdsLoad k s := rfl
theorem exec_ddsStart (k s) : exec (.ddsStart k) s = execDdsStart k s := rfl
theorem exec_ddsStop (k s) : exec (.ddsStop k) s = execDdsStop k s := rfl
theorem exec_ddsPin (k s) : exec (.ddsPin k) s = execDdsPin k s := rfl
theorem exec_meridianConfig (k s) : exec (.meridianConfig k) s = execMeridianConfig k s := rfl
theorem exec_meridianEnable (k s) : exec (.meridianEnable k) s = execMeridianEnable k s := rfl
theorem exec_meridianSet (k s) : exec (.meridianSet k) s = execMeridianSet k s := rfl
theorem exec_meridianAdjust (k s) : exec (.meridianAdjust k) s = execMeridianAdjust k s := rfl
theorem exec_milestonePost (k s) : exec (.milestonePost k) s = execMilestonePost k s := rfl
theorem exec_milestoneCancel (k s) : exec (.milestoneCancel k) s = execMilestoneCancel k s := rfl
theorem exec_waylinePort (k s) : exec (.waylinePort k) s = execWaylinePort k s := rfl
theorem exec_waylineSend (k s) : exec (.waylineSend k) s = execWaylineSend k s := rfl
theorem exec_waylineForward (k s) : exec (.waylineForward k) s = execWaylineForward k s := rfl
theorem exec_muster (k s) : exec (.muster k) s = execMuster k s := rfl
theorem exec_convoyLeave (k s) : exec (.convoyLeave k) s = execConvoyLeave k s := rfl
theorem exec_microcodeLoad (k s) : exec (.microcodeLoad k) s = execMicrocodeLoad k s := rfl
theorem exec_microcodeUnload (k s) : exec (.microcodeUnload k) s = execMicrocodeUnload k s := rfl
theorem exec_powerDomain (k s) : exec (.powerDomain k) s = execPowerDomain k s := rfl
theorem exec_thermalSet (k s) : exec (.thermalSet k) s = execThermalSet k s := rfl
theorem exec_regBatch (k s) : exec (.regBatch k) s = execRegBatch k s := rfl
theorem exec_fixDoorbell (v s) : exec (.fixDoorbell v) s = execFixDoorbell v s := rfl
theorem exec_fixWritten (ok s) : exec (.fixWritten ok) s = execFixWritten ok s := rfl
theorem exec_create (h t prio s) : exec (.create h t prio) s = execCreate h t prio s := rfl
theorem exec_delete (h t s) : exec (.delete h t) s = execDelete h t s := rfl
theorem exec_setPrio (h t prio s) : exec (.setPrio h t prio) s = execSetPrio h t prio s := rfl
theorem exec_setFlags (h t mask s) : exec (.setFlags h t mask) s = execSetFlags h t mask s := rfl
theorem exec_clearFlags (h mask s) : exec (.clearFlags h mask) s = execClearFlags h mask s := rfl
theorem exec_wait (h mask all consume ticks s) : exec (.wait h mask all consume ticks) s = execWait h mask all consume ticks s := rfl
theorem exec_delay (h ticks s) : exec (.delay h ticks) s = execDelay h ticks s := rfl
theorem exec_yield (h s) : exec (.yield h) s = execYield h s := rfl
theorem exec_post (h q msg s) : exec (.post h q msg) s = execPost h q msg s := rfl
theorem exec_take (h q s) : exec (.take h q) s = execTake h q s := rfl
theorem exec_exit (h s) : exec (.exit h) s = execExit h s := rfl
theorem exec_swyHSwitch (h s) : exec (.swyHSwitch h) s = execSwyHSwitch h s := rfl
theorem exec_switchyardTick (s) : exec .switchyardTick s = execSwitchyardTick s := rfl
theorem exec_delayExpiry (t s) : exec (.delayExpiry t) s = execDelayExpiry t s := rfl
theorem exec_swyTickWrite (v s) : exec (.swyTickWrite v) s = execSwyTickWrite v s := rfl
theorem exec_queueDoorbellWrite (q off bytes s) : exec (.queueDoorbellWrite q off bytes) s = execQueueDoorbellWrite q off bytes s := rfl
theorem exec_mirrorConsumedWrite (q v s) : exec (.mirrorConsumedWrite q v) s = execMirrorConsumedWrite q v s := rfl
theorem exec_mirrorWrite (q s) : exec (.mirrorWrite q) s = execMirrorWrite q s := rfl
theorem exec_spillRefill (q poisoned s) : exec (.spillRefill q poisoned) s = execSpillRefill q poisoned s := rfl
theorem exec_dptQCtlWrite (q v s) : exec (.dptQCtlWrite q v) s = execDptQCtlWrite q v s := rfl
theorem exec_blockLock (p lane s) : exec (.blockLock p lane) s = execBlockLock p lane s := rfl
theorem exec_lockLoss (p lane s) : exec (.lockLoss p lane) s = execLockLoss p lane s := rfl
theorem exec_trainReq (p lane v s) : exec (.trainReq p lane v) s = execTrainReq p lane v s := rfl
theorem exec_trainStat (p lane v s) : exec (.trainStat p lane v) s = execTrainStat p lane v s := rfl
theorem exec_portUp (p s) : exec (.portUp p) s = execPortUp p s := rfl
theorem exec_trainTimeout (p s) : exec (.trainTimeout p) s = execTrainTimeout p s := rfl
theorem exec_idleQuietExpiry (p s) : exec (.idleQuietExpiry p) s = execIdleQuietExpiry p s := rfl
theorem exec_idleEnter (p s) : exec (.idleEnter p) s = execIdleEnter p s := rfl
theorem exec_idleExit (p s) : exec (.idleExit p) s = execIdleExit p s := rfl
theorem exec_ack (p seq c0 c1 c2 s) : exec (.ack p seq c0 c1 c2) s = execAck p seq c0 c1 c2 s := rfl
theorem exec_nak (p seq s) : exec (.nak p seq) s = execNak p seq s := rfl
theorem exec_ackTimer (p s) : exec (.ackTimer p) s = execAckTimer p s := rfl
theorem exec_replayTimeout (p s) : exec (.replayTimeout p) s = execReplayTimeout p s := rfl
theorem exec_halt (p seq origin s) : exec (.halt p seq origin) s = execHalt p seq origin s := rfl
theorem exec_go (p origin e s) : exec (.go p origin e) s = execGo p origin e s := rfl
theorem exec_agg (p v fromRoot s) : exec (.agg p v fromRoot) s = execAgg p v fromRoot s := rfl
theorem exec_timeReq (p seq arrive leave s) : exec (.timeReq p seq arrive leave) s = execTimeReq p seq arrive leave s := rfl
theorem exec_timeT2 (p seq t2 arrive s) : exec (.timeT2 p seq t2 arrive) s = execTimeT2 p seq t2 arrive s := rfl
theorem exec_timeT3 (p seq t3 s) : exec (.timeT3 p seq t3) s = execTimeT3 p seq t3 s := rfl
theorem exec_timeExchangeTimer (p at20fs s) : exec (.timeExchangeTimer p at20fs) s = execTimeExchangeTimer p at20fs s := rfl
theorem exec_launch (p slot k s) : exec (.launch p slot k) s = execLaunch p slot k s := rfl
theorem exec_msg (p f s) : exec (.msg p f) s = execMsg p f s := rfl
theorem exec_msgAck (p f s) : exec (.msgAck p f) s = execMsgAck p f s := rfl
theorem exec_fwdCmd (p f s) : exec (.fwdCmd p f) s = execFwdCmd p f s := rfl
theorem exec_fwdCpl (p f s) : exec (.fwdCpl p f) s = execFwdCpl p f s := rfl
theorem exec_bulkWr (p f s) : exec (.bulkWr p f) s = execBulkWr p f s := rfl
theorem exec_bulkRdReq (p f s) : exec (.bulkRdReq p f) s = execBulkRdReq p f s := rfl
theorem exec_bulkRdData (p f s) : exec (.bulkRdData p f) s = execBulkRdData p f s := rfl
theorem exec_bulkAck (p f s) : exec (.bulkAck p f) s = execBulkAck p f s := rfl
theorem exec_bulkFaultTimeout (id s) : exec (.bulkFaultTimeout id) s = execBulkFaultTimeout id s := rfl
theorem exec_musterFlit (p f s) : exec (.musterFlit p f) s = execMusterFlit p f s := rfl
theorem exec_musterOffsetTimeout (s) : exec .musterOffsetTimeout s = execMusterOffsetTimeout s := rfl
theorem exec_musterRootTimeout (s) : exec .musterRootTimeout s = execMusterRootTimeout s := rfl
theorem exec_musterVerdictTimeout (s) : exec .musterVerdictTimeout s = execMusterVerdictTimeout s := rfl
theorem exec_wlnHalt (s) : exec .wlnHalt s = execWlnHalt s := rfl
theorem exec_wlnGo (s) : exec .wlnGo s = execWlnGo s := rfl
theorem exec_wlnAggWrite (v s) : exec (.wlnAggWrite v) s = execWlnAggWrite v s := rfl
theorem exec_ptpMessage (at20fs sync measured offset s) : exec (.ptpMessage at20fs sync measured offset) s = execPtpMessage at20fs sync measured offset s := rfl
theorem exec_syncTimeout (s) : exec .syncTimeout s = execSyncTimeout s := rfl
theorem exec_ethTxElement (s) : exec .ethTxElement s = execEthTxElement s := rfl
theorem exec_ethLaunch (s) : exec .ethLaunch s = execEthLaunch s := rfl
theorem exec_telemetryTimer (s) : exec .telemetryTimer s = execTelemetryTimer s := rfl
theorem exec_fixRequestDatagram (src port magic s) : exec (.fixRequestDatagram src port magic) s = execFixRequestDatagram src port magic s := rfl
theorem exec_ethLinkChange (up s) : exec (.ethLinkChange up) s = execEthLinkChange up s := rfl
theorem exec_msixUnmask (v enable s) : exec (.msixUnmask v enable) s = execMsixUnmask v enable s := rfl
theorem exec_pendingPowerDown (d s) : exec (.pendingPowerDown d) s = execPendingPowerDown d s := rfl
theorem exec_powerUpDone (d s) : exec (.powerUpDone d) s = execPowerUpDone d s := rfl
theorem exec_powerGood (straps s) : exec (.powerGood straps) s = execPowerGood straps s := rfl
theorem exec_bootComplete (status dir fallback failed rejected s) : exec (.bootComplete status dir fallback failed rejected) s = execBootComplete status dir fallback failed rejected s := rfl
theorem exec_coldReset (byResetN s) : exec (.coldReset byResetN) s = execColdReset byResetN s := rfl
theorem exec_warmReset (s) : exec .warmReset s = execWarmReset s := rfl
theorem exec_perstDeassert (s) : exec .perstDeassert s = execPerstDeassert s := rfl
theorem exec_bncBlkReset (v s) : exec (.bncBlkReset v) s = execBncBlkReset v s := rfl
theorem exec_thermalSample (temp s) : exec (.thermalSample temp) s = execThermalSample temp s := rfl
theorem exec_thermalTrip (s) : exec .thermalTrip s = execThermalTrip s := rfl
theorem exec_smbThmTemp (s) : exec .smbThmTemp s = execSmbThmTemp s := rfl
theorem exec_smbThmState (s) : exec .smbThmState s = execSmbThmState s := rfl
theorem exec_smbBncStatus (s) : exec .smbBncStatus s = execSmbBncStatus s := rfl
theorem exec_smbPwrOn (s) : exec .smbPwrOn s = execSmbPwrOn s := rfl
theorem exec_smbAlertResponse (s) : exec .smbAlertResponse s = execSmbAlertResponse s := rfl
theorem exec_registerRead (addr size s) : exec (.registerRead addr size) s = execRegisterRead addr size s := rfl
theorem exec_pmuClamp (n s) : exec (.pmuClamp n) s = execPmuClamp n s := rfl
theorem exec_edgesReturn (m s) : exec (.edgesReturn m) s = execEdgesReturn m s := rfl
theorem exec_phaseOffsetRemoved (m s) : exec (.phaseOffsetRemoved m) s = execPhaseOffsetRemoved m s := rfl
theorem exec_flitCrcError (p badCrc s) : exec (.flitCrcError p badCrc) s = execFlitCrcError p badCrc s := rfl
theorem exec_badControlBlock (p s) : exec (.badControlBlock p) s = execBadControlBlock p s := rfl
theorem exec_fecCodeword (p uncorrectable s) : exec (.fecCodeword p uncorrectable) s = execFecCodeword p uncorrectable s := rfl

end Sys2Proof.Machine
end

