-- ==== Sys2Proof/Laws/Keeps.lean ====
section
/-! SUPPORT. The relation that every operation's law is stated in: it leaves the queue of waiting commands alone, does not move
time or the count of free values back, keeps the invariant, and changes no part of the state outside a set. A set of parts is
the number whose bits are the parts' codes. Here: the relation, and one law for each primitive operation. -/

set_option linter.unreachableTactic false
set_option linter.unusedTactic false

namespace Sys2Proof.Machine

/-- A part's code: a register's number, and numbers above them for the rest. -/
def Part.code : Part → Nat
  | .reg id => id.ctorIdx
  | .time => 300 | .free => 301 | .hostMem => 302 | .msix => 303 | .hostPort => 304 | .mers => 305 | .ms => 306 | .depot => 307
  | .swy => 308 | .rings => 309 | .counters => 310 | .helm => 311 | .pins => 312 | .alm => 313 | .clusters => 314 | .pilots => 315
  | .jobs => 316 | .hbmMem => 317 | .hbm => 318 | .chart => 319 | .dma => 320 | .sxt => 321 | .dds => 322 | .adc => 323 | .acq => 324
  | .wln => 325 | .eth => 326 | .bnc => 327

/-- The codes of a list of parts as one set. -/
def partMask (ps : List Part) : Nat := ps.foldr (fun p m => m ||| 2 ^ p.code) 0

/-- One set of parts lies within another. -/
abbrev Fits (a b : Nat) : Prop := a &&& b = a

theorem Fits.bit {a b i : Nat} (h : Fits a b) (hi : a.testBit i = true) : b.testBit i = true := by
  have h1 : (a &&& b).testBit i = true := by rw [h]; exact hi
  rw [Nat.testBit_and] at h1
  simp_all

theorem Fits.sub {a b c : Nat} (h : Fits b c) (hi : Fits a b) : Fits a c := by
  apply Nat.eq_of_testBit_eq
  intro i
  rw [Nat.testBit_and]
  cases ha : a.testBit i with
  | false => rfl
  | true => rw [h.bit (hi.bit ha)]; rfl

theorem Fits.refl (a : Nat) : Fits a a := Nat.and_self a

theorem RegId.ctorIdx_inj {a b : RegId} (h : a.ctorIdx = b.ctorIdx) : a = b := by
  rw [← RegId.ofNat_ctorIdx a, ← RegId.ofNat_ctorIdx b, h]

theorem RegId.ctorIdx_lt (a : RegId) : a.ctorIdx < 300 := by
  cases a <;> decide

/-- The number of a part that is no register's bank. -/
def Part.ofCode (n : Nat) : Part :=
  match n with
  | 300 => .time | 301 => .free | 302 => .hostMem | 303 => .msix | 304 => .hostPort | 305 => .mers | 306 => .ms | 307 => .depot
  | 308 => .swy | 309 => .rings | 310 => .counters | 311 => .helm | 312 => .pins | 313 => .alm | 314 => .clusters | 315 => .pilots
  | 316 => .jobs | 317 => .hbmMem | 318 => .hbm | 319 => .chart | 320 => .dma | 321 => .sxt | 322 => .dds | 323 => .adc | 324 => .acq
  | 325 => .wln | 326 => .eth | 327 => .bnc | n => .reg (RegId.ofNat n)

theorem Part.ofCode_code (p : Part) : Part.ofCode p.code = p := by
  cases p with
  | reg id => cases id <;> rfl
  | _ => rfl

theorem Part.code_inj {p q : Part} (h : p.code = q.code) : p = q := by
  rw [← Part.ofCode_code p, ← Part.ofCode_code q, h]

theorem partMask_bit (ps : List Part) (p : Part) : (partMask ps).testBit p.code = true ↔ p ∈ ps := by
  induction ps with
  | nil => simp [partMask]
  | cons q r ih =>
    have h1 : partMask (q :: r) = partMask r ||| 2 ^ q.code := rfl
    rw [h1, Nat.testBit_or, Bool.or_eq_true, ih, Nat.testBit_two_pow, decide_eq_true_iff, List.mem_cons]
    constructor
    · rintro (h | h)
      · exact Or.inr h
      · exact Or.inl (Part.code_inj h.symm)
    · rintro (h | h)
      · exact Or.inr (by rw [h])
      · exact Or.inl h

/-- What an operation with a set of parts makes of a state. -/
structure Keeps (P : Nat) (s t : State) : Prop where
  pending : t.pending = s.pending
  now : s.now ≤ t.now
  free : s.free ≤ t.free
  sound : s.sound → t.sound
  same : ∀ p : Part, P.testBit p.code = false → p.same s t

theorem Part.same_refl (s : State) (p : Part) : p.same s s := by
  cases p <;> simp [Part.same]

theorem Part.same_trans {s t u : State} {p : Part} (h1 : p.same s t) (h2 : p.same t u) : p.same s u := by
  cases p <;> simp_all [Part.same]

theorem Keeps.refl (P : Nat) (s : State) : Keeps P s s :=
  ⟨rfl, Nat.le_refl _, Nat.le_refl _, id, fun p _ => p.same_refl s⟩

theorem Keeps.trans {P : Nat} {s t u : State} (h1 : Keeps P s t) (h2 : Keeps P t u) : Keeps P s u :=
  ⟨h2.pending.trans h1.pending, h1.now.trans h2.now, h1.free.trans h2.free, fun h => h2.sound (h1.sound h),
    fun p hp => Part.same_trans (h1.same p hp) (h2.same p hp)⟩

/-- A frame in terms of parts. -/
theorem Keeps.changes {P : Nat} {ps : List Part} {s t : State} (h : Keeps P s t) (hP : Fits P (partMask ps)) : Changes ps s t := by
  refine ⟨h.pending, fun p hp => h.same p ?_⟩
  cases hb : P.testBit p.code with
  | false => rfl
  | true => exact absurd ((partMask_bit ps p).mp (hP.bit hb)) hp

/-- An operation that changes one part. -/
theorem Keeps.one {P : Nat} {s u v : State} (c : Nat) (hb : P.testBit c = true) (h : Keeps P s u) (hp : v.pending = u.pending)
    (hn : u.now ≤ v.now) (hf : u.free ≤ v.free) (hs : u.sound → v.sound) (hq : ∀ p : Part, p.code ≠ c → p.same u v) :
    Keeps P s v :=
  h.trans ⟨hp, hn, hf, hs, fun p h1 => hq p (fun h2 => by rw [h2, hb] at h1; exact Bool.noConfusion h1)⟩

theorem keeps_wr {F P : Nat} {s u : State} (hF : Fits F P) {id : RegId} (hb : F.testBit id.ctorIdx = true) (h : Keeps P s u)
    {i j : Nat} {v : Word} : Keeps P s (u.wr id i j v) := by
  refine Keeps.one id.ctorIdx (hF.bit hb) h rfl (Nat.le_refl _) (Nat.le_refl _) (fun h => h) (fun p hp => ?_)
  cases p with
  | reg r =>
    intro a b
    have h1 : r ≠ id := fun h => hp (by rw [h]; rfl)
    simp only [State.rd, State.wr]
    rw [bankGet_set_ne]
    simp [h1]
  | _ => first | exact rfl | exact fun _ _ => rfl | exact ⟨rfl, rfl⟩ | exact ⟨rfl, rfl, rfl, rfl⟩ |
      exact ⟨rfl, rfl, rfl, rfl, rfl⟩ | exact ⟨rfl, rfl, rfl, rfl, rfl, rfl⟩ | exact ⟨rfl, rfl, rfl, rfl, rfl, rfl, rfl, rfl, rfl⟩

theorem keeps_fput {F P : Nat} {s u : State} (hF : Fits F P) {f : Fld} (hb : F.testBit f.id.ctorIdx = true) (h : Keeps P s u)
    {i x : Nat} : Keeps P s (u.fput f i x) := keeps_wr hF hb h

theorem keeps_fputj {F P : Nat} {s u : State} (hF : Fits F P) {f : Fld} (hb : F.testBit f.id.ctorIdx = true) (h : Keeps P s u)
    {i j x : Nat} : Keeps P s (u.fputj f i j x) := keeps_wr hF hb h

theorem keeps_bump {F P : Nat} {s u : State} (hF : Fits F P) {f : Fld} (hb : F.testBit f.id.ctorIdx = true) (h : Keeps P s u)
    {i n : Nat} : Keeps P s (u.bump f i n) := keeps_wr hF hb h

theorem keeps_tick {F P : Nat} {s u : State} (hF : Fits F P) {f : Fld} (hb : F.testBit f.id.ctorIdx = true) (h : Keeps P s u)
    {i n : Nat} : Keeps P s (u.tick f i n) := keeps_wr hF hb h

theorem keeps_rst {F P : Nat} {s u : State} (hF : Fits F P) {id : RegId} (hb : F.testBit id.ctorIdx = true) (h : Keeps P s u)
    {i : Nat} : Keeps P s (u.rst id i) := keeps_wr hF hb h

/-- A fold of an operation over a list. -/
theorem keeps_foldl {α : Type} {P : Nat} {s u : State} {f : State → α → State} {l : List α}
    (hf : ∀ v a, Keeps P s v → Keeps P s (f v a)) (h : Keeps P s u) : Keeps P s (l.foldl f u) := by
  induction l generalizing u with
  | nil => exact h
  | cons a r ih => exact ih (hf u a h)

/-- A fold that carries a value beside the state. -/
theorem keeps_foldl_fst {α β : Type} {P : Nat} {s : State} {u : State × β} {f : State × β → α → State × β} {l : List α}
    (hf : ∀ v a, Keeps P s v.1 → Keeps P s (f v a).1) (h : Keeps P s u.1) : Keeps P s (l.foldl f u).1 := by
  induction l generalizing u with
  | nil => exact h
  | cons a r ih => exact ih (hf u a h)

theorem keeps_ite {P : Nat} {s u v : State} {c : Prop} [Decidable c] (hu : Keeps P s u) (hv : Keeps P s v) :
    Keeps P s (if c then u else v) := by
  split
  · exact hu
  · exact hv

theorem keeps_ite_fst {α : Type} {P : Nat} {s : State} {u v : State × α} {c : Prop} [Decidable c] (hu : Keeps P s u.1)
    (hv : Keeps P s v.1) : Keeps P s (if c then u else v).1 := by
  split
  · exact hu
  · exact hv

theorem keeps_id {P : Nat} {s u : State} (h : Keeps P s u) : Keeps P s (id u) := h

/-- The state of a pair that an operation answers. -/
theorem keeps_pair {α : Type} {P : Nat} {s v : State} {w : State × α} {x : α} (he : w = (v, x)) (h : Keeps P s w.1) :
    Keeps P s v := by
  rw [he] at h
  exact h

theorem keeps_rstAll {F P : Nat} {s u : State} (hF : Fits F P) {ids : List RegId}
    (hb : ids.all (fun id => F.testBit id.ctorIdx) = true) (h : Keeps P s u) {i : Nat} : Keeps P s (u.rstAll ids i) := by
  unfold State.rstAll
  induction ids generalizing u with
  | nil => exact h
  | cons a r ih =>
    rw [List.all_cons, Bool.and_eq_true] at hb
    exact ih hb.2 (keeps_rst hF hb.1 h)

/-! ### Updates of one field of the state -/

theorem keeps_time {F P : Nat} {s u : State} (hF : Fits F P) (hb : F.testBit 300 = true) (h : Keeps P s u) {t : Nat}
    (ht : u.now ≤ t) : Keeps P s { u with now := t } := by
  refine Keeps.one 300 (hF.bit hb) h rfl ht (Nat.le_refl _) (fun h => h) (fun p hp => ?_)
  cases p <;> first | exact absurd rfl hp | exact rfl | exact fun _ _ => rfl | exact ⟨rfl, rfl⟩ | exact ⟨rfl, rfl, rfl, rfl⟩ |
    exact ⟨rfl, rfl, rfl, rfl, rfl⟩ | exact ⟨rfl, rfl, rfl, rfl, rfl, rfl⟩ | exact ⟨rfl, rfl, rfl, rfl, rfl, rfl, rfl, rfl, rfl⟩ | simp_all [Part.same]

theorem keeps_free {F P : Nat} {s u : State} (hF : Fits F P) (hb : F.testBit 301 = true) (h : Keeps P s u) {t : Nat}
    (ht : u.free ≤ t) : Keeps P s { u with free := t } := by
  refine Keeps.one 301 (hF.bit hb) h rfl (Nat.le_refl _) ht (fun h => h) (fun p hp => ?_)
  cases p <;> first | exact absurd rfl hp | exact rfl | exact fun _ _ => rfl | exact ⟨rfl, rfl⟩ | exact ⟨rfl, rfl, rfl, rfl⟩ |
    exact ⟨rfl, rfl, rfl, rfl, rfl⟩ | exact ⟨rfl, rfl, rfl, rfl, rfl, rfl⟩ | exact ⟨rfl, rfl, rfl, rfl, rfl, rfl, rfl, rfl, rfl⟩ | simp_all [Part.same]

theorem keeps_hostMem {F P : Nat} {s u : State} (hF : Fits F P) (hb : F.testBit 302 = true) (h : Keeps P s u) {m : Bank Nat Byte}
    (hm : Memory.wf u.host.mem → Memory.wf m) : Keeps P s { u with host := { u.host with mem := m } } := by
  refine Keeps.one 302 (hF.bit hb) h rfl (Nat.le_refl _) (Nat.le_refl _)
    (fun h => ⟨⟨h.1.1, h.1.2.1, hm h.1.2.2⟩, h.2⟩) (fun p hp => ?_)
  cases p <;> first | exact absurd rfl hp | exact rfl | exact fun _ _ => rfl | exact ⟨rfl, rfl⟩ | exact ⟨rfl, rfl, rfl, rfl⟩ |
    exact ⟨rfl, rfl, rfl, rfl, rfl⟩ | exact ⟨rfl, rfl, rfl, rfl, rfl, rfl⟩ | exact ⟨rfl, rfl, rfl, rfl, rfl, rfl, rfl, rfl, rfl⟩ | simp_all [Part.same]

theorem keeps_msix {F P : Nat} {s u : State} (hF : Fits F P) (hb : F.testBit 303 = true) (h : Keeps P s u) {x : HostPort}
    (h0 : x.mem = u.host.mem) (h1 : x.deliver = u.host.deliver) (h2 : x.bells = u.host.bells) (h3 : x.bar2Out = u.host.bar2Out)
    (h4 : x.reply = u.host.reply) (h5 : x.readSize = u.host.readSize) (h6 : x.readValue = u.host.readValue)
    (h7 : x.perst = u.host.perst) (h8 : x.held = u.host.held) (h9 : x.power = u.host.power) : Keeps P s { u with host := x } := by
  refine Keeps.one 303 (hF.bit hb) h rfl (Nat.le_refl _) (Nat.le_refl _) (fun h => ⟨⟨h.1.1, h.1.2.1, ?_⟩, h.2⟩) (fun p hp => ?_)
  · show Memory.wf x.mem; rw [h0]; exact h.1.2.2
  · cases p <;> first | exact absurd rfl hp | exact rfl | exact fun _ _ => rfl | exact ⟨rfl, rfl⟩ | exact ⟨rfl, rfl, rfl, rfl⟩ |
    exact ⟨rfl, rfl, rfl, rfl, rfl⟩ | exact ⟨rfl, rfl, rfl, rfl, rfl, rfl⟩ | exact ⟨rfl, rfl, rfl, rfl, rfl, rfl, rfl, rfl, rfl⟩ | simp_all [Part.same]

theorem keeps_hostPort {F P : Nat} {s u : State} (hF : Fits F P) (hb : F.testBit 304 = true) (h : Keeps P s u) {x : HostPort}
    (h0 : x.mem = u.host.mem) (h1 : x.msixTable = u.host.msixTable) (h2 : x.msixPending = u.host.msixPending)
    (h3 : x.msixEnable = u.host.msixEnable) (h4 : x.msiSent = u.host.msiSent) : Keeps P s { u with host := x } := by
  refine Keeps.one 304 (hF.bit hb) h rfl (Nat.le_refl _) (Nat.le_refl _) (fun h => ⟨⟨h.1.1, h.1.2.1, ?_⟩, h.2⟩) (fun p hp => ?_)
  · show Memory.wf x.mem; rw [h0]; exact h.1.2.2
  · cases p <;> first | exact absurd rfl hp | exact rfl | exact fun _ _ => rfl | exact ⟨rfl, rfl⟩ | exact ⟨rfl, rfl, rfl, rfl⟩ |
    exact ⟨rfl, rfl, rfl, rfl, rfl⟩ | exact ⟨rfl, rfl, rfl, rfl, rfl, rfl⟩ | exact ⟨rfl, rfl, rfl, rfl, rfl, rfl, rfl, rfl, rfl⟩ | simp_all [Part.same]

theorem keeps_mers {F P : Nat} {s u : State} (hF : Fits F P) (hb : F.testBit 305 = true) (h : Keeps P s u) {x : Bank Nat Meridian} :
    Keeps P s { u with mers := x } := by
  refine Keeps.one 305 (hF.bit hb) h rfl (Nat.le_refl _) (Nat.le_refl _) (fun h => h) (fun p hp => ?_)
  cases p <;> first | exact absurd rfl hp | exact rfl | exact fun _ _ => rfl | exact ⟨rfl, rfl⟩ | exact ⟨rfl, rfl, rfl, rfl⟩ |
    exact ⟨rfl, rfl, rfl, rfl, rfl⟩ | exact ⟨rfl, rfl, rfl, rfl, rfl, rfl⟩ | exact ⟨rfl, rfl, rfl, rfl, rfl, rfl, rfl, rfl, rfl⟩ | simp_all [Part.same]

theorem keeps_ms {F P : Nat} {s u : State} (hF : Fits F P) (hb : F.testBit 306 = true) (h : Keeps P s u) {x : MsSched}
    (hm : u.ms.ok → x.ok) : Keeps P s { u with ms := x } := by
  refine Keeps.one 306 (hF.bit hb) h rfl (Nat.le_refl _) (Nat.le_refl _) (fun h => ⟨h.1, hm h.2.1, h.2.2⟩) (fun p hp => ?_)
  cases p <;> first | exact absurd rfl hp | exact rfl | exact fun _ _ => rfl | exact ⟨rfl, rfl⟩ | exact ⟨rfl, rfl, rfl, rfl⟩ |
    exact ⟨rfl, rfl, rfl, rfl, rfl⟩ | exact ⟨rfl, rfl, rfl, rfl, rfl, rfl⟩ | exact ⟨rfl, rfl, rfl, rfl, rfl, rfl, rfl, rfl, rfl⟩ | simp_all [Part.same]

theorem keeps_depot {F P : Nat} {s u : State} (hF : Fits F P) (hb : F.testBit 307 = true) (h : Keeps P s u) {x : Depot} :
    Keeps P s { u with depot := x } := by
  refine Keeps.one 307 (hF.bit hb) h rfl (Nat.le_refl _) (Nat.le_refl _) (fun h => h) (fun p hp => ?_)
  cases p <;> first | exact absurd rfl hp | exact rfl | exact fun _ _ => rfl | exact ⟨rfl, rfl⟩ | exact ⟨rfl, rfl, rfl, rfl⟩ |
    exact ⟨rfl, rfl, rfl, rfl, rfl⟩ | exact ⟨rfl, rfl, rfl, rfl, rfl, rfl⟩ | exact ⟨rfl, rfl, rfl, rfl, rfl, rfl, rfl, rfl, rfl⟩ | simp_all [Part.same]

theorem keeps_swy {F P : Nat} {s u : State} (hF : Fits F P) (hb : F.testBit 308 = true) (h : Keeps P s u) {x : Switchyard} :
    Keeps P s { u with swy := x } := by
  refine Keeps.one 308 (hF.bit hb) h rfl (Nat.le_refl _) (Nat.le_refl _) (fun h => h) (fun p hp => ?_)
  cases p <;> first | exact absurd rfl hp | exact rfl | exact fun _ _ => rfl | exact ⟨rfl, rfl⟩ | exact ⟨rfl, rfl, rfl, rfl⟩ |
    exact ⟨rfl, rfl, rfl, rfl, rfl⟩ | exact ⟨rfl, rfl, rfl, rfl, rfl, rfl⟩ | exact ⟨rfl, rfl, rfl, rfl, rfl, rfl, rfl, rfl, rfl⟩ | simp_all [Part.same]

theorem nset_mem {ν : Type} [DecidableEq ν] {d : ν} {k : Nat} {v : ν} {b : Bank Nat ν} {e : Nat × ν} (h : e ∈ nset d k v b) :
    e = (k, v) ∨ e ∈ b := by
  unfold nset bankSet at h
  split at h
  · exact Or.inr ((bankDrop_sub k b).subset h)
  · rcases bankPut_mem id k v _ e h with h | h
    · exact Or.inl h
    · exact Or.inr ((bankDrop_sub k b).subset h)

theorem nget_mem {ν : Type} (d : ν) (k : Nat) (b : Bank Nat ν) : nget d k b = d ∨ (k, nget d k b) ∈ b := by
  induction b with
  | nil => exact Or.inl rfl
  | cons e r ih =>
    obtain ⟨a, v⟩ := e
    by_cases h : a = k
    · right; simp [nget, bankGet, h]
    · have h1 : nget d k ((a, v) :: r) = nget d k r := by simp [nget, bankGet, h]
      rw [h1]
      rcases ih with h | h
      · exact Or.inl h
      · exact Or.inr (List.mem_cons_of_mem _ h)

theorem ring_ok {s : State} (h : ringsOk s.helm.rings) (r : Nat) : (s.ring r).window.length ≤ 64 := by
  rcases nget_mem {} r s.helm.rings with h1 | h1
  · rw [State.ring, h1]; simp
  · exact h _ h1

theorem keeps_rings {F P : Nat} {s u : State} (hF : Fits F P) (hb : F.testBit 309 = true) (h : Keeps P s u) {x : Bank Nat Ring}
    (hm : ringsOk u.helm.rings → ringsOk x) : Keeps P s { u with helm := { u.helm with rings := x } } := by
  refine Keeps.one 309 (hF.bit hb) h rfl (Nat.le_refl _) (Nat.le_refl _) (fun h => ⟨h.1, h.2.1, hm h.2.2⟩) (fun p hp => ?_)
  cases p <;> first | exact absurd rfl hp | exact rfl | exact fun _ _ => rfl | exact ⟨rfl, rfl⟩ | exact ⟨rfl, rfl, rfl, rfl⟩ |
    exact ⟨rfl, rfl, rfl, rfl, rfl⟩ | exact ⟨rfl, rfl, rfl, rfl, rfl, rfl⟩ | exact ⟨rfl, rfl, rfl, rfl, rfl, rfl, rfl, rfl, rfl⟩ | simp_all [Part.same]

/-- A ring replaced by one that remembers no more tags than it may. -/
theorem keeps_setRing {F P : Nat} {s u : State} (hF : Fits F P) (hb : F.testBit 309 = true) (h : Keeps P s u) {r : Nat} {x : Ring}
    (hx : (u.ring r).window.length ≤ 64 → x.window.length ≤ 64) : Keeps P s (u.setRing r x) := by
  refine keeps_rings hF hb h (fun hr e he => ?_)
  rcases nset_mem he with h1 | h1
  · rw [h1]; exact hx (ring_ok hr r)
  · exact hr e h1

theorem keeps_counters {F P : Nat} {s u : State} (hF : Fits F P) (hb : F.testBit 310 = true) (h : Keeps P s u) {x : Bank Nat Nat} :
    Keeps P s { u with helm := { u.helm with counters := x } } := by
  refine Keeps.one 310 (hF.bit hb) h rfl (Nat.le_refl _) (Nat.le_refl _) (fun h => h) (fun p hp => ?_)
  cases p <;> first | exact absurd rfl hp | exact rfl | exact fun _ _ => rfl | exact ⟨rfl, rfl⟩ | exact ⟨rfl, rfl, rfl, rfl⟩ |
    exact ⟨rfl, rfl, rfl, rfl, rfl⟩ | exact ⟨rfl, rfl, rfl, rfl, rfl, rfl⟩ | exact ⟨rfl, rfl, rfl, rfl, rfl, rfl, rfl, rfl, rfl⟩ | simp_all [Part.same]

theorem keeps_helm {F P : Nat} {s u : State} (hF : Fits F P) (hb : F.testBit 311 = true) (h : Keeps P s u) {x : Helm}
    (h0 : x.rings = u.helm.rings) (h1 : x.counters = u.helm.counters) : Keeps P s { u with helm := x } := by
  refine Keeps.one 311 (hF.bit hb) h rfl (Nat.le_refl _) (Nat.le_refl _) (fun h => ⟨h.1, h.2.1, ?_⟩) (fun p hp => ?_)
  · show ringsOk x.rings; rw [h0]; exact h.2.2
  · cases p <;> first | exact absurd rfl hp | exact rfl | exact fun _ _ => rfl | exact ⟨rfl, rfl⟩ | exact ⟨rfl, rfl, rfl, rfl⟩ |
    exact ⟨rfl, rfl, rfl, rfl, rfl⟩ | exact ⟨rfl, rfl, rfl, rfl, rfl, rfl⟩ | exact ⟨rfl, rfl, rfl, rfl, rfl, rfl, rfl, rfl, rfl⟩ | simp_all [Part.same]

theorem keeps_pins {F P : Nat} {s u : State} (hF : Fits F P) (hb : F.testBit 312 = true) (h : Keeps P s u) {x : Bank Nat Pin} :
    Keeps P s { u with pins := x } := by
  refine Keeps.one 312 (hF.bit hb) h rfl (Nat.le_refl _) (Nat.le_refl _) (fun h => h) (fun p hp => ?_)
  cases p <;> first | exact absurd rfl hp | exact rfl | exact fun _ _ => rfl | exact ⟨rfl, rfl⟩ | exact ⟨rfl, rfl, rfl, rfl⟩ |
    exact ⟨rfl, rfl, rfl, rfl, rfl⟩ | exact ⟨rfl, rfl, rfl, rfl, rfl, rfl⟩ | exact ⟨rfl, rfl, rfl, rfl, rfl, rfl, rfl, rfl, rfl⟩ | simp_all [Part.same]

theorem keeps_alm {F P : Nat} {s u : State} (hF : Fits F P) (hb : F.testBit 313 = true) (h : Keeps P s u) {x : Almanac} :
    Keeps P s { u with alm := x } := by
  refine Keeps.one 313 (hF.bit hb) h rfl (Nat.le_refl _) (Nat.le_refl _) (fun h => h) (fun p hp => ?_)
  cases p <;> first | exact absurd rfl hp | exact rfl | exact fun _ _ => rfl | exact ⟨rfl, rfl⟩ | exact ⟨rfl, rfl, rfl, rfl⟩ |
    exact ⟨rfl, rfl, rfl, rfl, rfl⟩ | exact ⟨rfl, rfl, rfl, rfl, rfl, rfl⟩ | exact ⟨rfl, rfl, rfl, rfl, rfl, rfl, rfl, rfl, rfl⟩ | simp_all [Part.same]

theorem keeps_clusters {F P : Nat} {s u : State} (hF : Fits F P) (hb : F.testBit 314 = true) (h : Keeps P s u)
    {x : Bank Nat Cluster} : Keeps P s { u with clusters := x } := by
  refine Keeps.one 314 (hF.bit hb) h rfl (Nat.le_refl _) (Nat.le_refl _) (fun h => h) (fun p hp => ?_)
  cases p <;> first | exact absurd rfl hp | exact rfl | exact fun _ _ => rfl | exact ⟨rfl, rfl⟩ | exact ⟨rfl, rfl, rfl, rfl⟩ |
    exact ⟨rfl, rfl, rfl, rfl, rfl⟩ | exact ⟨rfl, rfl, rfl, rfl, rfl, rfl⟩ | exact ⟨rfl, rfl, rfl, rfl, rfl, rfl, rfl, rfl, rfl⟩ | simp_all [Part.same]

theorem keeps_pilots {F P : Nat} {s u : State} (hF : Fits F P) (hb : F.testBit 315 = true) (h : Keeps P s u)
    {x : Bank Nat Pilot} : Keeps P s { u with pilots := x } := by
  refine Keeps.one 315 (hF.bit hb) h rfl (Nat.le_refl _) (Nat.le_refl _) (fun h => h) (fun p hp => ?_)
  cases p <;> first | exact absurd rfl hp | exact rfl | exact fun _ _ => rfl | exact ⟨rfl, rfl⟩ | exact ⟨rfl, rfl, rfl, rfl⟩ |
    exact ⟨rfl, rfl, rfl, rfl, rfl⟩ | exact ⟨rfl, rfl, rfl, rfl, rfl, rfl⟩ | exact ⟨rfl, rfl, rfl, rfl, rfl, rfl, rfl, rfl, rfl⟩ | simp_all [Part.same]

theorem keeps_jobs {F P : Nat} {s u : State} (hF : Fits F P) (hb : F.testBit 316 = true) (h : Keeps P s u) {x : Bank Nat Job} :
    Keeps P s { u with jobs := x } := by
  refine Keeps.one 316 (hF.bit hb) h rfl (Nat.le_refl _) (Nat.le_refl _) (fun h => h) (fun p hp => ?_)
  cases p <;> first | exact absurd rfl hp | exact rfl | exact fun _ _ => rfl | exact ⟨rfl, rfl⟩ | exact ⟨rfl, rfl, rfl, rfl⟩ |
    exact ⟨rfl, rfl, rfl, rfl, rfl⟩ | exact ⟨rfl, rfl, rfl, rfl, rfl, rfl⟩ | exact ⟨rfl, rfl, rfl, rfl, rfl, rfl, rfl, rfl, rfl⟩ | simp_all [Part.same]

theorem keeps_hbmMem {F P : Nat} {s u : State} (hF : Fits F P) (hb : F.testBit 317 = true) (h : Keeps P s u) {m : Bank Nat Byte}
    (hm : Memory.wf u.hbm.mem → Memory.wf m) : Keeps P s { u with hbm := { u.hbm with mem := m } } := by
  refine Keeps.one 317 (hF.bit hb) h rfl (Nat.le_refl _) (Nat.le_refl _)
    (fun h => ⟨⟨hm h.1.1, h.1.2⟩, h.2⟩) (fun p hp => ?_)
  cases p <;> first | exact absurd rfl hp | exact rfl | exact fun _ _ => rfl | exact ⟨rfl, rfl⟩ | exact ⟨rfl, rfl, rfl, rfl⟩ |
    exact ⟨rfl, rfl, rfl, rfl, rfl⟩ | exact ⟨rfl, rfl, rfl, rfl, rfl, rfl⟩ | exact ⟨rfl, rfl, rfl, rfl, rfl, rfl, rfl, rfl, rfl⟩ | simp_all [Part.same]

theorem keeps_marks {F P : Nat} {s u : State} (hF : Fits F P) (hb : F.testBit 317 = true) (h : Keeps P s u)
    {m : Bank Nat BeatMark} (hm : bankWf id (fun _ => BeatMark.clean) u.hbm.marks → bankWf id (fun _ => BeatMark.clean) m) :
    Keeps P s { u with hbm := { u.hbm with marks := m } } := by
  refine Keeps.one 317 (hF.bit hb) h rfl (Nat.le_refl _) (Nat.le_refl _)
    (fun h => ⟨⟨h.1.1, hm h.1.2.1, h.1.2.2⟩, h.2⟩) (fun p hp => ?_)
  cases p <;> first | exact absurd rfl hp | exact rfl | exact fun _ _ => rfl | exact ⟨rfl, rfl⟩ | exact ⟨rfl, rfl, rfl, rfl⟩ |
    exact ⟨rfl, rfl, rfl, rfl, rfl⟩ | exact ⟨rfl, rfl, rfl, rfl, rfl, rfl⟩ | exact ⟨rfl, rfl, rfl, rfl, rfl, rfl, rfl, rfl, rfl⟩ | simp_all [Part.same]

theorem keeps_hbm {F P : Nat} {s u : State} (hF : Fits F P) (hb : F.testBit 318 = true) (h : Keeps P s u) {x : Hbm}
    (h0 : x.mem = u.hbm.mem) (h1 : x.marks = u.hbm.marks) : Keeps P s { u with hbm := x } := by
  refine Keeps.one 318 (hF.bit hb) h rfl (Nat.le_refl _) (Nat.le_refl _) (fun h => ⟨⟨?_, ?_, h.1.2.2⟩, h.2⟩) (fun p hp => ?_)
  · show Memory.wf x.mem; rw [h0]; exact h.1.1
  · show bankWf id (fun _ => BeatMark.clean) x.marks; rw [h1]; exact h.1.2.1
  · cases p <;> first | exact absurd rfl hp | exact rfl | exact fun _ _ => rfl | exact ⟨rfl, rfl⟩ | exact ⟨rfl, rfl, rfl, rfl⟩ |
    exact ⟨rfl, rfl, rfl, rfl, rfl⟩ | exact ⟨rfl, rfl, rfl, rfl, rfl, rfl⟩ | exact ⟨rfl, rfl, rfl, rfl, rfl, rfl, rfl, rfl, rfl⟩ | simp_all [Part.same]

theorem keeps_chart {F P : Nat} {s u : State} (hF : Fits F P) (hb : F.testBit 319 = true) (h : Keeps P s u) {x : Chart} :
    Keeps P s { u with chart := x } := by
  refine Keeps.one 319 (hF.bit hb) h rfl (Nat.le_refl _) (Nat.le_refl _) (fun h => h) (fun p hp => ?_)
  cases p <;> first | exact absurd rfl hp | exact rfl | exact fun _ _ => rfl | exact ⟨rfl, rfl⟩ | exact ⟨rfl, rfl, rfl, rfl⟩ |
    exact ⟨rfl, rfl, rfl, rfl, rfl⟩ | exact ⟨rfl, rfl, rfl, rfl, rfl, rfl⟩ | exact ⟨rfl, rfl, rfl, rfl, rfl, rfl, rfl, rfl, rfl⟩ | simp_all [Part.same]

theorem keeps_dma {F P : Nat} {s u : State} (hF : Fits F P) (hb : F.testBit 320 = true) (h : Keeps P s u) {x : DmaEngine} :
    Keeps P s { u with dma := x } := by
  refine Keeps.one 320 (hF.bit hb) h rfl (Nat.le_refl _) (Nat.le_refl _) (fun h => h) (fun p hp => ?_)
  cases p <;> first | exact absurd rfl hp | exact rfl | exact fun _ _ => rfl | exact ⟨rfl, rfl⟩ | exact ⟨rfl, rfl, rfl, rfl⟩ |
    exact ⟨rfl, rfl, rfl, rfl, rfl⟩ | exact ⟨rfl, rfl, rfl, rfl, rfl, rfl⟩ | exact ⟨rfl, rfl, rfl, rfl, rfl, rfl, rfl, rfl, rfl⟩ | simp_all [Part.same]

theorem keeps_sxt {F P : Nat} {s u : State} (hF : Fits F P) (hb : F.testBit 321 = true) (h : Keeps P s u) {x : Sextant} :
    Keeps P s { u with sxt := x } := by
  refine Keeps.one 321 (hF.bit hb) h rfl (Nat.le_refl _) (Nat.le_refl _) (fun h => h) (fun p hp => ?_)
  cases p <;> first | exact absurd rfl hp | exact rfl | exact fun _ _ => rfl | exact ⟨rfl, rfl⟩ | exact ⟨rfl, rfl, rfl, rfl⟩ |
    exact ⟨rfl, rfl, rfl, rfl, rfl⟩ | exact ⟨rfl, rfl, rfl, rfl, rfl, rfl⟩ | exact ⟨rfl, rfl, rfl, rfl, rfl, rfl, rfl, rfl, rfl⟩ | simp_all [Part.same]

theorem keeps_dds {F P : Nat} {s u : State} (hF : Fits F P) (hb : F.testBit 322 = true) (h : Keeps P s u) {x : DdsBank} :
    Keeps P s { u with dds := x } := by
  refine Keeps.one 322 (hF.bit hb) h rfl (Nat.le_refl _) (Nat.le_refl _) (fun h => h) (fun p hp => ?_)
  cases p <;> first | exact absurd rfl hp | exact rfl | exact fun _ _ => rfl | exact ⟨rfl, rfl⟩ | exact ⟨rfl, rfl, rfl, rfl⟩ |
    exact ⟨rfl, rfl, rfl, rfl, rfl⟩ | exact ⟨rfl, rfl, rfl, rfl, rfl, rfl⟩ | exact ⟨rfl, rfl, rfl, rfl, rfl, rfl, rfl, rfl, rfl⟩ | simp_all [Part.same]

theorem keeps_adc {F P : Nat} {s u : State} (hF : Fits F P) (hb : F.testBit 323 = true) (h : Keeps P s u) {x : Adc} :
    Keeps P s { u with adc := x } := by
  refine Keeps.one 323 (hF.bit hb) h rfl (Nat.le_refl _) (Nat.le_refl _) (fun h => h) (fun p hp => ?_)
  cases p <;> first | exact absurd rfl hp | exact rfl | exact fun _ _ => rfl | exact ⟨rfl, rfl⟩ | exact ⟨rfl, rfl, rfl, rfl⟩ |
    exact ⟨rfl, rfl, rfl, rfl, rfl⟩ | exact ⟨rfl, rfl, rfl, rfl, rfl, rfl⟩ | exact ⟨rfl, rfl, rfl, rfl, rfl, rfl, rfl, rfl, rfl⟩ | simp_all [Part.same]

theorem keeps_acq {F P : Nat} {s u : State} (hF : Fits F P) (hb : F.testBit 324 = true) (h : Keeps P s u) {x : Bank Nat AcqUnit} :
    Keeps P s { u with acq := x } := by
  refine Keeps.one 324 (hF.bit hb) h rfl (Nat.le_refl _) (Nat.le_refl _) (fun h => h) (fun p hp => ?_)
  cases p <;> first | exact absurd rfl hp | exact rfl | exact fun _ _ => rfl | exact ⟨rfl, rfl⟩ | exact ⟨rfl, rfl, rfl, rfl⟩ |
    exact ⟨rfl, rfl, rfl, rfl, rfl⟩ | exact ⟨rfl, rfl, rfl, rfl, rfl, rfl⟩ | exact ⟨rfl, rfl, rfl, rfl, rfl, rfl, rfl, rfl, rfl⟩ | simp_all [Part.same]

theorem keeps_wln {F P : Nat} {s u : State} (hF : Fits F P) (hb : F.testBit 325 = true) (h : Keeps P s u) {x : Wln} :
    Keeps P s { u with wln := x } := by
  refine Keeps.one 325 (hF.bit hb) h rfl (Nat.le_refl _) (Nat.le_refl _) (fun h => h) (fun p hp => ?_)
  cases p <;> first | exact absurd rfl hp | exact rfl | exact fun _ _ => rfl | exact ⟨rfl, rfl⟩ | exact ⟨rfl, rfl, rfl, rfl⟩ |
    exact ⟨rfl, rfl, rfl, rfl, rfl⟩ | exact ⟨rfl, rfl, rfl, rfl, rfl, rfl⟩ | exact ⟨rfl, rfl, rfl, rfl, rfl, rfl, rfl, rfl, rfl⟩ | simp_all [Part.same]

theorem keeps_eth {F P : Nat} {s u : State} (hF : Fits F P) (hb : F.testBit 326 = true) (h : Keeps P s u) {x : Eth} :
    Keeps P s { u with eth := x } := by
  refine Keeps.one 326 (hF.bit hb) h rfl (Nat.le_refl _) (Nat.le_refl _) (fun h => h) (fun p hp => ?_)
  cases p <;> first | exact absurd rfl hp | exact rfl | exact fun _ _ => rfl | exact ⟨rfl, rfl⟩ | exact ⟨rfl, rfl, rfl, rfl⟩ |
    exact ⟨rfl, rfl, rfl, rfl, rfl⟩ | exact ⟨rfl, rfl, rfl, rfl, rfl, rfl⟩ | exact ⟨rfl, rfl, rfl, rfl, rfl, rfl, rfl, rfl, rfl⟩ | simp_all [Part.same]

theorem keeps_bnc {F P : Nat} {s u : State} (hF : Fits F P) (hb : F.testBit 327 = true) (h : Keeps P s u) {x : Bnc} :
    Keeps P s { u with bnc := x } := by
  refine Keeps.one 327 (hF.bit hb) h rfl (Nat.le_refl _) (Nat.le_refl _) (fun h => h) (fun p hp => ?_)
  cases p <;> first | exact absurd rfl hp | exact rfl | exact fun _ _ => rfl | exact ⟨rfl, rfl⟩ | exact ⟨rfl, rfl, rfl, rfl⟩ |
    exact ⟨rfl, rfl, rfl, rfl, rfl⟩ | exact ⟨rfl, rfl, rfl, rfl, rfl, rfl⟩ | exact ⟨rfl, rfl, rfl, rfl, rfl, rfl, rfl, rfl, rfl⟩ | simp_all [Part.same]

end Sys2Proof.Machine
end

