-- ==== Sys2Proof/Laws/KeepsOps.lean ====
section
/-! SUPPORT. What each operation of Machine/Ops.lean may change, and that it keeps the invariant: one law for each. -/

set_option linter.unreachableTactic false
set_option linter.unusedTactic false

namespace Sys2Proof.Machine

theorem keeps_fresh {P : Nat} {s u : State} (hP : Fits 0x2000000000000000000000000000000000000000000000000000000000000000000000000000 P) (h : Keeps P s u) :
    Keeps P s (State.fresh u).1 := by
  unfold State.fresh
  repeat' (first
    | with_reducible exact h
    | with_reducible assumption
    | dsimp -zeta only
    | intro _
    | with_reducible refine keeps_ite ?_ ?_
    | with_reducible refine keeps_ite_fst ?_ ?_
    | with_reducible refine keeps_pair (by assumption) ?_
    | split
    | fail_if_no_progress extract_lets
    | fail_if_no_progress with_reducible refine keeps_free hP rfl ?_ (by simp)
    | dsimp +zetaDelta only)

theorem keeps_fresh_eq {P : Nat} {s u v : State} {x} (he : State.fresh u = (v, x)) (hP : Fits 0x2000000000000000000000000000000000000000000000000000000000000000000000000000 P)
    (h : Keeps P s u) : Keeps P s v := by
  have h1 := keeps_fresh hP h
  rw [he] at h1
  exact h1

theorem keeps_freshWide {P : Nat} {s u : State} {a1} (hP : Fits 0x2000000000000000000000000000000000000000000000000000000000000000000000000000 P) (h : Keeps P s u) :
    Keeps P s (State.freshWide u a1).1 := by
  induction a1 generalizing u with
  | zero =>
    unfold State.freshWide
    repeat' (first
      | with_reducible exact h
      | with_reducible assumption
      | dsimp -zeta only
      | with_reducible refine keeps_fresh (hP.sub rfl) ?_
      | with_reducible refine keeps_fresh_eq (by assumption) (hP.sub rfl) ?_
      | intro _
      | with_reducible refine keeps_ite ?_ ?_
      | with_reducible refine keeps_ite_fst ?_ ?_
      | with_reducible refine keeps_pair (by assumption) ?_
      | split
      | fail_if_no_progress extract_lets
      | dsimp +zetaDelta only)
  | succ n ih =>
    unfold State.freshWide
    repeat' (first
      | with_reducible exact h
      | with_reducible assumption
      | dsimp -zeta only
      | with_reducible apply ih
      | with_reducible refine keeps_pair (w := State.freshWide _ _) (by assumption) ?_
      | with_reducible refine keeps_fresh (hP.sub rfl) ?_
      | with_reducible refine keeps_fresh_eq (by assumption) (hP.sub rfl) ?_
      | intro _
      | with_reducible refine keeps_ite ?_ ?_
      | with_reducible refine keeps_ite_fst ?_ ?_
      | with_reducible refine keeps_pair (by assumption) ?_
      | split
      | fail_if_no_progress extract_lets
      | dsimp +zetaDelta only)

theorem keeps_freshWide_eq {P : Nat} {s u v : State} {a1} {x} (he : State.freshWide u a1 = (v, x)) (hP : Fits 0x2000000000000000000000000000000000000000000000000000000000000000000000000000 P)
    (h : Keeps P s u) : Keeps P s v := by
  have h1 := keeps_freshWide (a1 := a1) hP h
  rw [he] at h1
  exact h1

theorem keeps_advance {P : Nat} {s u : State} {a1} (hP : Fits 0x1000000000000000000000000000000000000000000000000000000000000000000000000000 P) (h : Keeps P s u) :
    Keeps P s (State.advance u a1) := by
  unfold State.advance
  repeat' (first
    | with_reducible exact h
    | with_reducible assumption
    | dsimp -zeta only
    | intro _
    | with_reducible refine keeps_ite ?_ ?_
    | with_reducible refine keeps_ite_fst ?_ ?_
    | with_reducible refine keeps_pair (by assumption) ?_
    | split
    | fail_if_no_progress extract_lets
    | fail_if_no_progress with_reducible refine keeps_time hP rfl ?_ (by simp)
    | dsimp +zetaDelta only)

theorem keeps_setMer {P : Nat} {s u : State} {a1 a2} (hP : Fits 0x20000000000000000000000000000000000000000000000000000000000000000000000000000 P) (h : Keeps P s u) :
    Keeps P s (State.setMer u a1 a2) := by
  unfold State.setMer
  repeat' (first
    | with_reducible exact h
    | with_reducible assumption
    | dsimp -zeta only
    | intro _
    | with_reducible refine keeps_ite ?_ ?_
    | with_reducible refine keeps_ite_fst ?_ ?_
    | with_reducible refine keeps_pair (by assumption) ?_
    | split
    | fail_if_no_progress extract_lets
    | fail_if_no_progress with_reducible refine keeps_mers hP rfl ?_
    | dsimp +zetaDelta only)

theorem keeps_msixSend {P : Nat} {s u : State} {a1} (hP : Fits 0x8000000000000000000000000000000000000000000000000000000000000000000000000000 P) (h : Keeps P s u) :
    Keeps P s (State.msixSend u a1) := by
  unfold State.msixSend
  repeat' (first
    | with_reducible exact h
    | with_reducible assumption
    | dsimp -zeta only
    | intro _
    | with_reducible refine keeps_ite ?_ ?_
    | with_reducible refine keeps_ite_fst ?_ ?_
    | with_reducible refine keeps_pair (by assumption) ?_
    | split
    | fail_if_no_progress extract_lets
    | fail_if_no_progress with_reducible refine keeps_hostPort hP rfl ?_ rfl rfl rfl rfl rfl
    | fail_if_no_progress with_reducible refine keeps_msix hP rfl ?_ rfl rfl rfl rfl rfl rfl rfl rfl rfl rfl
    | dsimp +zetaDelta only)

theorem keeps_signal {P : Nat} {s u : State} {a1} (hP : Fits 0x8000000000000000000000000000000000000000000000000000000000000000000000000000 P) (h : Keeps P s u) :
    Keeps P s (State.signal u a1) := by
  unfold State.signal
  repeat' (first
    | with_reducible exact h
    | with_reducible assumption
    | dsimp -zeta only
    | with_reducible refine keeps_msixSend (hP.sub rfl) ?_
    | intro _
    | with_reducible refine keeps_ite ?_ ?_
    | with_reducible refine keeps_ite_fst ?_ ?_
    | with_reducible refine keeps_pair (by assumption) ?_
    | split
    | fail_if_no_progress extract_lets
    | fail_if_no_progress with_reducible refine keeps_hostPort hP rfl ?_ rfl rfl rfl rfl rfl
    | fail_if_no_progress with_reducible refine keeps_msix hP rfl ?_ rfl rfl rfl rfl rfl rfl rfl rfl rfl rfl
    | dsimp +zetaDelta only)

theorem keeps_devIrq {P : Nat} {s u : State} (hP : Fits 0x8000000000000000000000000000000000000000000000000000000000000000000000000000 P) (h : Keeps P s u) :
    Keeps P s (State.devIrq u) := by
  unfold State.devIrq
  repeat' (first
    | with_reducible exact h
    | with_reducible assumption
    | dsimp -zeta only
    | with_reducible refine keeps_signal (hP.sub rfl) ?_
    | intro _
    | with_reducible refine keeps_ite ?_ ?_
    | with_reducible refine keeps_ite_fst ?_ ?_
    | with_reducible refine keeps_pair (by assumption) ?_
    | split
    | fail_if_no_progress extract_lets
    | dsimp +zetaDelta only)

theorem keeps_countFix {P : Nat} {s u : State} {a1 a2} (hP : Fits 0x400000000000000000000000000000000000000000000000000000000000000000000000000000 P) (h : Keeps P s u) :
    Keeps P s (State.countFix u a1 a2) := by
  unfold State.countFix
  repeat' (first
    | with_reducible exact h
    | with_reducible assumption
    | dsimp -zeta only
    | intro _
    | with_reducible refine keeps_ite ?_ ?_
    | with_reducible refine keeps_ite_fst ?_ ?_
    | with_reducible refine keeps_pair (by assumption) ?_
    | split
    | fail_if_no_progress extract_lets
    | fail_if_no_progress with_reducible refine keeps_counters hP rfl ?_
    | dsimp +zetaDelta only)

theorem keeps_rtWriteDrop {P : Nat} {s u : State} (hP : Fits 0x408000000000000004000000000000000000000000000000000000000000000000000000000000 P) (h : Keeps P s u) :
    Keeps P s (State.rtWriteDrop u) := by
  unfold State.rtWriteDrop
  repeat' (first
    | with_reducible exact h
    | with_reducible assumption
    | dsimp -zeta only
    | with_reducible refine keeps_countFix (hP.sub rfl) ?_
    | with_reducible refine keeps_devIrq (hP.sub rfl) ?_
    | with_reducible refine keeps_fput hP rfl ?_
    | intro _
    | with_reducible refine keeps_ite ?_ ?_
    | with_reducible refine keeps_ite_fst ?_ ?_
    | with_reducible refine keeps_pair (by assumption) ?_
    | split
    | fail_if_no_progress extract_lets
    | dsimp +zetaDelta only)

theorem keeps_accessErr {P : Nat} {s u : State} (hP : Fits 0x8000000000000084000000000000000000000000000000000000000000000000000000000000 P) (h : Keeps P s u) :
    Keeps P s (State.accessErr u) := by
  unfold State.accessErr
  repeat' (first
    | with_reducible exact h
    | with_reducible assumption
    | dsimp -zeta only
    | with_reducible refine keeps_devIrq (hP.sub rfl) ?_
    | with_reducible refine keeps_fput hP rfl ?_
    | with_reducible refine keeps_bump hP rfl ?_
    | intro _
    | with_reducible refine keeps_ite ?_ ?_
    | with_reducible refine keeps_ite_fst ?_ ?_
    | with_reducible refine keeps_pair (by assumption) ?_
    | split
    | fail_if_no_progress extract_lets
    | dsimp +zetaDelta only)

theorem keeps_setPowered {P : Nat} {s u : State} {a1 a2} (hP : Fits 0x400000000000000000000000000000000000000000000000000000000000000000 P) (h : Keeps P s u) :
    Keeps P s (State.setPowered u a1 a2) := by
  unfold State.setPowered
  repeat' (first
    | with_reducible exact h
    | with_reducible assumption
    | dsimp -zeta only
    | with_reducible refine keeps_fput hP rfl ?_
    | intro _
    | with_reducible refine keeps_ite ?_ ?_
    | with_reducible refine keeps_ite_fst ?_ ?_
    | with_reducible refine keeps_pair (by assumption) ?_
    | split
    | fail_if_no_progress extract_lets
    | dsimp +zetaDelta only)

theorem keeps_logPut {P : Nat} {s u : State} {a1} (hP : Fits 0x8000000000000000300000000000000000000000000000000000000000000000000000000000000000 P) (h : Keeps P s u) :
    Keeps P s (State.logPut u a1) := by
  unfold State.logPut
  repeat' (first
    | with_reducible exact h
    | with_reducible assumption
    | dsimp -zeta only
    | with_reducible refine keeps_wr hP rfl ?_
    | with_reducible refine keeps_fput hP rfl ?_
    | with_reducible refine keeps_bump hP rfl ?_
    | intro _
    | with_reducible refine keeps_ite ?_ ?_
    | with_reducible refine keeps_ite_fst ?_ ?_
    | with_reducible refine keeps_pair (by assumption) ?_
    | split
    | fail_if_no_progress extract_lets
    | fail_if_no_progress with_reducible refine keeps_bnc hP rfl ?_
    | dsimp +zetaDelta only)

theorem keeps_logWrite {P : Nat} {s u : State} {a1 a2 a3 a4} (hP : Fits 0x8000000000000000300000000000000000000000000000000000000000000000000000000000000000 P) (h : Keeps P s u) :
    Keeps P s (State.logWrite u a1 a2 a3 a4) := by
  unfold State.logWrite
  repeat' (first
    | with_reducible exact h
    | with_reducible assumption
    | dsimp -zeta only
    | with_reducible refine keeps_logPut (hP.sub rfl) ?_
    | with_reducible refine keeps_bump hP rfl ?_
    | intro _
    | with_reducible refine keeps_ite ?_ ?_
    | with_reducible refine keeps_ite_fst ?_ ?_
    | with_reducible refine keeps_pair (by assumption) ?_
    | split
    | fail_if_no_progress extract_lets
    | fail_if_no_progress with_reducible refine keeps_bnc hP rfl ?_
    | dsimp +zetaDelta only)

end Sys2Proof.Machine
end

