-- ==== Sys2Proof/Laws/KeepsTasks.lean ====
section
/-! SUPPORT. What each operation of Machine/Tasks.lean may change, and that it keeps the invariant: one law for each. -/

set_option linter.unreachableTactic false
set_option linter.unusedTactic false

namespace Sys2Proof.Machine

theorem keeps_setTask {P : Nat} {s u : State} {a1 a2} (hP : Fits 0x100000000000000000000000000000000000000000000000000000000000000000000000000000 P) (h : Keeps P s u) :
    Keeps P s (State.setTask u a1 a2) := by
  unfold State.setTask
  repeat' (first
    | with_reducible exact h
    | with_reducible assumption
    | dsimp -zeta only
    | intro _
    | with_reducible refine keeps_ite ?_ ?_
    | with_reducible refine keeps_ite_fst ?_ ?_
    | with_reducible refine keeps_pair (by assumption) ?_
    | split
    | fail_if_no_progress extract_lets
    | fail_if_no_progress with_reducible refine keeps_swy hP rfl ?_
    | dsimp +zetaDelta only)

theorem keeps_setHart {P : Nat} {s u : State} {a1 a2} (hP : Fits 0x100000000000000000000000000000000000000000000000000000000000000000000000000000 P) (h : Keeps P s u) :
    Keeps P s (State.setHart u a1 a2) := by
  unfold State.setHart
  repeat' (first
    | with_reducible exact h
    | with_reducible assumption
    | dsimp -zeta only
    | intro _
    | with_reducible refine keeps_ite ?_ ?_
    | with_reducible refine keeps_ite_fst ?_ ?_
    | with_reducible refine keeps_pair (by assumption) ?_
    | split
    | fail_if_no_progress extract_lets
    | fail_if_no_progress with_reducible refine keeps_swy hP rfl ?_
    | dsimp +zetaDelta only)

theorem keeps_dispatchFor {P : Nat} {s u : State} {a1} (hP : Fits 0x100000000000000000000000000000000000000000000000000000000000000000000000000000 P) (h : Keeps P s u) :
    Keeps P s (State.dispatchFor u a1) := by
  unfold State.dispatchFor
  repeat' (first
    | with_reducible exact h
    | with_reducible assumption
    | dsimp -zeta only
    | with_reducible refine keeps_setHart (hP.sub rfl) ?_
    | intro _
    | with_reducible refine keeps_ite ?_ ?_
    | with_reducible refine keeps_ite_fst ?_ ?_
    | with_reducible refine keeps_pair (by assumption) ?_
    | split
    | fail_if_no_progress extract_lets
    | dsimp +zetaDelta only)

theorem keeps_makeReady {P : Nat} {s u : State} {a1} (hP : Fits 0x100000000000000000000000000000000000000000000000000000000000000000000000000000 P) (h : Keeps P s u) :
    Keeps P s (State.makeReady u a1) := by
  unfold State.makeReady
  repeat' (first
    | with_reducible exact h
    | with_reducible assumption
    | dsimp -zeta only
    | with_reducible refine keeps_dispatchFor (hP.sub rfl) ?_
    | with_reducible refine keeps_setTask (hP.sub rfl) ?_
    | intro _
    | with_reducible refine keeps_ite ?_ ?_
    | with_reducible refine keeps_ite_fst ?_ ?_
    | with_reducible refine keeps_pair (by assumption) ?_
    | split
    | fail_if_no_progress extract_lets
    | fail_if_no_progress with_reducible refine keeps_swy hP rfl ?_
    | dsimp +zetaDelta only)

theorem keeps_wakeIfHolds {P : Nat} {s u : State} {a1} (hP : Fits 0x100000000000000000000000000000000000000000000000000000000000000000000000000000 P) (h : Keeps P s u) :
    Keeps P s (State.wakeIfHolds u a1) := by
  unfold State.wakeIfHolds
  repeat' (first
    | with_reducible exact h
    | with_reducible assumption
    | dsimp -zeta only
    | with_reducible refine keeps_makeReady (hP.sub rfl) ?_
    | with_reducible refine keeps_setTask (hP.sub rfl) ?_
    | intro _
    | with_reducible refine keeps_ite ?_ ?_
    | with_reducible refine keeps_ite_fst ?_ ?_
    | with_reducible refine keeps_pair (by assumption) ?_
    | split
    | fail_if_no_progress extract_lets
    | dsimp +zetaDelta only)

theorem keeps_setFlags {P : Nat} {s u : State} {a1 a2} (hP : Fits 0x100000000000000000000000000000000000000000000000000000000000000000000000000000 P) (h : Keeps P s u) :
    Keeps P s (State.setFlags u a1 a2) := by
  unfold State.setFlags
  repeat' (first
    | with_reducible exact h
    | with_reducible assumption
    | dsimp -zeta only
    | with_reducible refine keeps_wakeIfHolds (hP.sub rfl) ?_
    | with_reducible refine keeps_setTask (hP.sub rfl) ?_
    | intro _
    | with_reducible refine keeps_ite ?_ ?_
    | with_reducible refine keeps_ite_fst ?_ ?_
    | with_reducible refine keeps_pair (by assumption) ?_
    | split
    | fail_if_no_progress extract_lets
    | dsimp +zetaDelta only)

theorem keeps_releaseTask {P : Nat} {s u : State} {a1 a2} (hP : Fits 0x100000000000000000000000000000000000000000000000000000000000000000000000000000 P) (h : Keeps P s u) :
    Keeps P s (State.releaseTask u a1 a2) := by
  unfold State.releaseTask
  repeat' (first
    | with_reducible exact h
    | with_reducible assumption
    | dsimp -zeta only
    | with_reducible refine keeps_makeReady (hP.sub rfl) ?_
    | with_reducible refine keeps_setTask (hP.sub rfl) ?_
    | intro _
    | with_reducible refine keeps_ite ?_ ?_
    | with_reducible refine keeps_ite_fst ?_ ?_
    | with_reducible refine keeps_pair (by assumption) ?_
    | split
    | fail_if_no_progress extract_lets
    | dsimp +zetaDelta only)

end Sys2Proof.Machine
end

