-- ==== Sys2Proof/Laws/KeepsWaylineLink.lean ====
section
/-! SUPPORT. What each operation of Machine/WaylineLink.lean may change, and that it keeps the invariant: one law for each. -/

set_option linter.unreachableTactic false
set_option linter.unusedTactic false

namespace Sys2Proof.Machine

theorem keeps_setWport {P : Nat} {s u : State} {a1 a2} (hP : Fits 0x2000000000000000000000000000000000000000000000000000000000000000000000000000000000 P) (h : Keeps P s u) :
    Keeps P s (State.setWport u a1 a2) := by
  unfold State.setWport
  repeat' (first
    | with_reducible exact h
    | with_reducible assumption
    | dsimp -zeta only
    | intro _
    | with_reducible refine keeps_ite ?_ ?_
    | with_reducible refine keeps_ite_fst ?_ ?_
    | with_reducible refine keeps_pair (by assumption) ?_
    | split
    | fail_if_no_progress extract_lets
    | fail_if_no_progress with_reducible refine keeps_wln hP rfl ?_
    | dsimp +zetaDelta only)

theorem keeps_setWstate {P : Nat} {s u : State} {a1 a2} (hP : Fits 0x20040000000000000000000000000000000000000000000000000000000 P) (h : Keeps P s u) :
    Keeps P s (State.setWstate u a1 a2) := by
  unfold State.setWstate
  repeat' (first
    | with_reducible exact h
    | with_reducible assumption
    | dsimp -zeta only
    | with_reducible refine keeps_fput hP rfl ?_
    | intro _
    | with_reducible refine keeps_ite ?_ ?_
    | with_reducible refine keeps_ite_fst ?_ ?_
    | with_reducible refine keeps_pair (by assumption) ?_
    | split
    | fail_if_no_progress extract_lets
    | dsimp +zetaDelta only)

theorem keeps_pump {P : Nat} {s u : State} {a1} (hP : Fits 0x2000000000000000000000000000000000000000000000000000000000000000000000000000000000 P) (h : Keeps P s u) :
    Keeps P s (State.pump u a1) := by
  unfold State.pump
  repeat' (first
    | with_reducible exact h
    | with_reducible assumption
    | dsimp -zeta only
    | with_reducible refine keeps_setWport (hP.sub rfl) ?_
    | intro _
    | with_reducible refine keeps_ite ?_ ?_
    | with_reducible refine keeps_ite_fst ?_ ?_
    | with_reducible refine keeps_pair (by assumption) ?_
    | split
    | fail_if_no_progress extract_lets
    | dsimp +zetaDelta only)

theorem keeps_sendBlock {P : Nat} {s u : State} {a1 a2 a3} (hP : Fits 0x2000000000000000000000000000000000000000000000000000000000000000000000000000000000 P) (h : Keeps P s u) :
    Keeps P s (State.sendBlock u a1 a2 a3) := by
  unfold State.sendBlock
  repeat' (first
    | with_reducible exact h
    | with_reducible assumption
    | dsimp -zeta only
    | with_reducible refine keeps_setWport (hP.sub rfl) ?_
    | with_reducible refine keeps_pump (hP.sub rfl) ?_
    | intro _
    | with_reducible refine keeps_ite ?_ ?_
    | with_reducible refine keeps_ite_fst ?_ ?_
    | with_reducible refine keeps_pair (by assumption) ?_
    | split
    | fail_if_no_progress extract_lets
    | dsimp +zetaDelta only)

theorem keeps_sendFlit {P : Nat} {s u : State} {a1 a2} (hP : Fits 0x2000000000000000000000000000000000000000000000000000000000000000000000000000000000 P) (h : Keeps P s u) :
    Keeps P s (State.sendFlit u a1 a2) := by
  unfold State.sendFlit
  repeat' (first
    | with_reducible exact h
    | with_reducible assumption
    | dsimp -zeta only
    | with_reducible refine keeps_setWport (hP.sub rfl) ?_
    | with_reducible refine keeps_pump (hP.sub rfl) ?_
    | intro _
    | with_reducible refine keeps_ite ?_ ?_
    | with_reducible refine keeps_ite_fst ?_ ?_
    | with_reducible refine keeps_pair (by assumption) ?_
    | split
    | fail_if_no_progress extract_lets
    | dsimp +zetaDelta only)

theorem keeps_ownNode {P : Nat} {s u : State} (hP : Fits 0x2000000000000000000000000000000000000000000000000000000000000000000000000000 P) (h : Keeps P s u) :
    Keeps P s (State.ownNode u).1 := by
  unfold State.ownNode
  repeat' (first
    | with_reducible exact h
    | with_reducible assumption
    | dsimp -zeta only
    | with_reducible refine keeps_fresh (hP.sub rfl) ?_
    | with_reducible refine keeps_fresh_eq (by assumption) (hP.sub rfl) ?_
    | intro _
    | with_reducible refine keeps_ite ?_ ?_
    | with_reducible refine keeps_ite_fst ?_ ?_
    | with_reducible refine keeps_pair (by assumption) ?_
    | split
    | fail_if_no_progress extract_lets
    | dsimp +zetaDelta only)

theorem keeps_ownNode_eq {P : Nat} {s u v : State} {x} (he : State.ownNode u = (v, x)) (hP : Fits 0x2000000000000000000000000000000000000000000000000000000000000000000000000000 P)
    (h : Keeps P s u) : Keeps P s v := by
  have h1 := keeps_ownNode hP h
  rw [he] at h1
  exact h1

theorem keeps_replyFlit {P : Nat} {s u : State} {a1 a2 a3 a4 a5 a6 a7 a8} (hP : Fits 0x2000002000000000000000000000000000000000000000000000000000000000000000000000000000 P) (h : Keeps P s u) :
    Keeps P s (State.replyFlit u a1 a2 a3 a4 a5 a6 a7 a8) := by
  unfold State.replyFlit
  repeat' (first
    | with_reducible exact h
    | with_reducible assumption
    | dsimp -zeta only
    | with_reducible refine keeps_sendFlit (hP.sub rfl) ?_
    | with_reducible refine keeps_ownNode (hP.sub rfl) ?_
    | with_reducible refine keeps_ownNode_eq (by assumption) (hP.sub rfl) ?_
    | intro _
    | with_reducible refine keeps_ite ?_ ?_
    | with_reducible refine keeps_ite_fst ?_ ?_
    | with_reducible refine keeps_pair (by assumption) ?_
    | split
    | fail_if_no_progress extract_lets
    | dsimp +zetaDelta only)

theorem keeps_owe {P : Nat} {s u : State} {a1 a2} (hP : Fits 0x2000000000000000000000000000000000000000000000000000000000000000000000000000000000 P) (h : Keeps P s u) :
    Keeps P s (State.owe u a1 a2) := by
  unfold State.owe
  repeat' (first
    | with_reducible exact h
    | with_reducible assumption
    | dsimp -zeta only
    | with_reducible refine keeps_setWport (hP.sub rfl) ?_
    | intro _
    | with_reducible refine keeps_ite ?_ ?_
    | with_reducible refine keeps_ite_fst ?_ ?_
    | with_reducible refine keeps_pair (by assumption) ?_
    | split
    | fail_if_no_progress extract_lets
    | dsimp +zetaDelta only)

theorem keeps_aggChanged {P : Nat} {s u : State} (hP : Fits 0x2000000000000000000000001000000000000000000000000000000000000000000000000000000000 P) (h : Keeps P s u) :
    Keeps P s (State.aggChanged u) := by
  unfold State.aggChanged
  repeat' (first
    | with_reducible exact h
    | with_reducible assumption
    | dsimp -zeta only
    | with_reducible refine keeps_sendBlock (hP.sub rfl) ?_
    | with_reducible refine keeps_fput hP rfl ?_
    | with_reducible refine keeps_foldl ?_ ?_
    | with_reducible refine keeps_foldl_fst ?_ ?_
    | intro _
    | with_reducible refine keeps_ite ?_ ?_
    | with_reducible refine keeps_ite_fst ?_ ?_
    | with_reducible refine keeps_pair (by assumption) ?_
    | split
    | fail_if_no_progress extract_lets
    | fail_if_no_progress with_reducible refine keeps_wln hP rfl ?_
    | dsimp +zetaDelta only)

theorem keeps_aggSite {P : Nat} {s u : State} {a1} (hP : Fits 0x2000000000000000000000001000000000000000000000000000000000000000000000000000000000 P) (h : Keeps P s u) :
    Keeps P s (State.aggSite u a1) := by
  unfold State.aggSite
  repeat' (first
    | with_reducible exact h
    | with_reducible assumption
    | dsimp -zeta only
    | with_reducible refine keeps_aggChanged (hP.sub rfl) ?_
    | with_reducible refine keeps_fput hP rfl ?_
    | intro _
    | with_reducible refine keeps_ite ?_ ?_
    | with_reducible refine keeps_ite_fst ?_ ?_
    | with_reducible refine keeps_pair (by assumption) ?_
    | split
    | fail_if_no_progress extract_lets
    | dsimp +zetaDelta only)

end Sys2Proof.Machine
end

