-- ==== Sys2Proof/Laws/KeepsDepot.lean ====
section
/-! SUPPORT. What each operation of Machine/Depot.lean may change, and that it keeps the invariant: one law for each. -/

set_option linter.unreachableTactic false
set_option linter.unusedTactic false

namespace Sys2Proof.Machine

theorem keeps_setDq {P : Nat} {s u : State} {a1 a2} (hP : Fits 0x80000000000000000000000000000000000000000000000000000000000000000000000000000 P) (h : Keeps P s u) :
    Keeps P s (State.setDq u a1 a2) := by
  unfold State.setDq
  repeat' (first
    | with_reducible exact h
    | with_reducible assumption
    | dsimp -zeta only
    | intro _
    | with_reducible refine keeps_ite ?_ ?_
    | with_reducible refine keeps_ite_fst ?_ ?_
    | with_reducible refine keeps_pair (by assumption) ?_
    | split
    | fail_if_no_progress extract_lets
    | fail_if_no_progress with_reducible refine keeps_depot hP rfl ?_
    | dsimp +zetaDelta only)

theorem keeps_notify {P : Nat} {s u : State} {a1} (hP : Fits 0x108000000000000000000000000000000000000000000000000000000000000000000000000000 P) (h : Keeps P s u) :
    Keeps P s (State.notify u a1) := by
  unfold State.notify
  repeat' (first
    | with_reducible exact h
    | with_reducible assumption
    | dsimp -zeta only
    | with_reducible refine keeps_setFlags (hP.sub rfl) ?_
    | with_reducible refine keeps_signal (hP.sub rfl) ?_
    | intro _
    | with_reducible refine keeps_ite ?_ ?_
    | with_reducible refine keeps_ite_fst ?_ ?_
    | with_reducible refine keeps_pair (by assumption) ?_
    | split
    | fail_if_no_progress extract_lets
    | dsimp +zetaDelta only)

theorem keeps_crossings {P : Nat} {s u : State} {a1 a2 a3} (hP : Fits 0x108000000000000000000000000000000000000000000000000000000000000000000000000000 P) (h : Keeps P s u) :
    Keeps P s (State.crossings u a1 a2 a3) := by
  unfold State.crossings
  repeat' (first
    | with_reducible exact h
    | with_reducible assumption
    | dsimp -zeta only
    | with_reducible refine keeps_notify (hP.sub rfl) ?_
    | intro _
    | with_reducible refine keeps_ite ?_ ?_
    | with_reducible refine keeps_ite_fst ?_ ?_
    | with_reducible refine keeps_pair (by assumption) ?_
    | split
    | fail_if_no_progress extract_lets
    | dsimp +zetaDelta only)

theorem keeps_spillWrite {P : Nat} {s u : State} {a1 a2 a3} (hP : Fits 0x80000000000000000000000000000000000000000000000000000000000000000000000000000 P) (h : Keeps P s u) :
    Keeps P s (State.spillWrite u a1 a2 a3) := by
  unfold State.spillWrite
  repeat' (first
    | with_reducible exact h
    | with_reducible assumption
    | dsimp -zeta only
    | intro _
    | with_reducible refine keeps_ite ?_ ?_
    | with_reducible refine keeps_ite_fst ?_ ?_
    | with_reducible refine keeps_pair (by assumption) ?_
    | split
    | fail_if_no_progress extract_lets
    | fail_if_no_progress with_reducible refine keeps_depot hP rfl ?_
    | dsimp +zetaDelta only)

theorem keeps_qPush {P : Nat} {s u : State} {a1 a2} (hP : Fits 0x188000000000000000000002008000000000000000000000000000000000000000000000000000 P) (h : Keeps P s u) :
    Keeps P s (State.qPush u a1 a2) := by
  unfold State.qPush
  repeat' (first
    | with_reducible exact h
    | with_reducible assumption
    | dsimp -zeta only
    | with_reducible refine keeps_spillWrite (hP.sub rfl) ?_
    | with_reducible refine keeps_crossings (hP.sub rfl) ?_
    | with_reducible refine keeps_setDq (hP.sub rfl) ?_
    | with_reducible refine keeps_tick hP rfl ?_
    | intro _
    | with_reducible refine keeps_ite ?_ ?_
    | with_reducible refine keeps_ite_fst ?_ ?_
    | with_reducible refine keeps_pair (by assumption) ?_
    | split
    | fail_if_no_progress extract_lets
    | dsimp +zetaDelta only)

theorem keeps_commit {P : Nat} {s u : State} {a1 a2 a3 a4} (hP : Fits 0x188000000000000000000012068000000000000000000000000000000000000000000000000000 P) (h : Keeps P s u) :
    Keeps P s (State.commit u a1 a2 a3 a4).1 := by
  unfold State.commit
  repeat' (first
    | with_reducible exact h
    | with_reducible assumption
    | dsimp -zeta only
    | with_reducible refine keeps_qPush (hP.sub rfl) ?_
    | with_reducible refine keeps_setDq (hP.sub rfl) ?_
    | with_reducible refine keeps_bump hP rfl ?_
    | with_reducible refine keeps_tick hP rfl ?_
    | intro _
    | with_reducible refine keeps_ite ?_ ?_
    | with_reducible refine keeps_ite_fst ?_ ?_
    | with_reducible refine keeps_pair (by assumption) ?_
    | split
    | fail_if_no_progress extract_lets
    | dsimp +zetaDelta only)

theorem keeps_commit_eq {P : Nat} {s u v : State} {a1 a2 a3 a4} {x} (he : State.commit u a1 a2 a3 a4 = (v, x)) (hP : Fits 0x188000000000000000000012068000000000000000000000000000000000000000000000000000 P)
    (h : Keeps P s u) : Keeps P s v := by
  have h1 := keeps_commit (a1 := a1) (a2 := a2) (a3 := a3) (a4 := a4) hP h
  rw [he] at h1
  exact h1

theorem keeps_report {P : Nat} {s u : State} {a1 a2 a3} (hP : Fits 0x188000000000000000000012068000000000000000000000000000000000000000000000000000 P) (h : Keeps P s u) :
    Keeps P s (State.report u a1 a2 a3) := by
  unfold State.report
  repeat' (first
    | with_reducible exact h
    | with_reducible assumption
    | dsimp -zeta only
    | with_reducible refine keeps_commit (hP.sub rfl) ?_
    | with_reducible refine keeps_commit_eq (by assumption) (hP.sub rfl) ?_
    | intro _
    | with_reducible refine keeps_ite ?_ ?_
    | with_reducible refine keeps_ite_fst ?_ ?_
    | with_reducible refine keeps_pair (by assumption) ?_
    | split
    | fail_if_no_progress extract_lets
    | dsimp +zetaDelta only)

theorem keeps_reportCtl {P : Nat} {s u : State} {a1 a2 a3} (hP : Fits 0x188000000000000000000012068000000000000000000000000000000000000000000000000000 P) (h : Keeps P s u) :
    Keeps P s (State.reportCtl u a1 a2 a3) := by
  unfold State.reportCtl
  repeat' (first
    | with_reducible exact h
    | with_reducible assumption
    | dsimp -zeta only
    | with_reducible refine keeps_commit (hP.sub rfl) ?_
    | with_reducible refine keeps_commit_eq (by assumption) (hP.sub rfl) ?_
    | intro _
    | with_reducible refine keeps_ite ?_ ?_
    | with_reducible refine keeps_ite_fst ?_ ?_
    | with_reducible refine keeps_pair (by assumption) ?_
    | split
    | fail_if_no_progress extract_lets
    | dsimp +zetaDelta only)

theorem keeps_reportDma {P : Nat} {s u : State} {a1 a2 a3 a4} (hP : Fits 0x188000000000000000000012068000000000000000000000000000000000000000000000000000 P) (h : Keeps P s u) :
    Keeps P s (State.reportDma u a1 a2 a3 a4) := by
  unfold State.reportDma
  repeat' (first
    | with_reducible exact h
    | with_reducible assumption
    | dsimp -zeta only
    | with_reducible refine keeps_commit (hP.sub rfl) ?_
    | with_reducible refine keeps_commit_eq (by assumption) (hP.sub rfl) ?_
    | intro _
    | with_reducible refine keeps_ite ?_ ?_
    | with_reducible refine keeps_ite_fst ?_ ?_
    | with_reducible refine keeps_pair (by assumption) ?_
    | split
    | fail_if_no_progress extract_lets
    | dsimp +zetaDelta only)

theorem keeps_qAdmit {P : Nat} {s u : State} {a1} (hP : Fits 0x2000188000000000000000000002008000000000000000000000000000000000000000000000000000 P) (h : Keeps P s u) :
    Keeps P s (State.qAdmit u a1) := by
  unfold State.qAdmit
  repeat' (first
    | with_reducible exact h
    | with_reducible assumption
    | dsimp -zeta only
    | with_reducible refine keeps_releaseTask (hP.sub rfl) ?_
    | with_reducible refine keeps_sendFlit (hP.sub rfl) ?_
    | with_reducible refine keeps_qPush (hP.sub rfl) ?_
    | with_reducible refine keeps_setDq (hP.sub rfl) ?_
    | with_reducible refine keeps_owe (hP.sub rfl) ?_
    | intro _
    | with_reducible refine keeps_ite ?_ ?_
    | with_reducible refine keeps_ite_fst ?_ ?_
    | with_reducible refine keeps_pair (by assumption) ?_
    | split
    | fail_if_no_progress extract_lets
    | dsimp +zetaDelta only)

theorem keeps_qTake_eq {P : Nat} {s u v : State} {a1 e} (he : State.qTake u a1 = some (e, v)) (hP : Fits 0x2000188000000000000000000006008000000000000000000000000000000000000000000000000000 P)
    (h : Keeps P s u) : Keeps P s v := by
  unfold State.qTake at he
  dsimp only at he
  split at he
  · simp at he
  · simp only [Option.some.injEq, Prod.mk.injEq] at he
    rw [← he.2]
    exact keeps_qAdmit (hP.sub rfl) (keeps_crossings (hP.sub rfl) (keeps_tick hP rfl (keeps_setDq (hP.sub rfl) h)))

theorem keeps_qMark {P : Nat} {s u : State} {a1} (hP : Fits 0x588000000000000000000012048000000000000000000000000000000000000000000000000000 P) (h : Keeps P s u) :
    Keeps P s (State.qMark u a1) := by
  unfold State.qMark
  repeat' (first
    | with_reducible exact h
    | with_reducible assumption
    | dsimp -zeta only
    | with_reducible refine keeps_countFix (hP.sub rfl) ?_
    | with_reducible refine keeps_qPush (hP.sub rfl) ?_
    | with_reducible refine keeps_setDq (hP.sub rfl) ?_
    | with_reducible refine keeps_bump hP rfl ?_
    | intro _
    | with_reducible refine keeps_ite ?_ ?_
    | with_reducible refine keeps_ite_fst ?_ ?_
    | with_reducible refine keeps_pair (by assumption) ?_
    | split
    | fail_if_no_progress extract_lets
    | dsimp +zetaDelta only)

theorem keeps_hostWrite {P : Nat} {s u : State} {a1 a2} (hP : Fits 0x4000000000000000000000000000000000000000000000000000000000000000000000000000 P) (h : Keeps P s u) :
    Keeps P s (State.hostWrite u a1 a2) := by
  induction a2 generalizing u a1 with
  | nil => exact h
  | cons x r ih => exact ih (keeps_hostMem hP rfl h (fun hm => nset_wf _ _ hm))

theorem keeps_qMirror {P : Nat} {s u : State} {a1} (hP : Fits 0x200018c000000000000000000026008000000000000000000000000000000000000000000000000000 P) (h : Keeps P s u) :
    Keeps P s (State.qMirror u a1) := by
  unfold State.qMirror
  repeat' (first
    | with_reducible exact h
    | with_reducible assumption
    | dsimp -zeta only
    | with_reducible refine keeps_hostWrite (hP.sub rfl) ?_
    | with_reducible refine keeps_qTake_eq (by assumption) (hP.sub rfl) ?_
    | with_reducible refine keeps_tick hP rfl ?_
    | intro _
    | with_reducible refine keeps_ite ?_ ?_
    | with_reducible refine keeps_ite_fst ?_ ?_
    | with_reducible refine keeps_pair (by assumption) ?_
    | split
    | fail_if_no_progress extract_lets
    | dsimp +zetaDelta only)

theorem keeps_execMirrorWrite {P : Nat} {u t : State} {a0} (he : execMirrorWrite a0 u = .next t) (hP : Fits 0x200018c000000000000000000026008000000000000000000000000000000000000000000000000000 P) : Keeps P u t := by
  unfold execMirrorWrite at he
  injection he with he
  subst he
  repeat' (first
    | with_reducible exact Keeps.refl P u
    | with_reducible assumption
    | dsimp -zeta only
    | with_reducible refine keeps_qMirror (hP.sub rfl) ?_
    | intro _
    | with_reducible refine keeps_ite ?_ ?_
    | with_reducible refine keeps_ite_fst ?_ ?_
    | with_reducible refine keeps_pair (by assumption) ?_
    | split
    | fail_if_no_progress extract_lets
    | dsimp +zetaDelta only)

end Sys2Proof.Machine
end

