-- ==== Sys2Proof/Laws/KeepsHbm.lean ====
section
/-! SUPPORT. What each operation of Machine/Hbm.lean may change, and that it keeps the invariant: one law for each. -/

set_option linter.unreachableTactic false
set_option linter.unusedTactic false

namespace Sys2Proof.Machine

theorem keeps_setChan {P : Nat} {s u : State} {a1 a2} (hP : Fits 0x40000000000000000000000000000000000000000000000000000000000000000000000000000000 P) (h : Keeps P s u) :
    Keeps P s (State.setChan u a1 a2) := by
  unfold State.setChan
  repeat' (first
    | with_reducible exact h
    | with_reducible assumption
    | dsimp -zeta only
    | intro _
    | with_reducible refine keeps_ite ?_ ?_
    | with_reducible refine keeps_ite_fst ?_ ?_
    | with_reducible refine keeps_pair (by assumption) ?_
    | split
    | fail_if_no_progress extract_lets
    | fail_if_no_progress with_reducible refine keeps_hbm hP rfl ?_ rfl rfl
    | dsimp +zetaDelta only)

theorem keeps_setMark {P : Nat} {s u : State} {a1 a2 a3} (hP : Fits 0x20000000000000000000000000000000000000000000000000000000000000000000000000000000 P) (h : Keeps P s u) :
    Keeps P s (State.setMark u a1 a2 a3) := by
  exact keeps_marks hP rfl h (fun hm => nset_wf _ _ hm)

theorem keeps_setMemByte {P : Nat} {s u : State} {a1 a2 a3} (hP : Fits 0x20000000000000000000000000000000000000000000000000000000000000000000000000000000 P) (h : Keeps P s u) :
    Keeps P s (State.setMemByte u a1 a2 a3) := by
  exact keeps_hbmMem hP rfl h (fun hm => nset_wf _ _ hm)

theorem keeps_memEvent {P : Nat} {s u : State} {a1 a2 a3 a4 a5} (hP : Fits 0x188000000000000000000012068000000000000000000000000000000000000000000000000000 P) (h : Keeps P s u) :
    Keeps P s (State.memEvent u a1 a2 a3 a4 a5) := by
  unfold State.memEvent
  repeat' (first
    | with_reducible exact h
    | with_reducible assumption
    | dsimp -zeta only
    | with_reducible refine keeps_report (hP.sub rfl) ?_
    | intro _
    | with_reducible refine keeps_ite ?_ ?_
    | with_reducible refine keeps_ite_fst ?_ ?_
    | with_reducible refine keeps_pair (by assumption) ?_
    | split
    | fail_if_no_progress extract_lets
    | dsimp +zetaDelta only)

theorem keeps_waitStop {P : Nat} {s u : State} (hP : Fits 0x1000000000000000000000000000000000000000000000000000000000000000000000000000 P) (h : Keeps P s u) :
    Keeps P s (State.waitStop u) := by
  unfold State.waitStop
  repeat' (first
    | with_reducible exact h
    | with_reducible assumption
    | dsimp -zeta only
    | with_reducible refine keeps_advance (hP.sub rfl) ?_
    | intro _
    | with_reducible refine keeps_ite ?_ ?_
    | with_reducible refine keeps_ite_fst ?_ ?_
    | with_reducible refine keeps_pair (by assumption) ?_
    | split
    | fail_if_no_progress extract_lets
    | dsimp +zetaDelta only)

theorem keeps_storeBytes {P : Nat} {s u : State} {a1 a2 a3 a4 a5} (hP : Fits 0x20000000000000000000000000000000000000000000000000000000000000000000000000000000 P) (h : Keeps P s u) :
    Keeps P s (State.storeBytes u a1 a2 a3 a4 a5) := by
  induction a5 generalizing u a1 a2 a3 a4 with
  | zero =>
    unfold State.storeBytes
    repeat' (first
      | with_reducible exact h
      | with_reducible assumption
      | dsimp -zeta only
      | with_reducible refine keeps_setMemByte (hP.sub rfl) ?_
      | intro _
      | with_reducible refine keeps_ite ?_ ?_
      | with_reducible refine keeps_ite_fst ?_ ?_
      | with_reducible refine keeps_pair (by assumption) ?_
      | split
      | fail_if_no_progress extract_lets
      | dsimp +zetaDelta only)
  | succ n ih =>
    unfold State.storeBytes
    repeat' (first
      | with_reducible exact h
      | with_reducible assumption
      | dsimp -zeta only
      | with_reducible apply ih
      | with_reducible refine keeps_setMemByte (hP.sub rfl) ?_
      | intro _
      | with_reducible refine keeps_ite ?_ ?_
      | with_reducible refine keeps_ite_fst ?_ ?_
      | with_reducible refine keeps_pair (by assumption) ?_
      | split
      | fail_if_no_progress extract_lets
      | dsimp +zetaDelta only)

theorem keeps_issue {P : Nat} {s u : State} {a1 a2 a3} (hP : Fits 0x40000000000000000000000000000000000000000000000000000000000000000000000000000000 P) (h : Keeps P s u) :
    Keeps P s (State.issue u a1 a2 a3) := by
  unfold State.issue
  repeat' (first
    | with_reducible exact h
    | with_reducible assumption
    | dsimp -zeta only
    | with_reducible refine keeps_setChan (hP.sub rfl) ?_
    | intro _
    | with_reducible refine keeps_ite ?_ ?_
    | with_reducible refine keeps_ite_fst ?_ ?_
    | with_reducible refine keeps_pair (by assumption) ?_
    | split
    | fail_if_no_progress extract_lets
    | dsimp +zetaDelta only)

theorem keeps_storeBeat {P : Nat} {s u : State} {a1 a2} (hP : Fits 0x20000000000000000000000000000000000000000000000000000000000000000000000000000000 P) (h : Keeps P s u) :
    Keeps P s (State.storeBeat u a1 a2) := by
  unfold State.storeBeat
  repeat' (first
    | with_reducible exact h
    | with_reducible assumption
    | dsimp -zeta only
    | with_reducible refine keeps_storeBytes (hP.sub rfl) ?_
    | with_reducible refine keeps_setMark (hP.sub rfl) ?_
    | intro _
    | with_reducible refine keeps_ite ?_ ?_
    | with_reducible refine keeps_ite_fst ?_ ?_
    | with_reducible refine keeps_pair (by assumption) ?_
    | split
    | fail_if_no_progress extract_lets
    | dsimp +zetaDelta only)

theorem keeps_drain {P : Nat} {s u : State} {a1 a2} (hP : Fits 0x60000000000000000000000000000000000000000000000000000000000000000000000000000000 P) (h : Keeps P s u) :
    Keeps P s (State.drain u a1 a2) := by
  induction a2 generalizing u a1 with
  | zero =>
    unfold State.drain
    repeat' (first
      | with_reducible exact h
      | with_reducible assumption
      | dsimp -zeta only
      | with_reducible refine keeps_storeBeat (hP.sub rfl) ?_
      | with_reducible refine keeps_setChan (hP.sub rfl) ?_
      | with_reducible refine keeps_issue (hP.sub rfl) ?_
      | intro _
      | with_reducible refine keeps_ite ?_ ?_
      | with_reducible refine keeps_ite_fst ?_ ?_
      | with_reducible refine keeps_pair (by assumption) ?_
      | split
      | fail_if_no_progress extract_lets
      | dsimp +zetaDelta only)
  | succ n ih =>
    unfold State.drain
    repeat' (first
      | with_reducible exact h
      | with_reducible assumption
      | dsimp -zeta only
      | with_reducible apply ih
      | with_reducible refine keeps_storeBeat (hP.sub rfl) ?_
      | with_reducible refine keeps_setChan (hP.sub rfl) ?_
      | with_reducible refine keeps_issue (hP.sub rfl) ?_
      | intro _
      | with_reducible refine keeps_ite ?_ ?_
      | with_reducible refine keeps_ite_fst ?_ ?_
      | with_reducible refine keeps_pair (by assumption) ?_
      | split
      | fail_if_no_progress extract_lets
      | dsimp +zetaDelta only)

theorem keeps_drainMatching {P : Nat} {s u : State} {a1 a2} (hP : Fits 0x60000000000000000000000000000000000000000000000000000000000000000000000000000000 P) (h : Keeps P s u) :
    Keeps P s (State.drainMatching u a1 a2) := by
  unfold State.drainMatching
  repeat' (first
    | with_reducible exact h
    | with_reducible assumption
    | dsimp -zeta only
    | with_reducible refine keeps_drain (hP.sub rfl) ?_
    | intro _
    | with_reducible refine keeps_ite ?_ ?_
    | with_reducible refine keeps_ite_fst ?_ ?_
    | with_reducible refine keeps_pair (by assumption) ?_
    | split
    | fail_if_no_progress extract_lets
    | dsimp +zetaDelta only)

theorem keeps_beatEvent {P : Nat} {s u : State} {a1 a2 a3 a4} (hP : Fits 0x18a000000000000000000012068000000000000000000000000000000000000000000000000000 P) (h : Keeps P s u) :
    Keeps P s (State.beatEvent u a1 a2 a3 a4) := by
  unfold State.beatEvent
  repeat' (first
    | with_reducible exact h
    | with_reducible assumption
    | dsimp -zeta only
    | with_reducible refine keeps_memEvent (hP.sub rfl) ?_
    | with_reducible refine keeps_fresh (hP.sub rfl) ?_
    | with_reducible refine keeps_fresh_eq (by assumption) (hP.sub rfl) ?_
    | intro _
    | with_reducible refine keeps_ite ?_ ?_
    | with_reducible refine keeps_ite_fst ?_ ?_
    | with_reducible refine keeps_pair (by assumption) ?_
    | split
    | fail_if_no_progress extract_lets
    | dsimp +zetaDelta only)

theorem keeps_readBeat {P : Nat} {s u : State} {a1 a2 a3 a4} (hP : Fits 0x806058a000000000300000000012068000000000001400000000000000000000000000000000000000 P) (h : Keeps P s u) :
    Keeps P s (State.readBeat u a1 a2 a3 a4).1 := by
  unfold State.readBeat
  repeat' (first
    | with_reducible exact h
    | with_reducible assumption
    | dsimp -zeta only
    | with_reducible refine keeps_drainMatching (hP.sub rfl) ?_
    | with_reducible refine keeps_beatEvent (hP.sub rfl) ?_
    | with_reducible refine keeps_countFix (hP.sub rfl) ?_
    | with_reducible refine keeps_logWrite (hP.sub rfl) ?_
    | with_reducible refine keeps_setMark (hP.sub rfl) ?_
    | with_reducible refine keeps_issue (hP.sub rfl) ?_
    | with_reducible refine keeps_wr hP rfl ?_
    | with_reducible refine keeps_bump hP rfl ?_
    | intro _
    | with_reducible refine keeps_ite ?_ ?_
    | with_reducible refine keeps_ite_fst ?_ ?_
    | with_reducible refine keeps_pair (by assumption) ?_
    | split
    | fail_if_no_progress extract_lets
    | dsimp +zetaDelta only)

theorem keeps_readBeat_eq {P : Nat} {s u v : State} {a1 a2 a3 a4} {x} (he : State.readBeat u a1 a2 a3 a4 = (v, x)) (hP : Fits 0x806058a000000000300000000012068000000000001400000000000000000000000000000000000000 P)
    (h : Keeps P s u) : Keeps P s v := by
  have h1 := keeps_readBeat (a1 := a1) (a2 := a2) (a3 := a3) (a4 := a4) hP h
  rw [he] at h1
  exact h1

theorem keeps_decodeError {P : Nat} {s u : State} {a1 a2} (hP : Fits 0x188000000000000000000012068000000000000002100000000000000000000000000000000000 P) (h : Keeps P s u) :
    Keeps P s (State.decodeError u a1 a2) := by
  unfold State.decodeError
  repeat' (first
    | with_reducible exact h
    | with_reducible assumption
    | dsimp -zeta only
    | with_reducible refine keeps_memEvent (hP.sub rfl) ?_
    | with_reducible refine keeps_wr hP rfl ?_
    | with_reducible refine keeps_fput hP rfl ?_
    | intro _
    | with_reducible refine keeps_ite ?_ ?_
    | with_reducible refine keeps_ite_fst ?_ ?_
    | with_reducible refine keeps_pair (by assumption) ?_
    | split
    | fail_if_no_progress extract_lets
    | dsimp +zetaDelta only)

theorem keeps_wakeMem {P : Nat} {s u : State} {a1} (hP : Fits 0x40000000000000000000000000000000000000000000100000000000000000000000000000000000 P) (h : Keeps P s u) :
    Keeps P s (State.wakeMem u a1) := by
  unfold State.wakeMem
  repeat' (first
    | with_reducible exact h
    | with_reducible assumption
    | dsimp -zeta only
    | with_reducible refine keeps_fput hP rfl ?_
    | intro _
    | with_reducible refine keeps_ite ?_ ?_
    | with_reducible refine keeps_ite_fst ?_ ?_
    | with_reducible refine keeps_pair (by assumption) ?_
    | split
    | fail_if_no_progress extract_lets
    | fail_if_no_progress with_reducible refine keeps_hbm hP rfl ?_ rfl rfl
    | dsimp +zetaDelta only)

theorem keeps_pieceNow {P : Nat} {s u : State} {a1 a2 a3} (hP : Fits 0x806058a000000000300000000012068000000000001402100000000000000000000000000000000000 P) (h : Keeps P s u) :
    Keeps P s (State.pieceNow u a1 a2 a3).1 := by
  unfold State.pieceNow
  repeat' (first
    | with_reducible exact h
    | with_reducible assumption
    | dsimp -zeta only
    | with_reducible refine keeps_decodeError (hP.sub rfl) ?_
    | with_reducible refine keeps_readBeat (hP.sub rfl) ?_
    | with_reducible refine keeps_readBeat_eq (by assumption) (hP.sub rfl) ?_
    | intro _
    | with_reducible refine keeps_ite ?_ ?_
    | with_reducible refine keeps_ite_fst ?_ ?_
    | with_reducible refine keeps_pair (by assumption) ?_
    | split
    | fail_if_no_progress extract_lets
    | dsimp +zetaDelta only)

theorem keeps_pieceNow_eq {P : Nat} {s u v : State} {a1 a2 a3} {x} (he : State.pieceNow u a1 a2 a3 = (v, x)) (hP : Fits 0x806058a000000000300000000012068000000000001402100000000000000000000000000000000000 P)
    (h : Keeps P s u) : Keeps P s v := by
  have h1 := keeps_pieceNow (a1 := a1) (a2 := a2) (a3 := a3) hP h
  rw [he] at h1
  exact h1

theorem keeps_enqueueWrite {P : Nat} {s u : State} {a1 a2} (hP : Fits 0x60000000000000000000000000000000000000000000000000000000000000000000000000000000 P) (h : Keeps P s u) :
    Keeps P s (State.enqueueWrite u a1 a2) := by
  unfold State.enqueueWrite
  repeat' (first
    | with_reducible exact h
    | with_reducible assumption
    | dsimp -zeta only
    | with_reducible refine keeps_setChan (hP.sub rfl) ?_
    | with_reducible refine keeps_drain (hP.sub rfl) ?_
    | intro _
    | with_reducible refine keeps_ite ?_ ?_
    | with_reducible refine keeps_ite_fst ?_ ?_
    | with_reducible refine keeps_pair (by assumption) ?_
    | split
    | fail_if_no_progress extract_lets
    | dsimp +zetaDelta only)

theorem keeps_pieceBack {P : Nat} {s u : State} {a1 a2} (hP : Fits 0x10000000000000000000000000000000000000000000000000000000000000000000000000000 P) (h : Keeps P s u) :
    Keeps P s (State.pieceBack u a1 a2) := by
  unfold State.pieceBack
  repeat' (first
    | with_reducible exact h
    | with_reducible assumption
    | dsimp -zeta only
    | intro _
    | with_reducible refine keeps_ite ?_ ?_
    | with_reducible refine keeps_ite_fst ?_ ?_
    | with_reducible refine keeps_pair (by assumption) ?_
    | split
    | fail_if_no_progress extract_lets
    | fail_if_no_progress with_reducible refine keeps_hostPort hP rfl ?_ rfl rfl rfl rfl rfl
    | dsimp +zetaDelta only)

theorem keeps_serveReq {P : Nat} {s u : State} {a1 a2} (hP : Fits 0x806059a000000000300000000012068000000000001402100000000000000000000000000000000000 P) (h : Keeps P s u) :
    Keeps P s (State.serveReq u a1 a2) := by
  unfold State.serveReq
  repeat' (first
    | with_reducible exact h
    | with_reducible assumption
    | dsimp -zeta only
    | with_reducible refine keeps_enqueueWrite (hP.sub rfl) ?_
    | with_reducible refine keeps_pieceBack (hP.sub rfl) ?_
    | with_reducible refine keeps_pieceNow (hP.sub rfl) ?_
    | with_reducible refine keeps_pieceNow_eq (by assumption) (hP.sub rfl) ?_
    | intro _
    | with_reducible refine keeps_ite ?_ ?_
    | with_reducible refine keeps_ite_fst ?_ ?_
    | with_reducible refine keeps_pair (by assumption) ?_
    | split
    | fail_if_no_progress extract_lets
    | dsimp +zetaDelta only)

theorem keeps_grantReq {P : Nat} {s u : State} {a1 a2} (hP : Fits 0x806059a000000000300000000012068000000000001402100000000000000000000000000000000000 P) (h : Keeps P s u) :
    Keeps P s (State.grantReq u a1 a2) := by
  unfold State.grantReq
  repeat' (first
    | with_reducible exact h
    | with_reducible assumption
    | dsimp -zeta only
    | with_reducible refine keeps_serveReq (hP.sub rfl) ?_
    | with_reducible refine keeps_setChan (hP.sub rfl) ?_
    | intro _
    | with_reducible refine keeps_ite ?_ ?_
    | with_reducible refine keeps_ite_fst ?_ ?_
    | with_reducible refine keeps_pair (by assumption) ?_
    | split
    | fail_if_no_progress extract_lets
    | dsimp +zetaDelta only)

theorem keeps_grant {P : Nat} {s u : State} {a1} (hP : Fits 0x806059a000000000300000000012068000000000001402100000000000000000000000000000000000 P) (h : Keeps P s u) :
    Keeps P s (State.grant u a1) := by
  unfold State.grant
  repeat' (first
    | with_reducible exact h
    | with_reducible assumption
    | dsimp -zeta only
    | with_reducible refine keeps_grantReq (hP.sub rfl) ?_
    | intro _
    | with_reducible refine keeps_ite ?_ ?_
    | with_reducible refine keeps_ite_fst ?_ ?_
    | with_reducible refine keeps_pair (by assumption) ?_
    | split
    | fail_if_no_progress extract_lets
    | dsimp +zetaDelta only)

theorem keeps_grantAll {P : Nat} {s u : State} {a1 a2} (hP : Fits 0x806059a000000000300000000012068000000000001402100000000000000000000000000000000000 P) (h : Keeps P s u) :
    Keeps P s (State.grantAll u a1 a2) := by
  induction a2 generalizing u a1 with
  | zero =>
    unfold State.grantAll
    repeat' (first
      | with_reducible exact h
      | with_reducible assumption
      | dsimp -zeta only
      | with_reducible refine keeps_grantReq (hP.sub rfl) ?_
      | intro _
      | with_reducible refine keeps_ite ?_ ?_
      | with_reducible refine keeps_ite_fst ?_ ?_
      | with_reducible refine keeps_pair (by assumption) ?_
      | split
      | fail_if_no_progress extract_lets
      | dsimp +zetaDelta only)
  | succ n ih =>
    unfold State.grantAll
    repeat' (first
      | with_reducible exact h
      | with_reducible assumption
      | dsimp -zeta only
      | with_reducible apply ih
      | with_reducible refine keeps_grantReq (hP.sub rfl) ?_
      | intro _
      | with_reducible refine keeps_ite ?_ ?_
      | with_reducible refine keeps_ite_fst ?_ ?_
      | with_reducible refine keeps_pair (by assumption) ?_
      | split
      | fail_if_no_progress extract_lets
      | dsimp +zetaDelta only)

theorem keeps_acceptWaiting {P : Nat} {s u : State} {a1} (hP : Fits 0x806059a000000000300000000012068000000000001402100000000000000000000000000000000000 P) (h : Keeps P s u) :
    Keeps P s (State.acceptWaiting u a1) := by
  unfold State.acceptWaiting
  repeat' (first
    | with_reducible exact h
    | with_reducible assumption
    | dsimp -zeta only
    | with_reducible refine keeps_grantAll (hP.sub rfl) ?_
    | intro _
    | with_reducible refine keeps_ite ?_ ?_
    | with_reducible refine keeps_ite_fst ?_ ?_
    | with_reducible refine keeps_pair (by assumption) ?_
    | split
    | fail_if_no_progress extract_lets
    | dsimp +zetaDelta only)

theorem keeps_arbitrate {P : Nat} {s u : State} {a1 a2 a3} (hP : Fits 0x806059a000000000300000000012068000000000001402100000000000000000000000000000000000 P) (h : Keeps P s u) :
    Keeps P s (State.arbitrate u a1 a2 a3) := by
  induction a3 generalizing u a1 a2 with
  | zero =>
    unfold State.arbitrate
    repeat' (first
      | with_reducible exact h
      | with_reducible assumption
      | dsimp -zeta only
      | with_reducible refine keeps_grantReq (hP.sub rfl) ?_
      | with_reducible refine keeps_setChan (hP.sub rfl) ?_
      | intro _
      | with_reducible refine keeps_ite ?_ ?_
      | with_reducible refine keeps_ite_fst ?_ ?_
      | with_reducible refine keeps_pair (by assumption) ?_
      | split
      | fail_if_no_progress extract_lets
      | dsimp +zetaDelta only)
  | succ n ih =>
    unfold State.arbitrate
    repeat' (first
      | with_reducible exact h
      | with_reducible assumption
      | dsimp -zeta only
      | with_reducible apply ih
      | with_reducible refine keeps_grantReq (hP.sub rfl) ?_
      | with_reducible refine keeps_setChan (hP.sub rfl) ?_
      | intro _
      | with_reducible refine keeps_ite ?_ ?_
      | with_reducible refine keeps_ite_fst ?_ ?_
      | with_reducible refine keeps_pair (by assumption) ?_
      | split
      | fail_if_no_progress extract_lets
      | dsimp +zetaDelta only)

theorem keeps_acceptAll {P : Nat} {s u : State} (hP : Fits 0x806059a000000000300000000012068000000000001402100000000000000000000000000000000000 P) (h : Keeps P s u) :
    Keeps P s (State.acceptAll u) := by
  unfold State.acceptAll
  repeat' (first
    | with_reducible exact h
    | with_reducible assumption
    | dsimp -zeta only
    | with_reducible refine keeps_acceptWaiting (hP.sub rfl) ?_
    | with_reducible refine keeps_foldl ?_ ?_
    | with_reducible refine keeps_foldl_fst ?_ ?_
    | intro _
    | with_reducible refine keeps_ite ?_ ?_
    | with_reducible refine keeps_ite_fst ?_ ?_
    | with_reducible refine keeps_pair (by assumption) ?_
    | split
    | fail_if_no_progress extract_lets
    | dsimp +zetaDelta only)

theorem keeps_loseEighths {P : Nat} {s u : State} (hP : Fits 0x8100000000000000000000000000000000000 P) (h : Keeps P s u) :
    Keeps P s (State.loseEighths u) := by
  unfold State.loseEighths
  repeat' (first
    | with_reducible exact h
    | with_reducible assumption
    | dsimp -zeta only
    | with_reducible refine keeps_fput hP rfl ?_
    | intro _
    | with_reducible refine keeps_ite ?_ ?_
    | with_reducible refine keeps_ite_fst ?_ ?_
    | with_reducible refine keeps_pair (by assumption) ?_
    | split
    | fail_if_no_progress extract_lets
    | dsimp +zetaDelta only)

theorem keeps_leaveRefresh {P : Nat} {s u : State} (hP : Fits 0x40000000000000000000000000000000000000000000000000000000000000000000000000000000 P) (h : Keeps P s u) :
    Keeps P s (State.leaveRefresh u) := by
  unfold State.leaveRefresh
  repeat' (first
    | with_reducible exact h
    | with_reducible assumption
    | dsimp -zeta only
    | intro _
    | with_reducible refine keeps_ite ?_ ?_
    | with_reducible refine keeps_ite_fst ?_ ?_
    | with_reducible refine keeps_pair (by assumption) ?_
    | split
    | fail_if_no_progress extract_lets
    | fail_if_no_progress with_reducible refine keeps_hbm hP rfl ?_ rfl rfl
    | dsimp +zetaDelta only)

theorem keeps_dropLostWrites {P : Nat} {s u : State} (hP : Fits 0x40000000000000000000000000000000000000000000000000000000000000000000000000000000 P) (h : Keeps P s u) :
    Keeps P s (State.dropLostWrites u) := by
  unfold State.dropLostWrites
  repeat' (first
    | with_reducible exact h
    | with_reducible assumption
    | dsimp -zeta only
    | with_reducible refine keeps_setChan (hP.sub rfl) ?_
    | with_reducible refine keeps_foldl ?_ ?_
    | with_reducible refine keeps_foldl_fst ?_ ?_
    | intro _
    | with_reducible refine keeps_ite ?_ ?_
    | with_reducible refine keeps_ite_fst ?_ ?_
    | with_reducible refine keeps_pair (by assumption) ?_
    | split
    | fail_if_no_progress extract_lets
    | dsimp +zetaDelta only)

theorem keeps_doSelfRefreshExit {P : Nat} {s u : State} (hP : Fits 0x40188000000000000000000012068000000000000008100000000000000000000000000000000000 P) (h : Keeps P s u) :
    Keeps P s (State.doSelfRefreshExit u) := by
  unfold State.doSelfRefreshExit
  repeat' (first
    | with_reducible exact h
    | with_reducible assumption
    | dsimp -zeta only
    | with_reducible refine keeps_dropLostWrites (hP.sub rfl) ?_
    | with_reducible refine keeps_leaveRefresh (hP.sub rfl) ?_
    | with_reducible refine keeps_loseEighths (hP.sub rfl) ?_
    | with_reducible refine keeps_memEvent (hP.sub rfl) ?_
    | intro _
    | with_reducible refine keeps_ite ?_ ?_
    | with_reducible refine keeps_ite_fst ?_ ?_
    | with_reducible refine keeps_pair (by assumption) ?_
    | split
    | fail_if_no_progress extract_lets
    | dsimp +zetaDelta only)

theorem keeps_memReady {P : Nat} {s u : State} {a1} (hP : Fits 0x806059b00000000030000000001206800000000000140a100000000000000000000000000000000000 P) (h : Keeps P s u) :
    Keeps P s (State.memReady u a1) := by
  unfold State.memReady
  repeat' (first
    | with_reducible exact h
    | with_reducible assumption
    | dsimp -zeta only
    | with_reducible refine keeps_doSelfRefreshExit (hP.sub rfl) ?_
    | with_reducible refine keeps_acceptAll (hP.sub rfl) ?_
    | with_reducible refine keeps_waitStop (hP.sub rfl) ?_
    | with_reducible refine keeps_wakeMem (hP.sub rfl) ?_
    | intro _
    | with_reducible refine keeps_ite ?_ ?_
    | with_reducible refine keeps_ite_fst ?_ ?_
    | with_reducible refine keeps_pair (by assumption) ?_
    | split
    | fail_if_no_progress extract_lets
    | dsimp +zetaDelta only)

theorem keeps_readBeatAt {P : Nat} {s u : State} {a1 a2 a3 a4} (hP : Fits 0x806059b00000000030000000001206800000000000140a100000000000000000000000000000000000 P) (h : Keeps P s u) :
    Keeps P s (State.readBeatAt u a1 a2 a3 a4).1 := by
  unfold State.readBeatAt
  repeat' (first
    | with_reducible exact h
    | with_reducible assumption
    | dsimp -zeta only
    | with_reducible refine keeps_arbitrate (hP.sub rfl) ?_
    | with_reducible refine keeps_pieceNow (hP.sub rfl) ?_
    | with_reducible refine keeps_pieceNow_eq (by assumption) (hP.sub rfl) ?_
    | with_reducible refine keeps_memReady (hP.sub rfl) ?_
    | intro _
    | with_reducible refine keeps_ite ?_ ?_
    | with_reducible refine keeps_ite_fst ?_ ?_
    | with_reducible refine keeps_pair (by assumption) ?_
    | split
    | fail_if_no_progress extract_lets
    | dsimp +zetaDelta only)

theorem keeps_readBeatAt_eq {P : Nat} {s u v : State} {a1 a2 a3 a4} {x} (he : State.readBeatAt u a1 a2 a3 a4 = (v, x)) (hP : Fits 0x806059b00000000030000000001206800000000000140a100000000000000000000000000000000000 P)
    (h : Keeps P s u) : Keeps P s v := by
  have h1 := keeps_readBeatAt (a1 := a1) (a2 := a2) (a3 := a3) (a4 := a4) hP h
  rw [he] at h1
  exact h1

theorem keeps_readBeats {P : Nat} {s u : State} {a1 a2 a3 a4 a5} (hP : Fits 0x806059b00000000030000000001206800000000000140a100000000000000000000000000000000000 P) (h : Keeps P s u) :
    Keeps P s (State.readBeats u a1 a2 a3 a4 a5).1 := by
  induction a5 generalizing u a1 a2 a3 a4 with
  | zero =>
    unfold State.readBeats
    repeat' (first
      | with_reducible exact h
      | with_reducible assumption
      | dsimp -zeta only
      | with_reducible refine keeps_readBeatAt (hP.sub rfl) ?_
      | with_reducible refine keeps_readBeatAt_eq (by assumption) (hP.sub rfl) ?_
      | intro _
      | with_reducible refine keeps_ite ?_ ?_
      | with_reducible refine keeps_ite_fst ?_ ?_
      | with_reducible refine keeps_pair (by assumption) ?_
      | split
      | fail_if_no_progress extract_lets
      | dsimp +zetaDelta only)
  | succ n ih =>
    unfold State.readBeats
    repeat' (first
      | with_reducible exact h
      | with_reducible assumption
      | dsimp -zeta only
      | with_reducible apply ih
      | with_reducible refine keeps_pair (w := State.readBeats _ _ _ _ _ _) (by assumption) ?_
      | with_reducible refine keeps_readBeatAt (hP.sub rfl) ?_
      | with_reducible refine keeps_readBeatAt_eq (by assumption) (hP.sub rfl) ?_
      | intro _
      | with_reducible refine keeps_ite ?_ ?_
      | with_reducible refine keeps_ite_fst ?_ ?_
      | with_reducible refine keeps_pair (by assumption) ?_
      | split
      | fail_if_no_progress extract_lets
      | dsimp +zetaDelta only)

theorem keeps_readBeats_eq {P : Nat} {s u v : State} {a1 a2 a3 a4 a5} {x} (he : State.readBeats u a1 a2 a3 a4 a5 = (v, x)) (hP : Fits 0x806059b00000000030000000001206800000000000140a100000000000000000000000000000000000 P)
    (h : Keeps P s u) : Keeps P s v := by
  have h1 := keeps_readBeats (a1 := a1) (a2 := a2) (a3 := a3) (a4 := a4) (a5 := a5) hP h
  rw [he] at h1
  exact h1

theorem keeps_hbmRead {P : Nat} {s u : State} {a1 a2 a3 a4} (hP : Fits 0x806059b00000000030000000001206800000000000140a100000000000000000000000000000000000 P) (h : Keeps P s u) :
    Keeps P s (State.hbmRead u a1 a2 a3 a4).1 := by
  unfold State.hbmRead
  repeat' (first
    | with_reducible exact h
    | with_reducible assumption
    | dsimp -zeta only
    | with_reducible refine keeps_readBeats (hP.sub rfl) ?_
    | with_reducible refine keeps_readBeats_eq (by assumption) (hP.sub rfl) ?_
    | intro _
    | with_reducible refine keeps_ite ?_ ?_
    | with_reducible refine keeps_ite_fst ?_ ?_
    | with_reducible refine keeps_pair (by assumption) ?_
    | split
    | fail_if_no_progress extract_lets
    | dsimp +zetaDelta only)

theorem keeps_hbmRead_eq {P : Nat} {s u v : State} {a1 a2 a3 a4} {x} (he : State.hbmRead u a1 a2 a3 a4 = (v, x)) (hP : Fits 0x806059b00000000030000000001206800000000000140a100000000000000000000000000000000000 P)
    (h : Keeps P s u) : Keeps P s v := by
  have h1 := keeps_hbmRead (a1 := a1) (a2 := a2) (a3 := a3) (a4 := a4) hP h
  rw [he] at h1
  exact h1

theorem keeps_hbmRead64 {P : Nat} {s u : State} {a1 a2 a3} (hP : Fits 0x806059b00000000030000000001206800000000000140a100000000000000000000000000000000000 P) (h : Keeps P s u) :
    Keeps P s (State.hbmRead64 u a1 a2 a3).1 := by
  unfold State.hbmRead64
  repeat' (first
    | with_reducible exact h
    | with_reducible assumption
    | dsimp -zeta only
    | with_reducible refine keeps_hbmRead (hP.sub rfl) ?_
    | with_reducible refine keeps_hbmRead_eq (by assumption) (hP.sub rfl) ?_
    | intro _
    | with_reducible refine keeps_ite ?_ ?_
    | with_reducible refine keeps_ite_fst ?_ ?_
    | with_reducible refine keeps_pair (by assumption) ?_
    | split
    | fail_if_no_progress extract_lets
    | dsimp +zetaDelta only)

theorem keeps_hbmRead64_eq {P : Nat} {s u v : State} {a1 a2 a3} {x} (he : State.hbmRead64 u a1 a2 a3 = (v, x)) (hP : Fits 0x806059b00000000030000000001206800000000000140a100000000000000000000000000000000000 P)
    (h : Keeps P s u) : Keeps P s v := by
  have h1 := keeps_hbmRead64 (a1 := a1) (a2 := a2) (a3 := a3) hP h
  rw [he] at h1
  exact h1

theorem keeps_limitClassA {P : Nat} {s u : State} {a1 a2 a3 a4} (hP : Fits 0x40000000000000000000000000000000000000000000000000000000000000000000000000000000 P) (h : Keeps P s u) :
    Keeps P s (State.limitClassA u a1 a2 a3 a4) := by
  unfold State.limitClassA
  repeat' (first
    | with_reducible exact h
    | with_reducible assumption
    | dsimp -zeta only
    | with_reducible refine keeps_setChan (hP.sub rfl) ?_
    | intro _
    | with_reducible refine keeps_ite ?_ ?_
    | with_reducible refine keeps_ite_fst ?_ ?_
    | with_reducible refine keeps_pair (by assumption) ?_
    | split
    | fail_if_no_progress extract_lets
    | dsimp +zetaDelta only)

theorem keeps_dropBeat {P : Nat} {s u : State} {a1 a2} (hP : Fits 0x40000000000000000000000000000000000000000000000000000000000000000000000000000000 P) (h : Keeps P s u) :
    Keeps P s (State.dropBeat u a1 a2) := by
  unfold State.dropBeat
  repeat' (first
    | with_reducible exact h
    | with_reducible assumption
    | dsimp -zeta only
    | with_reducible refine keeps_setChan (hP.sub rfl) ?_
    | intro _
    | with_reducible refine keeps_ite ?_ ?_
    | with_reducible refine keeps_ite_fst ?_ ?_
    | with_reducible refine keeps_pair (by assumption) ?_
    | split
    | fail_if_no_progress extract_lets
    | dsimp +zetaDelta only)

theorem keeps_reportDrops {P : Nat} {s u : State} {a1} (hP : Fits 0x40188000000000000000000012068000000000000000000000000000000000000000000000000000 P) (h : Keeps P s u) :
    Keeps P s (State.reportDrops u a1) := by
  unfold State.reportDrops
  repeat' (first
    | with_reducible exact h
    | with_reducible assumption
    | dsimp -zeta only
    | with_reducible refine keeps_memEvent (hP.sub rfl) ?_
    | with_reducible refine keeps_setChan (hP.sub rfl) ?_
    | with_reducible refine keeps_foldl ?_ ?_
    | with_reducible refine keeps_foldl_fst ?_ ?_
    | intro _
    | with_reducible refine keeps_ite ?_ ?_
    | with_reducible refine keeps_ite_fst ?_ ?_
    | with_reducible refine keeps_pair (by assumption) ?_
    | split
    | fail_if_no_progress extract_lets
    | dsimp +zetaDelta only)

theorem keeps_offerBeat {P : Nat} {s u : State} {a1 a2 a3 a4 a5} (hP : Fits 0x806059a000000000300000000012068000000000001402100000000000000000000000000000000000 P) (h : Keeps P s u) :
    Keeps P s (State.offerBeat u a1 a2 a3 a4 a5) := by
  unfold State.offerBeat
  repeat' (first
    | with_reducible exact h
    | with_reducible assumption
    | dsimp -zeta only
    | with_reducible refine keeps_grantReq (hP.sub rfl) ?_
    | with_reducible refine keeps_dropBeat (hP.sub rfl) ?_
    | with_reducible refine keeps_wakeMem (hP.sub rfl) ?_
    | with_reducible refine keeps_setChan (hP.sub rfl) ?_
    | intro _
    | with_reducible refine keeps_ite ?_ ?_
    | with_reducible refine keeps_ite_fst ?_ ?_
    | with_reducible refine keeps_pair (by assumption) ?_
    | split
    | fail_if_no_progress extract_lets
    | dsimp +zetaDelta only)

theorem keeps_writeBeatAt {P : Nat} {s u : State} {a1 a2 a3 a4} (hP : Fits 0x806059a000000000300000000012068000000000001402100000000000000000000000000000000000 P) (h : Keeps P s u) :
    Keeps P s (State.writeBeatAt u a1 a2 a3 a4) := by
  unfold State.writeBeatAt
  repeat' (first
    | with_reducible exact h
    | with_reducible assumption
    | dsimp -zeta only
    | with_reducible refine keeps_limitClassA (hP.sub rfl) ?_
    | with_reducible refine keeps_decodeError (hP.sub rfl) ?_
    | with_reducible refine keeps_offerBeat (hP.sub rfl) ?_
    | intro _
    | with_reducible refine keeps_ite ?_ ?_
    | with_reducible refine keeps_ite_fst ?_ ?_
    | with_reducible refine keeps_pair (by assumption) ?_
    | split
    | fail_if_no_progress extract_lets
    | dsimp +zetaDelta only)

theorem keeps_writeBeats {P : Nat} {s u : State} {a1 a2 a3 a4 a5} (hP : Fits 0x806059a000000000300000000012068000000000001402100000000000000000000000000000000000 P) (h : Keeps P s u) :
    Keeps P s (State.writeBeats u a1 a2 a3 a4 a5) := by
  induction a5 generalizing u a1 a2 a3 a4 with
  | zero =>
    unfold State.writeBeats
    repeat' (first
      | with_reducible exact h
      | with_reducible assumption
      | dsimp -zeta only
      | with_reducible refine keeps_writeBeatAt (hP.sub rfl) ?_
      | intro _
      | with_reducible refine keeps_ite ?_ ?_
      | with_reducible refine keeps_ite_fst ?_ ?_
      | with_reducible refine keeps_pair (by assumption) ?_
      | split
      | fail_if_no_progress extract_lets
      | dsimp +zetaDelta only)
  | succ n ih =>
    unfold State.writeBeats
    repeat' (first
      | with_reducible exact h
      | with_reducible assumption
      | dsimp -zeta only
      | with_reducible apply ih
      | with_reducible refine keeps_writeBeatAt (hP.sub rfl) ?_
      | intro _
      | with_reducible refine keeps_ite ?_ ?_
      | with_reducible refine keeps_ite_fst ?_ ?_
      | with_reducible refine keeps_pair (by assumption) ?_
      | split
      | fail_if_no_progress extract_lets
      | dsimp +zetaDelta only)

theorem keeps_hbmWrite {P : Nat} {s u : State} {a1 a2 a3 a4} (hP : Fits 0x806059a000000000300000000012068000000000001402100000000000000000000000000000000000 P) (h : Keeps P s u) :
    Keeps P s (State.hbmWrite u a1 a2 a3 a4) := by
  unfold State.hbmWrite
  repeat' (first
    | with_reducible exact h
    | with_reducible assumption
    | dsimp -zeta only
    | with_reducible refine keeps_reportDrops (hP.sub rfl) ?_
    | with_reducible refine keeps_writeBeats (hP.sub rfl) ?_
    | intro _
    | with_reducible refine keeps_ite ?_ ?_
    | with_reducible refine keeps_ite_fst ?_ ?_
    | with_reducible refine keeps_pair (by assumption) ?_
    | split
    | fail_if_no_progress extract_lets
    | dsimp +zetaDelta only)

theorem keeps_settleWrites {P : Nat} {s u : State} (hP : Fits 0x806059b00000000030000000001206800000000000140a100000000000000000000000000000000000 P) (h : Keeps P s u) :
    Keeps P s (State.settleWrites u) := by
  unfold State.settleWrites
  repeat' (first
    | with_reducible exact h
    | with_reducible assumption
    | dsimp -zeta only
    | with_reducible refine keeps_acceptAll (hP.sub rfl) ?_
    | with_reducible refine keeps_memReady (hP.sub rfl) ?_
    | intro _
    | with_reducible refine keeps_ite ?_ ?_
    | with_reducible refine keeps_ite_fst ?_ ?_
    | with_reducible refine keeps_pair (by assumption) ?_
    | split
    | fail_if_no_progress extract_lets
    | dsimp +zetaDelta only)

theorem keeps_offerSpills {P : Nat} {s u : State} (hP : Fits 0x806059a000000000300000000012068000000000001402100000000000000000000000000000000000 P) (h : Keeps P s u) :
    Keeps P s (State.offerSpills u) := by
  unfold State.offerSpills
  repeat' (first
    | with_reducible exact h
    | with_reducible assumption
    | dsimp -zeta only
    | with_reducible refine keeps_hbmWrite (hP.sub rfl) ?_
    | with_reducible refine keeps_foldl ?_ ?_
    | with_reducible refine keeps_foldl_fst ?_ ?_
    | intro _
    | with_reducible refine keeps_ite ?_ ?_
    | with_reducible refine keeps_ite_fst ?_ ?_
    | with_reducible refine keeps_pair (by assumption) ?_
    | split
    | fail_if_no_progress extract_lets
    | fail_if_no_progress with_reducible refine keeps_depot hP rfl ?_
    | dsimp +zetaDelta only)

theorem keeps_spillRead {P : Nat} {s u : State} {a1 a2} (hP : Fits 0x806059b00000000030000000001206800000000000140a100000000000000000000000000000000000 P) (h : Keeps P s u) :
    Keeps P s (State.spillRead u a1 a2).1 := by
  unfold State.spillRead
  repeat' (first
    | with_reducible exact h
    | with_reducible assumption
    | dsimp -zeta only
    | with_reducible refine keeps_offerSpills (hP.sub rfl) ?_
    | with_reducible refine keeps_hbmRead (hP.sub rfl) ?_
    | with_reducible refine keeps_hbmRead_eq (by assumption) (hP.sub rfl) ?_
    | intro _
    | with_reducible refine keeps_ite ?_ ?_
    | with_reducible refine keeps_ite_fst ?_ ?_
    | with_reducible refine keeps_pair (by assumption) ?_
    | split
    | fail_if_no_progress extract_lets
    | dsimp +zetaDelta only)

theorem keeps_spillRead_eq {P : Nat} {s u v : State} {a1 a2} {x} (he : State.spillRead u a1 a2 = (v, x)) (hP : Fits 0x806059b00000000030000000001206800000000000140a100000000000000000000000000000000000 P)
    (h : Keeps P s u) : Keeps P s v := by
  have h1 := keeps_spillRead (a1 := a1) (a2 := a2) hP h
  rw [he] at h1
  exact h1

theorem keeps_qRefill {P : Nat} {s u : State} {a1 a2} (hP : Fits 0x806059b00000000030000000001206800000000000140a100000000000000000000000000000000000 P) (h : Keeps P s u) :
    Keeps P s (State.qRefill u a1 a2) := by
  unfold State.qRefill
  repeat' (first
    | with_reducible exact h
    | with_reducible assumption
    | dsimp -zeta only
    | with_reducible refine keeps_spillRead (hP.sub rfl) ?_
    | with_reducible refine keeps_spillRead_eq (by assumption) (hP.sub rfl) ?_
    | with_reducible refine keeps_countFix (hP.sub rfl) ?_
    | with_reducible refine keeps_setDq (hP.sub rfl) ?_
    | with_reducible refine keeps_bump hP rfl ?_
    | intro _
    | with_reducible refine keeps_ite ?_ ?_
    | with_reducible refine keeps_ite_fst ?_ ?_
    | with_reducible refine keeps_pair (by assumption) ?_
    | split
    | fail_if_no_progress extract_lets
    | dsimp +zetaDelta only)

theorem keeps_execSpillRefill {P : Nat} {u t : State} {a0 a1} (he : execSpillRefill a0 a1 u = .next t) (hP : Fits 0x806059b00000000030000000001206800000000000140a100000000000000000000000000000000000 P) : Keeps P u t := by
  unfold execSpillRefill at he
  injection he with he
  subst he
  repeat' (first
    | with_reducible exact Keeps.refl P u
    | with_reducible assumption
    | dsimp -zeta only
    | with_reducible refine keeps_qRefill (hP.sub rfl) ?_
    | intro _
    | with_reducible refine keeps_ite ?_ ?_
    | with_reducible refine keeps_ite_fst ?_ ?_
    | with_reducible refine keeps_pair (by assumption) ?_
    | split
    | fail_if_no_progress extract_lets
    | dsimp +zetaDelta only)

end Sys2Proof.Machine
end

