-- ==== Sys2Proof/Laws/KeepsChart.lean ====
section
/-! SUPPORT. What each operation of Machine/Chart.lean may change, and that it keeps the invariant: one law for each. -/

set_option linter.unreachableTactic false
set_option linter.unusedTactic false

namespace Sys2Proof.Machine

theorem keeps_walkKeep {P : Nat} {s u : State} {a1 a2 a3 a4} (hP : Fits 0x80000000000000000000000000000000000000000000000000000000000000000000000000000000 P) (h : Keeps P s u) :
    Keeps P s (State.walkKeep u a1 a2 a3 a4) := by
  unfold State.walkKeep
  repeat' (first
    | with_reducible exact h
    | with_reducible assumption
    | dsimp -zeta only
    | intro _
    | with_reducible refine keeps_ite ?_ ?_
    | with_reducible refine keeps_ite_fst ?_ ?_
    | with_reducible refine keeps_pair (by assumption) ?_
    | split
    | fail_if_no_progress extract_lets
    | fail_if_no_progress with_reducible refine keeps_chart hP rfl ?_
    | dsimp +zetaDelta only)

theorem keeps_walkEntry {P : Nat} {s u : State} {a1 a2 a3 a4 a5} (hP : Fits 0x806059b00000000030000000001206800000000000140a100000000000000000000000000000000000 P) (h : Keeps P s u) :
    Keeps P s (State.walkEntry u a1 a2 a3 a4 a5).1 := by
  unfold State.walkEntry
  repeat' (first
    | with_reducible exact h
    | with_reducible assumption
    | dsimp -zeta only
    | with_reducible refine keeps_hbmRead64 (hP.sub rfl) ?_
    | with_reducible refine keeps_hbmRead64_eq (by assumption) (hP.sub rfl) ?_
    | intro _
    | with_reducible refine keeps_ite ?_ ?_
    | with_reducible refine keeps_ite_fst ?_ ?_
    | with_reducible refine keeps_pair (by assumption) ?_
    | split
    | fail_if_no_progress extract_lets
    | dsimp +zetaDelta only)

theorem keeps_walkEntry_eq {P : Nat} {s u v : State} {a1 a2 a3 a4 a5} {x} (he : State.walkEntry u a1 a2 a3 a4 a5 = (v, x)) (hP : Fits 0x806059b00000000030000000001206800000000000140a100000000000000000000000000000000000 P)
    (h : Keeps P s u) : Keeps P s v := by
  have h1 := keeps_walkEntry (a1 := a1) (a2 := a2) (a3 := a3) (a4 := a4) (a5 := a5) hP h
  rw [he] at h1
  exact h1

theorem keeps_walkFrom {P : Nat} {s u : State} {a1 a2 a3 a4 a5 a6} (hP : Fits 0x80e059b00000000030000000001206800000000000140a100000000000000000000000000000000000 P) (h : Keeps P s u) :
    Keeps P s (State.walkFrom u a1 a2 a3 a4 a5 a6).1 := by
  induction a6 generalizing u a1 a2 a3 a4 a5 with
  | zero =>
    unfold State.walkFrom
    repeat' (first
      | with_reducible exact h
      | with_reducible assumption
      | dsimp -zeta only
      | with_reducible refine keeps_walkEntry (hP.sub rfl) ?_
      | with_reducible refine keeps_walkEntry_eq (by assumption) (hP.sub rfl) ?_
      | with_reducible refine keeps_walkKeep (hP.sub rfl) ?_
      | intro _
      | with_reducible refine keeps_ite ?_ ?_
      | with_reducible refine keeps_ite_fst ?_ ?_
      | with_reducible refine keeps_pair (by assumption) ?_
      | split
      | fail_if_no_progress extract_lets
      | dsimp +zetaDelta only)
  | succ n ih =>
    unfold State.walkFrom
    repeat' (first
      | with_reducible exact h
      | with_reducible assumption
      | dsimp -zeta only
      | with_reducible apply ih
      | with_reducible refine keeps_pair (w := State.walkFrom _ _ _ _ _ _ _) (by assumption) ?_
      | with_reducible refine keeps_walkEntry (hP.sub rfl) ?_
      | with_reducible refine keeps_walkEntry_eq (by assumption) (hP.sub rfl) ?_
      | with_reducible refine keeps_walkKeep (hP.sub rfl) ?_
      | intro _
      | with_reducible refine keeps_ite ?_ ?_
      | with_reducible refine keeps_ite_fst ?_ ?_
      | with_reducible refine keeps_pair (by assumption) ?_
      | split
      | fail_if_no_progress extract_lets
      | dsimp +zetaDelta only)

theorem keeps_walkFrom_eq {P : Nat} {s u v : State} {a1 a2 a3 a4 a5 a6} {x} (he : State.walkFrom u a1 a2 a3 a4 a5 a6 = (v, x)) (hP : Fits 0x80e059b00000000030000000001206800000000000140a100000000000000000000000000000000000 P)
    (h : Keeps P s u) : Keeps P s v := by
  have h1 := keeps_walkFrom (a1 := a1) (a2 := a2) (a3 := a3) (a4 := a4) (a5 := a5) (a6 := a6) hP h
  rw [he] at h1
  exact h1

theorem keeps_walk {P : Nat} {s u : State} {a1 a2 a3} (hP : Fits 0x80e059b00000000030000000001206800000000000140a100000000000000000000000000000000000 P) (h : Keeps P s u) :
    Keeps P s (State.walk u a1 a2 a3).1 := by
  unfold State.walk
  repeat' (first
    | with_reducible exact h
    | with_reducible assumption
    | dsimp -zeta only
    | with_reducible refine keeps_walkFrom (hP.sub rfl) ?_
    | with_reducible refine keeps_walkFrom_eq (by assumption) (hP.sub rfl) ?_
    | intro _
    | with_reducible refine keeps_ite ?_ ?_
    | with_reducible refine keeps_ite_fst ?_ ?_
    | with_reducible refine keeps_pair (by assumption) ?_
    | split
    | fail_if_no_progress extract_lets
    | dsimp +zetaDelta only)

theorem keeps_walk_eq {P : Nat} {s u v : State} {a1 a2 a3} {x} (he : State.walk u a1 a2 a3 = (v, x)) (hP : Fits 0x80e059b00000000030000000001206800000000000140a100000000000000000000000000000000000 P)
    (h : Keeps P s u) : Keeps P s v := by
  have h1 := keeps_walk (a1 := a1) (a2 := a2) (a3 := a3) hP h
  rw [he] at h1
  exact h1

theorem keeps_askWalks {P : Nat} {s u : State} {a1} (hP : Fits 0x80000000000000000000000000000000000000000000000000000000000000000000000000000000 P) (h : Keeps P s u) :
    Keeps P s (State.askWalks u a1) := by
  unfold State.askWalks
  repeat' (first
    | with_reducible exact h
    | with_reducible assumption
    | dsimp -zeta only
    | intro _
    | with_reducible refine keeps_ite ?_ ?_
    | with_reducible refine keeps_ite_fst ?_ ?_
    | with_reducible refine keeps_pair (by assumption) ?_
    | split
    | fail_if_no_progress extract_lets
    | fail_if_no_progress with_reducible refine keeps_chart hP rfl ?_
    | dsimp +zetaDelta only)

theorem keeps_endWalks {P : Nat} {s u : State} {a1} (hP : Fits 0x80000000000000000000000000000000000000000000000000000000000000000000000000000000 P) (h : Keeps P s u) :
    Keeps P s (State.endWalks u a1) := by
  unfold State.endWalks
  repeat' (first
    | with_reducible exact h
    | with_reducible assumption
    | dsimp -zeta only
    | intro _
    | with_reducible refine keeps_ite ?_ ?_
    | with_reducible refine keeps_ite_fst ?_ ?_
    | with_reducible refine keeps_pair (by assumption) ?_
    | split
    | fail_if_no_progress extract_lets
    | fail_if_no_progress with_reducible refine keeps_chart hP rfl ?_
    | dsimp +zetaDelta only)

theorem keeps_tlbFill {P : Nat} {s u : State} {a1 a2 a3 a4 a5 a6} (hP : Fits 0x80000000000000000000000000000000000000000000000000000000000000000000000000000000 P) (h : Keeps P s u) :
    Keeps P s (State.tlbFill u a1 a2 a3 a4 a5 a6) := by
  unfold State.tlbFill
  repeat' (first
    | with_reducible exact h
    | with_reducible assumption
    | dsimp -zeta only
    | intro _
    | with_reducible refine keeps_ite ?_ ?_
    | with_reducible refine keeps_ite_fst ?_ ?_
    | with_reducible refine keeps_pair (by assumption) ?_
    | split
    | fail_if_no_progress extract_lets
    | fail_if_no_progress with_reducible refine keeps_chart hP rfl ?_
    | dsimp +zetaDelta only)

theorem keeps_setSlot {P : Nat} {s u : State} {a1 a2} (hP : Fits 0x80000000000000000000000000000000000000000000000000000000000000000000000000000000 P) (h : Keeps P s u) :
    Keeps P s (State.setSlot u a1 a2) := by
  unfold State.setSlot
  repeat' (first
    | with_reducible exact h
    | with_reducible assumption
    | dsimp -zeta only
    | intro _
    | with_reducible refine keeps_ite ?_ ?_
    | with_reducible refine keeps_ite_fst ?_ ?_
    | with_reducible refine keeps_pair (by assumption) ?_
    | split
    | fail_if_no_progress extract_lets
    | fail_if_no_progress with_reducible refine keeps_chart hP rfl ?_
    | dsimp +zetaDelta only)

theorem keeps_postFault {P : Nat} {s u : State} {a1 a2} (hP : Fits 0x58a000000000000000000012068000000000000000000000000000000000000000000000000000 P) (h : Keeps P s u) :
    Keeps P s (State.postFault u a1 a2) := by
  unfold State.postFault
  repeat' (first
    | with_reducible exact h
    | with_reducible assumption
    | dsimp -zeta only
    | with_reducible refine keeps_countFix (hP.sub rfl) ?_
    | with_reducible refine keeps_report (hP.sub rfl) ?_
    | with_reducible refine keeps_fresh (hP.sub rfl) ?_
    | with_reducible refine keeps_fresh_eq (by assumption) (hP.sub rfl) ?_
    | with_reducible refine keeps_id ?_
    | intro _
    | with_reducible refine keeps_ite ?_ ?_
    | with_reducible refine keeps_ite_fst ?_ ?_
    | with_reducible refine keeps_pair (by assumption) ?_
    | split
    | fail_if_no_progress extract_lets
    | dsimp +zetaDelta only)

theorem keeps_missFault {P : Nat} {s u : State} {a1} (hP : Fits 0x80000000000000000000000000000000000000000000000000000000000000000000000000000000 P) (h : Keeps P s u) :
    Keeps P s (State.missFault u a1) := by
  unfold State.missFault
  repeat' (first
    | with_reducible exact h
    | with_reducible assumption
    | dsimp -zeta only
    | intro _
    | with_reducible refine keeps_ite ?_ ?_
    | with_reducible refine keeps_ite_fst ?_ ?_
    | with_reducible refine keeps_pair (by assumption) ?_
    | split
    | fail_if_no_progress extract_lets
    | fail_if_no_progress with_reducible refine keeps_chart hP rfl ?_
    | dsimp +zetaDelta only)

theorem keeps_raiseFault {P : Nat} {s u : State} {a1} (hP : Fits 0x8058a000000000000000000012068000000010000000000000000000000000000000000000000000 P) (h : Keeps P s u) :
    Keeps P s (State.raiseFault u a1).1 := by
  unfold State.raiseFault
  repeat' (first
    | with_reducible exact h
    | with_reducible assumption
    | dsimp -zeta only
    | with_reducible refine keeps_postFault (hP.sub rfl) ?_
    | with_reducible refine keeps_missFault (hP.sub rfl) ?_
    | with_reducible refine keeps_setSlot (hP.sub rfl) ?_
    | with_reducible refine keeps_bump hP rfl ?_
    | intro _
    | with_reducible refine keeps_ite ?_ ?_
    | with_reducible refine keeps_ite_fst ?_ ?_
    | with_reducible refine keeps_pair (by assumption) ?_
    | split
    | fail_if_no_progress extract_lets
    | fail_if_no_progress with_reducible refine keeps_chart hP rfl ?_
    | dsimp +zetaDelta only)

theorem keeps_raiseFault_eq {P : Nat} {s u v : State} {a1} {x} (he : State.raiseFault u a1 = (v, x)) (hP : Fits 0x8058a000000000000000000012068000000010000000000000000000000000000000000000000000 P)
    (h : Keeps P s u) : Keeps P s v := by
  have h1 := keeps_raiseFault (a1 := a1) hP h
  rw [he] at h1
  exact h1

theorem keeps_recordFault {P : Nat} {s u : State} {a1} (hP : Fits 0x58a000000000000000000012068000000000000000000000000000000000000000000000000000 P) (h : Keeps P s u) :
    Keeps P s (State.recordFault u a1) := by
  unfold State.recordFault
  repeat' (first
    | with_reducible exact h
    | with_reducible assumption
    | dsimp -zeta only
    | with_reducible refine keeps_postFault (hP.sub rfl) ?_
    | intro _
    | with_reducible refine keeps_ite ?_ ?_
    | with_reducible refine keeps_ite_fst ?_ ?_
    | with_reducible refine keeps_pair (by assumption) ?_
    | split
    | fail_if_no_progress extract_lets
    | dsimp +zetaDelta only)

theorem keeps_lateFaults {P : Nat} {s u : State} {a1} (hP : Fits 0x80000000000000000000000000000000000010000000000000000000000000000000000000000000 P) (h : Keeps P s u) :
    Keeps P s (State.lateFaults u a1) := by
  unfold State.lateFaults
  repeat' (first
    | with_reducible exact h
    | with_reducible assumption
    | dsimp -zeta only
    | with_reducible refine keeps_setSlot (hP.sub rfl) ?_
    | with_reducible refine keeps_bump hP rfl ?_
    | with_reducible refine keeps_foldl ?_ ?_
    | with_reducible refine keeps_foldl_fst ?_ ?_
    | intro _
    | with_reducible refine keeps_ite ?_ ?_
    | with_reducible refine keeps_ite_fst ?_ ?_
    | with_reducible refine keeps_pair (by assumption) ?_
    | split
    | fail_if_no_progress extract_lets
    | dsimp +zetaDelta only)

theorem keeps_walkMissed {P : Nat} {s u : State} {a1} (hP : Fits 0x80000000000000000000000000000000000000000000000000000000000000000000000000000000 P) (h : Keeps P s u) :
    Keeps P s (State.walkMissed u a1) := by
  unfold State.walkMissed
  repeat' (first
    | with_reducible exact h
    | with_reducible assumption
    | dsimp -zeta only
    | with_reducible refine keeps_askWalks (hP.sub rfl) ?_
    | intro _
    | with_reducible refine keeps_ite ?_ ?_
    | with_reducible refine keeps_ite_fst ?_ ?_
    | with_reducible refine keeps_pair (by assumption) ?_
    | split
    | fail_if_no_progress extract_lets
    | fail_if_no_progress with_reducible refine keeps_chart hP rfl ?_
    | dsimp +zetaDelta only)

theorem keeps_clearFault {P : Nat} {s u : State} {a1 a2} (hP : Fits 0x80000000000000000000000000000000000200000000000000000000000000000000000000000000 P) (h : Keeps P s u) :
    Keeps P s (State.clearFault u a1 a2) := by
  unfold State.clearFault
  repeat' (first
    | with_reducible exact h
    | with_reducible assumption
    | dsimp -zeta only
    | with_reducible refine keeps_walkMissed (hP.sub rfl) ?_
    | with_reducible refine keeps_setSlot (hP.sub rfl) ?_
    | with_reducible refine keeps_fput hP rfl ?_
    | intro _
    | with_reducible refine keeps_ite ?_ ?_
    | with_reducible refine keeps_ite_fst ?_ ?_
    | with_reducible refine keeps_pair (by assumption) ?_
    | split
    | fail_if_no_progress extract_lets
    | dsimp +zetaDelta only)

theorem keeps_countWalk {P : Nat} {s u : State} {a1} (hP : Fits 0x20000000000000000000000000000000000000000 P) (h : Keeps P s u) :
    Keeps P s (State.countWalk u a1) := by
  unfold State.countWalk
  repeat' (first
    | with_reducible exact h
    | with_reducible assumption
    | dsimp -zeta only
    | with_reducible refine keeps_bump hP rfl ?_
    | intro _
    | with_reducible refine keeps_ite ?_ ?_
    | with_reducible refine keeps_ite_fst ?_ ?_
    | with_reducible refine keeps_pair (by assumption) ?_
    | split
    | fail_if_no_progress extract_lets
    | dsimp +zetaDelta only)

theorem keeps_suspendDma {P : Nat} {s u : State} {a1 a2} (hP : Fits 0x18058a000000000000000000012068000000a10000000000000000000000000000000000000000000 P) (h : Keeps P s u) :
    Keeps P s (State.suspendDma u a1 a2) := by
  unfold State.suspendDma
  repeat' (first
    | with_reducible exact h
    | with_reducible assumption
    | dsimp -zeta only
    | with_reducible refine keeps_raiseFault (hP.sub rfl) ?_
    | with_reducible refine keeps_raiseFault_eq (by assumption) (hP.sub rfl) ?_
    | with_reducible refine keeps_countFix (hP.sub rfl) ?_
    | with_reducible refine keeps_fput hP rfl ?_
    | with_reducible refine keeps_bump hP rfl ?_
    | intro _
    | with_reducible refine keeps_ite ?_ ?_
    | with_reducible refine keeps_ite_fst ?_ ?_
    | with_reducible refine keeps_pair (by assumption) ?_
    | split
    | fail_if_no_progress extract_lets
    | fail_if_no_progress with_reducible refine keeps_dma hP rfl ?_
    | dsimp +zetaDelta only)

theorem keeps_walkFaults {P : Nat} {s u : State} {a1 a2 a3 a4} (hP : Fits 0x18058a000000000000000000012068000000a10000000000000000000000000000000000000000000 P) (h : Keeps P s u) :
    Keeps P s (State.walkFaults u a1 a2 a3 a4) := by
  unfold State.walkFaults
  repeat' (first
    | with_reducible exact h
    | with_reducible assumption
    | dsimp -zeta only
    | with_reducible refine keeps_raiseFault (hP.sub rfl) ?_
    | with_reducible refine keeps_raiseFault_eq (by assumption) (hP.sub rfl) ?_
    | with_reducible refine keeps_suspendDma (hP.sub rfl) ?_
    | intro _
    | with_reducible refine keeps_ite ?_ ?_
    | with_reducible refine keeps_ite_fst ?_ ?_
    | with_reducible refine keeps_pair (by assumption) ?_
    | split
    | fail_if_no_progress extract_lets
    | dsimp +zetaDelta only)

theorem keeps_completeWalk {P : Nat} {s u : State} {a1} (hP : Fits 0x81e059b000000000300000000012068000000a1002140a100000000000000000000000000000000000 P) (h : Keeps P s u) :
    Keeps P s (State.completeWalk u a1) := by
  unfold State.completeWalk
  repeat' (first
    | with_reducible exact h
    | with_reducible assumption
    | dsimp -zeta only
    | with_reducible refine keeps_walkFaults (hP.sub rfl) ?_
    | with_reducible refine keeps_countWalk (hP.sub rfl) ?_
    | with_reducible refine keeps_endWalks (hP.sub rfl) ?_
    | with_reducible refine keeps_tlbFill (hP.sub rfl) ?_
    | with_reducible refine keeps_walk (hP.sub rfl) ?_
    | with_reducible refine keeps_walk_eq (by assumption) (hP.sub rfl) ?_
    | with_reducible refine keeps_bump hP rfl ?_
    | intro _
    | with_reducible refine keeps_ite ?_ ?_
    | with_reducible refine keeps_ite_fst ?_ ?_
    | with_reducible refine keeps_pair (by assumption) ?_
    | split
    | fail_if_no_progress extract_lets
    | dsimp +zetaDelta only)

theorem keeps_awaitIssue {P : Nat} {s u : State} {a1 a2} (hP : Fits 0x81e059b000000000300000000012068000000a1002140a100000000000000000000000000000000000 P) (h : Keeps P s u) :
    Keeps P s (State.awaitIssue u a1 a2) := by
  induction a2 generalizing u a1 with
  | zero =>
    unfold State.awaitIssue
    repeat' (first
      | with_reducible exact h
      | with_reducible assumption
      | dsimp -zeta only
      | with_reducible refine keeps_completeWalk (hP.sub rfl) ?_
      | intro _
      | with_reducible refine keeps_ite ?_ ?_
      | with_reducible refine keeps_ite_fst ?_ ?_
      | with_reducible refine keeps_pair (by assumption) ?_
      | split
      | fail_if_no_progress extract_lets
      | dsimp +zetaDelta only)
  | succ n ih =>
    unfold State.awaitIssue
    repeat' (first
      | with_reducible exact h
      | with_reducible assumption
      | dsimp -zeta only
      | with_reducible apply ih
      | with_reducible refine keeps_completeWalk (hP.sub rfl) ?_
      | intro _
      | with_reducible refine keeps_ite ?_ ?_
      | with_reducible refine keeps_ite_fst ?_ ?_
      | with_reducible refine keeps_pair (by assumption) ?_
      | split
      | fail_if_no_progress extract_lets
      | dsimp +zetaDelta only)

theorem keeps_issueWalk {P : Nat} {s u : State} {a1} (hP : Fits 0x81e059b000000000300000000012068000000a1002140a100000000000000000000000000000000000 P) (h : Keeps P s u) :
    Keeps P s (State.issueWalk u a1) := by
  unfold State.issueWalk
  repeat' (first
    | with_reducible exact h
    | with_reducible assumption
    | dsimp -zeta only
    | with_reducible refine keeps_awaitIssue (hP.sub rfl) ?_
    | with_reducible refine keeps_askWalks (hP.sub rfl) ?_
    | intro _
    | with_reducible refine keeps_ite ?_ ?_
    | with_reducible refine keeps_ite_fst ?_ ?_
    | with_reducible refine keeps_pair (by assumption) ?_
    | split
    | fail_if_no_progress extract_lets
    | dsimp +zetaDelta only)

theorem keeps_translate {P : Nat} {s u : State} {a1 a2 a3 a4} (hP : Fits 0x81e059b000000000300000000012068000000a1002140a100000000000000000000000000000000000 P) (h : Keeps P s u) :
    Keeps P s (State.translate u a1 a2 a3 a4).1 := by
  unfold State.translate
  repeat' (first
    | with_reducible exact h
    | with_reducible assumption
    | dsimp -zeta only
    | with_reducible refine keeps_issueWalk (hP.sub rfl) ?_
    | with_reducible refine keeps_countWalk (hP.sub rfl) ?_
    | with_reducible refine keeps_endWalks (hP.sub rfl) ?_
    | with_reducible refine keeps_tlbFill (hP.sub rfl) ?_
    | with_reducible refine keeps_walk (hP.sub rfl) ?_
    | with_reducible refine keeps_walk_eq (by assumption) (hP.sub rfl) ?_
    | intro _
    | with_reducible refine keeps_ite ?_ ?_
    | with_reducible refine keeps_ite_fst ?_ ?_
    | with_reducible refine keeps_pair (by assumption) ?_
    | split
    | fail_if_no_progress extract_lets
    | dsimp +zetaDelta only)

theorem keeps_translate_eq {P : Nat} {s u v : State} {a1 a2 a3 a4} {x} (he : State.translate u a1 a2 a3 a4 = (v, x)) (hP : Fits 0x81e059b000000000300000000012068000000a1002140a100000000000000000000000000000000000 P)
    (h : Keeps P s u) : Keeps P s v := by
  have h1 := keeps_translate (a1 := a1) (a2 := a2) (a3 := a3) (a4 := a4) hP h
  rw [he] at h1
  exact h1

theorem keeps_forget {P : Nat} {s u : State} {a1 a2 a3} (hP : Fits 0x80000000000000000000000000000000000000000000000000000000000000000000000000000000 P) (h : Keeps P s u) :
    Keeps P s (State.forget u a1 a2 a3) := by
  unfold State.forget
  repeat' (first
    | with_reducible exact h
    | with_reducible assumption
    | dsimp -zeta only
    | intro _
    | with_reducible refine keeps_ite ?_ ?_
    | with_reducible refine keeps_ite_fst ?_ ?_
    | with_reducible refine keeps_pair (by assumption) ?_
    | split
    | fail_if_no_progress extract_lets
    | fail_if_no_progress with_reducible refine keeps_chart hP rfl ?_
    | dsimp +zetaDelta only)

theorem keeps_retryFault {P : Nat} {s u : State} {a1} (hP : Fits 0x81e059b000000000300000000012068000000a1002140a100000000000000000000000000000000000 P) (h : Keeps P s u) :
    Keeps P s (State.retryFault u a1).1 := by
  unfold State.retryFault
  repeat' (first
    | with_reducible exact h
    | with_reducible assumption
    | dsimp -zeta only
    | with_reducible refine keeps_clearFault (hP.sub rfl) ?_
    | with_reducible refine keeps_translate (hP.sub rfl) ?_
    | with_reducible refine keeps_translate_eq (by assumption) (hP.sub rfl) ?_
    | with_reducible refine keeps_setSlot (hP.sub rfl) ?_
    | with_reducible refine keeps_forget (hP.sub rfl) ?_
    | intro _
    | with_reducible refine keeps_ite ?_ ?_
    | with_reducible refine keeps_ite_fst ?_ ?_
    | with_reducible refine keeps_pair (by assumption) ?_
    | split
    | fail_if_no_progress extract_lets
    | dsimp +zetaDelta only)

theorem keeps_retryFault_eq {P : Nat} {s u v : State} {a1} {x} (he : State.retryFault u a1 = (v, x)) (hP : Fits 0x81e059b000000000300000000012068000000a1002140a100000000000000000000000000000000000 P)
    (h : Keeps P s u) : Keeps P s v := by
  have h1 := keeps_retryFault (a1 := a1) hP h
  rw [he] at h1
  exact h1

theorem keeps_retryRange {P : Nat} {s u : State} {a1 a2 a3} (hP : Fits 0x81e059b000000000300000000012068000000a1002140a100000000000000000000000000000000000 P) (h : Keeps P s u) :
    Keeps P s (State.retryRange u a1 a2 a3) := by
  unfold State.retryRange
  repeat' (first
    | with_reducible exact h
    | with_reducible assumption
    | dsimp -zeta only
    | with_reducible refine keeps_retryFault (hP.sub rfl) ?_
    | with_reducible refine keeps_retryFault_eq (by assumption) (hP.sub rfl) ?_
    | with_reducible refine keeps_foldl ?_ ?_
    | with_reducible refine keeps_foldl_fst ?_ ?_
    | intro _
    | with_reducible refine keeps_ite ?_ ?_
    | with_reducible refine keeps_ite_fst ?_ ?_
    | with_reducible refine keeps_pair (by assumption) ?_
    | split
    | fail_if_no_progress extract_lets
    | dsimp +zetaDelta only)

theorem keeps_tlbDrop {P : Nat} {s u : State} {a1 a2 a3} (hP : Fits 0x80000000000000000000000000000000000000000000000000000000000000000000000000000000 P) (h : Keeps P s u) :
    Keeps P s (State.tlbDrop u a1 a2 a3) := by
  unfold State.tlbDrop
  repeat' (first
    | with_reducible exact h
    | with_reducible assumption
    | dsimp -zeta only
    | intro _
    | with_reducible refine keeps_ite ?_ ?_
    | with_reducible refine keeps_ite_fst ?_ ?_
    | with_reducible refine keeps_pair (by assumption) ?_
    | split
    | fail_if_no_progress extract_lets
    | fail_if_no_progress with_reducible refine keeps_chart hP rfl ?_
    | dsimp +zetaDelta only)

theorem keeps_clearPilotFaults {P : Nat} {s u : State} {a1} (hP : Fits 0x80000000000000000000000000000000000000000000000000000000000000000000000000000000 P) (h : Keeps P s u) :
    Keeps P s (State.clearPilotFaults u a1) := by
  unfold State.clearPilotFaults
  repeat' (first
    | with_reducible exact h
    | with_reducible assumption
    | dsimp -zeta only
    | with_reducible refine keeps_setSlot (hP.sub rfl) ?_
    | with_reducible refine keeps_foldl ?_ ?_
    | with_reducible refine keeps_foldl_fst ?_ ?_
    | intro _
    | with_reducible refine keeps_ite ?_ ?_
    | with_reducible refine keeps_ite_fst ?_ ?_
    | with_reducible refine keeps_pair (by assumption) ?_
    | split
    | fail_if_no_progress extract_lets
    | dsimp +zetaDelta only)

theorem keeps_dvaReadPages {P : Nat} {s u : State} {a1 a2 a3 a4 a5 a6} (hP : Fits 0x81e059b000000000300000000012068000000a1002140a100000000000000000000000000000000000 P) (h : Keeps P s u) :
    Keeps P s (State.dvaReadPages u a1 a2 a3 a4 a5 a6).1 := by
  induction a6 generalizing u a1 a2 a3 a4 a5 with
  | zero =>
    unfold State.dvaReadPages
    repeat' (first
      | with_reducible exact h
      | with_reducible assumption
      | dsimp -zeta only
      | with_reducible refine keeps_translate (hP.sub rfl) ?_
      | with_reducible refine keeps_translate_eq (by assumption) (hP.sub rfl) ?_
      | with_reducible refine keeps_hbmRead (hP.sub rfl) ?_
      | with_reducible refine keeps_hbmRead_eq (by assumption) (hP.sub rfl) ?_
      | intro _
      | with_reducible refine keeps_ite ?_ ?_
      | with_reducible refine keeps_ite_fst ?_ ?_
      | with_reducible refine keeps_pair (by assumption) ?_
      | split
      | fail_if_no_progress extract_lets
      | dsimp +zetaDelta only)
  | succ n ih =>
    unfold State.dvaReadPages
    repeat' (first
      | with_reducible exact h
      | with_reducible assumption
      | dsimp -zeta only
      | with_reducible apply ih
      | with_reducible refine keeps_pair (w := State.dvaReadPages _ _ _ _ _ _ _) (by assumption) ?_
      | with_reducible refine keeps_translate (hP.sub rfl) ?_
      | with_reducible refine keeps_translate_eq (by assumption) (hP.sub rfl) ?_
      | with_reducible refine keeps_hbmRead (hP.sub rfl) ?_
      | with_reducible refine keeps_hbmRead_eq (by assumption) (hP.sub rfl) ?_
      | intro _
      | with_reducible refine keeps_ite ?_ ?_
      | with_reducible refine keeps_ite_fst ?_ ?_
      | with_reducible refine keeps_pair (by assumption) ?_
      | split
      | fail_if_no_progress extract_lets
      | dsimp +zetaDelta only)

theorem keeps_dvaReadPages_eq {P : Nat} {s u v : State} {a1 a2 a3 a4 a5 a6} {x} (he : State.dvaReadPages u a1 a2 a3 a4 a5 a6 = (v, x)) (hP : Fits 0x81e059b000000000300000000012068000000a1002140a100000000000000000000000000000000000 P)
    (h : Keeps P s u) : Keeps P s v := by
  have h1 := keeps_dvaReadPages (a1 := a1) (a2 := a2) (a3 := a3) (a4 := a4) (a5 := a5) (a6 := a6) hP h
  rw [he] at h1
  exact h1

theorem keeps_dvaRead {P : Nat} {s u : State} {a1 a2 a3 a4 a5} (hP : Fits 0x81e059b000000000300000000012068000000a1002140a100000000000000000000000000000000000 P) (h : Keeps P s u) :
    Keeps P s (State.dvaRead u a1 a2 a3 a4 a5).1 := by
  unfold State.dvaRead
  repeat' (first
    | with_reducible exact h
    | with_reducible assumption
    | dsimp -zeta only
    | with_reducible refine keeps_dvaReadPages (hP.sub rfl) ?_
    | with_reducible refine keeps_dvaReadPages_eq (by assumption) (hP.sub rfl) ?_
    | intro _
    | with_reducible refine keeps_ite ?_ ?_
    | with_reducible refine keeps_ite_fst ?_ ?_
    | with_reducible refine keeps_pair (by assumption) ?_
    | split
    | fail_if_no_progress extract_lets
    | dsimp +zetaDelta only)

theorem keeps_dvaRead_eq {P : Nat} {s u v : State} {a1 a2 a3 a4 a5} {x} (he : State.dvaRead u a1 a2 a3 a4 a5 = (v, x)) (hP : Fits 0x81e059b000000000300000000012068000000a1002140a100000000000000000000000000000000000 P)
    (h : Keeps P s u) : Keeps P s v := by
  have h1 := keeps_dvaRead (a1 := a1) (a2 := a2) (a3 := a3) (a4 := a4) (a5 := a5) hP h
  rw [he] at h1
  exact h1

theorem keeps_dvaSpan {P : Nat} {s u : State} {a1 a2 a3 a4 a5} (hP : Fits 0x81e059b000000000300000000012068000000a1002140a100000000000000000000000000000000000 P) (h : Keeps P s u) :
    Keeps P s (State.dvaSpan u a1 a2 a3 a4 a5).1 := by
  induction a5 generalizing u a1 a2 a3 a4 with
  | zero =>
    unfold State.dvaSpan
    repeat' (first
      | with_reducible exact h
      | with_reducible assumption
      | dsimp -zeta only
      | with_reducible refine keeps_translate (hP.sub rfl) ?_
      | with_reducible refine keeps_translate_eq (by assumption) (hP.sub rfl) ?_
      | intro _
      | with_reducible refine keeps_ite ?_ ?_
      | with_reducible refine keeps_ite_fst ?_ ?_
      | with_reducible refine keeps_pair (by assumption) ?_
      | split
      | fail_if_no_progress extract_lets
      | dsimp +zetaDelta only)
  | succ n ih =>
    unfold State.dvaSpan
    repeat' (first
      | with_reducible exact h
      | with_reducible assumption
      | dsimp -zeta only
      | with_reducible apply ih
      | with_reducible refine keeps_pair (w := State.dvaSpan _ _ _ _ _ _) (by assumption) ?_
      | with_reducible refine keeps_translate (hP.sub rfl) ?_
      | with_reducible refine keeps_translate_eq (by assumption) (hP.sub rfl) ?_
      | intro _
      | with_reducible refine keeps_ite ?_ ?_
      | with_reducible refine keeps_ite_fst ?_ ?_
      | with_reducible refine keeps_pair (by assumption) ?_
      | split
      | fail_if_no_progress extract_lets
      | dsimp +zetaDelta only)

theorem keeps_dvaSpan_eq {P : Nat} {s u v : State} {a1 a2 a3 a4 a5} {x} (he : State.dvaSpan u a1 a2 a3 a4 a5 = (v, x)) (hP : Fits 0x81e059b000000000300000000012068000000a1002140a100000000000000000000000000000000000 P)
    (h : Keeps P s u) : Keeps P s v := by
  have h1 := keeps_dvaSpan (a1 := a1) (a2 := a2) (a3 := a3) (a4 := a4) (a5 := a5) hP h
  rw [he] at h1
  exact h1

theorem keeps_writePieces {P : Nat} {s u : State} {a1 a2 a3 a4} (hP : Fits 0x806059a000000000300000000012068000000000001402100000000000000000000000000000000000 P) (h : Keeps P s u) :
    Keeps P s (State.writePieces u a1 a2 a3 a4) := by
  induction a4 generalizing u a1 a2 a3 with
  | nil =>
    unfold State.writePieces
    repeat' (first
      | with_reducible exact h
      | with_reducible assumption
      | dsimp -zeta only
      | with_reducible refine keeps_hbmWrite (hP.sub rfl) ?_
      | intro _
      | with_reducible refine keeps_ite ?_ ?_
      | with_reducible refine keeps_ite_fst ?_ ?_
      | with_reducible refine keeps_pair (by assumption) ?_
      | split
      | fail_if_no_progress extract_lets
      | dsimp +zetaDelta only)
  | cons x r ih =>
    unfold State.writePieces
    repeat' (first
      | with_reducible exact h
      | with_reducible assumption
      | dsimp -zeta only
      | with_reducible apply ih
      | with_reducible refine keeps_hbmWrite (hP.sub rfl) ?_
      | intro _
      | with_reducible refine keeps_ite ?_ ?_
      | with_reducible refine keeps_ite_fst ?_ ?_
      | with_reducible refine keeps_pair (by assumption) ?_
      | split
      | fail_if_no_progress extract_lets
      | dsimp +zetaDelta only)

theorem keeps_dvaWrite {P : Nat} {s u : State} {a1 a2 a3 a4 a5 a6} (hP : Fits 0x81e059b000000000300000000012068000000a1002140a100000000000000000000000000000000000 P) (h : Keeps P s u) :
    Keeps P s (State.dvaWrite u a1 a2 a3 a4 a5 a6).1 := by
  unfold State.dvaWrite
  repeat' (first
    | with_reducible exact h
    | with_reducible assumption
    | dsimp -zeta only
    | with_reducible refine keeps_writePieces (hP.sub rfl) ?_
    | with_reducible refine keeps_dvaSpan (hP.sub rfl) ?_
    | with_reducible refine keeps_dvaSpan_eq (by assumption) (hP.sub rfl) ?_
    | intro _
    | with_reducible refine keeps_ite ?_ ?_
    | with_reducible refine keeps_ite_fst ?_ ?_
    | with_reducible refine keeps_pair (by assumption) ?_
    | split
    | fail_if_no_progress extract_lets
    | dsimp +zetaDelta only)

theorem keeps_dvaWrite_eq {P : Nat} {s u v : State} {a1 a2 a3 a4 a5 a6} {x} (he : State.dvaWrite u a1 a2 a3 a4 a5 a6 = (v, x)) (hP : Fits 0x81e059b000000000300000000012068000000a1002140a100000000000000000000000000000000000 P)
    (h : Keeps P s u) : Keeps P s v := by
  have h1 := keeps_dvaWrite (a1 := a1) (a2 := a2) (a3 := a3) (a4 := a4) (a5 := a5) (a6 := a6) hP h
  rw [he] at h1
  exact h1

end Sys2Proof.Machine
end

