-- ==== Sys2Proof/Laws/KeepsPins.lean ====
section
/-! SUPPORT. What each operation of Machine/Pins.lean may change, and that it keeps the invariant: one law for each. -/

set_option linter.unreachableTactic false
set_option linter.unusedTactic false

namespace Sys2Proof.Machine

theorem keeps_noteAnalogue {P : Nat} {s u : State} {a1 a2} (hP : Fits 0x1000000000000000000000000000000000000000000000000000000000000000000000000000000 P) (h : Keeps P s u) :
    Keeps P s (State.noteAnalogue u a1 a2) := by
  unfold State.noteAnalogue
  repeat' (first
    | with_reducible exact h
    | with_reducible assumption
    | dsimp -zeta only
    | with_reducible refine keeps_setPin (hP.sub rfl) ?_
    | intro _
    | with_reducible refine keeps_ite ?_ ?_
    | with_reducible refine keeps_ite_fst ?_ ?_
    | with_reducible refine keeps_pair (by assumption) ?_
    | split
    | fail_if_no_progress extract_lets
    | dsimp +zetaDelta only)

theorem keeps_feelVoltage {P : Nat} {s u : State} {a1 a2} (hP : Fits 0x1000000000000000000000000000000000000000000000000000000000000000000000000000000 P) (h : Keeps P s u) :
    Keeps P s (State.feelVoltage u a1 a2) := by
  unfold State.feelVoltage
  repeat' (first
    | with_reducible exact h
    | with_reducible assumption
    | dsimp -zeta only
    | with_reducible refine keeps_setPin (hP.sub rfl) ?_
    | intro _
    | with_reducible refine keeps_ite ?_ ?_
    | with_reducible refine keeps_ite_fst ?_ ?_
    | with_reducible refine keeps_pair (by assumption) ?_
    | split
    | fail_if_no_progress extract_lets
    | dsimp +zetaDelta only)

theorem keeps_beginSettle {P : Nat} {s u : State} {a1} (hP : Fits 0x1000000 P) (h : Keeps P s u) :
    Keeps P s (State.beginSettle u a1) := by
  unfold State.beginSettle
  repeat' (first
    | with_reducible exact h
    | with_reducible assumption
    | dsimp -zeta only
    | with_reducible refine keeps_fput hP rfl ?_
    | intro _
    | with_reducible refine keeps_ite ?_ ?_
    | with_reducible refine keeps_ite_fst ?_ ?_
    | with_reducible refine keeps_pair (by assumption) ?_
    | split
    | fail_if_no_progress extract_lets
    | dsimp +zetaDelta only)

theorem keeps_clampCheck {P : Nat} {s u : State} {a1} (hP : Fits 0x1000000 P) (h : Keeps P s u) :
    Keeps P s (State.clampCheck u a1) := by
  unfold State.clampCheck
  repeat' (first
    | with_reducible exact h
    | with_reducible assumption
    | dsimp -zeta only
    | with_reducible refine keeps_fput hP rfl ?_
    | intro _
    | with_reducible refine keeps_ite ?_ ?_
    | with_reducible refine keeps_ite_fst ?_ ?_
    | with_reducible refine keeps_pair (by assumption) ?_
    | split
    | fail_if_no_progress extract_lets
    | dsimp +zetaDelta only)

theorem keeps_faultPark {P : Nat} {s u : State} {a1} (hP : Fits 0x1000000 P) (h : Keeps P s u) :
    Keeps P s (State.faultPark u a1) := by
  unfold State.faultPark
  repeat' (first
    | with_reducible exact h
    | with_reducible assumption
    | dsimp -zeta only
    | with_reducible refine keeps_fput hP rfl ?_
    | intro _
    | with_reducible refine keeps_ite ?_ ?_
    | with_reducible refine keeps_ite_fst ?_ ?_
    | with_reducible refine keeps_pair (by assumption) ?_
    | split
    | fail_if_no_progress extract_lets
    | dsimp +zetaDelta only)

theorem keeps_parkPins {P : Nat} {s u : State} {a1} (hP : Fits 0x1000000 P) (h : Keeps P s u) :
    Keeps P s (State.parkPins u a1) := by
  unfold State.parkPins
  repeat' (first
    | with_reducible exact h
    | with_reducible assumption
    | dsimp -zeta only
    | with_reducible refine keeps_faultPark (hP.sub rfl) ?_
    | with_reducible refine keeps_foldl ?_ ?_
    | with_reducible refine keeps_foldl_fst ?_ ?_
    | intro _
    | with_reducible refine keeps_ite ?_ ?_
    | with_reducible refine keeps_ite_fst ?_ ?_
    | with_reducible refine keeps_pair (by assumption) ?_
    | split
    | fail_if_no_progress extract_lets
    | dsimp +zetaDelta only)

theorem keeps_crowded {P : Nat} {s u : State} {a1 a2} (hP : Fits 0x900000000 P) (h : Keeps P s u) :
    Keeps P s (State.crowded u a1 a2) := by
  unfold State.crowded
  repeat' (first
    | with_reducible exact h
    | with_reducible assumption
    | dsimp -zeta only
    | with_reducible refine keeps_fput hP rfl ?_
    | with_reducible refine keeps_bump hP rfl ?_
    | intro _
    | with_reducible refine keeps_ite ?_ ?_
    | with_reducible refine keeps_ite_fst ?_ ?_
    | with_reducible refine keeps_pair (by assumption) ?_
    | split
    | fail_if_no_progress extract_lets
    | dsimp +zetaDelta only)

end Sys2Proof.Machine
end

