-- ==== Sys2Proof/Laws/KeepsAlmanac.lean ====
section
/-! SUPPORT. What each operation of Machine/Almanac.lean may change, and that it keeps the invariant: one law for each. -/

set_option linter.unreachableTactic false
set_option linter.unusedTactic false

namespace Sys2Proof.Machine

theorem keeps_setAlm {P : Nat} {s u : State} {a1 a2 a3} (hP : Fits 0x2000000000000000000000000000000000000000000000000000000000000000000000000000000 P) (h : Keeps P s u) :
    Keeps P s (State.setAlm u a1 a2 a3) := by
  unfold State.setAlm
  repeat' (first
    | with_reducible exact h
    | with_reducible assumption
    | dsimp -zeta only
    | intro _
    | with_reducible refine keeps_ite ?_ ?_
    | with_reducible refine keeps_ite_fst ?_ ?_
    | with_reducible refine keeps_pair (by assumption) ?_
    | split
    | fail_if_no_progress extract_lets
    | fail_if_no_progress with_reducible refine keeps_alm hP rfl ?_
    | dsimp +zetaDelta only)

theorem keeps_readAlm {P : Nat} {s u : State} {a1 a2} (hP : Fits 0x8000402000000000300000000000000000000000000000000000000000000000000000000070000000 P) (h : Keeps P s u) :
    Keeps P s (State.readAlm u a1 a2).1 := by
  unfold State.readAlm
  repeat' (first
    | with_reducible exact h
    | with_reducible assumption
    | dsimp -zeta only
    | with_reducible refine keeps_freshWide (hP.sub rfl) ?_
    | with_reducible refine keeps_freshWide_eq (by assumption) (hP.sub rfl) ?_
    | with_reducible refine keeps_logWrite (hP.sub rfl) ?_
    | with_reducible refine keeps_countFix (hP.sub rfl) ?_
    | with_reducible refine keeps_wr hP rfl ?_
    | with_reducible refine keeps_fput hP rfl ?_
    | with_reducible refine keeps_bump hP rfl ?_
    | intro _
    | with_reducible refine keeps_ite ?_ ?_
    | with_reducible refine keeps_ite_fst ?_ ?_
    | with_reducible refine keeps_pair (by assumption) ?_
    | split
    | fail_if_no_progress extract_lets
    | dsimp +zetaDelta only)

theorem keeps_readAlm_eq {P : Nat} {s u v : State} {a1 a2} {x} (he : State.readAlm u a1 a2 = (v, x)) (hP : Fits 0x8000402000000000300000000000000000000000000000000000000000000000000000000070000000 P)
    (h : Keeps P s u) : Keeps P s v := by
  have h1 := keeps_readAlm (a1 := a1) (a2 := a2) hP h
  rw [he] at h1
  exact h1

theorem keeps_almWrite {P : Nat} {s u : State} {a1 a2 a3 a4 a5} (hP : Fits 0x800240a000000000300004000000000000000000000000000000000000000000000000000070000000 P) (h : Keeps P s u) :
    Keeps P s (State.almWrite u a1 a2 a3 a4 a5) := by
  unfold State.almWrite
  repeat' (first
    | with_reducible exact h
    | with_reducible assumption
    | dsimp -zeta only
    | with_reducible refine keeps_rtWriteDrop (hP.sub rfl) ?_
    | with_reducible refine keeps_readAlm (hP.sub rfl) ?_
    | with_reducible refine keeps_readAlm_eq (by assumption) (hP.sub rfl) ?_
    | with_reducible refine keeps_setAlm (hP.sub rfl) ?_
    | with_reducible refine keeps_fput hP rfl ?_
    | intro _
    | with_reducible refine keeps_ite ?_ ?_
    | with_reducible refine keeps_ite_fst ?_ ?_
    | with_reducible refine keeps_pair (by assumption) ?_
    | split
    | fail_if_no_progress extract_lets
    | fail_if_no_progress with_reducible refine keeps_alm hP rfl ?_
    | dsimp +zetaDelta only)

end Sys2Proof.Machine
end

