-- ==== Sys2Proof/Laws/KeepsHelm.lean ====
section
/-! SUPPORT. What each operation of Machine/Helm.lean may change, and that it keeps the invariant: one law for each. -/

set_option linter.unreachableTactic false
set_option linter.unusedTactic false

namespace Sys2Proof.Machine

theorem keeps_ok {P : Nat} {s u : State} (hP : Fits 0 P) (h : Keeps P s u) :
    Keeps P s (ok u).1 := by
  unfold ok
  repeat' (first
    | with_reducible exact h
    | with_reducible assumption
    | dsimp -zeta only
    | intro _
    | with_reducible refine keeps_ite ?_ ?_
    | with_reducible refine keeps_ite_fst ?_ ?_
    | with_reducible refine keeps_pair (by assumption) ?_
    | split
    | fail_if_no_progress extract_lets
    | dsimp +zetaDelta only)

theorem keeps_ok_eq {P : Nat} {s u v : State} {x} (he : ok u = (v, x)) (hP : Fits 0 P)
    (h : Keeps P s u) : Keeps P s v := by
  have h1 := keeps_ok hP h
  rw [he] at h1
  exact h1

theorem keeps_okResult {P : Nat} {s u : State} {a1} (hP : Fits 0 P) (h : Keeps P s u) :
    Keeps P s (okResult u a1).1 := by
  unfold okResult
  repeat' (first
    | with_reducible exact h
    | with_reducible assumption
    | dsimp -zeta only
    | intro _
    | with_reducible refine keeps_ite ?_ ?_
    | with_reducible refine keeps_ite_fst ?_ ?_
    | with_reducible refine keeps_pair (by assumption) ?_
    | split
    | fail_if_no_progress extract_lets
    | dsimp +zetaDelta only)

theorem keeps_okResult_eq {P : Nat} {s u v : State} {a1} {x} (he : okResult u a1 = (v, x)) (hP : Fits 0 P)
    (h : Keeps P s u) : Keeps P s v := by
  have h1 := keeps_okResult (a1 := a1) hP h
  rw [he] at h1
  exact h1

theorem keeps_fail {P : Nat} {s u : State} {a1 a2} (hP : Fits 0 P) (h : Keeps P s u) :
    Keeps P s (fail u a1 a2).1 := by
  unfold fail
  repeat' (first
    | with_reducible exact h
    | with_reducible assumption
    | dsimp -zeta only
    | intro _
    | with_reducible refine keeps_ite ?_ ?_
    | with_reducible refine keeps_ite_fst ?_ ?_
    | with_reducible refine keeps_pair (by assumption) ?_
    | split
    | fail_if_no_progress extract_lets
    | dsimp +zetaDelta only)

theorem keeps_fail_eq {P : Nat} {s u v : State} {a1 a2} {x} (he : fail u a1 a2 = (v, x)) (hP : Fits 0 P)
    (h : Keeps P s u) : Keeps P s v := by
  have h1 := keeps_fail (a1 := a1) (a2 := a2) hP h
  rw [he] at h1
  exact h1

theorem keeps_stopped {P : Nat} {s u : State} {a1 a2} (hP : Fits 0 P) (h : Keeps P s u) :
    Keeps P s (stopped u a1 a2).1 := by
  unfold stopped
  repeat' (first
    | with_reducible exact h
    | with_reducible assumption
    | dsimp -zeta only
    | intro _
    | with_reducible refine keeps_ite ?_ ?_
    | with_reducible refine keeps_ite_fst ?_ ?_
    | with_reducible refine keeps_pair (by assumption) ?_
    | split
    | fail_if_no_progress extract_lets
    | dsimp +zetaDelta only)

theorem keeps_stopped_eq {P : Nat} {s u v : State} {a1 a2} {x} (he : stopped u a1 a2 = (v, x)) (hP : Fits 0 P)
    (h : Keeps P s u) : Keeps P s v := by
  have h1 := keeps_stopped (a1 := a1) (a2 := a2) hP h
  rw [he] at h1
  exact h1

theorem keeps_queueCpl {P : Nat} {s u : State} {a1 a2 a3} (hP : Fits 0x200000000000000000000000000000000000000000000000000000000000000000000000000000 P) (h : Keeps P s u) :
    Keeps P s (State.queueCpl u a1 a2 a3) := by
  unfold State.queueCpl
  repeat' (first
    | with_reducible exact h
    | with_reducible assumption
    | dsimp -zeta only
    | with_reducible refine keeps_setRing hP rfl ?_ (fun h => h)
    | with_reducible refine keeps_setRing hP rfl ?_ (fun _ => by simp)
    | with_reducible refine keeps_setRing hP rfl ?_ (fun h => by simpa using h)
    | intro _
    | with_reducible refine keeps_ite ?_ ?_
    | with_reducible refine keeps_ite_fst ?_ ?_
    | with_reducible refine keeps_pair (by assumption) ?_
    | split
    | fail_if_no_progress extract_lets
    | dsimp +zetaDelta only)

theorem keeps_answerDups {P : Nat} {s u : State} {a1 a2} (hP : Fits 0x200000000000000000000000000000000000000000000000000000000000000000000000000000 P) (h : Keeps P s u) :
    Keeps P s (State.answerDups u a1 a2) := by
  unfold State.answerDups
  repeat' (first
    | with_reducible exact h
    | with_reducible assumption
    | dsimp -zeta only
    | with_reducible refine keeps_queueCpl (hP.sub rfl) ?_
    | with_reducible refine keeps_setRing hP rfl ?_ (fun h => h)
    | with_reducible refine keeps_setRing hP rfl ?_ (fun _ => by simp)
    | with_reducible refine keeps_setRing hP rfl ?_ (fun h => by simpa using h)
    | with_reducible refine keeps_foldl ?_ ?_
    | with_reducible refine keeps_foldl_fst ?_ ?_
    | intro _
    | with_reducible refine keeps_ite ?_ ?_
    | with_reducible refine keeps_ite_fst ?_ ?_
    | with_reducible refine keeps_pair (by assumption) ?_
    | split
    | fail_if_no_progress extract_lets
    | dsimp +zetaDelta only)

theorem keeps_concludeCode {P : Nat} {s u : State} {a1 a2 a3 a4 a5 a6 a7} (hP : Fits 0x2000602000000000000000000000000002000000000000000000000000000000000000000000000000 P) (h : Keeps P s u) :
    Keeps P s (State.concludeCode u a1 a2 a3 a4 a5 a6 a7) := by
  unfold State.concludeCode
  dsimp only
  split
  · refine keeps_answerDups (hP.sub rfl) (keeps_queueCpl (hP.sub rfl) (keeps_ite ?_ ?_))
    · exact keeps_countFix (hP.sub rfl) (keeps_bump hP rfl (keeps_setRing hP rfl h (fun h => by simpa using h)))
    · exact keeps_setRing hP rfl h (fun h => by simpa using h)
  · exact keeps_replyFlit (hP.sub rfl) (keeps_wln hP rfl h)

theorem keeps_conclude {P : Nat} {s u : State} {a1 a2 a3 a4 a5 a6 a7} (hP : Fits 0x2000602000000000000000000000000002000000000000000000000000000000000000000000000000 P) (h : Keeps P s u) :
    Keeps P s (State.conclude u a1 a2 a3 a4 a5 a6 a7) := by
  unfold State.conclude
  repeat' (first
    | with_reducible exact h
    | with_reducible assumption
    | dsimp -zeta only
    | with_reducible refine keeps_concludeCode (hP.sub rfl) ?_
    | intro _
    | with_reducible refine keeps_ite ?_ ?_
    | with_reducible refine keeps_ite_fst ?_ ?_
    | with_reducible refine keeps_pair (by assumption) ?_
    | split
    | fail_if_no_progress extract_lets
    | dsimp +zetaDelta only)

theorem keeps_dropRing {P : Nat} {s u : State} {a1} (hP : Fits 0x200000000000000000000000000003f00000000000000000000000000000000000000000000000 P) (h : Keeps P s u) :
    Keeps P s (State.dropRing u a1) := by
  unfold State.dropRing
  repeat' (first
    | with_reducible exact h
    | with_reducible assumption
    | dsimp -zeta only
    | with_reducible refine keeps_rstAll hP rfl ?_
    | with_reducible refine keeps_setRing hP rfl ?_ (fun h => h)
    | with_reducible refine keeps_setRing hP rfl ?_ (fun _ => by simp)
    | with_reducible refine keeps_setRing hP rfl ?_ (fun h => by simpa using h)
    | intro _
    | with_reducible refine keeps_ite ?_ ?_
    | with_reducible refine keeps_ite_fst ?_ ?_
    | with_reducible refine keeps_pair (by assumption) ?_
    | split
    | fail_if_no_progress extract_lets
    | dsimp +zetaDelta only)

theorem keeps_endWaits {P : Nat} {s u : State} {a1 a2 a3 a4 a5} (hP : Fits 0x2000e02000000000000000000000000002000000000000000000000000000000000000000000000000 P) (h : Keeps P s u) :
    Keeps P s (State.endWaits u a1 a2 a3 a4 a5) := by
  unfold State.endWaits
  repeat' (first
    | with_reducible exact h
    | with_reducible assumption
    | dsimp -zeta only
    | with_reducible refine keeps_conclude (hP.sub rfl) ?_
    | with_reducible refine keeps_foldl ?_ ?_
    | with_reducible refine keeps_foldl_fst ?_ ?_
    | intro _
    | with_reducible refine keeps_ite ?_ ?_
    | with_reducible refine keeps_ite_fst ?_ ?_
    | with_reducible refine keeps_pair (by assumption) ?_
    | split
    | fail_if_no_progress extract_lets
    | fail_if_no_progress with_reducible refine keeps_helm hP rfl ?_ rfl rfl
    | dsimp +zetaDelta only)

theorem keeps_sweepRing {P : Nat} {s u : State} {a1} (hP : Fits 0x2000e02000000000000000000000000003f00000000000000000000000000000000000000000000000 P) (h : Keeps P s u) :
    Keeps P s (State.sweepRing u a1) := by
  unfold State.sweepRing
  repeat' (first
    | with_reducible exact h
    | with_reducible assumption
    | dsimp -zeta only
    | with_reducible refine keeps_dropRing (hP.sub rfl) ?_
    | with_reducible refine keeps_endWaits (hP.sub rfl) ?_
    | intro _
    | with_reducible refine keeps_ite ?_ ?_
    | with_reducible refine keeps_ite_fst ?_ ?_
    | with_reducible refine keeps_pair (by assumption) ?_
    | split
    | fail_if_no_progress extract_lets
    | dsimp +zetaDelta only)

theorem keeps_frontEnds {P : Nat} {s u : State} {a1 a2 a3 a4} (hP : Fits 0x2000602000000000000000000000000002400000000000000000000000000000000000000000000000 P) (h : Keeps P s u) :
    Keeps P s (State.frontEnds u a1 a2 a3 a4) := by
  unfold State.frontEnds
  repeat' (first
    | with_reducible exact h
    | with_reducible assumption
    | dsimp -zeta only
    | with_reducible refine keeps_conclude (hP.sub rfl) ?_
    | with_reducible refine keeps_tick hP rfl ?_
    | intro _
    | with_reducible refine keeps_ite ?_ ?_
    | with_reducible refine keeps_ite_fst ?_ ?_
    | with_reducible refine keeps_pair (by assumption) ?_
    | split
    | fail_if_no_progress extract_lets
    | dsimp +zetaDelta only)

theorem keeps_admitPkt {P : Nat} {s u : State} {a1 a2 a3} (hP : Fits 0x2000602000000000000000000000000002c00000000000000000000000000000000000000000000000 P) (h : Keeps P s u) :
    Keeps P s (State.admitPkt u a1 a2 a3).1 := by
  unfold State.admitPkt
  repeat' (first
    | with_reducible exact h
    | with_reducible assumption
    | dsimp -zeta only
    | with_reducible refine keeps_frontEnds (hP.sub rfl) ?_
    | with_reducible refine keeps_queueCpl (hP.sub rfl) ?_
    | with_reducible refine keeps_countFix (hP.sub rfl) ?_
    | with_reducible refine keeps_bump hP rfl ?_
    | with_reducible refine keeps_tick hP rfl ?_
    | with_reducible refine keeps_setRing hP rfl ?_ (fun h => h)
    | with_reducible refine keeps_setRing hP rfl ?_ (fun _ => by simp)
    | with_reducible refine keeps_setRing hP rfl ?_ (fun h => by simpa using h)
    | intro _
    | with_reducible refine keeps_ite ?_ ?_
    | with_reducible refine keeps_ite_fst ?_ ?_
    | with_reducible refine keeps_pair (by assumption) ?_
    | split
    | fail_if_no_progress extract_lets
    | dsimp +zetaDelta only)

theorem keeps_admitPkt_eq {P : Nat} {s u v : State} {a1 a2 a3} {x} (he : State.admitPkt u a1 a2 a3 = (v, x)) (hP : Fits 0x2000602000000000000000000000000002c00000000000000000000000000000000000000000000000 P)
    (h : Keeps P s u) : Keeps P s v := by
  have h1 := keeps_admitPkt (a1 := a1) (a2 := a2) (a3 := a3) hP h
  rw [he] at h1
  exact h1

theorem keeps_enqueue {P : Nat} {s u : State} {a1 a2 a3} (hP : Fits 0x200000000000000000000000000000000000000000000000000000000000000000000000000000 P) (h : Keeps P s u) :
    Keeps P s (State.enqueue u a1 a2 a3) := by
  unfold State.enqueue
  repeat' (first
    | with_reducible exact h
    | with_reducible assumption
    | dsimp -zeta only
    | with_reducible refine keeps_setRing hP rfl ?_ (fun h => h)
    | with_reducible refine keeps_setRing hP rfl ?_ (fun _ => by simp)
    | with_reducible refine keeps_setRing hP rfl ?_ (fun h => by simpa using h)
    | intro _
    | with_reducible refine keeps_ite ?_ ?_
    | with_reducible refine keeps_ite_fst ?_ ?_
    | with_reducible refine keeps_pair (by assumption) ?_
    | split
    | fail_if_no_progress extract_lets
    | dsimp +zetaDelta only)

theorem keeps_perform {P : Nat} {s u : State} {a1 a2 a3} (hP : Fits 0x2000e02000000000000000000000000002000000000000000000000000000000000000000000000000 P) (h2 : ∀ k v, Keeps P s v → Keeps P s (a2 k v).1) (h : Keeps P s u) :
    Keeps P s (State.perform u a1 a2 a3) := by
  unfold State.perform
  have h1 := h2 a3 u h
  split
  · rename_i heq
    rw [heq] at h1
    exact keeps_conclude (hP.sub rfl) h1
  · rename_i heq
    rw [heq] at h1
    exact keeps_helm hP rfl h1 rfl rfl

theorem keeps_take {P : Nat} {s u : State} {a1 a2} (hP : Fits 0x200000000000000000000000000000c00000000000000000000000000000000000000000000000 P) (h : Keeps P s u) :
    Keeps P s (State.take u a1 a2) := by
  unfold State.take
  repeat' (first
    | with_reducible exact h
    | with_reducible assumption
    | dsimp -zeta only
    | with_reducible refine keeps_fput hP rfl ?_
    | with_reducible refine keeps_tick hP rfl ?_
    | with_reducible refine keeps_setRing hP rfl ?_ (fun h => h)
    | with_reducible refine keeps_setRing hP rfl ?_ (fun _ => by simp)
    | with_reducible refine keeps_setRing hP rfl ?_ (fun h => by simpa using h)
    | intro _
    | with_reducible refine keeps_ite ?_ ?_
    | with_reducible refine keeps_ite_fst ?_ ?_
    | with_reducible refine keeps_pair (by assumption) ?_
    | split
    | fail_if_no_progress extract_lets
    | dsimp +zetaDelta only)

theorem keeps_runCommand {P : Nat} {s u : State} {a1 a2 a3} (hP : Fits 0x2000e02000000000000000000000000003f00000000000000000000000000000000000000000000000 P) (h2 : ∀ k v, Keeps P s v → Keeps P s (a2 k v).1) (h : Keeps P s u) :
    Keeps P s (State.runCommand u a1 a2 a3) := by
  unfold State.runCommand
  repeat' (first
    | with_reducible exact h
    | with_reducible assumption
    | dsimp -zeta only
    | with_reducible refine keeps_sweepRing (hP.sub rfl) ?_
    | with_reducible refine keeps_admitPkt (hP.sub rfl) ?_
    | with_reducible refine keeps_admitPkt_eq (by assumption) (hP.sub rfl) ?_
    | with_reducible refine keeps_perform (hP.sub rfl) ?_ ?_
    | with_reducible refine keeps_enqueue (hP.sub rfl) ?_
    | with_reducible refine keeps_take (hP.sub rfl) ?_
    | with_reducible refine h2 _ _ ?_
    | intro _
    | with_reducible refine keeps_ite ?_ ?_
    | with_reducible refine keeps_ite_fst ?_ ?_
    | with_reducible refine keeps_pair (by assumption) ?_
    | split
    | fail_if_no_progress extract_lets
    | dsimp +zetaDelta only)

theorem keeps_runPrompt {P : Nat} {s u : State} {a1 a2 a3} (hP : Fits 0x2000e02000000000000000000000000003f00000000000000000000000000000000000000000000000 P) (h2 : ∀ k v, Keeps P s v → Keeps P s (a2 k v).1) (h : Keeps P s u) :
    Keeps P s (State.runPrompt u a1 a2 a3) := by
  unfold State.runPrompt
  repeat' (first
    | with_reducible exact h
    | with_reducible assumption
    | dsimp -zeta only
    | with_reducible refine keeps_sweepRing (hP.sub rfl) ?_
    | with_reducible refine keeps_admitPkt (hP.sub rfl) ?_
    | with_reducible refine keeps_admitPkt_eq (by assumption) (hP.sub rfl) ?_
    | with_reducible refine keeps_perform (hP.sub rfl) ?_ ?_
    | with_reducible refine keeps_fput hP rfl ?_
    | with_reducible refine keeps_tick hP rfl ?_
    | with_reducible refine h2 _ _ ?_
    | intro _
    | with_reducible refine keeps_ite ?_ ?_
    | with_reducible refine keeps_ite_fst ?_ ?_
    | with_reducible refine keeps_pair (by assumption) ?_
    | split
    | fail_if_no_progress extract_lets
    | dsimp +zetaDelta only)

theorem keeps_payloadBy {P : Nat} {s u : State} {a1 a2 a3 a4} (hP : Fits 0x81e059b000000000300000000012068000000a1002140a100000000000000000000000000000000000 P) (h : Keeps P s u) :
    Keeps P s (State.payloadBy u a1 a2 a3 a4).1 := by
  unfold State.payloadBy
  repeat' (first
    | with_reducible exact h
    | with_reducible assumption
    | dsimp -zeta only
    | with_reducible refine keeps_raiseFault (hP.sub rfl) ?_
    | with_reducible refine keeps_raiseFault_eq (by assumption) (hP.sub rfl) ?_
    | with_reducible refine keeps_dvaRead (hP.sub rfl) ?_
    | with_reducible refine keeps_dvaRead_eq (by assumption) (hP.sub rfl) ?_
    | intro _
    | with_reducible refine keeps_ite ?_ ?_
    | with_reducible refine keeps_ite_fst ?_ ?_
    | with_reducible refine keeps_pair (by assumption) ?_
    | split
    | fail_if_no_progress extract_lets
    | dsimp +zetaDelta only)

theorem keeps_payloadBy_eq {P : Nat} {s u v : State} {a1 a2 a3 a4} {x} (he : State.payloadBy u a1 a2 a3 a4 = (v, x)) (hP : Fits 0x81e059b000000000300000000012068000000a1002140a100000000000000000000000000000000000 P)
    (h : Keeps P s u) : Keeps P s v := by
  have h1 := keeps_payloadBy (a1 := a1) (a2 := a2) (a3 := a3) (a4 := a4) hP h
  rw [he] at h1
  exact h1

theorem keeps_payload {P : Nat} {s u : State} {a1 a2 a3} (hP : Fits 0x81e059b000000000300000000012068000000a1002140a100000000000000000000000000000000000 P) (h : Keeps P s u) :
    Keeps P s (State.payload u a1 a2 a3).1 := by
  unfold State.payload
  repeat' (first
    | with_reducible exact h
    | with_reducible assumption
    | dsimp -zeta only
    | with_reducible refine keeps_payloadBy (hP.sub rfl) ?_
    | with_reducible refine keeps_payloadBy_eq (by assumption) (hP.sub rfl) ?_
    | intro _
    | with_reducible refine keeps_ite ?_ ?_
    | with_reducible refine keeps_ite_fst ?_ ?_
    | with_reducible refine keeps_pair (by assumption) ?_
    | split
    | fail_if_no_progress extract_lets
    | dsimp +zetaDelta only)

theorem keeps_payload_eq {P : Nat} {s u v : State} {a1 a2 a3} {x} (he : State.payload u a1 a2 a3 = (v, x)) (hP : Fits 0x81e059b000000000300000000012068000000a1002140a100000000000000000000000000000000000 P)
    (h : Keeps P s u) : Keeps P s v := by
  have h1 := keeps_payload (a1 := a1) (a2 := a2) (a3 := a3) hP h
  rw [he] at h1
  exact h1

theorem keeps_hostPayload {P : Nat} {s u : State} {a1 a2} (hP : Fits 0 P) (h : Keeps P s u) :
    Keeps P s (State.hostPayload u a1 a2).1 := by
  unfold State.hostPayload
  repeat' (first
    | with_reducible exact h
    | with_reducible assumption
    | dsimp -zeta only
    | intro _
    | with_reducible refine keeps_ite ?_ ?_
    | with_reducible refine keeps_ite_fst ?_ ?_
    | with_reducible refine keeps_pair (by assumption) ?_
    | split
    | fail_if_no_progress extract_lets
    | dsimp +zetaDelta only)

theorem keeps_hostPayload_eq {P : Nat} {s u v : State} {a1 a2} {x} (he : State.hostPayload u a1 a2 = (v, x)) (hP : Fits 0 P)
    (h : Keeps P s u) : Keeps P s v := by
  have h1 := keeps_hostPayload (a1 := a1) (a2 := a2) hP h
  rw [he] at h1
  exact h1

theorem keeps_storeResultBy {P : Nat} {s u : State} {a1 a2 a3 a4} (hP : Fits 0x81e059b000000000300000000012068000000a1002140a100000000000000000000000000000000000 P) (h : Keeps P s u) :
    Keeps P s (State.storeResultBy u a1 a2 a3 a4).1 := by
  unfold State.storeResultBy
  repeat' (first
    | with_reducible exact h
    | with_reducible assumption
    | dsimp -zeta only
    | with_reducible refine keeps_settleWrites (hP.sub rfl) ?_
    | with_reducible refine keeps_raiseFault (hP.sub rfl) ?_
    | with_reducible refine keeps_raiseFault_eq (by assumption) (hP.sub rfl) ?_
    | with_reducible refine keeps_dvaWrite (hP.sub rfl) ?_
    | with_reducible refine keeps_dvaWrite_eq (by assumption) (hP.sub rfl) ?_
    | with_reducible refine keeps_wakeMem (hP.sub rfl) ?_
    | intro _
    | with_reducible refine keeps_ite ?_ ?_
    | with_reducible refine keeps_ite_fst ?_ ?_
    | with_reducible refine keeps_pair (by assumption) ?_
    | split
    | fail_if_no_progress extract_lets
    | dsimp +zetaDelta only)

theorem keeps_storeResultBy_eq {P : Nat} {s u v : State} {a1 a2 a3 a4} {x} (he : State.storeResultBy u a1 a2 a3 a4 = (v, x)) (hP : Fits 0x81e059b000000000300000000012068000000a1002140a100000000000000000000000000000000000 P)
    (h : Keeps P s u) : Keeps P s v := by
  have h1 := keeps_storeResultBy (a1 := a1) (a2 := a2) (a3 := a3) (a4 := a4) hP h
  rw [he] at h1
  exact h1

theorem keeps_storeResult {P : Nat} {s u : State} {a1 a2 a3} (hP : Fits 0x81e059b000000000300000000012068000000a1002140a100000000000000000000000000000000000 P) (h : Keeps P s u) :
    Keeps P s (State.storeResult u a1 a2 a3).1 := by
  unfold State.storeResult
  repeat' (first
    | with_reducible exact h
    | with_reducible assumption
    | dsimp -zeta only
    | with_reducible refine keeps_storeResultBy (hP.sub rfl) ?_
    | with_reducible refine keeps_storeResultBy_eq (by assumption) (hP.sub rfl) ?_
    | intro _
    | with_reducible refine keeps_ite ?_ ?_
    | with_reducible refine keeps_ite_fst ?_ ?_
    | with_reducible refine keeps_pair (by assumption) ?_
    | split
    | fail_if_no_progress extract_lets
    | dsimp +zetaDelta only)

theorem keeps_storeResult_eq {P : Nat} {s u v : State} {a1 a2 a3} {x} (he : State.storeResult u a1 a2 a3 = (v, x)) (hP : Fits 0x81e059b000000000300000000012068000000a1002140a100000000000000000000000000000000000 P)
    (h : Keeps P s u) : Keeps P s v := by
  have h1 := keeps_storeResult (a1 := a1) (a2 := a2) (a3 := a3) hP h
  rw [he] at h1
  exact h1

end Sys2Proof.Machine
end

