-- ==== Sys2Proof/Laws/KeepsMilestones.lean ====
section
/-! SUPPORT. What each operation of Machine/Milestones.lean may change, and that it keeps the invariant: one law for each. -/

set_option linter.unreachableTactic false
set_option linter.unusedTactic false

namespace Sys2Proof.Machine

theorem keeps_msReport {P : Nat} {s u : State} {a1 a2 a3 a4} (hP : Fits 0x188000000000000000000012068000000000000000000000000000000000000000000000000000 P) (h : Keeps P s u) :
    Keeps P s (State.msReport u a1 a2 a3 a4) := by
  unfold State.msReport
  repeat' (first
    | with_reducible exact h
    | with_reducible assumption
    | dsimp -zeta only
    | with_reducible refine keeps_reportCtl (hP.sub rfl) ?_
    | intro _
    | with_reducible refine keeps_ite ?_ ?_
    | with_reducible refine keeps_ite_fst ?_ ?_
    | with_reducible refine keeps_pair (by assumption) ?_
    | split
    | fail_if_no_progress extract_lets
    | dsimp +zetaDelta only)

theorem keeps_countLate {P : Nat} {s u : State} {a1} (hP : Fits 0x10000 P) (h : Keeps P s u) :
    Keeps P s (State.countLate u a1) := by
  unfold State.countLate
  repeat' (first
    | with_reducible exact h
    | with_reducible assumption
    | dsimp -zeta only
    | with_reducible refine keeps_bump hP rfl ?_
    | intro _
    | with_reducible refine keeps_ite ?_ ?_
    | with_reducible refine keeps_ite_fst ?_ ?_
    | with_reducible refine keeps_pair (by assumption) ?_
    | split
    | fail_if_no_progress extract_lets
    | dsimp +zetaDelta only)

theorem keeps_msAdd {F P : Nat} {s u : State} (hF : Fits F P) (hb : F.testBit 306 = true) (h : Keeps P s u) {x : Milestone}
    (hl : u.ms.pending.length < 4096) : Keeps P s (u.msAdd x) := by
  refine keeps_ms hF hb h (fun ok => ⟨?_, ?_, ?_⟩)
  · simp only [List.length_append, List.length_cons, List.length_nil]
    omega
  · simp only [List.map_append, List.map_cons, List.map_nil]
    rw [List.nodup_append]
    refine ⟨ok.2.1, by simp, ?_⟩
    intro a ha b hb
    obtain ⟨y, hy, rfl⟩ := List.mem_map.mp ha
    rw [List.mem_singleton.mp hb]
    exact Nat.ne_of_lt (ok.2.2 y hy)
  · intro y hy
    rcases List.mem_append.mp hy with hy | hy
    · exact Nat.lt_succ_of_lt (ok.2.2 y hy)
    · rw [List.mem_singleton.mp hy]
      exact Nat.lt_succ_self _

theorem keeps_msCommitAs {P : Nat} {s u : State} {x} (hP : Fits 0x40000000000000000000000000000000000000000000000000000000000000000000000010000 P) (hl : u.ms.pending.length < 4096) (h : Keeps P s u) :
    Keeps P s (State.msCommitAs u x).1 := by
  unfold State.msCommitAs
  refine keeps_ite_fst ?_ ?_
  · exact keeps_countLate (a1 := true) (hP.sub rfl) h
  have hm : (u.countLate x.foundLate).ms = u.ms := by
    unfold State.countLate
    split <;> rfl
  refine keeps_msAdd hP rfl (keeps_countLate (hP.sub rfl) h) ?_
  rw [hm]
  exact hl

theorem keeps_msCommit {P : Nat} {s u : State} {a1 a2 a3 a4 a5 a6 a7 a8 a9 a10} (hP : Fits 0x40000000000000000000000000000000000000000000000000000000000000000000000010000 P) (h : Keeps P s u) :
    Keeps P s (State.msCommit u a1 a2 a3 a4 a5 a6 a7 a8 a9 a10).1 := by
  unfold State.msCommit
  by_cases hl : 4096 ≤ u.ms.pending.length
  · rw [if_pos hl]
    exact h
  · rw [if_neg hl]
    refine keeps_ite_fst ?_ ?_
    · exact h
    · exact keeps_msCommitAs (hP.sub rfl) (Nat.lt_of_not_le hl) h

theorem keeps_msCommit_eq {P : Nat} {s u v : State} {a1 a2 a3 a4 a5 a6 a7 a8 a9 a10} {x} (he : State.msCommit u a1 a2 a3 a4 a5 a6 a7 a8 a9 a10 = (v, x)) (hP : Fits 0x40000000000000000000000000000000000000000000000000000000000000000000000010000 P)
    (h : Keeps P s u) : Keeps P s v := by
  have h1 := keeps_msCommit (a1 := a1) (a2 := a2) (a3 := a3) (a4 := a4) (a5 := a5) (a6 := a6) (a7 := a7) (a8 := a8) (a9 := a9) (a10 := a10) hP h
  rw [he] at h1
  exact h1

theorem keeps_msRemove {P : Nat} {s u : State} {a1} (hP : Fits 0x40000000000000000000000000000000000000000000000000000000000000000000000000000 P) (h : Keeps P s u) :
    Keeps P s (State.msRemove u a1) := by
  exact keeps_ms hP rfl h (fun h => ⟨(List.length_filter_le _ _).trans h.1, (List.filter_sublist.map _).nodup h.2.1,
    fun y hy => h.2.2 y (List.mem_filter.mp hy).1⟩)

theorem keeps_setDds {P : Nat} {s u : State} {a1 a2} (hP : Fits 0x400000000000000000000000000000000000000000000000000000000000000000000000000000000 P) (h : Keeps P s u) :
    Keeps P s (State.setDds u a1 a2) := by
  unfold State.setDds
  repeat' (first
    | with_reducible exact h
    | with_reducible assumption
    | dsimp -zeta only
    | intro _
    | with_reducible refine keeps_ite ?_ ?_
    | with_reducible refine keeps_ite_fst ?_ ?_
    | with_reducible refine keeps_pair (by assumption) ?_
    | split
    | fail_if_no_progress extract_lets
    | fail_if_no_progress with_reducible refine keeps_dds hP rfl ?_
    | dsimp +zetaDelta only)

theorem keeps_ddsUnarm {P : Nat} {s u : State} {a1} (hP : Fits 0x400000000000000000000000000000000000000000000000000000000000000000000000000000000 P) (h : Keeps P s u) :
    Keeps P s (State.ddsUnarm u a1) := by
  unfold State.ddsUnarm
  repeat' (first
    | with_reducible exact h
    | with_reducible assumption
    | dsimp -zeta only
    | with_reducible refine keeps_setDds (hP.sub rfl) ?_
    | intro _
    | with_reducible refine keeps_ite ?_ ?_
    | with_reducible refine keeps_ite_fst ?_ ?_
    | with_reducible refine keeps_pair (by assumption) ?_
    | split
    | fail_if_no_progress extract_lets
    | dsimp +zetaDelta only)

theorem keeps_msDrop {P : Nat} {s u : State} {a1 a2} (hP : Fits 0x2400fca000000000000000000012068002000000000000000000000000000000000000000000000000 P) (h : Keeps P s u) :
    Keeps P s (State.msDrop u a1 a2) := by
  unfold State.msDrop
  repeat' (first
    | with_reducible exact h
    | with_reducible assumption
    | dsimp -zeta only
    | with_reducible refine keeps_msReport (hP.sub rfl) ?_
    | with_reducible refine keeps_endWaits (hP.sub rfl) ?_
    | with_reducible refine keeps_ddsUnarm (hP.sub rfl) ?_
    | with_reducible refine keeps_msRemove (hP.sub rfl) ?_
    | intro _
    | with_reducible refine keeps_ite ?_ ?_
    | with_reducible refine keeps_ite_fst ?_ ?_
    | with_reducible refine keeps_pair (by assumption) ?_
    | split
    | fail_if_no_progress extract_lets
    | dsimp +zetaDelta only)

theorem keeps_msDropAll {P : Nat} {s u : State} {a1 a2} (hP : Fits 0x2400fca000000000000000000012068002000000000000000000000000000000000000000000000000 P) (h : Keeps P s u) :
    Keeps P s (State.msDropAll u a1 a2) := by
  unfold State.msDropAll
  repeat' (first
    | with_reducible exact h
    | with_reducible assumption
    | dsimp -zeta only
    | with_reducible refine keeps_msDrop (hP.sub rfl) ?_
    | with_reducible refine keeps_foldl ?_ ?_
    | with_reducible refine keeps_foldl_fst ?_ ?_
    | intro _
    | with_reducible refine keeps_ite ?_ ?_
    | with_reducible refine keeps_ite_fst ?_ ?_
    | with_reducible refine keeps_pair (by assumption) ?_
    | split
    | fail_if_no_progress extract_lets
    | dsimp +zetaDelta only)

theorem keeps_msFireAt_eq {P : Nat} {s u v : State} {a1 a2 a3 a4 fd} (he : State.msFireAt u a1 a2 a3 a4 = some (v, fd)) (hP : Fits 0x41000000000000000000000000000000000000000000000000000000000000000000000000000 P)
    (h : Keeps P s u) : Keeps P s v := by
  unfold State.msFireAt at he
  split at he
  · simp at he
  · split at he
    · simp at he
    · split at he
      · simp at he
      · simp only [Option.some.injEq, Prod.mk.injEq] at he
        rw [← he.1]
        exact keeps_ms hP rfl (keeps_msRemove (hP.sub rfl) (keeps_advance (hP.sub rfl) h)) (fun h => h)

theorem keeps_msFire_eq {P : Nat} {s u v : State} {a1 a2 fd} (he : State.msFire u a1 a2 = some (v, fd)) (hP : Fits 0x41000000000000000000000000000000000000000000000000000000000000000000000000000 P)
    (h : Keeps P s u) : Keeps P s v := by
  unfold State.msFire at he
  exact keeps_msFireAt_eq he (hP.sub rfl) h

theorem keeps_msDone {P : Nat} {s u : State} {a1 a2} (hP : Fits 0x2000f8a000000000000000000012068002000000000000000000000000000000000000000000000000 P) (h : Keeps P s u) :
    Keeps P s (State.msDone u a1 a2) := by
  unfold State.msDone
  repeat' (first
    | with_reducible exact h
    | with_reducible assumption
    | dsimp -zeta only
    | with_reducible refine keeps_msReport (hP.sub rfl) ?_
    | with_reducible refine keeps_endWaits (hP.sub rfl) ?_
    | intro _
    | with_reducible refine keeps_ite ?_ ?_
    | with_reducible refine keeps_ite_fst ?_ ?_
    | with_reducible refine keeps_pair (by assumption) ?_
    | split
    | fail_if_no_progress extract_lets
    | dsimp +zetaDelta only)

end Sys2Proof.Machine
end

