-- ==== Sys2Proof/Laws/KeepsSextant.lean ====
section
/-! SUPPORT. What each operation of Machine/Sextant.lean may change, and that it keeps the invariant: one law for each. -/

set_option linter.unreachableTactic false
set_option linter.unusedTactic false

namespace Sys2Proof.Machine

theorem keeps_setSxtChan {P : Nat} {s u : State} {a1 a2} (hP : Fits 0x200000000000000000000000000000000000000000000000000000000000000000000000000000000 P) (h : Keeps P s u) :
    Keeps P s (State.setSxtChan u a1 a2) := by
  unfold State.setSxtChan
  repeat' (first
    | with_reducible exact h
    | with_reducible assumption
    | dsimp -zeta only
    | intro _
    | with_reducible refine keeps_ite ?_ ?_
    | with_reducible refine keeps_ite_fst ?_ ?_
    | with_reducible refine keeps_pair (by assumption) ?_
    | split
    | fail_if_no_progress extract_lets
    | fail_if_no_progress with_reducible refine keeps_sxt hP rfl ?_
    | dsimp +zetaDelta only)

theorem keeps_setMu {P : Nat} {s u : State} {a1 a2} (hP : Fits 0x200000000000000000000000000000000000000000000000000000000000000000000000000000000 P) (h : Keeps P s u) :
    Keeps P s (State.setMu u a1 a2) := by
  unfold State.setMu
  repeat' (first
    | with_reducible exact h
    | with_reducible assumption
    | dsimp -zeta only
    | intro _
    | with_reducible refine keeps_ite ?_ ?_
    | with_reducible refine keeps_ite_fst ?_ ?_
    | with_reducible refine keeps_pair (by assumption) ?_
    | split
    | fail_if_no_progress extract_lets
    | fail_if_no_progress with_reducible refine keeps_sxt hP rfl ?_
    | dsimp +zetaDelta only)

theorem keeps_sxtArm {P : Nat} {s u : State} {a1 a2 a3} (hP : Fits 0x200000000000000000000000000000000000000000000000000000000000000000000000000000000 P) (h : Keeps P s u) :
    Keeps P s (State.sxtArm u a1 a2 a3) := by
  unfold State.sxtArm
  repeat' (first
    | with_reducible exact h
    | with_reducible assumption
    | dsimp -zeta only
    | with_reducible refine keeps_setSxtChan (hP.sub rfl) ?_
    | intro _
    | with_reducible refine keeps_ite ?_ ?_
    | with_reducible refine keeps_ite_fst ?_ ?_
    | with_reducible refine keeps_pair (by assumption) ?_
    | split
    | fail_if_no_progress extract_lets
    | dsimp +zetaDelta only)

theorem keeps_sxtWindow {P : Nat} {s u : State} {a1 a2 a3 a4} (hP : Fits 0x200000000000000000000000000000000000000000000000000000000000000000000000000000000 P) (h : Keeps P s u) :
    Keeps P s (State.sxtWindow u a1 a2 a3 a4) := by
  unfold State.sxtWindow
  repeat' (first
    | with_reducible exact h
    | with_reducible assumption
    | dsimp -zeta only
    | with_reducible refine keeps_setSxtChan (hP.sub rfl) ?_
    | intro _
    | with_reducible refine keeps_ite ?_ ?_
    | with_reducible refine keeps_ite_fst ?_ ?_
    | with_reducible refine keeps_pair (by assumption) ?_
    | split
    | fail_if_no_progress extract_lets
    | dsimp +zetaDelta only)

theorem keeps_muSample {P : Nat} {s u : State} {a1 a2} (hP : Fits 0x200000000000000000000000000000000000000000000000000000000100000000000000000000000 P) (h : Keeps P s u) :
    Keeps P s (State.muSample u a1 a2) := by
  unfold State.muSample
  repeat' (first
    | with_reducible exact h
    | with_reducible assumption
    | dsimp -zeta only
    | with_reducible refine keeps_setMu (hP.sub rfl) ?_
    | with_reducible refine keeps_bump hP rfl ?_
    | intro _
    | with_reducible refine keeps_ite ?_ ?_
    | with_reducible refine keeps_ite_fst ?_ ?_
    | with_reducible refine keeps_pair (by assumption) ?_
    | split
    | fail_if_no_progress extract_lets
    | dsimp +zetaDelta only)

theorem keeps_openDiv {P : Nat} {s u : State} {a1 a2} (hP : Fits 0x2000000000000000000000000000000000000000000000000000000000000000000000000000 P) (h : Keeps P s u) :
    Keeps P s (State.openDiv u a1 a2).1 := by
  unfold State.openDiv
  repeat' (first
    | with_reducible exact h
    | with_reducible assumption
    | dsimp -zeta only
    | with_reducible refine keeps_fresh (hP.sub rfl) ?_
    | with_reducible refine keeps_fresh_eq (by assumption) (hP.sub rfl) ?_
    | intro _
    | with_reducible refine keeps_ite ?_ ?_
    | with_reducible refine keeps_ite_fst ?_ ?_
    | with_reducible refine keeps_pair (by assumption) ?_
    | split
    | fail_if_no_progress extract_lets
    | dsimp +zetaDelta only)

theorem keeps_openDiv_eq {P : Nat} {s u v : State} {a1 a2} {x} (he : State.openDiv u a1 a2 = (v, x)) (hP : Fits 0x2000000000000000000000000000000000000000000000000000000000000000000000000000 P)
    (h : Keeps P s u) : Keeps P s v := by
  have h1 := keeps_openDiv (a1 := a1) (a2 := a2) hP h
  rw [he] at h1
  exact h1

theorem keeps_muStats {P : Nat} {s u : State} {a1} (hP : Fits 0x2000000000000000000000000000000000000000000000000000000000000000000000000000 P) (h : Keeps P s u) :
    Keeps P s (State.muStats u a1).1 := by
  unfold State.muStats
  repeat' (first
    | with_reducible exact h
    | with_reducible assumption
    | dsimp -zeta only
    | with_reducible refine keeps_openDiv (hP.sub rfl) ?_
    | with_reducible refine keeps_openDiv_eq (by assumption) (hP.sub rfl) ?_
    | with_reducible refine keeps_fresh (hP.sub rfl) ?_
    | with_reducible refine keeps_fresh_eq (by assumption) (hP.sub rfl) ?_
    | intro _
    | with_reducible refine keeps_ite ?_ ?_
    | with_reducible refine keeps_ite_fst ?_ ?_
    | with_reducible refine keeps_pair (by assumption) ?_
    | split
    | fail_if_no_progress extract_lets
    | dsimp +zetaDelta only)

theorem keeps_muStats_eq {P : Nat} {s u v : State} {a1} {x} (he : State.muStats u a1 = (v, x)) (hP : Fits 0x2000000000000000000000000000000000000000000000000000000000000000000000000000 P)
    (h : Keeps P s u) : Keeps P s v := by
  have h1 := keeps_muStats (a1 := a1) hP h
  rw [he] at h1
  exact h1

theorem keeps_muAnswer {P : Nat} {s u : State} {a1 a2} (hP : Fits 0xa3e0f9b000000000300000000012068002000a1002140a100000000000000040000000000000000000 P) (h : Keeps P s u) :
    Keeps P s (State.muAnswer u a1 a2) := by
  unfold State.muAnswer
  repeat' (first
    | with_reducible exact h
    | with_reducible assumption
    | dsimp -zeta only
    | with_reducible refine keeps_storeResult (hP.sub rfl) ?_
    | with_reducible refine keeps_storeResult_eq (by assumption) (hP.sub rfl) ?_
    | with_reducible refine keeps_endWaits (hP.sub rfl) ?_
    | with_reducible refine keeps_muStats (hP.sub rfl) ?_
    | with_reducible refine keeps_muStats_eq (by assumption) (hP.sub rfl) ?_
    | with_reducible refine keeps_sxtArm (hP.sub rfl) ?_
    | with_reducible refine keeps_fput hP rfl ?_
    | with_reducible refine keeps_foldl ?_ ?_
    | with_reducible refine keeps_foldl_fst ?_ ?_
    | intro _
    | with_reducible refine keeps_ite ?_ ?_
    | with_reducible refine keeps_ite_fst ?_ ?_
    | with_reducible refine keeps_pair (by assumption) ?_
    | split
    | fail_if_no_progress extract_lets
    | dsimp +zetaDelta only)

theorem keeps_muSlewed {P : Nat} {s u : State} {a1} (hP : Fits 0x200000000000000000000000000000000000000000000000000000000000000000000000000000000 P) (h : Keeps P s u) :
    Keeps P s (State.muSlewed u a1) := by
  unfold State.muSlewed
  repeat' (first
    | with_reducible exact h
    | with_reducible assumption
    | dsimp -zeta only
    | with_reducible refine keeps_setMu (hP.sub rfl) ?_
    | intro _
    | with_reducible refine keeps_ite ?_ ?_
    | with_reducible refine keeps_ite_fst ?_ ?_
    | with_reducible refine keeps_pair (by assumption) ?_
    | split
    | fail_if_no_progress extract_lets
    | dsimp +zetaDelta only)

theorem keeps_muPost {P : Nat} {s u : State} {a1 a2} (hP : Fits 0xa3e0f9b000000000300000000012068002000a1002140a100000000003e08040000000000000000000 P) (h : Keeps P s u) :
    Keeps P s (State.muPost u a1 a2) := by
  unfold State.muPost
  repeat' (first
    | with_reducible exact h
    | with_reducible assumption
    | dsimp -zeta only
    | with_reducible refine keeps_muAnswer (hP.sub rfl) ?_
    | with_reducible refine keeps_report (hP.sub rfl) ?_
    | with_reducible refine keeps_setMu (hP.sub rfl) ?_
    | with_reducible refine keeps_wr hP rfl ?_
    | with_reducible refine keeps_fput hP rfl ?_
    | intro _
    | with_reducible refine keeps_ite ?_ ?_
    | with_reducible refine keeps_ite_fst ?_ ?_
    | with_reducible refine keeps_pair (by assumption) ?_
    | split
    | fail_if_no_progress extract_lets
    | dsimp +zetaDelta only)

theorem keeps_muCheck {P : Nat} {s u : State} {a1} (hP : Fits 0xa3e0f9b000000000300000000012068002000a1002140a100000000003e08040000000000000000000 P) (h : Keeps P s u) :
    Keeps P s (State.muCheck u a1) := by
  unfold State.muCheck
  repeat' (first
    | with_reducible exact h
    | with_reducible assumption
    | dsimp -zeta only
    | with_reducible refine keeps_muPost (hP.sub rfl) ?_
    | intro _
    | with_reducible refine keeps_ite ?_ ?_
    | with_reducible refine keeps_ite_fst ?_ ?_
    | with_reducible refine keeps_pair (by assumption) ?_
    | split
    | fail_if_no_progress extract_lets
    | dsimp +zetaDelta only)

theorem keeps_muFeed {P : Nat} {s u : State} {a1 a2 a3} (hP : Fits 0xa3e0f9b000000000300000000012068002000a1002140a100000000003f08040000000000000000000 P) (h : Keeps P s u) :
    Keeps P s (State.muFeed u a1 a2 a3) := by
  unfold State.muFeed
  repeat' (first
    | with_reducible exact h
    | with_reducible assumption
    | dsimp -zeta only
    | with_reducible refine keeps_muSample (hP.sub rfl) ?_
    | with_reducible refine keeps_muCheck (hP.sub rfl) ?_
    | with_reducible refine keeps_setMu (hP.sub rfl) ?_
    | with_reducible refine keeps_bump hP rfl ?_
    | intro _
    | with_reducible refine keeps_ite ?_ ?_
    | with_reducible refine keeps_ite_fst ?_ ?_
    | with_reducible refine keeps_pair (by assumption) ?_
    | split
    | fail_if_no_progress extract_lets
    | dsimp +zetaDelta only)

theorem keeps_muDiscard {P : Nat} {s u : State} {a1 a2} (hP : Fits 0x200000000000000000000000000000000000000000000000000000000080000000000000000000000 P) (h : Keeps P s u) :
    Keeps P s (State.muDiscard u a1 a2) := by
  unfold State.muDiscard
  repeat' (first
    | with_reducible exact h
    | with_reducible assumption
    | dsimp -zeta only
    | with_reducible refine keeps_setMu (hP.sub rfl) ?_
    | with_reducible refine keeps_fput hP rfl ?_
    | intro _
    | with_reducible refine keeps_ite ?_ ?_
    | with_reducible refine keeps_ite_fst ?_ ?_
    | with_reducible refine keeps_pair (by assumption) ?_
    | split
    | fail_if_no_progress extract_lets
    | dsimp +zetaDelta only)

theorem keeps_muBreak {P : Nat} {s u : State} {a1 a2} (hP : Fits 0x200000000000000000000000000000000000000000000000000000000080000000000000000000000 P) (h : Keeps P s u) :
    Keeps P s (State.muBreak u a1 a2) := by
  unfold State.muBreak
  repeat' (first
    | with_reducible exact h
    | with_reducible assumption
    | dsimp -zeta only
    | with_reducible refine keeps_muDiscard (hP.sub rfl) ?_
    | with_reducible refine keeps_foldl ?_ ?_
    | with_reducible refine keeps_foldl_fst ?_ ?_
    | intro _
    | with_reducible refine keeps_ite ?_ ?_
    | with_reducible refine keeps_ite_fst ?_ ?_
    | with_reducible refine keeps_pair (by assumption) ?_
    | split
    | fail_if_no_progress extract_lets
    | dsimp +zetaDelta only)

theorem keeps_sxtSettle {P : Nat} {s u : State} (hP : Fits 0x200000000000000000000000000000000000000000000000000000000080000000000000000000000 P) (h : Keeps P s u) :
    Keeps P s (State.sxtSettle u) := by
  unfold State.sxtSettle
  repeat' (first
    | with_reducible exact h
    | with_reducible assumption
    | dsimp -zeta only
    | with_reducible refine keeps_setSxtChan (hP.sub rfl) ?_
    | with_reducible refine keeps_muBreak (hP.sub rfl) ?_
    | with_reducible refine keeps_foldl ?_ ?_
    | with_reducible refine keeps_foldl_fst ?_ ?_
    | intro _
    | with_reducible refine keeps_ite ?_ ?_
    | with_reducible refine keeps_ite_fst ?_ ?_
    | with_reducible refine keeps_pair (by assumption) ?_
    | split
    | fail_if_no_progress extract_lets
    | dsimp +zetaDelta only)

theorem keeps_sxtLost {P : Nat} {s u : State} {a1 a2 a3} (hP : Fits 0x200000000000000000000000000000000000000000000000000000000080000000000000000000000 P) (h : Keeps P s u) :
    Keeps P s (State.sxtLost u a1 a2 a3) := by
  unfold State.sxtLost
  repeat' (first
    | with_reducible exact h
    | with_reducible assumption
    | dsimp -zeta only
    | with_reducible refine keeps_setSxtChan (hP.sub rfl) ?_
    | with_reducible refine keeps_sxtSettle (hP.sub rfl) ?_
    | intro _
    | with_reducible refine keeps_ite ?_ ?_
    | with_reducible refine keeps_ite_fst ?_ ?_
    | with_reducible refine keeps_pair (by assumption) ?_
    | split
    | fail_if_no_progress extract_lets
    | dsimp +zetaDelta only)

theorem keeps_sxtCompare {P : Nat} {s u : State} {a1 a2 a3} (hP : Fits 0x1000000000000000000000000000000000000000000000000000000000000000000000000000000 P) (h : Keeps P s u) :
    Keeps P s (State.sxtCompare u a1 a2 a3) := by
  unfold State.sxtCompare
  repeat' (first
    | with_reducible exact h
    | with_reducible assumption
    | dsimp -zeta only
    | with_reducible refine keeps_setPin (hP.sub rfl) ?_
    | intro _
    | with_reducible refine keeps_ite ?_ ?_
    | with_reducible refine keeps_ite_fst ?_ ?_
    | with_reducible refine keeps_pair (by assumption) ?_
    | split
    | fail_if_no_progress extract_lets
    | dsimp +zetaDelta only)

theorem keeps_sxtCount {P : Nat} {s u : State} {a1} (hP : Fits 0x200000000000000000000000000000000000000000000000000000000000000000000000000000000 P) (h : Keeps P s u) :
    Keeps P s (State.sxtCount u a1) := by
  unfold State.sxtCount
  repeat' (first
    | with_reducible exact h
    | with_reducible assumption
    | dsimp -zeta only
    | with_reducible refine keeps_setSxtChan (hP.sub rfl) ?_
    | intro _
    | with_reducible refine keeps_ite ?_ ?_
    | with_reducible refine keeps_ite_fst ?_ ?_
    | with_reducible refine keeps_pair (by assumption) ?_
    | split
    | fail_if_no_progress extract_lets
    | dsimp +zetaDelta only)

theorem keeps_doSextantEdge {P : Nat} {s u : State} {a0 a1 a2 a3} (hP : Fits 0x201001000000000000000000000000000000000000000000000000000084000000000000000000000 P) (h : Keeps P s u) :
    Keeps P s (doSextantEdge a0 a1 a2 a3 u) := by
  unfold doSextantEdge
  repeat' (first
    | with_reducible exact h
    | with_reducible assumption
    | dsimp -zeta only
    | with_reducible refine keeps_sxtCompare (hP.sub rfl) ?_
    | with_reducible refine keeps_setSxtChan (hP.sub rfl) ?_
    | with_reducible refine keeps_sxtCount (hP.sub rfl) ?_
    | with_reducible refine keeps_advance (hP.sub rfl) ?_
    | with_reducible refine keeps_sxtLost (hP.sub rfl) ?_
    | with_reducible refine keeps_bump hP rfl ?_
    | intro _
    | with_reducible refine keeps_ite ?_ ?_
    | with_reducible refine keeps_ite_fst ?_ ?_
    | with_reducible refine keeps_pair (by assumption) ?_
    | split
    | fail_if_no_progress extract_lets
    | dsimp +zetaDelta only)

theorem keeps_notePost {P : Nat} {s u : State} {a1 a2} (hP : Fits 0x200000000000000000000000000000000000000000000000000000000000000000000000000000000 P) (h : Keeps P s u) :
    Keeps P s (State.notePost u a1 a2) := by
  unfold State.notePost
  repeat' (first
    | with_reducible exact h
    | with_reducible assumption
    | dsimp -zeta only
    | intro _
    | with_reducible refine keeps_ite ?_ ?_
    | with_reducible refine keeps_ite_fst ?_ ?_
    | with_reducible refine keeps_pair (by assumption) ?_
    | split
    | fail_if_no_progress extract_lets
    | fail_if_no_progress with_reducible refine keeps_sxt hP rfl ?_
    | dsimp +zetaDelta only)

theorem keeps_sxtAccept {P : Nat} {s u : State} {a1 a2} (hP : Fits 0xa3e0f9b000000000300000000012068002000a1002140a100000000003f08040000000000000000000 P) (h : Keeps P s u) :
    Keeps P s (State.sxtAccept u a1 a2) := by
  unfold State.sxtAccept
  repeat' (first
    | with_reducible exact h
    | with_reducible assumption
    | dsimp -zeta only
    | with_reducible refine keeps_setSxtChan (hP.sub rfl) ?_
    | with_reducible refine keeps_notePost (hP.sub rfl) ?_
    | with_reducible refine keeps_muFeed (hP.sub rfl) ?_
    | with_reducible refine keeps_foldl ?_ ?_
    | with_reducible refine keeps_foldl_fst ?_ ?_
    | intro _
    | with_reducible refine keeps_ite ?_ ?_
    | with_reducible refine keeps_ite_fst ?_ ?_
    | with_reducible refine keeps_pair (by assumption) ?_
    | split
    | fail_if_no_progress extract_lets
    | dsimp +zetaDelta only)

theorem keeps_sxtDecide {P : Nat} {s u : State} {a1 a2} (hP : Fits 0xa3e0f9b000000000300000000012068002000a1002140a100000000003f8e040000000000000000000 P) (h : Keeps P s u) :
    Keeps P s (State.sxtDecide u a1 a2) := by
  unfold State.sxtDecide
  repeat' (first
    | with_reducible exact h
    | with_reducible assumption
    | dsimp -zeta only
    | with_reducible refine keeps_setSxtChan (hP.sub rfl) ?_
    | with_reducible refine keeps_sxtAccept (hP.sub rfl) ?_
    | with_reducible refine keeps_muBreak (hP.sub rfl) ?_
    | with_reducible refine keeps_bump hP rfl ?_
    | with_reducible refine keeps_tick hP rfl ?_
    | intro _
    | with_reducible refine keeps_ite ?_ ?_
    | with_reducible refine keeps_ite_fst ?_ ?_
    | with_reducible refine keeps_pair (by assumption) ?_
    | split
    | fail_if_no_progress extract_lets
    | dsimp +zetaDelta only)

theorem keeps_doStampDecision {P : Nat} {s u : State} {a0} (hP : Fits 0xa3e0f9b000000000300000000012068002000a1002140a100000000003f8e040000000000000000000 P) (h : Keeps P s u) :
    Keeps P s (doStampDecision a0 u) := by
  unfold doStampDecision
  repeat' (first
    | with_reducible exact h
    | with_reducible assumption
    | dsimp -zeta only
    | with_reducible refine keeps_setSxtChan (hP.sub rfl) ?_
    | with_reducible refine keeps_sxtDecide (hP.sub rfl) ?_
    | with_reducible refine keeps_sxtSettle (hP.sub rfl) ?_
    | with_reducible refine keeps_advance (hP.sub rfl) ?_
    | intro _
    | with_reducible refine keeps_ite ?_ ?_
    | with_reducible refine keeps_ite_fst ?_ ?_
    | with_reducible refine keeps_pair (by assumption) ?_
    | split
    | fail_if_no_progress extract_lets
    | dsimp +zetaDelta only)

theorem keeps_doStampPost {P : Nat} {s u : State} {a0} (hP : Fits 0x200188000000000000000000012068000000000000000000000000000000000000000000000000000 P) (h : Keeps P s u) :
    Keeps P s (doStampPost a0 u) := by
  unfold doStampPost
  repeat' (first
    | with_reducible exact h
    | with_reducible assumption
    | dsimp -zeta only
    | with_reducible refine keeps_setSxtChan (hP.sub rfl) ?_
    | with_reducible refine keeps_report (hP.sub rfl) ?_
    | intro _
    | with_reducible refine keeps_ite ?_ ?_
    | with_reducible refine keeps_ite_fst ?_ ?_
    | with_reducible refine keeps_pair (by assumption) ?_
    | split
    | fail_if_no_progress extract_lets
    | dsimp +zetaDelta only)

theorem keeps_doFrequencyRunEnd {P : Nat} {s u : State} {a0} (hP : Fits 0xa3e0f9b000000000300000000012068002000a1002140a100000000003e08040000000000000000000 P) (h : Keeps P s u) :
    Keeps P s (doFrequencyRunEnd a0 u) := by
  unfold doFrequencyRunEnd
  repeat' (first
    | with_reducible exact h
    | with_reducible assumption
    | dsimp -zeta only
    | with_reducible refine keeps_muSlewed (hP.sub rfl) ?_
    | with_reducible refine keeps_advance (hP.sub rfl) ?_
    | with_reducible refine keeps_muPost (hP.sub rfl) ?_
    | with_reducible refine keeps_setMu (hP.sub rfl) ?_
    | intro _
    | with_reducible refine keeps_ite ?_ ?_
    | with_reducible refine keeps_ite_fst ?_ ?_
    | with_reducible refine keeps_pair (by assumption) ?_
    | split
    | fail_if_no_progress extract_lets
    | dsimp +zetaDelta only)

theorem keeps_doSxtWinCommit {P : Nat} {s u : State} {a0} (hP : Fits 0x200408000000000000004000000000000000000000000000000000000000000000000000000000000 P) (h : Keeps P s u) :
    Keeps P s (doSxtWinCommit a0 u) := by
  unfold doSxtWinCommit
  repeat' (first
    | with_reducible exact h
    | with_reducible assumption
    | dsimp -zeta only
    | with_reducible refine keeps_rtWriteDrop (hP.sub rfl) ?_
    | with_reducible refine keeps_sxtWindow (hP.sub rfl) ?_
    | intro _
    | with_reducible refine keeps_ite ?_ ?_
    | with_reducible refine keeps_ite_fst ?_ ?_
    | with_reducible refine keeps_pair (by assumption) ?_
    | split
    | fail_if_no_progress extract_lets
    | dsimp +zetaDelta only)

theorem keeps_doSxtChCtlWrite {P : Nat} {s u : State} {a0 a1} (hP : Fits 0x200408000000000000004000000000000000000000000000000000000000040000000000000000000 P) (h : Keeps P s u) :
    Keeps P s (doSxtChCtlWrite a0 a1 u) := by
  unfold doSxtChCtlWrite
  repeat' (first
    | with_reducible exact h
    | with_reducible assumption
    | dsimp -zeta only
    | with_reducible refine keeps_rtWriteDrop (hP.sub rfl) ?_
    | with_reducible refine keeps_sxtArm (hP.sub rfl) ?_
    | with_reducible refine keeps_wr hP rfl ?_
    | intro _
    | with_reducible refine keeps_ite ?_ ?_
    | with_reducible refine keeps_ite_fst ?_ ?_
    | with_reducible refine keeps_pair (by assumption) ?_
    | split
    | fail_if_no_progress extract_lets
    | dsimp +zetaDelta only)

theorem keeps_doSxtMuCtlWrite {P : Nat} {s u : State} {a0 a1} (hP : Fits 0xa3e0f9b000000000300000000012068002000a1002140a100000000003e88040000000000000000000 P) (h : Keeps P s u) :
    Keeps P s (doSxtMuCtlWrite a0 a1 u) := by
  unfold doSxtMuCtlWrite
  repeat' (first
    | with_reducible exact h
    | with_reducible assumption
    | dsimp -zeta only
    | with_reducible refine keeps_muDiscard (hP.sub rfl) ?_
    | with_reducible refine keeps_muSlewed (hP.sub rfl) ?_
    | with_reducible refine keeps_muPost (hP.sub rfl) ?_
    | with_reducible refine keeps_setMu (hP.sub rfl) ?_
    | with_reducible refine keeps_wr hP rfl ?_
    | with_reducible refine keeps_fput hP rfl ?_
    | intro _
    | with_reducible refine keeps_ite ?_ ?_
    | with_reducible refine keeps_ite_fst ?_ ?_
    | with_reducible refine keeps_pair (by assumption) ?_
    | split
    | fail_if_no_progress extract_lets
    | dsimp +zetaDelta only)

theorem keeps_doSelfCheckStart {P : Nat} {s u : State} (hP : Fits 0x200000000000000000000000000000000000000000000000000000000000022000000000000000000 P) (h : Keeps P s u) :
    Keeps P s (doSelfCheckStart u) := by
  unfold doSelfCheckStart
  repeat' (first
    | with_reducible exact h
    | with_reducible assumption
    | dsimp -zeta only
    | with_reducible refine keeps_setSxtChan (hP.sub rfl) ?_
    | with_reducible refine keeps_fput hP rfl ?_
    | with_reducible refine keeps_foldl ?_ ?_
    | with_reducible refine keeps_foldl_fst ?_ ?_
    | intro _
    | with_reducible refine keeps_ite ?_ ?_
    | with_reducible refine keeps_ite_fst ?_ ?_
    | with_reducible refine keeps_pair (by assumption) ?_
    | split
    | fail_if_no_progress extract_lets
    | dsimp +zetaDelta only)

theorem keeps_doSelfCheckDone {P : Nat} {s u : State} {a0} (hP : Fits 0x2200e02000000000000000000000000002000000000000000000000000000012000000000000000000 P) (h : Keeps P s u) :
    Keeps P s (doSelfCheckDone a0 u) := by
  unfold doSelfCheckDone
  repeat' (first
    | with_reducible exact h
    | with_reducible assumption
    | dsimp -zeta only
    | with_reducible refine keeps_setSxtChan (hP.sub rfl) ?_
    | with_reducible refine keeps_endWaits (hP.sub rfl) ?_
    | with_reducible refine keeps_fput hP rfl ?_
    | with_reducible refine keeps_foldl ?_ ?_
    | with_reducible refine keeps_foldl_fst ?_ ?_
    | intro _
    | with_reducible refine keeps_ite ?_ ?_
    | with_reducible refine keeps_ite_fst ?_ ?_
    | with_reducible refine keeps_pair (by assumption) ?_
    | split
    | fail_if_no_progress extract_lets
    | dsimp +zetaDelta only)

theorem keeps_doMsSxtArm {P : Nat} {s u : State} {a0} (hP : Fits 0x2200fcb000000000000000000012068002000000000000000000000000000000000000000000000000 P) (h : Keeps P s u) :
    Keeps P s (doMsSxtArm a0 u) := by
  unfold doMsSxtArm
  repeat' (first
    | with_reducible exact h
    | with_reducible assumption
    | dsimp -zeta only
    | with_reducible refine keeps_msDone (hP.sub rfl) ?_
    | with_reducible refine keeps_sxtArm (hP.sub rfl) ?_
    | with_reducible refine keeps_msFire_eq (by assumption) (hP.sub rfl) ?_
    | with_reducible refine keeps_id ?_
    | intro _
    | with_reducible refine keeps_ite ?_ ?_
    | with_reducible refine keeps_ite_fst ?_ ?_
    | with_reducible refine keeps_pair (by assumption) ?_
    | split
    | fail_if_no_progress extract_lets
    | dsimp +zetaDelta only)

theorem keeps_doMsSxtWindow {P : Nat} {s u : State} {a0} (hP : Fits 0x2200fcb000000000000000000012068002000000000000000000000000000000000000000000000000 P) (h : Keeps P s u) :
    Keeps P s (doMsSxtWindow a0 u) := by
  unfold doMsSxtWindow
  repeat' (first
    | with_reducible exact h
    | with_reducible assumption
    | dsimp -zeta only
    | with_reducible refine keeps_sxtWindow (hP.sub rfl) ?_
    | with_reducible refine keeps_msDone (hP.sub rfl) ?_
    | with_reducible refine keeps_msFire_eq (by assumption) (hP.sub rfl) ?_
    | with_reducible refine keeps_id ?_
    | intro _
    | with_reducible refine keeps_ite ?_ ?_
    | with_reducible refine keeps_ite_fst ?_ ?_
    | with_reducible refine keeps_pair (by assumption) ?_
    | split
    | fail_if_no_progress extract_lets
    | dsimp +zetaDelta only)

theorem keeps_sxtProgram {P : Nat} {s u : State} {a1 a2 a3} (hP : Fits 0x200000000000000000000000000000000000000000000000000000000000040000000000000000000 P) (h : Keeps P s u) :
    Keeps P s (State.sxtProgram u a1 a2 a3) := by
  unfold State.sxtProgram
  repeat' (first
    | with_reducible exact h
    | with_reducible assumption
    | dsimp -zeta only
    | with_reducible refine keeps_sxtArm (hP.sub rfl) ?_
    | with_reducible refine keeps_fput hP rfl ?_
    | intro _
    | with_reducible refine keeps_ite ?_ ?_
    | with_reducible refine keeps_ite_fst ?_ ?_
    | with_reducible refine keeps_pair (by assumption) ?_
    | split
    | fail_if_no_progress extract_lets
    | dsimp +zetaDelta only)

theorem keeps_measWindow {P : Nat} {s u : State} {a1 a2} (hP : Fits 0x40000000000000000000000000000000000000000000000000000000000000000000000010000 P) (h : Keeps P s u) :
    Keeps P s (State.measWindow u a1 a2).1 := by
  unfold State.measWindow
  repeat' (first
    | with_reducible exact h
    | with_reducible assumption
    | dsimp -zeta only
    | with_reducible refine keeps_msCommit (hP.sub rfl) ?_
    | with_reducible refine keeps_msCommit_eq (by assumption) (hP.sub rfl) ?_
    | intro _
    | with_reducible refine keeps_ite ?_ ?_
    | with_reducible refine keeps_ite_fst ?_ ?_
    | with_reducible refine keeps_pair (by assumption) ?_
    | split
    | fail_if_no_progress extract_lets
    | dsimp +zetaDelta only)

theorem keeps_measWindow_eq {P : Nat} {s u v : State} {a1 a2} {x} (he : State.measWindow u a1 a2 = (v, x)) (hP : Fits 0x40000000000000000000000000000000000000000000000000000000000000000000000010000 P)
    (h : Keeps P s u) : Keeps P s v := by
  have h1 := keeps_measWindow (a1 := a1) (a2 := a2) hP h
  rw [he] at h1
  exact h1

theorem keeps_measRun {P : Nat} {s u : State} {a1 a2} (hP : Fits 0xa3e0f9b000000000300000000012068002000a1002140a100000000003eb8040000000000000000000 P) (h : Keeps P s u) :
    Keeps P s (State.measRun u a1 a2) := by
  unfold State.measRun
  repeat' (first
    | with_reducible exact h
    | with_reducible assumption
    | dsimp -zeta only
    | with_reducible refine keeps_sxtProgram (hP.sub rfl) ?_
    | with_reducible refine keeps_doSxtMuCtlWrite (hP.sub rfl) ?_
    | with_reducible refine keeps_fput hP rfl ?_
    | intro _
    | with_reducible refine keeps_ite ?_ ?_
    | with_reducible refine keeps_ite_fst ?_ ?_
    | with_reducible refine keeps_pair (by assumption) ?_
    | split
    | fail_if_no_progress extract_lets
    | dsimp +zetaDelta only)

theorem keeps_bodySextantMeasure {P : Nat} {s u : State} {k} (hP : Fits 0xa3e0fdb000000000300000000012068002000a1002140a100000000003eb8040000000000000010000 P) (h : Keeps P s u) :
    Keeps P s (bodySextantMeasure k u).1 := by
  unfold bodySextantMeasure
  beta_reduce
  repeat' (first
    | with_reducible exact h
    | with_reducible assumption
    | dsimp -zeta only
    | with_reducible refine keeps_measWindow (hP.sub rfl) ?_
    | with_reducible refine keeps_measWindow_eq (by assumption) (hP.sub rfl) ?_
    | with_reducible refine keeps_measRun (hP.sub rfl) ?_
    | with_reducible refine keeps_stopped (hP.sub rfl) ?_
    | with_reducible refine keeps_stopped_eq (by assumption) (hP.sub rfl) ?_
    | with_reducible refine keeps_fail (hP.sub rfl) ?_
    | with_reducible refine keeps_fail_eq (by assumption) (hP.sub rfl) ?_
    | intro _
    | with_reducible refine keeps_ite ?_ ?_
    | with_reducible refine keeps_ite_fst ?_ ?_
    | with_reducible refine keeps_pair (by assumption) ?_
    | split
    | fail_if_no_progress extract_lets
    | dsimp +zetaDelta only)

theorem keeps_bodySextantMeasure_eq {P : Nat} {s u v : State} {k} {x} (he : bodySextantMeasure k u = (v, x)) (hP : Fits 0xa3e0fdb000000000300000000012068002000a1002140a100000000003eb8040000000000000010000 P)
    (h : Keeps P s u) : Keeps P s v := by
  have h1 := keeps_bodySextantMeasure (k := k) hP h
  rw [he] at h1
  exact h1

theorem keeps_bodySextantSelfcheck {P : Nat} {s u : State} {k} (hP : Fits 0x200000000000000000000000000000000000000000000000000000000000026000000000000000000 P) (h : Keeps P s u) :
    Keeps P s (bodySextantSelfcheck k u).1 := by
  unfold bodySextantSelfcheck
  beta_reduce
  repeat' (first
    | with_reducible exact h
    | with_reducible assumption
    | dsimp -zeta only
    | with_reducible refine keeps_doSelfCheckStart (hP.sub rfl) ?_
    | with_reducible refine keeps_fail (hP.sub rfl) ?_
    | with_reducible refine keeps_fail_eq (by assumption) (hP.sub rfl) ?_
    | with_reducible refine keeps_fput hP rfl ?_
    | intro _
    | with_reducible refine keeps_ite ?_ ?_
    | with_reducible refine keeps_ite_fst ?_ ?_
    | with_reducible refine keeps_pair (by assumption) ?_
    | split
    | fail_if_no_progress extract_lets
    | dsimp +zetaDelta only)

theorem keeps_bodySextantSelfcheck_eq {P : Nat} {s u v : State} {k} {x} (he : bodySextantSelfcheck k u = (v, x)) (hP : Fits 0x200000000000000000000000000000000000000000000000000000000000026000000000000000000 P)
    (h : Keeps P s u) : Keeps P s v := by
  have h1 := keeps_bodySextantSelfcheck (k := k) hP h
  rw [he] at h1
  exact h1

theorem keeps_execMsSxtArm {P : Nat} {u t : State} {a0} (he : execMsSxtArm a0 u = .next t) (hP : Fits 0x2200fcb000000000000000000012068002000000000000000000000000000000000000000000000000 P) : Keeps P u t := by
  unfold execMsSxtArm at he
  injection he with he
  subst he
  repeat' (first
    | with_reducible exact Keeps.refl P u
    | with_reducible assumption
    | dsimp -zeta only
    | with_reducible refine keeps_doMsSxtArm (hP.sub rfl) ?_
    | with_reducible refine keeps_id ?_
    | intro _
    | with_reducible refine keeps_ite ?_ ?_
    | with_reducible refine keeps_ite_fst ?_ ?_
    | with_reducible refine keeps_pair (by assumption) ?_
    | split
    | fail_if_no_progress extract_lets
    | dsimp +zetaDelta only)

theorem keeps_execMsSxtWindow {P : Nat} {u t : State} {a0} (he : execMsSxtWindow a0 u = .next t) (hP : Fits 0x2200fcb000000000000000000012068002000000000000000000000000000000000000000000000000 P) : Keeps P u t := by
  unfold execMsSxtWindow at he
  injection he with he
  subst he
  repeat' (first
    | with_reducible exact Keeps.refl P u
    | with_reducible assumption
    | dsimp -zeta only
    | with_reducible refine keeps_doMsSxtWindow (hP.sub rfl) ?_
    | with_reducible refine keeps_id ?_
    | intro _
    | with_reducible refine keeps_ite ?_ ?_
    | with_reducible refine keeps_ite_fst ?_ ?_
    | with_reducible refine keeps_pair (by assumption) ?_
    | split
    | fail_if_no_progress extract_lets
    | dsimp +zetaDelta only)

theorem keeps_execSextantEdge {P : Nat} {u t : State} {a0 a1 a2 a3} (he : execSextantEdge a0 a1 a2 a3 u = .next t) (hP : Fits 0x201001000000000000000000000000000000000000000000000000000084000000000000000000000 P) : Keeps P u t := by
  unfold execSextantEdge at he
  injection he with he
  subst he
  repeat' (first
    | with_reducible exact Keeps.refl P u
    | with_reducible assumption
    | dsimp -zeta only
    | with_reducible refine keeps_doSextantEdge (hP.sub rfl) ?_
    | intro _
    | with_reducible refine keeps_ite ?_ ?_
    | with_reducible refine keeps_ite_fst ?_ ?_
    | with_reducible refine keeps_pair (by assumption) ?_
    | split
    | fail_if_no_progress extract_lets
    | dsimp +zetaDelta only)

theorem keeps_execStampDecision {P : Nat} {u t : State} {a0} (he : execStampDecision a0 u = .next t) (hP : Fits 0xa3e0f9b000000000300000000012068002000a1002140a100000000003f8e040000000000000000000 P) : Keeps P u t := by
  unfold execStampDecision at he
  injection he with he
  subst he
  repeat' (first
    | with_reducible exact Keeps.refl P u
    | with_reducible assumption
    | dsimp -zeta only
    | with_reducible refine keeps_doStampDecision (hP.sub rfl) ?_
    | intro _
    | with_reducible refine keeps_ite ?_ ?_
    | with_reducible refine keeps_ite_fst ?_ ?_
    | with_reducible refine keeps_pair (by assumption) ?_
    | split
    | fail_if_no_progress extract_lets
    | dsimp +zetaDelta only)

theorem keeps_execStampPost {P : Nat} {u t : State} {a0} (he : execStampPost a0 u = .next t) (hP : Fits 0x200188000000000000000000012068000000000000000000000000000000000000000000000000000 P) : Keeps P u t := by
  unfold execStampPost at he
  injection he with he
  subst he
  repeat' (first
    | with_reducible exact Keeps.refl P u
    | with_reducible assumption
    | dsimp -zeta only
    | with_reducible refine keeps_doStampPost (hP.sub rfl) ?_
    | intro _
    | with_reducible refine keeps_ite ?_ ?_
    | with_reducible refine keeps_ite_fst ?_ ?_
    | with_reducible refine keeps_pair (by assumption) ?_
    | split
    | fail_if_no_progress extract_lets
    | dsimp +zetaDelta only)

theorem keeps_execFrequencyRunEnd {P : Nat} {u t : State} {a0} (he : execFrequencyRunEnd a0 u = .next t) (hP : Fits 0xa3e0f9b000000000300000000012068002000a1002140a100000000003e08040000000000000000000 P) : Keeps P u t := by
  unfold execFrequencyRunEnd at he
  injection he with he
  subst he
  repeat' (first
    | with_reducible exact Keeps.refl P u
    | with_reducible assumption
    | dsimp -zeta only
    | with_reducible refine keeps_doFrequencyRunEnd (hP.sub rfl) ?_
    | intro _
    | with_reducible refine keeps_ite ?_ ?_
    | with_reducible refine keeps_ite_fst ?_ ?_
    | with_reducible refine keeps_pair (by assumption) ?_
    | split
    | fail_if_no_progress extract_lets
    | dsimp +zetaDelta only)

theorem keeps_execSelfCheckDone {P : Nat} {u t : State} {a0} (he : execSelfCheckDone a0 u = .next t) (hP : Fits 0x2200e02000000000000000000000000002000000000000000000000000000012000000000000000000 P) : Keeps P u t := by
  unfold execSelfCheckDone at he
  injection he with he
  subst he
  repeat' (first
    | with_reducible exact Keeps.refl P u
    | with_reducible assumption
    | dsimp -zeta only
    | with_reducible refine keeps_doSelfCheckDone (hP.sub rfl) ?_
    | intro _
    | with_reducible refine keeps_ite ?_ ?_
    | with_reducible refine keeps_ite_fst ?_ ?_
    | with_reducible refine keeps_pair (by assumption) ?_
    | split
    | fail_if_no_progress extract_lets
    | dsimp +zetaDelta only)

theorem keeps_execSextantMeasure {P : Nat} {u t : State} {a0} (he : execSextantMeasure a0 u = .next t) (hP : Fits 0xa3e0fdb000000000300000000012068003f00a1002140a100000000003eb8040000000000000010000 P) : Keeps P u t := by
  unfold execSextantMeasure at he
  injection he with he
  subst he
  repeat' (first
    | with_reducible exact Keeps.refl P u
    | with_reducible assumption
    | dsimp -zeta only
    | with_reducible refine keeps_bodySextantMeasure (hP.sub rfl) ?_
    | with_reducible refine keeps_bodySextantMeasure_eq (by assumption) (hP.sub rfl) ?_
    | with_reducible refine keeps_runCommand (hP.sub rfl) ?_ ?_
    | intro _
    | with_reducible refine keeps_ite ?_ ?_
    | with_reducible refine keeps_ite_fst ?_ ?_
    | with_reducible refine keeps_pair (by assumption) ?_
    | split
    | fail_if_no_progress extract_lets
    | dsimp +zetaDelta only)

theorem keeps_execSextantSelfcheck {P : Nat} {u t : State} {a0} (he : execSextantSelfcheck a0 u = .next t) (hP : Fits 0x2200e02000000000000000000000000003f00000000000000000000000000026000000000000000000 P) : Keeps P u t := by
  unfold execSextantSelfcheck at he
  injection he with he
  subst he
  repeat' (first
    | with_reducible exact Keeps.refl P u
    | with_reducible assumption
    | dsimp -zeta only
    | with_reducible refine keeps_bodySextantSelfcheck (hP.sub rfl) ?_
    | with_reducible refine keeps_bodySextantSelfcheck_eq (by assumption) (hP.sub rfl) ?_
    | with_reducible refine keeps_runCommand (hP.sub rfl) ?_ ?_
    | intro _
    | with_reducible refine keeps_ite ?_ ?_
    | with_reducible refine keeps_ite_fst ?_ ?_
    | with_reducible refine keeps_pair (by assumption) ?_
    | split
    | fail_if_no_progress extract_lets
    | dsimp +zetaDelta only)

end Sys2Proof.Machine
end

