-- ==== Sys2Proof/Laws/KeepsAcquisition.lean ====
section
/-! SUPPORT. What each operation of Machine/Acquisition.lean may change, and that it keeps the invariant: one law for each. -/

set_option linter.unreachableTactic false
set_option linter.unusedTactic false

namespace Sys2Proof.Machine

theorem keeps_advanceTick {P : Nat} {s u : State} {a1} (hP : Fits 0x1000000000000000000000000000000000000000000000000000000000000000000000000000 P) (h : Keeps P s u) :
    Keeps P s (State.advanceTick u a1) := by
  unfold State.advanceTick
  repeat' (first
    | with_reducible exact h
    | with_reducible assumption
    | dsimp -zeta only
    | with_reducible refine keeps_advance (hP.sub rfl) ?_
    | intro _
    | with_reducible refine keeps_ite ?_ ?_
    | with_reducible refine keeps_ite_fst ?_ ?_
    | with_reducible refine keeps_pair (by assumption) ?_
    | split
    | fail_if_no_progress extract_lets
    | dsimp +zetaDelta only)

theorem keeps_setAq {P : Nat} {s u : State} {a1 a2} (hP : Fits 0x1000000000000000000000000000000000000000000000000000000000000000000000000000000000 P) (h : Keeps P s u) :
    Keeps P s (State.setAq u a1 a2) := by
  unfold State.setAq
  repeat' (first
    | with_reducible exact h
    | with_reducible assumption
    | dsimp -zeta only
    | intro _
    | with_reducible refine keeps_ite ?_ ?_
    | with_reducible refine keeps_ite_fst ?_ ?_
    | with_reducible refine keeps_pair (by assumption) ?_
    | split
    | fail_if_no_progress extract_lets
    | fail_if_no_progress with_reducible refine keeps_acq hP rfl ?_
    | dsimp +zetaDelta only)

theorem keeps_setSar {P : Nat} {s u : State} {a1 a2} (hP : Fits 0x800000000000000000000000000000000000000000000000000000000000000000000000000000000 P) (h : Keeps P s u) :
    Keeps P s (State.setSar u a1 a2) := by
  unfold State.setSar
  repeat' (first
    | with_reducible exact h
    | with_reducible assumption
    | dsimp -zeta only
    | intro _
    | with_reducible refine keeps_ite ?_ ?_
    | with_reducible refine keeps_ite_fst ?_ ?_
    | with_reducible refine keeps_pair (by assumption) ?_
    | split
    | fail_if_no_progress extract_lets
    | fail_if_no_progress with_reducible refine keeps_adc hP rfl ?_
    | dsimp +zetaDelta only)

theorem keeps_setSd {P : Nat} {s u : State} {a1 a2} (hP : Fits 0x800000000000000000000000000000000000000000000000000000000000000000000000000000000 P) (h : Keeps P s u) :
    Keeps P s (State.setSd u a1 a2) := by
  unfold State.setSd
  repeat' (first
    | with_reducible exact h
    | with_reducible assumption
    | dsimp -zeta only
    | intro _
    | with_reducible refine keeps_ite ?_ ?_
    | with_reducible refine keeps_ite_fst ?_ ?_
    | with_reducible refine keeps_pair (by assumption) ?_
    | split
    | fail_if_no_progress extract_lets
    | fail_if_no_progress with_reducible refine keeps_adc hP rfl ?_
    | dsimp +zetaDelta only)

theorem keeps_sarConvert {P : Nat} {s u : State} {a1 a2 a3 a4} (hP : Fits 0x800000000000000000000000000000000000000000000000000000000000000000000000000000000 P) (h : Keeps P s u) :
    Keeps P s (State.sarConvert u a1 a2 a3 a4) := by
  unfold State.sarConvert
  repeat' (first
    | with_reducible exact h
    | with_reducible assumption
    | dsimp -zeta only
    | with_reducible refine keeps_setSar (hP.sub rfl) ?_
    | intro _
    | with_reducible refine keeps_ite ?_ ?_
    | with_reducible refine keeps_ite_fst ?_ ?_
    | with_reducible refine keeps_pair (by assumption) ?_
    | split
    | fail_if_no_progress extract_lets
    | dsimp +zetaDelta only)

theorem keeps_aqAccept {P : Nat} {s u : State} {a1 a2} (hP : Fits 0x1000000000000000000000000000000000000000000000000000000000000000000000000000000000 P) (h : Keeps P s u) :
    Keeps P s (State.aqAccept u a1 a2) := by
  unfold State.aqAccept
  repeat' (first
    | with_reducible exact h
    | with_reducible assumption
    | dsimp -zeta only
    | with_reducible refine keeps_setAq (hP.sub rfl) ?_
    | intro _
    | with_reducible refine keeps_ite ?_ ?_
    | with_reducible refine keeps_ite_fst ?_ ?_
    | with_reducible refine keeps_pair (by assumption) ?_
    | split
    | fail_if_no_progress extract_lets
    | dsimp +zetaDelta only)

theorem keeps_aqOffer {P : Nat} {s u : State} {a1 a2} (hP : Fits 0x1000000000000000000000000000000000000000000000080000000000000000000000000000000000 P) (h : Keeps P s u) :
    Keeps P s (State.aqOffer u a1 a2).1 := by
  unfold State.aqOffer
  repeat' (first
    | with_reducible exact h
    | with_reducible assumption
    | dsimp -zeta only
    | with_reducible refine keeps_aqAccept (hP.sub rfl) ?_
    | with_reducible refine keeps_bump hP rfl ?_
    | intro _
    | with_reducible refine keeps_ite ?_ ?_
    | with_reducible refine keeps_ite_fst ?_ ?_
    | with_reducible refine keeps_pair (by assumption) ?_
    | split
    | fail_if_no_progress extract_lets
    | dsimp +zetaDelta only)

theorem keeps_aqOffer_eq {P : Nat} {s u v : State} {a1 a2} {x} (he : State.aqOffer u a1 a2 = (v, x)) (hP : Fits 0x1000000000000000000000000000000000000000000000080000000000000000000000000000000000 P)
    (h : Keeps P s u) : Keeps P s v := by
  have h1 := keeps_aqOffer (a1 := a1) (a2 := a2) hP h
  rw [he] at h1
  exact h1

theorem keeps_aqAt {P : Nat} {s u : State} {a1 a2 a3} (hP : Fits 0x1000000000000000000000000000000000000000000000080000000000000000000000000000000000 P) (h : Keeps P s u) :
    Keeps P s (State.aqAt u a1 a2 a3).1 := by
  unfold State.aqAt
  repeat' (first
    | with_reducible exact h
    | with_reducible assumption
    | dsimp -zeta only
    | with_reducible refine keeps_aqOffer (hP.sub rfl) ?_
    | with_reducible refine keeps_aqOffer_eq (by assumption) (hP.sub rfl) ?_
    | with_reducible refine keeps_bump hP rfl ?_
    | intro _
    | with_reducible refine keeps_ite ?_ ?_
    | with_reducible refine keeps_ite_fst ?_ ?_
    | with_reducible refine keeps_pair (by assumption) ?_
    | split
    | fail_if_no_progress extract_lets
    | dsimp +zetaDelta only)

theorem keeps_aqAt_eq {P : Nat} {s u v : State} {a1 a2 a3} {x} (he : State.aqAt u a1 a2 a3 = (v, x)) (hP : Fits 0x1000000000000000000000000000000000000000000000080000000000000000000000000000000000 P)
    (h : Keeps P s u) : Keeps P s v := by
  have h1 := keeps_aqAt (a1 := a1) (a2 := a2) (a3 := a3) hP h
  rw [he] at h1
  exact h1

theorem keeps_aqChain {P : Nat} {s u : State} {a1 a2 a3} (hP : Fits 0x1000000000000000000000000000000000000000000000080000000000000000000000000000000000 P) (h : Keeps P s u) :
    Keeps P s (State.aqChain u a1 a2 a3) := by
  induction a3 generalizing u a1 a2 with
  | zero =>
    unfold State.aqChain
    repeat' (first
      | with_reducible exact h
      | with_reducible assumption
      | dsimp -zeta only
      | with_reducible refine keeps_aqAt (hP.sub rfl) ?_
      | with_reducible refine keeps_aqAt_eq (by assumption) (hP.sub rfl) ?_
      | with_reducible refine keeps_foldl ?_ ?_
      | with_reducible refine keeps_foldl_fst ?_ ?_
      | intro _
      | with_reducible refine keeps_ite ?_ ?_
      | with_reducible refine keeps_ite_fst ?_ ?_
      | with_reducible refine keeps_pair (by assumption) ?_
      | split
      | fail_if_no_progress extract_lets
      | dsimp +zetaDelta only)
  | succ n ih =>
    unfold State.aqChain
    repeat' (first
      | with_reducible exact h
      | with_reducible assumption
      | dsimp -zeta only
      | with_reducible apply ih
      | with_reducible refine keeps_aqAt (hP.sub rfl) ?_
      | with_reducible refine keeps_aqAt_eq (by assumption) (hP.sub rfl) ?_
      | with_reducible refine keeps_foldl ?_ ?_
      | with_reducible refine keeps_foldl_fst ?_ ?_
      | intro _
      | with_reducible refine keeps_ite ?_ ?_
      | with_reducible refine keeps_ite_fst ?_ ?_
      | with_reducible refine keeps_pair (by assumption) ?_
      | split
      | fail_if_no_progress extract_lets
      | dsimp +zetaDelta only)

theorem keeps_aqTrigger {P : Nat} {s u : State} {a1 a2 a3} (hP : Fits 0x1000000000000000000000000000000000000000000000080000000000000000000000000000000000 P) (h : Keeps P s u) :
    Keeps P s (State.aqTrigger u a1 a2 a3).1 := by
  unfold State.aqTrigger
  repeat' (first
    | with_reducible exact h
    | with_reducible assumption
    | dsimp -zeta only
    | with_reducible refine keeps_aqChain (hP.sub rfl) ?_
    | with_reducible refine keeps_aqAt (hP.sub rfl) ?_
    | with_reducible refine keeps_aqAt_eq (by assumption) (hP.sub rfl) ?_
    | intro _
    | with_reducible refine keeps_ite ?_ ?_
    | with_reducible refine keeps_ite_fst ?_ ?_
    | with_reducible refine keeps_pair (by assumption) ?_
    | split
    | fail_if_no_progress extract_lets
    | dsimp +zetaDelta only)

theorem keeps_aqTrigger_eq {P : Nat} {s u v : State} {a1 a2 a3} {x} (he : State.aqTrigger u a1 a2 a3 = (v, x)) (hP : Fits 0x1000000000000000000000000000000000000000000000080000000000000000000000000000000000 P)
    (h : Keeps P s u) : Keeps P s v := by
  have h1 := keeps_aqTrigger (a1 := a1) (a2 := a2) (a3 := a3) hP h
  rw [he] at h1
  exact h1

theorem keeps_aqWrite {P : Nat} {s u : State} {a1 a2} (hP : Fits 0x91e059b000000000300000000012068000000a1002140a100000000000000000000000000000000000 P) (h : Keeps P s u) :
    Keeps P s (State.aqWrite u a1 a2) := by
  unfold State.aqWrite
  repeat' (first
    | with_reducible exact h
    | with_reducible assumption
    | dsimp -zeta only
    | with_reducible refine keeps_writePieces (hP.sub rfl) ?_
    | with_reducible refine keeps_raiseFault (hP.sub rfl) ?_
    | with_reducible refine keeps_raiseFault_eq (by assumption) (hP.sub rfl) ?_
    | with_reducible refine keeps_askWalks (hP.sub rfl) ?_
    | with_reducible refine keeps_dvaSpan (hP.sub rfl) ?_
    | with_reducible refine keeps_dvaSpan_eq (by assumption) (hP.sub rfl) ?_
    | with_reducible refine keeps_setAq (hP.sub rfl) ?_
    | intro _
    | with_reducible refine keeps_ite ?_ ?_
    | with_reducible refine keeps_ite_fst ?_ ?_
    | with_reducible refine keeps_pair (by assumption) ?_
    | split
    | fail_if_no_progress extract_lets
    | dsimp +zetaDelta only)

theorem keeps_aqAfter {P : Nat} {s u : State} {a1} (hP : Fits 0x1000000000000000000000000000000000000000000000040000000000000000000000000000000000 P) (h : Keeps P s u) :
    Keeps P s (State.aqAfter u a1) := by
  unfold State.aqAfter
  repeat' (first
    | with_reducible exact h
    | with_reducible assumption
    | dsimp -zeta only
    | with_reducible refine keeps_setAq (hP.sub rfl) ?_
    | with_reducible refine keeps_fput hP rfl ?_
    | intro _
    | with_reducible refine keeps_ite ?_ ?_
    | with_reducible refine keeps_ite_fst ?_ ?_
    | with_reducible refine keeps_pair (by assumption) ?_
    | split
    | fail_if_no_progress extract_lets
    | dsimp +zetaDelta only)

theorem keeps_aqLevel {P : Nat} {s u : State} {a1 a2} (hP : Fits 0x1000000000000000000000000000000000000000000000080000000000000000000000000000000000 P) (h : Keeps P s u) :
    Keeps P s (State.aqLevel u a1 a2) := by
  unfold State.aqLevel
  repeat' (first
    | with_reducible exact h
    | with_reducible assumption
    | dsimp -zeta only
    | with_reducible refine keeps_aqOffer (hP.sub rfl) ?_
    | with_reducible refine keeps_aqOffer_eq (by assumption) (hP.sub rfl) ?_
    | with_reducible refine keeps_aqChain (hP.sub rfl) ?_
    | intro _
    | with_reducible refine keeps_ite ?_ ?_
    | with_reducible refine keeps_ite_fst ?_ ?_
    | with_reducible refine keeps_pair (by assumption) ?_
    | split
    | fail_if_no_progress extract_lets
    | dsimp +zetaDelta only)

theorem keeps_aqAdd {P : Nat} {s u : State} {a1 a2 a3} (hP : Fits 0x91e059b000000000300000000012068000000a1002140a140000000000000000000000000000000000 P) (h : Keeps P s u) :
    Keeps P s (State.aqAdd u a1 a2 a3) := by
  unfold State.aqAdd
  repeat' (first
    | with_reducible exact h
    | with_reducible assumption
    | dsimp -zeta only
    | with_reducible refine keeps_aqWrite (hP.sub rfl) ?_
    | with_reducible refine keeps_aqAfter (hP.sub rfl) ?_
    | with_reducible refine keeps_setAq (hP.sub rfl) ?_
    | intro _
    | with_reducible refine keeps_ite ?_ ?_
    | with_reducible refine keeps_ite_fst ?_ ?_
    | with_reducible refine keeps_pair (by assumption) ?_
    | split
    | fail_if_no_progress extract_lets
    | dsimp +zetaDelta only)

theorem keeps_aqSample {P : Nat} {s u : State} {a1 a2 a3} (hP : Fits 0x91e059b000000000300000000012068000000a1002140a1c0000000000000000000000000000000000 P) (h : Keeps P s u) :
    Keeps P s (State.aqSample u a1 a2 a3) := by
  unfold State.aqSample
  repeat' (first
    | with_reducible exact h
    | with_reducible assumption
    | dsimp -zeta only
    | with_reducible refine keeps_aqLevel (hP.sub rfl) ?_
    | with_reducible refine keeps_setAq (hP.sub rfl) ?_
    | with_reducible refine keeps_aqAdd (hP.sub rfl) ?_
    | intro _
    | with_reducible refine keeps_ite ?_ ?_
    | with_reducible refine keeps_ite_fst ?_ ?_
    | with_reducible refine keeps_pair (by assumption) ?_
    | split
    | fail_if_no_progress extract_lets
    | dsimp +zetaDelta only)

theorem keeps_aqRecord {P : Nat} {s u : State} {a1} (hP : Fits 0x2000000000000000000000000000000000000000000000000000000000000000000000000000 P) (h : Keeps P s u) :
    Keeps P s (State.aqRecord u a1).1 := by
  unfold State.aqRecord
  repeat' (first
    | with_reducible exact h
    | with_reducible assumption
    | dsimp -zeta only
    | with_reducible refine keeps_fresh (hP.sub rfl) ?_
    | with_reducible refine keeps_fresh_eq (by assumption) (hP.sub rfl) ?_
    | intro _
    | with_reducible refine keeps_ite ?_ ?_
    | with_reducible refine keeps_ite_fst ?_ ?_
    | with_reducible refine keeps_pair (by assumption) ?_
    | split
    | fail_if_no_progress extract_lets
    | dsimp +zetaDelta only)

theorem keeps_aqRecord_eq {P : Nat} {s u v : State} {a1} {x} (he : State.aqRecord u a1 = (v, x)) (hP : Fits 0x2000000000000000000000000000000000000000000000000000000000000000000000000000 P)
    (h : Keeps P s u) : Keeps P s v := by
  have h1 := keeps_aqRecord (a1 := a1) hP h
  rw [he] at h1
  exact h1

theorem keeps_aqRelease {P : Nat} {s u : State} {a1} (hP : Fits 0x800000000000000000000000000000000000000000000000000000000000000000000000000000000 P) (h : Keeps P s u) :
    Keeps P s (State.aqRelease u a1) := by
  unfold State.aqRelease
  repeat' (first
    | with_reducible exact h
    | with_reducible assumption
    | dsimp -zeta only
    | with_reducible refine keeps_setSar (hP.sub rfl) ?_
    | with_reducible refine keeps_foldl ?_ ?_
    | with_reducible refine keeps_foldl_fst ?_ ?_
    | intro _
    | with_reducible refine keeps_ite ?_ ?_
    | with_reducible refine keeps_ite_fst ?_ ?_
    | with_reducible refine keeps_pair (by assumption) ?_
    | split
    | fail_if_no_progress extract_lets
    | dsimp +zetaDelta only)

theorem keeps_aqBegin {P : Nat} {s u : State} {a1} (hP : Fits 0x1800000000000000000000000000000000000000000000040000000000000000000000000000000000 P) (h : Keeps P s u) :
    Keeps P s (State.aqBegin u a1) := by
  unfold State.aqBegin
  repeat' (first
    | with_reducible exact h
    | with_reducible assumption
    | dsimp -zeta only
    | with_reducible refine keeps_sarConvert (hP.sub rfl) ?_
    | with_reducible refine keeps_setAq (hP.sub rfl) ?_
    | with_reducible refine keeps_fput hP rfl ?_
    | intro _
    | with_reducible refine keeps_ite ?_ ?_
    | with_reducible refine keeps_ite_fst ?_ ?_
    | with_reducible refine keeps_pair (by assumption) ?_
    | split
    | fail_if_no_progress extract_lets
    | dsimp +zetaDelta only)

theorem keeps_aqCommit {P : Nat} {s u : State} {a1} (hP : Fits 0x180018a000000000000000000012068000000000000000040000000000000000000000000000000000 P) (h : Keeps P s u) :
    Keeps P s (State.aqCommit u a1) := by
  unfold State.aqCommit
  repeat' (first
    | with_reducible exact h
    | with_reducible assumption
    | dsimp -zeta only
    | with_reducible refine keeps_aqRelease (hP.sub rfl) ?_
    | with_reducible refine keeps_aqRecord (hP.sub rfl) ?_
    | with_reducible refine keeps_aqRecord_eq (by assumption) (hP.sub rfl) ?_
    | with_reducible refine keeps_report (hP.sub rfl) ?_
    | with_reducible refine keeps_setAq (hP.sub rfl) ?_
    | with_reducible refine keeps_fput hP rfl ?_
    | intro _
    | with_reducible refine keeps_ite ?_ ?_
    | with_reducible refine keeps_ite_fst ?_ ?_
    | with_reducible refine keeps_pair (by assumption) ?_
    | split
    | fail_if_no_progress extract_lets
    | dsimp +zetaDelta only)

theorem keeps_doAcqRecord {P : Nat} {s u : State} {a0} (hP : Fits 0x180018a000000000000000000012068000000000000000040000000000000000000000000000000000 P) (h : Keeps P s u) :
    Keeps P s (doAcqRecord a0 u) := by
  unfold doAcqRecord
  repeat' (first
    | with_reducible exact h
    | with_reducible assumption
    | dsimp -zeta only
    | with_reducible refine keeps_aqCommit (hP.sub rfl) ?_
    | intro _
    | with_reducible refine keeps_ite ?_ ?_
    | with_reducible refine keeps_ite_fst ?_ ?_
    | with_reducible refine keeps_pair (by assumption) ?_
    | split
    | fail_if_no_progress extract_lets
    | dsimp +zetaDelta only)

theorem keeps_aqFinish {P : Nat} {s u : State} {a1} (hP : Fits 0x180018a000000000000000000012068000000000000000040000000000000000000000000000000000 P) (h : Keeps P s u) :
    Keeps P s (State.aqFinish u a1) := by
  unfold State.aqFinish
  repeat' (first
    | with_reducible exact h
    | with_reducible assumption
    | dsimp -zeta only
    | with_reducible refine keeps_aqCommit (hP.sub rfl) ?_
    | with_reducible refine keeps_setAq (hP.sub rfl) ?_
    | intro _
    | with_reducible refine keeps_ite ?_ ?_
    | with_reducible refine keeps_ite_fst ?_ ?_
    | with_reducible refine keeps_pair (by assumption) ?_
    | split
    | fail_if_no_progress extract_lets
    | dsimp +zetaDelta only)

theorem keeps_aqStop {P : Nat} {s u : State} {a1} (hP : Fits 0x180018a000000000000000000012068000000000000000040000000000000000000000000000000000 P) (h : Keeps P s u) :
    Keeps P s (State.aqStop u a1) := by
  unfold State.aqStop
  repeat' (first
    | with_reducible exact h
    | with_reducible assumption
    | dsimp -zeta only
    | with_reducible refine keeps_aqRelease (hP.sub rfl) ?_
    | with_reducible refine keeps_aqFinish (hP.sub rfl) ?_
    | with_reducible refine keeps_setAq (hP.sub rfl) ?_
    | intro _
    | with_reducible refine keeps_ite ?_ ?_
    | with_reducible refine keeps_ite_fst ?_ ?_
    | with_reducible refine keeps_pair (by assumption) ?_
    | split
    | fail_if_no_progress extract_lets
    | dsimp +zetaDelta only)

theorem keeps_aqMapped {P : Nat} {s u : State} {a1} (hP : Fits 0x81e059b000000000300000000012068000000a1002140a100000000000000000000000000000000000 P) (h : Keeps P s u) :
    Keeps P s (State.aqMapped u a1).1 := by
  unfold State.aqMapped
  repeat' (first
    | with_reducible exact h
    | with_reducible assumption
    | dsimp -zeta only
    | with_reducible refine keeps_dvaSpan (hP.sub rfl) ?_
    | with_reducible refine keeps_dvaSpan_eq (by assumption) (hP.sub rfl) ?_
    | intro _
    | with_reducible refine keeps_ite ?_ ?_
    | with_reducible refine keeps_ite_fst ?_ ?_
    | with_reducible refine keeps_pair (by assumption) ?_
    | split
    | fail_if_no_progress extract_lets
    | dsimp +zetaDelta only)

theorem keeps_aqMapped_eq {P : Nat} {s u v : State} {a1} {x} (he : State.aqMapped u a1 = (v, x)) (hP : Fits 0x81e059b000000000300000000012068000000a1002140a100000000000000000000000000000000000 P)
    (h : Keeps P s u) : Keeps P s v := by
  have h1 := keeps_aqMapped (a1 := a1) hP h
  rw [he] at h1
  exact h1

theorem keeps_aqCfgErr {P : Nat} {s u : State} {a1} (hP : Fits 0x81e059b000000000300000000012068000000a1002140a100000000000000000000000000000000000 P) (h : Keeps P s u) :
    Keeps P s (State.aqCfgErr u a1).1 := by
  unfold State.aqCfgErr
  repeat' (first
    | with_reducible exact h
    | with_reducible assumption
    | dsimp -zeta only
    | with_reducible refine keeps_aqMapped (hP.sub rfl) ?_
    | with_reducible refine keeps_aqMapped_eq (by assumption) (hP.sub rfl) ?_
    | intro _
    | with_reducible refine keeps_ite ?_ ?_
    | with_reducible refine keeps_ite_fst ?_ ?_
    | with_reducible refine keeps_pair (by assumption) ?_
    | split
    | fail_if_no_progress extract_lets
    | dsimp +zetaDelta only)

theorem keeps_aqCfgErr_eq {P : Nat} {s u v : State} {a1} {x} (he : State.aqCfgErr u a1 = (v, x)) (hP : Fits 0x81e059b000000000300000000012068000000a1002140a100000000000000000000000000000000000 P)
    (h : Keeps P s u) : Keeps P s v := by
  have h1 := keeps_aqCfgErr (a1 := a1) hP h
  rw [he] at h1
  exact h1

theorem keeps_aqArm {P : Nat} {s u : State} {a1} (hP : Fits 0x99e059b000000000300000000012068000000a1002140a140000000000000000000000000000000000 P) (h : Keeps P s u) :
    Keeps P s (State.aqArm u a1).1 := by
  unfold State.aqArm
  repeat' (first
    | with_reducible exact h
    | with_reducible assumption
    | dsimp -zeta only
    | with_reducible refine keeps_aqCfgErr (hP.sub rfl) ?_
    | with_reducible refine keeps_aqCfgErr_eq (by assumption) (hP.sub rfl) ?_
    | with_reducible refine keeps_aqBegin (hP.sub rfl) ?_
    | with_reducible refine keeps_fput hP rfl ?_
    | intro _
    | with_reducible refine keeps_ite ?_ ?_
    | with_reducible refine keeps_ite_fst ?_ ?_
    | with_reducible refine keeps_pair (by assumption) ?_
    | split
    | fail_if_no_progress extract_lets
    | dsimp +zetaDelta only)

theorem keeps_aqArm_eq {P : Nat} {s u v : State} {a1} {x} (he : State.aqArm u a1 = (v, x)) (hP : Fits 0x99e059b000000000300000000012068000000a1002140a140000000000000000000000000000000000 P)
    (h : Keeps P s u) : Keeps P s v := by
  have h1 := keeps_aqArm (a1 := a1) hP h
  rw [he] at h1
  exact h1

theorem keeps_doAcqCtlWrite {P : Nat} {s u : State} {a0 a1} (hP : Fits 0x99e059b000000000300000000012068000000a1002140a140200000000000000000000000000000000 P) (h : Keeps P s u) :
    Keeps P s (doAcqCtlWrite a0 a1 u) := by
  unfold doAcqCtlWrite
  repeat' (first
    | with_reducible exact h
    | with_reducible assumption
    | dsimp -zeta only
    | with_reducible refine keeps_aqStop (hP.sub rfl) ?_
    | with_reducible refine keeps_aqArm (hP.sub rfl) ?_
    | with_reducible refine keeps_aqArm_eq (by assumption) (hP.sub rfl) ?_
    | with_reducible refine keeps_wr hP rfl ?_
    | intro _
    | with_reducible refine keeps_ite ?_ ?_
    | with_reducible refine keeps_ite_fst ?_ ?_
    | with_reducible refine keeps_pair (by assumption) ?_
    | split
    | fail_if_no_progress extract_lets
    | dsimp +zetaDelta only)

theorem keeps_doAcqRearm {P : Nat} {s u : State} {a0} (hP : Fits 0x99e059b000000000300000000012068000000a1002140a140000000000000000000000000000000000 P) (h : Keeps P s u) :
    Keeps P s (doAcqRearm a0 u) := by
  unfold doAcqRearm
  repeat' (first
    | with_reducible exact h
    | with_reducible assumption
    | dsimp -zeta only
    | with_reducible refine keeps_aqRelease (hP.sub rfl) ?_
    | with_reducible refine keeps_aqBegin (hP.sub rfl) ?_
    | with_reducible refine keeps_setAq (hP.sub rfl) ?_
    | with_reducible refine keeps_aqArm (hP.sub rfl) ?_
    | with_reducible refine keeps_aqArm_eq (by assumption) (hP.sub rfl) ?_
    | intro _
    | with_reducible refine keeps_ite ?_ ?_
    | with_reducible refine keeps_ite_fst ?_ ?_
    | with_reducible refine keeps_pair (by assumption) ?_
    | split
    | fail_if_no_progress extract_lets
    | dsimp +zetaDelta only)

theorem keeps_doAcqTrigGo {P : Nat} {s u : State} {a0} (hP : Fits 0x1000000000000000000000000000000000000000000000080000000000000000000000000000000000 P) (h : Keeps P s u) :
    Keeps P s (doAcqTrigGo a0 u) := by
  unfold doAcqTrigGo
  repeat' (first
    | with_reducible exact h
    | with_reducible assumption
    | dsimp -zeta only
    | with_reducible refine keeps_aqTrigger (hP.sub rfl) ?_
    | with_reducible refine keeps_aqTrigger_eq (by assumption) (hP.sub rfl) ?_
    | intro _
    | with_reducible refine keeps_ite ?_ ?_
    | with_reducible refine keeps_ite_fst ?_ ?_
    | with_reducible refine keeps_pair (by assumption) ?_
    | split
    | fail_if_no_progress extract_lets
    | dsimp +zetaDelta only)

theorem keeps_doMsAcqTrigger {P : Nat} {s u : State} {a0} (hP : Fits 0x3000fcb000000000000000000012068002000000000000080000000000000000000000000000000000 P) (h : Keeps P s u) :
    Keeps P s (doMsAcqTrigger a0 u) := by
  unfold doMsAcqTrigger
  repeat' (first
    | with_reducible exact h
    | with_reducible assumption
    | dsimp -zeta only
    | with_reducible refine keeps_aqTrigger (hP.sub rfl) ?_
    | with_reducible refine keeps_aqTrigger_eq (by assumption) (hP.sub rfl) ?_
    | with_reducible refine keeps_msDone (hP.sub rfl) ?_
    | with_reducible refine keeps_msFire_eq (by assumption) (hP.sub rfl) ?_
    | with_reducible refine keeps_id ?_
    | intro _
    | with_reducible refine keeps_ite ?_ ?_
    | with_reducible refine keeps_ite_fst ?_ ?_
    | with_reducible refine keeps_pair (by assumption) ?_
    | split
    | fail_if_no_progress extract_lets
    | dsimp +zetaDelta only)

theorem keeps_aqSync {P : Nat} {s u : State} {a1 a2 a3 a4} (hP : Fits 0x1000000000000000000000000000000000000000000000080000000000000000000000000000000000 P) (h : Keeps P s u) :
    Keeps P s (State.aqSync u a1 a2 a3 a4) := by
  unfold State.aqSync
  repeat' (first
    | with_reducible exact h
    | with_reducible assumption
    | dsimp -zeta only
    | with_reducible refine keeps_aqTrigger (hP.sub rfl) ?_
    | with_reducible refine keeps_aqTrigger_eq (by assumption) (hP.sub rfl) ?_
    | with_reducible refine keeps_foldl ?_ ?_
    | with_reducible refine keeps_foldl_fst ?_ ?_
    | intro _
    | with_reducible refine keeps_ite ?_ ?_
    | with_reducible refine keeps_ite_fst ?_ ?_
    | with_reducible refine keeps_pair (by assumption) ?_
    | split
    | fail_if_no_progress extract_lets
    | dsimp +zetaDelta only)

theorem keeps_aqRegrid {P : Nat} {s u : State} {a1 a2} (hP : Fits 0x1000000000000000000000000000000000000000000000000000000000000000000000000000000000 P) (h : Keeps P s u) :
    Keeps P s (State.aqRegrid u a1 a2) := by
  unfold State.aqRegrid
  repeat' (first
    | with_reducible exact h
    | with_reducible assumption
    | dsimp -zeta only
    | with_reducible refine keeps_setAq (hP.sub rfl) ?_
    | with_reducible refine keeps_foldl ?_ ?_
    | with_reducible refine keeps_foldl_fst ?_ ?_
    | intro _
    | with_reducible refine keeps_ite ?_ ?_
    | with_reducible refine keeps_ite_fst ?_ ?_
    | with_reducible refine keeps_pair (by assumption) ?_
    | split
    | fail_if_no_progress extract_lets
    | dsimp +zetaDelta only)

theorem keeps_aqQuadDown {P : Nat} {s u : State} {a1} (hP : Fits 0x180018a000000000000000000012068000000000000000040000000000000000000000000000000000 P) (h : Keeps P s u) :
    Keeps P s (State.aqQuadDown u a1) := by
  unfold State.aqQuadDown
  repeat' (first
    | with_reducible exact h
    | with_reducible assumption
    | dsimp -zeta only
    | with_reducible refine keeps_aqFinish (hP.sub rfl) ?_
    | with_reducible refine keeps_setAq (hP.sub rfl) ?_
    | with_reducible refine keeps_fput hP rfl ?_
    | with_reducible refine keeps_foldl ?_ ?_
    | with_reducible refine keeps_foldl_fst ?_ ?_
    | intro _
    | with_reducible refine keeps_ite ?_ ?_
    | with_reducible refine keeps_ite_fst ?_ ?_
    | with_reducible refine keeps_pair (by assumption) ?_
    | split
    | fail_if_no_progress extract_lets
    | dsimp +zetaDelta only)

theorem keeps_aqConfigure {P : Nat} {s u : State} {a1 a2} (hP : Fits 0x100000000000000000000000000000000000000000000001fe00000000000000000000000000000000 P) (h : Keeps P s u) :
    Keeps P s (State.aqConfigure u a1 a2) := by
  unfold State.aqConfigure
  repeat' (first
    | with_reducible exact h
    | with_reducible assumption
    | dsimp -zeta only
    | with_reducible refine keeps_setAq (hP.sub rfl) ?_
    | with_reducible refine keeps_wr hP rfl ?_
    | intro _
    | with_reducible refine keeps_ite ?_ ?_
    | with_reducible refine keeps_ite_fst ?_ ?_
    | with_reducible refine keeps_pair (by assumption) ?_
    | split
    | fail_if_no_progress extract_lets
    | dsimp +zetaDelta only)

theorem keeps_bodyAcqArm {P : Nat} {s u : State} {k} (hP : Fits 0x99e059b000000000300000000012068000000a1002140a15fe00000000000000000000000000000000 P) (h : Keeps P s u) :
    Keeps P s (bodyAcqArm k u).1 := by
  unfold bodyAcqArm
  beta_reduce
  repeat' (first
    | with_reducible exact h
    | with_reducible assumption
    | dsimp -zeta only
    | with_reducible refine keeps_aqConfigure (hP.sub rfl) ?_
    | with_reducible refine keeps_payload (hP.sub rfl) ?_
    | with_reducible refine keeps_payload_eq (by assumption) (hP.sub rfl) ?_
    | with_reducible refine keeps_aqArm (hP.sub rfl) ?_
    | with_reducible refine keeps_aqArm_eq (by assumption) (hP.sub rfl) ?_
    | with_reducible refine keeps_fail (hP.sub rfl) ?_
    | with_reducible refine keeps_fail_eq (by assumption) (hP.sub rfl) ?_
    | with_reducible refine keeps_ok (hP.sub rfl) ?_
    | with_reducible refine keeps_ok_eq (by assumption) (hP.sub rfl) ?_
    | intro _
    | with_reducible refine keeps_ite ?_ ?_
    | with_reducible refine keeps_ite_fst ?_ ?_
    | with_reducible refine keeps_pair (by assumption) ?_
    | split
    | fail_if_no_progress extract_lets
    | dsimp +zetaDelta only)

theorem keeps_bodyAcqArm_eq {P : Nat} {s u v : State} {k} {x} (he : bodyAcqArm k u = (v, x)) (hP : Fits 0x99e059b000000000300000000012068000000a1002140a15fe00000000000000000000000000000000 P)
    (h : Keeps P s u) : Keeps P s v := by
  have h1 := keeps_bodyAcqArm (k := k) hP h
  rw [he] at h1
  exact h1

theorem keeps_bodyAcqStop {P : Nat} {s u : State} {k} (hP : Fits 0x180018a000000000000000000012068000000000000000040200000000000000000000000000000000 P) (h : Keeps P s u) :
    Keeps P s (bodyAcqStop k u).1 := by
  unfold bodyAcqStop
  beta_reduce
  repeat' (first
    | with_reducible exact h
    | with_reducible assumption
    | dsimp -zeta only
    | with_reducible refine keeps_aqStop (hP.sub rfl) ?_
    | with_reducible refine keeps_fail (hP.sub rfl) ?_
    | with_reducible refine keeps_fail_eq (by assumption) (hP.sub rfl) ?_
    | with_reducible refine keeps_ok (hP.sub rfl) ?_
    | with_reducible refine keeps_ok_eq (by assumption) (hP.sub rfl) ?_
    | with_reducible refine keeps_fput hP rfl ?_
    | intro _
    | with_reducible refine keeps_ite ?_ ?_
    | with_reducible refine keeps_ite_fst ?_ ?_
    | with_reducible refine keeps_pair (by assumption) ?_
    | split
    | fail_if_no_progress extract_lets
    | dsimp +zetaDelta only)

theorem keeps_bodyAcqStop_eq {P : Nat} {s u v : State} {k} {x} (he : bodyAcqStop k u = (v, x)) (hP : Fits 0x180018a000000000000000000012068000000000000000040200000000000000000000000000000000 P)
    (h : Keeps P s u) : Keeps P s v := by
  have h1 := keeps_bodyAcqStop (k := k) hP h
  rw [he] at h1
  exact h1

theorem keeps_aqReadUnits {P : Nat} {s u : State} {a1 a2 a3 a4} (hP : Fits 0x81e059b000000000300000000012068000000a1002140a100000000000000000000000000000000000 P) (h : Keeps P s u) :
    Keeps P s (State.aqReadUnits u a1 a2 a3 a4).1 := by
  induction a4 generalizing u a1 a2 a3 with
  | zero =>
    unfold State.aqReadUnits
    repeat' (first
      | with_reducible exact h
      | with_reducible assumption
      | dsimp -zeta only
      | with_reducible refine keeps_payloadBy (hP.sub rfl) ?_
      | with_reducible refine keeps_payloadBy_eq (by assumption) (hP.sub rfl) ?_
      | intro _
      | with_reducible refine keeps_ite ?_ ?_
      | with_reducible refine keeps_ite_fst ?_ ?_
      | with_reducible refine keeps_pair (by assumption) ?_
      | split
      | fail_if_no_progress extract_lets
      | dsimp +zetaDelta only)
  | succ n ih =>
    unfold State.aqReadUnits
    repeat' (first
      | with_reducible exact h
      | with_reducible assumption
      | dsimp -zeta only
      | with_reducible apply ih
      | with_reducible refine keeps_pair (w := State.aqReadUnits _ _ _ _ _) (by assumption) ?_
      | with_reducible refine keeps_payloadBy (hP.sub rfl) ?_
      | with_reducible refine keeps_payloadBy_eq (by assumption) (hP.sub rfl) ?_
      | intro _
      | with_reducible refine keeps_ite ?_ ?_
      | with_reducible refine keeps_ite_fst ?_ ?_
      | with_reducible refine keeps_pair (by assumption) ?_
      | split
      | fail_if_no_progress extract_lets
      | dsimp +zetaDelta only)

theorem keeps_aqReadUnits_eq {P : Nat} {s u v : State} {a1 a2 a3 a4} {x} (he : State.aqReadUnits u a1 a2 a3 a4 = (v, x)) (hP : Fits 0x81e059b000000000300000000012068000000a1002140a100000000000000000000000000000000000 P)
    (h : Keeps P s u) : Keeps P s v := by
  have h1 := keeps_aqReadUnits (a1 := a1) (a2 := a2) (a3 := a3) (a4 := a4) hP h
  rw [he] at h1
  exact h1

theorem keeps_openRoot {P : Nat} {s u : State} {a1 a2} (hP : Fits 0x2000000000000000000000000000000000000000000000000000000000000000000000000000 P) (h : Keeps P s u) :
    Keeps P s (State.openRoot u a1 a2).1 := by
  unfold State.openRoot
  repeat' (first
    | with_reducible exact h
    | with_reducible assumption
    | dsimp -zeta only
    | with_reducible refine keeps_fresh (hP.sub rfl) ?_
    | with_reducible refine keeps_fresh_eq (by assumption) (hP.sub rfl) ?_
    | intro _
    | with_reducible refine keeps_ite ?_ ?_
    | with_reducible refine keeps_ite_fst ?_ ?_
    | with_reducible refine keeps_pair (by assumption) ?_
    | split
    | fail_if_no_progress extract_lets
    | dsimp +zetaDelta only)

theorem keeps_openRoot_eq {P : Nat} {s u v : State} {a1 a2} {x} (he : State.openRoot u a1 a2 = (v, x)) (hP : Fits 0x2000000000000000000000000000000000000000000000000000000000000000000000000000 P)
    (h : Keeps P s u) : Keeps P s v := by
  have h1 := keeps_openRoot (a1 := a1) (a2 := a2) hP h
  rw [he] at h1
  exact h1

theorem keeps_aqStats {P : Nat} {s u : State} {a1 a2 a3} (hP : Fits 0x2000000000000000000000000000000000000000000000000000000000000000000000000000 P) (h : Keeps P s u) :
    Keeps P s (State.aqStats u a1 a2 a3).1 := by
  unfold State.aqStats
  repeat' (first
    | with_reducible exact h
    | with_reducible assumption
    | dsimp -zeta only
    | with_reducible refine keeps_openRoot (hP.sub rfl) ?_
    | with_reducible refine keeps_openRoot_eq (by assumption) (hP.sub rfl) ?_
    | with_reducible refine keeps_openDiv (hP.sub rfl) ?_
    | with_reducible refine keeps_openDiv_eq (by assumption) (hP.sub rfl) ?_
    | with_reducible refine keeps_foldl ?_ ?_
    | with_reducible refine keeps_foldl_fst ?_ ?_
    | intro _
    | with_reducible refine keeps_ite ?_ ?_
    | with_reducible refine keeps_ite_fst ?_ ?_
    | with_reducible refine keeps_pair (by assumption) ?_
    | split
    | fail_if_no_progress extract_lets
    | dsimp +zetaDelta only)

theorem keeps_aqStats_eq {P : Nat} {s u v : State} {a1 a2 a3} {x} (he : State.aqStats u a1 a2 a3 = (v, x)) (hP : Fits 0x2000000000000000000000000000000000000000000000000000000000000000000000000000 P)
    (h : Keeps P s u) : Keeps P s v := by
  have h1 := keeps_aqStats (a1 := a1) (a2 := a2) (a3 := a3) hP h
  rw [he] at h1
  exact h1

theorem keeps_bodyAcqStats {P : Nat} {s u : State} {k} (hP : Fits 0x81e059b000000000300000000012068000000a1002140a100000000000000000000000000000000000 P) (h : Keeps P s u) :
    Keeps P s (bodyAcqStats k u).1 := by
  unfold bodyAcqStats
  beta_reduce
  repeat' (first
    | with_reducible exact h
    | with_reducible assumption
    | dsimp -zeta only
    | with_reducible refine keeps_storeResultBy (hP.sub rfl) ?_
    | with_reducible refine keeps_storeResultBy_eq (by assumption) (hP.sub rfl) ?_
    | with_reducible refine keeps_aqReadUnits (hP.sub rfl) ?_
    | with_reducible refine keeps_aqReadUnits_eq (by assumption) (hP.sub rfl) ?_
    | with_reducible refine keeps_aqStats (hP.sub rfl) ?_
    | with_reducible refine keeps_aqStats_eq (by assumption) (hP.sub rfl) ?_
    | with_reducible refine keeps_okResult (hP.sub rfl) ?_
    | with_reducible refine keeps_okResult_eq (by assumption) (hP.sub rfl) ?_
    | with_reducible refine keeps_fail (hP.sub rfl) ?_
    | with_reducible refine keeps_fail_eq (by assumption) (hP.sub rfl) ?_
    | intro _
    | with_reducible refine keeps_ite ?_ ?_
    | with_reducible refine keeps_ite_fst ?_ ?_
    | with_reducible refine keeps_pair (by assumption) ?_
    | split
    | fail_if_no_progress extract_lets
    | dsimp +zetaDelta only)

theorem keeps_bodyAcqStats_eq {P : Nat} {s u v : State} {k} {x} (he : bodyAcqStats k u = (v, x)) (hP : Fits 0x81e059b000000000300000000012068000000a1002140a100000000000000000000000000000000000 P)
    (h : Keeps P s u) : Keeps P s v := by
  have h1 := keeps_bodyAcqStats (k := k) hP h
  rw [he] at h1
  exact h1

theorem keeps_execMsAcqTrigger {P : Nat} {u t : State} {a0} (he : execMsAcqTrigger a0 u = .next t) (hP : Fits 0x3000fcb000000000000000000012068002000000000000080000000000000000000000000000000000 P) : Keeps P u t := by
  unfold execMsAcqTrigger at he
  injection he with he
  subst he
  repeat' (first
    | with_reducible exact Keeps.refl P u
    | with_reducible assumption
    | dsimp -zeta only
    | with_reducible refine keeps_doMsAcqTrigger (hP.sub rfl) ?_
    | with_reducible refine keeps_id ?_
    | intro _
    | with_reducible refine keeps_ite ?_ ?_
    | with_reducible refine keeps_ite_fst ?_ ?_
    | with_reducible refine keeps_pair (by assumption) ?_
    | split
    | fail_if_no_progress extract_lets
    | dsimp +zetaDelta only)

theorem keeps_execAcqRecord {P : Nat} {u t : State} {a0} (he : execAcqRecord a0 u = .next t) (hP : Fits 0x180018a000000000000000000012068000000000000000040000000000000000000000000000000000 P) : Keeps P u t := by
  unfold execAcqRecord at he
  injection he with he
  subst he
  repeat' (first
    | with_reducible exact Keeps.refl P u
    | with_reducible assumption
    | dsimp -zeta only
    | with_reducible refine keeps_doAcqRecord (hP.sub rfl) ?_
    | intro _
    | with_reducible refine keeps_ite ?_ ?_
    | with_reducible refine keeps_ite_fst ?_ ?_
    | with_reducible refine keeps_pair (by assumption) ?_
    | split
    | fail_if_no_progress extract_lets
    | dsimp +zetaDelta only)

theorem keeps_execAcqRearm {P : Nat} {u t : State} {a0} (he : execAcqRearm a0 u = .next t) (hP : Fits 0x99e059b000000000300000000012068000000a1002140a140000000000000000000000000000000000 P) : Keeps P u t := by
  unfold execAcqRearm at he
  injection he with he
  subst he
  repeat' (first
    | with_reducible exact Keeps.refl P u
    | with_reducible assumption
    | dsimp -zeta only
    | with_reducible refine keeps_doAcqRearm (hP.sub rfl) ?_
    | intro _
    | with_reducible refine keeps_ite ?_ ?_
    | with_reducible refine keeps_ite_fst ?_ ?_
    | with_reducible refine keeps_pair (by assumption) ?_
    | split
    | fail_if_no_progress extract_lets
    | dsimp +zetaDelta only)

theorem keeps_execAcqArm {P : Nat} {u t : State} {a0} (he : execAcqArm a0 u = .next t) (hP : Fits 0xb9e0f9b000000000300000000012068003f00a1002140a15fe00000000000000000000000000000000 P) : Keeps P u t := by
  unfold execAcqArm at he
  injection he with he
  subst he
  repeat' (first
    | with_reducible exact Keeps.refl P u
    | with_reducible assumption
    | dsimp -zeta only
    | with_reducible refine keeps_runCommand (hP.sub rfl) ?_ ?_
    | with_reducible refine keeps_bodyAcqArm (hP.sub rfl) ?_
    | with_reducible refine keeps_bodyAcqArm_eq (by assumption) (hP.sub rfl) ?_
    | intro _
    | with_reducible refine keeps_ite ?_ ?_
    | with_reducible refine keeps_ite_fst ?_ ?_
    | with_reducible refine keeps_pair (by assumption) ?_
    | split
    | fail_if_no_progress extract_lets
    | dsimp +zetaDelta only)

theorem keeps_execAcqStop {P : Nat} {u t : State} {a0} (he : execAcqStop a0 u = .next t) (hP : Fits 0x3800f8a000000000000000000012068003f00000000000040200000000000000000000000000000000 P) : Keeps P u t := by
  unfold execAcqStop at he
  injection he with he
  subst he
  repeat' (first
    | with_reducible exact Keeps.refl P u
    | with_reducible assumption
    | dsimp -zeta only
    | with_reducible refine keeps_runCommand (hP.sub rfl) ?_ ?_
    | with_reducible refine keeps_bodyAcqStop (hP.sub rfl) ?_
    | with_reducible refine keeps_bodyAcqStop_eq (by assumption) (hP.sub rfl) ?_
    | intro _
    | with_reducible refine keeps_ite ?_ ?_
    | with_reducible refine keeps_ite_fst ?_ ?_
    | with_reducible refine keeps_pair (by assumption) ?_
    | split
    | fail_if_no_progress extract_lets
    | dsimp +zetaDelta only)

theorem keeps_execAcqStats {P : Nat} {u t : State} {a0} (he : execAcqStats a0 u = .next t) (hP : Fits 0xa1e0f9b000000000300000000012068003f00a1002140a100000000000000000000000000000000000 P) : Keeps P u t := by
  unfold execAcqStats at he
  injection he with he
  subst he
  repeat' (first
    | with_reducible exact Keeps.refl P u
    | with_reducible assumption
    | dsimp -zeta only
    | with_reducible refine keeps_runCommand (hP.sub rfl) ?_ ?_
    | with_reducible refine keeps_bodyAcqStats (hP.sub rfl) ?_
    | with_reducible refine keeps_bodyAcqStats_eq (by assumption) (hP.sub rfl) ?_
    | intro _
    | with_reducible refine keeps_ite ?_ ?_
    | with_reducible refine keeps_ite_fst ?_ ?_
    | with_reducible refine keeps_pair (by assumption) ?_
    | split
    | fail_if_no_progress extract_lets
    | dsimp +zetaDelta only)

end Sys2Proof.Machine
end

