-- ==== Sys2Proof/Laws/KeepsConverters.lean ====
section
/-! SUPPORT. What each operation of Machine/Converters.lean may change, and that it keeps the invariant: one law for each. -/

set_option linter.unreachableTactic false
set_option linter.unusedTactic false

namespace Sys2Proof.Machine

theorem keeps_runDone {P : Nat} {s u : State} (hP : Fits 0x800000000000000000000000000000000000000000000000000000000000000000000000000000000 P) (h : Keeps P s u) :
    Keeps P s (State.runDone u) := by
  unfold State.runDone
  repeat' (first
    | with_reducible exact h
    | with_reducible assumption
    | dsimp -zeta only
    | intro _
    | with_reducible refine keeps_ite ?_ ?_
    | with_reducible refine keeps_ite_fst ?_ ?_
    | with_reducible refine keeps_pair (by assumption) ?_
    | split
    | fail_if_no_progress extract_lets
    | fail_if_no_progress with_reducible refine keeps_adc hP rfl ?_
    | dsimp +zetaDelta only)

theorem keeps_seqDone {P : Nat} {s u : State} {a1} (hP : Fits 0x800000000000000000000000000000000000000000000000000000000000000000000000000000000 P) (h : Keeps P s u) :
    Keeps P s (State.seqDone u a1) := by
  unfold State.seqDone
  repeat' (first
    | with_reducible exact h
    | with_reducible assumption
    | dsimp -zeta only
    | with_reducible refine keeps_runDone (hP.sub rfl) ?_
    | intro _
    | with_reducible refine keeps_ite ?_ ?_
    | with_reducible refine keeps_ite_fst ?_ ?_
    | with_reducible refine keeps_pair (by assumption) ?_
    | split
    | fail_if_no_progress extract_lets
    | fail_if_no_progress with_reducible refine keeps_adc hP rfl ?_
    | dsimp +zetaDelta only)

theorem keeps_sdRestart {P : Nat} {s u : State} {a1 a2} (hP : Fits 0x1800000000000000000000000000000000000000000000000000000000000000000000000000000000 P) (h : Keeps P s u) :
    Keeps P s (State.sdRestart u a1 a2) := by
  unfold State.sdRestart
  repeat' (first
    | with_reducible exact h
    | with_reducible assumption
    | dsimp -zeta only
    | with_reducible refine keeps_aqRegrid (hP.sub rfl) ?_
    | with_reducible refine keeps_setSd (hP.sub rfl) ?_
    | intro _
    | with_reducible refine keeps_ite ?_ ?_
    | with_reducible refine keeps_ite_fst ?_ ?_
    | with_reducible refine keeps_pair (by assumption) ?_
    | split
    | fail_if_no_progress extract_lets
    | dsimp +zetaDelta only)

theorem keeps_sdComplete {P : Nat} {s u : State} {a1} (hP : Fits 0x1800000000000000000000000000000000000000000000000000200000000000000000000000000000 P) (h : Keeps P s u) :
    Keeps P s (State.sdComplete u a1) := by
  unfold State.sdComplete
  repeat' (first
    | with_reducible exact h
    | with_reducible assumption
    | dsimp -zeta only
    | with_reducible refine keeps_sdRestart (hP.sub rfl) ?_
    | with_reducible refine keeps_seqDone (hP.sub rfl) ?_
    | with_reducible refine keeps_setSd (hP.sub rfl) ?_
    | with_reducible refine keeps_fput hP rfl ?_
    | with_reducible refine keeps_foldl ?_ ?_
    | with_reducible refine keeps_foldl_fst ?_ ?_
    | intro _
    | with_reducible refine keeps_ite ?_ ?_
    | with_reducible refine keeps_ite_fst ?_ ?_
    | with_reducible refine keeps_pair (by assumption) ?_
    | split
    | fail_if_no_progress extract_lets
    | fail_if_no_progress with_reducible refine keeps_adc hP rfl ?_
    | dsimp +zetaDelta only)

theorem keeps_sdWrite {P : Nat} {s u : State} {a1 a2 a3} (hP : Fits 0x1800000000000000000000000000000000000000000000000000b00000000000000000000000000000 P) (h : Keeps P s u) :
    Keeps P s (State.sdWrite u a1 a2 a3) := by
  unfold State.sdWrite
  repeat' (first
    | with_reducible exact h
    | with_reducible assumption
    | dsimp -zeta only
    | with_reducible refine keeps_sdComplete (hP.sub rfl) ?_
    | with_reducible refine keeps_wr hP rfl ?_
    | with_reducible refine keeps_fput hP rfl ?_
    | with_reducible refine keeps_foldl ?_ ?_
    | with_reducible refine keeps_foldl_fst ?_ ?_
    | intro _
    | with_reducible refine keeps_ite ?_ ?_
    | with_reducible refine keeps_ite_fst ?_ ?_
    | with_reducible refine keeps_pair (by assumption) ?_
    | split
    | fail_if_no_progress extract_lets
    | fail_if_no_progress with_reducible refine keeps_adc hP rfl ?_
    | dsimp +zetaDelta only)

theorem keeps_sdFeed {P : Nat} {s u : State} {a1 a2 a3} (hP : Fits 0x91e059b000000000300000000012068000000a1002140a1c0000000000000000000000000000000000 P) (h : Keeps P s u) :
    Keeps P s (State.sdFeed u a1 a2 a3) := by
  unfold State.sdFeed
  repeat' (first
    | with_reducible exact h
    | with_reducible assumption
    | dsimp -zeta only
    | with_reducible refine keeps_aqSample (hP.sub rfl) ?_
    | with_reducible refine keeps_foldl ?_ ?_
    | with_reducible refine keeps_foldl_fst ?_ ?_
    | intro _
    | with_reducible refine keeps_ite ?_ ?_
    | with_reducible refine keeps_ite_fst ?_ ?_
    | with_reducible refine keeps_pair (by assumption) ?_
    | split
    | fail_if_no_progress extract_lets
    | dsimp +zetaDelta only)

theorem keeps_pinCode {P : Nat} {s u : State} {a1 a2 a3} (hP : Fits 0x2000000000000000000000000000000000000000000000000000000000000000000000000000 P) (h : Keeps P s u) :
    Keeps P s (State.pinCode u a1 a2 a3).1 := by
  unfold State.pinCode
  repeat' (first
    | with_reducible exact h
    | with_reducible assumption
    | dsimp -zeta only
    | with_reducible refine keeps_openDiv (hP.sub rfl) ?_
    | with_reducible refine keeps_openDiv_eq (by assumption) (hP.sub rfl) ?_
    | intro _
    | with_reducible refine keeps_ite ?_ ?_
    | with_reducible refine keeps_ite_fst ?_ ?_
    | with_reducible refine keeps_pair (by assumption) ?_
    | split
    | fail_if_no_progress extract_lets
    | dsimp +zetaDelta only)

theorem keeps_pinCode_eq {P : Nat} {s u v : State} {a1 a2 a3} {x} (he : State.pinCode u a1 a2 a3 = (v, x)) (hP : Fits 0x2000000000000000000000000000000000000000000000000000000000000000000000000000 P)
    (h : Keeps P s u) : Keeps P s v := by
  have h1 := keeps_pinCode (a1 := a1) (a2 := a2) (a3 := a3) hP h
  rw [he] at h1
  exact h1

theorem keeps_sdEnds {P : Nat} {s u : State} {a1 a2 a3} (hP : Fits 0x99e059b000000000300000000012068000000a1002140a1c0001b00000000000000000000000000000 P) (h : Keeps P s u) :
    Keeps P s (State.sdEnds u a1 a2 a3) := by
  unfold State.sdEnds
  repeat' (first
    | with_reducible exact h
    | with_reducible assumption
    | dsimp -zeta only
    | with_reducible refine keeps_advanceTick (hP.sub rfl) ?_
    | with_reducible refine keeps_sdWrite (hP.sub rfl) ?_
    | with_reducible refine keeps_sdFeed (hP.sub rfl) ?_
    | with_reducible refine keeps_setSd (hP.sub rfl) ?_
    | with_reducible refine keeps_wr hP rfl ?_
    | intro _
    | with_reducible refine keeps_ite ?_ ?_
    | with_reducible refine keeps_ite_fst ?_ ?_
    | with_reducible refine keeps_pair (by assumption) ?_
    | split
    | fail_if_no_progress extract_lets
    | dsimp +zetaDelta only)

theorem keeps_doSdOutput {P : Nat} {s u : State} {a0 a1 a2} (hP : Fits 0x99e059b000000000300000000012068000000a1002140a1c0001b00000000000000000000000000000 P) (h : Keeps P s u) :
    Keeps P s (doSdOutput a0 a1 a2 u) := by
  unfold doSdOutput
  repeat' (first
    | with_reducible exact h
    | with_reducible assumption
    | dsimp -zeta only
    | with_reducible refine keeps_pinCode (hP.sub rfl) ?_
    | with_reducible refine keeps_pinCode_eq (by assumption) (hP.sub rfl) ?_
    | with_reducible refine keeps_sdEnds (hP.sub rfl) ?_
    | intro _
    | with_reducible refine keeps_ite ?_ ?_
    | with_reducible refine keeps_ite_fst ?_ ?_
    | with_reducible refine keeps_pair (by assumption) ?_
    | split
    | fail_if_no_progress extract_lets
    | dsimp +zetaDelta only)

theorem keeps_sdPmuChange {P : Nat} {s u : State} {a1 a2} (hP : Fits 0x800000000000000000000000000000000000000000000000000000000000000000000000000000000 P) (h : Keeps P s u) :
    Keeps P s (State.sdPmuChange u a1 a2) := by
  unfold State.sdPmuChange
  repeat' (first
    | with_reducible exact h
    | with_reducible assumption
    | dsimp -zeta only
    | with_reducible refine keeps_setSd (hP.sub rfl) ?_
    | intro _
    | with_reducible refine keeps_ite ?_ ?_
    | with_reducible refine keeps_ite_fst ?_ ?_
    | with_reducible refine keeps_pair (by assumption) ?_
    | split
    | fail_if_no_progress extract_lets
    | dsimp +zetaDelta only)

theorem keeps_sdQuadDown {P : Nat} {s u : State} {a1} (hP : Fits 0x1800000000000000000000000000000000000000000000000001b00000000000000000000000000000 P) (h : Keeps P s u) :
    Keeps P s (State.sdQuadDown u a1) := by
  unfold State.sdQuadDown
  repeat' (first
    | with_reducible exact h
    | with_reducible assumption
    | dsimp -zeta only
    | with_reducible refine keeps_sdWrite (hP.sub rfl) ?_
    | with_reducible refine keeps_wr hP rfl ?_
    | with_reducible refine keeps_foldl ?_ ?_
    | with_reducible refine keeps_foldl_fst ?_ ?_
    | intro _
    | with_reducible refine keeps_ite ?_ ?_
    | with_reducible refine keeps_ite_fst ?_ ?_
    | with_reducible refine keeps_pair (by assumption) ?_
    | split
    | fail_if_no_progress extract_lets
    | dsimp +zetaDelta only)

theorem keeps_sdQuadUp {P : Nat} {s u : State} {a1} (hP : Fits 0x1800000000000000000000000000000000000000000000000000000000000000000000000000000000 P) (h : Keeps P s u) :
    Keeps P s (State.sdQuadUp u a1) := by
  unfold State.sdQuadUp
  repeat' (first
    | with_reducible exact h
    | with_reducible assumption
    | dsimp -zeta only
    | with_reducible refine keeps_sdRestart (hP.sub rfl) ?_
    | with_reducible refine keeps_foldl ?_ ?_
    | with_reducible refine keeps_foldl_fst ?_ ?_
    | intro _
    | with_reducible refine keeps_ite ?_ ?_
    | with_reducible refine keeps_ite_fst ?_ ?_
    | with_reducible refine keeps_pair (by assumption) ?_
    | split
    | fail_if_no_progress extract_lets
    | dsimp +zetaDelta only)

theorem keeps_sarNext {P : Nat} {s u : State} {a1 a2} (hP : Fits 0x800000000000000000000000000000000000000000000000000000000000000000000000000000000 P) (h : Keeps P s u) :
    Keeps P s (State.sarNext u a1 a2) := by
  unfold State.sarNext
  repeat' (first
    | with_reducible exact h
    | with_reducible assumption
    | dsimp -zeta only
    | with_reducible refine keeps_sarConvert (hP.sub rfl) ?_
    | with_reducible refine keeps_seqDone (hP.sub rfl) ?_
    | with_reducible refine keeps_setSar (hP.sub rfl) ?_
    | intro _
    | with_reducible refine keeps_ite ?_ ?_
    | with_reducible refine keeps_ite_fst ?_ ?_
    | with_reducible refine keeps_pair (by assumption) ?_
    | split
    | fail_if_no_progress extract_lets
    | dsimp +zetaDelta only)

theorem keeps_sarRaw {P : Nat} {s u : State} {a1 a2 a3} (hP : Fits 0x2000000000000000000000000000000000000000000000000000000000000000000000000000 P) (h : Keeps P s u) :
    Keeps P s (State.sarRaw u a1 a2 a3).1 := by
  unfold State.sarRaw
  repeat' (first
    | with_reducible exact h
    | with_reducible assumption
    | dsimp -zeta only
    | with_reducible refine keeps_pinCode (hP.sub rfl) ?_
    | with_reducible refine keeps_pinCode_eq (by assumption) (hP.sub rfl) ?_
    | with_reducible refine keeps_openDiv (hP.sub rfl) ?_
    | with_reducible refine keeps_openDiv_eq (by assumption) (hP.sub rfl) ?_
    | with_reducible refine keeps_fresh (hP.sub rfl) ?_
    | with_reducible refine keeps_fresh_eq (by assumption) (hP.sub rfl) ?_
    | intro _
    | with_reducible refine keeps_ite ?_ ?_
    | with_reducible refine keeps_ite_fst ?_ ?_
    | with_reducible refine keeps_pair (by assumption) ?_
    | split
    | fail_if_no_progress extract_lets
    | dsimp +zetaDelta only)

theorem keeps_sarRaw_eq {P : Nat} {s u v : State} {a1 a2 a3} {x} (he : State.sarRaw u a1 a2 a3 = (v, x)) (hP : Fits 0x2000000000000000000000000000000000000000000000000000000000000000000000000000 P)
    (h : Keeps P s u) : Keeps P s v := by
  have h1 := keeps_sarRaw (a1 := a1) (a2 := a2) (a3 := a3) hP h
  rw [he] at h1
  exact h1

theorem keeps_sarEnds {P : Nat} {s u : State} {a1 a2 a3 a4} (hP : Fits 0xb9e0f9b000000000300000000012068002000a1002140a1c00f0000000000000000000000000000000 P) (h : Keeps P s u) :
    Keeps P s (State.sarEnds u a1 a2 a3 a4) := by
  unfold State.sarEnds
  repeat' (first
    | with_reducible exact h
    | with_reducible assumption
    | dsimp -zeta only
    | with_reducible refine keeps_advanceTick (hP.sub rfl) ?_
    | with_reducible refine keeps_endWaits (hP.sub rfl) ?_
    | with_reducible refine keeps_aqSample (hP.sub rfl) ?_
    | with_reducible refine keeps_seqDone (hP.sub rfl) ?_
    | with_reducible refine keeps_sarNext (hP.sub rfl) ?_
    | with_reducible refine keeps_setSar (hP.sub rfl) ?_
    | with_reducible refine keeps_wr hP rfl ?_
    | with_reducible refine keeps_fput hP rfl ?_
    | intro _
    | with_reducible refine keeps_ite ?_ ?_
    | with_reducible refine keeps_ite_fst ?_ ?_
    | with_reducible refine keeps_pair (by assumption) ?_
    | split
    | fail_if_no_progress extract_lets
    | dsimp +zetaDelta only)

theorem keeps_doSarConversionDone {P : Nat} {s u : State} {a0 a1} (hP : Fits 0xb9e0f9b000000000300000000012068002000a1002140a1c00f0000000000000000000000000000000 P) (h : Keeps P s u) :
    Keeps P s (doSarConversionDone a0 a1 u) := by
  unfold doSarConversionDone
  repeat' (first
    | with_reducible exact h
    | with_reducible assumption
    | dsimp -zeta only
    | with_reducible refine keeps_sarEnds (hP.sub rfl) ?_
    | with_reducible refine keeps_sarRaw (hP.sub rfl) ?_
    | with_reducible refine keeps_sarRaw_eq (by assumption) (hP.sub rfl) ?_
    | intro _
    | with_reducible refine keeps_ite ?_ ?_
    | with_reducible refine keeps_ite_fst ?_ ?_
    | with_reducible refine keeps_pair (by assumption) ?_
    | split
    | fail_if_no_progress extract_lets
    | dsimp +zetaDelta only)

theorem keeps_sarInject {P : Nat} {s u : State} {a1 a2 a3} (hP : Fits 0x800000000000000000000000000000000000000000000000010000000000000000000000000000000 P) (h : Keeps P s u) :
    Keeps P s (State.sarInject u a1 a2 a3).1 := by
  unfold State.sarInject
  repeat' (first
    | with_reducible exact h
    | with_reducible assumption
    | dsimp -zeta only
    | with_reducible refine keeps_sarConvert (hP.sub rfl) ?_
    | with_reducible refine keeps_setSar (hP.sub rfl) ?_
    | with_reducible refine keeps_bump hP rfl ?_
    | intro _
    | with_reducible refine keeps_ite ?_ ?_
    | with_reducible refine keeps_ite_fst ?_ ?_
    | with_reducible refine keeps_pair (by assumption) ?_
    | split
    | fail_if_no_progress extract_lets
    | dsimp +zetaDelta only)

theorem keeps_sarInject_eq {P : Nat} {s u v : State} {a1 a2 a3} {x} (he : State.sarInject u a1 a2 a3 = (v, x)) (hP : Fits 0x800000000000000000000000000000000000000000000000010000000000000000000000000000000 P)
    (h : Keeps P s u) : Keeps P s v := by
  have h1 := keeps_sarInject (a1 := a1) (a2 := a2) (a3 := a3) hP h
  rw [he] at h1
  exact h1

theorem keeps_doSarInjectRequest {P : Nat} {s u : State} {a0 a1} (hP : Fits 0x800000000000000000000000000000000000000000000000010000000000000000000000000000000 P) (h : Keeps P s u) :
    Keeps P s (doSarInjectRequest a0 a1 u) := by
  unfold doSarInjectRequest
  repeat' (first
    | with_reducible exact h
    | with_reducible assumption
    | dsimp -zeta only
    | with_reducible refine keeps_sarInject (hP.sub rfl) ?_
    | with_reducible refine keeps_sarInject_eq (by assumption) (hP.sub rfl) ?_
    | intro _
    | with_reducible refine keeps_ite ?_ ?_
    | with_reducible refine keeps_ite_fst ?_ ?_
    | with_reducible refine keeps_pair (by assumption) ?_
    | split
    | fail_if_no_progress extract_lets
    | dsimp +zetaDelta only)

theorem keeps_sarStart {P : Nat} {s u : State} {a1 a2} (hP : Fits 0x800000000000000000000000000000000000000000000000080000000000000000000000000000000 P) (h : Keeps P s u) :
    Keeps P s (State.sarStart u a1 a2) := by
  unfold State.sarStart
  repeat' (first
    | with_reducible exact h
    | with_reducible assumption
    | dsimp -zeta only
    | with_reducible refine keeps_sarConvert (hP.sub rfl) ?_
    | with_reducible refine keeps_setSar (hP.sub rfl) ?_
    | with_reducible refine keeps_wr hP rfl ?_
    | with_reducible refine keeps_foldl ?_ ?_
    | with_reducible refine keeps_foldl_fst ?_ ?_
    | intro _
    | with_reducible refine keeps_ite ?_ ?_
    | with_reducible refine keeps_ite_fst ?_ ?_
    | with_reducible refine keeps_pair (by assumption) ?_
    | split
    | fail_if_no_progress extract_lets
    | dsimp +zetaDelta only)

theorem keeps_trigEffect {P : Nat} {s u : State} {a1} (hP : Fits 0x1800001000000000000000000000000000000000000000000080b34000000000000000000000000000 P) (h : Keeps P s u) :
    Keeps P s (State.trigEffect u a1) := by
  unfold State.trigEffect
  repeat' (first
    | with_reducible exact h
    | with_reducible assumption
    | dsimp -zeta only
    | with_reducible refine keeps_advanceTick (hP.sub rfl) ?_
    | with_reducible refine keeps_sdRestart (hP.sub rfl) ?_
    | with_reducible refine keeps_sarStart (hP.sub rfl) ?_
    | with_reducible refine keeps_runDone (hP.sub rfl) ?_
    | with_reducible refine keeps_sdWrite (hP.sub rfl) ?_
    | with_reducible refine keeps_wr hP rfl ?_
    | with_reducible refine keeps_tick hP rfl ?_
    | with_reducible refine keeps_foldl ?_ ?_
    | with_reducible refine keeps_foldl_fst ?_ ?_
    | intro _
    | with_reducible refine keeps_ite ?_ ?_
    | with_reducible refine keeps_ite_fst ?_ ?_
    | with_reducible refine keeps_pair (by assumption) ?_
    | split
    | fail_if_no_progress extract_lets
    | fail_if_no_progress with_reducible refine keeps_adc hP rfl ?_
    | dsimp +zetaDelta only)

theorem keeps_commonTrigger {P : Nat} {s u : State} {a1} (hP : Fits 0x1800001000000000000000000000000000000000000000000080b3c000000000000000000000000000 P) (h : Keeps P s u) :
    Keeps P s (State.commonTrigger u a1) := by
  unfold State.commonTrigger
  repeat' (first
    | with_reducible exact h
    | with_reducible assumption
    | dsimp -zeta only
    | with_reducible refine keeps_trigEffect (hP.sub rfl) ?_
    | with_reducible refine keeps_bump hP rfl ?_
    | intro _
    | with_reducible refine keeps_ite ?_ ?_
    | with_reducible refine keeps_ite_fst ?_ ?_
    | with_reducible refine keeps_pair (by assumption) ?_
    | split
    | fail_if_no_progress extract_lets
    | fail_if_no_progress with_reducible refine keeps_adc hP rfl ?_
    | dsimp +zetaDelta only)

theorem keeps_doAdcTrigGo {P : Nat} {s u : State} (hP : Fits 0x1800001000000000000000000000000000000000000000000080b3c000000000000000000000000000 P) (h : Keeps P s u) :
    Keeps P s (doAdcTrigGo u) := by
  unfold doAdcTrigGo
  repeat' (first
    | with_reducible exact h
    | with_reducible assumption
    | dsimp -zeta only
    | with_reducible refine keeps_commonTrigger (hP.sub rfl) ?_
    | intro _
    | with_reducible refine keeps_ite ?_ ?_
    | with_reducible refine keeps_ite_fst ?_ ?_
    | with_reducible refine keeps_pair (by assumption) ?_
    | split
    | fail_if_no_progress extract_lets
    | dsimp +zetaDelta only)

theorem keeps_doMsConverterTrigger {P : Nat} {s u : State} {a0} (hP : Fits 0x3800fcb000000000000000000012068002000000000000000080b3c000000000000000000000000000 P) (h : Keeps P s u) :
    Keeps P s (doMsConverterTrigger a0 u) := by
  unfold doMsConverterTrigger
  repeat' (first
    | with_reducible exact h
    | with_reducible assumption
    | dsimp -zeta only
    | with_reducible refine keeps_commonTrigger (hP.sub rfl) ?_
    | with_reducible refine keeps_msDone (hP.sub rfl) ?_
    | with_reducible refine keeps_msFire_eq (by assumption) (hP.sub rfl) ?_
    | with_reducible refine keeps_id ?_
    | intro _
    | with_reducible refine keeps_ite ?_ ?_
    | with_reducible refine keeps_ite_fst ?_ ?_
    | with_reducible refine keeps_pair (by assumption) ?_
    | split
    | fail_if_no_progress extract_lets
    | dsimp +zetaDelta only)

theorem keeps_adcMsync {P : Nat} {s u : State} {a1} (hP : Fits 0x1800001000000000000000000000000000000000000000000080b3c000000000000000000000000000 P) (h : Keeps P s u) :
    Keeps P s (State.adcMsync u a1) := by
  unfold State.adcMsync
  repeat' (first
    | with_reducible exact h
    | with_reducible assumption
    | dsimp -zeta only
    | with_reducible refine keeps_commonTrigger (hP.sub rfl) ?_
    | intro _
    | with_reducible refine keeps_ite ?_ ?_
    | with_reducible refine keeps_ite_fst ?_ ?_
    | with_reducible refine keeps_pair (by assumption) ?_
    | split
    | fail_if_no_progress extract_lets
    | dsimp +zetaDelta only)

theorem keeps_doHeldTrigger {P : Nat} {s u : State} (hP : Fits 0x1800001000000000000000000000000000000000000000000080b34000000000000000000000000000 P) (h : Keeps P s u) :
    Keeps P s (doHeldTrigger u) := by
  unfold doHeldTrigger
  repeat' (first
    | with_reducible exact h
    | with_reducible assumption
    | dsimp -zeta only
    | with_reducible refine keeps_trigEffect (hP.sub rfl) ?_
    | intro _
    | with_reducible refine keeps_ite ?_ ?_
    | with_reducible refine keeps_ite_fst ?_ ?_
    | with_reducible refine keeps_pair (by assumption) ?_
    | split
    | fail_if_no_progress extract_lets
    | fail_if_no_progress with_reducible refine keeps_adc hP rfl ?_
    | dsimp +zetaDelta only)

theorem keeps_doConverterResultPost {P : Nat} {s u : State} (hP : Fits 0x800188000000000000000000012068000000000000000000000000000000000000000000000000000 P) (h : Keeps P s u) :
    Keeps P s (doConverterResultPost u) := by
  unfold doConverterResultPost
  repeat' (first
    | with_reducible exact h
    | with_reducible assumption
    | dsimp -zeta only
    | with_reducible refine keeps_report (hP.sub rfl) ?_
    | with_reducible refine keeps_foldl ?_ ?_
    | with_reducible refine keeps_foldl_fst ?_ ?_
    | intro _
    | with_reducible refine keeps_ite ?_ ?_
    | with_reducible refine keeps_ite_fst ?_ ?_
    | with_reducible refine keeps_pair (by assumption) ?_
    | split
    | fail_if_no_progress extract_lets
    | fail_if_no_progress with_reducible refine keeps_adc hP rfl ?_
    | dsimp +zetaDelta only)

theorem keeps_doAdcSdCfgWrite {P : Nat} {s u : State} {a0 a1} (hP : Fits 0x1800000000000000000000000000000000000000000000000000200000000000000000000000000000 P) (h : Keeps P s u) :
    Keeps P s (doAdcSdCfgWrite a0 a1 u) := by
  unfold doAdcSdCfgWrite
  repeat' (first
    | with_reducible exact h
    | with_reducible assumption
    | dsimp -zeta only
    | with_reducible refine keeps_sdRestart (hP.sub rfl) ?_
    | with_reducible refine keeps_setSd (hP.sub rfl) ?_
    | with_reducible refine keeps_fput hP rfl ?_
    | intro _
    | with_reducible refine keeps_ite ?_ ?_
    | with_reducible refine keeps_ite_fst ?_ ?_
    | with_reducible refine keeps_pair (by assumption) ?_
    | split
    | fail_if_no_progress extract_lets
    | dsimp +zetaDelta only)

theorem keeps_msyncLocal {P : Nat} {s u : State} {a1} (hP : Fits 0x1800001000000000000000000000000000000000000000080080b3c000000000000000000000000000 P) (h : Keeps P s u) :
    Keeps P s (State.msyncLocal u a1) := by
  unfold State.msyncLocal
  repeat' (first
    | with_reducible exact h
    | with_reducible assumption
    | dsimp -zeta only
    | with_reducible refine keeps_adcMsync (hP.sub rfl) ?_
    | with_reducible refine keeps_aqSync (hP.sub rfl) ?_
    | intro _
    | with_reducible refine keeps_ite ?_ ?_
    | with_reducible refine keeps_ite_fst ?_ ?_
    | with_reducible refine keeps_pair (by assumption) ?_
    | split
    | fail_if_no_progress extract_lets
    | dsimp +zetaDelta only)

theorem keeps_enableSeqs {P : Nat} {s u : State} {a1 a2} (hP : Fits 0x1000000000000000000000000000 P) (h : Keeps P s u) :
    Keeps P s (State.enableSeqs u a1 a2) := by
  unfold State.enableSeqs
  repeat' (first
    | with_reducible exact h
    | with_reducible assumption
    | dsimp -zeta only
    | with_reducible refine keeps_fput hP rfl ?_
    | intro _
    | with_reducible refine keeps_ite ?_ ?_
    | with_reducible refine keeps_ite_fst ?_ ?_
    | with_reducible refine keeps_pair (by assumption) ?_
    | split
    | fail_if_no_progress extract_lets
    | dsimp +zetaDelta only)

theorem keeps_presetPins {P : Nat} {s u : State} {a1 a2} (hP : Fits 0x1800000000000000000000000000000000000000000000000000680000000000000000000000000000 P) (h : Keeps P s u) :
    Keeps P s (State.presetPins u a1 a2) := by
  unfold State.presetPins
  repeat' (first
    | with_reducible exact h
    | with_reducible assumption
    | dsimp -zeta only
    | with_reducible refine keeps_doAdcSdCfgWrite (hP.sub rfl) ?_
    | with_reducible refine keeps_fput hP rfl ?_
    | with_reducible refine keeps_foldl ?_ ?_
    | with_reducible refine keeps_foldl_fst ?_ ?_
    | intro _
    | with_reducible refine keeps_ite ?_ ?_
    | with_reducible refine keeps_ite_fst ?_ ?_
    | with_reducible refine keeps_pair (by assumption) ?_
    | split
    | fail_if_no_progress extract_lets
    | dsimp +zetaDelta only)

theorem keeps_presetMonitors {P : Nat} {s u : State} (hP : Fits 0x6000000000000000000000000000000 P) (h : Keeps P s u) :
    Keeps P s (State.presetMonitors u) := by
  unfold State.presetMonitors
  repeat' (first
    | with_reducible exact h
    | with_reducible assumption
    | dsimp -zeta only
    | with_reducible refine keeps_wr hP rfl ?_
    | with_reducible refine keeps_fput hP rfl ?_
    | with_reducible refine keeps_foldl ?_ ?_
    | with_reducible refine keeps_foldl_fst ?_ ?_
    | intro _
    | with_reducible refine keeps_ite ?_ ?_
    | with_reducible refine keeps_ite_fst ?_ ?_
    | with_reducible refine keeps_pair (by assumption) ?_
    | split
    | fail_if_no_progress extract_lets
    | dsimp +zetaDelta only)

theorem keeps_presetFast {P : Nat} {s u : State} {a1 a2} (hP : Fits 0x6000000000000000000000000000000 P) (h : Keeps P s u) :
    Keeps P s (State.presetFast u a1 a2) := by
  unfold State.presetFast
  repeat' (first
    | with_reducible exact h
    | with_reducible assumption
    | dsimp -zeta only
    | with_reducible refine keeps_wr hP rfl ?_
    | with_reducible refine keeps_fput hP rfl ?_
    | with_reducible refine keeps_foldl ?_ ?_
    | with_reducible refine keeps_foldl_fst ?_ ?_
    | intro _
    | with_reducible refine keeps_ite ?_ ?_
    | with_reducible refine keeps_ite_fst ?_ ?_
    | with_reducible refine keeps_pair (by assumption) ?_
    | split
    | fail_if_no_progress extract_lets
    | dsimp +zetaDelta only)

theorem keeps_bodyAdcSequence {P : Nat} {s u : State} {k} (hP : Fits 0x1800000000000000000000000000000000000000000000000006681000000000000000000000000000 P) (h : Keeps P s u) :
    Keeps P s (bodyAdcSequence k u).1 := by
  unfold bodyAdcSequence
  beta_reduce
  repeat' (first
    | with_reducible exact h
    | with_reducible assumption
    | dsimp -zeta only
    | with_reducible refine keeps_presetMonitors (hP.sub rfl) ?_
    | with_reducible refine keeps_enableSeqs (hP.sub rfl) ?_
    | with_reducible refine keeps_presetPins (hP.sub rfl) ?_
    | with_reducible refine keeps_presetFast (hP.sub rfl) ?_
    | with_reducible refine keeps_fail (hP.sub rfl) ?_
    | with_reducible refine keeps_fail_eq (by assumption) (hP.sub rfl) ?_
    | with_reducible refine keeps_ok (hP.sub rfl) ?_
    | with_reducible refine keeps_ok_eq (by assumption) (hP.sub rfl) ?_
    | intro _
    | with_reducible refine keeps_ite ?_ ?_
    | with_reducible refine keeps_ite_fst ?_ ?_
    | with_reducible refine keeps_pair (by assumption) ?_
    | split
    | fail_if_no_progress extract_lets
    | dsimp +zetaDelta only)

theorem keeps_bodyAdcSequence_eq {P : Nat} {s u v : State} {k} {x} (he : bodyAdcSequence k u = (v, x)) (hP : Fits 0x1800000000000000000000000000000000000000000000000006681000000000000000000000000000 P)
    (h : Keeps P s u) : Keeps P s v := by
  have h1 := keeps_bodyAdcSequence (k := k) hP h
  rw [he] at h1
  exact h1

theorem keeps_bodyAdcTrigger {P : Nat} {s u : State} {k} (hP : Fits 0x1800001000000000000000000000000000000000000000000080b3c000000000000000000000000000 P) (h : Keeps P s u) :
    Keeps P s (bodyAdcTrigger k u).1 := by
  unfold bodyAdcTrigger
  beta_reduce
  repeat' (first
    | with_reducible exact h
    | with_reducible assumption
    | dsimp -zeta only
    | with_reducible refine keeps_commonTrigger (hP.sub rfl) ?_
    | with_reducible refine keeps_fail (hP.sub rfl) ?_
    | with_reducible refine keeps_fail_eq (by assumption) (hP.sub rfl) ?_
    | with_reducible refine keeps_ok (hP.sub rfl) ?_
    | with_reducible refine keeps_ok_eq (by assumption) (hP.sub rfl) ?_
    | intro _
    | with_reducible refine keeps_ite ?_ ?_
    | with_reducible refine keeps_ite_fst ?_ ?_
    | with_reducible refine keeps_pair (by assumption) ?_
    | split
    | fail_if_no_progress extract_lets
    | dsimp +zetaDelta only)

theorem keeps_bodyAdcTrigger_eq {P : Nat} {s u v : State} {k} {x} (he : bodyAdcTrigger k u = (v, x)) (hP : Fits 0x1800001000000000000000000000000000000000000000000080b3c000000000000000000000000000 P)
    (h : Keeps P s u) : Keeps P s v := by
  have h1 := keeps_bodyAdcTrigger (k := k) hP h
  rw [he] at h1
  exact h1

theorem keeps_bodyAdcInject {P : Nat} {s u : State} {k} (hP : Fits 0x800000000000000000000000000000000000000000000000010000000000000000000000000000000 P) (h : Keeps P s u) :
    Keeps P s (bodyAdcInject k u).1 := by
  unfold bodyAdcInject
  beta_reduce
  repeat' (first
    | with_reducible exact h
    | with_reducible assumption
    | dsimp -zeta only
    | with_reducible refine keeps_sarInject (hP.sub rfl) ?_
    | with_reducible refine keeps_sarInject_eq (by assumption) (hP.sub rfl) ?_
    | with_reducible refine keeps_fail (hP.sub rfl) ?_
    | with_reducible refine keeps_fail_eq (by assumption) (hP.sub rfl) ?_
    | intro _
    | with_reducible refine keeps_ite ?_ ?_
    | with_reducible refine keeps_ite_fst ?_ ?_
    | with_reducible refine keeps_pair (by assumption) ?_
    | split
    | fail_if_no_progress extract_lets
    | dsimp +zetaDelta only)

theorem keeps_bodyAdcInject_eq {P : Nat} {s u v : State} {k} {x} (he : bodyAdcInject k u = (v, x)) (hP : Fits 0x800000000000000000000000000000000000000000000000010000000000000000000000000000000 P)
    (h : Keeps P s u) : Keeps P s v := by
  have h1 := keeps_bodyAdcInject (k := k) hP h
  rw [he] at h1
  exact h1

theorem keeps_execMsConverterTrigger {P : Nat} {u t : State} {a0} (he : execMsConverterTrigger a0 u = .next t) (hP : Fits 0x3800fcb000000000000000000012068002000000000000000080b3c000000000000000000000000000 P) : Keeps P u t := by
  unfold execMsConverterTrigger at he
  injection he with he
  subst he
  repeat' (first
    | with_reducible exact Keeps.refl P u
    | with_reducible assumption
    | dsimp -zeta only
    | with_reducible refine keeps_doMsConverterTrigger (hP.sub rfl) ?_
    | with_reducible refine keeps_id ?_
    | intro _
    | with_reducible refine keeps_ite ?_ ?_
    | with_reducible refine keeps_ite_fst ?_ ?_
    | with_reducible refine keeps_pair (by assumption) ?_
    | split
    | fail_if_no_progress extract_lets
    | dsimp +zetaDelta only)

theorem keeps_execSdOutput {P : Nat} {u t : State} {a0 a1 a2} (he : execSdOutput a0 a1 a2 u = .next t) (hP : Fits 0x99e059b000000000300000000012068000000a1002140a1c0001b00000000000000000000000000000 P) : Keeps P u t := by
  unfold execSdOutput at he
  injection he with he
  subst he
  repeat' (first
    | with_reducible exact Keeps.refl P u
    | with_reducible assumption
    | dsimp -zeta only
    | with_reducible refine keeps_doSdOutput (hP.sub rfl) ?_
    | intro _
    | with_reducible refine keeps_ite ?_ ?_
    | with_reducible refine keeps_ite_fst ?_ ?_
    | with_reducible refine keeps_pair (by assumption) ?_
    | split
    | fail_if_no_progress extract_lets
    | dsimp +zetaDelta only)

theorem keeps_execSarConversionDone {P : Nat} {u t : State} {a0 a1} (he : execSarConversionDone a0 a1 u = .next t) (hP : Fits 0xb9e0f9b000000000300000000012068002000a1002140a1c00f0000000000000000000000000000000 P) : Keeps P u t := by
  unfold execSarConversionDone at he
  injection he with he
  subst he
  repeat' (first
    | with_reducible exact Keeps.refl P u
    | with_reducible assumption
    | dsimp -zeta only
    | with_reducible refine keeps_doSarConversionDone (hP.sub rfl) ?_
    | intro _
    | with_reducible refine keeps_ite ?_ ?_
    | with_reducible refine keeps_ite_fst ?_ ?_
    | with_reducible refine keeps_pair (by assumption) ?_
    | split
    | fail_if_no_progress extract_lets
    | dsimp +zetaDelta only)

theorem keeps_execConverterResultPost {P : Nat} {u t : State} (he : execConverterResultPost u = .next t) (hP : Fits 0x800188000000000000000000012068000000000000000000000000000000000000000000000000000 P) : Keeps P u t := by
  unfold execConverterResultPost at he
  injection he with he
  subst he
  repeat' (first
    | with_reducible exact Keeps.refl P u
    | with_reducible assumption
    | dsimp -zeta only
    | with_reducible refine keeps_doConverterResultPost (hP.sub rfl) ?_
    | intro _
    | with_reducible refine keeps_ite ?_ ?_
    | with_reducible refine keeps_ite_fst ?_ ?_
    | with_reducible refine keeps_pair (by assumption) ?_
    | split
    | fail_if_no_progress extract_lets
    | dsimp +zetaDelta only)

theorem keeps_execHeldTrigger {P : Nat} {u t : State} (he : execHeldTrigger u = .next t) (hP : Fits 0x1800001000000000000000000000000000000000000000000080b34000000000000000000000000000 P) : Keeps P u t := by
  unfold execHeldTrigger at he
  injection he with he
  subst he
  repeat' (first
    | with_reducible exact Keeps.refl P u
    | with_reducible assumption
    | dsimp -zeta only
    | with_reducible refine keeps_doHeldTrigger (hP.sub rfl) ?_
    | intro _
    | with_reducible refine keeps_ite ?_ ?_
    | with_reducible refine keeps_ite_fst ?_ ?_
    | with_reducible refine keeps_pair (by assumption) ?_
    | split
    | fail_if_no_progress extract_lets
    | dsimp +zetaDelta only)

theorem keeps_execAdcSequence {P : Nat} {u t : State} {a0} (he : execAdcSequence a0 u = .next t) (hP : Fits 0x3800e02000000000000000000000000003f00000000000000006681000000000000000000000000000 P) : Keeps P u t := by
  unfold execAdcSequence at he
  injection he with he
  subst he
  repeat' (first
    | with_reducible exact Keeps.refl P u
    | with_reducible assumption
    | dsimp -zeta only
    | with_reducible refine keeps_runCommand (hP.sub rfl) ?_ ?_
    | with_reducible refine keeps_bodyAdcSequence (hP.sub rfl) ?_
    | with_reducible refine keeps_bodyAdcSequence_eq (by assumption) (hP.sub rfl) ?_
    | intro _
    | with_reducible refine keeps_ite ?_ ?_
    | with_reducible refine keeps_ite_fst ?_ ?_
    | with_reducible refine keeps_pair (by assumption) ?_
    | split
    | fail_if_no_progress extract_lets
    | dsimp +zetaDelta only)

theorem keeps_execAdcTrigger {P : Nat} {u t : State} {a0} (he : execAdcTrigger a0 u = .next t) (hP : Fits 0x3800e03000000000000000000000000003f00000000000000080b3c000000000000000000000000000 P) : Keeps P u t := by
  unfold execAdcTrigger at he
  injection he with he
  subst he
  repeat' (first
    | with_reducible exact Keeps.refl P u
    | with_reducible assumption
    | dsimp -zeta only
    | with_reducible refine keeps_runCommand (hP.sub rfl) ?_ ?_
    | with_reducible refine keeps_bodyAdcTrigger (hP.sub rfl) ?_
    | with_reducible refine keeps_bodyAdcTrigger_eq (by assumption) (hP.sub rfl) ?_
    | intro _
    | with_reducible refine keeps_ite ?_ ?_
    | with_reducible refine keeps_ite_fst ?_ ?_
    | with_reducible refine keeps_pair (by assumption) ?_
    | split
    | fail_if_no_progress extract_lets
    | dsimp +zetaDelta only)

theorem keeps_execAdcInject {P : Nat} {u t : State} {a0} (he : execAdcInject a0 u = .next t) (hP : Fits 0x2800e02000000000000000000000000003f00000000000000010000000000000000000000000000000 P) : Keeps P u t := by
  unfold execAdcInject at he
  injection he with he
  subst he
  repeat' (first
    | with_reducible exact Keeps.refl P u
    | with_reducible assumption
    | dsimp -zeta only
    | with_reducible refine keeps_runCommand (hP.sub rfl) ?_ ?_
    | with_reducible refine keeps_bodyAdcInject (hP.sub rfl) ?_
    | with_reducible refine keeps_bodyAdcInject_eq (by assumption) (hP.sub rfl) ?_
    | intro _
    | with_reducible refine keeps_ite ?_ ?_
    | with_reducible refine keeps_ite_fst ?_ ?_
    | with_reducible refine keeps_pair (by assumption) ?_
    | split
    | fail_if_no_progress extract_lets
    | dsimp +zetaDelta only)

end Sys2Proof.Machine
end

