-- ==== Sys2Proof/Laws/KeepsDdsEngines.lean ====
section
/-! SUPPORT. What each operation of Machine/DdsEngines.lean may change, and that it keeps the invariant: one law for each. -/

set_option linter.unreachableTactic false
set_option linter.unusedTactic false

namespace Sys2Proof.Machine

theorem keeps_ddsPutEntry {P : Nat} {s u : State} {a1 a2 a3} (hP : Fits 0x400000000000000000000000000000000000000000000000000000040000000000000000000000000 P) (h : Keeps P s u) :
    Keeps P s (State.ddsPutEntry u a1 a2 a3) := by
  unfold State.ddsPutEntry
  repeat' (first
    | with_reducible exact h
    | with_reducible assumption
    | dsimp -zeta only
    | with_reducible refine keeps_setDds (hP.sub rfl) ?_
    | with_reducible refine keeps_fput hP rfl ?_
    | intro _
    | with_reducible refine keeps_ite ?_ ?_
    | with_reducible refine keeps_ite_fst ?_ ?_
    | with_reducible refine keeps_pair (by assumption) ?_
    | split
    | fail_if_no_progress extract_lets
    | dsimp +zetaDelta only)

theorem keeps_ddsCrowd {P : Nat} {s u : State} {a1 a2 a3 a4 a5} (hP : Fits 0x1000000000000000000000000000000000000000000000000000000000000000000000900000000 P) (h : Keeps P s u) :
    Keeps P s (State.ddsCrowd u a1 a2 a3 a4 a5) := by
  unfold State.ddsCrowd
  repeat' (first
    | with_reducible exact h
    | with_reducible assumption
    | dsimp -zeta only
    | with_reducible refine keeps_crowded (hP.sub rfl) ?_
    | with_reducible refine keeps_setPin (hP.sub rfl) ?_
    | with_reducible refine keeps_foldl ?_ ?_
    | with_reducible refine keeps_foldl_fst ?_ ?_
    | intro _
    | with_reducible refine keeps_ite ?_ ?_
    | with_reducible refine keeps_ite_fst ?_ ?_
    | with_reducible refine keeps_pair (by assumption) ?_
    | split
    | fail_if_no_progress extract_lets
    | dsimp +zetaDelta only)

theorem keeps_ddsIgnore {P : Nat} {s u : State} {a1} (hP : Fits 0x200000000000000000000000000 P) (h : Keeps P s u) :
    Keeps P s (State.ddsIgnore u a1) := by
  unfold State.ddsIgnore
  repeat' (first
    | with_reducible exact h
    | with_reducible assumption
    | dsimp -zeta only
    | with_reducible refine keeps_bump hP rfl ?_
    | intro _
    | with_reducible refine keeps_ite ?_ ?_
    | with_reducible refine keeps_ite_fst ?_ ?_
    | with_reducible refine keeps_pair (by assumption) ?_
    | split
    | fail_if_no_progress extract_lets
    | dsimp +zetaDelta only)

theorem keeps_ddsForce {P : Nat} {s u : State} {a1 a2 a3 a4} (hP : Fits 0x401000000000000000000000000000000000000000000000000000200000000000000000900000000 P) (h : Keeps P s u) :
    Keeps P s (State.ddsForce u a1 a2 a3 a4) := by
  unfold State.ddsForce
  repeat' (first
    | with_reducible exact h
    | with_reducible assumption
    | dsimp -zeta only
    | with_reducible refine keeps_ddsIgnore (hP.sub rfl) ?_
    | with_reducible refine keeps_ddsCrowd (hP.sub rfl) ?_
    | with_reducible refine keeps_setDds (hP.sub rfl) ?_
    | intro _
    | with_reducible refine keeps_ite ?_ ?_
    | with_reducible refine keeps_ite_fst ?_ ?_
    | with_reducible refine keeps_pair (by assumption) ?_
    | split
    | fail_if_no_progress extract_lets
    | dsimp +zetaDelta only)

theorem keeps_ddsAdvance {P : Nat} {s u : State} {a1 a2} (hP : Fits 0x401000000000000000000000000000000000000000000000000000200000000000000000900000000 P) (h : Keeps P s u) :
    Keeps P s (State.ddsAdvance u a1 a2) := by
  unfold State.ddsAdvance
  repeat' (first
    | with_reducible exact h
    | with_reducible assumption
    | dsimp -zeta only
    | with_reducible refine keeps_ddsIgnore (hP.sub rfl) ?_
    | with_reducible refine keeps_ddsForce (hP.sub rfl) ?_
    | intro _
    | with_reducible refine keeps_ite ?_ ?_
    | with_reducible refine keeps_ite_fst ?_ ?_
    | with_reducible refine keeps_pair (by assumption) ?_
    | split
    | fail_if_no_progress extract_lets
    | dsimp +zetaDelta only)

theorem keeps_doDwellEnd {P : Nat} {s u : State} {a0} (hP : Fits 0x401001000000000000000000000000000000000000000000000000200000000000000000900000000 P) (h : Keeps P s u) :
    Keeps P s (doDwellEnd a0 u) := by
  unfold doDwellEnd
  repeat' (first
    | with_reducible exact h
    | with_reducible assumption
    | dsimp -zeta only
    | with_reducible refine keeps_ddsForce (hP.sub rfl) ?_
    | with_reducible refine keeps_advance (hP.sub rfl) ?_
    | intro _
    | with_reducible refine keeps_ite ?_ ?_
    | with_reducible refine keeps_ite_fst ?_ ?_
    | with_reducible refine keeps_pair (by assumption) ?_
    | split
    | fail_if_no_progress extract_lets
    | dsimp +zetaDelta only)

theorem keeps_ddsHop {P : Nat} {s u : State} {a1 a2 a3} (hP : Fits 0x401000000000000000000000000000000000000000000000000000200000000000000000900000000 P) (h : Keeps P s u) :
    Keeps P s (State.ddsHop u a1 a2 a3) := by
  unfold State.ddsHop
  repeat' (first
    | with_reducible exact h
    | with_reducible assumption
    | dsimp -zeta only
    | with_reducible refine keeps_ddsForce (hP.sub rfl) ?_
    | intro _
    | with_reducible refine keeps_ite ?_ ?_
    | with_reducible refine keeps_ite_fst ?_ ?_
    | with_reducible refine keeps_pair (by assumption) ?_
    | split
    | fail_if_no_progress extract_lets
    | dsimp +zetaDelta only)

theorem keeps_ddsIdle {P : Nat} {s u : State} {a1 a2 a3} (hP : Fits 0x401000000000000000000000000000000000000000000000000000000000000000000000900000000 P) (h : Keeps P s u) :
    Keeps P s (State.ddsIdle u a1 a2 a3) := by
  unfold State.ddsIdle
  repeat' (first
    | with_reducible exact h
    | with_reducible assumption
    | dsimp -zeta only
    | with_reducible refine keeps_ddsCrowd (hP.sub rfl) ?_
    | with_reducible refine keeps_setDds (hP.sub rfl) ?_
    | intro _
    | with_reducible refine keeps_ite ?_ ?_
    | with_reducible refine keeps_ite_fst ?_ ?_
    | with_reducible refine keeps_pair (by assumption) ?_
    | split
    | fail_if_no_progress extract_lets
    | dsimp +zetaDelta only)

theorem keeps_ddsStop {P : Nat} {s u : State} {a1 a2} (hP : Fits 0x401000000000000000000000000000000000000000000000000000200000000000000000900000000 P) (h : Keeps P s u) :
    Keeps P s (State.ddsStop u a1 a2) := by
  unfold State.ddsStop
  repeat' (first
    | with_reducible exact h
    | with_reducible assumption
    | dsimp -zeta only
    | with_reducible refine keeps_ddsIgnore (hP.sub rfl) ?_
    | with_reducible refine keeps_ddsIdle (hP.sub rfl) ?_
    | intro _
    | with_reducible refine keeps_ite ?_ ?_
    | with_reducible refine keeps_ite_fst ?_ ?_
    | with_reducible refine keeps_pair (by assumption) ?_
    | split
    | fail_if_no_progress extract_lets
    | dsimp +zetaDelta only)

theorem keeps_ddsMerOff {P : Nat} {s u : State} {a1} (hP : Fits 0x401000000000000000000000000000000000000000000000000000100000000000000000900000000 P) (h : Keeps P s u) :
    Keeps P s (State.ddsMerOff u a1) := by
  unfold State.ddsMerOff
  repeat' (first
    | with_reducible exact h
    | with_reducible assumption
    | dsimp -zeta only
    | with_reducible refine keeps_ddsIdle (hP.sub rfl) ?_
    | with_reducible refine keeps_fput hP rfl ?_
    | with_reducible refine keeps_foldl ?_ ?_
    | with_reducible refine keeps_foldl_fst ?_ ?_
    | intro _
    | with_reducible refine keeps_ite ?_ ?_
    | with_reducible refine keeps_ite_fst ?_ ?_
    | with_reducible refine keeps_pair (by assumption) ?_
    | split
    | fail_if_no_progress extract_lets
    | dsimp +zetaDelta only)

theorem keeps_doMsDdsHop {P : Nat} {s u : State} {a0} (hP : Fits 0x2401fcb000000000000000000012068002000000000000000000000200000000000000000900000000 P) (h : Keeps P s u) :
    Keeps P s (doMsDdsHop a0 u) := by
  unfold doMsDdsHop
  repeat' (first
    | with_reducible exact h
    | with_reducible assumption
    | dsimp -zeta only
    | with_reducible refine keeps_ddsForce (hP.sub rfl) ?_
    | with_reducible refine keeps_msDone (hP.sub rfl) ?_
    | with_reducible refine keeps_msFire_eq (by assumption) (hP.sub rfl) ?_
    | with_reducible refine keeps_id ?_
    | intro _
    | with_reducible refine keeps_ite ?_ ?_
    | with_reducible refine keeps_ite_fst ?_ ?_
    | with_reducible refine keeps_pair (by assumption) ?_
    | split
    | fail_if_no_progress extract_lets
    | dsimp +zetaDelta only)

theorem keeps_doMsDdsAdvance {P : Nat} {s u : State} {a0} (hP : Fits 0x2401fcb000000000000000000012068002000000000000000000000200000000000000000900000000 P) (h : Keeps P s u) :
    Keeps P s (doMsDdsAdvance a0 u) := by
  unfold doMsDdsAdvance
  repeat' (first
    | with_reducible exact h
    | with_reducible assumption
    | dsimp -zeta only
    | with_reducible refine keeps_ddsAdvance (hP.sub rfl) ?_
    | with_reducible refine keeps_msDone (hP.sub rfl) ?_
    | with_reducible refine keeps_msFire_eq (by assumption) (hP.sub rfl) ?_
    | with_reducible refine keeps_id ?_
    | intro _
    | with_reducible refine keeps_ite ?_ ?_
    | with_reducible refine keeps_ite_fst ?_ ?_
    | with_reducible refine keeps_pair (by assumption) ?_
    | split
    | fail_if_no_progress extract_lets
    | dsimp +zetaDelta only)

theorem keeps_doMsDdsStart {P : Nat} {s u : State} {a0} (hP : Fits 0x2401fcb000000000000000000012068002000000000000000000000c00000000000000000900000000 P) (h : Keeps P s u) :
    Keeps P s (doMsDdsStart a0 u) := by
  unfold doMsDdsStart
  repeat' (first
    | with_reducible exact h
    | with_reducible assumption
    | dsimp -zeta only
    | with_reducible refine keeps_ddsCrowd (hP.sub rfl) ?_
    | with_reducible refine keeps_msDone (hP.sub rfl) ?_
    | with_reducible refine keeps_setDds (hP.sub rfl) ?_
    | with_reducible refine keeps_msFire_eq (by assumption) (hP.sub rfl) ?_
    | with_reducible refine keeps_fput hP rfl ?_
    | with_reducible refine keeps_id ?_
    | intro _
    | with_reducible refine keeps_ite ?_ ?_
    | with_reducible refine keeps_ite_fst ?_ ?_
    | with_reducible refine keeps_pair (by assumption) ?_
    | split
    | fail_if_no_progress extract_lets
    | dsimp +zetaDelta only)

theorem keeps_doMsDdsStop {P : Nat} {s u : State} {a0} (hP : Fits 0x2401fcb000000000000000000012068002000000000000000000000200000000000000000900000000 P) (h : Keeps P s u) :
    Keeps P s (doMsDdsStop a0 u) := by
  unfold doMsDdsStop
  repeat' (first
    | with_reducible exact h
    | with_reducible assumption
    | dsimp -zeta only
    | with_reducible refine keeps_ddsStop (hP.sub rfl) ?_
    | with_reducible refine keeps_msDone (hP.sub rfl) ?_
    | with_reducible refine keeps_msFire_eq (by assumption) (hP.sub rfl) ?_
    | with_reducible refine keeps_id ?_
    | intro _
    | with_reducible refine keeps_ite ?_ ?_
    | with_reducible refine keeps_ite_fst ?_ ?_
    | with_reducible refine keeps_pair (by assumption) ?_
    | split
    | fail_if_no_progress extract_lets
    | dsimp +zetaDelta only)

theorem keeps_doDdsListWrite {P : Nat} {s u : State} {a0 a1 a2} (hP : Fits 0x400408000000000000004000000000000000000000000000000000140000000000000000000000000 P) (h : Keeps P s u) :
    Keeps P s (doDdsListWrite a0 a1 a2 u) := by
  unfold doDdsListWrite
  repeat' (first
    | with_reducible exact h
    | with_reducible assumption
    | dsimp -zeta only
    | with_reducible refine keeps_ddsPutEntry (hP.sub rfl) ?_
    | with_reducible refine keeps_rtWriteDrop (hP.sub rfl) ?_
    | with_reducible refine keeps_fput hP rfl ?_
    | intro _
    | with_reducible refine keeps_ite ?_ ?_
    | with_reducible refine keeps_ite_fst ?_ ?_
    | with_reducible refine keeps_pair (by assumption) ?_
    | split
    | fail_if_no_progress extract_lets
    | fail_if_no_progress with_reducible refine keeps_dds hP rfl ?_
    | dsimp +zetaDelta only)

theorem keeps_ddsStore {P : Nat} {s u : State} {a1 a2 a3} (hP : Fits 0x400000000000000000000000000000000000000000000000000000000000000000000000000000000 P) (h : Keeps P s u) :
    Keeps P s (State.ddsStore u a1 a2 a3) := by
  induction a3 generalizing u a1 a2 with
  | nil =>
    unfold State.ddsStore
    repeat' (first
      | with_reducible exact h
      | with_reducible assumption
      | dsimp -zeta only
      | with_reducible refine keeps_setDds (hP.sub rfl) ?_
      | intro _
      | with_reducible refine keeps_ite ?_ ?_
      | with_reducible refine keeps_ite_fst ?_ ?_
      | with_reducible refine keeps_pair (by assumption) ?_
      | split
      | fail_if_no_progress extract_lets
      | dsimp +zetaDelta only)
  | cons x r ih =>
    unfold State.ddsStore
    repeat' (first
      | with_reducible exact h
      | with_reducible assumption
      | dsimp -zeta only
      | with_reducible apply ih
      | with_reducible refine keeps_setDds (hP.sub rfl) ?_
      | intro _
      | with_reducible refine keeps_ite ?_ ?_
      | with_reducible refine keeps_ite_fst ?_ ?_
      | with_reducible refine keeps_pair (by assumption) ?_
      | split
      | fail_if_no_progress extract_lets
      | dsimp +zetaDelta only)

theorem keeps_bodyDdsLoad {P : Nat} {s u : State} {k} (hP : Fits 0x85e059b000000000300000000012068000000a1002140a1000000000e0000000000000000000000000 P) (h : Keeps P s u) :
    Keeps P s (bodyDdsLoad k u).1 := by
  unfold bodyDdsLoad
  beta_reduce
  repeat' (first
    | with_reducible exact h
    | with_reducible assumption
    | dsimp -zeta only
    | with_reducible refine keeps_ddsStore (hP.sub rfl) ?_
    | with_reducible refine keeps_payload (hP.sub rfl) ?_
    | with_reducible refine keeps_payload_eq (by assumption) (hP.sub rfl) ?_
    | with_reducible refine keeps_fail (hP.sub rfl) ?_
    | with_reducible refine keeps_fail_eq (by assumption) (hP.sub rfl) ?_
    | with_reducible refine keeps_fput hP rfl ?_
    | intro _
    | with_reducible refine keeps_ite ?_ ?_
    | with_reducible refine keeps_ite_fst ?_ ?_
    | with_reducible refine keeps_pair (by assumption) ?_
    | split
    | fail_if_no_progress extract_lets
    | dsimp +zetaDelta only)

theorem keeps_bodyDdsLoad_eq {P : Nat} {s u v : State} {k} {x} (he : bodyDdsLoad k u = (v, x)) (hP : Fits 0x85e059b000000000300000000012068000000a1002140a1000000000e0000000000000000000000000 P)
    (h : Keeps P s u) : Keeps P s v := by
  have h1 := keeps_bodyDdsLoad (k := k) hP h
  rw [he] at h1
  exact h1

theorem keeps_bodyDdsStart {P : Nat} {s u : State} {k} (hP : Fits 0x400040000000000000000000000000000000000000000000000000020000000000000000000010000 P) (h : Keeps P s u) :
    Keeps P s (bodyDdsStart k u).1 := by
  unfold bodyDdsStart
  beta_reduce
  repeat' (first
    | with_reducible exact h
    | with_reducible assumption
    | dsimp -zeta only
    | with_reducible refine keeps_msCommit (hP.sub rfl) ?_
    | with_reducible refine keeps_msCommit_eq (by assumption) (hP.sub rfl) ?_
    | with_reducible refine keeps_setDds (hP.sub rfl) ?_
    | with_reducible refine keeps_okResult (hP.sub rfl) ?_
    | with_reducible refine keeps_okResult_eq (by assumption) (hP.sub rfl) ?_
    | with_reducible refine keeps_fail (hP.sub rfl) ?_
    | with_reducible refine keeps_fail_eq (by assumption) (hP.sub rfl) ?_
    | with_reducible refine keeps_fput hP rfl ?_
    | with_reducible refine keeps_id ?_
    | intro _
    | with_reducible refine keeps_ite ?_ ?_
    | with_reducible refine keeps_ite_fst ?_ ?_
    | with_reducible refine keeps_pair (by assumption) ?_
    | split
    | fail_if_no_progress extract_lets
    | dsimp +zetaDelta only)

theorem keeps_bodyDdsStart_eq {P : Nat} {s u v : State} {k} {x} (he : bodyDdsStart k u = (v, x)) (hP : Fits 0x400040000000000000000000000000000000000000000000000000020000000000000000000010000 P)
    (h : Keeps P s u) : Keeps P s v := by
  have h1 := keeps_bodyDdsStart (k := k) hP h
  rw [he] at h1
  exact h1

theorem keeps_bodyDdsStop {P : Nat} {s u : State} {k} (hP : Fits 0x40000000000000000000000000000000000000000000000000000000000000000000000010000 P) (h : Keeps P s u) :
    Keeps P s (bodyDdsStop k u).1 := by
  unfold bodyDdsStop
  beta_reduce
  repeat' (first
    | with_reducible exact h
    | with_reducible assumption
    | dsimp -zeta only
    | with_reducible refine keeps_msCommit (hP.sub rfl) ?_
    | with_reducible refine keeps_msCommit_eq (by assumption) (hP.sub rfl) ?_
    | with_reducible refine keeps_fail (hP.sub rfl) ?_
    | with_reducible refine keeps_fail_eq (by assumption) (hP.sub rfl) ?_
    | with_reducible refine keeps_id ?_
    | intro _
    | with_reducible refine keeps_ite ?_ ?_
    | with_reducible refine keeps_ite_fst ?_ ?_
    | with_reducible refine keeps_pair (by assumption) ?_
    | split
    | fail_if_no_progress extract_lets
    | dsimp +zetaDelta only)

theorem keeps_bodyDdsStop_eq {P : Nat} {s u v : State} {k} {x} (he : bodyDdsStop k u = (v, x)) (hP : Fits 0x40000000000000000000000000000000000000000000000000000000000000000000000010000 P)
    (h : Keeps P s u) : Keeps P s v := by
  have h1 := keeps_bodyDdsStop (k := k) hP h
  rw [he] at h1
  exact h1

theorem keeps_bodyDdsPin {P : Nat} {s u : State} {k} (hP : Fits 0x10000000000000000000000000 P) (h : Keeps P s u) :
    Keeps P s (bodyDdsPin k u).1 := by
  unfold bodyDdsPin
  beta_reduce
  repeat' (first
    | with_reducible exact h
    | with_reducible assumption
    | dsimp -zeta only
    | with_reducible refine keeps_fail (hP.sub rfl) ?_
    | with_reducible refine keeps_fail_eq (by assumption) (hP.sub rfl) ?_
    | with_reducible refine keeps_ok (hP.sub rfl) ?_
    | with_reducible refine keeps_ok_eq (by assumption) (hP.sub rfl) ?_
    | with_reducible refine keeps_fput hP rfl ?_
    | with_reducible refine keeps_foldl ?_ ?_
    | with_reducible refine keeps_foldl_fst ?_ ?_
    | intro _
    | with_reducible refine keeps_ite ?_ ?_
    | with_reducible refine keeps_ite_fst ?_ ?_
    | with_reducible refine keeps_pair (by assumption) ?_
    | split
    | fail_if_no_progress extract_lets
    | dsimp +zetaDelta only)

theorem keeps_bodyDdsPin_eq {P : Nat} {s u v : State} {k} {x} (he : bodyDdsPin k u = (v, x)) (hP : Fits 0x10000000000000000000000000 P)
    (h : Keeps P s u) : Keeps P s v := by
  have h1 := keeps_bodyDdsPin (k := k) hP h
  rw [he] at h1
  exact h1

theorem keeps_execMsDdsHop {P : Nat} {u t : State} {a0} (he : execMsDdsHop a0 u = .next t) (hP : Fits 0x2401fcb000000000000000000012068002000000000000000000000200000000000000000900000000 P) : Keeps P u t := by
  unfold execMsDdsHop at he
  injection he with he
  subst he
  repeat' (first
    | with_reducible exact Keeps.refl P u
    | with_reducible assumption
    | dsimp -zeta only
    | with_reducible refine keeps_doMsDdsHop (hP.sub rfl) ?_
    | with_reducible refine keeps_id ?_
    | intro _
    | with_reducible refine keeps_ite ?_ ?_
    | with_reducible refine keeps_ite_fst ?_ ?_
    | with_reducible refine keeps_pair (by assumption) ?_
    | split
    | fail_if_no_progress extract_lets
    | dsimp +zetaDelta only)

theorem keeps_execMsDdsAdvance {P : Nat} {u t : State} {a0} (he : execMsDdsAdvance a0 u = .next t) (hP : Fits 0x2401fcb000000000000000000012068002000000000000000000000200000000000000000900000000 P) : Keeps P u t := by
  unfold execMsDdsAdvance at he
  injection he with he
  subst he
  repeat' (first
    | with_reducible exact Keeps.refl P u
    | with_reducible assumption
    | dsimp -zeta only
    | with_reducible refine keeps_doMsDdsAdvance (hP.sub rfl) ?_
    | with_reducible refine keeps_id ?_
    | intro _
    | with_reducible refine keeps_ite ?_ ?_
    | with_reducible refine keeps_ite_fst ?_ ?_
    | with_reducible refine keeps_pair (by assumption) ?_
    | split
    | fail_if_no_progress extract_lets
    | dsimp +zetaDelta only)

theorem keeps_execMsDdsStart {P : Nat} {u t : State} {a0} (he : execMsDdsStart a0 u = .next t) (hP : Fits 0x2401fcb000000000000000000012068002000000000000000000000c00000000000000000900000000 P) : Keeps P u t := by
  unfold execMsDdsStart at he
  injection he with he
  subst he
  repeat' (first
    | with_reducible exact Keeps.refl P u
    | with_reducible assumption
    | dsimp -zeta only
    | with_reducible refine keeps_doMsDdsStart (hP.sub rfl) ?_
    | with_reducible refine keeps_id ?_
    | intro _
    | with_reducible refine keeps_ite ?_ ?_
    | with_reducible refine keeps_ite_fst ?_ ?_
    | with_reducible refine keeps_pair (by assumption) ?_
    | split
    | fail_if_no_progress extract_lets
    | dsimp +zetaDelta only)

theorem keeps_execMsDdsStop {P : Nat} {u t : State} {a0} (he : execMsDdsStop a0 u = .next t) (hP : Fits 0x2401fcb000000000000000000012068002000000000000000000000200000000000000000900000000 P) : Keeps P u t := by
  unfold execMsDdsStop at he
  injection he with he
  subst he
  repeat' (first
    | with_reducible exact Keeps.refl P u
    | with_reducible assumption
    | dsimp -zeta only
    | with_reducible refine keeps_doMsDdsStop (hP.sub rfl) ?_
    | with_reducible refine keeps_id ?_
    | intro _
    | with_reducible refine keeps_ite ?_ ?_
    | with_reducible refine keeps_ite_fst ?_ ?_
    | with_reducible refine keeps_pair (by assumption) ?_
    | split
    | fail_if_no_progress extract_lets
    | dsimp +zetaDelta only)

theorem keeps_execDwellEnd {P : Nat} {u t : State} {a0} (he : execDwellEnd a0 u = .next t) (hP : Fits 0x401001000000000000000000000000000000000000000000000000200000000000000000900000000 P) : Keeps P u t := by
  unfold execDwellEnd at he
  injection he with he
  subst he
  repeat' (first
    | with_reducible exact Keeps.refl P u
    | with_reducible assumption
    | dsimp -zeta only
    | with_reducible refine keeps_doDwellEnd (hP.sub rfl) ?_
    | intro _
    | with_reducible refine keeps_ite ?_ ?_
    | with_reducible refine keeps_ite_fst ?_ ?_
    | with_reducible refine keeps_pair (by assumption) ?_
    | split
    | fail_if_no_progress extract_lets
    | dsimp +zetaDelta only)

theorem keeps_execDdsLoad {P : Nat} {u t : State} {a0} (he : execDdsLoad a0 u = .next t) (hP : Fits 0xa5e0f9b000000000300000000012068003f00a1002140a1000000000e0000000000000000000000000 P) : Keeps P u t := by
  unfold execDdsLoad at he
  injection he with he
  subst he
  repeat' (first
    | with_reducible exact Keeps.refl P u
    | with_reducible assumption
    | dsimp -zeta only
    | with_reducible refine keeps_runCommand (hP.sub rfl) ?_ ?_
    | with_reducible refine keeps_bodyDdsLoad (hP.sub rfl) ?_
    | with_reducible refine keeps_bodyDdsLoad_eq (by assumption) (hP.sub rfl) ?_
    | intro _
    | with_reducible refine keeps_ite ?_ ?_
    | with_reducible refine keeps_ite_fst ?_ ?_
    | with_reducible refine keeps_pair (by assumption) ?_
    | split
    | fail_if_no_progress extract_lets
    | dsimp +zetaDelta only)

theorem keeps_execDdsStart {P : Nat} {u t : State} {a0} (he : execDdsStart a0 u = .next t) (hP : Fits 0x2400e42000000000000000000000000003f00000000000000000000020000000000000000000010000 P) : Keeps P u t := by
  unfold execDdsStart at he
  injection he with he
  subst he
  repeat' (first
    | with_reducible exact Keeps.refl P u
    | with_reducible assumption
    | dsimp -zeta only
    | with_reducible refine keeps_runCommand (hP.sub rfl) ?_ ?_
    | with_reducible refine keeps_bodyDdsStart (hP.sub rfl) ?_
    | with_reducible refine keeps_bodyDdsStart_eq (by assumption) (hP.sub rfl) ?_
    | intro _
    | with_reducible refine keeps_ite ?_ ?_
    | with_reducible refine keeps_ite_fst ?_ ?_
    | with_reducible refine keeps_pair (by assumption) ?_
    | split
    | fail_if_no_progress extract_lets
    | dsimp +zetaDelta only)

theorem keeps_execDdsStop {P : Nat} {u t : State} {a0} (he : execDdsStop a0 u = .next t) (hP : Fits 0x2000e42000000000000000000000000003f00000000000000000000000000000000000000000010000 P) : Keeps P u t := by
  unfold execDdsStop at he
  injection he with he
  subst he
  repeat' (first
    | with_reducible exact Keeps.refl P u
    | with_reducible assumption
    | dsimp -zeta only
    | with_reducible refine keeps_runCommand (hP.sub rfl) ?_ ?_
    | with_reducible refine keeps_bodyDdsStop (hP.sub rfl) ?_
    | with_reducible refine keeps_bodyDdsStop_eq (by assumption) (hP.sub rfl) ?_
    | intro _
    | with_reducible refine keeps_ite ?_ ?_
    | with_reducible refine keeps_ite_fst ?_ ?_
    | with_reducible refine keeps_pair (by assumption) ?_
    | split
    | fail_if_no_progress extract_lets
    | dsimp +zetaDelta only)

theorem keeps_execDdsPin {P : Nat} {u t : State} {a0} (he : execDdsPin a0 u = .next t) (hP : Fits 0x2000e02000000000000000000000000003f00000000000000000000010000000000000000000000000 P) : Keeps P u t := by
  unfold execDdsPin at he
  injection he with he
  subst he
  repeat' (first
    | with_reducible exact Keeps.refl P u
    | with_reducible assumption
    | dsimp -zeta only
    | with_reducible refine keeps_runCommand (hP.sub rfl) ?_ ?_
    | with_reducible refine keeps_bodyDdsPin (hP.sub rfl) ?_
    | with_reducible refine keeps_bodyDdsPin_eq (by assumption) (hP.sub rfl) ?_
    | intro _
    | with_reducible refine keeps_ite ?_ ?_
    | with_reducible refine keeps_ite_fst ?_ ?_
    | with_reducible refine keeps_pair (by assumption) ?_
    | split
    | fail_if_no_progress extract_lets
    | dsimp +zetaDelta only)

end Sys2Proof.Machine
end

