-- ==== Sys2Proof/Laws/KeepsPilotBase.lean ====
section
/-! SUPPORT. What each operation of Machine/PilotBase.lean may change, and that it keeps the invariant: one law for each. -/

set_option linter.unreachableTactic false
set_option linter.unusedTactic false

namespace Sys2Proof.Machine

theorem keeps_pilotRead {P : Nat} {s u : State} {a1 a2 a3} (hP : Fits 0x81e059b000000000300000000012068000000a1002140a100000000000000000000000000000000000 P) (h : Keeps P s u) :
    Keeps P s (State.pilotRead u a1 a2 a3).1 := by
  unfold State.pilotRead
  repeat' (first
    | with_reducible exact h
    | with_reducible assumption
    | dsimp -zeta only
    | with_reducible refine keeps_dvaRead (hP.sub rfl) ?_
    | with_reducible refine keeps_dvaRead_eq (by assumption) (hP.sub rfl) ?_
    | intro _
    | with_reducible refine keeps_ite ?_ ?_
    | with_reducible refine keeps_ite_fst ?_ ?_
    | with_reducible refine keeps_pair (by assumption) ?_
    | split
    | fail_if_no_progress extract_lets
    | dsimp +zetaDelta only)

theorem keeps_pilotRead_eq {P : Nat} {s u v : State} {a1 a2 a3} {x} (he : State.pilotRead u a1 a2 a3 = (v, x)) (hP : Fits 0x81e059b000000000300000000012068000000a1002140a100000000000000000000000000000000000 P)
    (h : Keeps P s u) : Keeps P s v := by
  have h1 := keeps_pilotRead (a1 := a1) (a2 := a2) (a3 := a3) hP h
  rw [he] at h1
  exact h1

theorem keeps_branchEntry {P : Nat} {s u : State} {a1 a2} (hP : Fits 0x81e059b000000000300000000012068000000a1002140a100000000000000000000000000000000000 P) (h : Keeps P s u) :
    Keeps P s (State.branchEntry u a1 a2).1 := by
  unfold State.branchEntry
  repeat' (first
    | with_reducible exact h
    | with_reducible assumption
    | dsimp -zeta only
    | with_reducible refine keeps_pilotRead (hP.sub rfl) ?_
    | with_reducible refine keeps_pilotRead_eq (by assumption) (hP.sub rfl) ?_
    | intro _
    | with_reducible refine keeps_ite ?_ ?_
    | with_reducible refine keeps_ite_fst ?_ ?_
    | with_reducible refine keeps_pair (by assumption) ?_
    | split
    | fail_if_no_progress extract_lets
    | dsimp +zetaDelta only)

theorem keeps_branchEntry_eq {P : Nat} {s u v : State} {a1 a2} {x} (he : State.branchEntry u a1 a2 = (v, x)) (hP : Fits 0x81e059b000000000300000000012068000000a1002140a100000000000000000000000000000000000 P)
    (h : Keeps P s u) : Keeps P s v := by
  have h1 := keeps_branchEntry (a1 := a1) (a2 := a2) hP h
  rw [he] at h1
  exact h1

theorem keeps_legEntry {P : Nat} {s u : State} {a1 a2} (hP : Fits 0x81e059b000000000300000000012068000000a1002140a100000000000000000000000000000000000 P) (h : Keeps P s u) :
    Keeps P s (State.legEntry u a1 a2).1 := by
  unfold State.legEntry
  repeat' (first
    | with_reducible exact h
    | with_reducible assumption
    | dsimp -zeta only
    | with_reducible refine keeps_pilotRead (hP.sub rfl) ?_
    | with_reducible refine keeps_pilotRead_eq (by assumption) (hP.sub rfl) ?_
    | intro _
    | with_reducible refine keeps_ite ?_ ?_
    | with_reducible refine keeps_ite_fst ?_ ?_
    | with_reducible refine keeps_pair (by assumption) ?_
    | split
    | fail_if_no_progress extract_lets
    | dsimp +zetaDelta only)

theorem keeps_legEntry_eq {P : Nat} {s u v : State} {a1 a2} {x} (he : State.legEntry u a1 a2 = (v, x)) (hP : Fits 0x81e059b000000000300000000012068000000a1002140a100000000000000000000000000000000000 P)
    (h : Keeps P s u) : Keeps P s v := by
  have h1 := keeps_legEntry (a1 := a1) (a2 := a2) hP h
  rw [he] at h1
  exact h1

theorem keeps_setCluster {P : Nat} {s u : State} {a1 a2} (hP : Fits 0x4000000000000000000000000000000000000000000000000000000000000000000000000000000 P) (h : Keeps P s u) :
    Keeps P s (State.setCluster u a1 a2) := by
  unfold State.setCluster
  repeat' (first
    | with_reducible exact h
    | with_reducible assumption
    | dsimp -zeta only
    | intro _
    | with_reducible refine keeps_ite ?_ ?_
    | with_reducible refine keeps_ite_fst ?_ ?_
    | with_reducible refine keeps_pair (by assumption) ?_
    | split
    | fail_if_no_progress extract_lets
    | fail_if_no_progress with_reducible refine keeps_clusters hP rfl ?_
    | dsimp +zetaDelta only)

theorem keeps_csUe {P : Nat} {s u : State} {a1 a2} (hP : Fits 0x800440000000000030000000000000000000000000000000000000000000000000000e000000000000 P) (h : Keeps P s u) :
    Keeps P s (State.csUe u a1 a2) := by
  unfold State.csUe
  repeat' (first
    | with_reducible exact h
    | with_reducible assumption
    | dsimp -zeta only
    | with_reducible refine keeps_setCluster (hP.sub rfl) ?_
    | with_reducible refine keeps_logWrite (hP.sub rfl) ?_
    | with_reducible refine keeps_countFix (hP.sub rfl) ?_
    | with_reducible refine keeps_wr hP rfl ?_
    | with_reducible refine keeps_fput hP rfl ?_
    | with_reducible refine keeps_bump hP rfl ?_
    | intro _
    | with_reducible refine keeps_ite ?_ ?_
    | with_reducible refine keeps_ite_fst ?_ ?_
    | with_reducible refine keeps_pair (by assumption) ?_
    | split
    | fail_if_no_progress extract_lets
    | dsimp +zetaDelta only)

theorem keeps_readCs {P : Nat} {s u : State} {a1 a2} (hP : Fits 0x800440000000000030000000000000000000000000000000000000000000000000000e000000000000 P) (h : Keeps P s u) :
    Keeps P s (State.readCs u a1 a2).1 := by
  unfold State.readCs
  repeat' (first
    | with_reducible exact h
    | with_reducible assumption
    | dsimp -zeta only
    | with_reducible refine keeps_countFix (hP.sub rfl) ?_
    | with_reducible refine keeps_csUe (hP.sub rfl) ?_
    | with_reducible refine keeps_bump hP rfl ?_
    | intro _
    | with_reducible refine keeps_ite ?_ ?_
    | with_reducible refine keeps_ite_fst ?_ ?_
    | with_reducible refine keeps_pair (by assumption) ?_
    | split
    | fail_if_no_progress extract_lets
    | dsimp +zetaDelta only)

theorem keeps_readCs_eq {P : Nat} {s u v : State} {a1 a2} {x} (he : State.readCs u a1 a2 = (v, x)) (hP : Fits 0x800440000000000030000000000000000000000000000000000000000000000000000e000000000000 P)
    (h : Keeps P s u) : Keeps P s v := by
  have h1 := keeps_readCs (a1 := a1) (a2 := a2) hP h
  rw [he] at h1
  exact h1

theorem keeps_refreshLead {P : Nat} {s u : State} {a1 a2} (hP : Fits 0x800440000000000030000000000000000000000000000000000000000000000000000e000000000000 P) (h : Keeps P s u) :
    Keeps P s (State.refreshLead u a1 a2) := by
  unfold State.refreshLead
  repeat' (first
    | with_reducible exact h
    | with_reducible assumption
    | dsimp -zeta only
    | with_reducible refine keeps_setCluster (hP.sub rfl) ?_
    | with_reducible refine keeps_readCs (hP.sub rfl) ?_
    | with_reducible refine keeps_readCs_eq (by assumption) (hP.sub rfl) ?_
    | intro _
    | with_reducible refine keeps_ite ?_ ?_
    | with_reducible refine keeps_ite_fst ?_ ?_
    | with_reducible refine keeps_pair (by assumption) ?_
    | split
    | fail_if_no_progress extract_lets
    | dsimp +zetaDelta only)

theorem keeps_refreshLeads {P : Nat} {s u : State} {a1 a2 a3 a4} (hP : Fits 0x800440000000000030000000000000000000000000000000000000000000000000000e000000000000 P) (h : Keeps P s u) :
    Keeps P s (State.refreshLeads u a1 a2 a3 a4) := by
  unfold State.refreshLeads
  repeat' (first
    | with_reducible exact h
    | with_reducible assumption
    | dsimp -zeta only
    | with_reducible refine keeps_refreshLead (hP.sub rfl) ?_
    | with_reducible refine keeps_foldl ?_ ?_
    | with_reducible refine keeps_foldl_fst ?_ ?_
    | intro _
    | with_reducible refine keeps_ite ?_ ?_
    | with_reducible refine keeps_ite_fst ?_ ?_
    | with_reducible refine keeps_pair (by assumption) ?_
    | split
    | fail_if_no_progress extract_lets
    | dsimp +zetaDelta only)

theorem keeps_leadWord {P : Nat} {s u : State} {a1 a2 a3} (hP : Fits 0x800440000000000030000000000000000000000000000000000000000000000000000e000000000000 P) (h : Keeps P s u) :
    Keeps P s (State.leadWord u a1 a2 a3).1 := by
  unfold State.leadWord
  repeat' (first
    | with_reducible exact h
    | with_reducible assumption
    | dsimp -zeta only
    | with_reducible refine keeps_readCs (hP.sub rfl) ?_
    | with_reducible refine keeps_readCs_eq (by assumption) (hP.sub rfl) ?_
    | intro _
    | with_reducible refine keeps_ite ?_ ?_
    | with_reducible refine keeps_ite_fst ?_ ?_
    | with_reducible refine keeps_pair (by assumption) ?_
    | split
    | fail_if_no_progress extract_lets
    | dsimp +zetaDelta only)

theorem keeps_leadWord_eq {P : Nat} {s u v : State} {a1 a2 a3} {x} (he : State.leadWord u a1 a2 a3 = (v, x)) (hP : Fits 0x800440000000000030000000000000000000000000000000000000000000000000000e000000000000 P)
    (h : Keeps P s u) : Keeps P s v := by
  have h1 := keeps_leadWord (a1 := a1) (a2 := a2) (a3 := a3) hP h
  rw [he] at h1
  exact h1

theorem keeps_checkPos {P : Nat} {s u : State} {a1 a2 a3 a4} (hP : Fits 0x8000402000000000300000000000000000000000000000000000000000000000000000000070000000 P) (h : Keeps P s u) :
    Keeps P s (State.checkPos u a1 a2 a3 a4).1 := by
  unfold State.checkPos
  repeat' (first
    | with_reducible exact h
    | with_reducible assumption
    | dsimp -zeta only
    | with_reducible refine keeps_readAlm (hP.sub rfl) ?_
    | with_reducible refine keeps_readAlm_eq (by assumption) (hP.sub rfl) ?_
    | intro _
    | with_reducible refine keeps_ite ?_ ?_
    | with_reducible refine keeps_ite_fst ?_ ?_
    | with_reducible refine keeps_pair (by assumption) ?_
    | split
    | fail_if_no_progress extract_lets
    | dsimp +zetaDelta only)

theorem keeps_checkPos_eq {P : Nat} {s u v : State} {a1 a2 a3 a4} {x} (he : State.checkPos u a1 a2 a3 a4 = (v, x)) (hP : Fits 0x8000402000000000300000000000000000000000000000000000000000000000000000000070000000 P)
    (h : Keeps P s u) : Keeps P s v := by
  have h1 := keeps_checkPos (a1 := a1) (a2 := a2) (a3 := a3) (a4 := a4) hP h
  rw [he] at h1
  exact h1

theorem keeps_checkRow {P : Nat} {s u : State} {a1 a2 a3} (hP : Fits 0x8000402000000000300000000000000000000000000000000000000000000000000000000070000000 P) (h : Keeps P s u) :
    Keeps P s (State.checkRow u a1 a2 a3).1 := by
  induction a3 generalizing u a1 a2 with
  | nil =>
    unfold State.checkRow
    repeat' (first
      | with_reducible exact h
      | with_reducible assumption
      | dsimp -zeta only
      | with_reducible refine keeps_checkPos (hP.sub rfl) ?_
      | with_reducible refine keeps_checkPos_eq (by assumption) (hP.sub rfl) ?_
      | intro _
      | with_reducible refine keeps_ite ?_ ?_
      | with_reducible refine keeps_ite_fst ?_ ?_
      | with_reducible refine keeps_pair (by assumption) ?_
      | split
      | fail_if_no_progress extract_lets
      | dsimp +zetaDelta only)
  | cons x r ih =>
    unfold State.checkRow
    repeat' (first
      | with_reducible exact h
      | with_reducible assumption
      | dsimp -zeta only
      | with_reducible apply ih
      | with_reducible refine keeps_pair (w := State.checkRow _ _ _ _) (by assumption) ?_
      | with_reducible refine keeps_checkPos (hP.sub rfl) ?_
      | with_reducible refine keeps_checkPos_eq (by assumption) (hP.sub rfl) ?_
      | intro _
      | with_reducible refine keeps_ite ?_ ?_
      | with_reducible refine keeps_ite_fst ?_ ?_
      | with_reducible refine keeps_pair (by assumption) ?_
      | split
      | fail_if_no_progress extract_lets
      | dsimp +zetaDelta only)

theorem keeps_checkRow_eq {P : Nat} {s u v : State} {a1 a2 a3} {x} (he : State.checkRow u a1 a2 a3 = (v, x)) (hP : Fits 0x8000402000000000300000000000000000000000000000000000000000000000000000000070000000 P)
    (h : Keeps P s u) : Keeps P s v := by
  have h1 := keeps_checkRow (a1 := a1) (a2 := a2) (a3 := a3) hP h
  rw [he] at h1
  exact h1

theorem keeps_issuePos {P : Nat} {s u : State} {a1 a2 a3} (hP : Fits 0x1000000000000000000000000000000000000000000000000000000000000000000020800000000 P) (h : Keeps P s u) :
    Keeps P s (State.issuePos u a1 a2 a3) := by
  unfold State.issuePos
  repeat' (first
    | with_reducible exact h
    | with_reducible assumption
    | dsimp -zeta only
    | with_reducible refine keeps_setPin (hP.sub rfl) ?_
    | with_reducible refine keeps_fput hP rfl ?_
    | with_reducible refine keeps_bump hP rfl ?_
    | intro _
    | with_reducible refine keeps_ite ?_ ?_
    | with_reducible refine keeps_ite_fst ?_ ?_
    | with_reducible refine keeps_pair (by assumption) ?_
    | split
    | fail_if_no_progress extract_lets
    | dsimp +zetaDelta only)

theorem keeps_issueVector {P : Nat} {s u : State} {a1 a2 a3 a4 a5} (hP : Fits 0x8009402000000000300000000000000000000000000000000000000000000000000000020870000000 P) (h : Keeps P s u) :
    Keeps P s (State.issueVector u a1 a2 a3 a4 a5).1 := by
  unfold State.issueVector
  repeat' (first
    | with_reducible exact h
    | with_reducible assumption
    | dsimp -zeta only
    | with_reducible refine keeps_checkRow (hP.sub rfl) ?_
    | with_reducible refine keeps_checkRow_eq (by assumption) (hP.sub rfl) ?_
    | with_reducible refine keeps_issuePos (hP.sub rfl) ?_
    | with_reducible refine keeps_setLeg (hP.sub rfl) ?_
    | with_reducible refine keeps_setSeq (hP.sub rfl) ?_
    | with_reducible refine keeps_foldl ?_ ?_
    | with_reducible refine keeps_foldl_fst ?_ ?_
    | intro _
    | with_reducible refine keeps_ite ?_ ?_
    | with_reducible refine keeps_ite_fst ?_ ?_
    | with_reducible refine keeps_pair (by assumption) ?_
    | split
    | fail_if_no_progress extract_lets
    | dsimp +zetaDelta only)

theorem keeps_issueVector_eq {P : Nat} {s u v : State} {a1 a2 a3 a4 a5} {x} (he : State.issueVector u a1 a2 a3 a4 a5 = (v, x)) (hP : Fits 0x8009402000000000300000000000000000000000000000000000000000000000000000020870000000 P)
    (h : Keeps P s u) : Keeps P s v := by
  have h1 := keeps_issueVector (a1 := a1) (a2 := a2) (a3 := a3) (a4 := a4) (a5 := a5) hP h
  rw [he] at h1
  exact h1

end Sys2Proof.Machine
end

