-- ==== Sys2Proof/Laws/KeepsLegs.lean ====
section
/-! SUPPORT. What each operation of Machine/Legs.lean may change, and that it keeps the invariant: one law for each. -/

set_option linter.unreachableTactic false
set_option linter.unusedTactic false

namespace Sys2Proof.Machine

theorem keeps_jobEvent {P : Nat} {s u : State} {a1 a2 a3 a4 a5 a6 a7} (hP : Fits 0x188000000000000000000012068000000000000000000000000000000000000000000000000000 P) (h : Keeps P s u) :
    Keeps P s (State.jobEvent u a1 a2 a3 a4 a5 a6 a7) := by
  unfold State.jobEvent
  repeat' (first
    | with_reducible exact h
    | with_reducible assumption
    | dsimp -zeta only
    | with_reducible refine keeps_report (hP.sub rfl) ?_
    | intro _
    | with_reducible refine keeps_ite ?_ ?_
    | with_reducible refine keeps_ite_fst ?_ ?_
    | with_reducible refine keeps_pair (by assumption) ?_
    | split
    | fail_if_no_progress extract_lets
    | dsimp +zetaDelta only)

theorem keeps_endEvent {P : Nat} {s u : State} {a1 a2 a3 a4} (hP : Fits 0x188000000000000000000012068000000000000000000000000000000000000000000000000000 P) (h : Keeps P s u) :
    Keeps P s (State.endEvent u a1 a2 a3 a4) := by
  unfold State.endEvent
  repeat' (first
    | with_reducible exact h
    | with_reducible assumption
    | dsimp -zeta only
    | with_reducible refine keeps_jobEvent (hP.sub rfl) ?_
    | intro _
    | with_reducible refine keeps_ite ?_ ?_
    | with_reducible refine keeps_ite_fst ?_ ?_
    | with_reducible refine keeps_pair (by assumption) ?_
    | split
    | fail_if_no_progress extract_lets
    | dsimp +zetaDelta only)

theorem keeps_logEntry {P : Nat} {s u : State} {a1 a2 a3 a4 a5 a6} (hP : Fits 0x188000000000000000000012068000000000000000000000000000000000000000000000000000 P) (h : Keeps P s u) :
    Keeps P s (State.logEntry u a1 a2 a3 a4 a5 a6) := by
  unfold State.logEntry
  repeat' (first
    | with_reducible exact h
    | with_reducible assumption
    | dsimp -zeta only
    | with_reducible refine keeps_report (hP.sub rfl) ?_
    | intro _
    | with_reducible refine keeps_ite ?_ ?_
    | with_reducible refine keeps_ite_fst ?_ ?_
    | with_reducible refine keeps_pair (by assumption) ?_
    | split
    | fail_if_no_progress extract_lets
    | dsimp +zetaDelta only)

theorem keeps_closeRun {P : Nat} {s u : State} {a1 a2} (hP : Fits 0x8188000000000000000000012068000000000000000000000000000000000000000000000000000 P) (h : Keeps P s u) :
    Keeps P s (State.closeRun u a1 a2) := by
  unfold State.closeRun
  repeat' (first
    | with_reducible exact h
    | with_reducible assumption
    | dsimp -zeta only
    | with_reducible refine keeps_logEntry (hP.sub rfl) ?_
    | with_reducible refine keeps_setLeg (hP.sub rfl) ?_
    | intro _
    | with_reducible refine keeps_ite ?_ ?_
    | with_reducible refine keeps_ite_fst ?_ ?_
    | with_reducible refine keeps_pair (by assumption) ?_
    | split
    | fail_if_no_progress extract_lets
    | dsimp +zetaDelta only)

theorem keeps_openRun {P : Nat} {s u : State} {a1 a2 a3 a4} (hP : Fits 0x818a000000000000000000012068000000000000000000000000000000000000000000000000000 P) (h : Keeps P s u) :
    Keeps P s (State.openRun u a1 a2 a3 a4) := by
  unfold State.openRun
  repeat' (first
    | with_reducible exact h
    | with_reducible assumption
    | dsimp -zeta only
    | with_reducible refine keeps_freshWide (hP.sub rfl) ?_
    | with_reducible refine keeps_freshWide_eq (by assumption) (hP.sub rfl) ?_
    | with_reducible refine keeps_logEntry (hP.sub rfl) ?_
    | with_reducible refine keeps_setLeg (hP.sub rfl) ?_
    | intro _
    | with_reducible refine keeps_ite ?_ ?_
    | with_reducible refine keeps_ite_fst ?_ ?_
    | with_reducible refine keeps_pair (by assumption) ?_
    | split
    | fail_if_no_progress extract_lets
    | dsimp +zetaDelta only)

theorem keeps_logVector {P : Nat} {s u : State} {a1 a2 a3 a4} (hP : Fits 0x818a000000000000000000012068000000000000000000000000000000000000000000000000000 P) (h : Keeps P s u) :
    Keeps P s (State.logVector u a1 a2 a3 a4) := by
  unfold State.logVector
  repeat' (first
    | with_reducible exact h
    | with_reducible assumption
    | dsimp -zeta only
    | with_reducible refine keeps_closeRun (hP.sub rfl) ?_
    | with_reducible refine keeps_openRun (hP.sub rfl) ?_
    | with_reducible refine keeps_setLeg (hP.sub rfl) ?_
    | intro _
    | with_reducible refine keeps_ite ?_ ?_
    | with_reducible refine keeps_ite_fst ?_ ?_
    | with_reducible refine keeps_pair (by assumption) ?_
    | split
    | fail_if_no_progress extract_lets
    | dsimp +zetaDelta only)

theorem keeps_dropSite {P : Nat} {s u : State} {a1 a2 a3} (hP : Fits 0x8188000000000000000000012068000000000000000000000000000000000400000000000000000 P) (h : Keeps P s u) :
    Keeps P s (State.dropSite u a1 a2 a3) := by
  unfold State.dropSite
  repeat' (first
    | with_reducible exact h
    | with_reducible assumption
    | dsimp -zeta only
    | with_reducible refine keeps_jobEvent (hP.sub rfl) ?_
    | with_reducible refine keeps_closeRun (hP.sub rfl) ?_
    | with_reducible refine keeps_setPilot (hP.sub rfl) ?_
    | with_reducible refine keeps_setLeg (hP.sub rfl) ?_
    | with_reducible refine keeps_fput hP rfl ?_
    | intro _
    | with_reducible refine keeps_ite ?_ ?_
    | with_reducible refine keeps_ite_fst ?_ ?_
    | with_reducible refine keeps_pair (by assumption) ?_
    | split
    | fail_if_no_progress extract_lets
    | dsimp +zetaDelta only)

theorem keeps_ffEntry {P : Nat} {s u : State} {a1 a2 a3} (hP : Fits 0x81e059b000000000300000000012068000000a1002140a100000000000000000000000000000000000 P) (h : Keeps P s u) :
    Keeps P s (State.ffEntry u a1 a2 a3) := by
  unfold State.ffEntry
  repeat' (first
    | with_reducible exact h
    | with_reducible assumption
    | dsimp -zeta only
    | with_reducible refine keeps_raiseFault (hP.sub rfl) ?_
    | with_reducible refine keeps_raiseFault_eq (by assumption) (hP.sub rfl) ?_
    | with_reducible refine keeps_dvaWrite (hP.sub rfl) ?_
    | with_reducible refine keeps_dvaWrite_eq (by assumption) (hP.sub rfl) ?_
    | intro _
    | with_reducible refine keeps_ite ?_ ?_
    | with_reducible refine keeps_ite_fst ?_ ?_
    | with_reducible refine keeps_pair (by assumption) ?_
    | split
    | fail_if_no_progress extract_lets
    | dsimp +zetaDelta only)

theorem keeps_ffArm {P : Nat} {s u : State} {a1} (hP : Fits 0x81e859b000000000300000000012068000000a1002140a100000000000000000000100000000000000 P) (h : Keeps P s u) :
    Keeps P s (State.ffArm u a1) := by
  unfold State.ffArm
  repeat' (first
    | with_reducible exact h
    | with_reducible assumption
    | dsimp -zeta only
    | with_reducible refine keeps_setPilot (hP.sub rfl) ?_
    | with_reducible refine keeps_ffEntry (hP.sub rfl) ?_
    | with_reducible refine keeps_fput hP rfl ?_
    | with_reducible refine keeps_foldl ?_ ?_
    | with_reducible refine keeps_foldl_fst ?_ ?_
    | intro _
    | with_reducible refine keeps_ite ?_ ?_
    | with_reducible refine keeps_ite_fst ?_ ?_
    | with_reducible refine keeps_pair (by assumption) ?_
    | split
    | fail_if_no_progress extract_lets
    | dsimp +zetaDelta only)

theorem keeps_ffRearm {P : Nat} {s u : State} {a1} (hP : Fits 0x81e859b000000000300000000012068000000a1002140a100000000000000000000100000000000000 P) (h : Keeps P s u) :
    Keeps P s (State.ffRearm u a1) := by
  unfold State.ffRearm
  repeat' (first
    | with_reducible exact h
    | with_reducible assumption
    | dsimp -zeta only
    | with_reducible refine keeps_setLeg (hP.sub rfl) ?_
    | with_reducible refine keeps_ffArm (hP.sub rfl) ?_
    | intro _
    | with_reducible refine keeps_ite ?_ ?_
    | with_reducible refine keeps_ite_fst ?_ ?_
    | with_reducible refine keeps_pair (by assumption) ?_
    | split
    | fail_if_no_progress extract_lets
    | dsimp +zetaDelta only)

theorem keeps_ffDue {P : Nat} {s u : State} {a1 a2} (hP : Fits 0x81e859b000000000300000000012068000000a1002140a100000000000000000000100000000000000 P) (h : Keeps P s u) :
    Keeps P s (State.ffDue u a1 a2) := by
  unfold State.ffDue
  repeat' (first
    | with_reducible exact h
    | with_reducible assumption
    | dsimp -zeta only
    | with_reducible refine keeps_setLeg (hP.sub rfl) ?_
    | with_reducible refine keeps_ffArm (hP.sub rfl) ?_
    | intro _
    | with_reducible refine keeps_ite ?_ ?_
    | with_reducible refine keeps_ite_fst ?_ ?_
    | with_reducible refine keeps_pair (by assumption) ?_
    | split
    | fail_if_no_progress extract_lets
    | dsimp +zetaDelta only)

theorem keeps_ffVector {P : Nat} {s u : State} {a1 a2 a3} (hP : Fits 0x81e859b000000000300000000012068000000a1002140a100000000000000000000f00000000000000 P) (h : Keeps P s u) :
    Keeps P s (State.ffVector u a1 a2 a3) := by
  unfold State.ffVector
  repeat' (first
    | with_reducible exact h
    | with_reducible assumption
    | dsimp -zeta only
    | with_reducible refine keeps_setPilot (hP.sub rfl) ?_
    | with_reducible refine keeps_ffEntry (hP.sub rfl) ?_
    | with_reducible refine keeps_fput hP rfl ?_
    | with_reducible refine keeps_foldl ?_ ?_
    | with_reducible refine keeps_foldl_fst ?_ ?_
    | intro _
    | with_reducible refine keeps_ite ?_ ?_
    | with_reducible refine keeps_ite_fst ?_ ?_
    | with_reducible refine keeps_pair (by assumption) ?_
    | split
    | fail_if_no_progress extract_lets
    | dsimp +zetaDelta only)

theorem keeps_capFlag {P : Nat} {s u : State} {a1 a2} (hP : Fits 0x8000000000000000000000000000000000000000000000000000000000000040000000000000000 P) (h : Keeps P s u) :
    Keeps P s (State.capFlag u a1 a2) := by
  unfold State.capFlag
  repeat' (first
    | with_reducible exact h
    | with_reducible assumption
    | dsimp -zeta only
    | with_reducible refine keeps_setStr (hP.sub rfl) ?_
    | with_reducible refine keeps_wr hP rfl ?_
    | intro _
    | with_reducible refine keeps_ite ?_ ?_
    | with_reducible refine keeps_ite_fst ?_ ?_
    | with_reducible refine keeps_pair (by assumption) ?_
    | split
    | fail_if_no_progress extract_lets
    | dsimp +zetaDelta only)

theorem keeps_fifoLost {P : Nat} {s u : State} {a1 a2} (hP : Fits 0x8000000000000000000000000000000000000000000000000000000000000040000000000000000 P) (h : Keeps P s u) :
    Keeps P s (State.fifoLost u a1 a2) := by
  unfold State.fifoLost
  repeat' (first
    | with_reducible exact h
    | with_reducible assumption
    | dsimp -zeta only
    | with_reducible refine keeps_capFlag (hP.sub rfl) ?_
    | with_reducible refine keeps_setStr (hP.sub rfl) ?_
    | intro _
    | with_reducible refine keeps_ite ?_ ?_
    | with_reducible refine keeps_ite_fst ?_ ?_
    | with_reducible refine keeps_pair (by assumption) ?_
    | split
    | fail_if_no_progress extract_lets
    | dsimp +zetaDelta only)

theorem keeps_queueBlock {P : Nat} {s u : State} {a1 a2 a3 a4} (hP : Fits 0x9000000000000000000000000000000000000000000000000000000000000040000000000000000 P) (h : Keeps P s u) :
    Keeps P s (State.queueBlock u a1 a2 a3 a4) := by
  unfold State.queueBlock
  repeat' (first
    | with_reducible exact h
    | with_reducible assumption
    | dsimp -zeta only
    | with_reducible refine keeps_capFlag (hP.sub rfl) ?_
    | with_reducible refine keeps_setPin (hP.sub rfl) ?_
    | with_reducible refine keeps_setStr (hP.sub rfl) ?_
    | intro _
    | with_reducible refine keeps_ite ?_ ?_
    | with_reducible refine keeps_ite_fst ?_ ?_
    | with_reducible refine keeps_pair (by assumption) ?_
    | split
    | fail_if_no_progress extract_lets
    | dsimp +zetaDelta only)

theorem keeps_queueGroup {P : Nat} {s u : State} {a1 a2} (hP : Fits 0x9000000000000000000000000000000000000000000000000000000000000040000000000000000 P) (h : Keeps P s u) :
    Keeps P s (State.queueGroup u a1 a2) := by
  unfold State.queueGroup
  repeat' (first
    | with_reducible exact h
    | with_reducible assumption
    | dsimp -zeta only
    | with_reducible refine keeps_queueBlock (hP.sub rfl) ?_
    | with_reducible refine keeps_foldl ?_ ?_
    | with_reducible refine keeps_foldl_fst ?_ ?_
    | intro _
    | with_reducible refine keeps_ite ?_ ?_
    | with_reducible refine keeps_ite_fst ?_ ?_
    | with_reducible refine keeps_pair (by assumption) ?_
    | split
    | fail_if_no_progress extract_lets
    | dsimp +zetaDelta only)

theorem keeps_captureCode {P : Nat} {s u : State} {a1 a2 a3 a4} (hP : Fits 0x9000000000000000000000000000000000000000000000000000000000000040000000000000000 P) (h : Keeps P s u) :
    Keeps P s (State.captureCode u a1 a2 a3 a4) := by
  unfold State.captureCode
  repeat' (first
    | with_reducible exact h
    | with_reducible assumption
    | dsimp -zeta only
    | with_reducible refine keeps_fifoLost (hP.sub rfl) ?_
    | with_reducible refine keeps_setPin (hP.sub rfl) ?_
    | intro _
    | with_reducible refine keeps_ite ?_ ?_
    | with_reducible refine keeps_ite_fst ?_ ?_
    | with_reducible refine keeps_pair (by assumption) ?_
    | split
    | fail_if_no_progress extract_lets
    | dsimp +zetaDelta only)

theorem keeps_captureVector {P : Nat} {s u : State} {a1 a2} (hP : Fits 0x9000000000000000000000000000000000000000000000000000000000000040000000000000000 P) (h : Keeps P s u) :
    Keeps P s (State.captureVector u a1 a2) := by
  unfold State.captureVector
  repeat' (first
    | with_reducible exact h
    | with_reducible assumption
    | dsimp -zeta only
    | with_reducible refine keeps_captureCode (hP.sub rfl) ?_
    | with_reducible refine keeps_queueGroup (hP.sub rfl) ?_
    | with_reducible refine keeps_foldl ?_ ?_
    | with_reducible refine keeps_foldl_fst ?_ ?_
    | intro _
    | with_reducible refine keeps_ite ?_ ?_
    | with_reducible refine keeps_ite_fst ?_ ?_
    | with_reducible refine keeps_pair (by assumption) ?_
    | split
    | fail_if_no_progress extract_lets
    | dsimp +zetaDelta only)

theorem keeps_stageCt {P : Nat} {s u : State} {a1 a2 a3 a4} (hP : Fits 0x8000000000000000000000000000000000000000000000000000000000000040000000000000000 P) (h : Keeps P s u) :
    Keeps P s (State.stageCt u a1 a2 a3 a4) := by
  unfold State.stageCt
  repeat' (first
    | with_reducible exact h
    | with_reducible assumption
    | dsimp -zeta only
    | with_reducible refine keeps_fifoLost (hP.sub rfl) ?_
    | with_reducible refine keeps_setStr (hP.sub rfl) ?_
    | intro _
    | with_reducible refine keeps_ite ?_ ?_
    | with_reducible refine keeps_ite_fst ?_ ?_
    | with_reducible refine keeps_pair (by assumption) ?_
    | split
    | fail_if_no_progress extract_lets
    | dsimp +zetaDelta only)

theorem keeps_ctVector {P : Nat} {s u : State} {a1 a2} (hP : Fits 0x8000000000000000000000000000000000000000000000000000000000000040000000000000000 P) (h : Keeps P s u) :
    Keeps P s (State.ctVector u a1 a2) := by
  unfold State.ctVector
  repeat' (first
    | with_reducible exact h
    | with_reducible assumption
    | dsimp -zeta only
    | with_reducible refine keeps_stageCt (hP.sub rfl) ?_
    | with_reducible refine keeps_capFlag (hP.sub rfl) ?_
    | with_reducible refine keeps_setStr (hP.sub rfl) ?_
    | with_reducible refine keeps_bump hP rfl ?_
    | with_reducible refine keeps_foldl ?_ ?_
    | with_reducible refine keeps_foldl_fst ?_ ?_
    | intro _
    | with_reducible refine keeps_ite ?_ ?_
    | with_reducible refine keeps_ite_fst ?_ ?_
    | with_reducible refine keeps_pair (by assumption) ?_
    | split
    | fail_if_no_progress extract_lets
    | dsimp +zetaDelta only)

theorem keeps_countVector {P : Nat} {s u : State} {a1 a2} (hP : Fits 0xa1e959b000000000300000001012068000000a1002140a1000000000000000004c0f00000000000000 P) (h : Keeps P s u) :
    Keeps P s (State.countVector u a1 a2) := by
  unfold State.countVector
  repeat' (first
    | with_reducible exact h
    | with_reducible assumption
    | dsimp -zeta only
    | with_reducible refine keeps_captureVector (hP.sub rfl) ?_
    | with_reducible refine keeps_logVector (hP.sub rfl) ?_
    | with_reducible refine keeps_ctVector (hP.sub rfl) ?_
    | with_reducible refine keeps_ffVector (hP.sub rfl) ?_
    | with_reducible refine keeps_dropSite (hP.sub rfl) ?_
    | with_reducible refine keeps_aggSite (hP.sub rfl) ?_
    | with_reducible refine keeps_setLeg (hP.sub rfl) ?_
    | with_reducible refine keeps_ffDue (hP.sub rfl) ?_
    | with_reducible refine keeps_bump hP rfl ?_
    | with_reducible refine keeps_foldl ?_ ?_
    | with_reducible refine keeps_foldl_fst ?_ ?_
    | intro _
    | with_reducible refine keeps_ite ?_ ?_
    | with_reducible refine keeps_ite_fst ?_ ?_
    | with_reducible refine keeps_pair (by assumption) ?_
    | split
    | fail_if_no_progress extract_lets
    | dsimp +zetaDelta only)

theorem keeps_passCut {P : Nat} {s u : State} {a1 a2} (hP : Fits 0x8000000000000000000000000000000000000000000000000000000000000000000000000000000 P) (h : Keeps P s u) :
    Keeps P s (State.passCut u a1 a2) := by
  unfold State.passCut
  repeat' (first
    | with_reducible exact h
    | with_reducible assumption
    | dsimp -zeta only
    | with_reducible refine keeps_setLeg (hP.sub rfl) ?_
    | intro _
    | with_reducible refine keeps_ite ?_ ?_
    | with_reducible refine keeps_ite_fst ?_ ?_
    | with_reducible refine keeps_pair (by assumption) ?_
    | split
    | fail_if_no_progress extract_lets
    | dsimp +zetaDelta only)

theorem keeps_settleResults {P : Nat} {s u : State} {a1 a2} (hP : Fits 0xa1e959b000000000300000001012068000000a1002140a1000000000000000004c0f00000000000000 P) (h : Keeps P s u) :
    Keeps P s (State.settleResults u a1 a2) := by
  induction a2 generalizing u a1 with
  | zero =>
    unfold State.settleResults
    repeat' (first
      | with_reducible exact h
      | with_reducible assumption
      | dsimp -zeta only
      | with_reducible refine keeps_countVector (hP.sub rfl) ?_
      | with_reducible refine keeps_passCut (hP.sub rfl) ?_
      | with_reducible refine keeps_setLeg (hP.sub rfl) ?_
      | intro _
      | with_reducible refine keeps_ite ?_ ?_
      | with_reducible refine keeps_ite_fst ?_ ?_
      | with_reducible refine keeps_pair (by assumption) ?_
      | split
      | fail_if_no_progress extract_lets
      | dsimp +zetaDelta only)
  | succ n ih =>
    unfold State.settleResults
    repeat' (first
      | with_reducible exact h
      | with_reducible assumption
      | dsimp -zeta only
      | with_reducible apply ih
      | with_reducible refine keeps_countVector (hP.sub rfl) ?_
      | with_reducible refine keeps_passCut (hP.sub rfl) ?_
      | with_reducible refine keeps_setLeg (hP.sub rfl) ?_
      | intro _
      | with_reducible refine keeps_ite ?_ ?_
      | with_reducible refine keeps_ite_fst ?_ ?_
      | with_reducible refine keeps_pair (by assumption) ?_
      | split
      | fail_if_no_progress extract_lets
      | dsimp +zetaDelta only)

theorem keeps_settle {P : Nat} {s u : State} {a1} (hP : Fits 0xa1e959b000000000300000001012068000000a1002140a1000000000000000004c0f00000000000000 P) (h : Keeps P s u) :
    Keeps P s (State.settle u a1) := by
  unfold State.settle
  repeat' (first
    | with_reducible exact h
    | with_reducible assumption
    | dsimp -zeta only
    | with_reducible refine keeps_settleResults (hP.sub rfl) ?_
    | intro _
    | with_reducible refine keeps_ite ?_ ?_
    | with_reducible refine keeps_ite_fst ?_ ?_
    | with_reducible refine keeps_pair (by assumption) ?_
    | split
    | fail_if_no_progress extract_lets
    | dsimp +zetaDelta only)

theorem keeps_setFloor {P : Nat} {s u : State} {a1} (hP : Fits 0x4000000000000000 P) (h : Keeps P s u) :
    Keeps P s (State.setFloor u a1) := by
  unfold State.setFloor
  repeat' (first
    | with_reducible exact h
    | with_reducible assumption
    | dsimp -zeta only
    | with_reducible refine keeps_fput hP rfl ?_
    | intro _
    | with_reducible refine keeps_ite ?_ ?_
    | with_reducible refine keeps_ite_fst ?_ ?_
    | with_reducible refine keeps_pair (by assumption) ?_
    | split
    | fail_if_no_progress extract_lets
    | dsimp +zetaDelta only)

theorem keeps_release {P : Nat} {s u : State} {a1} (hP : Fits 0x8188000000000000000000012068000000000000000000000000000000000004000000000000000 P) (h : Keeps P s u) :
    Keeps P s (State.release u a1) := by
  unfold State.release
  repeat' (first
    | with_reducible exact h
    | with_reducible assumption
    | dsimp -zeta only
    | with_reducible refine keeps_setFloor (hP.sub rfl) ?_
    | with_reducible refine keeps_report (hP.sub rfl) ?_
    | with_reducible refine keeps_setStr (hP.sub rfl) ?_
    | intro _
    | with_reducible refine keeps_ite ?_ ?_
    | with_reducible refine keeps_ite_fst ?_ ?_
    | with_reducible refine keeps_pair (by assumption) ?_
    | split
    | fail_if_no_progress extract_lets
    | dsimp +zetaDelta only)

theorem keeps_releaseIfDue {P : Nat} {s u : State} {a1} (hP : Fits 0x8188000000000000000000012068000000000000000000000000000000000004000000000000000 P) (h : Keeps P s u) :
    Keeps P s (State.releaseIfDue u a1) := by
  unfold State.releaseIfDue
  repeat' (first
    | with_reducible exact h
    | with_reducible assumption
    | dsimp -zeta only
    | with_reducible refine keeps_setFloor (hP.sub rfl) ?_
    | with_reducible refine keeps_release (hP.sub rfl) ?_
    | intro _
    | with_reducible refine keeps_ite ?_ ?_
    | with_reducible refine keeps_ite_fst ?_ ?_
    | with_reducible refine keeps_pair (by assumption) ?_
    | split
    | fail_if_no_progress extract_lets
    | dsimp +zetaDelta only)

theorem keeps_dueMarker {P : Nat} {s u : State} {a1 a2} (hP : Fits 0x8000000000000000000000000000000000000000000000000000000000000000000000000000000 P) (h : Keeps P s u) :
    Keeps P s (State.dueMarker u a1 a2) := by
  unfold State.dueMarker
  repeat' (first
    | with_reducible exact h
    | with_reducible assumption
    | dsimp -zeta only
    | with_reducible refine keeps_setStr (hP.sub rfl) ?_
    | intro _
    | with_reducible refine keeps_ite ?_ ?_
    | with_reducible refine keeps_ite_fst ?_ ?_
    | with_reducible refine keeps_pair (by assumption) ?_
    | split
    | fail_if_no_progress extract_lets
    | dsimp +zetaDelta only)

theorem keeps_flushCapture {P : Nat} {s u : State} {a1} (hP : Fits 0x9000000000000000000000000000000000000000000000000000000000000040000000000000000 P) (h : Keeps P s u) :
    Keeps P s (State.flushCapture u a1) := by
  unfold State.flushCapture
  repeat' (first
    | with_reducible exact h
    | with_reducible assumption
    | dsimp -zeta only
    | with_reducible refine keeps_queueGroup (hP.sub rfl) ?_
    | with_reducible refine keeps_setStr (hP.sub rfl) ?_
    | intro _
    | with_reducible refine keeps_ite ?_ ?_
    | with_reducible refine keeps_ite_fst ?_ ?_
    | with_reducible refine keeps_pair (by assumption) ?_
    | split
    | fail_if_no_progress extract_lets
    | dsimp +zetaDelta only)

theorem keeps_closeLeg {P : Nat} {s u : State} {a1 a2 a3} (hP : Fits 0x8002000000000000000000000000000000000000000000000000000000000000000005800000000 P) (h : Keeps P s u) :
    Keeps P s (State.closeLeg u a1 a2 a3) := by
  unfold State.closeLeg
  repeat' (first
    | with_reducible exact h
    | with_reducible assumption
    | dsimp -zeta only
    | with_reducible refine keeps_setPilot (hP.sub rfl) ?_
    | with_reducible refine keeps_fresh (hP.sub rfl) ?_
    | with_reducible refine keeps_fresh_eq (by assumption) (hP.sub rfl) ?_
    | with_reducible refine keeps_fput hP rfl ?_
    | intro _
    | with_reducible refine keeps_ite ?_ ?_
    | with_reducible refine keeps_ite_fst ?_ ?_
    | with_reducible refine keeps_pair (by assumption) ?_
    | split
    | fail_if_no_progress extract_lets
    | dsimp +zetaDelta only)

theorem keeps_flushPosts {P : Nat} {s u : State} {a1 a2 a3} (hP : Fits 0x8188000000000000000000012068000000000000000000000000000000000000000000000000000 P) (h : Keeps P s u) :
    Keeps P s (State.flushPosts u a1 a2 a3) := by
  unfold State.flushPosts
  repeat' (first
    | with_reducible exact h
    | with_reducible assumption
    | dsimp -zeta only
    | with_reducible refine keeps_report (hP.sub rfl) ?_
    | with_reducible refine keeps_setLeg (hP.sub rfl) ?_
    | with_reducible refine keeps_foldl ?_ ?_
    | with_reducible refine keeps_foldl_fst ?_ ?_
    | intro _
    | with_reducible refine keeps_ite ?_ ?_
    | with_reducible refine keeps_ite_fst ?_ ?_
    | with_reducible refine keeps_pair (by assumption) ?_
    | split
    | fail_if_no_progress extract_lets
    | dsimp +zetaDelta only)

theorem keeps_finishLeg {P : Nat} {s u : State} {a1} (hP : Fits 0x81e959b000000000300000000012068000000a1002140a100000000000000000044100800000000000 P) (h : Keeps P s u) :
    Keeps P s (State.finishLeg u a1) := by
  unfold State.finishLeg
  repeat' (first
    | with_reducible exact h
    | with_reducible assumption
    | dsimp -zeta only
    | with_reducible refine keeps_flushCapture (hP.sub rfl) ?_
    | with_reducible refine keeps_dueMarker (hP.sub rfl) ?_
    | with_reducible refine keeps_closeRun (hP.sub rfl) ?_
    | with_reducible refine keeps_setPilot (hP.sub rfl) ?_
    | with_reducible refine keeps_endEvent (hP.sub rfl) ?_
    | with_reducible refine keeps_release (hP.sub rfl) ?_
    | with_reducible refine keeps_ffDue (hP.sub rfl) ?_
    | with_reducible refine keeps_fput hP rfl ?_
    | with_reducible refine keeps_bump hP rfl ?_
    | with_reducible refine keeps_foldl ?_ ?_
    | with_reducible refine keeps_foldl_fst ?_ ?_
    | intro _
    | with_reducible refine keeps_ite ?_ ?_
    | with_reducible refine keeps_ite_fst ?_ ?_
    | with_reducible refine keeps_pair (by assumption) ?_
    | split
    | fail_if_no_progress extract_lets
    | dsimp +zetaDelta only)

theorem keeps_saveFrame {P : Nat} {s u : State} {a1 a2 a3} (hP : Fits 0x1000000000000 P) (h : Keeps P s u) :
    Keeps P s (State.saveFrame u a1 a2 a3) := by
  unfold State.saveFrame
  repeat' (first
    | with_reducible exact h
    | with_reducible assumption
    | dsimp -zeta only
    | with_reducible refine keeps_wr hP rfl ?_
    | with_reducible refine keeps_foldl ?_ ?_
    | with_reducible refine keeps_foldl_fst ?_ ?_
    | intro _
    | with_reducible refine keeps_ite ?_ ?_
    | with_reducible refine keeps_ite_fst ?_ ?_
    | with_reducible refine keeps_pair (by assumption) ?_
    | split
    | fail_if_no_progress extract_lets
    | dsimp +zetaDelta only)

theorem keeps_trapService {P : Nat} {s u : State} {a1 a2 a3 a4 a5 a6 a7} (hP : Fits 0x8588000000000000000000012068000000000000000000000000000000000000001400000000000 P) (h : Keeps P s u) :
    Keeps P s (State.trapService u a1 a2 a3 a4 a5 a6 a7) := by
  unfold State.trapService
  repeat' (first
    | with_reducible exact h
    | with_reducible assumption
    | dsimp -zeta only
    | with_reducible refine keeps_saveFrame (hP.sub rfl) ?_
    | with_reducible refine keeps_setPilot (hP.sub rfl) ?_
    | with_reducible refine keeps_countFix (hP.sub rfl) ?_
    | with_reducible refine keeps_report (hP.sub rfl) ?_
    | with_reducible refine keeps_fput hP rfl ?_
    | with_reducible refine keeps_bump hP rfl ?_
    | intro _
    | with_reducible refine keeps_ite ?_ ?_
    | with_reducible refine keeps_ite_fst ?_ ?_
    | with_reducible refine keeps_pair (by assumption) ?_
    | split
    | fail_if_no_progress extract_lets
    | dsimp +zetaDelta only)

theorem keeps_loadRoute {P : Nat} {s u : State} {a1 a2} (hP : Fits 0x81e859b000000000300000000012068000000a1002140a100000000000000000000000000000000000 P) (h : Keeps P s u) :
    Keeps P s (State.loadRoute u a1 a2).1 := by
  unfold State.loadRoute
  repeat' (first
    | with_reducible exact h
    | with_reducible assumption
    | dsimp -zeta only
    | with_reducible refine keeps_setPilot (hP.sub rfl) ?_
    | with_reducible refine keeps_dvaRead (hP.sub rfl) ?_
    | with_reducible refine keeps_dvaRead_eq (by assumption) (hP.sub rfl) ?_
    | intro _
    | with_reducible refine keeps_ite ?_ ?_
    | with_reducible refine keeps_ite_fst ?_ ?_
    | with_reducible refine keeps_pair (by assumption) ?_
    | split
    | fail_if_no_progress extract_lets
    | dsimp +zetaDelta only)

theorem keeps_loadRoute_eq {P : Nat} {s u v : State} {a1 a2} {x} (he : State.loadRoute u a1 a2 = (v, x)) (hP : Fits 0x81e859b000000000300000000012068000000a1002140a100000000000000000000000000000000000 P)
    (h : Keeps P s u) : Keeps P s v := by
  have h1 := keeps_loadRoute (a1 := a1) (a2 := a2) hP h
  rw [he] at h1
  exact h1

theorem keeps_dropFrame {P : Nat} {s u : State} {a1 a2} (hP : Fits 0x1400000000000 P) (h : Keeps P s u) :
    Keeps P s (State.dropFrame u a1 a2) := by
  unfold State.dropFrame
  repeat' (first
    | with_reducible exact h
    | with_reducible assumption
    | dsimp -zeta only
    | with_reducible refine keeps_fput hP rfl ?_
    | with_reducible refine keeps_fputj hP rfl ?_
    | intro _
    | with_reducible refine keeps_ite ?_ ?_
    | with_reducible refine keeps_ite_fst ?_ ?_
    | with_reducible refine keeps_pair (by assumption) ?_
    | split
    | fail_if_no_progress extract_lets
    | dsimp +zetaDelta only)

theorem keeps_dropFrames {P : Nat} {s u : State} {a1} (hP : Fits 0x1400000000000 P) (h : Keeps P s u) :
    Keeps P s (State.dropFrames u a1) := by
  unfold State.dropFrames
  repeat' (first
    | with_reducible exact h
    | with_reducible assumption
    | dsimp -zeta only
    | with_reducible refine keeps_dropFrame (hP.sub rfl) ?_
    | intro _
    | with_reducible refine keeps_ite ?_ ?_
    | with_reducible refine keeps_ite_fst ?_ ?_
    | with_reducible refine keeps_pair (by assumption) ?_
    | split
    | fail_if_no_progress extract_lets
    | dsimp +zetaDelta only)

theorem keeps_dropLegStarts {P : Nat} {s u : State} {a1 a2} (hP : Fits 0x2400fca000000000000000000012068002000000000000000000000000000000000000000000000000 P) (h : Keeps P s u) :
    Keeps P s (State.dropLegStarts u a1 a2) := by
  unfold State.dropLegStarts
  repeat' (first
    | with_reducible exact h
    | with_reducible assumption
    | dsimp -zeta only
    | with_reducible refine keeps_msDropAll (hP.sub rfl) ?_
    | intro _
    | with_reducible refine keeps_ite ?_ ?_
    | with_reducible refine keeps_ite_fst ?_ ?_
    | with_reducible refine keeps_pair (by assumption) ?_
    | split
    | fail_if_no_progress extract_lets
    | dsimp +zetaDelta only)

theorem keeps_closeJob {P : Nat} {s u : State} {a1 a2} (hP : Fits 0x2410fca000000000000000000012068002000000000000000000000000000000000000000000000000 P) (h : Keeps P s u) :
    Keeps P s (State.closeJob u a1 a2) := by
  unfold State.closeJob
  repeat' (first
    | with_reducible exact h
    | with_reducible assumption
    | dsimp -zeta only
    | with_reducible refine keeps_dropLegStarts (hP.sub rfl) ?_
    | with_reducible refine keeps_jobEvent (hP.sub rfl) ?_
    | with_reducible refine keeps_endEvent (hP.sub rfl) ?_
    | with_reducible refine keeps_setJob (hP.sub rfl) ?_
    | intro _
    | with_reducible refine keeps_ite ?_ ?_
    | with_reducible refine keeps_ite_fst ?_ ?_
    | with_reducible refine keeps_pair (by assumption) ?_
    | split
    | fail_if_no_progress extract_lets
    | dsimp +zetaDelta only)

theorem keeps_freePilot {P : Nat} {s u : State} {a1} (hP : Fits 0x88000000000000000000000000000000000000000000000000000000000000000000000000000000 P) (h : Keeps P s u) :
    Keeps P s (State.freePilot u a1) := by
  unfold State.freePilot
  repeat' (first
    | with_reducible exact h
    | with_reducible assumption
    | dsimp -zeta only
    | with_reducible refine keeps_clearPilotFaults (hP.sub rfl) ?_
    | with_reducible refine keeps_setPilot (hP.sub rfl) ?_
    | intro _
    | with_reducible refine keeps_ite ?_ ?_
    | with_reducible refine keeps_ite_fst ?_ ?_
    | with_reducible refine keeps_pair (by assumption) ?_
    | split
    | fail_if_no_progress extract_lets
    | dsimp +zetaDelta only)

theorem keeps_takeRoute {P : Nat} {s u : State} {a1} (hP : Fits 0xa5f8fdb000000000300000000012068002000a1002140a100000000000000000000001400000000000 P) (h : Keeps P s u) :
    Keeps P s (State.takeRoute u a1) := by
  unfold State.takeRoute
  repeat' (first
    | with_reducible exact h
    | with_reducible assumption
    | dsimp -zeta only
    | with_reducible refine keeps_trapService (hP.sub rfl) ?_
    | with_reducible refine keeps_raiseFault (hP.sub rfl) ?_
    | with_reducible refine keeps_raiseFault_eq (by assumption) (hP.sub rfl) ?_
    | with_reducible refine keeps_loadRoute (hP.sub rfl) ?_
    | with_reducible refine keeps_loadRoute_eq (by assumption) (hP.sub rfl) ?_
    | with_reducible refine keeps_freePilot (hP.sub rfl) ?_
    | with_reducible refine keeps_setPilot (hP.sub rfl) ?_
    | with_reducible refine keeps_closeJob (hP.sub rfl) ?_
    | intro _
    | with_reducible refine keeps_ite ?_ ?_
    | with_reducible refine keeps_ite_fst ?_ ?_
    | with_reducible refine keeps_pair (by assumption) ?_
    | split
    | fail_if_no_progress extract_lets
    | dsimp +zetaDelta only)

theorem keeps_giveJob {P : Nat} {s u : State} {a1 a2} (hP : Fits 0xa5f8fdb000000000300000000012068002000a1002140a1000000000000000006cf101410000000000 P) (h : Keeps P s u) :
    Keeps P s (State.giveJob u a1 a2) := by
  unfold State.giveJob
  repeat' (first
    | with_reducible exact h
    | with_reducible assumption
    | dsimp -zeta only
    | with_reducible refine keeps_dropFrames (hP.sub rfl) ?_
    | with_reducible refine keeps_takeRoute (hP.sub rfl) ?_
    | with_reducible refine keeps_setPilot (hP.sub rfl) ?_
    | with_reducible refine keeps_setJob (hP.sub rfl) ?_
    | with_reducible refine keeps_ffArm (hP.sub rfl) ?_
    | with_reducible refine keeps_wr hP rfl ?_
    | with_reducible refine keeps_fput hP rfl ?_
    | with_reducible refine keeps_rstAll hP rfl ?_
    | with_reducible refine keeps_foldl ?_ ?_
    | with_reducible refine keeps_foldl_fst ?_ ?_
    | intro _
    | with_reducible refine keeps_ite ?_ ?_
    | with_reducible refine keeps_ite_fst ?_ ?_
    | with_reducible refine keeps_pair (by assumption) ?_
    | split
    | fail_if_no_progress extract_lets
    | dsimp +zetaDelta only)

theorem keeps_endJob {P : Nat} {s u : State} {a1 a2} (hP : Fits 0xa5f8fdb000000000300000000012068002000a1002140a1000000000000000006cf101410000000000 P) (h : Keeps P s u) :
    Keeps P s (State.endJob u a1 a2) := by
  unfold State.endJob
  repeat' (first
    | with_reducible exact h
    | with_reducible assumption
    | dsimp -zeta only
    | with_reducible refine keeps_freePilot (hP.sub rfl) ?_
    | with_reducible refine keeps_closeJob (hP.sub rfl) ?_
    | with_reducible refine keeps_setPilot (hP.sub rfl) ?_
    | with_reducible refine keeps_giveJob (hP.sub rfl) ?_
    | intro _
    | with_reducible refine keeps_ite ?_ ?_
    | with_reducible refine keeps_ite_fst ?_ ?_
    | with_reducible refine keeps_pair (by assumption) ?_
    | split
    | fail_if_no_progress extract_lets
    | dsimp +zetaDelta only)

theorem keeps_killLeg {P : Nat} {s u : State} {a1 a2 a3 a4} (hP : Fits 0xa5f9fdb000000000300000001012068002000a1002140a1000000000000000006cff01c15801000000 P) (h : Keeps P s u) :
    Keeps P s (State.killLeg u a1 a2 a3 a4) := by
  unfold State.killLeg
  repeat' (first
    | with_reducible exact h
    | with_reducible assumption
    | dsimp -zeta only
    | with_reducible refine keeps_faultPark (hP.sub rfl) ?_
    | with_reducible refine keeps_finishLeg (hP.sub rfl) ?_
    | with_reducible refine keeps_setPilot (hP.sub rfl) ?_
    | with_reducible refine keeps_closeLeg (hP.sub rfl) ?_
    | with_reducible refine keeps_endJob (hP.sub rfl) ?_
    | with_reducible refine keeps_setPin (hP.sub rfl) ?_
    | with_reducible refine keeps_settle (hP.sub rfl) ?_
    | with_reducible refine keeps_fput hP rfl ?_
    | with_reducible refine keeps_foldl ?_ ?_
    | with_reducible refine keeps_foldl_fst ?_ ?_
    | intro _
    | with_reducible refine keeps_ite ?_ ?_
    | with_reducible refine keeps_ite_fst ?_ ?_
    | with_reducible refine keeps_pair (by assumption) ?_
    | split
    | fail_if_no_progress extract_lets
    | dsimp +zetaDelta only)

theorem keeps_killStart {P : Nat} {s u : State} {a1 a2} (hP : Fits 0xa5f9fdb000000000300000000012068002000a1002140a1000000000000000006cf101c1d801000000 P) (h : Keeps P s u) :
    Keeps P s (State.killStart u a1 a2) := by
  unfold State.killStart
  repeat' (first
    | with_reducible exact h
    | with_reducible assumption
    | dsimp -zeta only
    | with_reducible refine keeps_finishLeg (hP.sub rfl) ?_
    | with_reducible refine keeps_setPilot (hP.sub rfl) ?_
    | with_reducible refine keeps_parkPins (hP.sub rfl) ?_
    | with_reducible refine keeps_closeLeg (hP.sub rfl) ?_
    | with_reducible refine keeps_endJob (hP.sub rfl) ?_
    | with_reducible refine keeps_setLeg (hP.sub rfl) ?_
    | with_reducible refine keeps_fresh (hP.sub rfl) ?_
    | with_reducible refine keeps_fresh_eq (by assumption) (hP.sub rfl) ?_
    | with_reducible refine keeps_fput hP rfl ?_
    | intro _
    | with_reducible refine keeps_ite ?_ ?_
    | with_reducible refine keeps_ite_fst ?_ ?_
    | with_reducible refine keeps_pair (by assumption) ?_
    | split
    | fail_if_no_progress extract_lets
    | dsimp +zetaDelta only)

theorem keeps_killOnMer {P : Nat} {s u : State} {a1 a2} (hP : Fits 0xa5f9fdb000000000300000001012068002000a1002140a1000000000000000006cff01c15801000000 P) (h : Keeps P s u) :
    Keeps P s (State.killOnMer u a1 a2) := by
  unfold State.killOnMer
  repeat' (first
    | with_reducible exact h
    | with_reducible assumption
    | dsimp -zeta only
    | with_reducible refine keeps_killLeg (hP.sub rfl) ?_
    | with_reducible refine keeps_foldl ?_ ?_
    | with_reducible refine keeps_foldl_fst ?_ ?_
    | intro _
    | with_reducible refine keeps_ite ?_ ?_
    | with_reducible refine keeps_ite_fst ?_ ?_
    | with_reducible refine keeps_pair (by assumption) ?_
    | split
    | fail_if_no_progress extract_lets
    | dsimp +zetaDelta only)

theorem keeps_killStartsOnMer {P : Nat} {s u : State} {a1 a2} (hP : Fits 0xa5f9fdb000000000300000000012068002000a1002140a1000000000000000006cf101c1d801000000 P) (h : Keeps P s u) :
    Keeps P s (State.killStartsOnMer u a1 a2) := by
  unfold State.killStartsOnMer
  repeat' (first
    | with_reducible exact h
    | with_reducible assumption
    | dsimp -zeta only
    | with_reducible refine keeps_killStart (hP.sub rfl) ?_
    | with_reducible refine keeps_foldl ?_ ?_
    | with_reducible refine keeps_foldl_fst ?_ ?_
    | intro _
    | with_reducible refine keeps_ite ?_ ?_
    | with_reducible refine keeps_ite_fst ?_ ?_
    | with_reducible refine keeps_pair (by assumption) ?_
    | split
    | fail_if_no_progress extract_lets
    | dsimp +zetaDelta only)

theorem keeps_retimePin {P : Nat} {s u : State} {a1 a2} (hP : Fits 0x1000000000000000000000000000000000000000000000000000000000000000000000900000000 P) (h : Keeps P s u) :
    Keeps P s (State.retimePin u a1 a2) := by
  unfold State.retimePin
  repeat' (first
    | with_reducible exact h
    | with_reducible assumption
    | dsimp -zeta only
    | with_reducible refine keeps_crowded (hP.sub rfl) ?_
    | with_reducible refine keeps_setPin (hP.sub rfl) ?_
    | intro _
    | with_reducible refine keeps_ite ?_ ?_
    | with_reducible refine keeps_ite_fst ?_ ?_
    | with_reducible refine keeps_pair (by assumption) ?_
    | split
    | fail_if_no_progress extract_lets
    | dsimp +zetaDelta only)

theorem keeps_retime {P : Nat} {s u : State} {a1} (hP : Fits 0x1000000000000000000000000000000000000000000000000000000000000000000000900000000 P) (h : Keeps P s u) :
    Keeps P s (State.retime u a1) := by
  unfold State.retime
  repeat' (first
    | with_reducible exact h
    | with_reducible assumption
    | dsimp -zeta only
    | with_reducible refine keeps_retimePin (hP.sub rfl) ?_
    | with_reducible refine keeps_foldl ?_ ?_
    | with_reducible refine keeps_foldl_fst ?_ ?_
    | intro _
    | with_reducible refine keeps_ite ?_ ?_
    | with_reducible refine keeps_ite_fst ?_ ?_
    | with_reducible refine keeps_pair (by assumption) ?_
    | split
    | fail_if_no_progress extract_lets
    | dsimp +zetaDelta only)

theorem keeps_moveMer {P : Nat} {s u : State} {a1 a2} (hP : Fits 0x1020000000000000000000000000000000000000000000000000000000000000000000900000000 P) (h : Keeps P s u) :
    Keeps P s (State.moveMer u a1 a2) := by
  unfold State.moveMer
  repeat' (first
    | with_reducible exact h
    | with_reducible assumption
    | dsimp -zeta only
    | with_reducible refine keeps_setMer (hP.sub rfl) ?_
    | with_reducible refine keeps_retime (hP.sub rfl) ?_
    | intro _
    | with_reducible refine keeps_ite ?_ ?_
    | with_reducible refine keeps_ite_fst ?_ ?_
    | with_reducible refine keeps_pair (by assumption) ?_
    | split
    | fail_if_no_progress extract_lets
    | dsimp +zetaDelta only)

end Sys2Proof.Machine
end

