-- ==== Sys2Proof/Laws/KeepsTraps.lean ====
section
/-! SUPPORT. What each operation of Machine/Traps.lean may change, and that it keeps the invariant: one law for each. -/

set_option linter.unreachableTactic false
set_option linter.unusedTactic false

namespace Sys2Proof.Machine

theorem keeps_showPins {P : Nat} {s u : State} {a1} (hP : Fits 0xc000000000000000 P) (h : Keeps P s u) :
    Keeps P s (State.showPins u a1) := by
  unfold State.showPins
  repeat' (first
    | with_reducible exact h
    | with_reducible assumption
    | dsimp -zeta only
    | with_reducible refine keeps_setFloor (hP.sub rfl) ?_
    | with_reducible refine keeps_fput hP rfl ?_
    | intro _
    | with_reducible refine keeps_ite ?_ ?_
    | with_reducible refine keeps_ite_fst ?_ ?_
    | with_reducible refine keeps_pair (by assumption) ?_
    | split
    | fail_if_no_progress extract_lets
    | dsimp +zetaDelta only)

theorem keeps_repin {P : Nat} {s u : State} {a1} (hP : Fits 0x81e859b000000000300000000012068000000a1002140a10000000000000000000c000000000000000 P) (h : Keeps P s u) :
    Keeps P s (State.repin u a1) := by
  unfold State.repin
  repeat' (first
    | with_reducible exact h
    | with_reducible assumption
    | dsimp -zeta only
    | with_reducible refine keeps_branchEntry (hP.sub rfl) ?_
    | with_reducible refine keeps_branchEntry_eq (by assumption) (hP.sub rfl) ?_
    | with_reducible refine keeps_showPins (hP.sub rfl) ?_
    | with_reducible refine keeps_setSeq (hP.sub rfl) ?_
    | with_reducible refine keeps_foldl ?_ ?_
    | with_reducible refine keeps_foldl_fst ?_ ?_
    | intro _
    | with_reducible refine keeps_ite ?_ ?_
    | with_reducible refine keeps_ite_fst ?_ ?_
    | with_reducible refine keeps_pair (by assumption) ?_
    | split
    | fail_if_no_progress extract_lets
    | dsimp +zetaDelta only)

theorem keeps_suspend {P : Nat} {s u : State} {a1} (hP : Fits 0xa5f8fdb000000000300000000012068002000a1002140a100000000000000000ecf101410001000000 P) (h : Keeps P s u) :
    Keeps P s (State.suspend u a1) := by
  unfold State.suspend
  repeat' (first
    | with_reducible exact h
    | with_reducible assumption
    | dsimp -zeta only
    | with_reducible refine keeps_dropLegStarts (hP.sub rfl) ?_
    | with_reducible refine keeps_settleWrites (hP.sub rfl) ?_
    | with_reducible refine keeps_recordFault (hP.sub rfl) ?_
    | with_reducible refine keeps_setPilot (hP.sub rfl) ?_
    | with_reducible refine keeps_parkPins (hP.sub rfl) ?_
    | with_reducible refine keeps_endEvent (hP.sub rfl) ?_
    | with_reducible refine keeps_dvaWrite (hP.sub rfl) ?_
    | with_reducible refine keeps_dvaWrite_eq (by assumption) (hP.sub rfl) ?_
    | with_reducible refine keeps_giveJob (hP.sub rfl) ?_
    | with_reducible refine keeps_endJob (hP.sub rfl) ?_
    | with_reducible refine keeps_setJob (hP.sub rfl) ?_
    | with_reducible refine keeps_setSeq (hP.sub rfl) ?_
    | with_reducible refine keeps_bump hP rfl ?_
    | intro _
    | with_reducible refine keeps_ite ?_ ?_
    | with_reducible refine keeps_ite_fst ?_ ?_
    | with_reducible refine keeps_pair (by assumption) ?_
    | split
    | fail_if_no_progress extract_lets
    | dsimp +zetaDelta only)

theorem keeps_restoreWords {P : Nat} {s u : State} {a1 a2} (hP : Fits 0x8000000000000000000000000000000000000000000000000000000000000047f00010000000000 P) (h : Keeps P s u) :
    Keeps P s (State.restoreWords u a1 a2) := by
  unfold State.restoreWords
  repeat' (first
    | with_reducible exact h
    | with_reducible assumption
    | dsimp -zeta only
    | with_reducible refine keeps_setPilot (hP.sub rfl) ?_
    | with_reducible refine keeps_wr hP rfl ?_
    | with_reducible refine keeps_fput hP rfl ?_
    | with_reducible refine keeps_foldl ?_ ?_
    | with_reducible refine keeps_foldl_fst ?_ ?_
    | intro _
    | with_reducible refine keeps_ite ?_ ?_
    | with_reducible refine keeps_ite_fst ?_ ?_
    | with_reducible refine keeps_pair (by assumption) ?_
    | split
    | fail_if_no_progress extract_lets
    | dsimp +zetaDelta only)

theorem keeps_takeBack {P : Nat} {s u : State} {a1 a2} (hP : Fits 0x81e859b000000000300000000012068000000a1002140a100000000000000000000000000000000000 P) (h : Keeps P s u) :
    Keeps P s (State.takeBack u a1 a2).1 := by
  unfold State.takeBack
  repeat' (first
    | with_reducible exact h
    | with_reducible assumption
    | dsimp -zeta only
    | with_reducible refine keeps_loadRoute (hP.sub rfl) ?_
    | with_reducible refine keeps_loadRoute_eq (by assumption) (hP.sub rfl) ?_
    | with_reducible refine keeps_setPilot (hP.sub rfl) ?_
    | with_reducible refine keeps_setStr (hP.sub rfl) ?_
    | intro _
    | with_reducible refine keeps_ite ?_ ?_
    | with_reducible refine keeps_ite_fst ?_ ?_
    | with_reducible refine keeps_pair (by assumption) ?_
    | split
    | fail_if_no_progress extract_lets
    | dsimp +zetaDelta only)

theorem keeps_takeBack_eq {P : Nat} {s u v : State} {a1 a2} {x} (he : State.takeBack u a1 a2 = (v, x)) (hP : Fits 0x81e859b000000000300000000012068000000a1002140a100000000000000000000000000000000000 P)
    (h : Keeps P s u) : Keeps P s v := by
  have h1 := keeps_takeBack (a1 := a1) (a2 := a2) hP h
  rw [he] at h1
  exact h1

theorem keeps_restoreJob {P : Nat} {s u : State} {a1 a2 a3} (hP : Fits 0x81f859b000000000300000000012068000000a1002140a10000000000000000004ff00010000000000 P) (h : Keeps P s u) :
    Keeps P s (State.restoreJob u a1 a2 a3) := by
  unfold State.restoreJob
  repeat' (first
    | with_reducible exact h
    | with_reducible assumption
    | dsimp -zeta only
    | with_reducible refine keeps_restoreWords (hP.sub rfl) ?_
    | with_reducible refine keeps_setPilot (hP.sub rfl) ?_
    | with_reducible refine keeps_jobEvent (hP.sub rfl) ?_
    | with_reducible refine keeps_setJob (hP.sub rfl) ?_
    | with_reducible refine keeps_repin (hP.sub rfl) ?_
    | intro _
    | with_reducible refine keeps_ite ?_ ?_
    | with_reducible refine keeps_ite_fst ?_ ?_
    | with_reducible refine keeps_pair (by assumption) ?_
    | split
    | fail_if_no_progress extract_lets
    | dsimp +zetaDelta only)

theorem keeps_doJobRestore {P : Nat} {s u : State} {a1} (hP : Fits 0xa5f8fdb000000000300000000012068002000a1002140a1000000000000000006cff01410000000000 P) (h : Keeps P s u) :
    Keeps P s (State.doJobRestore u a1) := by
  unfold State.doJobRestore
  repeat' (first
    | with_reducible exact h
    | with_reducible assumption
    | dsimp -zeta only
    | with_reducible refine keeps_recordFault (hP.sub rfl) ?_
    | with_reducible refine keeps_restoreJob (hP.sub rfl) ?_
    | with_reducible refine keeps_takeBack (hP.sub rfl) ?_
    | with_reducible refine keeps_takeBack_eq (by assumption) (hP.sub rfl) ?_
    | with_reducible refine keeps_dvaRead (hP.sub rfl) ?_
    | with_reducible refine keeps_dvaRead_eq (by assumption) (hP.sub rfl) ?_
    | with_reducible refine keeps_endJob (hP.sub rfl) ?_
    | intro _
    | with_reducible refine keeps_ite ?_ ?_
    | with_reducible refine keeps_ite_fst ?_ ?_
    | with_reducible refine keeps_pair (by assumption) ?_
    | split
    | fail_if_no_progress extract_lets
    | dsimp +zetaDelta only)

theorem keeps_resumeTrap {P : Nat} {s u : State} {a1} (hP : Fits 0xa5f8fdb000000000300000000012068002000a1002140a100000000000000000ecf101410001000000 P) (h : Keeps P s u) :
    Keeps P s (State.resumeTrap u a1) := by
  unfold State.resumeTrap
  repeat' (first
    | with_reducible exact h
    | with_reducible assumption
    | dsimp -zeta only
    | with_reducible refine keeps_takeRoute (hP.sub rfl) ?_
    | with_reducible refine keeps_dropFrame (hP.sub rfl) ?_
    | with_reducible refine keeps_setPilot (hP.sub rfl) ?_
    | with_reducible refine keeps_suspend (hP.sub rfl) ?_
    | with_reducible refine keeps_giveJob (hP.sub rfl) ?_
    | with_reducible refine keeps_endJob (hP.sub rfl) ?_
    | intro _
    | with_reducible refine keeps_ite ?_ ?_
    | with_reducible refine keeps_ite_fst ?_ ?_
    | with_reducible refine keeps_pair (by assumption) ?_
    | split
    | fail_if_no_progress extract_lets
    | dsimp +zetaDelta only)

theorem keeps_tryResume {P : Nat} {s u : State} {a1} (hP : Fits 0xa5f8fdb000000000300000000016068002000a1002140a100000000000000000ecf101410001000000 P) (h : Keeps P s u) :
    Keeps P s (State.tryResume u a1) := by
  unfold State.tryResume
  repeat' (first
    | with_reducible exact h
    | with_reducible assumption
    | dsimp -zeta only
    | with_reducible refine keeps_resumeTrap (hP.sub rfl) ?_
    | with_reducible refine keeps_qTake_eq (by assumption) (hP.sub rfl) ?_
    | intro _
    | with_reducible refine keeps_ite ?_ ?_
    | with_reducible refine keeps_ite_fst ?_ ?_
    | with_reducible refine keeps_pair (by assumption) ?_
    | split
    | fail_if_no_progress extract_lets
    | dsimp +zetaDelta only)

theorem keeps_fatalTrap {P : Nat} {s u : State} {a1 a2 a3} (hP : Fits 0xa5f9fdb000000000300000001012068002000a1002140a1000000000000000006cff01c15801000000 P) (h : Keeps P s u) :
    Keeps P s (State.fatalTrap u a1 a2 a3) := by
  unfold State.fatalTrap
  repeat' (first
    | with_reducible exact h
    | with_reducible assumption
    | dsimp -zeta only
    | with_reducible refine keeps_saveFrame (hP.sub rfl) ?_
    | with_reducible refine keeps_countFix (hP.sub rfl) ?_
    | with_reducible refine keeps_killLeg (hP.sub rfl) ?_
    | with_reducible refine keeps_endJob (hP.sub rfl) ?_
    | with_reducible refine keeps_fput hP rfl ?_
    | with_reducible refine keeps_bump hP rfl ?_
    | intro _
    | with_reducible refine keeps_ite ?_ ?_
    | with_reducible refine keeps_ite_fst ?_ ?_
    | with_reducible refine keeps_pair (by assumption) ?_
    | split
    | fail_if_no_progress extract_lets
    | dsimp +zetaDelta only)

theorem keeps_resumableTrap {P : Nat} {s u : State} {a1 a2 a3 a4 a5 a6} (hP : Fits 0xa5f9fdb000000000300000001016068002000a1002140a100000000000000000ecff01c15801000000 P) (h : Keeps P s u) :
    Keeps P s (State.resumableTrap u a1 a2 a3 a4 a5 a6) := by
  unfold State.resumableTrap
  repeat' (first
    | with_reducible exact h
    | with_reducible assumption
    | dsimp -zeta only
    | with_reducible refine keeps_trapService (hP.sub rfl) ?_
    | with_reducible refine keeps_fatalTrap (hP.sub rfl) ?_
    | with_reducible refine keeps_tryResume (hP.sub rfl) ?_
    | intro _
    | with_reducible refine keeps_ite ?_ ?_
    | with_reducible refine keeps_ite_fst ?_ ?_
    | with_reducible refine keeps_pair (by assumption) ?_
    | split
    | fail_if_no_progress extract_lets
    | dsimp +zetaDelta only)

theorem keeps_breakTrap {P : Nat} {s u : State} {a1} (hP : Fits 0xa5f9fdb000000000300000001016068002000a1002140a100000000000000000ecff01c15801000000 P) (h : Keeps P s u) :
    Keeps P s (State.breakTrap u a1) := by
  unfold State.breakTrap
  repeat' (first
    | with_reducible exact h
    | with_reducible assumption
    | dsimp -zeta only
    | with_reducible refine keeps_resumableTrap (hP.sub rfl) ?_
    | with_reducible refine keeps_fput hP rfl ?_
    | intro _
    | with_reducible refine keeps_ite ?_ ?_
    | with_reducible refine keeps_ite_fst ?_ ?_
    | with_reducible refine keeps_pair (by assumption) ?_
    | split
    | fail_if_no_progress extract_lets
    | dsimp +zetaDelta only)

theorem keeps_fetchFault {P : Nat} {s u : State} {a1 a2} (hP : Fits 0xa5f9fdb000000000300000001016068002000a1002140a100000000000000000ecff01c15801000000 P) (h : Keeps P s u) :
    Keeps P s (State.fetchFault u a1 a2) := by
  unfold State.fetchFault
  repeat' (first
    | with_reducible exact h
    | with_reducible assumption
    | dsimp -zeta only
    | with_reducible refine keeps_resumableTrap (hP.sub rfl) ?_
    | with_reducible refine keeps_raiseFault (hP.sub rfl) ?_
    | with_reducible refine keeps_raiseFault_eq (by assumption) (hP.sub rfl) ?_
    | intro _
    | with_reducible refine keeps_ite ?_ ?_
    | with_reducible refine keeps_ite_fst ?_ ?_
    | with_reducible refine keeps_pair (by assumption) ?_
    | split
    | fail_if_no_progress extract_lets
    | dsimp +zetaDelta only)

theorem keeps_fetchPoison {P : Nat} {s u : State} {a1} (hP : Fits 0xa5f8fdb000000000300000000012068002000a1002140a1000000000000000006cf101410000000000 P) (h : Keeps P s u) :
    Keeps P s (State.fetchPoison u a1) := by
  unfold State.fetchPoison
  repeat' (first
    | with_reducible exact h
    | with_reducible assumption
    | dsimp -zeta only
    | with_reducible refine keeps_endJob (hP.sub rfl) ?_
    | intro _
    | with_reducible refine keeps_ite ?_ ?_
    | with_reducible refine keeps_ite_fst ?_ ?_
    | with_reducible refine keeps_pair (by assumption) ?_
    | split
    | fail_if_no_progress extract_lets
    | dsimp +zetaDelta only)

theorem keeps_boundary {P : Nat} {s u : State} {a1 a2} (hP : Fits 0xa5f9fdb000000000300000001016068002000a1002140a100000000000000000ecff01c15801000000 P) (h : Keeps P s u) :
    Keeps P s (State.boundary u a1 a2) := by
  unfold State.boundary
  repeat' (first
    | with_reducible exact h
    | with_reducible assumption
    | dsimp -zeta only
    | with_reducible refine keeps_resumableTrap (hP.sub rfl) ?_
    | with_reducible refine keeps_setPilot (hP.sub rfl) ?_
    | with_reducible refine keeps_suspend (hP.sub rfl) ?_
    | with_reducible refine keeps_endJob (hP.sub rfl) ?_
    | with_reducible refine keeps_fput hP rfl ?_
    | intro _
    | with_reducible refine keeps_ite ?_ ?_
    | with_reducible refine keeps_ite_fst ?_ ?_
    | with_reducible refine keeps_pair (by assumption) ?_
    | split
    | fail_if_no_progress extract_lets
    | dsimp +zetaDelta only)

theorem keeps_execJobRestore {P : Nat} {u t : State} {a0} (he : execJobRestore a0 u = .next t) (hP : Fits 0xa5f8fdb000000000300000000012068002000a1002140a1000000000000000006cff01410000000000 P) : Keeps P u t := by
  unfold execJobRestore at he
  injection he with he
  subst he
  repeat' (first
    | with_reducible exact Keeps.refl P u
    | with_reducible assumption
    | dsimp -zeta only
    | with_reducible refine keeps_doJobRestore (hP.sub rfl) ?_
    | intro _
    | with_reducible refine keeps_ite ?_ ?_
    | with_reducible refine keeps_ite_fst ?_ ?_
    | with_reducible refine keeps_pair (by assumption) ?_
    | split
    | fail_if_no_progress extract_lets
    | dsimp +zetaDelta only)

end Sys2Proof.Machine
end

