-- ==== Sys2Proof/Laws/KeepsPlayout.lean ====
section
/-! SUPPORT. What each operation of Machine/Playout.lean may change, and that it keeps the invariant: one law for each. -/

set_option linter.unreachableTactic false
set_option linter.unusedTactic false

namespace Sys2Proof.Machine

theorem keeps_prefetchFault {P : Nat} {s u : State} {a1 a2} (hP : Fits 0xa5f9fdb000000000300000001016068002000a1002140a100000000000000000ecff01c15801000000 P) (h : Keeps P s u) :
    Keeps P s (State.prefetchFault u a1 a2) := by
  unfold State.prefetchFault
  repeat' (first
    | with_reducible exact h
    | with_reducible assumption
    | dsimp -zeta only
    | with_reducible refine keeps_fetchFault (hP.sub rfl) ?_
    | with_reducible refine keeps_raiseFault (hP.sub rfl) ?_
    | with_reducible refine keeps_raiseFault_eq (by assumption) (hP.sub rfl) ?_
    | intro _
    | with_reducible refine keeps_ite ?_ ?_
    | with_reducible refine keeps_ite_fst ?_ ?_
    | with_reducible refine keeps_pair (by assumption) ?_
    | split
    | fail_if_no_progress extract_lets
    | dsimp +zetaDelta only)

theorem keeps_readVec {P : Nat} {s u : State} {a1 a2 a3} (hP : Fits 0xa5f9fdb000000000300000001016068002000a1002140a100000000000000000ecff01c15801000000 P) (h : Keeps P s u) :
    Keeps P s (State.readVec u a1 a2 a3).1 := by
  unfold State.readVec
  repeat' (first
    | with_reducible exact h
    | with_reducible assumption
    | dsimp -zeta only
    | with_reducible refine keeps_prefetchFault (hP.sub rfl) ?_
    | with_reducible refine keeps_fetchPoison (hP.sub rfl) ?_
    | with_reducible refine keeps_pilotRead (hP.sub rfl) ?_
    | with_reducible refine keeps_pilotRead_eq (by assumption) (hP.sub rfl) ?_
    | intro _
    | with_reducible refine keeps_ite ?_ ?_
    | with_reducible refine keeps_ite_fst ?_ ?_
    | with_reducible refine keeps_pair (by assumption) ?_
    | split
    | fail_if_no_progress extract_lets
    | dsimp +zetaDelta only)

theorem keeps_readVec_eq {P : Nat} {s u v : State} {a1 a2 a3} {x} (he : State.readVec u a1 a2 a3 = (v, x)) (hP : Fits 0xa5f9fdb000000000300000001016068002000a1002140a100000000000000000ecff01c15801000000 P)
    (h : Keeps P s u) : Keeps P s v := by
  have h1 := keeps_readVec (a1 := a1) (a2 := a2) (a3 := a3) hP h
  rw [he] at h1
  exact h1

theorem keeps_markAhead {P : Nat} {s u : State} {a1 a2} (hP : Fits 0x80000000000000000000000000000000000000000000000000000000000000000000000000000000 P) (h : Keeps P s u) :
    Keeps P s (State.markAhead u a1 a2) := by
  unfold State.markAhead
  repeat' (first
    | with_reducible exact h
    | with_reducible assumption
    | dsimp -zeta only
    | intro _
    | with_reducible refine keeps_ite ?_ ?_
    | with_reducible refine keeps_ite_fst ?_ ?_
    | with_reducible refine keeps_pair (by assumption) ?_
    | split
    | fail_if_no_progress extract_lets
    | fail_if_no_progress with_reducible refine keeps_chart hP rfl ?_
    | dsimp +zetaDelta only)

theorem keeps_lookAhead {P : Nat} {s u : State} {a1} (hP : Fits 0x80000000000000000000000000000000000000000000000000000000000000000000000000000000 P) (h : Keeps P s u) :
    Keeps P s (State.lookAhead u a1) := by
  unfold State.lookAhead
  repeat' (first
    | with_reducible exact h
    | with_reducible assumption
    | dsimp -zeta only
    | with_reducible refine keeps_markAhead (hP.sub rfl) ?_
    | with_reducible refine keeps_askWalks (hP.sub rfl) ?_
    | intro _
    | with_reducible refine keeps_ite ?_ ?_
    | with_reducible refine keeps_ite_fst ?_ ?_
    | with_reducible refine keeps_pair (by assumption) ?_
    | split
    | fail_if_no_progress extract_lets
    | dsimp +zetaDelta only)

theorem keeps_goTo {P : Nat} {s u : State} {a1 a2 a3 a4} (hP : Fits 0x8188000000000000000000012068000000000000000000000000000000000004000000000000000 P) (h : Keeps P s u) :
    Keeps P s (State.goTo u a1 a2 a3 a4) := by
  unfold State.goTo
  repeat' (first
    | with_reducible exact h
    | with_reducible assumption
    | dsimp -zeta only
    | with_reducible refine keeps_releaseIfDue (hP.sub rfl) ?_
    | with_reducible refine keeps_setPilot (hP.sub rfl) ?_
    | intro _
    | with_reducible refine keeps_ite ?_ ?_
    | with_reducible refine keeps_ite_fst ?_ ?_
    | with_reducible refine keeps_pair (by assumption) ?_
    | split
    | fail_if_no_progress extract_lets
    | dsimp +zetaDelta only)

theorem keeps_takeBranch {P : Nat} {s u : State} {a1 a2 a3 a4} (hP : Fits 0x8188000000000000000000012068000000000000000000000000000000000004000000000000000 P) (h : Keeps P s u) :
    Keeps P s (State.takeBranch u a1 a2 a3 a4) := by
  unfold State.takeBranch
  repeat' (first
    | with_reducible exact h
    | with_reducible assumption
    | dsimp -zeta only
    | with_reducible refine keeps_setSeq (hP.sub rfl) ?_
    | with_reducible refine keeps_goTo (hP.sub rfl) ?_
    | intro _
    | with_reducible refine keeps_ite ?_ ?_
    | with_reducible refine keeps_ite_fst ?_ ?_
    | with_reducible refine keeps_pair (by assumption) ?_
    | split
    | fail_if_no_progress extract_lets
    | dsimp +zetaDelta only)

theorem keeps_wantedEntries {P : Nat} {s u : State} {a1} (hP : Fits 0x81e059b000000000300000000012068000000a1002140a100000000000000000000000000000000000 P) (h : Keeps P s u) :
    Keeps P s (State.wantedEntries u a1).1 := by
  unfold State.wantedEntries
  repeat' (first
    | with_reducible exact h
    | with_reducible assumption
    | dsimp -zeta only
    | with_reducible refine keeps_pilotRead (hP.sub rfl) ?_
    | with_reducible refine keeps_pilotRead_eq (by assumption) (hP.sub rfl) ?_
    | intro _
    | with_reducible refine keeps_ite ?_ ?_
    | with_reducible refine keeps_ite_fst ?_ ?_
    | with_reducible refine keeps_pair (by assumption) ?_
    | split
    | fail_if_no_progress extract_lets
    | dsimp +zetaDelta only)

theorem keeps_wantedEntries_eq {P : Nat} {s u v : State} {a1} {x} (he : State.wantedEntries u a1 = (v, x)) (hP : Fits 0x81e059b000000000300000000012068000000a1002140a100000000000000000000000000000000000 P)
    (h : Keeps P s u) : Keeps P s v := by
  have h1 := keeps_wantedEntries (a1 := a1) hP h
  rw [he] at h1
  exact h1

theorem keeps_readCode {P : Nat} {s u : State} {a1 a2} (hP : Fits 0xa5f9fdb000000000300000001016068002000a1002140a100000000000000000ecff01c15801000000 P) (h : Keeps P s u) :
    Keeps P s (State.readCode u a1 a2).1 := by
  unfold State.readCode
  repeat' (first
    | with_reducible exact h
    | with_reducible assumption
    | dsimp -zeta only
    | with_reducible refine keeps_prefetchFault (hP.sub rfl) ?_
    | with_reducible refine keeps_fetchPoison (hP.sub rfl) ?_
    | with_reducible refine keeps_pilotRead (hP.sub rfl) ?_
    | with_reducible refine keeps_pilotRead_eq (by assumption) (hP.sub rfl) ?_
    | intro _
    | with_reducible refine keeps_ite ?_ ?_
    | with_reducible refine keeps_ite_fst ?_ ?_
    | with_reducible refine keeps_pair (by assumption) ?_
    | split
    | fail_if_no_progress extract_lets
    | dsimp +zetaDelta only)

theorem keeps_readCode_eq {P : Nat} {s u v : State} {a1 a2} {x} (he : State.readCode u a1 a2 = (v, x)) (hP : Fits 0xa5f9fdb000000000300000001016068002000a1002140a100000000000000000ecff01c15801000000 P)
    (h : Keeps P s u) : Keeps P s v := by
  have h1 := keeps_readCode (a1 := a1) (a2 := a2) hP h
  rw [he] at h1
  exact h1

theorem keeps_fillSlot {P : Nat} {s u : State} {a1 a2 a3 a4} (hP : Fits 0xa5f9fdb000000000300000001016068002000a1002140a100000000000000000ecff01c15801000000 P) (h : Keeps P s u) :
    Keeps P s (State.fillSlot u a1 a2 a3 a4) := by
  unfold State.fillSlot
  repeat' (first
    | with_reducible exact h
    | with_reducible assumption
    | dsimp -zeta only
    | with_reducible refine keeps_lookAhead (hP.sub rfl) ?_
    | with_reducible refine keeps_setFloor (hP.sub rfl) ?_
    | with_reducible refine keeps_readCode (hP.sub rfl) ?_
    | with_reducible refine keeps_readCode_eq (by assumption) (hP.sub rfl) ?_
    | with_reducible refine keeps_readVec (hP.sub rfl) ?_
    | with_reducible refine keeps_readVec_eq (by assumption) (hP.sub rfl) ?_
    | with_reducible refine keeps_setStr (hP.sub rfl) ?_
    | intro _
    | with_reducible refine keeps_ite ?_ ?_
    | with_reducible refine keeps_ite_fst ?_ ?_
    | with_reducible refine keeps_pair (by assumption) ?_
    | split
    | fail_if_no_progress extract_lets
    | dsimp +zetaDelta only)

theorem keeps_fillEntry {P : Nat} {s u : State} {a1 a2} (hP : Fits 0xa5f9fdb000000000300000001016068002000a1002140a100000000000000000ecff01c15801000000 P) (h : Keeps P s u) :
    Keeps P s (State.fillEntry u a1 a2) := by
  induction a2 generalizing u a1 with
  | nil =>
    unfold State.fillEntry
    repeat' (first
      | with_reducible exact h
      | with_reducible assumption
      | dsimp -zeta only
      | with_reducible refine keeps_branchEntry (hP.sub rfl) ?_
      | with_reducible refine keeps_branchEntry_eq (by assumption) (hP.sub rfl) ?_
      | with_reducible refine keeps_fillSlot (hP.sub rfl) ?_
      | intro _
      | with_reducible refine keeps_ite ?_ ?_
      | with_reducible refine keeps_ite_fst ?_ ?_
      | with_reducible refine keeps_pair (by assumption) ?_
      | split
      | fail_if_no_progress extract_lets
      | dsimp +zetaDelta only)
  | cons x r ih =>
    unfold State.fillEntry
    repeat' (first
      | with_reducible exact h
      | with_reducible assumption
      | dsimp -zeta only
      | with_reducible apply ih
      | with_reducible refine keeps_branchEntry (hP.sub rfl) ?_
      | with_reducible refine keeps_branchEntry_eq (by assumption) (hP.sub rfl) ?_
      | with_reducible refine keeps_fillSlot (hP.sub rfl) ?_
      | intro _
      | with_reducible refine keeps_ite ?_ ?_
      | with_reducible refine keeps_ite_fst ?_ ?_
      | with_reducible refine keeps_pair (by assumption) ?_
      | split
      | fail_if_no_progress extract_lets
      | dsimp +zetaDelta only)

theorem keeps_doSlotFill {P : Nat} {s u : State} {a1} (hP : Fits 0xa5f9fdb000000000300000001016068002000a1002140a100000000000000000ecff01c15801000000 P) (h : Keeps P s u) :
    Keeps P s (State.doSlotFill u a1) := by
  unfold State.doSlotFill
  repeat' (first
    | with_reducible exact h
    | with_reducible assumption
    | dsimp -zeta only
    | with_reducible refine keeps_wantedEntries (hP.sub rfl) ?_
    | with_reducible refine keeps_wantedEntries_eq (by assumption) (hP.sub rfl) ?_
    | with_reducible refine keeps_fillEntry (hP.sub rfl) ?_
    | with_reducible refine keeps_fillSlot (hP.sub rfl) ?_
    | intro _
    | with_reducible refine keeps_ite ?_ ?_
    | with_reducible refine keeps_ite_fst ?_ ?_
    | with_reducible refine keeps_pair (by assumption) ?_
    | split
    | fail_if_no_progress extract_lets
    | dsimp +zetaDelta only)

theorem keeps_doPlayoutFetch {P : Nat} {s u : State} {a1} (hP : Fits 0xa5f9fdb000000000300000001016068002000a1002140a100000000000000000ecff01c15801000000 P) (h : Keeps P s u) :
    Keeps P s (State.doPlayoutFetch u a1) := by
  unfold State.doPlayoutFetch
  repeat' (first
    | with_reducible exact h
    | with_reducible assumption
    | dsimp -zeta only
    | with_reducible refine keeps_lookAhead (hP.sub rfl) ?_
    | with_reducible refine keeps_readVec (hP.sub rfl) ?_
    | with_reducible refine keeps_readVec_eq (by assumption) (hP.sub rfl) ?_
    | with_reducible refine keeps_setStr (hP.sub rfl) ?_
    | intro _
    | with_reducible refine keeps_ite ?_ ?_
    | with_reducible refine keeps_ite_fst ?_ ?_
    | with_reducible refine keeps_pair (by assumption) ?_
    | split
    | fail_if_no_progress extract_lets
    | dsimp +zetaDelta only)

theorem keeps_doFillElement {P : Nat} {s u : State} {a1} (hP : Fits 0x200018800000000000000000000600800000000000000000000000000000000000b000000000000000 P) (h : Keeps P s u) :
    Keeps P s (State.doFillElement u a1) := by
  unfold State.doFillElement
  repeat' (first
    | with_reducible exact h
    | with_reducible assumption
    | dsimp -zeta only
    | with_reducible refine keeps_qTake_eq (by assumption) (hP.sub rfl) ?_
    | with_reducible refine keeps_fput hP rfl ?_
    | with_reducible refine keeps_bump hP rfl ?_
    | intro _
    | with_reducible refine keeps_ite ?_ ?_
    | with_reducible refine keeps_ite_fst ?_ ?_
    | with_reducible refine keeps_pair (by assumption) ?_
    | split
    | fail_if_no_progress extract_lets
    | dsimp +zetaDelta only)

theorem keeps_followRow {P : Nat} {s u : State} {a1 a2 a3} (hP : Fits 0x81e059b000000000300000000012068000000a1002140a100000000000000000000000000000000000 P) (h : Keeps P s u) :
    Keeps P s (State.followRow u a1 a2 a3).1 := by
  induction a3 generalizing u a1 a2 with
  | zero =>
    unfold State.followRow
    repeat' (first
      | with_reducible exact h
      | with_reducible assumption
      | dsimp -zeta only
      | with_reducible refine keeps_branchEntry (hP.sub rfl) ?_
      | with_reducible refine keeps_branchEntry_eq (by assumption) (hP.sub rfl) ?_
      | with_reducible refine keeps_pilotRead (hP.sub rfl) ?_
      | with_reducible refine keeps_pilotRead_eq (by assumption) (hP.sub rfl) ?_
      | intro _
      | with_reducible refine keeps_ite ?_ ?_
      | with_reducible refine keeps_ite_fst ?_ ?_
      | with_reducible refine keeps_pair (by assumption) ?_
      | split
      | fail_if_no_progress extract_lets
      | dsimp +zetaDelta only)
  | succ n ih =>
    unfold State.followRow
    repeat' (first
      | with_reducible exact h
      | with_reducible assumption
      | dsimp -zeta only
      | with_reducible apply ih
      | with_reducible refine keeps_pair (w := State.followRow _ _ _ _) (by assumption) ?_
      | with_reducible refine keeps_branchEntry (hP.sub rfl) ?_
      | with_reducible refine keeps_branchEntry_eq (by assumption) (hP.sub rfl) ?_
      | with_reducible refine keeps_pilotRead (hP.sub rfl) ?_
      | with_reducible refine keeps_pilotRead_eq (by assumption) (hP.sub rfl) ?_
      | intro _
      | with_reducible refine keeps_ite ?_ ?_
      | with_reducible refine keeps_ite_fst ?_ ?_
      | with_reducible refine keeps_pair (by assumption) ?_
      | split
      | fail_if_no_progress extract_lets
      | dsimp +zetaDelta only)

theorem keeps_followRow_eq {P : Nat} {s u v : State} {a1 a2 a3} {x} (he : State.followRow u a1 a2 a3 = (v, x)) (hP : Fits 0x81e059b000000000300000000012068000000a1002140a100000000000000000000000000000000000 P)
    (h : Keeps P s u) : Keeps P s v := by
  have h1 := keeps_followRow (a1 := a1) (a2 := a2) (a3 := a3) hP h
  rw [he] at h1
  exact h1

theorem keeps_rowBeyond {P : Nat} {s u : State} {a1} (hP : Fits 0x81e059b000000000300000000012068000000a1002140a100000000000000000000000000000000000 P) (h : Keeps P s u) :
    Keeps P s (State.rowBeyond u a1).1 := by
  unfold State.rowBeyond
  repeat' (first
    | with_reducible exact h
    | with_reducible assumption
    | dsimp -zeta only
    | with_reducible refine keeps_followRow (hP.sub rfl) ?_
    | with_reducible refine keeps_followRow_eq (by assumption) (hP.sub rfl) ?_
    | intro _
    | with_reducible refine keeps_ite ?_ ?_
    | with_reducible refine keeps_ite_fst ?_ ?_
    | with_reducible refine keeps_pair (by assumption) ?_
    | split
    | fail_if_no_progress extract_lets
    | dsimp +zetaDelta only)

theorem keeps_rowBeyond_eq {P : Nat} {s u v : State} {a1} {x} (he : State.rowBeyond u a1 = (v, x)) (hP : Fits 0x81e059b000000000300000000012068000000a1002140a100000000000000000000000000000000000 P)
    (h : Keeps P s u) : Keeps P s v := by
  have h1 := keeps_rowBeyond (a1 := a1) hP h
  rw [he] at h1
  exact h1

theorem keeps_beginHold {P : Nat} {s u : State} {a1 a2 a3 a4} (hP : Fits 0x8188000000000000000000012068000000000000000000000000000000000014000000000000000 P) (h : Keeps P s u) :
    Keeps P s (State.beginHold u a1 a2 a3 a4) := by
  unfold State.beginHold
  repeat' (first
    | with_reducible exact h
    | with_reducible assumption
    | dsimp -zeta only
    | with_reducible refine keeps_setPilot (hP.sub rfl) ?_
    | with_reducible refine keeps_release (hP.sub rfl) ?_
    | with_reducible refine keeps_bump hP rfl ?_
    | intro _
    | with_reducible refine keeps_ite ?_ ?_
    | with_reducible refine keeps_ite_fst ?_ ?_
    | with_reducible refine keeps_pair (by assumption) ?_
    | split
    | fail_if_no_progress extract_lets
    | dsimp +zetaDelta only)

theorem keeps_leaveHold {P : Nat} {s u : State} {a1 a2} (hP : Fits 0x8188000000000000000000012068000000000000000000000000000000000004000000000000000 P) (h : Keeps P s u) :
    Keeps P s (State.leaveHold u a1 a2) := by
  unfold State.leaveHold
  repeat' (first
    | with_reducible exact h
    | with_reducible assumption
    | dsimp -zeta only
    | with_reducible refine keeps_setPilot (hP.sub rfl) ?_
    | with_reducible refine keeps_setStr (hP.sub rfl) ?_
    | with_reducible refine keeps_goTo (hP.sub rfl) ?_
    | intro _
    | with_reducible refine keeps_ite ?_ ?_
    | with_reducible refine keeps_ite_fst ?_ ?_
    | with_reducible refine keeps_pair (by assumption) ?_
    | split
    | fail_if_no_progress extract_lets
    | dsimp +zetaDelta only)

theorem keeps_doHoldEnd {P : Nat} {s u : State} {a1} (hP : Fits 0x8188000000000000000000012068000000000000000000000000000000000004000000000000000 P) (h : Keeps P s u) :
    Keeps P s (State.doHoldEnd u a1) := by
  unfold State.doHoldEnd
  repeat' (first
    | with_reducible exact h
    | with_reducible assumption
    | dsimp -zeta only
    | with_reducible refine keeps_leaveHold (hP.sub rfl) ?_
    | intro _
    | with_reducible refine keeps_ite ?_ ?_
    | with_reducible refine keeps_ite_fst ?_ ?_
    | with_reducible refine keeps_pair (by assumption) ?_
    | split
    | fail_if_no_progress extract_lets
    | dsimp +zetaDelta only)

theorem keeps_doHoldLimit {P : Nat} {s u : State} {a1} (hP : Fits 0xa5f9fdb000000000300000001012068002000a1002140a1000000000000000006cff01c15801000000 P) (h : Keeps P s u) :
    Keeps P s (State.doHoldLimit u a1) := by
  unfold State.doHoldLimit
  repeat' (first
    | with_reducible exact h
    | with_reducible assumption
    | dsimp -zeta only
    | with_reducible refine keeps_killLeg (hP.sub rfl) ?_
    | intro _
    | with_reducible refine keeps_ite ?_ ?_
    | with_reducible refine keeps_ite_fst ?_ ?_
    | with_reducible refine keeps_pair (by assumption) ?_
    | split
    | fail_if_no_progress extract_lets
    | dsimp +zetaDelta only)

theorem keeps_execHoldEnd {P : Nat} {u t : State} {a0} (he : execHoldEnd a0 u = .next t) (hP : Fits 0x8188000000000000000000012068000000000000000000000000000000000004000000000000000 P) : Keeps P u t := by
  unfold execHoldEnd at he
  injection he with he
  subst he
  repeat' (first
    | with_reducible exact Keeps.refl P u
    | with_reducible assumption
    | dsimp -zeta only
    | with_reducible refine keeps_doHoldEnd (hP.sub rfl) ?_
    | intro _
    | with_reducible refine keeps_ite ?_ ?_
    | with_reducible refine keeps_ite_fst ?_ ?_
    | with_reducible refine keeps_pair (by assumption) ?_
    | split
    | fail_if_no_progress extract_lets
    | dsimp +zetaDelta only)

theorem keeps_execHoldLimit {P : Nat} {u t : State} {a0} (he : execHoldLimit a0 u = .next t) (hP : Fits 0xa5f9fdb000000000300000001012068002000a1002140a1000000000000000006cff01c15801000000 P) : Keeps P u t := by
  unfold execHoldLimit at he
  injection he with he
  subst he
  repeat' (first
    | with_reducible exact Keeps.refl P u
    | with_reducible assumption
    | dsimp -zeta only
    | with_reducible refine keeps_doHoldLimit (hP.sub rfl) ?_
    | intro _
    | with_reducible refine keeps_ite ?_ ?_
    | with_reducible refine keeps_ite_fst ?_ ?_
    | with_reducible refine keeps_pair (by assumption) ?_
    | split
    | fail_if_no_progress extract_lets
    | dsimp +zetaDelta only)

theorem keeps_execFillElement {P : Nat} {u t : State} {a0} (he : execFillElement a0 u = .next t) (hP : Fits 0x200018800000000000000000000600800000000000000000000000000000000000b000000000000000 P) : Keeps P u t := by
  unfold execFillElement at he
  injection he with he
  subst he
  repeat' (first
    | with_reducible exact Keeps.refl P u
    | with_reducible assumption
    | dsimp -zeta only
    | with_reducible refine keeps_doFillElement (hP.sub rfl) ?_
    | intro _
    | with_reducible refine keeps_ite ?_ ?_
    | with_reducible refine keeps_ite_fst ?_ ?_
    | with_reducible refine keeps_pair (by assumption) ?_
    | split
    | fail_if_no_progress extract_lets
    | dsimp +zetaDelta only)

theorem keeps_execSlotFill {P : Nat} {u t : State} {a0} (he : execSlotFill a0 u = .next t) (hP : Fits 0xa5f9fdb000000000300000001016068002000a1002140a100000000000000000ecff01c15801000000 P) : Keeps P u t := by
  unfold execSlotFill at he
  injection he with he
  subst he
  repeat' (first
    | with_reducible exact Keeps.refl P u
    | with_reducible assumption
    | dsimp -zeta only
    | with_reducible refine keeps_doSlotFill (hP.sub rfl) ?_
    | intro _
    | with_reducible refine keeps_ite ?_ ?_
    | with_reducible refine keeps_ite_fst ?_ ?_
    | with_reducible refine keeps_pair (by assumption) ?_
    | split
    | fail_if_no_progress extract_lets
    | dsimp +zetaDelta only)

theorem keeps_execPlayoutFetch {P : Nat} {u t : State} {a0} (he : execPlayoutFetch a0 u = .next t) (hP : Fits 0xa5f9fdb000000000300000001016068002000a1002140a100000000000000000ecff01c15801000000 P) : Keeps P u t := by
  unfold execPlayoutFetch at he
  injection he with he
  subst he
  repeat' (first
    | with_reducible exact Keeps.refl P u
    | with_reducible assumption
    | dsimp -zeta only
    | with_reducible refine keeps_doPlayoutFetch (hP.sub rfl) ?_
    | intro _
    | with_reducible refine keeps_ite ?_ ?_
    | with_reducible refine keeps_ite_fst ?_ ?_
    | with_reducible refine keeps_pair (by assumption) ?_
    | split
    | fail_if_no_progress extract_lets
    | dsimp +zetaDelta only)

end Sys2Proof.Machine
end

