-- ==== Sys2Proof/Laws/KeepsRoute.lean ====
section
/-! SUPPORT. What each operation of Machine/Route.lean may change, and that it keeps the invariant: one law for each. -/

set_option linter.unreachableTactic false
set_option linter.unusedTactic false

namespace Sys2Proof.Machine

theorem keeps_insTrap {P : Nat} {s u : State} {a1 a2} (hP : Fits 0xa5f9fdb000000000300000001012068002000a1002140a1000000000000000006cff01c15801000000 P) (h : Keeps P s u) :
    Keeps P s (State.insTrap u a1 a2) := by
  unfold State.insTrap
  repeat' (first
    | with_reducible exact h
    | with_reducible assumption
    | dsimp -zeta only
    | with_reducible refine keeps_fatalTrap (hP.sub rfl) ?_
    | intro _
    | with_reducible refine keeps_ite ?_ ?_
    | with_reducible refine keeps_ite_fst ?_ ?_
    | with_reducible refine keeps_pair (by assumption) ?_
    | split
    | fail_if_no_progress extract_lets
    | dsimp +zetaDelta only)

theorem keeps_stepPc {P : Nat} {s u : State} {a1} (hP : Fits 0x8000000000000000000000000000000000000000000000000000000000000000000000000000000 P) (h : Keeps P s u) :
    Keeps P s (State.stepPc u a1) := by
  unfold State.stepPc
  repeat' (first
    | with_reducible exact h
    | with_reducible assumption
    | dsimp -zeta only
    | with_reducible refine keeps_setSeq (hP.sub rfl) ?_
    | intro _
    | with_reducible refine keeps_ite ?_ ?_
    | with_reducible refine keeps_ite_fst ?_ ?_
    | with_reducible refine keeps_pair (by assumption) ?_
    | split
    | fail_if_no_progress extract_lets
    | dsimp +zetaDelta only)

theorem keeps_startRun {P : Nat} {s u : State} {a1 a2 a3 a4} (hP : Fits 0x8000000000000000000000000000000000000000000000000000000000000000000000000000000 P) (h : Keeps P s u) :
    Keeps P s (State.startRun u a1 a2 a3 a4) := by
  unfold State.startRun
  repeat' (first
    | with_reducible exact h
    | with_reducible assumption
    | dsimp -zeta only
    | with_reducible refine keeps_setSeq (hP.sub rfl) ?_
    | intro _
    | with_reducible refine keeps_ite ?_ ?_
    | with_reducible refine keeps_ite_fst ?_ ?_
    | with_reducible refine keeps_pair (by assumption) ?_
    | split
    | fail_if_no_progress extract_lets
    | dsimp +zetaDelta only)

theorem keeps_needEntry {P : Nat} {s u : State} {a1 a2} (hP : Fits 0xa5f9fdb000000000300000001016068002000a1002140a100000000000000000ecff01c15801000000 P) (h : Keeps P s u) :
    Keeps P s (State.needEntry u a1 a2).1 := by
  unfold State.needEntry
  repeat' (first
    | with_reducible exact h
    | with_reducible assumption
    | dsimp -zeta only
    | with_reducible refine keeps_fetchPoison (hP.sub rfl) ?_
    | with_reducible refine keeps_branchEntry (hP.sub rfl) ?_
    | with_reducible refine keeps_branchEntry_eq (by assumption) (hP.sub rfl) ?_
    | with_reducible refine keeps_fetchFault (hP.sub rfl) ?_
    | intro _
    | with_reducible refine keeps_ite ?_ ?_
    | with_reducible refine keeps_ite_fst ?_ ?_
    | with_reducible refine keeps_pair (by assumption) ?_
    | split
    | fail_if_no_progress extract_lets
    | dsimp +zetaDelta only)

theorem keeps_needEntry_eq {P : Nat} {s u v : State} {a1 a2} {x} (he : State.needEntry u a1 a2 = (v, x)) (hP : Fits 0xa5f9fdb000000000300000001016068002000a1002140a100000000000000000ecff01c15801000000 P)
    (h : Keeps P s u) : Keeps P s v := by
  have h1 := keeps_needEntry (a1 := a1) (a2 := a2) hP h
  rw [he] at h1
  exact h1

theorem keeps_branchActs {P : Nat} {s u : State} {a1 a2 a3 a4} (hP : Fits 0xa5f9fdb000000000300000001016068002000a1002140a100000000000000000ecff01c15801000000 P) (h4 : ∀ v, Keeps P s v → Keeps P s (a4 v)) (h : Keeps P s u) :
    Keeps P s (State.branchActs u a1 a2 a3 a4) := by
  unfold State.branchActs
  repeat' (first
    | with_reducible exact h
    | with_reducible assumption
    | dsimp -zeta only
    | with_reducible refine keeps_takeBranch (hP.sub rfl) ?_
    | with_reducible refine keeps_needEntry (hP.sub rfl) ?_
    | with_reducible refine keeps_needEntry_eq (by assumption) (hP.sub rfl) ?_
    | with_reducible refine keeps_insTrap (hP.sub rfl) ?_
    | with_reducible refine h4 _ ?_
    | intro _
    | with_reducible refine keeps_ite ?_ ?_
    | with_reducible refine keeps_ite_fst ?_ ?_
    | with_reducible refine keeps_pair (by assumption) ?_
    | split
    | fail_if_no_progress extract_lets
    | dsimp +zetaDelta only)

theorem keeps_branchTo {P : Nat} {s u : State} {a1 a2 a3} (hP : Fits 0xa5f9fdb000000000300000001016068002000a1002140a100000000000000000ecff01c15801000000 P) (h : Keeps P s u) :
    Keeps P s (State.branchTo u a1 a2 a3) := by
  unfold State.branchTo
  repeat' (first
    | with_reducible exact h
    | with_reducible assumption
    | dsimp -zeta only
    | with_reducible refine keeps_branchActs (hP.sub rfl) ?_ ?_
    | with_reducible refine keeps_id ?_
    | intro _
    | with_reducible refine keeps_ite ?_ ?_
    | with_reducible refine keeps_ite_fst ?_ ?_
    | with_reducible refine keeps_pair (by assumption) ?_
    | split
    | fail_if_no_progress extract_lets
    | dsimp +zetaDelta only)

theorem keeps_setAlu {P : Nat} {s u : State} {a1 a2 a3} (hP : Fits 0x8000000000000000000000000000000000000000000000000000000000000000000000000000000 P) (h : Keeps P s u) :
    Keeps P s (State.setAlu u a1 a2 a3) := by
  unfold State.setAlu
  repeat' (first
    | with_reducible exact h
    | with_reducible assumption
    | dsimp -zeta only
    | with_reducible refine keeps_setSeq (hP.sub rfl) ?_
    | intro _
    | with_reducible refine keeps_ite ?_ ?_
    | with_reducible refine keeps_ite_fst ?_ ?_
    | with_reducible refine keeps_pair (by assumption) ?_
    | split
    | fail_if_no_progress extract_lets
    | dsimp +zetaDelta only)

theorem keeps_defer {P : Nat} {s u : State} {a1 a2} (hP : Fits 0x8000000000000000000000000000000000000000000000000000000000000000000000000000000 P) (h : Keeps P s u) :
    Keeps P s (State.defer u a1 a2) := by
  unfold State.defer
  repeat' (first
    | with_reducible exact h
    | with_reducible assumption
    | dsimp -zeta only
    | with_reducible refine keeps_setLeg (hP.sub rfl) ?_
    | intro _
    | with_reducible refine keeps_ite ?_ ?_
    | with_reducible refine keeps_ite_fst ?_ ?_
    | with_reducible refine keeps_pair (by assumption) ?_
    | split
    | fail_if_no_progress extract_lets
    | dsimp +zetaDelta only)

theorem keeps_insNop {P : Nat} {s u : State} {a1} (hP : Fits 0x8000000000000000000000000000000000000000000000000000000000000000000000000000000 P) (h : Keeps P s u) :
    Keeps P s (State.insNop u a1) := by
  unfold State.insNop
  repeat' (first
    | with_reducible exact h
    | with_reducible assumption
    | dsimp -zeta only
    | with_reducible refine keeps_stepPc (hP.sub rfl) ?_
    | intro _
    | with_reducible refine keeps_ite ?_ ?_
    | with_reducible refine keeps_ite_fst ?_ ?_
    | with_reducible refine keeps_pair (by assumption) ?_
    | split
    | fail_if_no_progress extract_lets
    | dsimp +zetaDelta only)

theorem keeps_insVec {P : Nat} {s u : State} {a1 a2} (hP : Fits 0xa5f9fdb000000000300000001012068002000a1002140a1000000000000000006cff01c15801000000 P) (h : Keeps P s u) :
    Keeps P s (State.insVec u a1 a2) := by
  unfold State.insVec
  repeat' (first
    | with_reducible exact h
    | with_reducible assumption
    | dsimp -zeta only
    | with_reducible refine keeps_startRun (hP.sub rfl) ?_
    | with_reducible refine keeps_insTrap (hP.sub rfl) ?_
    | with_reducible refine keeps_stepPc (hP.sub rfl) ?_
    | intro _
    | with_reducible refine keeps_ite ?_ ?_
    | with_reducible refine keeps_ite_fst ?_ ?_
    | with_reducible refine keeps_pair (by assumption) ?_
    | split
    | fail_if_no_progress extract_lets
    | dsimp +zetaDelta only)

theorem keeps_insRpt {P : Nat} {s u : State} {a1 a2} (hP : Fits 0xa5f9fdb000000000300000001012068002000a1002140a1000000000000000006cff01c15801000000 P) (h : Keeps P s u) :
    Keeps P s (State.insRpt u a1 a2) := by
  unfold State.insRpt
  repeat' (first
    | with_reducible exact h
    | with_reducible assumption
    | dsimp -zeta only
    | with_reducible refine keeps_startRun (hP.sub rfl) ?_
    | with_reducible refine keeps_insTrap (hP.sub rfl) ?_
    | with_reducible refine keeps_stepPc (hP.sub rfl) ?_
    | intro _
    | with_reducible refine keeps_ite ?_ ?_
    | with_reducible refine keeps_ite_fst ?_ ?_
    | with_reducible refine keeps_pair (by assumption) ?_
    | split
    | fail_if_no_progress extract_lets
    | dsimp +zetaDelta only)

theorem keeps_insPad {P : Nat} {s u : State} {a1 a2} (hP : Fits 0xa5f9fdb000000000300000001012068002000a1002140a1000000000000000006cff01c15801000000 P) (h : Keeps P s u) :
    Keeps P s (State.insPad u a1 a2) := by
  unfold State.insPad
  repeat' (first
    | with_reducible exact h
    | with_reducible assumption
    | dsimp -zeta only
    | with_reducible refine keeps_startRun (hP.sub rfl) ?_
    | with_reducible refine keeps_insTrap (hP.sub rfl) ?_
    | with_reducible refine keeps_stepPc (hP.sub rfl) ?_
    | intro _
    | with_reducible refine keeps_ite ?_ ?_
    | with_reducible refine keeps_ite_fst ?_ ?_
    | with_reducible refine keeps_pair (by assumption) ?_
    | split
    | fail_if_no_progress extract_lets
    | dsimp +zetaDelta only)

theorem keeps_insScan {P : Nat} {s u : State} {a1 a2 a3} (hP : Fits 0xa5f9fdb000000000300000001012068002000a1002140a1000000000000000006cff01c15801000000 P) (h : Keeps P s u) :
    Keeps P s (State.insScan u a1 a2 a3) := by
  unfold State.insScan
  repeat' (first
    | with_reducible exact h
    | with_reducible assumption
    | dsimp -zeta only
    | with_reducible refine keeps_startRun (hP.sub rfl) ?_
    | with_reducible refine keeps_insTrap (hP.sub rfl) ?_
    | with_reducible refine keeps_stepPc (hP.sub rfl) ?_
    | with_reducible refine keeps_setSeq (hP.sub rfl) ?_
    | intro _
    | with_reducible refine keeps_ite ?_ ?_
    | with_reducible refine keeps_ite_fst ?_ ?_
    | with_reducible refine keeps_pair (by assumption) ?_
    | split
    | fail_if_no_progress extract_lets
    | dsimp +zetaDelta only)

theorem keeps_openLoop {P : Nat} {s u : State} {a1 a2 a3 a4 a5} (hP : Fits 0x800000000000000000000000000000000000000000000000000000000000000c000000000000000 P) (h : Keeps P s u) :
    Keeps P s (State.openLoop u a1 a2 a3 a4 a5) := by
  unfold State.openLoop
  repeat' (first
    | with_reducible exact h
    | with_reducible assumption
    | dsimp -zeta only
    | with_reducible refine keeps_showPins (hP.sub rfl) ?_
    | with_reducible refine keeps_setSeq (hP.sub rfl) ?_
    | intro _
    | with_reducible refine keeps_ite ?_ ?_
    | with_reducible refine keeps_ite_fst ?_ ?_
    | with_reducible refine keeps_pair (by assumption) ?_
    | split
    | fail_if_no_progress extract_lets
    | dsimp +zetaDelta only)

theorem keeps_closeLoop {P : Nat} {s u : State} {a1} (hP : Fits 0x800000000000000000000000000000000000000000000000000000000000000c000000000000000 P) (h : Keeps P s u) :
    Keeps P s (State.closeLoop u a1) := by
  unfold State.closeLoop
  repeat' (first
    | with_reducible exact h
    | with_reducible assumption
    | dsimp -zeta only
    | with_reducible refine keeps_showPins (hP.sub rfl) ?_
    | with_reducible refine keeps_setSeq (hP.sub rfl) ?_
    | intro _
    | with_reducible refine keeps_ite ?_ ?_
    | with_reducible refine keeps_ite_fst ?_ ?_
    | with_reducible refine keeps_pair (by assumption) ?_
    | split
    | fail_if_no_progress extract_lets
    | dsimp +zetaDelta only)

theorem keeps_insLoop {P : Nat} {s u : State} {a1 a2 a3 a4} (hP : Fits 0xa5f9fdb000000000300000001016068002000a1002140a100000000000000000ecff01c15801000000 P) (h : Keeps P s u) :
    Keeps P s (State.insLoop u a1 a2 a3 a4) := by
  unfold State.insLoop
  repeat' (first
    | with_reducible exact h
    | with_reducible assumption
    | dsimp -zeta only
    | with_reducible refine keeps_needEntry (hP.sub rfl) ?_
    | with_reducible refine keeps_needEntry_eq (by assumption) (hP.sub rfl) ?_
    | with_reducible refine keeps_openLoop (hP.sub rfl) ?_
    | with_reducible refine keeps_insTrap (hP.sub rfl) ?_
    | with_reducible refine keeps_stepPc (hP.sub rfl) ?_
    | intro _
    | with_reducible refine keeps_ite ?_ ?_
    | with_reducible refine keeps_ite_fst ?_ ?_
    | with_reducible refine keeps_pair (by assumption) ?_
    | split
    | fail_if_no_progress extract_lets
    | dsimp +zetaDelta only)

theorem keeps_insEndl {P : Nat} {s u : State} {a1 a2} (hP : Fits 0xa5f9fdb000000000300000001016068002000a1002140a100000000000000000ecff01c15801000000 P) (h : Keeps P s u) :
    Keeps P s (State.insEndl u a1 a2) := by
  unfold State.insEndl
  repeat' (first
    | with_reducible exact h
    | with_reducible assumption
    | dsimp -zeta only
    | with_reducible refine keeps_branchActs (hP.sub rfl) ?_ ?_
    | with_reducible refine keeps_closeLoop (hP.sub rfl) ?_
    | with_reducible refine keeps_insTrap (hP.sub rfl) ?_
    | with_reducible refine keeps_stepPc (hP.sub rfl) ?_
    | with_reducible refine keeps_setSeq (hP.sub rfl) ?_
    | intro _
    | with_reducible refine keeps_ite ?_ ?_
    | with_reducible refine keeps_ite_fst ?_ ?_
    | with_reducible refine keeps_pair (by assumption) ?_
    | split
    | fail_if_no_progress extract_lets
    | dsimp +zetaDelta only)

theorem keeps_insJmp {P : Nat} {s u : State} {a1 a2} (hP : Fits 0xa5f9fdb000000000300000001016068002000a1002140a100000000000000000ecff01c15801000000 P) (h : Keeps P s u) :
    Keeps P s (State.insJmp u a1 a2) := by
  unfold State.insJmp
  repeat' (first
    | with_reducible exact h
    | with_reducible assumption
    | dsimp -zeta only
    | with_reducible refine keeps_branchTo (hP.sub rfl) ?_
    | intro _
    | with_reducible refine keeps_ite ?_ ?_
    | with_reducible refine keeps_ite_fst ?_ ?_
    | with_reducible refine keeps_pair (by assumption) ?_
    | split
    | fail_if_no_progress extract_lets
    | dsimp +zetaDelta only)

theorem keeps_insCall {P : Nat} {s u : State} {a1 a2} (hP : Fits 0xa5f9fdb000000000300000001016068002000a1002140a100000000000000000ecff01c15801000000 P) (h : Keeps P s u) :
    Keeps P s (State.insCall u a1 a2) := by
  unfold State.insCall
  repeat' (first
    | with_reducible exact h
    | with_reducible assumption
    | dsimp -zeta only
    | with_reducible refine keeps_branchActs (hP.sub rfl) ?_ ?_
    | with_reducible refine keeps_insTrap (hP.sub rfl) ?_
    | with_reducible refine keeps_setSeq (hP.sub rfl) ?_
    | intro _
    | with_reducible refine keeps_ite ?_ ?_
    | with_reducible refine keeps_ite_fst ?_ ?_
    | with_reducible refine keeps_pair (by assumption) ?_
    | split
    | fail_if_no_progress extract_lets
    | dsimp +zetaDelta only)

theorem keeps_insRet {P : Nat} {s u : State} {a1} (hP : Fits 0xa5f9fdb000000000300000001012068002000a1002140a1000000000000000006cff01c15801000000 P) (h : Keeps P s u) :
    Keeps P s (State.insRet u a1) := by
  unfold State.insRet
  repeat' (first
    | with_reducible exact h
    | with_reducible assumption
    | dsimp -zeta only
    | with_reducible refine keeps_takeBranch (hP.sub rfl) ?_
    | with_reducible refine keeps_insTrap (hP.sub rfl) ?_
    | with_reducible refine keeps_setSeq (hP.sub rfl) ?_
    | intro _
    | with_reducible refine keeps_ite ?_ ?_
    | with_reducible refine keeps_ite_fst ?_ ?_
    | with_reducible refine keeps_pair (by assumption) ?_
    | split
    | fail_if_no_progress extract_lets
    | dsimp +zetaDelta only)

theorem keeps_insJmpInd {P : Nat} {s u : State} {a1 a2} (hP : Fits 0xa5f9fdb000000000300000001016068002000a1002140a100000000000000000ecff01c15801000000 P) (h : Keeps P s u) :
    Keeps P s (State.insJmpInd u a1 a2) := by
  unfold State.insJmpInd
  repeat' (first
    | with_reducible exact h
    | with_reducible assumption
    | dsimp -zeta only
    | with_reducible refine keeps_branchTo (hP.sub rfl) ?_
    | intro _
    | with_reducible refine keeps_ite ?_ ?_
    | with_reducible refine keeps_ite_fst ?_ ?_
    | with_reducible refine keeps_pair (by assumption) ?_
    | split
    | fail_if_no_progress extract_lets
    | dsimp +zetaDelta only)

theorem keeps_insJmpAbs {P : Nat} {s u : State} {a1 a2} (hP : Fits 0xa5f9fdb000000000300000001012068002000a1002140a1000000000000000006dff01c15801000000 P) (h : Keeps P s u) :
    Keeps P s (State.insJmpAbs u a1 a2) := by
  unfold State.insJmpAbs
  repeat' (first
    | with_reducible exact h
    | with_reducible assumption
    | dsimp -zeta only
    | with_reducible refine keeps_beginHold (hP.sub rfl) ?_
    | with_reducible refine keeps_insTrap (hP.sub rfl) ?_
    | with_reducible refine keeps_stepPc (hP.sub rfl) ?_
    | intro _
    | with_reducible refine keeps_ite ?_ ?_
    | with_reducible refine keeps_ite_fst ?_ ?_
    | with_reducible refine keeps_pair (by assumption) ?_
    | split
    | fail_if_no_progress extract_lets
    | dsimp +zetaDelta only)

theorem keeps_insJmpAnz {P : Nat} {s u : State} {a1 a2 a3} (hP : Fits 0xa5f9fdb000000000300000001016068002000a1002140a100000000000000000ecff01c15801000000 P) (h : Keeps P s u) :
    Keeps P s (State.insJmpAnz u a1 a2 a3) := by
  unfold State.insJmpAnz
  repeat' (first
    | with_reducible exact h
    | with_reducible assumption
    | dsimp -zeta only
    | with_reducible refine keeps_branchActs (hP.sub rfl) ?_ ?_
    | with_reducible refine keeps_insTrap (hP.sub rfl) ?_
    | with_reducible refine keeps_setAlu (hP.sub rfl) ?_
    | with_reducible refine keeps_stepPc (hP.sub rfl) ?_
    | intro _
    | with_reducible refine keeps_ite ?_ ?_
    | with_reducible refine keeps_ite_fst ?_ ?_
    | with_reducible refine keeps_pair (by assumption) ?_
    | split
    | fail_if_no_progress extract_lets
    | dsimp +zetaDelta only)

theorem keeps_insFailMark {P : Nat} {s u : State} {a1} (hP : Fits 0x8000000000000000000000000000000000000000000000000000000000000000000000000000000 P) (h : Keeps P s u) :
    Keeps P s (State.insFailMark u a1) := by
  unfold State.insFailMark
  repeat' (first
    | with_reducible exact h
    | with_reducible assumption
    | dsimp -zeta only
    | with_reducible refine keeps_stepPc (hP.sub rfl) ?_
    | with_reducible refine keeps_setLeg (hP.sub rfl) ?_
    | intro _
    | with_reducible refine keeps_ite ?_ ?_
    | with_reducible refine keeps_ite_fst ?_ ?_
    | with_reducible refine keeps_pair (by assumption) ?_
    | split
    | fail_if_no_progress extract_lets
    | dsimp +zetaDelta only)

theorem keeps_failJump {P : Nat} {s u : State} {a1 a2 a3 a4} (hP : Fits 0xa5f9fdb000000000300000001016068002000a1002140a100000000000000000ecff01c15801000000 P) (h : Keeps P s u) :
    Keeps P s (State.failJump u a1 a2 a3 a4) := by
  unfold State.failJump
  repeat' (first
    | with_reducible exact h
    | with_reducible assumption
    | dsimp -zeta only
    | with_reducible refine keeps_startRun (hP.sub rfl) ?_
    | with_reducible refine keeps_branchTo (hP.sub rfl) ?_
    | with_reducible refine keeps_insTrap (hP.sub rfl) ?_
    | with_reducible refine keeps_stepPc (hP.sub rfl) ?_
    | intro _
    | with_reducible refine keeps_ite ?_ ?_
    | with_reducible refine keeps_ite_fst ?_ ?_
    | with_reducible refine keeps_pair (by assumption) ?_
    | split
    | fail_if_no_progress extract_lets
    | dsimp +zetaDelta only)

theorem keeps_insJmpFail {P : Nat} {s u : State} {a1 a2 a3} (hP : Fits 0xa5f9fdb000000000300000001016068002000a1002140a100000000000000000ecff01c15801000000 P) (h : Keeps P s u) :
    Keeps P s (State.insJmpFail u a1 a2 a3) := by
  unfold State.insJmpFail
  repeat' (first
    | with_reducible exact h
    | with_reducible assumption
    | dsimp -zeta only
    | with_reducible refine keeps_failJump (hP.sub rfl) ?_
    | intro _
    | with_reducible refine keeps_ite ?_ ?_
    | with_reducible refine keeps_ite_fst ?_ ?_
    | with_reducible refine keeps_pair (by assumption) ?_
    | split
    | fail_if_no_progress extract_lets
    | dsimp +zetaDelta only)

theorem keeps_insJmpPass {P : Nat} {s u : State} {a1 a2 a3} (hP : Fits 0xa5f9fdb000000000300000001016068002000a1002140a100000000000000000ecff01c15801000000 P) (h : Keeps P s u) :
    Keeps P s (State.insJmpPass u a1 a2 a3) := by
  unfold State.insJmpPass
  repeat' (first
    | with_reducible exact h
    | with_reducible assumption
    | dsimp -zeta only
    | with_reducible refine keeps_failJump (hP.sub rfl) ?_
    | intro _
    | with_reducible refine keeps_ite ?_ ?_
    | with_reducible refine keeps_ite_fst ?_ ?_
    | with_reducible refine keeps_pair (by assumption) ?_
    | split
    | fail_if_no_progress extract_lets
    | dsimp +zetaDelta only)

theorem keeps_moveBody {P : Nat} {s u : State} {a1 a2 a3 a4 a5} (hP : Fits 0x8188000000000000000000012068000000000000000000000000000000000004000010000000000 P) (h : Keeps P s u) :
    Keeps P s (State.moveBody u a1 a2 a3 a4 a5) := by
  unfold State.moveBody
  repeat' (first
    | with_reducible exact h
    | with_reducible assumption
    | dsimp -zeta only
    | with_reducible refine keeps_releaseIfDue (hP.sub rfl) ?_
    | with_reducible refine keeps_setPilot (hP.sub rfl) ?_
    | with_reducible refine keeps_wr hP rfl ?_
    | intro _
    | with_reducible refine keeps_ite ?_ ?_
    | with_reducible refine keeps_ite_fst ?_ ?_
    | with_reducible refine keeps_pair (by assumption) ?_
    | split
    | fail_if_no_progress extract_lets
    | dsimp +zetaDelta only)

theorem keeps_loadMatch {P : Nat} {s u : State} {a1 a2 a3 a4 a5} (hP : Fits 0x8188000000000000000000012068000000000000000000000000000000000004000010000000000 P) (h : Keeps P s u) :
    Keeps P s (State.loadMatch u a1 a2 a3 a4 a5) := by
  unfold State.loadMatch
  repeat' (first
    | with_reducible exact h
    | with_reducible assumption
    | dsimp -zeta only
    | with_reducible refine keeps_startRun (hP.sub rfl) ?_
    | with_reducible refine keeps_moveBody (hP.sub rfl) ?_
    | with_reducible refine keeps_stepPc (hP.sub rfl) ?_
    | intro _
    | with_reducible refine keeps_ite ?_ ?_
    | with_reducible refine keeps_ite_fst ?_ ?_
    | with_reducible refine keeps_pair (by assumption) ?_
    | split
    | fail_if_no_progress extract_lets
    | dsimp +zetaDelta only)

theorem keeps_insMatch {P : Nat} {s u : State} {a1 a2 a3 a4 a5} (hP : Fits 0xa5f9fdb000000000300000001012068002000a1002140a1000000000000000006cff01c15801000000 P) (h : Keeps P s u) :
    Keeps P s (State.insMatch u a1 a2 a3 a4 a5) := by
  unfold State.insMatch
  repeat' (first
    | with_reducible exact h
    | with_reducible assumption
    | dsimp -zeta only
    | with_reducible refine keeps_loadMatch (hP.sub rfl) ?_
    | with_reducible refine keeps_insTrap (hP.sub rfl) ?_
    | intro _
    | with_reducible refine keeps_ite ?_ ?_
    | with_reducible refine keeps_ite_fst ?_ ?_
    | with_reducible refine keeps_pair (by assumption) ?_
    | split
    | fail_if_no_progress extract_lets
    | dsimp +zetaDelta only)

theorem keeps_freeBits {P : Nat} {s u : State} {a1 a2 a3} (hP : Fits 0x8002000000000000000000000000000000000000000000000000000000000000000000000000000 P) (h : Keeps P s u) :
    Keeps P s (State.freeBits u a1 a2 a3) := by
  unfold State.freeBits
  repeat' (first
    | with_reducible exact h
    | with_reducible assumption
    | dsimp -zeta only
    | with_reducible refine keeps_setSeq (hP.sub rfl) ?_
    | with_reducible refine keeps_fresh (hP.sub rfl) ?_
    | with_reducible refine keeps_fresh_eq (by assumption) (hP.sub rfl) ?_
    | intro _
    | with_reducible refine keeps_ite ?_ ?_
    | with_reducible refine keeps_ite_fst ?_ ?_
    | with_reducible refine keeps_pair (by assumption) ?_
    | split
    | fail_if_no_progress extract_lets
    | dsimp +zetaDelta only)

theorem keeps_insPvCapt {P : Nat} {s u : State} {a1 a2 a3 a4} (hP : Fits 0x8002000000000000000000000000000000000000000000000000000000000000000000000000000 P) (h : Keeps P s u) :
    Keeps P s (State.insPvCapt u a1 a2 a3 a4) := by
  unfold State.insPvCapt
  repeat' (first
    | with_reducible exact h
    | with_reducible assumption
    | dsimp -zeta only
    | with_reducible refine keeps_startRun (hP.sub rfl) ?_
    | with_reducible refine keeps_freeBits (hP.sub rfl) ?_
    | with_reducible refine keeps_stepPc (hP.sub rfl) ?_
    | with_reducible refine keeps_setLeg (hP.sub rfl) ?_
    | intro _
    | with_reducible refine keeps_ite ?_ ?_
    | with_reducible refine keeps_ite_fst ?_ ?_
    | with_reducible refine keeps_pair (by assumption) ?_
    | split
    | fail_if_no_progress extract_lets
    | dsimp +zetaDelta only)

theorem keeps_insAluSet {P : Nat} {s u : State} {a1 a2 a3} (hP : Fits 0x8000000000000000000000000000000000000000000000000000000000000000000000000000000 P) (h : Keeps P s u) :
    Keeps P s (State.insAluSet u a1 a2 a3) := by
  unfold State.insAluSet
  repeat' (first
    | with_reducible exact h
    | with_reducible assumption
    | dsimp -zeta only
    | with_reducible refine keeps_stepPc (hP.sub rfl) ?_
    | with_reducible refine keeps_setAlu (hP.sub rfl) ?_
    | intro _
    | with_reducible refine keeps_ite ?_ ?_
    | with_reducible refine keeps_ite_fst ?_ ?_
    | with_reducible refine keeps_pair (by assumption) ?_
    | split
    | fail_if_no_progress extract_lets
    | dsimp +zetaDelta only)

theorem keeps_insAluAdd {P : Nat} {s u : State} {a1 a2 a3} (hP : Fits 0x8000000000000000000000000000000000000000000000000000000000000000000000000000000 P) (h : Keeps P s u) :
    Keeps P s (State.insAluAdd u a1 a2 a3) := by
  unfold State.insAluAdd
  repeat' (first
    | with_reducible exact h
    | with_reducible assumption
    | dsimp -zeta only
    | with_reducible refine keeps_stepPc (hP.sub rfl) ?_
    | with_reducible refine keeps_setAlu (hP.sub rfl) ?_
    | intro _
    | with_reducible refine keeps_ite ?_ ?_
    | with_reducible refine keeps_ite_fst ?_ ?_
    | with_reducible refine keeps_pair (by assumption) ?_
    | split
    | fail_if_no_progress extract_lets
    | dsimp +zetaDelta only)

theorem keeps_insWaitOdo {P : Nat} {s u : State} {a1 a2 a3} (hP : Fits 0xa5f9fdb000000000300000001012068002000a1002140a1000000000000000006cff01c15801000000 P) (h : Keeps P s u) :
    Keeps P s (State.insWaitOdo u a1 a2 a3) := by
  unfold State.insWaitOdo
  repeat' (first
    | with_reducible exact h
    | with_reducible assumption
    | dsimp -zeta only
    | with_reducible refine keeps_startRun (hP.sub rfl) ?_
    | with_reducible refine keeps_insTrap (hP.sub rfl) ?_
    | with_reducible refine keeps_stepPc (hP.sub rfl) ?_
    | with_reducible refine keeps_setSeq (hP.sub rfl) ?_
    | with_reducible refine keeps_fput hP rfl ?_
    | intro _
    | with_reducible refine keeps_ite ?_ ?_
    | with_reducible refine keeps_ite_fst ?_ ?_
    | with_reducible refine keeps_pair (by assumption) ?_
    | split
    | fail_if_no_progress extract_lets
    | dsimp +zetaDelta only)

theorem keeps_insMsPost {P : Nat} {s u : State} {a1 a2 a3} (hP : Fits 0x8000000000000000000000000000000000000000000000000000000000000000000000000000000 P) (h : Keeps P s u) :
    Keeps P s (State.insMsPost u a1 a2 a3) := by
  unfold State.insMsPost
  repeat' (first
    | with_reducible exact h
    | with_reducible assumption
    | dsimp -zeta only
    | with_reducible refine keeps_stepPc (hP.sub rfl) ?_
    | with_reducible refine keeps_defer (hP.sub rfl) ?_
    | intro _
    | with_reducible refine keeps_ite ?_ ?_
    | with_reducible refine keeps_ite_fst ?_ ?_
    | with_reducible refine keeps_pair (by assumption) ?_
    | split
    | fail_if_no_progress extract_lets
    | dsimp +zetaDelta only)

theorem keeps_insLegendSel {P : Nat} {s u : State} {a1 a2} (hP : Fits 0x8000000000000000000000000000000000000000000000000000000000000000000000000000000 P) (h : Keeps P s u) :
    Keeps P s (State.insLegendSel u a1 a2) := by
  unfold State.insLegendSel
  repeat' (first
    | with_reducible exact h
    | with_reducible assumption
    | dsimp -zeta only
    | with_reducible refine keeps_stepPc (hP.sub rfl) ?_
    | with_reducible refine keeps_setSeq (hP.sub rfl) ?_
    | intro _
    | with_reducible refine keeps_ite ?_ ?_
    | with_reducible refine keeps_ite_fst ?_ ?_
    | with_reducible refine keeps_pair (by assumption) ?_
    | split
    | fail_if_no_progress extract_lets
    | dsimp +zetaDelta only)

theorem keeps_insTset {P : Nat} {s u : State} {a1 a2} (hP : Fits 0x8000000000000000000000000000000000000000000000000000000000000000000000000000000 P) (h : Keeps P s u) :
    Keeps P s (State.insTset u a1 a2) := by
  unfold State.insTset
  repeat' (first
    | with_reducible exact h
    | with_reducible assumption
    | dsimp -zeta only
    | with_reducible refine keeps_stepPc (hP.sub rfl) ?_
    | with_reducible refine keeps_setSeq (hP.sub rfl) ?_
    | intro _
    | with_reducible refine keeps_ite ?_ ?_
    | with_reducible refine keeps_ite_fst ?_ ?_
    | with_reducible refine keeps_pair (by assumption) ?_
    | split
    | fail_if_no_progress extract_lets
    | dsimp +zetaDelta only)

theorem keeps_insWaypt {P : Nat} {s u : State} {a1 a2} (hP : Fits 0xa5f9fdb000000000300000001012068002000a1002140a1000000000000000006dff01c15801000000 P) (h : Keeps P s u) :
    Keeps P s (State.insWaypt u a1 a2) := by
  unfold State.insWaypt
  repeat' (first
    | with_reducible exact h
    | with_reducible assumption
    | dsimp -zeta only
    | with_reducible refine keeps_rowBeyond (hP.sub rfl) ?_
    | with_reducible refine keeps_rowBeyond_eq (by assumption) (hP.sub rfl) ?_
    | with_reducible refine keeps_beginHold (hP.sub rfl) ?_
    | with_reducible refine keeps_insTrap (hP.sub rfl) ?_
    | with_reducible refine keeps_stepPc (hP.sub rfl) ?_
    | with_reducible refine keeps_setSeq (hP.sub rfl) ?_
    | intro _
    | with_reducible refine keeps_ite ?_ ?_
    | with_reducible refine keeps_ite_fst ?_ ?_
    | with_reducible refine keeps_pair (by assumption) ?_
    | split
    | fail_if_no_progress extract_lets
    | dsimp +zetaDelta only)

theorem keeps_insCapCtl {P : Nat} {s u : State} {a1 a2 a3 a4} (hP : Fits 0xa5f9fdb000000000300000001012068002000a1002140a1000000000000000006cff01c15801000000 P) (h : Keeps P s u) :
    Keeps P s (State.insCapCtl u a1 a2 a3 a4) := by
  unfold State.insCapCtl
  repeat' (first
    | with_reducible exact h
    | with_reducible assumption
    | dsimp -zeta only
    | with_reducible refine keeps_insTrap (hP.sub rfl) ?_
    | with_reducible refine keeps_stepPc (hP.sub rfl) ?_
    | with_reducible refine keeps_setStr (hP.sub rfl) ?_
    | intro _
    | with_reducible refine keeps_ite ?_ ?_
    | with_reducible refine keeps_ite_fst ?_ ?_
    | with_reducible refine keeps_pair (by assumption) ?_
    | split
    | fail_if_no_progress extract_lets
    | dsimp +zetaDelta only)

theorem keeps_insFfailArm {P : Nat} {s u : State} {a1} (hP : Fits 0x81e859b000000000300000000012068000000a1002140a100000000000000000000100000000000000 P) (h : Keeps P s u) :
    Keeps P s (State.insFfailArm u a1) := by
  unfold State.insFfailArm
  repeat' (first
    | with_reducible exact h
    | with_reducible assumption
    | dsimp -zeta only
    | with_reducible refine keeps_ffRearm (hP.sub rfl) ?_
    | with_reducible refine keeps_stepPc (hP.sub rfl) ?_
    | intro _
    | with_reducible refine keeps_ite ?_ ?_
    | with_reducible refine keeps_ite_fst ?_ ?_
    | with_reducible refine keeps_pair (by assumption) ?_
    | split
    | fail_if_no_progress extract_lets
    | dsimp +zetaDelta only)

theorem keeps_insSxtWin {P : Nat} {s u : State} {a1 a2 a3 a4} (hP : Fits 0xa5f9fdb000000000300000001012068002000a1002140a1000000000000000006cff01c15801000000 P) (h : Keeps P s u) :
    Keeps P s (State.insSxtWin u a1 a2 a3 a4) := by
  unfold State.insSxtWin
  repeat' (first
    | with_reducible exact h
    | with_reducible assumption
    | dsimp -zeta only
    | with_reducible refine keeps_insTrap (hP.sub rfl) ?_
    | with_reducible refine keeps_stepPc (hP.sub rfl) ?_
    | with_reducible refine keeps_defer (hP.sub rfl) ?_
    | intro _
    | with_reducible refine keeps_ite ?_ ?_
    | with_reducible refine keeps_ite_fst ?_ ?_
    | with_reducible refine keeps_pair (by assumption) ?_
    | split
    | fail_if_no_progress extract_lets
    | dsimp +zetaDelta only)

theorem keeps_insSxtArm {P : Nat} {s u : State} {a1 a2 a3} (hP : Fits 0xa5f9fdb000000000300000001012068002000a1002140a1000000000000000006cff01c15801000000 P) (h : Keeps P s u) :
    Keeps P s (State.insSxtArm u a1 a2 a3) := by
  unfold State.insSxtArm
  repeat' (first
    | with_reducible exact h
    | with_reducible assumption
    | dsimp -zeta only
    | with_reducible refine keeps_insTrap (hP.sub rfl) ?_
    | with_reducible refine keeps_stepPc (hP.sub rfl) ?_
    | with_reducible refine keeps_defer (hP.sub rfl) ?_
    | intro _
    | with_reducible refine keeps_ite ?_ ?_
    | with_reducible refine keeps_ite_fst ?_ ?_
    | with_reducible refine keeps_pair (by assumption) ?_
    | split
    | fail_if_no_progress extract_lets
    | dsimp +zetaDelta only)

theorem keeps_insDdsHop {P : Nat} {s u : State} {a1 a2 a3} (hP : Fits 0xa5f9fdb000000000300000001012068002000a1002140a1000000000000000006cff01c15801000000 P) (h : Keeps P s u) :
    Keeps P s (State.insDdsHop u a1 a2 a3) := by
  unfold State.insDdsHop
  repeat' (first
    | with_reducible exact h
    | with_reducible assumption
    | dsimp -zeta only
    | with_reducible refine keeps_insTrap (hP.sub rfl) ?_
    | with_reducible refine keeps_stepPc (hP.sub rfl) ?_
    | with_reducible refine keeps_defer (hP.sub rfl) ?_
    | intro _
    | with_reducible refine keeps_ite ?_ ?_
    | with_reducible refine keeps_ite_fst ?_ ?_
    | with_reducible refine keeps_pair (by assumption) ?_
    | split
    | fail_if_no_progress extract_lets
    | dsimp +zetaDelta only)

theorem keeps_insPvLoad {P : Nat} {s u : State} {a1 a2 a3} (hP : Fits 0x8000000000000000000000000000000000000000000000000000000000000000000000000000000 P) (h : Keeps P s u) :
    Keeps P s (State.insPvLoad u a1 a2 a3) := by
  unfold State.insPvLoad
  repeat' (first
    | with_reducible exact h
    | with_reducible assumption
    | dsimp -zeta only
    | with_reducible refine keeps_stepPc (hP.sub rfl) ?_
    | with_reducible refine keeps_setSeq (hP.sub rfl) ?_
    | intro _
    | with_reducible refine keeps_ite ?_ ?_
    | with_reducible refine keeps_ite_fst ?_ ?_
    | with_reducible refine keeps_pair (by assumption) ?_
    | split
    | fail_if_no_progress extract_lets
    | dsimp +zetaDelta only)

theorem keeps_insPvXor {P : Nat} {s u : State} {a1 a2 a3} (hP : Fits 0x8000000000000000000000000000000000000000000000000000000000000000000000000000000 P) (h : Keeps P s u) :
    Keeps P s (State.insPvXor u a1 a2 a3) := by
  unfold State.insPvXor
  repeat' (first
    | with_reducible exact h
    | with_reducible assumption
    | dsimp -zeta only
    | with_reducible refine keeps_stepPc (hP.sub rfl) ?_
    | with_reducible refine keeps_setSeq (hP.sub rfl) ?_
    | intro _
    | with_reducible refine keeps_ite ?_ ?_
    | with_reducible refine keeps_ite_fst ?_ ?_
    | with_reducible refine keeps_pair (by assumption) ?_
    | split
    | fail_if_no_progress extract_lets
    | dsimp +zetaDelta only)

theorem keeps_needLeg {P : Nat} {s u : State} {a1 a2} (hP : Fits 0xa5f9fdb000000000300000001016068002000a1002140a100000000000000000ecff01c15801000000 P) (h : Keeps P s u) :
    Keeps P s (State.needLeg u a1 a2).1 := by
  unfold State.needLeg
  repeat' (first
    | with_reducible exact h
    | with_reducible assumption
    | dsimp -zeta only
    | with_reducible refine keeps_fetchPoison (hP.sub rfl) ?_
    | with_reducible refine keeps_fetchFault (hP.sub rfl) ?_
    | with_reducible refine keeps_legEntry (hP.sub rfl) ?_
    | with_reducible refine keeps_legEntry_eq (by assumption) (hP.sub rfl) ?_
    | intro _
    | with_reducible refine keeps_ite ?_ ?_
    | with_reducible refine keeps_ite_fst ?_ ?_
    | with_reducible refine keeps_pair (by assumption) ?_
    | split
    | fail_if_no_progress extract_lets
    | dsimp +zetaDelta only)

theorem keeps_needLeg_eq {P : Nat} {s u v : State} {a1 a2} {x} (he : State.needLeg u a1 a2 = (v, x)) (hP : Fits 0xa5f9fdb000000000300000001016068002000a1002140a100000000000000000ecff01c15801000000 P)
    (h : Keeps P s u) : Keeps P s v := by
  have h1 := keeps_needLeg (a1 := a1) (a2 := a2) hP h
  rw [he] at h1
  exact h1

theorem keeps_awaitStart {P : Nat} {s u : State} {a1 a2 a3} (hP : Fits 0xa5f8fdb000000000300000000012068002000a1002140a1000000000000000006cf101410000000000 P) (h : Keeps P s u) :
    Keeps P s (State.awaitStart u a1 a2 a3) := by
  unfold State.awaitStart
  repeat' (first
    | with_reducible exact h
    | with_reducible assumption
    | dsimp -zeta only
    | with_reducible refine keeps_setPilot (hP.sub rfl) ?_
    | with_reducible refine keeps_endJob (hP.sub rfl) ?_
    | intro _
    | with_reducible refine keeps_ite ?_ ?_
    | with_reducible refine keeps_ite_fst ?_ ?_
    | with_reducible refine keeps_pair (by assumption) ?_
    | split
    | fail_if_no_progress extract_lets
    | dsimp +zetaDelta only)

theorem keeps_insLegStart {P : Nat} {s u : State} {a1 a2} (hP : Fits 0xa5f9fdb000000000300000001016068002000a1002140a100000000000000000ecff01c15801000000 P) (h : Keeps P s u) :
    Keeps P s (State.insLegStart u a1 a2) := by
  unfold State.insLegStart
  repeat' (first
    | with_reducible exact h
    | with_reducible assumption
    | dsimp -zeta only
    | with_reducible refine keeps_awaitStart (hP.sub rfl) ?_
    | with_reducible refine keeps_insTrap (hP.sub rfl) ?_
    | with_reducible refine keeps_needLeg (hP.sub rfl) ?_
    | with_reducible refine keeps_needLeg_eq (by assumption) (hP.sub rfl) ?_
    | with_reducible refine keeps_stepPc (hP.sub rfl) ?_
    | intro _
    | with_reducible refine keeps_ite ?_ ?_
    | with_reducible refine keeps_ite_fst ?_ ?_
    | with_reducible refine keeps_pair (by assumption) ?_
    | split
    | fail_if_no_progress extract_lets
    | dsimp +zetaDelta only)

theorem keeps_insEndLeg {P : Nat} {s u : State} {a1 a2} (hP : Fits 0x8000000000000000000000000000000000000000000000000000000000000000000000000000000 P) (h : Keeps P s u) :
    Keeps P s (State.insEndLeg u a1 a2) := by
  unfold State.insEndLeg
  repeat' (first
    | with_reducible exact h
    | with_reducible assumption
    | dsimp -zeta only
    | with_reducible refine keeps_stepPc (hP.sub rfl) ?_
    | with_reducible refine keeps_setLeg (hP.sub rfl) ?_
    | intro _
    | with_reducible refine keeps_ite ?_ ?_
    | with_reducible refine keeps_ite_fst ?_ ?_
    | with_reducible refine keeps_pair (by assumption) ?_
    | split
    | fail_if_no_progress extract_lets
    | dsimp +zetaDelta only)

theorem keeps_ucodeUe {P : Nat} {s u : State} {a1 a2} (hP : Fits 0xa5f9fdb000000000300000001016068002000a1002140a100000000000000000ecff01c15801000000 P) (h : Keeps P s u) :
    Keeps P s (State.ucodeUe u a1 a2) := by
  unfold State.ucodeUe
  repeat' (first
    | with_reducible exact h
    | with_reducible assumption
    | dsimp -zeta only
    | with_reducible refine keeps_resumableTrap (hP.sub rfl) ?_
    | with_reducible refine keeps_fatalTrap (hP.sub rfl) ?_
    | intro _
    | with_reducible refine keeps_ite ?_ ?_
    | with_reducible refine keeps_ite_fst ?_ ?_
    | with_reducible refine keeps_pair (by assumption) ?_
    | split
    | fail_if_no_progress extract_lets
    | dsimp +zetaDelta only)

theorem keeps_stepTrap {P : Nat} {s u : State} {a1} (hP : Fits 0xa5f9fdb000000000300000001016068002000a1002140a100000000000000000ecff01c15801000000 P) (h : Keeps P s u) :
    Keeps P s (State.stepTrap u a1) := by
  unfold State.stepTrap
  repeat' (first
    | with_reducible exact h
    | with_reducible assumption
    | dsimp -zeta only
    | with_reducible refine keeps_resumableTrap (hP.sub rfl) ?_
    | intro _
    | with_reducible refine keeps_ite ?_ ?_
    | with_reducible refine keeps_ite_fst ?_ ?_
    | with_reducible refine keeps_pair (by assumption) ?_
    | split
    | fail_if_no_progress extract_lets
    | dsimp +zetaDelta only)

theorem keeps_dispatch {P : Nat} {s u : State} {a1 a2 a3} (hP : Fits 0x8000000000000000000000000000000000000000000000000000000000000000000000000000000 P) (h : Keeps P s u) :
    Keeps P s (State.dispatch u a1 a2 a3) := by
  unfold State.dispatch
  repeat' (first
    | with_reducible exact h
    | with_reducible assumption
    | dsimp -zeta only
    | with_reducible refine keeps_setSeq (hP.sub rfl) ?_
    | intro _
    | with_reducible refine keeps_ite ?_ ?_
    | with_reducible refine keeps_ite_fst ?_ ?_
    | with_reducible refine keeps_pair (by assumption) ?_
    | split
    | fail_if_no_progress extract_lets
    | dsimp +zetaDelta only)

theorem keeps_dispatchBad {P : Nat} {s u : State} {a1 a2} (hP : Fits 0x8002000000000000000000000000000000000000000000000000000000000000000000000000000 P) (h : Keeps P s u) :
    Keeps P s (State.dispatchBad u a1 a2) := by
  unfold State.dispatchBad
  repeat' (first
    | with_reducible exact h
    | with_reducible assumption
    | dsimp -zeta only
    | with_reducible refine keeps_dispatch (hP.sub rfl) ?_
    | with_reducible refine keeps_fresh (hP.sub rfl) ?_
    | with_reducible refine keeps_fresh_eq (by assumption) (hP.sub rfl) ?_
    | intro _
    | with_reducible refine keeps_ite ?_ ?_
    | with_reducible refine keeps_ite_fst ?_ ?_
    | with_reducible refine keeps_pair (by assumption) ?_
    | split
    | fail_if_no_progress extract_lets
    | dsimp +zetaDelta only)

theorem keeps_passBreak {P : Nat} {s u : State} {a1} (hP : Fits 0x8000000000000000000000000000000000000000000000000000000000000000000000000000000 P) (h : Keeps P s u) :
    Keeps P s (State.passBreak u a1) := by
  unfold State.passBreak
  repeat' (first
    | with_reducible exact h
    | with_reducible assumption
    | dsimp -zeta only
    | with_reducible refine keeps_setSeq (hP.sub rfl) ?_
    | intro _
    | with_reducible refine keeps_ite ?_ ?_
    | with_reducible refine keeps_ite_fst ?_ ?_
    | with_reducible refine keeps_pair (by assumption) ?_
    | split
    | fail_if_no_progress extract_lets
    | dsimp +zetaDelta only)

theorem keeps_takeInstr {P : Nat} {s u : State} {a1 a2 a3} (hP : Fits 0xa5fdfdb000000000300000001016068002000a1002140a100000000000000000ecff0fc15801000000 P) (h3 : ∀ v, Keeps P s v → Keeps P s (a3 v)) (h : Keeps P s u) :
    Keeps P s (State.takeInstr u a1 a2 a3) := by
  unfold State.takeInstr
  repeat' (first
    | with_reducible exact h
    | with_reducible assumption
    | dsimp -zeta only
    | with_reducible refine keeps_dispatchBad (hP.sub rfl) ?_
    | with_reducible refine keeps_breakTrap (hP.sub rfl) ?_
    | with_reducible refine keeps_passBreak (hP.sub rfl) ?_
    | with_reducible refine keeps_dispatch (hP.sub rfl) ?_
    | with_reducible refine keeps_stepTrap (hP.sub rfl) ?_
    | with_reducible refine keeps_leadWord (hP.sub rfl) ?_
    | with_reducible refine keeps_leadWord_eq (by assumption) (hP.sub rfl) ?_
    | with_reducible refine keeps_insTrap (hP.sub rfl) ?_
    | with_reducible refine keeps_ucodeUe (hP.sub rfl) ?_
    | with_reducible refine keeps_readCs (hP.sub rfl) ?_
    | with_reducible refine keeps_readCs_eq (by assumption) (hP.sub rfl) ?_
    | with_reducible refine h3 _ ?_
    | intro _
    | with_reducible refine keeps_ite ?_ ?_
    | with_reducible refine keeps_ite_fst ?_ ?_
    | with_reducible refine keeps_pair (by assumption) ?_
    | split
    | fail_if_no_progress extract_lets
    | dsimp +zetaDelta only)

theorem keeps_takeUser {P : Nat} {s u : State} {a1 a2} (hP : Fits 0xa5fdfdb000000000300000001016068002000a1002140a100000000000000000ecff0fc15801000000 P) (h : Keeps P s u) :
    Keeps P s (State.takeUser u a1 a2) := by
  unfold State.takeUser
  repeat' (first
    | with_reducible exact h
    | with_reducible assumption
    | dsimp -zeta only
    | with_reducible refine keeps_dispatchBad (hP.sub rfl) ?_
    | with_reducible refine keeps_dispatch (hP.sub rfl) ?_
    | with_reducible refine keeps_insTrap (hP.sub rfl) ?_
    | with_reducible refine keeps_ucodeUe (hP.sub rfl) ?_
    | with_reducible refine keeps_readCs (hP.sub rfl) ?_
    | with_reducible refine keeps_readCs_eq (by assumption) (hP.sub rfl) ?_
    | with_reducible refine keeps_setSeq (hP.sub rfl) ?_
    | intro _
    | with_reducible refine keeps_ite ?_ ?_
    | with_reducible refine keeps_ite_fst ?_ ?_
    | with_reducible refine keeps_pair (by assumption) ?_
    | split
    | fail_if_no_progress extract_lets
    | dsimp +zetaDelta only)

theorem keeps_execNop {P : Nat} {u t : State} {a0} (he : execNop a0 u = .next t) (hP : Fits 0xa5fdfdb000000000300000001016068002000a1002140a100000000000000000ecff0fc15801000000 P) : Keeps P u t := by
  unfold execNop at he
  injection he with he
  subst he
  repeat' (first
    | with_reducible exact Keeps.refl P u
    | with_reducible assumption
    | dsimp -zeta only
    | with_reducible refine keeps_takeInstr (hP.sub rfl) ?_ ?_
    | with_reducible refine keeps_insNop (hP.sub rfl) ?_
    | intro _
    | with_reducible refine keeps_ite ?_ ?_
    | with_reducible refine keeps_ite_fst ?_ ?_
    | with_reducible refine keeps_pair (by assumption) ?_
    | split
    | fail_if_no_progress extract_lets
    | dsimp +zetaDelta only)

theorem keeps_execVec {P : Nat} {u t : State} {a0 a1} (he : execVec a0 a1 u = .next t) (hP : Fits 0xa5fdfdb000000000300000001016068002000a1002140a100000000000000000ecff0fc15801000000 P) : Keeps P u t := by
  unfold execVec at he
  injection he with he
  subst he
  repeat' (first
    | with_reducible exact Keeps.refl P u
    | with_reducible assumption
    | dsimp -zeta only
    | with_reducible refine keeps_takeInstr (hP.sub rfl) ?_ ?_
    | with_reducible refine keeps_insVec (hP.sub rfl) ?_
    | intro _
    | with_reducible refine keeps_ite ?_ ?_
    | with_reducible refine keeps_ite_fst ?_ ?_
    | with_reducible refine keeps_pair (by assumption) ?_
    | split
    | fail_if_no_progress extract_lets
    | dsimp +zetaDelta only)

theorem keeps_execRpt {P : Nat} {u t : State} {a0 a1} (he : execRpt a0 a1 u = .next t) (hP : Fits 0xa5fdfdb000000000300000001016068002000a1002140a100000000000000000ecff0fc15801000000 P) : Keeps P u t := by
  unfold execRpt at he
  injection he with he
  subst he
  repeat' (first
    | with_reducible exact Keeps.refl P u
    | with_reducible assumption
    | dsimp -zeta only
    | with_reducible refine keeps_takeInstr (hP.sub rfl) ?_ ?_
    | with_reducible refine keeps_insRpt (hP.sub rfl) ?_
    | intro _
    | with_reducible refine keeps_ite ?_ ?_
    | with_reducible refine keeps_ite_fst ?_ ?_
    | with_reducible refine keeps_pair (by assumption) ?_
    | split
    | fail_if_no_progress extract_lets
    | dsimp +zetaDelta only)

theorem keeps_execPad {P : Nat} {u t : State} {a0 a1} (he : execPad a0 a1 u = .next t) (hP : Fits 0xa5fdfdb000000000300000001016068002000a1002140a100000000000000000ecff0fc15801000000 P) : Keeps P u t := by
  unfold execPad at he
  injection he with he
  subst he
  repeat' (first
    | with_reducible exact Keeps.refl P u
    | with_reducible assumption
    | dsimp -zeta only
    | with_reducible refine keeps_takeInstr (hP.sub rfl) ?_ ?_
    | with_reducible refine keeps_insPad (hP.sub rfl) ?_
    | intro _
    | with_reducible refine keeps_ite ?_ ?_
    | with_reducible refine keeps_ite_fst ?_ ?_
    | with_reducible refine keeps_pair (by assumption) ?_
    | split
    | fail_if_no_progress extract_lets
    | dsimp +zetaDelta only)

theorem keeps_execLoop {P : Nat} {u t : State} {a0 a1 a2 a3} (he : execLoop a0 a1 a2 a3 u = .next t) (hP : Fits 0xa5fdfdb000000000300000001016068002000a1002140a100000000000000000ecff0fc15801000000 P) : Keeps P u t := by
  unfold execLoop at he
  injection he with he
  subst he
  repeat' (first
    | with_reducible exact Keeps.refl P u
    | with_reducible assumption
    | dsimp -zeta only
    | with_reducible refine keeps_takeInstr (hP.sub rfl) ?_ ?_
    | with_reducible refine keeps_insLoop (hP.sub rfl) ?_
    | intro _
    | with_reducible refine keeps_ite ?_ ?_
    | with_reducible refine keeps_ite_fst ?_ ?_
    | with_reducible refine keeps_pair (by assumption) ?_
    | split
    | fail_if_no_progress extract_lets
    | dsimp +zetaDelta only)

theorem keeps_execEndl {P : Nat} {u t : State} {a0 a1} (he : execEndl a0 a1 u = .next t) (hP : Fits 0xa5fdfdb000000000300000001016068002000a1002140a100000000000000000ecff0fc15801000000 P) : Keeps P u t := by
  unfold execEndl at he
  injection he with he
  subst he
  repeat' (first
    | with_reducible exact Keeps.refl P u
    | with_reducible assumption
    | dsimp -zeta only
    | with_reducible refine keeps_takeInstr (hP.sub rfl) ?_ ?_
    | with_reducible refine keeps_insEndl (hP.sub rfl) ?_
    | intro _
    | with_reducible refine keeps_ite ?_ ?_
    | with_reducible refine keeps_ite_fst ?_ ?_
    | with_reducible refine keeps_pair (by assumption) ?_
    | split
    | fail_if_no_progress extract_lets
    | dsimp +zetaDelta only)

theorem keeps_execJmp {P : Nat} {u t : State} {a0 a1} (he : execJmp a0 a1 u = .next t) (hP : Fits 0xa5fdfdb000000000300000001016068002000a1002140a100000000000000000ecff0fc15801000000 P) : Keeps P u t := by
  unfold execJmp at he
  injection he with he
  subst he
  repeat' (first
    | with_reducible exact Keeps.refl P u
    | with_reducible assumption
    | dsimp -zeta only
    | with_reducible refine keeps_takeInstr (hP.sub rfl) ?_ ?_
    | with_reducible refine keeps_insJmp (hP.sub rfl) ?_
    | intro _
    | with_reducible refine keeps_ite ?_ ?_
    | with_reducible refine keeps_ite_fst ?_ ?_
    | with_reducible refine keeps_pair (by assumption) ?_
    | split
    | fail_if_no_progress extract_lets
    | dsimp +zetaDelta only)

theorem keeps_execCall {P : Nat} {u t : State} {a0 a1} (he : execCall a0 a1 u = .next t) (hP : Fits 0xa5fdfdb000000000300000001016068002000a1002140a100000000000000000ecff0fc15801000000 P) : Keeps P u t := by
  unfold execCall at he
  injection he with he
  subst he
  repeat' (first
    | with_reducible exact Keeps.refl P u
    | with_reducible assumption
    | dsimp -zeta only
    | with_reducible refine keeps_takeInstr (hP.sub rfl) ?_ ?_
    | with_reducible refine keeps_insCall (hP.sub rfl) ?_
    | intro _
    | with_reducible refine keeps_ite ?_ ?_
    | with_reducible refine keeps_ite_fst ?_ ?_
    | with_reducible refine keeps_pair (by assumption) ?_
    | split
    | fail_if_no_progress extract_lets
    | dsimp +zetaDelta only)

theorem keeps_execRet {P : Nat} {u t : State} {a0} (he : execRet a0 u = .next t) (hP : Fits 0xa5fdfdb000000000300000001016068002000a1002140a100000000000000000ecff0fc15801000000 P) : Keeps P u t := by
  unfold execRet at he
  injection he with he
  subst he
  repeat' (first
    | with_reducible exact Keeps.refl P u
    | with_reducible assumption
    | dsimp -zeta only
    | with_reducible refine keeps_takeInstr (hP.sub rfl) ?_ ?_
    | with_reducible refine keeps_insRet (hP.sub rfl) ?_
    | intro _
    | with_reducible refine keeps_ite ?_ ?_
    | with_reducible refine keeps_ite_fst ?_ ?_
    | with_reducible refine keeps_pair (by assumption) ?_
    | split
    | fail_if_no_progress extract_lets
    | dsimp +zetaDelta only)

theorem keeps_execFailMark {P : Nat} {u t : State} {a0} (he : execFailMark a0 u = .next t) (hP : Fits 0xa5fdfdb000000000300000001016068002000a1002140a100000000000000000ecff0fc15801000000 P) : Keeps P u t := by
  unfold execFailMark at he
  injection he with he
  subst he
  repeat' (first
    | with_reducible exact Keeps.refl P u
    | with_reducible assumption
    | dsimp -zeta only
    | with_reducible refine keeps_insFailMark (hP.sub rfl) ?_
    | with_reducible refine keeps_takeInstr (hP.sub rfl) ?_ ?_
    | intro _
    | with_reducible refine keeps_ite ?_ ?_
    | with_reducible refine keeps_ite_fst ?_ ?_
    | with_reducible refine keeps_pair (by assumption) ?_
    | split
    | fail_if_no_progress extract_lets
    | dsimp +zetaDelta only)

theorem keeps_execJmpFail {P : Nat} {u t : State} {a0 a1 a2} (he : execJmpFail a0 a1 a2 u = .next t) (hP : Fits 0xa5fdfdb000000000300000001016068002000a1002140a100000000000000000ecff0fc15801000000 P) : Keeps P u t := by
  unfold execJmpFail at he
  injection he with he
  subst he
  repeat' (first
    | with_reducible exact Keeps.refl P u
    | with_reducible assumption
    | dsimp -zeta only
    | with_reducible refine keeps_insJmpFail (hP.sub rfl) ?_
    | with_reducible refine keeps_takeInstr (hP.sub rfl) ?_ ?_
    | intro _
    | with_reducible refine keeps_ite ?_ ?_
    | with_reducible refine keeps_ite_fst ?_ ?_
    | with_reducible refine keeps_pair (by assumption) ?_
    | split
    | fail_if_no_progress extract_lets
    | dsimp +zetaDelta only)

theorem keeps_execJmpPass {P : Nat} {u t : State} {a0 a1 a2} (he : execJmpPass a0 a1 a2 u = .next t) (hP : Fits 0xa5fdfdb000000000300000001016068002000a1002140a100000000000000000ecff0fc15801000000 P) : Keeps P u t := by
  unfold execJmpPass at he
  injection he with he
  subst he
  repeat' (first
    | with_reducible exact Keeps.refl P u
    | with_reducible assumption
    | dsimp -zeta only
    | with_reducible refine keeps_insJmpPass (hP.sub rfl) ?_
    | with_reducible refine keeps_takeInstr (hP.sub rfl) ?_ ?_
    | intro _
    | with_reducible refine keeps_ite ?_ ?_
    | with_reducible refine keeps_ite_fst ?_ ?_
    | with_reducible refine keeps_pair (by assumption) ?_
    | split
    | fail_if_no_progress extract_lets
    | dsimp +zetaDelta only)

theorem keeps_execJmpInd {P : Nat} {u t : State} {a0 a1} (he : execJmpInd a0 a1 u = .next t) (hP : Fits 0xa5fdfdb000000000300000001016068002000a1002140a100000000000000000ecff0fc15801000000 P) : Keeps P u t := by
  unfold execJmpInd at he
  injection he with he
  subst he
  repeat' (first
    | with_reducible exact Keeps.refl P u
    | with_reducible assumption
    | dsimp -zeta only
    | with_reducible refine keeps_takeInstr (hP.sub rfl) ?_ ?_
    | with_reducible refine keeps_insJmpInd (hP.sub rfl) ?_
    | intro _
    | with_reducible refine keeps_ite ?_ ?_
    | with_reducible refine keeps_ite_fst ?_ ?_
    | with_reducible refine keeps_pair (by assumption) ?_
    | split
    | fail_if_no_progress extract_lets
    | dsimp +zetaDelta only)

theorem keeps_execJmpAbs {P : Nat} {u t : State} {a0 a1} (he : execJmpAbs a0 a1 u = .next t) (hP : Fits 0xa5fdfdb000000000300000001016068002000a1002140a100000000000000000edff0fc15801000000 P) : Keeps P u t := by
  unfold execJmpAbs at he
  injection he with he
  subst he
  repeat' (first
    | with_reducible exact Keeps.refl P u
    | with_reducible assumption
    | dsimp -zeta only
    | with_reducible refine keeps_takeInstr (hP.sub rfl) ?_ ?_
    | with_reducible refine keeps_insJmpAbs (hP.sub rfl) ?_
    | intro _
    | with_reducible refine keeps_ite ?_ ?_
    | with_reducible refine keeps_ite_fst ?_ ?_
    | with_reducible refine keeps_pair (by assumption) ?_
    | split
    | fail_if_no_progress extract_lets
    | dsimp +zetaDelta only)

theorem keeps_execMatchLoop {P : Nat} {u t : State} {a0 a1 a2 a3 a4} (he : execMatchLoop a0 a1 a2 a3 a4 u = .next t) (hP : Fits 0xa5fdfdb000000000300000001016068002000a1002140a100000000000000000ecff0fc15801000000 P) : Keeps P u t := by
  unfold execMatchLoop at he
  injection he with he
  subst he
  repeat' (first
    | with_reducible exact Keeps.refl P u
    | with_reducible assumption
    | dsimp -zeta only
    | with_reducible refine keeps_takeInstr (hP.sub rfl) ?_ ?_
    | with_reducible refine keeps_insMatch (hP.sub rfl) ?_
    | intro _
    | with_reducible refine keeps_ite ?_ ?_
    | with_reducible refine keeps_ite_fst ?_ ?_
    | with_reducible refine keeps_pair (by assumption) ?_
    | split
    | fail_if_no_progress extract_lets
    | dsimp +zetaDelta only)

theorem keeps_execAluSet {P : Nat} {u t : State} {a0 a1 a2} (he : execAluSet a0 a1 a2 u = .next t) (hP : Fits 0xa5fdfdb000000000300000001016068002000a1002140a100000000000000000ecff0fc15801000000 P) : Keeps P u t := by
  unfold execAluSet at he
  injection he with he
  subst he
  repeat' (first
    | with_reducible exact Keeps.refl P u
    | with_reducible assumption
    | dsimp -zeta only
    | with_reducible refine keeps_takeInstr (hP.sub rfl) ?_ ?_
    | with_reducible refine keeps_insAluSet (hP.sub rfl) ?_
    | intro _
    | with_reducible refine keeps_ite ?_ ?_
    | with_reducible refine keeps_ite_fst ?_ ?_
    | with_reducible refine keeps_pair (by assumption) ?_
    | split
    | fail_if_no_progress extract_lets
    | dsimp +zetaDelta only)

theorem keeps_execAluAdd {P : Nat} {u t : State} {a0 a1 a2} (he : execAluAdd a0 a1 a2 u = .next t) (hP : Fits 0xa5fdfdb000000000300000001016068002000a1002140a100000000000000000ecff0fc15801000000 P) : Keeps P u t := by
  unfold execAluAdd at he
  injection he with he
  subst he
  repeat' (first
    | with_reducible exact Keeps.refl P u
    | with_reducible assumption
    | dsimp -zeta only
    | with_reducible refine keeps_takeInstr (hP.sub rfl) ?_ ?_
    | with_reducible refine keeps_insAluAdd (hP.sub rfl) ?_
    | intro _
    | with_reducible refine keeps_ite ?_ ?_
    | with_reducible refine keeps_ite_fst ?_ ?_
    | with_reducible refine keeps_pair (by assumption) ?_
    | split
    | fail_if_no_progress extract_lets
    | dsimp +zetaDelta only)

theorem keeps_execJmpAnz {P : Nat} {u t : State} {a0 a1 a2} (he : execJmpAnz a0 a1 a2 u = .next t) (hP : Fits 0xa5fdfdb000000000300000001016068002000a1002140a100000000000000000ecff0fc15801000000 P) : Keeps P u t := by
  unfold execJmpAnz at he
  injection he with he
  subst he
  repeat' (first
    | with_reducible exact Keeps.refl P u
    | with_reducible assumption
    | dsimp -zeta only
    | with_reducible refine keeps_takeInstr (hP.sub rfl) ?_ ?_
    | with_reducible refine keeps_insJmpAnz (hP.sub rfl) ?_
    | intro _
    | with_reducible refine keeps_ite ?_ ?_
    | with_reducible refine keeps_ite_fst ?_ ?_
    | with_reducible refine keeps_pair (by assumption) ?_
    | split
    | fail_if_no_progress extract_lets
    | dsimp +zetaDelta only)

theorem keeps_execWaitOdo {P : Nat} {u t : State} {a0 a1 a2} (he : execWaitOdo a0 a1 a2 u = .next t) (hP : Fits 0xa5fdfdb000000000300000001016068002000a1002140a100000000000000000ecff0fc15801000000 P) : Keeps P u t := by
  unfold execWaitOdo at he
  injection he with he
  subst he
  repeat' (first
    | with_reducible exact Keeps.refl P u
    | with_reducible assumption
    | dsimp -zeta only
    | with_reducible refine keeps_insWaitOdo (hP.sub rfl) ?_
    | with_reducible refine keeps_takeInstr (hP.sub rfl) ?_ ?_
    | intro _
    | with_reducible refine keeps_ite ?_ ?_
    | with_reducible refine keeps_ite_fst ?_ ?_
    | with_reducible refine keeps_pair (by assumption) ?_
    | split
    | fail_if_no_progress extract_lets
    | dsimp +zetaDelta only)

theorem keeps_execMsPost {P : Nat} {u t : State} {a0 a1 a2} (he : execMsPost a0 a1 a2 u = .next t) (hP : Fits 0xa5fdfdb000000000300000001016068002000a1002140a100000000000000000ecff0fc15801000000 P) : Keeps P u t := by
  unfold execMsPost at he
  injection he with he
  subst he
  repeat' (first
    | with_reducible exact Keeps.refl P u
    | with_reducible assumption
    | dsimp -zeta only
    | with_reducible refine keeps_takeInstr (hP.sub rfl) ?_ ?_
    | with_reducible refine keeps_insMsPost (hP.sub rfl) ?_
    | intro _
    | with_reducible refine keeps_ite ?_ ?_
    | with_reducible refine keeps_ite_fst ?_ ?_
    | with_reducible refine keeps_pair (by assumption) ?_
    | split
    | fail_if_no_progress extract_lets
    | dsimp +zetaDelta only)

theorem keeps_execLegendSel {P : Nat} {u t : State} {a0 a1} (he : execLegendSel a0 a1 u = .next t) (hP : Fits 0xa5fdfdb000000000300000001016068002000a1002140a100000000000000000ecff0fc15801000000 P) : Keeps P u t := by
  unfold execLegendSel at he
  injection he with he
  subst he
  repeat' (first
    | with_reducible exact Keeps.refl P u
    | with_reducible assumption
    | dsimp -zeta only
    | with_reducible refine keeps_insLegendSel (hP.sub rfl) ?_
    | with_reducible refine keeps_takeInstr (hP.sub rfl) ?_ ?_
    | intro _
    | with_reducible refine keeps_ite ?_ ?_
    | with_reducible refine keeps_ite_fst ?_ ?_
    | with_reducible refine keeps_pair (by assumption) ?_
    | split
    | fail_if_no_progress extract_lets
    | dsimp +zetaDelta only)

theorem keeps_execTset {P : Nat} {u t : State} {a0 a1} (he : execTset a0 a1 u = .next t) (hP : Fits 0xa5fdfdb000000000300000001016068002000a1002140a100000000000000000ecff0fc15801000000 P) : Keeps P u t := by
  unfold execTset at he
  injection he with he
  subst he
  repeat' (first
    | with_reducible exact Keeps.refl P u
    | with_reducible assumption
    | dsimp -zeta only
    | with_reducible refine keeps_takeInstr (hP.sub rfl) ?_ ?_
    | with_reducible refine keeps_insTset (hP.sub rfl) ?_
    | intro _
    | with_reducible refine keeps_ite ?_ ?_
    | with_reducible refine keeps_ite_fst ?_ ?_
    | with_reducible refine keeps_pair (by assumption) ?_
    | split
    | fail_if_no_progress extract_lets
    | dsimp +zetaDelta only)

theorem keeps_execWaypt {P : Nat} {u t : State} {a0 a1} (he : execWaypt a0 a1 u = .next t) (hP : Fits 0xa5fdfdb000000000300000001016068002000a1002140a100000000000000000edff0fc15801000000 P) : Keeps P u t := by
  unfold execWaypt at he
  injection he with he
  subst he
  repeat' (first
    | with_reducible exact Keeps.refl P u
    | with_reducible assumption
    | dsimp -zeta only
    | with_reducible refine keeps_takeInstr (hP.sub rfl) ?_ ?_
    | with_reducible refine keeps_insWaypt (hP.sub rfl) ?_
    | intro _
    | with_reducible refine keeps_ite ?_ ?_
    | with_reducible refine keeps_ite_fst ?_ ?_
    | with_reducible refine keeps_pair (by assumption) ?_
    | split
    | fail_if_no_progress extract_lets
    | dsimp +zetaDelta only)

theorem keeps_execLegStart {P : Nat} {u t : State} {a0 a1} (he : execLegStart a0 a1 u = .next t) (hP : Fits 0xa5fdfdb000000000300000001016068002000a1002140a100000000000000000ecff0fc15801000000 P) : Keeps P u t := by
  unfold execLegStart at he
  injection he with he
  subst he
  repeat' (first
    | with_reducible exact Keeps.refl P u
    | with_reducible assumption
    | dsimp -zeta only
    | with_reducible refine keeps_insLegStart (hP.sub rfl) ?_
    | with_reducible refine keeps_takeInstr (hP.sub rfl) ?_ ?_
    | intro _
    | with_reducible refine keeps_ite ?_ ?_
    | with_reducible refine keeps_ite_fst ?_ ?_
    | with_reducible refine keeps_pair (by assumption) ?_
    | split
    | fail_if_no_progress extract_lets
    | dsimp +zetaDelta only)

theorem keeps_execEndLeg {P : Nat} {u t : State} {a0 a1} (he : execEndLeg a0 a1 u = .next t) (hP : Fits 0xa5fdfdb000000000300000001016068002000a1002140a100000000000000000ecff0fc15801000000 P) : Keeps P u t := by
  unfold execEndLeg at he
  injection he with he
  subst he
  repeat' (first
    | with_reducible exact Keeps.refl P u
    | with_reducible assumption
    | dsimp -zeta only
    | with_reducible refine keeps_takeInstr (hP.sub rfl) ?_ ?_
    | with_reducible refine keeps_insEndLeg (hP.sub rfl) ?_
    | intro _
    | with_reducible refine keeps_ite ?_ ?_
    | with_reducible refine keeps_ite_fst ?_ ?_
    | with_reducible refine keeps_pair (by assumption) ?_
    | split
    | fail_if_no_progress extract_lets
    | dsimp +zetaDelta only)

theorem keeps_execCapCtl {P : Nat} {u t : State} {a0 a1 a2 a3} (he : execCapCtl a0 a1 a2 a3 u = .next t) (hP : Fits 0xa5fdfdb000000000300000001016068002000a1002140a100000000000000000ecff0fc15801000000 P) : Keeps P u t := by
  unfold execCapCtl at he
  injection he with he
  subst he
  repeat' (first
    | with_reducible exact Keeps.refl P u
    | with_reducible assumption
    | dsimp -zeta only
    | with_reducible refine keeps_takeInstr (hP.sub rfl) ?_ ?_
    | with_reducible refine keeps_insCapCtl (hP.sub rfl) ?_
    | intro _
    | with_reducible refine keeps_ite ?_ ?_
    | with_reducible refine keeps_ite_fst ?_ ?_
    | with_reducible refine keeps_pair (by assumption) ?_
    | split
    | fail_if_no_progress extract_lets
    | dsimp +zetaDelta only)

theorem keeps_execFfailArm {P : Nat} {u t : State} {a0} (he : execFfailArm a0 u = .next t) (hP : Fits 0xa5fdfdb000000000300000001016068002000a1002140a100000000000000000ecff0fc15801000000 P) : Keeps P u t := by
  unfold execFfailArm at he
  injection he with he
  subst he
  repeat' (first
    | with_reducible exact Keeps.refl P u
    | with_reducible assumption
    | dsimp -zeta only
    | with_reducible refine keeps_insFfailArm (hP.sub rfl) ?_
    | with_reducible refine keeps_takeInstr (hP.sub rfl) ?_ ?_
    | intro _
    | with_reducible refine keeps_ite ?_ ?_
    | with_reducible refine keeps_ite_fst ?_ ?_
    | with_reducible refine keeps_pair (by assumption) ?_
    | split
    | fail_if_no_progress extract_lets
    | dsimp +zetaDelta only)

theorem keeps_execSxtWin {P : Nat} {u t : State} {a0 a1 a2 a3} (he : execSxtWin a0 a1 a2 a3 u = .next t) (hP : Fits 0xa5fdfdb000000000300000001016068002000a1002140a100000000000000000ecff0fc15801000000 P) : Keeps P u t := by
  unfold execSxtWin at he
  injection he with he
  subst he
  repeat' (first
    | with_reducible exact Keeps.refl P u
    | with_reducible assumption
    | dsimp -zeta only
    | with_reducible refine keeps_takeInstr (hP.sub rfl) ?_ ?_
    | with_reducible refine keeps_insSxtWin (hP.sub rfl) ?_
    | intro _
    | with_reducible refine keeps_ite ?_ ?_
    | with_reducible refine keeps_ite_fst ?_ ?_
    | with_reducible refine keeps_pair (by assumption) ?_
    | split
    | fail_if_no_progress extract_lets
    | dsimp +zetaDelta only)

theorem keeps_execSxtArm {P : Nat} {u t : State} {a0 a1 a2} (he : execSxtArm a0 a1 a2 u = .next t) (hP : Fits 0xa5fdfdb000000000300000001016068002000a1002140a100000000000000000ecff0fc15801000000 P) : Keeps P u t := by
  unfold execSxtArm at he
  injection he with he
  subst he
  repeat' (first
    | with_reducible exact Keeps.refl P u
    | with_reducible assumption
    | dsimp -zeta only
    | with_reducible refine keeps_takeInstr (hP.sub rfl) ?_ ?_
    | with_reducible refine keeps_insSxtArm (hP.sub rfl) ?_
    | intro _
    | with_reducible refine keeps_ite ?_ ?_
    | with_reducible refine keeps_ite_fst ?_ ?_
    | with_reducible refine keeps_pair (by assumption) ?_
    | split
    | fail_if_no_progress extract_lets
    | dsimp +zetaDelta only)

theorem keeps_execDdsHop {P : Nat} {u t : State} {a0 a1 a2} (he : execDdsHop a0 a1 a2 u = .next t) (hP : Fits 0xa5fdfdb000000000300000001016068002000a1002140a100000000000000000ecff0fc15801000000 P) : Keeps P u t := by
  unfold execDdsHop at he
  injection he with he
  subst he
  repeat' (first
    | with_reducible exact Keeps.refl P u
    | with_reducible assumption
    | dsimp -zeta only
    | with_reducible refine keeps_takeInstr (hP.sub rfl) ?_ ?_
    | with_reducible refine keeps_insDdsHop (hP.sub rfl) ?_
    | intro _
    | with_reducible refine keeps_ite ?_ ?_
    | with_reducible refine keeps_ite_fst ?_ ?_
    | with_reducible refine keeps_pair (by assumption) ?_
    | split
    | fail_if_no_progress extract_lets
    | dsimp +zetaDelta only)

theorem keeps_execPvLoad {P : Nat} {u t : State} {a0 a1 a2} (he : execPvLoad a0 a1 a2 u = .next t) (hP : Fits 0xa5fdfdb000000000300000001016068002000a1002140a100000000000000000ecff0fc15801000000 P) : Keeps P u t := by
  unfold execPvLoad at he
  injection he with he
  subst he
  repeat' (first
    | with_reducible exact Keeps.refl P u
    | with_reducible assumption
    | dsimp -zeta only
    | with_reducible refine keeps_takeInstr (hP.sub rfl) ?_ ?_
    | with_reducible refine keeps_insPvLoad (hP.sub rfl) ?_
    | intro _
    | with_reducible refine keeps_ite ?_ ?_
    | with_reducible refine keeps_ite_fst ?_ ?_
    | with_reducible refine keeps_pair (by assumption) ?_
    | split
    | fail_if_no_progress extract_lets
    | dsimp +zetaDelta only)

theorem keeps_execPvXor {P : Nat} {u t : State} {a0 a1 a2} (he : execPvXor a0 a1 a2 u = .next t) (hP : Fits 0xa5fdfdb000000000300000001016068002000a1002140a100000000000000000ecff0fc15801000000 P) : Keeps P u t := by
  unfold execPvXor at he
  injection he with he
  subst he
  repeat' (first
    | with_reducible exact Keeps.refl P u
    | with_reducible assumption
    | dsimp -zeta only
    | with_reducible refine keeps_takeInstr (hP.sub rfl) ?_ ?_
    | with_reducible refine keeps_insPvXor (hP.sub rfl) ?_
    | intro _
    | with_reducible refine keeps_ite ?_ ?_
    | with_reducible refine keeps_ite_fst ?_ ?_
    | with_reducible refine keeps_pair (by assumption) ?_
    | split
    | fail_if_no_progress extract_lets
    | dsimp +zetaDelta only)

theorem keeps_execPvCapt {P : Nat} {u t : State} {a0 a1 a2 a3} (he : execPvCapt a0 a1 a2 a3 u = .next t) (hP : Fits 0xa5fdfdb000000000300000001016068002000a1002140a100000000000000000ecff0fc15801000000 P) : Keeps P u t := by
  unfold execPvCapt at he
  injection he with he
  subst he
  repeat' (first
    | with_reducible exact Keeps.refl P u
    | with_reducible assumption
    | dsimp -zeta only
    | with_reducible refine keeps_takeInstr (hP.sub rfl) ?_ ?_
    | with_reducible refine keeps_insPvCapt (hP.sub rfl) ?_
    | intro _
    | with_reducible refine keeps_ite ?_ ?_
    | with_reducible refine keeps_ite_fst ?_ ?_
    | with_reducible refine keeps_pair (by assumption) ?_
    | split
    | fail_if_no_progress extract_lets
    | dsimp +zetaDelta only)

theorem keeps_execScan {P : Nat} {u t : State} {a0 a1 a2} (he : execScan a0 a1 a2 u = .next t) (hP : Fits 0xa5fdfdb000000000300000001016068002000a1002140a100000000000000000ecff0fc15801000000 P) : Keeps P u t := by
  unfold execScan at he
  injection he with he
  subst he
  repeat' (first
    | with_reducible exact Keeps.refl P u
    | with_reducible assumption
    | dsimp -zeta only
    | with_reducible refine keeps_takeInstr (hP.sub rfl) ?_ ?_
    | with_reducible refine keeps_insScan (hP.sub rfl) ?_
    | intro _
    | with_reducible refine keeps_ite ?_ ?_
    | with_reducible refine keeps_ite_fst ?_ ?_
    | with_reducible refine keeps_pair (by assumption) ?_
    | split
    | fail_if_no_progress extract_lets
    | dsimp +zetaDelta only)

theorem keeps_execUserOpcode {P : Nat} {u t : State} {a0 a1 a2} (he : execUserOpcode a0 a1 a2 u = .next t) (hP : Fits 0xa5fdfdb000000000300000001016068002000a1002140a100000000000000000ecff0fc15801000000 P) : Keeps P u t := by
  unfold execUserOpcode at he
  injection he with he
  subst he
  repeat' (first
    | with_reducible exact Keeps.refl P u
    | with_reducible assumption
    | dsimp -zeta only
    | with_reducible refine keeps_takeUser (hP.sub rfl) ?_
    | intro _
    | with_reducible refine keeps_ite ?_ ?_
    | with_reducible refine keeps_ite_fst ?_ ?_
    | with_reducible refine keeps_pair (by assumption) ?_
    | split
    | fail_if_no_progress extract_lets
    | dsimp +zetaDelta only)

end Sys2Proof.Machine
end

