-- ==== Sys2Proof/Laws/KeepsMicro.lean ====
section
/-! SUPPORT. What each operation of Machine/Micro.lean may change, and that it keeps the invariant: one law for each. -/

set_option linter.unreachableTactic false
set_option linter.unusedTactic false

namespace Sys2Proof.Machine

theorem keeps_wordLoop {P : Nat} {s u : State} {a1 a2 a3} (hP : Fits 0x800000000000000000000000000000000000000000000000000000000000000c000000000000000 P) (h : Keeps P s u) :
    Keeps P s (State.wordLoop u a1 a2 a3) := by
  unfold State.wordLoop
  repeat' (first
    | with_reducible exact h
    | with_reducible assumption
    | dsimp -zeta only
    | with_reducible refine keeps_closeLoop (hP.sub rfl) ?_
    | with_reducible refine keeps_openLoop (hP.sub rfl) ?_
    | with_reducible refine keeps_setSeq (hP.sub rfl) ?_
    | intro _
    | with_reducible refine keeps_ite ?_ ?_
    | with_reducible refine keeps_ite_fst ?_ ?_
    | with_reducible refine keeps_pair (by assumption) ?_
    | split
    | fail_if_no_progress extract_lets
    | dsimp +zetaDelta only)

theorem keeps_wordFail {P : Nat} {s u : State} {a1 a2 a3} (hP : Fits 0x81e859b000000000300000000012068000000a1002140a100000000000000000000100000000000000 P) (h : Keeps P s u) :
    Keeps P s (State.wordFail u a1 a2 a3) := by
  unfold State.wordFail
  repeat' (first
    | with_reducible exact h
    | with_reducible assumption
    | dsimp -zeta only
    | with_reducible refine keeps_ffRearm (hP.sub rfl) ?_
    | with_reducible refine keeps_setLeg (hP.sub rfl) ?_
    | intro _
    | with_reducible refine keeps_ite ?_ ?_
    | with_reducible refine keeps_ite_fst ?_ ?_
    | with_reducible refine keeps_pair (by assumption) ?_
    | split
    | fail_if_no_progress extract_lets
    | dsimp +zetaDelta only)

theorem keeps_wordCapture {P : Nat} {s u : State} {a1 a2 a3} (hP : Fits 0x8000000000000000000000000000000000000000000000000000000000000000000000000000000 P) (h : Keeps P s u) :
    Keeps P s (State.wordCapture u a1 a2 a3) := by
  unfold State.wordCapture
  repeat' (first
    | with_reducible exact h
    | with_reducible assumption
    | dsimp -zeta only
    | with_reducible refine keeps_setStr (hP.sub rfl) ?_
    | intro _
    | with_reducible refine keeps_ite ?_ ?_
    | with_reducible refine keeps_ite_fst ?_ ?_
    | with_reducible refine keeps_pair (by assumption) ?_
    | split
    | fail_if_no_progress extract_lets
    | dsimp +zetaDelta only)

theorem keeps_wordEdges {P : Nat} {s u : State} {a1 a2 a3} (hP : Fits 0x8000000000000000000000000000000000000000000000000000000000000000000000000000000 P) (h : Keeps P s u) :
    Keeps P s (State.wordEdges u a1 a2 a3) := by
  unfold State.wordEdges
  repeat' (first
    | with_reducible exact h
    | with_reducible assumption
    | dsimp -zeta only
    | with_reducible refine keeps_defer (hP.sub rfl) ?_
    | intro _
    | with_reducible refine keeps_ite ?_ ?_
    | with_reducible refine keeps_ite_fst ?_ ?_
    | with_reducible refine keeps_pair (by assumption) ?_
    | split
    | fail_if_no_progress extract_lets
    | dsimp +zetaDelta only)

theorem keeps_wordReport {P : Nat} {s u : State} {a1 a2 a3 a4} (hP : Fits 0x8000000000000000000000000000000000000000000000000000000000000000000000000000000 P) (h : Keeps P s u) :
    Keeps P s (State.wordReport u a1 a2 a3 a4) := by
  unfold State.wordReport
  repeat' (first
    | with_reducible exact h
    | with_reducible assumption
    | dsimp -zeta only
    | with_reducible refine keeps_defer (hP.sub rfl) ?_
    | intro _
    | with_reducible refine keeps_ite ?_ ?_
    | with_reducible refine keeps_ite_fst ?_ ?_
    | with_reducible refine keeps_pair (by assumption) ?_
    | split
    | fail_if_no_progress extract_lets
    | dsimp +zetaDelta only)

theorem keeps_wordMatch {P : Nat} {s u : State} {a1 a2 a3} (hP : Fits 0x8188000000000000000000012068000000000000000000000000000000000004000010000000000 P) (h : Keeps P s u) :
    Keeps P s (State.wordMatch u a1 a2 a3) := by
  unfold State.wordMatch
  repeat' (first
    | with_reducible exact h
    | with_reducible assumption
    | dsimp -zeta only
    | with_reducible refine keeps_moveBody (hP.sub rfl) ?_
    | with_reducible refine keeps_setLeg (hP.sub rfl) ?_
    | with_reducible refine keeps_fput hP rfl ?_
    | intro _
    | with_reducible refine keeps_ite ?_ ?_
    | with_reducible refine keeps_ite_fst ?_ ?_
    | with_reducible refine keeps_pair (by assumption) ?_
    | split
    | fail_if_no_progress extract_lets
    | dsimp +zetaDelta only)

theorem keeps_wordEffects {P : Nat} {s u : State} {a1 a2 a3} (hP : Fits 0x81e859b000000000300000000012068000000a1002140a10000000000000000000c100010800000000 P) (h : Keeps P s u) :
    Keeps P s (State.wordEffects u a1 a2 a3) := by
  unfold State.wordEffects
  repeat' (first
    | with_reducible exact h
    | with_reducible assumption
    | dsimp -zeta only
    | with_reducible refine keeps_wordCapture (hP.sub rfl) ?_
    | with_reducible refine keeps_wordReport (hP.sub rfl) ?_
    | with_reducible refine keeps_wordEdges (hP.sub rfl) ?_
    | with_reducible refine keeps_wordMatch (hP.sub rfl) ?_
    | with_reducible refine keeps_wordFail (hP.sub rfl) ?_
    | with_reducible refine keeps_wordLoop (hP.sub rfl) ?_
    | with_reducible refine keeps_setSeq (hP.sub rfl) ?_
    | with_reducible refine keeps_setLeg (hP.sub rfl) ?_
    | with_reducible refine keeps_fput hP rfl ?_
    | intro _
    | with_reducible refine keeps_ite ?_ ?_
    | with_reducible refine keeps_ite_fst ?_ ?_
    | with_reducible refine keeps_pair (by assumption) ?_
    | split
    | fail_if_no_progress extract_lets
    | dsimp +zetaDelta only)

theorem keeps_captVar {P : Nat} {s u : State} {a1 a2 a3 a4} (hP : Fits 0x8002000000000000000000000000000000000000000000000000000000000000000000000000000 P) (h : Keeps P s u) :
    Keeps P s (State.captVar u a1 a2 a3 a4) := by
  unfold State.captVar
  repeat' (first
    | with_reducible exact h
    | with_reducible assumption
    | dsimp -zeta only
    | with_reducible refine keeps_setLeg (hP.sub rfl) ?_
    | with_reducible refine keeps_setSeq (hP.sub rfl) ?_
    | with_reducible refine keeps_fresh (hP.sub rfl) ?_
    | with_reducible refine keeps_fresh_eq (by assumption) (hP.sub rfl) ?_
    | with_reducible refine keeps_foldl ?_ ?_
    | with_reducible refine keeps_foldl_fst ?_ ?_
    | intro _
    | with_reducible refine keeps_ite ?_ ?_
    | with_reducible refine keeps_ite_fst ?_ ?_
    | with_reducible refine keeps_pair (by assumption) ?_
    | split
    | fail_if_no_progress extract_lets
    | fail_if_no_progress with_reducible refine keeps_free hP rfl ?_ (by simp)
    | dsimp +zetaDelta only)

theorem keeps_eatRow {P : Nat} {s u : State} {a1} (hP : Fits 0x8188000000000000000000012068000000000000000000000000000000000004000000000000000 P) (h : Keeps P s u) :
    Keeps P s (State.eatRow u a1) := by
  unfold State.eatRow
  repeat' (first
    | with_reducible exact h
    | with_reducible assumption
    | dsimp -zeta only
    | with_reducible refine keeps_releaseIfDue (hP.sub rfl) ?_
    | with_reducible refine keeps_setPilot (hP.sub rfl) ?_
    | intro _
    | with_reducible refine keeps_ite ?_ ?_
    | with_reducible refine keeps_ite_fst ?_ ?_
    | with_reducible refine keeps_pair (by assumption) ?_
    | split
    | fail_if_no_progress extract_lets
    | dsimp +zetaDelta only)

theorem keeps_runOver {P : Nat} {s u : State} {a1 a2 a3} (hP : Fits 0x8188000000000000000000012068000000000000000000000000000000000004000000000000000 P) (h : Keeps P s u) :
    Keeps P s (State.runOver u a1 a2 a3) := by
  unfold State.runOver
  repeat' (first
    | with_reducible exact h
    | with_reducible assumption
    | dsimp -zeta only
    | with_reducible refine keeps_eatRow (hP.sub rfl) ?_
    | with_reducible refine keeps_setSeq (hP.sub rfl) ?_
    | intro _
    | with_reducible refine keeps_ite ?_ ?_
    | with_reducible refine keeps_ite_fst ?_ ?_
    | with_reducible refine keeps_pair (by assumption) ?_
    | split
    | fail_if_no_progress extract_lets
    | dsimp +zetaDelta only)

theorem keeps_waitOver {P : Nat} {s u : State} {a1} (hP : Fits 0x8188000000000000000000012068000000000000000000000000000000000004000000000000000 P) (h : Keeps P s u) :
    Keeps P s (State.waitOver u a1) := by
  unfold State.waitOver
  repeat' (first
    | with_reducible exact h
    | with_reducible assumption
    | dsimp -zeta only
    | with_reducible refine keeps_runOver (hP.sub rfl) ?_
    | intro _
    | with_reducible refine keeps_ite ?_ ?_
    | with_reducible refine keeps_ite_fst ?_ ?_
    | with_reducible refine keeps_pair (by assumption) ?_
    | split
    | fail_if_no_progress extract_lets
    | dsimp +zetaDelta only)

theorem keeps_endRoutine {P : Nat} {s u : State} {a1} (hP : Fits 0x8000000000000000000000000000000000000000000000000000000000000000000000000000000 P) (h : Keeps P s u) :
    Keeps P s (State.endRoutine u a1) := by
  unfold State.endRoutine
  repeat' (first
    | with_reducible exact h
    | with_reducible assumption
    | dsimp -zeta only
    | with_reducible refine keeps_setSeq (hP.sub rfl) ?_
    | intro _
    | with_reducible refine keeps_ite ?_ ?_
    | with_reducible refine keeps_ite_fst ?_ ?_
    | with_reducible refine keeps_pair (by assumption) ?_
    | split
    | fail_if_no_progress extract_lets
    | dsimp +zetaDelta only)

theorem keeps_wordActs {P : Nat} {s u : State} {a1 a2 a3} (hP : Fits 0x81e859b000000000300000000012068000000a1002140a10000000000000000000c100010800000000 P) (h : Keeps P s u) :
    Keeps P s (State.wordActs u a1 a2 a3) := by
  unfold State.wordActs
  repeat' (first
    | with_reducible exact h
    | with_reducible assumption
    | dsimp -zeta only
    | with_reducible refine keeps_wordEffects (hP.sub rfl) ?_
    | with_reducible refine keeps_waitOver (hP.sub rfl) ?_
    | with_reducible refine keeps_captVar (hP.sub rfl) ?_
    | with_reducible refine keeps_setSeq (hP.sub rfl) ?_
    | intro _
    | with_reducible refine keeps_ite ?_ ?_
    | with_reducible refine keeps_ite_fst ?_ ?_
    | with_reducible refine keeps_pair (by assumption) ?_
    | split
    | fail_if_no_progress extract_lets
    | dsimp +zetaDelta only)

theorem keeps_wordGoes {P : Nat} {s u : State} {a1 a2} (hP : Fits 0xa5f9fdb000000000300000001012068002000a1002140a1000000000000000006cff01c15801000000 P) (h : Keeps P s u) :
    Keeps P s (State.wordGoes u a1 a2) := by
  unfold State.wordGoes
  repeat' (first
    | with_reducible exact h
    | with_reducible assumption
    | dsimp -zeta only
    | with_reducible refine keeps_fatalTrap (hP.sub rfl) ?_
    | with_reducible refine keeps_setSeq (hP.sub rfl) ?_
    | intro _
    | with_reducible refine keeps_ite ?_ ?_
    | with_reducible refine keeps_ite_fst ?_ ?_
    | with_reducible refine keeps_pair (by assumption) ?_
    | split
    | fail_if_no_progress extract_lets
    | dsimp +zetaDelta only)

theorem keeps_routineBranches {P : Nat} {s u : State} {a1 a2 a3 a4} (hP : Fits 0x8188000000000000000000012068000000000000000000000000000000000014000000000000000 P) (h : Keeps P s u) :
    Keeps P s (State.routineBranches u a1 a2 a3 a4) := by
  unfold State.routineBranches
  repeat' (first
    | with_reducible exact h
    | with_reducible assumption
    | dsimp -zeta only
    | with_reducible refine keeps_takeBranch (hP.sub rfl) ?_
    | with_reducible refine keeps_beginHold (hP.sub rfl) ?_
    | with_reducible refine keeps_stepPc (hP.sub rfl) ?_
    | with_reducible refine keeps_setSeq (hP.sub rfl) ?_
    | intro _
    | with_reducible refine keeps_ite ?_ ?_
    | with_reducible refine keeps_ite_fst ?_ ?_
    | with_reducible refine keeps_pair (by assumption) ?_
    | split
    | fail_if_no_progress extract_lets
    | dsimp +zetaDelta only)

theorem keeps_wordNeeds {P : Nat} {s u : State} {a1 a2 a3} (hP : Fits 0xa5f9fdb000000000300000001016068002000a1002140a100000000000000000ecff01c15801000000 P) (h : Keeps P s u) :
    Keeps P s (State.wordNeeds u a1 a2 a3).1 := by
  unfold State.wordNeeds
  repeat' (first
    | with_reducible exact h
    | with_reducible assumption
    | dsimp -zeta only
    | with_reducible refine keeps_needEntry (hP.sub rfl) ?_
    | with_reducible refine keeps_needEntry_eq (by assumption) (hP.sub rfl) ?_
    | with_reducible refine keeps_needLeg (hP.sub rfl) ?_
    | with_reducible refine keeps_needLeg_eq (by assumption) (hP.sub rfl) ?_
    | intro _
    | with_reducible refine keeps_ite ?_ ?_
    | with_reducible refine keeps_ite_fst ?_ ?_
    | with_reducible refine keeps_pair (by assumption) ?_
    | split
    | fail_if_no_progress extract_lets
    | dsimp +zetaDelta only)

theorem keeps_wordNeeds_eq {P : Nat} {s u v : State} {a1 a2 a3} {x} (he : State.wordNeeds u a1 a2 a3 = (v, x)) (hP : Fits 0xa5f9fdb000000000300000001016068002000a1002140a100000000000000000ecff01c15801000000 P)
    (h : Keeps P s u) : Keeps P s v := by
  have h1 := keeps_wordNeeds (a1 := a1) (a2 := a2) (a3 := a3) hP h
  rw [he] at h1
  exact h1

theorem keeps_wordNext {P : Nat} {s u : State} {a1 a2 a3 a4 a5 a6 a7} (hP : Fits 0xa5f9fdb000000000300000001012068002000a1002140a1000000000000000006dff01c15801000000 P) (h : Keeps P s u) :
    Keeps P s (State.wordNext u a1 a2 a3 a4 a5 a6 a7) := by
  unfold State.wordNext
  repeat' (first
    | with_reducible exact h
    | with_reducible assumption
    | dsimp -zeta only
    | with_reducible refine keeps_routineBranches (hP.sub rfl) ?_
    | with_reducible refine keeps_endRoutine (hP.sub rfl) ?_
    | with_reducible refine keeps_wordGoes (hP.sub rfl) ?_
    | with_reducible refine keeps_setSeq (hP.sub rfl) ?_
    | intro _
    | with_reducible refine keeps_ite ?_ ?_
    | with_reducible refine keeps_ite_fst ?_ ?_
    | with_reducible refine keeps_pair (by assumption) ?_
    | split
    | fail_if_no_progress extract_lets
    | dsimp +zetaDelta only)

theorem keeps_completeWord {P : Nat} {s u : State} {a1 a2 a3} (hP : Fits 0xa5f9fdb000000000300000001016068002000a1002140a100000000000000000edff01c15801000000 P) (h : Keeps P s u) :
    Keeps P s (State.completeWord u a1 a2 a3) := by
  unfold State.completeWord
  repeat' (first
    | with_reducible exact h
    | with_reducible assumption
    | dsimp -zeta only
    | with_reducible refine keeps_awaitStart (hP.sub rfl) ?_
    | with_reducible refine keeps_fatalTrap (hP.sub rfl) ?_
    | with_reducible refine keeps_wordNeeds (hP.sub rfl) ?_
    | with_reducible refine keeps_wordNeeds_eq (by assumption) (hP.sub rfl) ?_
    | with_reducible refine keeps_wordNext (hP.sub rfl) ?_
    | with_reducible refine keeps_wordActs (hP.sub rfl) ?_
    | intro _
    | with_reducible refine keeps_ite ?_ ?_
    | with_reducible refine keeps_ite_fst ?_ ?_
    | with_reducible refine keeps_pair (by assumption) ?_
    | split
    | fail_if_no_progress extract_lets
    | dsimp +zetaDelta only)

theorem keeps_startWord {P : Nat} {s u : State} {a1 a2} (hP : Fits 0xa5f9fdb000000000300000001016068002000a1002140a100000000000000000edff01c15801000000 P) (h : Keeps P s u) :
    Keeps P s (State.startWord u a1 a2) := by
  unfold State.startWord
  repeat' (first
    | with_reducible exact h
    | with_reducible assumption
    | dsimp -zeta only
    | with_reducible refine keeps_completeWord (hP.sub rfl) ?_
    | with_reducible refine keeps_fatalTrap (hP.sub rfl) ?_
    | with_reducible refine keeps_setLeg (hP.sub rfl) ?_
    | with_reducible refine keeps_setSeq (hP.sub rfl) ?_
    | intro _
    | with_reducible refine keeps_ite ?_ ?_
    | with_reducible refine keeps_ite_fst ?_ ?_
    | with_reducible refine keeps_pair (by assumption) ?_
    | split
    | fail_if_no_progress extract_lets
    | dsimp +zetaDelta only)

theorem keeps_fetchWord {P : Nat} {s u : State} {a1} (hP : Fits 0xa5fdfdb000000000300000001016068002000a1002140a100000000000000000ecff0fc15801000000 P) (h : Keeps P s u) :
    Keeps P s (State.fetchWord u a1).1 := by
  unfold State.fetchWord
  repeat' (first
    | with_reducible exact h
    | with_reducible assumption
    | dsimp -zeta only
    | with_reducible refine keeps_leadWord (hP.sub rfl) ?_
    | with_reducible refine keeps_leadWord_eq (by assumption) (hP.sub rfl) ?_
    | with_reducible refine keeps_ucodeUe (hP.sub rfl) ?_
    | with_reducible refine keeps_readCs (hP.sub rfl) ?_
    | with_reducible refine keeps_readCs_eq (by assumption) (hP.sub rfl) ?_
    | intro _
    | with_reducible refine keeps_ite ?_ ?_
    | with_reducible refine keeps_ite_fst ?_ ?_
    | with_reducible refine keeps_pair (by assumption) ?_
    | split
    | fail_if_no_progress extract_lets
    | dsimp +zetaDelta only)

theorem keeps_fetchWord_eq {P : Nat} {s u v : State} {a1} {x} (he : State.fetchWord u a1 = (v, x)) (hP : Fits 0xa5fdfdb000000000300000001016068002000a1002140a100000000000000000ecff0fc15801000000 P)
    (h : Keeps P s u) : Keeps P s v := by
  have h1 := keeps_fetchWord (a1 := a1) hP h
  rw [he] at h1
  exact h1

theorem keeps_runWord {P : Nat} {s u : State} {a1 a2} (hP : Fits 0xa5f9fdb000000000300000001016068002000a1002140a100000000000000000edff01c15801000000 P) (h : Keeps P s u) :
    Keeps P s (State.runWord u a1 a2) := by
  unfold State.runWord
  repeat' (first
    | with_reducible exact h
    | with_reducible assumption
    | dsimp -zeta only
    | with_reducible refine keeps_breakTrap (hP.sub rfl) ?_
    | with_reducible refine keeps_startWord (hP.sub rfl) ?_
    | intro _
    | with_reducible refine keeps_ite ?_ ?_
    | with_reducible refine keeps_ite_fst ?_ ?_
    | with_reducible refine keeps_pair (by assumption) ?_
    | split
    | fail_if_no_progress extract_lets
    | dsimp +zetaDelta only)

end Sys2Proof.Machine
end

