-- ==== Sys2Proof/Laws/KeepsStride.lean ====
section
/-! SUPPORT. What each operation of Machine/Stride.lean may change, and that it keeps the invariant: one law for each. -/

set_option linter.unreachableTactic false
set_option linter.unusedTactic false

namespace Sys2Proof.Machine

theorem keeps_scanRow {P : Nat} {s u : State} {a1 a2 a3 a4} (hP : Fits 0xa5f9fdb000000000300000001016068002000a1002140a100000000000000000ecff01c15801000000 P) (h : Keeps P s u) :
    Keeps P s (State.scanRow u a1 a2 a3 a4).1 := by
  unfold State.scanRow
  repeat' (first
    | with_reducible exact h
    | with_reducible assumption
    | dsimp -zeta only
    | with_reducible refine keeps_fetchPoison (hP.sub rfl) ?_
    | with_reducible refine keeps_fetchFault (hP.sub rfl) ?_
    | with_reducible refine keeps_pilotRead (hP.sub rfl) ?_
    | with_reducible refine keeps_pilotRead_eq (by assumption) (hP.sub rfl) ?_
    | with_reducible refine keeps_foldl ?_ ?_
    | with_reducible refine keeps_foldl_fst ?_ ?_
    | intro _
    | with_reducible refine keeps_ite ?_ ?_
    | with_reducible refine keeps_ite_fst ?_ ?_
    | with_reducible refine keeps_pair (by assumption) ?_
    | split
    | fail_if_no_progress extract_lets
    | dsimp +zetaDelta only)

theorem keeps_scanRow_eq {P : Nat} {s u v : State} {a1 a2 a3 a4} {x} (he : State.scanRow u a1 a2 a3 a4 = (v, x)) (hP : Fits 0xa5f9fdb000000000300000001016068002000a1002140a100000000000000000ecff01c15801000000 P)
    (h : Keeps P s u) : Keeps P s v := by
  have h1 := keeps_scanRow (a1 := a1) (a2 := a2) (a3 := a3) (a4 := a4) hP h
  rw [he] at h1
  exact h1

theorem keeps_nextRow {P : Nat} {s u : State} {a1 a2} (hP : Fits 0xa5f9fdb000000000300000001016068002000a1002140a100000000000000000ecff01c15801000000 P) (h : Keeps P s u) :
    Keeps P s (State.nextRow u a1 a2).1 := by
  unfold State.nextRow
  repeat' (first
    | with_reducible exact h
    | with_reducible assumption
    | dsimp -zeta only
    | with_reducible refine keeps_scanRow (hP.sub rfl) ?_
    | with_reducible refine keeps_scanRow_eq (by assumption) (hP.sub rfl) ?_
    | intro _
    | with_reducible refine keeps_ite ?_ ?_
    | with_reducible refine keeps_ite_fst ?_ ?_
    | with_reducible refine keeps_pair (by assumption) ?_
    | split
    | fail_if_no_progress extract_lets
    | dsimp +zetaDelta only)

theorem keeps_nextRow_eq {P : Nat} {s u v : State} {a1 a2} {x} (he : State.nextRow u a1 a2 = (v, x)) (hP : Fits 0xa5f9fdb000000000300000001016068002000a1002140a100000000000000000ecff01c15801000000 P)
    (h : Keeps P s u) : Keeps P s v := by
  have h1 := keeps_nextRow (a1 := a1) (a2 := a2) hP h
  rw [he] at h1
  exact h1

theorem keeps_afterVector {P : Nat} {s u : State} {a1 a2} (hP : Fits 0x8188000000000000000000012068000000000000000000000000000000000014000000000000000 P) (h : Keeps P s u) :
    Keeps P s (State.afterVector u a1 a2) := by
  unfold State.afterVector
  repeat' (first
    | with_reducible exact h
    | with_reducible assumption
    | dsimp -zeta only
    | with_reducible refine keeps_setPilot (hP.sub rfl) ?_
    | with_reducible refine keeps_runOver (hP.sub rfl) ?_
    | with_reducible refine keeps_setSeq (hP.sub rfl) ?_
    | with_reducible refine keeps_eatRow (hP.sub rfl) ?_
    | with_reducible refine keeps_setLeg (hP.sub rfl) ?_
    | with_reducible refine keeps_bump hP rfl ?_
    | intro _
    | with_reducible refine keeps_ite ?_ ?_
    | with_reducible refine keeps_ite_fst ?_ ?_
    | with_reducible refine keeps_pair (by assumption) ?_
    | split
    | fail_if_no_progress extract_lets
    | dsimp +zetaDelta only)

theorem keeps_issueOne {P : Nat} {s u : State} {a1 a2} (hP : Fits 0xa5f9fdb000000000300000001016068002000a1002140a100000000000000000edff01c35871000000 P) (h : Keeps P s u) :
    Keeps P s (State.issueOne u a1 a2).1 := by
  unfold State.issueOne
  repeat' (first
    | with_reducible exact h
    | with_reducible assumption
    | dsimp -zeta only
    | with_reducible refine keeps_afterVector (hP.sub rfl) ?_
    | with_reducible refine keeps_issueVector (hP.sub rfl) ?_
    | with_reducible refine keeps_issueVector_eq (by assumption) (hP.sub rfl) ?_
    | with_reducible refine keeps_fatalTrap (hP.sub rfl) ?_
    | with_reducible refine keeps_nextRow (hP.sub rfl) ?_
    | with_reducible refine keeps_nextRow_eq (by assumption) (hP.sub rfl) ?_
    | with_reducible refine keeps_settle (hP.sub rfl) ?_
    | intro _
    | with_reducible refine keeps_ite ?_ ?_
    | with_reducible refine keeps_ite_fst ?_ ?_
    | with_reducible refine keeps_pair (by assumption) ?_
    | split
    | fail_if_no_progress extract_lets
    | dsimp +zetaDelta only)

theorem keeps_issueOne_eq {P : Nat} {s u v : State} {a1 a2} {x} (he : State.issueOne u a1 a2 = (v, x)) (hP : Fits 0xa5f9fdb000000000300000001016068002000a1002140a100000000000000000edff01c35871000000 P)
    (h : Keeps P s u) : Keeps P s v := by
  have h1 := keeps_issueOne (a1 := a1) (a2 := a2) hP h
  rw [he] at h1
  exact h1

theorem keeps_went {P : Nat} {s u : State} {a1 a2} (hP : Fits 0 P) (h : Keeps P s u) :
    Keeps P s (State.went u a1 a2).1 := by
  unfold State.went
  repeat' (first
    | with_reducible exact h
    | with_reducible assumption
    | dsimp -zeta only
    | intro _
    | with_reducible refine keeps_ite ?_ ?_
    | with_reducible refine keeps_ite_fst ?_ ?_
    | with_reducible refine keeps_pair (by assumption) ?_
    | split
    | fail_if_no_progress extract_lets
    | dsimp +zetaDelta only)

theorem keeps_went_eq {P : Nat} {s u v : State} {a1 a2} {x} (he : State.went u a1 a2 = (v, x)) (hP : Fits 0 P)
    (h : Keeps P s u) : Keeps P s v := by
  have h1 := keeps_went (a1 := a1) (a2 := a2) hP h
  rw [he] at h1
  exact h1

theorem keeps_matchStep {P : Nat} {s u : State} {a1} (hP : Fits 0xa5f9fdb000000000300000001016068002000a1002140a100000000000000000ecff01c15801000000 P) (h : Keeps P s u) :
    Keeps P s (State.matchStep u a1).1 := by
  unfold State.matchStep
  repeat' (first
    | with_reducible exact h
    | with_reducible assumption
    | dsimp -zeta only
    | with_reducible refine keeps_branchActs (hP.sub rfl) ?_ ?_
    | with_reducible refine keeps_setPilot (hP.sub rfl) ?_
    | with_reducible refine keeps_setSeq (hP.sub rfl) ?_
    | with_reducible refine keeps_went (hP.sub rfl) ?_
    | with_reducible refine keeps_went_eq (by assumption) (hP.sub rfl) ?_
    | with_reducible refine keeps_fput hP rfl ?_
    | intro _
    | with_reducible refine keeps_ite ?_ ?_
    | with_reducible refine keeps_ite_fst ?_ ?_
    | with_reducible refine keeps_pair (by assumption) ?_
    | split
    | fail_if_no_progress extract_lets
    | dsimp +zetaDelta only)

theorem keeps_matchStep_eq {P : Nat} {s u v : State} {a1} {x} (he : State.matchStep u a1 = (v, x)) (hP : Fits 0xa5f9fdb000000000300000001016068002000a1002140a100000000000000000ecff01c15801000000 P)
    (h : Keeps P s u) : Keeps P s v := by
  have h1 := keeps_matchStep (a1 := a1) hP h
  rw [he] at h1
  exact h1

theorem keeps_waitStep {P : Nat} {s u : State} {a1 a2 a3} (hP : Fits 0xa5f9fdb000000000300000001016068002000a1002140a100000000000000000edff01c15801000000 P) (h : Keeps P s u) :
    Keeps P s (State.waitStep u a1 a2 a3).1 := by
  unfold State.waitStep
  repeat' (first
    | with_reducible exact h
    | with_reducible assumption
    | dsimp -zeta only
    | with_reducible refine keeps_completeWord (hP.sub rfl) ?_
    | intro _
    | with_reducible refine keeps_ite ?_ ?_
    | with_reducible refine keeps_ite_fst ?_ ?_
    | with_reducible refine keeps_pair (by assumption) ?_
    | split
    | fail_if_no_progress extract_lets
    | dsimp +zetaDelta only)

theorem keeps_waitStep_eq {P : Nat} {s u v : State} {a1 a2 a3} {x} (he : State.waitStep u a1 a2 a3 = (v, x)) (hP : Fits 0xa5f9fdb000000000300000001016068002000a1002140a100000000000000000edff01c15801000000 P)
    (h : Keeps P s u) : Keeps P s v := by
  have h1 := keeps_waitStep (a1 := a1) (a2 := a2) (a3 := a3) hP h
  rw [he] at h1
  exact h1

theorem keeps_finishRun {P : Nat} {s u : State} {a1 a2} (hP : Fits 0xa5f9fdb000000000300000001016068002000a1002140a100000000000000000edff01c15801000000 P) (h : Keeps P s u) :
    Keeps P s (State.finishRun u a1 a2).1 := by
  unfold State.finishRun
  repeat' (first
    | with_reducible exact h
    | with_reducible assumption
    | dsimp -zeta only
    | with_reducible refine keeps_completeWord (hP.sub rfl) ?_
    | with_reducible refine keeps_branchActs (hP.sub rfl) ?_ ?_
    | with_reducible refine keeps_matchStep (hP.sub rfl) ?_
    | with_reducible refine keeps_matchStep_eq (by assumption) (hP.sub rfl) ?_
    | with_reducible refine keeps_waitStep (hP.sub rfl) ?_
    | with_reducible refine keeps_waitStep_eq (by assumption) (hP.sub rfl) ?_
    | with_reducible refine keeps_captVar (hP.sub rfl) ?_
    | with_reducible refine keeps_setSeq (hP.sub rfl) ?_
    | with_reducible refine keeps_goTo (hP.sub rfl) ?_
    | with_reducible refine keeps_went (hP.sub rfl) ?_
    | with_reducible refine keeps_went_eq (by assumption) (hP.sub rfl) ?_
    | intro _
    | with_reducible refine keeps_ite ?_ ?_
    | with_reducible refine keeps_ite_fst ?_ ?_
    | with_reducible refine keeps_pair (by assumption) ?_
    | split
    | fail_if_no_progress extract_lets
    | dsimp +zetaDelta only)

theorem keeps_finishRun_eq {P : Nat} {s u v : State} {a1 a2} {x} (he : State.finishRun u a1 a2 = (v, x)) (hP : Fits 0xa5f9fdb000000000300000001016068002000a1002140a100000000000000000edff01c15801000000 P)
    (h : Keeps P s u) : Keeps P s v := by
  have h1 := keeps_finishRun (a1 := a1) (a2 := a2) hP h
  rw [he] at h1
  exact h1

theorem keeps_runInstr {P : Nat} {s u : State} {a1 a2} (hP : Fits 0xa5fdfdb000000000300000001016068002000a1002140a100000000000000000edff0fc15801000000 P) (h : Keeps P s u) :
    Keeps P s (State.runInstr u a1 a2) := by
  unfold State.runInstr
  repeat' (first
    | with_reducible exact h
    | with_reducible assumption
    | dsimp -zeta only
    | with_reducible refine keeps_insLegendSel (hP.sub rfl) ?_
    | with_reducible refine keeps_insLegStart (hP.sub rfl) ?_
    | with_reducible refine keeps_insFailMark (hP.sub rfl) ?_
    | with_reducible refine keeps_insFfailArm (hP.sub rfl) ?_
    | with_reducible refine keeps_insWaitOdo (hP.sub rfl) ?_
    | with_reducible refine keeps_insJmpPass (hP.sub rfl) ?_
    | with_reducible refine keeps_insJmpFail (hP.sub rfl) ?_
    | with_reducible refine keeps_insCapCtl (hP.sub rfl) ?_
    | with_reducible refine keeps_insAluSet (hP.sub rfl) ?_
    | with_reducible refine keeps_insJmpInd (hP.sub rfl) ?_
    | with_reducible refine keeps_takeInstr (hP.sub rfl) ?_ ?_
    | with_reducible refine keeps_insDdsHop (hP.sub rfl) ?_
    | with_reducible refine keeps_insAluAdd (hP.sub rfl) ?_
    | with_reducible refine keeps_insSxtWin (hP.sub rfl) ?_
    | with_reducible refine keeps_insEndLeg (hP.sub rfl) ?_
    | with_reducible refine keeps_insPvLoad (hP.sub rfl) ?_
    | with_reducible refine keeps_insPvCapt (hP.sub rfl) ?_
    | with_reducible refine keeps_insSxtArm (hP.sub rfl) ?_
    | with_reducible refine keeps_insMsPost (hP.sub rfl) ?_
    | with_reducible refine keeps_insJmpAnz (hP.sub rfl) ?_
    | with_reducible refine keeps_insJmpAbs (hP.sub rfl) ?_
    | with_reducible refine keeps_insPvXor (hP.sub rfl) ?_
    | with_reducible refine keeps_insMatch (hP.sub rfl) ?_
    | with_reducible refine keeps_takeUser (hP.sub rfl) ?_
    | with_reducible refine keeps_insWaypt (hP.sub rfl) ?_
    | with_reducible refine keeps_insTset (hP.sub rfl) ?_
    | with_reducible refine keeps_insEndl (hP.sub rfl) ?_
    | with_reducible refine keeps_insLoop (hP.sub rfl) ?_
    | with_reducible refine keeps_insCall (hP.sub rfl) ?_
    | with_reducible refine keeps_insScan (hP.sub rfl) ?_
    | with_reducible refine keeps_insRpt (hP.sub rfl) ?_
    | with_reducible refine keeps_insVec (hP.sub rfl) ?_
    | with_reducible refine keeps_insRet (hP.sub rfl) ?_
    | with_reducible refine keeps_insNop (hP.sub rfl) ?_
    | with_reducible refine keeps_insJmp (hP.sub rfl) ?_
    | with_reducible refine keeps_insPad (hP.sub rfl) ?_
    | with_reducible refine keeps_id ?_
    | intro _
    | with_reducible refine keeps_ite ?_ ?_
    | with_reducible refine keeps_ite_fst ?_ ?_
    | with_reducible refine keeps_pair (by assumption) ?_
    | split
    | fail_if_no_progress extract_lets
    | dsimp +zetaDelta only)

theorem keeps_fetchInstr {P : Nat} {s u : State} {a1} (hP : Fits 0xa5f9fdb000000000300000001016068002000a1002140a100000000000000000ecff01c15801000000 P) (h : Keeps P s u) :
    Keeps P s (State.fetchInstr u a1).1 := by
  unfold State.fetchInstr
  repeat' (first
    | with_reducible exact h
    | with_reducible assumption
    | dsimp -zeta only
    | with_reducible refine keeps_fetchPoison (hP.sub rfl) ?_
    | with_reducible refine keeps_fetchFault (hP.sub rfl) ?_
    | with_reducible refine keeps_pilotRead (hP.sub rfl) ?_
    | with_reducible refine keeps_pilotRead_eq (by assumption) (hP.sub rfl) ?_
    | with_reducible refine keeps_fatalTrap (hP.sub rfl) ?_
    | intro _
    | with_reducible refine keeps_ite ?_ ?_
    | with_reducible refine keeps_ite_fst ?_ ?_
    | with_reducible refine keeps_pair (by assumption) ?_
    | split
    | fail_if_no_progress extract_lets
    | dsimp +zetaDelta only)

theorem keeps_fetchInstr_eq {P : Nat} {s u v : State} {a1} {x} (he : State.fetchInstr u a1 = (v, x)) (hP : Fits 0xa5f9fdb000000000300000001016068002000a1002140a100000000000000000ecff01c15801000000 P)
    (h : Keeps P s u) : Keeps P s v := by
  have h1 := keeps_fetchInstr (a1 := a1) hP h
  rw [he] at h1
  exact h1

theorem keeps_strideLoop {P : Nat} {s u : State} {a1 a2 a3} (hP : Fits 0xa5fdfdb000000000300000001016068002000a1002140a100000000000000000edff0fc75871000000 P) (h : Keeps P s u) :
    Keeps P s (State.strideLoop u a1 a2 a3) := by
  induction a3 generalizing u a1 a2 with
  | zero =>
    unfold State.strideLoop
    repeat' (first
      | with_reducible exact h
      | with_reducible assumption
      | dsimp -zeta only
      | with_reducible refine keeps_doHoldLimit (hP.sub rfl) ?_
      | with_reducible refine keeps_fetchInstr (hP.sub rfl) ?_
      | with_reducible refine keeps_fetchInstr_eq (by assumption) (hP.sub rfl) ?_
      | with_reducible refine keeps_fetchWord (hP.sub rfl) ?_
      | with_reducible refine keeps_fetchWord_eq (by assumption) (hP.sub rfl) ?_
      | with_reducible refine keeps_finishRun (hP.sub rfl) ?_
      | with_reducible refine keeps_finishRun_eq (by assumption) (hP.sub rfl) ?_
      | with_reducible refine keeps_runInstr (hP.sub rfl) ?_
      | with_reducible refine keeps_issueOne (hP.sub rfl) ?_
      | with_reducible refine keeps_issueOne_eq (by assumption) (hP.sub rfl) ?_
      | with_reducible refine keeps_runWord (hP.sub rfl) ?_
      | with_reducible refine keeps_setSeq (hP.sub rfl) ?_
      | with_reducible refine keeps_fput hP rfl ?_
      | with_reducible refine keeps_bump hP rfl ?_
      | intro _
      | with_reducible refine keeps_ite ?_ ?_
      | with_reducible refine keeps_ite_fst ?_ ?_
      | with_reducible refine keeps_pair (by assumption) ?_
      | split
      | fail_if_no_progress extract_lets
      | dsimp +zetaDelta only)
  | succ n ih =>
    unfold State.strideLoop
    repeat' (first
      | with_reducible exact h
      | with_reducible assumption
      | dsimp -zeta only
      | with_reducible apply ih
      | with_reducible refine keeps_doHoldLimit (hP.sub rfl) ?_
      | with_reducible refine keeps_fetchInstr (hP.sub rfl) ?_
      | with_reducible refine keeps_fetchInstr_eq (by assumption) (hP.sub rfl) ?_
      | with_reducible refine keeps_fetchWord (hP.sub rfl) ?_
      | with_reducible refine keeps_fetchWord_eq (by assumption) (hP.sub rfl) ?_
      | with_reducible refine keeps_finishRun (hP.sub rfl) ?_
      | with_reducible refine keeps_finishRun_eq (by assumption) (hP.sub rfl) ?_
      | with_reducible refine keeps_runInstr (hP.sub rfl) ?_
      | with_reducible refine keeps_issueOne (hP.sub rfl) ?_
      | with_reducible refine keeps_issueOne_eq (by assumption) (hP.sub rfl) ?_
      | with_reducible refine keeps_runWord (hP.sub rfl) ?_
      | with_reducible refine keeps_setSeq (hP.sub rfl) ?_
      | with_reducible refine keeps_fput hP rfl ?_
      | with_reducible refine keeps_bump hP rfl ?_
      | intro _
      | with_reducible refine keeps_ite ?_ ?_
      | with_reducible refine keeps_ite_fst ?_ ?_
      | with_reducible refine keeps_pair (by assumption) ?_
      | split
      | fail_if_no_progress extract_lets
      | dsimp +zetaDelta only)

theorem keeps_doStride {P : Nat} {s u : State} {a1} (hP : Fits 0xa5fdfdb000000000300000001016068002000a1002140a100000000000000000edff0fc75871000000 P) (h : Keeps P s u) :
    Keeps P s (State.doStride u a1) := by
  unfold State.doStride
  repeat' (first
    | with_reducible exact h
    | with_reducible assumption
    | dsimp -zeta only
    | with_reducible refine keeps_strideLoop (hP.sub rfl) ?_
    | with_reducible refine keeps_doHoldEnd (hP.sub rfl) ?_
    | with_reducible refine keeps_setSeq (hP.sub rfl) ?_
    | intro _
    | with_reducible refine keeps_ite ?_ ?_
    | with_reducible refine keeps_ite_fst ?_ ?_
    | with_reducible refine keeps_pair (by assumption) ?_
    | split
    | fail_if_no_progress extract_lets
    | dsimp +zetaDelta only)

theorem keeps_doWaitTimeout {P : Nat} {s u : State} {a1} (hP : Fits 0xa5f9fdb000000000300000001016068002000a1002140a100000000000000000edff01c15801000000 P) (h : Keeps P s u) :
    Keeps P s (State.doWaitTimeout u a1) := by
  unfold State.doWaitTimeout
  repeat' (first
    | with_reducible exact h
    | with_reducible assumption
    | dsimp -zeta only
    | with_reducible refine keeps_completeWord (hP.sub rfl) ?_
    | intro _
    | with_reducible refine keeps_ite ?_ ?_
    | with_reducible refine keeps_ite_fst ?_ ?_
    | with_reducible refine keeps_pair (by assumption) ?_
    | split
    | fail_if_no_progress extract_lets
    | dsimp +zetaDelta only)

theorem keeps_seqWord {P : Nat} {s u : State} {a1 a2 a3} (hP : Fits 0xa5f9fdb000000000300000001016068002000a1002140a100000000000000000edff01c15801000000 P) (h : Keeps P s u) :
    Keeps P s (State.seqWord u a1 a2 a3) := by
  unfold State.seqWord
  repeat' (first
    | with_reducible exact h
    | with_reducible assumption
    | dsimp -zeta only
    | with_reducible refine keeps_runWord (hP.sub rfl) ?_
    | intro _
    | with_reducible refine keeps_ite ?_ ?_
    | with_reducible refine keeps_ite_fst ?_ ?_
    | with_reducible refine keeps_pair (by assumption) ?_
    | split
    | fail_if_no_progress extract_lets
    | dsimp +zetaDelta only)

theorem keeps_execStride {P : Nat} {u t : State} {a0} (he : execStride a0 u = .next t) (hP : Fits 0xa5fdfdb000000000300000001016068002000a1002140a100000000000000000edff0fc75871000000 P) : Keeps P u t := by
  unfold execStride at he
  injection he with he
  subst he
  repeat' (first
    | with_reducible exact Keeps.refl P u
    | with_reducible assumption
    | dsimp -zeta only
    | with_reducible refine keeps_doStride (hP.sub rfl) ?_
    | intro _
    | with_reducible refine keeps_ite ?_ ?_
    | with_reducible refine keeps_ite_fst ?_ ?_
    | with_reducible refine keeps_pair (by assumption) ?_
    | split
    | fail_if_no_progress extract_lets
    | dsimp +zetaDelta only)

theorem keeps_execSeqCont {P : Nat} {u t : State} {a0 a1} (he : execSeqCont a0 a1 u = .next t) (hP : Fits 0xa5f9fdb000000000300000001016068002000a1002140a100000000000000000edff01c15801000000 P) : Keeps P u t := by
  unfold execSeqCont at he
  injection he with he
  subst he
  repeat' (first
    | with_reducible exact Keeps.refl P u
    | with_reducible assumption
    | dsimp -zeta only
    | with_reducible refine keeps_seqWord (hP.sub rfl) ?_
    | intro _
    | with_reducible refine keeps_ite ?_ ?_
    | with_reducible refine keeps_ite_fst ?_ ?_
    | with_reducible refine keeps_pair (by assumption) ?_
    | split
    | fail_if_no_progress extract_lets
    | dsimp +zetaDelta only)

theorem keeps_execSeqJump {P : Nat} {u t : State} {a0 a1} (he : execSeqJump a0 a1 u = .next t) (hP : Fits 0xa5f9fdb000000000300000001016068002000a1002140a100000000000000000edff01c15801000000 P) : Keeps P u t := by
  unfold execSeqJump at he
  injection he with he
  subst he
  repeat' (first
    | with_reducible exact Keeps.refl P u
    | with_reducible assumption
    | dsimp -zeta only
    | with_reducible refine keeps_seqWord (hP.sub rfl) ?_
    | intro _
    | with_reducible refine keeps_ite ?_ ?_
    | with_reducible refine keeps_ite_fst ?_ ?_
    | with_reducible refine keeps_pair (by assumption) ?_
    | split
    | fail_if_no_progress extract_lets
    | dsimp +zetaDelta only)

theorem keeps_execSeqBranch {P : Nat} {u t : State} {a0 a1} (he : execSeqBranch a0 a1 u = .next t) (hP : Fits 0xa5f9fdb000000000300000001016068002000a1002140a100000000000000000edff01c15801000000 P) : Keeps P u t := by
  unfold execSeqBranch at he
  injection he with he
  subst he
  repeat' (first
    | with_reducible exact Keeps.refl P u
    | with_reducible assumption
    | dsimp -zeta only
    | with_reducible refine keeps_seqWord (hP.sub rfl) ?_
    | intro _
    | with_reducible refine keeps_ite ?_ ?_
    | with_reducible refine keeps_ite_fst ?_ ?_
    | with_reducible refine keeps_pair (by assumption) ?_
    | split
    | fail_if_no_progress extract_lets
    | dsimp +zetaDelta only)

theorem keeps_execSeqMcall {P : Nat} {u t : State} {a0 a1} (he : execSeqMcall a0 a1 u = .next t) (hP : Fits 0xa5f9fdb000000000300000001016068002000a1002140a100000000000000000edff01c15801000000 P) : Keeps P u t := by
  unfold execSeqMcall at he
  injection he with he
  subst he
  repeat' (first
    | with_reducible exact Keeps.refl P u
    | with_reducible assumption
    | dsimp -zeta only
    | with_reducible refine keeps_seqWord (hP.sub rfl) ?_
    | intro _
    | with_reducible refine keeps_ite ?_ ?_
    | with_reducible refine keeps_ite_fst ?_ ?_
    | with_reducible refine keeps_pair (by assumption) ?_
    | split
    | fail_if_no_progress extract_lets
    | dsimp +zetaDelta only)

theorem keeps_execSeqMret {P : Nat} {u t : State} {a0 a1} (he : execSeqMret a0 a1 u = .next t) (hP : Fits 0xa5f9fdb000000000300000001016068002000a1002140a100000000000000000edff01c15801000000 P) : Keeps P u t := by
  unfold execSeqMret at he
  injection he with he
  subst he
  repeat' (first
    | with_reducible exact Keeps.refl P u
    | with_reducible assumption
    | dsimp -zeta only
    | with_reducible refine keeps_seqWord (hP.sub rfl) ?_
    | intro _
    | with_reducible refine keeps_ite ?_ ?_
    | with_reducible refine keeps_ite_fst ?_ ?_
    | with_reducible refine keeps_pair (by assumption) ?_
    | split
    | fail_if_no_progress extract_lets
    | dsimp +zetaDelta only)

theorem keeps_execSeqWait {P : Nat} {u t : State} {a0 a1} (he : execSeqWait a0 a1 u = .next t) (hP : Fits 0xa5f9fdb000000000300000001016068002000a1002140a100000000000000000edff01c15801000000 P) : Keeps P u t := by
  unfold execSeqWait at he
  injection he with he
  subst he
  repeat' (first
    | with_reducible exact Keeps.refl P u
    | with_reducible assumption
    | dsimp -zeta only
    | with_reducible refine keeps_seqWord (hP.sub rfl) ?_
    | intro _
    | with_reducible refine keeps_ite ?_ ?_
    | with_reducible refine keeps_ite_fst ?_ ?_
    | with_reducible refine keeps_pair (by assumption) ?_
    | split
    | fail_if_no_progress extract_lets
    | dsimp +zetaDelta only)

theorem keeps_execSeqWaitTimeout {P : Nat} {u t : State} {a0} (he : execSeqWaitTimeout a0 u = .next t) (hP : Fits 0xa5f9fdb000000000300000001016068002000a1002140a100000000000000000edff01c15801000000 P) : Keeps P u t := by
  unfold execSeqWaitTimeout at he
  injection he with he
  subst he
  repeat' (first
    | with_reducible exact Keeps.refl P u
    | with_reducible assumption
    | dsimp -zeta only
    | with_reducible refine keeps_doWaitTimeout (hP.sub rfl) ?_
    | intro _
    | with_reducible refine keeps_ite ?_ ?_
    | with_reducible refine keeps_ite_fst ?_ ?_
    | with_reducible refine keeps_pair (by assumption) ?_
    | split
    | fail_if_no_progress extract_lets
    | dsimp +zetaDelta only)

theorem keeps_execSeqNext {P : Nat} {u t : State} {a0 a1} (he : execSeqNext a0 a1 u = .next t) (hP : Fits 0xa5f9fdb000000000300000001016068002000a1002140a100000000000000000edff01c15801000000 P) : Keeps P u t := by
  unfold execSeqNext at he
  injection he with he
  subst he
  repeat' (first
    | with_reducible exact Keeps.refl P u
    | with_reducible assumption
    | dsimp -zeta only
    | with_reducible refine keeps_seqWord (hP.sub rfl) ?_
    | intro _
    | with_reducible refine keeps_ite ?_ ?_
    | with_reducible refine keeps_ite_fst ?_ ?_
    | with_reducible refine keeps_pair (by assumption) ?_
    | split
    | fail_if_no_progress extract_lets
    | dsimp +zetaDelta only)

theorem keeps_execSeqRbr {P : Nat} {u t : State} {a0 a1} (he : execSeqRbr a0 a1 u = .next t) (hP : Fits 0xa5f9fdb000000000300000001016068002000a1002140a100000000000000000edff01c15801000000 P) : Keeps P u t := by
  unfold execSeqRbr at he
  injection he with he
  subst he
  repeat' (first
    | with_reducible exact Keeps.refl P u
    | with_reducible assumption
    | dsimp -zeta only
    | with_reducible refine keeps_seqWord (hP.sub rfl) ?_
    | intro _
    | with_reducible refine keeps_ite ?_ ?_
    | with_reducible refine keeps_ite_fst ?_ ?_
    | with_reducible refine keeps_pair (by assumption) ?_
    | split
    | fail_if_no_progress extract_lets
    | dsimp +zetaDelta only)

theorem keeps_execSeqMtab {P : Nat} {u t : State} {a0 a1} (he : execSeqMtab a0 a1 u = .next t) (hP : Fits 0xa5f9fdb000000000300000001016068002000a1002140a100000000000000000edff01c15801000000 P) : Keeps P u t := by
  unfold execSeqMtab at he
  injection he with he
  subst he
  repeat' (first
    | with_reducible exact Keeps.refl P u
    | with_reducible assumption
    | dsimp -zeta only
    | with_reducible refine keeps_seqWord (hP.sub rfl) ?_
    | intro _
    | with_reducible refine keeps_ite ?_ ?_
    | with_reducible refine keeps_ite_fst ?_ ?_
    | with_reducible refine keeps_pair (by assumption) ?_
    | split
    | fail_if_no_progress extract_lets
    | dsimp +zetaDelta only)

theorem keeps_execSeqTrap {P : Nat} {u t : State} {a0 a1} (he : execSeqTrap a0 a1 u = .next t) (hP : Fits 0xa5f9fdb000000000300000001016068002000a1002140a100000000000000000edff01c15801000000 P) : Keeps P u t := by
  unfold execSeqTrap at he
  injection he with he
  subst he
  repeat' (first
    | with_reducible exact Keeps.refl P u
    | with_reducible assumption
    | dsimp -zeta only
    | with_reducible refine keeps_seqWord (hP.sub rfl) ?_
    | intro _
    | with_reducible refine keeps_ite ?_ ?_
    | with_reducible refine keeps_ite_fst ?_ ?_
    | with_reducible refine keeps_pair (by assumption) ?_
    | split
    | fail_if_no_progress extract_lets
    | dsimp +zetaDelta only)

end Sys2Proof.Machine
end

