-- ==== Sys2Proof/Laws/KeepsPilotEvents.lean ====
section
/-! SUPPORT. What each operation of Machine/PilotEvents.lean may change, and that it keeps the invariant: one law for each. -/

set_option linter.unreachableTactic false
set_option linter.unusedTactic false

namespace Sys2Proof.Machine

theorem keeps_refuseLeg {P : Nat} {s u : State} {a1 a2 a3} (hP : Fits 0xa5f8fdb000000000300000000012068002000a1002140a1000000000000000006cf101410001000000 P) (h : Keeps P s u) :
    Keeps P s (State.refuseLeg u a1 a2 a3) := by
  unfold State.refuseLeg
  repeat' (first
    | with_reducible exact h
    | with_reducible assumption
    | dsimp -zeta only
    | with_reducible refine keeps_parkPins (hP.sub rfl) ?_
    | with_reducible refine keeps_endJob (hP.sub rfl) ?_
    | intro _
    | with_reducible refine keeps_ite ?_ ?_
    | with_reducible refine keeps_ite_fst ?_ ?_
    | with_reducible refine keeps_pair (by assumption) ?_
    | split
    | fail_if_no_progress extract_lets
    | dsimp +zetaDelta only)

theorem keeps_legPin {P : Nat} {s u : State} {a1} (hP : Fits 0x1000000000000000000000000000000000000000000000000000000000000000000000000000000 P) (h : Keeps P s u) :
    Keeps P s (State.legPin u a1) := by
  unfold State.legPin
  repeat' (first
    | with_reducible exact h
    | with_reducible assumption
    | dsimp -zeta only
    | with_reducible refine keeps_setPin (hP.sub rfl) ?_
    | intro _
    | with_reducible refine keeps_ite ?_ ?_
    | with_reducible refine keeps_ite_fst ?_ ?_
    | with_reducible refine keeps_pair (by assumption) ?_
    | split
    | fail_if_no_progress extract_lets
    | dsimp +zetaDelta only)

theorem keeps_reportStart {P : Nat} {s u : State} {a1} (hP : Fits 0x188000000000000000000012068000000000000000000000000000000000000000000800000000 P) (h : Keeps P s u) :
    Keeps P s (State.reportStart u a1) := by
  unfold State.reportStart
  repeat' (first
    | with_reducible exact h
    | with_reducible assumption
    | dsimp -zeta only
    | with_reducible refine keeps_jobEvent (hP.sub rfl) ?_
    | with_reducible refine keeps_fput hP rfl ?_
    | intro _
    | with_reducible refine keeps_ite ?_ ?_
    | with_reducible refine keeps_ite_fst ?_ ?_
    | with_reducible refine keeps_pair (by assumption) ?_
    | split
    | fail_if_no_progress extract_lets
    | dsimp +zetaDelta only)

theorem keeps_beginLeg {P : Nat} {s u : State} {a1 a2} (hP : Fits 0x1918800000000000000000001206800000000000000000000000000000000000000000a800000000 P) (h : Keeps P s u) :
    Keeps P s (State.beginLeg u a1 a2) := by
  unfold State.beginLeg
  repeat' (first
    | with_reducible exact h
    | with_reducible assumption
    | dsimp -zeta only
    | with_reducible refine keeps_reportStart (hP.sub rfl) ?_
    | with_reducible refine keeps_setPilot (hP.sub rfl) ?_
    | with_reducible refine keeps_setJob (hP.sub rfl) ?_
    | with_reducible refine keeps_legPin (hP.sub rfl) ?_
    | with_reducible refine keeps_fput hP rfl ?_
    | with_reducible refine keeps_foldl ?_ ?_
    | with_reducible refine keeps_foldl_fst ?_ ?_
    | intro _
    | with_reducible refine keeps_ite ?_ ?_
    | with_reducible refine keeps_ite_fst ?_ ?_
    | with_reducible refine keeps_pair (by assumption) ?_
    | split
    | fail_if_no_progress extract_lets
    | dsimp +zetaDelta only)

theorem keeps_acceptLeg {P : Nat} {s u : State} {a1 a2 a3} (hP : Fits 0x1918800000000000000000001206800000000000000000000000000000000060000000a800004000 P) (h : Keeps P s u) :
    Keeps P s (State.acceptLeg u a1 a2 a3) := by
  unfold State.acceptLeg
  repeat' (first
    | with_reducible exact h
    | with_reducible assumption
    | dsimp -zeta only
    | with_reducible refine keeps_beginLeg (hP.sub rfl) ?_
    | with_reducible refine keeps_setPilot (hP.sub rfl) ?_
    | with_reducible refine keeps_wr hP rfl ?_
    | with_reducible refine keeps_fput hP rfl ?_
    | with_reducible refine keeps_foldl ?_ ?_
    | with_reducible refine keeps_foldl_fst ?_ ?_
    | intro _
    | with_reducible refine keeps_ite ?_ ?_
    | with_reducible refine keeps_ite_fst ?_ ?_
    | with_reducible refine keeps_pair (by assumption) ?_
    | split
    | fail_if_no_progress extract_lets
    | dsimp +zetaDelta only)

theorem keeps_startLeg {P : Nat} {s u : State} {a1 a2} (hP : Fits 0xa5f9fdb000000000300000000012068002000a1002140a1000000000000000006cf10141a801004000 P) (h : Keeps P s u) :
    Keeps P s (State.startLeg u a1 a2).1 := by
  unfold State.startLeg
  repeat' (first
    | with_reducible exact h
    | with_reducible assumption
    | dsimp -zeta only
    | with_reducible refine keeps_refuseLeg (hP.sub rfl) ?_
    | with_reducible refine keeps_acceptLeg (hP.sub rfl) ?_
    | intro _
    | with_reducible refine keeps_ite ?_ ?_
    | with_reducible refine keeps_ite_fst ?_ ?_
    | with_reducible refine keeps_pair (by assumption) ?_
    | split
    | fail_if_no_progress extract_lets
    | dsimp +zetaDelta only)

theorem keeps_startLeg_eq {P : Nat} {s u v : State} {a1 a2} {x} (he : State.startLeg u a1 a2 = (v, x)) (hP : Fits 0xa5f9fdb000000000300000000012068002000a1002140a1000000000000000006cf10141a801004000 P)
    (h : Keeps P s u) : Keeps P s v := by
  have h1 := keeps_startLeg (a1 := a1) (a2 := a2) hP h
  rw [he] at h1
  exact h1

theorem keeps_doMsLegStart {P : Nat} {s u : State} {a1} (hP : Fits 0xa5f9fdb000000000300000000012068002000a1002140a1000000000000000006cf10141a801004000 P) (h : Keeps P s u) :
    Keeps P s (State.doMsLegStart u a1) := by
  unfold State.doMsLegStart
  repeat' (first
    | with_reducible exact h
    | with_reducible assumption
    | dsimp -zeta only
    | with_reducible refine keeps_startLeg (hP.sub rfl) ?_
    | with_reducible refine keeps_startLeg_eq (by assumption) (hP.sub rfl) ?_
    | with_reducible refine keeps_msFireAt_eq (by assumption) (hP.sub rfl) ?_
    | with_reducible refine keeps_msDone (hP.sub rfl) ?_
    | with_reducible refine keeps_endJob (hP.sub rfl) ?_
    | with_reducible refine keeps_id ?_
    | intro _
    | with_reducible refine keeps_ite ?_ ?_
    | with_reducible refine keeps_ite_fst ?_ ?_
    | with_reducible refine keeps_pair (by assumption) ?_
    | split
    | fail_if_no_progress extract_lets
    | dsimp +zetaDelta only)

theorem keeps_doRelativeLegStart {P : Nat} {s u : State} {a1} (hP : Fits 0xa5f9fdb000000000300000000012068002000a1002140a1000000000000000006cf10141a801004000 P) (h : Keeps P s u) :
    Keeps P s (State.doRelativeLegStart u a1) := by
  unfold State.doRelativeLegStart
  repeat' (first
    | with_reducible exact h
    | with_reducible assumption
    | dsimp -zeta only
    | with_reducible refine keeps_startLeg (hP.sub rfl) ?_
    | with_reducible refine keeps_startLeg_eq (by assumption) (hP.sub rfl) ?_
    | with_reducible refine keeps_advance (hP.sub rfl) ?_
    | intro _
    | with_reducible refine keeps_ite ?_ ?_
    | with_reducible refine keeps_ite_fst ?_ ?_
    | with_reducible refine keeps_pair (by assumption) ?_
    | split
    | fail_if_no_progress extract_lets
    | dsimp +zetaDelta only)

theorem keeps_slipEdge {P : Nat} {s u : State} {a1 a2} (hP : Fits 0x1918800000000000000000001206800000000000000000000000000000000000000000a800004000 P) (h : Keeps P s u) :
    Keeps P s (State.slipEdge u a1 a2) := by
  unfold State.slipEdge
  repeat' (first
    | with_reducible exact h
    | with_reducible assumption
    | dsimp -zeta only
    | with_reducible refine keeps_beginLeg (hP.sub rfl) ?_
    | with_reducible refine keeps_fput hP rfl ?_
    | with_reducible refine keeps_bump hP rfl ?_
    | intro _
    | with_reducible refine keeps_ite ?_ ?_
    | with_reducible refine keeps_ite_fst ?_ ?_
    | with_reducible refine keeps_pair (by assumption) ?_
    | split
    | fail_if_no_progress extract_lets
    | dsimp +zetaDelta only)

theorem keeps_doSlipSyncEdge {P : Nat} {s u : State} {a1 a2} (hP : Fits 0x1918900000000000000000001206800000000000000000000000000000000000000000a800004000 P) (h : Keeps P s u) :
    Keeps P s (State.doSlipSyncEdge u a1 a2) := by
  unfold State.doSlipSyncEdge
  repeat' (first
    | with_reducible exact h
    | with_reducible assumption
    | dsimp -zeta only
    | with_reducible refine keeps_slipEdge (hP.sub rfl) ?_
    | with_reducible refine keeps_advance (hP.sub rfl) ?_
    | intro _
    | with_reducible refine keeps_ite ?_ ?_
    | with_reducible refine keeps_ite_fst ?_ ?_
    | with_reducible refine keeps_pair (by assumption) ?_
    | split
    | fail_if_no_progress extract_lets
    | dsimp +zetaDelta only)

theorem keeps_slipMessage {P : Nat} {s u : State} {a1 a2} (hP : Fits 0x1918800000000000000000001206800000000000000000000000000000000000000000a800004000 P) (h : Keeps P s u) :
    Keeps P s (State.slipMessage u a1 a2) := by
  unfold State.slipMessage
  repeat' (first
    | with_reducible exact h
    | with_reducible assumption
    | dsimp -zeta only
    | with_reducible refine keeps_slipEdge (hP.sub rfl) ?_
    | with_reducible refine keeps_bump hP rfl ?_
    | intro _
    | with_reducible refine keeps_ite ?_ ?_
    | with_reducible refine keeps_ite_fst ?_ ?_
    | with_reducible refine keeps_pair (by assumption) ?_
    | split
    | fail_if_no_progress extract_lets
    | dsimp +zetaDelta only)

theorem keeps_doSlipExpiry {P : Nat} {s u : State} {a1} (hP : Fits 0xa5f9fdb000000000300000000012068002000a1002140a1000000000000000006cf101c1f801004000 P) (h : Keeps P s u) :
    Keeps P s (State.doSlipExpiry u a1) := by
  unfold State.doSlipExpiry
  repeat' (first
    | with_reducible exact h
    | with_reducible assumption
    | dsimp -zeta only
    | with_reducible refine keeps_killStart (hP.sub rfl) ?_
    | with_reducible refine keeps_beginLeg (hP.sub rfl) ?_
    | with_reducible refine keeps_advance (hP.sub rfl) ?_
    | with_reducible refine keeps_fput hP rfl ?_
    | intro _
    | with_reducible refine keeps_ite ?_ ?_
    | with_reducible refine keeps_ite_fst ?_ ?_
    | with_reducible refine keeps_pair (by assumption) ?_
    | split
    | fail_if_no_progress extract_lets
    | dsimp +zetaDelta only)

theorem keeps_placeTrans {P : Nat} {s u : State} {a1 a2 a3 a4 a5} (hP : Fits 0x1000000000000000000000000000000000000000000000000000000000000000000000900000000 P) (h : Keeps P s u) :
    Keeps P s (State.placeTrans u a1 a2 a3 a4 a5) := by
  unfold State.placeTrans
  repeat' (first
    | with_reducible exact h
    | with_reducible assumption
    | dsimp -zeta only
    | with_reducible refine keeps_crowded (hP.sub rfl) ?_
    | with_reducible refine keeps_setPin (hP.sub rfl) ?_
    | intro _
    | with_reducible refine keeps_ite ?_ ?_
    | with_reducible refine keeps_ite_fst ?_ ?_
    | with_reducible refine keeps_pair (by assumption) ?_
    | split
    | fail_if_no_progress extract_lets
    | dsimp +zetaDelta only)

theorem keeps_placeDrive {P : Nat} {s u : State} {a1 a2 a3 a4} (hP : Fits 0x1000000000000000000000000000000000000000000000000000200000000000000000900000000 P) (h : Keeps P s u) :
    Keeps P s (State.placeDrive u a1 a2 a3 a4) := by
  unfold State.placeDrive
  repeat' (first
    | with_reducible exact h
    | with_reducible assumption
    | dsimp -zeta only
    | with_reducible refine keeps_placeTrans (hP.sub rfl) ?_
    | with_reducible refine keeps_bump hP rfl ?_
    | intro _
    | with_reducible refine keeps_ite ?_ ?_
    | with_reducible refine keeps_ite_fst ?_ ?_
    | with_reducible refine keeps_pair (by assumption) ?_
    | split
    | fail_if_no_progress extract_lets
    | dsimp +zetaDelta only)

theorem keeps_placeStrobe {P : Nat} {s u : State} {a1 a2 a3 a4} (hP : Fits 0x1000000000000000000000000000000000000000000000000000000000000000000000900000000 P) (h : Keeps P s u) :
    Keeps P s (State.placeStrobe u a1 a2 a3 a4) := by
  unfold State.placeStrobe
  repeat' (first
    | with_reducible exact h
    | with_reducible assumption
    | dsimp -zeta only
    | with_reducible refine keeps_crowded (hP.sub rfl) ?_
    | with_reducible refine keeps_setPin (hP.sub rfl) ?_
    | intro _
    | with_reducible refine keeps_ite ?_ ?_
    | with_reducible refine keeps_ite_fst ?_ ?_
    | with_reducible refine keeps_pair (by assumption) ?_
    | split
    | fail_if_no_progress extract_lets
    | dsimp +zetaDelta only)

theorem keeps_runDeferred {P : Nat} {s u : State} {a1 a2 a3} (hP : Fits 0x609188000000000000000000012068000000000000000000000000200000000000000000900000000 P) (h : Keeps P s u) :
    Keeps P s (State.runDeferred u a1 a2 a3) := by
  unfold State.runDeferred
  repeat' (first
    | with_reducible exact h
    | with_reducible assumption
    | dsimp -zeta only
    | with_reducible refine keeps_sxtWindow (hP.sub rfl) ?_
    | with_reducible refine keeps_report (hP.sub rfl) ?_
    | with_reducible refine keeps_ddsHop (hP.sub rfl) ?_
    | with_reducible refine keeps_sxtArm (hP.sub rfl) ?_
    | with_reducible refine keeps_setLeg (hP.sub rfl) ?_
    | with_reducible refine keeps_foldl ?_ ?_
    | with_reducible refine keeps_foldl_fst ?_ ?_
    | intro _
    | with_reducible refine keeps_ite ?_ ?_
    | with_reducible refine keeps_ite_fst ?_ ?_
    | with_reducible refine keeps_pair (by assumption) ?_
    | split
    | fail_if_no_progress extract_lets
    | dsimp +zetaDelta only)

theorem keeps_periodBegins {P : Nat} {s u : State} {a1 a2 a3 a4} (hP : Fits 0x609188000000000000000000012068000000000000000000000000200000000000000000900000000 P) (h : Keeps P s u) :
    Keeps P s (State.periodBegins u a1 a2 a3 a4) := by
  unfold State.periodBegins
  repeat' (first
    | with_reducible exact h
    | with_reducible assumption
    | dsimp -zeta only
    | with_reducible refine keeps_reportStart (hP.sub rfl) ?_
    | with_reducible refine keeps_runDeferred (hP.sub rfl) ?_
    | with_reducible refine keeps_setLeg (hP.sub rfl) ?_
    | intro _
    | with_reducible refine keeps_ite ?_ ?_
    | with_reducible refine keeps_ite_fst ?_ ?_
    | with_reducible refine keeps_pair (by assumption) ?_
    | split
    | fail_if_no_progress extract_lets
    | dsimp +zetaDelta only)

theorem keeps_doVectorPeriod {P : Nat} {s u : State} {a1} (hP : Fits 0xa7f9fdb000000000300000001012068002000a1002140a1000000002000000006cff01c15901000000 P) (h : Keeps P s u) :
    Keeps P s (State.doVectorPeriod u a1) := by
  unfold State.doVectorPeriod
  repeat' (first
    | with_reducible exact h
    | with_reducible assumption
    | dsimp -zeta only
    | with_reducible refine keeps_periodBegins (hP.sub rfl) ?_
    | with_reducible refine keeps_reportStart (hP.sub rfl) ?_
    | with_reducible refine keeps_placeStrobe (hP.sub rfl) ?_
    | with_reducible refine keeps_lateFaults (hP.sub rfl) ?_
    | with_reducible refine keeps_placeDrive (hP.sub rfl) ?_
    | with_reducible refine keeps_advance (hP.sub rfl) ?_
    | with_reducible refine keeps_killLeg (hP.sub rfl) ?_
    | with_reducible refine keeps_setPin (hP.sub rfl) ?_
    | with_reducible refine keeps_settle (hP.sub rfl) ?_
    | with_reducible refine keeps_setLeg (hP.sub rfl) ?_
    | intro _
    | with_reducible refine keeps_ite ?_ ?_
    | with_reducible refine keeps_ite_fst ?_ ?_
    | with_reducible refine keeps_pair (by assumption) ?_
    | split
    | fail_if_no_progress extract_lets
    | dsimp +zetaDelta only)

theorem keeps_doCompareResult {P : Nat} {s u : State} {a1 a2 a3 a4} (hP : Fits 0xa1e959b000000000300000001012068000000a1002140a1000000000000000004c0f00000000000000 P) (h : Keeps P s u) :
    Keeps P s (State.doCompareResult u a1 a2 a3 a4) := by
  unfold State.doCompareResult
  repeat' (first
    | with_reducible exact h
    | with_reducible assumption
    | dsimp -zeta only
    | with_reducible refine keeps_feelVoltage (hP.sub rfl) ?_
    | with_reducible refine keeps_advance (hP.sub rfl) ?_
    | with_reducible refine keeps_setPin (hP.sub rfl) ?_
    | with_reducible refine keeps_settle (hP.sub rfl) ?_
    | with_reducible refine keeps_setLeg (hP.sub rfl) ?_
    | intro _
    | with_reducible refine keeps_ite ?_ ?_
    | with_reducible refine keeps_ite_fst ?_ ?_
    | with_reducible refine keeps_pair (by assumption) ?_
    | split
    | fail_if_no_progress extract_lets
    | dsimp +zetaDelta only)

theorem keeps_doLegEnd {P : Nat} {s u : State} {a1} (hP : Fits 0xa5f9fdb000000000300000001016068002000a1002140a100000000000000000ecff01c15801000000 P) (h : Keeps P s u) :
    Keeps P s (State.doLegEnd u a1) := by
  unfold State.doLegEnd
  repeat' (first
    | with_reducible exact h
    | with_reducible assumption
    | dsimp -zeta only
    | with_reducible refine keeps_flushPosts (hP.sub rfl) ?_
    | with_reducible refine keeps_finishLeg (hP.sub rfl) ?_
    | with_reducible refine keeps_boundary (hP.sub rfl) ?_
    | with_reducible refine keeps_closeLeg (hP.sub rfl) ?_
    | with_reducible refine keeps_advance (hP.sub rfl) ?_
    | with_reducible refine keeps_endJob (hP.sub rfl) ?_
    | intro _
    | with_reducible refine keeps_ite ?_ ?_
    | with_reducible refine keeps_ite_fst ?_ ?_
    | with_reducible refine keeps_pair (by assumption) ?_
    | split
    | fail_if_no_progress extract_lets
    | dsimp +zetaDelta only)

theorem keeps_doHaltEntry {P : Nat} {s u : State} {a1} (hP : Fits 0xa5f9fdb000000000300000001016068002000a1002140a1000000000000000006cff01c1d801000000 P) (h : Keeps P s u) :
    Keeps P s (State.doHaltEntry u a1) := by
  unfold State.doHaltEntry
  repeat' (first
    | with_reducible exact h
    | with_reducible assumption
    | dsimp -zeta only
    | with_reducible refine keeps_dropFrames (hP.sub rfl) ?_
    | with_reducible refine keeps_killStart (hP.sub rfl) ?_
    | with_reducible refine keeps_parkPins (hP.sub rfl) ?_
    | with_reducible refine keeps_killLeg (hP.sub rfl) ?_
    | with_reducible refine keeps_endJob (hP.sub rfl) ?_
    | with_reducible refine keeps_qTake_eq (by assumption) (hP.sub rfl) ?_
    | intro _
    | with_reducible refine keeps_ite ?_ ?_
    | with_reducible refine keeps_ite_fst ?_ ?_
    | with_reducible refine keeps_pair (by assumption) ?_
    | split
    | fail_if_no_progress extract_lets
    | dsimp +zetaDelta only)

theorem keeps_doSiteQueueEntry {P : Nat} {s u : State} {a1} (hP : Fits 0x2018188000000000000000000016068000000000000000000000000000000000400000000000000000 P) (h : Keeps P s u) :
    Keeps P s (State.doSiteQueueEntry u a1) := by
  unfold State.doSiteQueueEntry
  repeat' (first
    | with_reducible exact h
    | with_reducible assumption
    | dsimp -zeta only
    | with_reducible refine keeps_setPilot (hP.sub rfl) ?_
    | with_reducible refine keeps_jobEvent (hP.sub rfl) ?_
    | with_reducible refine keeps_dropSite (hP.sub rfl) ?_
    | with_reducible refine keeps_setJob (hP.sub rfl) ?_
    | with_reducible refine keeps_qTake_eq (by assumption) (hP.sub rfl) ?_
    | intro _
    | with_reducible refine keeps_ite ?_ ?_
    | with_reducible refine keeps_ite_fst ?_ ?_
    | with_reducible refine keeps_pair (by assumption) ?_
    | split
    | fail_if_no_progress extract_lets
    | dsimp +zetaDelta only)

theorem keeps_blockBytes {P : Nat} {s u : State} {a1} (hP : Fits 0x81e059b000000000300000000012068000000a1002140a100000000000000000000000000000000000 P) (h : Keeps P s u) :
    Keeps P s (State.blockBytes u a1).1 := by
  unfold State.blockBytes
  repeat' (first
    | with_reducible exact h
    | with_reducible assumption
    | dsimp -zeta only
    | with_reducible refine keeps_dvaRead (hP.sub rfl) ?_
    | with_reducible refine keeps_dvaRead_eq (by assumption) (hP.sub rfl) ?_
    | with_reducible refine keeps_foldl ?_ ?_
    | with_reducible refine keeps_foldl_fst ?_ ?_
    | intro _
    | with_reducible refine keeps_ite ?_ ?_
    | with_reducible refine keeps_ite_fst ?_ ?_
    | with_reducible refine keeps_pair (by assumption) ?_
    | split
    | fail_if_no_progress extract_lets
    | dsimp +zetaDelta only)

theorem keeps_blockBytes_eq {P : Nat} {s u v : State} {a1} {x} (he : State.blockBytes u a1 = (v, x)) (hP : Fits 0x81e059b000000000300000000012068000000a1002140a100000000000000000000000000000000000 P)
    (h : Keeps P s u) : Keeps P s v := by
  have h1 := keeps_blockBytes (a1 := a1) hP h
  rw [he] at h1
  exact h1

theorem keeps_writeBlock {P : Nat} {s u : State} {a1 a2 a3} (hP : Fits 0x81e159b000000000300000000012068000000a1002140a100000000000000000000000000000000000 P) (h : Keeps P s u) :
    Keeps P s (State.writeBlock u a1 a2 a3) := by
  unfold State.writeBlock
  repeat' (first
    | with_reducible exact h
    | with_reducible assumption
    | dsimp -zeta only
    | with_reducible refine keeps_blockBytes (hP.sub rfl) ?_
    | with_reducible refine keeps_blockBytes_eq (by assumption) (hP.sub rfl) ?_
    | with_reducible refine keeps_raiseFault (hP.sub rfl) ?_
    | with_reducible refine keeps_raiseFault_eq (by assumption) (hP.sub rfl) ?_
    | with_reducible refine keeps_dvaWrite (hP.sub rfl) ?_
    | with_reducible refine keeps_dvaWrite_eq (by assumption) (hP.sub rfl) ?_
    | with_reducible refine keeps_setPin (hP.sub rfl) ?_
    | with_reducible refine keeps_foldl ?_ ?_
    | with_reducible refine keeps_foldl_fst ?_ ?_
    | intro _
    | with_reducible refine keeps_ite ?_ ?_
    | with_reducible refine keeps_ite_fst ?_ ?_
    | with_reducible refine keeps_pair (by assumption) ?_
    | split
    | fail_if_no_progress extract_lets
    | dsimp +zetaDelta only)

theorem keeps_doCaptureBlockWrite {P : Nat} {s u : State} {a1} (hP : Fits 0x81e959b000000000300000000012068000000a1002140a100000000000000000000000000000000000 P) (h : Keeps P s u) :
    Keeps P s (State.doCaptureBlockWrite u a1) := by
  unfold State.doCaptureBlockWrite
  repeat' (first
    | with_reducible exact h
    | with_reducible assumption
    | dsimp -zeta only
    | with_reducible refine keeps_writeBlock (hP.sub rfl) ?_
    | with_reducible refine keeps_raiseFault (hP.sub rfl) ?_
    | with_reducible refine keeps_raiseFault_eq (by assumption) (hP.sub rfl) ?_
    | with_reducible refine keeps_dvaWrite (hP.sub rfl) ?_
    | with_reducible refine keeps_dvaWrite_eq (by assumption) (hP.sub rfl) ?_
    | with_reducible refine keeps_setStr (hP.sub rfl) ?_
    | intro _
    | with_reducible refine keeps_ite ?_ ?_
    | with_reducible refine keeps_ite_fst ?_ ?_
    | with_reducible refine keeps_pair (by assumption) ?_
    | split
    | fail_if_no_progress extract_lets
    | dsimp +zetaDelta only)

theorem keeps_doCaptureMarker {P : Nat} {s u : State} {a1} (hP : Fits 0x8188000000000000000000012068000000000000000000000000000000000000000000000000000 P) (h : Keeps P s u) :
    Keeps P s (State.doCaptureMarker u a1) := by
  unfold State.doCaptureMarker
  repeat' (first
    | with_reducible exact h
    | with_reducible assumption
    | dsimp -zeta only
    | with_reducible refine keeps_report (hP.sub rfl) ?_
    | with_reducible refine keeps_setStr (hP.sub rfl) ?_
    | intro _
    | with_reducible refine keeps_ite ?_ ?_
    | with_reducible refine keeps_ite_fst ?_ ?_
    | with_reducible refine keeps_pair (by assumption) ?_
    | split
    | fail_if_no_progress extract_lets
    | dsimp +zetaDelta only)

theorem keeps_writeCopy {P : Nat} {s u : State} {a1 a2 a3} (hP : Fits 0x806059a000000000300000000012068000000000001402100000000000000000000000000000000000 P) (h : Keeps P s u) :
    Keeps P s (State.writeCopy u a1 a2 a3) := by
  unfold State.writeCopy
  repeat' (first
    | with_reducible exact h
    | with_reducible assumption
    | dsimp -zeta only
    | with_reducible refine keeps_hbmWrite (hP.sub rfl) ?_
    | intro _
    | with_reducible refine keeps_ite ?_ ?_
    | with_reducible refine keeps_ite_fst ?_ ?_
    | with_reducible refine keeps_pair (by assumption) ?_
    | split
    | fail_if_no_progress extract_lets
    | dsimp +zetaDelta only)

theorem keeps_readCopy {P : Nat} {s u : State} {a1 a2 a3} (hP : Fits 0x806059b00000000030000000001206800000000000140a100000000000000000000000000000000000 P) (h : Keeps P s u) :
    Keeps P s (State.readCopy u a1 a2 a3).1 := by
  unfold State.readCopy
  repeat' (first
    | with_reducible exact h
    | with_reducible assumption
    | dsimp -zeta only
    | with_reducible refine keeps_hbmRead (hP.sub rfl) ?_
    | with_reducible refine keeps_hbmRead_eq (by assumption) (hP.sub rfl) ?_
    | intro _
    | with_reducible refine keeps_ite ?_ ?_
    | with_reducible refine keeps_ite_fst ?_ ?_
    | with_reducible refine keeps_pair (by assumption) ?_
    | split
    | fail_if_no_progress extract_lets
    | dsimp +zetaDelta only)

theorem keeps_readCopy_eq {P : Nat} {s u v : State} {a1 a2 a3} {x} (he : State.readCopy u a1 a2 a3 = (v, x)) (hP : Fits 0x806059b00000000030000000001206800000000000140a100000000000000000000000000000000000 P)
    (h : Keeps P s u) : Keeps P s v := by
  have h1 := keeps_readCopy (a1 := a1) (a2 := a2) (a3 := a3) hP h
  rw [he] at h1
  exact h1

theorem keeps_copyBlock {P : Nat} {s u : State} {a1 a2 a3} (hP : Fits 0x806059b00000000030000000001206800000000000140a100000000000000000000000000000000000 P) (h : Keeps P s u) :
    Keeps P s (State.copyBlock u a1 a2 a3).1 := by
  unfold State.copyBlock
  repeat' (first
    | with_reducible exact h
    | with_reducible assumption
    | dsimp -zeta only
    | with_reducible refine keeps_readCopy (hP.sub rfl) ?_
    | with_reducible refine keeps_readCopy_eq (by assumption) (hP.sub rfl) ?_
    | intro _
    | with_reducible refine keeps_ite ?_ ?_
    | with_reducible refine keeps_ite_fst ?_ ?_
    | with_reducible refine keeps_pair (by assumption) ?_
    | split
    | fail_if_no_progress extract_lets
    | dsimp +zetaDelta only)

theorem keeps_copyBlock_eq {P : Nat} {s u v : State} {a1 a2 a3} {x} (he : State.copyBlock u a1 a2 a3 = (v, x)) (hP : Fits 0x806059b00000000030000000001206800000000000140a100000000000000000000000000000000000 P)
    (h : Keeps P s u) : Keeps P s v := by
  have h1 := keeps_copyBlock (a1 := a1) (a2 := a2) (a3 := a3) hP h
  rw [he] at h1
  exact h1

theorem keeps_refreshBlock {P : Nat} {s u : State} {a1 a2} (hP : Fits 0x800440000000000030000000000000000000000000000000000000000000000000000e000000000000 P) (h : Keeps P s u) :
    Keeps P s (State.refreshBlock u a1 a2) := by
  unfold State.refreshBlock
  repeat' (first
    | with_reducible exact h
    | with_reducible assumption
    | dsimp -zeta only
    | with_reducible refine keeps_refreshLeads (hP.sub rfl) ?_
    | intro _
    | with_reducible refine keeps_ite ?_ ?_
    | with_reducible refine keeps_ite_fst ?_ ?_
    | with_reducible refine keeps_pair (by assumption) ?_
    | split
    | fail_if_no_progress extract_lets
    | dsimp +zetaDelta only)

theorem keeps_resumeReloaded {P : Nat} {s u : State} {a1 a2} (hP : Fits 0xa5f8fdb000000000300000000012068002000a1002140a100000000000000000ecf101410001000000 P) (h : Keeps P s u) :
    Keeps P s (State.resumeReloaded u a1 a2) := by
  unfold State.resumeReloaded
  repeat' (first
    | with_reducible exact h
    | with_reducible assumption
    | dsimp -zeta only
    | with_reducible refine keeps_resumeTrap (hP.sub rfl) ?_
    | with_reducible refine keeps_foldl ?_ ?_
    | with_reducible refine keeps_foldl_fst ?_ ?_
    | intro _
    | with_reducible refine keeps_ite ?_ ?_
    | with_reducible refine keeps_ite_fst ?_ ?_
    | with_reducible refine keeps_pair (by assumption) ?_
    | split
    | fail_if_no_progress extract_lets
    | dsimp +zetaDelta only)

theorem keeps_reloadWords {P : Nat} {s u : State} {a1 a2 a3} (hP : Fits 0x806059b00000000030000000001206800000000000140a100000000000000000000000000000000000 P) (h : Keeps P s u) :
    Keeps P s (State.reloadWords u a1 a2 a3).1 := by
  unfold State.reloadWords
  repeat' (first
    | with_reducible exact h
    | with_reducible assumption
    | dsimp -zeta only
    | with_reducible refine keeps_copyBlock (hP.sub rfl) ?_
    | with_reducible refine keeps_copyBlock_eq (by assumption) (hP.sub rfl) ?_
    | intro _
    | with_reducible refine keeps_ite ?_ ?_
    | with_reducible refine keeps_ite_fst ?_ ?_
    | with_reducible refine keeps_pair (by assumption) ?_
    | split
    | fail_if_no_progress extract_lets
    | dsimp +zetaDelta only)

theorem keeps_reloadWords_eq {P : Nat} {s u v : State} {a1 a2 a3} {x} (he : State.reloadWords u a1 a2 a3 = (v, x)) (hP : Fits 0x806059b00000000030000000001206800000000000140a100000000000000000000000000000000000 P)
    (h : Keeps P s u) : Keeps P s v := by
  have h1 := keeps_reloadWords (a1 := a1) (a2 := a2) (a3 := a3) hP h
  rw [he] at h1
  exact h1

theorem keeps_doControlStoreReload {P : Nat} {s u : State} {a1 a2 a3} (hP : Fits 0xa5fcfdb000000000300000000012068002000a1002140a100000000000000000ecf10f410001000000 P) (h : Keeps P s u) :
    Keeps P s (State.doControlStoreReload u a1 a2 a3) := by
  unfold State.doControlStoreReload
  repeat' (first
    | with_reducible exact h
    | with_reducible assumption
    | dsimp -zeta only
    | with_reducible refine keeps_resumeReloaded (hP.sub rfl) ?_
    | with_reducible refine keeps_refreshBlock (hP.sub rfl) ?_
    | with_reducible refine keeps_reloadWords (hP.sub rfl) ?_
    | with_reducible refine keeps_reloadWords_eq (by assumption) (hP.sub rfl) ?_
    | with_reducible refine keeps_setCluster (hP.sub rfl) ?_
    | with_reducible refine keeps_logWrite (hP.sub rfl) ?_
    | with_reducible refine keeps_fput hP rfl ?_
    | intro _
    | with_reducible refine keeps_ite ?_ ?_
    | with_reducible refine keeps_ite_fst ?_ ?_
    | with_reducible refine keeps_pair (by assumption) ?_
    | split
    | fail_if_no_progress extract_lets
    | dsimp +zetaDelta only)

theorem keeps_doControlStoreScrub {P : Nat} {s u : State} {a1} (hP : Fits 0x800440000000000030000000000000000000000000000000000000000000000000000e000000000000 P) (h : Keeps P s u) :
    Keeps P s (State.doControlStoreScrub u a1) := by
  unfold State.doControlStoreScrub
  repeat' (first
    | with_reducible exact h
    | with_reducible assumption
    | dsimp -zeta only
    | with_reducible refine keeps_readCs (hP.sub rfl) ?_
    | with_reducible refine keeps_readCs_eq (by assumption) (hP.sub rfl) ?_
    | with_reducible refine keeps_foldl ?_ ?_
    | with_reducible refine keeps_foldl_fst ?_ ?_
    | intro _
    | with_reducible refine keeps_ite ?_ ?_
    | with_reducible refine keeps_ite_fst ?_ ?_
    | with_reducible refine keeps_pair (by assumption) ?_
    | split
    | fail_if_no_progress extract_lets
    | dsimp +zetaDelta only)

theorem keeps_execVectorPeriod {P : Nat} {u t : State} {a0} (he : execVectorPeriod a0 u = .next t) (hP : Fits 0xa7f9fdb000000000300000001012068002000a1002140a1000000002000000006cff01c15901000000 P) : Keeps P u t := by
  unfold execVectorPeriod at he
  injection he with he
  subst he
  repeat' (first
    | with_reducible exact Keeps.refl P u
    | with_reducible assumption
    | dsimp -zeta only
    | with_reducible refine keeps_doVectorPeriod (hP.sub rfl) ?_
    | intro _
    | with_reducible refine keeps_ite ?_ ?_
    | with_reducible refine keeps_ite_fst ?_ ?_
    | with_reducible refine keeps_pair (by assumption) ?_
    | split
    | fail_if_no_progress extract_lets
    | dsimp +zetaDelta only)

theorem keeps_execControlStoreReload {P : Nat} {u t : State} {a0 a1 a2} (he : execControlStoreReload a0 a1 a2 u = .next t) (hP : Fits 0xa5fcfdb000000000300000000012068002000a1002140a100000000000000000ecf10f410001000000 P) : Keeps P u t := by
  unfold execControlStoreReload at he
  injection he with he
  subst he
  repeat' (first
    | with_reducible exact Keeps.refl P u
    | with_reducible assumption
    | dsimp -zeta only
    | with_reducible refine keeps_doControlStoreReload (hP.sub rfl) ?_
    | intro _
    | with_reducible refine keeps_ite ?_ ?_
    | with_reducible refine keeps_ite_fst ?_ ?_
    | with_reducible refine keeps_pair (by assumption) ?_
    | split
    | fail_if_no_progress extract_lets
    | dsimp +zetaDelta only)

theorem keeps_execControlStoreScrub {P : Nat} {u t : State} {a0} (he : execControlStoreScrub a0 u = .next t) (hP : Fits 0x800440000000000030000000000000000000000000000000000000000000000000000e000000000000 P) : Keeps P u t := by
  unfold execControlStoreScrub at he
  injection he with he
  subst he
  repeat' (first
    | with_reducible exact Keeps.refl P u
    | with_reducible assumption
    | dsimp -zeta only
    | with_reducible refine keeps_doControlStoreScrub (hP.sub rfl) ?_
    | intro _
    | with_reducible refine keeps_ite ?_ ?_
    | with_reducible refine keeps_ite_fst ?_ ?_
    | with_reducible refine keeps_pair (by assumption) ?_
    | split
    | fail_if_no_progress extract_lets
    | dsimp +zetaDelta only)

theorem keeps_execSiteQueueEntry {P : Nat} {u t : State} {a0} (he : execSiteQueueEntry a0 u = .next t) (hP : Fits 0x2018188000000000000000000016068000000000000000000000000000000000400000000000000000 P) : Keeps P u t := by
  unfold execSiteQueueEntry at he
  injection he with he
  subst he
  repeat' (first
    | with_reducible exact Keeps.refl P u
    | with_reducible assumption
    | dsimp -zeta only
    | with_reducible refine keeps_doSiteQueueEntry (hP.sub rfl) ?_
    | intro _
    | with_reducible refine keeps_ite ?_ ?_
    | with_reducible refine keeps_ite_fst ?_ ?_
    | with_reducible refine keeps_pair (by assumption) ?_
    | split
    | fail_if_no_progress extract_lets
    | dsimp +zetaDelta only)

theorem keeps_execRelativeLegStart {P : Nat} {u t : State} {a0} (he : execRelativeLegStart a0 u = .next t) (hP : Fits 0xa5f9fdb000000000300000000012068002000a1002140a1000000000000000006cf10141a801004000 P) : Keeps P u t := by
  unfold execRelativeLegStart at he
  injection he with he
  subst he
  repeat' (first
    | with_reducible exact Keeps.refl P u
    | with_reducible assumption
    | dsimp -zeta only
    | with_reducible refine keeps_doRelativeLegStart (hP.sub rfl) ?_
    | intro _
    | with_reducible refine keeps_ite ?_ ?_
    | with_reducible refine keeps_ite_fst ?_ ?_
    | with_reducible refine keeps_pair (by assumption) ?_
    | split
    | fail_if_no_progress extract_lets
    | dsimp +zetaDelta only)

theorem keeps_execSlipSyncEdge {P : Nat} {u t : State} {a0 a1} (he : execSlipSyncEdge a0 a1 u = .next t) (hP : Fits 0x1918900000000000000000001206800000000000000000000000000000000000000000a800004000 P) : Keeps P u t := by
  unfold execSlipSyncEdge at he
  injection he with he
  subst he
  repeat' (first
    | with_reducible exact Keeps.refl P u
    | with_reducible assumption
    | dsimp -zeta only
    | with_reducible refine keeps_doSlipSyncEdge (hP.sub rfl) ?_
    | intro _
    | with_reducible refine keeps_ite ?_ ?_
    | with_reducible refine keeps_ite_fst ?_ ?_
    | with_reducible refine keeps_pair (by assumption) ?_
    | split
    | fail_if_no_progress extract_lets
    | dsimp +zetaDelta only)

theorem keeps_execSlipExpiry {P : Nat} {u t : State} {a0} (he : execSlipExpiry a0 u = .next t) (hP : Fits 0xa5f9fdb000000000300000000012068002000a1002140a1000000000000000006cf101c1f801004000 P) : Keeps P u t := by
  unfold execSlipExpiry at he
  injection he with he
  subst he
  repeat' (first
    | with_reducible exact Keeps.refl P u
    | with_reducible assumption
    | dsimp -zeta only
    | with_reducible refine keeps_doSlipExpiry (hP.sub rfl) ?_
    | intro _
    | with_reducible refine keeps_ite ?_ ?_
    | with_reducible refine keeps_ite_fst ?_ ?_
    | with_reducible refine keeps_pair (by assumption) ?_
    | split
    | fail_if_no_progress extract_lets
    | dsimp +zetaDelta only)

theorem keeps_execCaptureBlockWrite {P : Nat} {u t : State} {a0} (he : execCaptureBlockWrite a0 u = .next t) (hP : Fits 0x81e959b000000000300000000012068000000a1002140a100000000000000000000000000000000000 P) : Keeps P u t := by
  unfold execCaptureBlockWrite at he
  injection he with he
  subst he
  repeat' (first
    | with_reducible exact Keeps.refl P u
    | with_reducible assumption
    | dsimp -zeta only
    | with_reducible refine keeps_doCaptureBlockWrite (hP.sub rfl) ?_
    | intro _
    | with_reducible refine keeps_ite ?_ ?_
    | with_reducible refine keeps_ite_fst ?_ ?_
    | with_reducible refine keeps_pair (by assumption) ?_
    | split
    | fail_if_no_progress extract_lets
    | dsimp +zetaDelta only)

theorem keeps_execCaptureMarker {P : Nat} {u t : State} {a0} (he : execCaptureMarker a0 u = .next t) (hP : Fits 0x8188000000000000000000012068000000000000000000000000000000000000000000000000000 P) : Keeps P u t := by
  unfold execCaptureMarker at he
  injection he with he
  subst he
  repeat' (first
    | with_reducible exact Keeps.refl P u
    | with_reducible assumption
    | dsimp -zeta only
    | with_reducible refine keeps_doCaptureMarker (hP.sub rfl) ?_
    | intro _
    | with_reducible refine keeps_ite ?_ ?_
    | with_reducible refine keeps_ite_fst ?_ ?_
    | with_reducible refine keeps_pair (by assumption) ?_
    | split
    | fail_if_no_progress extract_lets
    | dsimp +zetaDelta only)

theorem keeps_execMsLegStart {P : Nat} {u t : State} {a0} (he : execMsLegStart a0 u = .next t) (hP : Fits 0xa5f9fdb000000000300000000012068002000a1002140a1000000000000000006cf10141a801004000 P) : Keeps P u t := by
  unfold execMsLegStart at he
  injection he with he
  subst he
  repeat' (first
    | with_reducible exact Keeps.refl P u
    | with_reducible assumption
    | dsimp -zeta only
    | with_reducible refine keeps_doMsLegStart (hP.sub rfl) ?_
    | with_reducible refine keeps_id ?_
    | intro _
    | with_reducible refine keeps_ite ?_ ?_
    | with_reducible refine keeps_ite_fst ?_ ?_
    | with_reducible refine keeps_pair (by assumption) ?_
    | split
    | fail_if_no_progress extract_lets
    | dsimp +zetaDelta only)

end Sys2Proof.Machine
end

