-- ==== Sys2Proof/Laws/KeepsMicroImage.lean ====
section
/-! SUPPORT. What each operation of Machine/MicroImage.lean may change, and that it keeps the invariant: one law for each. -/

set_option linter.unreachableTactic false
set_option linter.unusedTactic false

namespace Sys2Proof.Machine

theorem keeps_putUcDigest {P : Nat} {s u : State} {a1 a2} (hP : Fits 0x40000000000000 P) (h : Keeps P s u) :
    Keeps P s (State.putUcDigest u a1 a2) := by
  unfold State.putUcDigest
  repeat' (first
    | with_reducible exact h
    | with_reducible assumption
    | dsimp -zeta only
    | with_reducible refine keeps_wr hP rfl ?_
    | with_reducible refine keeps_foldl ?_ ?_
    | with_reducible refine keeps_foldl_fst ?_ ?_
    | intro _
    | with_reducible refine keeps_ite ?_ ?_
    | with_reducible refine keeps_ite_fst ?_ ?_
    | with_reducible refine keeps_pair (by assumption) ?_
    | split
    | fail_if_no_progress extract_lets
    | dsimp +zetaDelta only)

theorem keeps_loadUser {P : Nat} {s u : State} {a1 a2 a3} (hP : Fits 0x800440000000000030000000000000000000000000000000000000000000000000000e000000000000 P) (h : Keeps P s u) :
    Keeps P s (State.loadUser u a1 a2 a3) := by
  unfold State.loadUser
  repeat' (first
    | with_reducible exact h
    | with_reducible assumption
    | dsimp -zeta only
    | with_reducible refine keeps_refreshLeads (hP.sub rfl) ?_
    | with_reducible refine keeps_setCluster (hP.sub rfl) ?_
    | intro _
    | with_reducible refine keeps_ite ?_ ?_
    | with_reducible refine keeps_ite_fst ?_ ?_
    | with_reducible refine keeps_pair (by assumption) ?_
    | split
    | fail_if_no_progress extract_lets
    | dsimp +zetaDelta only)

theorem keeps_installUser {P : Nat} {s u : State} {a1 a2 a3} (hP : Fits 0x806459a00000000030000000001206800000000000140210000000000000000000004e000000000000 P) (h : Keeps P s u) :
    Keeps P s (State.installUser u a1 a2 a3) := by
  unfold State.installUser
  repeat' (first
    | with_reducible exact h
    | with_reducible assumption
    | dsimp -zeta only
    | with_reducible refine keeps_putUcDigest (hP.sub rfl) ?_
    | with_reducible refine keeps_writeCopy (hP.sub rfl) ?_
    | with_reducible refine keeps_loadUser (hP.sub rfl) ?_
    | with_reducible refine keeps_fput hP rfl ?_
    | intro _
    | with_reducible refine keeps_ite ?_ ?_
    | with_reducible refine keeps_ite_fst ?_ ?_
    | with_reducible refine keeps_pair (by assumption) ?_
    | split
    | fail_if_no_progress extract_lets
    | dsimp +zetaDelta only)

theorem keeps_bodyMicrocodeLoad {P : Nat} {s u : State} {k} (hP : Fits 0x81e459b000000000300000000012068000000a1002140a10000000000000000000004e000000000000 P) (h : Keeps P s u) :
    Keeps P s (bodyMicrocodeLoad k u).1 := by
  unfold bodyMicrocodeLoad
  beta_reduce
  repeat' (first
    | with_reducible exact h
    | with_reducible assumption
    | dsimp -zeta only
    | with_reducible refine keeps_installUser (hP.sub rfl) ?_
    | with_reducible refine keeps_payload (hP.sub rfl) ?_
    | with_reducible refine keeps_payload_eq (by assumption) (hP.sub rfl) ?_
    | with_reducible refine keeps_fail (hP.sub rfl) ?_
    | with_reducible refine keeps_fail_eq (by assumption) (hP.sub rfl) ?_
    | with_reducible refine keeps_ok (hP.sub rfl) ?_
    | with_reducible refine keeps_ok_eq (by assumption) (hP.sub rfl) ?_
    | intro _
    | with_reducible refine keeps_ite ?_ ?_
    | with_reducible refine keeps_ite_fst ?_ ?_
    | with_reducible refine keeps_pair (by assumption) ?_
    | split
    | fail_if_no_progress extract_lets
    | dsimp +zetaDelta only)

theorem keeps_bodyMicrocodeLoad_eq {P : Nat} {s u v : State} {k} {x} (he : bodyMicrocodeLoad k u = (v, x)) (hP : Fits 0x81e459b000000000300000000012068000000a1002140a10000000000000000000004e000000000000 P)
    (h : Keeps P s u) : Keeps P s v := by
  have h1 := keeps_bodyMicrocodeLoad (k := k) hP h
  rw [he] at h1
  exact h1

theorem keeps_bodyMicrocodeUnload {P : Nat} {s u : State} {k} (hP : Fits 0x800440000000000030000000000000000000000000000000000000000000000000004e000000000000 P) (h : Keeps P s u) :
    Keeps P s (bodyMicrocodeUnload k u).1 := by
  unfold bodyMicrocodeUnload
  beta_reduce
  repeat' (first
    | with_reducible exact h
    | with_reducible assumption
    | dsimp -zeta only
    | with_reducible refine keeps_putUcDigest (hP.sub rfl) ?_
    | with_reducible refine keeps_loadUser (hP.sub rfl) ?_
    | with_reducible refine keeps_fail (hP.sub rfl) ?_
    | with_reducible refine keeps_fail_eq (by assumption) (hP.sub rfl) ?_
    | with_reducible refine keeps_ok (hP.sub rfl) ?_
    | with_reducible refine keeps_ok_eq (by assumption) (hP.sub rfl) ?_
    | with_reducible refine keeps_fput hP rfl ?_
    | intro _
    | with_reducible refine keeps_ite ?_ ?_
    | with_reducible refine keeps_ite_fst ?_ ?_
    | with_reducible refine keeps_pair (by assumption) ?_
    | split
    | fail_if_no_progress extract_lets
    | dsimp +zetaDelta only)

theorem keeps_bodyMicrocodeUnload_eq {P : Nat} {s u v : State} {k} {x} (he : bodyMicrocodeUnload k u = (v, x)) (hP : Fits 0x800440000000000030000000000000000000000000000000000000000000000000004e000000000000 P)
    (h : Keeps P s u) : Keeps P s v := by
  have h1 := keeps_bodyMicrocodeUnload (k := k) hP h
  rw [he] at h1
  exact h1

theorem keeps_loadVendor {P : Nat} {s u : State} {a1} (hP : Fits 0x800440000000000030000000000000000000000000000000000000000000000000000e000000000000 P) (h : Keeps P s u) :
    Keeps P s (State.loadVendor u a1) := by
  unfold State.loadVendor
  repeat' (first
    | with_reducible exact h
    | with_reducible assumption
    | dsimp -zeta only
    | with_reducible refine keeps_refreshLeads (hP.sub rfl) ?_
    | with_reducible refine keeps_setCluster (hP.sub rfl) ?_
    | intro _
    | with_reducible refine keeps_ite ?_ ?_
    | with_reducible refine keeps_ite_fst ?_ ?_
    | with_reducible refine keeps_pair (by assumption) ?_
    | split
    | fail_if_no_progress extract_lets
    | dsimp +zetaDelta only)

theorem keeps_execMicrocodeLoad {P : Nat} {u t : State} {a0} (he : execMicrocodeLoad a0 u = .next t) (hP : Fits 0xa1e4f9b000000000300000000012068003f00a1002140a10000000000000000000004e000000000000 P) : Keeps P u t := by
  unfold execMicrocodeLoad at he
  injection he with he
  subst he
  repeat' (first
    | with_reducible exact Keeps.refl P u
    | with_reducible assumption
    | dsimp -zeta only
    | with_reducible refine keeps_bodyMicrocodeLoad (hP.sub rfl) ?_
    | with_reducible refine keeps_bodyMicrocodeLoad_eq (by assumption) (hP.sub rfl) ?_
    | with_reducible refine keeps_runCommand (hP.sub rfl) ?_ ?_
    | intro _
    | with_reducible refine keeps_ite ?_ ?_
    | with_reducible refine keeps_ite_fst ?_ ?_
    | with_reducible refine keeps_pair (by assumption) ?_
    | split
    | fail_if_no_progress extract_lets
    | dsimp +zetaDelta only)

theorem keeps_execMicrocodeUnload {P : Nat} {u t : State} {a0} (he : execMicrocodeUnload a0 u = .next t) (hP : Fits 0xa004e02000000000300000000000000003f0000000000000000000000000000000004e000000000000 P) : Keeps P u t := by
  unfold execMicrocodeUnload at he
  injection he with he
  subst he
  repeat' (first
    | with_reducible exact Keeps.refl P u
    | with_reducible assumption
    | dsimp -zeta only
    | with_reducible refine keeps_bodyMicrocodeUnload (hP.sub rfl) ?_
    | with_reducible refine keeps_bodyMicrocodeUnload_eq (by assumption) (hP.sub rfl) ?_
    | with_reducible refine keeps_runCommand (hP.sub rfl) ?_ ?_
    | intro _
    | with_reducible refine keeps_ite ?_ ?_
    | with_reducible refine keeps_ite_fst ?_ ?_
    | with_reducible refine keeps_pair (by assumption) ?_
    | split
    | fail_if_no_progress extract_lets
    | dsimp +zetaDelta only)

end Sys2Proof.Machine
end

