-- ==== Sys2Proof/Laws/KeepsJobControl.lean ====
section
/-! SUPPORT. What each operation of Machine/JobControl.lean may change, and that it keeps the invariant: one law for each. -/

set_option linter.unreachableTactic false
set_option linter.unusedTactic false

namespace Sys2Proof.Machine

theorem keeps_source {P : Nat} {s u : State} {a1 a2 a3 a4} (hP : Fits 0x81e059b000000000300000000012068000000a1002140a100000000000000000000000000000000000 P) (h : Keeps P s u) :
    Keeps P s (State.source u a1 a2 a3 a4).1 := by
  unfold State.source
  repeat' (first
    | with_reducible exact h
    | with_reducible assumption
    | dsimp -zeta only
    | with_reducible refine keeps_hostPayload (hP.sub rfl) ?_
    | with_reducible refine keeps_hostPayload_eq (by assumption) (hP.sub rfl) ?_
    | with_reducible refine keeps_payload (hP.sub rfl) ?_
    | with_reducible refine keeps_payload_eq (by assumption) (hP.sub rfl) ?_
    | intro _
    | with_reducible refine keeps_ite ?_ ?_
    | with_reducible refine keeps_ite_fst ?_ ?_
    | with_reducible refine keeps_pair (by assumption) ?_
    | split
    | fail_if_no_progress extract_lets
    | dsimp +zetaDelta only)

theorem keeps_source_eq {P : Nat} {s u v : State} {a1 a2 a3 a4} {x} (he : State.source u a1 a2 a3 a4 = (v, x)) (hP : Fits 0x81e059b000000000300000000012068000000a1002140a100000000000000000000000000000000000 P)
    (h : Keeps P s u) : Keeps P s v := by
  have h1 := keeps_source (a1 := a1) (a2 := a2) (a3 := a3) (a4 := a4) hP h
  rw [he] at h1
  exact h1

theorem keeps_bodyRouteLoad {P : Nat} {s u : State} {k} (hP : Fits 0x81e059b000000000300000000012068000000a1002140a100000000000000000000000000000000000 P) (h : Keeps P s u) :
    Keeps P s (bodyRouteLoad k u).1 := by
  unfold bodyRouteLoad
  beta_reduce
  repeat' (first
    | with_reducible exact h
    | with_reducible assumption
    | dsimp -zeta only
    | with_reducible refine keeps_storeResult (hP.sub rfl) ?_
    | with_reducible refine keeps_storeResult_eq (by assumption) (hP.sub rfl) ?_
    | with_reducible refine keeps_source (hP.sub rfl) ?_
    | with_reducible refine keeps_source_eq (by assumption) (hP.sub rfl) ?_
    | with_reducible refine keeps_fail (hP.sub rfl) ?_
    | with_reducible refine keeps_fail_eq (by assumption) (hP.sub rfl) ?_
    | with_reducible refine keeps_ok (hP.sub rfl) ?_
    | with_reducible refine keeps_ok_eq (by assumption) (hP.sub rfl) ?_
    | intro _
    | with_reducible refine keeps_ite ?_ ?_
    | with_reducible refine keeps_ite_fst ?_ ?_
    | with_reducible refine keeps_pair (by assumption) ?_
    | split
    | fail_if_no_progress extract_lets
    | dsimp +zetaDelta only)

theorem keeps_bodyRouteLoad_eq {P : Nat} {s u v : State} {k} {x} (he : bodyRouteLoad k u = (v, x)) (hP : Fits 0x81e059b000000000300000000012068000000a1002140a100000000000000000000000000000000000 P)
    (h : Keeps P s u) : Keeps P s v := by
  have h1 := keeps_bodyRouteLoad (k := k) hP h
  rw [he] at h1
  exact h1

theorem keeps_bodyJobDefine {P : Nat} {s u : State} {k} (hP : Fits 0x81f059b000000000300000000012068000000a1002140a100000000000000000000000000000000000 P) (h : Keeps P s u) :
    Keeps P s (bodyJobDefine k u).1 := by
  unfold bodyJobDefine
  beta_reduce
  repeat' (first
    | with_reducible exact h
    | with_reducible assumption
    | dsimp -zeta only
    | with_reducible refine keeps_payload (hP.sub rfl) ?_
    | with_reducible refine keeps_payload_eq (by assumption) (hP.sub rfl) ?_
    | with_reducible refine keeps_setJob (hP.sub rfl) ?_
    | with_reducible refine keeps_fail (hP.sub rfl) ?_
    | with_reducible refine keeps_fail_eq (by assumption) (hP.sub rfl) ?_
    | with_reducible refine keeps_ok (hP.sub rfl) ?_
    | with_reducible refine keeps_ok_eq (by assumption) (hP.sub rfl) ?_
    | intro _
    | with_reducible refine keeps_ite ?_ ?_
    | with_reducible refine keeps_ite_fst ?_ ?_
    | with_reducible refine keeps_pair (by assumption) ?_
    | split
    | fail_if_no_progress extract_lets
    | dsimp +zetaDelta only)

theorem keeps_bodyJobDefine_eq {P : Nat} {s u v : State} {k} {x} (he : bodyJobDefine k u = (v, x)) (hP : Fits 0x81f059b000000000300000000012068000000a1002140a100000000000000000000000000000000000 P)
    (h : Keeps P s u) : Keeps P s v := by
  have h1 := keeps_bodyJobDefine (k := k) hP h
  rw [he] at h1
  exact h1

theorem keeps_bodyJobUndefine {P : Nat} {s u : State} {k} (hP : Fits 0x10000000000000000000000000000000000000000000000000000000000000000000000000000000 P) (h : Keeps P s u) :
    Keeps P s (bodyJobUndefine k u).1 := by
  unfold bodyJobUndefine
  beta_reduce
  repeat' (first
    | with_reducible exact h
    | with_reducible assumption
    | dsimp -zeta only
    | with_reducible refine keeps_setJob (hP.sub rfl) ?_
    | with_reducible refine keeps_fail (hP.sub rfl) ?_
    | with_reducible refine keeps_fail_eq (by assumption) (hP.sub rfl) ?_
    | with_reducible refine keeps_ok (hP.sub rfl) ?_
    | with_reducible refine keeps_ok_eq (by assumption) (hP.sub rfl) ?_
    | intro _
    | with_reducible refine keeps_ite ?_ ?_
    | with_reducible refine keeps_ite_fst ?_ ?_
    | with_reducible refine keeps_pair (by assumption) ?_
    | split
    | fail_if_no_progress extract_lets
    | dsimp +zetaDelta only)

theorem keeps_bodyJobUndefine_eq {P : Nat} {s u v : State} {k} {x} (he : bodyJobUndefine k u = (v, x)) (hP : Fits 0x10000000000000000000000000000000000000000000000000000000000000000000000000000000 P)
    (h : Keeps P s u) : Keeps P s v := by
  have h1 := keeps_bodyJobUndefine (k := k) hP h
  rw [he] at h1
  exact h1

theorem keeps_spanPages {P : Nat} {s u : State} {a1 a2 a3 a4 a5} (hP : Fits 0x80e059b00000000030000000001206800000000002140a100000000000000000000000000000000000 P) (h : Keeps P s u) :
    Keeps P s (State.spanPages u a1 a2 a3 a4 a5).1 := by
  induction a5 generalizing u a1 a2 a3 a4 with
  | zero =>
    unfold State.spanPages
    repeat' (first
      | with_reducible exact h
      | with_reducible assumption
      | dsimp -zeta only
      | with_reducible refine keeps_walk (hP.sub rfl) ?_
      | with_reducible refine keeps_walk_eq (by assumption) (hP.sub rfl) ?_
      | with_reducible refine keeps_bump hP rfl ?_
      | intro _
      | with_reducible refine keeps_ite ?_ ?_
      | with_reducible refine keeps_ite_fst ?_ ?_
      | with_reducible refine keeps_pair (by assumption) ?_
      | split
      | fail_if_no_progress extract_lets
      | dsimp +zetaDelta only)
  | succ n ih =>
    unfold State.spanPages
    repeat' (first
      | with_reducible exact h
      | with_reducible assumption
      | dsimp -zeta only
      | with_reducible apply ih
      | with_reducible refine keeps_pair (w := State.spanPages _ _ _ _ _ _) (by assumption) ?_
      | with_reducible refine keeps_walk (hP.sub rfl) ?_
      | with_reducible refine keeps_walk_eq (by assumption) (hP.sub rfl) ?_
      | with_reducible refine keeps_bump hP rfl ?_
      | intro _
      | with_reducible refine keeps_ite ?_ ?_
      | with_reducible refine keeps_ite_fst ?_ ?_
      | with_reducible refine keeps_pair (by assumption) ?_
      | split
      | fail_if_no_progress extract_lets
      | dsimp +zetaDelta only)

theorem keeps_spanPages_eq {P : Nat} {s u v : State} {a1 a2 a3 a4 a5} {x} (he : State.spanPages u a1 a2 a3 a4 a5 = (v, x)) (hP : Fits 0x80e059b00000000030000000001206800000000002140a100000000000000000000000000000000000 P)
    (h : Keeps P s u) : Keeps P s v := by
  have h1 := keeps_spanPages (a1 := a1) (a2 := a2) (a3 := a3) (a4 := a4) (a5 := a5) hP h
  rw [he] at h1
  exact h1

theorem keeps_span {P : Nat} {s u : State} {a1 a2 a3 a4} (hP : Fits 0x80e059b00000000030000000001206800000000002140a100000000000000000000000000000000000 P) (h : Keeps P s u) :
    Keeps P s (State.span u a1 a2 a3 a4).1 := by
  unfold State.span
  repeat' (first
    | with_reducible exact h
    | with_reducible assumption
    | dsimp -zeta only
    | with_reducible refine keeps_spanPages (hP.sub rfl) ?_
    | with_reducible refine keeps_spanPages_eq (by assumption) (hP.sub rfl) ?_
    | intro _
    | with_reducible refine keeps_ite ?_ ?_
    | with_reducible refine keeps_ite_fst ?_ ?_
    | with_reducible refine keeps_pair (by assumption) ?_
    | split
    | fail_if_no_progress extract_lets
    | dsimp +zetaDelta only)

theorem keeps_span_eq {P : Nat} {s u v : State} {a1 a2 a3 a4} {x} (he : State.span u a1 a2 a3 a4 = (v, x)) (hP : Fits 0x80e059b00000000030000000001206800000000002140a100000000000000000000000000000000000 P)
    (h : Keeps P s u) : Keeps P s v := by
  have h1 := keeps_span (a1 := a1) (a2 := a2) (a3 := a3) (a4 := a4) hP h
  rw [he] at h1
  exact h1

theorem keeps_spanWritable {P : Nat} {s u : State} {a1 a2 a3} (hP : Fits 0x80e059b00000000030000000001206800000000002140a100000000000000000000000000000000000 P) (h : Keeps P s u) :
    Keeps P s (State.spanWritable u a1 a2 a3).1 := by
  unfold State.spanWritable
  repeat' (first
    | with_reducible exact h
    | with_reducible assumption
    | dsimp -zeta only
    | with_reducible refine keeps_span (hP.sub rfl) ?_
    | with_reducible refine keeps_span_eq (by assumption) (hP.sub rfl) ?_
    | intro _
    | with_reducible refine keeps_ite ?_ ?_
    | with_reducible refine keeps_ite_fst ?_ ?_
    | with_reducible refine keeps_pair (by assumption) ?_
    | split
    | fail_if_no_progress extract_lets
    | dsimp +zetaDelta only)

theorem keeps_spanWritable_eq {P : Nat} {s u v : State} {a1 a2 a3} {x} (he : State.spanWritable u a1 a2 a3 = (v, x)) (hP : Fits 0x80e059b00000000030000000001206800000000002140a100000000000000000000000000000000000 P)
    (h : Keeps P s u) : Keeps P s v := by
  have h1 := keeps_spanWritable (a1 := a1) (a2 := a2) (a3 := a3) hP h
  rw [he] at h1
  exact h1

theorem keeps_spansWritable {P : Nat} {s u : State} {a1 a2} (hP : Fits 0x80e059b00000000030000000001206800000000002140a100000000000000000000000000000000000 P) (h : Keeps P s u) :
    Keeps P s (State.spansWritable u a1 a2).1 := by
  induction a2 generalizing u a1 with
  | nil =>
    unfold State.spansWritable
    repeat' (first
      | with_reducible exact h
      | with_reducible assumption
      | dsimp -zeta only
      | with_reducible refine keeps_spanWritable (hP.sub rfl) ?_
      | with_reducible refine keeps_spanWritable_eq (by assumption) (hP.sub rfl) ?_
      | intro _
      | with_reducible refine keeps_ite ?_ ?_
      | with_reducible refine keeps_ite_fst ?_ ?_
      | with_reducible refine keeps_pair (by assumption) ?_
      | split
      | fail_if_no_progress extract_lets
      | dsimp +zetaDelta only)
  | cons x r ih =>
    unfold State.spansWritable
    repeat' (first
      | with_reducible exact h
      | with_reducible assumption
      | dsimp -zeta only
      | with_reducible apply ih
      | with_reducible refine keeps_pair (w := State.spansWritable _ _ _) (by assumption) ?_
      | with_reducible refine keeps_spanWritable (hP.sub rfl) ?_
      | with_reducible refine keeps_spanWritable_eq (by assumption) (hP.sub rfl) ?_
      | intro _
      | with_reducible refine keeps_ite ?_ ?_
      | with_reducible refine keeps_ite_fst ?_ ?_
      | with_reducible refine keeps_pair (by assumption) ?_
      | split
      | fail_if_no_progress extract_lets
      | dsimp +zetaDelta only)

theorem keeps_spansWritable_eq {P : Nat} {s u v : State} {a1 a2} {x} (he : State.spansWritable u a1 a2 = (v, x)) (hP : Fits 0x80e059b00000000030000000001206800000000002140a100000000000000000000000000000000000 P)
    (h : Keeps P s u) : Keeps P s v := by
  have h1 := keeps_spansWritable (a1 := a1) (a2 := a2) hP h
  rw [he] at h1
  exact h1

theorem keeps_startBasics {P : Nat} {s u : State} {a1} (hP : Fits 0x80e059b00000000030000000001206800000000002140a100000000000000000000000000000000000 P) (h : Keeps P s u) :
    Keeps P s (State.startBasics u a1).1 := by
  unfold State.startBasics
  repeat' (first
    | with_reducible exact h
    | with_reducible assumption
    | dsimp -zeta only
    | with_reducible refine keeps_spansWritable (hP.sub rfl) ?_
    | with_reducible refine keeps_spansWritable_eq (by assumption) (hP.sub rfl) ?_
    | intro _
    | with_reducible refine keeps_ite ?_ ?_
    | with_reducible refine keeps_ite_fst ?_ ?_
    | with_reducible refine keeps_pair (by assumption) ?_
    | split
    | fail_if_no_progress extract_lets
    | dsimp +zetaDelta only)

theorem keeps_startBasics_eq {P : Nat} {s u v : State} {a1} {x} (he : State.startBasics u a1 = (v, x)) (hP : Fits 0x80e059b00000000030000000001206800000000002140a100000000000000000000000000000000000 P)
    (h : Keeps P s u) : Keeps P s v := by
  have h1 := keeps_startBasics (a1 := a1) hP h
  rw [he] at h1
  exact h1

theorem keeps_loadNum {P : Nat} {s u : State} {a1 a2 a3} (hP : Fits 0x81e059b000000000300000000012068000000a1002140a100000000000000000000000000000000000 P) (h : Keeps P s u) :
    Keeps P s (State.loadNum u a1 a2 a3).1 := by
  unfold State.loadNum
  repeat' (first
    | with_reducible exact h
    | with_reducible assumption
    | dsimp -zeta only
    | with_reducible refine keeps_payload (hP.sub rfl) ?_
    | with_reducible refine keeps_payload_eq (by assumption) (hP.sub rfl) ?_
    | intro _
    | with_reducible refine keeps_ite ?_ ?_
    | with_reducible refine keeps_ite_fst ?_ ?_
    | with_reducible refine keeps_pair (by assumption) ?_
    | split
    | fail_if_no_progress extract_lets
    | dsimp +zetaDelta only)

theorem keeps_loadNum_eq {P : Nat} {s u v : State} {a1 a2 a3} {x} (he : State.loadNum u a1 a2 a3 = (v, x)) (hP : Fits 0x81e059b000000000300000000012068000000a1002140a100000000000000000000000000000000000 P)
    (h : Keeps P s u) : Keeps P s v := by
  have h1 := keeps_loadNum (a1 := a1) (a2 := a2) (a3 := a3) hP h
  rw [he] at h1
  exact h1

theorem keeps_startRoute {P : Nat} {s u : State} {a1} (hP : Fits 0x81e059b000000000300000000012068000000a1002140a100000000000000000000000000000000000 P) (h : Keeps P s u) :
    Keeps P s (State.startRoute u a1).1 := by
  unfold State.startRoute
  repeat' (first
    | with_reducible exact h
    | with_reducible assumption
    | dsimp -zeta only
    | with_reducible refine keeps_loadNum (hP.sub rfl) ?_
    | with_reducible refine keeps_loadNum_eq (by assumption) (hP.sub rfl) ?_
    | with_reducible refine keeps_foldl ?_ ?_
    | with_reducible refine keeps_foldl_fst ?_ ?_
    | intro _
    | with_reducible refine keeps_ite ?_ ?_
    | with_reducible refine keeps_ite_fst ?_ ?_
    | with_reducible refine keeps_pair (by assumption) ?_
    | split
    | fail_if_no_progress extract_lets
    | dsimp +zetaDelta only)

theorem keeps_startRoute_eq {P : Nat} {s u v : State} {a1} {x} (he : State.startRoute u a1 = (v, x)) (hP : Fits 0x81e059b000000000300000000012068000000a1002140a100000000000000000000000000000000000 P)
    (h : Keeps P s u) : Keeps P s v := by
  have h1 := keeps_startRoute (a1 := a1) hP h
  rw [he] at h1
  exact h1

theorem keeps_mappedPages {P : Nat} {s u : State} {a1 a2 a3 a4} (hP : Fits 0x80e059b00000000030000000001206800000000002140a100000000000000000000000000000000000 P) (h : Keeps P s u) :
    Keeps P s (State.mappedPages u a1 a2 a3 a4).1 := by
  induction a4 generalizing u a1 a2 a3 with
  | zero =>
    unfold State.mappedPages
    repeat' (first
      | with_reducible exact h
      | with_reducible assumption
      | dsimp -zeta only
      | with_reducible refine keeps_walk (hP.sub rfl) ?_
      | with_reducible refine keeps_walk_eq (by assumption) (hP.sub rfl) ?_
      | with_reducible refine keeps_bump hP rfl ?_
      | intro _
      | with_reducible refine keeps_ite ?_ ?_
      | with_reducible refine keeps_ite_fst ?_ ?_
      | with_reducible refine keeps_pair (by assumption) ?_
      | split
      | fail_if_no_progress extract_lets
      | dsimp +zetaDelta only)
  | succ n ih =>
    unfold State.mappedPages
    repeat' (first
      | with_reducible exact h
      | with_reducible assumption
      | dsimp -zeta only
      | with_reducible apply ih
      | with_reducible refine keeps_pair (w := State.mappedPages _ _ _ _ _) (by assumption) ?_
      | with_reducible refine keeps_walk (hP.sub rfl) ?_
      | with_reducible refine keeps_walk_eq (by assumption) (hP.sub rfl) ?_
      | with_reducible refine keeps_bump hP rfl ?_
      | intro _
      | with_reducible refine keeps_ite ?_ ?_
      | with_reducible refine keeps_ite_fst ?_ ?_
      | with_reducible refine keeps_pair (by assumption) ?_
      | split
      | fail_if_no_progress extract_lets
      | dsimp +zetaDelta only)

theorem keeps_mappedPages_eq {P : Nat} {s u v : State} {a1 a2 a3 a4} {x} (he : State.mappedPages u a1 a2 a3 a4 = (v, x)) (hP : Fits 0x80e059b00000000030000000001206800000000002140a100000000000000000000000000000000000 P)
    (h : Keeps P s u) : Keeps P s v := by
  have h1 := keeps_mappedPages (a1 := a1) (a2 := a2) (a3 := a3) (a4 := a4) hP h
  rw [he] at h1
  exact h1

theorem keeps_regionDemand {P : Nat} {s u : State} {a1 a2 a3 a4 a5} (hP : Fits 0x80e059b00000000030000000001206800000000002140a100000000000000000000000000000000000 P) (h : Keeps P s u) :
    Keeps P s (State.regionDemand u a1 a2 a3 a4 a5).1 := by
  unfold State.regionDemand
  repeat' (first
    | with_reducible exact h
    | with_reducible assumption
    | dsimp -zeta only
    | with_reducible refine keeps_mappedPages (hP.sub rfl) ?_
    | with_reducible refine keeps_mappedPages_eq (by assumption) (hP.sub rfl) ?_
    | intro _
    | with_reducible refine keeps_ite ?_ ?_
    | with_reducible refine keeps_ite_fst ?_ ?_
    | with_reducible refine keeps_pair (by assumption) ?_
    | split
    | fail_if_no_progress extract_lets
    | dsimp +zetaDelta only)

theorem keeps_regionDemand_eq {P : Nat} {s u v : State} {a1 a2 a3 a4 a5} {x} (he : State.regionDemand u a1 a2 a3 a4 a5 = (v, x)) (hP : Fits 0x80e059b00000000030000000001206800000000002140a100000000000000000000000000000000000 P)
    (h : Keeps P s u) : Keeps P s v := by
  have h1 := keeps_regionDemand (a1 := a1) (a2 := a2) (a3 := a3) (a4 := a4) (a5 := a5) hP h
  rw [he] at h1
  exact h1

theorem keeps_demandOf {P : Nat} {s u : State} {a1 a2} (hP : Fits 0x80e059b00000000030000000001206800000000002140a100000000000000000000000000000000000 P) (h : Keeps P s u) :
    Keeps P s (State.demandOf u a1 a2).1 := by
  unfold State.demandOf
  repeat' (first
    | with_reducible exact h
    | with_reducible assumption
    | dsimp -zeta only
    | with_reducible refine keeps_regionDemand (hP.sub rfl) ?_
    | with_reducible refine keeps_regionDemand_eq (by assumption) (hP.sub rfl) ?_
    | intro _
    | with_reducible refine keeps_ite ?_ ?_
    | with_reducible refine keeps_ite_fst ?_ ?_
    | with_reducible refine keeps_pair (by assumption) ?_
    | split
    | fail_if_no_progress extract_lets
    | dsimp +zetaDelta only)

theorem keeps_demandOf_eq {P : Nat} {s u v : State} {a1 a2} {x} (he : State.demandOf u a1 a2 = (v, x)) (hP : Fits 0x80e059b00000000030000000001206800000000002140a100000000000000000000000000000000000 P)
    (h : Keeps P s u) : Keeps P s v := by
  have h1 := keeps_demandOf (a1 := a1) (a2 := a2) hP h
  rw [he] at h1
  exact h1

theorem keeps_acceptJob {P : Nat} {s u : State} {a1 a2 a3} (hP : Fits 0xa5f8fdb000000000300000000012068002000a1002140a100000000000000000ecf101410001000000 P) (h : Keeps P s u) :
    Keeps P s (State.acceptJob u a1 a2 a3) := by
  unfold State.acceptJob
  repeat' (first
    | with_reducible exact h
    | with_reducible assumption
    | dsimp -zeta only
    | with_reducible refine keeps_setPilot (hP.sub rfl) ?_
    | with_reducible refine keeps_giveJob (hP.sub rfl) ?_
    | with_reducible refine keeps_suspend (hP.sub rfl) ?_
    | with_reducible refine keeps_setJob (hP.sub rfl) ?_
    | intro _
    | with_reducible refine keeps_ite ?_ ?_
    | with_reducible refine keeps_ite_fst ?_ ?_
    | with_reducible refine keeps_pair (by assumption) ?_
    | split
    | fail_if_no_progress extract_lets
    | dsimp +zetaDelta only)

theorem keeps_bodyJobStart {P : Nat} {s u : State} {k} (hP : Fits 0xa5f8fdb000000000300000000012068002000a1002140a100000000000000000ecf101410001010000 P) (h : Keeps P s u) :
    Keeps P s (bodyJobStart k u).1 := by
  unfold bodyJobStart
  beta_reduce
  repeat' (first
    | with_reducible exact h
    | with_reducible assumption
    | dsimp -zeta only
    | with_reducible refine keeps_startBasics (hP.sub rfl) ?_
    | with_reducible refine keeps_startBasics_eq (by assumption) (hP.sub rfl) ?_
    | with_reducible refine keeps_startRoute (hP.sub rfl) ?_
    | with_reducible refine keeps_startRoute_eq (by assumption) (hP.sub rfl) ?_
    | with_reducible refine keeps_acceptJob (hP.sub rfl) ?_
    | with_reducible refine keeps_msCommit (hP.sub rfl) ?_
    | with_reducible refine keeps_msCommit_eq (by assumption) (hP.sub rfl) ?_
    | with_reducible refine keeps_demandOf (hP.sub rfl) ?_
    | with_reducible refine keeps_demandOf_eq (by assumption) (hP.sub rfl) ?_
    | with_reducible refine keeps_okResult (hP.sub rfl) ?_
    | with_reducible refine keeps_okResult_eq (by assumption) (hP.sub rfl) ?_
    | with_reducible refine keeps_fail (hP.sub rfl) ?_
    | with_reducible refine keeps_fail_eq (by assumption) (hP.sub rfl) ?_
    | with_reducible refine keeps_id ?_
    | intro _
    | with_reducible refine keeps_ite ?_ ?_
    | with_reducible refine keeps_ite_fst ?_ ?_
    | with_reducible refine keeps_pair (by assumption) ?_
    | split
    | fail_if_no_progress extract_lets
    | dsimp +zetaDelta only)

theorem keeps_bodyJobStart_eq {P : Nat} {s u v : State} {k} {x} (he : bodyJobStart k u = (v, x)) (hP : Fits 0xa5f8fdb000000000300000000012068002000a1002140a100000000000000000ecf101410001010000 P)
    (h : Keeps P s u) : Keeps P s v := by
  have h1 := keeps_bodyJobStart (k := k) hP h
  rw [he] at h1
  exact h1

theorem keeps_postSystem {P : Nat} {s u : State} {a1 a2} (hP : Fits 0x188000000000000000000002008000000000000000000000000000000000000000000000000000 P) (h : Keeps P s u) :
    Keeps P s (State.postSystem u a1 a2) := by
  unfold State.postSystem
  repeat' (first
    | with_reducible exact h
    | with_reducible assumption
    | dsimp -zeta only
    | with_reducible refine keeps_qPush (hP.sub rfl) ?_
    | intro _
    | with_reducible refine keeps_ite ?_ ?_
    | with_reducible refine keeps_ite_fst ?_ ?_
    | with_reducible refine keeps_pair (by assumption) ?_
    | split
    | fail_if_no_progress extract_lets
    | dsimp +zetaDelta only)

theorem keeps_cancelLegStarts {P : Nat} {s u : State} {a1} (hP : Fits 0x2400fca000000000000000000012068002000000000000000000000000000000000000000000000000 P) (h : Keeps P s u) :
    Keeps P s (State.cancelLegStarts u a1) := by
  unfold State.cancelLegStarts
  repeat' (first
    | with_reducible exact h
    | with_reducible assumption
    | dsimp -zeta only
    | with_reducible refine keeps_msRemove (hP.sub rfl) ?_
    | with_reducible refine keeps_msDrop (hP.sub rfl) ?_
    | with_reducible refine keeps_foldl ?_ ?_
    | with_reducible refine keeps_foldl_fst ?_ ?_
    | intro _
    | with_reducible refine keeps_ite ?_ ?_
    | with_reducible refine keeps_ite_fst ?_ ?_
    | with_reducible refine keeps_pair (by assumption) ?_
    | split
    | fail_if_no_progress extract_lets
    | dsimp +zetaDelta only)

theorem keeps_endOutside {P : Nat} {s u : State} {a1} (hP : Fits 0xa5f8fdb000000000300000000012068002000a1002140a1000000000000000006cf101410000000000 P) (h : Keeps P s u) :
    Keeps P s (State.endOutside u a1) := by
  unfold State.endOutside
  repeat' (first
    | with_reducible exact h
    | with_reducible assumption
    | dsimp -zeta only
    | with_reducible refine keeps_dropFrames (hP.sub rfl) ?_
    | with_reducible refine keeps_endJob (hP.sub rfl) ?_
    | intro _
    | with_reducible refine keeps_ite ?_ ?_
    | with_reducible refine keeps_ite_fst ?_ ?_
    | with_reducible refine keeps_pair (by assumption) ?_
    | split
    | fail_if_no_progress extract_lets
    | dsimp +zetaDelta only)

theorem keeps_bodyHaltJob {P : Nat} {s u : State} {k} (hP : Fits 0xa5f8fdb000000000300000000012068002040a1002140a1000000000000000006cf101410000000000 P) (h : Keeps P s u) :
    Keeps P s (bodyHaltJob k u).1 := by
  unfold bodyHaltJob
  beta_reduce
  repeat' (first
    | with_reducible exact h
    | with_reducible assumption
    | dsimp -zeta only
    | with_reducible refine keeps_cancelLegStarts (hP.sub rfl) ?_
    | with_reducible refine keeps_endOutside (hP.sub rfl) ?_
    | with_reducible refine keeps_postSystem (hP.sub rfl) ?_
    | with_reducible refine keeps_fail (hP.sub rfl) ?_
    | with_reducible refine keeps_fail_eq (by assumption) (hP.sub rfl) ?_
    | with_reducible refine keeps_ok (hP.sub rfl) ?_
    | with_reducible refine keeps_ok_eq (by assumption) (hP.sub rfl) ?_
    | with_reducible refine keeps_bump hP rfl ?_
    | intro _
    | with_reducible refine keeps_ite ?_ ?_
    | with_reducible refine keeps_ite_fst ?_ ?_
    | with_reducible refine keeps_pair (by assumption) ?_
    | split
    | fail_if_no_progress extract_lets
    | dsimp +zetaDelta only)

theorem keeps_bodyHaltJob_eq {P : Nat} {s u v : State} {k} {x} (he : bodyHaltJob k u = (v, x)) (hP : Fits 0xa5f8fdb000000000300000000012068002040a1002140a1000000000000000006cf101410000000000 P)
    (h : Keeps P s u) : Keeps P s v := by
  have h1 := keeps_bodyHaltJob (k := k) hP h
  rw [he] at h1
  exact h1

theorem keeps_abortUntaken {P : Nat} {s u : State} (hP : Fits 0x2000e02000000000000000000000000002400000000000000000000000000000000000000000000000 P) (h : Keeps P s u) :
    Keeps P s (State.abortUntaken u) := by
  unfold State.abortUntaken
  repeat' (first
    | with_reducible exact h
    | with_reducible assumption
    | dsimp -zeta only
    | with_reducible refine keeps_conclude (hP.sub rfl) ?_
    | with_reducible refine keeps_tick hP rfl ?_
    | with_reducible refine keeps_setRing hP rfl ?_ (fun h => h)
    | with_reducible refine keeps_setRing hP rfl ?_ (fun _ => by simp)
    | with_reducible refine keeps_setRing hP rfl ?_ (fun h => by simpa using h)
    | with_reducible refine keeps_foldl ?_ ?_
    | with_reducible refine keeps_foldl_fst ?_ ?_
    | intro _
    | with_reducible refine keeps_ite ?_ ?_
    | with_reducible refine keeps_ite_fst ?_ ?_
    | with_reducible refine keeps_pair (by assumption) ?_
    | split
    | fail_if_no_progress extract_lets
    | fail_if_no_progress with_reducible refine keeps_helm hP rfl ?_ rfl rfl
    | dsimp +zetaDelta only)

theorem keeps_abortAll {P : Nat} {s u : State} (hP : Fits 0xa5f8fdb000000000300000000012068002440a1002140a1000000000000000006cf101410001000000 P) (h : Keeps P s u) :
    Keeps P s (State.abortAll u) := by
  unfold State.abortAll
  repeat' (first
    | with_reducible exact h
    | with_reducible assumption
    | dsimp -zeta only
    | with_reducible refine keeps_abortUntaken (hP.sub rfl) ?_
    | with_reducible refine keeps_endOutside (hP.sub rfl) ?_
    | with_reducible refine keeps_postSystem (hP.sub rfl) ?_
    | with_reducible refine keeps_msDropAll (hP.sub rfl) ?_
    | with_reducible refine keeps_parkPins (hP.sub rfl) ?_
    | with_reducible refine keeps_bump hP rfl ?_
    | with_reducible refine keeps_foldl ?_ ?_
    | with_reducible refine keeps_foldl_fst ?_ ?_
    | intro _
    | with_reducible refine keeps_ite ?_ ?_
    | with_reducible refine keeps_ite_fst ?_ ?_
    | with_reducible refine keeps_pair (by assumption) ?_
    | split
    | fail_if_no_progress extract_lets
    | dsimp +zetaDelta only)

theorem keeps_bodySiteMask {P : Nat} {s u : State} {k} (hP : Fits 0x18000000000000000000000000000000000000000000000000000000000000000000000000000000 P) (h : Keeps P s u) :
    Keeps P s (bodySiteMask k u).1 := by
  unfold bodySiteMask
  beta_reduce
  repeat' (first
    | with_reducible exact h
    | with_reducible assumption
    | dsimp -zeta only
    | with_reducible refine keeps_setPilot (hP.sub rfl) ?_
    | with_reducible refine keeps_setJob (hP.sub rfl) ?_
    | with_reducible refine keeps_fail (hP.sub rfl) ?_
    | with_reducible refine keeps_fail_eq (by assumption) (hP.sub rfl) ?_
    | with_reducible refine keeps_ok (hP.sub rfl) ?_
    | with_reducible refine keeps_ok_eq (by assumption) (hP.sub rfl) ?_
    | intro _
    | with_reducible refine keeps_ite ?_ ?_
    | with_reducible refine keeps_ite_fst ?_ ?_
    | with_reducible refine keeps_pair (by assumption) ?_
    | split
    | fail_if_no_progress extract_lets
    | dsimp +zetaDelta only)

theorem keeps_bodySiteMask_eq {P : Nat} {s u v : State} {k} {x} (he : bodySiteMask k u = (v, x)) (hP : Fits 0x18000000000000000000000000000000000000000000000000000000000000000000000000000000 P)
    (h : Keeps P s u) : Keeps P s v := by
  have h1 := keeps_bodySiteMask (k := k) hP h
  rw [he] at h1
  exact h1

theorem keeps_bodySiteDrop {P : Nat} {s u : State} {k} (hP : Fits 0x188000000000000000000002008000000000000000000000000000000000000000000000000000 P) (h : Keeps P s u) :
    Keeps P s (bodySiteDrop k u).1 := by
  unfold bodySiteDrop
  beta_reduce
  repeat' (first
    | with_reducible exact h
    | with_reducible assumption
    | dsimp -zeta only
    | with_reducible refine keeps_postSystem (hP.sub rfl) ?_
    | with_reducible refine keeps_fail (hP.sub rfl) ?_
    | with_reducible refine keeps_fail_eq (by assumption) (hP.sub rfl) ?_
    | with_reducible refine keeps_ok (hP.sub rfl) ?_
    | with_reducible refine keeps_ok_eq (by assumption) (hP.sub rfl) ?_
    | intro _
    | with_reducible refine keeps_ite ?_ ?_
    | with_reducible refine keeps_ite_fst ?_ ?_
    | with_reducible refine keeps_pair (by assumption) ?_
    | split
    | fail_if_no_progress extract_lets
    | dsimp +zetaDelta only)

theorem keeps_bodySiteDrop_eq {P : Nat} {s u v : State} {k} {x} (he : bodySiteDrop k u = (v, x)) (hP : Fits 0x188000000000000000000002008000000000000000000000000000000000000000000000000000 P)
    (h : Keeps P s u) : Keeps P s v := by
  have h1 := keeps_bodySiteDrop (k := k) hP h
  rw [he] at h1
  exact h1

theorem keeps_bodyTrapResume {P : Nat} {s u : State} {k} (hP : Fits 0xa5f8fdb000000000300000000016068002000a1002140a100000000000000000ecf101410001000000 P) (h : Keeps P s u) :
    Keeps P s (bodyTrapResume k u).1 := by
  unfold bodyTrapResume
  beta_reduce
  repeat' (first
    | with_reducible exact h
    | with_reducible assumption
    | dsimp -zeta only
    | with_reducible refine keeps_postSystem (hP.sub rfl) ?_
    | with_reducible refine keeps_tryResume (hP.sub rfl) ?_
    | with_reducible refine keeps_fail (hP.sub rfl) ?_
    | with_reducible refine keeps_fail_eq (by assumption) (hP.sub rfl) ?_
    | with_reducible refine keeps_ok (hP.sub rfl) ?_
    | with_reducible refine keeps_ok_eq (by assumption) (hP.sub rfl) ?_
    | intro _
    | with_reducible refine keeps_ite ?_ ?_
    | with_reducible refine keeps_ite_fst ?_ ?_
    | with_reducible refine keeps_pair (by assumption) ?_
    | split
    | fail_if_no_progress extract_lets
    | dsimp +zetaDelta only)

theorem keeps_bodyTrapResume_eq {P : Nat} {s u v : State} {k} {x} (he : bodyTrapResume k u = (v, x)) (hP : Fits 0xa5f8fdb000000000300000000016068002000a1002140a100000000000000000ecf101410001000000 P)
    (h : Keeps P s u) : Keeps P s v := by
  have h1 := keeps_bodyTrapResume (k := k) hP h
  rw [he] at h1
  exact h1

theorem keeps_execRouteLoad {P : Nat} {u t : State} {a0} (he : execRouteLoad a0 u = .next t) (hP : Fits 0xa1e0f9b000000000300000000012068003f00a1002140a100000000000000000000000000000000000 P) : Keeps P u t := by
  unfold execRouteLoad at he
  injection he with he
  subst he
  repeat' (first
    | with_reducible exact Keeps.refl P u
    | with_reducible assumption
    | dsimp -zeta only
    | with_reducible refine keeps_runCommand (hP.sub rfl) ?_ ?_
    | with_reducible refine keeps_bodyRouteLoad (hP.sub rfl) ?_
    | with_reducible refine keeps_bodyRouteLoad_eq (by assumption) (hP.sub rfl) ?_
    | intro _
    | with_reducible refine keeps_ite ?_ ?_
    | with_reducible refine keeps_ite_fst ?_ ?_
    | with_reducible refine keeps_pair (by assumption) ?_
    | split
    | fail_if_no_progress extract_lets
    | dsimp +zetaDelta only)

theorem keeps_execJobDefine {P : Nat} {u t : State} {a0} (he : execJobDefine a0 u = .next t) (hP : Fits 0xa1f0f9b000000000300000000012068003f00a1002140a100000000000000000000000000000000000 P) : Keeps P u t := by
  unfold execJobDefine at he
  injection he with he
  subst he
  repeat' (first
    | with_reducible exact Keeps.refl P u
    | with_reducible assumption
    | dsimp -zeta only
    | with_reducible refine keeps_runCommand (hP.sub rfl) ?_ ?_
    | with_reducible refine keeps_bodyJobDefine (hP.sub rfl) ?_
    | with_reducible refine keeps_bodyJobDefine_eq (by assumption) (hP.sub rfl) ?_
    | intro _
    | with_reducible refine keeps_ite ?_ ?_
    | with_reducible refine keeps_ite_fst ?_ ?_
    | with_reducible refine keeps_pair (by assumption) ?_
    | split
    | fail_if_no_progress extract_lets
    | dsimp +zetaDelta only)

theorem keeps_execJobStart {P : Nat} {u t : State} {a0} (he : execJobStart a0 u = .next t) (hP : Fits 0xa5f8fdb000000000300000000012068003f00a1002140a100000000000000000ecf101410001010000 P) : Keeps P u t := by
  unfold execJobStart at he
  injection he with he
  subst he
  repeat' (first
    | with_reducible exact Keeps.refl P u
    | with_reducible assumption
    | dsimp -zeta only
    | with_reducible refine keeps_runCommand (hP.sub rfl) ?_ ?_
    | with_reducible refine keeps_bodyJobStart (hP.sub rfl) ?_
    | with_reducible refine keeps_bodyJobStart_eq (by assumption) (hP.sub rfl) ?_
    | intro _
    | with_reducible refine keeps_ite ?_ ?_
    | with_reducible refine keeps_ite_fst ?_ ?_
    | with_reducible refine keeps_pair (by assumption) ?_
    | split
    | fail_if_no_progress extract_lets
    | dsimp +zetaDelta only)

theorem keeps_execHaltJob {P : Nat} {u t : State} {a0} (he : execHaltJob a0 u = .next t) (hP : Fits 0xa5f8fdb000000000300000000012068003f40a1002140a1000000000000000006cf101410000000000 P) : Keeps P u t := by
  unfold execHaltJob at he
  injection he with he
  subst he
  repeat' (first
    | with_reducible exact Keeps.refl P u
    | with_reducible assumption
    | dsimp -zeta only
    | with_reducible refine keeps_runPrompt (hP.sub rfl) ?_ ?_
    | with_reducible refine keeps_bodyHaltJob (hP.sub rfl) ?_
    | with_reducible refine keeps_bodyHaltJob_eq (by assumption) (hP.sub rfl) ?_
    | intro _
    | with_reducible refine keeps_ite ?_ ?_
    | with_reducible refine keeps_ite_fst ?_ ?_
    | with_reducible refine keeps_pair (by assumption) ?_
    | split
    | fail_if_no_progress extract_lets
    | dsimp +zetaDelta only)

theorem keeps_execSiteMask {P : Nat} {u t : State} {a0} (he : execSiteMask a0 u = .next t) (hP : Fits 0x2018e02000000000000000000000000003f00000000000000000000000000000000000000000000000 P) : Keeps P u t := by
  unfold execSiteMask at he
  injection he with he
  subst he
  repeat' (first
    | with_reducible exact Keeps.refl P u
    | with_reducible assumption
    | dsimp -zeta only
    | with_reducible refine keeps_runCommand (hP.sub rfl) ?_ ?_
    | with_reducible refine keeps_bodySiteMask (hP.sub rfl) ?_
    | with_reducible refine keeps_bodySiteMask_eq (by assumption) (hP.sub rfl) ?_
    | intro _
    | with_reducible refine keeps_ite ?_ ?_
    | with_reducible refine keeps_ite_fst ?_ ?_
    | with_reducible refine keeps_pair (by assumption) ?_
    | split
    | fail_if_no_progress extract_lets
    | dsimp +zetaDelta only)

theorem keeps_execSiteDrop {P : Nat} {u t : State} {a0} (he : execSiteDrop a0 u = .next t) (hP : Fits 0x2000f8a000000000000000000002008003f00000000000000000000000000000000000000000000000 P) : Keeps P u t := by
  unfold execSiteDrop at he
  injection he with he
  subst he
  repeat' (first
    | with_reducible exact Keeps.refl P u
    | with_reducible assumption
    | dsimp -zeta only
    | with_reducible refine keeps_runCommand (hP.sub rfl) ?_ ?_
    | with_reducible refine keeps_bodySiteDrop (hP.sub rfl) ?_
    | with_reducible refine keeps_bodySiteDrop_eq (by assumption) (hP.sub rfl) ?_
    | intro _
    | with_reducible refine keeps_ite ?_ ?_
    | with_reducible refine keeps_ite_fst ?_ ?_
    | with_reducible refine keeps_pair (by assumption) ?_
    | split
    | fail_if_no_progress extract_lets
    | dsimp +zetaDelta only)

theorem keeps_execTrapResume {P : Nat} {u t : State} {a0} (he : execTrapResume a0 u = .next t) (hP : Fits 0xa5f8fdb000000000300000000016068003f00a1002140a100000000000000000ecf101410001000000 P) : Keeps P u t := by
  unfold execTrapResume at he
  injection he with he
  subst he
  repeat' (first
    | with_reducible exact Keeps.refl P u
    | with_reducible assumption
    | dsimp -zeta only
    | with_reducible refine keeps_runCommand (hP.sub rfl) ?_ ?_
    | with_reducible refine keeps_bodyTrapResume (hP.sub rfl) ?_
    | with_reducible refine keeps_bodyTrapResume_eq (by assumption) (hP.sub rfl) ?_
    | intro _
    | with_reducible refine keeps_ite ?_ ?_
    | with_reducible refine keeps_ite_fst ?_ ?_
    | with_reducible refine keeps_pair (by assumption) ?_
    | split
    | fail_if_no_progress extract_lets
    | dsimp +zetaDelta only)

theorem keeps_execJobUndefine {P : Nat} {u t : State} {a0} (he : execJobUndefine a0 u = .next t) (hP : Fits 0x2010e02000000000000000000000000003f00000000000000000000000000000000000000000000000 P) : Keeps P u t := by
  unfold execJobUndefine at he
  injection he with he
  subst he
  repeat' (first
    | with_reducible exact Keeps.refl P u
    | with_reducible assumption
    | dsimp -zeta only
    | with_reducible refine keeps_runCommand (hP.sub rfl) ?_ ?_
    | with_reducible refine keeps_bodyJobUndefine (hP.sub rfl) ?_
    | with_reducible refine keeps_bodyJobUndefine_eq (by assumption) (hP.sub rfl) ?_
    | intro _
    | with_reducible refine keeps_ite ?_ ?_
    | with_reducible refine keeps_ite_fst ?_ ?_
    | with_reducible refine keeps_pair (by assumption) ?_
    | split
    | fail_if_no_progress extract_lets
    | dsimp +zetaDelta only)

end Sys2Proof.Machine
end

