-- ==== Sys2Proof/Laws/KeepsMemory.lean ====
section
/-! SUPPORT. What each operation of Machine/Memory.lean may change, and that it keeps the invariant: one law for each. -/

set_option linter.unreachableTactic false
set_option linter.unusedTactic false

namespace Sys2Proof.Machine

theorem keeps_doRefreshStop {P : Nat} {s u : State} (hP : Fits 0x40001000000000000000000000000000000000000000400000000000000000000000000000000000 P) (h : Keeps P s u) :
    Keeps P s (State.doRefreshStop u) := by
  unfold State.doRefreshStop
  repeat' (first
    | with_reducible exact h
    | with_reducible assumption
    | dsimp -zeta only
    | with_reducible refine keeps_advance (hP.sub rfl) ?_
    | with_reducible refine keeps_tick hP rfl ?_
    | intro _
    | with_reducible refine keeps_ite ?_ ?_
    | with_reducible refine keeps_ite_fst ?_ ?_
    | with_reducible refine keeps_pair (by assumption) ?_
    | split
    | fail_if_no_progress extract_lets
    | fail_if_no_progress with_reducible refine keeps_hbm hP rfl ?_ rfl rfl
    | dsimp +zetaDelta only)

theorem keeps_moveLane {P : Nat} {s u : State} {a1} (hP : Fits 0x40000000000000000000000000000000000000000000000000000000000000000000000000000000 P) (h : Keeps P s u) :
    Keeps P s (State.moveLane u a1) := by
  unfold State.moveLane
  repeat' (first
    | with_reducible exact h
    | with_reducible assumption
    | dsimp -zeta only
    | intro _
    | with_reducible refine keeps_ite ?_ ?_
    | with_reducible refine keeps_ite_fst ?_ ?_
    | with_reducible refine keeps_pair (by assumption) ?_
    | split
    | fail_if_no_progress extract_lets
    | fail_if_no_progress with_reducible refine keeps_hbm hP rfl ?_ rfl rfl
    | dsimp +zetaDelta only)

theorem keeps_countLane {P : Nat} {s u : State} {a1} (hP : Fits 0x4000000000000000000000000000000000000000c000000000000000000000000000000000000000 P) (h : Keeps P s u) :
    Keeps P s (State.countLane u a1) := by
  unfold State.countLane
  repeat' (first
    | with_reducible exact h
    | with_reducible assumption
    | dsimp -zeta only
    | with_reducible refine keeps_moveLane (hP.sub rfl) ?_
    | with_reducible refine keeps_wr hP rfl ?_
    | with_reducible refine keeps_bump hP rfl ?_
    | intro _
    | with_reducible refine keeps_ite ?_ ?_
    | with_reducible refine keeps_ite_fst ?_ ?_
    | with_reducible refine keeps_pair (by assumption) ?_
    | split
    | fail_if_no_progress extract_lets
    | dsimp +zetaDelta only)

theorem keeps_doRefreshStopEnd {P : Nat} {s u : State} {a1} (hP : Fits 0x4000100000000000000000000000000000000000c000000000000000000000000000000000000000 P) (h : Keeps P s u) :
    Keeps P s (State.doRefreshStopEnd u a1) := by
  unfold State.doRefreshStopEnd
  split
  · extract_lets s1 s2
    have h1 : Keeps P s s1 := keeps_advance (hP.sub rfl) h
    have h2 : Keeps P s s2 := keeps_ite (keeps_foldl (fun _ _ h => keeps_countLane (hP.sub rfl) h) h1) h1
    have key : ∀ v : State, Keeps P s v → Keeps P s { v with hbm := { v.hbm with stopped := false } } :=
      fun v h => keeps_hbm hP rfl h rfl rfl
    exact key _ h2
  · exact h

theorem keeps_doStackTempRead {P : Nat} {s u : State} {a1} (hP : Fits 0x40188000000000000000000012068000000000000000d00000000000000000000000000000000000 P) (h : Keeps P s u) :
    Keeps P s (State.doStackTempRead u a1) := by
  unfold State.doStackTempRead
  repeat' (first
    | with_reducible exact h
    | with_reducible assumption
    | dsimp -zeta only
    | with_reducible refine keeps_memEvent (hP.sub rfl) ?_
    | with_reducible refine keeps_fput hP rfl ?_
    | with_reducible refine keeps_bump hP rfl ?_
    | intro _
    | with_reducible refine keeps_ite ?_ ?_
    | with_reducible refine keeps_ite_fst ?_ ?_
    | with_reducible refine keeps_pair (by assumption) ?_
    | split
    | fail_if_no_progress extract_lets
    | fail_if_no_progress with_reducible refine keeps_hbm hP rfl ?_ rfl rfl
    | dsimp +zetaDelta only)

theorem keeps_firstInterval {P : Nat} {s u : State} (hP : Fits 0x100000000000000000000000000000000000 P) (h : Keeps P s u) :
    Keeps P s (State.firstInterval u) := by
  unfold State.firstInterval
  repeat' (first
    | with_reducible exact h
    | with_reducible assumption
    | dsimp -zeta only
    | with_reducible refine keeps_fput hP rfl ?_
    | intro _
    | with_reducible refine keeps_ite ?_ ?_
    | with_reducible refine keeps_ite_fst ?_ ?_
    | with_reducible refine keeps_pair (by assumption) ?_
    | split
    | fail_if_no_progress extract_lets
    | dsimp +zetaDelta only)

theorem keeps_losesUserCopies {P : Nat} {s u : State} {a1} (hP : Fits 0x2000000000000 P) (h : Keeps P s u) :
    Keeps P s (State.losesUserCopies u a1) := by
  unfold State.losesUserCopies
  repeat' (first
    | with_reducible exact h
    | with_reducible assumption
    | dsimp -zeta only
    | with_reducible refine keeps_fput hP rfl ?_
    | with_reducible refine keeps_foldl ?_ ?_
    | with_reducible refine keeps_foldl_fst ?_ ?_
    | intro _
    | with_reducible refine keeps_ite ?_ ?_
    | with_reducible refine keeps_ite_fst ?_ ?_
    | with_reducible refine keeps_pair (by assumption) ?_
    | split
    | fail_if_no_progress extract_lets
    | dsimp +zetaDelta only)

theorem keeps_faultChannel {P : Nat} {s u : State} {a1 a2} (hP : Fits 0x8040198000000000300000000012068000000000000200000000000000000000000002000000000000 P) (h : Keeps P s u) :
    Keeps P s (State.faultChannel u a1 a2) := by
  unfold State.faultChannel
  repeat' (first
    | with_reducible exact h
    | with_reducible assumption
    | dsimp -zeta only
    | with_reducible refine keeps_losesUserCopies (hP.sub rfl) ?_
    | with_reducible refine keeps_pieceBack (hP.sub rfl) ?_
    | with_reducible refine keeps_logWrite (hP.sub rfl) ?_
    | with_reducible refine keeps_memEvent (hP.sub rfl) ?_
    | with_reducible refine keeps_setChan (hP.sub rfl) ?_
    | with_reducible refine keeps_fput hP rfl ?_
    | with_reducible refine keeps_foldl ?_ ?_
    | with_reducible refine keeps_foldl_fst ?_ ?_
    | intro _
    | with_reducible refine keeps_ite ?_ ?_
    | with_reducible refine keeps_ite_fst ?_ ?_
    | with_reducible refine keeps_pair (by assumption) ?_
    | split
    | fail_if_no_progress extract_lets
    | dsimp +zetaDelta only)

theorem keeps_countIncident {P : Nat} {s u : State} {a1 a2} (hP : Fits 0x40588000000000000000000012068000000000000a00000000000000000000000000000000000000 P) (h : Keeps P s u) :
    Keeps P s (State.countIncident u a1 a2) := by
  unfold State.countIncident
  repeat' (first
    | with_reducible exact h
    | with_reducible assumption
    | dsimp -zeta only
    | with_reducible refine keeps_memEvent (hP.sub rfl) ?_
    | with_reducible refine keeps_countFix (hP.sub rfl) ?_
    | with_reducible refine keeps_setChan (hP.sub rfl) ?_
    | with_reducible refine keeps_bump hP rfl ?_
    | intro _
    | with_reducible refine keeps_ite ?_ ?_
    | with_reducible refine keeps_ite_fst ?_ ?_
    | with_reducible refine keeps_pair (by assumption) ?_
    | split
    | fail_if_no_progress extract_lets
    | dsimp +zetaDelta only)

theorem keeps_replay {P : Nat} {s u : State} {a1} (hP : Fits 0x20000000000000000000000000000000000000000000000000000000000000000000000000000000 P) (h : Keeps P s u) :
    Keeps P s (State.replay u a1) := by
  unfold State.replay
  repeat' (first
    | with_reducible exact h
    | with_reducible assumption
    | dsimp -zeta only
    | with_reducible refine keeps_storeBeat (hP.sub rfl) ?_
    | intro _
    | with_reducible refine keeps_ite ?_ ?_
    | with_reducible refine keeps_ite_fst ?_ ?_
    | with_reducible refine keeps_pair (by assumption) ?_
    | split
    | fail_if_no_progress extract_lets
    | dsimp +zetaDelta only)

theorem keeps_doParityAlert {P : Nat} {s u : State} {a1 a2} (hP : Fits 0x8060599000000000300000000012068000000000000a00000000000000000000000002000000000000 P) (h : Keeps P s u) :
    Keeps P s (State.doParityAlert u a1 a2) := by
  unfold State.doParityAlert
  repeat' (first
    | with_reducible exact h
    | with_reducible assumption
    | dsimp -zeta only
    | with_reducible refine keeps_countIncident (hP.sub rfl) ?_
    | with_reducible refine keeps_faultChannel (hP.sub rfl) ?_
    | with_reducible refine keeps_waitStop (hP.sub rfl) ?_
    | with_reducible refine keeps_replay (hP.sub rfl) ?_
    | intro _
    | with_reducible refine keeps_ite ?_ ?_
    | with_reducible refine keeps_ite_fst ?_ ?_
    | with_reducible refine keeps_pair (by assumption) ?_
    | split
    | fail_if_no_progress extract_lets
    | dsimp +zetaDelta only)

theorem keeps_scrubBeat {P : Nat} {s u : State} {a1 a2} (hP : Fits 0x806059b000000000300000000012068000000000001402100000000000000000000000000000000000 P) (h : Keeps P s u) :
    Keeps P s (State.scrubBeat u a1 a2) := by
  unfold State.scrubBeat
  repeat' (first
    | with_reducible exact h
    | with_reducible assumption
    | dsimp -zeta only
    | with_reducible refine keeps_offerBeat (hP.sub rfl) ?_
    | with_reducible refine keeps_arbitrate (hP.sub rfl) ?_
    | with_reducible refine keeps_readBeat (hP.sub rfl) ?_
    | with_reducible refine keeps_readBeat_eq (by assumption) (hP.sub rfl) ?_
    | with_reducible refine keeps_waitStop (hP.sub rfl) ?_
    | intro _
    | with_reducible refine keeps_ite ?_ ?_
    | with_reducible refine keeps_ite_fst ?_ ?_
    | with_reducible refine keeps_pair (by assumption) ?_
    | split
    | fail_if_no_progress extract_lets
    | dsimp +zetaDelta only)

theorem keeps_doHbmScrub {P : Nat} {s u : State} (hP : Fits 0x806059b000000000300000000012068000000000001412100000000000000000000000000000000000 P) (h : Keeps P s u) :
    Keeps P s (State.doHbmScrub u) := by
  unfold State.doHbmScrub
  repeat' (first
    | with_reducible exact h
    | with_reducible assumption
    | dsimp -zeta only
    | with_reducible refine keeps_scrubBeat (hP.sub rfl) ?_
    | with_reducible refine keeps_tick hP rfl ?_
    | with_reducible refine keeps_foldl ?_ ?_
    | with_reducible refine keeps_foldl_fst ?_ ?_
    | intro _
    | with_reducible refine keeps_ite ?_ ?_
    | with_reducible refine keeps_ite_fst ?_ ?_
    | with_reducible refine keeps_pair (by assumption) ?_
    | split
    | fail_if_no_progress extract_lets
    | dsimp +zetaDelta only)

theorem keeps_doMemoryWake {P : Nat} {s u : State} {a1} (hP : Fits 0x40000000000000000000000000000000000000000000100000000000000000000000000000000000 P) (h : Keeps P s u) :
    Keeps P s (State.doMemoryWake u a1) := by
  unfold State.doMemoryWake
  repeat' (first
    | with_reducible exact h
    | with_reducible assumption
    | dsimp -zeta only
    | with_reducible refine keeps_wakeMem (hP.sub rfl) ?_
    | intro _
    | with_reducible refine keeps_ite ?_ ?_
    | with_reducible refine keeps_ite_fst ?_ ?_
    | with_reducible refine keeps_pair (by assumption) ?_
    | split
    | fail_if_no_progress extract_lets
    | dsimp +zetaDelta only)

theorem keeps_awake {P : Nat} {s u : State} (hP : Fits 0x40188000000000000000000012068000000000000008100000000000000000000000000000000000 P) (h : Keeps P s u) :
    Keeps P s (State.awake u) := by
  unfold State.awake
  repeat' (first
    | with_reducible exact h
    | with_reducible assumption
    | dsimp -zeta only
    | with_reducible refine keeps_doSelfRefreshExit (hP.sub rfl) ?_
    | with_reducible refine keeps_wakeMem (hP.sub rfl) ?_
    | intro _
    | with_reducible refine keeps_ite ?_ ?_
    | with_reducible refine keeps_ite_fst ?_ ?_
    | with_reducible refine keeps_pair (by assumption) ?_
    | split
    | fail_if_no_progress extract_lets
    | dsimp +zetaDelta only)

theorem keeps_setDmaCh {P : Nat} {s u : State} {a1 a2} (hP : Fits 0x100000000000000000000000000000000000000000000000000000000000000000000000000000000 P) (h : Keeps P s u) :
    Keeps P s (State.setDmaCh u a1 a2) := by
  unfold State.setDmaCh
  repeat' (first
    | with_reducible exact h
    | with_reducible assumption
    | dsimp -zeta only
    | intro _
    | with_reducible refine keeps_ite ?_ ?_
    | with_reducible refine keeps_ite_fst ?_ ?_
    | with_reducible refine keeps_pair (by assumption) ?_
    | split
    | fail_if_no_progress extract_lets
    | fail_if_no_progress with_reducible refine keeps_dma hP rfl ?_
    | dsimp +zetaDelta only)

theorem keeps_putMap {P : Nat} {s u : State} {a1 a2 a3} (hP : Fits 0x1c0000000000000000000000000000000000000 P) (h : Keeps P s u) :
    Keeps P s (State.putMap u a1 a2 a3) := by
  unfold State.putMap
  repeat' (first
    | with_reducible exact h
    | with_reducible assumption
    | dsimp -zeta only
    | with_reducible refine keeps_wr hP rfl ?_
    | with_reducible refine keeps_fput hP rfl ?_
    | intro _
    | with_reducible refine keeps_ite ?_ ?_
    | with_reducible refine keeps_ite_fst ?_ ?_
    | with_reducible refine keeps_pair (by assumption) ?_
    | split
    | fail_if_no_progress extract_lets
    | dsimp +zetaDelta only)

theorem keeps_doMemMapCtlWrite {P : Nat} {s u : State} {a1 a2} (hP : Fits 0x1c0100000000000000000000000000000000000 P) (h : Keeps P s u) :
    Keeps P s (State.doMemMapCtlWrite u a1 a2) := by
  unfold State.doMemMapCtlWrite
  repeat' (first
    | with_reducible exact h
    | with_reducible assumption
    | dsimp -zeta only
    | with_reducible refine keeps_putMap (hP.sub rfl) ?_
    | with_reducible refine keeps_fput hP rfl ?_
    | intro _
    | with_reducible refine keeps_ite ?_ ?_
    | with_reducible refine keeps_ite_fst ?_ ?_
    | with_reducible refine keeps_pair (by assumption) ?_
    | split
    | fail_if_no_progress extract_lets
    | dsimp +zetaDelta only)

theorem keeps_doMemMapSpanWrite {P : Nat} {s u : State} {a1 a2 a3} (hP : Fits 0x100000000000000000000000000000000000 P) (h1 : P.testBit a1.id.ctorIdx = true) (h : Keeps P s u) :
    Keeps P s (State.doMemMapSpanWrite u a1 a2 a3) := by
  unfold State.doMemMapSpanWrite
  repeat' (first
    | with_reducible exact h
    | with_reducible assumption
    | dsimp -zeta only
    | with_reducible refine keeps_fput (Fits.refl P) (by assumption) ?_
    | with_reducible refine keeps_fput hP rfl ?_
    | intro _
    | with_reducible refine keeps_ite ?_ ?_
    | with_reducible refine keeps_ite_fst ?_ ?_
    | with_reducible refine keeps_pair (by assumption) ?_
    | split
    | fail_if_no_progress extract_lets
    | dsimp +zetaDelta only)

theorem keeps_bodyMemMapSet {P : Nat} {s u : State} {k} (hP : Fits 0x1c0000000000000000000000000000000000000 P) (h : Keeps P s u) :
    Keeps P s (bodyMemMapSet k u).1 := by
  unfold bodyMemMapSet
  beta_reduce
  repeat' (first
    | with_reducible exact h
    | with_reducible assumption
    | dsimp -zeta only
    | with_reducible refine keeps_putMap (hP.sub rfl) ?_
    | with_reducible refine keeps_fail (hP.sub rfl) ?_
    | with_reducible refine keeps_fail_eq (by assumption) (hP.sub rfl) ?_
    | with_reducible refine keeps_ok (hP.sub rfl) ?_
    | with_reducible refine keeps_ok_eq (by assumption) (hP.sub rfl) ?_
    | intro _
    | with_reducible refine keeps_ite ?_ ?_
    | with_reducible refine keeps_ite_fst ?_ ?_
    | with_reducible refine keeps_pair (by assumption) ?_
    | split
    | fail_if_no_progress extract_lets
    | dsimp +zetaDelta only)

theorem keeps_bodyMemMapSet_eq {P : Nat} {s u v : State} {k} {x} (he : bodyMemMapSet k u = (v, x)) (hP : Fits 0x1c0000000000000000000000000000000000000 P)
    (h : Keeps P s u) : Keeps P s v := by
  have h1 := keeps_bodyMemMapSet (k := k) hP h
  rw [he] at h1
  exact h1

theorem keeps_bodyMemTrain {P : Nat} {s u : State} {k} (hP : Fits 0x40188000000000000000000012068000000000000008100000000000000000000000000000000000 P) (h : Keeps P s u) :
    Keeps P s (bodyMemTrain k u).1 := by
  unfold bodyMemTrain
  beta_reduce
  repeat' (first
    | with_reducible exact h
    | with_reducible assumption
    | dsimp -zeta only
    | with_reducible refine keeps_awake (hP.sub rfl) ?_
    | with_reducible refine keeps_fail (hP.sub rfl) ?_
    | with_reducible refine keeps_fail_eq (by assumption) (hP.sub rfl) ?_
    | with_reducible refine keeps_ok (hP.sub rfl) ?_
    | with_reducible refine keeps_ok_eq (by assumption) (hP.sub rfl) ?_
    | intro _
    | with_reducible refine keeps_ite ?_ ?_
    | with_reducible refine keeps_ite_fst ?_ ?_
    | with_reducible refine keeps_pair (by assumption) ?_
    | split
    | fail_if_no_progress extract_lets
    | dsimp +zetaDelta only)

theorem keeps_bodyMemTrain_eq {P : Nat} {s u v : State} {k} {x} (he : bodyMemTrain k u = (v, x)) (hP : Fits 0x40188000000000000000000012068000000000000008100000000000000000000000000000000000 P)
    (h : Keeps P s u) : Keeps P s v := by
  have h1 := keeps_bodyMemTrain (k := k) hP h
  rw [he] at h1
  exact h1

theorem bankWf_filter {κ ν : Type} {rank : κ → Nat} {d : κ → ν} {b : Bank κ ν} (p : κ × ν → Bool) (h : bankWf rank d b) :
    bankWf rank d (b.filter p) :=
  ⟨h.1.sublist List.filter_sublist, fun e he => h.2 e (List.mem_filter.mp he).1⟩

theorem keeps_zeroChannel {P : Nat} {s u : State} {a1 a2 a3} (hP : Fits 0x20000000000000000000000000000000000000000000000000000000000000000000000000000000 P) (h : Keeps P s u) :
    Keeps P s (State.zeroChannel u a1 a2 a3) :=
  keeps_marks (u := { u with hbm := { u.hbm with mem := _ } }) hP rfl
    (keeps_hbmMem hP rfl h (fun hm => bankWf_filter _ hm)) (fun hm => bankWf_filter _ hm)

theorem keeps_recoverChannel {P : Nat} {s u : State} {a1} (hP : Fits 0x60000000000000000000000000000000000000000200000000000000000000000000000000000000 P) (h : Keeps P s u) :
    Keeps P s (State.recoverChannel u a1) := by
  unfold State.recoverChannel
  repeat' (first
    | with_reducible exact h
    | with_reducible assumption
    | dsimp -zeta only
    | with_reducible refine keeps_zeroChannel (hP.sub rfl) ?_
    | with_reducible refine keeps_setChan (hP.sub rfl) ?_
    | with_reducible refine keeps_fput hP rfl ?_
    | intro _
    | with_reducible refine keeps_ite ?_ ?_
    | with_reducible refine keeps_ite_fst ?_ ?_
    | with_reducible refine keeps_pair (by assumption) ?_
    | split
    | fail_if_no_progress extract_lets
    | dsimp +zetaDelta only)

theorem keeps_bodyMemChRecover {P : Nat} {s u : State} {k} (hP : Fits 0x6018a000000000000000000012068000000000000208100000000000000000000000000000000000 P) (h : Keeps P s u) :
    Keeps P s (bodyMemChRecover k u).1 := by
  unfold bodyMemChRecover
  beta_reduce
  repeat' (first
    | with_reducible exact h
    | with_reducible assumption
    | dsimp -zeta only
    | with_reducible refine keeps_recoverChannel (hP.sub rfl) ?_
    | with_reducible refine keeps_awake (hP.sub rfl) ?_
    | with_reducible refine keeps_fresh (hP.sub rfl) ?_
    | with_reducible refine keeps_fresh_eq (by assumption) (hP.sub rfl) ?_
    | with_reducible refine keeps_fail (hP.sub rfl) ?_
    | with_reducible refine keeps_fail_eq (by assumption) (hP.sub rfl) ?_
    | with_reducible refine keeps_ok (hP.sub rfl) ?_
    | with_reducible refine keeps_ok_eq (by assumption) (hP.sub rfl) ?_
    | intro _
    | with_reducible refine keeps_ite ?_ ?_
    | with_reducible refine keeps_ite_fst ?_ ?_
    | with_reducible refine keeps_pair (by assumption) ?_
    | split
    | fail_if_no_progress extract_lets
    | dsimp +zetaDelta only)

theorem keeps_bodyMemChRecover_eq {P : Nat} {s u v : State} {k} {x} (he : bodyMemChRecover k u = (v, x)) (hP : Fits 0x6018a000000000000000000012068000000000000208100000000000000000000000000000000000 P)
    (h : Keeps P s u) : Keeps P s v := by
  have h1 := keeps_bodyMemChRecover (k := k) hP h
  rw [he] at h1
  exact h1

theorem keeps_drainAll {P : Nat} {s u : State} (hP : Fits 0x806059b00000000030000000001206800000000000140a100000000000000000000000000000000000 P) (h : Keeps P s u) :
    Keeps P s (State.drainAll u) := by
  unfold State.drainAll
  repeat' (first
    | with_reducible exact h
    | with_reducible assumption
    | dsimp -zeta only
    | with_reducible refine keeps_settleWrites (hP.sub rfl) ?_
    | with_reducible refine keeps_drain (hP.sub rfl) ?_
    | with_reducible refine keeps_foldl ?_ ?_
    | with_reducible refine keeps_foldl_fst ?_ ?_
    | intro _
    | with_reducible refine keeps_ite ?_ ?_
    | with_reducible refine keeps_ite_fst ?_ ?_
    | with_reducible refine keeps_pair (by assumption) ?_
    | split
    | fail_if_no_progress extract_lets
    | dsimp +zetaDelta only)

theorem keeps_enterRefresh {P : Nat} {s u : State} {a1} (hP : Fits 0x189000000000000000000012068000000000000004100000000000000000000000000000000000 P) (h : Keeps P s u) :
    Keeps P s (State.enterRefresh u a1) := by
  unfold State.enterRefresh
  repeat' (first
    | with_reducible exact h
    | with_reducible assumption
    | dsimp -zeta only
    | with_reducible refine keeps_memEvent (hP.sub rfl) ?_
    | with_reducible refine keeps_waitStop (hP.sub rfl) ?_
    | with_reducible refine keeps_fput hP rfl ?_
    | intro _
    | with_reducible refine keeps_ite ?_ ?_
    | with_reducible refine keeps_ite_fst ?_ ?_
    | with_reducible refine keeps_pair (by assumption) ?_
    | split
    | fail_if_no_progress extract_lets
    | dsimp +zetaDelta only)

theorem keeps_bodyMemSelfRefresh {P : Nat} {s u : State} {k} (hP : Fits 0x806059b00000000030000000001206800000000000140e100000000000000000000000000000000000 P) (h : Keeps P s u) :
    Keeps P s (bodyMemSelfRefresh k u).1 := by
  unfold bodyMemSelfRefresh
  beta_reduce
  repeat' (first
    | with_reducible exact h
    | with_reducible assumption
    | dsimp -zeta only
    | with_reducible refine keeps_enterRefresh (hP.sub rfl) ?_
    | with_reducible refine keeps_drainAll (hP.sub rfl) ?_
    | with_reducible refine keeps_fail (hP.sub rfl) ?_
    | with_reducible refine keeps_fail_eq (by assumption) (hP.sub rfl) ?_
    | with_reducible refine keeps_ok (hP.sub rfl) ?_
    | with_reducible refine keeps_ok_eq (by assumption) (hP.sub rfl) ?_
    | intro _
    | with_reducible refine keeps_ite ?_ ?_
    | with_reducible refine keeps_ite_fst ?_ ?_
    | with_reducible refine keeps_pair (by assumption) ?_
    | split
    | fail_if_no_progress extract_lets
    | dsimp +zetaDelta only)

theorem keeps_bodyMemSelfRefresh_eq {P : Nat} {s u v : State} {k} {x} (he : bodyMemSelfRefresh k u = (v, x)) (hP : Fits 0x806059b00000000030000000001206800000000000140e100000000000000000000000000000000000 P)
    (h : Keeps P s u) : Keeps P s v := by
  have h1 := keeps_bodyMemSelfRefresh (k := k) hP h
  rw [he] at h1
  exact h1

theorem keeps_clearEighth {P : Nat} {s u : State} {a1} (hP : Fits 0x20000000000000000000000000000000000000000008000000000000000000000000000000000000 P) (h : Keeps P s u) :
    Keeps P s (State.clearEighth u a1) := by
  unfold State.clearEighth
  repeat' (first
    | with_reducible exact h
    | with_reducible assumption
    | dsimp -zeta only
    | with_reducible refine keeps_zeroChannel (hP.sub rfl) ?_
    | with_reducible refine keeps_fput hP rfl ?_
    | with_reducible refine keeps_foldl ?_ ?_
    | with_reducible refine keeps_foldl_fst ?_ ?_
    | intro _
    | with_reducible refine keeps_ite ?_ ?_
    | with_reducible refine keeps_ite_fst ?_ ?_
    | with_reducible refine keeps_pair (by assumption) ?_
    | split
    | fail_if_no_progress extract_lets
    | dsimp +zetaDelta only)

theorem keeps_bodyMemSegClear {P : Nat} {s u : State} {k} (hP : Fits 0x60188000000000000000000012068000000000000008100000000000000000000000000000000000 P) (h : Keeps P s u) :
    Keeps P s (bodyMemSegClear k u).1 := by
  unfold bodyMemSegClear
  beta_reduce
  repeat' (first
    | with_reducible exact h
    | with_reducible assumption
    | dsimp -zeta only
    | with_reducible refine keeps_clearEighth (hP.sub rfl) ?_
    | with_reducible refine keeps_memEvent (hP.sub rfl) ?_
    | with_reducible refine keeps_awake (hP.sub rfl) ?_
    | with_reducible refine keeps_foldl ?_ ?_
    | with_reducible refine keeps_foldl_fst ?_ ?_
    | intro _
    | with_reducible refine keeps_ite ?_ ?_
    | with_reducible refine keeps_ite_fst ?_ ?_
    | with_reducible refine keeps_pair (by assumption) ?_
    | split
    | fail_if_no_progress extract_lets
    | dsimp +zetaDelta only)

theorem keeps_bodyMemSegClear_eq {P : Nat} {s u v : State} {k} {x} (he : bodyMemSegClear k u = (v, x)) (hP : Fits 0x60188000000000000000000012068000000000000008100000000000000000000000000000000000 P)
    (h : Keeps P s u) : Keeps P s v := by
  have h1 := keeps_bodyMemSegClear (k := k) hP h
  rw [he] at h1
  exact h1

theorem keeps_doArbiterGrant {P : Nat} {s u : State} {a1} (hP : Fits 0x806059a000000000300000000012068000000000001402100000000000000000000000000000000000 P) (h : Keeps P s u) :
    Keeps P s (State.doArbiterGrant u a1) := by
  unfold State.doArbiterGrant
  repeat' (first
    | with_reducible exact h
    | with_reducible assumption
    | dsimp -zeta only
    | with_reducible refine keeps_offerSpills (hP.sub rfl) ?_
    | with_reducible refine keeps_grant (hP.sub rfl) ?_
    | intro _
    | with_reducible refine keeps_ite ?_ ?_
    | with_reducible refine keeps_ite_fst ?_ ?_
    | with_reducible refine keeps_pair (by assumption) ?_
    | split
    | fail_if_no_progress extract_lets
    | dsimp +zetaDelta only)

theorem keeps_doFenceComplete {P : Nat} {s u : State} {a1} (hP : Fits 0x806059a000000000300000000012068000000000001402100000000000000000000000000000000000 P) (h : Keeps P s u) :
    Keeps P s (State.doFenceComplete u a1) := by
  unfold State.doFenceComplete
  repeat' (first
    | with_reducible exact h
    | with_reducible assumption
    | dsimp -zeta only
    | with_reducible refine keeps_offerSpills (hP.sub rfl) ?_
    | intro _
    | with_reducible refine keeps_ite ?_ ?_
    | with_reducible refine keeps_ite_fst ?_ ?_
    | with_reducible refine keeps_pair (by assumption) ?_
    | split
    | fail_if_no_progress extract_lets
    | fail_if_no_progress with_reducible refine keeps_hbm hP rfl ?_ rfl rfl
    | dsimp +zetaDelta only)

theorem keeps_doWriteQueueDrain {P : Nat} {s u : State} {a1} (hP : Fits 0x60000000000000000000000000000000000000000000000000000000000000000000000000000000 P) (h : Keeps P s u) :
    Keeps P s (State.doWriteQueueDrain u a1) := by
  unfold State.doWriteQueueDrain
  repeat' (first
    | with_reducible exact h
    | with_reducible assumption
    | dsimp -zeta only
    | with_reducible refine keeps_drain (hP.sub rfl) ?_
    | intro _
    | with_reducible refine keeps_ite ?_ ?_
    | with_reducible refine keeps_ite_fst ?_ ?_
    | with_reducible refine keeps_pair (by assumption) ?_
    | split
    | fail_if_no_progress extract_lets
    | dsimp +zetaDelta only)

theorem keeps_execArbiterGrant {P : Nat} {u t : State} {a0} (he : execArbiterGrant a0 u = .next t) (hP : Fits 0x806059a000000000300000000012068000000000001402100000000000000000000000000000000000 P) : Keeps P u t := by
  unfold execArbiterGrant at he
  injection he with he
  subst he
  repeat' (first
    | with_reducible exact Keeps.refl P u
    | with_reducible assumption
    | dsimp -zeta only
    | with_reducible refine keeps_doArbiterGrant (hP.sub rfl) ?_
    | intro _
    | with_reducible refine keeps_ite ?_ ?_
    | with_reducible refine keeps_ite_fst ?_ ?_
    | with_reducible refine keeps_pair (by assumption) ?_
    | split
    | fail_if_no_progress extract_lets
    | dsimp +zetaDelta only)

theorem keeps_execFenceComplete {P : Nat} {u t : State} {a0} (he : execFenceComplete a0 u = .next t) (hP : Fits 0x806059a000000000300000000012068000000000001402100000000000000000000000000000000000 P) : Keeps P u t := by
  unfold execFenceComplete at he
  injection he with he
  subst he
  repeat' (first
    | with_reducible exact Keeps.refl P u
    | with_reducible assumption
    | dsimp -zeta only
    | with_reducible refine keeps_doFenceComplete (hP.sub rfl) ?_
    | intro _
    | with_reducible refine keeps_ite ?_ ?_
    | with_reducible refine keeps_ite_fst ?_ ?_
    | with_reducible refine keeps_pair (by assumption) ?_
    | split
    | fail_if_no_progress extract_lets
    | dsimp +zetaDelta only)

theorem keeps_execWriteQueueDrain {P : Nat} {u t : State} {a0} (he : execWriteQueueDrain a0 u = .next t) (hP : Fits 0x60000000000000000000000000000000000000000000000000000000000000000000000000000000 P) : Keeps P u t := by
  unfold execWriteQueueDrain at he
  injection he with he
  subst he
  repeat' (first
    | with_reducible exact Keeps.refl P u
    | with_reducible assumption
    | dsimp -zeta only
    | with_reducible refine keeps_doWriteQueueDrain (hP.sub rfl) ?_
    | intro _
    | with_reducible refine keeps_ite ?_ ?_
    | with_reducible refine keeps_ite_fst ?_ ?_
    | with_reducible refine keeps_pair (by assumption) ?_
    | split
    | fail_if_no_progress extract_lets
    | dsimp +zetaDelta only)

theorem keeps_execRefreshStop {P : Nat} {u t : State} (he : execRefreshStop u = .next t) (hP : Fits 0x40001000000000000000000000000000000000000000400000000000000000000000000000000000 P) : Keeps P u t := by
  unfold execRefreshStop at he
  injection he with he
  subst he
  repeat' (first
    | with_reducible exact Keeps.refl P u
    | with_reducible assumption
    | dsimp -zeta only
    | with_reducible refine keeps_doRefreshStop (hP.sub rfl) ?_
    | intro _
    | with_reducible refine keeps_ite ?_ ?_
    | with_reducible refine keeps_ite_fst ?_ ?_
    | with_reducible refine keeps_pair (by assumption) ?_
    | split
    | fail_if_no_progress extract_lets
    | dsimp +zetaDelta only)

theorem keeps_execRefreshStopEnd {P : Nat} {u t : State} {a0} (he : execRefreshStopEnd a0 u = .next t) (hP : Fits 0x4000100000000000000000000000000000000000c000000000000000000000000000000000000000 P) : Keeps P u t := by
  unfold execRefreshStopEnd at he
  injection he with he
  subst he
  repeat' (first
    | with_reducible exact Keeps.refl P u
    | with_reducible assumption
    | dsimp -zeta only
    | with_reducible refine keeps_doRefreshStopEnd (hP.sub rfl) ?_
    | intro _
    | with_reducible refine keeps_ite ?_ ?_
    | with_reducible refine keeps_ite_fst ?_ ?_
    | with_reducible refine keeps_pair (by assumption) ?_
    | split
    | fail_if_no_progress extract_lets
    | dsimp +zetaDelta only)

theorem keeps_execStackTempRead {P : Nat} {u t : State} {a0} (he : execStackTempRead a0 u = .next t) (hP : Fits 0x40188000000000000000000012068000000000000000d00000000000000000000000000000000000 P) : Keeps P u t := by
  unfold execStackTempRead at he
  injection he with he
  subst he
  repeat' (first
    | with_reducible exact Keeps.refl P u
    | with_reducible assumption
    | dsimp -zeta only
    | with_reducible refine keeps_doStackTempRead (hP.sub rfl) ?_
    | intro _
    | with_reducible refine keeps_ite ?_ ?_
    | with_reducible refine keeps_ite_fst ?_ ?_
    | with_reducible refine keeps_pair (by assumption) ?_
    | split
    | fail_if_no_progress extract_lets
    | dsimp +zetaDelta only)

theorem keeps_execParityAlert {P : Nat} {u t : State} {a0 a1} (he : execParityAlert a0 a1 u = .next t) (hP : Fits 0x8060599000000000300000000012068000000000000a00000000000000000000000002000000000000 P) : Keeps P u t := by
  unfold execParityAlert at he
  injection he with he
  subst he
  repeat' (first
    | with_reducible exact Keeps.refl P u
    | with_reducible assumption
    | dsimp -zeta only
    | with_reducible refine keeps_doParityAlert (hP.sub rfl) ?_
    | intro _
    | with_reducible refine keeps_ite ?_ ?_
    | with_reducible refine keeps_ite_fst ?_ ?_
    | with_reducible refine keeps_pair (by assumption) ?_
    | split
    | fail_if_no_progress extract_lets
    | dsimp +zetaDelta only)

theorem keeps_execHbmScrub {P : Nat} {u t : State} (he : execHbmScrub u = .next t) (hP : Fits 0x806059b000000000300000000012068000000000001412100000000000000000000000000000000000 P) : Keeps P u t := by
  unfold execHbmScrub at he
  injection he with he
  subst he
  repeat' (first
    | with_reducible exact Keeps.refl P u
    | with_reducible assumption
    | dsimp -zeta only
    | with_reducible refine keeps_doHbmScrub (hP.sub rfl) ?_
    | intro _
    | with_reducible refine keeps_ite ?_ ?_
    | with_reducible refine keeps_ite_fst ?_ ?_
    | with_reducible refine keeps_pair (by assumption) ?_
    | split
    | fail_if_no_progress extract_lets
    | dsimp +zetaDelta only)

theorem keeps_execMemoryWake {P : Nat} {u t : State} {a0} (he : execMemoryWake a0 u = .next t) (hP : Fits 0x40000000000000000000000000000000000000000000100000000000000000000000000000000000 P) : Keeps P u t := by
  unfold execMemoryWake at he
  injection he with he
  subst he
  repeat' (first
    | with_reducible exact Keeps.refl P u
    | with_reducible assumption
    | dsimp -zeta only
    | with_reducible refine keeps_doMemoryWake (hP.sub rfl) ?_
    | intro _
    | with_reducible refine keeps_ite ?_ ?_
    | with_reducible refine keeps_ite_fst ?_ ?_
    | with_reducible refine keeps_pair (by assumption) ?_
    | split
    | fail_if_no_progress extract_lets
    | dsimp +zetaDelta only)

theorem keeps_execSelfRefreshExit {P : Nat} {u t : State} (he : execSelfRefreshExit u = .next t) (hP : Fits 0x40188000000000000000000012068000000000000008100000000000000000000000000000000000 P) : Keeps P u t := by
  unfold execSelfRefreshExit at he
  injection he with he
  subst he
  repeat' (first
    | with_reducible exact Keeps.refl P u
    | with_reducible assumption
    | dsimp -zeta only
    | with_reducible refine keeps_doSelfRefreshExit (hP.sub rfl) ?_
    | intro _
    | with_reducible refine keeps_ite ?_ ?_
    | with_reducible refine keeps_ite_fst ?_ ?_
    | with_reducible refine keeps_pair (by assumption) ?_
    | split
    | fail_if_no_progress extract_lets
    | dsimp +zetaDelta only)

theorem keeps_execMemMapSet {P : Nat} {u t : State} {a0} (he : execMemMapSet a0 u = .next t) (hP : Fits 0x2000e02000000000000000000000000003f000000001c0000000000000000000000000000000000000 P) : Keeps P u t := by
  unfold execMemMapSet at he
  injection he with he
  subst he
  repeat' (first
    | with_reducible exact Keeps.refl P u
    | with_reducible assumption
    | dsimp -zeta only
    | with_reducible refine keeps_runCommand (hP.sub rfl) ?_ ?_
    | with_reducible refine keeps_bodyMemMapSet (hP.sub rfl) ?_
    | with_reducible refine keeps_bodyMemMapSet_eq (by assumption) (hP.sub rfl) ?_
    | intro _
    | with_reducible refine keeps_ite ?_ ?_
    | with_reducible refine keeps_ite_fst ?_ ?_
    | with_reducible refine keeps_pair (by assumption) ?_
    | split
    | fail_if_no_progress extract_lets
    | dsimp +zetaDelta only)

theorem keeps_execMemTrain {P : Nat} {u t : State} {a0} (he : execMemTrain a0 u = .next t) (hP : Fits 0x2040f8a000000000000000000012068003f00000000008100000000000000000000000000000000000 P) : Keeps P u t := by
  unfold execMemTrain at he
  injection he with he
  subst he
  repeat' (first
    | with_reducible exact Keeps.refl P u
    | with_reducible assumption
    | dsimp -zeta only
    | with_reducible refine keeps_runCommand (hP.sub rfl) ?_ ?_
    | with_reducible refine keeps_bodyMemTrain (hP.sub rfl) ?_
    | with_reducible refine keeps_bodyMemTrain_eq (by assumption) (hP.sub rfl) ?_
    | intro _
    | with_reducible refine keeps_ite ?_ ?_
    | with_reducible refine keeps_ite_fst ?_ ?_
    | with_reducible refine keeps_pair (by assumption) ?_
    | split
    | fail_if_no_progress extract_lets
    | dsimp +zetaDelta only)

theorem keeps_execMemChRecover {P : Nat} {u t : State} {a0} (he : execMemChRecover a0 u = .next t) (hP : Fits 0x2060f8a000000000000000000012068003f00000000208100000000000000000000000000000000000 P) : Keeps P u t := by
  unfold execMemChRecover at he
  injection he with he
  subst he
  repeat' (first
    | with_reducible exact Keeps.refl P u
    | with_reducible assumption
    | dsimp -zeta only
    | with_reducible refine keeps_bodyMemChRecover (hP.sub rfl) ?_
    | with_reducible refine keeps_bodyMemChRecover_eq (by assumption) (hP.sub rfl) ?_
    | with_reducible refine keeps_runCommand (hP.sub rfl) ?_ ?_
    | intro _
    | with_reducible refine keeps_ite ?_ ?_
    | with_reducible refine keeps_ite_fst ?_ ?_
    | with_reducible refine keeps_pair (by assumption) ?_
    | split
    | fail_if_no_progress extract_lets
    | dsimp +zetaDelta only)

theorem keeps_execMemSelfRefresh {P : Nat} {u t : State} {a0} (he : execMemSelfRefresh a0 u = .next t) (hP : Fits 0xa060f9b000000000300000000012068003f0000000140e100000000000000000000000000000000000 P) : Keeps P u t := by
  unfold execMemSelfRefresh at he
  injection he with he
  subst he
  repeat' (first
    | with_reducible exact Keeps.refl P u
    | with_reducible assumption
    | dsimp -zeta only
    | with_reducible refine keeps_bodyMemSelfRefresh (hP.sub rfl) ?_
    | with_reducible refine keeps_bodyMemSelfRefresh_eq (by assumption) (hP.sub rfl) ?_
    | with_reducible refine keeps_runCommand (hP.sub rfl) ?_ ?_
    | intro _
    | with_reducible refine keeps_ite ?_ ?_
    | with_reducible refine keeps_ite_fst ?_ ?_
    | with_reducible refine keeps_pair (by assumption) ?_
    | split
    | fail_if_no_progress extract_lets
    | dsimp +zetaDelta only)

theorem keeps_execMemSegClear {P : Nat} {u t : State} {a0} (he : execMemSegClear a0 u = .next t) (hP : Fits 0x2060f8a000000000000000000012068003f00000000008100000000000000000000000000000000000 P) : Keeps P u t := by
  unfold execMemSegClear at he
  injection he with he
  subst he
  repeat' (first
    | with_reducible exact Keeps.refl P u
    | with_reducible assumption
    | dsimp -zeta only
    | with_reducible refine keeps_runCommand (hP.sub rfl) ?_ ?_
    | with_reducible refine keeps_bodyMemSegClear (hP.sub rfl) ?_
    | with_reducible refine keeps_bodyMemSegClear_eq (by assumption) (hP.sub rfl) ?_
    | intro _
    | with_reducible refine keeps_ite ?_ ?_
    | with_reducible refine keeps_ite_fst ?_ ?_
    | with_reducible refine keeps_pair (by assumption) ?_
    | split
    | fail_if_no_progress extract_lets
    | dsimp +zetaDelta only)

theorem keeps_upset {P : Nat} {s u : State} (hP : Fits 0x26002000000000000000000000000000000000000000000000000000000000000000000000000000 P) (h : Keeps P s u) : Keeps P s (State.upset u) := by
  unfold State.upset
  refine keeps_clusters hP rfl (keeps_alm hP rfl (keeps_marks hP rfl (keeps_free hP rfl h (Nat.le_succ _)) (fun hm => ?_)))
  split
  · exact nset_wf _ _ hm
  · exact hm

end Sys2Proof.Machine
end

