-- ==== Sys2Proof/Laws/KeepsDma.lean ====
section
/-! SUPPORT. What each operation of Machine/Dma.lean may change, and that it keeps the invariant: one law for each. -/

set_option linter.unreachableTactic false
set_option linter.unusedTactic false

namespace Sys2Proof.Machine

theorem keeps_granuleFault {P : Nat} {s u : State} {a1 a2 a3} (hP : Fits 0x18058a000000000000000000012068000000a10000000000000000000000000000000000000000000 P) (h : Keeps P s u) :
    Keeps P s (State.granuleFault u a1 a2 a3) := by
  unfold State.granuleFault
  repeat' (first
    | with_reducible exact h
    | with_reducible assumption
    | dsimp -zeta only
    | with_reducible refine keeps_raiseFault (hP.sub rfl) ?_
    | with_reducible refine keeps_raiseFault_eq (by assumption) (hP.sub rfl) ?_
    | with_reducible refine keeps_setDmaCh (hP.sub rfl) ?_
    | with_reducible refine keeps_countFix (hP.sub rfl) ?_
    | with_reducible refine keeps_fput hP rfl ?_
    | with_reducible refine keeps_bump hP rfl ?_
    | intro _
    | with_reducible refine keeps_ite ?_ ?_
    | with_reducible refine keeps_ite_fst ?_ ?_
    | with_reducible refine keeps_pair (by assumption) ?_
    | split
    | fail_if_no_progress extract_lets
    | dsimp +zetaDelta only)

theorem keeps_granuleWritten {P : Nat} {s u : State} {a1 a2} (hP : Fits 0x100000000000000000000000000000000000400000000000000000000000000000000000000000000 P) (h : Keeps P s u) :
    Keeps P s (State.granuleWritten u a1 a2) := by
  unfold State.granuleWritten
  repeat' (first
    | with_reducible exact h
    | with_reducible assumption
    | dsimp -zeta only
    | with_reducible refine keeps_setDmaCh (hP.sub rfl) ?_
    | with_reducible refine keeps_fput hP rfl ?_
    | intro _
    | with_reducible refine keeps_ite ?_ ?_
    | with_reducible refine keeps_ite_fst ?_ ?_
    | with_reducible refine keeps_pair (by assumption) ?_
    | split
    | fail_if_no_progress extract_lets
    | dsimp +zetaDelta only)

theorem keeps_granuleSource {P : Nat} {s u : State} {a1 a2 a3 a4} (hP : Fits 0x81e059b000000000300000000012068000000a1002140a100000000000000000000000000000000000 P) (h : Keeps P s u) :
    Keeps P s (State.granuleSource u a1 a2 a3 a4).1 := by
  unfold State.granuleSource
  repeat' (first
    | with_reducible exact h
    | with_reducible assumption
    | dsimp -zeta only
    | with_reducible refine keeps_dvaRead (hP.sub rfl) ?_
    | with_reducible refine keeps_dvaRead_eq (by assumption) (hP.sub rfl) ?_
    | with_reducible refine keeps_fresh (hP.sub rfl) ?_
    | with_reducible refine keeps_fresh_eq (by assumption) (hP.sub rfl) ?_
    | intro _
    | with_reducible refine keeps_ite ?_ ?_
    | with_reducible refine keeps_ite_fst ?_ ?_
    | with_reducible refine keeps_pair (by assumption) ?_
    | split
    | fail_if_no_progress extract_lets
    | dsimp +zetaDelta only)

theorem keeps_granuleSource_eq {P : Nat} {s u v : State} {a1 a2 a3 a4} {x} (he : State.granuleSource u a1 a2 a3 a4 = (v, x)) (hP : Fits 0x81e059b000000000300000000012068000000a1002140a100000000000000000000000000000000000 P)
    (h : Keeps P s u) : Keeps P s v := by
  have h1 := keeps_granuleSource (a1 := a1) (a2 := a2) (a3 := a3) (a4 := a4) hP h
  rw [he] at h1
  exact h1

theorem keeps_granuleStore {P : Nat} {s u : State} {a1 a2 a3 a4} (hP : Fits 0x81e059f000000000300000000012068000000a1002140a100000000000000000000000000000000000 P) (h : Keeps P s u) :
    Keeps P s (State.granuleStore u a1 a2 a3 a4).1 := by
  unfold State.granuleStore
  repeat' (first
    | with_reducible exact h
    | with_reducible assumption
    | dsimp -zeta only
    | with_reducible refine keeps_hostWrite (hP.sub rfl) ?_
    | with_reducible refine keeps_dvaWrite (hP.sub rfl) ?_
    | with_reducible refine keeps_dvaWrite_eq (by assumption) (hP.sub rfl) ?_
    | intro _
    | with_reducible refine keeps_ite ?_ ?_
    | with_reducible refine keeps_ite_fst ?_ ?_
    | with_reducible refine keeps_pair (by assumption) ?_
    | split
    | fail_if_no_progress extract_lets
    | dsimp +zetaDelta only)

theorem keeps_granuleStore_eq {P : Nat} {s u v : State} {a1 a2 a3 a4} {x} (he : State.granuleStore u a1 a2 a3 a4 = (v, x)) (hP : Fits 0x81e059f000000000300000000012068000000a1002140a100000000000000000000000000000000000 P)
    (h : Keeps P s u) : Keeps P s v := by
  have h1 := keeps_granuleStore (a1 := a1) (a2 := a2) (a3 := a3) (a4 := a4) hP h
  rw [he] at h1
  exact h1

theorem keeps_nextXid {P : Nat} {s u : State} (hP : Fits 0x2000000000000000000000000000000000000000000000000000000000000000000000000000000000 P) (h : Keeps P s u) :
    Keeps P s (State.nextXid u).1 := by
  unfold State.nextXid
  repeat' (first
    | with_reducible exact h
    | with_reducible assumption
    | dsimp -zeta only
    | intro _
    | with_reducible refine keeps_ite ?_ ?_
    | with_reducible refine keeps_ite_fst ?_ ?_
    | with_reducible refine keeps_pair (by assumption) ?_
    | split
    | fail_if_no_progress extract_lets
    | fail_if_no_progress with_reducible refine keeps_wln hP rfl ?_
    | dsimp +zetaDelta only)

theorem keeps_nextXid_eq {P : Nat} {s u v : State} {x} (he : State.nextXid u = (v, x)) (hP : Fits 0x2000000000000000000000000000000000000000000000000000000000000000000000000000000000 P)
    (h : Keeps P s u) : Keeps P s v := by
  have h1 := keeps_nextXid hP h
  rw [he] at h1
  exact h1

theorem keeps_sendBulkWr {P : Nat} {s u : State} {a1 a2 a3 a4 a5 a6 a7} (hP : Fits 0xa1e059b000000000300000000012068000000a1002140a100000000000000000000000000000000000 P) (h : Keeps P s u) :
    Keeps P s (State.sendBulkWr u a1 a2 a3 a4 a5 a6 a7) := by
  unfold State.sendBulkWr
  repeat' (first
    | with_reducible exact h
    | with_reducible assumption
    | dsimp -zeta only
    | with_reducible refine keeps_granuleSource (hP.sub rfl) ?_
    | with_reducible refine keeps_granuleSource_eq (by assumption) (hP.sub rfl) ?_
    | with_reducible refine keeps_granuleFault (hP.sub rfl) ?_
    | with_reducible refine keeps_sendFlit (hP.sub rfl) ?_
    | with_reducible refine keeps_foldl ?_ ?_
    | with_reducible refine keeps_foldl_fst ?_ ?_
    | intro _
    | with_reducible refine keeps_ite ?_ ?_
    | with_reducible refine keeps_ite_fst ?_ ?_
    | with_reducible refine keeps_pair (by assumption) ?_
    | split
    | fail_if_no_progress extract_lets
    | fail_if_no_progress with_reducible refine keeps_wln hP rfl ?_
    | dsimp +zetaDelta only)

theorem keeps_sendGranule {P : Nat} {s u : State} {a1 a2 a3 a4} (hP : Fits 0xa1e059b000000000300000000012068000000a1002140a100000000000000000000000000000000000 P) (h : Keeps P s u) :
    Keeps P s (State.sendGranule u a1 a2 a3 a4) := by
  unfold State.sendGranule
  repeat' (first
    | with_reducible exact h
    | with_reducible assumption
    | dsimp -zeta only
    | with_reducible refine keeps_granuleFault (hP.sub rfl) ?_
    | with_reducible refine keeps_sendBulkWr (hP.sub rfl) ?_
    | with_reducible refine keeps_sendFlit (hP.sub rfl) ?_
    | with_reducible refine keeps_nextXid (hP.sub rfl) ?_
    | with_reducible refine keeps_nextXid_eq (by assumption) (hP.sub rfl) ?_
    | with_reducible refine keeps_ownNode (hP.sub rfl) ?_
    | with_reducible refine keeps_ownNode_eq (by assumption) (hP.sub rfl) ?_
    | intro _
    | with_reducible refine keeps_ite ?_ ?_
    | with_reducible refine keeps_ite_fst ?_ ?_
    | with_reducible refine keeps_pair (by assumption) ?_
    | split
    | fail_if_no_progress extract_lets
    | fail_if_no_progress with_reducible refine keeps_wln hP rfl ?_
    | dsimp +zetaDelta only)

theorem keeps_startGranule {P : Nat} {s u : State} {a1} (hP : Fits 0xa1e059b000000000300000000012068000000a1002140a100000000000000000000000000000000000 P) (h : Keeps P s u) :
    Keeps P s (State.startGranule u a1) := by
  unfold State.startGranule
  repeat' (first
    | with_reducible exact h
    | with_reducible assumption
    | dsimp -zeta only
    | with_reducible refine keeps_sendGranule (hP.sub rfl) ?_
    | with_reducible refine keeps_setDmaCh (hP.sub rfl) ?_
    | with_reducible refine keeps_askWalks (hP.sub rfl) ?_
    | intro _
    | with_reducible refine keeps_ite ?_ ?_
    | with_reducible refine keeps_ite_fst ?_ ?_
    | with_reducible refine keeps_pair (by assumption) ?_
    | split
    | fail_if_no_progress extract_lets
    | dsimp +zetaDelta only)

theorem keeps_dmaFillFrom {P : Nat} {s u : State} {a1} (hP : Fits 0xa1e059b000000000300000000012068000000a1002140a100000000000000000000000000000000000 P) (h : Keeps P s u) :
    Keeps P s (State.dmaFillFrom u a1) := by
  induction a1 generalizing u with
  | zero =>
    unfold State.dmaFillFrom
    repeat' (first
      | with_reducible exact h
      | with_reducible assumption
      | dsimp -zeta only
      | with_reducible refine keeps_startGranule (hP.sub rfl) ?_
      | intro _
      | with_reducible refine keeps_ite ?_ ?_
      | with_reducible refine keeps_ite_fst ?_ ?_
      | with_reducible refine keeps_pair (by assumption) ?_
      | split
      | fail_if_no_progress extract_lets
      | fail_if_no_progress with_reducible refine keeps_dma hP rfl ?_
      | dsimp +zetaDelta only)
  | succ n ih =>
    unfold State.dmaFillFrom
    repeat' (first
      | with_reducible exact h
      | with_reducible assumption
      | dsimp -zeta only
      | with_reducible apply ih
      | with_reducible refine keeps_startGranule (hP.sub rfl) ?_
      | intro _
      | with_reducible refine keeps_ite ?_ ?_
      | with_reducible refine keeps_ite_fst ?_ ?_
      | with_reducible refine keeps_pair (by assumption) ?_
      | split
      | fail_if_no_progress extract_lets
      | fail_if_no_progress with_reducible refine keeps_dma hP rfl ?_
      | dsimp +zetaDelta only)

theorem keeps_dmaFill {P : Nat} {s u : State} (hP : Fits 0xa1e059b000000000300000000012068000000a1002140a100000000000000000000000000000000000 P) (h : Keeps P s u) :
    Keeps P s (State.dmaFill u) := by
  unfold State.dmaFill
  repeat' (first
    | with_reducible exact h
    | with_reducible assumption
    | dsimp -zeta only
    | with_reducible refine keeps_dmaFillFrom (hP.sub rfl) ?_
    | intro _
    | with_reducible refine keeps_ite ?_ ?_
    | with_reducible refine keeps_ite_fst ?_ ?_
    | with_reducible refine keeps_pair (by assumption) ?_
    | split
    | fail_if_no_progress extract_lets
    | dsimp +zetaDelta only)

theorem keeps_dmaBegin {P : Nat} {s u : State} {a1 a2} (hP : Fits 0x100000000000000000000000000000000000600000000000000000000000000000000000000000000 P) (h : Keeps P s u) :
    Keeps P s (State.dmaBegin u a1 a2) := by
  unfold State.dmaBegin
  repeat' (first
    | with_reducible exact h
    | with_reducible assumption
    | dsimp -zeta only
    | with_reducible refine keeps_setDmaCh (hP.sub rfl) ?_
    | with_reducible refine keeps_wr hP rfl ?_
    | with_reducible refine keeps_fput hP rfl ?_
    | intro _
    | with_reducible refine keeps_ite ?_ ?_
    | with_reducible refine keeps_ite_fst ?_ ?_
    | with_reducible refine keeps_pair (by assumption) ?_
    | split
    | fail_if_no_progress extract_lets
    | dsimp +zetaDelta only)

theorem keeps_doDmaDescriptor {P : Nat} {s u : State} {a1} (hP : Fits 0xa1e059b000000000300000000016068000000e1002140a100000000000000000000000000000000000 P) (h : Keeps P s u) :
    Keeps P s (State.doDmaDescriptor u a1) := by
  unfold State.doDmaDescriptor
  repeat' (first
    | with_reducible exact h
    | with_reducible assumption
    | dsimp -zeta only
    | with_reducible refine keeps_dmaBegin (hP.sub rfl) ?_
    | with_reducible refine keeps_dmaFill (hP.sub rfl) ?_
    | with_reducible refine keeps_qTake_eq (by assumption) (hP.sub rfl) ?_
    | intro _
    | with_reducible refine keeps_ite ?_ ?_
    | with_reducible refine keeps_ite_fst ?_ ?_
    | with_reducible refine keeps_pair (by assumption) ?_
    | split
    | fail_if_no_progress extract_lets
    | dsimp +zetaDelta only)

theorem keeps_doGranuleComplete {P : Nat} {s u : State} {a1 a2} (hP : Fits 0xa1e059f000000000300000000012068000000e1002140a100000000000000000000000000000000000 P) (h : Keeps P s u) :
    Keeps P s (State.doGranuleComplete u a1 a2) := by
  unfold State.doGranuleComplete
  repeat' (first
    | with_reducible exact h
    | with_reducible assumption
    | dsimp -zeta only
    | with_reducible refine keeps_granuleWritten (hP.sub rfl) ?_
    | with_reducible refine keeps_granuleSource (hP.sub rfl) ?_
    | with_reducible refine keeps_granuleSource_eq (by assumption) (hP.sub rfl) ?_
    | with_reducible refine keeps_granuleStore (hP.sub rfl) ?_
    | with_reducible refine keeps_granuleStore_eq (by assumption) (hP.sub rfl) ?_
    | with_reducible refine keeps_granuleFault (hP.sub rfl) ?_
    | with_reducible refine keeps_sendGranule (hP.sub rfl) ?_
    | with_reducible refine keeps_advance (hP.sub rfl) ?_
    | with_reducible refine keeps_dmaFill (hP.sub rfl) ?_
    | intro _
    | with_reducible refine keeps_ite ?_ ?_
    | with_reducible refine keeps_ite_fst ?_ ?_
    | with_reducible refine keeps_pair (by assumption) ?_
    | split
    | fail_if_no_progress extract_lets
    | dsimp +zetaDelta only)

theorem keeps_dmaPost {P : Nat} {s u : State} {a1 a2 a3} (hP : Fits 0x188000000000000000000012068000000000000000000000000000000000000000000000000000 P) (h : Keeps P s u) :
    Keeps P s (State.dmaPost u a1 a2 a3) := by
  unfold State.dmaPost
  repeat' (first
    | with_reducible exact h
    | with_reducible assumption
    | dsimp -zeta only
    | with_reducible refine keeps_reportDma (hP.sub rfl) ?_
    | intro _
    | with_reducible refine keeps_ite ?_ ?_
    | with_reducible refine keeps_ite_fst ?_ ?_
    | with_reducible refine keeps_pair (by assumption) ?_
    | split
    | fail_if_no_progress extract_lets
    | dsimp +zetaDelta only)

theorem keeps_doDmaCompletion {P : Nat} {s u : State} {a1} (hP : Fits 0x100188000000000000000000012068000000a00000000000000000000000000000000000000000000 P) (h : Keeps P s u) :
    Keeps P s (State.doDmaCompletion u a1) := by
  unfold State.doDmaCompletion
  repeat' (first
    | with_reducible exact h
    | with_reducible assumption
    | dsimp -zeta only
    | with_reducible refine keeps_setDmaCh (hP.sub rfl) ?_
    | with_reducible refine keeps_dmaPost (hP.sub rfl) ?_
    | with_reducible refine keeps_fput hP rfl ?_
    | with_reducible refine keeps_bump hP rfl ?_
    | intro _
    | with_reducible refine keeps_ite ?_ ?_
    | with_reducible refine keeps_ite_fst ?_ ?_
    | with_reducible refine keeps_pair (by assumption) ?_
    | split
    | fail_if_no_progress extract_lets
    | dsimp +zetaDelta only)

theorem keeps_dmaEnds {P : Nat} {s u : State} {a1 a2 a3} (hP : Fits 0x100000000000000000000000000000000000200000000000000000000000000000000000000000000 P) (h : Keeps P s u) :
    Keeps P s (State.dmaEnds u a1 a2 a3) := by
  unfold State.dmaEnds
  repeat' (first
    | with_reducible exact h
    | with_reducible assumption
    | dsimp -zeta only
    | with_reducible refine keeps_setDmaCh (hP.sub rfl) ?_
    | with_reducible refine keeps_fput hP rfl ?_
    | intro _
    | with_reducible refine keeps_ite ?_ ?_
    | with_reducible refine keeps_ite_fst ?_ ?_
    | with_reducible refine keeps_pair (by assumption) ?_
    | split
    | fail_if_no_progress extract_lets
    | dsimp +zetaDelta only)

theorem keeps_doDmaChCtlWrite {P : Nat} {s u : State} {a1 a2} (hP : Fits 0xa1e059b000000000300000000012068000000b1002140a100000000000000000000000000000000000 P) (h : Keeps P s u) :
    Keeps P s (State.doDmaChCtlWrite u a1 a2) := by
  unfold State.doDmaChCtlWrite
  repeat' (first
    | with_reducible exact h
    | with_reducible assumption
    | dsimp -zeta only
    | with_reducible refine keeps_dmaFill (hP.sub rfl) ?_
    | with_reducible refine keeps_dmaEnds (hP.sub rfl) ?_
    | with_reducible refine keeps_setSlot (hP.sub rfl) ?_
    | with_reducible refine keeps_fput hP rfl ?_
    | intro _
    | with_reducible refine keeps_ite ?_ ?_
    | with_reducible refine keeps_ite_fst ?_ ?_
    | with_reducible refine keeps_pair (by assumption) ?_
    | split
    | fail_if_no_progress extract_lets
    | dsimp +zetaDelta only)

theorem keeps_bodyDmaChannelSet {P : Nat} {s u : State} {k} (hP : Fits 0xa1e059b000000000300000000012068000000b1002140a100000000000000000000000000000000000 P) (h : Keeps P s u) :
    Keeps P s (bodyDmaChannelSet k u).1 := by
  unfold bodyDmaChannelSet
  beta_reduce
  repeat' (first
    | with_reducible exact h
    | with_reducible assumption
    | dsimp -zeta only
    | with_reducible refine keeps_doDmaChCtlWrite (hP.sub rfl) ?_
    | with_reducible refine keeps_fail (hP.sub rfl) ?_
    | with_reducible refine keeps_fail_eq (by assumption) (hP.sub rfl) ?_
    | with_reducible refine keeps_ok (hP.sub rfl) ?_
    | with_reducible refine keeps_ok_eq (by assumption) (hP.sub rfl) ?_
    | intro _
    | with_reducible refine keeps_ite ?_ ?_
    | with_reducible refine keeps_ite_fst ?_ ?_
    | with_reducible refine keeps_pair (by assumption) ?_
    | split
    | fail_if_no_progress extract_lets
    | dsimp +zetaDelta only)

theorem keeps_bodyDmaChannelSet_eq {P : Nat} {s u v : State} {k} {x} (he : bodyDmaChannelSet k u = (v, x)) (hP : Fits 0xa1e059b000000000300000000012068000000b1002140a100000000000000000000000000000000000 P)
    (h : Keeps P s u) : Keeps P s v := by
  have h1 := keeps_bodyDmaChannelSet (k := k) hP h
  rw [he] at h1
  exact h1

theorem keeps_bulkLost {P : Nat} {s u : State} {a1} (hP : Fits 0x218058a000000000000000000012068000000a10000000000000000000000000000000000000000000 P) (h : Keeps P s u) :
    Keeps P s (State.bulkLost u a1) := by
  unfold State.bulkLost
  repeat' (first
    | with_reducible exact h
    | with_reducible assumption
    | dsimp -zeta only
    | with_reducible refine keeps_granuleFault (hP.sub rfl) ?_
    | with_reducible refine keeps_foldl ?_ ?_
    | with_reducible refine keeps_foldl_fst ?_ ?_
    | intro _
    | with_reducible refine keeps_ite ?_ ?_
    | with_reducible refine keeps_ite_fst ?_ ?_
    | with_reducible refine keeps_pair (by assumption) ?_
    | split
    | fail_if_no_progress extract_lets
    | fail_if_no_progress with_reducible refine keeps_wln hP rfl ?_
    | dsimp +zetaDelta only)

theorem keeps_bar2Off {P : Nat} {s u : State} (hP : Fits 0x1000000000000000000000000000000000000000000 P) (h : Keeps P s u) :
    Keeps P s (State.bar2Off u) := by
  unfold State.bar2Off
  repeat' (first
    | with_reducible exact h
    | with_reducible assumption
    | dsimp -zeta only
    | with_reducible refine keeps_bump hP rfl ?_
    | intro _
    | with_reducible refine keeps_ite ?_ ?_
    | with_reducible refine keeps_ite_fst ?_ ?_
    | with_reducible refine keeps_pair (by assumption) ?_
    | split
    | fail_if_no_progress extract_lets
    | dsimp +zetaDelta only)

theorem keeps_bar2Fault {P : Nat} {s u : State} {a1} (hP : Fits 0x8058a000000000000000000012068000000011000000000000000000000000000000000000000000 P) (h : Keeps P s u) :
    Keeps P s (State.bar2Fault u a1) := by
  unfold State.bar2Fault
  repeat' (first
    | with_reducible exact h
    | with_reducible assumption
    | dsimp -zeta only
    | with_reducible refine keeps_raiseFault (hP.sub rfl) ?_
    | with_reducible refine keeps_raiseFault_eq (by assumption) (hP.sub rfl) ?_
    | with_reducible refine keeps_bump hP rfl ?_
    | intro _
    | with_reducible refine keeps_ite ?_ ?_
    | with_reducible refine keeps_ite_fst ?_ ?_
    | with_reducible refine keeps_pair (by assumption) ?_
    | split
    | fail_if_no_progress extract_lets
    | dsimp +zetaDelta only)

theorem keeps_answer {P : Nat} {s u : State} {a1} (hP : Fits 0x10000000000000000000000000000000000000000000000000000000000000000000000000000 P) (h : Keeps P s u) :
    Keeps P s (State.answer u a1) := by
  unfold State.answer
  repeat' (first
    | with_reducible exact h
    | with_reducible assumption
    | dsimp -zeta only
    | intro _
    | with_reducible refine keeps_ite ?_ ?_
    | with_reducible refine keeps_ite_fst ?_ ?_
    | with_reducible refine keeps_pair (by assumption) ?_
    | split
    | fail_if_no_progress extract_lets
    | fail_if_no_progress with_reducible refine keeps_hostPort hP rfl ?_ rfl rfl rfl rfl rfl
    | dsimp +zetaDelta only)

theorem keeps_holdPiece {P : Nat} {s u : State} {a1 a2} (hP : Fits 0x40198000000000000000000012068000000000000002100000000000000000000000000000000000 P) (h : Keeps P s u) :
    Keeps P s (State.holdPiece u a1 a2) := by
  unfold State.holdPiece
  repeat' (first
    | with_reducible exact h
    | with_reducible assumption
    | dsimp -zeta only
    | with_reducible refine keeps_decodeError (hP.sub rfl) ?_
    | with_reducible refine keeps_pieceBack (hP.sub rfl) ?_
    | with_reducible refine keeps_setChan (hP.sub rfl) ?_
    | intro _
    | with_reducible refine keeps_ite ?_ ?_
    | with_reducible refine keeps_ite_fst ?_ ?_
    | with_reducible refine keeps_pair (by assumption) ?_
    | split
    | fail_if_no_progress extract_lets
    | dsimp +zetaDelta only)

theorem keeps_holdHostRead_eq {P : Nat} {s u v : State} {a1 a2} (he : State.holdHostRead u a1 a2 = some v) (hP : Fits 0x40198000000000000000000012068000000000000002100000000000000000000000000000000000 P)
    (h : Keeps P s u) : Keeps P s v := by
  unfold State.holdHostRead at he
  split at he
  · simp at he
  · simp only [Option.some.injEq] at he
    rw [← he]
    refine keeps_foldl (fun _ _ h => keeps_holdPiece (hP.sub rfl) h) ?_
    exact keeps_hostPort hP rfl (keeps_wakeMem (hP.sub rfl) h) rfl rfl rfl rfl rfl

theorem keeps_doBar2Read {P : Nat} {s u : State} {a1 a2} (hP : Fits 0x81e059b000000000300000000012068000000a1102140a100000000000000000000000000000000000 P) (h : Keeps P s u) :
    Keeps P s (State.doBar2Read u a1 a2) := by
  unfold State.doBar2Read
  repeat' (first
    | with_reducible exact h
    | with_reducible assumption
    | dsimp -zeta only
    | with_reducible refine keeps_holdHostRead_eq (by assumption) (hP.sub rfl) ?_
    | with_reducible refine keeps_translate (hP.sub rfl) ?_
    | with_reducible refine keeps_translate_eq (by assumption) (hP.sub rfl) ?_
    | with_reducible refine keeps_bar2Fault (hP.sub rfl) ?_
    | with_reducible refine keeps_bar2Off (hP.sub rfl) ?_
    | with_reducible refine keeps_hbmRead (hP.sub rfl) ?_
    | with_reducible refine keeps_hbmRead_eq (by assumption) (hP.sub rfl) ?_
    | with_reducible refine keeps_answer (hP.sub rfl) ?_
    | intro _
    | with_reducible refine keeps_ite ?_ ?_
    | with_reducible refine keeps_ite_fst ?_ ?_
    | with_reducible refine keeps_pair (by assumption) ?_
    | split
    | fail_if_no_progress extract_lets
    | dsimp +zetaDelta only)

theorem keeps_doBar2Write {P : Nat} {s u : State} {a1 a2 a3} (hP : Fits 0x81e059b000000000300080000012068000000a1102140a100000000000000000000000000000000000 P) (h : Keeps P s u) :
    Keeps P s (State.doBar2Write u a1 a2 a3) := by
  unfold State.doBar2Write
  repeat' (first
    | with_reducible exact h
    | with_reducible assumption
    | dsimp -zeta only
    | with_reducible refine keeps_bar2Fault (hP.sub rfl) ?_
    | with_reducible refine keeps_dvaWrite (hP.sub rfl) ?_
    | with_reducible refine keeps_dvaWrite_eq (by assumption) (hP.sub rfl) ?_
    | with_reducible refine keeps_bar2Off (hP.sub rfl) ?_
    | with_reducible refine keeps_bump hP rfl ?_
    | intro _
    | with_reducible refine keeps_ite ?_ ?_
    | with_reducible refine keeps_ite_fst ?_ ?_
    | with_reducible refine keeps_pair (by assumption) ?_
    | split
    | fail_if_no_progress extract_lets
    | dsimp +zetaDelta only)

theorem keeps_execBar2Read {P : Nat} {u t : State} {a0 a1} (he : execBar2Read a0 a1 u = .next t) (hP : Fits 0x81e059b000000000300000000012068000000a1102140a100000000000000000000000000000000000 P) : Keeps P u t := by
  unfold execBar2Read at he
  injection he with he
  subst he
  repeat' (first
    | with_reducible exact Keeps.refl P u
    | with_reducible assumption
    | dsimp -zeta only
    | with_reducible refine keeps_doBar2Read (hP.sub rfl) ?_
    | intro _
    | with_reducible refine keeps_ite ?_ ?_
    | with_reducible refine keeps_ite_fst ?_ ?_
    | with_reducible refine keeps_pair (by assumption) ?_
    | split
    | fail_if_no_progress extract_lets
    | dsimp +zetaDelta only)

theorem keeps_execBar2Write {P : Nat} {u t : State} {a0 a1 a2} (he : execBar2Write a0 a1 a2 u = .next t) (hP : Fits 0x81e059b000000000300080000012068000000a1102140a100000000000000000000000000000000000 P) : Keeps P u t := by
  unfold execBar2Write at he
  injection he with he
  subst he
  repeat' (first
    | with_reducible exact Keeps.refl P u
    | with_reducible assumption
    | dsimp -zeta only
    | with_reducible refine keeps_doBar2Write (hP.sub rfl) ?_
    | intro _
    | with_reducible refine keeps_ite ?_ ?_
    | with_reducible refine keeps_ite_fst ?_ ?_
    | with_reducible refine keeps_pair (by assumption) ?_
    | split
    | fail_if_no_progress extract_lets
    | dsimp +zetaDelta only)

theorem keeps_execDmaDescriptor {P : Nat} {u t : State} {a0} (he : execDmaDescriptor a0 u = .next t) (hP : Fits 0xa1e059b000000000300000000016068000000e1002140a100000000000000000000000000000000000 P) : Keeps P u t := by
  unfold execDmaDescriptor at he
  injection he with he
  subst he
  repeat' (first
    | with_reducible exact Keeps.refl P u
    | with_reducible assumption
    | dsimp -zeta only
    | with_reducible refine keeps_doDmaDescriptor (hP.sub rfl) ?_
    | intro _
    | with_reducible refine keeps_ite ?_ ?_
    | with_reducible refine keeps_ite_fst ?_ ?_
    | with_reducible refine keeps_pair (by assumption) ?_
    | split
    | fail_if_no_progress extract_lets
    | dsimp +zetaDelta only)

theorem keeps_execGranuleComplete {P : Nat} {u t : State} {a0 a1} (he : execGranuleComplete a0 a1 u = .next t) (hP : Fits 0xa1e059f000000000300000000012068000000e1002140a100000000000000000000000000000000000 P) : Keeps P u t := by
  unfold execGranuleComplete at he
  injection he with he
  subst he
  repeat' (first
    | with_reducible exact Keeps.refl P u
    | with_reducible assumption
    | dsimp -zeta only
    | with_reducible refine keeps_doGranuleComplete (hP.sub rfl) ?_
    | intro _
    | with_reducible refine keeps_ite ?_ ?_
    | with_reducible refine keeps_ite_fst ?_ ?_
    | with_reducible refine keeps_pair (by assumption) ?_
    | split
    | fail_if_no_progress extract_lets
    | dsimp +zetaDelta only)

theorem keeps_execDmaCompletion {P : Nat} {u t : State} {a0} (he : execDmaCompletion a0 u = .next t) (hP : Fits 0x100188000000000000000000012068000000a00000000000000000000000000000000000000000000 P) : Keeps P u t := by
  unfold execDmaCompletion at he
  injection he with he
  subst he
  repeat' (first
    | with_reducible exact Keeps.refl P u
    | with_reducible assumption
    | dsimp -zeta only
    | with_reducible refine keeps_doDmaCompletion (hP.sub rfl) ?_
    | intro _
    | with_reducible refine keeps_ite ?_ ?_
    | with_reducible refine keeps_ite_fst ?_ ?_
    | with_reducible refine keeps_pair (by assumption) ?_
    | split
    | fail_if_no_progress extract_lets
    | dsimp +zetaDelta only)

theorem keeps_execDmaChannelSet {P : Nat} {u t : State} {a0} (he : execDmaChannelSet a0 u = .next t) (hP : Fits 0xa1e0f9b000000000300000000012068003f00b1002140a100000000000000000000000000000000000 P) : Keeps P u t := by
  unfold execDmaChannelSet at he
  injection he with he
  subst he
  repeat' (first
    | with_reducible exact Keeps.refl P u
    | with_reducible assumption
    | dsimp -zeta only
    | with_reducible refine keeps_bodyDmaChannelSet (hP.sub rfl) ?_
    | with_reducible refine keeps_bodyDmaChannelSet_eq (by assumption) (hP.sub rfl) ?_
    | with_reducible refine keeps_runCommand (hP.sub rfl) ?_ ?_
    | intro _
    | with_reducible refine keeps_ite ?_ ?_
    | with_reducible refine keeps_ite_fst ?_ ?_
    | with_reducible refine keeps_pair (by assumption) ?_
    | split
    | fail_if_no_progress extract_lets
    | dsimp +zetaDelta only)

end Sys2Proof.Machine
end

