-- ==== Sys2Proof/Laws/KeepsPinCommands.lean ====
section
/-! SUPPORT. What each operation of Machine/PinCommands.lean may change, and that it keeps the invariant: one law for each. -/

set_option linter.unreachableTactic false
set_option linter.unusedTactic false

namespace Sys2Proof.Machine

theorem keeps_settleIf {P : Nat} {s u : State} {a1 a2} (hP : Fits 0x1000000 P) (h : Keeps P s u) :
    Keeps P s (State.settleIf u a1 a2) := by
  unfold State.settleIf
  repeat' (first
    | with_reducible exact h
    | with_reducible assumption
    | dsimp -zeta only
    | with_reducible refine keeps_beginSettle (hP.sub rfl) ?_
    | intro _
    | with_reducible refine keeps_ite ?_ ?_
    | with_reducible refine keeps_ite_fst ?_ ?_
    | with_reducible refine keeps_pair (by assumption) ?_
    | split
    | fail_if_no_progress extract_lets
    | dsimp +zetaDelta only)

theorem keeps_afterSettling {P : Nat} {s u : State} {a1} (hP : Fits 0 P) (h : Keeps P s u) :
    Keeps P s (State.afterSettling u a1).1 := by
  unfold State.afterSettling
  repeat' (first
    | with_reducible exact h
    | with_reducible assumption
    | dsimp -zeta only
    | intro _
    | with_reducible refine keeps_ite ?_ ?_
    | with_reducible refine keeps_ite_fst ?_ ?_
    | with_reducible refine keeps_pair (by assumption) ?_
    | split
    | fail_if_no_progress extract_lets
    | dsimp +zetaDelta only)

theorem keeps_afterSettling_eq {P : Nat} {s u v : State} {a1} {x} (he : State.afterSettling u a1 = (v, x)) (hP : Fits 0 P)
    (h : Keeps P s u) : Keeps P s v := by
  have h1 := keeps_afterSettling (a1 := a1) hP h
  rw [he] at h1
  exact h1

theorem keeps_putLevel {P : Nat} {s u : State} {a1 a2 a3 a4} (hP : Fits 0x1000000 P) (h2 : P.testBit a2.id.ctorIdx = true) (h : Keeps P s u) :
    Keeps P s (State.putLevel u a1 a2 a3 a4) := by
  unfold State.putLevel
  repeat' (first
    | with_reducible exact h
    | with_reducible assumption
    | dsimp -zeta only
    | with_reducible refine keeps_settleIf (hP.sub rfl) ?_
    | with_reducible refine keeps_fput (Fits.refl P) (by assumption) ?_
    | with_reducible refine keeps_fput hP rfl ?_
    | intro _
    | with_reducible refine keeps_ite ?_ ?_
    | with_reducible refine keeps_ite_fst ?_ ?_
    | with_reducible refine keeps_pair (by assumption) ?_
    | split
    | fail_if_no_progress extract_lets
    | dsimp +zetaDelta only)

theorem keeps_putLevels {P : Nat} {s u : State} {a1 a2} (hP : Fits 0x11c0000 P) (h : Keeps P s u) :
    Keeps P s (State.putLevels u a1 a2) := by
  unfold State.putLevels
  repeat' (first
    | with_reducible exact h
    | with_reducible assumption
    | dsimp -zeta only
    | with_reducible refine keeps_putLevel (hP.sub rfl) (hP.bit rfl) ?_
    | with_reducible refine keeps_fput hP rfl ?_
    | intro _
    | with_reducible refine keeps_ite ?_ ?_
    | with_reducible refine keeps_ite_fst ?_ ?_
    | with_reducible refine keeps_pair (by assumption) ?_
    | split
    | fail_if_no_progress extract_lets
    | dsimp +zetaDelta only)

theorem keeps_bodyPinLevels {P : Nat} {s u : State} {k} (hP : Fits 0x11c0000 P) (h : Keeps P s u) :
    Keeps P s (bodyPinLevels k u).1 := by
  unfold bodyPinLevels
  beta_reduce
  repeat' (first
    | with_reducible exact h
    | with_reducible assumption
    | dsimp -zeta only
    | with_reducible refine keeps_afterSettling (hP.sub rfl) ?_
    | with_reducible refine keeps_afterSettling_eq (by assumption) (hP.sub rfl) ?_
    | with_reducible refine keeps_putLevels (hP.sub rfl) ?_
    | with_reducible refine keeps_fail (hP.sub rfl) ?_
    | with_reducible refine keeps_fail_eq (by assumption) (hP.sub rfl) ?_
    | with_reducible refine keeps_foldl ?_ ?_
    | with_reducible refine keeps_foldl_fst ?_ ?_
    | intro _
    | with_reducible refine keeps_ite ?_ ?_
    | with_reducible refine keeps_ite_fst ?_ ?_
    | with_reducible refine keeps_pair (by assumption) ?_
    | split
    | fail_if_no_progress extract_lets
    | dsimp +zetaDelta only)

theorem keeps_bodyPinLevels_eq {P : Nat} {s u v : State} {k} {x} (he : bodyPinLevels k u = (v, x)) (hP : Fits 0x11c0000 P)
    (h : Keeps P s u) : Keeps P s v := by
  have h1 := keeps_bodyPinLevels (k := k) hP h
  rw [he] at h1
  exact h1

theorem keeps_fputIf {P : Nat} {s u : State} {a1 a2 a3 a4} (hP : Fits 0 P) (h2 : P.testBit a2.id.ctorIdx = true) (h : Keeps P s u) :
    Keeps P s (State.fputIf u a1 a2 a3 a4) := by
  unfold State.fputIf
  repeat' (first
    | with_reducible exact h
    | with_reducible assumption
    | dsimp -zeta only
    | with_reducible refine keeps_fput (Fits.refl P) (by assumption) ?_
    | with_reducible refine keeps_fput hP rfl ?_
    | intro _
    | with_reducible refine keeps_ite ?_ ?_
    | with_reducible refine keeps_ite_fst ?_ ?_
    | with_reducible refine keeps_pair (by assumption) ?_
    | split
    | fail_if_no_progress extract_lets
    | dsimp +zetaDelta only)

theorem keeps_putConfig {P : Nat} {s u : State} {a1 a2} (hP : Fits 0x1000000000000000000000000000000000000000000000000000000000000000000000000020000 P) (h : Keeps P s u) :
    Keeps P s (State.putConfig u a1 a2) := by
  unfold State.putConfig
  repeat' (first
    | with_reducible exact h
    | with_reducible assumption
    | dsimp -zeta only
    | with_reducible refine keeps_noteAnalogue (hP.sub rfl) ?_
    | with_reducible refine keeps_fputIf (hP.sub rfl) (hP.bit rfl) ?_
    | intro _
    | with_reducible refine keeps_ite ?_ ?_
    | with_reducible refine keeps_ite_fst ?_ ?_
    | with_reducible refine keeps_pair (by assumption) ?_
    | split
    | fail_if_no_progress extract_lets
    | dsimp +zetaDelta only)

theorem keeps_bodyPinConfig {P : Nat} {s u : State} {k} (hP : Fits 0x1000000000000000000000000000000000000000000000000000000000000000000000000020000 P) (h : Keeps P s u) :
    Keeps P s (bodyPinConfig k u).1 := by
  unfold bodyPinConfig
  beta_reduce
  repeat' (first
    | with_reducible exact h
    | with_reducible assumption
    | dsimp -zeta only
    | with_reducible refine keeps_putConfig (hP.sub rfl) ?_
    | with_reducible refine keeps_fail (hP.sub rfl) ?_
    | with_reducible refine keeps_fail_eq (by assumption) (hP.sub rfl) ?_
    | with_reducible refine keeps_ok (hP.sub rfl) ?_
    | with_reducible refine keeps_ok_eq (by assumption) (hP.sub rfl) ?_
    | with_reducible refine keeps_foldl ?_ ?_
    | with_reducible refine keeps_foldl_fst ?_ ?_
    | intro _
    | with_reducible refine keeps_ite ?_ ?_
    | with_reducible refine keeps_ite_fst ?_ ?_
    | with_reducible refine keeps_pair (by assumption) ?_
    | split
    | fail_if_no_progress extract_lets
    | dsimp +zetaDelta only)

theorem keeps_bodyPinConfig_eq {P : Nat} {s u v : State} {k} {x} (he : bodyPinConfig k u = (v, x)) (hP : Fits 0x1000000000000000000000000000000000000000000000000000000000000000000000000020000 P)
    (h : Keeps P s u) : Keeps P s v := by
  have h1 := keeps_bodyPinConfig (k := k) hP h
  rw [he] at h1
  exact h1

theorem keeps_putPmu {P : Nat} {s u : State} {a1 a2 a3 a4 a5 a6} (hP : Fits 0x801000000000000000000000000000000000000000000000000000000000000000000000001e00000 P) (h : Keeps P s u) :
    Keeps P s (State.putPmu u a1 a2 a3 a4 a5 a6) := by
  unfold State.putPmu
  repeat' (first
    | with_reducible exact h
    | with_reducible assumption
    | dsimp -zeta only
    | with_reducible refine keeps_noteAnalogue (hP.sub rfl) ?_
    | with_reducible refine keeps_sdPmuChange (hP.sub rfl) ?_
    | with_reducible refine keeps_clampCheck (hP.sub rfl) ?_
    | with_reducible refine keeps_settleIf (hP.sub rfl) ?_
    | with_reducible refine keeps_fput hP rfl ?_
    | intro _
    | with_reducible refine keeps_ite ?_ ?_
    | with_reducible refine keeps_ite_fst ?_ ?_
    | with_reducible refine keeps_pair (by assumption) ?_
    | split
    | fail_if_no_progress extract_lets
    | dsimp +zetaDelta only)

theorem keeps_bodyPinPmu {P : Nat} {s u : State} {k} (hP : Fits 0x801000000000000000000000000000000000000000000000000000000000000000000000001e00000 P) (h : Keeps P s u) :
    Keeps P s (bodyPinPmu k u).1 := by
  unfold bodyPinPmu
  beta_reduce
  repeat' (first
    | with_reducible exact h
    | with_reducible assumption
    | dsimp -zeta only
    | with_reducible refine keeps_afterSettling (hP.sub rfl) ?_
    | with_reducible refine keeps_afterSettling_eq (by assumption) (hP.sub rfl) ?_
    | with_reducible refine keeps_putPmu (hP.sub rfl) ?_
    | with_reducible refine keeps_fail (hP.sub rfl) ?_
    | with_reducible refine keeps_fail_eq (by assumption) (hP.sub rfl) ?_
    | with_reducible refine keeps_foldl ?_ ?_
    | with_reducible refine keeps_foldl_fst ?_ ?_
    | intro _
    | with_reducible refine keeps_ite ?_ ?_
    | with_reducible refine keeps_ite_fst ?_ ?_
    | with_reducible refine keeps_pair (by assumption) ?_
    | split
    | fail_if_no_progress extract_lets
    | dsimp +zetaDelta only)

theorem keeps_bodyPinPmu_eq {P : Nat} {s u v : State} {k} {x} (he : bodyPinPmu k u = (v, x)) (hP : Fits 0x801000000000000000000000000000000000000000000000000000000000000000000000001e00000 P)
    (h : Keeps P s u) : Keeps P s v := by
  have h1 := keeps_bodyPinPmu (k := k) hP h
  rw [he] at h1
  exact h1

theorem keeps_bodyPinSite {P : Nat} {s u : State} {k} (hP : Fits 0x100000000000000000 P) (h : Keeps P s u) :
    Keeps P s (bodyPinSite k u).1 := by
  unfold bodyPinSite
  beta_reduce
  repeat' (first
    | with_reducible exact h
    | with_reducible assumption
    | dsimp -zeta only
    | with_reducible refine keeps_fail (hP.sub rfl) ?_
    | with_reducible refine keeps_fail_eq (by assumption) (hP.sub rfl) ?_
    | with_reducible refine keeps_ok (hP.sub rfl) ?_
    | with_reducible refine keeps_ok_eq (by assumption) (hP.sub rfl) ?_
    | with_reducible refine keeps_fput hP rfl ?_
    | intro _
    | with_reducible refine keeps_ite ?_ ?_
    | with_reducible refine keeps_ite_fst ?_ ?_
    | with_reducible refine keeps_pair (by assumption) ?_
    | split
    | fail_if_no_progress extract_lets
    | dsimp +zetaDelta only)

theorem keeps_bodyPinSite_eq {P : Nat} {s u v : State} {k} {x} (he : bodyPinSite k u = (v, x)) (hP : Fits 0x100000000000000000 P)
    (h : Keeps P s u) : Keeps P s v := by
  have h1 := keeps_bodyPinSite (k := k) hP h
  rw [he] at h1
  exact h1

theorem keeps_clearPin {P : Nat} {s u : State} {a1 a2} (hP : Fits 0x1000000 P) (h : Keeps P s u) :
    Keeps P s (State.clearPin u a1 a2) := by
  unfold State.clearPin
  repeat' (first
    | with_reducible exact h
    | with_reducible assumption
    | dsimp -zeta only
    | with_reducible refine keeps_clampCheck (hP.sub rfl) ?_
    | with_reducible refine keeps_fputIf (hP.sub rfl) (hP.bit rfl) ?_
    | with_reducible refine keeps_fput hP rfl ?_
    | intro _
    | with_reducible refine keeps_ite ?_ ?_
    | with_reducible refine keeps_ite_fst ?_ ?_
    | with_reducible refine keeps_pair (by assumption) ?_
    | split
    | fail_if_no_progress extract_lets
    | dsimp +zetaDelta only)

theorem keeps_bodyPinClear {P : Nat} {s u : State} {k} (hP : Fits 0x1000000 P) (h : Keeps P s u) :
    Keeps P s (bodyPinClear k u).1 := by
  unfold bodyPinClear
  beta_reduce
  repeat' (first
    | with_reducible exact h
    | with_reducible assumption
    | dsimp -zeta only
    | with_reducible refine keeps_clearPin (hP.sub rfl) ?_
    | with_reducible refine keeps_fail (hP.sub rfl) ?_
    | with_reducible refine keeps_fail_eq (by assumption) (hP.sub rfl) ?_
    | with_reducible refine keeps_ok (hP.sub rfl) ?_
    | with_reducible refine keeps_ok_eq (by assumption) (hP.sub rfl) ?_
    | with_reducible refine keeps_foldl ?_ ?_
    | with_reducible refine keeps_foldl_fst ?_ ?_
    | intro _
    | with_reducible refine keeps_ite ?_ ?_
    | with_reducible refine keeps_ite_fst ?_ ?_
    | with_reducible refine keeps_pair (by assumption) ?_
    | split
    | fail_if_no_progress extract_lets
    | dsimp +zetaDelta only)

theorem keeps_bodyPinClear_eq {P : Nat} {s u v : State} {k} {x} (he : bodyPinClear k u = (v, x)) (hP : Fits 0x1000000 P)
    (h : Keeps P s u) : Keeps P s v := by
  have h1 := keeps_bodyPinClear (k := k) hP h
  rw [he] at h1
  exact h1

theorem keeps_doOvervoltage {P : Nat} {s u : State} {a1 a2} (hP : Fits 0x1400000000000000000000000000000000000000000000000000000000000000000000003000000 P) (h : Keeps P s u) :
    Keeps P s (State.doOvervoltage u a1 a2) := by
  unfold State.doOvervoltage
  repeat' (first
    | with_reducible exact h
    | with_reducible assumption
    | dsimp -zeta only
    | with_reducible refine keeps_feelVoltage (hP.sub rfl) ?_
    | with_reducible refine keeps_countFix (hP.sub rfl) ?_
    | with_reducible refine keeps_fput hP rfl ?_
    | with_reducible refine keeps_bump hP rfl ?_
    | intro _
    | with_reducible refine keeps_ite ?_ ?_
    | with_reducible refine keeps_ite_fst ?_ ?_
    | with_reducible refine keeps_pair (by assumption) ?_
    | split
    | fail_if_no_progress extract_lets
    | dsimp +zetaDelta only)

theorem keeps_endSettled {P : Nat} {s u : State} (hP : Fits 0x2000e02000000000000000000000000002000000000000000000000000000000000000000000000000 P) (h : Keeps P s u) :
    Keeps P s (State.endSettled u) := by
  unfold State.endSettled
  repeat' (first
    | with_reducible exact h
    | with_reducible assumption
    | dsimp -zeta only
    | with_reducible refine keeps_endWaits (hP.sub rfl) ?_
    | with_reducible refine keeps_foldl ?_ ?_
    | with_reducible refine keeps_foldl_fst ?_ ?_
    | intro _
    | with_reducible refine keeps_ite ?_ ?_
    | with_reducible refine keeps_ite_fst ?_ ?_
    | with_reducible refine keeps_pair (by assumption) ?_
    | split
    | fail_if_no_progress extract_lets
    | dsimp +zetaDelta only)

theorem keeps_doLevelSettled {P : Nat} {s u : State} {a1} (hP : Fits 0x2001e02000000000000000000000000002000000000000000000000000000000000000000001000000 P) (h : Keeps P s u) :
    Keeps P s (State.doLevelSettled u a1) := by
  unfold State.doLevelSettled
  repeat' (first
    | with_reducible exact h
    | with_reducible assumption
    | dsimp -zeta only
    | with_reducible refine keeps_endSettled (hP.sub rfl) ?_
    | with_reducible refine keeps_setPin (hP.sub rfl) ?_
    | with_reducible refine keeps_fput hP rfl ?_
    | intro _
    | with_reducible refine keeps_ite ?_ ?_
    | with_reducible refine keeps_ite_fst ?_ ?_
    | with_reducible refine keeps_pair (by assumption) ?_
    | split
    | fail_if_no_progress extract_lets
    | dsimp +zetaDelta only)

theorem keeps_doPmuClamp {P : Nat} {s u : State} {a1} (hP : Fits 0x1000000 P) (h : Keeps P s u) :
    Keeps P s (State.doPmuClamp u a1) := by
  unfold State.doPmuClamp
  repeat' (first
    | with_reducible exact h
    | with_reducible assumption
    | dsimp -zeta only
    | with_reducible refine keeps_fput hP rfl ?_
    | intro _
    | with_reducible refine keeps_ite ?_ ?_
    | with_reducible refine keeps_ite_fst ?_ ?_
    | with_reducible refine keeps_pair (by assumption) ?_
    | split
    | fail_if_no_progress extract_lets
    | dsimp +zetaDelta only)

theorem keeps_bodyAlmanacTemplate {P : Nat} {s u : State} {k} (hP : Fits 0x2000000000000000000000000000000000000000000000000000000000000000000000000000000 P) (h : Keeps P s u) :
    Keeps P s (bodyAlmanacTemplate k u).1 := by
  unfold bodyAlmanacTemplate
  beta_reduce
  repeat' (first
    | with_reducible exact h
    | with_reducible assumption
    | dsimp -zeta only
    | with_reducible refine keeps_setAlm (hP.sub rfl) ?_
    | with_reducible refine keeps_fail (hP.sub rfl) ?_
    | with_reducible refine keeps_fail_eq (by assumption) (hP.sub rfl) ?_
    | with_reducible refine keeps_foldl ?_ ?_
    | with_reducible refine keeps_foldl_fst ?_ ?_
    | intro _
    | with_reducible refine keeps_ite ?_ ?_
    | with_reducible refine keeps_ite_fst ?_ ?_
    | with_reducible refine keeps_pair (by assumption) ?_
    | split
    | fail_if_no_progress extract_lets
    | dsimp +zetaDelta only)

theorem keeps_bodyAlmanacTemplate_eq {P : Nat} {s u v : State} {k} {x} (he : bodyAlmanacTemplate k u = (v, x)) (hP : Fits 0x2000000000000000000000000000000000000000000000000000000000000000000000000000000 P)
    (h : Keeps P s u) : Keeps P s v := by
  have h1 := keeps_bodyAlmanacTemplate (k := k) hP h
  rw [he] at h1
  exact h1

theorem keeps_bodyAlmanacLoad {P : Nat} {s u : State} {k} (hP : Fits 0x81e259b000000000300000000012068000000a1002140a100000000000000000000000000000000000 P) (h : Keeps P s u) :
    Keeps P s (bodyAlmanacLoad k u).1 := by
  unfold bodyAlmanacLoad
  beta_reduce
  repeat' (first
    | with_reducible exact h
    | with_reducible assumption
    | dsimp -zeta only
    | with_reducible refine keeps_payload (hP.sub rfl) ?_
    | with_reducible refine keeps_payload_eq (by assumption) (hP.sub rfl) ?_
    | with_reducible refine keeps_setAlm (hP.sub rfl) ?_
    | with_reducible refine keeps_fail (hP.sub rfl) ?_
    | with_reducible refine keeps_fail_eq (by assumption) (hP.sub rfl) ?_
    | with_reducible refine keeps_foldl ?_ ?_
    | with_reducible refine keeps_foldl_fst ?_ ?_
    | intro _
    | with_reducible refine keeps_ite ?_ ?_
    | with_reducible refine keeps_ite_fst ?_ ?_
    | with_reducible refine keeps_pair (by assumption) ?_
    | split
    | fail_if_no_progress extract_lets
    | dsimp +zetaDelta only)

theorem keeps_bodyAlmanacLoad_eq {P : Nat} {s u v : State} {k} {x} (he : bodyAlmanacLoad k u = (v, x)) (hP : Fits 0x81e259b000000000300000000012068000000a1002140a100000000000000000000000000000000000 P)
    (h : Keeps P s u) : Keeps P s v := by
  have h1 := keeps_bodyAlmanacLoad (k := k) hP h
  rw [he] at h1
  exact h1

theorem keeps_almFailures {P : Nat} {s u : State} {a1 a2} (hP : Fits 0x8000402000000000300000000000000000000000000000000000000000000000000000000070000000 P) (h : Keeps P s u) :
    Keeps P s (State.almFailures u a1 a2).1 := by
  induction a2 generalizing u a1 with
  | nil =>
    unfold State.almFailures
    repeat' (first
      | with_reducible exact h
      | with_reducible assumption
      | dsimp -zeta only
      | with_reducible refine keeps_readAlm (hP.sub rfl) ?_
      | with_reducible refine keeps_readAlm_eq (by assumption) (hP.sub rfl) ?_
      | intro _
      | with_reducible refine keeps_ite ?_ ?_
      | with_reducible refine keeps_ite_fst ?_ ?_
      | with_reducible refine keeps_pair (by assumption) ?_
      | split
      | fail_if_no_progress extract_lets
      | dsimp +zetaDelta only)
  | cons x r ih =>
    unfold State.almFailures
    repeat' (first
      | with_reducible exact h
      | with_reducible assumption
      | dsimp -zeta only
      | with_reducible apply ih
      | with_reducible refine keeps_pair (w := State.almFailures _ _ _) (by assumption) ?_
      | with_reducible refine keeps_readAlm (hP.sub rfl) ?_
      | with_reducible refine keeps_readAlm_eq (by assumption) (hP.sub rfl) ?_
      | intro _
      | with_reducible refine keeps_ite ?_ ?_
      | with_reducible refine keeps_ite_fst ?_ ?_
      | with_reducible refine keeps_pair (by assumption) ?_
      | split
      | fail_if_no_progress extract_lets
      | dsimp +zetaDelta only)

theorem keeps_almFailures_eq {P : Nat} {s u v : State} {a1 a2} {x} (he : State.almFailures u a1 a2 = (v, x)) (hP : Fits 0x8000402000000000300000000000000000000000000000000000000000000000000000000070000000 P)
    (h : Keeps P s u) : Keeps P s v := by
  have h1 := keeps_almFailures (a1 := a1) (a2 := a2) hP h
  rw [he] at h1
  exact h1

theorem keeps_bodyAlmanacCheck {P : Nat} {s u : State} {k} (hP : Fits 0x8000402000000000300000000000000000000000000000000000000000000000000000000070000000 P) (h : Keeps P s u) :
    Keeps P s (bodyAlmanacCheck k u).1 := by
  unfold bodyAlmanacCheck
  beta_reduce
  repeat' (first
    | with_reducible exact h
    | with_reducible assumption
    | dsimp -zeta only
    | with_reducible refine keeps_almFailures (hP.sub rfl) ?_
    | with_reducible refine keeps_almFailures_eq (by assumption) (hP.sub rfl) ?_
    | with_reducible refine keeps_okResult (hP.sub rfl) ?_
    | with_reducible refine keeps_okResult_eq (by assumption) (hP.sub rfl) ?_
    | with_reducible refine keeps_fail (hP.sub rfl) ?_
    | with_reducible refine keeps_fail_eq (by assumption) (hP.sub rfl) ?_
    | intro _
    | with_reducible refine keeps_ite ?_ ?_
    | with_reducible refine keeps_ite_fst ?_ ?_
    | with_reducible refine keeps_pair (by assumption) ?_
    | split
    | fail_if_no_progress extract_lets
    | dsimp +zetaDelta only)

theorem keeps_bodyAlmanacCheck_eq {P : Nat} {s u v : State} {k} {x} (he : bodyAlmanacCheck k u = (v, x)) (hP : Fits 0x8000402000000000300000000000000000000000000000000000000000000000000000000070000000 P)
    (h : Keeps P s u) : Keeps P s v := by
  have h1 := keeps_bodyAlmanacCheck (k := k) hP h
  rw [he] at h1
  exact h1

theorem keeps_bodyAlmanacDeskew {P : Nat} {s u : State} {k} (hP : Fits 0x80000000 P) (h : Keeps P s u) :
    Keeps P s (bodyAlmanacDeskew k u).1 := by
  unfold bodyAlmanacDeskew
  beta_reduce
  repeat' (first
    | with_reducible exact h
    | with_reducible assumption
    | dsimp -zeta only
    | with_reducible refine keeps_fail (hP.sub rfl) ?_
    | with_reducible refine keeps_fail_eq (by assumption) (hP.sub rfl) ?_
    | with_reducible refine keeps_ok (hP.sub rfl) ?_
    | with_reducible refine keeps_ok_eq (by assumption) (hP.sub rfl) ?_
    | with_reducible refine keeps_fput hP rfl ?_
    | intro _
    | with_reducible refine keeps_ite ?_ ?_
    | with_reducible refine keeps_ite_fst ?_ ?_
    | with_reducible refine keeps_pair (by assumption) ?_
    | split
    | fail_if_no_progress extract_lets
    | dsimp +zetaDelta only)

theorem keeps_bodyAlmanacDeskew_eq {P : Nat} {s u v : State} {k} {x} (he : bodyAlmanacDeskew k u = (v, x)) (hP : Fits 0x80000000 P)
    (h : Keeps P s u) : Keeps P s v := by
  have h1 := keeps_bodyAlmanacDeskew (k := k) hP h
  rw [he] at h1
  exact h1

theorem keeps_execOvervoltage {P : Nat} {u t : State} {a0 a1} (he : execOvervoltage a0 a1 u = .next t) (hP : Fits 0x1400000000000000000000000000000000000000000000000000000000000000000000003000000 P) : Keeps P u t := by
  unfold execOvervoltage at he
  split at he
  · cases he
  · injection he with he
    subst he
    exact keeps_doOvervoltage (hP.sub rfl) (Keeps.refl P u)

theorem keeps_execLevelSettled {P : Nat} {u t : State} {a0} (he : execLevelSettled a0 u = .next t) (hP : Fits 0x2001e02000000000000000000000000002000000000000000000000000000000000000000001000000 P) : Keeps P u t := by
  unfold execLevelSettled at he
  injection he with he
  subst he
  repeat' (first
    | with_reducible exact Keeps.refl P u
    | with_reducible assumption
    | dsimp -zeta only
    | with_reducible refine keeps_doLevelSettled (hP.sub rfl) ?_
    | intro _
    | with_reducible refine keeps_ite ?_ ?_
    | with_reducible refine keeps_ite_fst ?_ ?_
    | with_reducible refine keeps_pair (by assumption) ?_
    | split
    | fail_if_no_progress extract_lets
    | dsimp +zetaDelta only)

theorem keeps_execPinLevels {P : Nat} {u t : State} {a0} (he : execPinLevels a0 u = .next t) (hP : Fits 0x2000e02000000000000000000000000003f000000000000000000000000000000000000000011c0000 P) : Keeps P u t := by
  unfold execPinLevels at he
  injection he with he
  subst he
  repeat' (first
    | with_reducible exact Keeps.refl P u
    | with_reducible assumption
    | dsimp -zeta only
    | with_reducible refine keeps_runCommand (hP.sub rfl) ?_ ?_
    | with_reducible refine keeps_bodyPinLevels (hP.sub rfl) ?_
    | with_reducible refine keeps_bodyPinLevels_eq (by assumption) (hP.sub rfl) ?_
    | intro _
    | with_reducible refine keeps_ite ?_ ?_
    | with_reducible refine keeps_ite_fst ?_ ?_
    | with_reducible refine keeps_pair (by assumption) ?_
    | split
    | fail_if_no_progress extract_lets
    | dsimp +zetaDelta only)

theorem keeps_execPinConfig {P : Nat} {u t : State} {a0} (he : execPinConfig a0 u = .next t) (hP : Fits 0x2001e02000000000000000000000000003f00000000000000000000000000000000000000000020000 P) : Keeps P u t := by
  unfold execPinConfig at he
  injection he with he
  subst he
  repeat' (first
    | with_reducible exact Keeps.refl P u
    | with_reducible assumption
    | dsimp -zeta only
    | with_reducible refine keeps_runCommand (hP.sub rfl) ?_ ?_
    | with_reducible refine keeps_bodyPinConfig (hP.sub rfl) ?_
    | with_reducible refine keeps_bodyPinConfig_eq (by assumption) (hP.sub rfl) ?_
    | intro _
    | with_reducible refine keeps_ite ?_ ?_
    | with_reducible refine keeps_ite_fst ?_ ?_
    | with_reducible refine keeps_pair (by assumption) ?_
    | split
    | fail_if_no_progress extract_lets
    | dsimp +zetaDelta only)

theorem keeps_execPinPmu {P : Nat} {u t : State} {a0} (he : execPinPmu a0 u = .next t) (hP : Fits 0x2801e02000000000000000000000000003f00000000000000000000000000000000000000001e00000 P) : Keeps P u t := by
  unfold execPinPmu at he
  injection he with he
  subst he
  repeat' (first
    | with_reducible exact Keeps.refl P u
    | with_reducible assumption
    | dsimp -zeta only
    | with_reducible refine keeps_runCommand (hP.sub rfl) ?_ ?_
    | with_reducible refine keeps_bodyPinPmu (hP.sub rfl) ?_
    | with_reducible refine keeps_bodyPinPmu_eq (by assumption) (hP.sub rfl) ?_
    | intro _
    | with_reducible refine keeps_ite ?_ ?_
    | with_reducible refine keeps_ite_fst ?_ ?_
    | with_reducible refine keeps_pair (by assumption) ?_
    | split
    | fail_if_no_progress extract_lets
    | dsimp +zetaDelta only)

theorem keeps_execPinSite {P : Nat} {u t : State} {a0} (he : execPinSite a0 u = .next t) (hP : Fits 0x2000e02000000000000000000000000003f00000000000000000000000000000100000000000000000 P) : Keeps P u t := by
  unfold execPinSite at he
  injection he with he
  subst he
  repeat' (first
    | with_reducible exact Keeps.refl P u
    | with_reducible assumption
    | dsimp -zeta only
    | with_reducible refine keeps_runCommand (hP.sub rfl) ?_ ?_
    | with_reducible refine keeps_bodyPinSite (hP.sub rfl) ?_
    | with_reducible refine keeps_bodyPinSite_eq (by assumption) (hP.sub rfl) ?_
    | intro _
    | with_reducible refine keeps_ite ?_ ?_
    | with_reducible refine keeps_ite_fst ?_ ?_
    | with_reducible refine keeps_pair (by assumption) ?_
    | split
    | fail_if_no_progress extract_lets
    | dsimp +zetaDelta only)

theorem keeps_execPinClear {P : Nat} {u t : State} {a0} (he : execPinClear a0 u = .next t) (hP : Fits 0x2000e02000000000000000000000000003f00000000000000000000000000000000000000001000000 P) : Keeps P u t := by
  unfold execPinClear at he
  injection he with he
  subst he
  repeat' (first
    | with_reducible exact Keeps.refl P u
    | with_reducible assumption
    | dsimp -zeta only
    | with_reducible refine keeps_runCommand (hP.sub rfl) ?_ ?_
    | with_reducible refine keeps_bodyPinClear (hP.sub rfl) ?_
    | with_reducible refine keeps_bodyPinClear_eq (by assumption) (hP.sub rfl) ?_
    | intro _
    | with_reducible refine keeps_ite ?_ ?_
    | with_reducible refine keeps_ite_fst ?_ ?_
    | with_reducible refine keeps_pair (by assumption) ?_
    | split
    | fail_if_no_progress extract_lets
    | dsimp +zetaDelta only)

theorem keeps_execAlmanacTemplate {P : Nat} {u t : State} {a0} (he : execAlmanacTemplate a0 u = .next t) (hP : Fits 0x2002e02000000000000000000000000003f00000000000000000000000000000000000000000000000 P) : Keeps P u t := by
  unfold execAlmanacTemplate at he
  injection he with he
  subst he
  repeat' (first
    | with_reducible exact Keeps.refl P u
    | with_reducible assumption
    | dsimp -zeta only
    | with_reducible refine keeps_bodyAlmanacTemplate (hP.sub rfl) ?_
    | with_reducible refine keeps_bodyAlmanacTemplate_eq (by assumption) (hP.sub rfl) ?_
    | with_reducible refine keeps_runCommand (hP.sub rfl) ?_ ?_
    | intro _
    | with_reducible refine keeps_ite ?_ ?_
    | with_reducible refine keeps_ite_fst ?_ ?_
    | with_reducible refine keeps_pair (by assumption) ?_
    | split
    | fail_if_no_progress extract_lets
    | dsimp +zetaDelta only)

theorem keeps_execAlmanacLoad {P : Nat} {u t : State} {a0} (he : execAlmanacLoad a0 u = .next t) (hP : Fits 0xa1e2f9b000000000300000000012068003f00a1002140a100000000000000000000000000000000000 P) : Keeps P u t := by
  unfold execAlmanacLoad at he
  injection he with he
  subst he
  repeat' (first
    | with_reducible exact Keeps.refl P u
    | with_reducible assumption
    | dsimp -zeta only
    | with_reducible refine keeps_runCommand (hP.sub rfl) ?_ ?_
    | with_reducible refine keeps_bodyAlmanacLoad (hP.sub rfl) ?_
    | with_reducible refine keeps_bodyAlmanacLoad_eq (by assumption) (hP.sub rfl) ?_
    | intro _
    | with_reducible refine keeps_ite ?_ ?_
    | with_reducible refine keeps_ite_fst ?_ ?_
    | with_reducible refine keeps_pair (by assumption) ?_
    | split
    | fail_if_no_progress extract_lets
    | dsimp +zetaDelta only)

theorem keeps_execAlmanacCheck {P : Nat} {u t : State} {a0} (he : execAlmanacCheck a0 u = .next t) (hP : Fits 0xa000e02000000000300000000000000003f00000000000000000000000000000000000000070000000 P) : Keeps P u t := by
  unfold execAlmanacCheck at he
  injection he with he
  subst he
  repeat' (first
    | with_reducible exact Keeps.refl P u
    | with_reducible assumption
    | dsimp -zeta only
    | with_reducible refine keeps_bodyAlmanacCheck (hP.sub rfl) ?_
    | with_reducible refine keeps_bodyAlmanacCheck_eq (by assumption) (hP.sub rfl) ?_
    | with_reducible refine keeps_runCommand (hP.sub rfl) ?_ ?_
    | intro _
    | with_reducible refine keeps_ite ?_ ?_
    | with_reducible refine keeps_ite_fst ?_ ?_
    | with_reducible refine keeps_pair (by assumption) ?_
    | split
    | fail_if_no_progress extract_lets
    | dsimp +zetaDelta only)

theorem keeps_execAlmanacDeskew {P : Nat} {u t : State} {a0} (he : execAlmanacDeskew a0 u = .next t) (hP : Fits 0x2000e02000000000000000000000000003f00000000000000000000000000000000000000080000000 P) : Keeps P u t := by
  unfold execAlmanacDeskew at he
  injection he with he
  subst he
  repeat' (first
    | with_reducible exact Keeps.refl P u
    | with_reducible assumption
    | dsimp -zeta only
    | with_reducible refine keeps_bodyAlmanacDeskew (hP.sub rfl) ?_
    | with_reducible refine keeps_bodyAlmanacDeskew_eq (by assumption) (hP.sub rfl) ?_
    | with_reducible refine keeps_runCommand (hP.sub rfl) ?_ ?_
    | intro _
    | with_reducible refine keeps_ite ?_ ?_
    | with_reducible refine keeps_ite_fst ?_ ?_
    | with_reducible refine keeps_pair (by assumption) ?_
    | split
    | fail_if_no_progress extract_lets
    | dsimp +zetaDelta only)

theorem keeps_execPmuClamp {P : Nat} {u t : State} {a0} (he : execPmuClamp a0 u = .next t) (hP : Fits 0x1000000 P) : Keeps P u t := by
  unfold execPmuClamp at he
  injection he with he
  subst he
  repeat' (first
    | with_reducible exact Keeps.refl P u
    | with_reducible assumption
    | dsimp -zeta only
    | with_reducible refine keeps_doPmuClamp (hP.sub rfl) ?_
    | intro _
    | with_reducible refine keeps_ite ?_ ?_
    | with_reducible refine keeps_ite_fst ?_ ?_
    | with_reducible refine keeps_pair (by assumption) ?_
    | split
    | fail_if_no_progress extract_lets
    | dsimp +zetaDelta only)

end Sys2Proof.Machine
end

