-- ==== Sys2Proof/Laws/KeepsMeridians.lean ====
section
/-! SUPPORT. What each operation of Machine/Meridians.lean may change, and that it keeps the invariant: one law for each. -/

set_option linter.unreachableTactic false
set_option linter.unusedTactic false

namespace Sys2Proof.Machine

theorem keeps_takeCfg {P : Nat} {s u : State} {a1 a2} (hP : Fits 0x20000000000000000000000000000000000000000000000000000000000000000000000000008 P) (h : Keeps P s u) :
    Keeps P s (State.takeCfg u a1 a2) := by
  unfold State.takeCfg
  repeat' (first
    | with_reducible exact h
    | with_reducible assumption
    | dsimp -zeta only
    | with_reducible refine keeps_setMer (hP.sub rfl) ?_
    | with_reducible refine keeps_fput hP rfl ?_
    | intro _
    | with_reducible refine keeps_ite ?_ ?_
    | with_reducible refine keeps_ite_fst ?_ ?_
    | with_reducible refine keeps_pair (by assumption) ?_
    | split
    | fail_if_no_progress extract_lets
    | dsimp +zetaDelta only)

theorem keeps_merStart {P : Nat} {s u : State} {a1} (hP : Fits 0x20000000000000000000000000000000000000000000000000000000000000000000000000001 P) (h : Keeps P s u) :
    Keeps P s (State.merStart u a1) := by
  unfold State.merStart
  repeat' (first
    | with_reducible exact h
    | with_reducible assumption
    | dsimp -zeta only
    | with_reducible refine keeps_setMer (hP.sub rfl) ?_
    | with_reducible refine keeps_fput hP rfl ?_
    | intro _
    | with_reducible refine keeps_ite ?_ ?_
    | with_reducible refine keeps_ite_fst ?_ ?_
    | with_reducible refine keeps_pair (by assumption) ?_
    | split
    | fail_if_no_progress extract_lets
    | dsimp +zetaDelta only)

theorem keeps_merStop {P : Nat} {s u : State} {a1} (hP : Fits 0x2401fea000000000000000000012068002000000000000000000000100000000000000000900000001 P) (h : Keeps P s u) :
    Keeps P s (State.merStop u a1) := by
  unfold State.merStop
  repeat' (first
    | with_reducible exact h
    | with_reducible assumption
    | dsimp -zeta only
    | with_reducible refine keeps_ddsMerOff (hP.sub rfl) ?_
    | with_reducible refine keeps_msDropAll (hP.sub rfl) ?_
    | with_reducible refine keeps_setMer (hP.sub rfl) ?_
    | with_reducible refine keeps_fput hP rfl ?_
    | intro _
    | with_reducible refine keeps_ite ?_ ?_
    | with_reducible refine keeps_ite_fst ?_ ?_
    | with_reducible refine keeps_pair (by assumption) ?_
    | split
    | fail_if_no_progress extract_lets
    | dsimp +zetaDelta only)

theorem keeps_merWr {P : Nat} {s u : State} {r : MerReg} {m i : Nat} {v : Word} (hP : Fits 0x2401fea00000000000000400001206800200000000000000000000010000000000000000090000008f P) (h : Keeps P s u) :
    Keeps P s (u.wr (merRegId r) m i v) := by
  cases r <;> exact keeps_wr hP rfl h

theorem keeps_doMerCtlWrite {P : Nat} {s u : State} {a1 a2 a3} (hP : Fits 0x2401fea00000000000000400001206800200000000000000000000010000000000000000090000008f P) (h : Keeps P s u) :
    Keeps P s (State.doMerCtlWrite u a1 a2 a3) := by
  unfold State.doMerCtlWrite
  repeat' (first
    | with_reducible exact h
    | with_reducible assumption
    | dsimp -zeta only
    | with_reducible refine keeps_rtWriteDrop (hP.sub rfl) ?_
    | with_reducible refine keeps_merStart (hP.sub rfl) ?_
    | with_reducible refine keeps_takeCfg (hP.sub rfl) ?_
    | with_reducible refine keeps_merStop (hP.sub rfl) ?_
    | with_reducible refine keeps_wr hP rfl ?_
    | with_reducible refine keeps_fput hP rfl ?_
    | with_reducible refine keeps_merWr (hP.sub rfl) ?_
    | intro _
    | with_reducible refine keeps_ite ?_ ?_
    | with_reducible refine keeps_ite_fst ?_ ?_
    | with_reducible refine keeps_pair (by assumption) ?_
    | split
    | fail_if_no_progress extract_lets
    | dsimp +zetaDelta only)

theorem keeps_doMerSnap {P : Nat} {s u : State} {a1} (hP : Fits 0x3060 P) (h : Keeps P s u) :
    Keeps P s (State.doMerSnap u a1) := by
  unfold State.doMerSnap
  repeat' (first
    | with_reducible exact h
    | with_reducible assumption
    | dsimp -zeta only
    | with_reducible refine keeps_fput hP rfl ?_
    | with_reducible refine keeps_foldl ?_ ?_
    | with_reducible refine keeps_foldl_fst ?_ ?_
    | intro _
    | with_reducible refine keeps_ite ?_ ?_
    | with_reducible refine keeps_ite_fst ?_ ?_
    | with_reducible refine keeps_pair (by assumption) ?_
    | split
    | fail_if_no_progress extract_lets
    | dsimp +zetaDelta only)

theorem keeps_doMeridianLock {P : Nat} {s u : State} {a1 a2} (hP : Fits 0x1020000000000000000000000000000000000000000000000000000000000000000000900000000 P) (h : Keeps P s u) :
    Keeps P s (State.doMeridianLock u a1 a2) := by
  unfold State.doMeridianLock
  repeat' (first
    | with_reducible exact h
    | with_reducible assumption
    | dsimp -zeta only
    | with_reducible refine keeps_moveMer (hP.sub rfl) ?_
    | intro _
    | with_reducible refine keeps_ite ?_ ?_
    | with_reducible refine keeps_ite_fst ?_ ?_
    | with_reducible refine keeps_pair (by assumption) ?_
    | split
    | fail_if_no_progress extract_lets
    | dsimp +zetaDelta only)

theorem keeps_doBearingLost {P : Nat} {s u : State} {a1} (hP : Fits 0xa7f9ffb000000000300000001012068002000a1002140a1000000000000800006cff01c1d801004480 P) (h : Keeps P s u) :
    Keeps P s (State.doBearingLost u a1) := by
  unfold State.doBearingLost
  repeat' (first
    | with_reducible exact h
    | with_reducible assumption
    | dsimp -zeta only
    | with_reducible refine keeps_killStartsOnMer (hP.sub rfl) ?_
    | with_reducible refine keeps_killOnMer (hP.sub rfl) ?_
    | with_reducible refine keeps_countFix (hP.sub rfl) ?_
    | with_reducible refine keeps_sxtLost (hP.sub rfl) ?_
    | with_reducible refine keeps_setMer (hP.sub rfl) ?_
    | with_reducible refine keeps_fput hP rfl ?_
    | with_reducible refine keeps_bump hP rfl ?_
    | with_reducible refine keeps_foldl ?_ ?_
    | with_reducible refine keeps_foldl_fst ?_ ?_
    | intro _
    | with_reducible refine keeps_ite ?_ ?_
    | with_reducible refine keeps_ite_fst ?_ ?_
    | with_reducible refine keeps_pair (by assumption) ?_
    | split
    | fail_if_no_progress extract_lets
    | dsimp +zetaDelta only)

theorem keeps_doEdgesReturn {P : Nat} {s u : State} {a1 a2} (hP : Fits 0x1020000000000000000000000000000000000000000000000000000000000000000000900000000 P) (h : Keeps P s u) :
    Keeps P s (State.doEdgesReturn u a1 a2) := by
  unfold State.doEdgesReturn
  repeat' (first
    | with_reducible exact h
    | with_reducible assumption
    | dsimp -zeta only
    | with_reducible refine keeps_moveMer (hP.sub rfl) ?_
    | with_reducible refine keeps_setMer (hP.sub rfl) ?_
    | intro _
    | with_reducible refine keeps_ite ?_ ?_
    | with_reducible refine keeps_ite_fst ?_ ?_
    | with_reducible refine keeps_pair (by assumption) ?_
    | split
    | fail_if_no_progress extract_lets
    | dsimp +zetaDelta only)

theorem keeps_doFreqRangeExit {P : Nat} {s u : State} {a1 a2} (hP : Fits 0xa5f9ffb000000000300000001012068002000a1002140a1000000000000000006cff01c15901000080 P) (h : Keeps P s u) :
    Keeps P s (State.doFreqRangeExit u a1 a2) := by
  unfold State.doFreqRangeExit
  repeat' (first
    | with_reducible exact h
    | with_reducible assumption
    | dsimp -zeta only
    | with_reducible refine keeps_killOnMer (hP.sub rfl) ?_
    | with_reducible refine keeps_moveMer (hP.sub rfl) ?_
    | with_reducible refine keeps_fput hP rfl ?_
    | intro _
    | with_reducible refine keeps_ite ?_ ?_
    | with_reducible refine keeps_ite_fst ?_ ?_
    | with_reducible refine keeps_pair (by assumption) ?_
    | split
    | fail_if_no_progress extract_lets
    | dsimp +zetaDelta only)

theorem keeps_doPhaseOffsetRemoved {P : Nat} {s u : State} {a1} (hP : Fits 0x21000000000000000000000000000000000000000000000000000000000000000000000000000 P) (h : Keeps P s u) :
    Keeps P s (State.doPhaseOffsetRemoved u a1) := by
  unfold State.doPhaseOffsetRemoved
  repeat' (first
    | with_reducible exact h
    | with_reducible assumption
    | dsimp -zeta only
    | with_reducible refine keeps_advance (hP.sub rfl) ?_
    | with_reducible refine keeps_setMer (hP.sub rfl) ?_
    | intro _
    | with_reducible refine keeps_ite ?_ ?_
    | with_reducible refine keeps_ite_fst ?_ ?_
    | with_reducible refine keeps_pair (by assumption) ?_
    | split
    | fail_if_no_progress extract_lets
    | dsimp +zetaDelta only)

theorem keeps_storeCfg {P : Nat} {s u : State} {a1} (hP : Fits 0xf P) (h : Keeps P s u) :
    Keeps P s (State.storeCfg u a1) := by
  unfold State.storeCfg
  repeat' (first
    | with_reducible exact h
    | with_reducible assumption
    | dsimp -zeta only
    | with_reducible refine keeps_wr hP rfl ?_
    | with_reducible refine keeps_fput hP rfl ?_
    | intro _
    | with_reducible refine keeps_ite ?_ ?_
    | with_reducible refine keeps_ite_fst ?_ ?_
    | with_reducible refine keeps_pair (by assumption) ?_
    | split
    | fail_if_no_progress extract_lets
    | dsimp +zetaDelta only)

theorem keeps_bodyMeridianConfig {P : Nat} {s u : State} {k} (hP : Fits 0x2000000000000000000000000000000000000000000000000000000000000000000000000008f P) (h : Keeps P s u) :
    Keeps P s (bodyMeridianConfig k u).1 := by
  unfold bodyMeridianConfig
  beta_reduce
  repeat' (first
    | with_reducible exact h
    | with_reducible assumption
    | dsimp -zeta only
    | with_reducible refine keeps_storeCfg (hP.sub rfl) ?_
    | with_reducible refine keeps_takeCfg (hP.sub rfl) ?_
    | with_reducible refine keeps_fail (hP.sub rfl) ?_
    | with_reducible refine keeps_fail_eq (by assumption) (hP.sub rfl) ?_
    | with_reducible refine keeps_ok (hP.sub rfl) ?_
    | with_reducible refine keeps_ok_eq (by assumption) (hP.sub rfl) ?_
    | with_reducible refine keeps_fput hP rfl ?_
    | intro _
    | with_reducible refine keeps_ite ?_ ?_
    | with_reducible refine keeps_ite_fst ?_ ?_
    | with_reducible refine keeps_pair (by assumption) ?_
    | split
    | fail_if_no_progress extract_lets
    | dsimp +zetaDelta only)

theorem keeps_bodyMeridianConfig_eq {P : Nat} {s u v : State} {k} {x} (he : bodyMeridianConfig k u = (v, x)) (hP : Fits 0x2000000000000000000000000000000000000000000000000000000000000000000000000008f P)
    (h : Keeps P s u) : Keeps P s v := by
  have h1 := keeps_bodyMeridianConfig (k := k) hP h
  rw [he] at h1
  exact h1

theorem keeps_forgetWraps {P : Nat} {s u : State} {a1} (hP : Fits 0x20000000000000000000000000000000000000000000000000000000000000000000000000000 P) (h : Keeps P s u) :
    Keeps P s (State.forgetWraps u a1) := by
  unfold State.forgetWraps
  repeat' (first
    | with_reducible exact h
    | with_reducible assumption
    | dsimp -zeta only
    | with_reducible refine keeps_setMer (hP.sub rfl) ?_
    | intro _
    | with_reducible refine keeps_ite ?_ ?_
    | with_reducible refine keeps_ite_fst ?_ ?_
    | with_reducible refine keeps_pair (by assumption) ?_
    | split
    | fail_if_no_progress extract_lets
    | dsimp +zetaDelta only)

theorem keeps_bodyMeridianEnable {P : Nat} {s u : State} {k} (hP : Fits 0x2401fea000000000000000000012068002000000000000000000000100000000000000000900000019 P) (h : Keeps P s u) :
    Keeps P s (bodyMeridianEnable k u).1 := by
  unfold bodyMeridianEnable
  beta_reduce
  repeat' (first
    | with_reducible exact h
    | with_reducible assumption
    | dsimp -zeta only
    | with_reducible refine keeps_forgetWraps (hP.sub rfl) ?_
    | with_reducible refine keeps_merStart (hP.sub rfl) ?_
    | with_reducible refine keeps_takeCfg (hP.sub rfl) ?_
    | with_reducible refine keeps_merStop (hP.sub rfl) ?_
    | with_reducible refine keeps_fail (hP.sub rfl) ?_
    | with_reducible refine keeps_fail_eq (by assumption) (hP.sub rfl) ?_
    | with_reducible refine keeps_ok (hP.sub rfl) ?_
    | with_reducible refine keeps_ok_eq (by assumption) (hP.sub rfl) ?_
    | with_reducible refine keeps_fput hP rfl ?_
    | intro _
    | with_reducible refine keeps_ite ?_ ?_
    | with_reducible refine keeps_ite_fst ?_ ?_
    | with_reducible refine keeps_pair (by assumption) ?_
    | split
    | fail_if_no_progress extract_lets
    | dsimp +zetaDelta only)

theorem keeps_bodyMeridianEnable_eq {P : Nat} {s u v : State} {k} {x} (he : bodyMeridianEnable k u = (v, x)) (hP : Fits 0x2401fea000000000000000000012068002000000000000000000000100000000000000000900000019 P)
    (h : Keeps P s u) : Keeps P s v := by
  have h1 := keeps_bodyMeridianEnable (k := k) hP h
  rw [he] at h1
  exact h1

theorem keeps_merStep {P : Nat} {s u : State} {a1 a2} (hP : Fits 0x20000000000000000000000000000000000000000000000000000000000000000000000000000 P) (h : Keeps P s u) :
    Keeps P s (State.merStep u a1 a2) := by
  unfold State.merStep
  repeat' (first
    | with_reducible exact h
    | with_reducible assumption
    | dsimp -zeta only
    | with_reducible refine keeps_setMer (hP.sub rfl) ?_
    | intro _
    | with_reducible refine keeps_ite ?_ ?_
    | with_reducible refine keeps_ite_fst ?_ ?_
    | with_reducible refine keeps_pair (by assumption) ?_
    | split
    | fail_if_no_progress extract_lets
    | dsimp +zetaDelta only)

theorem keeps_bodyMeridianSet {P : Nat} {s u : State} {k} (hP : Fits 0x20000000000000000000000000000000000000000000000000000000000000000000000000010 P) (h : Keeps P s u) :
    Keeps P s (bodyMeridianSet k u).1 := by
  unfold bodyMeridianSet
  beta_reduce
  repeat' (first
    | with_reducible exact h
    | with_reducible assumption
    | dsimp -zeta only
    | with_reducible refine keeps_merStep (hP.sub rfl) ?_
    | with_reducible refine keeps_setMer (hP.sub rfl) ?_
    | with_reducible refine keeps_fail (hP.sub rfl) ?_
    | with_reducible refine keeps_fail_eq (by assumption) (hP.sub rfl) ?_
    | with_reducible refine keeps_ok (hP.sub rfl) ?_
    | with_reducible refine keeps_ok_eq (by assumption) (hP.sub rfl) ?_
    | with_reducible refine keeps_fput hP rfl ?_
    | intro _
    | with_reducible refine keeps_ite ?_ ?_
    | with_reducible refine keeps_ite_fst ?_ ?_
    | with_reducible refine keeps_pair (by assumption) ?_
    | split
    | fail_if_no_progress extract_lets
    | dsimp +zetaDelta only)

theorem keeps_bodyMeridianSet_eq {P : Nat} {s u v : State} {k} {x} (he : bodyMeridianSet k u = (v, x)) (hP : Fits 0x20000000000000000000000000000000000000000000000000000000000000000000000000010 P)
    (h : Keeps P s u) : Keeps P s v := by
  have h1 := keeps_bodyMeridianSet (k := k) hP h
  rw [he] at h1
  exact h1

theorem keeps_merSlew {P : Nat} {s u : State} {a1 a2 a3} (hP : Fits 0x1020000000000000000000000000000000000000000000000000000000000000000000900000000 P) (h : Keeps P s u) :
    Keeps P s (State.merSlew u a1 a2 a3) := by
  unfold State.merSlew
  repeat' (first
    | with_reducible exact h
    | with_reducible assumption
    | dsimp -zeta only
    | with_reducible refine keeps_moveMer (hP.sub rfl) ?_
    | intro _
    | with_reducible refine keeps_ite ?_ ?_
    | with_reducible refine keeps_ite_fst ?_ ?_
    | with_reducible refine keeps_pair (by assumption) ?_
    | split
    | fail_if_no_progress extract_lets
    | dsimp +zetaDelta only)

theorem keeps_bodyMeridianAdjust {P : Nat} {s u : State} {k} (hP : Fits 0x1020000000000000000000000000000000000000000000000000000000000000000000900000000 P) (h : Keeps P s u) :
    Keeps P s (bodyMeridianAdjust k u).1 := by
  unfold bodyMeridianAdjust
  beta_reduce
  repeat' (first
    | with_reducible exact h
    | with_reducible assumption
    | dsimp -zeta only
    | with_reducible refine keeps_merSlew (hP.sub rfl) ?_
    | with_reducible refine keeps_fail (hP.sub rfl) ?_
    | with_reducible refine keeps_fail_eq (by assumption) (hP.sub rfl) ?_
    | intro _
    | with_reducible refine keeps_ite ?_ ?_
    | with_reducible refine keeps_ite_fst ?_ ?_
    | with_reducible refine keeps_pair (by assumption) ?_
    | split
    | fail_if_no_progress extract_lets
    | dsimp +zetaDelta only)

theorem keeps_bodyMeridianAdjust_eq {P : Nat} {s u v : State} {k} {x} (he : bodyMeridianAdjust k u = (v, x)) (hP : Fits 0x1020000000000000000000000000000000000000000000000000000000000000000000900000000 P)
    (h : Keeps P s u) : Keeps P s v := by
  have h1 := keeps_bodyMeridianAdjust (k := k) hP h
  rw [he] at h1
  exact h1

theorem keeps_firstEntry {P : Nat} {s u : State} {a1} (hP : Fits 0x81e059b000000000300000000012068000000a1002140a100000000000000000000000000000000000 P) (h : Keeps P s u) :
    Keeps P s (State.firstEntry u a1).1 := by
  unfold State.firstEntry
  repeat' (first
    | with_reducible exact h
    | with_reducible assumption
    | dsimp -zeta only
    | with_reducible refine keeps_dvaRead (hP.sub rfl) ?_
    | with_reducible refine keeps_dvaRead_eq (by assumption) (hP.sub rfl) ?_
    | intro _
    | with_reducible refine keeps_ite ?_ ?_
    | with_reducible refine keeps_ite_fst ?_ ?_
    | with_reducible refine keeps_pair (by assumption) ?_
    | split
    | fail_if_no_progress extract_lets
    | dsimp +zetaDelta only)

theorem keeps_firstEntry_eq {P : Nat} {s u v : State} {a1} {x} (he : State.firstEntry u a1 = (v, x)) (hP : Fits 0x81e059b000000000300000000012068000000a1002140a100000000000000000000000000000000000 P)
    (h : Keeps P s u) : Keeps P s v := by
  have h1 := keeps_firstEntry (a1 := a1) hP h
  rw [he] at h1
  exact h1

theorem keeps_postReach {P : Nat} {s u : State} {a1 a2} (hP : Fits 0x81e059b000000000300000000012068000000a1002140a100000000000000000000000000000000000 P) (h : Keeps P s u) :
    Keeps P s (State.postReach u a1 a2).1 := by
  unfold State.postReach
  repeat' (first
    | with_reducible exact h
    | with_reducible assumption
    | dsimp -zeta only
    | with_reducible refine keeps_firstEntry (hP.sub rfl) ?_
    | with_reducible refine keeps_firstEntry_eq (by assumption) (hP.sub rfl) ?_
    | intro _
    | with_reducible refine keeps_ite ?_ ?_
    | with_reducible refine keeps_ite_fst ?_ ?_
    | with_reducible refine keeps_pair (by assumption) ?_
    | split
    | fail_if_no_progress extract_lets
    | dsimp +zetaDelta only)

theorem keeps_postReach_eq {P : Nat} {s u v : State} {a1 a2} {x} (he : State.postReach u a1 a2 = (v, x)) (hP : Fits 0x81e059b000000000300000000012068000000a1002140a100000000000000000000000000000000000 P)
    (h : Keeps P s u) : Keeps P s v := by
  have h1 := keeps_postReach (a1 := a1) (a2 := a2) hP h
  rw [he] at h1
  exact h1

theorem keeps_postMilestone {P : Nat} {s u : State} {a1 a2 a3} (hP : Fits 0x400040000000000000000000000000000000000000000000000000000000000000000000000010000 P) (h : Keeps P s u) :
    Keeps P s (State.postMilestone u a1 a2 a3).1 := by
  unfold State.postMilestone
  repeat' (first
    | with_reducible exact h
    | with_reducible assumption
    | dsimp -zeta only
    | with_reducible refine keeps_msCommit (hP.sub rfl) ?_
    | with_reducible refine keeps_msCommit_eq (by assumption) (hP.sub rfl) ?_
    | with_reducible refine keeps_setDds (hP.sub rfl) ?_
    | with_reducible refine keeps_fail (hP.sub rfl) ?_
    | with_reducible refine keeps_fail_eq (by assumption) (hP.sub rfl) ?_
    | with_reducible refine keeps_id ?_
    | intro _
    | with_reducible refine keeps_ite ?_ ?_
    | with_reducible refine keeps_ite_fst ?_ ?_
    | with_reducible refine keeps_pair (by assumption) ?_
    | split
    | fail_if_no_progress extract_lets
    | dsimp +zetaDelta only)

theorem keeps_postMilestone_eq {P : Nat} {s u v : State} {a1 a2 a3} {x} (he : State.postMilestone u a1 a2 a3 = (v, x)) (hP : Fits 0x400040000000000000000000000000000000000000000000000000000000000000000000000010000 P)
    (h : Keeps P s u) : Keeps P s v := by
  have h1 := keeps_postMilestone (a1 := a1) (a2 := a2) (a3 := a3) hP h
  rw [he] at h1
  exact h1

theorem keeps_bodyMilestonePost {P : Nat} {s u : State} {k} (hP : Fits 0x85e05db000000000300000000012068000000a1002140a100000000000000000000000000000010000 P) (h : Keeps P s u) :
    Keeps P s (bodyMilestonePost k u).1 := by
  unfold bodyMilestonePost
  beta_reduce
  repeat' (first
    | with_reducible exact h
    | with_reducible assumption
    | dsimp -zeta only
    | with_reducible refine keeps_postMilestone (hP.sub rfl) ?_
    | with_reducible refine keeps_postMilestone_eq (by assumption) (hP.sub rfl) ?_
    | with_reducible refine keeps_postReach (hP.sub rfl) ?_
    | with_reducible refine keeps_postReach_eq (by assumption) (hP.sub rfl) ?_
    | with_reducible refine keeps_fail (hP.sub rfl) ?_
    | with_reducible refine keeps_fail_eq (by assumption) (hP.sub rfl) ?_
    | intro _
    | with_reducible refine keeps_ite ?_ ?_
    | with_reducible refine keeps_ite_fst ?_ ?_
    | with_reducible refine keeps_pair (by assumption) ?_
    | split
    | fail_if_no_progress extract_lets
    | dsimp +zetaDelta only)

theorem keeps_bodyMilestonePost_eq {P : Nat} {s u v : State} {k} {x} (he : bodyMilestonePost k u = (v, x)) (hP : Fits 0x85e05db000000000300000000012068000000a1002140a100000000000000000000000000000010000 P)
    (h : Keeps P s u) : Keeps P s v := by
  have h1 := keeps_bodyMilestonePost (k := k) hP h
  rw [he] at h1
  exact h1

theorem keeps_bodyMilestoneCancel {P : Nat} {s u : State} {k} (hP : Fits 0x2400e42000000000000000000000000002000000000000000000000000000000000000000000000000 P) (h : Keeps P s u) :
    Keeps P s (bodyMilestoneCancel k u).1 := by
  unfold bodyMilestoneCancel
  beta_reduce
  repeat' (first
    | with_reducible exact h
    | with_reducible assumption
    | dsimp -zeta only
    | with_reducible refine keeps_msRemove (hP.sub rfl) ?_
    | with_reducible refine keeps_endWaits (hP.sub rfl) ?_
    | with_reducible refine keeps_ddsUnarm (hP.sub rfl) ?_
    | with_reducible refine keeps_fail (hP.sub rfl) ?_
    | with_reducible refine keeps_fail_eq (by assumption) (hP.sub rfl) ?_
    | with_reducible refine keeps_ok (hP.sub rfl) ?_
    | with_reducible refine keeps_ok_eq (by assumption) (hP.sub rfl) ?_
    | with_reducible refine keeps_id ?_
    | intro _
    | with_reducible refine keeps_ite ?_ ?_
    | with_reducible refine keeps_ite_fst ?_ ?_
    | with_reducible refine keeps_pair (by assumption) ?_
    | split
    | fail_if_no_progress extract_lets
    | dsimp +zetaDelta only)

theorem keeps_bodyMilestoneCancel_eq {P : Nat} {s u v : State} {k} {x} (he : bodyMilestoneCancel k u = (v, x)) (hP : Fits 0x2400e42000000000000000000000000002000000000000000000000000000000000000000000000000 P)
    (h : Keeps P s u) : Keeps P s v := by
  have h1 := keeps_bodyMilestoneCancel (k := k) hP h
  rw [he] at h1
  exact h1

theorem keeps_doMsMsyncOut {P : Nat} {s u : State} {a1} (hP : Fits 0xa000fcb000000000000000000012068002000000000000000000000000000000000000000000000000 P) (h : Keeps P s u) :
    Keeps P s (State.doMsMsyncOut u a1) := by
  unfold State.doMsMsyncOut
  repeat' (first
    | with_reducible exact h
    | with_reducible assumption
    | dsimp -zeta only
    | with_reducible refine keeps_msDone (hP.sub rfl) ?_
    | with_reducible refine keeps_msFire_eq (by assumption) (hP.sub rfl) ?_
    | with_reducible refine keeps_id ?_
    | intro _
    | with_reducible refine keeps_ite ?_ ?_
    | with_reducible refine keeps_ite_fst ?_ ?_
    | with_reducible refine keeps_pair (by assumption) ?_
    | split
    | fail_if_no_progress extract_lets
    | fail_if_no_progress with_reducible refine keeps_bnc hP rfl ?_
    | dsimp +zetaDelta only)

theorem keeps_doMsGpio {P : Nat} {s u : State} {a1} (hP : Fits 0xa000fcb000000000000000000012068002000000000000000000000000000000000000000000000000 P) (h : Keeps P s u) :
    Keeps P s (State.doMsGpio u a1) := by
  unfold State.doMsGpio
  repeat' (first
    | with_reducible exact h
    | with_reducible assumption
    | dsimp -zeta only
    | with_reducible refine keeps_msDone (hP.sub rfl) ?_
    | with_reducible refine keeps_msFire_eq (by assumption) (hP.sub rfl) ?_
    | with_reducible refine keeps_id ?_
    | intro _
    | with_reducible refine keeps_ite ?_ ?_
    | with_reducible refine keeps_ite_fst ?_ ?_
    | with_reducible refine keeps_pair (by assumption) ?_
    | split
    | fail_if_no_progress extract_lets
    | fail_if_no_progress with_reducible refine keeps_bnc hP rfl ?_
    | dsimp +zetaDelta only)

theorem keeps_doMsDepotPost {P : Nat} {s u : State} {a1} (hP : Fits 0x2000fcb000000000000000000012068002000000000000000000000000000000000000000000000000 P) (h : Keeps P s u) :
    Keeps P s (State.doMsDepotPost u a1) := by
  unfold State.doMsDepotPost
  repeat' (first
    | with_reducible exact h
    | with_reducible assumption
    | dsimp -zeta only
    | with_reducible refine keeps_reportCtl (hP.sub rfl) ?_
    | with_reducible refine keeps_msDone (hP.sub rfl) ?_
    | with_reducible refine keeps_msFire_eq (by assumption) (hP.sub rfl) ?_
    | with_reducible refine keeps_id ?_
    | intro _
    | with_reducible refine keeps_ite ?_ ?_
    | with_reducible refine keeps_ite_fst ?_ ?_
    | with_reducible refine keeps_pair (by assumption) ?_
    | split
    | fail_if_no_progress extract_lets
    | dsimp +zetaDelta only)

theorem keeps_execMsMsyncOut {P : Nat} {u t : State} {a0} (he : execMsMsyncOut a0 u = .next t) (hP : Fits 0xa000fcb000000000000000000012068002000000000000000000000000000000000000000000000000 P) : Keeps P u t := by
  unfold execMsMsyncOut at he
  injection he with he
  subst he
  repeat' (first
    | with_reducible exact Keeps.refl P u
    | with_reducible assumption
    | dsimp -zeta only
    | with_reducible refine keeps_doMsMsyncOut (hP.sub rfl) ?_
    | with_reducible refine keeps_id ?_
    | intro _
    | with_reducible refine keeps_ite ?_ ?_
    | with_reducible refine keeps_ite_fst ?_ ?_
    | with_reducible refine keeps_pair (by assumption) ?_
    | split
    | fail_if_no_progress extract_lets
    | dsimp +zetaDelta only)

theorem keeps_execMsGpio {P : Nat} {u t : State} {a0} (he : execMsGpio a0 u = .next t) (hP : Fits 0xa000fcb000000000000000000012068002000000000000000000000000000000000000000000000000 P) : Keeps P u t := by
  unfold execMsGpio at he
  injection he with he
  subst he
  repeat' (first
    | with_reducible exact Keeps.refl P u
    | with_reducible assumption
    | dsimp -zeta only
    | with_reducible refine keeps_doMsGpio (hP.sub rfl) ?_
    | with_reducible refine keeps_id ?_
    | intro _
    | with_reducible refine keeps_ite ?_ ?_
    | with_reducible refine keeps_ite_fst ?_ ?_
    | with_reducible refine keeps_pair (by assumption) ?_
    | split
    | fail_if_no_progress extract_lets
    | dsimp +zetaDelta only)

theorem keeps_execMsDepotPost {P : Nat} {u t : State} {a0} (he : execMsDepotPost a0 u = .next t) (hP : Fits 0x2000fcb000000000000000000012068002000000000000000000000000000000000000000000000000 P) : Keeps P u t := by
  unfold execMsDepotPost at he
  injection he with he
  subst he
  repeat' (first
    | with_reducible exact Keeps.refl P u
    | with_reducible assumption
    | dsimp -zeta only
    | with_reducible refine keeps_doMsDepotPost (hP.sub rfl) ?_
    | with_reducible refine keeps_id ?_
    | intro _
    | with_reducible refine keeps_ite ?_ ?_
    | with_reducible refine keeps_ite_fst ?_ ?_
    | with_reducible refine keeps_pair (by assumption) ?_
    | split
    | fail_if_no_progress extract_lets
    | dsimp +zetaDelta only)

theorem keeps_execMeridianLock {P : Nat} {u t : State} {a0 a1} (he : execMeridianLock a0 a1 u = .next t) (hP : Fits 0x1020000000000000000000000000000000000000000000000000000000000000000000900000000 P) : Keeps P u t := by
  unfold execMeridianLock at he
  injection he with he
  subst he
  repeat' (first
    | with_reducible exact Keeps.refl P u
    | with_reducible assumption
    | dsimp -zeta only
    | with_reducible refine keeps_doMeridianLock (hP.sub rfl) ?_
    | intro _
    | with_reducible refine keeps_ite ?_ ?_
    | with_reducible refine keeps_ite_fst ?_ ?_
    | with_reducible refine keeps_pair (by assumption) ?_
    | split
    | fail_if_no_progress extract_lets
    | dsimp +zetaDelta only)

theorem keeps_execBearingLost {P : Nat} {u t : State} {a0} (he : execBearingLost a0 u = .next t) (hP : Fits 0xa7f9ffb000000000300000001012068002000a1002140a1000000000000800006cff01c1d801004480 P) : Keeps P u t := by
  unfold execBearingLost at he
  injection he with he
  subst he
  repeat' (first
    | with_reducible exact Keeps.refl P u
    | with_reducible assumption
    | dsimp -zeta only
    | with_reducible refine keeps_doBearingLost (hP.sub rfl) ?_
    | intro _
    | with_reducible refine keeps_ite ?_ ?_
    | with_reducible refine keeps_ite_fst ?_ ?_
    | with_reducible refine keeps_pair (by assumption) ?_
    | split
    | fail_if_no_progress extract_lets
    | dsimp +zetaDelta only)

theorem keeps_execFreqRangeExit {P : Nat} {u t : State} {a0 a1} (he : execFreqRangeExit a0 a1 u = .next t) (hP : Fits 0xa5f9ffb000000000300000001012068002000a1002140a1000000000000000006cff01c15901000080 P) : Keeps P u t := by
  unfold execFreqRangeExit at he
  injection he with he
  subst he
  repeat' (first
    | with_reducible exact Keeps.refl P u
    | with_reducible assumption
    | dsimp -zeta only
    | with_reducible refine keeps_doFreqRangeExit (hP.sub rfl) ?_
    | intro _
    | with_reducible refine keeps_ite ?_ ?_
    | with_reducible refine keeps_ite_fst ?_ ?_
    | with_reducible refine keeps_pair (by assumption) ?_
    | split
    | fail_if_no_progress extract_lets
    | dsimp +zetaDelta only)

theorem keeps_execMeridianConfig {P : Nat} {u t : State} {a0} (he : execMeridianConfig a0 u = .next t) (hP : Fits 0x2000e22000000000000000000000000003f0000000000000000000000000000000000000000000008f P) : Keeps P u t := by
  unfold execMeridianConfig at he
  injection he with he
  subst he
  repeat' (first
    | with_reducible exact Keeps.refl P u
    | with_reducible assumption
    | dsimp -zeta only
    | with_reducible refine keeps_bodyMeridianConfig (hP.sub rfl) ?_
    | with_reducible refine keeps_bodyMeridianConfig_eq (by assumption) (hP.sub rfl) ?_
    | with_reducible refine keeps_runCommand (hP.sub rfl) ?_ ?_
    | intro _
    | with_reducible refine keeps_ite ?_ ?_
    | with_reducible refine keeps_ite_fst ?_ ?_
    | with_reducible refine keeps_pair (by assumption) ?_
    | split
    | fail_if_no_progress extract_lets
    | dsimp +zetaDelta only)

theorem keeps_execMeridianEnable {P : Nat} {u t : State} {a0} (he : execMeridianEnable a0 u = .next t) (hP : Fits 0x2401fea000000000000000000012068003f00000000000000000000100000000000000000900000019 P) : Keeps P u t := by
  unfold execMeridianEnable at he
  injection he with he
  subst he
  repeat' (first
    | with_reducible exact Keeps.refl P u
    | with_reducible assumption
    | dsimp -zeta only
    | with_reducible refine keeps_bodyMeridianEnable (hP.sub rfl) ?_
    | with_reducible refine keeps_bodyMeridianEnable_eq (by assumption) (hP.sub rfl) ?_
    | with_reducible refine keeps_runCommand (hP.sub rfl) ?_ ?_
    | intro _
    | with_reducible refine keeps_ite ?_ ?_
    | with_reducible refine keeps_ite_fst ?_ ?_
    | with_reducible refine keeps_pair (by assumption) ?_
    | split
    | fail_if_no_progress extract_lets
    | dsimp +zetaDelta only)

theorem keeps_execMeridianSet {P : Nat} {u t : State} {a0} (he : execMeridianSet a0 u = .next t) (hP : Fits 0x2000e22000000000000000000000000003f00000000000000000000000000000000000000000000010 P) : Keeps P u t := by
  unfold execMeridianSet at he
  injection he with he
  subst he
  repeat' (first
    | with_reducible exact Keeps.refl P u
    | with_reducible assumption
    | dsimp -zeta only
    | with_reducible refine keeps_runCommand (hP.sub rfl) ?_ ?_
    | with_reducible refine keeps_bodyMeridianSet (hP.sub rfl) ?_
    | with_reducible refine keeps_bodyMeridianSet_eq (by assumption) (hP.sub rfl) ?_
    | intro _
    | with_reducible refine keeps_ite ?_ ?_
    | with_reducible refine keeps_ite_fst ?_ ?_
    | with_reducible refine keeps_pair (by assumption) ?_
    | split
    | fail_if_no_progress extract_lets
    | dsimp +zetaDelta only)

theorem keeps_execMeridianAdjust {P : Nat} {u t : State} {a0} (he : execMeridianAdjust a0 u = .next t) (hP : Fits 0x2001e22000000000000000000000000003f00000000000000000000000000000000000000900000000 P) : Keeps P u t := by
  unfold execMeridianAdjust at he
  injection he with he
  subst he
  repeat' (first
    | with_reducible exact Keeps.refl P u
    | with_reducible assumption
    | dsimp -zeta only
    | with_reducible refine keeps_bodyMeridianAdjust (hP.sub rfl) ?_
    | with_reducible refine keeps_bodyMeridianAdjust_eq (by assumption) (hP.sub rfl) ?_
    | with_reducible refine keeps_runCommand (hP.sub rfl) ?_ ?_
    | intro _
    | with_reducible refine keeps_ite ?_ ?_
    | with_reducible refine keeps_ite_fst ?_ ?_
    | with_reducible refine keeps_pair (by assumption) ?_
    | split
    | fail_if_no_progress extract_lets
    | dsimp +zetaDelta only)

theorem keeps_execMilestonePost {P : Nat} {u t : State} {a0} (he : execMilestonePost a0 u = .next t) (hP : Fits 0xa5e0fdb000000000300000000012068003f00a1002140a100000000000000000000000000000010000 P) : Keeps P u t := by
  unfold execMilestonePost at he
  injection he with he
  subst he
  repeat' (first
    | with_reducible exact Keeps.refl P u
    | with_reducible assumption
    | dsimp -zeta only
    | with_reducible refine keeps_bodyMilestonePost (hP.sub rfl) ?_
    | with_reducible refine keeps_bodyMilestonePost_eq (by assumption) (hP.sub rfl) ?_
    | with_reducible refine keeps_runCommand (hP.sub rfl) ?_ ?_
    | intro _
    | with_reducible refine keeps_ite ?_ ?_
    | with_reducible refine keeps_ite_fst ?_ ?_
    | with_reducible refine keeps_pair (by assumption) ?_
    | split
    | fail_if_no_progress extract_lets
    | dsimp +zetaDelta only)

theorem keeps_execMilestoneCancel {P : Nat} {u t : State} {a0} (he : execMilestoneCancel a0 u = .next t) (hP : Fits 0x2400e42000000000000000000000000003f00000000000000000000000000000000000000000000000 P) : Keeps P u t := by
  unfold execMilestoneCancel at he
  injection he with he
  subst he
  repeat' (first
    | with_reducible exact Keeps.refl P u
    | with_reducible assumption
    | dsimp -zeta only
    | with_reducible refine keeps_bodyMilestoneCancel (hP.sub rfl) ?_
    | with_reducible refine keeps_bodyMilestoneCancel_eq (by assumption) (hP.sub rfl) ?_
    | with_reducible refine keeps_runCommand (hP.sub rfl) ?_ ?_
    | intro _
    | with_reducible refine keeps_ite ?_ ?_
    | with_reducible refine keeps_ite_fst ?_ ?_
    | with_reducible refine keeps_pair (by assumption) ?_
    | split
    | fail_if_no_progress extract_lets
    | dsimp +zetaDelta only)

theorem keeps_execEdgesReturn {P : Nat} {u t : State} {a0} (he : execEdgesReturn a0 u = .next t) (hP : Fits 0x1020000000000000000000000000000000000000000000000000000000000000000000900000000 P) : Keeps P u t := by
  unfold execEdgesReturn at he
  injection he with he
  subst he
  repeat' (first
    | with_reducible exact Keeps.refl P u
    | with_reducible assumption
    | dsimp -zeta only
    | with_reducible refine keeps_doEdgesReturn (hP.sub rfl) ?_
    | intro _
    | with_reducible refine keeps_ite ?_ ?_
    | with_reducible refine keeps_ite_fst ?_ ?_
    | with_reducible refine keeps_pair (by assumption) ?_
    | split
    | fail_if_no_progress extract_lets
    | dsimp +zetaDelta only)

theorem keeps_execPhaseOffsetRemoved {P : Nat} {u t : State} {a0} (he : execPhaseOffsetRemoved a0 u = .next t) (hP : Fits 0x21000000000000000000000000000000000000000000000000000000000000000000000000000 P) : Keeps P u t := by
  unfold execPhaseOffsetRemoved at he
  injection he with he
  subst he
  repeat' (first
    | with_reducible exact Keeps.refl P u
    | with_reducible assumption
    | dsimp -zeta only
    | with_reducible refine keeps_doPhaseOffsetRemoved (hP.sub rfl) ?_
    | intro _
    | with_reducible refine keeps_ite ?_ ?_
    | with_reducible refine keeps_ite_fst ?_ ?_
    | with_reducible refine keeps_pair (by assumption) ?_
    | split
    | fail_if_no_progress extract_lets
    | dsimp +zetaDelta only)

end Sys2Proof.Machine
end

