-- ==== Sys2Proof/Laws/KeepsWaylinePort.lean ====
section
/-! SUPPORT. What each operation of Machine/WaylinePort.lean may change, and that it keeps the invariant: one law for each. -/

set_option linter.unreachableTactic false
set_option linter.unusedTactic false

namespace Sys2Proof.Machine

theorem keeps_haltPilot {P : Nat} {s u : State} {a1} (hP : Fits 0xa5f9fdb000000000300000001012068002000a1002140a1000000000000000006cff01c1d801000000 P) (h : Keeps P s u) :
    Keeps P s (State.haltPilot u a1) := by
  unfold State.haltPilot
  repeat' (first
    | with_reducible exact h
    | with_reducible assumption
    | dsimp -zeta only
    | with_reducible refine keeps_cancelLegStarts (hP.sub rfl) ?_
    | with_reducible refine keeps_endOutside (hP.sub rfl) ?_
    | with_reducible refine keeps_killStart (hP.sub rfl) ?_
    | with_reducible refine keeps_killLeg (hP.sub rfl) ?_
    | with_reducible refine keeps_foldl ?_ ?_
    | with_reducible refine keeps_foldl_fst ?_ ?_
    | intro _
    | with_reducible refine keeps_ite ?_ ?_
    | with_reducible refine keeps_ite_fst ?_ ?_
    | with_reducible refine keeps_pair (by assumption) ?_
    | split
    | fail_if_no_progress extract_lets
    | dsimp +zetaDelta only)

theorem keeps_haltHere {P : Nat} {s u : State} (hP : Fits 0xa5f9fdb000000000300000001012068002000a1002140a1000000000000000006cff01c1d801000000 P) (h : Keeps P s u) :
    Keeps P s (State.haltHere u) := by
  unfold State.haltHere
  repeat' (first
    | with_reducible exact h
    | with_reducible assumption
    | dsimp -zeta only
    | with_reducible refine keeps_haltPilot (hP.sub rfl) ?_
    | with_reducible refine keeps_foldl ?_ ?_
    | with_reducible refine keeps_foldl_fst ?_ ?_
    | intro _
    | with_reducible refine keeps_ite ?_ ?_
    | with_reducible refine keeps_ite_fst ?_ ?_
    | with_reducible refine keeps_pair (by assumption) ?_
    | split
    | fail_if_no_progress extract_lets
    | dsimp +zetaDelta only)

theorem keeps_seeHalt {P : Nat} {s u : State} {a1} (hP : Fits 0x2000000000000000000000000000000000000000000000000000000000000000000000000000000000 P) (h : Keeps P s u) :
    Keeps P s (State.seeHalt u a1) := by
  unfold State.seeHalt
  repeat' (first
    | with_reducible exact h
    | with_reducible assumption
    | dsimp -zeta only
    | with_reducible refine keeps_id ?_
    | intro _
    | with_reducible refine keeps_ite ?_ ?_
    | with_reducible refine keeps_ite_fst ?_ ?_
    | with_reducible refine keeps_pair (by assumption) ?_
    | split
    | fail_if_no_progress extract_lets
    | fail_if_no_progress with_reducible refine keeps_wln hP rfl ?_
    | dsimp +zetaDelta only)

theorem keeps_originateHalt {P : Nat} {s u : State} (hP : Fits 0xa5f9fdb000000000300000001012068002000a1002140a1000000000000000006cff01c1d801000000 P) (h : Keeps P s u) :
    Keeps P s (State.originateHalt u) := by
  unfold State.originateHalt
  repeat' (first
    | with_reducible exact h
    | with_reducible assumption
    | dsimp -zeta only
    | with_reducible refine keeps_sendBlock (hP.sub rfl) ?_
    | with_reducible refine keeps_haltHere (hP.sub rfl) ?_
    | with_reducible refine keeps_seeHalt (hP.sub rfl) ?_
    | with_reducible refine keeps_id ?_
    | with_reducible refine keeps_foldl ?_ ?_
    | with_reducible refine keeps_foldl_fst ?_ ?_
    | intro _
    | with_reducible refine keeps_ite ?_ ?_
    | with_reducible refine keeps_ite_fst ?_ ?_
    | with_reducible refine keeps_pair (by assumption) ?_
    | split
    | fail_if_no_progress extract_lets
    | fail_if_no_progress with_reducible refine keeps_wln hP rfl ?_
    | dsimp +zetaDelta only)

theorem keeps_haltIfDue {P : Nat} {s u : State} (hP : Fits 0xa5f9fdb000000000300000001012068002000a1002140a1000000000000000006cff01c1d801000000 P) (h : Keeps P s u) :
    Keeps P s (State.haltIfDue u) := by
  unfold State.haltIfDue
  repeat' (first
    | with_reducible exact h
    | with_reducible assumption
    | dsimp -zeta only
    | with_reducible refine keeps_originateHalt (hP.sub rfl) ?_
    | intro _
    | with_reducible refine keeps_ite ?_ ?_
    | with_reducible refine keeps_ite_fst ?_ ?_
    | with_reducible refine keeps_pair (by assumption) ?_
    | split
    | fail_if_no_progress extract_lets
    | dsimp +zetaDelta only)

theorem keeps_doHalt {P : Nat} {s u : State} {a1 a2 a3} (hP : Fits 0xa5f9fdb000000000300000001012068002000a1002140a1000000000000000006cff01c1d801000000 P) (h : Keeps P s u) :
    Keeps P s (State.doHalt u a1 a2 a3) := by
  unfold State.doHalt
  repeat' (first
    | with_reducible exact h
    | with_reducible assumption
    | dsimp -zeta only
    | with_reducible refine keeps_sendBlock (hP.sub rfl) ?_
    | with_reducible refine keeps_haltHere (hP.sub rfl) ?_
    | with_reducible refine keeps_seeHalt (hP.sub rfl) ?_
    | with_reducible refine keeps_id ?_
    | with_reducible refine keeps_foldl ?_ ?_
    | with_reducible refine keeps_foldl_fst ?_ ?_
    | intro _
    | with_reducible refine keeps_ite ?_ ?_
    | with_reducible refine keeps_ite_fst ?_ ?_
    | with_reducible refine keeps_pair (by assumption) ?_
    | split
    | fail_if_no_progress extract_lets
    | dsimp +zetaDelta only)

theorem keeps_doWlnHalt {P : Nat} {s u : State} (hP : Fits 0xa5f9fdb000000000300000001012068002000a1002140a1000000000000000006cff01c1d801000000 P) (h : Keeps P s u) :
    Keeps P s (State.doWlnHalt u) := by
  unfold State.doWlnHalt
  repeat' (first
    | with_reducible exact h
    | with_reducible assumption
    | dsimp -zeta only
    | with_reducible refine keeps_originateHalt (hP.sub rfl) ?_
    | intro _
    | with_reducible refine keeps_ite ?_ ?_
    | with_reducible refine keeps_ite_fst ?_ ?_
    | with_reducible refine keeps_pair (by assumption) ?_
    | split
    | fail_if_no_progress extract_lets
    | dsimp +zetaDelta only)

theorem keeps_bodyAbortAll {P : Nat} {s u : State} {k} (hP : Fits 0xa5f9fdb000000000300000001012068002440a1002140a1000000000000000006cff01c1d801000000 P) (h : Keeps P s u) :
    Keeps P s (bodyAbortAll k u).1 := by
  unfold bodyAbortAll
  beta_reduce
  repeat' (first
    | with_reducible exact h
    | with_reducible assumption
    | dsimp -zeta only
    | with_reducible refine keeps_originateHalt (hP.sub rfl) ?_
    | with_reducible refine keeps_abortAll (hP.sub rfl) ?_
    | with_reducible refine keeps_ok (hP.sub rfl) ?_
    | with_reducible refine keeps_ok_eq (by assumption) (hP.sub rfl) ?_
    | intro _
    | with_reducible refine keeps_ite ?_ ?_
    | with_reducible refine keeps_ite_fst ?_ ?_
    | with_reducible refine keeps_pair (by assumption) ?_
    | split
    | fail_if_no_progress extract_lets
    | dsimp +zetaDelta only)

theorem keeps_bodyAbortAll_eq {P : Nat} {s u v : State} {k} {x} (he : bodyAbortAll k u = (v, x)) (hP : Fits 0xa5f9fdb000000000300000001012068002440a1002140a1000000000000000006cff01c1d801000000 P)
    (h : Keeps P s u) : Keeps P s v := by
  have h1 := keeps_bodyAbortAll (k := k) hP h
  rw [he] at h1
  exact h1

theorem keeps_sendMuster {P : Nat} {s u : State} {a1 a2 a3} (hP : Fits 0x2000002000000000000000000000000000000000000000000000000000000000000000000000000000 P) (h : Keeps P s u) :
    Keeps P s (State.sendMuster u a1 a2 a3) := by
  unfold State.sendMuster
  repeat' (first
    | with_reducible exact h
    | with_reducible assumption
    | dsimp -zeta only
    | with_reducible refine keeps_sendFlit (hP.sub rfl) ?_
    | with_reducible refine keeps_ownNode (hP.sub rfl) ?_
    | with_reducible refine keeps_ownNode_eq (by assumption) (hP.sub rfl) ?_
    | intro _
    | with_reducible refine keeps_ite ?_ ?_
    | with_reducible refine keeps_ite_fst ?_ ?_
    | with_reducible refine keeps_pair (by assumption) ?_
    | split
    | fail_if_no_progress extract_lets
    | dsimp +zetaDelta only)

theorem keeps_convoyBreak {P : Nat} {s u : State} {a1 a2} (hP : Fits 0xa5f9fdb0000000003000000010d2068002000a1002140a1000000000000000006cff01c1d801000000 P) (h : Keeps P s u) :
    Keeps P s (State.convoyBreak u a1 a2) := by
  unfold State.convoyBreak
  repeat' (first
    | with_reducible exact h
    | with_reducible assumption
    | dsimp -zeta only
    | with_reducible refine keeps_originateHalt (hP.sub rfl) ?_
    | with_reducible refine keeps_sendMuster (hP.sub rfl) ?_
    | with_reducible refine keeps_msDropAll (hP.sub rfl) ?_
    | with_reducible refine keeps_logWrite (hP.sub rfl) ?_
    | with_reducible refine keeps_fput hP rfl ?_
    | with_reducible refine keeps_foldl ?_ ?_
    | with_reducible refine keeps_foldl_fst ?_ ?_
    | intro _
    | with_reducible refine keeps_ite ?_ ?_
    | with_reducible refine keeps_ite_fst ?_ ?_
    | with_reducible refine keeps_pair (by assumption) ?_
    | split
    | fail_if_no_progress extract_lets
    | dsimp +zetaDelta only)

theorem keeps_linkLost {P : Nat} {s u : State} {a1} (hP : Fits 0xa5f9fdb0000000003000000010d2068002000a1002140a1000000000000000006cff01c1d801000000 P) (h : Keeps P s u) :
    Keeps P s (State.linkLost u a1) := by
  unfold State.linkLost
  repeat' (first
    | with_reducible exact h
    | with_reducible assumption
    | dsimp -zeta only
    | with_reducible refine keeps_convoyBreak (hP.sub rfl) ?_
    | with_reducible refine keeps_setWport (hP.sub rfl) ?_
    | with_reducible refine keeps_endWaits (hP.sub rfl) ?_
    | with_reducible refine keeps_bulkLost (hP.sub rfl) ?_
    | with_reducible refine keeps_foldl ?_ ?_
    | with_reducible refine keeps_foldl_fst ?_ ?_
    | intro _
    | with_reducible refine keeps_ite ?_ ?_
    | with_reducible refine keeps_ite_fst ?_ ?_
    | with_reducible refine keeps_pair (by assumption) ?_
    | split
    | fail_if_no_progress extract_lets
    | fail_if_no_progress with_reducible refine keeps_wln hP rfl ?_
    | dsimp +zetaDelta only)

theorem keeps_setLock {P : Nat} {s u : State} {a1 a2 a3} (hP : Fits 0x20000000000000000000000000000000000000000000000000000000000 P) (h : Keeps P s u) :
    Keeps P s (State.setLock u a1 a2 a3) := by
  unfold State.setLock
  repeat' (first
    | with_reducible exact h
    | with_reducible assumption
    | dsimp -zeta only
    | with_reducible refine keeps_fput hP rfl ?_
    | intro _
    | with_reducible refine keeps_ite ?_ ?_
    | with_reducible refine keeps_ite_fst ?_ ?_
    | with_reducible refine keeps_pair (by assumption) ?_
    | split
    | fail_if_no_progress extract_lets
    | dsimp +zetaDelta only)

theorem keeps_doBlockLock {P : Nat} {s u : State} {a1 a2} (hP : Fits 0x20000000000000000000000000000000000000000000000000000000000 P) (h : Keeps P s u) :
    Keeps P s (State.doBlockLock u a1 a2) := by
  unfold State.doBlockLock
  repeat' (first
    | with_reducible exact h
    | with_reducible assumption
    | dsimp -zeta only
    | with_reducible refine keeps_setLock (hP.sub rfl) ?_
    | intro _
    | with_reducible refine keeps_ite ?_ ?_
    | with_reducible refine keeps_ite_fst ?_ ?_
    | with_reducible refine keeps_pair (by assumption) ?_
    | split
    | fail_if_no_progress extract_lets
    | dsimp +zetaDelta only)

theorem keeps_retrain {P : Nat} {s u : State} {a1} (hP : Fits 0x2000000000000000000000420040000000000000000000000000000000000000000000000000000000 P) (h : Keeps P s u) :
    Keeps P s (State.retrain u a1) := by
  unfold State.retrain
  repeat' (first
    | with_reducible exact h
    | with_reducible assumption
    | dsimp -zeta only
    | with_reducible refine keeps_setWstate (hP.sub rfl) ?_
    | with_reducible refine keeps_setWport (hP.sub rfl) ?_
    | with_reducible refine keeps_bump hP rfl ?_
    | intro _
    | with_reducible refine keeps_ite ?_ ?_
    | with_reducible refine keeps_ite_fst ?_ ?_
    | with_reducible refine keeps_pair (by assumption) ?_
    | split
    | fail_if_no_progress extract_lets
    | dsimp +zetaDelta only)

theorem keeps_doLockLoss {P : Nat} {s u : State} {a1 a2} (hP : Fits 0x2000000000000000000000420040000000000000000000000000000000000000000000000000000000 P) (h : Keeps P s u) :
    Keeps P s (State.doLockLoss u a1 a2) := by
  unfold State.doLockLoss
  repeat' (first
    | with_reducible exact h
    | with_reducible assumption
    | dsimp -zeta only
    | with_reducible refine keeps_setLock (hP.sub rfl) ?_
    | with_reducible refine keeps_retrain (hP.sub rfl) ?_
    | intro _
    | with_reducible refine keeps_ite ?_ ?_
    | with_reducible refine keeps_ite_fst ?_ ?_
    | with_reducible refine keeps_pair (by assumption) ?_
    | split
    | fail_if_no_progress extract_lets
    | dsimp +zetaDelta only)

theorem keeps_setTaps {P : Nat} {s u : State} {a1 a2 a3} (hP : Fits 0x40000000000000000000000000000000000000000000000000000000000 P) (h : Keeps P s u) :
    Keeps P s (State.setTaps u a1 a2 a3) := by
  unfold State.setTaps
  repeat' (first
    | with_reducible exact h
    | with_reducible assumption
    | dsimp -zeta only
    | with_reducible refine keeps_fput hP rfl ?_
    | with_reducible refine keeps_foldl ?_ ?_
    | with_reducible refine keeps_foldl_fst ?_ ?_
    | intro _
    | with_reducible refine keeps_ite ?_ ?_
    | with_reducible refine keeps_ite_fst ?_ ?_
    | with_reducible refine keeps_pair (by assumption) ?_
    | split
    | fail_if_no_progress extract_lets
    | dsimp +zetaDelta only)

theorem keeps_sendTraining {P : Nat} {s u : State} {a1 a2 a3 a4} (hP : Fits 0x2000000000000000000000000000000000000000000000000000000000000000000000000000000000 P) (h : Keeps P s u) :
    Keeps P s (State.sendTraining u a1 a2 a3 a4) := by
  unfold State.sendTraining
  repeat' (first
    | with_reducible exact h
    | with_reducible assumption
    | dsimp -zeta only
    | with_reducible refine keeps_setWport (hP.sub rfl) ?_
    | intro _
    | with_reducible refine keeps_ite ?_ ?_
    | with_reducible refine keeps_ite_fst ?_ ?_
    | with_reducible refine keeps_pair (by assumption) ?_
    | split
    | fail_if_no_progress extract_lets
    | dsimp +zetaDelta only)

theorem keeps_sendTrainStat {P : Nat} {s u : State} {a1 a2 a3 a4} (hP : Fits 0x2000000000000000000000000000000000000000000000000000000000000000000000000000000000 P) (h : Keeps P s u) :
    Keeps P s (State.sendTrainStat u a1 a2 a3 a4) := by
  unfold State.sendTrainStat
  repeat' (first
    | with_reducible exact h
    | with_reducible assumption
    | dsimp -zeta only
    | with_reducible refine keeps_sendTraining (hP.sub rfl) ?_
    | intro _
    | with_reducible refine keeps_ite ?_ ?_
    | with_reducible refine keeps_ite_fst ?_ ?_
    | with_reducible refine keeps_pair (by assumption) ?_
    | split
    | fail_if_no_progress extract_lets
    | dsimp +zetaDelta only)

theorem keeps_doTrainReq {P : Nat} {s u : State} {a1 a2 a3} (hP : Fits 0x2000000000000000000000040000000000000000000000000000000000000000000000000000000000 P) (h : Keeps P s u) :
    Keeps P s (State.doTrainReq u a1 a2 a3) := by
  unfold State.doTrainReq
  repeat' (first
    | with_reducible exact h
    | with_reducible assumption
    | dsimp -zeta only
    | with_reducible refine keeps_sendTrainStat (hP.sub rfl) ?_
    | with_reducible refine keeps_setWport (hP.sub rfl) ?_
    | with_reducible refine keeps_setTaps (hP.sub rfl) ?_
    | intro _
    | with_reducible refine keeps_ite ?_ ?_
    | with_reducible refine keeps_ite_fst ?_ ?_
    | with_reducible refine keeps_pair (by assumption) ?_
    | split
    | fail_if_no_progress extract_lets
    | dsimp +zetaDelta only)

theorem keeps_doTrainStat {P : Nat} {s u : State} {a1 a2 a3} (hP : Fits 0x2000000000000000000000020000000000000000000000000000000000000000000000000000000000 P) (h : Keeps P s u) :
    Keeps P s (State.doTrainStat u a1 a2 a3) := by
  unfold State.doTrainStat
  repeat' (first
    | with_reducible exact h
    | with_reducible assumption
    | dsimp -zeta only
    | with_reducible refine keeps_setWport (hP.sub rfl) ?_
    | with_reducible refine keeps_fput hP rfl ?_
    | intro _
    | with_reducible refine keeps_ite ?_ ?_
    | with_reducible refine keeps_ite_fst ?_ ?_
    | with_reducible refine keeps_pair (by assumption) ?_
    | split
    | fail_if_no_progress extract_lets
    | dsimp +zetaDelta only)

theorem keeps_sendAck {P : Nat} {s u : State} {a1} (hP : Fits 0x2000000000000000000000000000000000000000000000000000000000000000000000000000000000 P) (h : Keeps P s u) :
    Keeps P s (State.sendAck u a1) := by
  unfold State.sendAck
  repeat' (first
    | with_reducible exact h
    | with_reducible assumption
    | dsimp -zeta only
    | with_reducible refine keeps_sendBlock (hP.sub rfl) ?_
    | with_reducible refine keeps_setWport (hP.sub rfl) ?_
    | intro _
    | with_reducible refine keeps_ite ?_ ?_
    | with_reducible refine keeps_ite_fst ?_ ?_
    | with_reducible refine keeps_pair (by assumption) ?_
    | split
    | fail_if_no_progress extract_lets
    | dsimp +zetaDelta only)

theorem keeps_resend {P : Nat} {s u : State} {a1 a2} (hP : Fits 0x2000400000000000000000400000000000000000000000000000000000000000000000000000000000 P) (h : Keeps P s u) :
    Keeps P s (State.resend u a1 a2) := by
  unfold State.resend
  repeat' (first
    | with_reducible exact h
    | with_reducible assumption
    | dsimp -zeta only
    | with_reducible refine keeps_setWport (hP.sub rfl) ?_
    | with_reducible refine keeps_countFix (hP.sub rfl) ?_
    | with_reducible refine keeps_bump hP rfl ?_
    | intro _
    | with_reducible refine keeps_ite ?_ ?_
    | with_reducible refine keeps_ite_fst ?_ ?_
    | with_reducible refine keeps_pair (by assumption) ?_
    | split
    | fail_if_no_progress extract_lets
    | dsimp +zetaDelta only)

theorem keeps_beginSession {P : Nat} {s u : State} {a1} (hP : Fits 0x2000400000000000000000420040000000000000000000000000000000000000000000000000000000 P) (h : Keeps P s u) :
    Keeps P s (State.beginSession u a1) := by
  unfold State.beginSession
  repeat' (first
    | with_reducible exact h
    | with_reducible assumption
    | dsimp -zeta only
    | with_reducible refine keeps_setWstate (hP.sub rfl) ?_
    | with_reducible refine keeps_setWport (hP.sub rfl) ?_
    | with_reducible refine keeps_sendAck (hP.sub rfl) ?_
    | with_reducible refine keeps_resend (hP.sub rfl) ?_
    | with_reducible refine keeps_pump (hP.sub rfl) ?_
    | with_reducible refine keeps_fput hP rfl ?_
    | intro _
    | with_reducible refine keeps_ite ?_ ?_
    | with_reducible refine keeps_ite_fst ?_ ?_
    | with_reducible refine keeps_pair (by assumption) ?_
    | split
    | fail_if_no_progress extract_lets
    | dsimp +zetaDelta only)

theorem keeps_doPortUp {P : Nat} {s u : State} {a1} (hP : Fits 0x2000e02000000000000000420040000002000000000000000000000000000000000000000000000000 P) (h : Keeps P s u) :
    Keeps P s (State.doPortUp u a1) := by
  unfold State.doPortUp
  repeat' (first
    | with_reducible exact h
    | with_reducible assumption
    | dsimp -zeta only
    | with_reducible refine keeps_beginSession (hP.sub rfl) ?_
    | with_reducible refine keeps_endWaits (hP.sub rfl) ?_
    | intro _
    | with_reducible refine keeps_ite ?_ ?_
    | with_reducible refine keeps_ite_fst ?_ ?_
    | with_reducible refine keeps_pair (by assumption) ?_
    | split
    | fail_if_no_progress extract_lets
    | dsimp +zetaDelta only)

theorem keeps_doTrainTimeout {P : Nat} {s u : State} {a1} (hP : Fits 0xa5f9fdb0000000003000000210d2068002000a1002140a1000000000000000006cff01c1d801000000 P) (h : Keeps P s u) :
    Keeps P s (State.doTrainTimeout u a1) := by
  unfold State.doTrainTimeout
  repeat' (first
    | with_reducible exact h
    | with_reducible assumption
    | dsimp -zeta only
    | with_reducible refine keeps_setWstate (hP.sub rfl) ?_
    | with_reducible refine keeps_linkLost (hP.sub rfl) ?_
    | with_reducible refine keeps_endWaits (hP.sub rfl) ?_
    | with_reducible refine keeps_advance (hP.sub rfl) ?_
    | intro _
    | with_reducible refine keeps_ite ?_ ?_
    | with_reducible refine keeps_ite_fst ?_ ?_
    | with_reducible refine keeps_pair (by assumption) ?_
    | split
    | fail_if_no_progress extract_lets
    | dsimp +zetaDelta only)

theorem keeps_beginTraining {P : Nat} {s u : State} {a1 a2 a3 a4} (hP : Fits 0x2000000000000000000000070040000000000000000000000000000000000000000000000000000000 P) (h : Keeps P s u) :
    Keeps P s (State.beginTraining u a1 a2 a3 a4) := by
  unfold State.beginTraining
  repeat' (first
    | with_reducible exact h
    | with_reducible assumption
    | dsimp -zeta only
    | with_reducible refine keeps_setWstate (hP.sub rfl) ?_
    | with_reducible refine keeps_setWport (hP.sub rfl) ?_
    | with_reducible refine keeps_setTaps (hP.sub rfl) ?_
    | with_reducible refine keeps_fput hP rfl ?_
    | intro _
    | with_reducible refine keeps_ite ?_ ?_
    | with_reducible refine keeps_ite_fst ?_ ?_
    | with_reducible refine keeps_pair (by assumption) ?_
    | split
    | fail_if_no_progress extract_lets
    | dsimp +zetaDelta only)

theorem keeps_portDown {P : Nat} {s u : State} {a1} (hP : Fits 0xa5f9fdb0000000003000000210d2068002000a1002140a1000000000000000006cff01c1d801000000 P) (h : Keeps P s u) :
    Keeps P s (State.portDown u a1) := by
  unfold State.portDown
  repeat' (first
    | with_reducible exact h
    | with_reducible assumption
    | dsimp -zeta only
    | with_reducible refine keeps_setWstate (hP.sub rfl) ?_
    | with_reducible refine keeps_linkLost (hP.sub rfl) ?_
    | with_reducible refine keeps_endWaits (hP.sub rfl) ?_
    | with_reducible refine keeps_fput hP rfl ?_
    | intro _
    | with_reducible refine keeps_ite ?_ ?_
    | with_reducible refine keeps_ite_fst ?_ ?_
    | with_reducible refine keeps_pair (by assumption) ?_
    | split
    | fail_if_no_progress extract_lets
    | dsimp +zetaDelta only)

theorem keeps_bodyWaylinePort {P : Nat} {s u : State} {k} (hP : Fits 0xa5f9fdb0000000003000000710d2068002000a1002140a1000000000000000006cff01c1d801000000 P) (h : Keeps P s u) :
    Keeps P s (bodyWaylinePort k u).1 := by
  unfold bodyWaylinePort
  beta_reduce
  repeat' (first
    | with_reducible exact h
    | with_reducible assumption
    | dsimp -zeta only
    | with_reducible refine keeps_beginTraining (hP.sub rfl) ?_
    | with_reducible refine keeps_portDown (hP.sub rfl) ?_
    | with_reducible refine keeps_setWport (hP.sub rfl) ?_
    | with_reducible refine keeps_fail (hP.sub rfl) ?_
    | with_reducible refine keeps_fail_eq (by assumption) (hP.sub rfl) ?_
    | with_reducible refine keeps_ok (hP.sub rfl) ?_
    | with_reducible refine keeps_ok_eq (by assumption) (hP.sub rfl) ?_
    | intro _
    | with_reducible refine keeps_ite ?_ ?_
    | with_reducible refine keeps_ite_fst ?_ ?_
    | with_reducible refine keeps_pair (by assumption) ?_
    | split
    | fail_if_no_progress extract_lets
    | dsimp +zetaDelta only)

theorem keeps_bodyWaylinePort_eq {P : Nat} {s u v : State} {k} {x} (he : bodyWaylinePort k u = (v, x)) (hP : Fits 0xa5f9fdb0000000003000000710d2068002000a1002140a1000000000000000006cff01c1d801000000 P)
    (h : Keeps P s u) : Keeps P s v := by
  have h1 := keeps_bodyWaylinePort (k := k) hP h
  rw [he] at h1
  exact h1

theorem keeps_doIdleQuietExpiry {P : Nat} {s u : State} {a1} (hP : Fits 0x2000000000000000000000020040000000000000000000000000000000000000000000000000000000 P) (h : Keeps P s u) :
    Keeps P s (State.doIdleQuietExpiry u a1) := by
  unfold State.doIdleQuietExpiry
  repeat' (first
    | with_reducible exact h
    | with_reducible assumption
    | dsimp -zeta only
    | with_reducible refine keeps_sendBlock (hP.sub rfl) ?_
    | with_reducible refine keeps_setWstate (hP.sub rfl) ?_
    | intro _
    | with_reducible refine keeps_ite ?_ ?_
    | with_reducible refine keeps_ite_fst ?_ ?_
    | with_reducible refine keeps_pair (by assumption) ?_
    | split
    | fail_if_no_progress extract_lets
    | dsimp +zetaDelta only)

theorem keeps_doIdleEnter {P : Nat} {s u : State} {a1} (hP : Fits 0x20040000000000000000000000000000000000000000000000000000000 P) (h : Keeps P s u) :
    Keeps P s (State.doIdleEnter u a1) := by
  unfold State.doIdleEnter
  repeat' (first
    | with_reducible exact h
    | with_reducible assumption
    | dsimp -zeta only
    | with_reducible refine keeps_setWstate (hP.sub rfl) ?_
    | intro _
    | with_reducible refine keeps_ite ?_ ?_
    | with_reducible refine keeps_ite_fst ?_ ?_
    | with_reducible refine keeps_pair (by assumption) ?_
    | split
    | fail_if_no_progress extract_lets
    | dsimp +zetaDelta only)

theorem keeps_doIdleExit {P : Nat} {s u : State} {a1} (hP : Fits 0x2000000000000000000000020040000000000000000000000000000000000000000000000000000000 P) (h : Keeps P s u) :
    Keeps P s (State.doIdleExit u a1) := by
  unfold State.doIdleExit
  repeat' (first
    | with_reducible exact h
    | with_reducible assumption
    | dsimp -zeta only
    | with_reducible refine keeps_setWstate (hP.sub rfl) ?_
    | with_reducible refine keeps_setWport (hP.sub rfl) ?_
    | with_reducible refine keeps_pump (hP.sub rfl) ?_
    | intro _
    | with_reducible refine keeps_ite ?_ ?_
    | with_reducible refine keeps_ite_fst ?_ ?_
    | with_reducible refine keeps_pair (by assumption) ?_
    | split
    | fail_if_no_progress extract_lets
    | dsimp +zetaDelta only)

theorem keeps_doAck {P : Nat} {s u : State} {a1 a2 a3 a4 a5} (hP : Fits 0x2000000000000000000000000000000000000000000000000000000000000000000000000000000000 P) (h : Keeps P s u) :
    Keeps P s (State.doAck u a1 a2 a3 a4 a5) := by
  unfold State.doAck
  repeat' (first
    | with_reducible exact h
    | with_reducible assumption
    | dsimp -zeta only
    | with_reducible refine keeps_setWport (hP.sub rfl) ?_
    | with_reducible refine keeps_pump (hP.sub rfl) ?_
    | intro _
    | with_reducible refine keeps_ite ?_ ?_
    | with_reducible refine keeps_ite_fst ?_ ?_
    | with_reducible refine keeps_pair (by assumption) ?_
    | split
    | fail_if_no_progress extract_lets
    | dsimp +zetaDelta only)

theorem keeps_resendOrRetrain {P : Nat} {s u : State} {a1 a2} (hP : Fits 0x2000400000000000000000420040000000000000000000000000000000000000000000000000000000 P) (h : Keeps P s u) :
    Keeps P s (State.resendOrRetrain u a1 a2) := by
  unfold State.resendOrRetrain
  repeat' (first
    | with_reducible exact h
    | with_reducible assumption
    | dsimp -zeta only
    | with_reducible refine keeps_setWport (hP.sub rfl) ?_
    | with_reducible refine keeps_retrain (hP.sub rfl) ?_
    | with_reducible refine keeps_resend (hP.sub rfl) ?_
    | intro _
    | with_reducible refine keeps_ite ?_ ?_
    | with_reducible refine keeps_ite_fst ?_ ?_
    | with_reducible refine keeps_pair (by assumption) ?_
    | split
    | fail_if_no_progress extract_lets
    | dsimp +zetaDelta only)

theorem keeps_doNak {P : Nat} {s u : State} {a1 a2} (hP : Fits 0x2000400000000000000000420040000000000000000000000000000000000000000000000000000000 P) (h : Keeps P s u) :
    Keeps P s (State.doNak u a1 a2) := by
  unfold State.doNak
  repeat' (first
    | with_reducible exact h
    | with_reducible assumption
    | dsimp -zeta only
    | with_reducible refine keeps_resendOrRetrain (hP.sub rfl) ?_
    | intro _
    | with_reducible refine keeps_ite ?_ ?_
    | with_reducible refine keeps_ite_fst ?_ ?_
    | with_reducible refine keeps_pair (by assumption) ?_
    | split
    | fail_if_no_progress extract_lets
    | dsimp +zetaDelta only)

theorem keeps_doReplayTimeout {P : Nat} {s u : State} {a1} (hP : Fits 0x2000400000000000000000420040000000000000000000000000000000000000000000000000000000 P) (h : Keeps P s u) :
    Keeps P s (State.doReplayTimeout u a1) := by
  unfold State.doReplayTimeout
  repeat' (first
    | with_reducible exact h
    | with_reducible assumption
    | dsimp -zeta only
    | with_reducible refine keeps_resendOrRetrain (hP.sub rfl) ?_
    | intro _
    | with_reducible refine keeps_ite ?_ ?_
    | with_reducible refine keeps_ite_fst ?_ ?_
    | with_reducible refine keeps_pair (by assumption) ?_
    | split
    | fail_if_no_progress extract_lets
    | dsimp +zetaDelta only)

theorem keeps_doAckTimer {P : Nat} {s u : State} {a1} (hP : Fits 0x2000000000000000000000000000000000000000000000000000000000000000000000000000000000 P) (h : Keeps P s u) :
    Keeps P s (State.doAckTimer u a1) := by
  unfold State.doAckTimer
  repeat' (first
    | with_reducible exact h
    | with_reducible assumption
    | dsimp -zeta only
    | with_reducible refine keeps_sendAck (hP.sub rfl) ?_
    | intro _
    | with_reducible refine keeps_ite ?_ ?_
    | with_reducible refine keeps_ite_fst ?_ ?_
    | with_reducible refine keeps_pair (by assumption) ?_
    | split
    | fail_if_no_progress extract_lets
    | dsimp +zetaDelta only)

theorem keeps_sendNak {P : Nat} {s u : State} {a1} (hP : Fits 0x2000000000000000000000000000000000000000000000000000000000000000000000000000000000 P) (h : Keeps P s u) :
    Keeps P s (State.sendNak u a1) := by
  unfold State.sendNak
  repeat' (first
    | with_reducible exact h
    | with_reducible assumption
    | dsimp -zeta only
    | with_reducible refine keeps_sendBlock (hP.sub rfl) ?_
    | with_reducible refine keeps_setWport (hP.sub rfl) ?_
    | intro _
    | with_reducible refine keeps_ite ?_ ?_
    | with_reducible refine keeps_ite_fst ?_ ?_
    | with_reducible refine keeps_pair (by assumption) ?_
    | split
    | fail_if_no_progress extract_lets
    | dsimp +zetaDelta only)

theorem keeps_doFlitCrcError {P : Nat} {s u : State} {a1 a2} (hP : Fits 0x2000400000000000000000400000000000000000000000000000000000000000000000000000000000 P) (h : Keeps P s u) :
    Keeps P s (State.doFlitCrcError u a1 a2) := by
  unfold State.doFlitCrcError
  repeat' (first
    | with_reducible exact h
    | with_reducible assumption
    | dsimp -zeta only
    | with_reducible refine keeps_countFix (hP.sub rfl) ?_
    | with_reducible refine keeps_sendNak (hP.sub rfl) ?_
    | with_reducible refine keeps_bump hP rfl ?_
    | intro _
    | with_reducible refine keeps_ite ?_ ?_
    | with_reducible refine keeps_ite_fst ?_ ?_
    | with_reducible refine keeps_pair (by assumption) ?_
    | split
    | fail_if_no_progress extract_lets
    | dsimp +zetaDelta only)

theorem keeps_doBadControlBlock {P : Nat} {s u : State} {a1} (hP : Fits 0x400000000000000000000000000000000000000000000000000000000000 P) (h : Keeps P s u) :
    Keeps P s (State.doBadControlBlock u a1) := by
  unfold State.doBadControlBlock
  repeat' (first
    | with_reducible exact h
    | with_reducible assumption
    | dsimp -zeta only
    | with_reducible refine keeps_bump hP rfl ?_
    | intro _
    | with_reducible refine keeps_ite ?_ ?_
    | with_reducible refine keeps_ite_fst ?_ ?_
    | with_reducible refine keeps_pair (by assumption) ?_
    | split
    | fail_if_no_progress extract_lets
    | dsimp +zetaDelta only)

theorem keeps_doFecCodeword {P : Nat} {s u : State} {a1 a2} (hP : Fits 0x800000000000000000000000000000000000000000000000000000000000 P) (h : Keeps P s u) :
    Keeps P s (State.doFecCodeword u a1 a2) := by
  unfold State.doFecCodeword
  repeat' (first
    | with_reducible exact h
    | with_reducible assumption
    | dsimp -zeta only
    | with_reducible refine keeps_bump hP rfl ?_
    | intro _
    | with_reducible refine keeps_ite ?_ ?_
    | with_reducible refine keeps_ite_fst ?_ ?_
    | with_reducible refine keeps_pair (by assumption) ?_
    | split
    | fail_if_no_progress extract_lets
    | dsimp +zetaDelta only)

theorem keeps_acceptFlit {P : Nat} {s u : State} {a1 a2} (hP : Fits 0x2000000000000000000000000000000000000000000000000000000000000000000000000000000000 P) (h : Keeps P s u) :
    Keeps P s (State.acceptFlit u a1 a2).1 := by
  unfold State.acceptFlit
  repeat' (first
    | with_reducible exact h
    | with_reducible assumption
    | dsimp -zeta only
    | with_reducible refine keeps_setWport (hP.sub rfl) ?_
    | with_reducible refine keeps_sendNak (hP.sub rfl) ?_
    | with_reducible refine keeps_sendAck (hP.sub rfl) ?_
    | intro _
    | with_reducible refine keeps_ite ?_ ?_
    | with_reducible refine keeps_ite_fst ?_ ?_
    | with_reducible refine keeps_pair (by assumption) ?_
    | split
    | fail_if_no_progress extract_lets
    | dsimp +zetaDelta only)

theorem keeps_acceptFlit_eq {P : Nat} {s u v : State} {a1 a2} {x} (he : State.acceptFlit u a1 a2 = (v, x)) (hP : Fits 0x2000000000000000000000000000000000000000000000000000000000000000000000000000000000 P)
    (h : Keeps P s u) : Keeps P s v := by
  have h1 := keeps_acceptFlit (a1 := a1) (a2 := a2) hP h
  rw [he] at h1
  exact h1

theorem keeps_forwardFlit {P : Nat} {s u : State} {a1 a2} (hP : Fits 0x2000002000000000000000400000000000000000000000000000000000000000000000000000000000 P) (h : Keeps P s u) :
    Keeps P s (State.forwardFlit u a1 a2) := by
  unfold State.forwardFlit
  repeat' (first
    | with_reducible exact h
    | with_reducible assumption
    | dsimp -zeta only
    | with_reducible refine keeps_replyFlit (hP.sub rfl) ?_
    | with_reducible refine keeps_sendFlit (hP.sub rfl) ?_
    | with_reducible refine keeps_owe (hP.sub rfl) ?_
    | with_reducible refine keeps_bump hP rfl ?_
    | intro _
    | with_reducible refine keeps_ite ?_ ?_
    | with_reducible refine keeps_ite_fst ?_ ?_
    | with_reducible refine keeps_pair (by assumption) ?_
    | split
    | fail_if_no_progress extract_lets
    | dsimp +zetaDelta only)

theorem keeps_onFlit {P : Nat} {s u : State} {a1 a2 a3 a4 a5} (hP : Fits 0x2000002000000000000000400000000000000000000000000000000000000000000000000000000000 P) (h5 : ∀ x0 v, Keeps P s v → Keeps P s (a5 x0 v)) (h : Keeps P s u) :
    Keeps P s (State.onFlit u a1 a2 a3 a4 a5) := by
  unfold State.onFlit
  repeat' (first
    | with_reducible exact h
    | with_reducible assumption
    | dsimp -zeta only
    | with_reducible refine keeps_forwardFlit (hP.sub rfl) ?_
    | with_reducible refine keeps_acceptFlit (hP.sub rfl) ?_
    | with_reducible refine keeps_acceptFlit_eq (by assumption) (hP.sub rfl) ?_
    | with_reducible refine h5 _ _ ?_
    | intro _
    | with_reducible refine keeps_ite ?_ ?_
    | with_reducible refine keeps_ite_fst ?_ ?_
    | with_reducible refine keeps_pair (by assumption) ?_
    | split
    | fail_if_no_progress extract_lets
    | dsimp +zetaDelta only)

theorem keeps_collect {P : Nat} {s u : State} {a1 a2} (hP : Fits 0x2000000000000000000000000000000000000000000000000000000000000000000000000000000000 P) (h : Keeps P s u) :
    Keeps P s (State.collect u a1 a2).1 := by
  unfold State.collect
  repeat' (first
    | with_reducible exact h
    | with_reducible assumption
    | dsimp -zeta only
    | with_reducible refine keeps_setWport (hP.sub rfl) ?_
    | intro _
    | with_reducible refine keeps_ite ?_ ?_
    | with_reducible refine keeps_ite_fst ?_ ?_
    | with_reducible refine keeps_pair (by assumption) ?_
    | split
    | fail_if_no_progress extract_lets
    | dsimp +zetaDelta only)

theorem keeps_collect_eq {P : Nat} {s u v : State} {a1 a2} {x} (he : State.collect u a1 a2 = (v, x)) (hP : Fits 0x2000000000000000000000000000000000000000000000000000000000000000000000000000000000 P)
    (h : Keeps P s u) : Keeps P s v := by
  have h1 := keeps_collect (a1 := a1) (a2 := a2) hP h
  rw [he] at h1
  exact h1

theorem keeps_execCompareResultArrival {P : Nat} {u t : State} {a0 a1 a2} (he : execCompareResultArrival a0 a1 a2 u = .next t) (hP : Fits 0xa5f9fdb000000000300000001012068002000a1002140a1000000000000000006cff01c1d801000000 P) : Keeps P u t := by
  unfold execCompareResultArrival at he
  injection he with he
  subst he
  repeat' (first
    | with_reducible exact Keeps.refl P u
    | with_reducible assumption
    | dsimp -zeta only
    | with_reducible refine keeps_doCompareResult (hP.sub rfl) ?_
    | with_reducible refine keeps_haltIfDue (hP.sub rfl) ?_
    | intro _
    | with_reducible refine keeps_ite ?_ ?_
    | with_reducible refine keeps_ite_fst ?_ ?_
    | with_reducible refine keeps_pair (by assumption) ?_
    | split
    | fail_if_no_progress extract_lets
    | dsimp +zetaDelta only)

theorem keeps_execHaltEntry {P : Nat} {u t : State} {a0} (he : execHaltEntry a0 u = .next t) (hP : Fits 0xa5f9fdb000000000300000001016068002000a1002140a1000000000000000006cff01c1d801000000 P) : Keeps P u t := by
  unfold execHaltEntry at he
  injection he with he
  subst he
  repeat' (first
    | with_reducible exact Keeps.refl P u
    | with_reducible assumption
    | dsimp -zeta only
    | with_reducible refine keeps_doHaltEntry (hP.sub rfl) ?_
    | with_reducible refine keeps_haltIfDue (hP.sub rfl) ?_
    | intro _
    | with_reducible refine keeps_ite ?_ ?_
    | with_reducible refine keeps_ite_fst ?_ ?_
    | with_reducible refine keeps_pair (by assumption) ?_
    | split
    | fail_if_no_progress extract_lets
    | dsimp +zetaDelta only)

theorem keeps_execLegEnd {P : Nat} {u t : State} {a0} (he : execLegEnd a0 u = .next t) (hP : Fits 0xa5f9fdb000000000300000001016068002000a1002140a100000000000000000ecff01c1d801000000 P) : Keeps P u t := by
  unfold execLegEnd at he
  injection he with he
  subst he
  repeat' (first
    | with_reducible exact Keeps.refl P u
    | with_reducible assumption
    | dsimp -zeta only
    | with_reducible refine keeps_haltIfDue (hP.sub rfl) ?_
    | with_reducible refine keeps_doLegEnd (hP.sub rfl) ?_
    | intro _
    | with_reducible refine keeps_ite ?_ ?_
    | with_reducible refine keeps_ite_fst ?_ ?_
    | with_reducible refine keeps_pair (by assumption) ?_
    | split
    | fail_if_no_progress extract_lets
    | dsimp +zetaDelta only)

theorem keeps_execAbortAll {P : Nat} {u t : State} {a0} (he : execAbortAll a0 u = .next t) (hP : Fits 0xa5f9fdb000000000300000001012068003f40a1002140a1000000000000000006cff01c1d801000000 P) : Keeps P u t := by
  unfold execAbortAll at he
  injection he with he
  subst he
  repeat' (first
    | with_reducible exact Keeps.refl P u
    | with_reducible assumption
    | dsimp -zeta only
    | with_reducible refine keeps_runPrompt (hP.sub rfl) ?_ ?_
    | with_reducible refine keeps_bodyAbortAll (hP.sub rfl) ?_
    | with_reducible refine keeps_bodyAbortAll_eq (by assumption) (hP.sub rfl) ?_
    | intro _
    | with_reducible refine keeps_ite ?_ ?_
    | with_reducible refine keeps_ite_fst ?_ ?_
    | with_reducible refine keeps_pair (by assumption) ?_
    | split
    | fail_if_no_progress extract_lets
    | dsimp +zetaDelta only)

theorem keeps_execWaylinePort {P : Nat} {u t : State} {a0} (he : execWaylinePort a0 u = .next t) (hP : Fits 0xa5f9fdb0000000003000000710d2068003f00a1002140a1000000000000000006cff01c1d801000000 P) : Keeps P u t := by
  unfold execWaylinePort at he
  injection he with he
  subst he
  repeat' (first
    | with_reducible exact Keeps.refl P u
    | with_reducible assumption
    | dsimp -zeta only
    | with_reducible refine keeps_runCommand (hP.sub rfl) ?_ ?_
    | with_reducible refine keeps_bodyWaylinePort (hP.sub rfl) ?_
    | with_reducible refine keeps_bodyWaylinePort_eq (by assumption) (hP.sub rfl) ?_
    | intro _
    | with_reducible refine keeps_ite ?_ ?_
    | with_reducible refine keeps_ite_fst ?_ ?_
    | with_reducible refine keeps_pair (by assumption) ?_
    | split
    | fail_if_no_progress extract_lets
    | dsimp +zetaDelta only)

theorem keeps_execBlockLock {P : Nat} {u t : State} {a0 a1} (he : execBlockLock a0 a1 u = .next t) (hP : Fits 0x20000000000000000000000000000000000000000000000000000000000 P) : Keeps P u t := by
  unfold execBlockLock at he
  injection he with he
  subst he
  repeat' (first
    | with_reducible exact Keeps.refl P u
    | with_reducible assumption
    | dsimp -zeta only
    | with_reducible refine keeps_doBlockLock (hP.sub rfl) ?_
    | intro _
    | with_reducible refine keeps_ite ?_ ?_
    | with_reducible refine keeps_ite_fst ?_ ?_
    | with_reducible refine keeps_pair (by assumption) ?_
    | split
    | fail_if_no_progress extract_lets
    | dsimp +zetaDelta only)

theorem keeps_execLockLoss {P : Nat} {u t : State} {a0 a1} (he : execLockLoss a0 a1 u = .next t) (hP : Fits 0x2000000000000000000000420040000000000000000000000000000000000000000000000000000000 P) : Keeps P u t := by
  unfold execLockLoss at he
  injection he with he
  subst he
  repeat' (first
    | with_reducible exact Keeps.refl P u
    | with_reducible assumption
    | dsimp -zeta only
    | with_reducible refine keeps_doLockLoss (hP.sub rfl) ?_
    | intro _
    | with_reducible refine keeps_ite ?_ ?_
    | with_reducible refine keeps_ite_fst ?_ ?_
    | with_reducible refine keeps_pair (by assumption) ?_
    | split
    | fail_if_no_progress extract_lets
    | dsimp +zetaDelta only)

theorem keeps_execTrainReq {P : Nat} {u t : State} {a0 a1 a2} (he : execTrainReq a0 a1 a2 u = .next t) (hP : Fits 0x2000000000000000000000040000000000000000000000000000000000000000000000000000000000 P) : Keeps P u t := by
  unfold execTrainReq at he
  injection he with he
  subst he
  repeat' (first
    | with_reducible exact Keeps.refl P u
    | with_reducible assumption
    | dsimp -zeta only
    | with_reducible refine keeps_doTrainReq (hP.sub rfl) ?_
    | intro _
    | with_reducible refine keeps_ite ?_ ?_
    | with_reducible refine keeps_ite_fst ?_ ?_
    | with_reducible refine keeps_pair (by assumption) ?_
    | split
    | fail_if_no_progress extract_lets
    | dsimp +zetaDelta only)

theorem keeps_execTrainStat {P : Nat} {u t : State} {a0 a1 a2} (he : execTrainStat a0 a1 a2 u = .next t) (hP : Fits 0x2000000000000000000000020000000000000000000000000000000000000000000000000000000000 P) : Keeps P u t := by
  unfold execTrainStat at he
  injection he with he
  subst he
  repeat' (first
    | with_reducible exact Keeps.refl P u
    | with_reducible assumption
    | dsimp -zeta only
    | with_reducible refine keeps_doTrainStat (hP.sub rfl) ?_
    | intro _
    | with_reducible refine keeps_ite ?_ ?_
    | with_reducible refine keeps_ite_fst ?_ ?_
    | with_reducible refine keeps_pair (by assumption) ?_
    | split
    | fail_if_no_progress extract_lets
    | dsimp +zetaDelta only)

theorem keeps_execPortUp {P : Nat} {u t : State} {a0} (he : execPortUp a0 u = .next t) (hP : Fits 0x2000e02000000000000000420040000002000000000000000000000000000000000000000000000000 P) : Keeps P u t := by
  unfold execPortUp at he
  injection he with he
  subst he
  repeat' (first
    | with_reducible exact Keeps.refl P u
    | with_reducible assumption
    | dsimp -zeta only
    | with_reducible refine keeps_doPortUp (hP.sub rfl) ?_
    | intro _
    | with_reducible refine keeps_ite ?_ ?_
    | with_reducible refine keeps_ite_fst ?_ ?_
    | with_reducible refine keeps_pair (by assumption) ?_
    | split
    | fail_if_no_progress extract_lets
    | dsimp +zetaDelta only)

theorem keeps_execTrainTimeout {P : Nat} {u t : State} {a0} (he : execTrainTimeout a0 u = .next t) (hP : Fits 0xa5f9fdb0000000003000000210d2068002000a1002140a1000000000000000006cff01c1d801000000 P) : Keeps P u t := by
  unfold execTrainTimeout at he
  injection he with he
  subst he
  repeat' (first
    | with_reducible exact Keeps.refl P u
    | with_reducible assumption
    | dsimp -zeta only
    | with_reducible refine keeps_doTrainTimeout (hP.sub rfl) ?_
    | intro _
    | with_reducible refine keeps_ite ?_ ?_
    | with_reducible refine keeps_ite_fst ?_ ?_
    | with_reducible refine keeps_pair (by assumption) ?_
    | split
    | fail_if_no_progress extract_lets
    | dsimp +zetaDelta only)

theorem keeps_execIdleQuietExpiry {P : Nat} {u t : State} {a0} (he : execIdleQuietExpiry a0 u = .next t) (hP : Fits 0x2000000000000000000000020040000000000000000000000000000000000000000000000000000000 P) : Keeps P u t := by
  unfold execIdleQuietExpiry at he
  injection he with he
  subst he
  repeat' (first
    | with_reducible exact Keeps.refl P u
    | with_reducible assumption
    | dsimp -zeta only
    | with_reducible refine keeps_doIdleQuietExpiry (hP.sub rfl) ?_
    | intro _
    | with_reducible refine keeps_ite ?_ ?_
    | with_reducible refine keeps_ite_fst ?_ ?_
    | with_reducible refine keeps_pair (by assumption) ?_
    | split
    | fail_if_no_progress extract_lets
    | dsimp +zetaDelta only)

theorem keeps_execIdleEnter {P : Nat} {u t : State} {a0} (he : execIdleEnter a0 u = .next t) (hP : Fits 0x20040000000000000000000000000000000000000000000000000000000 P) : Keeps P u t := by
  unfold execIdleEnter at he
  injection he with he
  subst he
  repeat' (first
    | with_reducible exact Keeps.refl P u
    | with_reducible assumption
    | dsimp -zeta only
    | with_reducible refine keeps_doIdleEnter (hP.sub rfl) ?_
    | intro _
    | with_reducible refine keeps_ite ?_ ?_
    | with_reducible refine keeps_ite_fst ?_ ?_
    | with_reducible refine keeps_pair (by assumption) ?_
    | split
    | fail_if_no_progress extract_lets
    | dsimp +zetaDelta only)

theorem keeps_execIdleExit {P : Nat} {u t : State} {a0} (he : execIdleExit a0 u = .next t) (hP : Fits 0x2000000000000000000000020040000000000000000000000000000000000000000000000000000000 P) : Keeps P u t := by
  unfold execIdleExit at he
  injection he with he
  subst he
  repeat' (first
    | with_reducible exact Keeps.refl P u
    | with_reducible assumption
    | dsimp -zeta only
    | with_reducible refine keeps_doIdleExit (hP.sub rfl) ?_
    | intro _
    | with_reducible refine keeps_ite ?_ ?_
    | with_reducible refine keeps_ite_fst ?_ ?_
    | with_reducible refine keeps_pair (by assumption) ?_
    | split
    | fail_if_no_progress extract_lets
    | dsimp +zetaDelta only)

theorem keeps_execAck {P : Nat} {u t : State} {a0 a1 a2 a3 a4} (he : execAck a0 a1 a2 a3 a4 u = .next t) (hP : Fits 0x2000000000000000000000000000000000000000000000000000000000000000000000000000000000 P) : Keeps P u t := by
  unfold execAck at he
  injection he with he
  subst he
  repeat' (first
    | with_reducible exact Keeps.refl P u
    | with_reducible assumption
    | dsimp -zeta only
    | with_reducible refine keeps_doAck (hP.sub rfl) ?_
    | intro _
    | with_reducible refine keeps_ite ?_ ?_
    | with_reducible refine keeps_ite_fst ?_ ?_
    | with_reducible refine keeps_pair (by assumption) ?_
    | split
    | fail_if_no_progress extract_lets
    | dsimp +zetaDelta only)

theorem keeps_execNak {P : Nat} {u t : State} {a0 a1} (he : execNak a0 a1 u = .next t) (hP : Fits 0x2000400000000000000000420040000000000000000000000000000000000000000000000000000000 P) : Keeps P u t := by
  unfold execNak at he
  injection he with he
  subst he
  repeat' (first
    | with_reducible exact Keeps.refl P u
    | with_reducible assumption
    | dsimp -zeta only
    | with_reducible refine keeps_doNak (hP.sub rfl) ?_
    | intro _
    | with_reducible refine keeps_ite ?_ ?_
    | with_reducible refine keeps_ite_fst ?_ ?_
    | with_reducible refine keeps_pair (by assumption) ?_
    | split
    | fail_if_no_progress extract_lets
    | dsimp +zetaDelta only)

theorem keeps_execAckTimer {P : Nat} {u t : State} {a0} (he : execAckTimer a0 u = .next t) (hP : Fits 0x2000000000000000000000000000000000000000000000000000000000000000000000000000000000 P) : Keeps P u t := by
  unfold execAckTimer at he
  injection he with he
  subst he
  repeat' (first
    | with_reducible exact Keeps.refl P u
    | with_reducible assumption
    | dsimp -zeta only
    | with_reducible refine keeps_doAckTimer (hP.sub rfl) ?_
    | intro _
    | with_reducible refine keeps_ite ?_ ?_
    | with_reducible refine keeps_ite_fst ?_ ?_
    | with_reducible refine keeps_pair (by assumption) ?_
    | split
    | fail_if_no_progress extract_lets
    | dsimp +zetaDelta only)

theorem keeps_execReplayTimeout {P : Nat} {u t : State} {a0} (he : execReplayTimeout a0 u = .next t) (hP : Fits 0x2000400000000000000000420040000000000000000000000000000000000000000000000000000000 P) : Keeps P u t := by
  unfold execReplayTimeout at he
  injection he with he
  subst he
  repeat' (first
    | with_reducible exact Keeps.refl P u
    | with_reducible assumption
    | dsimp -zeta only
    | with_reducible refine keeps_doReplayTimeout (hP.sub rfl) ?_
    | intro _
    | with_reducible refine keeps_ite ?_ ?_
    | with_reducible refine keeps_ite_fst ?_ ?_
    | with_reducible refine keeps_pair (by assumption) ?_
    | split
    | fail_if_no_progress extract_lets
    | dsimp +zetaDelta only)

theorem keeps_execHalt {P : Nat} {u t : State} {a0 a1 a2} (he : execHalt a0 a1 a2 u = .next t) (hP : Fits 0xa5f9fdb000000000300000001012068002000a1002140a1000000000000000006cff01c1d801000000 P) : Keeps P u t := by
  unfold execHalt at he
  injection he with he
  subst he
  repeat' (first
    | with_reducible exact Keeps.refl P u
    | with_reducible assumption
    | dsimp -zeta only
    | with_reducible refine keeps_doHalt (hP.sub rfl) ?_
    | intro _
    | with_reducible refine keeps_ite ?_ ?_
    | with_reducible refine keeps_ite_fst ?_ ?_
    | with_reducible refine keeps_pair (by assumption) ?_
    | split
    | fail_if_no_progress extract_lets
    | dsimp +zetaDelta only)

theorem keeps_execFlitCrcError {P : Nat} {u t : State} {a0 a1} (he : execFlitCrcError a0 a1 u = .next t) (hP : Fits 0x2000400000000000000000400000000000000000000000000000000000000000000000000000000000 P) : Keeps P u t := by
  unfold execFlitCrcError at he
  injection he with he
  subst he
  repeat' (first
    | with_reducible exact Keeps.refl P u
    | with_reducible assumption
    | dsimp -zeta only
    | with_reducible refine keeps_doFlitCrcError (hP.sub rfl) ?_
    | intro _
    | with_reducible refine keeps_ite ?_ ?_
    | with_reducible refine keeps_ite_fst ?_ ?_
    | with_reducible refine keeps_pair (by assumption) ?_
    | split
    | fail_if_no_progress extract_lets
    | dsimp +zetaDelta only)

theorem keeps_execBadControlBlock {P : Nat} {u t : State} {a0} (he : execBadControlBlock a0 u = .next t) (hP : Fits 0x400000000000000000000000000000000000000000000000000000000000 P) : Keeps P u t := by
  unfold execBadControlBlock at he
  injection he with he
  subst he
  repeat' (first
    | with_reducible exact Keeps.refl P u
    | with_reducible assumption
    | dsimp -zeta only
    | with_reducible refine keeps_doBadControlBlock (hP.sub rfl) ?_
    | intro _
    | with_reducible refine keeps_ite ?_ ?_
    | with_reducible refine keeps_ite_fst ?_ ?_
    | with_reducible refine keeps_pair (by assumption) ?_
    | split
    | fail_if_no_progress extract_lets
    | dsimp +zetaDelta only)

theorem keeps_execFecCodeword {P : Nat} {u t : State} {a0 a1} (he : execFecCodeword a0 a1 u = .next t) (hP : Fits 0x800000000000000000000000000000000000000000000000000000000000 P) : Keeps P u t := by
  unfold execFecCodeword at he
  injection he with he
  subst he
  repeat' (first
    | with_reducible exact Keeps.refl P u
    | with_reducible assumption
    | dsimp -zeta only
    | with_reducible refine keeps_doFecCodeword (hP.sub rfl) ?_
    | intro _
    | with_reducible refine keeps_ite ?_ ?_
    | with_reducible refine keeps_ite_fst ?_ ?_
    | with_reducible refine keeps_pair (by assumption) ?_
    | split
    | fail_if_no_progress extract_lets
    | dsimp +zetaDelta only)

end Sys2Proof.Machine
end

