-- ==== Sys2Proof/Laws/KeepsWaylineService.lean ====
section
/-! SUPPORT. What each operation of Machine/WaylineService.lean may change, and that it keeps the invariant: one law for each. -/

set_option linter.unreachableTactic false
set_option linter.unusedTactic false

namespace Sys2Proof.Machine

theorem keeps_newMsg {P : Nat} {s u : State} {a1 a2} (hP : Fits 0x2000000000000000000000000000000000000000000000000000000000000000000000000000000000 P) (h : Keeps P s u) :
    Keeps P s (State.newMsg u a1 a2).1 := by
  unfold State.newMsg
  repeat' (first
    | with_reducible exact h
    | with_reducible assumption
    | dsimp -zeta only
    | intro _
    | with_reducible refine keeps_ite ?_ ?_
    | with_reducible refine keeps_ite_fst ?_ ?_
    | with_reducible refine keeps_pair (by assumption) ?_
    | split
    | fail_if_no_progress extract_lets
    | fail_if_no_progress with_reducible refine keeps_wln hP rfl ?_
    | dsimp +zetaDelta only)

theorem keeps_newMsg_eq {P : Nat} {s u v : State} {a1 a2} {x} (he : State.newMsg u a1 a2 = (v, x)) (hP : Fits 0x2000000000000000000000000000000000000000000000000000000000000000000000000000000000 P)
    (h : Keeps P s u) : Keeps P s v := by
  have h1 := keeps_newMsg (a1 := a1) (a2 := a2) hP h
  rw [he] at h1
  exact h1

theorem keeps_unitOut {P : Nat} {s u : State} {a1 a2 a3 a4 a5} (hP : Fits 0x2000002000000000000000000000000000000000000000000000000000000000000000000000000000 P) (h : Keeps P s u) :
    Keeps P s (State.unitOut u a1 a2 a3 a4 a5).1 := by
  unfold State.unitOut
  repeat' (first
    | with_reducible exact h
    | with_reducible assumption
    | dsimp -zeta only
    | with_reducible refine keeps_sendFlit (hP.sub rfl) ?_
    | with_reducible refine keeps_ownNode (hP.sub rfl) ?_
    | with_reducible refine keeps_ownNode_eq (by assumption) (hP.sub rfl) ?_
    | with_reducible refine keeps_nextXid (hP.sub rfl) ?_
    | with_reducible refine keeps_nextXid_eq (by assumption) (hP.sub rfl) ?_
    | with_reducible refine keeps_newMsg (hP.sub rfl) ?_
    | with_reducible refine keeps_newMsg_eq (by assumption) (hP.sub rfl) ?_
    | intro _
    | with_reducible refine keeps_ite ?_ ?_
    | with_reducible refine keeps_ite_fst ?_ ?_
    | with_reducible refine keeps_pair (by assumption) ?_
    | split
    | fail_if_no_progress extract_lets
    | dsimp +zetaDelta only)

theorem keeps_unitOut_eq {P : Nat} {s u v : State} {a1 a2 a3 a4 a5} {x} (he : State.unitOut u a1 a2 a3 a4 a5 = (v, x)) (hP : Fits 0x2000002000000000000000000000000000000000000000000000000000000000000000000000000000 P)
    (h : Keeps P s u) : Keeps P s v := by
  have h1 := keeps_unitOut (a1 := a1) (a2 := a2) (a3 := a3) (a4 := a4) (a5 := a5) hP h
  rw [he] at h1
  exact h1

theorem keeps_sendUnit {P : Nat} {s u : State} {a1 a2 a3 a4} (hP : Fits 0x2000002000000000000000000000000000000000000000000000000000000000000000000000000000 P) (h : Keeps P s u) :
    Keeps P s (State.sendUnit u a1 a2 a3 a4).1 := by
  unfold State.sendUnit
  repeat' (first
    | with_reducible exact h
    | with_reducible assumption
    | dsimp -zeta only
    | with_reducible refine keeps_unitOut (hP.sub rfl) ?_
    | with_reducible refine keeps_unitOut_eq (by assumption) (hP.sub rfl) ?_
    | with_reducible refine keeps_fail (hP.sub rfl) ?_
    | with_reducible refine keeps_fail_eq (by assumption) (hP.sub rfl) ?_
    | intro _
    | with_reducible refine keeps_ite ?_ ?_
    | with_reducible refine keeps_ite_fst ?_ ?_
    | with_reducible refine keeps_pair (by assumption) ?_
    | split
    | fail_if_no_progress extract_lets
    | dsimp +zetaDelta only)

theorem keeps_sendUnit_eq {P : Nat} {s u v : State} {a1 a2 a3 a4} {x} (he : State.sendUnit u a1 a2 a3 a4 = (v, x)) (hP : Fits 0x2000002000000000000000000000000000000000000000000000000000000000000000000000000000 P)
    (h : Keeps P s u) : Keeps P s v := by
  have h1 := keeps_sendUnit (a1 := a1) (a2 := a2) (a3 := a3) (a4 := a4) hP h
  rw [he] at h1
  exact h1

theorem keeps_setLaunchSlot {P : Nat} {s u : State} {a1 a2 a3} (hP : Fits 0x2000000000000000000001000000000000000000000000000000000000000000000000000000000000 P) (h : Keeps P s u) :
    Keeps P s (State.setLaunchSlot u a1 a2 a3) := by
  unfold State.setLaunchSlot
  repeat' (first
    | with_reducible exact h
    | with_reducible assumption
    | dsimp -zeta only
    | with_reducible refine keeps_setWport (hP.sub rfl) ?_
    | with_reducible refine keeps_fput hP rfl ?_
    | intro _
    | with_reducible refine keeps_ite ?_ ?_
    | with_reducible refine keeps_ite_fst ?_ ?_
    | with_reducible refine keeps_pair (by assumption) ?_
    | split
    | fail_if_no_progress extract_lets
    | dsimp +zetaDelta only)

theorem keeps_bodyWaylineSend {P : Nat} {s u : State} {k} (hP : Fits 0xa1e059b000000000300001000012068000000a1002140a100000000000000000000000000000000000 P) (h : Keeps P s u) :
    Keeps P s (bodyWaylineSend k u).1 := by
  unfold bodyWaylineSend
  beta_reduce
  repeat' (first
    | with_reducible exact h
    | with_reducible assumption
    | dsimp -zeta only
    | with_reducible refine keeps_setLaunchSlot (hP.sub rfl) ?_
    | with_reducible refine keeps_sendUnit (hP.sub rfl) ?_
    | with_reducible refine keeps_sendUnit_eq (by assumption) (hP.sub rfl) ?_
    | with_reducible refine keeps_payload (hP.sub rfl) ?_
    | with_reducible refine keeps_payload_eq (by assumption) (hP.sub rfl) ?_
    | with_reducible refine keeps_fail (hP.sub rfl) ?_
    | with_reducible refine keeps_fail_eq (by assumption) (hP.sub rfl) ?_
    | with_reducible refine keeps_ok (hP.sub rfl) ?_
    | with_reducible refine keeps_ok_eq (by assumption) (hP.sub rfl) ?_
    | intro _
    | with_reducible refine keeps_ite ?_ ?_
    | with_reducible refine keeps_ite_fst ?_ ?_
    | with_reducible refine keeps_pair (by assumption) ?_
    | split
    | fail_if_no_progress extract_lets
    | dsimp +zetaDelta only)

theorem keeps_bodyWaylineSend_eq {P : Nat} {s u v : State} {k} {x} (he : bodyWaylineSend k u = (v, x)) (hP : Fits 0xa1e059b000000000300001000012068000000a1002140a100000000000000000000000000000000000 P)
    (h : Keeps P s u) : Keeps P s v := by
  have h1 := keeps_bodyWaylineSend (k := k) hP h
  rw [he] at h1
  exact h1

theorem keeps_takeMsg {P : Nat} {s u : State} {a0 a1} (hP : Fits 0x200018a000000000000000000002008000000000000000000000000000000000000000000000000000 P) (h : Keeps P s u) :
    Keeps P s (State.takeMsg a0 a1 u) := by
  unfold State.takeMsg
  repeat' (first
    | with_reducible exact h
    | with_reducible assumption
    | dsimp -zeta only
    | with_reducible refine keeps_replyFlit (hP.sub rfl) ?_
    | with_reducible refine keeps_ownNode (hP.sub rfl) ?_
    | with_reducible refine keeps_ownNode_eq (by assumption) (hP.sub rfl) ?_
    | with_reducible refine keeps_qPush (hP.sub rfl) ?_
    | with_reducible refine keeps_setDq (hP.sub rfl) ?_
    | with_reducible refine keeps_owe (hP.sub rfl) ?_
    | intro _
    | with_reducible refine keeps_ite ?_ ?_
    | with_reducible refine keeps_ite_fst ?_ ?_
    | with_reducible refine keeps_pair (by assumption) ?_
    | split
    | fail_if_no_progress extract_lets
    | dsimp +zetaDelta only)

theorem keeps_doMsg {P : Nat} {s u : State} {a1 a2} (hP : Fits 0x200018a000000000000000400002008000000000000000000000000000000000000000000000000000 P) (h : Keeps P s u) :
    Keeps P s (State.doMsg u a1 a2) := by
  unfold State.doMsg
  repeat' (first
    | with_reducible exact h
    | with_reducible assumption
    | dsimp -zeta only
    | with_reducible refine keeps_takeMsg (hP.sub rfl) ?_
    | with_reducible refine keeps_onFlit (hP.sub rfl) ?_ ?_
    | intro _
    | with_reducible refine keeps_ite ?_ ?_
    | with_reducible refine keeps_ite_fst ?_ ?_
    | with_reducible refine keeps_pair (by assumption) ?_
    | split
    | fail_if_no_progress extract_lets
    | dsimp +zetaDelta only)

theorem keeps_takeOut {P : Nat} {s u : State} {a1} (hP : Fits 0x2000000000000000000000000000000000000000000000000000000000000000000000000000000000 P) (h : Keeps P s u) :
    Keeps P s (State.takeOut u a1).1 := by
  unfold State.takeOut
  repeat' (first
    | with_reducible exact h
    | with_reducible assumption
    | dsimp -zeta only
    | intro _
    | with_reducible refine keeps_ite ?_ ?_
    | with_reducible refine keeps_ite_fst ?_ ?_
    | with_reducible refine keeps_pair (by assumption) ?_
    | split
    | fail_if_no_progress extract_lets
    | fail_if_no_progress with_reducible refine keeps_wln hP rfl ?_
    | dsimp +zetaDelta only)

theorem keeps_takeOut_eq {P : Nat} {s u v : State} {a1} {x} (he : State.takeOut u a1 = (v, x)) (hP : Fits 0x2000000000000000000000000000000000000000000000000000000000000000000000000000000000 P)
    (h : Keeps P s u) : Keeps P s v := by
  have h1 := keeps_takeOut (a1 := a1) hP h
  rw [he] at h1
  exact h1

theorem keeps_takeMsgAck {P : Nat} {s u : State} {a0 a1} (hP : Fits 0x2000e02000000000000000000000000002000000000000000000000000000000000000000000000000 P) (h : Keeps P s u) :
    Keeps P s (State.takeMsgAck a0 a1 u) := by
  unfold State.takeMsgAck
  repeat' (first
    | with_reducible exact h
    | with_reducible assumption
    | dsimp -zeta only
    | with_reducible refine keeps_endWaits (hP.sub rfl) ?_
    | with_reducible refine keeps_takeOut (hP.sub rfl) ?_
    | with_reducible refine keeps_takeOut_eq (by assumption) (hP.sub rfl) ?_
    | with_reducible refine keeps_owe (hP.sub rfl) ?_
    | intro _
    | with_reducible refine keeps_ite ?_ ?_
    | with_reducible refine keeps_ite_fst ?_ ?_
    | with_reducible refine keeps_pair (by assumption) ?_
    | split
    | fail_if_no_progress extract_lets
    | dsimp +zetaDelta only)

theorem keeps_doMsgAck {P : Nat} {s u : State} {a1 a2} (hP : Fits 0x2000e02000000000000000400000000002000000000000000000000000000000000000000000000000 P) (h : Keeps P s u) :
    Keeps P s (State.doMsgAck u a1 a2) := by
  unfold State.doMsgAck
  repeat' (first
    | with_reducible exact h
    | with_reducible assumption
    | dsimp -zeta only
    | with_reducible refine keeps_takeMsgAck (hP.sub rfl) ?_
    | with_reducible refine keeps_onFlit (hP.sub rfl) ?_ ?_
    | intro _
    | with_reducible refine keeps_ite ?_ ?_
    | with_reducible refine keeps_ite_fst ?_ ?_
    | with_reducible refine keeps_pair (by assumption) ?_
    | split
    | fail_if_no_progress extract_lets
    | dsimp +zetaDelta only)

theorem keeps_bodyWaylineForward {P : Nat} {s u : State} {k} (hP : Fits 0xa1e059b000000000300000000012068000000a1002140a100000000000000000000000000000000000 P) (h : Keeps P s u) :
    Keeps P s (bodyWaylineForward k u).1 := by
  unfold bodyWaylineForward
  beta_reduce
  repeat' (first
    | with_reducible exact h
    | with_reducible assumption
    | dsimp -zeta only
    | with_reducible refine keeps_sendUnit (hP.sub rfl) ?_
    | with_reducible refine keeps_sendUnit_eq (by assumption) (hP.sub rfl) ?_
    | with_reducible refine keeps_payload (hP.sub rfl) ?_
    | with_reducible refine keeps_payload_eq (by assumption) (hP.sub rfl) ?_
    | with_reducible refine keeps_fail (hP.sub rfl) ?_
    | with_reducible refine keeps_fail_eq (by assumption) (hP.sub rfl) ?_
    | intro _
    | with_reducible refine keeps_ite ?_ ?_
    | with_reducible refine keeps_ite_fst ?_ ?_
    | with_reducible refine keeps_pair (by assumption) ?_
    | split
    | fail_if_no_progress extract_lets
    | dsimp +zetaDelta only)

theorem keeps_bodyWaylineForward_eq {P : Nat} {s u v : State} {k} {x} (he : bodyWaylineForward k u = (v, x)) (hP : Fits 0xa1e059b000000000300000000012068000000a1002140a100000000000000000000000000000000000 P)
    (h : Keeps P s u) : Keeps P s v := by
  have h1 := keeps_bodyWaylineForward (k := k) hP h
  rw [he] at h1
  exact h1

theorem keeps_forwardEnds {P : Nat} {s u : State} {a1 a2} (hP : Fits 0x2000e02000000000000000000000000002000000000000000000000000000000000000000000000000 P) (h : Keeps P s u) :
    Keeps P s (State.forwardEnds u a1 a2) := by
  unfold State.forwardEnds
  repeat' (first
    | with_reducible exact h
    | with_reducible assumption
    | dsimp -zeta only
    | with_reducible refine keeps_concludeCode (hP.sub rfl) ?_
    | with_reducible refine keeps_foldl ?_ ?_
    | with_reducible refine keeps_foldl_fst ?_ ?_
    | intro _
    | with_reducible refine keeps_ite ?_ ?_
    | with_reducible refine keeps_ite_fst ?_ ?_
    | with_reducible refine keeps_pair (by assumption) ?_
    | split
    | fail_if_no_progress extract_lets
    | fail_if_no_progress with_reducible refine keeps_helm hP rfl ?_ rfl rfl
    | dsimp +zetaDelta only)

theorem keeps_takeFwdCpl {P : Nat} {s u : State} {a0 a1} (hP : Fits 0x2000e02000000000000000000000000002000000000000000000000000000000000000000000000000 P) (h : Keeps P s u) :
    Keeps P s (State.takeFwdCpl a0 a1 u) := by
  unfold State.takeFwdCpl
  repeat' (first
    | with_reducible exact h
    | with_reducible assumption
    | dsimp -zeta only
    | with_reducible refine keeps_forwardEnds (hP.sub rfl) ?_
    | with_reducible refine keeps_takeOut (hP.sub rfl) ?_
    | with_reducible refine keeps_takeOut_eq (by assumption) (hP.sub rfl) ?_
    | with_reducible refine keeps_owe (hP.sub rfl) ?_
    | intro _
    | with_reducible refine keeps_ite ?_ ?_
    | with_reducible refine keeps_ite_fst ?_ ?_
    | with_reducible refine keeps_pair (by assumption) ?_
    | split
    | fail_if_no_progress extract_lets
    | dsimp +zetaDelta only)

theorem keeps_doFwdCpl {P : Nat} {s u : State} {a1 a2} (hP : Fits 0x2000e02000000000000000400000000002000000000000000000000000000000000000000000000000 P) (h : Keeps P s u) :
    Keeps P s (State.doFwdCpl u a1 a2) := by
  unfold State.doFwdCpl
  repeat' (first
    | with_reducible exact h
    | with_reducible assumption
    | dsimp -zeta only
    | with_reducible refine keeps_takeFwdCpl (hP.sub rfl) ?_
    | with_reducible refine keeps_onFlit (hP.sub rfl) ?_ ?_
    | intro _
    | with_reducible refine keeps_ite ?_ ?_
    | with_reducible refine keeps_ite_fst ?_ ?_
    | with_reducible refine keeps_pair (by assumption) ?_
    | split
    | fail_if_no_progress extract_lets
    | dsimp +zetaDelta only)

theorem keeps_sendLaunch {P : Nat} {s u : State} {a1 a2 a3 a4} (hP : Fits 0x2000002000000000000001000000000000000000000000000000000000000000000000000000000000 P) (h : Keeps P s u) :
    Keeps P s (State.sendLaunch u a1 a2 a3 a4) := by
  unfold State.sendLaunch
  repeat' (first
    | with_reducible exact h
    | with_reducible assumption
    | dsimp -zeta only
    | with_reducible refine keeps_setLaunchSlot (hP.sub rfl) ?_
    | with_reducible refine keeps_sendBlock (hP.sub rfl) ?_
    | with_reducible refine keeps_setWport (hP.sub rfl) ?_
    | with_reducible refine keeps_ownNode (hP.sub rfl) ?_
    | with_reducible refine keeps_ownNode_eq (by assumption) (hP.sub rfl) ?_
    | with_reducible refine keeps_fresh (hP.sub rfl) ?_
    | with_reducible refine keeps_fresh_eq (by assumption) (hP.sub rfl) ?_
    | with_reducible refine keeps_pump (hP.sub rfl) ?_
    | with_reducible refine keeps_bump hP rfl ?_
    | intro _
    | with_reducible refine keeps_ite ?_ ?_
    | with_reducible refine keeps_ite_fst ?_ ?_
    | with_reducible refine keeps_pair (by assumption) ?_
    | split
    | fail_if_no_progress extract_lets
    | dsimp +zetaDelta only)

theorem keeps_doMsWaylineLaunch {P : Nat} {s u : State} {a1} (hP : Fits 0x2000fcb000000000000001000012068002000000000000000000000000000000000000000000000000 P) (h : Keeps P s u) :
    Keeps P s (State.doMsWaylineLaunch u a1) := by
  unfold State.doMsWaylineLaunch
  repeat' (first
    | with_reducible exact h
    | with_reducible assumption
    | dsimp -zeta only
    | with_reducible refine keeps_sendLaunch (hP.sub rfl) ?_
    | with_reducible refine keeps_msDone (hP.sub rfl) ?_
    | with_reducible refine keeps_msFire_eq (by assumption) (hP.sub rfl) ?_
    | with_reducible refine keeps_id ?_
    | intro _
    | with_reducible refine keeps_ite ?_ ?_
    | with_reducible refine keeps_ite_fst ?_ ?_
    | with_reducible refine keeps_pair (by assumption) ?_
    | split
    | fail_if_no_progress extract_lets
    | dsimp +zetaDelta only)

theorem keeps_doLaunch {P : Nat} {s u : State} {a1 a2 a3} (hP : Fits 0 P) (h : Keeps P s u) :
    Keeps P s (State.doLaunch u a1 a2 a3) := by
  unfold State.doLaunch
  repeat' (first
    | with_reducible exact h
    | with_reducible assumption
    | dsimp -zeta only
    | intro _
    | with_reducible refine keeps_ite ?_ ?_
    | with_reducible refine keeps_ite_fst ?_ ?_
    | with_reducible refine keeps_pair (by assumption) ?_
    | split
    | fail_if_no_progress extract_lets
    | dsimp +zetaDelta only)

theorem keeps_bulkAck {P : Nat} {s u : State} {a1 a2 a3} (hP : Fits 0x2000002000000000000000000000000000000000000000000000000000000000000000000000000000 P) (h : Keeps P s u) :
    Keeps P s (State.bulkAck u a1 a2 a3) := by
  unfold State.bulkAck
  repeat' (first
    | with_reducible exact h
    | with_reducible assumption
    | dsimp -zeta only
    | with_reducible refine keeps_replyFlit (hP.sub rfl) ?_
    | intro _
    | with_reducible refine keeps_ite ?_ ?_
    | with_reducible refine keeps_ite_fst ?_ ?_
    | with_reducible refine keeps_pair (by assumption) ?_
    | split
    | fail_if_no_progress extract_lets
    | dsimp +zetaDelta only)

theorem keeps_holdBulk {P : Nat} {s u : State} {a1 a2 a3 a4 a5 a6 a7 a8} (hP : Fits 0x208058a000000000000000000012068000000010000000000000000000000000000000000000000000 P) (h : Keeps P s u) :
    Keeps P s (State.holdBulk u a1 a2 a3 a4 a5 a6 a7 a8) := by
  unfold State.holdBulk
  repeat' (first
    | with_reducible exact h
    | with_reducible assumption
    | dsimp -zeta only
    | with_reducible refine keeps_raiseFault (hP.sub rfl) ?_
    | with_reducible refine keeps_raiseFault_eq (by assumption) (hP.sub rfl) ?_
    | with_reducible refine keeps_bulkAck (hP.sub rfl) ?_
    | intro _
    | with_reducible refine keeps_ite ?_ ?_
    | with_reducible refine keeps_ite_fst ?_ ?_
    | with_reducible refine keeps_pair (by assumption) ?_
    | split
    | fail_if_no_progress extract_lets
    | fail_if_no_progress with_reducible refine keeps_wln hP rfl ?_
    | dsimp +zetaDelta only)

theorem keeps_bulkWrite {P : Nat} {s u : State} {a1 a2 a3 a4 a5 a6} (hP : Fits 0xa1e059b000000000300000000012068000000a1002140a100000000000000000000000000000000000 P) (h : Keeps P s u) :
    Keeps P s (State.bulkWrite u a1 a2 a3 a4 a5 a6) := by
  unfold State.bulkWrite
  repeat' (first
    | with_reducible exact h
    | with_reducible assumption
    | dsimp -zeta only
    | with_reducible refine keeps_settleWrites (hP.sub rfl) ?_
    | with_reducible refine keeps_dvaWrite (hP.sub rfl) ?_
    | with_reducible refine keeps_dvaWrite_eq (by assumption) (hP.sub rfl) ?_
    | with_reducible refine keeps_holdBulk (hP.sub rfl) ?_
    | with_reducible refine keeps_bulkAck (hP.sub rfl) ?_
    | intro _
    | with_reducible refine keeps_ite ?_ ?_
    | with_reducible refine keeps_ite_fst ?_ ?_
    | with_reducible refine keeps_pair (by assumption) ?_
    | split
    | fail_if_no_progress extract_lets
    | dsimp +zetaDelta only)

theorem keeps_bulkRead {P : Nat} {s u : State} {a1 a2 a3 a4 a5 a6} (hP : Fits 0xa1e059b000000000300000000012068000000a1002140a100000000000000000000000000000000000 P) (h : Keeps P s u) :
    Keeps P s (State.bulkRead u a1 a2 a3 a4 a5 a6) := by
  unfold State.bulkRead
  repeat' (first
    | with_reducible exact h
    | with_reducible assumption
    | dsimp -zeta only
    | with_reducible refine keeps_sendFlit (hP.sub rfl) ?_
    | with_reducible refine keeps_holdBulk (hP.sub rfl) ?_
    | with_reducible refine keeps_dvaRead (hP.sub rfl) ?_
    | with_reducible refine keeps_dvaRead_eq (by assumption) (hP.sub rfl) ?_
    | with_reducible refine keeps_bulkAck (hP.sub rfl) ?_
    | with_reducible refine keeps_ownNode (hP.sub rfl) ?_
    | with_reducible refine keeps_ownNode_eq (by assumption) (hP.sub rfl) ?_
    | with_reducible refine keeps_foldl ?_ ?_
    | with_reducible refine keeps_foldl_fst ?_ ?_
    | intro _
    | with_reducible refine keeps_ite ?_ ?_
    | with_reducible refine keeps_ite_fst ?_ ?_
    | with_reducible refine keeps_pair (by assumption) ?_
    | split
    | fail_if_no_progress extract_lets
    | dsimp +zetaDelta only)

theorem keeps_takeBulkWr {P : Nat} {s u : State} {a0 a1} (hP : Fits 0xa1e059b000000000300000000012068000000a1002140a100000000000000000000000000000000000 P) (h : Keeps P s u) :
    Keeps P s (State.takeBulkWr a0 a1 u) := by
  unfold State.takeBulkWr
  repeat' (first
    | with_reducible exact h
    | with_reducible assumption
    | dsimp -zeta only
    | with_reducible refine keeps_bulkWrite (hP.sub rfl) ?_
    | with_reducible refine keeps_collect (hP.sub rfl) ?_
    | with_reducible refine keeps_collect_eq (by assumption) (hP.sub rfl) ?_
    | with_reducible refine keeps_owe (hP.sub rfl) ?_
    | intro _
    | with_reducible refine keeps_ite ?_ ?_
    | with_reducible refine keeps_ite_fst ?_ ?_
    | with_reducible refine keeps_pair (by assumption) ?_
    | split
    | fail_if_no_progress extract_lets
    | dsimp +zetaDelta only)

theorem keeps_doBulkWr {P : Nat} {s u : State} {a1 a2} (hP : Fits 0xa1e059b000000000300000400012068000000a1002140a100000000000000000000000000000000000 P) (h : Keeps P s u) :
    Keeps P s (State.doBulkWr u a1 a2) := by
  unfold State.doBulkWr
  repeat' (first
    | with_reducible exact h
    | with_reducible assumption
    | dsimp -zeta only
    | with_reducible refine keeps_takeBulkWr (hP.sub rfl) ?_
    | with_reducible refine keeps_onFlit (hP.sub rfl) ?_ ?_
    | intro _
    | with_reducible refine keeps_ite ?_ ?_
    | with_reducible refine keeps_ite_fst ?_ ?_
    | with_reducible refine keeps_pair (by assumption) ?_
    | split
    | fail_if_no_progress extract_lets
    | dsimp +zetaDelta only)

theorem keeps_takeBulkRdReq {P : Nat} {s u : State} {a0 a1} (hP : Fits 0xa1e059b000000000300000000012068000000a1002140a100000000000000000000000000000000000 P) (h : Keeps P s u) :
    Keeps P s (State.takeBulkRdReq a0 a1 u) := by
  unfold State.takeBulkRdReq
  repeat' (first
    | with_reducible exact h
    | with_reducible assumption
    | dsimp -zeta only
    | with_reducible refine keeps_bulkRead (hP.sub rfl) ?_
    | with_reducible refine keeps_owe (hP.sub rfl) ?_
    | intro _
    | with_reducible refine keeps_ite ?_ ?_
    | with_reducible refine keeps_ite_fst ?_ ?_
    | with_reducible refine keeps_pair (by assumption) ?_
    | split
    | fail_if_no_progress extract_lets
    | dsimp +zetaDelta only)

theorem keeps_doBulkRdReq {P : Nat} {s u : State} {a1 a2} (hP : Fits 0xa1e059b000000000300000400012068000000a1002140a100000000000000000000000000000000000 P) (h : Keeps P s u) :
    Keeps P s (State.doBulkRdReq u a1 a2) := by
  unfold State.doBulkRdReq
  repeat' (first
    | with_reducible exact h
    | with_reducible assumption
    | dsimp -zeta only
    | with_reducible refine keeps_takeBulkRdReq (hP.sub rfl) ?_
    | with_reducible refine keeps_onFlit (hP.sub rfl) ?_ ?_
    | intro _
    | with_reducible refine keeps_ite ?_ ?_
    | with_reducible refine keeps_ite_fst ?_ ?_
    | with_reducible refine keeps_pair (by assumption) ?_
    | split
    | fail_if_no_progress extract_lets
    | dsimp +zetaDelta only)

theorem keeps_serveHolds {P : Nat} {s u : State} (hP : Fits 0xa1e059b000000000300000000012068000000a1002140a100000000000000000000000000000000000 P) (h : Keeps P s u) :
    Keeps P s (State.serveHolds u) := by
  unfold State.serveHolds
  repeat' (first
    | with_reducible exact h
    | with_reducible assumption
    | dsimp -zeta only
    | with_reducible refine keeps_bulkWrite (hP.sub rfl) ?_
    | with_reducible refine keeps_bulkRead (hP.sub rfl) ?_
    | with_reducible refine keeps_foldl ?_ ?_
    | with_reducible refine keeps_foldl_fst ?_ ?_
    | intro _
    | with_reducible refine keeps_ite ?_ ?_
    | with_reducible refine keeps_ite_fst ?_ ?_
    | with_reducible refine keeps_pair (by assumption) ?_
    | split
    | fail_if_no_progress extract_lets
    | fail_if_no_progress with_reducible refine keeps_wln hP rfl ?_
    | dsimp +zetaDelta only)

theorem keeps_failHolds {P : Nat} {s u : State} {a1} (hP : Fits 0x2000002000000000000000000000000000000000000000000000000000000000000000000000000000 P) (h : Keeps P s u) :
    Keeps P s (State.failHolds u a1) := by
  unfold State.failHolds
  repeat' (first
    | with_reducible exact h
    | with_reducible assumption
    | dsimp -zeta only
    | with_reducible refine keeps_bulkAck (hP.sub rfl) ?_
    | with_reducible refine keeps_id ?_
    | with_reducible refine keeps_foldl ?_ ?_
    | with_reducible refine keeps_foldl_fst ?_ ?_
    | intro _
    | with_reducible refine keeps_ite ?_ ?_
    | with_reducible refine keeps_ite_fst ?_ ?_
    | with_reducible refine keeps_pair (by assumption) ?_
    | split
    | fail_if_no_progress extract_lets
    | fail_if_no_progress with_reducible refine keeps_wln hP rfl ?_
    | dsimp +zetaDelta only)

theorem keeps_doBulkFaultTimeout {P : Nat} {s u : State} {a1} (hP : Fits 0x2080003000000000000000000000000000000000000000000000000000000000000000000000000000 P) (h : Keeps P s u) :
    Keeps P s (State.doBulkFaultTimeout u a1) := by
  unfold State.doBulkFaultTimeout
  repeat' (first
    | with_reducible exact h
    | with_reducible assumption
    | dsimp -zeta only
    | with_reducible refine keeps_failHolds (hP.sub rfl) ?_
    | with_reducible refine keeps_advance (hP.sub rfl) ?_
    | with_reducible refine keeps_setSlot (hP.sub rfl) ?_
    | with_reducible refine keeps_id ?_
    | intro _
    | with_reducible refine keeps_ite ?_ ?_
    | with_reducible refine keeps_ite_fst ?_ ?_
    | with_reducible refine keeps_pair (by assumption) ?_
    | split
    | fail_if_no_progress extract_lets
    | dsimp +zetaDelta only)

theorem keeps_takeBulk {P : Nat} {s u : State} {a1} (hP : Fits 0x2000000000000000000000000000000000000000000000000000000000000000000000000000000000 P) (h : Keeps P s u) :
    Keeps P s (State.takeBulk u a1).1 := by
  unfold State.takeBulk
  repeat' (first
    | with_reducible exact h
    | with_reducible assumption
    | dsimp -zeta only
    | intro _
    | with_reducible refine keeps_ite ?_ ?_
    | with_reducible refine keeps_ite_fst ?_ ?_
    | with_reducible refine keeps_pair (by assumption) ?_
    | split
    | fail_if_no_progress extract_lets
    | fail_if_no_progress with_reducible refine keeps_wln hP rfl ?_
    | dsimp +zetaDelta only)

theorem keeps_takeBulk_eq {P : Nat} {s u v : State} {a1} {x} (he : State.takeBulk u a1 = (v, x)) (hP : Fits 0x2000000000000000000000000000000000000000000000000000000000000000000000000000000000 P)
    (h : Keeps P s u) : Keeps P s v := by
  have h1 := keeps_takeBulk (a1 := a1) hP h
  rw [he] at h1
  exact h1

theorem keeps_bulkFails {P : Nat} {s u : State} {a1} (hP : Fits 0xa1e059b000000000300000000012068000000a1002140a100000000000000000000000000000000000 P) (h : Keeps P s u) :
    Keeps P s (State.bulkFails u a1) := by
  unfold State.bulkFails
  repeat' (first
    | with_reducible exact h
    | with_reducible assumption
    | dsimp -zeta only
    | with_reducible refine keeps_granuleFault (hP.sub rfl) ?_
    | with_reducible refine keeps_dmaFill (hP.sub rfl) ?_
    | intro _
    | with_reducible refine keeps_ite ?_ ?_
    | with_reducible refine keeps_ite_fst ?_ ?_
    | with_reducible refine keeps_pair (by assumption) ?_
    | split
    | fail_if_no_progress extract_lets
    | dsimp +zetaDelta only)

theorem keeps_takeBulkAck {P : Nat} {s u : State} {a0 a1} (hP : Fits 0xa1e059b000000000300000000012068000000e1002140a100000000000000000000000000000000000 P) (h : Keeps P s u) :
    Keeps P s (State.takeBulkAck a0 a1 u) := by
  unfold State.takeBulkAck
  repeat' (first
    | with_reducible exact h
    | with_reducible assumption
    | dsimp -zeta only
    | with_reducible refine keeps_granuleWritten (hP.sub rfl) ?_
    | with_reducible refine keeps_bulkFails (hP.sub rfl) ?_
    | with_reducible refine keeps_takeBulk (hP.sub rfl) ?_
    | with_reducible refine keeps_takeBulk_eq (by assumption) (hP.sub rfl) ?_
    | with_reducible refine keeps_dmaFill (hP.sub rfl) ?_
    | with_reducible refine keeps_owe (hP.sub rfl) ?_
    | intro _
    | with_reducible refine keeps_ite ?_ ?_
    | with_reducible refine keeps_ite_fst ?_ ?_
    | with_reducible refine keeps_pair (by assumption) ?_
    | split
    | fail_if_no_progress extract_lets
    | dsimp +zetaDelta only)

theorem keeps_doBulkAck {P : Nat} {s u : State} {a1 a2} (hP : Fits 0xa1e059b000000000300000400012068000000e1002140a100000000000000000000000000000000000 P) (h : Keeps P s u) :
    Keeps P s (State.doBulkAck u a1 a2) := by
  unfold State.doBulkAck
  repeat' (first
    | with_reducible exact h
    | with_reducible assumption
    | dsimp -zeta only
    | with_reducible refine keeps_takeBulkAck (hP.sub rfl) ?_
    | with_reducible refine keeps_onFlit (hP.sub rfl) ?_ ?_
    | intro _
    | with_reducible refine keeps_ite ?_ ?_
    | with_reducible refine keeps_ite_fst ?_ ?_
    | with_reducible refine keeps_pair (by assumption) ?_
    | split
    | fail_if_no_progress extract_lets
    | dsimp +zetaDelta only)

theorem keeps_takeBulkRdData {P : Nat} {s u : State} {a0 a1} (hP : Fits 0xa1e059f000000000300000000012068000000e1002140a100000000000000000000000000000000000 P) (h : Keeps P s u) :
    Keeps P s (State.takeBulkRdData a0 a1 u) := by
  unfold State.takeBulkRdData
  repeat' (first
    | with_reducible exact h
    | with_reducible assumption
    | dsimp -zeta only
    | with_reducible refine keeps_granuleWritten (hP.sub rfl) ?_
    | with_reducible refine keeps_granuleStore (hP.sub rfl) ?_
    | with_reducible refine keeps_granuleStore_eq (by assumption) (hP.sub rfl) ?_
    | with_reducible refine keeps_granuleFault (hP.sub rfl) ?_
    | with_reducible refine keeps_bulkFails (hP.sub rfl) ?_
    | with_reducible refine keeps_takeBulk (hP.sub rfl) ?_
    | with_reducible refine keeps_takeBulk_eq (by assumption) (hP.sub rfl) ?_
    | with_reducible refine keeps_collect (hP.sub rfl) ?_
    | with_reducible refine keeps_collect_eq (by assumption) (hP.sub rfl) ?_
    | with_reducible refine keeps_dmaFill (hP.sub rfl) ?_
    | with_reducible refine keeps_owe (hP.sub rfl) ?_
    | intro _
    | with_reducible refine keeps_ite ?_ ?_
    | with_reducible refine keeps_ite_fst ?_ ?_
    | with_reducible refine keeps_pair (by assumption) ?_
    | split
    | fail_if_no_progress extract_lets
    | dsimp +zetaDelta only)

theorem keeps_doBulkRdData {P : Nat} {s u : State} {a1 a2} (hP : Fits 0xa1e059f000000000300000400012068000000e1002140a100000000000000000000000000000000000 P) (h : Keeps P s u) :
    Keeps P s (State.doBulkRdData u a1 a2) := by
  unfold State.doBulkRdData
  repeat' (first
    | with_reducible exact h
    | with_reducible assumption
    | dsimp -zeta only
    | with_reducible refine keeps_takeBulkRdData (hP.sub rfl) ?_
    | with_reducible refine keeps_onFlit (hP.sub rfl) ?_ ?_
    | intro _
    | with_reducible refine keeps_ite ?_ ?_
    | with_reducible refine keeps_ite_fst ?_ ?_
    | with_reducible refine keeps_pair (by assumption) ?_
    | split
    | fail_if_no_progress extract_lets
    | dsimp +zetaDelta only)

theorem keeps_doTimeExchangeTimer {P : Nat} {s u : State} {a1 a2} (hP : Fits 0x2000001000000000000000000000000000000000000000000000000000000000000000000000000000 P) (h : Keeps P s u) :
    Keeps P s (State.doTimeExchangeTimer u a1 a2) := by
  unfold State.doTimeExchangeTimer
  repeat' (first
    | with_reducible exact h
    | with_reducible assumption
    | dsimp -zeta only
    | with_reducible refine keeps_sendBlock (hP.sub rfl) ?_
    | with_reducible refine keeps_setWport (hP.sub rfl) ?_
    | with_reducible refine keeps_advance (hP.sub rfl) ?_
    | intro _
    | with_reducible refine keeps_ite ?_ ?_
    | with_reducible refine keeps_ite_fst ?_ ?_
    | with_reducible refine keeps_pair (by assumption) ?_
    | split
    | fail_if_no_progress extract_lets
    | dsimp +zetaDelta only)

theorem keeps_doTimeReq {P : Nat} {s u : State} {a1 a2 a3 a4} (hP : Fits 0x2000001000000000000000000000000000000000000000000000000000000000000000000000000000 P) (h : Keeps P s u) :
    Keeps P s (State.doTimeReq u a1 a2 a3 a4) := by
  unfold State.doTimeReq
  repeat' (first
    | with_reducible exact h
    | with_reducible assumption
    | dsimp -zeta only
    | with_reducible refine keeps_sendBlock (hP.sub rfl) ?_
    | with_reducible refine keeps_advance (hP.sub rfl) ?_
    | intro _
    | with_reducible refine keeps_ite ?_ ?_
    | with_reducible refine keeps_ite_fst ?_ ?_
    | with_reducible refine keeps_pair (by assumption) ?_
    | split
    | fail_if_no_progress extract_lets
    | dsimp +zetaDelta only)

theorem keeps_doTimeT2 {P : Nat} {s u : State} {a1 a2 a3 a4} (hP : Fits 0x2000001000000000000000000000000000000000000000000000000000000000000000000000000000 P) (h : Keeps P s u) :
    Keeps P s (State.doTimeT2 u a1 a2 a3 a4) := by
  unfold State.doTimeT2
  repeat' (first
    | with_reducible exact h
    | with_reducible assumption
    | dsimp -zeta only
    | with_reducible refine keeps_setWport (hP.sub rfl) ?_
    | with_reducible refine keeps_advance (hP.sub rfl) ?_
    | intro _
    | with_reducible refine keeps_ite ?_ ?_
    | with_reducible refine keeps_ite_fst ?_ ?_
    | with_reducible refine keeps_pair (by assumption) ?_
    | split
    | fail_if_no_progress extract_lets
    | dsimp +zetaDelta only)

theorem keeps_freeQuot {P : Nat} {s u : State} {a1 a2} (hP : Fits 0x2000000000000000000000000000000000000000000000000000000000000000000000000000 P) (h : Keeps P s u) :
    Keeps P s (State.freeQuot u a1 a2).1 := by
  unfold State.freeQuot
  repeat' (first
    | with_reducible exact h
    | with_reducible assumption
    | dsimp -zeta only
    | with_reducible refine keeps_fresh (hP.sub rfl) ?_
    | with_reducible refine keeps_fresh_eq (by assumption) (hP.sub rfl) ?_
    | intro _
    | with_reducible refine keeps_ite ?_ ?_
    | with_reducible refine keeps_ite_fst ?_ ?_
    | with_reducible refine keeps_pair (by assumption) ?_
    | split
    | fail_if_no_progress extract_lets
    | dsimp +zetaDelta only)

theorem keeps_freeQuot_eq {P : Nat} {s u v : State} {a1 a2} {x} (he : State.freeQuot u a1 a2 = (v, x)) (hP : Fits 0x2000000000000000000000000000000000000000000000000000000000000000000000000000 P)
    (h : Keeps P s u) : Keeps P s v := by
  have h1 := keeps_freeQuot (a1 := a1) (a2 := a2) hP h
  rw [he] at h1
  exact h1

theorem keeps_almanacDigest {P : Nat} {s u : State} {a1} (hP : Fits 0x8000402000000000300000000000000000000000000000000000000000000000000000000070000000 P) (h : Keeps P s u) :
    Keeps P s (State.almanacDigest u a1).1 := by
  unfold State.almanacDigest
  repeat' (first
    | with_reducible exact h
    | with_reducible assumption
    | dsimp -zeta only
    | with_reducible refine keeps_readAlm (hP.sub rfl) ?_
    | with_reducible refine keeps_readAlm_eq (by assumption) (hP.sub rfl) ?_
    | with_reducible refine keeps_foldl ?_ ?_
    | with_reducible refine keeps_foldl_fst ?_ ?_
    | intro _
    | with_reducible refine keeps_ite ?_ ?_
    | with_reducible refine keeps_ite_fst ?_ ?_
    | with_reducible refine keeps_pair (by assumption) ?_
    | split
    | fail_if_no_progress extract_lets
    | dsimp +zetaDelta only)

theorem keeps_almanacDigest_eq {P : Nat} {s u v : State} {a1} {x} (he : State.almanacDigest u a1 = (v, x)) (hP : Fits 0x8000402000000000300000000000000000000000000000000000000000000000000000000070000000 P)
    (h : Keeps P s u) : Keeps P s v := by
  have h1 := keeps_almanacDigest (a1 := a1) hP h
  rw [he] at h1
  exact h1

theorem keeps_fillManifest {P : Nat} {s u : State} {a1} (hP : Fits 0x8000402000000000300000000000000000000000000000000000000000000000000000000070000000 P) (h : Keeps P s u) :
    Keeps P s (State.fillManifest u a1).1 := by
  unfold State.fillManifest
  repeat' (first
    | with_reducible exact h
    | with_reducible assumption
    | dsimp -zeta only
    | with_reducible refine keeps_almanacDigest (hP.sub rfl) ?_
    | with_reducible refine keeps_almanacDigest_eq (by assumption) (hP.sub rfl) ?_
    | with_reducible refine keeps_id ?_
    | with_reducible refine keeps_foldl ?_ ?_
    | with_reducible refine keeps_foldl_fst ?_ ?_
    | intro _
    | with_reducible refine keeps_ite ?_ ?_
    | with_reducible refine keeps_ite_fst ?_ ?_
    | with_reducible refine keeps_pair (by assumption) ?_
    | split
    | fail_if_no_progress extract_lets
    | dsimp +zetaDelta only)

theorem keeps_fillManifest_eq {P : Nat} {s u v : State} {a1} {x} (he : State.fillManifest u a1 = (v, x)) (hP : Fits 0x8000402000000000300000000000000000000000000000000000000000000000000000000070000000 P)
    (h : Keeps P s u) : Keeps P s v := by
  have h1 := keeps_fillManifest (a1 := a1) hP h
  rw [he] at h1
  exact h1

theorem keeps_musterEnds {P : Nat} {s u : State} {a1 a2} (hP : Fits 0xa000e020000000003000000090c0000002000000000000000000000000000000000000000000000000 P) (h : Keeps P s u) :
    Keeps P s (State.musterEnds u a1 a2) := by
  unfold State.musterEnds
  repeat' (first
    | with_reducible exact h
    | with_reducible assumption
    | dsimp -zeta only
    | with_reducible refine keeps_aggChanged (hP.sub rfl) ?_
    | with_reducible refine keeps_logWrite (hP.sub rfl) ?_
    | with_reducible refine keeps_endWaits (hP.sub rfl) ?_
    | with_reducible refine keeps_fput hP rfl ?_
    | with_reducible refine keeps_foldl ?_ ?_
    | with_reducible refine keeps_foldl_fst ?_ ?_
    | intro _
    | with_reducible refine keeps_ite ?_ ?_
    | with_reducible refine keeps_ite_fst ?_ ?_
    | with_reducible refine keeps_pair (by assumption) ?_
    | split
    | fail_if_no_progress extract_lets
    | fail_if_no_progress with_reducible refine keeps_wln hP rfl ?_
    | dsimp +zetaDelta only)

theorem keeps_spreadVerdict {P : Nat} {s u : State} {a1 a2} (hP : Fits 0xa000e020000000003000000090c0000002000000000000000000000000000000000000000000000000 P) (h : Keeps P s u) :
    Keeps P s (State.spreadVerdict u a1 a2) := by
  unfold State.spreadVerdict
  repeat' (first
    | with_reducible exact h
    | with_reducible assumption
    | dsimp -zeta only
    | with_reducible refine keeps_sendMuster (hP.sub rfl) ?_
    | with_reducible refine keeps_musterEnds (hP.sub rfl) ?_
    | with_reducible refine keeps_foldl ?_ ?_
    | with_reducible refine keeps_foldl_fst ?_ ?_
    | intro _
    | with_reducible refine keeps_ite ?_ ?_
    | with_reducible refine keeps_ite_fst ?_ ?_
    | with_reducible refine keeps_pair (by assumption) ?_
    | split
    | fail_if_no_progress extract_lets
    | dsimp +zetaDelta only)

theorem keeps_rootDecides {P : Nat} {s u : State} (hP : Fits 0xa000e020000000003000000090c0000002000000000000000000000000000000000000000000000000 P) (h : Keeps P s u) :
    Keeps P s (State.rootDecides u) := by
  unfold State.rootDecides
  repeat' (first
    | with_reducible exact h
    | with_reducible assumption
    | dsimp -zeta only
    | with_reducible refine keeps_spreadVerdict (hP.sub rfl) ?_
    | intro _
    | with_reducible refine keeps_ite ?_ ?_
    | with_reducible refine keeps_ite_fst ?_ ?_
    | with_reducible refine keeps_pair (by assumption) ?_
    | split
    | fail_if_no_progress extract_lets
    | dsimp +zetaDelta only)

theorem keeps_addManifest {P : Nat} {s u : State} {a1} (hP : Fits 0xa000e020000000003000000090c0000002000000000000000000000000000000000000000000000000 P) (h : Keeps P s u) :
    Keeps P s (State.addManifest u a1) := by
  unfold State.addManifest
  repeat' (first
    | with_reducible exact h
    | with_reducible assumption
    | dsimp -zeta only
    | with_reducible refine keeps_rootDecides (hP.sub rfl) ?_
    | intro _
    | with_reducible refine keeps_ite ?_ ?_
    | with_reducible refine keeps_ite_fst ?_ ?_
    | with_reducible refine keeps_pair (by assumption) ?_
    | split
    | fail_if_no_progress extract_lets
    | fail_if_no_progress with_reducible refine keeps_wln hP rfl ?_
    | dsimp +zetaDelta only)

theorem keeps_sendManifestBytes {P : Nat} {s u : State} {a1 a2} (hP : Fits 0x2000002000000000000000000000000000000000000000000000000000000000000000000000000000 P) (h : Keeps P s u) :
    Keeps P s (State.sendManifestBytes u a1 a2) := by
  unfold State.sendManifestBytes
  repeat' (first
    | with_reducible exact h
    | with_reducible assumption
    | dsimp -zeta only
    | with_reducible refine keeps_sendMuster (hP.sub rfl) ?_
    | intro _
    | with_reducible refine keeps_ite ?_ ?_
    | with_reducible refine keeps_ite_fst ?_ ?_
    | with_reducible refine keeps_pair (by assumption) ?_
    | split
    | fail_if_no_progress extract_lets
    | dsimp +zetaDelta only)

theorem keeps_passManifest {P : Nat} {s u : State} {a1} (hP : Fits 0xa000e020000000003000000090c0000002000000000000000000000000000000000000000000000000 P) (h : Keeps P s u) :
    Keeps P s (State.passManifest u a1) := by
  unfold State.passManifest
  repeat' (first
    | with_reducible exact h
    | with_reducible assumption
    | dsimp -zeta only
    | with_reducible refine keeps_sendManifestBytes (hP.sub rfl) ?_
    | with_reducible refine keeps_addManifest (hP.sub rfl) ?_
    | intro _
    | with_reducible refine keeps_ite ?_ ?_
    | with_reducible refine keeps_ite_fst ?_ ?_
    | with_reducible refine keeps_pair (by assumption) ?_
    | split
    | fail_if_no_progress extract_lets
    | fail_if_no_progress with_reducible refine keeps_wln hP rfl ?_
    | dsimp +zetaDelta only)

theorem keeps_sendOwnManifest {P : Nat} {s u : State} (hP : Fits 0xa000e020000000003000000090c0000002000000000000000000000000000000000000000070000000 P) (h : Keeps P s u) :
    Keeps P s (State.sendOwnManifest u) := by
  unfold State.sendOwnManifest
  repeat' (first
    | with_reducible exact h
    | with_reducible assumption
    | dsimp -zeta only
    | with_reducible refine keeps_fillManifest (hP.sub rfl) ?_
    | with_reducible refine keeps_fillManifest_eq (by assumption) (hP.sub rfl) ?_
    | with_reducible refine keeps_passManifest (hP.sub rfl) ?_
    | intro _
    | with_reducible refine keeps_ite ?_ ?_
    | with_reducible refine keeps_ite_fst ?_ ?_
    | with_reducible refine keeps_pair (by assumption) ?_
    | split
    | fail_if_no_progress extract_lets
    | dsimp +zetaDelta only)

theorem keeps_sendHellos {P : Nat} {s u : State} (hP : Fits 0x2000002000000000000000000000000000000000000000000000000000000000000000000000000000 P) (h : Keeps P s u) :
    Keeps P s (State.sendHellos u) := by
  unfold State.sendHellos
  repeat' (first
    | with_reducible exact h
    | with_reducible assumption
    | dsimp -zeta only
    | with_reducible refine keeps_sendMuster (hP.sub rfl) ?_
    | with_reducible refine keeps_foldl ?_ ?_
    | with_reducible refine keeps_foldl_fst ?_ ?_
    | intro _
    | with_reducible refine keeps_ite ?_ ?_
    | with_reducible refine keeps_ite_fst ?_ ?_
    | with_reducible refine keeps_pair (by assumption) ?_
    | split
    | fail_if_no_progress extract_lets
    | dsimp +zetaDelta only)

theorem keeps_merNotFree {P : Nat} {s u : State} (hP : Fits 0xa000e020000000003000000090c0000002000000000000000000000000000000000000000070000000 P) (h : Keeps P s u) :
    Keeps P s (State.merNotFree u) := by
  unfold State.merNotFree
  repeat' (first
    | with_reducible exact h
    | with_reducible assumption
    | dsimp -zeta only
    | with_reducible refine keeps_sendOwnManifest (hP.sub rfl) ?_
    | intro _
    | with_reducible refine keeps_ite ?_ ?_
    | with_reducible refine keeps_ite_fst ?_ ?_
    | with_reducible refine keeps_pair (by assumption) ?_
    | split
    | fail_if_no_progress extract_lets
    | fail_if_no_progress with_reducible refine keeps_wln hP rfl ?_
    | dsimp +zetaDelta only)

theorem keeps_chooseParent {P : Nat} {s u : State} (hP : Fits 0xa000e020000000003000000090c0000002000000000000000000000000000000000000000070000000 P) (h : Keeps P s u) :
    Keeps P s (State.chooseParent u) := by
  unfold State.chooseParent
  repeat' (first
    | with_reducible exact h
    | with_reducible assumption
    | dsimp -zeta only
    | with_reducible refine keeps_sendHellos (hP.sub rfl) ?_
    | with_reducible refine keeps_merNotFree (hP.sub rfl) ?_
    | intro _
    | with_reducible refine keeps_ite ?_ ?_
    | with_reducible refine keeps_ite_fst ?_ ?_
    | with_reducible refine keeps_pair (by assumption) ?_
    | split
    | fail_if_no_progress extract_lets
    | fail_if_no_progress with_reducible refine keeps_wln hP rfl ?_
    | dsimp +zetaDelta only)

theorem keeps_beginMuster {P : Nat} {s u : State} {a1 a2} (hP : Fits 0xa000e020000000003000000090c0000002000000000000000000000000000000000000000070000000 P) (h : Keeps P s u) :
    Keeps P s (State.beginMuster u a1 a2) := by
  unfold State.beginMuster
  repeat' (first
    | with_reducible exact h
    | with_reducible assumption
    | dsimp -zeta only
    | with_reducible refine keeps_chooseParent (hP.sub rfl) ?_
    | with_reducible refine keeps_sendHellos (hP.sub rfl) ?_
    | with_reducible refine keeps_setWport (hP.sub rfl) ?_
    | with_reducible refine keeps_fput hP rfl ?_
    | with_reducible refine keeps_foldl ?_ ?_
    | with_reducible refine keeps_foldl_fst ?_ ?_
    | intro _
    | with_reducible refine keeps_ite ?_ ?_
    | with_reducible refine keeps_ite_fst ?_ ?_
    | with_reducible refine keeps_pair (by assumption) ?_
    | split
    | fail_if_no_progress extract_lets
    | fail_if_no_progress with_reducible refine keeps_wln hP rfl ?_
    | dsimp +zetaDelta only)

theorem keeps_bodyMuster {P : Nat} {s u : State} {k} (hP : Fits 0xa1e0f9b0000000003000000090d2068002000a1002140a100000000000000000000000000070000000 P) (h : Keeps P s u) :
    Keeps P s (bodyMuster k u).1 := by
  unfold bodyMuster
  beta_reduce
  repeat' (first
    | with_reducible exact h
    | with_reducible assumption
    | dsimp -zeta only
    | with_reducible refine keeps_beginMuster (hP.sub rfl) ?_
    | with_reducible refine keeps_payload (hP.sub rfl) ?_
    | with_reducible refine keeps_payload_eq (by assumption) (hP.sub rfl) ?_
    | with_reducible refine keeps_fail (hP.sub rfl) ?_
    | with_reducible refine keeps_fail_eq (by assumption) (hP.sub rfl) ?_
    | intro _
    | with_reducible refine keeps_ite ?_ ?_
    | with_reducible refine keeps_ite_fst ?_ ?_
    | with_reducible refine keeps_pair (by assumption) ?_
    | split
    | fail_if_no_progress extract_lets
    | dsimp +zetaDelta only)

theorem keeps_bodyMuster_eq {P : Nat} {s u v : State} {k} {x} (he : bodyMuster k u = (v, x)) (hP : Fits 0xa1e0f9b0000000003000000090d2068002000a1002140a100000000000000000000000000070000000 P)
    (h : Keeps P s u) : Keeps P s v := by
  have h1 := keeps_bodyMuster (k := k) hP h
  rw [he] at h1
  exact h1

theorem keeps_musterStarted {P : Nat} {s u : State} (hP : Fits 0xa000e020000000003000000090c0000002000000000000000000000000000000000000000070000000 P) (h : Keeps P s u) :
    Keeps P s (State.musterStarted u) := by
  unfold State.musterStarted
  repeat' (first
    | with_reducible exact h
    | with_reducible assumption
    | dsimp -zeta only
    | with_reducible refine keeps_sendOwnManifest (hP.sub rfl) ?_
    | intro _
    | with_reducible refine keeps_ite ?_ ?_
    | with_reducible refine keeps_ite_fst ?_ ?_
    | with_reducible refine keeps_pair (by assumption) ?_
    | split
    | fail_if_no_progress extract_lets
    | dsimp +zetaDelta only)

theorem keeps_takeMuster {P : Nat} {s u : State} {a0 a1} (hP : Fits 0xa5f9fdb0000000003000004290d2068002000a1002140a1000000000000000006cff01c1d871000000 P) (h : Keeps P s u) :
    Keeps P s (State.takeMuster a0 a1 u) := by
  unfold State.takeMuster
  repeat' (first
    | with_reducible exact h
    | with_reducible assumption
    | dsimp -zeta only
    | with_reducible refine keeps_sendManifestBytes (hP.sub rfl) ?_
    | with_reducible refine keeps_musterStarted (hP.sub rfl) ?_
    | with_reducible refine keeps_spreadVerdict (hP.sub rfl) ?_
    | with_reducible refine keeps_chooseParent (hP.sub rfl) ?_
    | with_reducible refine keeps_addManifest (hP.sub rfl) ?_
    | with_reducible refine keeps_convoyBreak (hP.sub rfl) ?_
    | with_reducible refine keeps_setWport (hP.sub rfl) ?_
    | with_reducible refine keeps_owe (hP.sub rfl) ?_
    | with_reducible refine keeps_fput hP rfl ?_
    | with_reducible refine keeps_bump hP rfl ?_
    | intro _
    | with_reducible refine keeps_ite ?_ ?_
    | with_reducible refine keeps_ite_fst ?_ ?_
    | with_reducible refine keeps_pair (by assumption) ?_
    | split
    | fail_if_no_progress extract_lets
    | fail_if_no_progress with_reducible refine keeps_wln hP rfl ?_
    | dsimp +zetaDelta only)

theorem keeps_doMusterFlit {P : Nat} {s u : State} {a1 a2} (hP : Fits 0xa5f9fdb0000000003000004290d2068002000a1002140a1000000000000000006cff01c1d871000000 P) (h : Keeps P s u) :
    Keeps P s (State.doMusterFlit u a1 a2) := by
  unfold State.doMusterFlit
  repeat' (first
    | with_reducible exact h
    | with_reducible assumption
    | dsimp -zeta only
    | with_reducible refine keeps_takeMuster (hP.sub rfl) ?_
    | with_reducible refine keeps_onFlit (hP.sub rfl) ?_ ?_
    | intro _
    | with_reducible refine keeps_ite ?_ ?_
    | with_reducible refine keeps_ite_fst ?_ ?_
    | with_reducible refine keeps_pair (by assumption) ?_
    | split
    | fail_if_no_progress extract_lets
    | dsimp +zetaDelta only)

theorem keeps_doMusterOffsetTimeout {P : Nat} {s u : State} (hP : Fits 0xa000e030000000003000000090c0000002000000000000000000000000000000000000000070000000 P) (h : Keeps P s u) :
    Keeps P s (State.doMusterOffsetTimeout u) := by
  unfold State.doMusterOffsetTimeout
  repeat' (first
    | with_reducible exact h
    | with_reducible assumption
    | dsimp -zeta only
    | with_reducible refine keeps_sendOwnManifest (hP.sub rfl) ?_
    | with_reducible refine keeps_advance (hP.sub rfl) ?_
    | intro _
    | with_reducible refine keeps_ite ?_ ?_
    | with_reducible refine keeps_ite_fst ?_ ?_
    | with_reducible refine keeps_pair (by assumption) ?_
    | split
    | fail_if_no_progress extract_lets
    | dsimp +zetaDelta only)

theorem keeps_doMusterRootTimeout {P : Nat} {s u : State} (hP : Fits 0xa000e030000000003000000090c0000002000000000000000000000000000000000000000000000000 P) (h : Keeps P s u) :
    Keeps P s (State.doMusterRootTimeout u) := by
  unfold State.doMusterRootTimeout
  repeat' (first
    | with_reducible exact h
    | with_reducible assumption
    | dsimp -zeta only
    | with_reducible refine keeps_rootDecides (hP.sub rfl) ?_
    | with_reducible refine keeps_advance (hP.sub rfl) ?_
    | intro _
    | with_reducible refine keeps_ite ?_ ?_
    | with_reducible refine keeps_ite_fst ?_ ?_
    | with_reducible refine keeps_pair (by assumption) ?_
    | split
    | fail_if_no_progress extract_lets
    | dsimp +zetaDelta only)

theorem keeps_doMusterVerdictTimeout {P : Nat} {s u : State} (hP : Fits 0xa000e030000000003000000090c0000002000000000000000000000000000000000000000000000000 P) (h : Keeps P s u) :
    Keeps P s (State.doMusterVerdictTimeout u) := by
  unfold State.doMusterVerdictTimeout
  repeat' (first
    | with_reducible exact h
    | with_reducible assumption
    | dsimp -zeta only
    | with_reducible refine keeps_musterEnds (hP.sub rfl) ?_
    | with_reducible refine keeps_advance (hP.sub rfl) ?_
    | intro _
    | with_reducible refine keeps_ite ?_ ?_
    | with_reducible refine keeps_ite_fst ?_ ?_
    | with_reducible refine keeps_pair (by assumption) ?_
    | split
    | fail_if_no_progress extract_lets
    | dsimp +zetaDelta only)

theorem keeps_bodyConvoyLeave {P : Nat} {s u : State} {k} (hP : Fits 0xa5f9fdb0000000003000000010d2068002000a1002140a1000000000000000006cff01c1d801000000 P) (h : Keeps P s u) :
    Keeps P s (bodyConvoyLeave k u).1 := by
  unfold bodyConvoyLeave
  beta_reduce
  repeat' (first
    | with_reducible exact h
    | with_reducible assumption
    | dsimp -zeta only
    | with_reducible refine keeps_convoyBreak (hP.sub rfl) ?_
    | with_reducible refine keeps_endWaits (hP.sub rfl) ?_
    | with_reducible refine keeps_ok (hP.sub rfl) ?_
    | with_reducible refine keeps_ok_eq (by assumption) (hP.sub rfl) ?_
    | with_reducible refine keeps_fput hP rfl ?_
    | intro _
    | with_reducible refine keeps_ite ?_ ?_
    | with_reducible refine keeps_ite_fst ?_ ?_
    | with_reducible refine keeps_pair (by assumption) ?_
    | split
    | fail_if_no_progress extract_lets
    | dsimp +zetaDelta only)

theorem keeps_bodyConvoyLeave_eq {P : Nat} {s u v : State} {k} {x} (he : bodyConvoyLeave k u = (v, x)) (hP : Fits 0xa5f9fdb0000000003000000010d2068002000a1002140a1000000000000000006cff01c1d801000000 P)
    (h : Keeps P s u) : Keeps P s v := by
  have h1 := keeps_bodyConvoyLeave (k := k) hP h
  rw [he] at h1
  exact h1

theorem keeps_steer7 {P : Nat} {s u : State} (hP : Fits 0x1022000000000000000000000000000000000000000000000000000000000000000000900000000 P) (h : Keeps P s u) :
    Keeps P s (State.steer7 u) := by
  unfold State.steer7
  repeat' (first
    | with_reducible exact h
    | with_reducible assumption
    | dsimp -zeta only
    | with_reducible refine keeps_merSlew (hP.sub rfl) ?_
    | with_reducible refine keeps_fresh (hP.sub rfl) ?_
    | with_reducible refine keeps_fresh_eq (by assumption) (hP.sub rfl) ?_
    | intro _
    | with_reducible refine keeps_ite ?_ ?_
    | with_reducible refine keeps_ite_fst ?_ ?_
    | with_reducible refine keeps_pair (by assumption) ?_
    | split
    | fail_if_no_progress extract_lets
    | dsimp +zetaDelta only)

theorem keeps_putOffset {P : Nat} {s u : State} {a1} (hP : Fits 0x2000000000000000002000000000000000000000000000000000000000000000000000000000 P) (h : Keeps P s u) :
    Keeps P s (State.putOffset u a1) := by
  unfold State.putOffset
  repeat' (first
    | with_reducible exact h
    | with_reducible assumption
    | dsimp -zeta only
    | with_reducible refine keeps_fresh (hP.sub rfl) ?_
    | with_reducible refine keeps_fresh_eq (by assumption) (hP.sub rfl) ?_
    | with_reducible refine keeps_wr hP rfl ?_
    | intro _
    | with_reducible refine keeps_ite ?_ ?_
    | with_reducible refine keeps_ite_fst ?_ ?_
    | with_reducible refine keeps_pair (by assumption) ?_
    | split
    | fail_if_no_progress extract_lets
    | dsimp +zetaDelta only)

theorem keeps_followParent {P : Nat} {s u : State} {a1 a2} (hP : Fits 0xa001e2200000000030000000b0c0000002000000000000000000000000000000000000000970000800 P) (h : Keeps P s u) :
    Keeps P s (State.followParent u a1 a2) := by
  unfold State.followParent
  repeat' (first
    | with_reducible exact h
    | with_reducible assumption
    | dsimp -zeta only
    | with_reducible refine keeps_sendOwnManifest (hP.sub rfl) ?_
    | with_reducible refine keeps_merNotFree (hP.sub rfl) ?_
    | with_reducible refine keeps_putOffset (hP.sub rfl) ?_
    | with_reducible refine keeps_merStep (hP.sub rfl) ?_
    | with_reducible refine keeps_steer7 (hP.sub rfl) ?_
    | with_reducible refine keeps_fput hP rfl ?_
    | intro _
    | with_reducible refine keeps_ite ?_ ?_
    | with_reducible refine keeps_ite_fst ?_ ?_
    | with_reducible refine keeps_pair (by assumption) ?_
    | split
    | fail_if_no_progress extract_lets
    | fail_if_no_progress with_reducible refine keeps_wln hP rfl ?_
    | dsimp +zetaDelta only)

theorem fst_of_pair_eq {α β : Type} {x : α × β} {a : α} {b : β} (h : x = (a, b)) : x.1 = a := by rw [h]

theorem solveExchange_parts (u : State) (p t1 t2 t3 t4 : Nat) (x : Int × Int) (hx : u.exchangeTerms p t1 t2 t3 t4 = x) (d th : State × Int)
    (hd : u.freeQuot x.1 131072 = d) (ht : d.1.freeQuot x.2 131072 = th) : u.solveExchange p t1 t2 t3 t4 = (th.1, d.2, th.2) := by
  subst hx hd ht
  rfl

theorem keeps_solveExchange {P : Nat} {s u : State} {a1 a2 a3 a4 a5} (hP : Fits 0x2000000000000000000000000000000000000000000000000000000000000000000000000000 P) (h : Keeps P s u) :
    Keeps P s (State.solveExchange u a1 a2 a3 a4 a5).1 := by
  rw [fst_of_pair_eq (solveExchange_parts u a1 a2 a3 a4 a5 _ rfl _ _ rfl rfl)]
  exact keeps_freeQuot (hP.sub rfl) (keeps_freeQuot (hP.sub rfl) h)

theorem keeps_solveExchange_eq {P : Nat} {s u v : State} {a1 a2 a3 a4 a5} {x} (he : State.solveExchange u a1 a2 a3 a4 a5 = (v, x)) (hP : Fits 0x2000000000000000000000000000000000000000000000000000000000000000000000000000 P)
    (h : Keeps P s u) : Keeps P s v := by
  have h1 := keeps_solveExchange (a1 := a1) (a2 := a2) (a3 := a3) (a4 := a4) (a5 := a5) hP h
  rw [he] at h1
  exact h1

theorem keeps_noteExchange {P : Nat} {s u : State} {a1 a2 a3} (hP : Fits 0x2000000000000000000000200000000000000000000000000000000000000000000000000000000000 P) (h : Keeps P s u) :
    Keeps P s (State.noteExchange u a1 a2 a3) := by
  unfold State.noteExchange
  repeat' (first
    | with_reducible exact h
    | with_reducible assumption
    | dsimp -zeta only
    | with_reducible refine keeps_setWport (hP.sub rfl) ?_
    | with_reducible refine keeps_fput hP rfl ?_
    | intro _
    | with_reducible refine keeps_ite ?_ ?_
    | with_reducible refine keeps_ite_fst ?_ ?_
    | with_reducible refine keeps_pair (by assumption) ?_
    | split
    | fail_if_no_progress extract_lets
    | dsimp +zetaDelta only)

theorem keeps_doTimeT3 {P : Nat} {s u : State} {a1 a2 a3} (hP : Fits 0xa001e2200000000030000020b0c0000002000000000000000000000000000000000000000970000800 P) (h : Keeps P s u) :
    Keeps P s (State.doTimeT3 u a1 a2 a3) := by
  unfold State.doTimeT3
  repeat' (first
    | with_reducible exact h
    | with_reducible assumption
    | dsimp -zeta only
    | with_reducible refine keeps_solveExchange (hP.sub rfl) ?_
    | with_reducible refine keeps_solveExchange_eq (by assumption) (hP.sub rfl) ?_
    | with_reducible refine keeps_followParent (hP.sub rfl) ?_
    | with_reducible refine keeps_noteExchange (hP.sub rfl) ?_
    | intro _
    | with_reducible refine keeps_ite ?_ ?_
    | with_reducible refine keeps_ite_fst ?_ ?_
    | with_reducible refine keeps_pair (by assumption) ?_
    | split
    | fail_if_no_progress extract_lets
    | dsimp +zetaDelta only)

theorem keeps_originateGo {P : Nat} {s u : State} (hP : Fits 0x2000000000000000000000000000000000000000000000000000000000000000000000000000000000 P) (h : Keeps P s u) :
    Keeps P s (State.originateGo u) := by
  unfold State.originateGo
  repeat' (first
    | with_reducible exact h
    | with_reducible assumption
    | dsimp -zeta only
    | with_reducible refine keeps_sendBlock (hP.sub rfl) ?_
    | with_reducible refine keeps_foldl ?_ ?_
    | with_reducible refine keeps_foldl_fst ?_ ?_
    | intro _
    | with_reducible refine keeps_ite ?_ ?_
    | with_reducible refine keeps_ite_fst ?_ ?_
    | with_reducible refine keeps_pair (by assumption) ?_
    | split
    | fail_if_no_progress extract_lets
    | dsimp +zetaDelta only)

theorem keeps_doWlnGo {P : Nat} {s u : State} (hP : Fits 0x2000000000000000000000000000000000000000000000000000000000000000000000000000000000 P) (h : Keeps P s u) :
    Keeps P s (State.doWlnGo u) := by
  unfold State.doWlnGo
  repeat' (first
    | with_reducible exact h
    | with_reducible assumption
    | dsimp -zeta only
    | with_reducible refine keeps_originateGo (hP.sub rfl) ?_
    | intro _
    | with_reducible refine keeps_ite ?_ ?_
    | with_reducible refine keeps_ite_fst ?_ ?_
    | with_reducible refine keeps_pair (by assumption) ?_
    | split
    | fail_if_no_progress extract_lets
    | dsimp +zetaDelta only)

theorem keeps_offerGo {P : Nat} {s u : State} {a1 a2} (hP : Fits 0x101918800000000000000000001206800000000000000008000000000000000000000000a800004000 P) (h : Keeps P s u) :
    Keeps P s (State.offerGo u a1 a2) := by
  unfold State.offerGo
  repeat' (first
    | with_reducible exact h
    | with_reducible assumption
    | dsimp -zeta only
    | with_reducible refine keeps_slipMessage (hP.sub rfl) ?_
    | with_reducible refine keeps_aqSync (hP.sub rfl) ?_
    | with_reducible refine keeps_foldl ?_ ?_
    | with_reducible refine keeps_foldl_fst ?_ ?_
    | intro _
    | with_reducible refine keeps_ite ?_ ?_
    | with_reducible refine keeps_ite_fst ?_ ?_
    | with_reducible refine keeps_pair (by assumption) ?_
    | split
    | fail_if_no_progress extract_lets
    | dsimp +zetaDelta only)

theorem keeps_doGo {P : Nat} {s u : State} {a1 a2 a3} (hP : Fits 0x301918800000000000000000009206800000000000000008000000000000000000000000a800004000 P) (h : Keeps P s u) :
    Keeps P s (State.doGo u a1 a2 a3) := by
  unfold State.doGo
  repeat' (first
    | with_reducible exact h
    | with_reducible assumption
    | dsimp -zeta only
    | with_reducible refine keeps_sendBlock (hP.sub rfl) ?_
    | with_reducible refine keeps_offerGo (hP.sub rfl) ?_
    | with_reducible refine keeps_bump hP rfl ?_
    | with_reducible refine keeps_foldl ?_ ?_
    | with_reducible refine keeps_foldl_fst ?_ ?_
    | intro _
    | with_reducible refine keeps_ite ?_ ?_
    | with_reducible refine keeps_ite_fst ?_ ?_
    | with_reducible refine keeps_pair (by assumption) ?_
    | split
    | fail_if_no_progress extract_lets
    | dsimp +zetaDelta only)

theorem keeps_doMsyncInEdge {P : Nat} {s u : State} {a1 a2} (hP : Fits 0x3800001000000000000000000000000000000000000000080080b3c000000000000000000000000000 P) (h : Keeps P s u) :
    Keeps P s (State.doMsyncInEdge u a1 a2) := by
  unfold State.doMsyncInEdge
  repeat' (first
    | with_reducible exact h
    | with_reducible assumption
    | dsimp -zeta only
    | with_reducible refine keeps_originateGo (hP.sub rfl) ?_
    | with_reducible refine keeps_msyncLocal (hP.sub rfl) ?_
    | with_reducible refine keeps_advance (hP.sub rfl) ?_
    | intro _
    | with_reducible refine keeps_ite ?_ ?_
    | with_reducible refine keeps_ite_fst ?_ ?_
    | with_reducible refine keeps_pair (by assumption) ?_
    | split
    | fail_if_no_progress extract_lets
    | dsimp +zetaDelta only)

theorem keeps_doAgg {P : Nat} {s u : State} {a1 a2 a3} (hP : Fits 0xa5f9fdb000000000300000001012068002000a1002140a1000000000000000006cff01c1d801000000 P) (h : Keeps P s u) :
    Keeps P s (State.doAgg u a1 a2 a3) := by
  unfold State.doAgg
  repeat' (first
    | with_reducible exact h
    | with_reducible assumption
    | dsimp -zeta only
    | with_reducible refine keeps_aggChanged (hP.sub rfl) ?_
    | with_reducible refine keeps_sendBlock (hP.sub rfl) ?_
    | with_reducible refine keeps_haltIfDue (hP.sub rfl) ?_
    | with_reducible refine keeps_setWport (hP.sub rfl) ?_
    | with_reducible refine keeps_fput hP rfl ?_
    | with_reducible refine keeps_foldl ?_ ?_
    | with_reducible refine keeps_foldl_fst ?_ ?_
    | intro _
    | with_reducible refine keeps_ite ?_ ?_
    | with_reducible refine keeps_ite_fst ?_ ?_
    | with_reducible refine keeps_pair (by assumption) ?_
    | split
    | fail_if_no_progress extract_lets
    | dsimp +zetaDelta only)

theorem keeps_doWlnAggWrite {P : Nat} {s u : State} {a1} (hP : Fits 0xa5f9fdb000000000300000001012068002000a1002140a1000000000000000006cff01c1d801000000 P) (h : Keeps P s u) :
    Keeps P s (State.doWlnAggWrite u a1) := by
  unfold State.doWlnAggWrite
  repeat' (first
    | with_reducible exact h
    | with_reducible assumption
    | dsimp -zeta only
    | with_reducible refine keeps_aggChanged (hP.sub rfl) ?_
    | with_reducible refine keeps_haltIfDue (hP.sub rfl) ?_
    | with_reducible refine keeps_fput hP rfl ?_
    | intro _
    | with_reducible refine keeps_ite ?_ ?_
    | with_reducible refine keeps_ite_fst ?_ ?_
    | with_reducible refine keeps_pair (by assumption) ?_
    | split
    | fail_if_no_progress extract_lets
    | dsimp +zetaDelta only)

theorem keeps_execMsWaylineLaunch {P : Nat} {u t : State} {a0} (he : execMsWaylineLaunch a0 u = .next t) (hP : Fits 0x2000fcb000000000000001000012068002000000000000000000000000000000000000000000000000 P) : Keeps P u t := by
  unfold execMsWaylineLaunch at he
  injection he with he
  subst he
  repeat' (first
    | with_reducible exact Keeps.refl P u
    | with_reducible assumption
    | dsimp -zeta only
    | with_reducible refine keeps_doMsWaylineLaunch (hP.sub rfl) ?_
    | with_reducible refine keeps_id ?_
    | intro _
    | with_reducible refine keeps_ite ?_ ?_
    | with_reducible refine keeps_ite_fst ?_ ?_
    | with_reducible refine keeps_pair (by assumption) ?_
    | split
    | fail_if_no_progress extract_lets
    | dsimp +zetaDelta only)

theorem keeps_execMsyncInEdge {P : Nat} {u t : State} {a0 a1} (he : execMsyncInEdge a0 a1 u = .next t) (hP : Fits 0x3800001000000000000000000000000000000000000000080080b3c000000000000000000000000000 P) : Keeps P u t := by
  unfold execMsyncInEdge at he
  injection he with he
  subst he
  repeat' (first
    | with_reducible exact Keeps.refl P u
    | with_reducible assumption
    | dsimp -zeta only
    | with_reducible refine keeps_doMsyncInEdge (hP.sub rfl) ?_
    | intro _
    | with_reducible refine keeps_ite ?_ ?_
    | with_reducible refine keeps_ite_fst ?_ ?_
    | with_reducible refine keeps_pair (by assumption) ?_
    | split
    | fail_if_no_progress extract_lets
    | dsimp +zetaDelta only)

theorem keeps_execWaylineSend {P : Nat} {u t : State} {a0} (he : execWaylineSend a0 u = .next t) (hP : Fits 0xa1e0f9b000000000300001000012068003f00a1002140a100000000000000000000000000000000000 P) : Keeps P u t := by
  unfold execWaylineSend at he
  injection he with he
  subst he
  repeat' (first
    | with_reducible exact Keeps.refl P u
    | with_reducible assumption
    | dsimp -zeta only
    | with_reducible refine keeps_runCommand (hP.sub rfl) ?_ ?_
    | with_reducible refine keeps_bodyWaylineSend (hP.sub rfl) ?_
    | with_reducible refine keeps_bodyWaylineSend_eq (by assumption) (hP.sub rfl) ?_
    | intro _
    | with_reducible refine keeps_ite ?_ ?_
    | with_reducible refine keeps_ite_fst ?_ ?_
    | with_reducible refine keeps_pair (by assumption) ?_
    | split
    | fail_if_no_progress extract_lets
    | dsimp +zetaDelta only)

theorem keeps_execWaylineForward {P : Nat} {u t : State} {a0} (he : execWaylineForward a0 u = .next t) (hP : Fits 0xa1e0f9b000000000300000000012068003f00a1002140a100000000000000000000000000000000000 P) : Keeps P u t := by
  unfold execWaylineForward at he
  injection he with he
  subst he
  repeat' (first
    | with_reducible exact Keeps.refl P u
    | with_reducible assumption
    | dsimp -zeta only
    | with_reducible refine keeps_bodyWaylineForward (hP.sub rfl) ?_
    | with_reducible refine keeps_bodyWaylineForward_eq (by assumption) (hP.sub rfl) ?_
    | with_reducible refine keeps_runCommand (hP.sub rfl) ?_ ?_
    | intro _
    | with_reducible refine keeps_ite ?_ ?_
    | with_reducible refine keeps_ite_fst ?_ ?_
    | with_reducible refine keeps_pair (by assumption) ?_
    | split
    | fail_if_no_progress extract_lets
    | dsimp +zetaDelta only)

theorem keeps_execMuster {P : Nat} {u t : State} {a0} (he : execMuster a0 u = .next t) (hP : Fits 0xa1e0f9b0000000003000000090d2068003f00a1002140a100000000000000000000000000070000000 P) : Keeps P u t := by
  unfold execMuster at he
  injection he with he
  subst he
  repeat' (first
    | with_reducible exact Keeps.refl P u
    | with_reducible assumption
    | dsimp -zeta only
    | with_reducible refine keeps_musterStarted (hP.sub rfl) ?_
    | with_reducible refine keeps_runCommand (hP.sub rfl) ?_ ?_
    | with_reducible refine keeps_bodyMuster (hP.sub rfl) ?_
    | with_reducible refine keeps_bodyMuster_eq (by assumption) (hP.sub rfl) ?_
    | intro _
    | with_reducible refine keeps_ite ?_ ?_
    | with_reducible refine keeps_ite_fst ?_ ?_
    | with_reducible refine keeps_pair (by assumption) ?_
    | split
    | fail_if_no_progress extract_lets
    | dsimp +zetaDelta only)

theorem keeps_execConvoyLeave {P : Nat} {u t : State} {a0} (he : execConvoyLeave a0 u = .next t) (hP : Fits 0xa5f9fdb0000000003000000010d2068003f00a1002140a1000000000000000006cff01c1d801000000 P) : Keeps P u t := by
  unfold execConvoyLeave at he
  injection he with he
  subst he
  repeat' (first
    | with_reducible exact Keeps.refl P u
    | with_reducible assumption
    | dsimp -zeta only
    | with_reducible refine keeps_runCommand (hP.sub rfl) ?_ ?_
    | with_reducible refine keeps_bodyConvoyLeave (hP.sub rfl) ?_
    | with_reducible refine keeps_bodyConvoyLeave_eq (by assumption) (hP.sub rfl) ?_
    | intro _
    | with_reducible refine keeps_ite ?_ ?_
    | with_reducible refine keeps_ite_fst ?_ ?_
    | with_reducible refine keeps_pair (by assumption) ?_
    | split
    | fail_if_no_progress extract_lets
    | dsimp +zetaDelta only)

theorem keeps_execGo {P : Nat} {u t : State} {a0 a1 a2} (he : execGo a0 a1 a2 u = .next t) (hP : Fits 0x301918800000000000000000009206800000000000000008000000000000000000000000a800004000 P) : Keeps P u t := by
  unfold execGo at he
  injection he with he
  subst he
  repeat' (first
    | with_reducible exact Keeps.refl P u
    | with_reducible assumption
    | dsimp -zeta only
    | with_reducible refine keeps_doGo (hP.sub rfl) ?_
    | intro _
    | with_reducible refine keeps_ite ?_ ?_
    | with_reducible refine keeps_ite_fst ?_ ?_
    | with_reducible refine keeps_pair (by assumption) ?_
    | split
    | fail_if_no_progress extract_lets
    | dsimp +zetaDelta only)

theorem keeps_execAgg {P : Nat} {u t : State} {a0 a1 a2} (he : execAgg a0 a1 a2 u = .next t) (hP : Fits 0xa5f9fdb000000000300000001012068002000a1002140a1000000000000000006cff01c1d801000000 P) : Keeps P u t := by
  unfold execAgg at he
  injection he with he
  subst he
  repeat' (first
    | with_reducible exact Keeps.refl P u
    | with_reducible assumption
    | dsimp -zeta only
    | with_reducible refine keeps_doAgg (hP.sub rfl) ?_
    | intro _
    | with_reducible refine keeps_ite ?_ ?_
    | with_reducible refine keeps_ite_fst ?_ ?_
    | with_reducible refine keeps_pair (by assumption) ?_
    | split
    | fail_if_no_progress extract_lets
    | dsimp +zetaDelta only)

theorem keeps_execTimeReq {P : Nat} {u t : State} {a0 a1 a2 a3} (he : execTimeReq a0 a1 a2 a3 u = .next t) (hP : Fits 0x2000001000000000000000000000000000000000000000000000000000000000000000000000000000 P) : Keeps P u t := by
  unfold execTimeReq at he
  injection he with he
  subst he
  repeat' (first
    | with_reducible exact Keeps.refl P u
    | with_reducible assumption
    | dsimp -zeta only
    | with_reducible refine keeps_doTimeReq (hP.sub rfl) ?_
    | intro _
    | with_reducible refine keeps_ite ?_ ?_
    | with_reducible refine keeps_ite_fst ?_ ?_
    | with_reducible refine keeps_pair (by assumption) ?_
    | split
    | fail_if_no_progress extract_lets
    | dsimp +zetaDelta only)

theorem keeps_execTimeT2 {P : Nat} {u t : State} {a0 a1 a2 a3} (he : execTimeT2 a0 a1 a2 a3 u = .next t) (hP : Fits 0x2000001000000000000000000000000000000000000000000000000000000000000000000000000000 P) : Keeps P u t := by
  unfold execTimeT2 at he
  injection he with he
  subst he
  repeat' (first
    | with_reducible exact Keeps.refl P u
    | with_reducible assumption
    | dsimp -zeta only
    | with_reducible refine keeps_doTimeT2 (hP.sub rfl) ?_
    | intro _
    | with_reducible refine keeps_ite ?_ ?_
    | with_reducible refine keeps_ite_fst ?_ ?_
    | with_reducible refine keeps_pair (by assumption) ?_
    | split
    | fail_if_no_progress extract_lets
    | dsimp +zetaDelta only)

theorem keeps_execTimeT3 {P : Nat} {u t : State} {a0 a1 a2} (he : execTimeT3 a0 a1 a2 u = .next t) (hP : Fits 0xa001e2200000000030000020b0c0000002000000000000000000000000000000000000000970000800 P) : Keeps P u t := by
  unfold execTimeT3 at he
  injection he with he
  subst he
  repeat' (first
    | with_reducible exact Keeps.refl P u
    | with_reducible assumption
    | dsimp -zeta only
    | with_reducible refine keeps_doTimeT3 (hP.sub rfl) ?_
    | intro _
    | with_reducible refine keeps_ite ?_ ?_
    | with_reducible refine keeps_ite_fst ?_ ?_
    | with_reducible refine keeps_pair (by assumption) ?_
    | split
    | fail_if_no_progress extract_lets
    | dsimp +zetaDelta only)

theorem keeps_execTimeExchangeTimer {P : Nat} {u t : State} {a0 a1} (he : execTimeExchangeTimer a0 a1 u = .next t) (hP : Fits 0x2000001000000000000000000000000000000000000000000000000000000000000000000000000000 P) : Keeps P u t := by
  unfold execTimeExchangeTimer at he
  injection he with he
  subst he
  repeat' (first
    | with_reducible exact Keeps.refl P u
    | with_reducible assumption
    | dsimp -zeta only
    | with_reducible refine keeps_doTimeExchangeTimer (hP.sub rfl) ?_
    | intro _
    | with_reducible refine keeps_ite ?_ ?_
    | with_reducible refine keeps_ite_fst ?_ ?_
    | with_reducible refine keeps_pair (by assumption) ?_
    | split
    | fail_if_no_progress extract_lets
    | dsimp +zetaDelta only)

theorem keeps_execLaunch {P : Nat} {u t : State} {a0 a1 a2} (he : execLaunch a0 a1 a2 u = .next t) (hP : Fits 0 P) : Keeps P u t := by
  unfold execLaunch at he
  injection he with he
  subst he
  repeat' (first
    | with_reducible exact Keeps.refl P u
    | with_reducible assumption
    | dsimp -zeta only
    | with_reducible refine keeps_doLaunch (hP.sub rfl) ?_
    | intro _
    | with_reducible refine keeps_ite ?_ ?_
    | with_reducible refine keeps_ite_fst ?_ ?_
    | with_reducible refine keeps_pair (by assumption) ?_
    | split
    | fail_if_no_progress extract_lets
    | dsimp +zetaDelta only)

theorem keeps_execMsg {P : Nat} {u t : State} {a0 a1} (he : execMsg a0 a1 u = .next t) (hP : Fits 0x200018a000000000000000400002008000000000000000000000000000000000000000000000000000 P) : Keeps P u t := by
  unfold execMsg at he
  injection he with he
  subst he
  repeat' (first
    | with_reducible exact Keeps.refl P u
    | with_reducible assumption
    | dsimp -zeta only
    | with_reducible refine keeps_doMsg (hP.sub rfl) ?_
    | intro _
    | with_reducible refine keeps_ite ?_ ?_
    | with_reducible refine keeps_ite_fst ?_ ?_
    | with_reducible refine keeps_pair (by assumption) ?_
    | split
    | fail_if_no_progress extract_lets
    | dsimp +zetaDelta only)

theorem keeps_execMsgAck {P : Nat} {u t : State} {a0 a1} (he : execMsgAck a0 a1 u = .next t) (hP : Fits 0x2000e02000000000000000400000000002000000000000000000000000000000000000000000000000 P) : Keeps P u t := by
  unfold execMsgAck at he
  injection he with he
  subst he
  repeat' (first
    | with_reducible exact Keeps.refl P u
    | with_reducible assumption
    | dsimp -zeta only
    | with_reducible refine keeps_doMsgAck (hP.sub rfl) ?_
    | intro _
    | with_reducible refine keeps_ite ?_ ?_
    | with_reducible refine keeps_ite_fst ?_ ?_
    | with_reducible refine keeps_pair (by assumption) ?_
    | split
    | fail_if_no_progress extract_lets
    | dsimp +zetaDelta only)

theorem keeps_execFwdCpl {P : Nat} {u t : State} {a0 a1} (he : execFwdCpl a0 a1 u = .next t) (hP : Fits 0x2000e02000000000000000400000000002000000000000000000000000000000000000000000000000 P) : Keeps P u t := by
  unfold execFwdCpl at he
  injection he with he
  subst he
  repeat' (first
    | with_reducible exact Keeps.refl P u
    | with_reducible assumption
    | dsimp -zeta only
    | with_reducible refine keeps_doFwdCpl (hP.sub rfl) ?_
    | intro _
    | with_reducible refine keeps_ite ?_ ?_
    | with_reducible refine keeps_ite_fst ?_ ?_
    | with_reducible refine keeps_pair (by assumption) ?_
    | split
    | fail_if_no_progress extract_lets
    | dsimp +zetaDelta only)

theorem keeps_execBulkWr {P : Nat} {u t : State} {a0 a1} (he : execBulkWr a0 a1 u = .next t) (hP : Fits 0xa1e059b000000000300000400012068000000a1002140a100000000000000000000000000000000000 P) : Keeps P u t := by
  unfold execBulkWr at he
  injection he with he
  subst he
  repeat' (first
    | with_reducible exact Keeps.refl P u
    | with_reducible assumption
    | dsimp -zeta only
    | with_reducible refine keeps_doBulkWr (hP.sub rfl) ?_
    | intro _
    | with_reducible refine keeps_ite ?_ ?_
    | with_reducible refine keeps_ite_fst ?_ ?_
    | with_reducible refine keeps_pair (by assumption) ?_
    | split
    | fail_if_no_progress extract_lets
    | dsimp +zetaDelta only)

theorem keeps_execBulkRdReq {P : Nat} {u t : State} {a0 a1} (he : execBulkRdReq a0 a1 u = .next t) (hP : Fits 0xa1e059b000000000300000400012068000000a1002140a100000000000000000000000000000000000 P) : Keeps P u t := by
  unfold execBulkRdReq at he
  injection he with he
  subst he
  repeat' (first
    | with_reducible exact Keeps.refl P u
    | with_reducible assumption
    | dsimp -zeta only
    | with_reducible refine keeps_doBulkRdReq (hP.sub rfl) ?_
    | intro _
    | with_reducible refine keeps_ite ?_ ?_
    | with_reducible refine keeps_ite_fst ?_ ?_
    | with_reducible refine keeps_pair (by assumption) ?_
    | split
    | fail_if_no_progress extract_lets
    | dsimp +zetaDelta only)

theorem keeps_execBulkRdData {P : Nat} {u t : State} {a0 a1} (he : execBulkRdData a0 a1 u = .next t) (hP : Fits 0xa1e059f000000000300000400012068000000e1002140a100000000000000000000000000000000000 P) : Keeps P u t := by
  unfold execBulkRdData at he
  injection he with he
  subst he
  repeat' (first
    | with_reducible exact Keeps.refl P u
    | with_reducible assumption
    | dsimp -zeta only
    | with_reducible refine keeps_doBulkRdData (hP.sub rfl) ?_
    | intro _
    | with_reducible refine keeps_ite ?_ ?_
    | with_reducible refine keeps_ite_fst ?_ ?_
    | with_reducible refine keeps_pair (by assumption) ?_
    | split
    | fail_if_no_progress extract_lets
    | dsimp +zetaDelta only)

theorem keeps_execBulkAck {P : Nat} {u t : State} {a0 a1} (he : execBulkAck a0 a1 u = .next t) (hP : Fits 0xa1e059b000000000300000400012068000000e1002140a100000000000000000000000000000000000 P) : Keeps P u t := by
  unfold execBulkAck at he
  injection he with he
  subst he
  repeat' (first
    | with_reducible exact Keeps.refl P u
    | with_reducible assumption
    | dsimp -zeta only
    | with_reducible refine keeps_doBulkAck (hP.sub rfl) ?_
    | intro _
    | with_reducible refine keeps_ite ?_ ?_
    | with_reducible refine keeps_ite_fst ?_ ?_
    | with_reducible refine keeps_pair (by assumption) ?_
    | split
    | fail_if_no_progress extract_lets
    | dsimp +zetaDelta only)

theorem keeps_execBulkFaultTimeout {P : Nat} {u t : State} {a0} (he : execBulkFaultTimeout a0 u = .next t) (hP : Fits 0x2080003000000000000000000000000000000000000000000000000000000000000000000000000000 P) : Keeps P u t := by
  unfold execBulkFaultTimeout at he
  injection he with he
  subst he
  repeat' (first
    | with_reducible exact Keeps.refl P u
    | with_reducible assumption
    | dsimp -zeta only
    | with_reducible refine keeps_doBulkFaultTimeout (hP.sub rfl) ?_
    | with_reducible refine keeps_id ?_
    | intro _
    | with_reducible refine keeps_ite ?_ ?_
    | with_reducible refine keeps_ite_fst ?_ ?_
    | with_reducible refine keeps_pair (by assumption) ?_
    | split
    | fail_if_no_progress extract_lets
    | dsimp +zetaDelta only)

theorem keeps_execMusterFlit {P : Nat} {u t : State} {a0 a1} (he : execMusterFlit a0 a1 u = .next t) (hP : Fits 0xa5f9fdb0000000003000004290d2068002000a1002140a1000000000000000006cff01c1d871000000 P) : Keeps P u t := by
  unfold execMusterFlit at he
  injection he with he
  subst he
  repeat' (first
    | with_reducible exact Keeps.refl P u
    | with_reducible assumption
    | dsimp -zeta only
    | with_reducible refine keeps_doMusterFlit (hP.sub rfl) ?_
    | intro _
    | with_reducible refine keeps_ite ?_ ?_
    | with_reducible refine keeps_ite_fst ?_ ?_
    | with_reducible refine keeps_pair (by assumption) ?_
    | split
    | fail_if_no_progress extract_lets
    | dsimp +zetaDelta only)

theorem keeps_execMusterOffsetTimeout {P : Nat} {u t : State} (he : execMusterOffsetTimeout u = .next t) (hP : Fits 0xa000e030000000003000000090c0000002000000000000000000000000000000000000000070000000 P) : Keeps P u t := by
  unfold execMusterOffsetTimeout at he
  injection he with he
  subst he
  repeat' (first
    | with_reducible exact Keeps.refl P u
    | with_reducible assumption
    | dsimp -zeta only
    | with_reducible refine keeps_doMusterOffsetTimeout (hP.sub rfl) ?_
    | intro _
    | with_reducible refine keeps_ite ?_ ?_
    | with_reducible refine keeps_ite_fst ?_ ?_
    | with_reducible refine keeps_pair (by assumption) ?_
    | split
    | fail_if_no_progress extract_lets
    | dsimp +zetaDelta only)

theorem keeps_execMusterRootTimeout {P : Nat} {u t : State} (he : execMusterRootTimeout u = .next t) (hP : Fits 0xa000e030000000003000000090c0000002000000000000000000000000000000000000000000000000 P) : Keeps P u t := by
  unfold execMusterRootTimeout at he
  injection he with he
  subst he
  repeat' (first
    | with_reducible exact Keeps.refl P u
    | with_reducible assumption
    | dsimp -zeta only
    | with_reducible refine keeps_doMusterRootTimeout (hP.sub rfl) ?_
    | intro _
    | with_reducible refine keeps_ite ?_ ?_
    | with_reducible refine keeps_ite_fst ?_ ?_
    | with_reducible refine keeps_pair (by assumption) ?_
    | split
    | fail_if_no_progress extract_lets
    | dsimp +zetaDelta only)

theorem keeps_execMusterVerdictTimeout {P : Nat} {u t : State} (he : execMusterVerdictTimeout u = .next t) (hP : Fits 0xa000e030000000003000000090c0000002000000000000000000000000000000000000000000000000 P) : Keeps P u t := by
  unfold execMusterVerdictTimeout at he
  injection he with he
  subst he
  repeat' (first
    | with_reducible exact Keeps.refl P u
    | with_reducible assumption
    | dsimp -zeta only
    | with_reducible refine keeps_doMusterVerdictTimeout (hP.sub rfl) ?_
    | intro _
    | with_reducible refine keeps_ite ?_ ?_
    | with_reducible refine keeps_ite_fst ?_ ?_
    | with_reducible refine keeps_pair (by assumption) ?_
    | split
    | fail_if_no_progress extract_lets
    | dsimp +zetaDelta only)

end Sys2Proof.Machine
end

