-- ==== Sys2Proof/Laws/KeepsChartCommands.lean ====
section
/-! SUPPORT. What each operation of Machine/ChartCommands.lean may change, and that it keeps the invariant: one law for each. -/

set_option linter.unreachableTactic false
set_option linter.unusedTactic false

namespace Sys2Proof.Machine

theorem keeps_afterClear {P : Nat} {s u : State} (hP : Fits 0xa1e059b000000000300000000012068000000a1002140a100000000000000000000000000000000000 P) (h : Keeps P s u) :
    Keeps P s (State.afterClear u) := by
  unfold State.afterClear
  repeat' (first
    | with_reducible exact h
    | with_reducible assumption
    | dsimp -zeta only
    | with_reducible refine keeps_serveHolds (hP.sub rfl) ?_
    | with_reducible refine keeps_dmaFill (hP.sub rfl) ?_
    | intro _
    | with_reducible refine keeps_ite ?_ ?_
    | with_reducible refine keeps_ite_fst ?_ ?_
    | with_reducible refine keeps_pair (by assumption) ?_
    | split
    | fail_if_no_progress extract_lets
    | dsimp +zetaDelta only)

theorem keeps_leavesFrom {P : Nat} {s u : State} {a1 a2 a3 a4} (hP : Fits 0x80e059b00000000030000000001206800000000000140a100000000000000000000000000000000000 P) (h : Keeps P s u) :
    Keeps P s (State.leavesFrom u a1 a2 a3 a4).1 := by
  induction a4 generalizing u a1 a2 a3 with
  | zero =>
    unfold State.leavesFrom
    repeat' (first
      | with_reducible exact h
      | with_reducible assumption
      | dsimp -zeta only
      | with_reducible refine keeps_walk (hP.sub rfl) ?_
      | with_reducible refine keeps_walk_eq (by assumption) (hP.sub rfl) ?_
      | intro _
      | with_reducible refine keeps_ite ?_ ?_
      | with_reducible refine keeps_ite_fst ?_ ?_
      | with_reducible refine keeps_pair (by assumption) ?_
      | split
      | fail_if_no_progress extract_lets
      | dsimp +zetaDelta only)
  | succ n ih =>
    unfold State.leavesFrom
    repeat' (first
      | with_reducible exact h
      | with_reducible assumption
      | dsimp -zeta only
      | with_reducible apply ih
      | with_reducible refine keeps_pair (w := State.leavesFrom _ _ _ _ _) (by assumption) ?_
      | with_reducible refine keeps_walk (hP.sub rfl) ?_
      | with_reducible refine keeps_walk_eq (by assumption) (hP.sub rfl) ?_
      | intro _
      | with_reducible refine keeps_ite ?_ ?_
      | with_reducible refine keeps_ite_fst ?_ ?_
      | with_reducible refine keeps_pair (by assumption) ?_
      | split
      | fail_if_no_progress extract_lets
      | dsimp +zetaDelta only)

theorem keeps_leavesFrom_eq {P : Nat} {s u v : State} {a1 a2 a3 a4} {x} (he : State.leavesFrom u a1 a2 a3 a4 = (v, x)) (hP : Fits 0x80e059b00000000030000000001206800000000000140a100000000000000000000000000000000000 P)
    (h : Keeps P s u) : Keeps P s v := by
  have h1 := keeps_leavesFrom (a1 := a1) (a2 := a2) (a3 := a3) (a4 := a4) hP h
  rw [he] at h1
  exact h1

theorem keeps_leaves {P : Nat} {s u : State} {a1 a2 a3} (hP : Fits 0x80e059b00000000030000000001206800000000000140a100000000000000000000000000000000000 P) (h : Keeps P s u) :
    Keeps P s (State.leaves u a1 a2 a3).1 := by
  unfold State.leaves
  repeat' (first
    | with_reducible exact h
    | with_reducible assumption
    | dsimp -zeta only
    | with_reducible refine keeps_leavesFrom (hP.sub rfl) ?_
    | with_reducible refine keeps_leavesFrom_eq (by assumption) (hP.sub rfl) ?_
    | intro _
    | with_reducible refine keeps_ite ?_ ?_
    | with_reducible refine keeps_ite_fst ?_ ?_
    | with_reducible refine keeps_pair (by assumption) ?_
    | split
    | fail_if_no_progress extract_lets
    | dsimp +zetaDelta only)

theorem keeps_leaves_eq {P : Nat} {s u v : State} {a1 a2 a3} {x} (he : State.leaves u a1 a2 a3 = (v, x)) (hP : Fits 0x80e059b00000000030000000001206800000000000140a100000000000000000000000000000000000 P)
    (h : Keeps P s u) : Keeps P s v := by
  have h1 := keeps_leaves (a1 := a1) (a2 := a2) (a3 := a3) hP h
  rw [he] at h1
  exact h1

theorem keeps_putEntry {P : Nat} {s u : State} {a1 a2} (hP : Fits 0x806059b00000000030000000001206800000000000140a100000000000000000000000000000000000 P) (h : Keeps P s u) :
    Keeps P s (State.putEntry u a1 a2) := by
  unfold State.putEntry
  repeat' (first
    | with_reducible exact h
    | with_reducible assumption
    | dsimp -zeta only
    | with_reducible refine keeps_settleWrites (hP.sub rfl) ?_
    | with_reducible refine keeps_hbmWrite (hP.sub rfl) ?_
    | intro _
    | with_reducible refine keeps_ite ?_ ?_
    | with_reducible refine keeps_ite_fst ?_ ?_
    | with_reducible refine keeps_pair (by assumption) ?_
    | split
    | fail_if_no_progress extract_lets
    | dsimp +zetaDelta only)

theorem keeps_newTable {P : Nat} {s u : State} (hP : Fits 0x80e059b00000000030000000001206800000000000140a100000000000000000000000000000000000 P) (h : Keeps P s u) :
    Keeps P s (State.newTable u).1 := by
  unfold State.newTable
  repeat' (first
    | with_reducible exact h
    | with_reducible assumption
    | dsimp -zeta only
    | with_reducible refine keeps_settleWrites (hP.sub rfl) ?_
    | with_reducible refine keeps_hbmWrite (hP.sub rfl) ?_
    | intro _
    | with_reducible refine keeps_ite ?_ ?_
    | with_reducible refine keeps_ite_fst ?_ ?_
    | with_reducible refine keeps_pair (by assumption) ?_
    | split
    | fail_if_no_progress extract_lets
    | fail_if_no_progress with_reducible refine keeps_chart hP rfl ?_
    | dsimp +zetaDelta only)

theorem keeps_newTable_eq {P : Nat} {s u v : State} {x} (he : State.newTable u = (v, x)) (hP : Fits 0x80e059b00000000030000000001206800000000000140a100000000000000000000000000000000000 P)
    (h : Keeps P s u) : Keeps P s v := by
  have h1 := keeps_newTable hP h
  rw [he] at h1
  exact h1

theorem keeps_putLeaf {P : Nat} {s u : State} {a1 a2 a3 a4 a5 a6} (hP : Fits 0x80e059b00000000030000000001206800000000000140a100000000000000000000000000000000000 P) (h : Keeps P s u) :
    Keeps P s (State.putLeaf u a1 a2 a3 a4 a5 a6) := by
  induction a6 generalizing u a1 a2 a3 a4 a5 with
  | zero =>
    unfold State.putLeaf
    repeat' (first
      | with_reducible exact h
      | with_reducible assumption
      | dsimp -zeta only
      | with_reducible refine keeps_hbmRead64 (hP.sub rfl) ?_
      | with_reducible refine keeps_hbmRead64_eq (by assumption) (hP.sub rfl) ?_
      | with_reducible refine keeps_putEntry (hP.sub rfl) ?_
      | with_reducible refine keeps_newTable (hP.sub rfl) ?_
      | with_reducible refine keeps_newTable_eq (by assumption) (hP.sub rfl) ?_
      | intro _
      | with_reducible refine keeps_ite ?_ ?_
      | with_reducible refine keeps_ite_fst ?_ ?_
      | with_reducible refine keeps_pair (by assumption) ?_
      | split
      | fail_if_no_progress extract_lets
      | dsimp +zetaDelta only)
  | succ n ih =>
    unfold State.putLeaf
    repeat' (first
      | with_reducible exact h
      | with_reducible assumption
      | dsimp -zeta only
      | with_reducible apply ih
      | with_reducible refine keeps_hbmRead64 (hP.sub rfl) ?_
      | with_reducible refine keeps_hbmRead64_eq (by assumption) (hP.sub rfl) ?_
      | with_reducible refine keeps_putEntry (hP.sub rfl) ?_
      | with_reducible refine keeps_newTable (hP.sub rfl) ?_
      | with_reducible refine keeps_newTable_eq (by assumption) (hP.sub rfl) ?_
      | intro _
      | with_reducible refine keeps_ite ?_ ?_
      | with_reducible refine keeps_ite_fst ?_ ?_
      | with_reducible refine keeps_pair (by assumption) ?_
      | split
      | fail_if_no_progress extract_lets
      | dsimp +zetaDelta only)

theorem keeps_bodyChartMap {P : Nat} {s u : State} {k} (hP : Fits 0xa1e059b000000000300000000012068000000a1002140a100000000000000000000000000000000000 P) (h : Keeps P s u) :
    Keeps P s (bodyChartMap k u).1 := by
  unfold bodyChartMap
  beta_reduce
  repeat' (first
    | with_reducible exact h
    | with_reducible assumption
    | dsimp -zeta only
    | with_reducible refine keeps_afterClear (hP.sub rfl) ?_
    | with_reducible refine keeps_retryRange (hP.sub rfl) ?_
    | with_reducible refine keeps_putLeaf (hP.sub rfl) ?_
    | with_reducible refine keeps_leaves (hP.sub rfl) ?_
    | with_reducible refine keeps_leaves_eq (by assumption) (hP.sub rfl) ?_
    | with_reducible refine keeps_fail (hP.sub rfl) ?_
    | with_reducible refine keeps_fail_eq (by assumption) (hP.sub rfl) ?_
    | with_reducible refine keeps_ok (hP.sub rfl) ?_
    | with_reducible refine keeps_ok_eq (by assumption) (hP.sub rfl) ?_
    | with_reducible refine keeps_foldl ?_ ?_
    | with_reducible refine keeps_foldl_fst ?_ ?_
    | intro _
    | with_reducible refine keeps_ite ?_ ?_
    | with_reducible refine keeps_ite_fst ?_ ?_
    | with_reducible refine keeps_pair (by assumption) ?_
    | split
    | fail_if_no_progress extract_lets
    | dsimp +zetaDelta only)

theorem keeps_bodyChartMap_eq {P : Nat} {s u v : State} {k} {x} (he : bodyChartMap k u = (v, x)) (hP : Fits 0xa1e059b000000000300000000012068000000a1002140a100000000000000000000000000000000000 P)
    (h : Keeps P s u) : Keeps P s v := by
  have h1 := keeps_bodyChartMap (k := k) hP h
  rw [he] at h1
  exact h1

theorem keeps_dropLeaf {P : Nat} {s u : State} {a1 a2 a3 a4} (hP : Fits 0x806059b00000000030000000001206800000000000140a100000000000000000000000000000000000 P) (h : Keeps P s u) :
    Keeps P s (State.dropLeaf u a1 a2 a3 a4) := by
  induction a4 generalizing u a1 a2 a3 with
  | zero =>
    unfold State.dropLeaf
    repeat' (first
      | with_reducible exact h
      | with_reducible assumption
      | dsimp -zeta only
      | with_reducible refine keeps_hbmRead64 (hP.sub rfl) ?_
      | with_reducible refine keeps_hbmRead64_eq (by assumption) (hP.sub rfl) ?_
      | with_reducible refine keeps_putEntry (hP.sub rfl) ?_
      | intro _
      | with_reducible refine keeps_ite ?_ ?_
      | with_reducible refine keeps_ite_fst ?_ ?_
      | with_reducible refine keeps_pair (by assumption) ?_
      | split
      | fail_if_no_progress extract_lets
      | dsimp +zetaDelta only)
  | succ n ih =>
    unfold State.dropLeaf
    repeat' (first
      | with_reducible exact h
      | with_reducible assumption
      | dsimp -zeta only
      | with_reducible apply ih
      | with_reducible refine keeps_hbmRead64 (hP.sub rfl) ?_
      | with_reducible refine keeps_hbmRead64_eq (by assumption) (hP.sub rfl) ?_
      | with_reducible refine keeps_putEntry (hP.sub rfl) ?_
      | intro _
      | with_reducible refine keeps_ite ?_ ?_
      | with_reducible refine keeps_ite_fst ?_ ?_
      | with_reducible refine keeps_pair (by assumption) ?_
      | split
      | fail_if_no_progress extract_lets
      | dsimp +zetaDelta only)

theorem keeps_bodyChartUnmap {P : Nat} {s u : State} {k} (hP : Fits 0xa1e059b000000000300000000012068000000a1002140a100000000000000000000000000000000000 P) (h : Keeps P s u) :
    Keeps P s (bodyChartUnmap k u).1 := by
  unfold bodyChartUnmap
  beta_reduce
  repeat' (first
    | with_reducible exact h
    | with_reducible assumption
    | dsimp -zeta only
    | with_reducible refine keeps_settleWrites (hP.sub rfl) ?_
    | with_reducible refine keeps_afterClear (hP.sub rfl) ?_
    | with_reducible refine keeps_retryRange (hP.sub rfl) ?_
    | with_reducible refine keeps_dropLeaf (hP.sub rfl) ?_
    | with_reducible refine keeps_tlbDrop (hP.sub rfl) ?_
    | with_reducible refine keeps_leaves (hP.sub rfl) ?_
    | with_reducible refine keeps_leaves_eq (by assumption) (hP.sub rfl) ?_
    | with_reducible refine keeps_fail (hP.sub rfl) ?_
    | with_reducible refine keeps_fail_eq (by assumption) (hP.sub rfl) ?_
    | with_reducible refine keeps_ok (hP.sub rfl) ?_
    | with_reducible refine keeps_ok_eq (by assumption) (hP.sub rfl) ?_
    | with_reducible refine keeps_foldl ?_ ?_
    | with_reducible refine keeps_foldl_fst ?_ ?_
    | intro _
    | with_reducible refine keeps_ite ?_ ?_
    | with_reducible refine keeps_ite_fst ?_ ?_
    | with_reducible refine keeps_pair (by assumption) ?_
    | split
    | fail_if_no_progress extract_lets
    | dsimp +zetaDelta only)

theorem keeps_bodyChartUnmap_eq {P : Nat} {s u v : State} {k} {x} (he : bodyChartUnmap k u = (v, x)) (hP : Fits 0xa1e059b000000000300000000012068000000a1002140a100000000000000000000000000000000000 P)
    (h : Keeps P s u) : Keeps P s v := by
  have h1 := keeps_bodyChartUnmap (k := k) hP h
  rw [he] at h1
  exact h1

theorem keeps_invalidate {P : Nat} {s u : State} {a1 a2 a3 a4} (hP : Fits 0xa1e059b000000000300000000012068000000a1002140a100000000000000000000000000000000000 P) (h : Keeps P s u) :
    Keeps P s (State.invalidate u a1 a2 a3 a4) := by
  unfold State.invalidate
  repeat' (first
    | with_reducible exact h
    | with_reducible assumption
    | dsimp -zeta only
    | with_reducible refine keeps_settleWrites (hP.sub rfl) ?_
    | with_reducible refine keeps_afterClear (hP.sub rfl) ?_
    | with_reducible refine keeps_retryRange (hP.sub rfl) ?_
    | with_reducible refine keeps_retryFault (hP.sub rfl) ?_
    | with_reducible refine keeps_retryFault_eq (by assumption) (hP.sub rfl) ?_
    | with_reducible refine keeps_tlbDrop (hP.sub rfl) ?_
    | with_reducible refine keeps_foldl ?_ ?_
    | with_reducible refine keeps_foldl_fst ?_ ?_
    | intro _
    | with_reducible refine keeps_ite ?_ ?_
    | with_reducible refine keeps_ite_fst ?_ ?_
    | with_reducible refine keeps_pair (by assumption) ?_
    | split
    | fail_if_no_progress extract_lets
    | fail_if_no_progress with_reducible refine keeps_chart hP rfl ?_
    | dsimp +zetaDelta only)

theorem keeps_bodyChartInvalidate {P : Nat} {s u : State} {k} (hP : Fits 0xa1e059b000000000300000000012068000000a1002140a100000000000000000000000000000000000 P) (h : Keeps P s u) :
    Keeps P s (bodyChartInvalidate k u).1 := by
  unfold bodyChartInvalidate
  beta_reduce
  repeat' (first
    | with_reducible exact h
    | with_reducible assumption
    | dsimp -zeta only
    | with_reducible refine keeps_invalidate (hP.sub rfl) ?_
    | with_reducible refine keeps_fail (hP.sub rfl) ?_
    | with_reducible refine keeps_fail_eq (by assumption) (hP.sub rfl) ?_
    | with_reducible refine keeps_ok (hP.sub rfl) ?_
    | with_reducible refine keeps_ok_eq (by assumption) (hP.sub rfl) ?_
    | intro _
    | with_reducible refine keeps_ite ?_ ?_
    | with_reducible refine keeps_ite_fst ?_ ?_
    | with_reducible refine keeps_pair (by assumption) ?_
    | split
    | fail_if_no_progress extract_lets
    | dsimp +zetaDelta only)

theorem keeps_bodyChartInvalidate_eq {P : Nat} {s u v : State} {k} {x} (he : bodyChartInvalidate k u = (v, x)) (hP : Fits 0xa1e059b000000000300000000012068000000a1002140a100000000000000000000000000000000000 P)
    (h : Keeps P s u) : Keeps P s v := by
  have h1 := keeps_bodyChartInvalidate (k := k) hP h
  rw [he] at h1
  exact h1

theorem keeps_doChtInvGo {P : Nat} {s u : State} (hP : Fits 0xa1e059b000000000300000000012068000000a1002140a100000000000000000000000000000000000 P) (h : Keeps P s u) :
    Keeps P s (State.doChtInvGo u) := by
  unfold State.doChtInvGo
  repeat' (first
    | with_reducible exact h
    | with_reducible assumption
    | dsimp -zeta only
    | with_reducible refine keeps_invalidate (hP.sub rfl) ?_
    | intro _
    | with_reducible refine keeps_ite ?_ ?_
    | with_reducible refine keeps_ite_fst ?_ ?_
    | with_reducible refine keeps_pair (by assumption) ?_
    | split
    | fail_if_no_progress extract_lets
    | dsimp +zetaDelta only)

theorem keeps_bodyChartRetry {P : Nat} {s u : State} {k} (hP : Fits 0xa1e059b000000000300000000012068000000a1002140a100000000000000000000000000000000000 P) (h : Keeps P s u) :
    Keeps P s (bodyChartRetry k u).1 := by
  unfold bodyChartRetry
  beta_reduce
  repeat' (first
    | with_reducible exact h
    | with_reducible assumption
    | dsimp -zeta only
    | with_reducible refine keeps_afterClear (hP.sub rfl) ?_
    | with_reducible refine keeps_retryFault (hP.sub rfl) ?_
    | with_reducible refine keeps_retryFault_eq (by assumption) (hP.sub rfl) ?_
    | with_reducible refine keeps_fail (hP.sub rfl) ?_
    | with_reducible refine keeps_fail_eq (by assumption) (hP.sub rfl) ?_
    | with_reducible refine keeps_ok (hP.sub rfl) ?_
    | with_reducible refine keeps_ok_eq (by assumption) (hP.sub rfl) ?_
    | intro _
    | with_reducible refine keeps_ite ?_ ?_
    | with_reducible refine keeps_ite_fst ?_ ?_
    | with_reducible refine keeps_pair (by assumption) ?_
    | split
    | fail_if_no_progress extract_lets
    | dsimp +zetaDelta only)

theorem keeps_bodyChartRetry_eq {P : Nat} {s u v : State} {k} {x} (he : bodyChartRetry k u = (v, x)) (hP : Fits 0xa1e059b000000000300000000012068000000a1002140a100000000000000000000000000000000000 P)
    (h : Keeps P s u) : Keeps P s v := by
  have h1 := keeps_bodyChartRetry (k := k) hP h
  rw [he] at h1
  exact h1

theorem keeps_bodyChartAbandon {P : Nat} {s u : State} {k} (hP : Fits 0x2180002000000000000000000000000000000200000000000000000000000000000000000000000000 P) (h : Keeps P s u) :
    Keeps P s (bodyChartAbandon k u).1 := by
  unfold bodyChartAbandon
  beta_reduce
  repeat' (first
    | with_reducible exact h
    | with_reducible assumption
    | dsimp -zeta only
    | with_reducible refine keeps_failHolds (hP.sub rfl) ?_
    | with_reducible refine keeps_setSlot (hP.sub rfl) ?_
    | with_reducible refine keeps_dmaEnds (hP.sub rfl) ?_
    | with_reducible refine keeps_fail (hP.sub rfl) ?_
    | with_reducible refine keeps_fail_eq (by assumption) (hP.sub rfl) ?_
    | with_reducible refine keeps_ok (hP.sub rfl) ?_
    | with_reducible refine keeps_ok_eq (by assumption) (hP.sub rfl) ?_
    | intro _
    | with_reducible refine keeps_ite ?_ ?_
    | with_reducible refine keeps_ite_fst ?_ ?_
    | with_reducible refine keeps_pair (by assumption) ?_
    | split
    | fail_if_no_progress extract_lets
    | dsimp +zetaDelta only)

theorem keeps_bodyChartAbandon_eq {P : Nat} {s u v : State} {k} {x} (he : bodyChartAbandon k u = (v, x)) (hP : Fits 0x2180002000000000000000000000000000000200000000000000000000000000000000000000000000 P)
    (h : Keeps P s u) : Keeps P s v := by
  have h1 := keeps_bodyChartAbandon (k := k) hP h
  rw [he] at h1
  exact h1

theorem keeps_bodyAspaceSet {P : Nat} {s u : State} {k} (hP : Fits 0x80000000000000000000000000000000000006000000000000000000000000000000000000000000 P) (h : Keeps P s u) :
    Keeps P s (bodyAspaceSet k u).1 := by
  unfold bodyAspaceSet
  beta_reduce
  repeat' (first
    | with_reducible exact h
    | with_reducible assumption
    | dsimp -zeta only
    | with_reducible refine keeps_tlbDrop (hP.sub rfl) ?_
    | with_reducible refine keeps_fail (hP.sub rfl) ?_
    | with_reducible refine keeps_fail_eq (by assumption) (hP.sub rfl) ?_
    | with_reducible refine keeps_ok (hP.sub rfl) ?_
    | with_reducible refine keeps_ok_eq (by assumption) (hP.sub rfl) ?_
    | with_reducible refine keeps_fput hP rfl ?_
    | intro _
    | with_reducible refine keeps_ite ?_ ?_
    | with_reducible refine keeps_ite_fst ?_ ?_
    | with_reducible refine keeps_pair (by assumption) ?_
    | split
    | fail_if_no_progress extract_lets
    | dsimp +zetaDelta only)

theorem keeps_bodyAspaceSet_eq {P : Nat} {s u v : State} {k} {x} (he : bodyAspaceSet k u = (v, x)) (hP : Fits 0x80000000000000000000000000000000000006000000000000000000000000000000000000000000 P)
    (h : Keeps P s u) : Keeps P s v := by
  have h1 := keeps_bodyAspaceSet (k := k) hP h
  rw [he] at h1
  exact h1

theorem keeps_doWalkComplete {P : Nat} {s u : State} {a1 a2 a3 a4} (hP : Fits 0x81e059b000000000300000000012068000000a1002140a100000000000000000000000000000000000 P) (h : Keeps P s u) :
    Keeps P s (State.doWalkComplete u a1 a2 a3 a4) := by
  unfold State.doWalkComplete
  repeat' (first
    | with_reducible exact h
    | with_reducible assumption
    | dsimp -zeta only
    | with_reducible refine keeps_completeWalk (hP.sub rfl) ?_
    | with_reducible refine keeps_askWalks (hP.sub rfl) ?_
    | intro _
    | with_reducible refine keeps_ite ?_ ?_
    | with_reducible refine keeps_ite_fst ?_ ?_
    | with_reducible refine keeps_pair (by assumption) ?_
    | split
    | fail_if_no_progress extract_lets
    | dsimp +zetaDelta only)

theorem keeps_execWalkComplete {P : Nat} {u t : State} {a0 a1 a2 a3} (he : execWalkComplete a0 a1 a2 a3 u = .next t) (hP : Fits 0x81e059b000000000300000000012068000000a1002140a100000000000000000000000000000000000 P) : Keeps P u t := by
  unfold execWalkComplete at he
  injection he with he
  subst he
  repeat' (first
    | with_reducible exact Keeps.refl P u
    | with_reducible assumption
    | dsimp -zeta only
    | with_reducible refine keeps_doWalkComplete (hP.sub rfl) ?_
    | intro _
    | with_reducible refine keeps_ite ?_ ?_
    | with_reducible refine keeps_ite_fst ?_ ?_
    | with_reducible refine keeps_pair (by assumption) ?_
    | split
    | fail_if_no_progress extract_lets
    | dsimp +zetaDelta only)

theorem keeps_execAspaceSet {P : Nat} {u t : State} {a0} (he : execAspaceSet a0 u = .next t) (hP : Fits 0x2080e02000000000000000000000000003f00006000000000000000000000000000000000000000000 P) : Keeps P u t := by
  unfold execAspaceSet at he
  injection he with he
  subst he
  repeat' (first
    | with_reducible exact Keeps.refl P u
    | with_reducible assumption
    | dsimp -zeta only
    | with_reducible refine keeps_runCommand (hP.sub rfl) ?_ ?_
    | with_reducible refine keeps_bodyAspaceSet (hP.sub rfl) ?_
    | with_reducible refine keeps_bodyAspaceSet_eq (by assumption) (hP.sub rfl) ?_
    | intro _
    | with_reducible refine keeps_ite ?_ ?_
    | with_reducible refine keeps_ite_fst ?_ ?_
    | with_reducible refine keeps_pair (by assumption) ?_
    | split
    | fail_if_no_progress extract_lets
    | dsimp +zetaDelta only)

theorem keeps_execChartMap {P : Nat} {u t : State} {a0} (he : execChartMap a0 u = .next t) (hP : Fits 0xa1e0f9b000000000300000000012068003f00a1002140a100000000000000000000000000000000000 P) : Keeps P u t := by
  unfold execChartMap at he
  injection he with he
  subst he
  repeat' (first
    | with_reducible exact Keeps.refl P u
    | with_reducible assumption
    | dsimp -zeta only
    | with_reducible refine keeps_runCommand (hP.sub rfl) ?_ ?_
    | with_reducible refine keeps_bodyChartMap (hP.sub rfl) ?_
    | with_reducible refine keeps_bodyChartMap_eq (by assumption) (hP.sub rfl) ?_
    | intro _
    | with_reducible refine keeps_ite ?_ ?_
    | with_reducible refine keeps_ite_fst ?_ ?_
    | with_reducible refine keeps_pair (by assumption) ?_
    | split
    | fail_if_no_progress extract_lets
    | dsimp +zetaDelta only)

theorem keeps_execChartUnmap {P : Nat} {u t : State} {a0} (he : execChartUnmap a0 u = .next t) (hP : Fits 0xa1e0f9b000000000300000000012068003f00a1002140a100000000000000000000000000000000000 P) : Keeps P u t := by
  unfold execChartUnmap at he
  injection he with he
  subst he
  repeat' (first
    | with_reducible exact Keeps.refl P u
    | with_reducible assumption
    | dsimp -zeta only
    | with_reducible refine keeps_runCommand (hP.sub rfl) ?_ ?_
    | with_reducible refine keeps_bodyChartUnmap (hP.sub rfl) ?_
    | with_reducible refine keeps_bodyChartUnmap_eq (by assumption) (hP.sub rfl) ?_
    | intro _
    | with_reducible refine keeps_ite ?_ ?_
    | with_reducible refine keeps_ite_fst ?_ ?_
    | with_reducible refine keeps_pair (by assumption) ?_
    | split
    | fail_if_no_progress extract_lets
    | dsimp +zetaDelta only)

theorem keeps_execChartInvalidate {P : Nat} {u t : State} {a0} (he : execChartInvalidate a0 u = .next t) (hP : Fits 0xa1e0f9b000000000300000000012068003f00a1002140a100000000000000000000000000000000000 P) : Keeps P u t := by
  unfold execChartInvalidate at he
  injection he with he
  subst he
  repeat' (first
    | with_reducible exact Keeps.refl P u
    | with_reducible assumption
    | dsimp -zeta only
    | with_reducible refine keeps_bodyChartInvalidate (hP.sub rfl) ?_
    | with_reducible refine keeps_bodyChartInvalidate_eq (by assumption) (hP.sub rfl) ?_
    | with_reducible refine keeps_runCommand (hP.sub rfl) ?_ ?_
    | intro _
    | with_reducible refine keeps_ite ?_ ?_
    | with_reducible refine keeps_ite_fst ?_ ?_
    | with_reducible refine keeps_pair (by assumption) ?_
    | split
    | fail_if_no_progress extract_lets
    | dsimp +zetaDelta only)

theorem keeps_execChartRetry {P : Nat} {u t : State} {a0} (he : execChartRetry a0 u = .next t) (hP : Fits 0xa1e0f9b000000000300000000012068003f00a1002140a100000000000000000000000000000000000 P) : Keeps P u t := by
  unfold execChartRetry at he
  injection he with he
  subst he
  repeat' (first
    | with_reducible exact Keeps.refl P u
    | with_reducible assumption
    | dsimp -zeta only
    | with_reducible refine keeps_runCommand (hP.sub rfl) ?_ ?_
    | with_reducible refine keeps_bodyChartRetry (hP.sub rfl) ?_
    | with_reducible refine keeps_bodyChartRetry_eq (by assumption) (hP.sub rfl) ?_
    | intro _
    | with_reducible refine keeps_ite ?_ ?_
    | with_reducible refine keeps_ite_fst ?_ ?_
    | with_reducible refine keeps_pair (by assumption) ?_
    | split
    | fail_if_no_progress extract_lets
    | dsimp +zetaDelta only)

theorem keeps_execChartAbandon {P : Nat} {u t : State} {a0} (he : execChartAbandon a0 u = .next t) (hP : Fits 0x2180e02000000000000000000000000003f00200000000000000000000000000000000000000000000 P) : Keeps P u t := by
  unfold execChartAbandon at he
  injection he with he
  subst he
  repeat' (first
    | with_reducible exact Keeps.refl P u
    | with_reducible assumption
    | dsimp -zeta only
    | with_reducible refine keeps_bodyChartAbandon (hP.sub rfl) ?_
    | with_reducible refine keeps_bodyChartAbandon_eq (by assumption) (hP.sub rfl) ?_
    | with_reducible refine keeps_runCommand (hP.sub rfl) ?_ ?_
    | intro _
    | with_reducible refine keeps_ite ?_ ?_
    | with_reducible refine keeps_ite_fst ?_ ?_
    | with_reducible refine keeps_pair (by assumption) ?_
    | split
    | fail_if_no_progress extract_lets
    | dsimp +zetaDelta only)

end Sys2Proof.Machine
end

