-- ==== Sys2Proof/Laws/KeepsSwitchyard.lean ====
section
/-! SUPPORT. What each operation of Machine/Switchyard.lean may change, and that it keeps the invariant: one law for each. -/

set_option linter.unreachableTactic false
set_option linter.unusedTactic false

namespace Sys2Proof.Machine

theorem keeps_opResult {P : Nat} {s u : State} {a1 a2 a3} (hP : Fits 0x400000000000000000000000000000000000000000000000000 P) (h : Keeps P s u) :
    Keeps P s (State.opResult u a1 a2 a3) := by
  unfold State.opResult
  repeat' (first
    | with_reducible exact h
    | with_reducible assumption
    | dsimp -zeta only
    | with_reducible refine keeps_fput hP rfl ?_
    | intro _
    | with_reducible refine keeps_ite ?_ ?_
    | with_reducible refine keeps_ite_fst ?_ ?_
    | with_reducible refine keeps_pair (by assumption) ?_
    | split
    | fail_if_no_progress extract_lets
    | dsimp +zetaDelta only)

theorem keeps_leaveHart {P : Nat} {s u : State} {a1 a2} (hP : Fits 0x100000000000000000000000000400000000000000000000000000000000000000000000000000 P) (h : Keeps P s u) :
    Keeps P s (State.leaveHart u a1 a2) := by
  unfold State.leaveHart
  repeat' (first
    | with_reducible exact h
    | with_reducible assumption
    | dsimp -zeta only
    | with_reducible refine keeps_opResult (hP.sub rfl) ?_
    | with_reducible refine keeps_setHart (hP.sub rfl) ?_
    | intro _
    | with_reducible refine keeps_ite ?_ ?_
    | with_reducible refine keeps_ite_fst ?_ ?_
    | with_reducible refine keeps_pair (by assumption) ?_
    | split
    | fail_if_no_progress extract_lets
    | dsimp +zetaDelta only)

theorem keeps_freeTask {P : Nat} {s u : State} {a1} (hP : Fits 0x100000000000000000000000000000000000000000000000000000000000000000000000000000 P) (h : Keeps P s u) :
    Keeps P s (State.freeTask u a1) := by
  unfold State.freeTask
  repeat' (first
    | with_reducible exact h
    | with_reducible assumption
    | dsimp -zeta only
    | with_reducible refine keeps_setTask (hP.sub rfl) ?_
    | intro _
    | with_reducible refine keeps_ite ?_ ?_
    | with_reducible refine keeps_ite_fst ?_ ?_
    | with_reducible refine keeps_pair (by assumption) ?_
    | split
    | fail_if_no_progress extract_lets
    | fail_if_no_progress with_reducible refine keeps_swy hP rfl ?_
    | dsimp +zetaDelta only)

theorem keeps_dropHeldPost {P : Nat} {s u : State} {a1} (hP : Fits 0x80000000000000000000000000000000000000000000000000000000000000000000000000000 P) (h : Keeps P s u) :
    Keeps P s (State.dropHeldPost u a1) := by
  unfold State.dropHeldPost
  repeat' (first
    | with_reducible exact h
    | with_reducible assumption
    | dsimp -zeta only
    | with_reducible refine keeps_setDq (hP.sub rfl) ?_
    | intro _
    | with_reducible refine keeps_ite ?_ ?_
    | with_reducible refine keeps_ite_fst ?_ ?_
    | with_reducible refine keeps_pair (by assumption) ?_
    | split
    | fail_if_no_progress extract_lets
    | dsimp +zetaDelta only)

theorem keeps_hartOp {P : Nat} {s u : State} {a1 a2} (hP : Fits 0x100000000000000000000000000400000000000000000000000000000000000000000000000000 P) (h2 : ∀ v, Keeps P s v → Keeps P s (a2 v)) (h : Keeps P s u) :
    Keeps P s (State.hartOp u a1 a2) := by
  unfold State.hartOp
  repeat' (first
    | with_reducible exact h
    | with_reducible assumption
    | dsimp -zeta only
    | with_reducible refine keeps_leaveHart (hP.sub rfl) ?_
    | with_reducible refine keeps_freeTask (hP.sub rfl) ?_
    | with_reducible refine h2 _ ?_
    | intro _
    | with_reducible refine keeps_ite ?_ ?_
    | with_reducible refine keeps_ite_fst ?_ ?_
    | with_reducible refine keeps_pair (by assumption) ?_
    | split
    | fail_if_no_progress extract_lets
    | dsimp +zetaDelta only)

theorem keeps_ownOp {P : Nat} {s u : State} {a1 a2} (hP : Fits 0x100000000000000000000000000400000000000000000000000000000000000000000000000000 P) (h2 : ∀ x0 v, Keeps P s v → Keeps P s (a2 x0 v)) (h : Keeps P s u) :
    Keeps P s (State.ownOp u a1 a2) := by
  unfold State.ownOp
  repeat' (first
    | with_reducible exact h
    | with_reducible assumption
    | dsimp -zeta only
    | with_reducible refine keeps_opResult (hP.sub rfl) ?_
    | with_reducible refine keeps_hartOp (hP.sub rfl) ?_ ?_
    | with_reducible refine h2 _ _ ?_
    | intro _
    | with_reducible refine keeps_ite ?_ ?_
    | with_reducible refine keeps_ite_fst ?_ ?_
    | with_reducible refine keeps_pair (by assumption) ?_
    | split
    | fail_if_no_progress extract_lets
    | dsimp +zetaDelta only)

theorem keeps_taskOp {P : Nat} {s u : State} {a1 a2 a3} (hP : Fits 0x100000000000000000000000000400000000000000000000000000000000000000000000000000 P) (h3 : ∀ v, Keeps P s v → Keeps P s (a3 v)) (h : Keeps P s u) :
    Keeps P s (State.taskOp u a1 a2 a3) := by
  unfold State.taskOp
  repeat' (first
    | with_reducible exact h
    | with_reducible assumption
    | dsimp -zeta only
    | with_reducible refine keeps_opResult (hP.sub rfl) ?_
    | with_reducible refine keeps_hartOp (hP.sub rfl) ?_ ?_
    | with_reducible refine h3 _ ?_
    | intro _
    | with_reducible refine keeps_ite ?_ ?_
    | with_reducible refine keeps_ite_fst ?_ ?_
    | with_reducible refine keeps_pair (by assumption) ?_
    | split
    | fail_if_no_progress extract_lets
    | dsimp +zetaDelta only)

theorem keeps_doCreate {P : Nat} {s u : State} {a1 a2 a3} (hP : Fits 0x100000000000000000000000000400000000000000000000000000000000000000000000000000 P) (h : Keeps P s u) :
    Keeps P s (State.doCreate u a1 a2 a3) := by
  unfold State.doCreate
  repeat' (first
    | with_reducible exact h
    | with_reducible assumption
    | dsimp -zeta only
    | with_reducible refine keeps_makeReady (hP.sub rfl) ?_
    | with_reducible refine keeps_opResult (hP.sub rfl) ?_
    | with_reducible refine keeps_setTask (hP.sub rfl) ?_
    | with_reducible refine keeps_taskOp (hP.sub rfl) ?_ ?_
    | intro _
    | with_reducible refine keeps_ite ?_ ?_
    | with_reducible refine keeps_ite_fst ?_ ?_
    | with_reducible refine keeps_pair (by assumption) ?_
    | split
    | fail_if_no_progress extract_lets
    | dsimp +zetaDelta only)

theorem keeps_doDelete {P : Nat} {s u : State} {a1 a2} (hP : Fits 0x180000000000000000000000000400000000000000000000000000000000000000000000000000 P) (h : Keeps P s u) :
    Keeps P s (State.doDelete u a1 a2) := by
  unfold State.doDelete
  repeat' (first
    | with_reducible exact h
    | with_reducible assumption
    | dsimp -zeta only
    | with_reducible refine keeps_dropHeldPost (hP.sub rfl) ?_
    | with_reducible refine keeps_freeTask (hP.sub rfl) ?_
    | with_reducible refine keeps_opResult (hP.sub rfl) ?_
    | with_reducible refine keeps_setTask (hP.sub rfl) ?_
    | with_reducible refine keeps_taskOp (hP.sub rfl) ?_ ?_
    | intro _
    | with_reducible refine keeps_ite ?_ ?_
    | with_reducible refine keeps_ite_fst ?_ ?_
    | with_reducible refine keeps_pair (by assumption) ?_
    | split
    | fail_if_no_progress extract_lets
    | dsimp +zetaDelta only)

theorem keeps_doSetPrio {P : Nat} {s u : State} {a1 a2 a3} (hP : Fits 0x100000000000000000000000000400000000000000000000000000000000000000000000000000 P) (h : Keeps P s u) :
    Keeps P s (State.doSetPrio u a1 a2 a3) := by
  unfold State.doSetPrio
  repeat' (first
    | with_reducible exact h
    | with_reducible assumption
    | dsimp -zeta only
    | with_reducible refine keeps_opResult (hP.sub rfl) ?_
    | with_reducible refine keeps_setTask (hP.sub rfl) ?_
    | with_reducible refine keeps_taskOp (hP.sub rfl) ?_ ?_
    | intro _
    | with_reducible refine keeps_ite ?_ ?_
    | with_reducible refine keeps_ite_fst ?_ ?_
    | with_reducible refine keeps_pair (by assumption) ?_
    | split
    | fail_if_no_progress extract_lets
    | fail_if_no_progress with_reducible refine keeps_swy hP rfl ?_
    | dsimp +zetaDelta only)

theorem keeps_doSetFlags {P : Nat} {s u : State} {a1 a2 a3} (hP : Fits 0x100000000000000000000000000400000000000000000000000000000000000000000000000000 P) (h : Keeps P s u) :
    Keeps P s (State.doSetFlags u a1 a2 a3) := by
  unfold State.doSetFlags
  repeat' (first
    | with_reducible exact h
    | with_reducible assumption
    | dsimp -zeta only
    | with_reducible refine keeps_opResult (hP.sub rfl) ?_
    | with_reducible refine keeps_setFlags (hP.sub rfl) ?_
    | with_reducible refine keeps_taskOp (hP.sub rfl) ?_ ?_
    | intro _
    | with_reducible refine keeps_ite ?_ ?_
    | with_reducible refine keeps_ite_fst ?_ ?_
    | with_reducible refine keeps_pair (by assumption) ?_
    | split
    | fail_if_no_progress extract_lets
    | dsimp +zetaDelta only)

theorem keeps_doClearFlags {P : Nat} {s u : State} {a1 a2} (hP : Fits 0x100000000000000000000000000600000000000000000000000000000000000000000000000000 P) (h : Keeps P s u) :
    Keeps P s (State.doClearFlags u a1 a2) := by
  unfold State.doClearFlags
  repeat' (first
    | with_reducible exact h
    | with_reducible assumption
    | dsimp -zeta only
    | with_reducible refine keeps_opResult (hP.sub rfl) ?_
    | with_reducible refine keeps_setTask (hP.sub rfl) ?_
    | with_reducible refine keeps_ownOp (hP.sub rfl) ?_ ?_
    | with_reducible refine keeps_fput hP rfl ?_
    | intro _
    | with_reducible refine keeps_ite ?_ ?_
    | with_reducible refine keeps_ite_fst ?_ ?_
    | with_reducible refine keeps_pair (by assumption) ?_
    | split
    | fail_if_no_progress extract_lets
    | dsimp +zetaDelta only)

theorem keeps_delayInsert {P : Nat} {s u : State} {a1 a2} (hP : Fits 0x100000000000000000000000000000000000000000000000000000000000000000000000000000 P) (h : Keeps P s u) :
    Keeps P s (State.delayInsert u a1 a2) := by
  unfold State.delayInsert
  repeat' (first
    | with_reducible exact h
    | with_reducible assumption
    | dsimp -zeta only
    | with_reducible refine keeps_setTask (hP.sub rfl) ?_
    | intro _
    | with_reducible refine keeps_ite ?_ ?_
    | with_reducible refine keeps_ite_fst ?_ ?_
    | with_reducible refine keeps_pair (by assumption) ?_
    | split
    | fail_if_no_progress extract_lets
    | fail_if_no_progress with_reducible refine keeps_swy hP rfl ?_
    | dsimp +zetaDelta only)

theorem keeps_doWait {P : Nat} {s u : State} {a1 a2 a3 a4 a5} (hP : Fits 0x100000000000000000000000000600000000000000000000000000000000000000000000000000 P) (h : Keeps P s u) :
    Keeps P s (State.doWait u a1 a2 a3 a4 a5) := by
  unfold State.doWait
  repeat' (first
    | with_reducible exact h
    | with_reducible assumption
    | dsimp -zeta only
    | with_reducible refine keeps_delayInsert (hP.sub rfl) ?_
    | with_reducible refine keeps_leaveHart (hP.sub rfl) ?_
    | with_reducible refine keeps_opResult (hP.sub rfl) ?_
    | with_reducible refine keeps_setTask (hP.sub rfl) ?_
    | with_reducible refine keeps_ownOp (hP.sub rfl) ?_ ?_
    | with_reducible refine keeps_fput hP rfl ?_
    | intro _
    | with_reducible refine keeps_ite ?_ ?_
    | with_reducible refine keeps_ite_fst ?_ ?_
    | with_reducible refine keeps_pair (by assumption) ?_
    | split
    | fail_if_no_progress extract_lets
    | dsimp +zetaDelta only)

theorem keeps_doDelay {P : Nat} {s u : State} {a1 a2} (hP : Fits 0x100000000000000000000000000600000000000000000000000000000000000000000000000000 P) (h : Keeps P s u) :
    Keeps P s (State.doDelay u a1 a2) := by
  unfold State.doDelay
  repeat' (first
    | with_reducible exact h
    | with_reducible assumption
    | dsimp -zeta only
    | with_reducible refine keeps_delayInsert (hP.sub rfl) ?_
    | with_reducible refine keeps_leaveHart (hP.sub rfl) ?_
    | with_reducible refine keeps_opResult (hP.sub rfl) ?_
    | with_reducible refine keeps_setTask (hP.sub rfl) ?_
    | with_reducible refine keeps_ownOp (hP.sub rfl) ?_ ?_
    | with_reducible refine keeps_fput hP rfl ?_
    | intro _
    | with_reducible refine keeps_ite ?_ ?_
    | with_reducible refine keeps_ite_fst ?_ ?_
    | with_reducible refine keeps_pair (by assumption) ?_
    | split
    | fail_if_no_progress extract_lets
    | dsimp +zetaDelta only)

theorem keeps_doYield {P : Nat} {s u : State} {a1} (hP : Fits 0x100000000000000000000000000400000000000000000000000000000000000000000000000000 P) (h : Keeps P s u) :
    Keeps P s (State.doYield u a1) := by
  unfold State.doYield
  repeat' (first
    | with_reducible exact h
    | with_reducible assumption
    | dsimp -zeta only
    | with_reducible refine keeps_makeReady (hP.sub rfl) ?_
    | with_reducible refine keeps_leaveHart (hP.sub rfl) ?_
    | with_reducible refine keeps_setTask (hP.sub rfl) ?_
    | with_reducible refine keeps_ownOp (hP.sub rfl) ?_ ?_
    | intro _
    | with_reducible refine keeps_ite ?_ ?_
    | with_reducible refine keeps_ite_fst ?_ ?_
    | with_reducible refine keeps_pair (by assumption) ?_
    | split
    | fail_if_no_progress extract_lets
    | dsimp +zetaDelta only)

theorem keeps_putHartMsg {P : Nat} {s u : State} {a1 a2 a3} (hP : Fits 0x2000000000000000000000000000000000000000000000000000 P) (h : Keeps P s u) :
    Keeps P s (State.putHartMsg u a1 a2 a3) := by
  unfold State.putHartMsg
  repeat' (first
    | with_reducible exact h
    | with_reducible assumption
    | dsimp -zeta only
    | with_reducible refine keeps_wr hP rfl ?_
    | with_reducible refine keeps_foldl ?_ ?_
    | with_reducible refine keeps_foldl_fst ?_ ?_
    | intro _
    | with_reducible refine keeps_ite ?_ ?_
    | with_reducible refine keeps_ite_fst ?_ ?_
    | with_reducible refine keeps_pair (by assumption) ?_
    | split
    | fail_if_no_progress extract_lets
    | dsimp +zetaDelta only)

theorem keeps_doPost {P : Nat} {s u : State} {a1 a2 a3} (hP : Fits 0x18800000000000000000001206a400000000000000000000000000000000000000000000000000 P) (h : Keeps P s u) :
    Keeps P s (State.doPost u a1 a2 a3) := by
  unfold State.doPost
  repeat' (first
    | with_reducible exact h
    | with_reducible assumption
    | dsimp -zeta only
    | with_reducible refine keeps_putHartMsg (hP.sub rfl) ?_
    | with_reducible refine keeps_leaveHart (hP.sub rfl) ?_
    | with_reducible refine keeps_opResult (hP.sub rfl) ?_
    | with_reducible refine keeps_setTask (hP.sub rfl) ?_
    | with_reducible refine keeps_commit (hP.sub rfl) ?_
    | with_reducible refine keeps_commit_eq (by assumption) (hP.sub rfl) ?_
    | with_reducible refine keeps_ownOp (hP.sub rfl) ?_ ?_
    | intro _
    | with_reducible refine keeps_ite ?_ ?_
    | with_reducible refine keeps_ite_fst ?_ ?_
    | with_reducible refine keeps_pair (by assumption) ?_
    | split
    | fail_if_no_progress extract_lets
    | dsimp +zetaDelta only)

theorem keeps_doTake {P : Nat} {s u : State} {a1 a2} (hP : Fits 0x200018800000000000000000000600a400000000000000000000000000000000000000000000000000 P) (h : Keeps P s u) :
    Keeps P s (State.doTake u a1 a2) := by
  unfold State.doTake
  repeat' (first
    | with_reducible exact h
    | with_reducible assumption
    | dsimp -zeta only
    | with_reducible refine keeps_putHartMsg (hP.sub rfl) ?_
    | with_reducible refine keeps_opResult (hP.sub rfl) ?_
    | with_reducible refine keeps_ownOp (hP.sub rfl) ?_ ?_
    | with_reducible refine keeps_qTake_eq (by assumption) (hP.sub rfl) ?_
    | intro _
    | with_reducible refine keeps_ite ?_ ?_
    | with_reducible refine keeps_ite_fst ?_ ?_
    | with_reducible refine keeps_pair (by assumption) ?_
    | split
    | fail_if_no_progress extract_lets
    | dsimp +zetaDelta only)

theorem keeps_doExit {P : Nat} {s u : State} {a1} (hP : Fits 0x100000000000000000000000000400000000000000000000000000000000000000000000000000 P) (h : Keeps P s u) :
    Keeps P s (State.doExit u a1) := by
  unfold State.doExit
  repeat' (first
    | with_reducible exact h
    | with_reducible assumption
    | dsimp -zeta only
    | with_reducible refine keeps_leaveHart (hP.sub rfl) ?_
    | with_reducible refine keeps_freeTask (hP.sub rfl) ?_
    | with_reducible refine keeps_ownOp (hP.sub rfl) ?_ ?_
    | intro _
    | with_reducible refine keeps_ite ?_ ?_
    | with_reducible refine keeps_ite_fst ?_ ?_
    | with_reducible refine keeps_pair (by assumption) ?_
    | split
    | fail_if_no_progress extract_lets
    | dsimp +zetaDelta only)

theorem keeps_rejoin {P : Nat} {s u : State} {a1} (hP : Fits 0x100000000000000000000000000000000000000000000000000000000000000000000000000000 P) (h : Keeps P s u) :
    Keeps P s (State.rejoin u a1) := by
  unfold State.rejoin
  repeat' (first
    | with_reducible exact h
    | with_reducible assumption
    | dsimp -zeta only
    | with_reducible refine keeps_setTask (hP.sub rfl) ?_
    | intro _
    | with_reducible refine keeps_ite ?_ ?_
    | with_reducible refine keeps_ite_fst ?_ ?_
    | with_reducible refine keeps_pair (by assumption) ?_
    | split
    | fail_if_no_progress extract_lets
    | fail_if_no_progress with_reducible refine keeps_swy hP rfl ?_
    | dsimp +zetaDelta only)

theorem keeps_runTask {P : Nat} {s u : State} {a1 a2} (hP : Fits 0x100000000000000000000000000400000000000000000000000000000000000000000000000000 P) (h : Keeps P s u) :
    Keeps P s (State.runTask u a1 a2) := by
  unfold State.runTask
  repeat' (first
    | with_reducible exact h
    | with_reducible assumption
    | dsimp -zeta only
    | with_reducible refine keeps_opResult (hP.sub rfl) ?_
    | with_reducible refine keeps_setHart (hP.sub rfl) ?_
    | with_reducible refine keeps_setTask (hP.sub rfl) ?_
    | intro _
    | with_reducible refine keeps_ite ?_ ?_
    | with_reducible refine keeps_ite_fst ?_ ?_
    | with_reducible refine keeps_pair (by assumption) ?_
    | split
    | fail_if_no_progress extract_lets
    | fail_if_no_progress with_reducible refine keeps_swy hP rfl ?_
    | dsimp +zetaDelta only)

theorem keeps_runNext {P : Nat} {s u : State} {a1} (hP : Fits 0x100000000000000000000000000400000000000000000000000000000000000000000000000000 P) (h : Keeps P s u) :
    Keeps P s (State.runNext u a1) := by
  unfold State.runNext
  repeat' (first
    | with_reducible exact h
    | with_reducible assumption
    | dsimp -zeta only
    | with_reducible refine keeps_setHart (hP.sub rfl) ?_
    | with_reducible refine keeps_runTask (hP.sub rfl) ?_
    | intro _
    | with_reducible refine keeps_ite ?_ ?_
    | with_reducible refine keeps_ite_fst ?_ ?_
    | with_reducible refine keeps_pair (by assumption) ?_
    | split
    | fail_if_no_progress extract_lets
    | dsimp +zetaDelta only)

theorem keeps_doSwitch {P : Nat} {s u : State} {a1} (hP : Fits 0x100000000000000000000000000400000000000000000000000000000000000000000000000000 P) (h : Keeps P s u) :
    Keeps P s (State.doSwitch u a1) := by
  unfold State.doSwitch
  repeat' (first
    | with_reducible exact h
    | with_reducible assumption
    | dsimp -zeta only
    | with_reducible refine keeps_dispatchFor (hP.sub rfl) ?_
    | with_reducible refine keeps_runNext (hP.sub rfl) ?_
    | with_reducible refine keeps_rejoin (hP.sub rfl) ?_
    | intro _
    | with_reducible refine keeps_ite ?_ ?_
    | with_reducible refine keeps_ite_fst ?_ ?_
    | with_reducible refine keeps_pair (by assumption) ?_
    | split
    | fail_if_no_progress extract_lets
    | dsimp +zetaDelta only)

theorem keeps_doSwitchyardTick {P : Nat} {s u : State} (hP : Fits 0x101000000000000000000000000010000000000000000000000000000000000000000000000000 P) (h : Keeps P s u) :
    Keeps P s (State.doSwitchyardTick u) := by
  unfold State.doSwitchyardTick
  repeat' (first
    | with_reducible exact h
    | with_reducible assumption
    | dsimp -zeta only
    | with_reducible refine keeps_advance (hP.sub rfl) ?_
    | with_reducible refine keeps_fput hP rfl ?_
    | intro _
    | with_reducible refine keeps_ite ?_ ?_
    | with_reducible refine keeps_ite_fst ?_ ?_
    | with_reducible refine keeps_pair (by assumption) ?_
    | split
    | fail_if_no_progress extract_lets
    | fail_if_no_progress with_reducible refine keeps_swy hP rfl ?_
    | dsimp +zetaDelta only)

theorem keeps_expire {P : Nat} {s u : State} {a1} (hP : Fits 0x100000000000000000000000000000000000000000000000000000000000000000000000000000 P) (h : Keeps P s u) :
    Keeps P s (State.expire u a1) := by
  unfold State.expire
  repeat' (first
    | with_reducible exact h
    | with_reducible assumption
    | dsimp -zeta only
    | with_reducible refine keeps_makeReady (hP.sub rfl) ?_
    | with_reducible refine keeps_setTask (hP.sub rfl) ?_
    | intro _
    | with_reducible refine keeps_ite ?_ ?_
    | with_reducible refine keeps_ite_fst ?_ ?_
    | with_reducible refine keeps_pair (by assumption) ?_
    | split
    | fail_if_no_progress extract_lets
    | dsimp +zetaDelta only)

theorem keeps_doDelayExpiry {P : Nat} {s u : State} {a1} (hP : Fits 0x100000000000000000000000000000000000000000000000000000000000000000000000000000 P) (h : Keeps P s u) :
    Keeps P s (State.doDelayExpiry u a1) := by
  unfold State.doDelayExpiry
  repeat' (first
    | with_reducible exact h
    | with_reducible assumption
    | dsimp -zeta only
    | with_reducible refine keeps_expire (hP.sub rfl) ?_
    | with_reducible refine keeps_foldl ?_ ?_
    | with_reducible refine keeps_foldl_fst ?_ ?_
    | intro _
    | with_reducible refine keeps_ite ?_ ?_
    | with_reducible refine keeps_ite_fst ?_ ?_
    | with_reducible refine keeps_pair (by assumption) ?_
    | split
    | fail_if_no_progress extract_lets
    | dsimp +zetaDelta only)

theorem keeps_doSwyTickWrite {P : Nat} {s u : State} {a1} (hP : Fits 0x10000000000000000000000000000c000000000000000000000000000000000000000000000000 P) (h : Keeps P s u) :
    Keeps P s (State.doSwyTickWrite u a1) := by
  unfold State.doSwyTickWrite
  repeat' (first
    | with_reducible exact h
    | with_reducible assumption
    | dsimp -zeta only
    | with_reducible refine keeps_fput hP rfl ?_
    | intro _
    | with_reducible refine keeps_ite ?_ ?_
    | with_reducible refine keeps_ite_fst ?_ ?_
    | with_reducible refine keeps_pair (by assumption) ?_
    | split
    | fail_if_no_progress extract_lets
    | fail_if_no_progress with_reducible refine keeps_swy hP rfl ?_
    | dsimp +zetaDelta only)

theorem keeps_queueWindow {P : Nat} {s u : State} {a1 a2 a3} (hP : Fits 0x18800000000000000000001206c000000000000000000000000000000000000000000000000000 P) (h : Keeps P s u) :
    Keeps P s (State.queueWindow u a1 a2 a3) := by
  unfold State.queueWindow
  repeat' (first
    | with_reducible exact h
    | with_reducible assumption
    | dsimp -zeta only
    | with_reducible refine keeps_commit (hP.sub rfl) ?_
    | with_reducible refine keeps_commit_eq (by assumption) (hP.sub rfl) ?_
    | with_reducible refine keeps_fput hP rfl ?_
    | with_reducible refine keeps_bump hP rfl ?_
    | intro _
    | with_reducible refine keeps_ite ?_ ?_
    | with_reducible refine keeps_ite_fst ?_ ?_
    | with_reducible refine keeps_pair (by assumption) ?_
    | split
    | fail_if_no_progress extract_lets
    | fail_if_no_progress with_reducible refine keeps_depot hP rfl ?_
    | dsimp +zetaDelta only)

theorem keeps_doMirrorConsumed {P : Nat} {s u : State} {a1 a2} (hP : Fits 0x20000000000000000000000000000000000000000000000000000000 P) (h : Keeps P s u) :
    Keeps P s (State.doMirrorConsumed u a1 a2) := by
  unfold State.doMirrorConsumed
  repeat' (first
    | with_reducible exact h
    | with_reducible assumption
    | dsimp -zeta only
    | with_reducible refine keeps_fput hP rfl ?_
    | intro _
    | with_reducible refine keeps_ite ?_ ?_
    | with_reducible refine keeps_ite_fst ?_ ?_
    | with_reducible refine keeps_pair (by assumption) ?_
    | split
    | fail_if_no_progress extract_lets
    | dsimp +zetaDelta only)

theorem keeps_queuePage {P : Nat} {s u : State} {a1 a2 a3} (hP : Fits 0x18800000000000000000003206c000000000000000000000000000000000000000000000000000 P) (h : Keeps P s u) :
    Keeps P s (State.queuePage u a1 a2 a3) := by
  unfold State.queuePage
  repeat' (first
    | with_reducible exact h
    | with_reducible assumption
    | dsimp -zeta only
    | with_reducible refine keeps_doMirrorConsumed (hP.sub rfl) ?_
    | with_reducible refine keeps_queueWindow (hP.sub rfl) ?_
    | intro _
    | with_reducible refine keeps_ite ?_ ?_
    | with_reducible refine keeps_ite_fst ?_ ?_
    | with_reducible refine keeps_pair (by assumption) ?_
    | split
    | fail_if_no_progress extract_lets
    | dsimp +zetaDelta only)

theorem keeps_doTruncationMarker {P : Nat} {s u : State} {a1} (hP : Fits 0x588000000000000000000012048000000000000000000000000000000000000000000000000000 P) (h : Keeps P s u) :
    Keeps P s (State.doTruncationMarker u a1) := by
  unfold State.doTruncationMarker
  repeat' (first
    | with_reducible exact h
    | with_reducible assumption
    | dsimp -zeta only
    | with_reducible refine keeps_qMark (hP.sub rfl) ?_
    | intro _
    | with_reducible refine keeps_ite ?_ ?_
    | with_reducible refine keeps_ite_fst ?_ ?_
    | with_reducible refine keeps_pair (by assumption) ?_
    | split
    | fail_if_no_progress extract_lets
    | dsimp +zetaDelta only)

theorem keeps_releaseSender {P : Nat} {s u : State} {a1} (hP : Fits 0x2000100000000000000000000000000000000000000000000000000000000000000000000000000000 P) (h : Keeps P s u) :
    Keeps P s (State.releaseSender u a1) := by
  unfold State.releaseSender
  repeat' (first
    | with_reducible exact h
    | with_reducible assumption
    | dsimp -zeta only
    | with_reducible refine keeps_releaseTask (hP.sub rfl) ?_
    | with_reducible refine keeps_sendFlit (hP.sub rfl) ?_
    | with_reducible refine keeps_owe (hP.sub rfl) ?_
    | intro _
    | with_reducible refine keeps_ite ?_ ?_
    | with_reducible refine keeps_ite_fst ?_ ?_
    | with_reducible refine keeps_pair (by assumption) ?_
    | split
    | fail_if_no_progress extract_lets
    | dsimp +zetaDelta only)

theorem keeps_disableQueue {P : Nat} {s u : State} {a1} (hP : Fits 0x2000180000000000000000000006080000000000000000000000000000000000000000000000000000 P) (h : Keeps P s u) :
    Keeps P s (State.disableQueue u a1) := by
  unfold State.disableQueue
  repeat' (first
    | with_reducible exact h
    | with_reducible assumption
    | dsimp -zeta only
    | with_reducible refine keeps_releaseSender (hP.sub rfl) ?_
    | with_reducible refine keeps_setDq (hP.sub rfl) ?_
    | with_reducible refine keeps_fput hP rfl ?_
    | with_reducible refine keeps_rstAll hP rfl ?_
    | with_reducible refine keeps_foldl ?_ ?_
    | with_reducible refine keeps_foldl_fst ?_ ?_
    | intro _
    | with_reducible refine keeps_ite ?_ ?_
    | with_reducible refine keeps_ite_fst ?_ ?_
    | with_reducible refine keeps_pair (by assumption) ?_
    | split
    | fail_if_no_progress extract_lets
    | dsimp +zetaDelta only)

theorem keeps_doDptQCtlWrite {P : Nat} {s u : State} {a1 a2} (hP : Fits 0x2000180000000000000000000026084000000000000000000000000000000000000000000000000000 P) (h : Keeps P s u) :
    Keeps P s (State.doDptQCtlWrite u a1 a2) := by
  unfold State.doDptQCtlWrite
  repeat' (first
    | with_reducible exact h
    | with_reducible assumption
    | dsimp -zeta only
    | with_reducible refine keeps_disableQueue (hP.sub rfl) ?_
    | with_reducible refine keeps_wr hP rfl ?_
    | with_reducible refine keeps_fput hP rfl ?_
    | with_reducible refine keeps_rstAll hP rfl ?_
    | intro _
    | with_reducible refine keeps_ite ?_ ?_
    | with_reducible refine keeps_ite_fst ?_ ?_
    | with_reducible refine keeps_pair (by assumption) ?_
    | split
    | fail_if_no_progress extract_lets
    | dsimp +zetaDelta only)

theorem keeps_execTruncationMarker {P : Nat} {u t : State} {a0} (he : execTruncationMarker a0 u = .next t) (hP : Fits 0x588000000000000000000012048000000000000000000000000000000000000000000000000000 P) : Keeps P u t := by
  unfold execTruncationMarker at he
  injection he with he
  subst he
  repeat' (first
    | with_reducible exact Keeps.refl P u
    | with_reducible assumption
    | dsimp -zeta only
    | with_reducible refine keeps_doTruncationMarker (hP.sub rfl) ?_
    | intro _
    | with_reducible refine keeps_ite ?_ ?_
    | with_reducible refine keeps_ite_fst ?_ ?_
    | with_reducible refine keeps_pair (by assumption) ?_
    | split
    | fail_if_no_progress extract_lets
    | dsimp +zetaDelta only)

theorem keeps_execCreate {P : Nat} {u t : State} {a0 a1 a2} (he : execCreate a0 a1 a2 u = .next t) (hP : Fits 0x100000000000000000000000000400000000000000000000000000000000000000000000000000 P) : Keeps P u t := by
  unfold execCreate at he
  injection he with he
  subst he
  repeat' (first
    | with_reducible exact Keeps.refl P u
    | with_reducible assumption
    | dsimp -zeta only
    | with_reducible refine keeps_doCreate (hP.sub rfl) ?_
    | intro _
    | with_reducible refine keeps_ite ?_ ?_
    | with_reducible refine keeps_ite_fst ?_ ?_
    | with_reducible refine keeps_pair (by assumption) ?_
    | split
    | fail_if_no_progress extract_lets
    | dsimp +zetaDelta only)

theorem keeps_execDelete {P : Nat} {u t : State} {a0 a1} (he : execDelete a0 a1 u = .next t) (hP : Fits 0x180000000000000000000000000400000000000000000000000000000000000000000000000000 P) : Keeps P u t := by
  unfold execDelete at he
  injection he with he
  subst he
  repeat' (first
    | with_reducible exact Keeps.refl P u
    | with_reducible assumption
    | dsimp -zeta only
    | with_reducible refine keeps_doDelete (hP.sub rfl) ?_
    | intro _
    | with_reducible refine keeps_ite ?_ ?_
    | with_reducible refine keeps_ite_fst ?_ ?_
    | with_reducible refine keeps_pair (by assumption) ?_
    | split
    | fail_if_no_progress extract_lets
    | dsimp +zetaDelta only)

theorem keeps_execSetPrio {P : Nat} {u t : State} {a0 a1 a2} (he : execSetPrio a0 a1 a2 u = .next t) (hP : Fits 0x100000000000000000000000000400000000000000000000000000000000000000000000000000 P) : Keeps P u t := by
  unfold execSetPrio at he
  injection he with he
  subst he
  repeat' (first
    | with_reducible exact Keeps.refl P u
    | with_reducible assumption
    | dsimp -zeta only
    | with_reducible refine keeps_doSetPrio (hP.sub rfl) ?_
    | intro _
    | with_reducible refine keeps_ite ?_ ?_
    | with_reducible refine keeps_ite_fst ?_ ?_
    | with_reducible refine keeps_pair (by assumption) ?_
    | split
    | fail_if_no_progress extract_lets
    | dsimp +zetaDelta only)

theorem keeps_execSetFlags {P : Nat} {u t : State} {a0 a1 a2} (he : execSetFlags a0 a1 a2 u = .next t) (hP : Fits 0x100000000000000000000000000400000000000000000000000000000000000000000000000000 P) : Keeps P u t := by
  unfold execSetFlags at he
  injection he with he
  subst he
  repeat' (first
    | with_reducible exact Keeps.refl P u
    | with_reducible assumption
    | dsimp -zeta only
    | with_reducible refine keeps_doSetFlags (hP.sub rfl) ?_
    | intro _
    | with_reducible refine keeps_ite ?_ ?_
    | with_reducible refine keeps_ite_fst ?_ ?_
    | with_reducible refine keeps_pair (by assumption) ?_
    | split
    | fail_if_no_progress extract_lets
    | dsimp +zetaDelta only)

theorem keeps_execClearFlags {P : Nat} {u t : State} {a0 a1} (he : execClearFlags a0 a1 u = .next t) (hP : Fits 0x100000000000000000000000000600000000000000000000000000000000000000000000000000 P) : Keeps P u t := by
  unfold execClearFlags at he
  injection he with he
  subst he
  repeat' (first
    | with_reducible exact Keeps.refl P u
    | with_reducible assumption
    | dsimp -zeta only
    | with_reducible refine keeps_doClearFlags (hP.sub rfl) ?_
    | intro _
    | with_reducible refine keeps_ite ?_ ?_
    | with_reducible refine keeps_ite_fst ?_ ?_
    | with_reducible refine keeps_pair (by assumption) ?_
    | split
    | fail_if_no_progress extract_lets
    | dsimp +zetaDelta only)

theorem keeps_execWait {P : Nat} {u t : State} {a0 a1 a2 a3 a4} (he : execWait a0 a1 a2 a3 a4 u = .next t) (hP : Fits 0x100000000000000000000000000600000000000000000000000000000000000000000000000000 P) : Keeps P u t := by
  unfold execWait at he
  injection he with he
  subst he
  repeat' (first
    | with_reducible exact Keeps.refl P u
    | with_reducible assumption
    | dsimp -zeta only
    | with_reducible refine keeps_doWait (hP.sub rfl) ?_
    | intro _
    | with_reducible refine keeps_ite ?_ ?_
    | with_reducible refine keeps_ite_fst ?_ ?_
    | with_reducible refine keeps_pair (by assumption) ?_
    | split
    | fail_if_no_progress extract_lets
    | dsimp +zetaDelta only)

theorem keeps_execDelay {P : Nat} {u t : State} {a0 a1} (he : execDelay a0 a1 u = .next t) (hP : Fits 0x100000000000000000000000000600000000000000000000000000000000000000000000000000 P) : Keeps P u t := by
  unfold execDelay at he
  injection he with he
  subst he
  repeat' (first
    | with_reducible exact Keeps.refl P u
    | with_reducible assumption
    | dsimp -zeta only
    | with_reducible refine keeps_doDelay (hP.sub rfl) ?_
    | intro _
    | with_reducible refine keeps_ite ?_ ?_
    | with_reducible refine keeps_ite_fst ?_ ?_
    | with_reducible refine keeps_pair (by assumption) ?_
    | split
    | fail_if_no_progress extract_lets
    | dsimp +zetaDelta only)

theorem keeps_execYield {P : Nat} {u t : State} {a0} (he : execYield a0 u = .next t) (hP : Fits 0x100000000000000000000000000400000000000000000000000000000000000000000000000000 P) : Keeps P u t := by
  unfold execYield at he
  injection he with he
  subst he
  repeat' (first
    | with_reducible exact Keeps.refl P u
    | with_reducible assumption
    | dsimp -zeta only
    | with_reducible refine keeps_doYield (hP.sub rfl) ?_
    | intro _
    | with_reducible refine keeps_ite ?_ ?_
    | with_reducible refine keeps_ite_fst ?_ ?_
    | with_reducible refine keeps_pair (by assumption) ?_
    | split
    | fail_if_no_progress extract_lets
    | dsimp +zetaDelta only)

theorem keeps_execPost {P : Nat} {u t : State} {a0 a1 a2} (he : execPost a0 a1 a2 u = .next t) (hP : Fits 0x18800000000000000000001206a400000000000000000000000000000000000000000000000000 P) : Keeps P u t := by
  unfold execPost at he
  injection he with he
  subst he
  repeat' (first
    | with_reducible exact Keeps.refl P u
    | with_reducible assumption
    | dsimp -zeta only
    | with_reducible refine keeps_doPost (hP.sub rfl) ?_
    | intro _
    | with_reducible refine keeps_ite ?_ ?_
    | with_reducible refine keeps_ite_fst ?_ ?_
    | with_reducible refine keeps_pair (by assumption) ?_
    | split
    | fail_if_no_progress extract_lets
    | dsimp +zetaDelta only)

theorem keeps_execTake {P : Nat} {u t : State} {a0 a1} (he : execTake a0 a1 u = .next t) (hP : Fits 0x200018800000000000000000000600a400000000000000000000000000000000000000000000000000 P) : Keeps P u t := by
  unfold execTake at he
  injection he with he
  subst he
  repeat' (first
    | with_reducible exact Keeps.refl P u
    | with_reducible assumption
    | dsimp -zeta only
    | with_reducible refine keeps_doTake (hP.sub rfl) ?_
    | intro _
    | with_reducible refine keeps_ite ?_ ?_
    | with_reducible refine keeps_ite_fst ?_ ?_
    | with_reducible refine keeps_pair (by assumption) ?_
    | split
    | fail_if_no_progress extract_lets
    | dsimp +zetaDelta only)

theorem keeps_execExit {P : Nat} {u t : State} {a0} (he : execExit a0 u = .next t) (hP : Fits 0x100000000000000000000000000400000000000000000000000000000000000000000000000000 P) : Keeps P u t := by
  unfold execExit at he
  injection he with he
  subst he
  repeat' (first
    | with_reducible exact Keeps.refl P u
    | with_reducible assumption
    | dsimp -zeta only
    | with_reducible refine keeps_doExit (hP.sub rfl) ?_
    | intro _
    | with_reducible refine keeps_ite ?_ ?_
    | with_reducible refine keeps_ite_fst ?_ ?_
    | with_reducible refine keeps_pair (by assumption) ?_
    | split
    | fail_if_no_progress extract_lets
    | dsimp +zetaDelta only)

theorem keeps_execSwyHSwitch {P : Nat} {u t : State} {a0} (he : execSwyHSwitch a0 u = .next t) (hP : Fits 0x100000000000000000000000000400000000000000000000000000000000000000000000000000 P) : Keeps P u t := by
  unfold execSwyHSwitch at he
  injection he with he
  subst he
  repeat' (first
    | with_reducible exact Keeps.refl P u
    | with_reducible assumption
    | dsimp -zeta only
    | with_reducible refine keeps_doSwitch (hP.sub rfl) ?_
    | intro _
    | with_reducible refine keeps_ite ?_ ?_
    | with_reducible refine keeps_ite_fst ?_ ?_
    | with_reducible refine keeps_pair (by assumption) ?_
    | split
    | fail_if_no_progress extract_lets
    | dsimp +zetaDelta only)

theorem keeps_execDelayExpiry {P : Nat} {u t : State} {a0} (he : execDelayExpiry a0 u = .next t) (hP : Fits 0x100000000000000000000000000000000000000000000000000000000000000000000000000000 P) : Keeps P u t := by
  unfold execDelayExpiry at he
  injection he with he
  subst he
  repeat' (first
    | with_reducible exact Keeps.refl P u
    | with_reducible assumption
    | dsimp -zeta only
    | with_reducible refine keeps_doDelayExpiry (hP.sub rfl) ?_
    | intro _
    | with_reducible refine keeps_ite ?_ ?_
    | with_reducible refine keeps_ite_fst ?_ ?_
    | with_reducible refine keeps_pair (by assumption) ?_
    | split
    | fail_if_no_progress extract_lets
    | dsimp +zetaDelta only)

end Sys2Proof.Machine
end

