-- ==== Sys2Proof/Laws/KeepsFix.lean ====
section
/-! SUPPORT. What each operation of Machine/Fix.lean may change, and that it keeps the invariant: one law for each. -/

set_option linter.unreachableTactic false
set_option linter.unusedTactic false

namespace Sys2Proof.Machine

theorem keeps_fixInstant {P : Nat} {s u : State} (hP : Fits 0x800000000000000000000000000000020000000000000000000000000000000000000000000000 P) (h : Keeps P s u) :
    Keeps P s (State.fixInstant u) := by
  unfold State.fixInstant
  repeat' (first
    | with_reducible exact h
    | with_reducible assumption
    | dsimp -zeta only
    | with_reducible refine keeps_fput hP rfl ?_
    | intro _
    | with_reducible refine keeps_ite ?_ ?_
    | with_reducible refine keeps_ite_fst ?_ ?_
    | with_reducible refine keeps_pair (by assumption) ?_
    | split
    | fail_if_no_progress extract_lets
    | fail_if_no_progress with_reducible refine keeps_helm hP rfl ?_ rfl rfl
    | dsimp +zetaDelta only)

theorem keeps_latchFix {P : Nat} {s u : State} {a1 a2 a3 a4 a5 a6} (hP : Fits 0x800000000000000000000000000000020000000000000000000000000000000000000000000000 P) (h : Keeps P s u) :
    Keeps P s (State.latchFix u a1 a2 a3 a4 a5 a6) := by
  unfold State.latchFix
  repeat' (first
    | with_reducible exact h
    | with_reducible assumption
    | dsimp -zeta only
    | with_reducible refine keeps_fixInstant (hP.sub rfl) ?_
    | intro _
    | with_reducible refine keeps_ite ?_ ?_
    | with_reducible refine keeps_ite_fst ?_ ?_
    | with_reducible refine keeps_pair (by assumption) ?_
    | split
    | fail_if_no_progress extract_lets
    | fail_if_no_progress with_reducible refine keeps_helm hP rfl ?_ rfl rfl
    | dsimp +zetaDelta only)

theorem keeps_bodyTakeFix {P : Nat} {s u : State} {k} (hP : Fits 0x800000000000000000000000000000020000000000000000000000000000000000000000000000 P) (h : Keeps P s u) :
    Keeps P s (bodyTakeFix k u).1 := by
  unfold bodyTakeFix
  beta_reduce
  repeat' (first
    | with_reducible exact h
    | with_reducible assumption
    | dsimp -zeta only
    | with_reducible refine keeps_latchFix (hP.sub rfl) ?_
    | with_reducible refine keeps_fail (hP.sub rfl) ?_
    | with_reducible refine keeps_fail_eq (by assumption) (hP.sub rfl) ?_
    | intro _
    | with_reducible refine keeps_ite ?_ ?_
    | with_reducible refine keeps_ite_fst ?_ ?_
    | with_reducible refine keeps_pair (by assumption) ?_
    | split
    | fail_if_no_progress extract_lets
    | dsimp +zetaDelta only)

theorem keeps_bodyTakeFix_eq {P : Nat} {s u v : State} {k} {x} (he : bodyTakeFix k u = (v, x)) (hP : Fits 0x800000000000000000000000000000020000000000000000000000000000000000000000000000 P)
    (h : Keeps P s u) : Keeps P s v := by
  have h1 := keeps_bodyTakeFix (k := k) hP h
  rw [he] at h1
  exact h1

theorem keeps_doFixDoorbell {P : Nat} {s u : State} {a1} (hP : Fits 0x800000000000000000000000000000060000000000000000000000000000000000000000000000 P) (h : Keeps P s u) :
    Keeps P s (State.doFixDoorbell u a1) := by
  unfold State.doFixDoorbell
  repeat' (first
    | with_reducible exact h
    | with_reducible assumption
    | dsimp -zeta only
    | with_reducible refine keeps_latchFix (hP.sub rfl) ?_
    | with_reducible refine keeps_bump hP rfl ?_
    | intro _
    | with_reducible refine keeps_ite ?_ ?_
    | with_reducible refine keeps_ite_fst ?_ ?_
    | with_reducible refine keeps_pair (by assumption) ?_
    | split
    | fail_if_no_progress extract_lets
    | dsimp +zetaDelta only)

theorem keeps_writeFix {P : Nat} {s u : State} {a1 a2} (hP : Fits 0xc1e059f000000000300000000012068000000a1002140a100000000000000000000000000000000000 P) (h : Keeps P s u) :
    Keeps P s (State.writeFix u a1 a2).1 := by
  unfold State.writeFix
  repeat' (first
    | with_reducible exact h
    | with_reducible assumption
    | dsimp -zeta only
    | with_reducible refine keeps_settleWrites (hP.sub rfl) ?_
    | with_reducible refine keeps_raiseFault (hP.sub rfl) ?_
    | with_reducible refine keeps_raiseFault_eq (by assumption) (hP.sub rfl) ?_
    | with_reducible refine keeps_hostWrite (hP.sub rfl) ?_
    | with_reducible refine keeps_dvaWrite (hP.sub rfl) ?_
    | with_reducible refine keeps_dvaWrite_eq (by assumption) (hP.sub rfl) ?_
    | with_reducible refine keeps_wakeMem (hP.sub rfl) ?_
    | intro _
    | with_reducible refine keeps_ite ?_ ?_
    | with_reducible refine keeps_ite_fst ?_ ?_
    | with_reducible refine keeps_pair (by assumption) ?_
    | split
    | fail_if_no_progress extract_lets
    | fail_if_no_progress with_reducible refine keeps_eth hP rfl ?_
    | dsimp +zetaDelta only)

theorem keeps_writeFix_eq {P : Nat} {s u v : State} {a1 a2} {x} (he : State.writeFix u a1 a2 = (v, x)) (hP : Fits 0xc1e059f000000000300000000012068000000a1002140a100000000000000000000000000000000000 P)
    (h : Keeps P s u) : Keeps P s v := by
  have h1 := keeps_writeFix (a1 := a1) (a2 := a2) hP h
  rw [he] at h1
  exact h1

theorem keeps_noteFix {P : Nat} {s u : State} {a1} (hP : Fits 0x800000000000000000000000000000060000000000000000000000000000000000000000000000 P) (h : Keeps P s u) :
    Keeps P s (State.noteFix u a1) := by
  unfold State.noteFix
  repeat' (first
    | with_reducible exact h
    | with_reducible assumption
    | dsimp -zeta only
    | with_reducible refine keeps_fput hP rfl ?_
    | with_reducible refine keeps_bump hP rfl ?_
    | intro _
    | with_reducible refine keeps_ite ?_ ?_
    | with_reducible refine keeps_ite_fst ?_ ?_
    | with_reducible refine keeps_pair (by assumption) ?_
    | split
    | fail_if_no_progress extract_lets
    | fail_if_no_progress with_reducible refine keeps_helm hP rfl ?_ rfl rfl
    | dsimp +zetaDelta only)

theorem keeps_doorbellDone {P : Nat} {s u : State} (hP : Fits 0x8000000000000000000000000000020000000000000000000000000000000000000000000000 P) (h : Keeps P s u) :
    Keeps P s (State.doorbellDone u) := by
  unfold State.doorbellDone
  repeat' (first
    | with_reducible exact h
    | with_reducible assumption
    | dsimp -zeta only
    | with_reducible refine keeps_signal (hP.sub rfl) ?_
    | with_reducible refine keeps_fput hP rfl ?_
    | intro _
    | with_reducible refine keeps_ite ?_ ?_
    | with_reducible refine keeps_ite_fst ?_ ?_
    | with_reducible refine keeps_pair (by assumption) ?_
    | split
    | fail_if_no_progress extract_lets
    | dsimp +zetaDelta only)

theorem keeps_doFixWritten {P : Nat} {s u : State} {a1} (hP : Fits 0xe1e0f9f000000000300000000012068002060a1002140a100000000000000000000000000000000000 P) (h : Keeps P s u) :
    Keeps P s (State.doFixWritten u a1) := by
  unfold State.doFixWritten
  repeat' (first
    | with_reducible exact h
    | with_reducible assumption
    | dsimp -zeta only
    | with_reducible refine keeps_doorbellDone (hP.sub rfl) ?_
    | with_reducible refine keeps_endWaits (hP.sub rfl) ?_
    | with_reducible refine keeps_writeFix (hP.sub rfl) ?_
    | with_reducible refine keeps_writeFix_eq (by assumption) (hP.sub rfl) ?_
    | with_reducible refine keeps_noteFix (hP.sub rfl) ?_
    | intro _
    | with_reducible refine keeps_ite ?_ ?_
    | with_reducible refine keeps_ite_fst ?_ ?_
    | with_reducible refine keeps_pair (by assumption) ?_
    | split
    | fail_if_no_progress extract_lets
    | dsimp +zetaDelta only)

theorem keeps_execTakeFix {P : Nat} {u t : State} {a0} (he : execTakeFix a0 u = .next t) (hP : Fits 0x2000e02000000000000000000000000003f20000000000000000000000000000000000000000000000 P) : Keeps P u t := by
  unfold execTakeFix at he
  injection he with he
  subst he
  repeat' (first
    | with_reducible exact Keeps.refl P u
    | with_reducible assumption
    | dsimp -zeta only
    | with_reducible refine keeps_runPrompt (hP.sub rfl) ?_ ?_
    | with_reducible refine keeps_bodyTakeFix (hP.sub rfl) ?_
    | with_reducible refine keeps_bodyTakeFix_eq (by assumption) (hP.sub rfl) ?_
    | intro _
    | with_reducible refine keeps_ite ?_ ?_
    | with_reducible refine keeps_ite_fst ?_ ?_
    | with_reducible refine keeps_pair (by assumption) ?_
    | split
    | fail_if_no_progress extract_lets
    | dsimp +zetaDelta only)

theorem keeps_execFixWritten {P : Nat} {u t : State} {a0} (he : execFixWritten a0 u = .next t) (hP : Fits 0xe1e0f9f000000000300000000012068002060a1002140a100000000000000000000000000000000000 P) : Keeps P u t := by
  unfold execFixWritten at he
  injection he with he
  subst he
  repeat' (first
    | with_reducible exact Keeps.refl P u
    | with_reducible assumption
    | dsimp -zeta only
    | with_reducible refine keeps_doFixWritten (hP.sub rfl) ?_
    | intro _
    | with_reducible refine keeps_ite ?_ ?_
    | with_reducible refine keeps_ite_fst ?_ ?_
    | with_reducible refine keeps_pair (by assumption) ?_
    | split
    | fail_if_no_progress extract_lets
    | dsimp +zetaDelta only)

end Sys2Proof.Machine
end

