-- ==== Sys2Proof/Laws/KeepsHelmCommands.lean ====
section
/-! SUPPORT. What each operation of Machine/HelmCommands.lean may change, and that it keeps the invariant: one law for each. -/

set_option linter.unreachableTactic false
set_option linter.unusedTactic false

namespace Sys2Proof.Machine

theorem keeps_bodyNop {P : Nat} {s u : State} {k} (hP : Fits 0 P) (h : Keeps P s u) :
    Keeps P s (bodyNop k u).1 := by
  unfold bodyNop
  beta_reduce
  repeat' (first
    | with_reducible exact h
    | with_reducible assumption
    | dsimp -zeta only
    | with_reducible refine keeps_ok (hP.sub rfl) ?_
    | with_reducible refine keeps_ok_eq (by assumption) (hP.sub rfl) ?_
    | intro _
    | with_reducible refine keeps_ite ?_ ?_
    | with_reducible refine keeps_ite_fst ?_ ?_
    | with_reducible refine keeps_pair (by assumption) ?_
    | split
    | fail_if_no_progress extract_lets
    | dsimp +zetaDelta only)

theorem keeps_bodyNop_eq {P : Nat} {s u v : State} {k} {x} (he : bodyNop k u = (v, x)) (hP : Fits 0 P)
    (h : Keeps P s u) : Keeps P s v := by
  have h1 := keeps_bodyNop (k := k) hP h
  rw [he] at h1
  exact h1

theorem keeps_bodyRingCreate {P : Nat} {s u : State} {k} (hP : Fits 0x200000000000000000000000000003f00000000000000000000000000000000000000000000000 P) (h : Keeps P s u) :
    Keeps P s (bodyRingCreate k u).1 := by
  unfold bodyRingCreate
  beta_reduce
  repeat' (first
    | with_reducible exact h
    | with_reducible assumption
    | dsimp -zeta only
    | with_reducible refine keeps_dropRing (hP.sub rfl) ?_
    | with_reducible refine keeps_fail (hP.sub rfl) ?_
    | with_reducible refine keeps_fail_eq (by assumption) (hP.sub rfl) ?_
    | with_reducible refine keeps_ok (hP.sub rfl) ?_
    | with_reducible refine keeps_ok_eq (by assumption) (hP.sub rfl) ?_
    | with_reducible refine keeps_wr hP rfl ?_
    | with_reducible refine keeps_setRing hP rfl ?_ (fun h => h)
    | with_reducible refine keeps_setRing hP rfl ?_ (fun _ => by simp)
    | with_reducible refine keeps_setRing hP rfl ?_ (fun h => by simpa using h)
    | intro _
    | with_reducible refine keeps_ite ?_ ?_
    | with_reducible refine keeps_ite_fst ?_ ?_
    | with_reducible refine keeps_pair (by assumption) ?_
    | split
    | fail_if_no_progress extract_lets
    | dsimp +zetaDelta only)

theorem keeps_bodyRingCreate_eq {P : Nat} {s u v : State} {k} {x} (he : bodyRingCreate k u = (v, x)) (hP : Fits 0x200000000000000000000000000003f00000000000000000000000000000000000000000000000 P)
    (h : Keeps P s u) : Keeps P s v := by
  have h1 := keeps_bodyRingCreate (k := k) hP h
  rw [he] at h1
  exact h1

theorem keeps_bodyRingDelete {P : Nat} {s u : State} {k} (hP : Fits 0x200000000000000000000000000003f00000000000000000000000000000000000000000000000 P) (h : Keeps P s u) :
    Keeps P s (bodyRingDelete k u).1 := by
  unfold bodyRingDelete
  beta_reduce
  repeat' (first
    | with_reducible exact h
    | with_reducible assumption
    | dsimp -zeta only
    | with_reducible refine keeps_dropRing (hP.sub rfl) ?_
    | with_reducible refine keeps_fail (hP.sub rfl) ?_
    | with_reducible refine keeps_fail_eq (by assumption) (hP.sub rfl) ?_
    | with_reducible refine keeps_ok (hP.sub rfl) ?_
    | with_reducible refine keeps_ok_eq (by assumption) (hP.sub rfl) ?_
    | with_reducible refine keeps_setRing hP rfl ?_ (fun h => h)
    | with_reducible refine keeps_setRing hP rfl ?_ (fun _ => by simp)
    | with_reducible refine keeps_setRing hP rfl ?_ (fun h => by simpa using h)
    | intro _
    | with_reducible refine keeps_ite ?_ ?_
    | with_reducible refine keeps_ite_fst ?_ ?_
    | with_reducible refine keeps_pair (by assumption) ?_
    | split
    | fail_if_no_progress extract_lets
    | dsimp +zetaDelta only)

theorem keeps_bodyRingDelete_eq {P : Nat} {s u v : State} {k} {x} (he : bodyRingDelete k u = (v, x)) (hP : Fits 0x200000000000000000000000000003f00000000000000000000000000000000000000000000000 P)
    (h : Keeps P s u) : Keeps P s v := by
  have h1 := keeps_bodyRingDelete (k := k) hP h
  rw [he] at h1
  exact h1

theorem keeps_bodyScriptLoad {P : Nat} {s u : State} {k} (hP : Fits 0x81e0d9b000000000300000000012068000000a1002140a100000000000000000000000000000000000 P) (h : Keeps P s u) :
    Keeps P s (bodyScriptLoad k u).1 := by
  unfold bodyScriptLoad
  beta_reduce
  repeat' (first
    | with_reducible exact h
    | with_reducible assumption
    | dsimp -zeta only
    | with_reducible refine keeps_payload (hP.sub rfl) ?_
    | with_reducible refine keeps_payload_eq (by assumption) (hP.sub rfl) ?_
    | with_reducible refine keeps_fresh (hP.sub rfl) ?_
    | with_reducible refine keeps_fresh_eq (by assumption) (hP.sub rfl) ?_
    | with_reducible refine keeps_fail (hP.sub rfl) ?_
    | with_reducible refine keeps_fail_eq (by assumption) (hP.sub rfl) ?_
    | with_reducible refine keeps_ok (hP.sub rfl) ?_
    | with_reducible refine keeps_ok_eq (by assumption) (hP.sub rfl) ?_
    | intro _
    | with_reducible refine keeps_ite ?_ ?_
    | with_reducible refine keeps_ite_fst ?_ ?_
    | with_reducible refine keeps_pair (by assumption) ?_
    | split
    | fail_if_no_progress extract_lets
    | fail_if_no_progress with_reducible refine keeps_helm hP rfl ?_ rfl rfl
    | dsimp +zetaDelta only)

theorem keeps_bodyScriptLoad_eq {P : Nat} {s u v : State} {k} {x} (he : bodyScriptLoad k u = (v, x)) (hP : Fits 0x81e0d9b000000000300000000012068000000a1002140a100000000000000000000000000000000000 P)
    (h : Keeps P s u) : Keeps P s v := by
  have h1 := keeps_bodyScriptLoad (k := k) hP h
  rw [he] at h1
  exact h1

theorem keeps_setHartRun {P : Nat} {s u : State} {a1 a2} (hP : Fits 0x800000000000000000000000000000000000000000000000000000000000000000000000000000 P) (h : Keeps P s u) :
    Keeps P s (State.setHartRun u a1 a2) := by
  unfold State.setHartRun
  repeat' (first
    | with_reducible exact h
    | with_reducible assumption
    | dsimp -zeta only
    | intro _
    | with_reducible refine keeps_ite ?_ ?_
    | with_reducible refine keeps_ite_fst ?_ ?_
    | with_reducible refine keeps_pair (by assumption) ?_
    | split
    | fail_if_no_progress extract_lets
    | fail_if_no_progress with_reducible refine keeps_helm hP rfl ?_ rfl rfl
    | dsimp +zetaDelta only)

theorem keeps_bodyScriptCtl {P : Nat} {s u : State} {k} (hP : Fits 0x900000000000000000000000000000000000000000000000000000000000000000000000000000 P) (h : Keeps P s u) :
    Keeps P s (bodyScriptCtl k u).1 := by
  unfold bodyScriptCtl
  beta_reduce
  repeat' (first
    | with_reducible exact h
    | with_reducible assumption
    | dsimp -zeta only
    | with_reducible refine keeps_setHartRun (hP.sub rfl) ?_
    | with_reducible refine keeps_setHart (hP.sub rfl) ?_
    | with_reducible refine keeps_fail (hP.sub rfl) ?_
    | with_reducible refine keeps_fail_eq (by assumption) (hP.sub rfl) ?_
    | with_reducible refine keeps_ok (hP.sub rfl) ?_
    | with_reducible refine keeps_ok_eq (by assumption) (hP.sub rfl) ?_
    | intro _
    | with_reducible refine keeps_ite ?_ ?_
    | with_reducible refine keeps_ite_fst ?_ ?_
    | with_reducible refine keeps_pair (by assumption) ?_
    | split
    | fail_if_no_progress extract_lets
    | dsimp +zetaDelta only)

theorem keeps_bodyScriptCtl_eq {P : Nat} {s u v : State} {k} {x} (he : bodyScriptCtl k u = (v, x)) (hP : Fits 0x900000000000000000000000000000000000000000000000000000000000000000000000000000 P)
    (h : Keeps P s u) : Keeps P s v := by
  have h1 := keeps_bodyScriptCtl (k := k) hP h
  rw [he] at h1
  exact h1

theorem keeps_signalCpl {P : Nat} {s u : State} {a1 a2} (hP : Fits 0x208000000000000000000000000000000000000000000000000000000000000000000000000000 P) (h : Keeps P s u) :
    Keeps P s (State.signalCpl u a1 a2) := by
  unfold State.signalCpl
  repeat' (first
    | with_reducible exact h
    | with_reducible assumption
    | dsimp -zeta only
    | with_reducible refine keeps_signal (hP.sub rfl) ?_
    | with_reducible refine keeps_setRing hP rfl ?_ (fun h => h)
    | with_reducible refine keeps_setRing hP rfl ?_ (fun _ => by simp)
    | with_reducible refine keeps_setRing hP rfl ?_ (fun h => by simpa using h)
    | intro _
    | with_reducible refine keeps_ite ?_ ?_
    | with_reducible refine keeps_ite_fst ?_ ?_
    | with_reducible refine keeps_pair (by assumption) ?_
    | split
    | fail_if_no_progress extract_lets
    | dsimp +zetaDelta only)

theorem keeps_writeCpl {P : Nat} {s u : State} {a1 a2} (hP : Fits 0x4000000000000000000000000001800000000000000000000000000000000000000000000000 P) (h : Keeps P s u) :
    Keeps P s (State.writeCpl u a1 a2) := by
  unfold State.writeCpl
  repeat' (first
    | with_reducible exact h
    | with_reducible assumption
    | dsimp -zeta only
    | with_reducible refine keeps_hostWrite (hP.sub rfl) ?_
    | with_reducible refine keeps_fput hP rfl ?_
    | with_reducible refine keeps_tick hP rfl ?_
    | intro _
    | with_reducible refine keeps_ite ?_ ?_
    | with_reducible refine keeps_ite_fst ?_ ?_
    | with_reducible refine keeps_pair (by assumption) ?_
    | split
    | fail_if_no_progress extract_lets
    | dsimp +zetaDelta only)

theorem keeps_doCompletionCommit {P : Nat} {s u : State} {a1} (hP : Fits 0x2000e0e000000000000000000000000003f00000000000000000000000000000000000000000000000 P) (h : Keeps P s u) :
    Keeps P s (State.doCompletionCommit u a1) := by
  unfold State.doCompletionCommit
  repeat' (first
    | with_reducible exact h
    | with_reducible assumption
    | dsimp -zeta only
    | with_reducible refine keeps_sweepRing (hP.sub rfl) ?_
    | with_reducible refine keeps_signalCpl (hP.sub rfl) ?_
    | with_reducible refine keeps_writeCpl (hP.sub rfl) ?_
    | with_reducible refine keeps_setRing hP rfl ?_ (fun h => h)
    | with_reducible refine keeps_setRing hP rfl ?_ (fun _ => by simp)
    | with_reducible refine keeps_setRing hP rfl ?_ (fun h => by simpa using h)
    | intro _
    | with_reducible refine keeps_ite ?_ ?_
    | with_reducible refine keeps_ite_fst ?_ ?_
    | with_reducible refine keeps_pair (by assumption) ?_
    | split
    | fail_if_no_progress extract_lets
    | dsimp +zetaDelta only)

theorem keeps_doModerationTimeout {P : Nat} {s u : State} {a1} (hP : Fits 0x209000000000000000000000000000000000000000000000000000000000000000000000000000 P) (h : Keeps P s u) :
    Keeps P s (State.doModerationTimeout u a1) := by
  unfold State.doModerationTimeout
  dsimp only
  have he : ∀ t, (u.advance t).ring a1 = u.ring a1 := fun _ => rfl
  split
  · refine keeps_signal (hP.sub rfl) (keeps_setRing hP rfl (keeps_advance (hP.sub rfl) h) (fun h => ?_))
    rw [he] at h
    exact h
  · exact h

theorem keeps_expireRunning {P : Nat} {s u : State} {a1 a2} (hP : Fits 0x2000e02000000000000000000000000002000000000000000000000000000000000000000000000000 P) (h : Keeps P s u) :
    Keeps P s (State.expireRunning u a1 a2) := by
  unfold State.expireRunning
  repeat' (first
    | with_reducible exact h
    | with_reducible assumption
    | dsimp -zeta only
    | with_reducible refine keeps_conclude (hP.sub rfl) ?_
    | intro _
    | with_reducible refine keeps_ite ?_ ?_
    | with_reducible refine keeps_ite_fst ?_ ?_
    | with_reducible refine keeps_pair (by assumption) ?_
    | split
    | fail_if_no_progress extract_lets
    | fail_if_no_progress with_reducible refine keeps_helm hP rfl ?_ rfl rfl
    | dsimp +zetaDelta only)

theorem keeps_expireUntaken {P : Nat} {s u : State} {a1 a2} (hP : Fits 0x2000602000000000000000000000000002400000000000000000000000000000000000000000000000 P) (h : Keeps P s u) :
    Keeps P s (State.expireUntaken u a1 a2) := by
  unfold State.expireUntaken
  repeat' (first
    | with_reducible exact h
    | with_reducible assumption
    | dsimp -zeta only
    | with_reducible refine keeps_conclude (hP.sub rfl) ?_
    | with_reducible refine keeps_tick hP rfl ?_
    | with_reducible refine keeps_setRing hP rfl ?_ (fun h => h)
    | with_reducible refine keeps_setRing hP rfl ?_ (fun _ => by simp)
    | with_reducible refine keeps_setRing hP rfl ?_ (fun h => by simpa using h)
    | intro _
    | with_reducible refine keeps_ite ?_ ?_
    | with_reducible refine keeps_ite_fst ?_ ?_
    | with_reducible refine keeps_pair (by assumption) ?_
    | split
    | fail_if_no_progress extract_lets
    | dsimp +zetaDelta only)

theorem keeps_expireCpl {P : Nat} {s u : State} {a1 a2} (hP : Fits 0x600000000000000000000000000002000000000000000000000000000000000000000000000000 P) (h : Keeps P s u) :
    Keeps P s (State.expireCpl u a1 a2) := by
  unfold State.expireCpl
  dsimp only
  split
  · exact h
  · exact keeps_countFix (hP.sub rfl) (keeps_bump hP rfl (keeps_setRing hP rfl h (fun h => by simpa using h)))

theorem keeps_doRingDeadline {P : Nat} {s u : State} {a1 a2} (hP : Fits 0x2000e02000000000000000000000000003f00000000000000000000000000000000000000000000000 P) (h : Keeps P s u) :
    Keeps P s (State.doRingDeadline u a1 a2) := by
  unfold State.doRingDeadline
  repeat' (first
    | with_reducible exact h
    | with_reducible assumption
    | dsimp -zeta only
    | with_reducible refine keeps_expireUntaken (hP.sub rfl) ?_
    | with_reducible refine keeps_expireRunning (hP.sub rfl) ?_
    | with_reducible refine keeps_expireCpl (hP.sub rfl) ?_
    | with_reducible refine keeps_sweepRing (hP.sub rfl) ?_
    | intro _
    | with_reducible refine keeps_ite ?_ ?_
    | with_reducible refine keeps_ite_fst ?_ ?_
    | with_reducible refine keeps_pair (by assumption) ?_
    | split
    | fail_if_no_progress extract_lets
    | dsimp +zetaDelta only)

theorem keeps_expireForwarded {P : Nat} {s u : State} {a1 a2} (hP : Fits 0x2000e02000000000000000000000000002000000000000000000000000000000000000000000000000 P) (h : Keeps P s u) :
    Keeps P s (State.expireForwarded u a1 a2) := by
  unfold State.expireForwarded
  repeat' (first
    | with_reducible exact h
    | with_reducible assumption
    | dsimp -zeta only
    | with_reducible refine keeps_conclude (hP.sub rfl) ?_
    | with_reducible refine keeps_foldl ?_ ?_
    | with_reducible refine keeps_foldl_fst ?_ ?_
    | intro _
    | with_reducible refine keeps_ite ?_ ?_
    | with_reducible refine keeps_ite_fst ?_ ?_
    | with_reducible refine keeps_pair (by assumption) ?_
    | split
    | fail_if_no_progress extract_lets
    | fail_if_no_progress with_reducible refine keeps_helm hP rfl ?_ rfl rfl
    | dsimp +zetaDelta only)

theorem keeps_doMemberDeadline {P : Nat} {s u : State} {a1 a2} (hP : Fits 0x2000e02000000000000000000000000002000000000000000000000000000000000000000000000000 P) (h : Keeps P s u) :
    Keeps P s (State.doMemberDeadline u a1 a2) := by
  unfold State.doMemberDeadline
  repeat' (first
    | with_reducible exact h
    | with_reducible assumption
    | dsimp -zeta only
    | with_reducible refine keeps_expireForwarded (hP.sub rfl) ?_
    | with_reducible refine keeps_expireRunning (hP.sub rfl) ?_
    | intro _
    | with_reducible refine keeps_ite ?_ ?_
    | with_reducible refine keeps_ite_fst ?_ ?_
    | with_reducible refine keeps_pair (by assumption) ?_
    | split
    | fail_if_no_progress extract_lets
    | dsimp +zetaDelta only)

theorem keeps_execCompletionCommit {P : Nat} {u t : State} {a0} (he : execCompletionCommit a0 u = .next t) (hP : Fits 0x2000e0e000000000000000000000000003f00000000000000000000000000000000000000000000000 P) : Keeps P u t := by
  unfold execCompletionCommit at he
  injection he with he
  subst he
  repeat' (first
    | with_reducible exact Keeps.refl P u
    | with_reducible assumption
    | dsimp -zeta only
    | with_reducible refine keeps_doCompletionCommit (hP.sub rfl) ?_
    | intro _
    | with_reducible refine keeps_ite ?_ ?_
    | with_reducible refine keeps_ite_fst ?_ ?_
    | with_reducible refine keeps_pair (by assumption) ?_
    | split
    | fail_if_no_progress extract_lets
    | dsimp +zetaDelta only)

theorem keeps_execModerationTimeout {P : Nat} {u t : State} {a0} (he : execModerationTimeout a0 u = .next t) (hP : Fits 0x209000000000000000000000000000000000000000000000000000000000000000000000000000 P) : Keeps P u t := by
  unfold execModerationTimeout at he
  injection he with he
  subst he
  repeat' (first
    | with_reducible exact Keeps.refl P u
    | with_reducible assumption
    | dsimp -zeta only
    | with_reducible refine keeps_doModerationTimeout (hP.sub rfl) ?_
    | intro _
    | with_reducible refine keeps_ite ?_ ?_
    | with_reducible refine keeps_ite_fst ?_ ?_
    | with_reducible refine keeps_pair (by assumption) ?_
    | split
    | fail_if_no_progress extract_lets
    | dsimp +zetaDelta only)

theorem keeps_execDeadlineExpiry {P : Nat} {u t : State} {a0 a1 a2} (he : execDeadlineExpiry a0 a1 a2 u = .next t) (hP : Fits 0x2000e02000000000000000000000000003f00000000000000000000000000000000000000000000000 P) : Keeps P u t := by
  unfold execDeadlineExpiry at he
  injection he with he
  subst he
  repeat' (first
    | with_reducible exact Keeps.refl P u
    | with_reducible assumption
    | dsimp -zeta only
    | with_reducible refine keeps_doMemberDeadline (hP.sub rfl) ?_
    | with_reducible refine keeps_doRingDeadline (hP.sub rfl) ?_
    | intro _
    | with_reducible refine keeps_ite ?_ ?_
    | with_reducible refine keeps_ite_fst ?_ ?_
    | with_reducible refine keeps_pair (by assumption) ?_
    | split
    | fail_if_no_progress extract_lets
    | dsimp +zetaDelta only)

theorem keeps_execNopCommand {P : Nat} {u t : State} {a0} (he : execNopCommand a0 u = .next t) (hP : Fits 0x2000e02000000000000000000000000003f00000000000000000000000000000000000000000000000 P) : Keeps P u t := by
  unfold execNopCommand at he
  injection he with he
  subst he
  repeat' (first
    | with_reducible exact Keeps.refl P u
    | with_reducible assumption
    | dsimp -zeta only
    | with_reducible refine keeps_runCommand (hP.sub rfl) ?_ ?_
    | with_reducible refine keeps_bodyNop (hP.sub rfl) ?_
    | with_reducible refine keeps_bodyNop_eq (by assumption) (hP.sub rfl) ?_
    | intro _
    | with_reducible refine keeps_ite ?_ ?_
    | with_reducible refine keeps_ite_fst ?_ ?_
    | with_reducible refine keeps_pair (by assumption) ?_
    | split
    | fail_if_no_progress extract_lets
    | dsimp +zetaDelta only)

theorem keeps_execRingCreate {P : Nat} {u t : State} {a0} (he : execRingCreate a0 u = .next t) (hP : Fits 0x2000e02000000000000000000000000003f00000000000000000000000000000000000000000000000 P) : Keeps P u t := by
  unfold execRingCreate at he
  injection he with he
  subst he
  repeat' (first
    | with_reducible exact Keeps.refl P u
    | with_reducible assumption
    | dsimp -zeta only
    | with_reducible refine keeps_runCommand (hP.sub rfl) ?_ ?_
    | with_reducible refine keeps_bodyRingCreate (hP.sub rfl) ?_
    | with_reducible refine keeps_bodyRingCreate_eq (by assumption) (hP.sub rfl) ?_
    | intro _
    | with_reducible refine keeps_ite ?_ ?_
    | with_reducible refine keeps_ite_fst ?_ ?_
    | with_reducible refine keeps_pair (by assumption) ?_
    | split
    | fail_if_no_progress extract_lets
    | dsimp +zetaDelta only)

theorem keeps_execRingDelete {P : Nat} {u t : State} {a0} (he : execRingDelete a0 u = .next t) (hP : Fits 0x2000e02000000000000000000000000003f00000000000000000000000000000000000000000000000 P) : Keeps P u t := by
  unfold execRingDelete at he
  injection he with he
  subst he
  repeat' (first
    | with_reducible exact Keeps.refl P u
    | with_reducible assumption
    | dsimp -zeta only
    | with_reducible refine keeps_runCommand (hP.sub rfl) ?_ ?_
    | with_reducible refine keeps_bodyRingDelete (hP.sub rfl) ?_
    | with_reducible refine keeps_bodyRingDelete_eq (by assumption) (hP.sub rfl) ?_
    | intro _
    | with_reducible refine keeps_ite ?_ ?_
    | with_reducible refine keeps_ite_fst ?_ ?_
    | with_reducible refine keeps_pair (by assumption) ?_
    | split
    | fail_if_no_progress extract_lets
    | dsimp +zetaDelta only)

theorem keeps_execScriptLoad {P : Nat} {u t : State} {a0} (he : execScriptLoad a0 u = .next t) (hP : Fits 0xa1e0f9b000000000300000000012068003f00a1002140a100000000000000000000000000000000000 P) : Keeps P u t := by
  unfold execScriptLoad at he
  injection he with he
  subst he
  repeat' (first
    | with_reducible exact Keeps.refl P u
    | with_reducible assumption
    | dsimp -zeta only
    | with_reducible refine keeps_runCommand (hP.sub rfl) ?_ ?_
    | with_reducible refine keeps_bodyScriptLoad (hP.sub rfl) ?_
    | with_reducible refine keeps_bodyScriptLoad_eq (by assumption) (hP.sub rfl) ?_
    | intro _
    | with_reducible refine keeps_ite ?_ ?_
    | with_reducible refine keeps_ite_fst ?_ ?_
    | with_reducible refine keeps_pair (by assumption) ?_
    | split
    | fail_if_no_progress extract_lets
    | dsimp +zetaDelta only)

theorem keeps_execScriptCtl {P : Nat} {u t : State} {a0} (he : execScriptCtl a0 u = .next t) (hP : Fits 0x2000f02000000000000000000000000003f00000000000000000000000000000000000000000000000 P) : Keeps P u t := by
  unfold execScriptCtl at he
  injection he with he
  subst he
  repeat' (first
    | with_reducible exact Keeps.refl P u
    | with_reducible assumption
    | dsimp -zeta only
    | with_reducible refine keeps_runCommand (hP.sub rfl) ?_ ?_
    | with_reducible refine keeps_bodyScriptCtl (hP.sub rfl) ?_
    | with_reducible refine keeps_bodyScriptCtl_eq (by assumption) (hP.sub rfl) ?_
    | intro _
    | with_reducible refine keeps_ite ?_ ?_
    | with_reducible refine keeps_ite_fst ?_ ?_
    | with_reducible refine keeps_pair (by assumption) ?_
    | split
    | fail_if_no_progress extract_lets
    | dsimp +zetaDelta only)

end Sys2Proof.Machine
end

