-- ==== Sys2Proof/Laws/KeepsBinnacle.lean ====
section
/-! SUPPORT. What each operation of Machine/Binnacle.lean may change, and that it keeps the invariant: one law for each. -/

set_option linter.unreachableTactic false
set_option linter.unusedTactic false

namespace Sys2Proof.Machine

theorem keeps_setSwitching {P : Nat} {s u : State} {a1 a2} (hP : Fits 0x800000000000000000000000000000000000000000000000000000000000000000 P) (h : Keeps P s u) :
    Keeps P s (State.setSwitching u a1 a2) := by
  unfold State.setSwitching
  repeat' (first
    | with_reducible exact h
    | with_reducible assumption
    | dsimp -zeta only
    | with_reducible refine keeps_fput hP rfl ?_
    | intro _
    | with_reducible refine keeps_ite ?_ ?_
    | with_reducible refine keeps_ite_fst ?_ ?_
    | with_reducible refine keeps_pair (by assumption) ?_
    | split
    | fail_if_no_progress extract_lets
    | dsimp +zetaDelta only)

theorem bankGet_filter {κ ν : Type} [DecidableEq κ] {d : κ → ν} {b : Bank κ ν} {k : κ} {p : κ → Bool} (hk : p k = true) :
    bankGet d k (b.filter (fun e => p e.1)) = bankGet d k b := by
  induction b with
  | nil => rfl
  | cons e r ih =>
    obtain ⟨a, v⟩ := e
    by_cases he : a = k
    · subst he
      simp [List.filter_cons, hk, bankGet]
    · by_cases hp : p a = true
      · simp [List.filter_cons, hp, bankGet, he, ih]
      · simp [List.filter_cons, hp, bankGet, he, ih]

theorem keeps_dropRegs {P : Nat} {s u : State} {p : RegKey → Bool} (hp : ∀ k, p k = true → P.testBit k.id.ctorIdx = true)
    (h : Keeps P s u) : Keeps P s (u.dropRegs p) := by
  refine h.trans ⟨rfl, Nat.le_refl _, Nat.le_refl _, fun h => h, fun q hq => ?_⟩
  cases q with
  | reg r =>
    intro a b
    simp only [State.rd, State.dropRegs]
    refine bankGet_filter (p := fun k => !p k) ?_
    cases hb : p ⟨r, a, b⟩ with
    | false => rfl
    | true => exact absurd (hp _ hb) (by rw [show r.ctorIdx = Part.code (.reg r) from rfl, hq]; simp)
  | _ => first | exact rfl | exact fun _ _ => rfl | exact ⟨rfl, rfl⟩ | exact ⟨rfl, rfl, rfl, rfl⟩ |
      exact ⟨rfl, rfl, rfl, rfl, rfl, rfl⟩ | exact ⟨rfl, rfl, rfl, rfl, rfl⟩ | exact ⟨rfl, rfl, rfl, rfl, rfl, rfl, rfl, rfl, rfl⟩

theorem keeps_dropLists {P : Nat} {s u : State} (hP : Fits 0x400000000000000000000000000000000000000000000000000000040000000000000000000000000 P) (h : Keeps P s u) :
    Keeps P s (State.dropLists u) := by
  unfold State.dropLists
  repeat' (first
    | with_reducible exact h
    | with_reducible assumption
    | dsimp -zeta only
    | with_reducible refine keeps_fput hP rfl ?_
    | with_reducible refine keeps_foldl ?_ ?_
    | with_reducible refine keeps_foldl_fst ?_ ?_
    | intro _
    | with_reducible refine keeps_ite ?_ ?_
    | with_reducible refine keeps_ite_fst ?_ ?_
    | with_reducible refine keeps_pair (by assumption) ?_
    | split
    | fail_if_no_progress extract_lets
    | fail_if_no_progress with_reducible refine keeps_dds hP rfl ?_
    | dsimp +zetaDelta only)

theorem keeps_losePower {P : Nat} {s u : State} {a1} (hP : Fits 0xbdfdfdb0000000003012000210d2068002000a1002140a140001b000400000006cff43c1d801000000 P) (h : Keeps P s u) :
    Keeps P s (State.losePower u a1) := by
  unfold State.losePower
  repeat' (first
    | with_reducible exact h
    | with_reducible assumption
    | dsimp -zeta only
    | with_reducible refine keeps_putUcDigest (hP.sub rfl) ?_
    | with_reducible refine keeps_aqQuadDown (hP.sub rfl) ?_
    | with_reducible refine keeps_sdQuadDown (hP.sub rfl) ?_
    | with_reducible refine keeps_setCluster (hP.sub rfl) ?_
    | with_reducible refine keeps_dropFrames (hP.sub rfl) ?_
    | with_reducible refine keeps_dropLists (hP.sub rfl) ?_
    | with_reducible refine keeps_portDown (hP.sub rfl) ?_
    | with_reducible refine keeps_fput hP rfl ?_
    | with_reducible refine keeps_dropRegs (fun k hk => by simp only [Bool.and_eq_true, beq_iff_eq] at hk; rw [hk.1]; exact hP.bit rfl) ?_
    | with_reducible refine keeps_foldl ?_ ?_
    | with_reducible refine keeps_foldl_fst ?_ ?_
    | intro _
    | with_reducible refine keeps_ite ?_ ?_
    | with_reducible refine keeps_ite_fst ?_ ?_
    | with_reducible refine keeps_pair (by assumption) ?_
    | split
    | fail_if_no_progress extract_lets
    | dsimp +zetaDelta only)

theorem keeps_cutPower {P : Nat} {s u : State} {a1} (hP : Fits 0xbdfdfdb000000000f012000210d2068002000a1002140a140001b000400000006cff43c1d801000000 P) (h : Keeps P s u) :
    Keeps P s (State.cutPower u a1) := by
  unfold State.cutPower
  repeat' (first
    | with_reducible exact h
    | with_reducible assumption
    | dsimp -zeta only
    | with_reducible refine keeps_setSwitching (hP.sub rfl) ?_
    | with_reducible refine keeps_setPowered (hP.sub rfl) ?_
    | with_reducible refine keeps_losePower (hP.sub rfl) ?_
    | intro _
    | with_reducible refine keeps_ite ?_ ?_
    | with_reducible refine keeps_ite_fst ?_ ?_
    | with_reducible refine keeps_pair (by assumption) ?_
    | split
    | fail_if_no_progress extract_lets
    | fail_if_no_progress with_reducible refine keeps_bnc hP rfl ?_
    | dsimp +zetaDelta only)

theorem keeps_beginRise {P : Nat} {s u : State} {a1} (hP : Fits 0x8000000000000000800000000000000000000000000000000000000000000000000000000000000000 P) (h : Keeps P s u) :
    Keeps P s (State.beginRise u a1) := by
  unfold State.beginRise
  repeat' (first
    | with_reducible exact h
    | with_reducible assumption
    | dsimp -zeta only
    | with_reducible refine keeps_setSwitching (hP.sub rfl) ?_
    | intro _
    | with_reducible refine keeps_ite ?_ ?_
    | with_reducible refine keeps_ite_fst ?_ ?_
    | with_reducible refine keeps_pair (by assumption) ?_
    | split
    | fail_if_no_progress extract_lets
    | fail_if_no_progress with_reducible refine keeps_bnc hP rfl ?_
    | dsimp +zetaDelta only)

theorem keeps_pwrDone {P : Nat} {s u : State} {a1 a2 a3} (hP : Fits 0x8000000000000002000000000000000000000000000000000000000000000000000000000000000000 P) (h : Keeps P s u) :
    Keeps P s (State.pwrDone u a1 a2 a3) := by
  unfold State.pwrDone
  repeat' (first
    | with_reducible exact h
    | with_reducible assumption
    | dsimp -zeta only
    | with_reducible refine keeps_fput hP rfl ?_
    | intro _
    | with_reducible refine keeps_ite ?_ ?_
    | with_reducible refine keeps_ite_fst ?_ ?_
    | with_reducible refine keeps_pair (by assumption) ?_
    | split
    | fail_if_no_progress extract_lets
    | fail_if_no_progress with_reducible refine keeps_bnc hP rfl ?_
    | dsimp +zetaDelta only)

theorem keeps_switchDomain {P : Nat} {s u : State} {a1 a2} (hP : Fits 0xbdfdfdb000000000f012000210d2068002000a1002140a140001b000400000006cff43c1d801000000 P) (h : Keeps P s u) :
    Keeps P s (State.switchDomain u a1 a2).1 := by
  unfold State.switchDomain
  repeat' (first
    | with_reducible exact h
    | with_reducible assumption
    | dsimp -zeta only
    | with_reducible refine keeps_setSwitching (hP.sub rfl) ?_
    | with_reducible refine keeps_beginRise (hP.sub rfl) ?_
    | with_reducible refine keeps_cutPower (hP.sub rfl) ?_
    | intro _
    | with_reducible refine keeps_ite ?_ ?_
    | with_reducible refine keeps_ite_fst ?_ ?_
    | with_reducible refine keeps_pair (by assumption) ?_
    | split
    | fail_if_no_progress extract_lets
    | fail_if_no_progress with_reducible refine keeps_bnc hP rfl ?_
    | dsimp +zetaDelta only)

theorem keeps_switchDomain_eq {P : Nat} {s u v : State} {a1 a2} {x} (he : State.switchDomain u a1 a2 = (v, x)) (hP : Fits 0xbdfdfdb000000000f012000210d2068002000a1002140a140001b000400000006cff43c1d801000000 P)
    (h : Keeps P s u) : Keeps P s v := by
  have h1 := keeps_switchDomain (a1 := a1) (a2 := a2) hP h
  rw [he] at h1
  exact h1

theorem keeps_bodyPowerDomain {P : Nat} {s u : State} {k} (hP : Fits 0xbdfdfdb000000000f012000210d2068002000a1002140a140001b000400000006cff43c1d801000000 P) (h : Keeps P s u) :
    Keeps P s (bodyPowerDomain k u).1 := by
  unfold bodyPowerDomain
  beta_reduce
  repeat' (first
    | with_reducible exact h
    | with_reducible assumption
    | dsimp -zeta only
    | with_reducible refine keeps_switchDomain (hP.sub rfl) ?_
    | with_reducible refine keeps_switchDomain_eq (by assumption) (hP.sub rfl) ?_
    | with_reducible refine keeps_fail (hP.sub rfl) ?_
    | with_reducible refine keeps_fail_eq (by assumption) (hP.sub rfl) ?_
    | with_reducible refine keeps_ok (hP.sub rfl) ?_
    | with_reducible refine keeps_ok_eq (by assumption) (hP.sub rfl) ?_
    | intro _
    | with_reducible refine keeps_ite ?_ ?_
    | with_reducible refine keeps_ite_fst ?_ ?_
    | with_reducible refine keeps_pair (by assumption) ?_
    | split
    | fail_if_no_progress extract_lets
    | dsimp +zetaDelta only)

theorem keeps_bodyPowerDomain_eq {P : Nat} {s u v : State} {k} {x} (he : bodyPowerDomain k u = (v, x)) (hP : Fits 0xbdfdfdb000000000f012000210d2068002000a1002140a140001b000400000006cff43c1d801000000 P)
    (h : Keeps P s u) : Keeps P s v := by
  have h1 := keeps_bodyPowerDomain (k := k) hP h
  rw [he] at h1
  exact h1

theorem keeps_doPwrReq {P : Nat} {s u : State} {a1} (hP : Fits 0xbdfdfdb000000002f012000210d2068002000a1002140a140001b000400000006cff43c1d801000000 P) (h : Keeps P s u) :
    Keeps P s (State.doPwrReq u a1) := by
  unfold State.doPwrReq
  repeat' (first
    | with_reducible exact h
    | with_reducible assumption
    | dsimp -zeta only
    | with_reducible refine keeps_switchDomain (hP.sub rfl) ?_
    | with_reducible refine keeps_switchDomain_eq (by assumption) (hP.sub rfl) ?_
    | with_reducible refine keeps_pwrDone (hP.sub rfl) ?_
    | intro _
    | with_reducible refine keeps_ite ?_ ?_
    | with_reducible refine keeps_ite_fst ?_ ?_
    | with_reducible refine keeps_pair (by assumption) ?_
    | split
    | fail_if_no_progress extract_lets
    | fail_if_no_progress with_reducible refine keeps_bnc hP rfl ?_
    | dsimp +zetaDelta only)

theorem keeps_doPendingPowerDown {P : Nat} {s u : State} {a1} (hP : Fits 0xbdfdfdb000000002f012000210d2068002000a1002140a140001b000400000006cff43c1d801000000 P) (h : Keeps P s u) :
    Keeps P s (State.doPendingPowerDown u a1) := by
  unfold State.doPendingPowerDown
  repeat' (first
    | with_reducible exact h
    | with_reducible assumption
    | dsimp -zeta only
    | with_reducible refine keeps_beginRise (hP.sub rfl) ?_
    | with_reducible refine keeps_cutPower (hP.sub rfl) ?_
    | with_reducible refine keeps_endWaits (hP.sub rfl) ?_
    | with_reducible refine keeps_pwrDone (hP.sub rfl) ?_
    | intro _
    | with_reducible refine keeps_ite ?_ ?_
    | with_reducible refine keeps_ite_fst ?_ ?_
    | with_reducible refine keeps_pair (by assumption) ?_
    | split
    | fail_if_no_progress extract_lets
    | fail_if_no_progress with_reducible refine keeps_bnc hP rfl ?_
    | dsimp +zetaDelta only)

theorem keeps_restorePower {P : Nat} {s u : State} {a1} (hP : Fits 0x9e054000000000003000000000000000000000000000000000c000004000000000000e000001000000 P) (h : Keeps P s u) :
    Keeps P s (State.restorePower u a1) := by
  unfold State.restorePower
  repeat' (first
    | with_reducible exact h
    | with_reducible assumption
    | dsimp -zeta only
    | with_reducible refine keeps_beginSettle (hP.sub rfl) ?_
    | with_reducible refine keeps_loadVendor (hP.sub rfl) ?_
    | with_reducible refine keeps_dropLists (hP.sub rfl) ?_
    | with_reducible refine keeps_sdQuadUp (hP.sub rfl) ?_
    | with_reducible refine keeps_setPin (hP.sub rfl) ?_
    | with_reducible refine keeps_setMu (hP.sub rfl) ?_
    | with_reducible refine keeps_wr hP rfl ?_
    | with_reducible refine keeps_foldl ?_ ?_
    | with_reducible refine keeps_foldl_fst ?_ ?_
    | intro _
    | with_reducible refine keeps_ite ?_ ?_
    | with_reducible refine keeps_ite_fst ?_ ?_
    | with_reducible refine keeps_pair (by assumption) ?_
    | split
    | fail_if_no_progress extract_lets
    | dsimp +zetaDelta only)

theorem keeps_dropUnits {P : Nat} {s u : State} {a1} (hP : Fits 0x1e08000000000000000000000000000000000000000000000000000000000000000000000000000000 P) (h : Keeps P s u) :
    Keeps P s (State.dropUnits u a1) := by
  unfold State.dropUnits
  repeat' (first
    | with_reducible exact h
    | with_reducible assumption
    | dsimp -zeta only
    | with_reducible refine keeps_setSxtChan (hP.sub rfl) ?_
    | with_reducible refine keeps_setPilot (hP.sub rfl) ?_
    | with_reducible refine keeps_foldl ?_ ?_
    | with_reducible refine keeps_foldl_fst ?_ ?_
    | intro _
    | with_reducible refine keeps_ite ?_ ?_
    | with_reducible refine keeps_ite_fst ?_ ?_
    | with_reducible refine keeps_pair (by assumption) ?_
    | split
    | fail_if_no_progress extract_lets
    | fail_if_no_progress with_reducible refine keeps_adc hP rfl ?_
    | fail_if_no_progress with_reducible refine keeps_acq hP rfl ?_
    | fail_if_no_progress with_reducible refine keeps_dds hP rfl ?_
    | dsimp +zetaDelta only)

theorem keeps_endRise {P : Nat} {s u : State} {a1} (hP : Fits 0x9e05400000000000f000000000000000000000000000000000c000004000000000000e000001000000 P) (h : Keeps P s u) :
    Keeps P s (State.endRise u a1) := by
  unfold State.endRise
  repeat' (first
    | with_reducible exact h
    | with_reducible assumption
    | dsimp -zeta only
    | with_reducible refine keeps_restorePower (hP.sub rfl) ?_
    | with_reducible refine keeps_setSwitching (hP.sub rfl) ?_
    | with_reducible refine keeps_setPowered (hP.sub rfl) ?_
    | intro _
    | with_reducible refine keeps_ite ?_ ?_
    | with_reducible refine keeps_ite_fst ?_ ?_
    | with_reducible refine keeps_pair (by assumption) ?_
    | split
    | fail_if_no_progress extract_lets
    | fail_if_no_progress with_reducible refine keeps_bnc hP rfl ?_
    | dsimp +zetaDelta only)

/-- The registers of domains that power down. -/
def domainBank (id : RegId) : Bool :=
  id == .PIN_CTL || id == .PIN_DRV_LVL || id == .PIN_VTT || id == .PIN_CMP_LVL || id == .PIN_PMU_CTL || id == .PIN_PMU_FORCE ||
  id == .PIN_PMU_CLAMP || id == .PIN_STATUS || id == .PIN_OV_COUNT || id == .PIN_TRIM || id == .PIN_FAIL_COUNT || id == .PIN_SITE ||
  decide (RegId.WLN_P_CTL.ctorIdx ≤ id.ctorIdx ∧ id.ctorIdx ≤ RegId.WLN_P_LAUNCH.ctorIdx) ||
  decide (RegId.ETH_CTL.ctorIdx ≤ id.ctorIdx ∧ id.ctorIdx ≤ RegId.ETH_OOB_PEER.ctorIdx) ||
  decide (RegId.PLT_CS_STAT.ctorIdx ≤ id.ctorIdx ∧ id.ctorIdx ≤ RegId.PLT_UC_DIGEST.ctorIdx) ||
  decide (RegId.PLT_CTL.ctorIdx ≤ id.ctorIdx ∧ id.ctorIdx ≤ RegId.PLT_CAP_STAT.ctorIdx) ||
  decide (RegId.PLT_SITE_MASK.ctorIdx ≤ id.ctorIdx ∧ id.ctorIdx ≤ RegId.PLT_SUSP_LIST.ctorIdx) ||
  decide (RegId.ADC_SAR_CTL.ctorIdx ≤ id.ctorIdx ∧ id.ctorIdx ≤ RegId.ADC_SAR_RES.ctorIdx) ||
  decide (RegId.ACQ_STATUS.ctorIdx ≤ id.ctorIdx ∧ id.ctorIdx ≤ RegId.ACQ_CNT.ctorIdx) ||
  decide (RegId.DDS_CTL.ctorIdx ≤ id.ctorIdx ∧ id.ctorIdx ≤ RegId.DDS_ENG_EPOCH_FRAC.ctorIdx) ||
  decide (RegId.SXT_CH_CTL.ctorIdx ≤ id.ctorIdx ∧ id.ctorIdx ≤ RegId.SXT_CH_CNT.ctorIdx)

theorem domainBank_bit (id : RegId) (h : domainBank id = true) : (0xbe0de03000000002f07f01ff00000000020000000000000ffffe000ffc007fc1fffffffffe07fe0000 : Nat).testBit id.ctorIdx = true := by
  cases id <;> first | rfl | exact absurd h (by decide)

theorem domainReg_bit {d : Nat} {k : RegKey} (h : domainReg d k = true) : (0xbe0de03000000002f07f01ff00000000020000000000000ffffe000ffc007fc1fffffffffe07fe0000 : Nat).testBit k.id.ctorIdx = true := by
  refine domainBank_bit k.id ?_
  unfold domainReg at h
  unfold domainBank
  dsimp only at h
  repeat' (split at h)
  all_goals (simp only [Bool.and_eq_true, Bool.or_eq_true] at h ⊢; tauto)

theorem keeps_doPowerUpDone {P : Nat} {s u : State} {a1} (hP : Fits 0xbe0de03000000002f07f01ff00000000020000000000000ffffe000ffc007fc1fffffffffe07fe0000 P) (h : Keeps P s u) :
    Keeps P s (State.doPowerUpDone u a1) := by
  unfold State.doPowerUpDone
  repeat' (first
    | with_reducible exact h
    | with_reducible assumption
    | dsimp -zeta only
    | with_reducible refine keeps_setSwitching (hP.sub rfl) ?_
    | with_reducible refine keeps_dropUnits (hP.sub rfl) ?_
    | with_reducible refine keeps_endWaits (hP.sub rfl) ?_
    | with_reducible refine keeps_advance (hP.sub rfl) ?_
    | with_reducible refine keeps_pwrDone (hP.sub rfl) ?_
    | with_reducible refine keeps_endRise (hP.sub rfl) ?_
    | with_reducible refine keeps_dropRegs (fun k hk => hP.bit (domainReg_bit hk)) ?_
    | intro _
    | with_reducible refine keeps_ite ?_ ?_
    | with_reducible refine keeps_ite_fst ?_ ?_
    | with_reducible refine keeps_pair (by assumption) ?_
    | split
    | fail_if_no_progress extract_lets
    | dsimp +zetaDelta only)

theorem keeps_doBlkReset {P : Nat} {s u : State} {a1} (hP : Fits 0xbdfdfdb000000000f812000210d2068002000a1002140a140001b000400000006cff43c1d801000000 P) (h : Keeps P s u) :
    Keeps P s (State.doBlkReset u a1) := by
  unfold State.doBlkReset
  repeat' (first
    | with_reducible exact h
    | with_reducible assumption
    | dsimp -zeta only
    | with_reducible refine keeps_setSwitching (hP.sub rfl) ?_
    | with_reducible refine keeps_beginRise (hP.sub rfl) ?_
    | with_reducible refine keeps_cutPower (hP.sub rfl) ?_
    | with_reducible refine keeps_fput hP rfl ?_
    | intro _
    | with_reducible refine keeps_ite ?_ ?_
    | with_reducible refine keeps_ite_fst ?_ ?_
    | with_reducible refine keeps_pair (by assumption) ?_
    | split
    | fail_if_no_progress extract_lets
    | fail_if_no_progress with_reducible refine keeps_bnc hP rfl ?_
    | dsimp +zetaDelta only)

theorem keeps_appendLog {P : Nat} {s u : State} (hP : Fits 0x8000000000000000000000000000000000000000000000000000000000000000000000000000000000 P) (h : Keeps P s u) :
    Keeps P s (State.appendLog u) := by
  unfold State.appendLog
  repeat' (first
    | with_reducible exact h
    | with_reducible assumption
    | dsimp -zeta only
    | intro _
    | with_reducible refine keeps_ite ?_ ?_
    | with_reducible refine keeps_ite_fst ?_ ?_
    | with_reducible refine keeps_pair (by assumption) ?_
    | split
    | fail_if_no_progress extract_lets
    | fail_if_no_progress with_reducible refine keeps_bnc hP rfl ?_
    | dsimp +zetaDelta only)

theorem keeps_trainPci {P : Nat} {s u : State} (hP : Fits 0x2000000000000040000000000000000000000000000000000000000000000000000000000000 P) (h : Keeps P s u) :
    Keeps P s (State.trainPci u) := by
  unfold State.trainPci
  repeat' (first
    | with_reducible exact h
    | with_reducible assumption
    | dsimp -zeta only
    | with_reducible refine keeps_fresh (hP.sub rfl) ?_
    | with_reducible refine keeps_fresh_eq (by assumption) (hP.sub rfl) ?_
    | with_reducible refine keeps_fput hP rfl ?_
    | intro _
    | with_reducible refine keeps_ite ?_ ?_
    | with_reducible refine keeps_ite_fst ?_ ?_
    | with_reducible refine keeps_pair (by assumption) ?_
    | split
    | fail_if_no_progress extract_lets
    | dsimp +zetaDelta only)

theorem keeps_makeSystemQueues {P : Nat} {s u : State} (hP : Fits 0x80000000000000000000000000000000000000000000000000000 P) (h : Keeps P s u) :
    Keeps P s (State.makeSystemQueues u) := by
  unfold State.makeSystemQueues
  repeat' (first
    | with_reducible exact h
    | with_reducible assumption
    | dsimp -zeta only
    | with_reducible refine keeps_wr hP rfl ?_
    | with_reducible refine keeps_foldl ?_ ?_
    | with_reducible refine keeps_foldl_fst ?_ ?_
    | intro _
    | with_reducible refine keeps_ite ?_ ?_
    | with_reducible refine keeps_ite_fst ?_ ?_
    | with_reducible refine keeps_pair (by assumption) ?_
    | split
    | fail_if_no_progress extract_lets
    | dsimp +zetaDelta only)

theorem keeps_setReady {P : Nat} {s u : State} (hP : Fits 0x808000000000000004000000000000000000000000000000000000000000000000000000000000 P) (h : Keeps P s u) :
    Keeps P s (State.setReady u) := by
  unfold State.setReady
  repeat' (first
    | with_reducible exact h
    | with_reducible assumption
    | dsimp -zeta only
    | with_reducible refine keeps_devIrq (hP.sub rfl) ?_
    | with_reducible refine keeps_fput hP rfl ?_
    | intro _
    | with_reducible refine keeps_ite ?_ ?_
    | with_reducible refine keeps_ite_fst ?_ ?_
    | with_reducible refine keeps_pair (by assumption) ?_
    | split
    | fail_if_no_progress extract_lets
    | fail_if_no_progress with_reducible refine keeps_helm hP rfl ?_ rfl rfl
    | dsimp +zetaDelta only)

theorem keeps_bootStart {P : Nat} {s u : State} {a1} (hP : Fits 0x8000020000000000000000000000000000000000000000000000000000000000000000000000000000 P) (h : Keeps P s u) :
    Keeps P s (State.bootStart u a1) := by
  unfold State.bootStart
  repeat' (first
    | with_reducible exact h
    | with_reducible assumption
    | dsimp -zeta only
    | with_reducible refine keeps_setMer (hP.sub rfl) ?_
    | intro _
    | with_reducible refine keeps_ite ?_ ?_
    | with_reducible refine keeps_ite_fst ?_ ?_
    | with_reducible refine keeps_pair (by assumption) ?_
    | split
    | fail_if_no_progress extract_lets
    | fail_if_no_progress with_reducible refine keeps_bnc hP rfl ?_
    | dsimp +zetaDelta only)

theorem keeps_channelStates {P : Nat} {s u : State} {a1} (hP : Fits 0x200000000000000000000000000000000000000 P) (h : Keeps P s u) :
    Keeps P s (State.channelStates u a1) := by
  unfold State.channelStates
  repeat' (first
    | with_reducible exact h
    | with_reducible assumption
    | dsimp -zeta only
    | with_reducible refine keeps_fput hP rfl ?_
    | with_reducible refine keeps_foldl ?_ ?_
    | with_reducible refine keeps_foldl_fst ?_ ?_
    | intro _
    | with_reducible refine keeps_ite ?_ ?_
    | with_reducible refine keeps_ite_fst ?_ ?_
    | with_reducible refine keeps_pair (by assumption) ?_
    | split
    | fail_if_no_progress extract_lets
    | dsimp +zetaDelta only)

theorem keeps_doPowerGood {P : Nat} {s u : State} {a1} (hP : Fits 0x8000022000000000428040000000000000000000000200100000000000000000000000000000000000 P) (h : Keeps P s u) :
    Keeps P s (State.doPowerGood u a1) := by
  unfold State.doPowerGood
  repeat' (first
    | with_reducible exact h
    | with_reducible assumption
    | dsimp -zeta only
    | with_reducible refine keeps_channelStates (hP.sub rfl) ?_
    | with_reducible refine keeps_bootStart (hP.sub rfl) ?_
    | with_reducible refine keeps_trainPci (hP.sub rfl) ?_
    | with_reducible refine keeps_fput hP rfl ?_
    | intro _
    | with_reducible refine keeps_ite ?_ ?_
    | with_reducible refine keeps_ite_fst ?_ ?_
    | with_reducible refine keeps_pair (by assumption) ?_
    | split
    | fail_if_no_progress extract_lets
    | dsimp +zetaDelta only)

theorem keeps_bootRecord {P : Nat} {s u : State} {a1} (hP : Fits 0x8000000000000000300000000000000000000000000000000000000000000000000000000000000000 P) (h : Keeps P s u) :
    Keeps P s (State.bootRecord u a1) := by
  unfold State.bootRecord
  repeat' (first
    | with_reducible exact h
    | with_reducible assumption
    | dsimp -zeta only
    | with_reducible refine keeps_logWrite (hP.sub rfl) ?_
    | intro _
    | with_reducible refine keeps_ite ?_ ?_
    | with_reducible refine keeps_ite_fst ?_ ?_
    | with_reducible refine keeps_pair (by assumption) ?_
    | split
    | fail_if_no_progress extract_lets
    | dsimp +zetaDelta only)

theorem keeps_loadImages {P : Nat} {s u : State} (hP : Fits 0x8000002000000000010000000000000000000000000000000000000000000000000000000000000000 P) (h : Keeps P s u) :
    Keeps P s (State.loadImages u) := by
  unfold State.loadImages
  repeat' (first
    | with_reducible exact h
    | with_reducible assumption
    | dsimp -zeta only
    | with_reducible refine keeps_fresh (hP.sub rfl) ?_
    | with_reducible refine keeps_fresh_eq (by assumption) (hP.sub rfl) ?_
    | with_reducible refine keeps_wr hP rfl ?_
    | intro _
    | with_reducible refine keeps_ite ?_ ?_
    | with_reducible refine keeps_ite_fst ?_ ?_
    | with_reducible refine keeps_pair (by assumption) ?_
    | split
    | fail_if_no_progress extract_lets
    | fail_if_no_progress with_reducible refine keeps_bnc hP rfl ?_
    | dsimp +zetaDelta only)

theorem keeps_copyVendor {P : Nat} {s u : State} (hP : Fits 0x806059a000000000300000000012068000000000001402100000000000000000000000000000000000 P) (h : Keeps P s u) :
    Keeps P s (State.copyVendor u) := by
  unfold State.copyVendor
  repeat' (first
    | with_reducible exact h
    | with_reducible assumption
    | dsimp -zeta only
    | with_reducible refine keeps_writeCopy (hP.sub rfl) ?_
    | intro _
    | with_reducible refine keeps_ite ?_ ?_
    | with_reducible refine keeps_ite_fst ?_ ?_
    | with_reducible refine keeps_pair (by assumption) ?_
    | split
    | fail_if_no_progress extract_lets
    | dsimp +zetaDelta only)

theorem keeps_makeSystemSpaces {P : Nat} {s u : State} (hP : Fits 0x2000000000000000000000000000000006000000000000000000000000000000000000000000 P) (h : Keeps P s u) :
    Keeps P s (State.makeSystemSpaces u) := by
  unfold State.makeSystemSpaces
  repeat' (first
    | with_reducible exact h
    | with_reducible assumption
    | dsimp -zeta only
    | with_reducible refine keeps_fresh (hP.sub rfl) ?_
    | with_reducible refine keeps_fresh_eq (by assumption) (hP.sub rfl) ?_
    | with_reducible refine keeps_fput hP rfl ?_
    | with_reducible refine keeps_foldl ?_ ?_
    | with_reducible refine keeps_foldl_fst ?_ ?_
    | intro _
    | with_reducible refine keeps_ite ?_ ?_
    | with_reducible refine keeps_ite_fst ?_ ?_
    | with_reducible refine keeps_pair (by assumption) ?_
    | split
    | fail_if_no_progress extract_lets
    | dsimp +zetaDelta only)

theorem keeps_dropAlmanac {P : Nat} {s u : State} (hP : Fits 0x2000000000000000000000000000000000000000000000000000000000000000000000000000000 P) (h : Keeps P s u) :
    Keeps P s (State.dropAlmanac u) := by
  unfold State.dropAlmanac
  repeat' (first
    | with_reducible exact h
    | with_reducible assumption
    | dsimp -zeta only
    | intro _
    | with_reducible refine keeps_ite ?_ ?_
    | with_reducible refine keeps_ite_fst ?_ ?_
    | with_reducible refine keeps_pair (by assumption) ?_
    | split
    | fail_if_no_progress extract_lets
    | fail_if_no_progress with_reducible refine keeps_alm hP rfl ?_
    | dsimp +zetaDelta only)

theorem keeps_bootNote {P : Nat} {s u : State} {a1 a2 a3 a4} (hP : Fits 0x8000000000000000308000000000000000000000000000000000000000000000000000000000000000 P) (h : Keeps P s u) :
    Keeps P s (State.bootNote u a1 a2 a3 a4) := by
  unfold State.bootNote
  repeat' (first
    | with_reducible exact h
    | with_reducible assumption
    | dsimp -zeta only
    | with_reducible refine keeps_logWrite (hP.sub rfl) ?_
    | with_reducible refine keeps_fput hP rfl ?_
    | with_reducible refine keeps_foldl ?_ ?_
    | with_reducible refine keeps_foldl_fst ?_ ?_
    | intro _
    | with_reducible refine keeps_ite ?_ ?_
    | with_reducible refine keeps_ite_fst ?_ ?_
    | with_reducible refine keeps_pair (by assumption) ?_
    | split
    | fail_if_no_progress extract_lets
    | dsimp +zetaDelta only)

theorem keeps_bootUp {P : Nat} {s u : State} {a1} (hP : Fits 0x806659a0000000007100000000120e800000000600160230000000000000000000000e000000000000 P) (h : Keeps P s u) :
    Keeps P s (State.bootUp u a1) := by
  unfold State.bootUp
  repeat' (first
    | with_reducible exact h
    | with_reducible assumption
    | dsimp -zeta only
    | with_reducible refine keeps_makeSystemQueues (hP.sub rfl) ?_
    | with_reducible refine keeps_makeSystemSpaces (hP.sub rfl) ?_
    | with_reducible refine keeps_channelStates (hP.sub rfl) ?_
    | with_reducible refine keeps_firstInterval (hP.sub rfl) ?_
    | with_reducible refine keeps_faultChannel (hP.sub rfl) ?_
    | with_reducible refine keeps_dropAlmanac (hP.sub rfl) ?_
    | with_reducible refine keeps_loadVendor (hP.sub rfl) ?_
    | with_reducible refine keeps_copyVendor (hP.sub rfl) ?_
    | with_reducible refine keeps_loadImages (hP.sub rfl) ?_
    | with_reducible refine keeps_appendLog (hP.sub rfl) ?_
    | with_reducible refine keeps_fput hP rfl ?_
    | with_reducible refine keeps_foldl ?_ ?_
    | with_reducible refine keeps_foldl_fst ?_ ?_
    | intro _
    | with_reducible refine keeps_ite ?_ ?_
    | with_reducible refine keeps_ite_fst ?_ ?_
    | with_reducible refine keeps_pair (by assumption) ?_
    | split
    | fail_if_no_progress extract_lets
    | dsimp +zetaDelta only)

theorem keeps_doBootComplete {P : Nat} {s u : State} {a1 a2 a3 a4 a5} (hP : Fits 0x8066d9a0000000007180040000120e800000000600160230000000000000000000000e000000000000 P) (h : Keeps P s u) :
    Keeps P s (State.doBootComplete u a1 a2 a3 a4 a5) := by
  unfold State.doBootComplete
  repeat' (first
    | with_reducible exact h
    | with_reducible assumption
    | dsimp -zeta only
    | with_reducible refine keeps_bootRecord (hP.sub rfl) ?_
    | with_reducible refine keeps_setReady (hP.sub rfl) ?_
    | with_reducible refine keeps_bootNote (hP.sub rfl) ?_
    | with_reducible refine keeps_bootUp (hP.sub rfl) ?_
    | with_reducible refine keeps_fput hP rfl ?_
    | intro _
    | with_reducible refine keeps_ite ?_ ?_
    | with_reducible refine keeps_ite_fst ?_ ?_
    | with_reducible refine keeps_pair (by assumption) ?_
    | split
    | fail_if_no_progress extract_lets
    | dsimp +zetaDelta only)

theorem keeps_coldState {P : Nat} {s u : State} (hP : Fits 0xffffffc00000007fffffffffffffffffffffffffffffffffffffffffffffffffffffffffffffffffff P) (h : Keeps P s u) :
    Keeps P s (State.coldState u) := by
  refine h.trans ⟨rfl, Nat.le_refl _, Nat.le_refl _, fun hs => ⟨⟨⟨List.Pairwise.nil, fun _ h => nomatch h⟩, ⟨List.Pairwise.nil, fun _ h => nomatch h⟩, hs.1.2.2⟩, ⟨Nat.zero_le _, List.nodup_nil, fun _ h => nomatch h⟩, fun _ h => nomatch h⟩, fun q hq => ?_⟩
  cases q with
  | reg r => exact absurd (hP.bit (i := r.ctorIdx) (by cases r <;> rfl)) (by rw [show r.ctorIdx = Part.code (.reg r) from rfl, hq]; simp)
  | time => exact rfl
  | free => exact rfl
  | hostMem => exact rfl
  | _ => exact absurd (hP.bit rfl) (by rw [hq]; simp)

theorem keeps_coldEnd {P : Nat} {s u : State} {a1 a2} (hP : Fits 0xffffffc00000007fffffffffffffffffffffffffffffffffffffffffffffffffffffffffffffffffff P) (h : Keeps P s u) :
    Keeps P s (State.coldEnd u a1 a2) := by
  unfold State.coldEnd
  repeat' (first
    | with_reducible exact h
    | with_reducible assumption
    | dsimp -zeta only
    | with_reducible refine keeps_coldState (hP.sub rfl) ?_
    | with_reducible refine keeps_setMer (hP.sub rfl) ?_
    | with_reducible refine keeps_fput hP rfl ?_
    | intro _
    | with_reducible refine keeps_ite ?_ ?_
    | with_reducible refine keeps_ite_fst ?_ ?_
    | with_reducible refine keeps_pair (by assumption) ?_
    | split
    | fail_if_no_progress extract_lets
    | dsimp +zetaDelta only)

theorem keeps_doColdReset {P : Nat} {s u : State} {a1} (hP : Fits 0xffffffc00000007fffffffffffffffffffffffffffffffffffffffffffffffffffffffffffffffffff P) (h : Keeps P s u) :
    Keeps P s (State.doColdReset u a1) := by
  unfold State.doColdReset
  repeat' (first
    | with_reducible exact h
    | with_reducible assumption
    | dsimp -zeta only
    | with_reducible refine keeps_logWrite (hP.sub rfl) ?_
    | with_reducible refine keeps_coldEnd (hP.sub rfl) ?_
    | intro _
    | with_reducible refine keeps_ite ?_ ?_
    | with_reducible refine keeps_ite_fst ?_ ?_
    | with_reducible refine keeps_pair (by assumption) ?_
    | split
    | fail_if_no_progress extract_lets
    | dsimp +zetaDelta only)

theorem keeps_warmState {P : Nat} {s u : State} (hP : Fits 0xffffffc00000007fffffffffffffffffffffffffffffffffffffffffffffffffffffffffffffffffff P) (h : Keeps P s u) :
    Keeps P s (State.warmState u) := by
  refine h.trans ⟨rfl, Nat.le_refl _, Nat.le_refl _, fun hs => ⟨hs.1, ⟨Nat.zero_le _, List.nodup_nil, fun _ h => nomatch h⟩, fun _ h => nomatch h⟩, fun q hq => ?_⟩
  cases q with
  | reg r => exact absurd (hP.bit (i := r.ctorIdx) (by cases r <;> rfl)) (by rw [show r.ctorIdx = Part.code (.reg r) from rfl, hq]; simp)
  | time => exact rfl
  | free => exact rfl
  | hostMem => exact rfl
  | _ => exact absurd (hP.bit rfl) (by rw [hq]; simp)

theorem keeps_warmEnd {P : Nat} {s u : State} {a1} (hP : Fits 0xffffffc00000007fffffffffffffffffffffffffffffffffffffffffffffffffffffffffffffffffff P) (h : Keeps P s u) :
    Keeps P s (State.warmEnd u a1) := by
  unfold State.warmEnd
  repeat' (first
    | with_reducible exact h
    | with_reducible assumption
    | dsimp -zeta only
    | with_reducible refine keeps_warmState (hP.sub rfl) ?_
    | with_reducible refine keeps_fput hP rfl ?_
    | with_reducible refine keeps_bump hP rfl ?_
    | intro _
    | with_reducible refine keeps_ite ?_ ?_
    | with_reducible refine keeps_ite_fst ?_ ?_
    | with_reducible refine keeps_pair (by assumption) ?_
    | split
    | fail_if_no_progress extract_lets
    | dsimp +zetaDelta only)

theorem keeps_doWarmReset {P : Nat} {s u : State} (hP : Fits 0xfffffff00000007fffffffffffffffffffffffffffffffffffffffffffffffffffffffffffffffffff P) (h : Keeps P s u) :
    Keeps P s (State.doWarmReset u) := by
  unfold State.doWarmReset
  repeat' (first
    | with_reducible exact h
    | with_reducible assumption
    | dsimp -zeta only
    | with_reducible refine keeps_settleWrites (hP.sub rfl) ?_
    | with_reducible refine keeps_logWrite (hP.sub rfl) ?_
    | with_reducible refine keeps_portDown (hP.sub rfl) ?_
    | with_reducible refine keeps_warmEnd (hP.sub rfl) ?_
    | with_reducible refine keeps_foldl ?_ ?_
    | with_reducible refine keeps_foldl_fst ?_ ?_
    | intro _
    | with_reducible refine keeps_ite ?_ ?_
    | with_reducible refine keeps_ite_fst ?_ ?_
    | with_reducible refine keeps_pair (by assumption) ?_
    | split
    | fail_if_no_progress extract_lets
    | dsimp +zetaDelta only)

theorem keeps_doPerstDeassert {P : Nat} {s u : State} (hP : Fits 0x81a000000000000044000000080000000000000000000000000000000000000000000000000000 P) (h : Keeps P s u) :
    Keeps P s (State.doPerstDeassert u) := by
  unfold State.doPerstDeassert
  repeat' (first
    | with_reducible exact h
    | with_reducible assumption
    | dsimp -zeta only
    | with_reducible refine keeps_makeSystemQueues (hP.sub rfl) ?_
    | with_reducible refine keeps_setReady (hP.sub rfl) ?_
    | with_reducible refine keeps_trainPci (hP.sub rfl) ?_
    | intro _
    | with_reducible refine keeps_ite ?_ ?_
    | with_reducible refine keeps_ite_fst ?_ ?_
    | with_reducible refine keeps_pair (by assumption) ?_
    | split
    | fail_if_no_progress extract_lets
    | fail_if_no_progress with_reducible refine keeps_hostPort hP rfl ?_ rfl rfl rfl rfl rfl
    | dsimp +zetaDelta only)

theorem keeps_newAlert {P : Nat} {s u : State} (hP : Fits 0x8000000000000000000000000000000000000000000000000000000000000000000000000000000000 P) (h : Keeps P s u) :
    Keeps P s (State.newAlert u) := by
  unfold State.newAlert
  repeat' (first
    | with_reducible exact h
    | with_reducible assumption
    | dsimp -zeta only
    | intro _
    | with_reducible refine keeps_ite ?_ ?_
    | with_reducible refine keeps_ite_fst ?_ ?_
    | with_reducible refine keeps_pair (by assumption) ?_
    | split
    | fail_if_no_progress extract_lets
    | fail_if_no_progress with_reducible refine keeps_bnc hP rfl ?_
    | dsimp +zetaDelta only)

theorem keeps_thermalIrq {P : Nat} {s u : State} (hP : Fits 0x8000000000000000000000000000000000000000000000000000000000000000000000000000 P) (h : Keeps P s u) :
    Keeps P s (State.thermalIrq u) := by
  unfold State.thermalIrq
  repeat' (first
    | with_reducible exact h
    | with_reducible assumption
    | dsimp -zeta only
    | with_reducible refine keeps_signal (hP.sub rfl) ?_
    | intro _
    | with_reducible refine keeps_ite ?_ ?_
    | with_reducible refine keeps_ite_fst ?_ ?_
    | with_reducible refine keeps_pair (by assumption) ?_
    | split
    | fail_if_no_progress extract_lets
    | dsimp +zetaDelta only)

theorem keeps_thermalTo {P : Nat} {s u : State} {a1} (hP : Fits 0x8000188000000010300000000012068000000000000000000000000000000000000000000000000000 P) (h : Keeps P s u) :
    Keeps P s (State.thermalTo u a1) := by
  unfold State.thermalTo
  repeat' (first
    | with_reducible exact h
    | with_reducible assumption
    | dsimp -zeta only
    | with_reducible refine keeps_thermalIrq (hP.sub rfl) ?_
    | with_reducible refine keeps_logWrite (hP.sub rfl) ?_
    | with_reducible refine keeps_newAlert (hP.sub rfl) ?_
    | with_reducible refine keeps_commit (hP.sub rfl) ?_
    | with_reducible refine keeps_commit_eq (by assumption) (hP.sub rfl) ?_
    | with_reducible refine keeps_fput hP rfl ?_
    | with_reducible refine keeps_bump hP rfl ?_
    | intro _
    | with_reducible refine keeps_ite ?_ ?_
    | with_reducible refine keeps_ite_fst ?_ ?_
    | with_reducible refine keeps_pair (by assumption) ?_
    | split
    | fail_if_no_progress extract_lets
    | fail_if_no_progress with_reducible refine keeps_bnc hP rfl ?_
    | dsimp +zetaDelta only)

theorem keeps_thermalStep {P : Nat} {s u : State} {a1} (hP : Fits 0x8000188000000010300000000012068000000000000000000000000000000000000000000000000000 P) (h : Keeps P s u) :
    Keeps P s (State.thermalStep u a1) := by
  unfold State.thermalStep
  repeat' (first
    | with_reducible exact h
    | with_reducible assumption
    | dsimp -zeta only
    | with_reducible refine keeps_thermalTo (hP.sub rfl) ?_
    | intro _
    | with_reducible refine keeps_ite ?_ ?_
    | with_reducible refine keeps_ite_fst ?_ ?_
    | with_reducible refine keeps_pair (by assumption) ?_
    | split
    | fail_if_no_progress extract_lets
    | fail_if_no_progress with_reducible refine keeps_bnc hP rfl ?_
    | dsimp +zetaDelta only)

theorem keeps_tripState {P : Nat} {s u : State} (hP : Fits 0xffffffc00000007fffffffffffffffffffffffffffffffffffffffffffffffffffffffffffffffffff P) (h : Keeps P s u) :
    Keeps P s (State.tripState u) := by
  refine h.trans ⟨rfl, Nat.le_refl _, Nat.le_refl _, fun hs => ⟨⟨⟨List.Pairwise.nil, fun _ h => nomatch h⟩, ⟨List.Pairwise.nil, fun _ h => nomatch h⟩, hs.1.2.2⟩, ⟨Nat.zero_le _, List.nodup_nil, fun _ h => nomatch h⟩, fun _ h => nomatch h⟩, fun q hq => ?_⟩
  cases q with
  | reg r => exact absurd (hP.bit (i := r.ctorIdx) (by cases r <;> rfl)) (by rw [show r.ctorIdx = Part.code (.reg r) from rfl, hq]; simp)
  | time => exact rfl
  | free => exact rfl
  | hostMem => exact rfl
  | _ => exact absurd (hP.bit rfl) (by rw [hq]; simp)

theorem keeps_tripEnd {P : Nat} {s u : State} (hP : Fits 0xffffffc00000007fffffffffffffffffffffffffffffffffffffffffffffffffffffffffffffffffff P) (h : Keeps P s u) :
    Keeps P s (State.tripEnd u) := by
  unfold State.tripEnd
  repeat' (first
    | with_reducible exact h
    | with_reducible assumption
    | dsimp -zeta only
    | with_reducible refine keeps_tripState (hP.sub rfl) ?_
    | with_reducible refine keeps_fput hP rfl ?_
    | intro _
    | with_reducible refine keeps_ite ?_ ?_
    | with_reducible refine keeps_ite_fst ?_ ?_
    | with_reducible refine keeps_pair (by assumption) ?_
    | split
    | fail_if_no_progress extract_lets
    | dsimp +zetaDelta only)

theorem keeps_trip {P : Nat} {s u : State} (hP : Fits 0xffffffc00000007fffffffffffffffffffffffffffffffffffffffffffffffffffffffffffffffffff P) (h : Keeps P s u) :
    Keeps P s (State.trip u) := by
  unfold State.trip
  repeat' (first
    | with_reducible exact h
    | with_reducible assumption
    | dsimp -zeta only
    | with_reducible refine keeps_logWrite (hP.sub rfl) ?_
    | with_reducible refine keeps_newAlert (hP.sub rfl) ?_
    | with_reducible refine keeps_tripEnd (hP.sub rfl) ?_
    | intro _
    | with_reducible refine keeps_ite ?_ ?_
    | with_reducible refine keeps_ite_fst ?_ ?_
    | with_reducible refine keeps_pair (by assumption) ?_
    | split
    | fail_if_no_progress extract_lets
    | dsimp +zetaDelta only)

theorem keeps_noteReading {P : Nat} {s u : State} {a1} (hP : Fits 0x8000000000000004000000000000000000000000000000000000000000000000000000000000000000 P) (h : Keeps P s u) :
    Keeps P s (State.noteReading u a1) := by
  unfold State.noteReading
  repeat' (first
    | with_reducible exact h
    | with_reducible assumption
    | dsimp -zeta only
    | with_reducible refine keeps_fput hP rfl ?_
    | intro _
    | with_reducible refine keeps_ite ?_ ?_
    | with_reducible refine keeps_ite_fst ?_ ?_
    | with_reducible refine keeps_pair (by assumption) ?_
    | split
    | fail_if_no_progress extract_lets
    | fail_if_no_progress with_reducible refine keeps_bnc hP rfl ?_
    | dsimp +zetaDelta only)

theorem keeps_limitCheck {P : Nat} {s u : State} {a1} (hP : Fits 0x8000008000000010000000000000000000000000000000000000000000000000000000000000000000 P) (h : Keeps P s u) :
    Keeps P s (State.limitCheck u a1) := by
  unfold State.limitCheck
  repeat' (first
    | with_reducible exact h
    | with_reducible assumption
    | dsimp -zeta only
    | with_reducible refine keeps_thermalIrq (hP.sub rfl) ?_
    | with_reducible refine keeps_newAlert (hP.sub rfl) ?_
    | with_reducible refine keeps_fput hP rfl ?_
    | intro _
    | with_reducible refine keeps_ite ?_ ?_
    | with_reducible refine keeps_ite_fst ?_ ?_
    | with_reducible refine keeps_pair (by assumption) ?_
    | split
    | fail_if_no_progress extract_lets
    | dsimp +zetaDelta only)

theorem keeps_doThermalSample {P : Nat} {s u : State} {a1} (hP : Fits 0xffffffd00000007fffffffffffffffffffffffffffffffffffffffffffffffffffffffffffffffffff P) (h : Keeps P s u) :
    Keeps P s (State.doThermalSample u a1) := by
  unfold State.doThermalSample
  repeat' (first
    | with_reducible exact h
    | with_reducible assumption
    | dsimp -zeta only
    | with_reducible refine keeps_noteReading (hP.sub rfl) ?_
    | with_reducible refine keeps_thermalStep (hP.sub rfl) ?_
    | with_reducible refine keeps_limitCheck (hP.sub rfl) ?_
    | with_reducible refine keeps_advance (hP.sub rfl) ?_
    | with_reducible refine keeps_trip (hP.sub rfl) ?_
    | intro _
    | with_reducible refine keeps_ite ?_ ?_
    | with_reducible refine keeps_ite_fst ?_ ?_
    | with_reducible refine keeps_pair (by assumption) ?_
    | split
    | fail_if_no_progress extract_lets
    | dsimp +zetaDelta only)

theorem keeps_doThermalTrip {P : Nat} {s u : State} (hP : Fits 0xffffffc00000007fffffffffffffffffffffffffffffffffffffffffffffffffffffffffffffffffff P) (h : Keeps P s u) :
    Keeps P s (State.doThermalTrip u) := by
  unfold State.doThermalTrip
  repeat' (first
    | with_reducible exact h
    | with_reducible assumption
    | dsimp -zeta only
    | with_reducible refine keeps_trip (hP.sub rfl) ?_
    | intro _
    | with_reducible refine keeps_ite ?_ ?_
    | with_reducible refine keeps_ite_fst ?_ ?_
    | with_reducible refine keeps_pair (by assumption) ?_
    | split
    | fail_if_no_progress extract_lets
    | dsimp +zetaDelta only)

theorem keeps_bodyThermalSet {P : Nat} {s u : State} {k} (hP : Fits 0x8000000000000000000000000000000000000000000000000000000000000000000 P) (h : Keeps P s u) :
    Keeps P s (bodyThermalSet k u).1 := by
  unfold bodyThermalSet
  beta_reduce
  repeat' (first
    | with_reducible exact h
    | with_reducible assumption
    | dsimp -zeta only
    | with_reducible refine keeps_fail (hP.sub rfl) ?_
    | with_reducible refine keeps_fail_eq (by assumption) (hP.sub rfl) ?_
    | with_reducible refine keeps_ok (hP.sub rfl) ?_
    | with_reducible refine keeps_ok_eq (by assumption) (hP.sub rfl) ?_
    | with_reducible refine keeps_fput hP rfl ?_
    | intro _
    | with_reducible refine keeps_ite ?_ ?_
    | with_reducible refine keeps_ite_fst ?_ ?_
    | with_reducible refine keeps_pair (by assumption) ?_
    | split
    | fail_if_no_progress extract_lets
    | dsimp +zetaDelta only)

theorem keeps_bodyThermalSet_eq {P : Nat} {s u v : State} {k} {x} (he : bodyThermalSet k u = (v, x)) (hP : Fits 0x8000000000000000000000000000000000000000000000000000000000000000000 P)
    (h : Keeps P s u) : Keeps P s v := by
  have h1 := keeps_bodyThermalSet (k := k) hP h
  rw [he] at h1
  exact h1

theorem keeps_doThmCfgWrite {P : Nat} {s u : State} {a1} (hP : Fits 0x18000000000000000000000000000000000000000000000000000000000000000000 P) (h : Keeps P s u) :
    Keeps P s (State.doThmCfgWrite u a1) := by
  unfold State.doThmCfgWrite
  repeat' (first
    | with_reducible exact h
    | with_reducible assumption
    | dsimp -zeta only
    | with_reducible refine keeps_wr hP rfl ?_
    | with_reducible refine keeps_fput hP rfl ?_
    | intro _
    | with_reducible refine keeps_ite ?_ ?_
    | with_reducible refine keeps_ite_fst ?_ ?_
    | with_reducible refine keeps_pair (by assumption) ?_
    | split
    | fail_if_no_progress extract_lets
    | dsimp +zetaDelta only)

theorem keeps_smbAnswer {P : Nat} {s u : State} {a1} (hP : Fits 0x8000000000000000000000000000000000000000000000000000000000000000000000000000000000 P) (h : Keeps P s u) :
    Keeps P s (State.smbAnswer u a1) := by
  unfold State.smbAnswer
  repeat' (first
    | with_reducible exact h
    | with_reducible assumption
    | dsimp -zeta only
    | intro _
    | with_reducible refine keeps_ite ?_ ?_
    | with_reducible refine keeps_ite_fst ?_ ?_
    | with_reducible refine keeps_pair (by assumption) ?_
    | split
    | fail_if_no_progress extract_lets
    | fail_if_no_progress with_reducible refine keeps_bnc hP rfl ?_
    | dsimp +zetaDelta only)

theorem keeps_doSmbTemp {P : Nat} {s u : State} (hP : Fits 0x8000000000000000000000000000000000000000000000000000000000000000000000000000000000 P) (h : Keeps P s u) :
    Keeps P s (State.doSmbTemp u) := by
  unfold State.doSmbTemp
  repeat' (first
    | with_reducible exact h
    | with_reducible assumption
    | dsimp -zeta only
    | with_reducible refine keeps_smbAnswer (hP.sub rfl) ?_
    | intro _
    | with_reducible refine keeps_ite ?_ ?_
    | with_reducible refine keeps_ite_fst ?_ ?_
    | with_reducible refine keeps_pair (by assumption) ?_
    | split
    | fail_if_no_progress extract_lets
    | dsimp +zetaDelta only)

theorem keeps_doSmbState {P : Nat} {s u : State} (hP : Fits 0x8000000000000000000000000000000000000000000000000000000000000000000000000000000000 P) (h : Keeps P s u) :
    Keeps P s (State.doSmbState u) := by
  unfold State.doSmbState
  repeat' (first
    | with_reducible exact h
    | with_reducible assumption
    | dsimp -zeta only
    | with_reducible refine keeps_smbAnswer (hP.sub rfl) ?_
    | intro _
    | with_reducible refine keeps_ite ?_ ?_
    | with_reducible refine keeps_ite_fst ?_ ?_
    | with_reducible refine keeps_pair (by assumption) ?_
    | split
    | fail_if_no_progress extract_lets
    | dsimp +zetaDelta only)

theorem keeps_doSmbStatus {P : Nat} {s u : State} (hP : Fits 0x8000000000000000000000000000000000000000000000000000000000000000000000000000000000 P) (h : Keeps P s u) :
    Keeps P s (State.doSmbStatus u) := by
  unfold State.doSmbStatus
  repeat' (first
    | with_reducible exact h
    | with_reducible assumption
    | dsimp -zeta only
    | with_reducible refine keeps_smbAnswer (hP.sub rfl) ?_
    | intro _
    | with_reducible refine keeps_ite ?_ ?_
    | with_reducible refine keeps_ite_fst ?_ ?_
    | with_reducible refine keeps_pair (by assumption) ?_
    | split
    | fail_if_no_progress extract_lets
    | dsimp +zetaDelta only)

theorem keeps_doSmbPower {P : Nat} {s u : State} (hP : Fits 0x8000000000000000000000000000000000000000000000000000000000000000000000000000000000 P) (h : Keeps P s u) :
    Keeps P s (State.doSmbPower u) := by
  unfold State.doSmbPower
  repeat' (first
    | with_reducible exact h
    | with_reducible assumption
    | dsimp -zeta only
    | with_reducible refine keeps_smbAnswer (hP.sub rfl) ?_
    | intro _
    | with_reducible refine keeps_ite ?_ ?_
    | with_reducible refine keeps_ite_fst ?_ ?_
    | with_reducible refine keeps_pair (by assumption) ?_
    | split
    | fail_if_no_progress extract_lets
    | dsimp +zetaDelta only)

theorem keeps_doSmbAlertResponse {P : Nat} {s u : State} (hP : Fits 0x8000000000000000000000000000000000000000000000000000000000000000000000000000000000 P) (h : Keeps P s u) :
    Keeps P s (State.doSmbAlertResponse u) := by
  unfold State.doSmbAlertResponse
  repeat' (first
    | with_reducible exact h
    | with_reducible assumption
    | dsimp -zeta only
    | with_reducible refine keeps_smbAnswer (hP.sub rfl) ?_
    | intro _
    | with_reducible refine keeps_ite ?_ ?_
    | with_reducible refine keeps_ite_fst ?_ ?_
    | with_reducible refine keeps_pair (by assumption) ?_
    | split
    | fail_if_no_progress extract_lets
    | fail_if_no_progress with_reducible refine keeps_bnc hP rfl ?_
    | dsimp +zetaDelta only)

theorem keeps_execPowerDomain {P : Nat} {u t : State} {a0} (he : execPowerDomain a0 u = .next t) (hP : Fits 0xbdfdfdb000000000f012000210d2068003f00a1002140a140001b000400000006cff43c1d801000000 P) : Keeps P u t := by
  unfold execPowerDomain at he
  injection he with he
  subst he
  repeat' (first
    | with_reducible exact Keeps.refl P u
    | with_reducible assumption
    | dsimp -zeta only
    | with_reducible refine keeps_runCommand (hP.sub rfl) ?_ ?_
    | with_reducible refine keeps_bodyPowerDomain (hP.sub rfl) ?_
    | with_reducible refine keeps_bodyPowerDomain_eq (by assumption) (hP.sub rfl) ?_
    | intro _
    | with_reducible refine keeps_ite ?_ ?_
    | with_reducible refine keeps_ite_fst ?_ ?_
    | with_reducible refine keeps_pair (by assumption) ?_
    | split
    | fail_if_no_progress extract_lets
    | dsimp +zetaDelta only)

theorem keeps_execThermalSet {P : Nat} {u t : State} {a0} (he : execThermalSet a0 u = .next t) (hP : Fits 0x2000e02000000008000000000000000003f00000000000000000000000000000000000000000000000 P) : Keeps P u t := by
  unfold execThermalSet at he
  injection he with he
  subst he
  repeat' (first
    | with_reducible exact Keeps.refl P u
    | with_reducible assumption
    | dsimp -zeta only
    | with_reducible refine keeps_runCommand (hP.sub rfl) ?_ ?_
    | with_reducible refine keeps_bodyThermalSet (hP.sub rfl) ?_
    | with_reducible refine keeps_bodyThermalSet_eq (by assumption) (hP.sub rfl) ?_
    | intro _
    | with_reducible refine keeps_ite ?_ ?_
    | with_reducible refine keeps_ite_fst ?_ ?_
    | with_reducible refine keeps_pair (by assumption) ?_
    | split
    | fail_if_no_progress extract_lets
    | dsimp +zetaDelta only)

theorem keeps_execPendingPowerDown {P : Nat} {u t : State} {a0} (he : execPendingPowerDown a0 u = .next t) (hP : Fits 0xbdfdfdb000000002f012000210d2068002000a1002140a140001b000400000006cff43c1d801000000 P) : Keeps P u t := by
  unfold execPendingPowerDown at he
  injection he with he
  subst he
  repeat' (first
    | with_reducible exact Keeps.refl P u
    | with_reducible assumption
    | dsimp -zeta only
    | with_reducible refine keeps_doPendingPowerDown (hP.sub rfl) ?_
    | intro _
    | with_reducible refine keeps_ite ?_ ?_
    | with_reducible refine keeps_ite_fst ?_ ?_
    | with_reducible refine keeps_pair (by assumption) ?_
    | split
    | fail_if_no_progress extract_lets
    | dsimp +zetaDelta only)

theorem keeps_execPowerUpDone {P : Nat} {u t : State} {a0} (he : execPowerUpDone a0 u = .next t) (hP : Fits 0xbe0de03000000002f07f01ff00000000020000000000000ffffe000ffc007fc1fffffffffe07fe0000 P) : Keeps P u t := by
  unfold execPowerUpDone at he
  injection he with he
  subst he
  repeat' (first
    | with_reducible exact Keeps.refl P u
    | with_reducible assumption
    | dsimp -zeta only
    | with_reducible refine keeps_doPowerUpDone (hP.sub rfl) ?_
    | intro _
    | with_reducible refine keeps_ite ?_ ?_
    | with_reducible refine keeps_ite_fst ?_ ?_
    | with_reducible refine keeps_pair (by assumption) ?_
    | split
    | fail_if_no_progress extract_lets
    | dsimp +zetaDelta only)

theorem keeps_execPowerGood {P : Nat} {u t : State} {a0} (he : execPowerGood a0 u = .next t) (hP : Fits 0x8000022000000000428040000000000000000000000200100000000000000000000000000000000000 P) : Keeps P u t := by
  unfold execPowerGood at he
  injection he with he
  subst he
  repeat' (first
    | with_reducible exact Keeps.refl P u
    | with_reducible assumption
    | dsimp -zeta only
    | with_reducible refine keeps_doPowerGood (hP.sub rfl) ?_
    | intro _
    | with_reducible refine keeps_ite ?_ ?_
    | with_reducible refine keeps_ite_fst ?_ ?_
    | with_reducible refine keeps_pair (by assumption) ?_
    | split
    | fail_if_no_progress extract_lets
    | dsimp +zetaDelta only)

theorem keeps_execBootComplete {P : Nat} {u t : State} {a0 a1 a2 a3 a4} (he : execBootComplete a0 a1 a2 a3 a4 u = .next t) (hP : Fits 0x8066d9a0000000007180040000120e800000000600160230000000000000000000000e000000000000 P) : Keeps P u t := by
  unfold execBootComplete at he
  injection he with he
  subst he
  repeat' (first
    | with_reducible exact Keeps.refl P u
    | with_reducible assumption
    | dsimp -zeta only
    | with_reducible refine keeps_doBootComplete (hP.sub rfl) ?_
    | intro _
    | with_reducible refine keeps_ite ?_ ?_
    | with_reducible refine keeps_ite_fst ?_ ?_
    | with_reducible refine keeps_pair (by assumption) ?_
    | split
    | fail_if_no_progress extract_lets
    | dsimp +zetaDelta only)

theorem keeps_execColdReset {P : Nat} {u t : State} {a0} (he : execColdReset a0 u = .next t) (hP : Fits 0xffffffc00000007fffffffffffffffffffffffffffffffffffffffffffffffffffffffffffffffffff P) : Keeps P u t := by
  unfold execColdReset at he
  injection he with he
  subst he
  repeat' (first
    | with_reducible exact Keeps.refl P u
    | with_reducible assumption
    | dsimp -zeta only
    | with_reducible refine keeps_doColdReset (hP.sub rfl) ?_
    | intro _
    | with_reducible refine keeps_ite ?_ ?_
    | with_reducible refine keeps_ite_fst ?_ ?_
    | with_reducible refine keeps_pair (by assumption) ?_
    | split
    | fail_if_no_progress extract_lets
    | dsimp +zetaDelta only)

theorem keeps_execWarmReset {P : Nat} {u t : State} (he : execWarmReset u = .next t) (hP : Fits 0xfffffff00000007fffffffffffffffffffffffffffffffffffffffffffffffffffffffffffffffffff P) : Keeps P u t := by
  unfold execWarmReset at he
  injection he with he
  subst he
  repeat' (first
    | with_reducible exact Keeps.refl P u
    | with_reducible assumption
    | dsimp -zeta only
    | with_reducible refine keeps_doWarmReset (hP.sub rfl) ?_
    | intro _
    | with_reducible refine keeps_ite ?_ ?_
    | with_reducible refine keeps_ite_fst ?_ ?_
    | with_reducible refine keeps_pair (by assumption) ?_
    | split
    | fail_if_no_progress extract_lets
    | dsimp +zetaDelta only)

theorem keeps_execPerstDeassert {P : Nat} {u t : State} (he : execPerstDeassert u = .next t) (hP : Fits 0x81a000000000000044000000080000000000000000000000000000000000000000000000000000 P) : Keeps P u t := by
  unfold execPerstDeassert at he
  injection he with he
  subst he
  repeat' (first
    | with_reducible exact Keeps.refl P u
    | with_reducible assumption
    | dsimp -zeta only
    | with_reducible refine keeps_doPerstDeassert (hP.sub rfl) ?_
    | intro _
    | with_reducible refine keeps_ite ?_ ?_
    | with_reducible refine keeps_ite_fst ?_ ?_
    | with_reducible refine keeps_pair (by assumption) ?_
    | split
    | fail_if_no_progress extract_lets
    | dsimp +zetaDelta only)

theorem keeps_execThermalSample {P : Nat} {u t : State} {a0} (he : execThermalSample a0 u = .next t) (hP : Fits 0xffffffd00000007fffffffffffffffffffffffffffffffffffffffffffffffffffffffffffffffffff P) : Keeps P u t := by
  unfold execThermalSample at he
  injection he with he
  subst he
  repeat' (first
    | with_reducible exact Keeps.refl P u
    | with_reducible assumption
    | dsimp -zeta only
    | with_reducible refine keeps_doThermalSample (hP.sub rfl) ?_
    | intro _
    | with_reducible refine keeps_ite ?_ ?_
    | with_reducible refine keeps_ite_fst ?_ ?_
    | with_reducible refine keeps_pair (by assumption) ?_
    | split
    | fail_if_no_progress extract_lets
    | dsimp +zetaDelta only)

theorem keeps_execThermalTrip {P : Nat} {u t : State} (he : execThermalTrip u = .next t) (hP : Fits 0xffffffc00000007fffffffffffffffffffffffffffffffffffffffffffffffffffffffffffffffffff P) : Keeps P u t := by
  unfold execThermalTrip at he
  injection he with he
  subst he
  repeat' (first
    | with_reducible exact Keeps.refl P u
    | with_reducible assumption
    | dsimp -zeta only
    | with_reducible refine keeps_doThermalTrip (hP.sub rfl) ?_
    | intro _
    | with_reducible refine keeps_ite ?_ ?_
    | with_reducible refine keeps_ite_fst ?_ ?_
    | with_reducible refine keeps_pair (by assumption) ?_
    | split
    | fail_if_no_progress extract_lets
    | dsimp +zetaDelta only)

theorem keeps_execSmbThmTemp {P : Nat} {u t : State} (he : execSmbThmTemp u = .next t) (hP : Fits 0x8000000000000000000000000000000000000000000000000000000000000000000000000000000000 P) : Keeps P u t := by
  unfold execSmbThmTemp at he
  injection he with he
  subst he
  repeat' (first
    | with_reducible exact Keeps.refl P u
    | with_reducible assumption
    | dsimp -zeta only
    | with_reducible refine keeps_doSmbTemp (hP.sub rfl) ?_
    | intro _
    | with_reducible refine keeps_ite ?_ ?_
    | with_reducible refine keeps_ite_fst ?_ ?_
    | with_reducible refine keeps_pair (by assumption) ?_
    | split
    | fail_if_no_progress extract_lets
    | dsimp +zetaDelta only)

theorem keeps_execSmbThmState {P : Nat} {u t : State} (he : execSmbThmState u = .next t) (hP : Fits 0x8000000000000000000000000000000000000000000000000000000000000000000000000000000000 P) : Keeps P u t := by
  unfold execSmbThmState at he
  injection he with he
  subst he
  repeat' (first
    | with_reducible exact Keeps.refl P u
    | with_reducible assumption
    | dsimp -zeta only
    | with_reducible refine keeps_doSmbState (hP.sub rfl) ?_
    | intro _
    | with_reducible refine keeps_ite ?_ ?_
    | with_reducible refine keeps_ite_fst ?_ ?_
    | with_reducible refine keeps_pair (by assumption) ?_
    | split
    | fail_if_no_progress extract_lets
    | dsimp +zetaDelta only)

theorem keeps_execSmbBncStatus {P : Nat} {u t : State} (he : execSmbBncStatus u = .next t) (hP : Fits 0x8000000000000000000000000000000000000000000000000000000000000000000000000000000000 P) : Keeps P u t := by
  unfold execSmbBncStatus at he
  injection he with he
  subst he
  repeat' (first
    | with_reducible exact Keeps.refl P u
    | with_reducible assumption
    | dsimp -zeta only
    | with_reducible refine keeps_doSmbStatus (hP.sub rfl) ?_
    | intro _
    | with_reducible refine keeps_ite ?_ ?_
    | with_reducible refine keeps_ite_fst ?_ ?_
    | with_reducible refine keeps_pair (by assumption) ?_
    | split
    | fail_if_no_progress extract_lets
    | dsimp +zetaDelta only)

theorem keeps_execSmbPwrOn {P : Nat} {u t : State} (he : execSmbPwrOn u = .next t) (hP : Fits 0x8000000000000000000000000000000000000000000000000000000000000000000000000000000000 P) : Keeps P u t := by
  unfold execSmbPwrOn at he
  injection he with he
  subst he
  repeat' (first
    | with_reducible exact Keeps.refl P u
    | with_reducible assumption
    | dsimp -zeta only
    | with_reducible refine keeps_doSmbPower (hP.sub rfl) ?_
    | intro _
    | with_reducible refine keeps_ite ?_ ?_
    | with_reducible refine keeps_ite_fst ?_ ?_
    | with_reducible refine keeps_pair (by assumption) ?_
    | split
    | fail_if_no_progress extract_lets
    | dsimp +zetaDelta only)

theorem keeps_execSmbAlertResponse {P : Nat} {u t : State} (he : execSmbAlertResponse u = .next t) (hP : Fits 0x8000000000000000000000000000000000000000000000000000000000000000000000000000000000 P) : Keeps P u t := by
  unfold execSmbAlertResponse at he
  injection he with he
  subst he
  repeat' (first
    | with_reducible exact Keeps.refl P u
    | with_reducible assumption
    | dsimp -zeta only
    | with_reducible refine keeps_doSmbAlertResponse (hP.sub rfl) ?_
    | intro _
    | with_reducible refine keeps_ite ?_ ?_
    | with_reducible refine keeps_ite_fst ?_ ?_
    | with_reducible refine keeps_pair (by assumption) ?_
    | split
    | fail_if_no_progress extract_lets
    | dsimp +zetaDelta only)

end Sys2Proof.Machine
end

