-- ==== Sys2Proof/Laws/KeepsNetwork.lean ====
section
/-! SUPPORT. What each operation of Machine/Network.lean may change, and that it keeps the invariant: one law for each. -/

set_option linter.unreachableTactic false
set_option linter.unusedTactic false

namespace Sys2Proof.Machine

theorem keeps_doEthLinkChange {P : Nat} {s u : State} {a1} (hP : Fits 0x200000000000000000000000000000000000000000000000000000000000000 P) (h : Keeps P s u) :
    Keeps P s (State.doEthLinkChange u a1) := by
  unfold State.doEthLinkChange
  repeat' (first
    | with_reducible exact h
    | with_reducible assumption
    | dsimp -zeta only
    | with_reducible refine keeps_fput hP rfl ?_
    | intro _
    | with_reducible refine keeps_ite ?_ ?_
    | with_reducible refine keeps_ite_fst ?_ ?_
    | with_reducible refine keeps_pair (by assumption) ?_
    | split
    | fail_if_no_progress extract_lets
    | dsimp +zetaDelta only)

theorem keeps_ptpServo {P : Nat} {s u : State} {a1} (hP : Fits 0x1022000000000001000000000000000000000000000000000000000000000000000000900000000 P) (h : Keeps P s u) :
    Keeps P s (State.ptpServo u a1) := by
  unfold State.ptpServo
  repeat' (first
    | with_reducible exact h
    | with_reducible assumption
    | dsimp -zeta only
    | with_reducible refine keeps_merStep (hP.sub rfl) ?_
    | with_reducible refine keeps_steer7 (hP.sub rfl) ?_
    | with_reducible refine keeps_fput hP rfl ?_
    | intro _
    | with_reducible refine keeps_ite ?_ ?_
    | with_reducible refine keeps_ite_fst ?_ ?_
    | with_reducible refine keeps_pair (by assumption) ?_
    | split
    | fail_if_no_progress extract_lets
    | dsimp +zetaDelta only)

theorem keeps_ptpStamp {P : Nat} {s u : State} {a1 a2} (hP : Fits 0x4000000000000000000000000000000000000000000000000000000000000000000000000000000000 P) (h : Keeps P s u) :
    Keeps P s (State.ptpStamp u a1 a2) := by
  unfold State.ptpStamp
  repeat' (first
    | with_reducible exact h
    | with_reducible assumption
    | dsimp -zeta only
    | intro _
    | with_reducible refine keeps_ite ?_ ?_
    | with_reducible refine keeps_ite_fst ?_ ?_
    | with_reducible refine keeps_pair (by assumption) ?_
    | split
    | fail_if_no_progress extract_lets
    | fail_if_no_progress with_reducible refine keeps_eth hP rfl ?_
    | dsimp +zetaDelta only)

theorem keeps_doPtpMessage {P : Nat} {s u : State} {a1 a2 a3 a4} (hP : Fits 0x4001023000000000001000000000000000000000000000000000000000000000000000000900000000 P) (h : Keeps P s u) :
    Keeps P s (State.doPtpMessage u a1 a2 a3 a4) := by
  unfold State.doPtpMessage
  repeat' (first
    | with_reducible exact h
    | with_reducible assumption
    | dsimp -zeta only
    | with_reducible refine keeps_ptpServo (hP.sub rfl) ?_
    | with_reducible refine keeps_ptpStamp (hP.sub rfl) ?_
    | with_reducible refine keeps_advance (hP.sub rfl) ?_
    | intro _
    | with_reducible refine keeps_ite ?_ ?_
    | with_reducible refine keeps_ite_fst ?_ ?_
    | with_reducible refine keeps_pair (by assumption) ?_
    | split
    | fail_if_no_progress extract_lets
    | dsimp +zetaDelta only)

theorem keeps_doSyncTimeout {P : Nat} {s u : State} (hP : Fits 0x1000000000001000000000000000000000000000000000000000000000000000000000000000 P) (h : Keeps P s u) :
    Keeps P s (State.doSyncTimeout u) := by
  unfold State.doSyncTimeout
  repeat' (first
    | with_reducible exact h
    | with_reducible assumption
    | dsimp -zeta only
    | with_reducible refine keeps_advance (hP.sub rfl) ?_
    | with_reducible refine keeps_fput hP rfl ?_
    | intro _
    | with_reducible refine keeps_ite ?_ ?_
    | with_reducible refine keeps_ite_fst ?_ ?_
    | with_reducible refine keeps_pair (by assumption) ?_
    | split
    | fail_if_no_progress extract_lets
    | dsimp +zetaDelta only)

theorem keeps_ethCpl {P : Nat} {s u : State} {a1 a2 a3} (hP : Fits 0x188000000000000000000012068000000000000000000000000000000000000000000000000000 P) (h : Keeps P s u) :
    Keeps P s (State.ethCpl u a1 a2 a3) := by
  unfold State.ethCpl
  repeat' (first
    | with_reducible exact h
    | with_reducible assumption
    | dsimp -zeta only
    | with_reducible refine keeps_reportCtl (hP.sub rfl) ?_
    | intro _
    | with_reducible refine keeps_ite ?_ ?_
    | with_reducible refine keeps_ite_fst ?_ ?_
    | with_reducible refine keeps_pair (by assumption) ?_
    | split
    | fail_if_no_progress extract_lets
    | dsimp +zetaDelta only)

theorem keeps_ethSend {P : Nat} {s u : State} {a1} (hP : Fits 0x4000188000000000000000000012068000000000000000000000000000000000000000000000000000 P) (h : Keeps P s u) :
    Keeps P s (State.ethSend u a1) := by
  unfold State.ethSend
  repeat' (first
    | with_reducible exact h
    | with_reducible assumption
    | dsimp -zeta only
    | with_reducible refine keeps_ethCpl (hP.sub rfl) ?_
    | intro _
    | with_reducible refine keeps_ite ?_ ?_
    | with_reducible refine keeps_ite_fst ?_ ?_
    | with_reducible refine keeps_pair (by assumption) ?_
    | split
    | fail_if_no_progress extract_lets
    | fail_if_no_progress with_reducible refine keeps_eth hP rfl ?_
    | dsimp +zetaDelta only)

theorem keeps_doEthTxElement {P : Nat} {s u : State} (hP : Fits 0xe1e059b000000000300000000016068000000a1002140a100000000000000000000000000000000000 P) (h : Keeps P s u) :
    Keeps P s (State.doEthTxElement u) := by
  unfold State.doEthTxElement
  repeat' (first
    | with_reducible exact h
    | with_reducible assumption
    | dsimp -zeta only
    | with_reducible refine keeps_raiseFault (hP.sub rfl) ?_
    | with_reducible refine keeps_raiseFault_eq (by assumption) (hP.sub rfl) ?_
    | with_reducible refine keeps_dvaRead (hP.sub rfl) ?_
    | with_reducible refine keeps_dvaRead_eq (by assumption) (hP.sub rfl) ?_
    | with_reducible refine keeps_ethSend (hP.sub rfl) ?_
    | with_reducible refine keeps_ethCpl (hP.sub rfl) ?_
    | with_reducible refine keeps_qTake_eq (by assumption) (hP.sub rfl) ?_
    | intro _
    | with_reducible refine keeps_ite ?_ ?_
    | with_reducible refine keeps_ite_fst ?_ ?_
    | with_reducible refine keeps_pair (by assumption) ?_
    | split
    | fail_if_no_progress extract_lets
    | fail_if_no_progress with_reducible refine keeps_eth hP rfl ?_
    | dsimp +zetaDelta only)

theorem keeps_doEthLaunch {P : Nat} {s u : State} (hP : Fits 0x400018b000000000000000000012068000000000000000000000000000000000000000000000000000 P) (h : Keeps P s u) :
    Keeps P s (State.doEthLaunch u) := by
  unfold State.doEthLaunch
  repeat' (first
    | with_reducible exact h
    | with_reducible assumption
    | dsimp -zeta only
    | with_reducible refine keeps_advance (hP.sub rfl) ?_
    | with_reducible refine keeps_ethSend (hP.sub rfl) ?_
    | with_reducible refine keeps_ethCpl (hP.sub rfl) ?_
    | with_reducible refine keeps_fresh (hP.sub rfl) ?_
    | with_reducible refine keeps_fresh_eq (by assumption) (hP.sub rfl) ?_
    | intro _
    | with_reducible refine keeps_ite ?_ ?_
    | with_reducible refine keeps_ite_fst ?_ ?_
    | with_reducible refine keeps_pair (by assumption) ?_
    | split
    | fail_if_no_progress extract_lets
    | fail_if_no_progress with_reducible refine keeps_eth hP rfl ?_
    | dsimp +zetaDelta only)

theorem keeps_doTelemetryTimer {P : Nat} {s u : State} (hP : Fits 0x4000801000000000000000000000000000020000000000000000000000000000000000000000000000 P) (h : Keeps P s u) :
    Keeps P s (State.doTelemetryTimer u) := by
  unfold State.doTelemetryTimer
  repeat' (first
    | with_reducible exact h
    | with_reducible assumption
    | dsimp -zeta only
    | with_reducible refine keeps_fixInstant (hP.sub rfl) ?_
    | with_reducible refine keeps_advance (hP.sub rfl) ?_
    | intro _
    | with_reducible refine keeps_ite ?_ ?_
    | with_reducible refine keeps_ite_fst ?_ ?_
    | with_reducible refine keeps_pair (by assumption) ?_
    | split
    | fail_if_no_progress extract_lets
    | fail_if_no_progress with_reducible refine keeps_eth hP rfl ?_
    | dsimp +zetaDelta only)

theorem keeps_doFixRequestDatagram {P : Nat} {s u : State} {a1 a2 a3} (hP : Fits 0x800000000000000000000000000000020000000000000000000000000000000000000000000000 P) (h : Keeps P s u) :
    Keeps P s (State.doFixRequestDatagram u a1 a2 a3) := by
  unfold State.doFixRequestDatagram
  repeat' (first
    | with_reducible exact h
    | with_reducible assumption
    | dsimp -zeta only
    | with_reducible refine keeps_latchFix (hP.sub rfl) ?_
    | intro _
    | with_reducible refine keeps_ite ?_ ?_
    | with_reducible refine keeps_ite_fst ?_ ?_
    | with_reducible refine keeps_pair (by assumption) ?_
    | split
    | fail_if_no_progress extract_lets
    | dsimp +zetaDelta only)

theorem keeps_unmask {P : Nat} {s u : State} {a1 a2} (hP : Fits 0x8000000000000000000000000000000000000000000000000000000000000000000000000000 P) (h : Keeps P s u) :
    Keeps P s (State.unmask u a1 a2) := by
  unfold State.unmask
  repeat' (first
    | with_reducible exact h
    | with_reducible assumption
    | dsimp -zeta only
    | intro _
    | with_reducible refine keeps_ite ?_ ?_
    | with_reducible refine keeps_ite_fst ?_ ?_
    | with_reducible refine keeps_pair (by assumption) ?_
    | split
    | fail_if_no_progress extract_lets
    | fail_if_no_progress with_reducible refine keeps_hostPort hP rfl ?_ rfl rfl rfl rfl rfl
    | fail_if_no_progress with_reducible refine keeps_msix hP rfl ?_ rfl rfl rfl rfl rfl rfl rfl rfl rfl rfl
    | dsimp +zetaDelta only)

theorem keeps_doMsixUnmask {P : Nat} {s u : State} {a1 a2} (hP : Fits 0x8000000000000000000000000000000000000000000000000000000000000000000000000000 P) (h : Keeps P s u) :
    Keeps P s (State.doMsixUnmask u a1 a2) := by
  unfold State.doMsixUnmask
  repeat' (first
    | with_reducible exact h
    | with_reducible assumption
    | dsimp -zeta only
    | with_reducible refine keeps_msixSend (hP.sub rfl) ?_
    | with_reducible refine keeps_unmask (hP.sub rfl) ?_
    | with_reducible refine keeps_foldl ?_ ?_
    | with_reducible refine keeps_foldl_fst ?_ ?_
    | intro _
    | with_reducible refine keeps_ite ?_ ?_
    | with_reducible refine keeps_ite_fst ?_ ?_
    | with_reducible refine keeps_pair (by assumption) ?_
    | split
    | fail_if_no_progress extract_lets
    | dsimp +zetaDelta only)

theorem keeps_execPtpMessage {P : Nat} {u t : State} {a0 a1 a2 a3} (he : execPtpMessage a0 a1 a2 a3 u = .next t) (hP : Fits 0x4001023000000000001000000000000000000000000000000000000000000000000000000900000000 P) : Keeps P u t := by
  unfold execPtpMessage at he
  injection he with he
  subst he
  repeat' (first
    | with_reducible exact Keeps.refl P u
    | with_reducible assumption
    | dsimp -zeta only
    | with_reducible refine keeps_doPtpMessage (hP.sub rfl) ?_
    | intro _
    | with_reducible refine keeps_ite ?_ ?_
    | with_reducible refine keeps_ite_fst ?_ ?_
    | with_reducible refine keeps_pair (by assumption) ?_
    | split
    | fail_if_no_progress extract_lets
    | dsimp +zetaDelta only)

theorem keeps_execSyncTimeout {P : Nat} {u t : State} (he : execSyncTimeout u = .next t) (hP : Fits 0x1000000000001000000000000000000000000000000000000000000000000000000000000000 P) : Keeps P u t := by
  unfold execSyncTimeout at he
  injection he with he
  subst he
  repeat' (first
    | with_reducible exact Keeps.refl P u
    | with_reducible assumption
    | dsimp -zeta only
    | with_reducible refine keeps_doSyncTimeout (hP.sub rfl) ?_
    | intro _
    | with_reducible refine keeps_ite ?_ ?_
    | with_reducible refine keeps_ite_fst ?_ ?_
    | with_reducible refine keeps_pair (by assumption) ?_
    | split
    | fail_if_no_progress extract_lets
    | dsimp +zetaDelta only)

theorem keeps_execEthTxElement {P : Nat} {u t : State} (he : execEthTxElement u = .next t) (hP : Fits 0xe1e059b000000000300000000016068000000a1002140a100000000000000000000000000000000000 P) : Keeps P u t := by
  unfold execEthTxElement at he
  injection he with he
  subst he
  repeat' (first
    | with_reducible exact Keeps.refl P u
    | with_reducible assumption
    | dsimp -zeta only
    | with_reducible refine keeps_doEthTxElement (hP.sub rfl) ?_
    | intro _
    | with_reducible refine keeps_ite ?_ ?_
    | with_reducible refine keeps_ite_fst ?_ ?_
    | with_reducible refine keeps_pair (by assumption) ?_
    | split
    | fail_if_no_progress extract_lets
    | dsimp +zetaDelta only)

theorem keeps_execEthLaunch {P : Nat} {u t : State} (he : execEthLaunch u = .next t) (hP : Fits 0x400018b000000000000000000012068000000000000000000000000000000000000000000000000000 P) : Keeps P u t := by
  unfold execEthLaunch at he
  injection he with he
  subst he
  repeat' (first
    | with_reducible exact Keeps.refl P u
    | with_reducible assumption
    | dsimp -zeta only
    | with_reducible refine keeps_doEthLaunch (hP.sub rfl) ?_
    | intro _
    | with_reducible refine keeps_ite ?_ ?_
    | with_reducible refine keeps_ite_fst ?_ ?_
    | with_reducible refine keeps_pair (by assumption) ?_
    | split
    | fail_if_no_progress extract_lets
    | dsimp +zetaDelta only)

theorem keeps_execTelemetryTimer {P : Nat} {u t : State} (he : execTelemetryTimer u = .next t) (hP : Fits 0x4000801000000000000000000000000000020000000000000000000000000000000000000000000000 P) : Keeps P u t := by
  unfold execTelemetryTimer at he
  injection he with he
  subst he
  repeat' (first
    | with_reducible exact Keeps.refl P u
    | with_reducible assumption
    | dsimp -zeta only
    | with_reducible refine keeps_doTelemetryTimer (hP.sub rfl) ?_
    | intro _
    | with_reducible refine keeps_ite ?_ ?_
    | with_reducible refine keeps_ite_fst ?_ ?_
    | with_reducible refine keeps_pair (by assumption) ?_
    | split
    | fail_if_no_progress extract_lets
    | dsimp +zetaDelta only)

theorem keeps_execFixRequestDatagram {P : Nat} {u t : State} {a0 a1 a2} (he : execFixRequestDatagram a0 a1 a2 u = .next t) (hP : Fits 0x800000000000000000000000000000020000000000000000000000000000000000000000000000 P) : Keeps P u t := by
  unfold execFixRequestDatagram at he
  injection he with he
  subst he
  repeat' (first
    | with_reducible exact Keeps.refl P u
    | with_reducible assumption
    | dsimp -zeta only
    | with_reducible refine keeps_doFixRequestDatagram (hP.sub rfl) ?_
    | intro _
    | with_reducible refine keeps_ite ?_ ?_
    | with_reducible refine keeps_ite_fst ?_ ?_
    | with_reducible refine keeps_pair (by assumption) ?_
    | split
    | fail_if_no_progress extract_lets
    | dsimp +zetaDelta only)

theorem keeps_execEthLinkChange {P : Nat} {u t : State} {a0} (he : execEthLinkChange a0 u = .next t) (hP : Fits 0x200000000000000000000000000000000000000000000000000000000000000 P) : Keeps P u t := by
  unfold execEthLinkChange at he
  injection he with he
  subst he
  repeat' (first
    | with_reducible exact Keeps.refl P u
    | with_reducible assumption
    | dsimp -zeta only
    | with_reducible refine keeps_doEthLinkChange (hP.sub rfl) ?_
    | intro _
    | with_reducible refine keeps_ite ?_ ?_
    | with_reducible refine keeps_ite_fst ?_ ?_
    | with_reducible refine keeps_pair (by assumption) ?_
    | split
    | fail_if_no_progress extract_lets
    | dsimp +zetaDelta only)

theorem keeps_execMsixUnmask {P : Nat} {u t : State} {a0 a1} (he : execMsixUnmask a0 a1 u = .next t) (hP : Fits 0x8000000000000000000000000000000000000000000000000000000000000000000000000000 P) : Keeps P u t := by
  unfold execMsixUnmask at he
  injection he with he
  subst he
  repeat' (first
    | with_reducible exact Keeps.refl P u
    | with_reducible assumption
    | dsimp -zeta only
    | with_reducible refine keeps_doMsixUnmask (hP.sub rfl) ?_
    | intro _
    | with_reducible refine keeps_ite ?_ ?_
    | with_reducible refine keeps_ite_fst ?_ ?_
    | with_reducible refine keeps_pair (by assumption) ?_
    | split
    | fail_if_no_progress extract_lets
    | dsimp +zetaDelta only)

end Sys2Proof.Machine
end

