-- ==== Sys2Proof/Laws/KeepsRegisters.lean ====
section
/-! SUPPORT. What each operation of Machine/Registers.lean may change, and that it keeps the invariant: one law for each. -/

set_option linter.unreachableTactic false
set_option linter.unusedTactic false

namespace Sys2Proof.Machine

theorem keeps_wrAny {P : Nat} {s u : State} {id : RegId} {i j : Nat} {v : Word} (hP : Fits 0x7fffffffffffffffffffffffffffffffffffffffffffffffffffffffffffffffffff P) (h : Keeps P s u) :
    Keeps P s (u.wr id i j v) :=
  keeps_wr (Fits.refl P) (hP.bit (by cases id <;> rfl)) h

theorem keeps_storeWrite {P : Nat} {s u : State} {a1} (hP : Fits 0x7fffffffffffffffffffffffffffffffffffffffffffffffffffffffffffffffffff P) (h : Keeps P s u) :
    Keeps P s (State.storeWrite u a1) := by
  unfold State.storeWrite
  repeat' (first
    | with_reducible exact h
    | with_reducible assumption
    | dsimp -zeta only
    | with_reducible refine keeps_wr hP rfl ?_
    | with_reducible refine keeps_wrAny (hP.sub rfl) ?_
    | intro _
    | with_reducible refine keeps_ite ?_ ?_
    | with_reducible refine keeps_ite_fst ?_ ?_
    | with_reducible refine keeps_pair (by assumption) ?_
    | split
    | fail_if_no_progress extract_lets
    | dsimp +zetaDelta only)

theorem keeps_levelWrite {P : Nat} {s u : State} {a1} (hP : Fits 0x7fffffffffffffffffffffffffffffffffffffffffffffffffffffffffffffffffff P) (h : Keeps P s u) :
    Keeps P s (State.levelWrite u a1) := by
  unfold State.levelWrite
  repeat' (first
    | with_reducible exact h
    | with_reducible assumption
    | dsimp -zeta only
    | with_reducible refine keeps_storeWrite (hP.sub rfl) ?_
    | with_reducible refine keeps_settleIf (hP.sub rfl) ?_
    | intro _
    | with_reducible refine keeps_ite ?_ ?_
    | with_reducible refine keeps_ite_fst ?_ ?_
    | with_reducible refine keeps_pair (by assumption) ?_
    | split
    | fail_if_no_progress extract_lets
    | dsimp +zetaDelta only)

theorem keeps_pinCtlWrite {P : Nat} {s u : State} {a1} (hP : Fits 0x100000000007fffffffffffffffffffffffffffffffffffffffffffffffffffffffffffffffffff P) (h : Keeps P s u) :
    Keeps P s (State.pinCtlWrite u a1) := by
  unfold State.pinCtlWrite
  repeat' (first
    | with_reducible exact h
    | with_reducible assumption
    | dsimp -zeta only
    | with_reducible refine keeps_noteAnalogue (hP.sub rfl) ?_
    | with_reducible refine keeps_storeWrite (hP.sub rfl) ?_
    | intro _
    | with_reducible refine keeps_ite ?_ ?_
    | with_reducible refine keeps_ite_fst ?_ ?_
    | with_reducible refine keeps_pair (by assumption) ?_
    | split
    | fail_if_no_progress extract_lets
    | dsimp +zetaDelta only)

theorem keeps_afterPmu {P : Nat} {s u : State} {a1 a2 a3 a4} (hP : Fits 0x800000000000000000000000000000000000000000000000000000000000000000000000001000000 P) (h : Keeps P s u) :
    Keeps P s (State.afterPmu u a1 a2 a3 a4) := by
  unfold State.afterPmu
  repeat' (first
    | with_reducible exact h
    | with_reducible assumption
    | dsimp -zeta only
    | with_reducible refine keeps_sdPmuChange (hP.sub rfl) ?_
    | with_reducible refine keeps_clampCheck (hP.sub rfl) ?_
    | with_reducible refine keeps_settleIf (hP.sub rfl) ?_
    | intro _
    | with_reducible refine keeps_ite ?_ ?_
    | with_reducible refine keeps_ite_fst ?_ ?_
    | with_reducible refine keeps_pair (by assumption) ?_
    | split
    | fail_if_no_progress extract_lets
    | dsimp +zetaDelta only)

theorem keeps_pmuWrite {P : Nat} {s u : State} {a1} (hP : Fits 0x80100000000007fffffffffffffffffffffffffffffffffffffffffffffffffffffffffffffffffff P) (h : Keeps P s u) :
    Keeps P s (State.pmuWrite u a1) := by
  unfold State.pmuWrite
  repeat' (first
    | with_reducible exact h
    | with_reducible assumption
    | dsimp -zeta only
    | with_reducible refine keeps_noteAnalogue (hP.sub rfl) ?_
    | with_reducible refine keeps_storeWrite (hP.sub rfl) ?_
    | with_reducible refine keeps_afterPmu (hP.sub rfl) ?_
    | intro _
    | with_reducible refine keeps_ite ?_ ?_
    | with_reducible refine keeps_ite_fst ?_ ?_
    | with_reducible refine keeps_pair (by assumption) ?_
    | split
    | fail_if_no_progress extract_lets
    | dsimp +zetaDelta only)

theorem keeps_descWrite {P : Nat} {s u : State} {a1 a2} (hP : Fits 0x7fffffffffffffffffffffffffffffffffffffffffffffffffffffffffffffffffff P) (h : Keeps P s u) :
    Keeps P s (State.descWrite u a1 a2) := by
  unfold State.descWrite
  repeat' (first
    | with_reducible exact h
    | with_reducible assumption
    | dsimp -zeta only
    | with_reducible refine keeps_storeWrite (hP.sub rfl) ?_
    | with_reducible refine keeps_fput hP rfl ?_
    | intro _
    | with_reducible refine keeps_ite ?_ ?_
    | with_reducible refine keeps_ite_fst ?_ ?_
    | with_reducible refine keeps_pair (by assumption) ?_
    | split
    | fail_if_no_progress extract_lets
    | dsimp +zetaDelta only)

theorem keeps_spaceWrite {P : Nat} {s u : State} {a1} (hP : Fits 0x7fffffffffffffffffffffffffffffffffffffffffffffffffffffffffffffffffff P) (h : Keeps P s u) :
    Keeps P s (State.spaceWrite u a1) := by
  unfold State.spaceWrite
  repeat' (first
    | with_reducible exact h
    | with_reducible assumption
    | dsimp -zeta only
    | with_reducible refine keeps_storeWrite (hP.sub rfl) ?_
    | with_reducible refine keeps_fput hP rfl ?_
    | intro _
    | with_reducible refine keeps_ite ?_ ?_
    | with_reducible refine keeps_ite_fst ?_ ?_
    | with_reducible refine keeps_pair (by assumption) ?_
    | split
    | fail_if_no_progress extract_lets
    | dsimp +zetaDelta only)

theorem keeps_bar2Reg {P : Nat} {s u : State} {a1} (hP : Fits 0x7fffffffffffffffffffffffffffffffffffffffffffffffffffffffffffffffffff P) (h : Keeps P s u) :
    Keeps P s (State.bar2Reg u a1) := by
  unfold State.bar2Reg
  repeat' (first
    | with_reducible exact h
    | with_reducible assumption
    | dsimp -zeta only
    | with_reducible refine keeps_storeWrite (hP.sub rfl) ?_
    | with_reducible refine keeps_fput hP rfl ?_
    | intro _
    | with_reducible refine keeps_ite ?_ ?_
    | with_reducible refine keeps_ite_fst ?_ ?_
    | with_reducible refine keeps_pair (by assumption) ?_
    | split
    | fail_if_no_progress extract_lets
    | dsimp +zetaDelta only)

theorem keeps_acqCfgWrite {P : Nat} {s u : State} {a1} (hP : Fits 0x7fffffffffffffffffffffffffffffffffffffffffffffffffffffffffffffffffff P) (h : Keeps P s u) :
    Keeps P s (State.acqCfgWrite u a1) := by
  unfold State.acqCfgWrite
  repeat' (first
    | with_reducible exact h
    | with_reducible assumption
    | dsimp -zeta only
    | with_reducible refine keeps_storeWrite (hP.sub rfl) ?_
    | with_reducible refine keeps_fput hP rfl ?_
    | intro _
    | with_reducible refine keeps_ite ?_ ?_
    | with_reducible refine keeps_ite_fst ?_ ?_
    | with_reducible refine keeps_pair (by assumption) ?_
    | split
    | fail_if_no_progress extract_lets
    | dsimp +zetaDelta only)

theorem keeps_portCtlWrite {P : Nat} {s u : State} {a1} (hP : Fits 0x7fffffffffffffffffffffffffffffffffffffffffffffffffffffffffffffffffff P) (h : Keeps P s u) :
    Keeps P s (State.portCtlWrite u a1) := by
  unfold State.portCtlWrite
  repeat' (first
    | with_reducible exact h
    | with_reducible assumption
    | dsimp -zeta only
    | with_reducible refine keeps_storeWrite (hP.sub rfl) ?_
    | with_reducible refine keeps_fput hP rfl ?_
    | intro _
    | with_reducible refine keeps_ite ?_ ?_
    | with_reducible refine keeps_ite_fst ?_ ?_
    | with_reducible refine keeps_pair (by assumption) ?_
    | split
    | fail_if_no_progress extract_lets
    | dsimp +zetaDelta only)

theorem keeps_regEffect {P : Nat} {s u : State} {a1} (hP : Fits 0xfffdffb00000007fffffffffffffffffffffffffffffffffffffffffffffffffffffffffffffffffff P) (h : Keeps P s u) :
    Keeps P s (State.regEffect u a1) := by
  unfold State.regEffect
  repeat' (first
    | with_reducible exact h
    | with_reducible assumption
    | dsimp -zeta only
    | with_reducible refine keeps_doMemMapSpanWrite (hP.sub rfl) (hP.bit rfl) ?_
    | with_reducible refine keeps_doMemMapCtlWrite (hP.sub rfl) ?_
    | with_reducible refine keeps_doDmaChCtlWrite (hP.sub rfl) ?_
    | with_reducible refine keeps_doSwyTickWrite (hP.sub rfl) ?_
    | with_reducible refine keeps_doDptQCtlWrite (hP.sub rfl) ?_
    | with_reducible refine keeps_doThmCfgWrite (hP.sub rfl) ?_
    | with_reducible refine keeps_doMerCtlWrite (hP.sub rfl) ?_
    | with_reducible refine keeps_doWlnAggWrite (hP.sub rfl) ?_
    | with_reducible refine keeps_portCtlWrite (hP.sub rfl) ?_
    | with_reducible refine keeps_doSarInjectRequest (hP.sub rfl) ?_
    | with_reducible refine keeps_pinCtlWrite (hP.sub rfl) ?_
    | with_reducible refine keeps_forgetWraps (hP.sub rfl) ?_
    | with_reducible refine keeps_acqCfgWrite (hP.sub rfl) ?_
    | with_reducible refine keeps_clampCheck (hP.sub rfl) ?_
    | with_reducible refine keeps_spaceWrite (hP.sub rfl) ?_
    | with_reducible refine keeps_doSelfCheckStart (hP.sub rfl) ?_
    | with_reducible refine keeps_storeWrite (hP.sub rfl) ?_
    | with_reducible refine keeps_doChtInvGo (hP.sub rfl) ?_
    | with_reducible refine keeps_doBlkReset (hP.sub rfl) ?_
    | with_reducible refine keeps_levelWrite (hP.sub rfl) ?_
    | with_reducible refine keeps_doAdcSdCfgWrite (hP.sub rfl) ?_
    | with_reducible refine keeps_doWlnHalt (hP.sub rfl) ?_
    | with_reducible refine keeps_doMerSnap (hP.sub rfl) ?_
    | with_reducible refine keeps_doSxtMuCtlWrite (hP.sub rfl) ?_
    | with_reducible refine keeps_doSxtChCtlWrite (hP.sub rfl) ?_
    | with_reducible refine keeps_descWrite (hP.sub rfl) ?_
    | with_reducible refine keeps_pmuWrite (hP.sub rfl) ?_
    | with_reducible refine keeps_doPwrReq (hP.sub rfl) ?_
    | with_reducible refine keeps_doSxtWinCommit (hP.sub rfl) ?_
    | with_reducible refine keeps_bar2Reg (hP.sub rfl) ?_
    | with_reducible refine keeps_doWlnGo (hP.sub rfl) ?_
    | with_reducible refine keeps_doAcqCtlWrite (hP.sub rfl) ?_
    | with_reducible refine keeps_doAdcTrigGo (hP.sub rfl) ?_
    | with_reducible refine keeps_doAcqTrigGo (hP.sub rfl) ?_
    | intro _
    | with_reducible refine keeps_ite ?_ ?_
    | with_reducible refine keeps_ite_fst ?_ ?_
    | with_reducible refine keeps_pair (by assumption) ?_
    | split
    | fail_if_no_progress extract_lets
    | fail_if_no_progress with_reducible refine keeps_eth hP rfl ?_
    | dsimp +zetaDelta only)

theorem keeps_regWrite {P : Nat} {s u : State} {a1} (hP : Fits 0xfffdffb00000007fffffffffffffffffffffffffffffffffffffffffffffffffffffffffffffffffff P) (h : Keeps P s u) :
    Keeps P s (State.regWrite u a1) := by
  unfold State.regWrite
  repeat' (first
    | with_reducible exact h
    | with_reducible assumption
    | dsimp -zeta only
    | with_reducible refine keeps_rtWriteDrop (hP.sub rfl) ?_
    | with_reducible refine keeps_regEffect (hP.sub rfl) ?_
    | intro _
    | with_reducible refine keeps_ite ?_ ?_
    | with_reducible refine keeps_ite_fst ?_ ?_
    | with_reducible refine keeps_pair (by assumption) ?_
    | split
    | fail_if_no_progress extract_lets
    | dsimp +zetaDelta only)

theorem keeps_msixWrite {P : Nat} {s u : State} {a1 a2 a3} (hP : Fits 0x8000000000000000000000000000000000000000000000000000000000000000000000000000 P) (h : Keeps P s u) :
    Keeps P s (State.msixWrite u a1 a2 a3) := by
  unfold State.msixWrite
  repeat' (first
    | with_reducible exact h
    | with_reducible assumption
    | dsimp -zeta only
    | with_reducible refine keeps_msixSend (hP.sub rfl) ?_
    | intro _
    | with_reducible refine keeps_ite ?_ ?_
    | with_reducible refine keeps_ite_fst ?_ ?_
    | with_reducible refine keeps_pair (by assumption) ?_
    | split
    | fail_if_no_progress extract_lets
    | fail_if_no_progress with_reducible refine keeps_hostPort hP rfl ?_ rfl rfl rfl rfl rfl
    | fail_if_no_progress with_reducible refine keeps_msix hP rfl ?_ rfl rfl rfl rfl rfl rfl rfl rfl rfl rfl
    | dsimp +zetaDelta only)

theorem keeps_applyWrite {P : Nat} {s u : State} {a1 a2 a3} (hP : Fits 0xffffffb00000007fffffffffffffffffffffffffffffffffffffffffffffffffffffffffffffffffff P) (h : Keeps P s u) :
    Keeps P s (State.applyWrite u a1 a2 a3) := by
  unfold State.applyWrite
  repeat' (first
    | with_reducible exact h
    | with_reducible assumption
    | dsimp -zeta only
    | with_reducible refine keeps_msixWrite (hP.sub rfl) ?_
    | with_reducible refine keeps_doDdsListWrite (hP.sub rfl) ?_
    | with_reducible refine keeps_regWrite (hP.sub rfl) ?_
    | with_reducible refine keeps_almWrite (hP.sub rfl) ?_
    | with_reducible refine keeps_foldl ?_ ?_
    | with_reducible refine keeps_foldl_fst ?_ ?_
    | intro _
    | with_reducible refine keeps_ite ?_ ?_
    | with_reducible refine keeps_ite_fst ?_ ?_
    | with_reducible refine keeps_pair (by assumption) ?_
    | split
    | fail_if_no_progress extract_lets
    | dsimp +zetaDelta only)

theorem keeps_arriveWrite {P : Nat} {s u : State} {a1 a2 a3} (hP : Fits 0xffffffb00000007fffffffffffffffffffffffffffffffffffffffffffffffffffffffffffffffffff P) (h : Keeps P s u) :
    Keeps P s (State.arriveWrite u a1 a2 a3) := by
  unfold State.arriveWrite
  repeat' (first
    | with_reducible exact h
    | with_reducible assumption
    | dsimp -zeta only
    | with_reducible refine keeps_applyWrite (hP.sub rfl) ?_
    | intro _
    | with_reducible refine keeps_ite ?_ ?_
    | with_reducible refine keeps_ite_fst ?_ ?_
    | with_reducible refine keeps_pair (by assumption) ?_
    | split
    | fail_if_no_progress extract_lets
    | fail_if_no_progress with_reducible refine keeps_hostPort hP rfl ?_ rfl rfl rfl rfl rfl
    | dsimp +zetaDelta only)

theorem keeps_doDeliver {P : Nat} {s u : State} (hP : Fits 0xffffffb00000007fffffffffffffffffffffffffffffffffffffffffffffffffffffffffffffffffff P) (h : Keeps P s u) :
    Keeps P s (State.doDeliver u) := by
  unfold State.doDeliver
  repeat' (first
    | with_reducible exact h
    | with_reducible assumption
    | dsimp -zeta only
    | with_reducible refine keeps_applyWrite (hP.sub rfl) ?_
    | intro _
    | with_reducible refine keeps_ite ?_ ?_
    | with_reducible refine keeps_ite_fst ?_ ?_
    | with_reducible refine keeps_pair (by assumption) ?_
    | split
    | fail_if_no_progress extract_lets
    | fail_if_no_progress with_reducible refine keeps_hostPort hP rfl ?_ rfl rfl rfl rfl rfl
    | dsimp +zetaDelta only)

theorem keeps_deliverAll {P : Nat} {s u : State} (hP : Fits 0xffffffb00000007fffffffffffffffffffffffffffffffffffffffffffffffffffffffffffffffffff P) (h : Keeps P s u) :
    Keeps P s (State.deliverAll u) := by
  unfold State.deliverAll
  repeat' (first
    | with_reducible exact h
    | with_reducible assumption
    | dsimp -zeta only
    | with_reducible refine keeps_doDeliver (hP.sub rfl) ?_
    | with_reducible refine keeps_foldl ?_ ?_
    | with_reducible refine keeps_foldl_fst ?_ ?_
    | intro _
    | with_reducible refine keeps_ite ?_ ?_
    | with_reducible refine keeps_ite_fst ?_ ?_
    | with_reducible refine keeps_pair (by assumption) ?_
    | split
    | fail_if_no_progress extract_lets
    | dsimp +zetaDelta only)

theorem keeps_inOrder {P : Nat} {s u : State} {a1} (hP : Fits 0xffffffb00000007fffffffffffffffffffffffffffffffffffffffffffffffffffffffffffffffffff P) (h : Keeps P s u) :
    Keeps P s (State.inOrder u a1) := by
  unfold State.inOrder
  repeat' (first
    | with_reducible exact h
    | with_reducible assumption
    | dsimp -zeta only
    | with_reducible refine keeps_deliverAll (hP.sub rfl) ?_
    | intro _
    | with_reducible refine keeps_ite ?_ ?_
    | with_reducible refine keeps_ite_fst ?_ ?_
    | with_reducible refine keeps_pair (by assumption) ?_
    | split
    | fail_if_no_progress extract_lets
    | dsimp +zetaDelta only)

theorem keeps_rowWrite {P : Nat} {s u : State} {a1 a2 a3} (hP : Fits 0xffffffb00000007fffffffffffffffffffffffffffffffffffffffffffffffffffffffffffffffffff P) (h : Keeps P s u) :
    Keeps P s (State.rowWrite u a1 a2 a3) := by
  unfold State.rowWrite
  repeat' (first
    | with_reducible exact h
    | with_reducible assumption
    | dsimp -zeta only
    | with_reducible refine keeps_regWrite (hP.sub rfl) ?_
    | with_reducible refine keeps_inOrder (hP.sub rfl) ?_
    | intro _
    | with_reducible refine keeps_ite ?_ ?_
    | with_reducible refine keeps_ite_fst ?_ ?_
    | with_reducible refine keeps_pair (by assumption) ?_
    | split
    | fail_if_no_progress extract_lets
    | dsimp +zetaDelta only)

theorem keeps_almanacRow {P : Nat} {s u : State} {a1 a2 a3 a4 a5} (hP : Fits 0xffffffb00000007fffffffffffffffffffffffffffffffffffffffffffffffffffffffffffffffffff P) (h : Keeps P s u) :
    Keeps P s (State.almanacRow u a1 a2 a3 a4 a5) := by
  unfold State.almanacRow
  repeat' (first
    | with_reducible exact h
    | with_reducible assumption
    | dsimp -zeta only
    | with_reducible refine keeps_deliverAll (hP.sub rfl) ?_
    | with_reducible refine keeps_accessErr (hP.sub rfl) ?_
    | with_reducible refine keeps_almWrite (hP.sub rfl) ?_
    | intro _
    | with_reducible refine keeps_ite ?_ ?_
    | with_reducible refine keeps_ite_fst ?_ ?_
    | with_reducible refine keeps_pair (by assumption) ?_
    | split
    | fail_if_no_progress extract_lets
    | dsimp +zetaDelta only)

theorem keeps_ddsListRow {P : Nat} {s u : State} {a1 a2 a3} (hP : Fits 0xffffffb00000007fffffffffffffffffffffffffffffffffffffffffffffffffffffffffffffffffff P) (h : Keeps P s u) :
    Keeps P s (State.ddsListRow u a1 a2 a3) := by
  unfold State.ddsListRow
  repeat' (first
    | with_reducible exact h
    | with_reducible assumption
    | dsimp -zeta only
    | with_reducible refine keeps_deliverAll (hP.sub rfl) ?_
    | with_reducible refine keeps_doDdsListWrite (hP.sub rfl) ?_
    | intro _
    | with_reducible refine keeps_ite ?_ ?_
    | with_reducible refine keeps_ite_fst ?_ ?_
    | with_reducible refine keeps_pair (by assumption) ?_
    | split
    | fail_if_no_progress extract_lets
    | dsimp +zetaDelta only)

theorem keeps_clearRead {P : Nat} {s u : State} {a1} (hP : Fits 0x7fffffffffffffffffffffffffffffffffffffffffffffffffffffffffffffffffff P) (h : Keeps P s u) :
    Keeps P s (State.clearRead u a1) := by
  unfold State.clearRead
  repeat' (first
    | with_reducible exact h
    | with_reducible assumption
    | dsimp -zeta only
    | with_reducible refine keeps_wr hP rfl ?_
    | with_reducible refine keeps_wrAny (hP.sub rfl) ?_
    | with_reducible refine keeps_foldl ?_ ?_
    | with_reducible refine keeps_foldl_fst ?_ ?_
    | intro _
    | with_reducible refine keeps_ite ?_ ?_
    | with_reducible refine keeps_ite_fst ?_ ?_
    | with_reducible refine keeps_pair (by assumption) ?_
    | split
    | fail_if_no_progress extract_lets
    | dsimp +zetaDelta only)

theorem keeps_regRead {P : Nat} {s u : State} {a1} (hP : Fits 0x7fffffffffffffffffffffffffffffffffffffffffffffffffffffffffffffffffff P) (h : Keeps P s u) :
    Keeps P s (State.regRead u a1).1 := by
  unfold State.regRead
  repeat' (first
    | with_reducible exact h
    | with_reducible assumption
    | dsimp -zeta only
    | with_reducible refine keeps_clearRead (hP.sub rfl) ?_
    | intro _
    | with_reducible refine keeps_ite ?_ ?_
    | with_reducible refine keeps_ite_fst ?_ ?_
    | with_reducible refine keeps_pair (by assumption) ?_
    | split
    | fail_if_no_progress extract_lets
    | dsimp +zetaDelta only)

theorem keeps_regRead_eq {P : Nat} {s u v : State} {a1} {x} (he : State.regRead u a1 = (v, x)) (hP : Fits 0x7fffffffffffffffffffffffffffffffffffffffffffffffffffffffffffffffffff P)
    (h : Keeps P s u) : Keeps P s v := by
  have h1 := keeps_regRead (a1 := a1) hP h
  rw [he] at h1
  exact h1

theorem keeps_almanacRead {P : Nat} {s u : State} {a1 a2 a3 a4} (hP : Fits 0x8000402000000000300000000000000000000000000000000000000000000000000000000070000000 P) (h : Keeps P s u) :
    Keeps P s (State.almanacRead u a1 a2 a3 a4).1 := by
  unfold State.almanacRead
  repeat' (first
    | with_reducible exact h
    | with_reducible assumption
    | dsimp -zeta only
    | with_reducible refine keeps_readAlm (hP.sub rfl) ?_
    | with_reducible refine keeps_readAlm_eq (by assumption) (hP.sub rfl) ?_
    | intro _
    | with_reducible refine keeps_ite ?_ ?_
    | with_reducible refine keeps_ite_fst ?_ ?_
    | with_reducible refine keeps_pair (by assumption) ?_
    | split
    | fail_if_no_progress extract_lets
    | dsimp +zetaDelta only)

theorem keeps_almanacRead_eq {P : Nat} {s u v : State} {a1 a2 a3 a4} {x} (he : State.almanacRead u a1 a2 a3 a4 = (v, x)) (hP : Fits 0x8000402000000000300000000000000000000000000000000000000000000000000000000070000000 P)
    (h : Keeps P s u) : Keeps P s v := by
  have h1 := keeps_almanacRead (a1 := a1) (a2 := a2) (a3 := a3) (a4 := a4) hP h
  rw [he] at h1
  exact h1

theorem keeps_readValue {P : Nat} {s u : State} {a1 a2} (hP : Fits 0x800040200000007fffffffffffffffffffffffffffffffffffffffffffffffffffffffffffffffffff P) (h : Keeps P s u) :
    Keeps P s (State.readValue u a1 a2).1 := by
  unfold State.readValue
  refine keeps_ite_fst h (keeps_ite_fst ?_ (keeps_ite_fst h (keeps_ite_fst h (keeps_ite_fst h ?_))))
  · exact keeps_almanacRead (hP.sub rfl) h
  · exact keeps_foldl_fst (fun _ _ h => keeps_regRead (hP.sub rfl) h) h

theorem keeps_readValue_eq {P : Nat} {s u v : State} {a1 a2} {x} (he : State.readValue u a1 a2 = (v, x)) (hP : Fits 0x800040200000007fffffffffffffffffffffffffffffffffffffffffffffffffffffffffffffffffff P)
    (h : Keeps P s u) : Keeps P s v := by
  have h1 := keeps_readValue (a1 := a1) (a2 := a2) hP h
  rw [he] at h1
  exact h1

theorem keeps_readAnswer {P : Nat} {s u : State} {a1 a2} (hP : Fits 0x10000000000000000000000000000000000000000000000000000000000000000000000000000 P) (h : Keeps P s u) :
    Keeps P s (State.readAnswer u a1 a2) := by
  unfold State.readAnswer
  repeat' (first
    | with_reducible exact h
    | with_reducible assumption
    | dsimp -zeta only
    | intro _
    | with_reducible refine keeps_ite ?_ ?_
    | with_reducible refine keeps_ite_fst ?_ ?_
    | with_reducible refine keeps_pair (by assumption) ?_
    | split
    | fail_if_no_progress extract_lets
    | fail_if_no_progress with_reducible refine keeps_hostPort hP rfl ?_ rfl rfl rfl rfl rfl
    | dsimp +zetaDelta only)

theorem keeps_doRegisterRead {P : Nat} {s u : State} {a1 a2} (hP : Fits 0xffffffb00000007fffffffffffffffffffffffffffffffffffffffffffffffffffffffffffffffffff P) (h : Keeps P s u) :
    Keeps P s (State.doRegisterRead u a1 a2) := by
  unfold State.doRegisterRead
  repeat' (first
    | with_reducible exact h
    | with_reducible assumption
    | dsimp -zeta only
    | with_reducible refine keeps_deliverAll (hP.sub rfl) ?_
    | with_reducible refine keeps_readAnswer (hP.sub rfl) ?_
    | with_reducible refine keeps_readValue (hP.sub rfl) ?_
    | with_reducible refine keeps_readValue_eq (by assumption) (hP.sub rfl) ?_
    | with_reducible refine keeps_accessErr (hP.sub rfl) ?_
    | intro _
    | with_reducible refine keeps_ite ?_ ?_
    | with_reducible refine keeps_ite_fst ?_ ?_
    | with_reducible refine keeps_pair (by assumption) ?_
    | split
    | fail_if_no_progress extract_lets
    | dsimp +zetaDelta only)

theorem keeps_runBatch {P : Nat} {s u : State} {a1 a2 a3 a4} (hP : Fits 0xffffffb00000007fffffffffffffffffffffffffffffffffffffffffffffffffffffffffffffffffff P) (h : Keeps P s u) :
    Keeps P s (State.runBatch u a1 a2 a3 a4).1 := by
  induction a4 generalizing u a1 a2 a3 with
  | zero =>
    unfold State.runBatch
    repeat' (first
      | with_reducible exact h
      | with_reducible assumption
      | dsimp -zeta only
      | with_reducible refine keeps_storeResult (hP.sub rfl) ?_
      | with_reducible refine keeps_storeResult_eq (by assumption) (hP.sub rfl) ?_
      | with_reducible refine keeps_deliverAll (hP.sub rfl) ?_
      | with_reducible refine keeps_applyWrite (hP.sub rfl) ?_
      | with_reducible refine keeps_readValue (hP.sub rfl) ?_
      | with_reducible refine keeps_readValue_eq (by assumption) (hP.sub rfl) ?_
      | with_reducible refine keeps_payload (hP.sub rfl) ?_
      | with_reducible refine keeps_payload_eq (by assumption) (hP.sub rfl) ?_
      | intro _
      | with_reducible refine keeps_ite ?_ ?_
      | with_reducible refine keeps_ite_fst ?_ ?_
      | with_reducible refine keeps_pair (by assumption) ?_
      | split
      | fail_if_no_progress extract_lets
      | dsimp +zetaDelta only)
  | succ n ih =>
    unfold State.runBatch
    repeat' (first
      | with_reducible exact h
      | with_reducible assumption
      | dsimp -zeta only
      | with_reducible apply ih
      | with_reducible refine keeps_pair (w := State.runBatch _ _ _ _ _) (by assumption) ?_
      | with_reducible refine keeps_storeResult (hP.sub rfl) ?_
      | with_reducible refine keeps_storeResult_eq (by assumption) (hP.sub rfl) ?_
      | with_reducible refine keeps_deliverAll (hP.sub rfl) ?_
      | with_reducible refine keeps_applyWrite (hP.sub rfl) ?_
      | with_reducible refine keeps_readValue (hP.sub rfl) ?_
      | with_reducible refine keeps_readValue_eq (by assumption) (hP.sub rfl) ?_
      | with_reducible refine keeps_payload (hP.sub rfl) ?_
      | with_reducible refine keeps_payload_eq (by assumption) (hP.sub rfl) ?_
      | intro _
      | with_reducible refine keeps_ite ?_ ?_
      | with_reducible refine keeps_ite_fst ?_ ?_
      | with_reducible refine keeps_pair (by assumption) ?_
      | split
      | fail_if_no_progress extract_lets
      | dsimp +zetaDelta only)

theorem keeps_runBatch_eq {P : Nat} {s u v : State} {a1 a2 a3 a4} {x} (he : State.runBatch u a1 a2 a3 a4 = (v, x)) (hP : Fits 0xffffffb00000007fffffffffffffffffffffffffffffffffffffffffffffffffffffffffffffffffff P)
    (h : Keeps P s u) : Keeps P s v := by
  have h1 := keeps_runBatch (a1 := a1) (a2 := a2) (a3 := a3) (a4 := a4) hP h
  rw [he] at h1
  exact h1

theorem keeps_bodyRegBatch {P : Nat} {s u : State} {k} (hP : Fits 0xffffffb00000007fffffffffffffffffffffffffffffffffffffffffffffffffffffffffffffffffff P) (h : Keeps P s u) :
    Keeps P s (bodyRegBatch k u).1 := by
  unfold bodyRegBatch
  beta_reduce
  repeat' (first
    | with_reducible exact h
    | with_reducible assumption
    | dsimp -zeta only
    | with_reducible refine keeps_runBatch (hP.sub rfl) ?_
    | with_reducible refine keeps_runBatch_eq (by assumption) (hP.sub rfl) ?_
    | with_reducible refine keeps_fail (hP.sub rfl) ?_
    | with_reducible refine keeps_fail_eq (by assumption) (hP.sub rfl) ?_
    | intro _
    | with_reducible refine keeps_ite ?_ ?_
    | with_reducible refine keeps_ite_fst ?_ ?_
    | with_reducible refine keeps_pair (by assumption) ?_
    | split
    | fail_if_no_progress extract_lets
    | dsimp +zetaDelta only)

theorem keeps_bodyRegBatch_eq {P : Nat} {s u v : State} {k} {x} (he : bodyRegBatch k u = (v, x)) (hP : Fits 0xffffffb00000007fffffffffffffffffffffffffffffffffffffffffffffffffffffffffffffffffff P)
    (h : Keeps P s u) : Keeps P s v := by
  have h1 := keeps_bodyRegBatch (k := k) hP h
  rw [he] at h1
  exact h1

theorem keeps_execImmediateMilestone {P : Nat} {u t : State} (he : execImmediateMilestone u = .next t) (hP : Fits 0xffffffb00000007fffffffffffffffffffffffffffffffffffffffffffffffffffffffffffffffffff P) : Keeps P u t := by
  unfold execImmediateMilestone at he
  injection he with he
  subst he
  repeat' (first
    | with_reducible exact Keeps.refl P u
    | with_reducible assumption
    | dsimp -zeta only
    | with_reducible refine keeps_doDeliver (hP.sub rfl) ?_
    | intro _
    | with_reducible refine keeps_ite ?_ ?_
    | with_reducible refine keeps_ite_fst ?_ ?_
    | with_reducible refine keeps_pair (by assumption) ?_
    | split
    | fail_if_no_progress extract_lets
    | dsimp +zetaDelta only)

theorem keeps_execMerCtlWrite {P : Nat} {u t : State} {a0 a1 a2} (he : execMerCtlWrite a0 a1 a2 u = .next t) (hP : Fits 0xffffffb00000007fffffffffffffffffffffffffffffffffffffffffffffffffffffffffffffffffff P) : Keeps P u t := by
  unfold execMerCtlWrite at he
  injection he with he
  subst he
  repeat' (first
    | with_reducible exact Keeps.refl P u
    | with_reducible assumption
    | dsimp -zeta only
    | with_reducible refine keeps_rowWrite (hP.sub rfl) ?_
    | intro _
    | with_reducible refine keeps_ite ?_ ?_
    | with_reducible refine keeps_ite_fst ?_ ?_
    | with_reducible refine keeps_pair (by assumption) ?_
    | split
    | fail_if_no_progress extract_lets
    | dsimp +zetaDelta only)

theorem keeps_execMerSnap {P : Nat} {u t : State} {a0} (he : execMerSnap a0 u = .next t) (hP : Fits 0xffffffb00000007fffffffffffffffffffffffffffffffffffffffffffffffffffffffffffffffffff P) : Keeps P u t := by
  unfold execMerSnap at he
  injection he with he
  subst he
  repeat' (first
    | with_reducible exact Keeps.refl P u
    | with_reducible assumption
    | dsimp -zeta only
    | with_reducible refine keeps_rowWrite (hP.sub rfl) ?_
    | intro _
    | with_reducible refine keeps_ite ?_ ?_
    | with_reducible refine keeps_ite_fst ?_ ?_
    | with_reducible refine keeps_pair (by assumption) ?_
    | split
    | fail_if_no_progress extract_lets
    | dsimp +zetaDelta only)

theorem keeps_execAlmanacApertureWrite {P : Nat} {u t : State} {a0 a1 a2 a3 a4} (he : execAlmanacApertureWrite a0 a1 a2 a3 a4 u = .next t) (hP : Fits 0xffffffb00000007fffffffffffffffffffffffffffffffffffffffffffffffffffffffffffffffffff P) : Keeps P u t := by
  unfold execAlmanacApertureWrite at he
  injection he with he
  subst he
  repeat' (first
    | with_reducible exact Keeps.refl P u
    | with_reducible assumption
    | dsimp -zeta only
    | with_reducible refine keeps_almanacRow (hP.sub rfl) ?_
    | intro _
    | with_reducible refine keeps_ite ?_ ?_
    | with_reducible refine keeps_ite_fst ?_ ?_
    | with_reducible refine keeps_pair (by assumption) ?_
    | split
    | fail_if_no_progress extract_lets
    | dsimp +zetaDelta only)

theorem keeps_execSxtWinCommit {P : Nat} {u t : State} {a0} (he : execSxtWinCommit a0 u = .next t) (hP : Fits 0xffffffb00000007fffffffffffffffffffffffffffffffffffffffffffffffffffffffffffffffffff P) : Keeps P u t := by
  unfold execSxtWinCommit at he
  injection he with he
  subst he
  repeat' (first
    | with_reducible exact Keeps.refl P u
    | with_reducible assumption
    | dsimp -zeta only
    | with_reducible refine keeps_rowWrite (hP.sub rfl) ?_
    | intro _
    | with_reducible refine keeps_ite ?_ ?_
    | with_reducible refine keeps_ite_fst ?_ ?_
    | with_reducible refine keeps_pair (by assumption) ?_
    | split
    | fail_if_no_progress extract_lets
    | dsimp +zetaDelta only)

theorem keeps_execSxtChCtlWrite {P : Nat} {u t : State} {a0 a1} (he : execSxtChCtlWrite a0 a1 u = .next t) (hP : Fits 0xffffffb00000007fffffffffffffffffffffffffffffffffffffffffffffffffffffffffffffffffff P) : Keeps P u t := by
  unfold execSxtChCtlWrite at he
  injection he with he
  subst he
  repeat' (first
    | with_reducible exact Keeps.refl P u
    | with_reducible assumption
    | dsimp -zeta only
    | with_reducible refine keeps_rowWrite (hP.sub rfl) ?_
    | intro _
    | with_reducible refine keeps_ite ?_ ?_
    | with_reducible refine keeps_ite_fst ?_ ?_
    | with_reducible refine keeps_pair (by assumption) ?_
    | split
    | fail_if_no_progress extract_lets
    | dsimp +zetaDelta only)

theorem keeps_execSxtMuCtlWrite {P : Nat} {u t : State} {a0 a1} (he : execSxtMuCtlWrite a0 a1 u = .next t) (hP : Fits 0xffffffb00000007fffffffffffffffffffffffffffffffffffffffffffffffffffffffffffffffffff P) : Keeps P u t := by
  unfold execSxtMuCtlWrite at he
  injection he with he
  subst he
  repeat' (first
    | with_reducible exact Keeps.refl P u
    | with_reducible assumption
    | dsimp -zeta only
    | with_reducible refine keeps_rowWrite (hP.sub rfl) ?_
    | intro _
    | with_reducible refine keeps_ite ?_ ?_
    | with_reducible refine keeps_ite_fst ?_ ?_
    | with_reducible refine keeps_pair (by assumption) ?_
    | split
    | fail_if_no_progress extract_lets
    | dsimp +zetaDelta only)

theorem keeps_execSelfCheckStart {P : Nat} {u t : State} (he : execSelfCheckStart u = .next t) (hP : Fits 0xffffffb00000007fffffffffffffffffffffffffffffffffffffffffffffffffffffffffffffffffff P) : Keeps P u t := by
  unfold execSelfCheckStart at he
  injection he with he
  subst he
  repeat' (first
    | with_reducible exact Keeps.refl P u
    | with_reducible assumption
    | dsimp -zeta only
    | with_reducible refine keeps_rowWrite (hP.sub rfl) ?_
    | intro _
    | with_reducible refine keeps_ite ?_ ?_
    | with_reducible refine keeps_ite_fst ?_ ?_
    | with_reducible refine keeps_pair (by assumption) ?_
    | split
    | fail_if_no_progress extract_lets
    | dsimp +zetaDelta only)

theorem keeps_execDdsListWrite {P : Nat} {u t : State} {a0 a1 a2} (he : execDdsListWrite a0 a1 a2 u = .next t) (hP : Fits 0xffffffb00000007fffffffffffffffffffffffffffffffffffffffffffffffffffffffffffffffffff P) : Keeps P u t := by
  unfold execDdsListWrite at he
  injection he with he
  subst he
  repeat' (first
    | with_reducible exact Keeps.refl P u
    | with_reducible assumption
    | dsimp -zeta only
    | with_reducible refine keeps_ddsListRow (hP.sub rfl) ?_
    | intro _
    | with_reducible refine keeps_ite ?_ ?_
    | with_reducible refine keeps_ite_fst ?_ ?_
    | with_reducible refine keeps_pair (by assumption) ?_
    | split
    | fail_if_no_progress extract_lets
    | dsimp +zetaDelta only)

theorem keeps_execAdcTrigGo {P : Nat} {u t : State} (he : execAdcTrigGo u = .next t) (hP : Fits 0xffffffb00000007fffffffffffffffffffffffffffffffffffffffffffffffffffffffffffffffffff P) : Keeps P u t := by
  unfold execAdcTrigGo at he
  injection he with he
  subst he
  repeat' (first
    | with_reducible exact Keeps.refl P u
    | with_reducible assumption
    | dsimp -zeta only
    | with_reducible refine keeps_rowWrite (hP.sub rfl) ?_
    | intro _
    | with_reducible refine keeps_ite ?_ ?_
    | with_reducible refine keeps_ite_fst ?_ ?_
    | with_reducible refine keeps_pair (by assumption) ?_
    | split
    | fail_if_no_progress extract_lets
    | dsimp +zetaDelta only)

theorem keeps_execSarInjectRequest {P : Nat} {u t : State} {a0 a1} (he : execSarInjectRequest a0 a1 u = .next t) (hP : Fits 0xffffffb00000007fffffffffffffffffffffffffffffffffffffffffffffffffffffffffffffffffff P) : Keeps P u t := by
  unfold execSarInjectRequest at he
  injection he with he
  subst he
  repeat' (first
    | with_reducible exact Keeps.refl P u
    | with_reducible assumption
    | dsimp -zeta only
    | with_reducible refine keeps_rowWrite (hP.sub rfl) ?_
    | intro _
    | with_reducible refine keeps_ite ?_ ?_
    | with_reducible refine keeps_ite_fst ?_ ?_
    | with_reducible refine keeps_pair (by assumption) ?_
    | split
    | fail_if_no_progress extract_lets
    | dsimp +zetaDelta only)

theorem keeps_execAdcSdCfgWrite {P : Nat} {u t : State} {a0 a1} (he : execAdcSdCfgWrite a0 a1 u = .next t) (hP : Fits 0xffffffb00000007fffffffffffffffffffffffffffffffffffffffffffffffffffffffffffffffffff P) : Keeps P u t := by
  unfold execAdcSdCfgWrite at he
  injection he with he
  subst he
  repeat' (first
    | with_reducible exact Keeps.refl P u
    | with_reducible assumption
    | dsimp -zeta only
    | with_reducible refine keeps_rowWrite (hP.sub rfl) ?_
    | intro _
    | with_reducible refine keeps_ite ?_ ?_
    | with_reducible refine keeps_ite_fst ?_ ?_
    | with_reducible refine keeps_pair (by assumption) ?_
    | split
    | fail_if_no_progress extract_lets
    | dsimp +zetaDelta only)

theorem keeps_execAcqCtlWrite {P : Nat} {u t : State} {a0 a1} (he : execAcqCtlWrite a0 a1 u = .next t) (hP : Fits 0xffffffb00000007fffffffffffffffffffffffffffffffffffffffffffffffffffffffffffffffffff P) : Keeps P u t := by
  unfold execAcqCtlWrite at he
  injection he with he
  subst he
  repeat' (first
    | with_reducible exact Keeps.refl P u
    | with_reducible assumption
    | dsimp -zeta only
    | with_reducible refine keeps_rowWrite (hP.sub rfl) ?_
    | intro _
    | with_reducible refine keeps_ite ?_ ?_
    | with_reducible refine keeps_ite_fst ?_ ?_
    | with_reducible refine keeps_pair (by assumption) ?_
    | split
    | fail_if_no_progress extract_lets
    | dsimp +zetaDelta only)

theorem keeps_execAcqTrigGo {P : Nat} {u t : State} {a0} (he : execAcqTrigGo a0 u = .next t) (hP : Fits 0xffffffb00000007fffffffffffffffffffffffffffffffffffffffffffffffffffffffffffffffffff P) : Keeps P u t := by
  unfold execAcqTrigGo at he
  injection he with he
  subst he
  repeat' (first
    | with_reducible exact Keeps.refl P u
    | with_reducible assumption
    | dsimp -zeta only
    | with_reducible refine keeps_rowWrite (hP.sub rfl) ?_
    | intro _
    | with_reducible refine keeps_ite ?_ ?_
    | with_reducible refine keeps_ite_fst ?_ ?_
    | with_reducible refine keeps_pair (by assumption) ?_
    | split
    | fail_if_no_progress extract_lets
    | dsimp +zetaDelta only)

theorem keeps_execMemMapCtlWrite {P : Nat} {u t : State} {a0 a1} (he : execMemMapCtlWrite a0 a1 u = .next t) (hP : Fits 0xffffffb00000007fffffffffffffffffffffffffffffffffffffffffffffffffffffffffffffffffff P) : Keeps P u t := by
  unfold execMemMapCtlWrite at he
  injection he with he
  subst he
  repeat' (first
    | with_reducible exact Keeps.refl P u
    | with_reducible assumption
    | dsimp -zeta only
    | with_reducible refine keeps_rowWrite (hP.sub rfl) ?_
    | intro _
    | with_reducible refine keeps_ite ?_ ?_
    | with_reducible refine keeps_ite_fst ?_ ?_
    | with_reducible refine keeps_pair (by assumption) ?_
    | split
    | fail_if_no_progress extract_lets
    | dsimp +zetaDelta only)

theorem keeps_execChtInvGo {P : Nat} {u t : State} (he : execChtInvGo u = .next t) (hP : Fits 0xffffffb00000007fffffffffffffffffffffffffffffffffffffffffffffffffffffffffffffffffff P) : Keeps P u t := by
  unfold execChtInvGo at he
  injection he with he
  subst he
  repeat' (first
    | with_reducible exact Keeps.refl P u
    | with_reducible assumption
    | dsimp -zeta only
    | with_reducible refine keeps_rowWrite (hP.sub rfl) ?_
    | intro _
    | with_reducible refine keeps_ite ?_ ?_
    | with_reducible refine keeps_ite_fst ?_ ?_
    | with_reducible refine keeps_pair (by assumption) ?_
    | split
    | fail_if_no_progress extract_lets
    | dsimp +zetaDelta only)

theorem keeps_execDmaChCtlWrite {P : Nat} {u t : State} {a0 a1} (he : execDmaChCtlWrite a0 a1 u = .next t) (hP : Fits 0xffffffb00000007fffffffffffffffffffffffffffffffffffffffffffffffffffffffffffffffffff P) : Keeps P u t := by
  unfold execDmaChCtlWrite at he
  injection he with he
  subst he
  repeat' (first
    | with_reducible exact Keeps.refl P u
    | with_reducible assumption
    | dsimp -zeta only
    | with_reducible refine keeps_rowWrite (hP.sub rfl) ?_
    | intro _
    | with_reducible refine keeps_ite ?_ ?_
    | with_reducible refine keeps_ite_fst ?_ ?_
    | with_reducible refine keeps_pair (by assumption) ?_
    | split
    | fail_if_no_progress extract_lets
    | dsimp +zetaDelta only)

theorem keeps_execRegBatch {P : Nat} {u t : State} {a0} (he : execRegBatch a0 u = .next t) (hP : Fits 0xffffffb00000007fffffffffffffffffffffffffffffffffffffffffffffffffffffffffffffffffff P) : Keeps P u t := by
  unfold execRegBatch at he
  injection he with he
  subst he
  repeat' (first
    | with_reducible exact Keeps.refl P u
    | with_reducible assumption
    | dsimp -zeta only
    | with_reducible refine keeps_runCommand (hP.sub rfl) ?_ ?_
    | with_reducible refine keeps_bodyRegBatch (hP.sub rfl) ?_
    | with_reducible refine keeps_bodyRegBatch_eq (by assumption) (hP.sub rfl) ?_
    | intro _
    | with_reducible refine keeps_ite ?_ ?_
    | with_reducible refine keeps_ite_fst ?_ ?_
    | with_reducible refine keeps_pair (by assumption) ?_
    | split
    | fail_if_no_progress extract_lets
    | dsimp +zetaDelta only)

theorem keeps_execSwyTickWrite {P : Nat} {u t : State} {a0} (he : execSwyTickWrite a0 u = .next t) (hP : Fits 0xffffffb00000007fffffffffffffffffffffffffffffffffffffffffffffffffffffffffffffffffff P) : Keeps P u t := by
  unfold execSwyTickWrite at he
  injection he with he
  subst he
  repeat' (first
    | with_reducible exact Keeps.refl P u
    | with_reducible assumption
    | dsimp -zeta only
    | with_reducible refine keeps_rowWrite (hP.sub rfl) ?_
    | intro _
    | with_reducible refine keeps_ite ?_ ?_
    | with_reducible refine keeps_ite_fst ?_ ?_
    | with_reducible refine keeps_pair (by assumption) ?_
    | split
    | fail_if_no_progress extract_lets
    | dsimp +zetaDelta only)

theorem keeps_execDptQCtlWrite {P : Nat} {u t : State} {a0 a1} (he : execDptQCtlWrite a0 a1 u = .next t) (hP : Fits 0xffffffb00000007fffffffffffffffffffffffffffffffffffffffffffffffffffffffffffffffffff P) : Keeps P u t := by
  unfold execDptQCtlWrite at he
  injection he with he
  subst he
  repeat' (first
    | with_reducible exact Keeps.refl P u
    | with_reducible assumption
    | dsimp -zeta only
    | with_reducible refine keeps_rowWrite (hP.sub rfl) ?_
    | intro _
    | with_reducible refine keeps_ite ?_ ?_
    | with_reducible refine keeps_ite_fst ?_ ?_
    | with_reducible refine keeps_pair (by assumption) ?_
    | split
    | fail_if_no_progress extract_lets
    | dsimp +zetaDelta only)

theorem keeps_execWlnHalt {P : Nat} {u t : State} (he : execWlnHalt u = .next t) (hP : Fits 0xffffffb00000007fffffffffffffffffffffffffffffffffffffffffffffffffffffffffffffffffff P) : Keeps P u t := by
  unfold execWlnHalt at he
  injection he with he
  subst he
  repeat' (first
    | with_reducible exact Keeps.refl P u
    | with_reducible assumption
    | dsimp -zeta only
    | with_reducible refine keeps_rowWrite (hP.sub rfl) ?_
    | intro _
    | with_reducible refine keeps_ite ?_ ?_
    | with_reducible refine keeps_ite_fst ?_ ?_
    | with_reducible refine keeps_pair (by assumption) ?_
    | split
    | fail_if_no_progress extract_lets
    | dsimp +zetaDelta only)

theorem keeps_execWlnGo {P : Nat} {u t : State} (he : execWlnGo u = .next t) (hP : Fits 0xffffffb00000007fffffffffffffffffffffffffffffffffffffffffffffffffffffffffffffffffff P) : Keeps P u t := by
  unfold execWlnGo at he
  injection he with he
  subst he
  repeat' (first
    | with_reducible exact Keeps.refl P u
    | with_reducible assumption
    | dsimp -zeta only
    | with_reducible refine keeps_rowWrite (hP.sub rfl) ?_
    | intro _
    | with_reducible refine keeps_ite ?_ ?_
    | with_reducible refine keeps_ite_fst ?_ ?_
    | with_reducible refine keeps_pair (by assumption) ?_
    | split
    | fail_if_no_progress extract_lets
    | dsimp +zetaDelta only)

theorem keeps_execWlnAggWrite {P : Nat} {u t : State} {a0} (he : execWlnAggWrite a0 u = .next t) (hP : Fits 0xffffffb00000007fffffffffffffffffffffffffffffffffffffffffffffffffffffffffffffffffff P) : Keeps P u t := by
  unfold execWlnAggWrite at he
  injection he with he
  subst he
  repeat' (first
    | with_reducible exact Keeps.refl P u
    | with_reducible assumption
    | dsimp -zeta only
    | with_reducible refine keeps_rowWrite (hP.sub rfl) ?_
    | intro _
    | with_reducible refine keeps_ite ?_ ?_
    | with_reducible refine keeps_ite_fst ?_ ?_
    | with_reducible refine keeps_pair (by assumption) ?_
    | split
    | fail_if_no_progress extract_lets
    | dsimp +zetaDelta only)

theorem keeps_execBncBlkReset {P : Nat} {u t : State} {a0} (he : execBncBlkReset a0 u = .next t) (hP : Fits 0xffffffb00000007fffffffffffffffffffffffffffffffffffffffffffffffffffffffffffffffffff P) : Keeps P u t := by
  unfold execBncBlkReset at he
  injection he with he
  subst he
  repeat' (first
    | with_reducible exact Keeps.refl P u
    | with_reducible assumption
    | dsimp -zeta only
    | with_reducible refine keeps_rowWrite (hP.sub rfl) ?_
    | intro _
    | with_reducible refine keeps_ite ?_ ?_
    | with_reducible refine keeps_ite_fst ?_ ?_
    | with_reducible refine keeps_pair (by assumption) ?_
    | split
    | fail_if_no_progress extract_lets
    | dsimp +zetaDelta only)

theorem keeps_execRegisterRead {P : Nat} {u t : State} {a0 a1} (he : execRegisterRead a0 a1 u = .next t) (hP : Fits 0xffffffb00000007fffffffffffffffffffffffffffffffffffffffffffffffffffffffffffffffffff P) : Keeps P u t := by
  unfold execRegisterRead at he
  injection he with he
  subst he
  repeat' (first
    | with_reducible exact Keeps.refl P u
    | with_reducible assumption
    | dsimp -zeta only
    | with_reducible refine keeps_doRegisterRead (hP.sub rfl) ?_
    | intro _
    | with_reducible refine keeps_ite ?_ ?_
    | with_reducible refine keeps_ite_fst ?_ ?_
    | with_reducible refine keeps_pair (by assumption) ?_
    | split
    | fail_if_no_progress extract_lets
    | dsimp +zetaDelta only)

end Sys2Proof.Machine
end

