-- ==== Sys2Proof/Laws/KeepsForward.lean ====
section
/-! SUPPORT. What each operation of Machine/Forward.lean may change, and that it keeps the invariant: one law for each. -/

set_option linter.unreachableTactic false
set_option linter.unusedTactic false

namespace Sys2Proof.Machine

theorem keeps_bodyOf {P : Nat} {s u : State} {a0 a1} (hP : Fits 0xffffffb00000007fffffffffffffffffffffffffffffffffffffffffffffffffffffffffffffffffff P) (h : Keeps P s u) :
    Keeps P s (bodyOf a0 a1 u).1 := by
  unfold bodyOf
  repeat' (first
    | with_reducible exact h
    | with_reducible assumption
    | dsimp -zeta only
    | with_reducible refine keeps_bodySextantSelfcheck (hP.sub rfl) ?_
    | with_reducible refine keeps_bodySextantSelfcheck_eq (by assumption) (hP.sub rfl) ?_
    | with_reducible refine keeps_bodyAlmanacTemplate (hP.sub rfl) ?_
    | with_reducible refine keeps_bodyAlmanacTemplate_eq (by assumption) (hP.sub rfl) ?_
    | with_reducible refine keeps_bodyChartInvalidate (hP.sub rfl) ?_
    | with_reducible refine keeps_bodyChartInvalidate_eq (by assumption) (hP.sub rfl) ?_
    | with_reducible refine keeps_bodyMilestoneCancel (hP.sub rfl) ?_
    | with_reducible refine keeps_bodyMilestoneCancel_eq (by assumption) (hP.sub rfl) ?_
    | with_reducible refine keeps_bodyMicrocodeUnload (hP.sub rfl) ?_
    | with_reducible refine keeps_bodyMicrocodeUnload_eq (by assumption) (hP.sub rfl) ?_
    | with_reducible refine keeps_bodyMemSelfRefresh (hP.sub rfl) ?_
    | with_reducible refine keeps_bodyMemSelfRefresh_eq (by assumption) (hP.sub rfl) ?_
    | with_reducible refine keeps_bodyMeridianAdjust (hP.sub rfl) ?_
    | with_reducible refine keeps_bodyMeridianAdjust_eq (by assumption) (hP.sub rfl) ?_
    | with_reducible refine keeps_bodyWaylineForward (hP.sub rfl) ?_
    | with_reducible refine keeps_bodyWaylineForward_eq (by assumption) (hP.sub rfl) ?_
    | with_reducible refine keeps_bodyMeridianConfig (hP.sub rfl) ?_
    | with_reducible refine keeps_bodyMeridianConfig_eq (by assumption) (hP.sub rfl) ?_
    | with_reducible refine keeps_bodyMeridianEnable (hP.sub rfl) ?_
    | with_reducible refine keeps_bodyMeridianEnable_eq (by assumption) (hP.sub rfl) ?_
    | with_reducible refine keeps_bodySextantMeasure (hP.sub rfl) ?_
    | with_reducible refine keeps_bodySextantMeasure_eq (by assumption) (hP.sub rfl) ?_
    | with_reducible refine keeps_bodyAlmanacDeskew (hP.sub rfl) ?_
    | with_reducible refine keeps_bodyAlmanacDeskew_eq (by assumption) (hP.sub rfl) ?_
    | with_reducible refine keeps_bodyMicrocodeLoad (hP.sub rfl) ?_
    | with_reducible refine keeps_bodyMicrocodeLoad_eq (by assumption) (hP.sub rfl) ?_
    | with_reducible refine keeps_bodyMilestonePost (hP.sub rfl) ?_
    | with_reducible refine keeps_bodyMilestonePost_eq (by assumption) (hP.sub rfl) ?_
    | with_reducible refine keeps_bodyDmaChannelSet (hP.sub rfl) ?_
    | with_reducible refine keeps_bodyDmaChannelSet_eq (by assumption) (hP.sub rfl) ?_
    | with_reducible refine keeps_bodyMemChRecover (hP.sub rfl) ?_
    | with_reducible refine keeps_bodyMemChRecover_eq (by assumption) (hP.sub rfl) ?_
    | with_reducible refine keeps_bodyChartAbandon (hP.sub rfl) ?_
    | with_reducible refine keeps_bodyChartAbandon_eq (by assumption) (hP.sub rfl) ?_
    | with_reducible refine keeps_bodyAlmanacCheck (hP.sub rfl) ?_
    | with_reducible refine keeps_bodyAlmanacCheck_eq (by assumption) (hP.sub rfl) ?_
    | with_reducible refine keeps_bodyWaylinePort (hP.sub rfl) ?_
    | with_reducible refine keeps_bodyWaylinePort_eq (by assumption) (hP.sub rfl) ?_
    | with_reducible refine keeps_bodyMemSegClear (hP.sub rfl) ?_
    | with_reducible refine keeps_bodyMemSegClear_eq (by assumption) (hP.sub rfl) ?_
    | with_reducible refine keeps_bodyMeridianSet (hP.sub rfl) ?_
    | with_reducible refine keeps_bodyMeridianSet_eq (by assumption) (hP.sub rfl) ?_
    | with_reducible refine keeps_bodyJobUndefine (hP.sub rfl) ?_
    | with_reducible refine keeps_bodyJobUndefine_eq (by assumption) (hP.sub rfl) ?_
    | with_reducible refine keeps_bodyConvoyLeave (hP.sub rfl) ?_
    | with_reducible refine keeps_bodyConvoyLeave_eq (by assumption) (hP.sub rfl) ?_
    | with_reducible refine keeps_bodyAdcSequence (hP.sub rfl) ?_
    | with_reducible refine keeps_bodyAdcSequence_eq (by assumption) (hP.sub rfl) ?_
    | with_reducible refine keeps_bodyWaylineSend (hP.sub rfl) ?_
    | with_reducible refine keeps_bodyWaylineSend_eq (by assumption) (hP.sub rfl) ?_
    | with_reducible refine keeps_bodyAlmanacLoad (hP.sub rfl) ?_
    | with_reducible refine keeps_bodyAlmanacLoad_eq (by assumption) (hP.sub rfl) ?_
    | with_reducible refine keeps_bodyPowerDomain (hP.sub rfl) ?_
    | with_reducible refine keeps_bodyPowerDomain_eq (by assumption) (hP.sub rfl) ?_
    | with_reducible refine keeps_bodyThermalSet (hP.sub rfl) ?_
    | with_reducible refine keeps_bodyThermalSet_eq (by assumption) (hP.sub rfl) ?_
    | with_reducible refine keeps_bodyScriptLoad (hP.sub rfl) ?_
    | with_reducible refine keeps_bodyScriptLoad_eq (by assumption) (hP.sub rfl) ?_
    | with_reducible refine keeps_bodyAdcTrigger (hP.sub rfl) ?_
    | with_reducible refine keeps_bodyAdcTrigger_eq (by assumption) (hP.sub rfl) ?_
    | with_reducible refine keeps_bodyChartRetry (hP.sub rfl) ?_
    | with_reducible refine keeps_bodyChartRetry_eq (by assumption) (hP.sub rfl) ?_
    | with_reducible refine keeps_bodyChartUnmap (hP.sub rfl) ?_
    | with_reducible refine keeps_bodyChartUnmap_eq (by assumption) (hP.sub rfl) ?_
    | with_reducible refine keeps_bodyTrapResume (hP.sub rfl) ?_
    | with_reducible refine keeps_bodyTrapResume_eq (by assumption) (hP.sub rfl) ?_
    | with_reducible refine keeps_bodyRingDelete (hP.sub rfl) ?_
    | with_reducible refine keeps_bodyRingDelete_eq (by assumption) (hP.sub rfl) ?_
    | with_reducible refine keeps_bodyRingCreate (hP.sub rfl) ?_
    | with_reducible refine keeps_bodyRingCreate_eq (by assumption) (hP.sub rfl) ?_
    | with_reducible refine keeps_bodyMemMapSet (hP.sub rfl) ?_
    | with_reducible refine keeps_bodyMemMapSet_eq (by assumption) (hP.sub rfl) ?_
    | with_reducible refine keeps_bodyPinConfig (hP.sub rfl) ?_
    | with_reducible refine keeps_bodyPinConfig_eq (by assumption) (hP.sub rfl) ?_
    | with_reducible refine keeps_bodyJobDefine (hP.sub rfl) ?_
    | with_reducible refine keeps_bodyJobDefine_eq (by assumption) (hP.sub rfl) ?_
    | with_reducible refine keeps_bodyScriptCtl (hP.sub rfl) ?_
    | with_reducible refine keeps_bodyScriptCtl_eq (by assumption) (hP.sub rfl) ?_
    | with_reducible refine keeps_bodyPinLevels (hP.sub rfl) ?_
    | with_reducible refine keeps_bodyPinLevels_eq (by assumption) (hP.sub rfl) ?_
    | with_reducible refine keeps_bodyRouteLoad (hP.sub rfl) ?_
    | with_reducible refine keeps_bodyRouteLoad_eq (by assumption) (hP.sub rfl) ?_
    | with_reducible refine keeps_bodyAdcInject (hP.sub rfl) ?_
    | with_reducible refine keeps_bodyAdcInject_eq (by assumption) (hP.sub rfl) ?_
    | with_reducible refine keeps_bodyAspaceSet (hP.sub rfl) ?_
    | with_reducible refine keeps_bodyAspaceSet_eq (by assumption) (hP.sub rfl) ?_
    | with_reducible refine keeps_bodyAcqStats (hP.sub rfl) ?_
    | with_reducible refine keeps_bodyAcqStats_eq (by assumption) (hP.sub rfl) ?_
    | with_reducible refine keeps_bodyMemTrain (hP.sub rfl) ?_
    | with_reducible refine keeps_bodyMemTrain_eq (by assumption) (hP.sub rfl) ?_
    | with_reducible refine keeps_bodySiteDrop (hP.sub rfl) ?_
    | with_reducible refine keeps_bodySiteDrop_eq (by assumption) (hP.sub rfl) ?_
    | with_reducible refine keeps_bodyRegBatch (hP.sub rfl) ?_
    | with_reducible refine keeps_bodyRegBatch_eq (by assumption) (hP.sub rfl) ?_
    | with_reducible refine keeps_bodyJobStart (hP.sub rfl) ?_
    | with_reducible refine keeps_bodyJobStart_eq (by assumption) (hP.sub rfl) ?_
    | with_reducible refine keeps_bodyDdsStart (hP.sub rfl) ?_
    | with_reducible refine keeps_bodyDdsStart_eq (by assumption) (hP.sub rfl) ?_
    | with_reducible refine keeps_bodyChartMap (hP.sub rfl) ?_
    | with_reducible refine keeps_bodyChartMap_eq (by assumption) (hP.sub rfl) ?_
    | with_reducible refine keeps_bodySiteMask (hP.sub rfl) ?_
    | with_reducible refine keeps_bodySiteMask_eq (by assumption) (hP.sub rfl) ?_
    | with_reducible refine keeps_bodyPinClear (hP.sub rfl) ?_
    | with_reducible refine keeps_bodyPinClear_eq (by assumption) (hP.sub rfl) ?_
    | with_reducible refine keeps_bodyAbortAll (hP.sub rfl) ?_
    | with_reducible refine keeps_bodyAbortAll_eq (by assumption) (hP.sub rfl) ?_
    | with_reducible refine keeps_bodyDdsStop (hP.sub rfl) ?_
    | with_reducible refine keeps_bodyDdsStop_eq (by assumption) (hP.sub rfl) ?_
    | with_reducible refine keeps_bodyDdsLoad (hP.sub rfl) ?_
    | with_reducible refine keeps_bodyDdsLoad_eq (by assumption) (hP.sub rfl) ?_
    | with_reducible refine keeps_bodyPinSite (hP.sub rfl) ?_
    | with_reducible refine keeps_bodyPinSite_eq (by assumption) (hP.sub rfl) ?_
    | with_reducible refine keeps_bodyTakeFix (hP.sub rfl) ?_
    | with_reducible refine keeps_bodyTakeFix_eq (by assumption) (hP.sub rfl) ?_
    | with_reducible refine keeps_bodyAcqStop (hP.sub rfl) ?_
    | with_reducible refine keeps_bodyAcqStop_eq (by assumption) (hP.sub rfl) ?_
    | with_reducible refine keeps_bodyHaltJob (hP.sub rfl) ?_
    | with_reducible refine keeps_bodyHaltJob_eq (by assumption) (hP.sub rfl) ?_
    | with_reducible refine keeps_bodyPinPmu (hP.sub rfl) ?_
    | with_reducible refine keeps_bodyPinPmu_eq (by assumption) (hP.sub rfl) ?_
    | with_reducible refine keeps_bodyMuster (hP.sub rfl) ?_
    | with_reducible refine keeps_bodyMuster_eq (by assumption) (hP.sub rfl) ?_
    | with_reducible refine keeps_bodyAcqArm (hP.sub rfl) ?_
    | with_reducible refine keeps_bodyAcqArm_eq (by assumption) (hP.sub rfl) ?_
    | with_reducible refine keeps_bodyDdsPin (hP.sub rfl) ?_
    | with_reducible refine keeps_bodyDdsPin_eq (by assumption) (hP.sub rfl) ?_
    | with_reducible refine keeps_bodyNop (hP.sub rfl) ?_
    | with_reducible refine keeps_bodyNop_eq (by assumption) (hP.sub rfl) ?_
    | with_reducible refine keeps_fail (hP.sub rfl) ?_
    | with_reducible refine keeps_fail_eq (by assumption) (hP.sub rfl) ?_
    | intro _
    | with_reducible refine keeps_ite ?_ ?_
    | with_reducible refine keeps_ite_fst ?_ ?_
    | with_reducible refine keeps_pair (by assumption) ?_
    | split
    | fail_if_no_progress extract_lets
    | dsimp +zetaDelta only)

theorem keeps_bodyOf_eq {P : Nat} {s u v : State} {a0 a1} {x} (he : bodyOf a0 a1 u = (v, x)) (hP : Fits 0xffffffb00000007fffffffffffffffffffffffffffffffffffffffffffffffffffffffffffffffffff P)
    (h : Keeps P s u) : Keeps P s v := by
  have h1 := keeps_bodyOf (a0 := a0) (a1 := a1) hP h
  rw [he] at h1
  exact h1

theorem keeps_performOp {P : Nat} {s u : State} {a1 a2 a3} (hP : Fits 0xffffffb00000007fffffffffffffffffffffffffffffffffffffffffffffffffffffffffffffffffff P) (h : Keeps P s u) :
    Keeps P s (State.performOp u a1 a2 a3) := by
  unfold State.performOp
  repeat' (first
    | with_reducible exact h
    | with_reducible assumption
    | dsimp -zeta only
    | with_reducible refine keeps_musterStarted (hP.sub rfl) ?_
    | with_reducible refine keeps_perform (hP.sub rfl) ?_ ?_
    | with_reducible refine keeps_bodyOf (hP.sub rfl) ?_
    | with_reducible refine keeps_bodyOf_eq (by assumption) (hP.sub rfl) ?_
    | intro _
    | with_reducible refine keeps_ite ?_ ?_
    | with_reducible refine keeps_ite_fst ?_ ?_
    | with_reducible refine keeps_pair (by assumption) ?_
    | split
    | fail_if_no_progress extract_lets
    | dsimp +zetaDelta only)

theorem keeps_beginOne_eq {P : Nat} {s u v : State} {x} (he : State.beginOne u x = some v) (hP : Fits 0xffffffb00000007fffffffffffffffffffffffffffffffffffffffffffffffffffffffffffffffffff P)
    (h : Keeps P s u) : Keeps P s v := by
  have hd : Keeps P s { u with helm := { u.helm with forwarded := u.helm.forwarded.filter (fun y => y != x) } } :=
    keeps_helm hP rfl h rfl rfl
  unfold State.beginOne at he
  dsimp only at he
  split at he
  · simp only [Option.some.injEq] at he
    rw [← he]
    exact keeps_replyFlit (hP.sub rfl) hd
  · split at he
    · simp at he
    · simp only [Option.some.injEq] at he
      rw [← he]
      exact keeps_performOp (hP.sub rfl) hd

theorem keeps_beginForwardedFrom {P : Nat} {s u : State} {a1 a2} (hP : Fits 0xffffffb00000007fffffffffffffffffffffffffffffffffffffffffffffffffffffffffffffffffff P) (h : Keeps P s u) :
    Keeps P s (State.beginForwardedFrom u a1 a2) := by
  induction a2 generalizing u a1 with
  | nil =>
    unfold State.beginForwardedFrom
    repeat' (first
      | with_reducible exact h
      | with_reducible assumption
      | dsimp -zeta only
      | with_reducible refine keeps_beginOne_eq (by assumption) (hP.sub rfl) ?_
      | intro _
      | with_reducible refine keeps_ite ?_ ?_
      | with_reducible refine keeps_ite_fst ?_ ?_
      | with_reducible refine keeps_pair (by assumption) ?_
      | split
      | fail_if_no_progress extract_lets
      | dsimp +zetaDelta only)
  | cons x r ih =>
    unfold State.beginForwardedFrom
    repeat' (first
      | with_reducible exact h
      | with_reducible assumption
      | dsimp -zeta only
      | with_reducible apply ih
      | with_reducible refine keeps_beginOne_eq (by assumption) (hP.sub rfl) ?_
      | intro _
      | with_reducible refine keeps_ite ?_ ?_
      | with_reducible refine keeps_ite_fst ?_ ?_
      | with_reducible refine keeps_pair (by assumption) ?_
      | split
      | fail_if_no_progress extract_lets
      | dsimp +zetaDelta only)

theorem keeps_beginForwarded {P : Nat} {s u : State} (hP : Fits 0xffffffb00000007fffffffffffffffffffffffffffffffffffffffffffffffffffffffffffffffffff P) (h : Keeps P s u) :
    Keeps P s (State.beginForwarded u) := by
  unfold State.beginForwarded
  repeat' (first
    | with_reducible exact h
    | with_reducible assumption
    | dsimp -zeta only
    | with_reducible refine keeps_beginForwardedFrom (hP.sub rfl) ?_
    | intro _
    | with_reducible refine keeps_ite ?_ ?_
    | with_reducible refine keeps_ite_fst ?_ ?_
    | with_reducible refine keeps_pair (by assumption) ?_
    | split
    | fail_if_no_progress extract_lets
    | dsimp +zetaDelta only)

theorem keeps_queueForward {P : Nat} {s u : State} {a1} (hP : Fits 0x800000000000000000000000000000000000000000000000000000000000000000000000000000 P) (h : Keeps P s u) :
    Keeps P s (State.queueForward u a1) := by
  unfold State.queueForward
  repeat' (first
    | with_reducible exact h
    | with_reducible assumption
    | dsimp -zeta only
    | intro _
    | with_reducible refine keeps_ite ?_ ?_
    | with_reducible refine keeps_ite_fst ?_ ?_
    | with_reducible refine keeps_pair (by assumption) ?_
    | split
    | fail_if_no_progress extract_lets
    | fail_if_no_progress with_reducible refine keeps_helm hP rfl ?_ rfl rfl
    | dsimp +zetaDelta only)

theorem keeps_takeForward {P : Nat} {s u : State} {a0 a1} (hP : Fits 0xffffffb00000007fffffffffffffffffffffffffffffffffffffffffffffffffffffffffffffffffff P) (h : Keeps P s u) :
    Keeps P s (State.takeForward a0 a1 u) := by
  unfold State.takeForward
  repeat' (first
    | with_reducible exact h
    | with_reducible assumption
    | dsimp -zeta only
    | with_reducible refine keeps_beginForwarded (hP.sub rfl) ?_
    | with_reducible refine keeps_queueForward (hP.sub rfl) ?_
    | with_reducible refine keeps_performOp (hP.sub rfl) ?_
    | with_reducible refine keeps_countFix (hP.sub rfl) ?_
    | with_reducible refine keeps_conclude (hP.sub rfl) ?_
    | with_reducible refine keeps_owe (hP.sub rfl) ?_
    | intro _
    | with_reducible refine keeps_ite ?_ ?_
    | with_reducible refine keeps_ite_fst ?_ ?_
    | with_reducible refine keeps_pair (by assumption) ?_
    | split
    | fail_if_no_progress extract_lets
    | dsimp +zetaDelta only)

theorem keeps_doFwdCmd {P : Nat} {s u : State} {a1 a2} (hP : Fits 0xffffffb00000007fffffffffffffffffffffffffffffffffffffffffffffffffffffffffffffffffff P) (h : Keeps P s u) :
    Keeps P s (State.doFwdCmd u a1 a2) := by
  unfold State.doFwdCmd
  repeat' (first
    | with_reducible exact h
    | with_reducible assumption
    | dsimp -zeta only
    | with_reducible refine keeps_takeForward (hP.sub rfl) ?_
    | with_reducible refine keeps_onFlit (hP.sub rfl) ?_ ?_
    | intro _
    | with_reducible refine keeps_ite ?_ ?_
    | with_reducible refine keeps_ite_fst ?_ ?_
    | with_reducible refine keeps_pair (by assumption) ?_
    | split
    | fail_if_no_progress extract_lets
    | dsimp +zetaDelta only)

theorem keeps_commitPacket {P : Nat} {s u : State} {a1 a2} (hP : Fits 0xffffffb00000007fffffffffffffffffffffffffffffffffffffffffffffffffffffffffffffffffff P) (h : Keeps P s u) :
    Keeps P s (State.commitPacket u a1 a2) := by
  unfold State.commitPacket
  repeat' (first
    | with_reducible exact h
    | with_reducible assumption
    | dsimp -zeta only
    | with_reducible refine keeps_runPrompt (hP.sub rfl) ?_ ?_
    | with_reducible refine keeps_admitPkt (hP.sub rfl) ?_
    | with_reducible refine keeps_admitPkt_eq (by assumption) (hP.sub rfl) ?_
    | with_reducible refine keeps_enqueue (hP.sub rfl) ?_
    | with_reducible refine keeps_bodyOf (hP.sub rfl) ?_
    | with_reducible refine keeps_bodyOf_eq (by assumption) (hP.sub rfl) ?_
    | intro _
    | with_reducible refine keeps_ite ?_ ?_
    | with_reducible refine keeps_ite_fst ?_ ?_
    | with_reducible refine keeps_pair (by assumption) ?_
    | split
    | fail_if_no_progress extract_lets
    | dsimp +zetaDelta only)

theorem keeps_doCplConsumed {P : Nat} {s u : State} {a1 a2} (hP : Fits 0x1000000000000000000000000000000000000000000000000 P) (h : Keeps P s u) :
    Keeps P s (State.doCplConsumed u a1 a2) := by
  unfold State.doCplConsumed
  repeat' (first
    | with_reducible exact h
    | with_reducible assumption
    | dsimp -zeta only
    | with_reducible refine keeps_fput hP rfl ?_
    | intro _
    | with_reducible refine keeps_ite ?_ ?_
    | with_reducible refine keeps_ite_fst ?_ ?_
    | with_reducible refine keeps_pair (by assumption) ?_
    | split
    | fail_if_no_progress extract_lets
    | dsimp +zetaDelta only)

theorem keeps_doDoorbellPage {P : Nat} {s u : State} {a1 a2 a3} (hP : Fits 0xffffffb00000007fffffffffffffffffffffffffffffffffffffffffffffffffffffffffffffffffff P) (h : Keeps P s u) :
    Keeps P s (State.doDoorbellPage u a1 a2 a3) := by
  unfold State.doDoorbellPage
  repeat' (first
    | with_reducible exact h
    | with_reducible assumption
    | dsimp -zeta only
    | with_reducible refine keeps_doCplConsumed (hP.sub rfl) ?_
    | with_reducible refine keeps_commitPacket (hP.sub rfl) ?_
    | with_reducible refine keeps_setRing hP rfl ?_ (fun h => h)
    | with_reducible refine keeps_setRing hP rfl ?_ (fun _ => by simp)
    | with_reducible refine keeps_setRing hP rfl ?_ (fun h => by simpa using h)
    | intro _
    | with_reducible refine keeps_ite ?_ ?_
    | with_reducible refine keeps_ite_fst ?_ ?_
    | with_reducible refine keeps_pair (by assumption) ?_
    | split
    | fail_if_no_progress extract_lets
    | dsimp +zetaDelta only)

theorem keeps_ringBell {P : Nat} {s u : State} {a1 a2} (hP : Fits 0xffffffb00000007fffffffffffffffffffffffffffffffffffffffffffffffffffffffffffffffffff P) (h : Keeps P s u) :
    Keeps P s (State.ringBell u a1 a2) := by
  unfold State.ringBell
  repeat' (first
    | with_reducible exact h
    | with_reducible assumption
    | dsimp -zeta only
    | with_reducible refine keeps_doDoorbellPage (hP.sub rfl) ?_
    | with_reducible refine keeps_doFixDoorbell (hP.sub rfl) ?_
    | with_reducible refine keeps_queuePage (hP.sub rfl) ?_
    | intro _
    | with_reducible refine keeps_ite ?_ ?_
    | with_reducible refine keeps_ite_fst ?_ ?_
    | with_reducible refine keeps_pair (by assumption) ?_
    | split
    | fail_if_no_progress extract_lets
    | dsimp +zetaDelta only)

theorem keeps_arriveBell {P : Nat} {s u : State} {a1 a2} (hP : Fits 0xffffffb00000007fffffffffffffffffffffffffffffffffffffffffffffffffffffffffffffffffff P) (h : Keeps P s u) :
    Keeps P s (State.arriveBell u a1 a2) := by
  unfold State.arriveBell
  repeat' (first
    | with_reducible exact h
    | with_reducible assumption
    | dsimp -zeta only
    | with_reducible refine keeps_accessErr (hP.sub rfl) ?_
    | with_reducible refine keeps_ringBell (hP.sub rfl) ?_
    | intro _
    | with_reducible refine keeps_ite ?_ ?_
    | with_reducible refine keeps_ite_fst ?_ ?_
    | with_reducible refine keeps_pair (by assumption) ?_
    | split
    | fail_if_no_progress extract_lets
    | fail_if_no_progress with_reducible refine keeps_hostPort hP rfl ?_ rfl rfl rfl rfl rfl
    | dsimp +zetaDelta only)

theorem keeps_bellRow {P : Nat} {s u : State} {a1 a2} (hP : Fits 0xffffffb00000007fffffffffffffffffffffffffffffffffffffffffffffffffffffffffffffffffff P) (h : Keeps P s u) :
    Keeps P s (State.bellRow u a1 a2) := by
  unfold State.bellRow
  repeat' (first
    | with_reducible exact h
    | with_reducible assumption
    | dsimp -zeta only
    | with_reducible refine keeps_arriveBell (hP.sub rfl) ?_
    | intro _
    | with_reducible refine keeps_ite ?_ ?_
    | with_reducible refine keeps_ite_fst ?_ ?_
    | with_reducible refine keeps_pair (by assumption) ?_
    | split
    | fail_if_no_progress extract_lets
    | dsimp +zetaDelta only)

theorem keeps_doDoorbellRelease {P : Nat} {s u : State} (hP : Fits 0xffffffb00000007fffffffffffffffffffffffffffffffffffffffffffffffffffffffffffffffffff P) (h : Keeps P s u) :
    Keeps P s (State.doDoorbellRelease u) := by
  unfold State.doDoorbellRelease
  repeat' (first
    | with_reducible exact h
    | with_reducible assumption
    | dsimp -zeta only
    | with_reducible refine keeps_ringBell (hP.sub rfl) ?_
    | intro _
    | with_reducible refine keeps_ite ?_ ?_
    | with_reducible refine keeps_ite_fst ?_ ?_
    | with_reducible refine keeps_pair (by assumption) ?_
    | split
    | fail_if_no_progress extract_lets
    | fail_if_no_progress with_reducible refine keeps_hostPort hP rfl ?_ rfl rfl rfl rfl rfl
    | dsimp +zetaDelta only)

theorem keeps_doRegisterWrite {P : Nat} {s u : State} {a1 a2 a3} (hP : Fits 0xffffffb00000007fffffffffffffffffffffffffffffffffffffffffffffffffffffffffffffffffff P) (h : Keeps P s u) :
    Keeps P s (State.doRegisterWrite u a1 a2 a3) := by
  unfold State.doRegisterWrite
  repeat' (first
    | with_reducible exact h
    | with_reducible assumption
    | dsimp -zeta only
    | with_reducible refine keeps_arriveWrite (hP.sub rfl) ?_
    | with_reducible refine keeps_arriveBell (hP.sub rfl) ?_
    | with_reducible refine keeps_accessErr (hP.sub rfl) ?_
    | with_reducible refine keeps_bump hP rfl ?_
    | intro _
    | with_reducible refine keeps_ite ?_ ?_
    | with_reducible refine keeps_ite_fst ?_ ?_
    | with_reducible refine keeps_pair (by assumption) ?_
    | split
    | fail_if_no_progress extract_lets
    | dsimp +zetaDelta only)

theorem keeps_execRegisterWrite {P : Nat} {u t : State} {a0 a1 a2} (he : execRegisterWrite a0 a1 a2 u = .next t) (hP : Fits 0xffffffb00000007fffffffffffffffffffffffffffffffffffffffffffffffffffffffffffffffffff P) : Keeps P u t := by
  unfold execRegisterWrite at he
  injection he with he
  subst he
  repeat' (first
    | with_reducible exact Keeps.refl P u
    | with_reducible assumption
    | dsimp -zeta only
    | with_reducible refine keeps_doRegisterWrite (hP.sub rfl) ?_
    | intro _
    | with_reducible refine keeps_ite ?_ ?_
    | with_reducible refine keeps_ite_fst ?_ ?_
    | with_reducible refine keeps_pair (by assumption) ?_
    | split
    | fail_if_no_progress extract_lets
    | dsimp +zetaDelta only)

theorem keeps_execDoorbellRelease {P : Nat} {u t : State} (he : execDoorbellRelease u = .next t) (hP : Fits 0xffffffb00000007fffffffffffffffffffffffffffffffffffffffffffffffffffffffffffffffffff P) : Keeps P u t := by
  unfold execDoorbellRelease at he
  injection he with he
  subst he
  repeat' (first
    | with_reducible exact Keeps.refl P u
    | with_reducible assumption
    | dsimp -zeta only
    | with_reducible refine keeps_doDoorbellRelease (hP.sub rfl) ?_
    | intro _
    | with_reducible refine keeps_ite ?_ ?_
    | with_reducible refine keeps_ite_fst ?_ ?_
    | with_reducible refine keeps_pair (by assumption) ?_
    | split
    | fail_if_no_progress extract_lets
    | dsimp +zetaDelta only)

theorem keeps_execDoorbellPageWrite {P : Nat} {u t : State} {a0 a1 a2} (he : execDoorbellPageWrite a0 a1 a2 u = .next t) (hP : Fits 0xffffffb00000007fffffffffffffffffffffffffffffffffffffffffffffffffffffffffffffffffff P) : Keeps P u t := by
  unfold execDoorbellPageWrite at he
  injection he with he
  subst he
  repeat' (first
    | with_reducible exact Keeps.refl P u
    | with_reducible assumption
    | dsimp -zeta only
    | with_reducible refine keeps_bellRow (hP.sub rfl) ?_
    | intro _
    | with_reducible refine keeps_ite ?_ ?_
    | with_reducible refine keeps_ite_fst ?_ ?_
    | with_reducible refine keeps_pair (by assumption) ?_
    | split
    | fail_if_no_progress extract_lets
    | dsimp +zetaDelta only)

theorem keeps_execCplConsumedWrite {P : Nat} {u t : State} {a0 a1} (he : execCplConsumedWrite a0 a1 u = .next t) (hP : Fits 0xffffffb00000007fffffffffffffffffffffffffffffffffffffffffffffffffffffffffffffffffff P) : Keeps P u t := by
  unfold execCplConsumedWrite at he
  injection he with he
  subst he
  repeat' (first
    | with_reducible exact Keeps.refl P u
    | with_reducible assumption
    | dsimp -zeta only
    | with_reducible refine keeps_bellRow (hP.sub rfl) ?_
    | intro _
    | with_reducible refine keeps_ite ?_ ?_
    | with_reducible refine keeps_ite_fst ?_ ?_
    | with_reducible refine keeps_pair (by assumption) ?_
    | split
    | fail_if_no_progress extract_lets
    | dsimp +zetaDelta only)

theorem keeps_execFixDoorbell {P : Nat} {u t : State} {a0} (he : execFixDoorbell a0 u = .next t) (hP : Fits 0xffffffb00000007fffffffffffffffffffffffffffffffffffffffffffffffffffffffffffffffffff P) : Keeps P u t := by
  unfold execFixDoorbell at he
  injection he with he
  subst he
  repeat' (first
    | with_reducible exact Keeps.refl P u
    | with_reducible assumption
    | dsimp -zeta only
    | with_reducible refine keeps_bellRow (hP.sub rfl) ?_
    | intro _
    | with_reducible refine keeps_ite ?_ ?_
    | with_reducible refine keeps_ite_fst ?_ ?_
    | with_reducible refine keeps_pair (by assumption) ?_
    | split
    | fail_if_no_progress extract_lets
    | dsimp +zetaDelta only)

theorem keeps_execSwitchyardTick {P : Nat} {u t : State} (he : execSwitchyardTick u = .next t) (hP : Fits 0xffffffb00000007fffffffffffffffffffffffffffffffffffffffffffffffffffffffffffffffffff P) : Keeps P u t := by
  unfold execSwitchyardTick at he
  injection he with he
  subst he
  repeat' (first
    | with_reducible exact Keeps.refl P u
    | with_reducible assumption
    | dsimp -zeta only
    | with_reducible refine keeps_doSwitchyardTick (hP.sub rfl) ?_
    | with_reducible refine keeps_beginForwarded (hP.sub rfl) ?_
    | intro _
    | with_reducible refine keeps_ite ?_ ?_
    | with_reducible refine keeps_ite_fst ?_ ?_
    | with_reducible refine keeps_pair (by assumption) ?_
    | split
    | fail_if_no_progress extract_lets
    | dsimp +zetaDelta only)

theorem keeps_execQueueDoorbellWrite {P : Nat} {u t : State} {a0 a1 a2} (he : execQueueDoorbellWrite a0 a1 a2 u = .next t) (hP : Fits 0xffffffb00000007fffffffffffffffffffffffffffffffffffffffffffffffffffffffffffffffffff P) : Keeps P u t := by
  unfold execQueueDoorbellWrite at he
  injection he with he
  subst he
  repeat' (first
    | with_reducible exact Keeps.refl P u
    | with_reducible assumption
    | dsimp -zeta only
    | with_reducible refine keeps_bellRow (hP.sub rfl) ?_
    | intro _
    | with_reducible refine keeps_ite ?_ ?_
    | with_reducible refine keeps_ite_fst ?_ ?_
    | with_reducible refine keeps_pair (by assumption) ?_
    | split
    | fail_if_no_progress extract_lets
    | dsimp +zetaDelta only)

theorem keeps_execMirrorConsumedWrite {P : Nat} {u t : State} {a0 a1} (he : execMirrorConsumedWrite a0 a1 u = .next t) (hP : Fits 0xffffffb00000007fffffffffffffffffffffffffffffffffffffffffffffffffffffffffffffffffff P) : Keeps P u t := by
  unfold execMirrorConsumedWrite at he
  injection he with he
  subst he
  repeat' (first
    | with_reducible exact Keeps.refl P u
    | with_reducible assumption
    | dsimp -zeta only
    | with_reducible refine keeps_bellRow (hP.sub rfl) ?_
    | intro _
    | with_reducible refine keeps_ite ?_ ?_
    | with_reducible refine keeps_ite_fst ?_ ?_
    | with_reducible refine keeps_pair (by assumption) ?_
    | split
    | fail_if_no_progress extract_lets
    | dsimp +zetaDelta only)

theorem keeps_execFwdCmd {P : Nat} {u t : State} {a0 a1} (he : execFwdCmd a0 a1 u = .next t) (hP : Fits 0xffffffb00000007fffffffffffffffffffffffffffffffffffffffffffffffffffffffffffffffffff P) : Keeps P u t := by
  unfold execFwdCmd at he
  injection he with he
  subst he
  repeat' (first
    | with_reducible exact Keeps.refl P u
    | with_reducible assumption
    | dsimp -zeta only
    | with_reducible refine keeps_doFwdCmd (hP.sub rfl) ?_
    | intro _
    | with_reducible refine keeps_ite ?_ ?_
    | with_reducible refine keeps_ite_fst ?_ ?_
    | with_reducible refine keeps_pair (by assumption) ?_
    | split
    | fail_if_no_progress extract_lets
    | dsimp +zetaDelta only)

end Sys2Proof.Machine
end

