-- ==== Sys2Proof/Laws/Rules.lean ====
section
/-! SUPPORT. What single rules say of the operations that carry them. -/

namespace Sys2Proof.Machine

/-- A voltage on a pin moves its comparator and not its state (R62, R74). -/
theorem State.feelVoltage_pinState (s : State) (n m : Nat) (nv : Int) : (s.feelVoltage n nv).pinState m = s.pinState m := by
  unfold State.feelVoltage
  split
  · have h : ((s.setPin n { s.pin n with cmp := s.cmpAt n nv }).pin m).risen = (s.pin m).risen := by
      simp only [State.pin, State.setPin, nget_nset]
      split <;> simp_all
    unfold State.pinState
    rw [h]
    rfl
  · rfl

/-- After cold reset every Almanac entry is 0 (R113). -/
theorem State.reset_almEntry (set n : Nat) : State.reset.almEntry set n = 0 := rfl

/-- An all-zero entry passes every row of R98 for every vector period D (R113). -/
theorem rowOk_zero (d : Nat) (h : 0 < d) (r : CheckRow) : rowOk d 0 r = true := by
  cases r <;> simp [h, fracOne, rowOk, almDfmt, almE1, almE2, almE3, almE4, almE5, almWindow, edgeOk, bits, bitAt]

/-- The dispatch entry of a vendor opcode carries the table's row: valid, allowed in a leg and allowed between legs (R136, R167). -/
theorem vendorEntry_row (op : Nat) (o : OpInfo) (h : opInfo op = some o) :
    bitAt (vendorEntry op) 14 = true ∧ bitAt (vendorEntry op) 16 = o.inLeg ∧ bitAt (vendorEntry op) 17 = o.between := by
  simp only [vendorEntry, h, pack, bitAt, Nat.testBit_eq_decide_div_mod_eq]
  generalize (Config.vendorStore (dispKey op)).toNat = v
  generalize (if vendorFolds op = true then 1 else bits v 15 15) = f
  generalize (op == 0x27 || op == 0x41 || op == 0x42) = c
  generalize (op == 0x24 || op == 0x25 || op == 0x28 || op == 0x82) = m
  generalize (op == 0x27) = w
  generalize o.inLeg = i
  generalize o.between = b
  refine ⟨?_, ?_, ?_⟩ <;> cases c <;> cases m <;> cases w <;> cases i <;> cases b <;> simp [b2n] <;> omega

/-- An undefined opcode's dispatch entry is not valid (R136, R167). -/
theorem vendorEntry_undefined (op : Nat) (h : opInfo op = none) : vendorEntry op = 0 := by simp [vendorEntry, h]

end Sys2Proof.Machine
end

