-- ==== Sys2Proof/Machine/PciConfig.lean ====
section
/-! DEFINITION. The PCIe function's identity and capabilities as configuration space shows them, and its BARs (R1, R435, R437), and
the JTAG port: the TAP controller, when it is available, and which balls its chain scans (R476, R495). No row of the command table is
a configuration request or a TCK edge (assumption 78). -/

namespace Sys2Proof.Machine

/-! ### Configuration space (R435) -/

/-- The capabilities that the function presents (R435). -/
inductive PciCap where
  | express
  /-- Power Management, with the states it has -/
  | power (states : List PciPower)
  | msix (vectors : Nat)
  | aer
  | serial (number : Nat)
  deriving DecidableEq, Repr

/-- What the function does not support (R435). -/
inductive PciFeature where
  | msi | sriov | ats | pasid | flr | d1 | d2
  deriving DecidableEq, Repr

/-- The function as its configuration space presents it. -/
structure PciFunction where
  vendor : Nat
  device : Nat
  classCode : Nat
  revision : Nat
  caps : List PciCap
  absent : List PciFeature
  maxPayload : Nat
  maxReadRequest : Nat
  tagBits : Nat
  /-- non-posted requests that may be outstanding -/
  maxTags : Nat
  /-- the sizes of BAR0/1 and BAR2/3, and whether each is prefetchable (R437) -/
  bars : List (Nat × Bool)
  power : PciPower
  deriving DecidableEq, Repr

/-- The Device ID of the grade (R1, R435). -/
def State.pciDevice (s : State) : Nat := if s.fget fDEV_ID_grade = 1 then 0x4816 else 0x4824

/-- The serial number of the Device Serial Number capability: the low 64 bits of DEV_UID (R435). -/
def State.pciSerial (s : State) : Nat := (s.rd .DEV_UID).toNat % 2 ^ 64

/-- The configuration space of the function (R435, R437). -/
def State.pciFunction (s : State) : PciFunction :=
  { vendor := 0x1F7A, device := s.pciDevice, classCode := 0x118000, revision := s.fget fDEV_ID_stepping,
    caps := [.express, .power [.d0, .d3hot], .msix 2048, .aer, .serial s.pciSerial],
    absent := [.msi, .sriov, .ats, .pasid, .flr, .d1, .d2],
    maxPayload := 512, maxReadRequest := 4096, tagBits := 10, maxTags := 256,
    bars := [(2 ^ 26, false), (2 ^ 36, true)], power := s.host.power }

/-! ### JTAG (R476, R495) -/

/-- STRAP3 = 1 makes the TAP available; with 0 it is held in reset (R476, R495). -/
def State.tapEnabled (s : State) : Bool := bitAt s.bnc.straps 3

/-- The TAP controller after a rising edge of TCK with a level of TMS, as IEEE 1149.1 lays down (R495; PRESUMED, assumption 78). -/
def TapState.clock (t : TapState) (tms : Bool) : TapState :=
  match t with
  | .testLogicReset => if tms then .testLogicReset else .runTestIdle
  | .runTestIdle => if tms then .selectDr else .runTestIdle
  | .selectDr => if tms then .selectIr else .captureDr
  | .captureDr => if tms then .exit1Dr else .shiftDr
  | .shiftDr => if tms then .exit1Dr else .shiftDr
  | .exit1Dr => if tms then .updateDr else .pauseDr
  | .pauseDr => if tms then .exit2Dr else .pauseDr
  | .exit2Dr => if tms then .updateDr else .shiftDr
  | .updateDr => if tms then .selectDr else .runTestIdle
  | .selectIr => if tms then .testLogicReset else .captureIr
  | .captureIr => if tms then .exit1Ir else .shiftIr
  | .shiftIr => if tms then .exit1Ir else .shiftIr
  | .exit1Ir => if tms then .updateIr else .pauseIr
  | .pauseIr => if tms then .exit2Ir else .pauseIr
  | .exit2Ir => if tms then .updateIr else .shiftIr
  | .updateIr => if tms then .selectDr else .runTestIdle

/-- A rising edge of TCK: the TAP moves only where it is enabled; TRST_N low, or STRAP3 = 0, holds it in reset (R476, R495). -/
def State.tck (s : State) (tms trstN : Bool) : State :=
  { s with bnc := { s.bnc with tap := if s.tapEnabled ∧ trstN then s.bnc.tap.clock tms else .testLogicReset } }

/-- TDO is driven only while the enabled TAP shifts; with STRAP3 = 0 it is high-impedance (R476, R495). -/
def State.tdoDriven (s : State) : Bool := s.tapEnabled && (s.bnc.tap == .shiftDr || s.bnc.tap == .shiftIr)

/-- While the TAP is in reset the device operates normally (R495). -/
def State.tapIdle (s : State) : Bool := !s.tapEnabled || s.bnc.tap == .testLogicReset

/-- The kinds of balls (R495). -/
inductive BallKind where
  | waylineLane | pcieLane | ethernetLane | cmos18 | pin | abus | rsns
  deriving DecidableEq, Repr

/-- The standards that scan a ball. -/
inductive ScanStd where
  | ieee1149_1 | ieee1149_6
  deriving DecidableEq, Repr

/-- How a kind of ball is scanned; none is not in the chain, since scanning it would drive a DUT (R495). -/
def BallKind.scan : BallKind → Option ScanStd
  | .waylineLane | .pcieLane | .ethernetLane => some .ieee1149_6
  | .cmos18 => some .ieee1149_1
  | .pin | .abus | .rsns => none

end Sys2Proof.Machine
end

