-- ==== Sys2Proof/WellFormed.lean ====
section
/-! DEFINITION. Well-formed commands: what the types of the operands do not say. -/

namespace Sys2Proof

/-- A write carries at least one byte and at most a number that its window or PCIe allows (R438). -/
def bytesOk (most : Nat) (bs : List Byte) : Bool := decide (1 ≤ bs.length ∧ bs.length ≤ most)

/-- A request of the BAR2 window has a byte, lies in its 64 GiB (R356) and does not cross a 4 KiB boundary, as PCIe requires. -/
def spanOk (off : BitVec 36) (n : Nat) : Bool := decide (1 ≤ n ∧ off.toNat % 4096 + n ≤ 4096)

/-- A microword carries its row's SEQ operation in [191:188] (R155). -/
def seqOk (op : Nat) (w : BitVec 192) : Bool := w.toNat / 2 ^ 188 == op

/-- A flit's fields fit their bytes (R416), with the type and virtual channel of its row; a MUSTER flit alone carries a muster
message. -/
def flitOk (typ vc : Nat) (f : Flit) : Bool :=
  decide (f.typ = typ ∧ f.vc = vc ∧ f.seq < 65536 ∧ f.dst < 65536 ∧ f.src < 65536 ∧ f.ttl ≤ 8 ∧ f.xid < 65536 ∧ f.word < 65536 ∧
    f.payload.length ≤ 236) && (typ == 9 || f.muster.isNone)

/-- The operands of a command are what the spec lets them be. -/
def Instr.wf : Instr → Bool
  | .registerWrite _ bytes _ => bytesOk 4096 bytes
  | .bar2Read off len => spanOk off len.toNat
  | .bar2Write off bytes _ => bytesOk 4096 bytes && spanOk off bytes.length
  | .seqCont _ w => seqOk 0 w
  | .seqJump _ w => seqOk 1 w
  | .seqBranch _ w => seqOk 2 w
  | .seqMcall _ w => seqOk 3 w
  | .seqMret _ w => seqOk 4 w
  | .seqWait _ w => seqOk 5 w
  | .seqNext _ w => seqOk 6 w
  | .seqRbr _ w => seqOk 7 w
  | .seqMtab _ w => seqOk 8 w
  | .seqTrap _ w => seqOk 9 w
  | .almanacApertureWrite _ _ byte size _ => (size == 4 || size == 8) && byte.val % size.val == 0
  | .sextantEdge c _ _ voh => c.val < 48 || !voh
  | .doorbellPageWrite _ off bytes => bytesOk 4096 bytes && decide (off.toNat + bytes.length ≤ 4096)
  | .deadlineExpiry member sender _ => member || decide (sender.toNat < 256)
  | .queueDoorbellWrite _ off bytes => bytesOk 1024 bytes && decide (off.toNat + bytes.length ≤ 1024)
  | .trainReq _ _ v => v.toNat % 256 == 0
  | .trainStat _ _ v => v.toNat % 256 == 0
  | .msg _ f => flitOk 1 0 f
  | .msgAck _ f => flitOk 2 0 f
  | .fwdCmd _ f => flitOk 3 0 f
  | .fwdCpl _ f => flitOk 4 0 f
  | .bulkWr _ f => flitOk 5 1 f
  | .bulkRdReq _ f => flitOk 6 1 f
  | .bulkRdData _ f => flitOk 7 1 f
  | .bulkAck _ f => flitOk 8 1 f
  | .musterFlit _ f => flitOk 9 2 f && f.muster.isSome
  | .bootComplete status _ _ _ _ => decide (1 ≤ status.toNat ∧ status.toNat ≤ 8)
  | .thermalSample temp => decide (-32768 ≤ temp ∧ temp < 32768)
  | .registerRead _ size => size != 0
  | .immediateMilestone | .arbiterGrant _ | .fenceComplete _ | .writeQueueDrain _ | .doorbellRelease | .stride _
  | .vectorPeriod _ | .compareResultArrival _ _ _ | .nop _ | .vec _ _ | .rpt _ _ | .pad _ _ | .loop _ _ _ _ | .endl _ _
  | .jmp _ _ | .call _ _ | .ret _ | .failMark _ | .jmpFail _ _ _ | .jmpPass _ _ _ | .jmpInd _ _ | .jmpAbs _ _
  | .matchLoop _ _ _ _ _ | .aluSet _ _ _ | .aluAdd _ _ _ | .jmpAnz _ _ _ | .waitOdo _ _ _ | .msPost _ _ _ | .legendSel _ _
  | .tset _ _ | .waypt _ _ | .legStart _ _ | .endLeg _ _ | .capCtl _ _ _ _ | .ffailArm _ | .sxtWin _ _ _ _ | .sxtArm _ _ _
  | .ddsHop _ _ _ | .pvLoad _ _ _ | .pvXor _ _ _ | .pvCapt _ _ _ _ | .scan _ _ _ | .userOpcode _ _ _ | .seqWaitTimeout _
  | .controlStoreReload _ _ _ | .controlStoreScrub _ | .haltEntry _ | .siteQueueEntry _ | .legEnd _ | .jobRestore _
  | .relativeLegStart _ | .slipSyncEdge _ _ | .slipExpiry _ | .holdEnd _ | .holdLimit _ | .fillElement _ | .slotFill _
  | .playoutFetch _ | .captureBlockWrite _ | .captureMarker _ | .truncationMarker _ | .msLegStart _ | .msDdsHop _
  | .msDdsAdvance _ | .msDdsStart _ | .msDdsStop _ | .msSxtArm _ | .msSxtWindow _ | .msAcqTrigger _ | .msConverterTrigger _
  | .msWaylineLaunch _ | .msMsyncOut _ | .msGpio _ | .msDepotPost _ | .meridianLock _ _ | .bearingLost _ | .freqRangeExit _ _
  | .merCtlWrite _ _ _ | .merSnap _ | .overvoltage _ _ | .levelSettled _ | .stampDecision _ | .stampPost _ | .frequencyRunEnd _
  | .sxtWinCommit _ | .sxtChCtlWrite _ _ | .sxtMuCtlWrite _ _ | .selfCheckStart | .selfCheckDone _ | .dwellEnd _
  | .ddsListWrite _ _ _ | .sdOutput _ _ _ | .sarConversionDone _ _ | .converterResultPost | .adcTrigGo | .msyncInEdge _ _
  | .heldTrigger | .sarInjectRequest _ _ | .adcSdCfgWrite _ _ | .acqCtlWrite _ _ | .acqTrigGo _ | .acqRecord _ | .acqRearm _
  | .refreshStop | .refreshStopEnd _ | .stackTempRead _ | .parityAlert _ _ | .hbmScrub | .memoryWake _ | .selfRefreshExit
  | .memMapCtlWrite _ _ | .walkComplete _ _ _ _ | .chtInvGo | .dmaDescriptor _ | .granuleComplete _ _ | .dmaCompletion _
  | .dmaChCtlWrite _ _ | .cplConsumedWrite _ _ | .completionCommit _ | .moderationTimeout _ | .nopCommand _ | .ringCreate _
  | .ringDelete _ | .abortAll _ | .takeFix _ | .scriptLoad _ | .scriptCtl _ | .memMapSet _ | .memTrain _ | .memChRecover _
  | .memSelfRefresh _ | .memSegClear _ | .aspaceSet _ | .chartMap _ | .chartUnmap _ | .chartInvalidate _ | .chartRetry _
  | .chartAbandon _ | .dmaChannelSet _ | .routeLoad _ | .jobDefine _ | .jobStart _ | .haltJob _ | .siteMask _ | .siteDrop _
  | .trapResume _ | .jobUndefine _ | .pinLevels _ | .pinConfig _ | .pinPmu _ | .pinSite _ | .pinClear _ | .almanacTemplate _
  | .almanacLoad _ | .almanacCheck _ | .almanacDeskew _ | .sextantMeasure _ | .sextantSelfcheck _ | .adcSequence _
  | .adcTrigger _ | .adcInject _ | .acqArm _ | .acqStop _ | .acqStats _ | .ddsLoad _ | .ddsStart _ | .ddsStop _ | .ddsPin _
  | .meridianConfig _ | .meridianEnable _ | .meridianSet _ | .meridianAdjust _ | .milestonePost _ | .milestoneCancel _
  | .waylinePort _ | .waylineSend _ | .waylineForward _ | .muster _ | .convoyLeave _ | .microcodeLoad _ | .microcodeUnload _
  | .powerDomain _ | .thermalSet _ | .regBatch _ | .fixDoorbell _ | .fixWritten _ | .create _ _ _ | .delete _ _ | .setPrio _ _ _
  | .setFlags _ _ _ | .clearFlags _ _ | .wait _ _ _ _ _ | .delay _ _ | .yield _ | .post _ _ _ | .take _ _ | .exit _
  | .swyHSwitch _ | .switchyardTick | .delayExpiry _ | .swyTickWrite _ | .mirrorConsumedWrite _ _ | .mirrorWrite _
  | .spillRefill _ _ | .dptQCtlWrite _ _ | .blockLock _ _ | .lockLoss _ _ | .portUp _ | .trainTimeout _ | .idleQuietExpiry _
  | .idleEnter _ | .idleExit _ | .ack _ _ _ _ _ | .nak _ _ | .ackTimer _ | .replayTimeout _ | .halt _ _ _ | .go _ _ _
  | .agg _ _ _ | .timeReq _ _ _ _ | .timeT2 _ _ _ _ | .timeT3 _ _ _ | .timeExchangeTimer _ _ | .launch _ _ _
  | .bulkFaultTimeout _ | .musterOffsetTimeout | .musterRootTimeout | .musterVerdictTimeout | .wlnHalt | .wlnGo | .wlnAggWrite _
  | .ptpMessage _ _ _ _ | .syncTimeout | .ethTxElement | .ethLaunch | .telemetryTimer | .fixRequestDatagram _ _ _
  | .ethLinkChange _ | .msixUnmask _ _ | .pendingPowerDown _ | .powerUpDone _ | .powerGood _ | .coldReset _ | .warmReset
  | .perstDeassert | .bncBlkReset _ | .thermalTrip | .smbThmTemp | .smbThmState | .smbBncStatus | .smbPwrOn | .smbAlertResponse
  | .pmuClamp _ | .edgesReturn _ | .phaseOffsetRemoved _ | .flitCrcError _ _ | .badControlBlock _ | .fecCodeword _ _ => true

end Sys2Proof
end

