-- ==== Sys2Proof/Tests/Slice0.lean ====
section
/-! SUPPORT. The tests of the model and the witnesses of its statements: small states on which the hypotheses of each statement's
clauses hold together, and ill-formed commands that the checks refuse. -/

set_option Elab.async false
set_option maxRecDepth 100000
set_option exponentiation.threshold 5000
set_option linter.unusedVariables false

namespace Sys2Proof.Tests
open Sys2Proof.Machine

/-! ### The states that the tests start from -/

/-- A device that has booted: ready, every domain powered, the administration ring open. -/
def up : State :=
  ((((State.reset.fput fDEV_STATUS_ready 0 1).fput fPWR_ON_on 0 (2 ^ 36 - 1)).fput fHLM_RING_CFG_exists 0 1).fput fHLM_RING_CFG_cmd_log2 0 6).fput
    fHLM_ADM_MIRROR_en 0 1

/-- The same with expert rights on ring 0. -/
def expert : State := up.fput fHLM_RING_CFG_expert 0 1

/-- A pair is given by what it answers. -/
theorem pair_of {α β : Type} {p : α × β} {b : β} (h : p.2 = b) : p = (p.1, b) := by rw [← h]
/-- A triple is what it is. -/
theorem triple {α β γ : Type} {p : α × β × γ} : p = (p.1, p.2.1, p.2.2) := rfl
/-- A pair is a pair. -/
theorem couple {α β : Type} {p : α × β} : p = (p.1, p.2) := rfl
/-- What a read brought. -/
def Access'.got : Access' → List Byte
  | .done bs => bs
  | _ => []
theorem read_of {p : State × Access'} (h : (match p.2 with | .done _ => true | _ => false) = true) : p = (p.1, .done (Access'.got p.2)) := by
  obtain ⟨v, a⟩ := p
  cases a <;> simp_all [Access'.got]
/-- What a payload brought. -/
def Payload.got : Payload → List Byte
  | .bytes bs => bs
  | _ => []
theorem payload_of {p : State × Payload} (h : (match p.2 with | .bytes _ => true | _ => false) = true) :
    p = (p.1, .bytes (Payload.got p.2)) := by
  obtain ⟨v, a⟩ := p
  cases a <;> simp_all [Payload.got]

/-- A packet on ring 0 with a tag, no job, no flags, and its parameter area as one number. -/
def pk (params : Nat) (job : Nat := 0xFFFF) : Packet := ⟨0, 0, 7, BitVec.ofNat 16 job, 0, 0, 0, BitVec.ofNat 384 params⟩

/-! ### Pins -/

theorem witness_overvoltage : -1000 ≤ (2200 : Int) ∧ (2200 : Int) ≤ 2500 ∧ ((2200 : Int) < -600 ∨ 2100 < (2200 : Int)) ∧
    (up.feelVoltage 3 (2200 * 1000000)).pinState 3 ≠ 0 ∧ (up.feelVoltage 3 (2200 * 1000000)).pinState 3 ≠ 7 := by simp only [State.feelVoltage_pinState]; decide
theorem witness_overvoltage_at_the_limit : -1000 ≤ (2100 : Int) ∧ (2100 : Int) ≤ 2500 ∧ ((-600 ≤ (2100 : Int) ∧ (2100 : Int) ≤ 2100) ∨
    (up.feelVoltage 3 (2100 * 1000000)).pinState 3 = 0 ∨ (up.feelVoltage 3 (2100 * 1000000)).pinState 3 = 7) := by simp only [State.feelVoltage_pinState]; decide
theorem witness_overvoltage_beyond_survival : (2501 : Int) < -1000 ∨ 2500 < (2501 : Int) := by decide
theorem witness_levelSettled : up.helm.running = [] := by decide
/-- A pin whose PMU forces a current. -/
def fimv : State := up.fput fPIN_PMU_CTL_mode 3 2
theorem witness_pmuClamp : (fimv.fget fPIN_PMU_CTL_mode 3 = 1 ∨ fimv.fget fPIN_PMU_CTL_mode 3 = 2) ∧ fimv.pinState 3 = 6 := by decide
theorem witness_pmuClamp_not_forcing : (up.fget fPIN_PMU_CTL_mode 3 ≠ 1 ∧ up.fget fPIN_PMU_CTL_mode 3 ≠ 2) ∨ up.pinState 3 ≠ 6 := by decide

/-- PIN_LEVELS of pin 0: VIL 0 mV and VIH 750 mV. -/
def pkLevels : Packet := pk (1 + 750 * 2 ^ 80 + 1 * 2 ^ 152)
theorem witness_pinLevels : up.accepts 0x3001 pkLevels ∧ (up.begun pkLevels).pinsRefused (u64 pkLevels 0) = none ∧ u8 pkLevels 19 < 8 ∧
    levelsGood pkLevels = true ∧
    ((pinsOf (u64 pkLevels 0)).foldl (fun v n => v.putLevels pkLevels n) (up.begun pkLevels)).allSettled (u64 pkLevels 0) = false := by decide
/-- PIN_LEVELS that selects nothing. -/
def pkNoLevels : Packet := pk 1
theorem witness_pinLevels_settled : up.accepts 0x3001 pkNoLevels ∧ (up.begun pkNoLevels).pinsRefused (u64 pkNoLevels 0) = none ∧
    u8 pkNoLevels 19 < 8 ∧ levelsGood pkNoLevels = true ∧
    ((pinsOf (u64 pkNoLevels 0)).foldl (fun v n => v.putLevels pkNoLevels n) (up.begun pkNoLevels)).allSettled (u64 pkNoLevels 0) = true := by decide
/-- The worked example of chapter 03: VIL 0 V is code 647 and VIH 0.75 V code 2,263. -/
theorem test_levels_of_the_worked_example : (levelCodes pkLevels).vil = 647 ∧ (levelCodes pkLevels).vih = 2263 := by decide
/-- PIN_LEVELS with VIH below VIL. -/
def pkBadLevels : Packet := pk (1 + 750 * 2 ^ 64 + 1 * 2 ^ 152)
theorem witness_pinLevels_bad : up.accepts 0x3001 pkBadLevels ∧ (up.begun pkBadLevels).pinsRefused (u64 pkBadLevels 0) = none ∧
    u8 pkBadLevels 19 < 8 ∧ levelsGood pkBadLevels = false := by decide
def pkConfig : Packet := pk (1 + 3 * 2 ^ 64 + 2 ^ 96)
theorem witness_pinConfig : up.accepts 0x3002 pkConfig ∧ (up.begun pkConfig).pinsRefused (u64 pkConfig 0) = none ∧
    configGood pkConfig = true := by decide
def pkPmu : Packet := pk (1 + 2 ^ 64)
theorem witness_pinPmu : up.accepts 0x3003 pkPmu ∧ (up.begun pkPmu).pinsRefused (u64 pkPmu 0) = none ∧ u8 pkPmu 8 < 4 ∧ u8 pkPmu 9 < 8 ∧
    ((pinsOf (u64 pkPmu 0)).foldl (fun v n => v.putPmu n (u8 pkPmu 8) (u8 pkPmu 9) (u16 pkPmu 10) (u16 pkPmu 12) (u16 pkPmu 14))
      (up.begun pkPmu)).allSettled (u64 pkPmu 0) = false := by decide
/-- PIN_PMU of no pin has nothing to settle. -/
def pkNoPmu : Packet := pk 0
theorem witness_pinPmu_settled : up.accepts 0x3003 pkNoPmu ∧ (up.begun pkNoPmu).pinsRefused (u64 pkNoPmu 0) = none ∧ u8 pkNoPmu 8 < 4 ∧
    u8 pkNoPmu 9 < 8 ∧
    ((pinsOf (u64 pkNoPmu 0)).foldl (fun v n => v.putPmu n (u8 pkNoPmu 8) (u8 pkNoPmu 9) (u16 pkNoPmu 10) (u16 pkNoPmu 12) (u16 pkNoPmu 14))
      (up.begun pkNoPmu)).allSettled (u64 pkNoPmu 0) = true := by decide
def pkSite : Packet := pk (5 + 9 * 2 ^ 8)
theorem witness_pinSite : up.accepts 0x3004 pkSite ∧ u8 pkSite 0 < 48 ∧ u8 pkSite 1 < 48 ∧ (up.begun pkSite).pinJob (u8 pkSite 0) = none := by
  decide
def pkClear : Packet := pk (1 + 7 * 2 ^ 64)
theorem witness_pinClear : up.accepts 0x3005 pkClear ∧ (up.begun pkClear).pinsRefused (u64 pkClear 0) = none ∧ u8 pkClear 8 < 8 := by decide

/-! ### The Almanac -/

def pkTemplate : Packet := pk (2 * 2 ^ 16 + 8 * 2 ^ 32 + 1 * 2 ^ 64 + 1 * 2 ^ 128 + 0x8000 * 2 ^ 160)
theorem witness_almanacTemplate : up.accepts 0x4001 pkTemplate ∧ 0 < u16 pkTemplate 2 ∧ u16 pkTemplate 0 + u16 pkTemplate 2 ≤ 2048 ∧
    0 < u32 pkTemplate 16 ∧ u32 pkTemplate 16 ≤ 1048576 ∧ u64 pkTemplate 8 < 2 ^ 48 ∧ u8 pkTemplate 4 < 16 ∧
    (∀ x ∈ [u32 pkTemplate 20, u32 pkTemplate 24, u32 pkTemplate 28, u32 pkTemplate 32, u32 pkTemplate 36], x < 2 ^ 22) ∧
    (∀ e ∈ [u32 pkTemplate 20, u32 pkTemplate 24, u32 pkTemplate 28, u32 pkTemplate 32, u32 pkTemplate 36].map
      (fun x => templateEdge x (u32 pkTemplate 16)), e < 2 ^ 44) ∧
    (up.begun pkTemplate).almBusy (almTargets (u16 pkTemplate 0) (u16 pkTemplate 2) (u64 pkTemplate 8)) = false := by decide
def pkCheck : Packet := pk (1 * 2 ^ 16 + 1 * 2 ^ 32 + 1 * 2 ^ 64)
theorem witness_almanacCheck : up.accepts 0x4003 pkCheck ∧ 0 < u16 pkCheck 2 ∧ u16 pkCheck 0 + u16 pkCheck 2 ≤ 2048 ∧ 0 < u32 pkCheck 4 ∧
    u32 pkCheck 4 ≤ 1048576 ∧ u64 pkCheck 8 < 2 ^ 48 := by decide
def pkDeskew : Packet := pk (5 + 100 * 2 ^ 32)
theorem witness_almanacDeskew : up.accepts 0x4004 pkDeskew ∧ u8 pkDeskew 0 < 48 ∧ (up.begun pkDeskew).pinInLeg (u8 pkDeskew 0) = false := by
  decide
/-- An entry is being staged: set 1, pin 2. -/
def staging : State := { up with alm := { up.alm with stageKey := some (almKey 1 2) } }
theorem witness_aperture_staged : staging.deliverAll.takesWrite 0xB00000 = true ∧ accessOk 4 4 = true ∧
    staging.deliverAll.almProtected 1 2 = false ∧ 4 + 4 ≤ 28 ∧ staging.deliverAll.alm.stageKey = some (almKey 1 2) := by decide
theorem witness_aperture_stored : staging.deliverAll.takesWrite 0xB00000 = true ∧ accessOk 24 8 = true ∧
    staging.deliverAll.almProtected 1 2 = false ∧ 28 < 24 + 8 ∧ staging.deliverAll.alm.stageKey = some (almKey 1 2) := by decide
theorem witness_aperture_begins : ∃ (t w u : State) (e : Nat) (bad : Bool), t = staging.deliverAll ∧ t.takesWrite 0xB00000 = true ∧
    accessOk 0 4 = true ∧ t.almProtected 3 2 = false ∧ 0 + 4 ≤ 28 ∧ t.alm.stageKey ≠ some (almKey 3 2) ∧
    w = (if t.alm.stageKey.isSome then t.fput fALM_STATUS_stage_lost 0 1 else t) ∧ w.readAlm 3 2 = (u, e, bad) :=
  ⟨_, _, _, _, _, rfl, by decide, by decide, by decide, by decide, by decide, rfl, rfl⟩
theorem witness_aperture_unaligned : accessOk 2 4 = false ∧ accessOk 0 5 = false := by decide

/-! ### Meridians -/

/-- A tracked configuration within R39 and R40. -/
def trackCfg : MerCfg := { kind := .tracked, source := 1, bw := 3, fminKhz := 7600000, fmaxKhz := 8400000 }
def acquiring : State := up.setMer 1 { st := .acquiring, cfg := trackCfg, anchorR := 5 }
theorem witness_meridianLock : (acquiring.mer 1).st = .acquiring ∧ (acquiring.mer 1).cfg.kind = .tracked ∧
    acquiring.inputSeen (acquiring.mer 1).cfg = true := by decide
/-- MER1 tracks its input at 8 GHz, and its limits reach to 8.4 GHz. -/
def tracking : State := up.setMer 1 { st := .running, cfg := trackCfg, rate := 80 * 2 ^ 32 }
/-- The input frequency at the upper limit of MER1. -/
def atLimit : Nat := 84 * 2 ^ 32
theorem witness_meridianLock_running : (tracking.mer 1).st = .running ∧ (tracking.mer 1).cfg.kind = .tracked ∧
    tracking.inputSeen (tracking.mer 1).cfg = true := by decide
theorem witness_bearingLost : (tracking.mer 1).st = .running ∧ (tracking.mer 1).cfg.kind = .tracked := by decide
theorem witness_edgesReturn : ((up.setMer 1 { st := .held, cfg := trackCfg }).mer 1).st = .held ∧
    (up.setMer 1 { st := .held, cfg := trackCfg }).inputSeen ((up.setMer 1 { st := .held, cfg := trackCfg }).mer 1).cfg = true := by decide
theorem witness_freqRangeExit : (tracking.mer 1).st = .running ∧ (tracking.mer 1).cfg.kind = .tracked ∧
    tracking.inputSeen (tracking.mer 1).cfg = true ∧ ((tracking.mer 1).atInput (atLimit + 1)).outside = true ∧ ((tracking.mer 1).atInput atLimit).outside = false := by decide
/-- MER1 tracks pin 3 of a tripped device. -/
def blind : State := { up with bnc := { up.bnc with tripped := true } }.setMer 1 { st := .running, cfg := { trackCfg with source := 4, pin := 3 } }
theorem witness_input_not_seen : blind.inputSeen (blind.mer 1).cfg = false := by decide
theorem witness_phaseOffsetRemoved : ((up.setMer 2 { st := .running, phasePs := 10 }).mer 2).st = .running ∧
    ((up.setMer 2 { st := .running, phasePs := 10 }).mer 2).phasePs ≠ 0 := by decide

/-- MER0 is named by a pending milestone, so it is in use. -/
def inUse : State := up.msAdd ⟨0, 0, 12, 0, false, false, 0, 2 ^ 60, 1, 0, 0xFFFF⟩
/-- MER2 holds a frequency word of 10.3125 GHz (the worked example of R38). -/
def worded : State := up.fput fMER_FWORD_fword 2 0x6720000000

def pkMerConfig : Packet := pk (2 + 0x6720000000 * 2 ^ 64)
theorem witness_meridianConfig : up.accepts 0x8001 pkMerConfig ∧ u8 pkMerConfig 0 < 8 ∧ u8 pkMerConfig 1 < 3 ∧ u8 pkMerConfig 4 < 2 ∧
    kindAllowed (u8 pkMerConfig 0) (cfgKind pkMerConfig) = true ∧ (up.begun pkMerConfig).merInUse (u8 pkMerConfig 0) = false ∧
    (packetCfg pkMerConfig).valid (u8 pkMerConfig 0) = true ∧ (u8 pkMerConfig 0 = 0 → u64 pkMerConfig 8 = 0x1000000000) := by decide
def pkMerConfig0 : Packet := pk (0x1000000000 * 2 ^ 64)
theorem witness_meridianConfig_busy : inUse.accepts 0x8001 pkMerConfig0 ∧ u8 pkMerConfig0 0 < 8 ∧ u8 pkMerConfig0 1 < 3 ∧
    u8 pkMerConfig0 4 < 2 ∧ kindAllowed (u8 pkMerConfig0 0) (cfgKind pkMerConfig0) = true ∧
    (inUse.begun pkMerConfig0).merInUse (u8 pkMerConfig0 0) = true := by decide
def pkMerEnable : Packet := pk (2 + 1 * 2 ^ 8 + 9 * 2 ^ 64)
theorem witness_meridianEnable : worded.accepts 0x8002 pkMerEnable ∧ u8 pkMerEnable 0 < 8 ∧ u8 pkMerEnable 1 = 1 ∧
    ((worded.begun pkMerEnable).mer (u8 pkMerEnable 0)).st = .off ∧ (worded.begun pkMerEnable).fbit fMER_STATUS_cfg_err (u8 pkMerEnable 0) = false ∧
    ((worded.begun pkMerEnable).storedCfg (u8 pkMerEnable 0)).valid (u8 pkMerEnable 0) = true ∧ u64 pkMerEnable 8 ≠ 0 := by decide
def pkMerDisable : Packet := pk 1
theorem witness_meridianEnable_off : tracking.accepts 0x8002 pkMerDisable ∧ 0 < u8 pkMerDisable 0 ∧ u8 pkMerDisable 0 < 8 ∧
    u8 pkMerDisable 1 = 0 ∧ ((tracking.begun pkMerDisable).mer (u8 pkMerDisable 0)).st ≠ .off ∧
    (tracking.begun pkMerDisable).acceptedJobs.any (fun e => e.2.meridian == u8 pkMerDisable 0) = false ∧
    (u8 pkMerDisable 0 = 7 → (tracking.begun pkMerDisable).mustered = false) := by decide
def pkMerSet : Packet := pk (2 + 9 * 2 ^ 64)
theorem witness_meridianSet : up.accepts 0x8003 pkMerSet ∧ u8 pkMerSet 0 < 8 ∧ (u8 pkMerSet 0 = 7 → u32 pkMerSet 16 < 1000000000) ∧
    (up.begun pkMerSet).merInUse (u8 pkMerSet 0) = false ∧ ((up.begun pkMerSet).mer (u8 pkMerSet 0)).st = .off := by decide
def pkMerSet0 : Packet := pk (9 * 2 ^ 64)
theorem witness_meridianSet_running : up.accepts 0x8003 pkMerSet0 ∧ u8 pkMerSet0 0 < 8 ∧ (up.begun pkMerSet0).merInUse (u8 pkMerSet0 0) = false ∧
    ((up.begun pkMerSet0).mer (u8 pkMerSet0 0)).st ≠ .off := by decide
theorem witness_meridianSet_busy : inUse.accepts 0x8003 pkMerSet0 ∧ u8 pkMerSet0 0 < 8 ∧ (u8 pkMerSet0 0 = 7 → u32 pkMerSet0 16 < 1000000000) ∧
    (inUse.begun pkMerSet0).merInUse (u8 pkMerSet0 0) = true := by decide
def pkMerAdjust : Packet := pk (200000 * 2 ^ 32)
theorem witness_meridianAdjust : up.accepts 0x8004 pkMerAdjust ∧ u8 pkMerAdjust 0 < 8 ∧ ((up.begun pkMerAdjust).mer (u8 pkMerAdjust 0)).st ≠ .off ∧
    ((up.begun pkMerAdjust).mer (u8 pkMerAdjust 0)).cfg.kind ≠ .tracked ∧ -200000 ≤ s32 pkMerAdjust 4 ∧ s32 pkMerAdjust 4 ≤ 200000 := by decide
def pkMerAdjustFar : Packet := pk (200001 * 2 ^ 32)
theorem witness_meridianAdjust_clamped : up.accepts 0x8004 pkMerAdjustFar ∧ u8 pkMerAdjustFar 0 < 8 ∧
    ((up.begun pkMerAdjustFar).mer (u8 pkMerAdjustFar 0)).st ≠ .off ∧ ((up.begun pkMerAdjustFar).mer (u8 pkMerAdjustFar 0)).cfg.kind ≠ .tracked ∧
    200000 < s32 pkMerAdjustFar 4 := by decide
theorem witness_meridianAdjust_tracked : tracking.accepts 0x8004 pkMerDisable ∧ u8 pkMerDisable 0 < 8 ∧
    ((tracking.begun pkMerDisable).mer (u8 pkMerDisable 0)).st ≠ .off ∧
    ((tracking.begun pkMerDisable).mer (u8 pkMerDisable 0)).cfg.kind = .tracked := by decide
theorem witness_meridianEnable_mer0 : up.accepts 0x8002 (pk 0) ∧ u8 (pk 0) 0 = 0 ∧ u8 (pk 0) 1 = 0 := by decide

/-! ### Milestones -/

/-- A GPIO milestone on MER0 at cycle 1,600. -/
def aMilestone : Milestone := ⟨1, 0, 12, 0, false, false, 0, 1600 * 2 ^ 24, 1, 0, 0xFFFF⟩
def oneMilestone : State := up.msAdd aMilestone
theorem witness_milestone_fires : oneMilestone.ms.pending.find? (fun y => y.id == aMilestone.id && y.action == aMilestone.action) = some aMilestone ∧
    (oneMilestone.ms.pending.takeWhile (fun y => y.id != aMilestone.id)).any (fun y => y.mer == 0 && y.at88 == aMilestone.at88) = false ∧
    ((oneMilestone.mer 0).instantOf aMilestone.at88).isSome = true := by decide
def pkPost : Packet := pk (12 * 2 ^ 8 + 3200 * 2 ^ 64 + 1 * 2 ^ 160)
theorem witness_milestonePost : up.accepts 0x8005 pkPost ∧ u8 pkPost 0 < 7 ∧ u8 pkPost 1 = 12 ∧ u8 pkPost 2 < 2 ∧ u16 pkPost 4 < 8 ∧
    u16 pkPost 6 < 16384 ∧ u32 pkPost 16 < 2 ^ 24 ∧ u32 pkPost 20 < 2 ∧ (up.begun pkPost).ms.pending.length < 4096 ∧
    ((up.begun pkPost).mer (u8 pkPost 0)).st ≠ .off ∧
    (up.begun pkPost).odo (u8 pkPost 0) + (up.begun pkPost).msLead (u8 pkPost 0) 12 ≤ u64 pkPost 8 * 2 ^ 24 + u32 pkPost 16 := by decide
theorem witness_milestoneCancel : oneMilestone.accepts 0x8006 (pk 1) ∧
    (oneMilestone.begun (pk 1)).ms.pending.find? (fun y => y.id == u32 (pk 1) 0) = some aMilestone := by decide
/-- Milestone 9 has fired. -/
def fired9 : State := { up with ms := { up.ms with fired := [9] } }
theorem witness_milestoneCancel_fired : fired9.accepts 0x8006 (pk 9) ∧ (fired9.begun (pk 9)).ms.pending.find? (fun y => y.id == u32 (pk 9) 0) = none ∧
    u32 (pk 9) 0 ∈ (fired9.begun (pk 9)).ms.fired := by decide
theorem witness_milestoneCancel_unknown : up.accepts 0x8006 (pk 9) ∧ (up.begun (pk 9)).ms.pending.find? (fun y => y.id == u32 (pk 9) 0) = none ∧
    u32 (pk 9) 0 ∉ (up.begun (pk 9)).ms.fired := by decide

/-! ### The Almanac, meridians, milestones, the host port and Helm -/

/-- Space 5 maps DVA x of its first GiB to HPA x, for the Pilots' own and the shared TLB. -/
def mapped : State :=
  let s := expert.fput fMEM_STATUS_state 0 2
  { s with chart := { s.chart with tlb := [⟨16, 5, 0, 30, 0xF, false⟩, ⟨0, 5, 0, 30, 0xF, false⟩] } }

/-- Job 1 on Pilot 0: pin 0, space 5, MER0, Almanac sets 0 to 3, Sextant channel 0, DDS engine 0. -/
def desc1 : Nat := 5 * 2 ^ 24 + 4 * 2 ^ 64 + 1 * 2 ^ 128 + 1 * 2 ^ 1152 + 1 * 2 ^ 1216

/-- A leg of job 1 runs on Pilot 0. -/
def leg1 : State := { mapped with jobs := [(1, { st := .running, desc := desc1 })], pilots := [(0, { st := .inLeg, job := 1 })] }

theorem witness_almanacLoad : ∃ s u v : State, ∃ k : Packet, ∃ bs : List Byte, (s.accepts 0x4002 k) ∧ (u = s.begun k) ∧ (0 < u16 k 12) ∧ (u16 k 10 +
    u16 k 12 ≤ 2048) ∧ (u64 k 16 < 2 ^ 48) ∧ (u.almBusy (almTargets (u16 k 10) (u16 k 12) (u64 k 16)) = false) ∧ (u.payload (u8 k 8) (u64 k 0) (1536
    * u16 k 12) = (v, .bytes bs)) :=
  ⟨mapped, _, _, pk (5 * 2 ^ 64 + 1 * 2 ^ 96 + 1 * 2 ^ 128), _, by decide, rfl, by decide, by decide, by decide, by decide, (payload_of
      (by decide +kernel))⟩

theorem witness_aperture_protected : ∃ set : BitVec 11, ∃ n : PinNo, ∃ byte : Fin 32, ∃ size : Fin 9, ∃ v : BitVec 64, ∃ s t : State, (t =
    s.deliverAll) ∧ (t.takesWrite 0xB00000 = true) ∧ (accessOk byte.val size.val = true) ∧ (t.almProtected set.toNat n.val = true) :=
  ⟨3, 0, 0, 4, 0, leg1, _, rfl, by decide, by decide, by decide⟩

/-- MER2 runs from the frequency word of the worked example of R38. -/
def wordedRuns : State := worded.setMer 2 { st := .running, cfg := { fword := 0x6720000000 }, rate := 0x6720000000 }

theorem witness_merCtlWrite_in_use : ∃ m : MerNo, ∃ reg : MerReg, ∃ v : BitVec 64, ∃ s t : State, (t = s.inOrder (merRegId reg).info.base) ∧
    ((t.merInUse m.val || t.merInLeg m.val) = true) :=
  ⟨0, .ctl, 0, inUse, _, rfl, by decide⟩

theorem witness_merCtlWrite_no_configuration : ∃ m : MerNo, ∃ reg : MerReg, ∃ v : BitVec 64, ∃ s t : State, (t = s.inOrder (merRegId reg).info.base)
    ∧ ((t.merInUse m.val || t.merInLeg m.val) = false) ∧
    let u := t.wr (merRegId reg) m.val 0 (BitVec.ofNat 64 (t.merStored m.val reg (v.toNat % 2 ^ (merRegId reg).info.width))); (decide (u.fget
    fMER_CTL_kind m.val < 3) && (u.storedCfg m.val).valid m.val) = false ∧ let w := u.fput fMER_STATUS_cfg_err m.val 1; ((t.mer m.val).st = .off) ∧
    (w.fbit fMER_CTL_enable m.val = true) :=
  ⟨2, .ctl, 1, up, _, rfl, by decide, by decide, by decide, by decide⟩

theorem witness_merCtlWrite_invalid_off : ∃ m : MerNo, ∃ reg : MerReg, ∃ v : BitVec 64, ∃ s t : State, (t = s.inOrder (merRegId reg).info.base) ∧
    ((t.merInUse m.val || t.merInLeg m.val) = false) ∧
    let u := t.wr (merRegId reg) m.val 0 (BitVec.ofNat 64 (t.merStored m.val reg (v.toNat % 2 ^ (merRegId reg).info.width))); (decide (u.fget
    fMER_CTL_kind m.val < 3) && (u.storedCfg m.val).valid m.val) = false ∧ let w := u.fput fMER_STATUS_cfg_err m.val 1; ((t.mer m.val).st = .off) ∧
    (w.fbit fMER_CTL_enable m.val = false) :=
  ⟨2, .ctl, 0, up, _, rfl, by decide, by decide, by decide, by decide⟩

theorem witness_merCtlWrite_invalid_runs : ∃ m : MerNo, ∃ reg : MerReg, ∃ v : BitVec 64, ∃ s t : State, (t = s.inOrder (merRegId reg).info.base) ∧
    ((t.merInUse m.val || t.merInLeg m.val) = false) ∧
    let u := t.wr (merRegId reg) m.val 0 (BitVec.ofNat 64 (t.merStored m.val reg (v.toNat % 2 ^ (merRegId reg).info.width))); (decide (u.fget
    fMER_CTL_kind m.val < 3) && (u.storedCfg m.val).valid m.val) = false ∧ let w := u.fput fMER_STATUS_cfg_err m.val 1; ((t.mer m.val).st ≠ .off) ∧
    (w.fbit fMER_CTL_enable m.val = true) :=
  ⟨2, .ctl, 1, wordedRuns.fput fMER_FWORD_fword 2 0, _, rfl, by decide, by decide, by decide, by decide⟩

theorem witness_merCtlWrite_invalid_stops : ∃ m : MerNo, ∃ reg : MerReg, ∃ v : BitVec 64, ∃ s t : State, (t = s.inOrder (merRegId reg).info.base) ∧
    ((t.merInUse m.val || t.merInLeg m.val) = false) ∧
    let u := t.wr (merRegId reg) m.val 0 (BitVec.ofNat 64 (t.merStored m.val reg (v.toNat % 2 ^ (merRegId reg).info.width))); (decide (u.fget
    fMER_CTL_kind m.val < 3) && (u.storedCfg m.val).valid m.val) = false ∧ let w := u.fput fMER_STATUS_cfg_err m.val 1; ((t.mer m.val).st ≠ .off) ∧
    (w.fbit fMER_CTL_enable m.val = false) :=
  ⟨2, .ctl, 0, wordedRuns.fput fMER_FWORD_fword 2 0, _, rfl, by decide, by decide, by decide, by decide⟩

theorem witness_merCtlWrite_enable : ∃ m : MerNo, ∃ reg : MerReg, ∃ v : BitVec 64, ∃ s t : State, (t = s.inOrder (merRegId reg).info.base) ∧
    ((t.merInUse m.val || t.merInLeg m.val) = false) ∧
    let u := t.wr (merRegId reg) m.val 0 (BitVec.ofNat 64 (t.merStored m.val reg (v.toNat % 2 ^ (merRegId reg).info.width))); u.fget fMER_CTL_kind
    m.val < 3 ∧ ((u.storedCfg m.val).valid m.val = true) ∧
    let w := (u.fput fMER_STATUS_cfg_err m.val 0).takeCfg m.val ((u.fput fMER_STATUS_cfg_err m.val 0).storedCfg m.val); ((t.mer m.val).st = .off) ∧
    (w.fbit fMER_CTL_enable m.val = true) :=
  ⟨2, .ctl, 1, worded, _, rfl, by decide, by decide, by decide, by decide, by decide⟩

theorem witness_merCtlWrite_stays_off : ∃ m : MerNo, ∃ reg : MerReg, ∃ v : BitVec 64, ∃ s t : State, (t = s.inOrder (merRegId reg).info.base) ∧
    ((t.merInUse m.val || t.merInLeg m.val) = false) ∧
    let u := t.wr (merRegId reg) m.val 0 (BitVec.ofNat 64 (t.merStored m.val reg (v.toNat % 2 ^ (merRegId reg).info.width))); u.fget fMER_CTL_kind
    m.val < 3 ∧ ((u.storedCfg m.val).valid m.val = true) ∧
    let w := (u.fput fMER_STATUS_cfg_err m.val 0).takeCfg m.val ((u.fput fMER_STATUS_cfg_err m.val 0).storedCfg m.val); ((t.mer m.val).st = .off) ∧
    (w.fbit fMER_CTL_enable m.val = false) :=
  ⟨2, .ctl, 0, worded, _, rfl, by decide, by decide, by decide, by decide, by decide⟩

theorem witness_merCtlWrite_runs_on : ∃ m : MerNo, ∃ reg : MerReg, ∃ v : BitVec 64, ∃ s t : State, (t = s.inOrder (merRegId reg).info.base) ∧
    ((t.merInUse m.val || t.merInLeg m.val) = false) ∧
    let u := t.wr (merRegId reg) m.val 0 (BitVec.ofNat 64 (t.merStored m.val reg (v.toNat % 2 ^ (merRegId reg).info.width))); u.fget fMER_CTL_kind
    m.val < 3 ∧ ((u.storedCfg m.val).valid m.val = true) ∧
    let w := (u.fput fMER_STATUS_cfg_err m.val 0).takeCfg m.val ((u.fput fMER_STATUS_cfg_err m.val 0).storedCfg m.val); ((t.mer m.val).st ≠ .off) ∧
    (w.fbit fMER_CTL_enable m.val = true) :=
  ⟨2, .ctl, 1, wordedRuns, _, rfl, by decide, by decide, by decide, by decide, by decide⟩

theorem witness_merCtlWrite_stop : ∃ m : MerNo, ∃ reg : MerReg, ∃ v : BitVec 64, ∃ s t : State, (t = s.inOrder (merRegId reg).info.base) ∧
    ((t.merInUse m.val || t.merInLeg m.val) = false) ∧
    let u := t.wr (merRegId reg) m.val 0 (BitVec.ofNat 64 (t.merStored m.val reg (v.toNat % 2 ^ (merRegId reg).info.width))); u.fget fMER_CTL_kind
    m.val < 3 ∧ ((u.storedCfg m.val).valid m.val = true) ∧
    let w := (u.fput fMER_STATUS_cfg_err m.val 0).takeCfg m.val ((u.fput fMER_STATUS_cfg_err m.val 0).storedCfg m.val); ((t.mer m.val).st ≠ .off) ∧
    (w.fbit fMER_CTL_enable m.val = false) :=
  ⟨2, .ctl, 0, wordedRuns, _, rfl, by decide, by decide, by decide, by decide, by decide⟩

theorem witness_merSnap_wall : ∃ mask : BitVec 8, ∃ s t : State, (t = s.deliverAll) ∧ (mask.toNat.testBit 7 = true) :=
  ⟨128, up, _, rfl, by decide⟩

theorem witness_merSnap : ∃ mask : BitVec 8, ∃ s t : State, (t = s.deliverAll) ∧ (mask.toNat.testBit 7 = false) :=
  ⟨1, up, _, rfl, by decide⟩

/-- A milestone of MER1, which is off, and two of MER0 at one reading. -/
def stuck : Milestone := { aMilestone with mer := 1 }
def twoAtOnce : State := oneMilestone.msAdd { aMilestone with id := 2 }

theorem witness_milestone_stands : ∃ s : State, ∃ x : Milestone, (s.ms.pending.find? (fun y => y.id == x.id && y.action == x.action) = some x) ∧
    ((s.ms.pending.takeWhile (fun y => y.id != x.id)).any (fun y => y.mer == x.mer && y.at88 == x.at88) = false) ∧ ((s.mer x.mer).instantOf x.at88 =
    none) :=
  ⟨up.msAdd stuck, stuck, by decide, by decide, by decide⟩

theorem witness_milestone_second : ∃ s : State, ∃ x : Milestone, (s.ms.pending.find? (fun y => y.id == x.id && y.action == x.action) = some x) ∧
    ((s.ms.pending.takeWhile (fun y => y.id != x.id)).any (fun y => y.mer == x.mer && y.at88 == x.at88) = true) :=
  ⟨twoAtOnce, { aMilestone with id := 2 }, by decide, by decide⟩

theorem witness_milestone_found_late : ∃ s : State, ∃ x : Milestone, (s.ms.pending.find? (fun y => y.id == x.id && y.action == x.action) = some x) ∧
    ((s.ms.pending.takeWhile (fun y => y.id != x.id)).any (fun y => y.mer == x.mer && y.at88 == x.at88) = false) ∧ ∃ t, ((s.mer x.mer).instantOf
    x.at88 = some t) ∧ (x.foundLate = true) :=
  ⟨up.msAdd { aMilestone with foundLate := true }, { aMilestone with foundLate := true }, by decide, by decide, 3000000000, by decide, by decide⟩

theorem witness_msMsyncOut : ∃ id : Nat, ∃ f : Fired, ∃ s u : State, (s.msFire id 11 = some (u, f)) :=
  ⟨1, _, up.msAdd { aMilestone with action := 11 }, _, rfl⟩

theorem witness_msGpio : ∃ id : Nat, ∃ f : Fired, ∃ s u : State, (s.msFire id 12 = some (u, f)) :=
  ⟨1, _, oneMilestone, _, rfl⟩

theorem witness_msDepotPost : ∃ id : Nat, ∃ f : Fired, ∃ s u : State, (s.msFire id 13 = some (u, f)) :=
  ⟨1, _, up.msAdd { aMilestone with action := 13, target := 2000 }, _, rfl⟩

theorem witness_registerWrite_data_plane : ∃ addr : BitVec 26, ∃ bs : List Byte, ∃ s : State, (s.host.perst = false) ∧ (addr.toNat < 0x2000000) ∧
    (accessOk addr.toNat bs.length = true) ∧ (inDataPlane addr.toNat = true) :=
  ⟨0xC00000, [1, 0, 0, 0], up, by decide, by decide, by decide, by decide⟩

theorem witness_registerWrite_stored : ∃ addr : BitVec 26, ∃ bs : List Byte, ∃ p : Piece, ∃ s : State, (s.host.perst = false) ∧ (addr.toNat <
    0x2000000) ∧ (accessOk addr.toNat bs.length = true) ∧ (inDataPlane addr.toNat = false) ∧ (s.bnc.tripped = false) ∧ (inMsixTable addr.toNat =
    false) ∧ (pieces addr.toNat bs.length (ofBytes bs) = [p]) ∧ (s.legUses p.key = false) ∧ (p.key.id ∈ [.DEV_IRQ, .HLM_FIX_ADDR, .HLM_FIX_CTL,
    .MEM_EVQ, .ETH_TXQ, .THM_EVQ]) :=
  ⟨BitVec.ofNat 26 RegId.ETH_TXQ.info.base, [1, 0, 0, 0], _, up, by decide, by decide, by decide, by decide, by decide, by decide, rfl, by decide,
      by decide⟩

theorem witness_registerWrite_unaligned : ∃ addr : BitVec 26, ∃ bs : List Byte, ∃ s : State, (s.host.perst = false) ∧ (addr.toNat < 0x2000000) ∧
    (accessOk addr.toNat bs.length = false) :=
  ⟨0xC00002, [1, 0, 0, 0], up, by decide, by decide, by decide⟩

theorem witness_registerWrite_poisoned : ∃ addr : BitVec 26, ∃ bs : List Byte, ∃ s : State, (s.host.perst = false) :=
  ⟨0, [], up, by decide⟩

theorem witness_registerWrite_in_reset : ∃ addr : BitVec 26, ∃ bs : List Byte, ∃ bad : Bool, ∃ s : State, (s.host.perst = true) :=
  ⟨0, [], false, { up with host := { up.host with perst := true } }, by decide⟩

theorem witness_immediateMilestone : ∃ s u : State, ∃ w : RegWrite, ∃ rest : List RegWrite, ∃ p : Piece, (s.host.deliver = w :: rest) ∧ (u = { s with
    host := { s.host with deliver := rest } }) ∧ (s.bnc.tripped = false) ∧ (inAlmanac w.addr = false) ∧ (inDdsList w.addr = false) ∧ (inMsixTable
    w.addr = false) ∧ (pieces w.addr w.size w.value = [p]) ∧ (u.legUses p.key = false) :=
  ⟨{ up with host := { up.host with deliver := [⟨0xC00000, 4, 1⟩] } }, _, _, _, _, rfl, rfl, by decide, by decide, by decide, by decide, rfl,
      by decide⟩

theorem witness_immediateMilestone_in_leg : ∃ s u : State, ∃ w : RegWrite, ∃ rest : List RegWrite, ∃ p : Piece, (s.host.deliver = w :: rest) ∧ (u = {
    s with host := { s.host with deliver := rest } }) ∧ (s.bnc.tripped = false) ∧ (inAlmanac w.addr = false) ∧ (inDdsList w.addr = false) ∧
    (inMsixTable w.addr = false) ∧ (pieces w.addr w.size w.value = [p]) ∧ (u.legUses p.key = true) :=
  ⟨{ leg1 with host := { up.host with deliver := [⟨0xC00000, 4, 1⟩] } }, _, _, _, _, rfl, rfl, by decide, by decide, by decide, by decide, rfl,
      by decide⟩

theorem witness_registerRead : ∃ addr : BitVec 26, ∃ size : BitVec 7, ∃ p : Piece, ∃ s t : State, (s.host.perst = false) ∧ (t = s.deliverAll) ∧
    (addr.toNat < 0x2000000) ∧ (accessOk addr.toNat size.toNat = true) ∧ (inBlock addr.toNat = true) ∧ (inAlmanac addr.toNat = false) ∧ (inDdsList
    addr.toNat = false) ∧ (inMsixTable addr.toNat = false) ∧ (inMsixPba addr.toNat = false) ∧ (pieces addr.toNat size.toNat 0 = [p]) ∧ (p.src = 0) ∧
    (p.key.id ≠ .PLT_CS_DATA) :=
  ⟨0xC00000, 4, _, up, _, by decide, rfl, by decide, by decide, by decide, by decide, by decide, by decide, by decide, rfl, by decide, by decide⟩

theorem witness_registerRead_unaligned : ∃ addr : BitVec 26, ∃ size : BitVec 7, ∃ s : State, (s.host.perst = false) ∧ (addr.toNat < 0x2000000) ∧
    (accessOk addr.toNat size.toNat = false) :=
  ⟨0xC00002, 4, up, by decide, by decide, by decide⟩

theorem witness_registerRead_doorbells : ∃ addr : BitVec 26, ∃ size : BitVec 7, ∃ s : State, (s.host.perst = false) ∧ (0x2000000 ≤ addr.toNat) :=
  ⟨0x2000000, 4, up, by decide, by decide⟩

theorem witness_doorbellPageWrite_staged : ∃ r : RingNo, ∃ off : BitVec 12, ∃ bs : List Byte, ∃ s : State, (s.bellsFree) ∧ (4 ≤ bs.length) ∧
    (off.toNat + bs.length < 64) :=
  ⟨0, 0, [0, 0, 0, 0], up, by decide, by decide, by decide⟩

/-- The packet's last bytes end a NOP of ring 0, and an ABORT_ALL, which is prompt. -/
theorem witness_doorbellPageWrite_commits : ∃ (r : RingNo) (off : BitVec 12) (bs : List Byte) (s u v : State) (e : Nat), s.bellsFree ∧
    4 ≤ bs.length ∧ off.toNat + bs.length = 64 ∧ u = s.setRing r.val { s.ring r.val with stage := 0 } ∧
    isPrompt (decodePacket r (putBytes (s.ring r.val).stage off.toNat 64 bs)).1 = false ∧
    u.admitPkt r.val (decodePacket r (putBytes (s.ring r.val).stage off.toNat 64 bs)).1
      (decodePacket r (putBytes (s.ring r.val).stage off.toNat 64 bs)).2 = (v, some e) :=
  ⟨0, 60, [0, 0, 0, 0], up.setRing 0 { up.ring 0 with stage := 1 }, _, _, _, by decide, by decide, by decide, rfl, by decide, rfl⟩
theorem witness_doorbellPageWrite_prompt : ∃ (r : RingNo) (off : BitVec 12) (bs : List Byte) (s : State), s.bellsFree ∧ 4 ≤ bs.length ∧
    off.toNat + bs.length = 64 ∧ isPrompt (decodePacket r (putBytes (s.ring r.val).stage off.toNat 64 bs)).1 = true :=
  ⟨0, 60, [0, 0, 0, 0], up.setRing 0 { up.ring 0 with stage := 4 }, by decide, by decide, by decide, by decide⟩

theorem witness_cplConsumedWrite : ∃ r : RingNo, ∃ v : BitVec 32, ∃ s : State, (s.bellsFree) :=
  ⟨0, 0, up, by decide⟩

theorem witness_mirrorConsumedWrite : ∃ q : QueueNo, ∃ v : BitVec 32, ∃ s : State, (s.bellsFree) ∧ (q.val ≠ 0) :=
  ⟨7, 0, up, by decide, by decide⟩

/-- A write to the consumed count of ring 0 is held. -/
def heldBell : State := { up with host := { up.host with bells := [⟨0x2000040, [1, 0, 0, 0]⟩] } }

theorem witness_doorbellRelease : ∃ b : HeldBell, ∃ rest : List HeldBell, ∃ r : RingNo, ∃ s : State, (s.host.bells = b :: rest) ∧ (b.addr = 0x2000000
    + r.val * 0x1000 + 0x40) ∧ (b.bytes.length = 4) ∧ (s.portQuiet portPB = true) :=
  ⟨_, _, 0, heldBell, rfl, by decide, by decide, by decide⟩

theorem witness_doorbellRelease_waits : ∃ b : HeldBell, ∃ rest : List HeldBell, ∃ r : RingNo, ∃ s : State, (s.host.bells = b :: rest) ∧ (b.addr =
    0x2000000 + r.val * 0x1000 + 0x40) ∧ (b.bytes.length = 4) ∧ (s.portQuiet portPB = false) :=
  ⟨_, _, 0, heldBell.setChan 0 { heldBell.chan 0 with waiting := [⟨portPB, .bulk, some ⟨0, 1, 0, portPB⟩, 0, 0⟩] }, rfl, by decide, by decide,
      by decide⟩

theorem witness_queueDoorbellWrite_system : ∃ q : QueueNo, ∃ off : BitVec 10, ∃ bs : List Byte, ∃ s : State, (s.bellsFree) ∧ (4 ≤ bs.length) ∧
    (off.toNat % 64 + bs.length ≤ 64) ∧ (off.toNat < 256) ∧ (q.val ≠ 0) ∧ (256 ≤ q.val) ∧ (q.val < 512) :=
  ⟨300, 0, [0, 0, 0, 0], up, by decide, by decide, by decide, by decide, by decide, by decide, by decide⟩

theorem witness_queueDoorbellWrite_staged : ∃ q : QueueNo, ∃ off : BitVec 10, ∃ bs : List Byte, ∃ s : State, (s.bellsFree) ∧ (4 ≤ bs.length) ∧
    (off.toNat % 64 + bs.length ≤ 64) ∧ (off.toNat < 256) ∧ (q.val ≠ 0) ∧ ((q.val < 256 ∨ 512 ≤ q.val)) ∧ ((s.depot.staged = false ∨ s.depot.stageQ =
    q.val)) ∧ (off.toNat < s.qElem q.val) ∧ let v := putBytes s.depot.stage off.toNat (s.qElem q.val) bs; (off.toNat + bs.length < s.qElem q.val) :=
  ⟨2000, 0, [0, 0, 0, 0], up, by decide, by decide, by decide, by decide, by decide, by decide, by decide, by decide, by decide⟩

theorem witness_queueDoorbellWrite_commits : ∃ q : QueueNo, ∃ off : BitVec 10, ∃ bs : List Byte, ∃ s : State, (s.bellsFree) ∧ (4 ≤ bs.length) ∧
    (off.toNat % 64 + bs.length ≤ 64) ∧ (off.toNat < 256) ∧ (q.val ≠ 0) ∧ ((q.val < 256 ∨ 512 ≤ q.val)) ∧ ((s.depot.staged = false ∨ s.depot.stageQ =
    q.val)) ∧ (off.toNat < s.qElem q.val) ∧ let v := putBytes s.depot.stage off.toNat (s.qElem q.val) bs; (s.qElem q.val ≤ off.toNat + bs.length) :=
  ⟨2000, 0, [0, 0, 0, 0, 0, 0, 0, 0, 0, 0, 0, 0, 0, 0, 0, 0], up, by decide, by decide, by decide, by decide, by decide, by decide, by decide,
      by decide, by decide⟩

/-- BAR2 shows space 5. -/
def window : State := (mapped.fput fCHT_BAR2_CTL_en 0 1).fput fCHT_BAR2_CTL_space 0 5

theorem witness_bar2Read_disabled : ∃ off : BitVec 36, ∃ len : BitVec 13, ∃ s : State, (s.host.perst = false) ∧ (s.fbit fCHT_BAR2_CTL_en = false) :=
  ⟨0, 0, up, by decide, by decide⟩

theorem witness_bar2Read : ∃ off : BitVec 36, ∃ len : BitVec 13, ∃ s u t : State, ∃ a left : Nat, ∃ bs : List Byte, ∃ bad : Bool, (s.host.perst =
    false) ∧ (s.fbit fCHT_BAR2_CTL_en = true) ∧ (s.translate 32 (s.fget fCHT_BAR2_CTL_space) (s.fget fCHT_BAR2_BASE_dva + off.toNat) false = (u, .hpa
    a left)) ∧ (u.holdHostRead a len.toNat = none) ∧ (u.hbmRead portPB .bulk a len.toNat = (t, bs, bad)) :=
  ⟨64, 8, window, _, _, _, _, _, _, by decide, by decide, (rfl), by decide, (rfl)⟩

theorem witness_bar2Read_waits : ∃ off : BitVec 36, ∃ len : BitVec 13, ∃ s u : State, ∃ a left : Nat, (s.host.perst = false) ∧ (s.fbit
    fCHT_BAR2_CTL_en = true) ∧ (s.translate 32 (s.fget fCHT_BAR2_CTL_space) (s.fget fCHT_BAR2_BASE_dva + off.toNat) false = (u, .hpa a left)) ∧ ((3 ≤
    u.fget fMEM_STATUS_state ∨ u.inStop = true)) :=
  ⟨64, 8, window.fput fMEM_STATUS_state 0 3, _, _, _, by decide, by decide, (rfl), by decide⟩

theorem witness_bar2Read_page : ∃ off : BitVec 36, ∃ len : BitVec 13, ∃ s : State, ∃ e : TlbEntry, (s.host.perst = false) ∧ (s.fbit fCHT_BAR2_CTL_en
    = true) ∧ let dva := s.fget fCHT_BAR2_BASE_dva + off.toNat; s.tlbFind (tlbOf 32) (s.fget fCHT_BAR2_CTL_space) dva = some e ∧ (bitAt e.entry 2 =
    true) ∧ (s.fget fMEM_STATUS_state < 3) ∧ (s.inStop = false) :=
  ⟨64, 8, window, ⟨16, 5, 0, 30, 0xF, false⟩, by decide, by decide, by decide, by decide, by decide, by decide⟩

theorem witness_bar2Write_poisoned : ∃ off : BitVec 36, ∃ bs : List Byte, ∃ s : State, (s.host.perst = false) :=
  ⟨64, [1], window, by decide⟩

theorem witness_bar2Read_fault : ∃ off : BitVec 36, ∃ len : BitVec 13, ∃ s u : State, ∃ k l e : Nat, (s.host.perst = false) ∧ (s.fbit
    fCHT_BAR2_CTL_en = true) ∧ (s.translate 32 (s.fget fCHT_BAR2_CTL_space) (s.fget fCHT_BAR2_BASE_dva + off.toNat) false = (u, .fault k l e)) :=
  ⟨64, 8, window.fput fCHT_BAR2_CTL_space 0 6, _, _, _, _, by decide, by decide, rfl⟩

theorem witness_bar2Write_disabled : ∃ off : BitVec 36, ∃ bs : List Byte, ∃ s : State, (s.host.perst = false) ∧ (s.fbit fCHT_BAR2_CTL_en = false) :=
  ⟨0, [], up, by decide, by decide⟩

theorem witness_bar2Write : ∃ off : BitVec 36, ∃ bs : List Byte, ∃ s : State, (s.host.perst = false) ∧ (s.fbit fCHT_BAR2_CTL_en = true) ∧
    let r := s.dvaSpan 32 (s.fget fCHT_BAR2_CTL_space) (s.fget fCHT_BAR2_BASE_dva + off.toNat) bs.length (bs.length / 65536 + 2); (r.2.1 = none) :=
  ⟨64, [1], window, by decide, by decide, by decide⟩

theorem witness_bar2Write_fault : ∃ off : BitVec 36, ∃ bs : List Byte, ∃ s : State, (s.host.perst = false) ∧ (s.fbit fCHT_BAR2_CTL_en = true) ∧
    let r := s.dvaSpan 32 (s.fget fCHT_BAR2_CTL_space) (s.fget fCHT_BAR2_BASE_dva + off.toNat) bs.length (bs.length / 65536 + 2); ∃ f, (r.2.1 = some
    f) :=
  ⟨64, [1], window.fput fCHT_BAR2_CTL_space 0 6, by decide, by decide, _, (rfl)⟩

theorem witness_bar2Write_page : ∃ off : BitVec 36, ∃ bs : List Byte, ∃ s : State, ∃ e : TlbEntry, (s.host.perst = false) ∧ (s.fbit fCHT_BAR2_CTL_en
    = true) ∧ let dva := s.fget fCHT_BAR2_BASE_dva + off.toNat; s.tlbFind (tlbOf 32) (s.fget fCHT_BAR2_CTL_space) dva = some e ∧ (bitAt e.entry 3 =
    true) ∧ (bs ≠ []) ∧ (bs.length ≤ 2 ^ e.pageBits - dva % 2 ^ e.pageBits) :=
  ⟨64, [1], window, ⟨16, 5, 0, 30, 0xF, false⟩, by decide, by decide, by decide, by decide, by decide, by decide⟩

theorem witness_nopCommand : ∃ s : State, ∃ k : Packet, (s.accepts 0x0001 k) :=
  ⟨up, pk 0, by decide⟩

theorem witness_ringCreate : ∃ s u : State, ∃ k : Packet, (s.accepts 0x0002 k) ∧ (u = s.begun k) ∧ (u16 k 0 ≤ 255) ∧ (4 ≤ u8 k 2) ∧ (u8 k 2 ≤ 12) ∧
    (u8 k 2 ≤ u8 k 3) ∧ (u8 k 3 ≤ 12) ∧ (u16 k 4 ≤ 2047) ∧ (u16 k 6 ≤ 7) ∧ (u64 k 8 % 4096 = 0) ∧ (u.fbit fHLM_RING_CFG_exists (u16 k 0) = false) :=
  ⟨up, _, pk (1 + 4 * 2 ^ 16 + 4 * 2 ^ 24), by decide, rfl, by decide, by decide, by decide, by decide, by decide, by decide, by decide, by decide,
      by decide⟩

def ring1 : State := up.fput fHLM_RING_CFG_exists 1 1
def busyRing1 : State := ring1.setRing 1 { ring1.ring 1 with untaken := [⟨0, 0⟩] }
/-- A script stands on hart 2. -/
def scripted : State := { mapped with helm := { mapped.helm with scripts := [(2, [1])] } }
/-- SCRIPT_LOAD of hart 2 from space 5. -/
def pkScript : Packet := pk (5 * 2 ^ 64 + 2 * 2 ^ 72)

theorem witness_ringDelete : ∃ s u : State, ∃ k : Packet, (s.accepts 0x0003 k) ∧ (u = s.begun k) ∧ (0 < u16 k 0) ∧ (u16 k 0 ≤ 255) ∧ (u.fbit
    fHLM_RING_CFG_exists (u16 k 0) = true) ∧ (u.ringIdle (u16 k 0) = true) :=
  ⟨ring1, _, pk 1, by decide, rfl, by decide, by decide, by decide, by decide⟩

theorem witness_ringDelete_waits : ∃ s u : State, ∃ k : Packet, (s.accepts 0x0003 k) ∧ (u = s.begun k) ∧ (0 < u16 k 0) ∧ (u16 k 0 ≤ 255) ∧ (u.fbit
    fHLM_RING_CFG_exists (u16 k 0) = true) ∧ (u.ringIdle (u16 k 0) = false) :=
  ⟨busyRing1, _, pk 1, by decide, rfl, by decide, by decide, by decide, by decide⟩

/-- What SCRIPT_LOAD does turns on a free value, so the witness gives both cases' common hypotheses. -/
theorem witness_scriptLoad : ∃ (s u v : State) (k : Packet) (bs : List Byte), s.accepts 0x0006 k ∧ u = s.begun k ∧
    (u8 k 9 = 2 ∨ u8 k 9 = 3) ∧ u.payload (u8 k 8) (u64 k 0) 1 = (v, .bytes bs) ∧
    (bitAt v.fresh.2.toNat 0 = true ∨ bitAt v.fresh.2.toNat 0 = false) :=
  ⟨mapped, _, _, pkScript, _, by decide, rfl, by decide, payload_of (by decide +kernel), by cases bitAt _ 0 <;> simp⟩

theorem witness_scriptCtl_stop : ∃ s u : State, ∃ k : Packet, (s.accepts 0x0007 k) ∧ (u = s.begun k) ∧ ((u8 k 0 = 2 ∨ u8 k 0 = 3)) ∧ (u8 k 1 = 0) :=
  ⟨mapped, _, pk 2, by decide, rfl, by decide, by decide⟩

theorem witness_scriptCtl_start : ∃ s u : State, ∃ k : Packet, (s.accepts 0x0007 k) ∧ (u = s.begun k) ∧ ((u8 k 0 = 2 ∨ u8 k 0 = 3)) ∧ (u8 k 1 = 1) ∧
    (nget [] (u8 k 0) u.helm.scripts ≠ []) :=
  ⟨scripted, _, pk (2 + 2 ^ 8), by decide, rfl, by decide, by decide, by decide⟩

theorem witness_scriptCtl_no_script : ∃ s u : State, ∃ k : Packet, (s.accepts 0x0007 k) ∧ (u = s.begun k) ∧ ((u8 k 0 = 2 ∨ u8 k 0 = 3)) ∧ (u8 k 1 =
    1) ∧ (nget [] (u8 k 0) u.helm.scripts = []) :=
  ⟨mapped, _, pk (2 + 2 ^ 8), by decide, rfl, by decide, by decide, by decide⟩

theorem witness_scriptCtl_reset : ∃ s u : State, ∃ k : Packet, (s.accepts 0x0007 k) ∧ (u = s.begun k) ∧ ((u8 k 0 = 2 ∨ u8 k 0 = 3)) ∧ (u8 k 1 = 2) :=
  ⟨mapped, _, pk (2 + 2 * 2 ^ 8), by decide, rfl, by decide, by decide⟩

/-- A batch of one write of MER_SNAP stands at DVA 0. -/
def batch : State := { mapped with hbm := { mapped.hbm with mem := [(2, 0xF0), (4, 1), (8, 1)] } }
def pkBatch : Packet := pk (5 * 2 ^ 64 + 1 * 2 ^ 96)

/-- The same reading MER_SNAP, and a write at an offset out of range. -/
def batchRead : State := { mapped with hbm := { mapped.hbm with mem := [(2, 0xF0)] } }
def batchBad : State := { mapped with hbm := { mapped.hbm with mem := [(3, 2), (4, 1)] } }

theorem witness_regBatch : ∃ s u v : State, ∃ k : Packet, ∃ r : Nat, (s.accepts 0xE001 k) ∧ (u = s.begun k) ∧ (0 < u32 k 12) ∧ (u32 k 12 ≤ 4096) ∧
    (u.runBatch (u8 k 8) (u64 k 0) ⟨0, none⟩ (u32 k 12) = (v, .done .ok 0 r false false (u32 k 12))) :=
  ⟨batch, _, _, pkBatch, 0xFFFFFFFF * 2 ^ 32 + 1, by decide, rfl, by decide, by decide, (pair_of (by decide +kernel))⟩

theorem witness_regBatch_out_of_range : ∃ s u v : State, ∃ k : Packet, ∃ bs : List Byte, (s.accepts 0xE001 k) ∧ (u = s.begun k) ∧ (u32 k 12 = 1) ∧
    (u.payload (u8 k 8) (u64 k 0) 16 = (v, .bytes bs)) ∧ let e := ofBytes bs; let size := if bitAt e 33 then 8 else 4; ((0x2000000 ≤ bits e 31 0 ∨
    bits e 31 0 % size ≠ 0)) :=
  ⟨batchBad, _, _, pkBatch, _, by decide, rfl, by decide, (payload_of (by decide +kernel)), (by decide +kernel)⟩

theorem witness_regBatch_write : ∃ s u v : State, ∃ k : Packet, ∃ bs : List Byte, (s.accepts 0xE001 k) ∧ (u = s.begun k) ∧ (u32 k 12 = 1) ∧
    (u.payload (u8 k 8) (u64 k 0) 16 = (v, .bytes bs)) ∧ let e := ofBytes bs; let size := if bitAt e 33 then 8 else 4; (bits e 31 0 < 0x2000000) ∧
    (bits e 31 0 % size = 0) ∧ (bitAt e 32 = true) :=
  ⟨batch, _, _, pkBatch, _, by decide, rfl, by decide, (payload_of (by decide +kernel)), (by decide +kernel), (by decide +kernel),
      (by decide +kernel)⟩

theorem witness_regBatch_read : ∃ (s u v t : State) (k : Packet) (bs : List Byte), s.accepts 0xE001 k ∧ u = s.begun k ∧ u32 k 12 = 1 ∧
    u.payload (u8 k 8) (u64 k 0) 16 = (v, .bytes bs) ∧
    let e := ofBytes bs; let size := if bitAt e 33 then 8 else 4; bits e 31 0 < 0x2000000 ∧ bits e 31 0 % size = 0 ∧ bitAt e 32 = false ∧
    let r := v.deliverAll.readValue (bits e 31 0) size; r.1.storeResult (u8 k 8) (u64 k 0 + 8) (bytesOf 8 r.2) = (t, none) :=
  ⟨batchRead, _, _, _, pkBatch, _, by decide, rfl, by decide, payload_of (by decide +kernel), by decide +kernel, by decide +kernel,
    by decide +kernel, pair_of (by decide +kernel)⟩

/-- A completion of ring 0 waits, with a mirror of 64 slots. -/
def cplWaits : State := let s := up.fput fHLM_RING_CFG_cpl_log2 0 6
  s.setRing 0 { s.ring 0 with cplWait := [{ tag := 7, status := 0 }] }
/-- A packet with tag 7 waits in ring 0 beyond its deadline. -/
def expired : State := let s := up.fput fSWY_TICK_LAST_cycles 0 1600
  s.setRing 0 { s.ring 0 with untaken := [⟨7 * 2 ^ 32, 1⟩] }
def begun7 : Running := ⟨.ring 0, [], 7, false, false, false, 1, 0, 0xFFFF, .selfCheck, 0, 0, 0, 0⟩
/-- A begun command with tag 7 is beyond its deadline. -/
def expired' : State := let s := up.fput fSWY_TICK_LAST_cycles 0 1600
  { s with helm := { s.helm with running := [begun7] } }

theorem witness_completionCommit : ∃ r : RingNo, ∃ c : Cpl, ∃ rest : List Cpl, ∃ s : State, ((s.ring r.val).cplWait = c :: rest) ∧ ((s.ring
    r.val).deleting = false) ∧ (s.mirrorFull r.val = false) ∧ (bitAt s.bnc.down 32 = false) :=
  ⟨0, _, _, cplWaits, rfl, by decide, by decide, by decide⟩

theorem witness_moderationTimeout : ∃ r : RingNo, ∃ s : State, (0 < (s.ring r.val).unsig) ∧ (0 < (s.ring r.val).modTime) :=
  ⟨0, up.setRing 0 { up.ring 0 with unsig := 1, modTime := 5 }, by decide, by decide⟩

theorem witness_deadlineExpiry_untaken : ∃ r : RingNo, ∃ tag : BitVec 32, ∃ p : Pkt, ∃ s : State, (s.fbit fHLM_RING_CFG_exists r.val = true) ∧
    ((s.ring r.val).untaken.find? (fun p => bits p.bytes 63 32 == tag.toNat && s.expired p.expiry) = some p) ∧ ((∀ x ∈ s.helm.running, (x.origin ==
    .ring r.val && x.tag == tag.toNat) = false)) ∧ ((s.ring r.val).cplWait = []) ∧ ((s.ring r.val).deleting = false) ∧ ((s.ring r.val).dupWait = [])
    :=
  ⟨0, 7, _, expired, by decide, rfl, by decide, by decide, by decide, by decide⟩

theorem witness_deadlineExpiry_begun : ∃ r : RingNo, ∃ tag : BitVec 32, ∃ x : Running, ∃ s : State, ((s.ring r.val).untaken.find? (fun p => bits
    p.bytes 63 32 == tag.toNat && s.expired p.expiry) = none) ∧ (s.helm.running.find? (fun x => x.origin == .ring r.val && x.tag == tag.toNat &&
    s.expired x.expiry) = some x) ∧ ((s.ring r.val).cplWait = []) ∧ ((s.ring r.val).dupWait = []) ∧ ((s.ring r.val).deleting = false) :=
  ⟨0, 7, _, expired', by decide, rfl, by decide, by decide, by decide⟩

theorem witness_pinLevels_busy : ∃ s u : State, ∃ k : Packet, (s.accepts 0x3001 k) ∧ (u = s.begun k) ∧ (u64 k 0 < 2 ^ 48) ∧ ((pinsOf (u64 k 0)).any
    u.pinInLeg = true) :=
  ⟨leg1, _, pk 1, by decide, rfl, by decide, by decide⟩

theorem witness_pinSite_claimed : ∃ s u : State, ∃ k : Packet, (s.accepts 0x3004 k) ∧ (u = s.begun k) ∧ (u8 k 0 < 48) ∧ (u8 k 1 < 48) ∧ ((u.pinJob
    (u8 k 0)).isSome = true) :=
  ⟨leg1, _, pk 0, by decide, rfl, by decide, by decide, by decide⟩

/-! ### Fixes, tasks, queues, memory, Chart, DMA and Ethernet -/

/-- A fix of the doorbell is being written. -/
def fixing : State := { up with helm := { up.helm with fix := some ⟨1, [], 0, false, 0⟩ } }

theorem witness_takeFix : ∃ s u : State, ∃ k : Packet, (s.admits 0x0005 k) ∧ (u = s.begun k) ∧ (u.helm.fix = none) ∧ (u8 k 8 ≤ 1) :=
  ⟨up, _, pk 0, by decide, rfl, by decide, by decide⟩

theorem witness_fixDoorbell : ∃ v : BitVec 32, ∃ s : State, (s.bellsFree) ∧ (v.toNat.testBit 0 = true) ∧ (s.helm.fix = none) ∧ (s.fbit
    fHLM_FIX_ADDR_en = true) :=
  ⟨1, up.fput fHLM_FIX_ADDR_en 0 1, by decide, by decide, by decide, by decide⟩

theorem witness_fixDoorbell_busy : ∃ v : BitVec 32, ∃ s : State, (s.bellsFree) ∧ (v.toNat.testBit 0 = true) ∧ ((s.helm.fix.isSome = true ∨ s.fbit
    fHLM_FIX_ADDR_en = false)) :=
  ⟨1, fixing, by decide, by decide, by decide⟩

theorem witness_fixWritten : ∃ x : FixJob, ∃ s : State, (s.helm.fix = some x) ∧ (x.dva = false) ∧ (s.host.perst = false) ∧
    let w := s.hostWrite x.dst x.record; let d : State := ({ w with helm := { w.helm with fix := none } } : State).bump fHLM_PROMPT_CNT_fixes;
    (x.source = 1) :=
  ⟨_, fixing, rfl, by decide, by decide, by decide⟩

theorem witness_fixWritten_segment_lost : ∃ x : FixJob, ∃ s w : State, ∃ b : Bool, (s.helm.fix = some x) ∧ (x.source = 0) ∧ (x.dva = true) ∧
    (s.touchesLost x.space x.dst x.record.length = true) ∧ (w = s.wakeMem portBP) :=
  ⟨⟨0, [0], 0, true, 5⟩, { (mapped.fput fMEM_SEG_LOST_lost 0 1) with helm := { up.helm with fix := some ⟨0, [0], 0, true, 5⟩ } }, _, true, by decide,
      by decide, by decide, by decide, rfl⟩

/-- Task 5 in a state of its own, and hart 0 without a task. -/
def task5 (st : TaskState) : State := { up with swy := { up.swy with tasks := [(5, { st := st, prio := 1 })], ready := [5] } }
/-- Hart 0 runs task 5, whose flags are given. -/
def own5 (flags : Nat) : State :=
  { up with swy := { up.swy with tasks := [(5, { st := .running, flags := flags })], harts := [(0, { cur := some 5 })] } }

theorem witness_create : ∃ h : Fin 4, ∃ t : BitVec 12, ∃ s : State, (mayManage h.val t.toNat = true) ∧ ((∀ c, s.runningTask h.val = some c → (s.task
    c).deleted = false)) ∧ ∃ prio : BitVec 6, ((s.task t.toNat).st = .free) :=
  ⟨0, 5, up, by decide, (by intro c h; cases (show none = some c from h)), 2, by decide⟩

theorem witness_create_in_use : ∃ h : Fin 4, ∃ t : BitVec 12, ∃ s : State, (mayManage h.val t.toNat = true) ∧ ((∀ c, s.runningTask h.val = some c →
    (s.task c).deleted = false)) ∧ ∃ prio : BitVec 6, ((s.task t.toNat).st ≠ .free) :=
  ⟨0, 5, task5 .ready, by decide, (by intro c h; cases (show none = some c from h)), 2, by decide⟩

theorem witness_delete_running : ∃ h : Fin 4, ∃ t : BitVec 12, ∃ s : State, (mayManage h.val t.toNat = true) ∧ ((∀ c, s.runningTask h.val = some c →
    (s.task c).deleted = false)) ∧ ((s.task t.toNat).st = .running) :=
  ⟨0, 5, task5 .running, by decide, (by intro c h; cases (show none = some c from h)), by decide⟩

theorem witness_delete : ∃ h : Fin 4, ∃ t : BitVec 12, ∃ s : State, (mayManage h.val t.toNat = true) ∧ ((∀ c, s.runningTask h.val = some c → (s.task
    c).deleted = false)) ∧ ((s.task t.toNat).st ≠ .running) ∧ ((s.task t.toNat).st ≠ .free) :=
  ⟨0, 5, task5 .ready, by decide, (by intro c h; cases (show none = some c from h)), by decide, by decide⟩

theorem witness_setPrio : ∃ h : Fin 4, ∃ t : BitVec 12, ∃ s : State, (mayManage h.val t.toNat = true) ∧ ((∀ c, s.runningTask h.val = some c → (s.task
    c).deleted = false)) ∧ ∃ prio : BitVec 6, ((s.task t.toNat).st = .ready) :=
  ⟨0, 5, task5 .ready, by decide, (by intro c h; cases (show none = some c from h)), 2, by decide⟩

theorem witness_setFlags : ∃ h : Fin 4, ∃ t : BitVec 12, ∃ s : State, (mayManage h.val t.toNat = true) ∧ ((∀ c, s.runningTask h.val = some c →
    (s.task c).deleted = false)) ∧ ∃ mask : BitVec 32, ((s.task t.toNat).st ≠ .free) :=
  ⟨0, 5, task5 .ready, by decide, (by intro c h; cases (show none = some c from h)), 1, by decide⟩

theorem witness_task_not_owner : ∃ h : Fin 4, ∃ t : BitVec 12, ∃ prio : BitVec 6, ∃ mask : BitVec 32, ∃ s : State, (mayManage h.val t.toNat = false)
    ∧ ((∀ c, s.runningTask h.val = some c → (s.task c).deleted = false)) :=
  ⟨2, 5, 0, 0, up, by decide, (by intro c h; cases (show none = some c from h))⟩

theorem witness_clearFlags : ∃ h : Fin 4, ∃ c : Nat, ∃ s : State, (s.runningTask h.val = some c) ∧ ((s.task c).deleted = false) ∧ ∃ mask : BitVec 32,
    ∃ v : State, (v = s.fput fSWY_H_ARG_mask h.val mask.toNat) :=
  ⟨0, 5, own5 0, by decide, by decide, 1, _, rfl⟩

theorem witness_wait_holds : ∃ h : Fin 4, ∃ c : Nat, ∃ s : State, (s.runningTask h.val = some c) ∧ ((s.task c).deleted = false) ∧ ∃ mask ticks :
    BitVec 32, ∃ all consume : Bool, ∃ v : State, (mask.toNat ≠ 0) ∧ (v = (s.fput fSWY_H_ARG_mask h.val mask.toNat).fput fSWY_H_ARG_ticks h.val
    ticks.toNat) ∧ (waitHolds (s.task c).flags mask.toNat all = true) :=
  ⟨0, 5, own5 1, by decide, by decide, 1, 0, false, false, _, by decide, rfl, by decide⟩

theorem witness_wait_begins : ∃ h : Fin 4, ∃ c : Nat, ∃ s : State, (s.runningTask h.val = some c) ∧ ((s.task c).deleted = false) ∧ ∃ mask ticks :
    BitVec 32, ∃ all consume : Bool, ∃ v : State, (mask.toNat ≠ 0) ∧ (v = (s.fput fSWY_H_ARG_mask h.val mask.toNat).fput fSWY_H_ARG_ticks h.val
    ticks.toNat) ∧ (waitHolds (s.task c).flags mask.toNat all = false) ∧ (ticks.toNat = 0) :=
  ⟨0, 5, own5 0, by decide, by decide, 1, 0, false, false, _, by decide, rfl, by decide, by decide⟩

theorem witness_delay : ∃ h : Fin 4, ∃ c : Nat, ∃ s : State, (s.runningTask h.val = some c) ∧ ((s.task c).deleted = false) ∧ ∃ ticks : BitVec 32, ∃ v
    : State, (ticks.toNat ≠ 0) ∧ (v = s.fput fSWY_H_ARG_ticks h.val ticks.toNat) :=
  ⟨0, 5, own5 0, by decide, by decide, 1, _, by decide, rfl⟩

theorem witness_yield : ∃ h : Fin 4, ∃ c : Nat, ∃ s : State, (s.runningTask h.val = some c) ∧ ((s.task c).deleted = false) :=
  ⟨0, 5, own5 0, by decide, by decide⟩

/-- Queue 2000 of hart 0's task 5: producer a task, its elements as given, with a capacity of 4 elements of 16 bytes. -/
def queue5 (cons : Nat) (elems : List Nat) : State :=
  let s := ((((own5 0).fput fDPT_Q_CTL_en 2000 1).fput fDPT_Q_CTL_prod 2000 2).fput fDPT_Q_CTL_size_log2 2000 6).fput fDPT_Q_CTL_cons 2000 cons
  (s.fput fDPT_Q_OWNER_owner 2000 5).setDq 2000 { elems := elems }

theorem witness_post : ∃ h : Fin 4, ∃ q : QueueNo, ∃ c : Nat, ∃ s : State, (s.runningTask h.val = some c) ∧ ((s.task c).deleted = false) ∧ (s.qOn
    q.val = true) ∧ ∃ msg : BitVec 2048, ∃ v : State, (v = s.putHartMsg h.val 256 msg.toNat) ∧ (bitAt (s.fget fDPT_Q_CTL_prod q.val) 1 = true) ∧
    ((h.val < 2 ∨ 1024 ≤ q.val)) ∧ (s.qElem q.val ≤ 256) ∧ ((s.dq q.val).elems.length < s.qCap q.val) ∧ ((s.dq q.val).held = []) :=
  ⟨0, 2000, 5, queue5 1 [], by decide, by decide, by decide, 1, _, rfl, by decide, by decide, by decide, by decide, by decide⟩

theorem witness_post_full : ∃ h : Fin 4, ∃ q : QueueNo, ∃ c : Nat, ∃ s : State, (s.runningTask h.val = some c) ∧ ((s.task c).deleted = false) ∧
    (s.qOn q.val = true) ∧ ∃ msg : BitVec 2048, ∃ v : State, (v = s.putHartMsg h.val 256 msg.toNat) ∧ (bitAt (s.fget fDPT_Q_CTL_prod q.val) 1 = true)
    ∧ ((h.val < 2 ∨ 1024 ≤ q.val)) ∧ (s.qElem q.val ≤ 256) ∧ (s.qCap q.val ≤ (s.dq q.val).elems.length) ∧ (s.fget fDPT_Q_CTL_cons q.val ≠ 0) :=
  ⟨0, 2000, 5, queue5 1 [1, 2, 3, 4], by decide, by decide, by decide, 1, _, rfl, by decide, by decide, by decide, by decide, by decide⟩

theorem witness_take : ∃ h : Fin 4, ∃ q : QueueNo, ∃ c : Nat, ∃ s : State, (s.runningTask h.val = some c) ∧ ((s.task c).deleted = false) ∧ (s.qOn
    q.val = true) ∧ (s.fget fDPT_Q_CTL_cons q.val = 0) ∧ (s.fget fDPT_Q_OWNER_owner q.val = c) ∧ ∃ e u, (s.qTake q.val = some (e, u)) :=
  ⟨0, 2000, 5, queue5 0 [1], by decide, by decide, by decide, by decide, by decide, _, _, rfl⟩

theorem witness_take_empty : ∃ h : Fin 4, ∃ q : QueueNo, ∃ c : Nat, ∃ s : State, (s.runningTask h.val = some c) ∧ ((s.task c).deleted = false) ∧
    (s.qOn q.val = true) ∧ (s.fget fDPT_Q_CTL_cons q.val = 0) ∧ (s.fget fDPT_Q_OWNER_owner q.val = c) ∧ ((s.dq q.val).elems = []) :=
  ⟨0, 2000, 5, queue5 0 [], by decide, by decide, by decide, by decide, by decide, by decide⟩

theorem witness_swyHSwitch_idle : ∃ h : Fin 4, ∃ s : State, (s.runningTask h.val = none) ∧ (s.nextTask h.val = none) :=
  ⟨0, up, by decide, by decide⟩

theorem witness_swyHSwitch : ∃ h : Fin 4, ∃ s : State, (s.runningTask h.val = none) ∧ ∃ t, (s.nextTask h.val = some t) :=
  ⟨0, task5 .ready, by decide, _, rfl⟩

theorem witness_switchyardTick : ∃ s : State, (s.helm.forwarded = []) :=
  ⟨up, by decide⟩

theorem witness_delayExpiry : ∃ t : BitVec 12, ∃ rest : List Nat, ∃ s : State, (s.swy.delays = t.toNat :: rest) ∧ ((s.task t.toNat).exp ≤ s.fget
    fSWY_TICK_LAST_cycles) :=
  ⟨5, _, { up with swy := { up.swy with delays := [5] } }, rfl, by decide⟩

theorem witness_swyTickWrite : ∃ v : BitVec 32, ∃ s : State, (s.takesRow .SWY_TICK 0) ∧ (v.toNat < 2 ^ 21) ∧ (400 ≤ v.toNat) ∧ (v.toNat ≤ 1600000) ∧
    (v.toNat % 8 = 0) :=
  ⟨800, up, by decide, by decide, by decide, by decide, by decide⟩

theorem witness_swyTickWrite_bad : ∃ v : BitVec 32, ∃ s : State, (s.takesRow .SWY_TICK 0) ∧ (v.toNat < 2 ^ 21) ∧ ((v.toNat < 400 ∨ 1600000 < v.toNat
    ∨ v.toNat % 8 ≠ 0)) :=
  ⟨399, up, by decide, by decide, by decide⟩

theorem witness_mirrorWrite : ∃ q : QueueNo, ∃ e : Nat, ∃ s u : State, (s.qOn q.val = true) ∧ (s.fget fDPT_Q_CTL_cons q.val = 1) ∧ (slotsHeld (s.fget
    fDPT_Q_MIR_PTR_mirrored q.val) (s.fget fDPT_Q_MIR_PTR_released q.val) < 2 ^ s.fget fDPT_Q_MIRROR_slots_log2 q.val) ∧ (s.qTake q.val = some (e,
    u)) ∧ let slots := 2 ^ s.fget fDPT_Q_MIRROR_slots_log2 q.val; let base := u.fget fDPT_Q_MIRROR_addr q.val * 4096;
    let w := (u.hostWrite (base + s.fget fDPT_Q_HEAD_head q.val % slots * u.qElem q.val) (bytesOf (u.qElem q.val) e)).tick fDPT_Q_MIR_PTR_mirrored q.val; (w.fbit fDPT_Q_MIRROR_wb_en q.val = false) :=
  ⟨2000, _, (queue5 1 [1]).fput fDPT_Q_MIRROR_slots_log2 2000 2, _, by decide, by decide, by decide, rfl, by decide⟩

theorem witness_mirrorWrite_head : ∃ q : QueueNo, ∃ e : Nat, ∃ s u : State, (s.qOn q.val = true) ∧ (s.fget fDPT_Q_CTL_cons q.val = 1) ∧ (slotsHeld
    (s.fget fDPT_Q_MIR_PTR_mirrored q.val) (s.fget fDPT_Q_MIR_PTR_released q.val) < 2 ^ s.fget fDPT_Q_MIRROR_slots_log2 q.val) ∧ (s.qTake q.val =
    some (e, u)) ∧ let slots := 2 ^ s.fget fDPT_Q_MIRROR_slots_log2 q.val; let base := u.fget fDPT_Q_MIRROR_addr q.val * 4096;
    let w := (u.hostWrite (base + s.fget fDPT_Q_HEAD_head q.val % slots * u.qElem q.val) (bytesOf (u.qElem q.val) e)).tick fDPT_Q_MIR_PTR_mirrored q.val; (w.fbit fDPT_Q_MIRROR_wb_en q.val = true) :=
  ⟨2000, _, ((queue5 1 [1]).fput fDPT_Q_MIRROR_slots_log2 2000 2).fput fDPT_Q_MIRROR_wb_en 2000 1, _, by decide, by decide, by decide, rfl, by decide⟩

/-- A queue whose one element is spilled, with room in its share. -/
def spilled : State := ((queue5 0 [1]).fput fDPT_Q_CTL_sram_log2 2000 6).fput fMEM_STATUS_state 0 2

theorem witness_spillRefill : ∃ q : QueueNo, ∃ bad : Bool, ∃ i at' : Nat, ∃ s u : State, ∃ bs : List Byte, ∃ e : Bool, (i = (s.dq q.val).inSram) ∧ (i
    < (s.dq q.val).elems.length) ∧ (i < s.qShare q.val) ∧ (at' = s.fget fDPT_Q_HEAD_head q.val + i) ∧ (s.spillRead q.val at' = (u, bs, e)) ∧ (bad =
    false) ∧ (e = false) :=
  ⟨2000, _, _, 0, spilled, _, _, _, (rfl), by decide, by decide, (rfl), (triple), rfl, (by decide +kernel)⟩

theorem witness_spillRefill_poisoned : ∃ q : QueueNo, ∃ bad : Bool, ∃ i at' : Nat, ∃ s u : State, ∃ bs : List Byte, ∃ e : Bool, (i = (s.dq
    q.val).inSram) ∧ (i < (s.dq q.val).elems.length) ∧ (i < s.qShare q.val) ∧ (at' = s.fget fDPT_Q_HEAD_head q.val + i) ∧ (s.spillRead q.val at' =
    (u, bs, e)) ∧ ((bad = true ∨ e = true)) :=
  ⟨2000, true, _, 0, spilled, _, _, _, (rfl), by decide, by decide, (rfl), (triple), (.inl rfl)⟩

theorem witness_spillRefill_nothing : ∃ q : QueueNo, ∃ bad : Bool, ∃ s : State, (((s.dq q.val).elems.length ≤ (s.dq q.val).inSram ∨ s.qShare q.val ≤
    (s.dq q.val).inSram)) :=
  ⟨2000, false, queue5 0 [], by decide⟩

theorem witness_truncationMarker : ∃ q : QueueNo, ∃ s : State, ((s.dq q.val).dropping = true) ∧ (4 * (s.dq q.val).elems.length ≤ 3 * s.qCap q.val) :=
  ⟨2000, (queue5 0 []).setDq 2000 { dropping := true }, by decide, by decide⟩

theorem witness_dptQCtlWrite_enables : ∃ q : QueueNo, ∃ v : BitVec 32, ∃ s : State, (s.takesRow .DPT_Q_CTL q.val) ∧ (1024 ≤ q.val) ∧ (s.fbit
    fDPT_Q_CTL_en q.val = false) ∧ (v.toNat % 2 = 1) ∧
    let u := s.wr .DPT_Q_CTL q.val 0 (BitVec.ofNat 64 (setBits (setBits (s.rd .DPT_Q_CTL q.val).toNat 21 3 (bits v.toNat 21 3)) 0 0 0)); (u.queueFits
    q.val v.toNat = true) :=
  ⟨2000, 1 + 6 * 2 ^ 12, up, by decide, by decide, by decide, by decide, by decide⟩

theorem witness_dptQCtlWrite_refused : ∃ q : QueueNo, ∃ v : BitVec 32, ∃ s : State, (s.takesRow .DPT_Q_CTL q.val) ∧ (1024 ≤ q.val) ∧ (s.fbit
    fDPT_Q_CTL_en q.val = false) ∧ (v.toNat % 2 = 1) ∧
    let u := s.wr .DPT_Q_CTL q.val 0 (BitVec.ofNat 64 (setBits (setBits (s.rd .DPT_Q_CTL q.val).toNat 21 3 (bits v.toNat 21 3)) 0 0 0)); (u.queueFits
    q.val v.toNat = false) :=
  ⟨2000, 1, up, by decide, by decide, by decide, by decide, by decide⟩

theorem witness_dptQCtlWrite_bound : ∃ q : QueueNo, ∃ v : BitVec 32, ∃ s : State, (s.takesRow .DPT_Q_CTL q.val) ∧ (1024 ≤ q.val) ∧ (s.fbit
    fDPT_Q_CTL_en q.val = true) ∧ (v.toNat % 2 = 0) ∧ (bits v.toNat 21 3 = bits (s.rd .DPT_Q_CTL q.val).toNat 21 3) ∧ (s.queueBound q.val = true) :=
  ⟨2000, 0, (up.fput fDPT_Q_CTL_en 2000 1).fput fTHM_EVQ_queue 0 2000, by decide, by decide, by decide, by decide, by decide, by decide⟩

theorem witness_dptQCtlWrite_disables : ∃ q : QueueNo, ∃ v : BitVec 32, ∃ s : State, (s.takesRow .DPT_Q_CTL q.val) ∧ (1024 ≤ q.val) ∧ (s.fbit
    fDPT_Q_CTL_en q.val = true) ∧ (v.toNat % 2 = 0) ∧ (bits v.toNat 21 3 = bits (s.rd .DPT_Q_CTL q.val).toNat 21 3) ∧ (s.queueBound q.val = false) :=
  ⟨2000, 0, up.fput fDPT_Q_CTL_en 2000 1, by decide, by decide, by decide, by decide, by decide, by decide⟩

/-- Memory that serves. -/
def serving : State := up.fput fMEM_STATUS_state 0 2
def beat0 : BeatWrite := ⟨0, 2 ^ 32 - 1, 1, portPB⟩
/-- Channel 0 with writes queued and requests waiting. -/
def chan0 (queue : List BeatWrite) (waiting : List ArbReq) : State := serving.setChan 0 { serving.chan 0 with queue := queue, waiting := waiting }
def request0 : ArbReq := ⟨portPB, .bulk, some beat0, 0, 0⟩
/-- A piece of a held host read. -/
def piece0 : ArbReq := ⟨portPB, .bulk, none, 0, 8⟩

theorem witness_arbiterGrant : ∃ ch : ChannelNo, ∃ r : ArbReq, ∃ s u v : State, (u = s.offerSpills) ∧ (u.memServing = true) ∧ (u.chFaulted ch.val =
    false) ∧ (pickGrant (u.rtTokens ch.val) (u.mgTokens ch.val) (u.chan ch.val).last (u.chan ch.val).waiting = some r) ∧ (v = u.setChan ch.val
    (u.grantedChan ch.val r)) ∧ ∃ w, (r.write = some w) ∧ ((v.chan ch.val).queue.length < 64) :=
  ⟨0, request0, chan0 [] [request0], _, _, rfl, by decide, by decide, by decide, rfl, beat0, by decide, by decide +kernel⟩

theorem witness_arbiterGrant_full : ∃ ch : ChannelNo, ∃ r : ArbReq, ∃ s u v : State, (u = s.offerSpills) ∧ (u.memServing = true) ∧ (u.chFaulted
    ch.val = false) ∧ (pickGrant (u.rtTokens ch.val) (u.mgTokens ch.val) (u.chan ch.val).last (u.chan ch.val).waiting = some r) ∧ (v = u.setChan
    ch.val (u.grantedChan ch.val r)) ∧ ∃ w, (r.write = some w) ∧ (64 ≤ (v.chan ch.val).queue.length) :=
  ⟨0, request0, chan0 (List.replicate 64 beat0) [request0], _, _, rfl, (by decide +kernel), (by decide +kernel), (by decide +kernel), rfl, beat0,
      (by decide +kernel), (by decide +kernel)⟩

theorem witness_arbiterGrant_read : ∃ ch : ChannelNo, ∃ r : ArbReq, ∃ s u v : State, (u = s.offerSpills) ∧ (u.memServing = true) ∧ (u.chFaulted
    ch.val = false) ∧ (pickGrant (u.rtTokens ch.val) (u.mgTokens ch.val) (u.chan ch.val).last (u.chan ch.val).waiting = some r) ∧ (v = u.setChan
    ch.val (u.grantedChan ch.val r)) ∧ (r.write = none) :=
  ⟨0, piece0, chan0 [] [piece0], _, _, rfl, by decide, by decide, by decide, rfl, by decide⟩

theorem witness_offerSpills : ∃ s : State, (s.depot.spills = []) :=
  ⟨up, by decide⟩

theorem witness_fenceComplete : ∃ port : Fin 19, ∃ s u : State, (u = (if port.val = portDS then s.offerSpills else s)) ∧ (u.portQuiet port.val =
    true) :=
  ⟨0, up, _, (rfl), by decide⟩

theorem witness_fenceComplete_waits : ∃ port : Fin 19, ∃ s u : State, (u = (if port.val = portDS then s.offerSpills else s)) ∧ (u.portQuiet port.val
    = false) :=
  ⟨⟨portPB, by decide⟩, chan0 [] [request0], _, (rfl), by decide⟩

theorem witness_writeQueueDrain : ∃ ch : ChannelNo, ∃ w : BeatWrite, ∃ rest : List BeatWrite, ∃ s : State, (s.memServing = true) ∧ (s.chFaulted
    ch.val = false) ∧ ((s.chan ch.val).queue = w :: rest) ∧ ((48 ≤ (s.chan ch.val).queue.length ∨ (s.chan ch.val).waiting.all (fun r =>
    r.write.isSome) = true)) ∧ (w.mask = 2 ^ 32 - 1) :=
  ⟨0, _, _, chan0 [beat0] [], by decide, by decide, rfl, by decide, by decide⟩

theorem witness_parityAlert : ∃ ch : ChannelNo, ∃ again : Fin 3, ∃ s : State, (s.fget fMEM_STATUS_state = 2) ∧ (s.chFaulted ch.val = false) ∧
    (again.val < 2) ∧ (s.incidentSoon ch.val = false) :=
  ⟨0, 0, serving, by decide, by decide, by decide, by decide⟩

theorem witness_parityAlert_faults : ∃ ch : ChannelNo, ∃ again : Fin 3, ∃ s : State, (s.fget fMEM_STATUS_state = 2) ∧ (s.chFaulted ch.val = false) ∧
    ((again.val = 2 ∨ s.incidentSoon ch.val = true)) :=
  ⟨0, 2, serving, by decide, by decide, by decide⟩

theorem witness_hbmScrub : ∃ s : State, (s.fbit fMEM_SCRUB_en = true) ∧ (s.fget fTHM_STAT_state = 0) ∧ (s.fget fMEM_STATUS_state = 2) :=
  ⟨serving, by decide, by decide, by decide⟩

theorem witness_memoryWake : ∃ port : Fin 19, ∃ s : State, ((s.fget fMEM_STATUS_state = 3 ∨ s.fget fMEM_STATUS_state = 4)) :=
  ⟨0, up.fput fMEM_STATUS_state 0 3, by decide⟩

theorem witness_selfRefreshExit : ∃ s u : State, ∃ p : Nat, (s.fget fMEM_STATUS_state = 5) ∧ (p = s.hbm.waking.getD portCtrl) ∧ (u = (s.fput
    fMEM_SEG_LOST_lost 0 (Nat.lor (s.fget fMEM_SEG_LOST_lost) (2 ^ 32 - 1 - s.fget fMEM_PASR_keep))).fput fMEM_STATUS_state 0 2) :=
  ⟨up.fput fMEM_STATUS_state 0 5, _, _, by decide, (rfl), rfl⟩

theorem witness_memMapCtlWrite_valid : ∃ m : Fin 16, ∃ v : BitVec 32, ∃ s : State, (s.takesRow .MEM_MAP_CTL m.val) ∧ (m.val ≠ 15) ∧ (s.mapValid m.val
    = true) ∧ (bits v.toNat 8 1 = bits (s.rd .MEM_MAP_CTL m.val).toNat 8 1) :=
  ⟨0, 0x80, up, by decide, by decide, by decide, by decide⟩

theorem witness_memMapCtlWrite_valid_drop : ∃ m : Fin 16, ∃ v : BitVec 32, ∃ s : State, (s.takesRow .MEM_MAP_CTL m.val) ∧ (m.val ≠ 15) ∧ (s.mapValid
    m.val = true) ∧ (bits v.toNat 8 1 ≠ bits (s.rd .MEM_MAP_CTL m.val).toNat 8 1) :=
  ⟨0, 0, up, by decide, by decide, by decide, by decide⟩

theorem witness_memMapCtlWrite_fits : ∃ m : Fin 16, ∃ v : BitVec 32, ∃ s : State, (s.takesRow .MEM_MAP_CTL m.val) ∧ (m.val ≠ 15) ∧ (s.mapValid m.val
    = false) ∧ let p : MapSpec := { s.mapSpec m.val with kind := bits v.toNat 2 1, index := bits v.toNat 4 3, grain := bits v.toNat 8 5 }; (bits
    v.toNat 0 0 = 1) ∧ (s.mapFits m.val p = true) :=
  ⟨1, 0x81, up, by decide, by decide, by decide, by decide, by decide⟩

theorem witness_memMapCtlWrite_misfit : ∃ m : Fin 16, ∃ v : BitVec 32, ∃ s : State, (s.takesRow .MEM_MAP_CTL m.val) ∧ (m.val ≠ 15) ∧ (s.mapValid
    m.val = false) ∧ let p : MapSpec := { s.mapSpec m.val with kind := bits v.toNat 2 1, index := bits v.toNat 4 3, grain := bits v.toNat 8 5 };
    (bits v.toNat 0 0 = 1) ∧ (s.mapFits m.val p = false) :=
  ⟨1, 0x1E1, up, by decide, by decide, by decide, by decide, by decide⟩

theorem witness_memMapCtlWrite_stored : ∃ m : Fin 16, ∃ v : BitVec 32, ∃ s : State, (s.takesRow .MEM_MAP_CTL m.val) ∧ (m.val ≠ 15) ∧ (s.mapValid
    m.val = false) ∧ let p : MapSpec := { s.mapSpec m.val with kind := bits v.toNat 2 1, index := bits v.toNat 4 3, grain := bits v.toNat 8 5 };
    (bits v.toNat 0 0 = 0) :=
  ⟨1, 0, up, by decide, by decide, by decide, by decide⟩

theorem witness_refreshStop : ∃ s : State, (s.fget fMEM_STATUS_state = 2) ∧ (s.hbm.stopped = false) :=
  ⟨serving, by decide, by decide⟩

theorem witness_refreshStopEnd : ∃ errs : List LaneErr, ∃ s : State, (s.hbm.stopped = true) ∧ (s.maintenance = false) :=
  ⟨[], { serving.fput fMEM_REF_STAT_stops 0 2 with hbm := { serving.hbm with stopped := true, lastGrid := some 1 } }, by decide, by decide⟩

theorem witness_refreshStopEnd_maintenance : ∃ errs : List LaneErr, ∃ s u : State, (s.hbm.stopped = true) ∧ (s.maintenance = true) ∧ (u = errs.foldl
    State.countLane (s.advance (s.mer0Instant (s.gridPoint (s.hbm.lastGrid.getD 0) + 1440)))) :=
  ⟨[], { serving with hbm := { serving.hbm with stopped := true, lastGrid := some 1 } }, _, by decide, by decide, rfl⟩

theorem witness_stackTempRead : ∃ temps : BitVec 32, ∃ s : State, (s.fget fMEM_STATUS_state = 2) ∧ let u := s.fput fMEM_TEMP_temp 0 temps.toNat;
    (trefChoice temps.toNat s.trefFast = s.trefFast) :=
  ⟨0, serving, by decide, by decide⟩

theorem witness_stackTempRead_fast : ∃ temps : BitVec 32, ∃ s : State, (s.fget fMEM_STATUS_state = 2) ∧ let u := s.fput fMEM_TEMP_temp 0 temps.toNat;
    (trefChoice temps.toNat s.trefFast ≠ s.trefFast) :=
  ⟨85, serving, by decide, by decide⟩

theorem witness_memMapSet : ∃ s u : State, ∃ k : Packet, (s.accepts 0x1001 k) ∧ (u = s.begun k) ∧ (u8 k 0 < 15) ∧ (u8 k 1 ≤ 3) ∧ (u8 k 2 ≤ 3) ∧ (u8 k
    3 ≤ 15) ∧ (u8 k 4 ≤ 1) ∧ (u.acceptedJobs = []) ∧ ((u8 k 4 = 1 → u.mapFits (u8 k 0) ⟨u8 k 1, u8 k 2, u8 k 3, u32 k 8, u32 k 12⟩ = true)) :=
  ⟨expert, _, pk 1, by decide, rfl, by decide, by decide, by decide, by decide, by decide, by decide, by decide⟩

theorem witness_memTrain : ∃ s u : State, ∃ k : Packet, (s.accepts 0x1002 k) ∧ (u = s.begun k) ∧ (u8 k 0 < 64) ∧ (u.channelUsed (u8 k 0) = false) :=
  ⟨expert, _, pk 0, by decide, rfl, by decide, by decide⟩

/-- Whether the retraining succeeds is a free value, so the witness gives both cases. -/
theorem witness_memChRecover : ∃ (s u : State) (k : Packet), s.accepts 0x1003 k ∧ u = s.begun k ∧ u8 k 0 < 64 ∧
    u.chFaulted (u8 k 0) = true ∧ u.channelUsed (u8 k 0) = false ∧
    (u.awake.fresh.2.getLsbD 0 = true ∨ u.awake.fresh.2.getLsbD 0 = false) :=
  ⟨serving.fput fMEM_CH_STAT_state 3 2, _, pk 3, by decide, rfl, by decide, by decide, by decide, by cases (BitVec.getLsbD _ 0) <;> simp⟩

theorem witness_memSelfRefresh : ∃ s u : State, ∃ k : Packet, (s.accepts 0x1004 k) ∧ (u = s.begun k) ∧ (u.acceptedJobs = []) ∧ (u.acqBusy = []) ∧
    (u.dmaDescs = []) ∧ (u.fget fMEM_STATUS_state = 2) :=
  ⟨serving, _, pk 0, by decide, rfl, by decide, by decide, by decide, by decide⟩

theorem witness_memSegClear : ∃ s u : State, ∃ k : Packet, ∃ mask : Nat, (s.accepts 0x1005 k) ∧ (u = s.begun k) ∧ (mask = Nat.land (u32 k 0)
    (u.awake.fget fMEM_SEG_LOST_lost)) ∧ (mask ≠ 0) :=
  ⟨serving.fput fMEM_SEG_LOST_lost 0 1, _, pk 1, 1, by decide, rfl, by decide, by decide⟩

/-- Space 6 is valid, with its root table at HPA 0. -/
def space6 : State := mapped.fput fCHT_AS_CTL_valid 6 1
/-- The root table's first entry maps 1 GiB for reading and writing. -/
def leaf6 : State := { space6 with hbm := { space6.hbm with mem := [(0, 0xF)] } }
/-- A fault of a source stands in slot 0 for a space. -/
def fault0 (source space : Nat) : State :=
  { space6 with chart := { space6.chart with slots := [(0, some ⟨source, space, 0, 1, 1, false, false, true, 0, 0, 0⟩)] } }

theorem witness_aspaceSet : ∃ s u : State, ∃ k : Packet, (s.accepts 0x1006 k) ∧ (u = s.begun k) ∧ (u8 k 0 < 252) ∧ (u8 k 1 ≤ 1) ∧ (u8 k 2 ≤ 31) ∧
    (u16 k 4 < 16384) ∧ (u64 k 8 < 2 ^ 44) ∧ (u64 k 8 % max 256 (2 ^ (3 + min (u8 k 2) 18)) = 0) ∧ (u.spaceBusy (u8 k 0) = false) :=
  ⟨mapped, _, pk 5, by decide, rfl, by decide, by decide, by decide, by decide, by decide, by decide, by decide⟩

theorem witness_chartMap : ∃ s u : State, ∃ k : Packet, (s.accepts 0x1007 k) ∧ (u = s.begun k) ∧ let pb := leafBits (3 - u8 k 1);
    let leaf (i : Nat) : Nat := leafEntry (u8 k 2) (u64 k 16 + i * 2 ^ pb); let r := u.leaves (u8 k 0) (u64 k 8) (u64 k 24); u8 k 0 < 252 ∧ (u8 k 1 ≤
    2) ∧ (u8 k 2 ≤ 3) ∧ (u.spaceValid (u8 k 0) = true) ∧ (0 < u64 k 24) ∧ (u64 k 8 % 2 ^ pb = 0) ∧ (u64 k 16 % 2 ^ pb = 0) ∧ (u64 k 24 % 2 ^ pb = 0)
    ∧ (u64 k 8 + u64 k 24 ≤ 2 ^ (30 + u.spaceSpan (u8 k 0))) ∧ (u64 k 16 + u64 k 24 ≤ 2 ^ 44) ∧ ((∀ i < u64 k 24 / 2 ^ pb, u.badEntry (3 - u8 k 1)
    (leaf i) = false)) ∧ (u.tableRoom (u.fget fCHT_AS_ROOT_hpa (u8 k 0)) (u64 k 8) (3 - u8 k 1) (u64 k 24 / 2 ^ pb) = true) ∧ (r.2.2.1 = none) ∧
    (r.2.1.any (r.1.leafProtected (u8 k 0)) = false) :=
  ⟨space6, _, pk (6 + 3 * 2 ^ 16 + 65536 * 2 ^ 192), by decide, rfl, by decide, by decide, by decide, by decide, by decide, by decide, by decide,
      by decide, by decide, by decide, by decide, by decide, by decide +kernel, by decide +kernel⟩

theorem witness_chartUnmap : ∃ s u : State, ∃ k : Packet, (s.accepts 0x1008 k) ∧ (u = s.begun k) ∧ let r := u.leaves (u8 k 0) (u64 k 8) (u64 k 24);
    u8 k 0 < 252 ∧ (u.spaceValid (u8 k 0) = true) ∧ (u64 k 8 + u64 k 24 ≤ 2 ^ 48) ∧ (r.2.2.1 = none) ∧ (r.2.2.2 = false) ∧ ((∀ l ∈ r.2.1, u64 k 8 ≤
    l.1 ∧ l.1 + 2 ^ l.2 ≤ u64 k 8 + u64 k 24)) ∧ (r.2.1.any (r.1.leafProtected (u8 k 0)) = false) :=
  ⟨leaf6, _, pk (6 + 2 ^ 30 * 2 ^ 192), by decide, rfl, by decide, by decide, by decide, by decide +kernel, by decide +kernel, by decide +kernel, by decide +kernel⟩

theorem witness_chartInvalidate : ∃ s : State, ∃ k : Packet, (s.accepts 0x1009 k) ∧ (u8 k 1 = 0) :=
  ⟨mapped, pk 5, by decide, by decide⟩

theorem witness_chartRetry : ∃ s u v : State, ∃ k : Packet, ∃ i : Nat, ∃ f : FaultSlot, (s.accepts 0x100A k) ∧ (u = s.begun k) ∧ (u.slotOfId (u16 k
    0) = some (i, f)) ∧ (u.retryFault i = (v, 0)) :=
  ⟨{ fault0 16 6 with hbm := leaf6.hbm }, _, _, pk 0, 0, ⟨16, 6, 0, 1, 1, false, false, true, 0, 0, 0⟩, by decide, rfl, by decide, (pair_of
      (by decide +kernel))⟩

theorem witness_chartRetry_still : ∃ s u v : State, ∃ k : Packet, ∃ i : Nat, ∃ f : FaultSlot, (s.accepts 0x100A k) ∧ (u = s.begun k) ∧ (u.slotOfId
    (u16 k 0) = some (i, f)) ∧ ∃ kind, (u.retryFault i = (v, kind + 1)) :=
  ⟨fault0 16 6, _, _, pk 0, _, _, by decide, rfl, rfl, 0, (pair_of (by decide +kernel))⟩

theorem witness_chartAbandon_dma : ∃ s u : State, ∃ k : Packet, ∃ i : Nat, ∃ f : FaultSlot, (s.accepts 0x100B k) ∧ (u = s.begun k) ∧ (u.slotOfId (u16
    k 0) = some (i, f)) ∧ (16 ≤ f.source) ∧ (f.source < 32) :=
  ⟨fault0 16 5, _, pk 0, _, _, by decide, rfl, rfl, by decide, by decide⟩

theorem witness_chartAbandon_wayline : ∃ s u : State, ∃ k : Packet, ∃ i : Nat, ∃ f : FaultSlot, (s.accepts 0x100B k) ∧ (u = s.begun k) ∧ (u.slotOfId
    (u16 k 0) = some (i, f)) ∧ (32 ≤ f.source) :=
  ⟨fault0 33 5, _, pk 0, _, _, by decide, rfl, rfl, by decide⟩

theorem witness_chartAbandon_pilot : ∃ s u : State, ∃ k : Packet, ∃ i : Nat, ∃ f : FaultSlot, (s.accepts 0x100B k) ∧ (u = s.begun k) ∧ (u.slotOfId
    (u16 k 0) = some (i, f)) ∧ (f.source < 16) :=
  ⟨fault0 0 5, _, pk 0, _, _, by decide, rfl, rfl, by decide⟩

/-- DMA channel 1 works on a fill of space 6. -/
def walks6 : State := (space6.fput fDMA_CH_STAT_state 1 1).setDmaCh 1 { desc := some (1 + 6 * 2 ^ 24 + 8 * 2 ^ 192) }
/-- 64 walks are in flight. -/
def walksFull : State := { space6 with chart := { space6.chart with walks := (List.range 64).map (fun i => ⟨16, 6, 65536 * (i + 1), false⟩) } }

theorem witness_walkComplete_known : ∃ source : Fin 35, ∃ space : BitVec 8, ∃ dva : BitVec 64, ∃ write : Bool, ∃ w x : WalkReq, ∃ s t u v : State, (w
    = ⟨source.val, space.toNat, dva.toNat / 65536 * 65536, write⟩) ∧ (x = { w with dva := dva.toNat }) ∧ (t = (if s.chart.asked.any w.same ||
    s.chart.walks.any w.same then s else s.askWalks [w])) ∧ (u = (if source.val < 16 then t.bump fCHT_PLT_CNT_walks source.val else t).countWalk
    source.val) ∧ (s.walkKnown w = true) :=
  ⟨32, 5, 0, false, _, _, mapped, _, _, mapped, rfl, rfl, rfl, rfl, by decide⟩

theorem witness_walkComplete_waits : ∃ source : Fin 35, ∃ space : BitVec 8, ∃ dva : BitVec 64, ∃ write : Bool, ∃ w x : WalkReq, ∃ s t u v : State, (w
    = ⟨source.val, space.toNat, dva.toNat / 65536 * 65536, write⟩) ∧ (x = { w with dva := dva.toNat }) ∧ (t = (if s.chart.asked.any w.same ||
    s.chart.walks.any w.same then s else s.askWalks [w])) ∧ (u = (if source.val < 16 then t.bump fCHT_PLT_CNT_walks source.val else t).countWalk
    source.val) ∧ (s.walkKnown w = false) ∧ (t.chart.walks.any w.same = false) :=
  ⟨32, 6, 0, false, _, _, walksFull, _, _, mapped, rfl, rfl, (rfl), rfl, (by decide +kernel), (of_decide_eq_true (by rfl))⟩

theorem witness_walkComplete : ∃ source : Fin 35, ∃ space : BitVec 8, ∃ dva : BitVec 64, ∃ write : Bool, ∃ w x : WalkReq, ∃ s t u v : State, (w =
    ⟨source.val, space.toNat, dva.toNat / 65536 * 65536, write⟩) ∧ (x = { w with dva := dva.toNat }) ∧ (t = (if s.chart.asked.any w.same ||
    s.chart.walks.any w.same then s else s.askWalks [w])) ∧ (u = (if source.val < 16 then t.bump fCHT_PLT_CNT_walks source.val else t).countWalk
    source.val) ∧ (s.walkKnown w = false) ∧ (t.chart.walks.any w.same = true) ∧ ∃ pb e level : Nat, ∃ y z : State, (u.walk (walkClass source.val)
    space.toNat dva.toNat = (v, .leaf pb e level)) ∧ (y = v.tlbFill (tlbOf source.val) space.toNat dva.toNat pb e (walkClass source.val ==
    .realTime)) ∧ (z = y.endWalks y.walkKnown) ∧ ∃ a left, (leafTrans pb e level dva.toNat write = .hpa a left) :=
  ⟨32, 6, 0, false, _, _, leaf6, _, _, _, rfl, rfl, rfl, rfl, (by decide +kernel), (by decide +kernel), 30, 0xF, 1, _, _, (pair_of
      (by decide +kernel)), rfl, rfl, 0, 2 ^ 30, (rfl)⟩

theorem witness_walkComplete_fault : ∃ source : Fin 35, ∃ space : BitVec 8, ∃ dva : BitVec 64, ∃ write : Bool, ∃ w x : WalkReq, ∃ s t u v : State, (w
    = ⟨source.val, space.toNat, dva.toNat / 65536 * 65536, write⟩) ∧ (x = { w with dva := dva.toNat }) ∧ (t = (if s.chart.asked.any w.same ||
    s.chart.walks.any w.same then s else s.askWalks [w])) ∧ (u = (if source.val < 16 then t.bump fCHT_PLT_CNT_walks source.val else t).countWalk
    source.val) ∧ (s.walkKnown w = false) ∧ (t.chart.walks.any w.same = true) ∧ ∃ pb e level : Nat, ∃ y z : State, (u.walk (walkClass source.val)
    space.toNat dva.toNat = (v, .leaf pb e level)) ∧ (y = v.tlbFill (tlbOf source.val) space.toNat dva.toNat pb e (walkClass source.val ==
    .realTime)) ∧ (z = y.endWalks y.walkKnown) ∧ ∃ kind lv d, (leafTrans pb e level dva.toNat write = .fault kind lv d) :=
  ⟨0, 6, 0, true, _, _, { space6 with hbm := { space6.hbm with mem := [(0, 7)] } }, _, _, _, rfl, rfl, rfl, rfl, (by decide +kernel),
      (by decide +kernel), 30, 7, 1, _, _, (pair_of (by decide +kernel)), rfl, rfl, 2, 1, 7, (rfl)⟩

theorem witness_walkComplete_no_leaf : ∃ source : Fin 35, ∃ space : BitVec 8, ∃ dva : BitVec 64, ∃ write : Bool, ∃ w x : WalkReq, ∃ s t u v : State,
    (w = ⟨source.val, space.toNat, dva.toNat / 65536 * 65536, write⟩) ∧ (x = { w with dva := dva.toNat }) ∧ (t = (if s.chart.asked.any w.same ||
    s.chart.walks.any w.same then s else s.askWalks [w])) ∧ (u = (if source.val < 16 then t.bump fCHT_PLT_CNT_walks source.val else t).countWalk
    source.val) ∧ (s.walkKnown w = false) ∧ (t.chart.walks.any w.same = true) ∧ ∃ kind lv d, (u.walk (walkClass source.val) space.toNat dva.toNat =
    (v, .fault kind lv d)) :=
  ⟨33, 6, 0, false, _, _, space6, _, _, _, rfl, rfl, rfl, rfl, (by decide +kernel), (by decide +kernel), 1, 1, 0, (pair_of (by decide +kernel))⟩

theorem witness_walkFaults_pilot : ∃ w : WalkReq, ∃ v y : State, ∃ kind level e id c : Nat, (c = w.source - 16) ∧ (w.source < 16) :=
  ⟨⟨0, 6, 0, false⟩, space6, up, 1, 1, 0, 0, _, rfl, by decide⟩

theorem witness_walkFaults_dma : ∃ w : WalkReq, ∃ v y : State, ∃ kind level e id c : Nat, (c = w.source - 16) ∧ (16 ≤ w.source) ∧ (w.source < 32) ∧
    (v.dmaState c = 1) ∧ ((v.dmaCh c).desc.isSome = true) ∧ ((v.dmaCh c).status = 0) ∧ (v.raiseFault (mkFault w.source w.space w.dva kind level e
    w.write false true) = (y, id)) :=
  ⟨⟨17, 6, 0, false⟩, walks6, _, 1, 1, 0, _, _, rfl, by decide, by decide, by decide, by decide, by decide, (couple)⟩

theorem witness_walkFaults_wayline : ∃ w : WalkReq, ∃ v y : State, ∃ kind level e id c : Nat, (c = w.source - 16) ∧ (32 ≤ w.source) :=
  ⟨⟨33, 6, 0, false⟩, space6, up, 1, 1, 0, 0, _, rfl, by decide⟩

theorem witness_nextWalk_bulk : ∃ asked : List WalkReq, ∃ w : WalkReq, (nextWalk asked = some w) ∧ (walkClass w.source ≠ .realTime) :=
  ⟨[⟨16, 5, 0, false⟩], ⟨16, 5, 0, false⟩, by decide, by decide⟩

theorem witness_nextWalk : ∃ asked : List WalkReq, ∃ w : WalkReq, (nextWalk asked = some w) :=
  ⟨[⟨16, 5, 0, false⟩, ⟨0, 5, 0, false⟩], ⟨0, 5, 0, false⟩, by decide⟩

theorem witness_walks_at_the_limit : ∃ s : State, ∃ ws : List WalkReq, (s.chart.walks.length ≤ 64) :=
  ⟨walksFull, [], by decide⟩

theorem witness_chtInvGo : ∃ s : State, (s.takesRow .CHT_INV_GO 0) ∧ (s.fbit fCHT_INV_SPACE_all = false) :=
  ⟨up, by decide, by decide⟩

/-- A fill of 8 bytes of host memory, and one of space 6. -/
def fillHost : Nat := 1 + 1 * 2 ^ 6 + 8 * 2 ^ 192
def fillDva : Nat := 1 + 6 * 2 ^ 24 + 8 * 2 ^ 192
/-- A copy of 8 bytes from space 6. -/
def copyDva : Nat := 6 * 2 ^ 16 + 1 * 2 ^ 6 + 8 * 2 ^ 192
/-- DMA channel 0 runs, in a state of its own, with a descriptor. -/
def working (st : Nat) : State := (((space6.fput fDMA_CH_CTL_run 0 1).fput fDMA_CH_STAT_state 0 st).setDmaCh 0 { desc := some fillHost })
/-- A source's bytes. -/
theorem ok_of {α : Type} {p : State × Except α (List Byte)} (h : (match p.2 with | .ok _ => true | _ => false) = true) :
    p = (p.1, .ok (match p.2 with | .ok bs => bs | _ => [])) := by
  obtain ⟨v, a⟩ := p
  cases a <;> simp_all
/-- A store's fault. -/
theorem some_of {α : Type} (d : α) {p : State × Option α} (h : p.2.isSome = true) : p = (p.1, some (p.2.getD d)) := by
  obtain ⟨v, a⟩ := p
  cases a <;> simp_all
/-- A source's fault. -/
theorem error_of {α β : Type} (d : α) {p : State × Except α β} (h : (match p.2 with | .error _ => true | _ => false) = true) :
    p = (p.1, .error (match p.2 with | .error f => f | _ => d)) := by
  obtain ⟨v, a⟩ := p
  cases a <;> simp_all
/-- DMA channel 0 with a descriptor. -/
def dma0 (c : DmaChan) : State := { space6 with dma := { space6.dma with chans := [(0, c)] } }

theorem witness_dmaDescriptor : ∃ c : Fin 16, ∃ d : Nat, ∃ s u : State, (s.fbit fDMA_CH_CTL_run c.val = true) ∧ (s.dmaState c.val = 0) ∧ ((s.dmaCh
    c.val).desc = none) ∧ (s.qOn (s.fget fDMA_CH_CTL_ring_q c.val) = true) ∧ (s.cplRoom (s.fget fDMA_CH_CTL_cpl_q c.val) = true) ∧ (s.dmaHeld c.val =
    false) ∧ (s.qTake (s.fget fDMA_CH_CTL_ring_q c.val) = some (d, u)) :=
  ⟨0, _, ((queue5 1 [fillHost]).fput fDMA_CH_CTL_run 0 1).fput fDMA_CH_CTL_ring_q 0 2000, _, by decide, by decide, by decide, by decide, by decide,
      by decide, rfl⟩

theorem witness_granuleComplete : ∃ c : Fin 16, ∃ x : GranuleEnd, ∃ k d : Nat, ∃ s u v : State, ∃ bs : List Byte, (k = x.granule) ∧ (u = s.dmaFill) ∧
    ((u.dmaCh c.val).desc = some d) ∧ ((u.dmaCh c.val).flying.contains k = true) ∧ (dWayline d = false) ∧ (u.granuleSource c.val d k x.err = (v, .ok
    bs)) ∧ ∃ w, (v.granuleStore c.val d k bs = (w, none)) :=
  ⟨0, ⟨0, none⟩, _, fillHost, dma0 { desc := some fillHost, flying := [0] }, _, _, _, (rfl), rfl, by decide, by decide, by decide, rfl, _, rfl⟩

theorem witness_granuleComplete_fault : ∃ c : Fin 16, ∃ x : GranuleEnd, ∃ k d : Nat, ∃ s u v : State, ∃ bs : List Byte, (k = x.granule) ∧ (u =
    s.dmaFill) ∧ ((u.dmaCh c.val).desc = some d) ∧ ((u.dmaCh c.val).flying.contains k = true) ∧ (dWayline d = false) ∧ (u.granuleSource c.val d k
    x.err = (v, .ok bs)) ∧ ∃ w f, (v.granuleStore c.val d k bs = (w, some f)) :=
  ⟨0, ⟨0, none⟩, _, fillDva, dma0 { desc := some fillDva, flying := [0] }, _, _, _, (rfl), rfl, by decide, by decide, by decide, (ok_of
      (by decide +kernel)), _, _, (some_of ⟨0, 0, 0, 0, 0, false, false, false, 0, 0, 0⟩ (by decide +kernel))⟩

theorem witness_granuleComplete_source_fault : ∃ c : Fin 16, ∃ x : GranuleEnd, ∃ k d : Nat, ∃ s u v : State, ∃ f : FaultSlot, (k = x.granule) ∧ (u =
    s.dmaFill) ∧ ((u.dmaCh c.val).desc = some d) ∧ ((u.dmaCh c.val).flying.contains k = true) ∧ (dWayline d = false) ∧ (u.granuleSource c.val d k
    x.err = (v, .error f)) :=
  ⟨0, ⟨0, none⟩, _, copyDva, dma0 { desc := some copyDva, flying := [0] }, _, _, _, (rfl), (rfl), (by decide +kernel), (by decide +kernel),
      by decide, (error_of ⟨0, 0, 0, 0, 0, false, false, false, 0, 0, 0⟩ (by decide +kernel))⟩

theorem witness_granuleSource_host : ∃ c : Fin 16, ∃ d k : Nat, ∃ e : BitVec 3, ∃ s : State, (dOp d = 0) ∧ (dSrcType d = 1) ∧ (s.host.perst = false)
    :=
  ⟨0, 1 * 2 ^ 4 + 8 * 2 ^ 192, 0, 4, up, by decide, by decide, by decide⟩

theorem witness_dmaCompletion : ∃ c : Fin 16, ∃ d st : Nat, ∃ s u : State, ((s.dmaCh c.val).desc = some d) ∧ (s.dmaFinished c.val d = true) ∧
    (s.portQuiet portDM = true) ∧ (st = (s.dmaCh c.val).status) ∧ (u = (s.dmaPost c.val d st).bump fDMA_CH_CNT_completed c.val) :=
  ⟨0, fillHost, _, (dma0 { desc := some fillHost }).fput fDMA_CH_PROG_granule 0 1, _, by decide, by decide, by decide, rfl, rfl⟩

theorem witness_dmaChCtlWrite_stops : ∃ c : Fin 16, ∃ v : BitVec 32, ∃ s u : State, (s.takesRow .DMA_CH_CTL c.val) ∧ (s.fbit fDMA_CH_CTL_run c.val =
    true) ∧ (v.toNat % 2 = 0) ∧ (u = s.fput fDMA_CH_CTL_run c.val 0) ∧ (s.dmaState c.val = 1) ∧ ((s.dmaCh c.val).status = 0) :=
  ⟨0, 0, working 1, _, by decide, by decide, by decide, rfl, by decide, by decide⟩

theorem witness_dmaChCtlWrite_suspended : ∃ c : Fin 16, ∃ v : BitVec 32, ∃ s u : State, (s.takesRow .DMA_CH_CTL c.val) ∧ (s.fbit fDMA_CH_CTL_run
    c.val = true) ∧ (v.toNat % 2 = 0) ∧ (u = s.fput fDMA_CH_CTL_run c.val 0) ∧ ∃ i, (s.dmaState c.val = 2) ∧ (s.dmaFaultSlot c.val = some i) :=
  ⟨0, 0, { working 2 with chart := (fault0 16 5).chart }, _, by decide, by decide, by decide, rfl, 0, by decide, by decide⟩

theorem witness_dmaChCtlWrite_idle : ∃ c : Fin 16, ∃ v : BitVec 32, ∃ s u : State, (s.takesRow .DMA_CH_CTL c.val) ∧ (s.fbit fDMA_CH_CTL_run c.val =
    true) ∧ (v.toNat % 2 = 0) ∧ (u = s.fput fDMA_CH_CTL_run c.val 0) ∧ (s.dmaState c.val ≠ 1) ∧ (s.dmaState c.val ≠ 2) :=
  ⟨0, 0, working 0, _, by decide, by decide, by decide, rfl, by decide, by decide⟩

theorem witness_dmaChCtlWrite : ∃ c : Fin 16, ∃ v : BitVec 32, ∃ s : State, (s.takesRow .DMA_CH_CTL c.val) ∧ (s.fbit fDMA_CH_CTL_run c.val = false) ∧
    (v.toNat % 2 = 1) ∧ (s.dmaState c.val ≠ 3) :=
  ⟨0, 1, up, by decide, by decide, by decide, by decide⟩

theorem witness_dmaChannelSet : ∃ s : State, ∃ k : Packet, (s.accepts 0x100C k) ∧ (u8 k 0 < 16) ∧ (u8 k 1 ≤ 1) ∧ (u16 k 2 < 16384) ∧ (u16 k 4 <
    16384) :=
  ⟨up, pk 0, by decide, by decide, by decide, by decide, by decide⟩

/-- The Ethernet port is up, and MER7 runs at 1 GHz. -/
def netUp : State := ((mapped.fput fETH_CTL_en 0 1).fput fETH_MAC_link 0 1).setMer 7 { st := .running, cfg := { kind := .wall }, rate := 10 * 2 ^ 32 }
/-- The transmit queue is queue 2000 and holds a frame of 64 bytes at DVA 0 of space 5. -/
def txWaits : State := (((netUp.fput fDPT_Q_CTL_en 2000 1).fput fDPT_Q_CTL_size_log2 2000 6).fput fETH_TXQ_queue 0 2000).setDq 2000
  { elems := [5 * 2 ^ 48 + 64 * 2 ^ 64] }

theorem witness_ptpMessage : ∃ t : Nat, ∃ sync measured : Bool, ∃ offset : Int, ∃ s : State, (s.ethUp = true) ∧ ((s.mer 7).st = .running) ∧ ((s.fget
    fMER_WALL_CTL_discipline ≠ 1 ∨ measured = false)) :=
  ⟨0, false, false, 0, netUp, by decide, by decide, by decide⟩

theorem witness_syncTimeout : ∃ s : State, (s.fget fMER_WALL_CTL_discipline = 1) ∧ (s.fbit fETH_PTP_STAT_holdover = false) :=
  ⟨netUp.fput fMER_WALL_CTL_discipline 0 1, by decide, by decide⟩

theorem witness_ethTxElement : ∃ e : Nat, ∃ bs : List Byte, ∃ s u v : State, (s.ethUp = true) ∧ (s.eth.launch = none) ∧ (s.qTake (s.fget
    fETH_TXQ_queue) = some (e, u)) ∧ (u.ethUp = true) ∧ (bitAt e 56 = false) ∧ (u.dvaRead sourceHelm portBP (bits e 55 48) (bits e 47 0) (bits e 74
    64) = (v, .done bs)) :=
  ⟨_, _, txWaits, _, _, by decide, by decide, rfl, by decide, by decide, (read_of (by decide +kernel))⟩

theorem witness_ethLaunch : ∃ f : EthFrame, ∃ t : Nat, ∃ s : State, (s.eth.launch = some f) ∧ ((s.mer 7).instantOf s.eth.launchAt = some t) ∧
    (s.ethUp = true) :=
  ⟨_, _, { netUp with eth := { netUp.eth with launch := some ⟨0, [], 0⟩ } }, rfl, rfl, by decide⟩

theorem witness_telemetryTimer : ∃ s : State, (s.ethUp = true) ∧ (s.fbit fETH_OOB_en = true) :=
  ⟨netUp.fput fETH_OOB_en 0 1, by decide, by decide⟩

theorem witness_fixRequestDatagram : ∃ src : BitVec 32, ∃ port : BitVec 16, ∃ s : State, (s.ethUp = true) ∧ (s.fbit fETH_OOB_en = true) ∧ (src.toNat
    = s.fget fETH_OOB_PEER_ipv4) ∧ (port.toNat = s.fget fETH_OOB_port) ∧ (s.helm.fix = none) :=
  ⟨0, 0, netUp.fput fETH_OOB_en 0 1, by decide, by decide, by decide, by decide, by decide⟩

theorem witness_msixUnmask : ∃ v : Fin 2048, ∃ s : State, (s.host.msixPending = [(v.val, true)]) :=
  ⟨3, { up with host := { up.host with msixPending := [(3, true)] } }, by decide⟩

/-! ### Route instructions -/

/-- A route of one pin with rows of one byte: 16 rows, 16 instructions, 4 branches, 2 legs, 4 row-table rows; group 0 is position 0, and so is
scan group 0. Its tables lie at DVA 0. -/
def hdr1 : Nat := 1 * 2 ^ 64 + 1 * 2 ^ 72 + 16 * 2 ^ 256 + 16 * 2 ^ 384 + 16 * 2 ^ 512 + 4 * 2 ^ 640 + 2 * 2 ^ 672 + 4 * 2 ^ 832 +
  1 * 2 ^ 1408 + 1 * 2 ^ 1920
/-- Job 1's route on Pilot 0, in a leg whose entry is given, with the sequencer as given. -/
def inLeg (q : Seq) (entry : Nat := 0) : State :=
  { leg1 with pilots := [(0, { st := .inLeg, job := 1, hdr := hdr1, q := q, leg := { entry := entry } })] }

theorem witness_nop : ∃ p : PilotNo, ∃ s t : State, (s.takesWord p.val 0 t) :=
  ⟨0, leg1, _, ⟨by decide, by decide, by decide, by decide, by decide, _, rfl⟩⟩

theorem witness_vec : ∃ p : PilotNo, ∃ n : BitVec 32, ∃ s t : State, (s.takesWord p.val (0x01 * 2 ^ 56 + n.toNat) t) ∧ (0 < n.toNat) :=
  ⟨0, 1, leg1, _, ⟨by decide, by decide, by decide, by decide, by decide, _, rfl⟩, by decide⟩

theorem witness_vec_0 : ∃ p : PilotNo, ∃ n : BitVec 32, ∃ s t : State, (s.takesWord p.val (0x01 * 2 ^ 56 + n.toNat) t) ∧ (n.toNat = 0) :=
  ⟨0, 0, leg1, _, ⟨by decide, by decide, by decide, by decide, by decide, _, rfl⟩, by decide⟩

theorem witness_rpt : ∃ p : PilotNo, ∃ n : BitVec 32, ∃ s t : State, (s.takesWord p.val (0x02 * 2 ^ 56 + n.toNat) t) ∧ (0 < n.toNat) :=
  ⟨0, 1, leg1, _, ⟨by decide, by decide, by decide, by decide, by decide, _, rfl⟩, by decide⟩

theorem witness_rpt_0 : ∃ p : PilotNo, ∃ n : BitVec 32, ∃ s t : State, (s.takesWord p.val (0x02 * 2 ^ 56 + n.toNat) t) ∧ (n.toNat = 0) :=
  ⟨0, 0, leg1, _, ⟨by decide, by decide, by decide, by decide, by decide, _, rfl⟩, by decide⟩

theorem witness_pad : ∃ p : PilotNo, ∃ n : BitVec 32, ∃ s t : State, (s.takesWord p.val (0x03 * 2 ^ 56 + n.toNat) t) ∧ (0 < n.toNat) :=
  ⟨0, 1, leg1, _, ⟨by decide, by decide, by decide, by decide, by decide, _, rfl⟩, by decide⟩

theorem witness_pad_0 : ∃ p : PilotNo, ∃ n : BitVec 32, ∃ s t : State, (s.takesWord p.val (0x03 * 2 ^ 56 + n.toNat) t) ∧ (n.toNat = 0) :=
  ⟨0, 0, leg1, _, ⟨by decide, by decide, by decide, by decide, by decide, _, rfl⟩, by decide⟩

theorem witness_scan_0 : ∃ p : PilotNo, ∃ g : Fin 4, ∃ n : BitVec 32, ∃ s t : State, (s.takesWord p.val (0x90 * 2 ^ 56 + g.val * 2 ^ 48 + n.toNat) t)
    ∧ ((n.toNat = 0 ∨ hScanGroup (t.pilot p.val).hdr g.val = 0)) :=
  ⟨0, 0, 0, inLeg {}, _, ⟨by decide, by decide, by decide, by decide, by decide, _, rfl⟩, by decide⟩

theorem witness_scan : ∃ p : PilotNo, ∃ g : Fin 4, ∃ n : BitVec 32, ∃ s t : State, (s.takesWord p.val (0x90 * 2 ^ 56 + g.val * 2 ^ 48 + n.toNat) t) ∧
    (0 < n.toNat) ∧ (hScanGroup (t.pilot p.val).hdr g.val ≠ 0) :=
  ⟨0, 0, 1, inLeg {}, _, ⟨by decide, by decide, by decide, by decide, by decide, _, rfl⟩, by decide, by decide⟩

/-- An open loop of a counter. -/
def level (c : Nat) : LoopLevel := ⟨c, 0, 0, 0⟩

theorem witness_jmp : ∃ p : PilotNo, ∃ b : BitVec 16, ∃ bs : List Byte, ∃ s t u : State, (s.takesWord p.val (0x20 * 2 ^ 56 + b.toNat * 2 ^ 32) t) ∧
    (b.toNat < hBranches (t.pilot p.val).hdr) ∧ (t.branchEntry p.val b.toNat = (u, .done bs)) :=
  ⟨0, 1, _, inLeg {}, _, _, ⟨by decide, by decide, by decide, by decide, by decide, _, rfl⟩, by decide, (read_of (by decide +kernel))⟩

theorem witness_jmp_beyond : ∃ p : PilotNo, ∃ b : BitVec 16, ∃ bs : List Byte, ∃ s t u : State, (s.takesWord p.val (0x20 * 2 ^ 56 + b.toNat * 2 ^ 32)
    t) ∧ (hBranches (t.pilot p.val).hdr ≤ b.toNat) :=
  ⟨0, 4, [], inLeg {}, _, up, ⟨by decide, by decide, by decide, by decide, by decide, _, rfl⟩, by decide⟩

theorem witness_call : ∃ p : PilotNo, ∃ b : BitVec 16, ∃ bs : List Byte, ∃ s t u : State, (s.takesWord p.val (0x21 * 2 ^ 56 + b.toNat * 2 ^ 32) t) ∧
    let q := (t.pilot p.val).q; (b.toNat < hBranches (t.pilot p.val).hdr) ∧ (q.calls.length < 16) ∧ (t.branchEntry p.val b.toNat = (u, .done bs)) :=
  ⟨0, 1, _, inLeg { calls := List.replicate 15 (0, 0, 0) }, _, _, ⟨by decide, by decide, by decide, by decide, by decide, _, rfl⟩, by decide,
      by decide, (read_of (by decide +kernel))⟩

theorem witness_call_beyond : ∃ p : PilotNo, ∃ b : BitVec 16, ∃ bs : List Byte, ∃ s t u : State, (s.takesWord p.val (0x21 * 2 ^ 56 + b.toNat * 2 ^
    32) t) ∧ let q := (t.pilot p.val).q; (hBranches (t.pilot p.val).hdr ≤ b.toNat) :=
  ⟨0, 4, [], inLeg {}, _, up, ⟨by decide, by decide, by decide, by decide, by decide, _, rfl⟩, by decide⟩

theorem witness_call_full : ∃ p : PilotNo, ∃ b : BitVec 16, ∃ bs : List Byte, ∃ s t u : State, (s.takesWord p.val (0x21 * 2 ^ 56 + b.toNat * 2 ^ 32)
    t) ∧ let q := (t.pilot p.val).q; (b.toNat < hBranches (t.pilot p.val).hdr) ∧ (16 ≤ q.calls.length) :=
  ⟨0, 1, [], inLeg { calls := List.replicate 16 (0, 0, 0) }, _, up, ⟨by decide, by decide, by decide, by decide, by decide, _, rfl⟩, by decide,
      by decide⟩

theorem witness_ret : ∃ p : PilotNo, ∃ s t : State, (s.takesWord p.val (0x22 * 2 ^ 56) t) ∧ ∃ i r c, ((t.pilot p.val).q.calls.getLast? = some (i, r,
    c)) :=
  ⟨0, inLeg { calls := [(0, 0, 0)] }, _, ⟨by decide, by decide, by decide, by decide, by decide, _, rfl⟩, 0, 0, 0, by decide⟩

theorem witness_ret_empty : ∃ p : PilotNo, ∃ s t : State, (s.takesWord p.val (0x22 * 2 ^ 56) t) ∧ ((t.pilot p.val).q.calls = []) :=
  ⟨0, inLeg {}, _, ⟨by decide, by decide, by decide, by decide, by decide, _, rfl⟩, by decide⟩

theorem witness_jmpInd : ∃ p : PilotNo, ∃ a : Fin 8, ∃ bs : List Byte, ∃ s t u : State, (s.takesWord p.val (0x26 * 2 ^ 56 + a.val * 2 ^ 48) t) ∧
    (t.aluReg p.val a.val % 65536 < hBranches (t.pilot p.val).hdr) ∧ (t.branchEntry p.val (t.aluReg p.val a.val % 65536) = (u, .done bs)) :=
  ⟨0, 0, _, inLeg {}, _, _, ⟨by decide, by decide, by decide, by decide, by decide, _, rfl⟩, by decide, (read_of (by decide +kernel))⟩

theorem witness_jmpInd_beyond : ∃ p : PilotNo, ∃ a : Fin 8, ∃ bs : List Byte, ∃ s t u : State, (s.takesWord p.val (0x26 * 2 ^ 56 + a.val * 2 ^ 48) t)
    ∧ (hBranches (t.pilot p.val).hdr ≤ t.aluReg p.val a.val % 65536) :=
  ⟨0, 0, [], inLeg { a := [(0, 4)] }, _, up, ⟨by decide, by decide, by decide, by decide, by decide, _, rfl⟩, by decide⟩

theorem witness_jmpAnz_0 : ∃ p : PilotNo, ∃ a : Fin 8, ∃ b : BitVec 16, ∃ bs : List Byte, ∃ s t u : State, (s.takesWord p.val (0x2B * 2 ^ 56 + a.val
    * 2 ^ 48 + b.toNat * 2 ^ 32) t) ∧ (b.toNat < hBranches (t.pilot p.val).hdr) ∧ (t.aluReg p.val a.val = 0) :=
  ⟨0, 0, 1, [], inLeg {}, _, up, ⟨by decide, by decide, by decide, by decide, by decide, _, rfl⟩, by decide, by decide⟩

theorem witness_jmpAnz : ∃ p : PilotNo, ∃ a : Fin 8, ∃ b : BitVec 16, ∃ bs : List Byte, ∃ s t u : State, (s.takesWord p.val (0x2B * 2 ^ 56 + a.val *
    2 ^ 48 + b.toNat * 2 ^ 32) t) ∧ (b.toNat < hBranches (t.pilot p.val).hdr) ∧ (t.aluReg p.val a.val ≠ 0) ∧ (t.branchEntry p.val b.toNat = (u, .done
    bs)) :=
  ⟨0, 0, 1, _, inLeg { a := [(0, 1)] }, _, _, ⟨by decide, by decide, by decide, by decide, by decide, _, rfl⟩, by decide, by decide, (read_of
      (by decide +kernel))⟩

theorem witness_jmpAnz_beyond : ∃ p : PilotNo, ∃ a : Fin 8, ∃ b : BitVec 16, ∃ bs : List Byte, ∃ s t u : State, (s.takesWord p.val (0x2B * 2 ^ 56 +
    a.val * 2 ^ 48 + b.toNat * 2 ^ 32) t) ∧ (hBranches (t.pilot p.val).hdr ≤ b.toNat) :=
  ⟨0, 0, 4, [], inLeg {}, _, up, ⟨by decide, by decide, by decide, by decide, by decide, _, rfl⟩, by decide⟩

theorem witness_loop : ∃ p : PilotNo, ∃ c : Fin 8, ∃ b : BitVec 16, ∃ n : BitVec 32, ∃ bs : List Byte, ∃ s t u : State, (s.takesWord p.val (0x10 * 2
    ^ 56 + c.val * 2 ^ 48 + b.toNat * 2 ^ 32 + n.toNat) t) ∧ let x := t.pilot p.val; (0 < n.toNat) ∧ (b.toNat < hBranches x.hdr) ∧ (x.q.loops.length
    < 8) ∧ ((∀ l ∈ x.q.loops, l.counter ≠ c.val)) ∧ (t.branchEntry p.val b.toNat = (u, .done bs)) :=
  ⟨0, 0, 1, 1, _, inLeg {}, _, _, ⟨by decide, by decide, by decide, by decide, by decide, _, rfl⟩, by decide, by decide, by decide, by decide,
      (read_of (by decide +kernel))⟩

theorem witness_loop_0 : ∃ p : PilotNo, ∃ c : Fin 8, ∃ b : BitVec 16, ∃ n : BitVec 32, ∃ bs : List Byte, ∃ s t u : State, (s.takesWord p.val (0x10 *
    2 ^ 56 + c.val * 2 ^ 48 + b.toNat * 2 ^ 32 + n.toNat) t) ∧ let x := t.pilot p.val; ((n.toNat = 0 ∨ hBranches x.hdr ≤ b.toNat)) :=
  ⟨0, 0, 1, 0, [], inLeg {}, _, up, ⟨by decide, by decide, by decide, by decide, by decide, _, rfl⟩, by decide⟩

theorem witness_loop_again : ∃ p : PilotNo, ∃ c : Fin 8, ∃ b : BitVec 16, ∃ n : BitVec 32, ∃ bs : List Byte, ∃ s t u : State, (s.takesWord p.val
    (0x10 * 2 ^ 56 + c.val * 2 ^ 48 + b.toNat * 2 ^ 32 + n.toNat) t) ∧ let x := t.pilot p.val; (0 < n.toNat) ∧ (b.toNat < hBranches x.hdr) ∧ ((8 ≤
    x.q.loops.length ∨ ∃ l ∈ x.q.loops, l.counter = c.val)) :=
  ⟨0, 0, 1, 1, [], inLeg { loops := [level 0] }, _, up, ⟨by decide, by decide, by decide, by decide, by decide, _, rfl⟩, by decide, by decide, (.inr
      ⟨level 0, by decide, by decide⟩)⟩

theorem witness_endl_nesting : ∃ p : PilotNo, ∃ c : Fin 8, ∃ l : LoopLevel, ∃ bs : List Byte, ∃ s t u : State, (s.takesWord p.val (0x11 * 2 ^ 56 +
    c.val * 2 ^ 48) t) ∧ ((t.pilot p.val).q.loops.getLast? = some l) ∧ let v := (nget 0 c.val (t.pilot p.val).q.lc + 2 ^ 32 - 1) % 2 ^ 32;
    let lc := nset 0 c.val v (t.pilot p.val).q.lc; (l.counter ≠ c.val) :=
  ⟨0, 0, level 1, [], inLeg { loops := [level 1] }, _, up, ⟨by decide, by decide, by decide, by decide, by decide, _, rfl⟩, by decide, by decide⟩

theorem witness_endl_last : ∃ p : PilotNo, ∃ c : Fin 8, ∃ l : LoopLevel, ∃ bs : List Byte, ∃ s t u : State, (s.takesWord p.val (0x11 * 2 ^ 56 + c.val
    * 2 ^ 48) t) ∧ ((t.pilot p.val).q.loops.getLast? = some l) ∧ let v := (nget 0 c.val (t.pilot p.val).q.lc + 2 ^ 32 - 1) % 2 ^ 32;
    let lc := nset 0 c.val v (t.pilot p.val).q.lc; (l.counter = c.val) ∧ (v = 0) :=
  ⟨0, 0, level 0, [], inLeg { loops := [level 0], lc := [(0, 1)] }, _, up, ⟨by decide, by decide, by decide, by decide, by decide, _, rfl⟩,
      by decide, by decide, by decide⟩

theorem witness_endl : ∃ p : PilotNo, ∃ c : Fin 8, ∃ l : LoopLevel, ∃ bs : List Byte, ∃ s t u : State, (s.takesWord p.val (0x11 * 2 ^ 56 + c.val * 2
    ^ 48) t) ∧ ((t.pilot p.val).q.loops.getLast? = some l) ∧ let v := (nget 0 c.val (t.pilot p.val).q.lc + 2 ^ 32 - 1) % 2 ^ 32;
    let lc := nset 0 c.val v (t.pilot p.val).q.lc; (l.counter = c.val) ∧ (v ≠ 0) ∧ (l.top < hBranches (t.pilot p.val).hdr) ∧ (t.branchEntry p.val
    l.top = (u, .done bs)) :=
  ⟨0, 0, level 0, _, inLeg { loops := [level 0], lc := [(0, 2)] }, _, _, ⟨by decide, by decide, by decide, by decide, by decide, _, rfl⟩, by decide,
      by decide, by decide, by decide, (read_of (by decide +kernel))⟩

theorem witness_endl_none : ∃ p : PilotNo, ∃ c : Fin 8, ∃ s t : State, (s.takesWord p.val (0x11 * 2 ^ 56 + c.val * 2 ^ 48) t) ∧ ((t.pilot
    p.val).q.loops = []) :=
  ⟨0, 0, inLeg {}, _, ⟨by decide, by decide, by decide, by decide, by decide, _, rfl⟩, by decide⟩

theorem witness_pvCapt_0 : ∃ p : PilotNo, ∃ bit : Bool, ∃ v : Fin 8, ∃ m : BitVec 48, ∃ s t : State, (s.takesWord p.val (0x82 * 2 ^ 56 + b2n bit * 2
    ^ 52 + v.val * 2 ^ 48 + m.toNat) t) ∧ ((t.pilot p.val).q.next = 0) :=
  ⟨0, true, 0, 1, inLeg {}, _, ⟨by decide, by decide, by decide, by decide, by decide, _, rfl⟩, by decide⟩

theorem witness_matchLoop_waits : ∃ p : PilotNo, ∃ g : Fin 8, ∃ b : BitVec 16, ∃ k1 : BitVec 12, ∃ t1 : BitVec 20, ∃ s t : State, (s.takesWord p.val
    (0x28 * 2 ^ 56 + g.val * 2 ^ 48 + b.toNat * 2 ^ 32 + k1.toNat * 2 ^ 20 + t1.toNat) t) ∧ let x := t.pilot p.val; b.toNat < hBranches x.hdr ∧
    (x.q.row + (k1.toNat + 1) ≤ hVecRows x.hdr) ∧ ((x.str.fifo.length < (k1.toNat + 1) * hRowBytes x.hdr ∨ x.str.fifoLo ≠ x.q.row * hRowBytes x.hdr))
    :=
  ⟨0, 0, 1, 0, 0, inLeg {}, _, ⟨by decide, by decide, by decide, by decide, by decide, _, rfl⟩, by decide, by decide, by decide⟩

theorem witness_failMark : ∃ p : PilotNo, ∃ s t : State, (s.takesWord p.val (0x23 * 2 ^ 56) t) :=
  ⟨0, inLeg {}, _, ⟨by decide, by decide, by decide, by decide, by decide, _, rfl⟩⟩

theorem witness_jmpFail : ∃ p : PilotNo, ∃ g : Fin 8, ∃ b : BitVec 16, ∃ s t : State, (s.takesWord p.val (0x24 * 2 ^ 56 + g.val * 2 ^ 48 + b.toNat *
    2 ^ 32) t) ∧ (b.toNat < hBranches (t.pilot p.val).hdr) ∧ ((t.pilot p.val).q.next ≤ (t.pilot p.val).leg.failMark) :=
  ⟨0, 0, 1, inLeg {}, _, ⟨by decide, by decide, by decide, by decide, by decide, _, rfl⟩, by decide, by decide⟩

theorem witness_jmpFail_waits : ∃ p : PilotNo, ∃ g : Fin 8, ∃ b : BitVec 16, ∃ s t : State, (s.takesWord p.val (0x24 * 2 ^ 56 + g.val * 2 ^ 48 +
    b.toNat * 2 ^ 32) t) ∧ (b.toNat < hBranches (t.pilot p.val).hdr) ∧ ((t.pilot p.val).leg.failMark < (t.pilot p.val).q.next) :=
  ⟨0, 0, 1, inLeg { next := 1 }, _, ⟨by decide, by decide, by decide, by decide, by decide, _, rfl⟩, by decide, by decide⟩

theorem witness_jmpPass : ∃ p : PilotNo, ∃ g : Fin 8, ∃ b : BitVec 16, ∃ s t : State, (s.takesWord p.val (0x25 * 2 ^ 56 + g.val * 2 ^ 48 + b.toNat *
    2 ^ 32) t) ∧ (b.toNat < hBranches (t.pilot p.val).hdr) ∧ ((t.pilot p.val).q.next ≤ (t.pilot p.val).leg.failMark) :=
  ⟨0, 0, 1, inLeg {}, _, ⟨by decide, by decide, by decide, by decide, by decide, _, rfl⟩, by decide, by decide⟩

theorem witness_jmpPass_waits : ∃ p : PilotNo, ∃ g : Fin 8, ∃ b : BitVec 16, ∃ s t : State, (s.takesWord p.val (0x25 * 2 ^ 56 + g.val * 2 ^ 48 +
    b.toNat * 2 ^ 32) t) ∧ (b.toNat < hBranches (t.pilot p.val).hdr) ∧ ((t.pilot p.val).leg.failMark < (t.pilot p.val).q.next) :=
  ⟨0, 0, 1, inLeg { next := 1 }, _, ⟨by decide, by decide, by decide, by decide, by decide, _, rfl⟩, by decide, by decide⟩

theorem witness_pvCapt : ∃ p : PilotNo, ∃ bit : Bool, ∃ v : Fin 8, ∃ m : BitVec 48, ∃ s t : State, (s.takesWord p.val (0x82 * 2 ^ 56 + b2n bit * 2 ^
    52 + v.val * 2 ^ 48 + m.toNat) t) ∧ (0 < (t.pilot p.val).q.next) :=
  ⟨0, true, 0, 1, inLeg { next := 1 }, _, ⟨by decide, by decide, by decide, by decide, by decide, _, rfl⟩, by decide⟩

theorem witness_matchLoop : ∃ p : PilotNo, ∃ g : Fin 8, ∃ b : BitVec 16, ∃ k1 : BitVec 12, ∃ t1 : BitVec 20, ∃ s t : State, (s.takesWord p.val (0x28
    * 2 ^ 56 + g.val * 2 ^ 48 + b.toNat * 2 ^ 32 + k1.toNat * 2 ^ 20 + t1.toNat) t) ∧ let x := t.pilot p.val; b.toNat < hBranches x.hdr ∧ (x.q.row +
    (k1.toNat + 1) ≤ hVecRows x.hdr) ∧ ((k1.toNat + 1) * hRowBytes x.hdr ≤ x.str.fifo.length) ∧ (x.str.fifoLo = x.q.row * hRowBytes x.hdr) :=
  ⟨0, 0, 1, 0, 0, { inLeg {} with pilots := [(0, { st := .inLeg, job := 1, hdr := hdr1, str := { fifo := [0] } })] }, _, ⟨by decide, by decide,
      by decide, by decide, by decide, _, rfl⟩, by decide, by decide, by decide, by decide⟩

theorem witness_aluSet : ∃ p : PilotNo, ∃ a : Fin 8, ∃ imm : BitVec 32, ∃ s t : State, (s.takesWord p.val (0x29 * 2 ^ 56 + a.val * 2 ^ 48 +
    imm.toNat) t) :=
  ⟨0, 0, 1, inLeg {}, _, ⟨by decide, by decide, by decide, by decide, by decide, _, rfl⟩⟩

theorem witness_aluAdd : ∃ p : PilotNo, ∃ a : Fin 8, ∃ imm : BitVec 32, ∃ s t : State, (s.takesWord p.val (0x2A * 2 ^ 56 + a.val * 2 ^ 48 +
    imm.toNat) t) :=
  ⟨0, 0, 1, inLeg {}, _, ⟨by decide, by decide, by decide, by decide, by decide, _, rfl⟩⟩

theorem witness_legendSel : ∃ p : PilotNo, ∃ bank : Fin 2, ∃ s t : State, (s.takesWord p.val (0x38 * 2 ^ 56 + bank.val) t) :=
  ⟨0, 1, inLeg {}, _, ⟨by decide, by decide, by decide, by decide, by decide, _, rfl⟩⟩

theorem witness_tset : ∃ p : PilotNo, ∃ k : BitVec 11, ∃ s t : State, (s.takesWord p.val (0x3A * 2 ^ 56 + k.toNat) t) :=
  ⟨0, 1, inLeg {}, _, ⟨by decide, by decide, by decide, by decide, by decide, _, rfl⟩⟩

theorem witness_pvLoad : ∃ p : PilotNo, ∃ v : Fin 8, ∃ m : BitVec 48, ∃ s t : State, (s.takesWord p.val (0x80 * 2 ^ 56 + v.val * 2 ^ 48 + m.toNat) t)
    :=
  ⟨0, 0, 1, inLeg {}, _, ⟨by decide, by decide, by decide, by decide, by decide, _, rfl⟩⟩

theorem witness_pvXor : ∃ p : PilotNo, ∃ v : Fin 8, ∃ m : BitVec 48, ∃ s t : State, (s.takesWord p.val (0x81 * 2 ^ 56 + v.val * 2 ^ 48 + m.toNat) t)
    :=
  ⟨0, 0, 1, inLeg {}, _, ⟨by decide, by decide, by decide, by decide, by decide, _, rfl⟩⟩

theorem witness_endLeg : ∃ p : PilotNo, ∃ last : Bool, ∃ s t : State, (s.takesWord p.val (0x42 * 2 ^ 56 + b2n last) t) :=
  ⟨0, true, inLeg {}, _, ⟨by decide, by decide, by decide, by decide, by decide, _, rfl⟩⟩

theorem witness_ffailArm : ∃ p : PilotNo, ∃ s t : State, (s.takesWord p.val (0x51 * 2 ^ 56) t) :=
  ⟨0, inLeg {}, _, ⟨by decide, by decide, by decide, by decide, by decide, _, rfl⟩⟩

theorem witness_msPost : ∃ p : PilotNo, ∃ q : Fin 16, ∃ tag : BitVec 16, ∃ s t : State, (s.takesWord p.val (0x34 * 2 ^ 56 + q.val * 2 ^ 48 +
    tag.toNat) t) :=
  ⟨0, 0, 1, inLeg {}, _, ⟨by decide, by decide, by decide, by decide, by decide, _, rfl⟩⟩

theorem witness_sxtWin : ∃ p : PilotNo, ∃ ch : Fin 64, ∃ opens len : BitVec 24, ∃ s t : State, (s.takesWord p.val (0x60 * 2 ^ 56 + ch.val * 2 ^ 48 +
    opens.toNat * 2 ^ 24 + len.toNat) t) ∧ (ch.val ≤ 51) ∧ (bitAt (t.pjob p.val).sxtChans ch.val = true) :=
  ⟨0, 0, 0, 1, inLeg {}, _, ⟨by decide, by decide, by decide, by decide, by decide, _, rfl⟩, by decide, by decide⟩

theorem witness_sxtWin_not_owned : ∃ p : PilotNo, ∃ ch : Fin 64, ∃ opens len : BitVec 24, ∃ s t : State, (s.takesWord p.val (0x60 * 2 ^ 56 + ch.val *
    2 ^ 48 + opens.toNat * 2 ^ 24 + len.toNat) t) ∧ (ch.val ≤ 51) ∧ (bitAt (t.pjob p.val).sxtChans ch.val = false) :=
  ⟨0, 1, 0, 1, inLeg {}, _, ⟨by decide, by decide, by decide, by decide, by decide, _, rfl⟩, by decide, by decide⟩

theorem witness_sxtArm : ∃ p : PilotNo, ∃ arm : Bool, ∃ mask : BitVec 52, ∃ s t : State, (s.takesWord p.val (0x61 * 2 ^ 56 + b2n arm * 2 ^ 52 +
    mask.toNat) t) ∧ (Nat.land mask.toNat (t.pjob p.val).sxtChans = mask.toNat) :=
  ⟨0, true, 1, inLeg {}, _, ⟨by decide, by decide, by decide, by decide, by decide, _, rfl⟩, by decide⟩

theorem witness_ddsHop : ∃ p : PilotNo, ∃ e : Fin 8, ∃ entry : BitVec 12, ∃ s t : State, (s.takesWord p.val (0x70 * 2 ^ 56 + e.val * 2 ^ 48 +
    entry.toNat) t) ∧ (bitAt (t.pjob p.val).ddsEngines e.val = true) :=
  ⟨0, 0, 1, inLeg {}, _, ⟨by decide, by decide, by decide, by decide, by decide, _, rfl⟩, by decide⟩

theorem witness_capCtl : ∃ p : PilotNo, ∃ g : Fin 8, ∃ ct total : Bool, ∃ s t : State, (s.takesWord p.val (0x50 * 2 ^ 56 + g.val * 2 ^ 48 + b2n ct *
    2 ^ 1 + b2n total) t) ∧ let grp := hGroup (t.pilot p.val).hdr g.val; (t.capRefused p.val grp ct total = false) :=
  ⟨0, 0, false, false, inLeg {}, _, ⟨by decide, by decide, by decide, by decide, by decide, _, rfl⟩, by decide⟩

theorem witness_sxtArm_not_owned : ∃ p : PilotNo, ∃ arm : Bool, ∃ mask : BitVec 52, ∃ s t : State, (s.takesWord p.val (0x61 * 2 ^ 56 + b2n arm * 2 ^
    52 + mask.toNat) t) ∧ (Nat.land mask.toNat (t.pjob p.val).sxtChans ≠ mask.toNat) :=
  ⟨0, true, 2, inLeg {}, _, ⟨by decide, by decide, by decide, by decide, by decide, _, rfl⟩, by decide⟩

theorem witness_ddsHop_not_owned : ∃ p : PilotNo, ∃ e : Fin 8, ∃ entry : BitVec 12, ∃ s t : State, (s.takesWord p.val (0x70 * 2 ^ 56 + e.val * 2 ^ 48
    + entry.toNat) t) ∧ (bitAt (t.pjob p.val).ddsEngines e.val = false) :=
  ⟨0, 1, 1, inLeg {}, _, ⟨by decide, by decide, by decide, by decide, by decide, _, rfl⟩, by decide⟩

theorem witness_capCtl_not_owned : ∃ p : PilotNo, ∃ g : Fin 8, ∃ ct total : Bool, ∃ s t : State, (s.takesWord p.val (0x50 * 2 ^ 56 + g.val * 2 ^ 48 +
    b2n ct * 2 ^ 1 + b2n total) t) ∧ let grp := hGroup (t.pilot p.val).hdr g.val; (t.capRefused p.val grp ct total = true) :=
  ⟨0, 0, true, false, inLeg {}, _, ⟨by decide, by decide, by decide, by decide, by decide, _, rfl⟩, by decide⟩

theorem witness_waitOdo_now : ∃ p : PilotNo, ∃ lf : Bool, ∃ d : BitVec 48, ∃ s t : State, (s.takesWord p.val (0x30 * 2 ^ 56 + b2n lf * 2 ^ 48 +
    d.toNat) t) ∧ let x := t.pilot p.val; let want := ceilDiv d.toNat (legD x.leg.entry);
    let v := t.setSeq p.val { x.q with odoCmp := x.leg.s88 + d.toNat * fracOne, odoLate := false };
    let late := t.fput fPLT_LEG_STATUS_odo_late p.val 1; (want = x.q.next) :=
  ⟨0, false, 0, inLeg {}, _, ⟨by decide, by decide, by decide, by decide, by decide, _, rfl⟩, by decide⟩

theorem witness_waitOdo : ∃ p : PilotNo, ∃ lf : Bool, ∃ d : BitVec 48, ∃ s t : State, (s.takesWord p.val (0x30 * 2 ^ 56 + b2n lf * 2 ^ 48 + d.toNat)
    t) ∧ let x := t.pilot p.val; let want := ceilDiv d.toNat (legD x.leg.entry);
    let v := t.setSeq p.val { x.q with odoCmp := x.leg.s88 + d.toNat * fracOne, odoLate := false };
    let late := t.fput fPLT_LEG_STATUS_odo_late p.val 1; (x.q.next < want) :=
  ⟨0, false, 1, inLeg {} 1, _, ⟨by decide, by decide, by decide, by decide, by decide, _, rfl⟩, by decide⟩

theorem witness_waitOdo_late : ∃ p : PilotNo, ∃ lf : Bool, ∃ d : BitVec 48, ∃ s t : State, (s.takesWord p.val (0x30 * 2 ^ 56 + b2n lf * 2 ^ 48 +
    d.toNat) t) ∧ let x := t.pilot p.val; let want := ceilDiv d.toNat (legD x.leg.entry);
    let v := t.setSeq p.val { x.q with odoCmp := x.leg.s88 + d.toNat * fracOne, odoLate := false };
    let late := t.fput fPLT_LEG_STATUS_odo_late p.val 1; (want < x.q.next) ∧ (lf = false) :=
  ⟨0, false, 0, inLeg { next := 1 } 1, _, ⟨by decide, by decide, by decide, by decide, by decide, _, rfl⟩, by decide, by decide⟩

theorem witness_waitOdo_late_fault : ∃ p : PilotNo, ∃ lf : Bool, ∃ d : BitVec 48, ∃ s t : State, (s.takesWord p.val (0x30 * 2 ^ 56 + b2n lf * 2 ^ 48
    + d.toNat) t) ∧ let x := t.pilot p.val; let want := ceilDiv d.toNat (legD x.leg.entry);
    let v := t.setSeq p.val { x.q with odoCmp := x.leg.s88 + d.toNat * fracOne, odoLate := false };
    let late := t.fput fPLT_LEG_STATUS_odo_late p.val 1; (want < x.q.next) ∧ (lf = true) :=
  ⟨0, true, 0, inLeg { next := 1 } 1, _, ⟨by decide, by decide, by decide, by decide, by decide, _, rfl⟩, by decide, by decide⟩

/-- The same in a leg of a stallable job that streams: the guard at the rows the route has is met only when they are resident. -/
def streamLeg (hi : Nat) : State :=
  let s := { mapped with jobs := [(1, { st := .running, desc := desc1 + 65536 * 2 ^ 320 })],
                         pilots := [(0, { st := .inLeg, job := 1, hdr := hdr1, strDesc := 1 * 2 ^ 64 + 2000 * 2 ^ 96 + 1 * 2 ^ 128, leg :=
                             { entry := 2 ^ 32 } })] }
  s.fput fPLT_STRM_HI_hi 0 hi

theorem witness_waypt_beyond : ∃ p : PilotNo, ∃ h : BitVec 8, ∃ s t v : State, (s.takesWord p.val (0x40 * 2 ^ 56 + h.toNat) t) ∧ (hRowtabRows
    (t.pilot p.val).hdr ≤ h.toNat) :=
  ⟨0, 4, inLeg {}, _, up, ⟨by decide, by decide, by decide, by decide, by decide, _, rfl⟩, by decide⟩

theorem witness_waypt : ∃ p : PilotNo, ∃ h : BitVec 8, ∃ s t v : State, (s.takesWord p.val (0x40 * 2 ^ 56 + h.toNat) t) ∧ (h.toNat < hRowtabRows
    (t.pilot p.val).hdr) ∧ (v = (t.setSeq p.val { (t.pilot p.val).q with waypoint := some h.toNat, pastWay := false }).stepPc p.val) ∧ ((legStallable
    (t.pilot p.val).leg.entry = false ∨ (v.pjob p.val).streams = false)) :=
  ⟨0, 0, inLeg {}, _, _, ⟨by decide, by decide, by decide, by decide, by decide, _, rfl⟩, by decide, (rfl), (.inl (by decide))⟩

theorem witness_waypt_passes : ∃ p : PilotNo, ∃ h : BitVec 8, ∃ s t v : State, (s.takesWord p.val (0x40 * 2 ^ 56 + h.toNat) t) ∧ (h.toNat <
    hRowtabRows (t.pilot p.val).hdr) ∧ (v = (t.setSeq p.val { (t.pilot p.val).q with waypoint := some h.toNat, pastWay := false }).stepPc p.val) ∧
    (legStallable (t.pilot p.val).leg.entry = true) ∧ ((v.pjob p.val).streams = true) ∧ let r := v.rowBeyond p.val; (r.1.guardOk p.val r.2.row =
    true) :=
  ⟨0, 0, streamLeg (2 ^ 40), _, _, ⟨by decide, by decide, by decide, by decide, by decide, _, rfl⟩, by decide, (rfl), by decide, by decide, by decide⟩

theorem witness_waypt_holds : ∃ p : PilotNo, ∃ h : BitVec 8, ∃ s t v : State, (s.takesWord p.val (0x40 * 2 ^ 56 + h.toNat) t) ∧ (h.toNat <
    hRowtabRows (t.pilot p.val).hdr) ∧ (v = (t.setSeq p.val { (t.pilot p.val).q with waypoint := some h.toNat, pastWay := false }).stepPc p.val) ∧
    (legStallable (t.pilot p.val).leg.entry = true) ∧ ((v.pjob p.val).streams = true) ∧ let r := v.rowBeyond p.val; (r.1.guardOk p.val r.2.row =
    false) :=
  ⟨0, 0, streamLeg 0, _, _, ⟨by decide, by decide, by decide, by decide, by decide, _, rfl⟩, by decide, (rfl), by decide, by decide, by decide⟩

theorem witness_jmpAbs : ∃ p : PilotNo, ∃ a : Fin 8, ∃ s t : State, (s.takesWord p.val (0x27 * 2 ^ 56 + a.val * 2 ^ 48) t) ∧ let x := t.pilot p.val;
    let i := t.aluReg p.val a.val; let r := t.aluReg p.val (a.val + 1); (x.q.waypoint.isSome = true) ∧ (legStallable x.leg.entry = true) ∧ (i <
    hInstrWords x.hdr) ∧ (r ≤ hVecRows x.hdr) :=
  ⟨0, 0, inLeg { waypoint := some 0 } (2 ^ 32), _, ⟨by decide, by decide, by decide, by decide, by decide, _, rfl⟩, by decide, by decide, by decide,
      by decide⟩

theorem witness_jmpAbs_elsewhere : ∃ p : PilotNo, ∃ a : Fin 8, ∃ s t : State, (s.takesWord p.val (0x27 * 2 ^ 56 + a.val * 2 ^ 48) t) ∧
    let x := t.pilot p.val; let i := t.aluReg p.val a.val; let r := t.aluReg p.val (a.val + 1); ((x.q.waypoint = none ∨ legStallable x.leg.entry =
    false ∨ hInstrWords x.hdr ≤ i ∨ hVecRows x.hdr < r)) :=
  ⟨0, 0, inLeg {}, _, ⟨by decide, by decide, by decide, by decide, by decide, _, rfl⟩, (.inl (by decide))⟩

theorem witness_legStart_beyond : ∃ p : PilotNo, ∃ l : BitVec 12, ∃ bs : List Byte, ∃ s t u v : State, (s.takesWord p.val (0x41 * 2 ^ 56 + l.toNat)
    t) ∧ (hLegs (t.pilot p.val).hdr ≤ l.toNat) :=
  ⟨0, 2, [], { inLeg {} with pilots := [(0, { st := .between, job := 1, hdr := hdr1 })] }, _, up, up, ⟨by decide, by decide, by decide, by decide,
      by decide, _, rfl⟩, by decide⟩

theorem witness_legStart : ∃ p : PilotNo, ∃ l : BitVec 12, ∃ bs : List Byte, ∃ s t u v : State, (s.takesWord p.val (0x41 * 2 ^ 56 + l.toNat) t) ∧
    (l.toNat < hLegs (t.pilot p.val).hdr) ∧ (t.legEntry p.val l.toNat = (u, .done bs)) ∧ (v = u.stepPc p.val) ∧ let y := v.pilot p.val;
    let soon := decide (v.relativeN p.val (ofBytes bs) < y.e88 + legReach (ofBytes bs) + (v.mer (v.pjob p.val).meridian).spanAtMax 20000); ((legMode
    (ofBytes bs) ≠ 1 ∨ y.resumed = true ∨ soon = false)) :=
  ⟨0, 0, _, { inLeg {} with pilots := [(0, { st := .between, job := 1, hdr := hdr1 })] }, _, _, _, ⟨by decide, by decide, by decide, by decide,
      by decide, _, rfl⟩, by decide, (read_of (by decide +kernel)), (rfl), (.inl (by decide +kernel))⟩

theorem witness_legStart_late : ∃ p : PilotNo, ∃ l : BitVec 12, ∃ bs : List Byte, ∃ s t u v : State, (s.takesWord p.val (0x41 * 2 ^ 56 + l.toNat) t)
    ∧ (l.toNat < hLegs (t.pilot p.val).hdr) ∧ (t.legEntry p.val l.toNat = (u, .done bs)) ∧ (v = u.stepPc p.val) ∧ let y := v.pilot p.val;
    let soon := decide (v.relativeN p.val (ofBytes bs) < y.e88 + legReach (ofBytes bs) + (v.mer (v.pjob p.val).meridian).spanAtMax 20000); (legMode
    (ofBytes bs) = 1) ∧ (y.resumed = false) ∧ (soon = true) :=
  ⟨0, 0, _, { { inLeg {} with pilots := [(0, { st := .between, job := 1, hdr := hdr1 })] } with hbm := { mapped.hbm with mem := [(4, 4)] } }, _, _,
      _, ⟨by decide, by decide, by decide, by decide, by decide, _, rfl⟩, by decide, (read_of (by decide +kernel)), (rfl), by decide, by decide,
      by decide⟩

theorem witness_userOpcode : ∃ p : PilotNo, ∃ op : Fin 64, ∃ operand : BitVec 56, ∃ e : Nat, ∃ s u t : State, ((s.pilot p.val).takes = true) ∧
    (s.readCs (p.val / 4) (dispKey (0xC0 + op.val)) = (u, e, false)) ∧ (t = u.setSeq p.val
    { (u.pilot p.val).q with opr := (0xC0 + op.val) * 2 ^ 56 + operand.toNat, upc := bits e 13 0 }) ∧ let x := u.pilot p.val;
    let place := if t.legRuns p.val then bitAt e 16 else bitAt e 17; let away := bitAt e 20 && (x.q.waypoint.isNone || !legStallable x.leg.entry);
    (bitAt e 14 = true) ∧ (place = true) ∧ (away = false) :=
  ⟨0, 0, 0, 2 ^ 14 + 2 ^ 16, (inLeg {}).setCluster 0 { words := [(16576, 2 ^ 14 + 2 ^ 16)] }, _, _, by decide, (pair_of (by decide +kernel)), (rfl),
      by decide, by decide, by decide⟩

theorem witness_userOpcode_invalid : ∃ p : PilotNo, ∃ op : Fin 64, ∃ operand : BitVec 56, ∃ e : Nat, ∃ s u t : State, ((s.pilot p.val).takes = true)
    ∧ (s.readCs (p.val / 4) (dispKey (0xC0 + op.val)) = (u, e, false)) ∧ (t = u.setSeq p.val
    { (u.pilot p.val).q with opr := (0xC0 + op.val) * 2 ^ 56 + operand.toNat, upc := bits e 13 0 }) ∧ let x := u.pilot p.val;
    let place := if t.legRuns p.val then bitAt e 16 else bitAt e 17; let away := bitAt e 20 && (x.q.waypoint.isNone || !legStallable x.leg.entry);
    (bitAt e 14 = false) :=
  ⟨0, 0, 0, 2 ^ 16, (inLeg {}).setCluster 0 { words := [(16576, 2 ^ 16)] }, _, _, by decide, (pair_of (by decide +kernel)), (rfl), by decide⟩

theorem witness_userOpcode_not_in_leg : ∃ p : PilotNo, ∃ op : Fin 64, ∃ operand : BitVec 56, ∃ e : Nat, ∃ s u t : State, ((s.pilot p.val).takes =
    true) ∧ (s.readCs (p.val / 4) (dispKey (0xC0 + op.val)) = (u, e, false)) ∧ (t = u.setSeq p.val
    { (u.pilot p.val).q with opr := (0xC0 + op.val) * 2 ^ 56 + operand.toNat, upc := bits e 13 0 }) ∧ let x := u.pilot p.val;
    let place := if t.legRuns p.val then bitAt e 16 else bitAt e 17; let away := bitAt e 20 && (x.q.waypoint.isNone || !legStallable x.leg.entry);
    (bitAt e 14 = true) ∧ (place = false) :=
  ⟨0, 0, 0, 2 ^ 14, (inLeg {}).setCluster 0 { words := [(16576, 2 ^ 14)] }, _, _, by decide, (pair_of (by decide +kernel)), (rfl), by decide,
      by decide⟩

theorem witness_userOpcode_no_waypoint : ∃ p : PilotNo, ∃ op : Fin 64, ∃ operand : BitVec 56, ∃ e : Nat, ∃ s u t : State, ((s.pilot p.val).takes =
    true) ∧ (s.readCs (p.val / 4) (dispKey (0xC0 + op.val)) = (u, e, false)) ∧ (t = u.setSeq p.val
    { (u.pilot p.val).q with opr := (0xC0 + op.val) * 2 ^ 56 + operand.toNat, upc := bits e 13 0 }) ∧ let x := u.pilot p.val;
    let place := if t.legRuns p.val then bitAt e 16 else bitAt e 17; let away := bitAt e 20 && (x.q.waypoint.isNone || !legStallable x.leg.entry);
    (bitAt e 14 = true) ∧ (place = true) ∧ (away = true) :=
  ⟨0, 0, 0, 2 ^ 14 + 2 ^ 16 + 2 ^ 20, (inLeg {}).setCluster 0 { words := [(16576, 2 ^ 14 + 2 ^ 16 + 2 ^ 20)] }, _, _, by decide, (pair_of
      (by decide +kernel)), (rfl), by decide, by decide, by decide⟩

/-! ### Microwords, strides, streams and legs -/

/-- A routine runs on Pilot 0, in a leg. -/
def routine (q : Seq) : State := inLeg { q with inRoutine := true, upc := 0x2000 }
/-- A word waits on a condition that never holds, up to the limit of PLT_WTO 1. -/
def timedOut : Run := { src := .rows, left := 0, after := .wait (5 * 2 ^ 188 + 9 * 2 ^ 160) (2 ^ 32 - 1) }
/-- A run of one vector. -/
def oneOf (src : RunSource) : Run := { src := src, left := 1, after := .next }

/-- What a word found that it needs. -/
theorem needs_of {p : State × Option (Nat × Option Nat × Nat)} (h : p.2.isSome = true) :
    p = (p.1, some ((p.2.getD (0, none, 0)).1, (p.2.getD (0, none, 0)).2.1, (p.2.getD (0, none, 0)).2.2)) := by
  obtain ⟨v, a⟩ := p
  cases a <;> simp_all

theorem witness_seqCont : ∃ p : PilotNo, ∃ s : State, let q := (s.pilot p.val).q; ∃ w : BitVec 192, ∃ x top leg : Nat, ∃ br : Option Nat, ∃ v u :
    State, (s.runsWord p.val x) ∧ (s.wordTrap p.val x = none) ∧ ((bits (mwMatch x) 2 0 = 1 → (s.pilot p.val).bodyMissing (bits q.opr 31 20 + 1) =
    false)) ∧ (s.wordNeeds p.val x (if s.rbrTaken p.val x && !loopLeaves x q then (rbrIndex x q (s.pilot p.val).leg.matchSt).map (·.1) else none) =
    (v, some (top, br, leg))) ∧ (u = v.wordActs p.val x top) ∧
    let fin (z : State) : State := if mwAux x = 6 then z.awaitStart p.val (bits q.opr 11 0) leg else z; (x = setBits (w.toNat % 2 ^ 192) 191 188 0) :=
  ⟨0, routine {}, 0, _, _, _, _, _, _, by decide, by decide, ((fun h => by revert h; decide +kernel)), (needs_of (by decide +kernel)), (rfl), rfl⟩

theorem witness_seqJump : ∃ p : PilotNo, ∃ s : State, let q := (s.pilot p.val).q; ∃ w : BitVec 192, ∃ x top leg : Nat, ∃ br : Option Nat, ∃ v u :
    State, (s.runsWord p.val x) ∧ (s.wordTrap p.val x = none) ∧ ((bits (mwMatch x) 2 0 = 1 → (s.pilot p.val).bodyMissing (bits q.opr 31 20 + 1) =
    false)) ∧ (s.wordNeeds p.val x (if s.rbrTaken p.val x && !loopLeaves x q then (rbrIndex x q (s.pilot p.val).leg.matchSt).map (·.1) else none) =
    (v, some (top, br, leg))) ∧ (u = v.wordActs p.val x top) ∧
    let fin (z : State) : State := if mwAux x = 6 then z.awaitStart p.val (bits q.opr 11 0) leg else z; (x = setBits (w.toNat % 2 ^ 192) 191 188 1) :=
  ⟨0, routine {}, 0, _, _, _, _, _, _, by decide, by decide, ((fun h => by revert h; decide +kernel)), (needs_of (by decide +kernel)), (rfl), rfl⟩

theorem witness_seqBranch : ∃ p : PilotNo, ∃ s : State, let q := (s.pilot p.val).q; ∃ w : BitVec 192, ∃ x top leg : Nat, ∃ br : Option Nat, ∃ v u :
    State, (s.runsWord p.val x) ∧ (s.wordTrap p.val x = none) ∧ ((bits (mwMatch x) 2 0 = 1 → (s.pilot p.val).bodyMissing (bits q.opr 31 20 + 1) =
    false)) ∧ (s.wordNeeds p.val x (if s.rbrTaken p.val x && !loopLeaves x q then (rbrIndex x q (s.pilot p.val).leg.matchSt).map (·.1) else none) =
    (v, some (top, br, leg))) ∧ (u = v.wordActs p.val x top) ∧
    let fin (z : State) : State := if mwAux x = 6 then z.awaitStart p.val (bits q.opr 11 0) leg else z; (x = setBits (w.toNat % 2 ^ 192) 191 188 2) :=
  ⟨0, routine {}, 0, _, _, _, _, _, _, by decide, by decide, ((fun h => by revert h; decide +kernel)), (needs_of (by decide +kernel)), (rfl), rfl⟩

theorem witness_seqMcall : ∃ p : PilotNo, ∃ s : State, let q := (s.pilot p.val).q; ∃ w : BitVec 192, ∃ x top leg : Nat, ∃ br : Option Nat, ∃ v u :
    State, (s.runsWord p.val x) ∧ (s.wordTrap p.val x = none) ∧ ((bits (mwMatch x) 2 0 = 1 → (s.pilot p.val).bodyMissing (bits q.opr 31 20 + 1) =
    false)) ∧ (s.wordNeeds p.val x (if s.rbrTaken p.val x && !loopLeaves x q then (rbrIndex x q (s.pilot p.val).leg.matchSt).map (·.1) else none) =
    (v, some (top, br, leg))) ∧ (u = v.wordActs p.val x top) ∧
    let fin (z : State) : State := if mwAux x = 6 then z.awaitStart p.val (bits q.opr 11 0) leg else z; (x = setBits (w.toNat % 2 ^ 192) 191 188 3) :=
  ⟨0, routine {}, 0, _, _, _, _, _, _, by decide, by decide, ((fun h => by revert h; decide +kernel)), (needs_of (by decide +kernel)), (rfl), rfl⟩

theorem witness_seqNext : ∃ p : PilotNo, ∃ s : State, let q := (s.pilot p.val).q; ∃ w : BitVec 192, ∃ x top leg : Nat, ∃ br : Option Nat, ∃ v u :
    State, (s.runsWord p.val x) ∧ (s.wordTrap p.val x = none) ∧ ((bits (mwMatch x) 2 0 = 1 → (s.pilot p.val).bodyMissing (bits q.opr 31 20 + 1) =
    false)) ∧ (s.wordNeeds p.val x (if s.rbrTaken p.val x && !loopLeaves x q then (rbrIndex x q (s.pilot p.val).leg.matchSt).map (·.1) else none) =
    (v, some (top, br, leg))) ∧ (u = v.wordActs p.val x top) ∧
    let fin (z : State) : State := if mwAux x = 6 then z.awaitStart p.val (bits q.opr 11 0) leg else z; (x = setBits (w.toNat % 2 ^ 192) 191 188 6) :=
  ⟨0, routine {}, 0, _, _, _, _, _, _, by decide, by decide, ((fun h => by revert h; decide +kernel)), (needs_of (by decide +kernel)), (rfl), rfl⟩

theorem witness_seqTrap : ∃ p : PilotNo, ∃ s : State, let q := (s.pilot p.val).q; ∃ w : BitVec 192, ∃ x : Nat, (s.runsWord p.val x) ∧ (x = setBits
    (w.toNat % 2 ^ 192) 191 188 9) :=
  ⟨0, routine {}, 0, _, by decide, rfl⟩

theorem witness_seqWait : ∃ p : PilotNo, ∃ s : State, let q := (s.pilot p.val).q; ∃ w : BitVec 192, ∃ x : Nat, (s.runsWord p.val x) ∧ (x = setBits
    (w.toNat % 2 ^ 192) 191 188 5) ∧ (s.wordTrap p.val x = none) :=
  ⟨0, routine {}, 0, _, by decide, rfl, by decide⟩

theorem witness_seqMtab : ∃ p : PilotNo, ∃ s : State, let q := (s.pilot p.val).q; ∃ w : BitVec 192, ∃ x top leg : Nat, ∃ br : Option Nat, ∃ v u :
    State, (s.runsWord p.val x) ∧ (s.wordTrap p.val x = none) ∧ ((bits (mwMatch x) 2 0 = 1 → (s.pilot p.val).bodyMissing (bits q.opr 31 20 + 1) =
    false)) ∧ (s.wordNeeds p.val x (if s.rbrTaken p.val x && !loopLeaves x q then (rbrIndex x q (s.pilot p.val).leg.matchSt).map (·.1) else none) =
    (v, some (top, br, leg))) ∧ (u = v.wordActs p.val x top) ∧
    let fin (z : State) : State := if mwAux x = 6 then z.awaitStart p.val (bits q.opr 11 0) leg else z; (x = setBits (w.toNat % 2 ^ 192) 191 188 8) :=
  ⟨0, routine {}, 0x2000 * 2 ^ 170, _, _, _, _, _, _, by decide, by decide, ((fun h => by revert h; decide +kernel)), (needs_of (by decide +kernel)),
      (rfl), rfl⟩

theorem witness_seqRbr : ∃ p : PilotNo, ∃ s : State, let q := (s.pilot p.val).q; ∃ w : BitVec 192, ∃ x top leg : Nat, ∃ br : Option Nat, ∃ v u :
    State, (s.runsWord p.val x) ∧ (s.wordTrap p.val x = none) ∧ ((bits (mwMatch x) 2 0 = 1 → (s.pilot p.val).bodyMissing (bits q.opr 31 20 + 1) =
    false)) ∧ (s.wordNeeds p.val x (if s.rbrTaken p.val x && !loopLeaves x q then (rbrIndex x q (s.pilot p.val).leg.matchSt).map (·.1) else none) =
    (v, some (top, br, leg))) ∧ (u = v.wordActs p.val x top) ∧
    let fin (z : State) : State := if mwAux x = 6 then z.awaitStart p.val (bits q.opr 11 0) leg else z; (x = setBits (w.toNat % 2 ^ 192) 191 188 7) ∧
    ((s.rbrTaken p.val x && !loopLeaves x q) = true) :=
  ⟨0, routine {}, 0, _, _, _, _, _, _, by decide, by decide, ((fun h => by revert h; decide +kernel)), (needs_of (by decide +kernel)), (rfl), rfl,
      by decide⟩

theorem witness_seqRbr_falls : ∃ p : PilotNo, ∃ s : State, let q := (s.pilot p.val).q; ∃ w : BitVec 192, ∃ x top leg : Nat, ∃ br : Option Nat, ∃ v u
    : State, (s.runsWord p.val x) ∧ (s.wordTrap p.val x = none) ∧ ((bits (mwMatch x) 2 0 = 1 → (s.pilot p.val).bodyMissing (bits q.opr 31 20 + 1) =
    false)) ∧ (s.wordNeeds p.val x (if s.rbrTaken p.val x && !loopLeaves x q then (rbrIndex x q (s.pilot p.val).leg.matchSt).map (·.1) else none) =
    (v, some (top, br, leg))) ∧ (u = v.wordActs p.val x top) ∧
    let fin (z : State) : State := if mwAux x = 6 then z.awaitStart p.val (bits q.opr 11 0) leg else z; (x = setBits (w.toNat % 2 ^ 192) 191 188 7) ∧
    ((s.rbrTaken p.val x && !loopLeaves x q) = false) :=
  ⟨0, routine {}, 2 ^ 187 + 8 * 2 ^ 160, _, _, _, _, _, _, by decide, by decide, ((fun h => by revert h; decide +kernel)), (needs_of
      (by decide +kernel)), (rfl), rfl, by decide⟩

theorem witness_seqMret : ∃ p : PilotNo, ∃ s : State, let q := (s.pilot p.val).q; ∃ w : BitVec 192, ∃ x top leg : Nat, ∃ br : Option Nat, ∃ v u :
    State, (s.runsWord p.val x) ∧ (s.wordTrap p.val x = none) ∧ ((bits (mwMatch x) 2 0 = 1 → (s.pilot p.val).bodyMissing (bits q.opr 31 20 + 1) =
    false)) ∧ (s.wordNeeds p.val x (if s.rbrTaken p.val x && !loopLeaves x q then (rbrIndex x q (s.pilot p.val).leg.matchSt).map (·.1) else none) =
    (v, some (top, br, leg))) ∧ (u = v.wordActs p.val x top) ∧
    let fin (z : State) : State := if mwAux x = 6 then z.awaitStart p.val (bits q.opr 11 0) leg else z; ∃ a, (x = setBits (w.toNat % 2 ^ 192) 191 188
    4) ∧ (q.mstack.getLast? = some a) :=
  ⟨0, routine { mstack := [5] }, 0, _, _, _, _, _, _, by decide, by decide, ((fun h => by revert h; decide +kernel)), (needs_of (by decide +kernel)),
      (rfl), 5, rfl, by decide⟩

theorem witness_wordNeeds_nothing : ∃ p : PilotNo, ∃ s : State, let q := (s.pilot p.val).q; ∃ x : Nat, (bits (mwLoop x) 11 9 ≠ 1) ∧ (mwAux x ≠ 6) :=
  ⟨0, routine {}, 0, by decide, by decide⟩

theorem witness_seqWaitTimeout : ∃ p : PilotNo, ∃ s : State, let q := (s.pilot p.val).q; ∃ r : Run, ∃ x count top leg : Nat, ∃ br : Option Nat, ∃ v :
    State, (q.run = some r) ∧ (r.after = .wait x count) ∧ (r.left = 0) ∧ (s.mwTest p.val x = false) ∧ (s.waitLimit p.val x = some count) ∧ (mwOp x =
    5) ∧ (s.wordTrap p.val x = none) ∧ ((bits (mwMatch x) 2 0 = 1 → (s.pilot p.val).bodyMissing (bits q.opr 31 20 + 1) = false)) ∧ (s.wordNeeds p.val
    x none = (v, some (top, br, leg))) :=
  ⟨0, routine { run := some timedOut }, timedOut, 5 * 2 ^ 188 + 9 * 2 ^ 160, 2 ^ 32 - 1, _, _, _, _, by decide, by decide, by decide, by decide,
      by decide, by decide, by decide, ((fun h => by revert h; decide +kernel)), (needs_of (by decide +kernel))⟩

theorem witness_seqCont_traps : ∃ p : PilotNo, ∃ s : State, let q := (s.pilot p.val).q; ∃ w : BitVec 192, ∃ x cause : Nat, (s.runsWord p.val x) ∧
    (s.wordTrap p.val x = some cause) ∧ (x = setBits (w.toNat % 2 ^ 192) 191 188 0) :=
  ⟨0, routine {}, 3 * 2 ^ 137, _, cLoopNest, (by decide +kernel), (by decide +kernel), (rfl)⟩

theorem witness_seqJump_traps : ∃ p : PilotNo, ∃ s : State, let q := (s.pilot p.val).q; ∃ w : BitVec 192, ∃ x cause : Nat, (s.runsWord p.val x) ∧
    (s.wordTrap p.val x = some cause) ∧ (x = setBits (w.toNat % 2 ^ 192) 191 188 1) :=
  ⟨0, routine {}, 3 * 2 ^ 137, _, cLoopNest, (by decide +kernel), (by decide +kernel), (rfl)⟩

theorem witness_seqBranch_traps : ∃ p : PilotNo, ∃ s : State, let q := (s.pilot p.val).q; ∃ w : BitVec 192, ∃ x cause : Nat, (s.runsWord p.val x) ∧
    (s.wordTrap p.val x = some cause) ∧ (x = setBits (w.toNat % 2 ^ 192) 191 188 2) :=
  ⟨0, routine {}, 3 * 2 ^ 137, _, cLoopNest, (by decide +kernel), (by decide +kernel), (rfl)⟩

theorem witness_seqMcall_traps : ∃ p : PilotNo, ∃ s : State, let q := (s.pilot p.val).q; ∃ w : BitVec 192, ∃ x cause : Nat, (s.runsWord p.val x) ∧
    (s.wordTrap p.val x = some cause) ∧ (x = setBits (w.toNat % 2 ^ 192) 191 188 3) :=
  ⟨0, routine {}, 3 * 2 ^ 137, _, cLoopNest, (by decide +kernel), (by decide +kernel), (rfl)⟩

theorem witness_seqMret_traps : ∃ p : PilotNo, ∃ s : State, let q := (s.pilot p.val).q; ∃ w : BitVec 192, ∃ x cause : Nat, (s.runsWord p.val x) ∧
    (s.wordTrap p.val x = some cause) ∧ (x = setBits (w.toNat % 2 ^ 192) 191 188 4) :=
  ⟨0, routine {}, 3 * 2 ^ 137, _, cMicroStack, (by decide +kernel), (by decide +kernel), (rfl)⟩

theorem witness_seqWait_traps : ∃ p : PilotNo, ∃ s : State, let q := (s.pilot p.val).q; ∃ w : BitVec 192, ∃ x cause : Nat, (s.runsWord p.val x) ∧
    (s.wordTrap p.val x = some cause) ∧ (x = setBits (w.toNat % 2 ^ 192) 191 188 5) :=
  ⟨0, routine {}, 3 * 2 ^ 137, _, cLoopNest, (by decide +kernel), (by decide +kernel), (rfl)⟩

theorem witness_seqNext_traps : ∃ p : PilotNo, ∃ s : State, let q := (s.pilot p.val).q; ∃ w : BitVec 192, ∃ x cause : Nat, (s.runsWord p.val x) ∧
    (s.wordTrap p.val x = some cause) ∧ (x = setBits (w.toNat % 2 ^ 192) 191 188 6) :=
  ⟨0, routine {}, 3 * 2 ^ 137, _, cLoopNest, (by decide +kernel), (by decide +kernel), (rfl)⟩

theorem witness_seqRbr_traps : ∃ p : PilotNo, ∃ s : State, let q := (s.pilot p.val).q; ∃ w : BitVec 192, ∃ x cause : Nat, (s.runsWord p.val x) ∧
    (s.wordTrap p.val x = some cause) ∧ (x = setBits (w.toNat % 2 ^ 192) 191 188 7) :=
  ⟨0, routine {}, 3 * 2 ^ 137, _, cLoopNest, (by decide +kernel), (by decide +kernel), (rfl)⟩

theorem witness_seqMtab_traps : ∃ p : PilotNo, ∃ s : State, let q := (s.pilot p.val).q; ∃ w : BitVec 192, ∃ x cause : Nat, (s.runsWord p.val x) ∧
    (s.wordTrap p.val x = some cause) ∧ (x = setBits (w.toNat % 2 ^ 192) 191 188 8) :=
  ⟨0, routine {}, 3 * 2 ^ 137, _, cMicroRange, (by decide +kernel), (by decide +kernel), (rfl)⟩

theorem witness_wordTest : ∃ p : PilotNo, ∃ s : State, let q := (s.pilot p.val).q; ∃ x : Nat, (q.run = none) :=
  ⟨0, up, 0, by decide⟩

theorem witness_wordTest_after_a_run : ∃ p : PilotNo, ∃ s : State, let q := (s.pilot p.val).q; ∃ x : Nat, ∃ r : Run, (q.run = some r) ∧ (mwHorizon x
    = false) ∧ (mwOp x ≠ 5) :=
  ⟨0, routine { run := some (oneOf .pad) }, 0, oneOf .pad, by decide, by decide, by decide⟩

theorem witness_stride_no_work : ∃ p : PilotNo, ∃ s u : State, (u = (s.doHoldEnd p.val).setSeq p.val
    { ((s.doHoldEnd p.val).pilot p.val).q with closed := false }) ∧ ((u.pilot p.val).works = false) :=
  ⟨0, up, _, rfl, by decide⟩

theorem witness_stride_issues : ∃ p : PilotNo, ∃ s u : State, (u = (s.doHoldEnd p.val).setSeq p.val
    { ((s.doHoldEnd p.val).pilot p.val).q with closed := false }) ∧ ∃ r v, ((u.pilot p.val).works = true) ∧ ((u.pilot p.val).q.run = some r) ∧ (0 <
    r.left) ∧ ((u.pilot p.val).st ≠ .holding) ∧ (u.issueOne p.val r = (v, true)) :=
  ⟨0, inLeg { run := some (oneOf .pad) } 1048576, _, rfl, oneOf .pad, _, by decide, by decide, by decide, by decide, rfl⟩

theorem witness_stride_waits : ∃ p : PilotNo, ∃ s u : State, (u = (s.doHoldEnd p.val).setSeq p.val
    { ((s.doHoldEnd p.val).pilot p.val).q with closed := false }) ∧ ∃ r v, ((u.pilot p.val).works = true) ∧ ((u.pilot p.val).q.run = some r) ∧ (0 <
    r.left) ∧ ((u.pilot p.val).st ≠ .holding) ∧ (u.issueOne p.val r = (v, false)) :=
  ⟨0, inLeg { run := some (oneOf .rows) }, _, rfl, oneOf .rows, _, by decide, by decide, by decide, by decide, rfl⟩

/-- Pin 0 of Pilot 0's leg as given. -/
def pin0 (x : Pin) : State := { inLeg {} with pins := [(0, x)] }
/-- Vector 0's result at position 0 is awaited. -/
def awaited : VRes := { index := 0, waiting := 1, sampled := 1, ct := 0, iter := 0, group := 0, noFail := 0 }
/-- The same while a vector's results are awaited. -/
def pin0Waits (x : Pin) : State :=
  { pin0 x with pilots := [(0, { st := .inLeg, job := 1, hdr := hdr1, leg := { results := [awaited] } })] }

theorem witness_vectorPeriod : ∃ n : PinNo, ∃ p t : Nat, ∃ s u : State, (s.pinLeg n.val = some p) ∧ ∃ v rest, ((s.pin n.val).issueQ = v :: rest) ∧
    ((s.mer (s.pjob p).meridian).instantOf ((s.pilot p).leg.periodAt v.index) = some t) ∧ (u = ((s.advance t).setPin n.val
    { (s.advance t).pin n.val with issueQ := rest }).periodBegins p v.index t (s.pilot p).leg.begun) :=
  ⟨0, 0, 0, pin0 { issueQ := [⟨0, .off, 0, 0, false⟩] }, _, by decide, ⟨0, .off, 0, 0, false⟩, [], by decide, by decide, rfl⟩

theorem witness_vectorPeriod_none : ∃ n : PinNo, ∃ p t : Nat, ∃ s u : State, (s.pinLeg n.val = some p) ∧ ((s.pin n.val).issueQ = []) ∧ ((s.pilot
    p).leg.ending = 0) ∧ ((s.mer (s.pjob p).meridian).instantOf ((s.pilot p).leg.periodAt (s.pilot p).q.next) = some t) ∧ (u = (s.advance
    t).lateFaults p) :=
  ⟨0, 0, 0, (inLeg {}).fput fPLT_LEG_STATUS_started 0 1, _, by decide, by decide, by decide, by decide, rfl⟩

theorem witness_compareResultArrival : ∃ n : PinNo, ∃ nv : Int, ∃ crossing held : Bool, ∃ p st : Nat, ∃ a : Sample, ∃ rest : List Sample, ∃ s w u :
    State, ((s.pin n.val).samples = a :: rest) ∧ ((s.pilotPins p).contains n.val = true) ∧ (p < 16) ∧ ((s.pilot p).leg.results ≠ []) ∧ ((∀ q < 16, q
    ≠ p → (s.pilotPins q).contains n.val = false)) ∧ (st = (if s.cmpOn n.val = false then 0 else if crossing then 2 else s.cmpAt n.val nv)) ∧ (w =
    (s.feelVoltage n.val nv).advance (a.closes + 32 * pilotCycle)) ∧ (u = w.setPin n.val { w.pin n.val with samples := rest }) :=
  ⟨0, 0, true, true, 0, _, { index := 0, pos := 0, act := .cmpLow, window := false, total := false, opens := 0, closes := 0 }, [], pin0Waits {
      samples := [{ index := 0, pos := 0, act := .cmpLow, window := false, total := false, opens := 0, closes := 0 }] }, _, _, by decide, by decide,
      by decide, by decide, by decide, (rfl), rfl, rfl⟩

/-- Job 1 runs from a stream region whose fill queue is queue 2000, with the elements given. -/
def streaming (elems : List Nat) : State :=
  let s := { mapped with jobs := [(1, { st := .running, desc := desc1 + 65536 * 2 ^ 320 })],
                         pilots := [(0, { st := .inLeg, job := 1, hdr := hdr1, strDesc := 1 * 2 ^ 64 + 2000 * 2 ^ 96 })] }
  ((s.fput fDPT_Q_CTL_en 2000 1).fput fDPT_Q_CTL_size_log2 2000 6).setDq 2000 { elems := elems }
/-- The run of hold vectors of a waypoint. -/
def holdRun : Run := { src := .hold, left := 0, after := .holdEnd }
/-- Pilot 0 holds at a waypoint: a hold vector has been issued, and row 0 waits in a slot. -/
def holding : State :=
  let x : Pilot := { st := .holding, job := 1, hdr := hdr1, holdAt := some 0, holdVecs := 1, holdTgts := [(0, 0, 0)] }
  { inLeg {} with pilots := [(0, { x with q := { run := some holdRun }, str := { slots := [⟨0, 0, 0, [], []⟩] } })] }
/-- The control store of cluster 0 is scrubbed and has a defect in word 0. -/
def scrubbed (m : EccMark) : State := (up.fput fPLT_CS_STAT_scrub_en 0 1).setCluster 0 { marks := [(0, m)] }

theorem witness_fillElement : ∃ p : PilotNo, ∃ e : Nat, ∃ s u : State, ((s.pilot p.val).st ≠ .noJob) ∧ ((s.pjob p.val).streams = true) ∧ (s.qTake
    (strFillQ (s.pilot p.val).strDesc) = some (e, u)) ∧ (((u.floorOf p.val ≤ bits e 63 0 ∧ bits e 63 0 ≤ u.fget fPLT_STRM_HI_hi p.val) ∨ (s.pilot
    p.val).st = .holding ∨ u.legRuns p.val = false)) :=
  ⟨0, 0, streaming [0], _, by decide, by decide, (rfl), by decide⟩

theorem witness_fillElement_bounds : ∃ p : PilotNo, ∃ e : Nat, ∃ s u : State, ((s.pilot p.val).st ≠ .noJob) ∧ ((s.pjob p.val).streams = true) ∧
    (s.qTake (strFillQ (s.pilot p.val).strDesc) = some (e, u)) ∧ (¬ (u.floorOf p.val ≤ bits e 63 0 ∧ bits e 63 0 ≤ u.fget fPLT_STRM_HI_hi p.val)) ∧
    ((s.pilot p.val).st ≠ .holding) ∧ (u.legRuns p.val = true) :=
  ⟨0, 1, streaming [1], _, by decide, by decide, (rfl), by decide, by decide, by decide⟩

/-- What a read of stream bytes brought. -/
theorem bytes_of {p : State × Option (List Byte)} (h : p.2.isSome = true) : p = (p.1, some (p.2.getD [])) := by
  obtain ⟨v, a⟩ := p
  cases a <;> simp_all
/-- What a block's bytes met. -/
theorem fault_of (d : FaultSlot) {p : State × Except (Option FaultSlot) Nat} (h : (match p.2 with | .error (some _) => true | _ => false) = true) :
    p = (p.1, .error (some (match p.2 with | .error (some f) => f | _ => d))) := by
  obtain ⟨v, a⟩ := p
  rcases a with (_ | f) | _ <;> simp_all
/-- A branch waits for its slot. -/
def branchRun : Run := { src := .rows, left := 0, after := .branch 0 0 0 }
/-- A block of codes of Pilot 0 bound for a space. -/
def block (space : Nat) : CapBlock := { dva := 0, space := space, pilot := 0, data := 0 }
/-- A CT record of pin 0 waits, bound for a space. -/
def ctWaits (space : Nat) : State := { inLeg {} with pilots := [(0, { st := .inLeg, job := 1, hdr := hdr1, str := { ctQ := [(0, 0, space, 1)] } })] }

theorem witness_slotFill : ∃ p : PilotNo, ∃ i r c : Nat, ∃ rest : List (Nat × Nat × Nat), ∃ bs code : List Byte, ∃ s u v : State, ((s.pilot p.val).st
    ≠ .noJob) ∧ ((s.pilot p.val).missing = (i, r, c) :: rest) ∧ (s.readVec p.val (r * hRowBytes (s.pilot p.val).hdr) (min 4096 (vecBytes (s.pilot
    p.val).hdr - r * hRowBytes (s.pilot p.val).hdr)) = (u, some bs)) ∧ (u.readCode p.val i = (v, some code)) :=
  ⟨0, 0, 0, 0, [], _, _, inLeg { run := some branchRun }, _, _, by decide, (by decide +kernel), (bytes_of (by decide +kernel)), (bytes_of
      (by decide +kernel))⟩

theorem witness_playoutFetch_missing : ∃ p : PilotNo, ∃ bs : List Byte, ∃ s u : State, let x := s.pilot p.val; let rb := hRowBytes x.hdr;
    let at' := x.str.fifoLo + x.str.fifo.length; let n := min 256 (s.rowsEnd p.val - at'); x.st ≠ .noJob ∧ (rb ≠ 0) ∧ (at' < vecBytes x.hdr) ∧
    (s.resident p.val at' (rb - at' % rb) = false) :=
  ⟨0, [], streaming [], up, by decide, by decide, by decide, by decide⟩

theorem witness_playoutFetch : ∃ p : PilotNo, ∃ bs : List Byte, ∃ s u : State, let x := s.pilot p.val; let rb := hRowBytes x.hdr;
    let at' := x.str.fifoLo + x.str.fifo.length; let n := min 256 (s.rowsEnd p.val - at'); x.st ≠ .noJob ∧ (rb ≠ 0) ∧ ((vecBytes x.hdr ≤ at' ∨
    s.resident p.val at' (rb - at' % rb) = true)) ∧ (ceilDiv (x.str.fifo.length + n) rb ≤ 65536) ∧ (s.readVec p.val at' n = (u, some bs)) :=
  ⟨0, _, inLeg {}, _, by decide, by decide, (by decide +kernel), (by decide +kernel), (bytes_of (by decide +kernel))⟩

theorem witness_holdEnd : ∃ p : PilotNo, ∃ s : State, ((s.pilot p.val).st = .holding) ∧ ∃ row r, ((s.pilot p.val).holdAt = some row) ∧ ((s.pilot
    p.val).q.run = some r) ∧ (s.guardResident p.val row = true) ∧ ((s.pilot p.val).holdFilled = true) :=
  ⟨0, holding, by decide, 0, holdRun, by decide, by decide, by decide, by decide⟩

theorem witness_holdEnd_waits : ∃ p : PilotNo, ∃ s : State, ((s.pilot p.val).st = .holding) ∧ ∃ row r, ((s.pilot p.val).holdAt = some row) ∧
    ((s.pilot p.val).q.run = some r) ∧ ((s.guardResident p.val row = false ∨ (s.pilot p.val).holdFilled = false)) :=
  ⟨0, { holding with pilots := [(0, { holding.pilot 0 with str := {} })] }, by decide, 0, holdRun, by decide, by decide, by decide⟩

theorem witness_holdLimit : ∃ p : PilotNo, ∃ s : State, ((s.pilot p.val).st = .holding) ∧ (s.fget fPLT_HOLD_LIMIT_limit p.val ≠ 0) ∧ (s.fget
    fPLT_HOLD_LIMIT_limit p.val ≤ (s.pilot p.val).holdVecs) :=
  ⟨0, holding.fput fPLT_HOLD_LIMIT_limit 0 1, by decide, by decide, by decide⟩

theorem witness_captureBlockWrite : ∃ n : PinNo, ∃ b : CapBlock, ∃ rest : List CapBlock, ∃ v : Nat, ∃ s w u : State, ((s.pin n.val).capQ = b :: rest)
    ∧ (s.blockBytes b = (w, .ok v)) ∧ (w.dvaWrite b.pilot (portCP (b.pilot / 4)) .realTime b.space b.dva (bytesOf 256 v) = (u, none)) :=
  ⟨0, block 5, [], 0, pin0 { capQ := [block 5] }, _, _, by decide, (pair_of (by decide +kernel)), (pair_of (by decide +kernel))⟩

theorem witness_captureBlockWrite_fault : ∃ n : PinNo, ∃ b : CapBlock, ∃ rest : List CapBlock, ∃ v : Nat, ∃ s w u : State, ((s.pin n.val).capQ = b ::
    rest) ∧ (s.blockBytes b = (w, .ok v)) ∧ ∃ f, (w.dvaWrite b.pilot (portCP (b.pilot / 4)) .realTime b.space b.dva (bytesOf 256 v) = (u, some f)) :=
  ⟨0, block 7, [], 0, pin0 { capQ := [block 7] }, _, _, by decide, (pair_of (by decide +kernel)), _, (some_of ⟨0, 0, 0, 0, 0, false, false, false, 0,
      0, 0⟩ (by decide +kernel))⟩

theorem witness_captureBlockWrite_lost_fault : ∃ n : PinNo, ∃ b : CapBlock, ∃ rest : List CapBlock, ∃ s w u : State, ((s.pin n.val).capQ = b :: rest)
    ∧ ∃ f, (s.blockBytes b = (w, .error (some f))) :=
  ⟨0, { block 7 with lost := 1 }, [], pin0 { capQ := [{ block 7 with lost := 1 }] }, _, up, by decide, _, (fault_of ⟨0, 0, 0, 0, 0, false, false,
      false, 0, 0, 0⟩ (by decide +kernel))⟩

theorem witness_captureBlockWrite_lost_poison : ∃ n : PinNo, ∃ b : CapBlock, ∃ rest : List CapBlock, ∃ s w u : State, ((s.pin n.val).capQ = b ::
    rest) ∧ (s.blockBytes b = (w, .error none)) ∧ (u = (wholeBeats b).foldl (fun (v : State) e => (v.dvaWrite b.pilot (portCP (b.pilot / 4))
    .realTime b.space (b.dva + e.1) (bytesOf 32 e.2)).1) w) :=
  ⟨0, { block 5 with lost := 1 }, [], (pin0 { capQ := [{ block 5 with lost := 1 }] }).fput fMEM_SEG_LOST_lost 0 (2 ^ 32 - 1), _, _, by decide,
      (pair_of (by decide +kernel)), rfl⟩

theorem witness_captureBlockWrite_ct : ∃ n : PinNo, ∃ p : Nat, ∃ e : Nat × Nat × Nat × Nat, ∃ s u : State, ((s.pin n.val).capQ = []) ∧ ((List.range
    16).find? (fun p => (s.pilot p).str.ctQ.any (fun e => e.1 == n.val)) = some p) ∧ ((s.pilot p).str.ctQ.find? (fun e => e.1 == n.val) = some e) ∧
    (s.dvaWrite p (portCP (p / 4)) .realTime e.2.2.1 e.2.1 (bytesOf 32 e.2.2.2) = (u, none)) :=
  ⟨0, 0, (0, 0, 5, 1), ctWaits 5, _, by decide, by decide, by decide, (pair_of (by decide +kernel))⟩

theorem witness_captureBlockWrite_ct_fault : ∃ n : PinNo, ∃ p : Nat, ∃ e : Nat × Nat × Nat × Nat, ∃ s u : State, ((s.pin n.val).capQ = []) ∧
    ((List.range 16).find? (fun p => (s.pilot p).str.ctQ.any (fun e => e.1 == n.val)) = some p) ∧ ((s.pilot p).str.ctQ.find? (fun e => e.1 == n.val)
    = some e) ∧ ∃ f, (s.dvaWrite p (portCP (p / 4)) .realTime e.2.2.1 e.2.1 (bytesOf 32 e.2.2.2) = (u, some f)) :=
  ⟨0, 0, (0, 0, 7, 1), ctWaits 7, _, by decide, by decide, by decide, _, (some_of ⟨0, 0, 0, 0, 0, false, false, false, 0, 0, 0⟩ (by decide +kernel))⟩

theorem witness_captureMarker_waits : ∃ p : PilotNo, ∃ q elem : Nat, ∃ rest : List (Nat × Nat), ∃ s : State, ((s.pilot p.val).str.markers = (q, elem)
    :: rest) ∧ (((s.pilot p.val).str.ctQ ≠ [] ∨ (∃ e ∈ s.pins, ∃ b ∈ e.2.capQ, b.pilot = p.val) ∨ s.portQuiet (portCP (p.val / 4)) = false)) :=
  ⟨0, 2000, 1, [], { inLeg {} with pilots := [(0, { st := .inLeg, job := 1, str := { markers := [(2000, 1)], ctQ := [(0, 0, 5, 1)] } })] },
      by decide, (.inl (by decide))⟩

theorem witness_captureMarker : ∃ p : PilotNo, ∃ q elem : Nat, ∃ rest : List (Nat × Nat), ∃ s : State, ((s.pilot p.val).str.markers = (q, elem) ::
    rest) ∧ ((s.pilot p.val).str.ctQ = []) ∧ ((∀ e ∈ s.pins, ∀ b ∈ e.2.capQ, b.pilot ≠ p.val)) ∧ (s.portQuiet (portCP (p.val / 4)) = true) :=
  ⟨0, 2000, 1, [], { inLeg {} with pilots := [(0, { st := .inLeg, job := 1, str := { markers := [(2000, 1)] } })] }, by decide, by decide, by decide,
      by decide⟩

/-- A word's block of cluster 0 waits for its reload. -/
def reloads (k : Nat) : State := up.setCluster 0 { reload := [k] }

theorem witness_controlStoreReload_user_lost : ∃ c : ClusterNo, ∃ k : Nat, ∃ rest : List Nat, ∃ ok bad : Bool, ∃ ws : List (Nat × Nat), ∃ s u v w :
    State, ((s.cluster c.val).reload = k :: rest) ∧ (u = (s.setCluster c.val { s.cluster c.val with reload := rest }).fput fPLT_CS_STAT_reloading
    c.val (b2n (rest != []))) ∧ (u.reloadWords c.val k ok = (v, none)) :=
  ⟨0, 0x2000, [], false, false, [], reloads 0x2000, _, _, up, by decide, (rfl), (pair_of (by decide +kernel))⟩

theorem witness_controlStoreReload_bad : ∃ c : ClusterNo, ∃ k : Nat, ∃ rest : List Nat, ∃ ok bad : Bool, ∃ ws : List (Nat × Nat), ∃ s u v w : State,
    ((s.cluster c.val).reload = k :: rest) ∧ (u = (s.setCluster c.val { s.cluster c.val with reload := rest }).fput fPLT_CS_STAT_reloading c.val (b2n
    (rest != []))) ∧ (u.reloadWords c.val k ok = (v, some ws)) ∧ (w = (v.fput fPLT_CS_STAT_hard_fault c.val 1).logWrite 0x08 (22 + c) c.val 0) ∧
    let x := (v.cluster c.val).rewritten k ws; (bad = true) :=
  ⟨0, 0, [], true, true, _, reloads 0, _, _, _, by decide, (rfl), (some_of [] (by decide +kernel)), rfl, by decide⟩

theorem witness_controlStoreReload : ∃ c : ClusterNo, ∃ k : Nat, ∃ rest : List Nat, ∃ ok bad : Bool, ∃ ws : List (Nat × Nat), ∃ s u v w : State,
    ((s.cluster c.val).reload = k :: rest) ∧ (u = (s.setCluster c.val { s.cluster c.val with reload := rest }).fput fPLT_CS_STAT_reloading c.val (b2n
    (rest != []))) ∧ (u.reloadWords c.val k ok = (v, some ws)) ∧ (w = (v.fput fPLT_CS_STAT_hard_fault c.val 1).logWrite 0x08 (22 + c) c.val 0) ∧
    let x := (v.cluster c.val).rewritten k ws; (bad = false) :=
  ⟨0, 0, [], true, false, _, reloads 0, _, _, _, by decide, (rfl), (some_of [] (by decide +kernel)), rfl, by decide⟩

theorem witness_reloadWords_user : ∃ c k : Nat, ∃ s v : State, ∃ ws : Option (List (Nat × Nat)), (isUserKey k = true) ∧ (s.copyBlock (1 + c) k
    (s.fbit fPLT_CS_STAT_user_loaded c) = (v, ws)) :=
  ⟨0, 0x2000, up, _, _, by decide, (couple)⟩

theorem witness_reloadWords_vendor : ∃ c k : Nat, ∃ s v : State, ∃ ws : Option (List (Nat × Nat)), (isUserKey k = false) ∧ ((s.cluster
    c).image.isSome = true) ∧ (s.copyBlock 0 k true = (v, ws)) :=
  ⟨0, 0, up.setCluster 0 { image := some 0 }, _, _, by decide, by decide, (couple)⟩

theorem witness_controlStoreScrub : ∃ c : ClusterNo, ∃ s : State, (s.fbit fPLT_CS_STAT_scrub_en c.val = true) ∧ (s.fget fTHM_STAT_state = 0) :=
  ⟨0, scrubbed .single, by decide, by decide⟩

theorem witness_controlStoreScrub_off : ∃ c : ClusterNo, ∃ s : State, ((s.fbit fPLT_CS_STAT_scrub_en c.val = false ∨ s.fget fTHM_STAT_state ≠ 0)) :=
  ⟨0, up.fput fPLT_CS_STAT_scrub_en 0 0, by decide⟩

/-- Pilot 0 awaits the start of a leg of job 1, and a milestone of MER0 is to start it; `d` periods in MER0 cycles. -/
def awaits (x : Pilot) : State :=
  { mapped with jobs := [(1, { st := .running, desc := desc1 })], pilots := [(0, { x with st := .awaiting, job := 1, hdr := hdr1 })] }
def legMs : Milestone := { aMilestone with action := 1, target := 1 }
/-- The awaited leg starts relative to the end of the one before. -/
def relLeg (x : Pilot) : State := awaits { x with awaitEntry := 2 ^ 34 }
/-- The Pilot waits in a slip window. -/
def slips (w : Slip) : State := awaits { leg := { slip := some w } }

/-- What is found. -/
theorem found_of {α : Type} (d : α) {o : Option α} (h : o.isSome = true) : o = some (o.getD d) := by cases o <;> simp_all
theorem found2_of {α β : Type} (d : α × β) {o : Option (α × β)} (h : o.isSome = true) : o = some ((o.getD d).1, (o.getD d).2) := by
  cases o <;> simp_all
/-- Job 1 awaits its start while its Pilot runs another job. -/
def otherRuns : State :=
  { mapped with jobs := [(1, { st := .awaiting, desc := desc1 })], pilots := [(0, { st := .inLeg, job := 2, hdr := hdr1 })] }

theorem witness_msLegStart : ∃ id : Nat, ∃ x : Milestone, ∃ f : Fired, ∃ t e n88 : Nat, ∃ s v : State, (s.ms.pending.find? (fun y => y.id == id &&
    y.action == 1) = some x) ∧ let p := (s.job x.target).pilot; e = s.awaitedEntry p x.target ∧ (s.startPoint x (s.job x.target).meridian (legReach
    e) = some (t, n88)) ∧ (s.msFireAt id 1 (decide (legReach e = 0)) (fun _ => some t) = some (v, f)) ∧ ((s.pilot p).job = x.target) ∧ ((s.pilot
    p).st = .awaiting) ∧ (v.byMilestone p e = true) :=
  ⟨1, legMs, _, _, _, _, (awaits {}).msAdd legMs, _, by decide, (rfl), (found2_of (0, 0) (by decide +kernel)), (found2_of (up, ⟨legMs, 0, 0⟩)
      (by decide +kernel)), by decide, by decide, by decide⟩

theorem witness_msLegStart_late : ∃ id : Nat, ∃ x : Milestone, ∃ f : Fired, ∃ t e n88 : Nat, ∃ s v : State, (s.ms.pending.find? (fun y => y.id == id
    && y.action == 1) = some x) ∧ let p := (s.job x.target).pilot; e = s.awaitedEntry p x.target ∧ (s.startPoint x (s.job x.target).meridian
    (legReach e) = some (t, n88)) ∧ (s.msFireAt id 1 (decide (legReach e = 0)) (fun _ => some t) = some (v, f)) ∧ ((s.pilot p).job = x.target) ∧
    ((s.pilot p).st = .awaiting) ∧ (v.byMilestone p e = false) :=
  ⟨1, legMs, _, _, _, _, (relLeg { legsDone := 1 }).msAdd legMs, _, by decide, (rfl), (found2_of (0, 0) (by decide +kernel)), (found2_of (up, ⟨legMs,
      0, 0⟩) (by decide +kernel)), by decide, by decide, by decide⟩

theorem witness_msLegStart_pilot_busy : ∃ id : Nat, ∃ x : Milestone, ∃ f : Fired, ∃ t e n88 : Nat, ∃ s v : State, (s.ms.pending.find? (fun y => y.id
    == id && y.action == 1) = some x) ∧ let p := (s.job x.target).pilot; e = s.awaitedEntry p x.target ∧ (s.startPoint x (s.job x.target).meridian
    (legReach e) = some (t, n88)) ∧ (s.msFireAt id 1 (decide (legReach e = 0)) (fun _ => some t) = some (v, f)) ∧ (((s.pilot p).job ≠ x.target ∨
    (s.pilot p).st ≠ .awaiting)) ∧ ((v.job x.target).st = .awaiting) :=
  ⟨1, legMs, _, _, _, _, otherRuns.msAdd legMs, _, by decide, (rfl), (found2_of (0, 0) (by decide +kernel)), (found2_of (up, ⟨legMs, 0, 0⟩)
      (by decide +kernel)), by decide, by decide⟩

theorem witness_startLeg_refused : ∃ p n88 e : Nat, ∃ s : State, (e = (s.pilot p).awaitEntry) ∧ ∃ st park, (s.legRefusal p e n88 = some (st, park)) :=
  ⟨0, 0, _, awaits { awaitEntry := 256 }, (rfl), _, _, (found2_of (.ok, false) (by decide +kernel))⟩

theorem witness_startLeg : ∃ p n88 e : Nat, ∃ s : State, (e = (s.pilot p).awaitEntry) ∧ (s.legRefusal p e n88 = none) :=
  ⟨0, 2 ^ 40, _, awaits { resumed := true, awaitEntry := 256 }, (rfl), by decide⟩

theorem witness_relativeLegStart_absolute : ∃ p : PilotNo, ∃ t e : Nat, ∃ s : State, ((s.pilot p.val).st = .awaiting) ∧ ((s.pilot p.val).leg.slip =
    none) ∧ ((s.pilot p.val).legsDone ≠ 0) ∧ ((s.pilot p.val).resumed = false) ∧ (e = (s.pilot p.val).awaitEntry) ∧ (legMode e = 0) :=
  ⟨0, 0, _, awaits { legsDone := 1 }, by decide, by decide, by decide, by decide, (rfl), by decide⟩

theorem witness_relativeLegStart : ∃ p : PilotNo, ∃ t e : Nat, ∃ s : State, ((s.pilot p.val).st = .awaiting) ∧ ((s.pilot p.val).leg.slip = none) ∧
    ((s.pilot p.val).legsDone ≠ 0) ∧ ((s.pilot p.val).resumed = false) ∧ (e = (s.pilot p.val).awaitEntry) ∧ (legMode e ≠ 0) ∧ ((s.mer (s.pjob
    p.val).meridian).instantOf (s.relativeN p.val e - legReach e) = some t) :=
  ⟨0, _, _, relLeg { legsDone := 1 }, by decide, by decide, by decide, by decide, (rfl), by decide, (found_of 0 (by decide +kernel))⟩

theorem witness_slipSyncEdge_early : ∃ p : PilotNo, ∃ t r : Nat, ∃ w : Slip, ∃ s u : State, (u = s.advance t) ∧ ((u.pilot p.val).leg.slip = some w) ∧
    ((u.pilot p.val).st = .awaiting) ∧ (u.syncSeen (u.slipSource p.val) = true) ∧ (r = (u.mer (u.pjob p.val).meridian).reading t) ∧ (r < w.lo) :=
  ⟨0, 0, _, ⟨0, 0, false, 1, 2 ^ 60, 0, false⟩, slips ⟨0, 0, false, 1, 2 ^ 60, 0, false⟩, _, rfl, by decide, by decide, by decide, (rfl), by decide⟩

theorem witness_slipSyncEdge : ∃ p : PilotNo, ∃ t r : Nat, ∃ w : Slip, ∃ s u : State, (u = s.advance t) ∧ ((u.pilot p.val).leg.slip = some w) ∧
    ((u.pilot p.val).st = .awaiting) ∧ (u.syncSeen (u.slipSource p.val) = true) ∧ (r = (u.mer (u.pjob p.val).meridian).reading t) ∧ (w.lo ≤ r) ∧ (r ≤
    w.hi) :=
  ⟨0, 0, _, ⟨0, 0, false, 0, 2 ^ 60, 0, false⟩, slips ⟨0, 0, false, 0, 2 ^ 60, 0, false⟩, _, rfl, by decide, by decide, by decide, (rfl), by decide,
      by decide⟩

theorem witness_slipExpiry_fault : ∃ p : PilotNo, ∃ t : Nat, ∃ w : Slip, ∃ s u : State, ((s.pilot p.val).leg.slip = some w) ∧ ((s.pilot p.val).st =
    .awaiting) ∧ ((s.mer (s.pjob p.val).meridian).instantOf w.hi = some t) ∧ (u = ((s.advance t).fput fMER_SLIP_STAT_outcome p.val 2).fput
    fPLT_LEG_STATUS_slip_expired p.val 1) ∧ (w.fault = true) :=
  ⟨0, 0, ⟨0, 0, false, 0, 0, 0, true⟩, slips ⟨0, 0, false, 0, 0, 0, true⟩, _, by decide, by decide, by decide, rfl, by decide⟩

theorem witness_slipExpiry : ∃ p : PilotNo, ∃ t : Nat, ∃ w : Slip, ∃ s u : State, ((s.pilot p.val).leg.slip = some w) ∧ ((s.pilot p.val).st =
    .awaiting) ∧ ((s.mer (s.pjob p.val).meridian).instantOf w.hi = some t) ∧ (u = ((s.advance t).fput fMER_SLIP_STAT_outcome p.val 2).fput
    fPLT_LEG_STATUS_slip_expired p.val 1) ∧ (w.fault = false) :=
  ⟨0, 0, ⟨0, 0, false, 0, 0, 0, false⟩, slips ⟨0, 0, false, 0, 0, 0, false⟩, _, by decide, by decide, by decide, rfl, by decide⟩

/-- Pilot 0 of a state in a leg as given. -/
def ending (l : Leg) (st : PilotState := .inLeg) : State := { inLeg {} with pilots := [(0, { st := st, job := 1, hdr := hdr1, leg := l })] }
/-- Job 1 of Pilot 0 has been suspended. -/
def suspended : State := { mapped with jobs := [(1, { st := .suspended, desc := desc1 })], pilots := [(0, { suspended := [1] })] }

theorem witness_legEnd_trap : ∃ p : PilotNo, ∃ t : Nat, ∃ s u : State, let l := (s.pilot p.val).leg; let n := (s.pilot p.val).q.next; (s.pilot
    p.val).st ≠ .noJob ∧ (l.results = []) ∧ (l.begun = n) ∧ ((l.ending = 1 ∨ l.ending = 2)) ∧ ((s.mer (s.pjob p.val).meridian).instantOf (l.periodAt
    n) = some t) ∧ (u = ((((s.advance (max t (s.edgesDone p.val))).closeLeg p.val 1 n).flushPosts p.val n (l.periodAt n)).finishLeg p.val)) ∧ (u.fget
    fPLT_TRAP_PEND_pending p.val ≠ 0) :=
  ⟨0, 0, ({ inLeg {} with pilots := [(0, { st := .inLeg, job := 1, hdr := hdr1, leg := { ending := 1 } })] } : State).fput fPLT_TRAP_PEND_pending 0
      1, _, by decide, by decide, by decide, by decide, by decide, rfl, by decide⟩

theorem witness_legEnd_last : ∃ p : PilotNo, ∃ t : Nat, ∃ s u : State, let l := (s.pilot p.val).leg; let n := (s.pilot p.val).q.next; (s.pilot
    p.val).st ≠ .noJob ∧ (l.results = []) ∧ (l.begun = n) ∧ ((l.ending = 1 ∨ l.ending = 2)) ∧ ((s.mer (s.pjob p.val).meridian).instantOf (l.periodAt
    n) = some t) ∧ (u = ((((s.advance (max t (s.edgesDone p.val))).closeLeg p.val 1 n).flushPosts p.val n (l.periodAt n)).finishLeg p.val)) ∧ (u.fget
    fPLT_TRAP_PEND_pending p.val = 0) ∧ (l.ending = 2) :=
  ⟨0, 0, ({ inLeg {} with pilots := [(0, { st := .inLeg, job := 1, hdr := hdr1, leg := { ending := 2 } })] } : State), _, by decide, by decide,
      by decide, by decide, by decide, rfl, by decide, by decide⟩

theorem witness_legEnd_preempts : ∃ p : PilotNo, ∃ t : Nat, ∃ s u : State, let l := (s.pilot p.val).leg; let n := (s.pilot p.val).q.next; (s.pilot
    p.val).st ≠ .noJob ∧ (l.results = []) ∧ (l.begun = n) ∧ ((l.ending = 1 ∨ l.ending = 2)) ∧ ((s.mer (s.pjob p.val).meridian).instantOf (l.periodAt
    n) = some t) ∧ (u = ((((s.advance (max t (s.edgesDone p.val))).closeLeg p.val 1 n).flushPosts p.val n (l.periodAt n)).finishLeg p.val)) ∧ (u.fget
    fPLT_TRAP_PEND_pending p.val = 0) ∧ (l.ending = 1) ∧ ((u.pilot p.val).preempt.isSome = true) :=
  ⟨0, 0, ({ inLeg {} with pilots := [(0, { st := .inLeg, job := 1, hdr := hdr1, leg := { ending := 1 }, preempt := some 2 })] } : State), _,
      by decide, by decide, by decide, by decide, by decide, rfl, by decide, by decide, by decide⟩

theorem witness_legEnd : ∃ p : PilotNo, ∃ t : Nat, ∃ s u : State, let l := (s.pilot p.val).leg; let n := (s.pilot p.val).q.next; (s.pilot p.val).st ≠
    .noJob ∧ (l.results = []) ∧ (l.begun = n) ∧ ((l.ending = 1 ∨ l.ending = 2)) ∧ ((s.mer (s.pjob p.val).meridian).instantOf (l.periodAt n) = some t)
    ∧ (u = ((((s.advance (max t (s.edgesDone p.val))).closeLeg p.val 1 n).flushPosts p.val n (l.periodAt n)).finishLeg p.val)) ∧ (u.fget
    fPLT_TRAP_PEND_pending p.val = 0) ∧ (l.ending = 1) ∧ ((u.pilot p.val).preempt = none) :=
  ⟨0, 0, ({ inLeg {} with pilots := [(0, { st := .inLeg, job := 1, hdr := hdr1, leg := { ending := 1 } })] } : State), _, by decide, by decide,
      by decide, by decide, by decide, rfl, by decide, by decide, by decide⟩

theorem witness_legEnd_cause : ∃ p : PilotNo, ∃ s : State, ((s.pilot p.val).st ≠ .noJob) ∧ ((s.pilot p.val).leg.results = []) ∧ ((s.pilot
    p.val).leg.ending = 3) :=
  ⟨0, ending { ending := 3 }, by decide, by decide, by decide⟩

theorem witness_haltEntry_in_leg : ∃ p : PilotNo, ∃ e : Nat, ∃ s u : State, (s.qTake (16 + p.val) = some (e, u)) ∧ (u.legRuns p.val = true) :=
  ⟨0, 0, (ending {}).setDq 16 { elems := [0] }, _, (rfl), by decide⟩

theorem witness_haltEntry_window : ∃ p : PilotNo, ∃ e : Nat, ∃ s u : State, (s.qTake (16 + p.val) = some (e, u)) ∧ (u.legRuns p.val = false) ∧
    ((u.pilot p.val).st = .awaiting) ∧ ((u.pilot p.val).leg.slip.isSome = true) :=
  ⟨0, 0, (slips ⟨0, 0, false, 0, 0, 0, false⟩).setDq 16 { elems := [0] }, _, (rfl), by decide, by decide, by decide⟩

theorem witness_haltEntry_between : ∃ p : PilotNo, ∃ e : Nat, ∃ s u : State, (s.qTake (16 + p.val) = some (e, u)) ∧ (u.legRuns p.val = false) ∧
    ((u.pilot p.val).st = .between) :=
  ⟨0, 0, (ending {} .between).setDq 16 { elems := [0] }, _, (rfl), by decide, by decide⟩

theorem witness_siteQueueEntry : ∃ p : PilotNo, ∃ e : Nat, ∃ s u : State, (s.qTake (32 + p.val) = some (e, u)) ∧ ((u.job (bits e 15 8)).accepted =
    true) ∧ (bitAt (u.job (bits e 15 8)).sites (e % 64) = true) ∧ ((u.pilot p.val).job = bits e 15 8) ∧ (u.legRuns p.val = true) ∧ ((u.pilot
    p.val).leg.ending ≠ 3) ∧ (nget none (e % 64) (u.pilot p.val).leg.dropAt = none) :=
  ⟨0, 256, (ending {}).setDq 32 { elems := [256] }, _, (rfl), by decide, by decide, by decide, by decide, by decide, by decide⟩

theorem witness_siteQueueEntry_dropped : ∃ p : PilotNo, ∃ e : Nat, ∃ s u : State, (s.qTake (32 + p.val) = some (e, u)) ∧ ((u.job (bits e 15
    8)).accepted = true) ∧ (bitAt (u.job (bits e 15 8)).sites (e % 64) = true) ∧ ((u.pilot p.val).job = bits e 15 8) ∧ (u.legRuns p.val = true) ∧
    ((u.pilot p.val).leg.ending ≠ 3) ∧ ((nget none (e % 64) (u.pilot p.val).leg.dropAt).isSome = true) :=
  ⟨0, 256, (ending { dropAt := [(0, some 5)] }).setDq 32 { elems := [256] }, _, (rfl), by decide, by decide, by decide, by decide, by decide,
      by decide⟩

theorem contextGood_other {bs : List Byte} {j : Nat}
    (h : decide (bits (((List.range 512).map (fun k => ofBytes ((bs.drop (8 * k)).take 8))).getD 511 0) 47 40 = j) = false) :
    contextGood bs j = false := by
  unfold contextGood
  simp only [h, Bool.and_false]

/-- The context of job 1 that every field of is 0 but its last word. -/
def contextMem : List Host.Cell := [(4088, 0x1C), (4089, 0xFA), (4090, 0xB4), (4091, 0x07), (4092, 1), (4093, 1)]
/-- The suspended job with that context in memory. -/
def withContext : State := { suspended with hbm := { suspended.hbm with mem := contextMem } }
/-- The context's bytes. -/
def contextBytes : List Byte := (List.range 4096).map (fun i => nget 0 i contextMem)
/-- What the context's read brings once the job is taken back. -/
def contextRead : State × Access' :=
  (withContext.takeBack 0 1).1.dvaRead 0 (portCR 0) (withContext.job 1).aspace (withContext.job 1).ctx 4096
theorem blank_contextGood : contextGood contextBytes 1 = true := by decide +kernel

theorem context_reads : contextRead = (contextRead.1, .done contextBytes) := pair_of (by decide +kernel)

theorem witness_jobRestore : ∃ p : PilotNo, ∃ j : Nat, ∃ bs : List Byte, ∃ s u v : State, ((s.pilot p.val).st = .noJob) ∧ ((∀ e ∈ s.acceptedJobs,
    e.2.pilot = p.val → e.2.st ≠ .awaiting)) ∧ (s.restoreFirst p.val = some j) ∧ (s.takeBack p.val j = (u, .done)) ∧ (u.dvaRead p.val (portCR (p.val
    / 4)) (s.job j).aspace (s.job j).ctx 4096 = (v, .done bs)) ∧ (contextGood bs j = true) :=
  ⟨0, 1, contextBytes, withContext, _, _, by decide, by decide, by decide, (pair_of (by decide +kernel)), context_reads, (blank_contextGood)⟩

theorem witness_jobRestore_lost : ∃ p : PilotNo, ∃ j : Nat, ∃ bs : List Byte, ∃ s u v : State, ((s.pilot p.val).st = .noJob) ∧ ((∀ e ∈
    s.acceptedJobs, e.2.pilot = p.val → e.2.st ≠ .awaiting)) ∧ (s.restoreFirst p.val = some j) ∧ (s.takeBack p.val j = (u, .done)) ∧ (u.dvaRead p.val
    (portCR (p.val / 4)) (s.job j).aspace (s.job j).ctx 4096 = (v, .done bs)) ∧ (contextGood bs j = false) :=
  ⟨0, 1, _, suspended, _, _, by decide, by decide, by decide, (pair_of (by decide +kernel)), (read_of (by decide +kernel)), (contextGood_other
      (by decide +kernel))⟩

/-! ### Routes, jobs, microcode and the Sextant -/

/-- A route image of 644 bytes at DVA 0 of space 5: one pin, one NOP, one leg of 1,048,576 MER0 cycles a period, one row-table row, no vectors. -/
def imageMem : List Host.Cell :=
  [(0, 80), (1, 75), (2, 82), (3, 84), (4, 1), (7, 2), (8, 1), (9, 4), (12, 184), (13, 226), (14, 108), (15, 37), (16, 132), (17, 2), (25, 2), (32,
      1), (84, 1), (88, 64), (89, 2), (96, 128), (97, 2), (104, 1), (304, 227), (305, 82), (306, 176), (307, 56), (308, 142), (309, 245), (310, 243),
      (311, 219), (312, 96), (313, 247), (314, 184), (315, 37), (316, 30), (317, 158), (318, 36), (319, 157), (320, 32), (321, 77), (322, 115), (323,
      120), (324, 130), (325, 110), (326, 216), (327, 114), (328, 71), (329, 185), (330, 192), (331, 180), (332, 221), (333, 15), (334, 200), (335,
      55), (578, 16)]
def imaged : State := { mapped with hbm := { mapped.hbm with mem := imageMem } }
/-- Job 1 is defined and not started, in a state. -/
def defined1 (s : State) : State :=
  let s := (s.fput fCHT_AS_CTL_valid 5 1).fput fCHT_AS_ROOT_hpa 5 (2 ^ 20)
  { s with jobs := [(1, { st := .defined, desc := desc1 })], hbm := { s.hbm with mem := s.hbm.mem ++ [(16384, 0xF)] } }
/-- Leg 1 with a site as given. -/
def dropped0 : State := ending { dropAt := [(0, some 5)] }

/-- What is found. -/
theorem one_of {o : Option Nat} (h : o.isSome = true) : o = some (o.getD 0) := by cases o <;> simp_all
/-- What checks answered. -/
theorem passes_of {ε : Type} {p : State × Except ε Unit} (h : p.2.toBool = true) : p = (p.1, .ok ()) := by
  obtain ⟨v, a⟩ := p
  cases a <;> simp_all [Except.toBool]
/-- The status and detail that checks refused with. -/
def refusedWith {α : Type} (p : State × Except (Status × Nat) α) : Status × Nat := match p.2 with
  | .error e => e
  | .ok _ => (.ok, 0)
theorem refused_of {α : Type} {p : State × Except (Status × Nat) α} (h : p.2.toBool = false) :
    p = (p.1, .error ((refusedWith p).1, (refusedWith p).2)) := by
  obtain ⟨v, a⟩ := p
  cases a <;> simp_all [Except.toBool, refusedWith]

theorem witness_routeLoad_bad : ∃ s u v w : State, ∃ k : Packet, ∃ bs : List Byte, (s.accepts 0x2001 k) ∧ (u = s.begun k) ∧ (u.source (u8 k 24) (u8 k
    25) (u64 k 0) (u64 k 16) = (v, .bytes bs)) ∧ ∃ off, (routeBad (ofBytes bs) (u64 k 16) = some off) :=
  ⟨mapped, _, _, up, pk (64 * 2 ^ 128 + 1 * 2 ^ 192 + 5 * 2 ^ 200), _, by decide, rfl, (payload_of (by decide +kernel)), _, (one_of
      (by decide +kernel))⟩

/-- The image's bytes. -/
def imageBytes : List Byte := (List.range 644).map (fun i => nget 0 i imageMem)
def pkRoute : Packet := pk (65536 * 2 ^ 64 + 644 * 2 ^ 128 + 1 * 2 ^ 192 + 5 * 2 ^ 200)

theorem witness_routeLoad : ∃ s u v w : State, ∃ k : Packet, ∃ bs : List Byte, (s.accepts 0x2001 k) ∧ (u = s.begun k) ∧ (u.source (u8 k 24) (u8 k 25)
    (u64 k 0) (u64 k 16) = (v, .bytes bs)) ∧ (routeBad (ofBytes bs) (u64 k 16) = none) ∧ (v.storeResult (u8 k 25) (u64 k 8) bs = (w, none)) :=
  ⟨imaged, imaged.begun pkRoute, _, _, pkRoute, imageBytes, by decide, (rfl), (pair_of (by decide +kernel)), (by decide +kernel), (pair_of
      (by decide +kernel))⟩

theorem witness_jobDefine_busy : ∃ s u v : State, ∃ k : Packet, ∃ bs : List Byte, (s.accepts 0x2002 k) ∧ (u = s.begun k) ∧ (jobOf k < 256) ∧ ((u.job
    (jobOf k)).accepted = true) :=
  ⟨leg1, _, up, pk 0 1, [], by decide, rfl, by decide, by decide⟩

theorem witness_jobDefine : ∃ s u v : State, ∃ k : Packet, ∃ bs : List Byte, (s.accepts 0x2002 k) ∧ (u = s.begun k) ∧ (jobOf k < 256) ∧ ((u.job
    (jobOf k)).accepted = false) ∧ (u.payload (u8 k 8) (u64 k 0) 512 = (v, .bytes bs)) :=
  ⟨mapped, _, _, pk (5 * 2 ^ 64) 1, _, by decide, rfl, by decide, by decide, (payload_of (by decide +kernel))⟩

theorem witness_jobUndefine_busy : ∃ s u : State, ∃ k : Packet, (s.accepts 0x2008 k) ∧ (u = s.begun k) ∧ (jobOf k < 256) ∧ ((u.job (jobOf
    k)).accepted = true) :=
  ⟨leg1, _, pk 0 1, by decide, rfl, by decide, by decide⟩

theorem witness_jobUndefine : ∃ s u : State, ∃ k : Packet, (s.accepts 0x2008 k) ∧ (u = s.begun k) ∧ (jobOf k < 256) ∧ ((u.job (jobOf k)).accepted =
    false) :=
  ⟨mapped, _, pk 0 1, by decide, rfl, by decide, by decide⟩

theorem witness_siteMask : ∃ s u : State, ∃ k : Packet, (s.accepts 0x2005 k) ∧ (u = s.begun k) ∧ (jobOf k < 256) ∧ ((u.job (jobOf k)).accepted =
    true) ∧ (u.lastLeg (jobOf k) = false) ∧ (Nat.land (u64 k 0) (u.job (jobOf k)).sites = u64 k 0) ∧ let p := (u.job (jobOf k)).pilot; ((u.pilot
    p).job = jobOf k) ∧ ((u.pilot p).st ≠ .noJob) :=
  ⟨leg1, _, pk 1 1, by decide, rfl, by decide, by decide, by decide, by decide, by decide, by decide⟩

theorem witness_siteMask_later : ∃ s u : State, ∃ k : Packet, (s.accepts 0x2005 k) ∧ (u = s.begun k) ∧ (jobOf k < 256) ∧ ((u.job (jobOf k)).accepted
    = true) ∧ (u.lastLeg (jobOf k) = false) ∧ (Nat.land (u64 k 0) (u.job (jobOf k)).sites = u64 k 0) ∧ let p := (u.job (jobOf k)).pilot; ((u.pilot
    p).job ≠ jobOf k) :=
  ⟨{ leg1 with pilots := [] }, _, pk 1 1, by decide, rfl, by decide, by decide, by decide, by decide, by decide⟩

theorem witness_siteDrop_again : ∃ s u : State, ∃ k : Packet, (s.accepts 0x2006 k) ∧ (u = s.begun k) ∧ (jobOf k < 256) ∧ ((u.job (jobOf k)).accepted
    = true) ∧ (u8 k 0 < 48) ∧ (bitAt (u.job (jobOf k)).sites (u8 k 0) = true) ∧ (u.siteDropped (jobOf k) (u8 k 0) = true) :=
  ⟨dropped0, _, pk 0 1, by decide, rfl, by decide, by decide, by decide, by decide, by decide⟩

theorem witness_siteDrop : ∃ s u : State, ∃ k : Packet, (s.accepts 0x2006 k) ∧ (u = s.begun k) ∧ (jobOf k < 256) ∧ ((u.job (jobOf k)).accepted =
    true) ∧ (u8 k 0 < 48) ∧ (bitAt (u.job (jobOf k)).sites (u8 k 0) = true) ∧ (u.siteDropped (jobOf k) (u8 k 0) = false) :=
  ⟨leg1, _, pk 0 1, by decide, rfl, by decide, by decide, by decide, by decide, by decide⟩

theorem witness_trapResume : ∃ s : State, ∃ k : Packet, (s.accepts 0x2007 k) ∧ (u8 k 0 < 16) :=
  ⟨up, pk 0, by decide, by decide⟩

theorem witness_microcodeLoad_busy : ∃ s u v w : State, ∃ k : Packet, ∃ hb bs : List Byte, (s.accepts 0xA001 k) ∧ (u = s.begun k) ∧ (u8 k 0 < 4) ∧
    (u.clusterBusy (u8 k 0) = true) :=
  ⟨leg1, _, up, up, pk 0, [], [], by decide, rfl, by decide, by decide⟩

/-- A microcode image of 1,284 bytes at DVA 0 of space 5: 32 words and no valid dispatch entry, all zero bits. -/
def ucMem : List Host.Cell :=
  [(0, 80), (1, 75), (2, 85), (3, 67), (4, 1), (6, 1), (9, 32), (10, 32), (12, 33), (13, 6), (14, 222), (15, 229), (16, 4), (17, 5), (25, 1), (33,
      1), (41, 5), (64, 106), (65, 10), (66, 217), (67, 12), (68, 196), (69, 28), (70, 65), (71, 113), (72, 27), (73, 97), (74, 181), (75, 255), (76,
      113), (77, 56), (78, 58), (79, 132), (80, 240), (81, 77), (82, 161), (83, 120), (84, 72), (85, 104), (86, 84), (87, 145), (89, 251), (90, 190),
      (91, 150), (92, 177), (93, 197), (94, 152), (95, 134), (1280, 124), (1281, 222), (1282, 174), (1283, 238)]
def ucImaged : State := { mapped with hbm := { mapped.hbm with mem := ucMem } }
def ucBytes (n : Nat) : List Byte := (List.range n).map (fun i => nget 0 i ucMem)
def pkUc (digest : Nat) : Packet := pk (5 * 2 ^ 8 + digest * 2 ^ 128)
/-- Its digest. -/
def ucDigest : Nat := 60879846895820296848620385560148559934695184045380384709335684260185050253930
def ucHead (d : Nat) : State × Payload := (ucImaged.begun (pkUc d)).payload (u8 (pkUc d) 1) (u64 (pkUc d) 8) 256
def ucLen : Nat := max 256 (imgField (ofBytes (ucBytes 256)) 0x10 8)
def ucAll (d : Nat) : State × Payload := (ucHead d).1.payload (u8 (pkUc d) 1) (u64 (pkUc d) 8) ucLen
theorem uc_free_0 : ucImaged.accepts 0xA001 (pkUc 0) ∧ u8 (pkUc 0) 0 < 4 ∧ (ucImaged.begun (pkUc 0)).clusterBusy (u8 (pkUc 0) 0) = false := by decide
theorem uc_free : ucImaged.accepts 0xA001 (pkUc ucDigest) ∧ u8 (pkUc ucDigest) 0 < 4 ∧
    (ucImaged.begun (pkUc ucDigest)).clusterBusy (u8 (pkUc ucDigest) 0) = false := by decide
theorem uc_head_0 : ucHead 0 = ((ucHead 0).1, .bytes (ucBytes 256)) := pair_of (by decide +kernel)
theorem uc_head : ucHead ucDigest = ((ucHead ucDigest).1, .bytes (ucBytes 256)) := pair_of (by decide +kernel)
theorem uc_checks : firstBad (ucHdrChecks false (ofBytes (ucBytes 256)) ucLen) = none := by decide +kernel
theorem uc_all_0 : ucAll 0 = ((ucAll 0).1, .bytes (ucBytes 1284)) := pair_of (by decide +kernel)
theorem uc_all : ucAll ucDigest = ((ucAll ucDigest).1, .bytes (ucBytes 1284)) := pair_of (by decide +kernel)
theorem uc_verdicts : ucBad (ofBytes (ucBytes 1284)) ucLen (bits (pkUc 0).params.toNat 383 128) = some 0x40 ∧
    ucBad (ofBytes (ucBytes 1284)) ucLen (bits (pkUc ucDigest).params.toNat 383 128) = none := by decide +kernel

theorem witness_microcodeLoad_bad : ∃ s u v w : State, ∃ k : Packet, ∃ hb bs : List Byte, (s.accepts 0xA001 k) ∧ (u = s.begun k) ∧ (u8 k 0 < 4) ∧
    (u.clusterBusy (u8 k 0) = false) ∧ (u.payload (u8 k 1) (u64 k 8) 256 = (v, .bytes hb)) ∧ let n := max 256 (imgField (ofBytes hb) 0x10 8);
    firstBad (ucHdrChecks false (ofBytes hb) n) = none ∧ (v.payload (u8 k 1) (u64 k 8) n = (w, .bytes bs)) ∧ ∃ off, (ucBad (ofBytes bs) n (bits
    k.params.toNat 383 128) = some off) :=
  ⟨ucImaged, ucImaged.begun (pkUc 0), (ucHead 0).1, (ucAll 0).1, pkUc 0, ucBytes 256, ucBytes 1284, (uc_free_0.1), (rfl), (uc_free_0.2.1),
      (uc_free_0.2.2), (uc_head_0), (uc_checks), (uc_all_0), 0x40, (uc_verdicts.1)⟩

theorem witness_microcodeLoad : ∃ s u v w : State, ∃ k : Packet, ∃ hb bs : List Byte, (s.accepts 0xA001 k) ∧ (u = s.begun k) ∧ (u8 k 0 < 4) ∧
    (u.clusterBusy (u8 k 0) = false) ∧ (u.payload (u8 k 1) (u64 k 8) 256 = (v, .bytes hb)) ∧ let n := max 256 (imgField (ofBytes hb) 0x10 8);
    firstBad (ucHdrChecks false (ofBytes hb) n) = none ∧ (v.payload (u8 k 1) (u64 k 8) n = (w, .bytes bs)) ∧ (ucBad (ofBytes bs) n (bits
    k.params.toNat 383 128) = none) :=
  ⟨ucImaged, ucImaged.begun (pkUc ucDigest), (ucHead ucDigest).1, (ucAll ucDigest).1, pkUc ucDigest, ucBytes 256, ucBytes 1284, (uc_free.1), (rfl),
      (uc_free.2.1), (uc_free.2.2), (uc_head), (uc_checks), (uc_all), (uc_verdicts.2)⟩

theorem witness_microcodeUnload : ∃ s u : State, ∃ k : Packet, (s.accepts 0xA002 k) ∧ (u = s.begun k) ∧ (u8 k 0 < 4) ∧ (u.clusterBusy (u8 k 0) =
    false) :=
  ⟨expert, _, pk 0, by decide, rfl, by decide, by decide⟩

theorem witness_jobStart_undefined : ∃ s u v w z : State, ∃ k : Packet, ∃ f : RouteFacts, ∃ demand : List (Nat × Nat × Nat), ∃ id : Nat, ∃ late :
    Bool, (s.accepts 0x2003 k) ∧ (u = s.begun k) ∧ (jobOf k < 256) ∧ (u32 k 8 < 2 ^ 24) ∧ ∃ st d, (u.startBasics (jobOf k) = (v, .error (st, d))) :=
  ⟨up, _, _, up, up, pk 0 1, ⟨0, 0, 0, 0⟩, [], 0, false, by decide, rfl, by decide, by decide, _, _, (refused_of (by decide +kernel))⟩

/-- Job 1's start where its route reads as zeros. -/
def noRoute : State := (defined1 mapped).begun (pk 0 1)
theorem noRoute_accepts : (defined1 mapped).accepts 0x2003 (pk 0 1) := by decide
theorem noRoute_basics : (noRoute.startBasics 1).2.toBool = true := by decide +kernel
theorem noRoute_fails : noRoute.startBasics 1 = ((noRoute.startBasics 1).1, .ok ()) := passes_of noRoute_basics
theorem noRoute_route : ((noRoute.startBasics 1).1.startRoute 1).2.toBool = false := by decide +kernel
theorem noRoute_refused : (noRoute.startBasics 1).1.startRoute 1 = ((((noRoute.startBasics 1).1).startRoute 1).1,
    .error ((refusedWith ((noRoute.startBasics 1).1.startRoute 1)).1, (refusedWith ((noRoute.startBasics 1).1.startRoute 1)).2)) := refused_of
        noRoute_route

theorem witness_jobStart_bad_route : ∃ s u v w z : State, ∃ k : Packet, ∃ f : RouteFacts, ∃ demand : List (Nat × Nat × Nat), ∃ id : Nat, ∃ late :
    Bool, (s.accepts 0x2003 k) ∧ (u = s.begun k) ∧ (jobOf k < 256) ∧ (u32 k 8 < 2 ^ 24) ∧ (u.startBasics (jobOf k) = (v, .ok ())) ∧ ∃ st d,
    (v.startRoute (jobOf k) = (w, .error (st, d))) :=
  ⟨defined1 mapped, noRoute, (noRoute.startBasics 1).1, _, up, pk 0 1, ⟨0, 0, 0, 0⟩, [], 0, false, (noRoute_accepts), ((rfl : noRoute = _)),
      by decide, by decide, (noRoute_fails), _, _, (noRoute_refused)⟩

theorem commits {s : State} {m a t p q n b x y j : Nat} (room : s.ms.pending.length < 4096) (on : (s.mer m).st ≠ .off)
    (due : s.odo m + s.msLead m a ≤ n - b) :
    s.msCommit m a t p q n b x y j = (s.msAdd ⟨0, m, a, t, p == 1, false, q, n, x, y, j⟩, .ok (s.ms.nextId, false)) := by
  have late : decide (n - b < s.odo m + s.msLead m a) = false := decide_eq_false (by omega)
  unfold State.msCommit State.msCommitAs State.countLate
  rw [if_neg (by omega), if_neg on, late]
  simp

/-- The status that a commit was refused with. -/
def commitRefused {α : Type} (p : State × Except Status α) : Status := match p.2 with
  | .error e => e
  | .ok _ => .ok
theorem commit_refused {α : Type} {p : State × Except Status α} (h : p.2.toBool = false) : p = (p.1, .error (commitRefused p)) := by
  obtain ⟨v, a⟩ := p
  cases a <;> simp_all [Except.toBool, commitRefused]
/-- What a readable route tells. -/
def factsIn (p : State × Except (Status × Nat) RouteFacts) : RouteFacts := match p.2 with
  | .ok f => f
  | .error _ => ⟨0, 0, 0, 0⟩
theorem facts_of {p : State × Except (Status × Nat) RouteFacts} (h : p.2.toBool = true) : p = (p.1, .ok (factsIn p)) := by
  obtain ⟨w, a⟩ := p
  cases a <;> simp_all [Except.toBool, factsIn]
/-- A start as far as its basics, its route, and its demand. -/
def basics (s : State) (k : Packet) : State × Except (Status × Nat) Unit := (s.begun k).startBasics (jobOf k)
def routed (s : State) (k : Packet) : State × Except (Status × Nat) RouteFacts := (basics s k).1.startRoute (jobOf k)
def demanded (s : State) (k : Packet) : State × List (Nat × Nat × Nat) × Bool := (routed s k).1.demandOf (jobOf k) (factsIn (routed s k))
def placeOf (s : State) (k : Packet) : Option Status := (routed s k).1.startPlace (jobOf k) (factsIn (routed s k))
def fitsIn (s : State) (k : Packet) : Bool :=
  (demanded s k).1.budgetsHold ((demanded s k).1.job (jobOf k)).pilot (demanded s k).2.1
def onMer (s : State) (k : Packet) : Nat := ((demanded s k).1.job (jobOf k)).meridian
def commitOf (s : State) (k : Packet) : State × Except Status (Nat × Bool) :=
  (demanded s k).1.msCommit (onMer s k) 1 (jobOf k) 0 0 (u64 k 0 * fracOne + u32 k 8) (legReach (factsIn (routed s k)).leg0) 0 0 (jobOf k)
/-- Job 1 can start on the route of the image at a reading. -/
def startable : State := defined1 imaged
def pkStart : Packet := pk 2000000 1
theorem startable_passes : (basics startable pkStart).2.toBool = true ∧ (routed startable pkStart).2.toBool = true ∧
    placeOf startable pkStart = none ∧ (demanded startable pkStart).2.2 = true ∧ fitsIn startable pkStart = true ∧
    ((demanded startable pkStart).1.mer (onMer startable pkStart)).st ≠ .off ∧ (demanded startable pkStart).1.ms.pending.length < 4096 ∧
    (demanded startable pkStart).1.odo (onMer startable pkStart) + (demanded startable pkStart).1.msLead (onMer startable pkStart) 1 ≤
      u64 pkStart 0 * fracOne + u32 pkStart 8 - legReach (factsIn (routed startable pkStart)).leg0 := by decide +kernel
/-- The leg-start milestone of the start. -/
def startMs : Milestone := ⟨0, onMer startable pkStart, 1, jobOf pkStart, false, false, 0, u64 pkStart 0 * fracOne + u32 pkStart 8, 0, 0, jobOf
    pkStart⟩
theorem startable_commits : commitOf startable pkStart =
    ((demanded startable pkStart).1.msAdd startMs, .ok ((demanded startable pkStart).1.ms.nextId, false)) :=
  commits (p := 0) (q := 0) (x := 0) (y := 0) startable_passes.2.2.2.2.2.2.1 startable_passes.2.2.2.2.2.1 startable_passes.2.2.2.2.2.2.2
/-- A start at a reading that has passed. -/
def pkLate : Packet := pk 0 1
theorem startable_late : (basics startable pkLate).2.toBool = true ∧ (routed startable pkLate).2.toBool = true ∧
    placeOf startable pkLate = none ∧ (demanded startable pkLate).2.2 = true ∧ fitsIn startable pkLate = true ∧
    ((demanded startable pkLate).1.mer (onMer startable pkLate)).st ≠ .off ∧ (commitOf startable pkLate).2.toBool = false := by decide +kernel
/-- Another job of Pilot 8 takes more than the memory gives. -/
def overBudget : State := { startable with jobs := (2, { st := .running, demand := [(1, 2 ^ 100, 1)], desc := 8 }) :: startable.jobs }
theorem overBudget_refused : (basics overBudget pkStart).2.toBool = true ∧ (routed overBudget pkStart).2.toBool = true ∧
    placeOf overBudget pkStart = none ∧ fitsIn overBudget pkStart = false := by decide +kernel
/-- Job 1 is timed by MER1, which is off. -/
def onMer1 : State := { startable with jobs := [(1, { st := .defined, desc := desc1 + 2 ^ 16 })] }
theorem onMer1_refused : (basics onMer1 pkStart).2.toBool = true ∧ (routed onMer1 pkStart).2.toBool = true ∧ placeOf onMer1 pkStart = none ∧
    (demanded onMer1 pkStart).2.2 = true ∧ fitsIn onMer1 pkStart = true ∧
    ((demanded onMer1 pkStart).1.mer (onMer onMer1 pkStart)).st = .off := by decide +kernel
/-- Pin 0 is claimed by another job of Pilot 8. -/
def claimed : State := { startable with jobs := (2, { st := .running, desc := desc1 + 8 }) :: startable.jobs }
theorem claimed_refused : (basics claimed pkStart).2.toBool = true ∧ (routed claimed pkStart).2.toBool = true ∧
    placeOf claimed pkStart = some .pinClaimed := by decide +kernel

theorem witness_jobStart_claimed : ∃ s u v w z : State, ∃ k : Packet, ∃ f : RouteFacts, ∃ demand : List (Nat × Nat × Nat), ∃ id : Nat, ∃ late : Bool,
    (s.accepts 0x2003 k) ∧ (u = s.begun k) ∧ (jobOf k < 256) ∧ (u32 k 8 < 2 ^ 24) ∧ (u.startBasics (jobOf k) = (v, .ok ())) ∧ (v.startRoute (jobOf k)
    = (w, .ok f)) ∧ ∃ st, (w.startPlace (jobOf k) f = some st) :=
  ⟨claimed, _, (basics claimed pkStart).1, (routed claimed pkStart).1, up, pkStart, factsIn (routed claimed pkStart), [], 0, false,
      (by decide +kernel), rfl, (by decide +kernel), (by decide +kernel), (passes_of claimed_refused.1), (facts_of claimed_refused.2.1), _,
      (claimed_refused.2.2)⟩

theorem witness_jobStart_over_budget : ∃ s u v w z : State, ∃ k : Packet, ∃ f : RouteFacts, ∃ demand : List (Nat × Nat × Nat), ∃ id : Nat, ∃ late :
    Bool, (s.accepts 0x2003 k) ∧ (u = s.begun k) ∧ (jobOf k < 256) ∧ (u32 k 8 < 2 ^ 24) ∧ (u.startBasics (jobOf k) = (v, .ok ())) ∧ (v.startRoute
    (jobOf k) = (w, .ok f)) ∧ ∃ pace, (w.startPlace (jobOf k) f = none) ∧ (w.demandOf (jobOf k) f = (z, demand, pace)) ∧
    let m := (z.job (jobOf k)).meridian; let fits := z.budgetsHold (z.job (jobOf k)).pilot demand; ((pace = false ∨ fits = false)) :=
  ⟨overBudget, _, (basics overBudget pkStart).1, (routed overBudget pkStart).1, (demanded overBudget pkStart).1, pkStart, factsIn (routed overBudget
      pkStart), (demanded overBudget pkStart).2.1, 0, false, (by decide +kernel), rfl, (by decide +kernel), (by decide +kernel), (passes_of
      overBudget_refused.1), (facts_of overBudget_refused.2.1), (demanded overBudget pkStart).2.2, (overBudget_refused.2.2.1), ((triple : demanded
      overBudget pkStart = _)), (.inr overBudget_refused.2.2.2)⟩

theorem witness_jobStart_meridian_off : ∃ s u v w z : State, ∃ k : Packet, ∃ f : RouteFacts, ∃ demand : List (Nat × Nat × Nat), ∃ id : Nat, ∃ late :
    Bool, (s.accepts 0x2003 k) ∧ (u = s.begun k) ∧ (jobOf k < 256) ∧ (u32 k 8 < 2 ^ 24) ∧ (u.startBasics (jobOf k) = (v, .ok ())) ∧ (v.startRoute
    (jobOf k) = (w, .ok f)) ∧ ∃ pace, (w.startPlace (jobOf k) f = none) ∧ (w.demandOf (jobOf k) f = (z, demand, pace)) ∧
    let m := (z.job (jobOf k)).meridian; let fits := z.budgetsHold (z.job (jobOf k)).pilot demand; (pace = true) ∧ (fits = true) ∧ ((z.mer m).st =
    .off) :=
  ⟨onMer1, _, (basics onMer1 pkStart).1, (routed onMer1 pkStart).1, (demanded onMer1 pkStart).1, pkStart, factsIn (routed onMer1 pkStart), (demanded
      onMer1 pkStart).2.1, 0, false, (by decide +kernel), rfl, (by decide +kernel), (by decide +kernel), (passes_of onMer1_refused.1), (facts_of
      onMer1_refused.2.1), (demanded onMer1 pkStart).2.2, (onMer1_refused.2.2.1), ((triple : demanded onMer1 pkStart = _)), (onMer1_refused.2.2.2.1),
      (onMer1_refused.2.2.2.2.1), (onMer1_refused.2.2.2.2.2)⟩

theorem witness_jobStart_late : ∃ s u v w z : State, ∃ k : Packet, ∃ f : RouteFacts, ∃ demand : List (Nat × Nat × Nat), ∃ id : Nat, ∃ late : Bool,
    (s.accepts 0x2003 k) ∧ (u = s.begun k) ∧ (jobOf k < 256) ∧ (u32 k 8 < 2 ^ 24) ∧ (u.startBasics (jobOf k) = (v, .ok ())) ∧ (v.startRoute (jobOf k)
    = (w, .ok f)) ∧ ∃ pace, (w.startPlace (jobOf k) f = none) ∧ (w.demandOf (jobOf k) f = (z, demand, pace)) ∧ let m := (z.job (jobOf k)).meridian;
    let fits := z.budgetsHold (z.job (jobOf k)).pilot demand; ∃ y st, (pace = true) ∧ (fits = true) ∧ ((z.mer m).st ≠ .off) ∧ (z.msCommit m 1 (jobOf
    k) 0 0 (u64 k 0 * fracOne + u32 k 8) (legReach f.leg0) 0 0 (jobOf k) = (y, .error st)) :=
  ⟨startable, _, (basics startable pkLate).1, (routed startable pkLate).1, (demanded startable pkLate).1, pkLate, factsIn (routed startable pkLate),
      (demanded startable pkLate).2.1, 0, false, (by decide +kernel), rfl, (by decide +kernel), (by decide +kernel), (passes_of startable_late.1),
      (facts_of startable_late.2.1), (demanded startable pkLate).2.2, (startable_late.2.2.1), ((triple : demanded startable pkLate = _)), _, _,
      (startable_late.2.2.2.1), (startable_late.2.2.2.2.1), (startable_late.2.2.2.2.2.1), (commit_refused startable_late.2.2.2.2.2.2)⟩

theorem witness_jobStart : ∃ s u v w z : State, ∃ k : Packet, ∃ f : RouteFacts, ∃ demand : List (Nat × Nat × Nat), ∃ id : Nat, ∃ late : Bool,
    (s.accepts 0x2003 k) ∧ (u = s.begun k) ∧ (jobOf k < 256) ∧ (u32 k 8 < 2 ^ 24) ∧ (u.startBasics (jobOf k) = (v, .ok ())) ∧ (v.startRoute (jobOf k)
    = (w, .ok f)) ∧ ∃ pace, (w.startPlace (jobOf k) f = none) ∧ (w.demandOf (jobOf k) f = (z, demand, pace)) ∧ let m := (z.job (jobOf k)).meridian;
    let fits := z.budgetsHold (z.job (jobOf k)).pilot demand; ∃ y, (pace = true) ∧ (fits = true) ∧ ((z.mer m).st ≠ .off) ∧ (z.msCommit m 1 (jobOf k)
    0 0 (u64 k 0 * fracOne + u32 k 8) (legReach f.leg0) 0 0 (jobOf k) = (y, .ok (id, late))) :=
  ⟨startable, _, (basics startable pkStart).1, (routed startable pkStart).1, (demanded startable pkStart).1, pkStart, factsIn (routed startable
      pkStart), (demanded startable pkStart).2.1, (demanded startable pkStart).1.ms.nextId, false, (by decide +kernel), rfl, (by decide +kernel),
      (by decide +kernel), (passes_of startable_passes.1), (facts_of startable_passes.2.1), (demanded startable pkStart).2.2,
      (startable_passes.2.2.1), ((triple : demanded startable pkStart = _)), (demanded startable pkStart).1.msAdd startMs,
      (startable_passes.2.2.2.1), (startable_passes.2.2.2.2.1), (startable_passes.2.2.2.2.2.1), (startable_commits)⟩

theorem witness_haltJob_not_accepted : ∃ s u : State, ∃ k : Packet, (s.admits 0x2004 k) ∧ (u = (s.begun k).bump fHLM_PROMPT_CNT_halts) ∧ ((u.job
    (jobOf k)).accepted = false) :=
  ⟨up, _, pk 0 1, by decide, rfl, by decide⟩

theorem witness_haltJob_in_leg : ∃ s u : State, ∃ k : Packet, (s.admits 0x2004 k) ∧ (u = (s.begun k).bump fHLM_PROMPT_CNT_halts) ∧ (jobOf k < 256) ∧
    ((u.job (jobOf k)).accepted = true) ∧ (u.jobInLeg (jobOf k) = true) :=
  ⟨leg1, _, pk 0 1, by decide, rfl, by decide, by decide, by decide⟩

theorem witness_haltJob : ∃ s u : State, ∃ k : Packet, (s.admits 0x2004 k) ∧ (u = (s.begun k).bump fHLM_PROMPT_CNT_halts) ∧ (jobOf k < 256) ∧ ((u.job
    (jobOf k)).accepted = true) ∧ (u.jobInLeg (jobOf k) = false) :=
  ⟨{ leg1 with pilots := [] }, _, pk 0 1, by decide, rfl, by decide, by decide, by decide⟩

theorem witness_abortAll : ∃ s : State, ∃ k : Packet, (s.admits 0x0004 k) ∧ ((s.begun k).abortAll.fbit fWLN_CONV_CTL_abort_halt = false) :=
  ⟨up, pk 0, by decide, by decide⟩

theorem witness_abortAll_halts : ∃ s : State, ∃ k : Packet, (s.admits 0x0004 k) ∧ ((s.begun k).abortAll.fbit fWLN_CONV_CTL_abort_halt = true) :=
  ⟨up.fput fWLN_CONV_CTL_abort_halt 0 1, pk 0, by decide, by decide⟩

theorem witness_sextantEdge_unseen : ∃ c : Fin 52, ∃ at' : Nat, ∃ f voh : Bool, ∃ s u v w : State, (u = (s.advance (at' * 60)).sxtCompare c.val f
    voh) ∧ (v = u.sxtCount c.val) ∧ (w = v.setSxtChan c.val { v.sxtChan c.val with lastTaken := some (at' * 60) }) ∧ (u.sxtSees c.val f voh = false)
    :=
  ⟨0, 0, true, false, up, _, _, _, rfl, rfl, rfl, by decide⟩

theorem witness_sextantEdge_lost : ∃ c : Fin 52, ∃ at' : Nat, ∃ f voh : Bool, ∃ s u v w : State, (u = (s.advance (at' * 60)).sxtCompare c.val f voh)
    ∧ (v = u.sxtCount c.val) ∧ (w = v.setSxtChan c.val { v.sxtChan c.val with lastTaken := some (at' * 60) }) ∧ (u.sxtSees c.val f voh = true) ∧
    ((u.sxtChan c.val).count % u.sxtK c.val = 0) ∧ (v.sxtSince c.val (at' * 60) (v.sxtHold c.val) = false) ∧ (v.sxtSince c.val (at' * 60) (160 *
    unitsPerPs) = true) :=
  ⟨0, 0, false, false, up.setSxtChan 0 { lastTaken := some 0 }, _, _, _, rfl, rfl, rfl, by decide, by decide, by decide, by decide⟩

theorem witness_sextantEdge_no_time : ∃ c : Fin 52, ∃ at' : Nat, ∃ f voh : Bool, ∃ s u v w : State, (u = (s.advance (at' * 60)).sxtCompare c.val f
    voh) ∧ (v = u.sxtCount c.val) ∧ (w = v.setSxtChan c.val { v.sxtChan c.val with lastTaken := some (at' * 60) }) ∧ (u.sxtSees c.val f voh = true) ∧
    ((u.sxtChan c.val).count % u.sxtK c.val = 0) ∧ (v.sxtSince c.val (at' * 60) (v.sxtHold c.val) = false) ∧ (v.sxtSince c.val (at' * 60) (160 *
    unitsPerPs) = false) ∧ ((w.mer (w.sxtMer c.val)).st ≠ .running) :=
  ⟨0, 0, false, false, up.fput fSXT_CH_CTL_meridian 0 1, _, _, _, rfl, rfl, rfl, by decide, by decide, by decide, by decide, by decide⟩

theorem witness_sextantEdge : ∃ c : Fin 52, ∃ at' : Nat, ∃ f voh : Bool, ∃ s u v w : State, (u = (s.advance (at' * 60)).sxtCompare c.val f voh) ∧ (v
    = u.sxtCount c.val) ∧ (w = v.setSxtChan c.val { v.sxtChan c.val with lastTaken := some (at' * 60) }) ∧ (u.sxtSees c.val f voh = true) ∧
    ((u.sxtChan c.val).count % u.sxtK c.val = 0) ∧ (v.sxtSince c.val (at' * 60) (v.sxtHold c.val) = false) ∧ (v.sxtSince c.val (at' * 60) (160 *
    unitsPerPs) = false) ∧ ((w.mer (w.sxtMer c.val)).st = .running) :=
  ⟨0, 0, false, false, up, _, _, _, rfl, rfl, rfl, by decide, by decide, by decide, by decide, by decide⟩

/-- A stamp at reading 0 of MER0. -/
def stamp0 : Stamp := ⟨0, false, false, 0, false, 0, 0, 0⟩
/-- Sextant channel 0 as given. -/
def sxt0 (x : SxtChan) : State := up.setSxtChan 0 x
/-- Measurement unit 0 measures a frequency on channel 0, whose window closes at reading 1. -/
def counting : State := (((sxt0 { wins := [⟨0, 0, 1⟩] }).setMer 0 { st := .running, anchorR := 5, rate := 2 ^ 36 }).setMu 0 { running := true }).fput
    fSXT_MU_CTL_mode 0 3

theorem witness_sextantEdge_held_off : ∃ c : Fin 52, ∃ at' : Nat, ∃ f voh : Bool, ∃ s u v w : State, (u = (s.advance (at' * 60)).sxtCompare c.val f
    voh) ∧ (v = u.sxtCount c.val) ∧ (w = v.setSxtChan c.val { v.sxtChan c.val with lastTaken := some (at' * 60) }) ∧ (u.sxtSees c.val f voh = true) ∧
    (((u.sxtChan c.val).count % u.sxtK c.val ≠ 0 ∨ v.sxtSince c.val (at' * 60) (v.sxtHold c.val) = true)) :=
  ⟨0, 0, false, false, (up.setSxtChan 0 { lastTaken := some 0 }).fput fSXT_CH_CTL_holdoff 0 1, _, _, _, rfl, rfl, rfl, by decide, by decide⟩

theorem witness_stampDecision_waits : ∃ c : Fin 52, ∃ t : Stamp, ∃ rest : List Stamp, ∃ s u : State, ((s.sxtChan c.val).taken = t :: rest) ∧ (u =
    (s.advance (t.due + 200 * unitsPerNs)).setSxtChan c.val { (s.advance (t.due + 200 * unitsPerNs)).sxtChan c.val with taken := rest }) ∧
    ((s.sxtAwaits c.val t.due = true ∨ s.sxtUndecided t.due = true)) :=
  ⟨0, stamp0, [], (sxt0 { taken := [stamp0] }).msAdd { aMilestone with action := 6, target := 0, at88 := 0 }, _, by decide, rfl, by decide⟩

theorem witness_stampDecision : ∃ c : Fin 52, ∃ t : Stamp, ∃ rest : List Stamp, ∃ s u : State, ((s.sxtChan c.val).taken = t :: rest) ∧ (u =
    (s.advance (t.due + 200 * unitsPerNs)).setSxtChan c.val { (s.advance (t.due + 200 * unitsPerNs)).sxtChan c.val with taken := rest }) ∧
    (s.sxtAwaits c.val t.due = false) ∧ (s.sxtUndecided t.due = false) :=
  ⟨0, stamp0, [], sxt0 { taken := [stamp0], arms := [(0, true)] }, _, by decide, rfl, by decide, by decide⟩

theorem witness_sxtDecide_unarmed : ∃ c : Nat, ∃ t : Stamp, ∃ u v : State, (v = u.tick fSXT_CH_STAT_seq c) ∧ ((u.sxtChan c).armed t.at96 = false) :=
  ⟨0, stamp0, sxt0 {}, _, rfl, by decide⟩

theorem witness_sxtDecide_outside : ∃ c : Nat, ∃ t : Stamp, ∃ u v : State, (v = u.tick fSXT_CH_STAT_seq c) ∧ ((u.sxtChan c).armed t.at96 = true) ∧
    (u.fbit fSXT_CH_CTL_win_en c = true) ∧ ((u.sxtChan c).inWindow t.at96 = false) :=
  ⟨0, stamp0, (sxt0 { arms := [(0, true)] }).fput fSXT_CH_CTL_win_en 0 1, _, rfl, by decide, by decide, by decide⟩

theorem witness_sxtDecide : ∃ c : Nat, ∃ t : Stamp, ∃ u v : State, (v = u.tick fSXT_CH_STAT_seq c) ∧ ((u.sxtChan c).armed t.at96 = true) ∧ ((u.fbit
    fSXT_CH_CTL_win_en c = false ∨ (u.sxtChan c).inWindow t.at96 = true)) ∧ ((v.fbit fSXT_CH_CTL_stream_en c = false ∨ v.postFull (sxtHalf c) t.time
    = false)) :=
  ⟨0, stamp0, sxt0 { arms := [(0, true)] }, _, rfl, by decide, by decide, by decide⟩

/-- Channel 0 streams, and its half's post path took 256 stamps at reset's instant. -/
def crowdedPosts : State :=
  let s := (sxt0 { arms := [(0, true)] }).fput fSXT_CH_CTL_stream_en 0 1
  { s with sxt := { s.sxt with posted0 := List.replicate 256 0 } }

theorem witness_sxtDecide_post_lost : ∃ c : Nat, ∃ t : Stamp, ∃ u v : State, (v = u.tick fSXT_CH_STAT_seq c) ∧ ((u.sxtChan c).armed t.at96 = true) ∧
    ((u.fbit fSXT_CH_CTL_win_en c = false ∨ (u.sxtChan c).inWindow t.at96 = true)) ∧ (v.fbit fSXT_CH_CTL_stream_en c = true) ∧ (v.postFull (sxtHalf
    c) t.time = true) :=
  ⟨0, stamp0, crowdedPosts, _, rfl, by decide, by decide, by decide, by decide⟩

theorem witness_stampPost : ∃ c : Fin 52, ∃ t : Stamp, ∃ q : Nat, ∃ gap : Bool, ∃ rest : List (Stamp × Nat × Bool), ∃ s u : State, ((s.sxtChan
    c.val).posts = (t, q, gap) :: rest) ∧ (u = s.setSxtChan c.val { s.sxtChan c.val with posts := rest }) :=
  ⟨0, stamp0, 3, true, [], sxt0 { posts := [(stamp0, 3, true)] }, _, (rfl), rfl⟩

theorem witness_frequencyRunEnd : ∃ n : Fin 16, ∃ close t : Nat, ∃ s u : State, ((s.mu n.val).running = true) ∧ (s.fget fSXT_MU_CTL_mode n.val = 3) ∧
    ((s.sxtChan (s.fget fSXT_MU_CTL_start_ch n.val)).closeAfter (s.mu n.val).start = some close) ∧ ((s.mer (s.sxtMer (s.fget fSXT_MU_CTL_start_ch
    n.val))).instantOf (ceilDiv close 256) = some t) ∧ ((∀ p ∈ (s.sxtChan (s.fget fSXT_MU_CTL_start_ch n.val)).taken, close ≤ p.at96)) ∧ (u =
    (s.advance t).muSlewed n.val) :=
  ⟨0, _, _, counting, _, by decide, by decide, (one_of (by decide +kernel)), (one_of (by decide +kernel)), (by decide +kernel), rfl⟩

theorem witness_sxtWinCommit : ∃ c : Fin 52, ∃ s t : State, (s.takesInOrder .SXT_WIN_CMT c.val t) ∧ (t.sxtInLeg c.val = false) :=
  ⟨0, up, _, ⟨rfl, by decide⟩, by decide⟩

theorem witness_sxtChCtlWrite : ∃ c : Fin 52, ∃ v : BitVec 32, ∃ s t u : State, (s.takesInOrder .SXT_CH_CTL c.val t) ∧ (t.sxtInLeg c.val = false) ∧
    (v.toNat < 2 ^ 28) ∧ (u = t.wr .SXT_CH_CTL c.val 0 (BitVec.ofNat 64 v.toNat)) :=
  ⟨0, 0, up, _, _, ⟨rfl, by decide⟩, by decide, by decide, rfl⟩

theorem witness_sxtMuCtlWrite_error : ∃ n : Fin 16, ∃ v : BitVec 32, ∃ s t u : State, (s.takesInOrder .SXT_MU_CTL n.val t) ∧ (v.toNat < 2 ^ 19) ∧
    ((t.mu n.val).running = false) ∧ (bitAt v.toNat 17 = true) ∧ (u = t.wr .SXT_MU_CTL n.val 0 (BitVec.ofNat 64 v.toNat)) ∧ (u.muCfgErr n.val = true)
    :=
  ⟨0, 131072 + 60 * 4, up, _, _, ⟨rfl, by decide⟩, by decide, by decide, by decide, rfl, by decide⟩

theorem witness_sxtMuCtlWrite : ∃ n : Fin 16, ∃ v : BitVec 32, ∃ s t u : State, (s.takesInOrder .SXT_MU_CTL n.val t) ∧ (v.toNat < 2 ^ 19) ∧ ((t.mu
    n.val).running = false) ∧ (bitAt v.toNat 17 = true) ∧ (u = t.wr .SXT_MU_CTL n.val 0 (BitVec.ofNat 64 v.toNat)) ∧ (u.muCfgErr n.val = false) ∧
    (u.fget fSXT_MU_CTL_mode n.val ≠ 0) :=
  ⟨0, 131073, up, _, _, ⟨rfl, by decide⟩, by decide, by decide, by decide, rfl, by decide, by decide⟩

theorem witness_sxtMuCtlWrite_between : ∃ n : Fin 16, ∃ v : BitVec 32, ∃ s t u : State, (s.takesInOrder .SXT_MU_CTL n.val t) ∧ (v.toNat < 2 ^ 19) ∧
    ((t.mu n.val).running = true) ∧ (bitAt v.toNat 17 = false) ∧ ((t.mu n.val).between = true) :=
  ⟨0, 0, up.setMu 0 { running := true, between := true }, _, up, ⟨rfl, by decide⟩, by decide, by decide, by decide, by decide⟩

theorem witness_sxtMuCtlWrite_ends : ∃ n : Fin 16, ∃ v : BitVec 32, ∃ s t u : State, (s.takesInOrder .SXT_MU_CTL n.val t) ∧ (v.toNat < 2 ^ 19) ∧
    ((t.mu n.val).running = true) ∧ (bitAt v.toNat 17 = false) ∧ ((t.mu n.val).between = false) ∧ ((((∀ c < 52, t.muUses n.val c = true → (t.sxtChan
    c).losses.any (·.2) = false) → u = t) ∧ (∀ c < 52, t.muUses n.val c = true → (t.sxtChan c).losses.any (·.2) = true → u = t.muDiscard n.val
    true))) :=
  ⟨0, 0, counting, _, counting, ⟨rfl, by decide⟩, by decide, by decide, by decide, by decide, ⟨fun _ => rfl, by decide +kernel⟩⟩

theorem witness_selfCheckStart : ∃ s t : State, ∃ skip : List Nat, (s.takesInOrder .SXT_SC_START 0 t) ∧ (t.fbit fSXT_STATUS_sc_busy = false) ∧ (skip
    = (maskBits 52 (t.fget fSXT_SC_MASK_mask)).filter (fun c => (t.sxtChan c).armed (t.sxtNow c) || !t.powered (30 + sxtHalf c) || t.acceptedJobs.any
    (fun e => bitAt e.2.sxtChans c))) :=
  ⟨up, _, _, ⟨rfl, by decide⟩, by decide, rfl⟩

theorem witness_selfCheckDone : ∃ failing : BitVec 52, ∃ s : State, ∃ mine : List Nat, ∃ bad : Nat, (s.fbit fSXT_STATUS_sc_busy = true) ∧ (mine =
    (List.range 52).filter (fun c => (s.sxtChan c).checking)) ∧ (bad = ((mine.filter (fun c => bitAt failing.toNat c)).map (fun c => 2 ^ c)).sum) :=
  ⟨1, up.fput fSXT_STATUS_sc_busy 0 1, _, _, by decide, rfl, rfl⟩

def pkMeasure : Packet := pk (1 + 3200 * 2 ^ 64 + 100 * 2 ^ 128)
/-- The state in which its window's milestone is committed. -/
def measured : State := (up.begun pkMeasure).msAdd ⟨0, 0, 7, 0, false, false, 0, 3200 * fracOne, 0, 3300, 0xFFFF⟩
theorem pkMeasure_window : (up.begun pkMeasure).measWindow pkMeasure (u8 pkMeasure 1) = (measured, .ok (1, false)) :=
  commits (by decide) (by decide) (by decide)

theorem witness_sextantMeasure : ∃ s u v : State, ∃ k : Packet, ∃ n : Nat, ∃ id : Nat × Bool, (s.accepts 0x5001 k) ∧ (u = s.begun k) ∧ (measGood k =
    true) ∧ ((u.mer (u8 k 4)).cfg.kind ≠ .tracked) ∧ (measStop k = u8 k 1) ∧ (u.measHeld (u8 k 1) = false) ∧ ((List.range 16).find? (fun n => !(u.mu
    n).running) = some n) ∧ (u.measWindow k (u8 k 1) = (v, .ok id)) :=
  ⟨up, up.begun pkMeasure, measured, pkMeasure, 0, (1, false), by decide, (rfl), by decide, by decide, by decide, by decide, by decide,
      (pkMeasure_window)⟩

theorem witness_sextantSelfcheck_busy : ∃ s : State, ∃ k : Packet, (s.accepts 0x5002 k) ∧ ((s.begun k).fbit fSXT_STATUS_sc_busy = true) :=
  ⟨up.fput fSXT_STATUS_sc_busy 0 1, pk 0, by decide, by decide⟩

theorem witness_sextantSelfcheck : ∃ s : State, ∃ k : Packet, (s.accepts 0x5002 k) ∧ ((s.begun k).fbit fSXT_STATUS_sc_busy = false) :=
  ⟨up, pk 0, by decide, by decide⟩

theorem witness_msSxtArm : ∃ id c : Nat, ∃ f : Fired, ∃ s u : State, (c = f.ms.target) ∧ (s.msFire id 6 = some (u, f)) :=
  ⟨1, _, _, up.msAdd { aMilestone with action := 6 }, _, rfl, rfl⟩

theorem witness_msSxtWindow : ∃ id c : Nat, ∃ f : Fired, ∃ s u : State, (c = f.ms.target) ∧ (s.msFire id 7 = some (u, f)) :=
  ⟨1, _, _, up.msAdd { aMilestone with action := 7 }, _, rfl, rfl⟩

/-! ### DDS, converters, acquisition and Wayline ports -/

/-- A milestone of an action on unit 0, in a state; DDS engine 0 as given. -/
def fires (action : Nat) (s : State) : State := s.msAdd { aMilestone with action := action }
def dds0 (x : Dds) : State := up.setDds 0 x
/-- What a reading of units brought, with no fault. -/
theorem reads_of {α β : Type} {p : State × α × Option β} (h : p.2.2.isNone = true) : p = (p.1, p.2.1, none) := by
  obtain ⟨v, a, b⟩ := p
  cases b <;> simp_all
/-- MER0 has come far, so that every instant asked for has passed. -/
def far (s : State) : State := s.setMer 0 { st := .running, anchorR := 2 ^ 80, rate := 2 ^ 36 }
/-- DDS engine 0 holds one good entry. -/
def ddsReady : State := ((dds0 { list := [(0, 216 * 2 ^ 48 + 2 ^ 60)] }).fput fDDS_ENG_LEN_count 0 1).fput fDDS_ENG_MID_mid 0 2000
def ddsTwo : State := far ((dds0 { st := .running, list := [(0, 2 ^ 96)] }).fput fDDS_ENG_LEN_count 0 2)

theorem witness_msDdsHop : ∃ id e : Nat, ∃ f : Fired, ∃ s u : State, (e = f.ms.target) ∧ (s.msFire id 2 = some (u, f)) :=
  ⟨1, _, _, fires 2 up, _, rfl, rfl⟩

theorem witness_msDdsAdvance : ∃ id e : Nat, ∃ f : Fired, ∃ s u : State, (e = f.ms.target) ∧ (s.msFire id 3 = some (u, f)) :=
  ⟨1, _, _, fires 3 up, _, rfl, rfl⟩

theorem witness_msDdsStart_idle : ∃ id e : Nat, ∃ f : Fired, ∃ s u : State, (e = f.ms.target) ∧ (s.msFire id 4 = some (u, f)) ∧ ((u.ddsEng e).st ≠
    .armed) :=
  ⟨1, _, _, fires 4 up, _, rfl, rfl, by decide⟩

theorem witness_msDdsStart_mer_off : ∃ id e : Nat, ∃ f : Fired, ∃ s u : State, (e = f.ms.target) ∧ (s.msFire id 4 = some (u, f)) ∧ ((u.ddsEng e).st =
    .armed) ∧ ((u.mer (u.ddsMer e)).st ≠ .running) :=
  ⟨1, _, _, fires 4 ((dds0 { st := .armed }).fput fDDS_ENG_CTL_meridian 0 1), _, rfl, rfl, by decide, by decide⟩

theorem witness_msDdsStart : ∃ id e : Nat, ∃ f : Fired, ∃ s u : State, (e = f.ms.target) ∧ (s.msFire id 4 = some (u, f)) ∧ ∃ r q v w, ((u.ddsEng
    e).st = .armed) ∧ ((u.mer (u.ddsMer e)).st = .running) ∧ (r = u.readingAt (u.ddsMer e) f) ∧ (q = u.fget fDDS_ENG_CTL_first e) ∧ (v = u.setDds e
    { u.ddsEng e with st := .running, entry := q, since := r, before := q, byRoute := false, r0 := r, stopAt := none }) ∧ (w = v.ddsCrowd e r false
    (ddsHighAt r r (v.ddsEntry e q)) (some (v.ddsEntry e q))) :=
  ⟨1, _, _, fires 4 (dds0 { st := .armed }), _, rfl, rfl, _, _, _, _, by decide, by decide, rfl, rfl, rfl, rfl⟩

theorem witness_msDdsStop : ∃ id e : Nat, ∃ f : Fired, ∃ s u : State, (e = f.ms.target) ∧ (s.msFire id 5 = some (u, f)) :=
  ⟨1, _, _, fires 5 up, _, rfl, rfl⟩

theorem witness_dwellEnd : ∃ e : Fin 8, ∃ p t h : Nat, ∃ s : State, ((s.ddsEng e.val).st = .running) ∧ (entOnMs (s.ddsEntry e.val (s.ddsEng
    e.val).entry) = false) ∧ (s.ddsNext e.val (s.ddsEng e.val).entry = some p) ∧ (h = (s.ddsEng e.val).since + entDwell (s.ddsEntry e.val (s.ddsEng
    e.val).entry) * fracOne) ∧ ((s.mer (s.ddsMer e.val)).instantOf h = some t) :=
  ⟨0, 1, 0, _, ddsTwo, by decide, by decide, by decide, rfl, by decide⟩

theorem witness_ddsListWrite_dropped : ∃ p : BitVec 12, ∃ v : BitVec 64, ∃ e : Nat, ∃ s t : State, (t = s.deliverAll) ∧ (t.takesWrite 0xD90000 =
    true) ∧ (e = t.fget fDDS_CTL_aper_eng) ∧ (t.ddsInLeg e = false) ∧ ((t.ddsEng e).st ≠ .idle) :=
  ⟨0, 0, 0, dds0 { st := .running }, _, rfl, by decide, by decide, by decide, by decide⟩

theorem witness_ddsListWrite_low : ∃ p : BitVec 12, ∃ v : BitVec 64, ∃ e : Nat, ∃ s t : State, (t = s.deliverAll) ∧ (t.takesWrite 0xD90000 = true) ∧
    (e = t.fget fDDS_CTL_aper_eng) ∧ (t.ddsInLeg e = false) ∧ ((t.ddsEng e).st = .idle) :=
  ⟨0, 0, 0, up, _, rfl, by decide, by decide, by decide, by decide⟩

theorem witness_ddsListWrite_high : ∃ p : BitVec 12, ∃ v : BitVec 64, ∃ e : Nat, ∃ s t : State, (t = s.deliverAll) ∧ (t.takesWrite 0xD90000 = true) ∧
    (e = t.fget fDDS_CTL_aper_eng) ∧ (t.ddsInLeg e = false) ∧ ∃ w, ((t.ddsEng e).st = .idle) ∧ (t.dds.stage = some (e, p.toNat, w)) :=
  ⟨0, 0, 0, { up with dds := { up.dds with stage := some (0, 0, 5) } }, _, rfl, by decide, by decide, by decide, 5, by decide, by decide⟩

theorem witness_ddsLoad_busy : ∃ s u v w : State, ∃ k : Packet, ∃ bs : List Byte, (s.accepts 0x7001 k) ∧ (u = s.begun k) ∧ (u8 k 0 < 8) ∧ (u16 k 2 +
    u16 k 4 ≤ 4096) ∧ (u16 k 16 < 4096) ∧ (u8 k 18 < 2) ∧ (u16 k 20 < 4096) ∧ ((u.ddsEng (u8 k 0)).st ≠ .idle) :=
  ⟨dds0 { st := .running }, _, up, up, pk 0, [], by decide, rfl, by decide, by decide, by decide, by decide, by decide, by decide⟩

theorem witness_ddsLoad : ∃ s u v w : State, ∃ k : Packet, ∃ bs : List Byte, (s.accepts 0x7001 k) ∧ (u = s.begun k) ∧ (u8 k 0 < 8) ∧ (u16 k 2 + u16 k
    4 ≤ 4096) ∧ (u16 k 16 < 4096) ∧ (u8 k 18 < 2) ∧ (u16 k 20 < 4096) ∧ ((u.ddsEng (u8 k 0)).st = .idle) ∧ (u.ddsInLeg (u8 k 0) = false) ∧ (u.isDown
    29 = false) ∧ (u.payload (u8 k 1) (u64 k 8) (16 * u16 k 4) = (v, .bytes bs)) ∧ (w = (v.ddsStore (u8 k 0) (u16 k 2) (entriesOf (u16 k 4) bs))) :=
  ⟨mapped, _, _, _, pk (5 * 2 ^ 8 + 2 ^ 32), _, by decide, rfl, by decide, by decide, by decide, by decide, by decide, by decide, by decide,
      by decide, (payload_of (by decide +kernel)), rfl⟩

theorem witness_ddsStart : ∃ s u v : State, ∃ k : Packet, ∃ id : Nat, ∃ late : Bool, (s.accepts 0x7002 k) ∧ (u = s.begun k) ∧ (u8 k 0 < 8) ∧ (u8 k 1
    < 8) ∧ (u16 k 2 < 4096) ∧ (u32 k 16 < 2 ^ 24) ∧ (u.ddsStartCheck (u8 k 0) (u8 k 1) (u16 k 2) = .ok) ∧ (u.msCommit (u8 k 1) 4 (u8 k 0) 0 0 (u64 k
    8 * fracOne + u32 k 16) 0 0 0 (jobOf k) = (v, .ok (id, late))) :=
  ⟨ddsReady, _, _, pk (3200 * 2 ^ 64), _, _, by decide, rfl, by decide, by decide, by decide, by decide, by decide, (commits (by decide) (by decide)
      (by decide))⟩

theorem witness_ddsStop : ∃ s u v : State, ∃ k : Packet, ∃ id : Nat, ∃ late : Bool, (s.accepts 0x7003 k) ∧ (u = s.begun k) ∧ (u8 k 0 < 8) ∧ (u32 k 16
    < 2 ^ 24) ∧ (u.msCommit (u.ddsMer (u8 k 0)) 5 (u8 k 0) 0 0 (u64 k 8 * fracOne + u32 k 16) 0 0 0 (jobOf k) = (v, .ok (id, late))) :=
  ⟨up, _, _, pk (3200 * 2 ^ 64), _, _, by decide, rfl, by decide, by decide, (commits (by decide) (by decide) (by decide))⟩

theorem witness_ddsPin : ∃ s u : State, ∃ k : Packet, (s.accepts 0x7004 k) ∧ (u = s.begun k) ∧ (u64 k 0 < 2 ^ 48) ∧ (u8 k 8 < 8) ∧ ((∀ n ∈ pinsOf
    (u64 k 0), u.pinInLeg n = false)) :=
  ⟨up, _, pk 1, by decide, rfl, by decide, by decide, by decide⟩

theorem witness_ddsPin_in_leg : ∃ s u : State, ∃ k : Packet, (s.accepts 0x7004 k) ∧ (u = s.begun k) ∧ (u64 k 0 < 2 ^ 48) ∧ (u8 k 8 < 8) ∧ ∃ n, (n ∈
    pinsOf (u64 k 0)) ∧ (u.pinInLeg n = true) :=
  ⟨leg1, _, pk 1, by decide, rfl, by decide, by decide, 0, by decide, by decide⟩

/-- SAR 0 as given, in a state. -/
def sar0 (x : Sar) (s : State := up) : State := s.setSar 0 x
/-- SAR 0's sequence runs on the common trigger. -/
def runs : State := sar0 { seqRunning := true } ((up.fput fADC_TRIG_CFG_sar_en 0 1).fput fADC_SAR_CTL_len 0 1)
/-- A trigger is held; results of SAR 0 wait to be posted; SAR domain 28 is down. -/
def heldTrig : State := { up with adc := { up.adc with held := true } }
def posts0 : State := { up with adc := { up.adc with toPost := [0] } }
def down28 : State := { up with bnc := { up.bnc with down := 2 ^ 28 } }

theorem witness_sdOutput_down : ∃ n : PinNo, ∃ a : Analogue, ∃ o : Option Nat, ∃ s u t : State, ∃ code : Int, (s.isDown (n.val / 4) = true) :=
  ⟨0, ⟨0, 0⟩, none, { up with bnc := { up.bnc with down := 1 } }, up, up, 0, by decide⟩

theorem witness_sdOutput : ∃ n : PinNo, ∃ a : Analogue, ∃ o : Option Nat, ∃ s u t : State, ∃ code : Int, (s.isDown (n.val / 4) = false) ∧ (s.pinCode
    a (s.pmuAt n.val (s.sdTick n.val)) 8388608 = (u, code)) ∧ (t = (((u.advanceTick (u.sdTick n.val)).setSd n.val
    { u.sd n.val with k := (u.sd n.val).k + 1, overload := u.sdOverload n.val o }).wr .ADC_SD_LIVE n.val 0 (BitVec.ofNat 64 (u.sdWord n.val code
    o))).sdFeed n.val (sdCode code) (b2n (u.sdOvr n.val code o) + 2 * b2n (u.sdSuspect n.val o))) ∧ (u.adc.sdT0 ≠ some (u.sd n.val).origin) :=
  ⟨0, ⟨0, 0⟩, none, up, _, _, _, by decide, (couple), rfl, by decide⟩

theorem witness_sdOutput_result : ∃ n : PinNo, ∃ a : Analogue, ∃ o : Option Nat, ∃ s u t : State, ∃ code : Int, (s.isDown (n.val / 4) = false) ∧
    (s.pinCode a (s.pmuAt n.val (s.sdTick n.val)) 8388608 = (u, code)) ∧ (t = (((u.advanceTick (u.sdTick n.val)).setSd n.val
    { u.sd n.val with k := (u.sd n.val).k + 1, overload := u.sdOverload n.val o }).wr .ADC_SD_LIVE n.val 0 (BitVec.ofNat 64 (u.sdWord n.val code
    o))).sdFeed n.val (sdCode code) (b2n (u.sdOvr n.val code o) + 2 * b2n (u.sdSuspect n.val o))) ∧ (u.adc.sdT0 = some (u.sd n.val).origin) ∧ ((u.sd
    n.val).k + 1 = 4) :=
  ⟨0, ⟨0, 0⟩, none, { up with adc := { up.adc with sdT0 := some 0, sd := [(0, { k := 3 })] } }, _, _, _, by decide, (couple), rfl,
      (by decide +kernel), (by decide +kernel)⟩

theorem witness_pinCode_current : ∃ s u : State, ∃ n r : Nat, ∃ a : Analogue, ∃ tick : Nat, ∃ code : Int, (s.pmuAt n tick = (1, r)) :=
  ⟨up.fput fPIN_PMU_CTL_mode 0 1, up, 0, 0, ⟨0, 0⟩, 0, 0, by decide⟩

theorem witness_pinCode_voltage : ∃ s u : State, ∃ n r : Nat, ∃ a : Analogue, ∃ tick : Nat, ∃ code : Int, ((s.pmuAt n tick).1 ≠ 1) :=
  ⟨up, up, 0, 0, ⟨0, 0⟩, 0, 0, by decide⟩

theorem witness_sarRaw_rail : ∃ s u : State, ∃ n r : Nat, ∃ a : Analogue, ∃ tick : Nat, ∃ code : Int, ((s.sar n).mux < 4) :=
  ⟨sar0 { mux := 3 }, up, 0, 0, ⟨0, 0⟩, 0, 0, by decide⟩

theorem witness_sarRaw_reference : ∃ s u : State, ∃ n r : Nat, ∃ a : Analogue, ∃ tick : Nat, ∃ code : Int, ((s.sar n).mux = 5) ∧ (s.sarRaw n a tick =
    (u, code)) :=
  ⟨sar0 { mux := 5 }, _, 0, 0, ⟨0, 0⟩, 0, _, by decide, (couple)⟩

theorem witness_sarRaw_ground : ∃ s u : State, ∃ n r : Nat, ∃ a : Analogue, ∃ tick : Nat, ∃ code : Int, (((s.sar n).mux = 6 ∨ (s.sar n).mux = 7)) ∧
    (s.sarRaw n a tick = (u, code)) :=
  ⟨sar0 { mux := 7 }, _, 0, 0, ⟨0, 0⟩, 0, _, by decide, (couple)⟩

theorem witness_sarConversionDone_entry : ∃ r : Fin 4, ∃ a : Analogue, ∃ job : SarJob, ∃ raw : Int, ∃ t0 : Nat, ∃ s c u : State, ((s.sar r.val).conv
    = some (job, t0)) ∧ (s.sarRaw r.val a t0 = (c, raw)) ∧ (u = (c.advanceTick (t0 + 24)).setSar r.val { c.sar r.val with suspect := sarOvr raw }) ∧
    (sarOvr raw = false) ∧ ∃ k word : Nat, ∃ v : State, (job = .entry k) ∧ (word = sarWord raw (c.sar r.val).suspect (c.sar r.val).shifted) ∧ (v =
    u.wr .ADC_SAR_RES r.val k (BitVec.ofNat 64 word)) ∧ ((c.sar r.val).left ≠ []) :=
  ⟨0, ⟨0, 0⟩, .entry 0, 0, 0, sar0 { conv := some (.entry 0, 0), left := [1] }, _, _, by decide, (pair_of (by decide +kernel)), (rfl), by decide, 0,
      _, _, by decide, rfl, rfl, by decide⟩

theorem witness_sarConversionDone_last : ∃ r : Fin 4, ∃ a : Analogue, ∃ job : SarJob, ∃ raw : Int, ∃ t0 : Nat, ∃ s c u : State, ((s.sar r.val).conv =
    some (job, t0)) ∧ (s.sarRaw r.val a t0 = (c, raw)) ∧ (u = (c.advanceTick (t0 + 24)).setSar r.val { c.sar r.val with suspect := sarOvr raw }) ∧
    (sarOvr raw = false) ∧ ∃ k word : Nat, ∃ v : State, (job = .entry k) ∧ (word = sarWord raw (c.sar r.val).suspect (c.sar r.val).shifted) ∧ (v =
    u.wr .ADC_SAR_RES r.val k (BitVec.ofNat 64 word)) ∧ ((c.sar r.val).left = []) :=
  ⟨0, ⟨0, 0⟩, .entry 0, 0, 0, sar0 { conv := some (.entry 0, 0) }, _, _, by decide, (pair_of (by decide +kernel)), (rfl), by decide, 0, _, _,
      by decide, rfl, rfl, by decide⟩

theorem witness_sarConversionDone_inject : ∃ r : Fin 4, ∃ a : Analogue, ∃ job : SarJob, ∃ raw : Int, ∃ t0 : Nat, ∃ s c u : State, ((s.sar r.val).conv
    = some (job, t0)) ∧ (s.sarRaw r.val a t0 = (c, raw)) ∧ (u = (c.advanceTick (t0 + 24)).setSar r.val { c.sar r.val with suspect := sarOvr raw }) ∧
    (sarOvr raw = false) ∧ ∃ i, (job = .inject i false) :=
  ⟨0, ⟨0, 0⟩, .inject 0 false, 0, 0, sar0 { conv := some (.inject 0 false, 0) }, _, _, by decide, (pair_of (by decide +kernel)), (rfl), by decide, 0,
      by decide⟩

theorem witness_sarConversionDone_stream_early : ∃ r : Fin 4, ∃ a : Analogue, ∃ job : SarJob, ∃ raw : Int, ∃ t0 : Nat, ∃ s c u : State, ((s.sar
    r.val).conv = some (job, t0)) ∧ (s.sarRaw r.val a t0 = (c, raw)) ∧ (u = (c.advanceTick (t0 + 24)).setSar r.val
    { c.sar r.val with suspect := sarOvr raw }) ∧ (sarOvr raw = false) ∧ ∃ n : Nat, ∃ v : State, (job = .stream n) ∧ (v = u.setSar r.val
    { u.sar r.val with conv := some (.stream n, t0 + 24) }) ∧ ((v.aq n).grid.any (fun g => decide (t0 < g.tick0) && g.j == 0) = true) :=
  ⟨0, ⟨0, 0⟩, .stream 0, 0, 0, (sar0 { conv := some (.stream 0, 0) }).setAq 0 { grid := [⟨0, 24, 24⟩] }, _, _, by decide, (pair_of
      (by decide +kernel)), (rfl), by decide, 0, _, by decide, rfl, by decide⟩

theorem witness_sarConversionDone_stream : ∃ r : Fin 4, ∃ a : Analogue, ∃ job : SarJob, ∃ raw : Int, ∃ t0 : Nat, ∃ s c u : State, ((s.sar r.val).conv
    = some (job, t0)) ∧ (s.sarRaw r.val a t0 = (c, raw)) ∧ (u = (c.advanceTick (t0 + 24)).setSar r.val { c.sar r.val with suspect := sarOvr raw }) ∧
    (sarOvr raw = false) ∧ ∃ n : Nat, ∃ v : State, (job = .stream n) ∧ (v = u.setSar r.val { u.sar r.val with conv := some (.stream n, t0 + 24) }) ∧
    ((v.aq n).grid.any (fun g => decide (t0 < g.tick0) && g.j == 0) = false) :=
  ⟨0, ⟨0, 0⟩, .stream 0, 0, 0, sar0 { conv := some (.stream 0, 0) }, _, _, by decide, (pair_of (by decide +kernel)), (rfl), by decide, 0, _,
      by decide, rfl, by decide⟩

theorem witness_converterResultPost_off : ∃ s u : State, (u = { s with adc := { s.adc with toPost := [] } }) ∧ (s.fbit fADC_QUEUE_post_en = false) :=
  ⟨posts0, _, rfl, by decide⟩

theorem witness_converterResultPost : ∃ s u : State, (u = { s with adc := { s.adc with toPost := [] } }) ∧ (s.fbit fADC_QUEUE_post_en = true) :=
  ⟨posts0.fput fADC_QUEUE_post_en 0 1, _, rfl, by decide⟩

theorem witness_seqDone_waits : ∃ s t : State, ∃ tick : Nat, (t = { s with adc := { s.adc with lastDone := max s.adc.lastDone tick } }) ∧ ((∃ k ∈
    s.adc.due, t.seqRuns k = true)) :=
  ⟨{ runs with adc := { runs.adc with due := [0] } }, _, 5, rfl, ⟨0, by decide, by decide⟩⟩

theorem witness_seqDone : ∃ s t : State, ∃ tick : Nat, (t = { s with adc := { s.adc with lastDone := max s.adc.lastDone tick } }) ∧ (s.adc.due ≠ [])
    ∧ ((∀ k ∈ s.adc.due, t.seqRuns k = false)) :=
  ⟨{ up with adc := { up.adc with due := [1] } }, _, 5, rfl, by decide, by decide⟩

theorem witness_adcTrigGo : ∃ s t : State, (s.takesInOrder .ADC_TRIG 0 t) ∧ (t.fget fADC_TRIG_CFG_src = 0) ∧ (t.anyRuns = false) ∧ (t.adc.held =
    false) :=
  ⟨up, _, ⟨rfl, by decide⟩, by decide, by decide, by decide⟩

theorem witness_adcTrigGo_held : ∃ s t : State, (s.takesInOrder .ADC_TRIG 0 t) ∧ (t.fget fADC_TRIG_CFG_src = 0) ∧ (t.anyRuns = false) ∧ (t.adc.held =
    true) :=
  ⟨heldTrig, _, ⟨rfl, by decide⟩, by decide, by decide, by decide⟩

theorem witness_adcTrigGo_running : ∃ s t : State, (s.takesInOrder .ADC_TRIG 0 t) ∧ (t.fget fADC_TRIG_CFG_src = 0) ∧ (t.anyRuns = true) ∧ (t.fbit
    fADC_TRIG_CFG_single_pending = true) ∧ (t.adc.held = false) :=
  ⟨runs.fput fADC_TRIG_CFG_single_pending 0 1, _, ⟨rfl, by decide⟩, by decide, by decide, by decide, by decide⟩

theorem witness_adcTrigGo_overrun : ∃ s t : State, (s.takesInOrder .ADC_TRIG 0 t) ∧ (t.fget fADC_TRIG_CFG_src = 0) ∧ (t.anyRuns = true) ∧ (t.fbit
    fADC_TRIG_CFG_single_pending = false) :=
  ⟨runs, _, ⟨rfl, by decide⟩, by decide, by decide, by decide⟩

theorem witness_msConverterTrigger : ∃ id : Nat, ∃ f : Fired, ∃ s u : State, (s.msFire id 9 = some (u, f)) ∧ (u.fget fADC_TRIG_CFG_src = 1) :=
  ⟨1, _, fires 9 (up.fput fADC_TRIG_CFG_src 0 1), _, rfl, by decide⟩

theorem witness_msConverterTrigger_other_source : ∃ id : Nat, ∃ f : Fired, ∃ s u : State, (s.msFire id 9 = some (u, f)) ∧ (u.fget fADC_TRIG_CFG_src ≠
    1) :=
  ⟨1, _, fires 9 up, _, rfl, by decide⟩

theorem witness_msyncInEdge : ∃ rising : Bool, ∃ t : Nat, ∃ s u v : State, (u = s.advance t) ∧ (v = u.aqSync 3 0 (!rising) (u.odo 0)) ∧ (v.fget
    fADC_TRIG_CFG_src = 2) ∧ (v.fbit fADC_TRIG_CFG_msync_pol = !rising) ∧ ((v.commonTrigger v.tickNow).fget fWLN_GO_CTL_src = 0) :=
  ⟨true, 0, up.fput fADC_TRIG_CFG_src 0 2, _, _, rfl, rfl, by decide, by decide, by decide⟩

theorem witness_heldTrigger : ∃ s : State, (s.adc.held = true) ∧ (s.anyRuns = false) ∧ ((∀ r < 4, (s.sar r).inj = none ∧ ((s.sar r).conv = none ∨
    (s.streamUnit r).isSome = true))) :=
  ⟨heldTrig, by decide, by decide, by decide⟩

theorem witness_sarInjectRequest_down : ∃ r : Fin 4, ∃ i : Fin 8, ∃ s t : State, (s.takesInOrder .ADC_SAR_INJ r.val t) ∧ (t.isDown 28 = true) :=
  ⟨0, 0, down28, _, ⟨rfl, by decide⟩, by decide⟩

theorem witness_sarInjectRequest_streaming : ∃ r : Fin 4, ∃ i : Fin 8, ∃ s t : State, (s.takesInOrder .ADC_SAR_INJ r.val t) ∧ ∃ n, ((t.streamUnit
    r.val) = some n) :=
  ⟨0, 0, sar0 { conv := some (.stream 0, 0) }, _, ⟨rfl, by decide⟩, 0, by decide⟩

theorem witness_sarInjectRequest : ∃ r : Fin 4, ∃ i : Fin 8, ∃ s t : State, (s.takesInOrder .ADC_SAR_INJ r.val t) ∧ (t.isDown 28 = false) ∧ ((t.sar
    r.val).inj = none) ∧ ((t.sar r.val).conv = none) :=
  ⟨0, 0, up, _, ⟨rfl, by decide⟩, by decide, by decide, by decide⟩

theorem witness_adcSdCfgWrite : ∃ n : PinNo, ∃ osr : BitVec 18, ∃ s t : State, (s.takesInOrder .ADC_SD_CFG n.val t) ∧ (t.adc.sdT0.isSome = true) :=
  ⟨0, 96, { up with adc := { up.adc with sdT0 := some 0 } }, _, ⟨rfl, by decide⟩, by decide⟩

theorem witness_adcSequence_sd : ∃ s u : State, ∃ k : Packet, (s.accepts 0x5003 k) ∧ (u = s.begun k) ∧ ((∀ n < 5, u.seqRuns n = false)) ∧ (u8 k 0 =
    1) ∧ (u64 k 8 < 2 ^ 48) ∧ ((pinsOf (u64 k 8)).length ≤ 32) :=
  ⟨up, _, pk (1 + 1 * 2 ^ 64), by decide, rfl, by decide, by decide, by decide, by decide⟩

theorem witness_adcSequence_2 : ∃ s u : State, ∃ k : Packet, (s.accepts 0x5003 k) ∧ (u = s.begun k) ∧ ((∀ n < 5, u.seqRuns n = false)) ∧ (u8 k 0 = 2)
    :=
  ⟨up, _, pk 2, by decide, rfl, by decide, by decide⟩

theorem witness_adcSequence_3 : ∃ s u : State, ∃ k : Packet, (s.accepts 0x5003 k) ∧ (u = s.begun k) ∧ ((∀ n < 5, u.seqRuns n = false)) ∧ (u8 k 0 = 3)
    ∧ (0 < u8 k 1) ∧ (u8 k 1 ≤ 16) ∧ (u8 k 16 < 48) ∧ (u8 k 17 < 48) ∧ (u8 k 18 < 48) ∧ (u8 k 19 < 48) :=
  ⟨up, _, pk (3 + 1 * 2 ^ 8), by decide, rfl, by decide, by decide, by decide, by decide, by decide, by decide, by decide, by decide⟩

theorem witness_adcTrigger : ∃ s : State, ∃ k : Packet, (s.accepts 0x5004 k) ∧ ((s.begun k).fget fADC_TRIG_CFG_src = 0) :=
  ⟨up, pk 0, by decide, by decide⟩

theorem witness_adcTrigger_other_source : ∃ s : State, ∃ k : Packet, (s.accepts 0x5004 k) ∧ ((s.begun k).fget fADC_TRIG_CFG_src ≠ 0) :=
  ⟨up.fput fADC_TRIG_CFG_src 0 1, pk 0, by decide, by decide⟩

theorem witness_adcInject : ∃ s u v : State, ∃ k : Packet, (s.accepts 0x5005 k) ∧ (u = s.begun k) ∧ (u8 k 0 < 4) ∧ (u8 k 1 < 8) ∧ (u.sarInject (u8 k
    0) (u8 k 1) true = (v, true)) :=
  ⟨up, _, _, pk 0, by decide, rfl, by decide, by decide, (rfl)⟩

theorem witness_adcInject_rejected : ∃ s u v : State, ∃ k : Packet, (s.accepts 0x5005 k) ∧ (u = s.begun k) ∧ (u8 k 0 < 4) ∧ (u8 k 1 < 8) ∧
    (u.sarInject (u8 k 0) (u8 k 1) true = (v, false)) :=
  ⟨sar0 { inj := some (0, false) }, _, _, pk 0, by decide, rfl, by decide, by decide, (rfl)⟩

/-- Acquisition unit 0 as given. -/
def acq0 (x : AcqUnit) (s : State := up) : State := s.setAq 0 x
/-- A configuration in memory: space 5, one post-trigger unit. -/
def acqConfig : State := { mapped with hbm := { mapped.hbm with mem := [(1, 5 * 4), (32, 1)] } }
/-- A capture of unit 0 stands in space 5. -/
def captured : State := (mapped.fput fACQ_POST_q 0 1).fput fACQ_CTL_aspace 0 5

theorem witness_acqCtlWrite_armed : ∃ n : Fin 4, ∃ v : BitVec 32, ∃ s t u : State, (s.takesInOrder .ACQ_CTL n.val t) ∧ (v.toNat < 2 ^ 18) ∧ (u = t.wr
    .ACQ_CTL n.val 0 (BitVec.ofNat 64 v.toNat)) ∧ (bitAt v.toNat 0 = true) ∧ ((u.aq n.val).st ≠ .idle) :=
  ⟨0, 1, acq0 { st := .armed }, _, _, ⟨rfl, by decide⟩, by decide, rfl, by decide, by decide⟩

theorem witness_acqCtlWrite_arms : ∃ n : Fin 4, ∃ v : BitVec 32, ∃ s t u : State, (s.takesInOrder .ACQ_CTL n.val t) ∧ (v.toNat < 2 ^ 18) ∧ (u = t.wr
    .ACQ_CTL n.val 0 (BitVec.ofNat 64 v.toNat)) ∧ ∃ w, (bitAt v.toNat 0 = true) ∧ ((u.aq n.val).st = .idle) ∧ (u.aqCfgErr n.val = (w, false)) :=
  ⟨0, 1 + 5 * 2 ^ 10, mapped.fput fACQ_POST_q 0 1, _, _, ⟨rfl, by decide⟩, by decide, rfl, _, by decide, by decide, (rfl)⟩

theorem witness_acqCtlWrite_error : ∃ n : Fin 4, ∃ v : BitVec 32, ∃ s t u : State, (s.takesInOrder .ACQ_CTL n.val t) ∧ (v.toNat < 2 ^ 18) ∧ (u = t.wr
    .ACQ_CTL n.val 0 (BitVec.ofNat 64 v.toNat)) ∧ ∃ w, (bitAt v.toNat 0 = true) ∧ ((u.aq n.val).st = .idle) ∧ (u.aqCfgErr n.val = (w, true)) :=
  ⟨0, 1, up, _, _, ⟨rfl, by decide⟩, by decide, rfl, _, by decide, by decide, (rfl)⟩

theorem witness_acqCtlWrite_disarms : ∃ n : Fin 4, ∃ v : BitVec 32, ∃ s t u : State, (s.takesInOrder .ACQ_CTL n.val t) ∧ (v.toNat < 2 ^ 18) ∧ (u =
    t.wr .ACQ_CTL n.val 0 (BitVec.ofNat 64 v.toNat)) ∧ (bitAt v.toNat 0 = false) ∧ ((u.aq n.val).st = .armed) :=
  ⟨0, 0, acq0 { st := .armed }, _, _, ⟨rfl, by decide⟩, by decide, rfl, by decide, by decide⟩

theorem witness_acqTrigGo_idle : ∃ n : Fin 4, ∃ s t : State, (s.takesInOrder .ACQ_TRIG n.val t) ∧ (t.fget fACQ_CTL_trig_src n.val = 0) ∧ ((t.aq
    n.val).st = .idle) :=
  ⟨0, up, _, ⟨rfl, by decide⟩, by decide, by decide⟩

theorem witness_acqTrigGo_rearming : ∃ n : Fin 4, ∃ s t : State, (s.takesInOrder .ACQ_TRIG n.val t) ∧ (t.fget fACQ_CTL_trig_src n.val = 0) ∧ ((t.aq
    n.val).st = .rearming) :=
  ⟨0, acq0 { st := .rearming }, _, ⟨rfl, by decide⟩, by decide, by decide⟩

theorem witness_acqTrigGo : ∃ n : Fin 4, ∃ s t : State, (s.takesInOrder .ACQ_TRIG n.val t) ∧ (t.fget fACQ_CTL_trig_src n.val = 0) ∧ ∃ u, (t.aqAt
    n.val 0 (t.odo 0) = (u, true)) :=
  ⟨0, acq0 { st := .armed, grid := [⟨0, 0, 240⟩] }, _, ⟨rfl, by decide⟩, by decide, _, (rfl)⟩

theorem witness_acqRecord : ∃ n : Fin 4, ∃ s : State, ((s.aq n.val).recordDue = true) ∧ (s.portQuiet portMS = true) :=
  ⟨0, acq0 { recordDue := true }, by decide, by decide⟩

theorem witness_acqRearm : ∃ n : Fin 4, ∃ s u : State, ((s.aq n.val).st = .rearming) ∧ (s.fbit fACQ_SRC_kind n.val = false) :=
  ⟨0, acq0 { st := .rearming }, up, by decide, by decide⟩

theorem witness_acqRearm_streaming : ∃ n : Fin 4, ∃ s u : State, ((s.aq n.val).st = .rearming) ∧ (s.fbit fACQ_SRC_kind n.val = true) ∧ (s.streamUnit
    (s.fget fACQ_SRC_sar n.val) = some n.val) :=
  ⟨0, (acq0 { st := .rearming } (sar0 { conv := some (.stream 0, 0) })).fput fACQ_SRC_kind 0 1, up, by decide, by decide, by decide⟩

theorem witness_acqRearm_stream_lost : ∃ n : Fin 4, ∃ s u : State, ((s.aq n.val).st = .rearming) ∧ (s.fbit fACQ_SRC_kind n.val = true) ∧
    (s.streamUnit (s.fget fACQ_SRC_sar n.val) ≠ some n.val) ∧ (u = (s.aqRelease n.val).setAq n.val { s.aq n.val with st := .idle }) :=
  ⟨0, (acq0 { st := .rearming }).fput fACQ_SRC_kind 0 1, _, by decide, by decide, by decide, rfl⟩

theorem witness_msAcqTrigger_idle : ∃ id : Nat, ∃ f : Fired, ∃ s u : State, (s.msFire id 8 = some (u, f)) ∧ ((u.aq f.ms.target).st = .idle) :=
  ⟨1, _, fires 8 up, _, rfl, by decide⟩

theorem witness_msAcqTrigger : ∃ id : Nat, ∃ f : Fired, ∃ s u : State, (s.msFire id 8 = some (u, f)) ∧ ((u.aq f.ms.target).st ≠ .idle) ∧ (u.fget
    fACQ_CTL_trig_src f.ms.target = 2) :=
  ⟨1, _, fires 8 ((acq0 { st := .armed }).fput fACQ_CTL_trig_src 0 2), _, rfl, by decide, by decide⟩

theorem witness_acqArm_busy : ∃ s u v w : State, ∃ k : Packet, ∃ bs : List Byte, (s.accepts 0x6001 k) ∧ (u = s.begun k) ∧ (u8 k 0 < 4) ∧ ((u.aq (u8 k
    0)).st ≠ .idle) :=
  ⟨acq0 { st := .armed }, _, up, up, pk 0, [], by decide, rfl, by decide, by decide⟩

theorem witness_acqArm : ∃ s u v w : State, ∃ k : Packet, ∃ bs : List Byte, (s.accepts 0x6001 k) ∧ (u = s.begun k) ∧ (u8 k 0 < 4) ∧ ((u.aq (u8 k
    0)).st = .idle) ∧ (u.payload (u8 k 1) (u64 k 8) 64 = (v, .bytes bs)) ∧ ((v.aqConfigure (u8 k 0) bs).aqArm (u8 k 0) = (w, true)) :=
  ⟨acqConfig, _, _, _, pk (5 * 2 ^ 8), _, by decide, rfl, by decide, by decide, (payload_of (by decide +kernel)), (pair_of (by decide +kernel))⟩

theorem witness_acqArm_error : ∃ s u v w : State, ∃ k : Packet, ∃ bs : List Byte, (s.accepts 0x6001 k) ∧ (u = s.begun k) ∧ (u8 k 0 < 4) ∧ ((u.aq (u8
    k 0)).st = .idle) ∧ (u.payload (u8 k 1) (u64 k 8) 64 = (v, .bytes bs)) ∧ ((v.aqConfigure (u8 k 0) bs).aqArm (u8 k 0) = (w, false)) :=
  ⟨mapped, _, _, _, pk (5 * 2 ^ 8), _, by decide, rfl, by decide, by decide, (payload_of (by decide +kernel)), (pair_of (by decide +kernel))⟩

theorem witness_acqStop_idle : ∃ s u : State, ∃ k : Packet, (s.accepts 0x6002 k) ∧ (u = s.begun k) ∧ (u8 k 0 < 4) ∧ ((u.aq (u8 k 0)).st = .idle) :=
  ⟨up, _, pk 0, by decide, rfl, by decide, by decide⟩

theorem witness_acqStop : ∃ s u : State, ∃ k : Packet, (s.accepts 0x6002 k) ∧ (u = s.begun k) ∧ (u8 k 0 < 4) ∧ ((u.aq (u8 k 0)).st ≠ .idle) :=
  ⟨acq0 { st := .armed }, _, pk 0, by decide, rfl, by decide, by decide⟩

theorem witness_acqStats_overwritten : ∃ s u v w : State, ∃ k : Packet, ∃ bs out : List Byte, ∃ mean : Int, ∃ x : State, (s.accepts 0x6003 k) ∧ (u =
    s.begun k) ∧ (u8 k 0 < 4) ∧ (u16 k 2 < u.aqS (u8 k 0)) ∧ (0 < u32 k 12) ∧ (u32 k 8 + u32 k 12 ≤ u.aqP (u8 k 0) + u.aqQ (u8 k 0)) ∧ ((u.aq (u8 k
    0)).st ≠ .idle) ∧ ((u.aq (u8 k 0)).capture % u.aqS (u8 k 0) = u16 k 2) :=
  ⟨acq0 { st := .armed } (up.fput fACQ_POST_q 0 1), _, up, up, pk (2 ^ 96), [], [], 0, up, by decide, rfl, by decide, by decide, by decide,
      by decide, by decide, by decide⟩

theorem witness_acqStats : ∃ s u v w : State, ∃ k : Packet, ∃ bs out : List Byte, ∃ mean : Int, ∃ x : State, (s.accepts 0x6003 k) ∧ (u = s.begun k) ∧
    (u8 k 0 < 4) ∧ (u16 k 2 < u.aqS (u8 k 0)) ∧ (0 < u32 k 12) ∧ (u32 k 8 + u32 k 12 ≤ u.aqP (u8 k 0) + u.aqQ (u8 k 0)) ∧ ((u.aq (u8 k 0)).st =
    .idle) ∧ (u.aqReadUnits (u8 k 0) (u16 k 2) (nget 0 (u16 k 2) (u.aq (u8 k 0)).segs + u32 k 8) (u32 k 12) = (v, bs, none)) ∧ (v.aqStats (v.fbit
    fACQ_SRC_reduce_en (u8 k 0)) (u32 k 12) (codesOf (bs.length / 4) bs) = (w, mean, out)) ∧ (w.storeResultBy v.reckonerPort (u8 k 24) (u64 k 16) out
    = (x, none)) :=
  ⟨captured, _, _, _, pk (2 ^ 96 + 65536 * 2 ^ 128 + 5 * 2 ^ 192), _, _, _, _, by decide, rfl, by decide, by decide, by decide, by decide, by decide,
      (reads_of (by decide +kernel)), (triple), (pair_of (by decide +kernel))⟩

/-- Port 0 in a state; its unit as given. -/
def port0 (st : Nat) (x : WPort := {}) : State := (up.fput fWLN_P_STAT_state 0 st).setWport 0 x

theorem witness_waylinePort_down : ∃ s u : State, ∃ k : Packet, ∃ p : Nat, (s.accepts 0x9001 k) ∧ (u = s.begun k) ∧ (p = u8 k 0) ∧ (p < 4) ∧ (u8 k 2
    ≤ 1) ∧ (u8 k 1 = 0) :=
  ⟨up, _, pk 0, 0, by decide, rfl, by decide, by decide, by decide, by decide⟩

theorem witness_waylinePort_unpowered : ∃ s u : State, ∃ k : Packet, ∃ p : Nat, (s.accepts 0x9001 k) ∧ (u = s.begun k) ∧ (p = u8 k 0) ∧ (p < 4) ∧ (u8
    k 2 ≤ 1) ∧ ((u8 k 1 = 1 ∨ u8 k 1 = 3)) ∧ (u.powered (16 + p) = false) :=
  ⟨up.fput fPWR_ON_on 0 0, _, pk (2 ^ 8), 0, by decide, rfl, by decide, by decide, by decide, by decide, by decide⟩

theorem witness_waylinePort_convoy : ∃ s u : State, ∃ k : Packet, ∃ p : Nat, (s.accepts 0x9001 k) ∧ (u = s.begun k) ∧ (p = u8 k 0) ∧ (p < 4) ∧ (u8 k
    2 ≤ 1) ∧ (u8 k 1 = 3) ∧ (u.powered (16 + p) = true) ∧ (u.convoyHeld p = true) :=
  ⟨(up.fput fWLN_STATUS_state 0 2).fput fWLN_P_CTL_convoy 0 1, _, pk (3 * 2 ^ 8), 0, by decide, rfl, by decide, by decide, by decide, by decide,
      by decide, by decide⟩

theorem witness_waylinePort_idle : ∃ s u : State, ∃ k : Packet, ∃ p : Nat, (s.accepts 0x9001 k) ∧ (u = s.begun k) ∧ (p = u8 k 0) ∧ (p < 4) ∧ (u8 k 2
    ≤ 1) ∧ (u8 k 1 = 3) ∧ (u.powered (16 + p) = true) ∧ (u.convoyHeld p = false) :=
  ⟨up, _, pk (3 * 2 ^ 8), 0, by decide, rfl, by decide, by decide, by decide, by decide, by decide, by decide⟩

theorem witness_waylinePort_train : ∃ s u : State, ∃ k : Packet, ∃ p : Nat, (s.accepts 0x9001 k) ∧ (u = s.begun k) ∧ (p = u8 k 0) ∧ (p < 4) ∧ (u8 k 2
    ≤ 1) ∧ (u8 k 1 = 1) ∧ (u.powered (16 + p) = true) ∧ (u.wstate p = wDown) :=
  ⟨up, _, pk (2 ^ 8), 0, by decide, rfl, by decide, by decide, by decide, by decide, by decide, by decide⟩

theorem witness_waylinePort_taps : ∃ s u : State, ∃ k : Packet, ∃ p : Nat, (s.accepts 0x9001 k) ∧ (u = s.begun k) ∧ (p = u8 k 0) ∧ (p < 4) ∧ (u8 k 2
    ≤ 1) ∧ ∃ t, (t = [s8 k 4, s8 k 5, s8 k 6, s8 k 7]) ∧ (u8 k 1 = 2) ∧ (tapsOk t = true) ∧ (u.powered (16 + p) = true) ∧ (u.wstate p ≠ wDown) :=
  ⟨(port0 1).fput fHLM_RING_CFG_expert 0 1, _, pk (2 * 2 ^ 8 + 64 * 2 ^ 48), 0, by decide, rfl, by decide, by decide, by decide, _, rfl, by decide,
      by decide, by decide, by decide⟩

theorem witness_blockLock : ∃ p : Fin 4, ∃ lane : Fin 2, ∃ s : State, (s.wstate p.val ≠ wDown) ∧ (s.wstate p.val ≠ wFailed) :=
  ⟨0, 0, port0 1, by decide, by decide⟩

theorem witness_lockLoss : ∃ p : Fin 4, ∃ lane : Fin 2, ∃ s : State, ((s.setLock p.val lane.val false).linkUp p.val = true) :=
  ⟨0, 0, port0 2, by decide⟩

theorem witness_lockLoss_down : ∃ p : Fin 4, ∃ lane : Fin 2, ∃ s : State, ((s.setLock p.val lane.val false).linkUp p.val = false) :=
  ⟨0, 0, port0 1, by decide⟩

theorem witness_trainReq_again : ∃ p : Fin 4, ∃ lane : Fin 2, ∃ v : BitVec 56, ∃ s : State, ∃ w : WPort, (s.inTraining p.val = true) ∧ (w = s.wport
    p.val) ∧ ((if lane.val = 0 then w.req0 else w.req1) = some (bits v.toNat 11 8)) :=
  ⟨0, 0, 0, port0 1 { req0 := some 0 }, _, by decide, rfl, by decide⟩

theorem witness_trainReq : ∃ p : Fin 4, ∃ lane : Fin 2, ∃ v : BitVec 56, ∃ s : State, ∃ w : WPort, (s.inTraining p.val = true) ∧ (w = s.wport p.val)
    ∧ ∃ r, ((if lane.val = 0 then w.req0 else w.req1) ≠ some (bits v.toNat 11 8)) ∧ (r = tapAnswer w.manual (s.taps p.val lane.val) v.toNat) :=
  ⟨0, 0, 0, port0 1, _, by decide, rfl, _, by decide, rfl⟩

theorem witness_trainStat : ∃ p : Fin 4, ∃ lane : Fin 2, ∃ v : BitVec 56, ∃ s : State, ∃ w : WPort, (s.inTraining p.val = true) ∧ (w = s.wport p.val)
    ∧ ∃ u, (bits v.toNat 47 40 ≠ 0x7F) ∧ (u = s.fput fWLN_P_STAT_pre_rx p.val (setBit (s.fget fWLN_P_STAT_pre_rx p.val) lane.val (bitAt v.toNat 22)))
    :=
  ⟨0, 0, 0, port0 1, _, by decide, rfl, _, by decide, rfl⟩

theorem witness_portUp : ∃ p : Fin 4, ∃ s : State, (s.inTraining p.val = true) ∧ (s.fget fWLN_P_STAT_lock p.val = 3) ∧ ((s.wport p.val).ready = 3) ∧
    ((s.wport p.val).echoed = 3) :=
  ⟨0, (port0 1 { ready := 3, echoed := 3 }).fput fWLN_P_STAT_lock 0 3, by decide, by decide, by decide, by decide⟩

theorem witness_trainTimeout : ∃ p : Fin 4, ∃ s : State, (s.inTraining p.val = true) :=
  ⟨0, port0 1, by decide⟩

theorem witness_idleQuietExpiry : ∃ p : Fin 4, ∃ s : State, (s.wstate p.val = wUp) ∧ (s.convoyHeld p.val = false) ∧ ((s.wport p.val).idleOk = true) ∧
    (s.fbit fWLN_P_CTL_idle_auto p.val = true) ∧ ((s.wport p.val).quiet = true) :=
  ⟨0, (port0 2 { idleOk := true }).fput fWLN_P_CTL_idle_auto 0 1, by decide, by decide, by decide, by decide, by decide⟩

theorem witness_idleEnter : ∃ p : Fin 4, ∃ s : State, (s.wstate p.val = wUp) ∧ (s.convoyHeld p.val = false) :=
  ⟨0, port0 2, by decide, by decide⟩

theorem witness_idleExit : ∃ p : Fin 4, ∃ s : State, (s.wstate p.val = wIdle) :=
  ⟨0, port0 3, by decide⟩

/-! ### Wayline flits and services, convoys, power, start-up and heat -/

/-- A flit for this node, whatever it is in the convoy. -/
def flit0 : Flit := ⟨0, 0, true, false, 0, 256, 256, 8, 0, 2000, [], none⟩

theorem witness_ack : ∃ p : Fin 4, ∃ seq : BitVec 16, ∃ c0 c1 c2 : BitVec 8, ∃ s : State, (s.wstate p.val = wUp) :=
  ⟨0, 0, 0, 0, 0, port0 2, by decide⟩

theorem witness_nak : ∃ p : Fin 4, ∃ seq : BitVec 16, ∃ s : State, ∃ f : Flit, ∃ rest : List Flit, ∃ u : Nat → State, (s.wstate p.val = wUp) ∧
    ((s.wport p.val).replay = f :: rest) ∧ ((∀ n, u n = (s.setWport p.val { s.wport p.val with resends := (s.wport p.val).resends + 1 }).resend p.val
    n)) ∧ ((s.wport p.val).resends < 8) :=
  ⟨0, 0, port0 2 { replay := [flit0] }, flit0, [], _, by decide, by decide, (fun _ => rfl), by decide⟩

theorem witness_nak_retrains : ∃ p : Fin 4, ∃ seq : BitVec 16, ∃ s : State, ∃ f : Flit, ∃ rest : List Flit, ∃ u : Nat → State, (s.wstate p.val = wUp)
    ∧ ((s.wport p.val).replay = f :: rest) ∧ ((∀ n, u n = (s.setWport p.val { s.wport p.val with resends := (s.wport p.val).resends + 1 }).resend
    p.val n)) ∧ (8 ≤ (s.wport p.val).resends) :=
  ⟨0, 0, port0 2 { replay := [flit0], resends := 8 }, flit0, [], _, by decide, by decide, (fun _ => rfl), by decide⟩

theorem witness_ackTimer_unacked : ∃ p : Fin 4, ∃ s : State, (s.wstate p.val = wUp) ∧ ((s.wport p.val).unacked ≠ 0) :=
  ⟨0, port0 2 { unacked := 1 }, by decide, by decide⟩

theorem witness_ackTimer_credit : ∃ p : Fin 4, ∃ s : State, (s.wstate p.val = wUp) ∧ ((s.wport p.val).owed0 ≠ 0) :=
  ⟨0, port0 2 { owed0 := 1 }, by decide, by decide⟩

theorem witness_ackTimer_idle : ∃ p : Fin 4, ∃ s : State, (s.wstate p.val = wUp) ∧ ((s.wport p.val).unacked = 0) ∧ ((s.wport p.val).owed0 = 0) ∧
    ((s.wport p.val).owed1 = 0) ∧ ((s.wport p.val).owed2 = 0) :=
  ⟨0, port0 2, by decide, by decide, by decide, by decide, by decide⟩

theorem witness_flitCrcError : ∃ p : Fin 4, ∃ s : State, (s.wstate p.val = wUp) :=
  ⟨0, port0 2, by decide⟩

theorem witness_badControlBlock : ∃ p : Fin 4, ∃ s : State, (s.wstate p.val ≠ wDown) ∧ (s.wstate p.val ≠ wFailed) :=
  ⟨0, port0 2, by decide, by decide⟩

theorem witness_fecCodeword : ∃ p : Fin 4, ∃ s : State, (s.fbit fWLN_P_STAT_fec p.val = true) :=
  ⟨0, (port0 2).fput fWLN_P_STAT_fec 0 1, by decide⟩

/-- The device is in a mustered convoy, in a state. -/
def mustered (s : State) : State := s.fput fWLN_STATUS_state 0 2

theorem witness_halt : ∃ p : Fin 4, ∃ seq origin : BitVec 8, ∃ s u : State, ∃ h : Nat, (s.linkUp p.val = true) ∧ (h = haltContent seq.toNat
    origin.toNat) ∧ (u = s.seeHalt h) ∧ (s.wln.halts.contains h = false) :=
  ⟨0, 0, 0, port0 2, _, _, by decide, rfl, rfl, by decide⟩

theorem witness_halt_again : ∃ p : Fin 4, ∃ seq origin : BitVec 8, ∃ s u : State, ∃ h : Nat, (s.linkUp p.val = true) ∧ (h = haltContent seq.toNat
    origin.toNat) ∧ (u = s.seeHalt h) ∧ (s.wln.halts.contains h = true) :=
  ⟨0, 0, 0, { port0 2 with wln := { (port0 2).wln with halts := [0] } }, _, _, by decide, rfl, rfl, by decide⟩

theorem witness_wlnHalt : ∃ s t : State, (s.takesInOrder .WLN_HALT 0 t) :=
  ⟨up, _, ⟨rfl, by decide⟩⟩

theorem witness_wlnGo : ∃ s t : State, (s.takesInOrder .WLN_GO 0 t) ∧ (t.mustered = true) :=
  ⟨mustered up, _, ⟨rfl, by decide⟩, by decide⟩

theorem witness_wlnAggWrite : ∃ v : BitVec 16, ∃ s t : State, (s.takesInOrder .WLN_AGG 0 t) :=
  ⟨1, up, _, ⟨rfl, by decide⟩⟩

theorem witness_go_unmustered : ∃ p : Fin 4, ∃ origin : BitVec 8, ∃ e : BitVec 40, ∃ s : State, (s.linkUp p.val = true) ∧ (s.mustered = false) :=
  ⟨0, 0, 0, port0 2, by decide, by decide⟩

theorem witness_go : ∃ p : Fin 4, ∃ origin : BitVec 8, ∃ e : BitVec 40, ∃ s : State, (s.linkUp p.val = true) ∧ (s.mustered = true) :=
  ⟨0, 0, 0, mustered (port0 2), by decide, by decide⟩

theorem witness_agg_down : ∃ p : Fin 4, ∃ v : BitVec 16, ∃ s u : State, (s.mustered = true) ∧ (s.linkUp p.val = true) ∧ (u = s.fput fWLN_AGG_convoy 0
    v.toNat) :=
  ⟨0, 1, mustered (port0 2), _, by decide, by decide, rfl⟩

theorem witness_agg_up : ∃ p : Fin 4, ∃ v : BitVec 16, ∃ s u : State, (s.mustered = true) ∧ (s.linkUp p.val = true) :=
  ⟨0, 1, mustered (port0 2), up, by decide, by decide⟩

theorem witness_msWaylineLaunch : ∃ id : Nat, ∃ f : Fired, ∃ s u : State, (s.msFire id 10 = some (u, f)) ∧ ∃ node bs, (f.ms.target < 4) ∧ (f.ms.arg <
    16) ∧ (u.wstate f.ms.target = wUp) ∧ (u.launchSlot f.ms.target f.ms.arg = some (node, bs)) :=
  ⟨1, _, fires 10 (port0 2 { slots := [(1, some (256, []))] }), _, rfl, 256, [], by decide, by decide, by decide, by decide⟩

theorem witness_msWaylineLaunch_down : ∃ id : Nat, ∃ f : Fired, ∃ s u : State, (s.msFire id 10 = some (u, f)) ∧ (u.wstate f.ms.target ≠ wUp) :=
  ⟨1, _, fires 10 up, _, rfl, by decide⟩

theorem witness_timeExchangeTimer : ∃ p : Fin 4, ∃ a seq : Nat, ∃ s u : State, (u = s.advance (a * 60)) ∧ (u.wstate p.val = wUp) ∧ (seq = ((u.wport
    p.val).timeSeq + 1) % 256) :=
  ⟨0, 0, _, port0 2, _, rfl, by decide, rfl⟩

theorem witness_timeReq : ∃ p : Fin 4, ∃ seq : BitVec 8, ∃ a l : Nat, ∃ s u : State, (u = s.advance (l * 60)) ∧ (u.wstate p.val = wUp) :=
  ⟨0, 0, 0, 0, port0 2, _, rfl, by decide⟩

theorem witness_timeT2 : ∃ p : Fin 4, ∃ seq : BitVec 8, ∃ t2 : BitVec 40, ∃ a : Nat, ∃ x : TimeEx, ∃ s u : State, (u = s.advance (a * 60)) ∧
    ((u.wport p.val).timeEx = some x) ∧ (x.seq = seq.toNat) ∧ (u.wstate p.val = wUp) :=
  ⟨0, 0, 0, 0, ⟨0, 0, none⟩, port0 2 { timeEx := some ⟨0, 0, none⟩ }, _, rfl, by decide, by decide, by decide⟩

theorem witness_timeT3 : ∃ p : Fin 4, ∃ seq : BitVec 8, ∃ t3 : BitVec 40, ∃ x : TimeEx, ∃ t2 t4 : Nat, ∃ r : State × Int × Int, ∃ s : State,
    ((s.wport p.val).timeEx = some x) ∧ (x.seq = seq.toNat) ∧ (x.t2 = some (t2, t4)) ∧ (s.wstate p.val = wUp) ∧ (r = s.solveExchange p.val x.t1 t2
    t3.toNat t4) :=
  ⟨0, 0, 0, ⟨0, 0, some (0, 0)⟩, 0, 0, _, port0 2 { timeEx := some ⟨0, 0, some (0, 0)⟩ }, by decide, by decide, by decide, by decide, rfl⟩

theorem witness_msg : ∃ p : Fin 4, ∃ f g : Flit, ∃ s t : State, (s.receives p.val 1 0 f g t) :=
  ⟨0, flit0, _, port0 2, _, ⟨rfl, rfl, by decide⟩⟩

theorem witness_msgAck : ∃ p : Fin 4, ∃ f g : Flit, ∃ s t : State, (s.receives p.val 2 0 f g t) :=
  ⟨0, flit0, _, port0 2, _, ⟨rfl, rfl, by decide⟩⟩

theorem witness_fwdCmd : ∃ p : Fin 4, ∃ f g : Flit, ∃ s t : State, (s.receives p.val 3 0 f g t) :=
  ⟨0, flit0, _, port0 2, _, ⟨rfl, rfl, by decide⟩⟩

theorem witness_fwdCpl : ∃ p : Fin 4, ∃ f g : Flit, ∃ s t : State, (s.receives p.val 4 0 f g t) :=
  ⟨0, flit0, _, port0 2, _, ⟨rfl, rfl, by decide⟩⟩

theorem witness_bulkWr : ∃ p : Fin 4, ∃ f g : Flit, ∃ s t : State, (s.receives p.val 5 1 f g t) :=
  ⟨0, flit0, _, port0 2, _, ⟨rfl, rfl, by decide⟩⟩

theorem witness_bulkRdReq : ∃ p : Fin 4, ∃ f g : Flit, ∃ s t : State, (s.receives p.val 6 1 f g t) :=
  ⟨0, flit0, _, port0 2, _, ⟨rfl, rfl, by decide⟩⟩

theorem witness_bulkRdData : ∃ p : Fin 4, ∃ f g : Flit, ∃ s t : State, (s.receives p.val 7 1 f g t) :=
  ⟨0, flit0, _, port0 2, _, ⟨rfl, rfl, by decide⟩⟩

theorem witness_bulkAck : ∃ p : Fin 4, ∃ f g : Flit, ∃ s t : State, (s.receives p.val 8 1 f g t) :=
  ⟨0, flit0, _, port0 2, _, ⟨rfl, rfl, by decide⟩⟩

theorem witness_msg_down : ∃ p : Fin 4, ∃ f g : Flit, ∃ s t : State, (s.wstate p.val ≠ wUp) :=
  ⟨0, flit0, flit0, up, up, by decide⟩

theorem witness_takeMsg : ∃ p : Nat, ∃ f : Flit, ∃ t u : State, ∃ q : Nat, ∃ elem : Nat, (q = f.word) ∧ (q < 16384) ∧ (t.qOn q = true) ∧ (bitAt
    (t.fget fDPT_Q_CTL_prod q) 1 = true) ∧ (f.payload.length ≤ t.qElem q) ∧ (elem = ofBytes f.payload) ∧ ((t.dq q).elems.length < t.qCap q) ∧ ((t.dq
    q).held = []) ∧ (u = t.qPush q elem) :=
  ⟨0, flit0, queue5 1 [], _, _, _, rfl, by decide, by decide, by decide, by decide, rfl, by decide, by decide, rfl⟩

/-- A bulk write held on fault slot 1, which stands or has gone. -/
def bulkHeld (slots : Bank Nat (Option FaultSlot)) : State :=
  { up with wln := { up.wln with holds := [⟨0, flit0, 0, 0, [], false, 1, 0⟩] }, chart := { up.chart with slots := slots } }
/-- Port 0 is up on a device whose memory serves. -/
def linked : State := mapped.fput fWLN_P_STAT_state 0 2

theorem witness_bulkFaultTimeout : ∃ id i : Nat, ∃ h : BulkHold, ∃ x : FaultSlot, ∃ s u : State, (s.wln.holds.find? (fun h => h.id == id) = some h) ∧
    (u = s.advance h.until_) ∧ (u.slotOfId id = some (i, x)) :=
  ⟨1, 1, ⟨0, flit0, 0, 0, [], false, 1, 0⟩, ⟨33, 5, 0, 1, 1, false, false, true, 0, 0, 0⟩, bulkHeld [(1, some ⟨33, 5, 0, 1, 1, false, false, true, 0,
      0, 0⟩)], _, by decide, rfl, by decide⟩

theorem witness_bulkFaultTimeout_gone : ∃ id i : Nat, ∃ h : BulkHold, ∃ x : FaultSlot, ∃ s u : State, (s.wln.holds.find? (fun h => h.id == id) = some
    h) ∧ (u = s.advance h.until_) ∧ (u.slotOfId id = none) :=
  ⟨1, 1, ⟨0, flit0, 0, 0, [], false, 1, 0⟩, ⟨33, 5, 0, 1, 1, false, false, true, 0, 0, 0⟩, bulkHeld [], _, by decide, rfl, by decide⟩

theorem witness_waylineSend_refused : ∃ s u v : State, ∃ k : Packet, ∃ bs : List Byte, (s.accepts 0x9002 k) ∧ (u = s.begun k) ∧ (u.payload (u8 k 20)
    (u64 k 8) (u32 k 16) = (v, .bytes bs)) ∧ (u16 k 2 < 2 ^ 14) ∧ (u32 k 16 ≤ 236) ∧ ∃ st, (v.nodePort (u16 k 0) = .error st) :=
  ⟨mapped, _, _, pk (16 * 2 ^ 128 + 5 * 2 ^ 160), _, by decide, rfl, (payload_of (by decide +kernel)), by decide, by decide, .convoyRefused,
      (by decide +kernel)⟩

theorem witness_waylineSend_link_down : ∃ s u v : State, ∃ k : Packet, ∃ bs : List Byte, (s.accepts 0x9002 k) ∧ (u = s.begun k) ∧ (u.payload (u8 k
    20) (u64 k 8) (u32 k 16) = (v, .bytes bs)) ∧ (u16 k 2 < 2 ^ 14) ∧ (u32 k 16 ≤ 236) ∧ ∃ p, (v.nodePort (u16 k 0) = .ok p) ∧ (v.linkUp p = false) :=
  ⟨(mustered mapped).fput fWLN_ROUTE_port 1 0, _, _, pk (1 + 16 * 2 ^ 128 + 5 * 2 ^ 160), _, by decide, rfl, (payload_of (by decide +kernel)),
      by decide, by decide, 0, (by decide +kernel), by decide +kernel⟩

theorem witness_waylineSend : ∃ s u v : State, ∃ k : Packet, ∃ bs : List Byte, (s.accepts 0x9002 k) ∧ (u = s.begun k) ∧ (u.payload (u8 k 20) (u64 k
    8) (u32 k 16) = (v, .bytes bs)) ∧ (u16 k 2 < 2 ^ 14) ∧ (u32 k 16 ≤ 236) ∧ ∃ p m, (v.nodePort (u16 k 0) = .ok p) ∧ (v.linkUp p = true) ∧ (m =
    v.unitOut 1 (u16 k 0) p (u16 k 2) bs) :=
  ⟨linked, _, _, pk (256 + 16 * 2 ^ 128 + 5 * 2 ^ 160), _, by decide, rfl, (payload_of (by decide +kernel)), by decide, by decide, 0, _,
      (by decide +kernel), by decide +kernel, rfl⟩

theorem witness_waylineSend_slot : ∃ s u v : State, ∃ k : Packet, ∃ bs : List Byte, (s.accepts 0x9002 k) ∧ (u = s.begun k) ∧ (u.payload (u8 k 20)
    (u64 k 8) (u32 k 16) = (v, .bytes bs)) ∧ (2 ^ 15 ≤ u16 k 2) ∧ (bits (u16 k 2) 14 6 = 0) ∧ (2 ≤ u32 k 16) ∧ (u32 k 16 ≤ 238) ∧ (256 ≤ u16 k 0) :=
  ⟨linked, _, _, pk (256 + 0x8000 * 2 ^ 16 + 16 * 2 ^ 128 + 5 * 2 ^ 160), _, by decide, rfl, (payload_of (by decide +kernel)), by decide, by decide,
      by decide, by decide, by decide⟩

theorem witness_waylineForward : ∃ s u v : State, ∃ k : Packet, ∃ bs : List Byte, ∃ p : Nat, ∃ m : State × Nat, (s.accepts 0x9003 k) ∧ (u = s.begun
    k) ∧ (u.payload (u8 k 16) (u64 k 8) 64 = (v, .bytes bs)) ∧ (v.nodePort (u16 k 0) = .ok p) ∧ (v.linkUp p = true) ∧ (m = v.unitOut 3 (u16 k 0) p 0
    bs) :=
  ⟨linked, _, _, pk (256 + 5 * 2 ^ 128), _, 0, _, by decide, rfl, (payload_of (by decide +kernel)), by decide +kernel, by decide +kernel, rfl⟩

/-- A muster under way. -/
def mustering : State := { up.fput fWLN_STATUS_state 0 1 with wln := { up.wln with stepped := true } }

theorem witness_muster_alone : ∃ s u v : State, ∃ k : Packet, ∃ bs : List Byte, (s.accepts 0x9004 k) ∧ (u = s.begun k) ∧ (u.mustered = false) ∧
    (u.mustering = false) ∧ (u.helloPorts = []) :=
  ⟨up, _, up, pk 0, [], by decide, rfl, by decide, by decide, by decide⟩

theorem witness_muster : ∃ s u v : State, ∃ k : Packet, ∃ bs : List Byte, (s.accepts 0x9004 k) ∧ (u = s.begun k) ∧ (u.mustered = false) ∧
    (u.mustering = false) ∧ ∃ m, (u.helloPorts ≠ []) ∧ (u.payload (u8 k 16) (u64 k 8) 512 = (v, .bytes bs)) ∧ (m = ofBytes bs) ∧ (mfConvoy m = u32 k
    0) ∧ (mfMembers m = u16 k 4) ∧ (mfMember m ≤ 255) ∧ (mfRoot m ≤ 255) :=
  ⟨linked.fput fWLN_P_CTL_convoy 0 1, _, _, pk (5 * 2 ^ 128), _, by decide, rfl, by decide, by decide, _, by decide, (payload_of
      (by decide +kernel)), rfl, by decide +kernel, by decide +kernel, by decide +kernel, by decide +kernel⟩

theorem witness_muster_again : ∃ s u : State, ∃ k : Packet, (s.accepts 0x9004 k) ∧ (u = s.begun k) ∧ (u.mustered = true) :=
  ⟨mustered up, _, pk 0, by decide, rfl, by decide⟩

theorem witness_convoyLeave : ∃ s u : State, ∃ k : Packet, (s.accepts 0x9005 k) ∧ (u = s.begun k) ∧ ∃ others, (u.mustered = true) ∧ (others =
    (List.range 256).filter (fun n => u.fget fWLN_ROUTE_port n < 4)) :=
  ⟨mustered up, _, pk 0, by decide, rfl, _, by decide, rfl⟩

theorem witness_convoyLeave_mustering : ∃ s u : State, ∃ k : Packet, (s.accepts 0x9005 k) ∧ (u = s.begun k) ∧ (u.mustered = false) ∧ (u.mustering =
    true) :=
  ⟨mustering, _, pk 0, by decide, rfl, by decide, by decide⟩

theorem witness_convoyLeave_none : ∃ s u : State, ∃ k : Packet, (s.accepts 0x9005 k) ∧ (u = s.begun k) ∧ (u.mustered = false) ∧ (u.mustering = false)
    :=
  ⟨up, _, pk 0, by decide, rfl, by decide, by decide⟩

theorem witness_musterFlit : ∃ p : Fin 4, ∃ f g : Flit, ∃ s t : State, (s.receives p.val 9 2 f g t) :=
  ⟨0, flit0, _, port0 2, _, ⟨rfl, rfl, by decide⟩⟩

theorem witness_musterOffsetTimeout : ∃ s : State, (s.mustering = true) ∧ (s.wln.stepped = true) ∧ (s.wln.sentManifest = false) :=
  ⟨mustering, by decide, by decide, by decide⟩

theorem witness_musterRootTimeout : ∃ s : State, (s.mustering = true) ∧ (s.isRoot = true) :=
  ⟨mustering, by decide, by decide⟩

theorem witness_musterVerdictTimeout : ∃ s : State, (s.mustering = true) :=
  ⟨mustering, by decide⟩

/-- Domain 0 is to be powered down. -/
def falling0 : State := up.fput fPWR_SWITCHING_pending 0 1
/-- Domain 0 powers up. -/
def rising0 : State := { up with bnc := { up.bnc with rising := 1 } }

theorem witness_powerDomain_fixed : ∃ s u : State, ∃ k : Packet, ∃ d : Nat, (s.accepts 0xB001 k) ∧ (u = s.begun k) ∧ (d = u8 k 0) ∧ (u8 k 1 ≤ 1) ∧
    (switchable d = false) :=
  ⟨up, _, pk 12, 12, by decide, rfl, by decide, by decide, by decide⟩

theorem witness_powerDomain_on : ∃ s u : State, ∃ k : Packet, ∃ d : Nat, (s.accepts 0xB001 k) ∧ (u = s.begun k) ∧ (d = u8 k 0) ∧ (u8 k 1 ≤ 1) ∧
    (switchable d = true) ∧ (bitAt u.bnc.rising d = false) ∧ (u.goesDown d = false) ∧ (u8 k 1 = 1) ∧ (u.powered d = true) :=
  ⟨up, _, pk 256, 0, by decide, rfl, by decide, by decide, by decide, by decide, by decide, by decide, by decide⟩

theorem witness_powerDomain_up : ∃ s u : State, ∃ k : Packet, ∃ d : Nat, (s.accepts 0xB001 k) ∧ (u = s.begun k) ∧ (d = u8 k 0) ∧ (u8 k 1 ≤ 1) ∧
    (switchable d = true) ∧ (bitAt u.bnc.rising d = false) ∧ (u.goesDown d = false) ∧ (u8 k 1 = 1) ∧ (u.powered d = false) :=
  ⟨up.fput fPWR_ON_on 0 0, _, pk 256, 0, by decide, rfl, by decide, by decide, by decide, by decide, by decide, by decide, by decide⟩

theorem witness_powerDomain_off : ∃ s u : State, ∃ k : Packet, ∃ d : Nat, (s.accepts 0xB001 k) ∧ (u = s.begun k) ∧ (d = u8 k 0) ∧ (u8 k 1 ≤ 1) ∧
    (switchable d = true) ∧ (bitAt u.bnc.rising d = false) ∧ (u.goesDown d = false) ∧ (u8 k 1 = 0) ∧ (u.powered d = false) :=
  ⟨up.fput fPWR_ON_on 0 0, _, pk 0, 0, by decide, rfl, by decide, by decide, by decide, by decide, by decide, by decide, by decide⟩

theorem witness_powerDomain_busy : ∃ s u : State, ∃ k : Packet, ∃ d : Nat, (s.accepts 0xB001 k) ∧ (u = s.begun k) ∧ (d = u8 k 0) ∧ (u8 k 1 ≤ 1) ∧
    (switchable d = true) ∧ (bitAt u.bnc.rising d = false) ∧ (u.goesDown d = false) ∧ (u8 k 1 = 0) ∧ (u.powered d = true) ∧ (u.domainBusy d = true) :=
  ⟨(mustered up).fput fWLN_P_CTL_convoy 0 1, _, pk 16, 16, by decide, rfl, by decide, by decide, by decide, by decide, by decide, by decide,
      by decide, by decide⟩

theorem witness_powerDomain_in_leg : ∃ s u : State, ∃ k : Packet, ∃ d : Nat, (s.accepts 0xB001 k) ∧ (u = s.begun k) ∧ (d = u8 k 0) ∧ (u8 k 1 ≤ 1) ∧
    (switchable d = true) ∧ (bitAt u.bnc.rising d = false) ∧ (u.goesDown d = false) ∧ (u8 k 1 = 0) ∧ (u.powered d = true) ∧ (u.domainBusy d = false)
    ∧ (u.domainInLeg d = true) :=
  ⟨leg1, _, pk 0, 0, by decide, rfl, by decide, by decide, by decide, by decide, by decide, by decide, by decide, by decide, by decide⟩

theorem witness_powerDomain_down : ∃ s u : State, ∃ k : Packet, ∃ d : Nat, (s.accepts 0xB001 k) ∧ (u = s.begun k) ∧ (d = u8 k 0) ∧ (u8 k 1 ≤ 1) ∧
    (switchable d = true) ∧ (bitAt u.bnc.rising d = false) ∧ (u.goesDown d = false) ∧ (u8 k 1 = 0) ∧ (u.powered d = true) ∧ (u.domainBusy d = false)
    ∧ (u.domainInLeg d = false) :=
  ⟨up, _, pk 0, 0, by decide, rfl, by decide, by decide, by decide, by decide, by decide, by decide, by decide, by decide, by decide⟩

theorem witness_pendingPowerDown : ∃ d : Fin 36, ∃ s u : State, (s.goesDown d.val = true) ∧ (s.domainInLeg d.val = false) ∧ (u = (((s.cutPower
    d.val).endWaits (.powerDown d.val) .ok).pwrDone d.val false .ok)) ∧ (bitAt u.bnc.upNext d.val = false) ∧ (bitAt u.bnc.blkReset d.val = false) :=
  ⟨0, falling0, _, by decide, by decide, rfl, by decide, by decide⟩

theorem witness_pendingPowerDown_up_again : ∃ d : Fin 36, ∃ s u : State, (s.goesDown d.val = true) ∧ (s.domainInLeg d.val = false) ∧ (u =
    (((s.cutPower d.val).endWaits (.powerDown d.val) .ok).pwrDone d.val false .ok)) ∧ (bitAt u.bnc.upNext d.val = true) :=
  ⟨0, { falling0 with bnc := { falling0.bnc with upNext := 1 } }, _, by decide, by decide, rfl, by decide⟩

theorem witness_powerUpDone : ∃ d : Fin 36, ∃ s u : State, (bitAt s.bnc.rising d.val = true) ∧ (u = s.advance (nget 0 d.val s.bnc.riseEnd)) ∧ (bitAt
    u.bnc.downNext d.val = false) ∧ (bitAt u.bnc.blkReset d.val = false) :=
  ⟨0, rising0, _, by decide, rfl, by decide, by decide⟩

theorem witness_powerUpDone_reset : ∃ d : Fin 36, ∃ s u : State, (bitAt s.bnc.rising d.val = true) ∧ (u = s.advance (nget 0 d.val s.bnc.riseEnd)) ∧
    (bitAt u.bnc.downNext d.val = false) ∧ (bitAt u.bnc.blkReset d.val = true) :=
  ⟨0, { rising0 with bnc := { rising0.bnc with blkReset := 1 } }, _, by decide, rfl, by decide, by decide⟩

theorem witness_bncBlkReset_fixed : ∃ v : BitVec 32, ∃ d : Nat, ∃ s t : State, (s.takesInOrder .BNC_BLK_RESET 0 t) ∧ (t.bnc.tripped = false) ∧ (bitAt
    v.toNat 6 = true) ∧ (d = bits v.toNat 5 0) ∧ (switchable d = false) :=
  ⟨64 + 12, 12, up, _, ⟨rfl, by decide⟩, by decide, by decide, by decide, by decide⟩

theorem witness_bncBlkReset : ∃ v : BitVec 32, ∃ d : Nat, ∃ s t : State, (s.takesInOrder .BNC_BLK_RESET 0 t) ∧ (t.bnc.tripped = false) ∧ (bitAt
    v.toNat 6 = true) ∧ (d = bits v.toNat 5 0) ∧ ∃ w, (switchable d = true) ∧ (bitAt (t.fget fPWR_SWITCHING_pending) d = false) ∧ (t.powered d =
    true) ∧ (t.domainBusy d = false) ∧ (w = { t with bnc := { t.bnc with blkReset := setBit t.bnc.blkReset d true } }) ∧ (w.powered d = true) ∧
    (w.domainInLeg d = false) :=
  ⟨64, 0, up, _, ⟨rfl, by decide⟩, by decide, by decide, by decide, _, by decide, by decide, by decide, by decide, rfl, by decide, by decide⟩

/-- The boot ROM is at work; the host holds PERST_N. -/
def booting : State := State.reset.fput fBNC_STATUS_stage 0 3
def perst (s : State) : State := { s with host := { s.host with perst := true } }
def tripped (s : State) : State := { s with bnc := { s.bnc with tripped := true } }
theorem trainPci_boot (s : State) : (State.trainPci s).fget fBNC_STATUS_boot_status = s.fget fBNC_STATUS_boot_status := by
  simp only [State.trainPci, State.fget, State.fput, State.wr, State.rd]
  rw [bankGet_set_ne _ _ (by decide), bankGet_set_ne _ _ (by decide)]
  rfl

theorem witness_powerGood : ∃ straps : BitVec 4, ∃ s u : State, (s.fget fBNC_STATUS_stage = 0) ∧ (s.fget fBNC_STATUS_boot_status = 0) ∧ (u =
    s.bootStart straps.toNat) :=
  ⟨0, State.reset, _, by decide, by decide, rfl⟩

theorem witness_bootComplete_failed : ∃ st : BitVec 8, ∃ dir fb : Bool, ∃ failed : BitVec 64, ∃ rej : List (BitVec 8 × BitVec 8 × BitVec 8), ∃ s u v
    : State, (s.fget fBNC_STATUS_stage = 3) ∧ (s.fget fBNC_STATUS_boot_status = 0) ∧ (s.bnc.tripped = false) ∧ (s.bootCan st.toNat dir failed.toNat =
    true) ∧ (u = s.bootNote st.toNat dir fb ((rej.map (fun e => (e.1.toNat, e.2.1.toNat, e.2.2.toNat))).filter (fun r => s.canReject r.1 r.2.1
    r.2.2))) ∧ (st.toNat ≠ 1) :=
  ⟨2, false, false, 0, [], booting, _, up, by decide, by decide, by decide, by decide, rfl, by decide⟩

theorem witness_bootComplete_perst : ∃ st : BitVec 8, ∃ dir fb : Bool, ∃ failed : BitVec 64, ∃ rej : List (BitVec 8 × BitVec 8 × BitVec 8), ∃ s u v :
    State, (s.fget fBNC_STATUS_stage = 3) ∧ (s.fget fBNC_STATUS_boot_status = 0) ∧ (s.bnc.tripped = false) ∧ (s.bootCan st.toNat dir failed.toNat =
    true) ∧ (u = s.bootNote st.toNat dir fb ((rej.map (fun e => (e.1.toNat, e.2.1.toNat, e.2.2.toNat))).filter (fun r => s.canReject r.1 r.2.1
    r.2.2))) ∧ (st.toNat = 1) ∧ (v = (u.bootUp failed.toNat).fput fBNC_STATUS_stage 0 6) ∧ (v.host.perst = true) :=
  ⟨1, false, false, 0, [], perst booting, _, _, by decide, by decide, by decide, by decide, rfl, by decide, rfl, by decide⟩

theorem witness_bootComplete : ∃ st : BitVec 8, ∃ dir fb : Bool, ∃ failed : BitVec 64, ∃ rej : List (BitVec 8 × BitVec 8 × BitVec 8), ∃ s u v :
    State, (s.fget fBNC_STATUS_stage = 3) ∧ (s.fget fBNC_STATUS_boot_status = 0) ∧ (s.bnc.tripped = false) ∧ (s.bootCan st.toNat dir failed.toNat =
    true) ∧ (u = s.bootNote st.toNat dir fb ((rej.map (fun e => (e.1.toNat, e.2.1.toNat, e.2.2.toNat))).filter (fun r => s.canReject r.1 r.2.1
    r.2.2))) ∧ (st.toNat = 1) ∧ (v = (u.bootUp failed.toNat).fput fBNC_STATUS_stage 0 6) ∧ (v.host.perst = false) :=
  ⟨1, false, false, 0, [], booting, _, _, by decide, by decide, by decide, by decide, rfl, by decide, rfl, by decide⟩

theorem witness_bootComplete_unsigned : booting.fbit fBNC_STATUS_sig_required = false ∧ booting.bootCan 3 false 0 = false ∧
    booting.imagesGood false = true ∧ booting.mapLost 0 = false := by decide +kernel
theorem witness_bootComplete_signed : (booting.fput fBNC_STATUS_sig_required 0 1).fbit fBNC_STATUS_sig_required = true := by decide

theorem witness_coldReset : ∃ b : Bool, ∃ s u v w : State, (u = s.logWrite 2 0xFF 0 0) ∧ (v = u.coldState) ∧ (w = v.setMer 0
    { v.mer 0 with anchorT := u.now }) :=
  ⟨true, up, _, _, _, rfl, rfl, rfl⟩

theorem witness_coldState : ∃ s t : State, (t = s.coldState) :=
  ⟨up, _, rfl⟩

theorem witness_warmReset : ∃ s u : State, (s.host.perst = false) ∧ (u = ((List.range 4).foldl State.portDown s).logWrite 5 0xFF
    s.acceptedJobs.length 0) ∧ ∃ v, (v = u.settleWrites) :=
  ⟨up, _, by decide, rfl, _, rfl⟩

theorem witness_warmState : ∃ s t : State, (t = s.warmState) :=
  ⟨up, _, rfl⟩

theorem witness_perstDeassert : ∃ s u : State, (s.host.perst = true) ∧ (u = State.trainPci { s with host := { s.host with perst := false } }) ∧
    (u.fget fBNC_STATUS_boot_status = 1) ∧ (u.bnc.tripped = false) :=
  ⟨perst (up.fput fBNC_STATUS_boot_status 0 1), _, by decide, rfl, ((trainPci_boot _).trans (by decide)), by decide⟩

theorem witness_perstDeassert_tripped : ∃ s u : State, (s.host.perst = true) ∧ (u = State.trainPci { s with host := { s.host with perst := false } })
    ∧ (u.bnc.tripped = true) :=
  ⟨tripped (perst up), _, by decide, rfl, by decide⟩

theorem witness_thermalSample : ∃ temp : Int, ∃ s u v : State, (u = s.advance (s.mer0Instant ((s.mer0 / 400000 + 1) * 400000))) ∧ (v = (u.noteReading
    temp).limitCheck temp) ∧ (v.bnc.tripped = false) ∧ (temp < 1776) :=
  ⟨400, up, _, _, rfl, rfl, by decide, by decide⟩

theorem witness_thermalSample_trips : ∃ temp : Int, ∃ s u v : State, (u = s.advance (s.mer0Instant ((s.mer0 / 400000 + 1) * 400000))) ∧ (v =
    (u.noteReading temp).limitCheck temp) ∧ (v.bnc.tripped = false) ∧ (1776 ≤ temp) :=
  ⟨1776, up, _, _, rfl, rfl, by decide, by decide⟩

theorem witness_thermalSample_tripped : ∃ temp : Int, ∃ s u v : State, (u = s.advance (s.mer0Instant ((s.mer0 / 400000 + 1) * 400000))) ∧ (v =
    (u.noteReading temp).limitCheck temp) ∧ (v.bnc.tripped = true) ∧ (temp < 1776) :=
  ⟨400, tripped up, _, _, rfl, rfl, by decide, by decide⟩

theorem witness_thermalTrip_again : ∃ s : State, (s.bnc.tripped = true) :=
  ⟨tripped up, by decide⟩

theorem witness_thermalTrip_hot : ∃ s : State, ∃ u, (s.bnc.tripped = false) ∧ (u = s.logWrite 3 0xFF 0 (s.fget fTHM_TEMP_rise)) ∧ (u.fget
    fTHM_STAT_state ≠ 0) :=
  ⟨up.fput fTHM_STAT_state 0 1, _, by decide, rfl, by decide⟩

theorem witness_thermalTrip : ∃ s : State, ∃ u, (s.bnc.tripped = false) ∧ (u = s.logWrite 3 0xFF 0 (s.fget fTHM_TEMP_rise)) ∧ (u.fget fTHM_STAT_state
    = 0) :=
  ⟨up, _, by decide, rfl, by decide⟩

theorem witness_tripState : ∃ s t : State, (t = s.tripState) :=
  ⟨up, _, rfl⟩

theorem witness_thermalSet : ∃ s : State, ∃ k : Packet, (s.accepts 0xB002 k) ∧ (thermalOk (u16 k 0) (u16 k 2) (u8 k 4) (u8 k 5) = true) :=
  ⟨up, pk (16 + 17 * 2 ^ 16 + 2 * 2 ^ 32 + 1 * 2 ^ 40), by decide, by decide⟩

theorem witness_thermalSet_bad : ∃ s : State, ∃ k : Packet, (s.accepts 0xB002 k) ∧ (thermalOk (u16 k 0) (u16 k 2) (u8 k 4) (u8 k 5) = false) :=
  ⟨up, pk 0, by decide, by decide⟩

theorem witness_frame : ∃ c : Instr, ∃ ps : List Part, ∃ s t : State, (frameOf c = some ps) ∧ (exec c s = .next t) :=
  ⟨.smbThmTemp, _, up, _, (rfl), (rfl)⟩

theorem witness_step : ∃ c : Instr, ∃ rest : List Instr, ∃ s : State, (s.pending = c :: rest) :=
  ⟨.smbThmTemp, [], { up with pending := [.smbThmTemp] }, by decide⟩

theorem witness_idle : ∃ s : State, (s.pending = []) :=
  ⟨up, by decide⟩

theorem witness_sound_step : ∃ s t : State, (s.sound) ∧ (step s = .next t) :=
  ⟨{ up with pending := [.smbThmTemp] }, _, by decide, (rfl)⟩

theorem witness_time : ∃ c : Instr, ∃ s t : State, (exec c s = .next t) :=
  ⟨.smbThmTemp, up, _, (rfl)⟩

theorem witness_reset_zero : ∃ r : RegId, ∃ i j : Nat, (r ∉ [.PIN_CTL, .PIN_DRV_LVL, .PIN_VTT, .PIN_CMP_LVL, .PIN_PMU_FORCE, .PIN_PMU_CLAMP,
    .PIN_STATUS, .PLT_CS_STAT, .DDS_ENG_MID, .ADC_SD_CFG, .MEM_PASR, .MEM_SCRUB, .SWY_TICK, .WLN_CONV_CTL, .WLN_ROUTE, .WLN_P_CTL, .WLN_P_STAT,
    .WLN_P_TAPS, .DEV_ID, .ETH_CTL, .ETH_OOB, .THM_CFG, .THM_LIMIT, .PLT_WTO, .PIN_SITE, .MEM_MAP_CTL, .MEM_MAP_BASE, .MEM_MAP_LEN, .HLM_RING_CFG,
    .CHT_AS_CTL, .MER_CTL, .MER_FWORD, .MER_STATUS]) :=
  ⟨.PLT_STATUS, 0, 0, by decide⟩

theorem witness_reset_off : ∃ m : Fin 8, (m.val ≠ 0) :=
  ⟨1, by decide⟩

/-! ### Ill-formed commands are refused -/

theorem smoke_registerWrite_empty : (Instr.registerWrite 0 [] false).wf = false := by decide
theorem smoke_registerWrite_long : (Instr.registerWrite 0 (List.replicate 4097 0) false).wf = false := by decide
theorem smoke_bar2Read_empty : (Instr.bar2Read 0 0).wf = false := by decide
theorem smoke_bar2Read_crosses : (Instr.bar2Read 4095 2).wf = false := by decide
theorem smoke_bar2Write_empty : (Instr.bar2Write 0 [] false).wf = false := by decide
theorem smoke_bar2Write_crosses : (Instr.bar2Write 4095 [0, 0] false).wf = false := by decide
theorem smoke_seqCont : (Instr.seqCont 0 (1 * 2 ^ 188)).wf = false := by decide
theorem smoke_seqJump : (Instr.seqJump 0 (2 * 2 ^ 188)).wf = false := by decide
theorem smoke_seqBranch : (Instr.seqBranch 0 (3 * 2 ^ 188)).wf = false := by decide
theorem smoke_seqMcall : (Instr.seqMcall 0 (4 * 2 ^ 188)).wf = false := by decide
theorem smoke_seqMret : (Instr.seqMret 0 (5 * 2 ^ 188)).wf = false := by decide
theorem smoke_seqWait : (Instr.seqWait 0 (6 * 2 ^ 188)).wf = false := by decide
theorem smoke_seqNext : (Instr.seqNext 0 (7 * 2 ^ 188)).wf = false := by decide
theorem smoke_seqRbr : (Instr.seqRbr 0 (8 * 2 ^ 188)).wf = false := by decide
theorem smoke_seqMtab : (Instr.seqMtab 0 (9 * 2 ^ 188)).wf = false := by decide
theorem smoke_seqTrap : (Instr.seqTrap 0 (10 * 2 ^ 188)).wf = false := by decide
theorem smoke_almanacApertureWrite_size : (Instr.almanacApertureWrite 0 0 0 2 0).wf = false := by decide
theorem smoke_almanacApertureWrite_alignment : (Instr.almanacApertureWrite 0 0 4 8 0).wf = false := by decide
theorem smoke_sextantEdge : (Instr.sextantEdge 48 0 false true).wf = false := by decide
theorem smoke_doorbellPageWrite_empty : (Instr.doorbellPageWrite 0 0 []).wf = false := by decide
theorem smoke_doorbellPageWrite_beyond : (Instr.doorbellPageWrite 0 4095 [0, 0]).wf = false := by decide
theorem smoke_deadlineExpiry : (Instr.deadlineExpiry false 256 0).wf = false := by decide
theorem smoke_queueDoorbellWrite_empty : (Instr.queueDoorbellWrite 1024 0 []).wf = false := by decide
theorem smoke_queueDoorbellWrite_beyond : (Instr.queueDoorbellWrite 1024 1023 [0, 0]).wf = false := by decide
theorem smoke_trainReq : (Instr.trainReq 0 0 1).wf = false := by decide
theorem smoke_trainStat : (Instr.trainStat 0 0 1).wf = false := by decide
theorem smoke_msg : (Instr.msg 0 flit0).wf = false := by decide
theorem smoke_msgAck : (Instr.msgAck 0 flit0).wf = false := by decide
theorem smoke_fwdCmd : (Instr.fwdCmd 0 flit0).wf = false := by decide
theorem smoke_fwdCpl : (Instr.fwdCpl 0 flit0).wf = false := by decide
theorem smoke_bulkWr : (Instr.bulkWr 0 flit0).wf = false := by decide
theorem smoke_bulkRdReq : (Instr.bulkRdReq 0 flit0).wf = false := by decide
theorem smoke_bulkRdData : (Instr.bulkRdData 0 flit0).wf = false := by decide
theorem smoke_bulkAck : (Instr.bulkAck 0 flit0).wf = false := by decide
theorem smoke_msg_seq : (Instr.msg 0 { flit0 with typ := 1, seq := 65536 }).wf = false := by decide
theorem smoke_msg_ttl : (Instr.msg 0 { flit0 with typ := 1, ttl := 9 }).wf = false := by decide
theorem smoke_msg_payload : (Instr.msg 0 { flit0 with typ := 1, payload := List.replicate 237 0 }).wf = false := by decide
theorem smoke_musterFlit_plain : (Instr.musterFlit 0 { flit0 with typ := 9, vc := 2 }).wf = false := by decide
theorem smoke_bootComplete_0 : (Instr.bootComplete 0 false false 0 []).wf = false := by decide
theorem smoke_bootComplete_9 : (Instr.bootComplete 9 false false 0 []).wf = false := by decide
theorem smoke_thermalSample : (Instr.thermalSample 32768).wf = false := by decide
theorem smoke_registerRead : (Instr.registerRead 0 0).wf = false := by decide

end Sys2Proof.Tests
end

section
/-! PROOFS. The events of a tracked meridian (R41 to R45, R49, R105). -/

namespace Sys2Proof.Machine

/-! ### A meridian that takes a rate -/

/-- Placing a running leg's edges anew leaves every meridian as it is. -/
theorem State.retime_mers (s : State) (m : Nat) : (s.retime m).mers = s.mers :=
  (keeps_retime (Fits.refl _) (Keeps.refl _ s)).same .mers rfl

/-- Placing a running leg's edges anew takes no time. -/
theorem State.retime_now (s : State) (m : Nat) : (s.retime m).now = s.now :=
  (keeps_retime (Fits.refl _) (Keeps.refl _ s)).same .time rfl

@[simp] theorem State.moveMer_now (s : State) (m : Nat) (x : Meridian) : (s.moveMer m x).now = s.now :=
  State.retime_now (s.setMer m x) m

theorem State.mer_moveMer (s : State) (m n : Nat) (x : Meridian) : (s.moveMer m x).mer n = (s.setMer m x).mer n := by
  unfold State.moveMer State.mer
  rw [State.retime_mers]

@[simp] theorem State.mer_moveMer_same (s : State) (m : Nat) (x : Meridian) : (s.moveMer m x).mer m = x :=
  (s.mer_moveMer m m x).trans (s.mer_setMer m x)

theorem State.mer_moveMer_ne (s : State) {m n : Nat} (x : Meridian) (h : n ≠ m) : (s.moveMer m x).mer n = s.mer n :=
  (s.mer_moveMer m n x).trans (s.mer_setMer_ne m x n h)

/-- A new rate moves the edges still to come, and shows the pins' moves, and touches nothing else (R105). -/
theorem State.moveMer_changes (s : State) (m : Nat) (x : Meridian) :
    Changes [.mers, .pins, .reg .ALM_CROWD, .reg .PLT_LEG_STATUS] s (s.moveMer m x) :=
  (keeps_moveMer (Fits.refl _) (Keeps.refl _ s)).changes (by decide +kernel)

/-! ### The reading across a lock (R41, R45, R499) -/

theorem Meridian.counted_of_ne_running {x : Meridian} (h : x.st ≠ .running) (t : Nat) : x.counted t = x.anchorRem :=
  if_neg fun hr => h hr.1

theorem Meridian.counted_anchorT (x : Meridian) : x.counted x.anchorT = x.anchorRem := by
  unfold Meridian.counted
  split
  · simp
  · rfl

/-- A meridian that starts to count at an instant shows there the reading at which it stood. -/
theorem Meridian.reading_of_lock {x : Meridian} (h : x.st ≠ .running) (t fin : Nat) :
    ({ x with st := .running, anchorT := t }.atInput fin).reading t = x.reading t := by
  have hnew : ({ x with st := .running, anchorT := t }.atInput fin).counted t = x.anchorRem :=
    Meridian.counted_anchorT ({ x with st := .running, anchorT := t }.atInput fin)
  have hold : x.counted t = x.anchorRem := Meridian.counted_of_ne_running h t
  unfold Meridian.reading
  rw [hnew, hold]
  rfl

/-! ### The events, a case each -/

theorem State.doMeridianLock_acquiring {s : State} {m fin : Nat} (hst : (s.mer m).st = .acquiring) (hk : (s.mer m).cfg.kind = .tracked)
    (hseen : s.inputSeen (s.mer m).cfg = true) (hf : fin ≠ 0) :
    s.doMeridianLock m fin = s.moveMer m ({ s.mer m with st := .running, anchorT := s.now }.atInput fin) := by
  unfold State.doMeridianLock
  rw [if_pos ⟨hk, hseen, hf⟩, if_pos hst]

theorem State.doMeridianLock_running {s : State} {m fin : Nat} (hst : (s.mer m).st = .running) (hk : (s.mer m).cfg.kind = .tracked)
    (hseen : s.inputSeen (s.mer m).cfg = true) (hf : fin ≠ 0) :
    s.doMeridianLock m fin = s.moveMer m (((s.mer m).reanchor s.now).atInput fin) := by
  unfold State.doMeridianLock
  rw [if_pos ⟨hk, hseen, hf⟩, if_neg (by rw [hst]; decide), if_pos hst]

theorem State.doEdgesReturn_running {s : State} {m fin : Nat} (hst : (s.mer m).st = .running) (hk : (s.mer m).cfg.kind = .tracked)
    (hseen : s.inputSeen (s.mer m).cfg = true) (hf : fin ≠ 0) :
    s.doEdgesReturn m fin = s.moveMer m (((s.mer m).reanchor s.now).atInput fin) := by
  unfold State.doEdgesReturn
  rw [if_neg (by rw [hseen]; decide), if_neg (by rw [hst]; decide), if_pos ⟨hst, hk, hf⟩]

theorem State.doEdgesReturn_held {s : State} {m : Nat} (fin : Nat) (hst : (s.mer m).st = .held)
    (hseen : s.inputSeen (s.mer m).cfg = true) :
    s.doEdgesReturn m fin = s.setMer m { s.mer m with st := .acquiring } := by
  unfold State.doEdgesReturn
  rw [if_neg (by rw [hseen]; decide), if_pos hst]

theorem State.doFreqRangeExit_outside {s : State} {m fin : Nat} (hst : (s.mer m).st = .running) (hk : (s.mer m).cfg.kind = .tracked)
    (hseen : s.inputSeen (s.mer m).cfg = true) (hout : ((s.mer m).atInput fin).outside = true) :
    s.doFreqRangeExit m fin =
      ((s.moveMer m (((s.mer m).reanchor s.now).atInput fin)).fput fMER_STATUS_range m 1).killOnMer m 6 :=
  if_pos ⟨hst, hk, hseen, hout⟩

section Slewing
variable {s : State} {m : Nat} (hst : (s.mer m).st = .running) (hph : (s.mer m).phasePs ≠ 0)
include hst hph

theorem State.doPhaseOffsetRemoved_slewing :
    s.doPhaseOffsetRemoved m =
      (s.advance ((s.mer m).anchorT + (s.mer m).phaseEnd)).setMer m
        { (s.mer m).reanchor (max s.now ((s.mer m).anchorT + (s.mer m).phaseEnd)) with phasePs := 0 } :=
  if_pos ⟨hst, hph⟩

theorem State.doPhaseOffsetRemoved_now :
    (s.doPhaseOffsetRemoved m).now = max s.now ((s.mer m).anchorT + (s.mer m).phaseEnd) := by
  rw [State.doPhaseOffsetRemoved_slewing hst hph]
  rfl

theorem State.mer_doPhaseOffsetRemoved :
    (s.doPhaseOffsetRemoved m).mer m =
      { (s.mer m).reanchor (max s.now ((s.mer m).anchorT + (s.mer m).phaseEnd)) with phasePs := 0 } := by
  rw [State.doPhaseOffsetRemoved_slewing hst hph, State.mer_setMer]

end Slewing

section Unseen
variable {s : State} {m : Nat} (fin : Nat) (hseen : s.inputSeen (s.mer m).cfg = false)
include hseen

theorem State.doMeridianLock_unseen : s.doMeridianLock m fin = s :=
  if_neg fun ⟨_, h, _⟩ => Bool.noConfusion (hseen.symm.trans h)

theorem State.doEdgesReturn_unseen : s.doEdgesReturn m fin = s := if_pos hseen

theorem State.doFreqRangeExit_unseen : s.doFreqRangeExit m fin = s :=
  if_neg fun ⟨_, _, h, _⟩ => Bool.noConfusion (hseen.symm.trans h)

end Unseen

/-- Settles O10, a clause for each case of the meridian's state and its input. -/
theorem meridianEventsMoveItsState : Obligations.MeridianEventsMoveItsState := by
  refine ⟨?lock, ?rate, ?held, ?unseen, ?range, ?phase⟩
  case lock =>
    intro m fin s hst hk hseen hf
    rw [exec_meridianLock, execMeridianLock, State.doMeridianLock_acquiring hst hk hseen hf]
    refine ⟨_, rfl, State.mer_moveMer_same .., ?_, fun n hn => State.mer_moveMer_ne _ _ hn, State.moveMer_changes ..⟩
    unfold State.odo
    rw [State.mer_moveMer_same, State.moveMer_now]
    exact Meridian.reading_of_lock (by rw [hst]; decide) s.now fin.toNat
  case rate =>
    intro m fin s hst hk hseen hf
    rw [exec_meridianLock, execMeridianLock, State.doMeridianLock_running hst hk hseen hf,
      exec_edgesReturn, execEdgesReturn, State.doEdgesReturn_running hst hk hseen hf]
    exact ⟨rfl, rfl, State.mer_moveMer_same .., fun n hn => State.mer_moveMer_ne _ _ hn, State.moveMer_changes ..⟩
  case held =>
    intro m fin s hst hseen
    rw [exec_edgesReturn, execEdgesReturn, State.doEdgesReturn_held _ hst hseen]
  case unseen =>
    intro m fin s hseen
    rw [exec_meridianLock, execMeridianLock, State.doMeridianLock_unseen _ hseen, exec_edgesReturn, execEdgesReturn,
      State.doEdgesReturn_unseen _ hseen, exec_freqRangeExit, execFreqRangeExit, State.doFreqRangeExit_unseen _ hseen]
    exact ⟨rfl, rfl, rfl⟩
  case range =>
    intro m fin s hst hk hseen hout
    rw [exec_freqRangeExit, execFreqRangeExit, State.doFreqRangeExit_outside hst hk hseen hout]
  case phase =>
    intro m s hst hph
    have hmer := State.mer_doPhaseOffsetRemoved hst hph
    exact ⟨s.doPhaseOffsetRemoved m.val, exec_phaseOffsetRemoved m s, State.doPhaseOffsetRemoved_now hst hph,
      congrArg Meridian.phasePs hmer, (congrArg Meridian.freqPpb hmer).trans rfl, (congrArg Meridian.st hmer).trans hst,
      (keeps_doPhaseOffsetRemoved (Fits.refl _) (Keeps.refl _ s)).changes (by decide +kernel)⟩

end Sys2Proof.Machine
end

section
/-! PROOFS. The cancel of a milestone against its firing (R52, R56). -/

namespace Sys2Proof.Machine

section Cancel
variable {s : State} {k : Packet}

/-- A milestone that still pends is taken away, with what waited for it. -/
theorem bodyMilestoneCancel_pending {x : Milestone} (h : s.ms.pending.find? (fun y => y.id == u32 k 0) = some x) :
    bodyMilestoneCancel k s = ok (((s.msRemove (u32 k 0)).ddsUnarm x).endWaits (.milestone (u32 k 0)) .aborted) := by
  unfold bodyMilestoneCancel
  dsimp only
  rw [h]

theorem bodyMilestoneCancel_fired (h : s.ms.pending.find? (fun y => y.id == u32 k 0) = none) (hf : u32 k 0 ∈ s.ms.fired) :
    bodyMilestoneCancel k s = fail s .alreadyFired := by
  unfold bodyMilestoneCancel
  dsimp only
  rw [h]
  exact if_pos (List.contains_iff_mem.mpr hf)

/-- An id never issued, or one whose milestone has been cancelled, neither pends nor has fired. -/
theorem bodyMilestoneCancel_unknown (h : s.ms.pending.find? (fun y => y.id == u32 k 0) = none) (hf : u32 k 0 ∉ s.ms.fired) :
    bodyMilestoneCancel k s = fail s .milestoneUnknown := by
  unfold bodyMilestoneCancel
  dsimp only
  rw [h]
  exact if_neg (mt List.contains_iff_mem.mp hf)

/-- An accepted cancel ends as its body does, in the state in which it begins (R362, R368). -/
theorem exec_milestoneCancel_ends (h : s.accepts 0x8006 k) {effect : State → State} {st : Status} {steps : Nat}
    (hb : bodyMilestoneCancel k (s.begun k) = (effect (s.begun k), .done st 0 0 false false steps)) :
    exec (.milestoneCancel k) s = .next (s.ends 0x8006 k effect st 0 0 steps) :=
  congrArg Host.Outcome.next (State.runCommand_ends h rfl hb)

end Cancel

/-- Settles O16: the scheduler's lists of pending and fired ids tell the three cases apart. -/
theorem cancelsRaceTheFiring : Obligations.CancelsRaceTheFiring := by
  constructor
  · rintro s _ k x hacc rfl hfind
    exact exec_milestoneCancel_ends hacc (effect := fun v =>
      ((v.msRemove (u32 k 0)).ddsUnarm x).endWaits (.milestone (u32 k 0)) .aborted) (bodyMilestoneCancel_pending hfind)
  · rintro s _ k hacc rfl hfind
    exact ⟨fun hf => exec_milestoneCancel_ends hacc (effect := id) (bodyMilestoneCancel_fired hfind hf),
      fun hf => exec_milestoneCancel_ends hacc (effect := id) (bodyMilestoneCancel_unknown hfind hf)⟩

end Sys2Proof.Machine
end

section
/-! PROOFS. The pin commands (R63, R64, R69, R78, R211, R501, R504). -/

namespace Sys2Proof.Machine

/-! ### A command that may have to wait for its pins to settle (R69, R78) -/

theorem State.afterSettling_settled {s : State} {mask : Nat} (h : s.allSettled mask = true) :
    s.afterSettling mask = (s, .done .ok 0 0 false false (popCount 48 mask)) := if_pos h

theorem State.afterSettling_unsettled {s : State} {mask : Nat} (h : s.allSettled mask = false) :
    s.afterSettling mask = (s, .wait (.settled mask) 0 0 0 0 (popCount 48 mask)) := if_neg (ne_true_of_eq_false h)

/-- An accepted command that ends by way of settling completes at once or waits, as its effect leaves the pins of its mask. -/
theorem State.runCommand_afterSettling {s : State} {opcode : Nat} {k : Packet} (h : s.accepts opcode k) (hp : isPrompt opcode = false)
    {body : CmdBody} {effect : State → State} {mask : Nat}
    (hb : body k (s.begun k) = (effect (s.begun k)).afterSettling mask) :
    ((effect (s.begun k)).allSettled mask = true →
      s.runCommand opcode body k = s.completes opcode k effect 0 (popCount 48 mask)) ∧
    ((effect (s.begun k)).allSettled mask = false →
      s.runCommand opcode body k = s.awaits opcode k effect (.settled mask) 0 0 0 0 (popCount 48 mask)) :=
  ⟨fun hs => State.runCommand_ends h hp (hb.trans (State.afterSettling_settled hs)),
    fun hs => State.runCommand_awaits h hp (hb.trans (State.afterSettling_unsettled hs))⟩

/-! ### The bodies, a lemma for each way they end -/

/-- A mask of pins that exist is refused for a pin of a running leg (R501). -/
theorem State.pinsRefused_pinBusy {s : State} {mask : Nat} (hm : mask < 2 ^ 48) (hb : (pinsOf mask).any s.pinInLeg = true) :
    s.pinsRefused mask = some .pinBusy := by
  unfold State.pinsRefused
  rw [if_neg (Nat.not_le.mpr hm), if_pos hb]

section Bodies
variable {s : State} {k : Packet}

/-- The check of the pins comes before every other (R501, R504). -/
theorem bodyPinLevels_refused {st : Status} (hp : s.pinsRefused (u64 k 0) = some st) : bodyPinLevels k s = fail s st := by
  unfold bodyPinLevels
  dsimp only
  rw [hp]

theorem bodyPinLevels_levelRange (hp : s.pinsRefused (u64 k 0) = none) (hsel : u8 k 19 < 8) (hg : levelsGood k = false) :
    bodyPinLevels k s = fail s .levelRange := by
  unfold bodyPinLevels
  dsimp only
  rw [hp]
  exact (if_neg (Nat.not_le.mpr hsel)).trans (if_pos hg)

theorem bodyPinLevels_good (hp : s.pinsRefused (u64 k 0) = none) (hsel : u8 k 19 < 8) (hg : levelsGood k = true) :
    bodyPinLevels k s = ((pinsOf (u64 k 0)).foldl (fun v n => v.putLevels k n) s).afterSettling (u64 k 0) := by
  unfold bodyPinLevels
  dsimp only
  rw [hp]
  exact (if_neg (Nat.not_le.mpr hsel)).trans (if_neg (ne_false_of_eq_true hg))

theorem bodyPinConfig_good (hp : s.pinsRefused (u64 k 0) = none) (hg : configGood k = true) :
    bodyPinConfig k s = ok ((pinsOf (u64 k 0)).foldl (fun v n => v.putConfig k n) s) := by
  unfold bodyPinConfig
  rw [hp]
  exact if_neg (ne_false_of_eq_true hg)

theorem bodyPinPmu_good (hp : s.pinsRefused (u64 k 0) = none) (hmode : u8 k 8 < 4) (hrange : u8 k 9 < 8) :
    bodyPinPmu k s =
      ((pinsOf (u64 k 0)).foldl (fun v n => v.putPmu n (u8 k 8) (u8 k 9) (u16 k 10) (u16 k 12) (u16 k 14)) s).afterSettling
        (u64 k 0) := by
  unfold bodyPinPmu
  dsimp only
  rw [hp]
  exact if_neg (by omega)

theorem bodyPinSite_claimed (hn : u8 k 0 < 48) (hsite : u8 k 1 < 48) (hj : (s.pinJob (u8 k 0)).isSome = true) :
    bodyPinSite k s = fail s .pinClaimed :=
  (if_neg (by omega)).trans (if_pos hj)

theorem bodyPinSite_unclaimed (hn : u8 k 0 < 48) (hsite : u8 k 1 < 48) (hj : s.pinJob (u8 k 0) = none) :
    bodyPinSite k s = ok (s.fput fPIN_SITE_site (u8 k 0) (u8 k 1)) :=
  (if_neg (by omega)).trans (if_neg (by simp [hj]))

theorem bodyPinClear_good (hp : s.pinsRefused (u64 k 0) = none) (hsel : u8 k 8 < 8) :
    bodyPinClear k s = ok ((pinsOf (u64 k 0)).foldl (fun v n => v.clearPin (u8 k 8) n) s) := by
  unfold bodyPinClear
  dsimp only
  rw [hp]
  exact if_neg (Nat.not_le.mpr hsel)

end Bodies

/-- Settles O8: each clause is the command's body in the state begun, ended as the front end ends it. -/
theorem pinCommandsAct : Obligations.PinCommandsAct := by
  refine ⟨?levels, ?config, ?pmu, ?site, ?clear, ?levelRange, ?pinBusy, ?pinClaimed⟩
  case levels =>
    rintro s _ k hacc rfl hp hsel hg f
    rw [exec_pinLevels, execPinLevels]
    have ⟨hdone, hwait⟩ := State.runCommand_afterSettling (effect := f) hacc rfl (bodyPinLevels_good hp hsel hg)
    exact ⟨fun hs => congrArg _ (hdone hs), fun hs => congrArg _ (hwait hs)⟩
  case config =>
    rintro s _ k hacc rfl hp hg
    rw [exec_pinConfig, execPinConfig]
    exact congrArg _ (State.runCommand_ends hacc rfl (bodyPinConfig_good hp hg))
  case pmu =>
    rintro s _ k hacc rfl hp hmode hrange f
    rw [exec_pinPmu, execPinPmu]
    have ⟨hdone, hwait⟩ := State.runCommand_afterSettling (effect := f) hacc rfl (bodyPinPmu_good hp hmode hrange)
    exact ⟨fun hs => congrArg _ (hdone hs), fun hs => congrArg _ (hwait hs)⟩
  case site =>
    rintro s _ k hacc rfl hn hsite hj
    rw [exec_pinSite, execPinSite]
    exact congrArg _ (State.runCommand_ends hacc rfl (bodyPinSite_unclaimed hn hsite hj))
  case clear =>
    rintro s _ k hacc rfl hp hsel
    rw [exec_pinClear, execPinClear]
    exact congrArg _ (State.runCommand_ends hacc rfl (bodyPinClear_good hp hsel))
  case levelRange =>
    rintro s _ k hacc rfl hp hsel hg
    rw [exec_pinLevels, execPinLevels]
    exact congrArg _ (State.runCommand_ends hacc rfl (bodyPinLevels_levelRange hp hsel hg))
  case pinBusy =>
    rintro s _ k hacc rfl hm hb
    rw [exec_pinLevels, execPinLevels]
    exact congrArg _ (State.runCommand_ends hacc rfl (bodyPinLevels_refused (State.pinsRefused_pinBusy hm hb)))
  case pinClaimed =>
    rintro s _ k hacc rfl hn hsite hj
    rw [exec_pinSite, execPinSite]
    exact congrArg _ (State.runCommand_ends hacc rfl (bodyPinSite_claimed hn hsite hj))

end Sys2Proof.Machine
end

section
/-! PROOFS. The Almanac commands and the staged writes of its aperture (R99, R106, R108 to R112, R502). -/

namespace Sys2Proof.Machine

/-- An accepted command whose effect ends OK. -/
theorem State.runCommand_completes {s : State} {opcode : Nat} {k : Packet} (h : s.accepts opcode k) (hp : isPrompt opcode = false)
    {body : CmdBody} {effect : State → State} {result steps : Nat}
    (hb : body k (s.begun k) = (effect (s.begun k), .done .ok 0 result false false steps)) :
    s.runCommand opcode body k = s.completes opcode k effect result steps :=
  State.runCommand_ends h hp hb

/-! ### The bodies of the commands, each on parameters that pass its checks -/

/-- A range of sets inside the Almanac, a period in its limits, pins that exist: checks 1 and 2 of R502 pass. -/
theorem almParams_good {first count pins : Nat} {d : Option Nat} (h0 : 0 < count) (hrange : first + count ≤ 2048)
    (hd : ∀ x ∈ d, 0 < x ∧ x ≤ 1048576) (hpins : pins < 2 ^ 48) : almParams first count d pins true = none := by
  unfold almParams
  rw [if_neg (by omega)]
  refine if_neg ?_
  cases d with
  | none => simpa using hpins
  | some x =>
    have ⟨hpos, hle⟩ := hd x rfl
    simpa [hle, Nat.ne_of_gt hpos] using hpins

section Bodies
variable {s : State} {k : Packet}

theorem bodyAlmanacTemplate_good {us es : List Nat} {ts : List (Nat × Nat)}
    (hus : us = [u32 k 20, u32 k 24, u32 k 28, u32 k 32, u32 k 36]) (hes : es = us.map (fun x => templateEdge x (u32 k 16)))
    (hts : ts = almTargets (u16 k 0) (u16 k 2) (u64 k 8))
    (hp : almParams (u16 k 0) (u16 k 2) (some (u32 k 16)) (u64 k 8) true = none) (hfmt : u8 k 4 < 16)
    (hu : ∀ x ∈ us, x < 2 ^ 22) (he : ∀ e ∈ es, e < 2 ^ 44) (hbusy : s.almBusy ts = false) :
    bodyAlmanacTemplate k s =
      (ts.foldl (fun v t => v.setAlm t.1 t.2 (templateEntry (u8 k 4) es)) s, .done .ok 0 0 false false (u16 k 2)) := by
  have hextra : (decide (u8 k 4 < 16) && us.all (fun u => decide (u < 2 ^ 22))) = true := by simpa [hfmt] using hu
  have hedges : es.any (fun e => decide (2 ^ 44 ≤ e)) = false := by simpa using he
  subst hus hes hts
  unfold bodyAlmanacTemplate
  dsimp only
  rw [hextra, hp]
  exact (if_neg (ne_true_of_eq_false hedges)).trans (if_neg (ne_true_of_eq_false hbusy))

theorem bodyAlmanacLoad_good {v : State} {bs : List Byte}
    (hp : almParams (u16 k 10) (u16 k 12) none (u64 k 16) true = none)
    (hbusy : s.almBusy (almTargets (u16 k 10) (u16 k 12) (u64 k 16)) = false)
    (hpay : s.payload (u8 k 8) (u64 k 0) (1536 * u16 k 12) = (v, .bytes bs)) :
    bodyAlmanacLoad k s =
      ((almTargets (u16 k 10) (u16 k 12) (u64 k 16)).foldl (fun v t =>
        v.setAlm t.1 t.2 (ofBytes ((bs.drop (1536 * (t.1 - u16 k 10) + 32 * t.2)).take 32))) v,
        .done .ok 0 0 false false (u16 k 12)) := by
  unfold bodyAlmanacLoad
  dsimp only
  rw [hp, hpay]
  exact if_neg (ne_true_of_eq_false hbusy)

theorem bodyAlmanacCheck_good (hp : almParams (u16 k 0) (u16 k 2) (some (u32 k 4)) (u64 k 8) true = none) :
    bodyAlmanacCheck k s =
      (let r := s.almFailures (u32 k 4) (almTargets (u16 k 0) (u16 k 2) (u64 k 8))
       let first := match r.2 with
         | [] => 0xFFFFFFFF
         | t :: _ => t.1 + t.2 * 2 ^ 16
       okResult r.1 (r.2.length + first * 2 ^ 32)) := by
  unfold bodyAlmanacCheck
  rw [hp] <;> rfl

theorem bodyAlmanacDeskew_good (hn : u8 k 0 < 48) (hleg : s.pinInLeg (u8 k 0) = false) :
    bodyAlmanacDeskew k s =
      ok ((s.fput fALM_DESKEW_drv_deskew (u8 k 0) (enc 24 (clampInt (-8388608) 8388607 (s32 k 4)))).fput fALM_DESKEW_cmp_deskew
        (u8 k 0) (enc 24 (clampInt (-8388608) 8388607 (s32 k 8)))) :=
  (if_neg (Nat.not_le.mpr hn)).trans (if_neg (ne_true_of_eq_false hleg))

end Bodies

/-! ### A stored entry -/

theorem State.almEntry_setAlm_same (s : State) (set pin v : Nat) : (s.setAlm set pin v).almEntry set pin = almMask v :=
  nget_nset_same ..

theorem State.almEntry_setAlm_ne (s : State) {set pin set' pin' : Nat} (v : Nat) (h : almKey set' pin' ≠ almKey set pin) :
    (s.setAlm set pin v).almEntry set' pin' = s.almEntry set' pin' := nget_nset_ne 0 h ..

/-! ### The staging buffer (R110, R111) -/

/-- The staging buffer holds these bits of an entry (R110). -/
def State.almStaged (s : State) (key v : Nat) : State :=
  ({ s with alm := { s.alm with stageKey := some key, stage := v } } : State).fput fALM_STATUS_stage_valid 0 1

/-- The bits of an entry are stored, and the staging buffer is empty (R110). -/
def State.almStored (s : State) (set pin v : Nat) : State :=
  ({ s.setAlm set pin v with alm := { (s.setAlm set pin v).alm with stageKey := none, stage := 0 } } : State).fput
    fALM_STATUS_stage_valid 0 0

section Write
variable {s : State} {set pin byte size : Nat} (value : Nat)

theorem State.almWrite_protected (hset : set < 2048) (hpin : pin < 48) (hp : s.almProtected set pin = true) :
    s.almWrite set pin byte size value = s.rtWriteDrop :=
  (if_neg (by omega)).trans (if_pos hp)

section Unprotected
variable (hset : set < 2048) (hpin : pin < 48) (hp : s.almProtected set pin = false)
include hset hpin hp

/-- More bytes of the entry that is being staged. -/
theorem State.almWrite_staged (hlow : byte + size ≤ 28) (hkey : s.alm.stageKey = some (almKey set pin)) :
    s.almWrite set pin byte size value =
      s.almStaged (almKey set pin) (setBits s.alm.stage (8 * (byte + size) - 1) (8 * byte) value) := by
  unfold State.almWrite
  rw [if_neg (by omega), if_neg (ne_true_of_eq_false hp)]
  simp only [hkey, ne_eq, not_true_eq_false, false_and, if_false]
  exact if_neg (Nat.not_lt.mpr hlow)

/-- The first bytes of another entry: what was staged is lost, and the buffer is filled by a read of the entry. -/
theorem State.almWrite_fresh {w u : State} {e : Nat} {bad : Bool} (hlow : byte + size ≤ 28)
    (hkey : s.alm.stageKey ≠ some (almKey set pin))
    (hw : w = if s.alm.stageKey.isSome then s.fput fALM_STATUS_stage_lost 0 1 else s) (hread : w.readAlm set pin = (u, e, bad)) :
    s.almWrite set pin byte size value =
      u.almStaged (almKey set pin) (setBits e (8 * (byte + size) - 1) (8 * byte) value) := by
  unfold State.almWrite
  rw [if_neg (by omega), if_neg (ne_true_of_eq_false hp)]
  simp only [hkey, ne_eq, not_false_eq_true, true_and, if_true]
  rw [← hw, hread]
  exact if_neg (Nat.not_lt.mpr hlow)

/-- The last bytes of the entry that is being staged store it. -/
theorem State.almWrite_last (hlast : 28 < byte + size) (hkey : s.alm.stageKey = some (almKey set pin)) :
    s.almWrite set pin byte size value = s.almStored set pin (setBits s.alm.stage (8 * (byte + size) - 1) (8 * byte) value) := by
  unfold State.almWrite
  rw [if_neg (by omega), if_neg (ne_true_of_eq_false hp)]
  simp only [hkey, ne_eq, not_true_eq_false, false_and, if_false]
  exact if_pos hlast

end Unprotected
end Write

/-- An entry stored changes the Almanac and the Almanac's status, and no other part. -/
theorem State.almStored_changes (s : State) (set pin v : Nat) : Changes [.alm, .reg .ALM_STATUS] s (s.almStored set pin v) :=
  Keeps.changes (P := partMask [.alm, .reg .ALM_STATUS])
    (keeps_fput (Fits.refl _) (by decide +kernel)
      (keeps_alm (Fits.refl _) (by decide +kernel) (keeps_setAlm (by decide +kernel) (Keeps.refl _ s)))) (Fits.refl _)

/-- The stage of the entry whose bits it holds already takes new bits and keeps its key. -/
theorem State.almStaged_of_key {s : State} {key : Nat} (h : s.alm.stageKey = some key) (v : Nat) :
    s.almStaged key v = ({ s with alm := { s.alm with stage := v } } : State).fput fALM_STATUS_stage_valid 0 1 := by
  unfold State.almStaged
  rw [← h]

/-! ### The aperture's writes (R109, R438) -/

theorem exec_almanacApertureWrite_bad {byte : Fin 32} {size : Fin 9} (set : BitVec 11) (n : PinNo) (v : BitVec 64) (s : State)
    (h : accessOk byte.val size.val = false) : exec (.almanacApertureWrite set n byte size v) s = .next s.accessErr := by
  rw [exec_almanacApertureWrite, execAlmanacApertureWrite, State.almanacRow, if_pos h]

/-- A supported access is a write of the entry, after the writes that came before it (R12). -/
theorem exec_almanacApertureWrite_takes {byte : Fin 32} {size : Fin 9} {set : BitVec 11} {n : PinNo} {v : BitVec 64} {s : State}
    (ht : s.deliverAll.takesWrite 0xB00000 = true) (h : accessOk byte.val size.val = true) :
    exec (.almanacApertureWrite set n byte size v) s =
      .next (s.deliverAll.almWrite set.toNat n.val byte.val size.val (v.toNat % 2 ^ (8 * size.val))) := by
  rw [exec_almanacApertureWrite, execAlmanacApertureWrite, State.almanacRow, if_neg (ne_false_of_eq_true h)]
  exact congrArg Host.Outcome.next (if_pos ht)

/-- Settles O9: each command is its body in the state begun, and a write of the aperture is the staging buffer's case of it. -/
theorem almanacIsWrittenAndChecked : Obligations.AlmanacIsWrittenAndChecked := by
  refine ⟨?template, ?load, ?check, ?deskew, ?staged, ?fresh, ?stored, ?dropped, ?discarded⟩
  case template =>
    rintro s _ k hacc rfl es ts h0 hrange hd0 hd hpins hfmt hu he hbusy
    have hp := almParams_good h0 hrange (d := some (u32 k 16)) (by rintro _ ⟨⟩; exact ⟨hd0, hd⟩) hpins
    rw [exec_almanacTemplate, execAlmanacTemplate]
    exact congrArg Host.Outcome.next (State.runCommand_completes hacc rfl
      (bodyAlmanacTemplate_good rfl rfl rfl hp hfmt hu he hbusy))
  case load =>
    rintro s _ v k bs hacc rfl h0 hrange hpins hbusy hpay
    have hp := almParams_good h0 hrange (d := none) (by simp) hpins
    rw [exec_almanacLoad, execAlmanacLoad]
    exact congrArg Host.Outcome.next (State.runCommand_completes hacc rfl (bodyAlmanacLoad_good hp hbusy hpay))
  case check =>
    rintro s _ k hacc rfl h0 hrange hd0 hd hpins r first
    have hp := almParams_good h0 hrange (d := some (u32 k 4)) (by rintro _ ⟨⟩; exact ⟨hd0, hd⟩) hpins
    rw [exec_almanacCheck, execAlmanacCheck]
    exact congrArg Host.Outcome.next (State.runCommand_completes hacc rfl (bodyAlmanacCheck_good hp))
  case deskew =>
    rintro s _ k hacc rfl hn hleg
    rw [exec_almanacDeskew, execAlmanacDeskew]
    exact congrArg Host.Outcome.next (State.runCommand_completes hacc rfl (bodyAlmanacDeskew_good hn hleg))
  case staged =>
    rintro set n byte size v s _ rfl ht hok hp hlow hkey
    rw [exec_almanacApertureWrite_takes ht hok, State.almWrite_staged _ set.isLt n.isLt hp hlow hkey,
      State.almStaged_of_key hkey]
  case fresh =>
    rintro set n byte size v s _ w u e bad rfl ht hok hp hlow hkey hw hread
    rw [exec_almanacApertureWrite_takes ht hok, State.almWrite_fresh _ set.isLt n.isLt hp hlow hkey hw hread]
    rfl
  case stored =>
    rintro set n byte size v s _ rfl ht hok hp hlast hkey
    rw [exec_almanacApertureWrite_takes ht hok, State.almWrite_last _ set.isLt n.isLt hp hlast hkey]
    exact ⟨_, rfl, rfl, State.fget_fput _ 0 0 (by decide) (by decide), State.almEntry_setAlm_same ..,
      fun _ _ h => State.almEntry_setAlm_ne _ _ h, State.almStored_changes ..⟩
  case dropped =>
    rintro set n byte size v s _ rfl ht hok hp
    rw [exec_almanacApertureWrite_takes ht hok, State.almWrite_protected _ set.isLt n.isLt hp]
  case discarded =>
    intro set n byte size v s hok
    exact exec_almanacApertureWrite_bad set n v s hok

end Sys2Proof.Machine
end

section
/-! PROOFS. What every step keeps, whatever the command (R5, R52, R55, R370), and the state that reset leaves (R10). -/

namespace Sys2Proof.Machine

/-! ### Every command's effect -/

/-- Whatever the command, its effect leaves the queue alone, moves neither time nor the count of free values back, and keeps the
block sound: each command has its law. -/
theorem exec_keeps {c : Instr} {s t : State} (h : exec c s = .next t) : ∃ P, Keeps P s t := by
  cases c with
  | registerWrite => exact ⟨_, keeps_execRegisterWrite h (Fits.refl _)⟩
  | immediateMilestone => exact ⟨_, keeps_execImmediateMilestone h (Fits.refl _)⟩
  | arbiterGrant => exact ⟨_, keeps_execArbiterGrant h (Fits.refl _)⟩
  | fenceComplete => exact ⟨_, keeps_execFenceComplete h (Fits.refl _)⟩
  | writeQueueDrain => exact ⟨_, keeps_execWriteQueueDrain h (Fits.refl _)⟩
  | doorbellRelease => exact ⟨_, keeps_execDoorbellRelease h (Fits.refl _)⟩
  | bar2Read => exact ⟨_, keeps_execBar2Read h (Fits.refl _)⟩
  | bar2Write => exact ⟨_, keeps_execBar2Write h (Fits.refl _)⟩
  | stride => exact ⟨_, keeps_execStride h (Fits.refl _)⟩
  | vectorPeriod => exact ⟨_, keeps_execVectorPeriod h (Fits.refl _)⟩
  | compareResultArrival => exact ⟨_, keeps_execCompareResultArrival h (Fits.refl _)⟩
  | nop => exact ⟨_, keeps_execNop h (Fits.refl _)⟩
  | vec => exact ⟨_, keeps_execVec h (Fits.refl _)⟩
  | rpt => exact ⟨_, keeps_execRpt h (Fits.refl _)⟩
  | pad => exact ⟨_, keeps_execPad h (Fits.refl _)⟩
  | loop => exact ⟨_, keeps_execLoop h (Fits.refl _)⟩
  | endl => exact ⟨_, keeps_execEndl h (Fits.refl _)⟩
  | jmp => exact ⟨_, keeps_execJmp h (Fits.refl _)⟩
  | call => exact ⟨_, keeps_execCall h (Fits.refl _)⟩
  | ret => exact ⟨_, keeps_execRet h (Fits.refl _)⟩
  | failMark => exact ⟨_, keeps_execFailMark h (Fits.refl _)⟩
  | jmpFail => exact ⟨_, keeps_execJmpFail h (Fits.refl _)⟩
  | jmpPass => exact ⟨_, keeps_execJmpPass h (Fits.refl _)⟩
  | jmpInd => exact ⟨_, keeps_execJmpInd h (Fits.refl _)⟩
  | jmpAbs => exact ⟨_, keeps_execJmpAbs h (Fits.refl _)⟩
  | matchLoop => exact ⟨_, keeps_execMatchLoop h (Fits.refl _)⟩
  | aluSet => exact ⟨_, keeps_execAluSet h (Fits.refl _)⟩
  | aluAdd => exact ⟨_, keeps_execAluAdd h (Fits.refl _)⟩
  | jmpAnz => exact ⟨_, keeps_execJmpAnz h (Fits.refl _)⟩
  | waitOdo => exact ⟨_, keeps_execWaitOdo h (Fits.refl _)⟩
  | msPost => exact ⟨_, keeps_execMsPost h (Fits.refl _)⟩
  | legendSel => exact ⟨_, keeps_execLegendSel h (Fits.refl _)⟩
  | tset => exact ⟨_, keeps_execTset h (Fits.refl _)⟩
  | waypt => exact ⟨_, keeps_execWaypt h (Fits.refl _)⟩
  | legStart => exact ⟨_, keeps_execLegStart h (Fits.refl _)⟩
  | endLeg => exact ⟨_, keeps_execEndLeg h (Fits.refl _)⟩
  | capCtl => exact ⟨_, keeps_execCapCtl h (Fits.refl _)⟩
  | ffailArm => exact ⟨_, keeps_execFfailArm h (Fits.refl _)⟩
  | sxtWin => exact ⟨_, keeps_execSxtWin h (Fits.refl _)⟩
  | sxtArm => exact ⟨_, keeps_execSxtArm h (Fits.refl _)⟩
  | ddsHop => exact ⟨_, keeps_execDdsHop h (Fits.refl _)⟩
  | pvLoad => exact ⟨_, keeps_execPvLoad h (Fits.refl _)⟩
  | pvXor => exact ⟨_, keeps_execPvXor h (Fits.refl _)⟩
  | pvCapt => exact ⟨_, keeps_execPvCapt h (Fits.refl _)⟩
  | scan => exact ⟨_, keeps_execScan h (Fits.refl _)⟩
  | userOpcode => exact ⟨_, keeps_execUserOpcode h (Fits.refl _)⟩
  | seqCont => exact ⟨_, keeps_execSeqCont h (Fits.refl _)⟩
  | seqJump => exact ⟨_, keeps_execSeqJump h (Fits.refl _)⟩
  | seqBranch => exact ⟨_, keeps_execSeqBranch h (Fits.refl _)⟩
  | seqMcall => exact ⟨_, keeps_execSeqMcall h (Fits.refl _)⟩
  | seqMret => exact ⟨_, keeps_execSeqMret h (Fits.refl _)⟩
  | seqWait => exact ⟨_, keeps_execSeqWait h (Fits.refl _)⟩
  | seqWaitTimeout => exact ⟨_, keeps_execSeqWaitTimeout h (Fits.refl _)⟩
  | seqNext => exact ⟨_, keeps_execSeqNext h (Fits.refl _)⟩
  | seqRbr => exact ⟨_, keeps_execSeqRbr h (Fits.refl _)⟩
  | seqMtab => exact ⟨_, keeps_execSeqMtab h (Fits.refl _)⟩
  | seqTrap => exact ⟨_, keeps_execSeqTrap h (Fits.refl _)⟩
  | controlStoreReload => exact ⟨_, keeps_execControlStoreReload h (Fits.refl _)⟩
  | controlStoreScrub => exact ⟨_, keeps_execControlStoreScrub h (Fits.refl _)⟩
  | haltEntry => exact ⟨_, keeps_execHaltEntry h (Fits.refl _)⟩
  | siteQueueEntry => exact ⟨_, keeps_execSiteQueueEntry h (Fits.refl _)⟩
  | legEnd => exact ⟨_, keeps_execLegEnd h (Fits.refl _)⟩
  | jobRestore => exact ⟨_, keeps_execJobRestore h (Fits.refl _)⟩
  | relativeLegStart => exact ⟨_, keeps_execRelativeLegStart h (Fits.refl _)⟩
  | slipSyncEdge => exact ⟨_, keeps_execSlipSyncEdge h (Fits.refl _)⟩
  | slipExpiry => exact ⟨_, keeps_execSlipExpiry h (Fits.refl _)⟩
  | holdEnd => exact ⟨_, keeps_execHoldEnd h (Fits.refl _)⟩
  | holdLimit => exact ⟨_, keeps_execHoldLimit h (Fits.refl _)⟩
  | fillElement => exact ⟨_, keeps_execFillElement h (Fits.refl _)⟩
  | slotFill => exact ⟨_, keeps_execSlotFill h (Fits.refl _)⟩
  | playoutFetch => exact ⟨_, keeps_execPlayoutFetch h (Fits.refl _)⟩
  | captureBlockWrite => exact ⟨_, keeps_execCaptureBlockWrite h (Fits.refl _)⟩
  | captureMarker => exact ⟨_, keeps_execCaptureMarker h (Fits.refl _)⟩
  | truncationMarker => exact ⟨_, keeps_execTruncationMarker h (Fits.refl _)⟩
  | msLegStart => exact ⟨_, keeps_execMsLegStart h (Fits.refl _)⟩
  | msDdsHop => exact ⟨_, keeps_execMsDdsHop h (Fits.refl _)⟩
  | msDdsAdvance => exact ⟨_, keeps_execMsDdsAdvance h (Fits.refl _)⟩
  | msDdsStart => exact ⟨_, keeps_execMsDdsStart h (Fits.refl _)⟩
  | msDdsStop => exact ⟨_, keeps_execMsDdsStop h (Fits.refl _)⟩
  | msSxtArm => exact ⟨_, keeps_execMsSxtArm h (Fits.refl _)⟩
  | msSxtWindow => exact ⟨_, keeps_execMsSxtWindow h (Fits.refl _)⟩
  | msAcqTrigger => exact ⟨_, keeps_execMsAcqTrigger h (Fits.refl _)⟩
  | msConverterTrigger => exact ⟨_, keeps_execMsConverterTrigger h (Fits.refl _)⟩
  | msWaylineLaunch => exact ⟨_, keeps_execMsWaylineLaunch h (Fits.refl _)⟩
  | msMsyncOut => exact ⟨_, keeps_execMsMsyncOut h (Fits.refl _)⟩
  | msGpio => exact ⟨_, keeps_execMsGpio h (Fits.refl _)⟩
  | msDepotPost => exact ⟨_, keeps_execMsDepotPost h (Fits.refl _)⟩
  | meridianLock => exact ⟨_, keeps_execMeridianLock h (Fits.refl _)⟩
  | bearingLost => exact ⟨_, keeps_execBearingLost h (Fits.refl _)⟩
  | freqRangeExit => exact ⟨_, keeps_execFreqRangeExit h (Fits.refl _)⟩
  | merCtlWrite => exact ⟨_, keeps_execMerCtlWrite h (Fits.refl _)⟩
  | merSnap => exact ⟨_, keeps_execMerSnap h (Fits.refl _)⟩
  | overvoltage => exact ⟨_, keeps_execOvervoltage h (Fits.refl _)⟩
  | levelSettled => exact ⟨_, keeps_execLevelSettled h (Fits.refl _)⟩
  | almanacApertureWrite => exact ⟨_, keeps_execAlmanacApertureWrite h (Fits.refl _)⟩
  | sextantEdge => exact ⟨_, keeps_execSextantEdge h (Fits.refl _)⟩
  | stampDecision => exact ⟨_, keeps_execStampDecision h (Fits.refl _)⟩
  | stampPost => exact ⟨_, keeps_execStampPost h (Fits.refl _)⟩
  | frequencyRunEnd => exact ⟨_, keeps_execFrequencyRunEnd h (Fits.refl _)⟩
  | sxtWinCommit => exact ⟨_, keeps_execSxtWinCommit h (Fits.refl _)⟩
  | sxtChCtlWrite => exact ⟨_, keeps_execSxtChCtlWrite h (Fits.refl _)⟩
  | sxtMuCtlWrite => exact ⟨_, keeps_execSxtMuCtlWrite h (Fits.refl _)⟩
  | selfCheckStart => exact ⟨_, keeps_execSelfCheckStart h (Fits.refl _)⟩
  | selfCheckDone => exact ⟨_, keeps_execSelfCheckDone h (Fits.refl _)⟩
  | dwellEnd => exact ⟨_, keeps_execDwellEnd h (Fits.refl _)⟩
  | ddsListWrite => exact ⟨_, keeps_execDdsListWrite h (Fits.refl _)⟩
  | sdOutput => exact ⟨_, keeps_execSdOutput h (Fits.refl _)⟩
  | sarConversionDone => exact ⟨_, keeps_execSarConversionDone h (Fits.refl _)⟩
  | converterResultPost => exact ⟨_, keeps_execConverterResultPost h (Fits.refl _)⟩
  | adcTrigGo => exact ⟨_, keeps_execAdcTrigGo h (Fits.refl _)⟩
  | msyncInEdge => exact ⟨_, keeps_execMsyncInEdge h (Fits.refl _)⟩
  | heldTrigger => exact ⟨_, keeps_execHeldTrigger h (Fits.refl _)⟩
  | sarInjectRequest => exact ⟨_, keeps_execSarInjectRequest h (Fits.refl _)⟩
  | adcSdCfgWrite => exact ⟨_, keeps_execAdcSdCfgWrite h (Fits.refl _)⟩
  | acqCtlWrite => exact ⟨_, keeps_execAcqCtlWrite h (Fits.refl _)⟩
  | acqTrigGo => exact ⟨_, keeps_execAcqTrigGo h (Fits.refl _)⟩
  | acqRecord => exact ⟨_, keeps_execAcqRecord h (Fits.refl _)⟩
  | acqRearm => exact ⟨_, keeps_execAcqRearm h (Fits.refl _)⟩
  | refreshStop => exact ⟨_, keeps_execRefreshStop h (Fits.refl _)⟩
  | refreshStopEnd => exact ⟨_, keeps_execRefreshStopEnd h (Fits.refl _)⟩
  | stackTempRead => exact ⟨_, keeps_execStackTempRead h (Fits.refl _)⟩
  | parityAlert => exact ⟨_, keeps_execParityAlert h (Fits.refl _)⟩
  | hbmScrub => exact ⟨_, keeps_execHbmScrub h (Fits.refl _)⟩
  | memoryWake => exact ⟨_, keeps_execMemoryWake h (Fits.refl _)⟩
  | selfRefreshExit => exact ⟨_, keeps_execSelfRefreshExit h (Fits.refl _)⟩
  | memMapCtlWrite => exact ⟨_, keeps_execMemMapCtlWrite h (Fits.refl _)⟩
  | walkComplete => exact ⟨_, keeps_execWalkComplete h (Fits.refl _)⟩
  | chtInvGo => exact ⟨_, keeps_execChtInvGo h (Fits.refl _)⟩
  | dmaDescriptor => exact ⟨_, keeps_execDmaDescriptor h (Fits.refl _)⟩
  | granuleComplete => exact ⟨_, keeps_execGranuleComplete h (Fits.refl _)⟩
  | dmaCompletion => exact ⟨_, keeps_execDmaCompletion h (Fits.refl _)⟩
  | dmaChCtlWrite => exact ⟨_, keeps_execDmaChCtlWrite h (Fits.refl _)⟩
  | doorbellPageWrite => exact ⟨_, keeps_execDoorbellPageWrite h (Fits.refl _)⟩
  | cplConsumedWrite => exact ⟨_, keeps_execCplConsumedWrite h (Fits.refl _)⟩
  | completionCommit => exact ⟨_, keeps_execCompletionCommit h (Fits.refl _)⟩
  | moderationTimeout => exact ⟨_, keeps_execModerationTimeout h (Fits.refl _)⟩
  | deadlineExpiry => exact ⟨_, keeps_execDeadlineExpiry h (Fits.refl _)⟩
  | nopCommand => exact ⟨_, keeps_execNopCommand h (Fits.refl _)⟩
  | ringCreate => exact ⟨_, keeps_execRingCreate h (Fits.refl _)⟩
  | ringDelete => exact ⟨_, keeps_execRingDelete h (Fits.refl _)⟩
  | abortAll => exact ⟨_, keeps_execAbortAll h (Fits.refl _)⟩
  | takeFix => exact ⟨_, keeps_execTakeFix h (Fits.refl _)⟩
  | scriptLoad => exact ⟨_, keeps_execScriptLoad h (Fits.refl _)⟩
  | scriptCtl => exact ⟨_, keeps_execScriptCtl h (Fits.refl _)⟩
  | memMapSet => exact ⟨_, keeps_execMemMapSet h (Fits.refl _)⟩
  | memTrain => exact ⟨_, keeps_execMemTrain h (Fits.refl _)⟩
  | memChRecover => exact ⟨_, keeps_execMemChRecover h (Fits.refl _)⟩
  | memSelfRefresh => exact ⟨_, keeps_execMemSelfRefresh h (Fits.refl _)⟩
  | memSegClear => exact ⟨_, keeps_execMemSegClear h (Fits.refl _)⟩
  | aspaceSet => exact ⟨_, keeps_execAspaceSet h (Fits.refl _)⟩
  | chartMap => exact ⟨_, keeps_execChartMap h (Fits.refl _)⟩
  | chartUnmap => exact ⟨_, keeps_execChartUnmap h (Fits.refl _)⟩
  | chartInvalidate => exact ⟨_, keeps_execChartInvalidate h (Fits.refl _)⟩
  | chartRetry => exact ⟨_, keeps_execChartRetry h (Fits.refl _)⟩
  | chartAbandon => exact ⟨_, keeps_execChartAbandon h (Fits.refl _)⟩
  | dmaChannelSet => exact ⟨_, keeps_execDmaChannelSet h (Fits.refl _)⟩
  | routeLoad => exact ⟨_, keeps_execRouteLoad h (Fits.refl _)⟩
  | jobDefine => exact ⟨_, keeps_execJobDefine h (Fits.refl _)⟩
  | jobStart => exact ⟨_, keeps_execJobStart h (Fits.refl _)⟩
  | haltJob => exact ⟨_, keeps_execHaltJob h (Fits.refl _)⟩
  | siteMask => exact ⟨_, keeps_execSiteMask h (Fits.refl _)⟩
  | siteDrop => exact ⟨_, keeps_execSiteDrop h (Fits.refl _)⟩
  | trapResume => exact ⟨_, keeps_execTrapResume h (Fits.refl _)⟩
  | jobUndefine => exact ⟨_, keeps_execJobUndefine h (Fits.refl _)⟩
  | pinLevels => exact ⟨_, keeps_execPinLevels h (Fits.refl _)⟩
  | pinConfig => exact ⟨_, keeps_execPinConfig h (Fits.refl _)⟩
  | pinPmu => exact ⟨_, keeps_execPinPmu h (Fits.refl _)⟩
  | pinSite => exact ⟨_, keeps_execPinSite h (Fits.refl _)⟩
  | pinClear => exact ⟨_, keeps_execPinClear h (Fits.refl _)⟩
  | almanacTemplate => exact ⟨_, keeps_execAlmanacTemplate h (Fits.refl _)⟩
  | almanacLoad => exact ⟨_, keeps_execAlmanacLoad h (Fits.refl _)⟩
  | almanacCheck => exact ⟨_, keeps_execAlmanacCheck h (Fits.refl _)⟩
  | almanacDeskew => exact ⟨_, keeps_execAlmanacDeskew h (Fits.refl _)⟩
  | sextantMeasure => exact ⟨_, keeps_execSextantMeasure h (Fits.refl _)⟩
  | sextantSelfcheck => exact ⟨_, keeps_execSextantSelfcheck h (Fits.refl _)⟩
  | adcSequence => exact ⟨_, keeps_execAdcSequence h (Fits.refl _)⟩
  | adcTrigger => exact ⟨_, keeps_execAdcTrigger h (Fits.refl _)⟩
  | adcInject => exact ⟨_, keeps_execAdcInject h (Fits.refl _)⟩
  | acqArm => exact ⟨_, keeps_execAcqArm h (Fits.refl _)⟩
  | acqStop => exact ⟨_, keeps_execAcqStop h (Fits.refl _)⟩
  | acqStats => exact ⟨_, keeps_execAcqStats h (Fits.refl _)⟩
  | ddsLoad => exact ⟨_, keeps_execDdsLoad h (Fits.refl _)⟩
  | ddsStart => exact ⟨_, keeps_execDdsStart h (Fits.refl _)⟩
  | ddsStop => exact ⟨_, keeps_execDdsStop h (Fits.refl _)⟩
  | ddsPin => exact ⟨_, keeps_execDdsPin h (Fits.refl _)⟩
  | meridianConfig => exact ⟨_, keeps_execMeridianConfig h (Fits.refl _)⟩
  | meridianEnable => exact ⟨_, keeps_execMeridianEnable h (Fits.refl _)⟩
  | meridianSet => exact ⟨_, keeps_execMeridianSet h (Fits.refl _)⟩
  | meridianAdjust => exact ⟨_, keeps_execMeridianAdjust h (Fits.refl _)⟩
  | milestonePost => exact ⟨_, keeps_execMilestonePost h (Fits.refl _)⟩
  | milestoneCancel => exact ⟨_, keeps_execMilestoneCancel h (Fits.refl _)⟩
  | waylinePort => exact ⟨_, keeps_execWaylinePort h (Fits.refl _)⟩
  | waylineSend => exact ⟨_, keeps_execWaylineSend h (Fits.refl _)⟩
  | waylineForward => exact ⟨_, keeps_execWaylineForward h (Fits.refl _)⟩
  | muster => exact ⟨_, keeps_execMuster h (Fits.refl _)⟩
  | convoyLeave => exact ⟨_, keeps_execConvoyLeave h (Fits.refl _)⟩
  | microcodeLoad => exact ⟨_, keeps_execMicrocodeLoad h (Fits.refl _)⟩
  | microcodeUnload => exact ⟨_, keeps_execMicrocodeUnload h (Fits.refl _)⟩
  | powerDomain => exact ⟨_, keeps_execPowerDomain h (Fits.refl _)⟩
  | thermalSet => exact ⟨_, keeps_execThermalSet h (Fits.refl _)⟩
  | regBatch => exact ⟨_, keeps_execRegBatch h (Fits.refl _)⟩
  | fixDoorbell => exact ⟨_, keeps_execFixDoorbell h (Fits.refl _)⟩
  | fixWritten => exact ⟨_, keeps_execFixWritten h (Fits.refl _)⟩
  | create => exact ⟨_, keeps_execCreate h (Fits.refl _)⟩
  | delete => exact ⟨_, keeps_execDelete h (Fits.refl _)⟩
  | setPrio => exact ⟨_, keeps_execSetPrio h (Fits.refl _)⟩
  | setFlags => exact ⟨_, keeps_execSetFlags h (Fits.refl _)⟩
  | clearFlags => exact ⟨_, keeps_execClearFlags h (Fits.refl _)⟩
  | wait => exact ⟨_, keeps_execWait h (Fits.refl _)⟩
  | delay => exact ⟨_, keeps_execDelay h (Fits.refl _)⟩
  | yield => exact ⟨_, keeps_execYield h (Fits.refl _)⟩
  | post => exact ⟨_, keeps_execPost h (Fits.refl _)⟩
  | take => exact ⟨_, keeps_execTake h (Fits.refl _)⟩
  | exit => exact ⟨_, keeps_execExit h (Fits.refl _)⟩
  | swyHSwitch => exact ⟨_, keeps_execSwyHSwitch h (Fits.refl _)⟩
  | switchyardTick => exact ⟨_, keeps_execSwitchyardTick h (Fits.refl _)⟩
  | delayExpiry => exact ⟨_, keeps_execDelayExpiry h (Fits.refl _)⟩
  | swyTickWrite => exact ⟨_, keeps_execSwyTickWrite h (Fits.refl _)⟩
  | queueDoorbellWrite => exact ⟨_, keeps_execQueueDoorbellWrite h (Fits.refl _)⟩
  | mirrorConsumedWrite => exact ⟨_, keeps_execMirrorConsumedWrite h (Fits.refl _)⟩
  | mirrorWrite => exact ⟨_, keeps_execMirrorWrite h (Fits.refl _)⟩
  | spillRefill => exact ⟨_, keeps_execSpillRefill h (Fits.refl _)⟩
  | dptQCtlWrite => exact ⟨_, keeps_execDptQCtlWrite h (Fits.refl _)⟩
  | blockLock => exact ⟨_, keeps_execBlockLock h (Fits.refl _)⟩
  | lockLoss => exact ⟨_, keeps_execLockLoss h (Fits.refl _)⟩
  | trainReq => exact ⟨_, keeps_execTrainReq h (Fits.refl _)⟩
  | trainStat => exact ⟨_, keeps_execTrainStat h (Fits.refl _)⟩
  | portUp => exact ⟨_, keeps_execPortUp h (Fits.refl _)⟩
  | trainTimeout => exact ⟨_, keeps_execTrainTimeout h (Fits.refl _)⟩
  | idleQuietExpiry => exact ⟨_, keeps_execIdleQuietExpiry h (Fits.refl _)⟩
  | idleEnter => exact ⟨_, keeps_execIdleEnter h (Fits.refl _)⟩
  | idleExit => exact ⟨_, keeps_execIdleExit h (Fits.refl _)⟩
  | ack => exact ⟨_, keeps_execAck h (Fits.refl _)⟩
  | nak => exact ⟨_, keeps_execNak h (Fits.refl _)⟩
  | ackTimer => exact ⟨_, keeps_execAckTimer h (Fits.refl _)⟩
  | replayTimeout => exact ⟨_, keeps_execReplayTimeout h (Fits.refl _)⟩
  | halt => exact ⟨_, keeps_execHalt h (Fits.refl _)⟩
  | go => exact ⟨_, keeps_execGo h (Fits.refl _)⟩
  | agg => exact ⟨_, keeps_execAgg h (Fits.refl _)⟩
  | timeReq => exact ⟨_, keeps_execTimeReq h (Fits.refl _)⟩
  | timeT2 => exact ⟨_, keeps_execTimeT2 h (Fits.refl _)⟩
  | timeT3 => exact ⟨_, keeps_execTimeT3 h (Fits.refl _)⟩
  | timeExchangeTimer => exact ⟨_, keeps_execTimeExchangeTimer h (Fits.refl _)⟩
  | launch => exact ⟨_, keeps_execLaunch h (Fits.refl _)⟩
  | msg => exact ⟨_, keeps_execMsg h (Fits.refl _)⟩
  | msgAck => exact ⟨_, keeps_execMsgAck h (Fits.refl _)⟩
  | fwdCmd => exact ⟨_, keeps_execFwdCmd h (Fits.refl _)⟩
  | fwdCpl => exact ⟨_, keeps_execFwdCpl h (Fits.refl _)⟩
  | bulkWr => exact ⟨_, keeps_execBulkWr h (Fits.refl _)⟩
  | bulkRdReq => exact ⟨_, keeps_execBulkRdReq h (Fits.refl _)⟩
  | bulkRdData => exact ⟨_, keeps_execBulkRdData h (Fits.refl _)⟩
  | bulkAck => exact ⟨_, keeps_execBulkAck h (Fits.refl _)⟩
  | bulkFaultTimeout => exact ⟨_, keeps_execBulkFaultTimeout h (Fits.refl _)⟩
  | musterFlit => exact ⟨_, keeps_execMusterFlit h (Fits.refl _)⟩
  | musterOffsetTimeout => exact ⟨_, keeps_execMusterOffsetTimeout h (Fits.refl _)⟩
  | musterRootTimeout => exact ⟨_, keeps_execMusterRootTimeout h (Fits.refl _)⟩
  | musterVerdictTimeout => exact ⟨_, keeps_execMusterVerdictTimeout h (Fits.refl _)⟩
  | wlnHalt => exact ⟨_, keeps_execWlnHalt h (Fits.refl _)⟩
  | wlnGo => exact ⟨_, keeps_execWlnGo h (Fits.refl _)⟩
  | wlnAggWrite => exact ⟨_, keeps_execWlnAggWrite h (Fits.refl _)⟩
  | ptpMessage => exact ⟨_, keeps_execPtpMessage h (Fits.refl _)⟩
  | syncTimeout => exact ⟨_, keeps_execSyncTimeout h (Fits.refl _)⟩
  | ethTxElement => exact ⟨_, keeps_execEthTxElement h (Fits.refl _)⟩
  | ethLaunch => exact ⟨_, keeps_execEthLaunch h (Fits.refl _)⟩
  | telemetryTimer => exact ⟨_, keeps_execTelemetryTimer h (Fits.refl _)⟩
  | fixRequestDatagram => exact ⟨_, keeps_execFixRequestDatagram h (Fits.refl _)⟩
  | ethLinkChange => exact ⟨_, keeps_execEthLinkChange h (Fits.refl _)⟩
  | msixUnmask => exact ⟨_, keeps_execMsixUnmask h (Fits.refl _)⟩
  | pendingPowerDown => exact ⟨_, keeps_execPendingPowerDown h (Fits.refl _)⟩
  | powerUpDone => exact ⟨_, keeps_execPowerUpDone h (Fits.refl _)⟩
  | powerGood => exact ⟨_, keeps_execPowerGood h (Fits.refl _)⟩
  | bootComplete => exact ⟨_, keeps_execBootComplete h (Fits.refl _)⟩
  | coldReset => exact ⟨_, keeps_execColdReset h (Fits.refl _)⟩
  | warmReset => exact ⟨_, keeps_execWarmReset h (Fits.refl _)⟩
  | perstDeassert => exact ⟨_, keeps_execPerstDeassert h (Fits.refl _)⟩
  | bncBlkReset => exact ⟨_, keeps_execBncBlkReset h (Fits.refl _)⟩
  | thermalSample => exact ⟨_, keeps_execThermalSample h (Fits.refl _)⟩
  | thermalTrip => exact ⟨_, keeps_execThermalTrip h (Fits.refl _)⟩
  | smbThmTemp => exact ⟨_, keeps_execSmbThmTemp h (Fits.refl _)⟩
  | smbThmState => exact ⟨_, keeps_execSmbThmState h (Fits.refl _)⟩
  | smbBncStatus => exact ⟨_, keeps_execSmbBncStatus h (Fits.refl _)⟩
  | smbPwrOn => exact ⟨_, keeps_execSmbPwrOn h (Fits.refl _)⟩
  | smbAlertResponse => exact ⟨_, keeps_execSmbAlertResponse h (Fits.refl _)⟩
  | registerRead => exact ⟨_, keeps_execRegisterRead h (Fits.refl _)⟩
  | pmuClamp => exact ⟨_, keeps_execPmuClamp h (Fits.refl _)⟩
  | edgesReturn => exact ⟨_, keeps_execEdgesReturn h (Fits.refl _)⟩
  | phaseOffsetRemoved => exact ⟨_, keeps_execPhaseOffsetRemoved h (Fits.refl _)⟩
  | flitCrcError => exact ⟨_, keeps_execFlitCrcError h (Fits.refl _)⟩
  | badControlBlock => exact ⟨_, keeps_execBadControlBlock h (Fits.refl _)⟩
  | fecCodeword => exact ⟨_, keeps_execFecCodeword h (Fits.refl _)⟩

/-! ### An idle cycle -/

/-- An upset bit leaves memories and scheduler as they were, and the marks of stored beats in canonical form. -/
theorem State.upset_sound {s : State} (h : s.sound) : s.upset.sound := by
  obtain ⟨⟨hmem, hmarks, hhost⟩, hms, hrings⟩ := h
  refine ⟨⟨hmem, ?_, hhost⟩, hms, hrings⟩
  unfold State.upset
  dsimp only
  split
  · exact nset_wf _ _ hmarks
  · exact hmarks

theorem idleStep_sound {s : State} (h : s.sound) : (idleStep s).sound := State.upset_sound h

/-! ### A step -/

theorem step_idle {s : State} (h : s.pending = []) : step s = .next (idleStep s) := by
  unfold step
  rw [h]

theorem step_command {c : Instr} {rest : List Instr} {s : State} (h : s.pending = c :: rest) :
    step s = exec c { s with pending := rest } := by
  unfold step
  rw [h]

/-- Settles O1. -/
theorem stepRunsTheFrontCommand : Obligations.StepRunsTheFrontCommand := fun _ _ _ h => step_command h

/-- Settles O3: an idle cycle keeps the block sound, and so does each command, by its law. -/
theorem everyStepKeepsTheBlockSound : Obligations.EveryStepKeepsTheBlockSound := by
  intro s t hs hstep
  cases hq : s.pending with
  | nil =>
    rw [step_idle hq] at hstep
    cases hstep
    exact idleStep_sound hs
  | cons c rest =>
    rw [step_command hq] at hstep
    obtain ⟨_, hkeeps⟩ := exec_keeps hstep
    exact hkeeps.sound hs

/-- Settles O6: no command's law lets time or the count of free values go back. -/
theorem timeNeverGoesBack : Obligations.TimeNeverGoesBack := by
  intro c s t h
  obtain ⟨_, hkeeps⟩ := exec_keeps h
  exact ⟨hkeeps.now, hkeeps.free⟩

/-! ### The events of the front end (R5, R69, R77, R82) -/

section Overvoltage
variable {n : PinNo} {mv : Int} {s : State}

theorem exec_overvoltage_outside (h : mv < -1000 ∨ 2500 < mv) : exec (.overvoltage n mv) s = .fault .pinSurvival := if_pos h

theorem exec_overvoltage_inside (hlo : -1000 ≤ mv) (hhi : mv ≤ 2500) :
    exec (.overvoltage n mv) s = .next (s.doOvervoltage n.val mv) := if_neg (by omega)

/-- Inside the protection range, and on a pin whose detector is off, only the comparator sees the voltage (R82). -/
theorem State.doOvervoltage_quiet (h : (-600 ≤ mv ∧ mv ≤ 2100) ∨ (s.feelVoltage n.val (mv * 1000000)).pinState n.val = 0 ∨
      (s.feelVoltage n.val (mv * 1000000)).pinState n.val = 7) :
    s.doOvervoltage n.val mv = s.feelVoltage n.val (mv * 1000000) := if_pos h

theorem State.doOvervoltage_fires (hmv : mv < -600 ∨ 2100 < mv) (h0 : (s.feelVoltage n.val (mv * 1000000)).pinState n.val ≠ 0)
    (h7 : (s.feelVoltage n.val (mv * 1000000)).pinState n.val ≠ 7) :
    s.doOvervoltage n.val mv =
      (((s.feelVoltage n.val (mv * 1000000)).fput fPIN_STATUS_ov n.val 1).bump fPIN_OV_COUNT_count n.val).countFix 20 :=
  if_neg (by omega)

end Overvoltage

/-- With no command running, no command waits for pins to settle. -/
theorem State.endSettled_idle {s : State} (h : s.helm.running = []) : s.endSettled = s := by
  unfold State.endSettled
  rw [h]
  rfl

/-- Settles O7: each event by the cases of its voltage, its pin's state and its PMU's mode. -/
theorem pinEventsActAsTheRulesSay : Obligations.PinEventsActAsTheRulesSay := by
  refine ⟨?fires, ?quiet, ?outside, ?settled, ?clamped, ?unclamped⟩
  case fires =>
    intro n mv s hlo hhi hmv h0 h7
    rw [exec_overvoltage_inside hlo hhi, State.doOvervoltage_fires hmv h0 h7]
  case quiet =>
    intro n mv s hlo hhi h
    rw [exec_overvoltage_inside hlo hhi, State.doOvervoltage_quiet h]
  case outside =>
    intro n mv s h
    exact exec_overvoltage_outside h
  case settled =>
    intro n s h
    rw [exec_levelSettled, execLevelSettled, State.doLevelSettled, State.endSettled_idle]
    exact h
  case clamped =>
    intro n s hmode hst
    exact congrArg _ (if_pos ⟨hmode, hst⟩)
  case unclamped =>
    intro n s h
    exact congrArg _ (if_neg (by omega))

/-- Settles O5: every command's meaning is a next state but the overvoltage's, which is one inside the survival range. -/
theorem onlyOvervoltageStops : Obligations.OnlyOvervoltageStops := by
  intro c s
  cases c with
  | overvoltage n mv =>
    by_cases h : mv < -1000 ∨ 2500 < mv
    · exact Or.inr ⟨n, mv, rfl, exec_overvoltage_outside h⟩
    · exact Or.inl ⟨_, exec_overvoltage_inside (by omega) (by omega)⟩
  | _ => exact Or.inl ⟨_, rfl⟩

/-! ### Reset (R10) -/

/-- Right after reset no memory holds anything, no milestone pends and no ring has a tag to remember. -/
theorem State.reset_sound : State.reset.sound :=
  ⟨⟨⟨.nil, by simp [State.reset]⟩, ⟨.nil, by simp [State.reset]⟩, ⟨.nil, by simp [State.reset]⟩⟩,
    ⟨by simp [State.reset], .nil, by simp [State.reset]⟩, by simp [State.reset]⟩

/-- Settles O4. -/
theorem resetIsSound : Obligations.ResetIsSound := State.reset_sound

/-- After cold reset a register reads its Reset column: no write is stored. -/
theorem State.reset_rd (id : RegId) (i j : Nat) : State.reset.rd id i j = RegKey.reset ⟨id, i, j⟩ := rfl

/-- The reset value of PIN_SITE is the pin's own number. -/
theorem State.reset_pinSite (n : Fin 48) : State.reset.fget fPIN_SITE_site n.val = n.val := by
  revert n
  decide

/-- Settles O60: each register's line of the Reset column, then the meridians and memories of the reset state. -/
theorem resetLeavesTheResetColumn : Obligations.ResetLeavesTheResetColumn := by
  refine ⟨?fixed, fun _ _ => rfl, State.reset_pinSite, fun _ => rfl, fun _ _ => rfl, fun _ _ => rfl, fun _ _ => rfl, fun _ _ => rfl,
    fun _ _ => rfl, fun _ _ => rfl, fun _ _ => rfl, ?zero, rfl, rfl, rfl, ?off, rfl, rfl, rfl⟩
  case fixed =>
    simp [State.reset_rd, RegKey.reset]
  case zero =>
    intro r i j hr
    rw [State.reset_rd, RegKey.reset]
    split
    case h_34 => rfl
    all_goals simp_all
  case off => decide

end Sys2Proof.Machine
end

section
/-! PROOFS. A lost bearing, writes to a meridian's registers, and the latched odometers (R14, R36, R38, R42, R43, R46, R50, R251). -/

namespace Sys2Proof.Machine

/-- Settles O11: the event's one branch that acts. -/
theorem bearingLossHoldsTheMeridian : Obligations.BearingLossHoldsTheMeridian := by
  intro m s hst hkind held spans told waits
  rw [exec_bearingLost, execBearingLost, State.doBearingLost]
  exact congrArg _ (if_pos ⟨hst, hkind⟩)

/-! ### A write to a control register of a meridian -/

/-- A trip leaves the meridians' registers their power (R448, R466). -/
theorem State.takesWrite_merRegId (s : State) (reg : MerReg) : s.takesWrite (merRegId reg).info.base = true := by
  have hon : inAlwaysOn (merRegId reg).info.base = true := by cases reg <;> decide
  unfold State.takesWrite
  rw [hon, Bool.or_true]

/-- The registers of a meridian are in use while a leg that it times runs (R14). -/
theorem State.legUses_merRegId (s : State) (reg : MerReg) (m : Nat) : s.legUses ⟨merRegId reg, m, 0⟩ = s.merInLeg m := by
  cases reg <;> rfl

theorem State.regEffect_merRegId (s : State) (reg : MerReg) (m v : Nat) :
    s.regEffect ⟨⟨merRegId reg, m, 0⟩, 0, (merRegId reg).info.width, v, 0⟩ = s.doMerCtlWrite m reg v := by
  cases reg <;> exact congrArg (s.doMerCtlWrite m _) (fullWord_whole _ _ _ _)

/-- The word that a write stores in a control register, in the state in which the write acts. -/
def State.merWritten (t : State) (m : MerNo) (reg : MerReg) (v : BitVec 64) : State :=
  t.wr (merRegId reg) m.val 0 (BitVec.ofNat 64 (t.merStored m.val reg (v.toNat % 2 ^ (merRegId reg).info.width)))

/-- What the enable bit of a write asks of a meridian that was enabled or not, with a good configuration or another (R38, R50). -/
def State.merEnabled (w : State) (m : Nat) (was good : Bool) : State :=
  match w.fbit fMER_CTL_enable m, was with
  | true, false => if good then w.merStart m else w.fput fMER_CTL_enable m 0
  | false, true => w.merStop m
  | _, _ => w

theorem State.merEnabled_rise {w : State} {m : Nat} (good : Bool) (h : w.fbit fMER_CTL_enable m = true) :
    w.merEnabled m false good = if good then w.merStart m else w.fput fMER_CTL_enable m 0 := by
  unfold State.merEnabled
  rw [h]

theorem State.merEnabled_fall {w : State} {m : Nat} (good : Bool) (h : w.fbit fMER_CTL_enable m = false) :
    w.merEnabled m true good = w.merStop m := by
  unfold State.merEnabled
  rw [h]

theorem State.merEnabled_same {w : State} {m : Nat} {was : Bool} (good : Bool) (h : w.fbit fMER_CTL_enable m = was) :
    w.merEnabled m was good = w := by
  unfold State.merEnabled
  rw [h]
  cases was <;> rfl

theorem MerState.off_bne {x : MerState} (h : x = .off) : (x != .off) = false := bne_eq_false_iff_eq.mpr h
theorem MerState.on_bne {x : MerState} (h : x ≠ .off) : (x != .off) = true := bne_iff_ne.mpr h

section MerCtlWrite
variable {m : MerNo} {reg : MerReg} {v : BitVec 64} {s t : State} (ht : t = s.inOrder (merRegId reg).info.base)
include ht

theorem exec_merCtlWrite_used (h : (t.merInUse m.val || t.merInLeg m.val) = true) :
    exec (.merCtlWrite m reg v) s = .next t.rtWriteDrop := by
  rw [exec_merCtlWrite, execMerCtlWrite, State.rowWrite, ← ht, if_pos (t.takesWrite_merRegId reg), State.regWrite, State.legUses_merRegId]
  split
  · rfl
  next hleg =>
    have huse : t.merInUse m.val = true := by simpa [hleg] using h
    rw [State.regEffect_merRegId, State.doMerCtlWrite, if_pos huse]

section Free
variable (hfree : (t.merInUse m.val || t.merInLeg m.val) = false)
include hfree

theorem exec_merCtlWrite_free :
    exec (.merCtlWrite m reg v) s = .next (t.doMerCtlWrite m.val reg (v.toNat % 2 ^ (merRegId reg).info.width)) := by
  obtain ⟨-, hleg⟩ := Bool.or_eq_false_iff.mp hfree
  have htakes : t.takesRow (merRegId reg) m.val := ⟨t.takesWrite_merRegId reg, (t.legUses_merRegId reg m.val).trans hleg⟩
  rw [exec_merCtlWrite, execMerCtlWrite, State.rowWrite_takes ht htakes, State.regEffect_merRegId]

/-- The enable bit just stored, after the one before it: a 0-to-1 write starts a good configuration's odometer and is taken back on
another, a 1-to-0 write stops it (R38, R50). -/
theorem exec_merCtlWrite_bad
    (hbad : (decide ((t.merWritten m reg v).fget fMER_CTL_kind m.val < 3) && ((t.merWritten m reg v).storedCfg m.val).valid m.val) = false) :
    exec (.merCtlWrite m reg v) s =
      .next (((t.merWritten m reg v).fput fMER_STATUS_cfg_err m.val 1).merEnabled m.val ((t.mer m.val).st != .off) false) := by
  obtain ⟨huse, -⟩ := Bool.or_eq_false_iff.mp hfree
  rw [exec_merCtlWrite_free ht hfree, State.doMerCtlWrite, if_neg (ne_true_of_eq_false huse)]
  unfold State.merWritten at hbad ⊢
  dsimp only
  rw [hbad]
  rfl

theorem exec_merCtlWrite_good {w : State}
    (hgood : (decide ((t.merWritten m reg v).fget fMER_CTL_kind m.val < 3) && ((t.merWritten m reg v).storedCfg m.val).valid m.val) = true)
    (hw : w = ((t.merWritten m reg v).fput fMER_STATUS_cfg_err m.val 0).takeCfg m.val
      (((t.merWritten m reg v).fput fMER_STATUS_cfg_err m.val 0).storedCfg m.val)) :
    exec (.merCtlWrite m reg v) s = .next (w.merEnabled m.val ((t.mer m.val).st != .off) true) := by
  obtain ⟨huse, -⟩ := Bool.or_eq_false_iff.mp hfree
  rw [exec_merCtlWrite_free ht hfree, State.doMerCtlWrite, if_neg (ne_true_of_eq_false huse), hw]
  unfold State.merWritten at hgood ⊢
  dsimp only
  rw [hgood]
  rfl

end Free
end MerCtlWrite

/-- A field written leaves the other registers as they were. -/
theorem State.rd_fput_ne (s : State) {f : Fld} {id : RegId} {n x i j : Nat} (h : id ≠ f.id) :
    (s.fput f n x).rd id i j = s.rd id i j := s.rd_wr_ne _ (Or.inl h)

/-! ### The odometers latched (R36, R46) -/

/-- One odometer latched. -/
def State.snapOdo (s : State) (m : Nat) : State :=
  (s.fput fMER_ODO_CYC_cycles m (s.odo m / fracOne)).fput fMER_ODO_FRAC_fraction m (s.odo m % fracOne)

theorem State.snapOdo_cyc (s : State) (m : Nat) : (s.snapOdo m).fget fMER_ODO_CYC_cycles m = s.odo m / 2 ^ 24 % 2 ^ 64 := by
  rw [State.snapOdo, State.fget_fput_ne _ _ _ (Or.inl (by decide)), State.fget_fput _ _ _ (by decide) (by decide)]
  rfl

theorem State.snapOdo_frac (s : State) (m : Nat) : (s.snapOdo m).fget fMER_ODO_FRAC_fraction m = s.odo m % 2 ^ 24 := by
  rw [State.snapOdo, State.fget_fput _ _ _ (by decide) (by decide)]
  exact Nat.mod_mod _ _

/-- An odometer latched leaves every register but its own two as it was. -/
theorem State.rd_snapOdo_ne (s : State) {m i : Nat} {id : RegId} (j : Nat) (h : (id ≠ .MER_ODO_CYC ∧ id ≠ .MER_ODO_FRAC) ∨ i ≠ m) :
    (s.snapOdo m).rd id i j = s.rd id i j := by
  rw [State.snapOdo, State.fput, State.rd_wr_ne, State.fput, State.rd_wr_ne]
  · exact h.imp And.left Or.inl
  · exact h.imp And.right Or.inl

/-- The odometers of a list latched, in its order. -/
def State.snapOdos (s : State) (ms : List Nat) : State := ms.foldl State.snapOdo s

theorem State.rd_snapOdos_ne {ms : List Nat} {i : Nat} {id : RegId} (j : Nat)
    (h : (id ≠ .MER_ODO_CYC ∧ id ≠ .MER_ODO_FRAC) ∨ i ∉ ms) (s : State) : (s.snapOdos ms).rd id i j = s.rd id i j := by
  induction ms generalizing s with
  | nil => rfl
  | cons m ms ih =>
    have hhead : (id ≠ .MER_ODO_CYC ∧ id ≠ .MER_ODO_FRAC) ∨ i ≠ m := h.imp_right fun hi => List.ne_of_not_mem_cons hi
    exact (ih (h.imp_right fun hi => List.not_mem_of_not_mem_cons hi) (s.snapOdo m)).trans (s.rd_snapOdo_ne j hhead)

/-- Latching reads no register: the readings are those before it. -/
theorem State.odo_snapOdos (ms : List Nat) (s : State) (m : Nat) : (s.snapOdos ms).odo m = s.odo m := by
  induction ms generalizing s with
  | nil => rfl
  | cons k ms ih => exact ih (s.snapOdo k)

theorem State.wallTime_snapOdos (ms : List Nat) (s : State) : (s.snapOdos ms).wallTime = s.wallTime := by
  induction ms generalizing s with
  | nil => rfl
  | cons k ms ih => exact ih (s.snapOdo k)

theorem State.fget_snapOdos {ms : List Nat} {m : Nat} (hm : m ∈ ms) (s : State) :
    (s.snapOdos ms).fget fMER_ODO_CYC_cycles m = s.odo m / 2 ^ 24 % 2 ^ 64 ∧
    (s.snapOdos ms).fget fMER_ODO_FRAC_fraction m = s.odo m % 2 ^ 24 := by
  induction ms generalizing s with
  | nil => cases hm
  | cons k ms ih =>
    by_cases hlater : m ∈ ms
    · exact ih hlater (s.snapOdo k)
    · obtain rfl : m = k := (List.mem_cons.mp hm).resolve_right hlater
      have hrd (id : RegId) : ((s.snapOdo m).snapOdos ms).rd id m 0 = (s.snapOdo m).rd id m 0 :=
        State.rd_snapOdos_ne 0 (Or.inr hlater) _
      rw [← s.snapOdo_cyc m, ← s.snapOdo_frac m]
      unfold State.fget
      exact ⟨congrArg (fun x : Word => bits x.toNat _ _) (hrd _), congrArg (fun x : Word => bits x.toNat _ _) (hrd _)⟩

/-- The wall time latched (R46). -/
def State.snapWall (s : State) : State :=
  ((s.fput fMER_WALL_SEC_seconds 0 s.wallSec).fput fMER_WALL_SUB_ns 0 s.wallSub).fput fMER_WALL_SUB_frac 0 (s.odo 7 % fracOne / 256)

theorem State.snapWall_sec (s : State) : s.snapWall.fget fMER_WALL_SEC_seconds = s.wallTime / 2 ^ 24 / 1000000000 % 2 ^ 64 := by
  rw [State.snapWall, State.fget_fput_ne _ _ _ (by decide), State.fget_fput_ne _ _ _ (by decide),
    State.fget_fput _ _ _ (by decide) (by decide)]
  exact Nat.mod_mod _ _

theorem State.snapWall_ns (s : State) : s.snapWall.fget fMER_WALL_SUB_ns = s.wallTime / 2 ^ 24 % 1000000000 := by
  have hbeside : s.snapWall.fget fMER_WALL_SUB_ns = ((s.fput fMER_WALL_SEC_seconds 0 s.wallSec).fput fMER_WALL_SUB_ns 0
      s.wallSub).fget fMER_WALL_SUB_ns := State.fget_fput_beside _ _ _ rfl (by decide) (by decide) (by decide)
  rw [hbeside, State.fget_fput _ _ _ (by decide) (by decide)]
  show s.wallTime / 2 ^ 24 % 1000000000 % 2 ^ 32 = _
  omega

theorem State.snapWall_frac (s : State) : s.snapWall.fget fMER_WALL_SUB_frac = s.odo 7 % 2 ^ 24 / 256 := by
  rw [State.snapWall, State.fget_fput _ _ _ (by decide) (by decide)]
  show s.odo 7 % 2 ^ 24 / 256 % 2 ^ 16 = _
  omega

theorem State.rd_snapWall_ne (s : State) {id : RegId} (i j : Nat) (hsec : id ≠ .MER_WALL_SEC) (hsub : id ≠ .MER_WALL_SUB) :
    s.snapWall.rd id i j = s.rd id i j := by
  rw [State.snapWall, State.rd_fput_ne _ hsub, State.rd_fput_ne _ hsub, State.rd_fput_ne _ hsec]

theorem State.doMerSnap_eq (s : State) (mask : Nat) :
    s.doMerSnap mask = if bitAt mask 7 then (s.snapOdos (maskBits 8 mask)).snapWall else s.snapOdos (maskBits 8 mask) := rfl

theorem mem_maskBits {n v k : Nat} : k ∈ maskBits n v ↔ k < n ∧ v.testBit k = true := by
  simp [maskBits, bitAt]

/-- What lies beside the wall time's registers is latched before it. -/
theorem State.rd_doMerSnap (s : State) (mask : Nat) {id : RegId} (i j : Nat) (hsec : id ≠ .MER_WALL_SEC) (hsub : id ≠ .MER_WALL_SUB) :
    (s.doMerSnap mask).rd id i j = (s.snapOdos (maskBits 8 mask)).rd id i j := by
  rw [State.doMerSnap_eq]
  split
  · exact State.rd_snapWall_ne _ i j hsec hsub
  · rfl

/-- MER_SNAP acts on the state that the writes before it leave. -/
theorem exec_merSnap_eq (mask : BitVec 8) (s : State) : exec (.merSnap mask) s = .next (s.deliverAll.doMerSnap mask.toNat) := by
  have htakes : s.deliverAll.takesRow .MER_SNAP 0 := ⟨by unfold State.takesWrite; exact Bool.or_true _, rfl⟩
  rw [exec_merSnap, execMerSnap, State.rowWrite_takes (t := s.deliverAll) rfl htakes]
  show Host.Outcome.next (s.deliverAll.doMerSnap (fullWord _ _ _ % 256)) = _
  rw [fullWord_whole]
  have hmask : mask.toNat % 2 ^ RegId.MER_SNAP.info.width % 256 = mask.toNat := by
    have hlt := mask.isLt
    show mask.toNat % 2 ^ 32 % 256 = _
    omega
  rw [hmask]

/-- Settles O12: a write of a control register by whether the registers then hold a configuration; MER_SNAP odometer by odometer. -/
theorem meridianWritesAct : Obligations.MeridianWritesAct := by
  refine ⟨?used, ?bad, ?good, ?snap⟩
  case used =>
    intro m reg v s t ht h
    exact exec_merCtlWrite_used ht h
  case bad =>
    intro m reg v s t ht hfree u hbad w
    have hexec : exec (.merCtlWrite m reg v) s = .next (w.merEnabled m.val ((t.mer m.val).st != .off) false) :=
      exec_merCtlWrite_bad ht hfree hbad
    rw [hexec]
    refine ⟨fun hst hen => ?_, fun hst hen => ?_, fun hst hen => ?_, fun hst hen => ?_⟩
    · rw [MerState.off_bne hst, State.merEnabled_rise _ hen, if_neg Bool.false_ne_true]
    · rw [MerState.off_bne hst, State.merEnabled_same _ hen]
    · rw [MerState.on_bne hst, State.merEnabled_same _ hen]
    · rw [MerState.on_bne hst, State.merEnabled_fall _ hen]
  case good =>
    intro m reg v s t ht hfree u hkind hvalid w
    have hgood : (decide (u.fget fMER_CTL_kind m.val < 3) && (u.storedCfg m.val).valid m.val) = true := by simp [hkind, hvalid]
    rw [exec_merCtlWrite_good ht hfree hgood (w := w) rfl]
    refine ⟨fun hst hen => ?_, fun hst hen => ?_, fun hst hen => ?_, fun hst hen => ?_⟩
    · rw [MerState.off_bne hst, State.merEnabled_rise _ hen, if_pos rfl]
    · rw [MerState.off_bne hst, State.merEnabled_same _ hen]
    · rw [MerState.on_bne hst, State.merEnabled_same _ hen]
    · rw [MerState.on_bne hst, State.merEnabled_fall _ hen]
  case snap =>
    rintro mask s _ rfl
    refine ⟨_, exec_merSnap_eq mask s, ?_, ?_, ?_, ?_, ?_⟩
    · intro m hm hbit
      have hget := State.fget_snapOdos (mem_maskBits.mpr ⟨hm, hbit⟩) s.deliverAll
      unfold State.fget at hget ⊢
      rw [State.rd_doMerSnap _ _ _ _ (by decide) (by decide), State.rd_doMerSnap _ _ _ _ (by decide) (by decide)]
      exact hget
    · intro m _ hbit
      have hnot : m ∉ maskBits 8 mask.toNat := by simp [mem_maskBits, hbit]
      rw [State.rd_doMerSnap _ _ _ _ (by decide) (by decide), State.rd_doMerSnap _ _ _ _ (by decide) (by decide)]
      exact ⟨State.rd_snapOdos_ne 0 (Or.inr hnot) _, State.rd_snapOdos_ne 0 (Or.inr hnot) _⟩
    · intro hbit
      rw [State.doMerSnap_eq, bitAt, if_pos hbit, State.snapWall_sec, State.snapWall_ns, State.snapWall_frac,
        State.wallTime_snapOdos, State.odo_snapOdos]
      exact ⟨rfl, rfl, rfl⟩
    · intro hbit
      rw [State.doMerSnap_eq, bitAt, if_neg (ne_true_of_eq_false hbit)]
      exact ⟨State.rd_snapOdos_ne 0 (Or.inl (by decide)) _, State.rd_snapOdos_ne 0 (Or.inl (by decide)) _⟩
    · exact (keeps_doMerSnap (Fits.refl _) (Keeps.refl _ _)).changes (by decide +kernel)

end Sys2Proof.Machine
end

section
/-! PROOFS. The commands on a meridian (R38 to R40, R46, R49 to R51). -/

namespace Sys2Proof.Machine

section Bodies
variable {s : State} {k : Packet}

/-! ### MERIDIAN_CONFIG -/

section Config
variable (hm : u8 k 0 < 8) (hkind : u8 k 1 < 3) (hpol : u8 k 4 < 2) (hallowed : kindAllowed (u8 k 0) (cfgKind k) = true)
include hm hkind hpol hallowed

theorem bodyMeridianConfig_busy (huse : s.merInUse (u8 k 0) = true) : bodyMeridianConfig k s = fail s .meridianBusy := by
  unfold bodyMeridianConfig
  dsimp only
  rw [if_neg (by omega), if_neg (by simp [hallowed]), if_pos huse]

theorem bodyMeridianConfig_good (huse : s.merInUse (u8 k 0) = false) (hvalid : (packetCfg k).valid (u8 k 0) = true)
    (hmer0 : u8 k 0 = 0 → u64 k 8 = 0x1000000000) :
    bodyMeridianConfig k s =
      ok (((s.storeCfg k).fput fMER_STATUS_cfg_err (u8 k 0) 0).takeCfg (u8 k 0) ((s.storeCfg k).storedCfg (u8 k 0))) := by
  unfold bodyMeridianConfig
  dsimp only
  rw [if_neg (by omega), if_neg (by simp [hallowed]), if_neg (by simp [huse]), if_neg (by simpa [hvalid] using hmer0)]

end Config

/-! ### MERIDIAN_ENABLE -/

theorem bodyMeridianEnable_start (hm : u8 k 0 < 8) (hen : u8 k 1 = 1) (hoff : (s.mer (u8 k 0)).st = .off)
    (herr : s.fbit fMER_STATUS_cfg_err (u8 k 0) = false) (hvalid : (s.storedCfg (u8 k 0)).valid (u8 k 0) = true)
    (hstart : u64 k 8 ≠ 0) :
    bodyMeridianEnable k s =
      (let w := (s.forgetWraps (u8 k 0)).fput fMER_START_cycles (u8 k 0) (u64 k 8)
       ok ((w.takeCfg (u8 k 0) (w.storedCfg (u8 k 0))).merStart (u8 k 0))) := by
  unfold bodyMeridianEnable
  dsimp only
  rw [if_neg (by omega), if_pos hen, if_neg (not_not_intro hoff), if_neg (by simp [herr, hvalid]), if_neg hstart]

theorem bodyMeridianEnable_stop (h0 : 0 < u8 k 0) (hm : u8 k 0 < 8) (hen : u8 k 1 = 0) (hon : (s.mer (u8 k 0)).st ≠ .off)
    (hjobs : s.acceptedJobs.any (fun e => e.2.meridian == u8 k 0) = false) (hconvoy : u8 k 0 = 7 → s.mustered = false) :
    bodyMeridianEnable k s = ok (s.merStop (u8 k 0)) := by
  have hfree : ¬(s.acceptedJobs.any (fun e => e.2.meridian == u8 k 0) = true ∨ u8 k 0 = 7 ∧ s.mustered = true) := by
    rw [hjobs]
    rintro (h | ⟨h7, h⟩)
    · cases h
    · exact Bool.false_ne_true ((hconvoy h7).symm.trans h)
  unfold bodyMeridianEnable
  dsimp only
  rw [if_neg (by omega), if_neg (by omega), if_neg (by omega), if_neg hfree, if_neg hon]

theorem bodyMeridianEnable_mer0 (hm : u8 k 0 = 0) (hen : u8 k 1 = 0) : bodyMeridianEnable k s = fail s .paramInvalid := by
  unfold bodyMeridianEnable
  dsimp only
  rw [if_neg (by omega), if_neg (by omega), if_pos hm]

/-! ### MERIDIAN_SET -/

section Set
variable (hm : u8 k 0 < 8) (hns : u8 k 0 = 7 → u32 k 16 < 1000000000)
include hm hns

theorem bodyMeridianSet_busy (huse : s.merInUse (u8 k 0) = true) : bodyMeridianSet k s = fail s .meridianBusy := by
  unfold bodyMeridianSet
  dsimp only
  rw [if_neg (by omega), if_pos huse]

theorem bodyMeridianSet_off (huse : s.merInUse (u8 k 0) = false) (hoff : (s.mer (u8 k 0)).st = .off) :
    bodyMeridianSet k s =
      ok ((s.setMer (u8 k 0) { s.mer (u8 k 0) with wraps := setCycles k / 2 ^ 64 }).fput fMER_START_cycles (u8 k 0) (setCycles k)) := by
  unfold bodyMeridianSet
  dsimp only
  rw [if_neg (by omega), if_neg (by simp [huse]), if_pos hoff]

theorem bodyMeridianSet_step (huse : s.merInUse (u8 k 0) = false) (hon : (s.mer (u8 k 0)).st ≠ .off) :
    bodyMeridianSet k s = ok (s.merStep (u8 k 0) (setCycles k * 2 ^ 24 + setFrac k)) := by
  unfold bodyMeridianSet
  dsimp only
  rw [if_neg (by omega), if_neg (by simp [huse]), if_neg hon, fracOne]

end Set

/-! ### MERIDIAN_ADJUST -/

section Adjust
variable (hm : u8 k 0 < 8) (hon : (s.mer (u8 k 0)).st ≠ .off)
include hm hon

theorem bodyMeridianAdjust_tracked (hkind : (s.mer (u8 k 0)).cfg.kind = .tracked) :
    bodyMeridianAdjust k s = fail s .meridianKind := by
  unfold bodyMeridianAdjust
  dsimp only
  rw [if_neg (by omega), if_neg hon, if_pos hkind]

theorem bodyMeridianAdjust_slew (hkind : (s.mer (u8 k 0)).cfg.kind ≠ .tracked) :
    bodyMeridianAdjust k s = (s.merSlew (u8 k 0) (s32 k 4) (s64 k 8),
      .done (if clampPpb (s32 k 4) = s32 k 4 then .ok else .slewClamped) 0 0 false false 1) := by
  unfold bodyMeridianAdjust
  dsimp only
  rw [if_neg (by omega), if_neg hon, if_neg hkind]

end Adjust
end Bodies

/-- A frequency term is taken as it is just when it lies within R49's limits. -/
theorem clampPpb_eq_self_iff (f : Int) : clampPpb f = f ↔ -200000 ≤ f ∧ f ≤ 200000 := by
  unfold clampPpb clampInt
  omega

/-- Settles O13: each clause is the command's body in the state begun, ended as the front end ends it. -/
theorem meridianCommandsAct : Obligations.MeridianCommandsAct := by
  refine ⟨?config, ?enable, ?disable, ?set, ?adjust, ?configBusy, ?setBusy, ?adjustTracked, ?mer0⟩
  case config =>
    rintro s _ k hacc rfl hm hkind hpol hallowed huse hvalid hmer0
    exact congrArg Host.Outcome.next (State.runCommand_completes hacc rfl (bodyMeridianConfig_good hm hkind hpol hallowed huse hvalid hmer0))
  case enable =>
    rintro s _ k hacc rfl hm hen hoff herr hvalid hstart
    exact congrArg Host.Outcome.next (State.runCommand_completes hacc rfl (bodyMeridianEnable_start hm hen hoff herr hvalid hstart))
  case disable =>
    rintro s _ k hacc rfl h0 hm hen hon hjobs hconvoy
    exact congrArg Host.Outcome.next (State.runCommand_completes hacc rfl (bodyMeridianEnable_stop h0 hm hen hon hjobs hconvoy))
  case set =>
    rintro s _ k hacc rfl hm hns huse
    exact ⟨fun hoff => congrArg Host.Outcome.next (State.runCommand_completes hacc rfl (bodyMeridianSet_off hm hns huse hoff)),
      fun hon => congrArg Host.Outcome.next (State.runCommand_completes hacc rfl (bodyMeridianSet_step hm hns huse hon))⟩
  case adjust =>
    rintro s _ k hacc rfl hm hon hkind
    have hbody := bodyMeridianAdjust_slew hm hon hkind
    refine ⟨fun hlo hhi => ?_, fun hout => ?_⟩
    · rw [if_pos ((clampPpb_eq_self_iff _).mpr ⟨hlo, hhi⟩)] at hbody
      exact congrArg Host.Outcome.next (State.runCommand_completes hacc rfl hbody)
    · rw [if_neg fun h => by have := (clampPpb_eq_self_iff _).mp h; omega] at hbody
      exact congrArg Host.Outcome.next (State.runCommand_ends hacc rfl hbody)
  case configBusy =>
    rintro s _ k hacc rfl hm hkind hpol hallowed huse
    exact congrArg Host.Outcome.next (State.runCommand_ends hacc rfl (bodyMeridianConfig_busy hm hkind hpol hallowed huse))
  case setBusy =>
    rintro s _ k hacc rfl hm hns huse
    exact congrArg Host.Outcome.next (State.runCommand_ends hacc rfl (bodyMeridianSet_busy hm hns huse))
  case adjustTracked =>
    rintro s _ k hacc rfl hm hon hkind
    exact congrArg Host.Outcome.next (State.runCommand_ends hacc rfl (bodyMeridianAdjust_tracked hm hon hkind))
  case mer0 =>
    rintro s k hacc hm hen
    exact congrArg Host.Outcome.next (State.runCommand_ends hacc rfl (bodyMeridianEnable_mer0 hm hen))

end Sys2Proof.Machine
end

section
/-! PROOFS. Milestones that are posted, that fire, and that act at the package's pins and at a queue (R52 to R55, R57, R500). -/

namespace Sys2Proof.Machine

/-! ### Firing (R53, R55, R57) -/

/-- A milestone that fires: time moves to its instant, and the scheduler holds it no more. -/
def State.msFired (s : State) (x : Milestone) (t : Nat) : State :=
  { (s.advance t).msRemove x.id with ms := { ((s.advance t).msRemove x.id).ms with fired := x.id :: s.ms.fired } }

/-- What a firing tells: at its target, or now where a late one's target is past (R54). -/
def State.firedOf (s : State) (x : Milestone) (t : Nat) : Fired :=
  ⟨x, if x.foundLate && decide (t < s.now) then (s.msFired x t).now else t,
    if x.foundLate && decide (t < s.now) then (s.msFired x t).odo x.mer else x.at88⟩

section Fire
variable {s : State} {x : Milestone} (hfind : s.ms.pending.find? (fun y => y.id == x.id && y.action == x.action) = some x)
include hfind

/-- A milestone does not fire before another of its meridian and reading that was committed earlier (R55). -/
theorem State.msFire_waits (h : (s.ms.pending.takeWhile (fun y => y.id != x.id)).any (fun y => y.mer == x.mer && y.at88 == x.at88) = true) :
    s.msFire x.id x.action = none := by
  unfold State.msFire State.msFireAt
  rw [hfind]
  exact if_pos ⟨rfl, h⟩

section First
variable (hfirst : (s.ms.pending.takeWhile (fun y => y.id != x.id)).any (fun y => y.mer == x.mer && y.at88 == x.at88) = false)
include hfirst

theorem State.msFire_standing (h : (s.mer x.mer).instantOf x.at88 = none) : s.msFire x.id x.action = none := by
  unfold State.msFire State.msFireAt
  rw [hfind]
  refine (if_neg (fun hw => Bool.false_ne_true (hfirst.symm.trans hw.2))).trans ?_
  beta_reduce
  rw [h]

theorem State.msFire_reached {t : Nat} (h : (s.mer x.mer).instantOf x.at88 = some t) :
    s.msFire x.id x.action = some (s.msFired x t, s.firedOf x t) := by
  unfold State.msFire State.msFireAt
  rw [hfind]
  refine (if_neg (fun hw => Bool.false_ne_true (hfirst.symm.trans hw.2))).trans ?_
  beta_reduce
  rw [h]
  rfl

end First
end Fire

theorem State.msFired_now (s : State) (x : Milestone) (t : Nat) : (s.msFired x t).now = max s.now t := rfl

theorem State.firedOf_ms (s : State) (x : Milestone) (t : Nat) : (s.firedOf x t).ms = x := rfl

theorem State.firedOf_onTime {s : State} {x : Milestone} (t : Nat) (h : x.foundLate = false) : s.firedOf x t = ⟨x, t, x.at88⟩ := by
  unfold State.firedOf
  rw [h]
  rfl

/-- A late milestone fires at the instant to which time has moved. -/
theorem State.firedOf_late {s : State} {x : Milestone} (t : Nat) (h : x.foundLate = true) :
    (s.firedOf x t).time = (s.msFired x t).now := by
  unfold State.firedOf
  rw [h, Bool.true_and]
  dsimp only
  split
  · rfl
  next hpast =>
    have hle : s.now ≤ t := Nat.le_of_not_lt (by simpa using hpast)
    exact (Nat.max_eq_right hle).symm

theorem State.msFired_removed (s : State) (x : Milestone) (t : Nat) : ∀ y ∈ (s.msFired x t).ms.pending, y.id ≠ x.id := by
  intro y hy
  simpa using (List.mem_filter.mp hy).2

/-- Settles O14: a milestone before which none is due fires when its instant comes, and any other stays. -/
theorem milestoneFiresAtItsTarget : Obligations.MilestoneFiresAtItsTarget := by
  intro s x hfind
  refine ⟨fun hfirst => ⟨fun t ht => ?_, fun ht => State.msFire_standing hfind hfirst ht⟩, fun hearlier => State.msFire_waits hfind hearlier⟩
  have hfire := State.msFire_reached hfind hfirst ht
  refine ⟨_, _, hfire, s.firedOf_ms x t, s.msFired_now x t, fun hon => ?_, State.firedOf_late t, s.msFired_removed x t,
    List.mem_cons_self, (keeps_msFire_eq hfire (Fits.refl _) (Keeps.refl _ s)).changes (by decide +kernel)⟩
  rw [State.firedOf_onTime t hon]
  exact ⟨rfl, rfl⟩

/-! ### Posting (R52, R54) -/

/-- A GPIO milestone of a meridian other than MER7, committed in time, pends with the next id. -/
theorem bodyMilestonePost_gpio {s : State} {k : Packet} (hm : u8 k 0 < 7) (ha : u8 k 1 = 12) (hpol : u8 k 2 < 2) (htarget : u16 k 4 < 8)
    (hq : u16 k 6 < 16384) (hfrac : u32 k 16 < 2 ^ 24) (harg : u32 k 20 < 2) (hroom : s.ms.pending.length < 4096)
    (hon : (s.mer (u8 k 0)).st ≠ .off) (htime : s.odo (u8 k 0) + s.msLead (u8 k 0) 12 ≤ u64 k 8 * 2 ^ 24 + u32 k 16) :
    bodyMilestonePost k s = okResult (s.msAdd ⟨0, u8 k 0, 12, u16 k 4, u8 k 2 == 1, false, u16 k 6,
      u64 k 8 * 2 ^ 24 + u32 k 16, u32 k 20, u64 k 24, jobOf k⟩) s.ms.nextId := by
  have htargetOk : msTargetOk 12 (u16 k 4) (u32 k 20) = true := decide_eq_true ⟨htarget, harg⟩
  unfold bodyMilestonePost
  dsimp only
  rw [ha, if_neg (by omega), if_neg (by decide), if_neg (by simp [htargetOk]), if_neg (by omega), if_neg (by omega), if_neg (by decide)]
  unfold State.postMilestone
  rw [ha, State.msCommit_ok hroom hon (by simpa [fracOne] using htime)]
  rfl

/-- Settles O15: a post is its body in the state begun, and each action follows its own milestone's firing. -/
theorem milestonesArePostedAndAct : Obligations.MilestonesArePostedAndAct := by
  refine ⟨?post, fun id f s u => ⟨fun h => ?_, fun h => ?_, fun h => ?_⟩⟩
  case post =>
    rintro s _ k hacc rfl hm ha hpol htarget hq hfrac harg hroom hon htime
    exact congrArg Host.Outcome.next (State.runCommand_completes hacc rfl
      (bodyMilestonePost_gpio hm ha hpol htarget hq hfrac harg hroom hon htime))
  · rw [exec_msMsyncOut, execMsMsyncOut, State.doMsMsyncOut, h]
  · rw [exec_msGpio, execMsGpio, State.doMsGpio, h]
  · rw [exec_msDepotPost, execMsDepotPost, State.doMsDepotPost, h]

end Sys2Proof.Machine
end

section
/-! PROOFS. Register writes and reads of the host (R7 to R9, R12, R14, R438, R439). -/

namespace Sys2Proof.Machine

/-! ### A register write (R9, R12, R438) -/

theorem State.doRegisterWrite_held {s : State} (a : Nat) (bs : List Byte) (bad : Bool) (h : s.host.perst = true) :
    s.doRegisterWrite a bs bad = s := if_pos h

section Link
variable {s : State} {a : Nat} {bs : List Byte} (hlink : s.host.perst = false)
include hlink

theorem State.doRegisterWrite_poisoned : s.doRegisterWrite a bs true = s.bump fPCI_ERR_poisoned_in :=
  (if_neg (ne_true_of_eq_false hlink)).trans (if_pos rfl)

section Block
variable (hblock : a < 0x2000000)
include hblock

theorem State.doRegisterWrite_block :
    s.doRegisterWrite a bs false = if accessOk a bs.length = false then s.accessErr else s.arriveWrite a bs.length (ofBytes bs) :=
  (if_neg (ne_true_of_eq_false hlink)).trans ((if_neg Bool.false_ne_true).trans (if_neg (Nat.not_le.mpr hblock)))

theorem State.doRegisterWrite_unsupported (hok : accessOk a bs.length = false) : s.doRegisterWrite a bs false = s.accessErr :=
  (State.doRegisterWrite_block hlink hblock).trans (if_pos hok)

theorem State.doRegisterWrite_supported (hok : accessOk a bs.length = true) :
    s.doRegisterWrite a bs false = s.arriveWrite a bs.length (ofBytes bs) :=
  (State.doRegisterWrite_block hlink hblock).trans (if_neg (ne_false_of_eq_true hok))

end Block
end Link

theorem State.arriveWrite_dataPlane (s : State) {a : Nat} (n v : Nat) (h : inDataPlane a = true) :
    s.arriveWrite a n v = { s with host := { s.host with deliver := s.host.deliver ++ [⟨a, n, v⟩] } } := if_pos h

theorem State.arriveWrite_elsewhere (s : State) {a : Nat} (n v : Nat) (h : inDataPlane a = false) :
    s.arriveWrite a n v = s.applyWrite a n v := if_neg (ne_true_of_eq_false h)

/-- The Almanac's and the lists' apertures lie in the data plane. -/
theorem apertures_inDataPlane {a : Nat} (h : inDataPlane a = false) : inAlmanac a = false ∧ inDdsList a = false := by
  simp only [inDataPlane, inAlmanac, inDdsList, decide_eq_false_iff_not] at h ⊢
  omega

/-- An access that falls in one register writes that register (R7, R9). -/
theorem State.applyWrite_one {s : State} {a n v : Nat} {p : Piece} (hpower : s.bnc.tripped = false) (halm : inAlmanac a = false)
    (hdds : inDdsList a = false) (hmsix : inMsixTable a = false) (hp : pieces a n v = [p]) : s.applyWrite a n v = s.regWrite p := by
  unfold State.applyWrite
  rw [if_neg (by simp [hpower]), if_neg (by simp [halm]), if_neg (by simp [hdds]), if_neg (by simp [hmsix]), hp]
  rfl

theorem State.regWrite_free {s : State} {p : Piece} (h : s.legUses p.key = false) : s.regWrite p = s.regEffect p :=
  if_neg (ne_true_of_eq_false h)

theorem State.regWrite_used {s : State} {p : Piece} (h : s.legUses p.key = true) : s.regWrite p = s.rtWriteDrop := if_pos h

/-- Registers without an effect of their own store what is written (R7). -/
theorem State.regEffect_stores (s : State) {p : Piece}
    (h : p.key.id ∈ [RegId.DEV_IRQ, .HLM_FIX_ADDR, .HLM_FIX_CTL, .MEM_EVQ, .ETH_TXQ, .THM_EVQ]) : s.regEffect p = s.storeWrite p := by
  simp only [List.mem_cons, List.not_mem_nil, or_false] at h
  unfold State.regEffect
  dsimp only
  rcases h with h | h | h | h | h | h <;> rw [h]

/-- Settles O17: a write by the checks it passes on arrival, and the oldest one that waits by the register it names. -/
theorem registerWritesAct : Obligations.RegisterWritesAct := by
  refine ⟨?dataPlane, ?elsewhere, ?unsupported, ?poisoned, ?held, ?delivered⟩
  case dataPlane =>
    intro addr bs s hlink hblock hok hplane
    rw [exec_registerWrite, execRegisterWrite, State.doRegisterWrite_supported hlink hblock hok, State.arriveWrite_dataPlane _ _ _ hplane]
  case elsewhere =>
    intro addr bs p s hlink hblock hok hplane hpower hmsix hp hfree
    obtain ⟨halm, hdds⟩ := apertures_inDataPlane hplane
    have hexec : exec (.registerWrite addr bs false) s = .next (s.regEffect p) := by
      rw [exec_registerWrite, execRegisterWrite, State.doRegisterWrite_supported hlink hblock hok,
        State.arriveWrite_elsewhere _ _ _ hplane, State.applyWrite_one hpower halm hdds hmsix hp, State.regWrite_free hfree]
    exact ⟨hexec, fun hid => hexec.trans (congrArg _ (s.regEffect_stores hid))⟩
  case unsupported =>
    intro addr bs s hlink hblock hok
    rw [exec_registerWrite, execRegisterWrite, State.doRegisterWrite_unsupported hlink hblock hok]
  case poisoned =>
    intro addr bs s hlink
    rw [exec_registerWrite, execRegisterWrite, State.doRegisterWrite_poisoned hlink]
  case held =>
    intro addr bs bad s hheld
    rw [exec_registerWrite, execRegisterWrite, State.doRegisterWrite_held _ _ _ hheld]
  case delivered =>
    intro s u w rest p hq hu hpower halm hdds hmsix hp
    have hon : u.bnc.tripped = false := hu ▸ hpower
    have hexec : exec .immediateMilestone s = .next (u.regWrite p) := by
      rw [exec_immediateMilestone, execImmediateMilestone, State.doDeliver, hq, ← State.applyWrite_one hon halm hdds hmsix hp, hu]
    exact ⟨fun hfree => hexec.trans (congrArg _ (State.regWrite_free hfree)),
      fun hused => hexec.trans (congrArg _ (State.regWrite_used hused))⟩

/-! ### A register read (R7, R8, R438, R439) -/

/-- An access that falls in one register reads that register. -/
theorem State.readValue_one {s : State} {a n : Nat} {p : Piece} (hblock : inBlock a = true) (halm : inAlmanac a = false)
    (hdds : inDdsList a = false) (hmsix : inMsixTable a = false) (hpba : inMsixPba a = false) (hp : pieces a n 0 = [p])
    (hsrc : p.src = 0) :
    s.readValue a n = (s.clearRead p, bits (s.live p.key.id (p.key.id.unit p.key.i) p.key.j) (p.lo + p.n - 1) p.lo) := by
  unfold State.readValue
  rw [if_neg (by simp [hblock]), if_neg (by simp [halm]), if_neg (by simp [hdds]), if_neg (by simp [hmsix]), if_neg (by simp [hpba]), hp]
  simp [hsrc, State.regRead]

section Read
variable {s : State} {a n : Nat} (hlink : s.host.perst = false)
include hlink

theorem State.doRegisterRead_doorbells (h : 0x2000000 ≤ a) : s.doRegisterRead a n = s.deliverAll.readAnswer n 0 :=
  (if_neg (ne_true_of_eq_false hlink)).trans (if_pos h)

theorem State.doRegisterRead_unsupported (h : a < 0x2000000) (hok : accessOk a n = false) :
    s.doRegisterRead a n = s.deliverAll.accessErr.readAnswer 0 0 :=
  (if_neg (ne_true_of_eq_false hlink)).trans ((if_neg (Nat.not_le.mpr h)).trans (if_pos hok))

theorem State.doRegisterRead_supported (h : a < 0x2000000) (hok : accessOk a n = true) :
    s.doRegisterRead a n = (s.deliverAll.readValue a n).1.readAnswer n (s.deliverAll.readValue a n).2 :=
  (if_neg (ne_true_of_eq_false hlink)).trans ((if_neg (Nat.not_le.mpr h)).trans (if_neg (ne_false_of_eq_true hok)))

end Read

/-- Settles O18: a read by its size and by the range that it falls in. -/
theorem registerReadsAnswer : Obligations.RegisterReadsAnswer := by
  refine ⟨?one, ?unsupported, ?doorbells⟩
  case one =>
    rintro addr size p s _ hlink rfl hblock hok hin halm hdds hmsix hpba hp hsrc _
    rw [exec_registerRead, execRegisterRead, State.doRegisterRead_supported hlink hblock hok,
      State.readValue_one hin halm hdds hmsix hpba hp hsrc]
  case unsupported =>
    intro addr size s hlink hblock hok
    rw [exec_registerRead, execRegisterRead, State.doRegisterRead_unsupported hlink hblock hok]
  case doorbells =>
    intro addr size s hlink hbells
    rw [exec_registerRead, execRegisterRead, State.doRegisterRead_doorbells hlink hbells]

end Sys2Proof.Machine
end

section
/-! PROOFS. Doorbell writes of the host (R27, R358, R362 to R364, R374, R397, R398). -/

namespace Sys2Proof.Machine

/-! ### Bytes put into a number (R6) -/

theorem length_bytesOf (n v : Nat) : (bytesOf n v).length = n := by
  induction n generalizing v with
  | zero => rfl
  | succ n ih => exact congrArg (· + 1) (ih _)

theorem ofBytes_bytesOf (n v : Nat) : ofBytes (bytesOf n v) = v % 2 ^ (8 * n) := by
  induction n generalizing v with
  | zero => simp [bytesOf, ofBytes, Nat.mod_one]
  | succ n ih =>
    have hpow : 2 ^ (8 * (n + 1)) = 256 * 2 ^ (8 * n) := by
      rw [Nat.mul_succ, Nat.add_comm, Nat.pow_add]
    rw [bytesOf, ofBytes, ih, hpow, Nat.mod_mul]
    rfl

/-- The bits of a byte sequence: the first byte's, then the rest's. -/
theorem ofBytes_cons_testBit (b : Byte) (bs : List Byte) (i : Nat) :
    (ofBytes (b :: bs)).testBit i = if i < 8 then b.toNat.testBit i else (ofBytes bs).testBit (i - 8) := by
  rw [ofBytes, Nat.add_comm]
  exact Nat.testBit_two_pow_mul_add (i := 8) (ofBytes bs) b.isLt i

/-- Bytes put at a byte offset below the limit replace the bits there, and no others. -/
theorem putBytes_testBit {off limit : Nat} (bs : List Byte) (h : off + bs.length ≤ limit) (v i : Nat) :
    (putBytes v off limit bs).testBit i =
      if 8 * off ≤ i ∧ i < 8 * (off + bs.length) then (ofBytes bs).testBit (i - 8 * off) else v.testBit i := by
  induction bs generalizing off v with
  | nil => rw [if_neg (by simp only [List.length_nil]; omega)]; rfl
  | cons b bs ih =>
    rw [List.length_cons] at h ⊢
    rw [putBytes, if_pos (by omega), ih (by omega), setBits_testBit _ _ _ _ _ (by omega), ofBytes_cons_testBit]
    by_cases hbefore : i < 8 * off
    · rw [if_neg (by omega), if_neg (by omega), if_neg (by omega)]
    · by_cases hfirst : i < 8 * off + 8
      · rw [if_neg (by omega), if_pos (by omega), if_pos (by omega), if_pos (by omega)]
      · rw [if_neg (c := 8 * off ≤ i ∧ i ≤ 8 * off + 7) (by omega), if_neg (c := i - 8 * off < 8) (by omega)]
        have hshift : i - 8 * off - 8 = i - 8 * (off + 1) := by omega
        rw [hshift]
        exact ite_congr (propext ⟨fun _ => by omega, fun _ => by omega⟩) (fun _ => rfl) (fun _ => rfl)

/-- A number whose four low bytes are all replaced. -/
theorem putBytes_four {bs : List Byte} (h : bs.length = 4) (v : Nat) : putBytes v 0 4 bs % 2 ^ 32 = ofBytes bs % 2 ^ 32 := by
  apply Nat.eq_of_testBit_eq
  intro i
  rw [Nat.testBit_mod_two_pow, Nat.testBit_mod_two_pow, putBytes_testBit bs (by omega), h]
  by_cases hi : i < 32
  · rw [if_pos (by omega)]; rfl
  · simp [hi]

/-- A field takes the low bits of what is written. -/
theorem State.fput_congr (s : State) (f : Fld) (i : Nat) {x y : Nat} (h : x % 2 ^ (f.hi + 1 - f.lo) = y % 2 ^ (f.hi + 1 - f.lo)) :
    s.fput f i x = s.fput f i y := by
  unfold State.fput setBits
  rw [h]

/-! ### Where a doorbell write goes (R27, R438, R442) -/

/-- On a free link a doorbell write of 4 to 64 bytes inside a 64-byte block acts at once. -/
theorem State.bellRow_free {s : State} (h : s.bellsFree) {a : Nat} {bs : List Byte} (hlen : 4 ≤ bs.length) (hblock : a % 64 + bs.length ≤ 64) :
    s.bellRow a bs = s.ringBell a bs := by
  obtain ⟨hlink, hbells, hquiet⟩ := h
  unfold State.bellRow State.arriveBell
  rw [if_neg (ne_true_of_eq_false hlink), if_neg (by omega), if_neg (by simp [hbells, hquiet])]

/-- The doorbell page of a ring (R362). -/
theorem State.ringBell_ring (s : State) (r : RingNo) {off : Nat} (hoff : off < 0x1000) (bs : List Byte) :
    s.ringBell (0x2000000 + r.val * 0x1000 + off) bs = s.doDoorbellPage r off bs := by
  have hr := r.isLt
  have hring : (BitVec.ofNat 8 ((0x2000000 + r.val * 0x1000 + off - 0x2000000) / 0x1000)).toFin = r := by
    apply Fin.ext
    show (0x2000000 + r.val * 0x1000 + off - 0x2000000) / 0x1000 % 2 ^ 8 = r.val
    omega
  have hplace : (0x2000000 + r.val * 0x1000 + off) % 0x1000 = off := by omega
  unfold State.ringBell
  rw [if_pos (by omega), hring, hplace]

/-- The doorbell page of a queue (R398). -/
theorem State.ringBell_queue (s : State) (q : QueueNo) {off : Nat} (hoff : off < 0x400) (bs : List Byte) :
    s.ringBell (0x2100000 + q.val * 0x400 + off) bs = s.queuePage q.val off bs := by
  have hq := q.isLt
  have hqueue : (0x2100000 + q.val * 0x400 + off - 0x2100000) / 0x400 = q.val := by omega
  have hplace : (0x2100000 + q.val * 0x400 + off) % 0x400 = off := by omega
  unfold State.ringBell
  rw [if_neg (by omega), if_pos (by omega), hqueue, hplace]

section Held
variable {s : State} {b : HeldBell} {rest : List HeldBell} (hbells : s.host.bells = b :: rest)
include hbells

/-- The oldest held doorbell write acts once every earlier BAR2 write is acknowledged (R27). -/
theorem State.doDoorbellRelease_acts (hquiet : s.portQuiet portPB = true) :
    s.doDoorbellRelease = ({ s with host := { s.host with bells := rest } } : State).ringBell b.addr b.bytes := by
  unfold State.doDoorbellRelease
  rw [hbells]
  exact if_pos hquiet

theorem State.doDoorbellRelease_holds (hquiet : s.portQuiet portPB = false) : s.doDoorbellRelease = s := by
  unfold State.doDoorbellRelease
  rw [hbells]
  exact if_neg (ne_true_of_eq_false hquiet)

end Held

/-! ### A ring's page (R362 to R364, R374) -/

theorem State.doDoorbellPage_stages (s : State) (r : RingNo) {off : Nat} {bs : List Byte} (h : off + bs.length < 64) :
    s.doDoorbellPage r off bs = s.setRing r.val { s.ring r.val with stage := putBytes (s.ring r.val).stage off 64 bs } := by
  unfold State.doDoorbellPage
  rw [if_pos (by omega)]
  exact if_neg (by omega)

theorem State.doDoorbellPage_commits (s : State) (r : RingNo) {off : Nat} {bs : List Byte} (hlen : 4 ≤ bs.length)
    (h : off + bs.length = 64) :
    s.doDoorbellPage r off bs =
      (s.setRing r.val { s.ring r.val with stage := 0 }).commitPacket r (putBytes (s.ring r.val).stage off 64 bs) := by
  unfold State.doDoorbellPage
  rw [if_pos (by omega)]
  exact if_pos (by omega)

/-- The consumed count takes the four bytes written. -/
theorem State.doDoorbellPage_consumed (s : State) (r : RingNo) {bs : List Byte} (h : bs.length = 4) :
    s.doDoorbellPage r 0x40 bs = s.fput fHLM_RING_CPL_consumed r.val (ofBytes bs) := by
  unfold State.doDoorbellPage
  rw [if_neg (by decide), if_pos (by decide)]
  exact s.fput_congr _ _ (putBytes_four h _)

theorem State.commitPacket_enqueues {s v : State} {r : RingNo} {raw e : Nat} (hp : isPrompt (decodePacket r raw).1 = false)
    (hadmit : s.admitPkt r.val (decodePacket r raw).1 (decodePacket r raw).2 = (v, some e)) :
    s.commitPacket r raw = v.enqueue r.val raw e := by
  unfold State.commitPacket
  dsimp only
  rw [if_neg (ne_true_of_eq_false hp), hadmit]

theorem State.commitPacket_prompt {s : State} {r : RingNo} {raw : Nat} (hp : isPrompt (decodePacket r raw).1 = true) :
    s.commitPacket r raw =
      s.runPrompt (decodePacket r raw).1 (bodyOf (decodePacket r raw).1) (decodePacket r raw).2 := if_pos hp

/-! ### A queue's page (R397, R398) -/

theorem State.queuePage_window (s : State) (q : QueueNo) {off : Nat} (hq : q.val ≠ 0) (hoff : off < 256) (bs : List Byte) :
    s.queuePage q.val off bs = s.queueWindow q.val off bs := by
  have hlt := q.isLt
  unfold State.queuePage
  rw [if_neg (by omega), if_pos hoff]

theorem State.queuePage_released (s : State) (q : QueueNo) (hq : q.val ≠ 0) (v : Nat) :
    s.queuePage q.val 0x300 (bytesOf 4 v) = s.fput fDPT_Q_MIR_PTR_released q.val v := by
  have hlt := q.isLt
  have hlen := length_bytesOf 4 v
  unfold State.queuePage
  rw [if_neg (by omega), if_neg (by decide), if_pos ⟨rfl, by omega⟩, List.take_of_length_le (by omega), ofBytes_bytesOf]
  exact s.fput_congr _ _ (Nat.mod_mod _ _)

/-- System queues take no element of the host. -/
theorem State.queueWindow_system (s : State) {q : Nat} (off : Nat) (bs : List Byte) (hlo : 256 ≤ q) (hhi : q < 512) :
    s.queueWindow q off bs = s.bump fDPT_Q_CNT_refused q := if_pos ⟨hlo, hhi⟩

section Window
variable {s : State} {q off : Nat} {bs : List Byte} (huser : q < 256 ∨ 512 ≤ q) (hstage : s.depot.staged = false ∨ s.depot.stageQ = q)
  (hoff : off < s.qElem q)
include huser hstage hoff

theorem State.queueWindow_stages (h : off + bs.length < s.qElem q) :
    s.queueWindow q off bs =
      { s with depot := { s.depot with stage := putBytes s.depot.stage off (s.qElem q) bs, staged := true, stageQ := q } } := by
  have hkeep : ¬(s.depot.staged = true ∧ s.depot.stageQ ≠ q) := by
    rintro ⟨hs, hq⟩
    rcases hstage with h | h
    · exact Bool.false_ne_true (h.symm.trans hs)
    · exact hq h
  unfold State.queueWindow
  rw [if_neg (by omega), if_neg hkeep]
  exact (if_neg (by omega)).trans (if_pos hoff)

theorem State.queueWindow_commits (h : s.qElem q ≤ off + bs.length) :
    s.queueWindow q off bs =
      (State.commit { s with depot := { s.depot with stage := 0, staged := false, stageQ := q } } q .host (s.qElem q)
        (putBytes s.depot.stage off (s.qElem q) bs)).1 := by
  have hkeep : ¬(s.depot.staged = true ∧ s.depot.stageQ ≠ q) := by
    rintro ⟨hs, hq⟩
    rcases hstage with h | h
    · exact Bool.false_ne_true (h.symm.trans hs)
    · exact hq h
  unfold State.queueWindow
  rw [if_neg (by omega), if_neg hkeep]
  exact if_pos ⟨hoff, h⟩

end Window

/-- Settles O19: a doorbell write by the page and the place in it at which it arrives. -/
theorem doorbellsAct : Obligations.DoorbellsAct := by
  refine ⟨?stage, ?commit, ?consumed, ?released, ?held, ?queue⟩
  case stage =>
    intro r off bs s hfree hlen hoff
    rw [exec_doorbellPageWrite, execDoorbellPageWrite, State.bellRow_free hfree hlen (by omega), State.ringBell_ring _ _ off.isLt,
      State.doDoorbellPage_stages _ _ hoff]
  case commit =>
    rintro r off bs s _ v e hfree hlen hoff rfl raw
    have hexec : exec (.doorbellPageWrite r off bs) s = .next ((s.setRing r.val { s.ring r.val with stage := 0 }).commitPacket r raw) := by
      rw [exec_doorbellPageWrite, execDoorbellPageWrite, State.bellRow_free hfree hlen (by omega), State.ringBell_ring _ _ off.isLt,
        State.doDoorbellPage_commits _ _ hlen hoff]
    exact ⟨fun hp hadmit => hexec.trans (congrArg _ (State.commitPacket_enqueues hp hadmit)),
      fun hp => hexec.trans (congrArg _ (State.commitPacket_prompt hp))⟩
  case consumed =>
    intro r v s hfree
    have hlen := length_bytesOf 4 v.toNat
    rw [exec_cplConsumedWrite, execCplConsumedWrite, State.bellRow_free hfree (by omega) (by omega), State.ringBell_ring _ _ (by decide),
      State.doDoorbellPage_consumed _ _ hlen, ofBytes_bytesOf, Nat.mod_eq_of_lt v.isLt]
  case released =>
    intro q v s hfree hq
    have hlen := length_bytesOf 4 v.toNat
    rw [exec_mirrorConsumedWrite, execMirrorConsumedWrite, State.bellRow_free hfree (by omega) (by omega),
      State.ringBell_queue _ _ (by decide), State.queuePage_released _ _ hq]
  case held =>
    intro b rest r s hbells haddr hlen
    refine ⟨fun hquiet => congrArg Host.Outcome.next ?_, fun hquiet => congrArg Host.Outcome.next (State.doDoorbellRelease_holds hbells hquiet)⟩
    rw [State.doDoorbellRelease_acts hbells hquiet, haddr, State.ringBell_ring _ _ (by decide), State.doDoorbellPage_consumed _ _ hlen]
  case queue =>
    intro q off bs s hfree hlen hblock hwindow hq
    have hexec : exec (.queueDoorbellWrite q off bs) s = .next (s.queueWindow q.val off.toNat bs) := by
      rw [exec_queueDoorbellWrite, execQueueDoorbellWrite, State.bellRow_free hfree hlen (by omega), State.ringBell_queue _ _ off.isLt,
        State.queuePage_window _ _ hq hwindow]
    refine ⟨fun hlo hhi => hexec.trans (congrArg _ (State.queueWindow_system s _ _ hlo hhi)), fun huser hstage hoff => ?_⟩
    exact ⟨fun hpart => hexec.trans (congrArg _ (State.queueWindow_stages huser hstage hoff hpart)),
      fun hwhole => hexec.trans (congrArg _ (State.queueWindow_commits huser hstage hoff hwhole))⟩

end Sys2Proof.Machine
end

section
/-! PROOFS. The BAR2 window (R321, R356, R357, R438). -/

namespace Sys2Proof.Machine

/-! ### Translation from the TLB (R340) -/

/-- A page that the source's TLB holds needs no walk. -/
theorem State.translate_cached {s : State} {source space dva : Nat} {e : TlbEntry} (h : s.tlbFind (tlbOf source) space dva = some e)
    (write : Bool) : s.translate source space dva write = (s, leafTrans e.pageBits e.entry (levelOf e.pageBits) dva write) := by
  unfold State.translate
  rw [h]

theorem leafTrans_read {pb entry : Nat} (level dva : Nat) (h : bitAt entry 2 = true) :
    leafTrans pb entry level dva false = .hpa (bits entry 43 8 * 256 + dva % 2 ^ pb) (2 ^ pb - dva % 2 ^ pb) := by
  unfold leafTrans
  exact if_pos h

theorem leafTrans_write {pb entry : Nat} (level dva : Nat) (h : bitAt entry 3 = true) :
    leafTrans pb entry level dva true = .hpa (bits entry 43 8 * 256 + dva % 2 ^ pb) (2 ^ pb - dva % 2 ^ pb) := by
  unfold leafTrans
  exact if_pos h

/-! ### Reads (R356, R357) -/

/-- A serving memory lets a host read through at once. -/
theorem State.holdHostRead_serving {s : State} (hst : s.fget fMEM_STATUS_state < 3) (hstop : s.inStop = false) (a n : Nat) :
    s.holdHostRead a n = none := if_pos ⟨hst, hstop⟩

/-- In a refresh stop or self-refresh a host read waits at its channels (R314, R329). -/
theorem State.holdHostRead_waits {s : State} (h : 3 ≤ s.fget fMEM_STATUS_state ∨ s.inStop = true) (a n : Nat) :
    s.holdHostRead a n =
      some ((beatPieces a n (n / 32 + 2)).foldl (fun v e => v.holdPiece e.1 e.2)
        { s.wakeMem portPB with host := { (s.wakeMem portPB).host with
            reply := none
            held := (s.wakeMem portPB).host.held ++ [⟨(beatPieces a n (n / 32 + 2)).map (fun e => (e.1, e.2, none))⟩] } }) := by
  have hwait : ¬(s.fget fMEM_STATUS_state < 3 ∧ s.inStop = false) := by
    rintro ⟨hst, hstop⟩
    rcases h with h | h
    · omega
    · exact Bool.false_ne_true (hstop.symm.trans h)
  exact if_neg hwait

theorem State.doBar2Read_disabled {s : State} (off n : Nat) (h : s.fbit fCHT_BAR2_CTL_en = false) :
    s.doBar2Read off n = (s.bump fCHT_BAR2_CNT_disabled).answer (.data (List.replicate n 0xFF)) := if_pos h

section Read
variable {s u : State} {off n : Nat} (hen : s.fbit fCHT_BAR2_CTL_en = true)
include hen

theorem State.doBar2Read_fault {k l e : Nat}
    (ht : s.translate 32 (s.fget fCHT_BAR2_CTL_space) (s.fget fCHT_BAR2_BASE_dva + off) false = (u, .fault k l e)) :
    s.doBar2Read off n = (u.bar2Fault (mkFault 32 (s.fget fCHT_BAR2_CTL_space) (s.fget fCHT_BAR2_BASE_dva + off) k l e false false
      false)).answer .abort := by
  unfold State.doBar2Read State.bar2Dva
  rw [if_neg (ne_false_of_eq_true hen)]
  dsimp only
  rw [ht]

section Mapped
variable {a left : Nat} (ht : s.translate 32 (s.fget fCHT_BAR2_CTL_space) (s.fget fCHT_BAR2_BASE_dva + off) false = (u, .hpa a left))
include ht

theorem State.doBar2Read_held {v : State} (hhold : u.holdHostRead a n = some v) : s.doBar2Read off n = v := by
  unfold State.doBar2Read State.bar2Dva
  rw [if_neg (ne_false_of_eq_true hen)]
  dsimp only
  rw [ht]
  dsimp only
  rw [hhold]

theorem State.doBar2Read_served (hhold : u.holdHostRead a n = none) :
    s.doBar2Read off n = (u.hbmRead portPB .bulk a n).1.answer
      (if (u.hbmRead portPB .bulk a n).2.2 then .poisoned else .data (u.hbmRead portPB .bulk a n).2.1) := by
  unfold State.doBar2Read State.bar2Dva
  rw [if_neg (ne_false_of_eq_true hen)]
  dsimp only
  rw [ht]
  dsimp only
  rw [hhold]

end Mapped
end Read

/-! ### Writes (R356, R357, R438) -/

theorem State.doBar2Write_poisoned (s : State) (off : Nat) (bs : List Byte) :
    s.doBar2Write off bs true = s.bump fPCI_ERR_poisoned_in := if_pos rfl

theorem State.doBar2Write_disabled {s : State} (off : Nat) (bs : List Byte) (h : s.fbit fCHT_BAR2_CTL_en = false) :
    s.doBar2Write off bs false = s.bump fCHT_BAR2_CNT_disabled := (if_neg Bool.false_ne_true).trans (if_pos h)

section Write
variable {s : State} {off : Nat} {bs : List Byte} {r : State × Option FaultSlot × List (Nat × Nat)}
  (hen : s.fbit fCHT_BAR2_CTL_en = true)
  (hr : r = s.dvaSpan 32 (s.fget fCHT_BAR2_CTL_space) (s.fget fCHT_BAR2_BASE_dva + off) bs.length (bs.length / 65536 + 2))
include hen hr

theorem State.doBar2Write_written (h : r.2.1 = none) : s.doBar2Write off bs false = r.1.writePieces portPB .bulk bs r.2.2 := by
  unfold State.doBar2Write State.dvaWrite State.bar2Dva
  rw [if_neg Bool.false_ne_true, if_neg (ne_false_of_eq_true hen), ← hr]
  dsimp only
  rw [h]

theorem State.doBar2Write_fault {f : FaultSlot} (h : r.2.1 = some f) :
    s.doBar2Write off bs false = (r.1.raiseFault f).1.bump fCHT_BAR2_CNT_faults := by
  unfold State.doBar2Write State.dvaWrite State.bar2Dva
  rw [if_neg Bool.false_ne_true, if_neg (ne_false_of_eq_true hen), ← hr]
  dsimp only
  rw [h]
  rfl

end Write

/-- A span within one page that the TLB holds writable is one piece. -/
theorem State.dvaSpan_onePage {s : State} {source space dva n : Nat} {e : TlbEntry} (h : s.tlbFind (tlbOf source) space dva = some e)
    (hw : bitAt e.entry 3 = true) (hn : n ≠ 0) (hfit : n ≤ 2 ^ e.pageBits - dva % 2 ^ e.pageBits) (fuel : Nat) :
    s.dvaSpan source space dva n (fuel + 2) = (s, none, [(bits e.entry 43 8 * 256 + dva % 2 ^ e.pageBits, n)]) := by
  rw [State.dvaSpan, if_neg hn, State.translate_cached h, leafTrans_write _ _ hw]
  dsimp only
  rw [Nat.min_eq_left hfit, Nat.sub_self, State.dvaSpan, if_pos rfl]

section Link
variable {s : State} (hlink : s.host.perst = false)
include hlink

theorem exec_bar2Read_up (off : BitVec 36) (len : BitVec 13) :
    exec (.bar2Read off len) s = .next (s.doBar2Read off.toNat len.toNat) :=
  congrArg Host.Outcome.next (if_neg (ne_true_of_eq_false hlink))

theorem exec_bar2Write_up (off : BitVec 36) (bs : List Byte) (bad : Bool) :
    exec (.bar2Write off bs bad) s = .next (s.doBar2Write off.toNat bs bad) :=
  congrArg Host.Outcome.next (if_neg (ne_true_of_eq_false hlink))

end Link

/-- Settles O20: a read and a write of the window, by how its address translates. -/
theorem bar2WindowReadsAndWrites : Obligations.Bar2WindowReadsAndWrites := by
  refine ⟨?readOff, ?readServed, ?readHeld, ?readCached, ?readFault, ?writeOff, ?writePoisoned, ?write, ?writeCached⟩
  case readOff =>
    intro off len s hlink hen
    rw [exec_bar2Read_up hlink, State.doBar2Read_disabled _ _ hen]
  case readServed =>
    intro off len s u t a left bs bad hlink hen ht hhold hread
    rw [exec_bar2Read_up hlink, State.doBar2Read_served hen ht hhold, hread]
  case readHeld =>
    intro off len s u a left hlink hen ht hwait ps w
    rw [exec_bar2Read_up hlink, State.doBar2Read_held hen ht (State.holdHostRead_waits hwait a len.toNat)]
  case readCached =>
    intro off len s e hlink hen dva hfind hperm hst hstop r
    have ht := State.translate_cached hfind false
    rw [leafTrans_read _ _ hperm] at ht
    rw [exec_bar2Read_up hlink, State.doBar2Read_served hen ht (State.holdHostRead_serving hst hstop _ _)]
  case readFault =>
    intro off len s u k l e hlink hen ht
    rw [exec_bar2Read_up hlink, State.doBar2Read_fault hen ht]
  case writeOff =>
    intro off bs s hlink hen
    rw [exec_bar2Write_up hlink, State.doBar2Write_disabled _ _ hen]
  case writePoisoned =>
    intro off bs s hlink
    rw [exec_bar2Write_up hlink, State.doBar2Write_poisoned]
  case write =>
    intro off bs s hlink hen r
    rw [exec_bar2Write_up hlink]
    exact ⟨fun h => congrArg _ (State.doBar2Write_written hen rfl h), fun f h => congrArg _ (State.doBar2Write_fault hen rfl h)⟩
  case writeCached =>
    intro off bs s e hlink hen dva hfind hperm hne hfit
    have hspan := (State.dvaSpan_onePage hfind hperm (by simpa using hne) hfit (bs.length / 65536)).symm
    rw [exec_bar2Write_up hlink, State.doBar2Write_written hen hspan rfl]
    simp only [State.writePieces, List.take_length]

end Sys2Proof.Machine
end

section
/-! PROOFS. Helm's own commands and register batches (R358, R359, R361, R376, R377). -/

namespace Sys2Proof.Machine

section Bodies
variable {s v : State} {k : Packet}

/-! ### Rings (R361) -/

theorem bodyRingCreate_new (hr : u16 k 0 ≤ 255) (hcmd : 4 ≤ u8 k 2) (hcmd' : u8 k 2 ≤ 12) (hcpl : u8 k 2 ≤ u8 k 3) (hcpl' : u8 k 3 ≤ 12)
    (hvec : u16 k 4 ≤ 2047) (hlevel : u16 k 6 ≤ 7) (hpage : u64 k 8 % 4096 = 0) (hnew : s.fbit fHLM_RING_CFG_exists (u16 k 0) = false) :
    bodyRingCreate k s =
      ok ((((s.dropRing (u16 k 0)).wr .HLM_RING_CFG (u16 k 0) 0 (BitVec.ofNat 64 (pack [(0, 1, 1), (1, 3, u16 k 6), (4, 4, u8 k 2),
        (8, 4, u8 k 3), (12, 11, u16 k 4), (23, 8, min 255 (u16 k 16)), (32, 16, u16 k 18)]))).wr .HLM_RING_MIR (u16 k 0) 0
        (BitVec.ofNat 64 (u64 k 8))).setRing (u16 k 0) { modCount := u16 k 16, modTime := u16 k 18 }) :=
  (if_neg (by omega)).trans (if_neg (ne_true_of_eq_false hnew))

section Delete
variable (h0 : 0 < u16 k 0) (hr : u16 k 0 ≤ 255) (hex : s.fbit fHLM_RING_CFG_exists (u16 k 0) = true)
include h0 hr hex

theorem bodyRingDelete_exists :
    bodyRingDelete k s = if s.ringIdle (u16 k 0) then ok (s.dropRing (u16 k 0))
      else (s.setRing (u16 k 0) { s.ring (u16 k 0) with deleting := true }, .wait (.ringEmpty (u16 k 0)) 0 0 0 0 0) := by
  have hvalid : ¬(u16 k 0 = 0 ∨ 255 < u16 k 0 ∨ s.fbit fHLM_RING_CFG_exists (u16 k 0) = false) := by
    rw [hex]
    rintro (h | h | h)
    · omega
    · omega
    · cases h
  exact if_neg hvalid

theorem bodyRingDelete_idle (hidle : s.ringIdle (u16 k 0) = true) : bodyRingDelete k s = ok (s.dropRing (u16 k 0)) :=
  (bodyRingDelete_exists h0 hr hex).trans (if_pos hidle)

theorem bodyRingDelete_busy (hidle : s.ringIdle (u16 k 0) = false) :
    bodyRingDelete k s =
      (s.setRing (u16 k 0) { s.ring (u16 k 0) with deleting := true }, .wait (.ringEmpty (u16 k 0)) 0 0 0 0 0) :=
  (bodyRingDelete_exists h0 hr hex).trans (if_neg (ne_true_of_eq_false hidle))

end Delete

/-! ### Site scripts (R359, R376) -/

section Script
variable {bs : List Byte} (hart : u8 k 9 = 2 ∨ u8 k 9 = 3) (hpay : s.payload (u8 k 8) (u64 k 0) 1 = (v, .bytes bs))
include hart hpay

theorem bodyScriptLoad_loads (hw : bitAt v.fresh.2.toNat 0 = true) :
    bodyScriptLoad k s = ok { v.fresh.1 with
      helm := { v.fresh.1.helm with scripts := nset [] (u8 k 9) (bytesOf 32 (param k 16 32)) v.helm.scripts } } := by
  unfold bodyScriptLoad
  dsimp only
  rw [if_neg (by omega), hpay]
  exact if_pos hw

theorem bodyScriptLoad_refuses (hw : bitAt v.fresh.2.toNat 0 = false) : bodyScriptLoad k s = fail v.fresh.1 .paramInvalid := by
  unfold bodyScriptLoad
  dsimp only
  rw [if_neg (by omega), hpay]
  exact if_neg (ne_true_of_eq_false hw)

end Script

section Ctl
variable (hart : u8 k 0 = 2 ∨ u8 k 0 = 3)
include hart

theorem bodyScriptCtl_stop (hop : u8 k 1 = 0) : bodyScriptCtl k s = ok (s.setHartRun (u8 k 0) false) := by
  unfold bodyScriptCtl
  dsimp only
  rw [if_neg (by omega), hop]
  rfl

theorem bodyScriptCtl_start (hop : u8 k 1 = 1) :
    bodyScriptCtl k s = ok (if nget [] (u8 k 0) s.helm.scripts = [] then s else s.setHartRun (u8 k 0) true) := by
  unfold bodyScriptCtl
  dsimp only
  rw [if_neg (by omega), hop]
  rfl

theorem bodyScriptCtl_reset (hop : u8 k 1 = 2) :
    bodyScriptCtl k s = ok ((s.setHartRun (u8 k 0) false).setHart (u8 k 0) {}) := by
  unfold bodyScriptCtl
  dsimp only
  rw [if_neg (by omega), hop]
  rfl

end Ctl

/-! ### A batch of one entry (R377) -/

theorem bodyRegBatch_runs (h0 : 0 < u32 k 12) (hn : u32 k 12 ≤ 4096) :
    bodyRegBatch k s = s.runBatch (u8 k 8) (u64 k 0) ⟨0, none⟩ (u32 k 12) := by
  exact if_neg (by omega)

/-- A batch whose entries are done ends OK. -/
theorem State.runBatch_zero (s : State) (space list : Nat) (b : Batch) : s.runBatch space list b 0 = (s, b.ends .ok 0) := rfl

section Entry
variable {bs : List Byte} {space list size a : Nat} (hpay : s.payload space list 16 = (v, .bytes bs))
  (hsize : size = if bitAt (ofBytes bs) 33 then 8 else 4) (ha : a = bits (ofBytes bs) 31 0)
include hpay hsize ha

theorem State.runBatch_badOffset (h : 0x2000000 ≤ a ∨ a % size ≠ 0) :
    s.runBatch space list ⟨0, none⟩ 1 = (v, .done .paramInvalid 0 (0xFFFFFFFF * 2 ^ 32) false false 0) := by
  subst hsize ha
  rw [State.runBatch]
  dsimp only
  rw [Nat.mul_zero, Nat.add_zero, hpay]
  exact if_pos h

theorem State.runBatch_write (ha' : a < 0x2000000) (halign : a % size = 0) (hop : bitAt (ofBytes bs) 32 = true) {t : State}
    (ht : t = v.deliverAll.applyWrite a size (bits (ofBytes bs) 127 64 % 2 ^ (8 * size))) :
    s.runBatch space list ⟨0, none⟩ 1 =
      (t, .done .ok 0 (1 + (if t.dropCount = v.deliverAll.dropCount then 0xFFFFFFFF else 0) * 2 ^ 32) false false 1) := by
  subst hsize ha
  rw [State.runBatch]
  dsimp only
  rw [Nat.mul_zero, Nat.add_zero, hpay]
  dsimp only
  rw [if_neg (by omega), if_pos hop, ← ht, State.runBatch_zero]
  by_cases hdrop : t.dropCount = v.deliverAll.dropCount
  · simp [hdrop, Batch.ends, Batch.result]
  · simp [hdrop, Batch.ends, Batch.result]

theorem State.runBatch_read (ha' : a < 0x2000000) (halign : a % size = 0) (hop : bitAt (ofBytes bs) 32 = false) {t : State}
    (hstore : (v.deliverAll.readValue a size).1.storeResult space (list + 8) (bytesOf 8 (v.deliverAll.readValue a size).2) = (t, none)) :
    s.runBatch space list ⟨0, none⟩ 1 = (t, .done .ok 0 (1 + 0xFFFFFFFF * 2 ^ 32) false false 1) := by
  subst hsize ha
  rw [State.runBatch]
  dsimp only
  rw [Nat.mul_zero, Nat.add_zero, hpay]
  dsimp only
  rw [if_neg (by omega), if_neg (ne_true_of_eq_false hop), hstore]
  rfl

end Entry
end Bodies

/-- Settles O21: each clause is the command's body in the state begun, ended as the front end ends it. -/
theorem helmCommandsAct : Obligations.HelmCommandsAct := by
  refine ⟨?nop, ?create, ?delete, ?load, ?ctl, ?batch, ?entry⟩
  case nop =>
    intro s k hacc
    exact congrArg Host.Outcome.next (State.runCommand_completes (effect := id) hacc rfl rfl)
  case create =>
    rintro s _ k hacc rfl hr hcmd hcmd' hcpl hcpl' hvec hlevel hpage hnew
    exact congrArg Host.Outcome.next (State.runCommand_completes hacc rfl
      (bodyRingCreate_new hr hcmd hcmd' hcpl hcpl' hvec hlevel hpage hnew))
  case delete =>
    rintro s _ k hacc rfl h0 hr hex
    exact ⟨fun hidle => congrArg Host.Outcome.next (State.runCommand_completes hacc rfl (bodyRingDelete_idle h0 hr hex hidle)),
      fun hbusy => congrArg Host.Outcome.next (State.runCommand_awaits hacc rfl (bodyRingDelete_busy h0 hr hex hbusy))⟩
  case load =>
    rintro s _ v k bs hacc rfl hart hpay
    exact ⟨fun hw => congrArg Host.Outcome.next (State.runCommand_completes hacc rfl (bodyScriptLoad_loads hart hpay hw)),
      fun hw => congrArg Host.Outcome.next (State.runCommand_ends hacc rfl (bodyScriptLoad_refuses hart hpay hw))⟩
  case ctl =>
    rintro s _ k hacc rfl hart
    refine ⟨fun hop => ?_, fun hop hscript => ?_, fun hop hscript => ?_, fun hop => ?_⟩
    · exact congrArg Host.Outcome.next (State.runCommand_completes hacc rfl (bodyScriptCtl_stop hart hop))
    · exact congrArg Host.Outcome.next (State.runCommand_completes hacc rfl
        ((bodyScriptCtl_start hart hop).trans (congrArg ok (if_neg hscript))))
    · exact congrArg Host.Outcome.next (State.runCommand_completes (effect := id) hacc rfl
        ((bodyScriptCtl_start hart hop).trans (congrArg ok (if_pos hscript))))
    · exact congrArg Host.Outcome.next (State.runCommand_completes hacc rfl (bodyScriptCtl_reset hart hop))
  case batch =>
    rintro s _ v k r hacc rfl h0 hn hrun
    exact congrArg Host.Outcome.next (State.runCommand_completes hacc rfl ((bodyRegBatch_runs h0 hn).trans hrun))
  case entry =>
    rintro s _ v k bs hacc rfl hone hpay e size
    have hbody : bodyRegBatch k (s.begun k) = (s.begun k).runBatch (u8 k 8) (u64 k 0) ⟨0, none⟩ 1 := by
      rw [bodyRegBatch_runs (by omega) (by omega), hone]
    refine ⟨fun hbad => ?_, fun ha halign hop => ?_, fun ha halign hop => ?_⟩
    · exact congrArg Host.Outcome.next (State.runCommand_ends (effect := fun _ => v) hacc rfl
        (hbody.trans (State.runBatch_badOffset hpay rfl rfl hbad)))
    · exact congrArg Host.Outcome.next (State.runCommand_completes
        (effect := fun _ => v.deliverAll.applyWrite (bits e 31 0) size (bits e 127 64 % 2 ^ (8 * size))) hacc rfl
        (hbody.trans (State.runBatch_write hpay rfl rfl ha halign hop rfl)))
    · intro r t hstore
      exact congrArg Host.Outcome.next (State.runCommand_completes (effect := fun _ => t) hacc rfl
        (hbody.trans (State.runBatch_read hpay rfl rfl ha halign hop hstore)))

end Sys2Proof.Machine
end


section
/-! PROOFS. Completions, moderation and deadlines of a ring (O22; R363, R364, R367, R371, R372). -/

namespace Sys2Proof.Machine

/-! ### Host memory reads as it was written -/

theorem State.hostWrite_other (bs : List Byte) : ∀ (s : State) (at' a : Nat), a < at' ∨ at' + bs.length ≤ a →
    nget 0 a (s.hostWrite at' bs).host.mem = nget 0 a s.host.mem := by
  induction bs with
  | nil => intro s at' a _; rfl
  | cons b bs ih =>
    intro s at' a h
    have hlen : (b :: bs).length = bs.length + 1 := rfl
    exact (ih _ (at' + 1) a (by omega)).trans (nget_nset_ne 0 (by omega) b s.host.mem)

theorem State.hostWrite_congr (bs : List Byte) : ∀ {s t : State} (at' : Nat), t.host.mem = s.host.mem →
    (t.hostWrite at' bs).host.mem = (s.hostWrite at' bs).host.mem := by
  induction bs with
  | nil => intro s t at' h; exact h
  | cons b bs ih => intro s t at' h; exact ih (at' + 1) (congrArg (nset 0 at' b) h)

theorem State.hostRead_congr {s t : State} (h : t.host.mem = s.host.mem) : ∀ n at', t.hostRead at' n = s.hostRead at' n := by
  intro n
  induction n with
  | zero => intro at'; rfl
  | succ n ih => intro at'; unfold State.hostRead; rw [h, ih]

theorem State.hostRead_hostWrite (bs : List Byte) : ∀ (s : State) (at' : Nat), (s.hostWrite at' bs).hostRead at' bs.length = bs := by
  induction bs with
  | nil => intro s at'; rfl
  | cons b bs ih =>
    intro s at'
    have hfirst := State.hostWrite_other bs { s with host := { s.host with mem := nset 0 at' b s.host.mem } } (at' + 1) at' (by omega)
    have hhead : nget 0 at' (s.hostWrite at' (b :: bs)).host.mem = b := hfirst.trans (nget_nset_same 0 at' b s.host.mem)
    exact (congrArg₂ List.cons hhead (ih _ (at' + 1)) :)

theorem State.hostRead_hostWrite_bytesOf (s : State) (at' n v : Nat) : (s.hostWrite at' (bytesOf n v)).hostRead at' n = bytesOf n v := by
  have h := State.hostRead_hostWrite (bytesOf n v) s at'
  rwa [length_bytesOf] at h

/-! ### A register that an operation leaves is read as before -/

theorem State.fget_of_same {s t : State} {f : Fld} (h : (Part.reg f.id).same s t) (i j : Nat) : t.fget f i j = s.fget f i j :=
  congrArg (fun w : Word => bits w.toNat f.hi f.lo) (h i j)

/-! ### A ring that is not under deletion -/

theorem State.sweepRing_live {s : State} {r : Nat} (h : (s.ring r).deleting = false) : s.sweepRing r = s :=
  if_neg fun hd => ne_true_of_eq_false h hd.1

/-! ### A completion is committed (R363, R367) -/

theorem State.signal_helm (s : State) (v : Nat) : (s.signal v).helm = s.helm := by
  unfold State.signal State.msixSend
  split <;> rfl

theorem State.signal_ring (s : State) (v r : Nat) : (s.signal v).ring r = s.ring r := by
  unfold State.ring
  rw [State.signal_helm]

/-- Only the counts of the moderation change in the ring. -/
theorem State.signalCpl_ring (s : State) (r : Nat) (irq : Bool) :
    ∃ n t, (s.signalCpl r irq).ring r = { s.ring r with unsig := n, unsigAt := t } := by
  unfold State.signalCpl
  dsimp only
  split
  · exact ⟨_, _, State.signal_ring s _ r⟩
  · split
    · exact ⟨_, _, (State.signal_ring _ _ r).trans (State.ring_setRing s r _)⟩
    · exact ⟨_, _, State.ring_setRing s r _⟩

theorem State.writeCpl_rings (s : State) (r : Nat) (c : Cpl) : (s.writeCpl r c).helm.rings = s.helm.rings :=
  (keeps_writeCpl (Fits.refl _) (Keeps.refl _ s)).same .rings rfl

/-- The slot of the mirror into which the ring's next completion goes. -/
def State.cplSlot (s : State) (r : Nat) : Nat :=
  s.mirrorAddr r + s.fget fHLM_RING_CPL_posted r % 2 ^ s.fget fHLM_RING_CFG_cpl_log2 r * 32

/-- The phase bit of the round that the ring's next completion belongs to. -/
def State.cplPhase (s : State) (r : Nat) : Nat := (s.fget fHLM_RING_CPL_posted r / 2 ^ s.fget fHLM_RING_CFG_cpl_log2 r + 1) % 2

theorem State.writeCpl_host (s : State) (r : Nat) (c : Cpl) :
    (s.writeCpl r c).host = (s.hostWrite (s.cplSlot r) (bytesOf 32 (s.cplWord c (s.cplPhase r)))).host := by
  unfold State.writeCpl State.cplSlot State.cplPhase
  dsimp only
  rw [State.fput_host, State.tick_host]

@[simp] theorem State.cplSlot_setRing (s : State) (r : Nat) (x : Ring) : (s.setRing r x).cplSlot r = s.cplSlot r := rfl

@[simp] theorem State.cplPhase_setRing (s : State) (r : Nat) (x : Ring) : (s.setRing r x).cplPhase r = s.cplPhase r := rfl

@[simp] theorem State.cplWord_setRing (s : State) (r : Nat) (x : Ring) (c : Cpl) (phase : Nat) :
    (s.setRing r x).cplWord c phase = s.cplWord c phase := rfl

theorem State.writeCpl_posted (s : State) (r : Nat) (c : Cpl) :
    (s.writeCpl r c).fget fHLM_RING_CPL_posted r = (s.fget fHLM_RING_CPL_posted r + 1) % 2 ^ 32 := by
  unfold State.writeCpl
  dsimp only
  generalize hw : s.hostWrite _ _ = w
  have hreg : (Part.reg fHLM_RING_CPL_posted.id).same s w :=
    hw ▸ (keeps_hostWrite (Fits.refl _) (Keeps.refl _ s)).same (.reg fHLM_RING_CPL_posted.id) rfl
  rw [State.fget_fput_ne _ _ _ (.inl (by decide)), ← State.fget_of_same hreg r 0, State.tick,
    State.fget_fput _ _ _ (by decide) (by decide)]
  rfl

theorem State.writeCpl_last (s : State) (r : Nat) (c : Cpl) :
    (s.writeCpl r c).fget fHLM_RING_LAST_last_status r = c.status % 2 ^ 16 := by
  unfold State.writeCpl
  dsimp only
  rw [State.fget_fput _ _ _ (by decide) (by decide)]
  rfl

theorem State.writeCpl_signalled_changes (s : State) (r : Nat) (c : Cpl) (rest : List Cpl) :
    Changes [.reg .HLM_RING_CPL, .reg .HLM_RING_LAST, .hostMem, .msix, .rings] s
      (((s.setRing r { s.ring r with cplWait := rest }).writeCpl r c).signalCpl r c.irq) := by
  refine Keeps.changes (P := partMask [.reg .HLM_RING_CPL, .reg .HLM_RING_LAST, .hostMem, .msix, .rings]) ?_ (Fits.refl _)
  refine keeps_signalCpl (by decide +kernel) (keeps_writeCpl (by decide +kernel) ?_)
  exact keeps_setRing (F := partMask [.rings]) (by decide +kernel) (by decide +kernel) (Keeps.refl _ s) id

theorem State.doCompletionCommit_commits {s : State} {r : Nat} {c : Cpl} {rest : List Cpl} (hwait : (s.ring r).cplWait = c :: rest)
    (hlive : (s.ring r).deleting = false) (hfree : s.mirrorFull r = false) (hon : bitAt s.bnc.down 32 = false) :
    s.doCompletionCommit r = ((s.setRing r { s.ring r with cplWait := rest }).writeCpl r c).signalCpl r c.irq := by
  have hkeep : ((((s.setRing r { s.ring r with cplWait := rest }).writeCpl r c).signalCpl r c.irq).ring r).deleting = false := by
    obtain ⟨n, t, hring⟩ := State.signalCpl_ring ((s.setRing r { s.ring r with cplWait := rest }).writeCpl r c) r c.irq
    rw [hring]
    show (nget {} r _ : Ring).deleting = false
    rw [State.writeCpl_rings]
    exact (congrArg Ring.deleting (State.ring_setRing s r _)).trans hlive
  unfold State.doCompletionCommit
  rw [hwait]
  exact (if_neg fun h => h.elim (ne_true_of_eq_false hfree) (ne_true_of_eq_false hon)).trans (State.sweepRing_live hkeep)

/-! ### A command ends by its deadline (R371, R372) -/

/-- The completion with which a command ends by its deadline. -/
def Running.deadlineCpl (x : Running) (steps : Nat) (isPartial : Bool) : Cpl :=
  { tag := x.tag, status := Status.deadline.code, detail := x.steps, result := 0, late := false, isPartial := isPartial, prompt := x.prompt,
    irq := x.irq, expiry := x.expiry, steps := steps }

theorem State.answerDups_none {s : State} {r : Nat} (h : (s.ring r).dupWait = []) (c : Cpl) :
    s.answerDups r c = s.setRing r { s.ring r with dupWait := [] } := by
  unfold State.answerDups
  rw [h]
  rfl

/-- A command of a ring that concludes without OK adds its completion to those that wait. -/
theorem State.conclude_ring {s : State} {x : Running} {r : Nat} {st : Status} (hx : x.origin = .ring r) (hst : st.code ≠ 0)
    (hdup : (s.ring r).dupWait = []) (d res : Nat) (late part : Bool) (steps : Nat) :
    ∃ c : Cpl, c.status = st.code ∧ ((s.conclude x st d res late part steps).ring r).cplWait = (s.ring r).cplWait ++ [c] ∧
      ((s.conclude x st d res late part steps).ring r).deleting = (s.ring r).deleting := by
  unfold State.conclude State.concludeCode
  rw [hx]
  dsimp only
  generalize hc : Cpl.mk .. = c
  have hstat : c.status = st.code := by rw [← hc]
  generalize hv : (if st.code = Status.deadline.code then _ else _ : State) = v
  have hring : v.ring r = { s.ring r with window := (s.ring r).window.map (fun w => if w.1 = x.tag then (w.1, some c) else w) } := by
    rw [← hv]
    split <;> exact State.ring_setRing s r _
  have hq : v.queueCpl r x.quiet c = v.setRing r { v.ring r with cplWait := (v.ring r).cplWait ++ [c] } :=
    if_neg fun h => hst (hstat ▸ h.2)
  have hdup' : ((v.queueCpl r x.quiet c).ring r).dupWait = [] := by
    rw [hq, State.ring_setRing, hring]; exact hdup
  refine ⟨c, hstat, ?_⟩
  rw [State.answerDups_none hdup', State.ring_setRing, hq, State.ring_setRing, hring]
  exact ⟨rfl, rfl⟩

theorem State.conclude_running (s : State) (x : Running) (st : Status) (d res : Nat) (late part : Bool) (steps : Nat) :
    (s.conclude x st d res late part steps).helm.running = s.helm.running :=
  ((keeps_conclude (Fits.refl _) (Keeps.refl _ s)).same .helm rfl).1

theorem State.expireCpl_done {s : State} {r : Nat} (h : ∀ c ∈ (s.ring r).cplWait, c.status = Status.deadline.code) (tag : Nat) :
    s.expireCpl r tag = s := by
  unfold State.expireCpl
  dsimp only
  rw [List.find?_eq_none.mpr fun c hc => by simp [h c hc]]

theorem State.expireRunning_none {s : State} {o : Origin → Bool} {tag : Nat}
    (h : ∀ x ∈ s.helm.running, (o x.origin && x.tag == tag) = false) : s.expireRunning o tag = s := by
  unfold State.expireRunning
  rw [List.find?_eq_none.mpr fun x hx => by rw [h x hx, Bool.false_and]; decide]

/-- After a ring's command ended by its deadline, with nothing else of the tag there, the rest of the expiry does nothing. -/
theorem State.expireCpl_sweep_concluded {s : State} {x : Running} {r : Nat} (hx : x.origin = .ring r) (hwait : (s.ring r).cplWait = [])
    (hdup : (s.ring r).dupWait = []) (hlive : (s.ring r).deleting = false) (tag d res : Nat) (late part : Bool) (steps : Nat) :
    ((s.conclude x .deadline d res late part steps).expireCpl r tag).sweepRing r = s.conclude x .deadline d res late part steps := by
  obtain ⟨c, hc, hcpl, hdel⟩ := State.conclude_ring hx (by decide : Status.deadline.code ≠ 0) hdup d res late part steps
  rw [hwait] at hcpl
  have hdone : ∀ e ∈ ((s.conclude x .deadline d res late part steps).ring r).cplWait, e.status = Status.deadline.code := by
    rw [hcpl]
    intro e he
    rw [List.mem_singleton.mp he, hc]
  rw [State.expireCpl_done hdone]
  exact State.sweepRing_live (hdel.trans hlive)

theorem State.expireUntaken_finds {s : State} {r : RingNo} {tag : Nat} {p : Pkt}
    (hfind : (s.ring r.val).untaken.find? (fun p => bits p.bytes 63 32 == tag && s.expired p.expiry) = some p) :
    s.expireUntaken r.val tag = ((s.setRing r.val { s.ring r.val with
      untaken := (s.ring r.val).untaken.filter (fun q => q != p) }).tick fHLM_RING_STAT_taken r.val).conclude
      (runningOf (.ring r.val) (decodePacket r p.bytes).1 (decodePacket r p.bytes).2 p.expiry) .deadline 0 0 false false 0 := by
  have hr : (BitVec.ofNat 8 r.val).toFin = r := Fin.ext (Nat.mod_eq_of_lt r.isLt)
  unfold State.expireUntaken
  rw [hfind]
  dsimp only
  rw [hr]

theorem State.doRingDeadline_untaken {s u : State} {r tag : Nat} {x : Running} (hx : x.origin = .ring r)
    (hexp : s.expireUntaken r tag = u.conclude x .deadline 0 0 false false 0)
    (hrun : ∀ x ∈ u.helm.running, (x.origin == .ring r && x.tag == tag) = false) (hwait : (u.ring r).cplWait = [])
    (hlive : (u.ring r).deleting = false) (hdup : (u.ring r).dupWait = []) :
    s.doRingDeadline r tag = u.conclude x .deadline 0 0 false false 0 := by
  unfold State.doRingDeadline
  rw [hexp, State.expireRunning_none (by rw [State.conclude_running]; exact hrun)]
  exact State.expireCpl_sweep_concluded hx hwait hdup hlive tag 0 0 false false 0

theorem State.doRingDeadline_running {s v : State} {r tag : Nat} {x : Running}
    (hnone : (s.ring r).untaken.find? (fun p => bits p.bytes 63 32 == tag && s.expired p.expiry) = none)
    (hfind : s.helm.running.find? (fun x => x.origin == .ring r && x.tag == tag && s.expired x.expiry) = some x)
    (hv : v = { s with helm := { s.helm with running := s.helm.running.filter (fun y => y != x) } })
    (hwait : (v.ring r).cplWait = []) (hdup : (v.ring r).dupWait = []) (hlive : (v.ring r).deleting = false) :
    s.doRingDeadline r tag = v.conclude x .deadline x.steps 0 false (decide (0 < x.steps)) x.steps := by
  have horigin : x.origin = .ring r := by
    have hx := List.find?_some hfind
    simp only [Bool.and_eq_true, beq_iff_eq] at hx
    exact hx.1.1
  have huntaken : s.expireUntaken r tag = s := by
    unfold State.expireUntaken
    rw [hnone]
  have hexp : s.expireRunning (fun o => o == .ring r) tag =
      v.conclude x .deadline x.steps 0 false (decide (0 < x.steps)) x.steps := by
    unfold State.expireRunning
    rw [hfind, hv]
  unfold State.doRingDeadline
  rw [huntaken, hexp]
  exact State.expireCpl_sweep_concluded horigin hwait hdup hlive tag _ 0 false _ _

/-- After the commit of a completion the host's memory is as after one write of the mirror's slot. -/
theorem State.writeCpl_signalled_mem (s : State) (r : Nat) (c : Cpl) (rest : List Cpl) :
    (((s.setRing r { s.ring r with cplWait := rest }).writeCpl r c).signalCpl r c.irq).host.mem =
      (s.hostWrite (s.cplSlot r) (bytesOf 32 (s.cplWord c (s.cplPhase r)))).host.mem := by
  have hsig := (keeps_signalCpl (a1 := r) (a2 := c.irq) (Fits.refl _)
    (Keeps.refl _ ((s.setRing r { s.ring r with cplWait := rest }).writeCpl r c))).same .hostMem rfl
  rw [hsig, State.writeCpl_host, State.cplSlot_setRing, State.cplPhase_setRing, State.cplWord_setRing]
  exact State.hostWrite_congr _ _ (by rw [State.setRing_host])

theorem State.writeCpl_signalled_cplWait (s : State) (r : Nat) (c : Cpl) (rest : List Cpl) :
    ((((s.setRing r { s.ring r with cplWait := rest }).writeCpl r c).signalCpl r c.irq).ring r).cplWait = rest := by
  obtain ⟨k, t, hring⟩ := State.signalCpl_ring ((s.setRing r { s.ring r with cplWait := rest }).writeCpl r c) r c.irq
  rw [hring]
  show (nget {} r _ : Ring).cplWait = rest
  rw [State.writeCpl_rings]
  exact congrArg Ring.cplWait (State.ring_setRing s r _)

theorem State.signalCpl_fget (s : State) (r : Nat) (irq : Bool) (f : Fld) (i : Nat) : (s.signalCpl r irq).fget f i = s.fget f i := by
  refine State.fget_of_same ?_ i 0
  refine (keeps_signalCpl (Fits.refl _) (Keeps.refl _ s)).same (.reg f.id) ?_
  cases f.id <;> rfl

/-! ### The obligation -/

/-- Settles O22: a commit is one write of the mirror's slot, and after a deadline's completion nothing of the tag is left. -/
theorem completionsAndTimeoutsOfARing : Obligations.CompletionsAndTimeoutsOfARing := by
  unfold Obligations.CompletionsAndTimeoutsOfARing
  refine ⟨?commit, ?moderation, ?untaken, ?running⟩
  case commit =>
    intro r c rest s hwait hlive hfree hon depth n at'
    have hmem := State.writeCpl_signalled_mem s r.val c rest
    refine ⟨_, congrArg Host.Outcome.next (State.doCompletionCommit_commits hwait hlive hfree hon), ?_, ?_, ?_, ?_, ?_, ?_⟩
    · exact State.writeCpl_signalled_cplWait s r.val c rest
    · exact (State.signalCpl_fget ..).trans (State.writeCpl_posted _ r.val c)
    · exact (State.signalCpl_fget ..).trans (State.writeCpl_last _ r.val c)
    · rw [State.hostRead_congr hmem]
      exact State.hostRead_hostWrite_bytesOf s at' 32 _
    · intro a ha
      rw [hmem]
      exact State.hostWrite_other _ s at' a (by rw [length_bytesOf]; exact ha)
    · exact State.writeCpl_signalled_changes s r.val c rest
  case moderation =>
    intro r s hun htime
    exact congrArg Host.Outcome.next (if_pos ⟨hun, htime⟩)
  case untaken =>
    intro r tag p s _ hfind hrun hwait hlive hdup
    have hto : (BitVec.ofNat 16 r.val).toNat = r.val := Nat.mod_eq_of_lt (by have := r.isLt; omega)
    show Host.Outcome.next (s.doRingDeadline (BitVec.ofNat 16 r.val).toNat tag.toNat) = _
    rw [hto]
    have hexp := State.expireUntaken_finds hfind
    revert hexp
    generalize hy : s.setRing r.val _ = y
    have hring := State.ring_setRing s r.val { s.ring r.val with untaken := (s.ring r.val).untaken.filter (fun q => q != p) }
    have hrunning : y.helm.running = s.helm.running := by rw [← hy]; rfl
    rw [hy] at hring
    generalize hu : y.tick fHLM_RING_STAT_taken r.val = u
    have hhelm : u.helm = y.helm := by rw [← hu, State.tick_helm]
    have huring : u.ring r.val = { s.ring r.val with untaken := (s.ring r.val).untaken.filter (fun q => q != p) } := by
      rw [← hring]; unfold State.ring; rw [hhelm]
    intro hexp
    refine congrArg Host.Outcome.next (State.doRingDeadline_untaken rfl hexp ?_ ?_ ?_ ?_)
    · rw [hhelm, hrunning]; exact hrun
    · rw [huring]; exact hwait
    · rw [huring]; exact hlive
    · rw [huring]; exact hdup
  case running =>
    intro r tag x s hnone hfind hwait hdup hlive
    have hto : (BitVec.ofNat 16 r.val).toNat = r.val := Nat.mod_eq_of_lt (by have := r.isLt; omega)
    show Host.Outcome.next (s.doRingDeadline (BitVec.ofNat 16 r.val).toNat tag.toNat) = _
    rw [hto]
    exact congrArg Host.Outcome.next (State.doRingDeadline_running hnone hfind rfl hwait hdup hlive)

end Sys2Proof.Machine
end


section
/-! PROOFS. The fix: latched at its instant, written and counted (O23; R330, R379). -/

namespace Sys2Proof.Machine

/-- The doorbell of the fix (R379). -/
theorem State.ringBell_fix (s : State) (bs : List Byte) : s.ringBell 0x3FFF000 bs = s.doFixDoorbell (ofBytes bs) := rfl

theorem State.bellRow_fix {s : State} (h : s.bellsFree) (v : BitVec 32) :
    s.bellRow 0x3FFF000 (bytesOf 4 v.toNat) = s.doFixDoorbell v.toNat := by
  rw [State.bellRow_free h (by rw [length_bytesOf]) (by rw [length_bytesOf]; omega), State.ringBell_fix, ofBytes_bytesOf,
    Nat.mod_eq_of_lt v.isLt]

section Doorbell
variable {s : State} {v : Nat} (hask : v.testBit 0 = true)
include hask

theorem State.doFixDoorbell_latches (hfix : s.helm.fix = none) (hen : s.fbit fHLM_FIX_ADDR_en = true) :
    s.doFixDoorbell v = s.latchFix 1 0xFFFF 0 (s.fget fHLM_FIX_ADDR_addr * 4096) false 0 := by
  unfold State.doFixDoorbell
  rw [if_neg (show ¬ bitAt v 0 = false from ne_false_of_eq_true hask), if_neg]
  rw [hfix, hen]
  decide

theorem State.doFixDoorbell_ignored (h : s.helm.fix.isSome = true ∨ s.fbit fHLM_FIX_ADDR_en = false) :
    s.doFixDoorbell v = s.bump fHLM_PROMPT_CNT_fix_ignored := by
  unfold State.doFixDoorbell
  rw [if_neg (show ¬ bitAt v 0 = false from ne_false_of_eq_true hask), if_pos h]

end Doorbell

/-! ### The record is written (R379) -/

theorem State.doFixWritten_writes {s : State} {x : FixJob} (hfix : s.helm.fix = some x) {ok : Bool} {w : State} {st : Status} {d : Nat}
    (hw : s.writeFix x ok = (w, st, d)) :
    s.doFixWritten ok = if x.source = 0 then (w.noteFix st).endWaits .fix st (some d)
      else if x.source = 1 ∧ st = .ok then (w.noteFix st).doorbellDone else w.noteFix st := by
  unfold State.doFixWritten
  rw [hfix]
  dsimp only
  rw [hw]

theorem State.writeFix_lost {s : State} {x : FixJob} (hsource : x.source ≠ 2) (hdva : x.dva = true)
    (hlost : s.touchesLost x.space x.dst x.record.length = true) (ok : Bool) :
    s.writeFix x ok = (s.wakeMem portBP, .segmentLost, 0) := by
  unfold State.writeFix
  rw [if_neg hsource, if_pos ⟨hdva, hlost⟩]

theorem State.writeFix_host {s : State} {x : FixJob} (hsource : x.source ≠ 2) (hdva : x.dva = false) (hlink : s.host.perst = false) :
    s.writeFix x true = (s.hostWrite x.dst x.record, .ok, 0) := by
  have hno : ¬ x.dva = true := ne_true_of_eq_false hdva
  unfold State.writeFix
  rw [if_neg hsource, if_neg fun h => hno h.1, if_neg hno, if_pos ⟨rfl, hlink⟩]

theorem State.noteFix_ok (s : State) :
    s.noteFix .ok = ({ s with helm := { s.helm with fix := none } } : State).bump fHLM_PROMPT_CNT_fixes := rfl

theorem State.noteFix_lost (s : State) : s.noteFix .segmentLost = { s with helm := { s.helm with fix := none } } := rfl

/-- TAKE_FIX latches the record of a free fix (R379). -/
theorem bodyTakeFix_latches {k : Packet} {s : State} (hfix : s.helm.fix = none) (htype : u8 k 8 ≤ 1) :
    bodyTakeFix k s = (s.latchFix 0 k.onRing.val k.tag.toNat (u64 k 0) (u8 k 8 == 1) (u8 k 9),
      .wait .fix 0 ((s.helm.fixSeq + 1) % 2 ^ 32) 0 0 1) := by
  unfold bodyTakeFix
  rw [if_neg (by rw [hfix]; decide), if_neg (Nat.not_lt.mpr htype)]
  rfl

/-! ### The obligation -/

/-- Settles O23: the fix doorbell, TAKE_FIX and the end of the writing, a case each. -/
theorem fixesAreLatchedAndWritten : Obligations.FixesAreLatchedAndWritten := by
  unfold Obligations.FixesAreLatchedAndWritten
  refine ⟨?take, ?bell, ?ignored, ?lost, ?written⟩
  case take =>
    rintro s _ k hadmits rfl hfix htype
    exact congrArg Host.Outcome.next (State.runPrompt_awaits
      (effect := fun v => v.latchFix 0 k.onRing.val k.tag.toNat (u64 k 0) (u8 k 8 == 1) (u8 k 9)) hadmits rfl
      (bodyTakeFix_latches hfix htype))
  case bell =>
    intro v s hfree hask hfix hen
    exact congrArg Host.Outcome.next ((State.bellRow_fix hfree v).trans (State.doFixDoorbell_latches hask hfix hen))
  case ignored =>
    intro v s hfree hask h
    exact congrArg Host.Outcome.next ((State.bellRow_fix hfree v).trans (State.doFixDoorbell_ignored hask h))
  case lost =>
    rintro x s _ b hfix hsource hdva hlost rfl
    have h := State.doFixWritten_writes hfix (State.writeFix_lost (by omega) hdva hlost b)
    rw [if_pos hsource, State.noteFix_lost] at h
    exact congrArg Host.Outcome.next h
  case written =>
    intro x s hfix hdva hlink w d
    refine ⟨fun hsource => ?_, fun hsource => ?_⟩
    · have h := State.doFixWritten_writes hfix (State.writeFix_host (by omega) hdva hlink)
      rw [if_pos hsource, State.noteFix_ok] at h
      exact congrArg Host.Outcome.next h
    · have h := State.doFixWritten_writes hfix (State.writeFix_host (by omega) hdva hlink)
      rw [if_neg (by omega), if_pos ⟨hsource, rfl⟩, State.noteFix_ok] at h
      exact congrArg Host.Outcome.next h

end Sys2Proof.Machine
end


section
/-! PROOFS. The Switchyard: operations of harts, switches, ticks and expiries (O24 to O26; R381 to R389, R394). -/

namespace Sys2Proof.Machine

/-! ### What the operations of harts share (R381, R385) -/

/-- No task that was deleted while it ran stands before a hart's operation. -/
abbrev State.ownAlive (s : State) (h : Nat) : Prop := ∀ c, s.runningTask h = some c → (s.task c).deleted = false

theorem State.hartOp_alive {s : State} {h : Nat} (ha : s.ownAlive h) (f : State → State) : s.hartOp h f = f s := by
  unfold State.hartOp
  cases hr : s.runningTask h with
  | none => rfl
  | some c => exact if_neg (ne_true_of_eq_false (ha c hr))

theorem State.taskOp_manages {s : State} {h t : Nat} (ha : s.ownAlive h) (hm : mayManage h t = true) (f : State → State) :
    s.taskOp h t f = f s := (State.hartOp_alive ha _).trans (if_pos hm)

theorem State.taskOp_outside {s : State} {h t : Nat} (ha : s.ownAlive h) (hm : mayManage h t = false) (f : State → State) :
    s.taskOp h t f = s.opResult h 4 0 := (State.hartOp_alive ha _).trans (if_neg (ne_true_of_eq_false hm))

theorem State.ownOp_runs {s : State} {h c : Nat} (hc : s.runningTask h = some c) (hd : (s.task c).deleted = false)
    (f : Nat → State → State) : s.ownOp h f = f c s := by
  have ha : s.ownAlive h := fun c' hc' => by rw [hc] at hc'; cases hc'; exact hd
  exact (State.hartOp_alive ha _).trans (by rw [hc])

/-- An operation's result does not touch the Switchyard. -/
theorem State.opResult_swy (s : State) (h code flags : Nat) : (s.opResult h code flags).swy = s.swy := by
  rw [State.opResult, State.fput_swy, State.fput_swy]

theorem State.opResult_code (s : State) (h code flags : Nat) : (s.opResult h code flags).fget fSWY_H_RES_code h = code % 2 ^ 8 := by
  unfold State.opResult
  rw [State.fget_fput_beside _ _ _ (by decide) (by decide) (by decide) (.inr (by decide)), State.fget_fput _ _ _ (by decide) (by decide)]
  rfl

theorem State.task_congr {s t : State} (h : t.swy = s.swy) (c : Nat) : t.task c = s.task c := by
  unfold State.task
  rw [h]

theorem State.runningTask_congr {s t : State} (h : t.swy = s.swy) (a : Nat) : t.runningTask a = s.runningTask a := by
  unfold State.runningTask State.hart
  rw [h]

/-! ### Operations on a task (R385) -/

section TaskOps
variable {s : State} {h t : Nat} (ha : s.ownAlive h) (hm : mayManage h t = true)
include ha hm

theorem State.doCreate_free (hst : (s.task t).st = .free) (prio : Nat) :
    s.doCreate h t prio = ((s.setTask t { prio := prio }).makeReady t).opResult h 0 0 :=
  (State.taskOp_manages ha hm _).trans (if_pos hst)

theorem State.doCreate_used (hst : (s.task t).st ≠ .free) (prio : Nat) : s.doCreate h t prio = s.opResult h 5 0 :=
  (State.taskOp_manages ha hm _).trans (if_neg hst)

theorem State.doDelete_running (hst : (s.task t).st = .running) :
    s.doDelete h t = (s.setTask t { s.task t with deleted := true }).opResult h 0 0 := by
  unfold State.doDelete
  rw [State.taskOp_manages ha hm, hst]

theorem State.doDelete_idle (hrun : (s.task t).st ≠ .running) (hfree : (s.task t).st ≠ .free) :
    s.doDelete h t = ((s.dropHeldPost t).freeTask t).opResult h 0 0 := by
  unfold State.doDelete
  rw [State.taskOp_manages ha hm]
  split
  · exact absurd ‹_› hfree
  · exact absurd ‹_› hrun
  · rfl

/-- A ready task goes to the tail of its new queue. -/
theorem State.doSetPrio_ready (hst : (s.task t).st = .ready) (prio : Nat) :
    s.doSetPrio h t prio = ({ s.setTask t { s.task t with prio := prio } with
      swy := { (s.setTask t { s.task t with prio := prio }).swy with ready := s.swy.ready.filter (· ≠ t) ++ [t] } } : State).opResult h 0 0 := by
  unfold State.doSetPrio
  rw [State.taskOp_manages ha hm, if_neg (by rw [hst]; decide)]
  dsimp only
  rw [State.task_setTask, if_pos hst]
  rfl

theorem State.doSetFlags_used (hst : (s.task t).st ≠ .free) (mask : Nat) :
    s.doSetFlags h t mask = ((s.setTask t { s.task t with flags := Nat.lor (s.task t).flags (mask % 2 ^ 32) }).wakeIfHolds t).opResult h 0 0 := by
  unfold State.doSetFlags
  rw [State.taskOp_manages ha hm, if_neg hst]
  exact congrArg (fun v : State => v.opResult h 0 0) (if_neg hst)

end TaskOps

theorem State.setPrio_frame {s : State} {h t : Nat} {k : Task} {ready : List Nat} {u : State}
    (hu : u = ({ s.setTask t k with swy := { (s.setTask t k).swy with ready := ready } } : State).opResult h 0 0) :
    u.swy.ready = ready ∧ u.task t = k ∧ (∀ c, c ≠ t → u.task c = s.task c) ∧ u.fget fSWY_H_RES_code h = 0 := by
  have hswy : u.swy = { (s.setTask t k).swy with ready := ready } := by rw [hu, State.opResult_swy]
  have htasks : ∀ c, u.task c = (s.setTask t k).task c := fun c => by
    unfold State.task
    rw [hswy]
  refine ⟨by rw [hswy], (htasks t).trans (State.task_setTask s t k), fun c hc => (htasks c).trans (State.task_setTask_ne s t k c hc), ?_⟩
  rw [hu]
  exact State.opResult_code _ h 0 0

theorem State.doSetPrio_changes (s : State) (h t prio : Nat) : Changes [.reg .SWY_H_RES, .swy] s (s.doSetPrio h t prio) :=
  (keeps_doSetPrio (Fits.refl _) (Keeps.refl _ s)).changes (by decide +kernel)

/-- Settles O24: each operation, once the hart's own task stands and the task is in the hart's range. -/
theorem taskOperationsAct : Obligations.TaskOperationsAct := by
  unfold Obligations.TaskOperationsAct
  refine ⟨fun h t s hm ha => ⟨?create, ?used, ?running, ?idle, ?prio, ?flags⟩, ?outside⟩
  case create => exact fun prio hst => congrArg Host.Outcome.next (State.doCreate_free ha hm hst _)
  case used => exact fun prio hst => congrArg Host.Outcome.next (State.doCreate_used ha hm hst _)
  case running => exact fun hst => congrArg Host.Outcome.next (State.doDelete_running ha hm hst)
  case idle => exact fun hrun hfree => congrArg Host.Outcome.next (State.doDelete_idle ha hm hrun hfree)
  case prio =>
    intro prio hst
    obtain ⟨hready, htask, hothers, hcode⟩ := State.setPrio_frame (State.doSetPrio_ready ha hm hst prio.toNat)
    exact ⟨_, rfl, hready, htask, hothers, hcode, State.doSetPrio_changes s h.val t.toNat prio.toNat⟩
  case flags => exact fun mask hst => congrArg Host.Outcome.next (State.doSetFlags_used ha hm hst _)
  case outside =>
    intro h t prio mask s hm ha
    exact ⟨congrArg Host.Outcome.next (State.taskOp_outside ha hm _), congrArg Host.Outcome.next (State.taskOp_outside ha hm _),
      congrArg Host.Outcome.next (State.taskOp_outside ha hm _), congrArg Host.Outcome.next (State.taskOp_outside ha hm _)⟩

/-! ### Operations of the own task (R385, R387, R389) -/

section OwnOps
variable {s v : State} {h c : Nat} (hc : s.runningTask h = some c) (hd : (s.task c).deleted = false)
include hc hd

/-- An operation whose arguments were stored first acts on the task as it was. -/
theorem State.ownOp_stored (hswy : v.swy = s.swy) (f : Nat → State → State) : v.ownOp h f = f c v :=
  State.ownOp_runs ((State.runningTask_congr hswy h).trans hc) (by rw [State.task_congr hswy]; exact hd) f

theorem State.doClearFlags_runs (mask : Nat) (hv : v = s.fput fSWY_H_ARG_mask h mask) :
    s.doClearFlags h mask = (v.setTask c { s.task c with flags := (s.task c).flags - Nat.land (s.task c).flags mask }).opResult h 0 0 := by
  have hswy : v.swy = s.swy := by rw [hv, State.fput_swy]
  unfold State.doClearFlags
  rw [← hv, State.ownOp_stored hc hd hswy, State.task_congr hswy]

section Wait
variable {mask ticks : Nat} (all consume : Bool) (hmask : mask ≠ 0)
  (hv : v = (s.fput fSWY_H_ARG_mask h mask).fput fSWY_H_ARG_ticks h ticks)
include hmask hv

theorem State.doWait_holds (hw : waitHolds (s.task c).flags mask all = true) :
    s.doWait h mask all consume ticks = (v.setTask c { s.task c with
      flags := if consume then (s.task c).flags - Nat.land (s.task c).flags mask else (s.task c).flags }).opResult h 0 (Nat.land (s.task c).flags mask) := by
  have hswy : v.swy = s.swy := by rw [hv, State.fput_swy, State.fput_swy]
  unfold State.doWait
  rw [← hv, State.ownOp_stored hc hd hswy, if_neg hmask, State.task_congr hswy]
  exact if_pos hw

theorem State.doWait_begins (hw : waitHolds (s.task c).flags mask all = false) (ht : ticks = 0) :
    s.doWait h mask all consume ticks = (v.setTask c { s.task c with
      st := .waiting, mask := mask, all := all, consume := consume, resDue := true }).leaveHart h 2 := by
  have hswy : v.swy = s.swy := by rw [hv, State.fput_swy, State.fput_swy]
  unfold State.doWait
  rw [← hv, State.ownOp_stored hc hd hswy, if_neg hmask, State.task_congr hswy]
  dsimp only
  rw [if_neg (ne_true_of_eq_false hw), if_pos ht]

end Wait

theorem State.doDelay_delays {ticks : Nat} (ht : ticks ≠ 0) (hv : v = s.fput fSWY_H_ARG_ticks h ticks) :
    s.doDelay h ticks = ((v.setTask c { s.task c with st := .delayed, resDue := true }).delayInsert c (v.tickReading ticks)).leaveHart h 2 := by
  have hswy : v.swy = s.swy := by rw [hv, State.fput_swy]
  unfold State.doDelay
  rw [← hv, State.ownOp_stored hc hd hswy, if_neg ht, State.task_congr hswy]

end OwnOps

/-! ### Messages of the own task (R386, R394) -/

theorem State.putHartMsg_swy (s : State) (h n x : Nat) : (s.putHartMsg h n x).swy = s.swy :=
  (keeps_putHartMsg (Fits.refl _) (Keeps.refl _ s)).same .swy rfl

theorem State.putHartMsg_depot (s : State) (h n x : Nat) : (s.putHartMsg h n x).depot = s.depot :=
  (keeps_putHartMsg (Fits.refl _) (Keeps.refl _ s)).same .depot rfl

/-- The message words of a hart are no part of a queue's descriptor. -/
theorem State.putHartMsg_qctl (s : State) (h n x : Nat) {f : Fld} (hf : f.id = .DPT_Q_CTL) (i j : Nat) :
    (s.putHartMsg h n x).fget f i j = s.fget f i j := by
  refine State.fget_of_same ?_ i j
  rw [hf]
  exact (keeps_putHartMsg (Fits.refl _) (Keeps.refl _ s)).same (.reg .DPT_Q_CTL) rfl

/-- A queue's descriptor and contents are as in another state. -/
structure State.SameQueue (s v : State) (q : Nat) : Prop where
  on : v.qOn q = s.qOn q
  elem : v.qElem q = s.qElem q
  cap : v.qCap q = s.qCap q
  prod : v.fget fDPT_Q_CTL_prod q = s.fget fDPT_Q_CTL_prod q
  cons : v.fget fDPT_Q_CTL_cons q = s.fget fDPT_Q_CTL_cons q
  held : v.dq q = s.dq q

theorem State.putHartMsg_sameQueue (s : State) (h n x q : Nat) : s.SameQueue (s.putHartMsg h n x) q where
  on := by unfold State.qOn State.fbit; rw [State.putHartMsg_qctl s h n x rfl]
  elem := by unfold State.qElem; rw [State.putHartMsg_qctl s h n x rfl]
  cap := by unfold State.qCap State.qElem; rw [State.putHartMsg_qctl s h n x rfl, State.putHartMsg_qctl s h n x rfl]
  prod := State.putHartMsg_qctl s h n x rfl q 0
  cons := State.putHartMsg_qctl s h n x rfl q 0
  held := by unfold State.dq; rw [State.putHartMsg_depot]

theorem State.ne_zero_of_qOn {s : State} {q : Nat} (hq : s.qOn q = true) : q ≠ 0 := by
  rintro rfl
  exact absurd hq (by simp [State.qOn])

/-- What the Depot checks before a task's element is accepted or held (R392). -/
theorem State.commit_task_takes {s : State} {q c len x : Nat} (hq : s.qOn q = true) (hprod : bitAt (s.fget fDPT_Q_CTL_prod q) 1 = true)
    (hlen : len ≤ s.qElem q) :
    s.commit q (.task c) len x = if s.qCap q ≤ (s.dq q).elems.length ∨ (s.dq q).held ≠ [] then
      (s.setDq q { s.dq q with held := (s.dq q).held ++ [(.task c, x)] }, .held) else (s.qPush q x, .accepted) := by
  unfold State.commit
  rw [if_neg (State.ne_zero_of_qOn hq), if_neg]
  rintro (h | h | h)
  · exact ne_true_of_eq_false h hq
  · exact ne_true_of_eq_false h hprod
  · exact absurd h (Nat.not_lt.mpr hlen)

section Post
variable {s v : State} {h q c msg : Nat} (hc : s.runningTask h = some c) (hd : (s.task c).deleted = false) (hq : s.qOn q = true)
  (hv : v = s.putHartMsg h 256 msg) (hprod : bitAt (s.fget fDPT_Q_CTL_prod q) 1 = true) (hrange : h < 2 ∨ 1024 ≤ q)
include hc hd hq hv hprod hrange

theorem State.doPost_accepted (hroom : (s.dq q).elems.length < s.qCap q) (hheld : (s.dq q).held = []) :
    s.doPost h q msg = (v.qPush q (msg % 2 ^ (8 * s.qElem q))).opResult h 0 0 := by
  obtain ⟨hon, helem, hcap, hpr, hcons, hdq⟩ : s.SameQueue v q := hv ▸ State.putHartMsg_sameQueue s h 256 msg q
  have hcommit := State.commit_task_takes (s := v) (c := c) (x := msg % 2 ^ (8 * s.qElem q)) (hon.trans hq) (by rw [hpr]; exact hprod)
    (Nat.le_of_eq helem.symm)
  rw [hcap, hdq, if_neg (by rw [hheld]; simp [hroom])] at hcommit
  unfold State.doPost
  rw [← hv, State.ownOp_stored hc hd (hv ▸ State.putHartMsg_swy s h 256 msg), if_neg, if_neg (by omega)]
  · dsimp only
    rw [if_neg, helem, hcommit]
    rw [hcap, hdq, hheld]
    simp [Nat.not_le.mpr hroom]
  · rw [hon, hq, hpr, hprod]
    decide

theorem State.doPost_held (hfull : s.qCap q ≤ (s.dq q).elems.length) (hcons0 : s.fget fDPT_Q_CTL_cons q ≠ 0) :
    s.doPost h q msg = ((v.setDq q { s.dq q with held := (s.dq q).held ++ [(.task c, msg % 2 ^ (8 * s.qElem q))] }).setTask c
      { s.task c with st := .held, queue := q, resDue := true }).leaveHart h 2 := by
  obtain ⟨hon, helem, hcap, hpr, hcons, hdq⟩ : s.SameQueue v q := hv ▸ State.putHartMsg_sameQueue s h 256 msg q
  have hswy : v.swy = s.swy := hv ▸ State.putHartMsg_swy s h 256 msg
  have hcommit := State.commit_task_takes (s := v) (c := c) (x := msg % 2 ^ (8 * s.qElem q)) (hon.trans hq) (by rw [hpr]; exact hprod)
    (Nat.le_of_eq helem.symm)
  rw [hcap, hdq, if_pos (.inl hfull)] at hcommit
  unfold State.doPost
  rw [← hv, State.ownOp_stored hc hd hswy, if_neg, if_neg (by omega)]
  · dsimp only
    rw [if_neg (by rw [hcons]; exact fun hall => hcons0 hall.2.1), helem, hcommit]
    dsimp only
    rw [State.task_congr (s := s) (t := v.setDq q _) hswy]
  · rw [hon, hq, hpr, hprod]
    decide

end Post

section Take
variable {s : State} {h q c : Nat} (hc : s.runningTask h = some c) (hd : (s.task c).deleted = false) (hq : s.qOn q = true)
  (hcons : s.fget fDPT_Q_CTL_cons q = 0) (howner : s.fget fDPT_Q_OWNER_owner q = c)
include hc hd hq hcons howner

theorem State.doTake_takes {e : Nat} {u : State} (htake : s.qTake q = some (e, u)) :
    s.doTake h q = (u.putHartMsg h (s.qElem q) e).opResult h 0 0 := by
  unfold State.doTake
  rw [State.ownOp_runs hc hd, if_neg (ne_false_of_eq_true hq), if_neg (by simp [hcons, howner]), htake]
  have helem : u.qElem q = s.qElem q := by
    unfold State.qElem
    rw [State.fget_of_same ((keeps_qTake_eq htake (Fits.refl _) (Keeps.refl _ s)).same (.reg .DPT_Q_CTL) rfl)]
  exact congrArg (fun n => (u.putHartMsg h n e).opResult h 0 0) helem

theorem State.doTake_empty (hempty : (s.dq q).elems = []) : s.doTake h q = s.opResult h 3 0 := by
  have htake : s.qTake q = none := by
    unfold State.qTake
    dsimp only
    rw [hempty]
  unfold State.doTake
  rw [State.ownOp_runs hc hd, if_neg (ne_false_of_eq_true hq), if_neg (by simp [hcons, howner]), htake]

end Take

/-- Settles O25: the own task's operations act on it as it stood, their arguments stored first. -/
theorem ownTaskOperationsAct : Obligations.OwnTaskOperationsAct := by
  unfold Obligations.OwnTaskOperationsAct
  refine ⟨fun h c s hc hd => ⟨?clear, ?wait, ?delay, ?yield, ?exit⟩, fun h q c s hc hd hq => ⟨?post, ?take⟩⟩
  case clear => exact fun mask v hv => congrArg Host.Outcome.next (State.doClearFlags_runs hc hd _ hv)
  case wait =>
    intro mask ticks all consume v hmask hv
    exact ⟨fun hw => congrArg Host.Outcome.next (State.doWait_holds hc hd all consume hmask hv hw),
      fun hw ht => congrArg Host.Outcome.next (State.doWait_begins hc hd all consume hmask hv hw ht)⟩
  case delay => exact fun ticks v ht hv => congrArg Host.Outcome.next (State.doDelay_delays hc hd ht hv)
  case yield => exact congrArg Host.Outcome.next (State.ownOp_runs hc hd _)
  case exit => exact congrArg Host.Outcome.next (State.ownOp_runs hc hd _)
  case post =>
    intro msg v hv hprod hrange _
    exact ⟨fun hroom hheld => congrArg Host.Outcome.next (State.doPost_accepted hc hd hq hv hprod hrange hroom hheld),
      fun hfull hcons => congrArg Host.Outcome.next (State.doPost_held hc hd hq hv hprod hrange hfull hcons)⟩
  case take =>
    intro hcons howner
    exact ⟨fun e u htake => congrArg Host.Outcome.next (State.doTake_takes hc hd hq hcons howner htake),
      fun hempty => congrArg Host.Outcome.next (State.doTake_empty hc hd hq hcons howner hempty)⟩

/-! ### Switches, ticks and expiries (R383, R384, R388, R389) -/

section Switch
variable {s : State} {h : Nat} (hrun : s.runningTask h = none)
include hrun

theorem State.doSwitch_idle (hnext : s.nextTask h = none) : s.doSwitch h = s.setHart h {} := by
  unfold State.doSwitch State.runNext
  rw [hrun, hnext]

theorem State.doSwitch_takes {t : Nat} (hnext : s.nextTask h = some t) : s.doSwitch h = s.runTask h t := by
  unfold State.doSwitch State.runNext
  rw [hrun, hnext]

end Switch

theorem State.beginForwarded_none {s : State} (h : s.helm.forwarded = []) : s.beginForwarded = s := by
  unfold State.beginForwarded
  rw [h]
  rfl

theorem State.doSwitchyardTick_helm (s : State) : s.doSwitchyardTick.helm = s.helm := by
  unfold State.doSwitchyardTick
  dsimp only
  rw [State.fput_helm, State.advance_helm]

theorem State.doSwitchyardTick_last (s : State) :
    s.doSwitchyardTick.fget fSWY_TICK_LAST_cycles = (s.fget fSWY_TICK_LAST_cycles + s.swy.period) % 2 ^ 64 := by
  show ((s.advance (s.mer0Instant (s.tickReading 1))).fput fSWY_TICK_LAST_cycles 0 (s.tickReading 1)).fget fSWY_TICK_LAST_cycles = _
  rw [State.fget_fput _ _ _ (by decide) (by decide), State.tickReading, Nat.one_mul]
  rfl

theorem State.doDelayExpiry_first {s : State} {t : Nat} {rest : List Nat} (hd : s.swy.delays = t :: rest)
    (hexp : (s.task t).exp ≤ s.fget fSWY_TICK_LAST_cycles) : s.doDelayExpiry t = s.expire t := by
  unfold State.doDelayExpiry
  rw [hd, if_pos ⟨by simp, hexp⟩]
  simp

theorem bits_low_of_lt {v hi : Nat} (h : v < 2 ^ (hi + 1)) : bits v hi 0 = v := by
  unfold bits
  rw [Nat.pow_zero, Nat.div_one, Nat.sub_zero, Nat.mod_eq_of_lt h]

section TickWrite
variable {v : BitVec 32} {s : State} (htakes : s.takesRow .SWY_TICK 0)
include htakes

theorem exec_swyTickWrite_takes : exec (.swyTickWrite v) s = .next (s.doSwyTickWrite v.toNat) := by
  rw [exec_swyTickWrite, execSwyTickWrite, State.rowWrite_takes (t := s) rfl htakes]
  unfold State.regEffect
  dsimp only
  rw [fullWord_whole, Nat.mod_eq_of_lt (a := v.toNat) (b := 2 ^ RegId.SWY_TICK.info.width) v.isLt]

theorem exec_swyTickWrite_good (hv : v.toNat < 2 ^ 21) (hlo : 400 ≤ v.toNat) (hhi : v.toNat ≤ 1600000) (h8 : v.toNat % 8 = 0) :
    exec (.swyTickWrite v) s =
      .next { s.fput fSWY_TICK_period 0 v.toNat with swy := { s.swy with newPeriod := some v.toNat } } := by
  have hbits : bits v.toNat 20 0 = v.toNat := bits_low_of_lt hv
  rw [exec_swyTickWrite_takes htakes, State.doSwyTickWrite, hbits]
  exact congrArg Host.Outcome.next (if_pos ⟨hlo, hhi, h8⟩)

theorem exec_swyTickWrite_bad (hv : v.toNat < 2 ^ 21) (hbad : v.toNat < 400 ∨ 1600000 < v.toNat ∨ v.toNat % 8 ≠ 0) :
    exec (.swyTickWrite v) s = .next (s.fput fSWY_STATUS_tick_err 0 1) := by
  have hbits : bits v.toNat 20 0 = v.toNat := bits_low_of_lt hv
  rw [exec_swyTickWrite_takes htakes, State.doSwyTickWrite, hbits]
  exact congrArg Host.Outcome.next (if_neg (by omega))

end TickWrite

/-- Settles O26: a switch on an idle hart, a tick without forwarded packets, an expiry and the tick period. -/
theorem switchyardRuns : Obligations.SwitchyardRuns := by
  unfold Obligations.SwitchyardRuns
  refine ⟨fun h s hrun => ⟨?idle, ?takes⟩, ?tick, ?expiry, ?period⟩
  case idle => exact fun hnext => congrArg Host.Outcome.next (State.doSwitch_idle hrun hnext)
  case takes => exact fun t hnext => congrArg Host.Outcome.next (State.doSwitch_takes hrun hnext)
  case tick =>
    intro s hfwd
    have hkeeps := keeps_doSwitchyardTick (Fits.refl _) (Keeps.refl _ s)
    have hnone := State.beginForwarded_none (s := s.doSwitchyardTick) (by rw [State.doSwitchyardTick_helm]; exact hfwd)
    exact ⟨_, congrArg Host.Outcome.next hnone, State.doSwitchyardTick_last s, rfl, rfl, hkeeps.now, hkeeps.changes (by decide +kernel)⟩
  case expiry => exact fun t rest s hd hexp => congrArg Host.Outcome.next (State.doDelayExpiry_first hd hexp)
  case period =>
    exact fun v s htakes hv => ⟨exec_swyTickWrite_good htakes hv, exec_swyTickWrite_bad htakes hv⟩

end Sys2Proof.Machine
end


section
/-! PROOFS. The Depot's queues: mirrors, spilled elements, markers, enabling and disabling (O27; R209, R210, R321, R393, R397, R400). -/

namespace Sys2Proof.Machine

/-! ### A host mirror (R397) -/

section Mirror
variable {s u : State} {q e : Nat} (hq : s.qOn q = true) (hcons : s.fget fDPT_Q_CTL_cons q = 1)
  (hslot : slotsHeld (s.fget fDPT_Q_MIR_PTR_mirrored q) (s.fget fDPT_Q_MIR_PTR_released q) < 2 ^ s.fget fDPT_Q_MIRROR_slots_log2 q)
  (htake : s.qTake q = some (e, u))
include hq hcons hslot htake

/-- The element goes to its slot, and the head after it where write-back is on. -/
theorem State.qMirror_writes {w : State} {slots base : Nat} (hslots : slots = 2 ^ s.fget fDPT_Q_MIRROR_slots_log2 q)
    (hbase : base = u.fget fDPT_Q_MIRROR_addr q * 4096)
    (hw : w = (u.hostWrite (base + s.fget fDPT_Q_HEAD_head q % slots * u.qElem q) (bytesOf (u.qElem q) e)).tick fDPT_Q_MIR_PTR_mirrored q) :
    s.qMirror q = if w.fbit fDPT_Q_MIRROR_wb_en q = true then
      w.hostWrite (base + slots * w.qElem q) (bytesOf 8 (w.fget fDPT_Q_HEAD_head q)) else w := by
  rw [hw, hbase, hslots]
  unfold State.qMirror
  rw [if_pos ⟨hq, hcons⟩]
  dsimp only
  rw [if_pos hslot, htake]

end Mirror

/-! ### A spilled element comes back (R321, R393) -/

section Refill
variable {s : State} {q : Nat}

theorem State.qRefill_nothing (h : (s.dq q).elems.length ≤ (s.dq q).inSram ∨ s.qShare q ≤ (s.dq q).inSram) (bad : Bool) :
    s.qRefill q bad = s := by
  unfold State.qRefill
  dsimp only
  rw [if_neg (by omega)]

variable {i at' : Nat} {u : State} {bs : List Byte} {e : Bool} (hi : i = (s.dq q).inSram) (hsome : i < (s.dq q).elems.length)
  (hshare : i < s.qShare q) (hat : at' = s.fget fDPT_Q_HEAD_head q + i) (hread : s.spillRead q at' = (u, bs, e))
include hi hsome hshare hat hread

theorem State.qRefill_reads (bad : Bool) :
    s.qRefill q bad = if bad = true ∨ e = true then
      (((u.bump fDPT_MARK_markers).bump fDPT_Q_CNT_markers q).setDq q { u.dq q with
        elems := (u.dq q).elems.set i (pack [(16, 4, 0xF), (32, 32, 1), (64, 64, at')]), inSram := i + 1 }).countFix 11
      else u.setDq q { u.dq q with elems := (u.dq q).elems.set i (ofBytes bs), inSram := i + 1 } := by
  unfold State.qRefill
  dsimp only
  rw [← hi, if_pos ⟨hsome, hshare⟩, ← hat, hread]

end Refill

theorem State.qMark_marks {s : State} {q : Nat} (hdrop : (s.dq q).dropping = true) (hlow : 4 * (s.dq q).elems.length ≤ 3 * s.qCap q) :
    s.qMark q = ((((s.setDq q { s.dq q with dropping := false, dropped := 0, dropSeq := 0 }).qPush q
      (pack [(16, 4, 0xF), (32, 32, min (s.dq q).dropped (2 ^ 32 - 1)), (64, 64, (s.dq q).dropSeq)])).bump fDPT_MARK_markers).bump
      fDPT_Q_CNT_markers q).countFix 11 :=
  if_pos ⟨hdrop, hlow⟩

/-! ### Enabling and disabling (R400) -/

section Enable
variable {s : State} {q v : Nat} (huser : 1024 ≤ q)
include huser

theorem State.doDptQCtlWrite_enable {u : State} (hoff : s.fbit fDPT_Q_CTL_en q = false) (hone : v % 2 = 1)
    (hu : u = s.wr .DPT_Q_CTL q 0 (BitVec.ofNat 64 (setBits (setBits (s.rd .DPT_Q_CTL q).toNat 21 3 (bits v 21 3)) 0 0 0))) :
    s.doDptQCtlWrite q v = if u.queueFits q v = true then
      (u.rstAll [.DPT_Q_TAIL, .DPT_Q_HEAD, .DPT_Q_MIR_PTR] q).fput fDPT_Q_CTL_en q 1 else u.fput fDPT_STATUS_q_err 0 1 := by
  have hen : ¬ bits (s.rd .DPT_Q_CTL q).toNat 0 0 = 1 := fun h => ne_true_of_eq_false hoff (beq_iff_eq.mpr h)
  rw [hu]
  unfold State.doDptQCtlWrite
  dsimp only
  rw [if_neg (by omega), if_neg hen, if_neg (by omega)]

theorem State.doDptQCtlWrite_disable (hon : s.fbit fDPT_Q_CTL_en q = true) (hzero : v % 2 = 0)
    (hsame : bits v 21 3 = bits (s.rd .DPT_Q_CTL q).toNat 21 3) :
    s.doDptQCtlWrite q v = if s.queueBound q = true then s.fput fDPT_STATUS_cfg_drop 0 1 else s.disableQueue q := by
  have hen : bits (s.rd .DPT_Q_CTL q).toNat 0 0 = 1 := beq_iff_eq.mp hon
  unfold State.doDptQCtlWrite
  dsimp only
  rw [if_neg (by omega), if_pos hen, if_pos hsame, if_neg (by omega)]

end Enable

theorem exec_dptQCtlWrite_takes {q : QueueNo} {v : BitVec 32} {s : State} (htakes : s.takesRow .DPT_Q_CTL q.val) :
    exec (.dptQCtlWrite q v) s = .next (s.doDptQCtlWrite q.val v.toNat) := by
  rw [exec_dptQCtlWrite, execDptQCtlWrite, State.rowWrite_takes (t := s) rfl htakes]
  unfold State.regEffect
  dsimp only
  rw [fullWord_whole, Nat.mod_eq_of_lt (a := v.toNat) (b := 2 ^ RegId.DPT_Q_CTL.info.width) v.isLt]

/-- Settles O27: mirror, refill, marker and the enable bit, each by the branch that its premises choose. -/
theorem depotQueuesRun : Obligations.DepotQueuesRun := by
  unfold Obligations.DepotQueuesRun
  refine ⟨?mirror, ?refill, ?nothing, ?marker, ?enable⟩
  case mirror =>
    intro q e s u hq hcons hslot htake slots base w
    have h := State.qMirror_writes (w := w) (slots := slots) (base := base) hq hcons hslot htake rfl rfl rfl
    exact ⟨fun hwb => congrArg Host.Outcome.next (h.trans (if_neg (ne_true_of_eq_false hwb))),
      fun hwb => congrArg Host.Outcome.next (h.trans (if_pos hwb))⟩
  case refill =>
    intro q bad i at' s u bs e hi hsome hshare hat hread
    have h := State.qRefill_reads hi hsome hshare hat hread bad
    exact ⟨fun hbad he => congrArg Host.Outcome.next (h.trans (if_neg (by rw [hbad, he]; decide))),
      fun hbad => congrArg Host.Outcome.next (h.trans (if_pos hbad))⟩
  case nothing => exact fun q bad s h => congrArg Host.Outcome.next (State.qRefill_nothing h bad)
  case marker => exact fun q s hdrop hlow => congrArg Host.Outcome.next (State.qMark_marks hdrop hlow)
  case enable =>
    intro q v s htakes huser
    refine ⟨fun hoff hone => ?_, fun hon hzero hsame => ?_⟩
    · intro u
      have h := (exec_dptQCtlWrite_takes htakes).trans
        (congrArg Host.Outcome.next (State.doDptQCtlWrite_enable (u := u) huser hoff hone rfl))
      exact ⟨fun hfits => h.trans (congrArg Host.Outcome.next (if_pos hfits)),
        fun hfits => h.trans (congrArg Host.Outcome.next (if_neg (ne_true_of_eq_false hfits)))⟩
    · have h := (exec_dptQCtlWrite_takes htakes).trans
        (congrArg Host.Outcome.next (State.doDptQCtlWrite_disable huser hon hzero hsame))
      exact ⟨fun hbound => h.trans (congrArg Host.Outcome.next (if_pos hbound)),
        fun hbound => h.trans (congrArg Host.Outcome.next (if_neg (ne_true_of_eq_false hbound)))⟩

end Sys2Proof.Machine
end


section
/-! PROOFS. Writes reach the stack: the arbiter, fences and the write queue (O28; R21, R25, R315). -/

namespace Sys2Proof.Machine

/-! ### A grant (R21, R314) -/

section Grant
variable {s u v : State} {ch : Nat} {r : ArbReq} (hu : u = s.offerSpills) (hserve : u.memServing = true) (hok : u.chFaulted ch = false)
  (hpick : pickGrant (u.rtTokens ch) (u.mgTokens ch) (u.chan ch).last (u.chan ch).waiting = some r)
  (hv : v = u.setChan ch (u.grantedChan ch r))
include hu hserve hok hpick hv

/-- The arbiter serves the request that it picked. -/
theorem State.doArbiterGrant_serves : s.doArbiterGrant ch = v.serveReq ch r := by
  unfold State.doArbiterGrant State.grant
  rw [← hu, if_pos ⟨hserve, hok⟩, hpick, hv]
  rfl

end Grant

theorem State.serveReq_write {s : State} {r : ArbReq} {w : BeatWrite} (hw : r.write = some w) (ch : Nat) :
    s.serveReq ch r = s.enqueueWrite ch w := by
  unfold State.serveReq
  rw [hw]

theorem State.serveReq_read {s : State} {r : ArbReq} (hw : r.write = none) (ch : Nat) :
    s.serveReq ch r = (s.pieceNow r.port r.addr r.len).1.pieceBack r.addr (s.pieceNow r.port r.addr r.len).2 := by
  unfold State.serveReq
  rw [hw]

theorem State.enqueueWrite_room {s : State} {ch : Nat} (h : (s.chan ch).queue.length < 64) (w : BeatWrite) :
    s.enqueueWrite ch w = s.setChan ch { s.chan ch with queue := (s.chan ch).queue ++ [w] } := by
  unfold State.enqueueWrite
  rw [if_pos h]

theorem State.enqueueWrite_full {s : State} {ch : Nat} (h : 64 ≤ (s.chan ch).queue.length) (w : BeatWrite) :
    s.enqueueWrite ch w = (s.drain ch 1).setChan ch { (s.drain ch 1).chan ch with queue := ((s.drain ch 1).chan ch).queue ++ [w] } := by
  unfold State.enqueueWrite
  rw [if_neg (Nat.not_lt.mpr h)]

/-! ### The spill port and fences (R25) -/

theorem State.offerSpills_none {s : State} (h : s.depot.spills = []) : s.offerSpills = s := by
  unfold State.offerSpills
  rw [h, List.foldl_nil, ← h]

theorem State.doFenceComplete_eq {s u : State} {port : Nat} (hu : u = if port = portDS then s.offerSpills else s) :
    s.doFenceComplete port =
      if u.portQuiet port = true then { u with hbm := { u.hbm with fencesDone := port :: u.hbm.fencesDone } } else u := by
  unfold State.doFenceComplete
  dsimp only
  rw [← hu]

/-! ### A whole beat reaches the stack (R315) -/

theorem State.memByte_setMemByte (s : State) (ch a : Nat) (b : Byte) (c k : Nat) :
    (s.setMemByte ch a b).memByte c k = if memKey c k = memKey ch a then b else s.memByte c k :=
  nget_nset 0 _ _ b s.hbm.mem

theorem memKey_succ (ch a : Nat) : memKey ch (a + 1) = memKey ch a + 1 := by
  unfold memKey
  omega

theorem State.memByte_setMark (s : State) (ch a : Nat) (m : BeatMark) (c k : Nat) : (s.setMark ch a m).memByte c k = s.memByte c k := rfl

theorem State.chan_setMark (s : State) (ch a : Nat) (m : BeatMark) (c : Nat) : (s.setMark ch a m).chan c = s.chan c := rfl

theorem bitAt_allOnes_succ (n : Nat) : bitAt (2 ^ (n + 1) - 1) 0 = true := by
  unfold bitAt
  rw [Nat.testBit_two_pow_sub_one]
  exact decide_eq_true (Nat.succ_pos n)

theorem allOnes_succ_half (n : Nat) : (2 ^ (n + 1) - 1) / 2 = 2 ^ n - 1 := by
  have : 2 ^ (n + 1) = 2 * 2 ^ n := Nat.pow_succ'
  omega

/-- The bytes of a write whose mask is full are stored one after another. -/
theorem State.storeBytes_succ_full (s : State) (ch a d n : Nat) :
    s.storeBytes ch a (2 ^ (n + 1) - 1) d (n + 1) = (s.setMemByte ch a (BitVec.ofNat 8 d)).storeBytes ch (a + 1) (2 ^ n - 1) (d / 256) n := by
  conv => lhs; unfold State.storeBytes
  rw [if_pos (bitAt_allOnes_succ n), allOnes_succ_half]

/-- Bytes outside the span stay. -/
theorem State.storeBytes_full_other (ch : Nat) : ∀ (n : Nat) (s : State) (a d c k : Nat),
    (memKey c k < memKey ch a ∨ memKey ch a + n ≤ memKey c k) →
    (s.storeBytes ch a (2 ^ n - 1) d n).memByte c k = s.memByte c k := by
  intro n
  induction n with
  | zero => intro s a d c k _; rfl
  | succ n ih =>
    intro s a d c k h
    have hkey := memKey_succ ch a
    rw [State.storeBytes_succ_full, ih _ (a + 1) _ c k (by rw [hkey]; omega), State.memByte_setMemByte, if_neg (by omega)]

/-- Bytes of the span hold what was written. -/
theorem State.storeBytes_full_read (ch : Nat) : ∀ (n : Nat) (s : State) (a d i : Nat), i < n →
    (s.storeBytes ch a (2 ^ n - 1) d n).memByte ch (a + i) = BitVec.ofNat 8 (d / 256 ^ i) := by
  intro n
  induction n with
  | zero => intro s a d i h; omega
  | succ n ih =>
    intro s a d i hi
    rw [State.storeBytes_succ_full]
    cases i with
    | zero =>
      have hkey := memKey_succ ch a
      show ((s.setMemByte ch a (BitVec.ofNat 8 d)).storeBytes ch (a + 1) (2 ^ n - 1) (d / 256) n).memByte ch a = _
      rw [State.storeBytes_full_other ch n _ (a + 1) _ ch a (by omega), State.memByte_setMemByte, if_pos rfl, Nat.pow_zero, Nat.div_one]
    | succ i =>
      have hat : a + (i + 1) = a + 1 + i := by omega
      rw [hat, ih _ (a + 1) (d / 256) i (by omega), Nat.div_div_eq_div_mul, Nat.pow_succ']

theorem State.memByte_congr {s t : State} (h : t.hbm.mem = s.hbm.mem) (c k : Nat) : t.memByte c k = s.memByte c k := by
  unfold State.memByte
  rw [h]

section Drain
variable {s : State} {ch : Nat} {w : BeatWrite} {rest : List BeatWrite} (hqueue : (s.chan ch).queue = w :: rest)
include hqueue

/-- The oldest entry of a write queue leaves it for the stack. -/
theorem State.drain_one : s.drain ch 1 = ((s.setChan ch { s.chan ch with queue := rest }).issue ch w.addr (some w)).storeBeat ch w := by
  conv => lhs; unfold State.drain
  rw [hqueue]
  rfl

/-- The state of which the oldest entry's bytes are stored. -/
theorem State.drain_one_whole (hmask : w.mask = 2 ^ 32 - 1) :
    ∃ u : State, (u.chan ch).queue = rest ∧ u.hbm.mem = s.hbm.mem ∧
      s.drain ch 1 = (u.storeBytes ch w.addr (2 ^ 32 - 1) w.data 32).setMark ch w.addr .clean := by
  refine ⟨(s.setChan ch { s.chan ch with queue := rest }).issue ch w.addr (some w), ?_, rfl, ?_⟩
  · rw [State.issue, State.chan_setChan, State.chan_setChan]
  · rw [State.drain_one hqueue, State.storeBeat, if_pos hmask, hmask]

end Drain

theorem State.storeBytes_chan (s : State) (ch a mask d n c : Nat) : (s.storeBytes ch a mask d n).chan c = s.chan c := by
  obtain ⟨hchans, -⟩ := (keeps_storeBytes (a1 := ch) (a2 := a) (a3 := mask) (a4 := d) (a5 := n) (Fits.refl _) (Keeps.refl _ s)).same .hbm rfl
  unfold State.chan
  rw [hchans]

theorem State.doWriteQueueDrain_drains {s : State} {ch : Nat} (hserve : s.memServing = true) (hok : s.chFaulted ch = false)
    (hdue : 48 ≤ (s.chan ch).queue.length ∨ (s.chan ch).waiting.all (fun r => r.write.isSome) = true) :
    s.doWriteQueueDrain ch = s.drain ch 1 :=
  if_pos ⟨hserve, hok, hdue⟩

/-- Settles O28: a grant by what the request is, and a drain as thirty-two bytes stored. -/
theorem writesReachTheStack : Obligations.WritesReachTheStack := by
  unfold Obligations.WritesReachTheStack
  refine ⟨?grant, fun s h => State.offerSpills_none h, ?fence, ?drain⟩
  case grant =>
    intro ch r s u v hu hserve hok hpick hv
    have h := State.doArbiterGrant_serves hu hserve hok hpick hv
    exact ⟨fun w hw hroom => congrArg Host.Outcome.next (h.trans ((State.serveReq_write hw _).trans (State.enqueueWrite_room hroom w))),
      fun w hw hfull => congrArg Host.Outcome.next (h.trans ((State.serveReq_write hw _).trans (State.enqueueWrite_full hfull w))),
      fun hr => congrArg Host.Outcome.next (h.trans (State.serveReq_read hr _))⟩
  case fence =>
    intro port s u hu
    have h := State.doFenceComplete_eq hu
    exact ⟨fun hq => congrArg Host.Outcome.next (h.trans (if_pos hq)),
      fun hq => congrArg Host.Outcome.next (h.trans (if_neg (ne_true_of_eq_false hq)))⟩
  case drain =>
    intro ch w rest s hserve hok hqueue hdue hmask
    obtain ⟨u, hrest, hmem, hdrain⟩ := State.drain_one_whole hqueue hmask
    have hdo := State.doWriteQueueDrain_drains hserve hok hdue
    generalize hx : u.storeBytes ch.val w.addr (2 ^ 32 - 1) w.data 32 = x at hdrain
    refine ⟨x.setMark ch.val w.addr .clean, congrArg Host.Outcome.next (hdo.trans hdrain), ?_, ?_, ?_, ?_⟩
    · rw [State.chan_setMark, ← hx, State.storeBytes_chan, hrest]
    · intro i hi
      rw [State.memByte_setMark, ← hx, State.storeBytes_full_read ch.val 32 u w.addr w.data i hi]
    · intro c a ha
      rw [State.memByte_setMark, ← hx, State.storeBytes_full_other ch.val 32 u w.addr w.data c a ha, State.memByte_congr hmem]
    · rw [← hdrain]
      exact (keeps_drain (Fits.refl _) (Keeps.refl _ s)).changes (by decide +kernel)

end Sys2Proof.Machine
end


section
/-! PROOFS. Memory events and commands: parity, scrub, self-refresh, maps, refresh stops, training and recovery (O29, O30; R306 to R330). -/

namespace Sys2Proof.Machine

/-! ### Parity, scrub and self-refresh (R316, R317, R322, R329, R330) -/

section Parity
variable {s : State} {ch again : Nat} (hactive : s.fget fMEM_STATUS_state = 2) (hok : s.chFaulted ch = false)
include hactive hok

theorem State.doParityAlert_replays :
    s.doParityAlert ch again = if 2 ≤ again ∨ s.incidentSoon ch = true then
      ((s.countIncident ch again).waitStop.replay ch).faultChannel ch 0 else (s.countIncident ch again).waitStop.replay ch := by
  unfold State.doParityAlert
  rw [if_neg]
  rintro (h | h)
  · omega
  · exact ne_true_of_eq_false hok h

end Parity

theorem State.doHbmScrub_reads {s : State} (hen : s.fbit fMEM_SCRUB_en = true) (hcool : s.fget fTHM_STAT_state = 0)
    (hactive : s.fget fMEM_STATUS_state = 2) :
    s.doHbmScrub = (s.hbm.marks.foldl (fun (v : State) e => v.scrubBeat (e.1 / 2 ^ 32) (e.1 % 2 ^ 32)) s).tick fMEM_SCRUB_passes :=
  if_pos ⟨hen, hcool, hactive⟩

theorem State.doSelfRefreshExit_loses {s : State} (hexit : s.fget fMEM_STATUS_state = 5) :
    s.doSelfRefreshExit =
      (s.loseEighths.memEvent 8 0 (s.hbm.waking.getD portCtrl) 0 (s.hbm.waking.getD portCtrl)).leaveRefresh.dropLostWrites :=
  if_pos hexit

/-! ### Interleave maps (R309) -/

theorem bits_zero_zero (v : Nat) : bits v 0 0 = v % 2 := by
  unfold bits
  rw [Nat.pow_zero, Nat.div_one]
  rfl

section Maps
variable {s : State} {m : Nat} (hm : m ≠ 15) (v : Nat)
include hm

theorem State.doMemMapCtlWrite_valid (hvalid : s.mapValid m = true) :
    s.doMemMapCtlWrite m v = (if bits v 8 1 ≠ bits (s.rd .MEM_MAP_CTL m).toNat 8 1 then s.fput fMEM_STATUS_map_drop 0 1 else s).fput
      fMEM_MAP_CTL_valid m (bits v 0 0) := by
  unfold State.doMemMapCtlWrite
  rw [if_neg hm, if_pos hvalid, bits_zero_zero]

theorem State.doMemMapCtlWrite_invalid (hvalid : s.mapValid m = false) {p : MapSpec}
    (hp : p = { s.mapSpec m with kind := bits v 2 1, index := bits v 4 3, grain := bits v 8 5 }) :
    s.doMemMapCtlWrite m v = if bits v 0 0 = 1 ∧ s.mapFits m p = false then (s.putMap m p false).fput fMEM_STATUS_map_err 0 1
      else s.putMap m p (bits v 0 0 == 1) := by
  unfold State.doMemMapCtlWrite
  rw [if_neg hm, if_neg (ne_true_of_eq_false hvalid), bits_zero_zero, hp]

end Maps

theorem exec_memMapCtlWrite_takes {m : Fin 16} {v : BitVec 32} {s : State} (htakes : s.takesRow .MEM_MAP_CTL m.val) :
    exec (.memMapCtlWrite m v) s = .next (s.doMemMapCtlWrite m.val v.toNat) := by
  rw [exec_memMapCtlWrite, execMemMapCtlWrite, State.rowWrite_takes (t := s) rfl htakes]
  unfold State.regEffect
  dsimp only
  rw [fullWord_whole, Nat.mod_eq_of_lt (a := v.toNat) (b := 2 ^ RegId.MEM_MAP_CTL.info.width) v.isLt]

/-! ### Refresh stops (R311 to R313) -/

section Stop
variable {s : State} (hactive : s.fget fMEM_STATUS_state = 2) (hgo : s.hbm.stopped = false)
include hactive hgo

theorem State.doRefreshStop_begins {v : State} (hv : v = (s.advance (s.mer0Instant (s.gridPoint s.nextGrid))).tick fMEM_REF_STAT_stops) :
    s.doRefreshStop = { v with hbm := { v.hbm with stopped := true, lastGrid := some s.nextGrid } } := by
  rw [hv]
  exact if_pos ⟨hactive, hgo⟩

end Stop

theorem State.tick_stops (s : State) (t : Nat) :
    ((s.advance t).tick fMEM_REF_STAT_stops).fget fMEM_REF_STAT_stops = (s.fget fMEM_REF_STAT_stops + 1) % 2 ^ 32 := by
  rw [State.tick, State.fget_fput _ _ _ (by decide) (by decide)]
  rfl

theorem State.doRefreshStopEnd_ends {s : State} (hstop : s.hbm.stopped = true) {errs : List LaneErr} {u : State}
    (hu : u = if s.maintenance = true then errs.foldl State.countLane (s.advance s.stopEnd) else s.advance s.stopEnd) :
    s.doRefreshStopEnd errs = { u with hbm := { u.hbm with stopped := false } } := by
  have hmaint : (s.advance s.stopEnd).maintenance = s.maintenance := rfl
  unfold State.doRefreshStopEnd
  rw [if_pos hstop]
  dsimp only
  rw [hmaint, ← hu]

theorem State.stopEnd_plain {s : State} (h : s.maintenance = false) :
    s.stopEnd = s.mer0Instant (s.gridPoint (s.hbm.lastGrid.getD 0) + 720) := by
  unfold State.stopEnd
  rw [if_neg (ne_true_of_eq_false h)]

theorem State.stopEnd_maintenance {s : State} (h : s.maintenance = true) :
    s.stopEnd = s.mer0Instant (s.gridPoint (s.hbm.lastGrid.getD 0) + 1440) := by
  unfold State.stopEnd
  rw [if_pos h]

section Temps
variable {s u : State} {temps : Nat} (hactive : s.fget fMEM_STATUS_state = 2) (hu : u = s.fput fMEM_TEMP_temp 0 temps)
include hactive hu

/-- The interval in force before the stacks' temperatures are read chooses with them. -/
theorem State.doStackTempRead_chooses :
    s.doStackTempRead temps = if trefChoice temps s.trefFast = s.trefFast then u else
      (({ u with hbm := { u.hbm with skipTo := u.gridAfter u.mer0 } }.fput fMEM_STATUS_tref_fast 0 (b2n (trefChoice temps s.trefFast))).bump
        fMEM_REF_STAT_changes).memEvent 6 0 portCtrl 0 (b2n (trefChoice temps s.trefFast)) := by
  have hstate : u.fget fMEM_STATUS_state = 2 := by rw [hu, State.fget_fput_ne _ _ _ (.inl (by decide)), hactive]
  have hfast : u.trefFast = s.trefFast := by
    unfold State.trefFast State.fbit
    rw [hu, State.fget_fput_ne _ _ _ (.inl (by decide))]
  unfold State.doStackTempRead
  rw [if_neg (by rw [hactive]; decide)]
  dsimp only
  rw [← hu, hstate, hfast]
  by_cases h : trefChoice temps s.trefFast = s.trefFast
  · rw [if_pos (.inr h), if_pos h]
  · rw [if_neg (by rintro (h' | h'); · exact absurd h' (by decide)
                   · exact h h'), if_neg h]

end Temps

/-- Settles O29: each event by the branch that its premises choose; a stop's own state named. -/
theorem memoryEventsAct : Obligations.MemoryEventsAct := by
  unfold Obligations.MemoryEventsAct
  refine ⟨?parity, ?scrub, ?wake, ?exit, ?map, ?stop, ?plain, ?maintenance, ?temps⟩
  case parity =>
    intro ch again s hactive hok
    have h := State.doParityAlert_replays (again := again.val) hactive hok
    exact ⟨fun hlow hsoon => congrArg Host.Outcome.next (h.trans (if_neg (by rw [hsoon]; simp; omega))),
      fun hbad => congrArg Host.Outcome.next (h.trans (if_pos (hbad.imp_left (fun h2 => by omega))))⟩
  case scrub => exact fun s hen hcool hactive => congrArg Host.Outcome.next (State.doHbmScrub_reads hen hcool hactive)
  case wake => exact fun port s h => congrArg Host.Outcome.next (if_pos h)
  case exit =>
    rintro s _ _ hexit rfl rfl
    exact congrArg Host.Outcome.next (State.doSelfRefreshExit_loses hexit)
  case map =>
    intro m v s htakes hm
    have hexec := exec_memMapCtlWrite_takes (v := v) htakes
    refine ⟨fun hvalid hsame => ?_, fun hvalid hother => ?_, fun hvalid => ?_⟩
    · rw [hexec, State.doMemMapCtlWrite_valid hm _ hvalid, if_neg (not_not_intro hsame)]
    · rw [hexec, State.doMemMapCtlWrite_valid hm _ hvalid, if_pos hother]
    · intro p
      have h := hexec.trans (congrArg Host.Outcome.next (State.doMemMapCtlWrite_invalid (p := p) hm v.toNat hvalid rfl))
      refine ⟨fun hone hfits => ?_, fun hone hfits => ?_, fun hzero => ?_⟩
      · rw [h, if_neg (fun hbad => ne_false_of_eq_true hfits hbad.2), hone]
        rfl
      · rw [h, if_pos ⟨hone, hfits⟩]
      · rw [h, if_neg (by omega), hzero]
        rfl
  case stop =>
    intro s hactive hgo
    exact ⟨_, congrArg Host.Outcome.next (State.doRefreshStop_begins hactive hgo rfl), rfl, rfl, State.tick_stops s _, rfl,
      State.doRefreshStop_begins hactive hgo rfl ▸ (keeps_doRefreshStop (Fits.refl _) (Keeps.refl _ s)).changes (by decide +kernel)⟩
  case plain =>
    intro errs s hstop hplain
    have h := State.doRefreshStopEnd_ends (errs := errs) (u := s.advance s.stopEnd) hstop (if_neg (ne_true_of_eq_false hplain)).symm
    refine ⟨_, congrArg Host.Outcome.next h, rfl, ?_, ?_⟩
    · exact congrArg (max s.now) (State.stopEnd_plain hplain)
    · refine Keeps.changes (P := partMask [.time, .hbm]) ?_ (Fits.refl _)
      exact keeps_hbm (Fits.refl _) (by decide +kernel) (keeps_advance (by decide +kernel) (Keeps.refl _ s)) rfl rfl
  case maintenance =>
    intro errs s u hstop hmaint hu
    refine congrArg Host.Outcome.next (State.doRefreshStopEnd_ends hstop ?_)
    rw [if_pos hmaint, State.stopEnd_maintenance hmaint, hu]
  case temps =>
    intro temps s hactive u
    have h := State.doStackTempRead_chooses (temps := temps.toNat) (u := u) hactive rfl
    exact ⟨fun hkeep => congrArg Host.Outcome.next (h.trans (if_pos hkeep)),
      fun hchange => congrArg Host.Outcome.next (h.trans (if_neg hchange))⟩

/-! ### Memory commands (R309, R325, R327, R328, R330) -/

section Commands
variable {k : Packet} {s : State}

theorem bodyMemMapSet_puts {p : MapSpec} (hp : p = ⟨u8 k 1, u8 k 2, u8 k 3, u32 k 8, u32 k 12⟩) (hmap : u8 k 0 < 15) (hkind : u8 k 1 ≤ 3)
    (hindex : u8 k 2 ≤ 3) (hgrain : u8 k 3 ≤ 15) (hvalid : u8 k 4 ≤ 1) (hjobs : s.acceptedJobs = [])
    (hfits : u8 k 4 = 1 → s.mapFits (u8 k 0) p = true) : bodyMemMapSet k s = ok (s.putMap (u8 k 0) p (u8 k 4 == 1)) := by
  unfold bodyMemMapSet
  dsimp only
  rw [hjobs, if_neg (by omega), if_neg (by simp), ← hp, if_neg (fun h => ne_false_of_eq_true (hfits h.1) h.2)]

theorem bodyMemTrain_trains (hch : u8 k 0 < 64) (hfree : s.channelUsed (u8 k 0) = false) : bodyMemTrain k s = ok s.awake := by
  unfold bodyMemTrain
  rw [if_neg (Nat.not_le.mpr hch), if_neg (ne_true_of_eq_false hfree)]

theorem bodyMemChRecover_tries (hch : u8 k 0 < 64) (hfault : s.chFaulted (u8 k 0) = true) (hfree : s.channelUsed (u8 k 0) = false) :
    bodyMemChRecover k s = if s.awake.fresh.2.getLsbD 0 = true then ok (s.awake.fresh.1.recoverChannel (u8 k 0))
      else fail s.awake.fresh.1 .memFault := by
  unfold bodyMemChRecover
  dsimp only
  rw [if_neg, if_neg (ne_true_of_eq_false hfree)]
  rintro (h | h)
  · omega
  · exact ne_false_of_eq_true hfault h

theorem bodyMemSelfRefresh_enters (hjobs : s.acceptedJobs = []) (hacq : s.acqBusy = []) (hdma : s.dmaDescs = [])
    (hactive : s.fget fMEM_STATUS_state = 2) :
    bodyMemSelfRefresh k s = ok (s.drainAll.enterRefresh (Nat.lor (u32 k 0) 0x80808080)) := by
  unfold bodyMemSelfRefresh
  rw [if_neg (by simp [hjobs, hacq, hdma, hactive])]

theorem bodyMemSegClear_clears {mask : Nat} (hmask : mask = Nat.land (u32 k 0) (s.awake.fget fMEM_SEG_LOST_lost)) (hsome : mask ≠ 0) :
    bodyMemSegClear k s = (((maskBits 32 mask).foldl State.clearEighth s.awake).memEvent 11 0 portCtrl 0 mask,
      .done .ok 0 0 false false (popCount 32 mask)) := by
  unfold bodyMemSegClear
  dsimp only
  rw [← hmask, if_neg hsome]

end Commands

/-- Settles O30: each command's body under its premises, in the state in which the command begins. -/
theorem memoryCommandsAct : Obligations.MemoryCommandsAct := by
  unfold Obligations.MemoryCommandsAct
  refine ⟨?map, ?train, ?recover, ?refresh, ?clear⟩
  case map =>
    rintro s _ k hacc rfl hmap hkind hindex hgrain hvalid hjobs hfits
    exact congrArg Host.Outcome.next (State.runCommand_completes
      (effect := fun v => v.putMap (u8 k 0) ⟨u8 k 1, u8 k 2, u8 k 3, u32 k 8, u32 k 12⟩ (u8 k 4 == 1)) hacc rfl
      (bodyMemMapSet_puts rfl hmap hkind hindex hgrain hvalid hjobs hfits))
  case train =>
    rintro s _ k hacc rfl hch hfree
    exact congrArg Host.Outcome.next (State.runCommand_completes hacc rfl (bodyMemTrain_trains hch hfree))
  case recover =>
    rintro s _ k hacc rfl hch hfault hfree
    have hbody := bodyMemChRecover_tries hch hfault hfree
    refine ⟨fun htrains => ?_, fun hfails => ?_⟩
    · exact congrArg Host.Outcome.next (State.runCommand_completes (effect := fun v => v.awake.fresh.1.recoverChannel (u8 k 0)) hacc rfl
        (hbody.trans (if_pos htrains)))
    · exact congrArg Host.Outcome.next (State.runCommand_ends (effect := fun v => v.awake.fresh.1) hacc rfl
        (hbody.trans (if_neg (ne_true_of_eq_false hfails))))
  case refresh =>
    rintro s _ k hacc rfl hjobs hacq hdma hactive
    exact congrArg Host.Outcome.next (State.runCommand_completes
      (effect := fun v => v.drainAll.enterRefresh (Nat.lor (u32 k 0) 0x80808080)) hacc rfl
      (bodyMemSelfRefresh_enters hjobs hacq hdma hactive))
  case clear =>
    rintro s _ k mask hacc rfl hmask hsome
    exact congrArg Host.Outcome.next (State.runCommand_completes
      (effect := fun v => ((maskBits 32 mask).foldl State.clearEighth v.awake).memEvent 11 0 portCtrl 0 mask) hacc rfl
      (bodyMemSegClear_clears hmask hsome))

end Sys2Proof.Machine
end


section
/-! PROOFS. Chart: address spaces, mappings, faults and walks (O31; R333 to R349, R354). -/

namespace Sys2Proof.Machine

/-! ### Walks asked for and in flight (R341) -/

/-- Issuing walks moves them among the walks and touches nothing else. -/
theorem Chart.issue_tlb : ∀ (n : Nat) (c : Chart), (c.issue n).tlb = c.tlb := by
  intro n
  induction n with
  | zero => intro c; rfl
  | succ n ih =>
    intro c
    unfold Chart.issue
    split
    · split
      · rfl
      · exact ih _
    · rfl

theorem Chart.issue_walks_le : ∀ (n : Nat) (c : Chart), c.walks.length ≤ 64 → (c.issue n).walks.length ≤ 64 := by
  intro n
  induction n with
  | zero => intro c h; exact h
  | succ n ih =>
    intro c h
    unfold Chart.issue
    split
    case isTrue hroom =>
      split
      · exact h
      · refine ih _ ?_
        rw [List.length_append]
        exact hroom
    case isFalse => exact h

theorem State.askWalks_walks_le {s : State} (h : s.chart.walks.length ≤ 64) (ws : List WalkReq) :
    (s.askWalks ws).chart.walks.length ≤ 64 := Chart.issue_walks_le _ _ h

theorem State.endWalks_tlb (s : State) (gone : WalkReq → Bool) : (s.endWalks gone).chart.tlb = s.chart.tlb := Chart.issue_tlb _ _

/-- A real-time walk goes before every bulk one. -/
theorem nextWalk_some {asked : List WalkReq} {w : WalkReq} (h : nextWalk asked = some w) :
    w ∈ asked ∧ (walkClass w.source ≠ .realTime → ∀ x ∈ asked, walkClass x.source ≠ .realTime) := by
  unfold nextWalk at h
  split at h
  case h_1 v hfind =>
    cases h
    have hclass : walkClass w.source = .realTime := by simpa using List.find?_some hfind
    exact ⟨List.mem_of_find?_eq_some hfind, fun hno => absurd hclass hno⟩
  case h_2 hnone =>
    refine ⟨List.mem_of_head? h, fun _ x hx => ?_⟩
    simpa using List.find?_eq_none.mp hnone x hx

/-! ### A walk completes (R340, R343 to R347, R354) -/

/-- The leaf just cached is found. -/
theorem State.tlbFind_tlbFill (s : State) (tlb space dva pb e : Nat) (ahead : Bool) :
    ((s.tlbFill tlb space dva pb e ahead).tlbFind tlb space dva).isSome = true := by
  unfold State.tlbFind State.tlbFill
  rw [List.find?_isSome]
  exact ⟨_, List.mem_append_right _ (List.mem_singleton_self _), by simp⟩

theorem State.tlbFind_congr {s t : State} (h : t.chart.tlb = s.chart.tlb) (tlb space dva : Nat) :
    t.tlbFind tlb space dva = s.tlbFind tlb space dva := by
  unfold State.tlbFind
  rw [h]

section Walk
variable {s u v : State} {x : WalkReq}
  (hu : u = (if x.source < 16 then s.bump fCHT_PLT_CNT_walks x.source else s).countWalk x.source)
include hu

section Leaf
variable {y z : State} {pb e level : Nat} (hwalk : u.walk (walkClass x.source) x.space x.dva = (v, .leaf pb e level))
  (hy : y = v.tlbFill (tlbOf x.source) x.space x.dva pb e (walkClass x.source == .realTime)) (hz : z = y.endWalks y.walkKnown)
include hwalk hy hz

theorem State.completeWalk_grants {a left : Nat} (ht : leafTrans pb e level x.dva x.write = .hpa a left) : s.completeWalk x = z := by
  unfold State.completeWalk
  dsimp only
  rw [← hu, hwalk]
  dsimp only
  rw [ht, ← hy, ← hz]

theorem State.completeWalk_refuses {kind lv d : Nat} (ht : leafTrans pb e level x.dva x.write = .fault kind lv d) :
    s.completeWalk x = z.walkFaults x kind lv d := by
  unfold State.completeWalk
  dsimp only
  rw [← hu, hwalk]
  dsimp only
  rw [ht, ← hy, ← hz]

end Leaf

theorem State.completeWalk_faults {kind lv d : Nat} (hwalk : u.walk (walkClass x.source) x.space x.dva = (v, .fault kind lv d)) :
    s.completeWalk x = (v.endWalks x.same).walkFaults x kind lv d := by
  unfold State.completeWalk
  dsimp only
  rw [← hu, hwalk]

end Walk

section WalkComplete
variable {source space dva : Nat} {write : Bool} {w : WalkReq} {s t : State} (hw : w = ⟨source, space, dva / 65536 * 65536, write⟩)
include hw

theorem State.doWalkComplete_known (hk : s.walkKnown w = true) : s.doWalkComplete source space dva write = s := by
  unfold State.doWalkComplete
  dsimp only
  rw [← hw, if_pos hk]

variable (ht : t = if (s.chart.asked.any w.same || s.chart.walks.any w.same) = true then s else s.askWalks [w]) (hk : s.walkKnown w = false)
include ht hk

theorem State.doWalkComplete_waits (hfly : t.chart.walks.any w.same = false) : s.doWalkComplete source space dva write = t := by
  unfold State.doWalkComplete
  dsimp only
  rw [← hw, if_neg (ne_true_of_eq_false hk), ← ht, if_neg (ne_true_of_eq_false hfly)]

theorem State.doWalkComplete_completes (hfly : t.chart.walks.any w.same = true) :
    s.doWalkComplete source space dva write = t.completeWalk { w with dva := dva } := by
  unfold State.doWalkComplete
  dsimp only
  rw [← hw, if_neg (ne_true_of_eq_false hk), ← ht, if_pos hfly, hw]

end WalkComplete

/-! ### A walk's fault (R340, R347, R354) -/

section Faults
variable {v : State} {w : WalkReq} (kind level e : Nat)

theorem State.walkFaults_pilot (h : w.source < 16) :
    v.walkFaults w kind level e = (v.raiseFault (mkFault w.source w.space w.dva kind level e w.write true false)).1 := if_pos h

theorem State.walkFaults_later (h : 32 ≤ w.source) : v.walkFaults w kind level e = v := by
  unfold State.walkFaults
  rw [if_neg (by omega), if_neg (by omega)]

theorem State.walkFaults_dma (hlo : 16 ≤ w.source) (hhi : w.source < 32) :
    v.walkFaults w kind level e = v.suspendDma (w.source - 16) (mkFault w.source w.space w.dva kind level e w.write false true) := by
  unfold State.walkFaults
  rw [if_neg (by omega), if_pos hhi]

end Faults

theorem State.suspendDma_working {s y z : State} {c id : Nat} {f : FaultSlot} (hstate : s.dmaState c = 1)
    (hdesc : (s.dmaCh c).desc.isSome = true) (hstatus : (s.dmaCh c).status = 0) (hraise : s.raiseFault f = (y, id))
    (hz : z = (y.fput fDMA_CH_STAT_state c 2).fput fDMA_CH_STAT_fault_id c id) :
    s.suspendDma c f = ((z.setDmaCh c { z.dmaCh c with faultId := id }).bump fDMA_CH_CNT_faults c).countFix 9 := by
  unfold State.suspendDma
  refine (if_pos ⟨hstate, hdesc, hstatus⟩).trans ?_
  dsimp only
  rw [hraise, hz]
  rfl

/-! ### Chart's commands (R333 to R339, R345, R349) -/

section Bodies
variable {k : Packet} {s : State}

theorem bodyAspaceSet_sets (hspace : u8 k 0 < 252) (hvalid : u8 k 1 ≤ 1) (hspan : u8 k 2 ≤ 31) (hq : u16 k 4 < 16384)
    (hroot : u64 k 8 < 2 ^ 44) (halign : u64 k 8 % max 256 (2 ^ (3 + min (u8 k 2) 18)) = 0) (hfree : s.spaceBusy (u8 k 0) = false) :
    bodyAspaceSet k s = ok (((((s.fput fCHT_AS_CTL_valid (u8 k 0) (u8 k 1)).fput fCHT_AS_CTL_span (u8 k 0) (u8 k 2)).fput
      fCHT_AS_CTL_fault_q (u8 k 0) (u16 k 4)).fput fCHT_AS_ROOT_hpa (u8 k 0) (u64 k 8)).tlbDrop (u8 k 0) 0 (2 ^ 48)) := by
  unfold bodyAspaceSet
  dsimp only
  rw [if_neg, if_neg (ne_true_of_eq_false hfree)]
  rintro (h | h | h | h | h | h)
  · omega
  · omega
  · omega
  · omega
  · omega
  · exact h halign

section Map
variable {pb : Nat} (hpb : pb = leafBits (3 - u8 k 1)) {r : State × List (Nat × Nat) × Option Status × Bool}
  (hr : r = s.leaves (u8 k 0) (u64 k 8) (u64 k 24)) (hspace : u8 k 0 < 252) (hvalid : s.spaceValid (u8 k 0) = true)
  (hpoison : r.2.2.1 = none) (hfree : r.2.1.any (r.1.leafProtected (u8 k 0)) = false)
include hr hspace hvalid hpoison hfree

section Chk
variable (hsize : u8 k 1 ≤ 2) (hperm : u8 k 2 ≤ 3) (hsome : 0 < u64 k 24) (hdva : u64 k 8 % 2 ^ pb = 0) (hhpa : u64 k 16 % 2 ^ pb = 0)
  (hlen : u64 k 24 % 2 ^ pb = 0) (hspan : u64 k 8 + u64 k 24 ≤ 2 ^ (30 + s.spaceSpan (u8 k 0))) (hend : u64 k 16 + u64 k 24 ≤ 2 ^ 44)
  (hgood : ∀ i < u64 k 24 / 2 ^ pb, s.badEntry (3 - u8 k 1) (leafEntry (u8 k 2) (u64 k 16 + i * 2 ^ pb)) = false)
  (hroom : s.tableRoom (s.fget fCHT_AS_ROOT_hpa (u8 k 0)) (u64 k 8) (3 - u8 k 1) (u64 k 24 / 2 ^ pb) = true)
include hpb hsize hperm hsome hdva hhpa hlen hspan hend hgood hroom

theorem bodyChartMap_maps :
    bodyChartMap k s = ok (((List.range (u64 k 24 / 2 ^ pb)).foldl (fun (v : State) i =>
      v.putLeaf (u64 k 8 + i * 2 ^ pb) 1 (r.1.fget fCHT_AS_ROOT_hpa (u8 k 0)) (3 - u8 k 1) (leafEntry (u8 k 2) (u64 k 16 + i * 2 ^ pb)) 3)
      r.1).retryRange (u8 k 0) (u64 k 8) (u64 k 24)).afterClear := by
  have hbad : ¬ (List.range (u64 k 24 / 2 ^ pb)).any
      (fun i => s.badEntry (3 - u8 k 1) (leafEntry (u8 k 2) (u64 k 16 + i * 2 ^ pb))) = true := by
    rw [List.any_eq_true]
    rintro ⟨i, hi, hb⟩
    exact ne_true_of_eq_false (hgood i (List.mem_range.mp hi)) hb
  unfold bodyChartMap
  dsimp only
  rw [← hpb, ← hr, if_neg (by omega), if_neg, if_neg (fun h => h.elim hbad (ne_false_of_eq_true hroom)), hpoison]
  · dsimp only
    rw [if_neg (ne_true_of_eq_false hfree)]
  · rintro (h | h)
    · exact ne_false_of_eq_true hvalid h
    · omega

end Chk

theorem bodyChartUnmap_unmaps (hend : u64 k 8 + u64 k 24 ≤ 2 ^ 48) (hholes : r.2.2.2 = false)
    (hwhole : ∀ l ∈ r.2.1, u64 k 8 ≤ l.1 ∧ l.1 + 2 ^ l.2 ≤ u64 k 8 + u64 k 24) :
    bodyChartUnmap k s = ok (((r.2.1.foldl (fun (v : State) l => v.dropLeaf l.1 1 (r.1.fget fCHT_AS_ROOT_hpa (u8 k 0)) 3)
      r.1).tlbDrop (u8 k 0) (u64 k 8) (u64 k 24)).settleWrites.retryRange (u8 k 0) (u64 k 8) (u64 k 24)).afterClear := by
  have hpart : ¬ (r.2.2.2 = true ∨ r.2.1.any (fun l => decide (l.1 < u64 k 8 ∨ u64 k 8 + u64 k 24 < l.1 + 2 ^ l.2)) = true) := by
    rw [hholes, List.any_eq_true]
    rintro (h | ⟨l, hl, hout⟩)
    · exact absurd h (by decide)
    · have hin := hwhole l hl
      have := of_decide_eq_true hout
      omega
  unfold bodyChartUnmap
  dsimp only
  rw [← hr, if_neg (by omega), if_neg, hpoison]
  · dsimp only
    rw [if_neg hpart, if_neg (ne_true_of_eq_false hfree)]
  · rintro (h | h)
    · exact ne_false_of_eq_true hvalid h
    · omega

end Map

theorem bodyChartInvalidate_range (hone : u8 k 1 = 0) :
    bodyChartInvalidate k s = ok (((s.tlbDrop (u8 k 0) (u64 k 8) (u64 k 24)).settleWrites.retryRange (u8 k 0) (u64 k 8)
      (u64 k 24)).afterClear) := by
  unfold bodyChartInvalidate
  rw [hone, if_neg (by decide)]
  unfold State.invalidate
  rw [if_neg (by decide)]

section Slot
variable {i : Nat} {f : FaultSlot} (hslot : s.slotOfId (u16 k 0) = some (i, f))
include hslot

theorem bodyChartRetry_clears {v : State} (hretry : s.retryFault i = (v, 0)) : bodyChartRetry k s = ok v.afterClear := by
  unfold bodyChartRetry
  rw [hslot]
  dsimp only
  rw [hretry]
  rfl

theorem bodyChartRetry_faults {v : State} {kind : Nat} (hretry : s.retryFault i = (v, kind + 1)) :
    bodyChartRetry k s = fail v .chartFault (kind + 1) := by
  unfold bodyChartRetry
  rw [hslot]
  dsimp only
  rw [hretry]
  rfl

theorem bodyChartAbandon_pilot (h : f.source < 16) : bodyChartAbandon k s = fail s .chartBusy := by
  unfold bodyChartAbandon
  rw [hslot]
  exact if_pos h

theorem bodyChartAbandon_dma (hlo : 16 ≤ f.source) (hhi : f.source < 32) :
    bodyChartAbandon k s = ok ((s.setSlot i none).dmaEnds (f.source - 16) 1 3) := by
  unfold bodyChartAbandon
  rw [hslot]
  exact (if_neg (by omega)).trans (if_pos hhi)

theorem bodyChartAbandon_wayline (h : 32 ≤ f.source) : bodyChartAbandon k s = ok ((s.setSlot i none).failHolds (u16 k 0)) := by
  unfold bodyChartAbandon
  rw [hslot]
  exact (if_neg (by omega)).trans (if_neg (by omega))

end Slot

end Bodies

theorem exec_chtInvGo_takes {s : State} (htakes : s.takesRow .CHT_INV_GO 0) : exec .chtInvGo s = .next s.doChtInvGo := by
  rw [exec_chtInvGo, execChtInvGo, State.rowWrite_takes (t := s) rfl htakes]
  unfold State.regEffect
  dsimp only
  rw [fullWord_whole, if_pos (by decide)]

/-- Settles O31: the commands on parameters that pass their checks, and a walk's completion by what the walk finds. -/
theorem chartActs : Obligations.ChartActs := by
  unfold Obligations.ChartActs
  refine ⟨?aspace, ?map, ?unmap, ?invalidate, ?retry, ?abandon, ?walk, ?faults, ?next, ?ask, ?go⟩
  case aspace =>
    rintro s _ k hacc rfl hspace hvalid hspan hq hroot halign hfree
    exact congrArg Host.Outcome.next (State.runCommand_completes
      (effect := fun v => ((((v.fput fCHT_AS_CTL_valid (u8 k 0) (u8 k 1)).fput fCHT_AS_CTL_span (u8 k 0) (u8 k 2)).fput fCHT_AS_CTL_fault_q
        (u8 k 0) (u16 k 4)).fput fCHT_AS_ROOT_hpa (u8 k 0) (u64 k 8)).tlbDrop (u8 k 0) 0 (2 ^ 48)) hacc rfl
      (bodyAspaceSet_sets hspace hvalid hspan hq hroot halign hfree))
  case map =>
    rintro s _ k hacc rfl pb leaf r hspace hsize hperm hvalid hsome hdva hhpa hlen hspan hend hgood hroom hpoison hfree
    exact congrArg Host.Outcome.next (State.runCommand_completes (effect := fun _ => _) hacc rfl
      (bodyChartMap_maps (pb := pb) (r := r) rfl rfl hspace hvalid hpoison hfree hsize hperm hsome hdva hhpa hlen hspan hend hgood hroom))
  case unmap =>
    rintro s _ k hacc rfl r hspace hvalid hend hpoison hholes hwhole hfree
    exact congrArg Host.Outcome.next (State.runCommand_completes (effect := fun _ => _) hacc rfl
      (bodyChartUnmap_unmaps (r := r) rfl hspace hvalid hpoison hfree hend hholes hwhole))
  case invalidate =>
    intro s k hacc hone
    exact congrArg Host.Outcome.next (State.runCommand_completes
      (effect := fun v => ((v.tlbDrop (u8 k 0) (u64 k 8) (u64 k 24)).settleWrites.retryRange (u8 k 0) (u64 k 8) (u64 k 24)).afterClear)
      hacc rfl (bodyChartInvalidate_range hone))
  case retry =>
    rintro s _ v k i f hacc rfl hslot
    exact ⟨fun hretry => congrArg Host.Outcome.next (State.runCommand_completes (effect := fun _ => v.afterClear) hacc rfl
        (bodyChartRetry_clears hslot hretry)),
      fun kind hretry => congrArg Host.Outcome.next (State.runCommand_ends (effect := fun _ => v) hacc rfl
        (bodyChartRetry_faults hslot hretry))⟩
  case abandon =>
    rintro s _ k i f hacc rfl hslot
    exact ⟨fun hlo hhi => congrArg Host.Outcome.next (State.runCommand_completes
        (effect := fun v => (v.setSlot i none).dmaEnds (f.source - 16) 1 3) hacc rfl (bodyChartAbandon_dma hslot hlo hhi)),
      fun hlo => congrArg Host.Outcome.next (State.runCommand_completes (effect := fun v => (v.setSlot i none).failHolds (u16 k 0)) hacc rfl
        (bodyChartAbandon_wayline hslot hlo)),
      fun hlo => congrArg Host.Outcome.next (State.runCommand_ends (effect := id) hacc rfl (bodyChartAbandon_pilot hslot hlo))⟩
  case walk =>
    intro source space dva write w x s t u v hw hx ht hu
    refine ⟨fun hk => ?_, fun hk hfly => ?_, fun hk hfly => ⟨?leaf, ?fault⟩⟩
    · exact congrArg Host.Outcome.next (State.doWalkComplete_known hw hk)
    · exact congrArg Host.Outcome.next (State.doWalkComplete_waits hw ht hk hfly)
    case leaf =>
      intro pb e level y z hwalk hy hz
      have hdo := State.doWalkComplete_completes hw ht hk hfly
      rw [← hx] at hdo
      have hxs : x = ⟨source.val, space.toNat, dva.toNat, write⟩ := by rw [hx, hw]
      subst hxs
      refine ⟨?_, fun a left htr => congrArg Host.Outcome.next (hdo.trans (State.completeWalk_grants hu hwalk hy hz htr)),
        fun kind lv d htr => congrArg Host.Outcome.next (hdo.trans (State.completeWalk_refuses hu hwalk hy hz htr))⟩
      rw [hz, State.tlbFind_congr (State.endWalks_tlb y _), hy]
      exact State.tlbFind_tlbFill ..
    case fault =>
      intro kind lv d hwalk
      have hdo := State.doWalkComplete_completes hw ht hk hfly
      rw [← hx] at hdo
      have hxs : x = ⟨source.val, space.toNat, dva.toNat, write⟩ := by rw [hx, hw]
      subst hxs
      exact congrArg Host.Outcome.next (hdo.trans (State.completeWalk_faults hu hwalk))
  case faults =>
    intro w v y kind level e id c hc
    refine ⟨fun h => State.walkFaults_pilot kind level e h, fun hlo hhi hstate hdesc hstatus hraise => ?_,
      fun h => State.walkFaults_later kind level e h⟩
    intro z
    rw [State.walkFaults_dma kind level e hlo hhi, ← hc]
    exact State.suspendDma_working hstate hdesc hstatus hraise rfl
  case next => exact fun asked w h => nextWalk_some h
  case ask => exact fun s ws h => State.askWalks_walks_le h ws
  case go =>
    intro s htakes hall
    rw [exec_chtInvGo_takes htakes]
    exact congrArg Host.Outcome.next (if_neg (ne_true_of_eq_false hall))

end Sys2Proof.Machine
end


section
/-! PROOFS. DMA channels: descriptors, granules, completions and their control (O32; R350 to R355). -/

namespace Sys2Proof.Machine

/-! ### A descriptor is taken (R350, R351) -/

theorem State.doDmaDescriptor_takes {s u : State} {c d : Nat} (hrun : s.fbit fDMA_CH_CTL_run c = true) (hidle : s.dmaState c = 0)
    (hnone : (s.dmaCh c).desc = none) (hon : s.qOn (s.fget fDMA_CH_CTL_ring_q c) = true)
    (hroom : s.cplRoom (s.fget fDMA_CH_CTL_cpl_q c) = true) (hheld : s.dmaHeld c = false)
    (htake : s.qTake (s.fget fDMA_CH_CTL_ring_q c) = some (d, u)) :
    s.doDmaDescriptor c = (u.dmaBegin c (d % 2 ^ 512)).dmaFill := by
  unfold State.doDmaDescriptor
  dsimp only
  rw [if_pos ⟨hrun, hidle, hnone, hon, hroom, by rw [hheld]; rfl⟩, htake]

/-! ### A granule between local sides (R352, R354) -/

section Granule
variable {c d k : Nat} {x : GranuleEnd} {s u v : State} (hk : k = x.granule) (hu : u = s.dmaFill) (hdesc : (u.dmaCh c).desc = some d)
  (hfly : (u.dmaCh c).flying.contains k = true) (hlocal : dWayline d = false)
include hk hu hdesc hfly hlocal

theorem State.doGranuleComplete_faults {f : FaultSlot} (hsource : u.granuleSource c d k x.err = (v, .error f)) :
    s.doGranuleComplete c x = (v.granuleFault c k f).dmaFill := by
  unfold State.doGranuleComplete
  dsimp only
  rw [← hu, ← hk, hdesc]
  dsimp only
  rw [if_neg (ne_false_of_eq_true hfly), if_neg (ne_true_of_eq_false hlocal), hsource]

section Stored
variable {w : State} {bs : List Byte} (hsource : u.granuleSource c d k x.err = (v, .ok bs))
include hsource

theorem State.doGranuleComplete_writes (hstore : v.granuleStore c d k bs = (w, none)) :
    s.doGranuleComplete c x = ((if dClassA d = true then w.advance w.classAPast else w).granuleWritten c k).dmaFill := by
  unfold State.doGranuleComplete
  dsimp only
  rw [← hu, ← hk, hdesc]
  dsimp only
  rw [if_neg (ne_false_of_eq_true hfly), if_neg (ne_true_of_eq_false hlocal), hsource]
  dsimp only
  rw [hstore]

theorem State.doGranuleComplete_storeFaults {f : FaultSlot} (hstore : v.granuleStore c d k bs = (w, some f)) :
    s.doGranuleComplete c x = (w.granuleFault c k f).dmaFill := by
  unfold State.doGranuleComplete
  dsimp only
  rw [← hu, ← hk, hdesc]
  dsimp only
  rw [if_neg (ne_false_of_eq_true hfly), if_neg (ne_true_of_eq_false hlocal), hsource]
  dsimp only
  rw [hstore]

end Stored

end Granule

section HostSource
variable {s : State} {d : Nat} (hcopy : dOp d = 0) (hhost : dSrcType d = 1) (hlink : s.host.perst = false) (c k : Nat)
include hcopy hhost hlink

theorem State.granuleSource_hostData :
    s.granuleSource c d k none = (s, .ok (s.hostRead (dSrc d + granuleLo d k) (granuleLen d k))) := by
  unfold State.granuleSource
  dsimp only
  rw [if_neg (by omega), if_pos hhost, if_neg (ne_true_of_eq_false hlink)]

theorem State.granuleSource_hostError (e : BitVec 3) :
    s.granuleSource c d k (some e) = (s, .error (granuleFaultOf d c k kHostError e.toNat false)) := by
  unfold State.granuleSource
  dsimp only
  rw [if_neg (by omega), if_pos hhost, if_neg (ne_true_of_eq_false hlink)]

end HostSource

/-! ### A completion (R353) -/

theorem State.doDmaCompletion_posts {s u : State} {c d st : Nat} (hdesc : (s.dmaCh c).desc = some d) (hdone : s.dmaFinished c d = true)
    (hquiet : s.portQuiet portDM = true) (hst : st = (s.dmaCh c).status)
    (hu : u = (s.dmaPost c d st).bump fDMA_CH_CNT_completed c) :
    s.doDmaCompletion c = ((if st = 3 then u.bump fDMA_CH_CNT_invalid c else u).fput fDMA_CH_STAT_state c (if st = 1 then 3 else 0)).setDmaCh
      c {} := by
  unfold State.doDmaCompletion
  rw [hdesc]
  dsimp only
  rw [if_pos ⟨hdone, hquiet⟩, ← hst, ← hu]

/-! ### The control register (R350, R355) -/

/-- A channel's state is no part of its control register. -/
theorem State.dmaState_fput (s : State) {f : Fld} (hf : f.id = .DMA_CH_CTL) (i x c : Nat) : (s.fput f i x).dmaState c = s.dmaState c :=
  State.fget_fput_ne s x 0 (.inl (by rw [hf]; decide))

section Control
variable {s : State} {c v : Nat}

theorem State.doDmaChCtlWrite_starts (hoff : s.fbit fDMA_CH_CTL_run c = false) (hone : v % 2 = 1) (hst : s.dmaState c ≠ 3) :
    s.doDmaChCtlWrite c v = ((s.fput fDMA_CH_CTL_ring_q c (bits v 15 2)).fput fDMA_CH_CTL_cpl_q c (bits v 29 16)).fput
      fDMA_CH_CTL_run c 1 := by
  unfold State.doDmaChCtlWrite
  dsimp only
  rw [if_pos hone, if_neg (ne_true_of_eq_false hoff), hone]
  refine if_neg fun h => hst ?_
  rw [State.dmaState_fput _ rfl, State.dmaState_fput _ rfl, State.dmaState_fput _ rfl] at h
  exact h.1

section Stops
variable {u : State} (hon : s.fbit fDMA_CH_CTL_run c = true) (hzero : v % 2 = 0) (hu : u = s.fput fDMA_CH_CTL_run c 0)
include hon hzero hu

theorem State.doDmaChCtlWrite_stops_working (hst : s.dmaState c = 1) (hstatus : (s.dmaCh c).status = 0) :
    s.doDmaChCtlWrite c v = u.dmaFill.dmaEnds c 2 4 := by
  have hstate : u.dmaState c = s.dmaState c := by rw [hu, State.dmaState_fput _ rfl]
  have hch : u.dmaCh c = s.dmaCh c := by rw [hu]; rfl
  unfold State.doDmaChCtlWrite
  dsimp only
  rw [if_neg (by omega), if_pos hon, hzero, ← hu, hstate, hst, if_neg (by decide), if_pos ⟨rfl, by rw [hch]; exact hstatus⟩]

theorem State.doDmaChCtlWrite_stops_suspended (hst : s.dmaState c = 2) {i : Nat} (hslot : s.dmaFaultSlot c = some i) :
    s.doDmaChCtlWrite c v = ((u.setSlot i none).dmaEnds c 2 4).fput fDMA_CH_STAT_fault_id c 0 := by
  have hstate : u.dmaState c = s.dmaState c := by rw [hu, State.dmaState_fput _ rfl]
  have hfault : u.dmaFaultSlot c = s.dmaFaultSlot c := by rw [hu]; rfl
  unfold State.doDmaChCtlWrite
  dsimp only
  rw [if_neg (by omega), if_pos hon, hzero, ← hu, hstate, hst, if_pos rfl, hfault, hslot]

theorem State.doDmaChCtlWrite_stops_idle (h1 : s.dmaState c ≠ 1) (h2 : s.dmaState c ≠ 2) : s.doDmaChCtlWrite c v = u := by
  have hstate : u.dmaState c = s.dmaState c := by rw [hu, State.dmaState_fput _ rfl]
  unfold State.doDmaChCtlWrite
  dsimp only
  rw [if_neg (by omega), if_pos hon, hzero, ← hu, hstate, if_neg h2, if_neg fun h => h1 h.1]

end Stops

end Control

theorem exec_dmaChCtlWrite_takes {c : Fin 16} {v : BitVec 32} {s : State} (htakes : s.takesRow .DMA_CH_CTL c.val) :
    exec (.dmaChCtlWrite c v) s = .next (s.doDmaChCtlWrite c.val v.toNat) := by
  rw [exec_dmaChCtlWrite, execDmaChCtlWrite, State.rowWrite_takes (t := s) rfl htakes]
  unfold State.regEffect
  dsimp only
  rw [fullWord_whole, Nat.mod_eq_of_lt (a := v.toNat) (b := 2 ^ RegId.DMA_CH_CTL.info.width) v.isLt]

theorem bodyDmaChannelSet_sets {k : Packet} {s : State} (hc : u8 k 0 < 16) (hrun : u8 k 1 ≤ 1) (hring : u16 k 2 < 16384)
    (hcpl : u16 k 4 < 16384) :
    bodyDmaChannelSet k s = ok (s.doDmaChCtlWrite (u8 k 0) (u8 k 1 + u16 k 2 * 4 + u16 k 4 * 2 ^ 16)) :=
  if_neg (by omega)

/-- Settles O32: a channel's events and its control register, each by the branch that its premises choose. -/
theorem dmaChannelsRun : Obligations.DmaChannelsRun := by
  unfold Obligations.DmaChannelsRun
  refine ⟨?descriptor, ?granule, ?faults, ?host, ?completion, ?start, ?stop, ?command⟩
  case descriptor =>
    intro c d s u hrun hidle hnone hon hroom hheld htake
    exact congrArg Host.Outcome.next (State.doDmaDescriptor_takes hrun hidle hnone hon hroom hheld htake)
  case granule =>
    intro c x k d s u v bs hk hu hdesc hfly hlocal hsource
    exact ⟨fun w hstore => congrArg Host.Outcome.next (State.doGranuleComplete_writes hk hu hdesc hfly hlocal hsource hstore),
      fun w f hstore => congrArg Host.Outcome.next (State.doGranuleComplete_storeFaults hk hu hdesc hfly hlocal hsource hstore)⟩
  case faults =>
    intro c x k d s u v f hk hu hdesc hfly hlocal hsource
    exact congrArg Host.Outcome.next (State.doGranuleComplete_faults hk hu hdesc hfly hlocal hsource)
  case host =>
    intro c d k e s hcopy hhost hlink
    exact ⟨State.granuleSource_hostData hcopy hhost hlink _ _, State.granuleSource_hostError hcopy hhost hlink _ _ _⟩
  case completion =>
    intro c d st s u hdesc hdone hquiet hst hu
    exact congrArg Host.Outcome.next (State.doDmaCompletion_posts hdesc hdone hquiet hst hu)
  case start =>
    intro c v s htakes hoff hone hst
    exact (exec_dmaChCtlWrite_takes htakes).trans (congrArg Host.Outcome.next (State.doDmaChCtlWrite_starts hoff hone hst))
  case stop =>
    intro c v s u htakes hon hzero hu
    have hexec := exec_dmaChCtlWrite_takes (v := v) htakes
    exact ⟨fun hst hstatus => hexec.trans (congrArg Host.Outcome.next (State.doDmaChCtlWrite_stops_working hon hzero hu hst hstatus)),
      fun i hst hslot => hexec.trans (congrArg Host.Outcome.next (State.doDmaChCtlWrite_stops_suspended hon hzero hu hst hslot)),
      fun h1 h2 => hexec.trans (congrArg Host.Outcome.next (State.doDmaChCtlWrite_stops_idle hon hzero hu h1 h2))⟩
  case command =>
    intro s k hacc hc hrun hring hcpl
    exact congrArg Host.Outcome.next (State.runCommand_completes
      (effect := fun v => v.doDmaChCtlWrite (u8 k 0) (u8 k 1 + u16 k 2 * 4 + u16 k 4 * 2 ^ 16)) hacc rfl
      (bodyDmaChannelSet_sets hc hrun hring hcpl))

end Sys2Proof.Machine
end


section
/-! PROOFS. The Ethernet port, PTP, telemetry and MSI-X (O33; R436, R441 to R447). -/

namespace Sys2Proof.Machine

/-! ### PTP (R444, R445) -/

theorem State.ptpStamp_running {s : State} (h : (s.mer 7).st = .running) (t : Nat) (sync : Bool) :
    s.ptpStamp t sync = { s with eth := { s.eth with
      stamps := (s.mer 7).reading t :: s.eth.stamps, lastSync := if sync then t else s.eth.lastSync } } := by
  unfold State.ptpStamp
  dsimp only
  rw [if_pos h]
  cases sync <;> rfl

theorem State.doPtpMessage_stamps {s : State} (hup : s.ethUp = true) (hrun : (s.mer 7).st = .running) {measured : Bool}
    (hservo : s.fget fMER_WALL_CTL_discipline ≠ 1 ∨ measured = false) (t : Nat) (sync : Bool) (offset : Int) :
    s.doPtpMessage t sync measured offset = { s.advance (t * 60) with eth := { s.eth with
      stamps := (s.mer 7).reading (t * 60) :: s.eth.stamps, lastSync := if sync then t * 60 else s.eth.lastSync } } := by
  have hrun' : ((s.advance (t * 60)).mer 7).st = .running := hrun
  unfold State.doPtpMessage
  rw [if_neg (ne_false_of_eq_true hup), State.ptpStamp_running hrun']
  refine if_neg fun h => ?_
  rcases hservo with hs | hs
  · exact hs h.1
  · exact ne_true_of_eq_false hs h.2

theorem State.doSyncTimeout_holds {s : State} (hd : s.fget fMER_WALL_CTL_discipline = 1) (hh : s.fbit fETH_PTP_STAT_holdover = false) :
    s.doSyncTimeout = ((s.advance (s.eth.lastSync + 3 * unitsPerSecond)).fput fETH_PTP_STAT_holdover 0 1).fput fETH_PTP_STAT_locked 0 0 :=
  if_neg fun h => h.elim (fun h1 => h1 hd) (ne_true_of_eq_false hh)

/-! ### Frames (R446) -/

theorem State.ethOn_of_ethUp {s : State} (h : s.ethUp = true) : s.ethOn = true := (Bool.and_eq_true_iff.mp h).1

theorem State.doEthTxElement_sends {s u v : State} {e : Nat} {bs : List Byte} (hup : s.ethUp = true) (hlaunch : s.eth.launch = none)
    (htake : s.qTake (s.fget fETH_TXQ_queue) = some (e, u)) (hup' : u.ethUp = true) (hnow : bitAt e 56 = false)
    (hread : u.dvaRead sourceHelm portBP (bits e 55 48) (bits e 47 0) (bits e 74 64) = (v, .done bs)) :
    s.doEthTxElement = v.ethSend ⟨bits e 127 96, bs, v.odo 7 / 256 * 256⟩ := by
  unfold State.doEthTxElement
  rw [if_neg, htake]
  · dsimp only
    rw [if_neg fun h => ne_true_of_eq_false hnow h.1, if_neg (ne_false_of_eq_true hup'), hread]
    exact if_neg (ne_true_of_eq_false hnow)
  · rw [State.ethOn_of_ethUp hup, hlaunch]
    decide

section Launch
variable {s : State} {f : EthFrame} {t : Nat} (hf : s.eth.launch = some f) (ht : (s.mer 7).instantOf s.eth.launchAt = some t)
  (hup : s.ethUp = true)
include hf ht hup

/-- The launched frame leaves from the state in which its reading has come. -/
theorem State.doEthLaunch_sends {v : State}
    (hv : v = { s.advance t with eth := { s.eth with launch := none, launchAt := 0 }, free := s.free + 1 }) :
    s.doEthLaunch = v.ethSend { f with stamp := launchStamp s.eth.launchAt s.fresh.2 } := by
  unfold State.doEthLaunch
  rw [hf, ht, hv]
  exact if_neg (ne_false_of_eq_true hup)

end Launch

theorem State.ethSend_eth (s : State) (f : EthFrame) : (s.ethSend f).eth = { s.eth with sent := s.eth.sent ++ [f] } :=
  (keeps_ethCpl (Fits.refl _) (Keeps.refl _ ({ s with eth := { s.eth with sent := s.eth.sent ++ [f] } } : State))).same .eth rfl

theorem State.ethSend_now (s : State) (f : EthFrame) : (s.ethSend f).now = s.now :=
  (keeps_ethSend (Fits.refl _) (Keeps.refl _ s)).same .time rfl

/-! ### Telemetry and fix requests (R447) -/

theorem State.telemetry_magic (s : State) : s.telemetry.take 4 = bytesOf 4 0x4D544B50 := by
  unfold State.telemetry
  dsimp only
  rw [List.append_assoc, List.append_assoc]
  rw [List.take_left' (length_bytesOf 4 _)]

section Telemetry
variable {s : State} (hup : s.ethUp = true) (hoob : s.fbit fETH_OOB_en = true)
include hup hoob

theorem State.doTelemetryTimer_sends {u : State}
    (hu : u = (s.advance (s.eth.oobAt + max 10 (s.fget fETH_OOB_period_ms) * 1000000 * unitsPerNs)).fixInstant) :
    s.doTelemetryTimer = { u with eth := { u.eth with
      datagrams := u.eth.datagrams ++ [u.telemetry], oobSeq := (u.eth.oobSeq + 1) % 2 ^ 32, oobAt := u.now } } := by
  unfold State.doTelemetryTimer
  rw [if_neg fun h => h.elim (ne_false_of_eq_true hup) (ne_false_of_eq_true hoob), hu]

theorem State.doFixRequestDatagram_latches {src port : Nat} (hsrc : src = s.fget fETH_OOB_PEER_ipv4) (hport : port = s.fget fETH_OOB_port)
    (hfix : s.helm.fix = none) : s.doFixRequestDatagram src port 0x51464B50 = s.latchFix 2 0xFFFF 0 0 false 0 := by
  unfold State.doFixRequestDatagram
  rw [if_neg]
  rintro (h | h | h | h | h | h)
  · exact ne_false_of_eq_true hup h
  · exact ne_false_of_eq_true hoob h
  · exact h hsrc
  · exact h hport
  · exact h rfl
  · exact absurd h (by rw [hfix]; decide)

end Telemetry

theorem State.fixInstant_eth (s : State) : s.fixInstant.eth = s.eth := by
  rw [State.fixInstant, State.fput_eth]

theorem State.fixInstant_now (s : State) : s.fixInstant.now = s.now := by
  rw [State.fixInstant, State.fput_now]

/-! ### MSI-X (R441) -/

theorem bitAt_setBit_false (v k : Nat) : bitAt (setBit v k false) k = false := by
  unfold bitAt setBit
  rw [setBits_testBit v k k _ k (Nat.le_succ k), if_pos ⟨Nat.le_refl k, Nat.le_refl k⟩]
  simp [b2n]

theorem State.msixEntry_unmask (s : State) (v : Nat) (enable : Bool) (w : Nat) :
    (s.unmask v enable).msixEntry w = if w = v then setBit (s.msixEntry v) 96 false else s.msixEntry w :=
  nget_nset _ _ _ _ _

/-- What MSI-X shows, replaced: the enable, the table, the pending bits and the messages sent. -/
def State.putMsix (s : State) (enable : Bool) (table : Bank Nat Nat) (pending : Bank Nat Bool) (sent : List Nat) : State :=
  { s with host := { s.host with msixEnable := enable, msixTable := table, msixPending := pending, msiSent := sent } }

section PutMsix
variable (s : State) (enable : Bool) (table : Bank Nat Nat) (pending : Bank Nat Bool) (sent : List Nat)

theorem State.putMsix_pending : (s.putMsix enable table pending sent).host.msixPending = pending := rfl
theorem State.putMsix_sent : (s.putMsix enable table pending sent).host.msiSent = sent := rfl
theorem State.putMsix_enable : (s.putMsix enable table pending sent).host.msixEnable = enable := rfl
theorem State.putMsix_table : (s.putMsix enable table pending sent).host.msixTable = table := rfl

/-- A pending message that may leave does. -/
theorem State.msixSend_putMsix {v : Nat} (hp : nget false v pending = true) (hmask : bitAt (nget (2 ^ 96) v table) 96 = false) :
    (s.putMsix true table pending sent).msixSend v = s.putMsix true table (nset false v false pending) (sent ++ [v]) :=
  if_pos ⟨hp, rfl, hmask⟩

end PutMsix

/-- The vectors' table after one's mask bit is cleared. -/
def State.unmaskedTable (s : State) (v : Nat) : Bank Nat Nat := nset (2 ^ 96) v (setBit (s.msixEntry v) 96 false) s.host.msixTable

theorem State.unmaskedTable_entry (s : State) (v w : Nat) :
    nget (2 ^ 96) w (s.unmaskedTable v) = if w = v then setBit (s.msixEntry v) 96 false else s.msixEntry w :=
  nget_nset _ _ _ _ _

theorem State.unmaskedTable_unmasked (s : State) (v : Nat) : bitAt (nget (2 ^ 96) v (s.unmaskedTable v)) 96 = false := by
  rw [State.unmaskedTable_entry, if_pos rfl]
  exact bitAt_setBit_false _ _

theorem State.unmask_eq (s : State) (v : Nat) (enable : Bool) :
    s.unmask v enable = s.putMsix enable (s.unmaskedTable v) s.host.msixPending s.host.msiSent := rfl

/-- The one pending message leaves. -/
theorem State.doMsixUnmask_sends {s : State} {v : Nat} (hp : s.host.msixPending = [(v, true)]) :
    s.doMsixUnmask v true = s.putMsix true (s.unmaskedTable v) [] (s.host.msiSent ++ [v]) := by
  have hset : nget false v [(v, true)] = true := by simp [nget, bankGet]
  have hdrop : nset false v false [(v, true)] = [] := by simp [nset, bankSet, bankDrop]
  unfold State.doMsixUnmask
  dsimp only
  rw [State.unmask_eq, State.putMsix_pending, hp, List.foldl_cons, List.foldl_nil,
    State.msixSend_putMsix s _ _ _ hset (s.unmaskedTable_unmasked v), hdrop]

/-- Settles O33: each event of the port by the branch that its premises choose. -/
theorem ethernetPortRuns : Obligations.EthernetPortRuns := by
  unfold Obligations.EthernetPortRuns
  refine ⟨fun up s => rfl, ?ptp, ?timeout, ?frame, ?launch, ?telemetry, ?request, ?unmask⟩
  case ptp =>
    intro t sync measured offset s hup hrun hservo
    exact congrArg Host.Outcome.next (State.doPtpMessage_stamps hup hrun hservo t sync offset)
  case timeout => exact fun s hd hh => congrArg Host.Outcome.next (State.doSyncTimeout_holds hd hh)
  case frame =>
    intro e bs s u v hup hlaunch htake hup' hnow hread
    exact congrArg Host.Outcome.next (State.doEthTxElement_sends hup hlaunch htake hup' hnow hread)
  case launch =>
    intro f t s hf ht hup
    refine ⟨_, congrArg Host.Outcome.next (State.doEthLaunch_sends hf ht hup rfl), ?_, ?_, ?_⟩
    · rw [State.ethSend_now]
      rfl
    · rw [State.ethSend_eth]
    · rw [State.ethSend_eth]
  case telemetry =>
    intro s hup hoob
    generalize hu : (s.advance (s.eth.oobAt + max 10 (s.fget fETH_OOB_period_ms) * 1000000 * unitsPerNs)).fixInstant = u
    have heth : u.eth = s.eth := by rw [← hu, State.fixInstant_eth, State.advance_eth]
    have hnow : u.now = max s.now (s.eth.oobAt + max 10 (s.fget fETH_OOB_period_ms) * 1000000 * unitsPerNs) := by
      rw [← hu, State.fixInstant_now]
      rfl
    have hdo := State.doTelemetryTimer_sends hup hoob hu.symm
    rw [heth] at hdo
    refine ⟨_, u.telemetry, congrArg Host.Outcome.next hdo, rfl, rfl, rfl, hnow, State.telemetry_magic u, ?_⟩
    rw [← hdo]
    exact (keeps_doTelemetryTimer (Fits.refl _) (Keeps.refl _ s)).changes (by decide +kernel)
  case request =>
    intro src port s hup hoob hsrc hport hfix
    exact congrArg Host.Outcome.next (State.doFixRequestDatagram_latches hup hoob hsrc hport hfix)
  case unmask =>
    intro v s hp
    have hdo := State.doMsixUnmask_sends hp
    refine ⟨s.doMsixUnmask v.val true, rfl, ?_, ?_, ?_, ?_, fun w hw => ?_, ?_⟩
    · rw [hdo, State.putMsix_sent]
    · rw [hdo, State.putMsix_pending]
    · rw [hdo, State.putMsix_enable]
    · rw [hdo, State.msixEntry, State.putMsix_table]
      exact s.unmaskedTable_unmasked v.val
    · rw [hdo, State.msixEntry, State.putMsix_table, State.unmaskedTable_entry, if_neg hw]
    · exact (keeps_doMsixUnmask (Fits.refl _) (Keeps.refl _ s)).changes (by decide +kernel)

end Sys2Proof.Machine
end


section
/-! PROOFS. The vendor route instructions (O34 to O39; R124 to R150, R190, R193, R204, R213). -/

namespace Sys2Proof.Machine

/-! ### Taking a word (R135, R150, R166) -/

/-- A word that is taken has its instruction's effect, after which a Pilot that steps may trap. -/
theorem State.takeInstr_word {s t : State} {p w : Nat} (h : s.takesWord p w t) (body : State → State) :
    s.takeInstr p w body = (body t).stepTrap p := by
  obtain ⟨htakes, hgood, hbreak, htakes', hinfo, v, hlead⟩ := h
  unfold State.dispatching at hbreak htakes' hinfo hlead
  unfold State.takeInstr
  rw [if_neg (ne_false_of_eq_true htakes)]
  dsimp only
  generalize s.readCs (p / 4) (dispKey (bits w 63 56)) = r at hgood hbreak htakes' hinfo hlead ⊢
  obtain ⟨u, e, b⟩ := r
  obtain rfl : b = false := hgood
  dsimp only at hbreak htakes' hinfo hlead ⊢
  obtain ⟨o, ho, hplace⟩ := (Option.any_eq_true _ _).mp hinfo
  obtain ⟨hin, hmask⟩ := Bool.and_eq_true_iff.mp hplace
  rw [ho]
  dsimp only
  rw [if_neg (ne_false_of_eq_true hin), if_neg (ne_true_of_eq_false hbreak), if_neg (ne_false_of_eq_true htakes'), hlead]
  exact if_neg fun hne => hne (of_decide_eq_true hmask)

/-- A command that takes a word ends as its instruction's effect does. -/
theorem next_takeInstr {s t r : State} {p w : Nat} {body : State → State} (h : s.takesWord p w t) (hr : body t = r) :
    (Host.Outcome.next (s.takeInstr p w body) : Host.Outcome State Fault Refusal) = .next (r.stepTrap p) :=
  congrArg Host.Outcome.next ((State.takeInstr_word h body).trans (congrArg (State.stepTrap · p) hr))

/-! ### Vectors (R136, R141) -/

theorem State.insVec_runs {n : Nat} (h : 0 < n) (s : State) (p : Nat) : s.insVec p n = (s.stepPc p).startRun p .rows n .next :=
  if_neg h.ne'
theorem State.insRpt_runs {n : Nat} (h : 0 < n) (s : State) (p : Nat) : s.insRpt p n = (s.stepPc p).startRun p .repeatRow n .next :=
  if_neg h.ne'
theorem State.insPad_runs {n : Nat} (h : 0 < n) (s : State) (p : Nat) : s.insPad p n = (s.stepPc p).startRun p .pad n .next :=
  if_neg h.ne'
theorem State.insVec_none {n : Nat} (h : n = 0) (s : State) (p : Nat) : s.insVec p n = s.fatalTrap p cOperand := if_pos h
theorem State.insRpt_none {n : Nat} (h : n = 0) (s : State) (p : Nat) : s.insRpt p n = s.fatalTrap p cOperand := if_pos h
theorem State.insPad_none {n : Nat} (h : n = 0) (s : State) (p : Nat) : s.insPad p n = s.fatalTrap p cOperand := if_pos h

theorem State.insScan_runs {s : State} {p g n : Nat} (hn : 0 < n) (hg : hScanGroup (s.pilot p).hdr g ≠ 0) :
    s.insScan p g n = ((s.stepPc p).setSeq p { ((s.stepPc p).pilot p).q with
      scan := ceilDiv ((s.stepPc p).pilot p).q.scan 4 * 4 }).startRun p (.scan g) n .next :=
  if_neg fun h => h.elim hn.ne' hg

theorem State.insScan_bad {s : State} {p g n : Nat} (h : n = 0 ∨ hScanGroup (s.pilot p).hdr g = 0) :
    s.insScan p g n = s.fatalTrap p cOperand := if_pos h

/-- Settles O34: a word that is taken has its instruction's effect, which starts the run or traps. -/
theorem vectorInstructionsStartRuns : Obligations.VectorInstructionsStartRuns := by
  refine ⟨fun p s t h => next_takeInstr h rfl,
    fun p n s t h => ⟨fun hn => next_takeInstr h (State.insVec_runs hn t _), fun hn => next_takeInstr h (State.insVec_none hn t _)⟩,
    fun p n s t h => ⟨fun hn => next_takeInstr h (State.insRpt_runs hn t _), fun hn => next_takeInstr h (State.insRpt_none hn t _)⟩,
    fun p n s t h => ⟨fun hn => next_takeInstr h (State.insPad_runs hn t _), fun hn => next_takeInstr h (State.insPad_none hn t _)⟩,
    fun p g n s t h => ⟨fun hn hg => next_takeInstr h (State.insScan_runs hn hg), fun hbad => next_takeInstr h (State.insScan_bad hbad)⟩⟩

/-! ### Branches (R128, R129, R136, R138) -/

theorem State.needEntry_done {s u : State} {p b : Nat} {bs : List Byte} (h : s.branchEntry p b = (u, .done bs)) :
    s.needEntry p b = (u, some (ofBytes bs)) := by
  unfold State.needEntry
  rw [h]

theorem State.branchActs_done {s u : State} {p b cause : Nat} {bs : List Byte} (act : State → State)
    (hb : b < hBranches (s.pilot p).hdr) (h : s.branchEntry p b = (u, .done bs)) :
    s.branchActs p b cause act =
      (act u).takeBranch p (entryTarget (ofBytes bs)).1 (entryTarget (ofBytes bs)).2.1 (entryTarget (ofBytes bs)).2.2 := by
  unfold State.branchActs
  rw [if_neg (Nat.not_le.mpr hb), State.needEntry_done h]

theorem State.branchActs_beyond {s : State} {p b cause : Nat} (act : State → State) (hb : hBranches (s.pilot p).hdr ≤ b) :
    s.branchActs p b cause act = s.fatalTrap p cause := if_pos hb

theorem State.insCall_done {s u : State} {p b : Nat} {bs : List Byte} (hb : b < hBranches (s.pilot p).hdr)
    (hdepth : (s.pilot p).q.calls.length < 16) (h : s.branchEntry p b = (u, .done bs)) :
    s.insCall p b = (u.setSeq p { (u.pilot p).q with
      calls := (s.pilot p).q.calls ++ [((s.pilot p).q.pc + 1, (s.pilot p).q.row, (s.pilot p).q.scan)] }).takeBranch p
        (entryTarget (ofBytes bs)).1 (entryTarget (ofBytes bs)).2.1 (entryTarget (ofBytes bs)).2.2 := by
  unfold State.insCall
  dsimp only
  rw [if_neg (Nat.not_le.mpr hb), if_neg (Nat.not_le.mpr hdepth), State.branchActs_done _ hb h]

theorem State.insCall_beyond {s : State} {p b : Nat} (hb : hBranches (s.pilot p).hdr ≤ b) : s.insCall p b = s.fatalTrap p cOperand :=
  if_pos hb

theorem State.insCall_full {s : State} {p b : Nat} (hb : b < hBranches (s.pilot p).hdr) (hdepth : 16 ≤ (s.pilot p).q.calls.length) :
    s.insCall p b = s.fatalTrap p cStackOver :=
  (if_neg (Nat.not_le.mpr hb)).trans (if_pos hdepth)

theorem State.insRet_pops {s : State} {p i r c : Nat} (h : (s.pilot p).q.calls.getLast? = some (i, r, c)) :
    s.insRet p = (s.setSeq p { (s.pilot p).q with calls := (s.pilot p).q.calls.dropLast }).takeBranch p i r c := by
  unfold State.insRet
  dsimp only
  rw [h]

theorem State.insRet_empty {s : State} {p : Nat} (h : (s.pilot p).q.calls = []) : s.insRet p = s.fatalTrap p cStackUnder := by
  unfold State.insRet
  dsimp only
  rw [h]
  rfl

theorem State.insJmpAnz_zero {s : State} {p a b : Nat} (hb : b < hBranches (s.pilot p).hdr) (ha : s.aluReg p a = 0) :
    s.insJmpAnz p a b = s.stepPc p :=
  (if_neg (Nat.not_le.mpr hb)).trans (if_pos ha)

theorem State.insJmpAnz_counts {s u : State} {p a b : Nat} {bs : List Byte} (hb : b < hBranches (s.pilot p).hdr)
    (ha : s.aluReg p a ≠ 0) (h : s.branchEntry p b = (u, .done bs)) :
    s.insJmpAnz p a b = (u.setAlu p a (u.aluReg p a - 1)).takeBranch p (entryTarget (ofBytes bs)).1 (entryTarget (ofBytes bs)).2.1
      (entryTarget (ofBytes bs)).2.2 :=
  ((if_neg (Nat.not_le.mpr hb)).trans (if_neg ha)).trans (State.branchActs_done _ hb h)

theorem State.insJmpAnz_beyond {s : State} {p a b : Nat} (hb : hBranches (s.pilot p).hdr ≤ b) :
    s.insJmpAnz p a b = s.fatalTrap p cOperand := if_pos hb

/-! ### Loops (R138, R190) -/

theorem Pilot.loopBad_none {x : Pilot} {c n b : Nat} (hn : 0 < n) (hb : b < hBranches x.hdr) (hdepth : x.q.loops.length < 8)
    (hfree : ∀ l ∈ x.q.loops, l.counter ≠ c) : x.loopBad c n b = none := by
  have hany : ¬ (8 ≤ x.q.loops.length ∨ x.q.loops.any (fun l => l.counter == c) = true) := by
    rintro (h | h)
    · omega
    · obtain ⟨l, hl, hc⟩ := List.any_eq_true.mp h
      exact hfree l hl (of_decide_eq_true hc)
  unfold Pilot.loopBad
  rw [if_neg (by omega), if_neg hany]

theorem Pilot.loopBad_operand {x : Pilot} {c n b : Nat} (h : n = 0 ∨ hBranches x.hdr ≤ b) : x.loopBad c n b = some cOperand := if_pos h

theorem Pilot.loopBad_depth {x : Pilot} {c n b : Nat} (hn : 0 < n) (hb : b < hBranches x.hdr)
    (h : 8 ≤ x.q.loops.length ∨ ∃ l ∈ x.q.loops, l.counter = c) : x.loopBad c n b = some cLoopDepth := by
  have hany : 8 ≤ x.q.loops.length ∨ x.q.loops.any (fun l => l.counter == c) = true :=
    h.imp_right fun ⟨l, hl, hc⟩ => List.any_eq_true.mpr ⟨l, hl, decide_eq_true hc⟩
  unfold Pilot.loopBad
  rw [if_neg (by omega), if_pos hany]

theorem State.insLoop_opens {s u : State} {p c n b : Nat} {bs : List Byte} (hgood : (s.pilot p).loopBad c n b = none)
    (h : s.branchEntry p b = (u, .done bs)) : s.insLoop p c b n = (u.openLoop p c n b (ofBytes bs)).stepPc p := by
  unfold State.insLoop
  rw [hgood]
  dsimp only
  rw [State.needEntry_done h]

theorem State.insLoop_traps {s : State} {p c n b cause : Nat} (hbad : (s.pilot p).loopBad c n b = some cause) :
    s.insLoop p c b n = s.fatalTrap p cause := by
  unfold State.insLoop
  rw [hbad]
  rfl

theorem State.pilot_fput (s : State) (f : Fld) (i x p : Nat) : (s.fput f i x).pilot p = s.pilot p := rfl

theorem State.pilot_setFloor (s : State) (p a : Nat) : (s.setFloor p).pilot a = s.pilot a := by
  unfold State.setFloor
  split <;> rfl

theorem State.pilot_showPins (s : State) (p a : Nat) : (s.showPins p).pilot a = s.pilot a := State.pilot_setFloor _ p a

theorem State.pilot_setSeq (s : State) (p : Nat) (q : Seq) : (s.setSeq p q).pilot p = { s.pilot p with q := q } := State.pilot_setPilot _ _ _

theorem pinLevel_counter (rb c b e : Nat) (ls : List LoopLevel) : (pinLevel rb c b e ls).counter = c := by
  unfold pinLevel
  dsimp only
  split <;> rfl

theorem pinLevel_top (rb c b e : Nat) (ls : List LoopLevel) : (pinLevel rb c b e ls).top = b := by
  unfold pinLevel
  dsimp only
  split <;> rfl

theorem State.openLoop_loops (s : State) (p c n b e : Nat) : ((s.openLoop p c n b e).pilot p).q.loops =
    (s.pilot p).q.loops ++ [pinLevel (hRowBytes (s.pilot p).hdr) c b e (s.pilot p).q.loops] := by
  unfold State.openLoop
  rw [State.pilot_showPins, State.pilot_setSeq]

theorem State.openLoop_count (s : State) (p c n b e : Nat) : nget 0 c ((s.openLoop p c n b e).pilot p).q.lc = n % 2 ^ 32 := by
  unfold State.openLoop
  rw [State.pilot_showPins, State.pilot_setSeq]
  exact nget_nset_same _ _ _ _

theorem State.insEndl_none {s : State} {p c : Nat} (h : (s.pilot p).q.loops = []) : s.insEndl p c = s.fatalTrap p cLoopNest := by
  unfold State.insEndl
  dsimp only
  rw [h]
  rfl

theorem State.insEndl_other {s : State} {p c : Nat} {l : LoopLevel} (h : (s.pilot p).q.loops.getLast? = some l) (hc : l.counter ≠ c) :
    s.insEndl p c = s.fatalTrap p cLoopNest := by
  unfold State.insEndl
  dsimp only
  rw [h]
  exact if_pos hc

theorem State.insEndl_closes {s : State} {p c v : Nat} {l : LoopLevel} (h : (s.pilot p).q.loops.getLast? = some l) (hc : l.counter = c)
    (hv : v = (nget 0 c (s.pilot p).q.lc + 2 ^ 32 - 1) % 2 ^ 32) (h0 : v = 0) :
    s.insEndl p c = ((s.setSeq p { (s.pilot p).q with lc := nset 0 c v (s.pilot p).q.lc }).closeLoop p).stepPc p := by
  unfold State.insEndl
  dsimp only
  rw [h, ← hv]
  exact (if_neg (not_not_intro hc)).trans (if_neg (not_not_intro h0))

theorem State.insEndl_again {s u : State} {p c v : Nat} {l : LoopLevel} {bs : List Byte} (h : (s.pilot p).q.loops.getLast? = some l)
    (hc : l.counter = c) (hv : v = (nget 0 c (s.pilot p).q.lc + 2 ^ 32 - 1) % 2 ^ 32) (h0 : v ≠ 0)
    (hb : l.top < hBranches (s.pilot p).hdr) (hentry : s.branchEntry p l.top = (u, .done bs)) :
    s.insEndl p c = (u.setSeq p { (u.pilot p).q with lc := nset 0 c v (s.pilot p).q.lc }).takeBranch p (entryTarget (ofBytes bs)).1
      (entryTarget (ofBytes bs)).2.1 (entryTarget (ofBytes bs)).2.2 := by
  unfold State.insEndl
  dsimp only
  rw [h, ← hv]
  exact ((if_neg (not_not_intro hc)).trans (if_pos h0)).trans (State.branchActs_done _ hb hentry)

/-- Settles O35: each branch goes to its entry's target once that is read, and the loop opened is the innermost. -/
theorem branchInstructionsGoToTheirTargets : Obligations.BranchInstructionsGoToTheirTargets := by
  refine ⟨fun p b bs s t u h => ⟨fun hb he => next_takeInstr h (State.branchActs_done id hb he),
      fun hb => next_takeInstr h (State.branchActs_beyond id hb)⟩, ?call,
    fun p s t h => ⟨fun i r c hl => next_takeInstr h (State.insRet_pops hl), fun h0 => next_takeInstr h (State.insRet_empty h0)⟩,
    fun p a bs s t u h => ⟨fun hb he => next_takeInstr h (State.branchActs_done id hb he),
      fun hb => next_takeInstr h (State.branchActs_beyond id hb)⟩,
    fun p a b bs s t u h => ⟨fun hb ha => next_takeInstr h (State.insJmpAnz_zero hb ha),
      fun hb ha he => next_takeInstr h (State.insJmpAnz_counts hb ha he), fun hb => next_takeInstr h (State.insJmpAnz_beyond hb)⟩,
    ?loop, ?endl, fun p c s t h h0 => next_takeInstr h (State.insEndl_none h0)⟩
  case call =>
    intro p b bs s t u h q
    exact ⟨fun hb hd he => next_takeInstr h (State.insCall_done hb hd he), fun hb => next_takeInstr h (State.insCall_beyond hb),
      fun hb hd => next_takeInstr h (State.insCall_full hb hd)⟩
  case loop =>
    intro p c b n bs s t u h x
    refine ⟨?_, fun hbad => next_takeInstr h (State.insLoop_traps (Pilot.loopBad_operand hbad)),
      fun hn hb hd => next_takeInstr h (State.insLoop_traps (Pilot.loopBad_depth hn hb hd))⟩
    intro hn hb hd hfree he v
    exact ⟨next_takeInstr h (State.insLoop_opens (Pilot.loopBad_none hn hb hd hfree) he),
      ⟨_, State.openLoop_loops .., pinLevel_counter .., pinLevel_top ..⟩,
      (State.openLoop_count ..).trans (Nat.mod_eq_of_lt n.isLt)⟩
  case endl =>
    intro p c l bs s t u h hl v lc
    exact ⟨fun hc => next_takeInstr h (State.insEndl_other hl hc), fun hc h0 => next_takeInstr h (State.insEndl_closes hl hc rfl h0),
      fun hc h0 hb he => next_takeInstr h (State.insEndl_again hl hc rfl h0 hb he)⟩

/-! ### Fail-dependent instructions (R143 to R147) -/

theorem State.failJump_pads {s : State} {p : Nat} (onFail : Bool) {g b : Nat} (hb : b < hBranches (s.pilot p).hdr)
    (hmark : (s.pilot p).leg.failMark < (s.pilot p).q.next) :
    s.failJump p onFail g b = (s.stepPc p).startRun p .pad (legHpad (s.pilot p).leg.entry)
      (.failBranch onFail g b ((s.pilot p).q.next - 1)) :=
  (if_neg (Nat.not_le.mpr hb)).trans (if_neg (Nat.not_le.mpr hmark))

theorem State.failJump_uncovered {s : State} {p : Nat} (onFail : Bool) {g b : Nat} (hb : b < hBranches (s.pilot p).hdr)
    (hmark : (s.pilot p).q.next ≤ (s.pilot p).leg.failMark) :
    s.failJump p onFail g b = if onFail then s.stepPc p else s.branchTo p b cOperand :=
  (if_neg (Nat.not_le.mpr hb)).trans (if_pos hmark)

theorem State.insPvCapt_pads {s : State} {p : Nat} (bit : Bool) (v m : Nat) (h : 0 < (s.pilot p).q.next) :
    s.insPvCapt p bit v m = (((s.setLeg p { (s.pilot p).leg with keepIndex := some ((s.pilot p).q.next - 1) }).stepPc p).startRun p .pad
      (legHpad (s.pilot p).leg.entry) (.pvCapt bit v m ((s.pilot p).q.next - 1))) :=
  if_neg h.ne'

theorem State.insPvCapt_free {s : State} {p : Nat} (bit : Bool) (v m : Nat) (h : (s.pilot p).q.next = 0) :
    s.insPvCapt p bit v m = (s.freeBits p v m).stepPc p := if_pos h

theorem State.insMatch_loads {s : State} {p g b k limit : Nat} (hb : b < hBranches (s.pilot p).hdr)
    (hrows : (s.pilot p).q.row + k ≤ hVecRows (s.pilot p).hdr) (hlen : k * hRowBytes (s.pilot p).hdr ≤ (s.pilot p).str.fifo.length)
    (hlo : (s.pilot p).str.fifoLo = (s.pilot p).q.row * hRowBytes (s.pilot p).hdr) :
    s.insMatch p g b k limit = s.loadMatch p g b k limit :=
  ((if_neg (Nat.not_le.mpr hb)).trans (if_neg (Nat.not_lt.mpr hrows))).trans
    (if_neg fun h => h.elim (Nat.not_lt.mpr hlen) (fun hne => hne hlo))

theorem State.insMatch_waits {s : State} {p g b k limit : Nat} (hb : b < hBranches (s.pilot p).hdr)
    (hrows : (s.pilot p).q.row + k ≤ hVecRows (s.pilot p).hdr)
    (h : (s.pilot p).str.fifo.length < k * hRowBytes (s.pilot p).hdr ∨
      (s.pilot p).str.fifoLo ≠ (s.pilot p).q.row * hRowBytes (s.pilot p).hdr) :
    s.insMatch p g b k limit = s :=
  ((if_neg (Nat.not_le.mpr hb)).trans (if_neg (Nat.not_lt.mpr hrows))).trans (if_pos h)

/-- Settles O36: each instruction has its effect on the state in which its word is taken. -/
theorem failInstructionsAct : Obligations.FailInstructionsAct := by
  refine ⟨fun p s t h => next_takeInstr h rfl,
    fun p g b s t h hb => ⟨fun hm => next_takeInstr h (State.failJump_uncovered true hb hm),
      fun hm => next_takeInstr h (State.failJump_pads true hb hm)⟩,
    fun p g b s t h hb => ⟨fun hm => next_takeInstr h (State.failJump_uncovered false hb hm),
      fun hm => next_takeInstr h (State.failJump_pads false hb hm)⟩,
    fun p bit v m s t h hn => next_takeInstr h (State.insPvCapt_pads bit _ _ hn),
    fun p bit v m s t h hn => next_takeInstr h (State.insPvCapt_free bit _ _ hn), ?_⟩
  intro p g b k1 t1 s t h x hb hrows
  exact ⟨fun hlen hlo => next_takeInstr h (State.insMatch_loads hb hrows hlen hlo),
    fun hwait => next_takeInstr h (State.insMatch_waits hb hrows hwait)⟩

/-! ### The sequencer's own state (R124, R136) -/

theorem State.insLegendSel_bank {bank : Nat} (h : bank < 2) (s : State) (p : Nat) :
    s.insLegendSel p bank = (s.setSeq p { (s.pilot p).q with bank := bank }).stepPc p := by
  rw [State.insLegendSel, Nat.mod_eq_of_lt h]

theorem State.insTset_set {k : Nat} (h : k < 2048) (s : State) (p : Nat) :
    s.insTset p k = (s.setSeq p { (s.pilot p).q with tset := k }).stepPc p := by
  rw [State.insTset, Nat.mod_eq_of_lt h]

theorem State.insPvLoad_bits {m : Nat} (h : m < 2 ^ 48) (s : State) (p v : Nat) :
    s.insPvLoad p v m = (s.setSeq p { (s.pilot p).q with v := nset 0 v m (s.pilot p).q.v }).stepPc p := by
  rw [State.insPvLoad, Nat.mod_eq_of_lt h]

theorem State.insPvXor_bits {m : Nat} (h : m < 2 ^ 48) (s : State) (p v : Nat) :
    s.insPvXor p v m = (s.setSeq p { (s.pilot p).q with
      v := nset 0 v (Nat.xor (nget 0 v (s.pilot p).q.v) m) (s.pilot p).q.v }).stepPc p := by
  rw [State.insPvXor, Nat.mod_eq_of_lt h]

/-- Settles O37: each instruction sets what its operands say, and its operands fit the fields that hold them. -/
theorem sequencerInstructionsSetItsState : Obligations.SequencerInstructionsSetItsState :=
  ⟨fun _ _ _ _ _ h => next_takeInstr h rfl, fun _ _ _ _ _ h => next_takeInstr h rfl,
    fun _ bank _ _ h => next_takeInstr h (State.insLegendSel_bank bank.isLt _ _),
    fun _ k _ _ h => next_takeInstr h (State.insTset_set k.isLt _ _),
    fun _ _ m _ _ h => next_takeInstr h (State.insPvLoad_bits m.isLt _ _ _),
    fun _ _ m _ _ h => next_takeInstr h (State.insPvXor_bits m.isLt _ _ _),
    fun _ _ _ _ h => next_takeInstr h rfl, fun _ _ _ h => next_takeInstr h rfl⟩

/-! ### What the job owns (R139, R142, R204, R213) -/

theorem State.insMsPost_tag {tag : Nat} (h : tag < 65536) (s : State) (p q : Nat) :
    s.insMsPost p q tag = (s.defer p (.post ((s.pjob p).queue q) (reportHead 1 p (s.pilot p).leg.index + tag))).stepPc p := by
  rw [State.insMsPost, Nat.mod_eq_of_lt h]

theorem State.insSxtWin_owned {s : State} {p ch : Nat} (hch : ch ≤ 51) (h : bitAt (s.pjob p).sxtChans ch = true) (opens len : Nat) :
    s.insSxtWin p ch opens len = (s.defer p (.window ch opens len)).stepPc p :=
  (if_neg (Nat.not_lt.mpr hch)).trans (if_neg (ne_false_of_eq_true h))

theorem State.insSxtWin_notOwned {s : State} {p ch : Nat} (hch : ch ≤ 51) (h : bitAt (s.pjob p).sxtChans ch = false) (opens len : Nat) :
    s.insSxtWin p ch opens len = s.fatalTrap p cNotOwned :=
  (if_neg (Nat.not_lt.mpr hch)).trans (if_pos h)

theorem State.insSxtArm_owned {s : State} {p mask : Nat} (h : Nat.land mask (s.pjob p).sxtChans = mask) (on : Bool) :
    s.insSxtArm p on mask = (s.defer p (.arm mask on)).stepPc p := if_neg (not_not_intro h)

theorem State.insSxtArm_notOwned {s : State} {p mask : Nat} (h : Nat.land mask (s.pjob p).sxtChans ≠ mask) (on : Bool) :
    s.insSxtArm p on mask = s.fatalTrap p cNotOwned := if_pos h

theorem State.insDdsHop_owned {s : State} {p e : Nat} (h : bitAt (s.pjob p).ddsEngines e = true) (entry : Nat) :
    s.insDdsHop p e entry = (s.defer p (.hop e entry)).stepPc p := if_neg (ne_false_of_eq_true h)

theorem State.insDdsHop_notOwned {s : State} {p e : Nat} (h : bitAt (s.pjob p).ddsEngines e = false) (entry : Nat) :
    s.insDdsHop p e entry = s.fatalTrap p cNotOwned := if_pos h

theorem State.insCapCtl_owned {s : State} {p g : Nat} {ct total : Bool} (h : s.capRefused p (hGroup (s.pilot p).hdr g) ct total = false) :
    s.insCapCtl p g ct total = (s.setStr p { (s.pilot p).str with
      total := switchBits (hGroup (s.pilot p).hdr g) total (s.pilot p).str.total,
      ct := switchBits (hGroup (s.pilot p).hdr g) ct (s.pilot p).str.ct }).stepPc p :=
  if_neg (ne_true_of_eq_false h)

theorem State.insCapCtl_notOwned {s : State} {p g : Nat} {ct total : Bool} (h : s.capRefused p (hGroup (s.pilot p).hdr g) ct total = true) :
    s.insCapCtl p g ct total = s.fatalTrap p cNotOwned := if_pos h

/-- Settles O38: what the job owns is acted on when the next period begins, and what it does not own traps. -/
theorem instructionsOnWhatTheJobOwns : Obligations.InstructionsOnWhatTheJobOwns := by
  refine ⟨fun p q tag s t h => next_takeInstr h (State.insMsPost_tag tag.isLt _ _ _),
    fun p ch opens len s t h hch => ⟨fun ho => next_takeInstr h (State.insSxtWin_owned hch ho _ _),
      fun ho => next_takeInstr h (State.insSxtWin_notOwned hch ho _ _)⟩,
    fun p arm mask s t h => ⟨fun ho => next_takeInstr h (State.insSxtArm_owned ho _), fun ho => next_takeInstr h (State.insSxtArm_notOwned ho _)⟩,
    fun p e entry s t h => ⟨fun ho => next_takeInstr h (State.insDdsHop_owned ho _), fun ho => next_takeInstr h (State.insDdsHop_notOwned ho _)⟩, ?_⟩
  intro p g ct total s t h grp
  exact ⟨fun hok => next_takeInstr h (State.insCapCtl_owned hok), fun hno => next_takeInstr h (State.insCapCtl_notOwned hno)⟩

/-! ### Instructions that wait (R129, R132, R137, R140, R193) -/

theorem State.insWaitOdo_due {s : State} {p d : Nat} (lf : Bool) (h : ceilDiv d (legD (s.pilot p).leg.entry) = (s.pilot p).q.next) :
    s.insWaitOdo p lf d = (s.setSeq p { (s.pilot p).q with
      odoCmp := (s.pilot p).leg.s88 + d * fracOne, odoLate := false }).stepPc p := by
  unfold State.insWaitOdo
  dsimp only
  rw [h, decide_eq_false (Nat.lt_irrefl _), if_neg Bool.false_ne_true, if_neg fun h => Bool.false_ne_true h.1, if_pos (Nat.le_refl _)]

theorem State.insWaitOdo_pads {s : State} {p d : Nat} (lf : Bool) (h : (s.pilot p).q.next < ceilDiv d (legD (s.pilot p).leg.entry)) :
    s.insWaitOdo p lf d = ((s.setSeq p { (s.pilot p).q with
      odoCmp := (s.pilot p).leg.s88 + d * fracOne, odoLate := false }).stepPc p).startRun p .pad
        (ceilDiv d (legD (s.pilot p).leg.entry) - (s.pilot p).q.next) .next := by
  unfold State.insWaitOdo
  dsimp only
  rw [decide_eq_false (Nat.lt_asymm h), if_neg Bool.false_ne_true, if_neg fun h => Bool.false_ne_true h.1, if_neg (Nat.not_le.mpr h)]

theorem State.insWaitOdo_late {s : State} {p d : Nat} (h : ceilDiv d (legD (s.pilot p).leg.entry) < (s.pilot p).q.next) :
    s.insWaitOdo p false d = ((s.fput fPLT_LEG_STATUS_odo_late p 1).setSeq p { (s.pilot p).q with
      odoCmp := (s.pilot p).leg.s88 + d * fracOne, odoLate := true }).stepPc p := by
  unfold State.insWaitOdo
  dsimp only
  rw [decide_eq_true h, if_pos rfl, if_neg fun h => Bool.false_ne_true h.2, if_pos (Nat.le_of_lt h), State.pilot_fput]

theorem State.insWaitOdo_lateFault {s : State} {p d : Nat} (h : ceilDiv d (legD (s.pilot p).leg.entry) < (s.pilot p).q.next) :
    s.insWaitOdo p true d = (s.fput fPLT_LEG_STATUS_odo_late p 1).fatalTrap p cOdoLate := by
  unfold State.insWaitOdo
  dsimp only
  rw [decide_eq_true h, if_pos rfl]
  exact if_pos ⟨rfl, rfl⟩

theorem State.insWaypt_beyond {s : State} {p h : Nat} (hrow : hRowtabRows (s.pilot p).hdr ≤ h) : s.insWaypt p h = s.fatalTrap p cOperand :=
  if_pos hrow

theorem State.insWaypt_sets {s v : State} {p h : Nat} (hrow : h < hRowtabRows (s.pilot p).hdr)
    (hv : v = (s.setSeq p { (s.pilot p).q with waypoint := some h, pastWay := false }).stepPc p) :
    s.insWaypt p h = if legStallable (s.pilot p).leg.entry ∧ (v.pjob p).streams then
      if (v.rowBeyond p).1.guardOk p (v.rowBeyond p).2.row then (v.rowBeyond p).1
      else (v.rowBeyond p).1.beginHold p (v.rowBeyond p).2.row .holdEnd (v.rowBeyond p).2.tgts else v := by
  unfold State.insWaypt
  rw [if_neg (Nat.not_le.mpr hrow), ← hv]

theorem State.insJmpAbs_holds {s : State} {p a : Nat} (hway : (s.pilot p).q.waypoint.isSome = true)
    (hstall : legStallable (s.pilot p).leg.entry = true) (hi : s.aluReg p a < hInstrWords (s.pilot p).hdr)
    (hr : s.aluReg p (a + 1) ≤ hVecRows (s.pilot p).hdr) :
    s.insJmpAbs p a = (s.stepPc p).beginHold p (s.aluReg p (a + 1)) (.absolute (s.aluReg p a) (s.aluReg p (a + 1)))
      [(s.aluReg p a, s.aluReg p (a + 1), 0)] := by
  refine if_neg ?_
  rintro (h | h | h | h)
  · rw [Option.isNone_iff_eq_none.mp h] at hway
    exact Bool.false_ne_true hway
  · exact ne_false_of_eq_true hstall h
  · exact Nat.not_le.mpr hi h
  · exact Nat.not_lt.mpr hr h

theorem State.insJmpAbs_traps {s : State} {p a : Nat} (h : (s.pilot p).q.waypoint = none ∨ legStallable (s.pilot p).leg.entry = false ∨
    hInstrWords (s.pilot p).hdr ≤ s.aluReg p a ∨ hVecRows (s.pilot p).hdr < s.aluReg p (a + 1)) :
    s.insJmpAbs p a = s.fatalTrap p cTarget :=
  if_pos (h.imp_left Option.isNone_iff_eq_none.mpr)

theorem State.insLegStart_beyond {s : State} {p l : Nat} (h : hLegs (s.pilot p).hdr ≤ l) : s.insLegStart p l = s.fatalTrap p cOperand :=
  if_pos h

theorem State.insLegStart_awaits {s u : State} {p l : Nat} {bs : List Byte} (hl : l < hLegs (s.pilot p).hdr)
    (h : s.legEntry p l = (u, .done bs)) : s.insLegStart p l = (u.stepPc p).awaitStart p l (ofBytes bs) := by
  unfold State.insLegStart State.needLeg
  rw [if_neg (Nat.not_le.mpr hl), h]

theorem State.awaitStart_late {s : State} {p l e : Nat} (hmode : legMode e = 1) (hnew : (s.pilot p).resumed = false)
    (hsoon : s.relativeN p e < (s.pilot p).e88 + legReach e + (s.mer (s.pjob p).meridian).spanAtMax 20000) :
    s.awaitStart p l e = (s.setPilot p { s.pilot p with awaitLeg := l, awaitEntry := e }).endJob (s.pilot p).job .legLate :=
  if_pos ⟨hmode, hnew, hsoon⟩

theorem State.awaitStart_waits {s : State} {p l e : Nat} (h : legMode e ≠ 1 ∨ (s.pilot p).resumed = true ∨
    ¬ s.relativeN p e < (s.pilot p).e88 + legReach e + (s.mer (s.pjob p).meridian).spanAtMax 20000) :
    s.awaitStart p l e = s.setPilot p { s.pilot p with st := .awaiting, awaitLeg := l, awaitEntry := e } := by
  refine if_neg ?_
  rintro ⟨hmode, hnew, hsoon⟩
  rcases h with h | h | h
  · exact h hmode
  · exact ne_false_of_eq_true h hnew
  · exact h hsoon

/-! ### User opcodes (R137, R167) -/

theorem bits_userWord {op operand : Nat} (hop : op < 64) (hw : operand < 2 ^ 56) : bits ((0xC0 + op) * 2 ^ 56 + operand) 63 56 = 0xC0 + op := by
  unfold bits
  omega

theorem State.takeUser_of_entry {s u t : State} {p op operand e : Nat} (hop : op < 64) (hw : operand < 2 ^ 56)
    (htakes : (s.pilot p).takes = true) (hread : s.readCs (p / 4) (dispKey (0xC0 + op)) = (u, e, false))
    (ht : t = u.setSeq p { (u.pilot p).q with opr := (0xC0 + op) * 2 ^ 56 + operand, upc := bits e 13 0 }) :
    s.takeUser p ((0xC0 + op) * 2 ^ 56 + operand) =
      if bitAt e 14 = false then t.fatalTrap p cOpcode
      else if (if t.legRuns p then bitAt e 16 else bitAt e 17) = false then t.fatalTrap p cNotInLeg
      else if (bitAt e 20 && ((u.pilot p).q.waypoint.isNone || !legStallable (u.pilot p).leg.entry)) = true then t.fatalTrap p cTarget
      else t.setSeq p { (t.pilot p).q with inRoutine := true, entry := e, first := true } := by
  have hword := bits_userWord hop hw
  generalize (0xC0 + op) * 2 ^ 56 + operand = w at hword ht ⊢
  have hvendor : ¬ 0xC0 + op < 0xC0 := by omega
  unfold State.takeUser
  rw [if_neg (ne_false_of_eq_true htakes)]
  dsimp only
  rw [hword, hread]
  dsimp only
  rw [show u.dispatch p w e = t from ht.symm]
  simp only [hvendor, false_or, Bool.and_eq_true, Bool.or_eq_true, Bool.not_eq_true']
  rfl

/-- Settles O39: each instruction waits, traps or goes on as the state in which its word is taken says. -/
theorem waitingInstructionsAct : Obligations.WaitingInstructionsAct := by
  refine ⟨?waitOdo, ?waypt, ?jmpAbs, ?legStart, ?user⟩
  case waitOdo =>
    intro p lf d s t h x want v late
    refine ⟨fun hw => next_takeInstr h (State.insWaitOdo_due lf hw), fun hw => next_takeInstr h (State.insWaitOdo_pads lf hw), ?_, ?_⟩
    · rintro hw rfl
      exact next_takeInstr h (State.insWaitOdo_late hw)
    · rintro hw rfl
      exact next_takeInstr h (State.insWaitOdo_lateFault hw)
  case waypt =>
    intro p w s t v h
    refine ⟨fun hrow => next_takeInstr h (State.insWaypt_beyond hrow), fun hrow hv => ⟨fun hfree => ?_, ?_⟩⟩
    · refine next_takeInstr h ((State.insWaypt_sets hrow hv).trans (if_neg fun hs => ?_))
      exact hfree.elim (fun h1 => ne_false_of_eq_true hs.1 h1) (fun h1 => ne_false_of_eq_true hs.2 h1)
    · intro hstall hstream r
      have hsets := (State.insWaypt_sets hrow hv).trans (if_pos ⟨hstall, hstream⟩)
      exact ⟨fun hok => next_takeInstr h (hsets.trans (if_pos hok)),
        fun hshort => next_takeInstr h (hsets.trans (if_neg (ne_true_of_eq_false hshort)))⟩
  case jmpAbs =>
    intro p a s t h x i r
    exact ⟨fun hway hstall hi hr => next_takeInstr h (State.insJmpAbs_holds hway hstall hi hr),
      fun hbad => next_takeInstr h (State.insJmpAbs_traps hbad)⟩
  case legStart =>
    intro p l bs s t u v h
    refine ⟨fun hl => next_takeInstr h (State.insLegStart_beyond hl), ?_⟩
    rintro hl he rfl y soon
    have hawaits := State.insLegStart_awaits hl he
    exact ⟨fun hw => next_takeInstr h (hawaits.trans (State.awaitStart_waits (hw.imp_right (Or.imp_right of_decide_eq_false)))),
      fun hmode hnew hsoon => next_takeInstr h (hawaits.trans (State.awaitStart_late hmode hnew (of_decide_eq_true hsoon)))⟩
  case user =>
    intro p op operand e s u t htakes hread ht x place away
    have huser : exec (.userOpcode p op operand) s = _ :=
      congrArg Host.Outcome.next (State.takeUser_of_entry op.isLt operand.isLt htakes hread ht)
    refine ⟨fun hload hplace haway => ?_, fun hload => ?_, fun hload hplace => ?_, fun hload hplace haway => ?_⟩
    · rw [huser, if_neg (ne_false_of_eq_true hload), if_neg (ne_false_of_eq_true hplace), if_neg (ne_true_of_eq_false haway)]
    · rw [huser, if_pos hload]
    · rw [huser, if_neg (ne_false_of_eq_true hload), if_pos hplace]
    · rw [huser, if_neg (ne_false_of_eq_true hload), if_neg (ne_false_of_eq_true hplace), if_pos haway]

end Sys2Proof.Machine
end


section
/-! PROOFS. Microwords (O40; R155 to R163, R173). -/

namespace Sys2Proof.Machine

/-! ### A word's fields and its beginning (R154, R155) -/

theorem mwOp_setBits (w : Nat) {op : Nat} (h : op < 16) : mwOp (setBits w 191 188 op) = op :=
  (bits_setBits w op (by omega)).trans (Nat.mod_eq_of_lt h)

theorem State.seqWord_runs {s : State} {p x : Nat} (h : s.runsWord p x) {op w : Nat} (hx : x = setBits (w % 2 ^ 192) 191 188 op) :
    s.seqWord p op w = s.startWord p x := by
  obtain ⟨hin, hrun, hst, hend, hbreak, -⟩ := h
  unfold State.seqWord State.runWord
  rw [if_pos ⟨hin, by rw [hrun]; rfl, hst, hend⟩, ← hx, if_neg (ne_true_of_eq_false hbreak)]
  refine if_neg fun hstop => ?_
  rcases hstop with hout | htrap
  · exact ne_false_of_eq_true hin hout
  · rw [hst] at htrap
    exact absurd htrap (by decide)

/-- Without a horizon test the causes known before a word runs are those of a word that cannot complete. -/
theorem State.startTrap_of_noHorizon {s : State} {p x : Nat} (h : mwHorizon x = false) : s.startTrap p x = s.wordTrap p x := by
  unfold State.startTrap State.wordTrap
  rw [if_neg (ne_true_of_eq_false h)]

theorem State.startWord_traps {s : State} {p x cause : Nat} (h : s.runsWord p x) (hcause : s.wordTrap p x = some cause) :
    s.startWord p x = s.fatalTrap p cause := by
  obtain ⟨-, -, -, -, -, -, -, hhor⟩ := h
  unfold State.startWord
  dsimp only
  rw [if_neg (ne_true_of_eq_false hhor), State.startTrap_of_noHorizon hhor, hcause]

theorem State.wordSource_none {s : State} {p x : Nat} (h : bits (mwVec x) 7 5 = 0) : s.wordSource p x = .ok none := by
  unfold State.wordSource
  rw [h]
  rfl

theorem State.startWord_noVector {s : State} {p x : Nat} (h : s.runsWord p x) (hgood : s.wordTrap p x = none) :
    s.startWord p x = if mwOp x = 5 then s.setSeq p { (s.pilot p).q with run := some { src := .pad, left := 0, after := .wait x 0, noFail := bitAt (mwFail x) 3, way := (s.pilot p).q.waypoint } } else s.completeWord p x false := by
  obtain ⟨-, -, -, -, -, hvec, -, hhor⟩ := h
  unfold State.startWord
  dsimp only
  rw [if_neg (ne_true_of_eq_false hhor), State.startTrap_of_noHorizon hhor, hgood, State.wordSource_none hvec]
  dsimp only
  rw [if_neg fun hn => Bool.false_ne_true hn.1]
  by_cases h5 : mwOp x = 5
  · rw [if_pos (Or.inl h5), if_pos h5, if_pos h5]
  · rw [if_neg (fun h => h.elim h5 (ne_true_of_eq_false hhor)), if_neg h5]

/-! ### Its completion (R155, R156) -/

/-- A completed word that starts a leg then waits for it (R163). -/
def State.wordEnds (s : State) (p x opr leg : Nat) : State := if mwAux x = 6 then s.awaitStart p (bits opr 11 0) leg else s

theorem State.completeWord_acts {s v : State} {p x top leg : Nat} {br : Option Nat} {timedOut : Bool} (hgood : s.wordTrap p x = none)
    (hbody : bits (mwMatch x) 2 0 = 1 → (s.pilot p).bodyMissing (bits (s.pilot p).q.opr 31 20 + 1) = false)
    (hneeds : s.wordNeeds p x (if s.rbrTaken p x && !loopLeaves x (s.pilot p).q then
      (rbrIndex x (s.pilot p).q (s.pilot p).leg.matchSt).map (·.1) else none) = (v, some (top, br, leg))) :
    s.completeWord p x timedOut = ((v.wordActs p x top).wordNext p x (s.pilot p).q timedOut
      (s.rbrTaken p x && !loopLeaves x (s.pilot p).q) (v.wordTest p x) br).wordEnds p x (s.pilot p).q.opr leg := by
  unfold State.completeWord
  rw [hgood]
  dsimp only
  rw [if_neg (fun h => ne_true_of_eq_false (hbody h.1) h.2), hneeds]
  rfl

theorem State.wordNeeds_nothing (s : State) (p : Nat) {x : Nat} (hloop : bits (mwLoop x) 11 9 ≠ 1) (haux : mwAux x ≠ 6) :
    s.wordNeeds p x none = (s, some (0, none, 0)) := by
  unfold State.wordNeeds
  dsimp only
  rw [if_neg hloop]
  dsimp only
  rw [if_neg haux]
  rfl

/-- A word without vectors completes at once: its effects, and then its next address. -/
theorem State.seqWord_completes {s v u r : State} {p x top leg : Nat} {br : Option Nat} {op w : Nat} (h : s.runsWord p x)
    (hx : x = setBits (w % 2 ^ 192) 191 188 op) (hop : op < 16) (h5 : op ≠ 5) (hgood : s.wordTrap p x = none)
    (hbody : bits (mwMatch x) 2 0 = 1 → (s.pilot p).bodyMissing (bits (s.pilot p).q.opr 31 20 + 1) = false)
    (hneeds : s.wordNeeds p x (if s.rbrTaken p x && !loopLeaves x (s.pilot p).q then
      (rbrIndex x (s.pilot p).q (s.pilot p).leg.matchSt).map (·.1) else none) = (v, some (top, br, leg)))
    (hu : u = v.wordActs p x top)
    (hr : u.wordNext p x (s.pilot p).q false (s.rbrTaken p x && !loopLeaves x (s.pilot p).q) (v.wordTest p x) br = r) :
    s.seqWord p op w = r.wordEnds p x (s.pilot p).q.opr leg := by
  have hmw : mwOp x ≠ 5 := by rwa [hx, mwOp_setBits _ hop]
  rw [State.seqWord_runs h hx, State.startWord_noVector h hgood, if_neg hmw, State.completeWord_acts hgood hbody hneeds, ← hu, hr]

section
variable {s : State} {p x : Nat} {q : Seq} {late taken test : Bool} {br : Option Nat}

theorem State.wordNext_cont (h : mwOp x = 0) :
    s.wordNext p x q late taken test br = s.wordGoes p (q.upc + 1) := by
  unfold State.wordNext
  rw [h]
  rfl

theorem State.wordNext_jump (h : mwOp x = 1) :
    s.wordNext p x q late taken test br = s.wordGoes p (mwTgt x) := by
  unfold State.wordNext
  rw [h]
  rfl

theorem State.wordNext_branch (h : mwOp x = 2) :
    s.wordNext p x q late taken test br = s.wordGoes p (if test then mwTgt x else q.upc + 1) := by
  unfold State.wordNext
  rw [h]
  rfl

theorem State.wordNext_call (h : mwOp x = 3) :
    s.wordNext p x q late taken test br = (s.setSeq p { (s.pilot p).q with mstack := q.mstack ++ [q.upc + 1] }).wordGoes p (mwTgt x) := by
  unfold State.wordNext
  rw [h]
  rfl

theorem State.wordNext_return {a : Nat} (h : mwOp x = 4) (ha : q.mstack.getLast? = some a) :
    s.wordNext p x q late taken test br = (s.setSeq p { (s.pilot p).q with mstack := q.mstack.dropLast }).wordGoes p a := by
  unfold State.wordNext
  rw [h, ha]
  rfl

theorem State.wordNext_wait (h : mwOp x = 5) :
    s.wordNext p x q late taken test br = s.wordGoes p (if late then mwTgt x else q.upc + 1) := by
  unfold State.wordNext
  rw [h]
  rfl

theorem State.wordNext_next (h : mwOp x = 6) :
    s.wordNext p x q late taken test br = s.endRoutine p := by
  unfold State.wordNext
  rw [h]
  rfl

theorem State.wordNext_rbr (h : mwOp x = 7) :
    s.wordNext p x q late taken test br = if taken then s.routineBranches p x q br else s.endRoutine p := by
  unfold State.wordNext
  rw [h]
  rfl

theorem State.wordNext_mtab (h : mwOp x = 8) :
    s.wordNext p x q late taken test br = s.wordGoes p (mwTgt x + uReg q 0 % 16) := by
  unfold State.wordNext
  rw [h]
  rfl

end

theorem State.wordCause_trap {s : State} {p x : Nat} (h : mwOp x = 9) : s.wordCause p x = some (bits (mwImm x) 7 0) := if_pos h

theorem State.wordTest_idle {s : State} {p : Nat} (h : (s.pilot p).q.run = none) (x : Nat) : s.wordTest p x = s.mwTest p x := by
  unfold State.wordTest
  rw [h]

theorem State.wordTest_made {s : State} {p x : Nat} {r : Run} (h : (s.pilot p).q.run = some r) (hhor : mwHorizon x = false)
    (h5 : mwOp x ≠ 5) : s.wordTest p x = r.test := by
  unfold State.wordTest
  rw [h]
  exact if_neg fun hh => hh.elim (ne_true_of_eq_false hhor) h5

theorem State.rbrTaken_other {s : State} {p x : Nat} (h : mwOp x ≠ 7) : s.rbrTaken p x = false := by
  unfold State.rbrTaken
  rw [beq_eq_false_iff_ne.mpr h, Bool.false_and]

theorem State.doWaitTimeout_acts {s v : State} {p x count top leg : Nat} {br : Option Nat} {r : Run} (hrun : (s.pilot p).q.run = some r)
    (hafter : r.after = .wait x count) (hleft : r.left = 0) (htest : s.mwTest p x = false) (hlimit : s.waitLimit p x = some count)
    (hop : mwOp x = 5) (hgood : s.wordTrap p x = none)
    (hbody : bits (mwMatch x) 2 0 = 1 → (s.pilot p).bodyMissing (bits (s.pilot p).q.opr 31 20 + 1) = false)
    (hneeds : s.wordNeeds p x none = (v, some (top, br, leg))) :
    s.doWaitTimeout p = ((v.wordActs p x top).wordGoes p (mwTgt x)).wordEnds p x (s.pilot p).q.opr leg := by
  have hnot : (s.rbrTaken p x && !loopLeaves x (s.pilot p).q) = false := by
    rw [State.rbrTaken_other (by rw [hop]; decide), Bool.false_and]
  unfold State.doWaitTimeout
  rw [hrun]
  dsimp only
  rw [hafter]
  dsimp only
  rw [if_pos ⟨htest, hlimit, hleft⟩, State.completeWord_acts hgood hbody (by rwa [hnot, if_neg Bool.false_ne_true]),
    State.wordNext_wait hop]
  rfl

theorem State.seqWord_traps {s : State} {p x cause op w : Nat} (h : s.runsWord p x) (hcause : s.wordTrap p x = some cause)
    (hx : x = setBits (w % 2 ^ 192) 191 188 op) : s.seqWord p op w = s.fatalTrap p cause :=
  (State.seqWord_runs h hx).trans (State.startWord_traps h hcause)

/-- Settles O40: a word begins when its routine runs it, traps if it cannot complete, and otherwise acts and goes on. -/
theorem microwordsRun : Obligations.MicrowordsRun := by
  intro p s q
  refine ⟨?acts, fun x hloop haux => State.wordNeeds_nothing s p.val hloop haux, ?trapsAndWaits, ?causes,
    fun x hrun => State.wordTest_idle hrun x, fun x r hrun hhor h5 => State.wordTest_made hrun hhor h5, ?timeout⟩
  case acts =>
    intro w x top leg br v u h hgood hbody hneeds hu fin
    have op {k : Nat} (hk : k < 16) (hx : x = setBits (w.toNat % 2 ^ 192) 191 188 k) : mwOp x = k := hx ▸ mwOp_setBits _ hk
    have done {k : Nat} {r : State} (hx : x = setBits (w.toNat % 2 ^ 192) 191 188 k) (hk : k < 16) (h5 : k ≠ 5)
        (hr : u.wordNext p.val x q false (s.rbrTaken p.val x && !loopLeaves x q) (v.wordTest p.val x) br = r) :
        (Host.Outcome.next (s.seqWord p.val k w.toNat) : Host.Outcome State Fault Refusal) = .next (fin r) :=
      congrArg Host.Outcome.next (State.seqWord_completes h hx hk h5 hgood hbody hneeds hu hr)
    refine ⟨fun hx => done hx (by decide) (by decide) (State.wordNext_cont (op (by decide) hx)),
      fun hx => done hx (by decide) (by decide) (State.wordNext_jump (op (by decide) hx)),
      fun hx => done hx (by decide) (by decide) (State.wordNext_branch (op (by decide) hx)),
      fun hx => done hx (by decide) (by decide) (State.wordNext_call (op (by decide) hx)),
      fun a hx ha => done hx (by decide) (by decide) (State.wordNext_return (op (by decide) hx) ha),
      fun hx => done hx (by decide) (by decide) (State.wordNext_next (op (by decide) hx)), fun hx => ⟨fun ht => ?_, fun hf => ?_⟩,
      fun hx => done hx (by decide) (by decide) (State.wordNext_mtab (op (by decide) hx))⟩
    · exact done hx (by decide) (by decide) ((State.wordNext_rbr (op (by decide) hx)).trans (if_pos ht))
    · exact done hx (by decide) (by decide) ((State.wordNext_rbr (op (by decide) hx)).trans (if_neg (ne_true_of_eq_false hf)))
  case trapsAndWaits =>
    intro w x h
    refine ⟨fun hx => ?_, fun hx hgood => ?_⟩
    · have hcause : s.wordTrap p.val x = some (bits (mwImm x) 7 0) := by
        unfold State.wordTrap
        rw [State.wordCause_trap (hx ▸ mwOp_setBits _ (by decide)), Option.some_or]
      exact congrArg Host.Outcome.next (State.seqWord_traps h hcause hx)
    · exact congrArg Host.Outcome.next ((State.seqWord_runs h hx).trans
        ((State.startWord_noVector h hgood).trans (if_pos (hx ▸ mwOp_setBits _ (by decide)))))
  case causes =>
    intro w x cause h hcause
    have traps {k : Nat} (hx : x = setBits (w.toNat % 2 ^ 192) 191 188 k) :
        (Host.Outcome.next (s.seqWord p.val k w.toNat) : Host.Outcome State Fault Refusal) = .next (s.fatalTrap p.val cause) :=
      congrArg Host.Outcome.next (State.seqWord_traps h hcause hx)
    exact ⟨traps, traps, traps, traps, traps, traps, traps, traps, traps⟩
  case timeout =>
    intro r x count top leg br v hrun hafter hleft htest hlimit hop hgood hbody hneeds z
    exact congrArg Host.Outcome.next (State.doWaitTimeout_acts hrun hafter hleft htest hlimit hop hgood hbody hneeds)

end Sys2Proof.Machine
end


section
/-! PROOFS. Strides, periods and results (O41; R28 to R30, R74, R127, R185). -/

namespace Sys2Proof.Machine

/-! ### Strides (R127) -/

theorem State.doStride_loop (s : State) (p : Nat) {u : State}
    (hu : u = (s.doHoldEnd p).setSeq p { ((s.doHoldEnd p).pilot p).q with closed := false }) :
    s.doStride p = u.strideLoop p { instrs := (u.pilot p).carried } 128 := by
  subst hu
  rfl

theorem State.strideLoop_idle {s : State} {p : Nat} (h : (s.pilot p).works = false) (b : Budget) (n : Nat) : s.strideLoop p b (n + 1) = s := by
  rw [State.strideLoop]
  exact if_pos (Or.inl h)

/-- A stride that has taken no vector has room for one of any run. -/
theorem Budget.full_empty (c : Nat) (k : Nat × Nat) : Budget.full { instrs := c } k = false := by
  unfold Budget.full
  exact (Bool.or_eq_false_iff).mpr ⟨rfl, Bool.and_false _⟩

/-- The first vector of a stride: it is issued and the stride goes on, or the stride is over. -/
theorem State.strideLoop_first {s : State} {p c : Nat} {r : Run} (hworks : (s.pilot p).works = true) (hopen : (s.pilot p).q.closed = false)
    (hrun : (s.pilot p).q.run = some r) (hleft : 0 < r.left) (hst : (s.pilot p).st ≠ .holding) (n : Nat) :
    s.strideLoop p { instrs := c } (n + 1) = match s.issueOne p r with
      | (v, true) => v.strideLoop p (({ instrs := c } : Budget).take ((s.pilot p).runOf r.src)) n
      | (v, false) => v := by
  have hgo : ¬ ((s.pilot p).works = false ∨ (s.pilot p).q.closed = true ∨ 32 ≤ (0 : Nat)) := by
    rw [hworks, hopen]
    decide
  have hroom := ne_true_of_eq_false (Budget.full_empty c ((s.pilot p).runOf r.src))
  rw [State.strideLoop]
  dsimp only
  rw [ite_self, if_neg hgo]
  simp only [hrun]
  rw [if_pos hleft, if_neg hroom, if_neg fun h => hst h.1] <;> rfl

/-! ### Vector periods (R29, R185) -/

theorem State.doVectorPeriod_takes {s u : State} {n p t : Nat} {v : PVec} {rest : List PVec} (hleg : s.pinLeg n = some p)
    (hq : (s.pin n).issueQ = v :: rest) (ht : (s.mer (s.pjob p).meridian).instantOf ((s.pilot p).leg.periodAt v.index) = some t)
    (hu : u = ((s.advance t).setPin n { (s.advance t).pin n with issueQ := rest }).periodBegins p v.index t (s.pilot p).leg.begun) :
    s.doVectorPeriod n = ((u.placeDrive p n v ((s.pilot p).leg.periodAt v.index)).placeStrobe p n v
      ((s.pilot p).leg.periodAt v.index)).settle p := by
  unfold State.doVectorPeriod
  rw [hleg]
  dsimp only
  rw [hq]
  dsimp only
  rw [ht, hu]

theorem State.doVectorPeriod_underrun {s u : State} {n p t : Nat} (hleg : s.pinLeg n = some p) (hq : (s.pin n).issueQ = [])
    (hend : (s.pilot p).leg.ending = 0) (ht : (s.mer (s.pjob p).meridian).instantOf ((s.pilot p).leg.periodAt (s.pilot p).q.next) = some t)
    (hu : u = (s.advance t).lateFaults p) :
    s.doVectorPeriod n = ((if u.fbit fPLT_LEG_STATUS_started p then u else u.reportStart p).setLeg p { (s.pilot p).leg with
      begun := max (s.pilot p).leg.begun ((s.pilot p).q.next + 1) }).killLeg p 4 0 (some (s.pilot p).q.next) := by
  unfold State.doVectorPeriod
  rw [hleg]
  dsimp only
  rw [hq]
  dsimp only
  rw [if_neg (not_not_intro hend), ht, hu]

/-! ### Results (R30, R74) -/

/-- The Pilot of the first of 16 whose job has a pin and whose leg has results, when no other has the pin. -/
theorem State.resultPilot {s : State} {n p : Nat} (hpin : (s.pilotPins p).contains n = true) (hp : p < 16)
    (hres : (s.pilot p).leg.results ≠ []) (honly : ∀ q < 16, q ≠ p → (s.pilotPins q).contains n = false) :
    (List.range 16).find? (fun p => (s.pilotPins p).contains n && (s.pilot p).leg.results != []) = some p := by
  refine List.find?_range_eq_some.mpr ⟨?_, List.mem_range.mpr hp, fun q hq => ?_⟩
  · rw [hpin, bne_iff_ne.mpr hres]
    rfl
  · rw [honly q (by omega) (by omega)]
    rfl

theorem State.doCompareResult_judges {s w u : State} {n p st : Nat} {nv : Int} {crossing : Bool} (held : Bool) {a : Sample}
    {rest : List Sample} (hsamples : (s.pin n).samples = a :: rest)
    (hfind : (List.range 16).find? (fun p => (s.pilotPins p).contains n && (s.pilot p).leg.results != []) = some p)
    (hst : st = (if s.cmpOn n = false then 0 else if crossing then 2 else s.cmpAt n nv))
    (hw : w = (s.feelVoltage n nv).advance (a.closes + 32 * pilotCycle)) (hu : u = w.setPin n { w.pin n with samples := rest }) :
    s.doCompareResult n nv crossing held = (u.setLeg p { (u.pilot p).leg with
      results := (u.pilot p).leg.results.map (fun v => v.judge a st held) }).settle p := by
  unfold State.doCompareResult
  rw [hsamples, hfind]
  dsimp only
  rw [← hst, ← hw, ← hu]

/-- Settles O41: the first vector of a stride, the periods of a pin with and without a vector, and a sample's result. -/
theorem stridesPeriodsAndResults : Obligations.StridesPeriodsAndResults := by
  refine ⟨fun p s u hu => ⟨fun hidle => ?_, fun r v hworks hrun hleft hst => ?_⟩, fun n p t s u hleg => ⟨?_, ?_⟩, ?_⟩
  · exact congrArg Host.Outcome.next ((State.doStride_loop s p.val hu).trans (State.strideLoop_idle hidle _ 127))
  · have hopen : (u.pilot p.val).q.closed = false := by rw [hu, State.pilot_setSeq]
    have hloop := (State.doStride_loop s p.val hu).trans (State.strideLoop_first hworks hopen hrun hleft hst 127)
    refine ⟨fun hi => congrArg Host.Outcome.next ?_, fun hi => congrArg Host.Outcome.next ?_⟩ <;> rw [hloop, hi]
  · intro v rest hq ht hu
    exact congrArg Host.Outcome.next (State.doVectorPeriod_takes hleg hq ht hu)
  · intro hq hend ht hu
    exact congrArg Host.Outcome.next (State.doVectorPeriod_underrun hleg hq hend ht hu)
  · intro n nv crossing held p st a rest s w u hsamples hpin hp hres honly hst hw hu
    exact congrArg (fun v : State => Host.Outcome.next v.haltIfDue)
      (State.doCompareResult_judges held hsamples (State.resultPilot hpin hp hres honly) hst hw hu)

end Sys2Proof.Machine
end


section
/-! PROOFS. Streams, holds, captures and the control store (O42; R130, R168 to R171, R182, R188, R189, R193 to R196, R205, R208). -/

namespace Sys2Proof.Machine

/-! ### Fill elements (R189) -/

theorem State.doFillElement_takes {s u : State} {p e : Nat} (hjob : (s.pilot p).st ≠ .noJob) (hstream : (s.pjob p).streams = true)
    (htake : s.qTake (strFillQ (s.pilot p).strDesc) = some (e, u)) :
    s.doFillElement p = if (u.floorOf p ≤ bits e 63 0 ∧ bits e 63 0 ≤ u.fget fPLT_STRM_HI_hi p) ∨ (s.pilot p).st = .holding ∨
        u.legRuns p = false then (u.fput fPLT_STRM_LO_lo p (bits e 63 0)).fput fPLT_STRM_HI_hi p (bits e 127 64)
      else u.bump fPLT_STRM_STAT_fill_rejected p := by
  unfold State.doFillElement
  dsimp only
  rw [if_neg (fun h => h.elim hjob (ne_false_of_eq_true hstream)), htake]

/-! ### Slots (R130) -/

/-- A target that a branch or a hold waits for has no slot yet. -/
theorem Pilot.slotOf_missing {x : Pilot} {i r c : Nat} (h : (i, r, c) ∈ x.missing) : x.slotOf i r c = none :=
  Option.isNone_iff_eq_none.mp (List.mem_filter.mp (List.mem_reverse.mp h)).2

theorem State.doSlotFill_fills {s u v : State} {p i r c : Nat} {rest : List (Nat × Nat × Nat)} {bs code : List Byte}
    (hjob : (s.pilot p).st ≠ .noJob) (hmiss : (s.pilot p).missing = (i, r, c) :: rest)
    (hvec : s.readVec p (r * hRowBytes (s.pilot p).hdr) (min 4096 (vecBytes (s.pilot p).hdr - r * hRowBytes (s.pilot p).hdr)) = (u, some bs))
    (hcode : u.readCode p i = (v, some code)) :
    s.doSlotFill p = ((v.setStr p { (v.pilot p).str with slots := (if (v.pilot p).str.slots.length < 64 then (v.pilot p).str.slots
      else (v.pilot p).str.slots.drop 1) ++ [⟨i, r, c, bs, code⟩] }).setFloor p).lookAhead p := by
  have hslot : (s.pilot p).slotOf i r c = none := Pilot.slotOf_missing (hmiss ▸ List.mem_cons_self)
  unfold State.doSlotFill
  rw [if_neg hjob, hmiss]
  dsimp only
  unfold State.fillSlot
  dsimp only
  rw [hslot, Option.isSome_none, if_neg Bool.false_ne_true, hvec]
  dsimp only
  rw [hcode]

/-! ### Playout (R182, R188) -/

theorem State.doPlayoutFetch_needs {s : State} {p : Nat} (hjob : (s.pilot p).st ≠ .noJob) (hrow : hRowBytes (s.pilot p).hdr ≠ 0)
    (hlt : (s.pilot p).str.fifoLo + (s.pilot p).str.fifo.length < vecBytes (s.pilot p).hdr)
    (hres : s.resident p ((s.pilot p).str.fifoLo + (s.pilot p).str.fifo.length) (hRowBytes (s.pilot p).hdr -
      ((s.pilot p).str.fifoLo + (s.pilot p).str.fifo.length) % hRowBytes (s.pilot p).hdr) = false) :
    s.doPlayoutFetch p = s.setStr p { (s.pilot p).str with
      need := some (((s.pilot p).str.fifoLo + (s.pilot p).str.fifo.length) / hRowBytes (s.pilot p).hdr * hRowBytes (s.pilot p).hdr) } :=
  (if_neg fun h => h.elim hjob hrow).trans (if_pos ⟨hlt, hres⟩)

theorem State.doPlayoutFetch_takes {s u : State} {p n : Nat} {bs : List Byte} (hjob : (s.pilot p).st ≠ .noJob)
    (hrow : hRowBytes (s.pilot p).hdr ≠ 0)
    (hres : vecBytes (s.pilot p).hdr ≤ (s.pilot p).str.fifoLo + (s.pilot p).str.fifo.length ∨
      s.resident p ((s.pilot p).str.fifoLo + (s.pilot p).str.fifo.length) (hRowBytes (s.pilot p).hdr -
        ((s.pilot p).str.fifoLo + (s.pilot p).str.fifo.length) % hRowBytes (s.pilot p).hdr) = true)
    (hn : n = min 256 (s.rowsEnd p - ((s.pilot p).str.fifoLo + (s.pilot p).str.fifo.length)))
    (hroom : ceilDiv ((s.pilot p).str.fifo.length + n) (hRowBytes (s.pilot p).hdr) ≤ 65536)
    (hread : s.readVec p ((s.pilot p).str.fifoLo + (s.pilot p).str.fifo.length) n = (u, some bs)) :
    s.doPlayoutFetch p =
      (u.setStr p { (u.pilot p).str with fifo := (u.pilot p).str.fifo ++ bs, need := none }).lookAhead p := by
  unfold State.doPlayoutFetch
  dsimp only
  rw [if_neg fun h => h.elim hjob hrow, if_neg fun h => hres.elim (Nat.not_le.mpr h.1) (ne_true_of_eq_false h.2), ← hn, if_pos hroom,
    hread]

/-! ### Holds (R195, R196) -/

theorem State.doHoldEnd_holding {s : State} {p row : Nat} {r : Run} (hst : (s.pilot p).st = .holding) (hrow : (s.pilot p).holdAt = some row)
    (hrun : (s.pilot p).q.run = some r) :
    s.doHoldEnd p = if s.guardResident p row ∧ (s.pilot p).holdFilled then s.leaveHold p r else s := by
  unfold State.doHoldEnd
  dsimp only
  rw [hst, hrow, hrun]

theorem State.doHoldLimit_reached {s : State} {p : Nat} (hst : (s.pilot p).st = .holding) (hset : s.fget fPLT_HOLD_LIMIT_limit p ≠ 0)
    (hmet : s.fget fPLT_HOLD_LIMIT_limit p ≤ (s.pilot p).holdVecs) :
    s.doHoldLimit p = s.killLeg p 4 0 (some (s.pilot p).q.next) := if_pos ⟨hst, hset, hmet⟩

/-! ### Captures (R205 to R208) -/

theorem State.doCaptureBlockWrite_block {s : State} {n : Nat} {b : CapBlock} {rest : List CapBlock} (h : (s.pin n).capQ = b :: rest) :
    s.doCaptureBlockWrite n = s.writeBlock n b rest := by
  unfold State.doCaptureBlockWrite
  rw [h]

theorem State.writeBlock_written {s w u : State} {n v : Nat} {b : CapBlock} {rest : List CapBlock} (hb : s.blockBytes b = (w, .ok v))
    (hw : w.dvaWrite b.pilot (portCP (b.pilot / 4)) .realTime b.space b.dva (bytesOf 256 v) = (u, none)) :
    s.writeBlock n b rest = u.setPin n { u.pin n with capQ := rest } := by
  unfold State.writeBlock
  rw [hb]
  dsimp only
  rw [hw]

theorem State.writeBlock_faults {s w u : State} {n v : Nat} {b : CapBlock} {rest : List CapBlock} {f : FaultSlot}
    (hb : s.blockBytes b = (w, .ok v))
    (hw : w.dvaWrite b.pilot (portCP (b.pilot / 4)) .realTime b.space b.dva (bytesOf 256 v) = (u, some f)) :
    s.writeBlock n b rest = (u.raiseFault f).1 := by
  unfold State.writeBlock
  rw [hb]
  dsimp only
  rw [hw]

theorem State.writeBlock_unread {s w : State} {n : Nat} {b : CapBlock} {rest : List CapBlock} {f : FaultSlot}
    (hb : s.blockBytes b = (w, .error (some f))) : s.writeBlock n b rest = (w.raiseFault f).1 := by
  unfold State.writeBlock
  rw [hb]

theorem State.writeBlock_poisoned {s w u : State} {n : Nat} {b : CapBlock} {rest : List CapBlock} (hb : s.blockBytes b = (w, .error none))
    (hu : u = (wholeBeats b).foldl (fun (v : State) e =>
      (v.dvaWrite b.pilot (portCP (b.pilot / 4)) .realTime b.space (b.dva + e.1) (bytesOf 32 e.2)).1) w) :
    s.writeBlock n b rest = u.setPin n { u.pin n with capQ := rest } := by
  unfold State.writeBlock
  rw [hb, hu]

theorem State.doCaptureBlockWrite_record {s : State} {n p : Nat} {e : Nat × Nat × Nat × Nat} (hq : (s.pin n).capQ = [])
    (hp : (List.range 16).find? (fun p => (s.pilot p).str.ctQ.any (fun e => e.1 == n)) = some p)
    (he : (s.pilot p).str.ctQ.find? (fun e => e.1 == n) = some e) :
    s.doCaptureBlockWrite n = match s.dvaWrite p (portCP (p / 4)) .realTime e.2.2.1 e.2.1 (bytesOf 32 e.2.2.2) with
      | (u, none) => u.setStr p { (u.pilot p).str with ctQ := (u.pilot p).str.ctQ.erase e }
      | (u, some f) => (u.raiseFault f).1 := by
  unfold State.doCaptureBlockWrite
  rw [hq]
  dsimp only
  rw [hp]
  dsimp only
  rw [he] <;> rfl

/-- No pin has a finished block of a Pilot. -/
theorem State.noBlocks_iff (s : State) (p : Nat) :
    s.pins.all (fun e => e.2.capQ.all (fun b => b.pilot != p)) = true ↔ ∀ e ∈ s.pins, ∀ b ∈ e.2.capQ, b.pilot ≠ p := by
  simp only [List.all_eq_true, bne_iff_ne]

theorem State.doCaptureMarker_first {s : State} {p q elem : Nat} {rest : List (Nat × Nat)} (h : (s.pilot p).str.markers = (q, elem) :: rest) :
    s.doCaptureMarker p = if (s.pilot p).str.ctQ = [] ∧ s.pins.all (fun e => e.2.capQ.all (fun b => b.pilot != p)) ∧
        s.portQuiet (portCP (p / 4)) then (s.setStr p { (s.pilot p).str with markers := rest }).report q 32 elem else s := by
  unfold State.doCaptureMarker
  dsimp only
  rw [h]

/-! ### The control store (R169 to R171) -/

theorem State.doControlStoreReload_lost {s u v : State} {c k : Nat} {rest : List Nat} {ok : Bool} (bad : Bool)
    (h : (s.cluster c).reload = k :: rest)
    (hu : u = (s.setCluster c { s.cluster c with reload := rest }).fput fPLT_CS_STAT_reloading c (b2n (rest != [])))
    (hw : u.reloadWords c k ok = (v, none)) : s.doControlStoreReload c ok bad = v.fput fPLT_CS_STAT_user_lost c 1 := by
  unfold State.doControlStoreReload
  rw [h]
  dsimp only
  rw [← hu, hw]

theorem State.doControlStoreReload_good {s u v : State} {c k : Nat} {rest : List Nat} {ok : Bool} {ws : List (Nat × Nat)}
    (h : (s.cluster c).reload = k :: rest)
    (hu : u = (s.setCluster c { s.cluster c with reload := rest }).fput fPLT_CS_STAT_reloading c (b2n (rest != [])))
    (hw : u.reloadWords c k ok = (v, some ws)) :
    s.doControlStoreReload c ok false = ((v.setCluster c ((v.cluster c).rewritten k ws)).refreshBlock c k).resumeReloaded c k := by
  unfold State.doControlStoreReload
  rw [h]
  dsimp only
  rw [← hu, hw]
  rfl

theorem State.doControlStoreReload_bad {s u v w : State} {c k : Nat} {rest : List Nat} {ok : Bool} {ws : List (Nat × Nat)}
    (h : (s.cluster c).reload = k :: rest)
    (hu : u = (s.setCluster c { s.cluster c with reload := rest }).fput fPLT_CS_STAT_reloading c (b2n (rest != [])))
    (hread : u.reloadWords c k ok = (v, some ws)) (hw : w = (v.fput fPLT_CS_STAT_hard_fault c 1).logWrite 0x08 (22 + c) c 0) :
    s.doControlStoreReload c ok true = ((w.setCluster c { (v.cluster c).rewritten k ws with
      marks := nset EccMark.clean k .double ((v.cluster c).rewritten k ws).marks }).refreshBlock c k).resumeReloaded c k := by
  unfold State.doControlStoreReload
  rw [h]
  dsimp only
  rw [← hu, hread]
  dsimp only
  rw [if_pos rfl, if_pos rfl, ← hw]

theorem State.reloadWords_user {s v : State} {c k : Nat} {ws : Option (List (Nat × Nat))} (hk : isUserKey k = true)
    (h : s.copyBlock (1 + c) k (s.fbit fPLT_CS_STAT_user_loaded c) = (v, ws)) (ok : Bool) :
    s.reloadWords c k ok = (v, if ok then ws else none) := by
  unfold State.reloadWords
  rw [if_pos hk, h]

theorem State.reloadWords_vendor {s v : State} {c k : Nat} {ws : Option (List (Nat × Nat))} (hk : isUserKey k = false)
    (himage : (s.cluster c).image.isSome = true) (h : s.copyBlock 0 k true = (v, ws)) :
    s.reloadWords c k false = (v, some ((reloadKeys k).map (fun i => (i, nget 0 i (s.cluster c).words)))) := by
  have hsome : ¬ (s.cluster c).image.isNone = true := by
    rw [Option.isNone_iff_eq_none]
    intro hn
    rw [hn] at himage
    exact Bool.false_ne_true himage
  unfold State.reloadWords
  rw [if_neg (ne_true_of_eq_false hk), if_neg hsome, h]
  rfl

theorem State.doControlStoreScrub_runs {s : State} {c : Nat} (hen : s.fbit fPLT_CS_STAT_scrub_en c = true) (hcool : s.fget fTHM_STAT_state = 0) :
    s.doControlStoreScrub c = (s.cluster c).marks.foldl (fun v e => (v.readCs c e.1).1) s := if_pos ⟨hen, hcool⟩

theorem State.doControlStoreScrub_rests {s : State} {c : Nat} (h : s.fbit fPLT_CS_STAT_scrub_en c = false ∨ s.fget fTHM_STAT_state ≠ 0) :
    s.doControlStoreScrub c = s :=
  if_neg fun hh => h.elim (ne_false_of_eq_true hh.1) (fun h1 => h1 hh.2)

/-- Settles O42: each event of the streams, holds, captures and control stores by its own cases. -/
theorem streamsHoldsAndCapturesRun : Obligations.StreamsHoldsAndCapturesRun := by
  refine ⟨?fill, ?slot, ?fetch, ?hold, ?block, ?unread, ?record, ?marker, ?reload, ?words, ?scrub⟩
  case fill =>
    intro p e s u hjob hstream htake
    have htakes := State.doFillElement_takes hjob hstream htake
    refine ⟨fun hin => congrArg Host.Outcome.next (htakes.trans (if_pos hin)), fun hout hhold hruns =>
      congrArg Host.Outcome.next (htakes.trans (if_neg ?_))⟩
    rintro (h | h | h)
    · exact hout h
    · exact hhold h
    · exact ne_false_of_eq_true hruns h
  case slot =>
    intro p i r c rest bs code s u v hjob hmiss hvec hcode
    exact congrArg Host.Outcome.next (State.doSlotFill_fills hjob hmiss hvec hcode)
  case fetch =>
    intro p bs s u x rb at' n hjob hrow
    exact ⟨fun hlt hres => congrArg Host.Outcome.next (State.doPlayoutFetch_needs hjob hrow hlt hres),
      fun hres hroom hread => congrArg Host.Outcome.next (State.doPlayoutFetch_takes hjob hrow hres rfl hroom hread)⟩
  case hold =>
    intro p s hst
    refine ⟨fun row r hrow hrun => ⟨fun hres hfill => ?_, fun hnot => ?_⟩,
      fun hset hmet => congrArg Host.Outcome.next (State.doHoldLimit_reached hst hset hmet)⟩
    · exact congrArg Host.Outcome.next ((State.doHoldEnd_holding hst hrow hrun).trans (if_pos ⟨hres, hfill⟩))
    · refine congrArg Host.Outcome.next ((State.doHoldEnd_holding hst hrow hrun).trans (if_neg fun h => ?_))
      exact hnot.elim (ne_false_of_eq_true h.1) (ne_false_of_eq_true h.2)
  case block =>
    intro n b rest v s w u hq hb
    have hblock := State.doCaptureBlockWrite_block hq
    exact ⟨fun hw => congrArg Host.Outcome.next (hblock.trans (State.writeBlock_written hb hw)),
      fun f hw => congrArg Host.Outcome.next (hblock.trans (State.writeBlock_faults hb hw))⟩
  case unread =>
    intro n b rest s w u hq
    have hblock := State.doCaptureBlockWrite_block hq
    exact ⟨fun f hb => congrArg Host.Outcome.next (hblock.trans (State.writeBlock_unread hb)),
      fun hb hu => congrArg Host.Outcome.next (hblock.trans (State.writeBlock_poisoned hb hu))⟩
  case record =>
    intro n p e s u hq hp he
    have hrecord := State.doCaptureBlockWrite_record hq hp he
    refine ⟨fun hw => congrArg Host.Outcome.next ?_, fun f hw => congrArg Host.Outcome.next ?_⟩ <;> rw [hrecord, hw]
  case marker =>
    intro p q elem rest s hm
    have hfirst := State.doCaptureMarker_first hm
    refine ⟨fun hct hnone hquiet => congrArg Host.Outcome.next (hfirst.trans (if_pos ⟨hct, (State.noBlocks_iff s _).mpr hnone, hquiet⟩)),
      fun hwait => congrArg Host.Outcome.next (hfirst.trans (if_neg ?_))⟩
    rintro ⟨hct, hblocks, hquiet⟩
    rcases hwait with h | ⟨e, he, b, hb, hpb⟩ | h
    · exact h hct
    · exact (State.noBlocks_iff s _).mp hblocks e he b hb hpb
    · exact ne_false_of_eq_true hquiet h
  case reload =>
    intro c k rest ok bad ws s u v w hr hu
    refine ⟨fun hlost => congrArg Host.Outcome.next (State.doControlStoreReload_lost bad hr hu hlost), ?_⟩
    intro hread hw x
    constructor
    · rintro rfl
      exact congrArg Host.Outcome.next (State.doControlStoreReload_bad hr hu hread hw)
    · rintro rfl
      exact congrArg Host.Outcome.next (State.doControlStoreReload_good hr hu hread)
  case words =>
    intro c k s v ws
    exact ⟨fun hk hc => ⟨State.reloadWords_user hk hc true, State.reloadWords_user hk hc false⟩,
      fun hk hi hc => State.reloadWords_vendor hk hi hc⟩
  case scrub =>
    intro c s
    exact ⟨fun hen hcool => congrArg Host.Outcome.next (State.doControlStoreScrub_runs hen hcool),
      fun hrest => congrArg Host.Outcome.next (State.doControlStoreScrub_rests hrest)⟩

end Sys2Proof.Machine
end


section
/-! PROOFS. Legs start and end (O43, O44; R17, R53, R58 to R61, R132, R135, R175, R176, R186, R216, R218, R222 to R228). -/

namespace Sys2Proof.Machine

/-! ### Leg starts (R58, R132, R216) -/

theorem State.doMsLegStart_mine {s v : State} {id t e n88 p : Nat} {x : Milestone} {f : Fired}
    (hfind : s.ms.pending.find? (fun y => y.id == id && y.action == 1) = some x) (hp : p = (s.job x.target).pilot)
    (he : e = s.awaitedEntry p x.target) (hpoint : s.startPoint x (s.job x.target).meridian (legReach e) = some (t, n88))
    (hfire : s.msFireAt id 1 (decide (legReach e = 0)) (fun _ => some t) = some (v, f))
    (hmine : (s.pilot p).job = x.target ∧ (s.pilot p).st = .awaiting) :
    s.doMsLegStart id = if v.byMilestone p e then (v.startLeg p n88).1.msDone f (v.startLeg p n88).2 else v.msDone f .legLate := by
  unfold State.doMsLegStart
  rw [hfind]
  dsimp only
  rw [← hp, ← he, hpoint]
  dsimp only
  rw [hfire]
  exact if_pos hmine

theorem State.doMsLegStart_busy {s v : State} {id t e n88 p : Nat} {x : Milestone} {f : Fired}
    (hfind : s.ms.pending.find? (fun y => y.id == id && y.action == 1) = some x) (hp : p = (s.job x.target).pilot)
    (he : e = s.awaitedEntry p x.target) (hpoint : s.startPoint x (s.job x.target).meridian (legReach e) = some (t, n88))
    (hfire : s.msFireAt id 1 (decide (legReach e = 0)) (fun _ => some t) = some (v, f))
    (hother : (s.pilot p).job ≠ x.target ∨ (s.pilot p).st ≠ .awaiting) (hwaits : (v.job x.target).st = .awaiting) :
    s.doMsLegStart id = (v.endJob x.target .pilotBusy).msDone f .pilotBusy := by
  unfold State.doMsLegStart
  rw [hfind]
  dsimp only
  rw [← hp, ← he, hpoint]
  dsimp only
  rw [hfire]
  exact (if_neg fun h => hother.elim (fun h1 => h1 h.1) (fun h1 => h1 h.2)).trans (if_pos hwaits)

theorem State.startLeg_refused {s : State} {p n88 : Nat} {st : Status} {park : Bool}
    (h : s.legRefusal p (s.pilot p).awaitEntry n88 = some (st, park)) : s.startLeg p n88 = (s.refuseLeg p st park, st) := by
  unfold State.startLeg
  dsimp only
  rw [h]

theorem State.startLeg_accepted {s : State} {p n88 : Nat} (h : s.legRefusal p (s.pilot p).awaitEntry n88 = none) :
    s.startLeg p n88 = (s.acceptLeg p (s.pilot p).awaitEntry n88, .ok) := by
  unfold State.startLeg
  dsimp only
  rw [h]

theorem State.doRelativeLegStart_absolute {s : State} {p : Nat} (h : legMode (s.pilot p).awaitEntry = 0) : s.doRelativeLegStart p = s :=
  if_pos (Or.inr (Or.inr (Or.inr (Or.inr h))))

theorem State.doRelativeLegStart_starts {s : State} {p t : Nat} (hst : (s.pilot p).st = .awaiting) (hslip : (s.pilot p).leg.slip = none)
    (hdone : (s.pilot p).legsDone ≠ 0) (hnew : (s.pilot p).resumed = false) (hmode : legMode (s.pilot p).awaitEntry ≠ 0)
    (ht : (s.mer (s.pjob p).meridian).instantOf (s.relativeN p (s.pilot p).awaitEntry - legReach (s.pilot p).awaitEntry) = some t) :
    s.doRelativeLegStart p = ((s.advance t).startLeg p (s.relativeN p (s.pilot p).awaitEntry)).1 := by
  have hgo : ¬ ((s.pilot p).st ≠ .awaiting ∨ (s.pilot p).leg.slip.isSome ∨ (s.pilot p).legsDone = 0 ∨ (s.pilot p).resumed ∨
      legMode (s.pilot p).awaitEntry = 0) := by
    rintro (h | h | h | h | h)
    · exact h hst
    · rw [hslip] at h
      exact Bool.false_ne_true h
    · exact hdone h
    · exact ne_true_of_eq_false hnew h
    · exact hmode h
  unfold State.doRelativeLegStart
  dsimp only
  rw [if_neg hgo, ht]

/-! ### Slip windows (R59 to R61) -/

theorem State.doSlipSyncEdge_seen {s u : State} {p t : Nat} (hu : u = s.advance t) (h : u.syncSeen (u.slipSource p) = true) :
    s.doSlipSyncEdge p t = u.slipEdge p ((u.mer (u.pjob p).meridian).reading t) := by
  subst hu
  exact if_pos h

theorem State.slipEdge_early {s : State} {p r : Nat} {w : Slip} (hw : (s.pilot p).leg.slip = some w) (hst : (s.pilot p).st = .awaiting)
    (hr : r < w.lo) : s.slipEdge p r = s.bump fMER_SLIP_STAT_early_count p := by
  unfold State.slipEdge
  dsimp only
  rw [hw]
  dsimp only
  rw [if_neg (not_not_intro hst), if_pos hr]

theorem State.slipEdge_inside {s : State} {p r : Nat} {w : Slip} (hw : (s.pilot p).leg.slip = some w) (hst : (s.pilot p).st = .awaiting)
    (hlo : w.lo ≤ r) (hhi : r ≤ w.hi) : s.slipEdge p r = (s.fput fMER_SLIP_STAT_outcome p 1).beginLeg p (r + w.offset) := by
  unfold State.slipEdge
  dsimp only
  rw [hw]
  dsimp only
  rw [if_neg (not_not_intro hst), if_neg (Nat.not_lt.mpr hlo), if_pos hhi]

theorem State.doSlipExpiry_closes {s u : State} {p t : Nat} {w : Slip} (hw : (s.pilot p).leg.slip = some w)
    (hst : (s.pilot p).st = .awaiting) (ht : (s.mer (s.pjob p).meridian).instantOf w.hi = some t)
    (hu : u = ((s.advance t).fput fMER_SLIP_STAT_outcome p 2).fput fPLT_LEG_STATUS_slip_expired p 1) :
    s.doSlipExpiry p = if w.fault then u.killStart p 9 else u.beginLeg p (w.hi + w.offset) := by
  unfold State.doSlipExpiry
  dsimp only
  rw [hw]
  dsimp only
  rw [if_neg (not_not_intro hst), ht, hu]

/-- Settles O43: a milestone, a reading, a sync edge or a window's end starts the leg that waits for it. -/
theorem legsStart : Obligations.LegsStart := by
  refine ⟨?_, ?_, ?_, ?_, ?_⟩
  · intro id x f t e n88 s v hfind p he hpoint hfire
    refine ⟨fun hjob hst => ?_, fun hother hwaits =>
      congrArg Host.Outcome.next (State.doMsLegStart_busy hfind rfl he hpoint hfire hother hwaits)⟩
    have hmine := State.doMsLegStart_mine hfind rfl he hpoint hfire ⟨hjob, hst⟩
    exact ⟨fun hby => congrArg Host.Outcome.next (hmine.trans (if_pos hby)),
      fun hby => congrArg Host.Outcome.next (hmine.trans (if_neg (ne_true_of_eq_false hby)))⟩
  · rintro p n88 e s rfl
    exact ⟨fun st park => State.startLeg_refused, State.startLeg_accepted⟩
  · rintro p t e s hst hslip hdone hnew rfl
    exact ⟨fun hmode => congrArg Host.Outcome.next (State.doRelativeLegStart_absolute hmode),
      fun hmode ht => congrArg Host.Outcome.next (State.doRelativeLegStart_starts hst hslip hdone hnew hmode ht)⟩
  · rintro p t r w s u hu hw hst hseen rfl
    have hedge := State.doSlipSyncEdge_seen hu hseen
    exact ⟨fun hr => congrArg Host.Outcome.next (hedge.trans (State.slipEdge_early hw hst hr)),
      fun hlo hhi => congrArg Host.Outcome.next (hedge.trans (State.slipEdge_inside hw hst hlo hhi))⟩
  · intro p t w s u hw hst ht hu
    have hcloses := State.doSlipExpiry_closes hw hst ht hu
    exact ⟨fun hf => congrArg Host.Outcome.next (hcloses.trans (if_pos hf)),
      fun hf => congrArg Host.Outcome.next (hcloses.trans (if_neg (ne_true_of_eq_false hf)))⟩

/-! ### Leg ends (R135, R175, R186, R222) -/

theorem State.doLegEnd_byEndLeg {s u : State} {p t n : Nat} {l : Leg} (hl : l = (s.pilot p).leg) (hn : n = (s.pilot p).q.next)
    (hjob : (s.pilot p).st ≠ .noJob) (hres : l.results = []) (hbegun : l.begun = n) (hend : l.ending = 1 ∨ l.ending = 2)
    (ht : (s.mer (s.pjob p).meridian).instantOf (l.periodAt n) = some t)
    (hu : u = ((((s.advance (max t (s.edgesDone p))).closeLeg p 1 n).flushPosts p n (l.periodAt n)).finishLeg p)) :
    s.doLegEnd p = u.boundary p (decide (l.ending = 2)) := by
  subst hl hn
  unfold State.doLegEnd
  dsimp only
  rw [if_neg (fun h => h.elim hjob (fun hne => hne hres)), if_neg (by omega), if_neg (by omega), ht, hu]

theorem State.doLegEnd_byCause {s : State} {p : Nat} (hjob : (s.pilot p).st ≠ .noJob) (hres : (s.pilot p).leg.results = [])
    (hend : (s.pilot p).leg.ending = 3) : s.doLegEnd p = (s.finishLeg p).endJob (s.pilot p).job .ok :=
  (if_neg fun h => h.elim hjob (fun hne => hne hres)).trans (if_pos hend)

theorem State.boundary_trap {s : State} {p : Nat} (h : s.fget fPLT_TRAP_PEND_pending p ≠ 0) (last : Bool) :
    s.boundary p last = ((s.fput fPLT_TRAP_PEND_pending p 0).setPilot p { s.pilot p with lastLeg := last }).resumableTrap p cBreak
      (s.pilot p).q.upc 0 0 false := by
  unfold State.boundary
  dsimp only
  rw [if_pos h, State.pilot_setPilot]

theorem State.boundary_last {s : State} {p : Nat} (h : s.fget fPLT_TRAP_PEND_pending p = 0) :
    s.boundary p true = s.endJob (s.pilot p).job .ok :=
  (if_neg (not_not_intro h)).trans (if_pos rfl)

theorem State.boundary_next {s : State} {p : Nat} (h : s.fget fPLT_TRAP_PEND_pending p = 0) :
    s.boundary p false = if (s.pilot p).preempt.isSome then s.suspend p else s :=
  (if_neg (not_not_intro h)).trans (if_neg Bool.false_ne_true)

/-! ### Halts and drops (R17, R176, R218, R228) -/

theorem State.doHaltEntry_leg {s u : State} {p e : Nat} (htake : s.qTake (16 + p) = some (e, u)) (hruns : u.legRuns p = true) :
    s.doHaltEntry p = u.killLeg p (e % 16) 0 := by
  unfold State.doHaltEntry
  rw [htake]
  exact if_pos hruns

theorem State.doHaltEntry_start {s u : State} {p e : Nat} (htake : s.qTake (16 + p) = some (e, u)) (hruns : u.legRuns p = false)
    (hst : (u.pilot p).st = .awaiting) (hslip : (u.pilot p).leg.slip.isSome = true) :
    s.doHaltEntry p = u.killStart p (e % 16) := by
  unfold State.doHaltEntry
  rw [htake]
  exact (if_neg (ne_true_of_eq_false hruns)).trans (if_pos ⟨hst, hslip⟩)

theorem State.doHaltEntry_between {s u : State} {p e : Nat} (htake : s.qTake (16 + p) = some (e, u)) (hruns : u.legRuns p = false)
    (hst : (u.pilot p).st = .between) :
    s.doHaltEntry p = (if e % 16 = 3 then (u.dropFrames p).parkPins ((u.dropFrames p).pilotPins p) else u.dropFrames p).endJob
      (u.pilot p).job .ok := by
  have hstart : ¬ ((u.pilot p).st = .awaiting ∧ (u.pilot p).leg.slip.isSome) := by
    rw [hst]
    exact fun h => absurd h.1 (by decide)
  unfold State.doHaltEntry
  rw [htake]
  exact ((if_neg (ne_true_of_eq_false hruns)).trans (if_neg hstart)).trans (if_pos (Or.inr (Or.inl hst)))

theorem State.doSiteQueueEntry_inLeg {s u : State} {p e : Nat} (htake : s.qTake (32 + p) = some (e, u))
    (hacc : (u.job (bits e 15 8)).accepted = true) (hsite : bitAt (u.job (bits e 15 8)).sites (e % 64) = true)
    (hjob : (u.pilot p).job = bits e 15 8) (hruns : u.legRuns p = true) (hend : (u.pilot p).leg.ending ≠ 3)
    (hheld : (u.pilot p).st ≠ .noJob) :
    s.doSiteQueueEntry p = if (nget none (e % 64) (u.pilot p).leg.dropAt).isSome then u
      else u.dropSite p (e % 64) (u.pilot p).q.next := by
  unfold State.doSiteQueueEntry
  rw [htake]
  dsimp only
  rw [if_neg (fun h => h.elim (ne_false_of_eq_true hacc) (ne_false_of_eq_true hsite)), if_neg (fun h => h.elim (fun hne => hne hjob) hheld),
    if_neg (fun h => hend h.1), if_pos (Or.inl hruns)]

/-- A Pilot whose leg runs has a job. -/
theorem State.hasJob_of_legRuns {s : State} {p : Nat} (h : s.legRuns p = true) : (s.pilot p).st ≠ .noJob := by
  intro hst
  unfold State.legRuns at h
  rw [hst] at h
  exact Bool.false_ne_true h

/-! ### Jobs taken back (R225, R226) -/

theorem State.noneAwaits {s : State} {p : Nat} (h : ∀ e ∈ s.acceptedJobs, e.2.pilot = p → e.2.st ≠ .awaiting) :
    s.acceptedJobs.any (fun e => e.2.pilot == p && e.2.st == .awaiting) = false := by
  refine List.any_eq_false.mpr fun e he hh => ?_
  obtain ⟨hp, hst⟩ := Bool.and_eq_true_iff.mp hh
  exact h e he (eq_of_beq hp) (eq_of_beq hst)

theorem State.doJobRestore_reads {s u v : State} {p j : Nat} {bs : List Byte} (hfree : (s.pilot p).st = .noJob)
    (hnone : ∀ e ∈ s.acceptedJobs, e.2.pilot = p → e.2.st ≠ .awaiting) (hj : s.restoreFirst p = some j)
    (hload : s.takeBack p j = (u, .done))
    (hread : u.dvaRead p (portCR (p / 4)) (s.job j).aspace (s.job j).ctx 4096 = (v, .done bs)) :
    s.doJobRestore p = if contextGood bs j then v.restoreJob p j bs else v.endJob j .contextLost := by
  unfold State.doJobRestore
  rw [if_neg (fun h => h.elim (fun hne => hne hfree) (ne_true_of_eq_false (State.noneAwaits hnone))), hj]
  dsimp only
  rw [hload]
  dsimp only
  rw [hread]

/-- Settles O44: each end of a leg by its own cause, and what follows it at its boundary. -/
theorem legsEnd : Obligations.LegsEnd := by
  have halts {s t : State} (h : s = t) :
      (Host.Outcome.next s.haltIfDue : Host.Outcome State Fault Refusal) = .next t.haltIfDue := by rw [h]
  refine ⟨?ends, fun p s hjob hres hend => halts (State.doLegEnd_byCause hjob hres hend), ?halt, ?site, ?restore⟩
  case ends =>
    intro p t s u l n hjob hres hbegun hend ht hu
    have hbound := State.doLegEnd_byEndLeg rfl rfl hjob hres hbegun hend ht hu
    refine ⟨fun hpend => halts (hbound.trans (State.boundary_trap hpend _)), fun hpend => ⟨fun h2 => ?_, fun h1 hpre => ?_, fun h1 hpre => ?_⟩⟩
    · rw [decide_eq_true h2] at hbound
      exact halts (hbound.trans (State.boundary_last hpend))
    · rw [decide_eq_false (by rw [h1]; decide)] at hbound
      exact halts (hbound.trans ((State.boundary_next hpend).trans (if_pos hpre)))
    · rw [decide_eq_false (by rw [h1]; decide)] at hbound
      refine halts (hbound.trans ((State.boundary_next hpend).trans (if_neg ?_)))
      rw [hpre]
      exact Bool.false_ne_true
  case halt =>
    intro p e s u htake
    exact ⟨fun hruns => halts (State.doHaltEntry_leg htake hruns), fun hruns hst hslip => halts (State.doHaltEntry_start htake hruns hst hslip),
      fun hruns hst => halts (State.doHaltEntry_between htake hruns hst)⟩
  case site =>
    intro p e s u htake hacc hsite hjob hruns hend
    have hentry := State.doSiteQueueEntry_inLeg htake hacc hsite hjob hruns hend (State.hasJob_of_legRuns hruns)
    refine ⟨fun hnew => congrArg Host.Outcome.next (hentry.trans (if_neg ?_)), fun hold => congrArg Host.Outcome.next (hentry.trans (if_pos hold))⟩
    rw [hnew]
    exact Bool.false_ne_true
  case restore =>
    intro p j bs s u v hfree hnone hj hload hread
    have hreads := State.doJobRestore_reads hfree hnone hj hload hread
    exact ⟨fun hg => congrArg Host.Outcome.next (hreads.trans (if_pos hg)),
      fun hb => congrArg Host.Outcome.next (hreads.trans (if_neg (ne_true_of_eq_false hb)))⟩

end Sys2Proof.Machine
end


section
/-! PROOFS. Route, job and microcode commands, and how jobs start and halt (O45, O46; R116, R153, R174, R179, R213 to R220, R374 to
R376, R425). -/

namespace Sys2Proof.Machine

/-! ### Routes and job definitions (R116, R213, R376) -/

section Route
variable {s v : State} {k : Packet} {bs : List Byte}
  (hsrc : s.source (u8 k 24) (u8 k 25) (u64 k 0) (u64 k 16) = (v, .bytes bs))
include hsrc

theorem bodyRouteLoad_bad {off : Nat} (hbad : routeBad (ofBytes bs) (u64 k 16) = some off) :
    bodyRouteLoad k s = fail v .routeInvalid off := by
  unfold bodyRouteLoad
  dsimp only
  rw [hsrc]
  dsimp only
  rw [hbad]

theorem bodyRouteLoad_loads {w : State} (hgood : routeBad (ofBytes bs) (u64 k 16) = none)
    (hstore : v.storeResult (u8 k 25) (u64 k 8) bs = (w, none)) : bodyRouteLoad k s = ok w := by
  unfold bodyRouteLoad
  dsimp only
  rw [hsrc]
  dsimp only
  rw [hgood]
  dsimp only
  rw [hstore]

end Route

section Job
variable {s : State} {k : Packet} (hj : jobOf k < 256)
include hj

theorem bodyJobDefine_busy (h : (s.job (jobOf k)).accepted = true) : bodyJobDefine k s = fail s .jobBusy :=
  (if_neg (Nat.not_le.mpr hj)).trans (if_pos h)

theorem bodyJobDefine_defines {v : State} {bs : List Byte} (h : (s.job (jobOf k)).accepted = false)
    (hpay : s.payload (u8 k 8) (u64 k 0) 512 = (v, .bytes bs)) :
    bodyJobDefine k s = ok (v.setJob (jobOf k) { st := .defined, desc := ofBytes bs }) := by
  unfold bodyJobDefine
  dsimp only
  rw [if_neg (Nat.not_le.mpr hj), if_neg (ne_true_of_eq_false h), hpay]

theorem bodyJobUndefine_busy (h : (s.job (jobOf k)).accepted = true) : bodyJobUndefine k s = fail s .jobBusy :=
  (if_neg (Nat.not_le.mpr hj)).trans (if_pos h)

theorem bodyJobUndefine_clears (h : (s.job (jobOf k)).accepted = false) : bodyJobUndefine k s = ok (s.setJob (jobOf k) {}) :=
  (if_neg (Nat.not_le.mpr hj)).trans (if_neg (ne_true_of_eq_false h))

/-! ### Sites (R217, R218, R220) -/

variable (hacc : (s.job (jobOf k)).accepted = true)
include hacc

theorem bodySiteMask_accepted (hlast : s.lastLeg (jobOf k) = false)
    (hsites : Nat.land (u64 k 0) (s.job (jobOf k)).sites = u64 k 0) :
    bodySiteMask k s = if (s.pilot (s.job (jobOf k)).pilot).job = jobOf k ∧ (s.pilot (s.job (jobOf k)).pilot).st ≠ .noJob then
        ok (s.setPilot (s.job (jobOf k)).pilot { s.pilot (s.job (jobOf k)).pilot with maskNext := u64 k 0 })
      else ok (s.setJob (jobOf k) { s.job (jobOf k) with mask := some (u64 k 0) }) := by
  have hgo : ¬ ((s.job (jobOf k)).accepted = false ∨ 256 ≤ jobOf k ∨ s.lastLeg (jobOf k) = true) := by
    rw [hacc, hlast]
    simp only [Bool.true_eq_false, Bool.false_eq_true, or_false, false_or]
    omega
  exact (if_neg hgo).trans (if_neg (not_not_intro hsites))

theorem bodySiteDrop_accepted (hsite : u8 k 0 < 48) (hmine : bitAt (s.job (jobOf k)).sites (u8 k 0) = true) :
    bodySiteDrop k s = if s.siteDropped (jobOf k) (u8 k 0) then (s, .done .ok 1 0 false false 1)
      else ok (s.qPush (32 + (s.job (jobOf k)).pilot) (u8 k 0 + jobOf k * 256)) := by
  unfold bodySiteDrop
  dsimp only
  rw [if_neg (fun h => h.elim (ne_false_of_eq_true hacc) (Nat.not_le.mpr hj)),
    if_neg (fun h => h.elim (Nat.not_le.mpr hsite) (ne_false_of_eq_true hmine))]
  rfl

end Job

theorem bodyTrapResume_resumes {k : Packet} (h : u8 k 0 < 16) (s : State) :
    bodyTrapResume k s = ok ((s.qPush (48 + u8 k 0) 1).tryResume (u8 k 0)) := if_neg (Nat.not_le.mpr h)

/-! ### User microcode (R153, R179) -/

section Microcode
variable {s : State} {k : Packet} (hc : u8 k 0 < 4)
include hc

theorem bodyMicrocodeLoad_busy (h : s.clusterBusy (u8 k 0) = true) : bodyMicrocodeLoad k s = fail s .microcodeBusy :=
  (if_neg (Nat.not_le.mpr hc)).trans (if_pos h)

theorem bodyMicrocodeLoad_read {v w : State} {hb bs : List Byte} (hfree : s.clusterBusy (u8 k 0) = false)
    (hhdr : s.payload (u8 k 1) (u64 k 8) 256 = (v, .bytes hb))
    (hgood : firstBad (ucHdrChecks false (ofBytes hb) (max 256 (imgField (ofBytes hb) 0x10 8))) = none)
    (himg : v.payload (u8 k 1) (u64 k 8) (max 256 (imgField (ofBytes hb) 0x10 8)) = (w, .bytes bs)) :
    bodyMicrocodeLoad k s = match ucBad (ofBytes bs) (max 256 (imgField (ofBytes hb) 0x10 8)) (bits k.params.toNat 383 128) with
      | some off => fail w .microcodeInvalid off
      | none => ok (w.installUser (u8 k 0) (max 256 (imgField (ofBytes hb) 0x10 8)) (ofBytes bs)) := by
  unfold bodyMicrocodeLoad
  dsimp only
  rw [if_neg (Nat.not_le.mpr hc), if_neg (ne_true_of_eq_false hfree), hhdr]
  dsimp only
  rw [hgood]
  dsimp only
  rw [himg] <;> rfl

theorem bodyMicrocodeUnload_clears (h : s.clusterBusy (u8 k 0) = false) :
    bodyMicrocodeUnload k s = ok (((s.loadUser (u8 k 0) [] []).putUcDigest (u8 k 0) 0).fput fPLT_CS_STAT_user_loaded (u8 k 0) 0) :=
  (if_neg (Nat.not_le.mpr hc)).trans (if_neg (ne_true_of_eq_false h))

end Microcode

/-- Settles O45: each command by the checks of its body, first to last. -/
theorem routeJobAndMicrocodeCommandsAct : Obligations.RouteJobAndMicrocodeCommandsAct := by
  refine ⟨?route, ?define, ?undefine, ?mask, ?drop, ?resume, ?load, ?unload⟩
  case route =>
    rintro s _ v w k bs hacc rfl hsrc
    exact ⟨fun off hbad => congrArg Host.Outcome.next (State.runCommand_ends (effect := fun _ => v) hacc rfl (bodyRouteLoad_bad hsrc hbad)),
      fun hgood hstore => congrArg Host.Outcome.next
        (State.runCommand_completes (effect := fun _ => w) hacc rfl (bodyRouteLoad_loads hsrc hgood hstore))⟩
  case define =>
    rintro s _ v k bs hacc rfl hj
    exact ⟨fun h => congrArg Host.Outcome.next (State.runCommand_ends (effect := id) hacc rfl (bodyJobDefine_busy hj h)),
      fun h hpay => congrArg Host.Outcome.next (State.runCommand_completes
        (effect := fun _ => v.setJob (jobOf k) { st := .defined, desc := ofBytes bs }) hacc rfl (bodyJobDefine_defines hj h hpay))⟩
  case undefine =>
    rintro s _ k hacc rfl hj
    exact ⟨fun h => congrArg Host.Outcome.next (State.runCommand_ends (effect := id) hacc rfl (bodyJobUndefine_busy hj h)),
      fun h => congrArg Host.Outcome.next (State.runCommand_completes (effect := fun v => v.setJob (jobOf k) {}) hacc rfl
        (bodyJobUndefine_clears hj h))⟩
  case mask =>
    rintro s _ k hacc rfl hj hjob hlast hsites p
    have hbody := bodySiteMask_accepted hj hjob hlast hsites
    exact ⟨fun hmine hrun => congrArg Host.Outcome.next (State.runCommand_completes
        (effect := fun v => v.setPilot p { v.pilot p with maskNext := u64 k 0 }) hacc rfl (hbody.trans (if_pos ⟨hmine, hrun⟩))),
      fun hother => congrArg Host.Outcome.next (State.runCommand_completes
        (effect := fun v => v.setJob (jobOf k) { v.job (jobOf k) with mask := some (u64 k 0) }) hacc rfl
        (hbody.trans (if_neg fun h => hother h.1)))⟩
  case drop =>
    rintro s _ k hacc rfl hj hjob hsite hmine
    have hbody := bodySiteDrop_accepted hj hjob hsite hmine
    exact ⟨fun h => congrArg Host.Outcome.next (State.runCommand_ends (effect := id) hacc rfl (hbody.trans (if_pos h))),
      fun h => congrArg Host.Outcome.next (State.runCommand_completes
        (effect := fun v => v.qPush (32 + ((s.begun k).job (jobOf k)).pilot) (u8 k 0 + jobOf k * 256)) hacc rfl
        (hbody.trans (if_neg (ne_true_of_eq_false h))))⟩
  case resume =>
    intro s k hacc hp
    exact congrArg Host.Outcome.next (State.runCommand_completes (effect := fun v => (v.qPush (48 + u8 k 0) 1).tryResume (u8 k 0)) hacc rfl
      (bodyTrapResume_resumes hp _))
  case load =>
    rintro s _ v w k hb bs hacc rfl hc
    refine ⟨fun h => congrArg Host.Outcome.next (State.runCommand_ends (effect := id) hacc rfl (bodyMicrocodeLoad_busy hc h)), ?_⟩
    intro hfree hhdr n hgood himg
    have hbody := bodyMicrocodeLoad_read hc hfree hhdr hgood himg
    refine ⟨fun off hbad => congrArg Host.Outcome.next (State.runCommand_ends (effect := fun _ => w) hacc rfl ?_),
      fun hok => congrArg Host.Outcome.next
        (State.runCommand_completes (effect := fun _ => w.installUser (u8 k 0) n (ofBytes bs)) hacc rfl ?_)⟩
    · rw [hbody, hbad]
      rfl
    · rw [hbody, hok]
      rfl
  case unload =>
    rintro s _ k hacc rfl hc hfree
    exact congrArg Host.Outcome.next (State.runCommand_completes
      (effect := fun v => ((v.loadUser (u8 k 0) [] []).putUcDigest (u8 k 0) 0).fput fPLT_CS_STAT_user_loaded (u8 k 0) 0) hacc rfl
      (bodyMicrocodeUnload_clears hc hfree))

/-! ### JOB_START (R214) -/

section JobStart
variable {s u : State} {k : Packet} (hj : jobOf k < 256) (hfrac : u32 k 8 < 2 ^ 24)
include hj hfrac

theorem bodyJobStart_basicsBad {st : Status} {d : Nat} (h : s.startBasics (jobOf k) = (u, .error (st, d))) :
    bodyJobStart k s = fail u st d := by
  unfold bodyJobStart
  dsimp only
  rw [if_neg (by omega), h]

variable {v : State} (hbasics : s.startBasics (jobOf k) = (u, .ok ()))
include hbasics

theorem bodyJobStart_routeBad {st : Status} {d : Nat} (h : u.startRoute (jobOf k) = (v, .error (st, d))) :
    bodyJobStart k s = fail v st d := by
  unfold bodyJobStart
  dsimp only
  rw [if_neg (by omega), hbasics]
  dsimp only
  rw [h]

variable {f : RouteFacts} (hroute : u.startRoute (jobOf k) = (v, .ok f))
include hroute

theorem bodyJobStart_placeBad {st : Status} (h : v.startPlace (jobOf k) f = some st) : bodyJobStart k s = fail v st := by
  unfold bodyJobStart
  dsimp only
  rw [if_neg (by omega), hbasics]
  dsimp only
  rw [hroute]
  dsimp only
  rw [h]

/-- The checks from the budgets on, once the first eight have passed. -/
theorem bodyJobStart_placed {z : State} {demand : List (Nat × Nat × Nat)} {pace : Bool} (hplace : v.startPlace (jobOf k) f = none)
    (hdemand : v.demandOf (jobOf k) f = (z, demand, pace)) :
    bodyJobStart k s = if pace = false ∨ z.budgetsHold (z.job (jobOf k)).pilot demand = false then fail z .rtBudget
      else if (z.mer (z.job (jobOf k)).meridian).st = .off then fail z .meridianOff
      else match z.msCommit (z.job (jobOf k)).meridian 1 (jobOf k) 0 0 (u64 k 0 * fracOne + u32 k 8) (legReach f.leg0) 0 0 (jobOf k) with
        | (y, .error st) => fail y st
        | (y, .ok (id, _)) => okResult (y.acceptJob (jobOf k) id demand) id := by
  unfold bodyJobStart
  dsimp only
  rw [if_neg (by omega), hbasics]
  dsimp only
  rw [hroute]
  dsimp only
  rw [hplace]
  dsimp only
  rw [hdemand] <;> rfl

end JobStart

/-! ### Halts (R374, R375, R425) -/

section Halt
variable {s t : State} {k : Packet} (ht : t = s.bump fHLM_PROMPT_CNT_halts)
include ht

theorem bodyHaltJob_idle (h : (t.job (jobOf k)).accepted = false) : bodyHaltJob k s = fail t .jobNotRunning := by
  subst ht
  exact if_pos (Or.inl h)

variable (hj : jobOf k < 256) (hacc : (t.job (jobOf k)).accepted = true)
include hj hacc

theorem bodyHaltJob_inLeg (h : t.jobInLeg (jobOf k) = true) : bodyHaltJob k s = ok (t.qPush (16 + (t.job (jobOf k)).pilot) 2) := by
  subst ht
  exact (if_neg fun hh => hh.elim (ne_false_of_eq_true hacc) (Nat.not_le.mpr hj)).trans (if_pos h)

theorem bodyHaltJob_outside (h : t.jobInLeg (jobOf k) = false) :
    bodyHaltJob k s = ((t.cancelLegStarts (jobOf k)).endOutside (jobOf k),
      .done .ok (match (t.job (jobOf k)).st with | .awaiting => 1 | .suspended => 4 | _ => 3) 0 false false 1) := by
  subst ht
  exact (if_neg fun hh => hh.elim (ne_false_of_eq_true hacc) (Nat.not_le.mpr hj)).trans (if_neg (ne_true_of_eq_false h))

end Halt

theorem bodyAbortAll_here {k : Packet} {s : State} (h : s.abortAll.fbit fWLN_CONV_CTL_abort_halt = false) :
    bodyAbortAll k s = ok s.abortAll := by
  unfold bodyAbortAll
  dsimp only
  rw [if_neg (ne_true_of_eq_false h)]

theorem bodyAbortAll_convoy {k : Packet} {s : State} (h : s.abortAll.fbit fWLN_CONV_CTL_abort_halt = true) :
    bodyAbortAll k s = ok s.abortAll.originateHalt := by
  unfold bodyAbortAll
  dsimp only
  rw [if_pos h]

/-- Settles O46: a start by its checks in their order; a halt by where its job stands. -/
theorem jobsStartAndHalt : Obligations.JobsStartAndHalt := by
  refine ⟨?start, ?halt, fun s k hadm => ⟨fun h => ?_, fun h => ?_⟩⟩
  case start =>
    rintro s _ v w z k f demand id late hacc rfl hj hfrac
    refine ⟨fun st d h => congrArg Host.Outcome.next
      (State.runCommand_ends (effect := fun _ => v) hacc rfl (bodyJobStart_basicsBad hj hfrac h)), fun hbasics => ⟨fun st d h => ?_, fun hroute =>
      ⟨fun st h => ?_, ?_⟩⟩⟩
    · exact congrArg Host.Outcome.next
        (State.runCommand_ends (effect := fun _ => w) hacc rfl (bodyJobStart_routeBad hj hfrac hbasics h))
    · exact congrArg Host.Outcome.next
        (State.runCommand_ends (effect := fun _ => w) hacc rfl (bodyJobStart_placeBad hj hfrac hbasics hroute h))
    · intro pace hplace hdemand m fits
      have hbody := bodyJobStart_placed hj hfrac hbasics hroute hplace hdemand
      have hfit (hp : pace = true) (hf : fits = true) :
          ¬ (pace = false ∨ z.budgetsHold (z.job (jobOf k)).pilot demand = false) :=
        fun h => h.elim (ne_false_of_eq_true hp) (ne_false_of_eq_true hf)
      refine ⟨fun h => congrArg Host.Outcome.next (State.runCommand_ends (effect := fun _ => z) hacc rfl (hbody.trans (if_pos h))),
        fun hp hf hoff => congrArg Host.Outcome.next (State.runCommand_ends (effect := fun _ => z) hacc rfl
          ((hbody.trans (if_neg (hfit hp hf))).trans (if_pos hoff))), fun y st hp hf hon hms => ?_, fun y hp hf hon hms => ?_⟩
      · refine congrArg Host.Outcome.next (State.runCommand_ends (effect := fun _ => y) hacc rfl ?_)
        rw [hbody, if_neg (hfit hp hf), if_neg hon, hms]
        rfl
      · refine congrArg Host.Outcome.next
          (State.runCommand_completes (effect := fun _ => y.acceptJob (jobOf k) id demand) hacc rfl ?_)
        rw [hbody, if_neg (hfit hp hf), if_neg hon, hms]
        rfl
  case halt =>
    intro s u k hadm hu
    refine ⟨fun h => ?_, fun hj hacc h => ?_, fun hj hacc h => ?_⟩
    · refine congrArg Host.Outcome.next (State.runPrompt_ends (effect := fun v => v.bump fHLM_PROMPT_CNT_halts) hadm rfl ?_)
      exact hu ▸ bodyHaltJob_idle hu h
    · refine congrArg Host.Outcome.next (State.runPrompt_ends
        (effect := fun v => (v.bump fHLM_PROMPT_CNT_halts).qPush (16 + (u.job (jobOf k)).pilot) 2) hadm rfl ?_)
      exact (bodyHaltJob_inLeg hu hj hacc h).trans (by rw [hu]; rfl)
    · refine congrArg Host.Outcome.next (State.runPrompt_ends
        (effect := fun v => ((v.bump fHLM_PROMPT_CNT_halts).cancelLegStarts (jobOf k)).endOutside (jobOf k)) hadm rfl ?_)
      subst hu
      exact bodyHaltJob_outside rfl hj hacc h
  · exact congrArg Host.Outcome.next (State.runPrompt_ends (effect := State.abortAll) hadm rfl (bodyAbortAll_here h))
  · exact congrArg Host.Outcome.next
      (State.runPrompt_ends (effect := fun v => v.abortAll.originateHalt) hadm rfl (bodyAbortAll_convoy h))

end Sys2Proof.Machine
end


section
/-! PROOFS. The Sextant (O47; R232 to R254). -/

namespace Sys2Proof.Machine

/-! ### Edges (R232 to R238) -/

section Edge
variable {c a : Nat} {f voh : Bool} {s u v w : State} (hu : u = (s.advance (a * 60)).sxtCompare c f voh)
include hu

theorem doSextantEdge_unseen (h : u.sxtSees c f voh = false) : doSextantEdge c a f voh s = u := by
  subst hu
  exact if_pos h

variable (hsees : u.sxtSees c f voh = true) (hv : v = u.sxtCount c)
include hsees hv

theorem doSextantEdge_passed (h : (u.sxtChan c).count % u.sxtK c ≠ 0 ∨ v.sxtSince c (a * 60) (v.sxtHold c) = true) :
    doSextantEdge c a f voh s = v := by
  subst hu hv
  unfold doSextantEdge
  dsimp only
  rw [if_neg (ne_false_of_eq_true hsees)]
  by_cases h0 : (((s.advance (a * 60)).sxtCompare c f voh).sxtChan c).count % ((s.advance (a * 60)).sxtCompare c f voh).sxtK c = 0
  · exact (if_neg (by rw [h0]; decide)).trans (if_pos (h.resolve_left (not_not_intro h0)))
  · exact if_pos (by rw [beq_eq_false_iff_ne.mpr h0]; rfl)

variable (hchosen : (u.sxtChan c).count % u.sxtK c = 0) (hhold : v.sxtSince c (a * 60) (v.sxtHold c) = false)
include hchosen hhold

theorem doSextantEdge_chosen : doSextantEdge c a f voh s =
    if v.sxtSince c (a * 60) (160 * unitsPerPs) then (v.bump fSXT_CH_CNT_missed c).sxtLost c (shiftTime (a * 60) (-v.sxtSkew c))
    else
      let w := v.setSxtChan c { v.sxtChan c with lastTaken := some (a * 60) }
      if (w.mer (w.sxtMer c)).st ≠ .running then (w.bump fSXT_CH_CNT_no_time c).sxtLost c (shiftTime (a * 60) (-w.sxtSkew c))
      else w.setSxtChan c { w.sxtChan c with taken := (w.sxtChan c).taken ++ [w.sxtStamp c (a * 60) f voh] } := by
  subst hu hv
  unfold doSextantEdge
  dsimp only
  rw [if_neg (ne_false_of_eq_true hsees), if_neg (by rw [hchosen]; decide), if_neg (ne_true_of_eq_false hhold)]

end Edge

/-! ### Stamps (R239 to R246) -/

theorem doStampDecision_waits {c : Nat} {t : Stamp} {rest : List Stamp} {s : State} (h : (s.sxtChan c).taken = t :: rest)
    (hwait : s.sxtAwaits c t.due = true ∨ s.sxtUndecided t.due = true) : doStampDecision c s = s := by
  unfold doStampDecision
  rw [h]
  exact if_pos (Bool.or_eq_true_iff.mpr hwait)

theorem doStampDecision_decides {c : Nat} {t : Stamp} {rest : List Stamp} {s u : State} (h : (s.sxtChan c).taken = t :: rest)
    (hset : s.sxtAwaits c t.due = false) (hfirst : s.sxtUndecided t.due = false)
    (hu : u = (s.advance (t.due + 200 * unitsPerNs)).setSxtChan c
      { (s.advance (t.due + 200 * unitsPerNs)).sxtChan c with taken := rest }) :
    doStampDecision c s = (u.sxtDecide c t).sxtSettle := by
  subst hu
  unfold doStampDecision
  rw [h]
  exact if_neg (ne_true_of_eq_false (Bool.or_eq_false_iff.mpr ⟨hset, hfirst⟩))

section Decide
variable {c : Nat} {t : Stamp} {u : State}

theorem State.sxtDecide_disarmed (h : (u.sxtChan c).armed t.at96 = false) : u.sxtDecide c t = u :=
  if_pos (by rw [h]; rfl)

variable (harmed : (u.sxtChan c).armed t.at96 = true)
include harmed

theorem State.sxtDecide_outside (hwin : u.fbit fSXT_CH_CTL_win_en c = true) (hout : (u.sxtChan c).inWindow t.at96 = false) :
    u.sxtDecide c t = u.bump fSXT_CH_CNT_outside c :=
  (if_neg (by rw [harmed]; decide)).trans (if_pos ⟨hwin, by rw [hout]; rfl⟩)

theorem State.sxtDecide_inside {v : State} (hv : v = u.tick fSXT_CH_STAT_seq c)
    (hin : u.fbit fSXT_CH_CTL_win_en c = false ∨ (u.sxtChan c).inWindow t.at96 = true) :
    u.sxtDecide c t = if v.fbit fSXT_CH_CTL_stream_en c ∧ v.postFull (sxtHalf c) t.time then
      ((v.bump fSXT_CH_CNT_post_lost c).setSxtChan c { v.sxtChan c with gap := true }).muBreak c true else v.sxtAccept c t := by
  subst hv
  refine (if_neg (by rw [harmed]; decide)).trans (if_neg ?_)
  rintro ⟨hen, hout⟩
  rcases hin with h | h
  · exact ne_false_of_eq_true hen h
  · rw [h] at hout
    exact Bool.false_ne_true hout

end Decide

theorem doStampPost_first {c q : Nat} {t : Stamp} {gap : Bool} {rest : List (Stamp × Nat × Bool)} {s u : State}
    (h : (s.sxtChan c).posts = (t, q, gap) :: rest) (hu : u = s.setSxtChan c { s.sxtChan c with posts := rest }) :
    doStampPost c s = u.report (u.fget fSXT_CH_QUEUE_queue c) 16 (stampElement c t q gap) := by
  subst hu
  unfold doStampPost
  rw [h]
  rfl

/-! ### Measurement units (R245 to R252) -/

theorem doFrequencyRunEnd_ends {n close t : Nat} {s u : State} (hrun : (s.mu n).running = true) (hmode : s.fget fSXT_MU_CTL_mode n = 3)
    (hclose : (s.sxtChan (s.fget fSXT_MU_CTL_start_ch n)).closeAfter (s.mu n).start = some close)
    (ht : (s.mer (s.sxtMer (s.fget fSXT_MU_CTL_start_ch n))).instantOf (ceilDiv close 256) = some t)
    (htaken : ∀ p ∈ (s.sxtChan (s.fget fSXT_MU_CTL_start_ch n)).taken, close ≤ p.at96) (hu : u = (s.advance t).muSlewed n) :
    doFrequencyRunEnd n s = (u.setMu n { u.mu n with start := close }).muPost n false := by
  have hnone : (s.sxtChan (s.fget fSXT_MU_CTL_start_ch n)).taken.any (fun p => decide (p.at96 < close)) = false :=
    List.any_eq_false.mpr fun p hp hlt => Nat.not_lt.mpr (htaken p hp) (of_decide_eq_true hlt)
  unfold doFrequencyRunEnd
  dsimp only
  rw [if_pos ⟨hrun, hmode⟩, hclose]
  dsimp only
  rw [ht]
  dsimp only
  rw [if_neg (ne_true_of_eq_false hnone), hu]

section MuCtl
variable {n v : Nat} {t u : State} (hv : v < 2 ^ 19)
include hv

theorem doSxtMuCtlWrite_starts (hidle : (t.mu n).running = false) (hrun : bitAt v 17 = true)
    (hu : u = t.wr .SXT_MU_CTL n 0 (BitVec.ofNat 64 v)) :
    doSxtMuCtlWrite n v t = if u.muCfgErr n then (u.fput fSXT_MU_STAT_cfg_err n 1).fput fSXT_MU_CTL_run n 0
      else if u.fget fSXT_MU_CTL_mode n = 0 then u
      else u.setMu n { running := true, start := u.sxtNow (u.fget fSXT_MU_CTL_start_ch n) } := by
  subst hu
  unfold doSxtMuCtlWrite
  dsimp only
  rw [hidle, hrun, bits_low_of_lt (hi := 18) hv]
  rfl

theorem doSxtMuCtlWrite_stopsBetween (hrunning : (t.mu n).running = true) (hstop : bitAt v 17 = false) (hbetween : (t.mu n).between = true) :
    doSxtMuCtlWrite n v t = (t.setMu n {}).wr .SXT_MU_CTL n 0 (BitVec.ofNat 64 v) := by
  unfold doSxtMuCtlWrite
  dsimp only
  rw [hrunning, hstop, hbetween, bits_low_of_lt (hi := 18) hv]
  rfl

theorem doSxtMuCtlWrite_stopsShort (hrunning : (t.mu n).running = true) (hstop : bitAt v 17 = false) (hbetween : (t.mu n).between = false)
    (hu : u = if ((List.range 52).filter (fun c => t.muUses n c && (t.sxtChan c).losses.any (·.2))).isEmpty then t else t.muDiscard n true) :
    doSxtMuCtlWrite n v t = ((u.muSlewed n).muPost n true).wr .SXT_MU_CTL n 0 (BitVec.ofNat 64 v) := by
  unfold doSxtMuCtlWrite
  dsimp only
  rw [hrunning, hstop, hbetween, bits_low_of_lt (hi := 18) hv, ← hu]
  rfl

end MuCtl

/-- The state in which a run stopped early posts its result: a loss that waits has broken it. -/
theorem State.muBroken {n : Nat} {t u : State}
    (hnone : (∀ c < 52, t.muUses n c = true → (t.sxtChan c).losses.any (·.2) = false) → u = t)
    (hsome : ∀ c < 52, t.muUses n c = true → (t.sxtChan c).losses.any (·.2) = true → u = t.muDiscard n true) :
    u = if ((List.range 52).filter (fun c => t.muUses n c && (t.sxtChan c).losses.any (·.2))).isEmpty then t else t.muDiscard n true := by
  by_cases h : ∀ c < 52, t.muUses n c = true → (t.sxtChan c).losses.any (·.2) = false
  · rw [if_pos, hnone h]
    refine List.isEmpty_iff.mpr (List.filter_eq_nil_iff.mpr fun c hc hh => ?_)
    obtain ⟨huses, hlost⟩ := Bool.and_eq_true_iff.mp hh
    exact ne_false_of_eq_true hlost (h c (List.mem_range.mp hc) huses)
  · push Not at h
    obtain ⟨c, hc, huses, hlost⟩ := h
    have hl := Bool.eq_true_of_not_eq_false hlost
    rw [if_neg, hsome c hc huses hl]
    intro hempty
    exact List.filter_eq_nil_iff.mp (List.isEmpty_iff.mp hempty) c (List.mem_range.mpr hc) (Bool.and_eq_true_iff.mpr ⟨huses, hl⟩)

theorem bodySextantMeasure_waits {k : Packet} {s v : State} {n : Nat} {id : Nat × Bool} (hgood : measGood k = true)
    (hkind : (s.mer (u8 k 4)).cfg.kind ≠ .tracked) (hone : measStop k = u8 k 1) (hfree : s.measHeld (u8 k 1) = false)
    (hunit : (List.range 16).find? (fun n => !(s.mu n).running) = some n) (hwin : s.measWindow k (u8 k 1) = (v, .ok id)) :
    bodySextantMeasure k s = (v.measRun k n, .wait (.unitResult n) 0 0 (u64 k 32) (u8 k 40) 1) := by
  unfold bodySextantMeasure
  dsimp only
  rw [hone, if_neg (ne_false_of_eq_true hgood), if_neg (fun h => hkind h.2),
    if_neg (fun h => h.elim (ne_true_of_eq_false hfree) (ne_true_of_eq_false hfree)), hunit]
  dsimp only
  rw [hwin]
  dsimp only
  rw [if_pos rfl]

theorem bodySextantSelfcheck_busy {k : Packet} {s : State} (h : s.fbit fSXT_STATUS_sc_busy = true) :
    bodySextantSelfcheck k s = fail s .sextantBusy := if_pos h

theorem bodySextantSelfcheck_waits {k : Packet} {s : State} (h : s.fbit fSXT_STATUS_sc_busy = false) :
    bodySextantSelfcheck k s = (doSelfCheckStart (s.fput fSXT_SC_MASK_mask 0 (u64 k 0 % 2 ^ 52)), .wait .selfCheck 0 0 0 0 1) :=
  if_neg (ne_true_of_eq_false h)

/-! ### Milestones (R241) -/

theorem doMsSxtArm_fires {id : Nat} {f : Fired} {s u : State} (h : s.msFire id 6 = some (u, f)) :
    doMsSxtArm id s = (u.sxtArm f.ms.target (f.ms.arg == 1) (u.readingAt (u.sxtMer f.ms.target) f * 256)).msDone f .ok := by
  unfold doMsSxtArm
  rw [h]

theorem doMsSxtWindow_fires {id : Nat} {f : Fired} {s u : State} (h : s.msFire id 7 = some (u, f)) :
    doMsSxtWindow id s = (u.sxtWindow f.ms.target (u.readingAt (u.sxtMer f.ms.target) f * 256)
      (f.ms.arg2 * 2 ^ 32 + f.ms.arg % 2 ^ 24 * 256) (u.readingAt (u.sxtMer f.ms.target) f * 256)).msDone f .ok := by
  unfold doMsSxtWindow
  rw [h]

/-! ### The registers' rows -/

theorem exec_sxtWinCommit_takes {c : Fin 52} {s t : State} (h : s.takesInOrder .SXT_WIN_CMT c.val t) :
    exec (.sxtWinCommit c) s = .next (doSxtWinCommit c.val t) := by
  rw [exec_sxtWinCommit, execSxtWinCommit, State.rowWrite_takes h.1 h.2]
  unfold State.regEffect
  dsimp only
  rw [fullWord_whole]
  rfl

theorem exec_sxtChCtlWrite_takes {c : Fin 52} {s t : State} (h : s.takesInOrder .SXT_CH_CTL c.val t) (v : BitVec 32) :
    exec (.sxtChCtlWrite c v) s = .next (doSxtChCtlWrite c.val v.toNat t) := by
  rw [exec_sxtChCtlWrite, execSxtChCtlWrite, State.rowWrite_takes h.1 h.2]
  unfold State.regEffect
  dsimp only
  rw [fullWord_whole, Nat.mod_eq_of_lt (a := v.toNat) (b := 2 ^ RegId.SXT_CH_CTL.info.width) v.isLt]

theorem exec_sxtMuCtlWrite_takes {n : Fin 16} {s t : State} (h : s.takesInOrder .SXT_MU_CTL n.val t) (v : BitVec 32) :
    exec (.sxtMuCtlWrite n v) s = .next (doSxtMuCtlWrite n.val v.toNat t) := by
  rw [exec_sxtMuCtlWrite, execSxtMuCtlWrite, State.rowWrite_takes h.1 h.2]
  unfold State.regEffect
  dsimp only
  rw [fullWord_whole, Nat.mod_eq_of_lt (a := v.toNat) (b := 2 ^ RegId.SXT_MU_CTL.info.width) v.isLt]

theorem exec_selfCheckStart_takes {s t : State} (h : s.takesInOrder .SXT_SC_START 0 t) :
    exec .selfCheckStart s = .next (doSelfCheckStart t) := by
  rw [exec_selfCheckStart, execSelfCheckStart, State.rowWrite_takes h.1 h.2]
  unfold State.regEffect
  dsimp only
  rw [fullWord_whole]
  rfl

theorem doSxtWinCommit_sets {c : Nat} {t : State} (h : t.sxtInLeg c = false) :
    doSxtWinCommit c t = t.sxtWindow c (t.fget fSXT_WIN_OPEN_cycle c * 2 ^ 32 + t.fget fSXT_WIN_FRAC_open_frac c * 256)
      (t.fget fSXT_WIN_CLOSE_cycle c * 2 ^ 32 + t.fget fSXT_WIN_FRAC_close_frac c * 256) (t.sxtNow c) :=
  if_neg (ne_true_of_eq_false h)

theorem doSxtChCtlWrite_arms {c v : Nat} {t u : State} (h : t.sxtInLeg c = false) (hv : v < 2 ^ 28)
    (hu : u = t.wr .SXT_CH_CTL c 0 (BitVec.ofNat 64 v)) : doSxtChCtlWrite c v t = u.sxtArm c (bitAt v 0) (u.sxtNow c) := by
  subst hu
  unfold doSxtChCtlWrite
  dsimp only
  rw [if_neg (ne_true_of_eq_false h), bits_low_of_lt (hi := 27) hv]

theorem doSelfCheckStart_runs {t : State} {skip : List Nat} (h : t.fbit fSXT_STATUS_sc_busy = false)
    (hskip : skip = (maskBits 52 (t.fget fSXT_SC_MASK_mask)).filter (fun c => (t.sxtChan c).armed (t.sxtNow c) ||
      !t.powered (30 + sxtHalf c) || t.acceptedJobs.any (fun e => bitAt e.2.sxtChans c))) :
    doSelfCheckStart t = ((maskBits 52 (t.fget fSXT_SC_MASK_mask)).filter (fun c => !skip.contains c)).foldl
      (fun (u : State) c => u.setSxtChan c { u.sxtChan c with checking := true })
      ((t.fput fSXT_SC_SKIP_skip 0 ((skip.map (fun c => 2 ^ c)).sum)).fput fSXT_STATUS_sc_busy 0 1) := by
  subst hskip
  exact if_neg (ne_true_of_eq_false h)

theorem doSelfCheckDone_ends {failing bad : Nat} {s : State} {mine : List Nat} (h : s.fbit fSXT_STATUS_sc_busy = true)
    (hmine : mine = (List.range 52).filter (fun c => (s.sxtChan c).checking))
    (hbad : bad = ((mine.filter (fun c => bitAt failing c)).map (fun c => 2 ^ c)).sum) :
    doSelfCheckDone failing s = (((mine.foldl (fun (u : State) c => u.setSxtChan c { u.sxtChan c with checking := false }) s).fput
      fSXT_SC_FAIL_fail 0 bad).fput fSXT_STATUS_sc_busy 0 0).endWaits .selfCheck .ok none (some bad) := by
  subst hbad hmine
  exact if_pos h

/-- Settles O47: edges, stamps, windows, units and self-checks, each by its own branches. -/
theorem sextantRuns : Obligations.SextantRuns := by
  refine ⟨?edge, ?decision, ?decide, ?post, ?freq, ?win, ?ctl, ?mu, ?start, ?done, ?measure, ?selfcheck, ?ms⟩
  case edge =>
    intro c a f voh s u v w hu hv hw
    refine ⟨fun h => congrArg Host.Outcome.next (doSextantEdge_unseen hu h),
      fun hsees h => congrArg Host.Outcome.next (doSextantEdge_passed hu hsees hv h), fun hsees hchosen hhold => ?_⟩
    have hedge := doSextantEdge_chosen hu hsees hv hchosen hhold
    dsimp only at hedge
    rw [← hw] at hedge
    refine ⟨fun hm => congrArg Host.Outcome.next (hedge.trans (if_pos hm)), fun hm => ?_⟩
    rw [if_neg (ne_true_of_eq_false hm)] at hedge
    exact ⟨fun hst => congrArg Host.Outcome.next (hedge.trans (if_pos hst)),
      fun hst => congrArg Host.Outcome.next (hedge.trans (if_neg (not_not_intro hst)))⟩
  case decision =>
    intro c t rest s u h hu
    exact ⟨fun hwait => congrArg Host.Outcome.next (doStampDecision_waits h hwait),
      fun hset hfirst => congrArg Host.Outcome.next (doStampDecision_decides h hset hfirst hu)⟩
  case decide =>
    intro c t u v hv
    refine ⟨State.sxtDecide_disarmed, State.sxtDecide_outside, fun harmed hin => ?_⟩
    have hinside := State.sxtDecide_inside harmed hv hin
    refine ⟨fun hroom => hinside.trans (if_neg fun h => ?_), ?_⟩
    · exact hroom.elim (ne_false_of_eq_true h.1) (ne_false_of_eq_true h.2)
    · intro hen hfull w
      exact hinside.trans (if_pos ⟨hen, hfull⟩)
  case post =>
    intro c t q gap rest s u h hu
    exact congrArg Host.Outcome.next (doStampPost_first h hu)
  case freq =>
    intro n close t s u hrun hmode hclose ht htaken hu
    exact congrArg Host.Outcome.next (doFrequencyRunEnd_ends hrun hmode hclose ht htaken hu)
  case win =>
    intro c s t h hleg
    rw [exec_sxtWinCommit_takes h, doSxtWinCommit_sets hleg]
  case ctl =>
    intro c v s t u h hleg hv hu
    rw [exec_sxtChCtlWrite_takes h, doSxtChCtlWrite_arms hleg hv hu]
  case mu =>
    intro n v s t u h hv
    rw [exec_sxtMuCtlWrite_takes h]
    refine ⟨fun hidle hrun hu => ?_, fun hrunning hstop => ⟨fun hb => ?_, fun hb hlost => ?_⟩⟩
    · rw [doSxtMuCtlWrite_starts hv hidle hrun hu]
      exact ⟨fun he => congrArg Host.Outcome.next (if_pos he),
        fun he hm => congrArg Host.Outcome.next ((if_neg (ne_true_of_eq_false he)).trans (if_neg hm))⟩
    · rw [doSxtMuCtlWrite_stopsBetween hv hrunning hstop hb]
    · rw [doSxtMuCtlWrite_stopsShort hv hrunning hstop hb (State.muBroken hlost.1 hlost.2)]
  case start =>
    intro s t skip h hbusy hskip
    rw [exec_selfCheckStart_takes h, doSelfCheckStart_runs hbusy hskip]
  case done =>
    intro failing s mine bad h hmine hbad
    exact congrArg Host.Outcome.next (doSelfCheckDone_ends h hmine hbad)
  case measure =>
    rintro s _ v k n id hacc rfl hgood hkind hone hfree hunit hwin
    exact congrArg Host.Outcome.next (State.runCommand_awaits (effect := fun _ => v.measRun k n) hacc rfl
      (bodySextantMeasure_waits hgood hkind hone hfree hunit hwin))
  case selfcheck =>
    intro s k hacc
    exact ⟨fun h => congrArg Host.Outcome.next (State.runCommand_ends (effect := id) hacc rfl (bodySextantSelfcheck_busy h)),
      fun h => congrArg Host.Outcome.next (State.runCommand_awaits
        (effect := fun v => doSelfCheckStart (v.fput fSXT_SC_MASK_mask 0 (u64 k 0 % 2 ^ 52))) hacc rfl (bodySextantSelfcheck_waits h))⟩
  case ms =>
    rintro id _ f s u rfl
    exact ⟨fun h => congrArg Host.Outcome.next (doMsSxtArm_fires h), fun h => congrArg Host.Outcome.next (doMsSxtWindow_fires h)⟩

end Sys2Proof.Machine
end


section
/-! PROOFS. Synthesised clocks (O48; R255 to R268). -/

namespace Sys2Proof.Machine

/-! ### Milestones and dwells (R263 to R266) -/

theorem doMsDdsHop_fires {id : Nat} {f : Fired} {s u : State} (h : s.msFire id 2 = some (u, f)) :
    doMsDdsHop id s = (u.ddsForce f.ms.target f.ms.arg (u.readingAt (u.ddsMer f.ms.target) f) false).msDone f .ok := by
  unfold doMsDdsHop
  rw [h]

theorem doMsDdsAdvance_fires {id : Nat} {f : Fired} {s u : State} (h : s.msFire id 3 = some (u, f)) :
    doMsDdsAdvance id s = (u.ddsAdvance f.ms.target (u.readingAt (u.ddsMer f.ms.target) f)).msDone f .ok := by
  unfold doMsDdsAdvance
  rw [h]

theorem doMsDdsStop_fires {id : Nat} {f : Fired} {s u : State} (h : s.msFire id 5 = some (u, f)) :
    doMsDdsStop id s = (u.ddsStop f.ms.target (u.readingAt (u.ddsMer f.ms.target) f)).msDone f .ok := by
  unfold doMsDdsStop
  rw [h]

section Start
variable {id e : Nat} {f : Fired} {s u : State} (he : e = f.ms.target) (h : s.msFire id 4 = some (u, f))
include he h

theorem doMsDdsStart_unarmed (hst : (u.ddsEng e).st ≠ .armed) : doMsDdsStart id s = u.msDone f .ok := by
  subst he
  unfold doMsDdsStart
  rw [h]
  exact if_pos hst

variable (hst : (u.ddsEng e).st = .armed)
include hst

theorem doMsDdsStart_unlocked (hmer : (u.mer (u.ddsMer e)).st ≠ .running) :
    doMsDdsStart id s = (u.setDds e { u.ddsEng e with st := .idle }).msDone f .meridianUnlocked := by
  subst he
  unfold doMsDdsStart
  rw [h]
  exact (if_neg (not_not_intro hst)).trans (if_pos hmer)

theorem doMsDdsStart_runs (hmer : (u.mer (u.ddsMer e)).st = .running) {r q : Nat} {v w : State} (hr : r = u.readingAt (u.ddsMer e) f)
    (hq : q = u.fget fDDS_ENG_CTL_first e)
    (hv : v = u.setDds e { u.ddsEng e with
      st := .running, entry := q, since := r, before := q, byRoute := false, r0 := r, stopAt := none })
    (hw : w = v.ddsCrowd e r false (ddsHighAt r r (v.ddsEntry e q)) (some (v.ddsEntry e q))) :
    doMsDdsStart id s = ((w.fput fDDS_ENG_EPOCH_cycles e (r / fracOne)).fput fDDS_ENG_EPOCH_FRAC_fraction e (r % fracOne)).msDone f .ok := by
  subst he hw hv hq hr
  unfold doMsDdsStart
  rw [h]
  exact (if_neg (not_not_intro hst)).trans (if_neg (not_not_intro hmer))

end Start

theorem doDwellEnd_advances {e p t h : Nat} {s : State} (hst : (s.ddsEng e).st = .running)
    (hdwell : entOnMs (s.ddsEntry e (s.ddsEng e).entry) = false) (hnext : s.ddsNext e (s.ddsEng e).entry = some p)
    (hh : h = (s.ddsEng e).since + entDwell (s.ddsEntry e (s.ddsEng e).entry) * fracOne)
    (ht : (s.mer (s.ddsMer e)).instantOf h = some t) : doDwellEnd e s = (s.advance t).ddsForce e p h false := by
  unfold doDwellEnd
  dsimp only
  rw [if_neg (fun hn => hn.elim (fun h1 => h1 hst) (ne_true_of_eq_false hdwell)), ← hh, hnext, ht]

/-! ### The list aperture (R267, R268) -/

theorem State.ddsListRow_takes {s t : State} (ht : t = s.deliverAll) (htakes : t.takesWrite 0xD90000 = true) (p : Nat) (high : Bool) (v : Nat) :
    s.ddsListRow p high v = doDdsListWrite p high v t := by
  unfold State.ddsListRow
  dsimp only
  rw [← ht, if_pos htakes]

theorem State.ddsInLeg_fput (s : State) (f : Fld) (i x e : Nat) : (s.fput f i x).ddsInLeg e = s.ddsInLeg e := rfl

theorem doDdsListWrite_busy {p e v : Nat} {t : State} (he : e = t.fget fDDS_CTL_aper_eng) (hleg : t.ddsInLeg e = false)
    (hst : (t.ddsEng e).st ≠ .idle) (high : Bool) : doDdsListWrite p high v t = t.fput fDDS_ENG_STAT_write_drop e 1 := by
  unfold doDdsListWrite
  dsimp only
  rw [← he, if_pos (bne_iff_ne.mpr hst), State.ddsInLeg_fput, if_neg (ne_true_of_eq_false hleg), if_pos (bne_iff_ne.mpr hst)]

section Idle
variable {p e v : Nat} {t : State} (he : e = t.fget fDDS_CTL_aper_eng) (hleg : t.ddsInLeg e = false) (hst : (t.ddsEng e).st = .idle)
  (hv : v < 2 ^ 64)
include he hleg hst hv

theorem doDdsListWrite_low : doDdsListWrite p false v t = { t with dds := { t.dds with stage := some (e, p, v) } } := by
  have hidle : ¬ ((t.ddsEng e).st != .idle) = true := by
    rw [hst]
    decide
  unfold doDdsListWrite
  dsimp only
  rw [← he, if_neg hidle, if_neg (ne_true_of_eq_false hleg), if_neg hidle, if_pos (by decide), Nat.mod_eq_of_lt hv]

theorem doDdsListWrite_high {w : Nat} (hstage : t.dds.stage = some (e, p, w)) :
    doDdsListWrite p true v t = ({ t with dds := { t.dds with stage := none } } : State).ddsPutEntry e p (w + v * 2 ^ 64) := by
  have hidle : ¬ ((t.ddsEng e).st != .idle) = true := by
    rw [hst]
    decide
  unfold doDdsListWrite
  dsimp only
  rw [← he, if_neg hidle, if_neg (ne_true_of_eq_false hleg), if_neg hidle, if_neg (by decide), hstage]
  dsimp only
  rw [if_pos ⟨rfl, rfl⟩, Nat.mod_eq_of_lt hv]

end Idle

/-! ### Commands (R255, R265 to R267) -/

section Load
variable {s : State} {k : Packet} (he : u8 k 0 < 8) (hn : u16 k 2 + u16 k 4 ≤ 4096) (hmid : u16 k 16 < 4096) (hmode : u8 k 18 < 2)
  (hloop : u16 k 20 < 4096)
include he hn hmid hmode hloop

theorem ddsLoad_operands : ¬ (8 ≤ u8 k 0 ∨ 4096 < u16 k 2 + u16 k 4 ∨ 4096 ≤ u16 k 16 ∨ 2 ≤ u8 k 18 ∨ 4096 ≤ u16 k 20) := by omega

theorem bodyDdsLoad_busy (hst : (s.ddsEng (u8 k 0)).st ≠ .idle) : bodyDdsLoad k s = fail s .ddsBusy :=
  (if_neg (ddsLoad_operands he hn hmid hmode hloop)).trans (if_pos (Or.inl hst))

theorem bodyDdsLoad_loads (hst : (s.ddsEng (u8 k 0)).st = .idle) (hleg : s.ddsInLeg (u8 k 0) = false) (hup : s.isDown 29 = false)
    {v w : State} {bs : List Byte} (hpay : s.payload (u8 k 1) (u64 k 8) (16 * u16 k 4) = (v, .bytes bs))
    (hw : w = v.ddsStore (u8 k 0) (u16 k 2) (entriesOf (u16 k 4) bs)) :
    bodyDdsLoad k s = ((((w.fput fDDS_ENG_LEN_count (u8 k 0) (u16 k 2 + u16 k 4)).fput fDDS_ENG_MID_mid (u8 k 0) (u16 k 16)).fput
      fDDS_ENG_CTL_end_mode (u8 k 0) (u8 k 18)).fput fDDS_ENG_CTL_loop_start (u8 k 0) (u16 k 20), .done .ok 0 0 false false (u16 k 4)) := by
  have hfree : ¬ ((s.ddsEng (u8 k 0)).st ≠ .idle ∨ s.ddsInLeg (u8 k 0) = true ∨ s.isDown 29 = true) := by
    rintro (h | h | h)
    · exact h hst
    · exact ne_true_of_eq_false hleg h
    · exact ne_true_of_eq_false hup h
  unfold bodyDdsLoad
  dsimp only
  rw [if_neg (ddsLoad_operands he hn hmid hmode hloop), if_neg hfree, hpay, hw]

end Load

theorem bodyDdsStart_arms {s v : State} {k : Packet} {id : Nat} {late : Bool} (he : u8 k 0 < 8) (hm : u8 k 1 < 8) (hfirst : u16 k 2 < 4096)
    (hfrac : u32 k 16 < 2 ^ 24) (hok : s.ddsStartCheck (u8 k 0) (u8 k 1) (u16 k 2) = .ok)
    (hms : s.msCommit (u8 k 1) 4 (u8 k 0) 0 0 (u64 k 8 * fracOne + u32 k 16) 0 0 0 (jobOf k) = (v, .ok (id, late))) :
    bodyDdsStart k s = okResult (((v.fput fDDS_ENG_CTL_meridian (u8 k 0) (u8 k 1)).fput fDDS_ENG_CTL_first (u8 k 0) (u16 k 2)).setDds
      (u8 k 0) { v.ddsEng (u8 k 0) with st := .armed }) id := by
  unfold bodyDdsStart
  dsimp only
  rw [if_neg (by omega), hok]
  dsimp only
  rw [hms]

theorem bodyDdsStop_waits {s v : State} {k : Packet} {id : Nat} {late : Bool} (he : u8 k 0 < 8) (hfrac : u32 k 16 < 2 ^ 24)
    (hms : s.msCommit (s.ddsMer (u8 k 0)) 5 (u8 k 0) 0 0 (u64 k 8 * fracOne + u32 k 16) 0 0 0 (jobOf k) = (v, .ok (id, late))) :
    bodyDdsStop k s = (v, .wait (.milestone id) 0 0 0 0 1) := by
  unfold bodyDdsStop
  dsimp only
  rw [if_neg (by omega), hms]

theorem bodyDdsPin_free {s : State} {k : Packet} (hpins : u64 k 0 < 2 ^ 48) (he : u8 k 8 < 8)
    (h : ∀ n ∈ pinsOf (u64 k 0), s.pinInLeg n = false) :
    bodyDdsPin k s = ok ((pinsOf (u64 k 0)).foldl (fun s n => s.fput fDDS_PIN_SEL_engine n (u8 k 8)) s) :=
  (if_neg (by omega)).trans (if_neg fun hany => (List.any_eq_true.mp hany).elim fun n hn => ne_true_of_eq_false (h n hn.1) hn.2)

theorem bodyDdsPin_busy {s : State} {k : Packet} (hpins : u64 k 0 < 2 ^ 48) (he : u8 k 8 < 8) {n : Nat} (hn : n ∈ pinsOf (u64 k 0))
    (h : s.pinInLeg n = true) : bodyDdsPin k s = fail s .pinBusy :=
  (if_neg (by omega)).trans (if_pos (List.any_eq_true.mpr ⟨n, hn, h⟩))

/-- Settles O48: milestones, dwells, the list aperture and the commands, each by its own checks. -/
theorem ddsEnginesRun : Obligations.DdsEnginesRun := by
  refine ⟨?ms, fun e p t h s hst hdwell hnext hh ht => congrArg Host.Outcome.next (doDwellEnd_advances hst hdwell hnext hh ht), ?list,
    ?load, ?start, ?stop, ?pin⟩
  case ms =>
    rintro id e f s u he
    refine ⟨fun h => ?_, fun h => ?_, fun h => ⟨fun hst => congrArg Host.Outcome.next (doMsDdsStart_unarmed he h hst),
      fun hst hmer => congrArg Host.Outcome.next (doMsDdsStart_unlocked he h hst hmer),
      fun r q v w hst hmer hr hq hv hw => congrArg Host.Outcome.next (doMsDdsStart_runs he h hst hmer hr hq hv hw)⟩, fun h => ?_⟩
    · exact he ▸ congrArg Host.Outcome.next (doMsDdsHop_fires h)
    · exact he ▸ congrArg Host.Outcome.next (doMsDdsAdvance_fires h)
    · exact he ▸ congrArg Host.Outcome.next (doMsDdsStop_fires h)
  case list =>
    intro p v e s t ht htakes he hleg
    have hrow (high : Bool) : exec (.ddsListWrite p high v) s = .next (doDdsListWrite p.toNat high v.toNat t) :=
      congrArg Host.Outcome.next (State.ddsListRow_takes ht htakes _ _ _)
    exact ⟨fun hst high => (hrow high).trans (congrArg Host.Outcome.next (doDdsListWrite_busy he hleg hst high)),
      fun hst => (hrow false).trans (congrArg Host.Outcome.next (doDdsListWrite_low he hleg hst v.isLt)),
      fun w hst hstage => (hrow true).trans (congrArg Host.Outcome.next (doDdsListWrite_high he hleg hst v.isLt hstage))⟩
  case load =>
    rintro s _ v w k bs hacc rfl he hn hmid hmode hloop
    exact ⟨fun hst => congrArg Host.Outcome.next (State.runCommand_ends (effect := id) hacc rfl (bodyDdsLoad_busy he hn hmid hmode hloop hst)),
      fun hst hleg hup hpay hw => congrArg Host.Outcome.next (State.runCommand_completes (effect := fun _ =>
        (((w.fput fDDS_ENG_LEN_count (u8 k 0) (u16 k 2 + u16 k 4)).fput fDDS_ENG_MID_mid (u8 k 0) (u16 k 16)).fput fDDS_ENG_CTL_end_mode
          (u8 k 0) (u8 k 18)).fput fDDS_ENG_CTL_loop_start (u8 k 0) (u16 k 20)) hacc rfl
        (bodyDdsLoad_loads he hn hmid hmode hloop hst hleg hup hpay hw))⟩
  case start =>
    rintro s _ v k id late hacc rfl he hm hfirst hfrac hok hms
    exact congrArg Host.Outcome.next (State.runCommand_completes (effect := fun _ => ((v.fput fDDS_ENG_CTL_meridian (u8 k 0) (u8 k 1)).fput
      fDDS_ENG_CTL_first (u8 k 0) (u16 k 2)).setDds (u8 k 0) { v.ddsEng (u8 k 0) with st := .armed }) hacc rfl
      (bodyDdsStart_arms he hm hfirst hfrac hok hms))
  case stop =>
    rintro s _ v k id late hacc rfl he hfrac hms
    exact congrArg Host.Outcome.next (State.runCommand_awaits (effect := fun _ => v) hacc rfl (bodyDdsStop_waits he hfrac hms))
  case pin =>
    rintro s _ k hacc rfl hpins he
    exact ⟨fun h => congrArg Host.Outcome.next (State.runCommand_completes (effect := fun v =>
        (pinsOf (u64 k 0)).foldl (fun (w : State) n => w.fput fDDS_PIN_SEL_engine n (u8 k 8)) v) hacc rfl (bodyDdsPin_free hpins he h)),
      fun n hn h => congrArg Host.Outcome.next (State.runCommand_ends (effect := id) hacc rfl (bodyDdsPin_busy hpins he hn h))⟩

end Sys2Proof.Machine
end


section
/-! PROOFS. The converters (O49): an output's window, a SAR's conversion, the sequences of a run, the common trigger by its branches, the
injected conversions and the presets. -/

namespace Sys2Proof.Machine

/-! ### Codes (R272, R276) -/

theorem State.pinCode_current (s : State) (a : Analogue) {m : Nat × Nat} (steps : Nat) (h : m.1 = 1) :
    s.pinCode a m steps = s.openDiv (a.current * (4 * steps : Nat)) (5 * pmuFull m.2) := if_pos h

theorem State.pinCode_volt (s : State) (a : Analogue) {m : Nat × Nat} (steps : Nat) (h : m.1 ≠ 1) :
    s.pinCode a m steps = s.openDiv ((a.volt - 800000000) * steps) 1800000000 := if_neg h

theorem State.sarRaw_rail (s : State) {r : Nat} (a : Analogue) (tick : Nat) (h : (s.sar r).mux < 4) :
    s.sarRaw r a tick = s.openDiv a.volt 1000000 := if_pos h

theorem State.sarRaw_reference (s : State) {r : Nat} (a : Analogue) (tick : Nat) (h : (s.sar r).mux = 5) :
    (s.sarRaw r a tick).2 = 1020 + ((s.fresh.2.toNat % 9 : Nat) : Int) := by
  unfold State.sarRaw
  dsimp only
  rw [h]
  rfl

theorem State.sarRaw_ground (s : State) {r : Nat} (a : Analogue) (tick : Nat) (h : (s.sar r).mux = 6 ∨ (s.sar r).mux = 7) :
    (s.sarRaw r a tick).2 = ((s.fresh.2.toNat % 5 : Nat) : Int) - 2 := by
  unfold State.sarRaw
  dsimp only
  rw [if_neg (by omega), if_neg (by omega), if_neg (by omega)]

/-! ### Sigma-delta outputs (R271 to R274) -/

section Output
variable {n : Nat} {a : Analogue} {o : Option Nat} {s u t : State} {code : Int} (hdown : s.isDown (n / 4) = false)
  (hcode : s.pinCode a (s.pmuAt n (s.sdTick n)) 8388608 = (u, code))
  (ht : t = (((u.advanceTick (u.sdTick n)).setSd n { u.sd n with k := (u.sd n).k + 1, overload := u.sdOverload n o }).wr .ADC_SD_LIVE n 0
    (BitVec.ofNat 64 (u.sdWord n code o))).sdFeed n (sdCode code) (b2n (u.sdOvr n code o) + 2 * b2n (u.sdSuspect n o)))
include hdown hcode ht

theorem doSdOutput_ends : doSdOutput n a o s = if u.adc.sdT0 = some (u.sd n).origin ∧ (u.sd n).k + 1 = 4 then
    t.sdWrite (fun p => p == n) (u.sdWord n code o) (u.sdTick n) else t := by
  unfold doSdOutput
  dsimp only
  rw [if_neg (ne_true_of_eq_false hdown), hcode]
  unfold State.sdEnds
  dsimp only
  rw [← ht]

theorem doSdOutput_beside (hrun : u.adc.sdT0 ≠ some (u.sd n).origin) : doSdOutput n a o s = t :=
  (doSdOutput_ends hdown hcode ht).trans (if_neg fun h => hrun h.1)

theorem doSdOutput_sequence (hrun : u.adc.sdT0 = some (u.sd n).origin) (hk : (u.sd n).k + 1 = 4) :
    doSdOutput n a o s = t.sdWrite (fun p => p == n) (u.sdWord n code o) (u.sdTick n) :=
  (doSdOutput_ends hdown hcode ht).trans (if_pos ⟨hrun, hk⟩)

end Output

theorem doSdOutput_down {n : Nat} {a : Analogue} {o : Option Nat} {s : State} (h : s.isDown (n / 4) = true) : doSdOutput n a o s = s := if_pos h

/-! ### SAR conversions (R277, R286 to R288, R302) -/

theorem doSarConversionDone_ends {r t0 : Nat} {a : Analogue} {job : SarJob} {s c : State} {raw : Int} (hconv : (s.sar r).conv = some (job, t0))
    (hraw : s.sarRaw r a t0 = (c, raw)) : doSarConversionDone r a s = c.sarEnds r raw job t0 := by
  unfold doSarConversionDone
  rw [hconv]
  dsimp only
  rw [hraw]

section Conversion
variable {r t0 : Nat} {raw : Int} {c u : State} (hu : u = (c.advanceTick (t0 + 24)).setSar r { c.sar r with suspect := sarOvr raw })
include hu

theorem State.sarEnds_stream (n : Nat) {v : State} (hv : v = u.setSar r { u.sar r with conv := some (.stream n, t0 + 24) }) :
    c.sarEnds r raw (.stream n) t0 = if (v.aq n).grid.any (fun g => decide (t0 < g.tick0) && g.j == 0) then v
      else v.aqSample n (clampInt (-0x800) 0x7FF raw) (b2n (sarOvr raw) + 2 * b2n (c.sar r).suspect) := by
  subst hu hv
  rfl

variable (hin : sarOvr raw = false)
include hin

theorem State.sarEnds_inject (i : Nat) : c.sarEnds r raw (.inject i false) t0 = ((u.wr .ADC_SAR_INJ_RES r 0
    (BitVec.ofNat 64 (sarWord raw (c.sar r).suspect false))).fput fADC_SAR_STAT_inj_done r 1).sarNext r (t0 + 24) := by
  unfold State.sarEnds
  dsimp only
  rw [← hu, if_neg (ne_true_of_eq_false hin), if_neg (by decide)]

section Entry
variable {k word : Nat} {v : State} (hword : word = sarWord raw (c.sar r).suspect (c.sar r).shifted)
  (hv : v = u.wr .ADC_SAR_RES r k (BitVec.ofNat 64 word))
include hword hv

theorem State.sarEnds_entry : c.sarEnds r raw (.entry k) t0 = if (c.sar r).left.isEmpty then
    ((v.setSar r { v.sar r with words := (v.sar r).words.set k word, seqRunning := false, shifted := false }).seqDone (t0 + 24)).sarNext r (t0 + 24)
    else (v.setSar r { v.sar r with words := (v.sar r).words.set k word }).sarNext r (t0 + 24) := by
  unfold State.sarEnds
  dsimp only
  rw [← hu, if_neg (ne_true_of_eq_false hin), ← hword, ← hv]

theorem State.sarEnds_entry_more (hleft : (c.sar r).left ≠ []) : c.sarEnds r raw (.entry k) t0 =
    (v.setSar r { v.sar r with words := (v.sar r).words.set k word }).sarNext r (t0 + 24) :=
  (State.sarEnds_entry hu hin hword hv).trans (if_neg fun h => hleft (List.isEmpty_iff.mp h))

theorem State.sarEnds_entry_last (hleft : (c.sar r).left = []) : c.sarEnds r raw (.entry k) t0 = ((v.setSar r { v.sar r with
    words := (v.sar r).words.set k word, seqRunning := false, shifted := false }).seqDone (t0 + 24)).sarNext r (t0 + 24) :=
  (State.sarEnds_entry hu hin hword hv).trans (if_pos (List.isEmpty_iff.mpr hleft))

end Entry

end Conversion

/-! ### Injected conversions (R286, R290, R293) -/

theorem State.sarInject_down {s : State} {r : Nat} (h : s.isDown 28 = true) (i : Nat) (c : Bool) :
    s.sarInject r i c = (s.bump fADC_SAR_STAT_inj_reject r, false) := if_pos (.inl h)

theorem State.sarInject_streaming {s : State} {r n : Nat} (h : s.streamUnit r = some n) (i : Nat) (c : Bool) :
    s.sarInject r i c = (s.bump fADC_SAR_STAT_inj_reject r, false) := if_pos (.inr (.inr (by rw [h]; rfl)))

theorem State.sarInject_idle {s : State} {r : Nat} (hdown : s.isDown 28 = false) (hinj : (s.sar r).inj = none) (hconv : (s.sar r).conv = none)
    (i : Nat) (c : Bool) : s.sarInject r i c = (s.setSar r { s.sar r with
      conv := some (.inject i c, s.tickNow), mux := i, fastPin := s.fget fADC_SAR_CTL_fast_pin r,
      shifted := (s.sar r).shifted || !(s.sar r).left.isEmpty }, true) := by
  have hstream : s.streamUnit r = none := by
    unfold State.streamUnit
    rw [hconv]
  unfold State.sarInject
  dsimp only
  rw [if_neg (by rw [hdown, hinj, hstream]; decide), hconv]
  rfl

theorem State.rowWrite_inject {s t : State} {r : Fin 4} (h : s.takesInOrder .ADC_SAR_INJ r.val t) (i : Fin 8) :
    s.rowWrite .ADC_SAR_INJ r.val (i.val + 8) = doSarInjectRequest r.val i.val t := by
  have hgo : ∀ i : Fin 8, bitAt (i.val + 8) 3 = true ∧ bits (i.val + 8) 2 0 = i.val := by decide
  rw [State.rowWrite_takes h.1 h.2]
  unfold State.regEffect
  dsimp only
  rw [fullWord_whole, Nat.mod_eq_of_lt (by have := i.isLt; exact Nat.lt_of_lt_of_le (by omega : i.val + 8 < 2 ^ 4) (by decide)), if_pos (hgo i).1,
    (hgo i).2]

/-! ### Runs and the common trigger (R280, R284, R285) -/

theorem State.seqDone_runs {s t : State} {tick : Nat} (ht : t = { s with adc := { s.adc with lastDone := max s.adc.lastDone tick } })
    (h : ∃ k ∈ s.adc.due, t.seqRuns k = true) : s.seqDone tick = t := by
  subst ht
  exact if_pos (.inr (List.any_eq_true.mpr h))

theorem State.seqDone_all {s t : State} {tick : Nat} (ht : t = { s with adc := { s.adc with lastDone := max s.adc.lastDone tick } })
    (hdue : s.adc.due ≠ []) (h : ∀ k ∈ s.adc.due, t.seqRuns k = false) : s.seqDone tick =
      { t with adc := { t.adc with due := [], toPost := s.adc.toPost ++ s.adc.due.map t.adcElement } } := by
  subst ht
  refine if_neg fun hn => hn.elim hdue fun hr => ?_
  obtain ⟨k, hk, hrun⟩ := List.any_eq_true.mp hr
  exact ne_true_of_eq_false (h k hk) hrun

theorem State.commonTrigger_taken {s : State} (hrun : s.anyRuns = false) (hheld : s.adc.held = false) (t0 : Nat) :
    s.commonTrigger t0 = s.trigEffect t0 := (if_neg (ne_true_of_eq_false hrun)).trans (if_neg (ne_true_of_eq_false hheld))

theorem State.commonTrigger_standing {s : State} (hrun : s.anyRuns = false) (hheld : s.adc.held = true) (t0 : Nat) :
    s.commonTrigger t0 = s.bump fADC_OVERRUN_overrun_count := (if_neg (ne_true_of_eq_false hrun)).trans (if_pos hheld)

theorem State.commonTrigger_held {s : State} (hrun : s.anyRuns = true) (hpend : s.fbit fADC_TRIG_CFG_single_pending = true)
    (hheld : s.adc.held = false) (t0 : Nat) : s.commonTrigger t0 = { s with adc := { s.adc with held := true } } :=
  (if_pos hrun).trans (if_pos ⟨hpend, by rw [hheld]; rfl⟩)

theorem State.commonTrigger_overrun {s : State} (hrun : s.anyRuns = true) (hpend : s.fbit fADC_TRIG_CFG_single_pending = false) (t0 : Nat) :
    s.commonTrigger t0 = s.bump fADC_OVERRUN_overrun_count := (if_pos hrun).trans (if_neg fun h => ne_true_of_eq_false hpend h.1)

theorem State.rowWrite_adcTrig {s t : State} (h : s.takesInOrder .ADC_TRIG 0 t) (hsrc : t.fget fADC_TRIG_CFG_src = 0) :
    s.rowWrite .ADC_TRIG 0 1 = t.commonTrigger t.tickNow := by
  rw [State.rowWrite_takes h.1 h.2]
  unfold State.regEffect
  dsimp only
  rw [fullWord_whole]
  exact if_pos hsrc

theorem doMsConverterTrigger_fires {id : Nat} {f : Fired} {s u : State} (h : s.msFire id 9 = some (u, f)) : doMsConverterTrigger id s =
    (if u.fget fADC_TRIG_CFG_src = 1 then u.commonTrigger (tickFrom f.at88) else u).msDone f .ok := by
  unfold doMsConverterTrigger
  rw [h]

theorem State.doMsyncInEdge_trigger {rising : Bool} {t : Nat} {s u v : State} (hu : u = s.advance t) (hv : v = u.aqSync 3 0 (!rising) (u.odo 0))
    (hsrc : v.fget fADC_TRIG_CFG_src = 2) (hpol : v.fbit fADC_TRIG_CFG_msync_pol = !rising)
    (hgo : (v.commonTrigger v.tickNow).fget fWLN_GO_CTL_src = 0) : s.doMsyncInEdge rising t = v.commonTrigger v.tickNow := by
  have hlocal : (s.advance t).msyncLocal rising = v.commonTrigger v.tickNow := by
    unfold State.msyncLocal
    rw [← hu, ← hv]
    exact if_pos ⟨hsrc, hpol⟩
  unfold State.doMsyncInEdge
  dsimp only
  rw [hlocal, hgo]
  exact if_neg (by cases rising <;> decide)

theorem doHeldTrigger_acts {s : State} (hheld : s.adc.held = true) (hrun : s.anyRuns = false)
    (hfree : ∀ r < 4, (s.sar r).inj = none ∧ ((s.sar r).conv = none ∨ (s.streamUnit r).isSome = true)) : doHeldTrigger s =
      State.trigEffect { s with adc := { s.adc with held := false } } (max (s.adc.lastDone + 1) s.tickNow) := by
  refine if_pos ⟨hheld, by rw [hrun]; rfl, List.all_eq_true.mpr fun r hr => ?_⟩
  obtain ⟨hinj, hconv⟩ := hfree r (List.mem_range.mp hr)
  rw [hinj, Bool.and_eq_true_iff, Bool.or_eq_true_iff]
  exact ⟨rfl, hconv.imp (fun h => by rw [h]; rfl) id⟩

/-! ### Commands (R291, R376) -/

section Presets
variable {k : Packet} {s : State} (hidle : ∀ n < 5, s.seqRuns n = false)
include hidle

theorem seqRuns_none : ¬ (List.range 5).any s.seqRuns = true :=
  ne_true_of_eq_false (List.any_eq_false.mpr fun n hn => ne_true_of_eq_false (hidle n (List.mem_range.mp hn)))

theorem bodyAdcSequence_pins (hp : u8 k 0 = 1) (hm : u64 k 8 < 2 ^ 48) (hn : (pinsOf (u64 k 8)).length ≤ 32) : bodyAdcSequence k s =
    ok ((s.presetPins (pinsOf (u64 k 8)) (min (u32 k 4) 262143)).enableSeqs 1 0) := by
  unfold bodyAdcSequence
  dsimp only
  rw [if_neg (seqRuns_none hidle), if_pos hp, if_neg (by omega)]

theorem bodyAdcSequence_monitors (hp : u8 k 0 = 2) : bodyAdcSequence k s = ok (s.presetMonitors.enableSeqs 0 15) := by
  unfold bodyAdcSequence
  dsimp only
  rw [if_neg (seqRuns_none hidle), if_neg (by omega), if_pos hp]

theorem bodyAdcSequence_fast (hp : u8 k 0 = 3) (h0 : 0 < u8 k 1) (h16 : u8 k 1 ≤ 16)
    (hpins : ∀ p ∈ [u8 k 16, u8 k 17, u8 k 18, u8 k 19], p < 48) : bodyAdcSequence k s =
      ok ((s.presetFast (u8 k 1) [u8 k 16, u8 k 17, u8 k 18, u8 k 19]).enableSeqs 0 15) := by
  have hfast : ¬ [u8 k 16, u8 k 17, u8 k 18, u8 k 19].any (fun p => decide (48 ≤ p)) = true := by
    refine ne_true_of_eq_false (List.any_eq_false.mpr fun p hp => ?_)
    rw [decide_eq_true_iff]
    exact Nat.not_le.mpr (hpins p hp)
  unfold bodyAdcSequence
  dsimp only
  rw [if_neg (seqRuns_none hidle), if_neg (by omega), if_neg (by omega), if_pos hp,
    if_neg (fun hn => hn.elim (by omega) fun hn => hn.elim (by omega) hfast)]

end Presets

theorem bodyAdcInject_asks {k : Packet} {s : State} (hr : u8 k 0 < 4) (hi : u8 k 1 < 8) : bodyAdcInject k s =
    match s.sarInject (u8 k 0) (u8 k 1) true with
    | (s, true) => (s, .wait (.inject (u8 k 0)) 0 0 0 0 1)
    | (s, false) => fail s .adcBusy := by
  unfold bodyAdcInject
  dsimp only
  rw [if_neg (by omega)] <;> rfl

/-- Settles O49: an output, a conversion, a run, the trigger's branches from each of its sources, injections and presets, in turn. -/
theorem convertersRun : Obligations.ConvertersRun := by
  unfold Obligations.ConvertersRun
  refine ⟨fun n a o s u t code => ⟨fun h => congrArg Host.Outcome.next (doSdOutput_down h), fun hdown hcode ht =>
      ⟨fun h => congrArg Host.Outcome.next (doSdOutput_beside hdown hcode ht h),
        fun h hk => congrArg Host.Outcome.next (doSdOutput_sequence hdown hcode ht h hk)⟩⟩,
    fun s u n r a tick code => ⟨?_, ?_, s.sarRaw_rail a tick, ?_, ?_⟩, ?_, ?_,
    fun s t tick ht => ⟨State.seqDone_runs ht, State.seqDone_all ht⟩, ?_, ?_, ?_,
    fun s hheld hrun hfree => congrArg Host.Outcome.next (doHeldTrigger_acts hheld hrun hfree), ?_, ?_, ?_, ?_, ?_⟩
  · intro h
    rw [State.pinCode_current s a 8388608 (by rw [h]), h]
    rfl
  · exact s.pinCode_volt a 8388608
  · intro h hraw
    have hc := State.sarRaw_reference s a tick h
    rw [hraw] at hc
    dsimp only at hc
    omega
  · intro h hraw
    have hc := State.sarRaw_ground s a tick h
    rw [hraw] at hc
    dsimp only at hc
    omega
  · intro r a job raw t0 s c u hconv hraw hu hin
    have hdone : exec (.sarConversionDone r a) s = .next (c.sarEnds r.val raw job t0) :=
      congrArg Host.Outcome.next (doSarConversionDone_ends hconv hraw)
    rw [hdone]
    refine ⟨?_, ?_, ?_⟩
    · rintro k word v rfl hword hv
      exact ⟨fun h => congrArg Host.Outcome.next (State.sarEnds_entry_more hu hin hword hv h),
        fun h => congrArg Host.Outcome.next (State.sarEnds_entry_last hu hin hword hv h)⟩
    · rintro i rfl
      exact congrArg Host.Outcome.next (State.sarEnds_inject hu hin i)
    · rintro n v rfl hv
      rw [State.sarEnds_stream hu n hv]
      exact ⟨fun h => congrArg Host.Outcome.next (if_pos h), fun h => congrArg Host.Outcome.next (if_neg (ne_true_of_eq_false h))⟩
  · rintro s _ rfl
    exact ⟨fun h => congrArg Host.Outcome.next (if_neg (ne_true_of_eq_false h)), fun h => congrArg Host.Outcome.next (if_pos h)⟩
  · intro s t h hsrc
    have hgo : exec .adcTrigGo s = .next (t.commonTrigger t.tickNow) := congrArg Host.Outcome.next (State.rowWrite_adcTrig h hsrc)
    rw [hgo]
    exact ⟨fun hr hh => congrArg Host.Outcome.next (State.commonTrigger_taken hr hh _),
      fun hr hh => congrArg Host.Outcome.next (State.commonTrigger_standing hr hh _),
      fun hr hp hh => congrArg Host.Outcome.next (State.commonTrigger_held hr hp hh _),
      fun hr hp => congrArg Host.Outcome.next (State.commonTrigger_overrun hr hp _)⟩
  · intro id f s u h
    have hfires : exec (.msConverterTrigger id) s = .next ((if u.fget fADC_TRIG_CFG_src = 1 then u.commonTrigger (tickFrom f.at88) else u).msDone f
      .ok) := congrArg Host.Outcome.next (doMsConverterTrigger_fires h)
    rw [hfires]
    exact ⟨fun h1 => by rw [if_pos h1], fun h1 => by rw [if_neg h1]⟩
  · intro rising t s u v hu hv hsrc hpol hgo
    exact congrArg Host.Outcome.next (State.doMsyncInEdge_trigger hu hv hsrc hpol hgo)
  · intro r i s t h
    have hinj : exec (.sarInjectRequest r i) s = .next (t.sarInject r.val i.val false).1 := congrArg Host.Outcome.next (State.rowWrite_inject h i)
    rw [hinj]
    exact ⟨fun hd => by rw [State.sarInject_down hd], fun hd hi hc => by rw [State.sarInject_idle hd hi hc],
      fun n hs => by rw [State.sarInject_streaming hs]⟩
  · intro n osr s t h hrun
    have hosr : osr.toNat < 2 ^ 18 := osr.isLt
    have hrow : s.rowWrite .ADC_SD_CFG n.val osr.toNat = doAdcSdCfgWrite n.val osr.toNat t := by
      rw [State.rowWrite_takes h.1 h.2]
      unfold State.regEffect
      dsimp only
      rw [fullWord_whole, Nat.mod_eq_of_lt (Nat.lt_of_lt_of_le hosr (by decide))]
    refine congrArg Host.Outcome.next (hrow.trans ((if_pos hrun).trans ?_))
    rw [bits_low_of_lt hosr]
  · rintro s _ k hacc rfl hidle
    refine ⟨fun hp hm hn => ?_, fun hp => ?_, fun hp h0 h16 h1 h2 h3 h4 => ?_⟩
    · exact congrArg Host.Outcome.next (State.runCommand_completes
        (effect := fun v => (v.presetPins (pinsOf (u64 k 8)) (min (u32 k 4) 262143)).enableSeqs 1 0) hacc rfl (bodyAdcSequence_pins hidle hp hm hn))
    · exact congrArg Host.Outcome.next (State.runCommand_completes (effect := fun v => v.presetMonitors.enableSeqs 0 15) hacc rfl
        (bodyAdcSequence_monitors hidle hp))
    · exact congrArg Host.Outcome.next (State.runCommand_completes
        (effect := fun v => (v.presetFast (u8 k 1) [u8 k 16, u8 k 17, u8 k 18, u8 k 19]).enableSeqs 0 15) hacc rfl
        (bodyAdcSequence_fast hidle hp h0 h16 (by simp [h1, h2, h3, h4])))
  · intro s k hacc
    exact ⟨fun h => congrArg Host.Outcome.next (State.runCommand_completes (effect := fun v => v.commonTrigger v.tickNow) hacc rfl
        (if_neg (not_not.mpr h))),
      fun h => congrArg Host.Outcome.next (State.runCommand_ends (effect := id) hacc rfl (if_pos h))⟩
  · rintro s _ v k hacc rfl hr hi
    refine ⟨fun h => ?_, fun h => ?_⟩
    · refine congrArg Host.Outcome.next (State.runCommand_awaits (effect := fun _ => v) hacc rfl ?_)
      rw [bodyAdcInject_asks hr hi, h]
    · refine congrArg Host.Outcome.next (State.runCommand_ends (effect := fun _ => v) hacc rfl ?_)
      rw [bodyAdcInject_asks hr hi, h]
      rfl

end Sys2Proof.Machine
end


section
/-! PROOFS. Rail acquisition (O50): arming and stopping, the triggers offered to a unit, re-arming, the record, and the class 0x6
commands. -/

namespace Sys2Proof.Machine

/-! ### Arming and stopping (R293, R301) -/

theorem State.aqArm_begins {s w : State} {n : Nat} (h : s.aqCfgErr n = (w, false)) : s.aqArm n = (w.aqBegin n, true) := by
  unfold State.aqArm
  rw [h]

theorem State.aqArm_error {s w : State} {n : Nat} (h : s.aqCfgErr n = (w, true)) : s.aqArm n = (w.fput fACQ_STAT_cfg_err n 1, false) := by
  unfold State.aqArm
  rw [h]

theorem State.aqStop_armed {s : State} {n : Nat} (h : (s.aq n).st = .armed) : s.aqStop n = (s.aqRelease n).setAq n { s.aq n with st := .idle } := by
  unfold State.aqStop
  rw [h]

section Ctl
variable {n v : Nat} {t u : State} (hv : v < 2 ^ 18) (hu : u = t.wr .ACQ_CTL n 0 (BitVec.ofNat 64 v))
include hv hu

theorem doAcqCtlWrite_stores : doAcqCtlWrite n v t =
    if bitAt v 0 then (if (u.aq n).st = .idle then (u.aqArm n).1 else u) else u.aqStop n := by
  unfold doAcqCtlWrite
  dsimp only
  rw [bits_low_of_lt hv, ← hu]

theorem doAcqCtlWrite_recording (hb : bitAt v 0 = true) (hst : (u.aq n).st ≠ .idle) : doAcqCtlWrite n v t = u :=
  (doAcqCtlWrite_stores hv hu).trans ((if_pos hb).trans (if_neg hst))

theorem doAcqCtlWrite_arms (hb : bitAt v 0 = true) (hst : (u.aq n).st = .idle) : doAcqCtlWrite n v t = (u.aqArm n).1 :=
  (doAcqCtlWrite_stores hv hu).trans ((if_pos hb).trans (if_pos hst))

theorem doAcqCtlWrite_stops (hb : bitAt v 0 = false) : doAcqCtlWrite n v t = u.aqStop n :=
  (doAcqCtlWrite_stores hv hu).trans (if_neg (ne_true_of_eq_false hb))

end Ctl

theorem State.rowWrite_acqCtl {s t : State} {n : Fin 4} (h : s.takesInOrder .ACQ_CTL n.val t) (v : BitVec 32) :
    s.rowWrite .ACQ_CTL n.val v.toNat = doAcqCtlWrite n.val v.toNat t := by
  rw [State.rowWrite_takes h.1 h.2]
  unfold State.regEffect
  dsimp only
  rw [fullWord_whole, Nat.mod_eq_of_lt (a := v.toNat) (b := 2 ^ RegId.ACQ_CTL.info.width) v.isLt]

/-! ### Triggers (R298 to R300) -/

theorem State.aqAt_idle {s : State} {n : Nat} (h : (s.aq n).st = .idle) (src at88 : Nat) : s.aqAt n src at88 = (s, false) := by
  unfold State.aqAt
  dsimp only
  rw [h]

theorem State.aqAt_rearming {s : State} {n : Nat} (h : (s.aq n).st = .rearming) (src at88 : Nat) :
    s.aqAt n src at88 = (s.bump fACQ_CNT_rearm_count n, false) := by
  unfold State.aqAt
  dsimp only
  rw [h]

theorem State.aqTrigger_accepted {s u : State} {n src at88 : Nat} (h : s.aqAt n src at88 = (u, true)) :
    s.aqTrigger n src at88 = (u.aqChain n at88 4, true) := by
  unfold State.aqTrigger
  rw [h]

theorem State.aqTrigger_refused {s u : State} {n src at88 : Nat} (h : s.aqAt n src at88 = (u, false)) :
    s.aqTrigger n src at88 = (u, false) := by
  unfold State.aqTrigger
  rw [h]

theorem State.rowWrite_acqTrig {s t : State} {n : Fin 4} (h : s.takesInOrder .ACQ_TRIG n.val t) (hsrc : t.fget fACQ_CTL_trig_src n.val = 0) :
    s.rowWrite .ACQ_TRIG n.val 1 = (t.aqTrigger n.val 0 (t.odo 0)).1 := by
  rw [State.rowWrite_takes h.1 h.2]
  unfold State.regEffect
  dsimp only
  rw [fullWord_whole]
  exact if_pos hsrc

theorem doMsAcqTrigger_fires {id : Nat} {f : Fired} {s u : State} (h : s.msFire id 8 = some (u, f)) : doMsAcqTrigger id s =
    if (u.aq f.ms.target).st = .idle then u.msDone f .acqIdle
    else if u.fget fACQ_CTL_trig_src f.ms.target = 2 then ((u.aqTrigger f.ms.target 2 f.ms.at88).1).msDone f .ok
    else u.msDone f .ok := by
  unfold doMsAcqTrigger
  rw [h]

/-! ### Re-arming (R302) -/

section Rearm
variable {n : Nat} {s : State} (hst : (s.aq n).st = .rearming)
include hst

theorem doAcqRearm_pin (hk : s.fbit fACQ_SRC_kind n = false) : doAcqRearm n s = (s.aqRelease n).aqBegin n :=
  (if_pos hst).trans (if_pos (by rw [hk]; rfl))

theorem doAcqRearm_same_sar (hk : s.fbit fACQ_SRC_kind n = true) (hs : s.streamUnit (s.fget fACQ_SRC_sar n) = some n) :
    doAcqRearm n s = s.aqBegin n := (if_pos hst).trans ((if_neg (by rw [hk]; decide)).trans (if_pos hs))

theorem doAcqRearm_other_sar (hk : s.fbit fACQ_SRC_kind n = true) (hs : s.streamUnit (s.fget fACQ_SRC_sar n) ≠ some n) :
    doAcqRearm n s = (((s.aqRelease n).setAq n { s.aq n with st := .idle }).aqArm n).1 :=
  (if_pos hst).trans ((if_neg (by rw [hk]; decide)).trans (if_neg hs))

end Rearm

/-! ### Commands (R376) -/

section Arm
variable {k : Packet} {s : State} (hn : u8 k 0 < 4)
include hn

theorem bodyAcqArm_recording (hst : (s.aq (u8 k 0)).st ≠ .idle) : bodyAcqArm k s = fail s .acqConfig := by
  unfold bodyAcqArm
  dsimp only
  rw [if_neg (Nat.not_le.mpr hn), if_pos hst]

theorem bodyAcqArm_reads {v : State} {bs : List Byte} (hst : (s.aq (u8 k 0)).st = .idle)
    (hread : s.payload (u8 k 1) (u64 k 8) 64 = (v, .bytes bs)) : bodyAcqArm k s =
      match (v.aqConfigure (u8 k 0) bs).aqArm (u8 k 0) with
      | (s, true) => ok s
      | (s, false) => fail s .acqConfig := by
  unfold bodyAcqArm
  dsimp only
  rw [if_neg (Nat.not_le.mpr hn), if_neg (not_not.mpr hst), hread] <;> rfl

theorem bodyAcqStop_idle (hst : (s.aq (u8 k 0)).st = .idle) : bodyAcqStop k s = fail s .acqIdle :=
  (if_neg (Nat.not_le.mpr hn)).trans (if_pos hst)

theorem bodyAcqStop_stops (hst : (s.aq (u8 k 0)).st ≠ .idle) : bodyAcqStop k s = ok ((s.aqStop (u8 k 0)).fput fACQ_CTL_arm (u8 k 0) 0) :=
  (if_neg (Nat.not_le.mpr hn)).trans (if_neg hst)

end Arm

section Stats
variable {k : Packet} {s : State} (hn : u8 k 0 < 4) (hseg : u16 k 2 < s.aqS (u8 k 0)) (hcount : 0 < u32 k 12)
  (hspan : u32 k 8 + u32 k 12 ≤ s.aqP (u8 k 0) + s.aqQ (u8 k 0))
include hn hseg hcount hspan

theorem bodyAcqStats_overwritten (hst : (s.aq (u8 k 0)).st ≠ .idle) (hcap : (s.aq (u8 k 0)).capture % s.aqS (u8 k 0) = u16 k 2) :
    bodyAcqStats k s = fail s .acqOverwritten := by
  unfold bodyAcqStats
  dsimp only
  rw [if_neg (by omega), if_neg (by omega), if_pos ⟨hst, hcap⟩]

theorem bodyAcqStats_answers {v w x : State} {bs out : List Byte} {mean : Int} (hst : (s.aq (u8 k 0)).st = .idle)
    (hread : s.aqReadUnits (u8 k 0) (u16 k 2) (nget 0 (u16 k 2) (s.aq (u8 k 0)).segs + u32 k 8) (u32 k 12) = (v, bs, none))
    (hstats : v.aqStats (v.fbit fACQ_SRC_reduce_en (u8 k 0)) (u32 k 12) (codesOf (bs.length / 4) bs) = (w, mean, out))
    (hstore : w.storeResultBy v.reckonerPort (u8 k 24) (u64 k 16) out = (x, none)) : bodyAcqStats k s = okResult x (enc 64 mean) := by
  unfold bodyAcqStats
  dsimp only
  rw [if_neg (by omega), if_neg (by omega), if_neg (fun h => h.1 hst), hread]
  dsimp only
  rw [hstats]
  dsimp only
  rw [hstore]

end Stats

/-- Settles O50: the register and the triggers by the unit's state, re-arming by its source, and the three commands in turn. -/
theorem acquisitionRuns : Obligations.AcquisitionRuns := by
  unfold Obligations.AcquisitionRuns
  refine ⟨?_, ?_, fun n s hdue hq => congrArg Host.Outcome.next (if_pos ⟨hdue, hq⟩), ?_, ?_, ?_, ?_, ?_⟩
  · intro n v s t u h hv hu
    have hrow : exec (.acqCtlWrite n v) s = .next (doAcqCtlWrite n.val v.toNat t) := congrArg Host.Outcome.next (State.rowWrite_acqCtl h v)
    rw [hrow]
    refine ⟨fun hb hst => by rw [doAcqCtlWrite_recording hv hu hb hst], fun w hb hst hcfg => ?_, fun w hb hst hcfg => ?_, fun hb hst => ?_⟩
    · rw [doAcqCtlWrite_arms hv hu hb hst, State.aqArm_begins hcfg]
    · rw [doAcqCtlWrite_arms hv hu hb hst, State.aqArm_error hcfg]
    · rw [doAcqCtlWrite_stops hv hu hb, State.aqStop_armed hst]
  · intro n s t h hsrc
    have hrow : exec (.acqTrigGo n) s = .next (t.aqTrigger n.val 0 (t.odo 0)).1 := congrArg Host.Outcome.next (State.rowWrite_acqTrig h hsrc)
    rw [hrow]
    exact ⟨fun hst => by rw [State.aqTrigger_refused (State.aqAt_idle hst _ _)],
      fun hst => by rw [State.aqTrigger_refused (State.aqAt_rearming hst _ _)], fun u ha => by rw [State.aqTrigger_accepted ha]⟩
  · intro n s u hst
    refine ⟨fun hk => congrArg Host.Outcome.next (doAcqRearm_pin hst hk), fun hk hs => congrArg Host.Outcome.next (doAcqRearm_same_sar hst hk hs),
      ?_⟩
    rintro hk hs rfl
    exact congrArg Host.Outcome.next (doAcqRearm_other_sar hst hk hs)
  · intro id f s u h
    exact ⟨fun hst => congrArg Host.Outcome.next ((doMsAcqTrigger_fires h).trans (if_pos hst)),
      fun hst hsrc => congrArg Host.Outcome.next ((doMsAcqTrigger_fires h).trans ((if_neg hst).trans (if_pos hsrc)))⟩
  · rintro s _ v w k bs hacc rfl hn
    refine ⟨fun hst => congrArg Host.Outcome.next (State.runCommand_ends (effect := id) hacc rfl (bodyAcqArm_recording hn hst)), fun hst hread =>
      ⟨fun harm => ?_, fun harm => ?_⟩⟩
    · refine congrArg Host.Outcome.next (State.runCommand_completes (effect := fun _ => w) hacc rfl ?_)
      rw [bodyAcqArm_reads hn hst hread, harm]
      rfl
    · refine congrArg Host.Outcome.next (State.runCommand_ends (effect := fun _ => w) hacc rfl ?_)
      rw [bodyAcqArm_reads hn hst hread, harm]
      rfl
  · rintro s _ k hacc rfl hn
    exact ⟨fun hst => congrArg Host.Outcome.next (State.runCommand_ends (effect := id) hacc rfl (bodyAcqStop_idle hn hst)),
      fun hst => congrArg Host.Outcome.next (State.runCommand_completes
        (effect := fun v => (v.aqStop (u8 k 0)).fput fACQ_CTL_arm (u8 k 0) 0) hacc rfl (bodyAcqStop_stops hn hst))⟩
  · rintro s _ v w k bs out mean x hacc rfl hn hseg hcount hspan
    exact ⟨fun hst hcap => congrArg Host.Outcome.next (State.runCommand_ends (effect := id) hacc rfl
        (bodyAcqStats_overwritten hn hseg hcount hspan hst hcap)),
      fun hst hread hstats hstore => congrArg Host.Outcome.next (State.runCommand_completes (effect := fun _ => x) hacc rfl
        (bodyAcqStats_answers hn hseg hcount hspan hst hread hstats hstore))⟩

end Sys2Proof.Machine
end


section
/-! PROOFS. Wayline ports (O51, O52): WAYLINE_PORT by its operation, locks, requests and statuses of training, the port's coming up and
failing, electrical idle, and the acknowledgement, refusal and replay of flits. -/

namespace Sys2Proof.Machine

/-! ### WAYLINE_PORT (R409, R412, R413) -/

section Port
variable {k : Packet} {s : State} {p : Nat} (hp : p = u8 k 0) (hlt : p < 4) (hfec : u8 k 2 ≤ 1)
include hp hlt hfec

theorem bodyWaylinePort_down (hop : u8 k 1 = 0) : bodyWaylinePort k s = ok (s.portDown p) := by
  unfold bodyWaylinePort
  dsimp only
  rw [← hp, if_neg (by omega), if_pos hop]

theorem bodyWaylinePort_unpowered (hop : u8 k 1 = 1 ∨ u8 k 1 = 3) (hpow : s.powered (16 + p) = false) :
    bodyWaylinePort k s = fail s .linkDown := by
  unfold bodyWaylinePort
  dsimp only
  rw [← hp, if_neg (by omega), if_neg (by omega), if_pos hpow]

theorem bodyWaylinePort_idle (hop : u8 k 1 = 3) (hpow : s.powered (16 + p) = true) : bodyWaylinePort k s =
    if s.convoyHeld p then fail s .convoyRefused else ok (s.setWport p { s.wport p with idleOk := true }) := by
  unfold bodyWaylinePort
  dsimp only
  rw [← hp, if_neg (by omega), if_neg (by omega), if_neg (ne_false_of_eq_true hpow), if_pos hop]

theorem bodyWaylinePort_trains (hop : u8 k 1 = 1) (hpow : s.powered (16 + p) = true) (hst : s.wstate p = wDown) :
    bodyWaylinePort k s = (s.beginTraining p false (u8 k 2 == 1) (tapPreset 1), .wait (.training p) 0 0 0 0 1) := by
  unfold bodyWaylinePort
  dsimp only
  rw [← hp, if_neg (by omega), if_neg (by omega), if_neg (ne_false_of_eq_true hpow), if_neg (by omega), if_pos hst, hop]
  rfl

theorem bodyWaylinePort_trains_manual {t : List Int} (ht : t = [s8 k 4, s8 k 5, s8 k 6, s8 k 7]) (hop : u8 k 1 = 2) (htaps : tapsOk t = true)
    (hpow : s.powered (16 + p) = true) (hst : s.wstate p ≠ wDown) : bodyWaylinePort k s =
      ((s.portDown p).beginTraining p true (u8 k 2 == 1) t, .wait (.training p) 0 0 0 0 1) := by
  unfold bodyWaylinePort
  dsimp only
  rw [← hp, ← ht, htaps, if_neg (fun hn => hn.elim (by omega) fun hn => hn.elim (by omega) fun hn => hn.elim (by omega) fun hn =>
    Bool.noConfusion hn.2), if_neg (by omega), if_neg (ne_false_of_eq_true hpow), if_neg (by omega), if_neg hst, hop]
  rfl

end Port

/-! ### Locks and training (R406, R410 to R412) -/

theorem State.doBlockLock_locks {s : State} {p : Nat} (hd : s.wstate p ≠ wDown) (hf : s.wstate p ≠ wFailed) (lane : Nat) :
    s.doBlockLock p lane = s.setLock p lane true := if_neg (not_or.mpr ⟨hd, hf⟩)

theorem State.doLockLoss_retrains {s : State} {p lane : Nat} (h : (s.setLock p lane false).linkUp p = true) :
    s.doLockLoss p lane = (s.setLock p lane false).retrain p := if_pos h

theorem State.doLockLoss_notes {s : State} {p lane : Nat} (h : (s.setLock p lane false).linkUp p = false) :
    s.doLockLoss p lane = s.setLock p lane false := if_neg (ne_true_of_eq_false h)

section Training
variable {s : State} {p : Nat} (ht : s.inTraining p = true)
include ht

theorem State.doTrainReq_repeated {lane v : Nat} {w : WPort} (hw : w = s.wport p)
    (h : (if lane = 0 then w.req0 else w.req1) = some (bits v 11 8)) :
    s.doTrainReq p lane v = s.setWport p { w with ready := setBit w.ready lane (bitAt v 24) } := by
  subst hw
  exact (if_neg (ne_false_of_eq_true ht)).trans (if_pos h)

theorem State.doTrainReq_new {lane v : Nat} {w : WPort} {r : List Int × Nat} (hw : w = s.wport p)
    (h : (if lane = 0 then w.req0 else w.req1) ≠ some (bits v 11 8)) (hr : r = tapAnswer w.manual (s.taps p lane) v) :
    s.doTrainReq p lane v = ((s.setWport p (w.heard lane v)).setTaps p lane r.1).sendTrainStat p lane (bits v 11 8) r.2 := by
  subst hw hr
  exact (if_neg (ne_false_of_eq_true ht)).trans (if_neg h)

theorem State.doTrainStat_shows {lane v : Nat} {u : State} (h : bits v 47 40 ≠ 0x7F)
    (hu : u = s.fput fWLN_P_STAT_pre_rx p (setBit (s.fget fWLN_P_STAT_pre_rx p) lane (bitAt v 22))) :
    s.doTrainStat p lane v = u.setWport p { u.wport p with echoed := setBit (u.wport p).echoed lane (bitAt v 24) } := by
  subst hu
  exact if_neg (not_or.mpr ⟨ne_false_of_eq_true ht, h⟩)

theorem State.doPortUp_comes (hl : s.fget fWLN_P_STAT_lock p = 3) (hr : (s.wport p).ready = 3) (he : (s.wport p).echoed = 3) :
    s.doPortUp p = (s.beginSession p).endWaits (.training p) .ok := if_pos ⟨ht, hl, hr, he⟩

theorem State.doTrainTimeout_fails : s.doTrainTimeout p =
    (((s.advance (s.wport p).trainBy).setWstate p wFailed).linkLost p).endWaits (.training p) .linkDown := if_pos ht

end Training

/-- Settles O51: WAYLINE_PORT by its operation, then the events of locks, training and idle. -/
theorem waylinePortsTrainAndIdle : Obligations.WaylinePortsTrainAndIdle := by
  unfold Obligations.WaylinePortsTrainAndIdle
  refine ⟨?_, fun p lane s => ⟨fun hd hf => congrArg Host.Outcome.next (State.doBlockLock_locks hd hf _),
      fun h => congrArg Host.Outcome.next (State.doLockLoss_retrains h), fun h => congrArg Host.Outcome.next (State.doLockLoss_notes h)⟩,
    fun p lane v s w ht hw => ⟨fun h => congrArg Host.Outcome.next (State.doTrainReq_repeated ht hw h),
      fun r h hr => congrArg Host.Outcome.next (State.doTrainReq_new ht hw h hr),
      fun u h hu => congrArg Host.Outcome.next (State.doTrainStat_shows ht h hu)⟩,
    fun p s ht => ⟨fun hl hr he => congrArg Host.Outcome.next (State.doPortUp_comes ht hl hr he),
      congrArg Host.Outcome.next (State.doTrainTimeout_fails ht)⟩,
    fun p s => ⟨fun hst hc => ⟨congrArg Host.Outcome.next (if_pos ⟨hst, hc⟩),
        fun hi ha hq => congrArg Host.Outcome.next (if_pos ⟨hst, hi, ha, hq, hc⟩)⟩,
      fun hst => congrArg Host.Outcome.next (if_pos (.inl hst))⟩⟩
  rintro s _ k p hacc rfl hp hlt hfec
  refine ⟨fun hop => ?_, fun hop hpow => ?_, fun hop hpow hc => ?_, fun hop hpow hc => ?_, fun hop hpow hst => ?_,
    fun t ht hop htaps hpow hst => ?_⟩
  · exact congrArg Host.Outcome.next (State.runCommand_completes (effect := fun v => v.portDown p) hacc rfl (bodyWaylinePort_down hp hlt hfec hop))
  · exact congrArg Host.Outcome.next (State.runCommand_ends (effect := id) hacc rfl (bodyWaylinePort_unpowered hp hlt hfec hop hpow))
  · exact congrArg Host.Outcome.next (State.runCommand_ends (effect := id) hacc rfl
      ((bodyWaylinePort_idle hp hlt hfec hop hpow).trans (if_pos hc)))
  · exact congrArg Host.Outcome.next (State.runCommand_completes (effect := fun v => v.setWport p { v.wport p with idleOk := true }) hacc rfl
      ((bodyWaylinePort_idle hp hlt hfec hop hpow).trans (if_neg (ne_true_of_eq_false hc))))
  · exact congrArg Host.Outcome.next (State.runCommand_awaits (effect := fun v => v.beginTraining p false (u8 k 2 == 1) (tapPreset 1)) hacc rfl
      (bodyWaylinePort_trains hp hlt hfec hop hpow hst))
  · exact congrArg Host.Outcome.next (State.runCommand_awaits (effect := fun v => (v.portDown p).beginTraining p true (u8 k 2 == 1) t) hacc rfl
      (bodyWaylinePort_trains_manual hp hlt hfec ht hop htaps hpow hst))

/-! ### Flits in sequence (R417, R418) -/

section Replay
variable {s : State} {p : Nat} {f : Flit} {rest : List Flit} {u : Nat → State} (hst : s.wstate p = wUp) (hr : (s.wport p).replay = f :: rest)
include hst hr

theorem State.doNak_up (seq : Nat) : s.doNak p seq = s.resendOrRetrain p seq :=
  if_pos ⟨hst, fun h => List.cons_ne_nil f rest (hr.symm.trans h)⟩

theorem State.doReplayTimeout_up : s.doReplayTimeout p = s.resendOrRetrain p f.seq := by
  unfold State.doReplayTimeout
  rw [hr]
  exact if_pos hst

end Replay

theorem State.resendOrRetrain_retrains {s : State} {p : Nat} (h : 8 ≤ (s.wport p).resends) (seq : Nat) :
    s.resendOrRetrain p seq = s.retrain p := if_pos h

theorem State.resendOrRetrain_resends {s : State} {p : Nat} (h : (s.wport p).resends < 8) (seq : Nat) : s.resendOrRetrain p seq =
    (s.setWport p { s.wport p with resends := (s.wport p).resends + 1 }).resend p seq := if_neg (Nat.not_le.mpr h)

/-- Settles O52: the acknowledgement, the replay by the count of resends, the acknowledgement timer and what is counted. -/
theorem waylineFlitsAreAcknowledgedAndReplayed : Obligations.WaylineFlitsAreAcknowledgedAndReplayed := by
  unfold Obligations.WaylineFlitsAreAcknowledgedAndReplayed
  refine ⟨fun p seq c0 c1 c2 s hst => congrArg Host.Outcome.next (if_neg (not_not.mpr hst)), ?_, ?_,
    fun p s hd hf => congrArg Host.Outcome.next (if_neg (not_or.mpr ⟨hd, hf⟩)),
    fun p s hf => ⟨congrArg Host.Outcome.next (if_pos hf), congrArg Host.Outcome.next (if_pos hf)⟩⟩
  · intro p seq s f rest u hst hr hu
    refine ⟨fun h => ⟨?_, ?_⟩, fun h => ⟨?_, ?_⟩⟩
    · rw [hu]
      exact congrArg Host.Outcome.next ((State.doNak_up hst hr _).trans (State.resendOrRetrain_resends h _))
    · rw [hu]
      exact congrArg Host.Outcome.next ((State.doReplayTimeout_up hst hr).trans (State.resendOrRetrain_resends h _))
    · exact congrArg Host.Outcome.next ((State.doNak_up hst hr _).trans (State.resendOrRetrain_retrains h _))
    · exact congrArg Host.Outcome.next ((State.doReplayTimeout_up hst hr).trans (State.resendOrRetrain_retrains h _))
  · intro p s hst
    refine ⟨fun h => congrArg Host.Outcome.next (if_pos ⟨hst, .inl h⟩),
      fun h => congrArg Host.Outcome.next (if_pos ⟨hst, .inr fun hz => h (by omega)⟩),
      fun hu h0 h1 h2 => congrArg Host.Outcome.next (if_neg fun h => h.2.elim (fun hn => hn hu) fun hn => hn (by omega)),
      congrArg Host.Outcome.next ((if_neg (not_not.mpr hst)).trans ?_), congrArg Host.Outcome.next ((if_neg (not_not.mpr hst)).trans ?_)⟩
    · rw [if_pos rfl]
    · rw [if_neg Bool.false_ne_true]

end Sys2Proof.Machine
end


section
/-! PROOFS. Wayline signals and time (O53): halts, GO, the site-fail aggregate, launched frames, and the four blocks of an exchange. -/

namespace Sys2Proof.Machine

/-! ### Halts, GO and the aggregate (R425 to R428) -/

section Halt
variable {s : State} {p seq origin h : Nat} (hh : h = haltContent seq origin)
include hh

theorem State.doHalt_seen (hc : s.wln.halts.contains h = true) : s.doHalt p seq origin = s := by
  subst hh
  exact if_pos (.inr hc)

theorem State.doHalt_first {u : State} (hup : s.linkUp p = true) (hu : u = s.seeHalt h) (hc : s.wln.halts.contains h = false) :
    s.doHalt p seq origin = ((u.convoyPorts.filter (· ≠ p)).foldl (fun (v : State) q => v.sendBlock q 0x10 h) u).haltHere := by
  subst hu hh
  exact if_neg (not_or.mpr ⟨ne_false_of_eq_true hup, ne_true_of_eq_false hc⟩)

end Halt

theorem State.rowWrite_wlnHalt {s t : State} (h : s.takesInOrder .WLN_HALT 0 t) : s.rowWrite .WLN_HALT 0 1 = t.originateHalt := by
  rw [State.rowWrite_takes h.1 h.2]
  unfold State.regEffect
  dsimp only
  rw [fullWord_whole]
  rfl

theorem State.rowWrite_wlnGo {s t : State} (h : s.takesInOrder .WLN_GO 0 t) : s.rowWrite .WLN_GO 0 1 = t.originateGo := by
  rw [State.rowWrite_takes h.1 h.2]
  unfold State.regEffect
  dsimp only
  rw [fullWord_whole]
  rfl

theorem State.rowWrite_wlnAgg {s t : State} (h : s.takesInOrder .WLN_AGG 0 t) (v : BitVec 16) :
    s.rowWrite .WLN_AGG 0 v.toNat = t.doWlnAggWrite v.toNat := by
  have hv : v.toNat < 2 ^ 16 := v.isLt
  rw [State.rowWrite_takes h.1 h.2]
  unfold State.regEffect
  dsimp only
  rw [fullWord_whole, Nat.mod_eq_of_lt (Nat.lt_of_lt_of_le hv (by decide)), bits_low_of_lt hv]

theorem State.doGo_mustered {s : State} {p : Nat} (hup : s.linkUp p = true) (hm : s.mustered = true) (origin e : Nat) : s.doGo p origin e =
    ((s.treePorts.filter (· ≠ p)).foldl (fun (v : State) q => v.sendBlock q 0x11 (origin * 2 ^ 8 + e * 2 ^ 16)) s).offerGo p e :=
  (if_neg (ne_false_of_eq_true hup)).trans (if_neg (ne_false_of_eq_true hm))

theorem State.doGo_alone {s : State} {p : Nat} (hup : s.linkUp p = true) (hm : s.mustered = false) (origin e : Nat) :
    s.doGo p origin e = s.bump fWLN_CONV_refused := (if_neg (ne_false_of_eq_true hup)).trans (if_pos hm)

section Aggregate
variable {s : State} {p : Nat} (hm : s.mustered = true) (hup : s.linkUp p = true)
include hm hup

theorem State.doAgg_from_root {u : State} (v : Nat) (hu : u = s.fput fWLN_AGG_convoy 0 v) : s.doAgg p v true =
    (u.treePorts.filter (· ≠ p)).foldl (fun (w : State) q => w.sendBlock q 0x12 (aggContent v true)) u := by
  subst hu
  exact (if_neg (not_or.mpr ⟨ne_false_of_eq_true hm, ne_false_of_eq_true hup⟩)).trans (if_pos rfl)

theorem State.doAgg_from_child (v : Nat) : s.doAgg p v false = ((s.setWport p { s.wport p with agg := v }).aggChanged).haltIfDue :=
  (if_neg (not_or.mpr ⟨ne_false_of_eq_true hm, ne_false_of_eq_true hup⟩)).trans (if_neg Bool.false_ne_true)

end Aggregate

/-! ### Launched frames (R429) -/

section Launch
variable {id : Nat} {f : Fired} {s u : State} (h : s.msFire id 10 = some (u, f))
include h

theorem State.doMsWaylineLaunch_sends {node : Nat} {bs : List Byte} (hp : f.ms.target < 4) (hk : f.ms.arg < 16)
    (hst : u.wstate f.ms.target = wUp) (hslot : u.launchSlot f.ms.target f.ms.arg = some (node, bs)) :
    s.doMsWaylineLaunch id = (u.sendLaunch f.ms.target f.ms.arg node bs).msDone f .ok := by
  unfold State.doMsWaylineLaunch
  rw [h]
  dsimp only
  rw [if_pos ⟨hp, hk, hst⟩, hslot]

theorem State.doMsWaylineLaunch_down (hst : u.wstate f.ms.target ≠ wUp) : s.doMsWaylineLaunch id = u.msDone f .linkDown := by
  unfold State.doMsWaylineLaunch
  rw [h]
  dsimp only
  rw [if_neg fun hn => hst hn.2.2]

end Launch

/-! ### Time transfer (R423) -/

theorem State.doTimeExchangeTimer_up {s u : State} {p a seq : Nat} (hu : u = s.advance (a * 60)) (hst : u.wstate p = wUp)
    (hseq : seq = ((u.wport p).timeSeq + 1) % 256) : s.doTimeExchangeTimer p a = (u.setWport p { u.wport p with
      timeSeq := seq, timeEx := some { seq := seq, t1 := u.stamp7 a } }).sendBlock p 0x20 (seq * 2 ^ 8) := by
  unfold State.doTimeExchangeTimer
  dsimp only
  rw [← hu, if_pos hst, ← hseq]

theorem State.doTimeReq_up {s u : State} {p l : Nat} (hu : u = s.advance (l * 60)) (hst : u.wstate p = wUp) (seq a : Nat) :
    s.doTimeReq p seq a l =
      (u.sendBlock p 0x21 (seq * 2 ^ 8 + u.stamp7 a * 2 ^ 16)).sendBlock p 0x22 (seq * 2 ^ 8 + u.stamp7 l * 2 ^ 16) := by
  unfold State.doTimeReq
  dsimp only
  rw [← hu, if_pos hst]

theorem State.doTimeT2_stamps {s u : State} {p seq a : Nat} {x : TimeEx} (hu : u = s.advance (a * 60)) (hx : (u.wport p).timeEx = some x)
    (hseq : x.seq = seq) (hst : u.wstate p = wUp) (t2 : Nat) : s.doTimeT2 p seq t2 a =
      u.setWport p { u.wport p with timeEx := some { x with t2 := some (t2, u.stamp7 a) } } := by
  unfold State.doTimeT2
  dsimp only
  rw [← hu, hx]
  exact if_pos ⟨hseq, hst⟩

theorem State.doTimeT3_completes {s : State} {p seq t2 t3 t4 : Nat} {x : TimeEx} {r : State × Int × Int} (hx : (s.wport p).timeEx = some x)
    (hseq : x.seq = seq) (ht2 : x.t2 = some (t2, t4)) (hst : s.wstate p = wUp) (hr : r = s.solveExchange p x.t1 t2 t3 t4) :
    s.doTimeT3 p seq t3 = (r.1.noteExchange p r.2.1 r.2.2).followParent p r.2.2 := by
  obtain ⟨q, t1, e⟩ := x
  subst hseq ht2 hr
  unfold State.doTimeT3
  rw [hx]
  exact if_neg (not_or.mpr ⟨not_not.mpr rfl, not_not.mpr hst⟩)

/-- Settles O53: halts, GO and the aggregate by the state of the link and the convoy, then launches and the blocks of an exchange. -/
theorem waylineSignalsAndTimeAct : Obligations.WaylineSignalsAndTimeAct := by
  unfold Obligations.WaylineSignalsAndTimeAct
  refine ⟨fun p seq origin s u h hup hh hu => ⟨fun hc => congrArg Host.Outcome.next (State.doHalt_first hh hup hu hc),
      fun hc => congrArg Host.Outcome.next (State.doHalt_seen hh hc)⟩,
    fun s t h => congrArg Host.Outcome.next (State.rowWrite_wlnHalt h),
    fun s t h hm => congrArg Host.Outcome.next ((State.rowWrite_wlnGo h).trans (if_pos hm)),
    fun v s t h => congrArg Host.Outcome.next (State.rowWrite_wlnAgg h v),
    fun p origin e s hup => ⟨fun hm => congrArg Host.Outcome.next (State.doGo_alone hup hm _ _),
      fun hm => congrArg Host.Outcome.next (State.doGo_mustered hup hm _ _)⟩,
    fun p v s u hm hup => ⟨fun hu => congrArg Host.Outcome.next (State.doAgg_from_root hm hup _ hu),
      congrArg Host.Outcome.next (State.doAgg_from_child hm hup _)⟩,
    fun p slot k s => rfl,
    fun id f s u h => ⟨fun node bs hp hk hst hslot => congrArg Host.Outcome.next (State.doMsWaylineLaunch_sends h hp hk hst hslot),
      fun hst => congrArg Host.Outcome.next (State.doMsWaylineLaunch_down h hst)⟩,
    fun p a seq s u hu hst hseq => congrArg Host.Outcome.next (State.doTimeExchangeTimer_up hu hst hseq),
    fun p seq a l s u hu hst => congrArg Host.Outcome.next (State.doTimeReq_up hu hst _ _),
    fun p seq t2 a x s u hu hx hseq hst => congrArg Host.Outcome.next (State.doTimeT2_stamps hu hx hseq hst _),
    fun p seq t3 x t2 t4 r s hx hseq ht2 hst hr => congrArg Host.Outcome.next (State.doTimeT3_completes hx hseq ht2 hst hr)⟩

end Sys2Proof.Machine
end


section
/-! PROOFS. Wayline services and convoys (O54, O55): flits that their service takes, the message committed to a queue, the sending
commands, and a muster by its commands and timeouts. -/

namespace Sys2Proof.Machine

/-! ### Flits that are delivered (R417, R419) -/

theorem State.onFlit_receives {s t : State} {p typ vc : Nat} {f g : Flit} (h : s.receives p typ vc f g t) (service : Flit → State → State) :
    s.onFlit p typ vc f service = service g t := by
  obtain ⟨hg, ha, hm⟩ := h
  unfold State.onFlit
  dsimp only
  rw [← hg, ha]
  exact if_pos hm

theorem State.onFlit_down {s : State} {p : Nat} (h : s.wstate p ≠ wUp) (typ vc : Nat) (f : Flit) (service : Flit → State → State) :
    s.onFlit p typ vc f service = s := by
  have hno : s.acceptFlit p { f with typ := typ, vc := vc } = (s, false) := if_pos h
  unfold State.onFlit
  dsimp only
  rw [hno]

theorem State.takeMsg_commits {p q elem : Nat} {f : Flit} {t u : State} (hq : q = f.word) (hlt : q < 16384) (hon : t.qOn q = true)
    (hprod : bitAt (t.fget fDPT_Q_CTL_prod q) 1 = true) (hlen : f.payload.length ≤ t.qElem q) (helem : elem = ofBytes f.payload)
    (hroom : (t.dq q).elems.length < t.qCap q) (hheld : (t.dq q).held = []) (hu : u = t.qPush q elem) :
    State.takeMsg p f t = (u.owe p 0).replyFlit p f.src 2 0 f.xid 0 true [] := by
  unfold State.takeMsg
  dsimp only
  rw [← hq, if_neg (fun hn => hn.elim (Nat.not_le.mpr hlt) fun hn => hn.elim (ne_false_of_eq_true hon) (ne_false_of_eq_true hprod)),
    if_neg (Nat.not_lt.mpr hlen), if_neg (fun hn => hn.elim (Nat.not_le.mpr hroom) fun hn => hn hheld), ← helem, ← hu]

section FaultTimeout
variable {id : Nat} {h : BulkHold} {s u : State} (hh : s.wln.holds.find? (fun h => h.id == id) = some h) (hu : u = s.advance h.until_)
include hh hu

theorem State.doBulkFaultTimeout_slot {i : Nat} {x : FaultSlot} (hs : u.slotOfId id = some (i, x)) :
    s.doBulkFaultTimeout id = (u.setSlot i none).failHolds id := by
  unfold State.doBulkFaultTimeout
  rw [hh]
  dsimp only
  rw [← hu, hs]

theorem State.doBulkFaultTimeout_gone (hs : u.slotOfId id = none) : s.doBulkFaultTimeout id = u.failHolds id := by
  unfold State.doBulkFaultTimeout
  rw [hh]
  dsimp only
  rw [← hu, hs]

end FaultTimeout

/-! ### Commands that send a unit (R420, R421) -/

section Unit
variable {v : State} {typ node word : Nat} {bs : List Byte}

theorem State.sendUnit_no_port {st : Status} (h : v.nodePort node = .error st) : v.sendUnit typ node word bs = fail v st := by
  unfold State.sendUnit
  rw [h]

theorem State.sendUnit_down {p : Nat} (h : v.nodePort node = .ok p) (hd : v.linkUp p = false) : v.sendUnit typ node word bs = fail v .linkDown := by
  unfold State.sendUnit
  rw [h]
  exact if_pos hd

theorem State.sendUnit_sends {p : Nat} {m : State × Nat} (h : v.nodePort node = .ok p) (hup : v.linkUp p = true)
    (hm : m = v.unitOut typ node p word bs) : v.sendUnit typ node word bs = (m.1, .wait (.message m.2) 0 0 0 0 1) := by
  subst hm
  unfold State.sendUnit
  rw [h]
  exact if_neg (ne_false_of_eq_true hup)

end Unit

section Send
variable {k : Packet} {s v : State} {bs : List Byte} (hread : s.payload (u8 k 20) (u64 k 8) (u32 k 16) = (v, .bytes bs))
include hread

theorem bodyWaylineSend_message (hq : u16 k 2 < 2 ^ 14) (hn : u32 k 16 ≤ 236) : bodyWaylineSend k s = v.sendUnit 1 (u16 k 0) (u16 k 2) bs := by
  have hslot : decide (2 ^ 15 ≤ u16 k 2) = false := decide_eq_false (by omega)
  unfold bodyWaylineSend
  dsimp only
  rw [hslot, if_neg (fun hn => hn.elim (fun h => by rw [if_neg Bool.false_ne_true] at h; omega) fun hn => hn.elim (fun h => Bool.noConfusion h.1)
    fun h => by omega), hread]
  exact if_neg Bool.false_ne_true

theorem bodyWaylineSend_slot (hq : 2 ^ 15 ≤ u16 k 2) (hz : bits (u16 k 2) 14 6 = 0) (h2 : 2 ≤ u32 k 16) (hn : u32 k 16 ≤ 238)
    (hnode : 256 ≤ u16 k 0) : bodyWaylineSend k s =
      ok (v.setLaunchSlot (bits (u16 k 2) 5 4) (bits (u16 k 2) 3 0) (some (u16 k 0, bs))) := by
  have hslot : decide (2 ^ 15 ≤ u16 k 2) = true := decide_eq_true hq
  unfold bodyWaylineSend
  dsimp only
  rw [hslot, if_neg (fun hn => hn.elim (fun h => by rw [if_pos rfl] at h; omega) fun hn => hn.elim (fun h => h.2.elim (by omega) fun h => h hz)
    fun h => Bool.noConfusion h.1), hread]
  dsimp only
  rw [if_pos rfl, if_neg (by omega)]

end Send

theorem bodyWaylineForward_reads {k : Packet} {s v : State} {bs : List Byte} (hread : s.payload (u8 k 16) (u64 k 8) 64 = (v, .bytes bs)) :
    bodyWaylineForward k s = v.sendUnit 3 (u16 k 0) 0 bs := by
  unfold bodyWaylineForward
  rw [hread]

/-- Settles O54: the flits of each type, the message and the held unit, and the two commands in turn. -/
theorem waylineServicesAct : Obligations.WaylineServicesAct := by
  unfold Obligations.WaylineServicesAct
  refine ⟨fun p f g s t => ⟨fun h => congrArg Host.Outcome.next (State.onFlit_receives h _),
      fun h => congrArg Host.Outcome.next (State.onFlit_receives h _), fun h => congrArg Host.Outcome.next (State.onFlit_receives h _),
      fun h => congrArg Host.Outcome.next (State.onFlit_receives h _), fun h => congrArg Host.Outcome.next (State.onFlit_receives h _),
      fun h => congrArg Host.Outcome.next (State.onFlit_receives h _), fun h => congrArg Host.Outcome.next (State.onFlit_receives h _),
      fun h => congrArg Host.Outcome.next (State.onFlit_receives h _), fun h => congrArg Host.Outcome.next (State.onFlit_down h _ _ _ _)⟩,
    fun p f t u q elem hq hlt hon hprod hlen helem hroom hheld hu => State.takeMsg_commits hq hlt hon hprod hlen helem hroom hheld hu,
    fun id i h x s u hh hu => ⟨fun hs => congrArg Host.Outcome.next (State.doBulkFaultTimeout_slot hh hu hs),
      fun hs => congrArg Host.Outcome.next (State.doBulkFaultTimeout_gone hh hu hs)⟩, ?_, ?_⟩
  · rintro s _ v k bs hacc rfl hread
    refine ⟨fun hq hn => ?_, fun hq hz h2 hn hnode => congrArg Host.Outcome.next (State.runCommand_completes
      (effect := fun _ => v.setLaunchSlot (bits (u16 k 2) 5 4) (bits (u16 k 2) 3 0) (some (u16 k 0, bs))) hacc rfl
      (bodyWaylineSend_slot hread hq hz h2 hn hnode))⟩
    have hbody := bodyWaylineSend_message hread hq hn
    refine ⟨fun st hp => ?_, fun p hp hd => ?_, fun p m hp hup hm => ?_⟩
    · exact congrArg Host.Outcome.next (State.runCommand_ends (effect := fun _ => v) hacc rfl (hbody.trans (State.sendUnit_no_port hp)))
    · exact congrArg Host.Outcome.next (State.runCommand_ends (effect := fun _ => v) hacc rfl (hbody.trans (State.sendUnit_down hp hd)))
    · exact congrArg Host.Outcome.next (State.runCommand_awaits (effect := fun _ => m.1) hacc rfl (hbody.trans (State.sendUnit_sends hp hup hm)))
  · rintro s _ v k bs p m hacc rfl hread hp hup hm
    exact congrArg Host.Outcome.next (State.runCommand_awaits (effect := fun _ => m.1) hacc rfl
      ((bodyWaylineForward_reads hread).trans (State.sendUnit_sends hp hup hm)))

/-! ### Convoys (R431 to R434) -/

section Muster
variable {k : Packet} {s : State}

theorem bodyMuster_mustered (hm : s.mustered = true) : bodyMuster k s = fail s .convoyRefused := if_pos (.inl hm)

variable (hm : s.mustered = false) (hi : s.mustering = false)
include hm hi

theorem bodyMuster_no_port (hp : s.helloPorts = []) : bodyMuster k s = fail s .linkDown :=
  (if_neg (not_or.mpr ⟨ne_true_of_eq_false hm, ne_true_of_eq_false hi⟩)).trans (if_pos hp)

theorem bodyMuster_begins {v : State} {bs : List Byte} {m : Nat} (hp : s.helloPorts ≠ [])
    (hread : s.payload (u8 k 16) (u64 k 8) 512 = (v, .bytes bs)) (hmf : m = ofBytes bs) (hc : mfConvoy m = u32 k 0)
    (hn : mfMembers m = u16 k 4) (hself : mfMember m ≤ 255) (hroot : mfRoot m ≤ 255) :
    bodyMuster k s = (v.beginMuster (u32 k 0) bs, .wait .muster 0 0 0 0 1) := by
  unfold bodyMuster
  rw [if_neg (not_or.mpr ⟨ne_true_of_eq_false hm, ne_true_of_eq_false hi⟩), if_neg hp, hread]
  dsimp only
  rw [← hmf, if_neg fun h => h.elim (fun h => h hc) fun h => h.elim (fun h => h hn) fun h => h.elim (Nat.not_lt.mpr hself) (Nat.not_lt.mpr hroot)]

end Muster

/-- Settles O55: MUSTER and CONVOY_LEAVE by the member's state, the muster's flits, and its three timeouts. -/
theorem convoysMuster : Obligations.ConvoysMuster := by
  unfold Obligations.ConvoysMuster
  refine ⟨?_, ?_, ?_, fun p f g s t h => congrArg Host.Outcome.next (State.onFlit_receives h _),
    fun s hi => ⟨fun hst hsent => congrArg Host.Outcome.next (if_pos ⟨hi, hst, hsent⟩), fun hr => congrArg Host.Outcome.next (if_pos ⟨hi, hr⟩),
      congrArg Host.Outcome.next (if_pos hi)⟩⟩
  · rintro s _ v k bs hacc rfl hm hi
    refine ⟨fun hp => ?_, fun m hp hread hmf hc hn hself hroot => ?_⟩
    · exact congrArg (fun t : State => Host.Outcome.next t.musterStarted)
        (State.runCommand_ends (effect := id) hacc rfl (bodyMuster_no_port hm hi hp))
    · exact congrArg (fun t : State => Host.Outcome.next t.musterStarted) (State.runCommand_awaits
        (effect := fun _ => v.beginMuster (u32 k 0) bs) hacc rfl (bodyMuster_begins hm hi hp hread hmf hc hn hself hroot))
  · rintro s _ k hacc rfl hm
    exact congrArg (fun t : State => Host.Outcome.next t.musterStarted)
      (State.runCommand_ends (effect := id) hacc rfl (bodyMuster_mustered hm))
  · rintro s _ k hacc rfl
    refine ⟨?_, fun hm hi => ?_, fun hm hi => ?_⟩
    · rintro _ hm rfl
      exact congrArg Host.Outcome.next (State.runCommand_completes (effect := fun _ => _) hacc rfl (if_pos hm))
    · exact congrArg Host.Outcome.next (State.runCommand_completes (effect := fun v => (v.fput fWLN_STATUS_state 0 0).endWaits .muster
        .convoyRefused) hacc rfl ((if_neg (ne_true_of_eq_false hm)).trans (if_pos hi)))
    · exact congrArg Host.Outcome.next (State.runCommand_completes (effect := id) hacc rfl
        ((if_neg (ne_true_of_eq_false hm)).trans (if_neg (ne_true_of_eq_false hi))))

end Sys2Proof.Machine
end


section
/-! PROOFS. Power domains (O56): a request to switch a domain by its direction and the domain's state, the end of a pending power-down and
of a rise, and the per-block reset. -/

namespace Sys2Proof.Machine

/-! ### A request to switch (R448 to R450) -/

section Switch
variable {s : State} {d : Nat}

theorem State.switchDomain_none (h : switchable d = false) (on : Bool) : s.switchDomain d on = (s, some .paramInvalid) := if_pos h

variable (hsw : switchable d = true) (hrise : bitAt s.bnc.rising d = false) (hdown : s.goesDown d = false)
include hsw hrise hdown

theorem State.switchDomain_on : s.switchDomain d true = if s.powered d then (s, some .ok) else (s.beginRise d, none) := by
  unfold State.switchDomain
  dsimp only
  rw [if_neg (ne_false_of_eq_true hsw), if_pos rfl, if_neg (ne_true_of_eq_false hrise), if_neg (ne_true_of_eq_false hdown)]

theorem State.switchDomain_off : s.switchDomain d false = if s.powered d = false then (s, some .ok)
    else if s.domainBusy d then (s, some .domainBusy)
    else if s.domainInLeg d then (s.setSwitching d true, none)
    else (s.cutPower d, some .ok) := by
  unfold State.switchDomain
  dsimp only
  rw [if_neg (ne_false_of_eq_true hsw), if_neg Bool.false_ne_true, if_neg (ne_true_of_eq_false hrise), if_neg (ne_true_of_eq_false hdown)]

theorem State.switchDomain_on_already (hp : s.powered d = true) : s.switchDomain d true = (s, some .ok) :=
  (State.switchDomain_on hsw hrise hdown).trans (if_pos hp)

theorem State.switchDomain_on_rises (hp : s.powered d = false) : s.switchDomain d true = (s.beginRise d, none) :=
  (State.switchDomain_on hsw hrise hdown).trans (if_neg (ne_true_of_eq_false hp))

theorem State.switchDomain_off_already (hp : s.powered d = false) : s.switchDomain d false = (s, some .ok) :=
  (State.switchDomain_off hsw hrise hdown).trans (if_pos hp)

variable (hp : s.powered d = true)
include hp

theorem State.switchDomain_off_busy (hb : s.domainBusy d = true) : s.switchDomain d false = (s, some .domainBusy) :=
  (State.switchDomain_off hsw hrise hdown).trans ((if_neg (ne_false_of_eq_true hp)).trans (if_pos hb))

variable (hb : s.domainBusy d = false)
include hb

theorem State.switchDomain_off_waits (hl : s.domainInLeg d = true) : s.switchDomain d false = (s.setSwitching d true, none) :=
  (State.switchDomain_off hsw hrise hdown).trans
    ((if_neg (ne_false_of_eq_true hp)).trans ((if_neg (ne_true_of_eq_false hb)).trans (if_pos hl)))

theorem State.switchDomain_off_cuts (hl : s.domainInLeg d = false) : s.switchDomain d false = (s.cutPower d, some .ok) :=
  (State.switchDomain_off hsw hrise hdown).trans
    ((if_neg (ne_false_of_eq_true hp)).trans ((if_neg (ne_true_of_eq_false hb)).trans (if_neg (ne_true_of_eq_false hl))))

end Switch

section Command
variable {k : Packet} {s t : State} {d : Nat} (hd : d = u8 k 0)
include hd

theorem bodyPowerDomain_ok (hon : u8 k 1 ≤ 1) (h : s.switchDomain d (u8 k 1 == 1) = (t, some .ok)) : bodyPowerDomain k s = ok t := by
  subst hd
  unfold bodyPowerDomain
  dsimp only
  rw [if_neg (Nat.not_lt.mpr hon), h]

theorem bodyPowerDomain_fails {st : Status} (hon : u8 k 1 ≤ 1) (hst : st ≠ .ok) (h : s.switchDomain d (u8 k 1 == 1) = (t, some st)) :
    bodyPowerDomain k s = fail t st := by
  subst hd
  unfold bodyPowerDomain
  dsimp only
  rw [if_neg (Nat.not_lt.mpr hon), h]
  cases st with
  | ok => exact absurd rfl hst
  | _ => rfl

theorem bodyPowerDomain_waits (hon : u8 k 1 ≤ 1) (h : s.switchDomain d (u8 k 1 == 1) = (t, none)) :
    bodyPowerDomain k s = (t, .wait (if u8 k 1 = 1 then .powerUp d else .powerDown d) 0 0 0 0 0) := by
  subst hd
  unfold bodyPowerDomain
  dsimp only
  rw [if_neg (Nat.not_lt.mpr hon), h]

end Command

/-! ### The ends of a power-down and of a rise (R451, R452) -/

section PowerDown
variable {d : Nat} {s u : State} (hdown : s.goesDown d = true) (hleg : s.domainInLeg d = false)
  (hu : u = (((s.cutPower d).endWaits (.powerDown d) .ok).pwrDone d false .ok))
include hdown hleg hu

theorem State.doPendingPowerDown_acts : s.doPendingPowerDown d = if bitAt u.bnc.upNext d ∨ bitAt u.bnc.blkReset d then
    State.beginRise { u with bnc := { u.bnc with upNext := setBit u.bnc.upNext d false } } d else u := by
  subst hu
  exact if_neg (not_or.mpr ⟨ne_false_of_eq_true hdown, ne_true_of_eq_false hleg⟩)

end PowerDown

section PowerUp
variable {d : Nat} {s u : State} (hrise : bitAt s.bnc.rising d = true) (hu : u = s.advance (nget 0 d s.bnc.riseEnd))
  (hnext : bitAt u.bnc.downNext d = false)
include hrise hu hnext

theorem State.doPowerUpDone_acts : s.doPowerUpDone d =
    ((if bitAt u.bnc.blkReset d then ((u.endRise d).dropRegs (domainReg d)).dropUnits d else u.endRise d).endWaits (.powerUp d) .ok).pwrDone d true
      .ok := by
  unfold State.doPowerUpDone
  dsimp only
  rw [if_neg (ne_false_of_eq_true hrise), ← hu, if_neg (ne_true_of_eq_false hnext)]

end PowerUp

/-! ### The per-block reset (R455) -/

section BlockReset
variable {v d : Nat} {t : State} (htrip : t.bnc.tripped = false) (hgo : bitAt v 6 = true) (hd : d = bits v 5 0)
include htrip hgo hd

theorem State.doBlkReset_no_domain (hsw : switchable d = false) : t.doBlkReset v = t.fput fBNC_BLK_STAT_err 0 1 := by
  subst hd
  exact (if_neg (not_or.mpr ⟨ne_false_of_eq_true hgo, ne_true_of_eq_false htrip⟩)).trans (if_pos (.inl hsw))

theorem State.doBlkReset_cuts {w : State} (hsw : switchable d = true) (hpend : bitAt (t.fget fPWR_SWITCHING_pending) d = false)
    (hbusy : t.domainBusy d = false) (hw : w = { t with bnc := { t.bnc with blkReset := setBit t.bnc.blkReset d true } })
    (hp : w.powered d = true) (hleg : w.domainInLeg d = false) : t.doBlkReset v = (w.cutPower d).beginRise d := by
  subst hd hw
  refine (if_neg (not_or.mpr ⟨ne_false_of_eq_true hgo, ne_true_of_eq_false htrip⟩)).trans ((if_neg fun h => h.elim (ne_false_of_eq_true hsw)
    fun h => h.elim (ne_true_of_eq_false hpend) fun h => ne_true_of_eq_false hbusy h.2).trans ?_)
  exact (if_neg (ne_false_of_eq_true hp)).trans (if_neg (ne_true_of_eq_false hleg))

end BlockReset

theorem State.rowWrite_blkReset {s t : State} (h : s.takesInOrder .BNC_BLK_RESET 0 t) (v : BitVec 32) :
    s.rowWrite .BNC_BLK_RESET 0 v.toNat = t.doBlkReset v.toNat := by
  rw [State.rowWrite_takes h.1 h.2]
  unfold State.regEffect
  dsimp only
  rw [fullWord_whole, Nat.mod_eq_of_lt (a := v.toNat) (b := 2 ^ RegId.BNC_BLK_RESET.info.width) v.isLt]

/-- Settles O56: POWER_DOMAIN by the request's ends, then what ends a power-down and a rise, and the per-block reset. -/
theorem powerDomainsSwitch : Obligations.PowerDomainsSwitch := by
  unfold Obligations.PowerDomainsSwitch
  refine ⟨?_, ?_, ?_, ?_⟩
  · rintro s _ k d hacc rfl hd hon
    refine ⟨fun hsw => ?_, fun hsw hrise hdown => ?_⟩
    · exact congrArg Host.Outcome.next (State.runCommand_ends (effect := id) hacc rfl
        (bodyPowerDomain_fails hd hon (by decide) (State.switchDomain_none hsw _)))
    refine ⟨fun h1 hp => ?_, fun h1 hp => ?_, fun h0 hp => ?_, fun h0 hp hb => ?_, fun h0 hp hb hl => ?_, fun h0 hp hb hl => ?_⟩
    · refine congrArg Host.Outcome.next (State.runCommand_completes (effect := id) hacc rfl (bodyPowerDomain_ok hd hon ?_))
      rw [h1]
      exact State.switchDomain_on_already hsw hrise hdown hp
    · refine congrArg Host.Outcome.next (State.runCommand_awaits (effect := fun v => v.beginRise d) hacc rfl
        ((bodyPowerDomain_waits hd hon (t := (s.begun k).beginRise d) ?_).trans ?_))
      · rw [h1]
        exact State.switchDomain_on_rises hsw hrise hdown hp
      · rw [if_pos h1]
    · refine congrArg Host.Outcome.next (State.runCommand_completes (effect := id) hacc rfl (bodyPowerDomain_ok hd hon ?_))
      rw [h0]
      exact State.switchDomain_off_already hsw hrise hdown hp
    · refine congrArg Host.Outcome.next (State.runCommand_ends (effect := id) hacc rfl (bodyPowerDomain_fails hd hon (by decide) ?_))
      rw [h0]
      exact State.switchDomain_off_busy hsw hrise hdown hp hb
    · refine congrArg Host.Outcome.next (State.runCommand_awaits (effect := fun v => v.setSwitching d true) hacc rfl
        ((bodyPowerDomain_waits hd hon (t := (s.begun k).setSwitching d true) ?_).trans ?_))
      · rw [h0]
        exact State.switchDomain_off_waits hsw hrise hdown hp hb hl
      · rw [if_neg (by omega)]
    · refine congrArg Host.Outcome.next (State.runCommand_completes (effect := fun v => v.cutPower d) hacc rfl (bodyPowerDomain_ok hd hon ?_))
      rw [h0]
      exact State.switchDomain_off_cuts hsw hrise hdown hp hb hl
  · intro d s u hdown hleg hu
    have hacts := State.doPendingPowerDown_acts hdown hleg hu
    exact ⟨fun hn hr => congrArg Host.Outcome.next (hacts.trans (if_neg (not_or.mpr ⟨ne_true_of_eq_false hn, ne_true_of_eq_false hr⟩))),
      fun hn => congrArg Host.Outcome.next (hacts.trans (if_pos (.inl hn)))⟩
  · intro d s u hrise hu hnext
    have hacts := State.doPowerUpDone_acts hrise hu hnext
    refine ⟨fun hr => congrArg Host.Outcome.next (hacts.trans ?_), fun hr => congrArg Host.Outcome.next (hacts.trans ?_)⟩
    · rw [if_neg (ne_true_of_eq_false hr)]
    · rw [if_pos hr]
  · intro v d s t h htrip hgo hd
    exact ⟨fun hsw => congrArg Host.Outcome.next ((State.rowWrite_blkReset h v).trans (State.doBlkReset_no_domain htrip hgo hd hsw)),
      fun w hsw hpend _ hbusy hw hp hleg => congrArg Host.Outcome.next
        ((State.rowWrite_blkReset h v).trans (State.doBlkReset_cuts htrip hgo hd hsw hpend hbusy hw hp hleg))⟩

end Sys2Proof.Machine
end


section
/-! PROOFS. Start-up, resets, heat and SMBus (O57, O58): the boot's end by its status, what a cold reset, a warm reset and a trip leave, and
a temperature reading by whether the device has tripped. -/

namespace Sys2Proof.Machine

/-! ### Start-up (R457 to R460) -/

theorem State.bnc_fput (s : State) (f : Fld) (i x : Nat) : (s.fput f i x).bnc = s.bnc := rfl

theorem State.doPowerGood_boots {s u : State} {straps : Nat} (hstage : s.fget fBNC_STATUS_stage = 0) (hst : s.fget fBNC_STATUS_boot_status = 0)
    (hu : u = s.bootStart straps) : s.doPowerGood straps = (((((((u.fput fBNC_STATUS_stage 0 3).fput fBNC_RESET_boot 0 u.bnc.bootCount).fput
      fBNC_STATUS_sig_required 0 (b2n u.bnc.fuseSig)).fput fPWR_ON_on 0 (2 ^ 20 + 15 * 2 ^ 12)).fput fMEM_STATUS_state 0 1).channelStates 1).trainPci) := by
  unfold State.doPowerGood
  dsimp only
  rw [if_neg (not_or.mpr ⟨not_not.mpr hstage, not_not.mpr hst⟩), ← hu, State.bnc_fput, State.bnc_fput]

section BootEnd
variable {st failed : Nat} {dir fb : Bool} {rej : List (Nat × Nat × Nat)} {s u : State}

theorem State.doBootComplete_ruled_out (h : s.bootCan st dir failed = false) : s.doBootComplete st dir fb failed rej = s :=
  if_pos (.inr (.inr (.inr h)))

variable (hstage : s.fget fBNC_STATUS_stage = 3) (hboot : s.fget fBNC_STATUS_boot_status = 0) (htrip : s.bnc.tripped = false)
  (hcan : s.bootCan st dir failed = true) (hu : u = s.bootNote st dir fb (rej.filter (fun r => s.canReject r.1 r.2.1 r.2.2)))
include hstage hboot htrip hcan hu

theorem State.doBootComplete_acts : s.doBootComplete st dir fb failed rej =
    if st ≠ 1 then (u.fput fBNC_STATUS_stage 0 (failStage st)).bootRecord st
    else (if ((u.bootUp failed).fput fBNC_STATUS_stage 0 6).host.perst then (u.bootUp failed).fput fBNC_STATUS_stage 0 6
      else ((u.bootUp failed).fput fBNC_STATUS_stage 0 6).setReady).bootRecord 1 := by
  unfold State.doBootComplete
  dsimp only
  rw [if_neg (fun h => h.elim (fun h => h hstage) fun h => h.elim (fun h => h hboot) fun h => h.elim (ne_true_of_eq_false htrip)
    (ne_false_of_eq_true hcan)), ← hu]

theorem State.doBootComplete_fails (hst : st ≠ 1) : s.doBootComplete st dir fb failed rej =
    (u.fput fBNC_STATUS_stage 0 (failStage st)).bootRecord st := (State.doBootComplete_acts hstage hboot htrip hcan hu).trans (if_pos hst)

theorem State.doBootComplete_up {v : State} (hst : st = 1) (hv : v = (u.bootUp failed).fput fBNC_STATUS_stage 0 6) :
    s.doBootComplete st dir fb failed rej = (if v.host.perst then v else v.setReady).bootRecord 1 := by
  rw [State.doBootComplete_acts hstage hboot htrip hcan hu, if_neg (not_not.mpr hst), ← hv]

end BootEnd

section BootCan
variable {s : State} {dir : Bool} {failed : Nat}

theorem State.bootCan_unsigned (h : s.fbit fBNC_STATUS_sig_required = false) (st : Nat) : s.bootCan st dir failed =
    (st != 3 && (st != 1 || (s.imagesGood dir && !s.mapLost failed)) && (st != 7 || s.mapLost failed)) := by
  unfold State.bootCan
  rw [if_neg (ne_true_of_eq_false h)]

theorem State.bootCan_signed (h : s.fbit fBNC_STATUS_sig_required = true) (st : Nat) : s.bootCan st dir failed =
    ((st != 1 || (s.dirSigned dir && s.vendorSigned dir)) && (st != 1 || (s.imagesGood dir && !s.mapLost failed)) &&
      (st != 7 || s.mapLost failed)) := by
  unfold State.bootCan
  rw [if_pos h]

theorem State.bootCan_no_map (h : s.mapLost failed = false) : s.bootCan 7 dir failed = false := by
  unfold State.bootCan
  rw [h]
  exact Bool.and_false _

theorem State.bootCan_ready_unsigned (h : s.fbit fBNC_STATUS_sig_required = false) :
    s.bootCan 1 dir failed = true ↔ s.imagesGood dir = true ∧ s.mapLost failed = false := by
  rw [State.bootCan_unsigned h]
  generalize s.imagesGood dir = i
  generalize s.mapLost failed = m
  revert i m
  decide

theorem State.bootCan_ready_signed (h : s.fbit fBNC_STATUS_sig_required = true) : s.bootCan 1 dir failed = true ↔
    s.dirSigned dir = true ∧ s.vendorSigned dir = true ∧ s.imagesGood dir = true ∧ s.mapLost failed = false := by
  rw [State.bootCan_signed h]
  generalize s.dirSigned dir = d
  generalize s.vendorSigned dir = v
  generalize s.imagesGood dir = i
  generalize s.mapLost failed = m
  revert d v i m
  decide

end BootCan

/-! ### Resets (R453, R454) -/

theorem State.doColdReset_leaves {b : Bool} {s u v w : State} (hu : u = s.logWrite 2 0xFF 0 0) (hv : v = u.coldState)
    (hw : w = v.setMer 0 { v.mer 0 with anchorT := u.now }) : s.doColdReset b =
      (((((w.fput fBNC_LOG_STAT_writes 0 0).fput fBNC_LOG_STAT_suppressed 0 0).fput fBNC_RESET_last 0 (b2n b)).fput fBNC_RESET_trip_before 0
        (b2n s.bnc.tripped)).fput fBNC_RESET_boot 0 u.bnc.bootCount) := by
  unfold State.doColdReset State.coldEnd
  dsimp only
  rw [← hu, ← hv, ← hw]

theorem State.doWarmReset_leaves {s u v : State} (hperst : s.host.perst = false)
    (hu : u = ((List.range 4).foldl State.portDown s).logWrite 5 0xFF s.acceptedJobs.length 0) (hv : v = u.settleWrites) : s.doWarmReset =
      ((v.warmState.fput fHLM_FIX_STAT_seq 0 v.helm.fixSeq).fput fBNC_RESET_last 0 2).bump fBNC_RESET_warm_count := by
  unfold State.doWarmReset
  dsimp only
  rw [if_neg (ne_true_of_eq_false hperst), ← hu, ← hv]
  rfl

section Perst
variable {s u : State} (hperst : s.host.perst = true) (hu : u = State.trainPci { s with host := { s.host with perst := false } })
include hperst hu

theorem State.doPerstDeassert_acts : s.doPerstDeassert =
    if u.fget fBNC_STATUS_boot_status = 1 ∧ u.bnc.tripped = false then u.makeSystemQueues.setReady else u := by
  unfold State.doPerstDeassert
  dsimp only
  rw [if_neg (ne_false_of_eq_true hperst), ← hu]

end Perst

/-- Settles O57: power good, the boot's end, and the resets with what each leaves, in turn. -/
theorem startUpAndResetsAct : Obligations.StartUpAndResetsAct := by
  unfold Obligations.StartUpAndResetsAct
  refine ⟨fun straps s u hstage hst hu => congrArg Host.Outcome.next (State.doPowerGood_boots hstage hst hu), ?_,
    fun b s u v w hu hv hw => congrArg Host.Outcome.next (State.doColdReset_leaves hu hv hw), ?_, ?_,
    fun s u hperst hu v hv => congrArg Host.Outcome.next (State.doWarmReset_leaves hperst hu hv), ?_, ?_⟩
  · intro st dir fb failed rej s u v hstage hboot htrip hcan hu
    refine ⟨fun hst => congrArg Host.Outcome.next (State.doBootComplete_fails hstage hboot htrip hcan hu hst), fun hst hv => ?_⟩
    have hup := State.doBootComplete_up hstage hboot htrip hcan hu hst hv
    refine ⟨fun hp => congrArg Host.Outcome.next (hup.trans ?_), fun hp => congrArg Host.Outcome.next (hup.trans ?_)⟩
    · rw [if_pos hp]
    · rw [if_neg (ne_true_of_eq_false hp)]
  · rintro s _ rfl
    exact ⟨rfl, rfl, rfl, rfl, rfl, rfl, rfl, rfl, rfl, rfl, rfl⟩
  · intro s dir failed
    refine ⟨fun h => ⟨?_, State.bootCan_ready_unsigned h⟩, fun h => State.bootCan_ready_signed h, State.bootCan_no_map,
      fun fb rej st h => congrArg Host.Outcome.next (State.doBootComplete_ruled_out h)⟩
    rw [State.bootCan_unsigned h]
    rfl
  · rintro s _ rfl
    exact ⟨rfl, rfl, rfl, rfl, rfl, rfl, rfl, rfl, rfl, rfl⟩
  · intro s u hperst hu
    have hacts := State.doPerstDeassert_acts hperst hu
    exact ⟨fun hb ht => congrArg Host.Outcome.next (hacts.trans (if_pos ⟨hb, ht⟩)),
      fun ht => congrArg Host.Outcome.next (hacts.trans (if_neg fun h => ne_false_of_eq_true ht h.2))⟩

/-! ### Heat (R462 to R467) -/

theorem State.trip_again {s : State} (h : s.bnc.tripped = true) : s.trip = s := if_pos h

section Trip
variable {s u : State} (h : s.bnc.tripped = false) (hu : u = s.logWrite 3 0xFF 0 (s.fget fTHM_TEMP_rise))
include h hu

theorem State.trip_acts : s.trip = (if u.fget fTHM_STAT_state = 0 then u.newAlert else u).tripEnd := by
  subst hu
  exact if_neg (ne_true_of_eq_false h)

end Trip

section Sample
variable {temp : Int} {s u v : State} (hu : u = s.advance (s.mer0Instant ((s.mer0 / 400000 + 1) * 400000)))
  (hv : v = (u.noteReading temp).limitCheck temp)
include hu hv

theorem State.doThermalSample_acts : s.doThermalSample temp =
    if 1776 ≤ temp then (if v.bnc.tripped then v else v.thermalStep (u.nextRise temp)).trip
    else if v.bnc.tripped then v else v.thermalStep (u.nextRise temp) := by
  unfold State.doThermalSample
  dsimp only
  rw [← hu, ← hv]

end Sample

/-- Settles O58: a reading by whether the device has tripped, the trip and what it leaves, THERMAL_SET, and the SMBus commands. -/
theorem heatAndSmbusAct : Obligations.HeatAndSmbusAct := by
  unfold Obligations.HeatAndSmbusAct
  refine ⟨?_, ?_, ?_, ?_, fun s => ⟨rfl, rfl, rfl, rfl, rfl⟩⟩
  · intro temp s u v hu hv
    have hacts := State.doThermalSample_acts hu hv
    refine ⟨fun ht hlt => congrArg Host.Outcome.next (hacts.trans ?_), fun ht hge => congrArg Host.Outcome.next (hacts.trans ?_),
      fun ht hlt => congrArg Host.Outcome.next (hacts.trans ?_)⟩
    · rw [if_neg (Int.not_le.mpr hlt), if_neg (ne_true_of_eq_false ht)]
    · rw [if_pos hge, if_neg (ne_true_of_eq_false ht)]
    · rw [if_neg (Int.not_le.mpr hlt), if_pos ht]
  · intro s
    refine ⟨fun h => congrArg Host.Outcome.next (State.trip_again h), fun u h hu => ?_⟩
    have hacts := State.trip_acts h hu
    refine ⟨fun hst => congrArg Host.Outcome.next (hacts.trans ?_), fun hst => congrArg Host.Outcome.next (hacts.trans ?_)⟩
    · rw [if_neg hst]
    · rw [if_pos hst]
  · rintro s _ rfl
    exact ⟨rfl, rfl, rfl, rfl, rfl, rfl, rfl, rfl⟩
  · intro s k hacc
    refine ⟨fun h => ?_, fun h => ?_⟩
    · exact congrArg Host.Outcome.next (State.runCommand_completes (effect := fun v => (((v.fput fTHM_CFG_warn 0 (u16 k 0)).fput fTHM_CFG_act 0
        (u16 k 2)).fput fTHM_CFG_skip_n 0 (u8 k 4)).fput fTHM_CFG_div 0 (u8 k 5)) hacc rfl (if_neg (ne_false_of_eq_true h)))
    · exact congrArg Host.Outcome.next (State.runCommand_ends (effect := id) hacc rfl (if_pos h))

end Sys2Proof.Machine
end
